-- ==== Sys2Proof/Word.lean ====
section
/-! DEFINITION. Word.lean: the word types of the 8256 and the two container types its state is written with. Registers are 32 bits wide (R7); structures in memory are bytes (R11). -/

namespace Sys2Proof

/-- One byte. -/
abbrev Byte := BitVec 8
/-- One 16-bit half word. -/
abbrev Half := BitVec 16
/-- One 32-bit register or memory word (R7). -/
abbrev Word := BitVec 32
/-- One 64-bit value, which occupies two consecutive registers (R7). -/
abbrev DWord := BitVec 64
/-- A sparse table: (key, value) pairs with strictly rising keys. -/
abbrev Tbl (α : Type) := List (Nat × α)
/-- A sparse byte memory: (address, byte) pairs with strictly rising addresses, no pair equal to the memory's empty byte. -/
abbrev Mem := List Host.Cell

/-- An epoch-staged setting exists twice (R39, R44): the undercoat that software writes and the topcoat in force. -/
structure Staged (α : Type) where
  under : α
  top : α
  /-- the topcoat before the last recoat, which packets of the earlier epoch use during grace (R50) -/
  old : α
deriving DecidableEq, Repr

end Sys2Proof
end

