-- ==== Sys2Proof/Syntax.lean ====
section
/-! DEFINITION. Syntax.lean: the commands of the 8256, one constructor of Instr for each row of the table of operations and events, and the operands they carry. -/

namespace Sys2Proof

/-- Host link 0 to 7 (R4). -/
abbrev HostId := Fin 8
/-- Port group 0 to 7 (R4). -/
abbrev Group := Fin 8
/-- Ethernet lane 0 to 63; a port carries the number of its lowest lane (R5). -/
abbrev Lane := Fin 64
/-- Drive port 0 to 15 (R4). -/
abbrev DrivePort := Fin 16
/-- DRAM channel 0 to 11 (R4). -/
abbrev DramCh := Fin 12
/-- Core cluster 0 to 15 (R4). -/
abbrev Cluster := Fin 16
/-- Core 0 to 15 within its cluster (R4). -/
abbrev CoreIx := Fin 16
/-- Thread 0 to 15 within its core (R4). -/
abbrev ThreadIx := Fin 16
/-- A register number x0 to x31 of a packet core (R365). -/
abbrev RegNo := Fin 32
/-- Pipelines RX0 to RX15 are 0 to 15, TX0 to TX15 are 16 to 31 (R160). -/
abbrev Pipe := Fin 32
/-- An inline tile, numbered as its pipeline. -/
abbrev Tile := Fin 32
/-- A connection domain: host links 0 to 7, and 8 for the storage domain (R272). -/
abbrev Domain := Fin 9
/-- A 24-bit connection number. -/
abbrev ConnNo := BitVec 24
/-- A namespace number 1 to 4,096, held as 0 to 4,095. -/
abbrev NsId := Fin 4096

/-- A function of a host link (R4). -/
inductive Fn where
  | pf0 | pf1 | pf2
  | vf (v : Fin 512)
deriving DecidableEq, Repr

/-- A ring channel: the host channel of a link, or the tenant channel of one of its VFs (R55). -/
structure RingChan where
  link : HostId
  vf : Option (Fin 512)
deriving DecidableEq, Repr

/-- A command channel (R55). -/
inductive Chan where
  | owner
  | ring (c : RingChan)
deriving DecidableEq, Repr

/-- What the reads of a command's slots returned (R60, R70). -/
inductive SlotRead where
  | ok
  /-- the header slot could not be read -/
  | headerFailed
  /-- a parameter slot could not be read -/
  | paramsFailed
deriving DecidableEq, Repr

/-- A command packet as it arrives on its channel (R65). -/
structure Packet where
  chan : Chan
  /-- on the owner channel: the host link whose VDM path carried it, none for SMBus (R57) -/
  vdm : Option HostId
  version : Byte
  flags : Byte
  scope : Byte
  target : Half
  tag : Word
  paramLen : Half
  /-- some reserved header field (0x0C bits 23:0, 0x24 to 0x3C) is not 0 -/
  reservedSet : Bool
  epochBind : DWord
  resultAddr : DWord
  resultLen : Word
  params : List Word
  read : SlotRead
  /-- the function's memory takes the writes of a long result -/
  writeOk : Bool
deriving DecidableEq, Repr

/-- The recoat units of R39. -/
inductive RUnit where
  | parse | cls | schedTop | hostShare | quota
  | spread (h : HostId)
  | schedHost (h : HostId)
  | vfQuota (h : HostId)
deriving DecidableEq, Repr

/-- The two paths that carry MCTP (R57). -/
inductive MctpPath where
  | smbus
  | vdm (h : HostId)
deriving DecidableEq, Repr

/-- What BOOT found on a DRAM channel (R401, R419): the RDIMM's SPD serial number, its capacity in GiB, the highest data rate code its SPD allows (1 to 4), whether its dies are 24 or 32 Gb, whether R401 lists it, whether the check of a quick start holds, and whether full training succeeds. -/
structure DimmFound where
  serial : DWord
  capacity : Nat
  maxSpeed : Fin 5
  dense : Bool
  supported : Bool
  checkOk : Bool
  trainOk : Bool
deriving DecidableEq, Repr
/-- What the loader finds on each DRAM channel: none where no RDIMM answers (R417, R419). -/
structure BootFindings where
  dimms : Vector (Option DimmFound) 12
deriving DecidableEq, Repr
/-- One fault a self-test finds (R454 to R456): the test of R450, the unit by kind and number of R459, and for a memory its failing row or column as in LOCATION. -/
structure TestFault where
  test : Fin 14
  kind : Byte
  unit : BitVec 24
  location : Word
deriving DecidableEq, Repr
/-- What one step of a stepped operation finds: its flash, fuse, drive or memory access succeeded, and the faults of a self-test (R76, R437, R460, R465). -/
structure StepResult where
  ok : Bool
  faults : List TestFault
deriving DecidableEq, Repr
/-- The transport of an SPDM message: DOE on PF0 of a host link, or the owner's MCTP endpoint (R444). -/
inductive SpdmPort where
  | doe (h : HostId)
  | owner (path : MctpPath)
deriving DecidableEq, Repr
/-- An SPDM request: its version byte, request code, two parameters and the bytes after them (R444). -/
structure SpdmReq where
  version : Byte
  code : Byte
  param1 : Byte
  param2 : Byte
  body : List Byte
deriving DecidableEq, Repr
/-- The rate code 1 to 7 and the width a host or drive link trained to (R87, R88). -/
structure LinkTraining where
  speed : Nat
  width : Nat
  flit : Bool
  /-- lanes of the 8256's side found faulty -/
  badLanes : List Nat
deriving DecidableEq, Repr
/-- Why a host is detached (R115). -/
inductive DetachCause where
  | dlDown | perst | hotReset | linkDisable | park
deriving DecidableEq, Repr
/-- A configuration request to a function, at a byte offset (R114). -/
structure CfgReq where
  fn : Fn
  write : Bool
  offset : BitVec 12
deriving DecidableEq, Repr
/-- What the completions of a read carried (R107). -/
inductive CplStatus where
  | ok | ur | ca | poisoned
deriving DecidableEq, Repr
/-- The link errors of R109 that are not answers to a request. -/
inductive LinkError where
  | receiver | badTlp | badDllp | replayTimer | replayRollover | fecCorrected
  | dlProtocol | flowControl | receiverOverflow
  | malformed (header : List Nat) | ecrc (header : List Nat)
  | poisonedTlp (header : List Nat)
  | correctedInternal | uncorrectableInternal
deriving DecidableEq, Repr
/-- What a read of transmit descriptors returned: its status and the bytes of the descriptors (R98). -/
structure TxDescr where
  status : CplStatus
  bytes : List Byte
deriving DecidableEq, Repr
/-- The root of a scheduler tree (R216): a port's transmit tree, or a host link's receive tree. -/
inductive SchedRoot where
  | port (l : Lane)
  | host (h : HostId)
deriving DecidableEq, Repr
/-- A link partner's Clause 73 base page, and whether it advertises the port's ability (R125). -/
structure AnPage where
  page : BitVec 48
  abilityMatch : Bool
deriving DecidableEq, Repr
/-- The fault ordered sets of R126. -/
inductive FaultSeq where
  | localFault | remoteFault
deriving DecidableEq, Repr
/-- What a port lost: signal or alignment, and on which lanes (R126, R134). -/
structure AlignLoss where
  signal : Bool
  lanes : List Lane
deriving DecidableEq, Repr
/-- How a fetched context image arrived (R278, R286). -/
inductive FetchResult where
  | ok
  /-- the tag or version check failed -/
  | checkFailed
  /-- DRAM found it uncorrectable -/
  | uncorrectable
  /-- the host's read completed with UR, CA or poisoned data -/
  | readFailed
deriving DecidableEq, Repr
/-- A work request as read from an SQ: its eight words, or a read that failed (R247, R264). -/
structure WorkRequest where
  words : List Word
  readOk : Bool
deriving DecidableEq, Repr
/-- A buffer descriptor as read from an RQ: its four words, or a read that failed (R99, R247). -/
structure RecvBuffer where
  words : List Word
  readOk : Bool
deriving DecidableEq, Repr
/-- A memory request on a host link (R94): the function and BAR offset it hits, its length in bytes, the bytes of a write, the first words of its header; for the doorbell of a connection's queue, what the slots it rings hold. -/
structure BarReq where
  hit : Option Fn
  offset : Nat
  length : Nat
  write : Bool
  data : List Byte
  poisoned : Bool
  header : List Nat
  wrs : List WorkRequest
  bufs : List RecvBuffer
deriving DecidableEq, Repr
/-- A submission entry as fetched: its queue, its sixteen words, the pages its PRP list names, and whether those reads succeeded (R309, R317). -/
structure Sqe where
  sq : BitVec 16
  words : List Word
  prpList : List DWord
  /-- the ranges a Dataset Management command reads: first block and count -/
  ranges : List (DWord × Word)
  fetchOk : Bool
deriving DecidableEq, Repr
/-- How a command to a drive or a remote target ended (R318). -/
inductive BackingResult where
  | ok
  | mediaError
  /-- the drive's controller was reset, or the drive left, with the command outstanding -/
  | aborted
  /-- another error status of the drive or target -/
  | status (code : BitVec 16)
deriving DecidableEq, Repr
/-- One namespace of a drive as Identify reports it; nawupf and nabspf in blocks, 0-based as NVMe gives them, none where not reported (R307, R326). -/
structure DriveNs where
  nsid : Nat
  capacity : Nat
  blockSize : Nat
  nawupf : Option Nat
  nabspf : Option Nat
  nguid : List Byte
deriving DecidableEq, Repr
/-- What a drive's Identify reports (R319, R322). -/
structure DriveIdentity where
  serial : List Byte
  model : List Byte
  firmware : List Byte
  awupf : Nat
  volatileCache : Bool
  deallocate : Bool
  /-- it meets R319 -/
  supported : Bool
  namespaces : List DriveNs
deriving DecidableEq, Repr
/-- The port kinds of R410. -/
inductive DramKind where
  | ctx | ingest | cacheRead | keyPage | program | device
deriving DecidableEq, Repr
/-- A DRAM request: its port kind and domain, the device physical address of a 64-byte access, and the bytes of a write. -/
structure DramReq where
  kind : DramKind
  domain : Domain
  addr : DWord
  write : Option (List Byte)
deriving DecidableEq, Repr
/-- What the ECC of a 64-byte burst found, and the row it lies in (R414, R418). -/
structure EccResult where
  /-- 0 clean, 1 corrected, 2 uncorrectable -/
  found : Fin 3
  row : Nat
deriving DecidableEq, Repr
/-- What a PARK phase finds: the faults of its tests, and the tests that its bound stopped (R448, R454 to R456). -/
structure ParkFindings where
  faults : List TestFault
  notRun : BitVec 14
deriving DecidableEq, Repr
/-- What reading a regulator returned: it answered with a good PEC within three tries, and a fault bit stands in its STATUS_WORD (R484). -/
structure PollResult where
  answered : Bool
  fault : Bool
deriving DecidableEq, Repr

/-- The commands of the block: one constructor per row of the table of operations and events. -/
inductive Instr where
  /-- POWER_ON (R27). Power is applied; every data path stops and the device enters BOOT with cause POWER_ON. -/
  | powerOn
  /-- DEV_RST_N_ASSERT (R488). A low pulse on DEV_RST_N of 1 µs or more resets the device into BOOT and drives the reset pin states. -/
  | devRstNAssert (pulseNs : Nat)
  /-- DEV_RST_N_RELEASE (R489). The rising edge of DEV_RST_N latches STRAP[3:0] and lets the ROM start once the root PLL locks. -/
  | devRstNRelease (straps : BitVec 4)
  /-- ROOT_PLL_LOCK (R20). The root PLL locks to the core reference; BOOT stages may run and the BOOT bounds start. -/
  | rootPllLock
  /-- CORE_REF_LOST (R20). Loss of the core reference puts the root PLL into holdover within 200 ns and raises CLOCK_STATE. -/
  | coreRefLost
  /-- CORE_REF_RETURNED (R20). The core reference returns within 10 ms; the PLL relocks without reset, sets REF_RETURNED and raises CLOCK_STATE. -/
  | coreRefReturned
  /-- HOLDOVER_EXPIRY (R20). Holdover reaches 10 ms without the reference; the device resets into BOOT with cause REF_LOSS. -/
  | holdoverExpiry
  /-- ETH_REF_LOST (R487). Loss of the Ethernet reference makes every port lose lock and raises CLOCK_STATE. -/
  | ethRefLost
  /-- ETH_REF_RETURNED (R487). The Ethernet reference returns; ports retrain and CLOCK_STATE is raised. -/
  | ethRefReturned
  /-- HOST_REF_LOST (R487). Loss of a host link reference takes that link down, starts detach and raises CLOCK_STATE. -/
  | hostRefLost (h : HostId)
  /-- HOST_REF_RETURNED (R487). A host link reference returns and CLOCK_STATE is raised. -/
  | hostRefReturned (h : HostId)
  /-- ROM_STAGE (R421). The ROM reads fuses, selects a slot, verifies and loads the LOADER and extends MR0 and MR1. -/
  | romStage
  /-- LOADER_STAGE (R421). The loader verifies MGMT_FW, applies soft repairs, trains or restores DRAM, performs dust-sheet steps and extends MR2. -/
  | loaderStage (found : BootFindings)
  /-- MGMT_FW_STAGE (R421). Management firmware loads components, opens the owner channel, writes both banks, restores keys, applies layouts and starts programs. -/
  | mgmtFwStage
  /-- BOOT_DONE (R27). BOOT leaves for SERVICE, DEGRADED or MAINTENANCE once images, training and units are ready and no holdover is active. -/
  | bootDone
  /-- EPOCH_BOUNDARY (R46). The epoch counter increments, pending units become topcoat, grace bits set, and due mode transitions, snapshots and waits take effect. -/
  | epochBoundary
  /-- ARM_CUTOFF (R45). At cycle −64 GLB_RECOAT is sampled into the pending set. -/
  | armCutoff
  /-- GRACE_END (R44). Grace ends 2,000 ns after the boundary; a bank unit's grace bit clears and a register unit begins its reload. -/
  | graceEnd (u : RUnit)
  /-- RELOAD_COMPLETE (R43). A register unit's undercoat is reloaded from topcoat, held direct writes are applied, its grace bit clears and the completion event goes out. -/
  | reloadComplete (u : RUnit)
  /-- GLB_RECOAT_ARM_WRITE (R45). A direct write of 1 to an arm bit arms that recoat unit for a boundary. -/
  | glbRecoatArmWrite (v : Word)
  /-- STAGED_REGISTER_WRITE (R48). A direct write to an ST register lands in the undercoat or is held until the unit's grace bit clears. -/
  | stagedRegisterWrite (addr : Word) (v : Word)
  /-- GLB_EPOCH_LEN_WRITE (R37). A write of the epoch length takes effect at the next boundary. -/
  | glbEpochLenWrite (v : Word)
  /-- LOW_WORD_READ (R7). A read of the low word of a 64-bit register latches its high word. -/
  | lowWordRead (addr : Word)
  /-- READ_CLEAR_REGISTER_READ (R9). A read of an RC field returns its value and clears it. -/
  | readClearRegisterRead (addr : Word)
  /-- REGISTER_WRITE (R9). A write to a register with no behaviour of its own updates its RW, W1C or W1S fields. -/
  | registerWrite (addr : Word) (v : Word)
  /-- UNIT_FAILURE_IN_SERVICE (R458). A unit fails in service; a free spare replaces it at the next boundary, or the loss enters the degradation record. -/
  | unitFailureInService (kind : Byte) (unit : BitVec 24)
  /-- DRAIN_COMPLETE (R26). In QUIESCE, once the cache is clean and no LRD message is unacknowledged, the drain-complete event is raised. -/
  | drainComplete
  /-- DEVICE_INFO (R73). Returns device ID, revision, active pipelines and cores and firmware version. -/
  | deviceInfo (p : Packet)
  /-- MODE_GET (R73). Returns GLB_MODE, GLB_MODE_SEQ, degradation entries and drain state. -/
  | modeGet (p : Packet)
  /-- QUIESCE (R74). Requests entry to QUIESCE at the next epoch boundary, replying IN_PROGRESS. -/
  | quiesce (p : Packet)
  /-- RESUME (R74). Requests return from QUIESCE at the next epoch boundary, replying IN_PROGRESS. -/
  | resume (p : Packet)
  /-- PARK (R28). Requests entry to PARK with a disposition, refused without FORCE until drained or clean. -/
  | park (p : Packet)
  /-- MAINTAIN (R74). Requests entry to MAINTENANCE from QUIESCE after drain complete. -/
  | maintain (p : Packet)
  /-- DEVICE_RESET (R74). Replies OK and resets the device within 100 µs. -/
  | deviceReset (p : Packet)
  /-- MAINT_ON_NEXT_BOOT (R73). Sets or clears the maintenance-on-next-boot flag in the protected store. -/
  | maintOnNextBoot (p : Packet)
  /-- DEGRADATION_READ (R464). Returns the degradation record. -/
  | degradationRead (p : Packet)
  /-- OWNER_PATH_SET (R57). Names the host link for the owner's VDM path and the path for owner events. -/
  | ownerPathSet (p : Packet)
  /-- EPOCH_GET (R53). Returns the epoch number, its length and the DTIME of the last boundary. -/
  | epochGet (p : Packet)
  /-- EPOCH_SET_LENGTH (R53). Writes GLB_EPOCH_LEN for the next boundary. -/
  | epochSetLength (p : Packet)
  /-- RECOAT_ARM (R53). Arms a unit mask for the next or a bound epoch and holds until the last grace bit clears. -/
  | recoatArm (p : Packet)
  /-- RECOAT_DISARM (R509). Cancels arms before their cutoff and removes the units from the arming command. -/
  | recoatDisarm (p : Packet)
  /-- UNDERCOAT_RESET (R43). Reloads named undercoats from their topcoats, stepped for bank units. -/
  | undercoatReset (p : Packet)
  /-- EPOCH_WAIT (R53). Completes when the epoch number reaches the target. -/
  | epochWait (p : Packet)
  /-- OP_QUERY (R73). Returns the progress and opcode of a live long operation. -/
  | opQuery (p : Packet)
  /-- OP_CANCEL (R79). Stops a cancellable long operation at its next step boundary. -/
  | opCancel (p : Packet)
  /-- LONG_OP_STEP (R76). Management firmware runs one step of at most 20 µs of a stepped operation. -/
  | longOpStep (handle : Word) (res : StepResult)
  /-- QUOTA_SET (R510). Writes one host resource limit in the QUOTA undercoat. -/
  | quotaSet (p : Packet)
  /-- QUOTA_GET (R510). Returns a host's sixteen resource limits. -/
  | quotaGet (p : Packet)
  /-- VF_QUOTA_SET (R510). Writes one VF resource limit in the VF_QUOTA undercoat. -/
  | vfQuotaSet (p : Packet)
  /-- HOST_DEFAULTS_SET (R42). Sets the owner's default set loaded into a host's three units. -/
  | hostDefaultsSet (p : Packet)
  /-- DRAM_CARVE_SET (R404). Sets write-cache and program-area sizes, rebuilding the cache index and zero-filling in steps. -/
  | dramCarveSet (p : Packet)
  /-- RESOURCE_USAGE (R72). Returns the use of a resource within the channel's scope. -/
  | resourceUsage (p : Packet)
  /-- HOST_VF_LIMIT (R91). Sets TotalVFs of PF0 and PF1 for the host's next attach. -/
  | hostVfLimit (p : Packet)
  /-- PARSE_NODE_WRITE (R139). Writes one parse node record to the undercoat bank of one direction. -/
  | parseNodeWrite (p : Packet)
  /-- PARSE_NODE_READ (R156). Returns one parse node record from undercoat or topcoat. -/
  | parseNodeRead (p : Packet)
  /-- PARSE_MALFORMED_SET (R156). Sets a malformed cause's action and optionally the punt policers. -/
  | parseMalformedSet (p : Packet)
  /-- CLASS_RULE_WRITE (R170). Writes one ternary rule to the undercoat bank. -/
  | classRuleWrite (p : Packet)
  /-- CLASS_RULE_READ (R170). Returns one ternary rule. -/
  | classRuleRead (p : Packet)
  /-- CLASS_PROFILE_SET (R164). Writes one key profile to the undercoat. -/
  | classProfileSet (p : Packet)
  /-- CLASS_ACTION_WRITE (R165). Writes one action record in place, atomically. -/
  | classActionWrite (p : Packet)
  /-- EM_INSERT (R175). Places an exact-match entry in the first free location under the current mode. -/
  | emInsert (p : Packet)
  /-- EM_UPDATE (R175). Rewrites the action of a present exact-match entry. -/
  | emUpdate (p : Packet)
  /-- EM_DELETE (R175). Clears an exact-match entry and its bucket's SPILL when due. -/
  | emDelete (p : Packet)
  /-- EM_LOOKUP (R178). Returns an exact-match entry and its location. -/
  | emLookup (p : Packet)
  /-- EM_REHASH (R176). Starts or continues a migration of exact-match entries to a new seed. -/
  | emRehash (p : Packet)
  /-- LPM_ADD (R182). Adds a route or default route, writing it valid-last and then its filter lengths. -/
  | lpmAdd (p : Packet)
  /-- LPM_DELETE (R182). Removes a route or default route and its filter lengths. -/
  | lpmDelete (p : Packet)
  /-- LPM_LOOKUP (R184). Returns the longest match for an address. -/
  | lpmLookup (p : Packet)
  /-- LPM_LEAF_PUSH (R183). Writes pushed routes so one block fits the four-probe budget. -/
  | lpmLeafPush (p : Packet)
  /-- TABLE_STATS (R188). Returns occupancy figures of the exact-match or a prefix table. -/
  | tableStats (p : Packet)
  /-- SCHED_NODE_SET (R232). Writes one scheduler node in the undercoat. -/
  | schedNodeSet (p : Packet)
  /-- SCHED_NODE_GET (R232). Returns one scheduler node with its credit, deficit and backlog. -/
  | schedNodeGet (p : Packet)
  /-- HOST_SHARE_SET (R233). Writes the eight host weights of one direction. -/
  | hostShareSet (p : Packet)
  /-- POLICER_SET (R233). Writes a policer's or class 7 limiter's rate and burst. -/
  | policerSet (p : Packet)
  /-- CLASS_MAP_SET (R233). Writes class weights or a PERMIT mask of a node. -/
  | classMapSet (p : Packet)
  /-- SPREAD_SET (R196). Writes a host's spreading key, field selection or alert share. -/
  | spreadSet (p : Packet)
  /-- INDIRECTION_SET (R197). Writes or re-forms one indirection table. -/
  | indirectionSet (p : Packet)
  /-- SPREAD_LOAD_READ (R199). Returns per-entry load counters and optionally clears TOTAL. -/
  | spreadLoadRead (p : Packet)
  /-- QUEUE_CREATE (R97). Creates one to sixteen network queues at once or none. -/
  | queueCreate (p : Packet)
  /-- QUEUE_DESTROY (R511). Destroys a queue, flushing its unexecuted descriptors. -/
  | queueDestroy (p : Packet)
  /-- QUEUE_QUERY (R511). Returns the state and counts of a queue. -/
  | queueQuery (p : Packet)
  /-- CONN_CREATE (R268). Creates an LRD connection with its SQ, RQ, home slot and context. -/
  | connCreate (p : Packet)
  /-- CONN_MODIFY (R269). Changes a connection's state or window. -/
  | connModify (p : Packet)
  /-- CONN_DESTROY (R269). Ends a connection, flushing requests and listing its number. -/
  | connDestroy (p : Packet)
  /-- CONN_QUERY (R269). Returns a connection's state and counts. -/
  | connQuery (p : Packet)
  /-- CTX_PIN (R281). Pins a connection's context, fetching it if needed. -/
  | ctxPin (p : Packet)
  /-- CTX_UNPIN (R281). Unpins a connection's context. -/
  | ctxUnpin (p : Packet)
  /-- CTX_MIGRATE (R282). Moves homes or prefetches contexts over a range of numbers in steps. -/
  | ctxMigrate (p : Packet)
  /-- HOST_BACKING_SET (R277). Sets or removes the host's context backing memory. -/
  | hostBackingSet (p : Packet)
  /-- PATH_WRITE (R291). Writes or deletes a locked path table entry. -/
  | pathWrite (p : Packet)
  /-- PATH_READ (R291). Returns a path table entry. -/
  | pathRead (p : Packet)
  /-- XPORT_CONFIG (R270). Sets LRD port, timers, retry limits and congestion defaults. -/
  | xportConfig (p : Packet)
  /-- NS_CREATE (R302). Creates a namespace with its size, format and key slot. -/
  | nsCreate (p : Packet)
  /-- NS_BACKING_SET (R304). Sets a namespace's backing extents. -/
  | nsBackingSet (p : Packet)
  /-- NS_ATTACH (R305). Attaches a namespace to PF1 or a VF of PF1 under an NSID. -/
  | nsAttach (p : Packet)
  /-- NS_DETACH (R305). Detaches a namespace, completing or aborting its commands. -/
  | nsDetach (p : Packet)
  /-- NS_DELETE (R305). Discards a namespace's cache segments in steps and frees its number. -/
  | nsDelete (p : Packet)
  /-- DRIVE_INFO (R326). Returns a drive's state, identity and namespaces. -/
  | driveInfo (p : Packet)
  /-- DRIVE_FORMAT (R326). Formats a drive with the given format and SES. -/
  | driveFormat (p : Packet)
  /-- CACHE_FLUSH (R315). Destages a namespace or all, or discards held and FAILED data. -/
  | cacheFlush (p : Packet)
  /-- SANITIZE (R326). Sanitizes a namespace cryptographically or a drive by NVMe Sanitize. -/
  | sanitize (p : Packet)
  /-- REMOTE_TARGET_SET (R323). Creates, replaces or deletes a remote target and its storage connection. -/
  | remoteTargetSet (p : Packet)
  /-- KEY_ALLOCATE (R337). Allocates consecutive EMPTY key slots. -/
  | keyAllocate (p : Packet)
  /-- KEY_IMPORT (R337). Fills a slot by unwrap or generation, with persistence as flagged. -/
  | keyImport (p : Packet)
  /-- KEY_DESTROY (R337). Zeroises and frees a slot or page. -/
  | keyDestroy (p : Packet)
  /-- KEY_QUERY (R338). Returns a slot's attributes only. -/
  | keyQuery (p : Packet)
  /-- IMPORT_KEY_SET (R335). Sets an IKEK by wrapping or key agreement. -/
  | importKeySet (p : Packet)
  /-- KEY_TIER_SET (R339). Pages a key out to DRAM or in to a slot. -/
  | keyTierSet (p : Packet)
  /-- KEYSTORE_ZEROISE (R356). Erases the key store, optionally with persistent copies. -/
  | keystoreZeroise (p : Packet)
  /-- PROGRAM_LOAD (R396). Writes a core program's images into named clusters in steps. -/
  | programLoad (p : Packet)
  /-- PROGRAM_START (R396). Starts thread 0 of every core of named clusters. -/
  | programStart (p : Packet)
  /-- PROGRAM_STOP (R396). Kills every thread of named clusters, frees punt queues and optionally unloads. -/
  | programStop (p : Packet)
  /-- CHANNEL_GRANT (R397). Replaces a program's grant of ports and punt sources. -/
  | channelGrant (p : Packet)
  /-- CORE_STATUS (R397). Returns a cluster's status and per-core thread states. -/
  | coreStatus (p : Packet)
  /-- WATCHDOG_SET (R395). Sets watchdog timeout and action for cores of named clusters. -/
  | watchdogSet (p : Packet)
  /-- SELFTEST_RUN (R465). Runs chosen self-tests in MAINTENANCE, repairing and recording. -/
  | selftestRun (p : Packet)
  /-- REPAIR_READ (R461). Returns repair record entries. -/
  | repairRead (p : Packet)
  /-- FUSE_PROGRAM (R460). Burns repair entries into fuses or by hard PPR. -/
  | fuseProgram (p : Packet)
  /-- PARK_PLAN_SET (R450). Sets the tests and DRAM slices of later PARKs. -/
  | parkPlanSet (p : Packet)
  /-- IMAGE_STAGE (R436). Writes bytes into the owner's staging buffer. -/
  | imageStage (p : Packet)
  /-- IMAGE_INSTALL (R437). Verifies the staged image and programs it into a slot, or erases the slot. -/
  | imageInstall (p : Packet)
  /-- IMAGE_INFO (R438). Returns a slot's validity and image details. -/
  | imageInfo (p : Packet)
  /-- COMMIT_VERSION (R432). Raises the minimum security version to that of the running image. -/
  | commitVersion (p : Packet)
  /-- REVOKE_KEY (R435). Burns the revoked bit of a signing key index. -/
  | revokeKey (p : Packet)
  /-- OWNER_KEY_PROVISION (R434). Burns an owner signing key digest and its provisioned bit. -/
  | ownerKeyProvision (p : Packet)
  /-- MEASUREMENT_READ (R447). Returns measurement registers and extend counts, unsigned. -/
  | measurementRead (p : Packet)
  /-- COUNTER_READ (R505). Returns counters from a block, optionally clearing them. -/
  | counterRead (p : Packet)
  /-- COUNTER_SNAPSHOT (R85). Records counters at a bound or the next epoch boundary. -/
  | counterSnapshot (p : Packet)
  /-- EVENT_MASK_SET (R508). Replaces the channel's event suppression mask. -/
  | eventMaskSet (p : Packet)
  /-- VIOLATION_READ (R504). Returns violation records from a SEQ. -/
  | violationRead (p : Packet)
  /-- UNASSIGNED_OPCODE (R75). A command with an unassigned opcode or unknown version gets BAD_OPCODE. -/
  | unassignedOpcode (opcode : BitVec 16) (p : Packet)
  /-- OVERSIZE_COMMAND (R61). A command needing more slots than the ring holds gets BAD_LENGTH and stops the channel. -/
  | oversizeCommand (c : RingChan) (p : Packet)
  /-- HLINK_CMD_ENABLE_SET (R60). Writing ENABLE to 1 zeroes the indexes, sets ring phases and starts the channel. -/
  | hlinkCmdEnableSet (c : RingChan)
  /-- HLINK_CMD_ENABLE_CLEAR (R60). Writing ENABLE to 0 stops taking commands, finishes short ones and applies channel-gone rules. -/
  | hlinkCmdEnableClear (c : RingChan)
  /-- HLINK_CMD_EVENT_ENABLE_WRITE (R63). Writing EVENT_ENABLE starts or stops event generation for the channel. -/
  | hlinkCmdEventEnableWrite (c : RingChan) (on : Bool)
  /-- HLINK_CMD_SQ_TAIL (R61). The command doorbell; covered commands are read and taken. -/
  | hlinkCmdSqTail (c : RingChan) (v : Word)
  /-- HLINK_CMD_RQ_HEAD (R63). The driver frees reply entries, letting commands resume. -/
  | hlinkCmdRqHead (c : RingChan) (v : Word)
  /-- HLINK_CMD_EQ_HEAD (R63). The driver frees event entries; the EVENTS_LOST record is written first once space returns. -/
  | hlinkCmdEqHead (c : RingChan) (v : Word)
  /-- OWNER_EVENT_SEND (R83). Held owner events are sent in SEQ order on the event path, retried three times within 10 ms. -/
  | ownerEventSend (tries : Fin 5)
  /-- MCTP_SET_ENDPOINT_ID (R58). MCTP control message assigning the endpoint ID. -/
  | mctpSetEndpointId (path : MctpPath) (op : BitVec 2) (eid : Byte)
  /-- MCTP_GET_ENDPOINT_ID (R58). MCTP control message returning the endpoint ID. -/
  | mctpGetEndpointId (path : MctpPath)
  /-- MCTP_GET_VERSION_SUPPORT (R58). MCTP control message returning supported versions. -/
  | mctpGetVersionSupport (path : MctpPath) (msgType : Byte)
  /-- MCTP_GET_MESSAGE_TYPE_SUPPORT (R58). MCTP control message listing supported message types. -/
  | mctpGetMessageTypeSupport (path : MctpPath)
  /-- MCTP_GET_VDM_SUPPORT (R58). MCTP control message describing vendor-defined message support. -/
  | mctpGetVdmSupport (path : MctpPath) (selector : Byte)
  /-- MCTP_MESSAGE_DISCARDED (R58). An MCTP message with IC set or of an unsupported type is discarded and counted. -/
  | mctpMessageDiscarded (path : MctpPath) (ic : Bool) (msgType : Byte)
  /-- SPDM_GET_VERSION (R444). SPDM request returning versions 1.2 and 1.3. -/
  | spdmGetVersion (r : SpdmPort) (q : SpdmReq)
  /-- SPDM_GET_CAPABILITIES (R444). SPDM request returning responder capabilities. -/
  | spdmGetCapabilities (r : SpdmPort) (q : SpdmReq)
  /-- SPDM_NEGOTIATE_ALGORITHMS (R444). SPDM request settling P-384 and SHA-384. -/
  | spdmNegotiateAlgorithms (r : SpdmPort) (q : SpdmReq)
  /-- SPDM_GET_DIGESTS (R444). SPDM request returning the slot 0 chain digest. -/
  | spdmGetDigests (r : SpdmPort) (q : SpdmReq)
  /-- SPDM_GET_CERTIFICATE (R445). SPDM request returning the slot 0 chain. -/
  | spdmGetCertificate (r : SpdmPort) (q : SpdmReq)
  /-- SPDM_CHALLENGE (R444). SPDM request answered with a DeviceID signature. -/
  | spdmChallenge (r : SpdmPort) (q : SpdmReq)
  /-- SPDM_GET_MEASUREMENTS (R446). SPDM request returning measurement blocks. -/
  | spdmGetMeasurements (r : SpdmPort) (q : SpdmReq)
  /-- SPDM_UNSUPPORTED_REQUEST (R444). An unsupported SPDM request is answered ERROR UnsupportedRequest. -/
  | spdmUnsupportedRequest (r : SpdmPort) (q : SpdmReq)
  /-- DOE_DISCOVERY (R92). A DOE Discovery request on PF0 is answered. -/
  | doeDiscovery (h : HostId) (index : Byte)
  /-- HOST_ATTACH (R114). On DL_Up the host's functions are built and configuration is answered within 20 ms. -/
  | hostAttach (h : HostId) (t : LinkTraining)
  /-- HOST_DETACH (R115). On DL_Down, PERST#, hot reset, Link Disable or PARK the host is detached in seven steps. -/
  | hostDetach (h : HostId) (cause : DetachCause)
  /-- HOST_UNIT_DEFAULTS_LOAD (R42). Once the host units' grace bits clear, their undercoats take the owner's defaults and are armed. -/
  | hostUnitDefaultsLoad (h : HostId)
  /-- LINK_RECOVERY_ENTRY (R89). A host link enters Recovery with its functions in place. -/
  | linkRecoveryEntry (h : HostId)
  /-- LINK_WIDTH_CHANGE (R89). A retrain changes width and HOST_LINK_UP is raised again with DEGRADED. -/
  | linkWidthChange (h : HostId) (t : LinkTraining)
  /-- HOST_LANE_FAULT_IN_SERVICE (R463). A lane fault found in service narrows the link or, on lane 0, removes it. -/
  | hostLaneFaultInService (h : HostId) (lane : Fin 16)
  /-- CONFIG_REQUEST (R114). A configuration request is answered, or gets Request Retry Status before attach completes. -/
  | configRequest (h : HostId) (r : CfgReq)
  /-- INITIATE_FLR (R112). A function-level reset clears the function's state and completes within 100 ms. -/
  | initiateFlr (h : HostId) (f : Fn)
  /-- BUS_MASTER_ENABLE_CLEAR (R105). Clearing Bus Master Enable stops the function's requests and abandons its reads. -/
  | busMasterEnableClear (h : HostId) (f : Fn)
  /-- BUS_MASTER_ENABLE_SET (R95). Setting Bus Master Enable sends MSI-X messages held meanwhile. -/
  | busMasterEnableSet (h : HostId) (f : Fn)
  /-- VF_ENABLE_CLEAR (R111). Clearing VF Enable acts as an FLR of the PF's VFs. -/
  | vfEnableClear (h : HostId) (f : Fn)
  /-- VF_ENABLE_SET (R91). Setting VF Enable enables min(NumVFs, TotalVFs) VFs. -/
  | vfEnableSet (h : HostId) (f : Fn)
  /-- D3HOT_TO_D0 (R111). A return from D3hot to D0 acts as an FLR of the function. -/
  | d3hotToD0 (h : HostId) (f : Fn)
  /-- MSIX_UNMASK (R95). Unmasking a vector or function sends pending messages. -/
  | msixUnmask (h : HostId) (f : Fn) (vector : Option (Fin 2048))
  /-- CONFIG_WRITE (R92). A configuration write with no behaviour of its own updates the function's configuration space. -/
  | configWrite (h : HostId) (f : Fn) (offset : BitVec 12) (v : Word) (be : BitVec 4)
  /-- HLINK_INTX_STATUS_CLEAR (R96). W1C of INTx source bits may lower PF0's request and send Deassert_INTA. -/
  | hlinkIntxStatusClear (h : HostId) (v : Word)
  /-- BAR_MEMORY_REQUEST (R94). A memory request to a BAR is served or answered with UR or CA. -/
  | barMemoryRequest (h : HostId) (r : BarReq)
  /-- IO_OR_ATOMIC_REQUEST (R94). An I/O or AtomicOp request gets Unsupported Request. -/
  | ioOrAtomicRequest (h : HostId) (f : Fn) (posted : Bool)
  /-- COMPLETION_RECEIVED (R106). A completion is delivered, or discarded if its tag is quarantined. -/
  | completionReceived (h : HostId) (tag : BitVec 14) (status : CplStatus) (data : List Byte)
  /-- COMPLETION_TIMEOUT (R105). A read's completion timeout fires and the read is abandoned. -/
  | completionTimeout (h : HostId) (tag : BitVec 14)
  /-- TAG_QUARANTINE_END (R105). A quarantined tag is released after twice the timeout. -/
  | tagQuarantineEnd (h : HostId) (tag : BitVec 14)
  /-- PCIE_LINK_ERROR (R109). A link-level error is logged in AER and signalled. -/
  | pcieLinkError (h : HostId) (f : Fn) (e : LinkError)
  /-- TXQ_DOORBELL (R102). A TXQ tail doorbell makes new descriptors available. -/
  | txqDoorbell (h : HostId) (f : Fn) (q : BitVec 16) (v : Word)
  /-- RXQ_DOORBELL (R102). An RXQ tail doorbell posts new buffers. -/
  | rxqDoorbell (h : HostId) (f : Fn) (q : BitVec 16) (v : Word)
  /-- CQ_DOORBELL (R102). A CQ head doorbell frees completion entries. -/
  | cqDoorbell (h : HostId) (f : Fn) (q : BitVec 16) (v : Word)
  /-- TX_DESCRIPTOR_READ_DONE (R98). Descriptor data arrives and the packet's data reads are issued. -/
  | txDescriptorReadDone (h : HostId) (f : Fn) (q : BitVec 16) (d : TxDescr)
  /-- TX_DATA_READ_DONE (R101). A packet's data arrives, it is handed to its pipeline and its completion entry written. -/
  | txDataReadDone (h : HostId) (f : Fn) (q : BitVec 16) (data : List Byte) (status : CplStatus)
  /-- CQ_COALESCE_TIMER (R102). COAL_TIME expires and the CQ signals its vector. -/
  | cqCoalesceTimer (h : HostId) (f : Fn) (q : BitVec 16)
  /-- RX_FRAME_ARRIVAL (R119). A frame arrives at the MAC, takes hods, is steered and checked. -/
  | rxFrameArrival (port : Lane) (frame : List Byte) (fcsOk : Bool) (fecOk : Bool)
  /-- PIPELINE_ADMIT (R154). A packet is admitted to its pipeline, stamped, parsed and classified. -/
  | pipelineAdmit (pipe : Pipe)
  /-- RECIRC_ADMIT (R150). A recirculating packet takes an idle slot or the slot after 512 cycles for its second pass. -/
  | recircAdmit (pipe : Pipe)
  /-- LPM_RECIRC_READMIT (R181). A packet recirculated by the prefix engine re-enters the lookup stage for its extended pass. -/
  | lpmRecircReadmit (pipe : Pipe)
  /-- CIPHER_TILE_DONE (R345). An inline tile finishes a packet, releasing it if the tag verifies or dropping it. -/
  | cipherTileDone (pipe : Pipe)
  /-- GAUNTLET_KEY_FETCH (R342). A tile missing a key fetches the slot over the gauntlet bus. -/
  | gauntletKeyFetch (tile : Tile) (slot : BitVec 17)
  /-- SCHED_SELECT (R221). A level-0 node selects the next packet through the tree. -/
  | schedSelect (root : SchedRoot)
  /-- TIMING_WHEEL_SLOT_DUE (R228). A wheel slot falls due and its parked nodes become eligible. -/
  | timingWheelSlotDue (slot : Nat)
  /-- COARSE_SLOT_DUE (R228). A coarse slot falls due and its entries move to the fine wheel. -/
  | coarseSlotDue (slot : Nat)
  /-- DTIME_STEP (R131). A write to ETH_DTIME_STEP advances DTIME and releases passed wheel entries. -/
  | dtimeStep (v : Word)
  /-- DTIME_RATE_WRITE (R131). A write to ETH_DTIME_RATE changes DTIME's rate trim. -/
  | dtimeRateWrite (v : Word)
  /-- RX_DELIVERY_WRITE_DONE (R207). A received packet's last posted write is handed over; its completion is written and hods freed. -/
  | rxDeliveryWriteDone (h : HostId)
  /-- TX_FRAME_SENT (R207). The last bit of a frame leaves its port and its hods are freed. -/
  | txFrameSent (port : Lane)
  /-- ETH_APPLY (R121). Writing APPLY checks a group's layout and begins changing its ports. -/
  | ethApply (g : Group)
  /-- ETH_APPLY_DONE (R122). BUSY clears, the layout record is written and PORT_STATE is raised per changed port. -/
  | ethApplyDone (g : Group)
  /-- AN_COMPLETE (R125). Auto-negotiation completes and the port enters TRAINING. -/
  | anComplete (port : Lane) (partner : Option AnPage)
  /-- AN_FAILED_RESTART (R125). After a failed AN the 500 ms wait ends and AN restarts. -/
  | anFailedRestart (port : Lane)
  /-- TRAINING_DONE (R125). PMD training completes or fails. -/
  | trainingDone (port : Lane) (ok : Bool)
  /-- ALIGNMENT_DONE (R126). Alignment completes and the port enters UP. -/
  | alignmentDone (port : Lane)
  /-- FAULT_SEQUENCES_RECEIVED (R126). Local or remote fault ordered sets move the port to FAULT. -/
  | faultSequencesReceived (port : Lane) (k : FaultSeq)
  /-- FAULT_SEQUENCES_STOP (R126). Fault sequences stop and the port returns to UP. -/
  | faultSequencesStop (port : Lane)
  /-- ALIGNMENT_LOST (R126). Signal or alignment is lost from UP or FAULT and the port enters HOLD. -/
  | alignmentLost (port : Lane) (k : AlignLoss)
  /-- ALIGNMENT_RETURN_IN_HOLD (R127). Alignment returns within hold-off and the port returns to UP silently. -/
  | alignmentReturnInHold (port : Lane)
  /-- HOLDOFF_EXPIRY (R127). Hold-off ends without alignment and the port re-aligns with PORT_STATE. -/
  | holdoffExpiry (port : Lane)
  /-- ETH_LANE_FAULT (R130). A lane fault narrows or removes the port holding it. -/
  | ethLaneFault (lane : Lane)
  /-- HOD_CARVE_APPLY (R202). Writing HOD_CTRL.APPLY checks and begins a re-carve. -/
  | hodCarveApply
  /-- HOD_CARVE_APPLY_DONE (R202). BUSY clears and the new carve takes effect. -/
  | hodCarveApplyDone
  /-- TX_HOD_WAIT_END (R211). A transmit queue waiting for a hod charge is served once the charge can be granted. -/
  | txHodWaitEnd (h : HostId) (f : Fn) (q : BitVec 16)
  /-- CONTEXT_FETCH_DONE (R284). A fetched context arrives, is checked and becomes resident; its chain is replayed. -/
  | contextFetchDone (d : Domain) (n : ConnNo) (r : FetchResult)
  /-- EVICTION_WRITE_DONE (R280). A victim's image write completes and its slot is freed. -/
  | evictionWriteDone (d : Domain) (n : ConnNo) (ok : Bool)
  /-- FETCH_NO_VICTIM_RETRY (R279). A fetch waiting for a victim repeats the sweep every 1 µs. -/
  | fetchNoVictimRetry (d : Domain) (n : ConnNo)
  /-- LRD_EXECUTION_DONE (R252). A packet's execution completes and its bitmap bit is set and BASE advanced. -/
  | lrdExecutionDone (d : Domain) (n : ConnNo) (psn : BitVec 32)
  /-- LRD_EXECUTION_FAILED (R252). A packet's execution fails and its in-flight mark clears. -/
  | lrdExecutionFailed (d : Domain) (n : ConnNo) (psn : BitVec 32)
  /-- LRD_ACK_RX (R257). An ACK advances UNA, acknowledges SACKed PSNs and gives an RTT sample. -/
  | lrdAckRx (d : Domain) (n : ConnNo)
  /-- LRD_NAK_RX (R261). A NAK acts by its code on the sending side. -/
  | lrdNakRx (d : Domain) (n : ConnNo)
  /-- LRD_READ_RSP_RX (R254). A READ_RSP is written to the requester's buffer or dropped as stray. -/
  | lrdReadRspRx (d : Domain) (n : ConnNo)
  /-- LRD_PROBE_RX (R255). A PROBE is answered with an ACK at once. -/
  | lrdProbeRx (d : Domain) (n : ConnNo)
  /-- LRD_SQ_DOORBELL (R247). An SQ doorbell makes work requests available to the connection. -/
  | lrdSqDoorbell (d : Domain) (n : ConnNo) (v : Word) (wrs : List WorkRequest)
  /-- LRD_RQ_DOORBELL (R247). An RQ doorbell posts receive buffers. -/
  | lrdRqDoorbell (d : Domain) (n : ConnNo) (v : Word) (bufs : List RecvBuffer)
  /-- LRD_RETRANSMIT_TIMER (R258). The retransmission timer fires, retransmits, backs off and halves the rate. -/
  | lrdRetransmitTimer (d : Domain) (n : ConnNo)
  /-- LRD_PROBE_TIMER (R259). 2×SRTT without an ACK sends one PROBE. -/
  | lrdProbeTimer (d : Domain) (n : ConnNo)
  /-- LRD_ACK_DELAY_TIMER (R255). ACK_DELAY after the first unacknowledged execution sends an ACK. -/
  | lrdAckDelayTimer (d : Domain) (n : ConnNo)
  /-- LRD_RNR_TIMER (R260). RNR_TIMER ends and unacknowledged PSNs from NAK_PSN are resent. -/
  | lrdRnrTimer (d : Domain) (n : ConnNo)
  /-- RECENT_LIST_EXPIRY (R239). A connection number leaves the recent list after 10 ms. -/
  | recentListExpiry (d : Domain) (n : ConnNo)
  /-- NVME_SQ_DOORBELL (R309). An NVMe SQ tail doorbell makes entries fetchable under arbitration. -/
  | nvmeSqDoorbell (h : HostId) (f : Fn) (q : BitVec 16) (v : Word)
  /-- NVME_CQ_DOORBELL (R299). An NVMe CQ head doorbell frees completion entries. -/
  | nvmeCqDoorbell (h : HostId) (f : Fn) (q : BitVec 16) (v : Word)
  /-- NVME_CC_EN_SET (R299). CC.EN set makes CSTS.RDY follow within 100 ms. -/
  | nvmeCcEnSet (h : HostId) (f : Fn) (cc : Word)
  /-- NVME_CC_EN_CLEAR (R300). CC.EN clear resets the controller, deleting queues and aborting commands. -/
  | nvmeCcEnClear (h : HostId) (f : Fn)
  /-- NVME_SHUTDOWN (R300). CC.SHN stops new commands, destages and sets SHST when done. -/
  | nvmeShutdown (h : HostId) (f : Fn) (abrupt : Bool)
  /-- NVME_INTMS_INTMC (R299). INTMS or INTMC masks or unmasks pin-based vectors. -/
  | nvmeIntmsIntmc (h : HostId) (f : Fn) (clear : Bool) (v : Word)
  /-- NVME_CREATE_IO_SQ (R301). Admin command creating an I/O SQ within quota. -/
  | nvmeCreateIoSq (h : HostId) (f : Fn) (e : Sqe)
  /-- NVME_CREATE_IO_CQ (R299). Admin command creating an I/O CQ. -/
  | nvmeCreateIoCq (h : HostId) (f : Fn) (e : Sqe)
  /-- NVME_DELETE_IO_SQ (R297). Admin command deleting an I/O SQ. -/
  | nvmeDeleteIoSq (h : HostId) (f : Fn) (e : Sqe)
  /-- NVME_DELETE_IO_CQ (R297). Admin command deleting an I/O CQ. -/
  | nvmeDeleteIoCq (h : HostId) (f : Fn) (e : Sqe)
  /-- NVME_GET_LOG_PAGE (R297). Admin command returning a log page. -/
  | nvmeGetLogPage (h : HostId) (f : Fn) (e : Sqe)
  /-- NVME_IDENTIFY (R298). Admin command returning Identify data. -/
  | nvmeIdentify (h : HostId) (f : Fn) (e : Sqe)
  /-- NVME_ABORT (R297). Admin command aborting a command. -/
  | nvmeAbort (h : HostId) (f : Fn) (e : Sqe)
  /-- NVME_SET_FEATURES (R297). Admin command setting a supported feature. -/
  | nvmeSetFeatures (h : HostId) (f : Fn) (e : Sqe)
  /-- NVME_GET_FEATURES (R297). Admin command returning a feature. -/
  | nvmeGetFeatures (h : HostId) (f : Fn) (e : Sqe)
  /-- NVME_ASYNC_EVENT_REQUEST (R297). Admin command awaiting an asynchronous event. -/
  | nvmeAsyncEventRequest (h : HostId) (f : Fn) (e : Sqe)
  /-- NVME_DEVICE_SELF_TEST (R327). Admin command starting or aborting a device self-test. -/
  | nvmeDeviceSelfTest (h : HostId) (f : Fn) (e : Sqe)
  /-- NVME_FORMAT_NVM (R325). Admin command cryptographically erasing and reformatting a namespace. -/
  | nvmeFormatNvm (h : HostId) (f : Fn) (e : Sqe)
  /-- NVME_FLUSH (R314). Flush completes when dirty segments are destaged and backings flushed. -/
  | nvmeFlush (h : HostId) (f : Fn) (e : Sqe)
  /-- NVME_WRITE (R310). Write reads, encrypts and inserts data into the cache. -/
  | nvmeWrite (h : HostId) (f : Fn) (e : Sqe)
  /-- NVME_READ (R313). Read takes blocks from cache or backing, decrypts and writes them to the host. -/
  | nvmeRead (h : HostId) (f : Fn) (e : Sqe)
  /-- NVME_WRITE_ZEROES (R297). Write Zeroes up to MDTS. -/
  | nvmeWriteZeroes (h : HostId) (f : Fn) (e : Sqe)
  /-- NVME_DATASET_MANAGEMENT (R297). Dataset Management with Deallocate. -/
  | nvmeDatasetManagement (h : HostId) (f : Fn) (e : Sqe)
  /-- NVME_UNSUPPORTED_COMMAND (R297). An unsupported NVMe command gets its specified error status. -/
  | nvmeUnsupportedCommand (h : HostId) (f : Fn) (e : Sqe)
  /-- WRITE_INSERTION (R310). Once all blocks are in DRAM the index is updated and the completion written. -/
  | writeInsertion (h : HostId) (f : Fn) (sq : BitVec 16) (cid : BitVec 16) (data : List Byte)
  /-- WCACHE_WAIT_END (R311). A write waiting for cache space starts once a segment is granted. -/
  | wcacheWaitEnd (h : HostId)
  /-- DESTAGE_START (R312). Destage freezes a dirty segment and issues its one backing write. -/
  | destageStart (ns : NsId) (seg : Nat)
  /-- DESTAGE_DONE (R312). A backing write completes; the segment is freed, retried or marked FAILED. -/
  | destageDone (ns : NsId) (seg : Nat) (r : BackingResult)
  /-- BACKING_READ_DONE (R313). Backing read data lands in staging, is decrypted and written to the host. -/
  | backingReadDone (h : HostId) (f : Fn) (sq : BitVec 16) (cid : BitVec 16) (r : BackingResult) (data : List Byte)
  /-- DRIVE_PRESENT (R320). PRSNT_N asserts and the drive starts training. -/
  | drivePresent (d : DrivePort)
  /-- DRIVE_SURPRISE_REMOVAL (R321). PRSNT_N deasserts or the link drops; extents go absent and segments are held. -/
  | driveSurpriseRemoval (d : DrivePort) (linkDrop : Bool)
  /-- DRIVE_LINK_UP (R320). The drive link comes up and initialisation starts. -/
  | driveLinkUp (d : DrivePort) (t : LinkTraining)
  /-- DRIVE_INITIALISED (R322). A drive reaches INITIALISING and READY, matched against absent extents. -/
  | driveInitialised (d : DrivePort) (found : DriveIdentity)
  /-- DRIVE_INIT_TIMEOUT (R320). A drive not READY within 30 s enters FAILED. -/
  | driveInitTimeout (d : DrivePort)
  /-- DRIVE_COMMAND_TIMEOUT (R320). A drive command at 8 s is aborted, and 2 s later its controller is reset. -/
  | driveCommandTimeout (d : DrivePort) (cid : BitVec 16) (second : Bool)
  /-- DRIVE_CFS (R320). CSTS.CFS on the drive resets its controller. -/
  | driveCfs (d : DrivePort)
  /-- DRIVE_COMPLETION (R319). A drive command completes. -/
  | driveCompletion (d : DrivePort) (cid : BitVec 16) (r : BackingResult)
  /-- DRIVE_ATTN_BUTTON (R320). An attention button press raises DRIVE_STATE with cause BUTTON. -/
  | driveAttnButton (d : DrivePort)
  /-- DRIVE_DMA_VIOLATION (R319). A drive DMA outside its window gets UR and a violation record. -/
  | driveDmaViolation (d : DrivePort) (addr : DWord) (header : List Word)
  /-- BSTATUS_TIMEOUT (R324). A block command without BSTATUS in TIMEOUT ms fails or is retried. -/
  | bstatusTimeout (target : BitVec 12) (tag : Word)
  /-- REMOTE_DESTAGE_RETRY (R324). A timed-out destage is retried 100 ms later. -/
  | remoteDestageRetry (ns : NsId) (seg : Nat)
  /-- SELF_TEST_STEP (R327). A device self-test step runs while the host has no command waiting. -/
  | selfTestStep (h : HostId) (f : Fn) (failed : Bool)
  /-- KEY_ALARM_SOURCE (R355). A key-store alarm source is detected; ERASE sources zeroise the store. -/
  | keyAlarmSource (code : Byte) (slot : BitVec 17)
  /-- LOOKASIDE_JOB_DONE (R352). A look-aside job finishes and its reply enters the inbox. -/
  | lookasideJobDone (tile : Fin 4)
  /-- LOOKASIDE_SUSPEND (R354). An urgent job suspends the running job at a block boundary. -/
  | lookasideSuspend (tile : Fin 4)
  /-- PAGE_FETCH_DONE (R340). A key page is fetched and checked for a look-aside job. -/
  | pageFetchDone (tile : Fin 4) (page : Nat) (data : List Byte) (tagOk : Bool)
  /-- CORE_INSTRUCTION (R365). A core issues one RV64 instruction, trapping as defined. -/
  | coreInstruction (cl : Cluster) (co : CoreIx)
  /-- TFORK (R368). Starts a child thread in the lowest FREE context. -/
  | tfork (cl : Cluster) (co : CoreIx) (t : ThreadIx) (rd rs1 rs2 : RegNo)
  /-- TFORKD (R368). Starts a detached child thread. -/
  | tforkd (cl : Cluster) (co : CoreIx) (t : ThreadIx) (rd rs1 rs2 : RegNo)
  /-- TEXIT (R369). Ends the thread with an exit value. -/
  | texit (cl : Cluster) (co : CoreIx) (t : ThreadIx) (rs1 : RegNo)
  /-- TJOIN (R370). Takes a child's exit value or waits for it. -/
  | tjoin (cl : Cluster) (co : CoreIx) (t : ThreadIx) (rd rs1 : RegNo)
  /-- TWAIT (R373). Waits for masked events. -/
  | twait (cl : Cluster) (co : CoreIx) (t : ThreadIx) (rd rs1 : RegNo)
  /-- TSIGNAL (R374). Sets signal bits in a thread of the same core. -/
  | tsignal (cl : Cluster) (co : CoreIx) (t : ThreadIx) (rd rs1 rs2 : RegNo)
  /-- TTIMER (R375). Arms or disarms the thread's one-shot timer. -/
  | ttimer (cl : Cluster) (co : CoreIx) (t : ThreadIx) (rs1 : RegNo)
  /-- TYIELD (R375). Gives up the issue slot once. -/
  | tyield (cl : Cluster) (co : CoreIx) (t : ThreadIx)
  /-- HRD (R378). Reads a hawk register. -/
  | hrd (cl : Cluster) (co : CoreIx) (t : ThreadIx) (rd : RegNo) (ix : Fin 64)
  /-- HWR (R378). Writes a hawk register. -/
  | hwr (cl : Cluster) (co : CoreIx) (t : ThreadIx) (ix : Fin 64) (rs2 : RegNo)
  /-- HSWAP (R378). Swaps a hawk register. -/
  | hswap (cl : Cluster) (co : CoreIx) (t : ThreadIx) (rd : RegNo) (ix : Fin 64) (rs2 : RegNo)
  /-- HADD (R376). Adds to a hawk register, returning the old value. -/
  | hadd (cl : Cluster) (co : CoreIx) (t : ThreadIx) (rd : RegNo) (ix : Fin 64) (rs2 : RegNo)
  /-- HCAS (R376). Compares and swaps a hawk register. -/
  | hcas (cl : Cluster) (co : CoreIx) (t : ThreadIx) (rd : RegNo) (ix : Fin 64) (rs1 rs2 : RegNo)
  /-- CHPUT (R379). Writes one staging word. -/
  | chput (cl : Cluster) (co : CoreIx) (t : ThreadIx) (rs2 : RegNo) (ix : Fin 8)
  /-- CHCOMMIT (R380). Sends staged words as one message to a port. -/
  | chcommit (cl : Cluster) (co : CoreIx) (t : ThreadIx) (rd rs1 : RegNo)
  /-- CHRECV (R382). Reads a word of the oldest reply, optionally popping it. -/
  | chrecv (cl : Cluster) (co : CoreIx) (t : ThreadIx) (rd : RegNo) (ix : Fin 8) (pop : Bool)
  /-- WDOG_KICK (R366). A write to WDOG_KICK restarts the core's watchdog. -/
  | wdogKick (cl : Cluster) (co : CoreIx) (t : ThreadIx)
  /-- THREAD_TIMER_EXPIRY (R375). A thread's timer reaches 0 and sets TIMER. -/
  | threadTimerExpiry (cl : Cluster) (co : CoreIx) (t : ThreadIx)
  /-- CHANNEL_REPLY_ARRIVAL (R381). A port reply enters a thread's inbox or is discarded for a draining thread. -/
  | channelReplyArrival (cl : Cluster) (co : CoreIx) (t : ThreadIx) (k : Fin 4)
  /-- HOD_ALLOC (R384). HOD port request allocating a hod. -/
  | hodAlloc (cl : Cluster)
  /-- HOD_FREE (R384). HOD port request freeing a hod or chain. -/
  | hodFree (cl : Cluster)
  /-- HOD_LINK (R384). HOD port request linking a hod to the next. -/
  | hodLink (cl : Cluster)
  /-- HOD_NEXT (R384). HOD port request returning the next handle. -/
  | hodNext (cl : Cluster)
  /-- DMA_COPY (R385). DMA port request copying between memories. -/
  | dmaCopy (cl : Cluster)
  /-- TABLE_REQUEST (R386). TABLE port request running a table command. -/
  | tableRequest (cl : Cluster)
  /-- LOOKASIDE_JOB (R351). LOOKASIDE port request queuing a cipher job. -/
  | lookasideJob (cl : Cluster)
  /-- EMIT_PORT (R388). EMIT port request sending a chain to a port's forwarding node. -/
  | emitPort (cl : Cluster)
  /-- EMIT_HOST (R388). EMIT port request delivering a chain to a host by spreading. -/
  | emitHost (cl : Cluster)
  /-- PUNT_RECV (R389). PUNT port request awaiting a punted packet. -/
  | puntRecv (cl : Cluster)
  /-- PUNT_CANCEL (R389). PUNT port request ending the thread's outstanding RECVs. -/
  | puntCancel (cl : Cluster)
  /-- PUNT_DELIVERY (R389). A punted packet is paired with a RECV or queued. -/
  | puntDelivery (cl : Cluster)
  /-- WAIT_DEADLOCK (R392). After 256 cycles of deadlock the lowest waiting thread is trapped. -/
  | waitDeadlock (cl : Cluster) (co : CoreIx)
  /-- WATCHDOG (R393). The core watchdog expires, raises WATCHDOG and takes its action. -/
  | watchdog (cl : Cluster) (co : CoreIx)
  /-- DRAM_REFRESH (R408). Every tREFI all channels issue REFab and stall for tRFC. -/
  | dramRefresh
  /-- RDIMM_TEMP_READ (R409). Every 16 ms RDIMM sensors are read and hot mode set or cleared. -/
  | rdimmTempRead (ch : DramCh) (temp : Option Int)
  /-- DRAM_ALERT (R416). A CA parity or write CRC alert stops the channel and starts a replay. -/
  | dramAlert (ch : DramCh) (writeCrc : Bool)
  /-- DRAM_REPLAY_DONE (R416). A replay completes and the channel resumes. -/
  | dramReplayDone (ch : DramCh)
  /-- DRAM_RETRAIN_DONE (R417). A retrain ends; if it fails, the channel is lost. -/
  | dramRetrainDone (ch : DramCh) (ok : Bool)
  /-- DRAM_REQUEST (R411). A DRAM request is accepted with its deadline and urgency. -/
  | dramRequest (r : DramReq)
  /-- DRAM_READ_ECC (R414). A read's ECC corrects, retries or poisons the location. -/
  | dramReadEcc (ch : DramCh) (addr : DWord) (e : EccResult)
  /-- PATROL_SCRUB (R414). Patrol scrub reads DPA space over 24 hours. -/
  | patrolScrub (ch : DramCh) (addr : DWord) (e : EccResult)
  /-- PPR_REPAIR (R418). A repair candidate row is copied, soft-repaired and copied back. -/
  | pprRepair (ch : DramCh) (ok : Bool)
  /-- PARK_ENTRY (R448). Entry to PARK detaches hosts, disables ports, reports drives and kills threads. -/
  | parkEntry
  /-- PARK_PHASE_END (R448). A PARK phase ends and the next phase starts. -/
  | parkPhaseEnd (found : ParkFindings)
  /-- THERMAL_SENSOR_SAMPLE (R493). Every 10 µs sensors are sampled and thresholds checked. -/
  | thermalSensorSample (temps : Vector Int 16)
  /-- AVS_DECISION (R484). Every 1 ms VDD_CORE is adjusted from the path monitors. -/
  | avsDecision (slow fast : Bool)
  /-- AVS_EMERGENCY (R484). An EMERGENCY monitor raises VDD_CORE by 20 mV within 250 µs. -/
  | avsEmergency
  /-- REGULATOR_POLL (R484). Every 1 ms each regulator is read and fault bits cleared. -/
  | regulatorPoll (reg : Fin 7) (r : PollResult)
  /-- HLINK_REC_COMMIT (R441). COMMIT copies the data window to the intake buffer, claiming it. -/
  | hlinkRecCommit (h : HostId)
  /-- HLINK_REC_INSTALL (R440). INSTALL checks the intake buffer and installs into an invalid slot. -/
  | hlinkRecInstall (h : HostId) (slot : Fin 2)
  /-- HLINK_REC_ABORT (R440). ABORT discards the buffer and releases the claim. -/
  | hlinkRecAbort (h : HostId)
  /-- KLB_LINE_TOO_LONG (R469). A monitor line beyond 4,096 characters is discarded with ERR BAD_LENGTH. -/
  | klbLineTooLong
  /-- HELP (R473). Lists the commands the session may use. -/
  | help
  /-- VER (R473). Reports identity and running image versions. -/
  | ver
  /-- STATUS (R473). Reports mode, epoch, PARK phase and session. -/
  | status
  /-- BAUD (R468). Selects a new UART rate after its OK. -/
  | baud (n : Nat)
  /-- AUTH_NONCE (R472). Issues a fresh 32-byte nonce. -/
  | authNonce
  /-- AUTH_LOAD (R473). Loads bytes of an authorisation record. -/
  | authLoad (offset : Nat) (data : List Byte)
  /-- AUTH_CHECK (R472). Checks the loaded record and starts a session or refuses it. -/
  | authCheck
  /-- AUTH_END (R474). Ends the session, restoring breakpoints and resuming halted threads. -/
  | authEnd
  /-- SESSION_EXPIRY (R474). A session's DURATION passes and it ends. -/
  | sessionExpiry
  /-- KLB_RD (R473). Reads words of the internal control space. -/
  | klbRd (addr : Word) (n : Nat)
  /-- KLB_WR (R470). Writes a word of the internal control space. -/
  | klbWr (addr : Word) (v : Word)
  /-- MRD (R473). Reads core memory. -/
  | mrd (cl : Cluster) (co : CoreIx) (addr : DWord) (n : Nat)
  /-- MWR (R473). Writes core memory. -/
  | mwr (cl : Cluster) (co : CoreIx) (addr : DWord) (data : List Byte)
  /-- KLB_HOD (R473). Reads bytes of a hod. -/
  | klbHod (handle : Word) (offset : Nat) (n : Nat)
  /-- THREADS (R473). Reports thread states and PCs of a core. -/
  | threads (cl : Cluster) (co : CoreIx)
  /-- REGS (R476). Reports a halted or trapped thread's registers. -/
  | regs (cl : Cluster) (co : CoreIx) (t : ThreadIx)
  /-- SETREG (R476). Sets a register or PC of a halted or trapped thread. -/
  | setreg (cl : Cluster) (co : CoreIx) (t : ThreadIx) (r : Option RegNo) (v : DWord)
  /-- KLB_HALT (R394). Halts threads. -/
  | klbHalt (cl : Cluster) (co : Option CoreIx) (t : Option ThreadIx)
  /-- KLB_RESUME (R476). Resumes halted or trapped threads. -/
  | klbResume (cl : Cluster) (co : Option CoreIx) (t : Option ThreadIx)
  /-- STEP (R476). Steps a halted thread n instructions. -/
  | step (cl : Cluster) (co : CoreIx) (t : ThreadIx) (n : Nat)
  /-- KILL (R394). Kills a thread. -/
  | kill (cl : Cluster) (co : CoreIx) (t : ThreadIx)
  /-- BP_SET (R477). Writes a breakpoint instruction. -/
  | bpSet (cl : Cluster) (co : CoreIx) (addr : DWord)
  /-- BP_CLR (R477). Removes a breakpoint. -/
  | bpClr (cl : Cluster) (co : CoreIx) (addr : DWord)
  /-- BP_ON (R477). Enables breakpoints. -/
  | bpOn
  /-- BP_OFF (R477). Disables breakpoints. -/
  | bpOff
  /-- KEYS (R475). Returns the steering and interleave keys. -/
  | keys
  /-- IMG_OFFSET (R478). Sets the intake offset for the monitor's chunk. -/
  | imgOffset (v : Nat)
  /-- IMG_DATA (R478). Loads up to 1,024 bytes of chunk data. -/
  | imgData (data : List Byte)
  /-- IMG_COMMIT (R478). Copies the chunk into the intake buffer. -/
  | imgCommit
  /-- IMG_INSTALL (R478). Installs the intake buffer into an invalid slot. -/
  | imgInstall (slot : Fin 2)
  /-- IMG_ABORT (R478). Discards the intake buffer and releases the claim. -/
  | imgAbort
  /-- POWER_REMOVED (R481). Input power is lost or the rails are removed, in any mode, and the device becomes unpowered with undestaged cache data lost. -/
  | powerRemoved
  /-- LINK_RECOVERY_EXIT (R89). A host link leaves Recovery at an unchanged width, HLINK_LINK_STATUS.RETRAINING clears and the class 7 bound holds again. -/
  | linkRecoveryExit (h : HostId)
  /-- DRIVE_LANE_FAULT_IN_SERVICE (R463). A drive port lane keeps failing in service, so the port narrows through Recovery and stays READY, or on lane 0 the drive is treated as surprise-removed. -/
  | driveLaneFaultInService (d : DrivePort) (lane : Fin 4)
  /-- KEY_ALARM_SOURCE_CLEARED (R355). A VOLTAGE, CLOCK, TEMPERATURE or SHIELD source ceases to be present, so the key store stops refusing imports and the PRESENT bit clears. -/
  | keyAlarmSourceCleared (code : Byte)
  /-- CHUNK_DONE (R441). The copy of the PF2 data window into the intake buffer finishes, CHUNK_DONE sets and INTA may be requested. -/
  | chunkDone (ok : Bool)
  /-- INSTALL_DONE (R440). The intake's verification and flash programming of a slot finish, INSTALL_DONE or ERROR with a reason sets and the state becomes DONE. -/
  | installDone (ok : Bool)
  /-- LOAD_DATA_RETURN (R363). A thread's load data returns, or a buffered store drains, and the thread becomes READY again or traps with MEM_ERROR on poisoned data. -/
  | loadDataReturn (cl : Cluster) (co : CoreIx) (t : ThreadIx) (store bad : Bool)
  /-- ATS_INVALIDATION_REQUEST (R87). A host sends an ATS Invalidation Request to PF0, PF1 or a VF, which the 8256 queues (depth 32) and answers with an Invalidation Completion. -/
  | atsInvalidationRequest (h : HostId) (f : Fn)
deriving DecidableEq, Repr

end Sys2Proof
end

