-- ==== Sys2Proof/Machine/State/Core.lean ====
section
/-! DEFINITION. State/Core.lean: the clocks, the operating mode, the epochs and recoat units, the command channels, the long operations, the host links and their functions and queues (chapters 1 to 4 and 20 of spec/). -/

namespace Sys2Proof.Machine
open Sys2Proof

/-- The six operating modes (R26, R27). -/
inductive Mode where
  | boot | service | degraded | maintenance | quiesce | park
deriving DecidableEq, Repr

/-- Causes of a mode transition (R34). -/
inductive Cause where
  | powerOn | pinReset | ownerReset | refLoss | bootDone | unitLost | belowFloor | noValidImage | maintFlag | ownerCommand | parkDoneWarm | parkForced
deriving DecidableEq, Repr

/-- How far BOOT has come (R20, R421). -/
inductive BootStage where
  /-- DEV_RST_N is asserted -/
  | inReset
  /-- released; the root PLL has not locked -/
  | waitLock
  | rom | loader | mgmtFw
  /-- every stage has run; BOOT may leave -/
  | finished
  /-- BOOT has left for another mode -/
  | left
  /-- no valid image: the ROM serves recovery in MAINTENANCE (R439) -/
  | recovery
deriving DecidableEq, Repr

/-- The CLK block and the reference inputs (R20, R487). -/
structure Clk where
  rootLock : Bool
  refPresent : Bool
  holdover : Bool
  refReturned : Bool
  /-- since power-on, saturating at 0xFFFF -/
  holdoverCount : Nat
  ethRef : Bool
  hostRefs : Vector Bool 8
deriving DecidableEq, Repr

/-- An accepted PARK: power-off, FORCE, whether FORCE was needed, and the mode commands accepted before it (R28, R32). -/
structure ParkDue where
  powerOff : Bool
  force : Bool
  needed : Bool
  before : List Nat
deriving DecidableEq, Repr

/-- The GLB block: the mode registers and what a mode transition waits for. -/
structure Glb where
  powered : Bool
  mode : Mode
  /-- none reads 0x0 (R33) -/
  prev : Option Mode
  cause : Cause
  degradedPending : Bool
  /-- GLB_MODE_SEQ, since power-on -/
  modeSeq : Word
  stage : BootStage
  /-- management firmware runs -/
  fwRuns : Bool
  /-- the mode QUIESCE was entered from (R27) -/
  quiesceFrom : Mode
  drainComplete : Bool
  /-- an automatic transition that waits for the next boundary (R27, R32) -/
  autoNext : Option (Mode × Cause)
  /-- a PARK command accepted and not yet in effect (R27, R28) -/
  parkDue : Option ParkDue
  /-- GLB_STRAPS (R489) -/
  straps : BitVec 4
deriving DecidableEq, Repr

/-- Where a recoat unit stands (R43 to R48). -/
inductive UnitPhase where
  | idle
  | armed
  | pending
  | grace
  | reload
deriving DecidableEq, Repr

/-- One recoat unit's recoat state. -/
structure UnitState where
  phase : UnitPhase
  /-- the epoch an arm is bound to; none: the next boundary whose cutoff it meets -/
  target : Option Nat
  /-- the held RECOAT_ARM that armed it -/
  handle : Option Nat
  /-- direct writes held until the grace bit clears (R48): register address and value -/
  held : List (Nat × Nat)
  /-- UNDERCOAT_RESET copies it now (R43) -/
  copying : Bool
  /-- the defaults of R42 or R113 wait to be loaded -/
  defaultsDue : Bool
deriving DecidableEq, Repr

/-- The epoch counter and its registers (R35 to R37). -/
structure Epochs where
  epoch : Nat
  /-- GLB_EPOCH_LEN.LEN as last written -/
  len : Nat
  /-- the length of the epoch in progress, in 8 ns units -/
  lenNow : Nat
  /-- the arm cutoff of the coming boundary has passed (R45) -/
  cutoffDone : Bool
  /-- DTIME at the last boundary -/
  dtimeAt : Nat
  /-- the recoat units, by GLB_RECOAT bit -/
  units : Vector UnitState 32
  /-- the high words latched by reads of the low words of 64-bit registers, by the low word's address (R7) -/
  latch : Tbl Nat
deriving DecidableEq, Repr

/-- The registers of one ring channel's command window (R55 to R64). -/
structure Ring where
  sqBase : Nat
  rqBase : Nat
  eqBase : Nat
  sqCfg : Nat
  rqCfg : Nat
  eqCfg : Nat
  sqTail : Nat
  sqHead : Nat
  rqHead : Nat
  rqTail : Nat
  eqHead : Nat
  eqTail : Nat
  eventVec : Nat
  replyVec : Nat
  eventEnable : Bool
  enable : Bool
  running : Bool
  fault : Bool
  vecErr : Bool
  cfgErr : Bool
  oversize : Bool
  eventsLost : Nat
  /-- dropped since the last EVENTS_LOST record -/
  unreported : Nat
  rqPhase : Bool
  eqPhase : Bool
  seq : Nat
  /-- event mask of R508, bit t for type t -/
  mask : Nat
deriving DecidableEq, Repr

/-- A status reply (R68). -/
structure Reply where
  chan : Chan
  /-- on the owner channel: the path the command came on -/
  vdm : Option HostId
  phase : Bool
  handleValid : Bool
  longResult : Bool
  status : Nat
  tag : Word
  epoch : Nat
  /-- RESULT, four words -/
  result : List Nat
  /-- the long result, in words -/
  long : List Nat
deriving DecidableEq, Repr

/-- An event record (R81). -/
structure Event where
  type : Nat
  phase : Bool
  mode : Nat
  seq : Nat
  epoch : Nat
  dtime : Nat
  source : Nat
  tag : Nat
  payload : List Nat
deriving DecidableEq, Repr

/-- The owner channel (R57 to R59, R83). -/
structure Owner where
  seq : Nat
  mask : Nat
  held : List Event
  unreported : Nat
  /-- the owner has sent its first command since reset release -/
  spoken : Bool
  smbusEid : Byte
  vdmEid : Byte
deriving DecidableEq, Repr

/-- What a held or stepped operation is doing (R76, R77). -/
inductive OpKind where
  | quiesce (at_ : Option Nat)
  | resume (at_ : Option Nat)
  | maintain
  | recoatArm (units : List Nat)
  | epochWait (target : Nat)
  | undercoatReset (units : List Nat)
  | snapshot (block link first count : Nat) (clear : Bool) (at_ : Option Nat)
  | carveSet (cacheGiB progGiB : Nat) (overflow : Bool)
  | emRehash (seed : Nat)
  | lpmPush (fam block : Nat)
  | ctxMigrate (domain first count tier : Nat)
  | nsDelete (ns : Nat)
  | driveFormat (port lbaf : Nat)
  | cacheFlush (host : Option Nat) (ns : Option Nat) (discard : Bool)
  | sanitize (drive : Bool) (object method : Nat)
  | programLoad (component program mask : Nat)
  | selftest (tests : Nat)
  | fuseProgram (entries : List Nat)
  | imageInstall (slot : Nat) (erase : Bool)
deriving DecidableEq, Repr

/-- One live long operation (R77). -/
structure LongOp where
  chan : Chan
  serial : Nat
  opcode : Nat
  tag : Word
  vdm : Option HostId
  stepsDone : Nat
  stepsTotal : Nat
  kind : OpKind
  /-- cancellation is no longer possible (R79) -/
  committed : Bool
  resultAddr : Nat
  resultLen : Nat
  /-- the channel went away: OP_DONE goes to the owner (R80) -/
  orphan : Bool
  /-- what its steps have counted so far -/
  notes : List Nat
deriving DecidableEq, Repr

/-- What an outstanding read of host memory carries (R107). -/
inductive Purpose where
  | txDescr (q : Nat)
  /-- with the selection serial of the packet -/
  | txData (q sel : Nat)
  | rxDescr (q : Nat)
  | nvmeSqe (q : Nat)
  | nvmeData (q cid : Nat)
  | ringSlots (chan : Nat)
  | context (domain conn : Nat)
  /-- with the serial of the packet whose payload it reads -/
  | lrdData (domain conn serial : Nat)
  | dma (cluster core thread : Nat)
deriving DecidableEq, Repr

/-- One outstanding or quarantined read of a host link (R103 to R106). -/
structure ReadReq where
  tag : Nat
  fn : Fn
  purpose : Purpose
  sentAt : Nat
  /-- its function was reset or lost Bus Master Enable -/
  abandoned : Bool
  timedOut : Bool
  /-- no longer outstanding; the tag is held (R105) -/
  quarantined : Bool
  /-- why it was abandoned, as the QUEUE_FAILED reason of R116; 0 for a function-level reset -/
  why : Nat
deriving DecidableEq, Repr

/-- The state of one host link's endpoint (R87 to R116). -/
structure HostLink where
  recoveryCount : Nat
  width : Nat
  speed : Nat
  /-- HLINK_LINK_STATUS.STATE -/
  state : Nat
  retraining : Bool
  flit : Bool
  perst : Bool
  dlUp : Bool
  /-- TotalVFs staged by HOST_VF_LIMIT and as built at the last attach (R91) -/
  staged0 : Nat
  staged1 : Nat
  t0 : Nat
  t1 : Nat
  unexpectedCpl : Nat
  cplTimeouts : Nat
  intxStatus : Nat
  intxEnable : Nat
  /-- the virtual INTA wire -/
  inta : Bool
  pf1Int : Bool
  pf2Int : Bool
  reads : List ReadReq
  /-- reads that wait for a free tag (R103) -/
  readsDue : List (Fn × Purpose)
  /-- an attach that waits for a detach or for the end of BOOT -/
  attachDue : Option LinkTraining
  /-- the violation SEQ at the link's last attach (R504) -/
  violationsFrom : Nat
  /-- lanes lost to faults on the 8256's side -/
  lostLanes : List Nat
  /-- abandoned reads of functions that lost Bus Master Enable, ended while others of their function were outstanding (R105) -/
  failsDue : List (Fn × Purpose)
  /-- the defaults that are due follow a reset of PF0 alone (R113) -/
  flrOnly : Bool
deriving DecidableEq, Repr

/-- One AER record of a function (R109). -/
structure AerEntry where
  error : Nat
  advisory : Bool
  header : List Nat
deriving DecidableEq, Repr

/-- The registers of one function (R90 to R96). -/
structure FnState where
  bme : Bool
  mse : Bool
  intxDisable : Bool
  msixEnable : Bool
  msixMask : Bool
  /-- vectors whose Mask bit is clear; a vector is masked after reset -/
  unmasked : List Nat
  /-- the pending bit array -/
  pendingVecs : List Nat
  /-- causes held while Bus Master Enable is 0 (R95) -/
  heldVecs : List Nat
  d3 : Bool
  /-- Device Control 2: Completion Timeout Value, tag width enables -/
  cto : Nat
  tags10 : Bool
  tags14 : Bool
  mps : Nat
  mrrs : Nat
  relaxed : Bool
  vfEnable : Bool
  numVfs : Nat
  /-- the rest of configuration space and the MSI-X table, as last written -/
  cfg : Tbl Word
  msixTable : Tbl Word
  aer : List AerEntry
deriving DecidableEq, Repr

/-- A posted receive buffer (R99). -/
structure RxBuf where
  addr : Nat
  len : Nat
  cookie : Nat
deriving DecidableEq, Repr

/-- A transmit packet whose descriptors have been read (R98). -/
structure TxPkt where
  index : Nat
  count : Nat
  len : Nat
  /-- address and length of each descriptor -/
  segs : List (Nat × Nat)
  cpl : Bool
  stamp : Bool
  launch : Option Nat
  csum : Option (Nat × Nat)
  key : Option Nat
  cookie : Nat
deriving DecidableEq, Repr

/-- A selected transmit packet whose data is being read. -/
structure TxRead where
  pkt : TxPkt
  sel : Nat
  cls : Nat
  port : Nat
  hods : List Nat
deriving DecidableEq, Repr

/-- A completion entry of a transmit queue that is due, in descriptor order (R101): outcome none while the packet is on its way. -/
structure TxCpl where
  index : Nat
  count : Nat
  cookie : Nat
  cls : Nat
  want : Bool
  outcome : Option Nat
  stamp : Nat
deriving DecidableEq, Repr

/-- A network queue (R97 to R102); kinds 4 and 5 are the SQ and RQ of an LRD connection (R511). -/
structure Queue where
  kind : Nat
  log2 : Nat
  cls : Nat
  cq : Nat
  vector : Nat
  coalCount : Nat
  coalTime : Nat
  group : Nat
  stamp : Bool
  base : Nat
  head : Nat
  doorbell : Nat
  packets : Nat
  bytes : Nat
  drops : Nat
  failed : Bool
  reason : Nat
  /-- completion queue: the phase of the next entry, entries not yet signalled, and when the first of them was written -/
  phase : Bool
  unsignalled : Nat
  firstAt : Nat
  /-- entries that wait for room, without their PHASE (R102) -/
  late : List (List Nat)
  /-- receive queue: buffers posted and not yet used -/
  bufs : List RxBuf
  /-- descriptors are being read; how far they have been read -/
  fetching : Bool
  fetched : Nat
  /-- transmit queue: descriptors of a packet whose EOP has not been read, each eight words; packets known and not selected; selected packets awaiting data; entries due -/
  raw : List (List Nat)
  ready : List TxPkt
  reading : List TxRead
  cpls : List TxCpl
  /-- the transmit queue's hods wait for a charge (R211) -/
  hodWait : Bool
  /-- the connection that owns it, for kinds 4 and 5 -/
  conn : Nat
deriving DecidableEq, Repr

/-- A violation record (R502). -/
structure Violation where
  kind : Nat
  block : Nat
  target : Nat
  seq : Nat
  epoch : Nat
  dtime : Nat
  detail : List Nat
deriving DecidableEq, Repr

/-- The violation log (R503). -/
structure Violations where
  seq : Nat
  log : List Violation
  /-- DTIME of the last VIOLATION event, by channel number × 8 + KIND -/
  lastEvent : Tbl Nat
deriving DecidableEq, Repr

/-- What the block sends out, newest first in State.out. -/
inductive Out where
  | reply (r : Reply)
  | event (c : Chan) (vdm : Option HostId) (e : Event)
  /-- an MSI-X message -/
  | msix (h : HostId) (f : Fn) (vector : Nat)
  /-- Assert_INTA or Deassert_INTA -/
  | intx (h : HostId) (level : Bool)
  /-- a read request as a function -/
  | hostRead (h : HostId) (f : Fn) (tag : Nat) (purpose : Purpose)
  /-- a posted write as a function: bus address and bytes -/
  | hostWrite (h : HostId) (f : Fn) (addr : Nat) (data : List Byte)
  /-- a completion entry of a network queue -/
  | cqe (h : HostId) (f : Fn) (cq index : Nat) (words : List Nat)
  /-- a completion the endpoint returns: 0 success, 1 Unsupported Request, 2 Completer Abort, 3 Request Retry Status; poisoned; data -/
  | completion (h : HostId) (status : Nat) (poisoned : Bool) (data : List Nat)
  /-- ERR_COR 1, ERR_NONFATAL 2 or ERR_FATAL 3 -/
  | errMsg (h : HostId) (f : Fn) (severity : Nat)
  /-- an ATS Invalidation Completion of a function -/
  | atsCompletion (h : HostId) (f : Fn)
  /-- an MCTP message body on a path -/
  | mctp (path : MctpPath) (body : List Nat)
  /-- an SPDM response -/
  | spdm (port : SpdmPort) (code param1 param2 : Nat) (body : List Byte)
  | doe (h : HostId) (words : List Nat)
  /-- a frame handed to a port's MAC, with its last bit sent -/
  | frame (port : Nat) (bytes : List Byte)
  /-- the long result of an operation of the owner, which follows its OP_DONE in the same message -/
  | opLong (handle : Nat) (words : List Nat)
  /-- the value a register read returned -/
  | regRead (addr : Nat) (value : Nat)
  /-- a line on the Klobunel monitor's UART, by its words and its numbers: a data line, OK, ERR with a status code, or the prompt (R469) -/
  | uart (label : String) (values : List Nat)
  /-- a message toward a port's link partner: 1 idle, 2 local fault, 3 remote fault, 4 AN page -/
  | portSignal (port : Nat) (what : Nat)
  /-- a PMBus transaction: regulator address, command, data -/
  | pmbus (addr cmd data : Nat)
  /-- an output pin driven: its name and level -/
  | pin (name : String) (level : Bool)
  /-- a command to a drive: port, command identifier, opcode, namespace, starting block, blocks -/
  | driveCmd (port cid op nsid slba blocks : Nat)
  /-- drive slot control: 1 power on, 2 power off, 3 controller reset, 4 hot reset -/
  | driveCtl (port what : Nat)
  /-- a storage message to a remote target: target, operation, tag, starting block, blocks -/
  | remote (target op tag slba blocks : Nat)
  /-- the completion entry of an NVMe queue: status code type and code -/
  | nvmeCqe (h : HostId) (f : Fn) (cq sq cid sqHead dw0 status : Nat) (phase : Bool)
  /-- a DRAM channel's answer or the block's own access: channel, address, 0 good data, 1 an access started, 2 poisoned; data -/
  | dram (channel addr what : Nat) (data : List Byte)
deriving DecidableEq, Repr

end Sys2Proof.Machine
end

