-- ==== Sys2Proof/Machine/State/Eth.lean ====
section
/-! DEFINITION. State/Eth.lean: the Ethernet port groups (chapter 5). -/

namespace Sys2Proof.Machine
open Sys2Proof

/-- Link states of a port (the state table before R124). -/
inductive LinkState where
  | disabled | an | training | aligning | up | fault | hold
deriving DecidableEq, Repr

/-- The port that starts at a lane; width 0: none does. -/
structure EthPort where
  width : Nat
  /-- ETH_PORT_CFG as applied -/
  cfg : Word
  state : LinkState
  /-- the state left for HOLD and the cause that began it (R127) -/
  heldState : LinkState
  heldCause : Nat
  /-- AN failed; the 500 ms wait runs (R125) -/
  anWait : Bool
  partnerValid : Bool
  partner : Nat
  /-- saturating at 0xFF -/
  linkUps : Nat
  /-- when an AN_FAILED or TRAINING_FAILED event was last raised, in ns (R128) -/
  lastFail : Option Nat
deriving DecidableEq, Repr

/-- A group's ETH_GROUP_CTRL. -/
structure EthGroup where
  laneFault : Nat
  badLayout : Bool
  busy : Bool
  /-- ports an APPLY in progress changes, with the state each had -/
  changed : List (Nat × LinkState)
deriving DecidableEq, Repr

/-- The ETH block. -/
structure Eth where
  /-- ETH_PORT_CFG as last written -/
  cfg : Vector Word 64
  ptpRx : Vector Word 64
  ptpTx : Vector Word 64
  groups : Vector EthGroup 8
  ports : Vector EthPort 64
  rate : Word
  holdoff : Nat
deriving DecidableEq, Repr

/-- No port. -/
def EthPort.none : EthPort where
  width := 0
  cfg := 0
  state := .disabled
  heldState := .up
  heldCause := 0
  anWait := false
  partnerValid := false
  partner := 0
  linkUps := 0
  lastFail := Option.none

/-- ETH after reset: no port; fields marked X hold 0 (a value the model names). (DESIGN CHOICE, log 10) -/
def Eth.reset : Eth where
  cfg := Vector.replicate 64 0
  ptpRx := Vector.replicate 64 0
  ptpTx := Vector.replicate 64 0
  groups := Vector.replicate 8 { laneFault := 0, badLayout := false, busy := false, changed := [] }
  ports := Vector.replicate 64 EthPort.none
  rate := 0
  holdoff := 0

end Sys2Proof.Machine
end

