-- ==== Sys2Proof/Machine/State/Parse.lean ====
section
/-! DEFINITION. State/Parse.lean: the parse graph's banks and policers, and the extracted-field vector (chapter 6). -/

namespace Sys2Proof.Machine
open Sys2Proof

/-- One bank of the PARSE unit: nodes by direction × 256 + number, each 64 words (R137, R138), malformed actions and policers. -/
structure ParseBank where
  nodes : Tbl (List Nat)
  /-- PARSE_MALFORMED_CFG of the receive and transmit direction -/
  actions : Vector Nat 2
  /-- PARSE_PUNT_POLICER of the 32 pipelines -/
  policers : Vector Nat 32
deriving DecidableEq, Repr, Inhabited

/-- A policer's bucket: credit in millionths of a packet, and when it was last brought up to date, in ns (R147). -/
structure PuntBucket where
  credit : Nat
  at_ : Nat
deriving DecidableEq, Repr

/-- The PARSE unit. -/
structure Parse where
  banks : Staged ParseBank
  /-- the physical bank that is topcoat (PARSE_BANK_STATUS) -/
  topBank : Bool
  buckets : Vector PuntBucket 32
  mirrorEn : Bool
  mirrorPort : Nat
deriving DecidableEq, Repr

/-- The extracted-field vector (R143). -/
structure FieldVec where
  c : Vector Nat 32
  h : Vector (Option Nat) 16
  profile : Nat
  flags : Nat
  express : Bool
  passes : Nat
  nodes : Nat
  payloadOffset : Nat
  length : Nat
  source : Nat
  epoch : Nat
  cause : Nat
  failNode : Nat
  failCursor : Nat
deriving DecidableEq, Repr

/-- A bank at its reset values: no valid node, every action DROP, each policer at 10 Mpps and 256 packets (R147, R157). -/
def ParseBank.reset : ParseBank where
  nodes := []
  actions := Vector.replicate 2 0
  policers := Vector.replicate 32 (0x100 * 2 ^ 19 + 0x2710)

/-- The PARSE unit after reset. -/
def Parse.reset : Parse where
  banks := ⟨ParseBank.reset, ParseBank.reset, ParseBank.reset⟩
  topBank := false
  buckets := Vector.replicate 32 ⟨0, 0⟩
  mirrorEn := false
  mirrorPort := 0

/-- The vector before the first node (R143). -/
def FieldVec.empty : FieldVec where
  c := Vector.replicate 32 0
  h := Vector.replicate 16 none
  profile := 0
  flags := 0
  express := false
  passes := 1
  nodes := 0
  payloadOffset := 0
  length := 0
  source := 0
  epoch := 0
  cause := 0
  failNode := 0
  failCursor := 0

end Sys2Proof.Machine
end

