-- ==== Sys2Proof/Machine/State/Net.lean ====
section
/-! DEFINITION. State/Net.lean: packets on their way, the hod store, spreading, quotas, the scheduler trees and the network pipelines (chapters 8 and 9). -/

namespace Sys2Proof.Machine
open Sys2Proof

/-- What the prefix engine found. -/
inductive LpmOut where
  | notRun
  /-- no match; the default route does not apply or there is none -/
  | none
  | action (index : Nat)
  /-- four probes missed and lengths remain -/
  | more (remaining : List Nat)
deriving DecidableEq, Repr

/-- The result of the whole lookup stage, before anything is counted. -/
structure Lookup where
  /-- the final action record; none while the packet must recirculate -/
  action : Option (List Nat)
  /-- the CONTINUE record, if one won (R167) -/
  cont : Option (List Nat)
  /-- counters of R189 to advance -/
  counts : List Nat
  /-- lengths still to probe -/
  remaining : List Nat
  family6 : Bool
  addr : Nat
  missAction : Nat
deriving DecidableEq, Repr

/-- Where a packet came from. -/
inductive Origin where
  /-- received on a port -/
  | wire
  | txq (h : HostId) (f : Fn) (q : Nat)
  /-- sent by a connection: its key, and the PSN of a data packet -/
  | conn (key : Nat) (psn : Option Nat)
  /-- emitted by a core program -/
  | core
  /-- a copy made by MIRROR; its hods belong to the original until both have left (R207) -/
  | mirror
deriving DecidableEq, Repr

/-- What an inline tile does to a packet, and what follows it (R345 to R348). -/
inductive TileJob where
  | espIn
  | espOut
  | lrdIn
  | lrdOut
deriving DecidableEq, Repr

/-- A packet inside the 8256. -/
structure Pkt where
  /-- without its FCS -/
  bytes : List Byte
  hods : List Nat
  pipe : Nat
  /-- the port of arrival or departure -/
  port : Nat
  origin : Origin
  /-- order key (R151) -/
  order : Nat
  /-- steering hash, replaced by the spreading hash (R192, R195) -/
  hash : Nat
  /-- receive timestamp in ns (R132) -/
  arrived : Nat
  epoch : Nat
  vec : FieldVec
  /-- where a second pass begins (R142) -/
  node : Nat
  cursor : Nat
  look : Option Lookup
  /-- class, effective once the action stage or the selection has fixed it -/
  cls : Nat
  mark : Nat
  /-- the function and queue it is delivered to -/
  target : Nat
  queue : Nat
  decrypted : Bool
  /-- the key slot and job of an inline tile, if it goes through one -/
  tile : Option (TileJob × Nat)
  /-- index of the first descriptor, for a transmit packet; selection serial -/
  index : Nat
  sel : Nat
  /-- stamp it on departure (TS of R98, TX_STAMP of LRD) -/
  stampTx : Bool
  /-- the connection it belongs to, if it is an LRD packet -/
  conn : Nat
  /-- it was admitted in QUIESCE, which drops it unless it belongs to an established connection (R26) -/
  quiet : Bool
  /-- selection serial of a class 7 packet, which keeps its turn (R235); 0: none -/
  turn : Nat
  /-- serial of its admission, which says who is earlier (R151) -/
  seq : Nat
deriving DecidableEq, Repr

/-- Who pays for a hod (R208, R209). -/
inductive Payer where
  /-- the arrival allowance of a group -/
  | arrival (g : Nat)
  | host (h : HostId) (vf : Option Nat)
  /-- drawn on HOD_X7 of a host (R210) -/
  | reserve (h : HostId)
  | forward
  | core
deriving DecidableEq, Repr

/-- A hod that is held. -/
structure Hod where
  /-- the next handle of its chain -/
  next : Nat
  payer : Payer
  /-- copies that still use it (R207) -/
  users : Nat
deriving DecidableEq, Repr

/-- The HOD block. -/
structure Hods where
  /-- HOD_POOL_CFG as written -/
  cfg : Vector Nat 6
  rxCfg : Nat
  /-- the carve and start pools in force -/
  counts : Vector Nat 6
  rxPool : Nat
  busy : Bool
  badCarve : Bool
  forwardLimit : Nat
  coreLimit : Nat
  /-- held hods by handle -/
  held : Tbl Hod
  /-- packet memory by offset in the packet-buffer region -/
  mem : Mem
deriving DecidableEq, Repr

/-- One indirection table (R197). -/
structure IndTable where
  log2 : Nat
  sel : Nat
  /-- grows by one whenever the table is re-formed -/
  gen : Nat
  /-- VALID entries: index and queue -/
  entries : Tbl Nat
deriving DecidableEq, Repr

/-- The settings of SPREAD n (R195 to R198). -/
structure SpreadUnit where
  key : List Byte
  /-- source codes of a selection -/
  sels : Tbl (List Nat)
  alertShare : Nat
  tables : Tbl IndTable
deriving DecidableEq, Repr, Inhabited

/-- Load counters of an indirection entry (R199). -/
structure Load where
  last : Nat
  now : Nat
  total : Nat
deriving DecidableEq, Repr

/-- A scheduler node at levels 1 to 4 (R232, R233). -/
structure Node where
  parent : Nat
  weight : Nat
  rate : Nat
  burst : Nat
  permit : Nat
deriving DecidableEq, Repr

/-- A level-0 node. -/
structure TopNode where
  rate : Nat
  burst : Nat
  inflight : Nat
  weights : List Nat
deriving DecidableEq, Repr

/-- The settings of SCHED_TOP: level-0 nodes by direction × 64 + number, level-1 nodes by (direction × 64 + port) × 16 + host, policers by index. -/
structure SchedTop where
  links : Tbl TopNode
  hosts : Tbl Node
  policers : Tbl (Nat × Nat)
deriving DecidableEq, Repr

/-- The settings of HOST_SHARE: eight weights for transmit, receive and storage, and FWD_WEIGHT. -/
structure HostShare where
  weights : Vector (List Nat) 3
  forward : Nat
deriving DecidableEq, Repr

/-- The settings of SCHED_HOST n: VF groups and queue groups by direction × 65,536 + level-3 flag × 4,096 + number, leaves by direction × 2^30 + function × 65,536 + queue. -/
structure SchedHost where
  groups : Tbl Node
  leaves : Tbl Node
deriving DecidableEq, Repr, Inhabited

/-- The three units of a host (R39). -/
structure HostUnits where
  spread : Staged SpreadUnit
  sched : Staged SchedHost
  /-- limits by VF × 256 + resource; a limit not listed is 0xFFFFFFFF -/
  vfQuota : Staged (Tbl Nat)
deriving DecidableEq, Repr

/-- The owner's default set of a host (R42). -/
structure HostDefaults where
  spread : SpreadUnit
  sched : SchedHost
  vfQuota : Tbl Nat
deriving DecidableEq, Repr, Inhabited

/-- A shaper's or policer's credit in 1/1,000 byte, and the 8 ns instant it was brought up to (R224, R226). -/
structure Credit where
  credit : Int
  at_ : Nat
  /-- the node has backlog -/
  active : Bool
deriving DecidableEq, Repr

/-- A parked node (R228): its key, its due DTIME, whether it stands on the coarse wheel, whether LAUNCH holds it. -/
structure Parked where
  node : Nat
  due : Nat
  coarse : Bool
  launch : Bool
deriving DecidableEq, Repr

/-- The scheduler's own state. -/
structure Sched where
  top : Staged SchedTop
  share : Staged HostShare
  credits : Tbl Credit
  /-- DWRR deficits by class and node, and the child served last by class and parent (R221) -/
  deficits : Tbl Nat
  cursors : Tbl Nat
  parked : List Parked
  /-- forwarding queues by port × 8 + class (R219) -/
  forward : Tbl (List Pkt)
  /-- received packets that wait at a leaf for their host link, by leaf key -/
  rx : Tbl (List Pkt)
  /-- bytes selected and not yet sent, by port (R223) -/
  inflight : Tbl Nat
  serial : Nat
  /-- class 7 selections of a port that have not reached their pipeline, oldest first (R235) -/
  order7 : Tbl (List Nat)
  ready7 : List Pkt
deriving DecidableEq, Repr

/-- A pipeline. -/
structure PipeState where
  /-- packets in front of its input (R194) -/
  input : List Pkt
  /-- recirculating packets, those of the prefix engine included (R150, R181) -/
  recirc : List Pkt
  /-- held packets in the order they finished parsing, each with the verdict it waits to be given (R151) -/
  held : List Pkt
  /-- packets in its inline tile -/
  tile : List Pkt
deriving DecidableEq, Repr

/-- The pipelines, steering and the port output queues. -/
structure Net where
  pipes : Vector PipeState 32
  /-- PARSE_STEER_RANGE by group × 4 + range -/
  ranges : Vector Nat 32
  /-- PARSE_STEER_KEY by group × 11 + word -/
  keys : Vector Nat 88
  /-- output queues by port: class 7, and everything else (R223) -/
  out7 : Tbl (List Pkt)
  outq : Tbl (List Pkt)
  /-- packets whose data is being written to a host, oldest first: completion words, function key, completion queue, queue, hods -/
  delivering : Vector (List (Pkt × List Nat)) 8
  /-- load counters by (host × 64 + table) × 4,096 + entry -/
  loads : Tbl Load
  /-- DTIME of a table's last LOAD_ALERT, by host × 64 + table -/
  alerts : Tbl Nat
  units : Vector HostUnits 8
  defaults : Tbl HostDefaults
  /-- limits of QUOTA by host × 256 + resource; a limit not listed is its reset value -/
  quota : Staged (Tbl Nat)
deriving DecidableEq, Repr

/-- A packet with nothing set. -/
def Pkt.empty : Pkt where
  bytes := []
  hods := []
  pipe := 0
  port := 0
  origin := .wire
  order := 0
  hash := 0
  arrived := 0
  epoch := 0
  vec := FieldVec.empty
  node := 0
  cursor := 0
  look := none
  cls := 0
  mark := 0
  target := 0
  queue := 0
  decrypted := false
  tile := none
  index := 0
  sel := 0
  stampTx := false
  conn := 0
  quiet := false
  turn := 0
  seq := 0

/-- The default carve (R202). -/
def Hods.defaultCounts : Vector Nat 6 := #v[32768, 16384, 16384, 57344, 4608, 3072]

/-- The hod store as BOOT leaves it; before BOOT has written it the same values stand. (DESIGN CHOICE, log 10) -/
def Hods.reset : Hods where
  cfg := Hods.defaultCounts
  rxCfg := 0x6DB6DB
  counts := Hods.defaultCounts
  rxPool := 0x6DB6DB
  busy := false
  badCarve := false
  forwardLimit := 0x20000
  coreLimit := 0x10000
  held := []
  mem := []

/-- The default SPREAD n (R198); selections 1 to 7 are given the same. -/
def SpreadUnit.reset : SpreadUnit where
  key := List.replicate 52 0
  sels := (List.range 8).map fun i => (i, [0xFF])
  alertShare := 0
  tables := [(0, { log2 := 6, sel := 0, gen := 0, entries := (List.range 64).map fun i => (i, 0) })]

/-- The default of a node (R234). -/
def Node.reset : Node where
  parent := 0
  weight := 1
  rate := 0
  burst := 0
  permit := 0xFF

/-- The default of a level-0 node (R234). -/
def TopNode.reset : TopNode where
  rate := 0
  burst := 2048
  inflight := 512
  weights := List.replicate 7 64

/-- SCHED_TOP at BOOT: nodes not listed hold their defaults (R234). -/
def SchedTop.reset : SchedTop where
  links := []
  hosts := []
  policers := []

/-- HOST_SHARE at BOOT (R234). -/
def HostShare.reset : HostShare where
  weights := Vector.replicate 3 (List.replicate 8 125)
  forward := 0

/-- SCHED_HOST n at BOOT: no group; the receive groups of R218 are fixed, and attach adds the default transmit groups (R234). -/
def SchedHost.reset : SchedHost where
  groups := []
  leaves := []

/-- The units of a host at BOOT. -/
def HostUnits.reset : HostUnits where
  spread := ⟨SpreadUnit.reset, SpreadUnit.reset, SpreadUnit.reset⟩
  sched := ⟨SchedHost.reset, SchedHost.reset, SchedHost.reset⟩
  vfQuota := ⟨[], [], []⟩

/-- The default set until HOST_DEFAULTS_SET replaces it. -/
def HostDefaults.reset : HostDefaults where
  spread := SpreadUnit.reset
  sched := SchedHost.reset
  vfQuota := []

/-- The scheduler at BOOT. -/
def Sched.reset : Sched where
  top := ⟨SchedTop.reset, SchedTop.reset, SchedTop.reset⟩
  share := ⟨HostShare.reset, HostShare.reset, HostShare.reset⟩
  credits := []
  deficits := []
  cursors := []
  parked := []
  forward := []
  rx := []
  inflight := []
  serial := 0
  order7 := []
  ready7 := []

/-- The pipelines at BOOT; steering keys hold 0 until BOOT loads them (R193). -/
def Net.reset : Net where
  pipes := Vector.replicate 32 { input := [], recirc := [], held := [], tile := [] }
  ranges := Vector.ofFn fun i => match i.val % 4 with
    | 0 => 0x800F0016
    | 1 => 0x800F0026
    | 2 => 0x80030036
    | _ => 0
  keys := Vector.replicate 88 0
  out7 := []
  outq := []
  delivering := Vector.replicate 8 []
  loads := []
  alerts := []
  units := Vector.replicate 8 HostUnits.reset
  defaults := []
  quota := ⟨[], [], []⟩

end Sys2Proof.Machine
end

