-- ==== Sys2Proof/Machine/State/Cores.lean ====
section
/-! DEFINITION. State/Cores.lean: the packet cores, their threads, memories, ports and programs (chapter 14). -/

namespace Sys2Proof.Machine
open Sys2Proof

/-- The states of a thread context that is not FREE (R367). -/
inductive TState where
  | ready | waiting | zombie | halted | trapped | draining
deriving DecidableEq, Repr

/-- What a waiting thread waits for (R370, R373): its destination register, and the mask or the child. -/
inductive Wait where
  | events (rd mask : Nat)
  | join (rd child : Nat)
deriving DecidableEq, Repr

/-- What an outstanding memory access does with its data: loads with and without sign, LR, SC and AMO by funct5. -/
inductive LoadKind where
  | zext | sext | lr
  | sc (v : Nat)
  | amo (op v : Nat)
deriving DecidableEq, Repr

/-- A load whose data has not returned (R363): destination, address, bytes, kind, and the length of the instruction. -/
structure LoadWait where
  rd : Nat
  addr : Nat
  size : Nat
  kind : LoadKind
  ilen : Nat
deriving DecidableEq, Repr

/-- A live or held thread context (R366 to R382). -/
structure Thread where
  st : TState
  pc : Nat
  regs : Vector Nat 32
  detached : Bool
  parent : Nat
  exitVal : Nat
  /-- bits 14:0 of the event word; REPLY is the inbox -/
  events : Nat
  /-- CLK_CORE cycles the timer was armed for, and when, in 2 ns periods -/
  timer : Option (Nat × Nat)
  wait : Option Wait
  staging : Vector Nat 8
  inbox : List (List Nat)
  /-- replies on their way -/
  coming : List (List Nat)
  /-- requests that a port has not answered yet -/
  asked : Nat
  load : Option LoadWait
  /-- buffered stores, oldest first: address and bytes -/
  stores : List (Nat × List Byte)
  /-- LR reservation: memory and 8-byte granule -/
  reserved : Option (Nat × Nat)
  retired : Nat
  /-- it stands at a breakpoint whose original instruction runs first (R477) -/
  atBp : Bool
deriving DecidableEq, Repr

/-- A core (R361, R376, R392, R393). -/
structure Core where
  /-- contexts that are not FREE -/
  threads : Tbl Thread
  hawk : Vector Nat 64
  /-- the thread that issued last (R371) -/
  last : Nat
  retired : Nat
  wdogAction : Nat
  wdogExpired : Bool
  wdogTimeout : Nat
  /-- when the watchdog last restarted, in 2 ns periods -/
  wdogFrom : Nat
  /-- the detector has trapped a thread and none has issued since (R392) -/
  detected : Bool
  /-- breakpoints: address and original instruction (R477) -/
  bps : Tbl Nat
deriving DecidableEq, Repr

/-- A message in a port's buffer: core and thread, and its words (R380). -/
structure PortMsg where
  core : Nat
  thread : Nat
  words : List Nat
deriving DecidableEq, Repr

/-- A punted packet (R389). -/
structure Punt where
  pkt : Pkt
  source : Nat
  cause : Nat
  tx : Bool
  mark : Nat
deriving DecidableEq, Repr

/-- The images of a core program (R396): what is written from the start of each core's instruction and data memory, and of the cluster's shared memory. -/
structure ProgramImage where
  instr : List Byte
  data : List Byte
  shared : List Byte
deriving DecidableEq, Repr

/-- A cluster. -/
structure ClusterSt where
  program : Option Nat
  /-- the images loaded, and ENTRY and ARG of the last PROGRAM_START (R458) -/
  image : Option ProgramImage
  started : Option (Nat × Nat)
  /-- accepted messages by port -/
  ports : Tbl (List PortMsg)
  punts : List Punt
  /-- RECV requests that wait for a packet -/
  recvs : List PortMsg
deriving DecidableEq, Repr

/-- What CHANNEL_GRANT gave a program (R395, R397): ports and punt sources as bit masks. -/
structure Grant where
  ports : Nat
  sources : Nat
deriving DecidableEq, Repr

/-- The packet cores. -/
structure Cores where
  clusters : Vector ClusterSt 16
  /-- cores by cluster × 16 + core -/
  cores : Tbl Core
  grants : Tbl Grant
  /-- memories by number: 0 device shared, 1 + cluster its shared memory, 32 + core its data memory, 512 + core its instruction memory; bytes that nothing has written read 0 -/
  mems : Tbl Mem
  /-- 64-byte granules that hold poison: memory number and granule (R415) -/
  poison : List (Nat × Nat)
  /-- a debug session has breakpoints enabled (R365) -/
  bpOn : Bool
deriving DecidableEq, Repr

/-- A context as TFORK starts it, at an address. -/
def Thread.fresh (pc : Nat) : Thread where
  st := .ready
  pc := pc
  regs := Vector.replicate 32 0
  detached := true
  parent := 0
  exitVal := 0
  events := 0
  timer := none
  wait := none
  staging := Vector.replicate 8 0
  inbox := []
  coming := []
  asked := 0
  load := none
  stores := []
  reserved := none
  retired := 0
  atBp := false

/-- A core after reset: every context FREE, watchdog at 10,000 µs (CORE_WDOG). -/
def Core.reset : Core where
  threads := []
  hawk := Vector.replicate 64 0
  last := 15
  retired := 0
  wdogAction := 0
  wdogExpired := false
  wdogTimeout := 0x2710
  wdogFrom := 0
  detected := false
  bps := []

/-- A cluster without a program. -/
def ClusterSt.reset : ClusterSt where
  program := none
  image := none
  started := none
  ports := []
  punts := []
  recvs := []

/-- The cores after reset. -/
def Cores.reset : Cores where
  clusters := Vector.replicate 16 ClusterSt.reset
  cores := []
  grants := []
  mems := []
  poison := []
  bpOn := false

end Sys2Proof.Machine
end

