-- ==== Sys2Proof/Machine/State/Tables.lean ====
section
/-! DEFINITION. State/Tables.lean: the ternary classifier, the action table, the exact-match table and the prefix tables (chapter 7). -/

namespace Sys2Proof.Machine
open Sys2Proof

/-- A ternary rule (R169, R170). -/
structure Rule where
  valid : Bool
  priority : Nat
  action : Nat
  key : Nat
  mask : Nat
deriving DecidableEq, Repr

/-- One bank of the CLASS unit: rules by direction × 32,768 + index, profiles (16 words, R162) by direction × 256 + number. -/
structure ClassBank where
  rules : Tbl Rule
  profiles : Tbl (List Nat)
deriving DecidableEq, Repr, Inhabited

/-- The CLASS unit. -/
structure Cls where
  banks : Staged ClassBank
  topBank : Bool
deriving DecidableEq, Repr

/-- An exact-match entry (R172): its key, its inline action record and the seed that placed it. -/
structure EmEntry where
  key : Nat
  action : List Nat
  seedB : Bool
deriving DecidableEq, Repr

/-- The exact-match table (R172 to R177). -/
structure Em where
  /-- by bucket × 4 + slot -/
  buckets : Tbl EmEntry
  /-- by overflow set × 4 + slot -/
  overflow : Tbl EmEntry
  seedA : Nat
  seedB : Nat
  /-- 0 SINGLE, 1 MIGRATING, 2 DUAL -/
  mode : Nat
  /-- seed B places new entries -/
  newB : Bool
  moved : Nat
  stranded : Nat
deriving DecidableEq, Repr

/-- A route (R179): where it stands, none for the spill area. -/
structure Route where
  prefix_ : Nat
  len : Nat
  pushed : Bool
  noact : Bool
  action : Nat
  bucket : Option Nat
deriving DecidableEq, Repr

/-- One family's prefix table (R179 to R183). -/
structure Lpm where
  routes : List Route
  default_ : Option Nat
  seed1 : Nat
  seed2 : Nat
  /-- pushed blocks with their s4 (R183) -/
  pushed : Tbl Nat
  /-- IPv6 length sets 1 to 254, as bit masks of lengths (R180) -/
  sets : Tbl Nat
  /-- IPv6: the set of every block, as runs: each entry's block and those after it up to the next entry use its set -/
  blockSets : Tbl Nat
deriving DecidableEq, Repr

/-- The TBL block. -/
structure Tables where
  actions : Tbl (List Nat)
  em : Em
  lpm4 : Lpm
  lpm6 : Lpm
deriving DecidableEq, Repr

/-- An empty classifier bank. -/
def ClassBank.reset : ClassBank where
  rules := []
  profiles := []

/-- An empty prefix table. -/
def Lpm.reset : Lpm where
  routes := []
  default_ := none
  seed1 := 0
  seed2 := 0
  pushed := []
  sets := []
  blockSets := []

/-- The tables after reset: empty (R188); the seeds are drawn in BOOT. -/
def Tables.reset : Tables where
  actions := []
  em := { buckets := [], overflow := [], seedA := 0, seedB := 0, mode := 0, newB := false, moved := 0, stranded := 0 }
  lpm4 := Lpm.reset
  lpm6 := Lpm.reset

end Sys2Proof.Machine
end

