-- ==== Sys2Proof/Config.lean ====
section
/-! DEFINITION. Config.lean: what the spec leaves open: the free values, and the standard algorithms the spec names without defining them. Every constant here is opaque: no proof can see a value of it. -/

namespace Sys2Proof.Config
open Sys2Proof

/-- A free value, drawn with the counter State.drawn: every choice and every random value the spec leaves open. -/
opaque freeNat : Nat → Nat
/-- A free string of bytes, drawn with the same counter: seeds, keys and nonces. -/
opaque freeBytes : (draw count : Nat) → List Byte

/-- What the parameters of HOST_DEFAULTS_SET say: the spec gives them no layout (R42). -/
opaque hostDefaults : List Byte → Machine.HostDefaults
/-- The words RESOURCE_USAGE returns for its parameters, by what is used: the spec gives them no layout (R72). -/
opaque usageResult : (params used : List Nat) → List Nat

/-- How a long result is laid out whose fields the spec lists and whose offsets it does not give, by opcode (R326). -/
opaque layout : (opcode : Nat) → (fields : List (List Nat)) → List Nat

/-- The VLAN, L3_OK and L4_OK bits and the VLAN TCI of a received packet: the spec names the fields and gives no rule for them (R100). -/
opaque rxOffload : List Byte → Nat × Nat

/-- AES key unwrap with padding (NIST SP 800-38F) under a key; none where it fails (R335, R337). -/
opaque kwpUnwrap : (kek wrapped : List Byte) → Option (List Byte)
/-- The wrapping key of IMPORT_KEY_SET's AGREE: from the ephemeral point, the ML-KEM ciphertext and TARGET, with the device's static pair; none for a point off the curve (R335). -/
opaque agreedKek : (point ct : List Byte) → (target : Nat) → Option (List Byte)
/-- AES-256-GCM: the data exclusive-ored with the key stream of a key and nonce; it encrypts and decrypts. -/
opaque gcmCrypt : (key nonce data : List Byte) → List Byte
/-- AES-256-GCM: the 16-byte tag over the authenticated data and the ciphertext. -/
opaque gcmTag : (key nonce aad ciphertext : List Byte) → List Byte

/-- XTS-AES-256 (IEEE 1619) of one data unit under a 64-byte key and its tweak, and its inverse. -/
opaque xtsEncrypt : (key : List Byte) → (tweak : Nat) → (data : List Byte) → List Byte
opaque xtsDecrypt : (key : List Byte) → (tweak : Nat) → (data : List Byte) → List Byte

/-- AES-256 in counter mode from an initial counter block; it encrypts and decrypts (R351). -/
opaque ctrCrypt : (key : List Byte) → (counter : List Byte) → (data : List Byte) → List Byte
/-- SHA-384: 48 bytes. -/
opaque sha384 : List Byte → List Byte
/-- ECDSA P-384 with SHA-384: does a signature of a message verify under a public key (R428). -/
opaque ecdsaVerify : (publicKey signature message : List Byte) → Bool
/-- ML-DSA-87, pure mode, with a context string (R428). -/
opaque mldsaVerify : (publicKey signature context message : List Byte) → Bool
/-- The ROM version word (R422). -/
opaque romVersion : Nat
/-- The Device Serial Number of PF0 (R472). -/
opaque deviceSerial : Nat
/-- The device serial number as text, in SN and SUBNQN of Identify Controller (R298). -/
opaque serialText : List Byte
/-- The slot 0 certificate chain in SPDM form (R445): length, reserved, root hash, certificates. -/
opaque certChain : List Byte
/-- A signature by the DeviceID key (R444): 96 bytes. -/
opaque deviceSign : List Byte → List Byte
/-- The key-agreement public keys of R335: 96 and 1,568 bytes. -/
opaque agreementKeys : List Byte
/-- The images a core program's component writes (R395): for each core, its instruction and data memory bytes with their start addresses, and the cluster's shared memory; the spec gives the component no inner layout. None: the component is not a core program. -/
opaque programImage : (component : List Byte) → Option Machine.ProgramImage
/-- A parse pass that meets a node a direct write has spoiled (R158): free values of the record and the packet. -/
opaque badParse : (node : List Nat) → (pkt : List Byte) → Nat → Nat
/-- What the PARSE_GRAPH, CLASSIFIER and HOD_CARVE components write: the spec gives them no inner layout (R157, R188, R202). -/
opaque parseComponent : List Byte → Machine.ParseBank
opaque classComponent : List Byte → Machine.ClassBank
opaque carveComponent : List Byte → List Nat

/-- Where a capability stands in the configuration space of a kind of function (0 to 4: PF0, PF1, PF2, a VF of PF0, a VF of PF1): 1 Power Management, 2 PCI Express, 3 MSI-X, 4 AER, 5 SR-IOV; the spec gives no offsets (R92). -/
opaque capOffset : (kind cap : Nat) → Nat
/-- What a word of configuration space reads that the spec gives no value. -/
opaque configWord : (kind offset : Nat) → Nat

end Sys2Proof.Config
end

