-- ==== Sys2Proof/Machine/Data.lean ====
section
/-! DEFINITION. Data.lean: bit fields, byte order, sparse tables and sparse byte memories: the plain arithmetic every chapter of the model uses. -/

namespace Sys2Proof

/-- Bits `lo` to `lo + width - 1` of a number. -/
def bitsAt (n lo width : Nat) : Nat := n / 2 ^ lo % 2 ^ width

/-- One bit of a number. -/
def bitAt (n i : Nat) : Bool := n / 2 ^ i % 2 == 1

/-- A flag as 0 or 1. -/
def b2n (b : Bool) : Nat := if b then 1 else 0

/-- A number with bit i set or cleared. -/
def setBitAt (n i : Nat) (b : Bool) : Nat := n - b2n (bitAt n i) * 2 ^ i + b2n b * 2 ^ i

/-- The low 32 bits as a word. -/
def wordOf (n : Nat) : Word := BitVec.ofNat 32 n

/-- The low and high words of a 64-bit number, low word first (R7). -/
def words64 (n : Nat) : List Nat := [n % 2 ^ 32, n / 2 ^ 32 % 2 ^ 32]

/-- The `count` low bytes of a number, least significant first (R11). -/
def leBytes : (count n : Nat) → List Byte
  | 0, _ => []
  | k + 1, n => BitVec.ofNat 8 n :: leBytes k (n / 256)

/-- A little-endian byte string as a number. -/
def leNat : List Byte → Nat
  | [] => 0
  | b :: r => b.toNat + 256 * leNat r

/-- A byte string in network order as a number. -/
def beNatAcc : Nat → List Byte → Nat
  | a, [] => a
  | a, b :: r => beNatAcc (256 * a + b.toNat) r

/-- A byte string in network order as a number (R11). -/
def beNat (l : List Byte) : Nat := beNatAcc 0 l

/-- The `count` low bytes of a number in network order. -/
def beBytes (count n : Nat) : List Byte := (leBytes count n).reverse

/-- The little-endian bytes of a list of 32-bit words. -/
def wordsToBytes : List Nat → List Byte
  | [] => []
  | w :: r => leBytes 4 w ++ wordsToBytes r

/-- `count` bytes from offset `off`, shorter where the string ends. -/
def slice (l : List Byte) (off count : Nat) : List Byte := (l.drop off).take count

/-- Rounded-up division. -/
def ceilDiv (a b : Nat) : Nat := if b = 0 then 0 else (a + b - 1) / b

/-- A counter that saturates at `top`. -/
def satAdd (top a k : Nat) : Nat := if a + k ≤ top then a + k else top

/-- The element at an index of a list replaced by a function of it. -/
def modifyNth {α : Type} (f : α → α) : List α → Nat → List α
  | [], _ => []
  | a :: r, 0 => f a :: r
  | a :: r, n + 1 => a :: modifyNth f r n

/-- The numbers `first` to `first + count - 1`. -/
def upFrom : (first count : Nat) → List Nat
  | _, 0 => []
  | a, k + 1 => a :: upFrom (a + 1) k

/-- The first number from `first` on, within `fuel` tries, that a test accepts. -/
def firstFree (p : Nat → Bool) : (first fuel : Nat) → Option Nat
  | _, 0 => none
  | a, k + 1 => if p a then some a else firstFree p (a + 1) k

/-- An element put into a list before the first that a test places after it. -/
def insertBy {α : Type} (le : α → α → Bool) (a : α) : List α → List α
  | [] => [a]
  | b :: r => if le a b then a :: b :: r else b :: insertBy le a r

/-- A list in rising order. -/
def sortBy {α : Type} (le : α → α → Bool) : List α → List α
  | [] => []
  | a :: r => insertBy le a (sortBy le r)

namespace Tbl
variable {α : Type}

/-- The value at a key. -/
def find (t : Tbl α) (k : Nat) : Option α :=
  match t with
  | [] => none
  | (j, a) :: r => if j = k then some a else find r k

/-- The value at a key, or the given default. -/
def getD (t : Tbl α) (k : Nat) (d : α) : α := (find t k).getD d

/-- Is there a value at the key. -/
def has (t : Tbl α) (k : Nat) : Bool := (find t k).isSome

/-- The table with a value put at a key. -/
def put (t : Tbl α) (k : Nat) (a : α) : Tbl α :=
  match t with
  | [] => [(k, a)]
  | (j, b) :: r => if k < j then (k, a) :: (j, b) :: r else if k = j then (k, a) :: r else (j, b) :: put r k a

/-- The table without a key. -/
def del (t : Tbl α) (k : Nat) : Tbl α :=
  match t with
  | [] => []
  | (j, b) :: r => if k = j then r else (j, b) :: del r k

/-- The value at a key, if there is one, changed by a function. -/
def modify (t : Tbl α) (k : Nat) (f : α → α) : Tbl α :=
  match t with
  | [] => []
  | (j, b) :: r => if j = k then (j, f b) :: r else (j, b) :: modify r k f

/-- Every value changed by a function of its key and itself. -/
def mapAll (t : Tbl α) (f : Nat → α → α) : Tbl α := t.map fun e => (e.1, f e.1 e.2)

/-- The entries that a test of key and value keeps. -/
def keepIf (t : Tbl α) (p : Nat → α → Bool) : Tbl α := t.filter fun e => p e.1 e.2

/-- How many entries a test of key and value accepts. -/
def countIf (t : Tbl α) (p : Nat → α → Bool) : Nat := (keepIf t p).length

/-- The first entry that a test of key and value accepts. -/
def search (t : Tbl α) (p : Nat → α → Bool) : Option (Nat × α) := t.find? fun e => p e.1 e.2

/-- The keys rise strictly. -/
def sorted (t : Tbl α) : Bool :=
  match t with
  | [] => true
  | (k, _) :: r => (r.all fun e => k < e.1) && sorted r

end Tbl

namespace Mem

/-- The byte at an address; an unlisted address holds `empty`. (DESIGN CHOICE, log 12) -/
def read (m : Mem) (empty : Byte) (a : Nat) : Byte :=
  match m with
  | [] => empty
  | (k, b) :: r => if k = a then b else read r empty a

/-- The memory with one byte written; a byte equal to `empty` is not listed. -/
def write (m : Mem) (empty : Byte) (a : Nat) (v : Byte) : Mem :=
  match m with
  | [] => if v = empty then [] else [(a, v)]
  | (k, b) :: r =>
    if a < k then (if v = empty then (k, b) :: r else (a, v) :: (k, b) :: r)
    else if a = k then (if v = empty then r else (a, v) :: r)
    else (k, b) :: write r empty a v

/-- `count` bytes from an address. -/
def readBytes (m : Mem) (empty : Byte) (a : Nat) : Nat → List Byte
  | 0 => []
  | k + 1 => read m empty a :: readBytes m empty (a + 1) k

/-- Bytes written from an address on. -/
def writeBytes (m : Mem) (empty : Byte) (a : Nat) (l : List Byte) : Mem :=
  match l with
  | [] => m
  | b :: r => writeBytes (write m empty a b) empty (a + 1) r

/-- `count` bytes from an address set to `empty`. -/
def erase (m : Mem) (a count : Nat) : Mem := m.filter fun e => e.1 < a || a + count ≤ e.1

/-- A little-endian number of `count` bytes at an address. -/
def readLe (m : Mem) (empty : Byte) (a count : Nat) : Nat := leNat (readBytes m empty a count)

/-- A little-endian number of `count` bytes written at an address. -/
def writeLe (m : Mem) (empty : Byte) (a count n : Nat) : Mem := writeBytes m empty a (leBytes count n)

/-- The canonical form: addresses rise strictly and no byte equals `empty`. -/
def wf (m : Mem) (empty : Byte) : Bool :=
  match m with
  | [] => true
  | (k, b) :: r => b != empty && (r.all fun e => k < e.1) && wf r empty

end Mem

/-- An element of a fixed array replaced by a function of it. -/
def vmod {α : Type} {n : Nat} (v : Vector α n) (i : Fin n) (f : α → α) : Vector α n := v.set i.val (f v[i]) i.isLt

/-- An element of a fixed array replaced. -/
def vset {α : Type} {n : Nat} (v : Vector α n) (i : Fin n) (a : α) : Vector α n := v.set i.val a i.isLt

end Sys2Proof
end

