-- ==== Sys2Proof/Machine/State/Bist.lean ====
section
/-! DEFINITION. State/Bist.lean: the degradation record, spares and PARK (chapter 17). -/

namespace Sys2Proof.Machine
open Sys2Proof

/-- An entry of the degradation record (R464). -/
structure DegEntry where
  kind : Nat
  reason : Nat
  unit : Nat
  detail : Nat
  epoch : Nat
deriving DecidableEq, Repr

/-- The degradation record, rebuilt at every BOOT. -/
structure Degr where
  entries : List DegEntry
deriving DecidableEq, Repr

/-- An entry of the repair record (R459): state 0 PENDING, 1 SOFT, 2 FUSED, 3 UNREPAIRABLE; found 1 PARK, 2 SELFTEST_RUN, 3 IN_SERVICE, 4 BOOT. -/
structure RepairEntry where
  kind : Nat
  state : Nat
  found : Nat
  bootCount : Nat
  unit : Nat
  location : Nat
  serial : Nat
deriving DecidableEq, Repr

/-- What is kept of the last PARK (R464). -/
structure ParkInfo where
  duration : Nat
  powerOff : Bool
  forced : Bool
  failed : Nat
  notRun : Nat
  bytesLost : Nat
  namespaces : Nat
deriving DecidableEq, Repr

/-- The BIST block. -/
structure Bist where
  /-- BIST_PARK_STATUS.PHASE: 0 not in PARK, 1 to 8 for P0 to P7 -/
  phase : Nat
  newEntries : Nat
  powerOff : Bool
  /-- the PARK command had FORCE -/
  force : Bool
  /-- when PARK was entered, in ns -/
  enteredAt : Nat
  /-- the logical number RXS and TXS carry, and the core each cluster's spare carries -/
  rxSpare : Option Nat
  txSpare : Option Nat
  coreSpares : Tbl Nat
  /-- failures found in service that a spare replaces at the next boundary: kind and unit (R458) -/
  swaps : List (Nat × Nat)
  /-- the entry actions of P0 are done -/
  entered : Bool
  /-- faults found and not yet recorded, and the tests failed and not run, of the PARK in progress -/
  found : List TestFault
  failed : Nat
  notRun : Nat
  /-- write-cache bytes that the PARK in progress lost, and the namespaces they belong to (R28) -/
  bytesLost : Nat
  namespaces : Nat
  /-- the dust sheet's fault log: a warm restart keeps it (R451) -/
  log : List TestFault
deriving DecidableEq, Repr

/-- BIST after reset. -/
def Bist.reset : Bist where
  phase := 0
  newEntries := 0
  powerOff := false
  force := false
  enteredAt := 0
  rxSpare := none
  txSpare := none
  coreSpares := []
  swaps := []
  entered := false
  found := []
  failed := 0
  notRun := 0
  bytesLost := 0
  namespaces := 0
  log := []

/-- No PARK yet. -/
def ParkInfo.reset : ParkInfo where
  duration := 0
  powerOff := false
  forced := false
  failed := 0
  notRun := 0
  bytesLost := 0
  namespaces := 0

end Sys2Proof.Machine
end

