-- ==== Sys2Proof/Machine/State/Dram.lean ====
section
/-! DEFINITION. State/Dram.lean: the DRAM channels, their requests, the carve and device memory (chapter 15). -/

namespace Sys2Proof.Machine
open Sys2Proof

/-- The sizes the owner sets of the DRAM carve, in GiB (R403). -/
structure Carve where
  cache : Nat
  program : Nat
deriving DecidableEq, Repr

/-- The carve without a record in the protected store (R403). -/
def Carve.reset : Carve := ⟨32, 16⟩

/-- What a row of a channel has shown since BOOT (R418). -/
structure RowState where
  /-- distinct correctable locations, as 64-byte DPA granules -/
  bad : List Nat
  /-- some location of it is poisoned -/
  poisoned : Bool
  /-- 0 in use, 1 repair candidate, 2 soft-repaired, 3 unrepairable -/
  state : Nat
deriving DecidableEq, Repr

/-- A request that has been accepted and not yet answered (R410, R411). -/
structure DramWait where
  req : DramReq
  issued : Nat
  deadline : Nat
  /-- re-read once after an uncorrectable result (R414) -/
  retried : Bool
  /-- what the last write accepted before it left there (R412) -/
  data : List Byte
deriving DecidableEq, Repr

/-- A DRAM channel. -/
structure DramChan where
  /-- DRAMC_CH_STATUS.STATE: 0 ABSENT, 1 TRAINING, 2 READY, 3 REPLAY, 4 RETRAINING, 5 LOST -/
  state : Nat
  /-- SPD serial number and capacity in GiB of its RDIMM; 0 where there is none -/
  serial : Nat
  installed : Nat
  /-- the largest tRFC1 of its devices in ns -/
  trfc : Nat
  temp : Int
  hot : Bool
  /-- the instants of alerts of the last 10 µs, in ns -/
  alerts : List Nat
  /-- a refresh instant fell into a replay or a retrain (R409) -/
  refreshOwed : Bool
  rows : Tbl RowState
  /-- rows that wait for post-package repair, in the order they became candidates -/
  candidates : List Nat
  /-- fully trained at the last BOOT -/
  full : Bool
  /-- 64-byte accesses of the epoch in progress (R407) -/
  accesses : Nat
  queue : List DramWait
  /-- requests that wait at their port (R411) -/
  waiting : List DramWait
deriving DecidableEq, Repr

/-- The DRAM controllers. -/
structure Dram where
  chans : Vector DramChan 12
  /-- channels the interleave was formed of at BOOT, in ascending order (R406) -/
  order : List Nat
  /-- the interleave key -/
  ikey : Nat
  /-- data rate code 1 to 4, and the capacity used of each channel in GiB (R402) -/
  speed : Nat
  perChannel : Nat
  hotMode : Bool
  /-- tREFI in force, in CLK_MEM (R408, R409) -/
  trefi : Nat
  /-- DRAMC_IMBALANCE: ALERT, MAX_CH, MAX_SHARE, THRESHOLD -/
  alert : Bool
  maxCh : Nat
  maxShare : Nat
  threshold : Nat
  /-- every channel in service took a quick start at the last BOOT -/
  quick : Bool
  /-- bytes by device physical address; what nothing has written reads 0 -/
  mem : Mem
deriving DecidableEq, Repr

/-- A channel without an RDIMM. -/
def DramChan.reset : DramChan where
  state := 0
  serial := 0
  installed := 0
  trfc := 0
  temp := 0
  hot := false
  alerts := []
  refreshOwed := false
  rows := []
  candidates := []
  full := false
  accesses := 0
  queue := []
  waiting := []

/-- DRAMC before BOOT has trained a channel. (DESIGN CHOICE, log 10) -/
def Dram.reset : Dram where
  chans := Vector.replicate 12 DramChan.reset
  order := []
  ikey := 0
  speed := 0
  perChannel := 0
  hotMode := false
  trefi := 3900
  alert := false
  maxCh := 0
  maxShare := 0
  threshold := 0x100
  quick := false
  mem := []

end Sys2Proof.Machine
end

