-- ==== Sys2Proof/Machine/State/Elec.lean ====
section
/-! DEFINITION. State/Elec.lean: the junction sensors, the adaptive voltage loop and the regulators (chapter 19). -/

namespace Sys2Proof.Machine
open Sys2Proof

/-- Sensors and regulators; temperatures are in units of 0.25 °C. -/
structure Elec where
  readings : Vector Int 16
  /-- consecutive samples in which a sensor read more than 10 °C from the median of the others (R493) -/
  far : Vector Nat 16
  tj : Int
  warning : Bool
  /-- consecutive samples at or above TRIP, and THERMTRIP_N -/
  tripRun : Nat
  tripped : Bool
  /-- when a cause of THERMAL was last raised, in ns (R494) -/
  lastEvent : Tbl Nat
  /-- the last VOUT_COMMAND, in mV, and consecutive decisions above HIGH (R484) -/
  vout : Nat
  fastRun : Nat
  /-- held until the next BOOT: PMBus errors to VDD_CORE's regulator -/
  stuck : Bool
  /-- regulators that answered at the last BOOT, by address - 0x40, and VDD_CORE's reports ULINEAR16 (R483) -/
  present : Vector Bool 7
  linear : Bool
  /-- when each reference was lost, in ns, by CLOCK unit (R487) -/
  lostAt : Tbl Nat
deriving DecidableEq, Repr

/-- After reset: the set value is 0.70 V. (DESIGN CHOICE, log 10) -/
def Elec.reset : Elec where
  readings := Vector.replicate 16 0
  far := Vector.replicate 16 0
  tj := 0
  warning := false
  tripRun := 0
  tripped := false
  lastEvent := []
  vout := 700
  fastRun := 0
  stuck := false
  present := Vector.replicate 7 true
  linear := true
  lostAt := []

end Sys2Proof.Machine
end

