-- ==== Sys2Proof/Machine/State/Keys.lean ====
section
/-! DEFINITION. State/Keys.lean: the key store, its import keys and pages, the tile caches and the look-aside engines (chapter 13). -/

namespace Sys2Proof.Machine
open Sys2Proof

/-- A slot that is not FREE (R332). -/
structure KeySlot where
  /-- 1 EMPTY, 2 ACTIVE, 3 ERASED -/
  state : Nat
  use : Nat
  persist : Bool
  hdrSlot : Nat
  /-- key of the owning function; none: the owner -/
  owner : Option Nat
  /-- since import, saturating -/
  tagFails : Nat
  /-- since allocation, wrapping at 16 bits -/
  imports : Nat
  material : List Byte
deriving DecidableEq, Repr

/-- A key page (R339); one whose sealed content in DRAM no longer checks is bad. -/
structure KeyPage where
  slot : KeySlot
  /-- the device counter its nonce was sealed with -/
  counter : Nat
  bad : Bool
deriving DecidableEq, Repr

/-- A look-aside job (R351). -/
structure LaJob where
  /-- the cluster whose port submitted it -/
  cluster : Nat
  /-- the core and thread its reply goes to -/
  core : Nat
  thread : Nat
  words : List Nat
  /-- the key it started with; none before it starts -/
  key : Option (List Byte)
  /-- bytes done before it was suspended -/
  done : Nat
deriving DecidableEq, Repr

/-- A look-aside tile. -/
structure LaTile where
  running : Option LaJob
  suspended : Option LaJob
  queue : List LaJob
  /-- the running job waits for the paging engine -/
  fetching : Bool
  /-- SUSPEND as read when the running job started -/
  mode : Bool
deriving DecidableEq, Repr

/-- The CRYPT block and the key store. -/
structure Crypt where
  /-- slots that are not FREE, by number -/
  slots : Tbl KeySlot
  pages : Tbl KeyPage
  /-- import keys: 0 the owner's, 1 + the key of a function -/
  ikeks : Tbl (List Byte)
  /-- rises with every page write (R340) -/
  pageCounter : Nat
  /-- cached slots of the 32 inline tiles, and of the eight XTS tiles from 32 on, oldest first -/
  caches : Tbl (List Nat)
  /-- the material the packet at the front of an inline tile started with -/
  started : Tbl (List Byte)
  suspend : Bool
  tiles : Vector LaTile 4
  /-- SEC_KEY_ALARM -/
  present : Nat
  latched : Nat
  /-- instants of unwrap failures in the last millisecond, in ns -/
  fails : List Nat
  /-- imports are refused until this instant -/
  blockedUntil : Nat
deriving DecidableEq, Repr

/-- An idle look-aside tile. -/
def LaTile.idle : LaTile where
  running := none
  suspended := none
  queue := []
  fetching := false
  mode := false

/-- CRYPT after BOOT has emptied it (R341). -/
def Crypt.reset : Crypt where
  slots := []
  pages := []
  ikeks := []
  pageCounter := 0
  caches := []
  started := []
  suspend := false
  tiles := Vector.replicate 4 LaTile.idle
  present := 0
  latched := 0
  fails := []
  blockedUntil := 0

end Sys2Proof.Machine
end

