-- ==== Sys2Proof/Machine/State/Lrd.lean ====
section
/-! DEFINITION. State/Lrd.lean: LRD connections, their contexts, the cloakroom and the path table (chapters 10 and 11). -/

namespace Sys2Proof.Machine
open Sys2Proof

/-- What a connection was created with (R268, R287). -/
structure ConnCfg where
  gen : Nat
  peer : Nat
  peerGen : Nat
  cls : Nat
  enc : Bool
  pmtu : Nat
  ipv6 : Bool
  vlan : Option Nat
  window : Nat
  cq : Nat
  sq : Nat
  rq : Nat
  udpSrc : Nat
  initSend : Nat
  dscp : Nat
  hop : Nat
  mac : List Byte
  localIp : List Byte
  peerIp : List Byte
  group : Nat
  ccOff : Bool
  noLearn : Bool
  minRate : Nat
  maxRate : Nat
  aiStep : Nat
  margin : Nat
  beta : Nat
deriving DecidableEq, Repr

/-- A work request that has been taken (R247, R257). -/
structure LrdWr where
  serial : Nat
  index : Nat
  op : Nat
  addr : Nat
  len : Nat
  fence : Bool
  signal : Bool
  remote : Nat
  cookie : Nat
  ssn : Nat
  /-- PSN of its first packet -/
  psn : Nat
  /-- bytes cut into packets so far; every packet has a PSN -/
  cut : Nat
  started : Bool
  allCut : Bool
  /-- a finished request that waits for earlier ones -/
  outcome : Option Nat
  /-- READ: byte ranges of the response that have been written -/
  got : List (Nat × Nat)
deriving DecidableEq, Repr

/-- A block command on its way to a remote target (R245, R267). -/
structure BlockJob where
  op : Nat
  tag : Nat
  nsid : Nat
  lba : Nat
  blocks : Nat
  cmdBlocks : Nat
  atomic : Bool
  fua : Bool
  payload : List Byte
deriving DecidableEq, Repr

/-- A sequenced packet that has a PSN and is not acknowledged (R251, R257, R259). -/
structure SentPkt where
  psn : Nat
  op : Nat
  /-- the work request's serial; 0 for a block verb -/
  wr : Nat
  off : Nat
  len : Nat
  first : Bool
  last : Bool
  resume : Nat
  block : Option BlockJob
  acked : Bool
  /-- to be sent again -/
  due : Bool
  /-- DTIME of its last retransmission by R259 -/
  retxAt : Option Nat
deriving DecidableEq, Repr

/-- A READ response that is being served (R254). -/
structure Serve where
  psn : Nat
  ext : Nat
  off : Nat
  len : Nat
  next : Nat
deriving DecidableEq, Repr

/-- A packet whose payload is being read from host memory. -/
structure TxJob where
  serial : Nat
  pkt : SentPkt
  /-- a READ_RSP: the extended PSN of its request -/
  rsp : Option Nat
  hods : List Nat
  port : Nat
  cls : Nat
  retx : Bool
  /-- as of Pkt -/
  turn : Nat
deriving DecidableEq, Repr

/-- A received packet of a connection: its header fields and where its payload lies (R243 to R245). -/
structure LrdPkt where
  op : Nat
  flags : Nat
  pad : Nat
  dstGen : Nat
  dstConn : Nat
  srcGen : Nat
  srcConn : Nat
  psn : Nat
  stamp : Nat
  /-- the extension header, as words -/
  ext : List Nat
  /-- payload offset and length in the packet -/
  at_ : Nat
  len : Nat
  /-- DTIME[31:0] at its arrival -/
  arrived : Nat
  pkt : Pkt
deriving DecidableEq, Repr

/-- A sequenced packet between its check and its marking (R252, R253): 0 in its cipher tile, 1 at the receive leaf, 2 executing. -/
structure Exec where
  psn : Nat
  phase : Nat
  p : LrdPkt
deriving DecidableEq, Repr

/-- A SEND message being received (R254). -/
structure RxMsg where
  ssn : Nat
  len : Nat
  got : Nat
  last : Option Nat
deriving DecidableEq, Repr

/-- An ACK or NAK that is owed (R255, R261). -/
structure Owed where
  /-- 0: an ACK -/
  code : Nat
  psn : Nat
  echo : Nat
  arrived : Nat
deriving DecidableEq, Repr

/-- One live connection: its context, wherever it lives, and its map entry (R238, R273 to R275). -/
structure Conn where
  cfg : ConnCfg
  /-- key of the owning function; none: the storage domain -/
  owner : Option Nat
  /-- the key slot of ENC -/
  key : Option Nat
  /-- 0 READY, 1 DRAINING, 2 ERROR -/
  state : Nat
  cause : Nat
  winBase : Nat
  winSize : Nat
  wkey : Nat
  remoteWrite : Bool
  remoteRead : Bool
  una : Nat
  nxt : Nat
  /-- wraps of the PSN space since INIT_SEND_PSN, and on the receiving side since INIT_RECV_PSN (R347) -/
  sendWraps : Nat
  recvWraps : Nat
  sent : List SentPkt
  /-- READ_REQs to send again that are already acknowledged (R258) -/
  resend : List SentPkt
  sq : List LrdWr
  wrSerial : Nat
  ssn : Nat
  blocks : List BlockJob
  serves : List Serve
  jobs : List TxJob
  jobSerial : Nat
  base : Nat
  executed : List Nat
  inflight : List Nat
  exec : List Exec
  heldReads : List LrdPkt
  inbox : List LrdPkt
  /-- posted RQ buffers not yet consumed, the ring index of the first, and E of R254 -/
  rq : List RxBuf
  rqHead : Nat
  expect : Nat
  msgs : List RxMsg
  owed : List Owed
  /-- executions since the last ACK, the newest of them, and when the first of them happened -/
  execUnacked : Nat
  lastExec : Option Owed
  firstUnacked : Nat
  probe : Bool
  probed : Bool
  srtt : Nat
  rttvar : Nat
  rto : Nat
  sampled : Bool
  backoff : Nat
  timeouts : Nat
  /-- PSN that RNR holds new transmission at, and RNR NAKs in a row for it -/
  rnrHold : Option Nat
  rnrPsn : Nat
  rnrCount : Nat
  rate : Nat
  baseRtt : Nat
  nextBase : Nat
  samples : Nat
  lastAdj : Nat
  folded : Nat
  credit : Credit
  resident : Bool
  slot : Nat
  pinned : Bool
  refBit : Bool
  /-- a fetch is outstanding; it waits for a victim; a pin applies when it ends -/
  fetching : Bool
  noVictim : Bool
  pinDue : Bool
  evicting : Bool
  hostHome : Bool
  homeSlot : Nat
  /-- IMAGE_VERSION -/
  version : Nat
  imageBad : Bool
  /-- cloakroom chain -/
  chain : List Pkt
  statSent : Nat
  statRetx : Nat
  statExec : Nat
  statDup : Nat
deriving DecidableEq, Repr

/-- An entry of the path table (R290). -/
structure PathEntry where
  lock : Bool
  v6 : Bool
  samples : Nat
  baseRtt : Nat
  initRate : Nat
  /-- the /24 or /64 -/
  prefix_ : List Byte
deriving DecidableEq, Repr

/-- XPORT_CONFIG (R270). -/
structure XportCfg where
  udpPort : Nat
  rtoMax : Nat
  retryLimit : Nat
  rnrRetry : Nat
  rnrTimer : Nat
  ackDelay : Nat
  ackEvery : Nat
  margin : Nat
  defaultRtt : Nat
  initDiv : Nat
  nakLimit : Nat
deriving DecidableEq, Repr

/-- The XPORT and CTX blocks. -/
structure Ctx where
  /-- live connections by domain × 2^24 + number -/
  conns : Tbl Conn
  cfg : XportCfg
  /-- the recent list, oldest first: connection key and generation (R239) -/
  recent : List (Nat × Nat)
  /-- NAKs sent by pipeline in a millisecond: the millisecond and the count -/
  naks : Tbl (Nat × Nat)
  /-- BASE and SIZE of each host's backing memory; size 0: none -/
  backing : Vector (Nat × Nat) 8
  /-- the clock hand of R279 -/
  hand : Nat
  pathSeed : Nat
  /-- path entries by set × 4 + way -/
  paths : Tbl PathEntry
deriving DecidableEq, Repr

/-- XPORT_CONFIG's reset values (R270). -/
def XportCfg.reset : XportCfg where
  udpPort := 20100
  rtoMax := 8000
  retryLimit := 7
  rnrRetry := 7
  rnrTimer := 50
  ackDelay := 2000
  ackEvery := 4
  margin := 3000
  defaultRtt := 12000
  initDiv := 8
  nakLimit := 1000

/-- No connection, an empty path table (R294). -/
def Ctx.reset : Ctx where
  conns := []
  cfg := XportCfg.reset
  recent := []
  naks := []
  backing := Vector.replicate 8 (0, 0)
  hand := 0
  pathSeed := 0
  paths := []

end Sys2Proof.Machine
end

