-- ==== Sys2Proof/Machine/State/Nv.lean ====
section
/-! DEFINITION. State/Nv.lean: what survives every reset: the protected store and the fuses (R10). -/

namespace Sys2Proof.Machine
open Sys2Proof

/-- A SANITIZE that PARK with FORCE interrupted (R80): a drive or a namespace, the method, and the namespace's key slot. -/
structure SanitizeRec where
  drive : Bool
  object : Nat
  method : Nat
  slot : Option Nat
deriving DecidableEq, Repr

/-- The protected store and the fuses. -/
structure Nv where
  /-- OWNER_PATH_SET: the host link of the VDM path, none by reset value (R57) -/
  ownerVdm : Option HostId
  eventsToVdm : Bool
  /-- maintenance on next boot (R27) -/
  maintFlag : Bool
  /-- each group's layout record: eight ETH_PORT_CFG words (R122) -/
  layouts : Vector (Option (List Word)) 8
  /-- the repair record, and how many entries of the fuse bank are burned (R459, R460) -/
  repairs : List RepairEntry
  fusesBurned : Nat
  /-- the tests and slices of later PARKs (R450), and where the next DRAM slice starts -/
  planTests : Nat
  sliceWarm : Nat
  sliceOff : Nat
  sliceAt : Nat
  park : ParkInfo
  bootCount : Nat
  /-- the stored carve record (R404) -/
  carve : Option Carve
  /-- sealed copies of persistent slots, and of the owner's import key (R336, R337, R341) -/
  sealed : Tbl KeySlot
  sealedIkek : Option (List Byte)
  sanitizes : List SanitizeRec
  /-- the boot flash, slot A from 0 and slot B from 0x200_0000 on; an erased byte reads 0xFF (R423) -/
  flash : Mem
  attempts : Vector Nat 2
  /-- the minimum security version (R432) -/
  minVersion : Nat
  /-- the fuses of the four signing key indices (R433): digests, provisioned and revoked bits -/
  keyDigests : Vector (List Byte) 4
  provisioned : Nat
  revoked : Nat
  /-- the lifecycle fuses: 1 PRODUCTION (R472) -/
  lifecycle : Nat
  /-- training records by channel: the RDIMM's serial number and the data rate code (R419) -/
  training : Vector (Option (Nat × Nat)) 12
  /-- THERMTRIPS (R498) -/
  thermTrips : Nat
deriving DecidableEq, Repr

/-- The protected store as it leaves the factory. (DESIGN CHOICE, log 11) -/
def Nv.reset : Nv where
  ownerVdm := none
  eventsToVdm := false
  maintFlag := false
  layouts := Vector.replicate 8 none
  repairs := []
  fusesBurned := 0
  planTests := 0x3FFF
  sliceWarm := 32
  sliceOff := 96
  sliceAt := 0
  park := ParkInfo.reset
  bootCount := 0
  carve := none
  sealed := []
  sealedIkek := none
  sanitizes := []
  flash := []
  attempts := Vector.replicate 2 0
  minVersion := 0
  keyDigests := Vector.replicate 4 (List.replicate 48 0)
  provisioned := 3
  revoked := 0
  lifecycle := 1
  training := Vector.replicate 12 none
  thermTrips := 0

end Sys2Proof.Machine
end

