-- ==== Sys2Proof/Machine/State/Nvme.lean ====
section
/-! DEFINITION. State/Nvme.lean: the NVMe controllers, namespaces, the write cache, drives and remote targets (chapter 12). -/

namespace Sys2Proof.Machine
open Sys2Proof

/-- One extent of a namespace (R303), with what was recorded of its drive when it was set (R322). -/
structure Extent where
  remote : Bool
  place : Nat
  nsid : Nat
  start : Nat
  units : Nat
  absent : Bool
  serial : List Byte
  nguid : List Byte
deriving DecidableEq, Repr

/-- A namespace (R302, R305). -/
structure Namespace where
  host : Nat
  /-- bytes of a block: 512 or 4,096 -/
  block : Nat
  size : Nat
  key : Option Nat
  extents : List Extent
  /-- the controller it is attached to, and its NSID there -/
  attached : Option (Nat × Nat)
  /-- a format (1) or sanitize (2) runs -/
  busy : Nat
  /-- the advertised atomic unit in bytes -/
  atomic : Nat
deriving DecidableEq, Repr

/-- A cache segment (R310 to R312): the ciphertext of its dirty blocks by LBA. -/
structure Segment where
  id : Nat
  ns : Nat
  unit : Nat
  host : Nat
  blocks : Tbl (List Byte)
  frozen : Bool
  /-- its backing write has been issued with FUA -/
  fua : Bool
  failed : Bool
  held : Bool
  retried : Bool
  /-- a remote destage timed out; it waits to be retried (R324) -/
  retryDue : Bool
deriving DecidableEq, Repr

/-- Where a command of a controller stands. -/
inductive CmdPhase where
  /-- a write that waits for cache space (R311) -/
  | space
  /-- a write whose data is being read -/
  | data
  /-- a read that waits for its backing -/
  | backing
  /-- waits for segments to be destaged (FUA, Flush) -/
  | destage
  /-- waits for its backings to be flushed -/
  | flush
  /-- an Asynchronous Event Request -/
  | event
  /-- a Format NVM in its steps -/
  | format
deriving DecidableEq, Repr

/-- An outstanding command of a controller. -/
structure NvmeCmd where
  sq : Nat
  cid : Nat
  op : Nat
  ns : Nat
  slba : Nat
  blocks : Nat
  pages : List Nat
  fua : Bool
  phase : CmdPhase
  /-- segments it waits for -/
  segs : List Nat
  /-- drive flushes and remote flushes it waits for: port, or 16 + target -/
  backings : List Nat
  /-- the read's blocks that the cache holds, as they were when it was taken -/
  cached : Tbl (List Byte)
  /-- it met a FAILED segment, or held data (R314) -/
  sawFailed : Bool
  sawHeld : Bool
  /-- a remote flush has been retried (R324) -/
  retried : Bool
deriving DecidableEq, Repr

/-- An NVMe submission queue. -/
structure NvmeSq where
  size : Nat
  base : Nat
  cq : Nat
  prio : Nat
  head : Nat
  tail : Nat
deriving DecidableEq, Repr

/-- An NVMe completion queue. -/
structure NvmeCq where
  size : Nat
  base : Nat
  ien : Bool
  iv : Nat
  head : Nat
  tail : Nat
  phase : Bool
  /-- completions that wait for room -/
  late : List (Nat × Nat × Nat × Nat)
deriving DecidableEq, Repr

/-- A device self-test (R327). -/
structure SelfTest where
  code : Nat
  nsid : Nat
  steps : Nat
  startedAt : Nat
deriving DecidableEq, Repr

/-- An NVMe controller: PF1, or a VF of PF1 (R297 to R300). -/
structure Ctrl where
  /-- CC -/
  cc : Nat
  ready : Bool
  /-- CSTS.CFS and CSTS.SHST -/
  fatal : Bool
  shst : Nat
  aqa : Nat
  asq : Nat
  acq : Nat
  /-- INTMS -/
  mask : Nat
  sqs : Tbl NvmeSq
  cqs : Tbl NvmeCq
  /-- Set Features values by feature identifier -/
  features : Tbl Nat
  cmds : List NvmeCmd
  /-- asynchronous events not yet reported: result words -/
  events : List Nat
  changed : List Nat
  /-- Error Information entries, newest first: sq, cid, status, lba, nsid -/
  errors : List (List Nat)
  errorCount : Nat
  readUnits : Nat
  writeUnits : Nat
  readCmds : Nat
  writeCmds : Nat
  mediaErrors : Nat
  selfTest : Option SelfTest
  /-- results of the Device Self-test log, newest first: code, result, segment, NSID, LBA -/
  testLog : List (List Nat)
  /-- the SQ whose burst runs, commands left in it, and the weighted credits of high, medium and low -/
  arbSq : Nat
  arbLeft : Nat
  arbCredits : List Nat
  /-- the SQ served last: of all or of the urgent ones, of high, medium and low -/
  arbCursors : List Nat
  /-- asynchronous event types reported whose log page has not been read -/
  aerMasked : List Nat
deriving DecidableEq, Repr

/-- A command outstanding at a drive. -/
structure DriveCmd where
  cid : Nat
  /-- 1 read, 2 destage, 3 flush, 4 format, 5 sanitize, 6 deallocate, 7 gap fill -/
  kind : Nat
  seg : Nat
  /-- the controller and command it serves -/
  ctrl : Nat
  sq : Nat
  cmd : Nat
  aborted : Bool
deriving DecidableEq, Repr

/-- A drive port (R320). -/
structure Drive where
  /-- 0 ABSENT, 1 LINK_TRAINING, 2 INITIALISING, 3 READY, 4 FAILED -/
  state : Nat
  present : Bool
  linkUp : Bool
  speed : Nat
  width : Nat
  button : Bool
  led : Bool
  identity : Option DriveIdentity
  /-- the instant of its last controller reset, in ns -/
  resetAt : Option Nat
  cmds : List DriveCmd
  nextCid : Nat
  /-- lanes lost to faults in service (R463) -/
  lostLanes : List Nat
deriving DecidableEq, Repr

/-- A block command outstanding at a remote target (R267, R324). -/
structure RemoteCmd where
  tag : Nat
  /-- 1 read, 2 destage, 3 flush, 4 gap fill -/
  kind : Nat
  seg : Nat
  ctrl : Nat
  sq : Nat
  cmd : Nat
  /-- first block of the namespace, and blocks -/
  lba : Nat
  blocks : Nat
  /-- read data by block offset -/
  got : Tbl (List Byte)
  status : Option Nat
  timedOut : Bool
deriving DecidableEq, Repr

/-- A remote target (R323). -/
structure Target where
  conn : Nat
  port : Nat
  atomic : Nat
  timeout : Nat
  maxOut : Nat
  nextTag : Nat
  cmds : List RemoteCmd
  /-- commands beyond MAX_OUT, with their packets -/
  waiting : List (RemoteCmd × List BlockJob)
deriving DecidableEq, Repr

/-- A block verb that a storage connection has executed and the farm has not yet taken: connection, opcode, tag, word and payload. -/
structure BlockIn where
  conn : Nat
  op : Nat
  tag : Nat
  word : Nat
  payload : List Byte
deriving DecidableEq, Repr

/-- A flush of the cache by CACHE_FLUSH or a shutdown (R300, R314): the segments it waits for, then its backings: port, or 16 + target. -/
structure FlushJob where
  spaces : List Nat
  segs : List Nat
  backings : List Nat
  flushing : Bool
  sawFailed : Bool
  sawHeld : Bool
  /-- a backing was reset, or a target answered nothing twice -/
  transient : Bool
  /-- a remote flush has been retried (R324) -/
  retried : Bool
deriving DecidableEq, Repr

/-- The NVME block. -/
structure Nvme where
  /-- by namespace number -/
  namespaces : Tbl Namespace
  /-- controllers by function key; one not listed is at reset -/
  ctrls : Tbl Ctrl
  /-- oldest first -/
  segs : List Segment
  segSerial : Nat
  drives : Vector Drive 16
  targets : Tbl Target
  blockIn : List BlockIn
  /-- by the handle of a CACHE_FLUSH, or 2^32 + the key of a controller that shuts down -/
  flushes : Tbl FlushJob
  /-- storage deficits by host, and the host served last (R309) -/
  deficits : Vector Int 8
  arbHost : Nat
  /-- the controller of each host served last -/
  arbCtrl : Vector Nat 8
deriving DecidableEq, Repr

/-- A controller after its reset. -/
def Ctrl.reset : Ctrl where
  cc := 0
  ready := false
  fatal := false
  shst := 0
  aqa := 0
  asq := 0
  acq := 0
  mask := 0
  sqs := []
  cqs := []
  features := []
  cmds := []
  events := []
  changed := []
  errors := []
  errorCount := 0
  readUnits := 0
  writeUnits := 0
  readCmds := 0
  writeCmds := 0
  mediaErrors := 0
  selfTest := none
  testLog := []
  arbSq := 0
  arbLeft := 0
  arbCredits := [0, 0, 0]
  arbCursors := [0, 0, 0, 0]
  aerMasked := []

/-- A drive port with nothing in it. -/
def Drive.absent : Drive where
  state := 0
  present := false
  linkUp := false
  speed := 0
  width := 0
  button := false
  led := false
  identity := none
  resetAt := none
  cmds := []
  nextCid := 0
  lostLanes := []

/-- NVME after reset: no namespace, an empty cache, no drive. -/
def Nvme.reset : Nvme where
  namespaces := []
  ctrls := []
  segs := []
  segSerial := 0
  drives := Vector.replicate 16 Drive.absent
  targets := []
  blockIn := []
  flushes := []
  deficits := Vector.replicate 8 0
  arbHost := 0
  arbCtrl := Vector.replicate 8 0

end Sys2Proof.Machine
end

