-- ==== Sys2Proof/Machine/State/Sec.lean ====
section
/-! DEFINITION. State/Sec.lean: measurements, the running image, the staging buffer, the recovery intake, the SPDM responders and the Klobunel monitor (chapters 16 and 18). -/

namespace Sys2Proof.Machine
open Sys2Proof

/-- The PF2 registers of one link's recovery window, or the monitor's (R441, R478). -/
structure RecPort where
  slot : Nat
  offset : Nat
  len : Nat
  /-- the data window; what nothing has written reads 0 -/
  window : Mem
  chunkDone : Bool
  installDone : Bool
  error : Bool
  code : Nat
  intx : Nat
deriving DecidableEq, Repr

/-- The recovery intake (R440): who uses it is a link number, or 8 for the monitor. -/
structure Intake where
  claim : Option Nat
  /-- HLINK_REC_STATUS.STATE of the claimant: 0 IDLE, 1 CLAIMED, 2 COPYING, 3 VERIFYING, 4 PROGRAMMING, 5 DONE -/
  phase : Nat
  /-- who started the copy or the install in progress, and the slot of the install -/
  worker : Nat
  slot : Nat
  /-- the 24 MiB buffer; bytes never staged read 0xFF -/
  buf : Mem
  ports : Vector RecPort 9
deriving DecidableEq, Repr

/-- One SPDM responder instance (R444): how far its connection is negotiated, and its transcripts. -/
structure Spdm where
  /-- 0 nothing, 1 version, 2 capabilities, 3 algorithms -/
  stage : Nat
  version : Nat
  /-- messages since GET_VERSION that a CHALLENGE signature covers -/
  transcript : List Byte
  /-- messages that a GET_MEASUREMENTS signature covers -/
  measured : List Byte
  /-- the messages of the negotiation alone -/
  vca : List Byte
deriving DecidableEq, Repr

/-- SEC: what the ROM and management firmware found and hold (R421 to R447). -/
structure Sec where
  mrs : Vector (List Byte) 16
  extends_ : Vector Nat 16
  /-- the running image -/
  slot : Nat
  keyIndex : Nat
  version : Nat
  sequence : Nat
  seqTie : Bool
  recovery : Bool
  /-- reasons and attempt counters as SEC_BOOT_STATUS shows them -/
  reasons : Vector Nat 2
  attempts : Vector Nat 2
  /-- the reason of the last check of each slot (R438) -/
  info : Vector Nat 2
  /-- the owner's staging buffer and the slot it is bound to (R436); bytes never staged read 0xFF -/
  stage : Mem
  stageSlot : Option Nat
  intake : Intake
  spdm : Vector Spdm 9
deriving DecidableEq, Repr

/-- A debug session of the monitor (R472 to R474). -/
structure Session where
  grant : Nat
  keyIndex : Nat
  /-- DTIME in ns at which it ends -/
  endsAt : Nat
deriving DecidableEq, Repr

/-- The Klobunel monitor (R468 to R478). -/
structure Klb where
  baud : Nat
  /-- the latest nonce that is not spent, and when it was issued, in ns -/
  nonce : Option (List Byte × Nat)
  /-- the record as loaded; what nothing has loaded reads 0 -/
  record : Mem
  session : Option Session
deriving DecidableEq, Repr

/-- A recovery window after reset. -/
def RecPort.reset : RecPort where
  slot := 0
  offset := 0
  len := 0
  window := []
  chunkDone := false
  installDone := false
  error := false
  code := 0
  intx := 0

/-- An unclaimed intake. -/
def Intake.reset : Intake where
  claim := none
  phase := 0
  worker := 0
  slot := 0
  buf := []
  ports := Vector.replicate 9 RecPort.reset

/-- A responder before GET_VERSION. -/
def Spdm.reset : Spdm where
  stage := 0
  version := 0
  transcript := []
  measured := []
  vca := []

/-- SEC as every entry to BOOT leaves it (R422, R436). (DESIGN CHOICE, log 10) -/
def Sec.reset : Sec where
  mrs := Vector.replicate 16 (List.replicate 48 0)
  extends_ := Vector.replicate 16 0
  slot := 0
  keyIndex := 0
  version := 0
  sequence := 0
  seqTie := false
  recovery := false
  reasons := Vector.replicate 2 0
  attempts := Vector.replicate 2 0
  info := Vector.replicate 2 0
  stage := []
  stageSlot := none
  intake := Intake.reset
  spdm := Vector.replicate 9 Spdm.reset

/-- The monitor after reset (R468). -/
def Klb.reset : Klb where
  baud := 115200
  nonce := none
  record := []
  session := none

end Sys2Proof.Machine
end

