-- ==== Sys2Proof/Machine/State.lean ====
section
/-! DEFINITION. State.lean: the whole state of the block, its state after reset, and the reasons a step can stop. -/

namespace Sys2Proof.Machine
open Sys2Proof

/-- Why a command stops the machine with a fault: there is no such command in this block. -/
inductive Fault where
  /-- raised by no meaning: the spec names no fault that stops the device; safe -/
  | none
deriving DecidableEq, Repr

/-- Why a command has no meaning. -/
inductive Refusal where
  /-- raised by an arm of exec whose command has no meaning yet; safe -/
  | notModelled (mnemonic : String)
  /-- raised by a command that is one of the undefined cases of R499; the rule number; safe -/
  | undefinedCase (rule : Nat)
deriving DecidableEq, Repr

/-- The state of the 8256. -/
structure State where
  /-- the commands that wait, first in, first out -/
  pending : List Instr
  /-- commands held by FENCE (R65) with their channels, in the order they were received -/
  fenced : List (Chan × Instr)
  /-- what the block has sent out, newest first: the model's own record -/
  out : List Out
  /-- free values drawn so far: the model's own counter -/
  drawn : Nat
  /-- time since power-on in 2 ns common periods (R17): the model's own clock -/
  now : Nat
  /-- DTIME in 2^-32 ns (R131) -/
  dtime : Nat
  nv : Nv
  clk : Clk
  glb : Glb
  epochs : Epochs
  owner : Owner
  /-- ring channels by channel number -/
  rings : Tbl Ring
  ops : List LongOp
  hosts : Vector HostLink 8
  fns : Tbl FnState
  queues : Tbl Queue
  eth : Eth
  parse : Parse
  cls : Cls
  tables : Tables
  hod : Hods
  sched : Sched
  net : Net
  ctx : Ctx
  nvme : Nvme
  crypt : Crypt
  cores : Cores
  dram : Dram
  sec : Sec
  klb : Klb
  elec : Elec
  degr : Degr
  bist : Bist
  /-- the DRAM carve in force -/
  carve : Carve
  violations : Violations
  /-- 64-bit counters by block, link and index; a counter at 0 is not listed -/
  counters : Tbl Nat
  /-- registers with no state of their own elsewhere, as last written, by address -/
  regs : Tbl Word
deriving DecidableEq, Repr

/-- CLK after reset (R20). (DESIGN CHOICE, log 13) -/
def Clk.reset : Clk where
  rootLock := false
  refPresent := false
  holdover := false
  refReturned := false
  holdoverCount := 0
  ethRef := true
  hostRefs := Vector.replicate 8 true

/-- GLB after power-on (R33). -/
def Glb.reset : Glb where
  powered := true
  mode := .boot
  prev := none
  cause := .powerOn
  degradedPending := false
  modeSeq := 0
  stage := .inReset
  fwRuns := false
  quiesceFrom := .service
  drainComplete := false
  autoNext := none
  parkDue := none
  straps := 0

/-- A recoat unit that is not armed. -/
def UnitState.idle : UnitState where
  phase := .idle
  target := none
  handle := none
  held := []
  copying := false
  defaultsDue := false

/-- The epoch block after reset: epoch 0, length 0x30D4 (R35, R36). -/
def Epochs.reset : Epochs where
  epoch := 0
  len := 0x30D4
  lenNow := 0x30D4
  cutoffDone := false
  dtimeAt := 0
  units := Vector.replicate 32 UnitState.idle
  latch := []

/-- The owner channel after reset (R81 to R83). -/
def Owner.reset : Owner where
  seq := 0
  mask := 0
  held := []
  unreported := 0
  spoken := false
  smbusEid := 0
  vdmEid := 0

/-- A command window after reset. -/
def Ring.reset : Ring where
  sqBase := 0
  rqBase := 0
  eqBase := 0
  sqCfg := 0
  rqCfg := 0
  eqCfg := 0
  sqTail := 0
  sqHead := 0
  rqHead := 0
  rqTail := 0
  eqHead := 0
  eqTail := 0
  eventVec := 0
  replyVec := 0
  eventEnable := false
  enable := false
  running := false
  fault := false
  vecErr := false
  cfgErr := false
  oversize := false
  eventsLost := 0
  unreported := 0
  rqPhase := true
  eqPhase := true
  seq := 0
  mask := 0

/-- A host link after reset: down, with 256 VFs for each of PF0 and PF1 staged (R91). -/
def HostLink.reset : HostLink where
  recoveryCount := 0
  width := 0
  speed := 0
  state := 0
  retraining := false
  flit := false
  perst := false
  dlUp := false
  staged0 := 256
  staged1 := 256
  t0 := 256
  t1 := 256
  unexpectedCpl := 0
  cplTimeouts := 0
  intxStatus := 0
  intxEnable := 0
  inta := false
  pf1Int := false
  pf2Int := false
  reads := []
  readsDue := []
  attachDue := none
  violationsFrom := 0
  lostLanes := []
  failsDue := []
  flrOnly := false

/-- A function after its reset. (PRESUMED, log 29) -/
def FnState.reset : FnState where
  bme := false
  mse := false
  intxDisable := false
  msixEnable := false
  msixMask := false
  unmasked := []
  pendingVecs := []
  heldVecs := []
  d3 := false
  cto := 0
  tags10 := false
  tags14 := false
  mps := 0
  mrrs := 2
  relaxed := true
  vfEnable := false
  numVfs := 0
  cfg := []
  msixTable := []
  aer := []

/-- The machine right after power-on. (DESIGN CHOICE, log 10) -/
def State.reset : State where
  pending := []
  fenced := []
  out := []
  drawn := 0
  now := 0
  dtime := 0
  nv := Nv.reset
  clk := Clk.reset
  glb := Glb.reset
  epochs := Epochs.reset
  owner := Owner.reset
  rings := []
  ops := []
  hosts := Vector.replicate 8 HostLink.reset
  fns := []
  queues := []
  eth := Eth.reset
  parse := Parse.reset
  cls := { banks := ⟨ClassBank.reset, ClassBank.reset, ClassBank.reset⟩, topBank := false }
  tables := Tables.reset
  hod := Hods.reset
  sched := Sched.reset
  net := Net.reset
  ctx := Ctx.reset
  nvme := Nvme.reset
  crypt := Crypt.reset
  cores := Cores.reset
  dram := Dram.reset
  sec := Sec.reset
  klb := Klb.reset
  elec := Elec.reset
  degr := { entries := [] }
  bist := Bist.reset
  carve := Carve.reset
  violations := { seq := 0, log := [], lastEvent := [] }
  counters := []
  regs := []

end Sys2Proof.Machine
end

