-- ==== Sys2Proof/Machine/Ops.lean ====
section
/-! DEFINITION. Ops.lean: the shared operations over the state: outputs, free values, counters, functions and queues, interrupts, events, violation records and the end of long operations. -/

namespace Sys2Proof

/-- Channel numbers (R55). -/
def RingChan.number (c : RingChan) : Nat :=
  match c.vf with
  | none => 0x4000 + c.link.val * 0x400
  | some v => 0x8000 + c.link.val * 0x400 + v.val

/-- Channel numbers (R55). -/
def Chan.number : Chan → Nat
  | .owner => 0
  | .ring c => c.number

/-- The function whose memory a ring channel lives in (R55). -/
def RingChan.fn (c : RingChan) : Fn :=
  match c.vf with
  | none => .pf0
  | some v => .vf v

/-- f of R506: 0 to 2 for the PFs, 3 + v for VF v. -/
def Fn.index : Fn → Nat
  | .pf0 => 0 | .pf1 => 1 | .pf2 => 2 | .vf v => 3 + v.val

end Sys2Proof

namespace Sys2Proof.Machine
open Sys2Proof

/-! Codes -/

/-- Mode codes 0x1 to 0x6. -/
def Mode.code : Mode → Nat
  | .boot => 1 | .service => 2 | .degraded => 3 | .maintenance => 4 | .quiesce => 5 | .park => 6

/-- Cause codes (R34). -/
def Cause.code : Cause → Nat
  | .powerOn => 0x01 | .pinReset => 0x02 | .ownerReset => 0x03 | .refLoss => 0x04 | .bootDone => 0x10 | .unitLost => 0x11
  | .belowFloor => 0x12 | .noValidImage => 0x13 | .maintFlag => 0x14 | .ownerCommand => 0x20 | .parkDoneWarm => 0x21 | .parkForced => 0x22

/-- A unit's bit in GLB_RECOAT (R39). -/
def unitBit : RUnit → Fin 32
  | .parse => 0 | .cls => 1 | .schedTop => 2 | .hostShare => 3 | .quota => 4
  | .spread h => ⟨8 + 3 * h.val, by omega⟩
  | .schedHost h => ⟨9 + 3 * h.val, by omega⟩
  | .vfQuota h => ⟨10 + 3 * h.val, by omega⟩

/-- The TARGET value that names a function (R65). -/
def targetOf (h : HostId) : Fn → Nat
  | .pf0 => 0xC000 + h.val * 0x400
  | .pf1 => 0xC001 + h.val * 0x400
  | .pf2 => 0xC002 + h.val * 0x400
  | .vf v => 0x8000 + h.val * 0x400 + v.val

/-- The key of a function in State.fns. -/
def fnKey (h : HostId) (f : Fn) : Nat := h.val * 1024 + f.index
/-- The key of a queue in State.queues. -/
def qKey (h : HostId) (f : Fn) (q : Nat) : Nat := fnKey h f * 65536 + q
/-- The key of a connection. -/
def connKey (d : Domain) (n : Nat) : Nat := d.val * 0x1000000 + n

/-! Outputs and free values -/

/-- The block sends something out. (DESIGN CHOICE, log 6) -/
def emit (o : Out) (s : State) : State := { s with out := o :: s.out }

/-- The next free value; drawing it advances the counter. (DESIGN CHOICE, log 5) -/
def freshNat (s : State) : Nat := Config.freeNat s.drawn
/-- The counter advanced past a drawn value. (DESIGN CHOICE, log 5) -/
def drawn1 (s : State) : State := { s with drawn := s.drawn + 1 }

/-- The first index that a test accepts, searched from a start and then from 0. (DESIGN CHOICE, log 5) -/
def pickFrom (start n : Nat) (p : Nat → Bool) : Option Nat :=
  match firstFree p (start % n) (n - start % n) with
  | some i => some i
  | none => firstFree p 0 (start % n)

/-! Time -/

/-- Nanoseconds since power-on, from the 2 ns common period. (DESIGN CHOICE, log 7) -/
def nowNs (s : State) : Nat := 2 * s.now
/-- DTIME in ns (R131). -/
def dtimeNs (s : State) : Nat := s.dtime / 2 ^ 32 % 2 ^ 64

/-! Counters (R505 to R507) -/

/-- The key of a counter. -/
def ctrKey (block link index : Nat) : Nat := block * 2 ^ 32 + link * 2 ^ 28 + index

/-- A counter's value. -/
def counter (s : State) (block link index : Nat) : Nat := Tbl.getD s.counters (ctrKey block link index) 0

/-- A table of counters with one set; a counter at 0 is not listed. -/
def ctrPut (t : Tbl Nat) (k v : Nat) : Tbl Nat := if v % 2 ^ 64 = 0 then Tbl.del t k else Tbl.put t k (v % 2 ^ 64)

/-- A counter set. -/
def setCounter (block link index v : Nat) (s : State) : State :=
  { s with counters := ctrPut s.counters (ctrKey block link index) v }

/-- A counter advanced; counters are 64 bits and wrap. -/
def count (block link index k : Nat) (s : State) : State := setCounter block link index (counter s block link index + k) s

/-- A host link's counter of a function (R506). -/
def countFn (h : HostId) (f : Fn) (index : Nat) (s : State) : State := count 0x01 h.val (16 * f.index + index) 1 s

/-! Host links, functions, queues -/

/-- A host link. -/
def link (s : State) (h : HostId) : HostLink := s.hosts[h]
/-- A host link changed. -/
def modLink (h : HostId) (f : HostLink → HostLink) (s : State) : State := { s with hosts := vmod s.hosts h f }
/-- A function's registers. -/
def fnOf (s : State) (h : HostId) (f : Fn) : FnState := Tbl.getD s.fns (fnKey h f) FnState.reset
/-- A function's registers changed. -/
def modFn (h : HostId) (f : Fn) (g : FnState → FnState) (s : State) : State :=
  { s with fns := Tbl.put s.fns (fnKey h f) (g (fnOf s h f)) }
/-- A host link's functions answer: it is attached. -/
def linkUp (s : State) (h : HostId) : Bool := (link s h).state == 3
/-- The PF of a VF: its series is PF0's up to T0, then PF1's (R91). -/
def vfOnPf1 (s : State) (h : HostId) (v : Nat) : Bool := (link s h).t0 ≤ v
/-- A VF's number within its PF's series (R91). -/
def vfIndex (s : State) (h : HostId) (v : Nat) : Nat := if vfOnPf1 s h v then v - (link s h).t0 else v
/-- A VF is enabled (R91). -/
def vfEnabled (s : State) (h : HostId) (v : Nat) : Bool :=
  let pf := fnOf s h (if vfOnPf1 s h v then .pf1 else .pf0)
  let total := if vfOnPf1 s h v then (link s h).t1 else (link s h).t0
  pf.vfEnable && vfIndex s h v < min pf.numVfs total
/-- A function is present now (R67). -/
def present (s : State) (h : HostId) (f : Fn) : Bool :=
  linkUp s h && (match f with
    | .vf v => vfEnabled s h v.val
    | _ => true)
/-- A network function: PF0 or a VF of PF0. -/
def netFn (s : State) (h : HostId) (f : Fn) : Bool :=
  match f with
  | .pf0 => true
  | .vf v => !vfOnPf1 s h v.val
  | _ => false
/-- A storage function: PF1 or a VF of PF1. -/
def nvmeFn (s : State) (h : HostId) (f : Fn) : Bool :=
  match f with
  | .pf1 => true
  | .vf v => vfOnPf1 s h v.val
  | _ => false
/-- The functions that a PF stands for in a reset: itself and its VFs (R111). -/
def ownedBy (s : State) (h : HostId) (pf f : Fn) : Bool :=
  f == pf || (match pf, f with
    | .pf0, .vf v => !vfOnPf1 s h v.val
    | .pf1, .vf v => vfOnPf1 s h v.val
    | _, _ => false)
/-- The function of a key of State.fns. -/
def fnOfIndex (i : Nat) : Fn :=
  match i with
  | 0 => .pf0 | 1 => .pf1 | 2 => .pf2
  | n => .vf ⟨(n - 3) % 512, Nat.mod_lt _ (by decide)⟩
/-- The host link of a key of State.fns. -/
def hostOfKey (k : Nat) : HostId := ⟨k / 1024 % 8, Nat.mod_lt _ (by decide)⟩
/-- The MSI-X table size (R90). -/
def msixSize : Fn → Nat
  | .pf0 => 2048 | .pf1 => 2048 | .pf2 => 0 | .vf _ => 64

/-- A queue. -/
def queue (s : State) (h : HostId) (f : Fn) (q : Nat) : Option Queue := Tbl.find s.queues (qKey h f q)
/-- A queue, if it is live, changed. -/
def modQueue (h : HostId) (f : Fn) (q : Nat) (g : Queue → Queue) (s : State) : State :=
  { s with queues := Tbl.modify s.queues (qKey h f q) g }

/-! Interrupts (R95, R96) -/

/-- A PF drives the shared INTA wire. -/
def pfAsserts (fs : FnState) (request : Bool) : Bool := request && !fs.msixEnable && !fs.intxDisable

/-- The level of a link's INTA wire (R96). -/
def intaLevel (s : State) (h : HostId) : Bool :=
  pfAsserts (fnOf s h .pf0) ((link s h).intxStatus &&& (link s h).intxEnable != 0)
    || pfAsserts (fnOf s h .pf1) (link s h).pf1Int || pfAsserts (fnOf s h .pf2) (link s h).pf2Int

/-- Assert_INTA or Deassert_INTA is sent when the level changes (R96). -/
def refreshInta (h : HostId) (s : State) : State :=
  if intaLevel s h = (link s h).inta then s
  else emit (.intx h (intaLevel s h)) (modLink h (fun l => { l with inta := intaLevel s h }) s)

/-- A bit of HLINK_INTX_STATUS is set whatever MSI-X Enable is (R96). -/
def setIntx (h : HostId) (bit : Nat) (s : State) : State :=
  refreshInta h (modLink h (fun l => { l with intxStatus := l.intxStatus ||| 2 ^ bit }) s)

/-- A list of numbers with one put in. -/
def insertNat (l : List Nat) (a : Nat) : List Nat := if l.contains a then l else l ++ [a]

/-- A function's vector is due (R95): held without Bus Master Enable, pending while masked, else sent. -/
def signalVector (h : HostId) (f : Fn) (vec : Nat) (s : State) : State :=
  let fs := fnOf s h f
  if !fs.msixEnable then s
  else if !fs.bme then modFn h f (fun x => { x with heldVecs := insertNat x.heldVecs vec }) s
  else if fs.msixMask || !fs.unmasked.contains vec then modFn h f (fun x => { x with pendingVecs := insertNat x.pendingVecs vec }) s
  else emit (.msix h f vec) s

/-- A ring channel's vector is raised, its INTx source on PF0 set, and VEC_ERR set for a vector beyond the table (R64, R96). -/
def signalRing (c : RingChan) (vec intxBit : Nat) (s : State) : State :=
  let s1 := if c.vf.isNone then setIntx c.link intxBit s else s
  if vec < msixSize c.fn then signalVector c.link c.fn vec s1
  else { s1 with rings := Tbl.modify s1.rings c.number fun r => { r with vecErr := true } }

/-! Command rings -/

/-- A ring channel's registers. -/
def ring (s : State) (c : RingChan) : Ring := Tbl.getD s.rings c.number Ring.reset
/-- A ring channel's registers changed. -/
def modRing (c : RingChan) (f : Ring → Ring) (s : State) : State := { s with rings := Tbl.put s.rings c.number (f (ring s c)) }
/-- 2^LOG2_SIZE. -/
def ringSize (cfg : Nat) : Nat := 2 ^ cfg
/-- Entries in use between a head and a tail. -/
def ringUsed (cfg head tail : Nat) : Nat := (tail + ringSize cfg - head) % ringSize cfg
/-- A ring index advanced. -/
def ringNext (cfg i k : Nat) : Nat := (i + k) % ringSize cfg
/-- Free entries of the event ring; one entry stays unused to tell full from empty (R61, R63). -/
def eqFree (r : Ring) : Nat := ringSize r.eqCfg - 1 - ringUsed r.eqCfg r.eqHead r.eqTail
/-- The reply ring is full. -/
def rqFull (r : Ring) : Bool := ringUsed r.rqCfg r.rqHead r.rqTail + 1 ≥ ringSize r.rqCfg

/-! Events (R63, R81 to R83, R508) -/

/-- The record of an event, stamped with the mode, the epoch and DTIME. -/
def mkEvent (s : State) (type source tag seq : Nat) (phase : Bool) (payload : List Nat) : Event where
  type := type
  phase := phase
  mode := s.glb.mode.code
  seq := seq % 2 ^ 32
  epoch := s.epochs.epoch
  dtime := dtimeNs s
  source := source
  tag := tag
  payload := payload

/-- Types EVENT_MASK_SET cannot suppress: OP_DONE and EVENTS_LOST (R82). -/
def maskable (type : Nat) : Bool := type != 1 && type != 2

/-- An event for the owner: held in SEQ order up to 1,024 (R83). -/
def raiseOwner (type source tag : Nat) (payload : List Nat) (s : State) : State :=
  if !s.glb.fwRuns then s
  else if maskable type && bitAt s.owner.mask type then s
  else if s.owner.held.length < 1024 then
    { s with owner := { s.owner with seq := s.owner.seq + 1, held := s.owner.held ++ [mkEvent s type source tag s.owner.seq false payload] } }
  else { s with owner := { s.owner with seq := s.owner.seq + 1, unreported := s.owner.unreported + 1 } }

/-- An event record written to a ring channel's event ring, and EVENT_VEC raised (R63, R64). -/
def writeEvent (c : RingChan) (type source tag : Nat) (payload : List Nat) (s : State) : State :=
  let r := ring s c
  let s1 := emit (.event (.ring c) none (mkEvent s type source tag r.seq r.eqPhase payload)) s
  signalRing c r.eventVec 1 (modRing c (fun r => { r with
    seq := r.seq + 1
    eqTail := ringNext r.eqCfg r.eqTail 1
    eqPhase := if ringNext r.eqCfg r.eqTail 1 = 0 then !r.eqPhase else r.eqPhase }) s1)

/-- An event for a ring channel: written if the ring has more than its last free entry, else dropped and counted (R63). -/
def raiseRing (c : RingChan) (type source tag : Nat) (payload : List Nat) (s : State) : State :=
  let r := ring s c
  if !(r.enable && r.running && r.eventEnable) then s
  else if maskable type && bitAt r.mask type then s
  else if eqFree r ≤ 1 then modRing c (fun r => { r with seq := r.seq + 1, eventsLost := satAdd 0xFFFFFFFF r.eventsLost 1, unreported := r.unreported + 1 }) s
  else writeEvent c type source tag payload s

/-- An event raised on a channel. -/
def raise (c : Chan) (type source tag : Nat) (payload : List Nat) (s : State) : State :=
  match c with
  | .owner => raiseOwner type source tag payload s
  | .ring c => raiseRing c type source tag payload s

/-- The host channel of a link. -/
def hostChan (h : HostId) : RingChan := ⟨h, none⟩

/-- An event raised on every host channel. -/
def raiseHosts (type source tag : Nat) (payload : List Nat) (s : State) : State :=
  (List.finRange 8).foldl (fun s h => raiseRing (hostChan h) type source tag payload s) s

/-- MODE_CHANGE: to the owner always, to hosts into or out of QUIESCE and MAINTENANCE (R33, R82). -/
def raiseModeChange (old : Nat) (s : State) : State :=
  let pay := [old + s.glb.mode.code * 256 + s.glb.cause.code * 65536, s.glb.modeSeq.toNat]
  let s1 := raiseOwner 0x10 0 0 pay s
  if old = 4 ∨ old = 5 ∨ s.glb.mode = .maintenance ∨ s.glb.mode = .quiesce then raiseHosts 0x10 0 0 pay s1 else s1

/-! Mode transitions -/

/-- The instant a mode transition takes effect (R33). -/
def enterMode (m : Mode) (c : Cause) (s : State) : State :=
  raiseModeChange s.glb.mode.code { s with glb := { s.glb with
    mode := m, prev := some s.glb.mode, cause := c, modeSeq := s.glb.modeSeq + 1, drainComplete := false, autoNext := none
    quiesceFrom := if m = .quiesce then s.glb.mode else s.glb.quiesceFrom } }

/-! Violation records (R501 to R503) -/

/-- The host channel of the link a TARGET names. -/
def targetLink (target : Nat) : Option HostId :=
  if target / 0x4000 = 0 then none else some ⟨target / 0x400 % 8, Nat.mod_lt _ (by decide)⟩

/-- VIOLATION raised on a channel at most once per KIND per millisecond of DTIME (R503). -/
def raiseViolation (c : Chan) (kind word0 seq : Nat) (s : State) : State :=
  let k := c.number * 8 + kind
  let due := match Tbl.find s.violations.lastEvent k with
    | none => true
    | some t => t + 1000000 ≤ dtimeNs s
  if due then
    raise c 0xB0 0 0 [seq, word0] { s with violations := { s.violations with lastEvent := Tbl.put s.violations.lastEvent k (dtimeNs s) } }
  else s

/-- A violation record is written, counted and reported (R501 to R503, R506). -/
def logViolation (kind block target : Nat) (detail : List Nat) (s : State) : State :=
  let seq := s.violations.seq % 2 ^ 32
  let v : Violation := { kind := kind, block := block, target := target, seq := seq, epoch := s.epochs.epoch, dtime := dtimeNs s, detail := detail }
  let full := s.violations.log.length ≥ 4096
  let s1 := { s with violations := { s.violations with
    seq := s.violations.seq + 1, log := (if full then s.violations.log.drop 1 else s.violations.log) ++ [v] } }
  let s2 := count 0 0 8 1 (if full then count 0 0 9 1 s1 else s1)
  let word0 := kind + block * 256 + target * 65536
  let s3 := raiseViolation .owner kind word0 seq s2
  match targetLink target with
  | none => s3
  | some h =>
    let s4 := match target / 0x4000 with
      | 2 => count 0x01 h.val (16 * (3 + target % 512) + 5) 1 s3
      | 3 => count 0x01 h.val (16 * (target % 4) + 5) 1 s3
      | _ => s3
    raiseViolation (.ring (hostChan h)) kind word0 seq s4

/-! Status codes (R70) and long operations (R76 to R80) -/

/-- The status codes of R70. -/
inductive Status where
  | ok | inProgress | cancelled | badOpcode | badParam | noResource | notPermitted | badHandle | badLength | busy | hostMemoryFault
  | tableFullRehash | entryExists | entryAbsent | epochGrace | modeWrong | keyRefused | imageInvalid | versionRefused | mediaError
  | targetAbsent | contextLost | testFailed | internalFault
deriving DecidableEq, Repr

/-- The values of R70. -/
def Status.code : Status → Nat
  | .ok => 0x00 | .inProgress => 0x01 | .cancelled => 0x02 | .badOpcode => 0x10 | .badParam => 0x11 | .noResource => 0x12
  | .notPermitted => 0x13 | .badHandle => 0x14 | .badLength => 0x15 | .busy => 0x16 | .hostMemoryFault => 0x17
  | .tableFullRehash => 0x20 | .entryExists => 0x21 | .entryAbsent => 0x22 | .epochGrace => 0x30 | .modeWrong => 0x40
  | .keyRefused => 0x50 | .imageInvalid => 0x60 | .versionRefused => 0x61 | .mediaError => 0x70 | .targetAbsent => 0x71
  | .contextLost => 0x80 | .testFailed => 0x90 | .internalFault => 0xF0

/-- The order in which R71 reports refusals. (DEDUCED, log 15) -/
def Status.rank : Status → Nat
  | .badOpcode => 0 | .badLength => 1 | .notPermitted => 2 | .modeWrong => 3 | .badParam => 4 | .badHandle => 5
  | .epochGrace => 6 | .busy => 7 | .noResource => 8 | _ => 9

/-- The refusal reported when several apply (R71): the lowest rank, and the first of equal rank. (DEDUCED, log 15) -/
def firstRefusal : List (Bool × Status) → Option Status
  | [] => none
  | (b, st) :: r =>
    match b, firstRefusal r with
    | false, x => x
    | true, none => some st
    | true, some st' => if st'.rank < st.rank then some st' else some st

/-- The handle of a long operation (R77). -/
def LongOp.handle (o : LongOp) : Nat := o.chan.number * 65536 + o.serial

/-- A long operation's entry removed. -/
def dropOp (handle : Nat) (s : State) : State := { s with ops := s.ops.filter fun o => o.handle != handle }

/-- A long operation ends: its handle is freed and OP_DONE raised (R77, R80). -/
def opDone (o : LongOp) (st : Status) (result : List Nat) (s : State) : State :=
  raise (if o.orphan then .owner else o.chan) 1 0 o.tag.toNat
    ([o.handle, st.code + o.opcode * 65536] ++ (result ++ [0, 0, 0, 0]).take 4) (dropOp o.handle s)

/-- A long operation's entry replaced. -/
def putOp (o : LongOp) (s : State) : State := { s with ops := s.ops.map fun x => if x.handle = o.handle then o else x }

/-- The live operation of a handle. -/
def findOp (s : State) (handle : Nat) : Option LongOp := s.ops.find? fun o => o.handle = handle

/-- The limit of live handles (R77). -/
def opLimit : Chan → Nat
  | .owner => 64
  | .ring c => if c.vf.isNone then 16 else 2

/-- Live operations of a channel. -/
def opsOf (s : State) (c : Chan) : List LongOp := s.ops.filter fun o => o.chan = c

/-- A serial number that is not 0 and that no live handle of the channel carries (R77). -/
def freeSerial (s : State) (c : Chan) : Nat :=
  (pickFrom (freshNat s) 65536 fun n => n != 0 && !((opsOf s c).any fun o => o.serial = n)).getD 1

end Sys2Proof.Machine
end

