-- ==== Sys2Proof/Machine/Operands.lean ====
section
/-! DEFINITION. Operands.lean: the fields of a command packet: flags, scope, the object its TARGET names, and its parameter words (R65 to R67). -/

namespace Sys2Proof

/-- Parameter word at byte offset 4 × i; words beyond PARAM_LEN read 0. -/
def Packet.w (p : Packet) (i : Nat) : Nat := (p.params.getD i 0).toNat
/-- Parameter double word at byte offset 4 × i. -/
def Packet.d (p : Packet) (i : Nat) : Nat := p.w i + p.w (i + 1) * 2 ^ 32
/-- Bits of a parameter word. -/
def Packet.f (p : Packet) (i lo width : Nat) : Nat := bitsAt (p.w i) lo width
/-- One bit of a parameter word. -/
def Packet.b (p : Packet) (i bit : Nat) : Bool := bitAt (p.w i) bit
/-- The parameters as bytes. -/
def Packet.bytes (p : Packet) : List Byte := wordsToBytes (p.params.map (·.toNat))
/-- The number of parameter words. -/
def Packet.len (p : Packet) : Nat := p.paramLen.toNat
/-- FLAGS bit 0. -/
def Packet.bound (p : Packet) : Bool := bitAt p.flags.toNat 0
/-- FLAGS bit 1. -/
def Packet.topcoat (p : Packet) : Bool := bitAt p.flags.toNat 1
/-- FLAGS bit 2. -/
def Packet.force (p : Packet) : Bool := bitAt p.flags.toNat 2
/-- FLAGS bit 3. -/
def Packet.fence (p : Packet) : Bool := bitAt p.flags.toNat 3
/-- Slots the command occupies in its ring (R61). -/
def Packet.slots (p : Packet) : Nat := 1 + ceilDiv p.len 8

end Sys2Proof

namespace Sys2Proof.Machine
open Sys2Proof

/-- The object a command acts on (R67). -/
inductive Obj where
  | device
  | host (h : HostId)
  | func (h : HostId) (f : Fn)
deriving DecidableEq, Repr

/-- The host link in TARGET bits 12:10. -/
def targetHost (t : Nat) : HostId := ⟨t / 0x400 % 8, Nat.mod_lt _ (by decide)⟩

/-- The object TARGET names; none for kind 0b00 (R65). (DEDUCED, log 14) -/
def namedObj (t : Nat) : Option Obj :=
  match t / 0x4000 % 4 with
  | 0 => none
  | 1 => some (.host (targetHost t))
  | 2 => some (.func (targetHost t) (.vf ⟨t % 512, Nat.mod_lt _ (by decide)⟩))
  | _ => some (.func (targetHost t) (match t % 4 with
      | 0 => .pf0
      | 1 => .pf1
      | _ => .pf2))

/-- TARGET's reserved bits, or PF number 3. -/
def targetReserved (t : Nat) : Bool :=
  bitAt t 13 || bitAt t 9 || (t / 0x4000 % 4 == 3 && (bitsAt t 2 7 != 0 || t % 4 == 3))

/-- Is it a function. -/
def Obj.isFunc : Obj → Bool
  | .func _ _ => true
  | _ => false
/-- Is it a host. -/
def Obj.isHost : Obj → Bool
  | .host _ => true
  | _ => false
/-- Is it the device. -/
def Obj.isDevice : Obj → Bool
  | .device => true
  | _ => false
/-- The object's host link. -/
def Obj.link : Obj → Option HostId
  | .device => none
  | .host h => some h
  | .func h _ => some h

/-- The object of a command: TARGET read under SCOPE and channel; none where they do not fit together (R67). (DEDUCED, log 14) -/
def resolve (p : Packet) : Option Obj :=
  let named := namedObj p.target.toNat
  match p.chan, p.scope.toNat with
  | .owner, 0 => some (named.getD .device)
  | .owner, 3 => some (named.getD .device)
  | .owner, 1 => named.filter Obj.isHost
  | .owner, _ => named.filter Obj.isFunc
  | .ring ⟨h, none⟩, 2 => if named.isNone then some (.host h) else named.filter Obj.isFunc
  | .ring ⟨h, none⟩, _ => some (named.getD (.host h))
  | .ring ⟨h, some v⟩, _ => some (named.getD (.func h (.vf v)))

/-- The scope rules of R67: what each channel may name. (DEDUCED, log 14) -/
def scopeForbidden (p : Packet) : Bool :=
  let named := namedObj p.target.toNat
  match p.chan with
  | .owner => false
  | .ring ⟨h, none⟩ => p.scope.toNat == 0 || (match named with
      | some (.host h') => h' != h
      | some (.func h' f) => h' != h || f == .pf2
      | _ => false)
  | .ring ⟨h, some v⟩ => p.scope.toNat == 0 || p.scope.toNat == 1 || (match named with
      | none => false
      | some o => o != .func h (.vf v))

/-- The host of a command that names one, or of the channel it came on. -/
def hostOf (o : Obj) : HostId := o.link.getD 0

/-- The function a command acts on: the one named, or PF0 of the host. -/
def fnOfObj : Obj → Fn
  | .func _ f => f
  | _ => .pf0

end Sys2Proof.Machine

namespace Sys2Proof

/-- The command lies on a tenant channel. -/
def Packet.tenant (p : Packet) : Bool :=
  match p.chan with
  | .ring ⟨_, some _⟩ => true
  | _ => false

/-- The command lies on the owner channel. -/
def Packet.owner (p : Packet) : Bool := p.chan == .owner

end Sys2Proof
end

