-- ==== Sys2Proof/Machine/Cmd.lean ====
section
/-! DEFINITION. Cmd.lean: how a command packet is taken, checked, carried out and answered (R59 to R72, R77, R84, R86): one definition every command's meaning goes through. -/

namespace Sys2Proof.Machine
open Sys2Proof

/-- When an opcode is accepted (R72 and the mode table of R25 ff.). -/
inductive Gate where
  /-- the owner's status reads, accepted in every mode -/
  | status
  | ordinary
  /-- counter reads: host and tenant channels may also send them in QUIESCE and MAINTENANCE -/
  | counter
  /-- queue destroy: host and tenant channels may also send it in QUIESCE -/
  | destroy
  /-- marked M -/
  | maint
  /-- marked Q -/
  | drained
deriving DecidableEq, Repr

/-- The answer of a command that was not refused. -/
structure Answer where
  state : State
  status : Status := .ok
  result : List Nat := []
  handle : Bool := false
  long : Option (List Nat) := none
  /-- what follows the reply (R86) -/
  after : State → State := id

/-- One opcode of the tables of R72 ff. -/
structure CmdDef where
  opcode : Nat
  owner : Bool := false
  host : Bool := false
  tenant : Bool := false
  gate : Gate := .ordinary
  objs : Obj → Bool := fun _ => true
  bindable : Bool := false
  longResult : Bool := false
  /-- names a function that need not be present now (R39, R42) -/
  absentOk : Bool := false
  len : Nat → Bool := fun n => n == 0
  checks : Obj → Packet → State → List (Bool × Status) := fun _ _ _ => []
  act : Obj → Packet → State → Answer

/-- The mode refuses the command (R72). -/
def modeWrong (g : Gate) (c : Chan) (s : State) : Bool :=
  match s.glb.mode with
  | .boot => g != .status
  | .park => g != .status
  | .service => g == .maint || g == .drained
  | .degraded => g == .maint || g == .drained
  | .quiesce => g == .maint || (g == .drained && !s.glb.drainComplete) || (c != .owner && g != .counter && g != .destroy)
  | .maintenance => c != .owner && g != .counter

/-- The channel may use the opcode. -/
def CmdDef.marked (d : CmdDef) : Chan → Bool
  | .owner => d.owner
  | .ring ⟨_, none⟩ => d.host
  | .ring ⟨_, some _⟩ => d.tenant

/-- An epoch binding outside R54. -/
def badEpoch (s : State) (e : Nat) : Bool := e < s.epochs.epoch + 2 || s.epochs.epoch + 16777216 < e

/-- The checks common to every command (R54, R65 to R69, R72, R75). -/
def commonChecks (d : CmdDef) (o : Option Obj) (p : Packet) (s : State) : List (Bool × Status) :=
  [ (p.version.toNat != 1, .badOpcode),
    (504 < p.len || !d.len p.len, .badLength),
    (!d.marked p.chan || scopeForbidden p, .notPermitted),
    (modeWrong d.gate p.chan s, .modeWrong),
    (p.reservedSet || p.flags.toNat / 16 != 0 || 3 < p.scope.toNat || targetReserved p.target.toNat, .badParam),
    (p.bound && (!d.bindable || badEpoch s p.epochBind.toNat), .badParam),
    ((p.resultAddr != 0 || p.resultLen != 0) && (p.chan == .owner || !d.longResult), .badParam),
    ((match o with
      | none => true
      | some x => !d.objs x || (match x with
          | .func h f => f == .pf2 || (!d.absentOk && !present s h f)
          | _ => false)), .badParam) ]

/-- The refusal a command meets, if any (R71). (DEDUCED, log 15) -/
def refusal (d : CmdDef) (p : Packet) (s : State) : Option Status :=
  firstRefusal (commonChecks d (resolve p) p s ++ d.checks ((resolve p).getD .device) p s)

/-- A status reply is written (R63, R64, R68, R69): after its long result, before what it caused. (DESIGN CHOICE, log 84) -/
def writeReply (p : Packet) (st : Status) (handle : Bool) (result : List Nat) (long : List Nat) (isLong : Bool) (s : State) : State :=
  let mk (phase : Bool) : Reply := {
    chan := p.chan, vdm := p.vdm, phase := phase, handleValid := handle, longResult := isLong,
    status := st.code, tag := p.tag, epoch := s.epochs.epoch, result := (result ++ [0, 0, 0, 0]).take 4, long := long }
  match p.chan with
  | .owner => emit (.reply (mk false)) s
  | .ring c =>
    let r := ring s c
    let s1 := if isLong then emit (.hostWrite c.link c.fn p.resultAddr.toNat (wordsToBytes long)) s else s
    signalRing c r.replyVec 0 (modRing c (fun r => { r with
      rqTail := ringNext r.rqCfg r.rqTail 1
      rqPhase := if ringNext r.rqCfg r.rqTail 1 = 0 then !r.rqPhase else r.rqPhase }) (emit (.reply (mk r.rqPhase)) s1))

/-- A refused command has no effect but its reply (R71). -/
def refuse (p : Packet) (st : Status) (result : List Nat) (s : State) : State := writeReply p st false result [] false s

/-- A command that met no refusal is carried out and answered (R69, R86). -/
def answer (p : Packet) (a : Answer) (s : State) : State :=
  match a.long with
  | none => a.after (writeReply p a.status a.handle a.result [] false a.state)
  | some l =>
    let room := if p.chan = .owner then 4064 else p.resultLen.toNat
    if room < 4 * l.length then refuse p .badLength [4 * l.length] s
    else if p.chan ≠ .owner ∧ !p.writeOk then refuse p .hostMemoryFault [] s
    else a.after (writeReply p a.status a.handle a.result l true a.state)

/-- A command that has been taken is checked and served (R71). -/
def serve (d : CmdDef) (p : Packet) (s : State) : State :=
  match refusal d p s with
  | some st => refuse p st [] s
  | none => answer p (d.act ((resolve p).getD .device) p s) s

/-- Commands of a channel that FENCE holds. -/
def fencedOn (s : State) (c : Chan) : Nat := (s.fenced.filter fun e => e.1 = c).length

/-- FENCE, or an earlier command it holds, keeps this command back (R65, R84). -/
def fenceHolds (p : Packet) (s : State) : Bool := fencedOn s p.chan != 0 || (p.fence && !(opsOf s p.chan).isEmpty)

/-- A ring channel takes no command now: it does not run, its slots are not covered, or its reply ring is full (R61, R63). -/
def ringNotReady (c : RingChan) (p : Packet) (s : State) : Bool :=
  let r := ring s c
  !r.running || ringUsed r.sqCfg r.sqHead r.sqTail < p.slots || rqFull r

/-- The owner channel takes no command now: management firmware does not run, or the VDM path is not the designated one (R55, R57). -/
def ownerNotReady (p : Packet) (s : State) : Bool :=
  !s.glb.fwRuns || (match p.vdm with
    | none => false
    | some h => s.nv.ownerVdm != some h)

/-- The slots of a command are consumed (R61). -/
def consume (c : RingChan) (p : Packet) (s : State) : State := modRing c (fun r => { r with sqHead := ringNext r.sqCfg r.sqHead p.slots }) s

/-- A ring channel stops with FAULT (R70, R107). (DEDUCED, log 16) -/
def ringFault (c : RingChan) (s : State) : State := modRing c (fun r => { r with running := false, fault := true }) s

/-- The owner has sent a command: held events may be sent from now on (R83). -/
def ownerSpoke (s : State) : State := { s with owner := { s.owner with spoken := true } }

/-- A command packet reaches its channel: it is left in its ring, held by FENCE, or taken and served (R59 to R63, R65). (DEDUCED, log 16) -/
def runCmd (d : CmdDef) (i : Instr) (p : Packet) (s : State) : State :=
  match p.chan with
  | .owner =>
    if ownerNotReady p s then s
    else if fenceHolds p s then
      if 32 ≤ fencedOn s .owner then refuse p .noResource [] (ownerSpoke s)
      else { ownerSpoke s with fenced := s.fenced ++ [(.owner, i)] }
    else serve d p (ownerSpoke s)
  | .ring c =>
    if ringNotReady c p s then s
    else if fenceHolds p s then { s with fenced := s.fenced ++ [(.ring c, i)] }
    else match p.read with
      | .headerFailed => ringFault c s
      | .paramsFailed => ringFault c (refuse p .hostMemoryFault [] (consume c p s))
      | .ok => serve d p (consume c p s)

/-! Long operations -/

/-- NO_RESOURCE beyond the live handles of the channel (R77). -/
def opLimitReached (p : Packet) (s : State) : Bool := opLimit p.chan ≤ (opsOf s p.chan).length

/-- A long operation starts: its handle is live and the reply is IN_PROGRESS (R77). -/
def startOp (opcode : Nat) (p : Packet) (kind : OpKind) (total targetEpoch : Nat) (s : State) : Answer :=
  let n := freeSerial s p.chan
  let o : LongOp := {
    chan := p.chan, serial := n, opcode := opcode, tag := p.tag, vdm := p.vdm, stepsDone := 0, stepsTotal := total, kind := kind,
    committed := false, resultAddr := p.resultAddr.toNat, resultLen := p.resultLen.toNat, orphan := false, notes := [] }
  { state := { drawn1 s with ops := s.ops ++ [o] }, status := .inProgress, handle := true,
    result := [o.handle, 0] ++ words64 targetEpoch }

/-- A reply with RESULT words. -/
def reply (ws : List Nat) (s : State) : Answer := { state := s, result := ws }
/-- A reply with a long result. -/
def replyLong (ws : List Nat) (s : State) : Answer := { state := s, long := some ws }

end Sys2Proof.Machine
end

