-- ==== Sys2Proof/Machine/Channels.lean ====
section
/-! DEFINITION. Channels.lean: the command windows of the ring channels, the owner's MCTP endpoint, and event sending (R57 to R64, R80, R83). -/

namespace Sys2Proof.Machine
open Sys2Proof

/-- The function that carries a ring channel is present and has one (R55): PF0 or a VF of PF0. -/
def ringPresent (s : State) (c : RingChan) : Bool := present s c.link c.fn && netFn s c.link c.fn

/-- HLINK_CMD_ENABLE_SET (R60). -/
def enableRing (c : RingChan) (s : State) : State :=
  let r := ring s c
  let bad (n : Nat) : Bool := n < 6 || 15 < n
  if !ringPresent s c || r.enable then s
  else if bad r.sqCfg || bad r.rqCfg || bad r.eqCfg then modRing c (fun r => { r with cfgErr := true }) s
  else modRing c (fun r => { r with
    sqTail := 0, sqHead := 0, rqHead := 0, rqTail := 0, eqHead := 0, eqTail := 0, rqPhase := true, eqPhase := true
    enable := true, running := true, seq := 0, mask := 0, unreported := 0 }) s

/-- HLINK_CMD_ENABLE_SET (R60). -/
def execHlinkCmdEnableSet (c : RingChan) (s : State) : Host.Outcome State Fault Refusal := .next (enableRing c s)

/-- HLINK_CMD_EVENT_ENABLE_WRITE (R63). -/
def execHlinkCmdEventEnableWrite (c : RingChan) (on : Bool) (s : State) : Host.Outcome State Fault Refusal :=
  .next (if ringPresent s c then modRing c (fun r => { r with eventEnable := on }) s else s)

/-- A doorbell value the ring cannot take: at or beyond its size, or overrunning unread slots (R62). (DESIGN CHOICE, log 4) -/
def badTail (cfg head tail v : Nat) : Bool :=
  ringSize cfg ≤ v || ringSize cfg ≤ ringUsed cfg head tail + ringUsed cfg tail v

/-- HLINK_CMD_SQ_TAIL (R61, R62): the slots up to the new tail may be taken. -/
def execHlinkCmdSqTail (c : RingChan) (v : Word) (s : State) : Host.Outcome State Fault Refusal :=
  let r := ring s c
  let n := v.toNat % 2 ^ 15
  if !ringPresent s c then .next s
  else if !r.enable then .next (modRing c (fun r => { r with sqTail := n }) s)
  else if badTail r.sqCfg r.sqHead r.sqTail n then .refused (.undefinedCase 62)
  else .next (modRing c (fun r => { r with sqTail := n }) s)

/-- HLINK_CMD_RQ_HEAD (R63): reply entries are freed. -/
def execHlinkCmdRqHead (c : RingChan) (v : Word) (s : State) : Host.Outcome State Fault Refusal :=
  let r := ring s c
  let n := v.toNat % 2 ^ 15
  if !ringPresent s c then .next s
  else if r.enable && ringSize r.rqCfg ≤ n then .refused (.undefinedCase 62)
  else .next (modRing c (fun r => { r with rqHead := n }) s)

/-- EVENTS_LOST is written first once space returns (R63). -/
def reportLost (c : RingChan) (s : State) : State :=
  let r := ring s c
  if r.unreported = 0 ∨ !(r.enable && r.running && r.eventEnable) ∨ eqFree r = 0 then s
  else modRing c (fun r => { r with unreported := 0 }) (writeEvent c 2 0 0 [r.unreported] s)

/-- HLINK_CMD_EQ_HEAD (R63): event entries are freed. -/
def execHlinkCmdEqHead (c : RingChan) (v : Word) (s : State) : Host.Outcome State Fault Refusal :=
  let r := ring s c
  let n := v.toNat % 2 ^ 15
  if !ringPresent s c then .next s
  else if r.enable && ringSize r.eqCfg ≤ n then .refused (.undefinedCase 62)
  else .next (reportLost c (modRing c (fun r => { r with eqHead := n }) s))

/-- OVERSIZE_COMMAND (R61). -/
def execOversizeCommand (c : RingChan) (p : Packet) (s : State) : Host.Outcome State Fault Refusal :=
  let r := ring s c
  .next (if !r.running || p.chan != .ring c || p.slots ≤ ringSize r.sqCfg - 1 || ringUsed r.sqCfg r.sqHead r.sqTail = 0 || rqFull r then s
    else modRing c (fun r => { r with oversize := true, running := false }) (refuse p .badLength [p.slots] s))

/-- The opcodes the tables assign (R75). -/
def assignedOpcode (n : Nat) : Bool :=
  (0x0100 ≤ n && n ≤ 0x0109) || (0x0110 ≤ n && n ≤ 0x0115) || n == 0x0120 || n == 0x0121 || (0x0200 ≤ n && n ≤ 0x0206)
    || (0x0300 ≤ n && n ≤ 0x0306) || (0x0400 ≤ n && n ≤ 0x0409) || (0x0500 ≤ n && n ≤ 0x050A) || (0x0600 ≤ n && n ≤ 0x060A)
    || (0x0700 ≤ n && n ≤ 0x0709) || (0x0800 ≤ n && n ≤ 0x0806) || (0x0900 ≤ n && n ≤ 0x0905) || (0x0A00 ≤ n && n ≤ 0x0A03)
    || (0x0B00 ≤ n && n ≤ 0x0B06) || (0x0C00 ≤ n && n ≤ 0x0C03)

/-- A packet whose opcode no table assigns (R75). -/
def unassignedDef (opcode : Nat) : CmdDef where
  opcode := opcode
  owner := true
  host := true
  tenant := true
  len := fun _ => true
  checks := fun _ p _ => [(!assignedOpcode opcode || p.version.toNat != 1, .badOpcode)]
  act := fun _ _ s => reply [] s

/-- UNASSIGNED_OPCODE (R66, R75): an unassigned opcode or an unknown version; any other packet is not this command. -/
def execUnassignedOpcode (opcode : BitVec 16) (p : Packet) (s : State) : Host.Outcome State Fault Refusal :=
  .next (if assignedOpcode opcode.toNat && p.version.toNat == 1 then s
    else runCmd (unassignedDef opcode.toNat) (.unassignedOpcode opcode p) p s)

/-- EVENT_MASK_SET's event types (R82). -/
def eventTypes : List Nat := [0x01, 0x02, 0x10, 0x11, 0x12, 0x20, 0x21, 0x22, 0x30, 0x40, 0x41, 0x50, 0x51, 0x60, 0x61, 0x70, 0x80, 0x81, 0x90, 0xA0, 0xB0]

/-- The 256-bit mask of R508. -/
def maskOf (p : Packet) : Nat := p.d 0 + p.d 2 * 2 ^ 64 + p.d 4 * 2 ^ 128 + p.d 6 * 2 ^ 192

/-- Every bit a mask may carry: listed types but OP_DONE and EVENTS_LOST (R508). -/
def maskAllowed : Nat := (eventTypes.drop 2).foldl (fun m t => m + 2 ^ t) 0

/-- EVENT_MASK_SET (R508). -/
def eventMaskSetDef : CmdDef where
  opcode := 0x0C02
  owner := true
  host := true
  tenant := true
  len := fun n => n == 4
  checks := fun _ p _ => [(maskOf p &&& maskAllowed != maskOf p, .badParam)]
  act := fun _ p s => reply [] (match p.chan with
    | .owner => { s with owner := { s.owner with mask := maskOf p } }
    | .ring c => modRing c (fun r => { r with mask := maskOf p }) s)

/-- EVENT_MASK_SET. -/
def execEventMaskSet (p : Packet) (s : State) : Host.Outcome State Fault Refusal := .next (runCmd eventMaskSetDef (.eventMaskSet p) p s)

/-- OWNER_PATH_SET (R57, R73). -/
def ownerPathSetDef : CmdDef where
  opcode := 0x0109
  owner := true
  objs := Obj.isDevice
  len := fun n => n == 1
  checks := fun _ p _ => [((7 < p.f 0 0 4 && p.f 0 0 4 != 15) || p.f 0 4 4 != 0 || p.f 0 9 23 != 0 || p.w 1 != 0, .badParam)]
  act := fun _ p s => reply [] { s with nv := { s.nv with
    ownerVdm := if h : p.f 0 0 4 < 8 then some ⟨p.f 0 0 4, h⟩ else none
    eventsToVdm := p.b 0 8 } }

/-- OWNER_PATH_SET. -/
def execOwnerPathSet (p : Packet) (s : State) : Host.Outcome State Fault Refusal := .next (runCmd ownerPathSetDef (.ownerPathSet p) p s)

/-! The owner's event path (R83) -/

/-- Events dropped or lost are reported by EVENTS_LOST once a place is free (R63, R83). -/
def reportOwnerLost (s : State) : State :=
  if s.owner.unreported = 0 ∨ 1024 ≤ s.owner.held.length then s
  else raiseOwner 2 0 0 [s.owner.unreported] { s with owner := { s.owner with unreported := 0 } }

/-- OWNER_EVENT_SEND (R83): the oldest held event is sent; the operand counts the sends that failed, and after three retries it is lost. -/
def execOwnerEventSend (tries : Fin 5) (s : State) : Host.Outcome State Fault Refusal :=
  .next (match s.owner.held with
    | [] => s
    | e :: r =>
      if !s.owner.spoken || !s.glb.fwRuns then s
      else if tries.val = 4 then reportOwnerLost { s with owner := { s.owner with held := r, unreported := s.owner.unreported + 1 } }
      else reportOwnerLost (emit (.event .owner (if s.nv.eventsToVdm then s.nv.ownerVdm else none) e) { s with owner := { s.owner with held := r } }))

/-! The MCTP endpoint (R58) -/

/-- The endpoint of a path exists and takes the message: management firmware runs, or the ROM serves recovery (R439), and a VDM path is the designated one (R57). -/
def mctpOpen (path : MctpPath) (s : State) : Bool :=
  (s.glb.fwRuns || s.glb.stage == .recovery) && (match path with
    | .smbus => true
    | .vdm h => s.nv.ownerVdm == some h)

/-- The endpoint ID of a path. -/
def mctpEid (path : MctpPath) (s : State) : Byte :=
  match path with
  | .smbus => s.owner.smbusEid
  | .vdm _ => s.owner.vdmEid

/-- A control response: command code, completion code, data. -/
def mctpReply (path : MctpPath) (body : List Nat) (s : State) : State := if mctpOpen path s then emit (.mctp path body) s else s

/-- MCTP_SET_ENDPOINT_ID (R58): operations 0 and 1 assign a valid ID. -/
def execMctpSetEndpointId (path : MctpPath) (op : BitVec 2) (eid : Byte) (s : State) : Host.Outcome State Fault Refusal :=
  .next (if !mctpOpen path s then s
    else if 2 ≤ op.toNat ∨ eid.toNat < 8 ∨ eid.toNat = 0xFF then emit (.mctp path [1, 2]) s
    else emit (.mctp path [1, 0, 0, eid.toNat, 0]) (match path with
      | .smbus => { s with owner := { s.owner with smbusEid := eid } }
      | .vdm _ => { s with owner := { s.owner with vdmEid := eid } }))

/-- MCTP_GET_ENDPOINT_ID (R58). -/
def execMctpGetEndpointId (path : MctpPath) (s : State) : Host.Outcome State Fault Refusal :=
  .next (mctpReply path [2, 0, (mctpEid path s).toNat, 0, 0] s)

/-- MCTP_GET_VERSION_SUPPORT (R58): the base and control messages are version 1.3; the spec gives no version number for the other types. -/
def execMctpGetVersionSupport (path : MctpPath) (msgType : Byte) (s : State) : Host.Outcome State Fault Refusal :=
  .next (if msgType.toNat = 0xFF ∨ msgType.toNat = 0 then mctpReply path [4, 0, 1, 0xF1, 0xF3, 0xFF, 0] s
    else if s.glb.fwRuns && (msgType.toNat == 5 || msgType.toNat == 0x7E) then mctpReply path [4, 0, 1, freshNat s % 2 ^ 32] (drawn1 s)
    else mctpReply path [4, 0x80] s)

/-- MCTP_GET_MESSAGE_TYPE_SUPPORT (R58); in ROM recovery type 0x00 alone (R439). -/
def execMctpGetMessageTypeSupport (path : MctpPath) (s : State) : Host.Outcome State Fault Refusal :=
  .next (mctpReply path (if s.glb.fwRuns then [5, 0, 3, 0x00, 0x05, 0x7E] else [5, 0, 1, 0x00]) s)

/-- MCTP_GET_VDM_SUPPORT (R58): one vendor ID set, 0x7B4D in PCI format. -/
def execMctpGetVdmSupport (path : MctpPath) (selector : Byte) (s : State) : Host.Outcome State Fault Refusal :=
  .next (if selector.toNat = 0 then mctpReply path [6, 0, 0xFF, 0, 0x7B, 0x4D, 0, 0] s else mctpReply path [6, 2] s)

/-- MCTP_MESSAGE_DISCARDED (R58, R439): IC set, or a type not supported now, is counted. -/
def execMctpMessageDiscarded (path : MctpPath) (ic : Bool) (msgType : Byte) (s : State) : Host.Outcome State Fault Refusal :=
  .next (if mctpOpen path s && (ic || !((if s.glb.fwRuns then [0, 5, 0x7E] else [0]).contains msgType.toNat)) then count 0 0 10 1 s else s)

end Sys2Proof.Machine
end

