-- ==== Sys2Proof/Machine/Recoat.lean ====
section
/-! DEFINITION. Recoat.lean: the recoat units: who may write them, what blocks a write, and what commit and reload do (R39 to R48). -/

namespace Sys2Proof.Machine
open Sys2Proof

/-- A unit's recoat state. -/
def unitAt (s : State) (i : Fin 32) : UnitState := s.epochs.units[i]
/-- A unit's recoat state changed. -/
def modUnit (i : Fin 32) (f : UnitState → UnitState) (s : State) : State :=
  { s with epochs := { s.epochs with units := vmod s.epochs.units i f } }

/-- Bits 0 to 4 and 8 to 31 of GLB_RECOAT are units. -/
def validUnit (i : Fin 32) : Bool := i.val < 5 || 8 ≤ i.val
/-- PARSE and CLASS are bank units. -/
def isBank (i : Fin 32) : Bool := i.val < 2
/-- The host of a host unit. -/
def unitHost (i : Fin 32) : HostId := ⟨(i.val - 8) / 3 % 8, Nat.mod_lt _ (by decide)⟩

/-- The channel may write and arm the unit (R39): the owner the owner's units, a host driver its own, the owner those of a host whose link is down. -/
def mayWrite (c : Chan) (i : Fin 32) (s : State) : Bool :=
  if i.val < 8 then c == .owner
  else match c with
    | .owner => !linkUp s (unitHost i)
    | .ring ⟨h, none⟩ => h == unitHost i
    | .ring _ => false

/-- The unit reads as armed (GLB_RECOAT). -/
def unitArmed (u : UnitState) : Bool := u.phase == .armed || u.phase == .pending
/-- The unit is in grace, is reloading, or waits for its host's defaults (R42, R47). -/
def unitInGrace (u : UnitState) : Bool := u.phase == .grace || u.phase == .reload || u.defaultsDue

/-- A write command to the unit's undercoat is refused (R43, R47, R48). -/
def unitBlocked (i : Fin 32) (s : State) : List (Bool × Status) :=
  [((unitAt s i).phase == .pending || unitInGrace (unitAt s i), .epochGrace), ((unitAt s i).copying, .busy)]

/-- A host's units changed. -/
def modUnits (h : HostId) (f : HostUnits → HostUnits) (s : State) : State :=
  { s with net := { s.net with units := vmod s.net.units h f } }

/-- A setting's undercoat takes its topcoat. -/
def Staged_reload {α : Type} (x : Staged α) : Staged α := ⟨x.top, x.top, x.old⟩
/-- A setting's topcoat takes its undercoat. -/
def Staged_commit {α : Type} (x : Staged α) : Staged α := ⟨x.under, x.under, x.top⟩
/-- The two banks change places. -/
def Staged_swap {α : Type} (x : Staged α) : Staged α := ⟨x.top, x.under, x.top⟩

/-- A host unit's staged setting changed by the same function whatever its type. -/
def mapUnit (i : Fin 32) (f : {α : Type} → Staged α → Staged α) (s : State) : State :=
  if i.val = 0 then { s with parse := { s.parse with banks := f s.parse.banks } }
  else if i.val = 1 then { s with cls := { s.cls with banks := f s.cls.banks } }
  else if i.val = 2 then { s with sched := { s.sched with top := f s.sched.top } }
  else if i.val = 3 then { s with sched := { s.sched with share := f s.sched.share } }
  else if i.val = 4 then { s with net := { s.net with quota := f s.net.quota } }
  else if i.val < 8 then s
  else match (i.val - 8) % 3 with
    | 0 => modUnits (unitHost i) (fun u => { u with spread := f u.spread }) s
    | 1 => modUnits (unitHost i) (fun u => { u with sched := f u.sched }) s
    | _ => modUnits (unitHost i) (fun u => { u with vfQuota := f u.vfQuota }) s

/-- The coat before the recoat stands as topcoat. -/
def Staged_view {α : Type} (x : Staged α) : Staged α := ⟨x.under, x.old, x.old⟩
/-- The settings a packet of an epoch uses (R50): one of an earlier epoch finds the former topcoat of every unit in grace. -/
def coatsOf (epoch : Nat) (s : State) : State :=
  if s.epochs.epoch ≤ epoch then s
  else (List.finRange 32).foldl (fun s i => if (unitAt s i).phase = .grace then mapUnit i Staged_view s else s) s

/-- The undercoat takes the topcoat (R43). -/
def reloadUnit (i : Fin 32) (s : State) : State := mapUnit i Staged_reload s

/-! PARSE (R147, R158) -/

/-- A recoat that changes a policer's rate empties its bucket (R147). -/
def resetBuckets (s : State) : State :=
  let b := s.parse.banks
  let kept (p : Fin 32) : PuntBucket :=
    if bitsAt b.under.policers[p] 0 17 = bitsAt b.top.policers[p] 0 17 then s.parse.buckets[p] else ⟨0, nowNs s⟩
  { s with parse := { s.parse with buckets := Vector.ofFn kept } }

/-! SPREAD (R199) -/

/-- The counters of a table that the recoat forms or re-forms start at 0. -/
def clearLoads (h : HostId) (s : State) : State :=
  let u := (s.net.units[h]).spread
  let same (t : Nat) : Bool := match Tbl.find u.under.tables t, Tbl.find u.top.tables t with
    | some a, some b => a.gen == b.gen && a.log2 == b.log2
    | _, _ => false
  { s with net := { s.net with loads := Tbl.keepIf s.net.loads fun k _ => k / 262144 != h.val || same (k / 4096 % 64) } }

/-! The scheduler (R231) -/

/-- The time at which a recoat of the scheduler re-parks nodes: every parked shaper is looked at anew. -/
def reparkAll (s : State) : State :=
  { s with sched := { s.sched with parked := s.sched.parked.filter fun p => p.launch, deficits := [] } }

/-- What the unit's recoat does beside the change of coats. -/
def beforeCommit (i : Fin 32) (s : State) : State :=
  if i.val = 0 then { resetBuckets s with parse := { (resetBuckets s).parse with topBank := !s.parse.topBank } }
  else if i.val = 1 then { s with cls := { s.cls with topBank := !s.cls.topBank } }
  else if i.val = 2 ∨ i.val = 3 then reparkAll s
  else if 8 ≤ i.val ∧ (i.val - 8) % 3 = 0 then clearLoads (unitHost i) s
  else if 8 ≤ i.val ∧ (i.val - 8) % 3 = 1 then reparkAll s
  else s

/-- A pending unit's undercoat becomes topcoat, and its grace begins (R46). -/
def commitUnit (i : Fin 32) (s : State) : State :=
  if (unitAt s i).phase != .pending then s
  else
    let s1 := beforeCommit i s
    let s2 := if isBank i then mapUnit i Staged_swap s1 else mapUnit i Staged_commit s1
    modUnit i (fun u => { u with phase := .grace }) s2

/-! Held RECOAT_ARMs (R74, R509) -/

/-- Some unit still belongs to an arm command. -/
def armHolds (handle : Nat) (s : State) : Bool := (List.finRange 32).any fun i => (unitAt s i).handle == some handle

/-- A held RECOAT_ARM loses a unit: it ends CANCELLED when none is left (R509). -/
def armLost (handle : Option Nat) (_i : Fin 32) (s : State) : State :=
  match handle.bind (findOp s) with
  | none => s
  | some o => if armHolds o.handle s then s else opDone o .cancelled [] s

/-- A unit's grace has ended: the arm command is done when the last of its units is clear (R53). -/
def graceCleared (handle : Option Nat) (_i : Fin 32) (s : State) : State :=
  match handle.bind (findOp s) with
  | none => s
  | some o => if armHolds o.handle s then s else opDone o .ok [] s

/-! Direct writes of staged registers (R9, R158) -/

/-- The staged registers of the PARSE block: node windows, malformed actions, punt policers. -/
def parseStagedAddr (a : Nat) : Bool :=
  a % 4 == 0 && ((0x03010000 ≤ a && a < 0x03030000) || a == 0x03000100 || a == 0x03000104 || (0x03000200 ≤ a && a < 0x03000280))

/-- A word of a node record replaced; the record has 64 words. -/
def putWord (n : List Nat) (i v : Nat) : List Nat := ((n ++ List.replicate 64 0).take 64).set i v

/-- A write to a staged PARSE register reaches the undercoat. -/
def parseStagedWrite (a v : Nat) (s : State) : State :=
  let b := s.parse.banks.under
  let b' : ParseBank :=
    if 0x03010000 ≤ a then
      let k := (a - 0x03010000) / 256
      { b with nodes := Tbl.put b.nodes k (putWord (Tbl.getD b.nodes k []) (a / 4 % 64) v) }
    else if 0x03000200 ≤ a then { b with policers := vset b.policers ⟨(a - 0x03000200) / 4 % 32, Nat.mod_lt _ (by decide)⟩ v }
    else { b with actions := vset b.actions ⟨(a - 0x03000100) / 4 % 2, Nat.mod_lt _ (by decide)⟩ v }
  { s with parse := { s.parse with banks := { s.parse.banks with under := b' } } }

end Sys2Proof.Machine
end

