-- ==== Sys2Proof/Machine/Units.lean ====
section
/-! DEFINITION. Units.lean: units out of service, the degradation record, the floor of service and the repair record (R29 to R32, R457 to R464). -/

namespace Sys2Proof.Machine
open Sys2Proof

/-- SOURCE of an event about a unit (R81, R459). -/
def source (kind unit : Nat) : Nat := kind * 2 ^ 24 + unit % 2 ^ 24

/-- The units that share a degradation entry: lanes of one port group, host link or drive port (R464). -/
def shareGroup (kind unit : Nat) : Nat :=
  match kind with
  | 0x07 => unit / 8
  | 0x08 => unit / 16
  | 0x09 => unit / 4
  | _ => unit

/-- A unit stands in the degradation record. -/
def isLost (s : State) (kind unit : Nat) : Bool := s.degr.entries.any fun e => e.kind == kind && e.unit == unit

/-- Entries of a kind. -/
def lostCount (s : State) (kind : Nat) : Nat := (s.degr.entries.filter fun e => e.kind == kind).length

/-- The in-service set is below the floor of R29. -/
def belowFloor (s : State) : Bool :=
  3 ≤ lostCount s 0x04 || 16 ≤ lostCount s 0x01 || 16 ≤ lostCount s 0x02 || lostCount s 0x0F != 0 || lostCount s 0x10 != 0
    || s.degr.entries.any (fun e => e.kind == 0x06 && e.unit % 65536 == 0xFFFF)

/-- Kinds that are recorded only and change no mode: clocks, sensors, references, repaired memories, skipped programs and the carve (R454, R464). (DEDUCED, log 81) -/
def recordedOnly (kind : Nat) : Bool := [0x05, 0x0B, 0x0C, 0x0D, 0x0E, 0x13, 0x14, 0x15].contains kind || kind == 0

/-- What a loss does to the mode (R27, R32). -/
def lossTrigger (kind : Nat) (s : State) : State :=
  if belowFloor s then
    match s.glb.mode with
    | .service => { s with glb := { s.glb with autoNext := some (.maintenance, .belowFloor) } }
    | .degraded => { s with glb := { s.glb with autoNext := some (.maintenance, .belowFloor) } }
    | .quiesce => { s with glb := { s.glb with autoNext := some (.maintenance, .belowFloor), degradedPending := true } }
    | .boot => s
    | _ => { s with glb := { s.glb with degradedPending := true } }
  else if recordedOnly kind then s
  else match s.glb.mode with
    | .service => if s.glb.autoNext.isNone then { s with glb := { s.glb with autoNext := some (.degraded, .unitLost) } } else s
    | .quiesce => { s with glb := { s.glb with degradedPending := true } }
    | .maintenance => { s with glb := { s.glb with degradedPending := true } }
    | .park => { s with glb := { s.glb with degradedPending := true } }
    | _ => s

/-- An entry joins the record; lanes of one group share an entry, whose masks are OR-ed below the width field. (DEDUCED, log 81) -/
def addEntry (e : DegEntry) (l : List DegEntry) : List DegEntry :=
  match l with
  | [] => [e]
  | x :: r =>
    if x.kind = e.kind ∧ shareGroup x.kind x.unit = shareGroup e.kind e.unit then
      { x with detail := (x.detail ||| e.detail) % 2 ^ 27 + e.detail / 2 ^ 27 * 2 ^ 27 } :: r
    else x :: addEntry e r

/-- A unit is lost beyond its spares (R27, R464). -/
def unitLost (kind reason unit detail : Nat) (s : State) : State :=
  let e : DegEntry := { kind := kind, reason := reason, unit := unit, detail := detail, epoch := s.epochs.epoch % 2 ^ 32 }
  let s1 := { s with degr := { s.degr with entries := addEntry e s.degr.entries } }
  lossTrigger kind (raiseOwner 0x11 (source kind unit) 0 [1, kind + reason * 256, unit, s1.degr.entries.length] s1)

/-! Pipelines -/

/-- A pipeline, 0 to 15 receive and 16 to 31 transmit, is out of service. -/
def pipeLost (s : State) (p : Nat) : Bool := if p < 16 then isLost s 0x01 p else isLost s 0x02 (p - 16)
/-- The pipeline that carries the packets of a pipeline: itself, or its partner (R31). -/
def carrier (s : State) (p : Nat) : Option Nat :=
  if !pipeLost s p then some p
  else if !pipeLost s (if p % 2 = 0 then p + 1 else p - 1) then some (if p % 2 = 0 then p + 1 else p - 1) else none
/-- Receive pipelines in service. -/
def rxActive (s : State) : Nat := 16 - lostCount s 0x01
/-- Transmit pipelines in service. -/
def txActive (s : State) : Nat := 16 - lostCount s 0x02
/-- Packet cores in service. -/
def coresActive (s : State) : Nat := 256 - lostCount s 0x03

/-! The repair record -/

/-- An entry is written to the repair record and reported (R459, R460, R462). -/
def repair (e : RepairEntry) (s : State) : State :=
  if 32768 ≤ s.nv.repairs.length then s
  else
    let s1 := { s with nv := { s.nv with repairs := s.nv.repairs ++ [e] } }
    let s2 := if e.state = 1 then count 0x0F 0 2 1 s1 else s1
    raiseOwner 0x90 (source e.kind e.unit) 0
      [s.nv.repairs.length, e.kind + e.state * 256 + e.found * 4096 + e.bootCount % 65536 * 65536, e.unit, s2.nv.repairs.length] s2

end Sys2Proof.Machine
end

