-- ==== Sys2Proof/Machine/Reads.lean ====
section
/-! DEFINITION. Reads.lean: the outstanding reads of a host link and their tags (R103 to R106). -/

namespace Sys2Proof.Machine
open Sys2Proof

/-- Requests that may be outstanding on a link: the least permissive physical function decides (R103). -/
def tagLimit (s : State) (h : HostId) : Nat :=
  let fs := [fnOf s h .pf0, fnOf s h .pf1, fnOf s h .pf2]
  if (link s h).flit && fs.all (·.tags14) then 4096 else if fs.all (·.tags10) then 1024 else 256

/-- Outstanding reads of a link. -/
def outstanding (s : State) (h : HostId) : List ReadReq := (link s h).reads.filter fun r => !r.quarantined
/-- Tags in quarantine. -/
def quarantinedTags (s : State) (h : HostId) : List ReadReq := (link s h).reads.filter fun r => r.quarantined

/-- The function may issue a request now: Bus Master Enable, D0, and a link that is up. -/
def canIssue (s : State) (h : HostId) (f : Fn) : Bool := present s h f && (fnOf s h f).bme && !(fnOf s h f).d3

/-- A tag is free for the function: within the link's limit, and 1,024 for a VF (R103). -/
def tagRoom (s : State) (h : HostId) (f : Fn) : Bool :=
  decide ((outstanding s h).length < tagLimit s h) && (match f with
    | .vf _ => decide (((outstanding s h).filter fun r => r.fn == f).length < 1024)
    | _ => true)

/-- A read is sent: a free tag, freely chosen, becomes outstanding. -/
def sendRead (h : HostId) (f : Fn) (p : Purpose) (s : State) : State :=
  let tag := (pickFrom (freshNat s) (tagLimit s h) fun t => !((link s h).reads.any fun r => r.tag = t)).getD 0
  let r : ReadReq := { tag := tag, fn := f, purpose := p, sentAt := s.now, abandoned := false, timedOut := false, quarantined := false, why := 0 }
  emit (.hostRead h f tag p) (modLink h (fun l => { l with reads := l.reads ++ [r] }) (drawn1 s))

/-- A read is issued, or waits for a tag. -/
def issueRead (h : HostId) (f : Fn) (p : Purpose) (s : State) : State :=
  let free := (List.range (tagLimit s h)).any fun t => !((link s h).reads.any fun r => r.tag = t)
  if tagRoom s h f && free then sendRead h f p s else modLink h (fun l => { l with readsDue := l.readsDue ++ [(f, p)] }) s

/-- Reads that waited for a tag are issued, in order, while tags last. -/
def pumpReads (h : HostId) (s : State) : State :=
  let due := (link s h).readsDue
  due.foldl (fun s e => if canIssue s h e.1 then issueRead h e.1 e.2 s else s) (modLink h (fun l => { l with readsDue := [] }) s)

/-- The oldest outstanding read that a test of function and purpose accepts. -/
def findRead (s : State) (h : HostId) (p : Fn → Purpose → Bool) : Option ReadReq :=
  (outstanding s h).find? fun r => p r.fn r.purpose && !r.abandoned

/-- A read is over: its tag is free again. (DEDUCED, log 33) -/
def endRead (h : HostId) (tag : Nat) (s : State) : State :=
  pumpReads h (modLink h (fun l => { l with reads := l.reads.filter fun r => r.tag != tag }) s)

/-- Reads of a function abandoned, with the reason of R116 to fail their queues by; 0 for a function-level reset (R105). (DEDUCED, log 33) -/
def abandonReads (h : HostId) (fs : Fn → Bool) (why : Nat) (s : State) : State :=
  modLink h (fun l => { l with
    reads := l.reads.map fun r => if fs r.fn ∧ !r.quarantined ∧ !r.abandoned then { r with abandoned := true, why := why } else r
    readsDue := l.readsDue.filter fun e => !fs e.1 }) s

end Sys2Proof.Machine
end

