-- ==== Sys2Proof/Machine/Parse.lean ====
section
/-! DEFINITION. Parse.lean: node records, the walk of the parse graph, the punt policers, and the parse commands (chapter 6). -/

namespace Sys2Proof.Machine
open Sys2Proof

/-! Node records (R137 to R139) -/

/-- Word i of a node record. -/
def nodeWord (n : List Nat) (i : Nat) : Nat := n.getD i 0
/-- A bit field of word i. -/
def nodeBits (n : List Nat) (i lo width : Nat) : Nat := bitsAt (nodeWord n i) lo width

/-- Transition k is valid. -/
def transValid (n : List Nat) (k : Nat) : Bool := bitAt (nodeWord n 6) k

/-- A valid transition's words break R139: ACT 0 or a reserved bit. -/
def badTransition (n : List Nat) (k : Nat) : Bool :=
  transValid n k && (nodeBits n (16 + 3 * k + 2) 30 2 == 0 || nodeBits n (16 + 3 * k + 2) 8 22 != 0)

/-- An extract instruction breaks R139. -/
def badExtract (n : List Nat) (i : Nat) : Bool :=
  nodeBits n (8 + i) 5 10 != 0 || (nodeBits n (8 + i) 31 1 == 1 && 2048 < nodeBits n (8 + i) 15 11 + nodeBits n (8 + i) 26 5 + 1)

/-- The record is one PARSE_NODE_WRITE refuses (R139). -/
def badNode (n : List Nat) : Bool :=
  nodeBits n 0 26 4 != 0 || nodeBits n 0 16 4 != 0 || nodeBits n 0 0 8 != 0 || nodeBits n 1 0 16 != 0 || nodeBits n 2 0 16 != 0
    || nodeBits n 3 9 4 != 0 || nodeBits n 4 10 3 != 0 || nodeBits n 5 8 22 != 0 || nodeBits n 6 16 16 != 0 || nodeWord n 7 != 0
    || 2048 < nodeBits n 2 16 11 + nodeBits n 2 27 5 + 1
    || (nodeBits n 3 31 1 == 1 && 2048 < nodeBits n 3 16 11 + nodeBits n 3 27 4 + 1)
    || (nodeBits n 4 31 1 == 1 && 2048 < nodeBits n 4 16 11 + nodeBits n 4 27 4 + 1)
    || ((upFrom 0 8).any (badExtract n)) || ((upFrom 0 16).any (badTransition n))

/-! The walk (R136, R140 to R144) -/

/-- A field of `width` bits at an absolute bit offset, in network order (R136). -/
def fieldAt (pkt : List Byte) (bit width : Nat) : Nat :=
  let n := ceilDiv (bit % 8 + width) 8
  beNat (slice pkt (bit / 8) n) / 2 ^ (8 * n - bit % 8 - width) % 2 ^ width

/-- The absolute byte at which a read of `width` bits at bit offset `off` from the cursor ends. -/
def fieldEnd (cursor off width : Nat) : Nat := ceilDiv (8 * cursor + off + width) 8

/-- The ends of every field the node reads (R140 step 2). -/
def readEnds (n : List Nat) (cursor : Nat) : List Nat :=
  (if nodeWord n 6 % 65536 = 0 then [] else [fieldEnd cursor (nodeBits n 2 16 11) (nodeBits n 2 27 5 + 1)])
  ++ (if nodeBits n 3 31 1 = 1 then [fieldEnd cursor (nodeBits n 3 16 11) (nodeBits n 3 27 4 + 1)] else [])
  ++ (if nodeBits n 4 31 1 = 1 then [fieldEnd cursor (nodeBits n 4 16 11) (nodeBits n 4 27 4 + 1)] else [])
  ++ (((upFrom 0 8).filter fun i => nodeBits n (8 + i) 31 1 == 1).map fun i => fieldEnd cursor (nodeBits n (8 + i) 15 11) (nodeBits n (8 + i) 26 5 + 1))

/-- The advance of a node (R137, R140 step 4). -/
def advance (n : List Nat) (pkt : List Byte) (cursor : Nat) : Nat :=
  if nodeBits n 3 31 1 = 1 then
    fieldAt pkt (8 * cursor + nodeBits n 3 16 11) (nodeBits n 3 27 4 + 1) * 2 ^ nodeBits n 3 13 3 + nodeBits n 3 0 9
  else nodeBits n 3 0 9

/-- The length field disagrees with the packet (R140 step 3). -/
def lengthMismatch (n : List Nat) (pkt : List Byte) (cursor : Nat) : Bool :=
  nodeBits n 4 31 1 == 1 &&
    (let l := fieldAt pkt (8 * cursor + nodeBits n 4 16 11) (nodeBits n 4 27 4 + 1) * 2 ^ nodeBits n 4 13 3 + nodeBits n 4 0 10
     decide (pkt.length - cursor < l) || decide (l < advance n pkt cursor))

/-- The action of a node and its operand: the first equal transition, or the default (R141); 0 is none. -/
def selectAction (n : List Nat) (pkt : List Byte) (cursor : Nat) : Nat × Nat :=
  let sel := fieldAt pkt (8 * cursor + nodeBits n 2 16 11) (nodeBits n 2 27 5 + 1)
  let hit (k : Nat) : Bool := transValid n k &&
    (sel &&& nodeWord n (16 + 3 * k + 1)) == (nodeWord n (16 + 3 * k) &&& nodeWord n (16 + 3 * k + 1))
  match (upFrom 0 16).find? hit with
  | some k => (nodeBits n (16 + 3 * k + 2) 30 2, nodeBits n (16 + 3 * k + 2) 0 8)
  | none => (nodeBits n 5 30 2, nodeBits n 5 0 8)

/-- One extract instruction (R144). -/
def applyExtract (n : List Nat) (pkt : List Byte) (cursor i : Nat) (v : FieldVec) : FieldVec :=
  if nodeBits n (8 + i) 31 1 = 1 then
    let x := fieldAt pkt (8 * cursor + nodeBits n (8 + i) 15 11) (nodeBits n (8 + i) 26 5 + 1)
    { v with c := vset v.c ⟨nodeBits n (8 + i) 0 5 % 32, Nat.mod_lt _ (by decide)⟩ x }
  else v

/-- A node's effects in the order of R140 step 7. -/
def applyNode (n : List Nat) (pkt : List Byte) (cursor : Nat) (second : Bool) (v : FieldVec) : FieldVec :=
  let v1 := if nodeBits n 0 24 1 = 1 then { v with h := vset v.h ⟨nodeBits n 0 20 4 % 16, Nat.mod_lt _ (by decide)⟩ (some cursor) } else v
  let v2 := if nodeBits n 0 25 1 = 1 then { v1 with profile := nodeBits n 0 8 8 } else v1
  let v3 := { v2 with flags := v2.flags ||| nodeBits n 1 16 16, express := v2.express || (!second && nodeBits n 0 30 1 == 1) }
  (upFrom 0 8).foldl (fun v i => applyExtract n pkt cursor i v) v3

/-- How a pass ends. -/
inductive PassEnd where
  | accept (v : FieldVec)
  | recirculate (v : FieldVec) (node cursor : Nat)
  | malformed (v : FieldVec)
deriving DecidableEq, Repr

/-- A malformed end at a node (R143, R144). -/
def failAt (cause node cursor : Nat) (v : FieldVec) : PassEnd :=
  .malformed { v with cause := cause, failNode := node, failCursor := cursor, payloadOffset := cursor }

/-- The cause found at a node in steps 2 to 6 of R140; 0 for none. -/
def nodeCause (n : List Nat) (pkt : List Byte) (base cursor : Nat) (second express : Bool) : Nat :=
  let next := cursor + advance n pkt cursor
  let act := (selectAction n pkt cursor).1
  if (readEnds n cursor).any fun e => pkt.length < e then 3
  else if (readEnds n cursor).any fun e => base + 512 < e then 1
  else if lengthMismatch n pkt cursor then 5
  else if pkt.length < next then 3
  else if base + 512 < next then 1
  else if act = 0 then 4
  else if act = 3 ∧ second then 6
  else if act = 3 ∧ (express || nodeBits n 0 30 1 == 1) then 7
  else 0

/-- What a pass makes of a packet that reaches a node a direct write has spoiled (R158, R499): nothing is stated, so all of it is free. (DESIGN CHOICE, log 53) -/
def spoiltPass (n : List Nat) (pkt : List Byte) (second : Bool) (v : FieldVec) : PassEnd :=
  let x := Config.badParse n pkt
  let v' : FieldVec := { v with
    c := Vector.ofFn fun i => x (16 + i.val) % 2 ^ 32
    h := Vector.ofFn fun i => if x (48 + i.val) % 2 = 0 then none else some (x (64 + i.val) % (pkt.length + 1))
    profile := x 1 % 256, flags := x 2 % 65536, express := if second then v.express else x 3 % 2 == 1, payloadOffset := x 4 % (pkt.length + 1) }
  if x 0 % 3 = 0 then .accept v'
  else if x 0 % 3 = 1 ∧ !second then .recirculate v' (x 5 % 256) (x 6 % (pkt.length + 1))
  else .malformed { v' with cause := 1 + x 7 % 7, failNode := x 5 % 256, failCursor := x 6 % (pkt.length + 1) }

/-- One pass of the walk; `fuel` is the number of nodes that may still be visited, 32 at the start of a pass. (DESIGN CHOICE, log 53) -/
def walk (nodes : Tbl (List Nat)) (dir : Nat) (pkt : List Byte) (base : Nat) (second : Bool) : (fuel node cursor : Nat) → FieldVec → PassEnd
  | 0, node, cursor, v => failAt 2 node cursor { v with nodes := v.nodes + 1 }
  | fuel + 1, node, cursor, v0 =>
    let v := { v0 with nodes := v0.nodes + 1 }
    let n := Tbl.getD nodes (dir * 256 + node) []
    if badNode n then spoiltPass n pkt second v
    else if nodeBits n 0 31 1 = 0 then failAt 4 node cursor v
    else
      let cause := nodeCause n pkt base cursor second v.express
      if cause ≠ 0 then failAt cause node cursor v
      else
        let v' := applyNode n pkt cursor second v
        let next := cursor + advance n pkt cursor
        match selectAction n pkt cursor with
        | (1, nxt) => walk nodes dir pkt base second fuel nxt next v'
        | (2, _) => .accept { v' with payloadOffset := next }
        | (_, nxt) => .recirculate { v' with payloadOffset := next } nxt next

/-- The first pass (R136). -/
def parseFirst (nodes : Tbl (List Nat)) (dir : Nat) (pkt : List Byte) (source epoch : Nat) : PassEnd :=
  walk nodes dir pkt 0 false 32 0 0 { FieldVec.empty with length := pkt.length, source := source, epoch := epoch }

/-- The second pass (R142). -/
def parseSecond (nodes : Tbl (List Nat)) (dir : Nat) (pkt : List Byte) (node cursor : Nat) (v : FieldVec) : PassEnd :=
  walk nodes dir pkt cursor true 32 node cursor { v with passes := 2 }

/-! Malformed actions and policers (R146, R147) -/

/-- The action of a cause; code 3 acts as DROP. -/
def malformedAction (b : ParseBank) (dir : Fin 2) (cause : Nat) : Nat :=
  let a := bitsAt b.actions[dir] (2 * cause) 2
  if a = 3 then 0 else a

/-- RATE of a policer, in packets per millisecond. -/
def puntRate (w : Nat) : Nat := min (bitsAt w 0 17) 100000
/-- BURST of a policer. -/
def puntBurst (w : Nat) : Nat := max 1 (bitsAt w 19 13)

/-- A policer's bucket brought up to an instant. -/
def fillBucket (w : Nat) (b : PuntBucket) (now : Nat) : PuntBucket :=
  ⟨min (puntBurst w * 1000000) (b.credit + (now - b.at_) * puntRate w), now⟩

/-- A packet asks a pipeline's policer: it passes when a token is present (R147). -/
def puntPolicer (p : Pipe) (s : State) : Bool × State :=
  let b := fillBucket (s.parse.banks.top.policers[p]) (s.parse.buckets[p]) (nowNs s)
  let pass := decide (1000000 ≤ b.credit)
  (pass, { s with parse := { s.parse with buckets := vset s.parse.buckets p ⟨if pass then b.credit - 1000000 else b.credit, b.at_⟩ } })

/-! The commands (R156) -/

/-- The undercoat of PARSE changed. -/
def modParse (f : ParseBank → ParseBank) (s : State) : State :=
  { s with parse := { s.parse with banks := { s.parse.banks with under := f s.parse.banks.under } } }

/-- PARSE_NODE_WRITE. -/
def parseNodeWriteDef : CmdDef where
  opcode := 0x0300
  owner := true
  objs := Obj.isDevice
  len := fun n => n == 33
  checks := fun _ p s =>
    [ (p.f 0 1 7 != 0 || p.f 0 16 16 != 0 || p.w 1 != 0 || badNode ((p.params.drop 2).map (·.toNat)), .badParam) ] ++ unitBlocked 0 s
  act := fun _ p s => reply [] (modParse (fun b => { b with nodes := Tbl.put b.nodes (p.f 0 0 1 * 256 + p.f 0 8 8) ((p.params.drop 2).map (·.toNat)) }) s)

/-- PARSE_NODE_READ. -/
def parseNodeReadDef : CmdDef where
  opcode := 0x0301
  owner := true
  objs := Obj.isDevice
  longResult := true
  len := fun n => n == 1
  checks := fun _ p _ => [(p.f 0 1 7 != 0 || p.f 0 16 16 != 0 || p.w 1 != 0, .badParam)]
  act := fun _ p s =>
    let b := if p.topcoat then s.parse.banks.top else s.parse.banks.under
    replyLong ((upFrom 0 64).map (nodeWord (Tbl.getD b.nodes (p.f 0 0 1 * 256 + p.f 0 8 8) []))) s

/-- The two directions as array indices. -/
def dirIx (n : Nat) : Fin 2 := ⟨n % 2, Nat.mod_lt _ (by decide)⟩
/-- A pipeline's index from direction and number. -/
def pipeIx (dir n : Nat) : Pipe := ⟨(16 * (dir % 2) + n % 16), by omega⟩

/-- A two-bit action put at a cause's place (R158). -/
def putAction (w cause a : Nat) : Nat := w - bitsAt w (2 * cause) 2 * 4 ^ cause + a * 4 ^ cause

/-- PARSE_MALFORMED_SET. -/
def parseMalformedSetDef : CmdDef where
  opcode := 0x0302
  owner := true
  objs := Obj.isDevice
  len := fun n => n == 2
  checks := fun _ p s =>
    [ (p.f 0 1 7 != 0 || p.f 0 12 4 != 0 || p.f 0 18 6 != 0 || p.f 0 25 7 != 0 || p.f 1 16 16 != 0 || p.f 2 17 15 != 0 || p.f 3 13 19 != 0, .badParam),
      (7 < p.f 0 8 4 || p.f 0 16 2 == 3 || (p.f 0 8 4 == 0 && !p.b 0 24), .badParam),
      (p.b 0 24 && (100000 < p.w 2 || p.w 3 == 0 || 8191 < p.w 3), .badParam) ] ++ unitBlocked 0 s
  act := fun _ p s => reply [] (modParse (fun b =>
    let b1 := if p.f 0 8 4 = 0 then b else { b with actions := vmod b.actions (dirIx (p.f 0 0 1)) fun w => putAction w (p.f 0 8 4) (p.f 0 16 2) }
    if p.b 0 24 then
      (upFrom 0 16).foldl (fun b k => if p.b 1 k then { b with policers := vset b.policers (pipeIx (p.f 0 0 1) k) (p.w 3 * 2 ^ 19 + p.w 2) } else b) b1
    else b1) s)

/-- PARSE_NODE_WRITE. -/
def execParseNodeWrite (p : Packet) (s : State) : Host.Outcome State Fault Refusal := .next (runCmd parseNodeWriteDef (.parseNodeWrite p) p s)
/-- PARSE_NODE_READ. -/
def execParseNodeRead (p : Packet) (s : State) : Host.Outcome State Fault Refusal := .next (runCmd parseNodeReadDef (.parseNodeRead p) p s)
/-- PARSE_MALFORMED_SET. -/
def execParseMalformedSet (p : Packet) (s : State) : Host.Outcome State Fault Refusal := .next (runCmd parseMalformedSetDef (.parseMalformedSet p) p s)

/-! The default graph (R157) -/

/-- Node 0 of the default graph: H0, C0 to C4 from the Ethernet header, advance 14, ACCEPT. -/
def defaultNode : List Nat :=
  [0x81000000, 0, 0, 14, 0, 0x80000000, 0, 0,
   0xFC000000, 0xBC100001, 0xFC180002, 0xBC280003, 0xBC300004, 0, 0, 0] ++ List.replicate 48 0

/-- A bank with the default graph. -/
def defaultGraph : ParseBank := { ParseBank.reset with nodes := [(0, defaultNode), (256, defaultNode)] }

end Sys2Proof.Machine
end

