-- ==== Sys2Proof/Machine/Tables.lean ====
section
/-! DEFINITION. Tables.lean: action records, the exact-match table and the prefix tables, and their commands (chapter 7). -/

namespace Sys2Proof.Machine
open Sys2Proof

/-- The tables changed. -/
def modTables (f : Tables → Tables) (s : State) : State := { s with tables := f s.tables }
/-- The exact-match table changed. -/
def modEm (f : Em → Em) (s : State) : State := modTables (fun t => { t with em := f t.em }) s

/-! Action records (R165) -/

/-- KIND of an action record. -/
def actKind (a : List Nat) : Nat := bitsAt (a.getD 0 0) 28 3
/-- VALID. -/
def actValid (a : List Nat) : Bool := bitAt (a.getD 0 0) 31
/-- A reserved bit is set, or KIND is 6 or 7. -/
def badAction (a : List Nat) : Bool :=
  bitAt (a.getD 0 0) 27 || bitsAt (a.getD 0 0) 16 6 != 0 || bitsAt (a.getD 3 0) 17 14 != 0 || 6 ≤ actKind a

/-- The action record of an index; all 0 until written. -/
def actionAt (s : State) (i : Nat) : List Nat := Tbl.getD s.tables.actions i [0, 0, 0, 0]

/-- CLASS_ACTION_WRITE (R165). -/
def classActionWriteDef : CmdDef where
  opcode := 0x0306
  owner := true
  objs := Obj.isDevice
  len := fun n => n == 3
  checks := fun _ p _ => [(p.f 0 18 14 != 0 || p.w 1 != 0 || badAction ((upFrom 2 4).map p.w), .badParam)]
  act := fun _ p s => reply [] (modTables (fun t => { t with actions := Tbl.put t.actions (p.f 0 0 18) ((upFrom 2 4).map p.w) }) s)

/-- CLASS_ACTION_WRITE. -/
def execClassActionWrite (p : Packet) (s : State) : Host.Outcome State Fault Refusal := .next (runCmd classActionWriteDef (.classActionWrite p) p s)

/-! The placement hash (R173) -/

/-- The keyed hash over 64-bit words. -/
def mix (seed : Nat) : List Nat → Nat
  | [] => seed
  | w :: r =>
    let h := (seed ^^^ w) * 0x9E3779B97F4A7C15 % 2 ^ 64
    mix (h ^^^ (h / 2 ^ 29)) r

/-- The five 64-bit words of a 320-bit key, k0 first. -/
def keyWords (key : Nat) : List Nat := [bitsAt key 256 64, bitsAt key 192 64, bitsAt key 128 64, bitsAt key 64 64, bitsAt key 0 64]

/-- A key's bucket and overflow set under a seed. -/
def emHome (seed key : Nat) : Nat × Nat :=
  let h := mix seed (keyWords key)
  (bitsAt h 44 20, bitsAt h 30 14)

/-- The value of a seed register. -/
def emSeed (e : Em) (b : Bool) : Nat := if b then e.seedB else e.seedA

/-- Where an entry stands: in a bucket or in an overflow set, and its index × 4 + slot. -/
structure EmLoc where
  overflow : Bool
  place : Nat
deriving DecidableEq, Repr

/-- A place with the wanted key in four slots from a base. -/
def emSearch (t : Tbl EmEntry) (base key : Nat) : Option Nat :=
  (upFrom (4 * base) 4).find? fun k => match Tbl.find t k with
    | some e => e.key == key
    | none => false

/-- A free slot of four from a base. -/
def emFreeSlot (t : Tbl EmEntry) (base : Nat) : Option Nat := (upFrom (4 * base) 4).find? fun k => (Tbl.find t k).isNone

/-- The seeds that place entries, in the order insertion tries them (R175). -/
def emOrder (e : Em) : List Bool := if e.mode = 0 then [e.newB] else [e.newB, !e.newB]

/-- Where a key stands (R174). -/
def emFind (e : Em) (key : Nat) : Option EmLoc :=
  (emOrder e).findSome? fun b =>
    let h := emHome (emSeed e b) key
    match emSearch e.buckets h.1 key with
    | some k => some ⟨false, k⟩
    | none => (emSearch e.overflow h.2 key).map fun k => ⟨true, k⟩

/-- The entry at a location. -/
def emAt (e : Em) (l : EmLoc) : Option EmEntry := Tbl.find (if l.overflow then e.overflow else e.buckets) l.place

/-- The entry written at a location. -/
def emPut (l : EmLoc) (x : EmEntry) (e : Em) : Em :=
  if l.overflow then { e with overflow := Tbl.put e.overflow l.place x } else { e with buckets := Tbl.put e.buckets l.place x }

/-- VALID cleared at a location. -/
def emDrop (l : EmLoc) (e : Em) : Em :=
  if l.overflow then { e with overflow := Tbl.del e.overflow l.place } else { e with buckets := Tbl.del e.buckets l.place }

/-- The first free location of a key under one seed: its bucket, then its overflow set. -/
def emFreeUnder (e : Em) (key : Nat) (b : Bool) : Option (EmLoc × Bool) :=
  let h := emHome (emSeed e b) key
  match emFreeSlot e.buckets h.1 with
  | some k => some (⟨false, k⟩, b)
  | none => (emFreeSlot e.overflow h.2).map fun k => (⟨true, k⟩, b)

/-- The first free location in the order of R175. -/
def emFree (e : Em) (key : Nat) : Option (EmLoc × Bool) := (emOrder e).findSome? (emFreeUnder e key)

/-- RESULT words of a location (R178). -/
def emResult (l : EmLoc) (seedB : Bool) : List Nat := [l.place / 4, b2n l.overflow + 2 * b2n seedB]

/-- EM_INSERT's status, result and effect (R175). -/
def emInsert (key : Nat) (action : List Nat) (s : State) : Status × List Nat × State :=
  let e := s.tables.em
  if (emFind e key).isSome then (.entryExists, [], s)
  else match emFree e key with
    | some (l, b) => (.ok, emResult l b, modEm (emPut l ⟨key, action, b⟩) s)
    | none => (if e.mode = 1 then .busy else .tableFullRehash, [], s)

/-- EM_UPDATE's status, result and effect (R175). -/
def emUpdate (key : Nat) (action : List Nat) (s : State) : Status × List Nat × State :=
  match emFind s.tables.em key with
  | none => (.entryAbsent, [], s)
  | some l => match emAt s.tables.em l with
    | none => (.entryAbsent, [], s)
    | some x => (.ok, emResult l x.seedB, modEm (emPut l { x with action := action }) s)

/-- EM_DELETE's status and effect (R175). -/
def emDelete (key : Nat) (s : State) : Status × List Nat × State :=
  match emFind s.tables.em key with
  | none => (.entryAbsent, [], s)
  | some l => (.ok, [], modEm (emDrop l) s)

/-- SPILL of a bucket: an entry placed for it stands in the overflow store (R172, R175). -/
def emSpill (e : Em) (bucket : Nat) : Bool := e.overflow.any fun x => (emHome (emSeed e x.2.seedB) x.2.key).1 == bucket

/-- The 64-byte entry as 16 words (R172). -/
def emWords (e : Em) (l : EmLoc) (x : EmEntry) : List Nat :=
  (upFrom 0 10).map (fun i => leNat (slice (beBytes 40 x.key) (4 * i) 4))
    ++ [2 ^ 31 + b2n (!l.overflow && l.place % 4 == 0 && emSpill e (l.place / 4)) * 2 ^ 30 + b2n x.seedB * 2 ^ 29, 0]
    ++ (upFrom 0 4).map fun i => x.action.getD i 0

/-- EM_LOOKUP's status, long result and (no) effect. -/
def emLookup (key : Nat) (s : State) : Status × List Nat × State :=
  match emFind s.tables.em key with
  | none => (.entryAbsent, [], s)
  | some l => match emAt s.tables.em l with
    | none => (.entryAbsent, [], s)
    | some x => (.ok, emWords s.tables.em l x ++ emResult l x.seedB, s)

/-- KEY of the parameters: 40 bytes, byte 0 holding the top bits. -/
def Packet_key (p : Packet) : Nat := beNat (slice p.bytes 0 40)

/-- An operation's status as a refusal when it is not OK (R71: codes specific to the opcode come last). -/
def opRefusal (r : Status × List Nat × State) : List (Bool × Status) := [(r.1 != .ok, r.1)]

/-- Checks of an entry's control words and action (R172). -/
def entryChecks (p : Packet) : List (Bool × Status) :=
  [(p.w 10 != 0 || p.w 11 != 0 || badAction ((upFrom 12 4).map p.w) || actKind ((upFrom 12 4).map p.w) == 5, .badParam)]

/-- EM_INSERT (R175, R178). -/
def emInsertDef : CmdDef where
  opcode := 0x0400
  owner := true
  objs := Obj.isDevice
  len := fun n => n == 8
  checks := fun _ p s => entryChecks p ++ opRefusal (emInsert (Packet_key p) ((upFrom 12 4).map p.w) s)
  act := fun _ p s => let r := emInsert (Packet_key p) ((upFrom 12 4).map p.w) s; reply r.2.1 r.2.2

/-- EM_UPDATE (R175, R178). -/
def emUpdateDef : CmdDef where
  opcode := 0x0401
  owner := true
  objs := Obj.isDevice
  len := fun n => n == 8
  checks := fun _ p s => entryChecks p ++ opRefusal (emUpdate (Packet_key p) ((upFrom 12 4).map p.w) s)
  act := fun _ p s => let r := emUpdate (Packet_key p) ((upFrom 12 4).map p.w) s; reply r.2.1 r.2.2

/-- EM_DELETE (R175, R178). -/
def emDeleteDef : CmdDef where
  opcode := 0x0402
  owner := true
  objs := Obj.isDevice
  len := fun n => n == 5
  checks := fun _ p s => opRefusal (emDelete (Packet_key p) s)
  act := fun _ p s => reply [] (emDelete (Packet_key p) s).2.2

/-- EM_LOOKUP (R178). -/
def emLookupDef : CmdDef where
  opcode := 0x0403
  owner := true
  objs := Obj.isDevice
  longResult := true
  len := fun n => n == 5
  checks := fun _ p s => opRefusal (emLookup (Packet_key p) s)
  act := fun _ p s => replyLong (emLookup (Packet_key p) s).2.1 s

/-- EM_REHASH (R176, R177): the idle seed register takes SEED, or a random value for 0. -/
def emRehashDef : CmdDef where
  opcode := 0x0404
  owner := true
  objs := Obj.isDevice
  len := fun n => n == 2
  checks := fun _ p s =>
    [ (p.f 2 1 31 != 0 || p.w 3 != 0, .badParam),
      (s.tables.em.mode == 0 && p.b 2 0, .badParam),
      (s.tables.em.mode == 2 && !p.b 2 0, .badParam),
      (s.tables.em.mode == 1, .busy),
      (opLimitReached p s, .noResource) ]
  act := fun _ p s =>
    let e := s.tables.em
    let seed := if p.d 0 = 0 then freshNat s % 2 ^ 64 else p.d 0
    let e' := if p.b 2 0 then e else if e.newB then { e with seedA := seed, newB := false } else { e with seedB := seed, newB := true }
    startOp 0x0404 p (.emRehash seed) 1040 0 (modEm (fun _ => { e' with mode := 1, moved := 0, stranded := 0 }) (drawn1 s))

/-- EM_INSERT. -/
def execEmInsert (p : Packet) (s : State) : Host.Outcome State Fault Refusal := .next (runCmd emInsertDef (.emInsert p) p s)
/-- EM_UPDATE. -/
def execEmUpdate (p : Packet) (s : State) : Host.Outcome State Fault Refusal := .next (runCmd emUpdateDef (.emUpdate p) p s)
/-- EM_DELETE. -/
def execEmDelete (p : Packet) (s : State) : Host.Outcome State Fault Refusal := .next (runCmd emDeleteDef (.emDelete p) p s)
/-- EM_LOOKUP. -/
def execEmLookup (p : Packet) (s : State) : Host.Outcome State Fault Refusal := .next (runCmd emLookupDef (.emLookup p) p s)
/-- EM_REHASH. -/
def execEmRehash (p : Packet) (s : State) : Host.Outcome State Fault Refusal := .next (runCmd emRehashDef (.emRehash p) p s)

/-! Steps of a rehash (R176, R177) -/

/-- One entry moved to the new seed's bucket or set, or left where it stands. -/
def emMove (l : EmLoc) (x : EmEntry) (e : Em) : Em :=
  if x.seedB = e.newB then e
  else match emFreeUnder e x.key e.newB with
    | some (l', b) => { emDrop l (emPut l' { x with seedB := b } e) with moved := e.moved + 1 }
    | none => e

/-- The entries of places `first` to `first + 4095`, moved. -/
def emWalk (overflow : Bool) (first : Nat) (e : Em) : Em :=
  let src := if overflow then e.overflow else e.buckets
  ((src.filter fun x => first ≤ x.1 && x.1 < first + 4096)).foldl (fun e x => emMove ⟨overflow, x.1⟩ x.2 e) e

/-- Step n of a rehash: 1,024 buckets, and from step 1,024 on 1,024 overflow sets. -/
def emStep (n : Nat) (e : Em) : Em := if n < 1024 then emWalk false (4096 * n) e else emWalk true (4096 * (n - 1024)) e

/-- Entries still under the old seed. -/
def emOld (e : Em) : Nat := Tbl.countIf e.buckets (fun _ x => x.seedB != e.newB) + Tbl.countIf e.overflow (fun _ x => x.seedB != e.newB)

/-- The walk ends or is cancelled: SINGLE under the new seed, or DUAL with entries stranded. -/
def emEnd (cancelled : Bool) (e : Em) : Em :=
  if emOld e = 0 ∧ !cancelled then { e with mode := 0, stranded := 0 } else { e with mode := 2, stranded := emOld e }

/-! The prefix tables (R179 to R183) -/

/-- One family's table. -/
def lpmOf (s : State) (v6 : Bool) : Lpm := if v6 then s.tables.lpm6 else s.tables.lpm4
/-- One family's table changed. -/
def modLpm (v6 : Bool) (f : Lpm → Lpm) (s : State) : State :=
  modTables (fun t => if v6 then { t with lpm6 := f t.lpm6 } else { t with lpm4 := f t.lpm4 }) s

/-- Address width of a family. -/
def addrBits (v6 : Bool) : Nat := if v6 then 128 else 32
/-- Width of a skim block. -/
def blockBits (v6 : Bool) : Nat := if v6 then 24 else 16
/-- Routes a family holds. -/
def lpmCapacity (v6 : Bool) : Nat := if v6 then 1048576 else 2097152
/-- Entries of a route bucket. -/
def bucketSlots (v6 : Bool) : Nat := if v6 then 2 else 8

/-- The top `len` bits of an address. -/
def topBits (v6 : Bool) (a len : Nat) : Nat := a / 2 ^ (addrBits v6 - len)
/-- A route's prefix contains an address. -/
def routeHas (v6 : Bool) (r : Route) (a : Nat) : Bool := topBits v6 a r.len == topBits v6 r.prefix_ r.len
/-- A route covers some address of a block (R180). -/
def coversBlock (v6 : Bool) (r : Route) (block : Nat) : Bool :=
  let k := min r.len (blockBits v6)
  topBits v6 r.prefix_ k == block / 2 ^ (blockBits v6 - k)

/-- Candidate bucket of a route under a seed (R179). -/
def lpmHome (v6 : Bool) (seed prefix_ len : Nat) : Nat :=
  if v6 then bitsAt (mix seed [bitsAt prefix_ 64 64, bitsAt prefix_ 0 64, len]) 44 20
  else bitsAt (mix seed [prefix_ * 2 ^ 32 + len]) 45 19

/-- A set of lengths as a bit mask. -/
def lenMask (ls : List Nat) : Nat := ls.foldl (fun m l => m ||| 2 ^ l) 0
/-- The lengths of a mask, longest first. -/
def maskLens (v6 : Bool) (m : Nat) : List Nat := ((upFrom 1 (addrBits v6)).filter (bitAt m)).reverse

/-- A block's own lengths: those of the owner's routes that cover it (R183). -/
def ownMask (v6 : Bool) (t : Lpm) (block : Nat) : Nat :=
  lenMask ((t.routes.filter fun r => !r.pushed && r.len != 0 && coversBlock v6 r block).map (·.len))

/-- The lengths a block's filter entry should mark: its own, or from s4 up where it is pushed (R180, R183). -/
def wantMask (v6 : Bool) (t : Lpm) (block : Nat) : Nat :=
  match Tbl.find t.pushed block with
  | none => ownMask v6 t block
  | some s4 => ownMask v6 t block / 2 ^ s4 * 2 ^ s4 ||| 2 ^ s4

/-- Every length the family holds: set 255 (R180). -/
def unionMask (t : Lpm) : Nat := lenMask ((t.routes.filter fun r => r.len != 0).map (·.len))

/-- The set index of an IPv6 block. -/
def blockSet (t : Lpm) (block : Nat) : Nat := ((t.blockSets.filter fun e => e.1 ≤ block).getLast?.map (·.2)).getD 0

/-- The filter entry of a block, as a mask of lengths. -/
def filterMask (v6 : Bool) (t : Lpm) (block : Nat) : Nat :=
  if v6 then
    match blockSet t block with
    | 0 => 0
    | 255 => unionMask t
    | i => Tbl.getD t.sets i 0
  else wantMask v6 t block

/-- The set an IPv6 block of wanted lengths moves to: the one that holds them, a free one, or 255 (R180). (DEDUCED, log 57) -/
def chooseSet (t : Lpm) (mask : Nat) : Nat × Lpm :=
  if mask = 0 then (0, t)
  else match Tbl.search t.sets (fun _ m => m == mask) with
    | some (i, _) => (i, t)
    | none => match (upFrom 1 254).find? fun i => !Tbl.has t.sets i with
      | some i => (i, { t with sets := Tbl.put t.sets i mask })
      | none => (255, t)

/-- The blocks, within a span, at which the wanted lengths can change: the span's start and the edges of routes and pushed blocks inside it. -/
def spanEdges (t : Lpm) (first last : Nat) : List Nat :=
  let edges := t.routes.flatMap (fun r => let k := min r.len 24
      [topBits true r.prefix_ k * 2 ^ (24 - k), (topBits true r.prefix_ k + 1) * 2 ^ (24 - k)])
    ++ t.pushed.flatMap (fun e => [e.1, e.1 + 1])
  first :: (edges.filter fun e => first < e && e ≤ last)

/-- Sets that no block uses any more become free (R180). (DEDUCED, log 57) -/
def freeSets (t : Lpm) : Lpm := { t with sets := Tbl.keepIf t.sets fun i _ => t.blockSets.any fun e => e.2 == i }

/-- The blocks of a span moved to the sets of their wanted lengths (R180). -/
def refreshSpan (first last : Nat) (t : Lpm) : Lpm :=
  let after := blockSet t (last + 1)
  let t1 := { t with blockSets := Tbl.keepIf t.blockSets fun k _ => k < first || last + 1 < k }
  let t2 := freeSets { t1 with blockSets := if last + 1 < 2 ^ 24 then Tbl.put t1.blockSets (last + 1) after else t1.blockSets }
  freeSets ((spanEdges t2 first last).foldl (fun t b =>
    let c := chooseSet t (wantMask true t b)
    { c.2 with blockSets := Tbl.put c.2.blockSets b c.1 }) t2)

/-- The filter entries of a route's span brought up to date. -/
def refreshFilter (v6 : Bool) (prefix_ len : Nat) (t : Lpm) : Lpm :=
  if v6 then
    let k := min len 24
    refreshSpan (topBits true prefix_ k * 2 ^ (24 - k)) ((topBits true prefix_ k + 1) * 2 ^ (24 - k) - 1) t
  else t

/-- Routes in a bucket. -/
def bucketUsed (t : Lpm) (b : Nat) : Nat := (t.routes.filter fun r => r.bucket == some b).length
/-- Routes in the spill area. -/
def spillUsed (t : Lpm) : Nat := (t.routes.filter fun r => r.bucket.isNone).length

/-- A place made free in a bucket by moving residents to their alternates, each victim a free choice, at most `fuel` moves (R179). (DEDUCED, log 57) -/
def displace (v6 : Bool) : (fuel draw bucket : Nat) → Lpm → Option Lpm
  | 0, _, _, _ => none
  | fuel + 1, draw, b, t =>
    let here := t.routes.filter fun r => r.bucket == some b
    match here[Config.freeNat draw % here.length]? with
    | none => some t
    | some r =>
      let c1 := lpmHome v6 t.seed1 r.prefix_ r.len
      let alt := if c1 = b then lpmHome v6 t.seed2 r.prefix_ r.len else c1
      let move (t : Lpm) : Lpm := { t with routes := t.routes.map fun x => if x.prefix_ = r.prefix_ ∧ x.len = r.len then { x with bucket := some alt } else x }
      if bucketUsed t alt < bucketSlots v6 then some (move t)
      else (displace v6 fuel (draw + 1) alt t).map move

/-- A new route placed in c1 or c2, after displacement, or in the spill area; none when the spill area is full (R179). (DEDUCED, log 57) -/
def placeRoute (v6 : Bool) (draw : Nat) (r : Route) (t : Lpm) : Option Lpm :=
  let c1 := lpmHome v6 t.seed1 r.prefix_ r.len
  let c2 := lpmHome v6 t.seed2 r.prefix_ r.len
  let ok1 := decide (bucketUsed t c1 < bucketSlots v6)
  let ok2 := decide (bucketUsed t c2 < bucketSlots v6)
  let add (b : Option Nat) (t : Lpm) : Lpm := { t with routes := t.routes ++ [{ r with bucket := b }] }
  if ok1 && ok2 then some (add (some (if Config.freeNat draw % 2 = 0 then c1 else c2)) t)
  else if ok1 then some (add (some c1) t)
  else if ok2 then some (add (some c2) t)
  else
    let b := if Config.freeNat draw % 2 = 0 then c1 else c2
    match displace v6 64 (draw + 1) b t with
    | some t' => some (add (some b) t')
    | none => if spillUsed t < 512 then some (add none t) else none

/-- The route of a prefix and length. -/
def routeAt (t : Lpm) (prefix_ len : Nat) : Option Route := t.routes.find? fun r => r.prefix_ == prefix_ && r.len == len
/-- A route removed. -/
def dropRoute (prefix_ len : Nat) (t : Lpm) : Lpm := { t with routes := t.routes.filter fun r => !(r.prefix_ == prefix_ && r.len == len) }

/-- The longest of the owner's routes shorter than `len` that contains a prefix (R183). -/
def coveringRoute (v6 : Bool) (t : Lpm) (prefix_ len : Nat) : Option Route :=
  (t.routes.filter fun r => !r.pushed && r.len < len && r.len != 0 && routeHas v6 r prefix_).foldl (fun best r =>
    match best with
    | none => some r
    | some b => if b.len < r.len then some r else best) none

/-- The prefixes of length s4 in a block that have no owner's route of that length (R183). -/
def pushTargets (v6 : Bool) (t : Lpm) (block s4 : Nat) : List Nat :=
  ((upFrom 0 (2 ^ (s4 - blockBits v6))).map fun i => (block * 2 ^ (s4 - blockBits v6) + i) * 2 ^ (addrBits v6 - s4)).filter fun x =>
    match routeAt t x s4 with
    | some r => r.pushed
    | none => true

/-- A block's pushed routes written afresh for s4; none when one cannot be placed (R183). -/
def writePushes (v6 : Bool) (draw block s4 : Nat) (t : Lpm) : Option Lpm :=
  let inBlock (r : Route) : Bool := r.pushed && topBits v6 r.prefix_ (blockBits v6) == block
  let t0 := { t with routes := t.routes.filter fun r => !(inBlock r && r.len != s4) }
  let upd (t : Lpm) (x : Nat) : Option Lpm :=
    let c := coveringRoute v6 t x s4
    let r : Route := { prefix_ := x, len := s4, pushed := true, noact := c.isNone, action := (c.map (·.action)).getD 0, bucket := none }
    match routeAt t x s4 with
    | some old => some { t with routes := t.routes.map fun y => if y.prefix_ = x ∧ y.len = s4 then { r with bucket := old.bucket } else y }
    | none => if t.routes.length < lpmCapacity v6 then placeRoute v6 (draw + t.routes.length) r t else none
  ((pushTargets v6 t block s4).foldl (fun (a : Option Lpm) x => a.bind fun t => upd t x) (some t0)).map fun t => { t with pushed := Tbl.put t.pushed block s4 }

/-- A block is no longer pushed: its pushed routes go and its own lengths return (R183). -/
def unpush (v6 : Bool) (block : Nat) (t : Lpm) : Lpm :=
  { t with
    routes := t.routes.filter fun r => !(r.pushed && topBits v6 r.prefix_ (blockBits v6) == block)
    pushed := Tbl.del t.pushed block }

/-- Pushed blocks within a route's span kept consistent with it (R183). -/
def keepPushes (v6 : Bool) (draw : Nat) (r : Route) (t : Lpm) : Lpm :=
  (t.pushed.filter fun e => coversBlock v6 r e.1).foldl (fun t e => match writePushes v6 draw e.1 e.2 t with
    | some t' => t'
    | none => unpush v6 e.1 t) t

/-- LPM_ADD's status and effect (R179, R182, R183). -/
def lpmAdd (v6 force : Bool) (prefix_ len action : Nat) (s : State) : Status × List Nat × State :=
  let t := lpmOf s v6
  let fin (t : Lpm) : Status × List Nat × State :=
    let r : Route := { prefix_ := prefix_, len := len, pushed := false, noact := false, action := action, bucket := none }
    (.ok, [], modLpm v6 (fun _ => refreshFilter v6 prefix_ len (keepPushes v6 (s.drawn + 1000) r t)) (drawn1 s))
  if len = 0 then
    if t.default_.isSome && !force then (.entryExists, [], s) else (.ok, [], modLpm v6 (fun t => { t with default_ := some action }) s)
  else match routeAt t prefix_ len with
    | some old =>
      let set (t : Lpm) : Lpm := { t with routes := t.routes.map fun x =>
        if x.prefix_ = prefix_ ∧ x.len = len then { x with pushed := false, noact := false, action := action } else x }
      if old.pushed || force then fin (set t) else (.entryExists, [], s)
    | none =>
      if lpmCapacity v6 ≤ t.routes.length then (.noResource, [], s)
      else match placeRoute v6 s.drawn { prefix_ := prefix_, len := len, pushed := false, noact := false, action := action, bucket := none } t with
        | none => (.noResource, [], s)
        | some t' => fin t'

/-- LPM_DELETE's status and effect (R182, R183). -/
def lpmDelete (v6 : Bool) (prefix_ len : Nat) (s : State) : Status × List Nat × State :=
  let t := lpmOf s v6
  if len = 0 then
    if t.default_.isSome then (.ok, [], modLpm v6 (fun t => { t with default_ := none }) s) else (.entryAbsent, [], s)
  else match routeAt t prefix_ len with
    | some r => if r.pushed then (.entryAbsent, [], s)
        else (.ok, [], modLpm v6 (fun t => refreshFilter v6 prefix_ len (keepPushes v6 (s.drawn + 1000) r (dropRoute prefix_ len t))) (drawn1 s))
    | none => (.entryAbsent, [], s)

/-- The route a list of lengths finds, longest first, and how many probes it took; NOACT ends the search (R181, R183). -/
def probe (v6 : Bool) (t : Lpm) (a : Nat) : List Nat → Option Route × Nat
  | [] => (none, 0)
  | l :: r =>
    match t.routes.find? fun x => x.len == l && routeHas v6 x a with
    | some x => (some x, 1)
    | none => let q := probe v6 t a r; (q.1, q.2 + 1)

/-- LPM_LOOKUP's status and long result (R184). -/
def lpmLookup (v6 : Bool) (a : Nat) (s : State) : Status × List Nat × State :=
  let t := lpmOf s v6
  let q := probe v6 t a (maskLens v6 (filterMask v6 t (topBits v6 a (blockBits v6))))
  match q.1.filter (fun r => !r.noact), t.default_ with
  | some r, _ => (.ok, [r.len, r.action, 0, q.2], s)
  | none, some d => (.ok, [0, d, 1, q.2], s)
  | none, none => (.entryAbsent, [], s)

/-- PREFIX or address of the parameters, in network order (R184). -/
def prefixOf (p : Packet) : Nat := if p.b 0 0 then beNat (slice p.bytes 8 16) else beNat (slice p.bytes 8 4)

/-- Checks of the prefix commands' parameters (R184). -/
def prefixChecks (withLen withAction : Bool) (p : Packet) : List (Bool × Status) :=
  [ (p.f 0 1 7 != 0 || p.f 0 16 16 != 0 || p.f 1 18 14 != 0 || (!withAction && p.w 1 != 0)
      || (!p.b 0 0 && (p.w 3 != 0 || p.w 4 != 0 || p.w 5 != 0)), .badParam),
    (withLen && (addrBits (p.b 0 0) < p.f 0 8 8 || prefixOf p % 2 ^ (addrBits (p.b 0 0) - p.f 0 8 8) != 0), .badParam) ]

/-- LPM_ADD (R182, R184). -/
def lpmAddDef : CmdDef where
  opcode := 0x0405
  owner := true
  objs := Obj.isDevice
  len := fun n => n == 3
  checks := fun _ p s => prefixChecks true true p ++ opRefusal (lpmAdd (p.b 0 0) p.force (prefixOf p) (p.f 0 8 8) (p.w 1) s)
  act := fun _ p s => reply [] (lpmAdd (p.b 0 0) p.force (prefixOf p) (p.f 0 8 8) (p.w 1) s).2.2

/-- LPM_DELETE (R182, R184). -/
def lpmDeleteDef : CmdDef where
  opcode := 0x0406
  owner := true
  objs := Obj.isDevice
  len := fun n => n == 3
  checks := fun _ p s => prefixChecks true false p ++ opRefusal (lpmDelete (p.b 0 0) (prefixOf p) (p.f 0 8 8) s)
  act := fun _ p s => reply [] (lpmDelete (p.b 0 0) (prefixOf p) (p.f 0 8 8) s).2.2

/-- LPM_LOOKUP (R184). (DEDUCED, log 19) -/
def lpmLookupDef : CmdDef where
  opcode := 0x0407
  owner := true
  objs := Obj.isDevice
  longResult := true
  len := fun n => n == 3
  checks := fun _ p s => prefixChecks false false p ++ opRefusal (lpmLookup (p.b 0 0) (prefixOf p) s)
  act := fun _ p s => replyLong (lpmLookup (p.b 0 0) (prefixOf p) s).2.1 s

/-- A push of the block runs now. -/
def pushRuns (s : State) (v6 : Bool) (block : Nat) : Bool :=
  s.ops.any fun o => match o.kind with
    | .lpmPush f b => f == b2n v6 && b == block
    | _ => false

/-- s4: the fourth longest of the block's own lengths; none when there are at most four (R183). -/
def fourthLen (v6 : Bool) (t : Lpm) (block : Nat) : Option Nat :=
  let ls := maskLens v6 (ownMask v6 t block)
  if ls.length ≤ 4 then none else ls[3]?

/-- The routes a push would add. -/
def pushCount (v6 : Bool) (t : Lpm) (block s4 : Nat) : Nat :=
  2 ^ (s4 - blockBits v6) - (t.routes.filter fun r => r.len == s4 && coversBlock v6 r block).length

/-- LPM_LEAF_PUSH (R183, R184). -/
def lpmLeafPushDef : CmdDef where
  opcode := 0x0408
  owner := true
  objs := Obj.isDevice
  len := fun n => n == 1
  checks := fun _ p s =>
    let v6 := p.b 0 0
    let t := lpmOf s v6
    let s4 := fourthLen v6 t (p.w 1)
    [ (p.f 0 1 31 != 0 || 2 ^ blockBits v6 ≤ p.w 1, .badParam),
      ((match s4 with
        | none => true
        | some n => n ≤ blockBits v6), .badParam),
      (pushRuns s v6 (p.w 1), .busy),
      ((match s4 with
        | none => false
        | some n => 4096 < pushCount v6 t (p.w 1) n || lpmCapacity v6 < t.routes.length + pushCount v6 t (p.w 1) n), .noResource),
      (opLimitReached p s, .noResource) ]
  act := fun _ p s => startOp 0x0408 p (.lpmPush (p.f 0 0 1) (p.w 1)) 1 0 s

/-- LPM_ADD. -/
def execLpmAdd (p : Packet) (s : State) : Host.Outcome State Fault Refusal := .next (runCmd lpmAddDef (.lpmAdd p) p s)
/-- LPM_DELETE. -/
def execLpmDelete (p : Packet) (s : State) : Host.Outcome State Fault Refusal := .next (runCmd lpmDeleteDef (.lpmDelete p) p s)
/-- LPM_LOOKUP. -/
def execLpmLookup (p : Packet) (s : State) : Host.Outcome State Fault Refusal := .next (runCmd lpmLookupDef (.lpmLookup p) p s)
/-- LPM_LEAF_PUSH. -/
def execLpmLeafPush (p : Packet) (s : State) : Host.Outcome State Fault Refusal := .next (runCmd lpmLeafPushDef (.lpmLeafPush p) p s)

/-- The step of a push: the pushed routes written and the filter entry cut, or nothing where they do not fit (R183). -/
def pushStep (v6 : Bool) (block : Nat) (s : State) : Status × State :=
  let t := lpmOf s v6
  match fourthLen v6 t block with
  | none => (.ok, s)
  | some s4 =>
    match writePushes v6 s.drawn block s4 t with
    | none => (.noResource, drawn1 s)
    | some t' => (.ok, modLpm v6 (fun _ => refreshFilter v6 (block * 2 ^ (addrBits v6 - blockBits v6)) (blockBits v6) t') (drawn1 s))

/-! TABLE_STATS (R187 ff.) -/

/-- TBL_EM_STATUS. -/
def emStatusWord (e : Em) : Nat := e.mode * 2 ^ 30 + b2n e.newB * 2 ^ 29 + (e.buckets.length + e.overflow.length) % 2 ^ 23
/-- Entries of each overflow set in use, by set. -/
def emSetFill (e : Em) : Tbl Nat := e.overflow.foldl (fun t x => Tbl.put t (x.1 / 4) (Tbl.getD t (x.1 / 4) 0 + 1)) []
/-- TBL_EM_OVERFLOW. -/
def emOverflowWord (e : Em) : Nat := Tbl.countIf (emSetFill e) (fun _ n => n == 4) * 2 ^ 17 + e.overflow.length
/-- Entries of each bucket in use, by bucket. -/
def emBucketFill (e : Em) : Tbl Nat := e.buckets.foldl (fun t x => Tbl.put t (x.1 / 4) (Tbl.getD t (x.1 / 4) 0 + 1)) []
/-- Buckets with SPILL set. -/
def emSpillCount (e : Em) : Nat :=
  ((e.overflow.map fun x => (emHome (emSeed e x.2.seedB) x.2.key).1).foldl insertNat []).length
/-- TBL_LPM_DEFAULT. -/
def lpmDefaultWord (t : Lpm) : Nat :=
  match t.default_ with
  | none => 0
  | some a => 2 ^ 31 + a
/-- TBL_LPM_STATUS. -/
def lpmStatusWord (t : Lpm) : Nat := spillUsed t * 2 ^ 22 + t.routes.length % 2 ^ 22
/-- Blocks of runs of the block map that a test of the set accepts. -/
def blocksWhere (t : Lpm) (p : Nat → Bool) : Nat :=
  ((t.blockSets.zip ((t.blockSets.drop 1).map (·.1) ++ [2 ^ 24])).foldl (fun n e => if p e.1.2 then n + (e.2 - e.1.1) else n) 0)
/-- TBL_LPM6_SETS. -/
def lpm6SetsWord (t : Lpm) : Nat := blocksWhere t (fun i => i == 255) * 256 + t.sets.length
/-- Number of lengths in a mask. -/
def lenCount (v6 : Bool) (m : Nat) : Nat := (maskLens v6 m).length
/-- Blocks whose set holds more than four lengths. -/
def longBlocks (v6 : Bool) (t : Lpm) : Nat :=
  if v6 then blocksWhere t (fun i => decide (4 < lenCount true (if i = 255 then unionMask t else Tbl.getD t.sets i 0)))
  else ((upFrom 0 65536).filter fun b => decide (4 < lenCount false (filterMask false t b))).length

/-- TABLE_STATS. -/
def tableStatsDef : CmdDef where
  opcode := 0x0409
  owner := true
  objs := Obj.isDevice
  longResult := true
  len := fun n => n == 1
  checks := fun _ p _ => [(2 < p.d 0, .badParam)]
  act := fun _ p s =>
    if p.w 0 = 0 then
      let e := s.tables.em
      let fill := emBucketFill e
      replyLong ([emStatusWord e, emOverflowWord e, e.stranded, 1048576 - fill.length] ++ ((upFrom 1 4).map fun k => Tbl.countIf fill fun _ n => n == k) ++ [emSpillCount e]) s
    else
      let v6 := p.w 0 == 2
      let t := lpmOf s v6
      replyLong ([t.routes.length, (t.routes.filter (·.pushed)).length, spillUsed t, longBlocks v6 t] ++ (if v6 then [lpm6SetsWord t] else [])) s

/-- TABLE_STATS. -/
def execTableStats (p : Packet) (s : State) : Host.Outcome State Fault Refusal := .next (runCmd tableStatsDef (.tableStats p) p s)

end Sys2Proof.Machine
end

