-- ==== Sys2Proof/Machine/Classify.lean ====
section
/-! DEFINITION. Classify.lean: key profiles, ternary rules, and the lookup stage that turns a field vector into one action (chapter 7). -/

namespace Sys2Proof.Machine
open Sys2Proof

/-- The undercoat of CLASS changed. -/
def modCls (f : ClassBank → ClassBank) (s : State) : State :=
  { s with cls := { s.cls with banks := { s.cls.banks with under := f s.cls.banks.under } } }

/-! Profiles (R162 to R164) -/

/-- Byte at an offset of a record of words. -/
def recByte (ws : List Nat) (off : Nat) : Nat := bitsAt (ws.getD (off / 4) 0) (8 * (off % 4)) 8

/-- A segment source code that R163 lists. -/
def goodSource (c : Nat) : Bool := c ≤ 0x23 || c == 0xFF

/-- The record is one CLASS_PROFILE_SET refuses (R164). -/
def badProfile (r : List Nat) : Bool :=
  let w0 := r.getD 0 0
  bitsAt w0 21 6 != 0 || bitsAt w0 12 4 != 0 || bitsAt w0 5 3 != 0 || bitsAt (r.getD 2 0) 18 14 != 0 || r.getD 3 0 != 0
    || ((upFrom 0x2E 18).any fun i => recByte r i != 0)
    || bitsAt w0 27 2 == 3 || (bitsAt w0 27 2 == 2 && 28 < bitsAt w0 16 5)
    || (bitAt w0 30 && bitsAt w0 0 5 == 0) || (bitAt w0 29 && bitsAt w0 8 4 == 0)
    || 20 < bitsAt w0 0 5 || 10 < bitsAt w0 8 4
    || ((upFrom 0x10 30).any fun i => !goodSource (recByte r i))

/-- CLASS_PROFILE_SET (R164). -/
def classProfileSetDef : CmdDef where
  opcode := 0x0305
  owner := true
  objs := Obj.isDevice
  len := fun n => n == 9
  checks := fun _ p s =>
    [(p.f 0 1 7 != 0 || p.f 0 16 16 != 0 || p.w 1 != 0 || badProfile ((upFrom 2 16).map p.w), .badParam)] ++ unitBlocked 1 s
  act := fun _ p s => reply [] (modCls (fun b => { b with profiles := Tbl.put b.profiles (p.f 0 0 1 * 256 + p.f 0 8 8) ((upFrom 2 16).map p.w) }) s)

/-- CLASS_PROFILE_SET. -/
def execClassProfileSet (p : Packet) (s : State) : Host.Outcome State Fault Refusal := .next (runCmd classProfileSetDef (.classProfileSet p) p s)

/-! Rules (R169, R170) -/

/-- KEY of a rule's parameters. -/
def ruleKey (p : Packet) : Nat := beNat (slice p.bytes 0x10 80)
/-- MASK of a rule's parameters. -/
def ruleMask (p : Packet) : Nat := beNat (slice p.bytes 0x60 80)

/-- CLASS_RULE_WRITE (R170). -/
def classRuleWriteDef : CmdDef where
  opcode := 0x0303
  owner := true
  objs := Obj.isDevice
  len := fun n => n == 22
  checks := fun _ p s =>
    [ (p.f 0 1 31 != 0 || p.f 1 15 17 != 0 || p.f 2 16 15 != 0 || p.f 3 18 14 != 0, .badParam),
      (ruleKey p &&& ruleMask p != ruleKey p, .badParam) ] ++ unitBlocked 1 s
  act := fun _ p s => reply [] (modCls (fun b => { b with
    rules := Tbl.put b.rules (p.f 0 0 1 * 32768 + p.w 1) { valid := p.b 2 31, priority := p.f 2 0 16, action := p.w 3, key := ruleKey p, mask := ruleMask p } }) s)

/-- A rule as CLASS_RULE_READ returns it: 42 words (R170). -/
def ruleWords (r : Rule) : List Nat :=
  [b2n r.valid * 2 ^ 31 + r.priority, r.action]
    ++ (upFrom 0 20).map (fun i => leNat (slice (beBytes 80 r.key) (4 * i) 4)) ++ (upFrom 0 20).map fun i => leNat (slice (beBytes 80 r.mask) (4 * i) 4)

/-- CLASS_RULE_READ (R170). -/
def classRuleReadDef : CmdDef where
  opcode := 0x0304
  owner := true
  objs := Obj.isDevice
  longResult := true
  len := fun n => n == 1
  checks := fun _ p _ => [(p.f 0 1 31 != 0 || p.f 1 15 17 != 0, .badParam)]
  act := fun _ p s =>
    let b := if p.topcoat then s.cls.banks.top else s.cls.banks.under
    replyLong (ruleWords (Tbl.getD b.rules (p.f 0 0 1 * 32768 + p.w 1) { valid := false, priority := 0, action := 0, key := 0, mask := 0 })) s

/-- CLASS_RULE_WRITE. -/
def execClassRuleWrite (p : Packet) (s : State) : Host.Outcome State Fault Refusal := .next (runCmd classRuleWriteDef (.classRuleWrite p) p s)
/-- CLASS_RULE_READ. -/
def execClassRuleRead (p : Packet) (s : State) : Host.Outcome State Fault Refusal := .next (runCmd classRuleReadDef (.classRuleRead p) p s)

/-! The lookup stage (R163, R166 to R169, R174, R181) -/

/-- The 32 bits a segment source selects (R163). -/
def segment (prof : List Nat) (v : FieldVec) (code : Nat) : Nat :=
  if h : code < 32 then v.c[code]
  else if code = 0x20 then v.flags * 65536 + v.profile * 256
  else if code = 0x21 then v.source % 65536
  else if code = 0x22 then v.length % 16384
  else if code = 0x23 then prof.getD 1 0
  else 0

/-- A key of `total` segments built from source bytes at `off`, segments from `count` on zero (R163). -/
def buildKey (prof : List Nat) (v : FieldVec) (off count total : Nat) : Nat :=
  (upFrom 0 total).foldl (fun k i => k * 2 ^ 32 + (if i < count then segment prof v (recByte prof (off + i)) % 2 ^ 32 else 0)) 0

/-- The winner among the matching rules of a direction: highest priority, then lowest index (R169). -/
def ternWinner (b : ClassBank) (dir key : Nat) : Option Rule :=
  b.rules.foldl (fun best e =>
    if e.1 / 32768 = dir ∧ e.2.valid ∧ key &&& e.2.mask = e.2.key then
      match best with
      | none => some e.2
      | some r => if r.priority < e.2.priority then some e.2 else best
    else best) none

/-- The address a profile's LPM_BASE holds (R162). -/
def lpmAddr (v6 : Bool) (v : FieldVec) (base : Nat) : Nat :=
  let c (i : Nat) : Nat := v.c.toList.getD i 0
  if v6 then ((c base * 2 ^ 32 + c (base + 1)) * 2 ^ 32 + c (base + 2)) * 2 ^ 32 + c (base + 3) else c base

/-- A finished search: the hit's action, the default route, or none (R179, R183). -/
def lpmResult (t : Lpm) (hit : Option Route) : LpmOut :=
  match hit.filter (fun r => !r.noact), t.default_ with
  | some r, _ => .action r.action
  | none, some d => .action d
  | none, none => .none

/-- MIRROR, MARK and COUNTER of a CONTINUE record merged into a final action (R167). -/
def mergeCont (cont : Option (List Nat)) (a : List Nat) : List Nat :=
  match cont with
  | none => a
  | some c => [a.getD 0 0 ||| (bitsAt (c.getD 0 0) 23 1 * 2 ^ 23), a.getD 1 0,
      (if bitsAt (c.getD 2 0) 16 16 = 0 then bitsAt (a.getD 2 0) 16 16 else bitsAt (c.getD 2 0) 16 16) * 65536 + bitsAt (a.getD 2 0) 0 16, a.getD 3 0]

/-- The steps of R166 that follow the prefix engine's answer. -/
def finishLookup (s : State) (l : Lookup) (out : LpmOut) : Lookup :=
  match out with
  | .action i => { l with action := some (mergeCont l.cont (actionAt s i)), counts := l.counts ++ [3], remaining := [] }
  | .more ls => { l with remaining := ls }
  | _ => { l with action := some (mergeCont l.cont (actionAt s l.missAction)), counts := l.counts ++ [4], remaining := [] }

/-- The lookup stage of one packet (R166, R181); none when its profile does not exist (R164). -/
def lookupStage (s : State) (b : ClassBank) (dir : Nat) (v : FieldVec) (secondTrip : Bool) : Option Lookup :=
  let prof := Tbl.getD b.profiles (dir * 256 + v.profile) []
  let w0 := prof.getD 0 0
  if !bitAt w0 31 then none
  else
    let tern := if bitAt w0 30 then ternWinner b dir (buildKey prof v 0x10 (bitsAt w0 0 5) 20) else none
    let ternAct := tern.map fun r => actionAt s r.action
    let cont := ternAct.filter fun a => actKind a == 5
    let decided := ternAct.filter fun a => actKind a != 5
    let emHit := if bitAt w0 29 then (emFind s.tables.em (buildKey prof v 0x24 (bitsAt w0 8 4) 10)).bind (emAt s.tables.em) else none
    let dual := if bitAt w0 29 && s.tables.em.mode != 0 then [10] else []
    let fam := bitsAt w0 27 2
    let v6 := fam == 2
    let t := lpmOf s v6
    let a := lpmAddr v6 v (bitsAt w0 16 5)
    let l : Lookup := { action := none, cont := cont, counts := 0 :: dual, remaining := [], family6 := v6, addr := a, missAction := bitsAt (prof.getD 2 0) 0 18 }
    match decided, emHit with
    | some x, _ => some { l with action := some x, counts := l.counts ++ [1] }
    | none, some e => some { l with action := some (mergeCont cont e.action), counts := l.counts ++ [2] }
    | none, none =>
      if fam = 0 then some (finishLookup s l .notRun)
      else
        let lens := maskLens v6 (filterMask v6 t (topBits v6 a (blockBits v6)))
        let first := probe v6 t a (lens.take 4)
        if first.1.isSome || lens.length ≤ 4 then some (finishLookup s l (lpmResult t first.1))
        else if v.express then some (finishLookup s { l with counts := l.counts ++ [9] } .none)
        else if secondTrip then some (finishLookup s { l with counts := l.counts ++ [8] } (lpmResult t (probe v6 t a (lens.drop 4)).1))
        else some { l with counts := l.counts ++ [7], remaining := lens.drop 4 }

/-- The extended pass of a packet the prefix engine recirculated (R181). -/
def extendLookup (s : State) (l : Lookup) : Lookup :=
  let t := lpmOf s l.family6
  finishLookup s { l with counts := [] } (lpmResult t (probe l.family6 t l.addr l.remaining).1)

/-- The classifier bank of default profiles (R188). -/
def defaultProfiles : ClassBank := { ClassBank.reset with profiles := [(0, 2 ^ 31 :: List.replicate 15 0), (256, 2 ^ 31 :: List.replicate 15 0)] }

end Sys2Proof.Machine
end

