-- ==== Sys2Proof/Machine/Quota.lean ====
section
/-! DEFINITION. Quota.lean: the resource quotas of hosts and VFs and the commands that set them (R39, R52, R510). -/

namespace Sys2Proof.Machine
open Sys2Proof

/-- Cache segments of the write cache (R310, R403). -/
def cacheSegments (s : State) : Nat := s.carve.cache * 8192

/-- The resource codes in ascending order (R510). -/
def quotaCodes : List Nat := [0x01, 0x02, 0x10, 0x20, 0x21, 0x22, 0x23, 0x30, 0x31, 0x40, 0x41, 0x42, 0x50, 0x51, 0x52, 0x53]

/-- LIMIT range of a resource: least and greatest. -/
def quotaRange : Nat → Nat × Nat
  | 0x01 => (0, 786432) | 0x02 => (0, 98304) | 0x10 => (0, 131072) | 0x20 => (0, 16777215)
  | 0x21 => (0, 258048) | 0x22 => (0, 16777216) | 0x23 => (0, 192512) | 0x30 => (0, 65536)
  | 0x31 => (0, 524288) | 0x40 => (0, 122880) | 0x41 => (0, 1000) | 0x42 => (0, 15728640)
  | _ => (200, 1000000)

/-- Reset LIMIT of a resource, per host. -/
def quotaReset (s : State) : Nat → Nat
  | 0x01 => 98304 | 0x02 => 0 | 0x10 => 16384 | 0x20 => 16777215
  | 0x21 => 24576 | 0x22 => 2097152 | 0x23 => 4096 | 0x30 => 8192
  | 0x31 => cacheSegments s / 8 | 0x40 => 15360 | 0x41 => 125 | 0x42 => 1966080
  | 0x50 => 1000 | 0x51 => 4000 | 0x52 => 8000 | _ => 2000

/-- Resources that divide among VFs. -/
def divisible (code : Nat) : Bool := [0x01, 0x10, 0x20, 0x23, 0x30, 0x40, 0x42].contains code

/-- A host's LIMIT in one coat of QUOTA. -/
def limitIn (s : State) (t : Tbl Nat) (h : HostId) (code : Nat) : Nat := Tbl.getD t (h.val * 256 + code) (quotaReset s code)
/-- A host's LIMIT in force (R50). -/
def limit (s : State) (h : HostId) (code : Nat) : Nat := limitIn s s.net.quota.top h code
/-- A VF's LIMIT in force; none has no limit of its own. -/
def vfLimit (s : State) (h : HostId) (v code : Nat) : Option Nat := Tbl.find (s.net.units[h]).vfQuota.top (v * 256 + code)

/-- An allocation keeps the host's limit, and the VF's where there is one (R41, R52). -/
def quotaAllows (s : State) (h : HostId) (f : Fn) (code hostUse vfUse extra : Nat) : Bool :=
  hostUse + extra ≤ limit s h code && (match f with
    | .vf v => (match vfLimit s h v.val code with
        | none => true
        | some n => vfUse + extra ≤ n)
    | _ => true)

/-- The sum of a resource over the hosts in the QUOTA undercoat with one host's LIMIT replaced. -/
def sumWith (s : State) (h : HostId) (code v : Nat) : Nat :=
  (List.finRange 8).foldl (fun n k => n + (if k = h then v else limitIn s s.net.quota.under k code)) 0

/-- Pool 3 hods that receive arrivals may take: 4,096 for each group that starts there (R209). -/
def allowance (s : State) (pool : Nat) : Nat :=
  (List.finRange 8).foldl (fun n (g : Group) => n + (if bitsAt s.hod.rxPool (3 * g.val) 3 = pool then 4096 else 0)) 0

/-- The sum check of a resource (R208 for hods, R276, R301, R334). -/
def sumRefused (s : State) (h : HostId) (code v : Nat) : Bool :=
  match code with
  | 0x02 => s.hod.counts[3] - allowance s 3 < sumWith s h code v
  | 0x21 => 258048 < sumWith s h code v
  | 0x23 => 192512 < sumWith s h code v
  | 0x30 => 65536 < sumWith s h code v
  | 0x40 => 122880 < sumWith s h code v
  | 0x41 => 1000 < sumWith s h code v
  | 0x42 => 15728640 < sumWith s h code v
  | _ => false

/-- QUOTA_SET (R510). -/
def quotaSetDef : CmdDef where
  opcode := 0x0200
  owner := true
  objs := Obj.isHost
  len := fun n => n == 1
  checks := fun o p s =>
    [ (p.f 0 8 24 != 0 || !quotaCodes.contains (p.f 0 0 8), .badParam),
      (p.w 1 < (quotaRange (p.f 0 0 8)).1 || (quotaRange (p.f 0 0 8)).2 < p.w 1, .badParam),
      (p.f 0 0 8 == 0x23 && limitIn s s.net.quota.under (hostOf o) 0x21 < p.w 1, .badParam),
      (p.f 0 0 8 == 0x21 && p.w 1 < limitIn s s.net.quota.under (hostOf o) 0x23, .badParam),
      (sumRefused s (hostOf o) (p.f 0 0 8) (p.w 1), .noResource) ] ++ unitBlocked 4 s
  act := fun o p s => reply [] { s with net := { s.net with quota := { s.net.quota with
    under := Tbl.put s.net.quota.under ((hostOf o).val * 256 + p.f 0 0 8) (p.w 1) } } }

/-- QUOTA_GET (R510): a record for each resource. -/
def quotaGetDef : CmdDef where
  opcode := 0x0201
  owner := true
  host := true
  objs := Obj.isHost
  longResult := true
  act := fun o p s =>
    let t := if p.topcoat then s.net.quota.top else s.net.quota.under
    replyLong ([16, 0, 0, 0] ++ quotaCodes.flatMap fun c => [c, limitIn s t (hostOf o) c]) s

/-- The VF a command names. -/
def vfOf : Obj → Nat
  | .func _ (.vf v) => v.val
  | _ => 0

/-- It names a VF. -/
def Obj.isVf : Obj → Bool
  | .func _ (.vf _) => true
  | _ => false

/-- A host unit's write is refused to the owner while the link is up, and while defaults are due (R39, R42). -/
def hostUnitChecks (p : Packet) (u : RUnit) (s : State) : List (Bool × Status) :=
  (!mayWrite p.chan (unitBit u) s, .notPermitted) :: unitBlocked (unitBit u) s

/-- VF_QUOTA_SET (R39, R42, R510): the function need not be present, since the owner writes it while the link is down. -/
def vfQuotaSetDef : CmdDef where
  opcode := 0x0202
  owner := true
  host := true
  objs := Obj.isVf
  absentOk := true
  len := fun n => n == 1
  checks := fun o p s =>
    [ (p.f 0 8 24 != 0 || !quotaCodes.contains (p.f 0 0 8) || !divisible (p.f 0 0 8), .badParam),
      (p.w 1 != 0xFFFFFFFF && (p.w 1 < (quotaRange (p.f 0 0 8)).1 || (quotaRange (p.f 0 0 8)).2 < p.w 1), .badParam),
      (!p.owner && !present s (hostOf o) (fnOfObj o), .badParam) ] ++ hostUnitChecks p (.vfQuota (hostOf o)) s
  act := fun o p s =>
    let k := vfOf o * 256 + p.f 0 0 8
    reply [] (modUnits (hostOf o) (fun u => { u with vfQuota := { u.vfQuota with
      under := if p.w 1 = 0xFFFFFFFF then Tbl.del u.vfQuota.under k else Tbl.put u.vfQuota.under k (p.w 1) } }) s)

/-- HOST_DEFAULTS_SET (R42): the spec gives no layout of the default set, so what the parameters say is left open (an opaque function reads them). (DEDUCED, log 19) -/
def hostDefaultsSetDef : CmdDef where
  opcode := 0x0203
  owner := true
  objs := Obj.isHost
  len := fun _ => true
  act := fun o p s => reply [] { s with net := { s.net with
    defaults := Tbl.put s.net.defaults (hostOf o).val (Config.hostDefaults p.bytes) } }

/-- HOST_VF_LIMIT (R91). -/
def hostVfLimitDef : CmdDef where
  opcode := 0x0206
  owner := true
  objs := Obj.isHost
  len := fun n => n == 1
  checks := fun _ p _ =>
    [(p.f 0 10 6 != 0 || p.f 0 26 6 != 0 || p.w 1 != 0 || 512 < p.f 0 0 10 || 512 < p.f 0 16 10 || 512 < p.f 0 0 10 + p.f 0 16 10, .badParam)]
  act := fun o p s => reply [] (modLink (hostOf o) (fun l => { l with staged0 := p.f 0 0 10, staged1 := p.f 0 16 10 }) s)

/-- QUOTA_SET. -/
def execQuotaSet (p : Packet) (s : State) : Host.Outcome State Fault Refusal := .next (runCmd quotaSetDef (.quotaSet p) p s)
/-- QUOTA_GET. -/
def execQuotaGet (p : Packet) (s : State) : Host.Outcome State Fault Refusal := .next (runCmd quotaGetDef (.quotaGet p) p s)
/-- VF_QUOTA_SET. -/
def execVfQuotaSet (p : Packet) (s : State) : Host.Outcome State Fault Refusal := .next (runCmd vfQuotaSetDef (.vfQuotaSet p) p s)
/-- HOST_DEFAULTS_SET. -/
def execHostDefaultsSet (p : Packet) (s : State) : Host.Outcome State Fault Refusal := .next (runCmd hostDefaultsSetDef (.hostDefaultsSet p) p s)
/-- HOST_VF_LIMIT. -/
def execHostVfLimit (p : Packet) (s : State) : Host.Outcome State Fault Refusal := .next (runCmd hostVfLimitDef (.hostVfLimit p) p s)

end Sys2Proof.Machine
end

