-- ==== Sys2Proof/Machine/Hods.lean ====
section
/-! DEFINITION. Hods.lean: the hod store: pools, handles, chains, charging under quotas, and the re-carve (R202 to R212). -/

namespace Sys2Proof.Machine
open Sys2Proof

/-! Pools and handles (R202, R203) -/

/-- Hod size of a pool in bytes. -/
def hodBytes (pool : Nat) : Nat := [256, 512, 1024, 2048, 4096, 10240].getD pool 256
/-- Hod size of a pool in 256-byte units. -/
def hodUnits (pool : Nat) : Nat := hodBytes pool / 256
/-- The pool of a handle. -/
def hodPool (h : Nat) : Nat := h / 2 ^ 29
/-- The handle of a pool and index. -/
def hodHandle (pool i : Nat) : Nat := pool * 2 ^ 29 + i
/-- The handle that ends a chain. -/
def nullHod : Nat := 0xFFFFFFFF
/-- COUNT of a pool in a carve. -/
def poolCount (counts : Vector Nat 6) (pool : Nat) : Nat := counts.toList.getD pool 0
/-- A pool's base in a carve, in bytes. -/
def poolBase (counts : Vector Nat 6) : Nat → Nat
  | 0 => 0
  | p + 1 => ceilDiv (poolBase counts p + poolCount counts p * hodBytes p) 65536 * 65536
/-- Where a hod lies in the packet-buffer region. -/
def hodAddr (s : State) (h : Nat) : Nat := poolBase s.hod.counts (hodPool h) + h % 2 ^ 29 * hodBytes (hodPool h)
/-- Hods held of a pool. -/
def heldIn (s : State) (pool : Nat) : Nat := Tbl.countIf s.hod.held fun k _ => hodPool k == pool
/-- HOD_POOL_STATUS.FREE. -/
def freeIn (s : State) (pool : Nat) : Nat := poolCount s.hod.counts pool - heldIn s pool
/-- The start pool of a group (R206). -/
def startPool (s : State) (g : Nat) : Nat := bitsAt s.hod.rxPool (3 * g) 3
/-- The HOD block changed. -/
def modHod (f : Hods → Hods) (s : State) : State := { s with hod := f s.hod }

/-- A free hod of a pool, freely chosen; none while a re-carve is in progress. -/
def freeHod (s : State) (pool : Nat) : Option Nat :=
  if s.hod.busy then none
  else (pickFrom (freshNat s) (poolCount s.hod.counts pool) fun i => !Tbl.has s.hod.held (hodHandle pool i)).map (hodHandle pool)

/-! Limits (R208 to R210) -/

/-- Units charged to a host under its ordinary limit. -/
def hostUnits (s : State) (h : HostId) : Nat :=
  s.hod.held.foldl (fun n e => match e.2.payer with
    | .host k _ => if k = h then n + hodUnits (hodPool e.1) else n
    | _ => n) 0
/-- Units charged to a VF. -/
def vfUnits (s : State) (h : HostId) (v : Nat) : Nat :=
  s.hod.held.foldl (fun n e => if e.2.payer = .host h (some v) then n + hodUnits (hodPool e.1) else n) 0
/-- Units charged to one payer. -/
def payerUnits (s : State) (p : Payer) : Nat :=
  s.hod.held.foldl (fun n e => if e.2.payer = p then n + hodUnits (hodPool e.1) else n) 0
/-- Hods drawn from HOD_X7 of a host. -/
def reserveHeld (s : State) (h : HostId) : Nat := Tbl.countIf s.hod.held fun _ e => e.payer == .reserve h
/-- HOD_X7_STATUS.HELD_BACK. -/
def heldBack (s : State) : Nat := (List.finRange 8).foldl (fun n h => n + (limit s h 0x02 - reserveHeld s h)) 0
/-- Charged hods of a pool: those that are no arrival's. -/
def chargedIn (s : State) (pool : Nat) : Nat :=
  Tbl.countIf s.hod.held fun k e => hodPool k == pool && (match e.payer with
    | .arrival _ => false
    | _ => true)
/-- The ceiling of a pool (R210). -/
def ceiling (s : State) (pool : Nat) : Nat :=
  poolCount s.hod.counts pool - allowance s pool - (if pool = 3 then heldBack s else 0)

/-- Why a charge is refused (R211). -/
inductive Refused where
  | limit
  | ceiling (pool : Nat)
deriving DecidableEq, Repr

/-- The limits a payer's further units would touch. -/
def overLimit (s : State) (p : Payer) (units : Nat) : Bool :=
  match p with
  | .host h none => limit s h 0x01 < hostUnits s h + units
  | .host h (some v) => limit s h 0x01 < hostUnits s h + units || (match vfLimit s h v 0x01 with
      | none => false
      | some n => n < vfUnits s h v + units)
  | .forward => s.hod.forwardLimit < payerUnits s .forward + units
  | .core => s.hod.coreLimit < payerUnits s .core + units
  | _ => false

/-- The payer of one hod of a class 7 charge: the reserve first, then the host's ordinary limit (R210). -/
def payerFor (s : State) (p : Payer) (x7 : Bool) (pool : Nat) : Payer :=
  match p with
  | .host h _ => if x7 ∧ pool = 3 ∧ reserveHeld s h < limit s h 0x02 then .reserve h else p
  | _ => p

/-- One hod charged to a payer (R210). -/
def chargeHod (p : Payer) (x7 : Bool) (h : Nat) (s : State) : Except Refused State :=
  let pool := hodPool h
  let who := payerFor s p x7 pool
  let old := Tbl.getD s.hod.held h { next := nullHod, payer := .core, users := 1 }
  let s1 := modHod (fun x => { x with held := Tbl.put x.held h { old with payer := who } }) s
  match who with
  | .reserve _ => .ok s1
  | _ => if overLimit s who (hodUnits pool) then .error .limit
      else if ceiling s pool < chargedIn s pool + 1 then .error (.ceiling pool)
      else .ok s1

/-- All hods of a packet charged, or none. -/
def chargeAll (p : Payer) (x7 : Bool) : (hods : List Nat) → State → Except Refused State
  | [], s => .ok s
  | h :: r, s => match chargeHod p x7 h s with
    | .error e => .error e
    | .ok s' => chargeAll p x7 r s'

/-! Freeing (R207) -/

/-- One hod freed: the last of its users frees it. -/
def freeOne (h : Nat) (s : State) : State :=
  match Tbl.find s.hod.held h with
  | none => s
  | some x => modHod (fun y => { y with held := if 1 < x.users then Tbl.put y.held h { x with users := x.users - 1 } else Tbl.del y.held h }) s

/-- Hods freed. -/
def freeHods (hods : List Nat) (s : State) : State := hods.foldl (fun s h => freeOne h s) s

/-- A second copy of a packet shares its hods (R207). -/
def shareHods (hods : List Nat) (s : State) : State :=
  hods.foldl (fun s h => modHod (fun y => { y with held := Tbl.modify y.held h fun x => { x with users := x.users + 1 } }) s) s

/-! Taking hods -/

/-- A hod taken for a payer, unlinked. -/
def takeHod (p : Payer) (h : Nat) (s : State) : State :=
  count 0x06 0 (8 * hodPool h) 1 (modHod (fun x => { x with held := Tbl.put x.held h { next := nullHod, payer := p, users := 1 } }) (drawn1 s))

/-- The hods of a chain linked in order. -/
def linkChain : List Nat → State → State
  | a :: b :: r, s => linkChain (b :: r) (modHod (fun x => { x with held := Tbl.modify x.held a fun y => { y with next := b } }) s)
  | _, s => s

/-- `n` hods of the start pool taken at arrival; none when the allowance or the pool is used up (R209). -/
def takeArrival (g : Nat) : (n : Nat) → State → Option (List Nat × State)
  | 0, s => some ([], s)
  | n + 1, s =>
    let used := Tbl.countIf s.hod.held fun _ e => e.payer == .arrival g
    match freeHod s (startPool s g) with
    | none => none
    | some h => if 4096 ≤ used then none else (takeArrival g n (takeHod (.arrival g) h s)).map fun r => (h :: r.1, r.2)

/-- The hods of an arriving frame of a length with FCS; a chain holds at most 64 (R206, R209). (DEDUCED, log 58) -/
def arriveHods (g len : Nat) (s : State) : Option (List Nat × State) :=
  let n := ceilDiv len (hodBytes (startPool s g))
  if 64 < n then none else (takeArrival g n s).map fun r => (r.1, linkChain r.1 r.2)

/-- `n` hods of one pool taken and charged, or the reason why not; an empty pool is its ceiling. -/
def takeCharged (p : Payer) (x7 : Bool) (pool : Nat) : (n : Nat) → State → Except Refused (List Nat × State)
  | 0, s => .ok ([], s)
  | n + 1, s =>
    match freeHod s pool with
    | none => .error (.ceiling pool)
    | some h => match chargeHod p x7 h s with
      | .error e => .error e
      | .ok s1 =>
        let who := (Tbl.getD s1.hod.held h { next := nullHod, payer := p, users := 1 }).payer
        match takeCharged p x7 pool n (takeHod who h s) with
        | .error e => .error e
        | .ok r => .ok (h :: r.1, r.2)

/-- The first pool from one on whose hods hold a length and can be granted; the refusal is that of the last pool tried. -/
def takeSmallest (p : Payer) (x7 : Bool) (len : Nat) : (pools : List Nat) → State → Except Refused (List Nat × State)
  | [], _ => .error .limit
  | k :: r, s =>
    if hodBytes k < len then takeSmallest p x7 len r s
    else match takeCharged p x7 k 1 s with
      | .ok x => .ok x
      | .error e => if r.isEmpty then .error e else takeSmallest p x7 len r s

/-- The hods of a transmit packet or a core's allocation (R206): one hod of the smallest pool, or pool 3 chained for a class 7 queue. -/
def allocHods (p : Payer) (x7queue x7 : Bool) (len : Nat) (s : State) : Except Refused (List Nat × State) :=
  if x7queue then
    match takeCharged p x7 3 (ceilDiv (max 1 len) 2048) s with
    | .ok r => .ok (r.1, linkChain r.1 r.2)
    | .error e => .error e
  else takeSmallest p x7 len [0, 1, 2, 3, 4, 5] s

/-! Refused charges (R211) -/

/-- EXHAUSTED of the pool whose ceiling refused a charge. -/
def countExhausted (e : Refused) (s : State) : State :=
  match e with
  | .ceiling pool => count 0x06 0 (8 * pool + 1) 1 s
  | .limit => s

/-- A refused charge of a received packet is counted. -/
def countRefused (p : Payer) (x7 : Bool) (e : Refused) (s : State) : State :=
  match p with
  | .host h _ =>
    if x7 then countExhausted e (count 0x06 0 (0x200 + 8 * h.val + 1) 1 s)
    else (match e with
      | .limit => count 0x06 0 (0x200 + 8 * h.val) 1 s
      | .ceiling pool => count 0x06 0 (8 * pool + 1) 1 s)
  | .forward => countExhausted e (count 0x06 0 0x300 1 s)
  | .core => countExhausted e (count 0x06 0 0x301 1 s)
  | _ => s

/-- A received packet's charge moves to its payer; refused, the packet is dropped and its hods freed. -/
def chargePacket (p : Payer) (x7 : Bool) (hods : List Nat) (s : State) : Bool × State :=
  match chargeAll p x7 hods s with
  | .ok s' => (true, s')
  | .error e => (false, freeHods hods (countRefused p x7 e s))

/-! Packet memory -/

/-- A packet's bytes written to its hods in chain order. -/
def storeHods : (hods : List Nat) → List Byte → State → State
  | [], _, s => s
  | h :: r, bs, s => storeHods r (bs.drop (hodBytes (hodPool h)))
      (modHod (fun x => { x with mem := Mem.writeBytes x.mem 0 (hodAddr s h) (bs.take (hodBytes (hodPool h))) }) s)

/-- The handles of a chain from one on, at most 64. -/
def chainFrom (s : State) : (fuel h : Nat) → List Nat
  | 0, _ => []
  | k + 1, h => if h = nullHod then [] else match Tbl.find s.hod.held h with
    | none => [h]
    | some x => h :: chainFrom s k x.next

/-- The bytes of a chain, as many as asked for. -/
def loadHods (s : State) : (hods : List Nat) → (count : Nat) → List Byte
  | [], _ => []
  | h :: r, n => Mem.readBytes s.hod.mem 0 (hodAddr s h) (min n (hodBytes (hodPool h))) ++ loadHods s r (n - hodBytes (hodPool h))

/-! Handle checks (R204) -/

/-- The thread a violation names: cluster, core and thread, or the monitor. (DEDUCED, log 24) -/
def whoThread (cl co t : Nat) : Nat := cl * 256 + co * 16 + t

/-- The handle names a hod of the carve. -/
def handleInRange (s : State) (h : Nat) : Bool := hodPool h < 6 && h % 2 ^ 29 < poolCount s.hod.counts (hodPool h)

/-- HOD_RANGE or HOD_ALIGN: counted and logged (R204, R502). -/
def hodViolation (align : Bool) (h off len who port : Nat) (s : State) : State :=
  logViolation (if align then 5 else 4) 0x06 0 [h, off, len, who, port] (count 0x06 0 (if align then 0x303 else 0x302) 1 s)

/-! The re-carve (R202) -/

/-- The checks of APPLY. -/
def badCarve (s : State) : Bool :=
  let new := s.hod.cfg
  let starts (pool : Nat) : Nat := ((List.range 8).filter fun g => bitsAt s.hod.rxCfg (3 * g) 3 == pool).length
  let x7 := (List.finRange 8).foldl (fun n h => n + limit s h 0x02) 0
  !(s.glb.mode == .boot || s.glb.mode == .maintenance) || !s.hod.held.isEmpty
    || 192 * 1048576 < poolBase new 5 + poolCount new 5 * hodBytes 5
    || (List.range 8).any (fun g => 5 < bitsAt s.hod.rxCfg (3 * g) 3)
    || poolCount new 3 < 4096 * starts 3 + x7

/-- HOD_CTRL.APPLY. -/
def hodApply (s : State) : State :=
  if badCarve s then modHod (fun x => { x with badCarve := true }) s else modHod (fun x => { x with busy := true }) s

/-- HOD_CARVE_APPLY. -/
def execHodCarveApply (s : State) : Host.Outcome State Fault Refusal := .next (hodApply s)

/-- HOD_CARVE_APPLY_DONE: BUSY clears and the new carve takes effect. -/
def execHodCarveApplyDone (s : State) : Host.Outcome State Fault Refusal :=
  .next (if s.hod.busy then modHod (fun x => { x with busy := false, counts := x.cfg, rxPool := x.rxCfg }) s else s)

end Sys2Proof.Machine
end

