-- ==== Sys2Proof/Machine/Spread.lean ====
section
/-! DEFINITION. Spread.lean: the Toeplitz hash, steering to a pipeline, and spreading across host queues (R190 to R201). -/

namespace Sys2Proof.Machine
open Sys2Proof

/-- toeplitz(key, input, n): the key has `kbits` bits, the input n bits, bit 0 the most significant (R190). -/
def toeplitz (key kbits input n : Nat) : Nat :=
  (List.range n).foldl (fun h i => if bitAt input (n - 1 - i) then h ^^^ bitsAt key (kbits - 32 - i) 32 else h) 0

/-! Steering (R191 to R193) -/

/-- The steering input of a frame: the enabled ranges of its group, at most 40 bytes (R192). -/
def steerInput (s : State) (g : Group) (frame : List Byte) : List Byte :=
  ((List.finRange 4).flatMap fun k =>
    let w := s.net.ranges[(⟨4 * g.val + k.val, by omega⟩ : Fin 32)]
    if bitAt w 31 then (upFrom (bitsAt w 0 7) (bitsAt w 16 4 + 1)).map fun i => frame.getD i 0 else []).take 40

/-- The key of a group: 44 bytes. -/
def steerKey (s : State) (g : Group) : Nat :=
  (List.finRange 11).foldl (fun k j => k * 2 ^ 32 + s.net.keys[(⟨11 * g.val + j.val, by omega⟩ : Fin 88)] % 2 ^ 32) 0

/-- The steering hash of a frame (R192). -/
def steerHash (s : State) (g : Group) (frame : List Byte) : Nat :=
  toeplitz (steerKey s g) 352 (beNat (steerInput s g frame)) (8 * (steerInput s g frame).length)

/-- Which pipeline of a group's pair a port of a width uses: the lane rule, or a bit for a 1.6T port (R191). -/
def pairHalf (port width bit : Nat) : Nat := if width = 8 then bit % 2 else if port % 8 < 4 then 0 else 1

/-! Spreading (R195) -/

/-- The hash input: the segments of a selection (R195). -/
def spreadInput (srcs : List Nat) (v : FieldVec) : Nat := srcs.foldl (fun k c => k * 2 ^ 32 + segment [] v c % 2 ^ 32) 0

/-- A host's spreading hash of a packet. -/
def spreadHash (u : SpreadUnit) (t : IndTable) (v : FieldVec) : Nat :=
  let srcs := Tbl.getD u.sels t.sel []
  toeplitz (beNat u.key) 416 (spreadInput srcs v) (32 * srcs.length)

/-- The load of an indirection entry. -/
def loadKey (h : HostId) (table entry : Nat) : Nat := (h.val * 64 + table) * 4096 + entry

/-- A packet spread through an entry is counted (R199). -/
def countLoad (h : HostId) (table entry : Nat) (s : State) : State :=
  let l := Tbl.getD s.net.loads (loadKey h table entry) ⟨0, 0, 0⟩
  { s with net := { s.net with loads := Tbl.put s.net.loads (loadKey h table entry) ⟨l.last, l.now + 1, satAdd 0xFFFFFFFF l.total 1⟩ } }

/-- What spreading decides: a queue and the hash, or the counter of the drop (R195). -/
inductive Spread where
  | queue (q hash : Nat)
  | drop (index : Nat)
deriving DecidableEq, Repr

/-- The spreading stage for host h and table T, under the coat of the packet's epoch (R50, R195). -/
def spreadStage (u : SpreadUnit) (h : HostId) (table : Nat) (v : FieldVec) (s : State) : Spread × State :=
  match if table < 64 then Tbl.find u.tables table else none with
  | none => (.drop 3, s)
  | some t =>
    let hash := spreadHash u t v
    let e := hash % 2 ^ t.log2
    match Tbl.find t.entries e with
    | none => (.drop 4, countLoad h table e s)
    | some q => (.queue q hash, countLoad h table e s)

/-! The commands -/

/-- SPREAD n acts on one host: a host channel's own, or the host TARGET names. -/
def spreadUnder (h : HostId) (f : SpreadUnit → SpreadUnit) (s : State) : State :=
  modUnits h (fun u => { u with spread := { u.spread with under := f u.spread.under } }) s

/-- SRC bytes of SPREAD_SET. -/
def spreadSrcs (p : Packet) : List Nat := ((slice p.bytes 8 12).take (p.f 0 16 4)).map (·.toNat)

/-- SPREAD_SET (R196). -/
def spreadSetDef : CmdDef where
  opcode := 0x0505
  owner := true
  host := true
  objs := Obj.isHost
  len := fun n => n == 10
  checks := fun o p s =>
    [ (p.f 0 0 3 == 0 || p.f 0 3 5 != 0 || p.f 0 11 5 != 0 || p.f 0 20 4 != 0 || p.w 1 != 0 || p.w 5 != 0 || p.w 19 != 0, .badParam),
      (p.b 0 1 && (p.f 0 16 4 == 0 || 12 < p.f 0 16 4), .badParam),
      (p.b 0 1 && (slice p.bytes 8 12).any (fun b => !goodSource b.toNat), .badParam) ] ++ hostUnitChecks p (.spread (hostOf o)) s
  act := fun o p s => reply [] (spreadUnder (hostOf o) (fun u =>
    let u1 := if p.b 0 0 then { u with key := slice p.bytes 0x18 52 } else u
    let u2 := if p.b 0 1 then { u1 with sels := Tbl.put u1.sels (p.f 0 8 3) (spreadSrcs p) } else u1
    if p.b 0 2 then { u2 with alertShare := p.f 0 24 8 } else u2) s)

/-- Entries of a host's tables other than one. -/
def otherEntries (u : SpreadUnit) (table : Nat) : Nat := u.tables.foldl (fun n e => if e.1 = table then n else n + 2 ^ e.2.log2) 0

/-- Entry i of INDIRECTION_SET. -/
def indEntry (p : Packet) (i : Nat) : Nat := leNat (slice p.bytes (8 + 2 * i) 2)

/-- INDIRECTION_SET (R197). -/
def indirectionSetDef : CmdDef where
  opcode := 0x0506
  owner := true
  host := true
  objs := Obj.isHost
  len := fun _ => true
  checks := fun o p s =>
    let u := (s.net.units[hostOf o]).spread.under
    let n := p.f 1 16 12
    let g := p.f 0 8 4
    let same := match Tbl.find u.tables (p.f 0 0 6) with
      | none => g == 0
      | some t => t.log2 == g
    [ (p.len != 1 + ceilDiv (2 * n) 8, .badLength),
      (p.f 0 6 2 != 0 || p.f 0 15 17 != 0 || p.f 1 12 4 != 0 || p.f 1 28 4 != 0, .badParam),
      ((1 ≤ g && g ≤ 5) || 12 < g || 2000 < n || (g != 0 && 2 ^ g < p.f 1 0 12 + n), .badParam),
      ((upFrom 0 n).any (fun i => bitAt (indEntry p i) 14), .badParam),
      ((slice p.bytes (8 + 2 * n) 8).any (fun b => b != 0), .badParam),
      (!same && g != 0 && 16384 < otherEntries u (p.f 0 0 6) + 2 ^ g, .noResource) ] ++ hostUnitChecks p (.spread (hostOf o)) s
  act := fun o p s => reply [] (spreadUnder (hostOf o) (fun u =>
    let k := p.f 0 0 6
    let g := p.f 0 8 4
    if g = 0 then { u with tables := Tbl.del u.tables k }
    else
      let t : IndTable := match Tbl.find u.tables k with
        | none => { log2 := g, sel := p.f 0 12 3, gen := s.epochs.epoch + 1, entries := [] }
        | some t => if t.log2 = g then { t with sel := p.f 0 12 3 } else { log2 := g, sel := p.f 0 12 3, gen := t.gen + 1, entries := [] }
      let es := (upFrom 0 (p.f 1 16 12)).foldl (fun es i =>
        if bitAt (indEntry p i) 15 then Tbl.put es (p.f 1 0 12 + i) (bitsAt (indEntry p i) 0 14) else Tbl.del es (p.f 1 0 12 + i)) t.entries
      { u with tables := Tbl.put u.tables k { t with entries := es } }) s)

/-- SPREAD_LOAD_READ (R199): a table that does not exist, or entries beyond it, get BAD_PARAM. (DEDUCED, log 61) -/
def spreadLoadReadDef : CmdDef where
  opcode := 0x0507
  owner := true
  host := true
  objs := Obj.isHost
  longResult := true
  len := fun n => n == 1
  checks := fun o p s =>
    [ (p.f 0 6 10 != 0 || p.f 0 28 3 != 0 || p.f 1 13 19 != 0 || p.f 1 0 13 == 0 || 4096 < p.f 1 0 13 || (p.owner && 508 < p.f 1 0 13), .badParam),
      ((match Tbl.find (s.net.units[hostOf o]).spread.top.tables (p.f 0 0 6) with
        | none => true
        | some t => 2 ^ t.log2 < p.f 0 16 12 + p.f 1 0 13), .badParam) ]
  act := fun o p s =>
    let ks := (upFrom (p.f 0 16 12) (p.f 1 0 13)).map (loadKey (hostOf o) (p.f 0 0 6))
    let ws := ks.flatMap fun k => let l := Tbl.getD s.net.loads k ⟨0, 0, 0⟩; [l.last, l.total]
    let s' := if p.b 0 31 then ks.foldl (fun s k => { s with net := { s.net with loads := Tbl.modify s.net.loads k fun l => { l with total := 0 } } }) s else s
    replyLong ws s'

/-- SPREAD_SET. -/
def execSpreadSet (p : Packet) (s : State) : Host.Outcome State Fault Refusal := .next (runCmd spreadSetDef (.spreadSet p) p s)
/-- INDIRECTION_SET. -/
def execIndirectionSet (p : Packet) (s : State) : Host.Outcome State Fault Refusal := .next (runCmd indirectionSetDef (.indirectionSet p) p s)
/-- SPREAD_LOAD_READ. -/
def execSpreadLoadRead (p : Packet) (s : State) : Host.Outcome State Fault Refusal := .next (runCmd spreadLoadReadDef (.spreadLoadRead p) p s)

/-! At a boundary (R199, R200) -/

/-- The entries of a table with their packets of the ended epoch. -/
def tableLoads (s : State) (h : HostId) (table : Nat) : List (Nat × Nat) :=
  (s.net.loads.filter fun e => e.1 / 4096 = h.val * 64 + table).map fun e => (e.1 % 4096, e.2.now)

/-- The entry that carried most. -/
def heaviest (l : List (Nat × Nat)) : Nat × Nat := l.foldl (fun b e => if b.2 < e.2 then e else b) (0, 0)

/-- LOAD_ALERT of one table, at most once per millisecond of DTIME (R200). (DEDUCED, log 61) -/
def loadAlert (h : HostId) (table share : Nat) (s : State) : State :=
  let l := tableLoads s h table
  let total := l.foldl (fun n e => n + e.2) 0
  let top := heaviest l
  let k := h.val * 64 + table
  let due := match Tbl.find s.net.alerts k with
    | none => true
    | some t => t + 1000000 ≤ dtimeNs s
  if share = 0 ∨ total < 4096 ∨ top.2 * 256 < share * total ∨ !due then s
  else
    let pay := [h.val + table * 256 + top.1 * 65536, top.2 % 2 ^ 32, total % 2 ^ 32]
    raiseRing (hostChan h) 0xA0 0 0 pay (raiseOwner 0xA0 0 0 pay
      { s with net := { s.net with alerts := Tbl.put s.net.alerts k (dtimeNs s) } })

/-- Every table is examined, then LAST takes the ended epoch's count (R199, R200). -/
def spreadBoundary (s : State) : State :=
  let s1 := (List.finRange 8).foldl (fun s h =>
    let u := (s.net.units[h]).spread.top
    u.tables.foldl (fun s e => loadAlert h e.1 u.alertShare s) s) s
  { s1 with net := { s1.net with loads := Tbl.mapAll s1.net.loads fun _ l => ⟨l.now % 2 ^ 32, 0, l.total⟩ } }

end Sys2Proof.Machine
end

