-- ==== Sys2Proof/Machine/Queues.lean ====
section
/-! DEFINITION. Queues.lean: network queues: completion entries, descriptors, doorbells, failure, and the queue commands (R97 to R102, R107, R511). -/

namespace Sys2Proof.Machine
open Sys2Proof

/-! Completion queues (R100, R102) -/

/-- Entries of a ring of 2^log2. -/
def qSize (q : Queue) : Nat := 2 ^ q.log2
/-- A completion queue's ring is full: its next entry would meet the driver's head. -/
def cqFull (q : Queue) : Bool := (q.head + 1) % qSize q == q.doorbell

/-- A completion queue signals (R96, R102). -/
def cqSignal (h : HostId) (f : Fn) (cq vec : Nat) (s : State) : State :=
  signalVector h f vec ((if f = .pf0 then setIntx h 2 else id) (modQueue h f cq (fun q => { q with unsignalled := 0 }) s))

/-- An entry enters a completion queue that has room: PHASE is set, and the queue signals when COAL_COUNT entries are unsignalled. -/
def putCqe (h : HostId) (f : Fn) (cq : Nat) (q : Queue) (ws : List Nat) (s : State) : State :=
  let e := (ws.getD 0 0 + b2n q.phase * 2 ^ 31) :: ws.drop 1
  let s1 := emit (.cqe h f cq q.head e) (modQueue h f cq (fun q => { q with
    head := (q.head + 1) % qSize q
    phase := if (q.head + 1) % qSize q = 0 then !q.phase else q.phase
    packets := q.packets + 1
    unsignalled := q.unsignalled + 1
    firstAt := if q.unsignalled = 0 then nowNs s else q.firstAt }) s)
  if max 1 q.coalCount ≤ q.unsignalled + 1 then cqSignal h f cq q.vector s1 else s1

/-- An entry is written, or waits for room behind earlier ones; no entry is lost (R102). -/
def writeCqe (h : HostId) (f : Fn) (cq : Nat) (ws : List Nat) (s : State) : State :=
  match queue s h f cq with
  | none => s
  | some q => if cqFull q || !q.late.isEmpty then modQueue h f cq (fun q => { q with late := q.late ++ [ws] }) s else putCqe h f cq q ws s

/-- Entries that waited are written while there is room. -/
def drainLate (h : HostId) (f : Fn) (cq : Nat) : (fuel : Nat) → State → State
  | 0, s => s
  | k + 1, s => match queue s h f cq with
    | none => s
    | some q => match q.late with
      | [] => s
      | ws :: r => if cqFull q then s else drainLate h f cq k (putCqe h f cq q ws (modQueue h f cq (fun q => { q with late := r }) s))

/-! Transmit completions (R100, R101) -/

/-- The entry of a transmit packet. (DEDUCED, log 59) -/
def txEntry (q : Nat) (c : TxCpl) (outcome : Nat) : List Nat :=
  [2 ^ 28 + outcome * 2 ^ 24 + c.count * 2 ^ 19 + c.cls * 2 ^ 16 + q, c.index, c.cookie, 0, 0, 0] ++ words64 c.stamp

/-- Entries of a transmit queue are written in descriptor order, up to the first packet still on its way. -/
def flushTx (h : HostId) (f : Fn) (q cq : Nat) : List TxCpl → State → State
  | [], s => modQueue h f q (fun x => { x with cpls := [] }) s
  | c :: r, s => match c.outcome with
    | none => modQueue h f q (fun x => { x with cpls := c :: r }) s
    | some o =>
      let s1 := if c.want || o != 0 then writeCqe h f cq (txEntry q c o) s else s
      flushTx h f q cq r (modQueue h f q (fun x => { x with
        head := (c.index + c.count) % qSize x
        drops := if o = 0 then x.drops else x.drops + 1 }) s1)

/-- The entries that are due of a queue. -/
def flushQueue (h : HostId) (f : Fn) (q : Nat) (s : State) : State :=
  match queue s h f q with
  | none => s
  | some x => flushTx h f q x.cq x.cpls s

/-- The outcome of a packet that has none yet, with its timestamp. -/
def setOutcome (h : HostId) (f : Fn) (q index outcome stamp : Nat) (s : State) : State :=
  flushQueue h f q (modQueue h f q (fun x => { x with cpls := x.cpls.map fun c =>
    if c.index = index ∧ c.outcome.isNone then { c with outcome := some outcome, stamp := stamp } else c }) s)

/-! Descriptors (R98, R99) -/

/-- New transmit or receive work may start: SERVICE or DEGRADED (R26, the mode table). -/
def workRuns (s : State) : Bool := s.glb.mode == .service || s.glb.mode == .degraded

/-- The CQ of a queue is full. -/
def cqOfFull (s : State) (h : HostId) (f : Fn) (q : Queue) : Bool :=
  match queue s h f q.cq with
  | none => true
  | some c => cqFull c

/-- The queue's descriptors are read, up to its doorbell. -/
def fetchQueue (h : HostId) (f : Fn) (q : Nat) (s : State) : State :=
  match queue s h f q with
  | none => s
  | some x =>
    if x.fetching || x.failed || x.doorbell == x.fetched || !workRuns s || !canIssue s h f || !(x.kind == 1 || x.kind == 2) || (x.kind == 1 && cqOfFull s h f x) then s
    else issueRead h f (if x.kind = 1 then .txDescr q else .rxDescr q) (modQueue h f q (fun x => { x with fetching := true }) s)

/-- Every queue that a test of its function accepts looks for work. -/
def kickQueues (p : HostId → Fn → Bool) (s : State) : State :=
  s.queues.foldl (fun t e =>
    let h := hostOfKey (e.1 / 65536)
    let f := fnOfIndex (e.1 / 65536 % 1024)
    if p h f then fetchQueue h f (e.1 % 65536) t else t) s

/-- Words of 32 bits from bytes. -/
def bytesToWords : (n : Nat) → List Byte → List Nat
  | 0, _ => []
  | k + 1, bs => leNat (bs.take 4) :: bytesToWords k (bs.drop 4)

/-- Descriptors of `size` words each. -/
def splitDescrs (size : Nat) : (n : Nat) → List Byte → List (List Nat)
  | 0, _ => []
  | k + 1, bs => bytesToWords size bs :: splitDescrs size k (bs.drop (4 * size))

/-- EOP of a transmit descriptor. -/
def descrEop (d : List Nat) : Bool := bitAt (d.getD 2 0) 16
/-- LEN of a descriptor. -/
def descrLen (d : List Nat) : Nat := bitsAt (d.getD 2 0) 0 16

/-- A packet of its descriptors. -/
def txPacket (index : Nat) (ds : List (List Nat)) : TxPkt :=
  let first := ds.headD []
  let last := ds.getLastD []
  let flags := first.getD 2 0
  { index := index, count := ds.length, len := ds.foldl (fun n d => n + descrLen d) 0,
    segs := ds.map fun d => (d.getD 0 0 + d.getD 1 0 * 2 ^ 32, descrLen d),
    cpl := bitAt (last.getD 2 0) 17, stamp := bitAt flags 18, launch := if bitAt flags 19 then some (first.getD 3 0) else none,
    csum := if bitAt flags 20 then some (bitsAt (first.getD 5 0) 0 8, bitsAt (first.getD 5 0) 8 8) else none,
    key := if bitAt flags 21 then some (bitsAt (first.getD 4 0) 0 17) else none, cookie := last.getD 7 0 }

/-- The packet is one that LENGTH_ERR refuses whatever its port: a LEN of 0, no EOP within 16 descriptors, or checksum offsets outside it. (DEDUCED, log 61) -/
def lengthErr (ds : List (List Nat)) (t : TxPkt) : Bool :=
  ds.any (fun d => descrLen d == 0) || !descrEop (ds.getLastD []) || 9212 < t.len
    || (match t.csum with
      | none => false
      | some (a, b) => t.len ≤ 2 * a || t.len < 2 * b + 2)

/-- The entry that a packet of a queue will have. -/
def cplOf (t : TxPkt) (cls : Nat) : TxCpl :=
  { index := t.index, count := t.count, cookie := t.cookie, cls := cls, want := t.cpl, outcome := none, stamp := 0 }

/-- The first packet among descriptors: those up to EOP, or 16. -/
def takePacket (ds : List (List Nat)) : Option (List (List Nat) × List (List Nat)) :=
  let n := match (ds.take 16).findIdx? descrEop with
    | some i => i + 1
    | none => 16
  if ds.length < n ∨ n = 0 then none else some (ds.take n, ds.drop n)

/-- The packets among a queue's unparsed descriptors join the queue, or complete with LENGTH_ERR. -/
def parseTx (h : HostId) (f : Fn) (q : Nat) : (fuel : Nat) → State → State
  | 0, s => s
  | k + 1, s => match queue s h f q with
    | none => s
    | some x => match takePacket x.raw with
      | none => s
      | some (ds, rest) =>
        let t := txPacket ((x.fetched + qSize x - x.raw.length % qSize x) % qSize x) ds
        let bad := lengthErr ds t
        parseTx h f q k (modQueue h f q (fun x => { x with
          raw := rest
          ready := if bad then x.ready else x.ready ++ [t]
          cpls := x.cpls ++ [{ cplOf t x.cls with outcome := if bad then some 1 else none }] }) s)

/-! Failure (R107) -/

/-- An event for a function: to the owner, and to the channel of PF0 or of the VF of PF0 it concerns (R82). (DEDUCED, log 61) -/
def raiseFn (h : HostId) (f : Fn) (type src tag : Nat) (payload : List Nat) (s : State) : State :=
  let s1 := raiseOwner type src tag payload s
  match f with
  | .pf0 => raiseRing (hostChan h) type src tag payload s1
  | .vf v => raiseRing ⟨h, some v⟩ type src tag payload s1
  | _ => s1

/-- Unread descriptors of a transmit queue, each with an entry of its own; their cookies were never read. -/
def unreadCpls (x : Queue) (draw : Nat) : List TxCpl :=
  let n := (x.doorbell + qSize x - x.fetched) % qSize x
  (upFrom 0 n).map fun i => { index := (x.fetched + i) % qSize x, count := 1, cookie := Config.freeNat (draw + i) % 2 ^ 32, cls := x.cls, want := true, outcome := some 4, stamp := 0 }

/-- Descriptors read that form no packet yet. -/
def rawCpls (x : Queue) : List TxCpl :=
  (upFrom 0 x.raw.length).map fun i => { index := (x.fetched + qSize x - x.raw.length % qSize x + i) % qSize x, count := 1, cookie := (x.raw.getD i []).getD 7 0, cls := x.cls, want := true, outcome := some 4, stamp := 0 }

/-- A transmit queue's unexecuted descriptors complete with FLUSHED; its hods are freed and it leaves the scheduler (R231). -/
def flushRest (h : HostId) (f : Fn) (q : Nat) (s : State) : State :=
  match queue s h f q with
  | none => s
  | some x =>
    if x.kind ≠ 1 then s
    else
      let s1 := x.reading.foldl (fun s r => freeHods r.hods s) s
      let s2 := modQueue h f q (fun y => { y with
        cpls := (y.cpls.map fun c => if c.outcome.isNone then { c with outcome := some 4 } else c) ++ rawCpls y ++ unreadCpls y s.drawn
        raw := [], ready := [], reading := [], hodWait := false }) { s1 with drawn := s1.drawn + qSize x }
      flushQueue h f q s2

/-- A queue fails (R107): it executes nothing more, its descriptors are flushed, and QUEUE_FAILED is raised. -/
def failQueue (h : HostId) (f : Fn) (q reason index : Nat) (s : State) : State :=
  match queue s h f q with
  | none => s
  | some x =>
    if x.failed then s
    else
      let s1 := flushRest h f q (modQueue h f q (fun y => { y with failed := true, reason := reason, fetching := false }) s)
      raiseFn h f 0x51 (source 0x12 h.val) 0 [targetOf h f + q * 65536, reason, index] s1

/-! Reads that return -/

/-- Transmit descriptors have been read. -/
def txDescrDone (h : HostId) (f : Fn) (q : Nat) (st : CplStatus) (bytes : List Byte) (s : State) : State :=
  match queue s h f q with
  | none => s
  | some x =>
    if x.failed ∨ x.kind ≠ 1 then s
    else if st ≠ .ok then failQueue h f q 1 x.fetched s
    else
      let n := min (bytes.length / 32) ((x.doorbell + qSize x - x.fetched) % qSize x)
      let s1 := modQueue h f q (fun y => { y with fetching := false, fetched := (y.fetched + n) % qSize y, raw := y.raw ++ splitDescrs 8 n bytes }) s
      fetchQueue h f q (flushQueue h f q (parseTx h f q (x.raw.length + n) s1))

/-- Receive buffer descriptors have been read. -/
def rxDescrDone (h : HostId) (f : Fn) (q : Nat) (st : CplStatus) (bytes : List Byte) (s : State) : State :=
  match queue s h f q with
  | none => s
  | some x =>
    if x.failed ∨ x.kind ≠ 2 then s
    else if st ≠ .ok then failQueue h f q 1 x.fetched s
    else
      let n := min (bytes.length / 16) ((x.doorbell + qSize x - x.fetched) % qSize x)
      let bufs := (splitDescrs 4 n bytes).map fun d => { addr := d.getD 0 0 + d.getD 1 0 * 2 ^ 32, len := descrLen d, cookie := d.getD 3 0 : RxBuf }
      fetchQueue h f q (modQueue h f q (fun y => { y with fetching := false, fetched := (y.fetched + n) % qSize y, bufs := y.bufs ++ bufs }) s)

/-! Doorbells (R102) -/

/-- A network doorbell of a queue of one kind: ignored where no such queue is, undefined beyond the ring or over unconsumed entries, recorded in QUIESCE and MAINTENANCE. -/
def netDoorbell (kinds : Nat → Bool) (h : HostId) (f : Fn) (q : Nat) (v : Word) (s : State) : Host.Outcome State Fault Refusal :=
  match queue s h f q with
  | none => .next s
  | some x =>
    let n := v.toNat % 2 ^ 15
    if !kinds x.kind then .next s
    else if qSize x ≤ n then .refused (.undefinedCase 102)
    else if x.kind = 3 then
      if (x.head + qSize x - x.doorbell) % qSize x < (n + qSize x - x.doorbell) % qSize x then .refused (.undefinedCase 102)
      else .next (drainLate h f q (x.late.length) (modQueue h f q (fun y => { y with doorbell := n }) s))
    else if qSize x ≤ (x.doorbell + qSize x - x.head) % qSize x + (n + qSize x - x.doorbell) % qSize x then .refused (.undefinedCase 102)
    else .next (fetchQueue h f q (modQueue h f q (fun y => { y with doorbell := n }) s))

/-- TXQ_DOORBELL. -/
def execTxqDoorbell (h : HostId) (f : Fn) (q : BitVec 16) (v : Word) (s : State) : Host.Outcome State Fault Refusal :=
  netDoorbell (fun k => k == 1) h f q.toNat v s
/-- RXQ_DOORBELL. -/
def execRxqDoorbell (h : HostId) (f : Fn) (q : BitVec 16) (v : Word) (s : State) : Host.Outcome State Fault Refusal :=
  netDoorbell (fun k => k == 2) h f q.toNat v s
/-- CQ_DOORBELL: room for entries lets its queues go on. -/
def execCqDoorbell (h : HostId) (f : Fn) (q : BitVec 16) (v : Word) (s : State) : Host.Outcome State Fault Refusal :=
  match netDoorbell (fun k => k == 3) h f q.toNat v s with
  | .next s' => .next (kickQueues (fun h' f' => h' == h && f' == f) s')
  | o => o

/-- CQ_COALESCE_TIMER (R102): COAL_TIME has passed since the first unsignalled entry. -/
def execCqCoalesceTimer (h : HostId) (f : Fn) (q : BitVec 16) (s : State) : Host.Outcome State Fault Refusal :=
  .next (match queue s h f q.toNat with
    | none => s
    | some x => if x.kind = 3 ∧ x.coalTime ≠ 0 ∧ x.unsignalled ≠ 0 then cqSignal h f q.toNat x.vector s else s)

/-! The scheduler leaves of queues (R218, R234) -/

/-- A leaf's key within its host. -/
def leafKey (dir : Nat) (f : Fn) (q : Nat) : Nat := dir * 2 ^ 30 + f.index * 65536 + q
/-- The fixed receive queue group of a function (R218). -/
def rxGroup : Fn → Nat
  | .vf v => 1 + v.val
  | _ => 0
/-- Every coat of SCHED_HOST n changed. -/
def modSchedBoth (h : HostId) (g : SchedHost → SchedHost) (s : State) : State :=
  modUnits h (fun u => { u with sched := ⟨g u.sched.under, g u.sched.top, g u.sched.old⟩ }) s
/-- A new leaf joins its group at once with weight 1 and no shaper (R234). -/
def addLeaf (h : HostId) (dir : Nat) (f : Fn) (q group : Nat) (s : State) : State :=
  modSchedBoth h (fun u => { u with leaves := Tbl.put u.leaves (leafKey dir f q) { Node.reset with parent := group } }) s
/-- The key of a leaf among all nodes. -/
def leafNode (h : HostId) (dir : Nat) (f : Fn) (q : Nat) : Nat := 5 * 2 ^ 40 + dir * 2 ^ 39 + qKey h f q
/-- A leaf leaves the tree and the wheel (R231). -/
def dropLeaf (h : HostId) (dir : Nat) (f : Fn) (q : Nat) (s : State) : State :=
  let n := leafNode h dir f q
  let s1 := modSchedBoth h (fun u => { u with leaves := Tbl.del u.leaves (leafKey dir f q) }) s
  { s1 with sched := { s1.sched with credits := Tbl.del s1.sched.credits n, parked := s1.sched.parked.filter fun p => p.node != n } }

/-- Leaves of the one pool of R216. -/
def leavesUsed (s : State) : Nat := Tbl.countIf s.queues fun _ q => q.kind != 3
/-- Queues of a host, or of one function, that QUEUES counts (R510). -/
def queuesOf (s : State) (h : HostId) : Nat := Tbl.countIf s.queues fun k _ => k / 65536 / 1024 == h.val
/-- Queues of one function. -/
def queuesOfFn (s : State) (h : HostId) (f : Fn) : Nat := Tbl.countIf s.queues fun k _ => k / 65536 == fnKey h f

/-! Creating queues (R97) -/

/-- A queue with nothing set. -/
def Queue.empty : Queue where
  kind := 0
  log2 := 6
  cls := 0
  cq := 0
  vector := 0
  coalCount := 0
  coalTime := 0
  group := 0
  stamp := false
  base := 0
  head := 0
  doorbell := 0
  packets := 0
  bytes := 0
  drops := 0
  failed := false
  reason := 0
  phase := true
  unsignalled := 0
  firstAt := 0
  late := []
  bufs := []
  fetching := false
  fetched := 0
  raw := []
  ready := []
  reading := []
  cpls := []
  hodWait := false
  conn := 0

/-- Word j of record k. -/
def recW (p : Packet) (k j : Nat) : Nat := p.w (2 + 6 * k + j)
/-- COUNT. -/
def qCount (p : Packet) : Nat := p.f 0 0 5

/-- Queue IDs of a function (R93). -/
def queueIds : Fn → Nat
  | .pf0 => 16384
  | _ => 4096

/-- The CQ a record names exists: a live CQ of the function, or a CQ record of the command. -/
def goodCq (s : State) (h : HostId) (f : Fn) (p : Packet) (k : Nat) : Bool :=
  let id := bitsAt (recW p k 0) 16 16
  if 0x8000 ≤ id then id - 0x8000 < qCount p && bitsAt (recW p (id - 0x8000) 0) 0 4 == 3
  else match queue s h f id with
    | none => false
    | some q => q.kind == 3

/-- A record is one QUEUE_CREATE refuses with BAD_PARAM (R97). -/
def badRecord (s : State) (h : HostId) (f : Fn) (p : Packet) (k : Nat) : Bool :=
  let kind := bitsAt (recW p k 0) 0 4
  let log2 := bitsAt (recW p k 0) 4 4
  !(kind == 1 || kind == 2 || kind == 3) || log2 < 6 || bitsAt (recW p k 0) 11 5 != 0 || bitsAt (recW p k 1) 11 5 != 0
    || bitsAt (recW p k 2) 0 6 != 0 || bitsAt (recW p k 5) 1 31 != 0
    || (kind != 1 && (bitsAt (recW p k 0) 8 3 != 0 || bitsAt (recW p k 1) 16 16 != 0))
    || (kind == 3 && (bitsAt (recW p k 0) 16 16 != 0 || msixSize f ≤ bitsAt (recW p k 1) 0 11))
    || (kind != 3 && !goodCq s h f p k)

/-- The first of `n` free consecutive queue IDs, freely chosen. -/
def freeIds (s : State) (h : HostId) (f : Fn) (n : Nat) : Option Nat :=
  pickFrom (freshNat s) (queueIds f) fun i => i + n ≤ queueIds f && (upFrom i n).all fun j => (queue s h f j).isNone

/-- The queue of record k. -/
def queueOfRecord (p : Packet) (first k : Nat) : Queue :=
  let kind := bitsAt (recW p k 0) 0 4
  let id := bitsAt (recW p k 0) 16 16
  { Queue.empty with
    kind := kind, log2 := bitsAt (recW p k 0) 4 4, cls := if kind = 1 then bitsAt (recW p k 0) 8 3 else 0
    cq := if kind = 3 then 0 else if 0x8000 ≤ id then first + (id - 0x8000) else id
    vector := if kind = 3 then bitsAt (recW p k 1) 0 11 else 0
    group := bitsAt (recW p k 1) 16 16, base := recW p k 2 + recW p k 3 * 2 ^ 32
    coalCount := bitsAt (recW p k 4) 0 16, coalTime := bitsAt (recW p k 4) 16 16, stamp := bitAt (recW p k 5) 0 && kind == 2 }

/-- One record's queue created; a TXQ or RXQ joins its queue group. -/
def createOne (h : HostId) (f : Fn) (p : Packet) (first k : Nat) (s : State) : State :=
  let q := queueOfRecord p first k
  let s1 := { s with queues := Tbl.put s.queues (qKey h f (first + k)) q }
  match q.kind with
  | 1 => addLeaf h 0 f (first + k) q.group s1
  | 2 => addLeaf h 1 f (first + k) (rxGroup f) s1
  | _ => s1

/-- QUEUE_CREATE (R97). -/
def queueCreateDef : CmdDef where
  opcode := 0x0508
  host := true
  tenant := true
  objs := Obj.isFunc
  len := fun _ => true
  checks := fun o p s =>
    let h := hostOf o
    let f := fnOfObj o
    let leaves := ((upFrom 0 (qCount p)).filter fun k => bitsAt (recW p k 0) 0 4 != 3).length
    [ (p.len != 1 + 3 * qCount p, .badLength),
      (!netFn s h f || qCount p == 0 || 16 < qCount p || p.f 0 5 27 != 0 || p.w 1 != 0 || (upFrom 0 (qCount p)).any (badRecord s h f p), .badParam),
      (!quotaAllows s h f 0x10 (queuesOf s h) (queuesOfFn s h f) (qCount p) || 131072 < leavesUsed s + leaves || (freeIds s h f (qCount p)).isNone, .noResource) ]
  act := fun o p s =>
    let h := hostOf o
    let f := fnOfObj o
    let first := (freeIds s h f (qCount p)).getD 0
    reply [first] ((upFrom 0 (qCount p)).foldl (fun s k => createOne h f p first k s) (drawn1 s))

/-! Destroying and querying (R97, R511) -/

/-- A queue uses the CQ. -/
def cqUsed (s : State) (h : HostId) (f : Fn) (cq : Nat) : Bool :=
  s.queues.any fun e => e.1 / 65536 == fnKey h f && e.2.kind != 3 && e.2.cq == cq

/-- A queue leaves: its leaf, its packets at the scheduler and itself. -/
def removeQueue (h : HostId) (f : Fn) (q : Nat) (s : State) : State :=
  match queue s h f q with
  | none => s
  | some x =>
    let s1 := x.reading.foldl (fun s r => freeHods r.hods s) s
    let s2 := match x.kind with
      | 1 => dropLeaf h 0 f q s1
      | 2 =>
        let waiting := Tbl.getD s1.sched.rx (qKey h f q) []
        dropLeaf h 1 f q { waiting.foldl (fun s (k : Pkt) => freeHods k.hods s) s1 with sched := { s1.sched with rx := Tbl.del s1.sched.rx (qKey h f q) } }
      | _ => s1
    { s2 with queues := Tbl.del s2.queues (qKey h f q) }

/-- QUEUE_DESTROY (R97, R511). -/
def queueDestroyDef : CmdDef where
  opcode := 0x0509
  host := true
  tenant := true
  gate := .destroy
  objs := Obj.isFunc
  len := fun n => n == 1
  checks := fun o p s =>
    let h := hostOf o
    let f := fnOfObj o
    let q := queue s h f (p.f 0 0 16)
    [ (!netFn s h f || p.f 0 16 16 != 0 || p.w 1 != 0, .badParam),
      ((match q with
        | none => false
        | some x => x.kind == 4 || x.kind == 5 || (x.kind == 3 && cqUsed s h f (p.f 0 0 16))), .busy),
      (q.isNone, .entryAbsent) ]
  act := fun o p s => reply [] (removeQueue (hostOf o) (fnOfObj o) (p.f 0 0 16) (flushRest (hostOf o) (fnOfObj o) (p.f 0 0 16) s))

/-- The 48 bytes of QUEUE_QUERY (R511). -/
def queueWords (x : Queue) : List Nat :=
  [ x.kind + x.log2 * 16 + (if x.kind = 2 ∨ x.kind = 3 then 0 else x.cls * 256) + b2n x.failed * 65536 + x.reason * 2 ^ 24,
    (if x.kind = 3 then x.vector * 65536 else x.cq),
    (if x.kind = 3 then x.head else x.fetched), x.doorbell ]
    ++ words64 x.packets ++ words64 (if x.kind = 3 then 0 else x.bytes) ++ words64 x.drops ++ [0, 0]

/-- QUEUE_QUERY (R511). -/
def queueQueryDef : CmdDef where
  opcode := 0x050A
  host := true
  tenant := true
  objs := Obj.isFunc
  longResult := true
  len := fun n => n == 1
  checks := fun o p s =>
    [ (!netFn s (hostOf o) (fnOfObj o) || p.f 0 16 16 != 0 || p.w 1 != 0, .badParam),
      ((queue s (hostOf o) (fnOfObj o) (p.f 0 0 16)).isNone, .entryAbsent) ]
  act := fun o p s => replyLong (queueWords ((queue s (hostOf o) (fnOfObj o) (p.f 0 0 16)).getD Queue.empty)) s

/-- QUEUE_CREATE. -/
def execQueueCreate (p : Packet) (s : State) : Host.Outcome State Fault Refusal := .next (runCmd queueCreateDef (.queueCreate p) p s)
/-- QUEUE_DESTROY. -/
def execQueueDestroy (p : Packet) (s : State) : Host.Outcome State Fault Refusal := .next (runCmd queueDestroyDef (.queueDestroy p) p s)
/-- QUEUE_QUERY. -/
def execQueueQuery (p : Packet) (s : State) : Host.Outcome State Fault Refusal := .next (runCmd queueQueryDef (.queueQuery p) p s)

/-! Delivery to a receive queue (R99, R100) -/

/-- The buffers a packet of a length fills, at most 8; none when those read do not hold it. -/
def takeBufs : (fuel len : Nat) → List RxBuf → Option (List RxBuf)
  | 0, len, _ => if len = 0 then some [] else none
  | k + 1, len, bs =>
    if len = 0 then some []
    else match bs with
      | [] => none
      | b :: r => (takeBufs k (len - b.len) r).map fun x => b :: x

/-- Every posted buffer has been read, or those read are enough: the packet's fate is known. -/
def rxKnown (x : Queue) (len : Nat) : Bool := (takeBufs 8 len x.bufs).isSome || x.fetched == x.doorbell || 8 ≤ x.bufs.length

/-- The entry of a received packet (R100). (DEDUCED, log 56) -/
def rxEntry (k : Pkt) (q : Nat) (stamp : Bool) (bufs : List RxBuf) (first : Nat) : List Nat :=
  let off := Config.rxOffload k.bytes
  [ 2 * 2 ^ 28 + bufs.length * 2 ^ 19 + k.cls * 2 ^ 16 + q, first, (bufs.headD ⟨0, 0, 0⟩).cookie,
    b2n k.decrypted * 2 ^ 21 + off.1 % 8 * 2 ^ 18 + k.bytes.length % 2 ^ 18, k.hash, k.mark * 65536 + off.2 % 65536 ]
    ++ words64 (if stamp then k.arrived else 0)

/-- The bytes written to each buffer. -/
def writeBufs (h : HostId) (f : Fn) : List RxBuf → List Byte → State → State
  | [], _, s => s
  | b :: r, bs, s => writeBufs h f r (bs.drop b.len) (emit (.hostWrite h f b.addr (bs.take b.len)) s)

/-- A packet taken from its leaf is written to its queue's buffers, or dropped and counted (R99, R102). -/
def deliverRx (h : HostId) (f : Fn) (q : Nat) (k : Pkt) (s : State) : State :=
  match queue s h f q with
  | none => count 0x06 0 (0x200 + 8 * h.val + 4) 1 (freeHods k.hods s)
  | some x =>
    if x.kind ≠ 2 ∨ x.failed then count 0x06 0 (0x200 + 8 * h.val + 4) 1 (freeHods k.hods s)
    else if cqOfFull s h f x then
      freeHods k.hods (countFn h f 1 (modQueue h f x.cq (fun c => { c with drops := c.drops + 1 }) s))
    else match takeBufs 8 k.bytes.length x.bufs with
      | none => freeHods k.hods (countFn h f 0 (modQueue h f q (fun y => { y with drops := y.drops + 1 }) s))
      | some bufs =>
        let s0 := if x.stamp then count 0x02 0 (32 * k.port + 10) 1 s else s
        let s1 := writeBufs h f bufs k.bytes (modQueue h f q (fun y => { y with
          bufs := y.bufs.drop bufs.length, head := (y.head + bufs.length) % qSize y, packets := y.packets + 1, bytes := y.bytes + k.bytes.length }) s0)
        { s1 with net := { s1.net with delivering := vmod s1.net.delivering h fun l => l ++ [({ k with target := fnKey h f, queue := x.cq }, rxEntry k q x.stamp bufs x.head)] } }

/-- RX_DELIVERY_WRITE_DONE (R22, R207): the oldest delivery's last write has been handed over; its entry is written and its hods freed. -/
def execRxDeliveryWriteDone (h : HostId) (s : State) : Host.Outcome State Fault Refusal :=
  .next (match s.net.delivering[h] with
    | [] => s
    | (k, ws) :: r =>
      let s1 := { s with net := { s.net with delivering := vset s.net.delivering h r } }
      writeCqe h (fnOfIndex (k.target % 1024)) k.queue ws (freeHods k.hods s1))

end Sys2Proof.Machine
end

