-- ==== Sys2Proof/Machine/Sched.lean ====
section
/-! DEFINITION. Sched.lean: the scheduler trees, shapers, policers, class 7 limiters, the timing wheel, and their commands (chapter 9). -/

namespace Sys2Proof.Machine
open Sys2Proof

/-! Node keys: one number for every node of every tree -/

/-- A level-0 node. -/
def node0 (dir n : Nat) : Nat := 1 * 2 ^ 40 + dir * 2 ^ 32 + n
/-- A level-1 node of a host, or of forwarding (8). -/
def node1 (dir port h : Nat) : Nat := 2 * 2 ^ 40 + dir * 2 ^ 32 + port * 16 + h
/-- A VF group. -/
def node2 (dir : Nat) (h : HostId) (n : Nat) : Nat := 3 * 2 ^ 40 + dir * 2 ^ 32 + h.val * 4096 + n
/-- A queue group. -/
def node3 (dir : Nat) (h : HostId) (n : Nat) : Nat := 4 * 2 ^ 40 + dir * 2 ^ 32 + h.val * 4096 + n
/-- A forwarding queue of a port and class (R219). -/
def nodeFwd (port c : Nat) : Nat := 6 * 2 ^ 40 + port * 8 + c
/-- The transmit limiter of a port (R227). -/
def nodeLimit (port : Nat) : Nat := 7 * 2 ^ 40 + port
/-- A policer or receive limiter. -/
def nodePolicer (i : Nat) : Nat := 8 * 2 ^ 40 + i

/-- The scheduler changed. -/
def modSched (f : Sched → Sched) (s : State) : State := { s with sched := f s.sched }

/-! Settings in force -/

/-- A level-0 node's settings in one coat. -/
def topNode (t : SchedTop) (dir n : Nat) : TopNode := Tbl.getD t.links (dir * 64 + n) TopNode.reset
/-- A level-1 node's settings. -/
def hostNode (t : SchedTop) (dir port h : Nat) : Node := Tbl.getD t.hosts ((dir * 64 + port) * 16 + h) Node.reset
/-- A group's key within its host. -/
def groupKey (dir level n : Nat) : Nat := dir * 65536 + (if level = 3 then 4096 else 0) + n
/-- A group's settings. -/
def groupOfKey (u : SchedHost) (dir level n : Nat) : Node := Tbl.getD u.groups (groupKey dir level n) Node.reset
/-- A fixed receive group (R218): queue group 0 and 1 + v of an enabled VF of PF0, and VF group 0. -/
def fixedGroup (s : State) (h : HostId) (dir level n : Nat) : Bool :=
  dir == 1 && (n == 0 || (level == 3 && n ≤ 512 && vfEnabled s h (n - 1) && !vfOnPf1 s h (n - 1)))
/-- A VF group or queue group is valid. -/
def validGroup (s : State) (h : HostId) (u : SchedHost) (dir level n : Nat) : Bool :=
  fixedGroup s h dir level n || Tbl.has u.groups (groupKey dir level n)

/-- The rate of a port in Mb/s. -/
def portRate (s : State) (p : Lane) : Nat := (s.eth.ports[p]).width * 200000
/-- The rate of a host link in Mb/s, from its speed code and width. -/
def linkRate (s : State) (h : HostId) : Nat := (link s h).width * [0, 2500, 5000, 8000, 16000, 32000, 64000, 128000].getD (link s h).speed 0
/-- The lane of a port number. -/
def laneIx (n : Nat) : Lane := ⟨n % 64, Nat.mod_lt _ (by decide)⟩
/-- The host of a number. -/
def hostIx (n : Nat) : HostId := ⟨n % 8, Nat.mod_lt _ (by decide)⟩
/-- The rate a level-0 node serves at (R224). -/
def rootRate (s : State) (dir n : Nat) : Nat :=
  let full := if dir = 0 then portRate s (laneIx n) else linkRate s (hostIx n)
  let r := (topNode s.sched.top.top dir n).rate
  if r = 0 then full else min r full

/-- One node on a leaf's path: its key, weight, shaper and mask. -/
structure PathNode where
  key : Nat
  weight : Nat
  rate : Nat
  burst : Nat
  permit : Nat
deriving DecidableEq, Repr

/-- A path node of a node's settings. -/
def pathNode (key : Nat) (n : Node) : PathNode := ⟨key, n.weight, n.rate, n.burst, n.permit⟩

/-- The path from the root to a leaf of a host, root first, with the root's number; none where a group is not valid (R217). -/
def leafPath (s : State) (h : HostId) (dir : Nat) (leaf : Nat) (settings : Node) : Option (Nat × List PathNode) :=
  let u := (s.net.units[h]).sched.top
  if !validGroup s h u dir 3 settings.parent then none
  else
    let g3 := groupOfKey u dir 3 settings.parent
    if !validGroup s h u dir 2 g3.parent then none
    else
      let g2 := groupOfKey u dir 2 g3.parent
      let root := if dir = 0 then g2.parent else h.val
      let port := if dir = 0 then root else 0
      let t := topNode s.sched.top.top dir root
      let n1 := hostNode s.sched.top.top dir port h.val
      let w := (s.sched.share.top.weights.toList.getD dir []).getD h.val 0
      some (root, [ ⟨node0 dir root, 1, rootRate s dir root, t.burst, 0xFF⟩, ⟨node1 dir root h.val, w, n1.rate, n1.burst, n1.permit⟩,
        pathNode (node2 dir h g3.parent) g2, pathNode (node3 dir h settings.parent) g3, pathNode leaf settings ])

/-- The settings of a queue's leaf. -/
def leafSettings (s : State) (h : HostId) (dir : Nat) (f : Fn) (q : Nat) : Node :=
  Tbl.getD (s.net.units[h]).sched.top.leaves (leafKey dir f q) Node.reset

/-- The path of a queue's leaf. -/
def queuePath (s : State) (h : HostId) (dir : Nat) (f : Fn) (q : Nat) : Option (Nat × List PathNode) :=
  leafPath s h dir (leafNode h dir f q) (leafSettings s h dir f q)

/-- The path of a forwarding queue (R219). -/
def forwardPath (s : State) (port c : Nat) : List PathNode :=
  let t := topNode s.sched.top.top 0 port
  let n := hostNode s.sched.top.top 0 port 8
  [ ⟨node0 0 port, 1, rootRate s 0 port, t.burst, 0xFF⟩, ⟨node1 0 port 8, s.sched.share.top.forward, n.rate, n.burst, n.permit⟩,
    ⟨nodeFwd port c, 1, 0, 0, 0xFF⟩ ]

/-! Credit (R224, R226) -/

/-- The 8 ns instant. (DESIGN CHOICE, log 7) -/
def now8 (s : State) : Nat := nowNs s / 8
/-- A credit brought up to an instant: with backlog it grows to BURST, without only to 0. -/
def grow (rate burst : Nat) (c : Credit) (now : Nat) : Credit :=
  let x := c.credit + rate * (now - c.at_)
  { c with at_ := now, credit := if c.active then min (burst * 1000 : Int) x else if 0 ≤ c.credit then 0 else min 0 x }
/-- A node's credit now; a node with no shaper has none to lose. -/
def creditOf (s : State) (key rate burst : Nat) : Credit := grow rate burst (Tbl.getD s.sched.credits key ⟨0, now8 s, false⟩) (now8 s)
/-- A node's credit set. -/
def setCredit (key : Nat) (c : Credit) (s : State) : State := modSched (fun x => { x with credits := Tbl.put x.credits key c }) s

/-- A node is parked for credit, or a leaf for its launch time. -/
def isParked (s : State) (key : Nat) (launch : Bool) : Bool := s.sched.parked.any fun p => p.node == key && p.launch == launch
/-- A node serves classes 0 to 6 now (R221). -/
def eligible (s : State) (n : PathNode) : Bool := n.rate == 0 || (!isParked s n.key false && 0 ≤ (creditOf s n.key n.rate n.burst).credit)

/-- A node parked until a DTIME (R228); it is parked at most once for each reason. -/
def park (key ahead : Nat) (launch : Bool) (s : State) : State :=
  if isParked s key launch then s
  else modSched (fun x => { x with parked := x.parked ++ [{ node := key, due := dtimeNs s + ahead, coarse := 524288 ≤ ahead, launch := launch }] }) s

/-- Nanoseconds until a negative credit reaches 0. -/
def creditWait (c : Int) (rate : Nat) : Nat := 8 * ceilDiv (-c).toNat rate

/-- A node's credit falls by a packet; a negative one parks it (R224). -/
def chargeNode (key rate burst bytes : Nat) (s : State) : Bool × State :=
  if rate = 0 then (false, s)
  else
    let c := creditOf s key rate burst
    let v := c.credit - bytes * 1000
    let s1 := setCredit key { c with credit := v } s
    if v < 0 ∧ !isParked s key false then (true, park key (creditWait v rate) false s1) else (false, s1)

/-- A node gains backlog: from now on its credit may grow to BURST. -/
def activate (n : PathNode) (s : State) : State :=
  if n.rate = 0 then s else
    let c := creditOf s n.key n.rate n.burst
    if c.active then s else setCredit n.key { c with active := true } s

/-- A node becomes empty: positive credit is discarded. -/
def deactivate (n : PathNode) (s : State) : State :=
  if n.rate = 0 then s else
    let c := creditOf s n.key n.rate n.burst
    setCredit n.key { c with active := false, credit := min 0 c.credit } s

/-! Policers and receive limiters (R226, R227) -/

/-- RATE and BURST of a policer or limiter. -/
def policerSet (t : SchedTop) (i : Nat) : Nat × Nat := Tbl.getD t.policers i (if i < 32768 then (2000000, 1048575) else (0, 2048))
/-- A limiter's rate: at most a tenth of its port's or link's. -/
def limiterRate (s : State) (t : SchedTop) (i : Nat) : Nat :=
  let r := (policerSet t i).1
  if i < 32832 then min r (portRate s (laneIx (i - 32768)) / 10)
  else if i < 32840 then min r 175000
  else min r (portRate s (laneIx (i - 32840)) / 10)

/-- Credit of a policer, which grows at all times; a recoat keeps it, capped at the new BURST. -/
def policerCredit (s : State) (i rate burst : Nat) : Int :=
  (grow rate burst { Tbl.getD s.sched.credits (nodePolicer i) ⟨0, 0, true⟩ with active := true } (now8 s)).credit

/-- A packet's policers are all evaluated, and charged only if all conform: index, rate, burst. -/
def police (ps : List (Nat × Nat × Nat)) (len : Nat) (s : State) : Bool × State :=
  let ok := ps.all fun p => 0 ≤ policerCredit s p.1 p.2.1 p.2.2
  let s1 := ps.foldl (fun t p =>
    let c := policerCredit s p.1 p.2.1 p.2.2
    let t1 := setCredit (nodePolicer p.1) ⟨if ok then c - len * 1000 else c, now8 s, true⟩ t
    if p.1 < 32768 then
      let b := 0x10000 + 4 * p.1 + (if ok then 0 else 2)
      if ok ∨ c < 0 then count 0x07 0 (b + 1) len (count 0x07 0 b 1 t1) else t1
    else if c < 0 then count 0x07 0 (16 * (if p.1 < 32832 then 64 + (p.1 - 32768) else 128 + (p.1 - 32832)) + 2) 1 t1
    else t1) s
  (ok, s1)

/-! Effective class (R220) -/

/-- The highest class at or below one that every mask permits; class 0 always is. -/
def permitted (masks : List Nat) : Nat → Nat
  | 0 => 0
  | c + 1 => if masks.all fun m => bitAt m (c + 1) then c + 1 else permitted masks c

/-- The effective class, and the counter of R237 a demotion of class 7 advances. -/
def effectiveClass (base len : Nat) (limited : Bool) (masks : List Nat) : Nat × Option Nat :=
  if base = 7 ∧ 2048 < len then (permitted masks 6, some 4)
  else if base = 7 ∧ limited then (permitted masks 6, some 3)
  else if base = 7 ∧ permitted masks 7 < 7 then (permitted masks 7, some 3)
  else (permitted masks base, none)

/-! DWRR and round robin (R221) -/

/-- A candidate packet: what it belongs to, the nodes still above it, its class and its bytes with gap. -/
structure Cand where
  leaf : Nat
  path : List PathNode
  cls : Nat
  demoted : Option Nat
  bytes : Nat
deriving DecidableEq, Repr

/-- A list turned so that the element after the cursor comes first. -/
def fromCursor (cursor : Nat) (kids : List (Nat × Nat × Nat)) : List (Nat × Nat × Nat) :=
  (kids.filter fun k => cursor < k.1) ++ (kids.filter fun k => k.1 ≤ cursor)

/-- Round robin: the next child after the one served last. -/
def roundRobin (ck : Nat) (kids : List (Nat × Nat × Nat)) (sc : Sched) : Option (Nat × Sched) :=
  match fromCursor (Tbl.getD sc.cursors ck 0) kids with
  | [] => none
  | k :: _ => some (k.1, { sc with cursors := Tbl.put sc.cursors ck k.1 })

/-- Rounds of quanta a child needs before its deficit covers its head packet. (DEDUCED, log 60) -/
def roundsFor (c : Nat) (sc : Sched) (k : Nat × Nat × Nat) : Nat :=
  ceilDiv (k.2.2 - Tbl.getD sc.deficits (k.1 * 8 + c) 0) (16 * k.2.1)

/-- Deficit weighted round robin over children (key, weight, bytes of the head) of positive weight: the child first covered is served, and every child visited before it gains its quanta. (DEDUCED, log 60) -/
def dwrr (c ck : Nat) (kids : List (Nat × Nat × Nat)) (sc : Sched) : Option (Nat × Sched) :=
  let ring := fromCursor (Tbl.getD sc.cursors ck 0 - 1) (kids.filter fun k => k.2.1 != 0)
  match ring.foldl (fun (best : Option (Nat × Nat × Nat × Nat)) k =>
      let r := roundsFor c sc k
      match best with
      | none => some (r, k)
      | some (r', _) => if r < r' then some (r, k) else best) none with
  | none => none
  | some (r, win) =>
    let before := ring.takeWhile fun k => k.1 != win.1
    let after := (ring.dropWhile fun k => k.1 != win.1).drop 1
    let gain (n : Nat) (k : Nat × Nat × Nat) (d : Tbl Nat) : Tbl Nat :=
      Tbl.put d (k.1 * 8 + c) (Tbl.getD d (k.1 * 8 + c) 0 + n * 16 * k.2.1)
    let d1 := before.foldl (fun d k => gain r k d) sc.deficits
    let d2 := after.foldl (fun d k => gain (r - 1) k d) d1
    let d3 := gain r win d2
    some (win.1, { sc with deficits := Tbl.put d3 (win.1 * 8 + c) (Tbl.getD d3 (win.1 * 8 + c) 0 - win.2.2), cursors := Tbl.put sc.cursors ck win.1 })

/-- One choice among children: by weight, or in round robin among those of weight 0 when no other is there. -/
def chooseChild (c parent : Nat) (kids : List (Nat × Nat × Nat)) (sc : Sched) : Option (Nat × Sched) :=
  let ck := parent * 8 + c
  if c = 7 ∨ kids.all (fun k => k.2.1 == 0) then roundRobin ck kids sc else dwrr c ck kids sc

/-- A list of children put in key order, each once. -/
def insertKid (k : Nat × Nat × Nat) : List (Nat × Nat × Nat) → List (Nat × Nat × Nat)
  | [] => [k]
  | x :: r => if k.1 < x.1 then k :: x :: r else if k.1 = x.1 then x :: r else x :: insertKid k r

/-- The packet a node serves in class c, level by level (R221). -/
def pick (c : Nat) : (fuel parent : Nat) → List Cand → Sched → Option (Cand × Sched)
  | 0, _, _, _ => none
  | n + 1, parent, cs, sc =>
    match cs.find? fun x => x.path.isEmpty with
    | some x => some (x, sc)
    | none =>
      let below (key : Nat) : List Cand := (cs.filter fun x => (x.path.head?.map (·.key)) == some key).map fun x => { x with path := x.path.drop 1 }
      let kids := cs.foldl (fun l x => match x.path.head? with
        | none => l
        | some p => insertKid (p.key, p.weight, ((pick c n p.key (below p.key) sc).map fun r => r.1.bytes).getD 0) l) []
      match chooseChild c parent kids sc with
      | none => none
      | some (key, sc1) => pick c n key (below key) sc1

/-- The class served among classes 0 to 6 with eligible work: by weight, the highest among classes of weight 0 (R221). -/
def pickClass (root : Nat) (weights : List Nat) (cs : List Cand) (sc : Sched) : Option (Nat × Sched) :=
  let present := (upFrom 0 7).filter fun c => cs.any fun x => x.cls == c
  let kids := present.map fun c => (c + 1, weights.getD c 0, ((pick c 6 root (cs.filter fun x => x.cls == c) sc).map fun r => r.1.bytes).getD 0)
  if kids.all fun k => k.2.1 == 0 then present.getLast?.map fun c => (c, sc)
  else (dwrr 7 (root * 8 + 6 + 2 ^ 60) (kids.map fun k => (root * 16 + k.1, k.2)) sc).map fun r => (r.1 % 16 - 1, r.2)

/-! The timing wheel (R228 to R230) -/

/-- Nodes leave the wheel and become eligible, in the order they were parked. -/
def release (p : Parked → Bool) (s : State) : State := modSched (fun x => { x with parked := x.parked.filter fun e => !p e }) s

/-- TIMING_WHEEL_SLOT_DUE: slot k of the fine wheel. -/
def execTimingWheelSlotDue (slot : Nat) (s : State) : Host.Outcome State Fault Refusal :=
  .next (release (fun e => !e.coarse && ceilDiv e.due 8 % 65536 == slot) s)

/-- COARSE_SLOT_DUE: the entries of a coarse slot move to the fine wheel. -/
def execCoarseSlotDue (slot : Nat) (s : State) : Host.Outcome State Fault Refusal :=
  .next (modSched (fun x => { x with parked := x.parked.map fun e =>
    if e.coarse && e.due / 524288 % 4096 == slot then { e with coarse := false } else e }) s)

/-- DTIME_STEP (R131, R230): DTIME moves forward and every parked node whose instant has passed is released and counted. -/
def execDtimeStep (v : Word) (s : State) : Host.Outcome State Fault Refusal :=
  let s1 := { s with dtime := s.dtime + v.toNat * 2 ^ 32 }
  let due (e : Parked) : Bool := e.due ≤ dtimeNs s1
  .next (release due (count 0x07 0 0x30002 (s1.sched.parked.filter due).length s1))

/-! Commands (R232, R233) -/

/-- DIRECTION, LEVEL and NODE of a scheduler command. -/
def scDir (p : Packet) : Nat := p.f 0 0 1
/-- LEVEL. -/
def scLevel (p : Packet) : Nat := p.f 0 1 3
/-- NODE. -/
def scNode (p : Packet) : Nat := p.f 1 0 17

/-- A port starts at a lane in the active layout. -/
def portStarts (s : State) (n : Nat) : Bool := n < 64 && (s.eth.ports[laneIx n]).width != 0

/-- TARGET names what the level asks for. -/
def scTarget (o : Obj) (p : Packet) : Bool :=
  match scLevel p with
  | 0 => o.isDevice
  | 1 => o.isHost || (o.isDevice && scDir p == 0)
  | 4 => o.isFunc
  | _ => o.isHost

/-- The unit a level belongs to. -/
def scUnit (o : Obj) (p : Packet) : Fin 32 := if scLevel p < 2 then 2 else unitBit (.schedHost (hostOf o))

/-- The undercoat of a host's SCHED_HOST. -/
def schedUnder (s : State) (o : Obj) : SchedHost := (s.net.units[hostOf o]).sched.under

/-- A live queue may be the leaf of a direction. -/
def leafLive (s : State) (o : Obj) (p : Packet) : Bool :=
  match queue s (hostOf o) (fnOfObj o) (scNode p) with
  | none => false
  | some q => if scDir p = 0 then q.kind == 1 || q.kind == 4 else q.kind == 2 || q.kind == 5

/-- NODE is out of range for its level. -/
def scBadNode (o : Obj) (p : Packet) (s : State) : Bool :=
  match scLevel p with
  | 0 => if scDir p = 0 then !portStarts s (scNode p) else 8 ≤ scNode p
  | 1 => if scDir p = 0 then !portStarts s (scNode p) else scNode p != 0
  | 2 => 512 ≤ scNode p
  | 3 => 2048 ≤ scNode p
  | 4 => !leafLive s o p
  | _ => true

/-- PARENT is not valid in the undercoat. -/
def scBadParent (o : Obj) (p : Packet) (s : State) : Bool :=
  let n := p.f 2 0 17
  match scLevel p with
  | 2 => p.b 0 4 && (if scDir p = 0 then !portStarts s n else n != 0)
  | 3 => p.b 0 4 && !validGroup s (hostOf o) (schedUnder s o) (scDir p) 2 n
  | 4 => !validGroup s (hostOf o) (schedUnder s o) (scDir p) 3 n
  | _ => false

/-- The node to delete has valid children in the undercoat. -/
def scHasChildren (o : Obj) (p : Packet) (s : State) : Bool :=
  let u := schedUnder s o
  !p.b 0 4 && (match scLevel p with
    | 2 => u.groups.any fun e => e.1 / 65536 == scDir p && 4096 ≤ e.1 % 65536 && e.2.parent == scNode p
    | 3 => u.leaves.any fun e => e.1 / 2 ^ 30 == scDir p && e.2.parent == scNode p
    | _ => false)

/-- Shapers a host uses at levels 2 to 4 of the undercoat. -/
def shapersUsed (u : SchedHost) : Nat := Tbl.countIf u.groups (fun _ n => n.rate != 0) + Tbl.countIf u.leaves fun _ n => n.rate != 0

/-- The node's settings in a coat, as RATE, BURST and the rest. -/
def scRead (u : SchedHost) (o : Obj) (p : Packet) : Node :=
  if scLevel p = 4 then Tbl.getD u.leaves (leafKey (scDir p) (fnOfObj o) (scNode p)) Node.reset else groupOfKey u (scDir p) (scLevel p) (scNode p)

/-- The level-1 host a command names: 8 for the forwarding node. -/
def scHost (o : Obj) : Nat := match o with
  | .device => 8
  | x => (hostOf x).val

/-- A group or leaf written, created or deleted in a coat of SCHED_HOST. -/
def putGroup (o : Obj) (p : Packet) (h : SchedHost) : SchedHost :=
  let new : Node := { scRead h o p with parent := p.f 2 0 17, weight := p.f 3 0 12, rate := p.f 4 0 21, burst := p.f 5 0 24 }
  if scLevel p = 4 then { h with leaves := Tbl.put h.leaves (leafKey (scDir p) (fnOfObj o) (scNode p)) new }
  else if p.b 0 4 then { h with groups := Tbl.put h.groups (groupKey (scDir p) (scLevel p) (scNode p)) new }
  else { h with groups := Tbl.del h.groups (groupKey (scDir p) (scLevel p) (scNode p)) }

/-- SCHED_NODE_SET's effect on the undercoat. -/
def setNode (o : Obj) (p : Packet) (s : State) : State :=
  let d := scDir p
  let n := scNode p
  match scLevel p with
  | 0 => modSched (fun x => { x with top := { x.top with under := { x.top.under with
      links := Tbl.put x.top.under.links (d * 64 + n) { topNode x.top.under d n with rate := p.f 4 0 21, burst := p.f 5 0 24, inflight := p.f 3 16 16 } } } }) s
  | 1 => modSched (fun x => { x with top := { x.top with under := { x.top.under with
      hosts := Tbl.put x.top.under.hosts ((d * 64 + n) * 16 + scHost o) { hostNode x.top.under d n (scHost o) with rate := p.f 4 0 21, burst := p.f 5 0 24 } } } }) s
  | _ => modUnits (hostOf o) (fun u => { u with sched := { u.sched with under := putGroup o p u.sched.under } }) s

/-- SCHED_NODE_SET (R232). -/
def schedNodeSetDef : CmdDef where
  opcode := 0x0500
  owner := true
  host := true
  absentOk := true
  len := fun n => n == 3
  checks := fun o p s =>
    [ (!mayWrite p.chan (scUnit o p) s, .notPermitted),
      (4 < scLevel p || !scTarget o p || p.f 0 5 27 != 0 || p.f 1 17 15 != 0 || p.f 2 17 15 != 0 || p.f 3 12 4 != 0 || p.f 4 21 11 != 0 || p.f 5 24 8 != 0, .badParam),
      (2000000 < p.f 4 0 21 || (p.f 4 0 21 != 0 && p.f 5 0 24 < 2048), .badParam),
      ((if scLevel p = 0 ∧ scDir p = 0 then p.f 3 16 16 < 64 || 4096 < p.f 3 16 16 else p.f 3 16 16 != 0), .badParam),
      (scBadNode o p s || scBadParent o p s || scHasChildren o p s, .badParam),
      (2 ≤ scLevel p && p.f 4 0 21 != 0 && (scRead (schedUnder s o) o p).rate == 0 && 8192 ≤ shapersUsed (schedUnder s o), .noResource) ]
      ++ unitBlocked (scUnit o p) s
  act := fun o p s => reply [] (setNode o p s)

/-- A node's key among the live nodes. -/
def scKey (o : Obj) (p : Packet) : Nat :=
  match scLevel p with
  | 0 => node0 (scDir p) (scNode p)
  | 1 => node1 (scDir p) (if scDir p = 0 then scNode p else scHost o) (scHost o)
  | 2 => node2 (scDir p) (hostOf o) (scNode p)
  | 3 => node3 (scDir p) (hostOf o) (scNode p)
  | _ => leafNode (hostOf o) (scDir p) (fnOfObj o) (scNode p)

/-- Bytes that wait at a queue's leaf. -/
def leafBacklog (s : State) (k : Nat) : Nat :=
  let q := k % 2 ^ 39
  if k / 2 ^ 39 % 2 = 0 then ((Tbl.find s.queues q).map fun x => x.ready.foldl (fun n t => n + t.len) 0).getD 0
  else (Tbl.getD s.sched.rx q []).foldl (fun n x => n + x.bytes.length) 0

/-- The leaves that live queues give, in both directions. -/
def allLeaves (s : State) : List Nat :=
  s.queues.flatMap fun e => match e.2.kind with
    | 1 => [5 * 2 ^ 40 + e.1]
    | 2 => [5 * 2 ^ 40 + 2 ^ 39 + e.1]
    | 5 => [5 * 2 ^ 40 + 2 ^ 39 + e.1]
    | _ => []

/-- The path of a leaf by its key. -/
def pathOfLeaf (s : State) (k : Nat) : Option (Nat × List PathNode) :=
  let q := k % 2 ^ 39
  queuePath s (hostOfKey (q / 65536)) (k / 2 ^ 39 % 2) (fnOfIndex (q / 65536 % 1024)) (q % 65536)

/-- Bytes that wait below a node (BACKLOG_BYTES). -/
def backlogOf (s : State) (key : Nat) : Nat :=
  (allLeaves s).foldl (fun n k => match pathOfLeaf s k with
    | none => n
    | some (_, path) => if path.any (fun x => x.key == key) then n + leafBacklog s k else n) 0
  + (s.sched.forward.foldl (fun n e => if (forwardPath s (e.1 / 8) (e.1 % 8)).any (fun x => x.key == key) then n + e.2.foldl (fun m x => m + x.bytes.length) 0 else n) 0)

/-- A signed number as 32 bits. -/
def signed32 (i : Int) : Nat := (i % 2 ^ 32).toNat

/-- The 24-byte record and the three samples of SCHED_NODE_GET. -/
def nodeWords (o : Obj) (p : Packet) (s : State) : List Nat :=
  let t := if p.topcoat then s.sched.top.top else s.sched.top.under
  let u := (s.net.units[hostOf o]).sched
  let h := if p.topcoat then u.top else u.under
  let (valid, n, infl) : Bool × Node × Nat := match scLevel p with
    | 0 => let x := topNode t (scDir p) (scNode p); (true, { Node.reset with weight := 0, rate := x.rate, burst := x.burst }, if scDir p = 0 then x.inflight else 0)
    | 1 => (true, { hostNode t (scDir p) (scNode p) (scHost o) with weight := 0 }, 0)
    | 4 => (true, scRead h o p, 0)
    | l => (validGroup s (hostOf o) h (scDir p) l (scNode p), scRead h o p, 0)
  let key := scKey o p
  let deficit := (upFrom 0 7).foldl (fun d c => max d (Tbl.getD s.sched.deficits (key * 8 + c) 0)) 0
  [ p.w 0 % 16 + b2n valid * 16, scNode p, n.parent, n.weight + infl * 65536, n.rate, n.burst,
    signed32 ((creditOf s key n.rate n.burst).credit / 1000), deficit % 2 ^ 32, backlogOf s key % 2 ^ 32 ]

/-- SCHED_NODE_GET (R232). -/
def schedNodeGetDef : CmdDef where
  opcode := 0x0501
  owner := true
  host := true
  absentOk := true
  longResult := true
  len := fun n => n == 1
  checks := fun o p s => [(4 < scLevel p || !scTarget o p || p.f 0 5 27 != 0 || p.f 1 17 15 != 0 || scBadNode o p s, .badParam)]
  act := fun o p s => replyLong (nodeWords o p s) s

/-- WEIGHT[h] of HOST_SHARE_SET. -/
def shareWeights (p : Packet) : List Nat := (List.range 8).map fun h => p.f (2 + h / 2) (16 * (h % 2)) 16

/-- HOST_SHARE_SET (R233). -/
def hostShareSetDef : CmdDef where
  opcode := 0x0502
  owner := true
  objs := Obj.isDevice
  len := fun n => n == 3
  checks := fun _ p s =>
    [ (p.f 0 0 2 == 3 || p.f 0 2 30 != 0 || p.f 1 10 22 != 0 || (p.f 0 0 2 != 0 && p.w 1 != 0) || 1000 < p.f 1 0 10, .badParam),
      (1000 < (shareWeights p).foldl (· + ·) 0 + p.f 1 0 10, .badParam) ] ++ unitBlocked 3 s
  act := fun _ p s => reply [] (modSched (fun x => { x with share := { x.share with under :=
    { weights := vset x.share.under.weights ⟨p.f 0 0 2 % 3, Nat.mod_lt _ (by decide)⟩ (shareWeights p)
      forward := if p.f 0 0 2 = 0 then p.f 1 0 10 else x.share.under.forward } } }) s)

/-- POLICER_SET (R233). -/
def policerSetDef : CmdDef where
  opcode := 0x0503
  owner := true
  objs := Obj.isDevice
  len := fun n => n == 2
  checks := fun _ p s =>
    [ (p.f 0 17 15 != 0 || p.f 1 21 11 != 0 || p.f 2 24 8 != 0 || p.w 3 != 0, .badParam),
      (32904 ≤ p.f 0 0 17 || 2000000 < p.f 1 0 21 || (32768 ≤ p.f 0 0 17 && 2048 < p.f 2 0 24), .badParam) ] ++ unitBlocked 2 s
  act := fun _ p s => reply [] (modSched (fun x => { x with top := { x.top with under := { x.top.under with
    policers := Tbl.put x.top.under.policers (p.f 0 0 17) (p.f 1 0 21, p.f 2 0 24) } } }) s)

/-- Class weights of CLASS_MAP_SET. -/
def mapWeights (p : Packet) : List Nat := (List.range 7).map fun c => p.f (2 + c / 2) (16 * (c % 2)) 12

/-- CLASS_MAP_SET's effect on the undercoat. -/
def setMap (o : Obj) (p : Packet) (s : State) : State :=
  let d := scDir p
  let n := scNode p
  match scLevel p with
  | 0 => modSched (fun x => { x with top := { x.top with under := { x.top.under with
      links := Tbl.put x.top.under.links (d * 64 + n) { topNode x.top.under d n with weights := mapWeights p } } } }) s
  | 1 => modSched (fun x => { x with top := { x.top with under := { x.top.under with
      hosts := Tbl.put x.top.under.hosts ((d * 64 + n) * 16 + scHost o) { hostNode x.top.under d n (scHost o) with permit := p.f 2 0 8 } } } }) s
  | l => modUnits (hostOf o) (fun u => { u with sched := { u.sched with under := { u.sched.under with
      groups := Tbl.put u.sched.under.groups (groupKey d l n) { groupOfKey u.sched.under d l n with permit := p.f 2 0 8 } } } }) s

/-- CLASS_MAP_SET (R233). -/
def classMapSetDef : CmdDef where
  opcode := 0x0504
  owner := true
  host := true
  len := fun n => n == 3
  checks := fun o p s =>
    [ (!mayWrite p.chan (scUnit o p) s, .notPermitted),
      (3 < scLevel p || !scTarget o p || p.f 0 4 28 != 0 || p.f 1 17 15 != 0 || scBadNode o p s, .badParam),
      ((if scLevel p = 0 then (List.range 7).any (fun c => p.f (2 + c / 2) (16 * (c % 2) + 12) 4 != 0) || p.f 5 16 16 != 0
        else p.f 2 8 24 != 0 || p.w 3 != 0 || p.w 4 != 0 || p.w 5 != 0 || !p.b 2 0), .badParam),
      (2 ≤ scLevel p && !validGroup s (hostOf o) (schedUnder s o) (scDir p) (scLevel p) (scNode p), .badParam) ]
      ++ unitBlocked (scUnit o p) s
  act := fun o p s => reply [] (setMap o p s)

/-- SCHED_NODE_SET. -/
def execSchedNodeSet (p : Packet) (s : State) : Host.Outcome State Fault Refusal := .next (runCmd schedNodeSetDef (.schedNodeSet p) p s)
/-- SCHED_NODE_GET. -/
def execSchedNodeGet (p : Packet) (s : State) : Host.Outcome State Fault Refusal := .next (runCmd schedNodeGetDef (.schedNodeGet p) p s)
/-- HOST_SHARE_SET. -/
def execHostShareSet (p : Packet) (s : State) : Host.Outcome State Fault Refusal := .next (runCmd hostShareSetDef (.hostShareSet p) p s)
/-- POLICER_SET. -/
def execPolicerSet (p : Packet) (s : State) : Host.Outcome State Fault Refusal := .next (runCmd policerSetDef (.policerSet p) p s)
/-- CLASS_MAP_SET. -/
def execClassMapSet (p : Packet) (s : State) : Host.Outcome State Fault Refusal := .next (runCmd classMapSetDef (.classMapSet p) p s)

/-- The default transmit groups of a host when it attaches: VF group 0 under the lowest port, queue group 0 under it (R234). -/
def defaultGroups (h : HostId) (s : State) : State :=
  match (List.range 64).find? (portStarts s) with
  | none => s
  | some p => modSchedBoth h (fun u =>
      if Tbl.has u.groups (groupKey 0 2 0) then u
      else { u with groups := Tbl.put (Tbl.put u.groups (groupKey 0 2 0) { Node.reset with parent := p }) (groupKey 0 3 0) { Node.reset with parent := 0 } }) s

end Sys2Proof.Machine
end

