-- ==== Sys2Proof/Machine/Net.lean ====
section
/-! DEFINITION. Net.lean: packets on their way out: port output queues, forwarding queues, mirror copies and the inputs of the pipelines (R127, R148, R191, R207, R219, R223). -/

namespace Sys2Proof.Machine
open Sys2Proof

/-- Width of the port that starts at a lane; 0: none does. -/
def portWidth (s : State) (port : Nat) : Nat := (s.eth.ports[laneIx port]).width
/-- A port is UP. -/
def portIsUp (s : State) (port : Nat) : Bool := portWidth s port != 0 && (s.eth.ports[laneIx port]).state == .up

/-- A transmit packet's bytes no longer count against INFLIGHT (R223). -/
def freeInflight (k : Pkt) (s : State) : State :=
  if k.cls = 7 then s
  else modSched (fun x => { x with inflight := Tbl.put x.inflight k.port (Tbl.getD x.inflight k.port 0 - k.bytes.length) }) s

/-- A transmit packet has left the 8256, sent or discarded: its hods are freed, and the entry of a TS packet takes its stamp, 0 where it was not sent (R100, R101, R207). -/
def endTx (stamp : Nat) (k : Pkt) (s : State) : State :=
  let s1 := freeInflight k (freeHods k.hods s)
  match k.origin with
  | .txq h f q => if k.stampTx then setOutcome h f q k.index 0 stamp s1 else s1
  | _ => s1

/-- A packet is discarded in its pipeline; only a transmit packet has more to give back than its hods. -/
def dropPkt (k : Pkt) (s : State) : State :=
  match k.origin with
  | .wire => freeHods k.hods s
  | _ => if k.pipe < 16 then freeHods k.hods s else endTx 0 k s

/-- A packet of a port that is not UP (R127). -/
def dropLinkDown (k : Pkt) (s : State) : State := count 0x02 0 (32 * k.port + 9) 1 (endTx 0 k s)

/-- A packet joins its port's output queue (R223), or is discarded where the port is not UP (R127). -/
def queueFrame (k : Pkt) (s : State) : State :=
  if portWidth s k.port = 0 then endTx 0 k s
  else if !portIsUp s k.port then dropLinkDown k s
  else if k.cls = 7 then { s with net := { s.net with out7 := Tbl.put s.net.out7 k.port (Tbl.getD s.net.out7 k.port [] ++ [k]) } }
  else { s with net := { s.net with outq := Tbl.put s.net.outq k.port (Tbl.getD s.net.outq k.port [] ++ [k]) } }

/-- The packets in a port's output queues are discarded and counted (R122, R127). -/
def dropPortQueue (l : Lane) (s : State) : State :=
  let ks := Tbl.getD s.net.out7 l.val [] ++ Tbl.getD s.net.outq l.val []
  ks.foldl (fun s (k : Pkt) => dropLinkDown k s)
    { s with net := { s.net with out7 := Tbl.del s.net.out7 l.val, outq := Tbl.del s.net.outq l.val } }

/-! Forwarding (R148, R219) -/

/-- A packet joins a forwarding queue of a port; its nodes have backlog from now on. -/
def forwardTo (port cls : Nat) (k : Pkt) (s : State) : State :=
  let c := min cls 6
  let s1 := modSched (fun x => { x with forward := Tbl.put x.forward (port * 8 + c) (Tbl.getD x.forward (port * 8 + c) [] ++ [{ k with port := port, cls := c }]) }) s
  (forwardPath s1 port c).foldl (fun s n => activate n s) s1

/-- PARSE_MIRROR_PORT.EN, with a port that starts at the named lane (R148). -/
def mirrorPort (s : State) : Option Nat :=
  if s.parse.mirrorEn && portWidth s s.parse.mirrorPort != 0 then some (s.parse.mirrorPort % 64) else none

/-- A packet goes to the mirror port in class 0, or is freed (R148). -/
def mirrorPkt (k : Pkt) (s : State) : State :=
  match mirrorPort s with
  | none => freeHods k.hods s
  | some p => forwardTo p 0 { k with origin := .mirror, stampTx := false, tile := none } s

/-- A copy made by MIRROR shares the original's hods (R207); no copy is made where no mirror port takes it. (DEDUCED, log 55) -/
def mirrorCopy (k : Pkt) (s : State) : State := if (mirrorPort s).isSome then mirrorPkt k (shareHods k.hods s) else s

/-! Pipeline inputs (R191, R194) -/

/-- The pipeline of a port's packets in one direction: the lane rule, or a bit for a 1.6T port (R191). -/
def pipeFor (s : State) (tx : Bool) (port bit : Nat) : Nat :=
  (if tx then 16 else 0) + 2 * (port / 8) + pairHalf port (portWidth s port) bit

/-- A packet stands in front of the input of the pipeline that carries its pipeline's packets (R31), and is counted (R215). -/
def enterPipe (p : Nat) (k : Pkt) (s : State) : State :=
  let c := (carrier s (p % 32)).getD p
  count 0x06 0 (0x400 + 2 * (c % 32)) 1
    { s with net := { s.net with pipes := vmod s.net.pipes ⟨c % 32, Nat.mod_lt _ (by decide)⟩ fun x => { x with input := x.input ++ [{ k with pipe := c % 32 }] } } }

/-- A class 7 selection is still waiting for its data. -/
def turnHeld (s : State) (turn : Nat) : Bool :=
  s.queues.any (fun e => e.2.reading.any fun r => r.sel == turn) || s.ctx.conns.any fun e => e.2.jobs.any fun j => j.turn == turn

/-- Class 7 packets of a port are handed to their pipelines in selection order (R235); a selection that has come to nothing is passed over. -/
def handOver7 (port : Nat) : (fuel : Nat) → State → State
  | 0, s => s
  | n + 1, s =>
    match Tbl.getD s.sched.order7 port [] with
    | [] => s
    | t :: r =>
      let next (x : Sched) : Sched := { x with order7 := if r.isEmpty then Tbl.del x.order7 port else Tbl.put x.order7 port r }
      match s.sched.ready7.find? fun k => k.turn = t with
      | some k => handOver7 port n (enterPipe k.pipe k (modSched (fun x => { next x with ready7 := x.ready7.filter fun y => y.turn != t }) s))
      | none => if turnHeld s t then s else handOver7 port n (modSched next s)

/-- Every class 7 selection of a port whose turn has come is handed over. -/
def handOver (port : Nat) (s : State) : State := handOver7 port ((Tbl.getD s.sched.order7 port []).length) s

/-- A transmit packet whose data is there goes to its pipeline, a class 7 packet in its turn. -/
def sendOn (k : Pkt) (s : State) : State :=
  if k.turn = 0 then enterPipe k.pipe k s else handOver k.port (modSched (fun x => { x with ready7 := x.ready7 ++ [k] }) s)

/-- A pipeline changed. -/
def modPipe (p : Nat) (f : PipeState → PipeState) (s : State) : State :=
  { s with net := { s.net with pipes := vmod s.net.pipes ⟨p % 32, Nat.mod_lt _ (by decide)⟩ f } }
/-- A pipeline. -/
def pipeOf (s : State) (p : Nat) : PipeState := s.net.pipes[(⟨p % 32, Nat.mod_lt _ (by decide)⟩ : Fin 32)]

end Sys2Proof.Machine
end

