-- ==== Sys2Proof/Machine/CoreMem.lean ====
section
/-! DEFINITION. CoreMem.lean: the DRAM carve and interleave, and the address space of the packet cores (R362 to R364, R403, R406, R414, R415). -/

namespace Sys2Proof.Machine
open Sys2Proof

/-! The carve and the interleave (R402, R403, R406) -/

/-- The DRAM block changed. -/
def modDram (f : Dram → Dram) (s : State) : State := { s with dram := f s.dram }
/-- One GiB. -/
def gib : Nat := 2 ^ 30
/-- The capacity in service, in bytes. -/
def dramBytes (s : State) : Nat := s.dram.order.length * s.dram.perChannel * gib
/-- Where the write cache begins: after the dust sheet, the controller reserve, the context area and map, and the key pages. -/
def cacheBase : Nat := 20 * gib + gib / 4
/-- Where the program area begins. -/
def programBase (s : State) : Nat := cacheBase + s.carve.cache * gib

/-- The channel of a device physical address; none while no channel is in service. -/
def channelAt (s : State) (dpa : Nat) : Option Nat :=
  let n := s.dram.order.length
  let g := dpa / 256
  let h := if dpa < gib then 0 else mix s.dram.ikey [g / n] % n
  if n = 0 then none else s.dram.order[(g % n + h) % n]?

/-- A channel by number. -/
def dramChan (s : State) (n : Nat) : DramChan := s.dram.chans[(⟨n % 12, Nat.mod_lt _ (by decide)⟩ : Fin 12)]
/-- A channel changed. -/
def modChan (n : Nat) (f : DramChan → DramChan) (s : State) : State :=
  modDram (fun d => { d with chans := vmod d.chans ⟨n % 12, Nat.mod_lt _ (by decide)⟩ f }) s

/-- No channel answers at an address: it is lost, or none is in service (R405, R417). -/
def dramGone (s : State) (dpa : Nat) : Bool :=
  match channelAt s dpa with
  | none => true
  | some c => (dramChan s c).state == 5 || (dramChan s c).state == 0

/-! Memories (R362) -/

/-- What an address of a core names. -/
inductive Region where
  | instr (off : Nat)
  /-- one of the memories of Cores.mems -/
  | mem (space off : Nat)
  | hod (handle off : Nat)
  | dram (dpa : Nat)
deriving DecidableEq, Repr

/-- The memory number of a core's data memory, and of its instruction memory. -/
def dataSpace (ck : Nat) : Nat := 32 + ck
def instrSpace (ck : Nat) : Nat := 512 + ck
/-- The memory number of a cluster's shared memory. -/
def clusterSpace (cl : Nat) : Nat := 1 + cl

/-- An access of `n` bytes at an address of core `ck`, cluster × 16 + core; none lies outside the listed ranges. -/
def regionOf (s : State) (ck addr n : Nat) : Option Region :=
  if addr + n ≤ 0x10000 then some (.instr addr)
  else if 0x10000 ≤ addr ∧ addr + n ≤ 0x30000 then some (.mem (dataSpace ck) (addr - 0x10000))
  else if 0x10000000 ≤ addr ∧ addr + n ≤ 0x10400000 then some (.mem (clusterSpace (ck / 16)) (addr - 0x10000000))
  else if 0x20000000 ≤ addr ∧ addr + n ≤ 0x21000000 then some (.mem 0 (addr - 0x20000000))
  else if 2 ^ 48 ≤ addr ∧ addr < 2 ^ 49 then some (.hod ((addr - 2 ^ 48) / 65536) (addr % 65536))
  else if 2 ^ 49 ≤ addr ∧ programBase s + (addr - 2 ^ 49) + n ≤ dramBytes s then some (.dram (programBase s + (addr - 2 ^ 49)))
  else none

/-- The bytes of one of the memories. (DESIGN CHOICE, log 12) -/
def memOf (s : State) (space : Nat) : Mem := Tbl.getD s.cores.mems space []
/-- The cores changed. -/
def modCores (f : Cores → Cores) (s : State) : State := { s with cores := f s.cores }

/-- `n` bytes of a region. (DESIGN CHOICE, log 12) -/
def readAt (s : State) (ck : Nat) (r : Region) (n : Nat) : List Byte :=
  match r with
  | .instr off => Mem.readBytes (memOf s (instrSpace ck)) 0 off n
  | .mem sp off => Mem.readBytes (memOf s sp) 0 off n
  | .hod h off => Mem.readBytes s.hod.mem 0 (hodAddr s h + off) n
  | .dram dpa => Mem.readBytes s.dram.mem 0 dpa n

/-- The memory number and offset by which poison and reservations are kept: 1024 for the hods, 1025 for DRAM. -/
def placeOf (s : State) (ck : Nat) : Region → Nat × Nat
  | .instr off => (instrSpace ck, off)
  | .mem sp off => (sp, off)
  | .hod h off => (1024, hodAddr s h + off)
  | .dram dpa => (1025, dpa)

/-- A granule of 64 bytes at a place overlaps `n` bytes from another place. -/
def touches (p : Nat × Nat) (n : Nat) (q : Nat × Nat) (size : Nat) : Bool :=
  q.1 == p.1 && q.2 * size < p.2 + n && p.2 < q.2 * size + size

/-- Poison among `n` bytes of a region (R415, R417). -/
def poisonedAt (s : State) (ck : Nat) (r : Region) (n : Nat) : Bool :=
  let p := placeOf s ck r
  s.cores.poison.any (fun g => touches p n g 64) || (match r with
    | .dram dpa => dramGone s dpa || dramGone s (dpa + (n - 1))
    | _ => false)

/-- Reservations of every thread that a write of `n` bytes at a place breaks. (DEDUCED, log 71) -/
def breakReserved (p : Nat × Nat) (n : Nat) (s : State) : State :=
  let hit (t : Thread) : Thread := if t.reserved.any (fun g => touches p n g 8) then { t with reserved := none } else t
  modCores (fun c => { c with cores := Tbl.mapAll c.cores fun _ k => { k with threads := Tbl.mapAll k.threads fun _ t => hit t } }) s

/-- Poison of a granule that a write replaces whole goes (R414). -/
def cleanPoison (p : Nat × Nat) (n : Nat) (s : State) : State :=
  modCores (fun c => { c with poison := c.poison.filter fun g => !(g.1 == p.1 && p.2 ≤ g.2 * 64 && g.2 * 64 + 64 ≤ p.2 + n) }) s

/-- Granules that become poisoned. -/
def poisonAt (p : Nat × Nat) (n : Nat) (s : State) : State :=
  let new := (upFrom (p.2 / 64) ((p.2 + n - 1) / 64 - p.2 / 64 + 1)).map fun g => (p.1, g)
  modCores (fun c => { c with poison := c.poison ++ new.filter fun g => !c.poison.contains g }) s

/-- One of the memories with bytes written. -/
def writeMem (space off : Nat) (bs : List Byte) (s : State) : State :=
  modCores (fun c => { c with mems := Tbl.put c.mems space (Mem.writeBytes (Tbl.getD c.mems space []) 0 off bs) }) s

/-- Bytes written to a region. -/
def writeAt (ck : Nat) (r : Region) (bs : List Byte) (s : State) : State :=
  let p := placeOf s ck r
  let s1 := cleanPoison p bs.length (breakReserved p bs.length s)
  match r with
  | .instr off => writeMem (instrSpace ck) off bs s1
  | .mem sp off => writeMem sp off bs s1
  | .hod h off => { s1 with hod := { s1.hod with mem := Mem.writeBytes s1.hod.mem 0 (hodAddr s1 h + off) bs } }
  | .dram dpa => modDram (fun d => { d with mem := Mem.writeBytes d.mem 0 dpa bs }) s1

/-- The hod of a handle is held. -/
def hodHeld (s : State) (h : Nat) : Bool := Tbl.has s.hod.held h

/-- A range of a hod fails R204: none, or the kind of its record (alignment, for an access aligned to `al`). -/
def hodCheck (s : State) (h off len al : Nat) : Option Bool :=
  if !handleInRange s h || hodBytes (hodPool h) < off + len then some false
  else if off % al != 0 then some true
  else none

end Sys2Proof.Machine
end

