-- ==== Sys2Proof/Machine/Rv.lean ====
section
/-! DEFINITION. Rv.lean: the instruction set of the packet cores (R365): RV64IMAC with Zba, Zbb, Zicsr and Zicntr as the RISC-V ISA manual encodes it (PRESUMED: the spec names the extensions and does not repeat them), and the Xbtx encodings of R377 and R378. -/

namespace Sys2Proof.Machine
open Sys2Proof

/-- Register-to-register operations. -/
inductive AluOp where
  | add | sub | sll | slt | sltu | xor | srl | sra | or | and
  | addw | subw | sllw | srlw | sraw
  | mul | mulh | mulhsu | mulhu | div | divu | rem | remu
  | mulw | divw | divuw | remw | remuw
  | addUw | sh1add | sh2add | sh3add | sh1addUw | sh2addUw | sh3addUw | slliUw
  | andn | orn | xnor | min | minu | max | maxu | rol | ror | rolw | rorw
  | clz | ctz | cpop | clzw | ctzw | cpopw | sextB | sextH | zextH | orcB | rev8
deriving DecidableEq, Repr

/-- The Xbtx instructions (R377, R378). -/
inductive Xb where
  | tfork (detached : Bool) (rd rs1 rs2 : Nat)
  | tjoin (rd rs1 : Nat)
  | texit (rs1 : Nat)
  | tsignal (rd rs1 rs2 : Nat)
  | twait (rd rs1 : Nat)
  | ttimer (rs1 : Nat)
  | tyield
  | hrd (rd h : Nat)
  | hwr (h rs2 : Nat)
  | hswap (rd h rs2 : Nat)
  | hadd (rd h rs2 : Nat)
  | hcas (rd h rs1 rs2 : Nat)
  | chput (w rs2 : Nat)
  | chcommit (rd rs1 : Nat)
  | chrecv (rd w : Nat) (pop : Bool)
deriving DecidableEq, Repr

/-- One decoded instruction. -/
inductive Rv where
  | lui (rd : Nat) (v : DWord)
  | auipc (rd : Nat) (v : DWord)
  | jal (rd : Nat) (off : DWord)
  | jalr (rd rs1 : Nat) (off : DWord)
  | branch (f3 rs1 rs2 : Nat) (off : DWord)
  | load (f3 rd rs1 : Nat) (off : DWord)
  | store (size rs1 rs2 : Nat) (off : DWord)
  | opImm (op : AluOp) (rd rs1 : Nat) (v : DWord)
  | op (op : AluOp) (rd rs1 rs2 : Nat)
  | fence
  | ecall
  | ebreak
  /-- 0 write, 1 set, 2 clear; the operand is a register or an immediate -/
  | csr (how csr rd src : Nat) (imm : Bool)
  | lr (size rd rs1 : Nat)
  | sc (size rd rs1 rs2 : Nat)
  | amo (op size rd rs1 rs2 : Nat)
  | xb (i : Xb)
deriving DecidableEq, Repr

/-! Arithmetic -/

/-- The low 32 bits, sign-extended. -/
def sext32 (x : DWord) : DWord := (x.truncate 32).signExtend 64
/-- A 64-bit value's sign. -/
def minInt (w : Nat) : Int := -(2 ^ (w - 1) : Int)

/-- Signed division with the corners of the M extension: −1 by zero, the dividend on overflow. -/
def divS (w : Nat) (a b : Int) : Int := if b = 0 then -1 else if a = minInt w ∧ b = -1 then a else a.tdiv b
/-- Signed remainder: the dividend by zero, 0 on overflow. -/
def remS (w : Nat) (a b : Int) : Int := if b = 0 then a else if a = minInt w ∧ b = -1 then 0 else a.tmod b
/-- Unsigned division: all ones by zero. -/
def divU (w a b : Nat) : Nat := if b = 0 then 2 ^ w - 1 else a / b
/-- Unsigned remainder: the dividend by zero. -/
def remU (a b : Nat) : Nat := if b = 0 then a else a % b

/-- Leading zeros of the low `w` bits. -/
def countLead (w n : Nat) : Nat := w - (if n = 0 then 0 else Nat.log2 n + 1)
/-- Trailing zeros of the low `w` bits, searched from bit i. -/
def countTrail (n : Nat) : (fuel i : Nat) → Nat
  | 0, i => i
  | k + 1, i => if bitAt n i then i else countTrail n k (i + 1)
/-- Bits set. -/
def popCount (n : Nat) : Nat → Nat
  | 0 => 0
  | k + 1 => popCount n k + b2n (bitAt n k)
/-- A number of 8 bytes with every byte mapped. -/
def mapBytes (f : Byte → Byte) (n : Nat) : Nat := leNat ((leBytes 8 n).map f)

/-- The result of an operation. (PRESUMED, log 70) -/
def alu (op : AluOp) (a b : DWord) : DWord :=
  let n := a.toNat
  let m := b.toNat
  let s6 := m % 64
  let s5 := m % 32
  let lo := n % 2 ^ 32
  let of (x : Nat) : DWord := BitVec.ofNat 64 x
  let ofI (x : Int) : DWord := BitVec.ofInt 64 x
  let w (x : Nat) : DWord := sext32 (BitVec.ofNat 64 x)
  let wI (x : Int) : DWord := sext32 (BitVec.ofInt 64 x)
  let a32 : BitVec 32 := a.truncate 32
  let b32 : BitVec 32 := b.truncate 32
  match op with
  | .add => a + b
  | .sub => a - b
  | .sll => a <<< s6
  | .slt => of (b2n (a.slt b))
  | .sltu => of (b2n (a.ult b))
  | .xor => a ^^^ b
  | .srl => a >>> s6
  | .sra => a.sshiftRight s6
  | .or => a ||| b
  | .and => a &&& b
  | .addw => sext32 (a + b)
  | .subw => sext32 (a - b)
  | .sllw => w (lo * 2 ^ s5)
  | .srlw => w (lo / 2 ^ s5)
  | .sraw => (a32.sshiftRight s5).signExtend 64
  | .mul => a * b
  | .mulh => ofI (a.toInt * b.toInt / 2 ^ 64)
  | .mulhsu => ofI (a.toInt * (m : Int) / 2 ^ 64)
  | .mulhu => of (n * m / 2 ^ 64)
  | .div => ofI (divS 64 a.toInt b.toInt)
  | .divu => of (divU 64 n m)
  | .rem => ofI (remS 64 a.toInt b.toInt)
  | .remu => of (remU n m)
  | .mulw => sext32 (a * b)
  | .divw => wI (divS 32 a32.toInt b32.toInt)
  | .divuw => w (divU 32 a32.toNat b32.toNat)
  | .remw => wI (remS 32 a32.toInt b32.toInt)
  | .remuw => w (remU a32.toNat b32.toNat)
  | .addUw => of lo + b
  | .sh1add => (a <<< 1) + b
  | .sh2add => (a <<< 2) + b
  | .sh3add => (a <<< 3) + b
  | .sh1addUw => of (2 * lo) + b
  | .sh2addUw => of (4 * lo) + b
  | .sh3addUw => of (8 * lo) + b
  | .slliUw => of (lo * 2 ^ s6)
  | .andn => a &&& ~~~b
  | .orn => a ||| ~~~b
  | .xnor => ~~~(a ^^^ b)
  | .min => if a.slt b then a else b
  | .minu => if a.ult b then a else b
  | .max => if a.slt b then b else a
  | .maxu => if a.ult b then b else a
  | .rol => a.rotateLeft s6
  | .ror => a.rotateRight s6
  | .rolw => (a32.rotateLeft s5).signExtend 64
  | .rorw => (a32.rotateRight s5).signExtend 64
  | .clz => of (countLead 64 n)
  | .ctz => of (countTrail n 64 0)
  | .cpop => of (popCount n 64)
  | .clzw => of (countLead 32 lo)
  | .ctzw => of (countTrail lo 32 0)
  | .cpopw => of (popCount lo 32)
  | .sextB => (a.truncate 8).signExtend 64
  | .sextH => (a.truncate 16).signExtend 64
  | .zextH => of (n % 65536)
  | .orcB => of (mapBytes (fun x => if x = 0 then 0 else 0xFF) n)
  | .rev8 => of (beNat (leBytes 8 n))

/-- A branch is taken. -/
def taken (f3 : Nat) (a b : DWord) : Bool :=
  match f3 with
  | 0 => a == b
  | 1 => a != b
  | 4 => a.slt b
  | 5 => !a.slt b
  | 6 => a.ult b
  | _ => !a.ult b

/-- What an AMO stores, of `w` bits: the old value and the operand. -/
def amoValue (op w : Nat) (old v : Nat) : Nat :=
  let a := old % 2 ^ w
  let b := v % 2 ^ w
  let neg (x : Nat) : Bool := 2 ^ (w - 1) ≤ x
  let lt := if neg a = neg b then decide (a < b) else neg a
  match op with
  | 0 => (a + b) % 2 ^ w
  | 1 => b
  | 4 => a ^^^ b
  | 8 => a ||| b
  | 12 => a &&& b
  | 16 => if lt then a else b
  | 20 => if lt then b else a
  | 24 => min a b
  | _ => max a b

/-! Decoding -/

/-- A field of `w` bits of an instruction, sign-extended. -/
def simm (w n : Nat) : DWord := (BitVec.ofNat w n).signExtend 64

/-- I-type immediate. -/
def immI (i : Nat) : DWord := simm 12 (bitsAt i 20 12)
/-- S-type immediate. -/
def immS (i : Nat) : DWord := simm 12 (bitsAt i 25 7 * 32 + bitsAt i 7 5)
/-- B-type immediate. -/
def immB (i : Nat) : DWord := simm 13 (bitsAt i 31 1 * 4096 + bitsAt i 7 1 * 2048 + bitsAt i 25 6 * 32 + bitsAt i 8 4 * 2)
/-- U-type immediate. -/
def immU (i : Nat) : DWord := simm 32 (bitsAt i 12 20 * 4096)
/-- J-type immediate. -/
def immJ (i : Nat) : DWord := simm 21 (bitsAt i 31 1 * 2 ^ 20 + bitsAt i 12 8 * 4096 + bitsAt i 20 1 * 2048 + bitsAt i 21 10 * 2)

/-- OP: funct7 and funct3. -/
def decodeOp (f7 f3 : Nat) : Option AluOp :=
  match f7, f3 with
  | 0x00, 0 => some .add | 0x00, 1 => some .sll | 0x00, 2 => some .slt | 0x00, 3 => some .sltu
  | 0x00, 4 => some .xor | 0x00, 5 => some .srl | 0x00, 6 => some .or | 0x00, 7 => some .and
  | 0x20, 0 => some .sub | 0x20, 4 => some .xnor | 0x20, 5 => some .sra | 0x20, 6 => some .orn | 0x20, 7 => some .andn
  | 0x01, 0 => some .mul | 0x01, 1 => some .mulh | 0x01, 2 => some .mulhsu | 0x01, 3 => some .mulhu
  | 0x01, 4 => some .div | 0x01, 5 => some .divu | 0x01, 6 => some .rem | 0x01, 7 => some .remu
  | 0x10, 2 => some .sh1add | 0x10, 4 => some .sh2add | 0x10, 6 => some .sh3add
  | 0x05, 4 => some .min | 0x05, 5 => some .minu | 0x05, 6 => some .max | 0x05, 7 => some .maxu
  | 0x30, 1 => some .rol | 0x30, 5 => some .ror
  | _, _ => none

/-- OP-32. -/
def decodeOp32 (f7 f3 rs2 : Nat) : Option AluOp :=
  match f7, f3 with
  | 0x00, 0 => some .addw | 0x00, 1 => some .sllw | 0x00, 5 => some .srlw
  | 0x20, 0 => some .subw | 0x20, 5 => some .sraw
  | 0x01, 0 => some .mulw | 0x01, 4 => some .divw | 0x01, 5 => some .divuw | 0x01, 6 => some .remw | 0x01, 7 => some .remuw
  | 0x04, 0 => some .addUw
  | 0x04, 4 => if rs2 = 0 then some .zextH else none
  | 0x10, 2 => some .sh1addUw | 0x10, 4 => some .sh2addUw | 0x10, 6 => some .sh3addUw
  | 0x30, 1 => some .rolw | 0x30, 5 => some .rorw
  | _, _ => none

/-- OP-IMM: the operation and its immediate. -/
def decodeImm (i : Nat) : Option (AluOp × DWord) :=
  let imm := bitsAt i 20 12
  let sh : DWord := BitVec.ofNat 64 (bitsAt i 20 6)
  match bitsAt i 12 3 with
  | 0 => some (.add, immI i)
  | 2 => some (.slt, immI i)
  | 3 => some (.sltu, immI i)
  | 4 => some (.xor, immI i)
  | 6 => some (.or, immI i)
  | 7 => some (.and, immI i)
  | 1 => if imm / 64 = 0 then some (.sll, sh)
      else if imm = 0x600 then some (.clz, 0)
      else if imm = 0x601 then some (.ctz, 0)
      else if imm = 0x602 then some (.cpop, 0)
      else if imm = 0x604 then some (.sextB, 0)
      else if imm = 0x605 then some (.sextH, 0)
      else none
  | _ => if imm / 64 = 0 then some (.srl, sh)
      else if imm / 64 = 0x10 then some (.sra, sh)
      else if imm / 64 = 0x18 then some (.ror, sh)
      else if imm = 0x287 then some (.orcB, 0)
      else if imm = 0x6B8 then some (.rev8, 0)
      else none

/-- OP-IMM-32. -/
def decodeImm32 (i : Nat) : Option (AluOp × DWord) :=
  let imm := bitsAt i 20 12
  let sh : DWord := BitVec.ofNat 64 (bitsAt i 20 5)
  match bitsAt i 12 3 with
  | 0 => some (.addw, immI i)
  | 1 => if imm / 32 = 0 then some (.sllw, sh)
      else if imm / 64 = 2 then some (.slliUw, BitVec.ofNat 64 (bitsAt i 20 6))
      else if imm = 0x600 then some (.clzw, 0)
      else if imm = 0x601 then some (.ctzw, 0)
      else if imm = 0x602 then some (.cpopw, 0)
      else none
  | 5 => if imm / 32 = 0 then some (.srlw, sh)
      else if imm / 32 = 0x20 then some (.sraw, sh)
      else if imm / 32 = 0x30 then some (.rorw, sh)
      else none
  | _ => none

/-- AMO by funct5. (PRESUMED, log 70) -/
def decodeAmo (i rd rs1 rs2 : Nat) : Option Rv :=
  let size := 2 ^ bitsAt i 12 3
  let f5 := bitsAt i 27 5
  if size ≠ 4 ∧ size ≠ 8 then none
  else if f5 = 2 then (if rs2 = 0 then some (.lr size rd rs1) else none)
  else if f5 = 3 then some (.sc size rd rs1 rs2)
  else if [0, 1, 4, 8, 12, 16, 20, 24, 28].contains f5 then some (.amo f5 size rd rs1 rs2)
  else none

/-- SYSTEM. -/
def decodeSystem (i rd rs1 : Nat) : Option Rv :=
  match bitsAt i 12 3 with
  | 0 => if i = 0x73 then some .ecall else if i = 0x100073 then some .ebreak else none
  | 4 => none
  | f3 => some (.csr ((f3 + 3) % 4) (bitsAt i 20 12) rd rs1 (4 < f3))

/-- The thread instructions (R377). -/
def decodeThread (f7 f3 rd rs1 rs2 : Nat) : Option Xb :=
  match f3 with
  | 0 => if f7 < 2 then some (.tfork (f7 == 1) rd rs1 rs2) else none
  | 1 => if f7 = 0 ∧ rs2 = 0 then some (.tjoin rd rs1) else none
  | 2 => if f7 = 0 ∧ rs2 = 0 ∧ rd = 0 then some (.texit rs1) else none
  | 3 => if f7 = 0 then some (.tsignal rd rs1 rs2) else none
  | 4 => if f7 = 0 ∧ rs2 = 0 then some (.twait rd rs1) else none
  | 5 => if f7 = 0 ∧ rs2 = 0 ∧ rd = 0 then some (.ttimer rs1) else none
  | 6 => if f7 = 0 ∧ rs2 = 0 ∧ rs1 = 0 ∧ rd = 0 then some .tyield else none
  | _ => none

/-- The hawk and channel instructions (R378). -/
def decodeHawk (f7 f3 rd rs1 rs2 : Nat) : Option Xb :=
  let h := f7 / 2
  let even := f7 % 2 = 0
  match f3 with
  | 0 => if even ∧ rs1 = 0 ∧ rs2 = 0 then some (.hrd rd h) else none
  | 1 => if even ∧ rs1 = 0 ∧ rd = 0 then some (.hwr h rs2) else none
  | 2 => if even ∧ rs1 = 0 then some (.hswap rd h rs2) else none
  | 3 => if even ∧ rs1 = 0 then some (.hadd rd h rs2) else none
  | 4 => if even then some (.hcas rd h rs1 rs2) else none
  | 5 => if f7 < 8 ∧ rs1 = 0 ∧ rd = 0 then some (.chput f7 rs2) else none
  | 6 => if f7 = 0 ∧ rs2 = 0 then some (.chcommit rd rs1) else none
  | _ => if f7 < 16 ∧ rs1 = 0 ∧ rs2 = 0 then some (.chrecv rd (f7 % 8) (f7 / 8 == 1)) else none

/-- A 32-bit instruction; none is ILLEGAL (R365). (PRESUMED, log 70) -/
def rvDecode (i : Nat) : Option Rv :=
  let rd := bitsAt i 7 5
  let f3 := bitsAt i 12 3
  let rs1 := bitsAt i 15 5
  let rs2 := bitsAt i 20 5
  let f7 := bitsAt i 25 7
  match bitsAt i 0 7 with
  | 0x37 => some (.lui rd (immU i))
  | 0x17 => some (.auipc rd (immU i))
  | 0x6F => some (.jal rd (immJ i))
  | 0x67 => if f3 = 0 then some (.jalr rd rs1 (immI i)) else none
  | 0x63 => if f3 = 2 ∨ f3 = 3 then none else some (.branch f3 rs1 rs2 (immB i))
  | 0x03 => if f3 = 7 then none else some (.load f3 rd rs1 (immI i))
  | 0x23 => if f3 < 4 then some (.store (2 ^ f3) rs1 rs2 (immS i)) else none
  | 0x13 => (decodeImm i).map fun x => .opImm x.1 rd rs1 x.2
  | 0x1B => (decodeImm32 i).map fun x => .opImm x.1 rd rs1 x.2
  | 0x33 => (decodeOp f7 f3).map fun x => .op x rd rs1 rs2
  | 0x3B => (decodeOp32 f7 f3 rs2).map fun x => .op x rd rs1 rs2
  | 0x0F => if f3 = 0 then some .fence else none
  | 0x73 => decodeSystem i rd rs1
  | 0x2F => decodeAmo i rd rs1 rs2
  | 0x0B => (decodeThread f7 f3 rd rs1 rs2).map Rv.xb
  | 0x2B => (decodeHawk f7 f3 rd rs1 rs2).map Rv.xb
  | _ => none

/-- A compressed register number x8 to x15. -/
def creg (n : Nat) : Nat := 8 + n

/-- Quadrant 0 of the C extension. -/
def decodeC0 (i : Nat) : Option Rv :=
  let rd := creg (bitsAt i 2 3)
  let rs1 := creg (bitsAt i 7 3)
  let u4 := bitsAt i 10 3 * 8 + bitsAt i 6 1 * 4 + bitsAt i 5 1 * 64
  let u8 := bitsAt i 10 3 * 8 + bitsAt i 5 2 * 64
  let n := bitsAt i 11 2 * 16 + bitsAt i 7 4 * 64 + bitsAt i 6 1 * 4 + bitsAt i 5 1 * 8
  match bitsAt i 13 3 with
  | 0 => if n = 0 then none else some (.opImm .add rd 2 (BitVec.ofNat 64 n))
  | 2 => some (.load 2 rd rs1 (BitVec.ofNat 64 u4))
  | 3 => some (.load 3 rd rs1 (BitVec.ofNat 64 u8))
  | 6 => some (.store 4 rs1 rd (BitVec.ofNat 64 u4))
  | 7 => some (.store 8 rs1 rd (BitVec.ofNat 64 u8))
  | _ => none

/-- Quadrant 1. -/
def decodeC1 (i : Nat) : Option Rv :=
  let rd := bitsAt i 7 5
  let r1 := creg (bitsAt i 7 3)
  let r2 := creg (bitsAt i 2 3)
  let imm6 := bitsAt i 12 1 * 32 + bitsAt i 2 5
  let j := simm 12 (bitsAt i 12 1 * 2048 + bitsAt i 11 1 * 16 + bitsAt i 9 2 * 256 + bitsAt i 8 1 * 1024 + bitsAt i 7 1 * 64 + bitsAt i 6 1 * 128 + bitsAt i 3 3 * 2 + bitsAt i 2 1 * 32)
  let b := simm 9 (bitsAt i 12 1 * 256 + bitsAt i 10 2 * 8 + bitsAt i 5 2 * 64 + bitsAt i 3 2 * 2 + bitsAt i 2 1 * 32)
  let sp := bitsAt i 12 1 * 512 + bitsAt i 6 1 * 16 + bitsAt i 5 1 * 64 + bitsAt i 3 2 * 128 + bitsAt i 2 1 * 32
  match bitsAt i 13 3 with
  | 0 => some (.opImm .add rd rd (simm 6 imm6))
  | 1 => if rd = 0 then none else some (.opImm .addw rd rd (simm 6 imm6))
  | 2 => some (.opImm .add rd 0 (simm 6 imm6))
  | 3 => if rd = 2 then (if sp = 0 then none else some (.opImm .add 2 2 (simm 10 sp)))
      else if imm6 = 0 then none else some (.lui rd (simm 18 (imm6 * 4096)))
  | 5 => some (.jal 0 j)
  | 6 => some (.branch 0 r1 0 b)
  | 7 => some (.branch 1 r1 0 b)
  | _ => match bitsAt i 10 2 with
    | 0 => some (.opImm .srl r1 r1 (BitVec.ofNat 64 imm6))
    | 1 => some (.opImm .sra r1 r1 (BitVec.ofNat 64 imm6))
    | 2 => some (.opImm .and r1 r1 (simm 6 imm6))
    | _ => match bitsAt i 12 1, bitsAt i 5 2 with
      | 0, 0 => some (.op .sub r1 r1 r2)
      | 0, 1 => some (.op .xor r1 r1 r2)
      | 0, 2 => some (.op .or r1 r1 r2)
      | 0, _ => some (.op .and r1 r1 r2)
      | _, 0 => some (.op .subw r1 r1 r2)
      | _, 1 => some (.op .addw r1 r1 r2)
      | _, _ => none

/-- Quadrant 2. -/
def decodeC2 (i : Nat) : Option Rv :=
  let rd := bitsAt i 7 5
  let rs2 := bitsAt i 2 5
  let imm6 := bitsAt i 12 1 * 32 + bitsAt i 2 5
  let l4 := bitsAt i 12 1 * 32 + bitsAt i 4 3 * 4 + bitsAt i 2 2 * 64
  let l8 := bitsAt i 12 1 * 32 + bitsAt i 5 2 * 8 + bitsAt i 2 3 * 64
  let s4 := bitsAt i 9 4 * 4 + bitsAt i 7 2 * 64
  let s8 := bitsAt i 10 3 * 8 + bitsAt i 7 3 * 64
  match bitsAt i 13 3 with
  | 0 => some (.opImm .sll rd rd (BitVec.ofNat 64 imm6))
  | 2 => if rd = 0 then none else some (.load 2 rd 2 (BitVec.ofNat 64 l4))
  | 3 => if rd = 0 then none else some (.load 3 rd 2 (BitVec.ofNat 64 l8))
  | 4 =>
    if bitsAt i 12 1 = 0 then
      if rs2 = 0 then (if rd = 0 then none else some (.jalr 0 rd 0)) else some (.op .add rd 0 rs2)
    else if rs2 = 0 then (if rd = 0 then some .ebreak else some (.jalr 1 rd 0))
    else some (.op .add rd rd rs2)
  | 6 => some (.store 4 2 rs2 (BitVec.ofNat 64 s4))
  | 7 => some (.store 8 2 rs2 (BitVec.ofNat 64 s8))
  | _ => none

/-- A 16-bit instruction. (PRESUMED, log 70) -/
def rvDecodeC (i : Nat) : Option Rv :=
  match i % 4 with
  | 0 => decodeC0 i
  | 1 => decodeC1 i
  | _ => decodeC2 i

/-- An instruction is 16 bits long. -/
def isShort (i : Nat) : Bool := i % 4 != 3

/-! Encodings of the Xbtx instructions -/

/-- The R-type form. -/
def rType (f7 rs2 rs1 f3 rd opc : Nat) : Nat := f7 * 2 ^ 25 + rs2 * 2 ^ 20 + rs1 * 2 ^ 15 + f3 * 2 ^ 12 + rd * 2 ^ 7 + opc

/-- The word of an Xbtx instruction (R377, R378). -/
def xbWord : Xb → Nat
  | .tfork d rd rs1 rs2 => rType (b2n d) rs2 rs1 0 rd 0x0B
  | .tjoin rd rs1 => rType 0 0 rs1 1 rd 0x0B
  | .texit rs1 => rType 0 0 rs1 2 0 0x0B
  | .tsignal rd rs1 rs2 => rType 0 rs2 rs1 3 rd 0x0B
  | .twait rd rs1 => rType 0 0 rs1 4 rd 0x0B
  | .ttimer rs1 => rType 0 0 rs1 5 0 0x0B
  | .tyield => rType 0 0 0 6 0 0x0B
  | .hrd rd h => rType (2 * h) 0 0 0 rd 0x2B
  | .hwr h rs2 => rType (2 * h) rs2 0 1 0 0x2B
  | .hswap rd h rs2 => rType (2 * h) rs2 0 2 rd 0x2B
  | .hadd rd h rs2 => rType (2 * h) rs2 0 3 rd 0x2B
  | .hcas rd h rs1 rs2 => rType (2 * h) rs2 rs1 4 rd 0x2B
  | .chput w rs2 => rType w rs2 0 5 0 0x2B
  | .chcommit rd rs1 => rType 0 0 rs1 6 rd 0x2B
  | .chrecv rd w pop => rType (8 * b2n pop + w) 0 0 7 rd 0x2B

end Sys2Proof.Machine
end

