-- ==== Sys2Proof/Machine/Threads.lean ====
section
/-! DEFINITION. Threads.lean: hardware threads: traps, exits, waits, memory accesses and the instructions of the packet cores (R363 to R382, R391 to R394). -/

namespace Sys2Proof.Machine
open Sys2Proof

/-! Cores and threads -/

/-- The number of a core: cluster × 16 + core. -/
def coreNo (cl : Cluster) (co : CoreIx) : Nat := cl.val * 16 + co.val
/-- A core. -/
def coreOf (s : State) (ck : Nat) : Core := Tbl.getD s.cores.cores ck Core.reset
/-- A core changed. -/
def modCore (ck : Nat) (f : Core → Core) (s : State) : State := modCores (fun c => { c with cores := Tbl.put c.cores ck (f (Tbl.getD c.cores ck Core.reset)) }) s
/-- A thread context; none is FREE. -/
def thread (s : State) (ck t : Nat) : Option Thread := Tbl.find (coreOf s ck).threads t
/-- A context that is not FREE, changed. -/
def modThread (ck t : Nat) (f : Thread → Thread) (s : State) : State := modCore ck (fun c => { c with threads := Tbl.modify c.threads t f }) s
/-- A context becomes FREE. -/
def freeThread (ck t : Nat) (s : State) : State := modCore ck (fun c => { c with threads := Tbl.del c.threads t }) s
/-- A cluster. -/
def cluster (s : State) (cl : Nat) : ClusterSt := s.cores.clusters[(⟨cl % 16, Nat.mod_lt _ (by decide)⟩ : Fin 16)]
/-- A cluster changed. -/
def modCluster (cl : Nat) (f : ClusterSt → ClusterSt) (s : State) : State :=
  modCores (fun c => { c with clusters := vmod c.clusters ⟨cl % 16, Nat.mod_lt _ (by decide)⟩ f }) s
/-- A counter of R400. -/
def countCore (cl n : Nat) (s : State) : State := count 0x0C 0 (16 * cl + n) 1 s

/-- The live states (R367). -/
def TState.live : TState → Bool
  | .ready => true
  | .waiting => true
  | .halted => true
  | _ => false
/-- The codes of R367. -/
def TState.code : TState → Nat
  | .ready => 1 | .waiting => 2 | .zombie => 3 | .halted => 4 | .trapped => 5 | .draining => 6
/-- The state code of a context. -/
def threadCode (s : State) (ck t : Nat) : Nat := ((thread s ck t).map fun x => x.st.code).getD 0
/-- The core has a live thread. -/
def coreLive (s : State) (ck : Nat) : Bool := (coreOf s ck).threads.any fun e => e.2.st.live
/-- A thread of the core is HALTED. -/
def coreHalted (s : State) (ck : Nat) : Bool := (coreOf s ck).threads.any fun e => e.2.st == .halted
/-- The cluster has a live thread. -/
def clusterLive (s : State) (cl : Nat) : Bool := (upFrom (16 * cl) 16).any (coreLive s)
/-- The program loaded on a core's cluster; 0 where there is none. -/
def programOf (s : State) (ck : Nat) : Nat := ((cluster s (ck / 16)).program).getD 0

/-- Register x0 to x31. -/
def Thread.x (t : Thread) (r : Nat) : DWord := if r = 0 then 0 else BitVec.ofNat 64 (t.regs[(⟨r % 32, Nat.mod_lt _ (by decide)⟩ : Fin 32)])
/-- A register written; x0 stays 0. -/
def Thread.setX (t : Thread) (r v : Nat) : Thread :=
  if r = 0 then t else { t with regs := vset t.regs ⟨r % 32, Nat.mod_lt _ (by decide)⟩ (v % 2 ^ 64) }
/-- The event word (R372). -/
def Thread.eventWord (t : Thread) : Nat := t.events % 32768 + b2n (!t.inbox.isEmpty) * 32768
/-- Requests outstanding: until their replies are popped (R380). -/
def Thread.outstanding (t : Thread) : Nat := t.asked + t.coming.length + t.inbox.length

/-! Stores (R363) -/

/-- The oldest buffered store reaches memory. (DEDUCED, log 71) -/
def drainOne (ck t : Nat) (s : State) : State :=
  match (thread s ck t).bind fun th => th.stores.head? with
  | none => s
  | some (addr, bs) =>
    let s1 := modThread ck t (fun th => { th with stores := th.stores.drop 1 }) s
    match regionOf s ck addr bs.length with
    | none => s1
    | some r => writeAt ck r bs s1

/-- Every buffered store reaches memory. -/
def drainAll (ck t : Nat) (s : State) : State :=
  (((thread s ck t).map fun th => th.stores).getD []).foldl (fun s _ => drainOne ck t s) s

/-- What a thread reads: memory under its own buffered stores. -/
def readUnder (s : State) (ck : Nat) (stores : List (Nat × List Byte)) (addr : Nat) (r : Region) (n : Nat) : List Byte :=
  let last (a : Nat) (b : Byte) : Byte := stores.foldl (fun b st => if st.1 ≤ a ∧ a < st.1 + st.2.length then st.2.getD (a - st.1) b else b) b
  (readAt s ck r n).zipIdx.map fun e => last (addr + e.2) e.1

/-! Waits (R370, R372, R373) -/

/-- A waiting thread whose wait is satisfied goes on. -/
def settle (ck t : Nat) (s : State) : State :=
  match thread s ck t with
  | none => s
  | some th => if th.st ≠ .waiting then s else match th.wait with
    | none => s
    | some (.events rd mask) =>
      let v := th.eventWord &&& mask
      if v = 0 then s
      else modThread ck t (fun th => { th.setX rd v with st := .ready, wait := none, events := th.events - (th.events &&& (v % 32768)) }) s
    | some (.join rd child) => match thread s ck child with
      | none => s
      | some c => if c.st = .zombie ∧ c.parent = t ∧ !c.detached then
          modThread ck t (fun th => { th.setX rd c.exitVal with st := .ready, wait := none }) (freeThread ck child s)
        else s

/-- Every waiting thread of a core is looked at. -/
def settleCore (ck : Nat) (s : State) : State := (coreOf s ck).threads.foldl (fun s e => settle ck e.1 s) s

/-- Event bits set in a thread. -/
def setEvents (ck t bits : Nat) (s : State) : State := settle ck t (modThread ck t (fun th => { th with events := th.events ||| bits }) s)

/-! Traps and exits (R369, R391, R394) -/

/-- A thread traps (R391): TRAPPED, counted, CORE_TRAP to the owner. -/
def trap (ck t cause tval : Nat) (s : State) : State :=
  let s1 := modThread ck t (fun th => { th with st := .trapped, load := none, wait := none }) (drainAll ck t s)
  let pc := ((thread s1 ck t).map fun th => th.pc).getD 0
  raiseOwner 0x60 (source 0x03 ck) 0 ([t + 16 * ck + cause * 65536, programOf s ck] ++ words64 pc ++ words64 tval)
    (countCore (ck / 16) 10 s1)

/-- A thread that has exited and has every reply takes its final state. -/
def finishExit (ck t : Nat) (s : State) : State :=
  match thread s ck t with
  | none => s
  | some th =>
    if 0 < th.asked + th.coming.length then s
    else if th.detached then freeThread ck t s
    else setEvents ck th.parent 8192 (modThread ck t (fun th => { th with st := .zombie }) s)

/-- The children of an exiting thread: a ZOMBIE becomes FREE, any other is detached. (DEDUCED, log 72) -/
def orphanChildren (ck t : Nat) (s : State) : State :=
  (coreOf s ck).threads.foldl (fun s e =>
    if e.1 = t ∨ e.2.detached ∨ e.2.parent ≠ t then s
    else if e.2.st = .zombie then freeThread ck e.1 s
    else modThread ck e.1 (fun th => { th with detached := true }) s) s

/-- A thread exits with a value (R369). -/
def exitThread (ck t v : Nat) (s : State) : State :=
  match thread s ck t with
  | none => s
  | some th => if th.st = .zombie ∨ th.st = .draining then s else
    let s1 := orphanChildren ck t (drainAll ck t s)
    finishExit ck t (modThread ck t (fun th => { th with
      st := .draining, exitVal := v, staging := Vector.replicate 8 0, timer := none, wait := none, load := none, inbox := [], reserved := none }) s1)

/-- A thread is killed (R394): it exits with −1. -/
def killThread (ck t : Nat) (s : State) : State := exitThread ck t (2 ^ 64 - 1) s

/-! Issue -/

/-- A thread may issue: READY and not waiting for a load. -/
def mayIssue (s : State) (ck t : Nat) : Bool := (thread s ck t).any fun th => th.st == .ready && th.load.isNone

/-- An instruction retires: the program counter and the instruction counts move on. -/
def retire (ck t npc : Nat) (s : State) : State :=
  countCore (ck / 16) 0 (modCore ck (fun c => { c with retired := (c.retired + 1) % 2 ^ 64 })
    (modThread ck t (fun th => { th with pc := npc % 2 ^ 64, retired := (th.retired + 1) % 2 ^ 64, atBp := false }) s))

/-- An instruction retires with a result. -/
def retireRd (ck t npc rd v : Nat) (s : State) : State := retire ck t npc (modThread ck t (fun th => th.setX rd v) s)

/-- The issue slot is the thread's (R371, R392). -/
def issued (ck t : Nat) (s : State) : State := modCore ck (fun c => { c with last := t, detected := false }) s

/-! Loads and stores (R362 to R364) -/

/-- The cause a memory access traps with; hod-window checks do not trap. (DEDUCED, log 71) -/
def accessCause (s : State) (ck addr n : Nat) (atomic : Bool) : Option Nat :=
  match regionOf s ck addr n with
  | none => some 2
  | some (.instr _) => some 2
  | some (.hod _ _) => if atomic then some 2 else none
  | some (.dram _) => if atomic then some 2 else if addr % n != 0 then some 3 else none
  | some (.mem _ _) => if addr % n != 0 then some 3 else none

/-- A hod-window access that fails a check of R204: its violation record. -/
def windowViolation (ck t h off n : Nat) (align : Bool) (s : State) : State := hodViolation align h off n (t + 16 * ck) 0xF s

/-- The thread's store buffer is full (R363). -/
def storesFull (s : State) (ck t : Nat) : Bool := ((thread s ck t).map fun (th : Thread) => decide (16 ≤ th.stores.length)).getD true

/-- A store is issued: buffered, or discarded where the hod window refuses it; a 17th waits. (DEDUCED, log 71) -/
def issueStore (ck t npc addr : Nat) (bs : List Byte) (s : State) : State :=
  match accessCause s ck addr bs.length false with
  | some c => trap ck t c addr s
  | none =>
    match regionOf s ck addr bs.length with
    | some (.hod h off) => match hodCheck s h off bs.length bs.length with
      | some align => retire ck t npc (windowViolation ck t h off bs.length align s)
      | none => if storesFull s ck t then s
          else retire ck t npc (modThread ck t (fun th => { th with stores := th.stores ++ [(addr, bs)] }) s)
    | _ => if storesFull s ck t then s
        else retire ck t npc (modThread ck t (fun th => { th with stores := th.stores ++ [(addr, bs)] }) s)

/-- A load, LR, SC or AMO is issued: the thread is not ready until its data returns. -/
def issueLoad (ck t : Nat) (w : LoadWait) (s : State) : State :=
  let atomic : Bool := match w.kind with
    | .zext => false
    | .sext => false
    | _ => true
  if atomic && ((thread s ck t).any fun th => !th.stores.isEmpty) then s
  else match accessCause s ck w.addr w.size atomic with
    | some c => trap ck t c w.addr s
    | none => modThread ck t (fun th => { th with load := some w }) s

/-- A value of `n` bytes sign-extended to 64 bits. -/
def signBytes (n v : Nat) : Nat := if 2 ^ (8 * n - 1) ≤ v then v + (2 ^ 64 - 2 ^ (8 * n)) else v

/-- What a returning access gives its register, and what it stores. -/
def loadResult (w : LoadWait) (held : Bool) (old : Nat) : Nat × Option Nat :=
  match w.kind with
  | .zext => (old, none)
  | .sext => (signBytes w.size old, none)
  | .lr => (signBytes w.size old, none)
  | .sc v => if held then (0, some v) else (1, none)
  | .amo op v => (signBytes w.size old, some (amoValue op (8 * w.size) old v))

/-- An access's data returns: the register is written and the instruction retires, or the thread traps (R363, R364, R415). (DEDUCED, log 71) -/
def loadReturn (ck t : Nat) (bad : Bool) (s : State) : State :=
  match thread s ck t with
  | none => s
  | some th => match th.load with
    | none => s
    | some w =>
      let s1 := modThread ck t (fun th => { th with load := none }) s
      let npc := th.pc + w.ilen
      match regionOf s ck w.addr w.size with
      | none => trap ck t 2 w.addr s1
      | some r =>
        let refused := match r with
          | .hod h off => (hodCheck s h off w.size w.size).map fun a => (h, off, a)
          | _ => none
        match refused with
        | some (h, off, a) => retireRd ck t npc w.rd 0 (windowViolation ck t h off w.size a s1)
        | none =>
          if bad || poisonedAt s ck r w.size then trap ck t 6 w.addr s1
          else
            let p := placeOf s ck r
            let res := loadResult w (th.reserved == some (p.1, p.2 / 8)) (leNat (readUnder s ck th.stores w.addr r w.size))
            let s2 := match res.2 with
              | none => s1
              | some v => writeAt ck r (leBytes w.size v) s1
            let keep := match w.kind with
              | .lr => some (p.1, p.2 / 8)
              | .sc _ => none
              | _ => (thread s2 ck t).bind fun th => th.reserved
            retireRd ck t npc w.rd res.1 (modThread ck t (fun th => { th with reserved := keep }) s2)

/-! Xbtx (R366 to R380) -/

/-- The lowest FREE context of a core. -/
def freeContext (s : State) (ck : Nat) : Option Nat := firstFree (fun t => (thread s ck t).isNone) 0 16

/-- TFORK and TFORKD (R368). -/
def xTfork (ck t npc : Nat) (det : Bool) (rd rs1 rs2 : Nat) (s : State) : State :=
  match thread s ck t, freeContext s ck with
  | none, _ => s
  | some _, none => retireRd ck t npc rd (2 ^ 64 - 1) (countCore (ck / 16) 2 s)
  | some th, some c =>
    let child := ((Thread.fresh (th.x rs1).toNat).setX 10 (th.x rs2).toNat).setX 11 t
    let s1 := modCore ck (fun k => { k with threads := Tbl.put k.threads c { child with detached := det, parent := t } }) s
    retireRd ck t npc rd c (countCore (ck / 16) 1 s1)

/-- TJOIN (R370). (DEDUCED, log 72) -/
def xTjoin (ck t npc rd rs1 : Nat) (s : State) : State :=
  match thread s ck t with
  | none => s
  | some th =>
    let n := (th.x rs1).toNat
    let named := n < 16 && (thread s ck n).any fun c => c.parent == t && !c.detached && n != t && (c.st.live || c.st == .zombie || c.st == .draining)
    if named then settle ck t (modThread ck t (fun th => { th with st := .waiting, wait := some (.join rd n) }) (retire ck t npc s))
    else trap ck t 5 n s

/-- TEXIT (R369). -/
def xTexit (ck t npc rs1 : Nat) (s : State) : State :=
  match thread s ck t with
  | none => s
  | some th => exitThread ck t (th.x rs1).toNat (retire ck t npc s)

/-- TSIGNAL (R374). -/
def xTsignal (ck t npc rd rs1 rs2 : Nat) (s : State) : State :=
  match thread s ck t with
  | none => s
  | some th =>
    let n := (th.x rs1).toNat % 16
    if (thread s ck n).any fun c => c.st.live then setEvents ck n ((th.x rs2).toNat % 8192) (retireRd ck t npc rd 0 s)
    else retireRd ck t npc rd 1 (countCore (ck / 16) 3 s)

/-- TWAIT (R373). -/
def xTwait (ck t npc raw rd rs1 : Nat) (s : State) : State :=
  match thread s ck t with
  | none => s
  | some th =>
    let mask := (th.x rs1).toNat % 65536
    if mask = 0 then trap ck t 1 raw s
    else settle ck t (modThread ck t (fun th => { th with st := .waiting, wait := some (.events rd mask) }) (retire ck t npc s))

/-- TTIMER (R375); beyond 2^32 − 1 cycles the spec gives no interval, and a free one is taken. (DEDUCED, log 72) -/
def xTtimer (ck t npc rs1 : Nat) (s : State) : State :=
  match thread s ck t with
  | none => s
  | some th =>
    let n := (th.x rs1).toNat
    let (s1, c) := if n < 2 ^ 32 then (s, n) else (drawn1 s, freshNat s)
    retire ck t npc (modThread ck t (fun th => { th with timer := if n = 0 then none else some (c, s.now) }) s1)

/-- A hawk register. -/
def hawk (s : State) (ck h : Nat) : Nat := (coreOf s ck).hawk[(⟨h % 64, Nat.mod_lt _ (by decide)⟩ : Fin 64)]
/-- A hawk register written, once the thread's earlier stores are visible (R376). -/
def setHawk (ck t h v : Nat) (s : State) : State :=
  modCore ck (fun c => { c with hawk := vset c.hawk ⟨h % 64, Nat.mod_lt _ (by decide)⟩ (v % 2 ^ 64) }) (drainAll ck t s)

/-- HRD, HWR, HSWAP, HADD and HCAS (R376, R378): the old value, and the new one where one is written. -/
def xHawk (ck t npc rd h : Nat) (new : Thread → Nat → Option Nat) (s : State) : State :=
  match thread s ck t with
  | none => s
  | some th =>
    let old := hawk s ck h
    retireRd ck t npc rd old (match new th old with
      | none => s
      | some v => setHawk ck t h v s)

/-- The value HCAS writes: rs2 where the register equals rs1. -/
def casNew (rs1 rs2 : Nat) (th : Thread) (old : Nat) : Option Nat := if old = (th.x rs1).toNat then some (th.x rs2).toNat else none

/-- CHPUT (R379). -/
def xChput (ck t npc w rs2 : Nat) (s : State) : State :=
  retire ck t npc (modThread ck t (fun th => { th with staging := vset th.staging ⟨w % 8, Nat.mod_lt _ (by decide)⟩ (th.x rs2).toNat }) s)

/-- The program of a core's cluster holds a port (R383, R397). -/
def portGranted (s : State) (ck port : Nat) : Bool :=
  port < 6 && (match (cluster s (ck / 16)).program with
    | none => false
    | some p => bitAt (((Tbl.find s.cores.grants p).map fun (g : Grant) => g.ports).getD 0) port)

/-- Messages in a port's buffer. -/
def portQueue (s : State) (cl port : Nat) : List PortMsg := Tbl.getD (cluster s cl).ports port []

/-- CHCOMMIT (R380, R381). (DEDUCED, log 72) -/
def xChcommit (ck t npc rd rs1 : Nat) (s : State) : State :=
  match thread s ck t with
  | none => s
  | some th =>
    let d := (th.x rs1).toNat
    let port := bitsAt d 0 4
    let n := bitsAt d 8 4
    let cl := ck / 16
    if !portGranted s ck port then retireRd ck t npc rd 2 (countCore cl 6 s)
    else if n = 0 ∨ 8 < n then retireRd ck t npc rd 4 s
    else if 4 ≤ th.outstanding then retireRd ck t npc rd 3 s
    else if 64 ≤ (portQueue s cl port).length then retireRd ck t npc rd 1 (countCore cl 5 s)
    else
      let m : PortMsg := { core := ck, thread := t, words := th.staging.toList.take n }
      let s1 := modCluster cl (fun c => { c with ports := Tbl.put c.ports port (Tbl.getD c.ports port [] ++ [m]) }) (drainAll ck t s)
      retireRd ck t npc rd 0 (countCore cl 4 (modThread ck t (fun th => { th with asked := th.asked + 1 }) s1))

/-- CHRECV (R382). -/
def xChrecv (ck t npc rd w : Nat) (pop : Bool) (s : State) : State :=
  match thread s ck t with
  | none => s
  | some th => match th.inbox with
    | [] => retireRd ck t npc rd 0 s
    | r :: rest => retireRd ck t npc rd (r.getD w 0) (if pop then modThread ck t (fun th => { th with inbox := rest }) s else s)

/-- One Xbtx instruction; `raw` is its word. -/
def xbExec (ck t npc raw : Nat) (i : Xb) (s : State) : State :=
  match i with
  | .tfork d rd rs1 rs2 => xTfork ck t npc d rd rs1 rs2 s
  | .tjoin rd rs1 => xTjoin ck t npc rd rs1 s
  | .texit rs1 => xTexit ck t npc rs1 s
  | .tsignal rd rs1 rs2 => xTsignal ck t npc rd rs1 rs2 s
  | .twait rd rs1 => xTwait ck t npc raw rd rs1 s
  | .ttimer rs1 => xTtimer ck t npc rs1 s
  | .tyield => retire ck t npc s
  | .hrd rd h => xHawk ck t npc rd h (fun _ _ => none) s
  | .hwr h rs2 => xHawk ck t npc 0 h (fun th _ => some (th.x rs2).toNat) s
  | .hswap rd h rs2 => xHawk ck t npc rd h (fun th _ => some (th.x rs2).toNat) s
  | .hadd rd h rs2 => xHawk ck t npc rd h (fun th old => some (old + (th.x rs2).toNat)) s
  | .hcas rd h rs1 rs2 => xHawk ck t npc rd h (casNew rs1 rs2) s
  | .chput w rs2 => xChput ck t npc w rs2 s
  | .chcommit rd rs1 => xChcommit ck t npc rd rs1 s
  | .chrecv rd w pop => xChrecv ck t npc rd w pop s

/-! CSRs (R365, R366) -/

/-- CLK_CORE cycles since power-on: four in each 2 ns period. (DEDUCED, log 72) -/
def coreCycles (s : State) : Nat := 4 * s.now

/-- A readable CSR; none is no CSR of the cores, and some none is the write-only WDOG_KICK. (PRESUMED, log 70) -/
def csrValue (s : State) (ck t : Nat) (th : Thread) (csr : Nat) : Option (Option Nat) :=
  match csr with
  | 0xC00 => some (some (coreCycles s))
  | 0xC01 => some (some (dtimeNs s))
  | 0xC02 => some (some th.retired)
  | 0xCC0 => some (some (t + 16 * ck + programOf s ck * 65536))
  | 0xCC1 => some (some th.eventWord)
  | 0xCC2 => some (some s.epochs.epoch)
  | 0x8C0 => some none
  | _ => none

/-- The watchdog restarts (R393). (DEDUCED, log 72) -/
def kick (ck : Nat) (s : State) : State := modCore ck (fun c => { c with wdogFrom := s.now }) s

/-- A CSR instruction: read-only CSRs take no write, and what WDOG_KICK reads is a free value. (DEDUCED, log 27) -/
def csrExec (ck t npc raw how csr rd src : Nat) (s : State) : State :=
  match thread s ck t with
  | none => s
  | some th =>
    let writes := how == 0 || src != 0
    match csrValue s ck t th csr with
    | none => trap ck t 1 raw s
    | some (some v) => if writes then trap ck t 1 raw s else retireRd ck t npc rd v s
    | some none => retireRd ck t npc rd (freshNat s) (drawn1 (if writes then kick ck s else s))

/-! One instruction -/

/-- EBREAK: the thread halts where a debug session has breakpoints enabled, and traps otherwise (R365, R477). -/
def doEbreak (ck t : Nat) (s : State) : State :=
  if s.cores.bpOn then
    modThread ck t (fun th => { th with st := .halted, reserved := none, atBp := (Tbl.find (coreOf s ck).bps th.pc).isSome }) s
  else trap ck t 7 0 s

/-- Bytes and sign of a load by funct3. -/
def loadShape (f3 : Nat) : Nat × LoadKind := (2 ^ (f3 % 4), if f3 < 4 then .sext else .zext)

/-- A decoded instruction is carried out; `ilen` is its length in bytes. -/
def rvExec (ck t raw ilen : Nat) (r : Rv) (s : State) : State :=
  match thread s ck t with
  | none => s
  | some th =>
    let npc := th.pc + ilen
    let pcv : DWord := BitVec.ofNat 64 th.pc
    match r with
    | .lui rd v => retireRd ck t npc rd v.toNat s
    | .auipc rd v => retireRd ck t npc rd (pcv + v).toNat s
    | .jal rd off => retireRd ck t (pcv + off).toNat rd npc s
    | .jalr rd rs1 off => retireRd ck t ((th.x rs1 + off).toNat / 2 * 2) rd npc s
    | .branch f3 rs1 rs2 off => retire ck t (if taken f3 (th.x rs1) (th.x rs2) then (pcv + off).toNat else npc) s
    | .load f3 rd rs1 off => issueLoad ck t { rd := rd, addr := (th.x rs1 + off).toNat, size := (loadShape f3).1, kind := (loadShape f3).2, ilen := ilen } s
    | .store size rs1 rs2 off => issueStore ck t npc (th.x rs1 + off).toNat (leBytes size (th.x rs2).toNat) s
    | .opImm op rd rs1 v => retireRd ck t npc rd (alu op (th.x rs1) v).toNat s
    | .op op rd rs1 rs2 => retireRd ck t npc rd (alu op (th.x rs1) (th.x rs2)).toNat s
    | .fence => if th.stores.isEmpty then retire ck t npc s else s
    | .ecall => trap ck t 8 (th.x 17).toNat s
    | .ebreak => doEbreak ck t s
    | .csr how csr rd src _ => csrExec ck t npc raw how csr rd src s
    | .lr size rd rs1 => issueLoad ck t { rd := rd, addr := (th.x rs1).toNat, size := size, kind := .lr, ilen := ilen } s
    | .sc size rd rs1 rs2 => issueLoad ck t { rd := rd, addr := (th.x rs1).toNat, size := size, kind := .sc (th.x rs2).toNat, ilen := ilen } s
    | .amo op size rd rs1 rs2 => issueLoad ck t { rd := rd, addr := (th.x rs1).toNat, size := size, kind := .amo op (th.x rs2).toNat, ilen := ilen } s
    | .xb i => xbExec ck t npc raw i s

/-- The instruction at a thread's PC: at a breakpoint just left, the original one (R477); or the cause of the trap. -/
def fetch (s : State) (ck : Nat) (th : Thread) : Except Nat Nat :=
  let at_ (n : Nat) : Nat := Mem.readLe (memOf s (instrSpace ck)) 0 th.pc n
  if th.pc % 2 ≠ 0 then .error 3
  else if 0x10000 < th.pc + 2 then .error 2
  else match (if th.atBp then Tbl.find (coreOf s ck).bps th.pc else none) with
    | some i => .ok i
    | none => if isShort (at_ 2) then .ok (at_ 2) else if 0x10000 < th.pc + 4 then .error 2 else .ok (at_ 4)

/-- The instruction decoded. -/
def decodeAny (i : Nat) : Option Rv := if isShort i then rvDecodeC i else rvDecode i

/-- A thread issues one instruction. -/
def threadStep (ck t : Nat) (s : State) : State :=
  match thread s ck t with
  | none => s
  | some th =>
    let s1 := issued ck t s
    match fetch s ck th with
    | .error c => trap ck t c th.pc s1
    | .ok i => match decodeAny i with
      | none => trap ck t 1 i s1
      | some r => rvExec ck t i (if isShort i then 2 else 4) r s1

/-- The next thread to issue: the first that may after the one that issued last (R371). -/
def nextThread (s : State) (ck : Nat) : Option Nat := pickFrom ((coreOf s ck).last + 1) 16 (mayIssue s ck)

/-- The address of a load or store, if the instruction is one. -/
def accessOf (th : Thread) : Rv → Option (Nat × Nat)
  | .load f3 _ rs1 off => some ((th.x rs1 + off).toNat, (loadShape f3).1)
  | .store size rs1 _ off => some ((th.x rs1 + off).toNat, size)
  | _ => none

/-- The next instruction of a thread names a hod that nothing holds: the undefined case of R205. -/
def namesFreeHod (s : State) (ck t : Nat) : Bool :=
  match thread s ck t with
  | none => false
  | some th => match fetch s ck th with
    | .error _ => false
    | .ok i => match (decodeAny i).bind (accessOf th) with
      | none => false
      | some (a, n) => match regionOf s ck a n with
        | some (.hod h off) => (hodCheck s h off n n).isNone && !hodHeld s h
        | _ => false

/-- CORE_INSTRUCTION (R365, R371). -/
def execCoreInstruction (cl : Cluster) (co : CoreIx) (s : State) : Host.Outcome State Fault Refusal :=
  let ck := coreNo cl co
  match nextThread s ck with
  | none => .next s
  | some t => if isLost s 0x03 ck then .next s
      else if namesFreeHod s ck t then .refused (.undefinedCase 205) else .next (threadStep ck t s)

/-- LOAD_DATA_RETURN (R363, R364): the outstanding access, or the oldest buffered store. -/
def execLoadDataReturn (cl : Cluster) (co : CoreIx) (t : ThreadIx) (store bad : Bool) (s : State) : Host.Outcome State Fault Refusal :=
  .next (if store then drainOne (coreNo cl co) t.val s else loadReturn (coreNo cl co) t.val bad s)

/-- A row of an Xbtx instruction: the thread, if it may, issues it now. -/
def runXb (cl : Cluster) (co : CoreIx) (t : ThreadIx) (i : Xb) (s : State) : State :=
  let ck := coreNo cl co
  match thread s ck t.val with
  | none => s
  | some th => if mayIssue s ck t.val then xbExec ck t.val (th.pc + 4) (xbWord i) i (issued ck t.val s) else s

/-- TFORK. -/
def execTfork (cl : Cluster) (co : CoreIx) (t : ThreadIx) (rd rs1 rs2 : RegNo) (s : State) : Host.Outcome State Fault Refusal := .next (runXb cl co t (.tfork false rd.val rs1.val rs2.val) s)
/-- TFORKD. -/
def execTforkd (cl : Cluster) (co : CoreIx) (t : ThreadIx) (rd rs1 rs2 : RegNo) (s : State) : Host.Outcome State Fault Refusal := .next (runXb cl co t (.tfork true rd.val rs1.val rs2.val) s)
/-- TEXIT. -/
def execTexit (cl : Cluster) (co : CoreIx) (t : ThreadIx) (rs1 : RegNo) (s : State) : Host.Outcome State Fault Refusal := .next (runXb cl co t (.texit rs1.val) s)
/-- TJOIN. -/
def execTjoin (cl : Cluster) (co : CoreIx) (t : ThreadIx) (rd rs1 : RegNo) (s : State) : Host.Outcome State Fault Refusal := .next (runXb cl co t (.tjoin rd.val rs1.val) s)
/-- TWAIT. -/
def execTwait (cl : Cluster) (co : CoreIx) (t : ThreadIx) (rd rs1 : RegNo) (s : State) : Host.Outcome State Fault Refusal := .next (runXb cl co t (.twait rd.val rs1.val) s)
/-- TSIGNAL. -/
def execTsignal (cl : Cluster) (co : CoreIx) (t : ThreadIx) (rd rs1 rs2 : RegNo) (s : State) : Host.Outcome State Fault Refusal := .next (runXb cl co t (.tsignal rd.val rs1.val rs2.val) s)
/-- TTIMER. -/
def execTtimer (cl : Cluster) (co : CoreIx) (t : ThreadIx) (rs1 : RegNo) (s : State) : Host.Outcome State Fault Refusal := .next (runXb cl co t (.ttimer rs1.val) s)
/-- TYIELD. -/
def execTyield (cl : Cluster) (co : CoreIx) (t : ThreadIx) (s : State) : Host.Outcome State Fault Refusal := .next (runXb cl co t .tyield s)
/-- HRD. -/
def execHrd (cl : Cluster) (co : CoreIx) (t : ThreadIx) (rd : RegNo) (i : Fin 64) (s : State) : Host.Outcome State Fault Refusal := .next (runXb cl co t (.hrd rd.val i.val) s)
/-- HWR. -/
def execHwr (cl : Cluster) (co : CoreIx) (t : ThreadIx) (i : Fin 64) (rs2 : RegNo) (s : State) : Host.Outcome State Fault Refusal := .next (runXb cl co t (.hwr i.val rs2.val) s)
/-- HSWAP. -/
def execHswap (cl : Cluster) (co : CoreIx) (t : ThreadIx) (rd : RegNo) (i : Fin 64) (rs2 : RegNo) (s : State) : Host.Outcome State Fault Refusal := .next (runXb cl co t (.hswap rd.val i.val rs2.val) s)
/-- HADD. -/
def execHadd (cl : Cluster) (co : CoreIx) (t : ThreadIx) (rd : RegNo) (i : Fin 64) (rs2 : RegNo) (s : State) : Host.Outcome State Fault Refusal := .next (runXb cl co t (.hadd rd.val i.val rs2.val) s)
/-- HCAS. -/
def execHcas (cl : Cluster) (co : CoreIx) (t : ThreadIx) (rd : RegNo) (i : Fin 64) (rs1 rs2 : RegNo) (s : State) : Host.Outcome State Fault Refusal := .next (runXb cl co t (.hcas rd.val i.val rs1.val rs2.val) s)
/-- CHPUT. -/
def execChput (cl : Cluster) (co : CoreIx) (t : ThreadIx) (rs2 : RegNo) (i : Fin 8) (s : State) : Host.Outcome State Fault Refusal := .next (runXb cl co t (.chput i.val rs2.val) s)
/-- CHCOMMIT. -/
def execChcommit (cl : Cluster) (co : CoreIx) (t : ThreadIx) (rd rs1 : RegNo) (s : State) : Host.Outcome State Fault Refusal := .next (runXb cl co t (.chcommit rd.val rs1.val) s)
/-- CHRECV. -/
def execChrecv (cl : Cluster) (co : CoreIx) (t : ThreadIx) (rd : RegNo) (i : Fin 8) (pop : Bool) (s : State) : Host.Outcome State Fault Refusal := .next (runXb cl co t (.chrecv rd.val i.val pop) s)

/-- WDOG_KICK (R366, R393): the thread writes the CSR. -/
def execWdogKick (cl : Cluster) (co : CoreIx) (t : ThreadIx) (s : State) : Host.Outcome State Fault Refusal :=
  let ck := coreNo cl co
  .next (match thread s ck t.val with
    | none => s
    | some th => if mayIssue s ck t.val then retire ck t.val (th.pc + 4) (kick ck (issued ck t.val s)) else s)

/-! Events of threads and cores -/

/-- THREAD_TIMER_EXPIRY (R375). -/
def execThreadTimerExpiry (cl : Cluster) (co : CoreIx) (t : ThreadIx) (s : State) : Host.Outcome State Fault Refusal :=
  let ck := coreNo cl co
  .next (if (thread s ck t.val).any fun th => th.timer.isSome then
    setEvents ck t.val 16384 (modThread ck t.val (fun th => { th with timer := none }) s) else s)

/-- A reply on its way reaches its thread: the inbox, or nowhere for a draining thread (R369, R381, R382). -/
def replyArrives (ck t k : Nat) (s : State) : State :=
  match thread s ck t with
  | none => s
  | some th => match th.coming[k]? with
    | none => s
    | some r =>
      let s1 := modThread ck t (fun th => { th with coming := th.coming.eraseIdx k }) s
      if th.st = .draining then finishExit ck t s1
      else settle ck t (modThread ck t (fun th => { th with inbox := th.inbox ++ [r] }) s1)

/-- CHANNEL_REPLY_ARRIVAL. -/
def execChannelReplyArrival (cl : Cluster) (co : CoreIx) (t : ThreadIx) (k : Fin 4) (s : State) : Host.Outcome State Fault Refusal :=
  .next (replyArrives (coreNo cl co) t.val k.val s)

/-- A core is deadlocked (R392). (DEDUCED, log 72) -/
def deadlocked (s : State) (ck : Nat) : Bool :=
  let ts := ((coreOf s ck).threads).map fun e => e.2
  ts.any (fun t => t.st.live) && ts.all (fun t => !t.st.live || t.st == .waiting) && ts.all (fun t => t.timer.isNone && t.outstanding == 0)

/-- TVAL of a deadlock: the mask of the wait; a TJOIN has none, and its TVAL is a free value. (DEDUCED, log 72) -/
def waitMask (s : State) (th : Thread) : Nat :=
  match th.wait with
  | some (.events _ m) => m
  | _ => freshNat s

/-- WAIT_DEADLOCK (R392): the lowest waiting thread traps at its wait. -/
def execWaitDeadlock (cl : Cluster) (co : CoreIx) (s : State) : Host.Outcome State Fault Refusal :=
  let ck := coreNo cl co
  .next (if !deadlocked s ck || (coreOf s ck).detected then s
    else match (coreOf s ck).threads.find? fun e => e.2.st == .waiting with
      | none => s
      | some e => trap ck e.1 4 (waitMask s e.2) (countCore cl.val 11
          (modThread ck e.1 (fun th => { th with pc := (th.pc + 2 ^ 64 - 4) % 2 ^ 64 }) (modCore ck (fun c => { c with detected := true }) (drawn1 s)))))

/-- A thread halts (R394): one that is not READY or WAITING is left as it is. -/
def haltThread (ck t : Nat) (s : State) : State :=
  modThread ck t (fun th => if th.st = .ready ∨ th.st = .waiting then { th with st := .halted, reserved := none } else th) s

/-- A thread resumes (R394, R476): HALTED to the state before, TRAPPED to its PC. -/
def resumeThread (ck t : Nat) (s : State) : State :=
  settle ck t (modThread ck t (fun th => if th.st = .halted then { th with st := if th.wait.isSome then .waiting else .ready }
    else if th.st = .trapped then { th with st := .ready } else th) s)

/-- The threads of a core that are not FREE. -/
def threadsOf (s : State) (ck : Nat) : List Nat := ((coreOf s ck).threads).map fun e => e.1

/-- WATCHDOG (R393). -/
def execWatchdog (cl : Cluster) (co : CoreIx) (s : State) : Host.Outcome State Fault Refusal :=
  let ck := coreNo cl co
  let c := coreOf s ck
  let live := Tbl.countIf c.threads fun _ t => t.st.live
  .next (if live == 0 || coreHalted s ck || c.wdogTimeout == 0 then s
    else
      let s1 := modCore ck (fun c => { c with wdogExpired := true, wdogFrom := s.now })
        (raiseOwner 0x61 (source 0x03 ck) 0 [16 * ck + c.wdogAction * 65536, live, min c.wdogTimeout 4000000] (countCore cl.val 12 s))
      if c.wdogAction = 1 then (threadsOf s ck).foldl (fun s t => haltThread ck t s) s1
      else if c.wdogAction = 2 then (threadsOf s ck).foldl (fun s t => killThread ck t s) s1
      else s1)

end Sys2Proof.Machine
end

