-- ==== Sys2Proof/Machine/Session.lean ====
section
/-! DEFINITION. Session.lean: breakpoints, and the end of a debug session of the Klobunel monitor (R474, R477). -/

namespace Sys2Proof.Machine
open Sys2Proof

/-- The monitor changed. -/
def modKlb (f : Klb → Klb) (s : State) : State := { s with klb := f s.klb }

/-- A breakpoint's original instruction put back. -/
def restoreBp (ck : Nat) (b : Nat × Nat) (s : State) : State :=
  writeMem (instrSpace ck) b.1 (leBytes (if isShort b.2 then 2 else 4) b.2) s

/-- A core's breakpoints removed and its instructions restored. -/
def clearBps (ck : Nat) (s : State) : State :=
  modCore ck (fun c => { c with bps := [] }) ((coreOf s ck).bps.foldl (fun s b => restoreBp ck b s) s)

/-- Threads of a core that the monitor holds. -/
def heldThreads (s : State) (ck : Nat) : List Nat :=
  ((coreOf s ck).threads.filter fun e => e.2.st == .halted).map (·.1)

/-- A session ends: breakpoints go, halted threads resume, TRAPPED ones stay. (DEDUCED, log 77) -/
def endSession (s : State) : State :=
  if s.klb.session.isNone then s
  else
    let s1 := modCores (fun c => { c with bpOn := false }) (modKlb (fun k => { k with session := none }) s)
    (s1.cores.cores.map (·.1)).foldl (fun s ck =>
      (heldThreads s ck).foldl (fun s t => resumeThread ck t (modThread ck t (fun th => { th with atBp := false }) s)) (clearBps ck s)) s1

end Sys2Proof.Machine
end

