-- ==== Sys2Proof/Machine/Keys.lean ====
section
/-! DEFINITION. Keys.lean: the key store: slots, import keys, pages, alarms, and the GCM regions of ESP (chapter 13). -/

namespace Sys2Proof.Machine
open Sys2Proof

/-- The key store changed. -/
def modCrypt (f : Crypt → Crypt) (s : State) : State := { s with crypt := f s.crypt }
/-- A slot; none is FREE. -/
def slotAt (s : State) (n : Nat) : Option KeySlot := Tbl.find s.crypt.slots n
/-- A slot changed. -/
def modSlot (n : Nat) (f : KeySlot → KeySlot) (s : State) : State := modCrypt (fun c => { c with slots := Tbl.modify c.slots n f }) s

/-- Bytes of material of a use (R331). -/
def materialLen (use : Nat) : Nat := if use = 1 then 36 else if use = 3 ∨ use = 5 then 64 else 32
/-- Wrapped length of a use (R331). -/
def wrappedLen (use : Nat) : Nat := if use = 1 then 48 else if use = 3 ∨ use = 5 then 72 else 40
/-- The use holds two halves that may not be equal. -/
def twoHalves (use : Nat) : Bool := use == 3 || use == 5
/-- Material that the store refuses. -/
def equalHalves (use : Nat) (m : List Byte) : Bool := twoHalves use && m.take 32 == (m.drop 32).take 32

/-- The owner of what a command's TARGET names. -/
def keyOwner : Obj → Option Nat
  | .func h f => some (fnKey h f)
  | _ => none
/-- The import key of an owner. -/
def ikekKey : Option Nat → Nat
  | none => 0
  | some k => k + 1

/-- Slots of an owner. -/
def slotsOf (s : State) (o : Option Nat) : Nat := Tbl.countIf s.crypt.slots fun _ k => k.owner == o
/-- Pages of an owner. -/
def pagesOf (s : State) (o : Option Nat) : Nat := Tbl.countIf s.crypt.pages fun _ k => k.slot.owner == o
/-- Slots of a host's functions. -/
def hostSlots (s : State) (h : HostId) : Nat := Tbl.countIf s.crypt.slots fun _ k => k.owner.any fun o => o / 1024 == h.val
/-- Pages of a host's functions. -/
def hostPages (s : State) (h : HostId) : Nat := Tbl.countIf s.crypt.pages fun _ k => k.slot.owner.any fun o => o / 1024 == h.val

/-- The owner's limits, or the quotas of a function, allow more slots (R334). -/
def slotRoom (s : State) (o : Obj) (n : Nat) : Bool :=
  match o with
  | .func h f => quotaAllows s h f 0x40 (hostSlots s h) (slotsOf s (some (fnKey h f))) n
  | _ => slotsOf s none + n ≤ 8192
/-- The owner's limits, or the quotas of a function, allow one more page (R334). -/
def pageRoom (s : State) (o : Obj) : Bool :=
  match o with
  | .func h f => quotaAllows s h f 0x42 (hostPages s h) (pagesOf s (some (fnKey h f))) 1
  | _ => pagesOf s none + 1 ≤ 1048576

/-- Persistent slots. -/
def persistent (s : State) : Nat := Tbl.countIf s.crypt.slots fun _ k => k.persist

/-- A source that keeps the store zeroised is present (R355). (DEDUCED, log 37) -/
def alarmHolds (s : State) : Bool := s.crypt.present % 16 != 0
/-- Imports are refused now (R355). -/
def importsBlocked (s : State) : Bool := alarmHolds s || nowNs s < s.crypt.blockedUntil

/-- Live connections and namespaces that name a slot (R338). -/
def boundOf (s : State) (n : Nat) : Nat :=
  Tbl.countIf s.ctx.conns (fun _ c => c.key == some n) + Tbl.countIf s.nvme.namespaces fun _ x => x.key == some n
/-- A live LRD connection names the slot. -/
def connNames (s : State) (n : Nat) : Bool := s.ctx.conns.any fun c => c.2.key == some n

/-- A slot is invalidated in every tile cache (R343). -/
def dropCached (n : Nat) (s : State) : State := modCrypt (fun c => { c with caches := Tbl.mapAll c.caches fun _ l => l.filter fun k => k != n }) s

/-- A slot zeroised and freed. -/
def freeSlot (n : Nat) (s : State) : State := dropCached n (modCrypt (fun c => { c with slots := Tbl.del c.slots n }) s)

/-- The sealed copy of a slot in the protected store. (DEDUCED, log 8, 44) -/
def sealSlot (n : Nat) (k : Option KeySlot) (s : State) : State :=
  { s with nv := { s.nv with sealed := match k with
    | none => Tbl.del s.nv.sealed n
    | some x => Tbl.put s.nv.sealed n x } }

/-! Alarms (R355 to R357) -/

/-- KEY_ALARM (R357). -/
def raiseAlarm (code : Nat) (erase : Bool) (erased pages slot : Nat) (s : State) : State :=
  raiseOwner 0x70 (source 0x0F 0) 0 [code + b2n erase * 256, erased, pages, slot]
    (count 0x0B 0 (if erase then 0x604 else 0x605) 1 (modCrypt (fun c => { c with latched := c.latched ||| 2 ^ (code - 1) }) s))

/-- A report alarm of a source. -/
def reportAlarm (code slot : Nat) (s : State) : State := raiseAlarm code false (if code = 5 then 1 else 0) 0 slot s

/-- Every packet in a tile is dropped as KEY_UNUSABLE (R355). -/
def dropTiles (s : State) : State :=
  (List.finRange 32).foldl (fun s p =>
    let ks := (s.net.pipes[p]).tile
    ks.foldl (fun s (k : Pkt) => dropPkt k (count 0x0B 0 (32 * p.val + 4) 1 s)) { s with net := { s.net with pipes := vmod s.net.pipes p fun x => { x with tile := [] } } }) s

/-- Every slot, import key, tile cache and page is lost (R355). -/
def eraseStore (s : State) : State :=
  dropTiles (modCrypt (fun c => { c with
    slots := Tbl.mapAll c.slots fun _ k => if k.state = 2 then { k with state := 3, material := [] } else k
    pages := [], ikeks := [], caches := [], started := [] }) s)

/-- An alarm of class ERASE; it ends a debug session (R474). -/
def eraseAlarm (code : Nat) (s : State) : State :=
  let erased := Tbl.countIf s.crypt.slots fun _ k => k.state == 2
  endSession (raiseAlarm code true erased s.crypt.pages.length 0 (eraseStore s))

/-- An unwrap has failed: counted, and above 1,024 in 1 ms imports are refused for 10 ms (R355). -/
def unwrapFailed (s : State) : State :=
  let fs := (s.crypt.fails.filter fun t => nowNs s < t + 1000000) ++ [nowNs s]
  let s1 := count 0x0B 0 0x600 1 s
  if 1024 < fs.length then reportAlarm 7 0 (modCrypt (fun c => { c with fails := [], blockedUntil := nowNs s + 10000000 }) s1)
  else modCrypt (fun c => { c with fails := fs }) s1

/-! Commands (R335 to R339, R356) -/

/-- The scopes of the key commands: FUNCTION, and DEVICE for the owner. (DEDUCED, log 14) -/
def keyScope (p : Packet) : Bool :=
  match p.chan with
  | .owner => true
  | .ring ⟨_, none⟩ => p.scope.toNat == 2
  | .ring _ => true

/-- What the key commands act on. -/
def keyObj : Obj → Bool
  | .host _ => false
  | _ => true

/-- A key reference has a reserved bit set (R332). -/
def badKeyRef (r : Nat) : Bool := if bitAt r 31 then bitsAt r 24 7 != 0 else bitsAt r 17 14 != 0
/-- It names a page. -/
def isPageRef (r : Nat) : Bool := bitAt r 31

/-- The key a reference names, as a slot record. -/
def keyOfRef (s : State) (r : Nat) : Option KeySlot :=
  if isPageRef r then (Tbl.find s.crypt.pages (r % 2 ^ 24)).map (·.slot) else slotAt s (r % 2 ^ 17)

/-- The reference names nothing that the caller's TARGET owns (R337). -/
def notOwned (s : State) (o : Obj) (r : Nat) : Bool :=
  match keyOfRef s r with
  | none => true
  | some k => k.owner != keyOwner o

/-- The first of `n` consecutive FREE slots, freely chosen. -/
def freeSlots (s : State) (n : Nat) : Option Nat :=
  pickFrom (freshNat s) 131072 fun i => i + n ≤ 131072 && (upFrom i n).all fun j => (slotAt s j).isNone

/-- An EMPTY slot of an owner. -/
def emptySlot (o : Option Nat) : KeySlot where
  state := 1
  use := 0
  persist := false
  hdrSlot := 0
  owner := o
  tagFails := 0
  imports := 0
  material := []

/-- KEY_ALLOCATE (R337). -/
def keyAllocateDef : CmdDef where
  opcode := 0x0800
  owner := true
  host := true
  tenant := true
  objs := keyObj
  len := fun n => n == 1
  checks := fun o p s =>
    [ (!keyScope p || p.f 0 0 7 == 0 || 64 < p.f 0 0 7 || p.f 0 7 25 != 0 || p.w 1 != 0, .badParam),
      (!slotRoom s o (p.f 0 0 7) || (freeSlots s (p.f 0 0 7)).isNone, .noResource) ]
  act := fun o p s =>
    let first := (freeSlots s (p.f 0 0 7)).getD 0
    reply [first] (modCrypt (fun c => { c with slots := (upFrom first (p.f 0 0 7)).foldl (fun t i => Tbl.put t i (emptySlot (keyOwner o))) c.slots }) (drawn1 s))

/-- USE of KEY_IMPORT. -/
def impUse (p : Packet) : Nat := p.f 1 0 4
/-- GENERATE. -/
def impGen (p : Packet) : Bool := p.b 1 8
/-- PERSIST. -/
def impPersist (p : Packet) : Bool := p.b 1 9
/-- WRAPPED_LEN. -/
def impLen (p : Packet) : Nat := p.f 1 16 8

/-- What KEY_IMPORT loads: the random source's bytes, or the unwrapped key; none where the unwrap fails. -/
def importMaterial (o : Obj) (p : Packet) (s : State) : Option (List Byte) :=
  if impGen p then some (Config.freeBytes s.drawn (materialLen (impUse p)))
  else match Tbl.find s.crypt.ikeks (ikekKey (keyOwner o)) with
    | none => none
    | some kek => (Config.kwpUnwrap kek (slice p.bytes 8 (impLen p))).filter fun m => m.length == materialLen (impUse p)

/-- The key loaded into its slot, and its sealed copy written or erased (R337). -/
def loadKey_ (n : Nat) (p : Packet) (m : List Byte) (s : State) : State :=
  match slotAt s n with
  | none => s
  | some k =>
    let k1 : KeySlot := { k with
      state := 2, use := impUse p, persist := impPersist p, hdrSlot := p.f 1 12 4, tagFails := 0, imports := (k.imports + 1) % 65536, material := m }
    sealSlot n (if impPersist p then some k1 else none) (dropCached n (modSlot n (fun _ => k1) s))

/-- KEY_IMPORT (R337). -/
def keyImportDef : CmdDef where
  opcode := 0x0801
  owner := true
  host := true
  tenant := true
  objs := keyObj
  len := fun _ => true
  checks := fun o p s =>
    let k := slotAt s (p.f 0 0 17)
    [ (p.len != (if impGen p then 1 else 1 + impLen p / 8), .badLength),
      (!keyScope p || p.f 0 17 15 != 0 || p.f 1 4 4 != 0 || p.f 1 10 2 != 0 || p.f 1 24 8 != 0, .badParam),
      (impUse p == 0 || 6 < impUse p || (2 < impUse p && !o.isDevice), .badParam),
      (impLen p != (if impGen p then 0 else wrappedLen (impUse p)), .badParam),
      (impPersist p && (!o.isDevice || impUse p != 3 || (4096 ≤ persistent s && !(k.any fun x => x.persist))), .badParam),
      (notOwned s o (p.f 0 0 17) || importsBlocked s || (k.any fun x => x.state == 2), .keyRefused) ]
  act := fun o p s =>
    match importMaterial o p s with
    | none => { state := unwrapFailed s, status := .keyRefused }
    | some m => if equalHalves (impUse p) m then { state := s, status := .keyRefused }
        else reply [] (loadKey_ (p.f 0 0 17) p m (drawn1 s))

/-- KEY_DESTROY (R337). -/
def keyDestroyDef : CmdDef where
  opcode := 0x0802
  owner := true
  host := true
  tenant := true
  objs := keyObj
  len := fun n => n == 1
  checks := fun o p s =>
    [ (!keyScope p || badKeyRef (p.w 0) || p.w 1 != 0, .badParam),
      (notOwned s o (p.w 0) || (!isPageRef (p.w 0) && connNames s (p.w 0)), .keyRefused) ]
  act := fun _ p s => reply [] (if isPageRef (p.w 0) then modCrypt (fun c => { c with pages := Tbl.del c.pages (p.f 0 0 24) }) s
    else freeSlot (p.w 0) (sealSlot (p.w 0) none s))

/-- The 16 bytes of KEY_QUERY (R338). -/
def keyRecord (k : KeySlot) (bound target : Nat) : List Nat :=
  [ k.state + k.use * 16 + b2n k.persist * 256 + k.hdrSlot * 4096 + min bound 65535 * 65536, target + b2n k.owner.isNone * 65536, k.tagFails, k.imports ]

/-- The TARGET value of an object. -/
def objTarget : Obj → Nat
  | .func h f => targetOf h f
  | _ => 0

/-- KEY_QUERY (R337, R338). -/
def keyQueryDef : CmdDef where
  opcode := 0x0803
  owner := true
  host := true
  tenant := true
  objs := keyObj
  len := fun n => n == 1
  checks := fun o p s => [ (!keyScope p || badKeyRef (p.w 0) || p.w 1 != 0, .badParam), (notOwned s o (p.w 0), .keyRefused) ]
  act := fun o p s => reply (match keyOfRef s (p.w 0) with
    | none => []
    | some k => keyRecord k (if isPageRef (p.w 0) then 0 else boundOf s (p.w 0)) (objTarget o)) s

/-- The import key of a calling channel (R335). -/
def callerIkek (p : Packet) (s : State) : Option (List Byte) :=
  match p.chan with
  | .owner => Tbl.find s.crypt.ikeks 0
  | .ring c => Tbl.find s.crypt.ikeks (1 + fnKey c.link .pf0)

/-- The new import key of IMPORT_KEY_SET; none where the unwrap fails (R335, R336). -/
def newIkek (p : Packet) (s : State) : Option (List Byte) :=
  let kek := if p.f 0 0 2 = 0 then callerIkek p s else Config.agreedKek (slice p.bytes 0x30 96) (slice p.bytes 0x90 1568) p.target.toNat
  match kek with
  | none => none
  | some k => (Config.kwpUnwrap k (slice p.bytes 8 40)).filter fun m => m.length == 32

/-- IMPORT_KEY_SET (R335, R336): the owner's import key is sealed into the protected store. -/
def importKeySetDef : CmdDef where
  opcode := 0x0804
  owner := true
  host := true
  objs := keyObj
  len := fun n => n == 6 || n == 214
  checks := fun _ p s =>
    [ (p.len != (if p.f 0 0 2 = 1 then 214 else 6), .badLength),
      (!keyScope p || 1 < p.f 0 0 2 || p.f 0 2 6 != 0 || p.f 0 8 8 != 40 || p.f 0 16 16 != 0 || p.w 1 != 0, .badParam),
      (importsBlocked s, .keyRefused) ]
  act := fun o p s =>
    match newIkek p s with
    | none => { state := unwrapFailed s, status := .keyRefused }
    | some k =>
      let s1 := modCrypt (fun c => { c with ikeks := Tbl.put c.ikeks (ikekKey (keyOwner o)) k }) s
      reply [] (if o.isDevice then { s1 with nv := { s1.nv with sealedIkek := some k } } else s1)

/-- A FREE page, freely chosen. -/
def freePage (s : State) : Option Nat := pickFrom (freshNat s) 16777216 fun i => !(Tbl.has s.crypt.pages i)

/-- A slot sealed into a page (R339, R340). -/
def pageOut (n page : Nat) (s : State) : State :=
  match slotAt s n with
  | none => s
  | some k => count 0x0B 0 0x601 1 (freeSlot n (modCrypt (fun c => { c with
      pages := Tbl.put c.pages page { slot := k, counter := c.pageCounter, bad := false }, pageCounter := c.pageCounter + 1 }) s))

/-- A page unsealed into a slot (R339). -/
def pageIn (page n : Nat) (s : State) : State :=
  match Tbl.find s.crypt.pages page with
  | none => s
  | some k => count 0x0B 0 0x602 1 (modCrypt (fun c => { c with pages := Tbl.del c.pages page, slots := Tbl.put c.slots n k.slot }) s)

/-- KEY_TIER_SET (R339, R340): a page that fails its check is freed. -/
def keyTierSetDef : CmdDef where
  opcode := 0x0805
  owner := true
  host := true
  objs := keyObj
  len := fun n => n == 1
  checks := fun o p s =>
    let r := p.w 0
    [ (!keyScope p || badKeyRef r || p.f 1 1 31 != 0 || isPageRef r != p.b 1 0, .badParam),
      (notOwned s o r || (!isPageRef r && ((slotAt s r).any fun k => k.persist || k.state != 2 || boundOf s r != 0)) || (isPageRef r && alarmHolds s), .keyRefused),
      (if isPageRef r then !slotRoom s o 1 || (freeSlots s 1).isNone else !pageRoom s o || (freePage s).isNone, .noResource) ]
  act := fun _ p s =>
    if isPageRef (p.w 0) then
      let page := p.f 0 0 24
      if (Tbl.find s.crypt.pages page).any (fun k => k.bad) then
        { state := count 0x0B 0 0x603 1 (modCrypt (fun c => { c with pages := Tbl.del c.pages page }) s), status := .keyRefused }
      else
        let n := (freeSlots s 1).getD 0
        reply [n] (pageIn page n (drawn1 s))
    else
      let page := (freePage s).getD 0
      reply [2 ^ 31 + page] (pageOut (p.w 0) page (drawn1 s))

/-- KEYSTORE_ZEROISE (R356): no slot stays persistent when its sealed copy is erased. -/
def keystoreZeroiseDef : CmdDef where
  opcode := 0x0806
  owner := true
  objs := Obj.isDevice
  len := fun n => n == 1
  checks := fun _ p _ => [(p.w 0 != 0x5A45524F || p.f 1 1 31 != 0, .badParam)]
  act := fun _ p s =>
    let s1 := eraseAlarm 8 s
    reply [] (if p.b 1 0 then
      modCrypt (fun c => { c with slots := Tbl.mapAll c.slots fun _ k => { k with persist := false } })
        { s1 with nv := { s1.nv with sealed := [], sealedIkek := none } }
    else s1)

/-- KEY_ALLOCATE. -/
def execKeyAllocate (p : Packet) (s : State) : Host.Outcome State Fault Refusal := .next (runCmd keyAllocateDef (.keyAllocate p) p s)
/-- KEY_IMPORT. -/
def execKeyImport (p : Packet) (s : State) : Host.Outcome State Fault Refusal := .next (runCmd keyImportDef (.keyImport p) p s)
/-- KEY_DESTROY. -/
def execKeyDestroy (p : Packet) (s : State) : Host.Outcome State Fault Refusal := .next (runCmd keyDestroyDef (.keyDestroy p) p s)
/-- KEY_QUERY. -/
def execKeyQuery (p : Packet) (s : State) : Host.Outcome State Fault Refusal := .next (runCmd keyQueryDef (.keyQuery p) p s)
/-- IMPORT_KEY_SET. -/
def execImportKeySet (p : Packet) (s : State) : Host.Outcome State Fault Refusal := .next (runCmd importKeySetDef (.importKeySet p) p s)
/-- KEY_TIER_SET. -/
def execKeyTierSet (p : Packet) (s : State) : Host.Outcome State Fault Refusal := .next (runCmd keyTierSetDef (.keyTierSet p) p s)
/-- KEYSTORE_ZEROISE. -/
def execKeystoreZeroise (p : Packet) (s : State) : Host.Outcome State Fault Refusal := .next (runCmd keystoreZeroiseDef (.keystoreZeroise p) p s)

/-! Sources of alarms -/

/-- A slot whose SRAM holds an uncorrectable error becomes ERASED (R355). -/
def eraseSlot (n : Nat) (s : State) : State := dropCached n (modSlot n (fun k => if k.state = 2 then { k with state := 3, material := [] } else k) s)

/-- What a source does when it is detected: 1 to 4, 6 and 8 erase, 5 erases one slot, 7 refuses imports, 9 reports. -/
def alarmSource (code slot : Nat) (s : State) : State :=
  let s1 := modCrypt (fun c => { c with present := c.present ||| 2 ^ (code - 1) }) s
  match code with
  | 5 => reportAlarm 5 slot (eraseSlot slot s1)
  | 7 => reportAlarm 7 0 (modCrypt (fun c => { c with blockedUntil := nowNs s + 10000000 }) s1)
  | 9 => reportAlarm 9 slot s1
  | _ => eraseAlarm code s1

/-- KEY_ALARM_SOURCE_CLEARED (R355): a source is present no more. -/
def execKeyAlarmSourceCleared (code : Byte) (s : State) : Host.Outcome State Fault Refusal :=
  let c := code.toNat
  .next (if c = 0 ∨ 9 < c then s else modCrypt (fun x => { x with present := setBitAt x.present (c - 1) false }) s)

/-- A function's slots, pages and import key are zeroised (R111, R115, R336, R343). -/
def zeroiseFn (h : HostId) (f : Fn) (s : State) : State :=
  let o := some (fnKey h f)
  let mine := (s.crypt.slots.filter fun e => e.2.owner == o).map (·.1)
  modCrypt (fun c => { c with
    slots := Tbl.keepIf c.slots fun _ k => k.owner != o
    pages := Tbl.keepIf c.pages fun _ k => k.slot.owner != o
    ikeks := Tbl.del c.ikeks (ikekKey o)
    caches := Tbl.mapAll c.caches fun _ l => l.filter fun n => !mine.contains n }) s

/-- A key generated in place (R341): the slot keeps its number, owner and PERSIST, and its sealed copy is rewritten. -/
def regenerate (n : Nat) (s : State) : State :=
  match slotAt s n with
  | none => s
  | some k =>
    let k1 : KeySlot := { k with state := 2, material := Config.freeBytes s.drawn (materialLen k.use), tagFails := 0, imports := (k.imports + 1) % 65536 }
    let s1 := dropCached n (modSlot n (fun _ => k1) (drawn1 s))
    if k.persist then sealSlot n (some k1) s1 else s1

/-- BOOT empties the store and restores persistent slots and the owner's import key, unless a source is present (R341). -/
def bootKeys (s : State) : State :=
  let holds := alarmHolds s
  { s with crypt := { Crypt.reset with
    slots := if holds then [] else s.nv.sealed
    ikeks := if holds then [] else (match s.nv.sealedIkek with
      | none => []
      | some k => [(0, k)])
    present := s.crypt.present, latched := s.crypt.latched } }

/-! Uses of a key (R333) -/

/-- A slot a tile may use: ACTIVE, of one use, and owned as a test says. -/
def usableKey (s : State) (n use : Nat) (owner : Option Nat → Bool) : Option KeySlot :=
  (slotAt s n).filter fun k => k.state == 2 && k.use == use && owner k.owner

/-- A tag failure of a slot (R345). -/
def countTagFail (p n : Nat) (s : State) : State := count 0x0B 0 (32 * p + 2) 1 (modSlot n (fun k => { k with tagFails := satAdd 0xFFFFFFFF k.tagFails 1 }) s)

/-- The region of an ESP packet (R344, R346): where ESP begins and how many bytes are encrypted; none where the region is not whole, is empty, or the header slot is not valid. -/
def espRegion (hdr : Nat) (k : Pkt) : Option (Nat × Nat) :=
  match k.vec.h.toList.getD hdr none with
  | none => none
  | some e =>
    let l := k.bytes.length
    if l < e + 48 ∨ (l - 32 - e) % 16 ≠ 0 then none else some (e, l - 32 - e)

/-- A packet's bytes with some replaced from an offset on. -/
def overwrite (l : List Byte) (off : Nat) (new : List Byte) : List Byte := l.take off ++ new ++ l.drop (off + new.length)

/-- ESP encryption of a packet: ciphertext and ICV in place (R346). (DESIGN CHOICE, log 8) -/
def espEncrypt (m : List Byte) (e n : Nat) (bs : List Byte) : List Byte :=
  let nonce := slice m 32 4 ++ slice bs (e + 8) 8
  let c := Config.gcmCrypt (m.take 32) nonce (slice bs (e + 16) n)
  overwrite (overwrite bs (e + 16) (c.take n)) (e + 16 + n) ((Config.gcmTag (m.take 32) nonce (slice bs e 8) (c.take n)).take 16)

/-- ESP decryption of a packet; none where the ICV fails (R345, R346). (DESIGN CHOICE, log 8) -/
def espDecrypt (m : List Byte) (e n : Nat) (bs : List Byte) : Option (List Byte) :=
  let nonce := slice m 32 4 ++ slice bs (e + 8) 8
  let c := slice bs (e + 16) n
  if Config.gcmTag (m.take 32) nonce (slice bs e 8) c = slice bs (e + 16 + n) 16 then
    some (overwrite bs (e + 16) ((Config.gcmCrypt (m.take 32) nonce c).take n))
  else none

end Sys2Proof.Machine
end

