-- ==== Sys2Proof/Machine/LrdWire.lean ====
section
/-! DEFINITION. LrdWire.lean: LRD packets as bytes: headers, checksums, frames and their GCM regions (R242 to R246, R347). -/

namespace Sys2Proof.Machine
open Sys2Proof

/-- Extension bytes of an opcode; none for an unlisted one (R244). -/
def extLen : Nat → Option Nat
  | 0x01 => some 8 | 0x02 => some 12 | 0x03 => some 20 | 0x04 => some 4 | 0x10 => some 44 | 0x11 => some 44 | 0x12 => some 0
  | 0x20 => some 24 | 0x21 => some 20 | 0x22 => some 8 | 0x23 => some 8 | 0x24 => some 8
  | _ => none

/-- Opcodes that take a PSN (R244). -/
def sequenced (op : Nat) : Bool := [0x01, 0x02, 0x03, 0x20, 0x21, 0x22, 0x23, 0x24].contains op
/-- Opcodes that carry a payload (R244). -/
def carriesData (op : Nat) : Bool := [0x01, 0x02, 0x04, 0x20, 0x22].contains op

/-! Checksums -/

/-- The sum of a string's big-endian 16-bit words, an odd last byte padded with 0. -/
def sum16 : List Byte → Nat
  | a :: b :: r => a.toNat * 256 + b.toNat + sum16 r
  | [a] => a.toNat * 256
  | [] => 0

/-- A sum folded to 16 bits in ones' complement arithmetic. -/
def fold16 (n : Nat) : Nat := if n = 0 then 0 else (n - 1) % 65535 + 1
/-- The ones' complement checksum of a sum. -/
def check16 (n : Nat) : Nat := 65535 - fold16 n

/-- Where the IP header of a frame with at most one VLAN tag begins. -/
def ipAt (bs : List Byte) : Nat := if beNat (slice bs 12 2) = 0x8100 then 18 else 14
/-- The frame carries IPv6. -/
def isV6 (bs : List Byte) : Bool := (bs.getD (ipAt bs) 0).toNat / 16 == 6
/-- The pseudo-header of the UDP datagram whose header stands 8 bytes before H4. -/
def pseudoHeader (bs : List Byte) (h4 : Nat) : List Byte :=
  let l := slice bs (h4 - 4) 2
  if isV6 bs then slice bs (ipAt bs + 8) 32 ++ [0, 0] ++ l ++ [0, 0, 0, 17] else slice bs (ipAt bs + 12) 8 ++ [0, 17] ++ l
/-- The sum over pseudo-header and datagram. -/
def udpSum (bs : List Byte) (h4 : Nat) : Nat := sum16 (pseudoHeader bs h4) + sum16 (slice bs (h4 - 8) (beNat (slice bs (h4 - 4) 2)))
/-- A received packet's UDP checksum fails (R242). -/
def badUdp (bs : List Byte) (h4 : Nat) : Bool := if beNat (slice bs (h4 - 2) 2) = 0 then isV6 bs else fold16 (udpSum bs h4) != 65535
/-- The UDP checksum written (R242). -/
def putUdp (bs : List Byte) (h4 : Nat) : List Byte :=
  let z := overwrite bs (h4 - 2) [0, 0]
  let c := check16 (udpSum z h4)
  overwrite z (h4 - 2) (beBytes 2 (if c = 0 then 65535 else c))

/-! Reading a packet -/

/-- A big-endian word of a packet. -/
def beWord (bs : List Byte) (off : Nat) : Nat := beNat (slice bs off 4)

/-- A received LRD packet, or none where step 1 of R241 fails. -/
def parseLrd (k : Pkt) (now : Nat) : Option LrdPkt :=
  match k.vec.h.toList.getD 4 none with
  | none => none
  | some h4 =>
    let bs := k.bytes
    let w0 := beWord bs h4
    let op := bitsAt w0 16 8
    match extLen op with
    | none => none
    | some e =>
      let enc := bitAt w0 15
      let start := h4 + 20 + e
      let tail := (if enc then 16 else 0) + bitsAt w0 24 4
      if bs.length < start + (if enc then tail else 0) ∨ w0 / 2 ^ 28 ≠ 1 ∨ badUdp bs h4 then none
      else some {
        op := op, flags := bitsAt w0 8 8, pad := bitsAt w0 24 4, dstGen := bitsAt w0 0 8, dstConn := beWord bs (h4 + 4) % 2 ^ 24
        srcGen := beWord bs (h4 + 8) / 2 ^ 24, srcConn := beWord bs (h4 + 8) % 2 ^ 24, psn := beWord bs (h4 + 12), stamp := beWord bs (h4 + 16)
        ext := (upFrom 0 (e / 4)).map fun i => beWord bs (h4 + 20 + 4 * i)
        at_ := start, len := bs.length - start - (if enc then tail else 0), arrived := now, pkt := k }

/-- ENC of FLAGS. -/
def LrdPkt.enc (p : LrdPkt) : Bool := bitAt p.flags 7
/-- ACK_REQ of FLAGS. -/
def LrdPkt.ackReq (p : LrdPkt) : Bool := bitAt p.flags 6
/-- LAST of FLAGS. -/
def LrdPkt.isLast (p : LrdPkt) : Bool := bitAt p.flags 4
/-- The payload. -/
def LrdPkt.payload (p : LrdPkt) : List Byte := slice p.pkt.bytes p.at_ p.len
/-- A word of the extension header. -/
def LrdPkt.e (p : LrdPkt) (i : Nat) : Nat := p.ext.getD i 0

/-! Building a packet -/

/-- The base header (R243). -/
def baseHeader (c : ConnCfg) (n op flags pad psn stamp : Nat) : List Byte :=
  beBytes 4 (2 ^ 28 + pad * 2 ^ 24 + op * 2 ^ 16 + flags * 256 + c.peerGen) ++ beBytes 4 c.peer
    ++ beBytes 4 (c.gen * 2 ^ 24 + n) ++ beBytes 4 psn ++ beBytes 4 stamp

/-- The UDP source port (R242). -/
def udpSource (c : ConnCfg) (n : Nat) : Nat := if c.udpSrc = 0 then 49152 + n % 16384 else c.udpSrc

/-- The Ethernet, IP and UDP headers in front of `n` bytes of LRD; the header bytes the spec does not set come from a draw. -/
def outerHeaders (c : ConnCfg) (udpPort src draw n : Nat) : List Byte :=
  let open_ := Config.freeBytes draw 12
  let eth := c.mac ++ slice open_ 0 6 ++ (match c.vlan with
    | none => []
    | some t => [0x81, 0x00] ++ beBytes 2 t)
  let udp := beBytes 2 src ++ beBytes 2 udpPort ++ beBytes 2 (8 + n) ++ [0, 0]
  let traffic := c.dscp * 4 + (open_.getD 6 0).toNat % 4
  if c.ipv6 then
    eth ++ [0x86, 0xDD] ++ beBytes 4 (6 * 2 ^ 28 + traffic * 2 ^ 20 + leNat (slice open_ 7 3) % 2 ^ 20) ++ beBytes 2 (8 + n) ++ [17]
      ++ beBytes 1 c.hop ++ c.localIp.take 16 ++ c.peerIp.take 16 ++ udp
  else
    let h (sum : Nat) : List Byte := [0x45] ++ beBytes 1 traffic ++ beBytes 2 (28 + n) ++ slice open_ 7 2 ++ [BitVec.ofNat 8 ((open_.getD 9 0).toNat % 2 * 0x40), 0]
      ++ beBytes 1 c.hop ++ [17] ++ beBytes 2 sum ++ c.localIp.take 4 ++ c.peerIp.take 4
    eth ++ [0x08, 0x00] ++ h (check16 (sum16 (h 0))) ++ udp

/-- PAD of a payload (R246). -/
def padFor (enc : Bool) (n : Nat) : Nat := if enc then (16 - n % 16) % 16 else 0

/-- A whole LRD frame and where H4 stands in it; an encrypted payload is still plaintext, with room for PAD and tag. -/
def buildLrd (c : ConnCfg) (udpPort n draw op flags psn stamp : Nat) (ext payload : List Byte) : List Byte :=
  let enc := c.enc && carriesData op
  let pad := padFor enc payload.length
  let body := baseHeader c n op (flags + b2n enc * 128) pad psn stamp ++ ext ++ payload ++ (if enc then List.replicate (pad + 16) 0 else [])
  let outer := outerHeaders c udpPort (udpSource c n) draw body.length
  putUdp (outer ++ body) outer.length

/-- Bytes of a frame of a connection, without FCS. -/
def lrdFrameLen (c : ConnCfg) (op len : Nat) : Nat :=
  let enc := c.enc && carriesData op
  14 + (if c.vlan.isSome then 4 else 0) + (if c.ipv6 then 40 else 20) + 8 + 20 + (extLen op).getD 0 + len + (if enc then padFor true len + 16 else 0)

/-! LRD under GCM (R347) -/

/-- The counter C of a sequenced packet. -/
def nonceSeq (ext : Nat) : Nat := ext % 2 ^ 63
/-- The counter C of a READ_RSP. -/
def nonceRsp (offset pmtu ext : Nat) : Nat := 2 ^ 63 + offset / pmtu % 2 ^ 20 * 2 ^ 43 + ext % 2 ^ 43
/-- The nonce: SRC_GEN, SRC_CONN and C. -/
def lrdNonce (gen conn c : Nat) : List Byte := beBytes 1 gen ++ beBytes 3 conn ++ beBytes 8 c

/-- The authenticated data: base and extension header with the mutable fields as 0. -/
def lrdAad (bs : List Byte) (h4 e : Nat) : List Byte :=
  let h := slice bs h4 (20 + e)
  overwrite (overwrite h 2 [BitVec.ofNat 8 ((h.getD 2 0).toNat &&& 0xB7)]) 16 [0, 0, 0, 0]

/-- The region of an encrypted packet: offset and length; none where it is not whole or is empty (R344). -/
def lrdRegion (p : LrdPkt) : Option (Nat × Nat) := if (p.len + p.pad) % 16 ≠ 0 ∨ p.len + p.pad = 0 then none else some (p.at_, p.len + p.pad)

/-- A packet's region encrypted and its tag appended. (DESIGN CHOICE, log 8) -/
def lrdEncrypt (m : List Byte) (p : LrdPkt) (h4 c : Nat) : List Byte :=
  let nonce := lrdNonce p.srcGen p.srcConn c
  let x := (Config.gcmCrypt (m.take 32) nonce (slice p.pkt.bytes p.at_ (p.len + p.pad))).take (p.len + p.pad)
  let t := (Config.gcmTag (m.take 32) nonce (lrdAad p.pkt.bytes h4 (4 * p.ext.length)) x).take 16
  putUdp (overwrite p.pkt.bytes p.at_ (x ++ t)) h4

/-- A packet's region decrypted; none where its tag fails. (DESIGN CHOICE, log 8) -/
def lrdDecrypt (m : List Byte) (p : LrdPkt) (h4 c : Nat) : Option (List Byte) :=
  let nonce := lrdNonce p.srcGen p.srcConn c
  let x := slice p.pkt.bytes p.at_ (p.len + p.pad)
  if (Config.gcmTag (m.take 32) nonce (lrdAad p.pkt.bytes h4 (4 * p.ext.length)) x).take 16 = slice p.pkt.bytes (p.at_ + p.len + p.pad) 16 then
    some (overwrite p.pkt.bytes p.at_ ((Config.gcmCrypt (m.take 32) nonce x).take (p.len + p.pad)))
  else none

/-- The extended value of a PSN at or below a reference that has wrapped `wraps` times. -/
def extBelow (wraps ref psn : Nat) : Nat := wraps * 2 ^ 32 + ref - (ref + 2 ^ 32 - psn) % 2 ^ 32
/-- The extended value of a PSN at or above a reference. -/
def extAbove (wraps ref psn : Nat) : Nat := wraps * 2 ^ 32 + ref + (psn + 2 ^ 32 - ref) % 2 ^ 32

end Sys2Proof.Machine
end

