-- ==== Sys2Proof/Machine/Conn.lean ====
section
/-! DEFINITION. Conn.lean: connections: completions, ERROR, congestion control, the path table, and the tiers of contexts (R247, R248, R258 to R266, R273 to R293). -/

namespace Sys2Proof.Machine
open Sys2Proof

/-- The CTX block changed. -/
def modCtx (f : Ctx → Ctx) (s : State) : State := { s with ctx := f s.ctx }
/-- A live connection by key. -/
def conn (s : State) (k : Nat) : Option Conn := Tbl.find s.ctx.conns k
/-- A connection changed. -/
def modConn (k : Nat) (f : Conn → Conn) (s : State) : State := modCtx (fun x => { x with conns := Tbl.modify x.conns k f }) s
/-- The domain of a key. -/
def connDom (k : Nat) : Nat := k / 2 ^ 24
/-- The number of a key. -/
def connNo (k : Nat) : Nat := k % 2 ^ 24
/-- A counter of XPORT in a connection's domain. -/
def countX (k n : Nat) (s : State) : State := count 0x08 0 (32 * connDom k + n) 1 s
/-- A counter of CTX in a connection's domain. -/
def countC (k n : Nat) (s : State) : State := count 0x09 0 (32 * connDom k + n) 1 s
/-- DTIME[31:0]. -/
def dtime32 (s : State) : Nat := dtimeNs s % 2 ^ 32
/-- The function of an owner key. -/
def ownerFn (o : Nat) : HostId × Fn := (hostOfKey o, fnOfIndex (o % 1024))
/-- a − b modulo 2^32. -/
def sub32 (a b : Nat) : Nat := (a + 2 ^ 32 - b % 2 ^ 32) % 2 ^ 32
/-- a + b modulo 2^32. -/
def add32 (a b : Nat) : Nat := (a + b) % 2 ^ 32
/-- The transport engine sends and executes nothing (R266). -/
def xportStopped (s : State) : Bool := s.glb.mode == .maintenance || s.glb.mode == .park || s.glb.mode == .boot

/-! Completions (R247, R248) -/

/-- An entry of a connection: kind 3 for the send side, 4 for the receive side. -/
def connCqe (c : Conn) (kind q index outcome cookie len ssn : Nat) (s : State) : State :=
  match c.owner with
  | none => s
  | some o =>
    let (h, f) := ownerFn o
    writeCqe h f c.cfg.cq [kind * 2 ^ 28 + outcome * 2 ^ 24 + 2 ^ 19 + c.cfg.cls * 2 ^ 16 + q, index, cookie, len % 2 ^ 18, ssn, 0, 0, 0] s

/-- A queue of a connection, if it has one, changed. -/
def modConnQueue (c : Conn) (q : Nat) (g : Queue → Queue) (s : State) : State :=
  match c.owner with
  | none => s
  | some o => modQueue (ownerFn o).1 (ownerFn o).2 q g s

/-- Finished requests at the front of the SQ leave it in order. -/
def flushWrs (k : Nat) : (fuel : Nat) → State → State
  | 0, s => s
  | n + 1, s => match conn s k with
    | none => s
    | some c => match c.sq with
      | [] => s
      | w :: r => match w.outcome with
        | none => s
        | some o =>
          let s1 := modConnQueue c c.cfg.sq (fun q => { q with head := (w.index + 1) % qSize q, packets := q.packets + 1, drops := if o = 0 then q.drops else q.drops + 1 }) (modConn k (fun c => { c with sq := r }) s)
          flushWrs k n (if w.signal ∨ o ≠ 0 then connCqe c 3 c.cfg.sq w.index o w.cookie 0 0 s1 else s1)

/-- How far a response has been written without a gap (R258). -/
def lowestMissing : (fuel at_ : Nat) → List (Nat × Nat) → Nat
  | 0, a, _ => a
  | n + 1, a, got => match got.find? fun r => r.1 ≤ a && a < r.2 with
    | none => a
    | some r => lowestMissing n r.2 got

/-- The response of a READ is complete. -/
def readComplete (w : LrdWr) : Bool := w.len ≤ lowestMissing (w.got.length + 1) 0 w.got

/-- A request is done: every packet is acknowledged and a READ's response is written (R257). -/
def wrDone (c : Conn) (w : LrdWr) : Bool :=
  w.started && w.allCut && !(c.sent.any fun p => p.wr == w.serial && !p.acked) && (w.op != 3 || readComplete w)

/-- Requests that are done take their outcome, and those at the front complete. -/
def settleWrs (k : Nat) (s : State) : State :=
  let s1 := modConn k (fun c => { c with sq := c.sq.map fun w => if w.outcome.isNone && wrDone c w then { w with outcome := some 0 } else w }) s
  flushWrs k (((conn s k).map fun c => c.sq.length).getD 0) s1

/-- Posted RQ buffers complete FLUSHED (R263). -/
def flushRq (c : Conn) : (index : Nat) → List RxBuf → State → State
  | _, [], s => s
  | i, b :: r, s => flushRq c (i + 1) r (connCqe c 4 c.cfg.rq i 4 b.cookie 0 0 s)

/-- Ring index of a connection's receive buffers, within the ring. -/
def rqSize (s : State) (c : Conn) : Nat :=
  match c.owner with
  | none => 1
  | some o => ((queue s (ownerFn o).1 (ownerFn o).2 c.cfg.rq).map qSize).getD 1

/-- A connection's requests end: those started with one outcome, the others FLUSHED; its buffers are FLUSHED. (DEDUCED, log 63) -/
def failWork (k started : Nat) (s : State) : State :=
  match conn s k with
  | none => s
  | some c =>
    let s1 := modConn k (fun c => { c with
      sq := c.sq.map fun w => if w.outcome.isSome then w else { w with outcome := some (if w.started then started else 4) }
      rq := [] }) s
    flushRq c c.rqHead c.rq (flushWrs k c.sq.length s1)

/-! ERROR (R263, R264) -/

/-- Packets of a chain freed and counted (R285). -/
def flushChain (k : Nat) (s : State) : State :=
  match conn s k with
  | none => s
  | some c => c.chain.foldl (fun s (p : Pkt) => countC k 6 (freeHods p.hods s)) (modConn k (fun c => { c with chain := [] }) s)

/-- CONN_ERROR (R264). (DEDUCED, log 61) -/
def raiseConnError (k cause code psn : Nat) (c : Conn) (s : State) : State :=
  let word (t : Nat) := [t + cause * 65536 + code * 2 ^ 24, connNo k + c.cfg.gen * 2 ^ 24, psn, connDom k]
  match c.owner with
  | none => raiseOwner 0x50 0 0 (word 0) s
  | some o => raiseFn (ownerFn o).1 (ownerFn o).2 0x50 (source 0x12 (connDom k)) 0 (word (targetOf (ownerFn o).1 (ownerFn o).2)) s

/-- A connection enters ERROR (R263): `nak` is the code of the NAK it sends the peer, 0 for none. (DEDUCED, log 62) -/
def connError (k cause code psn nak : Nat) (s : State) : State :=
  match conn s k with
  | none => s
  | some c =>
    if c.state = 2 then s
    else
      let s1 := c.jobs.foldl (fun s j => freeHods j.hods s) s
      let s2 := modConn k (fun c => { c with
        state := 2, cause := cause, serves := [], jobs := [], resend := [], blocks := [], probe := false, heldReads := []
        owed := if nak = 0 then [] else [{ code := nak, psn := psn, echo := (c.lastExec.map (·.echo)).getD 0, arrived := dtime32 s }]
        sent := c.sent.map fun p => { p with due := false } }) s1
      raiseConnError k cause code psn c (failWork k 5 (countX k 19 s2))

/-! The path table (R290 to R293) -/

/-- The peer prefix of an address: /24 or /64. -/
def pathPrefix (v6 : Bool) (ip : List Byte) : List Byte := if v6 then ip.take 8 else ip.take 3
/-- The set of a prefix (R290). -/
def pathSet (s : State) (v6 : Bool) (p : List Byte) : Nat :=
  let words := if v6 then [beNat (p.take 4), beNat ((p.drop 4).take 4)] else [beNat p * 256 * 2 ^ 32]
  mix s.ctx.pathSeed words / 2 ^ 50
/-- The ways of a set that hold an entry. -/
def pathWays (s : State) (set : Nat) : List (Nat × PathEntry) := s.ctx.paths.filter fun e => e.1 / 4 = set
/-- The entry of a prefix. -/
def pathFind (s : State) (v6 : Bool) (p : List Byte) : Option (Nat × PathEntry) :=
  (pathWays s (pathSet s v6 p)).find? fun e => e.2.v6 == v6 && e.2.prefix_ == p
/-- A free way of a set, or else the unlocked entry with the lowest SAMPLES, lowest way first. -/
def pathPlace (s : State) (set : Nat) : Option Nat :=
  match (upFrom (4 * set) 4).find? fun k => !(Tbl.has s.ctx.paths k) with
  | some k => some k
  | none => ((pathWays s set).foldl (fun (b : Option (Nat × PathEntry)) e =>
      if e.2.lock then b else match b with
        | none => some e
        | some x => if e.2.samples < x.2.samples then some e else b) none).map (·.1)
/-- An entry put at a place. -/
def pathPut (k : Nat) (e : PathEntry) (s : State) : State := modCtx (fun x => { x with paths := Tbl.put x.paths k e }) s

/-- A connection's state folded into an entry (R292). -/
def foldInto (c : Conn) (e : PathEntry) : PathEntry :=
  let e1 := if e.lock then e
    else if e.samples = 0 then { e with baseRtt := c.baseRtt, initRate := c.rate }
    else { e with baseRtt := min e.baseRtt c.baseRtt, initRate := (e.initRate + c.rate) / 2 }
  { e1 with samples := satAdd 65535 e.samples (c.samples - c.folded) }

/-- The fold of a connection (R292). -/
def foldConn (k : Nat) (s : State) : State :=
  match conn s k with
  | none => s
  | some c =>
    let p := pathPrefix c.cfg.ipv6 c.cfg.peerIp
    let s1 := modConn k (fun c => { c with folded := c.samples }) s
    match pathFind s c.cfg.ipv6 p with
    | some (i, e) => count 0x09 0 0x120 1 (pathPut i (foldInto c e) s1)
    | none => match pathPlace s (pathSet s c.cfg.ipv6 p) with
      | none => count 0x09 0 0x121 1 s1
      | some i => count 0x09 0 0x120 1 (pathPut i (foldInto c { lock := false, v6 := c.cfg.ipv6, samples := 0, baseRtt := 0, initRate := 0, prefix_ := p }) s1)

/-- A connection feeds the path table. -/
def learns (c : Conn) : Bool := !c.cfg.noLearn && !c.cfg.ccOff

/-! Timers and the rate (R258, R289) -/

/-- The timers after a sample (R258). (DEDUCED, log 63) -/
def timersAfter (x : Nat) (c : Conn) : Conn :=
  let srtt := if c.sampled then (7 * c.srtt + x) / 8 else x
  let var := if c.sampled then (3 * c.rttvar + (if c.srtt < x then x - c.srtt else c.srtt - x)) / 4 else x / 2
  { c with sampled := true, srtt := srtt, rttvar := var, rto := max 20000 (srtt + 4 * var) }

/-- The rate after a sample above or below its target, and the counter it advances (R289). -/
def rateAfter (x now : Nat) (c : Conn) : Option Nat × Conn :=
  let target := c.baseRtt + c.cfg.margin
  if now - c.lastAdj < c.srtt then (none, c)
  else if x ≤ target then (some 13, { c with lastAdj := now, rate := min c.cfg.maxRate (c.rate + c.cfg.aiStep) })
  else
    let f := 256 - c.cfg.beta * (x - target) / x
    (some 14, { c with lastAdj := now, rate := max c.cfg.minRate (c.rate * max f 128 / 256) })

/-- The base RTT after a sample (R289). -/
def baseAfter (x : Nat) (c : Conn) : Conn :=
  let n := satAdd 0xFFFFFFFF c.samples 1
  let b := min c.baseRtt x
  let nb := min c.nextBase x
  if n % 65536 = 0 then { c with samples := n, baseRtt := nb, nextBase := 0xFFFFFFFF } else { c with samples := n, baseRtt := b, nextBase := nb }

/-- One RTT sample (R257, R258, R289, R292). (DEDUCED, log 63) -/
def rttSample (k x : Nat) (s : State) : State :=
  match conn s k with
  | none => s
  | some c0 =>
    let c := timersAfter x c0
    if c.cfg.ccOff then modConn k (fun _ => c) s
    else if 2 ^ 31 ≤ x ∨ 1000 * s.ctx.cfg.rtoMax < x then countC k 15 (modConn k (fun _ => c) s)
    else
      let r := rateAfter x (dtimeNs s) (baseAfter x c)
      let s1 := modConn k (fun _ => r.2) s
      let s2 := match r.1 with
        | none => s1
        | some n => countC k n s1
      if learns c ∧ (r.2.samples = 8 ∨ (8 < r.2.samples ∧ (r.2.samples - 8) % 4096 = 0)) then foldConn k s2 else s2

/-- The pacer of a connection (R288). -/
def pacerBurst (c : Conn) : Nat := 2 * (c.cfg.pmtu + 128)
/-- The pacer's credit now. -/
def pacerCredit (s : State) (c : Conn) : Credit := grow c.rate (pacerBurst c) c.credit (now8 s)
/-- The pacer lets a data packet go. -/
def paced (s : State) (c : Conn) : Bool := c.cfg.ccOff || 0 ≤ (pacerCredit s c).credit
/-- The pacer pays for a packet. -/
def payPacer (k bytes : Nat) (s : State) : State :=
  modConn k (fun c => if c.cfg.ccOff then c else { c with credit := { pacerCredit s c with credit := (pacerCredit s c).credit - bytes * 1000, active := true } }) s

/-! Tiers (R273 to R281) -/

/-- Resident contexts, those whose slot is reserved for a fetch and those being written back included. -/
def slotsTaken (s : State) : Nat := Tbl.countIf s.ctx.conns fun _ c => c.resident || c.evicting || (c.fetching && !c.noVictim)
/-- Resident contexts of a domain. -/
def residentOf (s : State) (d : Nat) : Nat := Tbl.countIf s.ctx.conns fun k c => connDom k == d && c.resident
/-- The guarantee of a domain (R276). -/
def guarantee (s : State) (d : Nat) : Nat := if h : d < 8 then limit s ⟨d, h⟩ 0x21 else 4096
/-- Bus Master Enable of PF0 of a domain's host. -/
def backingOpen (s : State) (d : Nat) : Bool := if h : d < 8 then (fnOf s ⟨d, h⟩ .pf0).bme else false

/-- A READ is outstanding. -/
def readOut (c : Conn) : Bool := c.sq.any fun w => w.op == 3 && w.started && w.outcome.isNone
/-- A connection is drained (R262). -/
def drained (c : Conn) : Bool := c.una == c.nxt && !readOut c

/-- A context may be a victim (R279, R286). -/
def candidate (s : State) (k : Nat) (c : Conn) : Bool :=
  c.resident && !c.pinned && c.exec.all (fun e => e.phase != 0) && c.inbox.isEmpty && c.chain.isEmpty && c.jobs.isEmpty
    && !(c.sq.any fun w => !w.started) && c.blocks.isEmpty && c.una == c.nxt && !readOut c && c.serves.isEmpty && c.heldReads.isEmpty
    && c.owed.isEmpty && c.execUnacked == 0 && c.rnrHold.isNone && c.state == 0 && (!c.hostHome || backingOpen s (connDom k))

/-- Candidates in slot order from the hand. -/
def sweepOrder (s : State) (p : Nat → Conn → Bool) : List (Nat × Conn) :=
  let l := s.ctx.conns.filter fun e => candidate s e.1 e.2 && p e.1 e.2
  let sorted := sortBy (fun a b => decide (a.2.slot ≤ b.2.slot)) l
  (sorted.filter fun e => s.ctx.hand ≤ e.2.slot) ++ (sorted.filter fun e => e.2.slot < s.ctx.hand)

/-- A sweep: reference bits are cleared up to the first candidate whose bit is already clear. -/
def sweep (s : State) (p : Nat → Conn → Bool) : Option (Nat × State) :=
  let l := sweepOrder s p
  let passed := l.takeWhile fun e => e.2.refBit
  let victim := match l.dropWhile fun e => e.2.refBit with
    | e :: _ => some e
    | [] => l.head?
  victim.map fun e => (e.1, modCtx (fun x => { x with hand := (e.2.slot + 1) % 262144 })
    (passed.foldl (fun s e => modConn e.1 (fun c => { c with refBit := false }) s) s))

/-- A free on-chip slot, freely chosen. -/
def freeCtxSlot (s : State) : Option Nat :=
  if 262144 ≤ slotsTaken s then none
  else pickFrom (freshNat s) 262144 fun i => !(s.ctx.conns.any fun e => (e.2.resident || e.2.evicting || e.2.fetching) && e.2.slot == i)

/-- A victim's image is written to its home and its slot is given up (R280); the write is issued at once. (DEDUCED, log 63) -/
def evict (k : Nat) (s : State) : State :=
  match conn s k with
  | none => s
  | some c =>
    let s1 := modConn k (fun c => { c with resident := false, evicting := true, version := c.version + 1, imageBad := false }) s
    let out := if c.hostHome then Out.hostWrite (hostIx (connDom k)) .pf0 ((s.ctx.backing.toList.getD (connDom k) (0, 0)).1 + 512 * c.homeSlot) []
      else Out.dram 0 (512 * c.homeSlot) 1 []
    emit out (countC k 7 s1)

/-- The slot a miss of a domain reserves (R279); none: no candidate. -/
def reserveSlot (d : Nat) (s : State) : Option (Nat × State) :=
  let byVictim (p : Nat → Conn → Bool) : Option (Nat × State) := (sweep s p).map fun r => (((conn s r.1).map (·.slot)).getD 0, evict r.1 r.2)
  if guarantee s d ≤ residentOf s d then byVictim fun k _ => connDom k == d
  else match freeCtxSlot s with
    | some i => some (i, drawn1 s)
    | none => byVictim fun k _ => guarantee s (connDom k) < residentOf s (connDom k)

/-- The read of an image from its home is issued. -/
def issueFetch (k : Nat) (c : Conn) (s : State) : State :=
  if c.hostHome then issueRead (hostIx (connDom k)) .pf0 (.context (connDom k) (connNo k)) s else emit (.dram 0 (512 * c.homeSlot) 1 []) s

/-- A fetch starts, or waits for a victim (R279, R284). -/
def startFetch (k : Nat) (s : State) : State :=
  match conn s k with
  | none => s
  | some c =>
    match reserveSlot (connDom k) s with
    | none => countC k 9 (modConn k (fun c => { c with fetching := true, noVictim := true }) s)
    | some (i, s1) => issueFetch k c (modConn k (fun c => { c with fetching := true, noVictim := false, slot := i }) s1)

/-- A miss: counted by tier, and a fetch unless one is outstanding; during a write-back the fetch follows the write (R280). -/
def missFetch (k : Nat) (s : State) : State :=
  match conn s k with
  | none => s
  | some c => if c.resident || c.fetching || c.evicting then s else startFetch k (countC k (if c.hostHome then 2 else 1) s)

/-- A context is lost (R265, R286). -/
def contextLost (k : Nat) (s : State) : State :=
  let s1 := flushChain k (modConn k (fun c => { c with fetching := false, noVictim := false, resident := false, pinDue := false }) s)
  connError k 12 0 (((conn s k).map (·.una)).getD 0) 0 (countC k 10 s1)

/-- The connection lost its context; its map entry answers for it (R265). -/
def lostCtx (c : Conn) : Bool := c.state == 2 && c.cause == 12

/-- DRAM home slots in use. -/
def dramHomes (s : State) : Nat := Tbl.countIf s.ctx.conns fun k c => !c.hostHome && connDom k != 8
/-- DRAM home slots of a host. -/
def dramHomesOf (s : State) (d : Nat) : Nat := Tbl.countIf s.ctx.conns fun k c => !c.hostHome && connDom k == d
/-- A home slot in use. -/
def homeTaken (s : State) (host : Bool) (d i : Nat) : Bool :=
  s.ctx.conns.any fun e => e.2.hostHome == host && e.2.homeSlot == i && connDom e.1 != 8 && (!host || connDom e.1 == d)
/-- A free home slot of a tier, freely chosen. -/
def freeHome (s : State) (host : Bool) (d : Nat) : Option Nat :=
  let n := if host then (s.ctx.backing.toList.getD d (0, 0)).2 / 512 else 16777216
  if n = 0 then none else pickFrom (freshNat s) n fun i => !homeTaken s host d i
/-- Pinned contexts of a domain. -/
def pinnedOf (s : State) (d : Nat) : Nat := Tbl.countIf s.ctx.conns fun k c => connDom k == d && (c.pinned || c.pinDue)
/-- Pinned contexts of one function. -/
def pinnedOfFn (s : State) (o : Nat) : Nat := Tbl.countIf s.ctx.conns fun _ c => c.owner == some o && (c.pinned || c.pinDue)
/-- Live connections of a domain. -/
def connsOf (s : State) (d : Nat) : Nat := Tbl.countIf s.ctx.conns fun k _ => connDom k == d
/-- Live connections of one function. -/
def connsOfFn (s : State) (o : Nat) : Nat := Tbl.countIf s.ctx.conns fun _ c => c.owner == some o
/-- Fetches outstanding of a domain. -/
def fetchesOf (s : State) (d : Nat) : Nat := Tbl.countIf s.ctx.conns fun k c => connDom k == d && c.fetching
/-- Packets of a domain in the cloakroom. -/
def cloakOf (s : State) (d : Nat) : Nat := s.ctx.conns.foldl (fun n e => if connDom e.1 = d then n + e.2.chain.length else n) 0
/-- Packets in the cloakroom. -/
def cloakAll (s : State) : Nat := s.ctx.conns.foldl (fun n e => n + e.2.chain.length) 0

/-! The end of a connection (R239, R266, R274) -/

/-- A number and its generation enter the recent list. -/
def putRecent (k gen : Nat) (s : State) : State :=
  if s.ctx.recent.length < 65536 then modCtx (fun x => { x with recent := x.recent ++ [(k, gen)] }) s
  else count 0x08 0 0x121 1 (modCtx (fun x => { x with recent := x.recent.drop 1 ++ [(k, gen)] }) s)

/-- A queue of a connection that ends goes with its leaf. -/
def dropConnQueue (h : HostId) (f : Fn) (q : Nat) (s : State) : State :=
  { s with queues := Tbl.del s.queues (qKey h f q), sched := { s.sched with rx := Tbl.del s.sched.rx (qKey h f q) } }

/-- A connection ends: with `flush` its requests complete FLUSHED; its chain, hods, leaves, queues and home are given up. -/
def endConn (flush : Bool) (k : Nat) (s : State) : State :=
  match conn s k with
  | none => s
  | some c =>
    let s1 := if flush ∧ c.state ≠ 2 then failWork k 4 s else s
    let s2 := if learns c ∧ 8 ≤ c.samples then foldConn k s1 else s1
    let s3 := c.exec.foldl (fun s e => freeHods e.p.pkt.hods s) (c.inbox.foldl (fun s p => freeHods p.pkt.hods s) (c.jobs.foldl (fun s j => freeHods j.hods s) (flushChain k s2)))
    let s4 := match c.owner with
      | none => s3
      | some o =>
        let (h, f) := ownerFn o
        dropConnQueue h f c.cfg.rq (dropConnQueue h f c.cfg.sq (dropLeaf h 1 f c.cfg.rq (dropLeaf h 0 f c.cfg.sq s3)))
    putRecent k c.cfg.gen (modCtx (fun x => { x with conns := Tbl.del x.conns k }) s4)

/-- Every connection that a test of its owner accepts ends without a word to the peer (R266). -/
def endConns (p : Option Nat → Bool) (s : State) : State :=
  s.ctx.conns.foldl (fun t e => if p e.2.owner then endConn false e.1 t else t) s

/-- An LRD message is unacknowledged, or a READ outstanding (R26, R266). -/
def lrdUnacked (s : State) : Bool := s.ctx.conns.any fun e => e.2.state != 2 && !drained e.2

end Sys2Proof.Machine
end

