-- ==== Sys2Proof/Machine/Xport.lean ====
section
/-! DEFINITION. Xport.lean: the receiving side of LRD: the checks of R241, the sequence rules, execution and acknowledgement (R240, R241, R250 to R256, R261). -/

namespace Sys2Proof.Machine
open Sys2Proof

/-! ACKs and NAKs that are owed (R255, R256, R261) -/

/-- An ACK is owed at once; one ACK answers every trigger, the newest giving its stamp. (DEDUCED, log 62) -/
def oweAck (k echo arrived : Nat) (s : State) : State :=
  modConn k (fun c => if c.state = 2 then c
    else { c with owed := (c.owed.filter fun o => o.code != 0) ++ [{ code := 0, psn := 0, echo := echo, arrived := arrived }] }) s

/-- A NAK is owed. -/
def oweNak (k code : Nat) (p : LrdPkt) (s : State) : State :=
  modConn k (fun c => { c with owed := c.owed ++ [{ code := code, psn := p.psn, echo := p.stamp, arrived := p.arrived }] }) s

/-- The NAK limit of a pipeline, counted in milliseconds (R261, R270). (DEDUCED, log 62) -/
def nakAllowed (pipe : Nat) (s : State) : Bool × State :=
  let ms := nowNs s / 1000000
  let n := match Tbl.find s.ctx.naks pipe with
    | some (t, n) => if t = ms then n else 0
    | none => 0
  if n < s.ctx.cfg.nakLimit then (true, modCtx (fun x => { x with naks := Tbl.put x.naks pipe (ms, n + 1) }) s)
  else (false, count 0x08 0 0x120 1 s)

/-- The SACK words of a bitmap (R245, R256). -/
def sackWords (base : Nat) (executed : List Nat) : List Nat :=
  (upFrom 0 8).map fun w => (upFrom 0 32).foldl (fun n i => if executed.contains (add32 base (1 + 32 * w + i)) then n + 2 ^ (31 - i) else n) 0

/-- The extension of an ACK or NAK (R245). -/
def ackExt (o : Owed) (now base : Nat) (executed : List Nat) : List Byte :=
  beBytes 4 o.echo ++ beBytes 4 (o.code * 2 ^ 24 + min (sub32 now o.arrived) 0xFFFFFF) ++ beBytes 4 o.psn
    ++ (sackWords base executed).flatMap (beBytes 4)

/-! A number that is not live (R241 step 3) -/

/-- The addresses of an answer to a packet: the packet's own, turned round; the hop limit and what else the spec leaves open come from a draw. -/
def answerCfg (p : LrdPkt) (draw : Nat) : ConnCfg :=
  let bs := p.pkt.bytes
  let ip := ipAt bs
  let v6 := isV6 bs
  { gen := p.dstGen, peer := p.srcConn, peerGen := p.srcGen, cls := 0, enc := false, pmtu := 1024, ipv6 := v6
    vlan := if ip = 18 then some (beNat (slice bs 14 2)) else none
    window := 1, cq := 0, sq := 0, rq := 0, udpSrc := 0, initSend := 0, dscp := 0, hop := Config.freeNat (draw + 1) % 256, mac := slice bs 6 6
    localIp := if v6 then slice bs (ip + 24) 16 else slice bs (ip + 16) 4, peerIp := if v6 then slice bs (ip + 8) 16 else slice bs (ip + 12) 4
    group := 0, ccOff := true, noLearn := true, minRate := 0, maxRate := 0, aiStep := 0, margin := 0, beta := 0 }

/-- The NO_CONNECTION NAK, built from the offending packet; it leaves on the port the packet came by, in class 0. (DEDUCED, log 62) -/
def noConnNak (p : LrdPkt) (s : State) : State :=
  match nakAllowed p.pkt.pipe s with
  | (false, s1) => s1
  | (true, s1) =>
    let o : Owed := { code := 5, psn := p.psn, echo := p.stamp, arrived := p.arrived }
    let bs := buildLrd (answerCfg p s1.drawn) s1.ctx.cfg.udpPort p.dstConn s1.drawn 0x11 0 0 (dtime32 s1) (ackExt o (dtime32 s1) 0 []) []
    let s2 := { s1 with drawn := s1.drawn + 2 }
    match allocHods .forward false false bs.length s2 with
    | .error e => countRefused .forward false e s2
    | .ok (hs, s3) => forwardTo p.pkt.port 0 { Pkt.empty with bytes := bs, hods := hs, port := p.pkt.port, origin := .mirror, epoch := p.pkt.epoch } s3

/-- What is dropped where a NAK has no place: ACK, NAK and READ_RSP. -/
def isAnswer (op : Nat) : Bool := op == 0x10 || op == 0x11 || op == 0x04

/-! Execution (R252 to R254) -/

/-- The in-flight mark of a PSN clears, its packet's hods are freed (R252). -/
def execFail (k psn : Nat) (s : State) : State :=
  match conn s k with
  | none => s
  | some c =>
    let s1 := (c.exec.filter fun e => e.psn = psn).foldl (fun s e => freeHods e.p.pkt.hods s) s
    modConn k (fun c => { c with exec := c.exec.filter fun e => e.psn != psn, inflight := c.inflight.filter fun x => x != psn, heldReads := c.heldReads.filter fun h => h.psn != psn }) s1

/-- A packet is refused with a fatal NAK: it is not executed, and the connection enters ERROR (R261). -/
def refuseFatal (k code cause : Nat) (p : LrdPkt) (s : State) : State :=
  connError k cause code p.psn code (execFail k p.psn s)

/-- A packet meets RNR: it is not executed. -/
def refuseRnr (k : Nat) (p : LrdPkt) (s : State) : State := oweNak k 1 p (execFail k p.psn s)

/-- The window offset of a WRITE or READ_REQ. -/
def windowOff (p : LrdPkt) : Nat := p.e 1 % 65536 * 2 ^ 32 + p.e 2

/-- The window refuses a WRITE or READ_REQ (R261). (DEDUCED, log 63) -/
def accessBad (c : Conn) (p : LrdPkt) : Bool :=
  let n := if p.op = 0x02 then p.len else p.e 3
  p.e 0 != c.wkey || c.winSize < windowOff p + n || (if p.op = 0x02 then !c.remoteWrite else !c.remoteRead || n == 0 || 2 ^ 30 < n)

/-- The extended PSN of a received packet: at BASE plus d, or below it (R347). -/
def recvExt (c : Conn) (psn : Nat) : Nat := if sub32 psn c.base < 2 ^ 31 then extAbove c.recvWraps c.base psn else extBelow c.recvWraps c.base psn

/-- A READ is served from its RESUME (R254). -/
def serveRead (k : Nat) (p : LrdPkt) (s : State) : State :=
  modConn k (fun c => { c with serves := (c.serves.filter fun v => v.psn != p.psn) ++ [{ psn := p.psn, ext := recvExt c p.psn, off := c.winBase + windowOff p, len := p.e 3, next := p.e 4 }] }) s

/-- The buffer a SEND message uses, if it is posted (R254). -/
def sendBuf (c : Conn) (p : LrdPkt) : Option RxBuf := c.rq[sub32 (p.e 0) c.expect]?

/-- An execution's phase set. -/
def setPhase (k psn n : Nat) (s : State) : State := modConn k (fun c => { c with exec := c.exec.map fun e => if e.psn = psn then { e with phase := n } else e }) s

/-- A packet with data waits at the receive leaf of its connection (R218). -/
def waitAtLeaf (k : Nat) (c : Conn) (p : LrdPkt) (s : State) : State :=
  match c.owner with
  | none => setPhase k p.psn 2 s
  | some o =>
    let lk := o * 65536 + c.cfg.rq
    let s1 := setPhase k p.psn 1 (modSched (fun x => { x with rx := Tbl.put x.rx lk (Tbl.getD x.rx lk [] ++ [{ p.pkt with sel := p.psn, conn := k }]) }) s)
    match queuePath s1 (ownerFn o).1 1 (ownerFn o).2 c.cfg.rq with
    | none => s1
    | some (_, path) => path.foldl (fun s n => activate n s) s1

/-- A READ_REQ whose turn has come: refused in QUIESCE or by the window, or served (R254, R261, R266). -/
def execRead (k : Nat) (c : Conn) (p : LrdPkt) (s : State) : State :=
  if s.glb.mode = .quiesce then refuseRnr k p s
  else if accessBad c p then refuseFatal k 2 8 p s
  else serveRead k p (setPhase k p.psn 2 s)

/-- A marked packet is executed, its payload being plaintext now (R254, R261). -/
def beginExec (k : Nat) (p : LrdPkt) (s : State) : State :=
  match conn s k with
  | none => freeHods p.pkt.hods s
  | some c =>
    if c.state = 2 then execFail k p.psn s
    else match p.op with
    | 0x01 => match sendBuf c p with
      | none => refuseRnr k p s
      | some b => if p.e 1 / 65536 < p.e 1 % 65536 + p.len ∨ b.len < p.e 1 / 65536 then refuseFatal k 3 9 p s else waitAtLeaf k c p s
    | 0x02 => if accessBad c p then refuseFatal k 2 8 p s else waitAtLeaf k c p s
    | 0x03 =>
      if p.psn = c.base then execRead k c p s
      else if 8 ≤ c.heldReads.length then countX k 17 (execFail k p.psn s)
      else modConn k (fun c => { c with heldReads := c.heldReads ++ [p] }) s
    | _ => setPhase k p.psn 2 s

/-- A payload in plaintext goes on; an encrypted one enters its pipeline's tile first (R246, R347). -/
def toTile (k : Nat) (job : TileJob) (slot : Nat) (p : LrdPkt) (s : State) : State :=
  let x : Pkt := { p.pkt with tile := some (job, slot), conn := k, sel := p.psn }
  modPipe p.pkt.pipe (fun y => { y with tile := y.tile ++ [x] }) s

/-- A new sequenced packet is marked in flight and executed (R252). -/
def startExec (k : Nat) (p : LrdPkt) (s : State) : State :=
  let s1 := modConn k (fun c => { c with inflight := c.inflight ++ [p.psn], exec := c.exec ++ [{ psn := p.psn, phase := 0, p := p }] }) s
  match p.enc, (conn s k).bind (·.key) with
  | true, some slot => toTile k .lrdIn slot p s1
  | _, _ => beginExec k p s1

/-- A duplicate is counted and acknowledged at once; a READ_REQ is served again (R252, R254, R255). -/
def dupRx (k : Nat) (c : Conn) (p : LrdPkt) (s : State) : State :=
  let s1 := oweAck k p.stamp p.arrived (countX k 5 (modConn k (fun c => { c with statDup := satAdd 0xFFFFFFFF c.statDup 1 }) (freeHods p.pkt.hods s)))
  if p.op = 0x03 ∧ !accessBad c p ∧ s.glb.mode ≠ .quiesce then serveRead k p s1 else s1

/-- The sequence rules (R252). -/
def sequence (k : Nat) (c : Conn) (p : LrdPkt) (s : State) : State :=
  let d := sub32 p.psn c.base
  if 2 ^ 31 ≤ d then dupRx k c p s
  else if 1024 ≤ d then countX k 7 (freeHods p.pkt.hods s)
  else if c.executed.contains p.psn then dupRx k c p s
  else if c.inflight.contains p.psn then countX k 6 (freeHods p.pkt.hods s)
  else startExec k p s

/-- The opcode is served in the connection's domain (R267). -/
def served (storage : Bool) (op : Nat) : Bool := !sequenced op || (if storage then op == 0x22 || op == 0x24 else op == 0x01 || op == 0x02 || op == 0x03)

/-- ENC is as the opcode and the connection ask (R241 step 7). -/
def encOk (c : Conn) (p : LrdPkt) : Bool := p.enc == (c.cfg.enc && carriesData p.op)

/-- An answer, PROBE or READ_RSP joins the connection's inbox; an encrypted READ_RSP goes through its tile first. -/
def toInbox (k : Nat) (c : Conn) (p : LrdPkt) (s : State) : State :=
  if p.op = 0x04 ∧ connDom k = 8 then countX k 18 (freeHods p.pkt.hods s)
  else match p.enc, c.key with
    | true, some slot => toTile k .lrdIn slot p s
    | _, _ => modConn k (fun c => { c with inbox := c.inbox ++ [p] }) s

/-- Steps 5 to 10 of R241 for a packet whose context is on chip. -/
def lrdChecks (k : Nat) (p : LrdPkt) (s : State) : State :=
  match conn s k with
  | none => freeHods p.pkt.hods s
  | some c =>
    let drop (n : Nat) : State := countX k n (freeHods p.pkt.hods s)
    if p.dstGen ≠ c.cfg.gen then drop 8
    else if p.srcConn ≠ c.cfg.peer ∨ p.srcGen ≠ c.cfg.peerGen then drop 9
    else if !encOk c p then drop 21
    else if c.state = 2 then
      if isAnswer p.op then freeHods p.pkt.hods s
      else match nakAllowed p.pkt.pipe s with
        | (false, s1) => freeHods p.pkt.hods s1
        | (true, s1) => oweNak k 6 p (freeHods p.pkt.hods s1)
    else if !served (connDom k == 8) p.op then connError k 10 4 p.psn 4 (freeHods p.pkt.hods s)
    else if sequenced p.op then sequence k c p s
    else toInbox k c p s

/-! The cloakroom (R283, R284) -/

/-- A packet whose context is not on chip enters the cloakroom, or is dropped at a limit. -/
def cloak (k : Nat) (c : Conn) (p : Pkt) (s : State) : State :=
  if c.hostHome && !backingOpen s (connDom k) && !c.fetching then countC k 12 (freeHods p.hods s)
  else if 4096 ≤ cloakOf s (connDom k) then countC k 4 (freeHods p.hods s)
  else if 32768 ≤ cloakAll s then countC k 5 (freeHods p.hods s)
  else missFetch k (countC k 3 (modConn k (fun c => { c with chain := c.chain ++ [p] }) s))

/-- A packet reaches the transport engine by an action of KIND CONN with a DEST (R240, R241). -/
def transportRx (dest : Nat) (p : Pkt) (s : State) : State :=
  let d := if bitAt dest 31 then 8 else bitsAt dest 28 3
  let k0 := d * 2 ^ 24
  let free (s : State) : State := freeHods p.hods s
  if xportStopped s then free s
  else match parseLrd p (dtime32 s) with
    | none => countX k0 21 (free s)
    | some q =>
      if bitsAt dest 0 24 ≠ 0xFFFFFF ∧ bitsAt dest 0 24 ≠ q.dstConn then countX k0 20 (free s)
      else
        let k := k0 + q.dstConn
        match conn s k with
        | none => free (countX k0 10 (if isAnswer q.op then s else noConnNak q s))
        | some c =>
          if !lostCtx c && (!c.resident || !c.chain.isEmpty) then cloak k c { p with conn := k } s
          else lrdChecks k q (countC k 0 (modConn k (fun c => { c with refBit := true }) s))

/-- A chain is replayed in order (R284). -/
def replay (k : Nat) (s : State) : State :=
  match conn s k with
  | none => s
  | some c => c.chain.foldl (fun s (p : Pkt) => match parseLrd p (dtime32 s) with
      | none => freeHods p.hods s
      | some q => lrdChecks k q s) (modConn k (fun c => { c with chain := [] }) s)

/-! Execution done (R252 to R255) -/

/-- BASE passes every executed PSN. -/
def advanceBase : (fuel : Nat) → Conn → Conn
  | 0, c => c
  | n + 1, c =>
    if c.executed.contains c.base then
      advanceBase n { c with executed := c.executed.filter (fun x => x != c.base), base := add32 c.base 1, recvWraps := if c.base = 0xFFFFFFFF then c.recvWraps + 1 else c.recvWraps }
    else c

/-- The bytes of a SEND message that have executed (R254). -/
def noteSend (p : LrdPkt) (c : Conn) : Conn :=
  let m := (c.msgs.find? fun m => m.ssn = p.e 0).getD { ssn := p.e 0, len := p.e 1 / 65536, got := 0, last := none }
  let m1 := { m with got := m.got + p.len, last := if p.isLast then some p.psn else m.last }
  { c with msgs := (c.msgs.filter fun x => x.ssn != p.e 0) ++ [m1] }

/-- The message of the lowest SSN is complete: all its bytes, and BASE past its LAST packet. -/
def msgDone (c : Conn) : Option RxMsg :=
  c.msgs.find? fun m => m.ssn == c.expect && m.got == m.len && (match m.last with
    | none => false
    | some l => 0 < sub32 c.base l && sub32 c.base l < 2 ^ 31)

/-- SEND completions are written in SSN order (R254). -/
def completeMsgs (k : Nat) : (fuel : Nat) → State → State
  | 0, s => s
  | n + 1, s => match conn s k with
    | none => s
    | some c => match msgDone c with
      | none => s
      | some m =>
        let s1 := modConn k (fun c => { c with
          msgs := c.msgs.filter fun x => x.ssn != m.ssn
          expect := add32 c.expect 1, rq := c.rq.drop 1, rqHead := (c.rqHead + 1) % rqSize s c }) s
        let s2 := modConnQueue c c.cfg.rq (fun q => { q with head := (c.rqHead + 1) % qSize q, packets := q.packets + 1, bytes := q.bytes + m.len }) s1
        completeMsgs k n (connCqe c 4 c.cfg.rq c.rqHead 0 ((c.rq.headD ⟨0, 0, 0⟩).cookie) m.len m.ssn s2)

/-- The READ that BASE has reached is executed (R254). -/
def releaseRead (k : Nat) (s : State) : State :=
  match conn s k with
  | none => s
  | some c => match c.heldReads.find? fun p => p.psn = c.base with
    | none => s
    | some p => execRead k c p (modConn k (fun c => { c with heldReads := c.heldReads.filter fun x => x.psn != p.psn }) s)

/-- The acknowledgement of an execution: at once, after ACK_EVERY, or left to the timer (R255). -/
def noteAck (k : Nat) (p : LrdPkt) (atOnce : Bool) (s : State) : State :=
  let s1 := modConn k (fun c => { c with
    execUnacked := c.execUnacked + 1
    firstUnacked := if c.execUnacked = 0 then nowNs s else c.firstUnacked
    lastExec := some { code := 0, psn := 0, echo := p.stamp, arrived := p.arrived } }) s
  let n := ((conn s1 k).map (·.execUnacked)).getD 0
  if atOnce ∨ s.ctx.cfg.ackEvery ≤ n then oweAck k p.stamp p.arrived s1 else s1

/-- A packet's execution is done: its bit is set and BASE moves (R252). -/
def execDone (k psn : Nat) (s : State) : State :=
  match conn s k with
  | none => s
  | some c => match c.exec.find? fun e => e.psn = psn with
    | none => s
    | some e =>
      let d := sub32 psn c.base
      let missing := d = 0 ∧ !c.executed.isEmpty
      let s1 := freeHods e.p.pkt.hods (countX k 4 (modConn k (fun c =>
        let c1 := { c with
          exec := c.exec.filter fun x => x.psn != psn
          inflight := c.inflight.filter fun x => x != psn
          executed := c.executed ++ [psn], statExec := satAdd 0xFFFFFFFF c.statExec 1 }
        advanceBase 1025 (if e.p.op = 0x01 then noteSend e.p c1 else c1)) s))
      let s2 := if connDom k = 8 ∧ (e.p.op = 0x22 ∨ e.p.op = 0x24) then
          { s1 with nvme := { s1.nvme with blockIn := s1.nvme.blockIn ++ [{ conn := k, op := e.p.op, tag := e.p.e 0, word := e.p.e 1, payload := if e.p.op = 0x22 then e.p.payload else [] }] } }
        else s1
      releaseRead k (completeMsgs k (c.msgs.length + 1) (noteAck k e.p (e.p.ackReq ∨ 0 < d ∨ missing) s2))

/-- The data of a packet taken from its receive leaf is written to the host (R254). -/
def placeData (k psn : Nat) (s : State) : State :=
  match conn s k with
  | none => s
  | some c => match c.exec.find? (fun e => e.psn == psn && e.phase == 1), c.owner with
    | some e, some o =>
      let (h, f) := ownerFn o
      let addr := if e.p.op = 0x01 then ((sendBuf c e.p).map (·.addr)).getD 0 + e.p.e 1 % 65536 else c.winBase + windowOff e.p
      emit (.hostWrite h f addr e.p.payload) (setPhase k psn 2 s)
    | _, _ => s

/-! Rows -/

/-- The key of a connection, as the rows name it. -/
def rowKey (d : Domain) (n : ConnNo) : Nat := connKey d n.toNat

/-- The execution of a PSN can end: its data has been handed over, or its response's reads have been issued (R253). -/
def execReady (c : Conn) (psn : Nat) : Bool := (c.exec.any fun e => e.psn == psn && e.phase == 2) && !(c.serves.any fun v => v.psn == psn)

/-- LRD_EXECUTION_FAILED (R252). -/
def execLrdExecutionFailed (d : Domain) (n : ConnNo) (psn : BitVec 32) (s : State) : Host.Outcome State Fault Refusal :=
  .next (execFail (rowKey d n) psn.toNat s)

/-- The oldest packet of an opcode in a connection's inbox is taken. -/
def takeInbox (k op : Nat) (s : State) : Option (LrdPkt × State) :=
  match conn s k with
  | none => none
  | some c => match c.inbox.find? fun p => p.op = op with
    | none => none
    | some p =>
      let i := (c.inbox.findIdx? fun q => q.op = op).getD 0
      some (p, freeHods p.pkt.hods (modConn k (fun c => { c with inbox := c.inbox.eraseIdx i }) s))

/-- LRD_PROBE_RX (R255). -/
def execLrdProbeRx (d : Domain) (n : ConnNo) (s : State) : Host.Outcome State Fault Refusal :=
  .next (match takeInbox (rowKey d n) 0x12 s with
    | none => s
    | some (p, s1) => oweAck (rowKey d n) p.stamp p.arrived s1)

/-- LRD_ACK_DELAY_TIMER (R255): ACK_DELAY after the first unacknowledged execution. -/
def execLrdAckDelayTimer (d : Domain) (n : ConnNo) (s : State) : Host.Outcome State Fault Refusal :=
  let k := rowKey d n
  .next (match conn s k with
    | none => s
    | some c => if xportStopped s || c.execUnacked == 0 then s else match c.lastExec with
        | none => s
        | some o => oweAck k o.echo o.arrived s)

/-- RECENT_LIST_EXPIRY (R239): the number's oldest entry leaves the list. -/
def execRecentListExpiry (d : Domain) (n : ConnNo) (s : State) : Host.Outcome State Fault Refusal :=
  .next (modCtx (fun x => { x with recent := match x.recent.findIdx? fun e => e.1 = rowKey d n with
    | none => x.recent
    | some i => x.recent.eraseIdx i }) s)

/-- FETCH_NO_VICTIM_RETRY (R279): the sweep of a waiting fetch repeats. -/
def execFetchNoVictimRetry (d : Domain) (n : ConnNo) (s : State) : Host.Outcome State Fault Refusal :=
  let k := rowKey d n
  .next (match conn s k with
    | none => s
    | some c => if c.noVictim && !xportStopped s then startFetch k s else s)

/-- EVICTION_WRITE_DONE (R280): the victim's slot is free; a write that failed leaves an image that will not check. -/
def execEvictionWriteDone (d : Domain) (n : ConnNo) (ok : Bool) (s : State) : Host.Outcome State Fault Refusal :=
  let k := rowKey d n
  .next (match conn s k with
    | none => s
    | some c => if !c.evicting then s else
      let s1 := modConn k (fun c => { c with evicting := false, imageBad := c.imageBad || !ok }) s
      if (!c.chain.isEmpty || c.pinDue || c.sq.any fun w => !w.started) && !c.fetching then startFetch k s1 else s1)

/-- A context arrives (R284): it is resident, a pin that waited applies, its pacer starts at credit 0, and its chain is replayed. -/
def fetched (k : Nat) (s : State) : State :=
  replay k (modConn k (fun c => { c with
    fetching := false, noVictim := false, resident := true, refBit := true, pinned := c.pinned || c.pinDue, pinDue := false
    credit := ⟨0, now8 s, false⟩ }) s)

/-- The outstanding host read of a context. -/
def contextRead (s : State) (k : Nat) : Option (HostId × ReadReq) :=
  if connDom k = 8 then none
  else (findRead s (hostIx (connDom k)) fun _ p => p == .context (connDom k) (connNo k)).map fun r => (hostIx (connDom k), r)

/-- CONTEXT_FETCH_DONE (R278, R284, R286): a check that fails is counted and loses the context. -/
def execContextFetchDone (d : Domain) (n : ConnNo) (r : FetchResult) (s : State) : Host.Outcome State Fault Refusal :=
  let k := rowKey d n
  .next (match conn s k with
    | none => s
    | some c =>
      if !c.fetching || c.noVictim || xportStopped s then s
      else
        let s1 := match contextRead s k with
          | some (h, q) => endRead h q.tag s
          | none => s
        if r = .ok ∧ !c.imageBad then fetched k s1
        else contextLost k (if r = .checkFailed ∨ c.imageBad then countC k 11 s1 else s1))

end Sys2Proof.Machine
end

