-- ==== Sys2Proof/Machine/ConnCmds.lean ====
section
/-! DEFINITION. ConnCmds.lean: creating connections, and the connection, context, path and transport commands (R238, R239, R247, R262, R268 to R270, R277, R281, R282, R287, R291, R293, R294). -/

namespace Sys2Proof.Machine
open Sys2Proof

/-! What CONN_CREATE and REMOTE_TARGET_SET share (R268, R287, R323) -/

/-- The rate of a port that starts at a lane, in Mb/s; none: no port does. -/
def rateOfPort (s : State) (port : Nat) : Option Nat := if portWidth s port = 0 then none else some (portRate s (laneIx port))

/-- The rate of the port at the root of the tree above a queue group of a host; none where the group is not valid in the topcoat. -/
def groupRate (s : State) (h : HostId) (g : Nat) : Option Nat := ((leafPath s h 0 0 { Node.reset with parent := g }).map (·.1)).bind (rateOfPort s)

/-- PMTU in bytes. -/
def pmtuOf (p : Packet) : Nat := 1024 * 2 ^ p.f 2 4 3
/-- MAX_RATE, with its default. -/
def maxRateOf (p : Packet) (rate : Nat) : Nat := if p.w 34 = 0 then rate else p.w 34
/-- MIN_RATE, with its default. -/
def minRateOf (p : Packet) : Nat := if p.w 33 = 0 then 100 else p.w 33
/-- CC_OFF, which every class 7 connection has. -/
def ccOffOf (p : Packet) : Bool := p.b 32 2 || p.f 2 0 3 == 7
/-- An address: 16 bytes, or the first 4. -/
def connIp (p : Packet) (off : Nat) : List Byte := slice p.bytes off (if p.b 2 8 then 16 else 4)
/-- A nonzero field outside a range. -/
def outside (v lo hi : Nat) : Bool := v != 0 && (v < lo || hi < v)

/-- A field that both commands have is out of range, or a reserved bit is set; `rate` is the port's. (DEDUCED, log 64) -/
def badConnFields (p : Packet) (rate : Option Nat) : Bool :=
  p.f 1 0 24 == 0xFFFFFF || 3 < p.f 2 4 3 || p.b 2 7 || p.f 2 12 4 != 0 || p.f 3 0 11 == 0 || 1024 < p.f 3 0 11 || p.f 3 11 5 != 0
    || p.f 4 8 8 != 0 || p.f 5 17 15 != 0 || p.f 17 6 2 != 0 || p.f 19 16 16 != 0
    || [28, 29, 30, 31, 40, 41, 42, 43, 44, 45, 46, 47].any (fun i => p.w i != 0)
    || p.f 32 4 28 != 0 || p.f 33 21 11 != 0 || p.f 34 21 11 != 0 || p.f 35 21 11 != 0 || p.f 37 21 11 != 0 || p.f 39 8 24 != 0
    || rate.any (fun r => r < p.w 34 || maxRateOf p r < minRateOf p || outside (p.w 37) (minRateOf p) (maxRateOf p r))
    || outside (p.w 36) 1000 1000000 || outside (p.w 38) 500 1000000

/-- A connection number with a generation stands on the recent list (R239). -/
def isRecent (s : State) (k gen : Nat) : Bool := s.ctx.recent.contains (k, gen)

/-- The number a connection takes: the one named, or a free one, freely chosen, that is not the peer's (R333). -/
def connNumber (s : State) (dom : Nat) (p : Packet) : Option Nat :=
  if p.f 0 0 24 ≠ 0xFFFFFF then some (p.f 0 0 24)
  else pickFrom (freshNat s) 16777215 fun n =>
    (conn s (dom * 2 ^ 24 + n)).isNone && n != p.f 1 0 24 && !isRecent s (dom * 2 ^ 24 + n) (p.f 0 24 8)

/-- The named number is on the recent list with the named generation, or an ENC connection would have its peer's number and generation. -/
def badNumber (s : State) (dom : Nat) (p : Packet) : Bool :=
  (p.f 0 0 24 != 0xFFFFFF && isRecent s (dom * 2 ^ 24 + p.f 0 0 24) (p.f 0 24 8)) || (p.b 2 3 && p.w 0 == p.w 1)

/-- The named number is live. -/
def numberLive (s : State) (dom : Nat) (p : Packet) : Bool := p.f 0 0 24 != 0xFFFFFF && (conn s (dom * 2 ^ 24 + p.f 0 0 24)).isSome

/-- BASE_RTT and INIT_RATE a connection inherits, and the device-wide counter that its source advances (R293). (DEDUCED, log 64) -/
def inherited (s : State) (p : Packet) (rate : Nat) : Nat × Nat × Option Nat :=
  let entry := ((pathFind s (p.b 2 8) (pathPrefix (p.b 2 8) (connIp p 0x60))).map (·.2)).filter fun e => e.lock || 8 ≤ e.samples
  let rtt := if p.w 36 ≠ 0 then p.w 36 else (entry.map (·.baseRtt)).getD s.ctx.cfg.defaultRtt
  let init := if p.w 37 ≠ 0 then p.w 37 else (entry.map (·.initRate)).getD (rate / s.ctx.cfg.initDiv)
  let used := p.w 36 == 0 || p.w 37 == 0
  (rtt, min (maxRateOf p rate) (max (minRateOf p) init), if !used then none else if entry.isSome then some 0x122 else some 0x123)

/-- The settings of a connection. -/
def cfgOf (s : State) (p : Packet) (rate cq sq rq : Nat) : ConnCfg where
  gen := p.f 0 24 8
  peer := p.f 1 0 24
  peerGen := p.f 1 24 8
  cls := p.f 2 0 3
  enc := p.b 2 3
  pmtu := pmtuOf p
  ipv6 := p.b 2 8
  vlan := if p.b 2 9 then some (p.f 17 16 16) else none
  window := p.f 3 0 11
  cq := cq
  sq := sq
  rq := rq
  udpSrc := p.f 4 16 16
  initSend := p.w 15
  dscp := p.f 17 0 6
  hop := p.f 17 8 8
  mac := slice p.bytes 0x48 6
  localIp := connIp p 0x50
  peerIp := connIp p 0x60
  group := p.f 2 16 16
  ccOff := ccOffOf p
  noLearn := p.b 32 3
  minRate := minRateOf p
  maxRate := maxRateOf p rate
  aiStep := if p.w 35 = 0 then maxRateOf p rate / 256 else p.w 35
  margin := if p.w 38 = 0 then s.ctx.cfg.margin else p.w 38
  beta := if p.w 39 = 0 then 128 else p.w 39

/-- A connection as it is created, not yet on chip. -/
def freshConn (s : State) (p : Packet) (cfg : ConnCfg) (owner : Option Nat) (rtt rate : Nat) (hostHome : Bool) (homeSlot : Nat) : Conn where
  cfg := cfg
  owner := owner
  key := if p.b 2 3 then some (p.f 5 0 17) else none
  state := 0
  cause := 0
  winBase := p.d 10
  winSize := p.d 12
  wkey := p.w 14
  remoteWrite := p.b 2 10
  remoteRead := p.b 2 11
  una := p.w 15
  nxt := p.w 15
  sendWraps := 0
  recvWraps := 0
  sent := []
  resend := []
  sq := []
  wrSerial := 1
  ssn := 0
  blocks := []
  serves := []
  jobs := []
  jobSerial := 0
  base := p.w 16
  executed := []
  inflight := []
  exec := []
  heldReads := []
  inbox := []
  rq := []
  rqHead := 0
  expect := 0
  msgs := []
  owed := []
  execUnacked := 0
  lastExec := none
  firstUnacked := 0
  probe := false
  probed := false
  srtt := 0
  rttvar := 0
  rto := max 20000 (3 * rtt)
  sampled := false
  backoff := 1
  timeouts := 0
  rnrHold := none
  rnrPsn := 0
  rnrCount := 0
  rate := rate
  baseRtt := rtt
  nextBase := rtt
  samples := 0
  lastAdj := 0
  folded := 0
  credit := ⟨0, now8 s, false⟩
  resident := false
  slot := 0
  pinned := false
  refBit := true
  fetching := false
  noVictim := false
  pinDue := false
  evicting := false
  hostHome := hostHome
  homeSlot := homeSlot
  version := 0
  imageBad := false
  chain := []
  statSent := 0
  statRetx := 0
  statExec := 0
  statDup := 0

/-- A new connection takes a free on-chip slot of its domain's guarantee; a pinned one that finds none is fetched (R279, R281). (DEDUCED, log 64) -/
def placeConn (k : Nat) (pin : Bool) (s : State) : State :=
  match if residentOf s (connDom k) < guarantee s (connDom k) then freeCtxSlot s else none with
  | some i => modConn k (fun c => { c with resident := true, slot := i, pinned := pin }) (drawn1 s)
  | none => if pin then startFetch k (modConn k (fun c => { c with pinDue := true }) s) else s

/-- A connection enters the map of its domain and is placed. -/
def addConn (dom n : Nat) (c : Conn) (pin : Bool) (inherit : Option Nat) (s : State) : State :=
  let k := dom * 2 ^ 24 + n
  let s1 := modCtx (fun x => { x with conns := Tbl.put x.conns k c }) s
  let s2 := match inherit with
    | none => s1
    | some i => count 0x09 0 i 1 s1
  placeConn k pin s2

/-- A rate that stands for the port's where no port starts below the group: the spec gives none. (DEDUCED, log 64) -/
def rateOr (s : State) (r : Option Nat) : Nat := r.getD (1 + freshNat s % 2000000)

/-! CONN_CREATE (R247, R268, R287) -/

/-- PIN, or class 7 (R281). -/
def pinOf (p : Packet) : Bool := p.b 32 0 || p.f 2 0 3 == 7

/-- The pinned quota has no room for one more of a function. -/
def pinFull (s : State) (h : HostId) (f : Fn) : Bool := !quotaAllows s h f 0x23 (pinnedOf s h.val) (pinnedOfFn s (fnKey h f)) 1

/-- Two free queue IDs of a function, freely chosen. -/
def twoIds (s : State) (h : HostId) (f : Fn) : Option (Nat × Nat) :=
  match pickFrom (freshNat s) (queueIds f) fun i => (queue s h f i).isNone with
  | none => none
  | some a => (pickFrom (Config.freeNat (s.drawn + 1)) (queueIds f) fun i => i != a && (queue s h f i).isNone).map fun b => (a, b)

/-- A field that only CONN_CREATE has is out of range. -/
def badOwnFields (s : State) (h : HostId) (f : Fn) (p : Packet) : Bool :=
  2048 ≤ p.f 2 16 16 || p.f 4 0 4 < 6 || p.f 4 4 4 < 6 || p.d 6 % 64 != 0 || p.d 8 % 64 != 0
    || p.d 10 % 4096 != 0 || p.d 12 % 4096 != 0 || 2 ^ 48 < p.d 12 || (p.b 32 1 && (s.ctx.backing[h]).2 == 0)
    || (match queue s h f (p.f 3 16 16) with
      | none => true
      | some q => q.kind != 3)

/-- The home tier of a new connection has no slot for it (R274, R276). -/
def homeFull (s : State) (h : HostId) (p : Packet) : Bool :=
  (freeHome s (p.b 32 1) h.val).isNone || (!p.b 32 1 && limit s h 0x22 ≤ dramHomesOf s h.val)

/-- A connection's queue. -/
def connQ (kind log2 cq base k cls group : Nat) : Queue :=
  { Queue.empty with kind := kind, log2 := log2, cq := cq, base := base, conn := k, cls := cls, group := group }

/-- CONN_CREATE. -/
def connCreateDef : CmdDef where
  opcode := 0x0600
  host := true
  tenant := true
  objs := Obj.isFunc
  len := fun n => n == 24
  checks := fun o p s =>
    let h := hostOf o
    let f := fnOfObj o
    [ (p.b 2 3 && !((slotAt s (p.f 5 0 17)).any fun k => k.owner == some (fnKey h f)), .notPermitted),
      (!netFn s h f || badConnFields p (groupRate s h (p.f 2 16 16)) || badOwnFields s h f p || badNumber s h.val p, .badParam),
      (p.b 2 3 && (usableKey s (p.f 5 0 17) 2 fun _ => true).isNone, .badParam),
      (numberLive s h.val p || (connNumber s h.val p).isNone || !quotaAllows s h f 0x20 (connsOf s h.val) (connsOfFn s (fnKey h f)) 1, .noResource),
      (!quotaAllows s h f 0x10 (queuesOf s h) (queuesOfFn s h f) 2 || 131072 < leavesUsed s + 2 || (twoIds s h f).isNone, .noResource),
      (homeFull s h p || (pinOf p && pinFull s h f), .noResource) ]
  act := fun o p s =>
    let h := hostOf o
    let f := fnOfObj o
    let n := (connNumber s h.val p).getD 0
    let k := h.val * 2 ^ 24 + n
    let ids := (twoIds s h f).getD (0, 0)
    let rate := rateOr s (groupRate s h (p.f 2 16 16))
    let inh := inherited s p rate
    let c := freshConn s p (cfgOf s p rate (p.f 3 16 16) ids.1 ids.2) (some (fnKey h f)) inh.1 inh.2.1 (p.b 32 1) ((freeHome s (p.b 32 1) h.val).getD 0)
    let sq := connQ 4 (p.f 4 0 4) (p.f 3 16 16) (p.d 6) k (p.f 2 0 3) (p.f 2 16 16)
    let rq := connQ 5 (p.f 4 4 4) (p.f 3 16 16) (p.d 8) k 0 0
    let s1 := { s with drawn := s.drawn + 2, queues := Tbl.put (Tbl.put s.queues (qKey h f ids.1) sq) (qKey h f ids.2) rq }
    let s2 := addLeaf h 1 f ids.2 (rxGroup f) (addLeaf h 0 f ids.1 (p.f 2 16 16) s1)
    reply [n + p.f 0 24 8 * 2 ^ 24, ids.1 + ids.2 * 65536] (addConn h.val n c (pinOf p) inh.2.2 s2)

/-! The other connection commands (R262, R269) -/

/-- The domain a connection command acts in: a host's, or storage for the device. -/
def domOf (o : Obj) : Nat := (o.link.map (·.val)).getD 8

/-- The live connection that word 0x00 names, if its generation is current. -/
def namedConn (s : State) (o : Obj) (p : Packet) : Option (Nat × Conn) :=
  let k := domOf o * 2 ^ 24 + p.f 0 0 24
  ((conn s k).filter fun c => c.cfg.gen == p.f 0 24 8).map fun c => (k, c)

/-- A tenant names a connection of another function (R67, R75). (DEDUCED, log 64) -/
def foreignConn (s : State) (o : Obj) (p : Packet) : Bool :=
  p.tenant && (namedConn s o p).any fun e => e.2.owner != some (fnKey (hostOf o) (fnOfObj o))

/-- The checks on the connection named. -/
def connChecks (o : Obj) (p : Packet) (s : State) : List (Bool × Status) :=
  [(foreignConn s o p, .notPermitted), ((namedConn s o p).isNone, .entryAbsent)]

/-- A test of the connection named. -/
def namedIs (s : State) (o : Obj) (p : Packet) (t : Conn → Bool) : Bool := (namedConn s o p).any fun e => t e.2

/-- CONN_MODIFY's effect on a connection that is not in ERROR. -/
def modifyConn (k new : Nat) (p : Packet) (s : State) : State :=
  let s1 := if p.b 1 8 then modConn k (fun c => { c with winBase := p.d 2, winSize := p.d 4, wkey := p.w 6 }) s else s
  match new with
  | 2 => connError k 13 6 (((conn s k).map (·.una)).getD 0) 6 s1
  | 3 => s1
  | n => modConn k (fun c => if c.state = 2 then c else { c with state := n }) s1

/-- CONN_MODIFY (R262, R265, R269). -/
def connModifyDef : CmdDef where
  opcode := 0x0601
  host := true
  tenant := true
  len := fun n => n == 4
  checks := fun o p s =>
    [ (p.f 1 2 6 != 0 || p.f 1 9 23 != 0 || p.w 7 != 0 || (p.b 1 8 && (p.d 2 % 4096 != 0 || p.d 4 % 4096 != 0 || 2 ^ 48 < p.d 4)), .badParam),
      (namedIs s o p (fun c => c.state == 2 && !lostCtx c && p.f 1 0 2 < 2), .badParam),
      (namedIs s o p lostCtx, .contextLost) ] ++ connChecks o p s
  act := fun o p s => reply [] (match namedConn s o p with
    | none => s
    | some (k, _) => modifyConn k (p.f 1 0 2) p s)

/-- CONN_DESTROY (R266, R269). -/
def connDestroyDef : CmdDef where
  opcode := 0x0602
  host := true
  tenant := true
  gate := .destroy
  len := fun n => n == 1
  checks := fun o p s => (p.w 1 != 0, .badParam) :: connChecks o p s
  act := fun o p s => reply [] (match namedConn s o p with
    | none => s
    | some (k, _) => endConn true k s)

/-- The 48 bytes of CONN_QUERY. -/
def connWords (k : Nat) (c : Conn) : List Nat :=
  [ c.state + b2n (c.state == 1 && drained c) * 256 + c.cause * 65536, connNo k + c.cfg.gen * 2 ^ 24, c.una, c.nxt, c.base, c.ssn, c.srtt, c.rto,
    c.statSent, c.statRetx, c.statExec, c.statDup ]

/-- CONN_QUERY (R265, R269); the owner names a host's connection by TARGET, and a storage connection by none. (DEDUCED, log 64) -/
def connQueryDef : CmdDef where
  opcode := 0x0603
  owner := true
  host := true
  tenant := true
  longResult := true
  len := fun n => n == 1
  checks := fun o p s => (p.w 1 != 0, .badParam) :: (namedIs s o p lostCtx, .contextLost) :: connChecks o p s
  act := fun o p s => replyLong (match namedConn s o p with
    | none => []
    | some (k, c) => connWords k c) s

/-! Pins and homes (R277, R281, R282) -/

/-- CTX_PIN (R281). -/
def ctxPinDef : CmdDef where
  opcode := 0x0604
  owner := true
  host := true
  objs := Obj.isHost
  len := fun n => n == 1
  checks := fun o p s =>
    (p.w 1 != 0, .badParam) :: connChecks o p s ++
    [(namedIs s o p (fun c => !c.pinned && !c.pinDue && (match c.owner with
      | none => false
      | some w => pinFull s (ownerFn w).1 (ownerFn w).2)), .noResource)]
  act := fun o p s => reply [] (match namedConn s o p with
    | none => s
    | some (k, c) =>
      if c.resident then modConn k (fun c => { c with pinned := true }) s
      else if lostCtx c then s
      else missFetch k (modConn k (fun c => { c with pinDue := true }) s))

/-- CTX_UNPIN (R281). -/
def ctxUnpinDef : CmdDef where
  opcode := 0x0605
  owner := true
  host := true
  objs := Obj.isHost
  len := fun n => n == 1
  checks := fun o p s =>
    [(p.w 1 != 0 || namedIs s o p (fun c => c.cfg.cls == 7), .badParam)] ++ connChecks o p s
      ++ [(namedIs s o p (fun c => !c.pinned && !c.pinDue), .entryAbsent)]
  act := fun o p s => reply [] (match namedConn s o p with
    | none => s
    | some (k, _) => modConn k (fun c => { c with pinned := false, pinDue := false }) s)

/-- CTX_MIGRATE (R282): the walk itself is in its steps. -/
def ctxMigrateDef : CmdDef where
  opcode := 0x0606
  owner := true
  host := true
  objs := Obj.isHost
  len := fun n => n == 2
  checks := fun o p s =>
    let h := hostOf o
    [ (p.f 0 24 8 != 0 || p.f 1 25 7 != 0 || p.f 2 2 30 != 0 || p.w 3 != 0 || p.f 2 0 2 == 3 || p.w 1 == 0 || 16777215 < p.w 1 || 0xFFFFFF < p.w 0 + p.w 1, .badParam),
      (opLimitReached p s || (p.f 2 0 2 == 1 && limit s h 0x22 ≤ dramHomesOf s h.val) || (p.f 2 0 2 == 2 && (s.ctx.backing[h]).2 == 0), .noResource) ]
  act := fun o p s => startOp 0x0606 p (.ctxMigrate (hostOf o).val (p.w 0) (p.w 1) (p.f 2 0 2)) (ceilDiv (p.w 1) 1024) 0 s

/-- HOST_BACKING_SET (R277). -/
def hostBackingSetDef : CmdDef where
  opcode := 0x0607
  host := true
  objs := Obj.isHost
  len := fun n => n == 2
  checks := fun o p s =>
    [ (p.d 0 % 0x200000 != 0 || p.d 2 % 0x200000 != 0 || 2 ^ 40 < p.d 2, .badParam),
      (s.ctx.conns.any (fun e => connDom e.1 == (hostOf o).val && e.2.hostHome), .busy) ]
  act := fun o p s => reply [] (modCtx (fun x => { x with backing := vset x.backing (hostOf o) (p.d 0, p.d 2) }) s)

/-! The path table (R290, R291) -/

/-- The prefix a path command carries. -/
def cmdPrefix (p : Packet) : List Byte := pathPrefix (p.b 0 0) (slice p.bytes 0x10 16)
/-- Bits beyond the /24 or /64. -/
def prefixTail (p : Packet) : Bool := (slice p.bytes 0x10 16).drop (if p.b 0 0 then 8 else 3) |>.any (· != 0)
/-- The command deletes its entry. -/
def pathDeletes (p : Packet) : Bool := p.w 1 == 0 && p.w 2 == 0

/-- PATH_WRITE (R291). (DEDUCED, log 64) -/
def pathWriteDef : CmdDef where
  opcode := 0x0608
  owner := true
  objs := Obj.isDevice
  len := fun n => n == 4
  checks := fun _ p s =>
    let found := pathFind s (p.b 0 0) (cmdPrefix p)
    [ (p.f 0 1 31 != 0 || p.f 2 21 11 != 0 || p.w 3 != 0 || prefixTail p || 2000000 < p.w 2 || (!pathDeletes p && (p.w 1 < 1000 || 1000000 < p.w 1)), .badParam),
      (pathDeletes p && found.isNone, .entryAbsent),
      (!pathDeletes p && found.isNone && (pathPlace s (pathSet s (p.b 0 0) (cmdPrefix p))).isNone, .noResource) ]
  act := fun _ p s =>
    let e : PathEntry := { lock := true, v6 := p.b 0 0, samples := 0, baseRtt := p.w 1, initRate := p.w 2, prefix_ := cmdPrefix p }
    reply [] (match pathFind s (p.b 0 0) (cmdPrefix p), pathPlace s (pathSet s (p.b 0 0) (cmdPrefix p)) with
      | some (i, old), _ => if pathDeletes p then modCtx (fun x => { x with paths := Tbl.del x.paths i }) s else pathPut i { e with samples := old.samples } s
      | none, some i => pathPut i e s
      | none, none => s)

/-- An entry's 64 bytes (R290). -/
def pathWords (e : PathEntry) : List Nat :=
  let b := e.prefix_ ++ List.replicate (16 - e.prefix_.length) 0
  [2 ^ 31 + b2n e.lock * 2 ^ 30 + b2n e.v6 * 2 ^ 29 + e.samples, e.baseRtt, e.initRate, 0,
    leNat (slice b 0 4), leNat (slice b 4 4), leNat (slice b 8 4), leNat (slice b 12 4), 0, 0, 0, 0, 0, 0, 0, 0]

/-- PATH_READ (R291). -/
def pathReadDef : CmdDef where
  opcode := 0x0609
  owner := true
  objs := Obj.isDevice
  longResult := true
  len := fun n => n == 4
  checks := fun _ p s =>
    [ (p.f 0 1 31 != 0 || p.w 1 != 0 || p.w 2 != 0 || p.w 3 != 0 || prefixTail p, .badParam),
      ((pathFind s (p.b 0 0) (cmdPrefix p)).isNone, .entryAbsent) ]
  act := fun _ p s => replyLong (((pathFind s (p.b 0 0) (cmdPrefix p)).map fun e => pathWords e.2).getD []) s

/-! XPORT_CONFIG (R270, R294) -/

/-- A field given as 0 keeps its value. -/
def keep0 (v old : Nat) : Nat := if v = 0 then old else v

/-- XPORT_CONFIG. -/
def xportConfigDef : CmdDef where
  opcode := 0x060A
  owner := true
  objs := Obj.isDevice
  len := fun n => n == 4
  checks := fun _ p _ =>
    [ (p.f 0 16 16 != 0 || p.f 2 4 4 != 0 || p.f 2 12 4 != 0 || p.f 3 24 8 != 0 || p.f 6 8 24 != 0, .badParam),
      (outside (p.w 1) 1000 1000000 || outside (p.f 3 0 16) 100 65535 || outside (p.f 3 16 8) 1 64 || outside (p.w 4) 500 1000000
        || outside (p.w 5) 1000 1000000 || outside (p.f 6 0 8) 1 64 || outside (p.w 7) 1 100000, .badParam) ]
  act := fun _ p s => reply [] (modCtx (fun x =>
    let c := x.cfg
    { x with cfg :=
      { udpPort := keep0 (p.f 0 0 16) c.udpPort, rtoMax := keep0 (p.w 1) c.rtoMax
        retryLimit := keep0 (p.f 2 0 4) c.retryLimit, rnrRetry := keep0 (p.f 2 8 4) c.rnrRetry, rnrTimer := keep0 (p.f 2 16 16) c.rnrTimer
        ackDelay := keep0 (p.f 3 0 16) c.ackDelay, ackEvery := keep0 (p.f 3 16 8) c.ackEvery
        margin := keep0 (p.w 4) c.margin, defaultRtt := keep0 (p.w 5) c.defaultRtt, initDiv := keep0 (p.f 6 0 8) c.initDiv, nakLimit := keep0 (p.w 7) c.nakLimit } }) s)

/-- CONN_CREATE. -/
def execConnCreate (p : Packet) (s : State) : Host.Outcome State Fault Refusal := .next (runCmd connCreateDef (.connCreate p) p s)
/-- CONN_MODIFY. -/
def execConnModify (p : Packet) (s : State) : Host.Outcome State Fault Refusal := .next (runCmd connModifyDef (.connModify p) p s)
/-- CONN_DESTROY. -/
def execConnDestroy (p : Packet) (s : State) : Host.Outcome State Fault Refusal := .next (runCmd connDestroyDef (.connDestroy p) p s)
/-- CONN_QUERY. -/
def execConnQuery (p : Packet) (s : State) : Host.Outcome State Fault Refusal := .next (runCmd connQueryDef (.connQuery p) p s)
/-- CTX_PIN. -/
def execCtxPin (p : Packet) (s : State) : Host.Outcome State Fault Refusal := .next (runCmd ctxPinDef (.ctxPin p) p s)
/-- CTX_UNPIN. -/
def execCtxUnpin (p : Packet) (s : State) : Host.Outcome State Fault Refusal := .next (runCmd ctxUnpinDef (.ctxUnpin p) p s)
/-- CTX_MIGRATE. -/
def execCtxMigrate (p : Packet) (s : State) : Host.Outcome State Fault Refusal := .next (runCmd ctxMigrateDef (.ctxMigrate p) p s)
/-- HOST_BACKING_SET. -/
def execHostBackingSet (p : Packet) (s : State) : Host.Outcome State Fault Refusal := .next (runCmd hostBackingSetDef (.hostBackingSet p) p s)
/-- PATH_WRITE. -/
def execPathWrite (p : Packet) (s : State) : Host.Outcome State Fault Refusal := .next (runCmd pathWriteDef (.pathWrite p) p s)
/-- PATH_READ. -/
def execPathRead (p : Packet) (s : State) : Host.Outcome State Fault Refusal := .next (runCmd pathReadDef (.pathRead p) p s)
/-- XPORT_CONFIG. -/
def execXportConfig (p : Packet) (s : State) : Host.Outcome State Fault Refusal := .next (runCmd xportConfigDef (.xportConfig p) p s)

/-! A step of CTX_MIGRATE (R282) -/

/-- What one connection of the range met: moved, skipped, lost, no slot, or to be handled later. -/
inductive Moved where
  | moved | skipped | lost | noSlot | later
deriving DecidableEq, Repr

/-- One connection of a host handled. -/
def migrateOne (h : HostId) (tier k : Nat) (s : State) : Moved × State :=
  match conn s k with
  | none => (.skipped, s)
  | some c =>
    if lostCtx c then (.skipped, s)
    else if tier = 0 then
      if c.resident then (.skipped, s)
      else if c.fetching || c.evicting then (.later, s)
      else match reserveSlot (connDom k) s with
        | none => (.skipped, s)
        | some (i, s1) => (.moved, issueFetch k c (modConn k (fun c => { c with fetching := true, noVictim := false, slot := i }) s1))
    else if c.hostHome = (tier = 2) then (.skipped, s)
    else if c.fetching || c.evicting then (.later, s)
    else if tier = 1 && limit s h 0x22 ≤ dramHomesOf s h.val then (.noSlot, s)
    else match freeHome s (tier == 2) h.val with
      | none => (.noSlot, s)
      | some i =>
        if !c.resident && c.imageBad then (.lost, contextLost k s)
        else (.moved, modConn k (fun c => { c with hostHome := tier == 2, homeSlot := i }) (drawn1 s))

end Sys2Proof.Machine
end

