-- ==== Sys2Proof/Machine/Nvme.lean ====
section
/-! DEFINITION. Nvme.lean: NVMe controllers and their queues: completions, interrupts, asynchronous events, submission arbitration, namespaces and the storage events (R297 to R299, R301, R306, R307, R309, R318, R328). -/

namespace Sys2Proof

/-- Dword i of a submission entry. -/
def Sqe.w (e : Sqe) (i : Nat) : Nat := (e.words.getD i 0).toNat
/-- OPC. -/
def Sqe.op (e : Sqe) : Nat := e.w 0 % 256
/-- CID. -/
def Sqe.cid (e : Sqe) : Nat := e.w 0 / 65536
/-- NSID. -/
def Sqe.nsid (e : Sqe) : Nat := e.w 1
/-- PRP1. -/
def Sqe.prp1 (e : Sqe) : Nat := e.w 6 + e.w 7 * 2 ^ 32
/-- PRP2. -/
def Sqe.prp2 (e : Sqe) : Nat := e.w 8 + e.w 9 * 2 ^ 32

end Sys2Proof

namespace Sys2Proof.Machine
open Sys2Proof

/-- The NVME block changed. -/
def modNvme (f : Nvme → Nvme) (s : State) : State := { s with nvme := f s.nvme }
/-- A controller by function key. -/
def ctrl (s : State) (k : Nat) : Ctrl := Tbl.getD s.nvme.ctrls k Ctrl.reset
/-- A controller changed. -/
def modCtrl (k : Nat) (f : Ctrl → Ctrl) (s : State) : State := modNvme (fun n => { n with ctrls := Tbl.put n.ctrls k (f (ctrl s k)) }) s
/-- A counter of NVME. -/
def countN (i k : Nat) (s : State) : State := count 0x0A 0 i k s
/-- A counter of the host of a controller. -/
def countHost (k i n : Nat) (s : State) : State := countN (32 * (hostOfKey k).val + i) n s
/-- The host link and function of a controller. -/
def ctrlFn (k : Nat) : HostId × Fn := (hostOfKey k, fnOfIndex (k % 1024))
/-- Bytes of a cache segment, of the backing unit and of the scratch span (R303, R310). -/
def unitBytes : Nat := 131072

/-! Interrupts and completions (R299) -/

/-- PF1's INTA request: a CQ with IEN holds an unconsumed entry and its IV is not masked (R299). -/
def pf1Wants (s : State) (h : HostId) : Bool :=
  let c := ctrl s (fnKey h .pf1)
  c.cqs.any fun e => e.2.ien && e.2.head != e.2.tail && !bitAt c.mask (e.2.iv % 32)

/-- PF1's INTA request brought up to date. -/
def refreshPf1 (h : HostId) (s : State) : State := refreshInta h (modLink h (fun l => { l with pf1Int := pf1Wants s h }) s)

/-- A CQ signals: its vector, or INTA. (DEDUCED, log 66) -/
def nvmeSignal (k : Nat) (q : NvmeCq) (s : State) : State :=
  let (h, f) := ctrlFn k
  let s1 := if q.ien then signalVector h f q.iv s else s
  if f = .pf1 then refreshPf1 h s1 else s1

/-- The CQ is full. -/
def nvmeCqFull (q : NvmeCq) : Bool := (q.tail + 1) % q.size == q.head

/-- An entry enters a CQ: submission queue and its head, command, result and status. -/
def putNvmeCqe (k cq : Nat) (q : NvmeCq) (sq cid dw0 st : Nat) (s : State) : State :=
  let (h, f) := ctrlFn k
  let head := (((Tbl.find (ctrl s k).sqs sq).map (·.head)).getD 0)
  let q1 := { q with tail := (q.tail + 1) % q.size, phase := if (q.tail + 1) % q.size = 0 then !q.phase else q.phase }
  nvmeSignal k q1 (emit (.nvmeCqe h f cq sq cid head dw0 st q.phase) (modCtrl k (fun c => { c with cqs := Tbl.put c.cqs cq q1 }) s))

/-- An entry is written, or waits for room. -/
def postCqe (k cq sq cid dw0 st : Nat) (s : State) : State :=
  match Tbl.find (ctrl s k).cqs cq with
  | none => s
  | some q =>
    if nvmeCqFull q || !q.late.isEmpty then modCtrl k (fun c => { c with cqs := Tbl.put c.cqs cq { q with late := q.late ++ [(sq, cid, dw0, st)] } }) s
    else putNvmeCqe k cq q sq cid dw0 st s

/-- Entries that waited are written while there is room. -/
def drainNvmeCq (k cq : Nat) : (fuel : Nat) → State → State
  | 0, s => s
  | n + 1, s => match Tbl.find (ctrl s k).cqs cq with
    | none => s
    | some q => match q.late with
      | [] => s
      | (sq, cid, dw0, st) :: r =>
        if nvmeCqFull q then s else drainNvmeCq k cq n (putNvmeCqe k cq { q with late := r } sq cid dw0 st s)

/-- A command completes (R318): an error is counted and logged, with the block concerned. (DEDUCED, log 66) -/
def completeAt (k sq cid dw0 st lba nsid : Nat) (s : State) : State :=
  let s1 := if st = 0 then s
    else countHost k 9 1 (modCtrl k (fun c => { c with errorCount := c.errorCount + 1, errors := ([c.errorCount + 1, sq, cid, st, lba, nsid] :: c.errors).take 64 }) s)
  match Tbl.find (ctrl s k).sqs sq with
  | none => s1
  | some q => postCqe k q.cq sq cid dw0 st s1

/-- A command completes with a status and no block. -/
def complete (k sq cid dw0 st : Nat) (s : State) : State := completeAt k sq cid dw0 st 0 0 s

/-! Pages of a transfer -/

/-- The first page holds this many bytes of a transfer. -/
def firstPage (a : Nat) : Nat := 4096 - a % 4096
/-- The pages a command's data lies in, for a length. -/
def prpPages (e : Sqe) (len : Nat) : List Nat :=
  if len ≤ firstPage e.prp1 then [e.prp1]
  else if len ≤ firstPage e.prp1 + 4096 then [e.prp1, e.prp2]
  else e.prp1 :: e.prpList.map (·.toNat)
/-- A PRP that is not on a page boundary, or not on a double word for the first. -/
def badPrp (e : Sqe) (len : Nat) : Bool := e.prp1 % 4 != 0 || ((prpPages e len).drop 1).any fun a => a % 4096 != 0

/-- Bytes written to pages. -/
def writePages (h : HostId) (f : Fn) : List Nat → List Byte → State → State
  | [], _, s => s
  | a :: r, bs, s => if bs.isEmpty then s else writePages h f r (bs.drop (firstPage a)) (emit (.hostWrite h f a (bs.take (firstPage a))) s)

/-! Asynchronous events (R297, R306) -/

/-- The event type of a result word. -/
def aerType (dw0 : Nat) : Nat := dw0 % 8

/-- Events are reported while an Asynchronous Event Request is outstanding and their type is not waiting for its log page. -/
def reportAers (k : Nat) : (fuel : Nat) → State → State
  | 0, s => s
  | n + 1, s =>
    let c := ctrl s k
    match c.cmds.find? (fun x => x.phase == .event), c.events.find? (fun e => !c.aerMasked.contains (aerType e)) with
    | some x, some e =>
      reportAers k n (complete k x.sq x.cid e 0 (modCtrl k (fun c => { c with
        cmds := c.cmds.filter fun y => !(y.phase == .event && y.sq == x.sq && y.cid == x.cid)
        events := c.events.erase e, aerMasked := insertNat c.aerMasked (aerType e) }) s))
    | _, _ => s

/-- The Asynchronous Event Configuration in force: its value at reset enables the two notices of R297. (PRESUMED, log 65) -/
def aerConfig (c : Ctrl) : Nat := Tbl.getD c.features 0x0B 0x102

/-- An event of a controller. -/
def raiseAer (k dw0 bit : Nat) (s : State) : State :=
  if !(ctrl s k).ready || !bitAt (aerConfig (ctrl s k)) bit then s
  else reportAers k 2 (modCtrl k (fun c => { c with events := insertNat c.events dw0 }) s)

/-! Namespaces (R302 to R308) -/

/-- A namespace. -/
def nspace (s : State) (n : Nat) : Option Namespace := Tbl.find s.nvme.namespaces n
/-- A namespace changed. -/
def modNs (n : Nat) (f : Namespace → Namespace) (s : State) : State := modNvme (fun x => { x with namespaces := Tbl.modify x.namespaces n f }) s
/-- The namespace at an NSID of a controller. -/
def nsAt (s : State) (k nsid : Nat) : Option (Nat × Namespace) := Tbl.search s.nvme.namespaces fun _ x => x.attached == some (k, nsid)
/-- The NSIDs of a controller in ascending order. -/
def nsidsOf (s : State) (k : Nat) : List Nat :=
  sortBy (fun a b => decide (a ≤ b)) (s.nvme.namespaces.filterMap fun e => match e.2.attached with
    | some (c, i) => if c = k then some i else none
    | none => none)
/-- Namespaces a controller may hold. -/
def nnOf : Fn → Nat
  | .pf1 => 256
  | _ => 16
/-- Blocks of a unit. -/
def unitBlocks (x : Namespace) : Nat := unitBytes / x.block
/-- The extent that holds a unit. -/
def extentAt : List Extent → (unit : Nat) → Option (Extent × Nat)
  | [], _ => none
  | e :: r, u => if u < e.units then some (e, u) else extentAt r (u - e.units)
/-- The extent of a unit of a namespace, and the unit's place in it. -/
def extentOf (x : Namespace) (unit : Nat) : Option (Extent × Nat) := extentAt x.extents unit
/-- The units a range of blocks touches. -/
def unitsOf (x : Namespace) (slba blocks : Nat) : List Nat :=
  let a := slba / unitBlocks x
  upFrom a (if blocks = 0 then 0 else (slba + blocks - 1) / unitBlocks x - a + 1)
/-- Some unit of a range lies on an absent extent. -/
def absentIn (x : Namespace) (slba blocks : Nat) : Bool :=
  (unitsOf x slba blocks).any fun u => match extentOf x u with
    | none => true
    | some (e, _) => e.absent

/-- A drive. -/
def drive (s : State) (d : Nat) : Drive := s.nvme.drives[(⟨d % 16, Nat.mod_lt _ (by decide)⟩ : Fin 16)]
/-- A drive changed. -/
def modDrive (d : Nat) (f : Drive → Drive) (s : State) : State :=
  modNvme (fun n => { n with drives := vmod n.drives ⟨d % 16, Nat.mod_lt _ (by decide)⟩ f }) s
/-- A drive's namespace. -/
def driveNs (s : State) (d nsid : Nat) : Option DriveNs := (drive s d).identity.bind fun i => i.namespaces.find? fun x => x.nsid = nsid
/-- The block size of an extent's backing: the drive's, or the namespace's own for a remote target, which reports none. -/
def backingBlock (s : State) (x : Namespace) (e : Extent) : Nat :=
  if e.remote then x.block else ((driveNs s e.place e.nsid).map (·.blockSize)).getD x.block

/-- The greatest power of two at most a number. -/
def floorPow2 (n : Nat) : Nat := if n = 0 then 0 else 2 ^ Nat.log2 n

/-- What an extent allows of the atomic unit, in bytes (R307). -/
def extentAtomic (s : State) (x : Namespace) (e : Extent) : Nat :=
  if e.remote then
    let a := ((Tbl.find s.nvme.targets e.place).map (·.atomic)).getD 0
    if a = 0 then x.block else a
  else match driveNs s e.place e.nsid, (drive s e.place).identity with
    | some n, some i =>
      let unit := floorPow2 (((n.nawupf.getD i.awupf) + 1) * n.blockSize)
      match n.nabspf with
      | none => unit
      | some b => if b = 0 ∨ (b + 1) * n.blockSize % unitBytes = 0 then unit else min unit ((b + 1) * n.blockSize)
    | _, _ => x.atomic

/-- U (R307). -/
def atomicUnit (s : State) (x : Namespace) : Nat := max x.block (x.extents.foldl (fun u e => min u (extentAtomic s x e)) unitBytes)

/-- The host channel's and the owner's NAMESPACE_CHANGED (R306, R328): number, change, and the controller concerned. -/
def raiseNsChanged (n change : Nat) (who : Option (Nat × Nat)) (host u : Nat) (s : State) : State :=
  let (target, nsid) := match who with
    | none => (0, 0)
    | some (k, i) => (targetOf (ctrlFn k).1 (ctrlFn k).2, i)
  let pay := [n + change * 65536, target, nsid, u]
  raiseRing (hostChan (hostIx host)) 0x41 (source 0x12 host) 0 pay (raiseOwner 0x41 (source 0x12 host) 0 pay s)

/-- A change of a namespace (R306): the controller it is or was attached to sees the Namespace Attribute Changed event. -/
def nsChanged (n change : Nat) (who : Option (Nat × Nat)) (s : State) : State :=
  match nspace s n with
  | none => s
  | some x =>
    let s1 := match who with
      | none => s
      | some (k, i) => raiseAer k 0x040002 8 (modCtrl k (fun c => { c with changed := insertNat c.changed i }) s)
    raiseNsChanged n change who x.host x.atomic s1

/-- The same for a namespace where it now is. -/
def nsChangedHere (n change : Nat) (s : State) : State := nsChanged n change ((nspace s n).bind (·.attached)) s

/-- U recomputed; a change to an attached namespace is reported (R307). -/
def refreshAtomic (n : Nat) (s : State) : State :=
  match nspace s n with
  | none => s
  | some x =>
    let u := atomicUnit s x
    let s1 := modNs n (fun x => { x with atomic := u }) s
    if u ≠ x.atomic ∧ x.attached.isSome then nsChangedHere n 3 s1 else s1

/-- Namespaces with an extent that a test accepts. -/
def nsWith (s : State) (p : Extent → Bool) : List Nat := (s.nvme.namespaces.filter fun e => e.2.extents.any p).map (·.1)

/-- The key of a namespace, if its slot is usable (R302, R333). -/
def nsKey (s : State) (x : Namespace) : Option (List Byte) := x.key.bind fun n => (usableKey s n 3 fun o => o.isNone).map (·.material)

/-- Bytes a drive's extents hold dirty as held or FAILED (R328). -/
def heldBytes (s : State) (p : Extent → Bool) : Nat :=
  s.nvme.segs.foldl (fun n g => match nspace s g.ns with
    | none => n
    | some x => match extentOf x g.unit with
      | none => n
      | some (e, _) => if p e && (g.held || g.failed) then n + g.blocks.length * x.block else n) 0

/-- An extent lies on a drive. -/
def onDrive (d : Nat) (e : Extent) : Bool := !e.remote && e.place == d
/-- An extent lies on a remote target. -/
def onTarget (t : Nat) (e : Extent) : Bool := e.remote && e.place == t

/-- DRIVE_STATE (R328). -/
def raiseDriveState (d new old cause : Nat) (s : State) : State :=
  let v := drive s d
  raiseOwner 0x40 (source 0x11 d) 0
    ([d + new * 256 + old * 4096 + cause * 65536 + v.width * 2 ^ 24, v.speed] ++ words64 (heldBytes s (onDrive d)) ++ [(nsWith s (onDrive d)).length]) s

/-! Submission arbitration (R309) -/

/-- Entries of an SQ wait. -/
def sqWaits (q : NvmeSq) : Bool := q.head != q.tail
/-- A controller fetches: ready, no fatal status, no shutdown, and its function may read. -/
def ctrlRuns (s : State) (k : Nat) : Bool :=
  let c := ctrl s k
  c.ready && !c.fatal && c.shst == 0 && canIssue s (ctrlFn k).1 (ctrlFn k).2 && workRuns s
/-- A controller has a fetchable entry. -/
def fetchable (s : State) (k : Nat) : Bool := ctrlRuns s k && (ctrl s k).sqs.any fun e => sqWaits e.2
/-- A write of a host waits for cache space: the host is not selected. (DEDUCED, log 66) -/
def hostBlocked (s : State) (h : Nat) : Bool := s.nvme.ctrls.any fun e => (hostOfKey e.1).val == h && e.2.cmds.any fun c => c.phase == .space
/-- Controllers of a host that have a fetchable entry. -/
def hostCtrls (s : State) (h : Nat) : List Nat := (s.nvme.ctrls.map (·.1)).filter fun k => (hostOfKey k).val == h && fetchable s k
/-- A host may be served. -/
def hostReady (s : State) (h : Nat) : Bool := !hostBlocked s h && !(hostCtrls s h).isEmpty

/-- The element after a cursor in ring order. -/
def nextAfter (cursor : Nat) (l : List Nat) : Option Nat :=
  match l.find? fun x => cursor < x with
  | some x => some x
  | none => l.head?

/-- Arbitration Burst in commands. -/
def burstOf (c : Ctrl) : Nat := 2 ^ (Tbl.getD c.features 0x01 0 % 8)
/-- Weighted round robin is selected: CC.AMS. -/
def weighted (c : Ctrl) : Bool := bitsAt c.cc 11 3 == 1
/-- The class of an SQ under weighted round robin: 0 urgent and admin, 1 high, 2 medium, 3 low. -/
def sqClass (sq : Nat) (q : NvmeSq) : Nat := if sq = 0 then 0 else q.prio
/-- HPW, MPW and LPW, as weights. -/
def classWeights (c : Ctrl) : List Nat :=
  let v := Tbl.getD c.features 0x01 0
  [bitsAt v 24 8 + 1, bitsAt v 16 8 + 1, bitsAt v 8 8 + 1]

/-- The SQ whose burst comes next, and the controller with its turn noted (R309 stage 1). -/
def nextSq (c : Ctrl) : Option (Nat × Ctrl) :=
  let waiting := c.sqs.filter fun e => sqWaits e.2
  let of (cls : Nat) : List Nat := (waiting.filter fun e => !weighted c || sqClass e.1 e.2 == cls).map (·.1)
  let go (cls : Nat) (credits : List Nat) : Option (Nat × Ctrl) :=
    (nextAfter (c.arbCursors.getD cls 0) (of cls)).map fun q => (q, { c with arbSq := q, arbLeft := burstOf c, arbCursors := c.arbCursors.set cls q, arbCredits := credits })
  if !weighted c || !(of 0).isEmpty then go 0 c.arbCredits
  else
    let present := [1, 2, 3].filter fun cls => !(of cls).isEmpty
    let credits := if present.any fun cls => c.arbCredits.getD (cls - 1) 0 != 0 then c.arbCredits else classWeights c
    match present.find? fun cls => credits.getD (cls - 1) 0 != 0 with
    | none => none
    | some cls => go cls (credits.set (cls - 1) (credits.getD (cls - 1) 0 - 1))

/-- The controller's burst goes on. -/
def inBurst (c : Ctrl) : Bool := c.arbLeft != 0 && (Tbl.find c.sqs c.arbSq).any sqWaits

/-- Within a host: the controller whose burst goes on, or the next one in turn (R309 stage 2). -/
def nextCtrl (s : State) (h : HostId) : Option (Nat × Ctrl) :=
  let l := hostCtrls s h.val
  let cur := s.nvme.arbCtrl[h]
  if l.contains cur && inBurst (ctrl s cur) then some (cur, ctrl s cur)
  else (nextAfter cur l).bind fun k => (nextSq (ctrl s k)).map fun r => (k, r.2)

/-- The storage weight of a host (R233, direction 2). -/
def storageWeight (s : State) (h : Nat) : Nat := (s.sched.share.top.weights[2]).getD h 0
/-- Turns a host needs before its deficit is positive; a cost is paid after service. (DEDUCED, log 60) -/
def turnsFor (s : State) (h : HostId) : Nat :=
  let d := s.nvme.deficits[h]
  if 0 < d then 0 else (-d).toNat / (512 * storageWeight s h.val) + 1

/-- Across hosts: deficit round robin, weight 0 only where nobody else waits (R309 stage 3). -/
def nextHost (s : State) : Option (HostId × Vector Int 8) :=
  let waiting := (List.finRange 8).filter fun h => hostReady s h.val
  let paying := waiting.filter fun h => storageWeight s h.val != 0
  let cur := s.nvme.arbHost
  if paying.isEmpty then
    (nextAfter cur (waiting.map (·.val))).map fun h => (hostIx h, s.nvme.deficits)
  else
    let clear : Vector Int 8 := Vector.ofFn fun h => if paying.contains h then s.nvme.deficits[h] else 0
    let ring := (paying.filter fun h => cur < h.val) ++ (paying.filter fun h => h.val ≤ cur)
    if paying.any (fun h => h.val == cur && 0 < s.nvme.deficits[h]) then some (hostIx cur, clear)
    else match ring.foldl (fun (b : Option (Nat × HostId)) h => match b with
        | none => some (turnsFor s h, h)
        | some (r, w) => if turnsFor s h < r then some (turnsFor s h, h) else some (r, w)) none with
      | none => none
      | some (r, win) =>
        let before := ring.takeWhile fun h => h != win
        let gain (h : HostId) : Nat := if h = win || before.contains h then r else if ring.contains h then r - 1 else 0
        some (win, Vector.ofFn fun h => clear[h] + ((gain h * 512 * storageWeight s h.val : Nat) : Int))

/-- The submission entry selected next: its controller, and the state with the choice noted. -/
def selectSqe (s : State) : Option (Nat × State) :=
  match nextHost s with
  | none => none
  | some (h, defs) => match nextCtrl s h with
    | none => none
    | some (k, c) => some (k, modCtrl k (fun _ => { c with arbLeft := c.arbLeft - 1 })
        (modNvme (fun n => { n with deficits := defs, arbHost := h.val, arbCtrl := vset n.arbCtrl h k }) s))

/-- A command's cost is charged to its host. -/
def chargeHost (k bytes : Nat) (s : State) : State :=
  modNvme (fun n => { n with deficits := vmod n.deficits (hostOfKey k) fun d => d - ((max 4096 bytes : Nat) : Int) }) s

/-- A controller stops with CSTS.CFS (R317). -/
def ctrlFatal (k : Nat) (s : State) : State := modCtrl k (fun c => { c with fatal := true }) s

/-- A submission entry is fetched, if it is the one arbitration selects and the command is this row's (R309); a failed fetch is fatal to the controller. (DEDUCED, log 66) -/
def withSqe (h : HostId) (f : Fn) (e : Sqe) (mine : Bool) (cost : Nat → State → Nat) (act : Nat → State → State) (s : State) : Host.Outcome State Fault Refusal :=
  let k := fnKey h f
  .next (if !mine then s
    else match selectSqe s with
    | none => s
    | some (k', s1) =>
      if k' ≠ k ∨ (ctrl s1 k).arbSq ≠ e.sq.toNat then s
      else
        let s2 := modCtrl k (fun c => { c with sqs := Tbl.modify c.sqs e.sq.toNat fun q => { q with head := (q.head + 1) % q.size } }) s1
        if !e.fetchOk then ctrlFatal k s2
        else if e.w 0 / 256 % 4 ≠ 0 ∨ e.w 0 / 16384 % 4 ≠ 0 then complete k e.sq.toNat e.cid 0 0x02 (chargeHost k 0 s2)
        else act k (chargeHost k (cost k s2) s2))

end Sys2Proof.Machine
end

