-- ==== Sys2Proof/Machine/Cache.lean ====
section
/-! DEFINITION. Cache.lean: the write cache, destage, reads and flushes, and the commands that go to drives and remote targets (R308, R310 to R315, R318, R324, R349). -/

namespace Sys2Proof.Machine
open Sys2Proof

/-! Segments (R310, R311) -/

/-- Segments of one unit of a namespace, newest first. -/
def segsOf (s : State) (n unit : Nat) : List Segment := (s.nvme.segs.filter fun g => g.ns == n && g.unit == unit).reverse
/-- A segment. -/
def segAt (s : State) (id : Nat) : Option Segment := s.nvme.segs.find? fun g => g.id = id
/-- A segment changed. -/
def modSeg (id : Nat) (f : Segment → Segment) (s : State) : State := modNvme (fun n => { n with segs := n.segs.map fun g => if g.id = id then f g else g }) s
/-- A segment freed. -/
def freeSeg (id : Nat) (s : State) : State := modNvme (fun n => { n with segs := n.segs.filter fun g => g.id != id }) s
/-- Open to new writes. -/
def segOpen (g : Segment) : Bool := !g.frozen && !g.failed && !g.held
/-- The segment of a unit that is open to new writes. -/
def openSeg (s : State) (n unit : Nat) : Option Segment := (segsOf s n unit).find? segOpen
/-- Segments a write still needs. -/
def segsNeeded (s : State) (n : Nat) (units : List Nat) : Nat := (units.filter fun u => (openSeg s n u).isNone).length
/-- Segments charged to a host. -/
def segsOfHost (s : State) (h : Nat) : Nat := (s.nvme.segs.filter fun g => g.host == h).length
/-- The host's quota and the cache have room. -/
def segRoom (s : State) (h : HostId) (need : Nat) : Bool := segsOfHost s h.val + need ≤ limit s h 0x31 && s.nvme.segs.length + need ≤ cacheSegments s
/-- A new, empty segment. -/
def newSeg (n unit host : Nat) (s : State) : State :=
  modNvme (fun x => { x with
    segSerial := x.segSerial + 1
    segs := x.segs ++ [{ id := x.segSerial, ns := n, unit := unit, host := host, blocks := [], frozen := false, fua := false, failed := false, held := false, retried := false, retryDue := false }] }) s
/-- The unit has a segment open to new writes. -/
def needSeg (n host : Nat) (s : State) (unit : Nat) : State := if (openSeg s n unit).isSome then s else newSeg n unit host s
/-- A unit is claimed by a write whose data is being read. -/
def unitClaimed (s : State) (n unit : Nat) : Bool :=
  s.nvme.ctrls.any fun e => e.2.cmds.any fun c => c.phase == .data && c.ns == n && (match nspace s n with
    | none => false
    | some x => (unitsOf x c.slba c.blocks).contains unit)
/-- Empty segments that no write claims any more are given back. -/
def dropEmptySegs (s : State) : State :=
  modNvme (fun n => { n with segs := n.segs.filter fun g => !(g.blocks.isEmpty && segOpen g && !unitClaimed s g.ns g.unit) }) s
/-- The newest cache copy of a block (R313). -/
def cachedBlock (s : State) (n : Nat) (x : Namespace) (lba : Nat) : Option (List Byte) :=
  (segsOf s n (lba / unitBlocks x)).findSome? fun g => Tbl.find g.blocks lba
/-- The segment's unit lies on an absent extent. -/
def segAbsent (s : State) (g : Segment) : Bool :=
  match nspace s g.ns with
  | none => true
  | some x => match extentOf x g.unit with
    | none => true
    | some (e, _) => e.absent

/-! Commands of controllers -/

/-- An outstanding command. -/
def cmdAt (s : State) (k sq cid : Nat) : Option NvmeCmd := (ctrl s k).cmds.find? fun c => c.sq = sq ∧ c.cid = cid
/-- A command changed. -/
def modCmd (k sq cid : Nat) (f : NvmeCmd → NvmeCmd) (s : State) : State :=
  modCtrl k (fun c => { c with cmds := c.cmds.map fun x => if x.sq = sq ∧ x.cid = cid then f x else x }) s
/-- A command removed. -/
def dropCmd (k sq cid : Nat) (s : State) : State := modCtrl k (fun c => { c with cmds := c.cmds.filter fun x => !(x.sq == sq && x.cid == cid) }) s
/-- A command added. -/
def addCmd (k : Nat) (x : NvmeCmd) (s : State) : State := modCtrl k (fun c => { c with cmds := c.cmds ++ [x] }) s
/-- A command ends with a status. -/
def endCmd (k : Nat) (x : NvmeCmd) (st : Nat) (s : State) : State :=
  completeAt k x.sq x.cid 0 st x.slba (((nspace s x.ns).bind fun y => y.attached.map (·.2)).getD 0) (dropCmd k x.sq x.cid s)

/-! Commands to drives -/

/-- A command goes to a drive: its kind, what it serves, and the NVMe opcode, namespace and blocks. -/
def driveSend (d kind seg ctl sq cmd op nsid slba blocks : Nat) (s : State) : State :=
  let cid := (drive s d).nextCid
  countN (0x100 + 16 * d) 1 (emit (.driveCmd d cid op nsid slba blocks) (modDrive d (fun v => { v with
    nextCid := (v.nextCid + 1) % 65536
    cmds := v.cmds ++ [{ cid := cid, kind := kind, seg := seg, ctrl := ctl, sq := sq, cmd := cmd, aborted := false }] }) s))
/-- A drive command is over. -/
def dropDriveCmd (d cid : Nat) (s : State) : State := modDrive d (fun v => { v with cmds := v.cmds.filter fun c => c.cid != cid }) s

/-- Where a block of a unit stands on its backing, in the backing's own blocks. -/
def backingLba (s : State) (x : Namespace) (e : Extent) (unitIn lba : Nat) : Nat :=
  e.start + (unitIn * unitBytes + lba % unitBlocks x * x.block) / backingBlock s x e
/-- Blocks of a length in the backing's own blocks. -/
def backingCount (s : State) (x : Namespace) (e : Extent) (blocks : Nat) : Nat := blocks * x.block / backingBlock s x e

/-! Commands to remote targets (R267, R324) -/

/-- A remote target. -/
def target (s : State) (t : Nat) : Option Target := Tbl.find s.nvme.targets t
/-- A target changed. -/
def modTarget (t : Nat) (f : Target → Target) (s : State) : State := modNvme (fun n => { n with targets := Tbl.modify n.targets t f }) s
/-- Outstanding commands of a target. -/
def remoteOut (x : Target) : Nat := (x.cmds.filter fun c => !c.timedOut).length
/-- Commands that waited for MAX_OUT go to the connection. -/
def pumpTarget (t : Nat) (s : State) : State :=
  match target s t with
  | none => s
  | some x => match x.waiting with
    | [] => s
    | (c, jobs) :: r =>
      if x.maxOut ≤ remoteOut x then s
      else modConn x.conn (fun k => { k with blocks := k.blocks ++ jobs }) (modTarget t (fun x => { x with waiting := r, cmds := x.cmds ++ [c] }) s)
/-- A remote command over. -/
def dropRemote (t tag : Nat) (s : State) : State := pumpTarget t (modTarget t (fun x => { x with cmds := x.cmds.filter fun c => c.tag != tag }) s)

/-- Packets of a BWRITE: whole blocks, at most PMTU bytes each. -/
def cutBlocks (per block : Nat) (mk : Nat → List Byte → BlockJob) : (fuel at_ : Nat) → List Byte → List BlockJob
  | 0, _, _ => []
  | n + 1, a, bs => if bs.isEmpty then [] else mk a (bs.take (per * block)) :: cutBlocks per block mk n (a + per) (bs.drop (per * block))

/-- A block command for a target: it goes to the connection at once, or waits for one of MAX_OUT. -/
def remoteSend (t kind seg ctl sq cmd nsid lba nsLba blocks block : Nat) (atomic fua : Bool) (data : List Byte) (s : State) : State :=
  match target s t with
  | none => s
  | some x =>
    let pmtu := ((conn s x.conn).map fun c => c.cfg.pmtu).getD 1024
    let base : BlockJob := { op := if kind = 2 then 0x20 else if kind = 3 then 0x23 else 0x21, tag := x.nextTag, nsid := nsid, lba := lba, blocks := 0, cmdBlocks := blocks, atomic := atomic, fua := fua, payload := [] }
    let jobs := if kind = 2 then cutBlocks (max 1 (pmtu / block)) block (fun a bs => { base with lba := lba + a, blocks := bs.length / block, payload := bs }) blocks 0 data else [base]
    let r : RemoteCmd := { tag := x.nextTag, kind := kind, seg := seg, ctrl := ctl, sq := sq, cmd := cmd, lba := nsLba, blocks := blocks, got := [], status := none, timedOut := false }
    pumpTarget t (emit (.remote t base.op x.nextTag lba blocks) (modTarget t (fun x => { x with nextTag := (x.nextTag + 1) % 2 ^ 32, waiting := x.waiting ++ [(r, jobs)] }) s))

/-! Destage (R312) -/

/-- A backing command of a segment is outstanding. -/
def segBusy (s : State) (id : Nat) : Bool :=
  s.nvme.drives.toList.any (fun v => v.cmds.any fun c => c.seg == id && (c.kind == 2 || c.kind == 7))
    || s.nvme.targets.any fun e => e.2.cmds.any fun c => c.seg == id && (c.kind == 2 || c.kind == 4) && !c.timedOut
/-- First and last dirty block. -/
def dirtySpan (g : Segment) : Nat × Nat := ((g.blocks.head?.map (·.1)).getD 0, (g.blocks.getLast?.map (·.1)).getD 0)
/-- Blocks of the span that are clean. (DEDUCED, log 67) -/
def gapBlocks (g : Segment) : Nat := (dirtySpan g).2 + 1 - (dirtySpan g).1 - g.blocks.length
/-- The ciphertext of the span; clean blocks as they were read. -/
def spanData (x : Namespace) (g : Segment) (got : Tbl (List Byte)) : List Byte :=
  (upFrom (dirtySpan g).1 ((dirtySpan g).2 + 1 - (dirtySpan g).1)).flatMap fun a =>
    (Tbl.find g.blocks a).getD ((Tbl.find got (a - (dirtySpan g).1)).getD (List.replicate x.block 0))

/-- The one backing write of a segment (R312): with ATOMIC where the span fits ATOMIC_BYTES, with FUA where a FUA write waits. -/
def writeSpan (x : Namespace) (e : Extent) (unitIn : Nat) (g : Segment) (got : Tbl (List Byte)) (s : State) : State :=
  let (a, b) := dirtySpan g
  let n := b + 1 - a
  if e.remote then
    let unit := ((target s e.place).map (·.atomic)).getD 0
    let unit := if unit = 0 then x.block else unit
    remoteSend e.place 2 g.id 0 0 0 e.nsid (backingLba s x e unitIn a) a n x.block (n * x.block ≤ unit) g.fua (spanData x g got) s
  else
    countN (0x100 + 16 * e.place + 1) (n * x.block) (driveSend e.place 2 g.id 0 0 0 1 e.nsid (backingLba s x e unitIn a) (backingCount s x e n) s)

/-- Some waiting command wants the segment's destage to be durable. -/
def wantsFua (s : State) (id : Nat) : Bool := s.nvme.ctrls.any fun e => e.2.cmds.any fun c => c.phase == .destage && c.fua && c.segs.contains id

/-- A segment is frozen and its backing write issued, after the clean blocks inside its span have been read (GAP_FILL). -/
def destageSeg (id : Nat) (s : State) : State :=
  match segAt s id with
  | none => s
  | some g0 => match nspace s g0.ns with
    | none => s
    | some x => match extentOf x g0.unit with
      | none => s
      | some (e, u) =>
        let g := { g0 with frozen := true, fua := g0.fua || wantsFua s id, retryDue := false }
        let s1 := modSeg id (fun _ => g) s
        if gapBlocks g = 0 then writeSpan x e u g [] s1
        else
          let (a, b) := dirtySpan g
          let n := b + 1 - a
          let s2 := countN 0x203 1 s1
          if e.remote then remoteSend e.place 4 id 0 0 0 e.nsid (backingLba s x e u a) a n x.block false false [] s2
          else driveSend e.place 7 id 0 0 0 2 e.nsid (backingLba s x e u a) (backingCount s x e n) s2

/-- An older segment of the same unit must be destaged first. (DEDUCED, log 67) -/
def olderDirty (s : State) (g : Segment) : Bool := s.nvme.segs.any fun o => o.ns == g.ns && o.unit == g.unit && o.id < g.id && !o.failed && !o.blocks.isEmpty

/-- Destage may run: while the device serves, drains, or is in MAINTENANCE. -/
def destageRuns (s : State) : Bool := s.glb.mode != .boot && s.glb.mode != .park

/-- A segment may be destaged now. -/
def destageable (s : State) (g : Segment) : Bool :=
  destageRuns s && !g.blocks.isEmpty && !g.failed && !g.held && !g.retryDue && !segBusy s g.id && !segAbsent s g && !olderDirty s g

/-- DESTAGE_START (R308, R312): the segment named is destaged. -/
def execDestageStart (ns : NsId) (seg : Nat) (s : State) : Host.Outcome State Fault Refusal :=
  .next (match segAt s seg with
    | none => s
    | some g => if g.ns == ns.val && destageable s g then destageSeg seg s else s)

/-! What waits for the cache (R300, R314) -/

/-- Drives and targets behind namespaces: port, or 16 + target; a drive without a volatile cache needs no flush. -/
def flushTargets (s : State) (spaces : List Nat) : List Nat :=
  spaces.foldl (fun l n => match nspace s n with
    | none => l
    | some x => x.extents.foldl (fun l e =>
        if e.absent then l
        else if e.remote then insertNat l (16 + e.place)
        else if ((drive s e.place).identity.map (·.volatileCache)).getD false then insertNat l e.place else l) l) []

/-- A namespace's number at a backing, for its flush. -/
def flushNsid (s : State) (b : Nat) : Nat :=
  ((s.nvme.namespaces.findSome? fun e => e.2.extents.find? fun x => if b < 16 then onDrive b x else onTarget (b - 16) x).map (·.nsid)).getD 0

/-- A flush goes to each backing: for a controller's command, or for a job of a position. -/
def flushBackings (ctl sq cmd : Nat) (bs : List Nat) (s : State) : State :=
  bs.foldl (fun s b =>
    if b < 16 then driveSend b 3 0 ctl sq cmd 0 0xFFFFFFFF 0 0 s
    else remoteSend (b - 16) 3 0 ctl sq cmd (flushNsid s b) 0 0 0 1 false false [] s) s

/-- The key that stands for a job of the cache instead of a controller. -/
def jobKey : Nat := 2 ^ 20

/-- Segments of namespaces that are dirty now. -/
def dirtyOf (s : State) (spaces : List Nat) : List Segment := s.nvme.segs.filter fun g => spaces.contains g.ns && !g.blocks.isEmpty

/-- The namespaces a flush command stands for. -/
def flushSpaces (s : State) (k : Nat) (x : NvmeCmd) : List Nat :=
  if x.ns = 4096 then (nsidsOf s k).filterMap fun i => (nsAt s k i).map (·.1) else [x.ns]

/-- A segment no longer stands in the way of what waits for it. -/
def segOver (id : Nat) (failed held : Bool) (s : State) : State :=
  let cmd (x : NvmeCmd) : NvmeCmd := if x.segs.contains id then { x with segs := x.segs.filter (· != id), sawFailed := x.sawFailed || failed, sawHeld := x.sawHeld || held } else x
  modNvme (fun n => { n with
    ctrls := Tbl.mapAll n.ctrls fun _ c => { c with cmds := c.cmds.map cmd }
    flushes := Tbl.mapAll n.flushes fun _ j => if j.segs.contains id then { j with segs := j.segs.filter (· != id), sawFailed := j.sawFailed || failed, sawHeld := j.sawHeld || held } else j }) s

/-! Format and sanitize (R325, R326) -/

/-- Every segment of a namespace is discarded. -/
def discardSegs (n : Nat) (s : State) : State := s.nvme.segs.foldl (fun s g => if g.ns = n then segOver g.id false false (freeSeg g.id s) else s) s

/-- Deallocate goes to the drives of local extents that support Dataset Management. -/
def deallocate (x : Namespace) (s : State) : State :=
  x.extents.foldl (fun s e =>
    if !e.remote && !e.absent && ((drive s e.place).identity.map (·.deallocate)).getD false then driveSend e.place 6 0 0 0 0 9 e.nsid e.start (e.units * unitBytes / backingBlock s x e) s else s) s

/-- Steps 2 to 4 of R325: the cache discarded, a fresh key in the same slot, the drives told. -/
def eraseNs (n : Nat) (s : State) : State :=
  match nspace s n with
  | none => s
  | some x =>
    let s1 := discardSegs n s
    deallocate x (match x.key with
      | none => s1
      | some slot => regenerate slot s1)

/-- I/O of a namespace is outstanding. -/
def ioOutstanding (s : State) (n : Nat) : Bool := s.nvme.ctrls.any fun e => e.2.cmds.any fun c => c.ns == n && c.phase != .event && c.phase != .format

/-- A Format NVM whose namespace is quiet: erased, and the new block size in force (R325). -/
def formatNs (k : Nat) (x : NvmeCmd) (s : State) : State :=
  let s1 := eraseNs x.ns s
  let s2 := refreshAtomic x.ns (modNs x.ns (fun y => { y with block := x.blocks, size := y.size * y.block / x.blocks, busy := 0 }) s1)
  endCmd k x 0 (nsChangedHere x.ns 7 s2)

/-- How a flush that is over is reported: held data, then a FAILED segment. (DEDUCED, log 67) -/
def flushStatus (held failed : Bool) : Nat := if held then 0x82 else if failed then 0x280 else 0

/-- A command that waits moves on: segments, then backings, then its completion. -/
def stepCmd (k : Nat) (x : NvmeCmd) (s : State) : State :=
  match x.phase with
  | .destage =>
    if x.sawFailed ∨ x.sawHeld then endCmd k x (flushStatus x.sawHeld x.sawFailed) s
    else if !x.segs.isEmpty then s
    else if x.op = 0 then
      let bs := flushTargets s (flushSpaces s k x)
      if bs.isEmpty then endCmd k x 0 s
      else flushBackings k x.sq x.cid bs (modCmd k x.sq x.cid (fun y => { y with phase := .flush, backings := bs }) s)
    else endCmd k x 0 s
  | .flush => if x.backings.isEmpty then endCmd k x 0 s else s
  | .format => if ioOutstanding s x.ns then s else formatNs k x s
  | _ => s

/-- The key of a controller's shutdown among the flushes. -/
def shutdownKey (k : Nat) : Nat := 2 ^ 32 + k

/-- A flush of the cache moves on; a finished one waits to be collected. -/
def stepJob (s : State) (e : Nat × FlushJob) : State :=
  if !e.2.flushing && e.2.segs.isEmpty then
    let bs := flushTargets s e.2.spaces
    flushBackings jobKey 0 e.1 bs (modNvme (fun n => { n with flushes := Tbl.put n.flushes e.1 { e.2 with flushing := true, backings := bs } }) s)
  else s

/-- A flush has nothing left to wait for. -/
def jobDone (j : FlushJob) : Bool := j.flushing && j.backings.isEmpty

/-- A shutdown whose cache and backings are clean is over (R300): nothing started is left, and SHST reads complete. -/
def endShutdown (s : State) (e : Nat × FlushJob) : State :=
  let k := e.1 - 2 ^ 32
  if e.1 < 2 ^ 32 || !jobDone e.2 || (ctrl s k).cmds.any (fun x => x.phase != .event) then s
  else
    let bad := e.2.sawFailed || e.2.sawHeld || e.2.transient
    let s1 := modNvme (fun n => { n with flushes := Tbl.del n.flushes e.1 }) s
    modCtrl k (fun c => { c with
      shst := 2
      errors := if bad then ([c.errorCount + 1, 0xFFFF, 0xFFFF, 0x280, 0, 0] :: c.errors).take 64 else c.errors
      errorCount := if bad then c.errorCount + 1 else c.errorCount }) s1

/-- Everything that waits for the cache moves on as far as it can. -/
def settleCache (s : State) : State :=
  let s1 := s.nvme.ctrls.foldl (fun s e => e.2.cmds.foldl (fun s x => stepCmd e.1 x s) s) s
  let s2 := s1.nvme.flushes.foldl stepJob s1
  s2.nvme.flushes.foldl endShutdown s2

/-- Blocks that a newer segment has written leave the older segments of the unit. -/
def stripOlder (g : Segment) (s : State) : State :=
  modNvme (fun n => { n with segs := (n.segs.map fun o =>
    if o.ns = g.ns ∧ o.unit = g.unit ∧ o.id < g.id then { o with blocks := Tbl.keepIf o.blocks fun a _ => !Tbl.has g.blocks a } else o).filter fun o => !(o.blocks.isEmpty && o.failed) }) s

/-- A segment's backing write has ended (R312): freed, retried once, or FAILED. -/
def destageEnded (g : Segment) (r : BackingResult) (d : Option Nat) (s : State) : State :=
  match r with
  | .ok => settleCache (segOver g.id false false (freeSeg g.id (stripOlder g s)))
  | .aborted => s
  | _ =>
    let s1 := match d with
      | none => s
      | some d => countN (0x100 + 16 * d + 2) 1 s
    if !g.retried then destageSeg g.id (modSeg g.id (fun g => { g with retried := true }) s1)
    else
      let s2 := segOver g.id true false (countN 0x200 1 (modSeg g.id (fun g => { g with failed := true }) s1))
      settleCache (match d with
        | none => s2
        | some d => raiseDriveState d (drive s2 d).state (drive s2 d).state 10 s2)

/-- The drive command that writes a segment. -/
def segWrite (s : State) (id : Nat) : Option (Nat × DriveCmd) :=
  (List.finRange 16).findSome? fun d => ((s.nvme.drives[d]).cmds.find? fun c => c.kind == 2 && c.seg == id).map fun c => (d.val, c)

/-- DESTAGE_DONE (R300, R311, R312, R314): the drive write of the segment completes. -/
def execDestageDone (ns : NsId) (seg : Nat) (r : BackingResult) (s : State) : Host.Outcome State Fault Refusal :=
  .next (match segAt s seg, segWrite s seg with
    | some g, some (d, c) => if g.ns = ns.val then destageEnded g r (some d) (dropDriveCmd d c.cid s) else s
    | _, _ => s)

/-! Reads (R313) -/

/-- Blocks of a command that are not at hand. -/
def missingBlocks (x : NvmeCmd) : List Nat := (upFrom x.slba x.blocks).filter fun a => !Tbl.has x.cached a
/-- Missing blocks of a command on local drives, in LBA order. -/
def missingLocal (_s : State) (y : Namespace) (x : NvmeCmd) : List Nat :=
  (missingBlocks x).filter fun a => match extentOf y (a / unitBlocks y) with
    | none => false
    | some (e, _) => !e.remote

/-- A free XTS tile counts blocks. -/
def countXts (decrypt : Bool) (n : Nat) (s : State) : State := count 0x0B 0 (0x400 + 8 * (freshNat s % 8) + b2n decrypt) n (drawn1 s)

/-- A read with every block at hand is decrypted and written to the host. -/
def finishRead (k : Nat) (x : NvmeCmd) (s : State) : State :=
  match nspace s x.ns with
  | none => endCmd k x 0x0B s
  | some y => match nsKey s y with
    | none => endCmd k x 0x286 s
    | some key =>
      let bs := (upFrom x.slba x.blocks).flatMap fun a => Config.xtsDecrypt key a ((Tbl.find x.cached a).getD [])
      let s1 := writePages (ctrlFn k).1 (ctrlFn k).2 x.pages bs (countXts true x.blocks s)
      endCmd k x 0 (countHost k 2 (x.blocks * y.block) (modCtrl k (fun c => { c with readUnits := c.readUnits + x.blocks * y.block / 512 }) s1))

/-- A read moves on when no block is missing. -/
def stepRead (k sq cid : Nat) (s : State) : State :=
  match cmdAt s k sq cid with
  | none => s
  | some x => if x.phase = .backing ∧ (missingBlocks x).isEmpty then settleCache (finishRead k x s) else s

/-- Consecutive missing blocks of one extent, as pieces to read. -/
def pieces (x : Namespace) : List Nat → List (Nat × Nat)
  | [] => []
  | a :: r => match pieces x r with
    | (b, n) :: t => if b = a + 1 ∧ b % unitBlocks x ≠ 0 then (a, n + 1) :: t else (a, 1) :: (b, n) :: t
    | [] => [(a, 1)]

/-- A piece of a read goes to its backing. -/
def readPiece (k sq cid : Nat) (x : Namespace) (s : State) (p : Nat × Nat) : State :=
  match extentOf x (p.1 / unitBlocks x) with
  | none => s
  | some (e, u) =>
    if e.remote then remoteSend e.place 1 0 k sq cid e.nsid (backingLba s x e u p.1) p.1 p.2 x.block false false [] s
    else driveSend e.place 1 0 k sq cid 2 e.nsid (backingLba s x e u p.1) (backingCount s x e p.2) s

/-- A command's drive reads are forgotten; remote ones stay until their BSTATUS. -/
def dropReads (k sq cid : Nat) (s : State) : State :=
  modNvme (fun n => { n with drives := n.drives.map fun v => { v with cmds := v.cmds.filter fun c => !(c.kind == 1 && c.ctrl == k && c.sq == sq && c.cmd == cid) } }) s

/-- A read fails. -/
def failRead (k sq cid st : Nat) (s : State) : State :=
  match cmdAt s k sq cid with
  | none => s
  | some x => if x.phase = .backing then
      settleCache (endCmd k x st (if st = 0x281 then modCtrl k (fun c => { c with mediaErrors := c.mediaErrors + 1 }) (dropReads k sq cid s) else dropReads k sq cid s)) else s

/-- The status a backing's result gives a read (R318). (DEDUCED, log 67) -/
def readStatus : BackingResult → Nat
  | .ok => 0
  | .mediaError => 0x281
  | .aborted => 0x22
  | .status c => c.toNat

/-- Blocks of a byte string put at addresses. -/
def putBlocks (block : Nat) : List Nat → List Byte → Tbl (List Byte) → Tbl (List Byte)
  | [], _, t => t
  | a :: r, bs, t => putBlocks block r (bs.drop block) (Tbl.put t a (bs.take block))

/-- BACKING_READ_DONE (R313, R349): the missing blocks of local drives arrive in LBA order. -/
def execBackingReadDone (h : HostId) (f : Fn) (sq cid : BitVec 16) (r : BackingResult) (data : List Byte) (s : State) : Host.Outcome State Fault Refusal :=
  let k := fnKey h f
  .next (match cmdAt s k sq.toNat cid.toNat with
    | none => s
    | some x => match nspace s x.ns with
      | none => s
      | some y =>
        if x.phase ≠ .backing ∨ (missingLocal s y x).isEmpty then s
        else if r ≠ .ok then failRead k sq.toNat cid.toNat (readStatus r) s
        else stepRead k sq.toNat cid.toNat (modCmd k sq.toNat cid.toNat (fun x => { x with cached := putBlocks y.block (missingLocal s y x) data x.cached })
          (dropReads k sq.toNat cid.toNat s)))

/-! Flush completions of backings -/

/-- A backing's flush has ended for a command or a job. -/
def flushEnded (ctl sq cmd b : Nat) (r : BackingResult) (s : State) : State :=
  if ctl = jobKey then
    settleCache (modNvme (fun n => { n with flushes := Tbl.modify n.flushes cmd fun j => { j with backings := j.backings.filter (· != b), sawFailed := j.sawFailed || (r != .ok && r != .aborted), transient := j.transient || r == .aborted } }) s)
  else match cmdAt s ctl sq cmd with
    | none => s
    | some x => match r with
      | .ok => settleCache (modCmd ctl sq cmd (fun x => { x with backings := x.backings.filter (· != b) }) s)
      | .aborted => settleCache (endCmd ctl x 0x22 s)
      | .mediaError => settleCache (endCmd ctl x 0x280 s)
      | .status c => settleCache (endCmd ctl x (if b < 16 then 0x280 else c.toNat) s)

/-! Block verbs that arrive (R267, R312, R318) -/

/-- The target whose connection is named. -/
def targetOfConn (s : State) (k : Nat) : Option (Nat × Target) := Tbl.search s.nvme.targets fun _ t => t.conn == k

/-- A remote command's answer is complete: its BSTATUS and, for a read, all its blocks. -/
def remoteEnded (t : Nat) (c : RemoteCmd) (st : Nat) (s : State) : State :=
  let s1 := dropRemote t c.tag s
  let r : BackingResult := if st = 0 then .ok else .status (BitVec.ofNat 16 st)
  match c.kind with
  | 1 => if st ≠ 0 then failRead c.ctrl c.sq c.cmd st s1
      else stepRead c.ctrl c.sq c.cmd (modCmd c.ctrl c.sq c.cmd (fun x => { x with
        cached := c.got.foldl (fun t e => Tbl.put t (c.lba + e.1) e.2) x.cached }) s1)
  | 2 => match segAt s1 c.seg with
    | none => s1
    | some g => destageEnded g r none s1
  | 3 => flushEnded c.ctrl c.sq c.cmd (16 + t) r s1
  | _ => match segAt s1 c.seg with
    | none => s1
    | some g => if st ≠ 0 then destageEnded g r none s1 else match nspace s1 g.ns with
      | none => s1
      | some x => match extentOf x g.unit with
        | none => s1
        | some (e, u) => writeSpan x e u g c.got s1

/-- A remote command is looked at again. -/
def stepRemote (t tag : Nat) (s : State) : State :=
  match (target s t).bind fun x => x.cmds.find? fun c => c.tag = tag with
  | none => s
  | some c => match c.status with
    | none => s
    | some st => if st ≠ 0 ∨ (c.kind ≠ 1 ∧ c.kind ≠ 4) ∨ c.got.length = c.blocks then remoteEnded t c st s else s

/-- The block size a remote command moves. -/
def remoteBlock (s : State) (c : RemoteCmd) : Nat :=
  if c.kind = 4 then (((segAt s c.seg).bind fun g => nspace s g.ns).map (·.block)).getD 512
  else (((cmdAt s c.ctrl c.sq c.cmd).bind fun x => nspace s x.ns).map (·.block)).getD 512

/-- One executed BREAD_DATA or BSTATUS; one for a TAG that is gone or has timed out is dropped. -/
def blockIn (b : BlockIn) (s : State) : State :=
  match targetOfConn s b.conn with
  | none => s
  | some (t, x) => match x.cmds.find? fun c => c.tag = b.tag ∧ c.timedOut = false with
    | none => if b.op = 0x24 then dropRemote t b.tag s else s
    | some c =>
      let upd (f : RemoteCmd → RemoteCmd) (s : State) : State := modTarget t (fun x => { x with cmds := x.cmds.map fun y => if y.tag = b.tag then f y else y }) s
      if b.op = 0x22 then
        let n := remoteBlock s c
        stepRemote t b.tag (upd (fun y => { y with got := putBlocks n (upFrom b.word (b.payload.length / n)) b.payload y.got }) s)
      else stepRemote t b.tag (upd (fun y => { y with status := some (b.word % 65536) }) s)

/-- Every executed block verb is taken. -/
def takeBlocks (s : State) : State := s.nvme.blockIn.foldl (fun s b => blockIn b s) (modNvme (fun n => { n with blockIn := [] }) s)

/-- BSTATUS_TIMEOUT (R318, R324). -/
def execBstatusTimeout (t : BitVec 12) (tag : Word) (s : State) : Host.Outcome State Fault Refusal :=
  let n := t.toNat
  .next (match (target s n).bind fun x => x.cmds.find? fun c => c.tag = tag.toNat ∧ c.timedOut = false with
    | none => s
    | some c =>
      let late (x : Target) : Target := { x with cmds := x.cmds.map fun y => if y.tag = tag.toNat then { y with timedOut := true } else y }
      let s1 := pumpTarget n (countN 0x202 1 (modTarget n late s))
      match c.kind with
      | 1 => failRead c.ctrl c.sq c.cmd 0x22 s1
      | 3 =>
        let again := if c.ctrl = jobKey then ((Tbl.find s.nvme.flushes c.cmd).map (·.retried)).getD true else ((cmdAt s c.ctrl c.sq c.cmd).map (·.retried)).getD true
        if again then flushEnded c.ctrl c.sq c.cmd (16 + n) .aborted s1
        else
          let s2 := if c.ctrl = jobKey then modNvme (fun x => { x with flushes := Tbl.modify x.flushes c.cmd fun j => { j with retried := true } }) s1
            else modCmd c.ctrl c.sq c.cmd (fun x => { x with retried := true }) s1
          flushBackings c.ctrl c.sq c.cmd [16 + n] s2
      | _ => modSeg c.seg (fun g => { g with retryDue := true }) s1)

/-- REMOTE_DESTAGE_RETRY (R324): 100 ms after a remote destage timed out. -/
def execRemoteDestageRetry (ns : NsId) (seg : Nat) (s : State) : Host.Outcome State Fault Refusal :=
  .next (match segAt s seg with
    | none => s
    | some g =>
      let s1 := modSeg seg (fun g => { g with retryDue := false }) s
      if g.ns == ns.val && g.retryDue && destageable s1 { g with retryDue := false } then destageSeg seg s1 else s)

end Sys2Proof.Machine
end

