-- ==== Sys2Proof/Machine/NvmeIo.lean ====
section
/-! DEFINITION. NvmeIo.lean: the NVMe I/O commands: Write, Write Zeroes, Read, Flush, Dataset Management, the instant of insertion and the wait for cache space (R308 to R314, R317, R318). -/

namespace Sys2Proof.Machine
open Sys2Proof

/-- The status a namespace gives a command on a range of blocks before anything else is looked at; none: it may go on. -/
def ioRefusal (s : State) (k nsid : Nat) : Option Nat :=
  match nsAt s k nsid with
  | none => some 0x0B
  | some (_, x) =>
    if x.busy = 1 then some 0x84
    else if x.busy = 2 then some 0x1D
    else if (nsKey s x).isNone then some 0x286
    else none

/-- First block and number of blocks of a read or write. -/
def ioSlba (e : Sqe) : Nat := e.w 10 + e.w 11 * 2 ^ 32
/-- NLB + 1. -/
def ioBlocks (e : Sqe) : Nat := e.w 12 % 65536 + 1
/-- FUA. -/
def ioFua (e : Sqe) : Bool := bitAt (e.w 12) 30

/-- The status of a read's or write's range and pages. -/
def rangeRefusal (e : Sqe) (x : Namespace) (data : Bool) : Option Nat :=
  if x.size < ioSlba e + ioBlocks e then some 0x80
  else if 2097152 < ioBlocks e * x.block then some 0x02
  else if data && badPrp e (ioBlocks e * x.block) then some 0x13
  else none

/-- Data bytes of a read or write, for arbitration. -/
def ioCost (e : Sqe) (k : Nat) (s : State) : Nat := ((nsAt s k e.nsid).map fun r => ioBlocks e * r.2.block).getD 0

/-- An outstanding command in a phase. -/
def mkCmd (e : Sqe) (ns slba blocks : Nat) (pages : List Nat) (fua : Bool) (phase : CmdPhase) : NvmeCmd where
  sq := e.sq.toNat
  cid := e.cid
  op := e.op
  ns := ns
  slba := slba
  blocks := blocks
  pages := pages
  fua := fua
  phase := phase
  segs := []
  backings := []
  cached := []
  sawFailed := false
  sawHeld := false
  retried := false

/-! Writes (R308, R310, R311) -/

/-- The Volatile Write Cache feature is enabled; it is after reset. -/
def wceOn (c : Ctrl) : Bool := bitAt (Tbl.getD c.features 0x06 1) 0

/-- A block's ciphertext put in the unit's open segment. -/
def putBlock (n : Nat) (x : Namespace) (lba : Nat) (ct : List Byte) (s : State) : State :=
  let s1 := needSeg n x.host s (lba / unitBlocks x)
  match openSeg s1 n (lba / unitBlocks x) with
  | none => s1
  | some g => modSeg g.id (fun g => { g with blocks := Tbl.put g.blocks lba ct }) s1

/-- The instant of insertion (R308, R310): every block of the write enters the index in one step; the write completes, or waits for its destage. -/
def insertWrite (k : Nat) (x : NvmeCmd) (data : List Byte) (s : State) : State :=
  match nspace s x.ns with
  | none => endCmd k x 0x0B s
  | some y => match nsKey s y with
    | none => endCmd k x 0x286 s
    | some key =>
      if absentIn y x.slba x.blocks then dropEmptySegs (endCmd k x 0x82 s) else
      let put (s : State) (i : Nat) : State := putBlock x.ns y (x.slba + i) (Config.xtsEncrypt key (x.slba + i) (slice data (i * y.block) y.block)) s
      let s1 := (upFrom 0 x.blocks).foldl put (countXts false x.blocks s)
      let bytes := x.blocks * y.block
      let s2 := countHost k 3 bytes (modCtrl k (fun c => { c with writeUnits := c.writeUnits + bytes / 512 }) s1)
      if x.fua then
        let ids := ((unitsOf y x.slba x.blocks).filterMap fun u => openSeg s2 x.ns u).map (·.id)
        modCmd k x.sq x.cid (fun c => { c with phase := .destage, segs := ids }) s2
      else endCmd k x 0 s2

/-- A write that has its space: its data is read, or it has none to read. -/
def startWrite (k : Nat) (x : NvmeCmd) (s : State) : State :=
  match nspace s x.ns with
  | none => endCmd k x 0x0B s
  | some y =>
    let s1 := (unitsOf y x.slba x.blocks).foldl (needSeg x.ns y.host) (modCmd k x.sq x.cid (fun c => { c with phase := .data }) s)
    if x.op = 1 then issueRead (ctrlFn k).1 (ctrlFn k).2 (.nvmeData x.sq x.cid) s1
    else insertWrite k { x with phase := .data } (List.replicate (x.blocks * y.block) 0) s1

/-- A write is started, or waits for cache space (R311). -/
def admitWrite (k : Nat) (x : NvmeCmd) (y : Namespace) (s : State) : State :=
  let s1 := addCmd k x s
  if segRoom s (hostIx y.host) (segsNeeded s x.ns (unitsOf y x.slba x.blocks)) then startWrite k x s1 else countHost k 7 1 s1

/-- A write or Write Zeroes is taken. -/
def takeWrite (e : Sqe) (k : Nat) (s : State) : State :=
  let sq := e.sq.toNat
  match ioRefusal s k e.nsid, nsAt s k e.nsid with
  | some st, _ => complete k sq e.cid 0 st s
  | none, none => complete k sq e.cid 0 0x0B s
  | none, some (n, y) => match rangeRefusal e y (e.op == 1) with
    | some st => completeAt k sq e.cid 0 st (ioSlba e) e.nsid s
    | none =>
      if absentIn y (ioSlba e) (ioBlocks e) then completeAt k sq e.cid 0 0x82 (ioSlba e) e.nsid s
      else
        let fua := ioFua e || !wceOn (ctrl s k)
        let s1 := countHost k 1 1 (modCtrl k (fun c => { c with writeCmds := c.writeCmds + 1 }) s)
        admitWrite k (mkCmd e n (ioSlba e) (ioBlocks e) (prpPages e (ioBlocks e * y.block)) fua .space) y (if ioFua e then countHost k 5 1 s1 else s1)

/-- NVME_WRITE (R310, R311). -/
def execNvmeWrite (h : HostId) (f : Fn) (e : Sqe) (s : State) : Host.Outcome State Fault Refusal :=
  withSqe h f e (e.sq != 0 && e.op == 0x01) (ioCost e) (takeWrite e) s

/-- NVME_WRITE_ZEROES. -/
def execNvmeWriteZeroes (h : HostId) (f : Fn) (e : Sqe) (s : State) : Host.Outcome State Fault Refusal :=
  withSqe h f e (e.sq != 0 && e.op == 0x08) (fun _ _ => 0) (takeWrite e) s

/-- The outstanding data read of a write. -/
def dataRead (s : State) (h : HostId) (f : Fn) (sq cid : Nat) : Option ReadReq := findRead s h fun g p => g == f && p == .nvmeData sq cid

/-- WRITE_INSERTION (R308, R310): the write's data has arrived whole. -/
def execWriteInsertion (h : HostId) (f : Fn) (sq cid : BitVec 16) (data : List Byte) (s : State) : Host.Outcome State Fault Refusal :=
  let k := fnKey h f
  .next (match cmdAt s k sq.toNat cid.toNat, dataRead s h f sq.toNat cid.toNat with
    | some x, some r => if x.phase = .data then settleCache (insertWrite k x data (endRead h r.tag s)) else s
    | _, _ => s)

/-- A write's data read failed or was abandoned by timeout: Data Transfer Error, and nothing is inserted (R317). -/
def writeDataFailed (h : HostId) (f : Fn) (sq cid : Nat) (s : State) : State :=
  let k := fnKey h f
  match cmdAt s k sq cid with
  | none => s
  | some x => if x.phase = .data then dropEmptySegs (endCmd k x 0x04 s) else s

/-- The oldest write of a host that waits for space. -/
def waitingWrite (s : State) (h : HostId) : Option (Nat × NvmeCmd) :=
  s.nvme.ctrls.findSome? fun e => if hostOfKey e.1 = h then (e.2.cmds.find? fun c => c.phase == .space).map fun c => (e.1, c) else none

/-- WCACHE_WAIT_END (R311): the write starts once its segments can be granted. -/
def execWcacheWaitEnd (h : HostId) (s : State) : Host.Outcome State Fault Refusal :=
  .next (match waitingWrite s h with
    | none => s
    | some (k, x) => match nspace s x.ns with
      | none => s
      | some y => if segRoom s h (segsNeeded s x.ns (unitsOf y x.slba x.blocks)) then settleCache (startWrite k x s) else s)

/-! Reads (R313) -/

/-- The blocks of a read that the cache holds. -/
def cachedOf (s : State) (n : Nat) (y : Namespace) (slba blocks : Nat) : Tbl (List Byte) :=
  (upFrom slba blocks).foldl (fun t a => match cachedBlock s n y a with
    | none => t
    | some b => Tbl.put t a b) []

/-- A read is taken. -/
def takeRead (e : Sqe) (k : Nat) (s : State) : State :=
  let sq := e.sq.toNat
  match ioRefusal s k e.nsid, nsAt s k e.nsid with
  | some st, _ => complete k sq e.cid 0 st s
  | none, none => complete k sq e.cid 0 0x0B s
  | none, some (n, y) => match rangeRefusal e y true with
    | some st => completeAt k sq e.cid 0 st (ioSlba e) e.nsid s
    | none =>
      let cached := cachedOf s n y (ioSlba e) (ioBlocks e)
      let x := { mkCmd e n (ioSlba e) (ioBlocks e) (prpPages e (ioBlocks e * y.block)) false .backing with cached := cached }
      let s1 := countHost k 6 cached.length (countHost k 0 1 (modCtrl k (fun c => { c with readCmds := c.readCmds + 1 }) s))
      if (missingBlocks x).any (fun a => absentIn y a 1) then completeAt k sq e.cid 0 0x82 (ioSlba e) e.nsid s1
      else
        let s2 := addCmd k x s1
        stepRead k sq e.cid ((pieces y (missingBlocks x)).foldl (readPiece k sq e.cid y) s2)

/-- NVME_READ (R313). -/
def execNvmeRead (h : HostId) (f : Fn) (e : Sqe) (s : State) : Host.Outcome State Fault Refusal :=
  withSqe h f e (e.sq != 0 && e.op == 0x02) (ioCost e) (takeRead e) s

/-! Flush (R314) -/

/-- A Flush is taken: one namespace, or every one attached to the controller. -/
def takeFlush (e : Sqe) (k : Nat) (s : State) : State :=
  let sq := e.sq.toNat
  let all := e.nsid == 0xFFFFFFFF
  match all, ioRefusal s k e.nsid with
  | false, some st => complete k sq e.cid 0 st s
  | _, _ =>
    let n := if all then 4096 else ((nsAt s k e.nsid).map (·.1)).getD 4096
    let x := mkCmd e n 0 0 [] false .destage
    let gs := dirtyOf s (flushSpaces s k x)
    let x1 := { x with segs := (gs.filter fun g => !g.failed && !g.held).map (·.id), sawFailed := gs.any (·.failed), sawHeld := gs.any (·.held) }
    settleCache (addCmd k x1 (countHost k 4 1 s))

/-- NVME_FLUSH. -/
def execNvmeFlush (h : HostId) (f : Fn) (e : Sqe) (s : State) : Host.Outcome State Fault Refusal :=
  withSqe h f e (e.sq != 0 && e.op == 0x00) (fun _ _ => 0) (takeFlush e) s

/-- The cache copies of the deallocated blocks of a namespace: what they read as from now on is indeterminate (R298), so their bytes are free. (DEDUCED, log 66) -/
def loosenBlocks (n : Nat) (gone : Nat → Bool) (s : State) : State :=
  (s.nvme.segs.filter fun g => g.ns == n).foldl (fun s g =>
    (g.blocks.filter fun b => gone b.1).foldl (fun s b =>
      drawn1 (modSeg g.id (fun g => { g with blocks := Tbl.put g.blocks b.1 (Config.freeBytes s.drawn b.2.length) }) s)) s) s

/-- Dataset Management: Deallocate (R297, R298). What an uncached block reads as comes from its backing. (DEDUCED, log 66) -/
def takeDsm (e : Sqe) (k : Nat) (s : State) : State :=
  let sq := e.sq.toNat
  match ioRefusal s k e.nsid, nsAt s k e.nsid with
  | some st, _ => complete k sq e.cid 0 st s
  | none, none => complete k sq e.cid 0 0x0B s
  | none, some (n, y) =>
    if (e.ranges.take (e.w 10 % 256 + 1)).any fun r => y.size < r.1.toNat + r.2.toNat then complete k sq e.cid 0 0x80 s
    else
      let gone (a : Nat) : Bool := bitAt (e.w 11) 2 && (e.ranges.take (e.w 10 % 256 + 1)).any fun r => r.1.toNat ≤ a && a < r.1.toNat + r.2.toNat
      complete k sq e.cid 0 0 (loosenBlocks n gone s)

/-- NVME_DATASET_MANAGEMENT. -/
def execNvmeDatasetManagement (h : HostId) (f : Fn) (e : Sqe) (s : State) : Host.Outcome State Fault Refusal :=
  withSqe h f e (e.sq != 0 && e.op == 0x09) (fun _ _ => 0) (takeDsm e) s

/-- The I/O and admin opcodes the controllers serve (R297). -/
def supportedOp (admin : Bool) (op : Nat) : Bool :=
  if admin then [0x00, 0x01, 0x02, 0x04, 0x05, 0x06, 0x08, 0x09, 0x0A, 0x0C, 0x14, 0x80].contains op
  else [0x00, 0x01, 0x02, 0x08, 0x09].contains op

/-- NVME_UNSUPPORTED_COMMAND (R297): Invalid Command Opcode. -/
def execNvmeUnsupportedCommand (h : HostId) (f : Fn) (e : Sqe) (s : State) : Host.Outcome State Fault Refusal :=
  withSqe h f e (!supportedOp (e.sq == 0) e.op) (fun _ _ => 0) (fun k s => complete k e.sq.toNat e.cid 0 0x01 s) s

end Sys2Proof.Machine
end

