-- ==== Sys2Proof/Machine/NvmeAdmin.lean ====
section
/-! DEFINITION. NvmeAdmin.lean: the NVMe registers' events and the admin commands, but for what reports device identity and temperature (R297, R299 to R301, R325, R327). -/

namespace Sys2Proof.Machine
open Sys2Proof

/-! Registers (R299, R300) -/

/-- A controller reset (R300): I/O queues go, commands end without completion entries, completed writes stay in the cache. (DEDUCED, log 33) -/
def resetCtrl (cause : Nat) (k : Nat) (s : State) : State :=
  let c := ctrl s k
  let log := match c.selfTest with
    | none => c.testLog
    | some t => ([t.code, cause, 0, t.nsid, 0] :: c.testLog).take 20
  let formats := c.cmds.filter fun x => x.phase == .format
  let c' : Ctrl := { Ctrl.reset with
    aqa := c.aqa, asq := c.asq, acq := c.acq, errors := c.errors, errorCount := c.errorCount, readUnits := c.readUnits, writeUnits := c.writeUnits
    readCmds := c.readCmds, writeCmds := c.writeCmds, mediaErrors := c.mediaErrors, testLog := log, cmds := formats }
  let s1 := modNvme (fun n => { n with ctrls := Tbl.put n.ctrls k c', flushes := Tbl.del n.flushes (shutdownKey k) }) s
  let s2 := c.cmds.foldl (fun s x => dropReads k x.sq x.cid s) s1
  let s3 := settleCache (dropEmptySegs s2)
  if (ctrlFn k).2 = .pf1 then refreshPf1 (ctrlFn k).1 s3 else s3

/-- A controller is on a function that is present. -/
def ctrlPresent (s : State) (h : HostId) (f : Fn) : Bool := present s h f && nvmeFn s h f

/-- NVME_CC_EN_SET (R299): the admin queues stand and CSTS.RDY is set. -/
def execNvmeCcEnSet (h : HostId) (f : Fn) (cc : Word) (s : State) : Host.Outcome State Fault Refusal :=
  let k := fnKey h f
  .next (if !ctrlPresent s h f || (ctrl s k).ready then s
    else modCtrl k (fun c => { c with
      cc := cc.toNat ||| 1, ready := true, shst := 0
      sqs := [(0, { size := c.aqa % 4096 + 1, base := c.asq, cq := 0, prio := 0, head := 0, tail := 0 })]
      cqs := [(0, { size := c.aqa / 65536 % 4096 + 1, base := c.acq, ien := true, iv := 0, head := 0, tail := 0, phase := true, late := [] })] }) s)

/-- NVME_CC_EN_CLEAR (R300). -/
def execNvmeCcEnClear (h : HostId) (f : Fn) (s : State) : Host.Outcome State Fault Refusal :=
  .next (if ctrlPresent s h f && (ctrl s (fnKey h f)).ready then resetCtrl 2 (fnKey h f) s else s)

/-- A job that flushes namespaces: the segments dirty now, and what it meets. -/
def flushJob (s : State) (spaces : List Nat) : FlushJob :=
  let gs := dirtyOf s spaces
  { spaces := spaces, segs := (gs.filter fun g => !g.failed && !g.held).map (·.id), backings := [], flushing := false
    sawFailed := gs.any (·.failed), sawHeld := gs.any (·.held), transient := false, retried := false }

/-- An abrupt shutdown aborts what is started: the commands end without completion entries. -/
def abortCmds (k : Nat) (s : State) : State :=
  let s1 := (ctrl s k).cmds.foldl (fun s x => if x.phase = .format then s else dropCmd k x.sq x.cid (dropReads k x.sq x.cid s)) s
  dropEmptySegs s1

/-- NVME_SHUTDOWN (R300): no new command starts; the controller's namespaces are destaged and flushed, and then SHST reads complete. -/
def execNvmeShutdown (h : HostId) (f : Fn) (abrupt : Bool) (s : State) : Host.Outcome State Fault Refusal :=
  let k := fnKey h f
  .next (if !ctrlPresent s h f || !(ctrl s k).ready || (ctrl s k).shst != 0 then s
    else
      let s1 := modCtrl k (fun c => { c with shst := 1 }) s
      let s2 := if abrupt then abortCmds k s1 else s1
      let spaces := (nsidsOf s2 k).filterMap fun i => (nsAt s2 k i).map (·.1)
      settleCache (modNvme (fun n => { n with flushes := Tbl.put n.flushes (shutdownKey k) (flushJob s2 spaces) }) s2))

/-- NVME_INTMS_INTMC (R299): bits of the interrupt mask set, or cleared. -/
def execNvmeIntmsIntmc (h : HostId) (f : Fn) (clear : Bool) (v : Word) (s : State) : Host.Outcome State Fault Refusal :=
  let k := fnKey h f
  .next (if !ctrlPresent s h f then s
    else
      let s1 := modCtrl k (fun c => { c with mask := if clear then c.mask &&& (0xFFFFFFFF - v.toNat) else c.mask ||| v.toNat }) s
      if f = .pf1 then refreshPf1 h s1 else s1)

/-- NVME_SQ_DOORBELL: the tail of a live submission queue; it is recorded in QUIESCE (R26). (DEDUCED, log 66) -/
def execNvmeSqDoorbell (h : HostId) (f : Fn) (q : BitVec 16) (v : Word) (s : State) : Host.Outcome State Fault Refusal :=
  let k := fnKey h f
  .next (match Tbl.find (ctrl s k).sqs q.toNat with
    | none => s
    | some x => if !ctrlPresent s h f || x.size ≤ v.toNat then s else modCtrl k (fun c => { c with sqs := Tbl.put c.sqs q.toNat { x with tail := v.toNat } }) s)

/-- NVME_CQ_DOORBELL: the host has consumed entries; those that waited are written. -/
def execNvmeCqDoorbell (h : HostId) (f : Fn) (q : BitVec 16) (v : Word) (s : State) : Host.Outcome State Fault Refusal :=
  let k := fnKey h f
  .next (match Tbl.find (ctrl s k).cqs q.toNat with
    | none => s
    | some x =>
      if !ctrlPresent s h f || x.size ≤ v.toNat || (x.tail + x.size - x.head) % x.size < (v.toNat + x.size - x.head) % x.size then s
      else
        let s1 := drainNvmeCq k q.toNat x.late.length (modCtrl k (fun c => { c with cqs := Tbl.put c.cqs q.toNat { x with head := v.toNat } }) s)
        if f = .pf1 then refreshPf1 h s1 else s1)

/-! I/O queues (R297, R301) -/

/-- I/O queue pairs a controller may have. -/
def maxPairs : Fn → Nat
  | .pf1 => 4095
  | _ => 255
/-- I/O queue pairs of a controller: the greater of its I/O SQs and CQs. -/
def pairsOf (c : Ctrl) : Nat := max (Tbl.countIf c.sqs fun i _ => i != 0) (Tbl.countIf c.cqs fun i _ => i != 0)
/-- Pairs of a host. -/
def hostPairs (s : State) (h : HostId) : Nat := s.nvme.ctrls.foldl (fun n e => if hostOfKey e.1 = h then n + pairsOf e.2 else n) 0
/-- One more queue of a kind would pass a limit. -/
def pairQuota (s : State) (h : HostId) (f : Fn) (c' : Ctrl) : Bool :=
  let k := fnKey h f
  let extra := pairsOf c' - pairsOf (ctrl s k)
  extra != 0 && !quotaAllows s h f 0x30 (hostPairs s h) (pairsOf (ctrl s k)) extra

/-- The queue identifier of an admin command. -/
def qidOf (e : Sqe) : Nat := e.w 10 % 65536
/-- The queue size of an admin command. -/
def qsizeOf (e : Sqe) : Nat := e.w 10 / 65536

/-- An admin command's completion. -/
def adminDone (e : Sqe) (k dw0 st : Nat) (s : State) : State := complete k 0 e.cid dw0 st s

/-- Create I/O Completion Queue. -/
def createCq (h : HostId) (f : Fn) (e : Sqe) (k : Nat) (s : State) : State :=
  let q : NvmeCq := { size := qsizeOf e + 1, base := e.prp1, ien := bitAt (e.w 11) 1, iv := e.w 11 / 65536, head := 0, tail := 0, phase := true, late := [] }
  let c' := { ctrl s k with cqs := Tbl.put (ctrl s k).cqs (qidOf e) q }
  if qidOf e = 0 ∨ maxPairs f < qidOf e ∨ Tbl.has (ctrl s k).cqs (qidOf e) then adminDone e k 0 0x101 s
  else if qsizeOf e = 0 then adminDone e k 0 0x102 s
  else if !bitAt (e.w 11) 0 then adminDone e k 0 0x02 s
  else if e.prp1 % 4096 ≠ 0 then adminDone e k 0 0x13 s
  else if msixSize f ≤ q.iv then adminDone e k 0 0x108 s
  else if pairQuota s h f c' then adminDone e k 0 0x101 (countHost k 8 1 s)
  else adminDone e k 0 0 (modCtrl k (fun _ => c') s)

/-- Create I/O Submission Queue. -/
def createSq (h : HostId) (f : Fn) (e : Sqe) (k : Nat) (s : State) : State :=
  let cq := e.w 11 / 65536
  let c' := { ctrl s k with sqs := Tbl.put (ctrl s k).sqs (qidOf e) { size := qsizeOf e + 1, base := e.prp1, cq := cq, prio := e.w 11 / 2 % 4, head := 0, tail := 0 } }
  if cq = 0 ∨ !Tbl.has (ctrl s k).cqs cq then adminDone e k 0 0x100 s
  else if qidOf e = 0 ∨ maxPairs f < qidOf e ∨ Tbl.has (ctrl s k).sqs (qidOf e) then adminDone e k 0 0x101 s
  else if qsizeOf e = 0 then adminDone e k 0 0x102 s
  else if !bitAt (e.w 11) 0 then adminDone e k 0 0x02 s
  else if e.prp1 % 4096 ≠ 0 then adminDone e k 0 0x13 s
  else if pairQuota s h f c' then adminDone e k 0 0x101 (countHost k 8 1 s)
  else adminDone e k 0 0 (modCtrl k (fun _ => c') s)

/-- Delete I/O Submission Queue: its commands end with Command Aborted due to SQ Deletion. -/
def deleteSq (e : Sqe) (k : Nat) (s : State) : State :=
  if qidOf e = 0 ∨ !Tbl.has (ctrl s k).sqs (qidOf e) then adminDone e k 0 0x101 s
  else
    let s1 := (ctrl s k).cmds.foldl (fun s x => if x.sq = qidOf e then endCmd k x 0x08 (dropReads k x.sq x.cid s) else s) s
    adminDone e k 0 0 (settleCache (dropEmptySegs (modCtrl k (fun c => { c with sqs := Tbl.del c.sqs (qidOf e) }) s1)))

/-- Delete I/O Completion Queue: not while a submission queue uses it. -/
def deleteCq (e : Sqe) (k : Nat) (s : State) : State :=
  if qidOf e = 0 ∨ !Tbl.has (ctrl s k).cqs (qidOf e) then adminDone e k 0 0x101 s
  else if (ctrl s k).sqs.any fun q => q.2.cq == qidOf e then adminDone e k 0 0x10C s
  else adminDone e k 0 0 (modCtrl k (fun c => { c with cqs := Tbl.del c.cqs (qidOf e) }) s)

/-- An admin row. -/
def adminRow (op : Nat) (h : HostId) (f : Fn) (e : Sqe) (act : Nat → State → State) (s : State) : Host.Outcome State Fault Refusal :=
  withSqe h f e (e.sq == 0 && e.op == op) (fun _ _ => 0) act s

/-- NVME_CREATE_IO_SQ. -/
def execNvmeCreateIoSq (h : HostId) (f : Fn) (e : Sqe) (s : State) : Host.Outcome State Fault Refusal := adminRow 0x01 h f e (createSq h f e) s
/-- NVME_CREATE_IO_CQ. -/
def execNvmeCreateIoCq (h : HostId) (f : Fn) (e : Sqe) (s : State) : Host.Outcome State Fault Refusal := adminRow 0x05 h f e (createCq h f e) s
/-- NVME_DELETE_IO_SQ. -/
def execNvmeDeleteIoSq (h : HostId) (f : Fn) (e : Sqe) (s : State) : Host.Outcome State Fault Refusal := adminRow 0x00 h f e (deleteSq e) s
/-- NVME_DELETE_IO_CQ. -/
def execNvmeDeleteIoCq (h : HostId) (f : Fn) (e : Sqe) (s : State) : Host.Outcome State Fault Refusal := adminRow 0x04 h f e (deleteCq e) s

/-! Abort, asynchronous events, features -/

/-- Abort: a command that still waits ends with Command Abort Requested; dword 0 bit 0 says whether it was aborted. -/
def abortCmd (e : Sqe) (k : Nat) (s : State) : State :=
  match cmdAt s k (e.w 10 % 65536) (e.w 10 / 65536) with
  | none => adminDone e k 1 0 s
  | some x =>
    if x.phase = .format ∨ x.phase = .destage ∨ x.phase = .flush then adminDone e k 1 0 s
    else adminDone e k 0 0 (settleCache (dropEmptySegs (endCmd k x 0x07 (dropReads k x.sq x.cid s))))

/-- NVME_ABORT. -/
def execNvmeAbort (h : HostId) (f : Fn) (e : Sqe) (s : State) : Host.Outcome State Fault Refusal := adminRow 0x08 h f e (abortCmd e) s

/-- Asynchronous Event Request: one may be outstanding. -/
def takeAer (e : Sqe) (k : Nat) (s : State) : State :=
  if (ctrl s k).cmds.any fun x => x.phase == .event then adminDone e k 0 0x105 s
  else reportAers k 1 (addCmd k (mkCmd e 4096 0 0 [] false .event) s)

/-- NVME_ASYNC_EVENT_REQUEST. -/
def execNvmeAsyncEventRequest (h : HostId) (f : Fn) (e : Sqe) (s : State) : Host.Outcome State Fault Refusal := adminRow 0x0C h f e (takeAer e) s

/-- The features of R297. -/
def featureKnown (fid : Nat) : Bool := [0x01, 0x02, 0x04, 0x06, 0x07, 0x08, 0x09, 0x0B].contains fid
/-- Where a feature's value is held: one for each vector of 0x09 and each threshold of 0x04. -/
def featureKey (fid v : Nat) : Nat :=
  match fid with
  | 0x09 => 0x090000 + v % 65536
  | 0x04 => 0x040000 + v / 65536 % 64
  | _ => fid
/-- A feature's value after reset: the write cache on, over-temperature at the top, and the notices of R297 enabled. (PRESUMED, log 65) -/
def featureDefault (key : Nat) : Nat :=
  if key = 0x06 then 1 else if key = 0x0B then 0x102 else if key / 65536 = 4 then (if key / 16 % 4 = 0 then 0xFFFF else 0) else if key / 65536 = 9 then key % 65536 else 0
/-- The queue counts of Number of Queues, at most those of R297, 0's based. -/
def queuesGiven (f : Fn) (v : Nat) : Nat := min (v % 65536) (maxPairs f - 1) + min (v / 65536) (maxPairs f - 1) * 65536

/-- Set Features. -/
def setFeature (f : Fn) (e : Sqe) (k : Nat) (s : State) : State :=
  let fid := e.w 10 % 256
  let v := e.w 11
  if !featureKnown fid then adminDone e k 0 0x02 s
  else if bitAt (e.w 10) 31 then adminDone e k 0 0x10D s
  else if fid = 0x02 ∧ v % 32 ≠ 0 then adminDone e k 0 0x02 s
  else if fid = 0x07 then
    if v % 65536 = 0xFFFF ∨ v / 65536 = 0xFFFF then adminDone e k 0 0x02 s
    else adminDone e k (queuesGiven f v) 0 (modCtrl k (fun c => { c with features := Tbl.put c.features 0x07 (queuesGiven f v) }) s)
  else
    let x := if fid = 0x09 then v % 2 ^ 17 else if fid = 0x04 then v % 65536 else v
    adminDone e k 0 0 (modCtrl k (fun c => { c with features := Tbl.put c.features (featureKey fid v) x }) s)

/-- NVME_SET_FEATURES. -/
def execNvmeSetFeatures (h : HostId) (f : Fn) (e : Sqe) (s : State) : Host.Outcome State Fault Refusal := adminRow 0x09 h f e (setFeature f e) s

/-- Get Features: the value in force. -/
def getFeature (f : Fn) (e : Sqe) (k : Nat) (s : State) : State :=
  let fid := e.w 10 % 256
  if !featureKnown fid then adminDone e k 0 0x02 s
  else
    let key := featureKey fid (e.w 11)
    adminDone e k (Tbl.getD (ctrl s k).features key (if fid = 0x07 then queuesGiven f 0xFFFEFFFE else featureDefault key)) 0 s

/-- NVME_GET_FEATURES. -/
def execNvmeGetFeatures (h : HostId) (f : Fn) (e : Sqe) (s : State) : Host.Outcome State Fault Refusal := adminRow 0x0A h f e (getFeature f e) s

/-! Format NVM (R325) -/

/-- The self-test of a controller ends with a result. -/
def endSelfTest (k result segment nsid lba : Nat) (s : State) : State :=
  match (ctrl s k).selfTest with
  | none => s
  | some t => modCtrl k (fun c => { c with selfTest := none, testLog := ([t.code, result, segment, if nsid = 0 then t.nsid else nsid, lba] :: c.testLog).take 20 }) s

/-- A block size that R304 would refuse for the current backing. -/
def badFormat (s : State) (x : Namespace) (block : Nat) : Bool :=
  x.extents.any fun e => !e.remote && (block < backingBlock s x e || block % backingBlock s x e != 0)

/-- Format NVM. -/
def takeFormat (e : Sqe) (k : Nat) (s : State) : State :=
  let lbaf := e.w 10 % 16
  let block := if lbaf = 1 then 4096 else 512
  match nsAt s k e.nsid with
  | none => adminDone e k 0 0x0B s
  | some (n, x) =>
    if x.busy = 1 then adminDone e k 0 0x84 s
    else if x.busy = 2 then adminDone e k 0 0x1D s
    else if 1 < lbaf ∨ bitsAt (e.w 10) 4 5 ≠ 0 ∨ bitsAt (e.w 10) 12 2 ≠ 0 ∨ badFormat s x block then adminDone e k 0 0x10A s
    else if 2 < bitsAt (e.w 10) 9 3 then adminDone e k 0 0x02 s
    else
      let s1 := endSelfTest k 4 0 0 0 (modNs n (fun x => { x with busy := 1 }) s)
      settleCache (addCmd k (mkCmd e n 0 block [] false .format) s1)

/-- NVME_FORMAT_NVM. -/
def execNvmeFormatNvm (h : HostId) (f : Fn) (e : Sqe) (s : State) : Host.Outcome State Fault Refusal := adminRow 0x80 h f e (takeFormat e) s

/-! Device Self-test (R327) -/

/-- The namespaces a self-test checks. -/
def testSpaces (s : State) (k nsid : Nat) : List Namespace :=
  if nsid = 0xFFFFFFFF then (nsidsOf s k).filterMap fun i => (nsAt s k i).map (·.2)
  else ((nsAt s k nsid).map fun r => [r.2]).getD []

/-- Steps of each segment: the known-answer test, the scratch area, the backings, 1,024 units, every block; 1 MiB of reads a step. -/
def testSteps (s : State) (k : Nat) (t : SelfTest) : List Nat :=
  let spaces := testSpaces s k t.nsid
  [1, 1, spaces.length, spaces.foldl (fun n x => n + ceilDiv (1024 * x.atomic) 1048576) 0,
    if t.code = 2 then spaces.foldl (fun n x => n + ceilDiv (x.size * x.block) 1048576) 0 else 0]

/-- The segment a step belongs to, from 1 on; none past the last. -/
def segmentOf : (step : Nat) → List Nat → (i : Nat) → Option Nat
  | _, [], _ => none
  | n, c :: r, i => if n < c then some i else segmentOf (n - c) r (i + 1)

/-- Device Self-test. -/
def takeSelfTest (e : Sqe) (k : Nat) (s : State) : State :=
  let code := e.w 10 % 16
  if code = 0xF then adminDone e k 0 0 (endSelfTest k 1 0 0 0 s)
  else if code ≠ 1 ∧ code ≠ 2 then adminDone e k 0 0x02 s
  else if e.nsid ≠ 0xFFFFFFFF ∧ (nsAt s k e.nsid).isNone then adminDone e k 0 0x0B s
  else if (ctrl s k).selfTest.isSome then adminDone e k 0 0x11D s
  else adminDone e k 0 0 (modCtrl k (fun c => { c with selfTest := some { code := code, nsid := e.nsid, steps := 0, startedAt := nowNs s } }) s)

/-- NVME_DEVICE_SELF_TEST. -/
def execNvmeDeviceSelfTest (h : HostId) (f : Fn) (e : Sqe) (s : State) : Host.Outcome State Fault Refusal := adminRow 0x14 h f e (takeSelfTest e) s

/-- SELF_TEST_STEP (R327): a step, while the controller's host has no command waiting; the block a failed read met is not modelled and is free. -/
def execSelfTestStep (h : HostId) (f : Fn) (failed : Bool) (s : State) : Host.Outcome State Fault Refusal :=
  let k := fnKey h f
  .next (match (ctrl s k).selfTest with
    | none => s
    | some t =>
      if hostReady s h.val then s
      else match segmentOf t.steps (testSteps s k t) 1 with
        | none => endSelfTest k 0 0 0 0 s
        | some g =>
          if failed then endSelfTest k 7 g 0 (freshNat s % 2 ^ 48) (drawn1 s)
          else if t.code = 1 ∧ t.startedAt + 120000000000 ≤ nowNs s then endSelfTest k 7 g 0 0 s
          else
            let s1 := modCtrl k (fun c => { c with selfTest := some { t with steps := t.steps + 1 } }) s
            if (segmentOf (t.steps + 1) (testSteps s k t) 1).isNone then endSelfTest k 0 0 0 0 s1 else s1)

end Sys2Proof.Machine
end

