-- ==== Sys2Proof/Machine/Drives.lean ====
section
/-! DEFINITION. Drives.lean: the drive ports, removal and return of backings, and the owner's storage commands (R302 to R306, R312, R315, R319 to R326, R463). -/

namespace Sys2Proof.Machine
open Sys2Proof

/-! Absent and returning extents (R321, R322) -/

/-- Extents that a test accepts marked absent or present. -/
def setAbsent (p : Extent → Bool) (v : Bool) (s : State) : State :=
  modNvme (fun n => { n with namespaces := Tbl.mapAll n.namespaces fun _ x => { x with extents := x.extents.map fun e => if p e then { e with absent := v } else e } }) s

/-- The segment's unit lies on an extent that a test accepts. -/
def segOn (s : State) (p : Extent → Bool) (g : Segment) : Bool :=
  match nspace s g.ns with
  | none => false
  | some x => match extentOf x g.unit with
    | none => false
    | some (e, _) => p e

/-- Host reads, flushes and segments that a lost backing concerns: reads and flushes end Namespace Not Ready, segments are held. -/
def loseBacking (p : Extent → Bool) (reads flushes : List (Nat × Nat × Nat)) (s : State) : State :=
  let s1 := reads.foldl (fun s r => failRead r.1 r.2.1 r.2.2 0x82 s) (setAbsent p true s)
  let s2 := flushes.foldl (fun s r =>
    if r.1 = jobKey then modNvme (fun n => { n with flushes := Tbl.modify n.flushes r.2.2 fun j => { j with backings := [], sawHeld := true } }) s
    else match cmdAt s r.1 r.2.1 r.2.2 with
      | none => s
      | some x => endCmd r.1 x 0x82 s) s1
  let hold (s : State) (g : Segment) : State := if segOn s p g && !g.blocks.isEmpty then segOver g.id false true (modSeg g.id (fun g => { g with held := true }) s) else s
  settleCache (s2.nvme.segs.foldl hold s2)

/-- The reads and flushes a drive is serving. -/
def driveServes (s : State) (d kind : Nat) : List (Nat × Nat × Nat) := ((drive s d).cmds.filter fun c => c.kind == kind).map fun c => (c.ctrl, c.sq, c.cmd)

/-- BACKING_ABSENT or BACKING_RESTORED for every namespace concerned. -/
def spacesChanged (l : List Nat) (change : Nat) (s : State) : State := l.foldl (fun s n => nsChangedHere n change s) s

/-- The owner's operations a drive was carrying end with a status. -/
def failDriveOps (st : Status) (cmds : List DriveCmd) (s : State) : State :=
  cmds.foldl (fun s c => if c.kind = 4 ∨ c.kind = 5 then (match findOp s c.seg with
    | none => s
    | some o => opDone o st [] s) else s) s

/-- Steps 1 to 4 of R321, once the port has its new state: `old` and `cause` are those of DRIVE_STATE. -/
def driveGone (d old cause : Nat) (s : State) : State :=
  let spaces := nsWith s fun e => onDrive d e && !e.absent
  let cmds := (drive s d).cmds
  let s1 := loseBacking (onDrive d) (driveServes s d 1) (driveServes s d 3) (modDrive d (fun v => { v with cmds := [] }) s)
  spacesChanged spaces 4 (raiseDriveState d (drive s1 d).state old cause (failDriveOps .targetAbsent cmds s1))

/-- The drive's identity matches what an absent extent recorded: its serial number, and the NGUID of each drive namespace those extents name. -/
def identityMatches (s : State) (d : Nat) (i : DriveIdentity) : Bool :=
  let es := s.nvme.namespaces.flatMap fun e => e.2.extents.filter fun x => onDrive d x && x.absent
  !es.isEmpty && es.all fun e => e.serial == i.serial && (i.namespaces.any fun n => n.nsid == e.nsid && n.nguid == e.nguid)

/-- Extents return and held segments may be destaged. -/
def backingReturns (p : Extent → Bool) (s : State) : State :=
  let spaces := nsWith s fun e => p e && e.absent
  let s1 := setAbsent p false s
  let s2 := modNvme (fun n => { n with segs := n.segs.map fun g => if segOn s1 p g then { g with held := false } else g }) s1
  spacesChanged spaces 5 s2

/-! The states of a port (R319, R320) -/

/-- A port takes a state. -/
def driveState (d st : Nat) (s : State) : State := modDrive d (fun v => { v with state := st }) s
/-- Its link is down. -/
def driveLinkDown (d : Nat) (s : State) : State := modDrive d (fun v => { v with linkUp := false, speed := 0, width := 0 }) s

/-- A port enters FAILED, its LED lit (R320); from INITIALISING or READY it is handled as a removal. -/
def driveFailed (d cause : Nat) (s : State) : State :=
  let old := (drive s d).state
  let s1 := modDrive d (fun v => { v with state := 4, led := true }) s
  if old = 2 ∨ old = 3 then driveGone d old cause s1 else raiseDriveState d 4 old cause s1

/-- DRIVE_PRESENT (R320). -/
def execDrivePresent (d : DrivePort) (s : State) : Host.Outcome State Fault Refusal :=
  .next (if (drive s d.val).state != 0 || isLost s 0x11 d.val then s
    else raiseDriveState d.val 1 0 1 (modDrive d.val (fun v => { v with state := 1, present := true }) s))

/-- A drive leaves: PRSNT_N deasserts, or its link goes down. -/
def surpriseRemoval (d : Nat) (linkDrop : Bool) (s : State) : State :=
  let old := (drive s d).state
  let s1 := driveLinkDown d (if linkDrop then driveState d 1 s else modDrive d (fun v => { v with state := 0, present := false, led := false, resetAt := none }) s)
  let cause := if linkDrop then 4 else 3
  if old = 2 ∨ old = 3 then driveGone d old cause (countN (0x100 + 16 * d + 5) 1 s1)
  else if linkDrop ∨ old = 0 then s
  else raiseDriveState d 0 old 3 s1

/-- DRIVE_SURPRISE_REMOVAL (R321). -/
def execDriveSurpriseRemoval (d : DrivePort) (linkDrop : Bool) (s : State) : Host.Outcome State Fault Refusal := .next (surpriseRemoval d.val linkDrop s)

/-- The widest width whose lanes are free of faults (R463). -/
def widthWithout (widths lost : List Nat) (w : Nat) : Nat := (widths.find? fun x => x ≤ w && lost.all fun l => x ≤ l).getD 0

/-- DRIVE_LINK_UP (R319, R320, R463). -/
def execDriveLinkUp (d : DrivePort) (t : LinkTraining) (s : State) : Host.Outcome State Fault Refusal :=
  let v := drive s d.val
  let w := widthWithout [4, 2, 1] (v.lostLanes ++ t.badLanes) t.width
  .next (if v.state != 1 || w == 0 then s
    else modDrive d.val (fun v => { v with state := 2, linkUp := true, speed := t.speed, width := w }) s)

/-- The SANACT of METHOD 2, a block erase, and of METHOD 3, a crypto erase (PRESUMED: NVM Express). (PRESUMED, log 65) -/
def sanitizeAction (method : Nat) : Nat := if method = 3 then 4 else 2

/-- A SANITIZE that PARK interrupted goes to its drive again (R80). (DEDUCED, log 43) -/
def resumeSanitize (d : Nat) (s : State) : State :=
  s.nv.sanitizes.foldl (fun s r => if r.drive && r.object == d then driveSend d 5 0 0 0 0 0x84 0 (sanitizeAction r.method) 0 s else s) s

/-- DRIVE_INITIALISED (R307, R319, R320, R322). -/
def execDriveInitialised (d : DrivePort) (i : DriveIdentity) (s : State) : Host.Outcome State Fault Refusal :=
  let n := d.val
  .next (if (drive s n).state != 2 then s
    else
      let s1 := modDrive n (fun v => { v with identity := some i }) s
      if !i.supported then driveFailed n 8 s1
      else
        let back := identityMatches s1 n i
        let s2 := driveState n 3 s1
        let s3 := if back then backingReturns (onDrive n) s2 else s2
        let s4 := raiseDriveState n 3 2 (if back then 9 else 2) s3
        resumeSanitize n ((nsWith s4 (onDrive n)).foldl (fun s k => refreshAtomic k s) s4))

/-- DRIVE_INIT_TIMEOUT (R320). -/
def execDriveInitTimeout (d : DrivePort) (s : State) : Host.Outcome State Fault Refusal :=
  .next (if (drive s d.val).state == 1 || (drive s d.val).state == 2 then driveFailed d.val 6 s else s)

/-- A drive's controller is reset (R320): a second time within 60 s the drive fails; outstanding reads end, and destage writes keep their segments dirty. (DEDUCED, log 67) -/
def resetDrive (d : Nat) (s : State) : State :=
  let v := drive s d
  let s1 := countN (0x100 + 16 * d + 4) 1 (emit (.driveCtl d 3) s)
  if v.resetAt.any (fun t => nowNs s ≤ t + 60000000000) then driveFailed d 11 s1
  else
    let s2 := modDrive d (fun v => { v with resetAt := some (nowNs s), state := 2, cmds := v.cmds.filter fun c => c.kind == 5 }) s1
    let s3 := (driveServes s d 1).foldl (fun s r => failRead r.1 r.2.1 r.2.2 0x22 s) s2
    let s4 := (driveServes s d 3).foldl (fun s r => flushEnded r.1 r.2.1 r.2.2 d .aborted s) s3
    raiseDriveState d 2 v.state 5 (failDriveOps .mediaError (v.cmds.filter fun c => c.kind == 4) s4)

/-- DRIVE_COMMAND_TIMEOUT (R320): an Abort after 8 s, a controller reset 2 s later. -/
def execDriveCommandTimeout (d : DrivePort) (cid : BitVec 16) (second : Bool) (s : State) : Host.Outcome State Fault Refusal :=
  let n := d.val
  .next (match (drive s n).cmds.find? fun c => c.cid = cid.toNat with
    | none => s
    | some c =>
      if second then (if c.aborted then resetDrive n s else s)
      else if c.aborted || (drive s n).state != 3 then s
      else countN (0x100 + 16 * n + 3) 1 (emit (.driveCmd n cid.toNat 8 0 0 0) (modDrive n (fun v => { v with cmds := v.cmds.map fun x => if x.cid = cid.toNat then { x with aborted := true } else x }) s)))

/-- DRIVE_CFS (R320). -/
def execDriveCfs (d : DrivePort) (s : State) : Host.Outcome State Fault Refusal :=
  .next (if (drive s d.val).state == 2 || (drive s d.val).state == 3 then resetDrive d.val s else s)

/-- A sanitize's record leaves the protected store. -/
def dropSanitize (isDrive : Bool) (object : Nat) (s : State) : State :=
  { s with nv := { s.nv with sanitizes := s.nv.sanitizes.filter fun r => !(r.drive == isDrive && r.object == object) } }

/-- A drive command completes (R312, R314, R319, R326): read data comes with BACKING_READ_DONE, so a read that ends well is left to it. -/
def driveDone (d : Nat) (c : DriveCmd) (r : BackingResult) (s : State) : State :=
  let bad := r != .ok
  let s1 := if bad && c.kind != 2 then countN (0x100 + 16 * d + 2) 1 s else s
  match c.kind with
  | 1 => if bad then failRead c.ctrl c.sq c.cmd (readStatus r) s1 else s1
  | 2 => match segAt s1 c.seg with
    | none => dropDriveCmd d c.cid s1
    | some g => destageEnded g r (some d) (dropDriveCmd d c.cid s1)
  | 3 => flushEnded c.ctrl c.sq c.cmd d r (dropDriveCmd d c.cid s1)
  | 7 =>
    let s2 := dropDriveCmd d c.cid s1
    match segAt s2 c.seg with
    | none => s2
    | some g => if bad then destageEnded g r (some d) s2 else match nspace s2 g.ns with
      | none => s2
      | some x => match extentOf x g.unit with
        | none => s2
        | some (e, u) => writeSpan x e u g [] s2
  | k =>
    let s2 := (if k = 5 then dropSanitize true d else id) (dropDriveCmd d c.cid s1)
    if k = 4 ∨ k = 5 then (match findOp s2 c.seg with
      | none => s2
      | some o => opDone o (if bad then .mediaError else .ok) [] s2) else s2

/-- DRIVE_COMPLETION. -/
def execDriveCompletion (d : DrivePort) (cid : BitVec 16) (r : BackingResult) (s : State) : Host.Outcome State Fault Refusal :=
  .next (match (drive s d.val).cmds.find? fun c => c.cid = cid.toNat with
    | none => s
    | some c => if (drive s d.val).state == 3 then driveDone d.val c r s else s)

/-- DRIVE_ATTN_BUTTON (R320): the press is only reported. -/
def execDriveAttnButton (d : DrivePort) (s : State) : Host.Outcome State Fault Refusal :=
  let st := (drive s d.val).state
  .next (raiseDriveState d.val st st 7 (modDrive d.val (fun v => { v with button := true }) s))

/-- DRIVE_DMA_VIOLATION (R319, R502): Unsupported Request and a violation record. -/
def execDriveDmaViolation (d : DrivePort) (addr : DWord) (header : List Word) (s : State) : Host.Outcome State Fault Refusal :=
  .next (logViolation 6 0x0A 0 ([d.val, 0] ++ words64 addr.toNat ++ ((header.map fun (w : Word) => w.toNat) ++ [0, 0, 0, 0]).take 4) s)

/-- DRIVE_LANE_FAULT_IN_SERVICE (R463): the port narrows through Recovery and stays READY, or is lost with its lane 0. -/
def execDriveLaneFaultInService (d : DrivePort) (lane : Fin 4) (s : State) : Host.Outcome State Fault Refusal :=
  let n := d.val
  let v := drive s n
  .next (if !v.linkUp || v.lostLanes.contains lane.val then s
    else
      let s1 := modDrive n (fun v => { v with lostLanes := v.lostLanes ++ [lane.val] }) s
      if lane.val = 0 then surpriseRemoval n true (unitLost 0x11 6 n 0 s1)
      else
        let w := widthWithout [4, 2, 1] (v.lostLanes ++ [lane.val]) v.width
        unitLost 0x09 6 (4 * n + lane.val) (2 ^ lane.val + w * 2 ^ 27) (modDrive n (fun v => { v with width := w }) s1))

/-! Namespace commands (R302 to R306) -/

/-- NS of word 0x00. -/
def cmdNs (p : Packet) : Nat := p.f 0 0 12

/-- NS_CREATE (R302). -/
def nsCreateDef : CmdDef where
  opcode := 0x0700
  owner := true
  objs := Obj.isDevice
  len := fun n => n == 3
  checks := fun _ p s =>
    let block := if p.b 0 24 then 4096 else 512
    [ (p.f 0 12 4 != 0 || p.f 0 19 5 != 0 || p.f 0 25 7 != 0 || p.w 1 != 0 || p.f 4 17 15 != 0 || p.w 5 != 0, .badParam),
      (p.d 2 == 0 || p.d 2 * block % unitBytes != 0 || 2 ^ 48 < p.d 2 * block, .badParam),
      ((nspace s (cmdNs p)).isSome, .noResource),
      ((usableKey s (p.f 4 0 17) 3 fun o => o.isNone).isNone, .keyRefused) ]
  act := fun _ p s =>
    let block := if p.b 0 24 then 4096 else 512
    let x : Namespace := { host := p.f 0 16 3, block := block, size := p.d 2, key := some (p.f 4 0 17), extents := [], attached := none, busy := 0, atomic := block }
    reply [] (modNvme (fun n => { n with namespaces := Tbl.put n.namespaces (cmdNs p) x }) s)

/-- COUNT of NS_BACKING_SET. -/
def extCount (p : Packet) : Nat := p.f 0 16 8
/-- Extent record k, without what is recorded of the drive. -/
def extRec (p : Packet) (k : Nat) : Extent :=
  { remote := p.b (2 + 6 * k) 31, place := p.f (2 + 6 * k) 0 12, nsid := p.w (3 + 6 * k), start := p.d (4 + 6 * k), units := p.w (6 + 6 * k), absent := false, serial := [], nguid := [] }
/-- The records. -/
def extRecs (p : Packet) : List Extent := (upFrom 0 (extCount p)).map (extRec p)

/-- Two extents of one backing overlap: block sizes in bytes. -/
def extOverlap (s : State) (x y : Namespace) (a b : Extent) : Bool :=
  let a0 := a.start * backingBlock s x a
  let b0 := b.start * backingBlock s y b
  a.remote == b.remote && a.place == b.place && a.nsid == b.nsid && a0 < b0 + b.units * unitBytes && b0 < a0 + a.units * unitBytes

/-- An extent R304 refuses with BAD_PARAM. -/
def badExtent (s : State) (n : Nat) (x : Namespace) (e : Extent) : Bool :=
  let bb := backingBlock s x e
  e.units == 0 || (!e.remote && 15 < e.place) || x.block < bb || x.block % bb != 0 || e.start * bb % unitBytes != 0
    || (!e.remote && (match driveNs s e.place e.nsid with
      | none => (drive s e.place).state == 3
      | some v => v.capacity * bb < e.start * bb + e.units * unitBytes))
    || s.nvme.namespaces.any fun o => o.1 != n && o.2.extents.any fun b => extOverlap s x o.2 e b

/-- The drive is not READY, or the target's connection is not. -/
def backingMissing (s : State) (e : Extent) : Bool :=
  if e.remote then !(((target s e.place).bind fun t => conn s t.conn).any fun c => c.state == 0) else (drive s e.place).state != 3

/-- What is recorded of the drive when the extent is set (R322). -/
def recordDrive (s : State) (e : Extent) : Extent :=
  if e.remote then e
  else { e with serial := ((drive s e.place).identity.map (·.serial)).getD [], nguid := ((driveNs s e.place e.nsid).map (·.nguid)).getD [] }

/-- NS_BACKING_SET (R303, R304): dirty, held and FAILED data destages to the new backing. -/
def nsBackingSetDef : CmdDef where
  opcode := 0x0701
  owner := true
  objs := Obj.isDevice
  len := fun _ => true
  checks := fun _ p s =>
    [ (p.len != 1 + 3 * extCount p, .badLength),
      (p.f 0 12 4 != 0 || p.f 0 24 8 != 0 || p.w 1 != 0 || extCount p == 0 || 160 < extCount p
        || (upFrom 0 (extCount p)).any (fun k => p.f (2 + 6 * k) 12 19 != 0 || p.w (7 + 6 * k) != 0), .badParam),
      ((match nspace s (cmdNs p) with
        | none => true
        | some x => (extRecs p).any (badExtent s (cmdNs p) x) || (extRecs p).foldl (fun n e => n + e.units) 0 * unitBytes != x.size * x.block), .badParam),
      ((nspace s (cmdNs p)).any fun x => x.attached.isSome, .busy),
      ((extRecs p).any (backingMissing s), .targetAbsent) ]
  act := fun _ p s =>
    let n := cmdNs p
    let s1 := modNs n (fun x => { x with extents := (extRecs p).map (recordDrive s) }) s
    let s2 := modNvme (fun v => { v with segs := v.segs.map fun g => if g.ns = n then { g with held := false, failed := false, retried := false, retryDue := false } else g }) s1
    reply [] (refreshAtomic n s2)

/-- The function named holds NVMe controllers. -/
def ctrlObj (s : State) (o : Obj) : Bool := o.isFunc && nvmeFn s (hostOf o) (fnOfObj o)
/-- The lowest free NSID of a controller. -/
def freeNsid (s : State) (k : Nat) : Nat := ((upFrom 1 257).find? fun i => !(nsidsOf s k).contains i).getD 257

/-- NS_ATTACH (R305, R306). -/
def nsAttachDef : CmdDef where
  opcode := 0x0702
  owner := true
  objs := Obj.isFunc
  len := fun n => n == 1
  checks := fun o p s =>
    let k := fnKey (hostOf o) (fnOfObj o)
    let nn := nnOf (fnOfObj o)
    [ (!ctrlObj s o || p.f 0 12 20 != 0 || nn < p.w 1 || (nsidsOf s k).contains (p.w 1), .badParam),
      ((match nspace s (cmdNs p) with
        | none => true
        | some x => x.extents.isEmpty || x.attached.isSome || x.host != (hostOf o).val), .badParam),
      (nn ≤ (nsidsOf s k).length, .noResource) ]
  act := fun o p s =>
    let k := fnKey (hostOf o) (fnOfObj o)
    let i := if p.w 1 = 0 then freeNsid s k else p.w 1
    reply [] (nsChangedHere (cmdNs p) 1 (modNs (cmdNs p) (fun x => { x with attached := some (k, i) }) s))

/-- A namespace leaves its controller (R305): its commands end, its self-test too. (DEDUCED, log 67) -/
def detachNs (n k i : Nat) (s : State) : State :=
  let s1 := (ctrl s k).cmds.foldl (fun s x => if x.ns = n ∧ x.phase ≠ .format then endCmd k x 0x07 (dropReads k x.sq x.cid s) else s) s
  let s2 := if (ctrl s k).selfTest.any (fun t => t.nsid == i || t.nsid == 0xFFFFFFFF) then endSelfTest k 3 0 0 0 s1 else s1
  nsChanged n 2 (some (k, i)) (modNs n (fun x => { x with attached := none }) (dropEmptySegs s2))

/-- NS_DETACH. -/
def nsDetachDef : CmdDef where
  opcode := 0x0703
  owner := true
  objs := Obj.isFunc
  len := fun n => n == 1
  checks := fun o p s =>
    let k := fnKey (hostOf o) (fnOfObj o)
    [ (!ctrlObj s o || p.f 0 12 20 != 0, .badParam),
      (!((nspace s (cmdNs p)).any fun x => x.attached == some (k, p.w 1)), .entryAbsent) ]
  act := fun o p s => reply [] (settleCache (detachNs (cmdNs p) (fnKey (hostOf o) (fnOfObj o)) (p.w 1) s))

/-- NS_DELETE (R305): stepped. -/
def nsDeleteDef : CmdDef where
  opcode := 0x0704
  owner := true
  objs := Obj.isDevice
  len := fun n => n == 1
  checks := fun _ p s =>
    [ (p.f 0 12 20 != 0 || p.w 1 != 0 || (nspace s (cmdNs p)).isNone, .badParam),
      ((nspace s (cmdNs p)).any fun x => x.attached.isSome || x.busy != 0, .busy),
      (opLimitReached p s, .noResource) ]
  act := fun _ p s => startOp 0x0704 p (.nsDelete (cmdNs p)) 1 0 s

/-- What NS_DELETE's step does: the cache's segments and the number go. -/
def deleteNs (n : Nat) (s : State) : State :=
  match nspace s n with
  | none => s
  | some x => settleCache (raiseNsChanged n 8 none x.host x.atomic (modNvme (fun v => { v with namespaces := Tbl.del v.namespaces n }) (discardSegs n s)))

/-! Drive and cache commands (R315, R326) -/

/-- The fields DRIVE_INFO returns (R326). -/
def driveFields (v : Drive) : List (List Nat) :=
  let i := v.identity.getD ⟨[], [], [], 0, false, false, false, []⟩
  let str (l : List Byte) (n : Nat) : List Nat := ((l ++ List.replicate n 0).take n).map fun (b : Byte) => b.toNat
  [[v.state], [v.speed], [v.width], str i.serial 20, str i.model 40, str i.firmware 8, [i.awupf], [b2n i.volatileCache]]
    ++ (i.namespaces.take 32).map fun n => [n.nsid, n.capacity, n.blockSize, n.nawupf.getD 0, n.nabspf.getD 0] ++ str n.nguid 16

/-- DRIVE_INFO. (DEDUCED, log 19) -/
def driveInfoDef : CmdDef where
  opcode := 0x0705
  owner := true
  objs := Obj.isDevice
  longResult := true
  len := fun n => n == 1
  checks := fun _ p s => [(p.f 0 4 28 != 0 || p.w 1 != 0, .badParam), ((drive s (p.f 0 0 4)).state == 0, .targetAbsent)]
  act := fun _ p s => replyLong (Config.layout 0x0705 (driveFields (drive s (p.f 0 0 4)))) s

/-- Checks of an operation on a drive: no extent lies on it, no other such operation runs, and it is READY. -/
def driveOpChecks (d : Nat) (s : State) : List (Bool × Status) :=
  [(!(nsWith s (onDrive d)).isEmpty || (drive s d).cmds.any (fun c => c.kind == 4 || c.kind == 5), .busy), ((drive s d).state != 3, .targetAbsent)]

/-- DRIVE_FORMAT. -/
def driveFormatDef : CmdDef where
  opcode := 0x0706
  owner := true
  objs := Obj.isDevice
  len := fun n => n == 2
  checks := fun _ p s =>
    [(p.f 0 4 4 != 0 || p.f 0 15 17 != 0 || p.w 2 != 0 || p.w 3 != 0, .badParam), (opLimitReached p s, .noResource)] ++ driveOpChecks (p.f 0 0 4) s
  act := fun _ p s => startOp 0x0706 p (.driveFormat (p.f 0 0 4) (p.f 0 8 4 + p.f 0 12 3 * 16 + p.w 1 * 256)) 2 0 s

/-- The namespaces of CACHE_FLUSH. -/
def cacheSpaces (p : Packet) (s : State) : List Nat :=
  let mine (x : Namespace) : Bool := match p.chan with
    | .owner => true
    | .ring c => x.host == c.link.val
  if p.b 0 16 then (s.nvme.namespaces.filter fun e => mine e.2).map (·.1) else [cmdNs p]

/-- CACHE_FLUSH (R314, R315). -/
def cacheFlushDef : CmdDef where
  opcode := 0x0707
  owner := true
  host := true
  len := fun n => n == 1
  checks := fun _ p s =>
    let foreign := match p.chan with
      | .owner => false
      | .ring c => !p.b 0 16 && (nspace s (cmdNs p)).any fun x => x.host != c.link.val
    [ ((!p.owner && p.b 0 24) || foreign, .notPermitted),
      (p.f 0 12 4 != 0 || p.f 0 17 7 != 0 || p.f 0 25 7 != 0 || p.w 1 != 0 || (!p.b 0 16 && (nspace s (cmdNs p)).isNone), .badParam),
      (opLimitReached p s, .noResource) ]
  act := fun _ p s =>
    let host := match p.chan with
      | .owner => none
      | .ring c => some c.link.val
    let a := startOp 0x0707 p (.cacheFlush host (if p.b 0 16 then none else some (cmdNs p)) (p.b 0 24)) 1 0 s
    if p.b 0 24 then a
    else { a with state := settleCache (modNvme (fun n => { n with flushes := Tbl.put n.flushes (a.result.headD 0) (flushJob s (cacheSpaces p s)) }) a.state) }

/-- What a CACHE_FLUSH with DISCARD does: FAILED and held segments go, and their bytes are counted (R315). -/
def discardHeld (spaces : List Nat) (s : State) : State :=
  settleCache (s.nvme.segs.foldl (fun s g =>
    if spaces.contains g.ns && (g.failed || g.held) then
      countN 0x201 (g.blocks.length * ((nspace s g.ns).map (·.block)).getD 0) (segOver g.id false false (freeSeg g.id s))
    else s) s)

/-- SANITIZE (R326). -/
def sanitizeDef : CmdDef where
  opcode := 0x0708
  owner := true
  objs := Obj.isDevice
  len := fun n => n == 1
  checks := fun _ p s =>
    let m := p.f 0 16 2
    [ (p.f 0 12 4 != 0 || p.f 0 18 14 != 0 || p.w 1 != 0 || m == 0 || (m == 1 && (nspace s (cmdNs p)).isNone) || (m != 1 && 15 < cmdNs p), .badParam),
      (m == 1 && (nspace s (cmdNs p)).any (fun x => x.busy != 0), .busy),
      (opLimitReached p s, .noResource),
      (m == 1 && (nspace s (cmdNs p)).any (fun x => !((x.key.bind (slotAt s)).any fun k => k.owner.isNone)), .keyRefused) ]
      ++ (if m = 1 then [] else driveOpChecks (cmdNs p) s)
  act := fun _ p s =>
    let m := p.f 0 16 2
    let s1 := if m = 1 then modNs (cmdNs p) (fun x => { x with busy := 2 }) s else s
    startOp 0x0708 p (.sanitize (m != 1) (cmdNs p) m) 2 0 s1

/-- What an NS_CRYPTO step does once the namespace is quiet: the data is erased with its key (R325, R326). -/
def sanitizeNs (n : Nat) (s : State) : State := nsChangedHere n 6 (modNs n (fun x => { x with busy := 0 }) (eraseNs n s))

/-! Remote targets (R323) -/

/-- A target's connection has entered ERROR, or is gone: its extents become absent as a removed drive's do (R322). -/
def targetGone (t : Nat) (s : State) : State :=
  match target s t with
  | none => s
  | some x =>
    let spaces := nsWith s fun e => onTarget t e && !e.absent
    let all := x.cmds ++ x.waiting.map (·.1)
    let of (kind : Nat) : List (Nat × Nat × Nat) := (all.filter fun c => c.kind == kind && !c.timedOut).map fun c => (c.ctrl, c.sq, c.cmd)
    let s1 := modTarget t (fun x => { x with cmds := [], waiting := [] }) s
    spacesChanged spaces 4 (loseBacking (onTarget t) (of 1) (of 3) s1)

/-- Every target whose connection has failed is handled once. -/
def syncTargets (s : State) : State :=
  s.nvme.targets.foldl (fun s e =>
    let down := match conn s e.2.conn with
      | none => true
      | some c => c.state == 2
    let pending := !(((target s e.1).map fun x => x.cmds.isEmpty && x.waiting.isEmpty).getD true) || !(nsWith s fun x => onTarget e.1 x && !x.absent).isEmpty
    if down && pending then targetGone e.1 s else s) s

/-- What storage connections have brought is taken, and failed ones are noticed. -/
def farm (s : State) : State := syncTargets (takeBlocks s)

/-- Live connections of the storage domain. -/
def storageConns (s : State) : Nat := connsOf s 8
/-- DELETE. -/
def rtDelete (p : Packet) : Bool := p.b 48 16
/-- TARGET. -/
def rtTarget (p : Packet) : Nat := p.f 48 0 12
/-- PORT. -/
def rtPort (p : Packet) : Nat := p.f 49 0 6

/-- A field that only REMOTE_TARGET_SET reserves is set, or one of its own is out of range. -/
def badTarget (p : Packet) (s : State) : Bool :=
  p.f 2 16 16 != 0 || p.f 3 16 16 != 0 || p.f 4 0 8 != 0 || p.d 6 != 0 || p.d 8 != 0 || p.d 10 != 0 || p.d 12 != 0 || p.w 14 != 0 || p.b 2 10 || p.b 2 11
    || p.f 32 0 2 != 0 || p.f 49 6 26 != 0 || p.f 51 28 4 != 0 || p.f 2 0 3 == 7
    || (p.w 50 != 0 && (p.w 50 < 512 || 131072 < p.w 50 || floorPow2 (p.w 50) != p.w 50)) || outside (p.f 51 0 16) 100 60000
    || (rateOfPort s (rtPort p)).isNone || badConnFields p (rateOfPort s (rtPort p)) || badNumber s 8 p

/-- REMOTE_TARGET_SET. -/
def remoteTargetSetDef : CmdDef where
  opcode := 0x0709
  owner := true
  objs := Obj.isDevice
  len := fun n => n == 26
  checks := fun _ p s =>
    let old := target s (rtTarget p)
    let live := old.any fun t => (conn s t.conn).any fun c => c.state != 2
    [ (!rtDelete p && p.b 2 3 && (usableKey s (p.f 5 0 17) 2 fun o => o.isNone).isNone, .notPermitted),
      (p.f 48 12 4 != 0 || p.f 48 17 15 != 0, .badParam),
      ((if rtDelete p then old.isNone || !(nsWith s (onTarget (rtTarget p))).isEmpty else live || badTarget p s), .badParam),
      (!rtDelete p && (4096 ≤ storageConns s - b2n old.isSome || numberLive s 8 p || (connNumber s 8 p).isNone), .noResource) ]
  act := fun _ p s =>
    let t := rtTarget p
    let s0 := match target s t with
      | none => s
      | some x => modNvme (fun n => { n with targets := Tbl.del n.targets t }) (endConn false x.conn (targetGone t s))
    if rtDelete p then reply [] s0
    else
      let n := (connNumber s 8 p).getD 0
      let rate := (rateOfPort s (rtPort p)).getD 0
      let inh := inherited s p rate
      let c := freshConn s p (cfgOf s p rate 0 0 0) none inh.1 inh.2.1 false 0
      let s1 := addConn 8 n c true inh.2.2 (drawn1 s0)
      let v : Target := { conn := 8 * 2 ^ 24 + n, port := rtPort p, atomic := p.w 50, timeout := keep0 (p.f 51 0 16) 2000, maxOut := keep0 (p.f 51 16 12) 256, nextTag := 0, cmds := [], waiting := [] }
      reply [n + p.f 0 24 8 * 2 ^ 24] (backingReturns (onTarget t) (modNvme (fun x => { x with targets := Tbl.put x.targets t v }) s1))

/-- NS_CREATE. -/
def execNsCreate (p : Packet) (s : State) : Host.Outcome State Fault Refusal := .next (runCmd nsCreateDef (.nsCreate p) p s)
/-- NS_BACKING_SET. -/
def execNsBackingSet (p : Packet) (s : State) : Host.Outcome State Fault Refusal := .next (runCmd nsBackingSetDef (.nsBackingSet p) p s)
/-- NS_ATTACH. -/
def execNsAttach (p : Packet) (s : State) : Host.Outcome State Fault Refusal := .next (runCmd nsAttachDef (.nsAttach p) p s)
/-- NS_DETACH. -/
def execNsDetach (p : Packet) (s : State) : Host.Outcome State Fault Refusal := .next (runCmd nsDetachDef (.nsDetach p) p s)
/-- NS_DELETE. -/
def execNsDelete (p : Packet) (s : State) : Host.Outcome State Fault Refusal := .next (runCmd nsDeleteDef (.nsDelete p) p s)
/-- DRIVE_INFO. -/
def execDriveInfo (p : Packet) (s : State) : Host.Outcome State Fault Refusal := .next (runCmd driveInfoDef (.driveInfo p) p s)
/-- DRIVE_FORMAT. -/
def execDriveFormat (p : Packet) (s : State) : Host.Outcome State Fault Refusal := .next (runCmd driveFormatDef (.driveFormat p) p s)
/-- CACHE_FLUSH. -/
def execCacheFlush (p : Packet) (s : State) : Host.Outcome State Fault Refusal := .next (runCmd cacheFlushDef (.cacheFlush p) p s)
/-- SANITIZE. -/
def execSanitize (p : Packet) (s : State) : Host.Outcome State Fault Refusal := .next (runCmd sanitizeDef (.sanitize p) p s)
/-- REMOTE_TARGET_SET. -/
def execRemoteTargetSet (p : Packet) (s : State) : Host.Outcome State Fault Refusal := .next (runCmd remoteTargetSetDef (.remoteTargetSet p) p s)

end Sys2Proof.Machine
end

