-- ==== Sys2Proof/Machine/Images.lean ====
section
/-! DEFINITION. Images.lean: the measurement registers, the validity of images, the image commands and the signing keys (R422 to R438, R442, R447). -/

namespace Sys2Proof.Machine
open Sys2Proof

/-- SEC changed. -/
def modSec (f : Sec → Sec) (s : State) : State := { s with sec := f s.sec }
/-- The protected store and fuses changed. (DEDUCED, log 44) -/
def modNv (f : Nv → Nv) (s : State) : State := { s with nv := f s.nv }

/-! Measurement registers (R422) -/

/-- A measurement register is extended with a digest. (DEDUCED, log 38) -/
def extend (i : Fin 16) (d : List Byte) (s : State) : State :=
  modSec (fun x => { x with mrs := vmod x.mrs i (fun m => Config.sha384 (m ++ d)), extends_ := vmod x.extends_ i (fun n => (n + 1) % 2 ^ 32) }) s

/-- A command packet as it is laid out (R65). -/
def packetBytes (opcode : Nat) (p : Packet) : List Byte :=
  leBytes 2 opcode ++ [p.flags, p.scope] ++ leBytes 4 p.tag.toNat ++ leBytes 2 p.len ++ leBytes 2 p.target.toNat ++ leBytes 4 (p.version.toNat * 2 ^ 24)
    ++ leBytes 8 p.epochBind.toNat ++ leBytes 8 p.resultAddr.toNat ++ leBytes 4 p.resultLen.toNat ++ List.replicate 28 0 ++ p.bytes

/-! Signing keys (R433) -/

/-- A fused key digest. -/
def keyDigest (s : State) (i : Nat) : List Byte := s.nv.keyDigests[(⟨i % 4, Nat.mod_lt _ (by decide)⟩ : Fin 4)]
/-- A digest whose provisioned bit is clear makes its index faulty. -/
def keyFaulty (s : State) (i : Nat) : Bool := !bitAt s.nv.provisioned i && (keyDigest s i).any (· != 0)
/-- The index is provisioned, and neither revoked nor faulty. -/
def keyGood (s : State) (i : Nat) : Bool := bitAt s.nv.provisioned i && !bitAt s.nv.revoked i && !keyFaulty s i
/-- SEC_KEY_STATE. -/
def keyStateWord (s : State) : Nat :=
  s.nv.provisioned % 16 + s.nv.revoked % 16 * 16 + b2n (keyFaulty s 0) * 256 + b2n (keyFaulty s 1) * 512 + b2n (keyFaulty s 2) * 1024 + b2n (keyFaulty s 3) * 2048
/-- The fuse state that MR0 records: key digests, provisioned, revoked and faulty bits, lifecycle. -/
def fuseState (s : State) : List Byte :=
  (upFrom 0 4).flatMap (keyDigest s) ++ leBytes 2 (keyStateWord s) ++ leBytes 1 s.nv.lifecycle

/-! Images (R424 to R429) -/

/-- 24 MiB. -/
def maxImage : Nat := 24 * 2 ^ 20
/-- Where a slot begins in the flash (R423). -/
def slotBase (slot : Nat) : Nat := slot % 2 * 0x2000000
/-- Bytes of an image that starts at an offset of a memory whose empty byte is 0xFF. -/
def imgBytes (m : Mem) (base off n : Nat) : List Byte := Mem.readBytes m 0xFF (base + off) n
/-- A little-endian field of a header. -/
def hdr (h : List Byte) (off n : Nat) : Nat := leNat (slice h off n)
/-- Bytes of a header that must be 0. -/
def zeroes (h : List Byte) (off n : Nat) : Bool := (slice h off n).all (· == 0)

/-- A component entry (R426). -/
structure Component where
  type : Nat
  offset : Nat
  size : Nat
  digest : List Byte
deriving DecidableEq, Repr

/-- Entry k of the component table. -/
def component (h : List Byte) (k : Nat) : Component where
  type := hdr h (0x100 + 64 * k) 1
  offset := hdr h (0x104 + 64 * k) 4
  size := hdr h (0x108 + 64 * k) 4
  digest := slice h (0x110 + 64 * k) 48

/-- The component table of a header. -/
def components (h : List Byte) : List Component := (upFrom 0 (hdr h 0x18 1 % 64)).map (component h)

/-- Two components share bytes. -/
def overlap (a b : Component) : Bool := a.offset < b.offset + b.size && b.offset < a.offset + a.size

/-- No two components of a list share bytes. -/
def disjoint : List Component → Bool
  | [] => true
  | c :: r => r.all (fun d => !overlap c d) && disjoint r

/-- A component lies in the image, on a 4 KiB boundary, within the limit of its type. -/
def componentFits (size : Nat) (c : Component) : Bool :=
  1 ≤ c.type && c.type ≤ 7 && c.offset % 4096 == 0 && 0x3000 ≤ c.offset && 1 ≤ c.size && c.offset + c.size ≤ size
    && (c.type != 1 || c.size ≤ 512 * 1024) && (c.type != 2 || c.size ≤ 8 * 2 ^ 20)

/-- Components of a type. -/
def typeCount (cs : List Component) (t : Nat) : Nat := (cs.filter fun c => c.type == t).length

/-- Every field the header's table does not name is 0, the entries beyond COMPONENTS included. (DEDUCED, log 45) -/
def reservedClear (h : List Byte) : Bool :=
  let n := hdr h 0x18 4
  zeroes h 0x06 2 && hdr h 0x14 4 < 4 && n < 64 && zeroes h 0x23 13 && zeroes h 0x40 192
    && (upFrom 0 (n % 64)).all (fun k => zeroes h (0x101 + 64 * k) 3 && zeroes h (0x10C + 64 * k) 4)
    && zeroes h (0x100 + 64 * n) (0xF00 - 64 * n)

/-- The header's form is right (check 2 of R429). (DEDUCED, log 45) -/
def formatOk (h : List Byte) : Bool :=
  let size := hdr h 0x1C 4
  let n := hdr h 0x18 4
  let cs := components h
  hdr h 4 2 == 1 && reservedClear h && size % 4096 == 0 && size ≤ maxImage && 1 ≤ n && n ≤ 32
    && cs.all (componentFits size) && disjoint cs && typeCount cs 1 == 1 && typeCount cs 2 == 1
    && [4, 5, 6, 7].all (fun t => typeCount cs t ≤ 1)

/-- The keys in a signature block are those fused for an index, and both signatures of a message verify (R428). (DESIGN CHOICE, log 8) -/
def signed (s : State) (index : Nat) (block message context : List Byte) : Bool :=
  let ec := slice block 0 0x60
  let ml := slice block 0xC0 2592
  Config.sha384 (ec ++ ml) == keyDigest s index && Config.ecdsaVerify ec (slice block 0x60 0x60) message
    && Config.mldsaVerify ml (slice block 0xAE0 4627) context message

/-- "UTVK-IMAGE". -/
def imageContext : List Byte := [0x55, 0x54, 0x56, 0x4B, 0x2D, 0x49, 0x4D, 0x41, 0x47, 0x45]

/-- Every component's bytes have its digest (check 9). -/
def digestsOk (m : Mem) (base : Nat) (h : List Byte) : Bool :=
  (components h).all fun c => Config.sha384 (imgBytes m base c.offset c.size) == c.digest

/-- The first check of R429 that an image fails, or 0: with the minimum version it must reach, whether its slot has failed three starts, and whether its component digests are checked. -/
def imageReason (s : State) (m : Mem) (base minVersion : Nat) (worn digests : Bool) : Nat :=
  let h := imgBytes m base 0 4096
  let k := hdr h 0x14 4 % 4
  if hdr h 0 4 ≠ 0x4B565455 then 1
  else if !formatOk h then 2
  else if hdr h 0x20 2 ≠ 0x8256 ∨ hdr h 0x22 1 ≠ 0xA1 then 3
  else if !bitAt s.nv.provisioned k then 4
  else if bitAt s.nv.revoked k || keyFaulty s k then 5
  else if !signed s k (imgBytes m base 0x1000 0x2000) h imageContext then 6
  else if hdr h 0x10 4 < minVersion then 7
  else if worn then 8
  else if digests && !digestsOk m base h then 9
  else 0

/-- A slot's attempt counter. -/
def attempts (s : State) (slot : Nat) : Nat := s.nv.attempts[(⟨slot % 2, Nat.mod_lt _ (by decide)⟩ : Fin 2)]
/-- The slot as an index. -/
def slotIx (slot : Nat) : Fin 2 := ⟨slot % 2, Nat.mod_lt _ (by decide)⟩
/-- The reason of a slot's flash copy, with or without its component digests. -/
def slotReason (s : State) (slot : Nat) (digests : Bool) : Nat :=
  imageReason s s.nv.flash (slotBase slot) s.nv.minVersion (3 ≤ attempts s slot) digests
/-- The slot holds a valid image. -/
def slotValid (s : State) (slot : Nat) : Bool := slotReason s slot true == 0
/-- The header of a slot. -/
def slotHeader (s : State) (slot : Nat) : List Byte := imgBytes s.nv.flash (slotBase slot) 0 4096
/-- A slot's reason is that of the check just made (R438). -/
def recheck (slot : Nat) (s : State) : State :=
  modSec (fun x => { x with info := vset x.info (slotIx slot) (slotReason s slot true) }) s

/-! Programming the flash -/

/-- Part of a slot erased. -/
def eraseFlash (slot off n : Nat) (s : State) : State := modNv (fun v => { v with flash := Mem.erase v.flash (slotBase slot + off) n }) s
/-- Bytes `lo` up to `hi` of a buffer programmed into an erased slot. -/
def programFlash (buf : Mem) (slot lo hi : Nat) (s : State) : State :=
  modNv (fun v => { v with flash := (buf.filter fun c => lo ≤ c.1 && c.1 < hi).foldl (fun m c => Mem.write m 0xFF (slotBase slot + c.1) c.2) v.flash }) s

/-- The flash copy has been read back and is good: the slot's attempt counter is 0 (step 4 of R437). -/
def installed (slot : Nat) (s : State) : State := recheck slot (modNv (fun v => { v with attempts := vset v.attempts (slotIx slot) 0 }) s)

/-- A failed install leaves the slot invalid: its header is erased. (DEDUCED, log 46) -/
def spoilSlot (slot : Nat) (s : State) : State := recheck slot (eraseFlash slot 0 4096 s)

/-- The reason of a buffer before it is installed (step 1 of R437). -/
def bufferReason (s : State) (buf : Mem) : Nat := imageReason s buf 0 s.nv.minVersion false true

/-- A buffer is programmed into a slot and read back; its header goes last, so that an install that is cut short leaves the slot blank. The version was checked before (R442). (DEDUCED, log 46) -/
def writeSlot (buf : Mem) (slot : Nat) (ok : Bool) (s : State) : State × Nat :=
  let size := hdr (imgBytes buf 0 0 4096) 0x1C 4
  let s1 := programFlash buf slot 0 4096 (programFlash buf slot 4096 size s)
  let r := if ok then imageReason s1 s1.nv.flash (slotBase slot) 0 false true else 10
  if r = 0 then (installed slot s1, 0) else (spoilSlot slot s1, r)

/-- One step of IMAGE_INSTALL (R437): check, erase, then program and read back; with ERASE, erase alone. (DEDUCED, log 46) -/
def installStep (o : LongOp) (slot : Nat) (erase ok : Bool) (s : State) : State :=
  if erase then
    if ok then opDone o .ok [] (recheck slot (eraseFlash slot 0 0x2000000 s))
    else opDone o .imageInvalid [0, 0, 10] (spoilSlot slot s)
  else if o.stepsDone = 0 then
    let r := bufferReason s s.sec.stage
    if r = 0 then putOp { o with stepsDone := 1, committed := true } s
    else opDone o (if r = 7 then .versionRefused else .imageInvalid) [0, 0, r] s
  else if !ok then opDone o .imageInvalid [0, 0, 10] (spoilSlot slot s)
  else if o.stepsDone = 1 then putOp { o with stepsDone := 2 } (eraseFlash slot 0 0x2000000 s)
  else
    let h := imgBytes s.sec.stage 0 0 4096
    let r := writeSlot s.sec.stage slot ok s
    if r.2 = 0 then opDone o .ok [hdr h 8 4, hdr h 0xC 4, hdr h 0x10 4] r.1
    else opDone o .imageInvalid [0, 0, r.2] r.1

/-- The slot of a running IMAGE_INSTALL. -/
def installing (s : State) (slot : Nat) : Bool :=
  s.ops.any fun o => match o.kind with
    | .imageInstall n _ => n == slot
    | _ => false
/-- Some IMAGE_INSTALL runs. -/
def installRuns (s : State) : Bool := installing s 0 || installing s 1
/-- The recovery intake installs into a slot. -/
def intakeInstalls (s : State) (slot : Nat) : Bool := (s.sec.intake.phase == 3 || s.sec.intake.phase == 4) && s.sec.intake.slot == slot

/-- The record of an INTERNAL_FAULT (R70, R501): opcode and channel, TAG, and a firmware fault code the spec leaves open. (DEDUCED, log 80) -/
def internalFault (opcode : Nat) (p : Packet) (s : State) : State :=
  logViolation 7 0 0 [opcode + p.chan.number * 65536, p.tag.toNat, freshNat s % 2 ^ 32] (drawn1 s)

/-! The image commands -/

/-- IMAGE_STAGE (R436). (DEDUCED, log 45) -/
def imageStageDef : CmdDef where
  opcode := 0x0B00
  owner := true
  objs := Obj.isDevice
  len := fun n => 2 ≤ n && n ≤ 502
  checks := fun _ p s =>
    [ (p.len != 2 + p.w 2 / 8, .badLength),
      (p.w 2 < 8 || 4000 < p.w 2 || p.w 2 % 8 != 0 || p.w 1 % 8 != 0 || maxImage < p.w 1 + p.w 2 || p.w 3 != 0
        || p.f 0 1 7 != 0 || p.f 0 9 23 != 0, .badParam),
      (!p.b 0 8 && s.sec.stageSlot.any (· != p.f 0 0 1), .badParam),
      (installRuns s, .busy) ]
  act := fun _ p s =>
    let old := if p.b 0 8 then [] else s.sec.stage
    reply [] (modSec (fun x => { x with
      stage := Mem.writeBytes old 0xFF (p.w 1) (slice p.bytes 16 (p.w 2)), stageSlot := some (p.f 0 0 1) }) s)

/-- IMAGE_INSTALL (R437, R440, R442). (DEDUCED, log 45) -/
def imageInstallDef : CmdDef where
  opcode := 0x0B01
  owner := true
  objs := Obj.isDevice
  len := fun n => n == 1
  checks := fun _ p s =>
    [ (p.f 0 1 7 != 0 || p.f 0 9 23 != 0 || p.w 1 != 0, .badParam),
      (installing s (p.f 0 0 1) || intakeInstalls s (p.f 0 0 1), .busy),
      (opLimitReached p s, .noResource),
      (!p.force && slotValid s (p.f 0 0 1) && !slotValid s (1 - p.f 0 0 1), .versionRefused) ]
  act := fun _ p s => startOp 0x0B01 p (.imageInstall (p.f 0 0 1) (p.b 0 8)) (if p.b 0 8 then 1 else 3) 0 s

/-- IMAGE_INFO (R438). -/
def imageInfoDef : CmdDef where
  opcode := 0x0B02
  owner := true
  host := true
  longResult := true
  len := fun n => n == 1
  checks := fun _ p _ => [(p.f 0 1 31 != 0 || p.w 1 != 0, .badParam)]
  act := fun _ p s =>
    let k := p.f 0 0 1
    let h := slotHeader s k
    let running := s.glb.fwRuns && s.sec.slot == k
    replyLong ([s.sec.info[slotIx k] + b2n running * 256 + b2n (installing s k || intakeInstalls s k) * 512 + attempts s k * 65536, 0,
      hdr h 8 4, hdr h 0xC 4, hdr h 0x10 4, hdr h 0x14 4 % 4, s.nv.minVersion, 0,
      hdr h 0x30 4, hdr h 0x34 4, hdr h 0x38 4, hdr h 0x3C 4]) s

/-- COMMIT_VERSION (R432, R442). -/
def commitVersionDef : CmdDef where
  opcode := 0x0B03
  owner := true
  objs := Obj.isDevice
  checks := fun _ _ s => [(s.sec.version ≤ s.nv.minVersion, .versionRefused)]
  act := fun _ p s =>
    let other := 1 - s.sec.slot % 2
    let s1 := recheck 1 (recheck 0 (modNv (fun v => { v with minVersion := s.sec.version }) s))
    let lost := slotReason s other true != 7 && slotReason s1 other true == 7
    reply [s.nv.minVersion, s.sec.version, b2n lost] (extend 5 (Config.sha384 (packetBytes 0x0B03 p)) s1)

/-- A slot backs a revocation: it holds a valid image signed by another index, and no install runs on it (R435, R442). -/
def backsRevoke (s : State) (k slot : Nat) : Bool :=
  slotValid s slot && hdr (slotHeader s slot) 0x14 4 % 4 != k && !installing s slot && !intakeInstalls s slot

/-- REVOKE_KEY (R435). -/
def revokeKeyDef : CmdDef where
  opcode := 0x0B04
  owner := true
  objs := Obj.isDevice
  len := fun n => n == 1
  checks := fun _ p s =>
    [ (p.f 0 2 30 != 0 || p.w 1 != 0, .badParam),
      (!p.force && !(backsRevoke s (p.f 0 0 2) 0 && backsRevoke s (p.f 0 0 2) 1), .versionRefused),
      (!((upFrom 0 4).any fun i => i != p.f 0 0 2 && keyGood s i), .versionRefused) ]
  act := fun _ p s =>
    let s1 := recheck 1 (recheck 0 (modNv (fun v => { v with revoked := setBitAt v.revoked (p.f 0 0 2) true }) s))
    reply [b2n (s.sec.keyIndex == p.f 0 0 2)] (extend 5 (Config.sha384 (packetBytes 0x0B04 p)) s1)

/-- OWNER_KEY_PROVISION (R434): the digest is burned, then the provisioned bit; whether both read back is open. (DEDUCED, log 38, 47) -/
def ownerKeyProvisionDef : CmdDef where
  opcode := 0x0B05
  owner := true
  gate := .maint
  objs := Obj.isDevice
  len := fun n => n == 337
  checks := fun _ p s =>
    [ (p.f 0 0 2 < 2 || p.f 0 2 30 != 0 || p.w 1 != 0, .badParam),
      (bitAt s.nv.provisioned (p.f 0 0 2) || bitAt s.nv.revoked (p.f 0 0 2) || keyFaulty s (p.f 0 0 2), .versionRefused) ]
  act := fun _ p s =>
    let k := p.f 0 0 2
    let d := Config.sha384 (slice p.bytes 8 0xA80)
    let good := freshNat s % 2 == 0
    let s1 := modNv (fun v => { v with keyDigests := vset v.keyDigests ⟨k % 4, Nat.mod_lt _ (by decide)⟩ d }) (drawn1 s)
    if good then reply [] (extend 5 (Config.sha384 (packetBytes 0x0B05 p)) (modNv (fun v => { v with provisioned := setBitAt v.provisioned k true }) s1))
    else { state := internalFault 0x0B05 p (extend 5 (Config.sha384 (packetBytes 0x0B05 p)) s1), status := .internalFault }

/-- MEASUREMENT_READ (R447). -/
def measurementReadDef : CmdDef where
  opcode := 0x0B06
  owner := true
  host := true
  longResult := true
  len := fun n => n == 1
  checks := fun _ p _ => [(p.f 0 0 16 == 0 || p.f 0 16 16 != 0 || p.w 1 != 0, .badParam)]
  act := fun _ p s =>
    let one (i : Fin 16) : List Nat := words8 (s.sec.mrs[i]) ++ [s.sec.extends_[i], 0, 0, 0]
    replyLong (((List.finRange 16).filter fun i => p.b 0 i.val).flatMap one) s
where
  /-- Forty-eight bytes as twelve words. -/
  words8 (l : List Byte) : List Nat := (upFrom 0 12).map fun k => leNat (slice l (4 * k) 4)

/-- IMAGE_STAGE. -/
def execImageStage (p : Packet) (s : State) : Host.Outcome State Fault Refusal := .next (runCmd imageStageDef (.imageStage p) p s)
/-- IMAGE_INSTALL. -/
def execImageInstall (p : Packet) (s : State) : Host.Outcome State Fault Refusal := .next (runCmd imageInstallDef (.imageInstall p) p s)
/-- IMAGE_INFO. -/
def execImageInfo (p : Packet) (s : State) : Host.Outcome State Fault Refusal := .next (runCmd imageInfoDef (.imageInfo p) p s)
/-- COMMIT_VERSION. -/
def execCommitVersion (p : Packet) (s : State) : Host.Outcome State Fault Refusal := .next (runCmd commitVersionDef (.commitVersion p) p s)
/-- REVOKE_KEY. -/
def execRevokeKey (p : Packet) (s : State) : Host.Outcome State Fault Refusal := .next (runCmd revokeKeyDef (.revokeKey p) p s)
/-- OWNER_KEY_PROVISION. -/
def execOwnerKeyProvision (p : Packet) (s : State) : Host.Outcome State Fault Refusal := .next (runCmd ownerKeyProvisionDef (.ownerKeyProvision p) p s)
/-- MEASUREMENT_READ. -/
def execMeasurementRead (p : Packet) (s : State) : Host.Outcome State Fault Refusal := .next (runCmd measurementReadDef (.measurementRead p) p s)

end Sys2Proof.Machine
end

