-- ==== Sys2Proof/Machine/XportTx.lean ====
section
/-! DEFINITION. XportTx.lean: the sending side of LRD: what a connection sends next, how a packet is built, acknowledgements, timers and doorbells (R242 to R251, R254 to R261). -/

namespace Sys2Proof.Machine
open Sys2Proof

/-! What is sent next (R254, R255, R259) -/

/-- The next transmission of a connection. -/
inductive TxItem where
  | ack (o : Owed)
  | probe
  | again (p : SentPkt) (acked : Bool)
  | rsp (v : Serve)
  | new (p : SentPkt)
deriving DecidableEq, Repr

/-- The request whose next packet is due: the first not wholly cut; FENCE waits for all earlier ones; DRAINING, and modes in which no work starts, start none (R26, R247, R262). -/
def nextWr (starts : Bool) (c : Conn) : Option LrdWr :=
  match c.sq.find? fun w => w.outcome.isNone && !w.allCut with
  | none => none
  | some w =>
    let first := (c.sq.head?.map (·.serial)) == some w.serial
    if !w.started && (!starts || c.state != 0 || (w.fence && !first)) then none else some w

/-- The next packet of a request (R246). -/
def wrPacket (c : Conn) (w : LrdWr) : SentPkt :=
  let n := if w.op = 3 then 0 else min c.cfg.pmtu (w.len - w.cut)
  { psn := c.nxt, op := w.op, wr := w.serial, off := w.cut, len := n, first := w.cut = 0, last := w.op = 3 ∨ w.len ≤ w.cut + n
    resume := 0, block := none, acked := false, due := false, retxAt := none }

/-- A block verb's packet (R267). -/
def blockPacket (c : Conn) (b : BlockJob) : SentPkt :=
  { psn := c.nxt, op := b.op, wr := 0, off := 0, len := b.payload.length, first := true, last := true, resume := 0, block := some b, acked := false, due := false, retxAt := none }

/-- A new sequenced packet, where the window and RNR allow one (R251, R260). -/
def newPacket (starts : Bool) (c : Conn) : Option SentPkt :=
  if c.cfg.window ≤ sub32 c.nxt c.una ∨ c.rnrHold.isSome then none
  else match c.blocks with
    | b :: _ => some (blockPacket c b)
    | [] => (nextWr starts c).map (wrPacket c)

/-- The next transmission: ACKs and NAKs ahead of data, then PROBE, retransmissions, READ responses and new packets. -/
def nextItem (s : State) (c : Conn) : Option TxItem :=
  if xportStopped s || (!c.resident && !lostCtx c) then none
  else match c.owed with
    | o :: _ => some (.ack o)
    | [] =>
      if c.state = 2 then none
      else if c.probe then some .probe
      else if !paced s c then none
      else match c.sent.find? (fun p => p.due && !p.acked), c.resend, c.serves, newPacket (workRuns s) c with
        | some p, _, _, _ => some (.again p false)
        | none, p :: _, _, _ => some (.again p true)
        | none, [], v :: _, _ => some (.rsp v)
        | none, [], [], some p => some (.new p)
        | none, [], [], none => none

/-- Payload bytes of a READ_RSP. -/
def rspLen (c : Conn) (v : Serve) : Nat := min c.cfg.pmtu (v.len - v.next)

/-- Frame bytes of a transmission, without FCS. -/
def itemLen (c : Conn) : TxItem → Nat
  | .ack _ => lrdFrameLen c.cfg 0x10 0
  | .probe => lrdFrameLen c.cfg 0x12 0
  | .again p _ => lrdFrameLen c.cfg p.op p.len
  | .rsp v => lrdFrameLen c.cfg 0x04 (rspLen c v)
  | .new p => lrdFrameLen c.cfg p.op p.len

/-! Building (R243 to R246) -/

/-- The extension of a sequenced packet (R245). -/
def seqExt (c : Conn) (p : SentPkt) : List Byte :=
  match p.block with
  | some b => match b.op with
    | 0x20 => beBytes 4 b.tag ++ beBytes 4 b.nsid ++ beBytes 8 b.lba ++ beBytes 4 (b.blocks * 65536 + b2n b.atomic * 2 + b2n b.fua) ++ beBytes 4 b.cmdBlocks
    | 0x21 => beBytes 4 b.tag ++ beBytes 4 b.nsid ++ beBytes 8 b.lba ++ beBytes 4 b.cmdBlocks
    | _ => beBytes 4 b.tag ++ beBytes 4 b.nsid
  | none => match c.sq.find? fun w => w.serial = p.wr with
    | none => []
    | some w => match p.op with
      | 0x01 => beBytes 4 w.ssn ++ beBytes 4 (w.len * 65536 + p.off)
      | 0x02 => beBytes 4 c.wkey ++ beBytes 4 ((w.remote + p.off) / 2 ^ 32 % 65536) ++ beBytes 4 ((w.remote + p.off) % 2 ^ 32)
      | _ => beBytes 4 c.wkey ++ beBytes 4 (w.remote / 2 ^ 32 % 65536) ++ beBytes 4 (w.remote % 2 ^ 32) ++ beBytes 4 w.len ++ beBytes 4 p.resume

/-- FLAGS of a sequenced packet but ENC (R243, R255). -/
def seqFlags (p : SentPkt) (retx fills : Bool) : Nat := b2n (p.last || retx || fills) * 64 + b2n p.first * 32 + b2n p.last * 16 + b2n retx * 8

/-- The order key and the source of a connection's packets (R151, R191). -/
def connPkt (k : Nat) (c : Conn) (port cls : Nat) (hods : List Nat) (psn : Option Nat) (bs : List Byte) (tile : Option (TileJob × Nat)) (c64 turn : Nat) (s : State) : Pkt :=
  { Pkt.empty with
    bytes := bs, hods := hods, port := port, origin := .conn k psn, order := connNo k % 4096, cls := cls, tile := tile, conn := k, sel := c64, turn := turn
    vec := { FieldVec.empty with source := connNo k % 65536 }, epoch := s.epochs.epoch, mark := c.cfg.cls }

/-- A packet of a connection enters its transmit pipeline; its hods hold it. -/
def sendPkt (k : Nat) (p : Pkt) (s : State) : State := sendOn { p with pipe := pipeFor s true p.port (connNo k % 2) } (storeHods p.hods p.bytes s)

/-- A packet built and sent: `c64` is the counter C of its nonce. -/
def buildAndSend (k op flags psn port cls c64 turn : Nat) (ext payload : List Byte) (hods : List Nat) (s : State) : State :=
  match conn s k with
  | none => freeHods hods s
  | some c =>
    let bs := buildLrd c.cfg s.ctx.cfg.udpPort (connNo k) s.drawn op flags psn (dtime32 s) ext payload
    let tile := match c.cfg.enc && carriesData op, c.key with
      | true, some slot => some (TileJob.lrdOut, slot)
      | _, _ => none
    sendPkt k (connPkt k c port cls hods (if sequenced op then some psn else none) bs tile c64 turn s)
      (modConn k (fun c => { c with statSent := satAdd 0xFFFFFFFF c.statSent 1, probed := false }) (drawn1 s))

/-- The extended PSN of a packet at or below NXT (R347). -/
def sendExt (c : Conn) (psn : Nat) : Nat := extBelow c.sendWraps c.nxt psn

/-- A sequenced packet is recorded as sent: a new one takes NXT and moves its request on. -/
def noteSent (p : SentPkt) (c : Conn) : Conn :=
  { c with
    nxt := add32 c.nxt 1, sendWraps := if c.nxt = 0xFFFFFFFF then c.sendWraps + 1 else c.sendWraps
    sent := c.sent ++ [p]
    blocks := if p.block.isSome then c.blocks.drop 1 else c.blocks
    ssn := if p.op = 1 ∧ p.last then add32 c.ssn 1 else c.ssn
    sq := c.sq.map fun w => if w.serial = p.wr ∧ p.block.isNone then
        { w with started := true, cut := w.cut + p.len, allCut := p.last, psn := if p.first then p.psn else w.psn, ssn := if p.first then c.ssn else w.ssn }
      else w }

/-- The local address of a packet's payload. -/
def payloadAddr (c : Conn) (p : SentPkt) : Nat := ((c.sq.find? fun w => w.serial = p.wr).map (·.addr)).getD 0 + p.off

/-- A payload is read from host memory, or the packet is sent at once: a block verb's payload is at hand, and some packets have none. -/
def launch (k : Nat) (p : SentPkt) (rsp : Option Nat) (retx fills : Bool) (port cls turn : Nat) (hods : List Nat) (s : State) : State :=
  match conn s k with
  | none => freeHods hods s
  | some c =>
    if p.block.isSome ∨ p.len = 0 then
      buildAndSend k p.op (seqFlags p retx fills) p.psn port cls (nonceSeq (sendExt c p.psn)) turn (seqExt c p) ((p.block.map (·.payload)).getD []) hods s
    else match c.owner with
      | none => freeHods hods s
      | some o =>
        let j : TxJob := { serial := c.jobSerial, pkt := { p with due := fills }, rsp := rsp, hods := hods, port := port, cls := cls, retx := retx, turn := turn }
        issueRead (ownerFn o).1 (ownerFn o).2 (.lrdData (connDom k) (connNo k) c.jobSerial) (modConn k (fun c => { c with jobs := c.jobs ++ [j], jobSerial := c.jobSerial + 1 }) s)

/-- A due retransmission is taken. -/
def noteAgain (p : SentPkt) (acked : Bool) (c : Conn) : Conn :=
  { c with
    statRetx := satAdd 0xFFFFFFFF c.statRetx 1
    resend := if acked then c.resend.drop 1 else c.resend
    sent := if acked then c.sent else c.sent.map fun x => if x.psn = p.psn then { x with due := false } else x }

/-- A READ_RSP's bytes are taken; a response whose last read has been issued ends (R253). (DEDUCED, log 62) -/
def noteRsp (v : Serve) (n : Nat) (c : Conn) : Conn :=
  { c with serves := if v.len ≤ v.next + n then c.serves.drop 1 else c.serves.map fun x => if x.psn = v.psn then { x with next := v.next + n } else x }

/-- A selected transmission leaves, its hods being charged (R254 to R256, R259). -/
def sendItem (k : Nat) (i : TxItem) (port cls turn : Nat) (hods : List Nat) (s : State) : State :=
  match conn s k with
  | none => freeHods hods s
  | some c =>
    match i with
    | .ack o =>
      let s1 := modConn k (fun c => { c with owed := c.owed.drop 1, execUnacked := 0 }) s
      buildAndSend k (if o.code = 0 then 0x10 else 0x11) 0 c.base port cls 0 turn (ackExt o (dtime32 s) c.base c.executed) [] hods (countX k (if o.code = 0 then 2 else 3) s1)
    | .probe => buildAndSend k 0x12 0 (sub32 c.nxt 1) port cls 0 turn [] [] hods (countX k 16 (modConn k (fun c => { c with probe := false }) s))
    | .again p acked => launch k p none true false port cls turn hods (payPacer k (itemLen c i + 24) (countX k 1 (modConn k (noteAgain p acked) s)))
    | .rsp v =>
      let n := rspLen c v
      let p : SentPkt := { psn := v.psn, op := 0x04, wr := 0, off := v.next, len := n, first := v.next = 0, last := v.len ≤ v.next + n, resume := 0, block := none, acked := false, due := false, retxAt := none }
      let s1 := payPacer k (itemLen c i + 24) (countX k 0 (modConn k (noteRsp v n) s))
      match n, c.owner with
      | 0, _ => freeHods hods s1
      | _, none => freeHods hods s1
      | _, some o =>
        let j : TxJob := { serial := c.jobSerial, pkt := { p with resume := v.off + v.next }, rsp := some v.ext, hods := hods, port := port, cls := cls, retx := false, turn := turn }
        issueRead (ownerFn o).1 (ownerFn o).2 (.lrdData (connDom k) (connNo k) c.jobSerial) (modConn k (fun c => { c with jobs := c.jobs ++ [j], jobSerial := c.jobSerial + 1 }) s1)
    | .new p =>
      let fills := c.cfg.window ≤ sub32 c.nxt c.una + 1
      launch k p none false fills port cls turn hods (payPacer k (itemLen c i + 24) (countX k 0 (modConn k (noteSent p) s)))

/-- A payload read returns: the packet is built and sent, or the connection fails with QUEUE_FAULT (R264). -/
def lrdDataDone (k serial : Nat) (st : CplStatus) (data : List Byte) (s : State) : State :=
  match conn s k with
  | none => s
  | some c => match c.jobs.find? fun j => j.serial = serial with
    | none => s
    | some j =>
      let s1 := modConn k (fun c => { c with jobs := c.jobs.filter fun x => x.serial != serial }) s
      if st ≠ .ok then connError k 11 6 c.una 6 (freeHods j.hods s1)
      else match j.rsp with
        | some e => buildAndSend k 0x04 (b2n j.pkt.first * 32 + b2n j.pkt.last * 16) j.pkt.psn j.port j.cls (nonceRsp j.pkt.off c.cfg.pmtu e) j.turn (beBytes 4 j.pkt.off) (data.take j.pkt.len) j.hods s1
        | none => buildAndSend k j.pkt.op (seqFlags j.pkt j.retx j.pkt.due) j.pkt.psn j.port j.cls (nonceSeq (sendExt c j.pkt.psn)) j.turn (seqExt c j.pkt) (data.take j.pkt.len) j.hods s1

/-! Acknowledgement (R257, R259) -/

/-- A PSN stands before another in the window from UNA. -/
def before (una a b : Nat) : Bool := sub32 a una < sub32 b una

/-- PSNs below BASE leave; those SACKed are acknowledged. -/
def ackPkts (base : Nat) (sack : List Nat) (c : Conn) : Conn :=
  let bit (psn : Nat) : Bool :=
    let i := sub32 psn base
    1 ≤ i && i ≤ 256 && bitAt (sack.getD ((i - 1) / 32) 0) (31 - (i - 1) % 32)
  { c with
    una := base
    sent := (c.sent.filter fun p => !before c.una p.psn base).map fun p => if bit p.psn then { p with acked := true, due := false } else p }

/-- PSNs that three higher SACKed PSNs pass are sent again, once, and again SRTT later (R259). (DEDUCED, log 63) -/
def fastRetx (k : Nat) (s : State) : State :=
  match conn s k with
  | none => s
  | some c =>
    let now := dtimeNs s
    let due (p : SentPkt) : Bool := !p.acked && !p.due && 3 ≤ (c.sent.filter fun q => q.acked && before c.una p.psn q.psn).length
      && (match p.retxAt with
        | none => true
        | some t => t + c.srtt ≤ now)
    let n := (c.sent.filter due).length
    count 0x08 0 (32 * connDom k + 15) n (modConn k (fun c => { c with sent := c.sent.map fun p => if due p then { p with due := true, retxAt := some now } else p }) s)

/-- An ACK's or NAK's acknowledgement (R257). -/
def ackRx (k : Nat) (p : LrdPkt) (s : State) : State :=
  match conn s k with
  | none => s
  | some c =>
    let a := sub32 p.psn c.una
    let sample := sub32 (sub32 (dtime32 s) (p.e 0)) (p.e 1 % 2 ^ 24)
    if a < 2 ^ 31 ∧ sub32 c.nxt c.una < a then countX k 13 s
    else
      let s1 := rttSample k sample s
      if 2 ^ 31 ≤ a then s1
      else
        let s2 := modConn k (fun c =>
          let c1 := ackPkts p.psn (p.ext.drop 3) c
          if a = 0 then c1 else { c1 with backoff := 1, timeouts := 0 }) s1
        settleWrs k (fastRetx k (modConn k (fun c => { c with probed := false }) s2))

/-- The cause a fatal NAK gives its receiver (R261). -/
def nakCause : Nat → Nat
  | 2 => 3 | 3 => 4 | 4 => 5 | 5 => 6 | _ => 7

/-- A NAK RNR (R260). -/
def rnrNak (k psn : Nat) (s : State) : State :=
  match conn s k with
  | none => s
  | some c =>
    let n := if c.rnrPsn = psn ∧ c.rnrCount ≠ 0 then c.rnrCount + 1 else 1
    if s.ctx.cfg.rnrRetry ≠ 15 ∧ s.ctx.cfg.rnrRetry < n then connError k 2 1 psn 6 s
    else modConn k (fun c => { c with rnrHold := some psn, rnrPsn := psn, rnrCount := n, sent := c.sent.map fun p => if before c.una p.psn psn then p else { p with due := false } }) s

/-- LRD_ACK_RX (R257). -/
def execLrdAckRx (d : Domain) (n : ConnNo) (s : State) : Host.Outcome State Fault Refusal :=
  .next (match takeInbox (rowKey d n) 0x10 s with
    | none => s
    | some (p, s1) => ackRx (rowKey d n) p (countX (rowKey d n) 11 s1))

/-- LRD_NAK_RX (R257, R260, R261): a fatal NAK acts only when its PSN lies in [UNA, NXT), or for NO_CONNECTION and ERROR_STATE when DST_GEN matched. -/
def lrdNakRx (d : Domain) (n : ConnNo) (s : State) : State :=
  let k := rowKey d n
  match takeInbox k 0x11 s with
    | none => s
    | some (p, s1) =>
      let code := p.e 1 / 2 ^ 24
      let s2 := countX k 12 s1
      match conn s2 k with
      | none => s2
      | some c =>
        let inWindow := before c.una (p.e 2) c.nxt
        if code = 5 ∨ code = 6 then connError k (nakCause code) code (p.e 2) 0 s2
        else
          let s3 := ackRx k p s2
          if code = 1 then rnrNak k (p.e 2) s3
          else if inWindow then connError k (nakCause code) code (p.e 2) 0 s3
          else countX k 13 s3

/-- The READ a READ_RSP answers: outstanding, under the PSN of its request (R254). -/
def rspWr (c : Conn) (p : LrdPkt) : Option LrdWr := c.sq.find? fun w => w.op == 3 && w.started && w.outcome.isNone && w.psn == p.psn

/-- LRD_READ_RSP_RX (R254, R258): the bytes are written at LOCAL_ADDR + RSP_OFFSET, or the packet is stray. -/
def execLrdReadRspRx (d : Domain) (n : ConnNo) (s : State) : Host.Outcome State Fault Refusal :=
  let k := rowKey d n
  .next (match takeInbox k 0x04 s with
    | none => s
    | some (p, s1) => match conn s1 k with
      | none => s1
      | some c => match rspWr c p, c.owner with
        | some w, some o =>
          if w.len < p.e 0 + p.len then countX k 18 s1
          else settleWrs k (emit (.hostWrite (ownerFn o).1 (ownerFn o).2 (w.addr + p.e 0) p.payload)
            (modConn k (fun c => { c with backoff := 1, timeouts := 0, sq := c.sq.map fun x => if x.serial = w.serial then { x with got := x.got ++ [(p.e 0, p.e 0 + p.len)] } else x }) s1))
        | _, _ => countX k 18 s1)

/-! Timers (R258 to R260) -/

/-- The lowest unacknowledged PSN is sent again; else the oldest READ whose response is incomplete, from its lowest missing byte. -/
def retransmit (c : Conn) : Conn :=
  match c.sent.find? fun p => !p.acked with
  | some p => { c with sent := c.sent.map fun x => if x.psn = p.psn then { x with due := true } else x }
  | none => match c.sq.find? fun w => w.op == 3 && w.started && w.outcome.isNone with
    | none => c
    | some w =>
      let r : SentPkt := ⟨w.psn, 3, w.serial, 0, 0, true, true, lowestMissing (w.got.length + 1) 0 w.got, none, true, true, none⟩
      { c with resend := c.resend ++ [r] }

/-- LRD_RETRANSMIT_TIMER (R258, R260, R289). -/
def lrdRetransmitTimer (d : Domain) (n : ConnNo) (s : State) : State :=
  let k := rowKey d n
  match conn s k with
    | none => s
    | some c =>
      if xportStopped s || c.state == 2 || drained c then s
      else
        let s1 := countX k 14 s
        if s.ctx.cfg.retryLimit < c.timeouts + 1 then connError k 1 6 c.una 6 s1
        else modConn k (fun c =>
          let c1 := retransmit { c with backoff := c.backoff * 2, timeouts := c.timeouts + 1 }
          if c.cfg.ccOff then c1 else { c1 with rate := max c.cfg.minRate (c.rate / 2), lastAdj := dtimeNs s }) s1

/-- LRD_PROBE_TIMER (R259): one PROBE with data outstanding and no ACK since the last transmission. -/
def execLrdProbeTimer (d : Domain) (n : ConnNo) (s : State) : Host.Outcome State Fault Refusal :=
  let k := rowKey d n
  .next (match conn s k with
    | none => s
    | some c => if xportStopped s || c.state == 2 || c.una == c.nxt || c.probed then s
        else fastRetx k (modConn k (fun c => { c with probe := true, probed := true }) s))

/-- LRD_RNR_TIMER (R260): the unacknowledged PSNs from NAK_PSN are resent. -/
def execLrdRnrTimer (d : Domain) (n : ConnNo) (s : State) : Host.Outcome State Fault Refusal :=
  let k := rowKey d n
  .next (match conn s k with
    | none => s
    | some c => match c.rnrHold with
      | none => s
      | some psn => if xportStopped s then s else modConn k (fun c => { c with
          rnrHold := none, sent := c.sent.map fun p => if !p.acked && !before c.una p.psn psn then { p with due := true } else p }) s)

/-! Doorbells (R102, R247, R284) -/

/-- A queue of a connection. -/
def connQueue (s : State) (c : Conn) (q : Nat) : Option Queue :=
  match c.owner with
  | none => none
  | some o => queue s (ownerFn o).1 (ownerFn o).2 q

/-- The requests R247 completes with LENGTH_ERR. -/
def wrBad (op len : Nat) : Bool := !(op == 1 || op == 2 || op == 3) || (op == 1 && 65472 < len) || (op != 1 && (len == 0 || 2 ^ 30 < len))

/-- A work request as taken from its slot. -/
def wrOf (serial index : Nat) (w : WorkRequest) (failed : Bool) : LrdWr :=
  let x (i : Nat) : Nat := (w.words.getD i 0).toNat
  let op := bitsAt (x 3) 0 4
  { serial := serial, index := index, op := op, addr := x 0 + x 1 * 2 ^ 32, len := x 2, fence := bitAt (x 3) 5, signal := bitAt (x 3) 4
    remote := x 4 + x 5 % 65536 * 2 ^ 32, cookie := x 7, ssn := 0, psn := 0, cut := 0, started := false, allCut := false
    outcome := if failed then some 4 else if wrBad op (x 2) then some 1 else none, got := [] }

/-- New slots of a doorbell, and the undefined values of R102. -/
def newSlots (q : Queue) (v : Nat) : Option Nat :=
  let n := v % 2 ^ 15
  if qSize q ≤ n ∨ qSize q ≤ (q.doorbell + qSize q - q.head) % qSize q + (n + qSize q - q.doorbell) % qSize q then none
  else some ((n + qSize q - q.doorbell) % qSize q)

/-- Work requests taken from the SQ's new slots. -/
def takeWrs (k : Nat) (q : Queue) (ws : List WorkRequest) (s : State) : State :=
  let step (s : State) (iw : Nat × WorkRequest) : State :=
    modConn k (fun c => { c with sq := c.sq ++ [wrOf c.wrSerial ((q.doorbell + iw.1) % qSize q) iw.2 (c.state == 2)], wrSerial := c.wrSerial + 1 }) s
  ((upFrom 0 ws.length).zip ws).foldl step s

/-- LRD_SQ_DOORBELL (R102, R247, R262, R264, R284): a read that fails fails the connection; a context that is not on chip is fetched. -/
def execLrdSqDoorbell (d : Domain) (n : ConnNo) (v : Word) (wrs : List WorkRequest) (s : State) : Host.Outcome State Fault Refusal :=
  let k := rowKey d n
  match conn s k with
  | none => .next s
  | some c => match connQueue s c c.cfg.sq with
    | none => .next s
    | some q => match newSlots q v.toNat with
      | none => .refused (.undefinedCase 102)
      | some new =>
        let ws := wrs.take new
        let s1 := modConnQueue c c.cfg.sq (fun q => { q with doorbell := v.toNat % 2 ^ 15, fetched := v.toNat % 2 ^ 15 }) s
        let s2 := settleWrs k (takeWrs k q (ws.filter (·.readOk)) s1)
        if ws.any (fun w => !w.readOk) then .next (connError k 11 6 c.una 6 s2)
        else .next (if c.resident || c.state == 2 then s2 else missFetch k s2)

/-- LRD_RQ_DOORBELL (R102, R247): buffers of a connection in ERROR are FLUSHED. -/
def execLrdRqDoorbell (d : Domain) (n : ConnNo) (v : Word) (bufs : List RecvBuffer) (s : State) : Host.Outcome State Fault Refusal :=
  let k := rowKey d n
  match conn s k with
  | none => .next s
  | some c => match connQueue s c c.cfg.rq with
    | none => .next s
    | some q => match newSlots q v.toNat with
      | none => .refused (.undefinedCase 102)
      | some new =>
        let bs := bufs.take new
        let mk (b : RecvBuffer) : RxBuf :=
          let x (i : Nat) : Nat := (b.words.getD i 0).toNat
          { addr := x 0 + x 1 * 2 ^ 32, len := x 2 % 65536, cookie := x 3 }
        let posted := (bs.filter (·.readOk)).map mk
        let s1 := modConnQueue c c.cfg.rq (fun q => { q with doorbell := v.toNat % 2 ^ 15, fetched := v.toNat % 2 ^ 15 }) s
        let s2 := if c.state = 2 then flushRq c q.doorbell posted s1 else modConn k (fun c => { c with rq := c.rq ++ posted }) s1
        .next (if bs.any (fun b => !b.readOk) then connError k 11 6 c.una 6 s2 else s2)

end Sys2Proof.Machine
end

