-- ==== Sys2Proof/Machine/Deliver.lean ====
section
/-! DEFINITION. Deliver.lean: where packets wait for a link: selection through the scheduler trees, transmit data reads, departures, and receive leaves (R101, R119, R132, R206, R211, R216 to R225, R229, R235). -/

namespace Sys2Proof.Machine
open Sys2Proof

/-- Packets move in this mode (the mode table before R26). -/
def pathsRun (s : State) : Bool := workRuns s || s.glb.mode == .quiesce

/-! The head of a transmit queue (R224, R229) -/

/-- The head packet of a TXQ has become known: its leaf has backlog, and its LAUNCH is looked at once. -/
def knowHead (h : HostId) (f : Fn) (q : Nat) (s : State) : State :=
  match queue s h f q with
  | none => s
  | some x => match x.ready with
    | [] => s
    | t :: r =>
      let s1 := match queuePath s h 0 f q with
        | none => s
        | some (_, path) => path.foldl (fun s n => activate n s) s
      match t.launch with
      | none => s1
      | some l =>
        let d := (l + 2 ^ 32 - dtimeNs s % 2 ^ 32) % 2 ^ 32
        let s2 := modQueue h f q (fun x => { x with ready := { t with launch := none } :: r }) s1
        if d = 0 ∨ 2 ^ 31 ≤ d then (if d = 0 then s2 else count 0x07 0 0x30001 1 s2) else park (leafNode h 0 f q) d true s2

/-- TX_DESCRIPTOR_READ_DONE (R98): the outstanding descriptor read of the queue returns. -/
def execTxDescriptorReadDone (h : HostId) (f : Fn) (q : BitVec 16) (d : TxDescr) (s : State) : Host.Outcome State Fault Refusal :=
  .next (match findRead s h fun g p => g == f && p == .txDescr q.toNat with
    | none => s
    | some r => knowHead h f q.toNat (txDescrDone h f q.toNat d.status d.bytes (endRead h r.tag s)))

/-! Candidates of a transmit tree -/

/-- What a leaf of a transmit tree holds at its head. -/
inductive TxSrc where
  | txq (h : HostId) (f : Fn) (q : Nat) (t : TxPkt) (cls : Nat)
  | conn (k : Nat) (i : TxItem)
  | forward (c : Nat) (k : Pkt)
deriving DecidableEq, Repr

/-- A transmit candidate: its whole path, its length without FCS, and its choice data (R220). -/
structure TxCand where
  src : TxSrc
  path : List PathNode
  len : Nat
  cand : Cand
deriving DecidableEq, Repr

/-- A candidate of a port at a leaf with its base class. -/
def txCand (s : State) (port leaf base len : Nat) (path : List PathNode) (src : TxSrc) : TxCand :=
  let e := effectiveClass base len ((policerSet s.sched.top.top (32840 + port)).1 == 0) (path.map (·.permit))
  { src := src, path := path, len := len, cand := { leaf := leaf, path := path.drop 1, cls := e.1, demoted := e.2, bytes := len + 24 } }

/-- A TXQ may be served: it has a packet, work starts in this mode, its function may read, and neither LAUNCH nor a refused charge holds it. -/
def txqServed (s : State) (h : HostId) (f : Fn) (q : Nat) (x : Queue) : Bool :=
  x.kind == 1 && !x.failed && !x.hodWait && !x.ready.isEmpty && workRuns s && canIssue s h f && !isParked s (leafNode h 0 f q) true

/-- The TXQs a port may serve. -/
def txqCands (s : State) (port : Nat) : List TxCand :=
  s.queues.flatMap fun e =>
    let h := hostOfKey (e.1 / 65536)
    let f := fnOfIndex (e.1 / 65536 % 1024)
    let q := e.1 % 65536
    match txqServed s h f q e.2, e.2.ready, queuePath s h 0 f q with
    | true, t :: _, some (root, path) => if root = port then [txCand s port (leafNode h 0 f q) e.2.cls t.len path (.txq h f q t e.2.cls)] else []
    | _, _, _ => []

/-- TXQs with work whose group is not valid (R217). (DEDUCED, log 59) -/
def groupless (s : State) : Nat :=
  (s.queues.filter fun e =>
    let h := hostOfKey (e.1 / 65536)
    let f := fnOfIndex (e.1 / 65536 % 1024)
    txqServed s h f (e.1 % 65536) e.2 && (queuePath s h 0 f (e.1 % 65536)).isNone).length

/-- The leaf of a storage connection under the forwarding node of a port. (DEDUCED, log 59) -/
def storageLeaf (k : Nat) : Nat := 9 * 2 ^ 40 + k
/-- The port of a storage connection: that of the target that uses it. -/
def storagePort (s : State) (k : Nat) : Option Nat := (s.nvme.targets.find? fun t => t.2.conn = k).map fun t => t.2.port

/-- The leaf and path of a connection's send side. -/
def connPath (s : State) (k : Nat) (c : Conn) : Option (Nat × Nat × List PathNode) :=
  match c.owner with
  | some o =>
    let h := (ownerFn o).1
    let f := (ownerFn o).2
    let waits := match queue s h f c.cfg.sq with
      | none => false
      | some x => x.hodWait
    if waits || !canIssue s h f then none else (queuePath s h 0 f c.cfg.sq).map fun r => (leafNode h 0 f c.cfg.sq, r.1, r.2)
  | none => (storagePort s k).map fun p => (storageLeaf k, p, (forwardPath s p 0).take 2 ++ [⟨storageLeaf k, 1, 0, 0, 0xFF⟩])

/-- The connections a port may serve. (DEDUCED, log 59) -/
def connCands (s : State) (port : Nat) : List TxCand :=
  s.ctx.conns.flatMap fun e => match nextItem s e.2, connPath s e.1 e.2 with
    | some i, some (leaf, root, path) =>
      if root = port then [txCand s port leaf (if e.2.owner.isNone then min e.2.cfg.cls 6 else e.2.cfg.cls) (itemLen e.2 i) path (.conn e.1 i)] else []
    | _, _ => []

/-- The forwarding queues of a port. -/
def forwardCands (s : State) (port : Nat) : List TxCand :=
  (upFrom 0 7).flatMap fun c => match Tbl.getD s.sched.forward (port * 8 + c) [] with
    | [] => []
    | k :: _ => [txCand s port (nodeFwd port c) c k.bytes.length (forwardPath s port c) (.forward c k)]

/-- Every candidate of a port. -/
def txCands (s : State) (port : Nat) : List TxCand :=
  if pathsRun s then txqCands s port ++ connCands s port ++ forwardCands s port else []

/-- A candidate of classes 0 to 6 may be served: its shapers and the port's INFLIGHT allow it (R221, R223). -/
def lowEligible (s : State) (port : Nat) (x : TxCand) : Bool :=
  x.cand.cls != 7 && x.path.all (eligible s) && Tbl.getD s.sched.inflight port 0 < (topNode s.sched.top.top 0 port).inflight * 1024

/-- The class 7 limiter of a port as a shaper: its node, rate and burst (R227). -/
def portLimiter (s : State) (port : Nat) : PathNode :=
  ⟨nodeLimit port, 1, limiterRate s s.sched.top.top (32840 + port), (policerSet s.sched.top.top (32840 + port)).2, 0xFF⟩

/-- The choice data of candidates. -/
def candsOf (l : List TxCand) : List Cand := l.map TxCand.cand

/-- The selection of a port (R221): a candidate, and the scheduler with the choice noted. -/
def txChoose (s : State) (port : Nat) : Option (TxCand × Sched) :=
  let all := txCands s port
  let root := node0 0 port
  let seven : List TxCand := if eligible s (portLimiter s port) then all.filter (fun x => x.cand.cls == 7) else []
  let low : List TxCand := all.filter (lowEligible s port)
  let chosen := match pick 7 6 root (candsOf seven) s.sched with
    | some r => some r
    | none => match pickClass root (topNode s.sched.top.top 0 port).weights (candsOf low) s.sched with
      | none => none
      | some (c, sc) => pick c 6 root ((candsOf low).filter fun x => x.cls == c) sc
  chosen.bind fun r => (all.find? fun (x : TxCand) => x.cand.leaf = r.1.leaf).map fun x => (x, r.2)

/-! Charging a selection (R224, R225, R227) -/

/-- Every shaper of a path pays; a parking of a node below the root is counted at node k of R237. -/
def chargePath (k bytes : Nat) (path : List PathNode) (s : State) : State :=
  (path.zip (upFrom 0 path.length)).foldl (fun s e =>
    let r := chargeNode e.1.key e.1.rate e.1.burst bytes s
    if r.1 && e.2 != 0 then count 0x07 0 (16 * k + 5) 1 r.2 else r.2) s

/-- Nodes without backlog become empty. -/
def settlePath (busy : Nat → Bool) (path : List PathNode) (s : State) : State :=
  path.foldl (fun s n => if busy n.key || backlogOf s n.key != 0 then s else deactivate n s) s

/-- A class 7 packet is served at node k of R237. (DEDUCED, log 59) -/
def countX7 (k len : Nat) (s : State) : State := count 0x07 0 (16 * k + 1) len (count 0x07 0 (16 * k) 1 s)

/-- A demotion is counted at node k. (DEDUCED, log 55) -/
def countDemoted (k : Nat) (d : Option Nat) (s : State) : State :=
  match d with
  | none => s
  | some i => count 0x07 0 (16 * k + i) 1 s

/-- A selected candidate is counted and charged: its shapers, and the limiter or INFLIGHT. -/
def chargeSelection (port : Nat) (x : TxCand) (s : State) : State :=
  let s1 := chargePath port x.cand.bytes x.path (countDemoted port x.cand.demoted s)
  if x.cand.cls = 7 then
    let l := portLimiter s port
    let r := chargeNode l.key l.rate l.burst x.cand.bytes (countX7 port x.len s1)
    if r.1 then count 0x07 0 (16 * port + 2) 1 r.2 else r.2
  else modSched (fun y => { y with inflight := Tbl.put y.inflight port (Tbl.getD y.inflight port 0 + x.len) }) s1

/-- A selection's serial; a class 7 one takes its turn (R235). -/
def takeTurn (port cls : Nat) (s : State) : Nat × State :=
  let n := s.sched.serial + 1
  (n, modSched (fun y => { y with serial := n, order7 := if cls = 7 then Tbl.put y.order7 port (Tbl.getD y.order7 port [] ++ [n]) else y.order7 }) s)

/-! Hods of a selection (R206, R211) -/

/-- The payer of a function's packets. -/
def fnPayer (h : HostId) : Fn → Payer
  | .vf v => .host h (some v.val)
  | _ => .host h none

/-- The charge a candidate asks for; a forwarded packet has its hods. -/
def txHods (s : State) (x : TxCand) : Except Refused (List Nat × State) :=
  let seven := x.cand.cls == 7
  match x.src with
  | .txq h f _ _ cls => allocHods (fnPayer h f) (cls == 7) seven x.len s
  | .conn k _ => match conn s k with
    | none => .ok ([], s)
    | some c => match c.owner with
      | some o => allocHods (fnPayer (ownerFn o).1 (ownerFn o).2) (c.cfg.cls == 7) seven x.len s
      | none => allocHods .forward false false x.len s
  | .forward _ _ => .ok ([], s)

/-- A queue waits for its charge, counted once (R211). -/
def startHodWait (h : HostId) (f : Fn) (q : Nat) (e : Refused) (s : State) : State :=
  countExhausted e (count 0x06 0 (0x200 + 8 * h.val + 2) 1 (modQueue h f q (fun x => { x with hodWait := true }) s))

/-- A refused charge: the queue waits; a storage connection's packet is dropped, as if it had left (R209, R211). (DEDUCED, log 58) -/
def txRefused (port : Nat) (x : TxCand) (e : Refused) (sc : Sched) (s : State) : State :=
  match x.src with
  | .txq h f q _ _ => startHodWait h f q e s
  | .conn k i => match conn s k with
    | none => s
    | some c => match c.owner with
      | some o => startHodWait (ownerFn o).1 (ownerFn o).2 c.cfg.sq e s
      | none =>
        let s1 := countRefused .forward false e (chargePath port x.cand.bytes x.path { s with sched := sc })
        { sendItem k i port x.cand.cls 0 [] s1 with net := s1.net }
  | .forward _ _ => s

/-- A selected head leaves its leaf with its hods: a TXQ's data is read, a connection builds its packet, a forwarded packet goes to the port. -/
def txLeave (port : Nat) (x : TxCand) (hods : List Nat) (s : State) : State :=
  match x.src with
  | .txq h f q t _ =>
    let (n, s1) := takeTurn port x.cand.cls s
    let r : TxRead := { pkt := t, sel := n, cls := x.cand.cls, port := port, hods := hods }
    knowHead h f q (issueRead h f (.txData q n) (modQueue h f q (fun y => { y with ready := y.ready.drop 1, reading := y.reading ++ [r] }) s1))
  | .conn k i =>
    let (n, s1) := takeTurn port x.cand.cls s
    sendItem k i port x.cand.cls (if x.cand.cls = 7 then n else 0) hods s1
  | .forward c k => queueFrame { k with port := port, cls := c } (modSched (fun y => { y with
      forward := match Tbl.getD y.forward (port * 8 + c) [] with
        | _ :: b :: r => Tbl.put y.forward (port * 8 + c) (b :: r)
        | _ => Tbl.del y.forward (port * 8 + c) }) s)

/-- A port selects its next packet (R221). -/
def selectTx (port : Nat) (s0 : State) : State :=
  let s1 := handOver port (count 0x07 0 0x30003 (groupless s0) s0)
  let cs := txCands s1 port
  let s2 := cs.foldl (fun s x => x.path.foldl (fun s n => activate n s) (if x.cand.cls = 7 then activate (portLimiter s port) s else s)) s1
  match txChoose s2 port with
  | none => s2
  | some (x, sc) => match txHods s2 x with
    | .error e => txRefused port x e sc s2
    | .ok (hods, s3) =>
      let s4 := txLeave port x hods (chargeSelection port x { s3 with sched := sc })
      let left := txCands s4 port
      let s5 := settlePath (fun key => left.any fun y => y.path.any fun n => n.key == key) x.path s4
      if left.any (fun y => y.cand.cls == 7) then s5 else deactivate (portLimiter s5 port) s5

/-! The receive trees (R216, R218, R221) -/

/-- A packet waits at its receive leaf; the nodes above have backlog. -/
def toLeaf (h : HostId) (f : Fn) (q : Nat) (k : Pkt) (s : State) : State :=
  let lk := qKey h f q
  let s1 := modSched (fun x => { x with rx := Tbl.put x.rx lk (Tbl.getD x.rx lk [] ++ [{ k with target := fnKey h f, queue := q }]) }) s
  match queuePath s1 h 1 f q with
  | none => s1
  | some (_, path) => path.foldl (fun s n => activate n s) s1

/-- A receive candidate: its queue, its whole path and its choice data. -/
structure RxCand where
  key : Nat
  pkt : Pkt
  path : List PathNode
  cand : Cand
deriving DecidableEq, Repr

/-- The receive leaves of a host link with a packet that can be delivered now. -/
def rxCands (s : State) (h : HostId) : List RxCand :=
  if !pathsRun s then []
  else s.sched.rx.flatMap fun e =>
    let f := fnOfIndex (e.1 / 65536 % 1024)
    let q := e.1 % 65536
    if hostOfKey (e.1 / 65536) ≠ h ∨ !canIssue s h f then []
    else match e.2, queue s h f q, queuePath s h 1 f q with
      | k :: _, some x, some (_, path) =>
        if x.kind = 2 ∧ !rxKnown x k.bytes.length then []
        else [{ key := e.1, pkt := k, path := path, cand := { leaf := leafNode h 1 f q, path := path.drop 1, cls := k.cls, demoted := none, bytes := k.bytes.length + 24 } }]
      | _, _, _ => []

/-- The selection of a host link. -/
def rxChoose (s : State) (h : HostId) : Option (RxCand × Sched) :=
  let all := rxCands s h
  let root := node0 1 h.val
  let low := (all.filter fun x => x.cand.cls != 7 && x.path.all (eligible s)).map (·.cand)
  let chosen := match pick 7 6 root ((all.map (·.cand)).filter fun x => x.cls == 7) s.sched with
    | some r => some r
    | none => match pickClass root (topNode s.sched.top.top 1 h.val).weights low s.sched with
      | none => none
      | some (c, sc) => pick c 6 root (low.filter fun x => x.cls == c) sc
  chosen.bind fun r => (all.find? fun x => x.cand.leaf = r.1.leaf).map fun x => (x, r.2)

/-- A host link selects its next packet and delivers it (R99, R221, R254). -/
def selectRx (h : HostId) (s : State) : State :=
  match rxChoose s h with
  | none => s
  | some (x, sc) =>
    let s1 := modSched (fun y => { y with rx := match Tbl.getD y.rx x.key [] with
      | _ :: b :: r => Tbl.put y.rx x.key (b :: r)
      | _ => Tbl.del y.rx x.key }) { s with sched := sc }
    let s2 := settlePath (fun _ => false) x.path (chargePath (128 + h.val) x.cand.bytes x.path s1)
    let s3 := if x.cand.cls = 7 then countX7 (128 + h.val) x.pkt.bytes.length s2 else s2
    let f := fnOfIndex (x.key / 65536 % 1024)
    match queue s3 h f (x.key % 65536) with
    | none => s3
    | some q => if q.kind = 5 then placeData x.pkt.conn x.pkt.sel s3 else deliverRx h f (x.key % 65536) x.pkt s3

/-- SCHED_SELECT (R221). -/
def execSchedSelect (root : SchedRoot) (s : State) : Host.Outcome State Fault Refusal :=
  .next (match root with
    | .port l => selectTx l.val s
    | .host h => selectRx h s)

/-- TX_HOD_WAIT_END (R211): the queue is served again once its charge can be granted. -/
def execTxHodWaitEnd (h : HostId) (f : Fn) (q : BitVec 16) (s : State) : Host.Outcome State Fault Refusal :=
  .next (match queue s h f q.toNat with
    | none => s
    | some x =>
      let len := match x.kind, x.ready with
        | 1, t :: _ => t.len
        | 4, _ => ((conn s x.conn).bind fun c => (nextItem s c).map (itemLen c)).getD 0
        | _, _ => 0
      if !x.hodWait then s
      else match allocHods (fnPayer h f) (x.cls == 7) (x.cls == 7) len s with
        | .ok _ => modQueue h f q.toNat (fun x => { x with hodWait := false }) s
        | .error _ => s)

/-! Transmit data (R98, R101, R119, R333) -/

/-- The checksum of CSUM written into a packet (R98). -/
def applyCsum (c : Option (Nat × Nat)) (bs : List Byte) : List Byte :=
  match c with
  | none => bs
  | some (start, ins) => overwrite bs (2 * ins) (beBytes 2 (check16 (sum16 (bs.drop (2 * start)))))

/-- MAX_FRAME of a port as applied. -/
def maxFrame (s : State) (port : Nat) : Nat := bitsAt (s.eth.ports[laneIx port]).cfg.toNat 18 14

/-- The OUTCOME that keeps a packet from being sent; 0: none does. -/
def txOutcome (s : State) (h : HostId) (f : Fn) (r : TxRead) (status : CplStatus) : Nat :=
  if maxFrame s r.port < r.pkt.len + 4 then 1
  else match r.pkt.key with
    | none => if status = .ok then 0 else 3
    | some k => if (usableKey s k 1 fun o => o == some (fnKey h f)).isNone then 2 else if status = .ok then 0 else 3

/-- A transmit packet's data has been read: it goes to its pipeline, or completes with its OUTCOME. -/
def txDataDone (h : HostId) (f : Fn) (q : Nat) (r : TxRead) (status : CplStatus) (data : List Byte) (s0 : State) : State :=
  let s := modQueue h f q (fun x => { x with reading := x.reading.filter fun y => y.sel != r.sel }) s0
  let bytes := applyCsum r.pkt.csum (data.take r.pkt.len)
  let k : Pkt := { Pkt.empty with
    bytes := bytes, hods := r.hods, port := r.port, origin := .txq h f q, order := q % 4096, cls := r.cls, pipe := pipeFor s true r.port (q % 2)
    tile := r.pkt.key.map fun n => (.espOut, n), target := fnKey h f, queue := q, index := r.pkt.index, sel := r.sel, stampTx := r.pkt.stamp
    turn := if r.cls = 7 then r.sel else 0, vec := { FieldVec.empty with source := q % 65536 } }
  let o := txOutcome s h f r status
  if o ≠ 0 then handOver r.port (setOutcome h f q r.pkt.index o 0 (freeInflight { k with bytes := List.replicate r.pkt.len 0 } (freeHods r.hods s)))
  else
    let s1 := modQueue h f q (fun x => { x with packets := x.packets + 1, bytes := x.bytes + r.pkt.len }) (storeHods r.hods bytes s)
    sendOn k s1

/-- The transmit packet of a queue whose data read is the oldest outstanding. -/
def oldestData (s : State) (h : HostId) (f : Fn) (q : Nat) : Option (ReadReq × Nat) :=
  (findRead s h fun g p => g == f && (match p with
    | .txData n _ => n == q
    | _ => false)).map fun r => (r, match r.purpose with
      | .txData _ sel => sel
      | _ => 0)

/-- TX_DATA_READ_DONE (R101). -/
def execTxDataReadDone (h : HostId) (f : Fn) (q : BitVec 16) (data : List Byte) (status : CplStatus) (s : State) : Host.Outcome State Fault Refusal :=
  .next (match oldestData s h f q.toNat with
    | none => s
    | some (r, sel) =>
      let s1 := endRead h r.tag s
      match (queue s1 h f q.toNat).bind fun x => x.reading.find? fun y => y.sel = sel with
      | none => s1
      | some t => txDataDone h f q.toNat t status data s1)

/-! Departure (R119, R132, R207, R223) -/

/-- A signed correction in picoseconds as whole nanoseconds, to the nearest. -/
def corrNs (w : Word) : Int := (w.toInt + 500) / 1000
/-- A time with a signed correction. -/
def corrected (t : Nat) (c : Int) : Nat := (Int.ofNat t + c).toNat

/-- A frame leaves its port: padded to 60 bytes, counted, its hods freed and its stamp taken. -/
def frameSent (port : Lane) (k : Pkt) (s : State) : State :=
  let bs := k.bytes ++ List.replicate (60 - k.bytes.length) 0
  let s1 := count 0x02 0 (32 * port.val + 8) (bs.length + 4) (count 0x02 0 (32 * port.val + 7) 1 (emit (.frame port.val bs) s))
  endTx (corrected (dtimeNs s) (corrNs s.eth.ptpTx[port])) k (if k.stampTx then count 0x02 0 (32 * port.val + 11) 1 s1 else s1)

/-- TX_FRAME_SENT (R207, R223): the class 7 queue is served first. (DESIGN CHOICE, log 3) -/
def execTxFrameSent (port : Lane) (s : State) : Host.Outcome State Fault Refusal :=
  .next (if !portIsUp s port.val then s
    else match Tbl.getD s.net.out7 port.val [], Tbl.getD s.net.outq port.val [] with
      | k :: r, _ => frameSent port k { s with net := { s.net with out7 := if r.isEmpty then Tbl.del s.net.out7 port.val else Tbl.put s.net.out7 port.val r } }
      | [], k :: r => frameSent port k { s with net := { s.net with outq := if r.isEmpty then Tbl.del s.net.outq port.val else Tbl.put s.net.outq port.val r } }
      | [], [] => s)

/-! Arrival (R119, R191, R194, R206, R209) -/

/-- The MAC's verdict on a frame: the counter of its cause, or none for a good frame. (DEDUCED, log 50) -/
def macCause (s : State) (port : Lane) (frame : List Byte) (fcsOk fecOk : Bool) : Option Nat :=
  if !fecOk then some 6
  else if frame.length + 4 < 64 then some 3
  else if maxFrame s port.val < frame.length + 4 then some 4
  else if !fcsOk then some 2
  else if beNat (slice frame 12 2) = 0x8808 then some 5
  else none

/-- A good frame takes its hods and stands in front of its pipeline, or is discarded. (DEDUCED, log 50, 59) -/
def takeFrame (port : Lane) (frame : List Byte) (s : State) : State :=
  let g : Group := ⟨port.val / 8, by have := port.isLt; omega⟩
  match arriveHods g.val (frame.length + 4) s with
  | none => count 0x06 0 (0x100 + 8 * g.val) 1 s
  | some (hods, s1) =>
    let hash := steerHash s1 g frame
    let p := pipeFor s1 false port.val (hash % 2)
    let c := (carrier s1 p).getD p
    if 128 ≤ (pipeOf s1 c).input.length then count 0x06 0 (0x400 + 2 * c + 1) 1 (freeHods hods s1)
    else enterPipe p { Pkt.empty with
      bytes := frame, hods := hods, port := port.val, order := hash % 4096, hash := hash, arrived := corrected (dtimeNs s1) (-corrNs s1.eth.ptpRx[port])
      vec := { FieldVec.empty with source := port.val } } (storeHods hods frame s1)

/-- RX_FRAME_ARRIVAL (R119, R194): the frame is given without its FCS. -/
def execRxFrameArrival (port : Lane) (frame : List Byte) (fcsOk fecOk : Bool) (s : State) : Host.Outcome State Fault Refusal :=
  .next (if !portIsUp s port.val then s
    else match macCause s port frame fcsOk fecOk with
      | some i => count 0x02 0 (32 * port.val + i) 1 s
      | none =>
        let s1 := count 0x02 0 (32 * port.val + 1) (frame.length + 4) (count 0x02 0 (32 * port.val) 1 s)
        if pathsRun s1 then takeFrame port frame s1 else s1)

end Sys2Proof.Machine
end

