-- ==== Sys2Proof/Machine/Pipeline.lean ====
section
/-! DEFINITION. Pipeline.lean: a packet in its pipeline: parse, order, lookup, the action stage, and the inline cipher tile (R136 to R153, R165 to R167, R195, R209 to R211, R217 to R220, R226, R227, R342 to R347). -/

namespace Sys2Proof.Machine
open Sys2Proof

/-! Packets that leave the pipelines without being sent -/

/-- A transmit packet goes another way than its port: INFLIGHT and its completion are settled, its hods stay (R101, R223). -/
def leaveTx (k : Pkt) (s : State) : State := if k.pipe < 16 then s else endTx 0 { k with hods := [] } s

/-- A packet's charge moves to forwarding or the cores; refused, it is dropped (R209, R211). -/
def moveCharge (who : Payer) (k : Pkt) (s : State) : Bool × State :=
  let r := chargePacket who false k.hods (leaveTx k s)
  (r.1, r.2)

/-- The program that holds a punt source, and the loaded clusters it runs on in ascending order (R389, R396). -/
def puntClusters (s : State) (src : Nat) : List (Fin 16) :=
  match s.cores.grants.find? fun g => bitAt g.2.sources src with
  | none => []
  | some g => (List.finRange 16).filter fun c => (s.cores.clusters[c]).program == some g.1

/-- A punted packet joins the punt queue its order key chooses, or is freed and counted (R149, R389). -/
def puntTo (src cause mark : Nat) (k : Pkt) (s : State) : State :=
  let cs := puntClusters s src
  match cs[k.order % cs.length]? with
  | none => count 0x03 0 (32 * k.pipe + 15) 1 (freeHods k.hods s)
  | some c =>
    if 1024 ≤ (s.cores.clusters[c]).punts.length then count 0x0C 0 (16 * c.val + 8) 1 (freeHods k.hods s)
    else modCluster c (fun x => { x with punts := x.punts ++ [{ pkt := k, source := src, cause := cause, tx := 16 ≤ k.pipe, mark := mark }] }) s

/-! Malformed packets (R146 to R149) -/

/-- The action of a malformed packet's cause under the bank of its epoch. -/
def malformed (k : Pkt) (v : FieldVec) (s : State) : State :=
  let p := k.pipe
  let s1 := count 0x03 0 (32 * p + v.cause) 1 s
  match malformedAction (coatsOf k.epoch s).parse.banks.top (dirIx (p / 16)) v.cause with
  | 0 => dropPkt k s1
  | a => match puntPolicer (pipeIx (p / 16) p) s1 with
    | (false, s2) => dropPkt k (count 0x03 0 (32 * p + 14) 1 s2)
    | (true, s2) =>
      if a = 1 then
        match moveCharge .forward k (count 0x03 0 (32 * p + 13) 1 s2) with
        | (true, s3) => mirrorPkt k s3
        | (false, s3) => s3
      else match moveCharge .core k (count 0x03 0 (32 * p + 12) 1 s2) with
        | (true, s3) => puntTo p v.cause 0 { k with vec := v } s3
        | (false, s3) => s3

/-! The action stage -/

/-- KIND, CLASS, DEST, MARK and the rest of an action record (R165). -/
def actClass (a : List Nat) : Nat := bitsAt (a.getD 0 0) 24 3
/-- MARK. -/
def actMark (a : List Nat) : Nat := bitsAt (a.getD 2 0) 16 16
/-- DEST. -/
def actDest (a : List Nat) : Nat := a.getD 1 0

/-- An action's COUNTER counts the packet, and that of a CONTINUE record as well (R167, R189). (DEDUCED, log 55) -/
def countAction (dir : Nat) (l : Lookup) (a : List Nat) (len : Nat) (s : State) : State :=
  let one (c : Nat) (s : State) : State := count 0x05 0 (131072 * dir + 2 * c + 1) len (count 0x05 0 (131072 * dir + 2 * c) 1 s)
  let s1 := one (bitsAt (a.getD 2 0) 0 16) s
  match l.cont with
  | none => s1
  | some c => one (bitsAt (c.getD 2 0) 0 16) s1

/-- The policer of an action: none where it names none, or one beyond the last, which is counted (R226). -/
def actPolicer (a : List Nat) : Option Nat := if bitAt (a.getD 0 0) 22 && bitsAt (a.getD 0 0) 0 16 < 32768 then some (bitsAt (a.getD 0 0) 0 16) else none

/-- A policer beyond the last acts as none and is counted. -/
def countRange (a : List Nat) (s : State) : State := if bitAt (a.getD 0 0) 22 && 32768 ≤ bitsAt (a.getD 0 0) 0 16 then count 0x07 0 0x30000 1 s else s

/-- The policers and limiters of a packet: index, rate and burst under the coat of its epoch (R226, R227). -/
def policersOf (coat : State) (a : List Nat) (limiters : List Nat) : List (Nat × Nat × Nat) :=
  let t := coat.sched.top.top
  (match actPolicer a with
    | none => []
    | some i => [(i, policerSet t i)]) ++ limiters.map fun i => (i, limiterRate coat t i, (policerSet t i).2)

/-- CLASS7_NOT_EXPRESS (R152). (DEDUCED, log 55) -/
def countNotExpress (k : Pkt) (cls : Nat) (s : State) : State := if cls = 7 ∧ !k.vec.express then count 0x03 0 (32 * k.pipe + 16) 1 s else s

/-- A received packet for a host is classed and policed: its class, or none where it was dropped (R220, R226, R227). -/
def rxClass (coat : State) (h : HostId) (masks a : List Nat) (k : Pkt) (s : State) : Option Nat × State :=
  let base := actClass a
  let off (i : Nat) : Bool := (policerSet coat.sched.top.top i).1 == 0
  let e := effectiveClass base k.bytes.length (off (32768 + k.port) || off (32832 + h.val)) masks
  let s1 := countRange a (countDemoted (64 + k.port) e.2 (countNotExpress k base s))
  let ps := policersOf coat a (if e.1 = 7 then [32768 + k.port, 32832 + h.val] else [])
  match police ps k.bytes.length s1 with
  | (false, s2) => (none, freeHods k.hods s2)
  | (true, s2) => (some e.1, if e.1 = 7 then countX7 (64 + k.port) k.bytes.length s2 else s2)

/-- A received packet of KIND HOST with its queue found (R195, R209, R220, R333). (DEDUCED, log 55) -/
def rxToQueue (coat : State) (h : HostId) (f : Fn) (q hash : Nat) (a : List Nat) (k : Pkt) (s : State) : State :=
  let masks := ((queuePath coat h 1 f q).map fun r => r.2.map fun n => n.permit).getD []
  match rxClass coat h masks a k s with
  | (none, s1) => s1
  | (some c, s1) => match chargePacket (fnPayer h f) (c == 7) k.hods s1 with
    | (false, s2) => s2
    | (true, s2) =>
      let x : Pkt := { k with cls := c, hash := hash, mark := actMark a, target := fnKey h f, queue := q }
      if bitAt (a.getD 3 0) 31 then modPipe k.pipe (fun y => { y with tile := y.tile ++ [{ x with tile := some (.espIn, bitsAt (a.getD 3 0) 0 17) }] }) s2
      else toLeaf h f q x s2

/-- The host and function a HOST action names; PF0 and its VFs only. -/
def hostDest (s : State) (dest : Nat) : Option (HostId × Fn) :=
  match namedObj (dest % 65536) with
  | some (.func h f) => if netFn s h f then some (h, f) else none
  | _ => none

/-- Received packets of KIND HOST (R115, R195). -/
def rxHost (coat : State) (a : List Nat) (k : Pkt) (s : State) : State :=
  let h := targetHost (actDest a)
  let drop (i : Nat) (s : State) : State := count 0x06 0 (0x200 + 8 * h.val + i) 1 (freeHods k.hods s)
  if k.quiet then freeHods k.hods s
  else if !linkUp s h then count 0x01 h.val 0x3000 1 (freeHods k.hods s)
  else match hostDest s (actDest a) with
    | none => drop 4 s
    | some (h, f) => match spreadStage (coat.net.units[h]).spread.top h (actDest a / 65536) k.vec s with
      | (.drop i, s1) => drop i s1
      | (.queue q hash, s1) =>
        if (queue s1 h f q).any fun x => x.kind == 2 then rxToQueue coat h f q hash a k s1 else drop 4 s1

/-- Received packets of KIND PORT: forwarding (R209, R219). -/
def rxPort (coat : State) (a : List Nat) (k : Pkt) (s : State) : State :=
  let port := actDest a % 64
  let s1 := countRange a (countNotExpress k (actClass a) s)
  if k.quiet then freeHods k.hods s
  else match police (policersOf coat a []) k.bytes.length s1 with
    | (false, s2) => freeHods k.hods s2
    | (true, s2) => match chargePacket .forward false k.hods s2 with
      | (false, s3) => s3
      | (true, s3) =>
        if portWidth s3 port = 0 then freeHods k.hods s3
        else forwardTo port (permitted ((forwardPath coat port 0).map fun n => n.permit) (min (actClass a) 6)) k s3

/-- The masks a packet of KIND CONN meets: those of its connection's receive leaf. -/
def connMasks (coat : State) (d : Nat) (k : Pkt) : List Nat :=
  match parseLrd k 0 with
  | none => []
  | some p => match conn coat (d * 2 ^ 24 + p.dstConn) with
    | none => []
    | some c => match c.owner with
      | none => []
      | some o => ((queuePath coat (ownerFn o).1 1 (ownerFn o).2 c.cfg.rq).map fun r => r.2.map fun n => n.permit).getD []

/-- Received packets of KIND CONN (R209, R240). -/
def rxConn (coat : State) (a : List Nat) (k : Pkt) (s : State) : State :=
  let dest := actDest a
  let storage := bitAt dest 31
  let h := hostIx (bitsAt dest 28 3)
  if !storage && !linkUp s h then count 0x01 h.val 0x3000 1 (freeHods k.hods s)
  else
    let r := if storage then
        match police (policersOf coat a []) k.bytes.length (countRange a (countNotExpress k (actClass a) s)) with
        | (false, s1) => (none, freeHods k.hods s1)
        | (true, s1) => (some (min (actClass a) 6), s1)
      else rxClass coat h (connMasks coat h.val k) a k s
    match r with
    | (none, s1) => s1
    | (some c, s1) => match chargePacket (if storage then .forward else .host h none) (c == 7 && !storage) k.hods s1 with
      | (false, s2) => s2
      | (true, s2) => transportRx dest { k with cls := c, mark := actMark a } s2

/-- A packet of KIND PUNT, in either direction (R149, R209). -/
def actPunt (coat : State) (a : List Nat) (k : Pkt) (s : State) : State :=
  match police (policersOf coat a []) k.bytes.length (countRange a s) with
  | (false, s1) => dropPkt k s1
  | (true, s1) => match moveCharge .core k s1 with
    | (true, s2) => puntTo (actDest a % 256) 0 (actMark a) k s2
    | (false, s2) => s2

/-- The action stage of a received packet. -/
def rxAction (coat : State) (a : List Nat) (k : Pkt) (s : State) : State :=
  match actKind a with
  | 1 => rxHost coat a k s
  | 2 => rxPort coat a k s
  | 3 => if k.quiet then freeHods k.hods s else actPunt coat a k s
  | 4 => rxConn coat a k s
  | _ => freeHods k.hods s

/-- A transmit packet goes on to its tile, or to its port (R217, R223). -/
def txOn (k : Pkt) (s : State) : State :=
  if k.tile.isSome then modPipe k.pipe (fun y => { y with tile := y.tile ++ [k] }) s else queueFrame k s

/-- The action stage of a transmit packet: it leaves on the port at the root of its tree (R217). -/
def txAction (coat : State) (a : List Nat) (k : Pkt) (s0 : State) : State :=
  let s := countNotExpress k k.cls s0
  match actKind a with
  | 0 => dropPkt k s
  | 3 => actPunt coat a k s
  | n =>
    if n = 2 ∧ actDest a % 64 ≠ k.port then count 0x07 0 (16 * k.port + 6) 1 (dropPkt k s)
    else match police (policersOf coat a []) k.bytes.length (countRange a s) with
      | (false, s1) => dropPkt k s1
      | (true, s1) => txOn k s1

/-- The final action of a packet is carried out (R165). -/
def doAction (k : Pkt) (l : Lookup) (a : List Nat) (s : State) : State :=
  let coat := coatsOf k.epoch s
  if !bitAt (a.getD 0 0) 31 then count 0x04 0 (32 * k.pipe + 6) 1 (dropPkt k s)
  else
    let s1 := countAction (k.pipe / 16) l a k.bytes.length s
    let s2 := if bitAt (a.getD 0 0) 23 then mirrorCopy k s1 else s1
    if k.pipe < 16 then rxAction coat a k s2 else txAction coat a k s2

/-! Lookup, recirculation and order (R142, R150, R151, R166, R181) -/

/-- A packet joins the recirculation queue, or is freed as the 33rd (R150). -/
def joinRecirc (k : Pkt) (counts : State → State) (s : State) : State :=
  if 32 ≤ (pipeOf s k.pipe).recirc.length then count 0x03 0 (32 * k.pipe + 9) 1 (dropPkt k s)
  else modPipe k.pipe (fun x => { x with recirc := x.recirc ++ [k] }) (counts s)

/-- The counters of a lookup advance. -/
def countLookup (p : Nat) (cs : List Nat) (s : State) : State := cs.foldl (fun s n => count 0x04 0 (32 * p + n) 1 s) s

/-- The lookup stage (R164, R166, R181). -/
def lookup (k : Pkt) (s : State) : State :=
  let coat := coatsOf k.epoch s
  match lookupStage coat coat.cls.banks.top (k.pipe / 16) k.vec (k.vec.passes == 2) with
  | none => dropPkt k (countLookup k.pipe [0, 5] s)
  | some l => match l.action with
    | some a => doAction k l a (countLookup k.pipe l.counts s)
    | none => joinRecirc { k with look := some l } (countLookup k.pipe [7]) (countLookup k.pipe (l.counts.filter fun n => n != 7) s)

/-- An earlier packet of the same order key is recirculating or held (R151). -/
def mustWait (k : Pkt) (s : State) : Bool :=
  ((pipeOf s k.pipe).recirc ++ (pipeOf s k.pipe).held).any fun x => x.order == k.order && x.seq < k.seq

/-- A packet that ended in ACCEPT is looked up, or held behind an earlier one (R151). -/
def accepted (k : Pkt) (v : FieldVec) (s : State) : State :=
  let p := k.pipe
  let x : Pkt := { k with vec := v }
  let s1 := count 0x03 0 (32 * p) 1 s
  if v.express || !mustWait x s1 then lookup x s1
  else if 256 ≤ (pipeOf s1 p).held.length then count 0x03 0 (32 * p + 11) 1 (dropPkt x s1)
  else count 0x03 0 (32 * p + 10) 1 (modPipe p (fun y => { y with held := y.held ++ [x] }) s1)

/-- Held packets that no earlier one keeps back are released in the order in which they finished parsing. -/
def releaseHeld (p : Nat) : (fuel : Nat) → State → State
  | 0, s => s
  | n + 1, s =>
    match (pipeOf s p).held.find? fun k => !mustWait k s with
    | none => s
    | some k => releaseHeld p n (lookup k (modPipe p (fun y => { y with held := y.held.filter fun x => x.seq != k.seq }) s))

/-- Held packets are released after a recirculating packet has ended. -/
def released (p : Nat) (s : State) : State := releaseHeld p (pipeOf s p).held.length s

/-- How a pass ended is carried on. -/
def endPass (k : Pkt) (e : PassEnd) (s : State) : State :=
  match e with
  | .malformed v => malformed k v s
  | .accept v => accepted k v s
  | .recirculate v node cursor => joinRecirc { k with vec := v, node := node, cursor := cursor, look := none } (count 0x03 0 (32 * k.pipe + 8) 1) s

/-- A pipeline accepts a transmit packet: its OUTCOME is OK; a TS packet's entry waits for its stamp (R100, R101). -/
def acceptTx (k : Pkt) (s : State) : State :=
  match k.origin with
  | .txq h f q => if k.stampTx then s else setOutcome h f q k.index 0 0 s
  | _ => s

/-- A pipeline admits the packet in front of its input: it is stamped and parsed (R38, R136). -/
def passPipe (p : Pipe) (s : State) : State :=
  match (pipeOf s p.val).input with
  | [] => s
  | x :: r =>
    let n := s.sched.serial + 1
    let s1 := modPipe p.val (fun y => { y with input := r }) (modSched (fun y => { y with serial := n }) s)
    let k : Pkt := { x with epoch := s.epochs.epoch, pipe := p.val, seq := n, quiet := s.glb.mode == .quiesce }
    if !pathsRun s then dropPkt k s1
    else endPass k (parseFirst s1.parse.banks.top.nodes (p.val / 16) k.bytes k.vec.source k.epoch) (acceptTx k s1)

/-- PIPELINE_ADMIT. -/
def execPipelineAdmit (pipe : Pipe) (s : State) : Host.Outcome State Fault Refusal := .next (farm (passPipe pipe s))

/-- The first recirculating packet of a kind leaves the queue. -/
def takeRecirc (p : Nat) (byEngine : Bool) (s : State) : Option (Pkt × State) :=
  match (pipeOf s p).recirc.find? fun k => k.look.isSome == byEngine with
  | none => none
  | some k => some (k, modPipe p (fun y => { y with recirc := y.recirc.filter fun x => x.seq != k.seq }) s)

/-- RECIRC_ADMIT (R142, R150, R151): the second pass, under the bank of the packet's epoch. -/
def execRecircAdmit (pipe : Pipe) (s : State) : Host.Outcome State Fault Refusal :=
  .next (match takeRecirc pipe.val false s with
    | none => s
    | some (k, s1) =>
      if !pathsRun s then released pipe.val (dropPkt k s1)
      else
        let e := parseSecond (coatsOf k.epoch s1).parse.banks.top.nodes (pipe.val / 16) k.bytes k.node k.cursor k.vec
        farm (released pipe.val (endPass k e s1)))

/-- LPM_RECIRC_READMIT (R181): the extended pass of the lookup stage. -/
def execLpmRecircReadmit (pipe : Pipe) (s : State) : Host.Outcome State Fault Refusal :=
  .next (match takeRecirc pipe.val true s with
    | none => s
    | some (k, s1) =>
      let l := extendLookup (coatsOf k.epoch s1) (k.look.getD ⟨none, none, [], [], false, 0, 0⟩)
      let x : Pkt := { k with look := none }
      if !pathsRun s then released pipe.val (dropPkt x s1)
      else farm (released pipe.val (doAction x l (l.action.getD []) (countLookup pipe.val l.counts s1))))

/-! The inline tiles (R333, R342 to R347) -/

/-- A packet in a tile is dropped; a received LRD packet is not executed (R246, R333, R345). -/
def tileDrop (k : Pkt) (s : State) : State :=
  match k.tile with
  | some (.lrdIn, _) => match parseLrd k 0 with
    | some q => if sequenced q.op then execFail k.conn q.psn s else freeHods k.hods s
    | none => freeHods k.hods s
  | _ => dropPkt k s

/-- The key a packet in a tile may use (R333). -/
def tileKey (k : Pkt) (s : State) : Option KeySlot :=
  match k.tile with
  | none => none
  | some (.espIn, n) => usableKey s n 1 fun o => o.isNone || o == some k.target
  | some (.espOut, n) => usableKey s n 1 fun o => o == some k.target
  | some (_, n) => usableKey s n 2 fun _ => true

/-- The slots in a tile's cache. -/
def cachedIn (s : State) (tile : Nat) : List Nat := Tbl.getD s.crypt.caches tile []

/-- The packet a tile works on next: an EXPRESS packet goes ahead of others that have not started (R342). (DEDUCED, log 59) -/
def tileOrder (ks : List Pkt) : List Pkt :=
  match ks.find? fun k => k.vec.express with
  | none => ks
  | some k => k :: ks.eraseIdx ((ks.findIdx? fun x => x.vec.express).getD 0)

/-- The packet at the front of a tile starts with its key: material and HDR_SLOT. -/
def startWith (p : Nat) (k : KeySlot) (s : State) : State := modCrypt (fun c => { c with started := Tbl.put c.started p (k.material ++ [BitVec.ofNat 8 k.hdrSlot]) }) s

/-- The front of a tile starts: packets whose key may not be used are dropped, and a key that is not cached is waited for (R333, R342). -/
def startTile (p : Nat) : (fuel : Nat) → State → State
  | 0, s => s
  | n + 1, s =>
    if Tbl.has s.crypt.started p then s
    else
      let s1 := modPipe p (fun y => { y with tile := tileOrder y.tile }) s
      match (pipeOf s1 p).tile with
      | [] => s1
      | k :: r => match tileKey k s1 with
        | none => startTile p n (tileDrop k (count 0x0B 0 (32 * p + 4) 1 (modPipe p (fun y => { y with tile := r }) s1)))
        | some x => if (cachedIn s1 p).contains ((k.tile.map (·.2)).getD 0) then startWith p x s1 else s1

/-- CIPHER_FORMAT: the packet is dropped by its tile (R344). -/
def cipherFormat (p : Nat) (k : Pkt) (s : State) : State := tileDrop k (count 0x0B 0 (32 * p + 3) 1 s)

/-- A packet's new bytes stand in its hods too. -/
def rewrite (k : Pkt) (bs : List Byte) (s : State) : State := storeHods k.hods bs s

/-- ESP of a received packet (R345, R346). -/
def finishEspIn (p slot : Nat) (m : List Byte) (k : Pkt) (s : State) : State :=
  match espRegion (m.getD 36 0).toNat k with
  | none => cipherFormat p k s
  | some (e, n) => match espDecrypt m e n k.bytes with
    | none => tileDrop k (countTagFail p slot s)
    | some bs => toLeaf (hostOfKey k.target) (fnOfIndex (k.target % 1024)) k.queue { k with bytes := bs, decrypted := true, tile := none } (rewrite k bs (count 0x0B 0 (32 * p + 1) 1 s))

/-- ESP of a transmit packet. -/
def finishEspOut (p : Nat) (m : List Byte) (k : Pkt) (s : State) : State :=
  match espRegion (m.getD 36 0).toNat k with
  | none => cipherFormat p k s
  | some (e, n) =>
    let bs := espEncrypt m e n k.bytes
    queueFrame { k with bytes := bs, tile := none } (rewrite k bs (count 0x0B 0 (32 * p) 1 s))

/-- Where LRD begins in a packet. -/
def h4Of (k : Pkt) : Nat := (k.vec.h.toList.getD 4 none).getD 0

/-- LRD of a transmit packet (R347). -/
def finishLrdOut (p : Nat) (m : List Byte) (k : Pkt) (s : State) : State :=
  match parseLrd k 0 with
  | none => cipherFormat p k s
  | some q => match lrdRegion q with
    | none => cipherFormat p k s
    | some _ =>
      let bs := lrdEncrypt m q (h4Of k) k.sel
      queueFrame { k with bytes := bs, tile := none } (rewrite k bs (count 0x0B 0 (32 * p) 1 s))

/-- The counter C of a received packet's nonce (R347). -/
def rxCounter (c : Conn) (q : LrdPkt) : Nat := if sequenced q.op then nonceSeq (recvExt c q.psn) else nonceRsp (q.e 0) c.cfg.pmtu (sendExt c q.psn)

/-- A decrypted LRD packet goes on: a sequenced one is executed, a READ_RSP joins its connection's inbox. -/
def lrdDecrypted (c : Conn) (q : LrdPkt) (k : Pkt) (bs : List Byte) (s : State) : State :=
  let came := ((c.exec.find? fun e => e.psn = q.psn).map fun e => e.p.arrived).getD q.arrived
  let q1 : LrdPkt := { q with arrived := came, pkt := { k with bytes := bs, tile := none } }
  if sequenced q.op then beginExec k.conn q1 (modConn k.conn (fun c => { c with exec := c.exec.map fun e => if e.psn = q.psn then { e with p := q1 } else e }) s)
  else modConn k.conn (fun c => { c with inbox := c.inbox ++ [q1] }) s

/-- LRD of a received packet (R345, R347). -/
def finishLrdIn (p slot : Nat) (m : List Byte) (k : Pkt) (s : State) : State :=
  match parseLrd k (dtime32 s), conn s k.conn with
  | some q, some c => match lrdRegion q with
    | none => cipherFormat p k s
    | some _ => match lrdDecrypt m q (h4Of k) (rxCounter c q) with
      | none => tileDrop k (countTagFail p slot s)
      | some bs => lrdDecrypted c q k bs (rewrite k bs (count 0x0B 0 (32 * p + 1) 1 s))
  | none, some _ => cipherFormat p k s
  | _, none => freeHods k.hods s

/-- A tile finishes the packet it has started. -/
def finishTile (p : Nat) (s : State) : State :=
  match Tbl.find s.crypt.started p with
  | none => s
  | some m =>
    let s1 := modCrypt (fun c => { c with started := Tbl.del c.started p }) s
    match (pipeOf s1 p).tile with
    | [] => s1
    | k :: r =>
      let s2 := modPipe p (fun y => { y with tile := r }) s1
      match k.tile with
      | none => s2
      | some (.espIn, n) => finishEspIn p n m k s2
      | some (.espOut, _) => finishEspOut p m k s2
      | some (.lrdIn, n) => finishLrdIn p n m k s2
      | some (.lrdOut, _) => finishLrdOut p m k s2

/-- CIPHER_TILE_DONE (R345): the front packet starts if its key is at hand, and is finished. -/
def execCipherTileDone (pipe : Pipe) (s : State) : Host.Outcome State Fault Refusal :=
  .next (farm (finishTile pipe.val (startTile pipe.val ((pipeOf s pipe.val).tile.length + 1) s)))

/-- GAUNTLET_KEY_FETCH (R342): the slot enters the tile's cache of 64, and its packet may start. -/
def execGauntletKeyFetch (tile : Tile) (slot : BitVec 17) (s : State) : Host.Outcome State Fault Refusal :=
  let p := tile.val
  let n := (pipeOf s p).tile.length + 1
  let l := cachedIn s p
  .next (if l.contains slot.toNat || !(pipeOf s p).tile.any fun k => (k.tile.map (·.2)) == some slot.toNat then s
    else farm (startTile p n (modCrypt (fun c => { c with caches := Tbl.put c.caches p (l.drop (l.length - 63) ++ [slot.toNat]) }) (count 0x0B 0 (32 * p + 5) 1 s))))

/-! Rows of the transport that reach the farm -/

/-- LRD_EXECUTION_DONE (R252): an execution whose data is placed is marked. -/
def execLrdExecutionDone (d : Domain) (n : ConnNo) (psn : BitVec 32) (s : State) : Host.Outcome State Fault Refusal :=
  .next (match conn s (rowKey d n) with
    | none => s
    | some c => if execReady c psn.toNat then farm (execDone (rowKey d n) psn.toNat s) else s)

/-- LRD_NAK_RX (R257, R260, R261). -/
def execLrdNakRx (d : Domain) (n : ConnNo) (s : State) : Host.Outcome State Fault Refusal := .next (farm (lrdNakRx d n s))

/-- LRD_RETRANSMIT_TIMER (R258, R260, R289). (DESIGN CHOICE, log 3) -/
def execLrdRetransmitTimer (d : Domain) (n : ConnNo) (s : State) : Host.Outcome State Fault Refusal := .next (farm (lrdRetransmitTimer d n s))

end Sys2Proof.Machine
end

