-- ==== Sys2Proof/Machine/Ports.lean ====
section
/-! DEFINITION. Ports.lean: the accelerator ports of the packet cores: HOD, DMA, TABLE, EMIT and PUNT (R380 to R390). -/

namespace Sys2Proof.Machine
open Sys2Proof

/-! Serving a port -/

/-- OP of a request. -/
def opOf (m : PortMsg) : Nat := m.words.getD 0 0 % 16
/-- A word of a request. -/
def PortMsg.w (m : PortMsg) (i : Nat) : Nat := m.words.getD i 0

/-- A request is answered (R382): its reply is on its way to the thread's inbox. -/
def answerPort (port : Nat) (m : PortMsg) (st : Status) (ws : List Nat) (s : State) : State :=
  let w0 := bitsAt (m.w 0) 48 16 * 2 ^ 48 + 2 ^ 36 + port * 2 ^ 32 + st.code * 65536
  modThread m.core m.thread (fun th => { th with asked := th.asked - 1, coming := th.coming ++ [((w0 :: ws) ++ List.replicate 7 0).take 8] }) s

/-- A request that exiting or replies no longer hold back: a DRAINING thread may now be done. -/
def popPort (cl port : Nat) (s : State) : State := modCluster cl (fun c => { c with ports := Tbl.put c.ports port ((Tbl.getD c.ports port []).drop 1) }) s

/-- The oldest message of a port, if its OP is one that the row serves. -/
def frontOf (s : State) (cl port : Nat) (mine : Nat → Bool) : Option PortMsg := (portQueue s cl port).head?.filter fun m => mine (opOf m)

/-- What serving a request comes to: an answer, no answer yet, or one of the undefined cases. -/
inductive Served where
  | done (st : Status) (words : List Nat) (s : State)
  | later (s : State)
  | undefined (rule : Nat)

/-- The front request of a port is served by a function, after the checks every request gets (R382): a known OP and enough words. -/
def servePort (cl port need : Nat) (mine : Nat → Bool) (known : Nat → Bool) (f : PortMsg → State → Served) (s : State) : Host.Outcome State Fault Refusal :=
  match frontOf s cl port mine with
  | none => .next s
  | some m =>
    let s1 := popPort cl port s
    if !known (opOf m) then .next (answerPort port m .badOpcode [] s1)
    else if m.words.length < need then .next (answerPort port m .badLength [] s1)
    else match f m s1 with
      | .done st ws s2 => .next (answerPort port m st ws s2)
      | .later s2 => .next s2
      | .undefined r => .refused (.undefinedCase r)

/-- The thread a violation record names. -/
def whoOf (m : PortMsg) : Nat := m.core * 16 + m.thread

/-- A request whose handle fails R204: its record, and BAD_PARAM. -/
def badHod (port : Nat) (m : PortMsg) (h off len : Nat) (align : Bool) (s : State) : Served :=
  .done .badParam [] (hodViolation align h off len (whoOf m) port s)

/-- A request on one hod, checked (R204, R205). -/
def withHod (port h : Nat) (m : PortMsg) (s : State) (f : State → Served) : Served :=
  match hodCheck s h 0 0 1 with
  | some a => badHod port m h 0 0 a s
  | none => if hodHeld s h then f s else .undefined 205

/-! Port 0: HOD (R384) -/

/-- HOD_ALLOC: a hod of the smallest pool that holds LENGTH, charged to core programs. -/
def execHodAlloc (cl : Cluster) (s : State) : Host.Outcome State Fault Refusal :=
  servePort cl.val 0 1 (fun op => op == 1 || op == 0 || 4 < op) (fun op => op == 1) (fun m s =>
    let len := bitsAt (m.w 0) 16 14
    if len = 0 ∨ 10240 < len then .done .badParam [] s
    else match allocHods .core false false len s with
      | .ok (h, s1) => .done .ok [h.getD 0 nullHod] s1
      | .error e => .done .noResource [] (countRefused .core false e s)) s

/-- HOD_FREE: one hod, or with CHAIN the whole chain from it. -/
def execHodFree (cl : Cluster) (s : State) : Host.Outcome State Fault Refusal :=
  servePort cl.val 0 2 (fun op => op == 2) (fun _ => true) (fun m s =>
    let h := m.w 1 % 2 ^ 32
    withHod 0 h m s fun s =>
      let hs := if bitAt (m.w 0) 8 then chainFrom s 64 h else [h]
      if hs.all (hodHeld s) then .done .ok [] (freeHods hs s) else .undefined 205) s

/-- HOD_LINK: the next handle of a hod, or null. -/
def execHodLink (cl : Cluster) (s : State) : Host.Outcome State Fault Refusal :=
  servePort cl.val 0 3 (fun op => op == 3) (fun _ => true) (fun m s =>
    let h := m.w 1 % 2 ^ 32
    let n := m.w 2 % 2 ^ 32
    let link (s : State) : Served := .done .ok [] (modHod (fun x => { x with held := Tbl.modify x.held h fun y => { y with next := n } }) s)
    withHod 0 h m s fun s =>
      if n = nullHod then link s
      else withHod 0 n m s fun s => if s.hod.held.any fun e => e.1 != h && e.2.next == n then .undefined 205 else link s) s

/-- HOD_NEXT: the next handle. -/
def execHodNext (cl : Cluster) (s : State) : Host.Outcome State Fault Refusal :=
  servePort cl.val 0 2 (fun op => op == 4) (fun _ => true) (fun m s =>
    let h := m.w 1 % 2 ^ 32
    withHod 0 h m s fun s => .done .ok [(Tbl.getD s.hod.held h { next := nullHod, payer := .core, users := 1 }).next] s) s

/-! Port 1: DMA (R385) -/

/-- An operand of a copy: its region, or why not: a handle that fails R204, a hod nobody holds, or an address in no range. -/
inductive Operand where
  | at_ (r : Region)
  | badHod (h off : Nat) (align : Bool)
  | freeHod
  | bad
deriving DecidableEq, Repr

/-- Where an operand of `n` bytes lies. -/
def dmaOperand (s : State) (ck addr n : Nat) : Operand :=
  match regionOf s ck addr n with
  | some (.hod h off) => match hodCheck s h off n 64 with
    | some a => .badHod h off a
    | none => if hodHeld s h then .at_ (.hod h off) else .freeHod
  | some (.instr _) => .bad
  | some r => .at_ r
  | none => .bad

/-- Two places of `n` bytes share bytes. -/
def samePlace (p q : Nat × Nat) (n : Nat) : Bool := p.1 == q.1 && p.2 < q.2 + n && q.2 < p.2 + n

/-- A copy: the bytes, and poison where the source held it (R415). -/
def dmaCopy (ck : Nat) (src dst : Region) (n : Nat) (s : State) : State :=
  let shift (r : Region) (i : Nat) : Region := match r with
    | .instr o => .instr (o + i)
    | .mem sp o => .mem sp (o + i)
    | .hod h o => .hod h (o + i)
    | .dram d => .dram (d + i)
  let bad := (upFrom 0 (ceilDiv n 64)).filter fun i => poisonedAt s ck (shift src (64 * i)) (min 64 (n - 64 * i))
  let s1 := writeAt ck dst (readAt s ck src n) s
  bad.foldl (fun s i => poisonAt (placeOf s ck (shift dst (64 * i))) (min 64 (n - 64 * i)) s) s1

/-- DMA_COPY. -/
def execDmaCopy (cl : Cluster) (s : State) : Host.Outcome State Fault Refusal :=
  servePort cl.val 1 4 (fun _ => true) (fun op => op == 1) (fun m s =>
    let n := bitsAt (m.w 3) 0 21
    if n = 0 ∨ 1048576 < n then .done .badParam [] s
    else match dmaOperand s m.core (m.w 1) n, dmaOperand s m.core (m.w 2) n with
      | .bad, _ => .done .badParam [] s
      | _, .bad => .done .badParam [] s
      | .badHod h off a, _ => badHod 1 m h off n a s
      | _, .badHod h off a => badHod 1 m h off n a s
      | .freeHod, _ => .undefined 205
      | _, .freeHod => .undefined 205
      | .at_ a, .at_ b =>
        if samePlace (placeOf s m.core a) (placeOf s m.core b) n then .undefined 385
        else .done .ok [] (dmaCopy m.core a b n s)) s

/-! Port 2: TABLE (R386) -/

/-- The commands a core program may send. -/
def tableCmd : Nat → Option CmdDef
  | 0x0306 => some classActionWriteDef
  | 0x0400 => some emInsertDef
  | 0x0401 => some emUpdateDef
  | 0x0402 => some emDeleteDef
  | 0x0403 => some emLookupDef
  | 0x0405 => some lpmAddDef
  | 0x0406 => some lpmDeleteDef
  | 0x0407 => some lpmLookupDef
  | _ => none

/-- A block of `n` bytes in data memory, cluster or device shared memory, aligned to `al`. -/
def blockAt (s : State) (ck addr n al : Nat) : Option Region :=
  match regionOf s ck addr (max n 1) with
  | some (.mem sp off) => if addr % al = 0 then some (.mem sp off) else none
  | _ => none

/-- The parameters of a table request as a command packet of the owner. -/
def portPacket (params : List Byte) : Packet where
  chan := .owner
  vdm := none
  version := 1
  flags := 0
  scope := 3
  target := 0
  tag := 0
  paramLen := BitVec.ofNat 16 (params.length / 8)
  reservedSet := false
  epochBind := 0
  resultAddr := 0
  resultLen := 0
  params := (upFrom 0 (params.length / 4)).map fun i => wordOf (leNat (slice params (4 * i) 4))
  read := .ok
  writeOk := true

/-- The words 1 to 3 of a table reply: RESULT and the completion epoch. (DEDUCED, log 69) -/
def tableReply (r : List Nat) (s : State) : List Nat :=
  [r.getD 0 0 + r.getD 1 0 * 2 ^ 32, r.getD 2 0 + r.getD 3 0 * 2 ^ 32, s.epochs.epoch]

/-- TABLE_REQUEST. -/
def execTableRequest (cl : Cluster) (s : State) : Host.Outcome State Fault Refusal :=
  servePort cl.val 2 4 (fun _ => true) (fun op => op == 1) (fun m s =>
    let n := bitsAt (m.w 2) 0 16
    match tableCmd (bitsAt (m.w 0) 16 16) with
    | none => .done .badOpcode (tableReply [] s) s
    | some d => match blockAt s m.core (m.w 1) (8 * n) 8 with
      | none => .done .badParam (tableReply [] s) s
      | some r =>
        let p := portPacket (readAt s m.core r (8 * n))
        if !d.len n then .done .badLength (tableReply [] s) s
        else match firstRefusal (d.checks .device p s) with
          | some st => .done st (tableReply [] s) s
          | none =>
            let a := d.act .device p s
            match a.long with
            | none => .done a.status (tableReply a.result a.state) a.state
            | some l => match blockAt s m.core (m.w 3) (4 * l.length) 8 with
              | none => .done .badParam (tableReply [] s) s
              | some out => .done a.status (tableReply a.result a.state) (writeAt m.core out (wordsToBytes l) a.state)) s

/-! Port 4: EMIT (R388) -/

/-- A chain and LENGTH of an EMIT request, checked: LENGTH in range, every handle in range and held, and room for LENGTH. (DEDUCED, log 69) -/
def withChain (m : PortMsg) (s : State) (f : List Nat → Nat → Served) : Served :=
  let h := m.w 1 % 2 ^ 32
  let len := bitsAt (m.w 2) 0 14
  let hs := chainFrom s 64 h
  if len < 60 ∨ 9212 < len then .done .badParam [] s
  else if !handleInRange s h then badHod 4 m h 0 len false s
  else if !hs.all (hodHeld s) then .undefined 388
  else if (hs.foldl (fun n x => n + hodBytes (hodPool x)) 0) < len then badHod 4 m h 0 len false s
  else f hs len

/-- A packet that a core program hands over. -/
def emitted (hs : List Nat) (len : Nat) (s : State) : Pkt :=
  { Pkt.empty with bytes := loadHods s hs len, hods := hs, origin := .core, arrived := dtimeNs s, epoch := s.epochs.epoch }

/-- EMIT_PORT: the packet joins the port's forwarding node. -/
def execEmitPort (cl : Cluster) (s : State) : Host.Outcome State Fault Refusal :=
  servePort cl.val 4 3 (fun op => op != 2) (fun op => op == 1) (fun m s =>
    let port := bitsAt (m.w 2) 16 6
    let c := bitsAt (m.w 2) 24 3
    if c = 7 then .done .badParam [] s
    else withChain m s fun hs len => match chargeAll .forward false hs s with
      | .error e => .done .noResource [] (countRefused .forward false e s)
      | .ok s1 =>
        let k : Pkt := { emitted hs len s with port := port, cls := c }
        if !portIsUp s1 port then .done .ok [] (dropLinkDown k s1)
        else .done .ok [] (forwardTo port (permitted ((forwardPath s1 port 0).map fun n => n.permit) c) k s1)) s

/-- The vector of a record (R390). -/
def vectorOf (b : List Byte) : FieldVec :=
  let w (o n : Nat) : Nat := leNat (slice b o n)
  let h (i : Nat) : Option Nat := if bitAt (w (0x80 + 2 * i) 2) 15 then some (w (0x80 + 2 * i) 2 % 2048) else none
  { c := Vector.ofFn fun (i : Fin 32) => w (4 * i.val) 4
    h := Vector.ofFn fun (i : Fin 16) => h i.val
    profile := w 0xA0 1, flags := w 0xA2 2, express := bitAt (w 0xA4 4) 0, passes := bitsAt (w 0xA4 4) 1 2, nodes := bitsAt (w 0xA4 4) 8 7
    payloadOffset := bitsAt (w 0xA8 4) 0 11, length := bitsAt (w 0xA8 4) 16 14, source := bitsAt (w 0xAC 4) 16 16, epoch := w 0xB0 8
    cause := bitsAt (w 0xA4 4) 16 4, failNode := bitsAt (w 0xA4 4) 24 8, failCursor := bitsAt (w 0xAC 4) 0 11 }

/-- A packet emitted to a host is spread and joins its queue's leaf (R115, R195). (DEDUCED, log 69) -/
def emitHost (h : HostId) (f : Fn) (a : List Nat) (v : FieldVec) (k : Pkt) (s : State) : State :=
  let drop (i : Nat) (s : State) : State := count 0x06 0 (0x200 + 8 * h.val + i) 1 (freeHods k.hods s)
  if !linkUp s h then count 0x01 h.val 0x3000 1 (freeHods k.hods s)
  else match spreadStage (s.net.units[h]).spread.top h (actDest a / 65536) v s with
    | (.drop i, s1) => drop i s1
    | (.queue q hash, s1) =>
      if (queue s1 h f q).any fun x => x.kind == 2 then
        let masks := ((queuePath s1 h 1 f q).map fun r => r.2.map fun n => n.permit).getD []
        toLeaf h f q { k with cls := permitted masks (actClass a), hash := hash, mark := actMark a, vec := v, port := v.source % 64 } s1
      else drop 4 s1

/-- EMIT_HOST: the packet is spread as its action record of KIND HOST says. -/
def execEmitHost (cl : Cluster) (s : State) : Host.Outcome State Fault Refusal :=
  servePort cl.val 4 4 (fun op => op == 2) (fun _ => true) (fun m s =>
    let a := actionAt s (bitsAt (m.w 2) 32 18)
    match actValid a && actKind a == 1 && actClass a != 7, hostDest s (actDest a), blockAt s m.core (m.w 3) 256 256 with
    | true, some (h, f), some r => withChain m s fun hs len => match chargeAll (fnPayer h f) false hs s with
        | .error e => .done .noResource [] (countRefused (fnPayer h f) false e s)
        | .ok s1 => .done .ok [] (emitHost h f a (vectorOf (readAt s m.core r 256)) (emitted hs len s) s1)
    | _, _, _ => .done .badParam [] s) s

/-! Port 5: PUNT (R389) -/

/-- PUNT_RECV: the request waits for a packet. -/
def execPuntRecv (cl : Cluster) (s : State) : Host.Outcome State Fault Refusal :=
  servePort cl.val 5 2 (fun op => op != 2) (fun op => op == 1) (fun m s =>
    match blockAt s m.core (m.w 1) 256 256 with
    | some (.mem sp _) => if sp = 0 then .done .badParam [] s else .later (modCluster cl.val (fun c => { c with recvs := c.recvs ++ [m] }) s)
    | _ => .done .badParam [] s) s

/-- PUNT_CANCEL: every outstanding RECV of the thread replies CANCELLED. -/
def execPuntCancel (cl : Cluster) (s : State) : Host.Outcome State Fault Refusal :=
  servePort cl.val 5 1 (fun op => op == 2) (fun _ => true) (fun m s =>
    let own (r : PortMsg) : Bool := r.core == m.core && r.thread == m.thread
    let rs := (cluster s cl.val).recvs
    .done .ok [] ((rs.filter own).foldl (fun s r => answerPort 5 r .cancelled [] s)
      (modCluster cl.val (fun c => { c with recvs := rs.filter fun r => !own r }) s))) s

/-- The vector record of a punted packet (R390). -/
def vectorRecord (u : Punt) : List Byte :=
  let v := u.pkt.vec
  let h (x : Option Nat) : List Byte := leBytes 2 (match x with
    | none => 0
    | some n => 0x8000 + n % 2048)
  v.c.toList.flatMap (leBytes 4) ++ v.h.toList.flatMap h
    ++ leBytes 4 (v.profile % 256 + v.flags % 65536 * 65536)
    ++ leBytes 4 (b2n v.express + v.passes % 4 * 2 + v.nodes % 128 * 256 + v.cause % 16 * 65536 + v.failNode % 256 * 2 ^ 24)
    ++ leBytes 4 (v.payloadOffset % 2048 + v.length % 16384 * 65536)
    ++ leBytes 4 (v.failCursor % 2048 + v.source % 65536 * 65536)
    ++ leBytes 8 u.pkt.epoch ++ leBytes 4 (if u.tx then 0 else u.pkt.hash) ++ leBytes 4 (u.mark % 65536 * 65536) ++ List.replicate 64 0

/-- PUNT_DELIVERY (R26, R389, R398): the oldest packet meets the oldest RECV; none is delivered in QUIESCE. -/
def execPuntDelivery (cl : Cluster) (s : State) : Host.Outcome State Fault Refusal :=
  let c := cluster s cl.val
  .next (if s.glb.mode == .quiesce then s
    else match c.punts, c.recvs with
      | u :: us, m :: ms =>
        let s1 := modCluster cl.val (fun c => { c with punts := us, recvs := ms }) s
        let s2 := match blockAt s1 m.core (m.w 1) 256 256 with
          | none => s1
          | some r => writeAt m.core r (vectorRecord u) s1
        let w2 := u.pkt.vec.length % 16384 + u.source % 256 * 65536 + u.cause % 16 * 2 ^ 24 + b2n u.tx * 2 ^ 28
        answerPort 5 m .ok [u.pkt.hods.getD 0 nullHod, w2, u.pkt.epoch] (countCore cl.val 7 s2)
      | _, _ => s)

end Sys2Proof.Machine
end

