-- ==== Sys2Proof/Machine/Lookaside.lean ====
section
/-! DEFINITION. Lookaside.lean: the LOOKASIDE port and its four tiles (R333, R340, R343, R351 to R354, R387). -/

namespace Sys2Proof.Machine
open Sys2Proof

/-! The job's fields (R351) -/

/-- A word of a job. -/
def LaJob.w (j : LaJob) (i : Nat) : Nat := j.words.getD i 0
/-- Decrypt. -/
def LaJob.decrypts (j : LaJob) : Bool := j.w 0 % 16 == 2
/-- MODE: 1 GCM, 2 XTS, 3 CTR. -/
def LaJob.mode (j : LaJob) : Nat := bitsAt (j.w 0) 4 4
/-- URGENT. -/
def LaJob.urgent (j : LaJob) : Bool := bitAt (j.w 0) 8
/-- The key reference. -/
def LaJob.keyRef (j : LaJob) : Nat := bitsAt (j.w 0) 16 32
/-- LENGTH. -/
def LaJob.length (j : LaJob) : Nat := bitsAt (j.w 3) 0 20
/-- AAD_LEN, of GCM only. -/
def LaJob.aad (j : LaJob) : Nat := if j.mode = 1 then bitsAt (j.w 3) 32 8 else 0
/-- Handle and offset of the source or destination. -/
def LaJob.place (j : LaJob) (i : Nat) : Nat × Nat := (bitsAt (j.w i) 0 32, bitsAt (j.w i) 32 16)
/-- Bytes a job reads from its source, and writes to its destination. -/
def LaJob.reads (j : LaJob) : Nat := j.aad + j.length + (if j.mode = 1 ∧ j.decrypts then 16 else 0)
/-- Bytes written to the destination. -/
def LaJob.writes (j : LaJob) : Nat := j.length + (if j.mode = 1 ∧ !j.decrypts then 16 else 0)
/-- The use a key must have: LA_GCM, LA_XTS or LA_CTR. -/
def LaJob.use (j : LaJob) : Nat := 3 + j.mode

/-! Chains (R206) -/

/-- Room in a chain from an offset in its first hod on. -/
def chainRoom (hs : List Nat) (off : Nat) : Nat := (hs.foldl (fun n h => n + hodBytes (hodPool h)) 0) - off

/-- Bytes written into a chain from an offset on. -/
def storeChain : (hods : List Nat) → (off : Nat) → List Byte → State → State
  | [], _, _, s => s
  | h :: r, off, bs, s =>
    let size := hodBytes (hodPool h)
    if bs.isEmpty then s
    else if size ≤ off then storeChain r (off - size) bs s
    else storeChain r 0 (bs.drop (size - off)) (modHod (fun x => { x with mem := Mem.writeBytes x.mem 0 (hodAddr s h + off) (bs.take (size - off)) }) s)

/-- Bytes of a job's source. -/
def jobSource (s : State) (j : LaJob) : List Byte :=
  let p := j.place 1
  (loadHods s (chainFrom s 64 p.1) (p.2 + j.reads)).drop p.2

/-- What a job writes, and whether its tag holds. -/
def jobOutput (s : State) (j : LaJob) (key : List Byte) : List Byte × Bool :=
  let src := jobSource s j
  let iv := leBytes 8 (j.w 4) ++ leBytes 8 (j.w 5)
  let data := slice src j.aad j.length
  if j.mode = 2 then ((if j.decrypts then Config.xtsDecrypt else Config.xtsEncrypt) key (leNat iv) data, false)
  else if j.mode = 3 then (Config.ctrCrypt key iv data, false)
  else
    let nonce := iv.take 12
    let aad := src.take j.aad
    let out := (Config.gcmCrypt key nonce data).take j.length
    if j.decrypts then
      if Config.gcmTag key nonce aad data = slice src (j.aad + j.length) 16 then (out, true) else (List.replicate j.length 0, false)
    else (out ++ (Config.gcmTag key nonce aad out).take 16, false)

/-! The tiles -/

/-- A tile. -/
def laTile (s : State) (t : Fin 4) : LaTile := s.crypt.tiles[t]
/-- A tile changed. -/
def modTile (t : Fin 4) (f : LaTile → LaTile) (s : State) : State := modCrypt (fun c => { c with tiles := vmod c.tiles t f }) s
/-- A tile's counter (R360). -/
def countTile (t : Fin 4) (i k : Nat) (s : State) : State := count 0x0B 0 (0x500 + 8 * t.val + i) k s
/-- The jobs a tile holds. -/
def tileJobs (x : LaTile) : List LaJob := x.running.toList ++ x.suspended.toList ++ x.queue
/-- Bytes queued at a tile. -/
def tileBytes (x : LaTile) : Nat := (tileJobs x).foldl (fun n j => n + j.length) 0
/-- Jobs a cluster's port holds (R387). -/
def jobsOf (s : State) (cl : Nat) : Nat :=
  (List.finRange 4).foldl (fun n t => n + ((tileJobs (laTile s t)).filter fun j => j.cluster == cl).length) 0

/-- A job is answered (R352, R387). (DEDUCED, log 69) -/
def answerJob (j : LaJob) (st : Status) (done : Nat) (tagOk : Bool) (s : State) : State :=
  answerPort 3 { core := j.core, thread := j.thread, words := j.words } st [done + b2n tagOk * 2 ^ 32] s

/-- The key a job may start with: its slot's, or its page's (R333, R340). -/
def laKey (s : State) (j : LaJob) : Option KeySlot :=
  (keyOfRef s j.keyRef).filter fun k => k.state == 2 && k.use == j.use && k.owner.isNone

/-- The head of a tile's queue starts, waits for its page, or ends with KEY_REFUSED. -/
def beginLa (t : Fin 4) (s : State) : State :=
  match (laTile s t).queue with
  | [] => s
  | j :: q =>
    if isPageRef j.keyRef then modTile t (fun y => { y with queue := q, running := some j, fetching := true, mode := s.crypt.suspend }) s
    else match laKey s j with
      | some k => modTile t (fun y => { y with queue := q, running := some { j with key := some k.material }, mode := s.crypt.suspend }) s
      | none => answerJob j .keyRefused 0 false (countTile t 4 1 (modTile t (fun y => { y with queue := q }) s))

/-- The suspended job of a tile resumes, or ends with KEY_REFUSED where its key has been invalidated. -/
def resumeLa (t : Fin 4) (j : LaJob) (s : State) : State :=
  if (laKey s j).map (fun (k : KeySlot) => k.material) == j.key then modTile t (fun y => { y with running := some j, suspended := none }) s
  else answerJob j .keyRefused j.done false (countTile t 4 1 (modTile t (fun y => { y with suspended := none }) s))

/-- A tile that runs nothing takes its next job: urgent jobs first, then the suspended one, then the rest (R353, R354). (DEDUCED, log 69) -/
def startLa (t : Fin 4) : (fuel : Nat) → State → State
  | 0, s => s
  | n + 1, s =>
    let x := laTile s t
    if x.running.isSome then s
    else match x.suspended with
      | none => startLa t n (beginLa t s)
      | some j => startLa t n (if x.queue.head?.any LaJob.urgent then beginLa t s else resumeLa t j s)

/-- A tile goes on. -/
def goLa (t : Fin 4) (s : State) : State := startLa t ((tileJobs (laTile s t)).length + 1) s

/-- The tile with the fewest bytes queued. -/
def emptiestTile (s : State) : Fin 4 :=
  (List.finRange 4).foldl (fun b t => if tileBytes (laTile s t) < tileBytes (laTile s b) then t else b) 0

/-- A job joins a queue: an urgent one behind the urgent jobs, any other at the end. -/
def joinQueue (j : LaJob) (q : List LaJob) : List LaJob :=
  if j.urgent then q.filter LaJob.urgent ++ [j] ++ q.filter (fun x => !x.urgent) else q ++ [j]

/-- A place of a job that fails R204: its record. -/
def badPlace (s : State) (p : Nat × Nat) (n : Nat) : Option Bool :=
  if !handleInRange s p.1 then some false
  else if p.2 % 64 ≠ 0 then some true
  else if hodHeld s p.1 && chainRoom (chainFrom s 64 p.1) p.2 < n then some false
  else none

/-- LOOKASIDE_JOB (R351, R352): checked, then queued at the emptiest tile. -/
def execLookasideJob (cl : Cluster) (s : State) : Host.Outcome State Fault Refusal :=
  servePort cl.val 3 8 (fun _ => true) (fun op => op == 1 || op == 2) (fun m s =>
    let j : LaJob := { cluster := cl.val, core := m.core, thread := m.thread, words := m.words, key := none, done := 0 }
    let src := j.place 1
    let dst := j.place 2
    match badPlace s src j.reads, badPlace s dst j.writes with
    | some a, _ => badHod 3 m src.1 src.2 j.reads a s
    | _, some a => badHod 3 m dst.1 dst.2 j.writes a s
    | none, none =>
      if !((chainFrom s 64 src.1).all (hodHeld s) && (chainFrom s 64 dst.1).all (hodHeld s)) then .undefined 205
      else if j.length < 16 ∨ 655360 < j.length ∨ j.length % 16 ≠ 0 ∨ j.mode = 0 ∨ 3 < j.mode ∨ m.w 6 ≠ 0 ∨ m.w 7 ≠ 0 then .done .badParam [] s
      else if 256 ≤ jobsOf s cl.val then .done .noResource [] s
      else if badKeyRef j.keyRef || (laKey s j).isNone then .done .keyRefused [] (countTile (emptiestTile s) 4 1 s)
      else
        let t := emptiestTile s
        .later (goLa t (modTile t (fun x => { x with queue := joinQueue j x.queue }) s))) s

/-- LOOKASIDE_JOB_DONE: the output is written and the reply sent; the tile takes its next job. -/
def execLookasideJobDone (tile : Fin 4) (s : State) : Host.Outcome State Fault Refusal :=
  let x := laTile s tile
  .next (match x.running, x.fetching with
    | some j, false =>
      let o := jobOutput s j (j.key.getD [])
      let fails := j.mode == 1 && j.decrypts && !o.2
      let s1 := storeChain (chainFrom s 64 (j.place 2).1) (j.place 2).2 o.1 (modTile tile (fun y => { y with running := none }) s)
      let s2 := countTile tile 1 j.length (countTile tile 0 1 s1)
      goLa tile (answerJob j .ok j.length o.2 (if fails then countTile tile 3 1 s2 else s2))
    | _, _ => s)

/-- LOOKASIDE_SUSPEND (R354): an ordinary job that started under SUSPEND stops at a block boundary for an urgent one; how far it has come is open. -/
def execLookasideSuspend (tile : Fin 4) (s : State) : Host.Outcome State Fault Refusal :=
  let x := laTile s tile
  .next (match x.running, x.suspended with
    | some j, none =>
      if x.fetching || !x.mode || j.urgent || !(x.queue.head?.any LaJob.urgent) then s
      else
        let done := j.done + freshNat s % ((j.length - j.done) / 16) * 16
        let o := jobOutput s j (j.key.getD [])
        let s1 := storeChain (chainFrom s 64 (j.place 2).1) (j.place 2).2 (o.1.take done) (drawn1 s)
        goLa tile (countTile tile 2 1 (modTile tile (fun y => { y with running := none, suspended := some { j with done := done } }) s1))
    | _, _ => s)

/-- PAGE_FETCH_DONE (R340): a page that fails its check is freed and its job refused; else the job runs with its key. -/
def execPageFetchDone (tile : Fin 4) (page : Nat) (_data : List Byte) (tagOk : Bool) (s : State) : Host.Outcome State Fault Refusal :=
  let x := laTile s tile
  .next (match x.running with
    | none => s
    | some j =>
      if !x.fetching || j.keyRef % 2 ^ 24 != page then s
      else
        let refused (s : State) : State :=
          goLa tile (answerJob j .keyRefused 0 false (countTile tile 4 1 (modTile tile (fun y => { y with running := none, fetching := false }) s)))
        let bad := !tagOk || ((Tbl.find s.crypt.pages page).any fun (k : KeyPage) => k.bad)
        if bad then refused (count 0x0B 0 0x603 1 (modCrypt (fun c => { c with pages := Tbl.del c.pages page }) s))
        else match laKey s j with
          | none => refused s
          | some k => modTile tile (fun y => { y with running := some { j with key := some k.material }, fetching := false }) s)

end Sys2Proof.Machine
end

