-- ==== Sys2Proof/Machine/Programs.lean ====
section
/-! DEFINITION. Programs.lean: the core-program commands and what modes do to the cores (R394 to R398). -/

namespace Sys2Proof.Machine
open Sys2Proof

/-- The clusters of a mask. -/
def maskClusters (m : Nat) : List (Fin 16) := (List.finRange 16).filter fun c => bitAt m c.val
/-- The cores of a cluster that are in service. -/
def activeCores (s : State) (cl : Nat) : List Nat := (upFrom (16 * cl) 16).filter fun ck => !isLost s 0x03 ck

/-! Loading -/

/-- The header of the running image. -/
def runningHeader (s : State) : List Byte := slotHeader s s.sec.slot
/-- The bytes of component k of the running image, if its digest holds and it is of a type. -/
def componentBytes (s : State) (k type : Nat) : Option (List Byte) :=
  let h := runningHeader s
  let c := component h k
  let b := imgBytes s.nv.flash (slotBase s.sec.slot) c.offset c.size
  if hdr h 0x18 1 % 64 ≤ k ∨ c.type ≠ type ∨ Config.sha384 b ≠ c.digest then none else some b

/-- The images of a core program (R396): none for a component that is not one, or fails its digest. (DESIGN CHOICE, log 54) -/
def programOfComponent (s : State) (k : Nat) : Option ProgramImage := (componentBytes s k 3).bind Config.programImage

/-- One of the core memories replaced by bytes from its start on. -/
def fillMem (space : Nat) (bs : List Byte) (s : State) : State :=
  modCores (fun c => { c with poison := c.poison.filter fun g => g.1 != space }) (writeMem space 0 bs s)

/-- A core's breakpoints are discarded without restoring anything (R477). -/
def dropBps (ck : Nat) (s : State) : State := modCore ck (fun c => { c with bps := [] }) s

/-- A program's images written into a cluster's cores in service and its shared memory. -/
def loadCluster (program : Nat) (img : ProgramImage) (cl : Fin 16) (s : State) : State :=
  let s1 := (activeCores s cl.val).foldl (fun s ck => dropBps ck (fillMem (dataSpace ck) img.data (fillMem (instrSpace ck) img.instr s))) s
  modCluster cl (fun c => { c with program := some program, image := some img, started := none }) (fillMem (clusterSpace cl.val) img.shared s1)

/-- MR4's digest of a load (R422). (DEDUCED, log 38) -/
def loadDigest (s : State) (k program mask : Nat) : List Byte :=
  Config.sha384 ((component (runningHeader s) k).digest ++ leBytes 1 program ++ leBytes 2 mask)

/-- A load or stop of some cluster of a mask runs. -/
def loadRuns (s : State) (mask : Nat) : Bool :=
  s.ops.any fun o => match o.kind with
    | .programLoad _ _ m => m &&& mask != 0
    | _ => false

/-- PROGRAM_LOAD (R395, R396). -/
def programLoadDef : CmdDef where
  opcode := 0x0900
  owner := true
  objs := Obj.isDevice
  len := fun n => n == 1
  checks := fun _ p s =>
    [ (p.f 0 8 8 != 0 || p.f 0 20 12 != 0 || p.f 1 16 16 != 0, .badParam),
      ((maskClusters (p.w 1)).any (fun c => clusterLive s c.val) || loadRuns s (p.w 1), .busy),
      (opLimitReached p s, .noResource),
      ((programOfComponent s (p.f 0 0 8)).isNone, .imageInvalid) ]
  act := fun _ p s =>
    let s1 := extend 4 (loadDigest s (p.f 0 0 8) (p.f 0 16 4) (p.w 1)) s
    startOp 0x0900 p (.programLoad (p.f 0 0 8) (p.f 0 16 4) (p.w 1)) (maskClusters (p.w 1)).length 0 s1

/-- One step of PROGRAM_LOAD writes one cluster. (DEDUCED, log 73) -/
def programLoadStep (o : LongOp) (k program mask : Nat) (s : State) : State :=
  match (maskClusters mask)[o.stepsDone]?, programOfComponent s k with
  | some c, some img =>
    let s1 := loadCluster program img c s
    if o.stepsDone + 1 < (maskClusters mask).length then putOp { o with stepsDone := o.stepsDone + 1 } s1 else opDone o .ok [] s1
  | none, _ => opDone o .ok [] s
  | _, none => opDone o .imageInvalid [] s

/-! Starting and stopping -/

/-- Thread 0 of a core starts at ENTRY with a0 = ARG and a1 = THREAD_ID. -/
def startCore (program entry arg ck : Nat) (s : State) : State :=
  modCore ck (fun c => { c with threads := Tbl.put c.threads 0 (((Thread.fresh entry).setX 10 arg).setX 11 (16 * ck + program * 65536)), wdogFrom := s.now }) s

/-- Every core in service of a cluster starts. -/
def startCluster (entry arg : Nat) (cl : Fin 16) (s : State) : State :=
  let p := ((cluster s cl.val).program).getD 0
  modCluster cl (fun c => { c with started := some (entry, arg) }) ((activeCores s cl.val).foldl (fun s ck => startCore p entry arg ck s) s)

/-- PROGRAM_START (R396). -/
def programStartDef : CmdDef where
  opcode := 0x0901
  owner := true
  objs := Obj.isDevice
  len := fun n => n == 3
  checks := fun _ p s =>
    [ (p.f 0 16 16 != 0 || p.w 1 != 0 || 0x10000 ≤ p.d 2, .badParam),
      ((maskClusters (p.w 0)).any fun c => (cluster s c.val).program.isNone || clusterLive s c.val, .badParam),
      (loadRuns s (p.w 0), .busy) ]
  act := fun _ p s => reply [] ((maskClusters (p.w 0)).foldl (fun s c => startCluster (p.d 2) (p.d 4) c s) s)

/-- A number no thread carries: requests of stopped threads are served without a reply. -/
def nobody : Nat := 16

/-- The requests of a cluster's stopped threads lose their threads, and its RECVs end. (DEDUCED, log 73) -/
def orphanRequests (cl : Fin 16) (s : State) : State :=
  let f (m : PortMsg) : PortMsg := { m with thread := nobody }
  let g (j : LaJob) : LaJob := if j.cluster = cl.val then { j with thread := nobody } else j
  let tile (x : LaTile) : LaTile := { x with running := x.running.map g, suspended := x.suspended.map g, queue := x.queue.map g }
  modCluster cl (fun c => { c with ports := Tbl.mapAll c.ports fun _ (l : List PortMsg) => l.map f, recvs := [] })
    (modCrypt (fun c => { c with tiles := c.tiles.map tile }) s)

/-- Every thread of a cluster is killed and every context is FREE; its punt queue is freed (R396). (DEDUCED, log 73) -/
def stopCluster (cl : Fin 16) (s : State) : State :=
  let s1 := (upFrom (16 * cl.val) 16).foldl (fun s ck =>
    modCore ck (fun c => { c with threads := [] }) ((threadsOf s ck).foldl (fun s t => drainAll ck t s) s)) s
  let us := (cluster s1 cl.val).punts
  let s2 := count 0x0C 0 (16 * cl.val + 9) us.length (us.foldl (fun s (u : Punt) => freeHods u.pkt.hods s) s1)
  modCluster cl (fun c => { c with punts := [], started := none }) (orphanRequests cl s2)

/-- Every cluster is stopped, as under PROGRAM_STOP: entry to MAINTENANCE and PARK (R398). -/
def stopClusters (s : State) : State := (List.finRange 16).foldl (fun s c => stopCluster c s) s

/-- A cluster is unloaded: LOADED clears, its memories are zeroed and its breakpoints discarded (R396). -/
def unloadCluster (cl : Fin 16) (s : State) : State :=
  let gone (k : Nat) : Bool := k == clusterSpace cl.val || (decide (32 ≤ k) && (k - 32) % 480 / 16 == cl.val && (k < 288 || (512 ≤ k && k < 768)))
  let s1 := modCores (fun c => { c with mems := Tbl.keepIf c.mems fun k _ => !gone k, poison := c.poison.filter fun g => !gone g.1 }) s
  modCluster cl (fun c => { c with program := none, image := none, started := none }) ((upFrom (16 * cl.val) 16).foldl (fun s ck => dropBps ck s) s1)

/-- PROGRAM_STOP (R396). -/
def programStopDef : CmdDef where
  opcode := 0x0902
  owner := true
  objs := Obj.isDevice
  len := fun n => n == 1
  checks := fun _ p s =>
    [ (p.f 0 17 15 != 0 || p.w 1 != 0, .badParam),
      (loadRuns s (p.f 0 0 16), .busy) ]
  act := fun _ p s =>
    let s1 := (maskClusters (p.f 0 0 16)).foldl (fun s c => stopCluster c s) s
    let s2 := (maskClusters (p.f 0 0 16)).foldl (fun s c => (upFrom (16 * c.val) 16).foldl (fun s ck => dropBps ck s) s) s1
    reply [] (if p.b 0 16 then (maskClusters (p.f 0 0 16)).foldl (fun s c => unloadCluster c s) s2 else s2)

/-- SOURCES of CHANNEL_GRANT and of a START_LIST record: 32 bytes. -/
def sourcesOf (b : List Byte) : Nat := leNat b

/-- A named source is held by another program. -/
def sourceHeld (s : State) (program sources : Nat) : Bool := s.cores.grants.any fun g => g.1 != program && g.2.sources &&& sources != 0

/-- A program's whole grant replaced. -/
def grant (program ports sources : Nat) (s : State) : State :=
  modCores (fun c => { c with grants := Tbl.put c.grants program { ports := ports, sources := sources } }) s

/-- CHANNEL_GRANT (R383, R397). -/
def channelGrantDef : CmdDef where
  opcode := 0x0903
  owner := true
  objs := Obj.isDevice
  len := fun n => n == 5
  checks := fun _ p s =>
    [ (p.f 0 4 4 != 0 || p.f 0 14 18 != 0 || p.w 1 != 0, .badParam),
      (sourceHeld s (p.f 0 0 4) (sourcesOf (slice p.bytes 8 32)), .noResource) ]
  act := fun _ p s => reply [] (grant (p.f 0 0 4) (p.f 0 8 6) (sourcesOf (slice p.bytes 8 32)) s)

/-! Status (R397) -/

/-- CORE_CL_STATUS; SPARE_FOR of an unused spare reads 0. -/
def clStatusWord (s : State) (cl : Nat) : Nat :=
  let c := cluster s cl
  let spare := Tbl.find s.bist.coreSpares cl
  (c.program.getD 0) % 16 * 2 ^ 28 + b2n c.program.isSome * 2 ^ 27 + b2n (clusterLive s cl) * 2 ^ 26 + b2n spare.isSome * 2 ^ 20
    + (spare.getD 0) % 16 * 65536 + (activeCores s cl).length

/-- CORE_THREADS_LO. -/
def threadsLo (s : State) (ck : Nat) : Nat := (upFrom 0 10).foldl (fun n t => n + threadCode s ck t * 2 ^ (3 * t)) 0
/-- CORE_THREADS_HI. -/
def threadsHi (s : State) (ck : Nat) : Nat := (upFrom 0 6).foldl (fun n t => n + threadCode s ck (t + 10) * 2 ^ (3 * t)) 0

/-- CORE_STATUS (R397). -/
def coreStatusDef : CmdDef where
  opcode := 0x0904
  owner := true
  objs := Obj.isDevice
  longResult := true
  len := fun n => n == 1
  checks := fun _ p _ => [(p.f 0 4 28 != 0 || p.w 1 != 0, .badParam)]
  act := fun _ p s =>
    let cl := p.f 0 0 4
    replyLong (clStatusWord s cl :: (upFrom (16 * cl) 16).flatMap fun ck => [threadsLo s ck, threadsHi s ck] ++ words64 (coreOf s ck).retired) s

/-- WATCHDOG_SET (R393, R397). -/
def watchdogSetDef : CmdDef where
  opcode := 0x0905
  owner := true
  objs := Obj.isDevice
  len := fun n => n == 1
  checks := fun _ p _ => [(p.f 0 18 14 != 0 || p.f 1 22 10 != 0 || 4000000 < p.w 1, .badParam)]
  act := fun _ p s =>
    reply [] (((maskClusters (p.f 0 0 16)).flatMap fun c => upFrom (16 * c.val) 16).foldl (fun s ck =>
      modCore ck (fun c => { c with wdogAction := p.f 0 16 2, wdogTimeout := p.f 1 0 22, wdogFrom := s.now }) s) s)

/-- PROGRAM_LOAD. -/
def execProgramLoad (p : Packet) (s : State) : Host.Outcome State Fault Refusal := .next (runCmd programLoadDef (.programLoad p) p s)
/-- PROGRAM_START. -/
def execProgramStart (p : Packet) (s : State) : Host.Outcome State Fault Refusal := .next (runCmd programStartDef (.programStart p) p s)
/-- PROGRAM_STOP. -/
def execProgramStop (p : Packet) (s : State) : Host.Outcome State Fault Refusal := .next (runCmd programStopDef (.programStop p) p s)
/-- CHANNEL_GRANT. -/
def execChannelGrant (p : Packet) (s : State) : Host.Outcome State Fault Refusal := .next (runCmd channelGrantDef (.channelGrant p) p s)
/-- CORE_STATUS. -/
def execCoreStatus (p : Packet) (s : State) : Host.Outcome State Fault Refusal := .next (runCmd coreStatusDef (.coreStatus p) p s)
/-- WATCHDOG_SET. -/
def execWatchdogSet (p : Packet) (s : State) : Host.Outcome State Fault Refusal := .next (runCmd watchdogSetDef (.watchdogSet p) p s)

end Sys2Proof.Machine
end

