-- ==== Sys2Proof/Machine/Dram.lean ====
section
/-! DEFINITION. Dram.lean: requests to the DRAM channels, their errors, refresh, loss and repair, and the carve command (R402 to R420). -/

namespace Sys2Proof.Machine
open Sys2Proof

/-- A channel's counter (R420). -/
def countDram (ch i : Nat) (s : State) : State := count 0x0D 0 (32 * ch + i) 1 s

/-! Requests (R410 to R413) -/

/-- The number of a port kind among the LATE counters. -/
def kindIx : DramKind → Nat
  | .ctx => 0 | .ingest => 1 | .cacheRead => 2 | .keyPage => 3 | .program => 4 | .device => 5

/-- The target of a request in ns: a host's from the QUOTA topcoat, the device's fixed (R410). -/
def dramTarget (s : State) (k : DramKind) (d : Domain) : Nat :=
  if h : d.val < 8 ∧ kindIx k < 4 then limit s ⟨d.val, h.1⟩ (0x50 + kindIx k)
  else match k with
    | .ctx => 1000
    | .keyPage => 2000
    | .program => 2000
    | _ => 10000000

/-- Poison of the 64-byte location at a device physical address (R414). -/
def dramPoisoned (s : State) (dpa : Nat) : Bool := s.cores.poison.contains (1025, dpa / 64)

/-- A request accepted by its channel: counted; a write takes its place in the order of accesses at once and clears poison, a read waits for its data (R412, R414). (DEDUCED, log 74) -/
def acceptDram (ch : Nat) (w : DramWait) (s : State) : State :=
  let dpa := w.req.addr.toNat / 64 * 64
  let s1 := modChan ch (fun c => { c with accesses := c.accesses + 1 }) s
  match w.req.write with
  | some bs => countDram ch 1 (cleanPoison (1025, dpa) 64 (modDram (fun d => { d with mem := Mem.writeBytes d.mem 0 dpa (bs.take 64) }) s1))
  | none => countDram ch 0 (modChan ch (fun c => { c with queue := c.queue ++ [{ w with data := Mem.readBytes s.dram.mem 0 dpa 64 }] }) s1)

/-- DRAM_REQUEST: answered poisoned where no channel serves the address, accepted where the channel has room, else waiting at its port. -/
def execDramRequest (r : DramReq) (s : State) : Host.Outcome State Fault Refusal :=
  let w : DramWait := { req := r, issued := nowNs s, deadline := nowNs s + dramTarget s r.kind r.domain, retried := false, data := [] }
  .next (match channelAt s r.addr.toNat with
    | none => emit (.dram 0 r.addr.toNat 2 []) s
    | some ch =>
      if dramGone s r.addr.toNat then emit (.dram ch r.addr.toNat 2 []) s
      else if 256 ≤ (dramChan s ch).queue.length then modChan ch (fun c => { c with waiting := c.waiting ++ [w] }) s
      else acceptDram ch w s)

/-- A request that waits at its port is taken when the channel has room. -/
def takeWaiting (ch : Nat) (s : State) : State :=
  match (dramChan s ch).waiting with
  | [] => s
  | w :: r => if 256 ≤ (dramChan s ch).queue.length then s else acceptDram ch w (modChan ch (fun c => { c with waiting := r }) s)

/-! Rows (R418) -/

/-- What has been seen of a row. -/
def rowOf (s : State) (ch row : Nat) : RowState := Tbl.getD (dramChan s ch).rows row ⟨[], false, 0⟩

/-- Something has been found in a row: it becomes a candidate for repair with four distinct correctable locations, or with poison. -/
def noteRow (ch row dpa : Nat) (poison : Bool) (s : State) : State :=
  let r := rowOf s ch row
  let r1 : RowState := { r with bad := if poison then r.bad else insertNat r.bad (dpa / 64), poisoned := r.poisoned || poison }
  let due := r1.state == 0 && (r1.poisoned || 4 ≤ r1.bad.length)
  modChan ch (fun c => { c with
    rows := Tbl.put c.rows row (if due then { r1 with state := 1 } else r1)
    candidates := if due then c.candidates ++ [row] else c.candidates }) s

/-- A location is poisoned: UE (R414). -/
def poisonDram (ch row dpa : Nat) (s : State) : State := noteRow ch row dpa true (poisonAt (1025, dpa / 64 * 64) 64 (countDram ch 3 s))

/-- A corrected error: CE, the location rewritten. -/
def correctDram (ch row dpa : Nat) (s : State) : State := noteRow ch row dpa false (countDram ch 2 s)

/-- LATE of a request whose age has reached its target (R410). (DEDUCED, log 74) -/
def countLate (w : DramWait) (s : State) : State :=
  if nowNs s < w.deadline then s else count 0x0D 0 (0x200 + 8 * w.req.domain.val + kindIx w.req.kind) 1 s

/-- A read is answered. (DEDUCED, log 74) -/
def answerDram (ch : Nat) (w : DramWait) (poison : Bool) (s : State) : State :=
  takeWaiting ch (emit (.dram ch w.req.addr.toNat (if poison then 2 else 0) (if poison then [] else w.data)) (countLate w s))

/-- DRAM_READ_ECC: the oldest read of the location is answered, corrected, re-read once, or answered poisoned. -/
def execDramReadEcc (ch : DramCh) (addr : DWord) (e : EccResult) (s : State) : Host.Outcome State Fault Refusal :=
  let c := dramChan s ch.val
  let at_ (w : DramWait) : Bool := w.req.addr.toNat / 64 == addr.toNat / 64
  .next (match c.queue.find? at_, c.queue.findIdx? at_ with
    | some w, some i =>
      let s1 := modChan ch.val (fun c => { c with queue := c.queue.eraseIdx i }) s
      if c.state ≠ 2 then s
      else if dramPoisoned s addr.toNat then answerDram ch.val w true s1
      else match e.found.val with
        | 0 => answerDram ch.val w false s1
        | 1 => answerDram ch.val w false (correctDram ch.val e.row addr.toNat s1)
        | _ =>
          if w.retried then answerDram ch.val w true (poisonDram ch.val e.row addr.toNat s1)
          else countDram ch.val 4 (modChan ch.val (fun c => { c with queue := c.queue.set i { w with retried := true } }) s)
    | _, _ => s)

/-- PATROL_SCRUB (R414): a read of the scrub, re-read once where it is uncorrectable, the result being that of the re-read. -/
def execPatrolScrub (ch : DramCh) (addr : DWord) (e : EccResult) (s : State) : Host.Outcome State Fault Refusal :=
  .next (if (dramChan s ch.val).state ≠ 2 ∨ channelAt s addr.toNat ≠ some ch.val then s
    else
      let s1 := countDram ch.val 0 (modChan ch.val (fun c => { c with accesses := c.accesses + 1 }) s)
      if dramPoisoned s addr.toNat then s1
      else match e.found.val with
        | 0 => s1
        | 1 => correctDram ch.val e.row addr.toNat s1
        | _ => poisonDram ch.val e.row addr.toNat (countDram ch.val 4 s1))

/-! Alerts and loss (R416, R417) -/

/-- A channel is lost: its requests are answered poisoned, and DEGRADED follows. -/
def loseChannelFor (reason ch : Nat) (s : State) : State :=
  let c := dramChan s ch
  let ws := c.queue ++ c.waiting.filter fun w => w.req.write.isNone
  let s1 := modChan ch (fun c => { c with state := 5, queue := [], waiting := [], candidates := [] }) s
  unitLost 0x0A reason ch 0 (ws.foldl (fun s w => emit (.dram ch w.req.addr.toNat 2 []) (countLate w s)) s1)

/-- A channel is lost in service. -/
def loseChannel (ch : Nat) (s : State) : State := loseChannelFor 6 ch s

/-- DRAM_ALERT: a replay, or a retrain at the fourth alert within 10 µs. -/
def execDramAlert (ch : DramCh) (writeCrc : Bool) (s : State) : Host.Outcome State Fault Refusal :=
  let c := dramChan s ch.val
  let recent := (c.alerts.filter fun t => nowNs s < t + 10000) ++ [nowNs s]
  .next (if c.state ≠ 2 ∧ c.state ≠ 3 then s
    else
      let s1 := countDram ch.val (if writeCrc then 6 else 5) s
      if 4 ≤ recent.length then countDram ch.val 7 (modChan ch.val (fun c => { c with state := 4, alerts := [] }) s1)
      else modChan ch.val (fun c => { c with state := 3, alerts := recent }) s1)

/-- A channel runs again; a refresh that fell into the stop is issued at once (R409). -/
def channelReady (ch : Nat) (s : State) : State :=
  let s1 := modChan ch (fun c => { c with state := 2, refreshOwed := false }) s
  if (dramChan s ch).refreshOwed then countDram ch 9 (countDram ch 8 s1) else s1

/-- DRAM_REPLAY_DONE. -/
def execDramReplayDone (ch : DramCh) (s : State) : Host.Outcome State Fault Refusal :=
  .next (if (dramChan s ch.val).state = 3 then channelReady ch.val s else s)

/-- DRAM_RETRAIN_DONE. -/
def execDramRetrainDone (ch : DramCh) (ok : Bool) (s : State) : Host.Outcome State Fault Refusal :=
  .next (if (dramChan s ch.val).state ≠ 4 then s else if ok then channelReady ch.val s else loseChannel ch.val s)

/-! Refresh (R408, R409) -/

/-- DRAM_REFRESH: every running channel opens its window at the same instant; tREFI follows the hot mode from here on. -/
def execDramRefresh (s : State) : Host.Outcome State Fault Refusal :=
  let one (s : State) (ch : Nat) : State :=
    match (dramChan s ch).state with
    | 2 => countDram ch 8 s
    | 3 => modChan ch (fun c => { c with refreshOwed := true }) s
    | 4 => modChan ch (fun c => { c with refreshOwed := true }) s
    | _ => s
  .next (modDram (fun d => { d with trefi := if d.hotMode then 1950 else 3900 }) ((upFrom 0 12).foldl one s))

/-- A channel that is in service. -/
def chanServes (c : DramChan) : Bool := c.state == 2 || c.state == 3 || c.state == 4

/-- RDIMM_TEMP_READ: none is a failed read. -/
def execRdimmTempRead (ch : DramCh) (temp : Option Int) (s : State) : Host.Outcome State Fault Refusal :=
  .next (if !chanServes (dramChan s ch.val) then s
    else
      let s1 := modChan ch.val (fun c => { c with temp := temp.getD c.temp, hot := match temp with
        | none => true
        | some t => decide (85 < t) }) s
      let cs := s1.dram.chans.toList.filter chanServes
      let cool := cs.all fun c => !c.hot && decide (c.temp ≤ 83)
      modDram (fun d => { d with hotMode := if cs.any fun c => c.hot then true else if cool then false else d.hotMode }) s1)

/-! Post-package repair (R418) -/

/-- FOUND of a repair record: at BOOT, in PARK, or in service. -/
def foundNow (s : State) : Nat :=
  match s.glb.mode with
  | .boot => 4
  | .park => 1
  | _ => 3

/-- PPR_REPAIR: the oldest candidate takes a soft repair, or is recorded as unrepairable. -/
def execPprRepair (ch : DramCh) (ok : Bool) (s : State) : Host.Outcome State Fault Refusal :=
  let c := dramChan s ch.val
  .next (match c.candidates with
    | [] => s
    | row :: r =>
      if !chanServes c then s
      else
        let e : RepairEntry := { kind := 0x0B, state := if ok then 1 else 3, found := foundNow s, bootCount := s.nv.bootCount, unit := ch.val, location := row, serial := c.serial }
        let s1 := modChan ch.val (fun c => { c with candidates := r, rows := Tbl.modify c.rows row fun x => { x with state := if ok then 2 else 3 } }) s
        let s2 := repair e (countDram ch.val 10 s1)
        if 64 < Tbl.countIf (dramChan s2 ch.val).rows (fun _ x => x.state == 3) then loseChannel ch.val s2 else s2)

/-! The carve command (R403 to R405) -/

/-- The fixed areas in bytes. -/
def fixedAreas : Nat := cacheBase

/-- A cluster has a program, or a cache segment is dirty, held or FAILED. -/
def carveBlocked (s : State) : Bool :=
  (List.finRange 16).any (fun c => (s.cores.clusters[c]).program.isSome) || s.nvme.segs.any (fun g => !g.blocks.isEmpty || g.held || g.failed)

/-- DRAM_CARVE_SET runs. -/
def carveRuns (s : State) : Bool :=
  s.ops.any fun o => match o.kind with
    | .carveSet _ _ _ => true
    | _ => false

/-- DRAM_CARVE_SET (R404). -/
def dramCarveSetDef : CmdDef where
  opcode := 0x0204
  owner := true
  gate := .drained
  objs := Obj.isDevice
  len := fun n => n == 1
  checks := fun _ p s =>
    [ (p.f 0 0 7 < 1 || 64 < p.f 0 0 7 || p.f 1 0 16 == 0 || dramBytes s < fixedAreas + (p.f 0 0 7 + p.f 1 0 16) * gib
        || p.f 0 7 25 != 0 || p.f 1 16 16 != 0, .badParam),
      (carveBlocked s || carveRuns s, .busy),
      (opLimitReached p s, .noResource) ]
  act := fun _ p s =>
    startOp 0x0204 p (.carveSet (p.f 0 0 7) (p.f 1 0 16) true) 1 0 (modNv (fun v => { v with carve := some ⟨p.f 0 0 7, p.f 1 0 16⟩ }) s)

/-- DRAM_CARVE_SET. -/
def execDramCarveSet (p : Packet) (s : State) : Host.Outcome State Fault Refusal := .next (runCmd dramCarveSetDef (.dramCarveSet p) p s)

/-- The program area and the overflow filled with zeros. -/
def zeroProgramArea (s : State) : State :=
  let a := programBase s
  modCores (fun c => { c with poison := c.poison.filter fun g => g.1 != 1025 || g.2 * 64 < a })
    (modDram (fun d => { d with mem := Mem.erase d.mem a (dramBytes s - a) }) s)

/-- The step of DRAM_CARVE_SET: an empty cache index, zeroed program memory, the new carve in force. (DEDUCED, log 74) -/
def carveStep (o : LongOp) (cacheGiB progGiB : Nat) (s : State) : State :=
  let s1 : State := { s with carve := ⟨cacheGiB, progGiB⟩, nvme := { s.nvme with segs := [] } }
  opDone o .ok [] (zeroProgramArea s1)

/-! The imbalance register (R407) -/

/-- At a boundary: the busiest channel of the ended epoch and its share in 1,024ths. -/
def imbalance (s : State) : State :=
  let xs := s.dram.chans.toList.map fun c => c.accesses
  let total := xs.foldl (· + ·) 0
  let top := xs.foldl max 0
  let ch := (xs.findIdx? fun n => n == top).getD 0
  let share := if total = 0 then 0 else top * 1024 / total
  modDram (fun d => { d with
    maxCh := if total = 0 then 0 else ch, maxShare := share
    alert := d.alert || (d.threshold != 0 && decide (d.threshold ≤ share) && decide (65536 ≤ total))
    chans := d.chans.map fun c => { c with accesses := 0 } }) s

end Sys2Proof.Machine
end

