-- ==== Sys2Proof/Machine/Elec.lean ====
section
/-! DEFINITION. Elec.lean: the junction sensors, the adaptive voltage loop and the regulators (R483, R484, R493, R494, R498). -/

namespace Sys2Proof.Machine
open Sys2Proof

/-- The electrical state changed. -/
def modElec (f : Elec → Elec) (s : State) : State := { s with elec := f s.elec }

/-- A GLB counter of R498. -/
def countGlb (i : Nat) (s : State) : State := count 0 0 i 1 s

/-! Events (R494) -/

/-- A sensor stands in the degradation record: it is excluded. -/
def excluded (s : State) (n : Nat) : Bool := isLost s 0x0D n

/-- Sensors in service. -/
def sensors (s : State) : List Nat := (upFrom 0 16).filter fun n => !excluded s n

/-- A sensor's last reading. -/
def reading (s : State) (n : Nat) : Int := s.elec.readings[(⟨n % 16, Nat.mod_lt _ (by decide)⟩ : Fin 16)]

/-- A signed value as a 32-bit word. -/
def word32 (i : Int) : Nat := (i % 2 ^ 32).toNat

/-- THERMAL, each cause but TRIP at most once per second. (DEDUCED, log 78) -/
def raiseThermal (cause sensor value : Nat) (s : State) : State :=
  if cause ≠ 3 ∧ (Tbl.find s.elec.lastEvent cause).any (fun t => nowNs s < t + 1000000000) then s
  else raiseOwner 0x80 0 0 [cause + sensor * 256 + (sensors s).length * 65536, value]
    (modElec (fun e => { e with lastEvent := Tbl.put e.lastEvent cause (nowNs s) }) s)

/-! Sensors (R493) -/

/-- A reading put into a list in ascending order. -/
def sortInto (a : Int) : List Int → List Int
  | [] => [a]
  | b :: r => if a ≤ b then a :: b :: r else b :: sortInto a r

/-- Twice the median: of an even number of values, the sum of the two in the middle. (DEDUCED, log 78) -/
def twiceMedian (l : List Int) : Int :=
  let o := l.foldr sortInto []
  o.getD ((o.length - 1) / 2) 0 + o.getD (o.length / 2) 0

/-- A sensor reads more than 10 °C from the median of the others in service. (DEDUCED, log 78) -/
def strays (s : State) (n : Nat) : Bool :=
  let others := ((sensors s).filter fun m => m != n).map (reading s)
  !others.isEmpty && decide (80 < (2 * reading s n - twiceMedian others).natAbs)

/-- The sensor with the highest reading in service, the lowest-numbered first. -/
def hottest (s : State) : Option Nat :=
  (sensors s).foldl (fun b n => match b with
    | none => some n
    | some m => if reading s m < reading s n then some n else some m) none

/-- A sensor is excluded: recorded as UNREPAIRABLE, counted and reported. -/
def excludeSensor (reason found n : Nat) (s : State) : State :=
  if excluded s n then s
  else
    let s1 := countGlb 6 (unitLost 0x0D reason n 0 s)
    raiseThermal 4 n (word32 s1.elec.tj)
      (repair { kind := 0x0D, state := 3, found := found, bootCount := s.nv.bootCount, unit := n, location := 0, serial := 0 } s1)

/-- WARN in 0.25 °C units (GLB_THERMAL); with fewer than 8 sensors 140 °C. -/
def warnAt (s : State) : Int :=
  if (sensors s).length < 8 then 560 else 4 * (max 100 (min 150 (bitsAt (Tbl.getD s.regs 0x140 0x91000000).toNat 24 8)) : Nat)
/-- TRIP in 0.25 °C units. -/
def tripAt (s : State) : Int := if (sensors s).length < 8 then 600 else 640

/-- WARN and WARN_CLEAR. (DEDUCED, log 78) -/
def checkWarn (n : Nat) (s : State) : State :=
  let e := s.elec
  if !e.warning && decide (warnAt s ≤ e.tj) then raiseThermal 1 n (word32 e.tj) (countGlb 5 (modElec (fun e => { e with warning := true }) s))
  else if e.warning && decide (e.tj ≤ warnAt s - 20) then raiseThermal 2 n (word32 e.tj) (modElec (fun e => { e with warning := false }) s)
  else s

/-- TRIP: THERMTRIP_N asserts after 10 consecutive samples and stays asserted. -/
def checkTrip (n : Nat) (s : State) : State :=
  let run := if tripAt s ≤ s.elec.tj then s.elec.tripRun + 1 else 0
  let s1 := modElec (fun e => { e with tripRun := min run 10 }) s
  if s.elec.tripped || run < 10 then s1
  else
    let s2 := modElec (fun e => { e with tripped := true }) { s1 with nv := { s1.nv with thermTrips := (s1.nv.thermTrips + 1) % 2 ^ 64 } }
    raiseThermal 3 n (word32 s.elec.tj) (emit (.pin "THERMTRIP_N" false) s2)

/-- COLD, and the TEMPERATURE alarm of R355. (DEDUCED, log 78) -/
def checkLimits (old : Int) (n : Nat) (s : State) : State :=
  let t := s.elec.tj
  let s1 := if -180 ≤ old ∧ t < -180 then raiseThermal 5 n (word32 t) s else s
  if (t < -200 ∨ 660 < t) ∧ !bitAt s1.crypt.present 2 then alarmSource 3 0 s1 else s1

/-- The over-temperature event of every controller whose threshold Tj has reached (R297, R298); thresholds are in kelvins. -/
def thermalAers (old : Int) (s : State) : State :=
  let kelvin (t : Int) : Int := (t * 25 + 27315) / 100
  (s.nvme.ctrls.map (·.1)).foldl (fun s k =>
    let above := Tbl.getD (ctrl s k).features 0x040000 0xFFFF
    if kelvin old < above ∧ (above : Int) ≤ kelvin s.elec.tj then raiseAer k 0x020101 1 s else s) s

/-- THERMAL_SENSOR_SAMPLE (R493). -/
def execThermalSensorSample (temps : Vector Int 16) (s : State) : Host.Outcome State Fault Refusal :=
  let s1 := modElec (fun e => { e with readings := temps }) s
  let far (s : State) (n : Fin 16) : Nat := if excluded s n.val || !strays s n.val then 0 else (s.elec.far[n]) + 1
  let s2 := modElec (fun e => { e with far := Vector.ofFn (far s1) }) s1
  let s3 := (List.finRange 16).foldl (fun s n => if 100 ≤ s.elec.far[n] ∧ s.glb.fwRuns then excludeSensor 6 (foundNow s) n.val s else s) s2
  .next (if !s.glb.powered then s
    else match hottest s3 with
      | none => s3
      | some n =>
        let s4 := modElec (fun e => { e with tj := reading s3 n }) s3
        thermalAers s.elec.tj (checkLimits s.elec.tj n (checkTrip n (checkWarn n s4))))

/-! The adaptive voltage loop (R484) -/

/-- The loop is held at 0.70 V, or at its last value once its regulator has failed. (PRESUMED, log 79) -/
def avsHeld (s : State) : Bool :=
  !s.glb.fwRuns || s.glb.mode == .park || bitAt (Tbl.getD s.regs 0x150 0).toNat 31 || lostCount s 0x0E != 0 || s.elec.stuck || !s.elec.linear

/-- VOUT_COMMAND is written to VDD_CORE's regulator, in mV. (PRESUMED, log 79) -/
def setVout (mv : Nat) (s : State) : State :=
  if s.elec.vout = mv then s else emit (.pmbus 0x40 0x21 mv) (modElec (fun e => { e with vout := mv }) s)

/-- AVS_DECISION: the lowest margin lies below LOW, or above HIGH. -/
def execAvsDecision (slow fast : Bool) (s : State) : Host.Outcome State Fault Refusal :=
  let e := s.elec
  .next (if !s.glb.powered || e.stuck || (s.glb.mode == .park && s.bist.phase == 9) then s
    else if avsHeld s then setVout 700 (modElec (fun e => { e with fastRun := 0 }) s)
    else if slow then
      let s1 := modElec (fun e => { e with fastRun := 0 }) s
      if e.vout < 700 then countGlb 0 (setVout (min 700 (e.vout + 5)) s1) else s1
    else if !fast then modElec (fun e => { e with fastRun := 0 }) s
    else if e.fastRun + 1 < 100 then modElec (fun e => { e with fastRun := e.fastRun + 1 }) s
    else
      let s1 := modElec (fun e => { e with fastRun := 0 }) s
      if 620 < e.vout then countGlb 1 (setVout (max 620 (e.vout - 5)) s1) else s1)

/-- AVS_EMERGENCY: 20 mV up, unless the loop is held. -/
def execAvsEmergency (s : State) : Host.Outcome State Fault Refusal :=
  .next (if !s.glb.powered || avsHeld s then s
    else countGlb 2 (setVout (min 700 (s.elec.vout + 20)) (modElec (fun e => { e with fastRun := 0 }) s)))

/-- REGULATOR_POLL: VDD_CORE's regulator that fails three tries stops the loop; a fault bit is counted and cleared. -/
def execRegulatorPoll (reg : Fin 7) (r : PollResult) (s : State) : Host.Outcome State Fault Refusal :=
  .next (if !s.glb.fwRuns || !s.elec.present[reg] || (s.glb.mode == .park && s.bist.phase == 9) then s
    else if !r.answered then
      if reg.val = 0 ∧ !s.elec.stuck then raiseThermal 6 0 s.elec.vout (countGlb 3 (modElec (fun e => { e with stuck := true }) s)) else s
    else if r.fault then emit (.pmbus (0x40 + reg.val) 0x03 0) (countGlb 4 s)
    else s)

end Sys2Proof.Machine
end

