-- ==== Sys2Proof/Machine/Eth.lean ====
section
/-! DEFINITION. Eth.lean: port layouts, link bring-up, hold-off and lane faults of the Ethernet ports (chapter 5). -/

namespace Sys2Proof.Machine
open Sys2Proof

/-- State codes of ETH_PORT_STATUS. -/
def LinkState.code : LinkState → Nat
  | .disabled => 0 | .an => 1 | .training => 2 | .aligning => 3 | .up => 4 | .fault => 5 | .hold => 6

/-- WIDTH of an ETH_PORT_CFG. -/
def cfgWidth (w : Word) : Nat := bitsAt w.toNat 0 4
/-- ENABLE. -/
def cfgEnable (w : Word) : Bool := bitAt w.toNat 8
/-- AN_ENABLE. -/
def cfgAn (w : Word) : Bool := bitAt w.toNat 9
/-- PMD. -/
def cfgPmd (w : Word) : Nat := bitsAt w.toNat 10 2
/-- MAX_FRAME. -/
def cfgMaxFrame (w : Word) : Nat := bitsAt w.toNat 18 14

/-- A lane of a group. -/
def laneOf (g : Group) (k : Fin 8) : Lane := ⟨8 * g.val + k.val, by omega⟩
/-- A lane's group. -/
def groupOf (l : Lane) : Group := ⟨l.val / 8, by omega⟩

/-- A port changed. -/
def modPort (l : Lane) (f : EthPort → EthPort) (s : State) : State := { s with eth := { s.eth with ports := vmod s.eth.ports l f } }
/-- A port. -/
def portOf (s : State) (l : Lane) : EthPort := s.eth.ports[l]
/-- A group changed. -/
def modGroup (g : Group) (f : EthGroup → EthGroup) (s : State) : State := { s with eth := { s.eth with groups := vmod s.eth.groups g f } }

/-- PORT_STATE (R128). -/
def raisePort (l : Lane) (old new : LinkState) (cause : Nat) (s : State) : State :=
  let p := portOf s l
  raiseOwner 0x30 (0x07 * 2 ^ 24 + l.val) 0
    [l.val + new.code * 256 + old.code * 4096 + cause * 65536 + p.width * 2 ^ 24, p.partner % 2 ^ 32, p.partner / 2 ^ 32, counter s 0x02 0 (32 * l.val + 15)] s

/-- AN_FAILED and TRAINING_FAILED are reported at most once per second per port (R128). -/
def raisePortFail (l : Lane) (old new : LinkState) (cause : Nat) (s : State) : State :=
  let due := match (portOf s l).lastFail with
    | none => true
    | some t => t + 1000000000 ≤ nowNs s
  if due then modPort l (fun p => { p with lastFail := some (nowNs s) }) (raisePort l old new cause s) else s

/-- The state an enabled port starts bring-up in (R125). -/
def startState (w : Word) : LinkState :=
  if !cfgEnable w then .disabled else if cfgPmd w == 2 then .aligning else if cfgAn w then .an else .training

/-! Layouts -/

/-- The lanes of a port do not leave its group and the port starts on a multiple of its width (R121). -/
def badLane (cfg : Fin 8 → Word) (fault : Nat) (k : Fin 8) : Bool :=
  let w := cfgWidth (cfg k)
  w != 0 && (!([1, 2, 4, 8].contains w) || k.val % w != 0 || ((upFrom k.val w).any fun j => bitAt fault j)
    || ((List.finRange 8).any fun j => k.val < j.val && j.val < k.val + w && cfgWidth (cfg j) != 0)
    || cfgMaxFrame (cfg k) < 64 || 9216 < cfgMaxFrame (cfg k) || cfgPmd (cfg k) == 3)

/-- The checks of R121 on a group's written layout. -/
def badLayout (s : State) (g : Group) : Bool :=
  (List.finRange 8).any (badLane (fun k => s.eth.cfg[laneOf g k]) (s.eth.groups[g]).laneFault)

/-- A lane's part of a written layout differs from the active one (R122). -/
def laneChanged (s : State) (l : Lane) : Bool :=
  let w := s.eth.cfg[l]
  let p := portOf s l
  if cfgWidth w = 0 then p.width != 0 else p.width != cfgWidth w || p.cfg != w

/-- A port's counters are cleared (R122). -/
def clearPortCounters (l : Lane) (s : State) : State :=
  (upFrom 0 19).foldl (fun s n => setCounter 0x02 0 (32 * l.val + n) 0 s) s

/-- A changed or removed port stops: it is DISABLED, its scheduled packets are dropped and its counters cleared (R122). -/
def stopPort (l : Lane) (s : State) : State :=
  clearPortCounters l (modPort l (fun _ =>
    let w := s.eth.cfg[l]
    if cfgWidth w = 0 then EthPort.none else { EthPort.none with width := cfgWidth w, cfg := w }) (dropPortQueue l s))

/-- Bring-up of a port begins (R124, R125). -/
def bringUp (l : Lane) (s : State) : State :=
  modPort l (fun p => if p.width = 0 then p else { p with state := startState p.cfg }) s

/-- The lanes of a group that a layout changes. -/
def changedLanes (s : State) (g : Group) : List Lane := ((List.finRange 8).map (laneOf g)).filter (laneChanged s)

/-- ETH_APPLY (R121, R122). -/
def ethApply (g : Group) (s : State) : State :=
  if (s.eth.groups[g]).busy || badLayout s g then modGroup g (fun x => { x with badLayout := true }) s
  else
    let ls := changedLanes s g
    modGroup g (fun x => { x with badLayout := false, busy := true, changed := ls.map fun l => (l.val, (portOf s l).state) }) (ls.foldl (fun s l => stopPort l s) s)

/-- ETH_APPLY. -/
def execEthApply (g : Group) (s : State) : Host.Outcome State Fault Refusal := .next (ethApply g s)

/-- The layout record of a group: its eight ETH_PORT_CFG words (R122). -/
def saveLayout (g : Group) (s : State) : State :=
  { s with nv := { s.nv with layouts := vset s.nv.layouts g (some ((List.finRange 8).map fun k => s.eth.cfg[laneOf g k])) } }



/-- ETH_APPLY_DONE (R122): bring-up of the changed ports, the layout record, and one PORT_STATE for each. -/
def ethApplyDone (cause : Nat) (g : Group) (s : State) : State :=
  if !(s.eth.groups[g]).busy then s
  else
    let ch := (s.eth.groups[g]).changed
    let s1 := saveLayout g (modGroup g (fun x => { x with busy := false, changed := [] }) s)
    ch.foldl (fun s e => raisePort (laneIx e.1) e.2 (portOf s (laneIx e.1)).state cause s) (ch.foldl (fun s e => bringUp (laneIx e.1) s) s1)

/-- ETH_APPLY_DONE. -/
def execEthApplyDone (g : Group) (s : State) : Host.Outcome State Fault Refusal := .next (ethApplyDone 12 g s)

/-- A group's layout record applied at the end of BOOT (R123). -/
def applyRecord (g : Group) (s : State) : State :=
  match s.nv.layouts[g] with
  | none => s
  | some ws => ethApply g { s with eth := { s.eth with cfg := (List.finRange 8).foldl (fun v k => vset v (laneOf g k) (ws.getD k.val 0)) s.eth.cfg } }

/-! Bring-up and link states -/

/-- A port moves between two states without an event. (DEDUCED, log 51) -/
def movePort (l : Lane) (from_ to_ : LinkState) (s : State) : State :=
  if (portOf s l).state = from_ ∧ (portOf s l).width ≠ 0 then modPort l (fun p => { p with state := to_ }) s else s

/-- A port enters UP (R126, R128): counted and reported. -/
def enterUp (l : Lane) (s : State) : State :=
  let old := (portOf s l).state
  raisePort l old .up 4 (count 0x02 0 (32 * l.val + 15) 1 (modPort l (fun p => { p with state := .up, linkUps := satAdd 0xFF p.linkUps 1 }) s))

/-- AN_COMPLETE (R125): with no matching ability AN has failed. -/
def execAnComplete (port : Lane) (partner : Option AnPage) (s : State) : Host.Outcome State Fault Refusal :=
  let p := portOf s port
  .next (if p.width = 0 ∨ p.state ≠ .an ∨ p.anWait then s
    else match partner with
      | some a => if a.abilityMatch then modPort port (fun p => { p with state := .training, partnerValid := true, partner := a.page.toNat }) s
          else raisePortFail port .an .an 9 (modPort port (fun p => { p with anWait := true }) s)
      | none => raisePortFail port .an .an 9 (modPort port (fun p => { p with anWait := true }) s))

/-- AN_FAILED_RESTART (R125): the 500 ms wait ends. -/
def execAnFailedRestart (port : Lane) (s : State) : Host.Outcome State Fault Refusal :=
  .next (if (portOf s port).state = .an then modPort port (fun p => { p with anWait := false }) s else s)

/-- TRAINING_DONE (R125). -/
def execTrainingDone (port : Lane) (ok : Bool) (s : State) : Host.Outcome State Fault Refusal :=
  let p := portOf s port
  .next (if p.width = 0 ∨ p.state ≠ .training then s
    else if ok then modPort port (fun p => { p with state := .aligning }) s
    else
      let next := if cfgAn p.cfg && cfgPmd p.cfg != 2 then LinkState.an else LinkState.training
      raisePortFail port .training next 10 (modPort port (fun p => { p with state := next }) s))

/-- ALIGNMENT_DONE (R126). -/
def execAlignmentDone (port : Lane) (s : State) : Host.Outcome State Fault Refusal :=
  let p := portOf s port
  .next (if p.width = 0 ∨ p.state ≠ .aligning then s else enterUp port s)

/-- FAULT_SEQUENCES_RECEIVED (R126). -/
def execFaultSequencesReceived (port : Lane) (k : FaultSeq) (s : State) : Host.Outcome State Fault Refusal :=
  let p := portOf s port
  .next (if p.width = 0 ∨ p.state ≠ .up then s
    else match k with
      | .localFault => emit (.portSignal port.val 3) (raisePort port .up .fault 7 (count 0x02 0 (32 * port.val + 17) 1 (modPort port (fun p => { p with state := .fault, partnerValid := false }) s)))
      | .remoteFault => emit (.portSignal port.val 1) (raisePort port .up .fault 8 (count 0x02 0 (32 * port.val + 18) 1 (modPort port (fun p => { p with state := .fault, partnerValid := false }) s))))

/-- FAULT_SEQUENCES_STOP (R126). -/
def execFaultSequencesStop (port : Lane) (s : State) : Host.Outcome State Fault Refusal :=
  let p := portOf s port
  .next (if p.width = 0 ∨ p.state ≠ .fault then s else enterUp port s)

/-- The cause code of a loss (R128). -/
def AlignLoss.cause (k : AlignLoss) : Nat := if k.signal then 5 else 6

/-- A port loses signal or alignment (R126, R127). -/
def loseAlignment (port : Lane) (k : AlignLoss) (s : State) : State :=
  let p := portOf s port
  let s1 := k.lanes.foldl (fun s l => count 0x02 0 (32 * l.val + 25) 1 s) s
  if p.width = 0 ∨ ¬(p.state = .up ∨ p.state = .fault) then s1
  else if s.eth.holdoff = 0 then
    raisePort port p.state .aligning (AlignLoss.cause k) (modPort port (fun p => { p with state := .aligning, partnerValid := false }) s1)
  else modPort port (fun p => { p with state := .hold, heldState := p.state, heldCause := AlignLoss.cause k }) s1

/-- ALIGNMENT_LOST (R126, R127). -/
def execAlignmentLost (port : Lane) (k : AlignLoss) (s : State) : Host.Outcome State Fault Refusal := .next (loseAlignment port k s)

/-- ALIGNMENT_RETURN_IN_HOLD (R127): no event, counted as hidden. -/
def execAlignmentReturnInHold (port : Lane) (s : State) : Host.Outcome State Fault Refusal :=
  let p := portOf s port
  .next (if p.width = 0 ∨ p.state ≠ .hold then s
    else count 0x02 0 (32 * port.val + 16) 1 (modPort port (fun p => { p with state := .up }) s))

/-- HOLDOFF_EXPIRY (R127). -/
def execHoldoffExpiry (port : Lane) (s : State) : Host.Outcome State Fault Refusal :=
  let p := portOf s port
  .next (if p.width = 0 ∨ p.state ≠ .hold then s
    else
      let next := if p.heldCause = 5 ∧ cfgPmd p.cfg ≠ 2 then LinkState.training else LinkState.aligning
      raisePort port p.heldState next p.heldCause (modPort port (fun p => { p with state := next, partnerValid := false }) s))

/-! Lane faults (R130) -/

/-- The port whose span holds a lane. -/
def portHolding (s : State) (l : Lane) : Option Lane :=
  (List.finRange 64).find? fun p => (portOf s p).width != 0 && p.val ≤ l.val && l.val < p.val + (portOf s p).width

/-- The widest width below w whose lanes are free of faults (R130). -/
def narrowed (s : State) (p : Lane) (w : Nat) : Nat :=
  (([4, 2, 1].filter fun k => k < w).find? fun k =>
    (upFrom p.val k).all fun j => !bitAt (s.eth.groups[groupOf p]).laneFault (j % 8)).getD 0

/-- A lane fault enters the degradation record and re-forms or removes the port that holds the lane (R130). (DEDUCED, log 51) -/
def laneFault (l : Lane) (s : State) : State :=
  let g := groupOf l
  let s1 := modGroup g (fun x => { x with laneFault := x.laneFault ||| 2 ^ (l.val % 8) }) s
  match portHolding s l with
  | none => s1
  | some p =>
    let old := (portOf s p).state
    let w := narrowed s1 p (portOf s p).width
    let cfg : Word := if w = 0 then 0 else wordOf ((portOf s p).cfg.toNat / 16 * 16 + w)
    let s2 := { s1 with eth := { s1.eth with cfg := vset s1.eth.cfg p cfg } }
    let s3 := saveLayout g (bringUp p (stopPort p s2))
    raisePort p old (portOf s3 p).state 11 s3

/-- ETH_LANE_FAULT (R130, R464). -/
def execEthLaneFault (lane : Lane) (s : State) : Host.Outcome State Fault Refusal :=
  .next (if !s.glb.fwRuns || bitAt (s.eth.groups[groupOf lane]).laneFault (lane.val % 8) then s
    else unitLost 0x07 6 lane.val (2 ^ (lane.val % 8)) (laneFault lane s))

/-- A port is DISABLED and reports why (R31, R129). (DEDUCED, log 51) -/
def disablePort (cause : Nat) (l : Lane) (s : State) : State :=
  let p := portOf s l
  if p.width = 0 ∨ p.state = .disabled then s
  else raisePort l p.state .disabled cause (modPort l (fun p => { p with state := .disabled, partnerValid := false }) (dropPortQueue l s))

/-- Every port of a group is DISABLED with a cause (R31, R129). (DEDUCED, log 51) -/
def disableGroup (cause : Nat) (g : Group) (s : State) : State :=
  ((List.finRange 8).map (laneOf g)).foldl (fun s l => disablePort cause l s) s

/-- A timestamp at the balls: DTIME corrected by CORR_PS and rounded to the nearest ns (R132). (DEDUCED, log 52) -/
def stampNs (s : State) (corr : Int) : Nat :=
  (((s.dtime : Int) * 1000 + corr * 2 ^ 32 + 500 * 2 ^ 32) / (1000 * 2 ^ 32)).toNat

/-- The receive timestamp of a frame (R132). (DEDUCED, log 52) -/
def rxStamp (s : State) (l : Lane) : Nat := stampNs s (-(s.eth.ptpRx[l]).toInt)
/-- The transmit timestamp of a frame (R132). (DEDUCED, log 52) -/
def txStamp (s : State) (l : Lane) : Nat := stampNs s (s.eth.ptpTx[l]).toInt

/-- DTIME_RATE_WRITE (R131). -/
def execDtimeRateWrite (v : Word) (s : State) : Host.Outcome State Fault Refusal := .next { s with eth := { s.eth with rate := v } }

/-- The trim in force, limited to 500 ppm either way. -/
def trim (s : State) : Int := max (-2147484) (min 2147484 s.eth.rate.toInt)

end Sys2Proof.Machine
end

