-- ==== Sys2Proof/Machine/Bist.lean ====
section
/-! DEFINITION. Bist.lean: faults found by self-test, spares and repairs, the repair record, and the commands of chapter 17 (R450, R454 to R465). -/

namespace Sys2Proof.Machine
open Sys2Proof

/-- The BIST state changed. -/
def modBist (f : Bist → Bist) (s : State) : State := { s with bist := f s.bist }

/-- The degradation REASON of a test (R464). -/
def testReason (test : Nat) : Nat :=
  if test ≤ 2 ∨ test = 6 then 3 else if test ≤ 5 then 4 else if test ≤ 11 then 2 else 1

/-! Spares (R457) -/

/-- The spare of a unit kind and unit is free. -/
def spareFree (s : State) (kind unit : Nat) : Bool :=
  match kind with
  | 0x01 => s.bist.rxSpare.isNone
  | 0x02 => s.bist.txSpare.isNone
  | 0x03 => !Tbl.has s.bist.coreSpares (unit / 16)
  | _ => false

/-- The spare carries a unit's logical number from now on. -/
def assignSpare (kind unit : Nat) (s : State) : State :=
  modBist (fun b => match kind with
    | 0x01 => { b with rxSpare := some unit }
    | 0x02 => { b with txSpare := some unit }
    | _ => { b with coreSpares := Tbl.put b.coreSpares (unit / 16) (unit % 16) }) s

/-- The physical unit a spare is, in a repair entry: the number after the last of its kind. (DEDUCED, log 75) -/
def spareUnit : Nat := 16

/-- A repair entry of a unit. -/
def unitEntry (kind state found unit location : Nat) (s : State) : RepairEntry where
  kind := kind
  state := state
  found := found
  bootCount := s.nv.bootCount
  unit := unit
  location := location
  serial := 0

/-- A pipeline or core that fails in a test takes its spare, or is lost. -/
def failUnit (kind reason found unit : Nat) (s : State) : State :=
  if isLost s kind unit then s
  else if spareFree s kind unit then repair (unitEntry kind 1 found unit spareUnit s) (assignSpare kind unit s)
  else unitLost kind reason unit 0 (repair (unitEntry kind 3 found unit 0 s) s)

/-! Memories (R455) -/

/-- Spares of a macro in use: entries for it, of rows or of columns, that are SOFT or FUSED. -/
def macroSpares (s : State) (kind unit : Nat) (column : Bool) : Nat :=
  (s.nv.repairs.filter fun e => e.kind == kind && e.unit == unit && (e.state == 1 || e.state == 2) && bitAt e.location 31 == column).length

/-- A failing row or column takes a spare, or is recorded as UNREPAIRABLE. -/
def failRow (kind found unit location : Nat) (s : State) : State :=
  let column := bitAt location 31
  let used := macroSpares s kind unit column
  let where_ := location % 65536 + b2n column * 2 ^ 31
  if used < (if column then 2 else 4) then repair (unitEntry kind 1 found unit (where_ + used * 2 ^ 24) s) s
  else repair (unitEntry kind 3 found unit where_ s) s

/-- A failing DRAM row becomes a repair candidate (R418, R455). -/
def failDramRow (ch row : Nat) (s : State) : State :=
  if (rowOf s ch row).state ≠ 0 then s
  else modChan ch (fun c => { c with rows := Tbl.put c.rows row { rowOf s ch row with state := 1 }, candidates := c.candidates ++ [row] }) s

/-! Lanes (R454, R463) -/

/-- The widest width of a host link without its faulty lanes. -/
def hostWidth (l : HostLink) : Nat := widthWithout [16, 8, 4, 1] l.lostLanes 16

/-- A faulty lane of a host link, found while the link is down. -/
def failHostLane (reason h lane : Nat) (s : State) : State :=
  let l : HostId := ⟨h % 8, Nat.mod_lt _ (by decide)⟩
  let s1 := modLink l (fun x => { x with lostLanes := insertNat x.lostLanes lane }) s
  if lane = 0 then unitLost 0x12 reason h 0 s1
  else unitLost 0x08 reason (16 * h + lane) (2 ^ lane + hostWidth (link s1 l) * 2 ^ 27) s1

/-- A faulty lane of a drive port. -/
def failDriveLane (reason d lane : Nat) (s : State) : State :=
  let s1 := modDrive d (fun v => { v with lostLanes := insertNat v.lostLanes lane }) s
  if lane = 0 then unitLost 0x11 reason d 0 s1
  else unitLost 0x09 reason (4 * d + lane) (2 ^ lane + widthWithout [4, 2, 1] (drive s1 d).lostLanes 4 * 2 ^ 27) s1

/-- A faulty Ethernet lane (R130). -/
def failEthLane (reason lane : Nat) (s : State) : State :=
  let l : Lane := ⟨lane % 64, Nat.mod_lt _ (by decide)⟩
  if bitAt (s.eth.groups[groupOf l]).laneFault (l.val % 8) then s
  else unitLost 0x07 reason l.val (2 ^ (l.val % 8)) (laneFault l s)

/-- A unit no spare covers fails a test: recorded and lost. -/
def failWhole (kind reason found unit : Nat) (s : State) : State :=
  if isLost s kind unit then s else unitLost kind reason unit 0 (repair (unitEntry kind 3 found unit 0 s) s)

/-! One fault -/

/-- What a fault of a test does: the spare, the repair entry, the loss. -/
def applyFault (found : Nat) (f : TestFault) (s : State) : State :=
  let r := testReason f.test.val
  let u := f.unit.toNat
  match f.kind.toNat with
  | 0x01 => failUnit 0x01 r found u s
  | 0x02 => failUnit 0x02 r found u s
  | 0x03 => failUnit 0x03 r found u s
  | 0x04 => failWhole 0x04 r found u s
  | 0x05 => failRow 0x05 found u f.location.toNat s
  | 0x06 => if u % 65536 = 0xFFFF then failWhole 0x06 r found u s else failRow 0x06 found u f.location.toNat s
  | 0x07 => failEthLane r u s
  | 0x08 => failHostLane r (u / 16) (u % 16) s
  | 0x09 => failDriveLane r (u / 4) (u % 4) s
  | 0x0A => loseChannelFor r u s
  | 0x0B => failDramRow u f.location.toNat s
  | 0x0C => if 3 ≤ u ∧ u < 15 then loseChannelFor r (u - 3) s else unitLost 0x0C r u 0 s
  | 0x0D => excludeSensor r found u s
  | 0x0E => if isLost s 0x0E u then s else unitLost 0x0E r u 0 s
  | k => failWhole k r found u s

/-- Faults of some tests. -/
def applyFaults (found : Nat) (l : List TestFault) (s : State) : State := l.foldl (fun s f => applyFault found f s) s

/-- The tests that found a fault, as a mask. -/
def failedTests (l : List TestFault) : Nat := l.foldl (fun m f => m ||| 2 ^ f.test.val) 0

/-- How many bits of a mask are set. -/
def bitCount (width m : Nat) : Nat := ((upFrom 0 width).filter fun i => bitAt m i).length

/-! SELFTEST_RUN (R465) -/

/-- Tests SELFTEST_RUN allows: 0, 3 to 8, 10, 12 and 13. -/
def selftestAllowed : Nat := 0x35F9

/-- A SELFTEST_RUN runs. -/
def selftestRuns (s : State) : Bool :=
  s.ops.any fun o => match o.kind with
    | .selftest _ => true
    | _ => false

/-- SELFTEST_RUN. -/
def selftestRunDef : CmdDef where
  opcode := 0x0A00
  owner := true
  gate := .maint
  objs := Obj.isDevice
  len := fun n => n == 1
  checks := fun _ p s =>
    [ (p.f 0 14 18 != 0 || p.w 1 != 0 || p.w 0 &&& selftestAllowed != p.w 0, .badParam),
      (selftestRuns s, .busy),
      (opLimitReached p s, .noResource) ]
  act := fun _ p s => startOp 0x0A00 p (.selftest (p.f 0 0 14)) (bitCount 14 (p.f 0 0 14)) 0 s

/-- An Ethernet lane stands in an enabled port: SERDES_ETH does not cover it (R465). -/
def laneInPort (s : State) (f : TestFault) : Bool :=
  f.kind.toNat == 7 && (portHolding s ⟨f.unit.toNat % 64, Nat.mod_lt _ (by decide)⟩).isSome

/-- One step of SELFTEST_RUN runs the lowest test that is left. (DEDUCED, log 75) -/
def selftestStep (o : LongOp) (tests : Nat) (res : StepResult) (s : State) : State :=
  let t := ((upFrom 0 14).find? fun i => bitAt tests i).getD 14
  let found := res.faults.filter fun f => f.test.val == t && !laneInPort s f
  let s1 := applyFaults 2 found s
  let s2 := if found.isEmpty then s1 else count 0x0F 0 1 1 s1
  let newEntries := o.notes.headD 0 + (s1.nv.repairs.length - s.nv.repairs.length)
  let bad := o.notes.getD 1 0 != 0 || !found.isEmpty
  if setBitAt tests t false = 0 ∨ tests = 0 then
    if bad then opDone o .testFailed [newEntries] s2 else opDone o .ok [] s2
  else putOp { o with kind := .selftest (setBitAt tests t false), stepsDone := o.stepsDone + 1, notes := [newEntries, b2n bad] } s2

/-! REPAIR_READ (R461) -/

/-- An entry of the repair record, eight words (R459). -/
def repairWords (e : RepairEntry) : List Nat :=
  [e.kind % 256 + e.state * 256 + e.found * 4096 + e.bootCount % 65536 * 65536, e.unit, e.location, 0] ++ words64 e.serial ++ [0, 0]

/-- Free entries of the fuse bank. -/
def fuseFree (s : State) : Nat := 2048 - s.nv.fusesBurned

/-- The spares in use. -/
def sparesWord (s : State) : Nat :=
  b2n s.bist.rxSpare.isSome + 2 * b2n s.bist.txSpare.isSome
    + (upFrom 0 16).foldl (fun m c => m + b2n (Tbl.has s.bist.coreSpares c) * 2 ^ (16 + c)) 0

/-- REPAIR_READ. -/
def repairReadDef : CmdDef where
  opcode := 0x0A01
  owner := true
  longResult := true
  len := fun n => n == 1
  checks := fun _ p _ => [(p.w 1 != 0, .badParam)]
  act := fun _ p s =>
    replyLong ([s.nv.repairs.length, fuseFree s, sparesWord s, 0] ++ ((s.nv.repairs.drop (p.w 0)).take 126).flatMap repairWords) s

/-! FUSE_PROGRAM (R460) -/

/-- The entry indices of a FUSE_PROGRAM. -/
def fuseEntries (p : Packet) : List Nat := (upFrom 2 (p.f 0 0 7)).map p.w

/-- Burned in the fuse bank: every entry but those of DRAM rows. -/
def bankEntry (s : State) (i : Nat) : Bool := (s.nv.repairs[i]?).any fun e => e.kind != 0x0B

/-- FUSE_PROGRAM. -/
def fuseProgramDef : CmdDef where
  opcode := 0x0A02
  owner := true
  gate := .maint
  objs := Obj.isDevice
  len := fun n => decide (2 ≤ n ∧ n ≤ 33)
  checks := fun _ p s =>
    [ (p.len != 1 + ceilDiv (p.f 0 0 7) 2, .badLength),
      (p.f 0 0 7 == 0 || 64 < p.f 0 0 7 || p.f 0 7 25 != 0 || p.w 1 != 0, .badParam),
      ((fuseEntries p).any (fun i => !((s.nv.repairs[i]?).any fun e => e.state == 1)), .badParam),
      (fuseFree s < ((fuseEntries p).filter (bankEntry s)).length, .badParam),
      (opLimitReached p s, .noResource) ]
  act := fun _ p s => startOp 0x0A02 p (.fuseProgram (fuseEntries p)) (p.f 0 0 7) 0 s

/-- One step of FUSE_PROGRAM burns one entry and reads it back; a failed read-back leaves it SOFT. (DEDUCED, log 75) -/
def fuseStep (o : LongOp) (entries : List Nat) (ok : Bool) (s : State) : State :=
  let failed := o.notes.headD 0 + b2n !ok
  let done (i : Nat) : State :=
    if (s.nv.repairs[i]?).all (fun e => e.state != 1) then s
    else
      let s1 := modNv (fun v => { v with fusesBurned := if bankEntry s i then min 2048 (v.fusesBurned + 1) else v.fusesBurned }) s
      if ok then count 0x0F 0 3 1 (modNv (fun v => { v with repairs := modifyNth (fun (e : RepairEntry) => { e with state := 2 }) v.repairs i }) s1) else s1
  match entries with
  | [] => opDone o .ok [] s
  | [i] => if failed = 0 then opDone o .ok [] (done i) else opDone o .testFailed [failed] (done i)
  | i :: r => putOp { o with kind := .fuseProgram r, stepsDone := o.stepsDone + 1, notes := [failed] } (done i)

/-! PARK_PLAN_SET and DEGRADATION_READ (R450, R464) -/

/-- PARK_PLAN_SET. -/
def parkPlanSetDef : CmdDef where
  opcode := 0x0A03
  owner := true
  objs := Obj.isDevice
  len := fun n => n == 1
  checks := fun _ p _ => [(p.f 0 14 18 != 0 || p.b 1 7 || p.f 1 15 17 != 0 || 32 < p.f 1 0 7 || 96 < p.f 1 8 7, .badParam)]
  act := fun _ p s => reply [] (modNv (fun v => { v with planTests := p.f 0 0 14, sliceWarm := p.f 1 0 7, sliceOff := p.f 1 8 7 }) s)

/-- An entry of DEGRADATION_READ. -/
def degWords (e : DegEntry) : List Nat := [e.kind % 256 + e.reason * 256, e.unit, e.detail, e.epoch]

/-- DEGRADATION_READ. -/
def degradationReadDef : CmdDef where
  opcode := 0x0108
  owner := true
  gate := .status
  longResult := true
  act := fun _ _ s =>
    let k := s.nv.park
    let n := s.degr.entries.length
    replyLong ([n % 65536 + b2n s.glb.degradedPending * 65536, k.duration % 65536 + b2n k.powerOff * 65536 + b2n k.forced * 131072,
      k.failed, k.notRun] ++ words64 k.bytesLost ++ [k.namespaces % 8192, 0] ++ (s.degr.entries.take 252).flatMap degWords) s

/-- SELFTEST_RUN. -/
def execSelftestRun (p : Packet) (s : State) : Host.Outcome State Fault Refusal := .next (runCmd selftestRunDef (.selftestRun p) p s)
/-- REPAIR_READ. -/
def execRepairRead (p : Packet) (s : State) : Host.Outcome State Fault Refusal := .next (runCmd repairReadDef (.repairRead p) p s)
/-- FUSE_PROGRAM. -/
def execFuseProgram (p : Packet) (s : State) : Host.Outcome State Fault Refusal := .next (runCmd fuseProgramDef (.fuseProgram p) p s)
/-- PARK_PLAN_SET. -/
def execParkPlanSet (p : Packet) (s : State) : Host.Outcome State Fault Refusal := .next (runCmd parkPlanSetDef (.parkPlanSet p) p s)
/-- DEGRADATION_READ. -/
def execDegradationRead (p : Packet) (s : State) : Host.Outcome State Fault Refusal := .next (runCmd degradationReadDef (.degradationRead p) p s)

end Sys2Proof.Machine
end

