-- ==== Sys2Proof/Machine/Cancel.lean ====
section
/-! DEFINITION. Cancel.lean: cancelling long operations, and what happens when a ring channel goes away (R79, R80, R509). -/

namespace Sys2Proof.Machine
open Sys2Proof

/-- An operation that cannot be cancelled (R79, R326). KEYSTORE_ZEROISE is no long operation. -/
def notCancellable (o : LongOp) : Bool :=
  match o.kind with
  | .sanitize _ _ _ => true
  | .fuseProgram _ => true
  | .driveFormat _ _ => o.committed
  | .imageInstall _ _ => o.committed
  | _ => false

/-- A unit that a cancelled RECOAT_ARM armed (R509): disarmed before its cutoff, else it goes ahead. -/
def releaseArm (handle : Nat) (i : Fin 32) (s : State) : State :=
  modUnit i (fun u =>
    if u.handle ≠ some handle then u
    else if u.phase = .armed then { u with phase := .idle, target := none, handle := none }
    else { u with handle := none }) s

/-- What a cancelled operation lets go. -/
def letGo (o : LongOp) (s : State) : State :=
  match o.kind with
  | .recoatArm _ => (List.finRange 32).foldl (fun s i => releaseArm o.handle i s) s
  | .undercoatReset us => (List.finRange 32).foldl (fun s i => if us.contains i.val then modUnit i (fun u => { u with copying := false }) s else s) s
  | .emRehash _ => modEm (emEnd true) s
  | .cacheFlush _ _ _ => modNvme (fun n => { n with flushes := Tbl.del n.flushes o.handle }) s
  | _ => s

/-- What OP_DONE reports of an operation that ends early: the three counts of CTX_MIGRATE (R282). (DEDUCED, log 23) -/
def partResult (o : LongOp) : List Nat :=
  match o.kind with
  | .ctxMigrate _ _ _ _ => o.notes.take 3
  | _ => []

/-- An operation is cancelled (R79): no step is in progress between two commands. (DEDUCED, log 18) -/
def cancelOp (o : LongOp) (s : State) : State := opDone o .cancelled (partResult o) (letGo o s)

/-- A ring channel goes away (R80): cancellable operations and held commands are cancelled, the others finish, and every OP_DONE goes to the owner. (DEDUCED, log 18) -/
def channelGone (c : RingChan) (s : State) : State :=
  let s1 := { s with fenced := s.fenced.filter fun e => e.1 != .ring c }
  (opsOf s1 (.ring c)).foldl (fun s o =>
    let o1 : LongOp := { o with orphan := true }
    let s2 := putOp o1 s
    if notCancellable o1 then s2 else cancelOp o1 s2) s1

/-- HLINK_CMD_ENABLE_CLEAR (R60, R80). -/
def execHlinkCmdEnableClear (c : RingChan) (s : State) : Host.Outcome State Fault Refusal :=
  .next (if ringPresent s c && (ring s c).enable then modRing c (fun r => { r with enable := false, running := false }) (channelGone c s) else s)

end Sys2Proof.Machine
end

