-- ==== Sys2Proof/Machine/Intake.lean ====
section
/-! DEFINITION. Intake.lean: the recovery intake of PF2 and of the monitor's IMG commands (R440 to R442, R478). -/

namespace Sys2Proof.Machine
open Sys2Proof

/-- The intake changed. -/
def modIntake (f : Intake → Intake) (s : State) : State := modSec (fun x => { x with intake := f x.intake }) s
/-- Who asks: a host link's PF2, or 8 for the monitor. -/
def recPort (s : State) (who : Fin 9) : RecPort := s.sec.intake.ports[who]
/-- One asker's registers changed. -/
def modRec (who : Fin 9) (f : RecPort → RecPort) (s : State) : State := modIntake (fun x => { x with ports := vmod x.ports who f }) s
/-- A host link's place among the askers. -/
def recOf (h : HostId) : Fin 9 := ⟨h.val, by omega⟩

/-- The intake serves: only in MAINTENANCE (R440). -/
def intakeOpen (s : State) : Bool := s.glb.mode == .maintenance

/-- STATE as an asker reads it (HLINK_REC_STATUS). -/
def intakeState (s : State) (who : Fin 9) : Nat :=
  if !intakeOpen s then 7
  else match s.sec.intake.claim with
    | none => if s.sec.intake.worker = who.val then s.sec.intake.phase else 0
    | some w => if w = who.val then s.sec.intake.phase else 6

/-- HLINK_REC_STATUS. -/
def recStatus (s : State) (who : Fin 9) : Nat :=
  let r := recPort s who
  r.code * 2 ^ 24 + intakeState s who * 2 ^ 20 + b2n r.error * 4 + b2n r.installDone * 2 + b2n r.chunkDone

/-- PF2 requests INTA while a reported bit is enabled (R441). -/
def refreshRec (who : Fin 9) (s : State) : State :=
  if h : who.val < 8 then
    let l : HostId := ⟨who.val, h⟩
    refreshInta l (modLink l (fun x => { x with pf2Int := (recStatus s who) % 8 &&& (recPort s who).intx != 0 }) s)
  else s

/-- A request fails: ERROR with a code. -/
def recError (who : Fin 9) (code : Nat) (s : State) : State := refreshRec who (modRec who (fun r => { r with error := true, code := code }) s)

/-- Another asker holds the claim, or a copy or install is in progress. -/
def intakeBusy (s : State) (who : Fin 9) : Bool :=
  s.sec.intake.claim.any (· != who.val) || (2 ≤ s.sec.intake.phase && s.sec.intake.phase ≤ 4)

/-- A chunk that lies in the buffer and in the window (R441). -/
def chunkOk (r : RecPort) : Bool := r.offset % 8 == 0 && r.len % 8 == 0 && 8 ≤ r.len && r.len ≤ 32768 && r.offset + r.len ≤ maxImage

/-- COMMIT (R440, R441): at OFFSET 0 it claims the intake; the copy begins. (DEDUCED, log 48) -/
def recCommit (who : Fin 9) (s : State) : State :=
  let r := recPort s who
  if !intakeOpen s then recError who 1 s
  else if intakeBusy s who then recError who 2 s
  else if !chunkOk r then recError who 3 s
  else if s.sec.intake.claim.isNone && r.offset != 0 then recError who 3 s
  else modIntake (fun x => { x with
    buf := if x.claim.isNone then [] else x.buf, claim := some who.val, phase := 2, worker := who.val }) s

/-- The copy ends (CHUNK_DONE): the window's bytes lie in the buffer, or the copy failed and they do not. -/
def recChunkDone (ok : Bool) (s : State) : State :=
  let who : Fin 9 := ⟨s.sec.intake.worker % 9, Nat.mod_lt _ (by decide)⟩
  let r := recPort s who
  if s.sec.intake.phase ≠ 2 then s
  else if !ok then recError who 3 (modIntake (fun x => { x with phase := 1 }) s)
  else
    refreshRec who (modRec who (fun r => { r with chunkDone := true })
      (modIntake (fun x => { x with phase := 1, buf := Mem.writeBytes x.buf 0xFF r.offset (Mem.readBytes r.window 0 0 r.len) }) s))

/-- INSTALL (R440): only into a slot without a valid image, and not beside an owner's install of the same slot. -/
def recInstall (who : Fin 9) (slot : Nat) (s : State) : State :=
  let s1 := modRec who (fun r => { r with slot := slot }) s
  if !intakeOpen s then recError who 1 s1
  else if intakeBusy s who || s.sec.intake.claim.isNone || installing s slot then recError who 2 s1
  else if slotValid s slot then recError who 4 s1
  else modIntake (fun x => { x with phase := 3, worker := who.val, slot := slot }) s1

/-- The install ends (INSTALL_DONE): verification, programming and read-back, unless the flash failed. -/
def recInstallDone (ok : Bool) (s : State) : State :=
  let k := s.sec.intake
  let who : Fin 9 := ⟨k.worker % 9, Nat.mod_lt _ (by decide)⟩
  let r := bufferReason s k.buf
  let ended (s : State) : State := modIntake (fun x => if x.claim.isNone then Intake.mk none 0 0 0 [] x.ports else { x with phase := 5 }) s
  if k.phase ≠ 3 ∧ k.phase ≠ 4 then s
  else if r ≠ 0 then recError who (0x10 + r) (ended s)
  else if !ok then recError who 5 (ended (spoilSlot k.slot s))
  else
    let w := writeSlot k.buf k.slot true (eraseFlash k.slot 0 0x2000000 s)
    if w.2 = 0 then refreshRec who (modRec who (fun r => { r with installDone := true }) (ended w.1))
    else recError who (0x10 + w.2) (ended w.1)

/-- The claim is released; an install past its verification still completes (R440). Whether a good image is past it is open. (DEDUCED, log 48) -/
def recRelease (who : Fin 9) (s : State) : State :=
  let k := s.sec.intake
  if k.claim ≠ some who.val then s
  else if k.phase = 3 then
    let past := bufferReason s k.buf == 0 && freshNat s % 2 == 0
    modIntake (fun x => if past then { x with claim := none, phase := 4 } else Intake.mk none 0 0 0 [] x.ports) (drawn1 s)
  else if k.phase = 4 then modIntake (fun x => { x with claim := none }) s
  else modIntake (fun x => Intake.mk none 0 0 0 [] x.ports) s

/-- ABORT (R440). (DEDUCED, log 48) -/
def recAbort (who : Fin 9) (s : State) : State :=
  if !intakeOpen s then recError who 1 s
  else if s.sec.intake.claim.any (· != who.val) then recError who 2 s
  else recRelease who s

/-- PF2 of a link is reset: its claim goes, and its registers (R111, R440). -/
def resetPf2 (h : HostId) (s : State) : State := refreshRec (recOf h) (modRec (recOf h) (fun _ => RecPort.reset) (recRelease (recOf h) s))

/-- MAINTENANCE is left: the intake closes. -/
def closeIntake (s : State) : State :=
  modIntake (fun x => if x.phase = 3 ∨ x.phase = 4 then x else Intake.mk none 0 0 0 [] x.ports) s

/-- PF2 answers on a link. -/
def pf2Up (s : State) (h : HostId) : Bool := linkUp s h && (fnOf s h .pf2).mse

/-- HLINK_REC_COMMIT. -/
def execHlinkRecCommit (h : HostId) (s : State) : Host.Outcome State Fault Refusal := .next (if pf2Up s h then recCommit (recOf h) s else s)
/-- HLINK_REC_INSTALL. -/
def execHlinkRecInstall (h : HostId) (slot : Fin 2) (s : State) : Host.Outcome State Fault Refusal :=
  .next (if pf2Up s h then recInstall (recOf h) slot.val s else s)
/-- HLINK_REC_ABORT. -/
def execHlinkRecAbort (h : HostId) (s : State) : Host.Outcome State Fault Refusal := .next (if pf2Up s h then recAbort (recOf h) s else s)
/-- CHUNK_DONE. -/
def execChunkDone (ok : Bool) (s : State) : Host.Outcome State Fault Refusal := .next (recChunkDone ok s)
/-- INSTALL_DONE. -/
def execInstallDone (ok : Bool) (s : State) : Host.Outcome State Fault Refusal := .next (recInstallDone ok s)

end Sys2Proof.Machine
end

