-- ==== Sys2Proof/Machine/Links.lean ====
section
/-! DEFINITION. Links.lean: function-level resets, attach and detach, retraining and lane faults of the host links (R42, R87 to R91, R95, R105, R111 to R116, R463). -/

namespace Sys2Proof.Machine
open Sys2Proof

/-! What a reset clears (R111) -/

/-- A key of State.fns belongs to a link and to one of the functions. -/
def hitKey (h : HostId) (fs : Fn → Bool) (k : Nat) : Bool := hostOfKey k == h && k / 1024 < 8 && fs (fnOfIndex (k % 1024))

/-- The function that carries a ring channel, by channel number. -/
def chanFn (n : Nat) : HostId × Fn :=
  (⟨n / 0x400 % 8, Nat.mod_lt _ (by decide)⟩, if n / 0x4000 = 1 then .pf0 else .vf ⟨n % 512, Nat.mod_lt _ (by decide)⟩)

/-- The ring channel of a channel number. -/
def ringOfNumber (n : Nat) : RingChan :=
  { link := (chanFn n).1, vf := match (chanFn n).2 with
    | .vf v => some v
    | _ => none }

/-- The channels of the functions go away, and their windows are cleared (R80). -/
def dropChannels (h : HostId) (fs : Fn → Bool) (s : State) : State :=
  let mine (n : Nat) : Bool := (chanFn n).1 == h && fs (chanFn n).2
  let s1 := ((s.rings.map (·.1)).filter mine).foldl (fun s n => channelGone (ringOfNumber n) s) s
  { s1 with rings := Tbl.keepIf s1.rings fun n _ => !mine n }

/-- Received packets of the functions that wait at a leaf. -/
def waitingRx (h : HostId) (fs : Fn → Bool) (s : State) : Nat :=
  s.sched.rx.foldl (fun n e => if hitKey h fs (e.1 / 65536) then n + e.2.length else n) 0

/-- The network queues of the functions go, with the packets being written to them. -/
def dropQueues (h : HostId) (fs : Fn → Bool) (s : State) : State :=
  let mine (e : Pkt × List Nat) : Bool := hitKey h fs e.1.target
  let s1 := ((s.queues.map (·.1)).filter fun k => hitKey h fs (k / 65536)).foldl
    (fun s k => removeQueue h (fnOfIndex (k / 65536 % 1024)) (k % 65536) s) s
  let s2 := (s1.net.delivering[h].filter mine).foldl (fun s e => freeHods e.1.hods s) s1
  { s2 with net := { s2.net with delivering := vmod s2.net.delivering h fun l => l.filter fun e => !mine e } }

/-- The controllers of the functions return to reset (R112): completed writes stay in the cache. -/
def dropCtrls (h : HostId) (fs : Fn → Bool) (s : State) : State :=
  ((s.nvme.ctrls.map (·.1)).filter (hitKey h fs)).foldl (fun s k =>
    modCtrl k (fun c => { c with aqa := 0, asq := 0, acq := 0 }) (resetCtrl 2 k s)) s

/-- NVMe commands outstanding on the functions. -/
def cmdsOf (h : HostId) (fs : Fn → Bool) (s : State) : Nat :=
  s.nvme.ctrls.foldl (fun n e => if hitKey h fs e.1 then n + (e.2.cmds.filter fun x => x.phase != .format).length else n) 0

/-- Key slots the functions own. -/
def slotsIn (h : HostId) (fs : Fn → Bool) (s : State) : Nat := Tbl.countIf s.crypt.slots fun _ k => k.owner.any (hitKey h fs)

/-- Slots, pages and import keys of the functions are zeroised (R111, R115, R336, R343). -/
def dropKeys (h : HostId) (fs : Fn → Bool) (s : State) : State :=
  let mine (o : Option Nat) : Bool := o.any (hitKey h fs)
  let gone := (s.crypt.slots.filter fun e => mine e.2.owner).map (·.1)
  modCrypt (fun c => { c with
    slots := Tbl.keepIf c.slots fun _ k => !mine k.owner
    pages := Tbl.keepIf c.pages fun _ k => !mine k.slot.owner
    ikeks := Tbl.keepIf c.ikeks fun k _ => k == 0 || !hitKey h fs (k - 1)
    caches := Tbl.mapAll c.caches fun _ l => l.filter fun n => !gone.contains n }) s

/-- LRD connections of the functions. -/
def connsIn (h : HostId) (fs : Fn → Bool) (s : State) : Nat := Tbl.countIf s.ctx.conns fun _ c => c.owner.any (hitKey h fs)

/-- Everything the functions hold is given up; their registers return to reset. -/
def clearFns (h : HostId) (fs : Fn → Bool) (s : State) : State :=
  let s1 := endConns (fun o => o.any (hitKey h fs)) (dropChannels h fs s)
  let s2 := dropKeys h fs (dropCtrls h fs (dropQueues h fs s1))
  let s3 := if fs .pf2 then resetPf2 h s2 else s2
  let s4 := { s3 with fns := Tbl.keepIf s3.fns fun k _ => !hitKey h fs k }
  refreshInta h (modLink h (fun l => { l with
    intxStatus := if fs .pf0 then 0 else l.intxStatus, intxEnable := if fs .pf0 then 0 else l.intxEnable
    pf1Int := if fs .pf1 then false else l.pf1Int }) s4)

/-! The host units (R42, R113) -/

/-- The three units of a host. -/
def unitsOfHost (h : HostId) : List (Fin 32) := [unitBit (.spread h), unitBit (.schedHost h), unitBit (.vfQuota h)]

/-- A host's units are disarmed before their cutoff, and the owner's defaults are due. (DEDUCED, log 34) -/
def unitsDown (h : HostId) (flr : Bool) (s : State) : State :=
  let one (s : State) (i : Fin 32) : State :=
    let u := unitAt s i
    if u.phase = .armed then armLost u.handle i (modUnit i (fun u => { u with phase := .idle, target := none, handle := none, defaultsDue := true }) s)
    else modUnit i (fun u => { u with defaultsDue := true }) s
  let only := flr && (!(unitsOfHost h).any (fun i => (unitAt s i).defaultsDue) || (link s h).flrOnly)
  modLink h (fun l => { l with flrOnly := only }) ((unitsOfHost h).foldl one s)

/-- The owner's default set of a host. -/
def defaultsOf (s : State) (h : HostId) : HostDefaults :=
  Tbl.getD s.net.defaults h.val { spread := SpreadUnit.reset, sched := SchedHost.reset, vfQuota := [] }

/-- VF_QUOTA n after a reset of PF0 (R113): its topcoat, with the entries of PF0's VFs at the owner's defaults. (DEDUCED, log 34) -/
def flrQuota (s : State) (h : HostId) (top : Tbl Nat) : Tbl Nat :=
  let mine (k : Nat) : Bool := decide (k / 256 < (link s h).t0)
  (Tbl.keepIf (defaultsOf s h).vfQuota fun k _ => mine k).foldl (fun t e => Tbl.put t e.1 e.2) (Tbl.keepIf top fun k _ => !mine k)

/-- The undercoats take the owner's defaults, and the three units are armed. (DEDUCED, log 34) -/
def loadDefaults (h : HostId) (s : State) : State :=
  let d := defaultsOf s h
  let q (u : HostUnits) : Tbl Nat := if (link s h).flrOnly then flrQuota s h u.vfQuota.top else d.vfQuota
  let s1 := modUnits h (fun u => { u with
    spread := { u.spread with under := d.spread }, sched := { u.sched with under := { d.sched with leaves := u.sched.under.leaves } }
    vfQuota := { u.vfQuota with under := q u } }) s
  (unitsOfHost h).foldl (fun s i => modUnit i (fun u => { u with phase := .armed, target := none, handle := none, defaultsDue := false }) s)
    (modLink h (fun l => { l with flrOnly := false }) s1)

/-- HOST_UNIT_DEFAULTS_LOAD (R42, R113): once no unit of the host is pending or in grace. -/
def execHostUnitDefaultsLoad (h : HostId) (s : State) : Host.Outcome State Fault Refusal :=
  let us := (unitsOfHost h).map (unitAt s)
  .next (if us.any (·.defaultsDue) && us.all (fun u => u.phase == .idle || u.phase == .armed) then loadDefaults h s else s)

/-! Function-level resets (R105, R111 to R113, R116) -/

/-- The functions that a reset of one function covers. -/
def coveredBy (s : State) (h : HostId) (f : Fn) : Fn → Bool := fun g => ownedBy s h f g

/-- A reset of functions, reported as one reset of a function: 1 FLR, 2 D3hot to D0, 3 VF Enable cleared. -/
def resetFns (h : HostId) (fs : Fn → Bool) (f : Fn) (kind : Nat) (s : State) : State :=
  let reads := ((outstanding s h).filter fun r => fs r.fn).length
  let keys := slotsIn h fs s
  let s1 := clearFns h fs (abandonReads h fs 0 s)
  let s2 := modLink h (fun l => { l with failsDue := l.failsDue.filter fun e => !fs e.1 }) s1
  let s3 := if fs .pf0 then unitsDown h true s2 else s2
  let pay := [targetOf h f + kind * 65536, reads % 65536, keys]
  let s4 := raiseOwner 0x22 (source 0x12 h.val) 0 pay s3
  match f with
  | .vf _ => raiseRing (hostChan h) 0x22 (source 0x12 h.val) 0 pay s4
  | _ => s4

/-- INITIATE_FLR. -/
def initiateFlr (h : HostId) (f : Fn) (s : State) : State :=
  if present s h f then resetFns h (coveredBy s h f) f 1 s else s

/-- INITIATE_FLR (R112). -/
def execInitiateFlr (h : HostId) (f : Fn) (s : State) : Host.Outcome State Fault Refusal := .next (initiateFlr h f s)

/-- A physical function returns from D3hot. -/
def leaveD3 (h : HostId) (f : Fn) (s : State) : State :=
  if present s h f && (fnOf s h f).d3 then resetFns h (coveredBy s h f) f 2 s else s

/-- D3HOT_TO_D0. -/
def execD3hotToD0 (h : HostId) (f : Fn) (s : State) : Host.Outcome State Fault Refusal := .next (leaveD3 h f s)

/-- The VFs of a physical function that are enabled. -/
def enabledVfs (s : State) (h : HostId) (pf g : Fn) : Bool :=
  match g with
  | .vf v => vfOnPf1 s h v.val == (pf == .pf1) && vfEnabled s h v.val
  | _ => false

/-- VF Enable of PF0 or PF1 is cleared: its VFs are reset, and reported once. -/
def clearVfEnable (h : HostId) (pf : Fn) (s : State) : State :=
  if !linkUp s h || !(pf == .pf0 || pf == .pf1) || !(fnOf s h pf).vfEnable then s
  else modFn h pf (fun x => { x with vfEnable := false }) (resetFns h (enabledVfs s h pf) pf 3 s)

/-- VF_ENABLE_CLEAR. -/
def execVfEnableClear (h : HostId) (f : Fn) (s : State) : Host.Outcome State Fault Refusal := .next (clearVfEnable h f s)

/-- VF Enable is set (R91). -/
def setVfEnable (h : HostId) (pf : Fn) (s : State) : State :=
  if linkUp s h && (pf == .pf0 || pf == .pf1) then modFn h pf (fun x => { x with vfEnable := true }) s else s

/-- VF_ENABLE_SET. -/
def execVfEnableSet (h : HostId) (f : Fn) (s : State) : Host.Outcome State Fault Refusal := .next (setVfEnable h f s)

/-! Bus Master Enable (R95, R105, R107) -/

/-- What a network read of a function that lost Bus Master Enable was for fails. -/
def failFor (h : HostId) (f : Fn) (p : Purpose) (why : Nat) (s : State) : State :=
  let at_ (q : Nat) : Nat := ((queue s h f q).map (·.fetched)).getD 0
  match p with
  | .txDescr q => failQueue h f q why (at_ q) s
  | .rxDescr q => failQueue h f q why (at_ q) s
  | .txData q _ => failQueue h f q why (at_ q) s
  | .nvmeSqe _ => ctrlFatal (fnKey h f) s
  | .nvmeData sq cid =>
    let k := fnKey h f
    if why = 3 then (match cmdAt s k sq cid with
      | none => s
      | some x => if x.phase = .data then settleCache (dropEmptySegs (dropCmd k sq cid s)) else s)
    else settleCache (writeDataFailed h f sq cid s)
  | .context d n => contextLost (d * 2 ^ 24 + n) s
  | .lrdData d n serial => lrdDataDone (d * 2 ^ 24 + n) serial .ur [] s
  | .ringSlots n => ringFault (ringOfNumber n) s
  | .dma _ _ _ => s

/-- Once a function's last abandoned read is over, everything that depended on one fails (R105 step 3). (DEDUCED, log 33) -/
def settleAbandoned (h : HostId) (f : Fn) (s : State) : State :=
  if (outstanding s h).any fun r => r.fn == f && r.abandoned && r.why == 3 then s
  else
    let due := (link s h).failsDue.filter fun e => e.1 == f
    due.foldl (fun s e => failFor h f e.2 3 s) (modLink h (fun l => { l with failsDue := l.failsDue.filter fun e => e.1 != f }) s)

/-- Bus Master Enable is cleared: the function issues nothing more, and its reads are abandoned. -/
def clearBme (h : HostId) (f : Fn) (s : State) : State :=
  if !present s h f || !(fnOf s h f).bme then s
  else settleAbandoned h f (abandonReads h (fun g => g == f) 3 (modFn h f (fun x => { x with bme := false }) s))

/-- BUS_MASTER_ENABLE_CLEAR. -/
def execBusMasterEnableClear (h : HostId) (f : Fn) (s : State) : Host.Outcome State Fault Refusal := .next (clearBme h f s)

/-- Some queue, channel or controller of the function still uses a vector. -/
def vectorLive (s : State) (h : HostId) (f : Fn) (v : Nat) : Bool :=
  s.queues.any (fun e => e.1 / 65536 == fnKey h f && e.2.kind == 3 && e.2.vector == v)
    || s.rings.any (fun e => chanFn e.1 == (h, f) && e.2.enable && (e.2.replyVec == v || e.2.eventVec == v))
    || (Tbl.find s.nvme.ctrls (fnKey h f)).any fun c => c.cqs.any fun q => q.2.ien && q.2.iv == v

/-- Bus Master Enable is set: messages held meanwhile are sent if what caused them is live, and work goes on. -/
def setBme (h : HostId) (f : Fn) (s : State) : State :=
  if !present s h f || (fnOf s h f).bme then s
  else
    let held := (fnOf s h f).heldVecs
    let s1 := modFn h f (fun x => { x with bme := true, heldVecs := [] }) s
    kickQueues (fun h' f' => h' == h && f' == f) (held.foldl (fun s v => if vectorLive s h f v then signalVector h f v s else s) s1)

/-- BUS_MASTER_ENABLE_SET. -/
def execBusMasterEnableSet (h : HostId) (f : Fn) (s : State) : Host.Outcome State Fault Refusal := .next (setBme h f s)

/-- Pending messages that are masked no more are sent (R95). -/
def sendPending (h : HostId) (f : Fn) (s : State) : State :=
  let fs := fnOf s h f
  let go := if fs.msixEnable && !fs.msixMask then fs.pendingVecs.filter fun v => fs.unmasked.contains v else []
  go.foldl (fun s v => signalVector h f v s) (modFn h f (fun x => { x with pendingVecs := x.pendingVecs.filter fun v => !go.contains v }) s)

/-- A vector unmasked, or the whole function. -/
def unmask (h : HostId) (f : Fn) (vec : Option Nat) (s : State) : State :=
  if !present s h f then s
  else match vec with
    | none => sendPending h f (modFn h f (fun x => { x with msixMask := false }) s)
    | some v => if msixSize f ≤ v then s else sendPending h f (modFn h f (fun x => { x with unmasked := insertNat x.unmasked v }) s)

/-- MSIX_UNMASK. -/
def execMsixUnmask (h : HostId) (f : Fn) (vector : Option (Fin 2048)) (s : State) : Host.Outcome State Fault Refusal :=
  .next (unmask h f (vector.map fun v => v.val) s)

/-- HLINK_INTX_STATUS_CLEAR (R96): write 1 to clear. -/
def clearIntx (h : HostId) (v : Nat) (s : State) : State :=
  refreshInta h (modLink h (fun l => { l with intxStatus := l.intxStatus &&& (7 - v % 8) }) s)

/-- HLINK_INTX_STATUS_CLEAR. -/
def execHlinkIntxStatusClear (h : HostId) (v : Word) (s : State) : Host.Outcome State Fault Refusal :=
  .next (if linkUp s h then clearIntx h v.toNat s else s)

/-! Detach (R115) -/

/-- The cause in HOST_LINK_DOWN (R116). -/
def detachCode : DetachCause → Nat
  | .dlDown => 1 | .perst => 2 | .hotReset => 3 | .linkDisable => 4 | .park => 5

/-- A host that is attached is detached; a link that is still attaching or waits for the end of BOOT goes down. -/
def detachHost (h : HostId) (cause : DetachCause) (s : State) : State :=
  let l := link s h
  let perst := l.perst || cause == .perst
  if l.state = 0 then modLink h (fun l => { l with perst := perst }) s
  else if l.state ≠ 3 then modLink h (fun l => { l with state := 0, dlUp := false, attachDue := none, perst := perst, width := 0, speed := 0, flit := false }) s
  else
    let all : Fn → Bool := fun _ => true
    let conns := connsIn h all s
    let keys := slotsIn h all s
    let cmds := cmdsOf h all s
    let s1 := count 0x01 h.val 0x3000 (waitingRx h all s) (modLink h (fun l => { l with reads := [], readsDue := [], failsDue := [] }) s)
    let s2 := unitsDown h false (clearFns h all s1)
    let s3 := modLink h (fun l => { l with
      state := 0, retraining := false, width := 0, speed := 0, flit := false, dlUp := false, perst := perst, recoveryCount := 0 }) s2
    raiseOwner 0x21 (source 0x12 h.val) 0 [h.val + detachCode cause * 256, conns, keys, cmds] s3

/-- HOST_DETACH. -/
def execHostDetach (h : HostId) (cause : DetachCause) (s : State) : Host.Outcome State Fault Refusal := .next (detachHost h cause s)

/-! Attach (R87 to R89, R114) -/

/-- HOST_LINK_UP (R116). -/
def raiseLinkUp (h : HostId) (s : State) : State :=
  let l := link s h
  raiseOwner 0x20 (source 0x12 h.val) 0
    [h.val + l.speed * 256 + l.width * 65536 + b2n l.flit * 2 ^ 24 + b2n (l.speed != 7 || l.width != 16) * 2 ^ 25, l.t0 + l.t1 * 65536] s

/-- Lanes that training found faulty on the 8256's side enter the degradation record (R88). -/
def noteBadLanes (h : HostId) (lanes : List Nat) (s : State) : State :=
  lanes.foldl (fun s n => if n < 16 ∧ !(link s h).lostLanes.contains n then failHostLane 5 h.val n s else s) s

/-- The host's functions are built, and its idle units are set to their topcoats. -/
def attachHost (h : HostId) (t : LinkTraining) (s : State) : State :=
  let s1 := noteBadLanes h t.badLanes s
  let w := widthWithout [16, 8, 4, 1] (link s1 h).lostLanes t.width
  let none_ := s1.glb.stage == .recovery
  if w = 0 then s1
  else
    let s2 := modLink h (fun l => { l with
      state := 3, width := w, speed := t.speed, flit := t.flit || 6 ≤ t.speed, perst := false, dlUp := true, retraining := false, attachDue := none
      t0 := if none_ then 0 else l.staged0, t1 := if none_ then 0 else l.staged1, violationsFrom := s1.violations.seq }) s1
    let s3 := (unitsOfHost h).foldl (fun s i => if (unitAt s i).phase = .idle ∧ !(unitAt s i).defaultsDue then reloadUnit i s else s) s2
    raiseLinkUp h s3

/-- HOST_ATTACH: DL_Up in SERVICE, DEGRADED, QUIESCE or MAINTENANCE attaches; in BOOT the attach waits; in PARK the link is held down (R114, R485). -/
def execHostAttach (h : HostId) (t : LinkTraining) (s : State) : Host.Outcome State Fault Refusal :=
  .next (if !s.glb.powered || (link s h).state == 3 || !s.clk.hostRefs[h] || isLost s 0x12 h.val then s
    else match s.glb.mode with
      | .park => s
      | .boot => modLink h (fun l => { l with attachDue := some t, state := 2, dlUp := true, perst := false }) s
      | _ => attachHost h t s)

/-! Recovery (R89, R463) -/

/-- LINK_RECOVERY_ENTRY. -/
def execLinkRecoveryEntry (h : HostId) (s : State) : Host.Outcome State Fault Refusal :=
  .next (if linkUp s h then modLink h (fun l => { l with retraining := true, recoveryCount := satAdd 0xFF l.recoveryCount 1 }) s else s)

/-- LINK_RECOVERY_EXIT. -/
def execLinkRecoveryExit (h : HostId) (s : State) : Host.Outcome State Fault Refusal :=
  .next (if linkUp s h then modLink h (fun l => { l with retraining := false }) s else s)

/-- LINK_WIDTH_CHANGE: the new width and speed, and HOST_LINK_UP again. -/
def execLinkWidthChange (h : HostId) (t : LinkTraining) (s : State) : Host.Outcome State Fault Refusal :=
  let s1 := noteBadLanes h t.badLanes s
  let w := widthWithout [16, 8, 4, 1] (link s1 h).lostLanes t.width
  .next (if !linkUp s h then s
    else if w = 0 then detachHost h .dlDown s1
    else raiseLinkUp h (modLink h (fun l => { l with retraining := false, width := w, speed := t.speed, flit := t.flit || 6 ≤ t.speed }) s1))

/-- HOST_LANE_FAULT_IN_SERVICE: the link narrows through Recovery, or is lost with its lane 0. -/
def execHostLaneFaultInService (h : HostId) (lane : Fin 16) (s : State) : Host.Outcome State Fault Refusal :=
  .next (if (link s h).lostLanes.contains lane.val || !s.glb.fwRuns then s
    else
      let s1 := failHostLane 6 h.val lane.val s
      if !linkUp s h then s1
      else if lane.val = 0 then detachHost h .dlDown s1
      else
        let w := widthWithout [16, 8, 4, 1] (link s1 h).lostLanes (link s h).width
        if w = (link s h).width then s1
        else raiseLinkUp h (modLink h (fun l => { l with width := w, recoveryCount := satAdd 0xFF l.recoveryCount 1 }) s1))

/-- ATS_INVALIDATION_REQUEST (R87): PF0, PF1 and their VFs answer with an Invalidation Completion. (DEDUCED, log 32) -/
def execAtsInvalidationRequest (h : HostId) (f : Fn) (s : State) : Host.Outcome State Fault Refusal :=
  .next (if present s h f && f != .pf2 then emit (.atsCompletion h f) s else s)

end Sys2Proof.Machine
end

