-- ==== Sys2Proof/Machine/LinkReq.lean ====
section
/-! DEFINITION. LinkReq.lean: configuration space, error logging, and the completions and timeouts of reads (R90 to R92, R103 to R110, R114). -/

namespace Sys2Proof.Machine
open Sys2Proof

/-! Configuration space (R90 to R92) -/

/-- The kind of a function, as Config.capOffset numbers them. (PRESUMED, log 29) -/
def fnKind (s : State) (h : HostId) (f : Fn) : Nat :=
  match f with
  | .pf0 => 0
  | .pf1 => 1
  | .pf2 => 2
  | .vf v => if vfOnPf1 s h v.val then 4 else 3

/-- Device IDs (R90). -/
def deviceId (kind : Nat) : Nat := [0x8256, 0x8257, 0x8258, 0x8266, 0x8267].getD kind 0x8256
/-- Class codes (R90). -/
def classCode (kind : Nat) : Nat := [0x020000, 0x010802, 0x088000, 0x020000, 0x010802].getD kind 0
/-- BAR0 windows (R93). -/
def barSize (kind : Nat) : Nat := [2097152, 1048576, 65536, 65536, 65536].getD kind 65536

/-- A word as last written. (DESIGN CHOICE, log 30) -/
def cfgStored (s : State) (h : HostId) (f : Fn) (off : Nat) : Option Nat := (Tbl.find (fnOf s h f).cfg off).map (·.toNat)

/-- A register of a capability: its offset. (PRESUMED, log 29) -/
def capAt (s : State) (h : HostId) (f : Fn) (cap off : Nat) : Nat := Config.capOffset (fnKind s h f) cap + off

/-- Uncorrectable and correctable error status: the errors logged. -/
def aerStatus (l : List AerEntry) (correctable : Bool) : Nat :=
  l.foldl (fun m e =>
    if correctable then (if 32 ≤ e.error then m ||| 2 ^ (e.error - 32) else if e.advisory then m ||| 2 ^ 13 else m)
    else if e.error < 32 then m ||| 2 ^ e.error else m) 0

/-- Device Control: error reporting enables as written, Relaxed Ordering, Max_Payload_Size, Max_Read_Request_Size. -/
def devCtl (s : State) (h : HostId) (f : Fn) : Nat :=
  let x := fnOf s h f
  (cfgStored s h f (capAt s h f 2 8)).getD 0 % 16 + b2n x.relaxed * 16 + x.mps % 8 * 32 + x.mrrs % 8 * 4096

/-- The registers of the capabilities that have a meaning here; none: another word. (PRESUMED, log 29) -/
def capRead (s : State) (h : HostId) (f : Fn) (off : Nat) : Option Nat :=
  let x := fnOf s h f
  let at_ (cap o : Nat) : Bool := off == capAt s h f cap o
  let vf := fnKind s h f == 3 || fnKind s h f == 4
  if !vf && at_ 1 4 then some (if x.d3 then 3 else 0)
  else if at_ 2 8 then some (devCtl s h f)
  else if at_ 2 0x28 then some (x.cto % 16 + b2n x.tags10 * 4096)
  else if f != .pf2 && at_ 3 0 then some (b2n x.msixEnable * 2 ^ 31 + b2n x.msixMask * 2 ^ 30 + (msixSize f - 1) * 65536 + 0x11)
  else if at_ 4 4 then some (aerStatus x.aer false)
  else if at_ 4 8 then some ((cfgStored s h f off).getD 0x400000)
  else if at_ 4 0xC then some ((cfgStored s h f off).getD 0x462030)
  else if at_ 4 0x10 then some (aerStatus x.aer true)
  else if at_ 4 0x14 then some ((cfgStored s h f off).getD 0xE000)
  else if vf || f == .pf2 then none
  else if at_ 5 8 then some (b2n x.vfEnable + ((cfgStored s h f off).getD 0 &&& 0x18))
  else if at_ 5 0xC then some (if f = .pf0 then (link s h).t0 * 65537 else (link s h).t1 * 65537)
  else if at_ 5 0x10 then some x.numVfs
  else if at_ 5 0x14 then some ((if f = .pf0 then 256 else 255 + (link s h).t0) + 65536)
  else none

/-- A word of a function's configuration space. (PRESUMED, log 29) -/
def cfgRead (s : State) (h : HostId) (f : Fn) (off : Nat) : Nat :=
  let x := fnOf s h f
  let k := fnKind s h f
  match off with
  | 0x00 => deviceId k * 65536 + 0x7B4D
  | 0x04 =>
    let request := match f with
      | .pf0 => (link s h).intxStatus &&& (link s h).intxEnable != 0
      | .pf1 => (link s h).pf1Int
      | .pf2 => (link s h).pf2Int
      | _ => false
    b2n x.mse * 2 + b2n x.bme * 4 + b2n x.intxDisable * 1024 + b2n request * 2 ^ 19 + 2 ^ 20
  | 0x08 => classCode k * 256 + 0xA1
  | 0x0C => if k < 3 then 2 ^ 23 else 0
  | 0x10 => if k < 3 then (cfgStored s h f 0x10).getD 0 / barSize k * barSize k + 4 else 0
  | 0x14 => if k < 3 then (cfgStored s h f 0x14).getD 0 else 0
  | 0x2C => deviceId k * 65536 + 0x7B4D
  | 0x3C => (cfgStored s h f 0x3C).getD 0 % 256 + (if k < 3 then 256 else 0)
  | _ => (capRead s h f off).getD ((cfgStored s h f off).getD (Config.configWord k off % 2 ^ 32))

/-- The bytes of a write taken, those not enabled kept. -/
def mergeBytes (old v be : Nat) : Nat :=
  (upFrom 0 4).foldl (fun n i => n + (if bitAt be i then bitsAt v (8 * i) 8 else bitsAt old (8 * i) 8) * 2 ^ (8 * i)) 0

/-- A word kept as written. -/
def cfgKeep (h : HostId) (f : Fn) (off v : Nat) (s : State) : State := modFn h f (fun x => { x with cfg := Tbl.put x.cfg off (wordOf v) }) s

/-- The Command register: memory space, Bus Master Enable, Interrupt Disable. -/
def cfgCommand (h : HostId) (f : Fn) (v : Nat) (s : State) : State :=
  let s1 := refreshInta h (modFn h f (fun x => { x with mse := bitAt v 1, intxDisable := bitAt v 10 }) s)
  if bitAt v 2 then setBme h f s1 else clearBme h f s1

/-- MSI-X Message Control: enable and function mask. -/
def cfgMsix (h : HostId) (f : Fn) (v : Nat) (s : State) : State :=
  sendPending h f (refreshInta h (modFn h f (fun x => { x with msixEnable := bitAt v 31, msixMask := bitAt v 30 }) s))

/-- Logged errors of a mask leave the AER log. -/
def aerClear (h : HostId) (f : Fn) (correctable : Bool) (v : Nat) (s : State) : State :=
  let keep (e : AerEntry) : Bool := !(if correctable then decide (32 ≤ e.error) && bitAt v (e.error - 32) else decide (e.error < 32) && bitAt v e.error)
  let calm (e : AerEntry) : AerEntry := if correctable && bitAt v 13 then { e with advisory := false } else e
  modFn h f (fun x => { x with aer := (x.aer.filter keep).map calm }) s

/-- A configuration write (R92): registers with a meaning act, others keep the value. (PRESUMED, log 29) -/
def cfgWrite (h : HostId) (f : Fn) (off v : Nat) (s : State) : State :=
  let at_ (cap o : Nat) : Bool := off == capAt s h f cap o
  let pf := fnKind s h f < 3
  if off = 0x04 then cfgCommand h f v s
  else if off = 0 ∨ off = 8 then s
  else if off < 0x40 then cfgKeep h f off v s
  else if pf && at_ 1 4 then (if v % 4 = 3 then modFn h f (fun x => { x with d3 := true }) s else if v % 4 = 0 then leaveD3 h f s else s)
  else if at_ 2 8 then
    let s1 := cfgKeep h f off v (modFn h f (fun x => { x with relaxed := bitAt v 4, mps := bitsAt v 5 3, mrrs := bitsAt v 12 3 }) s)
    if bitAt v 15 then initiateFlr h f s1 else s1
  else if at_ 2 0x28 then modFn h f (fun x => { x with cto := v % 16, tags10 := bitAt v 12, tags14 := bitAt v 12 }) s
  else if f != .pf2 && at_ 3 0 then cfgMsix h f v s
  else if at_ 4 4 then aerClear h f false v s
  else if at_ 4 0x10 then aerClear h f true v s
  else if pf && f != .pf2 && at_ 5 8 then (let s1 := cfgKeep h f off v s; if bitAt v 0 then setVfEnable h f s1 else clearVfEnable h f s1)
  else if pf && f != .pf2 && at_ 5 0x10 then modFn h f (fun x => { x with numVfs := v % 65536 }) s
  else cfgKeep h f off v s

/-- CONFIG_WRITE. -/
def execConfigWrite (h : HostId) (f : Fn) (offset : BitVec 12) (v : Word) (be : BitVec 4) (s : State) : Host.Outcome State Fault Refusal :=
  let off := offset.toNat / 4 * 4
  .next (if present s h f then cfgWrite h f off (mergeBytes (cfgRead s h f off) v.toNat be.toNat) s else s)

/-! Error logging (R109, R110) -/

/-- An AER mask or severity register. (PRESUMED, log 29) -/
def aerReg (s : State) (h : HostId) (f : Fn) (off : Nat) : Nat := (capRead s h f (capAt s h f 4 off)).getD 0

/-- The message an error makes a function send, if its enables and masks let it. -/
def errorMessage (s : State) (h : HostId) (f : Fn) (bit : Nat) (correctable advisory : Bool) : Option Nat :=
  let ctl := devCtl s h f
  if correctable then (if bitAt (aerReg s h f 0x14) bit || !bitAt ctl 0 then none else some 1)
  else if bitAt (aerReg s h f 8) bit then none
  else if advisory then (if bitAt (aerReg s h f 0x14) 13 || !bitAt ctl 0 then none else some 1)
  else if bitAt (aerReg s h f 0xC) bit then (if bitAt ctl 2 then some 3 else none)
  else if bitAt ctl 1 then some 2 else none

/-- An error joins a log, which holds four headers. -/
def addAer (e : AerEntry) (l : List AerEntry) : List AerEntry :=
  let full := 4 ≤ (l.filter fun x => !x.header.isEmpty).length
  let e' : AerEntry := if full then { e with header := [] } else e
  if e'.header.isEmpty && l.any (fun x => x.error == e.error && x.advisory == e.advisory) then l else l ++ [e']

/-- An error is logged in a function's AER, and signalled where the function reports it. (DEDUCED, log 31) -/
def logAer (h : HostId) (f : Fn) (correctable : Bool) (bit : Nat) (advisory : Bool) (header : List Nat) (reports : Bool) (s : State) : State :=
  let hdr := if !correctable && bitAt (aerReg s h f 8) bit then [] else header
  let s1 := modFn h f (fun x => { x with aer := addAer { error := bit + (if correctable then 32 else 0), advisory := advisory, header := hdr } x.aer }) s
  match errorMessage s h f bit correctable advisory with
  | none => s1
  | some sev => if reports then emit (.errMsg h f sev) s1 else s1

/-- An error that is logged in every PF and reported by PF0 (R109). (DEDUCED, log 31) -/
def logAllPfs (h : HostId) (bit : Nat) (header : List Nat) (s : State) : State :=
  logAer h .pf2 false bit false header false (logAer h .pf1 false bit false header false (logAer h .pf0 false bit false header true s))

/-- Words whose content the model does not see. (DESIGN CHOICE, log 30) -/
def freeWords (n : Nat) (s : State) : List Nat := (upFrom s.drawn n).map fun i => Config.freeNat i % 2 ^ 32
/-- Drawing them. -/
def drawnN (n : Nat) (s : State) : State := { s with drawn := s.drawn + n }

/-- The record of a refused or unexpected request: 1 UR, 2 CA, 3 unexpected completion (R110, R502). -/
def linkViolation (kind : Nat) (h : HostId) (f : Fn) (bar : Option Nat) (header : List Nat) (s : State) : State :=
  logViolation kind 0x01 (targetOf h f) ([b2n (link s h).flit + b2n bar.isSome * 2 + h.val * 256, bar.getD 0] ++ (header ++ List.replicate 6 0).take 6) s

/-- An Unsupported Request (R94, R109): a non-posted request is answered and logged as advisory. -/
def unsupported (h : HostId) (f : Fn) (posted : Bool) (bar : Option Nat) (header : List Nat) (s : State) : State :=
  let g := if present s h f then f else .pf0
  let s1 := linkViolation 1 h g bar header (logAer h g false 20 (!posted) header true s)
  if posted then s1 else emit (.completion h 1 false []) s1

/-- A Completer Abort. -/
def completerAbort (h : HostId) (f : Fn) (bar : Option Nat) (header : List Nat) (s : State) : State :=
  emit (.completion h 2 false []) (linkViolation 2 h f bar header (logAer h f false 15 true header true s))

/-- IO_OR_ATOMIC_REQUEST (R94). -/
def execIoOrAtomicRequest (h : HostId) (f : Fn) (posted : Bool) (s : State) : Host.Outcome State Fault Refusal :=
  .next (if linkUp s h then unsupported h f posted none (freeWords 6 s) (drawnN 6 s) else s)

/-- CONFIG_REQUEST (R114): Request Retry Status before attach completes, Unsupported Request from an absent function. -/
def execConfigRequest (h : HostId) (r : CfgReq) (s : State) : Host.Outcome State Fault Refusal :=
  .next (if (link s h).state = 2 then emit (.completion h 3 false []) s
    else if !linkUp s h then s
    else if !present s h r.fn then unsupported h r.fn false none (freeWords 6 s) (drawnN 6 s)
    else emit (.completion h 0 false (if r.write then [] else [cfgRead s h r.fn (r.offset.toNat / 4 * 4)])) s)

/-- PCIE_LINK_ERROR (R109, R110). -/
def execPcieLinkError (h : HostId) (f : Fn) (e : LinkError) (s : State) : Host.Outcome State Fault Refusal :=
  let cor (bit : Nat) : State := logAer h .pf0 true bit false [] true s
  let tied (bit : Nat) (hd : List Nat) : State :=
    let s1 := logAllPfs h bit hd s
    match f with
    | .vf _ => if present s h f then logAer h f false bit false hd false s1 else s1
    | _ => s1
  .next (if !linkUp s h then s
    else match e with
    | .receiver => cor 0
    | .badTlp => cor 6
    | .badDllp => cor 7
    | .replayRollover => cor 8
    | .replayTimer => cor 12
    | .fecCorrected => cor 0
    | .correctedInternal => cor 14
    | .dlProtocol => logAllPfs h 4 [] s
    | .flowControl => logAllPfs h 13 [] s
    | .receiverOverflow => logAllPfs h 17 [] s
    | .malformed hd => tied 18 hd
    | .ecrc hd => tied 19 hd
    | .poisonedTlp hd => logAer h (if present s h f then f else .pf0) false 12 true hd true s
    | .uncorrectableInternal => detachHost h .dlDown (unitLost 0x12 6 h.val 0 (logAllPfs h 22 [] s)))

/-! Completions and timeouts (R104 to R107) -/

/-- The data of a live read reaches what it was read for. -/
def readReturns (h : HostId) (r : ReadReq) (st : CplStatus) (data : List Byte) (s : State) : State :=
  let s1 := endRead h r.tag s
  let f := r.fn
  match r.purpose with
  | .txDescr q => knowHead h f q (txDescrDone h f q st data s1)
  | .rxDescr q => rxDescrDone h f q st data s1
  | .txData q sel => match (queue s1 h f q).bind fun x => x.reading.find? fun y => y.sel = sel with
    | none => s1
    | some t => txDataDone h f q t st data s1
  | .nvmeData sq cid =>
    if st = .ok then (match cmdAt s1 (fnKey h f) sq cid with
      | none => s1
      | some x => if x.phase = .data then settleCache (insertWrite (fnKey h f) x data s1) else s1)
    else settleCache (writeDataFailed h f sq cid s1)
  | .context d n =>
    let k := d * 2 ^ 24 + n
    match conn s1 k with
    | none => s1
    | some c => if st = .ok ∧ !c.imageBad then fetched k s1 else contextLost k (if st = .ok then countC k 11 s1 else s1)
  | .lrdData d n serial => lrdDataDone (d * 2 ^ 24 + n) serial st data s1
  | p => if st = .ok then s1 else failFor h f p 1 s1

/-- An abandoned read is over; what depended on it fails once the function's last one is. (DEDUCED, log 33) -/
def abandonedOver (h : HostId) (r : ReadReq) (s : State) : State :=
  if r.why = 3 then settleAbandoned h r.fn (modLink h (fun l => { l with failsDue := l.failsDue ++ [(r.fn, r.purpose)] }) s) else s

/-- An Unexpected Completion is logged and recorded. (DEDUCED, log 31) -/
def unexpectedCpl (h : HostId) (f : Fn) (s : State) : State :=
  let g := if present s h f then f else .pf0
  linkViolation 3 h f none (freeWords 6 s) (logAer h g false 16 true (freeWords 6 s) true (drawnN 6 s))

/-- COMPLETION_RECEIVED (R106, R107). -/
def execCompletionReceived (h : HostId) (tag : BitVec 14) (status : CplStatus) (data : List Byte) (s : State) : Host.Outcome State Fault Refusal :=
  .next (if !linkUp s h then s
    else match (link s h).reads.find? fun r => r.tag == tag.toNat with
    | none => unexpectedCpl h .pf0 s
    | some r =>
      if r.quarantined then
        unexpectedCpl h r.fn (countFn h r.fn 3 (modLink h (fun l => { l with unexpectedCpl := satAdd 0xFFFF l.unexpectedCpl 1 }) s))
      else if r.abandoned then abandonedOver h r (endRead h r.tag (countFn h r.fn 2 s))
      else
        let s1 := if status = .poisoned then logAer h r.fn false 12 true (freeWords 6 s) true (drawnN 6 s) else s
        readReturns h r status data s1)

/-- The reason a queue fails with when its read times out (R107). -/
def timeoutReason : Purpose → Nat
  | .txData _ _ => 2
  | _ => 4

/-- COMPLETION_TIMEOUT (R104 to R107): the read's tag is quarantined; a live read's queue, channel or connection fails. (DESIGN CHOICE, log 3) -/
def execCompletionTimeout (h : HostId) (tag : BitVec 14) (s : State) : Host.Outcome State Fault Refusal :=
  .next (match (link s h).reads.find? fun r => r.tag == tag.toNat && !r.quarantined with
    | none => s
    | some r =>
      let s1 := countFn h r.fn 4 (modLink h (fun l => { l with
        cplTimeouts := satAdd 0xFFFF l.cplTimeouts 1
        reads := l.reads.map fun x => if x.tag = r.tag then { x with abandoned := true, timedOut := true, quarantined := true } else x }) s)
      if r.abandoned then pumpReads h (abandonedOver h r s1)
      else pumpReads h (failFor h r.fn r.purpose (timeoutReason r.purpose) (logAer h r.fn false 14 false [] true s1)))

/-- TAG_QUARANTINE_END (R105). -/
def execTagQuarantineEnd (h : HostId) (tag : BitVec 14) (s : State) : Host.Outcome State Fault Refusal :=
  .next (pumpReads h (modLink h (fun l => { l with reads := l.reads.filter fun r => !(r.tag == tag.toNat && r.quarantined) }) s))

end Sys2Proof.Machine
end

