-- ==== Sys2Proof/Machine/Epochs.lean ====
section
/-! DEFINITION. Epochs.lean: arming, disarming and resetting recoat units, the arm cutoff, grace and reload, and the epoch commands (chapter 2). -/

namespace Sys2Proof.Machine
open Sys2Proof

/-! The commands -/

/-- The units of a mask, as bit positions. -/
def maskUnits (mask : Nat) : List (Fin 32) := (List.finRange 32).filter fun i => bitAt mask i.val

/-- Refusals of a unit mask (R39, R67, R74): a unit the channel may not write, a reserved bit, an empty mask. -/
def maskChecks (p : Packet) (s : State) : List (Bool × Status) :=
  [ ((maskUnits (p.w 0)).any fun i => validUnit i && !mayWrite p.chan i s, .notPermitted),
    (p.w 0 == 0 || (maskUnits (p.w 0)).any (fun i => !validUnit i) || p.w 1 != 0, .badParam) ]

/-- RECOAT_ARM arms a unit (R45, R54). -/
def armUnit (target : Option Nat) (handle : Nat) (i : Fin 32) (s : State) : State :=
  modUnit i (fun u => { u with phase := .armed, target := target, handle := some handle }) s

/-- The epoch an arm without a binding takes effect at (R45). -/
def nextArmEpoch (s : State) : Nat := s.epochs.epoch + (if s.epochs.cutoffDone then 2 else 1)

/-- RECOAT_ARM (R53, R54, R74, R509). -/
def recoatArmDef : CmdDef where
  opcode := 0x0112
  owner := true
  host := true
  bindable := true
  len := fun n => n == 1
  checks := fun _ p s => maskChecks p s ++
    [ ((maskUnits (p.w 0)).any fun i => unitArmed (unitAt s i), .badParam),
      ((maskUnits (p.w 0)).any fun i => unitInGrace (unitAt s i), .epochGrace),
      ((maskUnits (p.w 0)).any fun i => (unitAt s i).copying, .busy),
      (opLimitReached p s, .noResource) ]
  act := fun _ p s =>
    let e := if p.bound then p.epochBind.toNat else nextArmEpoch s
    let a := startOp 0x0112 p (.recoatArm ((maskUnits (p.w 0)).map (·.val))) 0 e s
    { a with state := (maskUnits (p.w 0)).foldl (fun s i => armUnit (if p.bound then some e else none) (a.result.getD 0 0) i s) a.state }

/-- RECOAT_DISARM (R53, R509). -/
def recoatDisarmDef : CmdDef where
  opcode := 0x0113
  owner := true
  host := true
  len := fun n => n == 1
  checks := fun _ p s => maskChecks p s ++
    [ ((maskUnits (p.w 0)).any fun i => (unitAt s i).phase == .pending || unitInGrace (unitAt s i), .epochGrace),
      ((maskUnits (p.w 0)).any fun i => (unitAt s i).copying, .busy) ]
  act := fun _ p s =>
    let us := (maskUnits (p.w 0)).filter fun i => (unitAt s i).phase == .armed
    { state := us.foldl (fun s i => modUnit i (fun u => { u with phase := .idle, target := none }) s) s
      result := [us.foldl (fun m i => m + 2 ^ i.val) 0]
      after := fun s' => us.foldl (fun s'' i => armLost ((unitAt s i).handle) i (modUnit i (fun u => { u with handle := none }) s'')) s' }

/-- UNDERCOAT_RESET (R43, R53): register units at once, bank units in steps. -/
def undercoatResetDef : CmdDef where
  opcode := 0x0114
  owner := true
  host := true
  len := fun n => n == 1
  checks := fun _ p s => maskChecks p s ++
    [ ((maskUnits (p.w 0)).any fun i => (unitAt s i).phase == .pending || unitInGrace (unitAt s i), .epochGrace),
      ((maskUnits (p.w 0)).any fun i => (unitAt s i).copying, .busy),
      ((maskUnits (p.w 0)).any isBank && opLimitReached p s, .noResource) ]
  act := fun _ p s =>
    let us := maskUnits (p.w 0)
    let s1 := (us.filter fun i => !isBank i).foldl (fun s i => reloadUnit i s) s
    let bs := us.filter isBank
    if bs.isEmpty then reply [] s1
    else startOp 0x0114 p (.undercoatReset (bs.map (·.val))) bs.length 0
      (bs.foldl (fun s i => modUnit i (fun u => { u with copying := true }) s) s1)

/-- EPOCH_GET (R53, R73). -/
def epochGetDef : CmdDef where
  opcode := 0x0110
  owner := true
  host := true
  tenant := true
  act := fun _ _ s => reply ([s.epochs.len, 0] ++ words64 s.epochs.dtimeAt) s

/-- EPOCH_SET_LENGTH (R53, R73). -/
def epochSetLengthDef : CmdDef where
  opcode := 0x0111
  owner := true
  objs := Obj.isDevice
  len := fun n => n == 1
  checks := fun _ p _ => [(p.d 0 < 125 || 125000 < p.d 0, .badParam)]
  act := fun _ p s => reply [] { s with epochs := { s.epochs with len := p.w 0 } }

/-- EPOCH_WAIT (R53, R74). -/
def epochWaitDef : CmdDef where
  opcode := 0x0115
  owner := true
  host := true
  tenant := true
  len := fun n => n == 1
  checks := fun _ p s =>
    [ (s.epochs.epoch + 16777216 < p.d 0, .badParam),
      (s.epochs.epoch < p.d 0 && opLimitReached p s, .noResource) ]
  act := fun _ p s => if p.d 0 ≤ s.epochs.epoch then reply [] s else startOp 0x0115 p (.epochWait (p.d 0)) 0 (p.d 0) s

/-- RECOAT_ARM. -/
def execRecoatArm (p : Packet) (s : State) : Host.Outcome State Fault Refusal := .next (runCmd recoatArmDef (.recoatArm p) p s)
/-- RECOAT_DISARM. -/
def execRecoatDisarm (p : Packet) (s : State) : Host.Outcome State Fault Refusal := .next (runCmd recoatDisarmDef (.recoatDisarm p) p s)
/-- UNDERCOAT_RESET. -/
def execUndercoatReset (p : Packet) (s : State) : Host.Outcome State Fault Refusal := .next (runCmd undercoatResetDef (.undercoatReset p) p s)
/-- EPOCH_GET. -/
def execEpochGet (p : Packet) (s : State) : Host.Outcome State Fault Refusal := .next (runCmd epochGetDef (.epochGet p) p s)
/-- EPOCH_SET_LENGTH. -/
def execEpochSetLength (p : Packet) (s : State) : Host.Outcome State Fault Refusal := .next (runCmd epochSetLengthDef (.epochSetLength p) p s)
/-- EPOCH_WAIT. -/
def execEpochWait (p : Packet) (s : State) : Host.Outcome State Fault Refusal := .next (runCmd epochWaitDef (.epochWait p) p s)

/-! The hardware's own steps -/

/-- No recoat occurs in BOOT or PARK (R49). -/
def noRecoat (s : State) : Bool := s.glb.mode == .boot || s.glb.mode == .park

/-- ARM_CUTOFF (R45): every unit armed for the coming boundary becomes pending. -/
def execArmCutoff (s : State) : Host.Outcome State Fault Refusal :=
  let due (u : UnitState) : Bool := u.phase == .armed && (u.target.isNone || u.target == some (s.epochs.epoch + 1))
  let s1 := { s with epochs := { s.epochs with cutoffDone := true } }
  .next ((List.finRange 32).foldl (fun t i => if due (unitAt s i) then modUnit i (fun u => { u with phase := .pending }) t else t) s1)

/-- The held direct writes of a unit reach its undercoat, and its grace bit clears (R48). -/
def clearGrace (i : Fin 32) (s : State) : State :=
  let held := (unitAt s i).held
  let handle := (unitAt s i).handle
  let s1 := modUnit i (fun u => { u with phase := .idle, target := none, handle := none, held := [] }) s
  graceCleared handle i (held.foldl (fun s w => parseStagedWrite w.1 w.2 s) s1)

/-- GRACE_END (R44, R48): a bank unit's grace bit clears; a register unit begins its reload. -/
def execGraceEnd (u : RUnit) (s : State) : Host.Outcome State Fault Refusal :=
  let i := unitBit u
  .next (if (unitAt s i).phase != .grace then s
    else if isBank i then clearGrace i s
    else modUnit i (fun x => { x with phase := .reload }) s)

/-- RELOAD_COMPLETE (R43): the undercoat takes the topcoat, held writes are applied and the grace bit clears. -/
def execReloadComplete (u : RUnit) (s : State) : Host.Outcome State Fault Refusal :=
  let i := unitBit u
  .next (if (unitAt s i).phase != .reload then s else clearGrace i (reloadUnit i s))

/-- GLB_RECOAT_ARM_WRITE (R45, R47, R49): 1 to the arm bit of a unit in grace is undefined. -/
def execGlbRecoatArmWrite (v : Word) (s : State) : Host.Outcome State Fault Refusal :=
  if noRecoat s then .next s
  else if (maskUnits v.toNat).any fun i => validUnit i && unitInGrace (unitAt s i) then .refused (.undefinedCase 47)
  else .next ((maskUnits v.toNat).foldl (fun t i =>
    if validUnit i && !unitArmed (unitAt t i) && !(unitAt t i).copying then modUnit i (fun u => { u with phase := .armed, target := none, handle := none }) t else t) s)

/-- STAGED_REGISTER_WRITE (R9, R47, R48): only PARSE has staged registers; a write in grace is undefined. -/
def execStagedRegisterWrite (addr v : Word) (s : State) : Host.Outcome State Fault Refusal :=
  if !parseStagedAddr addr.toNat then .next s
  else match (unitAt s 0).phase with
    | .grace => .refused (.undefinedCase 47)
    | .reload => .refused (.undefinedCase 47)
    | .pending => .next (modUnit 0 (fun u => { u with held := u.held ++ [(addr.toNat, v.toNat)] }) s)
    | _ => .next (parseStagedWrite addr.toNat v.toNat s)

/-- GLB_EPOCH_LEN_WRITE (R36, R37): the next boundary takes the new length. -/
def execGlbEpochLenWrite (v : Word) (s : State) : Host.Outcome State Fault Refusal :=
  .next { s with epochs := { s.epochs with len := v.toNat % 2 ^ 17 } }

/-- The length a GLB_EPOCH_LEN value acts as (R36). (DEDUCED, log 26) -/
def clampLen (n : Nat) : Nat := if n < 125 then 125 else if 125000 < n then 125000 else n

end Sys2Proof.Machine
end

