-- ==== Sys2Proof/Machine/UnitFail.lean ====
section
/-! DEFINITION. UnitFail.lean: units that fail in service, and the spares that replace them at the next boundary (R31, R457, R458, R464). -/

namespace Sys2Proof.Machine
open Sys2Proof

/-- The packets inside a pipeline, 0 to 15 receive and 16 to 31 transmit, are dropped and counted as SWAP_DROPS (R458). -/
def dropPipe (p : Nat) (s : State) : State :=
  let x := pipeOf s p
  let ks : List Pkt := x.input ++ x.recirc ++ x.held ++ x.tile
  let s1 := modPipe p (fun _ => { input := [], recirc := [], held := [], tile := [] }) s
  let s2 := modCrypt (fun c => { c with started := Tbl.del c.started p }) s1
  count 0x0F 0 5 ks.length (ks.foldl (fun s (k : Pkt) => dropPkt k s) s2)

/-- A core's threads are lost with their requests' replies (R458). -/
def dropCore (ck : Nat) (s : State) : State :=
  let f (m : PortMsg) : PortMsg := if m.core = ck % 16 then { m with thread := nobody } else m
  let g (j : LaJob) : LaJob := if j.cluster = ck / 16 ∧ j.core = ck % 16 then { j with thread := nobody } else j
  let tile (x : LaTile) : LaTile := { x with running := x.running.map g, suspended := x.suspended.map g, queue := x.queue.map g }
  let cl : Fin 16 := ⟨ck / 16 % 16, Nat.mod_lt _ (by decide)⟩
  modCore ck (fun c => { c with threads := [] })
    (modCluster cl (fun c => { c with ports := Tbl.mapAll c.ports fun _ (l : List PortMsg) => l.map f, recvs := c.recvs.filter fun m => m.core != ck % 16 })
      (modCrypt (fun c => { c with tiles := c.tiles.map tile }) s))

/-- The spare of a unit stands ready: unused, and no failure waits for it. -/
def spareReady (s : State) (kind unit : Nat) : Bool :=
  spareFree s kind unit && !(s.bist.swaps.any fun w => w.1 == kind && (kind != 3 || w.2 / 16 == unit / 16))

/-- Both pipelines of a pair are out of service: every port of their group is DISABLED (R31). -/
def checkPair (p : Nat) (s : State) : State :=
  if (carrier s p).isNone then disableGroup 14 ⟨p % 16 / 2 % 8, Nat.mod_lt _ (by decide)⟩ s else s

/-- A pipeline or core fails: its spare will take its number at the next boundary, or it is lost. (DEDUCED, log 81) -/
def failSpared (kind unit : Nat) (s : State) : State :=
  if spareReady s kind unit then modBist (fun b => { b with swaps := b.swaps ++ [(kind, unit)] }) s
  else unitLost kind 6 unit 0 (repair (unitEntry kind 3 3 unit 0 s) s)

/-- A macro's fault is recorded and waits for PARK (R460); its place is free. (DEDUCED, log 75) -/
def failMacro (kind unit : Nat) (s : State) : State := repair (unitEntry kind 0 3 unit (freshNat s % 2 ^ 32) s) (drawn1 s)

/-- A unit of a kind that no spare covers is lost. -/
def failLost (kind unit : Nat) (s : State) : State := if isLost s kind unit then s else unitLost kind 6 unit 0 s

/-- What a failing unit does, by KIND (R458, R459, R463, R464). -/
def unitFails (kind unit : Nat) (s : State) : State :=
  match kind with
  | 0x01 => if 16 ≤ unit then s else checkPair unit (failSpared 1 unit (dropPipe unit s))
  | 0x02 => if 16 ≤ unit then s else checkPair (16 + unit) (failSpared 2 unit (dropPipe (16 + unit) s))
  | 0x03 => if 256 ≤ unit then s else failSpared 3 unit (dropCore unit s)
  | 0x04 => unitLost 0x04 6 unit 0 (repair (unitEntry 0x04 3 3 unit 0 s) s)
  | 0x05 => failMacro 0x05 unit s
  | 0x06 => if unit % 65536 = 0xFFFF then failLost 0x06 unit s else failMacro 0x06 unit s
  | 0x07 => failEthLane 6 unit s
  | 0x08 =>
    let h : HostId := ⟨unit / 16 % 8, Nat.mod_lt _ (by decide)⟩
    match execHostLaneFaultInService h ⟨unit % 16, Nat.mod_lt _ (by decide)⟩ s with
    | .next t => t
    | _ => s
  | 0x09 =>
    match execDriveLaneFaultInService ⟨unit / 4 % 16, Nat.mod_lt _ (by decide)⟩ ⟨unit % 4, Nat.mod_lt _ (by decide)⟩ s with
    | .next t => t
    | _ => s
  | 0x0A => if unit < 12 then loseChannel unit s else s
  | 0x0B => s
  | 0x0D => if unit < 16 then excludeSensor 6 3 unit s else s
  | 0x11 => if unit < 16 then unitLost 0x11 6 unit 0 (surpriseRemoval unit true s) else s
  | 0x12 => if unit < 8 then detachHost ⟨unit % 8, Nat.mod_lt _ (by decide)⟩ .dlDown (unitLost 0x12 6 unit 0 s) else s
  | k => if k = 0 ∨ 0x13 < k then s else failLost k unit s

/-- UNIT_FAILURE_IN_SERVICE (R458). -/
def execUnitFailureInService (kind : Byte) (unit : BitVec 24) (s : State) : Host.Outcome State Fault Refusal :=
  .next (if !s.glb.fwRuns || isLost s kind.toNat unit.toNat || s.bist.swaps.contains (kind.toNat, unit.toNat) then s
    else unitFails kind.toNat unit.toNat s)

/-- A core's spare receives its cluster's images, and thread 0 starts as PROGRAM_START started it. (DEDUCED, log 73) -/
def refillCore (ck : Nat) (s : State) : State :=
  let c := cluster s (ck / 16)
  let s1 := dropBps ck (match c.image with
    | none => s
    | some i => fillMem (dataSpace ck) i.data (fillMem (instrSpace ck) i.instr s))
  match c.started with
  | none => s1
  | some (entry, arg) => startCore (c.program.getD 0) entry arg ck s1

/-- At a boundary, spares take the numbers of the units that failed (R458). (DEDUCED, log 81) -/
def swapSpares (s : State) : State :=
  s.bist.swaps.foldl (fun s w =>
    let s1 := count 0x0F 0 4 1 (repair (unitEntry w.1 1 3 w.2 spareUnit s) (assignSpare w.1 w.2 s))
    if w.1 = 3 then refillCore w.2 s1 else s1) (modBist (fun b => { b with swaps := [] }) s)

end Sys2Proof.Machine
end

