-- ==== Sys2Proof/Machine/Reset.lean ====
section
/-! DEFINITION. Reset.lean: power, the resets and the reference clocks (R10, R20, R27, R32, R33, R449, R487 to R489). -/

namespace Sys2Proof.Machine
open Sys2Proof

/-! Resets (R10, R27) -/

/-- A host link after a device reset: nothing but the level of its PERST_N input is left. -/
def hostAfterReset (l : HostLink) : HostLink := { HostLink.reset with perst := l.perst }

/-- The protected store and the fuses, what is counted since power-on, what the board and the package impose (clocks, regulators, alarm sources), and the model's own records survive; everything else is as after power-on (R10). (DEDUCED, log 37) -/
def resetTo (cause : Cause) (stage : BootStage) (seq : Word) (s : State) : State :=
  { State.reset with
    pending := s.pending
    out := s.out
    drawn := s.drawn
    now := s.now
    nv := s.nv
    glb := { Glb.reset with cause := cause, modeSeq := seq, stage := stage, straps := s.glb.straps }
    clk := { Clk.reset with holdoverCount := s.clk.holdoverCount, ethRef := s.clk.ethRef, hostRefs := s.clk.hostRefs }
    hosts := s.hosts.map hostAfterReset
    crypt := { Crypt.reset with present := s.crypt.present % 16 }
    bist := { Bist.reset with log := if cause = .parkDoneWarm then s.bist.log else [] }
    elec := { Elec.reset with
      readings := s.elec.readings, tj := s.elec.tj, tripped := s.elec.tripped && cause != .pinReset, tripRun := s.elec.tripRun
      vout := s.elec.vout, present := s.elec.present, linear := s.elec.linear, lostAt := s.elec.lostAt } }

/-- A reset into BOOT: the entry counts in GLB_MODE_SEQ (R33). (DEDUCED, log 36) -/
def deviceReset (cause : Cause) (s : State) : State :=
  resetTo cause (if cause = .pinReset then .inReset else .waitLock) (s.glb.modeSeq + 1) s

/-! Power (R27, R481) -/

/-- POWER_ON: every count since power-on starts over. -/
def execPowerOn (s : State) : Host.Outcome State Fault Refusal :=
  let s1 := resetTo .powerOn .inReset 0 s
  .next { s1 with
    clk := { s1.clk with holdoverCount := 0 }
    elec := { s1.elec with tripped := false, tripRun := 0 } }

/-- POWER_REMOVED: what was not in the protected store, the fuses or the flash is lost, undestaged cache data with it. -/
def execPowerRemoved (s : State) : Host.Outcome State Fault Refusal :=
  let s1 := resetTo .powerOn .inReset 0 s
  .next { s1 with
    glb := { s1.glb with powered := false }
    clk := { s1.clk with holdoverCount := 0 }
    elec := { s1.elec with tripped := false, tripRun := 0 } }

/-! DEV_RST_N (R488, R489) -/

/-- The pins DEV_RST_N drives low. (DESIGN CHOICE, log 83) -/
def resetPins (s : State) : State :=
  ["DDR_RESET_N", "XSPI_RESET_N", "DRV_PERST_N"].foldl (fun s n => emit (.pin n false) s) s

/-- A low pulse of 1 µs is taken, one below 100 ns is not, and one between may be. (DESIGN CHOICE, log 35) -/
def pulseTaken (ns : Nat) (s : State) : Bool := 1000 ≤ ns || (100 ≤ ns && freshNat s % 2 == 1)

/-- DEV_RST_N_ASSERT. -/
def execDevRstNAssert (pulseNs : Nat) (s : State) : Host.Outcome State Fault Refusal :=
  .next (if !s.glb.powered then s
    else if !pulseTaken pulseNs s then drawn1 s
    else
      let s1 := resetPins (deviceReset .pinReset (drawn1 s))
      if s.elec.tripped then emit (.pin "THERMTRIP_N" true) s1 else s1)

/-- DEV_RST_N_RELEASE: STRAP[3:0] are latched. -/
def execDevRstNRelease (straps : BitVec 4) (s : State) : Host.Outcome State Fault Refusal :=
  .next (if !s.glb.powered || s.glb.stage != .inReset then s
    else { s with glb := { s.glb with straps := straps, stage := .waitLock } })

/-! The core reference (R20) -/

/-- µs since a reference was lost, saturating. -/
def lostFor (s : State) (ref : Nat) : Nat := min 0xFFFFFFFF ((nowNs s - Tbl.getD s.elec.lostAt ref (nowNs s)) / 1000)

/-- CLOCK_STATE (R487): changes 1 LOST, 2 RETURNED, 3 HOLDOVER_ENTERED, 4 RELOCKED. -/
def raiseClock (ref change micros : Nat) (s : State) : State := raiseOwner 0x81 (source 0x0C ref) 0 [ref + change * 256, micros] s

/-- A reference is lost. -/
def refLost (ref : Nat) (s : State) : State :=
  raiseClock ref 1 0 (modElec (fun e => { e with lostAt := Tbl.put e.lostAt ref (nowNs s) }) s)

/-- A reference returns. -/
def refBack (ref : Nat) (s : State) : State :=
  raiseClock ref 2 (lostFor s ref) (modElec (fun e => { e with lostAt := Tbl.del e.lostAt ref }) s)

/-- ROOT_PLL_LOCK: the ROM may start. (DEDUCED, log 36) -/
def execRootPllLock (s : State) : Host.Outcome State Fault Refusal :=
  .next (if !s.glb.powered || s.clk.holdover then s
    else { s with
      clk := { s.clk with rootLock := true, refPresent := true }
      glb := { s.glb with stage := if s.glb.stage = .waitLock then .rom else s.glb.stage } })

/-- CORE_REF_LOST: a locked root PLL enters holdover. -/
def execCoreRefLost (s : State) : Host.Outcome State Fault Refusal :=
  .next (if !s.glb.powered || !s.clk.refPresent then s
    else
      let s1 := refLost 1 { s with clk := { s.clk with refPresent := false } }
      if !s.clk.rootLock then s1
      else raiseClock 1 3 0 { s1 with clk := { s1.clk with
        rootLock := false, holdover := true, holdoverCount := satAdd 0xFFFF s1.clk.holdoverCount 1 } })

/-- CORE_REF_RETURNED: the PLL relocks without a reset. -/
def execCoreRefReturned (s : State) : Host.Outcome State Fault Refusal :=
  .next (if !s.glb.powered || s.clk.refPresent then s
    else
      let s1 := refBack 1 { s with clk := { s.clk with refPresent := true } }
      if !s.clk.holdover then s1
      else raiseClock 1 4 (lostFor s 1) { s1 with clk := { s1.clk with rootLock := true, holdover := false, refReturned := true } })

/-- HOLDOVER_EXPIRY: the reset of R20. -/
def execHoldoverExpiry (s : State) : Host.Outcome State Fault Refusal :=
  .next (if s.glb.powered && s.clk.holdover then deviceReset .refLoss s else s)

/-! The other references (R487) -/

/-- ETH_REF_LOST: every port loses lock. -/
def execEthRefLost (s : State) : Host.Outcome State Fault Refusal :=
  .next (if !s.glb.powered || !s.clk.ethRef then s
    else (List.finRange 64).foldl (fun s l => loseAlignment l { signal := true, lanes := [] } s)
      (refLost 2 { s with clk := { s.clk with ethRef := false } }))

/-- ETH_REF_RETURNED: the ports align again from where R126 and R127 left them. -/
def execEthRefReturned (s : State) : Host.Outcome State Fault Refusal :=
  .next (if !s.glb.powered || s.clk.ethRef then s else refBack 2 { s with clk := { s.clk with ethRef := true } })

/-- HOST_REF_LOST: the link goes down and its host is detached. -/
def execHostRefLost (h : HostId) (s : State) : Host.Outcome State Fault Refusal :=
  .next (if !s.glb.powered || !s.clk.hostRefs[h] then s
    else
      let s1 := refLost (16 + h.val) { s with clk := { s.clk with hostRefs := vset s.clk.hostRefs h false } }
      detachHost h .dlDown s1)

/-- HOST_REF_RETURNED. -/
def execHostRefReturned (h : HostId) (s : State) : Host.Outcome State Fault Refusal :=
  .next (if !s.glb.powered || s.clk.hostRefs[h] then s
    else refBack (16 + h.val) { s with clk := { s.clk with hostRefs := vset s.clk.hostRefs h true } })

end Sys2Proof.Machine
end

