-- ==== Sys2Proof/Machine/Boot.lean ====
section
/-! DEFINITION. Boot.lean: the stages of BOOT, from the ROM to the first mode (R27, R30, R49, R72, R123, R157, R173, R188, R193, R202, R290, R341, R398, R402 to R406, R417 to R422, R427, R430, R431, R439, R451, R460, R464, R483). -/

namespace Sys2Proof.Machine
open Sys2Proof

/-- A stage of BOOT may run: the root PLL has locked since the reset (R20). -/
def bootRuns (s : State) (st : BootStage) : Bool := s.glb.powered && s.glb.mode == .boot && s.glb.stage == st && (s.clk.rootLock || s.clk.holdover)

/-- A transition into a mode; entry to MAINTENANCE or PARK stops every core program (R398). -/
def changeMode (m : Mode) (c : Cause) (s : State) : State :=
  let s1 := enterMode m c s
  match m with
  | .maintenance => stopClusters s1
  | .park => stopClusters s1
  | _ => s1

/-- Links that reached DL_Up in BOOT attach, those below the floor of lanes excepted (R114). -/
def attachWaiting (s : State) : State :=
  (List.finRange 8).foldl (fun s h => match (link s h).attachDue with
    | none => s
    | some t =>
      let s1 := modLink h (fun l => { l with attachDue := none }) s
      if isLost s1 0x12 h.val then modLink h (fun l => { l with state := 0, dlUp := false }) s1 else attachHost h t s1) s

/-! The ROM (R421, R422, R430, R431, R439, R483) -/

/-- The regulators are read, and VDD_CORE is set to 0.70 V (R483). (DESIGN CHOICE, log 13) -/
def bootRegulators (s : State) : State :=
  let e : Elec := { s.elec with
    present := Vector.ofFn fun i => Config.freeNat (s.drawn + i.val) % 2 == 1
    linear := Config.freeNat (s.drawn + 7) % 2 == 1, vout := 700, stuck := false, fastRun := 0 }
  emit (.pmbus 0x40 0x21 700) (drawnN 8 { s with elec := e })

/-- SEQUENCE of a slot's header. -/
def slotSequence (s : State) (slot : Nat) : Nat := hdr (slotHeader s slot) 8 8

/-- The reasons of both slots and the slot selected (R430). -/
def selectSlot (s : State) : Vector Nat 2 × Option Nat :=
  let a := slotReason s 0 false
  let b := slotReason s 1 false
  let first := if a = 0 ∧ (b ≠ 0 ∨ slotSequence s 1 ≤ slotSequence s 0) then 0 else 1
  let second := 1 - first
  if a ≠ 0 ∧ b ≠ 0 then (#v[a, b], none)
  else if slotReason s first true = 0 then (#v[a, b], some first)
  else
    let r : Vector Nat 2 := vset #v[a, b] (slotIx first) (slotReason s first true)
    if (if second = 0 then a else b) ≠ 0 then (r, none)
    else if slotReason s second true = 0 then (r, some second)
    else (vset r (slotIx second) (slotReason s second true), none)

/-- The ROM selects a slot, and starts its LOADER or serves recovery. (DEDUCED, log 38) -/
def romStage (s : State) : State :=
  let s1 := bootRegulators { s with nv := { s.nv with bootCount := s.nv.bootCount + 1 } }
  let (reasons, chosen) := selectSlot s1
  let tie := slotReason s1 0 false == 0 && slotReason s1 1 false == 0 && slotSequence s1 0 == slotSequence s1 1
  let s2 := modSec (fun x => { x with reasons := reasons, info := reasons, seqTie := tie }) s1
  match chosen with
  | none =>
    let s3 := modSec (fun x => { x with attempts := s2.nv.attempts, recovery := true }) s2
    attachWaiting (changeMode .maintenance .noValidImage { s3 with glb := { s3.glb with stage := .recovery } })
  | some n =>
    let h := slotHeader s2 n
    let s3 := modNv (fun v => { v with attempts := vmod v.attempts (slotIx n) fun k => min 3 (k + 1) }) s2
    let s4 := modSec (fun x => { x with
      slot := n, keyIndex := hdr h 0x14 4 % 4, version := hdr h 0x10 4, sequence := hdr h 8 8, attempts := s3.nv.attempts }) s3
    let loader := ((components h).find? fun c => c.type == 1).elim [] fun c => c.digest
    let s5 := extend 0 (Config.sha384 (fuseState s4)) (extend 0 (leBytes 48 Config.romVersion) s4)
    let s6 := extend 1 loader (extend 1 (Config.sha384 h) s5)
    { s6 with glb := { s6.glb with stage := .loader } }

/-- ROM_STAGE; BOOT does not leave for recovery during holdover (R20). -/
def execRomStage (s : State) : Host.Outcome State Fault Refusal :=
  .next (if !bootRuns s .rom || (s.clk.holdover && (selectSlot s).2.isNone) then s else romStage s)

/-! The loader: repairs (R418, R451, R459, R460) -/

/-- Kinds whose UNREPAIRABLE entry keeps the unit out of service. (DEDUCED, log 41) -/
def entryLoses (e : RepairEntry) : Bool :=
  e.state == 3 && ([0x01, 0x02, 0x03, 0x04, 0x07, 0x08, 0x09, 0x0D, 0x0F, 0x10, 0x11, 0x12, 0x13].contains e.kind || (e.kind == 0x06 && e.unit % 65536 == 0xFFFF))

/-- An entry of the repair record takes hold at BOOT. (DEDUCED, log 41) -/
def applyEntry (e : RepairEntry) (s : State) : State :=
  let reason := if e.found = 3 then 6 else if e.kind = 0x0D then 4 else 1
  if (e.state = 1 ∨ e.state = 2) ∧ 1 ≤ e.kind ∧ e.kind ≤ 3 then assignSpare e.kind e.unit s
  else if !entryLoses e || isLost s e.kind e.unit then s
  else match e.kind with
    | 0x07 => failEthLane reason e.unit s
    | 0x08 => failHostLane reason (e.unit / 16) (e.unit % 16) s
    | 0x09 => failDriveLane reason (e.unit / 4) (e.unit % 4) s
    | k => unitLost k reason e.unit 0 s

/-- The repair record and the fault log of the last PARK are applied; entries of RDIMMs no longer present are dropped. (DEDUCED, log 41) -/
def applyRepairs (serials : List Nat) (s : State) : State :=
  let s1 := modNv (fun v => { v with repairs := v.repairs.filter fun e => e.kind != 0x0B || serials.contains e.serial }) s
  applyFaults 4 s1.bist.log (s1.nv.repairs.foldl (fun s e => applyEntry e s) s1)

/-! The loader: DRAM (R402 to R406, R417 to R419) -/

/-- Rows of a channel's RDIMM in the repair record: repaired, or unrepairable. -/
def knownRows (s : State) (ch serial : Nat) : Tbl RowState :=
  s.nv.repairs.foldl (fun t e =>
    if e.kind = 0x0B ∧ e.unit = ch ∧ e.serial = serial ∧ e.state ≠ 0 then Tbl.put t e.location ⟨[], false, if e.state = 3 then 3 else 2⟩ else t) []

/-- One channel after training: quick or full, lost where it has no RDIMM R401 covers, fails, or holds too many unrepairable rows. (DEDUCED, log 40) -/
def trainChannel (speed : Nat) (warm : Bool) (ch : Fin 12) (d : Option DimmFound) (s : State) : State :=
  match d with
  | none => unitLost 0x0A 5 ch.val 0 s
  | some d =>
    let rows := knownRows s ch.val d.serial.toNat
    let matches_ := s.nv.training[ch] == some (d.serial.toNat, speed)
    let quick := matches_ && (warm || d.checkOk)
    let good := d.supported && !isLost s 0x0A ch.val && (quick || d.trainOk) && Tbl.countIf rows (fun _ x => x.state == 3) ≤ 64
    let s1 := modChan ch.val (fun _ => { DramChan.reset with
      state := if good then 2 else 5, serial := d.serial.toNat, installed := d.capacity, trfc := if d.dense then 410 else 295, rows := rows, full := !quick }) s
    if !good then (if isLost s1 0x0A ch.val then s1 else unitLost 0x0A 5 ch.val 0 s1)
    else if quick then s1 else modNv (fun v => { v with training := vset v.training ch (some (d.serial.toNat, speed)) }) s1

/-- The smallest value of a list; 0 of none. -/
def least : List Nat → Nat
  | [] => 0
  | [a] => a
  | a :: r => min a (least r)

/-- Every channel is trained, the interleave is formed, and DRAM holds nothing. (DEDUCED, log 40) -/
def trainDram (found : BootFindings) (s : State) : State :=
  let fits := found.dimms.toList.filterMap fun d => d.filter (·.supported)
  let speed := least (fits.map fun d => d.maxSpeed.val)
  let warm := s.glb.cause == .parkDoneWarm
  let s1 := (List.finRange 12).foldl (fun s ch => trainChannel speed warm ch found.dimms[ch] s) s
  let order := (upFrom 0 12).filter fun ch => (dramChan s1 ch).state == 2
  let s2 := modDram (fun d => { d with
    order := order, ikey := freshNat s1 % 2 ^ 64, speed := speed, perChannel := least (order.map fun ch => (dramChan s1 ch).installed)
    quick := order.all (fun ch => !(dramChan s1 ch).full), mem := [] }) s1
  drawn1 s2

/-- The stored carve, or the default, shrunk to the capacity in service (R403, R405). (DEDUCED, log 40) -/
def applyCarve (s : State) : State :=
  let want := s.nv.carve.getD Carve.reset
  let room := (dramBytes s - fixedAreas) / gib
  let cache := max 1 (min want.cache (room - want.program))
  let prog := max 1 (min want.program (room - cache))
  let s1 : State := { s with carve := ⟨cache, prog⟩ }
  if cache = want.cache ∧ prog = want.program then s1 else unitLost 0x15 8 0 (cache + prog * 65536) s1

/-- The digest of the only component of a type in the running image. -/
def componentOf (s : State) (type : Nat) : Option Component := (components (runningHeader s)).find? fun c => c.type == type

/-- The loaded bytes of a component have its digest (R421). -/
def loadedOk (s : State) (c : Component) : Bool := Config.sha384 (imgBytes s.nv.flash (slotBase s.sec.slot) c.offset c.size) == c.digest

/-- LOADER_STAGE: a mismatch ends BOOT with a reset into BOOT. (DEDUCED, log 39) -/
def execLoaderStage (found : BootFindings) (s : State) : Host.Outcome State Fault Refusal :=
  let serials := found.dimms.toList.filterMap fun d => d.map fun x => x.serial.toNat
  .next (if !bootRuns s .loader then s
    else match componentOf s 2 with
      | none => deviceReset s.glb.cause s
      | some c =>
        if !loadedOk s c then deviceReset s.glb.cause s
        else
          let s1 := applyCarve (trainDram found (applyRepairs serials (extend 2 c.digest s)))
          { s1 with glb := { s1.glb with stage := .mgmtFw } })

/-! Management firmware -/

/-- MR3: the digests of PARSE_GRAPH, CLASSIFIER, HOD_CARVE and START_LIST in table order (R422). -/
def extendComponents (s : State) : State :=
  ((components (runningHeader s)).filter fun c => 4 ≤ c.type && c.type ≤ 7).foldl (fun s c => extend 3 c.digest s) s

/-- The bytes of the only component of a type. -/
def bytesOf (s : State) (type : Nat) : Option (List Byte) :=
  (componentOf s type).map fun c => imgBytes s.nv.flash (slotBase s.sec.slot) c.offset c.size

/-- Both banks of PARSE and CLASS, the hod carve, and every random seed (R157, R173, R188, R193, R202, R290). (DESIGN CHOICE, log 54) -/
def loadTables (s : State) : State :=
  let graph := ((bytesOf s 4).map Config.parseComponent).getD defaultGraph
  let profiles := ((bytesOf s 5).map Config.classComponent).getD defaultProfiles
  let carve := ((bytesOf s 6).map Config.carveComponent).getD []
  let counts : Vector Nat 6 := Vector.ofFn fun i => carve.getD i.val (Hods.defaultCounts[i])
  let rx := carve.getD 6 Hods.reset.rxPool
  let seed (i : Nat) : Nat := Config.freeNat (s.drawn + i) % 2 ^ 64
  drawnN 94 { s with
    parse := { s.parse with banks := ⟨graph, graph, graph⟩ }
    cls := { s.cls with banks := ⟨profiles, profiles, profiles⟩ }
    hod := { s.hod with cfg := counts, counts := counts, rxCfg := rx, rxPool := rx }
    tables := { s.tables with
      em := { s.tables.em with seedA := seed 0 }
      lpm4 := { s.tables.lpm4 with seed1 := seed 1, seed2 := seed 2 }
      lpm6 := { s.tables.lpm6 with seed1 := seed 3, seed2 := seed 4 } }
    ctx := { s.ctx with pathSeed := seed 5 }
    net := { s.net with keys := Vector.ofFn fun i => seed (6 + i.val) % 2 ^ 32 } }

/-- The key store is restored, and a source that holds it back is reported (R341). -/
def loadKeys (s : State) : State :=
  match (upFrom 1 4).find? fun c => bitAt s.crypt.present (c - 1) with
  | none => bootKeys s
  | some c => reportAlarm c 0 (bootKeys s)

/-- A namespace's interrupted SANITIZE is finished: its key is replaced (R80). (DEDUCED, log 43) -/
def finishSanitizes (s : State) : State :=
  s.nv.sanitizes.foldl (fun s r =>
    if r.drive then s
    else modNv (fun v => { v with sanitizes := v.sanitizes.filter fun x => x != r }) (match r.slot with
      | none => s
      | some n => regenerate n s)) s

/-- Each entry the loader made is reported (R464). (DEDUCED, log 41) -/
def reportEntries (s : State) : State :=
  (upFrom 0 s.degr.entries.length).foldl (fun s i => match s.degr.entries[i]? with
    | none => s
    | some e => raiseOwner 0x11 (source e.kind e.unit) 0 [1, e.kind + e.reason * 256, e.unit, i + 1] s) s

/-- The layouts of the groups with a pipeline of each direction (R31, R123). (DEDUCED, log 42) -/
def applyLayouts (s : State) : State :=
  (List.finRange 8).foldl (fun s g =>
    if (carrier s (2 * g.val)).isSome && (carrier s (16 + 2 * g.val)).isSome then applyRecord g s else s) s

/-- PROGRAM_LOAD, CHANNEL_GRANT and PROGRAM_START of one record of START_LIST, or its skip (R395 to R397, R427). (DEDUCED, log 42) -/
def startRecord (i : Nat) (r : List Byte) (s : State) : State :=
  let k := hdr r 0 1
  let program := hdr r 2 1 % 16
  let mask := hdr r 4 2
  let ports := hdr r 7 1 % 64
  let sources := sourcesOf (slice r 0x18 32)
  let cs := maskClusters mask
  let bad := cs.any (fun c => clusterLive s c.val) || sourceHeld s program sources || 0x10000 ≤ hdr r 8 8
  match programOfComponent s k, bad with
  | some img, false =>
    let s1 := cs.foldl (fun s c => loadCluster program img c s) (extend 4 (loadDigest s k program mask) s)
    cs.foldl (fun s c => startCluster (hdr r 8 8) (hdr r 0x10 8) c s) (grant program ports sources s1)
  | _, _ => unitLost 0x14 7 i 0 s

/-- START_LIST (R427). -/
def startPrograms (s : State) : State :=
  match bytesOf s 7 with
  | none => s
  | some b => (upFrom 0 (min 16 (b.length / 64))).foldl (fun s i => startRecord i (slice b (64 * i) 64) s) s

/-- MGMT_FW_STAGE: MODE_CHANGE is the owner's first event (R33). (DEDUCED, log 39) -/
def execMgmtFwStage (s : State) : Host.Outcome State Fault Refusal :=
  .next (if !bootRuns s .mgmtFw then s
    else if ((components (runningHeader s)).filter fun c => 4 ≤ c.type).any fun c => !loadedOk s c then deviceReset s.glb.cause s
    else
      let s1 := raiseModeChange 0 { s with glb := { s.glb with fwRuns := true, stage := .finished } }
      startPrograms (applyLayouts (finishSanitizes (loadKeys (loadTables (extendComponents (reportEntries s1)))))))

/-! The end of BOOT (R27, R30, R431) -/

/-- The mode BOOT leaves for, and its cause. (DEDUCED, log 39) -/
def bootTarget (s : State) : Mode × Cause :=
  if belowFloor s then (.maintenance, .belowFloor)
  else if s.nv.maintFlag then (.maintenance, .maintFlag)
  else if s.degr.entries.any (fun e => !recordedOnly e.kind) then (.degraded, .bootDone)
  else (.service, .bootDone)

/-- BOOT_DONE: never while the root PLL is in holdover. (DEDUCED, log 3, 39) -/
def execBootDone (s : State) : Host.Outcome State Fault Refusal :=
  .next (if !bootRuns s .finished || s.clk.holdover then s
    else
      let s1 := modNv (fun v => { v with attempts := vset v.attempts (slotIx s.sec.slot) 0 }) { s with glb := { s.glb with stage := .left } }
      attachWaiting (changeMode (bootTarget s).1 (bootTarget s).2 s1))

end Sys2Proof.Machine
end

