-- ==== Sys2Proof/Machine/Park.lean ====
section
/-! DEFINITION. Park.lean: entry to PARK and its phases (R28, R49, R80, R115, R129, R436, R448 to R456, R464, R485). -/

namespace Sys2Proof.Machine
open Sys2Proof

/-! Entry -/

/-- A FUSE_PROGRAM runs: PARK begins after it ends (R80, R449). -/
def fuseRuns (s : State) : Bool :=
  s.ops.any fun o => match o.kind with
    | .fuseProgram _ => true
    | _ => false

/-- PARK is entered: the mode changes, and the phases are counted from here. -/
def startPark (d : ParkDue) (s : State) : State :=
  let s1 := changeMode .park (if d.needed then .parkForced else .ownerCommand) s
  modBist (fun b => { b with
    phase := 1, powerOff := d.powerOff, force := d.force, enteredAt := nowNs s, entered := false, found := [], failed := 0, notRun := 0, bytesLost := 0, namespaces := 0 })
    { s1 with glb := { s1.glb with parkDue := none } }

/-- Every armed and pending recoat is cleared: no unit recoats in PARK (R49). -/
def clearArms (s : State) : State :=
  let s1 := (List.finRange 32).foldl (fun s i =>
    modUnit i (fun u => if unitArmed u then { u with phase := .idle, target := none, handle := none, held := [] } else u) s) s
  (opsOf s1 .owner).foldl (fun s o => match o.kind with
    | .recoatArm _ => if armHolds o.handle s then s else opDone o .modeWrong [] s
    | _ => s) s1

/-- What FORCE does to an operation: cancellable ones end, a SANITIZE is recorded, an install leaves its slot invalid (R80). (DEDUCED, log 68) -/
def forceOp (o : LongOp) (s : State) : State :=
  match o.kind with
  | .sanitize drive object method =>
    let r : SanitizeRec := { drive := drive, object := object, method := method, slot := if drive then none else (nspace s object).bind fun x => x.key }
    dropOp o.handle (modNv (fun v => { v with sanitizes := if v.sanitizes.contains r then v.sanitizes else v.sanitizes ++ [r] }) s)
  | .imageInstall slot _ => if o.committed then dropOp o.handle (spoilSlot slot s) else opDone o .cancelled [] s
  | .fuseProgram _ => s
  | _ => cancelOp o s

/-- Bytes of the write cache that are not destaged, and the namespaces they belong to (R28). (DEDUCED, log 68) -/
def undestaged (s : State) : Nat × Nat :=
  let gs := s.nvme.segs.filter fun g => !g.blocks.isEmpty
  (gs.foldl (fun n g => n + g.blocks.length * ((nspace s g.ns).elim 0 fun x => x.block)) 0, (gs.map fun g => g.ns).eraseDups.length)

/-- The undestaged data is discarded and accounted for. -/
def discardCache (s : State) : State :=
  modNvme (fun n => { n with segs := [] }) (modBist (fun b => { b with bytesLost := (undestaged s).1, namespaces := (undestaged s).2 }) s)

/-- The entry actions of P0 (R448). (DEDUCED, log 68) -/
def parkActions (force : Bool) (s : State) : State :=
  let s1 := (List.finRange 8).foldl (fun s h => detachHost h .park s) s
  let s1 := clearArms s1
  let s2 := if force then s1.ops.foldl (fun s o => forceOp o s) s1 else s1
  let s3 := (List.finRange 64).foldl (fun s l => disablePort 13 l s) s2
  let s4 := (upFrom 0 16).foldl (fun s d => if (drive s d).state = 0 then s else raiseDriveState d (drive s d).state (drive s d).state 12 s) s3
  let s5 := discardCache (closeIntake (endSession s4))
  modBist (fun b => { b with entered := true }) (modSec (fun x => { x with stage := [], stageSlot := none }) s5)

/-- PARK_ENTRY: from MAINTENANCE the mode changes here; from QUIESCE it changed at the boundary. -/
def execParkEntry (s : State) : Host.Outcome State Fault Refusal :=
  .next (match s.glb.mode, s.glb.parkDue with
    | .maintenance, some d => if fuseRuns s then s else parkActions d.force (startPark d s)
    | .park, _ => if s.bist.phase = 1 ∧ !s.bist.entered then parkActions s.bist.force s else s
    | _, _ => s)

/-! The phases -/

/-- The tests of a phase, numbered as BIST_PARK_STATUS.PHASE. -/
def phaseTests (phase : Nat) : Nat :=
  match phase with
  | 3 => 0x003F
  | 4 => 0x0840
  | 5 => 0x3380
  | 6 => 0x0400
  | _ => 0

/-- Faults that the fault log of the dust sheet keeps: those of units that no entry of the repair record stands for. -/
def loggedFault (f : TestFault) : Bool := [0x07, 0x08, 0x09, 0x0A, 0x0C, 0x0E].contains f.kind.toNat

/-- A loss beyond spares among the faults found so far sets DEGRADED_PENDING at once (R32, R449). -/
def notePending (s : State) : State :=
  { s with glb := { s.glb with degradedPending := s.glb.degradedPending || (applyFaults 1 s.bist.found s).glb.degradedPending } }

/-- The end of a phase that tests: what its planned tests found, or that they did not finish. -/
def phaseFinds (r : ParkFindings) (s : State) : State :=
  let ran := phaseTests s.bist.phase &&& s.nv.planTests
  let stopped := ran &&& r.notRun.toNat
  let found := r.faults.filter fun f => bitAt ran f.test.val && !bitAt stopped f.test.val
  notePending (modBist (fun b => { b with
    found := b.found ++ found, failed := b.failed ||| failedTests found, notRun := b.notRun ||| stopped }) s)

/-- A planned test ran to its end. -/
def testRan (s : State) (test : Nat) : Bool := bitAt s.nv.planTests test && !bitAt s.bist.notRun test

/-- The slice of this PARK in GiB, and where the next one starts: the march wraps at the top of DPA space (R455). (DEDUCED, log 75) -/
def sliceSize (s : State) : Nat := if s.bist.powerOff then s.nv.sliceOff else s.nv.sliceWarm

/-- What the marches destroy: the key store, and the DRAM slice outside the dust sheet. -/
def marchEffects (s : State) : State :=
  if s.bist.phase = 5 ∧ testRan s 9 then modCrypt (fun c => { c with slots := [] }) s
  else if s.bist.phase = 4 ∧ bitAt s.nv.planTests 11 then
    let top := dramBytes s / gib - 1
    let gs := (upFrom s.nv.sliceAt (min top (sliceSize s))).map fun g => 1 + g % top
    gs.foldl (fun s g => modDram (fun d => { d with mem := Mem.erase d.mem (g * gib) gib }) s) s
  else s

/-- P6: repairs are applied and recorded, and the summary raised. (DEDUCED, log 75) -/
def recordPark (s : State) : State :=
  let b := s.bist
  let before := s.nv.repairs.length
  let s1 := applyFaults 1 b.found s
  let top := dramBytes s / gib - 1
  let info : ParkInfo := {
    duration := (nowNs s - b.enteredAt) / 1000000, powerOff := b.powerOff, forced := s.glb.cause == .parkForced
    failed := b.failed, notRun := b.notRun, bytesLost := b.bytesLost, namespaces := b.namespaces }
  let s2 := modNv (fun v => { v with
    park := info, sliceAt := if testRan s 11 ∧ top ≠ 0 then (v.sliceAt + sliceSize s) % top else v.sliceAt }) s1
  let s3 := modBist (fun x => { x with newEntries := min 255 (s2.nv.repairs.length - before), log := b.found.filter loggedFault, found := [] }) s2
  let s4 := count 0x0F 0 1 (bitCount 14 b.failed) (count 0x0F 0 0 1 s3)
  raiseOwner 0x11 0 0 [2, 0, 0, s4.degr.entries.length] s4

/-- P7 of a power-off: one Group Command turns the regulators off (R485). (PRESUMED, log 79) -/
def groupOff (s : State) : State :=
  (List.finRange 7).foldl (fun s i => if s.elec.present[i] then emit (.pmbus (0x40 + i.val) 0x01 0x40) s else s) s

/-- PARK_PHASE_END. -/
def execParkPhaseEnd (found : ParkFindings) (s : State) : Host.Outcome State Fault Refusal :=
  let next (s : State) : State := modBist (fun b => { b with phase := b.phase + 1 }) s
  .next (if s.glb.mode ≠ .park ∨ !s.bist.entered then s
    else match s.bist.phase with
      | 1 => next s
      | 2 => next s
      | 7 => next (recordPark s)
      | 8 => if s.bist.powerOff then next (groupOff s) else deviceReset .parkDoneWarm s
      | 9 => s
      | _ => next (phaseFinds found (marchEffects s)))

end Sys2Proof.Machine
end

