-- ==== Sys2Proof/Machine/Flags.lean ====
section
/-! DEFINITION. Flags.lean: the status registers of the device: the words that GLB, CLK, SEC, DRAMC, BIST and DBG show of the state (chapters 1, 15 to 19). -/

namespace Sys2Proof.Machine
open Sys2Proof

/-- GLB_MODE (R33). -/
def glbModeWord (s : State) : Nat :=
  s.glb.mode.code + b2n s.glb.degradedPending * 16 + (s.glb.prev.elim 0 Mode.code) * 256 + s.glb.cause.code * 2 ^ 24

/-- CLK_STATUS (R20). (DEDUCED, log 36) -/
def clkStatusWord (s : State) : Nat :=
  b2n s.clk.rootLock + b2n s.clk.refPresent * 2 + b2n s.clk.holdover * 4 + b2n s.clk.refReturned * 8 + s.clk.holdoverCount * 65536

/-- The references are measured against the root PLL: nothing is known of them before it has locked (R454). (DESIGN CHOICE, log 13) -/
def refsKnown (s : State) : Bool := s.glb.stage != .inReset && s.glb.stage != .waitLock

/-- CLK_REF_STATUS (R487). -/
def clkRefWord (s : State) : Nat :=
  if !refsKnown s then 0
  else b2n s.clk.ethRef + (List.finRange 8).foldl (fun n h => n + b2n s.clk.hostRefs[h] * 2 ^ (8 + h.val)) 0

/-- A temperature in 0.25 °C units as 16 bits, two's complement. -/
def temp16 (t : Int) : Nat := (t % 65536).toNat

/-- GLB_TEMP of a sensor (R494). -/
def glbTempWord (s : State) (n : Nat) : Nat := temp16 (reading s n) + b2n (excluded s n) * 2 ^ 31

/-- GLB_THERMAL (R494). -/
def glbThermalWord (s : State) : Nat :=
  temp16 s.elec.tj + b2n s.elec.warning * 2 ^ 16 + b2n s.elec.tripped * 2 ^ 17 + bitsAt (Tbl.getD s.regs 0x140 0x91000000).toNat 24 8 * 2 ^ 24

/-- GLB_AVS (R484, R494). -/
def glbAvsWord (s : State) : Nat :=
  s.elec.vout % 1024 + b2n (avsHeld s) * 2 ^ 30 + b2n (bitAt (Tbl.getD s.regs 0x150 0).toNat 31) * 2 ^ 31

/-- GLB_GPIO_DATA: the inputs are sampled now (R492). -/
def gpioWord (s : State) : Nat := (Tbl.getD s.regs 0x170 0).toNat % 256 + freshNat s % 256 * 256

/-- SEC_BOOT_STATUS (R430). (DEDUCED, log 45) -/
def bootStatusWord (s : State) : Nat :=
  let x := s.sec
  x.slot % 2 + x.keyIndex % 4 * 4 + b2n x.recovery * 16 + b2n x.seqTie * 256 + x.attempts[0] % 16 * 2 ^ 16 + x.attempts[1] % 16 * 2 ^ 20
    + x.reasons[0] % 16 * 2 ^ 24 + x.reasons[1] % 16 * 2 ^ 28

/-- DRAMC_CH_STATUS (R402, R409, R417). -/
def chStatusWord (s : State) (ch : Nat) : Nat :=
  let c := dramChan s ch
  (c.temp % 256).toNat + b2n c.hot * 256 + (if c.state = 2 then s.dram.speed % 16 * 4096 else 0)
    + (if chanServes c then s.dram.perChannel % 256 * 65536 else 0) + c.state % 16 * 2 ^ 28

/-- DRAMC_IMBALANCE (R407). -/
def imbalanceWord (s : State) : Nat :=
  s.dram.threshold % 1024 + s.dram.maxShare % 2048 * 1024 + s.dram.maxCh % 16 * 2 ^ 24 + b2n s.dram.alert * 2 ^ 31

/-- The refresh window in force: the largest of the channels in service (R408). -/
def trfcNow (s : State) : Nat := s.dram.chans.toList.foldl (fun m c => if chanServes c then max m c.trfc else m) 0

/-- DRAMC_REFRESH (R408, R409). -/
def dramRefreshWord (s : State) : Nat := b2n s.dram.hotMode + trfcNow s % 512 * 65536

/-- DRAMC_TRAIN (R419). -/
def dramTrainWord (s : State) : Nat := b2n s.dram.quick + (upFrom 0 12).foldl (fun n ch => n + b2n (dramChan s ch).full * 2 ^ (8 + ch)) 0

/-- BIST_PARK_STATUS (R448, R485). -/
def parkStatusWord (s : State) : Nat := min s.bist.phase 8 + b2n s.bist.powerOff * 65536 + s.bist.newEntries % 256 * 2 ^ 24

/-- Seconds left of a session: 0 once it is over (R474). -/
def secondsLeft (s : State) : Nat := s.klb.session.elim 0 fun x => ceilDiv (x.endsAt - dtimeNs s) 1000000000

/-- DBG_SESSION (R473, R474). -/
def dbgSessionWord (s : State) : Nat :=
  match s.klb.session with
  | none => 0
  | some x => x.grant % 8 + 8 + x.keyIndex % 4 * 16 + b2n s.cores.bpOn * 65536 + secondsLeft s % 32768 * 2 ^ 17

end Sys2Proof.Machine
end

