-- ==== Sys2Proof/Machine/Regs.lean ====
section
/-! DEFINITION. Regs.lean: reads and writes of the internal control space (R7 to R9), block by block. -/

namespace Sys2Proof.Machine
open Sys2Proof

/-! What each block's registers read -/

/-- HLINK_LINK_STATUS (R115). -/
def hlinkStatusWord (s : State) (h : HostId) : Nat :=
  let x := link s h
  x.recoveryCount % 256 * 2 ^ 24 + x.width % 32 * 65536 + x.speed % 16 * 256 + x.state % 16 * 16
    + b2n x.retraining * 8 + b2n x.flit * 4 + b2n x.perst * 2 + b2n x.dlUp

/-- HLINK_TAGS (R103, R105). -/
def hlinkTagsWord (s : State) (h : HostId) : Nat :=
  let rs := (link s h).reads
  (rs.filter fun r => r.quarantined).length % 65536 * 65536 + (rs.filter fun r => !r.quarantined).length % 65536

/-- HLINK_CPL_COUNTS (R106). -/
def hlinkCplWord (s : State) (h : HostId) : Nat := (link s h).unexpectedCpl % 65536 * 65536 + (link s h).cplTimeouts % 65536

/-- GLB_RECOAT or GLB_RECOAT_GRACE: one bit for each unit. -/
def unitsWord (p : UnitState → Bool) (s : State) : Nat :=
  (List.finRange 32).foldl (fun n i => n + b2n (validUnit i && p (unitAt s i)) * 2 ^ i.val) 0

/-- The GLB block. -/
def glbReg (s : State) (o : Nat) : Nat :=
  if o = 0x10 then glbModeWord s
  else if o = 0x14 then s.glb.modeSeq.toNat
  else if o = 0x28 then s.epochs.len % 2 ^ 17
  else if o = 0x2C then unitsWord unitArmed s
  else if o = 0x30 then unitsWord unitInGrace s
  else if 0x100 ≤ o ∧ o < 0x140 then glbTempWord s ((o - 0x100) / 4)
  else if o = 0x140 then glbThermalWord s
  else if o = 0x150 then glbAvsWord s
  else if o = 0x160 then s.glb.straps.toNat
  else if o = 0x170 then gpioWord s
  else if o = 0x174 then (Tbl.getD s.regs 0x174 0).toNat % 256
  else 0

/-- The HLINK block of a link. -/
def hlinkReg (s : State) (h : HostId) (o : Nat) : Nat :=
  if o = 0 then hlinkStatusWord s h else if o = 0x10 then hlinkTagsWord s h else if o = 0x14 then hlinkCplWord s h else 0

/-- ETH_PORT_STATUS (R124 to R128). -/
def ethStatusWord (s : State) (l : Lane) : Nat :=
  let p := portOf s l
  if p.width = 0 then 0
  else p.linkUps % 256 * 2 ^ 24 + p.width % 16 * 65536 + b2n p.partnerValid * 128 + p.state.code

/-- ETH_GROUP_CTRL (R121, R122, R130). -/
def ethGroupWord (s : State) (g : Group) : Nat :=
  let x := s.eth.groups[g]
  x.laneFault % 256 * 65536 + b2n x.badLayout * 512 + b2n x.busy * 256

/-- A group by number. -/
def groupIx (n : Nat) : Group := ⟨n % 8, Nat.mod_lt _ (by decide)⟩

/-- The ETH block. -/
def ethReg (s : State) (o : Nat) : Nat :=
  if o < 0x1000 then
    let l := laneIx (o / 0x40)
    if o % 0x40 = 0 then (s.eth.cfg[l]).toNat
    else if o % 0x40 = 4 then ethStatusWord s l
    else if o % 0x40 = 8 then (s.eth.ptpRx[l]).toNat
    else if o % 0x40 = 0xC then (s.eth.ptpTx[l]).toNat
    else 0
  else if o < 0x1080 ∧ o % 0x10 = 0 then ethGroupWord s (groupIx ((o - 0x1000) / 0x10))
  else if o = 0x200C then s.eth.rate.toNat
  else if o = 0x2010 then s.eth.holdoff % 65536
  else 0

/-- The staged registers of PARSE in one bank (R44, R158). -/
def parseBankReg (b : ParseBank) (o : Nat) : Nat :=
  if o = 0x100 then b.actions[0] &&& 0xFFFC
  else if o = 0x104 then b.actions[1] &&& 0xFFFC
  else if 0x200 ≤ o ∧ o < 0x280 then b.policers[(⟨(o - 0x200) / 4 % 32, Nat.mod_lt _ (by decide)⟩ : Fin 32)] &&& 0xFFF9FFFF
  else if 0x10000 ≤ o ∧ o < 0x30000 then nodeWord (Tbl.getD b.nodes ((o - 0x10000) / 256) []) (o / 4 % 64)
  else 0

/-- The PARSE block. -/
def parseReg (s : State) (o : Nat) : Nat :=
  if o = 0 then b2n s.parse.topBank * 3
  else if o = 0x300 then b2n s.parse.mirrorEn * 2 ^ 31 + s.parse.mirrorPort % 64
  else if 0x400 ≤ o ∧ o < 0x600 then
    let g := (o - 0x400) / 0x40
    let k := (o - 0x400) % 0x40 / 4
    if k < 4 then s.net.ranges[(⟨(4 * g + k) % 32, Nat.mod_lt _ (by decide)⟩ : Fin 32)]
    else if k < 15 then s.net.keys[(⟨(11 * g + (k - 4)) % 88, Nat.mod_lt _ (by decide)⟩ : Fin 88)]
    else 0
  else if 0x80000 ≤ o then parseBankReg s.parse.banks.top (o - 0x80000)
  else parseBankReg s.parse.banks.under o

/-- The TBL block. -/
def tblReg (s : State) (o : Nat) : Nat :=
  let t := s.tables
  if o = 0 then emStatusWord t.em
  else if o = 4 then emOverflowWord t.em
  else if o = 8 then t.em.stranded
  else if o = 0x100 then lpmDefaultWord t.lpm4
  else if o = 0x104 then lpmDefaultWord t.lpm6
  else if o = 0x110 then lpmStatusWord t.lpm4
  else if o = 0x114 then lpmStatusWord t.lpm6
  else if o = 0x120 then lpm6SetsWord t.lpm6
  else 0

/-- The HOD block. -/
def hodReg (s : State) (o : Nat) : Nat :=
  if o < 0x18 then s.hod.cfg[(⟨o / 4 % 6, Nat.mod_lt _ (by decide)⟩ : Fin 6)]
  else if 0x20 ≤ o ∧ o < 0x38 then poolBase s.hod.counts ((o - 0x20) / 4) / 65536 * 2 ^ 20 + freeIn s ((o - 0x20) / 4) % 2 ^ 20
  else if o = 0x40 then b2n s.hod.badCarve * 512 + b2n s.hod.busy * 256
  else if o = 0x44 then s.hod.rxCfg
  else if o = 0x48 then s.hod.forwardLimit
  else if o = 0x4C then s.hod.coreLimit
  else if o = 0x50 then heldBack s % 2 ^ 20
  else 0

/-- Nodes parked on one wheel (R228). -/
def wheelWord (s : State) (coarse : Bool) : Nat := (s.sched.parked.filter fun e => e.coarse == coarse).length

/-- The CTX block. -/
def ctxReg (s : State) (o : Nat) : Nat :=
  let sum (f : Nat → Nat) : Nat := (upFrom 0 9).foldl (fun n d => n + f d) 0
  if o = 0 then sum (residentOf s)
  else if o = 4 then sum (pinnedOf s)
  else if o = 8 then sum (fetchesOf s) * 65536 + cloakAll s
  else if 0x10 ≤ o ∧ o < 0x34 then fetchesOf s ((o - 0x10) / 4) * 65536 + cloakOf s ((o - 0x10) / 4)
  else if o = 0x40 then dramHomes s
  else 0

/-- NVME_DRIVE_STATUS (R320). -/
def driveStatusWord (s : State) (d : Nat) : Nat :=
  let v := drive s d
  v.speed % 16 * 2 ^ 20 + v.width % 16 * 65536 + v.state % 16 * 256 + b2n v.button * 4 + b2n v.linkUp * 2 + b2n v.present

/-- The NVME block. -/
def nvmeBlockReg (s : State) (o : Nat) : Nat :=
  let idle (g : Segment) : Bool := g.held || g.failed
  if o = 0 then cacheSegments s
  else if o = 4 then (s.nvme.segs.filter fun g => !g.blocks.isEmpty || idle g).length
  else if o = 8 then (s.nvme.segs.filter idle).length
  else if 0x100 ≤ o ∧ o < 0x140 then driveStatusWord s ((o - 0x100) / 4)
  else 0

/-- The CRYPT block. -/
def cryptReg (s : State) (o : Nat) : Nat :=
  if o = 0 then persistent s * 2 ^ 18 + s.crypt.slots.length
  else if o = 4 then s.crypt.pages.length
  else if o = 0x10 then b2n s.crypt.suspend
  else if o = 0x14 then (List.finRange 4).foldl (fun n t => n + b2n (s.crypt.tiles[t]).suspended.isSome * 2 ^ t.val) 0
  else 0

/-- CORE_WDOG (R393). -/
def wdogWord (s : State) (ck : Nat) : Nat :=
  let c := coreOf s ck
  c.wdogAction % 4 * 2 ^ 30 + b2n c.wdogExpired * 2 ^ 29 + c.wdogTimeout % 2 ^ 22

/-- The CORE block. -/
def coreReg (s : State) (o : Nat) : Nat :=
  let cl := o / 65536
  let k := o % 65536
  let ck := 16 * cl + (k - 0x100) / 16
  if 16 ≤ cl then 0
  else if k = 0 then clStatusWord s cl
  else if k < 0x100 ∨ 0x200 ≤ k then 0
  else if k % 16 = 0 then threadsLo s ck
  else if k % 16 = 4 then threadsHi s ck
  else if k % 16 = 8 then wdogWord s ck
  else 0

/-- The DRAMC block. -/
def dramcReg (s : State) (o : Nat) : Nat :=
  if o < 0xC00 ∧ o % 0x100 = 0 then chStatusWord s (o / 0x100)
  else if o = 0x1000 then imbalanceWord s
  else if o = 0x1004 then dramRefreshWord s
  else if o = 0x1008 then dramTrainWord s
  else 0

/-- The SEC block. -/
def secReg (s : State) (o : Nat) : Nat :=
  if o = 0 then bootStatusWord s
  else if o = 4 then s.sec.version % 2 ^ 32
  else if o = 8 then s.nv.minVersion % 2 ^ 32
  else if o = 0xC then keyStateWord s
  else if o = 0x100 then s.crypt.present % 512 * 65536 + s.crypt.latched % 512
  else 0

/-- The 64-bit registers, by the address of their low word (R7). (DEDUCED, log 25) -/
def wideReg (s : State) (a : Nat) : Option Nat :=
  if a = 0x20 then some s.epochs.epoch
  else if a = 0x38 then some s.epochs.dtimeAt
  else if a = 0x02002000 then some (dtimeNs s)
  else if a = 0x0E000010 then some s.sec.sequence
  else none

/-- The host link an HLINK address belongs to. -/
def hlinkOf (a : Nat) : HostId := ⟨a / 0x100000 % 8, Nat.mod_lt _ (by decide)⟩

/-- What a 32-bit register reads; an offset that none occupies reads 0 (R8). -/
def regWord (s : State) (a : Nat) : Nat :=
  let o := a % 0x1000000
  match a / 0x1000000 with
  | 0 => if a < 0x100000 then glbReg s a else if a = 0x100000 then clkStatusWord s else if a = 0x100004 then clkRefWord s else 0
  | 1 => if o < 0x800000 then hlinkReg s (hlinkOf a) (a % 0x100000) else 0
  | 2 => ethReg s o
  | 3 => parseReg s o
  | 4 => if o = 0 then b2n s.cls.topBank * 3 else 0
  | 5 => tblReg s o
  | 6 => hodReg s o
  | 7 => if o = 0 then wheelWord s false else if o = 4 then wheelWord s true else 0
  | 9 => ctxReg s o
  | 0xA => nvmeBlockReg s o
  | 0xB => cryptReg s o
  | 0xC => coreReg s o
  | 0xD => dramcReg s o
  | 0xE => secReg s o
  | 0xF => if o = 0 then parkStatusWord s else if o = 4 then fuseFree s % 4096 else 0
  | 0x10 => if o = 0 then dbgSessionWord s else 0
  | _ => 0

/-! Reading -/

/-- The latches changed. (DEDUCED, log 25) -/
def modLatch (f : Tbl Nat → Tbl Nat) (s : State) : State := { s with epochs := { s.epochs with latch := f s.epochs.latch } }

/-- HLINK_CPL_COUNTS of some link. -/
def isCplCounts (a : Nat) : Bool := decide (0x01000000 ≤ a) && decide (a < 0x01800000) && a % 0x100000 == 0x14

/-- An aligned read: its value, and what reading does (R7, R9): a low word latches, the next high word is the latched one, RC fields clear. (DEDUCED, log 25) -/
def readReg (a : Nat) (s : State) : Nat × State :=
  match wideReg s a with
  | some v => (v % 2 ^ 32, modLatch (fun t => Tbl.put t a (v / 2 ^ 32 % 2 ^ 32)) s)
  | none =>
    match (if 4 ≤ a then wideReg s (a - 4) else none) with
    | some v => (match Tbl.find s.epochs.latch (a - 4) with
      | some x => (x, modLatch (fun t => Tbl.del t (a - 4)) s)
      | none => (v / 2 ^ 32 % 2 ^ 32, s))
    | none =>
      if isCplCounts a then (regWord s a, modLink (hlinkOf a) (fun x => { x with unexpectedCpl := 0, cplTimeouts := 0 }) s)
      else if a = 0x170 then (regWord s a, drawn1 s)
      else (regWord s a, s)

/-- A read of the control space, its value sent out; any other than an aligned one is undefined (R7). -/
def readRegOut (a : Nat) (s : State) : Host.Outcome State Fault Refusal :=
  if a % 4 ≠ 0 then .refused (.undefinedCase 7)
  else .next (emit (.regRead a (readReg a s).1) (readReg a s).2)

/-- LOW_WORD_READ (R7). -/
def execLowWordRead (addr : Word) (s : State) : Host.Outcome State Fault Refusal := readRegOut addr.toNat s
/-- READ_CLEAR_REGISTER_READ (R9). -/
def execReadClearRegisterRead (addr : Word) (s : State) : Host.Outcome State Fault Refusal := readRegOut addr.toNat s

/-! Writing -/

/-- A register that holds what was last written. -/
def keepReg (a mask v : Nat) (s : State) : State := { s with regs := Tbl.put s.regs a (wordOf (v &&& mask)) }

/-- GLB and CLK. -/
def writeGlb (a v : Nat) (s : State) : Host.Outcome State Fault Refusal :=
  if a = 0x28 then execGlbEpochLenWrite (wordOf v) s
  else if a = 0x2C then execGlbRecoatArmWrite (wordOf v) s
  else .next (if a = 0x140 then keepReg a 0xFF000000 v s
    else if a = 0x150 then keepReg a 0x80000000 v s
    else if a = 0x170 || a = 0x174 then keepReg a 0xFF v s
    else if a = 0x100000 then { s with clk := { s.clk with refReturned := s.clk.refReturned && !bitAt v 3 } }
    else s)

/-- ETH; STEP and TRIM act as DTIME_STEP and DTIME_RATE_WRITE do. -/
def writeEth (o v : Nat) (s : State) : Host.Outcome State Fault Refusal :=
  if o = 0x2008 then execDtimeStep (wordOf v) s
  else if o = 0x200C then execDtimeRateWrite (wordOf v) s
  else .next (if o < 0x1000 then
      let l := laneIx (o / 0x40)
      if o % 0x40 = 0 then { s with eth := { s.eth with cfg := vset s.eth.cfg l (wordOf (v &&& 0xFFFC0F0F)) } }
      else if o % 0x40 = 8 then { s with eth := { s.eth with ptpRx := vset s.eth.ptpRx l (wordOf v) } }
      else if o % 0x40 = 0xC then { s with eth := { s.eth with ptpTx := vset s.eth.ptpTx l (wordOf v) } }
      else s
    else if o < 0x1080 ∧ o % 0x10 = 0 then
      let g := groupIx ((o - 0x1000) / 0x10)
      let s1 := if bitAt v 9 then modGroup g (fun x => { x with badLayout := false }) s else s
      if bitAt v 0 then ethApply g s1 else s1
    else if o = 0x2010 then { s with eth := { s.eth with holdoff := v % 65536 } }
    else s)

/-- PARSE: its staged registers, MIRROR_PORT and steering (R158, R191, R192). -/
def writeParse (o v : Nat) (s : State) : Host.Outcome State Fault Refusal :=
  if parseStagedAddr (0x03000000 + o) then execStagedRegisterWrite (wordOf (0x03000000 + o)) (wordOf v) s
  else .next (if o = 0x300 then { s with parse := { s.parse with mirrorEn := bitAt v 31, mirrorPort := v % 64 } }
    else if 0x400 ≤ o ∧ o < 0x600 then
      let g := (o - 0x400) / 0x40
      let k := (o - 0x400) % 0x40 / 4
      if k < 4 then { s with net := { s.net with ranges := vset s.net.ranges ⟨(4 * g + k) % 32, Nat.mod_lt _ (by decide)⟩ (v &&& 0x800F007F) } }
      else if k < 15 then { s with net := { s.net with keys := vset s.net.keys ⟨(11 * g + (k - 4)) % 88, Nat.mod_lt _ (by decide)⟩ v } }
      else s
    else s)

/-- HOD: what APPLY takes, APPLY itself, and the limits (R202, R209). -/
def writeHod (o v : Nat) (s : State) : State :=
  if o < 0x18 then modHod (fun x => { x with cfg := vset x.cfg ⟨o / 4 % 6, Nat.mod_lt _ (by decide)⟩ (v % 2 ^ 20) }) s
  else if o = 0x40 then
    let s1 := if bitAt v 9 then modHod (fun x => { x with badCarve := false }) s else s
    if bitAt v 0 then hodApply s1 else s1
  else if o = 0x44 then modHod (fun x => { x with rxCfg := v % 2 ^ 24 }) s
  else if o = 0x48 then modHod (fun x => { x with forwardLimit := v % 2 ^ 20 }) s
  else if o = 0x4C then modHod (fun x => { x with coreLimit := v % 2 ^ 20 }) s
  else s

/-- CORE: CORE_WDOG (R393). -/
def writeCore (o v : Nat) (s : State) : State :=
  let k := o % 65536
  if 16 ≤ o / 65536 ∨ k < 0x100 ∨ 0x200 ≤ k ∨ k % 16 ≠ 8 then s
  else modCore (16 * (o / 65536) + (k - 0x100) / 16) (fun c => { c with
    wdogAction := bitsAt v 30 2, wdogExpired := c.wdogExpired && !bitAt v 29, wdogTimeout := v % 2 ^ 22 }) s

/-- An aligned write of any register; one that no writable register occupies has no effect (R8, R9). -/
def writeReg (a v : Nat) (s : State) : Host.Outcome State Fault Refusal :=
  let o := a % 0x1000000
  match a / 0x1000000 with
  | 0 => writeGlb a v s
  | 2 => writeEth o v s
  | 3 => writeParse o v s
  | 6 => .next (writeHod o v s)
  | 0xA => .next (if 0x100 ≤ o ∧ o < 0x140 ∧ bitAt v 2 then modDrive ((o - 0x100) / 4) (fun d => { d with button := false }) s else s)
  | 0xB => .next (if o = 0x10 then { s with crypt := { s.crypt with suspend := bitAt v 0 } } else s)
  | 0xC => .next (writeCore o v s)
  | 0xD => .next (if o = 0x1000 then modDram (fun d => { d with threshold := v % 1024, alert := d.alert && !bitAt v 31 }) s else s)
  | 0xE => .next (if o = 0x100 then { s with crypt := { s.crypt with latched := s.crypt.latched &&& (511 - v % 512) } } else s)
  | _ => .next s

/-- REGISTER_WRITE (R7 to R9). -/
def execRegisterWrite (addr v : Word) (s : State) : Host.Outcome State Fault Refusal :=
  if addr.toNat % 4 ≠ 0 then .refused (.undefinedCase 7) else writeReg addr.toNat v.toNat s

end Sys2Proof.Machine
end

