-- ==== Sys2Proof/Machine/Bar.lean ====
section
/-! DEFINITION. Bar.lean: memory requests to the BAR windows of a host link's functions (R93, R94, and the registers of chapters 3, 4, 12 and 16 behind them). -/

namespace Sys2Proof.Machine
open Sys2Proof

/-! The windows (R93) -/

/-- What a dword of a BAR window is. -/
inductive BarCell where
  | empty
  | linkStatus | intxStatus | intxEnable
  /-- a register of the command window, by offset -/
  | cmd (o : Nat)
  /-- a dword of the MSI-X table or of the pending bit array -/
  | table (i : Nat)
  | pba (i : Nat)
  | netDoorbell (q : Nat)
  | nvme (o : Nat)
  | nvmeDoorbell (q : Nat) (cq : Bool)
  /-- a register of the recovery intake, or its data window -/
  | intake (o : Nat)
  | window (o : Nat)
deriving DecidableEq, Repr

/-- The registers of the command window. -/
def cmdOffsets : List Nat := [0x00, 0x04, 0x08, 0x0C, 0x10, 0x20, 0x24, 0x28, 0x2C, 0x30, 0x40, 0x44, 0x48, 0x4C, 0x50, 0x60, 0x64, 0x68]
/-- The NVMe controller registers (PRESUMED: the NVMe PCIe register map, which R299 names). -/
def nvmeOffsets : List Nat := [0x00, 0x04, 0x08, 0x0C, 0x10, 0x14, 0x1C, 0x20, 0x24, 0x28, 0x2C, 0x30, 0x34, 0x68]

/-- The bases of a network function's command window, MSI-X table, pending bits and doorbells, and how many doorbells there are. -/
def netCell (pf : Bool) (vecs o : Nat) : BarCell :=
  let tab := if pf then 0x10000 else 0x2000
  let pend := if pf then 0x18000 else 0x3000
  let bells := if pf then 0x100000 else 0x8000
  if o = 0 then .linkStatus
  else if pf ∧ o = 0x800 then .intxStatus
  else if pf ∧ o = 0x804 then .intxEnable
  else if 0x1000 ≤ o ∧ o < 0x2000 then (if cmdOffsets.contains (o - 0x1000) then .cmd (o - 0x1000) else .empty)
  else if tab ≤ o ∧ o < tab + 16 * vecs then .table ((o - tab) / 4)
  else if pend ≤ o ∧ o < pend + vecs / 8 then .pba ((o - pend) / 4)
  else if bells ≤ o ∧ o < bells + 8 * (if pf then 16384 else 4096) ∧ o % 8 = 0 then .netDoorbell ((o - bells) / 8)
  else .empty

/-- A storage function's window. -/
def storageCell (pf : Bool) (vecs pairs o : Nat) : BarCell :=
  let tab := if pf then 0x10000 else 0x8000
  let pend := if pf then 0x18000 else 0x9000
  if o < 0x1000 then (if nvmeOffsets.contains o then .nvme o else .empty)
  else if o < 0x1000 + 8 * (pairs + 1) then .nvmeDoorbell ((o - 0x1000) / 8) (o % 8 == 4)
  else if tab ≤ o ∧ o < tab + 16 * vecs then .table ((o - tab) / 4)
  else if pend ≤ o ∧ o < pend + vecs / 8 then .pba ((o - pend) / 4)
  else .empty

/-- The dword of a function's window at an aligned offset. -/
def barCell (s : State) (h : HostId) (f : Fn) (o : Nat) : BarCell :=
  match fnKind s h f with
  | 0 => netCell true (msixSize f) o
  | 1 => storageCell true (msixSize f) (maxPairs f) o
  | 2 => if o < 0x14 then .intake o else if 0x8000 ≤ o then .window (o - 0x8000) else .empty
  | 3 => netCell false (msixSize f) o
  | _ => storageCell false (msixSize f) (maxPairs f) o

/-- The dword is a register or a doorbell, which takes aligned 32-bit accesses alone (R7). -/
def BarCell.isRegister : BarCell → Bool
  | .empty => false
  | .table _ => false
  | .pba _ => false
  | .window _ => false
  | _ => true

/-- The ring channel of a network function. -/
def chanOf (h : HostId) (f : Fn) : RingChan :=
  match f with
  | .vf v => ⟨h, some v⟩
  | _ => ⟨h, none⟩

/-! Reads -/

/-- A register of a command window (R60 to R64). -/
def cmdReg (r : Ring) (o : Nat) : Nat :=
  let lo (b : Nat) : Nat := b % 2 ^ 32 / 64 * 64
  let hi (b : Nat) : Nat := b / 2 ^ 32 % 2 ^ 32
  match o with
  | 0x00 => lo r.sqBase
  | 0x04 => hi r.sqBase
  | 0x08 => r.sqCfg
  | 0x0C => r.sqTail
  | 0x10 => r.sqHead
  | 0x20 => lo r.rqBase
  | 0x24 => hi r.rqBase
  | 0x28 => r.rqCfg
  | 0x2C => r.rqHead
  | 0x30 => r.rqTail
  | 0x40 => lo r.eqBase
  | 0x44 => hi r.eqBase
  | 0x48 => r.eqCfg
  | 0x4C => r.eqHead
  | 0x50 => r.eqTail
  | 0x60 => r.eventVec % 2048 * 2 ^ 21 + r.replyVec % 2048 * 2 ^ 10 + b2n r.eventEnable * 2 + b2n r.enable
  | 0x64 => b2n r.oversize * 16 + b2n r.cfgErr * 8 + b2n r.vecErr * 4 + b2n r.fault * 2 + b2n r.running
  | 0x68 => r.eventsLost % 2 ^ 32
  | _ => 0

/-- An NVMe controller register (R297, R299); the layout is PRESUMED as the specifications R297 names give it. (PRESUMED, log 65) -/
def nvmeReg (c : Ctrl) (o : Nat) : Nat :=
  match o with
  | 0x00 => 0xFFFF + 2 ^ 16 + 2 ^ 17 + 2 ^ 24
  | 0x04 => 2 ^ 5 + 2 ^ 27
  | 0x08 => 0x00020100
  | 0x0C => c.mask % 2 ^ 32
  | 0x10 => c.mask % 2 ^ 32
  | 0x14 => c.cc % 2 ^ 32
  | 0x1C => b2n c.ready + b2n c.fatal * 2 + c.shst % 4 * 4
  | 0x24 => c.aqa % 2 ^ 32
  | 0x28 => c.asq % 2 ^ 32
  | 0x2C => c.asq / 2 ^ 32 % 2 ^ 32
  | 0x30 => c.acq % 2 ^ 32
  | 0x34 => c.acq / 2 ^ 32 % 2 ^ 32
  | 0x68 => 1
  | _ => 0

/-- A register of the recovery intake (R441). -/
def recReg (s : State) (h : HostId) (o : Nat) : Nat :=
  let r := recPort s (recOf h)
  match o with
  | 0x00 => r.slot % 2 * 256
  | 0x04 => recStatus s (recOf h)
  | 0x08 => r.intx % 8
  | 0x0C => r.offset
  | 0x10 => r.len
  | _ => 0

/-- 32 pending bits. -/
def pbaWord (vecs : List Nat) (i : Nat) : Nat := (upFrom 0 32).foldl (fun n b => n + b2n (vecs.contains (32 * i + b)) * 2 ^ b) 0

/-- A dword of the MSI-X table: addresses and data as written, and Vector Control. -/
def tableWord (x : FnState) (i : Nat) : Nat := if i % 4 = 3 then b2n (!x.unmasked.contains (i / 4)) else (Tbl.getD x.msixTable i 0).toNat

/-- What a dword reads, and what reading it does; what a doorbell reads is not stated, so it is free. (DEDUCED, log 27) -/
def readCell (h : HostId) (f : Fn) (c : BarCell) (s : State) : Nat × State :=
  match c with
  | .empty => (0, s)
  | .linkStatus => (hlinkStatusWord s h, s)
  | .intxStatus => ((link s h).intxStatus % 8, s)
  | .intxEnable => ((link s h).intxEnable % 8, s)
  | .cmd o => (cmdReg (ring s (chanOf h f)) o, if o = 0x68 then modRing (chanOf h f) (fun r => { r with eventsLost := 0 }) s else s)
  | .table i => (tableWord (fnOf s h f) i, s)
  | .pba i => (pbaWord (fnOf s h f).pendingVecs i, s)
  | .netDoorbell _ => (freshNat s % 2 ^ 32, drawn1 s)
  | .nvme o => (nvmeReg (ctrl s (fnKey h f)) o, s)
  | .nvmeDoorbell _ _ => (freshNat s % 2 ^ 32, drawn1 s)
  | .intake o => (recReg s h o, s)
  | .window _ => (0, s)

/-- The aligned offsets of the dwords an access touches. (DEDUCED, log 28) -/
def touched (off len : Nat) : List Nat := (upFrom (off / 4) ((off + len + 3) / 4 - off / 4)).map (4 * ·)

/-- A memory read (R94): its completion carries the dwords it touches. (DEDUCED, log 28) -/
def barRead (h : HostId) (f : Fn) (r : BarReq) (s : State) : Host.Outcome State Fault Refusal :=
  let cells := (touched r.offset r.length).map (barCell s h f)
  if 64 < r.length then .next (completerAbort h f (some r.offset) r.header s)
  else if cells.any BarCell.isRegister && !(r.length == 4 && r.offset % 4 == 0) then .refused (.undefinedCase 7)
  else
    let got := cells.foldl (fun (a : List Nat × State) c => let x := readCell h f c a.2; (a.1 ++ [x.1], x.2)) ([], s)
    .next (emit (.completion h 0 false got.1) got.2)

/-! Writes -/

/-- One outcome after another. -/
def afterwards (o : Host.Outcome State Fault Refusal) (f : State → Host.Outcome State Fault Refusal) : Host.Outcome State Fault Refusal :=
  match o with
  | .next s => f s
  | x => x

/-- A ring's base with one half replaced. -/
def baseHalf (b v : Nat) (high : Bool) : Nat := if high then b % 2 ^ 32 + v * 2 ^ 32 else b / 2 ^ 32 * 2 ^ 32 + v / 64 * 64

/-- HLINK_CMD_CTRL: the vectors, EVENT_ENABLE and ENABLE (R60, R63, R64). -/
def writeCtrl (c : RingChan) (v : Nat) (s : State) : Host.Outcome State Fault Refusal :=
  let s1 := modRing c (fun r => { r with eventVec := bitsAt v 21 11, replyVec := bitsAt v 10 11 }) s
  afterwards (execHlinkCmdEventEnableWrite c (bitAt v 1) s1) (if bitAt v 0 then execHlinkCmdEnableSet c else execHlinkCmdEnableClear c)

/-- A write to the command window; BASE and CFG stand while ENABLE is 1 (R60). -/
def writeCmd (c : RingChan) (o v : Nat) (s : State) : Host.Outcome State Fault Refusal :=
  let still (f : Ring → Ring) : State := if (ring s c).enable then s else modRing c f s
  match o with
  | 0x00 => .next (still fun r => { r with sqBase := baseHalf r.sqBase v false })
  | 0x04 => .next (still fun r => { r with sqBase := baseHalf r.sqBase v true })
  | 0x08 => .next (still fun r => { r with sqCfg := v % 16 })
  | 0x0C => execHlinkCmdSqTail c (wordOf v) s
  | 0x20 => .next (still fun r => { r with rqBase := baseHalf r.rqBase v false })
  | 0x24 => .next (still fun r => { r with rqBase := baseHalf r.rqBase v true })
  | 0x28 => .next (still fun r => { r with rqCfg := v % 16 })
  | 0x2C => execHlinkCmdRqHead c (wordOf v) s
  | 0x40 => .next (still fun r => { r with eqBase := baseHalf r.eqBase v false })
  | 0x44 => .next (still fun r => { r with eqBase := baseHalf r.eqBase v true })
  | 0x48 => .next (still fun r => { r with eqCfg := v % 16 })
  | 0x4C => execHlinkCmdEqHead c (wordOf v) s
  | 0x60 => writeCtrl c v s
  | 0x64 => .next (modRing c (fun r => { r with
      fault := r.fault && !bitAt v 1, vecErr := r.vecErr && !bitAt v 2, cfgErr := r.cfgErr && !bitAt v 3, oversize := r.oversize && !bitAt v 4 }) s)
  | _ => .next s

/-- A dword of the MSI-X table written: Vector Control masks or unmasks its vector (R95). -/
def writeTable (h : HostId) (f : Fn) (i v : Nat) (s : State) : State :=
  if i % 4 ≠ 3 then modFn h f (fun x => { x with msixTable := Tbl.put x.msixTable i (wordOf v) }) s
  else if bitAt v 0 then modFn h f (fun x => { x with unmasked := x.unmasked.filter (· != i / 4) }) s
  else unmask h f (some (i / 4)) s

/-- CC: EN and SHN act as NVME_CC_EN_SET, NVME_CC_EN_CLEAR and NVME_SHUTDOWN do (R299, R300). -/
def writeCc (h : HostId) (f : Fn) (v : Nat) (s : State) : Host.Outcome State Fault Refusal :=
  let k := fnKey h f
  let w := v &&& 0x00FFFFF1
  let keep (s : State) : Host.Outcome State Fault Refusal := .next (modCtrl k (fun c => { c with cc := w }) s)
  let old := (ctrl s k).cc
  if bitAt w 0 && !bitAt old 0 then afterwards (execNvmeCcEnSet h f (wordOf w) s) keep
  else if !bitAt w 0 && bitAt old 0 then afterwards (execNvmeCcEnClear h f s) keep
  else if bitsAt w 14 2 ≠ 0 ∧ bitsAt old 14 2 = 0 then afterwards (execNvmeShutdown h f (bitsAt w 14 2 == 2) s) keep
  else keep s

/-- A write to an NVMe controller register. -/
def writeNvme (h : HostId) (f : Fn) (o v : Nat) (s : State) : Host.Outcome State Fault Refusal :=
  let k := fnKey h f
  let half (b : Nat) (high : Bool) : Nat := if high then b % 2 ^ 32 + v * 2 ^ 32 else b / 2 ^ 32 * 2 ^ 32 + v / 4096 * 4096
  match o with
  | 0x0C => execNvmeIntmsIntmc h f false (wordOf v) s
  | 0x10 => execNvmeIntmsIntmc h f true (wordOf v) s
  | 0x14 => writeCc h f v s
  | 0x24 => .next (modCtrl k (fun c => { c with aqa := v &&& 0x0FFF0FFF }) s)
  | 0x28 => .next (modCtrl k (fun c => { c with asq := half c.asq false }) s)
  | 0x2C => .next (modCtrl k (fun c => { c with asq := half c.asq true }) s)
  | 0x30 => .next (modCtrl k (fun c => { c with acq := half c.acq false }) s)
  | 0x34 => .next (modCtrl k (fun c => { c with acq := half c.acq true }) s)
  | _ => .next s

/-- A write to a register of the recovery intake (R441). -/
def writeRec (h : HostId) (o v : Nat) (s : State) : State :=
  let who := recOf h
  match o with
  | 0x00 =>
    let s1 := modRec who (fun r => { r with slot := bitsAt v 8 1 }) s
    let s2 := if bitAt v 2 then recAbort who s1 else s1
    let s3 := if bitAt v 0 then recCommit who s2 else s2
    if bitAt v 1 then recInstall who (bitsAt v 8 1) s3 else s3
  | 0x04 => refreshRec who (modRec who (fun r => { r with
      chunkDone := r.chunkDone && !bitAt v 0, installDone := r.installDone && !bitAt v 1, error := r.error && !bitAt v 2 }) s)
  | 0x08 => refreshRec who (modRec who (fun r => { r with intx := v % 8 }) s)
  | 0x0C => modRec who (fun r => { r with offset := v % 2 ^ 25 }) s
  | 0x10 => modRec who (fun r => { r with len := v % 65536 }) s
  | _ => s

/-- A network doorbell, by the kind of the queue it belongs to (R102, R511). -/
def ringDoorbell (h : HostId) (f : Fn) (q v : Nat) (r : BarReq) (s : State) : Host.Outcome State Fault Refusal :=
  match queue s h f q with
  | none => .next s
  | some x =>
    let d : Domain := ⟨x.conn / 2 ^ 24 % 9, Nat.mod_lt _ (by decide)⟩
    match x.kind with
    | 1 => execTxqDoorbell h f (BitVec.ofNat 16 q) (wordOf v) s
    | 2 => execRxqDoorbell h f (BitVec.ofNat 16 q) (wordOf v) s
    | 3 => execCqDoorbell h f (BitVec.ofNat 16 q) (wordOf v) s
    | 4 => execLrdSqDoorbell d (BitVec.ofNat 24 x.conn) (wordOf v) r.wrs s
    | 5 => execLrdRqDoorbell d (BitVec.ofNat 24 x.conn) (wordOf v) r.bufs s
    | _ => .next s

/-- One dword written. -/
def writeCell (h : HostId) (f : Fn) (c : BarCell) (v : Nat) (r : BarReq) (s : State) : Host.Outcome State Fault Refusal :=
  match c with
  | .empty => .next s
  | .linkStatus => .next s
  | .intxStatus => .next (clearIntx h v s)
  | .intxEnable => .next (refreshInta h (modLink h (fun l => { l with intxEnable := v % 8 }) s))
  | .cmd o => writeCmd (chanOf h f) o v s
  | .table i => .next (writeTable h f i v s)
  | .pba _ => .next s
  | .netDoorbell q => ringDoorbell h f q v r s
  | .nvme o => writeNvme h f o v s
  | .nvmeDoorbell q cq => if cq then execNvmeCqDoorbell h f (BitVec.ofNat 16 q) (wordOf v) s else execNvmeSqDoorbell h f (BitVec.ofNat 16 q) (wordOf v) s
  | .intake o => .next (writeRec h o v s)
  | .window _ => .next s

/-- A doorbell is among the cells. -/
def BarCell.isDoorbell : BarCell → Bool
  | .netDoorbell _ => true
  | .nvmeDoorbell _ _ => true
  | _ => false

/-- The data window takes bytes at any offset (R441). -/
def writeWindow (h : HostId) (r : BarReq) (s : State) : State :=
  modRec (recOf h) (fun x => { x with window := Mem.writeBytes x.window 0 (r.offset - 0x8000) (r.data.take (0x10000 - r.offset)) }) s

/-- A memory write (R7, R94). (DEDUCED, log 28, 31) -/
def barWrite (h : HostId) (f : Fn) (r : BarReq) (s : State) : Host.Outcome State Fault Refusal :=
  let n := r.data.length
  let cells := (touched r.offset n).map (barCell s h f)
  let whole := decide (n % 4 = 0) && decide (r.offset % 4 = 0)
  if f = .pf2 ∧ 0x8000 ≤ r.offset then .next (writeWindow h r s)
  else if cells.any BarCell.isRegister && !(n == 4 && whole) then .refused (.undefinedCase (if cells.any BarCell.isDoorbell && n == 8 then 94 else 7))
  else if !whole && cells.any (fun c => c != .empty) then .refused (.undefinedCase 7)
  else (upFrom 0 cells.length).foldl (fun o i => afterwards o (writeCell h f (cells.getD i .empty) (leNat (slice r.data (4 * i) 4)) r)) (.next s)

/-- The function's windows answer: Memory Space Enable, and VF MSE of its PF for a VF (R94; the place of VF MSE is PRESUMED, as SR-IOV has it). (DEDUCED, log 32) -/
def memoryOn (s : State) (h : HostId) (f : Fn) : Bool :=
  match f with
  | .vf v =>
    let pf : Fn := if vfOnPf1 s h v.val then .pf1 else .pf0
    bitAt ((cfgStored s h pf (capAt s h pf 5 8)).getD 0) 3
  | _ => (fnOf s h f).mse

/-- BAR_MEMORY_REQUEST (R94): Unsupported Request where no enabled BAR is hit; a poisoned write is logged and dropped (R109). -/
def execBarMemoryRequest (h : HostId) (r : BarReq) (s : State) : Host.Outcome State Fault Refusal :=
  if !linkUp s h then .next s
  else match r.hit with
    | none => .next (unsupported h .pf0 r.write none r.header s)
    | some f =>
      if !present s h f || !memoryOn s h f || barSize (fnKind s h f) ≤ r.offset then .next (unsupported h f r.write (some r.offset) r.header s)
      else if !r.write then barRead h f r s
      else if r.poisoned then .next (logAer h f false 12 true r.header true s)
      else barWrite h f r s

end Sys2Proof.Machine
end

