-- ==== Sys2Proof/Machine/Device.lean ====
section
/-! DEFINITION. Device.lean: the device and mode commands (R72 to R74), and the drain of QUIESCE. -/

namespace Sys2Proof.Machine
open Sys2Proof

/-- DEVICE_INFO (R73). (DESIGN CHOICE, log 9) -/
def deviceInfoDef : CmdDef where
  opcode := 0x0100
  owner := true
  host := true
  tenant := true
  gate := .status
  act := fun _ _ s => reply [0x8256 + 0xA1 * 65536, rxActive s + txActive s * 256 + coresActive s * 65536, s.sec.version, 0] s

/-- MODE_GET (R73). -/
def modeGetDef : CmdDef where
  opcode := 0x0101
  owner := true
  host := true
  gate := .status
  act := fun _ _ s => reply [glbModeWord s, s.glb.modeSeq.toNat, s.degr.entries.length, b2n (s.glb.mode == .quiesce && s.glb.drainComplete)] s

/-- A mode change is asked for in a mode that has no such transition (R27). -/
def modeChangeChecks (from_ : Mode → Bool) (p : Packet) (s : State) : List (Bool × Status) :=
  [(!from_ s.glb.mode, .modeWrong), (opLimitReached p s, .noResource)]

/-- The epoch a mode command is bound to, none for the next boundary. -/
def boundEpoch (p : Packet) : Option Nat := if p.bound then some p.epochBind.toNat else none

/-- The target epoch a mode command's reply names. -/
def modeTarget (p : Packet) (s : State) : Nat := (boundEpoch p).getD (s.epochs.epoch + 1)

/-- QUIESCE (R27, R74). -/
def quiesceDef : CmdDef where
  opcode := 0x0102
  owner := true
  objs := Obj.isDevice
  bindable := true
  checks := fun _ p s => modeChangeChecks (fun m => m == .service || m == .degraded) p s
  act := fun _ p s => startOp 0x0102 p (.quiesce (boundEpoch p)) 0 (modeTarget p s) s

/-- RESUME (R27, R74). -/
def resumeDef : CmdDef where
  opcode := 0x0103
  owner := true
  objs := Obj.isDevice
  bindable := true
  checks := fun _ p s => modeChangeChecks (fun m => m == .quiesce) p s
  act := fun _ p s => startOp 0x0103 p (.resume (boundEpoch p)) 0 (modeTarget p s) s

/-- MAINTAIN (R27, R74): from QUIESCE after drain complete. -/
def maintainDef : CmdDef where
  opcode := 0x0105
  owner := true
  objs := Obj.isDevice
  checks := fun _ p s => modeChangeChecks (fun m => m == .quiesce && s.glb.drainComplete) p s
  act := fun _ p s => startOp 0x0105 p .maintain 0 (modeTarget p s) s

/-- A cache segment is dirty, held or FAILED (R26, R28). -/
def cacheHasData (s : State) : Bool := s.nvme.segs.any fun g => !g.blocks.isEmpty || g.held || g.failed

/-- A non-cancellable long operation runs (R74, R79). -/
def fixedOpRuns (s : State) : Bool := s.ops.any notCancellable

/-- FORCE was needed for a PARK to be accepted (R28). -/
def parkForced (s : State) : Bool :=
  (s.glb.mode == .quiesce && !s.glb.drainComplete) || (s.glb.mode == .maintenance && cacheHasData s) || fixedOpRuns s

/-- A held mode command. -/
def isModeOp (o : LongOp) : Bool :=
  match o.kind with
  | .quiesce _ => true
  | .resume _ => true
  | .maintain => true
  | _ => false

/-- PARK (R27, R28, R74). -/
def parkDef : CmdDef where
  opcode := 0x0104
  owner := true
  objs := Obj.isDevice
  len := fun n => n == 1
  checks := fun _ p s =>
    [ (!(s.glb.mode == .quiesce || s.glb.mode == .maintenance), .modeWrong),
      (!p.force && ((s.glb.mode == .quiesce && !s.glb.drainComplete) || (s.glb.mode == .maintenance && cacheHasData s)), .modeWrong),
      (p.f 0 1 31 != 0 || p.w 1 != 0, .badParam),
      (!p.force && fixedOpRuns s, .busy) ]
  act := fun _ p s => reply [] { s with glb := { s.glb with parkDue := some ⟨p.b 0 0, p.force, p.force && parkForced s, (s.ops.filter isModeOp).map (·.handle)⟩ } }

/-- DEVICE_RESET (R74): the reply, then the reset. (DEDUCED, log 17) -/
def deviceResetDef : CmdDef where
  opcode := 0x0106
  owner := true
  objs := Obj.isDevice
  act := fun _ _ s => { state := s, after := deviceReset .ownerReset }

/-- MAINT_ON_NEXT_BOOT (R73). -/
def maintOnNextBootDef : CmdDef where
  opcode := 0x0107
  owner := true
  objs := Obj.isDevice
  len := fun n => n == 1
  checks := fun _ p _ => [(p.f 0 1 31 != 0 || p.w 1 != 0, .badParam)]
  act := fun _ p s => reply [] { s with nv := { s.nv with maintFlag := p.b 0 0 } }

/-- DEVICE_INFO. -/
def execDeviceInfo (p : Packet) (s : State) : Host.Outcome State Fault Refusal := .next (runCmd deviceInfoDef (.deviceInfo p) p s)
/-- MODE_GET. -/
def execModeGet (p : Packet) (s : State) : Host.Outcome State Fault Refusal := .next (runCmd modeGetDef (.modeGet p) p s)
/-- QUIESCE. -/
def execQuiesce (p : Packet) (s : State) : Host.Outcome State Fault Refusal := .next (runCmd quiesceDef (.quiesce p) p s)
/-- RESUME. -/
def execResume (p : Packet) (s : State) : Host.Outcome State Fault Refusal := .next (runCmd resumeDef (.resume p) p s)
/-- PARK. -/
def execPark (p : Packet) (s : State) : Host.Outcome State Fault Refusal := .next (runCmd parkDef (.park p) p s)
/-- MAINTAIN. -/
def execMaintain (p : Packet) (s : State) : Host.Outcome State Fault Refusal := .next (runCmd maintainDef (.maintain p) p s)
/-- DEVICE_RESET. -/
def execDeviceReset (p : Packet) (s : State) : Host.Outcome State Fault Refusal := .next (runCmd deviceResetDef (.deviceReset p) p s)
/-- MAINT_ON_NEXT_BOOT. -/
def execMaintOnNextBoot (p : Packet) (s : State) : Host.Outcome State Fault Refusal := .next (runCmd maintOnNextBootDef (.maintOnNextBoot p) p s)

/-- DRAIN_COMPLETE (R26): in QUIESCE, once the cache is clean and no LRD message is unacknowledged. -/
def execDrainComplete (s : State) : Host.Outcome State Fault Refusal :=
  .next (if s.glb.mode != .quiesce || s.glb.drainComplete || cacheHasData s || lrdUnacked s then s
    else raiseOwner 0x12 0 0 [] { s with glb := { s.glb with drainComplete := true } })

end Sys2Proof.Machine
end

