-- ==== Sys2Proof/Machine/Counters.lean ====
section
/-! DEFINITION. Counters.lean: reading counters, violation records and resource usage (R38, R72, R85, R498, R502 to R507). -/

namespace Sys2Proof.Machine
open Sys2Proof

/-! Which counters a channel may read (R507) -/

/-- BLOCK, LINK, FIRST, COUNT and CLEAR of COUNTER_READ and COUNTER_SNAPSHOT. -/
structure CtrArgs where
  block : Nat
  link : Nat
  first : Nat
  count : Nat
  clear : Bool
deriving DecidableEq, Repr

/-- The fields of the command. -/
def ctrArgs (p : Packet) : CtrArgs := ⟨p.f 0 0 8, p.f 0 8 4, p.w 1, p.w 2, p.b 0 16⟩

/-- Blocks that have counters. -/
def ctrBlock (b : Nat) : Bool := b ≤ 0x0D || b == 0x0F || b == 0x10

/-- Indices of a host in a block, from the first up to and without the last; none but HLINK's own are a tenant's. (DEDUCED, log 21) -/
def ctrRange (c : Chan) (a : CtrArgs) : Option (Nat × Nat) :=
  match c with
  | .owner => some (0, 2 ^ 33)
  | .ring ⟨h, none⟩ =>
    match a.block with
    | 0x01 => if a.link = h.val then some (0, 2 ^ 33) else none
    | 0x06 => some (0x200 + 8 * h.val, 0x200 + 8 * h.val + 5)
    | 0x08 => some (32 * h.val, 32 * h.val + 32)
    | 0x09 => some (32 * h.val, 32 * h.val + 32)
    | 0x0A => some (32 * h.val, 32 * h.val + 10)
    | 0x0D => some (0x200 + 8 * h.val, 0x200 + 8 * h.val + 6)
    | _ => none
  | .ring ⟨h, some v⟩ => if a.block = 1 ∧ a.link = h.val then some (16 * (3 + v.val), 16 * (4 + v.val)) else none

/-- Some index of the range lies outside those the channel may read. (DEDUCED, log 21) -/
def ctrForbidden (c : Chan) (a : CtrArgs) : Bool :=
  match ctrRange c a with
  | none => true
  | some (lo, hi) => a.first < lo || hi < a.first + max a.count 1

/-- A value out of range or a reserved bit. (DEDUCED, log 21) -/
def ctrBad (p : Packet) : Bool :=
  let a := ctrArgs p
  !ctrBlock a.block || (a.block == 1 && 7 < a.link) || (a.block != 1 && a.link != 0) || a.count == 0 || 504 < a.count
    || p.f 0 12 4 != 0 || p.f 0 17 15 != 0 || p.w 3 != 0

/-! Values -/

/-- A counter as it is read; THERMTRIPS sits in the protected store (R498). -/
def readCounter (s : State) (block link i : Nat) : Nat :=
  if 2 ^ 28 ≤ i then 0 else if block = 0 ∧ i = 7 then s.nv.thermTrips else counter s block link i

/-- The words of a range of counters. -/
def ctrWords (s : State) (block link first count : Nat) : List Nat := (upFrom first count).flatMap fun i => words64 (readCounter s block link i)

/-- A counter set to 0. -/
def clearCounter (block link i : Nat) (s : State) : State :=
  if 2 ^ 28 ≤ i then s
  else if block = 0 ∧ i = 7 then modNv (fun v => { v with thermTrips := 0 }) s else setCounter block link i 0 s

/-- CLEAR zeroes each counter read. -/
def clearCounters (block link first count : Nat) (s : State) : State := (upFrom first count).foldl (fun s i => clearCounter block link i s) s

/-- COUNTER_READ. -/
def counterReadDef : CmdDef where
  opcode := 0x0C00
  owner := true
  host := true
  tenant := true
  gate := .counter
  longResult := true
  len := fun n => n == 2
  checks := fun _ p _ => [(ctrForbidden p.chan (ctrArgs p), .notPermitted), (ctrBad p, .badParam)]
  act := fun _ p s =>
    let a := ctrArgs p
    let ws := ctrWords s a.block a.link a.first a.count
    { state := if a.clear then clearCounters a.block a.link a.first a.count s else s, long := some ws }

/-- COUNTER_SNAPSHOT: held until its boundary. -/
def counterSnapshotDef : CmdDef where
  opcode := 0x0C01
  owner := true
  host := true
  tenant := true
  gate := .counter
  longResult := true
  bindable := true
  len := fun n => n == 2
  checks := fun _ p s => [(ctrForbidden p.chan (ctrArgs p), .notPermitted), (ctrBad p, .badParam), (opLimitReached p s, .noResource)]
  act := fun _ p s =>
    let a := ctrArgs p
    if !p.owner && p.resultLen.toNat < 8 * a.count then { state := s, status := .badLength, result := [8 * a.count] }
    else
      let e := if p.bound then p.epochBind.toNat else s.epochs.epoch + 1
      startOp 0x0C01 p (.snapshot a.block a.link a.first a.count a.clear (if p.bound then some e else none)) 0 e s

/-- A snapshot is taken: the long result is written before OP_DONE; the owner's follows its OP_DONE. (DEDUCED, log 20) -/
def takeSnapshot (o : LongOp) (block link first count : Nat) (clear : Bool) (s : State) : State :=
  let ws := ctrWords s block link first count
  let s1 := if clear then clearCounters block link first count s else s
  match o.chan with
  | .owner => emit (.opLong o.handle ws) (opDone o .ok [] s1)
  | .ring c => opDone o .ok [] (emit (.hostWrite c.link c.fn o.resultAddr (wordsToBytes ws)) s1)

/-! RESOURCE_USAGE (R72) -/

/-- The functions an object's figures cover. -/
def usageFns (o : Obj) : Option (HostId × (Fn → Bool)) :=
  match o with
  | .device => none
  | .host h => some (h, fun _ => true)
  | .func h f => some (h, fun g => g == f)

/-- What is in use: free hods by pool for the device, and for a host or function its hods, reserve, queues, connections, key slots, key pages and cache segments. -/
def usageOf (o : Obj) (s : State) : List Nat :=
  match usageFns o with
  | none => (upFrom 0 6).map (freeIn s)
  | some (h, fs) =>
    let units := match o with
      | .func _ (.vf v) => vfUnits s h v.val
      | _ => hostUnits s h
    let whole := o.isHost
    [units, if whole then reserveHeld s h else 0, Tbl.countIf s.queues fun k _ => hitKey h fs (k / 65536), connsIn h fs s, slotsIn h fs s,
      Tbl.countIf s.crypt.pages (fun _ p => p.slot.owner.any (hitKey h fs)), if whole then segsOfHost s h.val else 0]

/-- RESOURCE_USAGE. (DEDUCED, log 19) -/
def resourceUsageDef : CmdDef where
  opcode := 0x0205
  owner := true
  host := true
  tenant := true
  gate := .counter
  longResult := true
  len := fun n => n == 1
  act := fun o p s => replyLong ((Config.usageResult [p.w 0, p.w 1] (usageOf o s)).map (· % 2 ^ 32)) s

/-! VIOLATION_READ (R504) -/

/-- A violation record, sixteen words. -/
def violationWords (v : Violation) : List Nat :=
  [v.kind % 256 + v.block % 256 * 256 + v.target % 65536 * 65536, v.seq] ++ words64 v.epoch ++ words64 v.dtime ++ (v.detail ++ List.replicate 10 0).take 10

/-- The record may be shown on a channel: a host sees those of its own functions since its last attach. -/
def violationShown (s : State) (c : Chan) (v : Violation) : Bool :=
  match c with
  | .owner => true
  | .ring ⟨h, _⟩ => targetLink v.target == some h && v.target / 0x4000 != 1
      && (v.seq + 2 ^ 32 - (link s h).violationsFrom % 2 ^ 32) % 2 ^ 32 < 2 ^ 31

/-- A SEQ at or after another, as the log holds them: counted from the oldest. -/
def seqAfter (oldest first seq : Nat) : Bool := (first + 2 ^ 32 - oldest) % 2 ^ 32 ≤ (seq + 2 ^ 32 - oldest) % 2 ^ 32 || 2 ^ 31 ≤ (first + 2 ^ 32 - oldest) % 2 ^ 32

/-- VIOLATION_READ. -/
def violationReadDef : CmdDef where
  opcode := 0x0C03
  owner := true
  host := true
  longResult := true
  len := fun n => n == 1
  checks := fun _ p _ => [(p.f 1 0 6 == 0 || p.f 1 6 26 != 0, .badParam)]
  act := fun _ p s =>
    let next := s.violations.seq % 2 ^ 32
    let oldest := (s.violations.log.head?.map fun v => v.seq).getD next
    let vs := (s.violations.log.filter fun v => violationShown s p.chan v && seqAfter oldest (p.w 0) v.seq).take (p.f 1 0 6)
    replyLong ([oldest, next, vs.length, 0] ++ vs.flatMap violationWords) s

/-- COUNTER_READ. -/
def execCounterRead (p : Packet) (s : State) : Host.Outcome State Fault Refusal := .next (runCmd counterReadDef (.counterRead p) p s)
/-- COUNTER_SNAPSHOT. -/
def execCounterSnapshot (p : Packet) (s : State) : Host.Outcome State Fault Refusal := .next (runCmd counterSnapshotDef (.counterSnapshot p) p s)
/-- RESOURCE_USAGE. -/
def execResourceUsage (p : Packet) (s : State) : Host.Outcome State Fault Refusal := .next (runCmd resourceUsageDef (.resourceUsage p) p s)
/-- VIOLATION_READ. -/
def execViolationRead (p : Packet) (s : State) : Host.Outcome State Fault Refusal := .next (runCmd violationReadDef (.violationRead p) p s)

/-- KEY_ALARM_SOURCE (R355): sources 1 to 9; one that is present already is no new detection, but 5, 7 and 9 are events. -/
def execKeyAlarmSource (code : Byte) (slot : BitVec 17) (s : State) : Host.Outcome State Fault Refusal :=
  let c := code.toNat
  .next (if !s.glb.powered || c = 0 || 9 < c || (bitAt s.crypt.present (c - 1) && [1, 2, 3, 4].contains c) then s else alarmSource c slot.toNat s)

end Sys2Proof.Machine
end

