-- ==== Sys2Proof/Machine/LongOps.lean ====
section
/-! DEFINITION. LongOps.lean: OP_QUERY, OP_CANCEL, and one step of management firmware on a long operation (R73, R76 to R79). -/

namespace Sys2Proof.Machine
open Sys2Proof

/-- The live operation a HANDLE names on this channel: the owner's may be any (R79). -/
def namedOp (p : Packet) (s : State) : Option LongOp := (findOp s (p.w 0)).filter fun o => p.owner || o.chan == p.chan

/-- OP_QUERY (R73). -/
def opQueryDef : CmdDef where
  opcode := 0x0120
  owner := true
  host := true
  tenant := true
  gate := .status
  len := fun n => n == 1
  checks := fun _ p s => [(p.w 1 != 0, .badParam), ((namedOp p s).isNone, .badHandle)]
  act := fun _ p s => match namedOp p s with
    | none => reply [] s
    | some o => reply [o.stepsDone, o.stepsTotal, o.opcode] s

/-- OP_CANCEL (R79): OK, then OP_DONE. (DEDUCED, log 18) -/
def opCancelDef : CmdDef where
  opcode := 0x0121
  owner := true
  host := true
  tenant := true
  len := fun n => n == 1
  checks := fun _ p s => [((namedOp p s).any notCancellable, .notPermitted), (p.w 1 != 0, .badParam), ((namedOp p s).isNone, .badHandle)]
  act := fun _ p s => { state := s, after := fun s' => match namedOp p s with
    | none => s'
    | some o => cancelOp o s' }

/-- OP_QUERY. -/
def execOpQuery (p : Packet) (s : State) : Host.Outcome State Fault Refusal := .next (runCmd opQueryDef (.opQuery p) p s)
/-- OP_CANCEL. -/
def execOpCancel (p : Packet) (s : State) : Host.Outcome State Fault Refusal := .next (runCmd opCancelDef (.opCancel p) p s)

/-! The walk of CTX_MIGRATE (R282) -/

/-- The counts so far, the connections left for later, and whether a slot has run out. -/
structure Walk where
  state : State
  moved : Nat
  skipped : Nat
  lost : Nat
  later : List Nat
  full : Bool

/-- One number of the range handled; once no slot is left, the rest is left alone. -/
def walkOne (h : HostId) (tier : Nat) (w : Walk) (k : Nat) : Walk :=
  if w.full then { w with later := w.later ++ [k] }
  else match migrateOne h tier k w.state with
    | (.moved, s) => { w with state := s, moved := w.moved + 1 }
    | (.skipped, s) => { w with state := s, skipped := w.skipped + 1 }
    | (.lost, s) => { w with state := s, lost := w.lost + 1 }
    | (.later, s) => { w with state := s, later := w.later ++ [k] }
    | (.noSlot, s) => { w with state := s, later := w.later ++ [k], full := true }

/-- The numbers that a step handles: the next 1,024 of the range, and after the last of them those left for later. (DEDUCED, log 23) -/
def walkKeys (o : LongOp) (h : HostId) (first count : Nat) : List Nat :=
  if o.stepsDone * 1024 < count then (upFrom (first + o.stepsDone * 1024) (min 1024 (count - o.stepsDone * 1024))).map (connKey (h.castSucc))
  else o.notes.drop 3

/-- Connections of the rest of the range that are still to move. (DEDUCED, log 23) -/
def stillToMove (h : HostId) (tier : Nat) (keys : List Nat) (s : State) : Nat :=
  (keys.filter fun k => match migrateOne h tier k s with
    | (.skipped, _) => false
    | _ => true).length

/-- One step of CTX_MIGRATE. (DEDUCED, log 23) -/
def migrateStep (o : LongOp) (h : HostId) (first count tier : Nat) (s : State) : State :=
  let ranged := decide (o.stepsDone * 1024 < count)
  let w := (walkKeys o h first count).foldl (walkOne h tier) ⟨s, o.notes.getD 0 0, o.notes.getD 1 0, o.notes.getD 2 0, if ranged then o.notes.drop 3 else [], false⟩
  let steps := min o.stepsTotal (o.stepsDone + 1)
  let counts := [w.moved, w.skipped, w.lost]
  if w.full then
    let rest := (upFrom (first + steps * 1024) (count - steps * 1024)).map (connKey (h.castSucc))
    opDone o .noResource (counts ++ [stillToMove h tier (w.later ++ rest) w.state]) w.state
  else if count ≤ steps * 1024 && w.later.isEmpty then opDone o (if w.lost = 0 then .ok else .contextLost) counts w.state
  else putOp { o with stepsDone := steps, notes := counts ++ w.later } w.state

/-! The steps -/

/-- One step of EM_REHASH (R176, R177). -/
def rehashStep (o : LongOp) (s : State) : State :=
  let s1 := modEm (emStep o.stepsDone) s
  if o.stepsDone + 1 < 1040 then putOp { o with stepsDone := o.stepsDone + 1 } s1
  else
    let s2 := modEm (emEnd false) s1
    opDone o (if s2.tables.em.stranded = 0 then .ok else .tableFullRehash) [s2.tables.em.moved, s2.tables.em.stranded] s2

/-- One step of UNDERCOAT_RESET copies one bank unit (R43). -/
def undercoatStep (o : LongOp) (us : List Nat) (s : State) : State :=
  match us[o.stepsDone]? with
  | none => opDone o .ok [] s
  | some n =>
    let i : Fin 32 := ⟨n % 32, Nat.mod_lt _ (by decide)⟩
    let s1 := modUnit i (fun u => { u with copying := false }) (reloadUnit i s)
    if o.stepsDone + 1 < us.length then putOp { o with stepsDone := o.stepsDone + 1 } s1 else opDone o .ok [] s1

/-- The step of DRIVE_FORMAT: Format NVM goes to the drive, whose completion ends the operation (R326). (DEDUCED, log 68) -/
def formatStep (o : LongOp) (port form : Nat) (s : State) : State :=
  if o.committed then s
  else if (drive s port).state ≠ 3 then opDone o .targetAbsent [] s
  else driveSend port 4 o.handle 0 0 0 0x80 (form / 256) (form % 16 + form / 16 % 16 * 512) 0 (putOp { o with stepsDone := 1, committed := true } s)

/-- The step of SANITIZE (R325, R326): a namespace once it is quiet, or the drive's own Sanitize. -/
def sanitizeStep (o : LongOp) (isDrive : Bool) (object method : Nat) (s : State) : State :=
  if isDrive then
    if o.committed then s
    else if (drive s object).state ≠ 3 then opDone o .targetAbsent [] s
    else driveSend object 5 o.handle 0 0 0 0x84 0 (sanitizeAction method) 0 (putOp { o with stepsDone := 1, committed := true } s)
  else if ioOutstanding s object then s
  else opDone o .ok [] (sanitizeNs object s)

/-- The namespaces of a CACHE_FLUSH with DISCARD. -/
def discardSpaces (host ns : Option Nat) (s : State) : List Nat :=
  match ns with
  | some n => [n]
  | none => (s.nvme.namespaces.filter fun e => host.all fun h => e.2.host == h).map (·.1)

/-- One step of a long operation (R76). An operation held for an epoch, a drain or the cache takes no step. -/
def opStep (o : LongOp) (res : StepResult) (s : State) : State :=
  match o.kind with
  | .nsDelete n => opDone o .ok [] (deleteNs n s)
  | .driveFormat port form => formatStep o port form s
  | .cacheFlush host ns discard => if discard then opDone o .ok [] (discardHeld (discardSpaces host ns s) s) else s
  | .sanitize isDrive object method => sanitizeStep o isDrive object method s
  | .ctxMigrate d first count tier => migrateStep o ⟨d % 8, Nat.mod_lt _ (by decide)⟩ first count tier s
  | .carveSet cache prog _ => carveStep o cache prog s
  | .emRehash _ => rehashStep o s
  | .lpmPush fam block => let r := pushStep (fam == 1) block s; opDone o r.1 [] r.2
  | .undercoatReset us => undercoatStep o us s
  | .programLoad k program mask => programLoadStep o k program mask s
  | .imageInstall slot erase => installStep o slot erase res.ok s
  | .selftest tests => selftestStep o tests res s
  | .fuseProgram entries => fuseStep o entries res.ok s
  | .quiesce _ => s
  | .resume _ => s
  | .maintain => s
  | .recoatArm _ => s
  | .epochWait _ => s
  | .snapshot _ _ _ _ _ _ => s

/-- LONG_OP_STEP (R76). -/
def execLongOpStep (handle : Word) (res : StepResult) (s : State) : Host.Outcome State Fault Refusal :=
  .next (if !s.glb.fwRuns then s
    else match findOp s handle.toNat with
      | none => s
      | some o => opStep o res s)

end Sys2Proof.Machine
end

