-- ==== Sys2Proof/Machine/Boundary.lean ====
section
/-! DEFINITION. Boundary.lean: what falls due at an epoch boundary (R27, R32, R35 to R38, R44 to R49, R85). -/

namespace Sys2Proof.Machine
open Sys2Proof

/-- Bound to nothing, or to the epoch that begins now. -/
def dueNow (at_ : Option Nat) (s : State) : Bool := at_.isNone || at_ == some s.epochs.epoch

/-- The counter increments, and the epoch that begins has the length last written (R35, R37). (DEDUCED, log 26) -/
def nextEpoch (s : State) : State :=
  { s with epochs := { s.epochs with epoch := s.epochs.epoch + 1, lenNow := clampLen s.epochs.len, cutoffDone := false, dtimeAt := dtimeNs s } }

/-- Snapshots due at the boundary record the counters at that instant (R38, R85). (DEDUCED, log 20) -/
def dueSnapshots (s : State) : State :=
  s.ops.foldl (fun t o => match o.kind with
    | .snapshot block link first count clear at_ => if dueNow at_ s then takeSnapshot o block link first count clear t else t
    | _ => t) s

/-- Every pending unit becomes topcoat, unless the mode before the boundary is BOOT or PARK (R46, R49). -/
def commitUnits (s : State) : State := if noRecoat s then s else (List.finRange 32).foldl (fun t i => commitUnit i t) s

/-- A mode command falls due at this boundary. -/
def modeDue (o : LongOp) (s : State) : Bool :=
  match o.kind with
  | .quiesce at_ => dueNow at_ s
  | .resume at_ => dueNow at_ s
  | .maintain => true
  | _ => false

/-- A held mode command takes effect, or ends MODE_WRONG where the mode no longer allows it (R27, R32, R74). (DEDUCED, log 22) -/
def takeModeOp (o : LongOp) (s : State) : State :=
  let go (m : Mode) : State := opDone o .ok [] (changeMode m .ownerCommand s)
  match o.kind, s.glb.mode with
  | .quiesce _, .service => go .quiesce
  | .quiesce _, .degraded => go .quiesce
  | .resume _, .quiesce => kickQueues (fun _ _ => true) (go (if s.glb.degradedPending then .degraded else s.glb.quiesceFrom))
  | .maintain, .quiesce => if s.glb.drainComplete then go .maintenance else opDone o .modeWrong [] s
  | _, _ => opDone o .modeWrong [] s

/-- PARK from QUIESCE takes effect (R27); it waits for a FUSE_PROGRAM to end (R80). -/
def takePark (s : State) : State :=
  match s.glb.parkDue, s.glb.mode with
  | some d, .quiesce => if fuseRuns s then s else startPark d s
  | _, _ => s

/-- An automatic transition takes effect; the mode commands that meet it end MODE_WRONG (R32). (DEDUCED, log 22) -/
def takeAuto (m : Mode) (c : Cause) (s : State) : State :=
  let s1 := changeMode m c s
  let s2 := if s.glb.mode = .quiesce then { s1 with glb := { s1.glb with parkDue := none } } else s1
  s2.ops.foldl (fun t o => if modeDue o s2 || (isModeOp o && m == .maintenance) then opDone o .modeWrong [] t else t) s2

/-- The transitions of the boundary, in the order their commands were accepted (R27, R32). (DEDUCED, log 22) -/
def dueModes (s : State) : State :=
  match s.glb.autoNext with
  | some (m, c) => takeAuto m c s
  | none =>
    let before := (s.glb.parkDue.map (·.before)).getD []
    let run (early : Bool) (t : State) : State :=
      (t.ops.filter fun o => modeDue o t && before.contains o.handle == early).foldl (fun t o => takeModeOp o t) t
    run false (takePark (run true s))

/-- Waits whose epoch has come end (R53). -/
def dueWaits (s : State) : State :=
  s.ops.foldl (fun t o => match o.kind with
    | .epochWait n => if n ≤ s.epochs.epoch then opDone o .ok [] t else t
    | _ => t) s

/-- EPOCH_BOUNDARY (R35 to R37, R46). -/
def execEpochBoundary (s : State) : Host.Outcome State Fault Refusal :=
  .next (if !s.glb.powered || s.glb.stage == .inReset then s
    else imbalance (spreadBoundary (swapSpares (dueWaits (dueModes (commitUnits (dueSnapshots (nextEpoch s))))))))

end Sys2Proof.Machine
end

