-- ==== Sys2Proof/Machine/Klb.lean ====
section
/-! DEFINITION. Klb.lean: the Klobunel monitor: the line, debug authorisation and the commands (R468 to R479). -/

namespace Sys2Proof.Machine
open Sys2Proof

/-! The line (R468 to R470, R473) -/

/-- Who serves the monitor ("Where the monitor runs"). -/
inductive KlbServer where
  | nobody | rom | firmware | parked
deriving DecidableEq, Repr

/-- Where a command is served: always where the monitor runs, also by the ROM, or by management firmware alone. -/
inductive KlbPlace where
  | always | romToo | firmwareOnly
deriving DecidableEq, Repr

/-- A reply: data lines, and the status of the final line. -/
structure KlbReply where
  state : State
  lines : List (String × List Nat)
  status : Status

/-- Who serves the monitor now. -/
def klbServer (s : State) : KlbServer :=
  if s.glb.stage = .recovery then .rom
  else if !s.glb.fwRuns then .nobody
  else if s.glb.mode = .park then .parked
  else .firmware

/-- The final line. -/
def finalLine : Status → Out
  | .ok => .uart "OK" []
  | st => .uart "ERR" [st.code]

/-- A command is answered: data lines, the final line and the prompt (R469). (DEDUCED, log 77) -/
def klbAnswer (lines : List (String × List Nat)) (st : Status) (s : State) : State :=
  emit (.uart "klb> " []) (emit (finalLine st) (lines.foldl (fun s l => emit (.uart l.1 l.2) s) s))

/-- A counter of R479. -/
def countDbg (n : Nat) (s : State) : State := count 0x10 0 n 1 s

/-- The grant of the session: bit 0 OBSERVE, bit 1 CONTROL, bit 2 SECURE; 0 without one. -/
def grantOf (s : State) : Nat := s.klb.session.elim 0 fun x => x.grant

/-- What a command needs (R473). -/
inductive Need where
  | anyone | observe | control | secure
deriving DecidableEq, Repr

/-- The session has what a command needs; CONTROL includes OBSERVE. -/
def granted (s : State) : Need → Bool
  | .anyone => true
  | .observe => bitAt (grantOf s) 0 || bitAt (grantOf s) 1
  | .control => bitAt (grantOf s) 1
  | .secure => bitAt (grantOf s) 2

/-- The server serves the command. (DEDUCED, log 76) -/
def serves : KlbServer → KlbPlace → Bool
  | .nobody, _ => false
  | .firmware, _ => true
  | .rom, .firmwareOnly => false
  | .rom, _ => true
  | .parked, .always => true
  | .parked, _ => false

/-- A line is discarded, refused for the mode or the grant, or carried out (R470, R473). -/
def runKlb (place : KlbPlace) (allowed : Bool) (act : State → KlbReply) (s : State) : State :=
  if klbServer s = .nobody then s
  else if !serves (klbServer s) place then klbAnswer [] .modeWrong s
  else if !allowed then klbAnswer [] .notPermitted (countDbg 2 s)
  else klbAnswer (act s).lines (act s).status (act s).state

/-- A reply without data. -/
def reply0 (st : Status) (s : State) : KlbReply := { state := s, lines := [], status := st }

/-- A line beyond 4,096 characters (R469). -/
def execKlbLineTooLong (s : State) : Host.Outcome State Fault Refusal :=
  .next (if klbServer s = .nobody then s else klbAnswer [] .badLength (countDbg 3 s))

/-- The commands a session may use (R473). -/
def usable (s : State) : List String :=
  let open_ := klbServer s != .rom
  ["HELP", "VER", "STATUS", "BAUD", "IMG"] ++ (if open_ then ["AUTH"] else [])
    ++ (if granted s .observe || granted s .secure then ["RD"] else [])
    ++ (if granted s .observe then ["MRD", "HOD", "THREADS", "REGS"] else [])
    ++ (if granted s .control || granted s .secure then ["WR"] else [])
    ++ (if granted s .control then ["MWR", "HALT", "RESUME", "STEP", "KILL", "SETREG", "BP"] else [])
    ++ (if granted s .secure then ["KEYS"] else [])

/-- HELP. -/
def execHelp (s : State) : Host.Outcome State Fault Refusal :=
  .next (runKlb .romToo true (fun s => { state := s, lines := (usable s).map fun n => (n, []), status := .ok }) s)

/-- VER. -/
def execVer (s : State) : Host.Outcome State Fault Refusal :=
  .next (runKlb .romToo true (fun s =>
    { state := s, lines := [("VER", [0x8256, 0xA1, s.nv.lifecycle, Config.romVersion, s.sec.sequence, s.sec.version])], status := .ok }) s)

/-- STATUS. -/
def execStatus (s : State) : Host.Outcome State Fault Refusal :=
  .next (runKlb .always true (fun s =>
    { state := s
      lines := [("STATUS", [glbModeWord s, s.epochs.epoch, b2n s.glb.degradedPending, min s.bist.phase 8, grantOf s, secondsLeft s])]
      status := .ok }) s)

/-- The rates of R468. -/
def bauds : List Nat := [115200, 230400, 460800, 921600, 1500000, 3000000]

/-- BAUD (R468). -/
def execBaud (n : Nat) (s : State) : Host.Outcome State Fault Refusal :=
  .next (runKlb .romToo true (fun s => if bauds.contains n then reply0 .ok (modKlb (fun k => { k with baud := n }) s) else reply0 .badParam s) s)

/-! Debug authorisation (R471 to R474) -/

/-- Bytes of an authorisation record. -/
def recordLen : Nat := 8448

/-- AUTH NONCE: 32 bytes from the random source, kept with the time of issue. -/
def issueNonce (s : State) : KlbReply :=
  let n := (Config.freeBytes s.drawn 32 ++ List.replicate 32 0).take 32
  { state := modKlb (fun k => { k with nonce := some (n, nowNs s) }) (drawn1 s), lines := [("NONCE", n.map (·.toNat))], status := .ok }

/-- AUTH_NONCE (R472). -/
def execAuthNonce (s : State) : Host.Outcome State Fault Refusal := .next (runKlb .firmwareOnly true issueNonce s)

/-- AUTH LOAD: at most 1,024 bytes at a multiple of 8 within the record. -/
def loadRecord (offset : Nat) (data : List Byte) (s : State) : KlbReply :=
  if offset % 8 ≠ 0 ∨ 1024 < data.length ∨ recordLen < offset + data.length then reply0 .badParam s
  else reply0 .ok (modKlb (fun k => { k with record := Mem.writeBytes k.record 0 offset data }) s)

/-- AUTH_LOAD (R473). -/
def execAuthLoad (offset : Nat) (data : List Byte) (s : State) : Host.Outcome State Fault Refusal :=
  .next (runKlb .firmwareOnly true (loadRecord offset data) s)

/-- "UTVK-DEBUG". -/
def debugContext : List Byte := [0x55, 0x54, 0x56, 0x4B, 0x2D, 0x44, 0x45, 0x42, 0x55, 0x47]

/-- The record as loaded. -/
def authRecord (s : State) : List Byte := Mem.readBytes s.klb.record 0 0 recordLen

/-- KEY_INDEX, GRANT and DURATION of a record (R471). -/
def recKeyIndex (r : List Byte) : Nat := hdr r 0x08 1 % 4
def recGrant (r : List Byte) : Nat := hdr r 0x0C 1 % 8
def recDuration (r : List Byte) : Nat := hdr r 0x10 4

/-- The nonce of a record is the latest issued, unused and less than 10 minutes old. -/
def nonceGood (s : State) (r : List Byte) : Bool :=
  s.klb.nonce.any fun n => slice r 0x20 32 == n.1 && decide (nowNs s < n.2 + 600 * 1000000000)

/-- The checks of R472. (DEDUCED, log 76) -/
def authGood (s : State) (r : List Byte) : Bool :=
  hdr r 0 4 == 0x41445455 && hdr r 4 2 == 1 && zeroes r 0x40 192 && recGrant r != 0
    && hdr r 0x18 8 == Config.deviceSerial % 2 ^ 64
    && nonceGood s r
    && keyGood s (recKeyIndex r)
    && signed s (recKeyIndex r) (slice r 0x100 0x2000) (slice r 0 0x100) debugContext
    && (s.nv.lifecycle != 1 || 2 ≤ recKeyIndex r)
    && decide (60 ≤ recDuration r) && decide (recDuration r ≤ 28800)

/-- A session starts under an accepted record; an earlier one ends first (R472). -/
def startSession (r : List Byte) (s : State) : State :=
  let s1 := modKlb (fun k => { k with session := some {
    grant := recGrant r, keyIndex := recKeyIndex r, endsAt := dtimeNs s + recDuration r * 1000000000 } }) (endSession s)
  extend 6 (Config.sha384 r) s1

/-- AUTH CHECK: the record is accepted, or refused; its nonce is spent. -/
def checkRecord (s : State) : KlbReply :=
  let r := authRecord s
  let spent (s : State) : State := modKlb (fun k => { k with nonce := none }) s
  if authGood s r then
    { state := countDbg 0 (spent (startSession r s)), lines := [("GRANT", [recGrant r]), ("SECONDS", [recDuration r])], status := .ok }
  else reply0 .keyRefused (countDbg 1 (spent s))

/-- AUTH_CHECK (R472). -/
def execAuthCheck (s : State) : Host.Outcome State Fault Refusal := .next (runKlb .firmwareOnly true checkRecord s)

/-- AUTH_END (R474). -/
def execAuthEnd (s : State) : Host.Outcome State Fault Refusal :=
  .next (runKlb .firmwareOnly true (fun s => reply0 .ok (endSession s)) s)

/-- SESSION_EXPIRY (R474). -/
def execSessionExpiry (s : State) : Host.Outcome State Fault Refusal := .next (endSession s)

/-! Registers (R470, R473) -/

/-- An address of SEC or CRYPT. -/
def secureAddr (a : Nat) : Bool := a / 0x1000000 == 0x0E || a / 0x1000000 == 0x0B

/-- The session may read an address. -/
def klbMayRead (s : State) (a : Nat) : Bool := granted s (if secureAddr a then .secure else .observe)

/-- The session may write an address; SEC and CRYPT in MAINTENANCE only. (DEDUCED, log 76) -/
def klbMayWrite (s : State) (a : Nat) : Bool :=
  if secureAddr a then granted s .secure && s.glb.mode == .maintenance else granted s .control

/-- Words of the control space from an address on. -/
def readWords : (n a : Nat) → State → List Nat × State
  | 0, _, s => ([], s)
  | n + 1, a, s => ((readReg a s).1 :: (readWords n (a + 4) (readReg a s).2).1, (readWords n (a + 4) (readReg a s).2).2)

/-- RD: 1 to 64 words within the space. -/
def klbRead (a n : Nat) (s : State) : KlbReply :=
  if n < 1 ∨ 64 < n ∨ 2 ^ 32 < a + 4 * n then reply0 .badParam s
  else { state := (readWords n a s).2, lines := [("RD", (readWords n a s).1)], status := .ok }

/-- The words of a read that the grant is asked for. -/
def readAddrs (a n : Nat) : List Nat := (upFrom 0 (min n 64)).map fun i => a + 4 * i

/-- KLB_RD (R7, R473). -/
def execKlbRd (addr : Word) (n : Nat) (s : State) : Host.Outcome State Fault Refusal :=
  let allowed := (klbMayRead s addr.toNat) && (readAddrs addr.toNat n).all (klbMayRead s)
  if klbServer s = .firmware ∧ allowed ∧ addr.toNat % 4 ≠ 0 then .refused (.undefinedCase 7)
  else .next (runKlb .firmwareOnly allowed (klbRead addr.toNat n) s)

/-- KLB_WR (R470): the register write, and then the answer. -/
def execKlbWr (addr v : Word) (s : State) : Host.Outcome State Fault Refusal :=
  if klbServer s = .firmware ∧ klbMayWrite s addr.toNat then
    match execRegisterWrite addr v s with
    | .next t => .next (klbAnswer [] .ok t)
    | .fault f => .fault f
    | .refused r => .refused r
  else .next (runKlb .firmwareOnly (klbMayWrite s addr.toNat) (reply0 .ok) s)

/-! Memories (R362, R473) -/

/-- Bytes as the numbers of a data line. (DEDUCED, log 77) -/
def dataLine (label : String) (bs : List Byte) : List (String × List Nat) := [(label, bs.map (·.toNat))]

/-- A hod range that fails R204: its record names the monitor. (DEDUCED, log 24) -/
def klbViolation (align : Bool) (h off n : Nat) (s : State) : State := hodViolation align h off n 0xFFFF 0xF s

/-- What the monitor reads of a region; of poisoned data the bytes are free values (R415). -/
def klbBytes (ck : Nat) (r : Region) (n : Nat) (s : State) : KlbReply :=
  if poisonedAt s ck r n then
    { state := drawn1 s, lines := dataLine "DATA" ((Config.freeBytes s.drawn n ++ List.replicate n 0).take n), status := .ok }
  else { state := s, lines := dataLine "DATA" (readAt s ck r n), status := .ok }

/-- A hod range that a monitor command names, if it passes R204, is held by nobody (R205). (DEDUCED, log 76) -/
def freeHodNamed (s : State) (h off n : Nat) : Bool := (hodCheck s h off n 1).isNone && !hodHeld s h

/-- The region of a monitor access is a range of a hod that nobody holds. -/
def freeHodAt (s : State) (ck a n : Nat) : Bool :=
  match regionOf s ck a n with
  | some (.hod h off) => freeHodNamed s h off n
  | _ => false

/-- MRD. -/
def klbMemRead (ck a n : Nat) (s : State) : KlbReply :=
  if n < 1 ∨ 1024 < n then reply0 .badParam s
  else match regionOf s ck a n with
    | none => reply0 .badParam s
    | some (.hod h off) => (match hodCheck s h off n 1 with
      | some al => reply0 .badParam (klbViolation al h off n s)
      | none => klbBytes ck (.hod h off) n s)
    | some r => klbBytes ck r n s

/-- MWR; a line holds at least one byte. -/
def klbMemWrite (ck a : Nat) (data : List Byte) (s : State) : KlbReply :=
  if data.isEmpty then reply0 .badParam s
  else match regionOf s ck a data.length with
    | none => reply0 .badParam s
    | some (.hod h off) => (match hodCheck s h off data.length 1 with
      | some al => reply0 .badParam (klbViolation al h off data.length s)
      | none => reply0 .ok (writeAt ck (.hod h off) data s))
    | some r => reply0 .ok (writeAt ck r data s)

/-- MRD (R362, R473). -/
def execMrd (cl : Cluster) (co : CoreIx) (addr : DWord) (n : Nat) (s : State) : Host.Outcome State Fault Refusal :=
  let ck := coreNo cl co
  if klbServer s = .firmware ∧ granted s .observe ∧ 1 ≤ n ∧ n ≤ 1024 ∧ freeHodAt s ck addr.toNat n then .refused (.undefinedCase 205)
  else .next (runKlb .firmwareOnly (granted s .observe) (klbMemRead ck addr.toNat n) s)

/-- MWR (R362, R473). -/
def execMwr (cl : Cluster) (co : CoreIx) (addr : DWord) (data : List Byte) (s : State) : Host.Outcome State Fault Refusal :=
  let ck := coreNo cl co
  if klbServer s = .firmware ∧ granted s .control ∧ 1 ≤ data.length ∧ freeHodAt s ck addr.toNat data.length then .refused (.undefinedCase 205)
  else .next (runKlb .firmwareOnly (granted s .control) (klbMemWrite ck addr.toNat data) s)

/-- HOD: 1 to 1,024 bytes of a hod (R204). -/
def klbHodRead (h off n : Nat) (s : State) : KlbReply :=
  if n < 1 ∨ 1024 < n then reply0 .badParam s
  else match hodCheck s h off n 1 with
    | some al => reply0 .badParam (klbViolation al h off n s)
    | none => klbBytes 0 (.hod h off) n s

/-- KLB_HOD (R204, R473). -/
def execKlbHod (handle : Word) (offset n : Nat) (s : State) : Host.Outcome State Fault Refusal :=
  if klbServer s = .firmware ∧ granted s .observe ∧ 1 ≤ n ∧ n ≤ 1024 ∧ freeHodNamed s handle.toNat offset n then .refused (.undefinedCase 205)
  else .next (runKlb .firmwareOnly (granted s .observe) (klbHodRead handle.toNat offset n) s)

/-! Threads (R394, R476) -/

/-- The PC of a context; a FREE one has none, and 0 is shown. -/
def pcOf (s : State) (ck t : Nat) : Nat := (thread s ck t).elim 0 fun th => th.pc

/-- One line for each of the sixteen threads: state and PC. -/
def threadLines (ck : Nat) (s : State) : List (String × List Nat) := (upFrom 0 16).map fun t => ("THREAD", [t, threadCode s ck t, pcOf s ck t])

/-- THREADS (R473). -/
def execThreads (cl : Cluster) (co : CoreIx) (s : State) : Host.Outcome State Fault Refusal :=
  .next (runKlb .firmwareOnly (granted s .observe) (fun s => { state := s, lines := threadLines (coreNo cl co) s, status := .ok }) s)

/-- A thread is HALTED or TRAPPED. -/
def stopped (s : State) (ck t : Nat) : Bool := (thread s ck t).any fun th => th.st == .halted || th.st == .trapped

/-- REGS (R476). -/
def klbRegs (ck t : Nat) (s : State) : KlbReply :=
  match thread s ck t with
  | none => reply0 .badParam s
  | some th => if stopped s ck t then
      { state := s, lines := [("REGS", (upFrom 1 31).map (fun r => (th.x r).toNat) ++ [th.pc, th.eventWord])], status := .ok }
    else reply0 .badParam s

/-- REGS. -/
def execRegs (cl : Cluster) (co : CoreIx) (t : ThreadIx) (s : State) : Host.Outcome State Fault Refusal :=
  .next (runKlb .firmwareOnly (granted s .observe) (klbRegs (coreNo cl co) t.val) s)

/-- SETREG: x1 to x31, or the PC, which leaves the breakpoint the thread stood at. (DEDUCED, log 76) -/
def klbSetReg (ck t : Nat) (r : Option RegNo) (v : Nat) (s : State) : KlbReply :=
  if !stopped s ck t then reply0 .badParam s
  else match r with
    | none => reply0 .ok (modThread ck t (fun th => { th with pc := v, atBp := false }) s)
    | some x => if x.val = 0 then reply0 .badParam s else reply0 .ok (modThread ck t (fun th => th.setX x.val v) s)

/-- SETREG (R476). -/
def execSetreg (cl : Cluster) (co : CoreIx) (t : ThreadIx) (r : Option RegNo) (v : DWord) (s : State) : Host.Outcome State Fault Refusal :=
  .next (runKlb .firmwareOnly (granted s .control) (klbSetReg (coreNo cl co) t.val r v.toNat) s)

/-- The threads of a target: one, the sixteen of a core, or a whole cluster's. -/
def targetThreads (cl : Cluster) (co : Option CoreIx) (t : Option ThreadIx) : List (Nat × Nat) :=
  let cores := match co with
    | some k => [coreNo cl k]
    | none => upFrom (16 * cl.val) 16
  let ts := match t with
    | some x => [x.val]
    | none => upFrom 0 16
  cores.flatMap fun (ck : Nat) => ts.map fun (x : Nat) => (ck, x)

/-- A thread command on each thread of a target; the answer is the resulting states. -/
def onThreads (f : Nat → Nat → State → State) (l : List (Nat × Nat)) (s : State) : KlbReply :=
  let s1 := l.foldl (fun s p => f p.1 p.2 s) s
  { state := s1, lines := l.map fun p => ("THREAD", [p.1 / 16, p.1 % 16, p.2, threadCode s1 p.1 p.2]), status := .ok }

/-- KLB_HALT (R394, R476). -/
def execKlbHalt (cl : Cluster) (co : Option CoreIx) (t : Option ThreadIx) (s : State) : Host.Outcome State Fault Refusal :=
  .next (runKlb .firmwareOnly (granted s .control) (onThreads haltThread (targetThreads cl co t)) s)

/-- KLB_RESUME (R394, R476). -/
def execKlbResume (cl : Cluster) (co : Option CoreIx) (t : Option ThreadIx) (s : State) : Host.Outcome State Fault Refusal :=
  .next (runKlb .firmwareOnly (granted s .control) (onThreads resumeThread (targetThreads cl co t)) s)

/-- What a thread's memory accesses await returns. -/
def settleMem (ck t : Nat) (s : State) : State := loadReturn ck t false (drainAll ck t s)

/-- Up to `n` instructions of one thread, each with its memory accesses; none, where one of them names a hod that nobody holds (R205). -/
def stepLoop (ck t : Nat) : Nat → State → Option State
  | 0, s => some (settleMem ck t s)
  | n + 1, s =>
    let s1 := settleMem ck t s
    if !mayIssue s1 ck t then some s1
    else if namesFreeHod s1 ck t then none
    else stepLoop ck t n (threadStep ck t s1)

/-- A HALTED thread retires up to `n` instructions; a load in flight at the halt is the first. (DEDUCED, log 76) -/
def stepThread (ck t n : Nat) (s : State) : Option State :=
  let inFlight := (thread s ck t).any fun th => th.load.isSome
  (stepLoop ck t (if inFlight then n - 1 else n) (resumeThread ck t s)).map (haltThread ck t)

/-- STEP on a HALTED thread (R476). -/
def execStep (cl : Cluster) (co : CoreIx) (t : ThreadIx) (n : Nat) (s : State) : Host.Outcome State Fault Refusal :=
  let ck := coreNo cl co
  let ready := 1 ≤ n && n ≤ 65536 && (thread s ck t.val).any fun th => th.st == .halted
  let bad : Host.Outcome State Fault Refusal := .next (runKlb .firmwareOnly (granted s .control) (reply0 .badParam) s)
  if klbServer s = .firmware ∧ granted s .control ∧ ready then
    match stepThread ck t.val n s with
    | none => .refused (.undefinedCase 205)
    | some s1 => .next (klbAnswer [("STEP", [threadCode s1 ck t.val, pcOf s1 ck t.val])] .ok s1)
  else bad

/-- KILL (R394). -/
def execKill (cl : Cluster) (co : CoreIx) (t : ThreadIx) (s : State) : Host.Outcome State Fault Refusal :=
  .next (runKlb .firmwareOnly (granted s .control) (fun s => reply0 .ok (killThread (coreNo cl co) t.val s)) s)

/-! Breakpoints (R477) -/

/-- The instruction in memory at an address. -/
def instrAt (s : State) (ck a : Nat) : Nat :=
  let w (n : Nat) : Nat := Mem.readLe (memOf s (instrSpace ck)) 0 a n
  if isShort (w 2) then w 2 else w 4

/-- Bytes of an instruction. -/
def instrLen (i : Nat) : Nat := if isShort i then 2 else 4

/-- BP SET: C.EBREAK or EBREAK takes the instruction's place, which is kept. (DEDUCED, log 76) -/
def setBp (ck a : Nat) (s : State) : KlbReply :=
  let i := instrAt s ck a
  if a % 2 ≠ 0 ∨ 0x10000 < a + instrLen i then reply0 .badParam s
  else if Tbl.has (coreOf s ck).bps a then reply0 .ok s
  else if 64 ≤ (coreOf s ck).bps.length then reply0 .noResource s
  else reply0 .ok (writeAt ck (.instr a) (leBytes (instrLen i) (if isShort i then 0x9002 else 0x00100073))
    (modCore ck (fun c => { c with bps := Tbl.put c.bps a i }) s))

/-- BP CLR: the original instruction comes back. (DEDUCED, log 76) -/
def clearBp (ck a : Nat) (s : State) : KlbReply :=
  match Tbl.find (coreOf s ck).bps a with
  | none => reply0 .entryAbsent s
  | some i => reply0 .ok (modCore ck (fun c => { c with bps := Tbl.del c.bps a }) (restoreBp ck (a, i) s))

/-- BP_SET. -/
def execBpSet (cl : Cluster) (co : CoreIx) (addr : DWord) (s : State) : Host.Outcome State Fault Refusal :=
  .next (runKlb .firmwareOnly (granted s .control) (setBp (coreNo cl co) addr.toNat) s)
/-- BP_CLR. -/
def execBpClr (cl : Cluster) (co : CoreIx) (addr : DWord) (s : State) : Host.Outcome State Fault Refusal :=
  .next (runKlb .firmwareOnly (granted s .control) (clearBp (coreNo cl co) addr.toNat) s)
/-- BP_ON. -/
def execBpOn (s : State) : Host.Outcome State Fault Refusal :=
  .next (runKlb .firmwareOnly (granted s .control) (fun s => reply0 .ok (modCores (fun c => { c with bpOn := true }) s)) s)
/-- BP_OFF. -/
def execBpOff (s : State) : Host.Outcome State Fault Refusal :=
  .next (runKlb .firmwareOnly (granted s .control) (fun s => reply0 .ok (modCores (fun c => { c with bpOn := false }) s)) s)

/-! Keys and images (R475, R478) -/

/-- KEYS: the eight steering keys, each of 11 words, and the DRAM interleave key. -/
def keyLines (s : State) : List (String × List Nat) :=
  (upFrom 0 8).map (fun g => ("STEER", (s.net.keys.toList.drop (11 * g)).take 11)) ++ [("INTERLEAVE", [s.dram.ikey])]

/-- KEYS (R475). -/
def execKeys (s : State) : Host.Outcome State Fault Refusal :=
  .next (runKlb .firmwareOnly (granted s .secure) (fun s => { state := s, lines := keyLines s, status := .ok }) s)

/-- The monitor among the askers of the intake (R478). -/
def monitorRec : Fin 9 := 8

/-- An IMG command: what the last one reported is cleared, and the answer is the intake state (HLINK_REC_STATUS as the monitor sees it). (DEDUCED, log 48) -/
def imgReply (f : State → State) (s : State) : KlbReply :=
  let s1 := f (modRec monitorRec (fun r => { r with chunkDone := false, installDone := false, error := false, code := 0 }) s)
  { state := s1, lines := [("IMG", [recStatus s1 monitorRec])], status := .ok }

/-- IMG DATA takes at most 1,024 bytes. -/
def imgData (data : List Byte) (s : State) : KlbReply :=
  if 1024 < data.length then reply0 .badParam s
  else imgReply (modRec monitorRec fun r => { r with window := Mem.writeBytes [] 0 0 data, len := data.length }) s

/-- IMG_OFFSET. -/
def execImgOffset (v : Nat) (s : State) : Host.Outcome State Fault Refusal :=
  .next (runKlb .romToo true (imgReply (modRec monitorRec fun r => { r with offset := v })) s)
/-- IMG_DATA. -/
def execImgData (data : List Byte) (s : State) : Host.Outcome State Fault Refusal := .next (runKlb .romToo true (imgData data) s)
/-- IMG_COMMIT. -/
def execImgCommit (s : State) : Host.Outcome State Fault Refusal := .next (runKlb .romToo true (imgReply (recCommit monitorRec)) s)
/-- IMG_INSTALL. -/
def execImgInstall (slot : Fin 2) (s : State) : Host.Outcome State Fault Refusal :=
  .next (runKlb .romToo true (imgReply (recInstall monitorRec slot.val)) s)
/-- IMG_ABORT. -/
def execImgAbort (s : State) : Host.Outcome State Fault Refusal := .next (runKlb .romToo true (imgReply (recAbort monitorRec)) s)

end Sys2Proof.Machine
end

