-- ==== Sys2Proof/Machine/NvmeId.lean ====
section
/-! DEFINITION. NvmeId.lean: Identify and Get Log Page (R297, R298, R306, R307, R327). -/

namespace Sys2Proof.Machine
open Sys2Proof

/-! Layouts -/

/-- The bytes of an ASCII text. -/
def ascii (t : String) : List Byte := t.toList.map fun c => BitVec.ofNat 8 c.toNat
/-- A text field: its bytes padded with a byte, cut at its length. -/
def padTo (n : Nat) (pad : Byte) (l : List Byte) : List Byte := (l ++ List.replicate n pad).take n
/-- The digits of a number in hexadecimal, `n` of them. -/
def hexDigits (n v : Nat) : List Byte := ((upFrom 0 n).reverse).map fun i => BitVec.ofNat 8 (if v / 16 ^ i % 16 < 10 then 48 + v / 16 ^ i % 16 else 87 + v / 16 ^ i % 16)
/-- A structure of `n` bytes, 0 but for fields at rising offsets. -/
def layFields (n : Nat) (fields : List (Nat × List Byte)) : List Byte := fields.foldl (fun l f => overwrite l f.1 f.2) (List.replicate n 0)

/-! Identify Controller (R298) -/

/-- The function part of SN: the host link, then the VF number, or p. -/
def snSuffix (h : HostId) (f : Fn) (sep : String) : List Byte :=
  ascii ("h" ++ toString h.val ++ sep ++ (match f with
    | .vf v => toString v.val
    | _ => "p"))

/-- The bytes of a controller's attached namespaces. -/
def attachedBytes (s : State) (k : Nat) : Nat := (nsidsOf s k).foldl (fun n i => n + ((nsAt s k i).map fun r => r.2.size * r.2.block).getD 0) 0
/-- EDSTT (R327): the capacity at 500 MB/s in whole minutes, at least 2. -/
def edstt (s : State) (k : Nat) : Nat := max 2 (ceilDiv (attachedBytes s k) 30000000000)

/-- Identify Controller; fields the spec does not name read 0. (PRESUMED, log 65) -/
def identifyCtrl (h : HostId) (f : Fn) (s : State) : List Byte :=
  let k := fnKey h f
  layFields 4096
    [ (0, leBytes 2 0x7B4D ++ leBytes 2 0x7B4D), (4, padTo 20 0x20 (Config.serialText ++ snSuffix h f "")), (24, padTo 40 0x20 (ascii "Uatevik 8256 NVMe")),
      (64, padTo 8 0x20 (hexDigits 8 s.sec.version)), (77, [9]), (80, leBytes 4 0x20100), (88, leBytes 4 30000000), (111, [1]), (256, leBytes 2 0x12),
      (316, leBytes 2 (edstt s k)), (512, [0x66, 0x44]), (516, leBytes 4 (nnOf f)), (520, leBytes 2 0x0C), (524, [0x04, 0x07]),
      (768, padTo 256 0 (ascii "nqn.2030-04.brynneten.uatevik:8256:" ++ Config.serialText ++ ascii ":" ++ snSuffix h f ":")) ]

/-- Identify Namespace (R302, R307): NSFEAT bit 1, two formats, the atomic unit. (PRESUMED, log 65) -/
def identifyNs (x : Namespace) : List Byte :=
  let u := leBytes 2 (x.atomic / x.block - 1)
  layFields 4096
    [ (0, leBytes 8 x.size ++ leBytes 8 x.size ++ leBytes 8 x.size), (24, [2, 1, if x.block = 4096 then 1 else 0]), (34, u ++ u), (40, u), (44, u),
      (128, leBytes 4 (9 * 65536) ++ leBytes 4 (12 * 65536)) ]

/-- The data of an Identify, or the status that refuses it. (PRESUMED, log 65) -/
def identifyData (h : HostId) (f : Fn) (e : Sqe) (s : State) : Except Nat (List Byte) :=
  let k := fnKey h f
  match e.w 10 % 256 with
  | 0x00 =>
    if e.nsid = 0 ∨ nnOf f < e.nsid then .error 0x0B
    else .ok (((nsAt s k e.nsid).map fun r => identifyNs r.2).getD (List.replicate 4096 0))
  | 0x01 => .ok (identifyCtrl h f s)
  | 0x02 =>
    if 0xFFFFFFFE ≤ e.nsid then .error 0x0B
    else .ok (padTo 4096 0 (((upFrom (e.nsid + 1) (nnOf f - e.nsid)).filter fun i => (nsidsOf s k).contains i).flatMap (leBytes 4)))
  | 0x03 => if (nsAt s k e.nsid).isNone then .error 0x0B else .ok (List.replicate 4096 0)
  | 0x05 => if (nsAt s k e.nsid).isNone then .error 0x0B else .ok (List.replicate 4096 0)
  | 0x06 => .ok (List.replicate 4096 0)
  | _ => .error 0x02

/-- Data of an admin command written to its pages, and its completion. -/
def adminData (h : HostId) (f : Fn) (e : Sqe) (k len : Nat) (data : List Byte) (s : State) : State :=
  if badPrp e len then adminDone e k 0 0x13 s
  else adminDone e k 0 0 (writePages h f (prpPages e len) (data.take len) s)

/-- Identify. -/
def takeIdentify (h : HostId) (f : Fn) (e : Sqe) (k : Nat) (s : State) : State :=
  match identifyData h f e s with
  | .error st => adminDone e k 0 st s
  | .ok d => adminData h f e k 4096 d s

/-- NVME_IDENTIFY. -/
def execNvmeIdentify (h : HostId) (f : Fn) (e : Sqe) (s : State) : Host.Outcome State Fault Refusal := adminRow 0x06 h f e (takeIdentify h f e) s

/-! Log pages -/

/-- Error Information: 64 entries, newest first. -/
def errorLog (c : Ctrl) : List Byte :=
  padTo 4096 0 (c.errors.flatMap fun (x : List Nat) =>
    let g (i : Nat) : Nat := x.getD i 0
    padTo 64 0 (leBytes 8 (g 0) ++ leBytes 2 (g 1) ++ leBytes 2 (g 2) ++ leBytes 2 (2 * g 3) ++ [0, 0] ++ leBytes 8 (g 4) ++ leBytes 4 (g 5)))

/-- SMART / Health: the junction temperature in kelvins, and the counts of the controller. (PRESUMED, log 65) -/
def smartLog (c : Ctrl) (s : State) : List Byte :=
  layFields 512
    [ (1, leBytes 2 ((s.elec.tj * 25 + 27315) / 100).toNat), (3, [100]), (32, leBytes 16 c.readUnits), (48, leBytes 16 c.writeUnits), (64, leBytes 16 c.readCmds),
      (80, leBytes 16 c.writeCmds), (160, leBytes 16 c.mediaErrors), (176, leBytes 16 c.errorCount) ]

/-- Commands Supported and Effects: supported commands, those that change data marked. -/
def effectsLog : List Byte :=
  layFields 4096
    (([0x00, 0x01, 0x02, 0x04, 0x05, 0x06, 0x08, 0x09, 0x0A, 0x0C, 0x14].map fun i => (4 * i, leBytes 4 1)) ++ [(4 * 0x80, leBytes 4 3)]
      ++ ([0x00, 0x02].map fun i => (1024 + 4 * i, leBytes 4 1)) ++ ([0x01, 0x08, 0x09].map fun i => (1024 + 4 * i, leBytes 4 3)))

/-- Device Self-test: the test in progress and the last 20 results. -/
def testLogPage (k : Nat) (s : State) : List Byte :=
  let c := ctrl s k
  let cur := match c.selfTest with
    | none => [0, 0]
    | some t =>
      let total := (testSteps s k t).foldl (· + ·) 0
      [t.code, if total = 0 then 0 else t.steps * 100 / total]
  let entry (x : List Nat) : List Byte :=
    let g (i : Nat) : Nat := x.getD i 0
    padTo 28 0 ([BitVec.ofNat 8 (g 0 * 16 + g 1), BitVec.ofNat 8 (g 2), if g 1 = 7 then 3 else 0, 0] ++ leBytes 8 0 ++ leBytes 4 (g 3) ++ leBytes 8 (g 4))
  padTo 4 0 (cur.map (BitVec.ofNat 8)) ++ (c.testLog.take 20).flatMap entry
    ++ (List.replicate (20 - c.testLog.length) (padTo 28 0 [0x0F])).flatten

/-- A log page, and the event type that reading it clears. (PRESUMED, log 65) -/
def logPage (k lid : Nat) (s : State) : Option (List Byte × Option Nat) :=
  match lid with
  | 0x01 => some (errorLog (ctrl s k), some 0)
  | 0x02 => some (smartLog (ctrl s k) s, some 1)
  | 0x04 => some (padTo 4096 0 ((ctrl s k).changed.flatMap (leBytes 4)), some 2)
  | 0x05 => some (effectsLog, none)
  | 0x06 => some (testLogPage k s, none)
  | _ => none

/-- Get Log Page: reading without Retain Asynchronous Event lets the page's event be reported again, and clears the Changed Namespace List. -/
def takeLogPage (h : HostId) (f : Fn) (e : Sqe) (k : Nat) (s : State) : State :=
  let lid := e.w 10 % 256
  let len := 4 * (e.w 10 / 65536 + e.w 11 % 65536 * 65536 + 1)
  match logPage k lid s with
  | none => adminDone e k 0 0x109 s
  | some (d, type) =>
    if e.w 12 ≠ 0 ∨ e.w 13 ≠ 0 ∨ 2097152 < len then adminDone e k 0 0x02 s
    else if badPrp e len then adminDone e k 0 0x13 s
    else
      let s1 := adminData h f e k len d s
      match type with
      | none => s1
      | some t =>
        if bitAt (e.w 10) 15 then s1
        else reportAers k 2 (modCtrl k (fun c => { c with
          aerMasked := c.aerMasked.filter fun x => x != t, changed := if lid = 0x04 then [] else c.changed }) s1)

/-- NVME_GET_LOG_PAGE. -/
def execNvmeGetLogPage (h : HostId) (f : Fn) (e : Sqe) (s : State) : Host.Outcome State Fault Refusal := adminRow 0x02 h f e (takeLogPage h f e) s

end Sys2Proof.Machine
end

