-- ==== Sys2Proof/Machine/Spdm.lean ====
section
/-! DEFINITION. Spdm.lean: the SPDM responders and DOE Discovery (R92, R444 to R446). Message layouts are PRESUMED, from DSP0274 versions 1.2 and 1.3. -/

namespace Sys2Proof.Machine
open Sys2Proof

/-- The responder instance of a transport: one for each host link, and one for the owner (R444). -/
def spdmIx : SpdmPort → Fin 9
  | .doe h => ⟨h.val, by omega⟩
  | .owner _ => 8

/-- SPDM is served: management firmware runs, not in PARK, and PF0 or the owner's path is present (R444). -/
def spdmServed (r : SpdmPort) (s : State) : Bool :=
  s.glb.fwRuns && s.glb.mode != .park && (match r with
    | .doe h => linkUp s h
    | .owner .smbus => true
    | .owner (.vdm h) => s.nv.ownerVdm == some h)

/-- An instance. -/
def spdm (s : State) (r : SpdmPort) : Spdm := s.sec.spdm[spdmIx r]
/-- An instance changed. -/
def modSpdm (r : SpdmPort) (f : Spdm → Spdm) (s : State) : State := modSec (fun x => { x with spdm := vmod x.spdm (spdmIx r) f }) s

/-- The bytes of a request. -/
def reqBytes (q : SpdmReq) (code : Nat) : List Byte := [q.version, BitVec.ofNat 8 code, q.param1, q.param2] ++ q.body
/-- The bytes of a response. (PRESUMED, log 49) -/
def respBytes (version code p1 p2 : Nat) (body : List Byte) : List Byte := [BitVec.ofNat 8 version, BitVec.ofNat 8 code, BitVec.ofNat 8 p1, BitVec.ofNat 8 p2] ++ body

/-- An ERROR response (code 0x7F). (PRESUMED, log 49) -/
def spdmError (r : SpdmPort) (err data : Nat) (s : State) : State := emit (.spdm r 0x7F err data []) s

/-- A served exchange joins the transcripts and its response is sent. (PRESUMED, log 49) -/
def spdmReply (r : SpdmPort) (q : SpdmReq) (reqCode code p1 p2 : Nat) (body : List Byte) (grow : List Byte → Spdm → Spdm) (s : State) : State :=
  let m := reqBytes q reqCode ++ respBytes (spdm s r).version code p1 p2 body
  emit (.spdm r code p1 p2 body) (modSpdm r (grow m) s)

/-- What an instance must have passed before a request, and the version it must carry: none where the request may be served, else the error. -/
def spdmBars (r : SpdmPort) (q : SpdmReq) (need : Nat) (s : State) : Option Nat :=
  let i := spdm s r
  if i.stage < need then some 4
  else if q.version.toNat ≠ i.version ∧ ¬(need = 1 ∧ i.stage = 1) then some 0x41
  else if q.version.toNat ≠ 0x12 ∧ q.version.toNat ≠ 0x13 then some 0x41
  else none

/-- A message of the negotiation. -/
def growVca (m : List Byte) (i : Spdm) : Spdm := { i with vca := i.vca ++ m, transcript := i.transcript ++ m }
/-- A message that a CHALLENGE covers; it ends a run of measurement messages. -/
def growM (m : List Byte) (i : Spdm) : Spdm := { i with transcript := i.transcript ++ m, measured := [] }

/-- SPDM_GET_VERSION: versions 1.2 and 1.3; the instance starts anew. -/
def execSpdmGetVersion (r : SpdmPort) (q : SpdmReq) (s : State) : Host.Outcome State Fault Refusal :=
  let body : List Byte := [0, 2, 0, 0x12, 0, 0x13]
  .next (if !spdmServed r s then s
    else if q.version.toNat ≠ 0x10 then spdmError r 0x41 0 s
    else spdmReply r q 0x84 0x04 0 0 body growVca (modSpdm r (fun _ => { Spdm.reset with stage := 1, version := 0x10 }) s))

/-- SPDM_GET_CAPABILITIES: CERT_CAP, CHAL_CAP and MEAS_CAP 0b10, CTExponent 20, sizes of 4,096 bytes. -/
def execSpdmGetCapabilities (r : SpdmPort) (q : SpdmReq) (s : State) : Host.Outcome State Fault Refusal :=
  let body : List Byte := [0, 20, 0, 0] ++ leBytes 4 0x16 ++ leBytes 4 4096 ++ leBytes 4 4096
  .next (if !spdmServed r s then s
    else match spdmBars r q 1 s with
      | some e => spdmError r e 0 s
      | none => spdmReply r q 0xE1 0x61 0 0 body growVca (modSpdm r (fun i => { i with stage := 2, version := q.version.toNat }) s))

/-- SPDM_NEGOTIATE_ALGORITHMS: ECDSA P-384, SHA-384 and the DMTF measurement specification, where the request offers them. -/
def execSpdmNegotiateAlgorithms (r : SpdmPort) (q : SpdmReq) (s : State) : Host.Outcome State Fault Refusal :=
  let spec := bitAt (leNat (slice q.body 2 1)) 0
  let asym := bitAt (leNat (slice q.body 4 4)) 7
  let hash := bitAt (leNat (slice q.body 8 4)) 1
  let body : List Byte := leBytes 2 36 ++ [BitVec.ofNat 8 (b2n spec), 0] ++ leBytes 4 (b2n spec * 4) ++ leBytes 4 0x80 ++ leBytes 4 2 ++ List.replicate 16 0
  .next (if !spdmServed r s then s
    else match spdmBars r q 2 s with
      | some e => spdmError r e 0 s
      | none => if !asym || !hash then spdmError r 1 0 s
        else spdmReply r q 0xE3 0x63 0 0 body growVca (modSpdm r (fun i => { i with stage := 3 }) s))

/-- A request that needs the whole negotiation is served by a function of the state, or answered with an error. -/
def spdmRun (r : SpdmPort) (q : SpdmReq) (f : State → State) (s : State) : Host.Outcome State Fault Refusal :=
  .next (if !spdmServed r s then s
    else match spdmBars r q 3 s with
      | some e => spdmError r e 0 s
      | none => f s)

/-- SPDM_GET_DIGESTS: the digest of the slot 0 chain. -/
def execSpdmGetDigests (r : SpdmPort) (q : SpdmReq) (s : State) : Host.Outcome State Fault Refusal :=
  spdmRun r q (fun s => spdmReply r q 0x81 0x01 (if (spdm s r).version = 0x13 then 1 else 0) 1 (Config.sha384 Config.certChain) growM s) s

/-- SPDM_GET_CERTIFICATE: a portion of the slot 0 chain that fits one message. -/
def execSpdmGetCertificate (r : SpdmPort) (q : SpdmReq) (s : State) : Host.Outcome State Fault Refusal :=
  let off := leNat (slice q.body 0 2)
  let want := leNat (slice q.body 2 2)
  let n := min (min want 4088) (Config.certChain.length - off)
  let body : List Byte := leBytes 2 n ++ leBytes 2 (Config.certChain.length - off - n) ++ slice Config.certChain off n
  spdmRun r q (fun s =>
    if q.param1.toNat % 16 ≠ 0 ∨ Config.certChain.length ≤ off ∨ want = 0 then spdmError r 1 0 s
    else spdmReply r q 0x82 0x02 0 0 body growM s) s

/-- One DMTF measurement block (R446). (PRESUMED, log 49) -/
def measBlock (index type : Nat) (value : List Byte) : List Byte :=
  [BitVec.ofNat 8 index, 1] ++ leBytes 2 (value.length + 3) ++ [BitVec.ofNat 8 type] ++ leBytes 2 value.length ++ value

/-- Measurement block i of R446, 1 to 20. -/
def measurement (s : State) (i : Nat) : List Byte :=
  if i ≤ 16 then measBlock i 0x08 (s.sec.mrs[(⟨(i - 1) % 16, Nat.mod_lt _ (by decide)⟩ : Fin 16)])
  else if i = 17 then measBlock 17 0x87 (leBytes 4 s.sec.version ++ leBytes 4 s.nv.minVersion)
  else if i = 18 then measBlock 18 0x86 (leBytes 8 s.sec.sequence)
  else if i = 19 then measBlock 19 0x82 Config.agreementKeys
  else measBlock 20 0x85 [BitVec.ofNat 8 (b2n s.klb.session.isSome + s.sec.slot % 2 * 2 + b2n s.sec.seqTie * 4)]

/-- Every measurement block. -/
def measurements (s : State) : List Byte := (upFrom 1 20).flatMap (measurement s)

/-- SPDM_CHALLENGE: the chain's digest, a nonce, the measurement summary where asked for, and a DeviceID signature over the transcript. -/
def execSpdmChallenge (r : SpdmPort) (q : SpdmReq) (s : State) : Host.Outcome State Fault Refusal :=
  let summary : List Byte := if q.param2.toNat = 0 then [] else Config.sha384 (measurements s)
  let ctx : List Byte := if (spdm s r).version = 0x13 then slice q.body 32 8 else []
  let body : List Byte := Config.sha384 Config.certChain ++ Config.freeBytes s.drawn 32 ++ summary ++ [0, 0] ++ ctx
  spdmRun r q (fun s =>
    if q.param1.toNat ≠ 0 ∨ !([0, 1, 0xFF].contains q.param2.toNat) then spdmError r 1 0 s
    else
      let m := (spdm s r).transcript ++ reqBytes q 0x83 ++ respBytes (spdm s r).version 0x03 0 1 body
      spdmReply r q 0x83 0x03 0 1 (body ++ Config.deviceSign m) (fun _ i => { i with transcript := i.vca, measured := [] }) (drawn1 s)) s

/-- SPDM_GET_MEASUREMENTS (R446): the number of blocks, one block or all, signed where asked for. -/
def execSpdmGetMeasurements (r : SpdmPort) (q : SpdmReq) (s : State) : Host.Outcome State Fault Refusal :=
  let k := q.param2.toNat
  let want := bitAt q.param1.toNat 0
  let record : List Byte := if k = 0 then [] else if k = 0xFF then measurements s else measurement s k
  let blocks := if k = 0 then 0 else if k = 0xFF then 20 else 1
  let ctx : List Byte := if (spdm s r).version = 0x13 then slice q.body (if want then 33 else 0) 8 else []
  let body : List Byte := [BitVec.ofNat 8 blocks] ++ leBytes 3 record.length ++ record ++ Config.freeBytes s.drawn 32 ++ [0, 0] ++ ctx
  spdmRun r q (fun s =>
    if (k ≠ 0xFF ∧ 20 < k) ∨ (want ∧ (slice q.body 32 1).any (· != 0)) then spdmError r 1 0 s
    else
      let n := if k = 0 then 20 else 0
      let m := (spdm s r).vca ++ (spdm s r).measured ++ reqBytes q 0xE0 ++ respBytes (spdm s r).version 0x60 n 0 body
      if want then spdmReply r q 0xE0 0x60 n 0 (body ++ Config.deviceSign m) (fun _ i => { i with measured := [] }) (drawn1 s)
      else spdmReply r q 0xE0 0x60 n 0 body (fun m i => { i with measured := i.measured ++ m }) (drawn1 s)) s

/-- SPDM_UNSUPPORTED_REQUEST: ERROR UnsupportedRequest, naming the request code. -/
def execSpdmUnsupportedRequest (r : SpdmPort) (q : SpdmReq) (s : State) : Host.Outcome State Fault Refusal :=
  .next (if spdmServed r s && !([0x81, 0x82, 0x83, 0x84, 0xE0, 0xE1, 0xE3].contains q.code.toNat) then spdmError r 7 q.code.toNat s else s)

/-- DOE_DISCOVERY (R92, R439): DOE Discovery itself, then CMA-SPDM while management firmware runs. -/
def execDoeDiscovery (h : HostId) (index : Byte) (s : State) : Host.Outcome State Fault Refusal :=
  let cma := s.glb.fwRuns
  let word := if index.toNat = 0 then 0x0001 + b2n cma * 2 ^ 24 else if index.toNat = 1 ∧ cma then 0x0001 + 0x10000 else 0xFFFF
  .next (if linkUp s h then emit (.doe h [0x0001, 3, word]) s else s)

end Sys2Proof.Machine
end

