-- ==== Sys2Proof/Machine/Dispatch.lean ====
section
/-! DEFINITION. Dispatch.lean: one arm per command, each one direct call of its meaning. -/

namespace Sys2Proof.Machine
open Sys2Proof

/-- The effect of one command on everything but the queue. -/
def exec (i : Instr) (s : State) : Host.Outcome State Fault Refusal :=
  match i with
  | .powerOn => Sys2Proof.Machine.execPowerOn s
  | .devRstNAssert pulseNs => Sys2Proof.Machine.execDevRstNAssert pulseNs s
  | .devRstNRelease straps => Sys2Proof.Machine.execDevRstNRelease straps s
  | .rootPllLock => Sys2Proof.Machine.execRootPllLock s
  | .coreRefLost => Sys2Proof.Machine.execCoreRefLost s
  | .coreRefReturned => Sys2Proof.Machine.execCoreRefReturned s
  | .holdoverExpiry => Sys2Proof.Machine.execHoldoverExpiry s
  | .ethRefLost => Sys2Proof.Machine.execEthRefLost s
  | .ethRefReturned => Sys2Proof.Machine.execEthRefReturned s
  | .hostRefLost h => Sys2Proof.Machine.execHostRefLost h s
  | .hostRefReturned h => Sys2Proof.Machine.execHostRefReturned h s
  | .romStage => Sys2Proof.Machine.execRomStage s
  | .loaderStage found => Sys2Proof.Machine.execLoaderStage found s
  | .mgmtFwStage => Sys2Proof.Machine.execMgmtFwStage s
  | .bootDone => Sys2Proof.Machine.execBootDone s
  | .epochBoundary => Sys2Proof.Machine.execEpochBoundary s
  | .armCutoff => Sys2Proof.Machine.execArmCutoff s
  | .graceEnd u => Sys2Proof.Machine.execGraceEnd u s
  | .reloadComplete u => Sys2Proof.Machine.execReloadComplete u s
  | .glbRecoatArmWrite v => Sys2Proof.Machine.execGlbRecoatArmWrite v s
  | .stagedRegisterWrite addr v => Sys2Proof.Machine.execStagedRegisterWrite addr v s
  | .glbEpochLenWrite v => Sys2Proof.Machine.execGlbEpochLenWrite v s
  | .lowWordRead addr => Sys2Proof.Machine.execLowWordRead addr s
  | .readClearRegisterRead addr => Sys2Proof.Machine.execReadClearRegisterRead addr s
  | .registerWrite addr v => Sys2Proof.Machine.execRegisterWrite addr v s
  | .unitFailureInService kind unit => Sys2Proof.Machine.execUnitFailureInService kind unit s
  | .drainComplete => Sys2Proof.Machine.execDrainComplete s
  | .deviceInfo p => Sys2Proof.Machine.execDeviceInfo p s
  | .modeGet p => Sys2Proof.Machine.execModeGet p s
  | .quiesce p => Sys2Proof.Machine.execQuiesce p s
  | .resume p => Sys2Proof.Machine.execResume p s
  | .park p => Sys2Proof.Machine.execPark p s
  | .maintain p => Sys2Proof.Machine.execMaintain p s
  | .deviceReset p => Sys2Proof.Machine.execDeviceReset p s
  | .maintOnNextBoot p => Sys2Proof.Machine.execMaintOnNextBoot p s
  | .degradationRead p => Sys2Proof.Machine.execDegradationRead p s
  | .ownerPathSet p => Sys2Proof.Machine.execOwnerPathSet p s
  | .epochGet p => Sys2Proof.Machine.execEpochGet p s
  | .epochSetLength p => Sys2Proof.Machine.execEpochSetLength p s
  | .recoatArm p => Sys2Proof.Machine.execRecoatArm p s
  | .recoatDisarm p => Sys2Proof.Machine.execRecoatDisarm p s
  | .undercoatReset p => Sys2Proof.Machine.execUndercoatReset p s
  | .epochWait p => Sys2Proof.Machine.execEpochWait p s
  | .opQuery p => Sys2Proof.Machine.execOpQuery p s
  | .opCancel p => Sys2Proof.Machine.execOpCancel p s
  | .longOpStep handle res => Sys2Proof.Machine.execLongOpStep handle res s
  | .quotaSet p => Sys2Proof.Machine.execQuotaSet p s
  | .quotaGet p => Sys2Proof.Machine.execQuotaGet p s
  | .vfQuotaSet p => Sys2Proof.Machine.execVfQuotaSet p s
  | .hostDefaultsSet p => Sys2Proof.Machine.execHostDefaultsSet p s
  | .dramCarveSet p => Sys2Proof.Machine.execDramCarveSet p s
  | .resourceUsage p => Sys2Proof.Machine.execResourceUsage p s
  | .hostVfLimit p => Sys2Proof.Machine.execHostVfLimit p s
  | .parseNodeWrite p => Sys2Proof.Machine.execParseNodeWrite p s
  | .parseNodeRead p => Sys2Proof.Machine.execParseNodeRead p s
  | .parseMalformedSet p => Sys2Proof.Machine.execParseMalformedSet p s
  | .classRuleWrite p => Sys2Proof.Machine.execClassRuleWrite p s
  | .classRuleRead p => Sys2Proof.Machine.execClassRuleRead p s
  | .classProfileSet p => Sys2Proof.Machine.execClassProfileSet p s
  | .classActionWrite p => Sys2Proof.Machine.execClassActionWrite p s
  | .emInsert p => Sys2Proof.Machine.execEmInsert p s
  | .emUpdate p => Sys2Proof.Machine.execEmUpdate p s
  | .emDelete p => Sys2Proof.Machine.execEmDelete p s
  | .emLookup p => Sys2Proof.Machine.execEmLookup p s
  | .emRehash p => Sys2Proof.Machine.execEmRehash p s
  | .lpmAdd p => Sys2Proof.Machine.execLpmAdd p s
  | .lpmDelete p => Sys2Proof.Machine.execLpmDelete p s
  | .lpmLookup p => Sys2Proof.Machine.execLpmLookup p s
  | .lpmLeafPush p => Sys2Proof.Machine.execLpmLeafPush p s
  | .tableStats p => Sys2Proof.Machine.execTableStats p s
  | .schedNodeSet p => Sys2Proof.Machine.execSchedNodeSet p s
  | .schedNodeGet p => Sys2Proof.Machine.execSchedNodeGet p s
  | .hostShareSet p => Sys2Proof.Machine.execHostShareSet p s
  | .policerSet p => Sys2Proof.Machine.execPolicerSet p s
  | .classMapSet p => Sys2Proof.Machine.execClassMapSet p s
  | .spreadSet p => Sys2Proof.Machine.execSpreadSet p s
  | .indirectionSet p => Sys2Proof.Machine.execIndirectionSet p s
  | .spreadLoadRead p => Sys2Proof.Machine.execSpreadLoadRead p s
  | .queueCreate p => Sys2Proof.Machine.execQueueCreate p s
  | .queueDestroy p => Sys2Proof.Machine.execQueueDestroy p s
  | .queueQuery p => Sys2Proof.Machine.execQueueQuery p s
  | .connCreate p => Sys2Proof.Machine.execConnCreate p s
  | .connModify p => Sys2Proof.Machine.execConnModify p s
  | .connDestroy p => Sys2Proof.Machine.execConnDestroy p s
  | .connQuery p => Sys2Proof.Machine.execConnQuery p s
  | .ctxPin p => Sys2Proof.Machine.execCtxPin p s
  | .ctxUnpin p => Sys2Proof.Machine.execCtxUnpin p s
  | .ctxMigrate p => Sys2Proof.Machine.execCtxMigrate p s
  | .hostBackingSet p => Sys2Proof.Machine.execHostBackingSet p s
  | .pathWrite p => Sys2Proof.Machine.execPathWrite p s
  | .pathRead p => Sys2Proof.Machine.execPathRead p s
  | .xportConfig p => Sys2Proof.Machine.execXportConfig p s
  | .nsCreate p => Sys2Proof.Machine.execNsCreate p s
  | .nsBackingSet p => Sys2Proof.Machine.execNsBackingSet p s
  | .nsAttach p => Sys2Proof.Machine.execNsAttach p s
  | .nsDetach p => Sys2Proof.Machine.execNsDetach p s
  | .nsDelete p => Sys2Proof.Machine.execNsDelete p s
  | .driveInfo p => Sys2Proof.Machine.execDriveInfo p s
  | .driveFormat p => Sys2Proof.Machine.execDriveFormat p s
  | .cacheFlush p => Sys2Proof.Machine.execCacheFlush p s
  | .sanitize p => Sys2Proof.Machine.execSanitize p s
  | .remoteTargetSet p => Sys2Proof.Machine.execRemoteTargetSet p s
  | .keyAllocate p => Sys2Proof.Machine.execKeyAllocate p s
  | .keyImport p => Sys2Proof.Machine.execKeyImport p s
  | .keyDestroy p => Sys2Proof.Machine.execKeyDestroy p s
  | .keyQuery p => Sys2Proof.Machine.execKeyQuery p s
  | .importKeySet p => Sys2Proof.Machine.execImportKeySet p s
  | .keyTierSet p => Sys2Proof.Machine.execKeyTierSet p s
  | .keystoreZeroise p => Sys2Proof.Machine.execKeystoreZeroise p s
  | .programLoad p => Sys2Proof.Machine.execProgramLoad p s
  | .programStart p => Sys2Proof.Machine.execProgramStart p s
  | .programStop p => Sys2Proof.Machine.execProgramStop p s
  | .channelGrant p => Sys2Proof.Machine.execChannelGrant p s
  | .coreStatus p => Sys2Proof.Machine.execCoreStatus p s
  | .watchdogSet p => Sys2Proof.Machine.execWatchdogSet p s
  | .selftestRun p => Sys2Proof.Machine.execSelftestRun p s
  | .repairRead p => Sys2Proof.Machine.execRepairRead p s
  | .fuseProgram p => Sys2Proof.Machine.execFuseProgram p s
  | .parkPlanSet p => Sys2Proof.Machine.execParkPlanSet p s
  | .imageStage p => Sys2Proof.Machine.execImageStage p s
  | .imageInstall p => Sys2Proof.Machine.execImageInstall p s
  | .imageInfo p => Sys2Proof.Machine.execImageInfo p s
  | .commitVersion p => Sys2Proof.Machine.execCommitVersion p s
  | .revokeKey p => Sys2Proof.Machine.execRevokeKey p s
  | .ownerKeyProvision p => Sys2Proof.Machine.execOwnerKeyProvision p s
  | .measurementRead p => Sys2Proof.Machine.execMeasurementRead p s
  | .counterRead p => Sys2Proof.Machine.execCounterRead p s
  | .counterSnapshot p => Sys2Proof.Machine.execCounterSnapshot p s
  | .eventMaskSet p => Sys2Proof.Machine.execEventMaskSet p s
  | .violationRead p => Sys2Proof.Machine.execViolationRead p s
  | .unassignedOpcode opcode p => Sys2Proof.Machine.execUnassignedOpcode opcode p s
  | .oversizeCommand c p => Sys2Proof.Machine.execOversizeCommand c p s
  | .hlinkCmdEnableSet c => Sys2Proof.Machine.execHlinkCmdEnableSet c s
  | .hlinkCmdEnableClear c => Sys2Proof.Machine.execHlinkCmdEnableClear c s
  | .hlinkCmdEventEnableWrite c on => Sys2Proof.Machine.execHlinkCmdEventEnableWrite c on s
  | .hlinkCmdSqTail c v => Sys2Proof.Machine.execHlinkCmdSqTail c v s
  | .hlinkCmdRqHead c v => Sys2Proof.Machine.execHlinkCmdRqHead c v s
  | .hlinkCmdEqHead c v => Sys2Proof.Machine.execHlinkCmdEqHead c v s
  | .ownerEventSend tries => Sys2Proof.Machine.execOwnerEventSend tries s
  | .mctpSetEndpointId path op eid => Sys2Proof.Machine.execMctpSetEndpointId path op eid s
  | .mctpGetEndpointId path => Sys2Proof.Machine.execMctpGetEndpointId path s
  | .mctpGetVersionSupport path msgType => Sys2Proof.Machine.execMctpGetVersionSupport path msgType s
  | .mctpGetMessageTypeSupport path => Sys2Proof.Machine.execMctpGetMessageTypeSupport path s
  | .mctpGetVdmSupport path selector => Sys2Proof.Machine.execMctpGetVdmSupport path selector s
  | .mctpMessageDiscarded path ic msgType => Sys2Proof.Machine.execMctpMessageDiscarded path ic msgType s
  | .spdmGetVersion r q => Sys2Proof.Machine.execSpdmGetVersion r q s
  | .spdmGetCapabilities r q => Sys2Proof.Machine.execSpdmGetCapabilities r q s
  | .spdmNegotiateAlgorithms r q => Sys2Proof.Machine.execSpdmNegotiateAlgorithms r q s
  | .spdmGetDigests r q => Sys2Proof.Machine.execSpdmGetDigests r q s
  | .spdmGetCertificate r q => Sys2Proof.Machine.execSpdmGetCertificate r q s
  | .spdmChallenge r q => Sys2Proof.Machine.execSpdmChallenge r q s
  | .spdmGetMeasurements r q => Sys2Proof.Machine.execSpdmGetMeasurements r q s
  | .spdmUnsupportedRequest r q => Sys2Proof.Machine.execSpdmUnsupportedRequest r q s
  | .doeDiscovery h index => Sys2Proof.Machine.execDoeDiscovery h index s
  | .hostAttach h t => Sys2Proof.Machine.execHostAttach h t s
  | .hostDetach h cause => Sys2Proof.Machine.execHostDetach h cause s
  | .hostUnitDefaultsLoad h => Sys2Proof.Machine.execHostUnitDefaultsLoad h s
  | .linkRecoveryEntry h => Sys2Proof.Machine.execLinkRecoveryEntry h s
  | .linkWidthChange h t => Sys2Proof.Machine.execLinkWidthChange h t s
  | .hostLaneFaultInService h lane => Sys2Proof.Machine.execHostLaneFaultInService h lane s
  | .configRequest h r => Sys2Proof.Machine.execConfigRequest h r s
  | .initiateFlr h f => Sys2Proof.Machine.execInitiateFlr h f s
  | .busMasterEnableClear h f => Sys2Proof.Machine.execBusMasterEnableClear h f s
  | .busMasterEnableSet h f => Sys2Proof.Machine.execBusMasterEnableSet h f s
  | .vfEnableClear h f => Sys2Proof.Machine.execVfEnableClear h f s
  | .vfEnableSet h f => Sys2Proof.Machine.execVfEnableSet h f s
  | .d3hotToD0 h f => Sys2Proof.Machine.execD3hotToD0 h f s
  | .msixUnmask h f vector => Sys2Proof.Machine.execMsixUnmask h f vector s
  | .configWrite h f offset v be => Sys2Proof.Machine.execConfigWrite h f offset v be s
  | .hlinkIntxStatusClear h v => Sys2Proof.Machine.execHlinkIntxStatusClear h v s
  | .barMemoryRequest h r => Sys2Proof.Machine.execBarMemoryRequest h r s
  | .ioOrAtomicRequest h f posted => Sys2Proof.Machine.execIoOrAtomicRequest h f posted s
  | .completionReceived h tag status data => Sys2Proof.Machine.execCompletionReceived h tag status data s
  | .completionTimeout h tag => Sys2Proof.Machine.execCompletionTimeout h tag s
  | .tagQuarantineEnd h tag => Sys2Proof.Machine.execTagQuarantineEnd h tag s
  | .pcieLinkError h f e => Sys2Proof.Machine.execPcieLinkError h f e s
  | .txqDoorbell h f q v => Sys2Proof.Machine.execTxqDoorbell h f q v s
  | .rxqDoorbell h f q v => Sys2Proof.Machine.execRxqDoorbell h f q v s
  | .cqDoorbell h f q v => Sys2Proof.Machine.execCqDoorbell h f q v s
  | .txDescriptorReadDone h f q d => Sys2Proof.Machine.execTxDescriptorReadDone h f q d s
  | .txDataReadDone h f q data status => Sys2Proof.Machine.execTxDataReadDone h f q data status s
  | .cqCoalesceTimer h f q => Sys2Proof.Machine.execCqCoalesceTimer h f q s
  | .rxFrameArrival port frame fcsOk fecOk => Sys2Proof.Machine.execRxFrameArrival port frame fcsOk fecOk s
  | .pipelineAdmit pipe => Sys2Proof.Machine.execPipelineAdmit pipe s
  | .recircAdmit pipe => Sys2Proof.Machine.execRecircAdmit pipe s
  | .lpmRecircReadmit pipe => Sys2Proof.Machine.execLpmRecircReadmit pipe s
  | .cipherTileDone pipe => Sys2Proof.Machine.execCipherTileDone pipe s
  | .gauntletKeyFetch tile slot => Sys2Proof.Machine.execGauntletKeyFetch tile slot s
  | .schedSelect root => Sys2Proof.Machine.execSchedSelect root s
  | .timingWheelSlotDue slot => Sys2Proof.Machine.execTimingWheelSlotDue slot s
  | .coarseSlotDue slot => Sys2Proof.Machine.execCoarseSlotDue slot s
  | .dtimeStep v => Sys2Proof.Machine.execDtimeStep v s
  | .dtimeRateWrite v => Sys2Proof.Machine.execDtimeRateWrite v s
  | .rxDeliveryWriteDone h => Sys2Proof.Machine.execRxDeliveryWriteDone h s
  | .txFrameSent port => Sys2Proof.Machine.execTxFrameSent port s
  | .ethApply g => Sys2Proof.Machine.execEthApply g s
  | .ethApplyDone g => Sys2Proof.Machine.execEthApplyDone g s
  | .anComplete port partner => Sys2Proof.Machine.execAnComplete port partner s
  | .anFailedRestart port => Sys2Proof.Machine.execAnFailedRestart port s
  | .trainingDone port ok => Sys2Proof.Machine.execTrainingDone port ok s
  | .alignmentDone port => Sys2Proof.Machine.execAlignmentDone port s
  | .faultSequencesReceived port k => Sys2Proof.Machine.execFaultSequencesReceived port k s
  | .faultSequencesStop port => Sys2Proof.Machine.execFaultSequencesStop port s
  | .alignmentLost port k => Sys2Proof.Machine.execAlignmentLost port k s
  | .alignmentReturnInHold port => Sys2Proof.Machine.execAlignmentReturnInHold port s
  | .holdoffExpiry port => Sys2Proof.Machine.execHoldoffExpiry port s
  | .ethLaneFault lane => Sys2Proof.Machine.execEthLaneFault lane s
  | .hodCarveApply => Sys2Proof.Machine.execHodCarveApply s
  | .hodCarveApplyDone => Sys2Proof.Machine.execHodCarveApplyDone s
  | .txHodWaitEnd h f q => Sys2Proof.Machine.execTxHodWaitEnd h f q s
  | .contextFetchDone d n r => Sys2Proof.Machine.execContextFetchDone d n r s
  | .evictionWriteDone d n ok => Sys2Proof.Machine.execEvictionWriteDone d n ok s
  | .fetchNoVictimRetry d n => Sys2Proof.Machine.execFetchNoVictimRetry d n s
  | .lrdExecutionDone d n psn => Sys2Proof.Machine.execLrdExecutionDone d n psn s
  | .lrdExecutionFailed d n psn => Sys2Proof.Machine.execLrdExecutionFailed d n psn s
  | .lrdAckRx d n => Sys2Proof.Machine.execLrdAckRx d n s
  | .lrdNakRx d n => Sys2Proof.Machine.execLrdNakRx d n s
  | .lrdReadRspRx d n => Sys2Proof.Machine.execLrdReadRspRx d n s
  | .lrdProbeRx d n => Sys2Proof.Machine.execLrdProbeRx d n s
  | .lrdSqDoorbell d n v wrs => Sys2Proof.Machine.execLrdSqDoorbell d n v wrs s
  | .lrdRqDoorbell d n v bufs => Sys2Proof.Machine.execLrdRqDoorbell d n v bufs s
  | .lrdRetransmitTimer d n => Sys2Proof.Machine.execLrdRetransmitTimer d n s
  | .lrdProbeTimer d n => Sys2Proof.Machine.execLrdProbeTimer d n s
  | .lrdAckDelayTimer d n => Sys2Proof.Machine.execLrdAckDelayTimer d n s
  | .lrdRnrTimer d n => Sys2Proof.Machine.execLrdRnrTimer d n s
  | .recentListExpiry d n => Sys2Proof.Machine.execRecentListExpiry d n s
  | .nvmeSqDoorbell h f q v => Sys2Proof.Machine.execNvmeSqDoorbell h f q v s
  | .nvmeCqDoorbell h f q v => Sys2Proof.Machine.execNvmeCqDoorbell h f q v s
  | .nvmeCcEnSet h f cc => Sys2Proof.Machine.execNvmeCcEnSet h f cc s
  | .nvmeCcEnClear h f => Sys2Proof.Machine.execNvmeCcEnClear h f s
  | .nvmeShutdown h f abrupt => Sys2Proof.Machine.execNvmeShutdown h f abrupt s
  | .nvmeIntmsIntmc h f clear v => Sys2Proof.Machine.execNvmeIntmsIntmc h f clear v s
  | .nvmeCreateIoSq h f e => Sys2Proof.Machine.execNvmeCreateIoSq h f e s
  | .nvmeCreateIoCq h f e => Sys2Proof.Machine.execNvmeCreateIoCq h f e s
  | .nvmeDeleteIoSq h f e => Sys2Proof.Machine.execNvmeDeleteIoSq h f e s
  | .nvmeDeleteIoCq h f e => Sys2Proof.Machine.execNvmeDeleteIoCq h f e s
  | .nvmeGetLogPage h f e => Sys2Proof.Machine.execNvmeGetLogPage h f e s
  | .nvmeIdentify h f e => Sys2Proof.Machine.execNvmeIdentify h f e s
  | .nvmeAbort h f e => Sys2Proof.Machine.execNvmeAbort h f e s
  | .nvmeSetFeatures h f e => Sys2Proof.Machine.execNvmeSetFeatures h f e s
  | .nvmeGetFeatures h f e => Sys2Proof.Machine.execNvmeGetFeatures h f e s
  | .nvmeAsyncEventRequest h f e => Sys2Proof.Machine.execNvmeAsyncEventRequest h f e s
  | .nvmeDeviceSelfTest h f e => Sys2Proof.Machine.execNvmeDeviceSelfTest h f e s
  | .nvmeFormatNvm h f e => Sys2Proof.Machine.execNvmeFormatNvm h f e s
  | .nvmeFlush h f e => Sys2Proof.Machine.execNvmeFlush h f e s
  | .nvmeWrite h f e => Sys2Proof.Machine.execNvmeWrite h f e s
  | .nvmeRead h f e => Sys2Proof.Machine.execNvmeRead h f e s
  | .nvmeWriteZeroes h f e => Sys2Proof.Machine.execNvmeWriteZeroes h f e s
  | .nvmeDatasetManagement h f e => Sys2Proof.Machine.execNvmeDatasetManagement h f e s
  | .nvmeUnsupportedCommand h f e => Sys2Proof.Machine.execNvmeUnsupportedCommand h f e s
  | .writeInsertion h f sq cid data => Sys2Proof.Machine.execWriteInsertion h f sq cid data s
  | .wcacheWaitEnd h => Sys2Proof.Machine.execWcacheWaitEnd h s
  | .destageStart ns seg => Sys2Proof.Machine.execDestageStart ns seg s
  | .destageDone ns seg r => Sys2Proof.Machine.execDestageDone ns seg r s
  | .backingReadDone h f sq cid r data => Sys2Proof.Machine.execBackingReadDone h f sq cid r data s
  | .drivePresent d => Sys2Proof.Machine.execDrivePresent d s
  | .driveSurpriseRemoval d linkDrop => Sys2Proof.Machine.execDriveSurpriseRemoval d linkDrop s
  | .driveLinkUp d t => Sys2Proof.Machine.execDriveLinkUp d t s
  | .driveInitialised d found => Sys2Proof.Machine.execDriveInitialised d found s
  | .driveInitTimeout d => Sys2Proof.Machine.execDriveInitTimeout d s
  | .driveCommandTimeout d cid second => Sys2Proof.Machine.execDriveCommandTimeout d cid second s
  | .driveCfs d => Sys2Proof.Machine.execDriveCfs d s
  | .driveCompletion d cid r => Sys2Proof.Machine.execDriveCompletion d cid r s
  | .driveAttnButton d => Sys2Proof.Machine.execDriveAttnButton d s
  | .driveDmaViolation d addr header => Sys2Proof.Machine.execDriveDmaViolation d addr header s
  | .bstatusTimeout target tag => Sys2Proof.Machine.execBstatusTimeout target tag s
  | .remoteDestageRetry ns seg => Sys2Proof.Machine.execRemoteDestageRetry ns seg s
  | .selfTestStep h f failed => Sys2Proof.Machine.execSelfTestStep h f failed s
  | .keyAlarmSource code slot => Sys2Proof.Machine.execKeyAlarmSource code slot s
  | .lookasideJobDone tile => Sys2Proof.Machine.execLookasideJobDone tile s
  | .lookasideSuspend tile => Sys2Proof.Machine.execLookasideSuspend tile s
  | .pageFetchDone tile page data tagOk => Sys2Proof.Machine.execPageFetchDone tile page data tagOk s
  | .coreInstruction cl co => Sys2Proof.Machine.execCoreInstruction cl co s
  | .tfork cl co t rd rs1 rs2 => Sys2Proof.Machine.execTfork cl co t rd rs1 rs2 s
  | .tforkd cl co t rd rs1 rs2 => Sys2Proof.Machine.execTforkd cl co t rd rs1 rs2 s
  | .texit cl co t rs1 => Sys2Proof.Machine.execTexit cl co t rs1 s
  | .tjoin cl co t rd rs1 => Sys2Proof.Machine.execTjoin cl co t rd rs1 s
  | .twait cl co t rd rs1 => Sys2Proof.Machine.execTwait cl co t rd rs1 s
  | .tsignal cl co t rd rs1 rs2 => Sys2Proof.Machine.execTsignal cl co t rd rs1 rs2 s
  | .ttimer cl co t rs1 => Sys2Proof.Machine.execTtimer cl co t rs1 s
  | .tyield cl co t => Sys2Proof.Machine.execTyield cl co t s
  | .hrd cl co t rd ix => Sys2Proof.Machine.execHrd cl co t rd ix s
  | .hwr cl co t ix rs2 => Sys2Proof.Machine.execHwr cl co t ix rs2 s
  | .hswap cl co t rd ix rs2 => Sys2Proof.Machine.execHswap cl co t rd ix rs2 s
  | .hadd cl co t rd ix rs2 => Sys2Proof.Machine.execHadd cl co t rd ix rs2 s
  | .hcas cl co t rd ix rs1 rs2 => Sys2Proof.Machine.execHcas cl co t rd ix rs1 rs2 s
  | .chput cl co t rs2 ix => Sys2Proof.Machine.execChput cl co t rs2 ix s
  | .chcommit cl co t rd rs1 => Sys2Proof.Machine.execChcommit cl co t rd rs1 s
  | .chrecv cl co t rd ix pop => Sys2Proof.Machine.execChrecv cl co t rd ix pop s
  | .wdogKick cl co t => Sys2Proof.Machine.execWdogKick cl co t s
  | .threadTimerExpiry cl co t => Sys2Proof.Machine.execThreadTimerExpiry cl co t s
  | .channelReplyArrival cl co t k => Sys2Proof.Machine.execChannelReplyArrival cl co t k s
  | .hodAlloc cl => Sys2Proof.Machine.execHodAlloc cl s
  | .hodFree cl => Sys2Proof.Machine.execHodFree cl s
  | .hodLink cl => Sys2Proof.Machine.execHodLink cl s
  | .hodNext cl => Sys2Proof.Machine.execHodNext cl s
  | .dmaCopy cl => Sys2Proof.Machine.execDmaCopy cl s
  | .tableRequest cl => Sys2Proof.Machine.execTableRequest cl s
  | .lookasideJob cl => Sys2Proof.Machine.execLookasideJob cl s
  | .emitPort cl => Sys2Proof.Machine.execEmitPort cl s
  | .emitHost cl => Sys2Proof.Machine.execEmitHost cl s
  | .puntRecv cl => Sys2Proof.Machine.execPuntRecv cl s
  | .puntCancel cl => Sys2Proof.Machine.execPuntCancel cl s
  | .puntDelivery cl => Sys2Proof.Machine.execPuntDelivery cl s
  | .waitDeadlock cl co => Sys2Proof.Machine.execWaitDeadlock cl co s
  | .watchdog cl co => Sys2Proof.Machine.execWatchdog cl co s
  | .dramRefresh => Sys2Proof.Machine.execDramRefresh s
  | .rdimmTempRead ch temp => Sys2Proof.Machine.execRdimmTempRead ch temp s
  | .dramAlert ch writeCrc => Sys2Proof.Machine.execDramAlert ch writeCrc s
  | .dramReplayDone ch => Sys2Proof.Machine.execDramReplayDone ch s
  | .dramRetrainDone ch ok => Sys2Proof.Machine.execDramRetrainDone ch ok s
  | .dramRequest r => Sys2Proof.Machine.execDramRequest r s
  | .dramReadEcc ch addr e => Sys2Proof.Machine.execDramReadEcc ch addr e s
  | .patrolScrub ch addr e => Sys2Proof.Machine.execPatrolScrub ch addr e s
  | .pprRepair ch ok => Sys2Proof.Machine.execPprRepair ch ok s
  | .parkEntry => Sys2Proof.Machine.execParkEntry s
  | .parkPhaseEnd found => Sys2Proof.Machine.execParkPhaseEnd found s
  | .thermalSensorSample temps => Sys2Proof.Machine.execThermalSensorSample temps s
  | .avsDecision slow fast => Sys2Proof.Machine.execAvsDecision slow fast s
  | .avsEmergency => Sys2Proof.Machine.execAvsEmergency s
  | .regulatorPoll reg r => Sys2Proof.Machine.execRegulatorPoll reg r s
  | .hlinkRecCommit h => Sys2Proof.Machine.execHlinkRecCommit h s
  | .hlinkRecInstall h slot => Sys2Proof.Machine.execHlinkRecInstall h slot s
  | .hlinkRecAbort h => Sys2Proof.Machine.execHlinkRecAbort h s
  | .klbLineTooLong => Sys2Proof.Machine.execKlbLineTooLong s
  | .help => Sys2Proof.Machine.execHelp s
  | .ver => Sys2Proof.Machine.execVer s
  | .status => Sys2Proof.Machine.execStatus s
  | .baud n => Sys2Proof.Machine.execBaud n s
  | .authNonce => Sys2Proof.Machine.execAuthNonce s
  | .authLoad offset data => Sys2Proof.Machine.execAuthLoad offset data s
  | .authCheck => Sys2Proof.Machine.execAuthCheck s
  | .authEnd => Sys2Proof.Machine.execAuthEnd s
  | .sessionExpiry => Sys2Proof.Machine.execSessionExpiry s
  | .klbRd addr n => Sys2Proof.Machine.execKlbRd addr n s
  | .klbWr addr v => Sys2Proof.Machine.execKlbWr addr v s
  | .mrd cl co addr n => Sys2Proof.Machine.execMrd cl co addr n s
  | .mwr cl co addr data => Sys2Proof.Machine.execMwr cl co addr data s
  | .klbHod handle offset n => Sys2Proof.Machine.execKlbHod handle offset n s
  | .threads cl co => Sys2Proof.Machine.execThreads cl co s
  | .regs cl co t => Sys2Proof.Machine.execRegs cl co t s
  | .setreg cl co t r v => Sys2Proof.Machine.execSetreg cl co t r v s
  | .klbHalt cl co t => Sys2Proof.Machine.execKlbHalt cl co t s
  | .klbResume cl co t => Sys2Proof.Machine.execKlbResume cl co t s
  | .step cl co t n => Sys2Proof.Machine.execStep cl co t n s
  | .kill cl co t => Sys2Proof.Machine.execKill cl co t s
  | .bpSet cl co addr => Sys2Proof.Machine.execBpSet cl co addr s
  | .bpClr cl co addr => Sys2Proof.Machine.execBpClr cl co addr s
  | .bpOn => Sys2Proof.Machine.execBpOn s
  | .bpOff => Sys2Proof.Machine.execBpOff s
  | .keys => Sys2Proof.Machine.execKeys s
  | .imgOffset v => Sys2Proof.Machine.execImgOffset v s
  | .imgData data => Sys2Proof.Machine.execImgData data s
  | .imgCommit => Sys2Proof.Machine.execImgCommit s
  | .imgInstall slot => Sys2Proof.Machine.execImgInstall slot s
  | .imgAbort => Sys2Proof.Machine.execImgAbort s
  | .powerRemoved => Sys2Proof.Machine.execPowerRemoved s
  | .linkRecoveryExit h => Sys2Proof.Machine.execLinkRecoveryExit h s
  | .driveLaneFaultInService d lane => Sys2Proof.Machine.execDriveLaneFaultInService d lane s
  | .keyAlarmSourceCleared code => Sys2Proof.Machine.execKeyAlarmSourceCleared code s
  | .chunkDone ok => Sys2Proof.Machine.execChunkDone ok s
  | .installDone ok => Sys2Proof.Machine.execInstallDone ok s
  | .loadDataReturn cl co t store bad => Sys2Proof.Machine.execLoadDataReturn cl co t store bad s
  | .atsInvalidationRequest h f => Sys2Proof.Machine.execAtsInvalidationRequest h f s

end Sys2Proof.Machine
end

