-- ==== Sys2Proof/Machine/Idle.lean ====
section
/-! DEFINITION. Idle.lean: what the block does with no command waiting (R17, R65, R131). -/

namespace Sys2Proof.Machine
open Sys2Proof

/-- A channel whose fenced commands may go: no long operation of it is live (R65). (DESIGN CHOICE, log 1) -/
def readyChan (s : State) : Option Chan := (s.fenced.find? fun e => (opsOf s e.1).isEmpty).map fun e => e.1

/-- The fenced commands of a channel wait to be taken, in their order. (DESIGN CHOICE, log 1) -/
def unfence (c : Chan) (s : State) : State :=
  { s with
    pending := s.pending ++ (s.fenced.filter fun e => e.1 = c).map (fun e => e.2)
    fenced := s.fenced.filter fun e => e.1 ≠ c }

/-- One 2 ns common period passes; DTIME runs at the rate ETH_DTIME_RATE gives it. (DESIGN CHOICE, log 1) -/
def tick (s : State) : State :=
  if !s.glb.powered then s
  else { s with now := s.now + 1, dtime := s.dtime + (2 * (2 ^ 32 + trim s)).toNat }

/-- With no command waiting, held commands are let go, or time passes. (DESIGN CHOICE, log 1) -/
def idle (s : State) : State :=
  match readyChan s with
  | some c => unfence c s
  | none => tick s

end Sys2Proof.Machine
end

