-- ==== Sys2Proof/Machine/Step.lean ====
section
/-! DEFINITION. Step.lean: one step of the block: the command at the front of the queue, or, where none waits, a fenced command let go or the passing of time. -/

namespace Sys2Proof.Machine
open Sys2Proof

/-- One step: the front command's effect with the rest of the queue waiting; on an empty queue the block's own time goes on (R17, R65, R131). (DESIGN CHOICE, log 1, 82) -/
def step (s : State) : Host.Outcome State Fault Refusal :=
  match s.pending with
  | c :: rest => exec c { s with pending := rest }
  | [] => .next (idle s)

/-- The command a word spells put at the front of the queue; no word of this table spells one. (DESIGN CHOICE, log 2) -/
def State.withFetchWord (s : State) (nbits w : Nat) : State :=
  match decodeTableWord nbits w with
  | none => s
  | some c => { s with pending := c :: s.pending }

end Sys2Proof.Machine
end

