-- ==== Sys2Proof/Safety.lean ====
section
/-! DEFINITION. Safety.lean: the words the claims use: which parts of the state a step leaves alone, the one-way fuses, and when a command packet is taken and refused by nothing. -/

namespace Sys2Proof.Machine
open Sys2Proof

/-- The one-way fuses and the minimum version of the protected store (R432, R433). -/
def fusesOf (v : Nv) : Nat × Nat × Nat := (v.provisioned, v.revoked, v.minVersion)

/-- What GLB_MODE and GLB_MODE_SEQ show of the operating mode: mode, previous mode, cause, and the number of transitions (R33). -/
def modeOf (g : Glb) : Mode × Option Mode × Cause × Word := (g.mode, g.prev, g.cause, g.modeSeq)

/-- The parts of the state: one for each field of State, and within them the fuses (of `nv`), the operating mode (of `glb`) and the epoch counter (of `epochs`). -/
inductive Part where
  | pending | fenced | out | drawn | now | dtime | nv | clk | glb | epochs | owner | rings | ops | hosts | fns | queues | eth | parse | cls | tables | hod | sched | net | ctx | nvme | crypt | cores | dram | sec | klb | elec | degr | bist | carve | violations | counters | regs | fuses | mode | epoch
deriving DecidableEq, Repr

/-- Two states agree in a part. -/
def Part.same (p : Part) (s t : State) : Prop :=
  match p with
  | .pending => t.pending = s.pending
  | .fenced => t.fenced = s.fenced
  | .out => t.out = s.out
  | .drawn => t.drawn = s.drawn
  | .now => t.now = s.now
  | .dtime => t.dtime = s.dtime
  | .nv => t.nv = s.nv
  | .clk => t.clk = s.clk
  | .glb => t.glb = s.glb
  | .epochs => t.epochs = s.epochs
  | .owner => t.owner = s.owner
  | .rings => t.rings = s.rings
  | .ops => t.ops = s.ops
  | .hosts => t.hosts = s.hosts
  | .fns => t.fns = s.fns
  | .queues => t.queues = s.queues
  | .eth => t.eth = s.eth
  | .parse => t.parse = s.parse
  | .cls => t.cls = s.cls
  | .tables => t.tables = s.tables
  | .hod => t.hod = s.hod
  | .sched => t.sched = s.sched
  | .net => t.net = s.net
  | .ctx => t.ctx = s.ctx
  | .nvme => t.nvme = s.nvme
  | .crypt => t.crypt = s.crypt
  | .cores => t.cores = s.cores
  | .dram => t.dram = s.dram
  | .sec => t.sec = s.sec
  | .klb => t.klb = s.klb
  | .elec => t.elec = s.elec
  | .degr => t.degr = s.degr
  | .bist => t.bist = s.bist
  | .carve => t.carve = s.carve
  | .violations => t.violations = s.violations
  | .counters => t.counters = s.counters
  | .regs => t.regs = s.regs
  | .fuses => fusesOf t.nv = fusesOf s.nv
  | .mode => modeOf t.glb = modeOf s.glb
  | .epoch => t.epochs.epoch = s.epochs.epoch

/-- The second state differs from the first in the listed parts at most. -/
def changesOnly (parts : List Part) (s t : State) : Prop := ∀ p, p ∉ parts → p.same s t

/-- A step that completes leaves its state so. -/
def Completes (o : Host.Outcome State Fault Refusal) (P : State → Prop) : Prop := ∃ t, o = .next t ∧ P t

/-- The parts that taking a command packet and answering it may change: the channel, the owner link, the interrupts of the host and its function, the fenced commands, and what leaves the device. -/
def replyParts : List Part := [.fenced, .out, .owner, .rings, .hosts, .fns]

/-- Every part but the queue of waiting commands, the model's clock and the fuses. -/
def everyPart : List Part := [.fenced, .out, .drawn, .dtime, .nv, .clk, .glb, .epochs, .owner, .rings, .ops, .hosts, .fns, .queues, .eth, .parse, .cls, .tables, .hod, .sched, .net, .ctx, .nvme, .crypt, .cores, .dram, .sec, .klb, .elec, .degr, .bist, .carve, .violations, .counters, .regs, .mode, .epoch]

/-- The parts of the state that a command may change, whatever its operands and outcome: every other part is the same after it. -/
def partsOf : Instr → List Part
  | .powerOn => everyPart
  | .devRstNAssert _ => everyPart
  | .devRstNRelease _ => [.glb]
  | .rootPllLock => [.clk, .glb]
  | .coreRefLost => [.clk, .owner, .elec]
  | .coreRefReturned => [.clk, .owner, .elec]
  | .holdoverExpiry => everyPart
  | .ethRefLost => [.clk, .owner, .eth, .elec, .counters]
  | .ethRefReturned => [.clk, .owner, .elec]
  | .hostRefLost _ => replyParts ++ [.drawn, .nv, .clk, .epochs, .ops, .queues, .tables, .hod, .sched, .net, .ctx, .nvme, .crypt, .sec, .elec, .counters]
  | .hostRefReturned _ => [.clk, .owner, .elec]
  | .romStage => [.out, .drawn, .nv, .glb, .owner, .rings, .hosts, .fns, .parse, .cls, .hod, .sched, .net, .crypt, .cores, .dram, .sec, .elec, .degr, .counters, .mode]
  | .loaderStage _ => everyPart
  | .mgmtFwStage => everyPart
  | .bootDone => [.out, .nv, .glb, .owner, .rings, .hosts, .fns, .parse, .cls, .hod, .sched, .net, .crypt, .cores, .dram, .degr, .counters, .mode]
  | .epochBoundary => [.out, .drawn, .nv, .glb, .epochs, .owner, .rings, .ops, .hosts, .fns, .queues, .parse, .cls, .hod, .sched, .net, .crypt, .cores, .dram, .bist, .counters, .mode, .epoch]
  | .armCutoff => [.epochs]
  | .graceEnd _ => [.out, .epochs, .owner, .rings, .ops, .hosts, .fns, .parse]
  | .reloadComplete _ => [.out, .epochs, .owner, .rings, .ops, .hosts, .fns, .parse, .cls, .sched, .net]
  | .glbRecoatArmWrite _ => [.epochs]
  | .stagedRegisterWrite _ _ => [.epochs, .parse]
  | .glbEpochLenWrite _ => [.epochs]
  | .lowWordRead _ => [.out, .drawn, .epochs, .hosts]
  | .readClearRegisterRead _ => [.out, .drawn, .epochs, .hosts]
  | .registerWrite _ _ => [.out, .dtime, .clk, .epochs, .hosts, .fns, .queues, .eth, .parse, .hod, .sched, .net, .nvme, .crypt, .cores, .dram, .counters, .regs]
  | .unitFailureInService _ _ => replyParts ++ [.drawn, .nv, .glb, .epochs, .ops, .queues, .eth, .tables, .hod, .sched, .net, .ctx, .nvme, .crypt, .cores, .dram, .sec, .elec, .degr, .bist, .counters]
  | .drainComplete => [.glb, .owner]
  | .deviceInfo _ => replyParts
  | .modeGet _ => replyParts
  | .quiesce _ => replyParts ++ [.drawn, .ops]
  | .resume _ => replyParts ++ [.drawn, .ops]
  | .park _ => replyParts ++ [.glb]
  | .maintain _ => replyParts ++ [.drawn, .ops]
  | .deviceReset _ => everyPart
  | .maintOnNextBoot _ => replyParts ++ [.nv]
  | .degradationRead _ => replyParts
  | .ownerPathSet _ => replyParts ++ [.nv]
  | .epochGet _ => replyParts
  | .epochSetLength _ => replyParts ++ [.epochs]
  | .recoatArm _ => replyParts ++ [.drawn, .epochs, .ops]
  | .recoatDisarm _ => replyParts ++ [.epochs, .ops]
  | .undercoatReset _ => replyParts ++ [.drawn, .epochs, .ops, .parse, .cls, .sched, .net]
  | .epochWait _ => replyParts ++ [.drawn, .ops]
  | .opQuery _ => replyParts
  | .opCancel _ => replyParts ++ [.epochs, .ops, .tables, .nvme]
  | .longOpStep _ _ => [.out, .drawn, .nv, .glb, .epochs, .owner, .rings, .ops, .hosts, .fns, .queues, .eth, .parse, .cls, .tables, .hod, .sched, .net, .ctx, .nvme, .crypt, .cores, .dram, .sec, .elec, .degr, .bist, .carve, .counters]
  | .quotaSet _ => replyParts ++ [.net]
  | .quotaGet _ => replyParts
  | .vfQuotaSet _ => replyParts ++ [.net]
  | .hostDefaultsSet _ => replyParts ++ [.net]
  | .dramCarveSet _ => replyParts ++ [.drawn, .nv, .ops]
  | .resourceUsage _ => replyParts
  | .hostVfLimit _ => replyParts
  | .parseNodeWrite _ => replyParts ++ [.parse]
  | .parseNodeRead _ => replyParts
  | .parseMalformedSet _ => replyParts ++ [.parse]
  | .classRuleWrite _ => replyParts ++ [.cls]
  | .classRuleRead _ => replyParts
  | .classProfileSet _ => replyParts ++ [.cls]
  | .classActionWrite _ => replyParts ++ [.tables]
  | .emInsert _ => replyParts ++ [.tables]
  | .emUpdate _ => replyParts ++ [.tables]
  | .emDelete _ => replyParts ++ [.tables]
  | .emLookup _ => replyParts
  | .emRehash _ => replyParts ++ [.drawn, .ops, .tables]
  | .lpmAdd _ => replyParts ++ [.drawn, .tables]
  | .lpmDelete _ => replyParts ++ [.drawn, .tables]
  | .lpmLookup _ => replyParts
  | .lpmLeafPush _ => replyParts ++ [.drawn, .ops]
  | .tableStats _ => replyParts
  | .schedNodeSet _ => replyParts ++ [.sched, .net]
  | .schedNodeGet _ => replyParts
  | .hostShareSet _ => replyParts ++ [.sched]
  | .policerSet _ => replyParts ++ [.sched]
  | .classMapSet _ => replyParts ++ [.sched, .net]
  | .spreadSet _ => replyParts ++ [.net]
  | .indirectionSet _ => replyParts ++ [.net]
  | .spreadLoadRead _ => replyParts ++ [.net]
  | .queueCreate _ => replyParts ++ [.drawn, .queues, .net]
  | .queueDestroy _ => replyParts ++ [.drawn, .queues, .hod, .sched, .net]
  | .queueQuery _ => replyParts
  | .connCreate _ => replyParts ++ [.drawn, .queues, .net, .ctx, .counters]
  | .connModify _ => replyParts ++ [.queues, .hod, .ctx, .counters]
  | .connDestroy _ => replyParts ++ [.queues, .hod, .sched, .net, .ctx, .counters]
  | .connQuery _ => replyParts
  | .ctxPin _ => replyParts ++ [.drawn, .ctx, .counters]
  | .ctxUnpin _ => replyParts ++ [.ctx]
  | .ctxMigrate _ => replyParts ++ [.drawn, .ops]
  | .hostBackingSet _ => replyParts ++ [.ctx]
  | .pathWrite _ => replyParts ++ [.ctx]
  | .pathRead _ => replyParts
  | .xportConfig _ => replyParts ++ [.ctx]
  | .nsCreate _ => replyParts ++ [.nvme]
  | .nsBackingSet _ => replyParts ++ [.nvme, .counters]
  | .nsAttach _ => replyParts ++ [.nvme, .counters]
  | .nsDetach _ => replyParts ++ [.drawn, .nv, .ctx, .nvme, .crypt, .counters]
  | .nsDelete _ => replyParts ++ [.drawn, .ops]
  | .driveInfo _ => replyParts
  | .driveFormat _ => replyParts ++ [.drawn, .ops]
  | .cacheFlush _ => replyParts ++ [.drawn, .nv, .ops, .ctx, .nvme, .crypt, .counters]
  | .sanitize _ => replyParts ++ [.drawn, .ops, .nvme]
  | .remoteTargetSet _ => replyParts ++ [.drawn, .nv, .queues, .hod, .sched, .net, .ctx, .nvme, .crypt, .counters]
  | .keyAllocate _ => replyParts ++ [.drawn, .crypt]
  | .keyImport _ => replyParts ++ [.drawn, .nv, .crypt, .counters]
  | .keyDestroy _ => replyParts ++ [.nv, .crypt]
  | .keyQuery _ => replyParts
  | .importKeySet _ => replyParts ++ [.nv, .crypt, .counters]
  | .keyTierSet _ => replyParts ++ [.drawn, .crypt, .counters]
  | .keystoreZeroise _ => replyParts ++ [.nv, .queues, .hod, .sched, .net, .crypt, .cores, .klb, .counters]
  | .programLoad _ => replyParts ++ [.drawn, .ops, .sec]
  | .programStart _ => replyParts ++ [.cores]
  | .programStop _ => replyParts ++ [.hod, .crypt, .cores, .dram, .counters]
  | .channelGrant _ => replyParts ++ [.cores]
  | .coreStatus _ => replyParts
  | .watchdogSet _ => replyParts ++ [.cores]
  | .selftestRun _ => replyParts ++ [.drawn, .ops]
  | .repairRead _ => replyParts
  | .fuseProgram _ => replyParts ++ [.drawn, .ops]
  | .parkPlanSet _ => replyParts ++ [.nv]
  | .imageStage _ => replyParts ++ [.sec]
  | .imageInstall _ => replyParts ++ [.drawn, .ops]
  | .imageInfo _ => replyParts
  | .commitVersion _ => replyParts ++ [.nv, .sec, .fuses]
  | .revokeKey _ => replyParts ++ [.nv, .sec, .fuses]
  | .ownerKeyProvision _ => replyParts ++ [.drawn, .nv, .sec, .violations, .counters, .fuses]
  | .measurementRead _ => replyParts
  | .counterRead _ => replyParts ++ [.nv, .counters]
  | .counterSnapshot _ => replyParts ++ [.drawn, .ops]
  | .eventMaskSet _ => replyParts
  | .violationRead _ => replyParts
  | .unassignedOpcode _ _ => replyParts
  | .oversizeCommand _ _ => [.out, .rings, .hosts, .fns]
  | .hlinkCmdEnableSet _ => [.rings]
  | .hlinkCmdEnableClear _ => replyParts ++ [.epochs, .ops, .tables, .nvme]
  | .hlinkCmdEventEnableWrite _ _ => [.rings]
  | .hlinkCmdSqTail _ _ => [.rings]
  | .hlinkCmdRqHead _ _ => [.rings]
  | .hlinkCmdEqHead _ _ => [.out, .rings, .hosts, .fns]
  | .ownerEventSend _ => [.out, .owner]
  | .mctpSetEndpointId _ _ _ => [.out, .owner]
  | .mctpGetEndpointId _ => [.out]
  | .mctpGetVersionSupport _ _ => [.out, .drawn]
  | .mctpGetMessageTypeSupport _ => [.out]
  | .mctpGetVdmSupport _ _ => [.out]
  | .mctpMessageDiscarded _ _ _ => [.counters]
  | .spdmGetVersion _ _ => [.out, .sec]
  | .spdmGetCapabilities _ _ => [.out, .sec]
  | .spdmNegotiateAlgorithms _ _ => [.out, .sec]
  | .spdmGetDigests _ _ => [.out, .sec]
  | .spdmGetCertificate _ _ => [.out, .sec]
  | .spdmChallenge _ _ => [.out, .drawn, .sec]
  | .spdmGetMeasurements _ _ => [.out, .drawn, .sec]
  | .spdmUnsupportedRequest _ _ => [.out]
  | .doeDiscovery _ _ => [.out]
  | .hostAttach _ _ => [.glb, .owner, .hosts, .parse, .cls, .sched, .net, .degr]
  | .hostDetach _ _ => replyParts ++ [.drawn, .nv, .epochs, .ops, .queues, .tables, .hod, .sched, .net, .ctx, .nvme, .crypt, .sec, .counters]
  | .hostUnitDefaultsLoad _ => [.epochs, .hosts, .net]
  | .linkRecoveryEntry _ => [.hosts]
  | .linkWidthChange _ _ => replyParts ++ [.drawn, .nv, .glb, .epochs, .ops, .queues, .tables, .hod, .sched, .net, .ctx, .nvme, .crypt, .sec, .degr, .counters]
  | .hostLaneFaultInService _ _ => replyParts ++ [.drawn, .nv, .glb, .epochs, .ops, .queues, .tables, .hod, .sched, .net, .ctx, .nvme, .crypt, .sec, .degr, .counters]
  | .configRequest _ _ => [.out, .drawn, .owner, .rings, .hosts, .fns, .violations, .counters]
  | .initiateFlr _ _ => replyParts ++ [.drawn, .nv, .epochs, .ops, .queues, .tables, .hod, .sched, .net, .ctx, .nvme, .crypt, .sec, .counters]
  | .busMasterEnableClear _ _ => [.out, .drawn, .nv, .owner, .rings, .hosts, .fns, .queues, .hod, .sched, .net, .ctx, .nvme, .crypt, .counters]
  | .busMasterEnableSet _ _ => [.out, .drawn, .hosts, .fns, .queues]
  | .vfEnableClear _ _ => replyParts ++ [.drawn, .nv, .epochs, .ops, .queues, .tables, .hod, .sched, .net, .ctx, .nvme, .crypt, .sec, .counters]
  | .vfEnableSet _ _ => [.fns]
  | .d3hotToD0 _ _ => replyParts ++ [.drawn, .nv, .epochs, .ops, .queues, .tables, .hod, .sched, .net, .ctx, .nvme, .crypt, .sec, .counters]
  | .msixUnmask _ _ _ => [.out, .fns]
  | .configWrite _ _ _ _ _ => replyParts ++ [.drawn, .nv, .epochs, .ops, .queues, .tables, .hod, .sched, .net, .ctx, .nvme, .crypt, .sec, .counters]
  | .hlinkIntxStatusClear _ _ => [.out, .hosts]
  | .barMemoryRequest _ _ => replyParts ++ [.drawn, .nv, .epochs, .ops, .queues, .tables, .hod, .ctx, .nvme, .crypt, .sec, .violations, .counters]
  | .ioOrAtomicRequest _ _ _ => [.out, .drawn, .owner, .rings, .hosts, .fns, .violations, .counters]
  | .completionReceived _ _ _ _ => [.out, .drawn, .nv, .owner, .rings, .hosts, .fns, .queues, .hod, .sched, .net, .ctx, .nvme, .crypt, .violations, .counters]
  | .completionTimeout _ _ => [.out, .drawn, .nv, .owner, .rings, .hosts, .fns, .queues, .hod, .sched, .net, .ctx, .nvme, .crypt, .counters]
  | .tagQuarantineEnd _ _ => [.out, .drawn, .hosts]
  | .pcieLinkError _ _ _ => replyParts ++ [.drawn, .nv, .glb, .epochs, .ops, .queues, .tables, .hod, .sched, .net, .ctx, .nvme, .crypt, .sec, .degr, .counters]
  | .txqDoorbell _ _ _ _ => [.out, .drawn, .hosts, .fns, .queues]
  | .rxqDoorbell _ _ _ _ => [.out, .drawn, .hosts, .fns, .queues]
  | .cqDoorbell _ _ _ _ => [.out, .drawn, .hosts, .fns, .queues]
  | .txDescriptorReadDone _ _ _ _ => [.out, .drawn, .owner, .rings, .hosts, .fns, .queues, .hod, .sched, .counters]
  | .txDataReadDone _ _ _ _ _ => [.out, .drawn, .hosts, .fns, .queues, .hod, .sched, .net, .counters]
  | .cqCoalesceTimer _ _ _ => [.out, .hosts, .fns, .queues]
  | .rxFrameArrival _ _ _ _ => [.drawn, .hod, .net, .counters]
  | .pipelineAdmit _ => [.out, .drawn, .nv, .owner, .rings, .hosts, .fns, .queues, .parse, .cls, .hod, .sched, .net, .ctx, .nvme, .crypt, .cores, .counters]
  | .recircAdmit _ => [.out, .drawn, .nv, .owner, .rings, .hosts, .fns, .queues, .parse, .cls, .hod, .sched, .net, .ctx, .nvme, .crypt, .cores, .counters]
  | .lpmRecircReadmit _ => [.out, .drawn, .nv, .owner, .rings, .hosts, .fns, .queues, .parse, .cls, .hod, .sched, .net, .ctx, .nvme, .crypt, .cores, .counters]
  | .cipherTileDone _ => [.out, .drawn, .nv, .owner, .rings, .hosts, .fns, .queues, .hod, .sched, .net, .ctx, .nvme, .crypt, .counters]
  | .gauntletKeyFetch _ _ => [.out, .drawn, .nv, .owner, .rings, .hosts, .fns, .queues, .hod, .sched, .net, .ctx, .nvme, .crypt, .counters]
  | .schedSelect _ => [.out, .drawn, .hosts, .fns, .queues, .hod, .sched, .net, .ctx, .counters]
  | .timingWheelSlotDue _ => [.sched]
  | .coarseSlotDue _ => [.sched]
  | .dtimeStep _ => [.dtime, .sched, .counters]
  | .dtimeRateWrite _ => [.eth]
  | .rxDeliveryWriteDone _ => [.out, .hosts, .fns, .queues, .hod, .net]
  | .txFrameSent _ => [.out, .hosts, .fns, .queues, .hod, .sched, .net, .counters]
  | .ethApply _ => [.out, .hosts, .fns, .queues, .eth, .hod, .sched, .net, .counters]
  | .ethApplyDone _ => [.nv, .owner, .eth]
  | .anComplete _ _ => [.owner, .eth]
  | .anFailedRestart _ => [.eth]
  | .trainingDone _ _ => [.owner, .eth]
  | .alignmentDone _ => [.owner, .eth, .counters]
  | .faultSequencesReceived _ _ => [.out, .owner, .eth, .counters]
  | .faultSequencesStop _ => [.owner, .eth, .counters]
  | .alignmentLost _ _ => [.owner, .eth, .counters]
  | .alignmentReturnInHold _ => [.eth, .counters]
  | .holdoffExpiry _ => [.owner, .eth]
  | .ethLaneFault _ => [.out, .nv, .glb, .owner, .hosts, .fns, .queues, .eth, .hod, .sched, .net, .degr, .counters]
  | .hodCarveApply => [.hod]
  | .hodCarveApplyDone => [.hod]
  | .txHodWaitEnd _ _ _ => [.drawn, .queues, .hod, .counters]
  | .contextFetchDone _ _ _ => [.out, .drawn, .owner, .rings, .hosts, .fns, .queues, .hod, .sched, .net, .ctx, .counters]
  | .evictionWriteDone _ _ _ => [.out, .drawn, .hosts, .ctx, .counters]
  | .fetchNoVictimRetry _ _ => [.out, .drawn, .hosts, .ctx, .counters]
  | .lrdExecutionDone _ _ _ => [.out, .drawn, .nv, .owner, .rings, .hosts, .fns, .queues, .hod, .ctx, .nvme, .crypt, .counters]
  | .lrdExecutionFailed _ _ _ => [.hod, .ctx]
  | .lrdAckRx _ _ => [.out, .hosts, .fns, .queues, .hod, .ctx, .counters]
  | .lrdNakRx _ _ => [.out, .drawn, .nv, .owner, .rings, .hosts, .fns, .queues, .hod, .ctx, .nvme, .crypt, .counters]
  | .lrdReadRspRx _ _ => [.out, .hosts, .fns, .queues, .hod, .ctx, .counters]
  | .lrdProbeRx _ _ => [.hod, .ctx]
  | .lrdSqDoorbell _ _ _ _ => [.out, .drawn, .owner, .rings, .hosts, .fns, .queues, .hod, .ctx, .counters]
  | .lrdRqDoorbell _ _ _ _ => [.out, .owner, .rings, .hosts, .fns, .queues, .hod, .ctx, .counters]
  | .lrdRetransmitTimer _ _ => [.out, .drawn, .nv, .owner, .rings, .hosts, .fns, .queues, .hod, .ctx, .nvme, .crypt, .counters]
  | .lrdProbeTimer _ _ => [.ctx, .counters]
  | .lrdAckDelayTimer _ _ => [.ctx]
  | .lrdRnrTimer _ _ => [.ctx]
  | .recentListExpiry _ _ => [.ctx]
  | .nvmeSqDoorbell _ _ _ _ => [.nvme]
  | .nvmeCqDoorbell _ _ _ _ => [.out, .hosts, .fns, .nvme]
  | .nvmeCcEnSet _ _ _ => [.nvme]
  | .nvmeCcEnClear _ _ => [.out, .drawn, .nv, .owner, .rings, .hosts, .fns, .ctx, .nvme, .crypt, .counters]
  | .nvmeShutdown _ _ _ => [.out, .drawn, .nv, .owner, .rings, .hosts, .fns, .ctx, .nvme, .crypt, .counters]
  | .nvmeIntmsIntmc _ _ _ _ => [.out, .hosts, .nvme]
  | .nvmeCreateIoSq _ _ _ => [.out, .hosts, .fns, .nvme, .counters]
  | .nvmeCreateIoCq _ _ _ => [.out, .hosts, .fns, .nvme, .counters]
  | .nvmeDeleteIoSq _ _ _ => [.out, .drawn, .nv, .owner, .rings, .hosts, .fns, .ctx, .nvme, .crypt, .counters]
  | .nvmeDeleteIoCq _ _ _ => [.out, .hosts, .fns, .nvme, .counters]
  | .nvmeGetLogPage _ _ _ => [.out, .hosts, .fns, .nvme, .counters]
  | .nvmeIdentify _ _ _ => [.out, .hosts, .fns, .nvme, .counters]
  | .nvmeAbort _ _ _ => [.out, .drawn, .nv, .owner, .rings, .hosts, .fns, .ctx, .nvme, .crypt, .counters]
  | .nvmeSetFeatures _ _ _ => [.out, .hosts, .fns, .nvme, .counters]
  | .nvmeGetFeatures _ _ _ => [.out, .hosts, .fns, .nvme, .counters]
  | .nvmeAsyncEventRequest _ _ _ => [.out, .hosts, .fns, .nvme, .counters]
  | .nvmeDeviceSelfTest _ _ _ => [.out, .hosts, .fns, .nvme, .counters]
  | .nvmeFormatNvm _ _ _ => [.out, .drawn, .nv, .owner, .rings, .hosts, .fns, .ctx, .nvme, .crypt, .counters]
  | .nvmeFlush _ _ _ => [.out, .drawn, .nv, .owner, .rings, .hosts, .fns, .ctx, .nvme, .crypt, .counters]
  | .nvmeWrite _ _ _ => [.out, .drawn, .hosts, .fns, .nvme, .counters]
  | .nvmeRead _ _ _ => [.out, .drawn, .nv, .owner, .rings, .hosts, .fns, .ctx, .nvme, .crypt, .counters]
  | .nvmeWriteZeroes _ _ _ => [.out, .drawn, .hosts, .fns, .nvme, .counters]
  | .nvmeDatasetManagement _ _ _ => [.out, .drawn, .hosts, .fns, .nvme, .counters]
  | .nvmeUnsupportedCommand _ _ _ => [.out, .hosts, .fns, .nvme, .counters]
  | .writeInsertion _ _ _ _ _ => [.out, .drawn, .nv, .owner, .rings, .hosts, .fns, .ctx, .nvme, .crypt, .counters]
  | .wcacheWaitEnd _ => [.out, .drawn, .nv, .owner, .rings, .hosts, .fns, .ctx, .nvme, .crypt, .counters]
  | .destageStart _ _ => [.out, .ctx, .nvme, .counters]
  | .destageDone _ _ _ => [.out, .drawn, .nv, .owner, .rings, .hosts, .fns, .ctx, .nvme, .crypt, .counters]
  | .backingReadDone _ _ _ _ _ _ => [.out, .drawn, .nv, .owner, .rings, .hosts, .fns, .ctx, .nvme, .crypt, .counters]
  | .drivePresent _ => [.owner, .nvme]
  | .driveSurpriseRemoval _ _ => [.out, .drawn, .nv, .owner, .rings, .ops, .hosts, .fns, .ctx, .nvme, .crypt, .counters]
  | .driveLinkUp _ _ => [.nvme]
  | .driveInitialised _ _ => [.out, .drawn, .nv, .owner, .rings, .ops, .hosts, .fns, .ctx, .nvme, .crypt, .counters]
  | .driveInitTimeout _ => [.out, .drawn, .nv, .owner, .rings, .ops, .hosts, .fns, .ctx, .nvme, .crypt, .counters]
  | .driveCommandTimeout _ _ _ => [.out, .drawn, .nv, .owner, .rings, .ops, .hosts, .fns, .ctx, .nvme, .crypt, .counters]
  | .driveCfs _ => [.out, .drawn, .nv, .owner, .rings, .ops, .hosts, .fns, .ctx, .nvme, .crypt, .counters]
  | .driveCompletion _ _ _ => [.out, .drawn, .nv, .owner, .rings, .ops, .hosts, .fns, .ctx, .nvme, .crypt, .counters]
  | .driveAttnButton _ => [.owner, .nvme]
  | .driveDmaViolation _ _ _ => [.out, .owner, .rings, .hosts, .fns, .violations, .counters]
  | .bstatusTimeout _ _ => [.out, .drawn, .nv, .owner, .rings, .hosts, .fns, .ctx, .nvme, .crypt, .counters]
  | .remoteDestageRetry _ _ => [.out, .ctx, .nvme, .counters]
  | .selfTestStep _ _ _ => [.drawn, .nvme]
  | .keyAlarmSource _ _ => [.out, .owner, .hosts, .fns, .queues, .hod, .sched, .net, .crypt, .cores, .klb, .counters]
  | .lookasideJobDone _ => [.hod, .crypt, .cores, .counters]
  | .lookasideSuspend _ => [.drawn, .hod, .crypt, .cores, .counters]
  | .pageFetchDone _ _ _ _ => [.crypt, .cores, .counters]
  | .coreInstruction _ _ => [.out, .drawn, .owner, .rings, .hosts, .fns, .hod, .cores, .dram, .violations, .counters]
  | .tfork _ _ _ _ _ _ => [.drawn, .owner, .hod, .cores, .dram, .counters]
  | .tforkd _ _ _ _ _ _ => [.drawn, .owner, .hod, .cores, .dram, .counters]
  | .texit _ _ _ _ => [.drawn, .owner, .hod, .cores, .dram, .counters]
  | .tjoin _ _ _ _ _ => [.drawn, .owner, .hod, .cores, .dram, .counters]
  | .twait _ _ _ _ _ => [.drawn, .owner, .hod, .cores, .dram, .counters]
  | .tsignal _ _ _ _ _ _ => [.drawn, .owner, .hod, .cores, .dram, .counters]
  | .ttimer _ _ _ _ => [.drawn, .owner, .hod, .cores, .dram, .counters]
  | .tyield _ _ _ => [.drawn, .owner, .hod, .cores, .dram, .counters]
  | .hrd _ _ _ _ _ => [.drawn, .owner, .hod, .cores, .dram, .counters]
  | .hwr _ _ _ _ _ => [.drawn, .owner, .hod, .cores, .dram, .counters]
  | .hswap _ _ _ _ _ _ => [.drawn, .owner, .hod, .cores, .dram, .counters]
  | .hadd _ _ _ _ _ _ => [.drawn, .owner, .hod, .cores, .dram, .counters]
  | .hcas _ _ _ _ _ _ _ => [.drawn, .owner, .hod, .cores, .dram, .counters]
  | .chput _ _ _ _ _ => [.drawn, .owner, .hod, .cores, .dram, .counters]
  | .chcommit _ _ _ _ _ => [.drawn, .owner, .hod, .cores, .dram, .counters]
  | .chrecv _ _ _ _ _ _ => [.drawn, .owner, .hod, .cores, .dram, .counters]
  | .wdogKick _ _ _ => [.cores, .counters]
  | .threadTimerExpiry _ _ _ => [.cores]
  | .channelReplyArrival _ _ _ _ => [.cores]
  | .hodAlloc _ => [.drawn, .hod, .cores, .counters]
  | .hodFree _ => [.out, .owner, .rings, .hosts, .fns, .hod, .cores, .violations, .counters]
  | .hodLink _ => [.out, .owner, .rings, .hosts, .fns, .hod, .cores, .violations, .counters]
  | .hodNext _ => [.out, .owner, .rings, .hosts, .fns, .cores, .violations, .counters]
  | .dmaCopy _ => [.out, .owner, .rings, .hosts, .fns, .hod, .cores, .dram, .violations, .counters]
  | .tableRequest _ => [.drawn, .tables, .hod, .cores, .dram]
  | .lookasideJob _ => [.out, .owner, .rings, .hosts, .fns, .crypt, .cores, .violations, .counters]
  | .emitPort _ => [.out, .owner, .rings, .hosts, .fns, .queues, .hod, .sched, .cores, .violations, .counters]
  | .emitHost _ => [.out, .owner, .rings, .hosts, .fns, .hod, .sched, .net, .cores, .violations, .counters]
  | .puntRecv _ => [.cores]
  | .puntCancel _ => [.cores]
  | .puntDelivery _ => [.hod, .cores, .dram, .counters]
  | .waitDeadlock _ _ => [.drawn, .owner, .hod, .cores, .dram, .counters]
  | .watchdog _ _ => [.owner, .hod, .cores, .dram, .counters]
  | .dramRefresh => [.dram, .counters]
  | .rdimmTempRead _ _ => [.dram]
  | .dramAlert _ _ => [.dram, .counters]
  | .dramReplayDone _ => [.dram, .counters]
  | .dramRetrainDone _ _ => [.out, .glb, .owner, .dram, .degr, .counters]
  | .dramRequest _ => [.out, .cores, .dram, .counters]
  | .dramReadEcc _ _ _ => [.out, .cores, .dram, .counters]
  | .patrolScrub _ _ _ => [.cores, .dram, .counters]
  | .pprRepair _ _ => [.out, .nv, .glb, .owner, .dram, .degr, .counters]
  | .parkEntry => replyParts ++ [.drawn, .nv, .glb, .epochs, .ops, .queues, .eth, .tables, .hod, .sched, .net, .ctx, .nvme, .crypt, .cores, .dram, .sec, .klb, .bist, .counters, .mode]
  | .parkPhaseEnd _ => everyPart
  | .thermalSensorSample _ => [.out, .nv, .glb, .owner, .hosts, .fns, .queues, .hod, .sched, .net, .nvme, .crypt, .cores, .klb, .elec, .degr, .counters]
  | .avsDecision _ _ => [.out, .elec, .counters]
  | .avsEmergency => [.out, .elec, .counters]
  | .regulatorPoll _ _ => [.out, .owner, .elec, .counters]
  | .hlinkRecCommit _ => [.out, .hosts, .sec]
  | .hlinkRecInstall _ _ => [.out, .hosts, .sec]
  | .hlinkRecAbort _ => [.out, .drawn, .hosts, .sec]
  | .klbLineTooLong => [.out, .counters]
  | .help => [.out, .counters]
  | .ver => [.out, .counters]
  | .status => [.out, .counters]
  | .baud _ => [.out, .klb, .counters]
  | .authNonce => [.out, .drawn, .klb, .counters]
  | .authLoad _ _ => [.out, .klb, .counters]
  | .authCheck => [.out, .cores, .sec, .klb, .counters]
  | .authEnd => [.out, .cores, .klb, .counters]
  | .sessionExpiry => [.cores, .klb]
  | .klbRd _ _ => [.out, .drawn, .epochs, .hosts, .counters]
  | .klbWr _ _ => [.out, .dtime, .clk, .epochs, .hosts, .fns, .queues, .eth, .parse, .hod, .sched, .net, .nvme, .crypt, .cores, .dram, .counters, .regs]
  | .mrd _ _ _ _ => [.out, .drawn, .owner, .rings, .hosts, .fns, .violations, .counters]
  | .mwr _ _ _ _ => [.out, .owner, .rings, .hosts, .fns, .hod, .cores, .dram, .violations, .counters]
  | .klbHod _ _ _ => [.out, .drawn, .owner, .rings, .hosts, .fns, .violations, .counters]
  | .threads _ _ => [.out, .counters]
  | .regs _ _ _ => [.out, .counters]
  | .setreg _ _ _ _ _ => [.out, .cores, .counters]
  | .klbHalt _ _ _ => [.out, .cores, .counters]
  | .klbResume _ _ _ => [.out, .cores, .counters]
  | .step _ _ _ _ => [.out, .drawn, .owner, .rings, .hosts, .fns, .hod, .cores, .dram, .violations, .counters]
  | .kill _ _ _ => [.out, .hod, .cores, .dram, .counters]
  | .bpSet _ _ _ => [.out, .hod, .cores, .dram, .counters]
  | .bpClr _ _ _ => [.out, .cores, .counters]
  | .bpOn => [.out, .cores, .counters]
  | .bpOff => [.out, .cores, .counters]
  | .keys => [.out, .counters]
  | .imgOffset _ => [.out, .sec, .counters]
  | .imgData _ => [.out, .sec, .counters]
  | .imgCommit => [.out, .hosts, .sec, .counters]
  | .imgInstall _ => [.out, .hosts, .sec, .counters]
  | .imgAbort => [.out, .drawn, .hosts, .sec, .counters]
  | .powerRemoved => everyPart
  | .linkRecoveryExit _ => [.hosts]
  | .driveLaneFaultInService _ _ => [.out, .drawn, .nv, .glb, .owner, .rings, .ops, .hosts, .fns, .ctx, .nvme, .crypt, .degr, .counters]
  | .keyAlarmSourceCleared _ => [.crypt]
  | .chunkDone _ => [.out, .hosts, .sec]
  | .installDone _ => [.out, .nv, .hosts, .sec]
  | .loadDataReturn _ _ _ _ _ => [.out, .owner, .rings, .hosts, .fns, .hod, .cores, .dram, .violations, .counters]
  | .atsInvalidationRequest _ _ => [.out]

/-! Command packets -/

/-- The object a command packet acts on (R67). -/
def namedBy (p : Packet) : Obj := (resolve p).getD .device

/-- A channel takes a command now: a ring channel runs, its slots are covered, its reply ring has room and the slots are read (R61, R63, R70); on the owner channel management firmware runs and the path is the designated one (R55, R57). -/
def chanReady (p : Packet) (s : State) : Bool :=
  match p.chan with
  | .owner => !ownerNotReady p s
  | .ring c => !ringNotReady c p s && p.read == .ok

/-- The state once a command has been taken: its slots are consumed (R61), or the owner has spoken (R83). -/
def onceTaken (p : Packet) (s : State) : State :=
  match p.chan with
  | .owner => ownerSpoke s
  | .ring c => consume c p s

/-- A command packet is taken at once: its channel is ready and FENCE does not hold it. -/
def takes (p : Packet) (s : State) : Bool := chanReady p s && !fenceHolds p s

/-- A command packet is taken and no refusal of R71 applies to it. -/
def accepts (d : CmdDef) (p : Packet) (s : State) : Bool := takes p s && (refusal d p (onceTaken p s)).isNone

/-- A status reply without a long result. -/
def replied (p : Packet) (st : Status) (ws : List Nat) (t : State) : State := writeReply p st false ws [] false t

/-- A status reply that carries a handle (R77). -/
def repliedHandle (p : Packet) (st : Status) (ws : List Nat) (t : State) : State := writeReply p st true ws [] false t

/-- A status reply after its long result (R69). -/
def repliedLong (p : Packet) (ws : List Nat) (t : State) : State := writeReply p .ok false [] ws true t

/-- The long result fits the room its reply has: 4,064 bytes on the owner channel, the packet's buffer elsewhere, which must take the write (R66, R69). -/
def longFits (p : Packet) (n : Nat) : Bool :=
  if p.chan = .owner then 4 * n ≤ 4064 else 4 * n ≤ p.resultLen.toNat && p.writeOk

/-- The entry of a long operation that a packet starts in a state (R77). -/
def opFor (opcode : Nat) (p : Packet) (kind : OpKind) (total : Nat) (t : State) : LongOp := {
  chan := p.chan, serial := freeSerial t p.chan, opcode := opcode, tag := p.tag, vdm := p.vdm, stepsDone := 0, stepsTotal := total, kind := kind,
  committed := false, resultAddr := p.resultAddr.toNat, resultLen := p.resultLen.toNat, orphan := false, notes := [] }

/-- A long operation has started and its IN_PROGRESS reply, with the handle and the target epoch, is written (R77). -/
def begun (opcode : Nat) (p : Packet) (kind : OpKind) (total target : Nat) (t : State) : State :=
  repliedHandle p .inProgress ([(opFor opcode p kind total t).handle, 0] ++ words64 target)
    { t with drawn := t.drawn + 1, ops := t.ops ++ [opFor opcode p kind total t] }

/-- The rows that are command packets of one opcode: the opcode's definition and the packet. -/
def packetOf : Instr → Option (CmdDef × Packet)
  | .deviceInfo p => some (deviceInfoDef, p)
  | .modeGet p => some (modeGetDef, p)
  | .quiesce p => some (quiesceDef, p)
  | .resume p => some (resumeDef, p)
  | .park p => some (parkDef, p)
  | .maintain p => some (maintainDef, p)
  | .deviceReset p => some (deviceResetDef, p)
  | .maintOnNextBoot p => some (maintOnNextBootDef, p)
  | .degradationRead p => some (degradationReadDef, p)
  | .ownerPathSet p => some (ownerPathSetDef, p)
  | .epochGet p => some (epochGetDef, p)
  | .epochSetLength p => some (epochSetLengthDef, p)
  | .recoatArm p => some (recoatArmDef, p)
  | .recoatDisarm p => some (recoatDisarmDef, p)
  | .undercoatReset p => some (undercoatResetDef, p)
  | .epochWait p => some (epochWaitDef, p)
  | .opQuery p => some (opQueryDef, p)
  | .opCancel p => some (opCancelDef, p)
  | .quotaSet p => some (quotaSetDef, p)
  | .quotaGet p => some (quotaGetDef, p)
  | .vfQuotaSet p => some (vfQuotaSetDef, p)
  | .hostDefaultsSet p => some (hostDefaultsSetDef, p)
  | .dramCarveSet p => some (dramCarveSetDef, p)
  | .resourceUsage p => some (resourceUsageDef, p)
  | .hostVfLimit p => some (hostVfLimitDef, p)
  | .parseNodeWrite p => some (parseNodeWriteDef, p)
  | .parseNodeRead p => some (parseNodeReadDef, p)
  | .parseMalformedSet p => some (parseMalformedSetDef, p)
  | .classRuleWrite p => some (classRuleWriteDef, p)
  | .classRuleRead p => some (classRuleReadDef, p)
  | .classProfileSet p => some (classProfileSetDef, p)
  | .classActionWrite p => some (classActionWriteDef, p)
  | .emInsert p => some (emInsertDef, p)
  | .emUpdate p => some (emUpdateDef, p)
  | .emDelete p => some (emDeleteDef, p)
  | .emLookup p => some (emLookupDef, p)
  | .emRehash p => some (emRehashDef, p)
  | .lpmAdd p => some (lpmAddDef, p)
  | .lpmDelete p => some (lpmDeleteDef, p)
  | .lpmLookup p => some (lpmLookupDef, p)
  | .lpmLeafPush p => some (lpmLeafPushDef, p)
  | .tableStats p => some (tableStatsDef, p)
  | .schedNodeSet p => some (schedNodeSetDef, p)
  | .schedNodeGet p => some (schedNodeGetDef, p)
  | .hostShareSet p => some (hostShareSetDef, p)
  | .policerSet p => some (policerSetDef, p)
  | .classMapSet p => some (classMapSetDef, p)
  | .spreadSet p => some (spreadSetDef, p)
  | .indirectionSet p => some (indirectionSetDef, p)
  | .spreadLoadRead p => some (spreadLoadReadDef, p)
  | .queueCreate p => some (queueCreateDef, p)
  | .queueDestroy p => some (queueDestroyDef, p)
  | .queueQuery p => some (queueQueryDef, p)
  | .connCreate p => some (connCreateDef, p)
  | .connModify p => some (connModifyDef, p)
  | .connDestroy p => some (connDestroyDef, p)
  | .connQuery p => some (connQueryDef, p)
  | .ctxPin p => some (ctxPinDef, p)
  | .ctxUnpin p => some (ctxUnpinDef, p)
  | .ctxMigrate p => some (ctxMigrateDef, p)
  | .hostBackingSet p => some (hostBackingSetDef, p)
  | .pathWrite p => some (pathWriteDef, p)
  | .pathRead p => some (pathReadDef, p)
  | .xportConfig p => some (xportConfigDef, p)
  | .nsCreate p => some (nsCreateDef, p)
  | .nsBackingSet p => some (nsBackingSetDef, p)
  | .nsAttach p => some (nsAttachDef, p)
  | .nsDetach p => some (nsDetachDef, p)
  | .nsDelete p => some (nsDeleteDef, p)
  | .driveInfo p => some (driveInfoDef, p)
  | .driveFormat p => some (driveFormatDef, p)
  | .cacheFlush p => some (cacheFlushDef, p)
  | .sanitize p => some (sanitizeDef, p)
  | .remoteTargetSet p => some (remoteTargetSetDef, p)
  | .keyAllocate p => some (keyAllocateDef, p)
  | .keyImport p => some (keyImportDef, p)
  | .keyDestroy p => some (keyDestroyDef, p)
  | .keyQuery p => some (keyQueryDef, p)
  | .importKeySet p => some (importKeySetDef, p)
  | .keyTierSet p => some (keyTierSetDef, p)
  | .keystoreZeroise p => some (keystoreZeroiseDef, p)
  | .programLoad p => some (programLoadDef, p)
  | .programStart p => some (programStartDef, p)
  | .programStop p => some (programStopDef, p)
  | .channelGrant p => some (channelGrantDef, p)
  | .coreStatus p => some (coreStatusDef, p)
  | .watchdogSet p => some (watchdogSetDef, p)
  | .selftestRun p => some (selftestRunDef, p)
  | .repairRead p => some (repairReadDef, p)
  | .fuseProgram p => some (fuseProgramDef, p)
  | .parkPlanSet p => some (parkPlanSetDef, p)
  | .imageStage p => some (imageStageDef, p)
  | .imageInstall p => some (imageInstallDef, p)
  | .imageInfo p => some (imageInfoDef, p)
  | .commitVersion p => some (commitVersionDef, p)
  | .revokeKey p => some (revokeKeyDef, p)
  | .ownerKeyProvision p => some (ownerKeyProvisionDef, p)
  | .measurementRead p => some (measurementReadDef, p)
  | .counterRead p => some (counterReadDef, p)
  | .counterSnapshot p => some (counterSnapshotDef, p)
  | .eventMaskSet p => some (eventMaskSetDef, p)
  | .violationRead p => some (violationReadDef, p)
  | .powerOn => none
  | .devRstNAssert _ => none
  | .devRstNRelease _ => none
  | .rootPllLock => none
  | .coreRefLost => none
  | .coreRefReturned => none
  | .holdoverExpiry => none
  | .ethRefLost => none
  | .ethRefReturned => none
  | .hostRefLost _ => none
  | .hostRefReturned _ => none
  | .romStage => none
  | .loaderStage _ => none
  | .mgmtFwStage => none
  | .bootDone => none
  | .epochBoundary => none
  | .armCutoff => none
  | .graceEnd _ => none
  | .reloadComplete _ => none
  | .glbRecoatArmWrite _ => none
  | .stagedRegisterWrite _ _ => none
  | .glbEpochLenWrite _ => none
  | .lowWordRead _ => none
  | .readClearRegisterRead _ => none
  | .registerWrite _ _ => none
  | .unitFailureInService _ _ => none
  | .drainComplete => none
  | .longOpStep _ _ => none
  | .unassignedOpcode _ _ => none
  | .oversizeCommand _ _ => none
  | .hlinkCmdEnableSet _ => none
  | .hlinkCmdEnableClear _ => none
  | .hlinkCmdEventEnableWrite _ _ => none
  | .hlinkCmdSqTail _ _ => none
  | .hlinkCmdRqHead _ _ => none
  | .hlinkCmdEqHead _ _ => none
  | .ownerEventSend _ => none
  | .mctpSetEndpointId _ _ _ => none
  | .mctpGetEndpointId _ => none
  | .mctpGetVersionSupport _ _ => none
  | .mctpGetMessageTypeSupport _ => none
  | .mctpGetVdmSupport _ _ => none
  | .mctpMessageDiscarded _ _ _ => none
  | .spdmGetVersion _ _ => none
  | .spdmGetCapabilities _ _ => none
  | .spdmNegotiateAlgorithms _ _ => none
  | .spdmGetDigests _ _ => none
  | .spdmGetCertificate _ _ => none
  | .spdmChallenge _ _ => none
  | .spdmGetMeasurements _ _ => none
  | .spdmUnsupportedRequest _ _ => none
  | .doeDiscovery _ _ => none
  | .hostAttach _ _ => none
  | .hostDetach _ _ => none
  | .hostUnitDefaultsLoad _ => none
  | .linkRecoveryEntry _ => none
  | .linkWidthChange _ _ => none
  | .hostLaneFaultInService _ _ => none
  | .configRequest _ _ => none
  | .initiateFlr _ _ => none
  | .busMasterEnableClear _ _ => none
  | .busMasterEnableSet _ _ => none
  | .vfEnableClear _ _ => none
  | .vfEnableSet _ _ => none
  | .d3hotToD0 _ _ => none
  | .msixUnmask _ _ _ => none
  | .configWrite _ _ _ _ _ => none
  | .hlinkIntxStatusClear _ _ => none
  | .barMemoryRequest _ _ => none
  | .ioOrAtomicRequest _ _ _ => none
  | .completionReceived _ _ _ _ => none
  | .completionTimeout _ _ => none
  | .tagQuarantineEnd _ _ => none
  | .pcieLinkError _ _ _ => none
  | .txqDoorbell _ _ _ _ => none
  | .rxqDoorbell _ _ _ _ => none
  | .cqDoorbell _ _ _ _ => none
  | .txDescriptorReadDone _ _ _ _ => none
  | .txDataReadDone _ _ _ _ _ => none
  | .cqCoalesceTimer _ _ _ => none
  | .rxFrameArrival _ _ _ _ => none
  | .pipelineAdmit _ => none
  | .recircAdmit _ => none
  | .lpmRecircReadmit _ => none
  | .cipherTileDone _ => none
  | .gauntletKeyFetch _ _ => none
  | .schedSelect _ => none
  | .timingWheelSlotDue _ => none
  | .coarseSlotDue _ => none
  | .dtimeStep _ => none
  | .dtimeRateWrite _ => none
  | .rxDeliveryWriteDone _ => none
  | .txFrameSent _ => none
  | .ethApply _ => none
  | .ethApplyDone _ => none
  | .anComplete _ _ => none
  | .anFailedRestart _ => none
  | .trainingDone _ _ => none
  | .alignmentDone _ => none
  | .faultSequencesReceived _ _ => none
  | .faultSequencesStop _ => none
  | .alignmentLost _ _ => none
  | .alignmentReturnInHold _ => none
  | .holdoffExpiry _ => none
  | .ethLaneFault _ => none
  | .hodCarveApply => none
  | .hodCarveApplyDone => none
  | .txHodWaitEnd _ _ _ => none
  | .contextFetchDone _ _ _ => none
  | .evictionWriteDone _ _ _ => none
  | .fetchNoVictimRetry _ _ => none
  | .lrdExecutionDone _ _ _ => none
  | .lrdExecutionFailed _ _ _ => none
  | .lrdAckRx _ _ => none
  | .lrdNakRx _ _ => none
  | .lrdReadRspRx _ _ => none
  | .lrdProbeRx _ _ => none
  | .lrdSqDoorbell _ _ _ _ => none
  | .lrdRqDoorbell _ _ _ _ => none
  | .lrdRetransmitTimer _ _ => none
  | .lrdProbeTimer _ _ => none
  | .lrdAckDelayTimer _ _ => none
  | .lrdRnrTimer _ _ => none
  | .recentListExpiry _ _ => none
  | .nvmeSqDoorbell _ _ _ _ => none
  | .nvmeCqDoorbell _ _ _ _ => none
  | .nvmeCcEnSet _ _ _ => none
  | .nvmeCcEnClear _ _ => none
  | .nvmeShutdown _ _ _ => none
  | .nvmeIntmsIntmc _ _ _ _ => none
  | .nvmeCreateIoSq _ _ _ => none
  | .nvmeCreateIoCq _ _ _ => none
  | .nvmeDeleteIoSq _ _ _ => none
  | .nvmeDeleteIoCq _ _ _ => none
  | .nvmeGetLogPage _ _ _ => none
  | .nvmeIdentify _ _ _ => none
  | .nvmeAbort _ _ _ => none
  | .nvmeSetFeatures _ _ _ => none
  | .nvmeGetFeatures _ _ _ => none
  | .nvmeAsyncEventRequest _ _ _ => none
  | .nvmeDeviceSelfTest _ _ _ => none
  | .nvmeFormatNvm _ _ _ => none
  | .nvmeFlush _ _ _ => none
  | .nvmeWrite _ _ _ => none
  | .nvmeRead _ _ _ => none
  | .nvmeWriteZeroes _ _ _ => none
  | .nvmeDatasetManagement _ _ _ => none
  | .nvmeUnsupportedCommand _ _ _ => none
  | .writeInsertion _ _ _ _ _ => none
  | .wcacheWaitEnd _ => none
  | .destageStart _ _ => none
  | .destageDone _ _ _ => none
  | .backingReadDone _ _ _ _ _ _ => none
  | .drivePresent _ => none
  | .driveSurpriseRemoval _ _ => none
  | .driveLinkUp _ _ => none
  | .driveInitialised _ _ => none
  | .driveInitTimeout _ => none
  | .driveCommandTimeout _ _ _ => none
  | .driveCfs _ => none
  | .driveCompletion _ _ _ => none
  | .driveAttnButton _ => none
  | .driveDmaViolation _ _ _ => none
  | .bstatusTimeout _ _ => none
  | .remoteDestageRetry _ _ => none
  | .selfTestStep _ _ _ => none
  | .keyAlarmSource _ _ => none
  | .lookasideJobDone _ => none
  | .lookasideSuspend _ => none
  | .pageFetchDone _ _ _ _ => none
  | .coreInstruction _ _ => none
  | .tfork _ _ _ _ _ _ => none
  | .tforkd _ _ _ _ _ _ => none
  | .texit _ _ _ _ => none
  | .tjoin _ _ _ _ _ => none
  | .twait _ _ _ _ _ => none
  | .tsignal _ _ _ _ _ _ => none
  | .ttimer _ _ _ _ => none
  | .tyield _ _ _ => none
  | .hrd _ _ _ _ _ => none
  | .hwr _ _ _ _ _ => none
  | .hswap _ _ _ _ _ _ => none
  | .hadd _ _ _ _ _ _ => none
  | .hcas _ _ _ _ _ _ _ => none
  | .chput _ _ _ _ _ => none
  | .chcommit _ _ _ _ _ => none
  | .chrecv _ _ _ _ _ _ => none
  | .wdogKick _ _ _ => none
  | .threadTimerExpiry _ _ _ => none
  | .channelReplyArrival _ _ _ _ => none
  | .hodAlloc _ => none
  | .hodFree _ => none
  | .hodLink _ => none
  | .hodNext _ => none
  | .dmaCopy _ => none
  | .tableRequest _ => none
  | .lookasideJob _ => none
  | .emitPort _ => none
  | .emitHost _ => none
  | .puntRecv _ => none
  | .puntCancel _ => none
  | .puntDelivery _ => none
  | .waitDeadlock _ _ => none
  | .watchdog _ _ => none
  | .dramRefresh => none
  | .rdimmTempRead _ _ => none
  | .dramAlert _ _ => none
  | .dramReplayDone _ => none
  | .dramRetrainDone _ _ => none
  | .dramRequest _ => none
  | .dramReadEcc _ _ _ => none
  | .patrolScrub _ _ _ => none
  | .pprRepair _ _ => none
  | .parkEntry => none
  | .parkPhaseEnd _ => none
  | .thermalSensorSample _ => none
  | .avsDecision _ _ => none
  | .avsEmergency => none
  | .regulatorPoll _ _ => none
  | .hlinkRecCommit _ => none
  | .hlinkRecInstall _ _ => none
  | .hlinkRecAbort _ => none
  | .klbLineTooLong => none
  | .help => none
  | .ver => none
  | .status => none
  | .baud _ => none
  | .authNonce => none
  | .authLoad _ _ => none
  | .authCheck => none
  | .authEnd => none
  | .sessionExpiry => none
  | .klbRd _ _ => none
  | .klbWr _ _ => none
  | .mrd _ _ _ _ => none
  | .mwr _ _ _ _ => none
  | .klbHod _ _ _ => none
  | .threads _ _ => none
  | .regs _ _ _ => none
  | .setreg _ _ _ _ _ => none
  | .klbHalt _ _ _ => none
  | .klbResume _ _ _ => none
  | .step _ _ _ _ => none
  | .kill _ _ _ => none
  | .bpSet _ _ _ => none
  | .bpClr _ _ _ => none
  | .bpOn => none
  | .bpOff => none
  | .keys => none
  | .imgOffset _ => none
  | .imgData _ => none
  | .imgCommit => none
  | .imgInstall _ => none
  | .imgAbort => none
  | .powerRemoved => none
  | .linkRecoveryExit _ => none
  | .driveLaneFaultInService _ _ => none
  | .keyAlarmSourceCleared _ => none
  | .chunkDone _ => none
  | .installDone _ => none
  | .loadDataReturn _ _ _ _ _ => none
  | .atsInvalidationRequest _ _ => none

/-- PROGRAM_LOAD with the checks that come before the component itself is looked at. -/
def loadRequest : CmdDef := { programLoadDef with checks := fun o p s => (programLoadDef.checks o p s).take 3 }

/-- The submission entry that arbitration selects next is this one: it was fetched, and neither fused nor with a scatter list (R297, R309). -/
def sqeServed (h : HostId) (f : Fn) (e : Sqe) (s t : State) : Prop :=
  selectSqe s = some (fnKey h f, t) ∧ (ctrl t (fnKey h f)).arbSq = e.sq.toNat ∧ e.fetchOk = true ∧ e.w 0 / 256 % 4 = 0 ∧ e.w 0 / 16384 % 4 = 0

/-- That entry taken: its queue's head moves on, and its host is charged. -/
def sqeTaken (h : HostId) (f : Fn) (e : Sqe) (cost : Nat → State → Nat) (t : State) : State :=
  let t1 := modCtrl (fnKey h f) (fun c => { c with sqs := Tbl.modify c.sqs e.sq.toNat fun q => { q with head := (q.head + 1) % q.size } }) t
  chargeHost (fnKey h f) (cost (fnKey h f) t1) t1

/-- A context of a core is live (R367). -/
def threadLive (s : State) (ck n : Nat) : Bool := (thread s ck n).any fun c => c.st.live

/-- The operands of an Xbtx instruction fit its fields (R377, R378). -/
def xbFits : Xb → Bool
  | .tfork _ rd rs1 rs2 => rd < 32 && rs1 < 32 && rs2 < 32
  | .tjoin rd rs1 => rd < 32 && rs1 < 32
  | .texit rs1 => rs1 < 32
  | .tsignal rd rs1 rs2 => rd < 32 && rs1 < 32 && rs2 < 32
  | .twait rd rs1 => rd < 32 && rs1 < 32
  | .ttimer rs1 => rs1 < 32
  | .tyield => true
  | .hrd rd h => rd < 32 && h < 64
  | .hwr h rs2 => h < 64 && rs2 < 32
  | .hswap rd h rs2 => rd < 32 && h < 64 && rs2 < 32
  | .hadd rd h rs2 => rd < 32 && h < 64 && rs2 < 32
  | .hcas rd h rs1 rs2 => rd < 32 && h < 64 && rs1 < 32 && rs2 < 32
  | .chput w rs2 => w < 8 && rs2 < 32
  | .chcommit rd rs1 => rd < 32 && rs1 < 32
  | .chrecv rd w _ => rd < 32 && w < 8

/-- Bit i of a byte string, bit 0 being the most significant bit of byte 0 (R190). -/
def bitOfBytes (l : List Byte) (i : Nat) : Bool := bitAt (l.getD (i / 8) 0).toNat (7 - i % 8)

/-- A thread after an instruction of 4 bytes that writes a register and nothing else of it. -/
def movedOn (rd v : Nat) (th : Thread) : Thread := { th.setX rd v with pc := (th.pc + 4) % 2 ^ 64, retired := (th.retired + 1) % 2 ^ 64, atBp := false }

end Sys2Proof.Machine
end

