-- ==== Sys2Proof/Certificates/Slice0/Obligations.lean ====
section
/-! DEFINITION. Obligations.lean: the statements for the provers, O1 to O59. -/

open Sys2Proof Sys2Proof.Machine

/-- O1. A step takes the command at the front of the queue, and its effect falls on the state with the rest of the queue waiting. -/
def Obligations.StepRunsTheFrontCommand : Prop :=
  ∀ (c : Instr) (rest : List Instr) (s : State), step { s with pending := c :: rest } = exec c { s with pending := rest }

/-- O2. The model's choice (log 1): with no command waiting, the fenced commands of the first channel without a live long operation join the queue in their order (R65); where there is none, one 2 ns period passes, and DTIME advances at its rate (R17, R131). -/
def Obligations.IdleStepLetsFencedCommandsGoOrTimePass : Prop :=
  ∀ s : State, s.pending = [] →
    (∀ c, (s.fenced.find? fun e => (opsOf s e.1).isEmpty).map (·.1) = some c →
      step s = .next { s with
        pending := (s.fenced.filter fun e => e.1 = c).map (·.2)
        fenced := s.fenced.filter fun e => e.1 ≠ c }) ∧
    ((∀ e ∈ s.fenced, opsOf s e.1 ≠ []) → s.glb.powered = true →
      step s = .next { s with now := s.now + 1, dtime := s.dtime + (2 * (2 ^ 32 + trim s)).toNat }) ∧
    ((∀ e ∈ s.fenced, opsOf s e.1 ≠ []) → s.glb.powered = false → step s = .next s)

/-- O3. After reset nothing waits, the device is in BOOT with cause POWER_ON, no previous mode and GLB_MODE_SEQ 0 (R33), the epoch is 0 and its length 100 µs (R35, R36), every host link is down with 256 VFs staged for PF0 and PF1 (R91), no queue, connection, counter, violation record, long operation or event exists, and the signing keys 0 and 1 alone are provisioned and none revoked (R433). -/
def Obligations.ResetLeavesBoot : Prop :=
  State.reset.pending = [] ∧ State.reset.out = [] ∧
  modeOf State.reset.glb = (.boot, none, .powerOn, 0) ∧
  State.reset.epochs.epoch = 0 ∧ State.reset.epochs.len * 8 = 100000 ∧
  (∀ h : HostId, (link State.reset h).state = 0 ∧ (link State.reset h).dlUp = false ∧ (link State.reset h).staged0 = 256 ∧ (link State.reset h).staged1 = 256) ∧
  State.reset.queues = [] ∧ State.reset.ctx.conns = [] ∧ State.reset.counters = [] ∧ State.reset.violations.log = [] ∧
  State.reset.ops = [] ∧ State.reset.owner.held = [] ∧ State.reset.owner.seq = 0 ∧
  State.reset.nv.provisioned = 3 ∧ State.reset.nv.revoked = 0 ∧ State.reset.nv.flash = []

/-- O4. The frame of every command of the table: where it answers a next state, every part of the state that `partsOf` does not list for it is as it was. -/
def Obligations.EveryCommandChangesOnlyItsParts : Prop :=
  ∀ (c : Instr) (s t : State), exec c s = .next t → changesOnly (partsOf c) s t

/-- O5. No command, whatever it is, changes the queue of waiting commands or the model's clock. -/
def Obligations.CommandsLeaveTheQueueAndTheClock : Prop :=
  ∀ (c : Instr) (s t : State), exec c s = .next t → t.pending = s.pending ∧ t.now = s.now

/-- O6. The operating mode, the previous mode, the cause and GLB_MODE_SEQ change by nothing but power, a reset, a stage of BOOT, the end of BOOT, an epoch boundary, PARK's entry from MAINTENANCE and the end of PARK (R27). -/
def Obligations.ModeChangesOnlyByItsEvents : Prop :=
  ∀ (c : Instr) (s t : State), exec c s = .next t →
    (match c with
      | .powerOn => False
      | .powerRemoved => False
      | .devRstNAssert _ => False
      | .holdoverExpiry => False
      | .deviceReset _ => False
      | .romStage => False
      | .loaderStage _ => False
      | .mgmtFwStage => False
      | .bootDone => False
      | .epochBoundary => False
      | .parkEntry => False
      | .parkPhaseEnd _ => False
      | _ => True) → modeOf t.glb = modeOf s.glb

/-- O7. The epoch counter (R35): a boundary adds one, an entry to BOOT sets it to 0, and nothing else changes it. -/
def Obligations.EpochCounterOnlyStepsAtBoundaries : Prop :=
  ∀ (c : Instr) (s t : State), exec c s = .next t →
    t.epochs.epoch = s.epochs.epoch ∨ (c = .epochBoundary ∧ t.epochs.epoch = s.epochs.epoch + 1) ∨ (t.epochs.epoch = 0 ∧ t.glb.mode = .boot)

/-- O8. The one-way fuses (R432, R433): from every state, a step leaves the minimum security version no lower, and no provisioned or revoked bit cleared. -/
def Obligations.FusesNeverStepBack : Prop :=
  ∀ (least keys gone : Nat) (s t : State),
    (least ≤ s.nv.minVersion ∧ keys &&& s.nv.provisioned = keys ∧ gone &&& s.nv.revoked = gone) → step s = .next t →
    (least ≤ t.nv.minVersion ∧ keys &&& t.nv.provisioned = keys ∧ gone &&& t.nv.revoked = gone)

/-- O9. The fuses at reset meet what O8 keeps, for the keys 0 and 1 that are provisioned then. -/
def Obligations.FusesAtReset : Prop :=
  0 ≤ State.reset.nv.minVersion ∧ 3 &&& State.reset.nv.provisioned = 3 ∧ 0 &&& State.reset.nv.revoked = 0

/-- O10. A command packet of any opcode that its channel takes and that no refusal meets is carried out, and answered by exactly one reply (R61, R68, R71). -/
def Obligations.AcceptedPacketsAreCarriedOutAndAnswered : Prop :=
  ∀ (c : Instr) (d : CmdDef) (p : Packet) (s : State), packetOf c = some (d, p) → accepts d p s = true →
    exec c s = .next (answer p (d.act (namedBy p) p (onceTaken p s)) (onceTaken p s))

/-- O11. A command packet that is taken and meets refusals has no effect but its reply, which carries the first of them in the order of R71. -/
def Obligations.RefusedPacketsHaveNoEffectButTheReply : Prop :=
  ∀ (c : Instr) (d : CmdDef) (p : Packet) (s : State) (st : Status), packetOf c = some (d, p) → takes p s = true →
    refusal d p (onceTaken p s) = some st →
    exec c s = .next (replied p st [] (onceTaken p s))

/-- O12. The order of R71: the refusal reported applies, and none that applies comes before it in the order. -/
def Obligations.FirstRefusalFollowsTheOrder : Prop :=
  ∀ (l : List (Bool × Status)),
    (firstRefusal l = none ↔ ∀ e ∈ l, e.1 = false) ∧
    (∀ st, firstRefusal l = some st → (true, st) ∈ l ∧ ∀ e ∈ l, e.1 = true → st.rank ≤ e.2.rank)

/-- O13. A command packet is not taken: on a channel that is not ready it stays where it is (R61, R63); behind FENCE or an earlier command it holds, it waits with the fenced commands (R65), the owner's beyond 32 being refused with NO_RESOURCE (R84); a header slot that cannot be read stops the channel with FAULT and no reply, a parameter slot after a HOST_MEMORY_FAULT reply (R70, R107). -/
def Obligations.PacketsThatAreNotTaken : Prop :=
  ∀ (c : Instr) (d : CmdDef) (p : Packet) (s : State), packetOf c = some (d, p) →
    (p.chan = .owner → ownerNotReady p s = true → exec c s = .next s) ∧
    (p.chan = .owner → ownerNotReady p s = false → fenceHolds p s = true → fencedOn s .owner < 32 →
      exec c s = .next { ownerSpoke s with fenced := s.fenced ++ [(.owner, c)] }) ∧
    (p.chan = .owner → ownerNotReady p s = false → fenceHolds p s = true → 32 ≤ fencedOn s .owner →
      exec c s = .next (replied p .noResource [] (ownerSpoke s))) ∧
    (∀ r, p.chan = .ring r → ringNotReady r p s = true → exec c s = .next s) ∧
    (∀ r, p.chan = .ring r → ringNotReady r p s = false → fenceHolds p s = true →
      exec c s = .next { s with fenced := s.fenced ++ [(.ring r, c)] }) ∧
    (∀ r, p.chan = .ring r → ringNotReady r p s = false → fenceHolds p s = false → p.read = .headerFailed →
      exec c s = .next (modRing r (fun x => { x with running := false, fault := true }) s)) ∧
    (∀ r, p.chan = .ring r → ringNotReady r p s = false → fenceHolds p s = false → p.read = .paramsFailed →
      exec c s = .next (modRing r (fun x => { x with running := false, fault := true }) (replied p .hostMemoryFault [] (consume r p s))))

/-- O14. A reply (R63, R64, R68): on the owner channel it carries the status code, the TAG, the epoch, four RESULT words and phase 0; on a ring channel it carries the ring's phase, is written at the reply ring's tail, which advances and inverts the phase as it wraps. -/
def Obligations.RepliesCarryStatusTagAndEpoch : Prop :=
  ∀ (p : Packet) (st : Status) (ws : List Nat) (s : State),
    (p.chan = .owner → replied p st ws s = { s with out := .reply { chan := .owner, vdm := p.vdm, phase := false, handleValid := false, longResult := false, status := st.code, tag := p.tag, epoch := s.epochs.epoch, result := (ws ++ [0, 0, 0, 0]).take 4, long := [] } :: s.out }) ∧
    (∀ c, p.chan = .ring c →
      (.reply { chan := .ring c, vdm := p.vdm, phase := (ring s c).rqPhase, handleValid := false, longResult := false, status := st.code, tag := p.tag, epoch := s.epochs.epoch, result := (ws ++ [0, 0, 0, 0]).take 4, long := [] }) ∈ (replied p st ws s).out ∧
      (ring (replied p st ws s) c).rqTail = ((ring s c).rqTail + 1) % 2 ^ (ring s c).rqCfg ∧
      (ring (replied p st ws s) c).rqPhase = (if ((ring s c).rqTail + 1) % 2 ^ (ring s c).rqCfg = 0 then !(ring s c).rqPhase else (ring s c).rqPhase))

/-- O15. Which channels an opcode of the tables may come on, and the common refusals (R66, R67, R72, R75): a wrong VERSION is BAD_OPCODE, a parameter length the opcode does not take BAD_LENGTH, a channel without the opcode NOT_PERMITTED, a mode that refuses it MODE_WRONG, and a reserved field or flag that is not 0 BAD_PARAM, each where no earlier one applies. -/
def Obligations.CommonRefusals : Prop :=
  ∀ (d : CmdDef) (p : Packet) (s : State),
    let badLength := 504 < p.len ∨ d.len p.len = false
    let barred := d.marked p.chan = false ∨ scopeForbidden p = true
    (p.version ≠ 1 → refusal d p s = some .badOpcode) ∧
    ((∀ e ∈ d.checks (namedBy p) p s, e.1 = true → 1 ≤ e.2.rank) → p.version = 1 → badLength → refusal d p s = some .badLength) ∧
    ((∀ e ∈ d.checks (namedBy p) p s, e.1 = true → 2 ≤ e.2.rank) → p.version = 1 → ¬ badLength → barred → refusal d p s = some .notPermitted) ∧
    ((∀ e ∈ d.checks (namedBy p) p s, e.1 = true → 3 ≤ e.2.rank) → p.version = 1 → ¬ badLength → ¬ barred → modeWrong d.gate p.chan s = true →
      refusal d p s = some .modeWrong) ∧
    ((∀ e ∈ d.checks (namedBy p) p s, e.1 = true → 4 ≤ e.2.rank) → p.version = 1 → ¬ badLength → ¬ barred → modeWrong d.gate p.chan s = false →
      (p.reservedSet = true ∨ 16 ≤ p.flags.toNat) → refusal d p s = some .badParam)

/-- O16. Power, the resets and the stages of BOOT (R10, R20, R27, R33, R421, R489): where each completes, and the mode, cause, transition count, protected store and boot stage it leaves. -/
def Obligations.PowerResetAndBootStagesComplete : Prop :=
  (∀ s, Completes (exec .powerOn s) fun t =>
    modeOf t.glb = (.boot, none, .powerOn, 0) ∧ t.glb.powered = true ∧ t.glb.fwRuns = false ∧ t.epochs = Epochs.reset ∧ t.nv = s.nv ∧
    t.ops = [] ∧ t.queues = [] ∧ t.counters = [] ∧ t.crypt.slots = [] ∧ t.dram = Dram.reset ∧ t.clk.holdoverCount = 0) ∧
  (∀ s, Completes (exec .powerRemoved s) fun t =>
    t.glb.powered = false ∧ t.nv = s.nv ∧ t.ops = [] ∧ t.queues = [] ∧ t.nvme = Nvme.reset ∧ t.crypt.slots = [] ∧ t.dram = Dram.reset) ∧
  (∀ (ns : Nat) s, s.glb.powered = true → 1000 ≤ ns → Completes (exec (.devRstNAssert ns) s) fun t =>
    modeOf t.glb = (.boot, none, .pinReset, s.glb.modeSeq + 1) ∧ t.glb.stage = .inReset ∧ t.nv = s.nv ∧ t.epochs = Epochs.reset ∧
    t.clk.holdoverCount = s.clk.holdoverCount ∧ .pin "DDR_RESET_N" false ∈ t.out ∧ .pin "DRV_PERST_N" false ∈ t.out ∧ .pin "XSPI_RESET_N" false ∈ t.out) ∧
  (∀ (ns : Nat) s, s.glb.powered = true → ns < 100 → Completes (exec (.devRstNAssert ns) s) fun t => changesOnly [.drawn] s t) ∧
  (∀ st s, s.glb.powered = true → s.glb.stage = .inReset →
    exec (.devRstNRelease st) s = .next { s with glb := { s.glb with straps := st, stage := .waitLock } }) ∧
  (∀ s, s.glb.powered = true → s.clk.holdover = true → Completes (exec .holdoverExpiry s) fun t =>
    modeOf t.glb = (.boot, none, .refLoss, s.glb.modeSeq + 1) ∧ t.glb.stage = .waitLock ∧ t.nv = s.nv ∧ t.epochs = Epochs.reset ∧ t.ops = []) ∧
  (∀ s, bootRuns s .rom = true → s.clk.holdover = false → Completes (exec .romStage s) fun t =>
    t.nv.bootCount = s.nv.bootCount + 1 ∧ match (selectSlot s).2 with
      | some n => t.glb = { s.glb with stage := .loader } ∧ t.sec.slot = n ∧ t.sec.reasons = (selectSlot s).1 ∧
          t.nv.attempts = vmod s.nv.attempts (slotIx n) (fun k => min 3 (k + 1)) ∧ t.elec.vout = 700
      | none => modeOf t.glb = (.maintenance, some s.glb.mode, .noValidImage, s.glb.modeSeq + 1) ∧ t.sec.recovery = true ∧ t.nv.attempts = s.nv.attempts) ∧
  (∀ found s, bootRuns s .loader = true → Completes (exec (.loaderStage found) s) fun t =>
    match (componentOf s 2).filter (loadedOk s) with
      | some _ => t.glb.stage = .mgmtFw ∧ modeOf t.glb = modeOf s.glb ∧ t.epochs.epoch = s.epochs.epoch
      | none => t = deviceReset s.glb.cause s) ∧
  (∀ s, bootRuns s .mgmtFw = true → exec .mgmtFwStage s = .next
    (if ((components (runningHeader s)).filter fun c => 4 ≤ c.type).all (loadedOk s) then
      startPrograms (applyLayouts (finishSanitizes (loadKeys (loadTables (extendComponents (reportEntries
        (raiseModeChange 0 { s with glb := { s.glb with fwRuns := true, stage := .finished } })))))))
    else deviceReset s.glb.cause s)) ∧
  (∀ s, bootRuns s .finished = true → s.clk.holdover = false → Completes (exec .bootDone s) fun t =>
    modeOf t.glb = ((bootTarget s).1, some s.glb.mode, (bootTarget s).2, s.glb.modeSeq + 1) ∧
    t.nv = { s.nv with attempts := vset s.nv.attempts (slotIx s.sec.slot) 0 })

/-- O17. The reference clocks (R20, R487) and the drain of QUIESCE (R26): where each event completes, what CLK_STATUS and CLK_REF_STATUS show of it, and the CLOCK_STATE events it raises. -/
def Obligations.ReferenceClocksAndDrainComplete : Prop :=
  (∀ s, s.glb.powered = true → s.clk.holdover = false → exec .rootPllLock s = .next { s with
    clk := { s.clk with rootLock := true, refPresent := true }
    glb := { s.glb with stage := if s.glb.stage = .waitLock then .rom else s.glb.stage } }) ∧
  (∀ s, s.glb.powered = true → s.clk.refPresent = true → s.clk.rootLock = true → Completes (exec .coreRefLost s) fun t =>
    t.clk = { s.clk with refPresent := false, rootLock := false, holdover := true, holdoverCount := satAdd 0xFFFF s.clk.holdoverCount 1 } ∧
    (s.glb.fwRuns = true → bitAt s.owner.mask 0x81 = false → t.owner.seq = s.owner.seq + 2)) ∧
  (∀ s, s.glb.powered = true → s.clk.refPresent = true → s.clk.rootLock = false → Completes (exec .coreRefLost s) fun t =>
    t.clk = { s.clk with refPresent := false } ∧ (s.glb.fwRuns = true → bitAt s.owner.mask 0x81 = false → t.owner.seq = s.owner.seq + 1)) ∧
  (∀ s, s.glb.powered = true → s.clk.refPresent = false → s.clk.holdover = true → Completes (exec .coreRefReturned s) fun t =>
    t.clk = { s.clk with refPresent := true, rootLock := true, holdover := false, refReturned := true } ∧
    (s.glb.fwRuns = true → bitAt s.owner.mask 0x81 = false → t.owner.seq = s.owner.seq + 2)) ∧
  (∀ s, s.glb.powered = true → s.clk.refPresent = false → s.clk.holdover = false → Completes (exec .coreRefReturned s) fun t =>
    t.clk = { s.clk with refPresent := true } ∧ (s.glb.fwRuns = true → bitAt s.owner.mask 0x81 = false → t.owner.seq = s.owner.seq + 1)) ∧
  (∀ s, s.glb.powered = true → s.clk.ethRef = true → Completes (exec .ethRefLost s) fun t => t.clk = { s.clk with ethRef := false } ∧ t.glb = s.glb) ∧
  (∀ s, s.glb.powered = true → s.clk.ethRef = false → Completes (exec .ethRefReturned s) fun t =>
    t.clk = { s.clk with ethRef := true } ∧ t.eth = s.eth ∧ (s.glb.fwRuns = true → bitAt s.owner.mask 0x81 = false → t.owner.seq = s.owner.seq + 1)) ∧
  (∀ h s, s.glb.powered = true → s.clk.hostRefs[h] = true → exec (.hostRefLost h) s = .next (detachHost h .dlDown
    (refLost (16 + h.val) { s with clk := { s.clk with hostRefs := vset s.clk.hostRefs h false } }))) ∧
  (∀ h s, s.glb.powered = true → s.clk.hostRefs[h] = false → Completes (exec (.hostRefReturned h) s) fun t =>
    t.clk = { s.clk with hostRefs := vset s.clk.hostRefs h true } ∧ t.hosts = s.hosts ∧
    (s.glb.fwRuns = true → bitAt s.owner.mask 0x81 = false → t.owner.seq = s.owner.seq + 1)) ∧
  (∀ s, s.glb.mode = .quiesce → s.glb.drainComplete = false → cacheHasData s = false → lrdUnacked s = false → Completes (exec .drainComplete s) fun t =>
    t.glb = { s.glb with drainComplete := true } ∧ (s.glb.fwRuns = true → bitAt s.owner.mask 0x12 = false → t.owner.seq = s.owner.seq + 1))

/-- O18. The epoch boundary (R35 to R37, R46): the counter steps, the next length takes hold, and what is due follows in its order; a pending unit's undercoat becomes its topcoat and its grace begins, for the bank units by exchanging the banks (R44, R46). -/
def Obligations.EpochBoundaryCommitsPendingUnits : Prop :=
  (∀ s, s.glb.powered = true → s.glb.stage ≠ .inReset →
    exec .epochBoundary s = .next (imbalance (spreadBoundary (swapSpares (dueWaits (dueModes (commitUnits (dueSnapshots
      { s with epochs := { s.epochs with epoch := s.epochs.epoch + 1, lenNow := clampLen s.epochs.len, cutoffDone := false, dtimeAt := dtimeNs s } }))))))) ∧
    Completes (exec .epochBoundary s) fun t => t.epochs.epoch = s.epochs.epoch + 1) ∧
  (∀ (i : Fin 32) s, (unitAt s i).phase ≠ .pending → commitUnit i s = s) ∧
  (∀ s, (unitAt s 0).phase = .pending → (unitAt (commitUnit 0 s) 0).phase = .grace ∧
    (commitUnit 0 s).parse.banks.top = s.parse.banks.under ∧ (commitUnit 0 s).parse.banks.under = s.parse.banks.top ∧
    (commitUnit 0 s).parse.topBank = !s.parse.topBank) ∧
  (∀ s, (unitAt s 1).phase = .pending → (unitAt (commitUnit 1 s) 1).phase = .grace ∧
    (commitUnit 1 s).cls.banks.top = s.cls.banks.under ∧ (commitUnit 1 s).cls.banks.under = s.cls.banks.top ∧ (commitUnit 1 s).cls.topBank = !s.cls.topBank) ∧
  (∀ s, (unitAt s 2).phase = .pending → (unitAt (commitUnit 2 s) 2).phase = .grace ∧
    (commitUnit 2 s).sched.top.top = s.sched.top.under ∧ (commitUnit 2 s).sched.top.under = s.sched.top.under) ∧
  (∀ s, (unitAt s 3).phase = .pending → (unitAt (commitUnit 3 s) 3).phase = .grace ∧
    (commitUnit 3 s).sched.share.top = s.sched.share.under ∧ (commitUnit 3 s).sched.share.under = s.sched.share.under) ∧
  (∀ s, (unitAt s 4).phase = .pending → (unitAt (commitUnit 4 s) 4).phase = .grace ∧
    (commitUnit 4 s).net.quota.top = s.net.quota.under ∧ (commitUnit 4 s).net.quota.under = s.net.quota.under) ∧
  (∀ (h : HostId) s, (unitAt s (unitBit (.spread h))).phase = .pending → (unitAt (commitUnit (unitBit (.spread h)) s) (unitBit (.spread h))).phase = .grace ∧
    ((commitUnit (unitBit (.spread h)) s).net.units[h]).spread.top = (s.net.units[h]).spread.under) ∧
  (∀ (h : HostId) s, (unitAt s (unitBit (.schedHost h))).phase = .pending → (unitAt (commitUnit (unitBit (.schedHost h)) s) (unitBit (.schedHost h))).phase = .grace ∧
    ((commitUnit (unitBit (.schedHost h)) s).net.units[h]).sched.top = (s.net.units[h]).sched.under) ∧
  (∀ (h : HostId) s, (unitAt s (unitBit (.vfQuota h))).phase = .pending → (unitAt (commitUnit (unitBit (.vfQuota h)) s) (unitBit (.vfQuota h))).phase = .grace ∧
    ((commitUnit (unitBit (.vfQuota h)) s).net.units[h]).vfQuota.top = (s.net.units[h]).vfQuota.under)

/-- O19. The steps of a recoat between boundaries (R36, R42 to R49, R158, R458): the arm cutoff, the end of grace, the reload, direct writes of GLB_RECOAT_ARM, of staged registers and of GLB_EPOCH_LEN, and a unit that fails in service. -/
def Obligations.RecoatStepsComplete : Prop :=
  (∀ s, Completes (exec .armCutoff s) fun t => changesOnly [.epochs] s t ∧ t.epochs.cutoffDone = true ∧ t.epochs.len = s.epochs.len ∧
    ∀ i : Fin 32, unitAt t i = (if (unitAt s i).phase = .armed ∧ ((unitAt s i).target = none ∨ (unitAt s i).target = some (s.epochs.epoch + 1))
      then { unitAt s i with phase := .pending } else unitAt s i)) ∧
  (∀ u s, (unitAt s (unitBit u)).phase ≠ .grace → exec (.graceEnd u) s = .next s) ∧
  (∀ u s, (unitAt s (unitBit u)).phase = .grace → (u = .parse ∨ u = .cls) → exec (.graceEnd u) s = .next (clearGrace (unitBit u) s)) ∧
  (∀ u s, (unitAt s (unitBit u)).phase = .grace → u ≠ .parse → u ≠ .cls →
    exec (.graceEnd u) s = .next (modUnit (unitBit u) (fun x => { x with phase := .reload }) s)) ∧
  (∀ u s, (unitAt s (unitBit u)).phase ≠ .reload → exec (.reloadComplete u) s = .next s) ∧
  (∀ u s, (unitAt s (unitBit u)).phase = .reload → exec (.reloadComplete u) s = .next (clearGrace (unitBit u) (reloadUnit (unitBit u) s))) ∧
  (∀ v s, s.glb.mode = .boot ∨ s.glb.mode = .park → exec (.glbRecoatArmWrite v) s = .next s) ∧
  (∀ v s, s.glb.mode ≠ .boot → s.glb.mode ≠ .park → (∃ i ∈ maskUnits v.toNat, validUnit i = true ∧ unitInGrace (unitAt s i) = true) →
    exec (.glbRecoatArmWrite v) s = .refused (.undefinedCase 47)) ∧
  (∀ v s, s.glb.mode ≠ .boot → s.glb.mode ≠ .park → (∀ i ∈ maskUnits v.toNat, validUnit i = true → unitInGrace (unitAt s i) = false) →
    Completes (exec (.glbRecoatArmWrite v) s) fun t => changesOnly [.epochs] s t ∧
      ∀ i : Fin 32, unitAt t i = (if bitAt v.toNat i.val = true ∧ validUnit i = true ∧ unitArmed (unitAt s i) = false ∧ (unitAt s i).copying = false
        then { unitAt s i with phase := .armed, target := none, handle := none } else unitAt s i)) ∧
  (∀ a v s, parseStagedAddr a.toNat = false → exec (.stagedRegisterWrite a v) s = .next s) ∧
  (∀ a v s, parseStagedAddr a.toNat = true → ((unitAt s 0).phase = .grace ∨ (unitAt s 0).phase = .reload) →
    exec (.stagedRegisterWrite a v) s = .refused (.undefinedCase 47)) ∧
  (∀ a v s, parseStagedAddr a.toNat = true → (unitAt s 0).phase = .pending →
    exec (.stagedRegisterWrite a v) s = .next (modUnit 0 (fun u => { u with held := u.held ++ [(a.toNat, v.toNat)] }) s)) ∧
  (∀ a v s, parseStagedAddr a.toNat = true → ((unitAt s 0).phase = .idle ∨ (unitAt s 0).phase = .armed) →
    exec (.stagedRegisterWrite a v) s = .next (parseStagedWrite a.toNat v.toNat s)) ∧
  (∀ v s, exec (.glbEpochLenWrite v) s = .next { s with epochs := { s.epochs with len := v.toNat % 2 ^ 17 } }) ∧
  (∀ k n s, s.glb.fwRuns = true → isLost s k.toNat n.toNat = false → (k.toNat, n.toNat) ∉ s.bist.swaps →
    exec (.unitFailureInService k n) s = .next (unitFails k.toNat n.toNat s)) ∧
  (∀ k n s, (s.glb.fwRuns = false ∨ isLost s k.toNat n.toNat = true ∨ (k.toNat, n.toNat) ∈ s.bist.swaps) →
    exec (.unitFailureInService k n) s = .next s)

/-- O20. The control space (R7 to R9, R33, R36): an access that is not aligned is undefined; a low-word read latches the high word, which the next high-word read returns; the read-clear counters clear; GLB_MODE and GLB_EPOCH read as the state says; and each writable register takes what is written to its fields, write-one-to-clear bits clearing. -/
def Obligations.ControlSpaceReadsAndWrites : Prop :=
  (∀ (a v : Word) s, a.toNat % 4 ≠ 0 → exec (.lowWordRead a) s = .refused (.undefinedCase 7) ∧
    exec (.readClearRegisterRead a) s = .refused (.undefinedCase 7) ∧ exec (.registerWrite a v) s = .refused (.undefinedCase 7)) ∧
  (∀ s, exec (.lowWordRead 0x20) s = .next { s with
    out := .regRead 0x20 (s.epochs.epoch % 2 ^ 32) :: s.out
    epochs := { s.epochs with latch := Tbl.put s.epochs.latch 0x20 (s.epochs.epoch / 2 ^ 32 % 2 ^ 32) } }) ∧
  (∀ s x, Tbl.find s.epochs.latch 0x20 = some x → exec (.lowWordRead 0x24) s = .next { s with
    out := .regRead 0x24 x :: s.out
    epochs := { s.epochs with latch := Tbl.del s.epochs.latch 0x20 } }) ∧
  (∀ s, Tbl.find s.epochs.latch 0x20 = none → exec (.lowWordRead 0x24) s = .next { s with out := .regRead 0x24 (s.epochs.epoch / 2 ^ 32 % 2 ^ 32) :: s.out }) ∧
  (∀ s, exec (.lowWordRead 0x10) s = .next { s with out := .regRead 0x10 (s.glb.mode.code + b2n s.glb.degradedPending * 2 ^ 4 + (s.glb.prev.elim 0 Mode.code) * 2 ^ 8 + s.glb.cause.code * 2 ^ 24) :: s.out }) ∧
  (∀ s, exec (.lowWordRead 0x14) s = .next { s with out := .regRead 0x14 s.glb.modeSeq.toNat :: s.out }) ∧
  (∀ (h : HostId) s, exec (.readClearRegisterRead (BitVec.ofNat 32 (0x01000014 + h.val * 0x100000))) s = .next { s with
    out := .regRead (0x01000014 + h.val * 0x100000) ((link s h).unexpectedCpl % 65536 * 65536 + (link s h).cplTimeouts % 65536) :: s.out
    hosts := vmod s.hosts h fun x => { x with unexpectedCpl := 0, cplTimeouts := 0 } }) ∧
  (∀ (v : Word) s, exec (.registerWrite 0x10 v) s = .next s ∧ exec (.registerWrite 0x20 v) s = .next s ∧ exec (.registerWrite 0x0E000008 v) s = .next s) ∧
  (∀ (v : Word) s, exec (.registerWrite 0x28 v) s = exec (.glbEpochLenWrite v) s ∧ exec (.registerWrite 0x2C v) s = exec (.glbRecoatArmWrite v) s) ∧
  (∀ (v : Word) s, exec (.registerWrite 0x00100000 v) s = .next { s with clk := { s.clk with refReturned := s.clk.refReturned && !bitAt v.toNat 3 } }) ∧
  (∀ (l : Lane) (v : Word) s, exec (.registerWrite (BitVec.ofNat 32 (0x02000000 + 0x40 * l.val)) v) s =
    .next { s with eth := { s.eth with cfg := vset s.eth.cfg l (v &&& 0xFFFC0F0F) } }) ∧
  (∀ (v : Word) s, exec (.registerWrite 0x02002010 v) s = .next { s with eth := { s.eth with holdoff := v.toNat % 65536 } }) ∧
  (∀ (v : Word) s, exec (.registerWrite 0x03000300 v) s = .next { s with parse := { s.parse with mirrorEn := bitAt v.toNat 31, mirrorPort := v.toNat % 64 } }) ∧
  (∀ (v : Word) s, exec (.registerWrite 0x06000048 v) s = .next { s with hod := { s.hod with forwardLimit := v.toNat % 2 ^ 20 } }) ∧
  (∀ (v : Word) s, exec (.registerWrite 0x0B000010 v) s = .next { s with crypt := { s.crypt with suspend := bitAt v.toNat 0 } }) ∧
  (∀ (v : Word) s, exec (.registerWrite 0x0D001000 v) s =
    .next { s with dram := { s.dram with threshold := v.toNat % 1024, alert := s.dram.alert && !bitAt v.toNat 31 } }) ∧
  (∀ (v : Word) s, exec (.registerWrite 0x0E000100 v) s = .next { s with crypt := { s.crypt with latched := s.crypt.latched &&& (511 - v.toNat % 512) } })

/-- O21. The device and mode commands (R26 to R28, R33, R57, R73, R74): what each answers and does once accepted, and the modes that an accepted mode command was accepted in. -/
def Obligations.DeviceAndModeCommandsComplete : Prop :=
  ∀ (p : Packet) (s : State),
  (accepts deviceInfoDef p s = true → exec (.deviceInfo p) s = .next
    (let t := onceTaken p s; replied p .ok [0x8256 + 0xA1 * 65536, rxActive t + txActive t * 256 + coresActive t * 65536, t.sec.version, 0] t)) ∧
  (accepts modeGetDef p s = true → exec (.modeGet p) s = .next
    (let t := onceTaken p s; replied p .ok [glbModeWord t, t.glb.modeSeq.toNat, t.degr.entries.length, b2n (t.glb.mode == .quiesce && t.glb.drainComplete)] t)) ∧
  (accepts quiesceDef p s = true → (s.glb.mode = .service ∨ s.glb.mode = .degraded) ∧ exec (.quiesce p) s = .next
    (begun 0x0102 p (.quiesce (if p.bound then some p.epochBind.toNat else none)) 0 (if p.bound then p.epochBind.toNat else s.epochs.epoch + 1) (onceTaken p s))) ∧
  (accepts resumeDef p s = true → s.glb.mode = .quiesce ∧ exec (.resume p) s = .next
    (begun 0x0103 p (.resume (if p.bound then some p.epochBind.toNat else none)) 0 (if p.bound then p.epochBind.toNat else s.epochs.epoch + 1) (onceTaken p s))) ∧
  (accepts maintainDef p s = true → p.bound = false ∧ s.glb.mode = .quiesce ∧ s.glb.drainComplete = true ∧ exec (.maintain p) s = .next
    (begun 0x0105 p .maintain 0 (s.epochs.epoch + 1) (onceTaken p s))) ∧
  (accepts parkDef p s = true → (s.glb.mode = .quiesce ∨ s.glb.mode = .maintenance) ∧ (p.force = false → s.glb.mode = .quiesce → s.glb.drainComplete = true) ∧
    exec (.park p) s = .next (let t := onceTaken p s; replied p .ok [] { t with glb := { t.glb with
      parkDue := some ⟨p.b 0 0, p.force, p.force && parkForced t, (t.ops.filter isModeOp).map (·.handle)⟩ } })) ∧
  (accepts deviceResetDef p s = true → p.chan = .owner ∧ exec (.deviceReset p) s = .next (deviceReset .ownerReset (replied p .ok [] (onceTaken p s))) ∧
    modeOf (deviceReset .ownerReset (replied p .ok [] (onceTaken p s))).glb = (.boot, none, .ownerReset, s.glb.modeSeq + 1)) ∧
  (accepts maintOnNextBootDef p s = true → exec (.maintOnNextBoot p) s = .next
    (let t := onceTaken p s; replied p .ok [] { t with nv := { t.nv with maintFlag := p.b 0 0 } })) ∧
  (accepts degradationReadDef p s = true → exec (.degradationRead p) s = .next
    (let t := onceTaken p s; let k := t.nv.park
     repliedLong p ([t.degr.entries.length % 65536 + b2n t.glb.degradedPending * 65536, k.duration % 65536 + b2n k.powerOff * 65536 + b2n k.forced * 131072, k.failed, k.notRun]
      ++ words64 k.bytesLost ++ [k.namespaces % 8192, 0]
      ++ (t.degr.entries.take 252).flatMap fun e => [e.kind % 256 + e.reason * 256, e.unit, e.detail, e.epoch]) t)) ∧
  (accepts ownerPathSetDef p s = true → exec (.ownerPathSet p) s = .next (let t := onceTaken p s; replied p .ok [] { t with nv := { t.nv with
      ownerVdm := if h : p.f 0 0 4 < 8 then some ⟨p.f 0 0 4, h⟩ else none, eventsToVdm := p.b 0 8 } }))

/-- O22. The epoch and recoat commands, and the long operations' own (R36, R43, R53, R54, R74, R76 to R79, R509). -/
def Obligations.EpochRecoatAndOperationCommandsComplete : Prop :=
  (∀ (p : Packet) (s : State),
  (accepts epochGetDef p s = true → exec (.epochGet p) s = .next
    (let t := onceTaken p s; replied p .ok [t.epochs.len, 0, t.epochs.dtimeAt % 2 ^ 32, t.epochs.dtimeAt / 2 ^ 32 % 2 ^ 32] t)) ∧
  (accepts epochSetLengthDef p s = true → 125 ≤ p.d 0 ∧ p.d 0 ≤ 125000 ∧ exec (.epochSetLength p) s = .next
    (let t := onceTaken p s; replied p .ok [] { t with epochs := { t.epochs with len := p.w 0 } })) ∧
  (accepts epochWaitDef p s = true → p.d 0 ≤ s.epochs.epoch → exec (.epochWait p) s = .next (replied p .ok [] (onceTaken p s))) ∧
  (accepts epochWaitDef p s = true → s.epochs.epoch < p.d 0 → exec (.epochWait p) s = .next (begun 0x0115 p (.epochWait (p.d 0)) 0 (p.d 0) (onceTaken p s))) ∧
  (accepts recoatArmDef p s = true → Completes (exec (.recoatArm p) s) fun t =>
    t.ops = s.ops ++ [opFor 0x0112 p (.recoatArm ((maskUnits (p.w 0)).map (·.val))) 0 (onceTaken p s)] ∧
    ∀ i : Fin 32, unitAt t i = if bitAt (p.w 0) i.val = true
      then { unitAt s i with phase := .armed, target := if p.bound then some p.epochBind.toNat else none
                             handle := some (opFor 0x0112 p (.recoatArm ((maskUnits (p.w 0)).map (·.val))) 0 (onceTaken p s)).handle }
      else unitAt s i) ∧
  (accepts recoatDisarmDef p s = true → Completes (exec (.recoatDisarm p) s) fun t =>
    ∀ i : Fin 32, unitAt t i = if bitAt (p.w 0) i.val = true ∧ (unitAt s i).phase = .armed
      then { unitAt s i with phase := .idle, target := none, handle := none } else unitAt s i) ∧
  (accepts undercoatResetDef p s = true → (maskUnits (p.w 0)).filter isBank = [] → exec (.undercoatReset p) s = .next
    (replied p .ok [] ((maskUnits (p.w 0)).foldl (fun x i => reloadUnit i x) (onceTaken p s)))) ∧
  (accepts undercoatResetDef p s = true → (maskUnits (p.w 0)).filter isBank ≠ [] → exec (.undercoatReset p) s = .next
    (begun 0x0114 p (.undercoatReset (((maskUnits (p.w 0)).filter isBank).map (·.val))) ((maskUnits (p.w 0)).filter isBank).length 0
      (((maskUnits (p.w 0)).filter isBank).foldl (fun x i => modUnit i (fun u => { u with copying := true }) x)
        (((maskUnits (p.w 0)).filter fun i => !isBank i).foldl (fun x i => reloadUnit i x) (onceTaken p s))))) ∧
  (∀ o, accepts opQueryDef p s = true → namedOp p s = some o → exec (.opQuery p) s = .next (replied p .ok [o.stepsDone, o.stepsTotal, o.opcode] (onceTaken p s))) ∧
  (∀ o, accepts opCancelDef p s = true → namedOp p s = some o → exec (.opCancel p) s = .next (opDone o .cancelled (partResult o) (letGo o (replied p .ok [] (onceTaken p s)))))) ∧
  (∀ (handle : Word) (r : StepResult) (s : State) o, s.glb.fwRuns = true → findOp s handle.toNat = some o → exec (.longOpStep handle r) s = .next (opStep o r s)) ∧
  (∀ (handle : Word) (r : StepResult) (s : State), findOp s handle.toNat = none → exec (.longOpStep handle r) s = .next s)

/-- O23. The commands of the quotas, the parser and the classifier (R52, R91, R138, R139, R158, R164, R165, R170, R510): what each writes or shows once accepted. -/
def Obligations.QuotaParseAndClassifyCommandsComplete : Prop :=
  ∀ (p : Packet) (s : State),
  (accepts quotaSetDef p s = true → exec (.quotaSet p) s = .next (let t := onceTaken p s; replied p .ok [] { t with net := { t.net with quota := { t.net.quota with under := Tbl.put t.net.quota.under ((hostOf (namedBy p)).val * 256 + p.f 0 0 8) (p.w 1) } } })) ∧
  (accepts quotaGetDef p s = true → longFits p 36 = true → exec (.quotaGet p) s = .next (let t := onceTaken p s
    repliedLong p ([16, 0, 0, 0] ++ quotaCodes.flatMap fun c => [c, limitIn t (if p.topcoat then t.net.quota.top else t.net.quota.under) (hostOf (namedBy p)) c]) t)) ∧
  (accepts vfQuotaSetDef p s = true → ∃ h v, namedBy p = .func h (.vf v) ∧ exec (.vfQuotaSet p) s = .next (replied p .ok []
    (modUnits h (fun u => { u with vfQuota := { u.vfQuota with under := if p.w 1 = 0xFFFFFFFF then Tbl.del u.vfQuota.under (v.val * 256 + p.f 0 0 8) else Tbl.put u.vfQuota.under (v.val * 256 + p.f 0 0 8) (p.w 1) } }) (onceTaken p s)))) ∧
  (accepts hostDefaultsSetDef p s = true → ∃ h, namedBy p = .host h ∧ exec (.hostDefaultsSet p) s = .next (let t := onceTaken p s
    replied p .ok [] { t with net := { t.net with defaults := Tbl.put t.net.defaults h.val (Config.hostDefaults p.bytes) } })) ∧
  (accepts dramCarveSetDef p s = true → exec (.dramCarveSet p) s = .next (let t := onceTaken p s
    begun 0x0204 p (.carveSet (p.f 0 0 7) (p.f 1 0 16) true) 1 0 { t with nv := { t.nv with carve := some ⟨p.f 0 0 7, p.f 1 0 16⟩ } })) ∧
  (accepts resourceUsageDef p s = true → exec (.resourceUsage p) s = .next (let t := onceTaken p s
    answer p (replyLong ((Config.usageResult [p.w 0, p.w 1] (usageOf (namedBy p) t)).map (· % 2 ^ 32)) t) t)) ∧
  (accepts hostVfLimitDef p s = true → ∃ h, namedBy p = .host h ∧ p.f 0 0 10 + p.f 0 16 10 ≤ 512 ∧ exec (.hostVfLimit p) s = .next
    (replied p .ok [] (modLink h (fun l => { l with staged0 := p.f 0 0 10, staged1 := p.f 0 16 10 }) (onceTaken p s)))) ∧
  (accepts parseNodeWriteDef p s = true → badNode ((p.params.drop 2).map (·.toNat)) = false ∧ exec (.parseNodeWrite p) s = .next
    (replied p .ok [] (modParse (fun b => { b with nodes := Tbl.put b.nodes (p.f 0 0 1 * 256 + p.f 0 8 8) ((p.params.drop 2).map (·.toNat)) }) (onceTaken p s)))) ∧
  (accepts parseNodeReadDef p s = true → longFits p 64 = true → exec (.parseNodeRead p) s = .next (let t := onceTaken p s
    repliedLong p ((upFrom 0 64).map (nodeWord (Tbl.getD (if p.topcoat then t.parse.banks.top else t.parse.banks.under).nodes (p.f 0 0 1 * 256 + p.f 0 8 8) []))) t)) ∧
  (accepts parseMalformedSetDef p s = true → Completes (exec (.parseMalformedSet p) s) fun t =>
    t.parse.banks.under.actions = (if p.f 0 8 4 = 0 then s.parse.banks.under.actions else vmod s.parse.banks.under.actions (dirIx (p.f 0 0 1)) fun w => putAction w (p.f 0 8 4) (p.f 0 16 2)) ∧
    (∀ i : Pipe, t.parse.banks.under.policers[i] = if p.b 0 24 = true ∧ i.val / 16 = p.f 0 0 1 ∧ p.b 1 (i.val % 16) = true then p.w 3 * 2 ^ 19 + p.w 2 else s.parse.banks.under.policers[i]) ∧
    t.parse.banks.top = s.parse.banks.top) ∧
  (accepts classRuleWriteDef p s = true → ruleKey p &&& ruleMask p = ruleKey p ∧ exec (.classRuleWrite p) s = .next (replied p .ok [] (modCls (fun b => { b with
      rules := Tbl.put b.rules (p.f 0 0 1 * 32768 + p.w 1) { valid := p.b 2 31, priority := p.f 2 0 16, action := p.w 3, key := ruleKey p, mask := ruleMask p } }) (onceTaken p s)))) ∧
  (accepts classRuleReadDef p s = true → longFits p 42 = true → exec (.classRuleRead p) s = .next (let t := onceTaken p s
    repliedLong p (ruleWords (Tbl.getD (if p.topcoat then t.cls.banks.top else t.cls.banks.under).rules (p.f 0 0 1 * 32768 + p.w 1) { valid := false, priority := 0, action := 0, key := 0, mask := 0 })) t)) ∧
  (accepts classProfileSetDef p s = true → badProfile ((upFrom 2 16).map p.w) = false ∧ exec (.classProfileSet p) s = .next
    (replied p .ok [] (modCls (fun b => { b with profiles := Tbl.put b.profiles (p.f 0 0 1 * 256 + p.f 0 8 8) ((upFrom 2 16).map p.w) }) (onceTaken p s)))) ∧
  (accepts classActionWriteDef p s = true → badAction ((upFrom 2 4).map p.w) = false ∧ exec (.classActionWrite p) s = .next
    (replied p .ok [] (modTables (fun t => { t with actions := Tbl.put t.actions (p.f 0 0 18) ((upFrom 2 4).map p.w) }) (onceTaken p s))))

/-- O24. The commands of the exact-match and prefix tables (R175 to R178, R182 to R184, R187): an accepted one finds the operation allowed, does it and answers. -/
def Obligations.TableCommandsComplete : Prop :=
  ∀ (p : Packet) (s : State),
  (accepts emInsertDef p s = true → emFind s.tables.em (Packet_key p) = none ∧ ∃ l b, emFree s.tables.em (Packet_key p) = some (l, b) ∧
    exec (.emInsert p) s = .next (replied p .ok (emResult l b) (modEm (emPut l ⟨Packet_key p, (upFrom 12 4).map p.w, b⟩) (onceTaken p s)))) ∧
  (accepts emUpdateDef p s = true → ∃ l x, emFind s.tables.em (Packet_key p) = some l ∧ emAt s.tables.em l = some x ∧
    exec (.emUpdate p) s = .next (replied p .ok (emResult l x.seedB) (modEm (emPut l { x with action := (upFrom 12 4).map p.w }) (onceTaken p s)))) ∧
  (accepts emDeleteDef p s = true → ∃ l, emFind s.tables.em (Packet_key p) = some l ∧
    exec (.emDelete p) s = .next (replied p .ok [] (modEm (emDrop l) (onceTaken p s)))) ∧
  (accepts emLookupDef p s = true → longFits p 18 = true → ∃ l x, emFind s.tables.em (Packet_key p) = some l ∧ emAt s.tables.em l = some x ∧
    exec (.emLookup p) s = .next (repliedLong p (emWords s.tables.em l x ++ emResult l x.seedB) (onceTaken p s))) ∧
  (accepts emRehashDef p s = true → Completes (exec (.emRehash p) s) fun t =>
    let e := s.tables.em
    let seed := if p.d 0 = 0 then freshNat s % 2 ^ 64 else p.d 0
    t.tables.em = { e with mode := 1, moved := 0, stranded := 0, newB := if p.b 2 0 then e.newB else !e.newB
                           seedA := if !p.b 2 0 && e.newB then seed else e.seedA, seedB := if !p.b 2 0 && !e.newB then seed else e.seedB } ∧
    t.ops = s.ops ++ [opFor 0x0404 p (.emRehash seed) 1040 (drawn1 (onceTaken p s))]) ∧
  (accepts lpmAddDef p s = true → let r := lpmAdd (p.b 0 0) p.force (prefixOf p) (p.f 0 8 8) (p.w 1) (onceTaken p s)
    r.1 = .ok ∧ exec (.lpmAdd p) s = .next (replied p .ok [] r.2.2)) ∧
  (accepts lpmDeleteDef p s = true → let r := lpmDelete (p.b 0 0) (prefixOf p) (p.f 0 8 8) (onceTaken p s)
    r.1 = .ok ∧ exec (.lpmDelete p) s = .next (replied p .ok [] r.2.2)) ∧
  (accepts lpmLookupDef p s = true → longFits p 4 = true → let r := lpmLookup (p.b 0 0) (prefixOf p) (onceTaken p s)
    r.1 = .ok ∧ exec (.lpmLookup p) s = .next (repliedLong p r.2.1 (onceTaken p s))) ∧
  (accepts lpmLeafPushDef p s = true → (∃ n, fourthLen (p.b 0 0) (lpmOf s (p.b 0 0)) (p.w 1) = some n ∧ blockBits (p.b 0 0) < n) ∧
    exec (.lpmLeafPush p) s = .next (begun 0x0408 p (.lpmPush (p.f 0 0 1) (p.w 1)) 1 0 (onceTaken p s))) ∧
  (accepts tableStatsDef p s = true → p.w 0 = 0 → longFits p 9 = true → exec (.tableStats p) s = .next (let e := s.tables.em
    repliedLong p ([emStatusWord e, emOverflowWord e, e.stranded, 1048576 - (emBucketFill e).length] ++ ((upFrom 1 4).map fun k => Tbl.countIf (emBucketFill e) fun _ n => n == k) ++ [emSpillCount e]) (onceTaken p s))) ∧
  (accepts tableStatsDef p s = true → p.w 0 = 1 → longFits p 4 = true → exec (.tableStats p) s = .next (let t := s.tables.lpm4
    repliedLong p [t.routes.length, (t.routes.filter (·.pushed)).length, spillUsed t, longBlocks false t] (onceTaken p s))) ∧
  (accepts tableStatsDef p s = true → p.w 0 = 2 → longFits p 5 = true → exec (.tableStats p) s = .next (let t := s.tables.lpm6
    repliedLong p [t.routes.length, (t.routes.filter (·.pushed)).length, spillUsed t, longBlocks true t, lpm6SetsWord t] (onceTaken p s)))

/-- O25. The commands of the scheduler, the spreaders and the queues (R97, R196, R197, R199, R232, R233, R511). -/
def Obligations.SchedulerSpreaderAndQueueCommandsComplete : Prop :=
  ∀ (p : Packet) (s : State),
  (accepts schedNodeSetDef p s = true → exec (.schedNodeSet p) s = .next (replied p .ok [] (setNode (namedBy p) p (onceTaken p s)))) ∧
  (accepts schedNodeGetDef p s = true → longFits p (nodeWords (namedBy p) p (onceTaken p s)).length = true →
    exec (.schedNodeGet p) s = .next (repliedLong p (nodeWords (namedBy p) p (onceTaken p s)) (onceTaken p s))) ∧
  (accepts hostShareSetDef p s = true → (shareWeights p).foldl (· + ·) 0 + p.f 1 0 10 ≤ 1000 ∧ exec (.hostShareSet p) s = .next (replied p .ok []
    (modSched (fun x => { x with share := { x.share with under := { weights := vset x.share.under.weights ⟨p.f 0 0 2 % 3, Nat.mod_lt _ (by decide)⟩ (shareWeights p)
                                                                    forward := if p.f 0 0 2 = 0 then p.f 1 0 10 else x.share.under.forward } } }) (onceTaken p s)))) ∧
  (accepts policerSetDef p s = true → exec (.policerSet p) s = .next (replied p .ok []
    (modSched (fun x => { x with top := { x.top with under := { x.top.under with policers := Tbl.put x.top.under.policers (p.f 0 0 17) (p.f 1 0 21, p.f 2 0 24) } } }) (onceTaken p s)))) ∧
  (accepts classMapSetDef p s = true → exec (.classMapSet p) s = .next (replied p .ok [] (setMap (namedBy p) p (onceTaken p s)))) ∧
  (accepts spreadSetDef p s = true → ∃ h, namedBy p = .host h ∧ Completes (exec (.spreadSet p) s) fun t =>
    let u := (s.net.units[h]).spread.under
    (t.net.units[h]).spread.under = { u with key := if p.b 0 0 then slice p.bytes 0x18 52 else u.key
                                             sels := if p.b 0 1 then Tbl.put u.sels (p.f 0 8 3) (spreadSrcs p) else u.sels
                                             alertShare := if p.b 0 2 then p.f 0 24 8 else u.alertShare } ∧
    (t.net.units[h]).spread.top = (s.net.units[h]).spread.top) ∧
  (accepts indirectionSetDef p s = true → ∃ h, namedBy p = .host h ∧ Completes (exec (.indirectionSet p) s) fun t =>
    (t.net.units[h]).spread.top = (s.net.units[h]).spread.top ∧
    (p.f 0 8 4 = 0 → (t.net.units[h]).spread.under = { (s.net.units[h]).spread.under with tables := Tbl.del (s.net.units[h]).spread.under.tables (p.f 0 0 6) }) ∧
    (p.f 0 8 4 ≠ 0 → ∃ tab : IndTable, (t.net.units[h]).spread.under = { (s.net.units[h]).spread.under with tables := Tbl.put (s.net.units[h]).spread.under.tables (p.f 0 0 6) tab } ∧
      tab.log2 = p.f 0 8 4 ∧ tab.sel = p.f 0 12 3 ∧ tab.entries = (upFrom 0 (p.f 1 16 12)).foldl
        (fun es i => if bitAt (indEntry p i) 15 then Tbl.put es (p.f 1 0 12 + i) (bitsAt (indEntry p i) 0 14) else Tbl.del es (p.f 1 0 12 + i))
        ((((Tbl.find (s.net.units[h]).spread.under.tables (p.f 0 0 6)).filter (·.log2 == p.f 0 8 4)).map (·.entries)).getD []))) ∧
  (accepts spreadLoadReadDef p s = true → longFits p (2 * p.f 1 0 13) = true → ∃ h, namedBy p = .host h ∧ exec (.spreadLoadRead p) s = .next (let t := onceTaken p s
    let ks := (upFrom (p.f 0 16 12) (p.f 1 0 13)).map (loadKey h (p.f 0 0 6))
    repliedLong p (ks.flatMap fun k => [(Tbl.getD s.net.loads k ⟨0, 0, 0⟩).last, (Tbl.getD s.net.loads k ⟨0, 0, 0⟩).total])
      (if p.b 0 31 then ks.foldl (fun s k => { s with net := { s.net with loads := Tbl.modify s.net.loads k fun l => { l with total := 0 } } }) t else t))) ∧
  (accepts queueCreateDef p s = true → ∃ h f q, namedBy p = .func h f ∧ freeIds (onceTaken p s) h f (qCount p) = some q ∧
    exec (.queueCreate p) s = .next (replied p .ok [q] ((upFrom 0 (qCount p)).foldl (fun s k => createOne h f p q k s) (drawn1 (onceTaken p s))))) ∧
  (accepts queueDestroyDef p s = true → ∃ h f, namedBy p = .func h f ∧ (queue s h f (p.f 0 0 16)).isSome = true ∧
    exec (.queueDestroy p) s = .next (replied p .ok [] (removeQueue h f (p.f 0 0 16) (flushRest h f (p.f 0 0 16) (onceTaken p s))))) ∧
  (accepts queueQueryDef p s = true → ∃ h f q, namedBy p = .func h f ∧ queue s h f (p.f 0 0 16) = some q ∧
    (longFits p (queueWords q).length = true → exec (.queueQuery p) s = .next (repliedLong p (queueWords q) (onceTaken p s))))

/-- O26. The connection, context, path and transport commands (R262, R268 to R270, R277, R281, R282, R291, R294): what an accepted one finds and does. -/
def Obligations.ConnectionCommandsComplete : Prop :=
  ∀ (p : Packet) (s : State),
  (accepts connCreateDef p s = true → ∃ h f n q1 q2, namedBy p = .func h f ∧ connNumber (onceTaken p s) h.val p = some n ∧ twoIds (onceTaken p s) h f = some (q1, q2) ∧
    exec (.connCreate p) s = .next (
      let t := onceTaken p s
      let rate := rateOr t (groupRate t h (p.f 2 16 16))
      let inh := inherited t p rate
      let k := h.val * 2 ^ 24 + n
      let c := freshConn t p (cfgOf t p rate (p.f 3 16 16) q1 q2) (some (fnKey h f)) inh.1 inh.2.1 (p.b 32 1) ((freeHome t (p.b 32 1) h.val).getD 0)
      let qs := Tbl.put (Tbl.put t.queues (qKey h f q1) (connQ 4 (p.f 4 0 4) (p.f 3 16 16) (p.d 6) k (p.f 2 0 3) (p.f 2 16 16))) (qKey h f q2) (connQ 5 (p.f 4 4 4) (p.f 3 16 16) (p.d 8) k 0 0)
      replied p .ok [n + p.f 0 24 8 * 2 ^ 24, q1 + q2 * 65536]
        (addConn h.val n c (pinOf p) inh.2.2 (addLeaf h 1 f q2 (rxGroup f) (addLeaf h 0 f q1 (p.f 2 16 16) { t with drawn := t.drawn + 2, queues := qs }))))) ∧
  (accepts connModifyDef p s = true → ∃ k c, namedConn s (namedBy p) p = some (k, c) ∧ lostCtx c = false ∧
    exec (.connModify p) s = .next (replied p .ok [] (modifyConn k (p.f 1 0 2) p (onceTaken p s)))) ∧
  (accepts connDestroyDef p s = true → ∃ k c, namedConn s (namedBy p) p = some (k, c) ∧ exec (.connDestroy p) s = .next (replied p .ok [] (endConn true k (onceTaken p s)))) ∧
  (accepts connQueryDef p s = true → longFits p 12 = true → ∃ k c, namedConn s (namedBy p) p = some (k, c) ∧ lostCtx c = false ∧
    exec (.connQuery p) s = .next (repliedLong p (connWords k c) (onceTaken p s))) ∧
  (accepts ctxPinDef p s = true → ∃ k c, namedConn s (namedBy p) p = some (k, c) ∧ exec (.ctxPin p) s = .next (replied p .ok []
    (if c.resident then modConn k (fun c => { c with pinned := true }) (onceTaken p s) else if lostCtx c then onceTaken p s
     else missFetch k (modConn k (fun c => { c with pinDue := true }) (onceTaken p s))))) ∧
  (accepts ctxUnpinDef p s = true → ∃ k c, namedConn s (namedBy p) p = some (k, c) ∧ c.cfg.cls ≠ 7 ∧ (c.pinned || c.pinDue) = true ∧
    exec (.ctxUnpin p) s = .next (replied p .ok [] (modConn k (fun c => { c with pinned := false, pinDue := false }) (onceTaken p s)))) ∧
  (accepts ctxMigrateDef p s = true → ∃ h, namedBy p = .host h ∧
    exec (.ctxMigrate p) s = .next (begun 0x0606 p (.ctxMigrate h.val (p.w 0) (p.w 1) (p.f 2 0 2)) (ceilDiv (p.w 1) 1024) 0 (onceTaken p s))) ∧
  (accepts hostBackingSetDef p s = true → ∃ h, namedBy p = .host h ∧ (s.ctx.conns.any fun e => connDom e.1 == h.val && e.2.hostHome) = false ∧
    exec (.hostBackingSet p) s = .next (replied p .ok [] (modCtx (fun x => { x with backing := vset x.backing h (p.d 0, p.d 2) }) (onceTaken p s)))) ∧
  (accepts pathWriteDef p s = true → pathDeletes p = true → ∃ i old, pathFind s (p.b 0 0) (cmdPrefix p) = some (i, old) ∧
    exec (.pathWrite p) s = .next (replied p .ok [] (modCtx (fun x => { x with paths := Tbl.del x.paths i }) (onceTaken p s)))) ∧
  (accepts pathWriteDef p s = true → pathDeletes p = false → ∀ i old, pathFind s (p.b 0 0) (cmdPrefix p) = some (i, old) →
    exec (.pathWrite p) s = .next (replied p .ok [] (pathPut i { lock := true, v6 := p.b 0 0, samples := old.samples, baseRtt := p.w 1, initRate := p.w 2, prefix_ := cmdPrefix p } (onceTaken p s)))) ∧
  (accepts pathWriteDef p s = true → pathDeletes p = false → pathFind s (p.b 0 0) (cmdPrefix p) = none → ∃ i, pathPlace s (pathSet s (p.b 0 0) (cmdPrefix p)) = some i ∧
    exec (.pathWrite p) s = .next (replied p .ok [] (pathPut i { lock := true, v6 := p.b 0 0, samples := 0, baseRtt := p.w 1, initRate := p.w 2, prefix_ := cmdPrefix p } (onceTaken p s)))) ∧
  (accepts pathReadDef p s = true → longFits p 16 = true → ∃ i e, pathFind s (p.b 0 0) (cmdPrefix p) = some (i, e) ∧
    exec (.pathRead p) s = .next (repliedLong p (pathWords e) (onceTaken p s))) ∧
  (accepts xportConfigDef p s = true → Completes (exec (.xportConfig p) s) fun t => let c := s.ctx.cfg
    t.ctx.cfg = { udpPort := keep0 (p.f 0 0 16) c.udpPort, rtoMax := keep0 (p.w 1) c.rtoMax, retryLimit := keep0 (p.f 2 0 4) c.retryLimit, rnrRetry := keep0 (p.f 2 8 4) c.rnrRetry
                  rnrTimer := keep0 (p.f 2 16 16) c.rnrTimer, ackDelay := keep0 (p.f 3 0 16) c.ackDelay, ackEvery := keep0 (p.f 3 16 8) c.ackEvery, margin := keep0 (p.w 4) c.margin
                  defaultRtt := keep0 (p.w 5) c.defaultRtt, initDiv := keep0 (p.f 6 0 8) c.initDiv, nakLimit := keep0 (p.w 7) c.nakLimit })

/-- O27. The namespace, drive and remote target commands (R302 to R306, R314, R315, R323, R326). -/
def Obligations.StorageCommandsComplete : Prop :=
  ∀ (p : Packet) (s : State),
  (accepts nsCreateDef p s = true → nspace s (cmdNs p) = none ∧ exec (.nsCreate p) s = .next (
    let block := if p.b 0 24 then 4096 else 512
    replied p .ok [] (modNvme (fun n => { n with namespaces := Tbl.put n.namespaces (cmdNs p) { host := p.f 0 16 3, block := block, size := p.d 2, key := some (p.f 4 0 17), extents := [], attached := none, busy := 0, atomic := block } }) (onceTaken p s)))) ∧
  (accepts nsBackingSetDef p s = true → (∃ x, nspace s (cmdNs p) = some x ∧ x.attached = none ∧ (extRecs p).foldl (fun n e => n + e.units) 0 * unitBytes = x.size * x.block) ∧
    exec (.nsBackingSet p) s = .next (let s1 := modNs (cmdNs p) (fun x => { x with extents := (extRecs p).map (recordDrive (onceTaken p s)) }) (onceTaken p s)
      replied p .ok [] (refreshAtomic (cmdNs p) (modNvme (fun v => { v with segs := v.segs.map fun g => if g.ns = cmdNs p then { g with held := false, failed := false, retried := false, retryDue := false } else g }) s1)))) ∧
  (accepts nsAttachDef p s = true → ∃ h f x, namedBy p = .func h f ∧ nspace s (cmdNs p) = some x ∧ x.extents ≠ [] ∧ x.attached = none ∧ x.host = h.val ∧
    exec (.nsAttach p) s = .next (let t := onceTaken p s
      replied p .ok [] (nsChangedHere (cmdNs p) 1 (modNs (cmdNs p) (fun x => { x with attached := some (fnKey h f, if p.w 1 = 0 then freeNsid t (fnKey h f) else p.w 1) }) t)))) ∧
  (accepts nsDetachDef p s = true → ∃ h f x, namedBy p = .func h f ∧ nspace s (cmdNs p) = some x ∧ x.attached = some (fnKey h f, p.w 1) ∧
    exec (.nsDetach p) s = .next (replied p .ok [] (settleCache (detachNs (cmdNs p) (fnKey h f) (p.w 1) (onceTaken p s))))) ∧
  (accepts nsDeleteDef p s = true → (∃ x, nspace s (cmdNs p) = some x ∧ x.attached = none ∧ x.busy = 0) ∧
    exec (.nsDelete p) s = .next (begun 0x0704 p (.nsDelete (cmdNs p)) 1 0 (onceTaken p s))) ∧
  (accepts driveInfoDef p s = true → exec (.driveInfo p) s = .next (answer p (replyLong (Config.layout 0x0705 (driveFields (drive s (p.f 0 0 4)))) (onceTaken p s)) (onceTaken p s))) ∧
  (accepts driveFormatDef p s = true → exec (.driveFormat p) s = .next (begun 0x0706 p (.driveFormat (p.f 0 0 4) (p.f 0 8 4 + p.f 0 12 3 * 16 + p.w 1 * 256)) 2 0 (onceTaken p s))) ∧
  (accepts cacheFlushDef p s = true → p.b 0 24 = true → exec (.cacheFlush p) s = .next
    (begun 0x0707 p (.cacheFlush none (if p.b 0 16 then none else some (cmdNs p)) true) 1 0 (onceTaken p s))) ∧
  (accepts cacheFlushDef p s = true → p.b 0 24 = false → Completes (exec (.cacheFlush p) s) fun t => ∃ o, o ∈ t.ops ∧ o.opcode = 0x0707 ∧ o.chan = p.chan ∧ o.tag = p.tag) ∧
  (accepts sanitizeDef p s = true → exec (.sanitize p) s = .next (begun 0x0708 p (.sanitize (p.f 0 16 2 != 1) (cmdNs p) (p.f 0 16 2)) 2 0
    (if p.f 0 16 2 = 1 then modNs (cmdNs p) (fun x => { x with busy := 2 }) (onceTaken p s) else onceTaken p s))) ∧
  (accepts remoteTargetSetDef p s = true → rtDelete p = true → ∃ x, target s (rtTarget p) = some x ∧
    exec (.remoteTargetSet p) s = .next (replied p .ok [] (modNvme (fun n => { n with targets := Tbl.del n.targets (rtTarget p) }) (endConn false x.conn (targetGone (rtTarget p) (onceTaken p s)))))) ∧
  (accepts remoteTargetSetDef p s = true → rtDelete p = false → ∃ n, connNumber (onceTaken p s) 8 p = some n ∧
    exec (.remoteTargetSet p) s = .next (let t := onceTaken p s
      let s0 := match target s (rtTarget p) with
        | none => t
        | some x => modNvme (fun n => { n with targets := Tbl.del n.targets (rtTarget p) }) (endConn false x.conn (targetGone (rtTarget p) t))
      let rate := (rateOfPort t (rtPort p)).getD 0
      let inh := inherited t p rate
      let s1 := addConn 8 n (freshConn t p (cfgOf t p rate 0 0 0) none inh.1 inh.2.1 false 0) true inh.2.2 (drawn1 s0)
      let v : Target := { conn := 8 * 2 ^ 24 + n, port := rtPort p, atomic := p.w 50, timeout := keep0 (p.f 51 0 16) 2000, maxOut := keep0 (p.f 51 16 12) 256, nextTag := 0, cmds := [], waiting := [] }
      replied p .ok [n + p.f 0 24 8 * 2 ^ 24] (backingReturns (onTarget (rtTarget p)) (modNvme (fun x => { x with targets := Tbl.put x.targets (rtTarget p) v }) s1))))

/-- O28. The commands of the key store (R331 to R340, R355, R356): what an accepted one answers and leaves. What an unwrap finds is open, so each outcome of it is stated. -/
def Obligations.KeyCommandsComplete : Prop :=
  ∀ (p : Packet) (s : State),
  (accepts keyAllocateDef p s = true → ∃ n, freeSlots (onceTaken p s) (p.f 0 0 7) = some n ∧ exec (.keyAllocate p) s = .next (replied p .ok [n]
    (modCrypt (fun c => { c with slots := (upFrom n (p.f 0 0 7)).foldl (fun t i => Tbl.put t i (emptySlot (keyOwner (namedBy p)))) c.slots }) (drawn1 (onceTaken p s))))) ∧
  (accepts keyImportDef p s = true → exec (.keyImport p) s = .next (match importMaterial (namedBy p) p (onceTaken p s) with
    | none => replied p .keyRefused [] (unwrapFailed (onceTaken p s))
    | some m => if equalHalves (impUse p) m then replied p .keyRefused [] (onceTaken p s) else replied p .ok [] (loadKey_ (p.f 0 0 17) p m (drawn1 (onceTaken p s))))) ∧
  (accepts keyDestroyDef p s = true → exec (.keyDestroy p) s = .next (replied p .ok []
    (if isPageRef (p.w 0) then modCrypt (fun c => { c with pages := Tbl.del c.pages (p.f 0 0 24) }) (onceTaken p s) else freeSlot (p.w 0) (sealSlot (p.w 0) none (onceTaken p s))))) ∧
  (accepts keyQueryDef p s = true → ∃ k, keyOfRef s (p.w 0) = some k ∧ k.owner = keyOwner (namedBy p) ∧
    exec (.keyQuery p) s = .next (replied p .ok (keyRecord k (if isPageRef (p.w 0) then 0 else boundOf s (p.w 0)) (objTarget (namedBy p))) (onceTaken p s))) ∧
  (accepts importKeySetDef p s = true → exec (.importKeySet p) s = .next (match newIkek p (onceTaken p s) with
    | none => replied p .keyRefused [] (unwrapFailed (onceTaken p s))
    | some k => replied p .ok [] (let t := modCrypt (fun c => { c with ikeks := Tbl.put c.ikeks (ikekKey (keyOwner (namedBy p))) k }) (onceTaken p s)
        if (namedBy p).isDevice then { t with nv := { t.nv with sealedIkek := some k } } else t))) ∧
  (accepts keyTierSetDef p s = true → isPageRef (p.w 0) = false → ∃ page, freePage (onceTaken p s) = some page ∧
    exec (.keyTierSet p) s = .next (replied p .ok [2 ^ 31 + page] (pageOut (p.w 0) page (drawn1 (onceTaken p s))))) ∧
  (accepts keyTierSetDef p s = true → isPageRef (p.w 0) = true → ((Tbl.find s.crypt.pages (p.f 0 0 24)).any fun k => k.bad) = false → ∃ n, freeSlots (onceTaken p s) 1 = some n ∧
    exec (.keyTierSet p) s = .next (replied p .ok [n] (pageIn (p.f 0 0 24) n (drawn1 (onceTaken p s))))) ∧
  (accepts keyTierSetDef p s = true → isPageRef (p.w 0) = true → ((Tbl.find s.crypt.pages (p.f 0 0 24)).any fun k => k.bad) = true →
    exec (.keyTierSet p) s = .next (replied p .keyRefused [] (count 0x0B 0 0x603 1 (modCrypt (fun c => { c with pages := Tbl.del c.pages (p.f 0 0 24) }) (onceTaken p s))))) ∧
  (accepts keystoreZeroiseDef p s = true → p.w 0 = 0x5A45524F ∧ exec (.keystoreZeroise p) s = .next (replied p .ok [] (let t := eraseAlarm 8 (onceTaken p s)
    if p.b 1 0 then modCrypt (fun c => { c with slots := Tbl.mapAll c.slots fun _ k => { k with persist := false } }) { t with nv := { t.nv with sealed := [], sealedIkek := none } } else t)))

/-- O29. The commands of the compute clusters' programs (R383, R393, R395 to R397); whether a component's bytes are a program is open, so both outcomes of PROGRAM_LOAD are stated. -/
def Obligations.ProgramCommandsComplete : Prop :=
  ∀ (p : Packet) (s : State),
  (accepts loadRequest p s = true → exec (.programLoad p) s = .next (let t := onceTaken p s
    match programOfComponent t (p.f 0 0 8) with
    | none => replied p .imageInvalid [] t
    | some _ => begun 0x0900 p (.programLoad (p.f 0 0 8) (p.f 0 16 4) (p.w 1)) (maskClusters (p.w 1)).length 0 (extend 4 (loadDigest t (p.f 0 0 8) (p.f 0 16 4) (p.w 1)) t))) ∧
  (accepts programStartDef p s = true → (∀ c ∈ maskClusters (p.w 0), (cluster s c.val).program ≠ none ∧ clusterLive s c.val = false) ∧
    exec (.programStart p) s = .next (replied p .ok [] ((maskClusters (p.w 0)).foldl (fun s c => startCluster (p.d 2) (p.d 4) c s) (onceTaken p s)))) ∧
  (accepts programStopDef p s = true → exec (.programStop p) s = .next (
    let cs := maskClusters (p.f 0 0 16)
    let s2 := cs.foldl (fun s c => (upFrom (16 * c.val) 16).foldl (fun s ck => dropBps ck s) s) (cs.foldl (fun s c => stopCluster c s) (onceTaken p s))
    replied p .ok [] (if p.b 0 16 then cs.foldl (fun s c => unloadCluster c s) s2 else s2))) ∧
  (accepts channelGrantDef p s = true → exec (.channelGrant p) s = .next (let t := onceTaken p s
    replied p .ok [] { t with cores := { t.cores with grants := Tbl.put t.cores.grants (p.f 0 0 4) { ports := p.f 0 8 6, sources := sourcesOf (slice p.bytes 8 32) } } })) ∧
  (accepts coreStatusDef p s = true → longFits p 65 = true → exec (.coreStatus p) s = .next (let t := onceTaken p s
    repliedLong p (clStatusWord t (p.f 0 0 4) :: (upFrom (16 * p.f 0 0 4) 16).flatMap fun ck => [threadsLo t ck, threadsHi t ck] ++ words64 (coreOf t ck).retired) t)) ∧
  (accepts watchdogSetDef p s = true → exec (.watchdogSet p) s = .next (replied p .ok []
    (((maskClusters (p.f 0 0 16)).flatMap fun c => upFrom (16 * c.val) 16).foldl (fun s ck =>
      modCore ck (fun c => { c with wdogAction := p.f 0 16 2, wdogTimeout := p.f 1 0 22, wdogFrom := s.now }) s) (onceTaken p s))))

/-- O30. Self-test, repair, fuse and PARK plan commands, and the images and keys of the boot store (R432, R434 to R438, R442, R447). -/
def Obligations.TestRepairAndImageCommandsComplete : Prop :=
  ∀ (p : Packet) (s : State),
  (accepts selftestRunDef p s = true → exec (.selftestRun p) s = .next (begun 0x0A00 p (.selftest (p.f 0 0 14)) (bitCount 14 (p.f 0 0 14)) 0 (onceTaken p s))) ∧
  (accepts repairReadDef p s = true → longFits p (4 + (((s.nv.repairs.drop (p.w 0)).take 126).flatMap repairWords).length) = true → exec (.repairRead p) s = .next (let t := onceTaken p s
    repliedLong p ([t.nv.repairs.length, fuseFree t, sparesWord t, 0] ++ ((t.nv.repairs.drop (p.w 0)).take 126).flatMap repairWords) t)) ∧
  (accepts fuseProgramDef p s = true → s.glb.mode = .maintenance ∧ (∀ i ∈ fuseEntries p, ∃ e, s.nv.repairs[i]? = some e ∧ e.state = 1) ∧
    exec (.fuseProgram p) s = .next (begun 0x0A02 p (.fuseProgram (fuseEntries p)) (p.f 0 0 7) 0 (onceTaken p s))) ∧
  (accepts parkPlanSetDef p s = true → exec (.parkPlanSet p) s = .next (let t := onceTaken p s
    replied p .ok [] { t with nv := { t.nv with planTests := p.f 0 0 14, sliceWarm := p.f 1 0 7, sliceOff := p.f 1 8 7 } })) ∧
  (accepts imageStageDef p s = true → exec (.imageStage p) s = .next (let t := onceTaken p s
    replied p .ok [] { t with sec := { t.sec with stage := Mem.writeBytes (if p.b 0 8 then [] else t.sec.stage) 0xFF (p.w 1) (slice p.bytes 16 (p.w 2)), stageSlot := some (p.f 0 0 1) } })) ∧
  (accepts imageInstallDef p s = true → exec (.imageInstall p) s = .next (begun 0x0B01 p (.imageInstall (p.f 0 0 1) (p.b 0 8)) (if p.b 0 8 then 1 else 3) 0 (onceTaken p s))) ∧
  (accepts imageInfoDef p s = true → longFits p 12 = true → Completes (exec (.imageInfo p) s) fun t =>
    ∃ ws, t = repliedLong p ws (onceTaken p s) ∧ ws.length = 12 ∧ (ws.getD 6 0 = s.nv.minVersion)) ∧
  (accepts commitVersionDef p s = true → s.nv.minVersion < s.sec.version ∧ Completes (exec (.commitVersion p) s) fun t => t.nv.minVersion = s.sec.version) ∧
  (accepts revokeKeyDef p s = true → Completes (exec (.revokeKey p) s) fun t => t.nv.revoked = setBitAt s.nv.revoked (p.f 0 0 2) true) ∧
  (accepts ownerKeyProvisionDef p s = true → s.glb.mode = .maintenance ∧ 2 ≤ p.f 0 0 2 ∧ Completes (exec (.ownerKeyProvision p) s) fun t =>
    t.nv.keyDigests[p.f 0 0 2]? = some (Config.sha384 (slice p.bytes 8 0xA80)) ∧
    t.nv.provisioned = if freshNat s % 2 = 0 then setBitAt s.nv.provisioned (p.f 0 0 2) true else s.nv.provisioned) ∧
  (accepts measurementReadDef p s = true → longFits p (16 * ((List.finRange 16).filter fun i => p.b 0 i.val).length) = true → exec (.measurementRead p) s = .next (let t := onceTaken p s
    repliedLong p (((List.finRange 16).filter fun i => p.b 0 i.val).flatMap fun i => measurementReadDef.words8 (t.sec.mrs[i]) ++ [t.sec.extends_[i], 0, 0, 0]) t))

/-- O31. The counter, event mask and violation commands, and a packet whose opcode no table assigns (R66, R75, R82, R504, R505, R508). -/
def Obligations.CounterEventAndUnassignedCommandsComplete : Prop :=
  ∀ (p : Packet) (s : State),
  (accepts counterReadDef p s = true → longFits p (2 * p.w 2) = true → exec (.counterRead p) s = .next (let t := onceTaken p s
    repliedLong p (ctrWords t (p.f 0 0 8) (p.f 0 8 4) (p.w 1) (p.w 2)) (if p.b 0 16 then clearCounters (p.f 0 0 8) (p.f 0 8 4) (p.w 1) (p.w 2) t else t))) ∧
  (accepts counterSnapshotDef p s = true → p.chan = .owner ∨ 8 * p.w 2 ≤ p.resultLen.toNat → exec (.counterSnapshot p) s = .next (let e := if p.bound then p.epochBind.toNat else s.epochs.epoch + 1
    begun 0x0C01 p (.snapshot (p.f 0 0 8) (p.f 0 8 4) (p.w 1) (p.w 2) (p.b 0 16) (if p.bound then some e else none)) 0 e (onceTaken p s))) ∧
  (accepts eventMaskSetDef p s = true → p.chan = .owner → exec (.eventMaskSet p) s = .next (let t := onceTaken p s
    replied p .ok [] { t with owner := { t.owner with mask := maskOf p } })) ∧
  (∀ c, accepts eventMaskSetDef p s = true → p.chan = .ring c → exec (.eventMaskSet p) s = .next (replied p .ok [] (modRing c (fun r => { r with mask := maskOf p }) (onceTaken p s)))) ∧
  (accepts eventMaskSetDef p s = true → maskOf p &&& maskAllowed = maskOf p) ∧
  (accepts violationReadDef p s = true → ∃ ws, exec (.violationRead p) s = .next (answer p (replyLong ws (onceTaken p s)) (onceTaken p s)) ∧ ∃ vs : List Violation,
    ws.drop 4 = vs.flatMap violationWords ∧ vs.length ≤ p.f 1 0 6 ∧ (∀ v ∈ vs, v ∈ s.violations.log ∧ violationShown s p.chan v = true) ∧ ws.getD 2 0 = vs.length ∧ ws.getD 1 0 = s.violations.seq % 2 ^ 32) ∧
  (∀ op : BitVec 16, takes p s = true → ¬(assignedOpcode op.toNat = true ∧ p.version = 1) → exec (.unassignedOpcode op p) s = .next (replied p .badOpcode [] (onceTaken p s))) ∧
  (∀ c, (ring s c).running = true → p.chan = .ring c → ringSize (ring s c).sqCfg ≤ p.slots → ringUsed (ring s c).sqCfg (ring s c).sqHead (ring s c).sqTail ≠ 0 → rqFull (ring s c) = false →
    exec (.oversizeCommand c p) s = .next (modRing c (fun r => { r with oversize := true, running := false }) (replied p .badLength [p.slots] s)))

/-- O32. The registers and doorbells of a command ring, and the owner's events (R60 to R63, R83): effects, what a ring that is absent or not enabled does, and the doorbell values the spec leaves undefined. -/
def Obligations.RingRegistersAndOwnerEventsComplete : Prop :=
  (∀ (c : RingChan) (s : State),
  (ringPresent s c = true → (ring s c).enable = false → (∀ n ∈ [(ring s c).sqCfg, (ring s c).rqCfg, (ring s c).eqCfg], 6 ≤ n ∧ n ≤ 15) →
    exec (.hlinkCmdEnableSet c) s = .next (modRing c (fun r => { r with sqTail := 0, sqHead := 0, rqHead := 0, rqTail := 0, eqHead := 0, eqTail := 0, rqPhase := true, eqPhase := true, enable := true, running := true, seq := 0, mask := 0, unreported := 0 }) s)) ∧
  (ringPresent s c = true → (ring s c).enable = false → (∃ n ∈ [(ring s c).sqCfg, (ring s c).rqCfg, (ring s c).eqCfg], n < 6 ∨ 15 < n) →
    exec (.hlinkCmdEnableSet c) s = .next (modRing c (fun r => { r with cfgErr := true }) s)) ∧
  (ringPresent s c = true → (ring s c).enable = true → exec (.hlinkCmdEnableClear c) s = .next (modRing c (fun r => { r with enable := false, running := false }) (channelGone c s))) ∧
  (∀ on, ringPresent s c = true → exec (.hlinkCmdEventEnableWrite c on) s = .next (modRing c (fun r => { r with eventEnable := on }) s)) ∧
  (∀ v, ringPresent s c = true → (ring s c).enable = false ∨ badTail (ring s c).sqCfg (ring s c).sqHead (ring s c).sqTail (v.toNat % 2 ^ 15) = false →
    exec (.hlinkCmdSqTail c v) s = .next (modRing c (fun r => { r with sqTail := v.toNat % 2 ^ 15 }) s)) ∧
  (∀ v, ringPresent s c = true → (ring s c).enable = true → badTail (ring s c).sqCfg (ring s c).sqHead (ring s c).sqTail (v.toNat % 2 ^ 15) = true →
    exec (.hlinkCmdSqTail c v) s = .refused (.undefinedCase 62)) ∧
  (∀ v, ringPresent s c = true → (ring s c).enable = false ∨ v.toNat % 2 ^ 15 < ringSize (ring s c).rqCfg →
    exec (.hlinkCmdRqHead c v) s = .next (modRing c (fun r => { r with rqHead := v.toNat % 2 ^ 15 }) s)) ∧
  (∀ v, ringPresent s c = true → (ring s c).enable = true → ringSize (ring s c).rqCfg ≤ v.toNat % 2 ^ 15 → exec (.hlinkCmdRqHead c v) s = .refused (.undefinedCase 62)) ∧
  (∀ v, ringPresent s c = true → (ring s c).enable = false ∨ v.toNat % 2 ^ 15 < ringSize (ring s c).eqCfg →
    exec (.hlinkCmdEqHead c v) s = .next (reportLost c (modRing c (fun r => { r with eqHead := v.toNat % 2 ^ 15 }) s))) ∧
  (∀ v, ringPresent s c = true → (ring s c).enable = true → ringSize (ring s c).eqCfg ≤ v.toNat % 2 ^ 15 → exec (.hlinkCmdEqHead c v) s = .refused (.undefinedCase 62)) ∧
  (∀ v on, ringPresent s c = false → ∀ i ∈ [Instr.hlinkCmdEnableSet c, .hlinkCmdEnableClear c, .hlinkCmdEventEnableWrite c on, .hlinkCmdSqTail c v, .hlinkCmdRqHead c v, .hlinkCmdEqHead c v], exec i s = .next s)) ∧
  (∀ (s : State) e r (tries : Fin 5), s.owner.held = e :: r → s.owner.spoken = true → s.glb.fwRuns = true → tries.val ≠ 4 →
    exec (.ownerEventSend tries) s = .next (reportOwnerLost (emit (.event .owner (if s.nv.eventsToVdm then s.nv.ownerVdm else none) e) { s with owner := { s.owner with held := r } }))) ∧
  (∀ (s : State) e r, s.owner.held = e :: r → s.owner.spoken = true → s.glb.fwRuns = true →
    exec (.ownerEventSend 4) s = .next (reportOwnerLost { s with owner := { s.owner with held := r, unreported := s.owner.unreported + 1 } })) ∧
  (∀ (s : State) tries, s.owner.held = [] ∨ s.owner.spoken = false ∨ s.glb.fwRuns = false → exec (.ownerEventSend tries) s = .next s)

/-- O33. The MCTP endpoint (R57, R58, R439): what each control request is answered with where the endpoint takes messages, and that it answers nothing elsewhere. -/
def Obligations.MctpRequestsComplete : Prop :=
  ∀ (path : MctpPath) (s : State),
  (∀ (op : BitVec 2) (eid : Byte), mctpOpen path s = true → op.toNat < 2 → 8 ≤ eid.toNat → eid.toNat ≠ 0xFF → Completes (exec (.mctpSetEndpointId path op eid) s) fun t =>
    mctpEid path t = eid ∧ t.out = .mctp path [1, 0, 0, eid.toNat, 0] :: s.out) ∧
  (∀ (op : BitVec 2) (eid : Byte), mctpOpen path s = true → (2 ≤ op.toNat ∨ eid.toNat < 8 ∨ eid.toNat = 0xFF) → exec (.mctpSetEndpointId path op eid) s = .next (emit (.mctp path [1, 2]) s)) ∧
  (mctpOpen path s = true → exec (.mctpGetEndpointId path) s = .next (emit (.mctp path [2, 0, (mctpEid path s).toNat, 0, 0]) s)) ∧
  (∀ ty : Byte, mctpOpen path s = true → ty.toNat = 0xFF ∨ ty.toNat = 0 → exec (.mctpGetVersionSupport path ty) s = .next (emit (.mctp path [4, 0, 1, 0xF1, 0xF3, 0xFF, 0]) s)) ∧
  (∀ ty : Byte, mctpOpen path s = true → s.glb.fwRuns = true → ty.toNat = 5 ∨ ty.toNat = 0x7E →
    exec (.mctpGetVersionSupport path ty) s = .next (emit (.mctp path [4, 0, 1, freshNat s % 2 ^ 32]) (drawn1 s))) ∧
  (∀ ty : Byte, mctpOpen path s = true → ty.toNat ∉ [0xFF, 0, 5, 0x7E] → exec (.mctpGetVersionSupport path ty) s = .next (emit (.mctp path [4, 0x80]) s)) ∧
  (mctpOpen path s = true → s.glb.fwRuns = true → exec (.mctpGetMessageTypeSupport path) s = .next (emit (.mctp path [5, 0, 3, 0x00, 0x05, 0x7E]) s)) ∧
  (mctpOpen path s = true → s.glb.fwRuns = false → exec (.mctpGetMessageTypeSupport path) s = .next (emit (.mctp path [5, 0, 1, 0x00]) s)) ∧
  (mctpOpen path s = true → exec (.mctpGetVdmSupport path 0) s = .next (emit (.mctp path [6, 0, 0xFF, 0, 0x7B, 0x4D, 0, 0]) s)) ∧
  (∀ sel : Byte, mctpOpen path s = true → sel ≠ 0 → exec (.mctpGetVdmSupport path sel) s = .next (emit (.mctp path [6, 2]) s)) ∧
  (∀ ic (ty : Byte), mctpOpen path s = true → ic = true ∨ ty.toNat ∉ [0, 5, 0x7E] → exec (.mctpMessageDiscarded path ic ty) s = .next (count 0 0 10 1 s)) ∧
  (∀ op eid ty sel, mctpOpen path s = false → ∀ i ∈ [Instr.mctpSetEndpointId path op eid, .mctpGetEndpointId path, .mctpGetMessageTypeSupport path, .mctpGetVdmSupport path sel, .mctpMessageDiscarded path true ty], exec i s = .next s)

/-- O34. The SPDM responders and DOE Discovery (R92, R444 to R446): each request served where the responder and the negotiation allow it, and the errors elsewhere. -/
def Obligations.SpdmAndDoeRequestsComplete : Prop :=
  (∀ (r : SpdmPort) (q : SpdmReq) (s : State),
  (spdmServed r s = true → q.version = 0x10 → exec (.spdmGetVersion r q) s = .next
    (spdmReply r q 0x84 0x04 0 0 [0, 2, 0, 0x12, 0, 0x13] growVca (modSpdm r (fun _ => { Spdm.reset with stage := 1, version := 0x10 }) s))) ∧
  (spdmServed r s = true → spdmBars r q 1 s = none → exec (.spdmGetCapabilities r q) s = .next
    (spdmReply r q 0xE1 0x61 0 0 ([0, 20, 0, 0] ++ leBytes 4 0x16 ++ leBytes 4 4096 ++ leBytes 4 4096) growVca (modSpdm r (fun i => { i with stage := 2, version := q.version.toNat }) s))) ∧
  (spdmServed r s = true → spdmBars r q 2 s = none → bitAt (leNat (slice q.body 4 4)) 7 = true → bitAt (leNat (slice q.body 8 4)) 1 = true → Completes (exec (.spdmNegotiateAlgorithms r q) s) fun t =>
    (spdm t r).stage = 3 ∧ ∃ b, t.out = .spdm r 0x63 0 0 b :: s.out) ∧
  (spdmServed r s = true → spdmBars r q 3 s = none → exec (.spdmGetDigests r q) s = .next (spdmReply r q 0x81 0x01 (if (spdm s r).version = 0x13 then 1 else 0) 1 (Config.sha384 Config.certChain) growM s)) ∧
  (spdmServed r s = true → spdmBars r q 3 s = none → q.param1.toNat % 16 = 0 → leNat (slice q.body 2 2) ≠ 0 → exec (.spdmGetCertificate r q) s = .next (
    let off := leNat (slice q.body 0 2)
    let n := min (min (leNat (slice q.body 2 2)) 4088) (Config.certChain.length - off)
    if Config.certChain.length ≤ off then spdmError r 1 0 s
    else spdmReply r q 0x82 0x02 0 0 (leBytes 2 n ++ leBytes 2 (Config.certChain.length - off - n) ++ slice Config.certChain off n) growM s)) ∧
  (spdmServed r s = true → spdmBars r q 3 s = none → q.param1 = 0 → q.param2.toNat ∈ [0, 1, 0xFF] → Completes (exec (.spdmChallenge r q) s) fun t =>
    (spdm t r).transcript = (spdm s r).vca ∧ (spdm t r).measured = [] ∧ ∃ b, t.out = .spdm r 0x03 0 1 (Config.sha384 Config.certChain ++ Config.freeBytes s.drawn 32 ++ b) :: s.out) ∧
  (spdmServed r s = true → spdmBars r q 3 s = none → q.param2.toNat = 0xFF ∨ q.param2.toNat ≤ 20 → bitAt q.param1.toNat 0 = false → Completes (exec (.spdmGetMeasurements r q) s) fun t =>
    ∃ b, t.out = .spdm r 0x60 (if q.param2 = 0 then 20 else 0) 0 b :: s.out ∧ (spdm t r).vca = (spdm s r).vca) ∧
  (spdmServed r s = true → spdmBars r q 3 s = none → q.param2.toNat = 0xFF ∨ q.param2.toNat ≤ 20 → bitAt q.param1.toNat 0 = true → (slice q.body 32 1).any (· != 0) = false →
    Completes (exec (.spdmGetMeasurements r q) s) fun t => (∃ b, t.out = .spdm r 0x60 (if q.param2 = 0 then 20 else 0) 0 b :: s.out) ∧ (spdm t r).measured = []) ∧
  (spdmServed r s = true → q.code.toNat ∉ [0x81, 0x82, 0x83, 0x84, 0xE0, 0xE1, 0xE3] → exec (.spdmUnsupportedRequest r q) s = .next (spdmError r 7 q.code.toNat s)) ∧
  (∀ n e, spdmServed r s = true → spdmBars r q n s = some e →
    (n = 1 → exec (.spdmGetCapabilities r q) s = .next (spdmError r e 0 s)) ∧ (n = 2 → exec (.spdmNegotiateAlgorithms r q) s = .next (spdmError r e 0 s)) ∧
    (n = 3 → ∀ i ∈ [Instr.spdmGetDigests r q, .spdmGetCertificate r q, .spdmChallenge r q, .spdmGetMeasurements r q], exec i s = .next (spdmError r e 0 s))) ∧
  (spdmServed r s = false → ∀ i ∈ [Instr.spdmGetVersion r q, .spdmGetCapabilities r q, .spdmNegotiateAlgorithms r q, .spdmGetDigests r q, .spdmGetCertificate r q, .spdmChallenge r q, .spdmGetMeasurements r q, .spdmUnsupportedRequest r q],
    exec i s = .next s)) ∧
  (∀ (h : HostId) (ix : Byte) (s : State), linkUp s h = true → exec (.doeDiscovery h ix) s = .next
    (emit (.doe h [0x0001, 3, if ix = 0 then 0x0001 + b2n s.glb.fwRuns * 2 ^ 24 else if ix = 1 ∧ s.glb.fwRuns = true then 0x00010001 else 0xFFFF]) s)) ∧
  (∀ (h : HostId) (ix : Byte) (s : State), linkUp s h = false → exec (.doeDiscovery h ix) s = .next s)

/-- O35. Attach, detach, retraining and lane faults of a host link, the reload of its units' defaults, and ATS invalidations (R42, R87 to R89, R113 to R116, R463): what each does while the link is in the state the rules name, and that it does nothing else. -/
def Obligations.HostLinkEventsComplete : Prop :=
  ∀ (h : HostId) (s : State),
  (∀ t, s.glb.powered = true → (link s h).state ≠ 3 → s.clk.hostRefs[h] = true → isLost s 0x12 h.val = false → s.glb.mode ≠ .boot → s.glb.mode ≠ .park →
    widthWithout [16, 8, 4, 1] (link (noteBadLanes h t.badLanes s) h).lostLanes t.width ≠ 0 → Completes (exec (.hostAttach h t) s) fun u =>
    (link u h).state = 3 ∧ (link u h).width = widthWithout [16, 8, 4, 1] (link (noteBadLanes h t.badLanes s) h).lostLanes t.width ∧ (link u h).speed = t.speed ∧
    (link u h).flit = (t.flit || decide (6 ≤ t.speed)) ∧ (link u h).dlUp = true ∧ (link u h).attachDue = none) ∧
  (∀ t, s.glb.powered = true → (link s h).state ≠ 3 → s.clk.hostRefs[h] = true → isLost s 0x12 h.val = false → s.glb.mode = .boot →
    exec (.hostAttach h t) s = .next (modLink h (fun l => { l with attachDue := some t, state := 2, dlUp := true, perst := false }) s)) ∧
  (∀ t, s.glb.powered = false ∨ (link s h).state = 3 ∨ s.clk.hostRefs[h] = false ∨ isLost s 0x12 h.val = true ∨ s.glb.mode = .park → exec (.hostAttach h t) s = .next s) ∧
  (∀ c, (link s h).state = 3 → Completes (exec (.hostDetach h c) s) fun u => (link u h).state = 0 ∧ (link u h).dlUp = false ∧ (link u h).width = 0 ∧ (link u h).recoveryCount = 0 ∧
    (link u h).perst = ((link s h).perst || c == .perst)) ∧
  (∀ c, (link s h).state ≠ 3 → (link s h).state ≠ 0 → Completes (exec (.hostDetach h c) s) fun u => (link u h).state = 0 ∧ (link u h).dlUp = false ∧ (link u h).attachDue = none) ∧
  (∀ c, (link s h).state = 0 → exec (.hostDetach h c) s = .next (modLink h (fun l => { l with perst := l.perst || c == .perst }) s)) ∧
  (((unitsOfHost h).map (unitAt s)).any (·.defaultsDue) = true → ((unitsOfHost h).map (unitAt s)).all (fun u => u.phase == .idle || u.phase == .armed) = true →
    exec (.hostUnitDefaultsLoad h) s = .next (loadDefaults h s)) ∧
  (((unitsOfHost h).map (unitAt s)).any (·.defaultsDue) = false → exec (.hostUnitDefaultsLoad h) s = .next s) ∧
  (linkUp s h = true → exec (.linkRecoveryEntry h) s = .next (modLink h (fun l => { l with retraining := true, recoveryCount := satAdd 0xFF l.recoveryCount 1 }) s) ∧
    exec (.linkRecoveryExit h) s = .next (modLink h (fun l => { l with retraining := false }) s)) ∧
  (∀ t, linkUp s h = true → widthWithout [16, 8, 4, 1] (link (noteBadLanes h t.badLanes s) h).lostLanes t.width ≠ 0 → Completes (exec (.linkWidthChange h t) s) fun u =>
    (link u h).width = widthWithout [16, 8, 4, 1] (link (noteBadLanes h t.badLanes s) h).lostLanes t.width ∧ (link u h).speed = t.speed ∧ (link u h).retraining = false ∧
    (link u h).state = (link (noteBadLanes h t.badLanes s) h).state) ∧
  (∀ lane, (link s h).lostLanes.contains lane.val = false → s.glb.fwRuns = true → linkUp s h = true → lane.val = 0 →
    exec (.hostLaneFaultInService h lane) s = .next (detachHost h .dlDown (failHostLane 6 h.val lane.val s))) ∧
  (∀ lane, (link s h).lostLanes.contains lane.val = false → s.glb.fwRuns = true → linkUp s h = true → lane.val ≠ 0 → Completes (exec (.hostLaneFaultInService h lane) s) fun u =>
    (link u h).width = widthWithout [16, 8, 4, 1] (link (failHostLane 6 h.val lane.val s) h).lostLanes (link s h).width ∨
      (u = failHostLane 6 h.val lane.val s ∧ widthWithout [16, 8, 4, 1] (link (failHostLane 6 h.val lane.val s) h).lostLanes (link s h).width = (link s h).width)) ∧
  (∀ lane, (link s h).lostLanes.contains lane.val = true ∨ s.glb.fwRuns = false → exec (.hostLaneFaultInService h lane) s = .next s) ∧
  (∀ f, present s h f = true → f ≠ .pf2 → exec (.atsInvalidationRequest h f) s = .next (emit (.atsCompletion h f) s)) ∧
  (∀ t f, linkUp s h = false → present s h f = false → ∀ i ∈ [Instr.linkRecoveryEntry h, .linkRecoveryExit h, .linkWidthChange h t, .atsInvalidationRequest h f], exec i s = .next s)

/-- O36. Function-level resets, Bus Master Enable, VF Enable, MSI-X unmasking, configuration writes and the INTx status register (R91, R92, R95, R96, R105, R111 to R113, R116). -/
def Obligations.FunctionControlsComplete : Prop :=
  ∀ (h : HostId) (f : Fn) (s : State),
  (present s h f = true → Completes (exec (.initiateFlr h f) s) fun t => t = resetFns h (coveredBy s h f) f 1 s ∧ modeOf t.glb = modeOf s.glb) ∧
  (present s h f = true → (fnOf s h f).d3 = true → exec (.d3hotToD0 h f) s = .next (resetFns h (coveredBy s h f) f 2 s)) ∧
  (present s h f = false ∨ (fnOf s h f).d3 = false → exec (.d3hotToD0 h f) s = .next s) ∧
  (linkUp s h = true → f = .pf0 ∨ f = .pf1 → (fnOf s h f).vfEnable = true → Completes (exec (.vfEnableClear h f) s) fun t =>
    t = modFn h f (fun x => { x with vfEnable := false }) (resetFns h (enabledVfs s h f) f 3 s) ∧ (fnOf t h f).vfEnable = false) ∧
  (linkUp s h = true → f = .pf0 ∨ f = .pf1 → Completes (exec (.vfEnableSet h f) s) fun t => (fnOf t h f).vfEnable = true ∧ (∀ g, g ≠ f → fnOf t h g = fnOf s h g) ∧ changesOnly [.fns] s t) ∧
  (present s h f = true → (fnOf s h f).bme = true → exec (.busMasterEnableClear h f) s = .next
    (settleAbandoned h f (abandonReads h (fun g => g == f) 3 (modFn h f (fun x => { x with bme := false }) s)))) ∧
  (present s h f = true → (fnOf s h f).bme = false → exec (.busMasterEnableSet h f) s = .next (kickQueues (fun h' f' => h' == h && f' == f)
    ((fnOf s h f).heldVecs.foldl (fun u v => if vectorLive u h f v then signalVector h f v u else u) (modFn h f (fun x => { x with bme := true, heldVecs := [] }) s)))) ∧
  (present s h f = true → (fnOf s h f).bme = true → exec (.busMasterEnableSet h f) s = .next s) ∧
  (present s h f = true → (fnOf s h f).bme = false → exec (.busMasterEnableClear h f) s = .next s) ∧
  (present s h f = true → exec (.msixUnmask h f none) s = .next (sendPending h f (modFn h f (fun x => { x with msixMask := false }) s))) ∧
  (∀ v, present s h f = true → v.val < msixSize f → exec (.msixUnmask h f (some v)) s = .next (sendPending h f (modFn h f (fun x => { x with unmasked := insertNat x.unmasked v.val }) s))) ∧
  (∀ v, msixSize f ≤ v.val → exec (.msixUnmask h f (some v)) s = .next s) ∧
  (∀ off v be, present s h f = true → exec (.configWrite h f off v be) s = .next (cfgWrite h f (off.toNat / 4 * 4) (mergeBytes (cfgRead s h f (off.toNat / 4 * 4)) v.toNat be.toNat) s)) ∧
  (∀ v : Word, present s h f = true → exec (.configWrite h f 4 v 15) s = .next (
    let t := refreshInta h (modFn h f (fun x => { x with mse := bitAt v.toNat 1, intxDisable := bitAt v.toNat 10 }) s)
    if bitAt v.toNat 2 then setBme h f t else clearBme h f t)) ∧
  (∀ v, linkUp s h = true → Completes (exec (.hlinkIntxStatusClear h v) s) fun t => (link t h).intxStatus = (link s h).intxStatus &&& (7 - v.toNat % 8) ∧ changesOnly [.out, .hosts] s t) ∧
  (∀ v : Word, linkUp s h = false → exec (.hlinkIntxStatusClear h v) s = .next s) ∧
  (∀ vec off v be, present s h f = false → ∀ i ∈ [Instr.initiateFlr h f, .busMasterEnableClear h f, .busMasterEnableSet h f, .msixUnmask h f vec, .configWrite h f off v be], exec i s = .next s)

/-- O37. Configuration and memory requests, refused requests, completions, timeouts and link errors (R92 to R94, R103 to R110, R114). Where a register or a doorbell is hit by an access of another size or place, the spec leaves the access undefined (R7, R94). -/
def Obligations.LinkRequestsComplete : Prop :=
  ∀ (h : HostId) (s : State),
  (∀ r, (link s h).state = 2 → exec (.configRequest h r) s = .next (emit (.completion h 3 false []) s)) ∧
  (∀ r, linkUp s h = true → present s h r.fn = true → exec (.configRequest h r) s = .next
    (emit (.completion h 0 false (if r.write then [] else [cfgRead s h r.fn (r.offset.toNat / 4 * 4)])) s)) ∧
  (∀ r, linkUp s h = true → present s h r.fn = false → Completes (exec (.configRequest h r) s) fun t => t.out.head? = some (.completion h 1 false []) ∧ t.violations.seq = s.violations.seq + 1) ∧
  (∀ f posted, linkUp s h = true → Completes (exec (.ioOrAtomicRequest h f posted) s) fun t => t.violations.seq = s.violations.seq + 1 ∧ (posted = false → t.out.head? = some (.completion h 1 false []))) ∧
  (∀ r, linkUp s h = true → r.hit = none → exec (.barMemoryRequest h r) s = .next (unsupported h .pf0 r.write none r.header s)) ∧
  (∀ r f, linkUp s h = true → r.hit = some f → (present s h f = false ∨ memoryOn s h f = false ∨ barSize (fnKind s h f) ≤ r.offset) →
    exec (.barMemoryRequest h r) s = .next (unsupported h f r.write (some r.offset) r.header s)) ∧
  (∀ r f, linkUp s h = true → r.hit = some f → present s h f = true → memoryOn s h f = true → r.offset < barSize (fnKind s h f) → r.write = false → r.length = 4 → r.offset % 4 = 0 →
    exec (.barMemoryRequest h r) s = .next (let c := barCell s h f r.offset; emit (.completion h 0 false [(readCell h f c s).1]) (readCell h f c s).2)) ∧
  (∀ r f, linkUp s h = true → r.hit = some f → present s h f = true → memoryOn s h f = true → r.offset < barSize (fnKind s h f) → r.write = false → 64 < r.length →
    exec (.barMemoryRequest h r) s = .next (completerAbort h f (some r.offset) r.header s)) ∧
  (∀ r f, linkUp s h = true → r.hit = some f → present s h f = true → memoryOn s h f = true → r.offset < barSize (fnKind s h f) → r.write = true → r.poisoned = true →
    exec (.barMemoryRequest h r) s = .next (logAer h f false 12 true r.header true s)) ∧
  (∀ r f, linkUp s h = true → r.hit = some f → present s h f = true → memoryOn s h f = true → r.offset < barSize (fnKind s h f) → r.write = true → r.poisoned = false → r.data.length = 4 → r.offset % 4 = 0 →
    (f = .pf2 → r.offset < 0x8000) → exec (.barMemoryRequest h r) s = writeCell h f (barCell s h f r.offset) (leNat r.data) r s) ∧
  (∀ r, linkUp s h = true → r.hit = some .pf2 → present s h .pf2 = true → memoryOn s h .pf2 = true → 0x8000 ≤ r.offset → r.offset < 65536 → r.write = true → r.poisoned = false →
    exec (.barMemoryRequest h r) s = .next (writeWindow h r s)) ∧
  (∀ tag r st data, linkUp s h = true → (link s h).reads.find? (fun x => x.tag == BitVec.toNat tag) = some r → r.quarantined = false → r.abandoned = false → st ≠ CplStatus.poisoned →
    exec (.completionReceived h tag st data) s = .next (readReturns h r st data s)) ∧
  (∀ tag r st data, linkUp s h = true → (link s h).reads.find? (fun x => x.tag == BitVec.toNat tag) = some r → r.quarantined = false → r.abandoned = true →
    exec (.completionReceived h tag st data) s = .next (abandonedOver h r (endRead h r.tag (countFn h r.fn 2 s)))) ∧
  (∀ tag st data, linkUp s h = true → (link s h).reads.find? (fun x => x.tag == BitVec.toNat tag) = none → exec (.completionReceived h tag st data) s = .next (unexpectedCpl h .pf0 s)) ∧
  (∀ tag r, (link s h).reads.find? (fun x => x.tag == BitVec.toNat tag && !x.quarantined) = some r → r.abandoned = false → exec (.completionTimeout h tag) s = .next (
    let t := countFn h r.fn 4 (modLink h (fun l => { l with cplTimeouts := satAdd 0xFFFF l.cplTimeouts 1, reads := l.reads.map fun x => if x.tag = r.tag then { x with abandoned := true, timedOut := true, quarantined := true } else x }) s)
    pumpReads h (failFor h r.fn r.purpose (timeoutReason r.purpose) (logAer h r.fn false 14 false [] true t)))) ∧
  (∀ tag, (link s h).reads.find? (fun x => x.tag == BitVec.toNat tag && !x.quarantined) = none → exec (.completionTimeout h tag) s = .next s) ∧
  (∀ tag, exec (.tagQuarantineEnd h tag) s = .next (pumpReads h (modLink h (fun l => { l with reads := l.reads.filter fun r => !(r.tag == tag.toNat && r.quarantined) }) s))) ∧
  (∀ f, linkUp s h = true → exec (.pcieLinkError h f .uncorrectableInternal) s = .next (detachHost h .dlDown (unitLost 0x12 6 h.val 0 (logAllPfs h 22 [] s)))) ∧
  (∀ f e bit, linkUp s h = true → (e, bit) ∈ [(LinkError.receiver, 0), (.badTlp, 6), (.badDllp, 7), (.replayRollover, 8), (.replayTimer, 12), (.fecCorrected, 0), (.correctedInternal, 14)] →
    exec (.pcieLinkError h f e) s = .next (logAer h .pf0 true bit false [] true s)) ∧
  (∀ f e bit, linkUp s h = true → (e, bit) ∈ [(LinkError.dlProtocol, 4), (.flowControl, 13), (.receiverOverflow, 17)] → exec (.pcieLinkError h f e) s = .next (logAllPfs h bit [] s)) ∧
  (∀ f e r tag st data, linkUp s h = false → (link s h).state ≠ 2 → ∀ i ∈ [Instr.configRequest h r, .ioOrAtomicRequest h f false, .pcieLinkError h f e, .completionReceived h tag st data], exec i s = .next s)

/-- O38. Doorbells, descriptor and data reads, deliveries and the frames of a network queue (R97 to R102, R119, R194, R206, R207, R223): what each does, and the doorbell values R102 leaves undefined. -/
def Obligations.NetworkQueueEventsComplete : Prop :=
  (∀ (h : HostId) (f : Fn) (q : BitVec 16) (v : Word) (x : Queue) (s : State), queue s h f q.toNat = some x →
    let n := v.toNat % 2 ^ 15
    let held := (x.doorbell + qSize x - x.head) % qSize x + (n + qSize x - x.doorbell) % qSize x
    let rung := modQueue h f q.toNat (fun y => { y with doorbell := n }) s
    (x.kind = 1 → n < qSize x → held < qSize x → exec (.txqDoorbell h f q v) s = .next (fetchQueue h f q.toNat rung)) ∧
    (x.kind = 2 → n < qSize x → held < qSize x → exec (.rxqDoorbell h f q v) s = .next (fetchQueue h f q.toNat rung)) ∧
    (x.kind = 3 → n < qSize x → (n + qSize x - x.doorbell) % qSize x ≤ (x.head + qSize x - x.doorbell) % qSize x →
      exec (.cqDoorbell h f q v) s = .next (kickQueues (fun h' f' => h' == h && f' == f) (drainLate h f q.toNat x.late.length rung))) ∧
    (x.kind = 1 → qSize x ≤ n ∨ qSize x ≤ held → exec (.txqDoorbell h f q v) s = .refused (.undefinedCase 102)) ∧
    (x.kind = 2 → qSize x ≤ n ∨ qSize x ≤ held → exec (.rxqDoorbell h f q v) s = .refused (.undefinedCase 102)) ∧
    (x.kind = 3 → qSize x ≤ n → exec (.cqDoorbell h f q v) s = .refused (.undefinedCase 102)) ∧
    (x.kind = 3 → x.coalTime ≠ 0 → x.unsignalled ≠ 0 → exec (.cqCoalesceTimer h f q) s = .next (cqSignal h f q.toNat x.vector s)) ∧
    (x.kind ≠ 3 ∨ x.coalTime = 0 ∨ x.unsignalled = 0 → exec (.cqCoalesceTimer h f q) s = .next s) ∧
    (∀ d r, findRead s h (fun g p => g == f && p == .txDescr q.toNat) = some r → exec (.txDescriptorReadDone h f q d) s =
      .next (knowHead h f q.toNat (txDescrDone h f q.toNat d.status d.bytes (endRead h r.tag s)))) ∧
    (∀ data st r sel t, oldestData s h f q.toNat = some (r, sel) → ((queue (endRead h r.tag s) h f q.toNat).bind fun x => x.reading.find? fun y => y.sel = sel) = some t →
      exec (.txDataReadDone h f q data st) s = .next (txDataDone h f q.toNat t st data (endRead h r.tag s)))) ∧
  (∀ (h : HostId) (f : Fn) (q : BitVec 16) (v : Word) (s : State), queue s h f q.toNat = none →
    exec (.txqDoorbell h f q v) s = .next s ∧ exec (.rxqDoorbell h f q v) s = .next s ∧ exec (.cqDoorbell h f q v) s = .next (kickQueues (fun h' f' => h' == h && f' == f) s) ∧ exec (.cqCoalesceTimer h f q) s = .next s) ∧
  (∀ (h : HostId) (s : State) k ws r, s.net.delivering[h] = (k, ws) :: r → exec (.rxDeliveryWriteDone h) s =
    .next (writeCqe h (fnOfIndex (k.target % 1024)) k.queue ws (freeHods k.hods { s with net := { s.net with delivering := vset s.net.delivering h r } }))) ∧
  (∀ (port : Lane) (s : State) k r, portIsUp s port.val = true → Tbl.getD s.net.out7 port.val [] = k :: r → Completes (exec (.txFrameSent port) s) fun t =>
    t = frameSent port k { s with net := { s.net with out7 := if r.isEmpty then Tbl.del s.net.out7 port.val else Tbl.put s.net.out7 port.val r } }) ∧
  (∀ (port : Lane) (s : State) k r, portIsUp s port.val = true → Tbl.getD s.net.out7 port.val [] = [] → Tbl.getD s.net.outq port.val [] = k :: r → exec (.txFrameSent port) s =
    .next (frameSent port k { s with net := { s.net with outq := if r.isEmpty then Tbl.del s.net.outq port.val else Tbl.put s.net.outq port.val r } })) ∧
  (∀ (port : Lane) frame fcsOk fecOk (s : State), portIsUp s port.val = true → (∀ i, macCause s port frame fcsOk fecOk = some i → Completes (exec (.rxFrameArrival port frame fcsOk fecOk) s) fun t =>
    t = count 0x02 0 (32 * port.val + i) 1 s) ∧
    (macCause s port frame fcsOk fecOk = none → pathsRun s = true → exec (.rxFrameArrival port frame fcsOk fecOk) s =
      .next (takeFrame port frame (count 0x02 0 (32 * port.val + 1) (frame.length + 4) (count 0x02 0 (32 * port.val) 1 s))))) ∧
  (∀ (port : Lane) frame a b (s : State), portIsUp s port.val = false → exec (.txFrameSent port) s = .next s ∧ exec (.rxFrameArrival port frame a b) s = .next s)

/-- O39. The passes of a pipeline, its cipher tile, the selections of the schedulers and the timing wheel, and DTIME (R38, R131, R136, R150, R151, R181, R221, R228 to R231, R342, R345). -/
def Obligations.PipelineAndSchedulerEventsComplete : Prop :=
  (∀ (p : Pipe) (s : State) x r, (pipeOf s p.val).input = x :: r → pathsRun s = true →
    let n := s.sched.serial + 1
    let t := modPipe p.val (fun y => { y with input := r }) (modSched (fun y => { y with serial := n }) s)
    let k : Pkt := { x with epoch := s.epochs.epoch, pipe := p.val, seq := n, quiet := s.glb.mode == .quiesce }
    exec (.pipelineAdmit p) s = .next (farm (endPass k (parseFirst t.parse.banks.top.nodes (p.val / 16) k.bytes k.vec.source k.epoch) (acceptTx k t)))) ∧
  (∀ (p : Pipe) (s : State), (pipeOf s p.val).input = [] → exec (.pipelineAdmit p) s = .next (farm s)) ∧
  (∀ (p : Pipe) (s t : State) k, takeRecirc p.val false s = some (k, t) → pathsRun s = true → exec (.recircAdmit p) s = .next (farm (released p.val
    (endPass k (parseSecond (coatsOf k.epoch t).parse.banks.top.nodes (p.val / 16) k.bytes k.node k.cursor k.vec) t)))) ∧
  (∀ (p : Pipe) (s t : State) k l, takeRecirc p.val true s = some (k, t) → k.look = some l → pathsRun s = true → exec (.lpmRecircReadmit p) s = .next (
    let e := extendLookup (coatsOf k.epoch t) l
    farm (released p.val (doAction { k with look := none } e (e.action.getD []) (countLookup p.val e.counts t))))) ∧
  (∀ (p : Pipe) (s : State), takeRecirc p.val false s = none → exec (.recircAdmit p) s = .next s) ∧
  (∀ (p : Pipe) (s : State), takeRecirc p.val true s = none → exec (.lpmRecircReadmit p) s = .next s) ∧
  (∀ (p : Pipe) (s : State), exec (.cipherTileDone p) s = .next (farm (finishTile p.val (startTile p.val ((pipeOf s p.val).tile.length + 1) s)))) ∧
  (∀ (t : Tile) (slot : BitVec 17) (s : State), (cachedIn s t.val).contains slot.toNat = false → ((pipeOf s t.val).tile.any fun k => (k.tile.map (·.2)) == some slot.toNat) = true →
    exec (.gauntletKeyFetch t slot) s = .next (farm (startTile t.val ((pipeOf s t.val).tile.length + 1)
      (modCrypt (fun c => { c with caches := Tbl.put c.caches t.val ((cachedIn s t.val).drop ((cachedIn s t.val).length - 63) ++ [slot.toNat]) }) (count 0x0B 0 (32 * t.val + 5) 1 s))))) ∧
  (∀ (t : Tile) (slot : BitVec 17) (s : State), (cachedIn s t.val).contains slot.toNat = true → exec (.gauntletKeyFetch t slot) s = .next s) ∧
  (∀ (l : Lane) (s t : State) x sc, t = (txCands (handOver l.val (count 0x07 0 0x30003 (groupless s) s)) l.val).foldl
      (fun s x => x.path.foldl (fun s n => activate n s) (if x.cand.cls = 7 then activate (portLimiter s l.val) s else s)) (handOver l.val (count 0x07 0 0x30003 (groupless s) s)) →
    (txChoose t l.val = some (x, sc) → exec (.schedSelect (.port l)) s = .next (match txHods t x with
      | .error e => txRefused l.val x e sc t
      | .ok (hods, u) =>
        let t4 := txLeave l.val x hods (chargeSelection l.val x { u with sched := sc })
        let left := txCands t4 l.val
        let t5 := settlePath (fun key => left.any fun y => y.path.any fun n => n.key == key) x.path t4
        if left.any (fun y => y.cand.cls == 7) then t5 else deactivate (portLimiter t5 l.val) t5)) ∧
    (txChoose t l.val = none → exec (.schedSelect (.port l)) s = .next t)) ∧
  (∀ (h : HostId) (s : State), rxChoose s h = none → exec (.schedSelect (.host h)) s = .next s) ∧
  (∀ (h : HostId) (s : State) x sc, rxChoose s h = some (x, sc) → Completes (exec (.schedSelect (.host h)) s) fun t => t = selectRx h s) ∧
  (∀ slot (s : State), Completes (exec (.timingWheelSlotDue slot) s) fun t => (∀ e ∈ t.sched.parked, e ∈ s.sched.parked ∧ (e.coarse = true ∨ ceilDiv e.due 8 % 65536 ≠ slot)) ∧ changesOnly [.sched] s t) ∧
  (∀ slot (s : State), Completes (exec (.coarseSlotDue slot) s) fun t => (∀ e ∈ t.sched.parked, e.coarse = true → e.due / 524288 % 4096 ≠ slot) ∧ t.sched.parked.length = s.sched.parked.length ∧ changesOnly [.sched] s t) ∧
  (∀ (v : Word) (s : State), Completes (exec (.dtimeStep v) s) fun t => t.dtime = s.dtime + v.toNat * 2 ^ 32 ∧ (∀ e ∈ t.sched.parked, dtimeNs t < e.due) ∧ changesOnly [.sched, .dtime, .counters] s t) ∧
  (∀ (v : Word) (s : State), exec (.dtimeRateWrite v) s = .next { s with eth := { s.eth with rate := v } })

/-- O40. Layouts, bring-up, link states, lane faults and hold-off of the Ethernet ports, the hod re-carve, and the end of a queue's hod wait (R121 to R130, R202, R211). -/
def Obligations.EthernetAndCarveEventsComplete : Prop :=
  (∀ (g : Group) (s : State), ((s.eth.groups[g]).busy = true ∨ badLayout s g = true → exec (.ethApply g) s = .next (modGroup g (fun x => { x with badLayout := true }) s)) ∧
    ((s.eth.groups[g]).busy = false → badLayout s g = false → exec (.ethApply g) s = .next (let ls := changedLanes s g
      modGroup g (fun x => { x with badLayout := false, busy := true, changed := ls.map fun l => (l.val, (portOf s l).state) }) (ls.foldl (fun s l => stopPort l s) s))) ∧
    ((s.eth.groups[g]).busy = true → exec (.ethApplyDone g) s = .next (ethApplyDone 12 g s)) ∧ ((s.eth.groups[g]).busy = false → exec (.ethApplyDone g) s = .next s) ∧
    ((s.eth.groups[g]).busy = true → (s.eth.groups[g]).changed = [] → Completes (exec (.ethApplyDone g) s) fun t =>
      (t.eth.groups[g]).busy = false ∧ t.nv.layouts[g] = some ((List.finRange 8).map fun k => s.eth.cfg[laneOf g k]) ∧ t.eth.ports = s.eth.ports)) ∧
  (∀ (l : Lane) (s : State),
    let p := portOf s l
    (∀ a, p.width ≠ 0 → p.state = .an → p.anWait = false → a.abilityMatch = true → exec (.anComplete l (some a)) s =
      .next (modPort l (fun p => { p with state := .training, partnerValid := true, partner := a.page.toNat }) s)) ∧
    (∀ a, p.width ≠ 0 → p.state = .an → p.anWait = false → (∀ x, a = some x → x.abilityMatch = false) → exec (.anComplete l a) s = .next (raisePortFail l .an .an 9 (modPort l (fun p => { p with anWait := true }) s))) ∧
    (p.state = .an → Completes (exec (.anFailedRestart l) s) fun t => (portOf t l).anWait = false ∧ (portOf t l).state = .an) ∧
    (p.width ≠ 0 → p.state = .training → Completes (exec (.trainingDone l true) s) fun t => (portOf t l).state = .aligning) ∧
    (p.width ≠ 0 → p.state = .training → exec (.trainingDone l false) s = .next (let next := if cfgAn p.cfg && cfgPmd p.cfg != 2 then LinkState.an else LinkState.training
      raisePortFail l .training next 10 (modPort l (fun p => { p with state := next }) s))) ∧
    (p.width ≠ 0 → p.state = .aligning → Completes (exec (.alignmentDone l) s) fun t => (portOf t l).state = .up ∧ (portOf t l).linkUps = satAdd 0xFF p.linkUps 1) ∧
    (p.width ≠ 0 → p.state = .fault → Completes (exec (.faultSequencesStop l) s) fun t => (portOf t l).state = .up ∧ (portOf t l).linkUps = satAdd 0xFF p.linkUps 1) ∧
    (∀ k, p.width ≠ 0 → p.state = .up → Completes (exec (.faultSequencesReceived l k) s) fun t =>
      (portOf t l).state = .fault ∧ t.out = .portSignal l.val (match k with | .localFault => 3 | .remoteFault => 1) :: s.out) ∧
    (∀ k, p.width ≠ 0 → p.state = .up ∨ p.state = .fault → s.eth.holdoff = 0 → Completes (exec (.alignmentLost l k) s) fun t => (portOf t l).state = .aligning) ∧
    (∀ k, p.width ≠ 0 → p.state = .up ∨ p.state = .fault → s.eth.holdoff ≠ 0 → Completes (exec (.alignmentLost l k) s) fun t => (portOf t l).state = .hold ∧ (portOf t l).heldState = p.state ∧ t.owner = s.owner) ∧
    (p.width ≠ 0 → p.state = .hold → Completes (exec (.alignmentReturnInHold l) s) fun t => (portOf t l).state = .up ∧ t.owner = s.owner) ∧
    (p.width ≠ 0 → p.state = .hold → Completes (exec (.holdoffExpiry l) s) fun t => (portOf t l).state = if p.heldCause = 5 ∧ cfgPmd p.cfg ≠ 2 then LinkState.training else LinkState.aligning) ∧
    (s.glb.fwRuns = true → bitAt (s.eth.groups[groupOf l]).laneFault (l.val % 8) = false → exec (.ethLaneFault l) s = .next (unitLost 0x07 6 l.val (2 ^ (l.val % 8)) (laneFault l s))) ∧
    (bitAt (s.eth.groups[groupOf l]).laneFault (l.val % 8) = true → exec (.ethLaneFault l) s = .next s) ∧
    (∀ a k ok, p.width = 0 → ∀ i ∈ [Instr.anComplete l a, .trainingDone l ok, .alignmentDone l, .faultSequencesStop l, .faultSequencesReceived l k, .alignmentReturnInHold l, .holdoffExpiry l], exec i s = .next s)) ∧
  (∀ s : State, (badCarve s = true → exec .hodCarveApply s = .next (modHod (fun x => { x with badCarve := true }) s)) ∧ (badCarve s = false → exec .hodCarveApply s = .next (modHod (fun x => { x with busy := true }) s)) ∧
    (s.hod.busy = true → exec .hodCarveApplyDone s = .next (modHod (fun x => { x with busy := false, counts := x.cfg, rxPool := x.rxCfg }) s)) ∧ (s.hod.busy = false → exec .hodCarveApplyDone s = .next s)) ∧
  (∀ (h : HostId) (f : Fn) (q : BitVec 16) (x : Queue) (t : TxPkt) r (s : State), queue s h f q.toNat = some x → x.kind = 1 → x.ready = t :: r → x.hodWait = true → exec (.txHodWaitEnd h f q) s = .next
    (match allocHods (fnPayer h f) (x.cls == 7) (x.cls == 7) t.len s with | .ok _ => modQueue h f q.toNat (fun x => { x with hodWait := false }) s | .error _ => s)) ∧
  (∀ (h : HostId) (f : Fn) (q : BitVec 16) (x : Queue) (s : State), queue s h f q.toNat = some x → x.hodWait = false → exec (.txHodWaitEnd h f q) s = .next s)

/-- O41. Context fetches and evictions, executions, acknowledgements, responses, probes, the doorbells and the timers of an LRD connection (R102, R239, R247, R252 to R260, R278 to R286). -/
def Obligations.LrdEventsComplete : Prop :=
  ∀ (d : Domain) (n : ConnNo) (s : State), let k := rowKey d n
  (∀ c, conn s k = some c →
    let ended := match contextRead s k with | some (h, q) => endRead h q.tag s | none => s
    (c.fetching = true → c.noVictim = false → xportStopped s = false → c.imageBad = false → exec (.contextFetchDone d n .ok) s = .next (fetched k ended)) ∧
    (c.fetching = true → c.noVictim = false → xportStopped s = false → exec (.contextFetchDone d n .checkFailed) s = .next (contextLost k (countC k 11 ended))) ∧
    (∀ r, c.fetching = false ∨ c.noVictim = true ∨ xportStopped s = true → exec (.contextFetchDone d n r) s = .next s) ∧
    (∀ ok, c.evicting = true → c.chain = [] → c.pinDue = false → c.sq = [] → Completes (exec (.evictionWriteDone d n ok) s) fun t =>
      conn t k = some { c with evicting := false, imageBad := c.imageBad || !ok } ∧ (∀ j, j ≠ k → conn t j = conn s j)) ∧
    (∀ ok, c.evicting = true → c.chain ≠ [] → c.fetching = false → exec (.evictionWriteDone d n ok) s = .next (startFetch k (modConn k (fun c => { c with evicting := false, imageBad := c.imageBad || !ok }) s))) ∧
    (∀ ok, c.evicting = false → exec (.evictionWriteDone d n ok) s = .next s) ∧
    (c.noVictim = true → xportStopped s = false → exec (.fetchNoVictimRetry d n) s = .next (startFetch k s)) ∧ (c.noVictim = false → exec (.fetchNoVictimRetry d n) s = .next s) ∧
    (∀ psn, execReady c (BitVec.toNat psn) = true → exec (.lrdExecutionDone d n psn) s = .next (farm (execDone k psn.toNat s))) ∧ (∀ psn, execReady c (BitVec.toNat psn) = false → exec (.lrdExecutionDone d n psn) s = .next s) ∧
    (∀ p t, takeInbox k 0x10 s = some (p, t) → exec (.lrdAckRx d n) s = .next (ackRx k p (countX k 11 t))) ∧
    (∀ p t, takeInbox k 0x11 s = some (p, t) → ((p.e 1 / 2 ^ 24 = 5 ∨ p.e 1 / 2 ^ 24 = 6) → ∀ c', conn (countX k 12 t) k = some c' →
      exec (.lrdNakRx d n) s = .next (farm (connError k (nakCause (p.e 1 / 2 ^ 24)) (p.e 1 / 2 ^ 24) (p.e 2) 0 (countX k 12 t)))) ∧
      (p.e 1 / 2 ^ 24 = 1 → ∀ c', conn (countX k 12 t) k = some c' → exec (.lrdNakRx d n) s = .next (farm (rnrNak k (p.e 2) (ackRx k p (countX k 12 t)))))) ∧
    (∀ p t, takeInbox k 0x12 s = some (p, t) → exec (.lrdProbeRx d n) s = .next (oweAck k p.stamp p.arrived t)) ∧
    (∀ p t c' w o, takeInbox k 0x04 s = some (p, t) → conn t k = some c' → rspWr c' p = some w → c'.owner = some o → p.e 0 + p.len ≤ w.len → exec (.lrdReadRspRx d n) s = .next (settleWrs k (emit (.hostWrite (ownerFn o).1 (ownerFn o).2 (w.addr + p.e 0) p.payload)
      (modConn k (fun c => { c with backoff := 1, timeouts := 0, sq := c.sq.map fun x => if x.serial = w.serial then { x with got := x.got ++ [(p.e 0, p.e 0 + p.len)] } else x }) t)))) ∧
    (∀ p t c', takeInbox k 0x04 s = some (p, t) → conn t k = some c' → rspWr c' p = none → exec (.lrdReadRspRx d n) s = .next (countX k 18 t)) ∧
    (takeInbox k 0x10 s = none → exec (.lrdAckRx d n) s = .next s) ∧ (takeInbox k 0x11 s = none → exec (.lrdNakRx d n) s = .next (farm s)) ∧ (takeInbox k 0x12 s = none → exec (.lrdProbeRx d n) s = .next s) ∧
    (∀ (v : Word) wrs q new, connQueue s c c.cfg.sq = some q → newSlots q v.toNat = some new → (wrs.take new).all (·.readOk) = true → exec (.lrdSqDoorbell d n v wrs) s = .next (
      let t := settleWrs k (takeWrs k q ((wrs.take new).filter (·.readOk)) (modConnQueue c c.cfg.sq (fun q => { q with doorbell := v.toNat % 2 ^ 15, fetched := v.toNat % 2 ^ 15 }) s))
      if c.resident || c.state == 2 then t else missFetch k t)) ∧
    (∀ (v : Word) wrs q, connQueue s c c.cfg.sq = some q → newSlots q v.toNat = none → exec (.lrdSqDoorbell d n v wrs) s = .refused (.undefinedCase 102)) ∧
    (∀ (v : Word) q, connQueue s c c.cfg.rq = some q → newSlots q v.toNat = some 0 → c.state ≠ 2 → exec (.lrdRqDoorbell d n v []) s =
      .next (modConn k (fun c => { c with rq := c.rq ++ [] }) (modConnQueue c c.cfg.rq (fun q => { q with doorbell := v.toNat % 2 ^ 15, fetched := v.toNat % 2 ^ 15 }) s))) ∧
    (∀ (v : Word) bufs q, connQueue s c c.cfg.rq = some q → newSlots q v.toNat = none → exec (.lrdRqDoorbell d n v bufs) s = .refused (.undefinedCase 102)) ∧
    (xportStopped s = false → c.state ≠ 2 → drained c = false → s.ctx.cfg.retryLimit < c.timeouts + 1 → exec (.lrdRetransmitTimer d n) s = .next (farm (connError k 1 6 c.una 6 (countX k 14 s)))) ∧
    (xportStopped s = false → c.state ≠ 2 → drained c = false → c.timeouts + 1 ≤ s.ctx.cfg.retryLimit → exec (.lrdRetransmitTimer d n) s = .next (farm (modConn k (fun c =>
      let r := retransmit { c with backoff := c.backoff * 2, timeouts := c.timeouts + 1 }
      if c.cfg.ccOff then r else { r with rate := max c.cfg.minRate (c.rate / 2), lastAdj := dtimeNs s }) (countX k 14 s)))) ∧
    (xportStopped s = false → c.state ≠ 2 → c.una ≠ c.nxt → c.probed = false → exec (.lrdProbeTimer d n) s = .next (fastRetx k (modConn k (fun c => { c with probe := true, probed := true }) s))) ∧
    (c.probed = true → exec (.lrdProbeTimer d n) s = .next s) ∧
    (∀ o, xportStopped s = false → c.execUnacked ≠ 0 → c.lastExec = some o → exec (.lrdAckDelayTimer d n) s = .next (oweAck k o.echo o.arrived s)) ∧ (c.execUnacked = 0 → exec (.lrdAckDelayTimer d n) s = .next s) ∧
    (∀ psn, xportStopped s = false → c.rnrHold = some psn → Completes (exec (.lrdRnrTimer d n) s) fun t => ∃ c', conn t k = some c' ∧ c'.rnrHold = none ∧ ∀ p ∈ c'.sent, p.acked = false → before c.una p.psn psn = false → p.due = true) ∧
    (c.rnrHold = none → exec (.lrdRnrTimer d n) s = .next s)) ∧
  (∀ psn, exec (.lrdExecutionFailed d n psn) s = .next (execFail k psn.toNat s)) ∧
  (∀ i, s.ctx.recent.findIdx? (fun e => decide (e.1 = k)) = some i → Completes (exec (.recentListExpiry d n) s) fun t => t.ctx.recent = s.ctx.recent.eraseIdx i ∧ changesOnly [.ctx] s t) ∧
  (∀ psn r ok v wrs bufs, conn s k = none → ∀ i ∈ [Instr.contextFetchDone d n r, .evictionWriteDone d n ok, .fetchNoVictimRetry d n, .lrdExecutionDone d n psn, .lrdSqDoorbell d n v wrs, .lrdRqDoorbell d n v bufs, .lrdProbeTimer d n, .lrdAckDelayTimer d n, .lrdRnrTimer d n], exec i s = .next s)

/-- O42. The registers, resets, shutdowns and doorbells of an NVMe controller, and its self-test's steps (R299 to R301, R327). -/
def Obligations.NvmeControllerEventsComplete : Prop :=
  ∀ (h : HostId) (f : Fn) (s : State), let k := fnKey h f
  (ctrlPresent s h f = true → (
    (∀ cc : Word, (ctrl s k).ready = false → Completes (exec (.nvmeCcEnSet h f cc) s) fun t => (ctrl t k).ready = true ∧ (ctrl t k).shst = 0 ∧ (ctrl t k).cc = cc.toNat ||| 1 ∧
      (ctrl t k).sqs = [(0, { size := (ctrl s k).aqa % 4096 + 1, base := (ctrl s k).asq, cq := 0, prio := 0, head := 0, tail := 0 })] ∧ (∀ j, j ≠ k → ctrl t j = ctrl s j) ∧ changesOnly [.nvme] s t) ∧
    (∀ cc : Word, (ctrl s k).ready = true → exec (.nvmeCcEnSet h f cc) s = .next s) ∧
    ((ctrl s k).ready = true → exec (.nvmeCcEnClear h f) s = .next (resetCtrl 2 k s)) ∧ ((ctrl s k).ready = false → exec (.nvmeCcEnClear h f) s = .next s) ∧
    (∀ abrupt, (ctrl s k).ready = true → (ctrl s k).shst = 0 → exec (.nvmeShutdown h f abrupt) s = .next (
      let t := if abrupt then abortCmds k (modCtrl k (fun c => { c with shst := 1 }) s) else modCtrl k (fun c => { c with shst := 1 }) s
      settleCache (modNvme (fun n => { n with flushes := Tbl.put n.flushes (shutdownKey k) (flushJob t ((nsidsOf t k).filterMap fun i => (nsAt t k i).map (·.1))) }) t))) ∧
    (∀ abrupt, (ctrl s k).shst ≠ 0 → exec (.nvmeShutdown h f abrupt) s = .next s) ∧
    (∀ v : Word, f ≠ .pf1 → Completes (exec (.nvmeIntmsIntmc h f false v) s) fun t => (ctrl t k).mask = (ctrl s k).mask ||| v.toNat) ∧
    (∀ v : Word, f ≠ .pf1 → Completes (exec (.nvmeIntmsIntmc h f true v) s) fun t => (ctrl t k).mask = (ctrl s k).mask &&& (0xFFFFFFFF - v.toNat)) ∧
    (∀ clear (v : Word), f = .pf1 → exec (.nvmeIntmsIntmc h f clear v) s = .next (refreshPf1 h (modCtrl k (fun c => { c with mask := if clear then c.mask &&& (0xFFFFFFFF - v.toNat) else c.mask ||| v.toNat }) s))) ∧
    (∀ (q : BitVec 16) (v : Word) x, Tbl.find (ctrl s k).sqs q.toNat = some x → v.toNat < x.size → Completes (exec (.nvmeSqDoorbell h f q v) s) fun t =>
      Tbl.find (ctrl t k).sqs q.toNat = some { x with tail := v.toNat } ∧ (∀ j, j ≠ q.toNat → Tbl.find (ctrl t k).sqs j = Tbl.find (ctrl s k).sqs j) ∧ (∀ j, j ≠ k → ctrl t j = ctrl s j) ∧ changesOnly [.nvme] s t) ∧
    (∀ (q : BitVec 16) (v : Word) x, Tbl.find (ctrl s k).sqs q.toNat = some x → x.size ≤ v.toNat → exec (.nvmeSqDoorbell h f q v) s = .next s) ∧
    (∀ (q : BitVec 16) (v : Word) x, Tbl.find (ctrl s k).cqs q.toNat = some x → v.toNat < x.size → (v.toNat + x.size - x.head) % x.size ≤ (x.tail + x.size - x.head) % x.size → exec (.nvmeCqDoorbell h f q v) s = .next (
      let t := drainNvmeCq k q.toNat x.late.length (modCtrl k (fun c => { c with cqs := Tbl.put c.cqs q.toNat { x with head := v.toNat } }) s)
      if f = .pf1 then refreshPf1 h t else t)))) ∧
  (∀ bad x, (ctrl s k).selfTest = some x → hostReady s h.val = false → segmentOf x.steps (testSteps s k x) 1 = none → exec (.selfTestStep h f bad) s = .next (endSelfTest k 0 0 0 0 s)) ∧
  (∀ x g, (ctrl s k).selfTest = some x → hostReady s h.val = false → segmentOf x.steps (testSteps s k x) 1 = some g → exec (.selfTestStep h f true) s = .next (endSelfTest k 7 g 0 (freshNat s % 2 ^ 48) (drawn1 s))) ∧
  (∀ x g, (ctrl s k).selfTest = some x → hostReady s h.val = false → segmentOf x.steps (testSteps s k x) 1 = some g → x.code = 2 → (segmentOf (x.steps + 1) (testSteps s k x) 1).isSome = true →
    exec (.selfTestStep h f false) s = .next (modCtrl k (fun c => { c with selfTest := some { x with steps := x.steps + 1 } }) s)) ∧
  (∀ bad, (ctrl s k).selfTest = none → exec (.selfTestStep h f bad) s = .next s) ∧
  (∀ q v cc abrupt clear, ctrlPresent s h f = false → ∀ i ∈ [Instr.nvmeCcEnSet h f cc, .nvmeCcEnClear h f, .nvmeShutdown h f abrupt, .nvmeIntmsIntmc h f clear v, .nvmeSqDoorbell h f q v, .nvmeCqDoorbell h f q v], exec i s = .next s)

/-- O43. The NVMe commands (R297, R301, R308 to R314, R325, R327): the entry that arbitration selects is taken and carried out; a failed fetch stops the controller, and an entry that arbitration does not select waits. -/
def Obligations.NvmeCommandsComplete : Prop :=
  ∀ (h : HostId) (f : Fn) (e : Sqe) (s t : State), sqeServed h f e s t →
  let k := fnKey h f
  let u := sqeTaken h f e (fun _ _ => 0) t
  let w := sqeTaken h f e (ioCost e) t
  (e.sq = 0 → (
    (e.op = 0x01 → exec (.nvmeCreateIoSq h f e) s = .next (createSq h f e k u)) ∧
    (e.op = 0x05 → exec (.nvmeCreateIoCq h f e) s = .next (createCq h f e k u)) ∧
    (e.op = 0x05 → qidOf e ≠ 0 → qidOf e ≤ maxPairs f → Tbl.has (ctrl u k).cqs (qidOf e) = false → qsizeOf e ≠ 0 → bitAt (e.w 11) 0 = true → e.prp1 % 4096 = 0 → e.w 11 / 65536 < msixSize f →
      (let q : NvmeCq := { size := qsizeOf e + 1, base := e.prp1, ien := bitAt (e.w 11) 1, iv := e.w 11 / 65536, head := 0, tail := 0, phase := true, late := [] }
       let c : Ctrl := { ctrl u k with cqs := Tbl.put (ctrl u k).cqs (qidOf e) q }
       pairQuota u h f c = false → exec (.nvmeCreateIoCq h f e) s = .next (adminDone e k 0 0 (modCtrl k (fun _ => c) u)))) ∧
    (e.op = 0x00 → exec (.nvmeDeleteIoSq h f e) s = .next (deleteSq e k u)) ∧
    (e.op = 0x04 → qidOf e ≠ 0 → Tbl.has (ctrl u k).cqs (qidOf e) = true → ((ctrl u k).sqs.any fun q => q.2.cq == qidOf e) = false → exec (.nvmeDeleteIoCq h f e) s = .next (adminDone e k 0 0 (modCtrl k (fun c => { c with cqs := Tbl.del c.cqs (qidOf e) }) u))) ∧
    (e.op = 0x02 → exec (.nvmeGetLogPage h f e) s = .next (takeLogPage h f e k u)) ∧
    (e.op = 0x06 → exec (.nvmeIdentify h f e) s = .next (takeIdentify h f e k u)) ∧
    (e.op = 0x08 → exec (.nvmeAbort h f e) s = .next (abortCmd e k u)) ∧
    (e.op = 0x09 → exec (.nvmeSetFeatures h f e) s = .next (setFeature f e k u)) ∧
    (e.op = 0x0A → exec (.nvmeGetFeatures h f e) s = .next (getFeature f e k u)) ∧
    (e.op = 0x0C → exec (.nvmeAsyncEventRequest h f e) s = .next (takeAer e k u)) ∧
    (e.op = 0x14 → exec (.nvmeDeviceSelfTest h f e) s = .next (takeSelfTest e k u)) ∧
    (e.op = 0x80 → exec (.nvmeFormatNvm h f e) s = .next (takeFormat e k u)) ∧
    (supportedOp true e.op = false → exec (.nvmeUnsupportedCommand h f e) s = .next (complete k 0 e.cid 0 0x01 u)))) ∧
  (e.sq ≠ 0 → (
    (e.op = 0x00 → exec (.nvmeFlush h f e) s = .next (takeFlush e k u)) ∧
    (e.op = 0x01 → exec (.nvmeWrite h f e) s = .next (takeWrite e k w)) ∧
    (e.op = 0x02 → exec (.nvmeRead h f e) s = .next (takeRead e k w)) ∧
    (e.op = 0x08 → exec (.nvmeWriteZeroes h f e) s = .next (takeWrite e k u)) ∧
    (e.op = 0x09 → exec (.nvmeDatasetManagement h f e) s = .next (takeDsm e k u)) ∧
    (∀ st, e.op = 0x01 → ioRefusal w k e.nsid = some st → exec (.nvmeWrite h f e) s = .next (complete k e.sq.toNat e.cid 0 st w)) ∧
    (∀ st, e.op = 0x02 → ioRefusal w k e.nsid = some st → exec (.nvmeRead h f e) s = .next (complete k e.sq.toNat e.cid 0 st w)) ∧
    (supportedOp false e.op = false → exec (.nvmeUnsupportedCommand h f e) s = .next (complete k e.sq.toNat e.cid 0 0x01 u))))

/-- O44. Insertion, destaging and reads of the storage cache, and what a drive or a remote target does (R307 to R314, R318 to R324, R326, R463): each event where what it concerns is there, and nothing elsewhere. -/
def Obligations.StorageEventsComplete : Prop :=
  ∀ (s : State),
  (∀ (h : HostId) (f : Fn) (sq cid : BitVec 16) data x r, let k := fnKey h f
    cmdAt s k sq.toNat cid.toNat = some x → dataRead s h f sq.toNat cid.toNat = some r → x.phase = .data → exec (.writeInsertion h f sq cid data) s = .next (settleCache (insertWrite k x data (endRead h r.tag s)))) ∧
  (∀ (h : HostId) (f : Fn) (sq cid : BitVec 16) data, cmdAt s (fnKey h f) sq.toNat cid.toNat = none → exec (.writeInsertion h f sq cid data) s = .next s) ∧
  (∀ (h : HostId) k x y, waitingWrite s h = some (k, x) → nspace s x.ns = some y → segRoom s h (segsNeeded s x.ns (unitsOf y x.slba x.blocks)) = true → exec (.wcacheWaitEnd h) s = .next (settleCache (startWrite k x s))) ∧
  (∀ (h : HostId), waitingWrite s h = none → exec (.wcacheWaitEnd h) s = .next s) ∧
  (∀ (ns : NsId) seg g, segAt s seg = some g → g.ns = ns.val → destageable s g = true → exec (.destageStart ns seg) s = .next (destageSeg seg s)) ∧
  (∀ (ns : NsId) seg g d c r, segAt s seg = some g → segWrite s seg = some (d, c) → g.ns = ns.val → exec (.destageDone ns seg r) s = .next (destageEnded g r (some d) (dropDriveCmd d c.cid s))) ∧
  (∀ (ns : NsId) seg r, segAt s seg = none → exec (.destageStart ns seg) s = .next s ∧ exec (.destageDone ns seg r) s = .next s ∧ exec (.remoteDestageRetry ns seg) s = .next s) ∧
  (∀ (h : HostId) (f : Fn) (sq cid : BitVec 16) data x y, let k := fnKey h f
    cmdAt s k sq.toNat cid.toNat = some x → nspace s x.ns = some y → x.phase = .backing → (missingLocal s y x).isEmpty = false →
    exec (.backingReadDone h f sq cid .ok data) s = .next (stepRead k sq.toNat cid.toNat (modCmd k sq.toNat cid.toNat (fun x => { x with cached := putBlocks y.block (missingLocal s y x) data x.cached }) (dropReads k sq.toNat cid.toNat s))) ∧
    (∀ r, r ≠ .ok → exec (.backingReadDone h f sq cid r data) s = .next (failRead k sq.toNat cid.toNat (readStatus r) s))) ∧
  (∀ d : DrivePort, let v := drive s d.val
    (v.state = 0 → isLost s 0x11 d.val = false → Completes (exec (.drivePresent d) s) fun t => (drive t d.val).state = 1 ∧ (drive t d.val).present = true ∧ changesOnly [.owner, .nvme] s t) ∧
    (v.state ≠ 0 → exec (.drivePresent d) s = .next s) ∧
    (∀ drop, exec (.driveSurpriseRemoval d drop) s = .next (surpriseRemoval d.val drop s)) ∧
    (∀ t, v.state = 1 → widthWithout [4, 2, 1] (v.lostLanes ++ t.badLanes) t.width ≠ 0 → Completes (exec (.driveLinkUp d t) s) fun u =>
      (drive u d.val).state = 2 ∧ (drive u d.val).linkUp = true ∧ (drive u d.val).speed = t.speed ∧ (drive u d.val).width = widthWithout [4, 2, 1] (v.lostLanes ++ t.badLanes) t.width ∧ changesOnly [.nvme] s u) ∧
    (∀ t, v.state ≠ 1 → exec (.driveLinkUp d t) s = .next s) ∧
    (∀ i, v.state = 2 → i.supported = false → exec (.driveInitialised d i) s = .next (driveFailed d.val 8 (modDrive d.val (fun v => { v with identity := some i }) s))) ∧
    (∀ i, v.state = 2 → i.supported = true → exec (.driveInitialised d i) s = .next (
      let t := modDrive d.val (fun v => { v with identity := some i }) s
      let back := identityMatches t d.val i
      let t3 := if back then backingReturns (onDrive d.val) (driveState d.val 3 t) else driveState d.val 3 t
      let t4 := raiseDriveState d.val 3 2 (if back then 9 else 2) t3
      resumeSanitize d.val ((nsWith t4 (onDrive d.val)).foldl (fun s k => refreshAtomic k s) t4))) ∧
    (v.state = 1 ∨ v.state = 2 → exec (.driveInitTimeout d) s = .next (driveFailed d.val 6 s)) ∧
    (v.state = 2 ∨ v.state = 3 → exec (.driveCfs d) s = .next (resetDrive d.val s)) ∧
    (∀ (cid : BitVec 16) c, v.cmds.find? (fun c => decide (c.cid = cid.toNat)) = some c →
      (c.aborted = true → exec (.driveCommandTimeout d cid true) s = .next (resetDrive d.val s)) ∧
      (c.aborted = false → v.state = 3 → Completes (exec (.driveCommandTimeout d cid false) s) fun t => t.out.head? = some (.driveCmd d.val cid.toNat 8 0 0 0) ∧ (drive t d.val).cmds = v.cmds.map fun x => if x.cid = cid.toNat then { x with aborted := true } else x) ∧
      (∀ r, v.state = 3 → exec (.driveCompletion d cid r) s = .next (driveDone d.val c r s))) ∧
    (∀ (cid : BitVec 16) r b, v.cmds.find? (fun c => decide (c.cid = cid.toNat)) = none → exec (.driveCommandTimeout d cid b) s = .next s ∧ exec (.driveCompletion d cid r) s = .next s) ∧
    Completes (exec (.driveAttnButton d) s) (fun t => (drive t d.val).button = true ∧ (drive t d.val).state = v.state ∧ changesOnly [.owner, .nvme] s t) ∧
    (∀ addr header, Completes (exec (.driveDmaViolation d addr header) s) fun t => t.violations.seq = s.violations.seq + 1) ∧
    (∀ lane : Fin 4, v.linkUp = true → v.lostLanes.contains lane.val = false → lane.val = 0 → exec (.driveLaneFaultInService d lane) s =
      .next (surpriseRemoval d.val true (unitLost 0x11 6 d.val 0 (modDrive d.val (fun v => { v with lostLanes := v.lostLanes ++ [0] }) s)))) ∧
    (∀ lane : Fin 4, v.linkUp = true → v.lostLanes.contains lane.val = false → lane.val ≠ 0 → exec (.driveLaneFaultInService d lane) s = .next (
      let w := widthWithout [4, 2, 1] (v.lostLanes ++ [lane.val]) v.width
      unitLost 0x09 6 (4 * d.val + lane.val) (2 ^ lane.val + w * 2 ^ 27) (modDrive d.val (fun v => { v with width := w }) (modDrive d.val (fun v => { v with lostLanes := v.lostLanes ++ [lane.val] }) s)))) ∧
    (∀ lane : Fin 4, v.linkUp = false → exec (.driveLaneFaultInService d lane) s = .next s)) ∧
  (∀ (t : BitVec 12) (tag : Word) c, ((target s t.toNat).bind fun x => x.cmds.find? fun c => decide (c.tag = tag.toNat ∧ c.timedOut = false)) = some c →
    let u := pumpTarget t.toNat (countN 0x202 1 (modTarget t.toNat (fun x => { x with cmds := x.cmds.map fun y => if y.tag = tag.toNat then { y with timedOut := true } else y }) s))
    (c.kind = 1 → exec (.bstatusTimeout t tag) s = .next (failRead c.ctrl c.sq c.cmd 0x22 u)) ∧ (c.kind = 2 → exec (.bstatusTimeout t tag) s = .next (modSeg c.seg (fun g => { g with retryDue := true }) u))) ∧
  (∀ (t : BitVec 12) (tag : Word), target s t.toNat = none → exec (.bstatusTimeout t tag) s = .next s) ∧
  (∀ (ns : NsId) seg g, segAt s seg = some g → g.ns = ns.val → g.retryDue = true → let t := modSeg seg (fun g => { g with retryDue := false }) s
    destageable t { g with retryDue := false } = true → exec (.remoteDestageRetry ns seg) s = .next (destageSeg seg t))

/-- O45. Key alarms, the look-aside tiles and the recovery intake over a host link (R340, R351 to R355, R440 to R442): what each event does where its unit waits for it, and the codes of the intake's errors. -/
def Obligations.AlarmTileAndIntakeEventsComplete : Prop :=
  ∀ (s : State),
  (∀ (code : Byte) (slot : BitVec 17), s.glb.powered = true → 1 ≤ code.toNat → code.toNat ≤ 9 → bitAt s.crypt.present (code.toNat - 1) = false ∨ 5 ≤ code.toNat → exec (.keyAlarmSource code slot) s = .next (alarmSource code.toNat slot.toNat s)) ∧
  (∀ (code : Byte) (slot : BitVec 17), (code.toNat = 0 ∨ 9 < code.toNat) ∨ (code.toNat ∈ [1, 2, 3, 4] ∧ bitAt s.crypt.present (code.toNat - 1) = true) → exec (.keyAlarmSource code slot) s = .next s) ∧
  (∀ code : Byte, 1 ≤ code.toNat → code.toNat ≤ 9 → Completes (exec (.keyAlarmSourceCleared code) s) fun t => t.crypt.present = setBitAt s.crypt.present (code.toNat - 1) false ∧ t.crypt.slots = s.crypt.slots ∧ changesOnly [.crypt] s t) ∧
  (∀ (t : Fin 4) j, (laTile s t).running = some j → (laTile s t).fetching = false → exec (.lookasideJobDone t) s = .next (
    let o := jobOutput s j (j.key.getD [])
    let u := countTile t 1 j.length (countTile t 0 1 (storeChain (chainFrom s 64 (j.place 2).1) (j.place 2).2 o.1 (modTile t (fun y => { y with running := none }) s)))
    goLa t (answerJob j .ok j.length o.2 (if j.mode == 1 && j.decrypts && !o.2 then countTile t 3 1 u else u)))) ∧
  (∀ (t : Fin 4) j, (laTile s t).running = some j → (laTile s t).suspended = none → (laTile s t).fetching = false → (laTile s t).mode = true → j.urgent = false → (laTile s t).queue.head?.any LaJob.urgent = true →
    exec (.lookasideSuspend t) s = .next (let done := j.done + freshNat s % ((j.length - j.done) / 16) * 16
      let u := storeChain (chainFrom s 64 (j.place 2).1) (j.place 2).2 ((jobOutput s j (j.key.getD [])).1.take done) (drawn1 s)
      goLa t (countTile t 2 1 (modTile t (fun y => { y with running := none, suspended := some { j with done := done } }) u)))) ∧
  (∀ (t : Fin 4) j, (laTile s t).running = some j → (laTile s t).mode = false ∨ j.urgent = true → exec (.lookasideSuspend t) s = .next s) ∧
  (∀ (t : Fin 4) j data k, (laTile s t).running = some j → (laTile s t).fetching = true → laKey s j = some k → ((Tbl.find s.crypt.pages (j.keyRef % 2 ^ 24)).any fun p => p.bad) = false →
    Completes (exec (.pageFetchDone t (j.keyRef % 2 ^ 24) data true) s) fun u => (laTile u t).running = some { j with key := some k.material } ∧ (laTile u t).fetching = false ∧ changesOnly [.crypt] s u) ∧
  (∀ (t : Fin 4) j data, (laTile s t).running = some j → (laTile s t).fetching = true → exec (.pageFetchDone t (j.keyRef % 2 ^ 24) data false) s = .next (
    let u := count 0x0B 0 0x603 1 (modCrypt (fun c => { c with pages := Tbl.del c.pages (j.keyRef % 2 ^ 24) }) s)
    goLa t (answerJob j .keyRefused 0 false (countTile t 4 1 (modTile t (fun y => { y with running := none, fetching := false }) u))))) ∧
  (∀ (t : Fin 4) page data ok, (laTile s t).running = none → exec (.lookasideJobDone t) s = .next s ∧ exec (.lookasideSuspend t) s = .next s ∧ exec (.pageFetchDone t page data ok) s = .next s) ∧
  (∀ h : HostId, pf2Up s h = true → let who := recOf h
    (∀ slot : Fin 2, intakeOpen s = false → exec (.hlinkRecCommit h) s = .next (recError who 1 s) ∧ exec (.hlinkRecAbort h) s = .next (recError who 1 s) ∧ exec (.hlinkRecInstall h slot) s = .next (recError who 1 (modRec who (fun r => { r with slot := slot.val }) s))) ∧
    (intakeOpen s = true → intakeBusy s who = true → exec (.hlinkRecCommit h) s = .next (recError who 2 s)) ∧
    (intakeOpen s = true → intakeBusy s who = false → chunkOk (recPort s who) = false → exec (.hlinkRecCommit h) s = .next (recError who 3 s)) ∧
    (intakeOpen s = true → intakeBusy s who = false → chunkOk (recPort s who) = true → (recPort s who).offset = 0 ∨ s.sec.intake.claim.isSome = true → Completes (exec (.hlinkRecCommit h) s) fun t =>
      t.sec.intake.claim = some who.val ∧ t.sec.intake.phase = 2 ∧ t.sec.intake.worker = who.val ∧ changesOnly [.sec] s t) ∧
    (∀ slot : Fin 2, intakeOpen s = true → intakeBusy s who = false → s.sec.intake.claim.isSome = true → installing s slot.val = false → slotValid s slot.val = false →
      Completes (exec (.hlinkRecInstall h slot) s) fun t => t.sec.intake.phase = 3 ∧ t.sec.intake.slot = slot.val ∧ t.sec.intake.worker = who.val ∧ changesOnly [.sec] s t) ∧
    (intakeOpen s = true → s.sec.intake.claim.any (· != who.val) = false → exec (.hlinkRecAbort h) s = .next (recRelease who s)) ∧
    (intakeOpen s = true → s.sec.intake.claim.any (· != who.val) = true → exec (.hlinkRecAbort h) s = .next (recError who 2 s))) ∧
  (∀ (h : HostId) slot, pf2Up s h = false → exec (.hlinkRecCommit h) s = .next s ∧ exec (.hlinkRecInstall h slot) s = .next s ∧ exec (.hlinkRecAbort h) s = .next s) ∧
  (∀ ok, s.sec.intake.phase ≠ 2 → exec (.chunkDone ok) s = .next s) ∧
  (∀ who : Fin 9, s.sec.intake.phase = 2 → s.sec.intake.worker = who.val → exec (.chunkDone true) s = .next (refreshRec who (modRec who (fun r => { r with chunkDone := true })
    (modIntake (fun x => { x with phase := 1, buf := Mem.writeBytes x.buf 0xFF (recPort s who).offset (Mem.readBytes (recPort s who).window 0 0 (recPort s who).len) }) s)))) ∧
  (∀ who : Fin 9, s.sec.intake.phase = 2 → s.sec.intake.worker = who.val → exec (.chunkDone false) s = .next (recError who 3 (modIntake (fun x => { x with phase := 1 }) s))) ∧
  (∀ ok, s.sec.intake.phase ≠ 3 → s.sec.intake.phase ≠ 4 → exec (.installDone ok) s = .next s) ∧
  (∀ (who : Fin 9) ok, s.sec.intake.phase = 3 → s.sec.intake.worker = who.val → s.sec.intake.claim.isSome = true → bufferReason s s.sec.intake.buf ≠ 0 →
    exec (.installDone ok) s = .next (recError who (0x10 + bufferReason s s.sec.intake.buf) (modIntake (fun x => if x.claim.isNone then Intake.mk none 0 0 0 [] x.ports else { x with phase := 5 }) s)))

/-- O46. The Xbtx rows (R366 to R382, R393): a READY thread that awaits no load issues its instruction, whose program counter moves on by 4, and every form does what its rule says; a thread that may not issue does nothing. -/
def Obligations.ThreadInstructionsComplete : Prop :=
  ∀ (s : State) (cl : Cluster) (co : CoreIx) (t : ThreadIx),
  (∀ th, thread s (coreNo cl co) t.val = some th → mayIssue s (coreNo cl co) t.val = true →
    let ck := coreNo cl co
    let u := issued ck t.val s
    let npc := th.pc + 4
    (∀ rd rs1 rs2 : RegNo, ∀ c, freeContext s ck = some c → ∀ det : Bool, exec (if det then .tforkd cl co t rd rs1 rs2 else .tfork cl co t rd rs1 rs2) s = .next (retireRd ck t.val npc rd.val c (countCore (ck / 16) 1
      (modCore ck (fun k => { k with threads := Tbl.put k.threads c { ((Thread.fresh (th.x rs1.val).toNat).setX 10 (th.x rs2.val).toNat).setX 11 t.val with detached := det, parent := t.val } }) u)))) ∧
    (∀ rd rs1 rs2 : RegNo, freeContext s ck = none → ∀ det : Bool, exec (if det then .tforkd cl co t rd rs1 rs2 else .tfork cl co t rd rs1 rs2) s = .next (retireRd ck t.val npc rd.val (2 ^ 64 - 1) (countCore (ck / 16) 2 u))) ∧
    (∀ (rd rs1 : RegNo) c, (th.x rs1.val).toNat < 16 → (th.x rs1.val).toNat ≠ t.val → thread s ck (th.x rs1.val).toNat = some c → c.parent = t.val → c.detached = false → c.st ≠ .trapped →
      exec (.tjoin cl co t rd rs1) s = .next (settle ck t.val (modThread ck t.val (fun y => { y with st := .waiting, wait := some (.join rd.val (th.x rs1.val).toNat) }) (retire ck t.val npc u)))) ∧
    (∀ rd rs1 : RegNo, (th.x rs1.val).toNat = t.val ∨ 16 ≤ (th.x rs1.val).toNat ∨ (∀ c, thread s ck (th.x rs1.val).toNat = some c → c.parent ≠ t.val ∨ c.detached = true ∨ c.st = .trapped) → exec (.tjoin cl co t rd rs1) s = .next (trap ck t.val 5 (th.x rs1.val).toNat u)) ∧
    (∀ rs1 : RegNo, exec (.texit cl co t rs1) s = .next (exitThread ck t.val (th.x rs1.val).toNat (retire ck t.val npc u))) ∧
    (∀ (rd rs1 rs2 : RegNo), threadLive s ck ((th.x rs1.val).toNat % 16) = true →
      exec (.tsignal cl co t rd rs1 rs2) s = .next (setEvents ck ((th.x rs1.val).toNat % 16) ((th.x rs2.val).toNat % 8192) (retireRd ck t.val npc rd.val 0 u))) ∧
    (∀ (rd rs1 rs2 : RegNo), threadLive s ck ((th.x rs1.val).toNat % 16) = false →
      exec (.tsignal cl co t rd rs1 rs2) s = .next (retireRd ck t.val npc rd.val 1 (countCore (ck / 16) 3 u))) ∧
    (∀ rd rs1 : RegNo, (th.x rs1.val).toNat % 65536 ≠ 0 → exec (.twait cl co t rd rs1) s = .next (settle ck t.val (modThread ck t.val (fun y => { y with st := .waiting, wait := some (.events rd.val ((th.x rs1.val).toNat % 65536)) }) (retire ck t.val npc u)))) ∧
    (∀ rd rs1 : RegNo, (th.x rs1.val).toNat % 65536 = 0 → exec (.twait cl co t rd rs1) s = .next (trap ck t.val 1 (xbWord (.twait rd.val rs1.val)) u)) ∧
    (∀ rs1 : RegNo, (th.x rs1.val).toNat < 2 ^ 32 → exec (.ttimer cl co t rs1) s = .next (retire ck t.val npc (modThread ck t.val (fun y => { y with timer := if (th.x rs1.val).toNat = 0 then none else some ((th.x rs1.val).toNat, s.now) }) u))) ∧
    (∀ rs1 : RegNo, 2 ^ 32 ≤ (th.x rs1.val).toNat → exec (.ttimer cl co t rs1) s = .next (retire ck t.val npc (modThread ck t.val (fun y => { y with timer := some (freshNat s, s.now) }) (drawn1 u)))) ∧
    exec (.tyield cl co t) s = .next (retire ck t.val npc u) ∧
    exec (.wdogKick cl co t) s = .next (retire ck t.val npc (kick ck u)) ∧
    (∀ (rd : RegNo) (h : Fin 64), exec (.hrd cl co t rd h) s = .next (retireRd ck t.val npc rd.val (hawk s ck h.val) u)) ∧
    (∀ (h : Fin 64) (rs2 : RegNo), exec (.hwr cl co t h rs2) s = .next (retireRd ck t.val npc 0 (hawk s ck h.val) (setHawk ck t.val h.val (th.x rs2.val).toNat u))) ∧
    (∀ (rd : RegNo) (h : Fin 64) (rs2 : RegNo), exec (.hswap cl co t rd h rs2) s = .next (retireRd ck t.val npc rd.val (hawk s ck h.val) (setHawk ck t.val h.val (th.x rs2.val).toNat u))) ∧
    (∀ (rd : RegNo) (h : Fin 64) (rs2 : RegNo), exec (.hadd cl co t rd h rs2) s = .next (retireRd ck t.val npc rd.val (hawk s ck h.val) (setHawk ck t.val h.val (hawk s ck h.val + (th.x rs2.val).toNat) u))) ∧
    (∀ (rd : RegNo) (h : Fin 64) (rs1 rs2 : RegNo), hawk s ck h.val = (th.x rs1.val).toNat → exec (.hcas cl co t rd h rs1 rs2) s = .next (retireRd ck t.val npc rd.val (hawk s ck h.val) (setHawk ck t.val h.val (th.x rs2.val).toNat u))) ∧
    (∀ (rd : RegNo) (h : Fin 64) (rs1 rs2 : RegNo), hawk s ck h.val ≠ (th.x rs1.val).toNat → exec (.hcas cl co t rd h rs1 rs2) s = .next (retireRd ck t.val npc rd.val (hawk s ck h.val) u)) ∧
    (∀ (rs2 : RegNo) (w : Fin 8), exec (.chput cl co t rs2 w) s = .next (retire ck t.val npc (modThread ck t.val (fun y => { y with staging := vset y.staging w (y.x rs2.val).toNat }) u))) ∧
    (∀ rd rs1 : RegNo, portGranted s ck (bitsAt (th.x rs1.val).toNat 0 4) = false → exec (.chcommit cl co t rd rs1) s = .next (retireRd ck t.val npc rd.val 2 (countCore (ck / 16) 6 u))) ∧
    (∀ rd rs1 : RegNo, let port := bitsAt (th.x rs1.val).toNat 0 4
      let n := bitsAt (th.x rs1.val).toNat 8 4
      portGranted s ck port = true → 1 ≤ n → n ≤ 8 → th.outstanding < 4 → (portQueue s (ck / 16) port).length < 64 → exec (.chcommit cl co t rd rs1) s = .next (retireRd ck t.val npc rd.val 0 (countCore (ck / 16) 4
        (modThread ck t.val (fun y => { y with asked := y.asked + 1 }) (modCluster (ck / 16) (fun c => { c with ports := Tbl.put c.ports port (Tbl.getD c.ports port [] ++ [{ core := ck, thread := t.val, words := th.staging.toList.take n }]) }) (drainAll ck t.val u)))))) ∧
    (∀ (rd : RegNo) (w : Fin 8) pop, th.inbox = [] → exec (.chrecv cl co t rd w pop) s = .next (retireRd ck t.val npc rd.val 0 u)) ∧
    (∀ (rd : RegNo) (w : Fin 8) r rest, th.inbox = r :: rest → exec (.chrecv cl co t rd w true) s = .next (retireRd ck t.val npc rd.val (r.getD w.val 0) (modThread ck t.val (fun y => { y with inbox := rest }) u)) ∧
      exec (.chrecv cl co t rd w false) s = .next (retireRd ck t.val npc rd.val (r.getD w.val 0) u))) ∧
  (mayIssue s (coreNo cl co) t.val = false → ∀ (rd rs1 rs2 : RegNo) (h : Fin 64) (w : Fin 8) (pop : Bool), ∀ c ∈ [Instr.tfork cl co t rd rs1 rs2, .tforkd cl co t rd rs1 rs2, .tjoin cl co t rd rs1, .texit cl co t rs1, .tsignal cl co t rd rs1 rs2, .twait cl co t rd rs1,
    .ttimer cl co t rs1, .tyield cl co t, .wdogKick cl co t, .hrd cl co t rd h, .hwr cl co t h rs2, .hswap cl co t rd h rs2, .hadd cl co t rd h rs2, .hcas cl co t rd h rs1 rs2, .chput cl co t rs2 w, .chcommit cl co t rd rs1, .chrecv cl co t rd w pop], exec c s = .next s)

/-- O47. The events of the packet cores (R363, R364, R371, R375, R381, R382, R392, R393): which thread issues, what a returning access, a timer, a reply, a deadlock and the watchdog do; a hod that nobody holds is the undefined case of R205. -/
def Obligations.CoreEventsComplete : Prop :=
  ∀ (s : State) (cl : Cluster) (co : CoreIx), let ck := coreNo cl co
  (nextThread s ck = none → exec (.coreInstruction cl co) s = .next s) ∧
  (∀ t, nextThread s ck = some t → isLost s 0x03 ck = true → exec (.coreInstruction cl co) s = .next s) ∧
  (∀ t th c, nextThread s ck = some t → isLost s 0x03 ck = false → thread s ck t = some th → fetch s ck th = .error c → exec (.coreInstruction cl co) s = .next (trap ck t c th.pc (issued ck t s))) ∧
  (∀ t th i, nextThread s ck = some t → isLost s 0x03 ck = false → thread s ck t = some th → fetch s ck th = .ok i → decodeAny i = none → exec (.coreInstruction cl co) s = .next (trap ck t 1 i (issued ck t s))) ∧
  (∀ t th i r, nextThread s ck = some t → isLost s 0x03 ck = false → thread s ck t = some th → fetch s ck th = .ok i → decodeAny i = some r → namesFreeHod s ck t = false →
    exec (.coreInstruction cl co) s = .next (rvExec ck t i (if isShort i then 2 else 4) r (issued ck t s))) ∧
  (∀ t, nextThread s ck = some t → isLost s 0x03 ck = false → namesFreeHod s ck t = true → exec (.coreInstruction cl co) s = .refused (.undefinedCase 205)) ∧
  (∀ (t : ThreadIx) bad, exec (.loadDataReturn cl co t true bad) s = .next (drainOne ck t.val s) ∧ exec (.loadDataReturn cl co t false bad) s = .next (loadReturn ck t.val bad s)) ∧
  (∀ (t : ThreadIx) th, thread s ck t.val = some th → th.timer.isSome = true → exec (.threadTimerExpiry cl co t) s = .next (setEvents ck t.val 16384 (modThread ck t.val (fun y => { y with timer := none }) s))) ∧
  (∀ t : ThreadIx, (∀ th, thread s ck t.val = some th → th.timer = none) → exec (.threadTimerExpiry cl co t) s = .next s) ∧
  (∀ (t : ThreadIx) th (k : Fin 4) r, thread s ck t.val = some th → th.coming[k.val]? = some r → th.st ≠ .draining → exec (.channelReplyArrival cl co t k) s = .next (settle ck t.val (modThread ck t.val (fun y => { y with inbox := y.inbox ++ [r] }) (modThread ck t.val (fun y => { y with coming := y.coming.eraseIdx k.val }) s)))) ∧
  (∀ (t : ThreadIx) th (k : Fin 4) r, thread s ck t.val = some th → th.coming[k.val]? = some r → th.st = .draining → exec (.channelReplyArrival cl co t k) s = .next (finishExit ck t.val (modThread ck t.val (fun y => { y with coming := y.coming.eraseIdx k.val }) s))) ∧
  (∀ (t : ThreadIx) (k : Fin 4), (∀ th, thread s ck t.val = some th → th.coming[k.val]? = none) → exec (.channelReplyArrival cl co t k) s = .next s) ∧
  (∀ e, deadlocked s ck = true → (coreOf s ck).detected = false → ((coreOf s ck).threads.find? fun e => e.2.st == .waiting) = some e → exec (.waitDeadlock cl co) s = .next (trap ck e.1 4 (waitMask s e.2) (countCore cl.val 11
    (modThread ck e.1 (fun th => { th with pc := (th.pc + 2 ^ 64 - 4) % 2 ^ 64 }) (modCore ck (fun c => { c with detected := true }) (drawn1 s)))))) ∧
  (deadlocked s ck = false ∨ (coreOf s ck).detected = true → exec (.waitDeadlock cl co) s = .next s) ∧
  (coreLive s ck = false ∨ coreHalted s ck = true ∨ (coreOf s ck).wdogTimeout = 0 → exec (.watchdog cl co) s = .next s) ∧
  (coreLive s ck = true → coreHalted s ck = false → (coreOf s ck).wdogTimeout ≠ 0 →
    let c := coreOf s ck
    let u := modCore ck (fun c => { c with wdogExpired := true, wdogFrom := s.now }) (raiseOwner 0x61 (source 0x03 ck) 0 [16 * ck + c.wdogAction * 65536, Tbl.countIf c.threads fun _ t => t.st.live, min c.wdogTimeout 4000000] (countCore cl.val 12 s))
    (c.wdogAction = 1 → exec (.watchdog cl co) s = .next ((threadsOf s ck).foldl (fun s t => haltThread ck t s) u)) ∧
    (c.wdogAction = 2 → exec (.watchdog cl co) s = .next ((threadsOf s ck).foldl (fun s t => killThread ck t s) u)) ∧
    (c.wdogAction ≠ 1 → c.wdogAction ≠ 2 → exec (.watchdog cl co) s = .next u))

/-- O48. The HOD, DMA and TABLE ports (R380, R382, R384 to R386): each row serves the oldest request of its port, if its OP is one of the row's, and answers it; R385's copy over itself and a handle that nobody holds (R205) are the undefined cases. -/
def Obligations.HodDmaAndTablePortsComplete : Prop :=
  ∀ (s : State) (cl : Cluster),
  (frontOf s cl.val 0 (fun op => op == 1 || op == 0 || 4 < op) = none → exec (.hodAlloc cl) s = .next s) ∧ (frontOf s cl.val 0 (fun op => op == 2) = none → exec (.hodFree cl) s = .next s) ∧ (frontOf s cl.val 0 (fun op => op == 3) = none → exec (.hodLink cl) s = .next s) ∧
  (frontOf s cl.val 0 (fun op => op == 4) = none → exec (.hodNext cl) s = .next s) ∧ (frontOf s cl.val 1 (fun _ => true) = none → exec (.dmaCopy cl) s = .next s) ∧ (frontOf s cl.val 2 (fun _ => true) = none → exec (.tableRequest cl) s = .next s) ∧
  (∀ m, frontOf s cl.val 0 (fun op => op == 1 || op == 0 || 4 < op) = some m → 1 ≤ m.words.length → let u := popPort cl.val 0 s
    let len := bitsAt (m.w 0) 16 14
    (opOf m ≠ 1 → exec (.hodAlloc cl) s = .next (answerPort 0 m .badOpcode [] u)) ∧
    (opOf m = 1 → len = 0 ∨ 10240 < len → exec (.hodAlloc cl) s = .next (answerPort 0 m .badParam [] u)) ∧
    (∀ h t, opOf m = 1 → 1 ≤ len → len ≤ 10240 → allocHods .core false false len u = .ok (h, t) → exec (.hodAlloc cl) s = .next (answerPort 0 m .ok [h.getD 0 nullHod] t)) ∧
    (∀ e, opOf m = 1 → 1 ≤ len → len ≤ 10240 → allocHods .core false false len u = .error e → exec (.hodAlloc cl) s = .next (answerPort 0 m .noResource [] (countRefused .core false e u)))) ∧
  (∀ m, frontOf s cl.val 0 (fun op => op == 2) = some m → let u := popPort cl.val 0 s
    let h := m.w 1 % 2 ^ 32
    let hs := if bitAt (m.w 0) 8 then chainFrom u 64 h else [h]
    (m.words.length < 2 → exec (.hodFree cl) s = .next (answerPort 0 m .badLength [] u)) ∧
    (∀ a, 2 ≤ m.words.length → hodCheck u h 0 0 1 = some a → exec (.hodFree cl) s = .next (answerPort 0 m .badParam [] (hodViolation a h 0 0 (whoOf m) 0 u))) ∧
    (2 ≤ m.words.length → hodCheck u h 0 0 1 = none → hodHeld u h = true → hs.all (hodHeld u) = true → exec (.hodFree cl) s = .next (answerPort 0 m .ok [] (freeHods hs u))) ∧
    (2 ≤ m.words.length → hodCheck u h 0 0 1 = none → hodHeld u h = false → exec (.hodFree cl) s = .refused (.undefinedCase 205))) ∧
  (∀ m, frontOf s cl.val 0 (fun op => op == 3) = some m → 3 ≤ m.words.length → let u := popPort cl.val 0 s
    let h := m.w 1 % 2 ^ 32
    let n := m.w 2 % 2 ^ 32
    hodCheck u h 0 0 1 = none → hodHeld u h = true → n = nullHod ∨ (hodCheck u n 0 0 1 = none ∧ hodHeld u n = true ∧ (u.hod.held.any fun e => e.1 != h && e.2.next == n) = false) →
    exec (.hodLink cl) s = .next (answerPort 0 m .ok [] (modHod (fun x => { x with held := Tbl.modify x.held h fun y => { y with next := n } }) u))) ∧
  (∀ m x, frontOf s cl.val 0 (fun op => op == 4) = some m → 2 ≤ m.words.length → hodCheck (popPort cl.val 0 s) (m.w 1 % 2 ^ 32) 0 0 1 = none → Tbl.find s.hod.held (m.w 1 % 2 ^ 32) = some x →
    exec (.hodNext cl) s = .next (answerPort 0 m .ok [x.next] (popPort cl.val 0 s))) ∧
  (∀ m, frontOf s cl.val 1 (fun _ => true) = some m → let u := popPort cl.val 1 s
    let n := bitsAt (m.w 3) 0 21
    (opOf m ≠ 1 → exec (.dmaCopy cl) s = .next (answerPort 1 m .badOpcode [] u)) ∧
    (opOf m = 1 → m.words.length < 4 → exec (.dmaCopy cl) s = .next (answerPort 1 m .badLength [] u)) ∧
    (opOf m = 1 → 4 ≤ m.words.length → n = 0 ∨ 1048576 < n → exec (.dmaCopy cl) s = .next (answerPort 1 m .badParam [] u)) ∧
    (∀ a b, opOf m = 1 → 4 ≤ m.words.length → 1 ≤ n → n ≤ 1048576 → dmaOperand u m.core (m.w 1) n = .at_ a → dmaOperand u m.core (m.w 2) n = .at_ b → samePlace (placeOf u m.core a) (placeOf u m.core b) n = false →
      exec (.dmaCopy cl) s = .next (answerPort 1 m .ok [] (dmaCopy m.core a b n u))) ∧
    (∀ a b, opOf m = 1 → 4 ≤ m.words.length → 1 ≤ n → n ≤ 1048576 → dmaOperand u m.core (m.w 1) n = .at_ a → dmaOperand u m.core (m.w 2) n = .at_ b → samePlace (placeOf u m.core a) (placeOf u m.core b) n = true →
      exec (.dmaCopy cl) s = .refused (.undefinedCase 385))) ∧
  (∀ m, frontOf s cl.val 2 (fun _ => true) = some m → let u := popPort cl.val 2 s
    let n := bitsAt (m.w 2) 0 16
    (opOf m ≠ 1 → exec (.tableRequest cl) s = .next (answerPort 2 m .badOpcode [] u)) ∧
    (opOf m = 1 → 4 ≤ m.words.length → tableCmd (bitsAt (m.w 0) 16 16) = none → exec (.tableRequest cl) s = .next (answerPort 2 m .badOpcode (tableReply [] u) u)) ∧
    (∀ d r, opOf m = 1 → 4 ≤ m.words.length → tableCmd (bitsAt (m.w 0) 16 16) = some d → blockAt u m.core (m.w 1) (8 * n) 8 = some r → let p := portPacket (readAt u m.core r (8 * n))
      (d.len n = false → exec (.tableRequest cl) s = .next (answerPort 2 m .badLength (tableReply [] u) u)) ∧
      (∀ st, d.len n = true → firstRefusal (d.checks .device p u) = some st → exec (.tableRequest cl) s = .next (answerPort 2 m st (tableReply [] u) u)) ∧
      (d.len n = true → firstRefusal (d.checks .device p u) = none → (d.act .device p u).long = none → exec (.tableRequest cl) s = .next (
        let a := d.act .device p u
        answerPort 2 m a.status (tableReply a.result a.state) a.state)) ∧
      (∀ l out, d.len n = true → firstRefusal (d.checks .device p u) = none → (d.act .device p u).long = some l → blockAt u m.core (m.w 3) (4 * l.length) 8 = some out → exec (.tableRequest cl) s = .next (
        let a := d.act .device p u
        answerPort 2 m a.status (tableReply a.result a.state) (writeAt m.core out (wordsToBytes l) a.state)))))

/-- O49. The LOOKASIDE, EMIT and PUNT ports (R351, R352, R387 to R390, R398): each row serves the oldest request of its port; a chain that names a hod nobody holds is the undefined case of R205 or R388. -/
def Obligations.LookasideEmitAndPuntPortsComplete : Prop :=
  ∀ (s : State) (cl : Cluster),
  (frontOf s cl.val 3 (fun _ => true) = none → exec (.lookasideJob cl) s = .next s) ∧ (frontOf s cl.val 4 (fun op => op != 2) = none → exec (.emitPort cl) s = .next s) ∧ (frontOf s cl.val 4 (fun op => op == 2) = none → exec (.emitHost cl) s = .next s) ∧
  (frontOf s cl.val 5 (fun op => op != 2) = none → exec (.puntRecv cl) s = .next s) ∧ (frontOf s cl.val 5 (fun op => op == 2) = none → exec (.puntCancel cl) s = .next s) ∧
  (∀ m, frontOf s cl.val 3 (fun _ => true) = some m → opOf m = 1 ∨ opOf m = 2 → 8 ≤ m.words.length → let u := popPort cl.val 3 s
    let j : LaJob := { cluster := cl.val, core := m.core, thread := m.thread, words := m.words, key := none, done := 0 }
    badPlace u (j.place 1) j.reads = none → badPlace u (j.place 2) j.writes = none →
    (((chainFrom u 64 (j.place 1).1).all (hodHeld u) && (chainFrom u 64 (j.place 2).1).all (hodHeld u)) = false → exec (.lookasideJob cl) s = .refused (.undefinedCase 205)) ∧
    (((chainFrom u 64 (j.place 1).1).all (hodHeld u) && (chainFrom u 64 (j.place 2).1).all (hodHeld u)) = true →
      (j.length < 16 ∨ 655360 < j.length ∨ j.length % 16 ≠ 0 ∨ j.mode = 0 ∨ 3 < j.mode ∨ m.w 6 ≠ 0 ∨ m.w 7 ≠ 0 → exec (.lookasideJob cl) s = .next (answerPort 3 m .badParam [] u)) ∧
      (16 ≤ j.length → j.length ≤ 655360 → j.length % 16 = 0 → 1 ≤ j.mode → j.mode ≤ 3 → m.w 6 = 0 → m.w 7 = 0 →
        (256 ≤ jobsOf u cl.val → exec (.lookasideJob cl) s = .next (answerPort 3 m .noResource [] u)) ∧
        (jobsOf u cl.val < 256 → badKeyRef j.keyRef = true ∨ laKey u j = none → exec (.lookasideJob cl) s = .next (answerPort 3 m .keyRefused [] (countTile (emptiestTile u) 4 1 u))) ∧
        (∀ k, jobsOf u cl.val < 256 → badKeyRef j.keyRef = false → laKey u j = some k → exec (.lookasideJob cl) s = .next (goLa (emptiestTile u) (modTile (emptiestTile u) (fun x => { x with queue := joinQueue j x.queue }) u)))))) ∧
  (∀ m, frontOf s cl.val 4 (fun op => op != 2) = some m → 3 ≤ m.words.length → let u := popPort cl.val 4 s
    let len := bitsAt (m.w 2) 0 14
    let c := bitsAt (m.w 2) 24 3
    let port := bitsAt (m.w 2) 16 6
    let hs := chainFrom u 64 (m.w 1 % 2 ^ 32)
    (opOf m ≠ 1 → exec (.emitPort cl) s = .next (answerPort 4 m .badOpcode [] u)) ∧
    (opOf m = 1 → c = 7 ∨ len < 60 ∨ 9212 < len → exec (.emitPort cl) s = .next (answerPort 4 m .badParam [] u)) ∧
    (opOf m = 1 → c ≠ 7 → 60 ≤ len → len ≤ 9212 → handleInRange u (m.w 1 % 2 ^ 32) = true → hs.all (hodHeld u) = true → len ≤ hs.foldl (fun n x => n + hodBytes (hodPool x)) 0 →
      (∀ e, chargeAll .forward false hs u = .error e → exec (.emitPort cl) s = .next (answerPort 4 m .noResource [] (countRefused .forward false e u))) ∧
      (∀ t, chargeAll .forward false hs u = .ok t → portIsUp t port = false → exec (.emitPort cl) s = .next (answerPort 4 m .ok [] (dropLinkDown { emitted hs len u with port := port, cls := c } t))) ∧
      (∀ t, chargeAll .forward false hs u = .ok t → portIsUp t port = true → exec (.emitPort cl) s = .next (answerPort 4 m .ok [] (forwardTo port (permitted ((forwardPath t port 0).map fun n => n.permit) c) { emitted hs len u with port := port, cls := c } t))))) ∧
  (∀ m, frontOf s cl.val 4 (fun op => op == 2) = some m → 4 ≤ m.words.length → let u := popPort cl.val 4 s
    let len := bitsAt (m.w 2) 0 14
    let a := actionAt u (bitsAt (m.w 2) 32 18)
    let hs := chainFrom u 64 (m.w 1 % 2 ^ 32)
    ((actValid a && actKind a == 1 && actClass a != 7) = false → exec (.emitHost cl) s = .next (answerPort 4 m .badParam [] u)) ∧
    (∀ h f r, (actValid a && actKind a == 1 && actClass a != 7) = true → hostDest u (actDest a) = some (h, f) → blockAt u m.core (m.w 3) 256 256 = some r → 60 ≤ len → len ≤ 9212 → handleInRange u (m.w 1 % 2 ^ 32) = true → hs.all (hodHeld u) = true →
      len ≤ hs.foldl (fun n x => n + hodBytes (hodPool x)) 0 →
      (∀ e, chargeAll (fnPayer h f) false hs u = .error e → exec (.emitHost cl) s = .next (answerPort 4 m .noResource [] (countRefused (fnPayer h f) false e u))) ∧
      (∀ t, chargeAll (fnPayer h f) false hs u = .ok t → exec (.emitHost cl) s = .next (answerPort 4 m .ok [] (emitHost h f a (vectorOf (readAt u m.core r 256)) (emitted hs len u) t))))) ∧
  (∀ m, frontOf s cl.val 5 (fun op => op != 2) = some m → opOf m = 1 → 2 ≤ m.words.length → let u := popPort cl.val 5 s
    (∀ sp off, blockAt u m.core (m.w 1) 256 256 = some (.mem sp off) → sp ≠ 0 → exec (.puntRecv cl) s = .next (modCluster cl.val (fun c => { c with recvs := c.recvs ++ [m] }) u)) ∧
    (blockAt u m.core (m.w 1) 256 256 = none → exec (.puntRecv cl) s = .next (answerPort 5 m .badParam [] u))) ∧
  (∀ m, frontOf s cl.val 5 (fun op => op == 2) = some m → 1 ≤ m.words.length → let u := popPort cl.val 5 s
    let own (r : PortMsg) : Bool := r.core == m.core && r.thread == m.thread
    exec (.puntCancel cl) s = .next (answerPort 5 m .ok [] (((cluster u cl.val).recvs.filter own).foldl (fun s r => answerPort 5 r .cancelled [] s)
      (modCluster cl.val (fun c => { c with recvs := (cluster u cl.val).recvs.filter fun r => !own r }) u)))) ∧
  (∀ x xs m ms, s.glb.mode ≠ .quiesce → (cluster s cl.val).punts = x :: xs → (cluster s cl.val).recvs = m :: ms → exec (.puntDelivery cl) s = .next (
    let t := modCluster cl.val (fun c => { c with punts := xs, recvs := ms }) s
    let v := match blockAt t m.core (m.w 1) 256 256 with
      | none => t
      | some r => writeAt m.core r (vectorRecord x) t
    answerPort 5 m .ok [x.pkt.hods.getD 0 nullHod, x.pkt.vec.length % 16384 + x.source % 256 * 65536 + x.cause % 16 * 2 ^ 24 + b2n x.tx * 2 ^ 28, x.pkt.epoch] (countCore cl.val 7 v))) ∧
  (s.glb.mode = .quiesce ∨ (cluster s cl.val).punts = [] ∨ (cluster s cl.val).recvs = [] → exec (.puntDelivery cl) s = .next s)

/-- O50. The DRAM channels (R408 to R420): what a request, its data, an alert, a replay, a retrain, a refresh, a temperature, a scrub and a repair do, and where each does nothing. -/
def Obligations.DramEventsComplete : Prop :=
  ∀ (s : State),
  (∀ r : DramReq, channelAt s r.addr.toNat = none → exec (.dramRequest r) s = .next (emit (.dram 0 r.addr.toNat 2 []) s)) ∧
  (∀ (r : DramReq) ch, channelAt s r.addr.toNat = some ch → dramGone s r.addr.toNat = true → exec (.dramRequest r) s = .next (emit (.dram ch r.addr.toNat 2 []) s)) ∧
  (∀ (r : DramReq) ch, channelAt s r.addr.toNat = some ch → dramGone s r.addr.toNat = false → let w : DramWait := { req := r, issued := nowNs s, deadline := nowNs s + dramTarget s r.kind r.domain, retried := false, data := [] }
    let dpa := r.addr.toNat / 64 * 64
    (256 ≤ (dramChan s ch).queue.length → exec (.dramRequest r) s = .next (modChan ch (fun c => { c with waiting := c.waiting ++ [w] }) s)) ∧
    ((dramChan s ch).queue.length < 256 → let u := modChan ch (fun c => { c with accesses := c.accesses + 1 }) s
      (r.write = none → exec (.dramRequest r) s = .next (countDram ch 0 (modChan ch (fun c => { c with queue := c.queue ++ [{ w with data := Mem.readBytes u.dram.mem 0 dpa 64 }] }) u))) ∧
      (∀ bs, r.write = some bs → exec (.dramRequest r) s = .next (countDram ch 1 (cleanPoison (1025, dpa) 64 (modDram (fun d => { d with mem := Mem.writeBytes d.mem 0 dpa (bs.take 64) }) u)))))) ∧
  (∀ (ch : DramCh) (addr : DWord) (e : EccResult) w k, let c := dramChan s ch.val
    (c.queue.find? fun w => w.req.addr.toNat / 64 == addr.toNat / 64) = some w → (c.queue.findIdx? fun w => w.req.addr.toNat / 64 == addr.toNat / 64) = some k →
    (c.state ≠ 2 → exec (.dramReadEcc ch addr e) s = .next s) ∧
    (c.state = 2 → let u := modChan ch.val (fun c => { c with queue := c.queue.eraseIdx k }) s
      (dramPoisoned s addr.toNat = true → exec (.dramReadEcc ch addr e) s = .next (answerDram ch.val w true u)) ∧
      (dramPoisoned s addr.toNat = false → e.found.val = 0 → exec (.dramReadEcc ch addr e) s = .next (answerDram ch.val w false u)) ∧
      (dramPoisoned s addr.toNat = false → e.found.val = 1 → exec (.dramReadEcc ch addr e) s = .next (answerDram ch.val w false (correctDram ch.val e.row addr.toNat u))) ∧
      (dramPoisoned s addr.toNat = false → 2 ≤ e.found.val → w.retried = true → exec (.dramReadEcc ch addr e) s = .next (answerDram ch.val w true (poisonDram ch.val e.row addr.toNat u))) ∧
      (dramPoisoned s addr.toNat = false → 2 ≤ e.found.val → w.retried = false → exec (.dramReadEcc ch addr e) s = .next (countDram ch.val 4 (modChan ch.val (fun c => { c with queue := c.queue.set k { w with retried := true } }) s))))) ∧
  (∀ (ch : DramCh) (addr : DWord) (e : EccResult), ((dramChan s ch.val).queue.find? fun w => w.req.addr.toNat / 64 == addr.toNat / 64) = none → exec (.dramReadEcc ch addr e) s = .next s) ∧
  (∀ (ch : DramCh) (addr : DWord) (e : EccResult),
    ((dramChan s ch.val).state ≠ 2 ∨ channelAt s addr.toNat ≠ some ch.val → exec (.patrolScrub ch addr e) s = .next s) ∧
    ((dramChan s ch.val).state = 2 → channelAt s addr.toNat = some ch.val → let u := countDram ch.val 0 (modChan ch.val (fun c => { c with accesses := c.accesses + 1 }) s)
      (dramPoisoned s addr.toNat = true ∨ e.found.val = 0 → exec (.patrolScrub ch addr e) s = .next u) ∧
      (dramPoisoned s addr.toNat = false → e.found.val = 1 → exec (.patrolScrub ch addr e) s = .next (correctDram ch.val e.row addr.toNat u)) ∧
      (dramPoisoned s addr.toNat = false → 2 ≤ e.found.val → exec (.patrolScrub ch addr e) s = .next (poisonDram ch.val e.row addr.toNat (countDram ch.val 4 u))))) ∧
  (∀ (ch : DramCh) (crc : Bool), let c := dramChan s ch.val
    let recent := (c.alerts.filter fun t => nowNs s < t + 10000) ++ [nowNs s]
    (c.state ≠ 2 → c.state ≠ 3 → exec (.dramAlert ch crc) s = .next s) ∧
    (c.state = 2 ∨ c.state = 3 → recent.length < 4 → exec (.dramAlert ch crc) s = .next (modChan ch.val (fun c => { c with state := 3, alerts := recent }) (countDram ch.val (if crc then 6 else 5) s))) ∧
    (c.state = 2 ∨ c.state = 3 → 4 ≤ recent.length → exec (.dramAlert ch crc) s = .next (countDram ch.val 7 (modChan ch.val (fun c => { c with state := 4, alerts := [] }) (countDram ch.val (if crc then 6 else 5) s))))) ∧
  (∀ ch : DramCh, ((dramChan s ch.val).state = 3 → exec (.dramReplayDone ch) s = .next (channelReady ch.val s)) ∧ ((dramChan s ch.val).state ≠ 3 → exec (.dramReplayDone ch) s = .next s)) ∧
  (∀ ch : DramCh, ((dramChan s ch.val).state = 4 → exec (.dramRetrainDone ch true) s = .next (channelReady ch.val s) ∧ exec (.dramRetrainDone ch false) s = .next (loseChannel ch.val s)) ∧
    (∀ ok, (dramChan s ch.val).state ≠ 4 → exec (.dramRetrainDone ch ok) s = .next s)) ∧
  (Completes (exec .dramRefresh s) fun t => t.dram.trefi = (if t.dram.hotMode then 1950 else 3900) ∧ changesOnly [.dram, .counters] s t) ∧
  (∀ (ch : DramCh) temp, (chanServes (dramChan s ch.val) = false → exec (.rdimmTempRead ch temp) s = .next s) ∧
    (chanServes (dramChan s ch.val) = true → Completes (exec (.rdimmTempRead ch temp) s) fun t => (dramChan t ch.val).temp = temp.getD (dramChan s ch.val).temp ∧ (dramChan t ch.val).hot = (match temp with
      | none => true
      | some x => decide (85 < x)) ∧ changesOnly [.dram] s t)) ∧
  (∀ (ch : DramCh) (ok : Bool), ((dramChan s ch.val).candidates = [] ∨ chanServes (dramChan s ch.val) = false → exec (.pprRepair ch ok) s = .next s) ∧
    (∀ row rest, (dramChan s ch.val).candidates = row :: rest → chanServes (dramChan s ch.val) = true →
      let u := repair { kind := 0x0B, state := if ok then 1 else 3, found := foundNow s, bootCount := s.nv.bootCount, unit := ch.val, location := row, serial := (dramChan s ch.val).serial }
        (countDram ch.val 10 (modChan ch.val (fun c => { c with candidates := rest, rows := Tbl.modify c.rows row fun x => { x with state := if ok then 2 else 3 } }) s))
      (Tbl.countIf (dramChan u ch.val).rows (fun _ x => x.state == 3) ≤ 64 → exec (.pprRepair ch ok) s = .next u) ∧
      (64 < Tbl.countIf (dramChan u ch.val).rows (fun _ x => x.state == 3) → exec (.pprRepair ch ok) s = .next (loseChannel ch.val u))))

/-- O51. PARK and the electrical events (R28, R448 to R456, R483, R484, R493, R494): entry and phases of PARK, a round of the sensors, the voltage loop and the regulators. -/
def Obligations.ParkAndElectricalEventsComplete : Prop :=
  ∀ (s : State),
  (∀ d, s.glb.mode = .maintenance → s.glb.parkDue = some d → fuseRuns s = false → exec .parkEntry s = .next (parkActions d.force (startPark d s))) ∧
  (s.glb.mode = .maintenance → s.glb.parkDue = none ∨ fuseRuns s = true → exec .parkEntry s = .next s) ∧
  (s.glb.mode = .park → s.bist.phase = 1 → s.bist.entered = false → exec .parkEntry s = .next (parkActions s.bist.force s)) ∧
  (s.glb.mode = .park → s.bist.phase ≠ 1 ∨ s.bist.entered = true → exec .parkEntry s = .next s) ∧
  (s.glb.mode ≠ .maintenance → s.glb.mode ≠ .park → exec .parkEntry s = .next s) ∧
  (∀ f, s.glb.mode ≠ .park ∨ s.bist.entered = false → exec (.parkPhaseEnd f) s = .next s) ∧
  (∀ f, s.glb.mode = .park → s.bist.entered = true → let on (u : State) : State := modBist (fun b => { b with phase := b.phase + 1 }) u
    (s.bist.phase = 1 ∨ s.bist.phase = 2 → exec (.parkPhaseEnd f) s = .next (on s)) ∧
    (s.bist.phase ∈ [3, 4, 5, 6] → exec (.parkPhaseEnd f) s = .next (on (phaseFinds f (marchEffects s)))) ∧
    (s.bist.phase = 7 → exec (.parkPhaseEnd f) s = .next (on (recordPark s))) ∧
    (s.bist.phase = 8 → s.bist.powerOff = true → exec (.parkPhaseEnd f) s = .next (on (groupOff s))) ∧
    (s.bist.phase = 8 → s.bist.powerOff = false → exec (.parkPhaseEnd f) s = .next (deviceReset .parkDoneWarm s)) ∧
    (s.bist.phase = 9 → exec (.parkPhaseEnd f) s = .next s)) ∧
  (∀ temps, s.glb.powered = false → exec (.thermalSensorSample temps) s = .next s) ∧
  (∀ temps, s.glb.powered = true → let u := modElec (fun e => { e with readings := temps }) s
    let v := modElec (fun e => { e with far := Vector.ofFn fun n : Fin 16 => if excluded u n.val || !strays u n.val then 0 else u.elec.far[n] + 1 }) u
    let w := (List.finRange 16).foldl (fun x n => if 100 ≤ x.elec.far[n] ∧ x.glb.fwRuns then excludeSensor 6 (foundNow x) n.val x else x) v
    (hottest w = none → exec (.thermalSensorSample temps) s = .next w) ∧
    (∀ n, hottest w = some n → exec (.thermalSensorSample temps) s = .next (thermalAers s.elec.tj (checkLimits s.elec.tj n (checkTrip n (checkWarn n (modElec (fun e => { e with tj := reading w n }) w))))))) ∧
  (∀ slow fast, s.glb.powered = false ∨ s.elec.stuck = true ∨ (s.glb.mode = .park ∧ s.bist.phase = 9) → exec (.avsDecision slow fast) s = .next s) ∧
  (s.glb.powered = true → s.elec.stuck = false → s.glb.mode ≠ .park ∨ s.bist.phase ≠ 9 → let z := modElec (fun e => { e with fastRun := 0 }) s
    (∀ slow fast, avsHeld s = true → exec (.avsDecision slow fast) s = .next (setVout 700 z)) ∧
    (avsHeld s = false →
      (∀ fast, s.elec.vout < 700 → exec (.avsDecision true fast) s = .next (countGlb 0 (setVout (min 700 (s.elec.vout + 5)) z))) ∧
      (∀ fast, 700 ≤ s.elec.vout → exec (.avsDecision true fast) s = .next z) ∧
      (exec (.avsDecision false false) s = .next z) ∧
      (s.elec.fastRun + 1 < 100 → exec (.avsDecision false true) s = .next (modElec (fun e => { e with fastRun := e.fastRun + 1 }) s)) ∧
      (100 ≤ s.elec.fastRun + 1 → 620 < s.elec.vout → exec (.avsDecision false true) s = .next (countGlb 1 (setVout (max 620 (s.elec.vout - 5)) z))) ∧
      (100 ≤ s.elec.fastRun + 1 → s.elec.vout ≤ 620 → exec (.avsDecision false true) s = .next z))) ∧
  (s.glb.powered = true → avsHeld s = false → exec .avsEmergency s = .next (countGlb 2 (setVout (min 700 (s.elec.vout + 20)) (modElec (fun e => { e with fastRun := 0 }) s)))) ∧
  (s.glb.powered = false ∨ avsHeld s = true → exec .avsEmergency s = .next s) ∧
  (∀ (reg : Fin 7) r, s.glb.fwRuns = false ∨ s.elec.present[reg] = false ∨ (s.glb.mode = .park ∧ s.bist.phase = 9) → exec (.regulatorPoll reg r) s = .next s) ∧
  (∀ (reg : Fin 7) r, s.glb.fwRuns = true → s.elec.present[reg] = true → s.glb.mode ≠ .park ∨ s.bist.phase ≠ 9 →
    (r.answered = false → reg.val = 0 → s.elec.stuck = false → exec (.regulatorPoll reg r) s = .next (raiseThermal 6 0 s.elec.vout (countGlb 3 (modElec (fun e => { e with stuck := true }) s)))) ∧
    (r.answered = false → reg.val ≠ 0 ∨ s.elec.stuck = true → exec (.regulatorPoll reg r) s = .next s) ∧
    (r.answered = true → r.fault = true → exec (.regulatorPoll reg r) s = .next (emit (.pmbus (0x40 + reg.val) 0x03 0) (countGlb 4 s))) ∧
    (r.answered = true → r.fault = false → exec (.regulatorPoll reg r) s = .next s))

/-- O52. Who may use the monitor (R469, R470, R473): where nobody serves it a line is discarded; where the ROM or a parked device serves it, the other commands end in MODE_WRONG; and a command whose grant the session lacks ends in NOT_PERMITTED, counted, with no effect. -/
def Obligations.MonitorRefusesByServerAndGrant : Prop :=
  ∀ (s : State) (cl : Cluster) (co : CoreIx) (t : ThreadIx) (oc : Option CoreIx) (ot : Option ThreadIx) (a v h : Word) (d w : DWord) (n off : Nat) (data : List Byte) (slot : Fin 2) (r : Option RegNo),
  let observe : List Instr := [.mrd cl co d n, .klbHod h off n, .threads cl co, .regs cl co t]
  let control : List Instr := [.mwr cl co d data, .setreg cl co t r w, .klbHalt cl oc ot, .klbResume cl oc ot, .step cl co t n, .kill cl co t, .bpSet cl co d, .bpClr cl co d, .bpOn, .bpOff]
  let open_ : List Instr := [.authNonce, .authLoad off data, .authCheck, .authEnd]
  let romToo : List Instr := [.help, .ver, .baud n, .imgOffset off, .imgData data, .imgCommit, .imgInstall slot, .imgAbort]
  (klbServer s = .nobody → ∀ c ∈ [.klbLineTooLong, .status, .klbRd a n, .klbWr a v, .keys] ++ observe ++ control ++ open_ ++ romToo, exec c s = .next s) ∧
  (klbServer s = .rom ∨ klbServer s = .parked → ∀ c ∈ [.klbRd a n, .klbWr a v, .keys] ++ observe ++ control ++ open_, exec c s = .next (klbAnswer [] .modeWrong s)) ∧
  (klbServer s = .parked → ∀ c ∈ romToo, exec c s = .next (klbAnswer [] .modeWrong s)) ∧
  (klbServer s = .firmware → granted s .observe = false → ∀ c ∈ observe, exec c s = .next (klbAnswer [] .notPermitted (countDbg 2 s))) ∧
  (klbServer s = .firmware → granted s .control = false → ∀ c ∈ control, exec c s = .next (klbAnswer [] .notPermitted (countDbg 2 s))) ∧
  (klbServer s = .firmware → granted s .secure = false → exec .keys s = .next (klbAnswer [] .notPermitted (countDbg 2 s))) ∧
  (klbServer s = .firmware → klbMayRead s a.toNat = false → exec (.klbRd a n) s = .next (klbAnswer [] .notPermitted (countDbg 2 s))) ∧
  (klbServer s = .firmware → klbMayWrite s a.toNat = false → exec (.klbWr a v) s = .next (klbAnswer [] .notPermitted (countDbg 2 s)))

/-- O53. The monitor's own commands, debug authorisation and images (R468 to R474, R478): every line that is served is answered, with what it changes. -/
def Obligations.MonitorLinesComplete : Prop :=
  ∀ (s : State),
  (klbServer s ≠ .nobody → exec .klbLineTooLong s = .next (klbAnswer [] .badLength (countDbg 3 s)) ∧
    exec .status s = .next (klbAnswer [("STATUS", [glbModeWord s, s.epochs.epoch, b2n s.glb.degradedPending, min s.bist.phase 8, grantOf s, secondsLeft s])] .ok s)) ∧
  (klbServer s = .rom ∨ klbServer s = .firmware → let sent (f : State → State) : State := klbAnswer [("IMG", [recStatus (f (modRec 8 (fun r => { r with chunkDone := false, installDone := false, error := false, code := 0 }) s)) 8])] .ok (f (modRec 8 (fun r => { r with chunkDone := false, installDone := false, error := false, code := 0 }) s))
    exec .help s = .next (klbAnswer ((usable s).map fun x => (x, [])) .ok s) ∧
    exec .ver s = .next (klbAnswer [("VER", [0x8256, 0xA1, s.nv.lifecycle, Config.romVersion, s.sec.sequence, s.sec.version])] .ok s) ∧
    (∀ n, n ∈ [115200, 230400, 460800, 921600, 1500000, 3000000] → exec (.baud n) s = .next (klbAnswer [] .ok (modKlb (fun k => { k with baud := n }) s))) ∧
    (∀ n, n ∉ [115200, 230400, 460800, 921600, 1500000, 3000000] → exec (.baud n) s = .next (klbAnswer [] .badParam s)) ∧
    (∀ n, exec (.imgOffset n) s = .next (sent (modRec 8 fun r => { r with offset := n }))) ∧
    (∀ data, data.length ≤ 1024 → exec (.imgData data) s = .next (sent (modRec 8 fun r => { r with window := Mem.writeBytes [] 0 0 data, len := data.length }))) ∧
    (∀ data, 1024 < data.length → exec (.imgData data) s = .next (klbAnswer [] .badParam s)) ∧
    exec .imgCommit s = .next (sent (recCommit 8)) ∧ (∀ slot, exec (.imgInstall slot) s = .next (sent (recInstall 8 slot.val))) ∧ exec .imgAbort s = .next (sent (recAbort 8))) ∧
  (klbServer s = .firmware → let n := (Config.freeBytes s.drawn 32 ++ List.replicate 32 0).take 32
    let spent (u : State) : State := modKlb (fun k => { k with nonce := none }) u
    exec .authNonce s = .next (klbAnswer [("NONCE", n.map (·.toNat))] .ok (modKlb (fun k => { k with nonce := some (n, nowNs s) }) (drawn1 s))) ∧
    (∀ off data, off % 8 = 0 → data.length ≤ 1024 → off + data.length ≤ 8448 → exec (.authLoad off data) s = .next (klbAnswer [] .ok (modKlb (fun k => { k with record := Mem.writeBytes k.record 0 off data }) s))) ∧
    (∀ off data, off % 8 ≠ 0 ∨ 1024 < data.length ∨ 8448 < off + data.length → exec (.authLoad off data) s = .next (klbAnswer [] .badParam s)) ∧
    (authGood s (authRecord s) = true → exec .authCheck s = .next (klbAnswer [("GRANT", [recGrant (authRecord s)]), ("SECONDS", [recDuration (authRecord s)])] .ok (countDbg 0 (spent (startSession (authRecord s) s))))) ∧
    (authGood s (authRecord s) = false → exec .authCheck s = .next (klbAnswer [] .keyRefused (countDbg 1 (spent s)))) ∧
    exec .authEnd s = .next (klbAnswer [] .ok (endSession s))) ∧
  (exec .sessionExpiry s = .next (endSession s))

/-- O54. The monitor's debug commands under a grant (R204, R205, R470, R473 to R477): registers, memories, hods, threads, breakpoints and keys; a hod that nobody holds is the undefined case of R205, an unaligned register address that of R7. -/
def Obligations.MonitorDebugCommandsComplete : Prop :=
  ∀ (s : State), klbServer s = .firmware →
  (∀ (a : Word) (n : Nat), klbMayRead s a.toNat = true → (readAddrs a.toNat n).all (klbMayRead s) = true →
    (a.toNat % 4 ≠ 0 → exec (.klbRd a n) s = .refused (.undefinedCase 7)) ∧
    (a.toNat % 4 = 0 → 1 ≤ n → n ≤ 64 → a.toNat + 4 * n ≤ 2 ^ 32 → exec (.klbRd a n) s = .next (klbAnswer [("RD", (readWords n a.toNat s).1)] .ok (readWords n a.toNat s).2)) ∧
    (a.toNat % 4 = 0 → n = 0 ∨ 64 < n ∨ 2 ^ 32 < a.toNat + 4 * n → exec (.klbRd a n) s = .next (klbAnswer [] .badParam s))) ∧
  (∀ (a v : Word) t, klbMayWrite s a.toNat = true → exec (.registerWrite a v) s = .next t → exec (.klbWr a v) s = .next (klbAnswer [] .ok t)) ∧
  (granted s .observe = true → ∀ (cl : Cluster) (co : CoreIx) (d : DWord) (n : Nat), let ck := coreNo cl co
    (1 ≤ n → n ≤ 1024 → freeHodAt s ck d.toNat n = true → exec (.mrd cl co d n) s = .refused (.undefinedCase 205)) ∧
    (∀ r, 1 ≤ n → n ≤ 1024 → regionOf s ck d.toNat n = some r → (∀ h off, r ≠ .hod h off) → poisonedAt s ck r n = false → exec (.mrd cl co d n) s = .next (klbAnswer [("DATA", (readAt s ck r n).map (·.toNat))] .ok s)) ∧
    (∀ h off, 1 ≤ n → n ≤ 1024 → regionOf s ck d.toNat n = some (.hod h off) → hodCheck s h off n 1 = none → hodHeld s h = true → poisonedAt s ck (.hod h off) n = false →
      exec (.mrd cl co d n) s = .next (klbAnswer [("DATA", (readAt s ck (.hod h off) n).map (·.toNat))] .ok s)) ∧
    (n = 0 ∨ 1024 < n ∨ regionOf s ck d.toNat n = none → exec (.mrd cl co d n) s = .next (klbAnswer [] .badParam s)) ∧
    exec (.threads cl co) s = .next (klbAnswer (threadLines ck s) .ok s) ∧
    (∀ (t : ThreadIx) th, thread s ck t.val = some th → th.st = .halted ∨ th.st = .trapped → exec (.regs cl co t) s = .next (klbAnswer [("REGS", (upFrom 1 31).map (fun r => (th.x r).toNat) ++ [th.pc, th.eventWord])] .ok s)) ∧
    (∀ t : ThreadIx, stopped s ck t.val = false → exec (.regs cl co t) s = .next (klbAnswer [] .badParam s)) ∧
    (∀ (h : Word) (off : Nat), 1 ≤ n → n ≤ 1024 → hodCheck s h.toNat off n 1 = none →
      (hodHeld s h.toNat = false → exec (.klbHod h off n) s = .refused (.undefinedCase 205)) ∧
      (hodHeld s h.toNat = true → poisonedAt s 0 (.hod h.toNat off) n = false → exec (.klbHod h off n) s = .next (klbAnswer [("DATA", (readAt s 0 (.hod h.toNat off) n).map (·.toNat))] .ok s))) ∧
    (∀ (h : Word) (off : Nat) al, 1 ≤ n → n ≤ 1024 → hodCheck s h.toNat off n 1 = some al → exec (.klbHod h off n) s = .next (klbAnswer [] .badParam (klbViolation al h.toNat off n s)))) ∧
  (granted s .control = true → ∀ (cl : Cluster) (co : CoreIx), let ck := coreNo cl co
    (∀ (d : DWord) (data : List Byte), data ≠ [] → freeHodAt s ck d.toNat data.length = true → exec (.mwr cl co d data) s = .refused (.undefinedCase 205)) ∧
    (∀ (d : DWord) (data : List Byte) r, data ≠ [] → regionOf s ck d.toNat data.length = some r → (∀ h off, r ≠ .hod h off) → exec (.mwr cl co d data) s = .next (klbAnswer [] .ok (writeAt ck r data s))) ∧
    (∀ (d : DWord) (data : List Byte) h off, data ≠ [] → regionOf s ck d.toNat data.length = some (.hod h off) → hodCheck s h off data.length 1 = none → hodHeld s h = true → exec (.mwr cl co d data) s = .next (klbAnswer [] .ok (writeAt ck (.hod h off) data s))) ∧
    (∀ (d : DWord) (data : List Byte), data = [] ∨ regionOf s ck d.toNat data.length = none → exec (.mwr cl co d data) s = .next (klbAnswer [] .badParam s)) ∧
    (∀ (t : ThreadIx) (w : DWord), stopped s ck t.val = true → exec (.setreg cl co t none w) s = .next (klbAnswer [] .ok (modThread ck t.val (fun th => { th with pc := w.toNat, atBp := false }) s)) ∧
      (∀ r : RegNo, r.val ≠ 0 → exec (.setreg cl co t (some r) w) s = .next (klbAnswer [] .ok (modThread ck t.val (fun th => th.setX r.val w.toNat) s))) ∧
      exec (.setreg cl co t (some 0) w) s = .next (klbAnswer [] .badParam s)) ∧
    (∀ (t : ThreadIx) r w, stopped s ck t.val = false → exec (.setreg cl co t r w) s = .next (klbAnswer [] .badParam s)) ∧
    (∀ (oc : Option CoreIx) (ot : Option ThreadIx), let l := targetThreads cl oc ot
      let said (u : State) : State := klbAnswer (l.map fun p => ("THREAD", [p.1 / 16, p.1 % 16, p.2, threadCode u p.1 p.2])) .ok u
      exec (.klbHalt cl oc ot) s = .next (said (l.foldl (fun s p => haltThread p.1 p.2 s) s)) ∧ exec (.klbResume cl oc ot) s = .next (said (l.foldl (fun s p => resumeThread p.1 p.2 s) s))) ∧
    (∀ (t : ThreadIx) (n : Nat) th u, 1 ≤ n → n ≤ 65536 → thread s ck t.val = some th → th.st = .halted → stepThread ck t.val n s = some u → exec (.step cl co t n) s = .next (klbAnswer [("STEP", [threadCode u ck t.val, pcOf u ck t.val])] .ok u)) ∧
    (∀ (t : ThreadIx) (n : Nat) th, 1 ≤ n → n ≤ 65536 → thread s ck t.val = some th → th.st = .halted → stepThread ck t.val n s = none → exec (.step cl co t n) s = .refused (.undefinedCase 205)) ∧
    (∀ (t : ThreadIx) (n : Nat), n = 0 ∨ 65536 < n ∨ (∀ th, thread s ck t.val = some th → th.st ≠ .halted) → exec (.step cl co t n) s = .next (klbAnswer [] .badParam s)) ∧
    (∀ t : ThreadIx, exec (.kill cl co t) s = .next (klbAnswer [] .ok (exitThread ck t.val (2 ^ 64 - 1) s))) ∧
    (∀ d : DWord, let i := instrAt s ck d.toNat
      (d.toNat % 2 ≠ 0 ∨ 0x10000 < d.toNat + instrLen i → exec (.bpSet cl co d) s = .next (klbAnswer [] .badParam s)) ∧
      (d.toNat % 2 = 0 → d.toNat + instrLen i ≤ 0x10000 →
        (Tbl.has (coreOf s ck).bps d.toNat = true → exec (.bpSet cl co d) s = .next (klbAnswer [] .ok s)) ∧
        (Tbl.has (coreOf s ck).bps d.toNat = false → 64 ≤ (coreOf s ck).bps.length → exec (.bpSet cl co d) s = .next (klbAnswer [] .noResource s)) ∧
        (Tbl.has (coreOf s ck).bps d.toNat = false → (coreOf s ck).bps.length < 64 → exec (.bpSet cl co d) s = .next (klbAnswer [] .ok
          (writeAt ck (.instr d.toNat) (leBytes (instrLen i) (if isShort i then 0x9002 else 0x00100073)) (modCore ck (fun c => { c with bps := Tbl.put c.bps d.toNat i }) s)))))) ∧
    (∀ (d : DWord) i, Tbl.find (coreOf s ck).bps d.toNat = some i → exec (.bpClr cl co d) s = .next (klbAnswer [] .ok (modCore ck (fun c => { c with bps := Tbl.del c.bps d.toNat }) (restoreBp ck (d.toNat, i) s)))) ∧
    (∀ d : DWord, Tbl.find (coreOf s ck).bps d.toNat = none → exec (.bpClr cl co d) s = .next (klbAnswer [] .entryAbsent s)) ∧
    exec .bpOn s = .next (klbAnswer [] .ok (modCores (fun c => { c with bpOn := true }) s)) ∧ exec .bpOff s = .next (klbAnswer [] .ok (modCores (fun c => { c with bpOn := false }) s))) ∧
  (granted s .secure = true → exec .keys s = .next (klbAnswer (keyLines s) .ok s))

/-- O55. The encodings of the Xbtx instructions (R377): every instruction whose operands fit its fields is one 32-bit word that decodes to it, the words of R377 are as its table gives them, a word of either major opcode decodes to an Xbtx instruction with that very word or to none, and one that decodes to none traps with cause ILLEGAL where a thread fetches it. -/
def Obligations.XbtxEncodingsRoundTrip : Prop :=
  (∀ i : Xb, xbFits i = true → xbWord i < 2 ^ 32 ∧ isShort (xbWord i) = false ∧ rvDecode (xbWord i) = some (.xb i)) ∧
  (∀ w i, w < 2 ^ 32 → rvDecode w = some (.xb i) → xbFits i = true ∧ xbWord i = w) ∧
  (∀ w r, bitsAt w 0 7 = 0b0001011 ∨ bitsAt w 0 7 = 0b0101011 → rvDecode w = some r → ∃ i, r = .xb i) ∧
  (∀ rd rs1 rs2 : Nat, rd < 32 → rs1 < 32 → rs2 < 32 → let fields (w : Nat) : List Nat := [bitsAt w 25 7, bitsAt w 20 5, bitsAt w 15 5, bitsAt w 12 3, bitsAt w 7 5, bitsAt w 0 7]
    fields (xbWord (.tfork false rd rs1 rs2)) = [0, rs2, rs1, 0, rd, 0b0001011] ∧ fields (xbWord (.tfork true rd rs1 rs2)) = [1, rs2, rs1, 0, rd, 0b0001011] ∧ fields (xbWord (.tjoin rd rs1)) = [0, 0, rs1, 1, rd, 0b0001011] ∧
    fields (xbWord (.texit rs1)) = [0, 0, rs1, 2, 0, 0b0001011] ∧ fields (xbWord (.tsignal rd rs1 rs2)) = [0, rs2, rs1, 3, rd, 0b0001011] ∧ fields (xbWord (.twait rd rs1)) = [0, 0, rs1, 4, rd, 0b0001011] ∧
    fields (xbWord (.ttimer rs1)) = [0, 0, rs1, 5, 0, 0b0001011] ∧ fields (xbWord .tyield) = [0, 0, 0, 6, 0, 0b0001011]) ∧
  xbWord (.twait 10 11) = 0x0005C50B ∧
  (∀ w, bitsAt w 0 7 = 0b0001011 → bitsAt w 12 3 = 0b111 → rvDecode w = none) ∧
  (∀ (s : State) (cl : Cluster) (co : CoreIx) t th w, nextThread s (coreNo cl co) = some t → isLost s 0x03 (coreNo cl co) = false → thread s (coreNo cl co) t = some th → fetch s (coreNo cl co) th = .ok w → bitsAt w 0 7 = 0b0001011 → rvDecode w = none →
    exec (.coreInstruction cl co) s = .next (trap (coreNo cl co) t 1 w (issued (coreNo cl co) t s)))

/-- O56. The hash of R190, which steering and spreading both use: bit k of the result is the parity of the input bits that are 1 where key bit i + k is 1, the result has 32 bits, and the function is linear, so that where flows A and B collide, flow C collides with C xor A xor B. -/
def Obligations.ToeplitzIsTheLinearHashOfItsBits : Prop :=
  (∀ key input : List Byte, 8 * input.length + 31 ≤ 8 * key.length →
    let n := 8 * input.length
    let h := toeplitz (beNat key) (8 * key.length) (beNat input) n
    h < 2 ^ 32 ∧ ∀ k, k < 32 → bitAt h (31 - k) = decide (((List.range n).filter fun i => bitOfBytes input i && bitOfBytes key (i + k)).length % 2 = 1)) ∧
  (∀ key kbits a b n : Nat, toeplitz key kbits (a ^^^ b) n = toeplitz key kbits a n ^^^ toeplitz key kbits b n) ∧
  (∀ key kbits a b c n : Nat, toeplitz key kbits a n = toeplitz key kbits b n → toeplitz key kbits (c ^^^ a ^^^ b) n = toeplitz key kbits c n) ∧
  (∀ (s : State) (g : Group) (frame : List Byte), steerHash s g frame = toeplitz (steerKey s g) 352 (beNat (steerInput s g frame)) (8 * (steerInput s g frame).length)) ∧
  (∀ (u : SpreadUnit) (t : IndTable) (v : FieldVec), spreadHash u t v = toeplitz (beNat u.key) 416 (spreadInput (Tbl.getD u.sels t.sel []) v) (32 * (Tbl.getD u.sels t.sel []).length))

/-- O57. The hawk instructions of a thread that may issue (R366, R376, R378): the old value goes to rd, the register takes the new one where one is written, wrapping modulo 2^64, after the thread's earlier stores; no other hawk register, no other thread and no other core changes, and where nothing is written no memory either. -/
def Obligations.HawkInstructionsChangeOneRegister : Prop :=
  ∀ (s : State) (cl : Cluster) (co : CoreIx) (t : ThreadIx) th, thread s (coreNo cl co) t.val = some th → mayIssue s (coreNo cl co) t.val = true →
    ∀ (rd : RegNo) (h : Fin 64) (rs1 rs2 : RegNo), let ck := coreNo cl co
    let old := hawk s ck h.val
    let z := drainAll ck t.val (issued ck t.val s)
    let reads (o : Host.Outcome State Fault Refusal) : Prop := Completes o fun v =>
      thread v ck t.val = some (movedOn rd.val old th) ∧ (∀ j, hawk v ck j = hawk s ck j) ∧ (∀ n, n ≠ t.val → thread v ck n = thread s ck n) ∧ (∀ k, k ≠ ck → coreOf v k = coreOf s k) ∧ v.cores.mems = s.cores.mems ∧ changesOnly [.cores, .counters] s v
    let writes (r new : Nat) (o : Host.Outcome State Fault Refusal) : Prop := Completes o fun v =>
      thread v ck t.val = (thread z ck t.val).map (movedOn r old) ∧ hawk v ck h.val = new % 2 ^ 64 ∧ (∀ j, j % 64 ≠ h.val → hawk v ck j = hawk z ck j) ∧ (∀ n, n ≠ t.val → thread v ck n = thread z ck n) ∧ (∀ k, k ≠ ck → coreOf v k = coreOf z k) ∧
      v.cores.mems = z.cores.mems ∧ changesOnly [.cores, .counters] z v
    reads (exec (.hrd cl co t rd h) s) ∧ writes 0 (th.x rs2.val).toNat (exec (.hwr cl co t h rs2) s) ∧ writes rd.val (th.x rs2.val).toNat (exec (.hswap cl co t rd h rs2) s) ∧ writes rd.val (old + (th.x rs2.val).toNat) (exec (.hadd cl co t rd h rs2) s) ∧
    (old = (th.x rs1.val).toNat → writes rd.val (th.x rs2.val).toNat (exec (.hcas cl co t rd h rs1 rs2) s)) ∧ (old ≠ (th.x rs1.val).toNat → reads (exec (.hcas cl co t rd h rs1 rs2) s))

/-- O58. Owner events and mode transitions (R33, R81 to R83): an event is not generated while firmware does not run, nor counted where a mask that may suppress it is set; else SEQ counts it and it is held behind the others up to 1,024, or lost and counted. A mode transition shows its mode, cause and the mode left, counts, and raises one MODE_CHANGE, which the hosts get only into or out of QUIESCE and MAINTENANCE. -/
def Obligations.OwnerEventsAndModeTransitionsAreReported : Prop :=
  (∀ (type source tag : Nat) (payload : List Nat) (s : State), let masked := type ≠ 1 ∧ type ≠ 2 ∧ bitAt s.owner.mask type = true
    (s.glb.fwRuns = false ∨ masked → raiseOwner type source tag payload s = s) ∧
    (s.glb.fwRuns = true → ¬ masked → changesOnly [.owner] s (raiseOwner type source tag payload s) ∧ (raiseOwner type source tag payload s).owner.seq = s.owner.seq + 1 ∧
      (s.owner.held.length < 1024 → (raiseOwner type source tag payload s).owner.held = s.owner.held ++ [{ type := type, phase := false, mode := s.glb.mode.code, seq := s.owner.seq % 2 ^ 32, epoch := s.epochs.epoch, dtime := dtimeNs s, source := source, tag := tag, payload := payload }]) ∧
      (1024 ≤ s.owner.held.length → (raiseOwner type source tag payload s).owner.held = s.owner.held ∧ (raiseOwner type source tag payload s).owner.unreported = s.owner.unreported + 1))) ∧
  (∀ (m : Mode) (c : Cause) (s : State), let t := enterMode m c s
    modeOf t.glb = (m, some s.glb.mode, c, s.glb.modeSeq + 1) ∧ changesOnly ([.mode, .glb] ++ replyParts) s t ∧
    (s.glb.fwRuns = true → bitAt s.owner.mask 0x10 = false → s.owner.held.length < 1024 → ∃ e, t.owner.held = s.owner.held ++ [e] ∧ e.type = 0x10 ∧ e.payload = [s.glb.mode.code + m.code * 256 + c.code * 65536, (s.glb.modeSeq + 1).toNat] ∧ e.epoch = s.epochs.epoch ∧ e.mode = m.code) ∧
    (m ≠ .quiesce → m ≠ .maintenance → s.glb.mode ≠ .quiesce → s.glb.mode ≠ .maintenance → t.out = s.out ∧ t.rings = s.rings))

/-- O59. R141: the first valid transition, from 0 up, whose value equals the selector under its mask gives the action; where there is none, DEF_ACT does, and DEF_ACT NONE gives none, so that the walk ends there malformed. -/
def Obligations.FirstEqualTransitionGivesTheAction : Prop :=
  ∀ (n : List Nat) (pkt : List Byte) (cursor : Nat),
    let sel := fieldAt pkt (8 * cursor + nodeBits n 2 16 11) (nodeBits n 2 27 5 + 1)
    let equal (k : Nat) : Prop := k < 16 ∧ transValid n k = true ∧ (sel &&& nodeWord n (16 + 3 * k + 1)) = (nodeWord n (16 + 3 * k) &&& nodeWord n (16 + 3 * k + 1))
    (∀ k, equal k → (∀ j, j < k → ¬ equal j) →
      selectAction n pkt cursor = (nodeBits n (16 + 3 * k + 2) 30 2, nodeBits n (16 + 3 * k + 2) 0 8)) ∧
    ((∀ k, ¬ equal k) → selectAction n pkt cursor = (nodeBits n 5 30 2, nodeBits n 5 0 8)) ∧
    (∀ (base : Nat) (second express : Bool), (selectAction n pkt cursor).1 = 0 → nodeCause n pkt base cursor second express ∈ [1, 3, 4, 5]) ∧
    (∀ (nodes : Tbl (List Nat)) (dir base fuel node : Nat) (second : Bool) (v : FieldVec), Tbl.getD nodes (dir * 256 + node) [] = n → badNode n = false → nodeBits n 0 31 1 = 1 →
      let v1 := { v with nodes := v.nodes + 1 }
      let cause := nodeCause n pkt base cursor second v.express
      let v2 := applyNode n pkt cursor second v1
      let next := cursor + advance n pkt cursor
      (cause ≠ 0 → walk nodes dir pkt base second (fuel + 1) node cursor v = failAt cause node cursor v1) ∧
      (∀ to_, cause = 0 → selectAction n pkt cursor = (1, to_) → walk nodes dir pkt base second (fuel + 1) node cursor v = walk nodes dir pkt base second fuel to_ next v2) ∧
      (∀ to_, cause = 0 → selectAction n pkt cursor = (2, to_) → walk nodes dir pkt base second (fuel + 1) node cursor v = .accept { v2 with payloadOffset := next }) ∧
      (∀ to_, cause = 0 → selectAction n pkt cursor = (3, to_) → walk nodes dir pkt base second (fuel + 1) node cursor v = .recirculate { v2 with payloadOffset := next } to_ next))
end

