-- ==== Sys2Proof/Laws/Choice.lean ====
section
/-! SUPPORT. Choice.lean: what a free choice among numbers finds: a number the test accepts, whenever there is one. -/

namespace Sys2Proof.Machine
open Sys2Proof

theorem length_upFrom (a n : Nat) : (upFrom a n).length = n := by
  induction n generalizing a with
  | zero => rfl
  | succ k ih => simp only [upFrom, List.length_cons, ih]

theorem mem_upFrom (a n i : Nat) : i ∈ upFrom a n ↔ a ≤ i ∧ i < a + n := by
  induction n generalizing a with
  | zero => simp only [upFrom, List.not_mem_nil, false_iff]; omega
  | succ k ih => simp only [upFrom, List.mem_cons, ih]; omega

theorem firstFree_some {p : Nat → Bool} {a n i : Nat} (h : firstFree p a n = some i) : p i = true ∧ a ≤ i ∧ i < a + n := by
  induction n generalizing a with
  | zero => cases h
  | succ k ih =>
    simp only [firstFree] at h
    split at h
    · cases h; exact ⟨‹_›, by omega, by omega⟩
    · obtain ⟨h1, h2, h3⟩ := ih h; exact ⟨h1, by omega, by omega⟩

theorem firstFree_none {p : Nat → Bool} {a n : Nat} (h : firstFree p a n = none) (i : Nat) (h1 : a ≤ i) (h2 : i < a + n) : p i = false := by
  induction n generalizing a with
  | zero => omega
  | succ k ih =>
    simp only [firstFree] at h
    split at h
    · cases h
    · rename_i hp
      rcases Nat.lt_or_ge a i with h3 | h3
      · exact ih h h3 (by omega)
      · have : i = a := by omega
        subst this; simpa using hp

/-- A choice is a number below the bound that the test accepts. -/
theorem pickFrom_some {start n i : Nat} {p : Nat → Bool} (h : pickFrom start n p = some i) : p i = true ∧ (0 < n → i < n) := by
  unfold pickFrom at h
  split at h
  · rename_i j hj
    cases h
    obtain ⟨h1, h2, h3⟩ := firstFree_some hj
    refine ⟨h1, fun hn => ?_⟩
    have := Nat.mod_lt start hn
    omega
  · obtain ⟨h1, _, h3⟩ := firstFree_some h
    refine ⟨h1, fun hn => ?_⟩
    have := Nat.mod_lt start hn
    omega

/-- Where a number below the bound is accepted, a choice is found from every start. -/
theorem pickFrom_isSome {start n i : Nat} {p : Nat → Bool} (hi : i < n) (hp : p i = true) : (pickFrom start n p).isSome = true := by
  unfold pickFrom
  split
  · rfl
  · rename_i h1
    cases h2 : firstFree p 0 (start % n) with
    | some j => rfl
    | none =>
      have a := firstFree_none h1 i
      have b := firstFree_none h2 i
      have := Nat.mod_lt start (Nat.lt_of_le_of_lt (Nat.zero_le i) hi)
      rcases Nat.lt_or_ge i (start % n) with h3 | h3
      · rw [b (by omega) (by omega)] at hp; cases hp
      · rw [a h3 (by omega)] at hp; cases hp

end Sys2Proof.Machine
end

