-- ==== Sys2Proof/Laws/Only.lean ====
section
/-! SUPPORT. Only.lean: an update of a field listed in `L` keeps `changesOnly L`, one lemma for each field of State and for each group of fields that one definition updates. -/

set_option linter.all false

namespace Sys2Proof.Machine
open Sys2Proof

theorem Part.same_refl (p : Part) (s : State) : p.same s s := by cases p <;> rfl
theorem changesOnly_refl (L : List Part) (s : State) : changesOnly L s s := fun p _ => Part.same_refl p s
theorem changesOnly_congr {L : List Part} {s x y : State} (h : ∀ p, p ∉ L → (p.same s y ↔ p.same s x)) : changesOnly L s y ↔ changesOnly L s x :=
  forall_congr' fun p => ⟨fun k hp => (h p hp).mp (k hp), fun k hp => (h p hp).mpr (k hp)⟩
theorem only_pending {L : List Part} {s : State} (x : State) {v0} (h0 : Part.pending ∈ L) : changesOnly L s { x with pending := v0 } ↔ changesOnly L s x :=
  changesOnly_congr fun p hp => by cases p <;> first | exact Iff.rfl | (exfalso; exact hp (by assumption))
theorem only_fenced {L : List Part} {s : State} (x : State) {v0} (h0 : Part.fenced ∈ L) : changesOnly L s { x with fenced := v0 } ↔ changesOnly L s x :=
  changesOnly_congr fun p hp => by cases p <;> first | exact Iff.rfl | (exfalso; exact hp (by assumption))
theorem only_out {L : List Part} {s : State} (x : State) {v0} (h0 : Part.out ∈ L) : changesOnly L s { x with out := v0 } ↔ changesOnly L s x :=
  changesOnly_congr fun p hp => by cases p <;> first | exact Iff.rfl | (exfalso; exact hp (by assumption))
theorem only_drawn {L : List Part} {s : State} (x : State) {v0} (h0 : Part.drawn ∈ L) : changesOnly L s { x with drawn := v0 } ↔ changesOnly L s x :=
  changesOnly_congr fun p hp => by cases p <;> first | exact Iff.rfl | (exfalso; exact hp (by assumption))
theorem only_now {L : List Part} {s : State} (x : State) {v0} (h0 : Part.now ∈ L) : changesOnly L s { x with now := v0 } ↔ changesOnly L s x :=
  changesOnly_congr fun p hp => by cases p <;> first | exact Iff.rfl | (exfalso; exact hp (by assumption))
theorem only_dtime {L : List Part} {s : State} (x : State) {v0} (h0 : Part.dtime ∈ L) : changesOnly L s { x with dtime := v0 } ↔ changesOnly L s x :=
  changesOnly_congr fun p hp => by cases p <;> first | exact Iff.rfl | (exfalso; exact hp (by assumption))
/-- Two protected stores hold the same fuses. -/
def SameFuses (v w : Nv) : Prop := fusesOf v = fusesOf w
theorem sameFuses_iff (v w : Nv) : SameFuses v w ↔ v.provisioned = w.provisioned ∧ v.revoked = w.revoked ∧ v.minVersion = w.minVersion := by simp only [SameFuses, fusesOf, Prod.mk.injEq]
theorem only_nv {L : List Part} {s : State} (x : State) {v0} (h0 : Part.nv ∈ L) (hf : SameFuses v0 x.nv) : changesOnly L s { x with nv := v0 } ↔ changesOnly L s x :=
  changesOnly_congr fun p hp => by cases p <;> first | exact Iff.rfl | (exfalso; exact hp (by assumption)) | (have e : fusesOf v0 = fusesOf x.nv := hf; simp only [Part.same, e])
theorem only_nv_fuses {L : List Part} {s : State} (x : State) {v0} (h0 : Part.nv ∈ L) (h1 : Part.fuses ∈ L) : changesOnly L s { x with nv := v0 } ↔ changesOnly L s x :=
  changesOnly_congr fun p hp => by cases p <;> first | exact Iff.rfl | (exfalso; exact hp (by assumption))
theorem only_clk {L : List Part} {s : State} (x : State) {v0} (h0 : Part.clk ∈ L) : changesOnly L s { x with clk := v0 } ↔ changesOnly L s x :=
  changesOnly_congr fun p hp => by cases p <;> first | exact Iff.rfl | (exfalso; exact hp (by assumption))
/-- Two GLB blocks show the same mode, previous mode, cause and sequence number. -/
def SameMode (v w : Glb) : Prop := modeOf v = modeOf w
theorem sameMode_iff (v w : Glb) : SameMode v w ↔ v.mode = w.mode ∧ v.prev = w.prev ∧ v.cause = w.cause ∧ v.modeSeq = w.modeSeq := by simp only [SameMode, modeOf, Prod.mk.injEq]
theorem only_glb_mode {L : List Part} {s : State} (x : State) {v0} (h0 : Part.glb ∈ L) (h1 : Part.mode ∈ L) : changesOnly L s { x with glb := v0 } ↔ changesOnly L s x :=
  changesOnly_congr fun p hp => by cases p <;> first | exact Iff.rfl | (exfalso; exact hp (by assumption))
theorem only_glb {L : List Part} {s : State} (x : State) {v0} (h0 : Part.glb ∈ L) (hf : SameMode v0 x.glb) : changesOnly L s { x with glb := v0 } ↔ changesOnly L s x :=
  changesOnly_congr fun p hp => by cases p <;> first | exact Iff.rfl | (exfalso; exact hp (by assumption)) | (have e : modeOf v0 = modeOf x.glb := hf; simp only [Part.same, e])
theorem only_epochs_epoch {L : List Part} {s : State} (x : State) {v0} (h0 : Part.epochs ∈ L) (h1 : Part.epoch ∈ L) : changesOnly L s { x with epochs := v0 } ↔ changesOnly L s x :=
  changesOnly_congr fun p hp => by cases p <;> first | exact Iff.rfl | (exfalso; exact hp (by assumption))
theorem only_epochs {L : List Part} {s : State} (x : State) {v0} (h0 : Part.epochs ∈ L) (hf : v0.epoch = x.epochs.epoch) : changesOnly L s { x with epochs := v0 } ↔ changesOnly L s x :=
  changesOnly_congr fun p hp => by cases p <;> first | exact Iff.rfl | (exfalso; exact hp (by assumption)) | simp only [Part.same, hf]
theorem only_owner {L : List Part} {s : State} (x : State) {v0} (h0 : Part.owner ∈ L) : changesOnly L s { x with owner := v0 } ↔ changesOnly L s x :=
  changesOnly_congr fun p hp => by cases p <;> first | exact Iff.rfl | (exfalso; exact hp (by assumption))
theorem only_rings {L : List Part} {s : State} (x : State) {v0} (h0 : Part.rings ∈ L) : changesOnly L s { x with rings := v0 } ↔ changesOnly L s x :=
  changesOnly_congr fun p hp => by cases p <;> first | exact Iff.rfl | (exfalso; exact hp (by assumption))
theorem only_ops {L : List Part} {s : State} (x : State) {v0} (h0 : Part.ops ∈ L) : changesOnly L s { x with ops := v0 } ↔ changesOnly L s x :=
  changesOnly_congr fun p hp => by cases p <;> first | exact Iff.rfl | (exfalso; exact hp (by assumption))
theorem only_hosts {L : List Part} {s : State} (x : State) {v0} (h0 : Part.hosts ∈ L) : changesOnly L s { x with hosts := v0 } ↔ changesOnly L s x :=
  changesOnly_congr fun p hp => by cases p <;> first | exact Iff.rfl | (exfalso; exact hp (by assumption))
theorem only_fns {L : List Part} {s : State} (x : State) {v0} (h0 : Part.fns ∈ L) : changesOnly L s { x with fns := v0 } ↔ changesOnly L s x :=
  changesOnly_congr fun p hp => by cases p <;> first | exact Iff.rfl | (exfalso; exact hp (by assumption))
theorem only_queues {L : List Part} {s : State} (x : State) {v0} (h0 : Part.queues ∈ L) : changesOnly L s { x with queues := v0 } ↔ changesOnly L s x :=
  changesOnly_congr fun p hp => by cases p <;> first | exact Iff.rfl | (exfalso; exact hp (by assumption))
theorem only_eth {L : List Part} {s : State} (x : State) {v0} (h0 : Part.eth ∈ L) : changesOnly L s { x with eth := v0 } ↔ changesOnly L s x :=
  changesOnly_congr fun p hp => by cases p <;> first | exact Iff.rfl | (exfalso; exact hp (by assumption))
theorem only_parse {L : List Part} {s : State} (x : State) {v0} (h0 : Part.parse ∈ L) : changesOnly L s { x with parse := v0 } ↔ changesOnly L s x :=
  changesOnly_congr fun p hp => by cases p <;> first | exact Iff.rfl | (exfalso; exact hp (by assumption))
theorem only_cls {L : List Part} {s : State} (x : State) {v0} (h0 : Part.cls ∈ L) : changesOnly L s { x with cls := v0 } ↔ changesOnly L s x :=
  changesOnly_congr fun p hp => by cases p <;> first | exact Iff.rfl | (exfalso; exact hp (by assumption))
theorem only_tables {L : List Part} {s : State} (x : State) {v0} (h0 : Part.tables ∈ L) : changesOnly L s { x with tables := v0 } ↔ changesOnly L s x :=
  changesOnly_congr fun p hp => by cases p <;> first | exact Iff.rfl | (exfalso; exact hp (by assumption))
theorem only_hod {L : List Part} {s : State} (x : State) {v0} (h0 : Part.hod ∈ L) : changesOnly L s { x with hod := v0 } ↔ changesOnly L s x :=
  changesOnly_congr fun p hp => by cases p <;> first | exact Iff.rfl | (exfalso; exact hp (by assumption))
theorem only_sched {L : List Part} {s : State} (x : State) {v0} (h0 : Part.sched ∈ L) : changesOnly L s { x with sched := v0 } ↔ changesOnly L s x :=
  changesOnly_congr fun p hp => by cases p <;> first | exact Iff.rfl | (exfalso; exact hp (by assumption))
theorem only_net {L : List Part} {s : State} (x : State) {v0} (h0 : Part.net ∈ L) : changesOnly L s { x with net := v0 } ↔ changesOnly L s x :=
  changesOnly_congr fun p hp => by cases p <;> first | exact Iff.rfl | (exfalso; exact hp (by assumption))
theorem only_ctx {L : List Part} {s : State} (x : State) {v0} (h0 : Part.ctx ∈ L) : changesOnly L s { x with ctx := v0 } ↔ changesOnly L s x :=
  changesOnly_congr fun p hp => by cases p <;> first | exact Iff.rfl | (exfalso; exact hp (by assumption))
theorem only_nvme {L : List Part} {s : State} (x : State) {v0} (h0 : Part.nvme ∈ L) : changesOnly L s { x with nvme := v0 } ↔ changesOnly L s x :=
  changesOnly_congr fun p hp => by cases p <;> first | exact Iff.rfl | (exfalso; exact hp (by assumption))
theorem only_crypt {L : List Part} {s : State} (x : State) {v0} (h0 : Part.crypt ∈ L) : changesOnly L s { x with crypt := v0 } ↔ changesOnly L s x :=
  changesOnly_congr fun p hp => by cases p <;> first | exact Iff.rfl | (exfalso; exact hp (by assumption))
theorem only_cores {L : List Part} {s : State} (x : State) {v0} (h0 : Part.cores ∈ L) : changesOnly L s { x with cores := v0 } ↔ changesOnly L s x :=
  changesOnly_congr fun p hp => by cases p <;> first | exact Iff.rfl | (exfalso; exact hp (by assumption))
theorem only_dram {L : List Part} {s : State} (x : State) {v0} (h0 : Part.dram ∈ L) : changesOnly L s { x with dram := v0 } ↔ changesOnly L s x :=
  changesOnly_congr fun p hp => by cases p <;> first | exact Iff.rfl | (exfalso; exact hp (by assumption))
theorem only_sec {L : List Part} {s : State} (x : State) {v0} (h0 : Part.sec ∈ L) : changesOnly L s { x with sec := v0 } ↔ changesOnly L s x :=
  changesOnly_congr fun p hp => by cases p <;> first | exact Iff.rfl | (exfalso; exact hp (by assumption))
theorem only_klb {L : List Part} {s : State} (x : State) {v0} (h0 : Part.klb ∈ L) : changesOnly L s { x with klb := v0 } ↔ changesOnly L s x :=
  changesOnly_congr fun p hp => by cases p <;> first | exact Iff.rfl | (exfalso; exact hp (by assumption))
theorem only_elec {L : List Part} {s : State} (x : State) {v0} (h0 : Part.elec ∈ L) : changesOnly L s { x with elec := v0 } ↔ changesOnly L s x :=
  changesOnly_congr fun p hp => by cases p <;> first | exact Iff.rfl | (exfalso; exact hp (by assumption))
theorem only_degr {L : List Part} {s : State} (x : State) {v0} (h0 : Part.degr ∈ L) : changesOnly L s { x with degr := v0 } ↔ changesOnly L s x :=
  changesOnly_congr fun p hp => by cases p <;> first | exact Iff.rfl | (exfalso; exact hp (by assumption))
theorem only_bist {L : List Part} {s : State} (x : State) {v0} (h0 : Part.bist ∈ L) : changesOnly L s { x with bist := v0 } ↔ changesOnly L s x :=
  changesOnly_congr fun p hp => by cases p <;> first | exact Iff.rfl | (exfalso; exact hp (by assumption))
theorem only_carve {L : List Part} {s : State} (x : State) {v0} (h0 : Part.carve ∈ L) : changesOnly L s { x with carve := v0 } ↔ changesOnly L s x :=
  changesOnly_congr fun p hp => by cases p <;> first | exact Iff.rfl | (exfalso; exact hp (by assumption))
theorem only_violations {L : List Part} {s : State} (x : State) {v0} (h0 : Part.violations ∈ L) : changesOnly L s { x with violations := v0 } ↔ changesOnly L s x :=
  changesOnly_congr fun p hp => by cases p <;> first | exact Iff.rfl | (exfalso; exact hp (by assumption))
theorem only_counters {L : List Part} {s : State} (x : State) {v0} (h0 : Part.counters ∈ L) : changesOnly L s { x with counters := v0 } ↔ changesOnly L s x :=
  changesOnly_congr fun p hp => by cases p <;> first | exact Iff.rfl | (exfalso; exact hp (by assumption))
theorem only_regs {L : List Part} {s : State} (x : State) {v0} (h0 : Part.regs ∈ L) : changesOnly L s { x with regs := v0 } ↔ changesOnly L s x :=
  changesOnly_congr fun p hp => by cases p <;> first | exact Iff.rfl | (exfalso; exact hp (by assumption))
theorem only_queues_sched {L : List Part} {s : State} (x : State) {v0 v1} (h0 : Part.queues ∈ L) (h1 : Part.sched ∈ L) : changesOnly L s { x with queues := v0, sched := v1 } ↔ changesOnly L s x :=
  changesOnly_congr fun p hp => by cases p <;> first | exact Iff.rfl | (exfalso; exact hp (by assumption))
theorem only_pending_fenced {L : List Part} {s : State} (x : State) {v0 v1} (h0 : Part.pending ∈ L) (h1 : Part.fenced ∈ L) : changesOnly L s { x with pending := v0, fenced := v1 } ↔ changesOnly L s x :=
  changesOnly_congr fun p hp => by cases p <;> first | exact Iff.rfl | (exfalso; exact hp (by assumption))
theorem only_parse_cls_tables_hod_net_ctx {L : List Part} {s : State} (x : State) {v0 v1 v2 v3 v4 v5} (h0 : Part.parse ∈ L) (h1 : Part.cls ∈ L) (h2 : Part.tables ∈ L) (h3 : Part.hod ∈ L) (h4 : Part.net ∈ L) (h5 : Part.ctx ∈ L) : changesOnly L s { x with parse := v0, cls := v1, tables := v2, hod := v3, net := v4, ctx := v5 } ↔ changesOnly L s x :=
  changesOnly_congr fun p hp => by cases p <;> first | exact Iff.rfl | (exfalso; exact hp (by assumption))
theorem only_nvme_carve {L : List Part} {s : State} (x : State) {v0 v1} (h0 : Part.nvme ∈ L) (h1 : Part.carve ∈ L) : changesOnly L s { x with nvme := v0, carve := v1 } ↔ changesOnly L s x :=
  changesOnly_congr fun p hp => by cases p <;> first | exact Iff.rfl | (exfalso; exact hp (by assumption))
theorem only_now_dtime {L : List Part} {s : State} (x : State) {v0 v1} (h0 : Part.now ∈ L) (h1 : Part.dtime ∈ L) : changesOnly L s { x with now := v0, dtime := v1 } ↔ changesOnly L s x :=
  changesOnly_congr fun p hp => by cases p <;> first | exact Iff.rfl | (exfalso; exact hp (by assumption))
theorem only_drawn_queues {L : List Part} {s : State} (x : State) {v0 v1} (h0 : Part.drawn ∈ L) (h1 : Part.queues ∈ L) : changesOnly L s { x with drawn := v0, queues := v1 } ↔ changesOnly L s x :=
  changesOnly_congr fun p hp => by cases p <;> first | exact Iff.rfl | (exfalso; exact hp (by assumption))
theorem only_clk_glb {L : List Part} {s : State} (x : State) {v0 v1} (h0 : Part.clk ∈ L) (h1 : Part.glb ∈ L) (hf : SameMode v1 x.glb) : changesOnly L s { x with clk := v0, glb := v1 } ↔ changesOnly L s x :=
  changesOnly_congr fun p hp => by cases p <;> first | exact Iff.rfl | (exfalso; exact hp (by assumption)) | (have e : modeOf v1 = modeOf x.glb := hf; simp only [Part.same, e])
theorem only_clk_glb_hosts_crypt_elec_bist {L : List Part} {s : State} (x : State) {v0 v1 v2 v3 v4 v5} (h0 : Part.clk ∈ L) (h1 : Part.glb ∈ L) (h2 : Part.hosts ∈ L) (h3 : Part.crypt ∈ L) (h4 : Part.elec ∈ L) (h5 : Part.bist ∈ L) (hf : SameMode v1 x.glb) : changesOnly L s { x with clk := v0, glb := v1, hosts := v2, crypt := v3, elec := v4, bist := v5 } ↔ changesOnly L s x :=
  changesOnly_congr fun p hp => by cases p <;> first | exact Iff.rfl | (exfalso; exact hp (by assumption)) | (have e : modeOf v1 = modeOf x.glb := hf; simp only [Part.same, e])
theorem only_clk_glb_elec {L : List Part} {s : State} (x : State) {v0 v1 v2} (h0 : Part.clk ∈ L) (h1 : Part.glb ∈ L) (h2 : Part.elec ∈ L) (hf : SameMode v1 x.glb) : changesOnly L s { x with clk := v0, glb := v1, elec := v2 } ↔ changesOnly L s x :=
  changesOnly_congr fun p hp => by cases p <;> first | exact Iff.rfl | (exfalso; exact hp (by assumption)) | (have e : modeOf v1 = modeOf x.glb := hf; simp only [Part.same, e])
theorem only_clk_elec {L : List Part} {s : State} (x : State) {v0 v1} (h0 : Part.clk ∈ L) (h1 : Part.elec ∈ L) : changesOnly L s { x with clk := v0, elec := v1 } ↔ changesOnly L s x :=
  changesOnly_congr fun p hp => by cases p <;> first | exact Iff.rfl | (exfalso; exact hp (by assumption))
theorem only_ite {L : List Part} {s : State} (c : Prop) [Decidable c] (a b : State) :
    changesOnly L s (if c then a else b) ↔ (if c then changesOnly L s a else changesOnly L s b) := by split <;> rfl
theorem only_foldl {L : List Part} {s : State} {α : Type _} (g : State → α → State) (h : ∀ x a, changesOnly L s (g x a) ↔ changesOnly L s x) (l : List α) (x : State) :
    changesOnly L s (l.foldl g x) ↔ changesOnly L s x := by
  induction l generalizing x with
  | nil => exact Iff.rfl
  | cons a l ih => exact (ih (g x a)).trans (h x a)
end Sys2Proof.Machine
end

