-- ==== Sys2Proof/Laws/FrameCommand.lean ====
section
/-! SUPPORT. FrameCommand.lean: what each definition of the machine may change, for the command channels, epochs, staged layers, tables, hods and spreading: one lemma `<name>_only` for each, which names the parts of the state it touches. -/

set_option linter.all false

namespace Sys2Proof.Machine
open Sys2Proof

theorem emit_only {L : List Part} {s : State} (a0 : Out) (a1 : State) (h0 : Part.out ∈ L) : changesOnly L s (emit a0 a1) ↔ changesOnly L s a1 := by
  (simp only [emit, iff_self, h0, only_out]; done)
theorem drawn1_only {L : List Part} {s : State} (a0 : State) (h0 : Part.drawn ∈ L) : changesOnly L s (drawn1 a0) ↔ changesOnly L s a0 := by
  (simp only [drawn1, iff_self, h0, only_drawn]; done)
theorem setCounter_only {L : List Part} {s : State} (a0 : Nat) (a1 : Nat) (a2 : Nat) (a3 : Nat) (a4 : State) (h0 : Part.counters ∈ L) : changesOnly L s (setCounter a0 a1 a2 a3 a4) ↔ changesOnly L s a4 := by
  (simp only [setCounter, iff_self, h0, only_counters]; done)
theorem count_only {L : List Part} {s : State} (a0 : Nat) (a1 : Nat) (a2 : Nat) (a3 : Nat) (a4 : State) (h0 : Part.counters ∈ L) : changesOnly L s (count a0 a1 a2 a3 a4) ↔ changesOnly L s a4 := by
  (simp only [count, iff_self, setCounter_only, h0]; done)
theorem countFn_only {L : List Part} {s : State} (a0 : HostId) (a1 : Fn) (a2 : Nat) (a3 : State) (h0 : Part.counters ∈ L) : changesOnly L s (countFn a0 a1 a2 a3) ↔ changesOnly L s a3 := by
  (simp only [countFn, iff_self, count_only, h0]; done)
theorem modLink_only {L : List Part} {s : State} (a0 : HostId) (a1 : HostLink → HostLink) (a2 : State) (h0 : Part.hosts ∈ L) : changesOnly L s (modLink a0 a1 a2) ↔ changesOnly L s a2 := by
  (simp only [modLink, iff_self, h0, only_hosts]; done)
theorem modFn_only {L : List Part} {s : State} (a0 : HostId) (a1 : Fn) (a2 : FnState → FnState) (a3 : State) (h0 : Part.fns ∈ L) : changesOnly L s (modFn a0 a1 a2 a3) ↔ changesOnly L s a3 := by
  (simp only [modFn, iff_self, h0, only_fns]; done)
theorem modQueue_only {L : List Part} {s : State} (a0 : HostId) (a1 : Fn) (a2 : Nat) (a3 : Queue → Queue) (a4 : State) (h0 : Part.queues ∈ L) : changesOnly L s (modQueue a0 a1 a2 a3 a4) ↔ changesOnly L s a4 := by
  (simp only [modQueue, iff_self, h0, only_queues]; done)
theorem refreshInta_only {L : List Part} {s : State} (a0 : HostId) (a1 : State) (h0 : Part.out ∈ L) (h1 : Part.hosts ∈ L) : changesOnly L s (refreshInta a0 a1) ↔ changesOnly L s a1 := by
  (simp only [refreshInta, iff_self, only_ite, ite_self, modLink_only, emit_only, h0, h1]; done)
theorem setIntx_only {L : List Part} {s : State} (a0 : HostId) (a1 : Nat) (a2 : State) (h0 : Part.out ∈ L) (h1 : Part.hosts ∈ L) : changesOnly L s (setIntx a0 a1 a2) ↔ changesOnly L s a2 := by
  (simp only [setIntx, iff_self, modLink_only, refreshInta_only, h0, h1]; done)
theorem signalVector_only {L : List Part} {s : State} (a0 : HostId) (a1 : Fn) (a2 : Nat) (a3 : State) (h0 : Part.out ∈ L) (h1 : Part.fns ∈ L) : changesOnly L s (signalVector a0 a1 a2 a3) ↔ changesOnly L s a3 := by
  (simp only [signalVector, iff_self, only_ite, ite_self, modFn_only, emit_only, h0, h1]; done)
theorem signalRing_only {L : List Part} {s : State} (a0 : RingChan) (a1 : Nat) (a2 : Nat) (a3 : State) (h0 : Part.out ∈ L) (h1 : Part.rings ∈ L) (h2 : Part.hosts ∈ L) (h3 : Part.fns ∈ L) : changesOnly L s (signalRing a0 a1 a2 a3) ↔ changesOnly L s a3 := by
  (simp only [signalRing, iff_self, only_ite, ite_self, signalVector_only, setIntx_only, h0, h1, h2, h3, only_rings]; done)
theorem modRing_only {L : List Part} {s : State} (a0 : RingChan) (a1 : Ring → Ring) (a2 : State) (h0 : Part.rings ∈ L) : changesOnly L s (modRing a0 a1 a2) ↔ changesOnly L s a2 := by
  (simp only [modRing, iff_self, h0, only_rings]; done)
theorem raiseOwner_only {L : List Part} {s : State} (a0 : Nat) (a1 : Nat) (a2 : Nat) (a3 : List Nat) (a4 : State) (h0 : Part.owner ∈ L) : changesOnly L s (raiseOwner a0 a1 a2 a3 a4) ↔ changesOnly L s a4 := by
  (simp only [raiseOwner, iff_self, only_ite, ite_self, h0, only_owner]; done)
theorem writeEvent_only {L : List Part} {s : State} (a0 : RingChan) (a1 : Nat) (a2 : Nat) (a3 : Nat) (a4 : List Nat) (a5 : State) (h0 : Part.out ∈ L) (h1 : Part.rings ∈ L) (h2 : Part.hosts ∈ L) (h3 : Part.fns ∈ L) : changesOnly L s (writeEvent a0 a1 a2 a3 a4 a5) ↔ changesOnly L s a5 := by
  (simp only [writeEvent, iff_self, signalRing_only, modRing_only, emit_only, h0, h1, h2, h3]; done)
theorem raiseRing_only {L : List Part} {s : State} (a0 : RingChan) (a1 : Nat) (a2 : Nat) (a3 : Nat) (a4 : List Nat) (a5 : State) (h0 : Part.out ∈ L) (h1 : Part.rings ∈ L) (h2 : Part.hosts ∈ L) (h3 : Part.fns ∈ L) : changesOnly L s (raiseRing a0 a1 a2 a3 a4 a5) ↔ changesOnly L s a5 := by
  (simp only [raiseRing, iff_self, only_ite, ite_self, writeEvent_only, modRing_only, h0, h1, h2, h3]; done)
theorem raise_only {L : List Part} {s : State} (a0 : Chan) (a1 : Nat) (a2 : Nat) (a3 : Nat) (a4 : List Nat) (a5 : State) (h0 : Part.out ∈ L) (h1 : Part.owner ∈ L) (h2 : Part.rings ∈ L) (h3 : Part.hosts ∈ L) (h4 : Part.fns ∈ L) : changesOnly L s (raise a0 a1 a2 a3 a4 a5) ↔ changesOnly L s a5 := by
  (fun_cases raise a0 a1 a2 a3 a4 a5 <;> (simp +zetaDelta only [iff_self, raiseOwner_only, raiseRing_only, h0, h1, h2, h3, h4]; done))
theorem raiseHosts_only {L : List Part} {s : State} (a0 : Nat) (a1 : Nat) (a2 : Nat) (a3 : List Nat) (a4 : State) (h0 : Part.out ∈ L) (h1 : Part.rings ∈ L) (h2 : Part.hosts ∈ L) (h3 : Part.fns ∈ L) : changesOnly L s (raiseHosts a0 a1 a2 a3 a4) ↔ changesOnly L s a4 := by
  (simp only [raiseHosts, only_foldl, iff_self, implies_true, raiseRing_only, h0, h1, h2, h3]; done)
theorem raiseModeChange_only {L : List Part} {s : State} (a0 : Nat) (a1 : State) (h0 : Part.out ∈ L) (h1 : Part.owner ∈ L) (h2 : Part.rings ∈ L) (h3 : Part.hosts ∈ L) (h4 : Part.fns ∈ L) : changesOnly L s (raiseModeChange a0 a1) ↔ changesOnly L s a1 := by
  (simp only [raiseModeChange, iff_self, only_ite, ite_self, raiseOwner_only, raiseHosts_only, h0, h1, h2, h3, h4]; done)
theorem enterMode_only {L : List Part} {s : State} (a0 : Mode) (a1 : Cause) (a2 : State) (h0 : Part.out ∈ L) (h1 : Part.glb ∈ L) (h2 : Part.owner ∈ L) (h3 : Part.rings ∈ L) (h4 : Part.hosts ∈ L) (h5 : Part.fns ∈ L) (h98 : Part.mode ∈ L) : changesOnly L s (enterMode a0 a1 a2) ↔ changesOnly L s a2 := by
  (simp only [enterMode, iff_self, raiseModeChange_only, h98, h0, h1, h2, h3, h4, h5, only_glb_mode]; done)
theorem raiseViolation_only {L : List Part} {s : State} (a0 : Chan) (a1 : Nat) (a2 : Nat) (a3 : Nat) (a4 : State) (h0 : Part.out ∈ L) (h1 : Part.owner ∈ L) (h2 : Part.rings ∈ L) (h3 : Part.hosts ∈ L) (h4 : Part.fns ∈ L) (h5 : Part.violations ∈ L) : changesOnly L s (raiseViolation a0 a1 a2 a3 a4) ↔ changesOnly L s a4 := by
  (simp only [raiseViolation, iff_self, only_ite, ite_self, raise_only, h0, h1, h2, h3, h4, h5, only_violations]; done)
theorem logViolation_only {L : List Part} {s : State} (a0 : Nat) (a1 : Nat) (a2 : Nat) (a3 : List Nat) (a4 : State) (h0 : Part.out ∈ L) (h1 : Part.owner ∈ L) (h2 : Part.rings ∈ L) (h3 : Part.hosts ∈ L) (h4 : Part.fns ∈ L) (h5 : Part.violations ∈ L) (h6 : Part.counters ∈ L) : changesOnly L s (logViolation a0 a1 a2 a3 a4) ↔ changesOnly L s a4 := by
  unfold logViolation
  simp only []
  split
  · simp only [raiseViolation_only, count_only, only_ite, ite_self, only_violations, h0, h1, h2, h3, h4, h5, h6]
  · rw [raiseViolation_only _ _ _ _ _ h0 h1 h2 h3 h4 h5]
    split <;> simp only [raiseViolation_only, count_only, only_ite, ite_self, only_violations, h0, h1, h2, h3, h4, h5, h6]
theorem dropOp_only {L : List Part} {s : State} (a0 : Nat) (a1 : State) (h0 : Part.ops ∈ L) : changesOnly L s (dropOp a0 a1) ↔ changesOnly L s a1 := by
  (simp only [dropOp, iff_self, h0, only_ops]; done)
theorem opDone_only {L : List Part} {s : State} (a0 : LongOp) (a1 : Status) (a2 : List Nat) (a3 : State) (h0 : Part.out ∈ L) (h1 : Part.owner ∈ L) (h2 : Part.rings ∈ L) (h3 : Part.ops ∈ L) (h4 : Part.hosts ∈ L) (h5 : Part.fns ∈ L) : changesOnly L s (opDone a0 a1 a2 a3) ↔ changesOnly L s a3 := by
  (simp only [opDone, iff_self, raise_only, dropOp_only, h0, h1, h2, h3, h4, h5]; done)
theorem putOp_only {L : List Part} {s : State} (a0 : LongOp) (a1 : State) (h0 : Part.ops ∈ L) : changesOnly L s (putOp a0 a1) ↔ changesOnly L s a1 := by
  (simp only [putOp, iff_self, h0, only_ops]; done)
theorem writeReply_only {L : List Part} {s : State} (a0 : Packet) (a1 : Status) (a2 : Bool) (a3 : List Nat) (a4 : List Nat) (a5 : Bool) (a6 : State) (h0 : Part.out ∈ L) (h1 : Part.rings ∈ L) (h2 : Part.hosts ∈ L) (h3 : Part.fns ∈ L) : changesOnly L s (writeReply a0 a1 a2 a3 a4 a5 a6) ↔ changesOnly L s a6 := by
  (fun_cases writeReply a0 a1 a2 a3 a4 a5 a6 <;> (simp +zetaDelta only [iff_self, only_ite, ite_self, signalRing_only, modRing_only, emit_only, h0, h1, h2, h3]; done))
theorem refuse_only {L : List Part} {s : State} (a0 : Packet) (a1 : Status) (a2 : List Nat) (a3 : State) (h0 : Part.out ∈ L) (h1 : Part.rings ∈ L) (h2 : Part.hosts ∈ L) (h3 : Part.fns ∈ L) : changesOnly L s (refuse a0 a1 a2 a3) ↔ changesOnly L s a3 := by
  (simp only [refuse, iff_self, writeReply_only, h0, h1, h2, h3]; done)
theorem consume_only {L : List Part} {s : State} (a0 : RingChan) (a1 : Packet) (a2 : State) (h0 : Part.rings ∈ L) : changesOnly L s (consume a0 a1 a2) ↔ changesOnly L s a2 := by
  (simp only [consume, iff_self, modRing_only, h0]; done)
theorem ringFault_only {L : List Part} {s : State} (a0 : RingChan) (a1 : State) (h0 : Part.rings ∈ L) : changesOnly L s (ringFault a0 a1) ↔ changesOnly L s a1 := by
  (simp only [ringFault, iff_self, modRing_only, h0]; done)
theorem ownerSpoke_only {L : List Part} {s : State} (a0 : State) (h0 : Part.owner ∈ L) : changesOnly L s (ownerSpoke a0) ↔ changesOnly L s a0 := by
  (simp only [ownerSpoke, iff_self, h0, only_owner]; done)
theorem startOp_only {L : List Part} {s : State} (a0 : Nat) (a1 : Packet) (a2 : OpKind) (a3 : Nat) (a4 : Nat) (a5 : State) (h0 : Part.drawn ∈ L) (h1 : Part.ops ∈ L) : changesOnly L s (startOp a0 a1 a2 a3 a4 a5).state ↔ changesOnly L s a5 := by
  (simp only [startOp, iff_self, drawn1_only, h0, h1, only_ops]; done)

/-- an outcome -/
def OnlyO (L : List Part) (s : State) (o : Host.Outcome State Fault Refusal) : Prop := ∀ t, o = .next t → changesOnly L s t
theorem onlyO_next (L : List Part) (s t : State) : OnlyO L s (.next t) ↔ changesOnly L s t :=
  ⟨fun h => h t rfl, fun h u e => by injection e with e; exact e ▸ h⟩
theorem onlyO_refused (L : List Part) (s : State) (r : Refusal) : OnlyO L s (.refused r) := fun _ e => nomatch e
theorem onlyO_fault (L : List Part) (s : State) (r : Fault) : OnlyO L s (.fault r) := fun _ e => nomatch e
theorem onlyO_ite (L : List Part) (s : State) (c : Prop) [Decidable c] (a b : Host.Outcome State Fault Refusal) :
    OnlyO L s (if c then a else b) ↔ (if c then OnlyO L s a else OnlyO L s b) := by split <;> rfl
def OnlyA (L : List Part) (s y : State) (a : Answer) : Prop := (changesOnly L s a.state ↔ changesOnly L s y) ∧ ∀ z, changesOnly L s (a.after z) ↔ changesOnly L s z
def DefOnly (L : List Part) (s : State) (d : CmdDef) : Prop := ∀ o p y, OnlyA L s y (d.act o p y)
theorem onlyA_mk (L : List Part) (s y x : State) (st : Status) (r : List Nat) (b : Bool) (l : Option (List Nat)) (h : changesOnly L s x ↔ changesOnly L s y) :
    OnlyA L s y { state := x, status := st, result := r, handle := b, long := l } := ⟨h, fun _ => Iff.rfl⟩
theorem onlyA_reply (L : List Part) (s y x : State) (r : List Nat) (h : changesOnly L s x ↔ changesOnly L s y) : OnlyA L s y (reply r x) := onlyA_mk _ _ _ _ _ _ _ _ h
theorem onlyA_replyLong (L : List Part) (s y x : State) (r : List Nat) (h : changesOnly L s x ↔ changesOnly L s y) : OnlyA L s y (replyLong r x) := onlyA_mk _ _ _ _ _ _ _ _ h
theorem onlyA_startOp (L : List Part) (s y x : State) (op : Nat) (p : Packet) (k : OpKind) (n e : Nat) (h0 : Part.drawn ∈ L) (h1 : Part.ops ∈ L) (h : changesOnly L s x ↔ changesOnly L s y) : OnlyA L s y (startOp op p k n e x) := ⟨(startOp_only _ _ _ _ _ _ h0 h1).trans h, fun _ => Iff.rfl⟩
theorem onlyA_ite (L : List Part) (s y : State) (c : Prop) [Decidable c] (a b : Answer) :
    OnlyA L s y (if c then a else b) ↔ (if c then OnlyA L s y a else OnlyA L s y b) := by split <;> rfl
def OnlyS (L : List Part) (s : State) : Served → Prop
  | .done _ _ t => changesOnly L s t
  | .later t => changesOnly L s t
  | .undefined _ => True
theorem answer_only {L : List Part} {s : State} (p : Packet) (a : Answer) (x : State) (h0 : Part.out ∈ L) (h1 : Part.rings ∈ L) (h2 : Part.hosts ∈ L) (h3 : Part.fns ∈ L) (ha : OnlyA L s x a) : changesOnly L s (answer p a x) ↔ changesOnly L s x := by
  unfold answer
  split
  · rw [ha.2, writeReply_only _ _ _ _ _ _ _ h0 h1 h2 h3, ha.1]
  · simp only [only_ite, ite_self, refuse_only, ha.2, ha.1, writeReply_only, h0, h1, h2, h3]
theorem serve_only {L : List Part} {s : State} (d : CmdDef) (p : Packet) (x : State) (h0 : Part.out ∈ L) (h1 : Part.rings ∈ L) (h2 : Part.hosts ∈ L) (h3 : Part.fns ∈ L) (hd : DefOnly L s d) : changesOnly L s (serve d p x) ↔ changesOnly L s x := by
  unfold serve
  split
  · simp only [refuse_only, h0, h1, h2, h3]
  · exact answer_only _ _ _ h0 h1 h2 h3 (hd _ _ _)
theorem runCmd_only {L : List Part} {s : State} (d : CmdDef) (i : Instr) (p : Packet) (x : State) (h0 : Part.fenced ∈ L) (h1 : Part.out ∈ L) (h2 : Part.owner ∈ L) (h3 : Part.rings ∈ L) (h4 : Part.hosts ∈ L) (h5 : Part.fns ∈ L) (hd : DefOnly L s d) : changesOnly L s (runCmd d i p x) ↔ changesOnly L s x := by
  unfold runCmd
  split
  · simp only [only_ite, ite_self, refuse_only, ownerSpoke_only, only_fenced, serve_only, hd, h0, h1, h2, h3, h4, h5]
  · split; · exact Iff.rfl
    split; · simp only [only_fenced, h0]
    split <;> simp only [ringFault_only, refuse_only, consume_only, serve_only, hd, h1, h3, h4, h5]
theorem reply_only {L : List Part} {s : State} (a0 : List Nat) (a1 : State)  : changesOnly L s (reply a0 a1).state ↔ changesOnly L s a1 := by
  (simp only [reply, iff_self]; done)
theorem replyLong_only {L : List Part} {s : State} (a0 : List Nat) (a1 : State)  : changesOnly L s (replyLong a0 a1).state ↔ changesOnly L s a1 := by
  (simp only [replyLong, iff_self]; done)
theorem enableRing_only {L : List Part} {s : State} (a0 : RingChan) (a1 : State) (h0 : Part.rings ∈ L) : changesOnly L s (enableRing a0 a1) ↔ changesOnly L s a1 := by
  (simp only [enableRing, iff_self, only_ite, ite_self, modRing_only, h0]; done)
theorem execHlinkCmdEnableSet_only {L : List Part} {s : State} (a0 : RingChan) (a1 : State) (h0 : Part.rings ∈ L) (hx : changesOnly L s a1) : OnlyO L s (execHlinkCmdEnableSet a0 a1) := by
  (simp only [execHlinkCmdEnableSet, onlyO_next, hx, enableRing_only, h0]; done)
theorem execHlinkCmdEventEnableWrite_only {L : List Part} {s : State} (a0 : RingChan) (a1 : Bool) (a2 : State) (h0 : Part.rings ∈ L) (hx : changesOnly L s a2) : OnlyO L s (execHlinkCmdEventEnableWrite a0 a1 a2) := by
  (simp only [execHlinkCmdEventEnableWrite, only_ite, ite_self, onlyO_next, hx, modRing_only, h0]; done)
theorem execHlinkCmdSqTail_only {L : List Part} {s : State} (a0 : RingChan) (a1 : Word) (a2 : State) (h0 : Part.rings ∈ L) (hx : changesOnly L s a2) : OnlyO L s (execHlinkCmdSqTail a0 a1 a2) := by
  (simp only [execHlinkCmdSqTail, ite_self, onlyO_ite, onlyO_next, onlyO_refused, hx, modRing_only, h0]; done)
theorem execHlinkCmdRqHead_only {L : List Part} {s : State} (a0 : RingChan) (a1 : Word) (a2 : State) (h0 : Part.rings ∈ L) (hx : changesOnly L s a2) : OnlyO L s (execHlinkCmdRqHead a0 a1 a2) := by
  (simp only [execHlinkCmdRqHead, ite_self, onlyO_ite, onlyO_next, onlyO_refused, hx, modRing_only, h0]; done)
theorem reportLost_only {L : List Part} {s : State} (a0 : RingChan) (a1 : State) (h0 : Part.out ∈ L) (h1 : Part.rings ∈ L) (h2 : Part.hosts ∈ L) (h3 : Part.fns ∈ L) : changesOnly L s (reportLost a0 a1) ↔ changesOnly L s a1 := by
  (simp only [reportLost, iff_self, only_ite, ite_self, writeEvent_only, modRing_only, h0, h1, h2, h3]; done)
theorem execHlinkCmdEqHead_only {L : List Part} {s : State} (a0 : RingChan) (a1 : Word) (a2 : State) (h0 : Part.out ∈ L) (h1 : Part.rings ∈ L) (h2 : Part.hosts ∈ L) (h3 : Part.fns ∈ L) (hx : changesOnly L s a2) : OnlyO L s (execHlinkCmdEqHead a0 a1 a2) := by
  (simp only [execHlinkCmdEqHead, ite_self, onlyO_ite, onlyO_next, onlyO_refused, hx, modRing_only, reportLost_only, h0, h1, h2, h3]; done)
theorem execOversizeCommand_only {L : List Part} {s : State} (a0 : RingChan) (a1 : Packet) (a2 : State) (h0 : Part.out ∈ L) (h1 : Part.rings ∈ L) (h2 : Part.hosts ∈ L) (h3 : Part.fns ∈ L) (hx : changesOnly L s a2) : OnlyO L s (execOversizeCommand a0 a1 a2) := by
  (simp only [execOversizeCommand, only_ite, ite_self, onlyO_next, hx, modRing_only, refuse_only, h0, h1, h2, h3]; done)
theorem unassignedDef_only {L : List Part} {s : State} (opcode : Nat)   : DefOnly L s (unassignedDef opcode) := by
  intro o p y; simp only [unassignedDef]; (repeat' (first | with_reducible rfl | (simp only [only_ite, ite_self, onlyA_ite, reply_only]; done) | with_reducible refine onlyA_reply _ _ _ _ _ ?_ | with_reducible refine onlyA_replyLong _ _ _ _ _ ?_ | with_reducible refine onlyA_startOp _ _ _ _ _ _ _ _ _ (by assumption) (by assumption) ?_ | with_reducible refine onlyA_mk _ _ _ _ _ _ _ _ ?_ | split | (with_reducible refine (only_foldl _ (fun y b => ?_) _ _).trans ?_) | (refine ⟨?_, fun z => ?_⟩) | (simp only [])))
theorem execUnassignedOpcode_only {L : List Part} {s : State} (a0 : BitVec 16) (a1 : Packet) (a2 : State) (h0 : Part.fenced ∈ L) (h1 : Part.out ∈ L) (h2 : Part.owner ∈ L) (h3 : Part.rings ∈ L) (h4 : Part.hosts ∈ L) (h5 : Part.fns ∈ L) (hx : changesOnly L s a2) : OnlyO L s (execUnassignedOpcode a0 a1 a2) := by
  (simp only [execUnassignedOpcode, only_ite, ite_self, onlyO_next, hx, runCmd_only, unassignedDef_only, h0, h1, h2, h3, h4, h5]; done)
theorem eventMaskSetDef_only {L : List Part} {s : State}  (h0 : Part.owner ∈ L) (h1 : Part.rings ∈ L) : DefOnly L s eventMaskSetDef := by
  intro o p y; simp only [eventMaskSetDef]; (repeat' (first | with_reducible rfl | (simp only [modRing_only, only_owner, h0, h1]; done) | with_reducible refine onlyA_reply _ _ _ _ _ ?_ | with_reducible refine onlyA_replyLong _ _ _ _ _ ?_ | with_reducible refine onlyA_startOp _ _ _ _ _ _ _ _ _ (by assumption) (by assumption) ?_ | with_reducible refine onlyA_mk _ _ _ _ _ _ _ _ ?_ | split | (with_reducible refine (only_foldl _ (fun y b => ?_) _ _).trans ?_) | (refine ⟨?_, fun z => ?_⟩) | (simp only [])))
theorem execEventMaskSet_only {L : List Part} {s : State} (a0 : Packet) (a1 : State) (h0 : Part.fenced ∈ L) (h1 : Part.out ∈ L) (h2 : Part.owner ∈ L) (h3 : Part.rings ∈ L) (h4 : Part.hosts ∈ L) (h5 : Part.fns ∈ L) (hx : changesOnly L s a1) : OnlyO L s (execEventMaskSet a0 a1) := by
  (simp only [execEventMaskSet, onlyO_next, hx, runCmd_only, eventMaskSetDef_only, h0, h1, h2, h3, h4, h5]; done)
theorem ownerPathSetDef_only {L : List Part} {s : State}  (h0 : Part.nv ∈ L) : DefOnly L s ownerPathSetDef := by
  intro o p y; simp only [ownerPathSetDef]; (repeat' (first | with_reducible rfl | (simp only [only_nv, sameFuses_iff, eq_self, and_self, h0]; done) | with_reducible refine onlyA_reply _ _ _ _ _ ?_ | with_reducible refine onlyA_replyLong _ _ _ _ _ ?_ | with_reducible refine onlyA_startOp _ _ _ _ _ _ _ _ _ (by assumption) (by assumption) ?_ | with_reducible refine onlyA_mk _ _ _ _ _ _ _ _ ?_ | split | (with_reducible refine (only_foldl _ (fun y b => ?_) _ _).trans ?_) | (refine ⟨?_, fun z => ?_⟩) | (simp only [])))
theorem execOwnerPathSet_only {L : List Part} {s : State} (a0 : Packet) (a1 : State) (h0 : Part.fenced ∈ L) (h1 : Part.out ∈ L) (h2 : Part.nv ∈ L) (h3 : Part.owner ∈ L) (h4 : Part.rings ∈ L) (h5 : Part.hosts ∈ L) (h6 : Part.fns ∈ L) (hx : changesOnly L s a1) : OnlyO L s (execOwnerPathSet a0 a1) := by
  (simp only [execOwnerPathSet, onlyO_next, hx, runCmd_only, ownerPathSetDef_only, h0, h1, h2, h3, h4, h5, h6]; done)
theorem reportOwnerLost_only {L : List Part} {s : State} (a0 : State) (h0 : Part.owner ∈ L) : changesOnly L s (reportOwnerLost a0) ↔ changesOnly L s a0 := by
  (simp only [reportOwnerLost, iff_self, only_ite, ite_self, raiseOwner_only, h0, only_owner]; done)
theorem execOwnerEventSend_only {L : List Part} {s : State} (a0 : Fin 5) (a1 : State) (h0 : Part.out ∈ L) (h1 : Part.owner ∈ L) (hx : changesOnly L s a1) : OnlyO L s (execOwnerEventSend a0 a1) := by
  (unfold execOwnerEventSend; (repeat' (first | with_reducible assumption | with_reducible rfl | (simp only [only_ite, ite_self, onlyO_next, hx, reportOwnerLost_only, emit_only, only_owner, h0, h1]; done) | split | (with_reducible refine (onlyO_next _ _ _).mpr ?_) | (with_reducible refine (only_foldl _ (fun y b => ?_) _ _).mpr ?_) | (with_reducible refine (only_foldl _ (fun y b => ?_) _ _).trans ?_) | (simp only []))); done)
theorem mctpReply_only {L : List Part} {s : State} (a0 : MctpPath) (a1 : List Nat) (a2 : State) (h0 : Part.out ∈ L) : changesOnly L s (mctpReply a0 a1 a2) ↔ changesOnly L s a2 := by
  (simp only [mctpReply, iff_self, only_ite, ite_self, emit_only, h0]; done)
theorem execMctpSetEndpointId_only {L : List Part} {s : State} (a0 : MctpPath) (a1 : BitVec 2) (a2 : Byte) (a3 : State) (h0 : Part.out ∈ L) (h1 : Part.owner ∈ L) (hx : changesOnly L s a3) : OnlyO L s (execMctpSetEndpointId a0 a1 a2 a3) := by
  (unfold execMctpSetEndpointId; (repeat' (first | with_reducible assumption | with_reducible rfl | (simp only [only_ite, onlyO_next, hx, emit_only, only_owner, h0, h1]; done) | split | (with_reducible refine (onlyO_next _ _ _).mpr ?_) | (with_reducible refine (only_foldl _ (fun y b => ?_) _ _).mpr ?_) | (with_reducible refine (only_foldl _ (fun y b => ?_) _ _).trans ?_) | (simp only []))); done)
theorem execMctpGetEndpointId_only {L : List Part} {s : State} (a0 : MctpPath) (a1 : State) (h0 : Part.out ∈ L) (hx : changesOnly L s a1) : OnlyO L s (execMctpGetEndpointId a0 a1) := by
  (simp only [execMctpGetEndpointId, onlyO_next, hx, mctpReply_only, h0]; done)
theorem execMctpGetVersionSupport_only {L : List Part} {s : State} (a0 : MctpPath) (a1 : Byte) (a2 : State) (h0 : Part.out ∈ L) (h1 : Part.drawn ∈ L) (hx : changesOnly L s a2) : OnlyO L s (execMctpGetVersionSupport a0 a1 a2) := by
  (simp only [execMctpGetVersionSupport, only_ite, ite_self, onlyO_next, hx, drawn1_only, mctpReply_only, h0, h1]; done)
theorem execMctpGetMessageTypeSupport_only {L : List Part} {s : State} (a0 : MctpPath) (a1 : State) (h0 : Part.out ∈ L) (hx : changesOnly L s a1) : OnlyO L s (execMctpGetMessageTypeSupport a0 a1) := by
  (simp only [execMctpGetMessageTypeSupport, onlyO_next, hx, mctpReply_only, h0]; done)
theorem execMctpGetVdmSupport_only {L : List Part} {s : State} (a0 : MctpPath) (a1 : Byte) (a2 : State) (h0 : Part.out ∈ L) (hx : changesOnly L s a2) : OnlyO L s (execMctpGetVdmSupport a0 a1 a2) := by
  (simp only [execMctpGetVdmSupport, only_ite, ite_self, onlyO_next, hx, mctpReply_only, h0]; done)
theorem execMctpMessageDiscarded_only {L : List Part} {s : State} (a0 : MctpPath) (a1 : Bool) (a2 : Byte) (a3 : State) (h0 : Part.counters ∈ L) (hx : changesOnly L s a3) : OnlyO L s (execMctpMessageDiscarded a0 a1 a2 a3) := by
  (simp only [execMctpMessageDiscarded, only_ite, ite_self, onlyO_next, hx, count_only, h0]; done)
theorem modUnit_only {L : List Part} {s : State} (a0 : Fin 32) (a1 : UnitState → UnitState) (a2 : State) (h0 : Part.epochs ∈ L) : changesOnly L s (modUnit a0 a1 a2) ↔ changesOnly L s a2 := by
  (simp only [modUnit, iff_self, h0, only_epochs, eq_self]; done)
theorem modUnits_only {L : List Part} {s : State} (a0 : HostId) (a1 : HostUnits → HostUnits) (a2 : State) (h0 : Part.net ∈ L) : changesOnly L s (modUnits a0 a1 a2) ↔ changesOnly L s a2 := by
  (simp only [modUnits, iff_self, h0, only_net]; done)
theorem mapUnit_only {L : List Part} {s : State} (a0 : Fin 32) (a1 : {α : Type} → Staged α → Staged α) (a2 : State) (h0 : Part.parse ∈ L) (h1 : Part.cls ∈ L) (h2 : Part.sched ∈ L) (h3 : Part.net ∈ L) : changesOnly L s (mapUnit a0 a1 a2) ↔ changesOnly L s a2 := by
  (fun_cases mapUnit a0 a1 a2 <;> (simp +zetaDelta only [iff_self, modUnits_only, h0, h1, h2, h3, only_cls, only_net, only_parse, only_sched]; done))
theorem coatsOf_only {L : List Part} {s : State} (a0 : Nat) (a1 : State) (h0 : Part.parse ∈ L) (h1 : Part.cls ∈ L) (h2 : Part.sched ∈ L) (h3 : Part.net ∈ L) : changesOnly L s (coatsOf a0 a1) ↔ changesOnly L s a1 := by
  (simp only [coatsOf, only_foldl, iff_self, implies_true, only_ite, ite_self, mapUnit_only, h0, h1, h2, h3]; done)
theorem reloadUnit_only {L : List Part} {s : State} (a0 : Fin 32) (a1 : State) (h0 : Part.parse ∈ L) (h1 : Part.cls ∈ L) (h2 : Part.sched ∈ L) (h3 : Part.net ∈ L) : changesOnly L s (reloadUnit a0 a1) ↔ changesOnly L s a1 := by
  (simp only [reloadUnit, iff_self, mapUnit_only, h0, h1, h2, h3]; done)
theorem resetBuckets_only {L : List Part} {s : State} (a0 : State) (h0 : Part.parse ∈ L) : changesOnly L s (resetBuckets a0) ↔ changesOnly L s a0 := by
  (simp only [resetBuckets, iff_self, h0, only_parse]; done)
theorem clearLoads_only {L : List Part} {s : State} (a0 : HostId) (a1 : State) (h0 : Part.net ∈ L) : changesOnly L s (clearLoads a0 a1) ↔ changesOnly L s a1 := by
  (simp only [clearLoads, iff_self, h0, only_net]; done)
theorem reparkAll_only {L : List Part} {s : State} (a0 : State) (h0 : Part.sched ∈ L) : changesOnly L s (reparkAll a0) ↔ changesOnly L s a0 := by
  (simp only [reparkAll, iff_self, h0, only_sched]; done)
theorem beforeCommit_only {L : List Part} {s : State} (a0 : Fin 32) (a1 : State) (h0 : Part.parse ∈ L) (h1 : Part.cls ∈ L) (h2 : Part.sched ∈ L) (h3 : Part.net ∈ L) : changesOnly L s (beforeCommit a0 a1) ↔ changesOnly L s a1 := by
  (simp only [beforeCommit, iff_self, only_ite, ite_self, reparkAll_only, clearLoads_only, resetBuckets_only, h0, h1, h2, h3, only_cls, only_parse]; done)
theorem commitUnit_only {L : List Part} {s : State} (a0 : Fin 32) (a1 : State) (h0 : Part.epochs ∈ L) (h1 : Part.parse ∈ L) (h2 : Part.cls ∈ L) (h3 : Part.sched ∈ L) (h4 : Part.net ∈ L) : changesOnly L s (commitUnit a0 a1) ↔ changesOnly L s a1 := by
  (simp only [commitUnit, iff_self, only_ite, ite_self, beforeCommit_only, mapUnit_only, modUnit_only, h0, h1, h2, h3, h4]; done)
theorem armLost_only {L : List Part} {s : State} (a0 : Option Nat) (a1 : Fin 32) (a2 : State) (h0 : Part.out ∈ L) (h1 : Part.owner ∈ L) (h2 : Part.rings ∈ L) (h3 : Part.ops ∈ L) (h4 : Part.hosts ∈ L) (h5 : Part.fns ∈ L) : changesOnly L s (armLost a0 a1 a2) ↔ changesOnly L s a2 := by
  (fun_cases armLost a0 a1 a2 <;> (simp +zetaDelta only [iff_self, opDone_only, h0, h1, h2, h3, h4, h5]; done))
theorem graceCleared_only {L : List Part} {s : State} (a0 : Option Nat) (a1 : Fin 32) (a2 : State) (h0 : Part.out ∈ L) (h1 : Part.owner ∈ L) (h2 : Part.rings ∈ L) (h3 : Part.ops ∈ L) (h4 : Part.hosts ∈ L) (h5 : Part.fns ∈ L) : changesOnly L s (graceCleared a0 a1 a2) ↔ changesOnly L s a2 := by
  (fun_cases graceCleared a0 a1 a2 <;> (simp +zetaDelta only [iff_self, opDone_only, h0, h1, h2, h3, h4, h5]; done))
theorem parseStagedWrite_only {L : List Part} {s : State} (a0 : Nat) (a1 : Nat) (a2 : State) (h0 : Part.parse ∈ L) : changesOnly L s (parseStagedWrite a0 a1 a2) ↔ changesOnly L s a2 := by
  (simp only [parseStagedWrite, iff_self, h0, only_parse]; done)
theorem lossTrigger_only {L : List Part} {s : State} (a0 : Nat) (a1 : State) (h0 : Part.glb ∈ L) : changesOnly L s (lossTrigger a0 a1) ↔ changesOnly L s a1 := by
  (fun_cases lossTrigger a0 a1 <;> (simp +zetaDelta only [iff_self, h0, only_glb, sameMode_iff, eq_self, and_self]; done))
theorem unitLost_only {L : List Part} {s : State} (a0 : Nat) (a1 : Nat) (a2 : Nat) (a3 : Nat) (a4 : State) (h0 : Part.glb ∈ L) (h1 : Part.owner ∈ L) (h2 : Part.degr ∈ L) : changesOnly L s (unitLost a0 a1 a2 a3 a4) ↔ changesOnly L s a4 := by
  (simp only [unitLost, iff_self, lossTrigger_only, raiseOwner_only, h0, h1, h2, only_degr]; done)
theorem repair_only {L : List Part} {s : State} (a0 : RepairEntry) (a1 : State) (h0 : Part.nv ∈ L) (h1 : Part.owner ∈ L) (h2 : Part.counters ∈ L) : changesOnly L s (repair a0 a1) ↔ changesOnly L s a1 := by
  (simp only [repair, iff_self, only_ite, ite_self, raiseOwner_only, count_only, h0, h1, h2, only_nv, sameFuses_iff, eq_self, and_self]; done)
theorem armUnit_only {L : List Part} {s : State} (a0 : Option Nat) (a1 : Nat) (a2 : Fin 32) (a3 : State) (h0 : Part.epochs ∈ L) : changesOnly L s (armUnit a0 a1 a2 a3) ↔ changesOnly L s a3 := by
  (simp only [armUnit, iff_self, modUnit_only, h0]; done)
theorem recoatArmDef_only {L : List Part} {s : State}  (h0 : Part.drawn ∈ L) (h1 : Part.epochs ∈ L) (h2 : Part.ops ∈ L) : DefOnly L s recoatArmDef := by
  intro o p y
  refine ⟨?_, fun _ => Iff.rfl⟩
  simp only [recoatArmDef]
  refine (only_foldl _ (fun y b => ?_) _ _).trans ?_ <;> simp only [armUnit_only, startOp_only, h0, h1, h2]
theorem execRecoatArm_only {L : List Part} {s : State} (a0 : Packet) (a1 : State) (h0 : Part.fenced ∈ L) (h1 : Part.out ∈ L) (h2 : Part.drawn ∈ L) (h3 : Part.epochs ∈ L) (h4 : Part.owner ∈ L) (h5 : Part.rings ∈ L) (h6 : Part.ops ∈ L) (h7 : Part.hosts ∈ L) (h8 : Part.fns ∈ L) (hx : changesOnly L s a1) : OnlyO L s (execRecoatArm a0 a1) := by
  (simp only [execRecoatArm, onlyO_next, hx, runCmd_only, recoatArmDef_only, h0, h1, h2, h3, h4, h5, h6, h7, h8]; done)
theorem recoatDisarmDef_only {L : List Part} {s : State}  (h0 : Part.out ∈ L) (h1 : Part.epochs ∈ L) (h2 : Part.owner ∈ L) (h3 : Part.rings ∈ L) (h4 : Part.ops ∈ L) (h5 : Part.hosts ∈ L) (h6 : Part.fns ∈ L) : DefOnly L s recoatDisarmDef := by
  intro o p y; simp only [recoatDisarmDef]; (repeat' (first | with_reducible rfl | (simp only [modUnit_only, armLost_only, h0, h1, h2, h3, h4, h5, h6]; done) | with_reducible refine onlyA_reply _ _ _ _ _ ?_ | with_reducible refine onlyA_replyLong _ _ _ _ _ ?_ | with_reducible refine onlyA_startOp _ _ _ _ _ _ _ _ _ (by assumption) (by assumption) ?_ | with_reducible refine onlyA_mk _ _ _ _ _ _ _ _ ?_ | split | (with_reducible refine (only_foldl _ (fun y b => ?_) _ _).trans ?_) | (refine ⟨?_, fun z => ?_⟩) | (simp only [])))
theorem execRecoatDisarm_only {L : List Part} {s : State} (a0 : Packet) (a1 : State) (h0 : Part.fenced ∈ L) (h1 : Part.out ∈ L) (h2 : Part.epochs ∈ L) (h3 : Part.owner ∈ L) (h4 : Part.rings ∈ L) (h5 : Part.ops ∈ L) (h6 : Part.hosts ∈ L) (h7 : Part.fns ∈ L) (hx : changesOnly L s a1) : OnlyO L s (execRecoatDisarm a0 a1) := by
  (simp only [execRecoatDisarm, onlyO_next, hx, runCmd_only, recoatDisarmDef_only, h0, h1, h2, h3, h4, h5, h6, h7]; done)
theorem undercoatResetDef_only {L : List Part} {s : State}  (h0 : Part.drawn ∈ L) (h1 : Part.epochs ∈ L) (h2 : Part.ops ∈ L) (h3 : Part.parse ∈ L) (h4 : Part.cls ∈ L) (h5 : Part.sched ∈ L) (h6 : Part.net ∈ L) : DefOnly L s undercoatResetDef := by
  intro o p y; simp only [undercoatResetDef]; (repeat' (first | with_reducible rfl | (simp only [onlyA_ite, modUnit_only, reloadUnit_only, h1, h3, h4, h5, h6]; done) | with_reducible refine onlyA_reply _ _ _ _ _ ?_ | with_reducible refine onlyA_replyLong _ _ _ _ _ ?_ | with_reducible refine onlyA_startOp _ _ _ _ _ _ _ _ _ (by assumption) (by assumption) ?_ | with_reducible refine onlyA_mk _ _ _ _ _ _ _ _ ?_ | split | (with_reducible refine (only_foldl _ (fun y b => ?_) _ _).trans ?_) | (refine ⟨?_, fun z => ?_⟩) | (simp only [])))
theorem execUndercoatReset_only {L : List Part} {s : State} (a0 : Packet) (a1 : State) (h0 : Part.fenced ∈ L) (h1 : Part.out ∈ L) (h2 : Part.drawn ∈ L) (h3 : Part.epochs ∈ L) (h4 : Part.owner ∈ L) (h5 : Part.rings ∈ L) (h6 : Part.ops ∈ L) (h7 : Part.hosts ∈ L) (h8 : Part.fns ∈ L) (h9 : Part.parse ∈ L) (h10 : Part.cls ∈ L) (h11 : Part.sched ∈ L) (h12 : Part.net ∈ L) (hx : changesOnly L s a1) : OnlyO L s (execUndercoatReset a0 a1) := by
  (simp only [execUndercoatReset, onlyO_next, hx, runCmd_only, undercoatResetDef_only, h0, h1, h2, h3, h4, h5, h6, h7, h8, h9, h10, h11, h12]; done)
theorem epochGetDef_only {L : List Part} {s : State}   : DefOnly L s epochGetDef := by
  intro o p y; simp only [epochGetDef]; (repeat' (first | with_reducible rfl | (simp only [only_ite, ite_self, onlyA_ite, reply_only]; done) | with_reducible refine onlyA_reply _ _ _ _ _ ?_ | with_reducible refine onlyA_replyLong _ _ _ _ _ ?_ | with_reducible refine onlyA_startOp _ _ _ _ _ _ _ _ _ (by assumption) (by assumption) ?_ | with_reducible refine onlyA_mk _ _ _ _ _ _ _ _ ?_ | split | (with_reducible refine (only_foldl _ (fun y b => ?_) _ _).trans ?_) | (refine ⟨?_, fun z => ?_⟩) | (simp only [])))
theorem execEpochGet_only {L : List Part} {s : State} (a0 : Packet) (a1 : State) (h0 : Part.fenced ∈ L) (h1 : Part.out ∈ L) (h2 : Part.owner ∈ L) (h3 : Part.rings ∈ L) (h4 : Part.hosts ∈ L) (h5 : Part.fns ∈ L) (hx : changesOnly L s a1) : OnlyO L s (execEpochGet a0 a1) := by
  (simp only [execEpochGet, onlyO_next, hx, runCmd_only, epochGetDef_only, h0, h1, h2, h3, h4, h5]; done)
theorem epochSetLengthDef_only {L : List Part} {s : State}  (h0 : Part.epochs ∈ L) : DefOnly L s epochSetLengthDef := by
  intro o p y; simp only [epochSetLengthDef]; (repeat' (first | with_reducible rfl | (simp only [only_epochs, eq_self, h0]; done) | with_reducible refine onlyA_reply _ _ _ _ _ ?_ | with_reducible refine onlyA_replyLong _ _ _ _ _ ?_ | with_reducible refine onlyA_startOp _ _ _ _ _ _ _ _ _ (by assumption) (by assumption) ?_ | with_reducible refine onlyA_mk _ _ _ _ _ _ _ _ ?_ | split | (with_reducible refine (only_foldl _ (fun y b => ?_) _ _).trans ?_) | (refine ⟨?_, fun z => ?_⟩) | (simp only [])))
theorem execEpochSetLength_only {L : List Part} {s : State} (a0 : Packet) (a1 : State) (h0 : Part.fenced ∈ L) (h1 : Part.out ∈ L) (h2 : Part.epochs ∈ L) (h3 : Part.owner ∈ L) (h4 : Part.rings ∈ L) (h5 : Part.hosts ∈ L) (h6 : Part.fns ∈ L) (hx : changesOnly L s a1) : OnlyO L s (execEpochSetLength a0 a1) := by
  (simp only [execEpochSetLength, onlyO_next, hx, runCmd_only, epochSetLengthDef_only, h0, h1, h2, h3, h4, h5, h6]; done)
theorem epochWaitDef_only {L : List Part} {s : State}  (h0 : Part.drawn ∈ L) (h1 : Part.ops ∈ L) : DefOnly L s epochWaitDef := by
  intro o p y; simp only [epochWaitDef]; (repeat' (first | with_reducible rfl | (simp only [onlyA_ite]; done) | with_reducible refine onlyA_reply _ _ _ _ _ ?_ | with_reducible refine onlyA_replyLong _ _ _ _ _ ?_ | with_reducible refine onlyA_startOp _ _ _ _ _ _ _ _ _ (by assumption) (by assumption) ?_ | with_reducible refine onlyA_mk _ _ _ _ _ _ _ _ ?_ | split | (with_reducible refine (only_foldl _ (fun y b => ?_) _ _).trans ?_) | (refine ⟨?_, fun z => ?_⟩) | (simp only [])))
theorem execEpochWait_only {L : List Part} {s : State} (a0 : Packet) (a1 : State) (h0 : Part.fenced ∈ L) (h1 : Part.out ∈ L) (h2 : Part.drawn ∈ L) (h3 : Part.owner ∈ L) (h4 : Part.rings ∈ L) (h5 : Part.ops ∈ L) (h6 : Part.hosts ∈ L) (h7 : Part.fns ∈ L) (hx : changesOnly L s a1) : OnlyO L s (execEpochWait a0 a1) := by
  (simp only [execEpochWait, onlyO_next, hx, runCmd_only, epochWaitDef_only, h0, h1, h2, h3, h4, h5, h6, h7]; done)
theorem execArmCutoff_only {L : List Part} {s : State} (a0 : State) (h0 : Part.epochs ∈ L) (hx : changesOnly L s a0) : OnlyO L s (execArmCutoff a0) := by
  (unfold execArmCutoff; (repeat' (first | with_reducible assumption | with_reducible rfl | (simp only [only_ite, ite_self, iff_self, onlyO_next, hx, modUnit_only, only_epochs, eq_self, h0]; done) | split | (with_reducible refine (onlyO_next _ _ _).mpr ?_) | (with_reducible refine (only_foldl _ (fun y b => ?_) _ _).mpr ?_) | (with_reducible refine (only_foldl _ (fun y b => ?_) _ _).trans ?_) | (simp only []))); done)
theorem clearGrace_only {L : List Part} {s : State} (a0 : Fin 32) (a1 : State) (h0 : Part.out ∈ L) (h1 : Part.epochs ∈ L) (h2 : Part.owner ∈ L) (h3 : Part.rings ∈ L) (h4 : Part.ops ∈ L) (h5 : Part.hosts ∈ L) (h6 : Part.fns ∈ L) (h7 : Part.parse ∈ L) : changesOnly L s (clearGrace a0 a1) ↔ changesOnly L s a1 := by
  (simp only [clearGrace, only_foldl, iff_self, implies_true, graceCleared_only, modUnit_only, parseStagedWrite_only, h0, h1, h2, h3, h4, h5, h6, h7]; done)
theorem execGraceEnd_only {L : List Part} {s : State} (a0 : RUnit) (a1 : State) (h0 : Part.out ∈ L) (h1 : Part.epochs ∈ L) (h2 : Part.owner ∈ L) (h3 : Part.rings ∈ L) (h4 : Part.ops ∈ L) (h5 : Part.hosts ∈ L) (h6 : Part.fns ∈ L) (h7 : Part.parse ∈ L) (hx : changesOnly L s a1) : OnlyO L s (execGraceEnd a0 a1) := by
  (simp only [execGraceEnd, only_ite, ite_self, onlyO_next, hx, clearGrace_only, modUnit_only, h0, h1, h2, h3, h4, h5, h6, h7]; done)
theorem execReloadComplete_only {L : List Part} {s : State} (a0 : RUnit) (a1 : State) (h0 : Part.out ∈ L) (h1 : Part.epochs ∈ L) (h2 : Part.owner ∈ L) (h3 : Part.rings ∈ L) (h4 : Part.ops ∈ L) (h5 : Part.hosts ∈ L) (h6 : Part.fns ∈ L) (h7 : Part.parse ∈ L) (h8 : Part.cls ∈ L) (h9 : Part.sched ∈ L) (h10 : Part.net ∈ L) (hx : changesOnly L s a1) : OnlyO L s (execReloadComplete a0 a1) := by
  (simp only [execReloadComplete, only_ite, ite_self, onlyO_next, hx, clearGrace_only, reloadUnit_only, h0, h1, h2, h3, h4, h5, h6, h7, h8, h9, h10]; done)
theorem execGlbRecoatArmWrite_only {L : List Part} {s : State} (a0 : Word) (a1 : State) (h0 : Part.epochs ∈ L) (hx : changesOnly L s a1) : OnlyO L s (execGlbRecoatArmWrite a0 a1) := by
  (unfold execGlbRecoatArmWrite; (repeat' (first | with_reducible assumption | with_reducible rfl | (simp only [only_ite, ite_self, iff_self, onlyO_ite, onlyO_next, onlyO_refused, hx, modUnit_only, h0]; done) | split | (with_reducible refine (onlyO_next _ _ _).mpr ?_) | (with_reducible refine (only_foldl _ (fun y b => ?_) _ _).mpr ?_) | (with_reducible refine (only_foldl _ (fun y b => ?_) _ _).trans ?_) | (simp only []))); done)
theorem execStagedRegisterWrite_only {L : List Part} {s : State} (a0 : Word) (a1 : Word) (a2 : State) (h0 : Part.epochs ∈ L) (h1 : Part.parse ∈ L) (hx : changesOnly L s a2) : OnlyO L s (execStagedRegisterWrite a0 a1 a2) := by
  (fun_cases execStagedRegisterWrite a0 a1 a2 <;> (simp +zetaDelta only [onlyO_next, onlyO_refused, hx, modUnit_only, parseStagedWrite_only, h0, h1]; done))
theorem execGlbEpochLenWrite_only {L : List Part} {s : State} (a0 : Word) (a1 : State) (h0 : Part.epochs ∈ L) (hx : changesOnly L s a1) : OnlyO L s (execGlbEpochLenWrite a0 a1) := by
  (simp only [execGlbEpochLenWrite, onlyO_next, hx, only_epochs, eq_self, h0]; done)
theorem puntPolicer_only {L : List Part} {s : State} (a0 : Pipe) (a1 : State) (h0 : Part.parse ∈ L) : changesOnly L s (puntPolicer a0 a1).2 ↔ changesOnly L s a1 := by
  (simp only [puntPolicer, iff_self, h0, only_parse]; done)
theorem modParse_only {L : List Part} {s : State} (a0 : ParseBank → ParseBank) (a1 : State) (h0 : Part.parse ∈ L) : changesOnly L s (modParse a0 a1) ↔ changesOnly L s a1 := by
  (simp only [modParse, iff_self, h0, only_parse]; done)
theorem parseNodeWriteDef_only {L : List Part} {s : State}  (h0 : Part.parse ∈ L) : DefOnly L s parseNodeWriteDef := by
  intro o p y; simp only [parseNodeWriteDef]; (repeat' (first | with_reducible rfl | (simp only [modParse_only, h0]; done) | with_reducible refine onlyA_reply _ _ _ _ _ ?_ | with_reducible refine onlyA_replyLong _ _ _ _ _ ?_ | with_reducible refine onlyA_startOp _ _ _ _ _ _ _ _ _ (by assumption) (by assumption) ?_ | with_reducible refine onlyA_mk _ _ _ _ _ _ _ _ ?_ | split | (with_reducible refine (only_foldl _ (fun y b => ?_) _ _).trans ?_) | (refine ⟨?_, fun z => ?_⟩) | (simp only [])))
theorem execParseNodeWrite_only {L : List Part} {s : State} (a0 : Packet) (a1 : State) (h0 : Part.fenced ∈ L) (h1 : Part.out ∈ L) (h2 : Part.owner ∈ L) (h3 : Part.rings ∈ L) (h4 : Part.hosts ∈ L) (h5 : Part.fns ∈ L) (h6 : Part.parse ∈ L) (hx : changesOnly L s a1) : OnlyO L s (execParseNodeWrite a0 a1) := by
  (simp only [execParseNodeWrite, onlyO_next, hx, parseNodeWriteDef_only, runCmd_only, h0, h1, h2, h3, h4, h5, h6]; done)
theorem parseNodeReadDef_only {L : List Part} {s : State}   : DefOnly L s parseNodeReadDef := by
  intro o p y; simp only [parseNodeReadDef]; (repeat' (first | with_reducible rfl | (simp only [only_ite, ite_self, onlyA_ite, replyLong_only]; done) | with_reducible refine onlyA_reply _ _ _ _ _ ?_ | with_reducible refine onlyA_replyLong _ _ _ _ _ ?_ | with_reducible refine onlyA_startOp _ _ _ _ _ _ _ _ _ (by assumption) (by assumption) ?_ | with_reducible refine onlyA_mk _ _ _ _ _ _ _ _ ?_ | split | (with_reducible refine (only_foldl _ (fun y b => ?_) _ _).trans ?_) | (refine ⟨?_, fun z => ?_⟩) | (simp only [])))
theorem execParseNodeRead_only {L : List Part} {s : State} (a0 : Packet) (a1 : State) (h0 : Part.fenced ∈ L) (h1 : Part.out ∈ L) (h2 : Part.owner ∈ L) (h3 : Part.rings ∈ L) (h4 : Part.hosts ∈ L) (h5 : Part.fns ∈ L) (hx : changesOnly L s a1) : OnlyO L s (execParseNodeRead a0 a1) := by
  (simp only [execParseNodeRead, onlyO_next, hx, runCmd_only, parseNodeReadDef_only, h0, h1, h2, h3, h4, h5]; done)
theorem parseMalformedSetDef_only {L : List Part} {s : State}  (h0 : Part.parse ∈ L) : DefOnly L s parseMalformedSetDef := by
  intro o p y; simp only [parseMalformedSetDef]; (repeat' (first | with_reducible rfl | (simp only [modParse_only, h0]; done) | with_reducible refine onlyA_reply _ _ _ _ _ ?_ | with_reducible refine onlyA_replyLong _ _ _ _ _ ?_ | with_reducible refine onlyA_startOp _ _ _ _ _ _ _ _ _ (by assumption) (by assumption) ?_ | with_reducible refine onlyA_mk _ _ _ _ _ _ _ _ ?_ | split | (with_reducible refine (only_foldl _ (fun y b => ?_) _ _).trans ?_) | (refine ⟨?_, fun z => ?_⟩) | (simp only [])))
theorem execParseMalformedSet_only {L : List Part} {s : State} (a0 : Packet) (a1 : State) (h0 : Part.fenced ∈ L) (h1 : Part.out ∈ L) (h2 : Part.owner ∈ L) (h3 : Part.rings ∈ L) (h4 : Part.hosts ∈ L) (h5 : Part.fns ∈ L) (h6 : Part.parse ∈ L) (hx : changesOnly L s a1) : OnlyO L s (execParseMalformedSet a0 a1) := by
  (simp only [execParseMalformedSet, onlyO_next, hx, runCmd_only, parseMalformedSetDef_only, h0, h1, h2, h3, h4, h5, h6]; done)
theorem modTables_only {L : List Part} {s : State} (a0 : Tables → Tables) (a1 : State) (h0 : Part.tables ∈ L) : changesOnly L s (modTables a0 a1) ↔ changesOnly L s a1 := by
  (simp only [modTables, iff_self, h0, only_tables]; done)
theorem modEm_only {L : List Part} {s : State} (a0 : Em → Em) (a1 : State) (h0 : Part.tables ∈ L) : changesOnly L s (modEm a0 a1) ↔ changesOnly L s a1 := by
  (simp only [modEm, iff_self, modTables_only, h0]; done)
theorem classActionWriteDef_only {L : List Part} {s : State}  (h0 : Part.tables ∈ L) : DefOnly L s classActionWriteDef := by
  intro o p y; simp only [classActionWriteDef]; (repeat' (first | with_reducible rfl | (simp only [modTables_only, h0]; done) | with_reducible refine onlyA_reply _ _ _ _ _ ?_ | with_reducible refine onlyA_replyLong _ _ _ _ _ ?_ | with_reducible refine onlyA_startOp _ _ _ _ _ _ _ _ _ (by assumption) (by assumption) ?_ | with_reducible refine onlyA_mk _ _ _ _ _ _ _ _ ?_ | split | (with_reducible refine (only_foldl _ (fun y b => ?_) _ _).trans ?_) | (refine ⟨?_, fun z => ?_⟩) | (simp only [])))
theorem execClassActionWrite_only {L : List Part} {s : State} (a0 : Packet) (a1 : State) (h0 : Part.fenced ∈ L) (h1 : Part.out ∈ L) (h2 : Part.owner ∈ L) (h3 : Part.rings ∈ L) (h4 : Part.hosts ∈ L) (h5 : Part.fns ∈ L) (h6 : Part.tables ∈ L) (hx : changesOnly L s a1) : OnlyO L s (execClassActionWrite a0 a1) := by
  (simp only [execClassActionWrite, onlyO_next, hx, classActionWriteDef_only, runCmd_only, h0, h1, h2, h3, h4, h5, h6]; done)
theorem emInsert_only {L : List Part} {s : State} (a0 : Nat) (a1 : List Nat) (a2 : State) (h0 : Part.tables ∈ L) : changesOnly L s (emInsert a0 a1 a2).2.2 ↔ changesOnly L s a2 := by
  (fun_cases emInsert a0 a1 a2 <;> (simp +zetaDelta only [iff_self, modEm_only, h0]; done))
theorem emUpdate_only {L : List Part} {s : State} (a0 : Nat) (a1 : List Nat) (a2 : State) (h0 : Part.tables ∈ L) : changesOnly L s (emUpdate a0 a1 a2).2.2 ↔ changesOnly L s a2 := by
  (fun_cases emUpdate a0 a1 a2 <;> (simp +zetaDelta only [iff_self, modEm_only, h0]; done))
theorem emDelete_only {L : List Part} {s : State} (a0 : Nat) (a1 : State) (h0 : Part.tables ∈ L) : changesOnly L s (emDelete a0 a1).2.2 ↔ changesOnly L s a1 := by
  (fun_cases emDelete a0 a1 <;> (simp +zetaDelta only [iff_self, modEm_only, h0]; done))
theorem emLookup_only {L : List Part} {s : State} (a0 : Nat) (a1 : State)  : changesOnly L s (emLookup a0 a1).2.2 ↔ changesOnly L s a1 := by
  (fun_cases emLookup a0 a1 <;> (simp +zetaDelta only [iff_self]; done))
theorem emInsertDef_only {L : List Part} {s : State}  (h0 : Part.tables ∈ L) : DefOnly L s emInsertDef := by
  intro o p y; simp only [emInsertDef]; (repeat' (first | with_reducible rfl | (simp only [emInsert_only, h0]; done) | with_reducible refine onlyA_reply _ _ _ _ _ ?_ | with_reducible refine onlyA_replyLong _ _ _ _ _ ?_ | with_reducible refine onlyA_startOp _ _ _ _ _ _ _ _ _ (by assumption) (by assumption) ?_ | with_reducible refine onlyA_mk _ _ _ _ _ _ _ _ ?_ | split | (with_reducible refine (only_foldl _ (fun y b => ?_) _ _).trans ?_) | (refine ⟨?_, fun z => ?_⟩) | (simp only [])))
theorem execEmInsert_only {L : List Part} {s : State} (a0 : Packet) (a1 : State) (h0 : Part.fenced ∈ L) (h1 : Part.out ∈ L) (h2 : Part.owner ∈ L) (h3 : Part.rings ∈ L) (h4 : Part.hosts ∈ L) (h5 : Part.fns ∈ L) (h6 : Part.tables ∈ L) (hx : changesOnly L s a1) : OnlyO L s (execEmInsert a0 a1) := by
  (simp only [execEmInsert, onlyO_next, hx, runCmd_only, emInsertDef_only, h0, h1, h2, h3, h4, h5, h6]; done)
theorem emUpdateDef_only {L : List Part} {s : State}  (h0 : Part.tables ∈ L) : DefOnly L s emUpdateDef := by
  intro o p y; simp only [emUpdateDef]; (repeat' (first | with_reducible rfl | (simp only [emUpdate_only, h0]; done) | with_reducible refine onlyA_reply _ _ _ _ _ ?_ | with_reducible refine onlyA_replyLong _ _ _ _ _ ?_ | with_reducible refine onlyA_startOp _ _ _ _ _ _ _ _ _ (by assumption) (by assumption) ?_ | with_reducible refine onlyA_mk _ _ _ _ _ _ _ _ ?_ | split | (with_reducible refine (only_foldl _ (fun y b => ?_) _ _).trans ?_) | (refine ⟨?_, fun z => ?_⟩) | (simp only [])))
theorem execEmUpdate_only {L : List Part} {s : State} (a0 : Packet) (a1 : State) (h0 : Part.fenced ∈ L) (h1 : Part.out ∈ L) (h2 : Part.owner ∈ L) (h3 : Part.rings ∈ L) (h4 : Part.hosts ∈ L) (h5 : Part.fns ∈ L) (h6 : Part.tables ∈ L) (hx : changesOnly L s a1) : OnlyO L s (execEmUpdate a0 a1) := by
  (simp only [execEmUpdate, onlyO_next, hx, runCmd_only, emUpdateDef_only, h0, h1, h2, h3, h4, h5, h6]; done)
theorem emDeleteDef_only {L : List Part} {s : State}  (h0 : Part.tables ∈ L) : DefOnly L s emDeleteDef := by
  intro o p y; simp only [emDeleteDef]; (repeat' (first | with_reducible rfl | (simp only [emDelete_only, h0]; done) | with_reducible refine onlyA_reply _ _ _ _ _ ?_ | with_reducible refine onlyA_replyLong _ _ _ _ _ ?_ | with_reducible refine onlyA_startOp _ _ _ _ _ _ _ _ _ (by assumption) (by assumption) ?_ | with_reducible refine onlyA_mk _ _ _ _ _ _ _ _ ?_ | split | (with_reducible refine (only_foldl _ (fun y b => ?_) _ _).trans ?_) | (refine ⟨?_, fun z => ?_⟩) | (simp only [])))
theorem execEmDelete_only {L : List Part} {s : State} (a0 : Packet) (a1 : State) (h0 : Part.fenced ∈ L) (h1 : Part.out ∈ L) (h2 : Part.owner ∈ L) (h3 : Part.rings ∈ L) (h4 : Part.hosts ∈ L) (h5 : Part.fns ∈ L) (h6 : Part.tables ∈ L) (hx : changesOnly L s a1) : OnlyO L s (execEmDelete a0 a1) := by
  (simp only [execEmDelete, onlyO_next, hx, runCmd_only, emDeleteDef_only, h0, h1, h2, h3, h4, h5, h6]; done)
theorem emLookupDef_only {L : List Part} {s : State}   : DefOnly L s emLookupDef := by
  intro o p y; simp only [emLookupDef]; (repeat' (first | with_reducible rfl | (simp only [only_ite, ite_self, onlyA_ite, emLookup_only, replyLong_only]; done) | with_reducible refine onlyA_reply _ _ _ _ _ ?_ | with_reducible refine onlyA_replyLong _ _ _ _ _ ?_ | with_reducible refine onlyA_startOp _ _ _ _ _ _ _ _ _ (by assumption) (by assumption) ?_ | with_reducible refine onlyA_mk _ _ _ _ _ _ _ _ ?_ | split | (with_reducible refine (only_foldl _ (fun y b => ?_) _ _).trans ?_) | (refine ⟨?_, fun z => ?_⟩) | (simp only [])))
theorem execEmLookup_only {L : List Part} {s : State} (a0 : Packet) (a1 : State) (h0 : Part.fenced ∈ L) (h1 : Part.out ∈ L) (h2 : Part.owner ∈ L) (h3 : Part.rings ∈ L) (h4 : Part.hosts ∈ L) (h5 : Part.fns ∈ L) (hx : changesOnly L s a1) : OnlyO L s (execEmLookup a0 a1) := by
  (simp only [execEmLookup, onlyO_next, hx, runCmd_only, emLookupDef_only, h0, h1, h2, h3, h4, h5]; done)
theorem emRehashDef_only {L : List Part} {s : State}  (h0 : Part.drawn ∈ L) (h1 : Part.ops ∈ L) (h2 : Part.tables ∈ L) : DefOnly L s emRehashDef := by
  intro o p y; simp only [emRehashDef]; (repeat' (first | with_reducible rfl | (simp only [drawn1_only, modEm_only, h0, h2]; done) | with_reducible refine onlyA_reply _ _ _ _ _ ?_ | with_reducible refine onlyA_replyLong _ _ _ _ _ ?_ | with_reducible refine onlyA_startOp _ _ _ _ _ _ _ _ _ (by assumption) (by assumption) ?_ | with_reducible refine onlyA_mk _ _ _ _ _ _ _ _ ?_ | split | (with_reducible refine (only_foldl _ (fun y b => ?_) _ _).trans ?_) | (refine ⟨?_, fun z => ?_⟩) | (simp only [])))
theorem execEmRehash_only {L : List Part} {s : State} (a0 : Packet) (a1 : State) (h0 : Part.fenced ∈ L) (h1 : Part.out ∈ L) (h2 : Part.drawn ∈ L) (h3 : Part.owner ∈ L) (h4 : Part.rings ∈ L) (h5 : Part.ops ∈ L) (h6 : Part.hosts ∈ L) (h7 : Part.fns ∈ L) (h8 : Part.tables ∈ L) (hx : changesOnly L s a1) : OnlyO L s (execEmRehash a0 a1) := by
  (simp only [execEmRehash, onlyO_next, hx, runCmd_only, emRehashDef_only, h0, h1, h2, h3, h4, h5, h6, h7, h8]; done)
theorem modLpm_only {L : List Part} {s : State} (a0 : Bool) (a1 : Lpm → Lpm) (a2 : State) (h0 : Part.tables ∈ L) : changesOnly L s (modLpm a0 a1 a2) ↔ changesOnly L s a2 := by
  (simp only [modLpm, iff_self, modTables_only, h0]; done)
theorem lpmAdd_only {L : List Part} {s : State} (a0 : Bool) (a1 : Bool) (a2 : Nat) (a3 : Nat) (a4 : Nat) (a5 : State) (h0 : Part.drawn ∈ L) (h1 : Part.tables ∈ L) : changesOnly L s (lpmAdd a0 a1 a2 a3 a4 a5).2.2 ↔ changesOnly L s a5 := by
  (fun_cases lpmAdd a0 a1 a2 a3 a4 a5 <;> (simp +zetaDelta only [iff_self, drawn1_only, modLpm_only, h0, h1]; done))
theorem lpmDelete_only {L : List Part} {s : State} (a0 : Bool) (a1 : Nat) (a2 : Nat) (a3 : State) (h0 : Part.drawn ∈ L) (h1 : Part.tables ∈ L) : changesOnly L s (lpmDelete a0 a1 a2 a3).2.2 ↔ changesOnly L s a3 := by
  (fun_cases lpmDelete a0 a1 a2 a3 <;> (simp +zetaDelta only [iff_self, drawn1_only, modLpm_only, h0, h1]; done))
theorem lpmLookup_only {L : List Part} {s : State} (a0 : Bool) (a1 : Nat) (a2 : State)  : changesOnly L s (lpmLookup a0 a1 a2).2.2 ↔ changesOnly L s a2 := by
  (fun_cases lpmLookup a0 a1 a2 <;> (simp +zetaDelta only [iff_self]; done))
theorem lpmAddDef_only {L : List Part} {s : State}  (h0 : Part.drawn ∈ L) (h1 : Part.tables ∈ L) : DefOnly L s lpmAddDef := by
  intro o p y; simp only [lpmAddDef]; (repeat' (first | with_reducible rfl | (simp only [lpmAdd_only, h0, h1]; done) | with_reducible refine onlyA_reply _ _ _ _ _ ?_ | with_reducible refine onlyA_replyLong _ _ _ _ _ ?_ | with_reducible refine onlyA_startOp _ _ _ _ _ _ _ _ _ (by assumption) (by assumption) ?_ | with_reducible refine onlyA_mk _ _ _ _ _ _ _ _ ?_ | split | (with_reducible refine (only_foldl _ (fun y b => ?_) _ _).trans ?_) | (refine ⟨?_, fun z => ?_⟩) | (simp only [])))
theorem execLpmAdd_only {L : List Part} {s : State} (a0 : Packet) (a1 : State) (h0 : Part.fenced ∈ L) (h1 : Part.out ∈ L) (h2 : Part.drawn ∈ L) (h3 : Part.owner ∈ L) (h4 : Part.rings ∈ L) (h5 : Part.hosts ∈ L) (h6 : Part.fns ∈ L) (h7 : Part.tables ∈ L) (hx : changesOnly L s a1) : OnlyO L s (execLpmAdd a0 a1) := by
  (simp only [execLpmAdd, onlyO_next, hx, runCmd_only, lpmAddDef_only, h0, h1, h2, h3, h4, h5, h6, h7]; done)
theorem lpmDeleteDef_only {L : List Part} {s : State}  (h0 : Part.drawn ∈ L) (h1 : Part.tables ∈ L) : DefOnly L s lpmDeleteDef := by
  intro o p y; simp only [lpmDeleteDef]; (repeat' (first | with_reducible rfl | (simp only [lpmDelete_only, h0, h1]; done) | with_reducible refine onlyA_reply _ _ _ _ _ ?_ | with_reducible refine onlyA_replyLong _ _ _ _ _ ?_ | with_reducible refine onlyA_startOp _ _ _ _ _ _ _ _ _ (by assumption) (by assumption) ?_ | with_reducible refine onlyA_mk _ _ _ _ _ _ _ _ ?_ | split | (with_reducible refine (only_foldl _ (fun y b => ?_) _ _).trans ?_) | (refine ⟨?_, fun z => ?_⟩) | (simp only [])))
theorem execLpmDelete_only {L : List Part} {s : State} (a0 : Packet) (a1 : State) (h0 : Part.fenced ∈ L) (h1 : Part.out ∈ L) (h2 : Part.drawn ∈ L) (h3 : Part.owner ∈ L) (h4 : Part.rings ∈ L) (h5 : Part.hosts ∈ L) (h6 : Part.fns ∈ L) (h7 : Part.tables ∈ L) (hx : changesOnly L s a1) : OnlyO L s (execLpmDelete a0 a1) := by
  (simp only [execLpmDelete, onlyO_next, hx, runCmd_only, lpmDeleteDef_only, h0, h1, h2, h3, h4, h5, h6, h7]; done)
theorem lpmLookupDef_only {L : List Part} {s : State}   : DefOnly L s lpmLookupDef := by
  intro o p y; simp only [lpmLookupDef]; (repeat' (first | with_reducible rfl | (simp only [only_ite, ite_self, onlyA_ite, lpmLookup_only, replyLong_only]; done) | with_reducible refine onlyA_reply _ _ _ _ _ ?_ | with_reducible refine onlyA_replyLong _ _ _ _ _ ?_ | with_reducible refine onlyA_startOp _ _ _ _ _ _ _ _ _ (by assumption) (by assumption) ?_ | with_reducible refine onlyA_mk _ _ _ _ _ _ _ _ ?_ | split | (with_reducible refine (only_foldl _ (fun y b => ?_) _ _).trans ?_) | (refine ⟨?_, fun z => ?_⟩) | (simp only [])))
theorem execLpmLookup_only {L : List Part} {s : State} (a0 : Packet) (a1 : State) (h0 : Part.fenced ∈ L) (h1 : Part.out ∈ L) (h2 : Part.owner ∈ L) (h3 : Part.rings ∈ L) (h4 : Part.hosts ∈ L) (h5 : Part.fns ∈ L) (hx : changesOnly L s a1) : OnlyO L s (execLpmLookup a0 a1) := by
  (simp only [execLpmLookup, onlyO_next, hx, runCmd_only, lpmLookupDef_only, h0, h1, h2, h3, h4, h5]; done)
theorem lpmLeafPushDef_only {L : List Part} {s : State}  (h0 : Part.drawn ∈ L) (h1 : Part.ops ∈ L) : DefOnly L s lpmLeafPushDef := by
  intro o p y; simp only [lpmLeafPushDef]; (repeat' (first | with_reducible rfl | (simp only [only_ite, ite_self, onlyA_ite, startOp_only, h0, h1]; done) | with_reducible refine onlyA_reply _ _ _ _ _ ?_ | with_reducible refine onlyA_replyLong _ _ _ _ _ ?_ | with_reducible refine onlyA_startOp _ _ _ _ _ _ _ _ _ (by assumption) (by assumption) ?_ | with_reducible refine onlyA_mk _ _ _ _ _ _ _ _ ?_ | split | (with_reducible refine (only_foldl _ (fun y b => ?_) _ _).trans ?_) | (refine ⟨?_, fun z => ?_⟩) | (simp only [])))
theorem execLpmLeafPush_only {L : List Part} {s : State} (a0 : Packet) (a1 : State) (h0 : Part.fenced ∈ L) (h1 : Part.out ∈ L) (h2 : Part.drawn ∈ L) (h3 : Part.owner ∈ L) (h4 : Part.rings ∈ L) (h5 : Part.ops ∈ L) (h6 : Part.hosts ∈ L) (h7 : Part.fns ∈ L) (hx : changesOnly L s a1) : OnlyO L s (execLpmLeafPush a0 a1) := by
  (simp only [execLpmLeafPush, onlyO_next, hx, runCmd_only, lpmLeafPushDef_only, h0, h1, h2, h3, h4, h5, h6, h7]; done)
theorem pushStep_only {L : List Part} {s : State} (a0 : Bool) (a1 : Nat) (a2 : State) (h0 : Part.drawn ∈ L) (h1 : Part.tables ∈ L) : changesOnly L s (pushStep a0 a1 a2).2 ↔ changesOnly L s a2 := by
  (fun_cases pushStep a0 a1 a2 <;> (simp +zetaDelta only [iff_self, drawn1_only, modLpm_only, h0, h1]; done))
theorem tableStatsDef_only {L : List Part} {s : State}   : DefOnly L s tableStatsDef := by
  intro o p y; simp only [tableStatsDef]; (repeat' (first | with_reducible rfl | (simp only [onlyA_ite]; done) | with_reducible refine onlyA_reply _ _ _ _ _ ?_ | with_reducible refine onlyA_replyLong _ _ _ _ _ ?_ | with_reducible refine onlyA_startOp _ _ _ _ _ _ _ _ _ (by assumption) (by assumption) ?_ | with_reducible refine onlyA_mk _ _ _ _ _ _ _ _ ?_ | split | (with_reducible refine (only_foldl _ (fun y b => ?_) _ _).trans ?_) | (refine ⟨?_, fun z => ?_⟩) | (simp only [])))
theorem execTableStats_only {L : List Part} {s : State} (a0 : Packet) (a1 : State) (h0 : Part.fenced ∈ L) (h1 : Part.out ∈ L) (h2 : Part.owner ∈ L) (h3 : Part.rings ∈ L) (h4 : Part.hosts ∈ L) (h5 : Part.fns ∈ L) (hx : changesOnly L s a1) : OnlyO L s (execTableStats a0 a1) := by
  (simp only [execTableStats, onlyO_next, hx, runCmd_only, tableStatsDef_only, h0, h1, h2, h3, h4, h5]; done)
theorem quotaSetDef_only {L : List Part} {s : State}  (h0 : Part.net ∈ L) : DefOnly L s quotaSetDef := by
  intro o p y; simp only [quotaSetDef]; (repeat' (first | with_reducible rfl | (simp only [only_net, h0]; done) | with_reducible refine onlyA_reply _ _ _ _ _ ?_ | with_reducible refine onlyA_replyLong _ _ _ _ _ ?_ | with_reducible refine onlyA_startOp _ _ _ _ _ _ _ _ _ (by assumption) (by assumption) ?_ | with_reducible refine onlyA_mk _ _ _ _ _ _ _ _ ?_ | split | (with_reducible refine (only_foldl _ (fun y b => ?_) _ _).trans ?_) | (refine ⟨?_, fun z => ?_⟩) | (simp only [])))
theorem execQuotaSet_only {L : List Part} {s : State} (a0 : Packet) (a1 : State) (h0 : Part.fenced ∈ L) (h1 : Part.out ∈ L) (h2 : Part.owner ∈ L) (h3 : Part.rings ∈ L) (h4 : Part.hosts ∈ L) (h5 : Part.fns ∈ L) (h6 : Part.net ∈ L) (hx : changesOnly L s a1) : OnlyO L s (execQuotaSet a0 a1) := by
  (simp only [execQuotaSet, onlyO_next, hx, runCmd_only, quotaSetDef_only, h0, h1, h2, h3, h4, h5, h6]; done)
theorem quotaGetDef_only {L : List Part} {s : State}   : DefOnly L s quotaGetDef := by
  intro o p y; simp only [quotaGetDef]; (repeat' (first | with_reducible rfl | (simp only [only_ite, ite_self, onlyA_ite, replyLong_only]; done) | with_reducible refine onlyA_reply _ _ _ _ _ ?_ | with_reducible refine onlyA_replyLong _ _ _ _ _ ?_ | with_reducible refine onlyA_startOp _ _ _ _ _ _ _ _ _ (by assumption) (by assumption) ?_ | with_reducible refine onlyA_mk _ _ _ _ _ _ _ _ ?_ | split | (with_reducible refine (only_foldl _ (fun y b => ?_) _ _).trans ?_) | (refine ⟨?_, fun z => ?_⟩) | (simp only [])))
theorem execQuotaGet_only {L : List Part} {s : State} (a0 : Packet) (a1 : State) (h0 : Part.fenced ∈ L) (h1 : Part.out ∈ L) (h2 : Part.owner ∈ L) (h3 : Part.rings ∈ L) (h4 : Part.hosts ∈ L) (h5 : Part.fns ∈ L) (hx : changesOnly L s a1) : OnlyO L s (execQuotaGet a0 a1) := by
  (simp only [execQuotaGet, onlyO_next, hx, runCmd_only, quotaGetDef_only, h0, h1, h2, h3, h4, h5]; done)
theorem vfQuotaSetDef_only {L : List Part} {s : State}  (h0 : Part.net ∈ L) : DefOnly L s vfQuotaSetDef := by
  intro o p y; simp only [vfQuotaSetDef]; (repeat' (first | with_reducible rfl | (simp only [modUnits_only, h0]; done) | with_reducible refine onlyA_reply _ _ _ _ _ ?_ | with_reducible refine onlyA_replyLong _ _ _ _ _ ?_ | with_reducible refine onlyA_startOp _ _ _ _ _ _ _ _ _ (by assumption) (by assumption) ?_ | with_reducible refine onlyA_mk _ _ _ _ _ _ _ _ ?_ | split | (with_reducible refine (only_foldl _ (fun y b => ?_) _ _).trans ?_) | (refine ⟨?_, fun z => ?_⟩) | (simp only [])))
theorem execVfQuotaSet_only {L : List Part} {s : State} (a0 : Packet) (a1 : State) (h0 : Part.fenced ∈ L) (h1 : Part.out ∈ L) (h2 : Part.owner ∈ L) (h3 : Part.rings ∈ L) (h4 : Part.hosts ∈ L) (h5 : Part.fns ∈ L) (h6 : Part.net ∈ L) (hx : changesOnly L s a1) : OnlyO L s (execVfQuotaSet a0 a1) := by
  (simp only [execVfQuotaSet, onlyO_next, hx, runCmd_only, vfQuotaSetDef_only, h0, h1, h2, h3, h4, h5, h6]; done)
theorem hostDefaultsSetDef_only {L : List Part} {s : State}  (h0 : Part.net ∈ L) : DefOnly L s hostDefaultsSetDef := by
  intro o p y; simp only [hostDefaultsSetDef]; (repeat' (first | with_reducible rfl | (simp only [only_net, h0]; done) | with_reducible refine onlyA_reply _ _ _ _ _ ?_ | with_reducible refine onlyA_replyLong _ _ _ _ _ ?_ | with_reducible refine onlyA_startOp _ _ _ _ _ _ _ _ _ (by assumption) (by assumption) ?_ | with_reducible refine onlyA_mk _ _ _ _ _ _ _ _ ?_ | split | (with_reducible refine (only_foldl _ (fun y b => ?_) _ _).trans ?_) | (refine ⟨?_, fun z => ?_⟩) | (simp only [])))
theorem execHostDefaultsSet_only {L : List Part} {s : State} (a0 : Packet) (a1 : State) (h0 : Part.fenced ∈ L) (h1 : Part.out ∈ L) (h2 : Part.owner ∈ L) (h3 : Part.rings ∈ L) (h4 : Part.hosts ∈ L) (h5 : Part.fns ∈ L) (h6 : Part.net ∈ L) (hx : changesOnly L s a1) : OnlyO L s (execHostDefaultsSet a0 a1) := by
  (simp only [execHostDefaultsSet, onlyO_next, hx, runCmd_only, hostDefaultsSetDef_only, h0, h1, h2, h3, h4, h5, h6]; done)
theorem hostVfLimitDef_only {L : List Part} {s : State}  (h0 : Part.hosts ∈ L) : DefOnly L s hostVfLimitDef := by
  intro o p y; simp only [hostVfLimitDef]; (repeat' (first | with_reducible rfl | (simp only [modLink_only, h0]; done) | with_reducible refine onlyA_reply _ _ _ _ _ ?_ | with_reducible refine onlyA_replyLong _ _ _ _ _ ?_ | with_reducible refine onlyA_startOp _ _ _ _ _ _ _ _ _ (by assumption) (by assumption) ?_ | with_reducible refine onlyA_mk _ _ _ _ _ _ _ _ ?_ | split | (with_reducible refine (only_foldl _ (fun y b => ?_) _ _).trans ?_) | (refine ⟨?_, fun z => ?_⟩) | (simp only [])))
theorem execHostVfLimit_only {L : List Part} {s : State} (a0 : Packet) (a1 : State) (h0 : Part.fenced ∈ L) (h1 : Part.out ∈ L) (h2 : Part.owner ∈ L) (h3 : Part.rings ∈ L) (h4 : Part.hosts ∈ L) (h5 : Part.fns ∈ L) (hx : changesOnly L s a1) : OnlyO L s (execHostVfLimit a0 a1) := by
  (simp only [execHostVfLimit, onlyO_next, hx, runCmd_only, hostVfLimitDef_only, h0, h1, h2, h3, h4, h5]; done)
theorem modHod_only {L : List Part} {s : State} (a0 : Hods → Hods) (a1 : State) (h0 : Part.hod ∈ L) : changesOnly L s (modHod a0 a1) ↔ changesOnly L s a1 := by
  (simp only [modHod, iff_self, h0, only_hod]; done)
theorem freeOne_only {L : List Part} {s : State} (a0 : Nat) (a1 : State) (h0 : Part.hod ∈ L) : changesOnly L s (freeOne a0 a1) ↔ changesOnly L s a1 := by
  (fun_cases freeOne a0 a1 <;> (simp +zetaDelta only [iff_self, modHod_only, h0]; done))
theorem freeHods_only {L : List Part} {s : State} (a0 : List Nat) (a1 : State) (h0 : Part.hod ∈ L) : changesOnly L s (freeHods a0 a1) ↔ changesOnly L s a1 := by
  (simp only [freeHods, only_foldl, iff_self, implies_true, freeOne_only, h0]; done)
theorem shareHods_only {L : List Part} {s : State} (a0 : List Nat) (a1 : State) (h0 : Part.hod ∈ L) : changesOnly L s (shareHods a0 a1) ↔ changesOnly L s a1 := by
  (simp only [shareHods, only_foldl, iff_self, implies_true, modHod_only, h0]; done)
theorem takeHod_only {L : List Part} {s : State} (a0 : Payer) (a1 : Nat) (a2 : State) (h0 : Part.drawn ∈ L) (h1 : Part.hod ∈ L) (h2 : Part.counters ∈ L) : changesOnly L s (takeHod a0 a1 a2) ↔ changesOnly L s a2 := by
  (simp only [takeHod, iff_self, drawn1_only, modHod_only, count_only, h0, h1, h2]; done)
theorem linkChain_only {L : List Part} {s : State} (a0 : List Nat) (a1 : State) (h0 : Part.hod ∈ L) : changesOnly L s (linkChain a0 a1) ↔ changesOnly L s a1 := by
  (fun_induction linkChain a0 a1 <;> (first | (simp only [iff_self]; done) | (simp only [iff_self, modHod_only, *]; done) | (simp [only_foldl, only_ite, ite_self, h0, modHod_only, *]; done)); done)
theorem countExhausted_only {L : List Part} {s : State} (a0 : Refused) (a1 : State) (h0 : Part.counters ∈ L) : changesOnly L s (countExhausted a0 a1) ↔ changesOnly L s a1 := by
  (fun_cases countExhausted a0 a1 <;> (simp +zetaDelta only [iff_self, count_only, h0]; done))
theorem countRefused_only {L : List Part} {s : State} (a0 : Payer) (a1 : Bool) (a2 : Refused) (a3 : State) (h0 : Part.counters ∈ L) : changesOnly L s (countRefused a0 a1 a2 a3) ↔ changesOnly L s a3 := by
  (fun_cases countRefused a0 a1 a2 a3 <;> (simp +zetaDelta only [iff_self, countExhausted_only, count_only, h0]; done))
theorem pair_only {L : List Part} {s x y : State} {α : Type _} {g : α × State} {a : α} (e : g = (a, y)) (h : changesOnly L s g.2 ↔ changesOnly L s x) : changesOnly L s y ↔ changesOnly L s x := by
  rw [e] at h; exact h
theorem chargeHod_only {L : List Part} {s : State} (p : Payer) (x7 : Bool) (h : Nat) (x y : State) (h0 : Part.hod ∈ L) (e : chargeHod p x7 h x = .ok y) : changesOnly L s y ↔ changesOnly L s x := by
  revert e
  unfold chargeHod
  simp only []
  split <;> (try split) <;> (try split) <;> intro e <;> first | (injection e with e; rw [← e]; exact modHod_only _ _ h0) | contradiction
theorem chargeAll_only {L : List Part} {s : State} (p : Payer) (x7 : Bool) (hods : List Nat) (x y : State) (h0 : Part.hod ∈ L) (e : chargeAll p x7 hods x = .ok y) : changesOnly L s y ↔ changesOnly L s x := by
  induction hods generalizing x with
  | nil => injection e with e; rw [e]
  | cons h r ih =>
    unfold chargeAll at e
    split at e
    · contradiction
    · next x' hx => exact (ih x' e).trans (chargeHod_only p x7 h x x' h0 hx)
theorem chargePacket_only {L : List Part} {s : State} (a0 : Payer) (a1 : Bool) (a2 : List Nat) (a3 : State) (h0 : Part.hod ∈ L) (h1 : Part.counters ∈ L) : changesOnly L s (chargePacket a0 a1 a2 a3).2 ↔ changesOnly L s a3 := by
  unfold chargePacket
  split
  · next y e => exact chargeAll_only _ _ _ _ _ h0 e
  · simp only [freeHods_only, countRefused_only, h0, h1]
theorem storeHods_only {L : List Part} {s : State} (a0 : List Nat) (a1 : List Byte) (a2 : State) (h0 : Part.hod ∈ L) : changesOnly L s (storeHods a0 a1 a2) ↔ changesOnly L s a2 := by
  induction a0 generalizing a1 a2 with
  | nil => exact Iff.rfl
  | cons h r ih => exact (ih _ _).trans (modHod_only _ _ h0)
theorem hodViolation_only {L : List Part} {s : State} (a0 : Bool) (a1 : Nat) (a2 : Nat) (a3 : Nat) (a4 : Nat) (a5 : Nat) (a6 : State) (h0 : Part.out ∈ L) (h1 : Part.owner ∈ L) (h2 : Part.rings ∈ L) (h3 : Part.hosts ∈ L) (h4 : Part.fns ∈ L) (h5 : Part.violations ∈ L) (h6 : Part.counters ∈ L) : changesOnly L s (hodViolation a0 a1 a2 a3 a4 a5 a6) ↔ changesOnly L s a6 := by
  (simp only [hodViolation, iff_self, logViolation_only, count_only, h0, h1, h2, h3, h4, h5, h6]; done)
theorem hodApply_only {L : List Part} {s : State} (a0 : State) (h0 : Part.hod ∈ L) : changesOnly L s (hodApply a0) ↔ changesOnly L s a0 := by
  (simp only [hodApply, iff_self, only_ite, ite_self, modHod_only, h0]; done)
theorem execHodCarveApply_only {L : List Part} {s : State} (a0 : State) (h0 : Part.hod ∈ L) (hx : changesOnly L s a0) : OnlyO L s (execHodCarveApply a0) := by
  (simp only [execHodCarveApply, onlyO_next, hx, hodApply_only, h0]; done)
theorem execHodCarveApplyDone_only {L : List Part} {s : State} (a0 : State) (h0 : Part.hod ∈ L) (hx : changesOnly L s a0) : OnlyO L s (execHodCarveApplyDone a0) := by
  (simp only [execHodCarveApplyDone, only_ite, ite_self, onlyO_next, hx, modHod_only, h0]; done)
theorem modCls_only {L : List Part} {s : State} (a0 : ClassBank → ClassBank) (a1 : State) (h0 : Part.cls ∈ L) : changesOnly L s (modCls a0 a1) ↔ changesOnly L s a1 := by
  (simp only [modCls, iff_self, h0, only_cls]; done)
theorem classProfileSetDef_only {L : List Part} {s : State}  (h0 : Part.cls ∈ L) : DefOnly L s classProfileSetDef := by
  intro o p y; simp only [classProfileSetDef]; (repeat' (first | with_reducible rfl | (simp only [modCls_only, h0]; done) | with_reducible refine onlyA_reply _ _ _ _ _ ?_ | with_reducible refine onlyA_replyLong _ _ _ _ _ ?_ | with_reducible refine onlyA_startOp _ _ _ _ _ _ _ _ _ (by assumption) (by assumption) ?_ | with_reducible refine onlyA_mk _ _ _ _ _ _ _ _ ?_ | split | (with_reducible refine (only_foldl _ (fun y b => ?_) _ _).trans ?_) | (refine ⟨?_, fun z => ?_⟩) | (simp only [])))
theorem execClassProfileSet_only {L : List Part} {s : State} (a0 : Packet) (a1 : State) (h0 : Part.fenced ∈ L) (h1 : Part.out ∈ L) (h2 : Part.owner ∈ L) (h3 : Part.rings ∈ L) (h4 : Part.hosts ∈ L) (h5 : Part.fns ∈ L) (h6 : Part.cls ∈ L) (hx : changesOnly L s a1) : OnlyO L s (execClassProfileSet a0 a1) := by
  (simp only [execClassProfileSet, onlyO_next, hx, runCmd_only, classProfileSetDef_only, h0, h1, h2, h3, h4, h5, h6]; done)
theorem classRuleWriteDef_only {L : List Part} {s : State}  (h0 : Part.cls ∈ L) : DefOnly L s classRuleWriteDef := by
  intro o p y; simp only [classRuleWriteDef]; (repeat' (first | with_reducible rfl | (simp only [modCls_only, h0]; done) | with_reducible refine onlyA_reply _ _ _ _ _ ?_ | with_reducible refine onlyA_replyLong _ _ _ _ _ ?_ | with_reducible refine onlyA_startOp _ _ _ _ _ _ _ _ _ (by assumption) (by assumption) ?_ | with_reducible refine onlyA_mk _ _ _ _ _ _ _ _ ?_ | split | (with_reducible refine (only_foldl _ (fun y b => ?_) _ _).trans ?_) | (refine ⟨?_, fun z => ?_⟩) | (simp only [])))
theorem execClassRuleWrite_only {L : List Part} {s : State} (a0 : Packet) (a1 : State) (h0 : Part.fenced ∈ L) (h1 : Part.out ∈ L) (h2 : Part.owner ∈ L) (h3 : Part.rings ∈ L) (h4 : Part.hosts ∈ L) (h5 : Part.fns ∈ L) (h6 : Part.cls ∈ L) (hx : changesOnly L s a1) : OnlyO L s (execClassRuleWrite a0 a1) := by
  (simp only [execClassRuleWrite, onlyO_next, hx, runCmd_only, classRuleWriteDef_only, h0, h1, h2, h3, h4, h5, h6]; done)
theorem classRuleReadDef_only {L : List Part} {s : State}   : DefOnly L s classRuleReadDef := by
  intro o p y; simp only [classRuleReadDef]; (repeat' (first | with_reducible rfl | (simp only [only_ite, ite_self, onlyA_ite, replyLong_only]; done) | with_reducible refine onlyA_reply _ _ _ _ _ ?_ | with_reducible refine onlyA_replyLong _ _ _ _ _ ?_ | with_reducible refine onlyA_startOp _ _ _ _ _ _ _ _ _ (by assumption) (by assumption) ?_ | with_reducible refine onlyA_mk _ _ _ _ _ _ _ _ ?_ | split | (with_reducible refine (only_foldl _ (fun y b => ?_) _ _).trans ?_) | (refine ⟨?_, fun z => ?_⟩) | (simp only [])))
theorem execClassRuleRead_only {L : List Part} {s : State} (a0 : Packet) (a1 : State) (h0 : Part.fenced ∈ L) (h1 : Part.out ∈ L) (h2 : Part.owner ∈ L) (h3 : Part.rings ∈ L) (h4 : Part.hosts ∈ L) (h5 : Part.fns ∈ L) (hx : changesOnly L s a1) : OnlyO L s (execClassRuleRead a0 a1) := by
  (simp only [execClassRuleRead, onlyO_next, hx, runCmd_only, classRuleReadDef_only, h0, h1, h2, h3, h4, h5]; done)
theorem countLoad_only {L : List Part} {s : State} (a0 : HostId) (a1 : Nat) (a2 : Nat) (a3 : State) (h0 : Part.net ∈ L) : changesOnly L s (countLoad a0 a1 a2 a3) ↔ changesOnly L s a3 := by
  (simp only [countLoad, iff_self, h0, only_net]; done)
theorem spreadStage_only {L : List Part} {s : State} (a0 : SpreadUnit) (a1 : HostId) (a2 : Nat) (a3 : FieldVec) (a4 : State) (h0 : Part.net ∈ L) : changesOnly L s (spreadStage a0 a1 a2 a3 a4).2 ↔ changesOnly L s a4 := by
  (fun_cases spreadStage a0 a1 a2 a3 a4 <;> (simp +zetaDelta only [iff_self, countLoad_only, h0]; done))
theorem spreadUnder_only {L : List Part} {s : State} (a0 : HostId) (a1 : SpreadUnit → SpreadUnit) (a2 : State) (h0 : Part.net ∈ L) : changesOnly L s (spreadUnder a0 a1 a2) ↔ changesOnly L s a2 := by
  (simp only [spreadUnder, iff_self, modUnits_only, h0]; done)
theorem spreadSetDef_only {L : List Part} {s : State}  (h0 : Part.net ∈ L) : DefOnly L s spreadSetDef := by
  intro o p y; simp only [spreadSetDef]; (repeat' (first | with_reducible rfl | (simp only [spreadUnder_only, h0]; done) | with_reducible refine onlyA_reply _ _ _ _ _ ?_ | with_reducible refine onlyA_replyLong _ _ _ _ _ ?_ | with_reducible refine onlyA_startOp _ _ _ _ _ _ _ _ _ (by assumption) (by assumption) ?_ | with_reducible refine onlyA_mk _ _ _ _ _ _ _ _ ?_ | split | (with_reducible refine (only_foldl _ (fun y b => ?_) _ _).trans ?_) | (refine ⟨?_, fun z => ?_⟩) | (simp only [])))
theorem execSpreadSet_only {L : List Part} {s : State} (a0 : Packet) (a1 : State) (h0 : Part.fenced ∈ L) (h1 : Part.out ∈ L) (h2 : Part.owner ∈ L) (h3 : Part.rings ∈ L) (h4 : Part.hosts ∈ L) (h5 : Part.fns ∈ L) (h6 : Part.net ∈ L) (hx : changesOnly L s a1) : OnlyO L s (execSpreadSet a0 a1) := by
  (simp only [execSpreadSet, onlyO_next, hx, runCmd_only, spreadSetDef_only, h0, h1, h2, h3, h4, h5, h6]; done)
theorem indirectionSetDef_only {L : List Part} {s : State}  (h0 : Part.net ∈ L) : DefOnly L s indirectionSetDef := by
  intro o p y; simp only [indirectionSetDef]; (repeat' (first | with_reducible rfl | (simp only [spreadUnder_only, h0]; done) | with_reducible refine onlyA_reply _ _ _ _ _ ?_ | with_reducible refine onlyA_replyLong _ _ _ _ _ ?_ | with_reducible refine onlyA_startOp _ _ _ _ _ _ _ _ _ (by assumption) (by assumption) ?_ | with_reducible refine onlyA_mk _ _ _ _ _ _ _ _ ?_ | split | (with_reducible refine (only_foldl _ (fun y b => ?_) _ _).trans ?_) | (refine ⟨?_, fun z => ?_⟩) | (simp only [])))
theorem execIndirectionSet_only {L : List Part} {s : State} (a0 : Packet) (a1 : State) (h0 : Part.fenced ∈ L) (h1 : Part.out ∈ L) (h2 : Part.owner ∈ L) (h3 : Part.rings ∈ L) (h4 : Part.hosts ∈ L) (h5 : Part.fns ∈ L) (h6 : Part.net ∈ L) (hx : changesOnly L s a1) : OnlyO L s (execIndirectionSet a0 a1) := by
  (simp only [execIndirectionSet, onlyO_next, hx, runCmd_only, indirectionSetDef_only, h0, h1, h2, h3, h4, h5, h6]; done)
theorem spreadLoadReadDef_only {L : List Part} {s : State}  (h0 : Part.net ∈ L) : DefOnly L s spreadLoadReadDef := by
  intro o p y; simp only [spreadLoadReadDef]; (repeat' (first | with_reducible rfl | (simp only [only_ite, only_net, h0]; done) | with_reducible refine onlyA_reply _ _ _ _ _ ?_ | with_reducible refine onlyA_replyLong _ _ _ _ _ ?_ | with_reducible refine onlyA_startOp _ _ _ _ _ _ _ _ _ (by assumption) (by assumption) ?_ | with_reducible refine onlyA_mk _ _ _ _ _ _ _ _ ?_ | split | (with_reducible refine (only_foldl _ (fun y b => ?_) _ _).trans ?_) | (refine ⟨?_, fun z => ?_⟩) | (simp only [])))
theorem execSpreadLoadRead_only {L : List Part} {s : State} (a0 : Packet) (a1 : State) (h0 : Part.fenced ∈ L) (h1 : Part.out ∈ L) (h2 : Part.owner ∈ L) (h3 : Part.rings ∈ L) (h4 : Part.hosts ∈ L) (h5 : Part.fns ∈ L) (h6 : Part.net ∈ L) (hx : changesOnly L s a1) : OnlyO L s (execSpreadLoadRead a0 a1) := by
  (simp only [execSpreadLoadRead, onlyO_next, hx, spreadLoadReadDef_only, runCmd_only, h0, h1, h2, h3, h4, h5, h6]; done)
theorem loadAlert_only {L : List Part} {s : State} (a0 : HostId) (a1 : Nat) (a2 : Nat) (a3 : State) (h0 : Part.out ∈ L) (h1 : Part.owner ∈ L) (h2 : Part.rings ∈ L) (h3 : Part.hosts ∈ L) (h4 : Part.fns ∈ L) (h5 : Part.net ∈ L) : changesOnly L s (loadAlert a0 a1 a2 a3) ↔ changesOnly L s a3 := by
  (simp only [loadAlert, iff_self, only_ite, ite_self, raiseOwner_only, raiseRing_only, h0, h1, h2, h3, h4, h5, only_net]; done)
theorem spreadBoundary_only {L : List Part} {s : State} (a0 : State) (h0 : Part.out ∈ L) (h1 : Part.owner ∈ L) (h2 : Part.rings ∈ L) (h3 : Part.hosts ∈ L) (h4 : Part.fns ∈ L) (h5 : Part.net ∈ L) : changesOnly L s (spreadBoundary a0) ↔ changesOnly L s a0 := by
  unfold spreadBoundary
  refine (only_net _ ‹_›).trans ?_
  refine only_foldl _ (fun y b => ?_) _ _
  exact only_foldl _ (fun y b => by simp only [loadAlert_only, h0, h1, h2, h3, h4, h5]) _ _

end Sys2Proof.Machine
end

