-- ==== Sys2Proof/Laws/FrameNet.lean ====
section
/-! SUPPORT. FrameNet.lean: what each definition of the machine may change, for the queues, the scheduler and the Ethernet ports: one lemma `<name>_only` for each, which names the parts of the state it touches. -/

set_option linter.all false

namespace Sys2Proof.Machine
open Sys2Proof

theorem sendRead_only {L : List Part} {s : State} (a0 : HostId) (a1 : Fn) (a2 : Purpose) (a3 : State) (h0 : Part.out ∈ L) (h1 : Part.drawn ∈ L) (h2 : Part.hosts ∈ L) : changesOnly L s (sendRead a0 a1 a2 a3) ↔ changesOnly L s a3 := by
  (simp only [sendRead, iff_self, modLink_only, drawn1_only, emit_only, h0, h1, h2]; done)
theorem issueRead_only {L : List Part} {s : State} (a0 : HostId) (a1 : Fn) (a2 : Purpose) (a3 : State) (h0 : Part.out ∈ L) (h1 : Part.drawn ∈ L) (h2 : Part.hosts ∈ L) : changesOnly L s (issueRead a0 a1 a2 a3) ↔ changesOnly L s a3 := by
  (simp only [issueRead, iff_self, only_ite, ite_self, modLink_only, sendRead_only, h0, h1, h2]; done)
theorem pumpReads_only {L : List Part} {s : State} (a0 : HostId) (a1 : State) (h0 : Part.out ∈ L) (h1 : Part.drawn ∈ L) (h2 : Part.hosts ∈ L) : changesOnly L s (pumpReads a0 a1) ↔ changesOnly L s a1 := by
  (simp only [pumpReads, only_foldl, iff_self, implies_true, only_ite, ite_self, modLink_only, issueRead_only, h0, h1, h2]; done)
theorem endRead_only {L : List Part} {s : State} (a0 : HostId) (a1 : Nat) (a2 : State) (h0 : Part.out ∈ L) (h1 : Part.drawn ∈ L) (h2 : Part.hosts ∈ L) : changesOnly L s (endRead a0 a1 a2) ↔ changesOnly L s a2 := by
  (simp only [endRead, iff_self, modLink_only, pumpReads_only, h0, h1, h2]; done)
theorem abandonReads_only {L : List Part} {s : State} (a0 : HostId) (a1 : Fn → Bool) (a2 : Nat) (a3 : State) (h0 : Part.hosts ∈ L) : changesOnly L s (abandonReads a0 a1 a2 a3) ↔ changesOnly L s a3 := by
  (simp only [abandonReads, iff_self, modLink_only, h0]; done)
theorem cqSignal_only {L : List Part} {s : State} (a0 : HostId) (a1 : Fn) (a2 : Nat) (a3 : Nat) (a4 : State) (h0 : Part.out ∈ L) (h1 : Part.hosts ∈ L) (h2 : Part.fns ∈ L) (h3 : Part.queues ∈ L) : changesOnly L s (cqSignal a0 a1 a2 a3 a4) ↔ changesOnly L s a4 := by
  unfold cqSignal
  rw [signalVector_only _ _ _ _ (by assumption) (by assumption)]
  split <;> simp only [setIntx_only, id, modQueue_only, h0, h1, h3]
theorem putCqe_only {L : List Part} {s : State} (a0 : HostId) (a1 : Fn) (a2 : Nat) (a3 : Queue) (a4 : List Nat) (a5 : State) (h0 : Part.out ∈ L) (h1 : Part.hosts ∈ L) (h2 : Part.fns ∈ L) (h3 : Part.queues ∈ L) : changesOnly L s (putCqe a0 a1 a2 a3 a4 a5) ↔ changesOnly L s a5 := by
  (simp only [putCqe, iff_self, only_ite, ite_self, modQueue_only, cqSignal_only, emit_only, h0, h1, h2, h3]; done)
theorem writeCqe_only {L : List Part} {s : State} (a0 : HostId) (a1 : Fn) (a2 : Nat) (a3 : List Nat) (a4 : State) (h0 : Part.out ∈ L) (h1 : Part.hosts ∈ L) (h2 : Part.fns ∈ L) (h3 : Part.queues ∈ L) : changesOnly L s (writeCqe a0 a1 a2 a3 a4) ↔ changesOnly L s a4 := by
  (fun_cases writeCqe a0 a1 a2 a3 a4 <;> (simp +zetaDelta only [iff_self, modQueue_only, putCqe_only, h0, h1, h2, h3]; done))
theorem drainLate_only {L : List Part} {s : State} (a0 : HostId) (a1 : Fn) (a2 : Nat) (a3 : Nat) (a4 : State) (h0 : Part.out ∈ L) (h1 : Part.hosts ∈ L) (h2 : Part.fns ∈ L) (h3 : Part.queues ∈ L) : changesOnly L s (drainLate a0 a1 a2 a3 a4) ↔ changesOnly L s a4 := by
  (fun_induction drainLate a0 a1 a2 a3 a4 <;> (first | (simp only [iff_self]; done) | (simp only [iff_self, modQueue_only, putCqe_only, *]; done) | (simp [only_foldl, only_ite, ite_self, h0, h1, h2, h3, modQueue_only, putCqe_only, *]; done)); done)
theorem flushTx_only {L : List Part} {s : State} (a0 : HostId) (a1 : Fn) (a2 : Nat) (a3 : Nat) (a4 : List TxCpl) (a5 : State) (h0 : Part.out ∈ L) (h1 : Part.hosts ∈ L) (h2 : Part.fns ∈ L) (h3 : Part.queues ∈ L) : changesOnly L s (flushTx a0 a1 a2 a3 a4 a5) ↔ changesOnly L s a5 := by
  induction a4 generalizing a5 with
  | nil => simp only [flushTx, modQueue_only, h3]
  | cons c r ih =>
    unfold flushTx
    split
    · simp only [modQueue_only, h3]
    · rw [ih, modQueue_only]
      split <;> simp only [writeCqe_only, h0, h1, h2, h3]
      assumption
theorem flushQueue_only {L : List Part} {s : State} (a0 : HostId) (a1 : Fn) (a2 : Nat) (a3 : State) (h0 : Part.out ∈ L) (h1 : Part.hosts ∈ L) (h2 : Part.fns ∈ L) (h3 : Part.queues ∈ L) : changesOnly L s (flushQueue a0 a1 a2 a3) ↔ changesOnly L s a3 := by
  (fun_cases flushQueue a0 a1 a2 a3 <;> (simp +zetaDelta only [iff_self, flushTx_only, h0, h1, h2, h3]; done))
theorem setOutcome_only {L : List Part} {s : State} (a0 : HostId) (a1 : Fn) (a2 : Nat) (a3 : Nat) (a4 : Nat) (a5 : Nat) (a6 : State) (h0 : Part.out ∈ L) (h1 : Part.hosts ∈ L) (h2 : Part.fns ∈ L) (h3 : Part.queues ∈ L) : changesOnly L s (setOutcome a0 a1 a2 a3 a4 a5 a6) ↔ changesOnly L s a6 := by
  (simp only [setOutcome, iff_self, modQueue_only, flushQueue_only, h0, h1, h2, h3]; done)
theorem fetchQueue_only {L : List Part} {s : State} (a0 : HostId) (a1 : Fn) (a2 : Nat) (a3 : State) (h0 : Part.out ∈ L) (h1 : Part.drawn ∈ L) (h2 : Part.hosts ∈ L) (h3 : Part.queues ∈ L) : changesOnly L s (fetchQueue a0 a1 a2 a3) ↔ changesOnly L s a3 := by
  (fun_cases fetchQueue a0 a1 a2 a3 <;> (simp +zetaDelta only [iff_self, modQueue_only, issueRead_only, h0, h1, h2, h3]; done))
theorem kickQueues_only {L : List Part} {s : State} (a0 : HostId → Fn → Bool) (a1 : State) (h0 : Part.out ∈ L) (h1 : Part.drawn ∈ L) (h2 : Part.hosts ∈ L) (h3 : Part.queues ∈ L) : changesOnly L s (kickQueues a0 a1) ↔ changesOnly L s a1 := by
  (simp only [kickQueues, only_foldl, iff_self, implies_true, only_ite, ite_self, fetchQueue_only, h0, h1, h2, h3]; done)
theorem parseTx_only {L : List Part} {s : State} (a0 : HostId) (a1 : Fn) (a2 : Nat) (a3 : Nat) (a4 : State) (h0 : Part.queues ∈ L) : changesOnly L s (parseTx a0 a1 a2 a3 a4) ↔ changesOnly L s a4 := by
  (fun_induction parseTx a0 a1 a2 a3 a4 <;> (first | (simp only [iff_self]; done) | (simp only [iff_self, modQueue_only, *]; done) | (simp [only_foldl, only_ite, ite_self, h0, modQueue_only, *]; done)); done)
theorem raiseFn_only {L : List Part} {s : State} (a0 : HostId) (a1 : Fn) (a2 : Nat) (a3 : Nat) (a4 : Nat) (a5 : List Nat) (a6 : State) (h0 : Part.out ∈ L) (h1 : Part.owner ∈ L) (h2 : Part.rings ∈ L) (h3 : Part.hosts ∈ L) (h4 : Part.fns ∈ L) : changesOnly L s (raiseFn a0 a1 a2 a3 a4 a5 a6) ↔ changesOnly L s a6 := by
  (fun_cases raiseFn a0 a1 a2 a3 a4 a5 a6 <;> (simp +zetaDelta only [iff_self, raiseOwner_only, raiseRing_only, h0, h1, h2, h3, h4]; done))
theorem flushRest_only {L : List Part} {s : State} (a0 : HostId) (a1 : Fn) (a2 : Nat) (a3 : State) (h0 : Part.out ∈ L) (h1 : Part.drawn ∈ L) (h2 : Part.hosts ∈ L) (h3 : Part.fns ∈ L) (h4 : Part.queues ∈ L) (h5 : Part.hod ∈ L) : changesOnly L s (flushRest a0 a1 a2 a3) ↔ changesOnly L s a3 := by
  (fun_cases flushRest a0 a1 a2 a3 <;> (simp +zetaDelta only [only_foldl, iff_self, implies_true, freeHods_only, modQueue_only, flushQueue_only, h0, h1, h2, h3, h4, h5, only_drawn]; done))
theorem failQueue_only {L : List Part} {s : State} (a0 : HostId) (a1 : Fn) (a2 : Nat) (a3 : Nat) (a4 : Nat) (a5 : State) (h0 : Part.out ∈ L) (h1 : Part.drawn ∈ L) (h2 : Part.owner ∈ L) (h3 : Part.rings ∈ L) (h4 : Part.hosts ∈ L) (h5 : Part.fns ∈ L) (h6 : Part.queues ∈ L) (h7 : Part.hod ∈ L) : changesOnly L s (failQueue a0 a1 a2 a3 a4 a5) ↔ changesOnly L s a5 := by
  (fun_cases failQueue a0 a1 a2 a3 a4 a5 <;> (simp +zetaDelta only [iff_self, modQueue_only, raiseFn_only, flushRest_only, h0, h1, h2, h3, h4, h5, h6, h7]; done))
theorem txDescrDone_only {L : List Part} {s : State} (a0 : HostId) (a1 : Fn) (a2 : Nat) (a3 : CplStatus) (a4 : List Byte) (a5 : State) (h0 : Part.out ∈ L) (h1 : Part.drawn ∈ L) (h2 : Part.owner ∈ L) (h3 : Part.rings ∈ L) (h4 : Part.hosts ∈ L) (h5 : Part.fns ∈ L) (h6 : Part.queues ∈ L) (h7 : Part.hod ∈ L) : changesOnly L s (txDescrDone a0 a1 a2 a3 a4 a5) ↔ changesOnly L s a5 := by
  (fun_cases txDescrDone a0 a1 a2 a3 a4 a5 <;> (simp +zetaDelta only [iff_self, failQueue_only, modQueue_only, flushQueue_only, parseTx_only, fetchQueue_only, h0, h1, h2, h3, h4, h5, h6, h7]; done))
theorem rxDescrDone_only {L : List Part} {s : State} (a0 : HostId) (a1 : Fn) (a2 : Nat) (a3 : CplStatus) (a4 : List Byte) (a5 : State) (h0 : Part.out ∈ L) (h1 : Part.drawn ∈ L) (h2 : Part.owner ∈ L) (h3 : Part.rings ∈ L) (h4 : Part.hosts ∈ L) (h5 : Part.fns ∈ L) (h6 : Part.queues ∈ L) (h7 : Part.hod ∈ L) : changesOnly L s (rxDescrDone a0 a1 a2 a3 a4 a5) ↔ changesOnly L s a5 := by
  (fun_cases rxDescrDone a0 a1 a2 a3 a4 a5 <;> (simp +zetaDelta only [iff_self, failQueue_only, modQueue_only, fetchQueue_only, h0, h1, h2, h3, h4, h5, h6, h7]; done))
theorem netDoorbell_only {L : List Part} {s : State} (a0 : Nat → Bool) (a1 : HostId) (a2 : Fn) (a3 : Nat) (a4 : Word) (a5 : State) (h0 : Part.out ∈ L) (h1 : Part.drawn ∈ L) (h2 : Part.hosts ∈ L) (h3 : Part.fns ∈ L) (h4 : Part.queues ∈ L) (hx : changesOnly L s a5) : OnlyO L s (netDoorbell a0 a1 a2 a3 a4 a5) := by
  (fun_cases netDoorbell a0 a1 a2 a3 a4 a5 <;> (simp +zetaDelta only [onlyO_next, onlyO_refused, hx, modQueue_only, drainLate_only, fetchQueue_only, h0, h1, h2, h3, h4]; done))
theorem execTxqDoorbell_only {L : List Part} {s : State} (a0 : HostId) (a1 : Fn) (a2 : BitVec 16) (a3 : Word) (a4 : State) (h0 : Part.out ∈ L) (h1 : Part.drawn ∈ L) (h2 : Part.hosts ∈ L) (h3 : Part.fns ∈ L) (h4 : Part.queues ∈ L) (hx : changesOnly L s a4) : OnlyO L s (execTxqDoorbell a0 a1 a2 a3 a4) := by
  (simp only [execTxqDoorbell, hx, netDoorbell_only, h0, h1, h2, h3, h4]; done)
theorem execRxqDoorbell_only {L : List Part} {s : State} (a0 : HostId) (a1 : Fn) (a2 : BitVec 16) (a3 : Word) (a4 : State) (h0 : Part.out ∈ L) (h1 : Part.drawn ∈ L) (h2 : Part.hosts ∈ L) (h3 : Part.fns ∈ L) (h4 : Part.queues ∈ L) (hx : changesOnly L s a4) : OnlyO L s (execRxqDoorbell a0 a1 a2 a3 a4) := by
  (simp only [execRxqDoorbell, hx, netDoorbell_only, h0, h1, h2, h3, h4]; done)
theorem execCqDoorbell_only {L : List Part} {s : State} (a0 : HostId) (a1 : Fn) (a2 : BitVec 16) (a3 : Word) (a4 : State) (h0 : Part.out ∈ L) (h1 : Part.drawn ∈ L) (h2 : Part.hosts ∈ L) (h3 : Part.fns ∈ L) (h4 : Part.queues ∈ L) (hx : changesOnly L s a4) : OnlyO L s (execCqDoorbell a0 a1 a2 a3 a4) := by
  have h := netDoorbell_only (fun k => k == 3) a0 a1 a2.toNat a3 a4 h0 h1 h2 h3 h4 hx
  unfold execCqDoorbell
  split
  · next t e => simp only [onlyO_next, kickQueues_only, h t e, h0, h1, h2, h4]
  · exact h
theorem execCqCoalesceTimer_only {L : List Part} {s : State} (a0 : HostId) (a1 : Fn) (a2 : BitVec 16) (a3 : State) (h0 : Part.out ∈ L) (h1 : Part.hosts ∈ L) (h2 : Part.fns ∈ L) (h3 : Part.queues ∈ L) (hx : changesOnly L s a3) : OnlyO L s (execCqCoalesceTimer a0 a1 a2 a3) := by
  (unfold execCqCoalesceTimer; (repeat' (first | with_reducible assumption | with_reducible rfl | (simp only [only_ite, ite_self, onlyO_next, hx, cqSignal_only, h0, h1, h2, h3]; done) | split | (with_reducible refine (onlyO_next _ _ _).mpr ?_) | (with_reducible refine (only_foldl _ (fun y b => ?_) _ _).mpr ?_) | (with_reducible refine (only_foldl _ (fun y b => ?_) _ _).trans ?_) | (simp only []))); done)
theorem modSchedBoth_only {L : List Part} {s : State} (a0 : HostId) (a1 : SchedHost → SchedHost) (a2 : State) (h0 : Part.net ∈ L) : changesOnly L s (modSchedBoth a0 a1 a2) ↔ changesOnly L s a2 := by
  (simp only [modSchedBoth, iff_self, modUnits_only, h0]; done)
theorem addLeaf_only {L : List Part} {s : State} (a0 : HostId) (a1 : Nat) (a2 : Fn) (a3 : Nat) (a4 : Nat) (a5 : State) (h0 : Part.net ∈ L) : changesOnly L s (addLeaf a0 a1 a2 a3 a4 a5) ↔ changesOnly L s a5 := by
  (simp only [addLeaf, iff_self, modSchedBoth_only, h0]; done)
theorem dropLeaf_only {L : List Part} {s : State} (a0 : HostId) (a1 : Nat) (a2 : Fn) (a3 : Nat) (a4 : State) (h0 : Part.sched ∈ L) (h1 : Part.net ∈ L) : changesOnly L s (dropLeaf a0 a1 a2 a3 a4) ↔ changesOnly L s a4 := by
  (simp only [dropLeaf, iff_self, modSchedBoth_only, h0, h1, only_sched]; done)
theorem createOne_only {L : List Part} {s : State} (a0 : HostId) (a1 : Fn) (a2 : Packet) (a3 : Nat) (a4 : Nat) (a5 : State) (h0 : Part.queues ∈ L) (h1 : Part.net ∈ L) : changesOnly L s (createOne a0 a1 a2 a3 a4 a5) ↔ changesOnly L s a5 := by
  (fun_cases createOne a0 a1 a2 a3 a4 a5 <;> (simp +zetaDelta only [iff_self, addLeaf_only, h0, h1, only_queues]; done))
theorem removeQueue_only {L : List Part} {s : State} (a0 : HostId) (a1 : Fn) (a2 : Nat) (a3 : State) (h0 : Part.queues ∈ L) (h1 : Part.hod ∈ L) (h2 : Part.sched ∈ L) (h3 : Part.net ∈ L) : changesOnly L s (removeQueue a0 a1 a2 a3) ↔ changesOnly L s a3 := by
  (unfold removeQueue; (repeat' (first | (with_reducible rfl) | (simp only [only_foldl, iff_self, implies_true, freeHods_only, dropLeaf_only, h0, h1, h2, h3, only_queues, only_sched]; done) | split | (with_reducible refine (only_foldl _ (fun y b => ?_) _ _).trans ?_) | (simp only []))); done)
theorem queueCreateDef_only {L : List Part} {s : State}  (h0 : Part.drawn ∈ L) (h1 : Part.queues ∈ L) (h2 : Part.net ∈ L) : DefOnly L s queueCreateDef := by
  intro o p y; simp only [queueCreateDef]; (repeat' (first | with_reducible rfl | (simp only [createOne_only, drawn1_only, h0, h1, h2]; done) | with_reducible refine onlyA_reply _ _ _ _ _ ?_ | with_reducible refine onlyA_replyLong _ _ _ _ _ ?_ | with_reducible refine onlyA_startOp _ _ _ _ _ _ _ _ _ (by assumption) (by assumption) ?_ | with_reducible refine onlyA_mk _ _ _ _ _ _ _ _ ?_ | split | (with_reducible refine (only_foldl _ (fun y b => ?_) _ _).trans ?_) | (refine ⟨?_, fun z => ?_⟩) | (simp only [])))
theorem execQueueCreate_only {L : List Part} {s : State} (a0 : Packet) (a1 : State) (h0 : Part.fenced ∈ L) (h1 : Part.out ∈ L) (h2 : Part.drawn ∈ L) (h3 : Part.owner ∈ L) (h4 : Part.rings ∈ L) (h5 : Part.hosts ∈ L) (h6 : Part.fns ∈ L) (h7 : Part.queues ∈ L) (h8 : Part.net ∈ L) (hx : changesOnly L s a1) : OnlyO L s (execQueueCreate a0 a1) := by
  (simp only [execQueueCreate, onlyO_next, hx, runCmd_only, queueCreateDef_only, h0, h1, h2, h3, h4, h5, h6, h7, h8]; done)
theorem queueDestroyDef_only {L : List Part} {s : State}  (h0 : Part.out ∈ L) (h1 : Part.drawn ∈ L) (h2 : Part.hosts ∈ L) (h3 : Part.fns ∈ L) (h4 : Part.queues ∈ L) (h5 : Part.hod ∈ L) (h6 : Part.sched ∈ L) (h7 : Part.net ∈ L) : DefOnly L s queueDestroyDef := by
  intro o p y; simp only [queueDestroyDef]; (repeat' (first | with_reducible rfl | (simp only [removeQueue_only, flushRest_only, h0, h1, h2, h3, h4, h5, h6, h7]; done) | with_reducible refine onlyA_reply _ _ _ _ _ ?_ | with_reducible refine onlyA_replyLong _ _ _ _ _ ?_ | with_reducible refine onlyA_startOp _ _ _ _ _ _ _ _ _ (by assumption) (by assumption) ?_ | with_reducible refine onlyA_mk _ _ _ _ _ _ _ _ ?_ | split | (with_reducible refine (only_foldl _ (fun y b => ?_) _ _).trans ?_) | (refine ⟨?_, fun z => ?_⟩) | (simp only [])))
theorem execQueueDestroy_only {L : List Part} {s : State} (a0 : Packet) (a1 : State) (h0 : Part.fenced ∈ L) (h1 : Part.out ∈ L) (h2 : Part.drawn ∈ L) (h3 : Part.owner ∈ L) (h4 : Part.rings ∈ L) (h5 : Part.hosts ∈ L) (h6 : Part.fns ∈ L) (h7 : Part.queues ∈ L) (h8 : Part.hod ∈ L) (h9 : Part.sched ∈ L) (h10 : Part.net ∈ L) (hx : changesOnly L s a1) : OnlyO L s (execQueueDestroy a0 a1) := by
  (simp only [execQueueDestroy, onlyO_next, hx, queueDestroyDef_only, runCmd_only, h0, h1, h2, h3, h4, h5, h6, h7, h8, h9, h10]; done)
theorem queueQueryDef_only {L : List Part} {s : State}   : DefOnly L s queueQueryDef := by
  intro o p y; simp only [queueQueryDef]; (repeat' (first | with_reducible rfl | (simp only [only_ite, ite_self, onlyA_ite, replyLong_only]; done) | with_reducible refine onlyA_reply _ _ _ _ _ ?_ | with_reducible refine onlyA_replyLong _ _ _ _ _ ?_ | with_reducible refine onlyA_startOp _ _ _ _ _ _ _ _ _ (by assumption) (by assumption) ?_ | with_reducible refine onlyA_mk _ _ _ _ _ _ _ _ ?_ | split | (with_reducible refine (only_foldl _ (fun y b => ?_) _ _).trans ?_) | (refine ⟨?_, fun z => ?_⟩) | (simp only [])))
theorem execQueueQuery_only {L : List Part} {s : State} (a0 : Packet) (a1 : State) (h0 : Part.fenced ∈ L) (h1 : Part.out ∈ L) (h2 : Part.owner ∈ L) (h3 : Part.rings ∈ L) (h4 : Part.hosts ∈ L) (h5 : Part.fns ∈ L) (hx : changesOnly L s a1) : OnlyO L s (execQueueQuery a0 a1) := by
  (simp only [execQueueQuery, onlyO_next, hx, runCmd_only, queueQueryDef_only, h0, h1, h2, h3, h4, h5]; done)
theorem writeBufs_only {L : List Part} {s : State} (a0 : HostId) (a1 : Fn) (a2 : List RxBuf) (a3 : List Byte) (a4 : State) (h0 : Part.out ∈ L) : changesOnly L s (writeBufs a0 a1 a2 a3 a4) ↔ changesOnly L s a4 := by
  (fun_induction writeBufs a0 a1 a2 a3 a4 <;> (first | (simp only [iff_self]; done) | (simp only [iff_self, emit_only, *]; done) | (simp [only_foldl, only_ite, ite_self, h0, emit_only, *]; done)); done)
theorem deliverRx_only {L : List Part} {s : State} (a0 : HostId) (a1 : Fn) (a2 : Nat) (a3 : Pkt) (a4 : State) (h0 : Part.out ∈ L) (h1 : Part.queues ∈ L) (h2 : Part.hod ∈ L) (h3 : Part.net ∈ L) (h4 : Part.counters ∈ L) : changesOnly L s (deliverRx a0 a1 a2 a3 a4) ↔ changesOnly L s a4 := by
  (fun_cases deliverRx a0 a1 a2 a3 a4 <;> (simp +zetaDelta only [iff_self, only_ite, ite_self, freeHods_only, modQueue_only, writeBufs_only, countFn_only, count_only, h0, h1, h2, h3, h4, only_net]; done))
theorem execRxDeliveryWriteDone_only {L : List Part} {s : State} (a0 : HostId) (a1 : State) (h0 : Part.out ∈ L) (h1 : Part.hosts ∈ L) (h2 : Part.fns ∈ L) (h3 : Part.queues ∈ L) (h4 : Part.hod ∈ L) (h5 : Part.net ∈ L) (hx : changesOnly L s a1) : OnlyO L s (execRxDeliveryWriteDone a0 a1) := by
  (unfold execRxDeliveryWriteDone; (repeat' (first | with_reducible assumption | with_reducible rfl | (simp only [onlyO_next, hx, writeCqe_only, freeHods_only, only_net, h0, h1, h2, h3, h4, h5]; done) | split | (with_reducible refine (onlyO_next _ _ _).mpr ?_) | (with_reducible refine (only_foldl _ (fun y b => ?_) _ _).mpr ?_) | (with_reducible refine (only_foldl _ (fun y b => ?_) _ _).trans ?_) | (simp only []))); done)
theorem modSched_only {L : List Part} {s : State} (a0 : Sched → Sched) (a1 : State) (h0 : Part.sched ∈ L) : changesOnly L s (modSched a0 a1) ↔ changesOnly L s a1 := by
  (simp only [modSched, iff_self, h0, only_sched]; done)
theorem setCredit_only {L : List Part} {s : State} (a0 : Nat) (a1 : Credit) (a2 : State) (h0 : Part.sched ∈ L) : changesOnly L s (setCredit a0 a1 a2) ↔ changesOnly L s a2 := by
  (simp only [setCredit, iff_self, modSched_only, h0]; done)
theorem park_only {L : List Part} {s : State} (a0 : Nat) (a1 : Nat) (a2 : Bool) (a3 : State) (h0 : Part.sched ∈ L) : changesOnly L s (park a0 a1 a2 a3) ↔ changesOnly L s a3 := by
  (simp only [park, iff_self, only_ite, ite_self, modSched_only, h0]; done)
theorem chargeNode_only {L : List Part} {s : State} (a0 : Nat) (a1 : Nat) (a2 : Nat) (a3 : Nat) (a4 : State) (h0 : Part.sched ∈ L) : changesOnly L s (chargeNode a0 a1 a2 a3 a4).2 ↔ changesOnly L s a4 := by
  (fun_cases chargeNode a0 a1 a2 a3 a4 <;> (simp +zetaDelta only [iff_self, park_only, setCredit_only, h0]; done))
theorem activate_only {L : List Part} {s : State} (a0 : PathNode) (a1 : State) (h0 : Part.sched ∈ L) : changesOnly L s (activate a0 a1) ↔ changesOnly L s a1 := by
  (simp only [activate, iff_self, only_ite, ite_self, setCredit_only, h0]; done)
theorem deactivate_only {L : List Part} {s : State} (a0 : PathNode) (a1 : State) (h0 : Part.sched ∈ L) : changesOnly L s (deactivate a0 a1) ↔ changesOnly L s a1 := by
  (simp only [deactivate, iff_self, only_ite, ite_self, setCredit_only, h0]; done)
theorem police_only {L : List Part} {s : State} (a0 : List (Nat × Nat × Nat)) (a1 : Nat) (a2 : State) (h0 : Part.sched ∈ L) (h1 : Part.counters ∈ L) : changesOnly L s (police a0 a1 a2).2 ↔ changesOnly L s a2 := by
  (simp only [police, only_foldl, iff_self, implies_true, only_ite, ite_self, setCredit_only, count_only, h0, h1]; done)
theorem release_only {L : List Part} {s : State} (a0 : Parked → Bool) (a1 : State) (h0 : Part.sched ∈ L) : changesOnly L s (release a0 a1) ↔ changesOnly L s a1 := by
  (simp only [release, iff_self, modSched_only, h0]; done)
theorem execTimingWheelSlotDue_only {L : List Part} {s : State} (a0 : Nat) (a1 : State) (h0 : Part.sched ∈ L) (hx : changesOnly L s a1) : OnlyO L s (execTimingWheelSlotDue a0 a1) := by
  (simp only [execTimingWheelSlotDue, onlyO_next, hx, release_only, h0]; done)
theorem execCoarseSlotDue_only {L : List Part} {s : State} (a0 : Nat) (a1 : State) (h0 : Part.sched ∈ L) (hx : changesOnly L s a1) : OnlyO L s (execCoarseSlotDue a0 a1) := by
  (simp only [execCoarseSlotDue, onlyO_next, hx, modSched_only, h0]; done)
theorem execDtimeStep_only {L : List Part} {s : State} (a0 : Word) (a1 : State) (h0 : Part.dtime ∈ L) (h1 : Part.sched ∈ L) (h2 : Part.counters ∈ L) (hx : changesOnly L s a1) : OnlyO L s (execDtimeStep a0 a1) := by
  (simp only [execDtimeStep, onlyO_next, hx, release_only, count_only, only_dtime, h0, h1, h2]; done)
theorem setNode_only {L : List Part} {s : State} (a0 : Obj) (a1 : Packet) (a2 : State) (h0 : Part.sched ∈ L) (h1 : Part.net ∈ L) : changesOnly L s (setNode a0 a1 a2) ↔ changesOnly L s a2 := by
  (fun_cases setNode a0 a1 a2 <;> (simp +zetaDelta only [iff_self, modSched_only, modUnits_only, h0, h1]; done))
theorem setMap_only {L : List Part} {s : State} (a0 : Obj) (a1 : Packet) (a2 : State) (h0 : Part.sched ∈ L) (h1 : Part.net ∈ L) : changesOnly L s (setMap a0 a1 a2) ↔ changesOnly L s a2 := by
  (fun_cases setMap a0 a1 a2 <;> (simp +zetaDelta only [iff_self, modSched_only, modUnits_only, h0, h1]; done))
theorem schedNodeSetDef_only {L : List Part} {s : State}  (h0 : Part.sched ∈ L) (h1 : Part.net ∈ L) : DefOnly L s schedNodeSetDef := by
  intro o p y; simp only [schedNodeSetDef]; (repeat' (first | with_reducible rfl | (simp only [setNode_only, h0, h1]; done) | with_reducible refine onlyA_reply _ _ _ _ _ ?_ | with_reducible refine onlyA_replyLong _ _ _ _ _ ?_ | with_reducible refine onlyA_startOp _ _ _ _ _ _ _ _ _ (by assumption) (by assumption) ?_ | with_reducible refine onlyA_mk _ _ _ _ _ _ _ _ ?_ | split | (with_reducible refine (only_foldl _ (fun y b => ?_) _ _).trans ?_) | (refine ⟨?_, fun z => ?_⟩) | (simp only [])))
theorem execSchedNodeSet_only {L : List Part} {s : State} (a0 : Packet) (a1 : State) (h0 : Part.fenced ∈ L) (h1 : Part.out ∈ L) (h2 : Part.owner ∈ L) (h3 : Part.rings ∈ L) (h4 : Part.hosts ∈ L) (h5 : Part.fns ∈ L) (h6 : Part.sched ∈ L) (h7 : Part.net ∈ L) (hx : changesOnly L s a1) : OnlyO L s (execSchedNodeSet a0 a1) := by
  (simp only [execSchedNodeSet, onlyO_next, hx, schedNodeSetDef_only, runCmd_only, h0, h1, h2, h3, h4, h5, h6, h7]; done)
theorem schedNodeGetDef_only {L : List Part} {s : State}   : DefOnly L s schedNodeGetDef := by
  intro o p y; simp only [schedNodeGetDef]; (repeat' (first | with_reducible rfl | (simp only [only_ite, ite_self, onlyA_ite, replyLong_only]; done) | with_reducible refine onlyA_reply _ _ _ _ _ ?_ | with_reducible refine onlyA_replyLong _ _ _ _ _ ?_ | with_reducible refine onlyA_startOp _ _ _ _ _ _ _ _ _ (by assumption) (by assumption) ?_ | with_reducible refine onlyA_mk _ _ _ _ _ _ _ _ ?_ | split | (with_reducible refine (only_foldl _ (fun y b => ?_) _ _).trans ?_) | (refine ⟨?_, fun z => ?_⟩) | (simp only [])))
theorem execSchedNodeGet_only {L : List Part} {s : State} (a0 : Packet) (a1 : State) (h0 : Part.fenced ∈ L) (h1 : Part.out ∈ L) (h2 : Part.owner ∈ L) (h3 : Part.rings ∈ L) (h4 : Part.hosts ∈ L) (h5 : Part.fns ∈ L) (hx : changesOnly L s a1) : OnlyO L s (execSchedNodeGet a0 a1) := by
  (simp only [execSchedNodeGet, onlyO_next, hx, runCmd_only, schedNodeGetDef_only, h0, h1, h2, h3, h4, h5]; done)
theorem hostShareSetDef_only {L : List Part} {s : State}  (h0 : Part.sched ∈ L) : DefOnly L s hostShareSetDef := by
  intro o p y; simp only [hostShareSetDef]; (repeat' (first | with_reducible rfl | (simp only [modSched_only, h0]; done) | with_reducible refine onlyA_reply _ _ _ _ _ ?_ | with_reducible refine onlyA_replyLong _ _ _ _ _ ?_ | with_reducible refine onlyA_startOp _ _ _ _ _ _ _ _ _ (by assumption) (by assumption) ?_ | with_reducible refine onlyA_mk _ _ _ _ _ _ _ _ ?_ | split | (with_reducible refine (only_foldl _ (fun y b => ?_) _ _).trans ?_) | (refine ⟨?_, fun z => ?_⟩) | (simp only [])))
theorem execHostShareSet_only {L : List Part} {s : State} (a0 : Packet) (a1 : State) (h0 : Part.fenced ∈ L) (h1 : Part.out ∈ L) (h2 : Part.owner ∈ L) (h3 : Part.rings ∈ L) (h4 : Part.hosts ∈ L) (h5 : Part.fns ∈ L) (h6 : Part.sched ∈ L) (hx : changesOnly L s a1) : OnlyO L s (execHostShareSet a0 a1) := by
  (simp only [execHostShareSet, onlyO_next, hx, runCmd_only, hostShareSetDef_only, h0, h1, h2, h3, h4, h5, h6]; done)
theorem policerSetDef_only {L : List Part} {s : State}  (h0 : Part.sched ∈ L) : DefOnly L s policerSetDef := by
  intro o p y; simp only [policerSetDef]; (repeat' (first | with_reducible rfl | (simp only [modSched_only, h0]; done) | with_reducible refine onlyA_reply _ _ _ _ _ ?_ | with_reducible refine onlyA_replyLong _ _ _ _ _ ?_ | with_reducible refine onlyA_startOp _ _ _ _ _ _ _ _ _ (by assumption) (by assumption) ?_ | with_reducible refine onlyA_mk _ _ _ _ _ _ _ _ ?_ | split | (with_reducible refine (only_foldl _ (fun y b => ?_) _ _).trans ?_) | (refine ⟨?_, fun z => ?_⟩) | (simp only [])))
theorem execPolicerSet_only {L : List Part} {s : State} (a0 : Packet) (a1 : State) (h0 : Part.fenced ∈ L) (h1 : Part.out ∈ L) (h2 : Part.owner ∈ L) (h3 : Part.rings ∈ L) (h4 : Part.hosts ∈ L) (h5 : Part.fns ∈ L) (h6 : Part.sched ∈ L) (hx : changesOnly L s a1) : OnlyO L s (execPolicerSet a0 a1) := by
  (simp only [execPolicerSet, onlyO_next, hx, runCmd_only, policerSetDef_only, h0, h1, h2, h3, h4, h5, h6]; done)
theorem classMapSetDef_only {L : List Part} {s : State}  (h0 : Part.sched ∈ L) (h1 : Part.net ∈ L) : DefOnly L s classMapSetDef := by
  intro o p y; simp only [classMapSetDef]; (repeat' (first | with_reducible rfl | (simp only [setMap_only, h0, h1]; done) | with_reducible refine onlyA_reply _ _ _ _ _ ?_ | with_reducible refine onlyA_replyLong _ _ _ _ _ ?_ | with_reducible refine onlyA_startOp _ _ _ _ _ _ _ _ _ (by assumption) (by assumption) ?_ | with_reducible refine onlyA_mk _ _ _ _ _ _ _ _ ?_ | split | (with_reducible refine (only_foldl _ (fun y b => ?_) _ _).trans ?_) | (refine ⟨?_, fun z => ?_⟩) | (simp only [])))
theorem execClassMapSet_only {L : List Part} {s : State} (a0 : Packet) (a1 : State) (h0 : Part.fenced ∈ L) (h1 : Part.out ∈ L) (h2 : Part.owner ∈ L) (h3 : Part.rings ∈ L) (h4 : Part.hosts ∈ L) (h5 : Part.fns ∈ L) (h6 : Part.sched ∈ L) (h7 : Part.net ∈ L) (hx : changesOnly L s a1) : OnlyO L s (execClassMapSet a0 a1) := by
  (simp only [execClassMapSet, onlyO_next, hx, runCmd_only, classMapSetDef_only, h0, h1, h2, h3, h4, h5, h6, h7]; done)
theorem defaultGroups_only {L : List Part} {s : State} (a0 : HostId) (a1 : State) (h0 : Part.net ∈ L) : changesOnly L s (defaultGroups a0 a1) ↔ changesOnly L s a1 := by
  (fun_cases defaultGroups a0 a1 <;> (simp +zetaDelta only [iff_self, modSchedBoth_only, h0]; done))
theorem freeInflight_only {L : List Part} {s : State} (a0 : Pkt) (a1 : State) (h0 : Part.sched ∈ L) : changesOnly L s (freeInflight a0 a1) ↔ changesOnly L s a1 := by
  (simp only [freeInflight, iff_self, only_ite, ite_self, modSched_only, h0]; done)
theorem endTx_only {L : List Part} {s : State} (a0 : Nat) (a1 : Pkt) (a2 : State) (h0 : Part.out ∈ L) (h1 : Part.hosts ∈ L) (h2 : Part.fns ∈ L) (h3 : Part.queues ∈ L) (h4 : Part.hod ∈ L) (h5 : Part.sched ∈ L) : changesOnly L s (endTx a0 a1 a2) ↔ changesOnly L s a2 := by
  (fun_cases endTx a0 a1 a2 <;> (simp +zetaDelta only [iff_self, freeInflight_only, freeHods_only, setOutcome_only, h0, h1, h2, h3, h4, h5]; done))
theorem dropPkt_only {L : List Part} {s : State} (a0 : Pkt) (a1 : State) (h0 : Part.out ∈ L) (h1 : Part.hosts ∈ L) (h2 : Part.fns ∈ L) (h3 : Part.queues ∈ L) (h4 : Part.hod ∈ L) (h5 : Part.sched ∈ L) : changesOnly L s (dropPkt a0 a1) ↔ changesOnly L s a1 := by
  (fun_cases dropPkt a0 a1 <;> (simp +zetaDelta only [iff_self, freeHods_only, endTx_only, h0, h1, h2, h3, h4, h5]; done))
theorem dropLinkDown_only {L : List Part} {s : State} (a0 : Pkt) (a1 : State) (h0 : Part.out ∈ L) (h1 : Part.hosts ∈ L) (h2 : Part.fns ∈ L) (h3 : Part.queues ∈ L) (h4 : Part.hod ∈ L) (h5 : Part.sched ∈ L) (h6 : Part.counters ∈ L) : changesOnly L s (dropLinkDown a0 a1) ↔ changesOnly L s a1 := by
  (simp only [dropLinkDown, iff_self, endTx_only, count_only, h0, h1, h2, h3, h4, h5, h6]; done)
theorem queueFrame_only {L : List Part} {s : State} (a0 : Pkt) (a1 : State) (h0 : Part.out ∈ L) (h1 : Part.hosts ∈ L) (h2 : Part.fns ∈ L) (h3 : Part.queues ∈ L) (h4 : Part.hod ∈ L) (h5 : Part.sched ∈ L) (h6 : Part.net ∈ L) (h7 : Part.counters ∈ L) : changesOnly L s (queueFrame a0 a1) ↔ changesOnly L s a1 := by
  (simp only [queueFrame, iff_self, only_ite, ite_self, dropLinkDown_only, endTx_only, h0, h1, h2, h3, h4, h5, h6, h7, only_net]; done)
theorem dropPortQueue_only {L : List Part} {s : State} (a0 : Lane) (a1 : State) (h0 : Part.out ∈ L) (h1 : Part.hosts ∈ L) (h2 : Part.fns ∈ L) (h3 : Part.queues ∈ L) (h4 : Part.hod ∈ L) (h5 : Part.sched ∈ L) (h6 : Part.net ∈ L) (h7 : Part.counters ∈ L) : changesOnly L s (dropPortQueue a0 a1) ↔ changesOnly L s a1 := by
  (simp only [dropPortQueue, only_foldl, iff_self, implies_true, dropLinkDown_only, h0, h1, h2, h3, h4, h5, h6, h7, only_net]; done)
theorem forwardTo_only {L : List Part} {s : State} (a0 : Nat) (a1 : Nat) (a2 : Pkt) (a3 : State) (h0 : Part.sched ∈ L) : changesOnly L s (forwardTo a0 a1 a2 a3) ↔ changesOnly L s a3 := by
  (simp only [forwardTo, only_foldl, iff_self, implies_true, activate_only, modSched_only, h0]; done)
theorem mirrorPkt_only {L : List Part} {s : State} (a0 : Pkt) (a1 : State) (h0 : Part.hod ∈ L) (h1 : Part.sched ∈ L) : changesOnly L s (mirrorPkt a0 a1) ↔ changesOnly L s a1 := by
  (fun_cases mirrorPkt a0 a1 <;> (simp +zetaDelta only [iff_self, freeHods_only, forwardTo_only, h0, h1]; done))
theorem mirrorCopy_only {L : List Part} {s : State} (a0 : Pkt) (a1 : State) (h0 : Part.hod ∈ L) (h1 : Part.sched ∈ L) : changesOnly L s (mirrorCopy a0 a1) ↔ changesOnly L s a1 := by
  (simp only [mirrorCopy, iff_self, only_ite, ite_self, shareHods_only, mirrorPkt_only, h0, h1]; done)
theorem enterPipe_only {L : List Part} {s : State} (a0 : Nat) (a1 : Pkt) (a2 : State) (h0 : Part.net ∈ L) (h1 : Part.counters ∈ L) : changesOnly L s (enterPipe a0 a1 a2) ↔ changesOnly L s a2 := by
  (simp only [enterPipe, iff_self, count_only, h0, h1, only_net]; done)
theorem handOver7_only {L : List Part} {s : State} (a0 : Nat) (a1 : Nat) (a2 : State) (h0 : Part.sched ∈ L) (h1 : Part.net ∈ L) (h2 : Part.counters ∈ L) : changesOnly L s (handOver7 a0 a1 a2) ↔ changesOnly L s a2 := by
  (fun_induction handOver7 a0 a1 a2 <;> (first | (simp only [iff_self]; done) | (simp only [iff_self, enterPipe_only, modSched_only, *]; done) | (simp [only_foldl, only_ite, ite_self, h0, h1, h2, enterPipe_only, modSched_only, *]; done)); done)
theorem handOver_only {L : List Part} {s : State} (a0 : Nat) (a1 : State) (h0 : Part.sched ∈ L) (h1 : Part.net ∈ L) (h2 : Part.counters ∈ L) : changesOnly L s (handOver a0 a1) ↔ changesOnly L s a1 := by
  (simp only [handOver, iff_self, handOver7_only, h0, h1, h2]; done)
theorem sendOn_only {L : List Part} {s : State} (a0 : Pkt) (a1 : State) (h0 : Part.sched ∈ L) (h1 : Part.net ∈ L) (h2 : Part.counters ∈ L) : changesOnly L s (sendOn a0 a1) ↔ changesOnly L s a1 := by
  (simp only [sendOn, iff_self, only_ite, ite_self, modSched_only, handOver_only, enterPipe_only, h0, h1, h2]; done)
theorem modPipe_only {L : List Part} {s : State} (a0 : Nat) (a1 : PipeState → PipeState) (a2 : State) (h0 : Part.net ∈ L) : changesOnly L s (modPipe a0 a1 a2) ↔ changesOnly L s a2 := by
  (simp only [modPipe, iff_self, h0, only_net]; done)
theorem modPort_only {L : List Part} {s : State} (a0 : Lane) (a1 : EthPort → EthPort) (a2 : State) (h0 : Part.eth ∈ L) : changesOnly L s (modPort a0 a1 a2) ↔ changesOnly L s a2 := by
  (simp only [modPort, iff_self, h0, only_eth]; done)
theorem modGroup_only {L : List Part} {s : State} (a0 : Group) (a1 : EthGroup → EthGroup) (a2 : State) (h0 : Part.eth ∈ L) : changesOnly L s (modGroup a0 a1 a2) ↔ changesOnly L s a2 := by
  (simp only [modGroup, iff_self, h0, only_eth]; done)
theorem raisePort_only {L : List Part} {s : State} (a0 : Lane) (a1 : LinkState) (a2 : LinkState) (a3 : Nat) (a4 : State) (h0 : Part.owner ∈ L) : changesOnly L s (raisePort a0 a1 a2 a3 a4) ↔ changesOnly L s a4 := by
  (simp only [raisePort, iff_self, raiseOwner_only, h0]; done)
theorem raisePortFail_only {L : List Part} {s : State} (a0 : Lane) (a1 : LinkState) (a2 : LinkState) (a3 : Nat) (a4 : State) (h0 : Part.owner ∈ L) (h1 : Part.eth ∈ L) : changesOnly L s (raisePortFail a0 a1 a2 a3 a4) ↔ changesOnly L s a4 := by
  (simp only [raisePortFail, iff_self, only_ite, ite_self, modPort_only, raisePort_only, h0, h1]; done)
theorem clearPortCounters_only {L : List Part} {s : State} (a0 : Lane) (a1 : State) (h0 : Part.counters ∈ L) : changesOnly L s (clearPortCounters a0 a1) ↔ changesOnly L s a1 := by
  (simp only [clearPortCounters, only_foldl, iff_self, implies_true, setCounter_only, h0]; done)
theorem stopPort_only {L : List Part} {s : State} (a0 : Lane) (a1 : State) (h0 : Part.out ∈ L) (h1 : Part.hosts ∈ L) (h2 : Part.fns ∈ L) (h3 : Part.queues ∈ L) (h4 : Part.eth ∈ L) (h5 : Part.hod ∈ L) (h6 : Part.sched ∈ L) (h7 : Part.net ∈ L) (h8 : Part.counters ∈ L) : changesOnly L s (stopPort a0 a1) ↔ changesOnly L s a1 := by
  (simp only [stopPort, iff_self, modPort_only, clearPortCounters_only, dropPortQueue_only, h0, h1, h2, h3, h4, h5, h6, h7, h8]; done)
theorem bringUp_only {L : List Part} {s : State} (a0 : Lane) (a1 : State) (h0 : Part.eth ∈ L) : changesOnly L s (bringUp a0 a1) ↔ changesOnly L s a1 := by
  (simp only [bringUp, iff_self, modPort_only, h0]; done)
theorem ethApply_only {L : List Part} {s : State} (a0 : Group) (a1 : State) (h0 : Part.out ∈ L) (h1 : Part.hosts ∈ L) (h2 : Part.fns ∈ L) (h3 : Part.queues ∈ L) (h4 : Part.eth ∈ L) (h5 : Part.hod ∈ L) (h6 : Part.sched ∈ L) (h7 : Part.net ∈ L) (h8 : Part.counters ∈ L) : changesOnly L s (ethApply a0 a1) ↔ changesOnly L s a1 := by
  (simp only [ethApply, only_foldl, iff_self, implies_true, only_ite, ite_self, modGroup_only, stopPort_only, h0, h1, h2, h3, h4, h5, h6, h7, h8]; done)
theorem execEthApply_only {L : List Part} {s : State} (a0 : Group) (a1 : State) (h0 : Part.out ∈ L) (h1 : Part.hosts ∈ L) (h2 : Part.fns ∈ L) (h3 : Part.queues ∈ L) (h4 : Part.eth ∈ L) (h5 : Part.hod ∈ L) (h6 : Part.sched ∈ L) (h7 : Part.net ∈ L) (h8 : Part.counters ∈ L) (hx : changesOnly L s a1) : OnlyO L s (execEthApply a0 a1) := by
  (simp only [execEthApply, onlyO_next, hx, ethApply_only, h0, h1, h2, h3, h4, h5, h6, h7, h8]; done)
theorem saveLayout_only {L : List Part} {s : State} (a0 : Group) (a1 : State) (h0 : Part.nv ∈ L) : changesOnly L s (saveLayout a0 a1) ↔ changesOnly L s a1 := by
  (simp only [saveLayout, iff_self, h0, only_nv, sameFuses_iff, eq_self, and_self]; done)
theorem ethApplyDone_only {L : List Part} {s : State} (a0 : Nat) (a1 : Group) (a2 : State) (h0 : Part.nv ∈ L) (h1 : Part.owner ∈ L) (h2 : Part.eth ∈ L) : changesOnly L s (ethApplyDone a0 a1 a2) ↔ changesOnly L s a2 := by
  (simp only [ethApplyDone, only_foldl, iff_self, implies_true, only_ite, ite_self, raisePort_only, modGroup_only, bringUp_only, saveLayout_only, h0, h1, h2]; done)
theorem execEthApplyDone_only {L : List Part} {s : State} (a0 : Group) (a1 : State) (h0 : Part.nv ∈ L) (h1 : Part.owner ∈ L) (h2 : Part.eth ∈ L) (hx : changesOnly L s a1) : OnlyO L s (execEthApplyDone a0 a1) := by
  (simp only [execEthApplyDone, onlyO_next, hx, ethApplyDone_only, h0, h1, h2]; done)
theorem applyRecord_only {L : List Part} {s : State} (a0 : Group) (a1 : State) (h0 : Part.out ∈ L) (h1 : Part.hosts ∈ L) (h2 : Part.fns ∈ L) (h3 : Part.queues ∈ L) (h4 : Part.eth ∈ L) (h5 : Part.hod ∈ L) (h6 : Part.sched ∈ L) (h7 : Part.net ∈ L) (h8 : Part.counters ∈ L) : changesOnly L s (applyRecord a0 a1) ↔ changesOnly L s a1 := by
  (fun_cases applyRecord a0 a1 <;> (simp +zetaDelta only [iff_self, ethApply_only, h0, h1, h2, h3, h4, h5, h6, h7, h8, only_eth]; done))
theorem movePort_only {L : List Part} {s : State} (a0 : Lane) (a1 : LinkState) (a2 : LinkState) (a3 : State) (h0 : Part.eth ∈ L) : changesOnly L s (movePort a0 a1 a2 a3) ↔ changesOnly L s a3 := by
  (simp only [movePort, iff_self, only_ite, ite_self, modPort_only, h0]; done)
theorem enterUp_only {L : List Part} {s : State} (a0 : Lane) (a1 : State) (h0 : Part.owner ∈ L) (h1 : Part.eth ∈ L) (h2 : Part.counters ∈ L) : changesOnly L s (enterUp a0 a1) ↔ changesOnly L s a1 := by
  (simp only [enterUp, iff_self, modPort_only, raisePort_only, count_only, h0, h1, h2]; done)
theorem execAnComplete_only {L : List Part} {s : State} (a0 : Lane) (a1 : Option AnPage) (a2 : State) (h0 : Part.owner ∈ L) (h1 : Part.eth ∈ L) (hx : changesOnly L s a2) : OnlyO L s (execAnComplete a0 a1 a2) := by
  (unfold execAnComplete; (repeat' (first | with_reducible assumption | with_reducible rfl | (simp only [only_ite, ite_self, onlyO_next, hx, modPort_only, raisePortFail_only, h0, h1]; done) | split | (with_reducible refine (onlyO_next _ _ _).mpr ?_) | (with_reducible refine (only_foldl _ (fun y b => ?_) _ _).mpr ?_) | (with_reducible refine (only_foldl _ (fun y b => ?_) _ _).trans ?_) | (simp only []))); done)
theorem execAnFailedRestart_only {L : List Part} {s : State} (a0 : Lane) (a1 : State) (h0 : Part.eth ∈ L) (hx : changesOnly L s a1) : OnlyO L s (execAnFailedRestart a0 a1) := by
  (simp only [execAnFailedRestart, only_ite, ite_self, onlyO_next, hx, modPort_only, h0]; done)
theorem execTrainingDone_only {L : List Part} {s : State} (a0 : Lane) (a1 : Bool) (a2 : State) (h0 : Part.owner ∈ L) (h1 : Part.eth ∈ L) (hx : changesOnly L s a2) : OnlyO L s (execTrainingDone a0 a1 a2) := by
  (simp only [execTrainingDone, only_ite, ite_self, onlyO_next, hx, modPort_only, raisePortFail_only, h0, h1]; done)
theorem execAlignmentDone_only {L : List Part} {s : State} (a0 : Lane) (a1 : State) (h0 : Part.owner ∈ L) (h1 : Part.eth ∈ L) (h2 : Part.counters ∈ L) (hx : changesOnly L s a1) : OnlyO L s (execAlignmentDone a0 a1) := by
  (simp only [execAlignmentDone, only_ite, ite_self, onlyO_next, hx, enterUp_only, h0, h1, h2]; done)
theorem execFaultSequencesReceived_only {L : List Part} {s : State} (a0 : Lane) (a1 : FaultSeq) (a2 : State) (h0 : Part.out ∈ L) (h1 : Part.owner ∈ L) (h2 : Part.eth ∈ L) (h3 : Part.counters ∈ L) (hx : changesOnly L s a2) : OnlyO L s (execFaultSequencesReceived a0 a1 a2) := by
  (unfold execFaultSequencesReceived; (repeat' (first | with_reducible assumption | with_reducible rfl | (simp only [only_ite, ite_self, onlyO_next, hx, modPort_only, raisePort_only, emit_only, count_only, h0, h1, h2, h3]; done) | split | (with_reducible refine (onlyO_next _ _ _).mpr ?_) | (with_reducible refine (only_foldl _ (fun y b => ?_) _ _).mpr ?_) | (with_reducible refine (only_foldl _ (fun y b => ?_) _ _).trans ?_) | (simp only []))); done)
theorem execFaultSequencesStop_only {L : List Part} {s : State} (a0 : Lane) (a1 : State) (h0 : Part.owner ∈ L) (h1 : Part.eth ∈ L) (h2 : Part.counters ∈ L) (hx : changesOnly L s a1) : OnlyO L s (execFaultSequencesStop a0 a1) := by
  (simp only [execFaultSequencesStop, only_ite, ite_self, onlyO_next, hx, enterUp_only, h0, h1, h2]; done)
theorem loseAlignment_only {L : List Part} {s : State} (a0 : Lane) (a1 : AlignLoss) (a2 : State) (h0 : Part.owner ∈ L) (h1 : Part.eth ∈ L) (h2 : Part.counters ∈ L) : changesOnly L s (loseAlignment a0 a1 a2) ↔ changesOnly L s a2 := by
  (simp only [loseAlignment, only_foldl, iff_self, implies_true, only_ite, ite_self, modPort_only, raisePort_only, count_only, h0, h1, h2]; done)
theorem execAlignmentLost_only {L : List Part} {s : State} (a0 : Lane) (a1 : AlignLoss) (a2 : State) (h0 : Part.owner ∈ L) (h1 : Part.eth ∈ L) (h2 : Part.counters ∈ L) (hx : changesOnly L s a2) : OnlyO L s (execAlignmentLost a0 a1 a2) := by
  (simp only [execAlignmentLost, onlyO_next, hx, loseAlignment_only, h0, h1, h2]; done)
theorem execAlignmentReturnInHold_only {L : List Part} {s : State} (a0 : Lane) (a1 : State) (h0 : Part.eth ∈ L) (h1 : Part.counters ∈ L) (hx : changesOnly L s a1) : OnlyO L s (execAlignmentReturnInHold a0 a1) := by
  (simp only [execAlignmentReturnInHold, only_ite, ite_self, onlyO_next, hx, modPort_only, count_only, h0, h1]; done)
theorem execHoldoffExpiry_only {L : List Part} {s : State} (a0 : Lane) (a1 : State) (h0 : Part.owner ∈ L) (h1 : Part.eth ∈ L) (hx : changesOnly L s a1) : OnlyO L s (execHoldoffExpiry a0 a1) := by
  (simp only [execHoldoffExpiry, only_ite, ite_self, onlyO_next, hx, modPort_only, raisePort_only, h0, h1]; done)
theorem laneFault_only {L : List Part} {s : State} (a0 : Lane) (a1 : State) (h0 : Part.out ∈ L) (h1 : Part.nv ∈ L) (h2 : Part.owner ∈ L) (h3 : Part.hosts ∈ L) (h4 : Part.fns ∈ L) (h5 : Part.queues ∈ L) (h6 : Part.eth ∈ L) (h7 : Part.hod ∈ L) (h8 : Part.sched ∈ L) (h9 : Part.net ∈ L) (h10 : Part.counters ∈ L) : changesOnly L s (laneFault a0 a1) ↔ changesOnly L s a1 := by
  (fun_cases laneFault a0 a1 <;> (simp +zetaDelta only [iff_self, raisePort_only, modGroup_only, bringUp_only, stopPort_only, saveLayout_only, h0, h1, h2, h3, h4, h5, h6, h7, h8, h9, h10, only_eth]; done))
theorem execEthLaneFault_only {L : List Part} {s : State} (a0 : Lane) (a1 : State) (h0 : Part.out ∈ L) (h1 : Part.nv ∈ L) (h2 : Part.glb ∈ L) (h3 : Part.owner ∈ L) (h4 : Part.hosts ∈ L) (h5 : Part.fns ∈ L) (h6 : Part.queues ∈ L) (h7 : Part.eth ∈ L) (h8 : Part.hod ∈ L) (h9 : Part.sched ∈ L) (h10 : Part.net ∈ L) (h11 : Part.degr ∈ L) (h12 : Part.counters ∈ L) (hx : changesOnly L s a1) : OnlyO L s (execEthLaneFault a0 a1) := by
  (simp only [execEthLaneFault, only_ite, ite_self, onlyO_next, hx, laneFault_only, unitLost_only, h0, h1, h2, h3, h4, h5, h6, h7, h8, h9, h10, h11, h12]; done)
theorem disablePort_only {L : List Part} {s : State} (a0 : Nat) (a1 : Lane) (a2 : State) (h0 : Part.out ∈ L) (h1 : Part.owner ∈ L) (h2 : Part.hosts ∈ L) (h3 : Part.fns ∈ L) (h4 : Part.queues ∈ L) (h5 : Part.eth ∈ L) (h6 : Part.hod ∈ L) (h7 : Part.sched ∈ L) (h8 : Part.net ∈ L) (h9 : Part.counters ∈ L) : changesOnly L s (disablePort a0 a1 a2) ↔ changesOnly L s a2 := by
  (simp only [disablePort, iff_self, only_ite, ite_self, modPort_only, raisePort_only, dropPortQueue_only, h0, h1, h2, h3, h4, h5, h6, h7, h8, h9]; done)
theorem disableGroup_only {L : List Part} {s : State} (a0 : Nat) (a1 : Group) (a2 : State) (h0 : Part.out ∈ L) (h1 : Part.owner ∈ L) (h2 : Part.hosts ∈ L) (h3 : Part.fns ∈ L) (h4 : Part.queues ∈ L) (h5 : Part.eth ∈ L) (h6 : Part.hod ∈ L) (h7 : Part.sched ∈ L) (h8 : Part.net ∈ L) (h9 : Part.counters ∈ L) : changesOnly L s (disableGroup a0 a1 a2) ↔ changesOnly L s a2 := by
  (simp only [disableGroup, only_foldl, iff_self, implies_true, disablePort_only, h0, h1, h2, h3, h4, h5, h6, h7, h8, h9]; done)
theorem execDtimeRateWrite_only {L : List Part} {s : State} (a0 : Word) (a1 : State) (h0 : Part.eth ∈ L) (hx : changesOnly L s a1) : OnlyO L s (execDtimeRateWrite a0 a1) := by
  (simp only [execDtimeRateWrite, onlyO_next, hx, only_eth, h0]; done)

end Sys2Proof.Machine
end

