-- ==== Sys2Proof/Laws/FrameCore.lean ====
section
/-! SUPPORT. FrameCore.lean: what each definition of the machine may change, for the core clusters and the key store: one lemma `<name>_only` for each, which names the parts of the state it touches. -/

set_option linter.all false

namespace Sys2Proof.Machine
open Sys2Proof

theorem modDram_only {L : List Part} {s : State} (a0 : Dram → Dram) (a1 : State) (h0 : Part.dram ∈ L) : changesOnly L s (modDram a0 a1) ↔ changesOnly L s a1 := by
  (simp only [modDram, iff_self, h0, only_dram]; done)
theorem modChan_only {L : List Part} {s : State} (a0 : Nat) (a1 : DramChan → DramChan) (a2 : State) (h0 : Part.dram ∈ L) : changesOnly L s (modChan a0 a1 a2) ↔ changesOnly L s a2 := by
  (simp only [modChan, iff_self, modDram_only, h0]; done)
theorem modCores_only {L : List Part} {s : State} (a0 : Cores → Cores) (a1 : State) (h0 : Part.cores ∈ L) : changesOnly L s (modCores a0 a1) ↔ changesOnly L s a1 := by
  (simp only [modCores, iff_self, h0, only_cores]; done)
theorem breakReserved_only {L : List Part} {s : State} (a0 : Nat × Nat) (a1 : Nat) (a2 : State) (h0 : Part.cores ∈ L) : changesOnly L s (breakReserved a0 a1 a2) ↔ changesOnly L s a2 := by
  (simp only [breakReserved, iff_self, modCores_only, h0]; done)
theorem cleanPoison_only {L : List Part} {s : State} (a0 : Nat × Nat) (a1 : Nat) (a2 : State) (h0 : Part.cores ∈ L) : changesOnly L s (cleanPoison a0 a1 a2) ↔ changesOnly L s a2 := by
  (simp only [cleanPoison, iff_self, modCores_only, h0]; done)
theorem poisonAt_only {L : List Part} {s : State} (a0 : Nat × Nat) (a1 : Nat) (a2 : State) (h0 : Part.cores ∈ L) : changesOnly L s (poisonAt a0 a1 a2) ↔ changesOnly L s a2 := by
  (simp only [poisonAt, iff_self, modCores_only, h0]; done)
theorem writeMem_only {L : List Part} {s : State} (a0 : Nat) (a1 : Nat) (a2 : List Byte) (a3 : State) (h0 : Part.cores ∈ L) : changesOnly L s (writeMem a0 a1 a2 a3) ↔ changesOnly L s a3 := by
  (simp only [writeMem, iff_self, modCores_only, h0]; done)
theorem writeAt_only {L : List Part} {s : State} (a0 : Nat) (a1 : Region) (a2 : List Byte) (a3 : State) (h0 : Part.hod ∈ L) (h1 : Part.cores ∈ L) (h2 : Part.dram ∈ L) : changesOnly L s (writeAt a0 a1 a2 a3) ↔ changesOnly L s a3 := by
  (fun_cases writeAt a0 a1 a2 a3 <;> (simp +zetaDelta only [iff_self, writeMem_only, modDram_only, breakReserved_only, cleanPoison_only, h0, h1, h2, only_hod]; done))
theorem modCore_only {L : List Part} {s : State} (a0 : Nat) (a1 : Core → Core) (a2 : State) (h0 : Part.cores ∈ L) : changesOnly L s (modCore a0 a1 a2) ↔ changesOnly L s a2 := by
  (simp only [modCore, iff_self, modCores_only, h0]; done)
theorem modThread_only {L : List Part} {s : State} (a0 : Nat) (a1 : Nat) (a2 : Thread → Thread) (a3 : State) (h0 : Part.cores ∈ L) : changesOnly L s (modThread a0 a1 a2 a3) ↔ changesOnly L s a3 := by
  (simp only [modThread, iff_self, modCore_only, h0]; done)
theorem freeThread_only {L : List Part} {s : State} (a0 : Nat) (a1 : Nat) (a2 : State) (h0 : Part.cores ∈ L) : changesOnly L s (freeThread a0 a1 a2) ↔ changesOnly L s a2 := by
  (simp only [freeThread, iff_self, modCore_only, h0]; done)
theorem modCluster_only {L : List Part} {s : State} (a0 : Nat) (a1 : ClusterSt → ClusterSt) (a2 : State) (h0 : Part.cores ∈ L) : changesOnly L s (modCluster a0 a1 a2) ↔ changesOnly L s a2 := by
  (simp only [modCluster, iff_self, modCores_only, h0]; done)
theorem countCore_only {L : List Part} {s : State} (a0 : Nat) (a1 : Nat) (a2 : State) (h0 : Part.counters ∈ L) : changesOnly L s (countCore a0 a1 a2) ↔ changesOnly L s a2 := by
  (simp only [countCore, iff_self, count_only, h0]; done)
theorem drainOne_only {L : List Part} {s : State} (a0 : Nat) (a1 : Nat) (a2 : State) (h0 : Part.hod ∈ L) (h1 : Part.cores ∈ L) (h2 : Part.dram ∈ L) : changesOnly L s (drainOne a0 a1 a2) ↔ changesOnly L s a2 := by
  (fun_cases drainOne a0 a1 a2 <;> (simp +zetaDelta only [iff_self, modThread_only, writeAt_only, h0, h1, h2]; done))
theorem drainAll_only {L : List Part} {s : State} (a0 : Nat) (a1 : Nat) (a2 : State) (h0 : Part.hod ∈ L) (h1 : Part.cores ∈ L) (h2 : Part.dram ∈ L) : changesOnly L s (drainAll a0 a1 a2) ↔ changesOnly L s a2 := by
  (simp only [drainAll, only_foldl, iff_self, implies_true, drainOne_only, h0, h1, h2]; done)
theorem settle_only {L : List Part} {s : State} (a0 : Nat) (a1 : Nat) (a2 : State) (h0 : Part.cores ∈ L) : changesOnly L s (settle a0 a1 a2) ↔ changesOnly L s a2 := by
  (fun_cases settle a0 a1 a2 <;> (simp +zetaDelta only [iff_self, modThread_only, freeThread_only, h0]; done))
theorem settleCore_only {L : List Part} {s : State} (a0 : Nat) (a1 : State) (h0 : Part.cores ∈ L) : changesOnly L s (settleCore a0 a1) ↔ changesOnly L s a1 := by
  (simp only [settleCore, only_foldl, iff_self, implies_true, settle_only, h0]; done)
theorem setEvents_only {L : List Part} {s : State} (a0 : Nat) (a1 : Nat) (a2 : Nat) (a3 : State) (h0 : Part.cores ∈ L) : changesOnly L s (setEvents a0 a1 a2 a3) ↔ changesOnly L s a3 := by
  (simp only [setEvents, iff_self, modThread_only, settle_only, h0]; done)
theorem trap_only {L : List Part} {s : State} (a0 : Nat) (a1 : Nat) (a2 : Nat) (a3 : Nat) (a4 : State) (h0 : Part.owner ∈ L) (h1 : Part.hod ∈ L) (h2 : Part.cores ∈ L) (h3 : Part.dram ∈ L) (h4 : Part.counters ∈ L) : changesOnly L s (trap a0 a1 a2 a3 a4) ↔ changesOnly L s a4 := by
  (simp only [trap, iff_self, drainAll_only, modThread_only, raiseOwner_only, countCore_only, h0, h1, h2, h3, h4]; done)
theorem finishExit_only {L : List Part} {s : State} (a0 : Nat) (a1 : Nat) (a2 : State) (h0 : Part.cores ∈ L) : changesOnly L s (finishExit a0 a1 a2) ↔ changesOnly L s a2 := by
  (fun_cases finishExit a0 a1 a2 <;> (simp +zetaDelta only [iff_self, modThread_only, setEvents_only, freeThread_only, h0]; done))
theorem orphanChildren_only {L : List Part} {s : State} (a0 : Nat) (a1 : Nat) (a2 : State) (h0 : Part.cores ∈ L) : changesOnly L s (orphanChildren a0 a1 a2) ↔ changesOnly L s a2 := by
  (simp only [orphanChildren, only_foldl, iff_self, implies_true, only_ite, ite_self, modThread_only, freeThread_only, h0]; done)
theorem exitThread_only {L : List Part} {s : State} (a0 : Nat) (a1 : Nat) (a2 : Nat) (a3 : State) (h0 : Part.hod ∈ L) (h1 : Part.cores ∈ L) (h2 : Part.dram ∈ L) : changesOnly L s (exitThread a0 a1 a2 a3) ↔ changesOnly L s a3 := by
  (fun_cases exitThread a0 a1 a2 a3 <;> (simp +zetaDelta only [iff_self, drainAll_only, modThread_only, finishExit_only, orphanChildren_only, h0, h1, h2]; done))
theorem killThread_only {L : List Part} {s : State} (a0 : Nat) (a1 : Nat) (a2 : State) (h0 : Part.hod ∈ L) (h1 : Part.cores ∈ L) (h2 : Part.dram ∈ L) : changesOnly L s (killThread a0 a1 a2) ↔ changesOnly L s a2 := by
  (simp only [killThread, iff_self, exitThread_only, h0, h1, h2]; done)
theorem retire_only {L : List Part} {s : State} (a0 : Nat) (a1 : Nat) (a2 : Nat) (a3 : State) (h0 : Part.cores ∈ L) (h1 : Part.counters ∈ L) : changesOnly L s (retire a0 a1 a2 a3) ↔ changesOnly L s a3 := by
  (simp only [retire, iff_self, modThread_only, modCore_only, countCore_only, h0, h1]; done)
theorem retireRd_only {L : List Part} {s : State} (a0 : Nat) (a1 : Nat) (a2 : Nat) (a3 : Nat) (a4 : Nat) (a5 : State) (h0 : Part.cores ∈ L) (h1 : Part.counters ∈ L) : changesOnly L s (retireRd a0 a1 a2 a3 a4 a5) ↔ changesOnly L s a5 := by
  (simp only [retireRd, iff_self, modThread_only, retire_only, h0, h1]; done)
theorem issued_only {L : List Part} {s : State} (a0 : Nat) (a1 : Nat) (a2 : State) (h0 : Part.cores ∈ L) : changesOnly L s (issued a0 a1 a2) ↔ changesOnly L s a2 := by
  (simp only [issued, iff_self, modCore_only, h0]; done)
theorem windowViolation_only {L : List Part} {s : State} (a0 : Nat) (a1 : Nat) (a2 : Nat) (a3 : Nat) (a4 : Nat) (a5 : Bool) (a6 : State) (h0 : Part.out ∈ L) (h1 : Part.owner ∈ L) (h2 : Part.rings ∈ L) (h3 : Part.hosts ∈ L) (h4 : Part.fns ∈ L) (h5 : Part.violations ∈ L) (h6 : Part.counters ∈ L) : changesOnly L s (windowViolation a0 a1 a2 a3 a4 a5 a6) ↔ changesOnly L s a6 := by
  (simp only [windowViolation, iff_self, hodViolation_only, h0, h1, h2, h3, h4, h5, h6]; done)
theorem issueStore_only {L : List Part} {s : State} (a0 : Nat) (a1 : Nat) (a2 : Nat) (a3 : Nat) (a4 : List Byte) (a5 : State) (h0 : Part.out ∈ L) (h1 : Part.owner ∈ L) (h2 : Part.rings ∈ L) (h3 : Part.hosts ∈ L) (h4 : Part.fns ∈ L) (h5 : Part.hod ∈ L) (h6 : Part.cores ∈ L) (h7 : Part.dram ∈ L) (h8 : Part.violations ∈ L) (h9 : Part.counters ∈ L) : changesOnly L s (issueStore a0 a1 a2 a3 a4 a5) ↔ changesOnly L s a5 := by
  (fun_cases issueStore a0 a1 a2 a3 a4 a5 <;> (simp +zetaDelta only [iff_self, windowViolation_only, modThread_only, trap_only, retire_only, h0, h1, h2, h3, h4, h5, h6, h7, h8, h9]; done))
theorem issueLoad_only {L : List Part} {s : State} (a0 : Nat) (a1 : Nat) (a2 : LoadWait) (a3 : State) (h0 : Part.owner ∈ L) (h1 : Part.hod ∈ L) (h2 : Part.cores ∈ L) (h3 : Part.dram ∈ L) (h4 : Part.counters ∈ L) : changesOnly L s (issueLoad a0 a1 a2 a3) ↔ changesOnly L s a3 := by
  (fun_cases issueLoad a0 a1 a2 a3 <;> (simp +zetaDelta only [iff_self, modThread_only, trap_only, h0, h1, h2, h3, h4]; done))
theorem loadReturn_only {L : List Part} {s : State} (a0 : Nat) (a1 : Nat) (a2 : Bool) (a3 : State) (h0 : Part.out ∈ L) (h1 : Part.owner ∈ L) (h2 : Part.rings ∈ L) (h3 : Part.hosts ∈ L) (h4 : Part.fns ∈ L) (h5 : Part.hod ∈ L) (h6 : Part.cores ∈ L) (h7 : Part.dram ∈ L) (h8 : Part.violations ∈ L) (h9 : Part.counters ∈ L) : changesOnly L s (loadReturn a0 a1 a2 a3) ↔ changesOnly L s a3 := by
  (unfold loadReturn; (repeat' (first | (with_reducible rfl) | (simp only [iff_self, only_ite, windowViolation_only, modThread_only, writeAt_only, retireRd_only, trap_only, h0, h1, h2, h3, h4, h5, h6, h7, h8, h9]; done) | split | (with_reducible refine (only_foldl _ (fun y b => ?_) _ _).trans ?_) | (simp only []))); done)
theorem xTfork_only {L : List Part} {s : State} (a0 : Nat) (a1 : Nat) (a2 : Nat) (a3 : Bool) (a4 : Nat) (a5 : Nat) (a6 : Nat) (a7 : State) (h0 : Part.cores ∈ L) (h1 : Part.counters ∈ L) : changesOnly L s (xTfork a0 a1 a2 a3 a4 a5 a6 a7) ↔ changesOnly L s a7 := by
  (fun_cases xTfork a0 a1 a2 a3 a4 a5 a6 a7 <;> (simp +zetaDelta only [iff_self, retireRd_only, modCore_only, countCore_only, h0, h1]; done))
theorem xTjoin_only {L : List Part} {s : State} (a0 : Nat) (a1 : Nat) (a2 : Nat) (a3 : Nat) (a4 : Nat) (a5 : State) (h0 : Part.owner ∈ L) (h1 : Part.hod ∈ L) (h2 : Part.cores ∈ L) (h3 : Part.dram ∈ L) (h4 : Part.counters ∈ L) : changesOnly L s (xTjoin a0 a1 a2 a3 a4 a5) ↔ changesOnly L s a5 := by
  (fun_cases xTjoin a0 a1 a2 a3 a4 a5 <;> (simp +zetaDelta only [iff_self, modThread_only, settle_only, trap_only, retire_only, h0, h1, h2, h3, h4]; done))
theorem xTexit_only {L : List Part} {s : State} (a0 : Nat) (a1 : Nat) (a2 : Nat) (a3 : Nat) (a4 : State) (h0 : Part.hod ∈ L) (h1 : Part.cores ∈ L) (h2 : Part.dram ∈ L) (h3 : Part.counters ∈ L) : changesOnly L s (xTexit a0 a1 a2 a3 a4) ↔ changesOnly L s a4 := by
  (fun_cases xTexit a0 a1 a2 a3 a4 <;> (simp +zetaDelta only [iff_self, retire_only, exitThread_only, h0, h1, h2, h3]; done))
theorem xTsignal_only {L : List Part} {s : State} (a0 : Nat) (a1 : Nat) (a2 : Nat) (a3 : Nat) (a4 : Nat) (a5 : Nat) (a6 : State) (h0 : Part.cores ∈ L) (h1 : Part.counters ∈ L) : changesOnly L s (xTsignal a0 a1 a2 a3 a4 a5 a6) ↔ changesOnly L s a6 := by
  (fun_cases xTsignal a0 a1 a2 a3 a4 a5 a6 <;> (simp +zetaDelta only [iff_self, setEvents_only, retireRd_only, countCore_only, h0, h1]; done))
theorem xTwait_only {L : List Part} {s : State} (a0 : Nat) (a1 : Nat) (a2 : Nat) (a3 : Nat) (a4 : Nat) (a5 : Nat) (a6 : State) (h0 : Part.owner ∈ L) (h1 : Part.hod ∈ L) (h2 : Part.cores ∈ L) (h3 : Part.dram ∈ L) (h4 : Part.counters ∈ L) : changesOnly L s (xTwait a0 a1 a2 a3 a4 a5 a6) ↔ changesOnly L s a6 := by
  (fun_cases xTwait a0 a1 a2 a3 a4 a5 a6 <;> (simp +zetaDelta only [iff_self, modThread_only, settle_only, trap_only, retire_only, h0, h1, h2, h3, h4]; done))
theorem xTtimer_only {L : List Part} {s : State} (a0 : Nat) (a1 : Nat) (a2 : Nat) (a3 : Nat) (a4 : State) (h0 : Part.drawn ∈ L) (h1 : Part.cores ∈ L) (h2 : Part.counters ∈ L) : changesOnly L s (xTtimer a0 a1 a2 a3 a4) ↔ changesOnly L s a4 := by
  (unfold xTtimer; (repeat' (first | (with_reducible rfl) | (simp only [iff_self, modThread_only, drawn1_only, retire_only, h0, h1, h2]; done) | split | (with_reducible refine (only_foldl _ (fun y b => ?_) _ _).trans ?_) | (simp only []))); done)
theorem setHawk_only {L : List Part} {s : State} (a0 : Nat) (a1 : Nat) (a2 : Nat) (a3 : Nat) (a4 : State) (h0 : Part.hod ∈ L) (h1 : Part.cores ∈ L) (h2 : Part.dram ∈ L) : changesOnly L s (setHawk a0 a1 a2 a3 a4) ↔ changesOnly L s a4 := by
  (simp only [setHawk, iff_self, drainAll_only, modCore_only, h0, h1, h2]; done)
theorem xHawk_only {L : List Part} {s : State} (a0 : Nat) (a1 : Nat) (a2 : Nat) (a3 : Nat) (a4 : Nat) (a5 : Thread → Nat → Option Nat) (a6 : State) (h0 : Part.hod ∈ L) (h1 : Part.cores ∈ L) (h2 : Part.dram ∈ L) (h3 : Part.counters ∈ L) : changesOnly L s (xHawk a0 a1 a2 a3 a4 a5 a6) ↔ changesOnly L s a6 := by
  (unfold xHawk; (repeat' (first | (with_reducible rfl) | (simp only [iff_self, setHawk_only, retireRd_only, h0, h1, h2, h3]; done) | split | (with_reducible refine (only_foldl _ (fun y b => ?_) _ _).trans ?_) | (simp only []))); done)
theorem xChput_only {L : List Part} {s : State} (a0 : Nat) (a1 : Nat) (a2 : Nat) (a3 : Nat) (a4 : Nat) (a5 : State) (h0 : Part.cores ∈ L) (h1 : Part.counters ∈ L) : changesOnly L s (xChput a0 a1 a2 a3 a4 a5) ↔ changesOnly L s a5 := by
  (simp only [xChput, iff_self, modThread_only, retire_only, h0, h1]; done)
theorem xChcommit_only {L : List Part} {s : State} (a0 : Nat) (a1 : Nat) (a2 : Nat) (a3 : Nat) (a4 : Nat) (a5 : State) (h0 : Part.hod ∈ L) (h1 : Part.cores ∈ L) (h2 : Part.dram ∈ L) (h3 : Part.counters ∈ L) : changesOnly L s (xChcommit a0 a1 a2 a3 a4 a5) ↔ changesOnly L s a5 := by
  (fun_cases xChcommit a0 a1 a2 a3 a4 a5 <;> (simp +zetaDelta only [iff_self, drainAll_only, modThread_only, modCluster_only, retireRd_only, countCore_only, h0, h1, h2, h3]; done))
theorem xChrecv_only {L : List Part} {s : State} (a0 : Nat) (a1 : Nat) (a2 : Nat) (a3 : Nat) (a4 : Nat) (a5 : Bool) (a6 : State) (h0 : Part.cores ∈ L) (h1 : Part.counters ∈ L) : changesOnly L s (xChrecv a0 a1 a2 a3 a4 a5 a6) ↔ changesOnly L s a6 := by
  (fun_cases xChrecv a0 a1 a2 a3 a4 a5 a6 <;> (simp +zetaDelta only [iff_self, only_ite, ite_self, modThread_only, retireRd_only, h0, h1]; done))
theorem xbExec_only {L : List Part} {s : State} (a0 : Nat) (a1 : Nat) (a2 : Nat) (a3 : Nat) (a4 : Xb) (a5 : State) (h0 : Part.drawn ∈ L) (h1 : Part.owner ∈ L) (h2 : Part.hod ∈ L) (h3 : Part.cores ∈ L) (h4 : Part.dram ∈ L) (h5 : Part.counters ∈ L) : changesOnly L s (xbExec a0 a1 a2 a3 a4 a5) ↔ changesOnly L s a5 := by
  (fun_cases xbExec a0 a1 a2 a3 a4 a5 <;> (simp +zetaDelta only [iff_self, xTjoin_only, xChput_only, xChrecv_only, xHawk_only, xTwait_only, xTtimer_only, xTfork_only, xChcommit_only, retire_only, xTsignal_only, xTexit_only, h0, h1, h2, h3, h4, h5]; done))
theorem kick_only {L : List Part} {s : State} (a0 : Nat) (a1 : State) (h0 : Part.cores ∈ L) : changesOnly L s (kick a0 a1) ↔ changesOnly L s a1 := by
  (simp only [kick, iff_self, modCore_only, h0]; done)
theorem csrExec_only {L : List Part} {s : State} (a0 : Nat) (a1 : Nat) (a2 : Nat) (a3 : Nat) (a4 : Nat) (a5 : Nat) (a6 : Nat) (a7 : Nat) (a8 : State) (h0 : Part.drawn ∈ L) (h1 : Part.owner ∈ L) (h2 : Part.hod ∈ L) (h3 : Part.cores ∈ L) (h4 : Part.dram ∈ L) (h5 : Part.counters ∈ L) : changesOnly L s (csrExec a0 a1 a2 a3 a4 a5 a6 a7 a8) ↔ changesOnly L s a8 := by
  (fun_cases csrExec a0 a1 a2 a3 a4 a5 a6 a7 a8 <;> (simp +zetaDelta only [iff_self, only_ite, ite_self, drawn1_only, retireRd_only, kick_only, trap_only, h0, h1, h2, h3, h4, h5]; done))
theorem doEbreak_only {L : List Part} {s : State} (a0 : Nat) (a1 : Nat) (a2 : State) (h0 : Part.owner ∈ L) (h1 : Part.hod ∈ L) (h2 : Part.cores ∈ L) (h3 : Part.dram ∈ L) (h4 : Part.counters ∈ L) : changesOnly L s (doEbreak a0 a1 a2) ↔ changesOnly L s a2 := by
  (simp only [doEbreak, iff_self, only_ite, ite_self, modThread_only, trap_only, h0, h1, h2, h3, h4]; done)
theorem rvExec_only {L : List Part} {s : State} (a0 : Nat) (a1 : Nat) (a2 : Nat) (a3 : Nat) (a4 : Rv) (a5 : State) (h0 : Part.out ∈ L) (h1 : Part.drawn ∈ L) (h2 : Part.owner ∈ L) (h3 : Part.rings ∈ L) (h4 : Part.hosts ∈ L) (h5 : Part.fns ∈ L) (h6 : Part.hod ∈ L) (h7 : Part.cores ∈ L) (h8 : Part.dram ∈ L) (h9 : Part.violations ∈ L) (h10 : Part.counters ∈ L) : changesOnly L s (rvExec a0 a1 a2 a3 a4 a5) ↔ changesOnly L s a5 := by
  (fun_cases rvExec a0 a1 a2 a3 a4 a5 <;> (simp +zetaDelta only [iff_self, doEbreak_only, xbExec_only, csrExec_only, retireRd_only, issueLoad_only, issueStore_only, trap_only, retire_only, h0, h1, h2, h3, h4, h5, h6, h7, h8, h9, h10]; done))
theorem threadStep_only {L : List Part} {s : State} (a0 : Nat) (a1 : Nat) (a2 : State) (h0 : Part.out ∈ L) (h1 : Part.drawn ∈ L) (h2 : Part.owner ∈ L) (h3 : Part.rings ∈ L) (h4 : Part.hosts ∈ L) (h5 : Part.fns ∈ L) (h6 : Part.hod ∈ L) (h7 : Part.cores ∈ L) (h8 : Part.dram ∈ L) (h9 : Part.violations ∈ L) (h10 : Part.counters ∈ L) : changesOnly L s (threadStep a0 a1 a2) ↔ changesOnly L s a2 := by
  (fun_cases threadStep a0 a1 a2 <;> (simp +zetaDelta only [iff_self, issued_only, rvExec_only, trap_only, h0, h1, h2, h3, h4, h5, h6, h7, h8, h9, h10]; done))
theorem execCoreInstruction_only {L : List Part} {s : State} (a0 : Cluster) (a1 : CoreIx) (a2 : State) (h0 : Part.out ∈ L) (h1 : Part.drawn ∈ L) (h2 : Part.owner ∈ L) (h3 : Part.rings ∈ L) (h4 : Part.hosts ∈ L) (h5 : Part.fns ∈ L) (h6 : Part.hod ∈ L) (h7 : Part.cores ∈ L) (h8 : Part.dram ∈ L) (h9 : Part.violations ∈ L) (h10 : Part.counters ∈ L) (hx : changesOnly L s a2) : OnlyO L s (execCoreInstruction a0 a1 a2) := by
  (fun_cases execCoreInstruction a0 a1 a2 <;> (simp +zetaDelta only [onlyO_next, onlyO_refused, hx, threadStep_only, h0, h1, h2, h3, h4, h5, h6, h7, h8, h9, h10]; done))
theorem execLoadDataReturn_only {L : List Part} {s : State} (a0 : Cluster) (a1 : CoreIx) (a2 : ThreadIx) (a3 : Bool) (a4 : Bool) (a5 : State) (h0 : Part.out ∈ L) (h1 : Part.owner ∈ L) (h2 : Part.rings ∈ L) (h3 : Part.hosts ∈ L) (h4 : Part.fns ∈ L) (h5 : Part.hod ∈ L) (h6 : Part.cores ∈ L) (h7 : Part.dram ∈ L) (h8 : Part.violations ∈ L) (h9 : Part.counters ∈ L) (hx : changesOnly L s a5) : OnlyO L s (execLoadDataReturn a0 a1 a2 a3 a4 a5) := by
  (simp only [execLoadDataReturn, only_ite, ite_self, onlyO_next, hx, drainOne_only, loadReturn_only, h0, h1, h2, h3, h4, h5, h6, h7, h8, h9]; done)
theorem runXb_only {L : List Part} {s : State} (a0 : Cluster) (a1 : CoreIx) (a2 : ThreadIx) (a3 : Xb) (a4 : State) (h0 : Part.drawn ∈ L) (h1 : Part.owner ∈ L) (h2 : Part.hod ∈ L) (h3 : Part.cores ∈ L) (h4 : Part.dram ∈ L) (h5 : Part.counters ∈ L) : changesOnly L s (runXb a0 a1 a2 a3 a4) ↔ changesOnly L s a4 := by
  (fun_cases runXb a0 a1 a2 a3 a4 <;> (simp +zetaDelta only [iff_self, issued_only, xbExec_only, h0, h1, h2, h3, h4, h5]; done))
theorem execTfork_only {L : List Part} {s : State} (a0 : Cluster) (a1 : CoreIx) (a2 : ThreadIx) (a3 : RegNo) (a4 : RegNo) (a5 : RegNo) (a6 : State) (h0 : Part.drawn ∈ L) (h1 : Part.owner ∈ L) (h2 : Part.hod ∈ L) (h3 : Part.cores ∈ L) (h4 : Part.dram ∈ L) (h5 : Part.counters ∈ L) (hx : changesOnly L s a6) : OnlyO L s (execTfork a0 a1 a2 a3 a4 a5 a6) := by
  (simp only [execTfork, onlyO_next, hx, runXb_only, h0, h1, h2, h3, h4, h5]; done)
theorem execTforkd_only {L : List Part} {s : State} (a0 : Cluster) (a1 : CoreIx) (a2 : ThreadIx) (a3 : RegNo) (a4 : RegNo) (a5 : RegNo) (a6 : State) (h0 : Part.drawn ∈ L) (h1 : Part.owner ∈ L) (h2 : Part.hod ∈ L) (h3 : Part.cores ∈ L) (h4 : Part.dram ∈ L) (h5 : Part.counters ∈ L) (hx : changesOnly L s a6) : OnlyO L s (execTforkd a0 a1 a2 a3 a4 a5 a6) := by
  (simp only [execTforkd, onlyO_next, hx, runXb_only, h0, h1, h2, h3, h4, h5]; done)
theorem execTexit_only {L : List Part} {s : State} (a0 : Cluster) (a1 : CoreIx) (a2 : ThreadIx) (a3 : RegNo) (a4 : State) (h0 : Part.drawn ∈ L) (h1 : Part.owner ∈ L) (h2 : Part.hod ∈ L) (h3 : Part.cores ∈ L) (h4 : Part.dram ∈ L) (h5 : Part.counters ∈ L) (hx : changesOnly L s a4) : OnlyO L s (execTexit a0 a1 a2 a3 a4) := by
  (simp only [execTexit, onlyO_next, hx, runXb_only, h0, h1, h2, h3, h4, h5]; done)
theorem execTjoin_only {L : List Part} {s : State} (a0 : Cluster) (a1 : CoreIx) (a2 : ThreadIx) (a3 : RegNo) (a4 : RegNo) (a5 : State) (h0 : Part.drawn ∈ L) (h1 : Part.owner ∈ L) (h2 : Part.hod ∈ L) (h3 : Part.cores ∈ L) (h4 : Part.dram ∈ L) (h5 : Part.counters ∈ L) (hx : changesOnly L s a5) : OnlyO L s (execTjoin a0 a1 a2 a3 a4 a5) := by
  (simp only [execTjoin, onlyO_next, hx, runXb_only, h0, h1, h2, h3, h4, h5]; done)
theorem execTwait_only {L : List Part} {s : State} (a0 : Cluster) (a1 : CoreIx) (a2 : ThreadIx) (a3 : RegNo) (a4 : RegNo) (a5 : State) (h0 : Part.drawn ∈ L) (h1 : Part.owner ∈ L) (h2 : Part.hod ∈ L) (h3 : Part.cores ∈ L) (h4 : Part.dram ∈ L) (h5 : Part.counters ∈ L) (hx : changesOnly L s a5) : OnlyO L s (execTwait a0 a1 a2 a3 a4 a5) := by
  (simp only [execTwait, onlyO_next, hx, runXb_only, h0, h1, h2, h3, h4, h5]; done)
theorem execTsignal_only {L : List Part} {s : State} (a0 : Cluster) (a1 : CoreIx) (a2 : ThreadIx) (a3 : RegNo) (a4 : RegNo) (a5 : RegNo) (a6 : State) (h0 : Part.drawn ∈ L) (h1 : Part.owner ∈ L) (h2 : Part.hod ∈ L) (h3 : Part.cores ∈ L) (h4 : Part.dram ∈ L) (h5 : Part.counters ∈ L) (hx : changesOnly L s a6) : OnlyO L s (execTsignal a0 a1 a2 a3 a4 a5 a6) := by
  (simp only [execTsignal, onlyO_next, hx, runXb_only, h0, h1, h2, h3, h4, h5]; done)
theorem execTtimer_only {L : List Part} {s : State} (a0 : Cluster) (a1 : CoreIx) (a2 : ThreadIx) (a3 : RegNo) (a4 : State) (h0 : Part.drawn ∈ L) (h1 : Part.owner ∈ L) (h2 : Part.hod ∈ L) (h3 : Part.cores ∈ L) (h4 : Part.dram ∈ L) (h5 : Part.counters ∈ L) (hx : changesOnly L s a4) : OnlyO L s (execTtimer a0 a1 a2 a3 a4) := by
  (simp only [execTtimer, onlyO_next, hx, runXb_only, h0, h1, h2, h3, h4, h5]; done)
theorem execTyield_only {L : List Part} {s : State} (a0 : Cluster) (a1 : CoreIx) (a2 : ThreadIx) (a3 : State) (h0 : Part.drawn ∈ L) (h1 : Part.owner ∈ L) (h2 : Part.hod ∈ L) (h3 : Part.cores ∈ L) (h4 : Part.dram ∈ L) (h5 : Part.counters ∈ L) (hx : changesOnly L s a3) : OnlyO L s (execTyield a0 a1 a2 a3) := by
  (simp only [execTyield, onlyO_next, hx, runXb_only, h0, h1, h2, h3, h4, h5]; done)
theorem execHrd_only {L : List Part} {s : State} (a0 : Cluster) (a1 : CoreIx) (a2 : ThreadIx) (a3 : RegNo) (a4 : Fin 64) (a5 : State) (h0 : Part.drawn ∈ L) (h1 : Part.owner ∈ L) (h2 : Part.hod ∈ L) (h3 : Part.cores ∈ L) (h4 : Part.dram ∈ L) (h5 : Part.counters ∈ L) (hx : changesOnly L s a5) : OnlyO L s (execHrd a0 a1 a2 a3 a4 a5) := by
  (simp only [execHrd, onlyO_next, hx, runXb_only, h0, h1, h2, h3, h4, h5]; done)
theorem execHwr_only {L : List Part} {s : State} (a0 : Cluster) (a1 : CoreIx) (a2 : ThreadIx) (a3 : Fin 64) (a4 : RegNo) (a5 : State) (h0 : Part.drawn ∈ L) (h1 : Part.owner ∈ L) (h2 : Part.hod ∈ L) (h3 : Part.cores ∈ L) (h4 : Part.dram ∈ L) (h5 : Part.counters ∈ L) (hx : changesOnly L s a5) : OnlyO L s (execHwr a0 a1 a2 a3 a4 a5) := by
  (simp only [execHwr, onlyO_next, hx, runXb_only, h0, h1, h2, h3, h4, h5]; done)
theorem execHswap_only {L : List Part} {s : State} (a0 : Cluster) (a1 : CoreIx) (a2 : ThreadIx) (a3 : RegNo) (a4 : Fin 64) (a5 : RegNo) (a6 : State) (h0 : Part.drawn ∈ L) (h1 : Part.owner ∈ L) (h2 : Part.hod ∈ L) (h3 : Part.cores ∈ L) (h4 : Part.dram ∈ L) (h5 : Part.counters ∈ L) (hx : changesOnly L s a6) : OnlyO L s (execHswap a0 a1 a2 a3 a4 a5 a6) := by
  (simp only [execHswap, onlyO_next, hx, runXb_only, h0, h1, h2, h3, h4, h5]; done)
theorem execHadd_only {L : List Part} {s : State} (a0 : Cluster) (a1 : CoreIx) (a2 : ThreadIx) (a3 : RegNo) (a4 : Fin 64) (a5 : RegNo) (a6 : State) (h0 : Part.drawn ∈ L) (h1 : Part.owner ∈ L) (h2 : Part.hod ∈ L) (h3 : Part.cores ∈ L) (h4 : Part.dram ∈ L) (h5 : Part.counters ∈ L) (hx : changesOnly L s a6) : OnlyO L s (execHadd a0 a1 a2 a3 a4 a5 a6) := by
  (simp only [execHadd, onlyO_next, hx, runXb_only, h0, h1, h2, h3, h4, h5]; done)
theorem execHcas_only {L : List Part} {s : State} (a0 : Cluster) (a1 : CoreIx) (a2 : ThreadIx) (a3 : RegNo) (a4 : Fin 64) (a5 : RegNo) (a6 : RegNo) (a7 : State) (h0 : Part.drawn ∈ L) (h1 : Part.owner ∈ L) (h2 : Part.hod ∈ L) (h3 : Part.cores ∈ L) (h4 : Part.dram ∈ L) (h5 : Part.counters ∈ L) (hx : changesOnly L s a7) : OnlyO L s (execHcas a0 a1 a2 a3 a4 a5 a6 a7) := by
  (simp only [execHcas, onlyO_next, hx, runXb_only, h0, h1, h2, h3, h4, h5]; done)
theorem execChput_only {L : List Part} {s : State} (a0 : Cluster) (a1 : CoreIx) (a2 : ThreadIx) (a3 : RegNo) (a4 : Fin 8) (a5 : State) (h0 : Part.drawn ∈ L) (h1 : Part.owner ∈ L) (h2 : Part.hod ∈ L) (h3 : Part.cores ∈ L) (h4 : Part.dram ∈ L) (h5 : Part.counters ∈ L) (hx : changesOnly L s a5) : OnlyO L s (execChput a0 a1 a2 a3 a4 a5) := by
  (simp only [execChput, onlyO_next, hx, runXb_only, h0, h1, h2, h3, h4, h5]; done)
theorem execChcommit_only {L : List Part} {s : State} (a0 : Cluster) (a1 : CoreIx) (a2 : ThreadIx) (a3 : RegNo) (a4 : RegNo) (a5 : State) (h0 : Part.drawn ∈ L) (h1 : Part.owner ∈ L) (h2 : Part.hod ∈ L) (h3 : Part.cores ∈ L) (h4 : Part.dram ∈ L) (h5 : Part.counters ∈ L) (hx : changesOnly L s a5) : OnlyO L s (execChcommit a0 a1 a2 a3 a4 a5) := by
  (simp only [execChcommit, onlyO_next, hx, runXb_only, h0, h1, h2, h3, h4, h5]; done)
theorem execChrecv_only {L : List Part} {s : State} (a0 : Cluster) (a1 : CoreIx) (a2 : ThreadIx) (a3 : RegNo) (a4 : Fin 8) (a5 : Bool) (a6 : State) (h0 : Part.drawn ∈ L) (h1 : Part.owner ∈ L) (h2 : Part.hod ∈ L) (h3 : Part.cores ∈ L) (h4 : Part.dram ∈ L) (h5 : Part.counters ∈ L) (hx : changesOnly L s a6) : OnlyO L s (execChrecv a0 a1 a2 a3 a4 a5 a6) := by
  (simp only [execChrecv, onlyO_next, hx, runXb_only, h0, h1, h2, h3, h4, h5]; done)
theorem execWdogKick_only {L : List Part} {s : State} (a0 : Cluster) (a1 : CoreIx) (a2 : ThreadIx) (a3 : State) (h0 : Part.cores ∈ L) (h1 : Part.counters ∈ L) (hx : changesOnly L s a3) : OnlyO L s (execWdogKick a0 a1 a2 a3) := by
  (unfold execWdogKick; (repeat' (first | with_reducible assumption | with_reducible rfl | (simp only [only_ite, ite_self, onlyO_next, hx, issued_only, kick_only, retire_only, h0, h1]; done) | split | (with_reducible refine (onlyO_next _ _ _).mpr ?_) | (with_reducible refine (only_foldl _ (fun y b => ?_) _ _).mpr ?_) | (with_reducible refine (only_foldl _ (fun y b => ?_) _ _).trans ?_) | (simp only []))); done)
theorem execThreadTimerExpiry_only {L : List Part} {s : State} (a0 : Cluster) (a1 : CoreIx) (a2 : ThreadIx) (a3 : State) (h0 : Part.cores ∈ L) (hx : changesOnly L s a3) : OnlyO L s (execThreadTimerExpiry a0 a1 a2 a3) := by
  (simp only [execThreadTimerExpiry, only_ite, ite_self, onlyO_next, hx, modThread_only, setEvents_only, h0]; done)
theorem replyArrives_only {L : List Part} {s : State} (a0 : Nat) (a1 : Nat) (a2 : Nat) (a3 : State) (h0 : Part.cores ∈ L) : changesOnly L s (replyArrives a0 a1 a2 a3) ↔ changesOnly L s a3 := by
  (fun_cases replyArrives a0 a1 a2 a3 <;> (simp +zetaDelta only [iff_self, modThread_only, settle_only, finishExit_only, h0]; done))
theorem execChannelReplyArrival_only {L : List Part} {s : State} (a0 : Cluster) (a1 : CoreIx) (a2 : ThreadIx) (a3 : Fin 4) (a4 : State) (h0 : Part.cores ∈ L) (hx : changesOnly L s a4) : OnlyO L s (execChannelReplyArrival a0 a1 a2 a3 a4) := by
  (simp only [execChannelReplyArrival, onlyO_next, hx, replyArrives_only, h0]; done)
theorem execWaitDeadlock_only {L : List Part} {s : State} (a0 : Cluster) (a1 : CoreIx) (a2 : State) (h0 : Part.drawn ∈ L) (h1 : Part.owner ∈ L) (h2 : Part.hod ∈ L) (h3 : Part.cores ∈ L) (h4 : Part.dram ∈ L) (h5 : Part.counters ∈ L) (hx : changesOnly L s a2) : OnlyO L s (execWaitDeadlock a0 a1 a2) := by
  (unfold execWaitDeadlock; (repeat' (first | with_reducible assumption | with_reducible rfl | (simp only [only_ite, onlyO_next, hx, modThread_only, drawn1_only, trap_only, modCore_only, countCore_only, h0, h1, h2, h3, h4, h5]; done) | split | (with_reducible refine (onlyO_next _ _ _).mpr ?_) | (with_reducible refine (only_foldl _ (fun y b => ?_) _ _).mpr ?_) | (with_reducible refine (only_foldl _ (fun y b => ?_) _ _).trans ?_) | (simp only []))); done)
theorem haltThread_only {L : List Part} {s : State} (a0 : Nat) (a1 : Nat) (a2 : State) (h0 : Part.cores ∈ L) : changesOnly L s (haltThread a0 a1 a2) ↔ changesOnly L s a2 := by
  (simp only [haltThread, iff_self, modThread_only, h0]; done)
theorem resumeThread_only {L : List Part} {s : State} (a0 : Nat) (a1 : Nat) (a2 : State) (h0 : Part.cores ∈ L) : changesOnly L s (resumeThread a0 a1 a2) ↔ changesOnly L s a2 := by
  (simp only [resumeThread, iff_self, modThread_only, settle_only, h0]; done)
theorem execWatchdog_only {L : List Part} {s : State} (a0 : Cluster) (a1 : CoreIx) (a2 : State) (h0 : Part.owner ∈ L) (h1 : Part.hod ∈ L) (h2 : Part.cores ∈ L) (h3 : Part.dram ∈ L) (h4 : Part.counters ∈ L) (hx : changesOnly L s a2) : OnlyO L s (execWatchdog a0 a1 a2) := by
  (unfold execWatchdog; (repeat' (first | with_reducible assumption | with_reducible rfl | (simp only [only_ite, iff_self, onlyO_next, hx, haltThread_only, killThread_only, raiseOwner_only, modCore_only, countCore_only, h0, h1, h2, h3, h4]; done) | split | (with_reducible refine (onlyO_next _ _ _).mpr ?_) | (with_reducible refine (only_foldl _ (fun y b => ?_) _ _).mpr ?_) | (with_reducible refine (only_foldl _ (fun y b => ?_) _ _).trans ?_) | (simp only []))); done)
theorem modKlb_only {L : List Part} {s : State} (a0 : Klb → Klb) (a1 : State) (h0 : Part.klb ∈ L) : changesOnly L s (modKlb a0 a1) ↔ changesOnly L s a1 := by
  (simp only [modKlb, iff_self, h0, only_klb]; done)
theorem restoreBp_only {L : List Part} {s : State} (a0 : Nat) (a1 : Nat × Nat) (a2 : State) (h0 : Part.cores ∈ L) : changesOnly L s (restoreBp a0 a1 a2) ↔ changesOnly L s a2 := by
  (simp only [restoreBp, iff_self, writeMem_only, h0]; done)
theorem clearBps_only {L : List Part} {s : State} (a0 : Nat) (a1 : State) (h0 : Part.cores ∈ L) : changesOnly L s (clearBps a0 a1) ↔ changesOnly L s a1 := by
  (simp only [clearBps, only_foldl, iff_self, implies_true, restoreBp_only, modCore_only, h0]; done)
theorem endSession_only {L : List Part} {s : State} (a0 : State) (h0 : Part.cores ∈ L) (h1 : Part.klb ∈ L) : changesOnly L s (endSession a0) ↔ changesOnly L s a0 := by
  (unfold endSession; (repeat' (first | (with_reducible rfl) | (simp only [only_foldl, iff_self, implies_true, only_ite, modThread_only, modCores_only, clearBps_only, modKlb_only, resumeThread_only, h0, h1]; done) | split | (with_reducible refine (only_foldl _ (fun y b => ?_) _ _).trans ?_) | (simp only []))); done)
theorem modCrypt_only {L : List Part} {s : State} (a0 : Crypt → Crypt) (a1 : State) (h0 : Part.crypt ∈ L) : changesOnly L s (modCrypt a0 a1) ↔ changesOnly L s a1 := by
  (simp only [modCrypt, iff_self, h0, only_crypt]; done)
theorem modSlot_only {L : List Part} {s : State} (a0 : Nat) (a1 : KeySlot → KeySlot) (a2 : State) (h0 : Part.crypt ∈ L) : changesOnly L s (modSlot a0 a1 a2) ↔ changesOnly L s a2 := by
  (simp only [modSlot, iff_self, modCrypt_only, h0]; done)
theorem dropCached_only {L : List Part} {s : State} (a0 : Nat) (a1 : State) (h0 : Part.crypt ∈ L) : changesOnly L s (dropCached a0 a1) ↔ changesOnly L s a1 := by
  (simp only [dropCached, iff_self, modCrypt_only, h0]; done)
theorem freeSlot_only {L : List Part} {s : State} (a0 : Nat) (a1 : State) (h0 : Part.crypt ∈ L) : changesOnly L s (freeSlot a0 a1) ↔ changesOnly L s a1 := by
  (simp only [freeSlot, iff_self, modCrypt_only, dropCached_only, h0]; done)
theorem sealSlot_only {L : List Part} {s : State} (a0 : Nat) (a1 : Option KeySlot) (a2 : State) (h0 : Part.nv ∈ L) : changesOnly L s (sealSlot a0 a1 a2) ↔ changesOnly L s a2 := by
  (simp only [sealSlot, iff_self, h0, only_nv, sameFuses_iff, eq_self, and_self]; done)
theorem raiseAlarm_only {L : List Part} {s : State} (a0 : Nat) (a1 : Bool) (a2 : Nat) (a3 : Nat) (a4 : Nat) (a5 : State) (h0 : Part.owner ∈ L) (h1 : Part.crypt ∈ L) (h2 : Part.counters ∈ L) : changesOnly L s (raiseAlarm a0 a1 a2 a3 a4 a5) ↔ changesOnly L s a5 := by
  (simp only [raiseAlarm, iff_self, modCrypt_only, raiseOwner_only, count_only, h0, h1, h2]; done)
theorem reportAlarm_only {L : List Part} {s : State} (a0 : Nat) (a1 : Nat) (a2 : State) (h0 : Part.owner ∈ L) (h1 : Part.crypt ∈ L) (h2 : Part.counters ∈ L) : changesOnly L s (reportAlarm a0 a1 a2) ↔ changesOnly L s a2 := by
  (simp only [reportAlarm, iff_self, raiseAlarm_only, h0, h1, h2]; done)
theorem dropTiles_only {L : List Part} {s : State} (a0 : State) (h0 : Part.out ∈ L) (h1 : Part.hosts ∈ L) (h2 : Part.fns ∈ L) (h3 : Part.queues ∈ L) (h4 : Part.hod ∈ L) (h5 : Part.sched ∈ L) (h6 : Part.net ∈ L) (h7 : Part.counters ∈ L) : changesOnly L s (dropTiles a0) ↔ changesOnly L s a0 := by
  (unfold dropTiles; (repeat' (first | (with_reducible rfl) | (simp only [only_foldl, iff_self, implies_true, dropPkt_only, count_only, h0, h1, h2, h3, h4, h5, h6, h7, only_net]; done) | split | (with_reducible refine (only_foldl _ (fun y b => ?_) _ _).trans ?_) | (simp only []))); done)
theorem eraseStore_only {L : List Part} {s : State} (a0 : State) (h0 : Part.out ∈ L) (h1 : Part.hosts ∈ L) (h2 : Part.fns ∈ L) (h3 : Part.queues ∈ L) (h4 : Part.hod ∈ L) (h5 : Part.sched ∈ L) (h6 : Part.net ∈ L) (h7 : Part.crypt ∈ L) (h8 : Part.counters ∈ L) : changesOnly L s (eraseStore a0) ↔ changesOnly L s a0 := by
  (simp only [eraseStore, iff_self, modCrypt_only, dropTiles_only, h0, h1, h2, h3, h4, h5, h6, h7, h8]; done)
theorem eraseAlarm_only {L : List Part} {s : State} (a0 : Nat) (a1 : State) (h0 : Part.out ∈ L) (h1 : Part.owner ∈ L) (h2 : Part.hosts ∈ L) (h3 : Part.fns ∈ L) (h4 : Part.queues ∈ L) (h5 : Part.hod ∈ L) (h6 : Part.sched ∈ L) (h7 : Part.net ∈ L) (h8 : Part.crypt ∈ L) (h9 : Part.cores ∈ L) (h10 : Part.klb ∈ L) (h11 : Part.counters ∈ L) : changesOnly L s (eraseAlarm a0 a1) ↔ changesOnly L s a1 := by
  (simp only [eraseAlarm, iff_self, eraseStore_only, endSession_only, raiseAlarm_only, h0, h1, h2, h3, h4, h5, h6, h7, h8, h9, h10, h11]; done)
theorem unwrapFailed_only {L : List Part} {s : State} (a0 : State) (h0 : Part.owner ∈ L) (h1 : Part.crypt ∈ L) (h2 : Part.counters ∈ L) : changesOnly L s (unwrapFailed a0) ↔ changesOnly L s a0 := by
  (simp only [unwrapFailed, iff_self, only_ite, ite_self, modCrypt_only, reportAlarm_only, count_only, h0, h1, h2]; done)
theorem loadKey__only {L : List Part} {s : State} (a0 : Nat) (a1 : Packet) (a2 : List Byte) (a3 : State) (h0 : Part.nv ∈ L) (h1 : Part.crypt ∈ L) : changesOnly L s (loadKey_ a0 a1 a2 a3) ↔ changesOnly L s a3 := by
  (fun_cases loadKey_ a0 a1 a2 a3 <;> (simp +zetaDelta only [iff_self, dropCached_only, modSlot_only, sealSlot_only, h0, h1]; done))
theorem pageOut_only {L : List Part} {s : State} (a0 : Nat) (a1 : Nat) (a2 : State) (h0 : Part.crypt ∈ L) (h1 : Part.counters ∈ L) : changesOnly L s (pageOut a0 a1 a2) ↔ changesOnly L s a2 := by
  (fun_cases pageOut a0 a1 a2 <;> (simp +zetaDelta only [iff_self, modCrypt_only, freeSlot_only, count_only, h0, h1]; done))
theorem pageIn_only {L : List Part} {s : State} (a0 : Nat) (a1 : Nat) (a2 : State) (h0 : Part.crypt ∈ L) (h1 : Part.counters ∈ L) : changesOnly L s (pageIn a0 a1 a2) ↔ changesOnly L s a2 := by
  (fun_cases pageIn a0 a1 a2 <;> (simp +zetaDelta only [iff_self, modCrypt_only, count_only, h0, h1]; done))
theorem keyAllocateDef_only {L : List Part} {s : State}  (h0 : Part.drawn ∈ L) (h1 : Part.crypt ∈ L) : DefOnly L s keyAllocateDef := by
  intro o p y; simp only [keyAllocateDef]; (repeat' (first | with_reducible rfl | (simp only [modCrypt_only, drawn1_only, h0, h1]; done) | with_reducible refine onlyA_reply _ _ _ _ _ ?_ | with_reducible refine onlyA_replyLong _ _ _ _ _ ?_ | with_reducible refine onlyA_startOp _ _ _ _ _ _ _ _ _ (by assumption) (by assumption) ?_ | with_reducible refine onlyA_mk _ _ _ _ _ _ _ _ ?_ | split | (with_reducible refine (only_foldl _ (fun y b => ?_) _ _).trans ?_) | (refine ⟨?_, fun z => ?_⟩) | (simp only [])))
theorem execKeyAllocate_only {L : List Part} {s : State} (a0 : Packet) (a1 : State) (h0 : Part.fenced ∈ L) (h1 : Part.out ∈ L) (h2 : Part.drawn ∈ L) (h3 : Part.owner ∈ L) (h4 : Part.rings ∈ L) (h5 : Part.hosts ∈ L) (h6 : Part.fns ∈ L) (h7 : Part.crypt ∈ L) (hx : changesOnly L s a1) : OnlyO L s (execKeyAllocate a0 a1) := by
  (simp only [execKeyAllocate, onlyO_next, hx, runCmd_only, keyAllocateDef_only, h0, h1, h2, h3, h4, h5, h6, h7]; done)
theorem keyImportDef_only {L : List Part} {s : State}  (h0 : Part.drawn ∈ L) (h1 : Part.nv ∈ L) (h2 : Part.owner ∈ L) (h3 : Part.crypt ∈ L) (h4 : Part.counters ∈ L) : DefOnly L s keyImportDef := by
  intro o p y; simp only [keyImportDef]; (repeat' (first | with_reducible rfl | (simp only [onlyA_ite, unwrapFailed_only, drawn1_only, loadKey__only, h0, h1, h2, h3, h4]; done) | with_reducible refine onlyA_reply _ _ _ _ _ ?_ | with_reducible refine onlyA_replyLong _ _ _ _ _ ?_ | with_reducible refine onlyA_startOp _ _ _ _ _ _ _ _ _ (by assumption) (by assumption) ?_ | with_reducible refine onlyA_mk _ _ _ _ _ _ _ _ ?_ | split | (with_reducible refine (only_foldl _ (fun y b => ?_) _ _).trans ?_) | (refine ⟨?_, fun z => ?_⟩) | (simp only [])))
theorem execKeyImport_only {L : List Part} {s : State} (a0 : Packet) (a1 : State) (h0 : Part.fenced ∈ L) (h1 : Part.out ∈ L) (h2 : Part.drawn ∈ L) (h3 : Part.nv ∈ L) (h4 : Part.owner ∈ L) (h5 : Part.rings ∈ L) (h6 : Part.hosts ∈ L) (h7 : Part.fns ∈ L) (h8 : Part.crypt ∈ L) (h9 : Part.counters ∈ L) (hx : changesOnly L s a1) : OnlyO L s (execKeyImport a0 a1) := by
  (simp only [execKeyImport, onlyO_next, hx, runCmd_only, keyImportDef_only, h0, h1, h2, h3, h4, h5, h6, h7, h8, h9]; done)
theorem keyDestroyDef_only {L : List Part} {s : State}  (h0 : Part.nv ∈ L) (h1 : Part.crypt ∈ L) : DefOnly L s keyDestroyDef := by
  intro o p y; simp only [keyDestroyDef]; (repeat' (first | with_reducible rfl | (simp only [only_ite, ite_self, modCrypt_only, freeSlot_only, sealSlot_only, h0, h1]; done) | with_reducible refine onlyA_reply _ _ _ _ _ ?_ | with_reducible refine onlyA_replyLong _ _ _ _ _ ?_ | with_reducible refine onlyA_startOp _ _ _ _ _ _ _ _ _ (by assumption) (by assumption) ?_ | with_reducible refine onlyA_mk _ _ _ _ _ _ _ _ ?_ | split | (with_reducible refine (only_foldl _ (fun y b => ?_) _ _).trans ?_) | (refine ⟨?_, fun z => ?_⟩) | (simp only [])))
theorem execKeyDestroy_only {L : List Part} {s : State} (a0 : Packet) (a1 : State) (h0 : Part.fenced ∈ L) (h1 : Part.out ∈ L) (h2 : Part.nv ∈ L) (h3 : Part.owner ∈ L) (h4 : Part.rings ∈ L) (h5 : Part.hosts ∈ L) (h6 : Part.fns ∈ L) (h7 : Part.crypt ∈ L) (hx : changesOnly L s a1) : OnlyO L s (execKeyDestroy a0 a1) := by
  (simp only [execKeyDestroy, onlyO_next, hx, runCmd_only, keyDestroyDef_only, h0, h1, h2, h3, h4, h5, h6, h7]; done)
theorem keyQueryDef_only {L : List Part} {s : State}   : DefOnly L s keyQueryDef := by
  intro o p y; simp only [keyQueryDef]; (repeat' (first | with_reducible rfl | (simp only [only_ite, ite_self, onlyA_ite, reply_only]; done) | with_reducible refine onlyA_reply _ _ _ _ _ ?_ | with_reducible refine onlyA_replyLong _ _ _ _ _ ?_ | with_reducible refine onlyA_startOp _ _ _ _ _ _ _ _ _ (by assumption) (by assumption) ?_ | with_reducible refine onlyA_mk _ _ _ _ _ _ _ _ ?_ | split | (with_reducible refine (only_foldl _ (fun y b => ?_) _ _).trans ?_) | (refine ⟨?_, fun z => ?_⟩) | (simp only [])))
theorem execKeyQuery_only {L : List Part} {s : State} (a0 : Packet) (a1 : State) (h0 : Part.fenced ∈ L) (h1 : Part.out ∈ L) (h2 : Part.owner ∈ L) (h3 : Part.rings ∈ L) (h4 : Part.hosts ∈ L) (h5 : Part.fns ∈ L) (hx : changesOnly L s a1) : OnlyO L s (execKeyQuery a0 a1) := by
  (simp only [execKeyQuery, onlyO_next, hx, runCmd_only, keyQueryDef_only, h0, h1, h2, h3, h4, h5]; done)
theorem importKeySetDef_only {L : List Part} {s : State}  (h0 : Part.nv ∈ L) (h1 : Part.owner ∈ L) (h2 : Part.crypt ∈ L) (h3 : Part.counters ∈ L) : DefOnly L s importKeySetDef := by
  intro o p y; simp only [importKeySetDef]; (repeat' (first | with_reducible rfl | (simp only [only_ite, ite_self, unwrapFailed_only, modCrypt_only, only_nv, sameFuses_iff, eq_self, and_self, h0, h1, h2, h3]; done) | with_reducible refine onlyA_reply _ _ _ _ _ ?_ | with_reducible refine onlyA_replyLong _ _ _ _ _ ?_ | with_reducible refine onlyA_startOp _ _ _ _ _ _ _ _ _ (by assumption) (by assumption) ?_ | with_reducible refine onlyA_mk _ _ _ _ _ _ _ _ ?_ | split | (with_reducible refine (only_foldl _ (fun y b => ?_) _ _).trans ?_) | (refine ⟨?_, fun z => ?_⟩) | (simp only [])))
theorem execImportKeySet_only {L : List Part} {s : State} (a0 : Packet) (a1 : State) (h0 : Part.fenced ∈ L) (h1 : Part.out ∈ L) (h2 : Part.nv ∈ L) (h3 : Part.owner ∈ L) (h4 : Part.rings ∈ L) (h5 : Part.hosts ∈ L) (h6 : Part.fns ∈ L) (h7 : Part.crypt ∈ L) (h8 : Part.counters ∈ L) (hx : changesOnly L s a1) : OnlyO L s (execImportKeySet a0 a1) := by
  (simp only [execImportKeySet, onlyO_next, hx, runCmd_only, importKeySetDef_only, h0, h1, h2, h3, h4, h5, h6, h7, h8]; done)
theorem keyTierSetDef_only {L : List Part} {s : State}  (h0 : Part.drawn ∈ L) (h1 : Part.crypt ∈ L) (h2 : Part.counters ∈ L) : DefOnly L s keyTierSetDef := by
  intro o p y; simp only [keyTierSetDef]; (repeat' (first | with_reducible rfl | (simp only [onlyA_ite, modCrypt_only, drawn1_only, pageOut_only, pageIn_only, count_only, h0, h1, h2]; done) | with_reducible refine onlyA_reply _ _ _ _ _ ?_ | with_reducible refine onlyA_replyLong _ _ _ _ _ ?_ | with_reducible refine onlyA_startOp _ _ _ _ _ _ _ _ _ (by assumption) (by assumption) ?_ | with_reducible refine onlyA_mk _ _ _ _ _ _ _ _ ?_ | split | (with_reducible refine (only_foldl _ (fun y b => ?_) _ _).trans ?_) | (refine ⟨?_, fun z => ?_⟩) | (simp only [])))
theorem execKeyTierSet_only {L : List Part} {s : State} (a0 : Packet) (a1 : State) (h0 : Part.fenced ∈ L) (h1 : Part.out ∈ L) (h2 : Part.drawn ∈ L) (h3 : Part.owner ∈ L) (h4 : Part.rings ∈ L) (h5 : Part.hosts ∈ L) (h6 : Part.fns ∈ L) (h7 : Part.crypt ∈ L) (h8 : Part.counters ∈ L) (hx : changesOnly L s a1) : OnlyO L s (execKeyTierSet a0 a1) := by
  (simp only [execKeyTierSet, onlyO_next, hx, runCmd_only, keyTierSetDef_only, h0, h1, h2, h3, h4, h5, h6, h7, h8]; done)
theorem keystoreZeroiseDef_only {L : List Part} {s : State}  (h0 : Part.out ∈ L) (h1 : Part.nv ∈ L) (h2 : Part.owner ∈ L) (h3 : Part.hosts ∈ L) (h4 : Part.fns ∈ L) (h5 : Part.queues ∈ L) (h6 : Part.hod ∈ L) (h7 : Part.sched ∈ L) (h8 : Part.net ∈ L) (h9 : Part.crypt ∈ L) (h10 : Part.cores ∈ L) (h11 : Part.klb ∈ L) (h12 : Part.counters ∈ L) : DefOnly L s keystoreZeroiseDef := by
  intro o p y; simp only [keystoreZeroiseDef]; (repeat' (first | with_reducible rfl | (simp only [only_ite, ite_self, modCrypt_only, eraseAlarm_only, only_nv, sameFuses_iff, eq_self, and_self, h0, h1, h2, h3, h4, h5, h6, h7, h8, h9, h10, h11, h12]; done) | with_reducible refine onlyA_reply _ _ _ _ _ ?_ | with_reducible refine onlyA_replyLong _ _ _ _ _ ?_ | with_reducible refine onlyA_startOp _ _ _ _ _ _ _ _ _ (by assumption) (by assumption) ?_ | with_reducible refine onlyA_mk _ _ _ _ _ _ _ _ ?_ | split | (with_reducible refine (only_foldl _ (fun y b => ?_) _ _).trans ?_) | (refine ⟨?_, fun z => ?_⟩) | (simp only [])))
theorem execKeystoreZeroise_only {L : List Part} {s : State} (a0 : Packet) (a1 : State) (h0 : Part.fenced ∈ L) (h1 : Part.out ∈ L) (h2 : Part.nv ∈ L) (h3 : Part.owner ∈ L) (h4 : Part.rings ∈ L) (h5 : Part.hosts ∈ L) (h6 : Part.fns ∈ L) (h7 : Part.queues ∈ L) (h8 : Part.hod ∈ L) (h9 : Part.sched ∈ L) (h10 : Part.net ∈ L) (h11 : Part.crypt ∈ L) (h12 : Part.cores ∈ L) (h13 : Part.klb ∈ L) (h14 : Part.counters ∈ L) (hx : changesOnly L s a1) : OnlyO L s (execKeystoreZeroise a0 a1) := by
  (simp only [execKeystoreZeroise, onlyO_next, hx, runCmd_only, keystoreZeroiseDef_only, h0, h1, h2, h3, h4, h5, h6, h7, h8, h9, h10, h11, h12, h13, h14]; done)
theorem eraseSlot_only {L : List Part} {s : State} (a0 : Nat) (a1 : State) (h0 : Part.crypt ∈ L) : changesOnly L s (eraseSlot a0 a1) ↔ changesOnly L s a1 := by
  (simp only [eraseSlot, iff_self, dropCached_only, modSlot_only, h0]; done)
theorem alarmSource_only {L : List Part} {s : State} (a0 : Nat) (a1 : Nat) (a2 : State) (h0 : Part.out ∈ L) (h1 : Part.owner ∈ L) (h2 : Part.hosts ∈ L) (h3 : Part.fns ∈ L) (h4 : Part.queues ∈ L) (h5 : Part.hod ∈ L) (h6 : Part.sched ∈ L) (h7 : Part.net ∈ L) (h8 : Part.crypt ∈ L) (h9 : Part.cores ∈ L) (h10 : Part.klb ∈ L) (h11 : Part.counters ∈ L) : changesOnly L s (alarmSource a0 a1 a2) ↔ changesOnly L s a2 := by
  unfold alarmSource
  split <;> simp only [reportAlarm_only, eraseSlot_only, modCrypt_only, eraseAlarm_only, h0, h1, h2, h3, h4, h5, h6, h7, h8, h9, h10, h11]
theorem execKeyAlarmSourceCleared_only {L : List Part} {s : State} (a0 : Byte) (a1 : State) (h0 : Part.crypt ∈ L) (hx : changesOnly L s a1) : OnlyO L s (execKeyAlarmSourceCleared a0 a1) := by
  (simp only [execKeyAlarmSourceCleared, only_ite, ite_self, onlyO_next, hx, modCrypt_only, h0]; done)
theorem zeroiseFn_only {L : List Part} {s : State} (a0 : HostId) (a1 : Fn) (a2 : State) (h0 : Part.crypt ∈ L) : changesOnly L s (zeroiseFn a0 a1 a2) ↔ changesOnly L s a2 := by
  (simp only [zeroiseFn, iff_self, modCrypt_only, h0]; done)
theorem regenerate_only {L : List Part} {s : State} (a0 : Nat) (a1 : State) (h0 : Part.drawn ∈ L) (h1 : Part.nv ∈ L) (h2 : Part.crypt ∈ L) : changesOnly L s (regenerate a0 a1) ↔ changesOnly L s a1 := by
  (fun_cases regenerate a0 a1 <;> (simp +zetaDelta only [iff_self, drawn1_only, dropCached_only, modSlot_only, sealSlot_only, h0, h1, h2]; done))
theorem bootKeys_only {L : List Part} {s : State} (a0 : State) (h0 : Part.crypt ∈ L) : changesOnly L s (bootKeys a0) ↔ changesOnly L s a0 := by
  (simp only [bootKeys, iff_self, h0, only_crypt]; done)
theorem countTagFail_only {L : List Part} {s : State} (a0 : Nat) (a1 : Nat) (a2 : State) (h0 : Part.crypt ∈ L) (h1 : Part.counters ∈ L) : changesOnly L s (countTagFail a0 a1 a2) ↔ changesOnly L s a2 := by
  (simp only [countTagFail, iff_self, modSlot_only, count_only, h0, h1]; done)

end Sys2Proof.Machine
end

