-- ==== Sys2Proof/Laws/FrameLrd.lean ====
section
/-! SUPPORT. FrameLrd.lean: what each definition of the machine may change, for the LRD connections: one lemma `<name>_only` for each, which names the parts of the state it touches. -/

set_option linter.all false

namespace Sys2Proof.Machine
open Sys2Proof

theorem modCtx_only {L : List Part} {s : State} (a0 : Ctx → Ctx) (a1 : State) (h0 : Part.ctx ∈ L) : changesOnly L s (modCtx a0 a1) ↔ changesOnly L s a1 := by
  (simp only [modCtx, iff_self, h0, only_ctx]; done)
theorem modConn_only {L : List Part} {s : State} (a0 : Nat) (a1 : Conn → Conn) (a2 : State) (h0 : Part.ctx ∈ L) : changesOnly L s (modConn a0 a1 a2) ↔ changesOnly L s a2 := by
  (simp only [modConn, iff_self, modCtx_only, h0]; done)
theorem countX_only {L : List Part} {s : State} (a0 : Nat) (a1 : Nat) (a2 : State) (h0 : Part.counters ∈ L) : changesOnly L s (countX a0 a1 a2) ↔ changesOnly L s a2 := by
  (simp only [countX, iff_self, count_only, h0]; done)
theorem countC_only {L : List Part} {s : State} (a0 : Nat) (a1 : Nat) (a2 : State) (h0 : Part.counters ∈ L) : changesOnly L s (countC a0 a1 a2) ↔ changesOnly L s a2 := by
  (simp only [countC, iff_self, count_only, h0]; done)
theorem connCqe_only {L : List Part} {s : State} (a0 : Conn) (a1 : Nat) (a2 : Nat) (a3 : Nat) (a4 : Nat) (a5 : Nat) (a6 : Nat) (a7 : Nat) (a8 : State) (h0 : Part.out ∈ L) (h1 : Part.hosts ∈ L) (h2 : Part.fns ∈ L) (h3 : Part.queues ∈ L) : changesOnly L s (connCqe a0 a1 a2 a3 a4 a5 a6 a7 a8) ↔ changesOnly L s a8 := by
  (fun_cases connCqe a0 a1 a2 a3 a4 a5 a6 a7 a8 <;> (simp +zetaDelta only [iff_self, writeCqe_only, h0, h1, h2, h3]; done))
theorem modConnQueue_only {L : List Part} {s : State} (a0 : Conn) (a1 : Nat) (a2 : Queue → Queue) (a3 : State) (h0 : Part.queues ∈ L) : changesOnly L s (modConnQueue a0 a1 a2 a3) ↔ changesOnly L s a3 := by
  (fun_cases modConnQueue a0 a1 a2 a3 <;> (simp +zetaDelta only [iff_self, modQueue_only, h0]; done))
theorem flushWrs_only {L : List Part} {s : State} (a0 : Nat) (a1 : Nat) (a2 : State) (h0 : Part.out ∈ L) (h1 : Part.hosts ∈ L) (h2 : Part.fns ∈ L) (h3 : Part.queues ∈ L) (h4 : Part.ctx ∈ L) : changesOnly L s (flushWrs a0 a1 a2) ↔ changesOnly L s a2 := by
  induction a1 generalizing a2 with
  | zero => exact Iff.rfl
  | succ n ih =>
    unfold flushWrs
    split; · exact Iff.rfl
    split; · exact Iff.rfl
    split; · exact Iff.rfl
    rw [ih]
    split <;> simp only [connCqe_only, modConnQueue_only, modConn_only, h0, h1, h2, h3, h4]
theorem settleWrs_only {L : List Part} {s : State} (a0 : Nat) (a1 : State) (h0 : Part.out ∈ L) (h1 : Part.hosts ∈ L) (h2 : Part.fns ∈ L) (h3 : Part.queues ∈ L) (h4 : Part.ctx ∈ L) : changesOnly L s (settleWrs a0 a1) ↔ changesOnly L s a1 := by
  (simp only [settleWrs, iff_self, modConn_only, flushWrs_only, h0, h1, h2, h3, h4]; done)
theorem flushRq_only {L : List Part} {s : State} (a0 : Conn) (a1 : Nat) (a2 : List RxBuf) (a3 : State) (h0 : Part.out ∈ L) (h1 : Part.hosts ∈ L) (h2 : Part.fns ∈ L) (h3 : Part.queues ∈ L) : changesOnly L s (flushRq a0 a1 a2 a3) ↔ changesOnly L s a3 := by
  (fun_induction flushRq a0 a1 a2 a3 <;> (first | (simp only [iff_self]; done) | (simp only [iff_self, connCqe_only, *]; done) | (simp [only_foldl, only_ite, ite_self, h0, h1, h2, h3, connCqe_only, *]; done)); done)
theorem failWork_only {L : List Part} {s : State} (a0 : Nat) (a1 : Nat) (a2 : State) (h0 : Part.out ∈ L) (h1 : Part.hosts ∈ L) (h2 : Part.fns ∈ L) (h3 : Part.queues ∈ L) (h4 : Part.ctx ∈ L) : changesOnly L s (failWork a0 a1 a2) ↔ changesOnly L s a2 := by
  (fun_cases failWork a0 a1 a2 <;> (simp +zetaDelta only [iff_self, flushRq_only, modConn_only, flushWrs_only, h0, h1, h2, h3, h4]; done))
theorem flushChain_only {L : List Part} {s : State} (a0 : Nat) (a1 : State) (h0 : Part.hod ∈ L) (h1 : Part.ctx ∈ L) (h2 : Part.counters ∈ L) : changesOnly L s (flushChain a0 a1) ↔ changesOnly L s a1 := by
  (fun_cases flushChain a0 a1 <;> (simp +zetaDelta only [only_foldl, iff_self, implies_true, freeHods_only, modConn_only, countC_only, h0, h1, h2]; done))
theorem raiseConnError_only {L : List Part} {s : State} (a0 : Nat) (a1 : Nat) (a2 : Nat) (a3 : Nat) (a4 : Conn) (a5 : State) (h0 : Part.out ∈ L) (h1 : Part.owner ∈ L) (h2 : Part.rings ∈ L) (h3 : Part.hosts ∈ L) (h4 : Part.fns ∈ L) : changesOnly L s (raiseConnError a0 a1 a2 a3 a4 a5) ↔ changesOnly L s a5 := by
  (fun_cases raiseConnError a0 a1 a2 a3 a4 a5 <;> (simp +zetaDelta only [iff_self, raiseFn_only, raiseOwner_only, h0, h1, h2, h3, h4]; done))
theorem connError_only {L : List Part} {s : State} (a0 : Nat) (a1 : Nat) (a2 : Nat) (a3 : Nat) (a4 : Nat) (a5 : State) (h0 : Part.out ∈ L) (h1 : Part.owner ∈ L) (h2 : Part.rings ∈ L) (h3 : Part.hosts ∈ L) (h4 : Part.fns ∈ L) (h5 : Part.queues ∈ L) (h6 : Part.hod ∈ L) (h7 : Part.ctx ∈ L) (h8 : Part.counters ∈ L) : changesOnly L s (connError a0 a1 a2 a3 a4 a5) ↔ changesOnly L s a5 := by
  (fun_cases connError a0 a1 a2 a3 a4 a5 <;> (simp +zetaDelta only [only_foldl, iff_self, implies_true, countX_only, freeHods_only, modConn_only, failWork_only, raiseConnError_only, h0, h1, h2, h3, h4, h5, h6, h7, h8]; done))
theorem pathPut_only {L : List Part} {s : State} (a0 : Nat) (a1 : PathEntry) (a2 : State) (h0 : Part.ctx ∈ L) : changesOnly L s (pathPut a0 a1 a2) ↔ changesOnly L s a2 := by
  (simp only [pathPut, iff_self, modCtx_only, h0]; done)
theorem foldConn_only {L : List Part} {s : State} (a0 : Nat) (a1 : State) (h0 : Part.ctx ∈ L) (h1 : Part.counters ∈ L) : changesOnly L s (foldConn a0 a1) ↔ changesOnly L s a1 := by
  (fun_cases foldConn a0 a1 <;> (simp +zetaDelta only [iff_self, pathPut_only, modConn_only, count_only, h0, h1]; done))
theorem rttSample_only {L : List Part} {s : State} (a0 : Nat) (a1 : Nat) (a2 : State) (h0 : Part.ctx ∈ L) (h1 : Part.counters ∈ L) : changesOnly L s (rttSample a0 a1 a2) ↔ changesOnly L s a2 := by
  (unfold rttSample; (repeat' (first | (with_reducible rfl) | (simp only [iff_self, only_ite, ite_self, modConn_only, countC_only, foldConn_only, h0, h1]; done) | split | (with_reducible refine (only_foldl _ (fun y b => ?_) _ _).trans ?_) | (simp only []))); done)
theorem payPacer_only {L : List Part} {s : State} (a0 : Nat) (a1 : Nat) (a2 : State) (h0 : Part.ctx ∈ L) : changesOnly L s (payPacer a0 a1 a2) ↔ changesOnly L s a2 := by
  (simp only [payPacer, iff_self, modConn_only, h0]; done)
theorem evict_only {L : List Part} {s : State} (a0 : Nat) (a1 : State) (h0 : Part.out ∈ L) (h1 : Part.ctx ∈ L) (h2 : Part.counters ∈ L) : changesOnly L s (evict a0 a1) ↔ changesOnly L s a1 := by
  (fun_cases evict a0 a1 <;> (simp +zetaDelta only [iff_self, modConn_only, emit_only, countC_only, h0, h1, h2]; done))
theorem issueFetch_only {L : List Part} {s : State} (a0 : Nat) (a1 : Conn) (a2 : State) (h0 : Part.out ∈ L) (h1 : Part.drawn ∈ L) (h2 : Part.hosts ∈ L) : changesOnly L s (issueFetch a0 a1 a2) ↔ changesOnly L s a2 := by
  (simp only [issueFetch, iff_self, only_ite, ite_self, emit_only, issueRead_only, h0, h1, h2]; done)
theorem sweep_only {L : List Part} {s : State} (x : State) (p : Nat → Conn → Bool) (i : Nat) (y : State) (h0 : Part.ctx ∈ L) (e : sweep x p = some (i, y)) : changesOnly L s y ↔ changesOnly L s x := by
  unfold sweep at e
  simp only [Option.map_eq_some_iff, Prod.mk.injEq] at e
  obtain ⟨v, _, _, e⟩ := e
  rw [← e, modCtx_only _ _ h0]
  exact only_foldl _ (fun y b => modConn_only _ _ _ h0) _ _
theorem reserveSlot_only {L : List Part} {s : State} (d : Nat) (x : State) (i : Nat) (y : State) (h0 : Part.out ∈ L) (h1 : Part.drawn ∈ L) (h2 : Part.ctx ∈ L) (h3 : Part.counters ∈ L) (e : reserveSlot d x = some (i, y)) : changesOnly L s y ↔ changesOnly L s x := by
  have hv : ∀ p, (sweep x p).map (fun r => (((conn x r.1).map (·.slot)).getD 0, evict r.1 r.2)) = some (i, y) → (changesOnly L s y ↔ changesOnly L s x) := by
    intro p e
    simp only [Option.map_eq_some_iff, Prod.mk.injEq] at e
    obtain ⟨⟨k, z⟩, hz, _, e⟩ := e
    rw [← e]
    refine Iff.trans ?_ (sweep_only x p k z ‹_› hz)
    simp only [evict_only, h0, h2, h3]
  unfold reserveSlot at e
  simp only [] at e
  split at e
  · exact hv _ e
  · split at e
    · simp only [Option.some.injEq, Prod.mk.injEq] at e
      rw [← e.2]; simp only [drawn1_only, h1]
    · exact hv _ e
theorem startFetch_only {L : List Part} {s : State} (a0 : Nat) (a1 : State) (h0 : Part.out ∈ L) (h1 : Part.drawn ∈ L) (h2 : Part.hosts ∈ L) (h3 : Part.ctx ∈ L) (h4 : Part.counters ∈ L) : changesOnly L s (startFetch a0 a1) ↔ changesOnly L s a1 := by
  unfold startFetch
  split; · exact Iff.rfl
  split
  · simp only [countC_only, modConn_only, h3, h4]
  · next e =>
    refine Iff.trans ?_ (reserveSlot_only _ _ _ _ h0 h1 h3 h4 e)
    simp only [issueFetch_only, modConn_only, h0, h1, h2, h3]
theorem missFetch_only {L : List Part} {s : State} (a0 : Nat) (a1 : State) (h0 : Part.out ∈ L) (h1 : Part.drawn ∈ L) (h2 : Part.hosts ∈ L) (h3 : Part.ctx ∈ L) (h4 : Part.counters ∈ L) : changesOnly L s (missFetch a0 a1) ↔ changesOnly L s a1 := by
  (fun_cases missFetch a0 a1 <;> (simp +zetaDelta only [iff_self, startFetch_only, countC_only, h0, h1, h2, h3, h4]; done))
theorem contextLost_only {L : List Part} {s : State} (a0 : Nat) (a1 : State) (h0 : Part.out ∈ L) (h1 : Part.owner ∈ L) (h2 : Part.rings ∈ L) (h3 : Part.hosts ∈ L) (h4 : Part.fns ∈ L) (h5 : Part.queues ∈ L) (h6 : Part.hod ∈ L) (h7 : Part.ctx ∈ L) (h8 : Part.counters ∈ L) : changesOnly L s (contextLost a0 a1) ↔ changesOnly L s a1 := by
  (simp only [contextLost, iff_self, modConn_only, countC_only, connError_only, flushChain_only, h0, h1, h2, h3, h4, h5, h6, h7, h8]; done)
theorem putRecent_only {L : List Part} {s : State} (a0 : Nat) (a1 : Nat) (a2 : State) (h0 : Part.ctx ∈ L) (h1 : Part.counters ∈ L) : changesOnly L s (putRecent a0 a1 a2) ↔ changesOnly L s a2 := by
  (simp only [putRecent, iff_self, only_ite, ite_self, modCtx_only, count_only, h0, h1]; done)
theorem dropConnQueue_only {L : List Part} {s : State} (h : HostId) (f : Fn) (q : Nat) (x : State) (h0 : Part.queues ∈ L) (h1 : Part.sched ∈ L) : changesOnly L s (dropConnQueue h f q x) ↔ changesOnly L s x := only_queues_sched x h0 h1
theorem endConn_only {L : List Part} {s : State} (a0 : Bool) (a1 : Nat) (a2 : State) (h0 : Part.out ∈ L) (h1 : Part.hosts ∈ L) (h2 : Part.fns ∈ L) (h3 : Part.queues ∈ L) (h4 : Part.hod ∈ L) (h5 : Part.sched ∈ L) (h6 : Part.net ∈ L) (h7 : Part.ctx ∈ L) (h8 : Part.counters ∈ L) : changesOnly L s (endConn a0 a1 a2) ↔ changesOnly L s a2 := by
  unfold endConn
  split
  · exact Iff.rfl
  simp only [putRecent_only, modCtx_only, h7, h8]
  split <;> simp only [dropConnQueue_only, dropLeaf_only, only_foldl, iff_self, implies_true, only_ite, ite_self, freeHods_only, failWork_only, flushChain_only, foldConn_only, h0, h1, h2, h3, h4, h5, h6, h7, h8]
theorem endConns_only {L : List Part} {s : State} (a0 : Option Nat → Bool) (a1 : State) (h0 : Part.out ∈ L) (h1 : Part.hosts ∈ L) (h2 : Part.fns ∈ L) (h3 : Part.queues ∈ L) (h4 : Part.hod ∈ L) (h5 : Part.sched ∈ L) (h6 : Part.net ∈ L) (h7 : Part.ctx ∈ L) (h8 : Part.counters ∈ L) : changesOnly L s (endConns a0 a1) ↔ changesOnly L s a1 := by
  (simp only [endConns, only_foldl, iff_self, implies_true, only_ite, ite_self, endConn_only, h0, h1, h2, h3, h4, h5, h6, h7, h8]; done)
theorem oweAck_only {L : List Part} {s : State} (a0 : Nat) (a1 : Nat) (a2 : Nat) (a3 : State) (h0 : Part.ctx ∈ L) : changesOnly L s (oweAck a0 a1 a2 a3) ↔ changesOnly L s a3 := by
  (simp only [oweAck, iff_self, modConn_only, h0]; done)
theorem oweNak_only {L : List Part} {s : State} (a0 : Nat) (a1 : Nat) (a2 : LrdPkt) (a3 : State) (h0 : Part.ctx ∈ L) : changesOnly L s (oweNak a0 a1 a2 a3) ↔ changesOnly L s a3 := by
  (simp only [oweNak, iff_self, modConn_only, h0]; done)
theorem nakAllowed_only {L : List Part} {s : State} (a0 : Nat) (a1 : State) (h0 : Part.ctx ∈ L) (h1 : Part.counters ∈ L) : changesOnly L s (nakAllowed a0 a1).2 ↔ changesOnly L s a1 := by
  (fun_cases nakAllowed a0 a1 <;> (simp +zetaDelta only [iff_self, modCtx_only, count_only, h0, h1]; done))
theorem takeCharged_only {L : List Part} {s : State} (p : Payer) (x7 : Bool) (pool n : Nat) (x : State) (l : List Nat) (y : State) (h0 : Part.drawn ∈ L) (h1 : Part.hod ∈ L) (h2 : Part.counters ∈ L) (e : takeCharged p x7 pool n x = .ok (l, y)) : changesOnly L s y ↔ changesOnly L s x := by
  induction n generalizing x l with
  | zero => injection e with e; rw [(Prod.mk.inj e).2]
  | succ n ih =>
    unfold takeCharged at e
    split at e
    · contradiction
    · split at e
      · contradiction
      · simp only [] at e
        split at e
        · contradiction
        · next r hr =>
          injection e with e
          obtain ⟨_, e⟩ := Prod.mk.inj e
          obtain ⟨a, b⟩ := r
          refine (ih _ _ (by rw [hr, ← e])).trans ?_
          simp only [takeHod_only, h0, h1, h2]
theorem takeSmallest_only {L : List Part} {s : State} (p : Payer) (x7 : Bool) (len : Nat) (ps : List Nat) (x : State) (l : List Nat) (y : State) (h0 : Part.drawn ∈ L) (h1 : Part.hod ∈ L) (h2 : Part.counters ∈ L) (e : takeSmallest p x7 len ps x = .ok (l, y)) : changesOnly L s y ↔ changesOnly L s x := by
  induction ps with
  | nil => contradiction
  | cons k r ih =>
    unfold takeSmallest at e
    split at e
    · exact ih e
    · split at e
      · next z hz => injection e with e; subst e; exact takeCharged_only p x7 _ _ x l y h0 h1 h2 hz
      · split at e
        · contradiction
        · exact ih e
theorem allocHods_only {L : List Part} {s : State} (p : Payer) (q x7 : Bool) (len : Nat) (x : State) (l : List Nat) (y : State) (h0 : Part.drawn ∈ L) (h1 : Part.hod ∈ L) (h2 : Part.counters ∈ L) (e : allocHods p q x7 len x = .ok (l, y)) : changesOnly L s y ↔ changesOnly L s x := by
  unfold allocHods at e
  split at e
  · split at e
    · next r hr =>
      obtain ⟨a, b⟩ := r
      injection e with e
      obtain ⟨_, e⟩ := Prod.mk.inj e
      refine Iff.trans ?_ (takeCharged_only p x7 _ _ x a b h0 h1 h2 hr)
      rw [← e]; simp only [linkChain_only, h1]
    · contradiction
  · exact takeSmallest_only p x7 len _ x l y h0 h1 h2 e
theorem noConnNak_only {L : List Part} {s : State} (a0 : LrdPkt) (a1 : State) (h0 : Part.drawn ∈ L) (h1 : Part.hod ∈ L) (h2 : Part.sched ∈ L) (h3 : Part.ctx ∈ L) (h4 : Part.counters ∈ L) : changesOnly L s (noConnNak a0 a1) ↔ changesOnly L s a1 := by
  unfold noConnNak
  split
  · next y e => have := nakAllowed_only (L := L) (s := s) a0.pkt.pipe a1 h3 h4; rw [e] at this; exact this
  · next y e =>
    have hy := nakAllowed_only (L := L) (s := s) a0.pkt.pipe a1 h3 h4
    rw [e] at hy
    refine Iff.trans ?_ hy
    simp only []
    split
    · simp only [countRefused_only, only_drawn, h0, h4]
    · next z ez =>
      refine Iff.trans ?_ ((allocHods_only _ _ _ _ _ _ _ h0 h1 h4 ez).trans (only_drawn _ h0))
      simp only [forwardTo_only, h2]
theorem execFail_only {L : List Part} {s : State} (a0 : Nat) (a1 : Nat) (a2 : State) (h0 : Part.hod ∈ L) (h1 : Part.ctx ∈ L) : changesOnly L s (execFail a0 a1 a2) ↔ changesOnly L s a2 := by
  (fun_cases execFail a0 a1 a2 <;> (simp +zetaDelta only [only_foldl, iff_self, implies_true, freeHods_only, modConn_only, h0, h1]; done))
theorem refuseFatal_only {L : List Part} {s : State} (a0 : Nat) (a1 : Nat) (a2 : Nat) (a3 : LrdPkt) (a4 : State) (h0 : Part.out ∈ L) (h1 : Part.owner ∈ L) (h2 : Part.rings ∈ L) (h3 : Part.hosts ∈ L) (h4 : Part.fns ∈ L) (h5 : Part.queues ∈ L) (h6 : Part.hod ∈ L) (h7 : Part.ctx ∈ L) (h8 : Part.counters ∈ L) : changesOnly L s (refuseFatal a0 a1 a2 a3 a4) ↔ changesOnly L s a4 := by
  (simp only [refuseFatal, iff_self, execFail_only, connError_only, h0, h1, h2, h3, h4, h5, h6, h7, h8]; done)
theorem refuseRnr_only {L : List Part} {s : State} (a0 : Nat) (a1 : LrdPkt) (a2 : State) (h0 : Part.hod ∈ L) (h1 : Part.ctx ∈ L) : changesOnly L s (refuseRnr a0 a1 a2) ↔ changesOnly L s a2 := by
  (simp only [refuseRnr, iff_self, oweNak_only, execFail_only, h0, h1]; done)
theorem serveRead_only {L : List Part} {s : State} (a0 : Nat) (a1 : LrdPkt) (a2 : State) (h0 : Part.ctx ∈ L) : changesOnly L s (serveRead a0 a1 a2) ↔ changesOnly L s a2 := by
  (simp only [serveRead, iff_self, modConn_only, h0]; done)
theorem setPhase_only {L : List Part} {s : State} (a0 : Nat) (a1 : Nat) (a2 : Nat) (a3 : State) (h0 : Part.ctx ∈ L) : changesOnly L s (setPhase a0 a1 a2 a3) ↔ changesOnly L s a3 := by
  (simp only [setPhase, iff_self, modConn_only, h0]; done)
theorem waitAtLeaf_only {L : List Part} {s : State} (a0 : Nat) (a1 : Conn) (a2 : LrdPkt) (a3 : State) (h0 : Part.sched ∈ L) (h1 : Part.ctx ∈ L) : changesOnly L s (waitAtLeaf a0 a1 a2 a3) ↔ changesOnly L s a3 := by
  (fun_cases waitAtLeaf a0 a1 a2 a3 <;> (simp +zetaDelta only [only_foldl, iff_self, implies_true, activate_only, modSched_only, setPhase_only, h0, h1]; done))
theorem execRead_only {L : List Part} {s : State} (a0 : Nat) (a1 : Conn) (a2 : LrdPkt) (a3 : State) (h0 : Part.out ∈ L) (h1 : Part.owner ∈ L) (h2 : Part.rings ∈ L) (h3 : Part.hosts ∈ L) (h4 : Part.fns ∈ L) (h5 : Part.queues ∈ L) (h6 : Part.hod ∈ L) (h7 : Part.ctx ∈ L) (h8 : Part.counters ∈ L) : changesOnly L s (execRead a0 a1 a2 a3) ↔ changesOnly L s a3 := by
  (simp only [execRead, iff_self, only_ite, ite_self, refuseFatal_only, refuseRnr_only, serveRead_only, setPhase_only, h0, h1, h2, h3, h4, h5, h6, h7, h8]; done)
theorem beginExec_only {L : List Part} {s : State} (a0 : Nat) (a1 : LrdPkt) (a2 : State) (h0 : Part.out ∈ L) (h1 : Part.owner ∈ L) (h2 : Part.rings ∈ L) (h3 : Part.hosts ∈ L) (h4 : Part.fns ∈ L) (h5 : Part.queues ∈ L) (h6 : Part.hod ∈ L) (h7 : Part.sched ∈ L) (h8 : Part.ctx ∈ L) (h9 : Part.counters ∈ L) : changesOnly L s (beginExec a0 a1 a2) ↔ changesOnly L s a2 := by
  (fun_cases beginExec a0 a1 a2 <;> (simp +zetaDelta only [iff_self, refuseFatal_only, execRead_only, refuseRnr_only, countX_only, freeHods_only, modConn_only, waitAtLeaf_only, setPhase_only, execFail_only, h0, h1, h2, h3, h4, h5, h6, h7, h8, h9]; done))
theorem toTile_only {L : List Part} {s : State} (a0 : Nat) (a1 : TileJob) (a2 : Nat) (a3 : LrdPkt) (a4 : State) (h0 : Part.net ∈ L) : changesOnly L s (toTile a0 a1 a2 a3 a4) ↔ changesOnly L s a4 := by
  (simp only [toTile, iff_self, modPipe_only, h0]; done)
theorem startExec_only {L : List Part} {s : State} (a0 : Nat) (a1 : LrdPkt) (a2 : State) (h0 : Part.out ∈ L) (h1 : Part.owner ∈ L) (h2 : Part.rings ∈ L) (h3 : Part.hosts ∈ L) (h4 : Part.fns ∈ L) (h5 : Part.queues ∈ L) (h6 : Part.hod ∈ L) (h7 : Part.sched ∈ L) (h8 : Part.net ∈ L) (h9 : Part.ctx ∈ L) (h10 : Part.counters ∈ L) : changesOnly L s (startExec a0 a1 a2) ↔ changesOnly L s a2 := by
  (fun_cases startExec a0 a1 a2 <;> (simp +zetaDelta only [iff_self, beginExec_only, modConn_only, toTile_only, h0, h1, h2, h3, h4, h5, h6, h7, h8, h9, h10]; done))
theorem dupRx_only {L : List Part} {s : State} (a0 : Nat) (a1 : Conn) (a2 : LrdPkt) (a3 : State) (h0 : Part.hod ∈ L) (h1 : Part.ctx ∈ L) (h2 : Part.counters ∈ L) : changesOnly L s (dupRx a0 a1 a2 a3) ↔ changesOnly L s a3 := by
  (simp only [dupRx, iff_self, only_ite, ite_self, countX_only, freeHods_only, modConn_only, serveRead_only, oweAck_only, h0, h1, h2]; done)
theorem sequence_only {L : List Part} {s : State} (a0 : Nat) (a1 : Conn) (a2 : LrdPkt) (a3 : State) (h0 : Part.out ∈ L) (h1 : Part.owner ∈ L) (h2 : Part.rings ∈ L) (h3 : Part.hosts ∈ L) (h4 : Part.fns ∈ L) (h5 : Part.queues ∈ L) (h6 : Part.hod ∈ L) (h7 : Part.sched ∈ L) (h8 : Part.net ∈ L) (h9 : Part.ctx ∈ L) (h10 : Part.counters ∈ L) : changesOnly L s (sequence a0 a1 a2 a3) ↔ changesOnly L s a3 := by
  (simp only [sequence, iff_self, only_ite, ite_self, countX_only, freeHods_only, dupRx_only, startExec_only, h0, h1, h2, h3, h4, h5, h6, h7, h8, h9, h10]; done)
theorem toInbox_only {L : List Part} {s : State} (a0 : Nat) (a1 : Conn) (a2 : LrdPkt) (a3 : State) (h0 : Part.hod ∈ L) (h1 : Part.net ∈ L) (h2 : Part.ctx ∈ L) (h3 : Part.counters ∈ L) : changesOnly L s (toInbox a0 a1 a2 a3) ↔ changesOnly L s a3 := by
  (fun_cases toInbox a0 a1 a2 a3 <;> (simp +zetaDelta only [iff_self, countX_only, freeHods_only, modConn_only, toTile_only, h0, h1, h2, h3]; done))
theorem lrdChecks_only {L : List Part} {s : State} (a0 : Nat) (a1 : LrdPkt) (a2 : State) (h0 : Part.out ∈ L) (h1 : Part.owner ∈ L) (h2 : Part.rings ∈ L) (h3 : Part.hosts ∈ L) (h4 : Part.fns ∈ L) (h5 : Part.queues ∈ L) (h6 : Part.hod ∈ L) (h7 : Part.sched ∈ L) (h8 : Part.net ∈ L) (h9 : Part.ctx ∈ L) (h10 : Part.counters ∈ L) : changesOnly L s (lrdChecks a0 a1 a2) ↔ changesOnly L s a2 := by
  unfold lrdChecks
  split; · simp only [freeHods_only, h6]
  simp only []
  split; · simp only [countX_only, freeHods_only, h6, h10]
  split; · simp only [countX_only, freeHods_only, h6, h10]
  split; · simp only [countX_only, freeHods_only, h6, h10]
  split
  · split; · simp only [freeHods_only, h6]
    have hy := nakAllowed_only (L := L) (s := s) a1.pkt.pipe a2 ‹_› ‹_›
    split
    · next e => rw [e] at hy; exact Iff.trans (by simp only [freeHods_only, h6]) hy
    · next e => rw [e] at hy; exact Iff.trans (by simp only [oweNak_only, freeHods_only, h6, h9]) hy
  split; · simp only [connError_only, freeHods_only, h0, h1, h2, h3, h4, h5, h6, h9, h10]
  split <;> simp only [sequence_only, toInbox_only, h0, h1, h2, h3, h4, h5, h6, h7, h8, h9, h10]
theorem cloak_only {L : List Part} {s : State} (a0 : Nat) (a1 : Conn) (a2 : Pkt) (a3 : State) (h0 : Part.out ∈ L) (h1 : Part.drawn ∈ L) (h2 : Part.hosts ∈ L) (h3 : Part.hod ∈ L) (h4 : Part.ctx ∈ L) (h5 : Part.counters ∈ L) : changesOnly L s (cloak a0 a1 a2 a3) ↔ changesOnly L s a3 := by
  (simp only [cloak, iff_self, only_ite, ite_self, freeHods_only, modConn_only, countC_only, missFetch_only, h0, h1, h2, h3, h4, h5]; done)
theorem transportRx_only {L : List Part} {s : State} (a0 : Nat) (a1 : Pkt) (a2 : State) (h0 : Part.out ∈ L) (h1 : Part.drawn ∈ L) (h2 : Part.owner ∈ L) (h3 : Part.rings ∈ L) (h4 : Part.hosts ∈ L) (h5 : Part.fns ∈ L) (h6 : Part.queues ∈ L) (h7 : Part.hod ∈ L) (h8 : Part.sched ∈ L) (h9 : Part.net ∈ L) (h10 : Part.ctx ∈ L) (h11 : Part.counters ∈ L) : changesOnly L s (transportRx a0 a1 a2) ↔ changesOnly L s a2 := by
  (fun_cases transportRx a0 a1 a2 <;> (simp +zetaDelta only [iff_self, only_ite, ite_self, countX_only, freeHods_only, modConn_only, noConnNak_only, countC_only, lrdChecks_only, cloak_only, h0, h1, h2, h3, h4, h5, h6, h7, h8, h9, h10, h11]; done))
theorem replay_only {L : List Part} {s : State} (a0 : Nat) (a1 : State) (h0 : Part.out ∈ L) (h1 : Part.owner ∈ L) (h2 : Part.rings ∈ L) (h3 : Part.hosts ∈ L) (h4 : Part.fns ∈ L) (h5 : Part.queues ∈ L) (h6 : Part.hod ∈ L) (h7 : Part.sched ∈ L) (h8 : Part.net ∈ L) (h9 : Part.ctx ∈ L) (h10 : Part.counters ∈ L) : changesOnly L s (replay a0 a1) ↔ changesOnly L s a1 := by
  (unfold replay; (repeat' (first | (with_reducible rfl) | (simp only [iff_self, freeHods_only, modConn_only, lrdChecks_only, h0, h1, h2, h3, h4, h5, h6, h7, h8, h9, h10]; done) | split | (with_reducible refine (only_foldl _ (fun y b => ?_) _ _).trans ?_) | (simp only []))); done)
theorem completeMsgs_only {L : List Part} {s : State} (a0 : Nat) (a1 : Nat) (a2 : State) (h0 : Part.out ∈ L) (h1 : Part.hosts ∈ L) (h2 : Part.fns ∈ L) (h3 : Part.queues ∈ L) (h4 : Part.ctx ∈ L) : changesOnly L s (completeMsgs a0 a1 a2) ↔ changesOnly L s a2 := by
  induction a1 generalizing a2 with
  | zero => exact Iff.rfl
  | succ n ih =>
    unfold completeMsgs
    split; · exact Iff.rfl
    split; · exact Iff.rfl
    simp only [ih, connCqe_only, modConnQueue_only, modConn_only, h0, h1, h2, h3, h4]
theorem releaseRead_only {L : List Part} {s : State} (a0 : Nat) (a1 : State) (h0 : Part.out ∈ L) (h1 : Part.owner ∈ L) (h2 : Part.rings ∈ L) (h3 : Part.hosts ∈ L) (h4 : Part.fns ∈ L) (h5 : Part.queues ∈ L) (h6 : Part.hod ∈ L) (h7 : Part.ctx ∈ L) (h8 : Part.counters ∈ L) : changesOnly L s (releaseRead a0 a1) ↔ changesOnly L s a1 := by
  (fun_cases releaseRead a0 a1 <;> (simp +zetaDelta only [iff_self, execRead_only, modConn_only, h0, h1, h2, h3, h4, h5, h6, h7, h8]; done))
theorem noteAck_only {L : List Part} {s : State} (a0 : Nat) (a1 : LrdPkt) (a2 : Bool) (a3 : State) (h0 : Part.ctx ∈ L) : changesOnly L s (noteAck a0 a1 a2 a3) ↔ changesOnly L s a3 := by
  (simp only [noteAck, iff_self, only_ite, ite_self, modConn_only, oweAck_only, h0]; done)
theorem execDone_only {L : List Part} {s : State} (a0 : Nat) (a1 : Nat) (a2 : State) (h0 : Part.out ∈ L) (h1 : Part.owner ∈ L) (h2 : Part.rings ∈ L) (h3 : Part.hosts ∈ L) (h4 : Part.fns ∈ L) (h5 : Part.queues ∈ L) (h6 : Part.hod ∈ L) (h7 : Part.ctx ∈ L) (h8 : Part.nvme ∈ L) (h9 : Part.counters ∈ L) : changesOnly L s (execDone a0 a1 a2) ↔ changesOnly L s a2 := by
  (fun_cases execDone a0 a1 a2 <;> (simp +zetaDelta only [iff_self, only_ite, ite_self, countX_only, freeHods_only, modConn_only, completeMsgs_only, releaseRead_only, noteAck_only, h0, h1, h2, h3, h4, h5, h6, h7, h8, h9, only_nvme]; done))
theorem placeData_only {L : List Part} {s : State} (a0 : Nat) (a1 : Nat) (a2 : State) (h0 : Part.out ∈ L) (h1 : Part.ctx ∈ L) : changesOnly L s (placeData a0 a1 a2) ↔ changesOnly L s a2 := by
  (fun_cases placeData a0 a1 a2 <;> (simp +zetaDelta only [iff_self, setPhase_only, emit_only, h0, h1]; done))
theorem execLrdExecutionFailed_only {L : List Part} {s : State} (a0 : Domain) (a1 : ConnNo) (a2 : BitVec 32) (a3 : State) (h0 : Part.hod ∈ L) (h1 : Part.ctx ∈ L) (hx : changesOnly L s a3) : OnlyO L s (execLrdExecutionFailed a0 a1 a2 a3) := by
  (simp only [execLrdExecutionFailed, onlyO_next, hx, execFail_only, h0, h1]; done)
theorem takeInbox_only {L : List Part} {s : State} (k op : Nat) (x : State) (p : LrdPkt) (y : State) (h0 : Part.hod ∈ L) (h1 : Part.ctx ∈ L) (e : takeInbox k op x = some (p, y)) : changesOnly L s y ↔ changesOnly L s x := by
  unfold takeInbox at e
  split at e
  · contradiction
  · split at e
    · contradiction
    · injection e with e
      obtain ⟨_, e⟩ := Prod.mk.inj e
      rw [← e]; simp only [freeHods_only, modConn_only, h0, h1]
theorem execLrdProbeRx_only {L : List Part} {s : State} (a0 : Domain) (a1 : ConnNo) (a2 : State) (h0 : Part.hod ∈ L) (h1 : Part.ctx ∈ L) (hx : changesOnly L s a2) : OnlyO L s (execLrdProbeRx a0 a1 a2) := by
  simp only [execLrdProbeRx]
  refine (onlyO_next _ _ _).mpr ?_
  split
  · exact hx
  next k y e =>
  have hy := (takeInbox_only _ _ _ _ _ (by assumption) (by assumption) e).mpr hx
  (repeat' (first | with_reducible assumption | (simp only [oweAck_only, hy, h1]; done) | split | simp only []))
theorem execLrdAckDelayTimer_only {L : List Part} {s : State} (a0 : Domain) (a1 : ConnNo) (a2 : State) (h0 : Part.ctx ∈ L) (hx : changesOnly L s a2) : OnlyO L s (execLrdAckDelayTimer a0 a1 a2) := by
  (unfold execLrdAckDelayTimer; (repeat' (first | with_reducible assumption | with_reducible rfl | (simp only [only_ite, onlyO_next, hx, oweAck_only, h0]; done) | split | (with_reducible refine (onlyO_next _ _ _).mpr ?_) | (with_reducible refine (only_foldl _ (fun y b => ?_) _ _).mpr ?_) | (with_reducible refine (only_foldl _ (fun y b => ?_) _ _).trans ?_) | (simp only []))); done)
theorem execRecentListExpiry_only {L : List Part} {s : State} (a0 : Domain) (a1 : ConnNo) (a2 : State) (h0 : Part.ctx ∈ L) (hx : changesOnly L s a2) : OnlyO L s (execRecentListExpiry a0 a1 a2) := by
  (simp only [execRecentListExpiry, onlyO_next, hx, modCtx_only, h0]; done)
theorem execFetchNoVictimRetry_only {L : List Part} {s : State} (a0 : Domain) (a1 : ConnNo) (a2 : State) (h0 : Part.out ∈ L) (h1 : Part.drawn ∈ L) (h2 : Part.hosts ∈ L) (h3 : Part.ctx ∈ L) (h4 : Part.counters ∈ L) (hx : changesOnly L s a2) : OnlyO L s (execFetchNoVictimRetry a0 a1 a2) := by
  (unfold execFetchNoVictimRetry; (repeat' (first | with_reducible assumption | with_reducible rfl | (simp only [only_ite, ite_self, onlyO_next, hx, startFetch_only, h0, h1, h2, h3, h4]; done) | split | (with_reducible refine (onlyO_next _ _ _).mpr ?_) | (with_reducible refine (only_foldl _ (fun y b => ?_) _ _).mpr ?_) | (with_reducible refine (only_foldl _ (fun y b => ?_) _ _).trans ?_) | (simp only []))); done)
theorem execEvictionWriteDone_only {L : List Part} {s : State} (a0 : Domain) (a1 : ConnNo) (a2 : Bool) (a3 : State) (h0 : Part.out ∈ L) (h1 : Part.drawn ∈ L) (h2 : Part.hosts ∈ L) (h3 : Part.ctx ∈ L) (h4 : Part.counters ∈ L) (hx : changesOnly L s a3) : OnlyO L s (execEvictionWriteDone a0 a1 a2 a3) := by
  (unfold execEvictionWriteDone; (repeat' (first | with_reducible assumption | with_reducible rfl | (simp only [only_ite, ite_self, onlyO_next, hx, startFetch_only, modConn_only, h0, h1, h2, h3, h4]; done) | split | (with_reducible refine (onlyO_next _ _ _).mpr ?_) | (with_reducible refine (only_foldl _ (fun y b => ?_) _ _).mpr ?_) | (with_reducible refine (only_foldl _ (fun y b => ?_) _ _).trans ?_) | (simp only []))); done)
theorem fetched_only {L : List Part} {s : State} (a0 : Nat) (a1 : State) (h0 : Part.out ∈ L) (h1 : Part.owner ∈ L) (h2 : Part.rings ∈ L) (h3 : Part.hosts ∈ L) (h4 : Part.fns ∈ L) (h5 : Part.queues ∈ L) (h6 : Part.hod ∈ L) (h7 : Part.sched ∈ L) (h8 : Part.net ∈ L) (h9 : Part.ctx ∈ L) (h10 : Part.counters ∈ L) : changesOnly L s (fetched a0 a1) ↔ changesOnly L s a1 := by
  (simp only [fetched, iff_self, modConn_only, replay_only, h0, h1, h2, h3, h4, h5, h6, h7, h8, h9, h10]; done)
theorem execContextFetchDone_only {L : List Part} {s : State} (a0 : Domain) (a1 : ConnNo) (a2 : FetchResult) (a3 : State) (h0 : Part.out ∈ L) (h1 : Part.drawn ∈ L) (h2 : Part.owner ∈ L) (h3 : Part.rings ∈ L) (h4 : Part.hosts ∈ L) (h5 : Part.fns ∈ L) (h6 : Part.queues ∈ L) (h7 : Part.hod ∈ L) (h8 : Part.sched ∈ L) (h9 : Part.net ∈ L) (h10 : Part.ctx ∈ L) (h11 : Part.counters ∈ L) (hx : changesOnly L s a3) : OnlyO L s (execContextFetchDone a0 a1 a2 a3) := by
  (unfold execContextFetchDone; (repeat' (first | with_reducible assumption | with_reducible rfl | (simp only [only_ite, ite_self, onlyO_next, hx, endRead_only, fetched_only, countC_only, contextLost_only, h0, h1, h2, h3, h4, h5, h6, h7, h8, h9, h10, h11]; done) | split | (with_reducible refine (onlyO_next _ _ _).mpr ?_) | (with_reducible refine (only_foldl _ (fun y b => ?_) _ _).mpr ?_) | (with_reducible refine (only_foldl _ (fun y b => ?_) _ _).trans ?_) | (simp only []))); done)
theorem sendPkt_only {L : List Part} {s : State} (a0 : Nat) (a1 : Pkt) (a2 : State) (h0 : Part.hod ∈ L) (h1 : Part.sched ∈ L) (h2 : Part.net ∈ L) (h3 : Part.counters ∈ L) : changesOnly L s (sendPkt a0 a1 a2) ↔ changesOnly L s a2 := by
  (simp only [sendPkt, iff_self, sendOn_only, storeHods_only, h0, h1, h2, h3]; done)
theorem buildAndSend_only {L : List Part} {s : State} (a0 : Nat) (a1 : Nat) (a2 : Nat) (a3 : Nat) (a4 : Nat) (a5 : Nat) (a6 : Nat) (a7 : Nat) (a8 : List Byte) (a9 : List Byte) (a10 : List Nat) (a11 : State) (h0 : Part.drawn ∈ L) (h1 : Part.hod ∈ L) (h2 : Part.sched ∈ L) (h3 : Part.net ∈ L) (h4 : Part.ctx ∈ L) (h5 : Part.counters ∈ L) : changesOnly L s (buildAndSend a0 a1 a2 a3 a4 a5 a6 a7 a8 a9 a10 a11) ↔ changesOnly L s a11 := by
  (fun_cases buildAndSend a0 a1 a2 a3 a4 a5 a6 a7 a8 a9 a10 a11 <;> (simp +zetaDelta only [iff_self, sendPkt_only, freeHods_only, modConn_only, drawn1_only, h0, h1, h2, h3, h4, h5]; done))
theorem launch_only {L : List Part} {s : State} (a0 : Nat) (a1 : SentPkt) (a2 : Option Nat) (a3 : Bool) (a4 : Bool) (a5 : Nat) (a6 : Nat) (a7 : Nat) (a8 : List Nat) (a9 : State) (h0 : Part.out ∈ L) (h1 : Part.drawn ∈ L) (h2 : Part.hosts ∈ L) (h3 : Part.hod ∈ L) (h4 : Part.sched ∈ L) (h5 : Part.net ∈ L) (h6 : Part.ctx ∈ L) (h7 : Part.counters ∈ L) : changesOnly L s (launch a0 a1 a2 a3 a4 a5 a6 a7 a8 a9) ↔ changesOnly L s a9 := by
  (fun_cases launch a0 a1 a2 a3 a4 a5 a6 a7 a8 a9 <;> (simp +zetaDelta only [iff_self, freeHods_only, modConn_only, buildAndSend_only, issueRead_only, h0, h1, h2, h3, h4, h5, h6, h7]; done))
theorem sendItem_only {L : List Part} {s : State} (a0 : Nat) (a1 : TxItem) (a2 : Nat) (a3 : Nat) (a4 : Nat) (a5 : List Nat) (a6 : State) (h0 : Part.out ∈ L) (h1 : Part.drawn ∈ L) (h2 : Part.hosts ∈ L) (h3 : Part.hod ∈ L) (h4 : Part.sched ∈ L) (h5 : Part.net ∈ L) (h6 : Part.ctx ∈ L) (h7 : Part.counters ∈ L) : changesOnly L s (sendItem a0 a1 a2 a3 a4 a5 a6) ↔ changesOnly L s a6 := by
  (unfold sendItem; (repeat' (first | (with_reducible rfl) | (simp only [iff_self, countX_only, freeHods_only, modConn_only, buildAndSend_only, payPacer_only, launch_only, issueRead_only, h0, h1, h2, h3, h4, h5, h6, h7]; done) | split | (with_reducible refine (only_foldl _ (fun y b => ?_) _ _).trans ?_) | (simp only []))); done)
theorem lrdDataDone_only {L : List Part} {s : State} (a0 : Nat) (a1 : Nat) (a2 : CplStatus) (a3 : List Byte) (a4 : State) (h0 : Part.out ∈ L) (h1 : Part.drawn ∈ L) (h2 : Part.owner ∈ L) (h3 : Part.rings ∈ L) (h4 : Part.hosts ∈ L) (h5 : Part.fns ∈ L) (h6 : Part.queues ∈ L) (h7 : Part.hod ∈ L) (h8 : Part.sched ∈ L) (h9 : Part.net ∈ L) (h10 : Part.ctx ∈ L) (h11 : Part.counters ∈ L) : changesOnly L s (lrdDataDone a0 a1 a2 a3 a4) ↔ changesOnly L s a4 := by
  (fun_cases lrdDataDone a0 a1 a2 a3 a4 <;> (simp +zetaDelta only [iff_self, freeHods_only, modConn_only, buildAndSend_only, connError_only, h0, h1, h2, h3, h4, h5, h6, h7, h8, h9, h10, h11]; done))
theorem fastRetx_only {L : List Part} {s : State} (a0 : Nat) (a1 : State) (h0 : Part.ctx ∈ L) (h1 : Part.counters ∈ L) : changesOnly L s (fastRetx a0 a1) ↔ changesOnly L s a1 := by
  (fun_cases fastRetx a0 a1 <;> (simp +zetaDelta only [iff_self, modConn_only, count_only, h0, h1]; done))
theorem ackRx_only {L : List Part} {s : State} (a0 : Nat) (a1 : LrdPkt) (a2 : State) (h0 : Part.out ∈ L) (h1 : Part.hosts ∈ L) (h2 : Part.fns ∈ L) (h3 : Part.queues ∈ L) (h4 : Part.ctx ∈ L) (h5 : Part.counters ∈ L) : changesOnly L s (ackRx a0 a1 a2) ↔ changesOnly L s a2 := by
  (fun_cases ackRx a0 a1 a2 <;> (simp +zetaDelta only [iff_self, countX_only, rttSample_only, modConn_only, settleWrs_only, fastRetx_only, h0, h1, h2, h3, h4, h5]; done))
theorem rnrNak_only {L : List Part} {s : State} (a0 : Nat) (a1 : Nat) (a2 : State) (h0 : Part.out ∈ L) (h1 : Part.owner ∈ L) (h2 : Part.rings ∈ L) (h3 : Part.hosts ∈ L) (h4 : Part.fns ∈ L) (h5 : Part.queues ∈ L) (h6 : Part.hod ∈ L) (h7 : Part.ctx ∈ L) (h8 : Part.counters ∈ L) : changesOnly L s (rnrNak a0 a1 a2) ↔ changesOnly L s a2 := by
  (fun_cases rnrNak a0 a1 a2 <;> (simp +zetaDelta only [iff_self, modConn_only, connError_only, h0, h1, h2, h3, h4, h5, h6, h7, h8]; done))
theorem execLrdAckRx_only {L : List Part} {s : State} (a0 : Domain) (a1 : ConnNo) (a2 : State) (h0 : Part.out ∈ L) (h1 : Part.hosts ∈ L) (h2 : Part.fns ∈ L) (h3 : Part.queues ∈ L) (h4 : Part.hod ∈ L) (h5 : Part.ctx ∈ L) (h6 : Part.counters ∈ L) (hx : changesOnly L s a2) : OnlyO L s (execLrdAckRx a0 a1 a2) := by
  simp only [execLrdAckRx]
  refine (onlyO_next _ _ _).mpr ?_
  split
  · exact hx
  next k y e =>
  have hy := (takeInbox_only _ _ _ _ _ (by assumption) (by assumption) e).mpr hx
  (repeat' (first | with_reducible assumption | (simp only [ackRx_only, countX_only, hy, h0, h1, h2, h3, h5, h6]; done) | split | simp only []))
theorem lrdNakRx_only {L : List Part} {s : State} (a0 : Domain) (a1 : ConnNo) (a2 : State) (h0 : Part.out ∈ L) (h1 : Part.owner ∈ L) (h2 : Part.rings ∈ L) (h3 : Part.hosts ∈ L) (h4 : Part.fns ∈ L) (h5 : Part.queues ∈ L) (h6 : Part.hod ∈ L) (h7 : Part.ctx ∈ L) (h8 : Part.counters ∈ L) : changesOnly L s (lrdNakRx a0 a1 a2) ↔ changesOnly L s a2 := by
  unfold lrdNakRx
  simp only []
  split
  · exact Iff.rfl
  · next e =>
    refine Iff.trans ?_ (takeInbox_only _ _ _ _ _ ‹_› ‹_› e)
    split
    · simp only [countX_only, h8]
    · simp only [only_ite, ite_self, connError_only, rnrNak_only, ackRx_only, countX_only, h0, h1, h2, h3, h4, h5, h6, h7, h8]
theorem execLrdReadRspRx_only {L : List Part} {s : State} (a0 : Domain) (a1 : ConnNo) (a2 : State) (h0 : Part.out ∈ L) (h1 : Part.hosts ∈ L) (h2 : Part.fns ∈ L) (h3 : Part.queues ∈ L) (h4 : Part.hod ∈ L) (h5 : Part.ctx ∈ L) (h6 : Part.counters ∈ L) (hx : changesOnly L s a2) : OnlyO L s (execLrdReadRspRx a0 a1 a2) := by
  simp only [execLrdReadRspRx]
  refine (onlyO_next _ _ _).mpr ?_
  split
  · exact hx
  next k y e =>
  have hy := (takeInbox_only _ _ _ _ _ (by assumption) (by assumption) e).mpr hx
  (repeat' (first | with_reducible assumption | (simp only [only_ite, ite_self, countX_only, settleWrs_only, emit_only, modConn_only, hy, h0, h1, h2, h3, h5, h6]; done) | split | simp only []))
theorem lrdRetransmitTimer_only {L : List Part} {s : State} (a0 : Domain) (a1 : ConnNo) (a2 : State) (h0 : Part.out ∈ L) (h1 : Part.owner ∈ L) (h2 : Part.rings ∈ L) (h3 : Part.hosts ∈ L) (h4 : Part.fns ∈ L) (h5 : Part.queues ∈ L) (h6 : Part.hod ∈ L) (h7 : Part.ctx ∈ L) (h8 : Part.counters ∈ L) : changesOnly L s (lrdRetransmitTimer a0 a1 a2) ↔ changesOnly L s a2 := by
  (fun_cases lrdRetransmitTimer a0 a1 a2 <;> (simp +zetaDelta only [iff_self, countX_only, modConn_only, connError_only, h0, h1, h2, h3, h4, h5, h6, h7, h8]; done))
theorem execLrdProbeTimer_only {L : List Part} {s : State} (a0 : Domain) (a1 : ConnNo) (a2 : State) (h0 : Part.ctx ∈ L) (h1 : Part.counters ∈ L) (hx : changesOnly L s a2) : OnlyO L s (execLrdProbeTimer a0 a1 a2) := by
  (unfold execLrdProbeTimer; (repeat' (first | with_reducible assumption | with_reducible rfl | (simp only [only_ite, ite_self, onlyO_next, hx, modConn_only, fastRetx_only, h0, h1]; done) | split | (with_reducible refine (onlyO_next _ _ _).mpr ?_) | (with_reducible refine (only_foldl _ (fun y b => ?_) _ _).mpr ?_) | (with_reducible refine (only_foldl _ (fun y b => ?_) _ _).trans ?_) | (simp only []))); done)
theorem execLrdRnrTimer_only {L : List Part} {s : State} (a0 : Domain) (a1 : ConnNo) (a2 : State) (h0 : Part.ctx ∈ L) (hx : changesOnly L s a2) : OnlyO L s (execLrdRnrTimer a0 a1 a2) := by
  (unfold execLrdRnrTimer; (repeat' (first | with_reducible assumption | with_reducible rfl | (simp only [onlyO_next, hx, modConn_only, h0]; done) | split | (with_reducible refine (onlyO_next _ _ _).mpr ?_) | (with_reducible refine (only_foldl _ (fun y b => ?_) _ _).mpr ?_) | (with_reducible refine (only_foldl _ (fun y b => ?_) _ _).trans ?_) | (simp only []))); done)
theorem takeWrs_only {L : List Part} {s : State} (a0 : Nat) (a1 : Queue) (a2 : List WorkRequest) (a3 : State) (h0 : Part.ctx ∈ L) : changesOnly L s (takeWrs a0 a1 a2 a3) ↔ changesOnly L s a3 := by
  (simp only [takeWrs, only_foldl, iff_self, implies_true, modConn_only, h0]; done)
theorem execLrdSqDoorbell_only {L : List Part} {s : State} (a0 : Domain) (a1 : ConnNo) (a2 : Word) (a3 : List WorkRequest) (a4 : State) (h0 : Part.out ∈ L) (h1 : Part.drawn ∈ L) (h2 : Part.owner ∈ L) (h3 : Part.rings ∈ L) (h4 : Part.hosts ∈ L) (h5 : Part.fns ∈ L) (h6 : Part.queues ∈ L) (h7 : Part.hod ∈ L) (h8 : Part.ctx ∈ L) (h9 : Part.counters ∈ L) (hx : changesOnly L s a4) : OnlyO L s (execLrdSqDoorbell a0 a1 a2 a3 a4) := by
  (fun_cases execLrdSqDoorbell a0 a1 a2 a3 a4 <;> (simp +zetaDelta only [only_ite, ite_self, onlyO_next, onlyO_refused, hx, modConnQueue_only, settleWrs_only, takeWrs_only, missFetch_only, connError_only, h0, h1, h2, h3, h4, h5, h6, h7, h8, h9]; done))
theorem execLrdRqDoorbell_only {L : List Part} {s : State} (a0 : Domain) (a1 : ConnNo) (a2 : Word) (a3 : List RecvBuffer) (a4 : State) (h0 : Part.out ∈ L) (h1 : Part.owner ∈ L) (h2 : Part.rings ∈ L) (h3 : Part.hosts ∈ L) (h4 : Part.fns ∈ L) (h5 : Part.queues ∈ L) (h6 : Part.hod ∈ L) (h7 : Part.ctx ∈ L) (h8 : Part.counters ∈ L) (hx : changesOnly L s a4) : OnlyO L s (execLrdRqDoorbell a0 a1 a2 a3 a4) := by
  (fun_cases execLrdRqDoorbell a0 a1 a2 a3 a4 <;> (simp +zetaDelta only [only_ite, ite_self, onlyO_next, onlyO_refused, hx, modConnQueue_only, flushRq_only, modConn_only, connError_only, h0, h1, h2, h3, h4, h5, h6, h7, h8]; done))
theorem placeConn_only {L : List Part} {s : State} (a0 : Nat) (a1 : Bool) (a2 : State) (h0 : Part.out ∈ L) (h1 : Part.drawn ∈ L) (h2 : Part.hosts ∈ L) (h3 : Part.ctx ∈ L) (h4 : Part.counters ∈ L) : changesOnly L s (placeConn a0 a1 a2) ↔ changesOnly L s a2 := by
  (fun_cases placeConn a0 a1 a2 <;> (simp +zetaDelta only [iff_self, startFetch_only, modConn_only, drawn1_only, h0, h1, h2, h3, h4]; done))
theorem addConn_only {L : List Part} {s : State} (a0 : Nat) (a1 : Nat) (a2 : Conn) (a3 : Bool) (a4 : Option Nat) (a5 : State) (h0 : Part.out ∈ L) (h1 : Part.drawn ∈ L) (h2 : Part.hosts ∈ L) (h3 : Part.ctx ∈ L) (h4 : Part.counters ∈ L) : changesOnly L s (addConn a0 a1 a2 a3 a4 a5) ↔ changesOnly L s a5 := by
  (unfold addConn; (repeat' (first | (with_reducible rfl) | (simp only [iff_self, modCtx_only, placeConn_only, count_only, h0, h1, h2, h3, h4]; done) | split | (with_reducible refine (only_foldl _ (fun y b => ?_) _ _).trans ?_) | (simp only []))); done)
theorem modifyConn_only {L : List Part} {s : State} (a0 : Nat) (a1 : Nat) (a2 : Packet) (a3 : State) (h0 : Part.out ∈ L) (h1 : Part.owner ∈ L) (h2 : Part.rings ∈ L) (h3 : Part.hosts ∈ L) (h4 : Part.fns ∈ L) (h5 : Part.queues ∈ L) (h6 : Part.hod ∈ L) (h7 : Part.ctx ∈ L) (h8 : Part.counters ∈ L) : changesOnly L s (modifyConn a0 a1 a2 a3) ↔ changesOnly L s a3 := by
  (fun_cases modifyConn a0 a1 a2 a3 <;> (simp +zetaDelta only [iff_self, only_ite, ite_self, modConn_only, connError_only, h0, h1, h2, h3, h4, h5, h6, h7, h8]; done))
theorem connCreateDef_only {L : List Part} {s : State}  (h0 : Part.out ∈ L) (h1 : Part.drawn ∈ L) (h2 : Part.hosts ∈ L) (h3 : Part.queues ∈ L) (h4 : Part.net ∈ L) (h5 : Part.ctx ∈ L) (h6 : Part.counters ∈ L) : DefOnly L s connCreateDef := by
  intro o p y; simp only [connCreateDef]; (repeat' (first | with_reducible rfl | (simp only [addConn_only, addLeaf_only, only_drawn_queues, h0, h1, h2, h3, h4, h5, h6]; done) | with_reducible refine onlyA_reply _ _ _ _ _ ?_ | with_reducible refine onlyA_replyLong _ _ _ _ _ ?_ | with_reducible refine onlyA_startOp _ _ _ _ _ _ _ _ _ (by assumption) (by assumption) ?_ | with_reducible refine onlyA_mk _ _ _ _ _ _ _ _ ?_ | split | (with_reducible refine (only_foldl _ (fun y b => ?_) _ _).trans ?_) | (refine ⟨?_, fun z => ?_⟩) | (simp only [])))
theorem execConnCreate_only {L : List Part} {s : State} (a0 : Packet) (a1 : State) (h0 : Part.fenced ∈ L) (h1 : Part.out ∈ L) (h2 : Part.drawn ∈ L) (h3 : Part.owner ∈ L) (h4 : Part.rings ∈ L) (h5 : Part.hosts ∈ L) (h6 : Part.fns ∈ L) (h7 : Part.queues ∈ L) (h8 : Part.net ∈ L) (h9 : Part.ctx ∈ L) (h10 : Part.counters ∈ L) (hx : changesOnly L s a1) : OnlyO L s (execConnCreate a0 a1) := by
  (simp only [execConnCreate, onlyO_next, hx, connCreateDef_only, runCmd_only, h0, h1, h2, h3, h4, h5, h6, h7, h8, h9, h10]; done)
theorem connModifyDef_only {L : List Part} {s : State}  (h0 : Part.out ∈ L) (h1 : Part.owner ∈ L) (h2 : Part.rings ∈ L) (h3 : Part.hosts ∈ L) (h4 : Part.fns ∈ L) (h5 : Part.queues ∈ L) (h6 : Part.hod ∈ L) (h7 : Part.ctx ∈ L) (h8 : Part.counters ∈ L) : DefOnly L s connModifyDef := by
  intro o p y; simp only [connModifyDef]; (repeat' (first | with_reducible rfl | (simp only [modifyConn_only, h0, h1, h2, h3, h4, h5, h6, h7, h8]; done) | with_reducible refine onlyA_reply _ _ _ _ _ ?_ | with_reducible refine onlyA_replyLong _ _ _ _ _ ?_ | with_reducible refine onlyA_startOp _ _ _ _ _ _ _ _ _ (by assumption) (by assumption) ?_ | with_reducible refine onlyA_mk _ _ _ _ _ _ _ _ ?_ | split | (with_reducible refine (only_foldl _ (fun y b => ?_) _ _).trans ?_) | (refine ⟨?_, fun z => ?_⟩) | (simp only [])))
theorem execConnModify_only {L : List Part} {s : State} (a0 : Packet) (a1 : State) (h0 : Part.fenced ∈ L) (h1 : Part.out ∈ L) (h2 : Part.owner ∈ L) (h3 : Part.rings ∈ L) (h4 : Part.hosts ∈ L) (h5 : Part.fns ∈ L) (h6 : Part.queues ∈ L) (h7 : Part.hod ∈ L) (h8 : Part.ctx ∈ L) (h9 : Part.counters ∈ L) (hx : changesOnly L s a1) : OnlyO L s (execConnModify a0 a1) := by
  (simp only [execConnModify, onlyO_next, hx, connModifyDef_only, runCmd_only, h0, h1, h2, h3, h4, h5, h6, h7, h8, h9]; done)
theorem connDestroyDef_only {L : List Part} {s : State}  (h0 : Part.out ∈ L) (h1 : Part.hosts ∈ L) (h2 : Part.fns ∈ L) (h3 : Part.queues ∈ L) (h4 : Part.hod ∈ L) (h5 : Part.sched ∈ L) (h6 : Part.net ∈ L) (h7 : Part.ctx ∈ L) (h8 : Part.counters ∈ L) : DefOnly L s connDestroyDef := by
  intro o p y; simp only [connDestroyDef]; (repeat' (first | with_reducible rfl | (simp only [endConn_only, h0, h1, h2, h3, h4, h5, h6, h7, h8]; done) | with_reducible refine onlyA_reply _ _ _ _ _ ?_ | with_reducible refine onlyA_replyLong _ _ _ _ _ ?_ | with_reducible refine onlyA_startOp _ _ _ _ _ _ _ _ _ (by assumption) (by assumption) ?_ | with_reducible refine onlyA_mk _ _ _ _ _ _ _ _ ?_ | split | (with_reducible refine (only_foldl _ (fun y b => ?_) _ _).trans ?_) | (refine ⟨?_, fun z => ?_⟩) | (simp only [])))
theorem execConnDestroy_only {L : List Part} {s : State} (a0 : Packet) (a1 : State) (h0 : Part.fenced ∈ L) (h1 : Part.out ∈ L) (h2 : Part.owner ∈ L) (h3 : Part.rings ∈ L) (h4 : Part.hosts ∈ L) (h5 : Part.fns ∈ L) (h6 : Part.queues ∈ L) (h7 : Part.hod ∈ L) (h8 : Part.sched ∈ L) (h9 : Part.net ∈ L) (h10 : Part.ctx ∈ L) (h11 : Part.counters ∈ L) (hx : changesOnly L s a1) : OnlyO L s (execConnDestroy a0 a1) := by
  (simp only [execConnDestroy, onlyO_next, hx, runCmd_only, connDestroyDef_only, h0, h1, h2, h3, h4, h5, h6, h7, h8, h9, h10, h11]; done)
theorem connQueryDef_only {L : List Part} {s : State}   : DefOnly L s connQueryDef := by
  intro o p y; simp only [connQueryDef]; (repeat' (first | with_reducible rfl | (simp only [only_ite, ite_self, onlyA_ite, replyLong_only]; done) | with_reducible refine onlyA_reply _ _ _ _ _ ?_ | with_reducible refine onlyA_replyLong _ _ _ _ _ ?_ | with_reducible refine onlyA_startOp _ _ _ _ _ _ _ _ _ (by assumption) (by assumption) ?_ | with_reducible refine onlyA_mk _ _ _ _ _ _ _ _ ?_ | split | (with_reducible refine (only_foldl _ (fun y b => ?_) _ _).trans ?_) | (refine ⟨?_, fun z => ?_⟩) | (simp only [])))
theorem execConnQuery_only {L : List Part} {s : State} (a0 : Packet) (a1 : State) (h0 : Part.fenced ∈ L) (h1 : Part.out ∈ L) (h2 : Part.owner ∈ L) (h3 : Part.rings ∈ L) (h4 : Part.hosts ∈ L) (h5 : Part.fns ∈ L) (hx : changesOnly L s a1) : OnlyO L s (execConnQuery a0 a1) := by
  (simp only [execConnQuery, onlyO_next, hx, runCmd_only, connQueryDef_only, h0, h1, h2, h3, h4, h5]; done)
theorem ctxPinDef_only {L : List Part} {s : State}  (h0 : Part.out ∈ L) (h1 : Part.drawn ∈ L) (h2 : Part.hosts ∈ L) (h3 : Part.ctx ∈ L) (h4 : Part.counters ∈ L) : DefOnly L s ctxPinDef := by
  intro o p y; simp only [ctxPinDef]; (repeat' (first | with_reducible rfl | (simp only [only_ite, ite_self, modConn_only, missFetch_only, h0, h1, h2, h3, h4]; done) | with_reducible refine onlyA_reply _ _ _ _ _ ?_ | with_reducible refine onlyA_replyLong _ _ _ _ _ ?_ | with_reducible refine onlyA_startOp _ _ _ _ _ _ _ _ _ (by assumption) (by assumption) ?_ | with_reducible refine onlyA_mk _ _ _ _ _ _ _ _ ?_ | split | (with_reducible refine (only_foldl _ (fun y b => ?_) _ _).trans ?_) | (refine ⟨?_, fun z => ?_⟩) | (simp only [])))
theorem execCtxPin_only {L : List Part} {s : State} (a0 : Packet) (a1 : State) (h0 : Part.fenced ∈ L) (h1 : Part.out ∈ L) (h2 : Part.drawn ∈ L) (h3 : Part.owner ∈ L) (h4 : Part.rings ∈ L) (h5 : Part.hosts ∈ L) (h6 : Part.fns ∈ L) (h7 : Part.ctx ∈ L) (h8 : Part.counters ∈ L) (hx : changesOnly L s a1) : OnlyO L s (execCtxPin a0 a1) := by
  (simp only [execCtxPin, onlyO_next, hx, runCmd_only, ctxPinDef_only, h0, h1, h2, h3, h4, h5, h6, h7, h8]; done)
theorem ctxUnpinDef_only {L : List Part} {s : State}  (h0 : Part.ctx ∈ L) : DefOnly L s ctxUnpinDef := by
  intro o p y; simp only [ctxUnpinDef]; (repeat' (first | with_reducible rfl | (simp only [modConn_only, h0]; done) | with_reducible refine onlyA_reply _ _ _ _ _ ?_ | with_reducible refine onlyA_replyLong _ _ _ _ _ ?_ | with_reducible refine onlyA_startOp _ _ _ _ _ _ _ _ _ (by assumption) (by assumption) ?_ | with_reducible refine onlyA_mk _ _ _ _ _ _ _ _ ?_ | split | (with_reducible refine (only_foldl _ (fun y b => ?_) _ _).trans ?_) | (refine ⟨?_, fun z => ?_⟩) | (simp only [])))
theorem execCtxUnpin_only {L : List Part} {s : State} (a0 : Packet) (a1 : State) (h0 : Part.fenced ∈ L) (h1 : Part.out ∈ L) (h2 : Part.owner ∈ L) (h3 : Part.rings ∈ L) (h4 : Part.hosts ∈ L) (h5 : Part.fns ∈ L) (h6 : Part.ctx ∈ L) (hx : changesOnly L s a1) : OnlyO L s (execCtxUnpin a0 a1) := by
  (simp only [execCtxUnpin, onlyO_next, hx, runCmd_only, ctxUnpinDef_only, h0, h1, h2, h3, h4, h5, h6]; done)
theorem ctxMigrateDef_only {L : List Part} {s : State}  (h0 : Part.drawn ∈ L) (h1 : Part.ops ∈ L) : DefOnly L s ctxMigrateDef := by
  intro o p y; simp only [ctxMigrateDef]; (repeat' (first | with_reducible rfl | (simp only [only_ite, ite_self, onlyA_ite, startOp_only, h0, h1]; done) | with_reducible refine onlyA_reply _ _ _ _ _ ?_ | with_reducible refine onlyA_replyLong _ _ _ _ _ ?_ | with_reducible refine onlyA_startOp _ _ _ _ _ _ _ _ _ (by assumption) (by assumption) ?_ | with_reducible refine onlyA_mk _ _ _ _ _ _ _ _ ?_ | split | (with_reducible refine (only_foldl _ (fun y b => ?_) _ _).trans ?_) | (refine ⟨?_, fun z => ?_⟩) | (simp only [])))
theorem execCtxMigrate_only {L : List Part} {s : State} (a0 : Packet) (a1 : State) (h0 : Part.fenced ∈ L) (h1 : Part.out ∈ L) (h2 : Part.drawn ∈ L) (h3 : Part.owner ∈ L) (h4 : Part.rings ∈ L) (h5 : Part.ops ∈ L) (h6 : Part.hosts ∈ L) (h7 : Part.fns ∈ L) (hx : changesOnly L s a1) : OnlyO L s (execCtxMigrate a0 a1) := by
  (simp only [execCtxMigrate, onlyO_next, hx, runCmd_only, ctxMigrateDef_only, h0, h1, h2, h3, h4, h5, h6, h7]; done)
theorem hostBackingSetDef_only {L : List Part} {s : State}  (h0 : Part.ctx ∈ L) : DefOnly L s hostBackingSetDef := by
  intro o p y; simp only [hostBackingSetDef]; (repeat' (first | with_reducible rfl | (simp only [modCtx_only, h0]; done) | with_reducible refine onlyA_reply _ _ _ _ _ ?_ | with_reducible refine onlyA_replyLong _ _ _ _ _ ?_ | with_reducible refine onlyA_startOp _ _ _ _ _ _ _ _ _ (by assumption) (by assumption) ?_ | with_reducible refine onlyA_mk _ _ _ _ _ _ _ _ ?_ | split | (with_reducible refine (only_foldl _ (fun y b => ?_) _ _).trans ?_) | (refine ⟨?_, fun z => ?_⟩) | (simp only [])))
theorem execHostBackingSet_only {L : List Part} {s : State} (a0 : Packet) (a1 : State) (h0 : Part.fenced ∈ L) (h1 : Part.out ∈ L) (h2 : Part.owner ∈ L) (h3 : Part.rings ∈ L) (h4 : Part.hosts ∈ L) (h5 : Part.fns ∈ L) (h6 : Part.ctx ∈ L) (hx : changesOnly L s a1) : OnlyO L s (execHostBackingSet a0 a1) := by
  (simp only [execHostBackingSet, onlyO_next, hx, runCmd_only, hostBackingSetDef_only, h0, h1, h2, h3, h4, h5, h6]; done)
theorem pathWriteDef_only {L : List Part} {s : State}  (h0 : Part.ctx ∈ L) : DefOnly L s pathWriteDef := by
  intro o p y; simp only [pathWriteDef]; (repeat' (first | with_reducible rfl | (simp only [only_ite, ite_self, pathPut_only, modCtx_only, h0]; done) | with_reducible refine onlyA_reply _ _ _ _ _ ?_ | with_reducible refine onlyA_replyLong _ _ _ _ _ ?_ | with_reducible refine onlyA_startOp _ _ _ _ _ _ _ _ _ (by assumption) (by assumption) ?_ | with_reducible refine onlyA_mk _ _ _ _ _ _ _ _ ?_ | split | (with_reducible refine (only_foldl _ (fun y b => ?_) _ _).trans ?_) | (refine ⟨?_, fun z => ?_⟩) | (simp only [])))
theorem execPathWrite_only {L : List Part} {s : State} (a0 : Packet) (a1 : State) (h0 : Part.fenced ∈ L) (h1 : Part.out ∈ L) (h2 : Part.owner ∈ L) (h3 : Part.rings ∈ L) (h4 : Part.hosts ∈ L) (h5 : Part.fns ∈ L) (h6 : Part.ctx ∈ L) (hx : changesOnly L s a1) : OnlyO L s (execPathWrite a0 a1) := by
  (simp only [execPathWrite, onlyO_next, hx, pathWriteDef_only, runCmd_only, h0, h1, h2, h3, h4, h5, h6]; done)
theorem pathReadDef_only {L : List Part} {s : State}   : DefOnly L s pathReadDef := by
  intro o p y; simp only [pathReadDef]; (repeat' (first | with_reducible rfl | (simp only [only_ite, ite_self, onlyA_ite, replyLong_only]; done) | with_reducible refine onlyA_reply _ _ _ _ _ ?_ | with_reducible refine onlyA_replyLong _ _ _ _ _ ?_ | with_reducible refine onlyA_startOp _ _ _ _ _ _ _ _ _ (by assumption) (by assumption) ?_ | with_reducible refine onlyA_mk _ _ _ _ _ _ _ _ ?_ | split | (with_reducible refine (only_foldl _ (fun y b => ?_) _ _).trans ?_) | (refine ⟨?_, fun z => ?_⟩) | (simp only [])))
theorem execPathRead_only {L : List Part} {s : State} (a0 : Packet) (a1 : State) (h0 : Part.fenced ∈ L) (h1 : Part.out ∈ L) (h2 : Part.owner ∈ L) (h3 : Part.rings ∈ L) (h4 : Part.hosts ∈ L) (h5 : Part.fns ∈ L) (hx : changesOnly L s a1) : OnlyO L s (execPathRead a0 a1) := by
  (simp only [execPathRead, onlyO_next, hx, runCmd_only, pathReadDef_only, h0, h1, h2, h3, h4, h5]; done)
theorem xportConfigDef_only {L : List Part} {s : State}  (h0 : Part.ctx ∈ L) : DefOnly L s xportConfigDef := by
  intro o p y; simp only [xportConfigDef]; (repeat' (first | with_reducible rfl | (simp only [modCtx_only, h0]; done) | with_reducible refine onlyA_reply _ _ _ _ _ ?_ | with_reducible refine onlyA_replyLong _ _ _ _ _ ?_ | with_reducible refine onlyA_startOp _ _ _ _ _ _ _ _ _ (by assumption) (by assumption) ?_ | with_reducible refine onlyA_mk _ _ _ _ _ _ _ _ ?_ | split | (with_reducible refine (only_foldl _ (fun y b => ?_) _ _).trans ?_) | (refine ⟨?_, fun z => ?_⟩) | (simp only [])))
theorem execXportConfig_only {L : List Part} {s : State} (a0 : Packet) (a1 : State) (h0 : Part.fenced ∈ L) (h1 : Part.out ∈ L) (h2 : Part.owner ∈ L) (h3 : Part.rings ∈ L) (h4 : Part.hosts ∈ L) (h5 : Part.fns ∈ L) (h6 : Part.ctx ∈ L) (hx : changesOnly L s a1) : OnlyO L s (execXportConfig a0 a1) := by
  (simp only [execXportConfig, onlyO_next, hx, runCmd_only, xportConfigDef_only, h0, h1, h2, h3, h4, h5, h6]; done)
theorem migrateOne_only {L : List Part} {s : State} (a0 : HostId) (a1 : Nat) (a2 : Nat) (a3 : State) (h0 : Part.out ∈ L) (h1 : Part.drawn ∈ L) (h2 : Part.owner ∈ L) (h3 : Part.rings ∈ L) (h4 : Part.hosts ∈ L) (h5 : Part.fns ∈ L) (h6 : Part.queues ∈ L) (h7 : Part.hod ∈ L) (h8 : Part.ctx ∈ L) (h9 : Part.counters ∈ L) : changesOnly L s (migrateOne a0 a1 a2 a3).2 ↔ changesOnly L s a3 := by
  unfold migrateOne
  split; · exact Iff.rfl
  split; · exact Iff.rfl
  split
  · split; · exact Iff.rfl
    split; · exact Iff.rfl
    split
    · exact Iff.rfl
    · next e =>
      refine Iff.trans ?_ (reserveSlot_only _ _ _ _ h0 h1 ‹_› ‹_› e)
      simp only [issueFetch_only, modConn_only, h0, h1, h4, h8]
  split; · exact Iff.rfl
  split; · exact Iff.rfl
  split; · exact Iff.rfl
  split; · exact Iff.rfl
  split <;> simp only [contextLost_only, modConn_only, drawn1_only, h0, h1, h2, h3, h4, h5, h6, h7, h8, h9]

end Sys2Proof.Machine
end

