-- ==== Sys2Proof/Laws/FrameStorage.lean ====
section
/-! SUPPORT. FrameStorage.lean: what each definition of the machine may change, for the namespaces, controllers, caches and drives: one lemma `<name>_only` for each, which names the parts of the state it touches. -/

set_option linter.all false

namespace Sys2Proof.Machine
open Sys2Proof

theorem modNvme_only {L : List Part} {s : State} (a0 : Nvme → Nvme) (a1 : State) (h0 : Part.nvme ∈ L) : changesOnly L s (modNvme a0 a1) ↔ changesOnly L s a1 := by
  (simp only [modNvme, iff_self, h0, only_nvme]; done)
theorem modCtrl_only {L : List Part} {s : State} (a0 : Nat) (a1 : Ctrl → Ctrl) (a2 : State) (h0 : Part.nvme ∈ L) : changesOnly L s (modCtrl a0 a1 a2) ↔ changesOnly L s a2 := by
  (simp only [modCtrl, iff_self, modNvme_only, h0]; done)
theorem countN_only {L : List Part} {s : State} (a0 : Nat) (a1 : Nat) (a2 : State) (h0 : Part.counters ∈ L) : changesOnly L s (countN a0 a1 a2) ↔ changesOnly L s a2 := by
  (simp only [countN, iff_self, count_only, h0]; done)
theorem countHost_only {L : List Part} {s : State} (a0 : Nat) (a1 : Nat) (a2 : Nat) (a3 : State) (h0 : Part.counters ∈ L) : changesOnly L s (countHost a0 a1 a2 a3) ↔ changesOnly L s a3 := by
  (simp only [countHost, iff_self, countN_only, h0]; done)
theorem refreshPf1_only {L : List Part} {s : State} (a0 : HostId) (a1 : State) (h0 : Part.out ∈ L) (h1 : Part.hosts ∈ L) : changesOnly L s (refreshPf1 a0 a1) ↔ changesOnly L s a1 := by
  (simp only [refreshPf1, iff_self, modLink_only, refreshInta_only, h0, h1]; done)
theorem nvmeSignal_only {L : List Part} {s : State} (a0 : Nat) (a1 : NvmeCq) (a2 : State) (h0 : Part.out ∈ L) (h1 : Part.hosts ∈ L) (h2 : Part.fns ∈ L) : changesOnly L s (nvmeSignal a0 a1 a2) ↔ changesOnly L s a2 := by
  (simp only [nvmeSignal, iff_self, only_ite, ite_self, signalVector_only, refreshPf1_only, h0, h1, h2]; done)
theorem putNvmeCqe_only {L : List Part} {s : State} (a0 : Nat) (a1 : Nat) (a2 : NvmeCq) (a3 : Nat) (a4 : Nat) (a5 : Nat) (a6 : Nat) (a7 : State) (h0 : Part.out ∈ L) (h1 : Part.hosts ∈ L) (h2 : Part.fns ∈ L) (h3 : Part.nvme ∈ L) : changesOnly L s (putNvmeCqe a0 a1 a2 a3 a4 a5 a6 a7) ↔ changesOnly L s a7 := by
  (simp only [putNvmeCqe, iff_self, nvmeSignal_only, modCtrl_only, emit_only, h0, h1, h2, h3]; done)
theorem postCqe_only {L : List Part} {s : State} (a0 : Nat) (a1 : Nat) (a2 : Nat) (a3 : Nat) (a4 : Nat) (a5 : Nat) (a6 : State) (h0 : Part.out ∈ L) (h1 : Part.hosts ∈ L) (h2 : Part.fns ∈ L) (h3 : Part.nvme ∈ L) : changesOnly L s (postCqe a0 a1 a2 a3 a4 a5 a6) ↔ changesOnly L s a6 := by
  (fun_cases postCqe a0 a1 a2 a3 a4 a5 a6 <;> (simp +zetaDelta only [iff_self, modCtrl_only, putNvmeCqe_only, h0, h1, h2, h3]; done))
theorem drainNvmeCq_only {L : List Part} {s : State} (a0 : Nat) (a1 : Nat) (a2 : Nat) (a3 : State) (h0 : Part.out ∈ L) (h1 : Part.hosts ∈ L) (h2 : Part.fns ∈ L) (h3 : Part.nvme ∈ L) : changesOnly L s (drainNvmeCq a0 a1 a2 a3) ↔ changesOnly L s a3 := by
  induction a2 generalizing a3 with
  | zero => exact Iff.rfl
  | succ n ih =>
    unfold drainNvmeCq
    split; · exact Iff.rfl
    split; · exact Iff.rfl
    split; · exact Iff.rfl
    simp only [ih, putNvmeCqe_only, h0, h1, h2, h3]
theorem completeAt_only {L : List Part} {s : State} (a0 : Nat) (a1 : Nat) (a2 : Nat) (a3 : Nat) (a4 : Nat) (a5 : Nat) (a6 : Nat) (a7 : State) (h0 : Part.out ∈ L) (h1 : Part.hosts ∈ L) (h2 : Part.fns ∈ L) (h3 : Part.nvme ∈ L) (h4 : Part.counters ∈ L) : changesOnly L s (completeAt a0 a1 a2 a3 a4 a5 a6 a7) ↔ changesOnly L s a7 := by
  (fun_cases completeAt a0 a1 a2 a3 a4 a5 a6 a7 <;> (simp +zetaDelta only [iff_self, only_ite, ite_self, postCqe_only, modCtrl_only, countHost_only, h0, h1, h2, h3, h4]; done))
theorem complete_only {L : List Part} {s : State} (a0 : Nat) (a1 : Nat) (a2 : Nat) (a3 : Nat) (a4 : Nat) (a5 : State) (h0 : Part.out ∈ L) (h1 : Part.hosts ∈ L) (h2 : Part.fns ∈ L) (h3 : Part.nvme ∈ L) (h4 : Part.counters ∈ L) : changesOnly L s (complete a0 a1 a2 a3 a4 a5) ↔ changesOnly L s a5 := by
  (simp only [complete, iff_self, completeAt_only, h0, h1, h2, h3, h4]; done)
theorem writePages_only {L : List Part} {s : State} (a0 : HostId) (a1 : Fn) (a2 : List Nat) (a3 : List Byte) (a4 : State) (h0 : Part.out ∈ L) : changesOnly L s (writePages a0 a1 a2 a3 a4) ↔ changesOnly L s a4 := by
  induction a2 generalizing a3 a4 with
  | nil => exact Iff.rfl
  | cons a r ih =>
    unfold writePages
    split; · exact Iff.rfl
    simp only [ih, emit_only, h0]
theorem reportAers_only {L : List Part} {s : State} (a0 : Nat) (a1 : Nat) (a2 : State) (h0 : Part.out ∈ L) (h1 : Part.hosts ∈ L) (h2 : Part.fns ∈ L) (h3 : Part.nvme ∈ L) (h4 : Part.counters ∈ L) : changesOnly L s (reportAers a0 a1 a2) ↔ changesOnly L s a2 := by
  induction a1 generalizing a2 with
  | zero => exact Iff.rfl
  | succ n ih =>
    unfold reportAers
    simp only []
    split
    · simp only [ih, complete_only, modCtrl_only, h0, h1, h2, h3, h4]
    · exact Iff.rfl
theorem raiseAer_only {L : List Part} {s : State} (a0 : Nat) (a1 : Nat) (a2 : Nat) (a3 : State) (h0 : Part.out ∈ L) (h1 : Part.hosts ∈ L) (h2 : Part.fns ∈ L) (h3 : Part.nvme ∈ L) (h4 : Part.counters ∈ L) : changesOnly L s (raiseAer a0 a1 a2 a3) ↔ changesOnly L s a3 := by
  (simp only [raiseAer, iff_self, only_ite, ite_self, modCtrl_only, reportAers_only, h0, h1, h2, h3, h4]; done)
theorem modNs_only {L : List Part} {s : State} (a0 : Nat) (a1 : Namespace → Namespace) (a2 : State) (h0 : Part.nvme ∈ L) : changesOnly L s (modNs a0 a1 a2) ↔ changesOnly L s a2 := by
  (simp only [modNs, iff_self, modNvme_only, h0]; done)
theorem modDrive_only {L : List Part} {s : State} (a0 : Nat) (a1 : Drive → Drive) (a2 : State) (h0 : Part.nvme ∈ L) : changesOnly L s (modDrive a0 a1 a2) ↔ changesOnly L s a2 := by
  (simp only [modDrive, iff_self, modNvme_only, h0]; done)
theorem raiseNsChanged_only {L : List Part} {s : State} (a0 : Nat) (a1 : Nat) (a2 : Option (Nat × Nat)) (a3 : Nat) (a4 : Nat) (a5 : State) (h0 : Part.out ∈ L) (h1 : Part.owner ∈ L) (h2 : Part.rings ∈ L) (h3 : Part.hosts ∈ L) (h4 : Part.fns ∈ L) : changesOnly L s (raiseNsChanged a0 a1 a2 a3 a4 a5) ↔ changesOnly L s a5 := by
  (simp only [raiseNsChanged, iff_self, raiseOwner_only, raiseRing_only, h0, h1, h2, h3, h4]; done)
theorem nsChanged_only {L : List Part} {s : State} (a0 : Nat) (a1 : Nat) (a2 : Option (Nat × Nat)) (a3 : State) (h0 : Part.out ∈ L) (h1 : Part.owner ∈ L) (h2 : Part.rings ∈ L) (h3 : Part.hosts ∈ L) (h4 : Part.fns ∈ L) (h5 : Part.nvme ∈ L) (h6 : Part.counters ∈ L) : changesOnly L s (nsChanged a0 a1 a2 a3) ↔ changesOnly L s a3 := by
  (unfold nsChanged; (repeat' (first | (with_reducible rfl) | (simp only [iff_self, modCtrl_only, raiseAer_only, raiseNsChanged_only, h0, h1, h2, h3, h4, h5, h6]; done) | split | (with_reducible refine (only_foldl _ (fun y b => ?_) _ _).trans ?_) | (simp only []))); done)
theorem nsChangedHere_only {L : List Part} {s : State} (a0 : Nat) (a1 : Nat) (a2 : State) (h0 : Part.out ∈ L) (h1 : Part.owner ∈ L) (h2 : Part.rings ∈ L) (h3 : Part.hosts ∈ L) (h4 : Part.fns ∈ L) (h5 : Part.nvme ∈ L) (h6 : Part.counters ∈ L) : changesOnly L s (nsChangedHere a0 a1 a2) ↔ changesOnly L s a2 := by
  (simp only [nsChangedHere, iff_self, nsChanged_only, h0, h1, h2, h3, h4, h5, h6]; done)
theorem refreshAtomic_only {L : List Part} {s : State} (a0 : Nat) (a1 : State) (h0 : Part.out ∈ L) (h1 : Part.owner ∈ L) (h2 : Part.rings ∈ L) (h3 : Part.hosts ∈ L) (h4 : Part.fns ∈ L) (h5 : Part.nvme ∈ L) (h6 : Part.counters ∈ L) : changesOnly L s (refreshAtomic a0 a1) ↔ changesOnly L s a1 := by
  (fun_cases refreshAtomic a0 a1 <;> (simp +zetaDelta only [iff_self, nsChangedHere_only, modNs_only, h0, h1, h2, h3, h4, h5, h6]; done))
theorem raiseDriveState_only {L : List Part} {s : State} (a0 : Nat) (a1 : Nat) (a2 : Nat) (a3 : Nat) (a4 : State) (h0 : Part.owner ∈ L) : changesOnly L s (raiseDriveState a0 a1 a2 a3 a4) ↔ changesOnly L s a4 := by
  (simp only [raiseDriveState, iff_self, raiseOwner_only, h0]; done)
theorem chargeHost_only {L : List Part} {s : State} (a0 : Nat) (a1 : Nat) (a2 : State) (h0 : Part.nvme ∈ L) : changesOnly L s (chargeHost a0 a1 a2) ↔ changesOnly L s a2 := by
  (simp only [chargeHost, iff_self, modNvme_only, h0]; done)
theorem ctrlFatal_only {L : List Part} {s : State} (a0 : Nat) (a1 : State) (h0 : Part.nvme ∈ L) : changesOnly L s (ctrlFatal a0 a1) ↔ changesOnly L s a1 := by
  (simp only [ctrlFatal, iff_self, modCtrl_only, h0]; done)
theorem selectSqe_only {L : List Part} {s : State} (x y : State) (k : Nat) (h3 : Part.nvme ∈ L) (e : selectSqe x = some (k, y)) : changesOnly L s y ↔ changesOnly L s x := by
  revert e
  unfold selectSqe
  split
  · exact fun e => nomatch e
  · split
    · exact fun e => nomatch e
    · intro e
      injection e with e
      injection e with _ e
      rw [← e]
      simp only [modCtrl_only, modNvme_only, h3]
theorem withSqe_only {L : List Part} {s : State} (a0 : HostId) (a1 : Fn) (a2 : Sqe) (a3 : Bool) (a4 : Nat → State → Nat) (a5 : Nat → State → State) (a6 : State) (ga5 : ∀ k x, changesOnly L s (a5 k x) ↔ changesOnly L s x) (h0 : Part.out ∈ L) (h1 : Part.hosts ∈ L) (h2 : Part.fns ∈ L) (h3 : Part.nvme ∈ L) (h4 : Part.counters ∈ L) (hx : changesOnly L s a6) : OnlyO L s (withSqe a0 a1 a2 a3 a4 a5 a6) := by
  unfold withSqe
  refine (onlyO_next _ _ _).mpr ?_
  split
  · exact hx
  split
  · exact hx
  next k y e =>
  split
  · exact hx
  have hy := (selectSqe_only _ _ _ h3 e).mpr hx
  simp only [only_ite, ite_self, ctrlFatal_only, complete_only, chargeHost_only, modCtrl_only, ga5, hy, h0, h1, h2, h3, h4]
theorem modSeg_only {L : List Part} {s : State} (a0 : Nat) (a1 : Segment → Segment) (a2 : State) (h0 : Part.nvme ∈ L) : changesOnly L s (modSeg a0 a1 a2) ↔ changesOnly L s a2 := by
  (simp only [modSeg, iff_self, modNvme_only, h0]; done)
theorem freeSeg_only {L : List Part} {s : State} (a0 : Nat) (a1 : State) (h0 : Part.nvme ∈ L) : changesOnly L s (freeSeg a0 a1) ↔ changesOnly L s a1 := by
  (simp only [freeSeg, iff_self, modNvme_only, h0]; done)
theorem newSeg_only {L : List Part} {s : State} (a0 : Nat) (a1 : Nat) (a2 : Nat) (a3 : State) (h0 : Part.nvme ∈ L) : changesOnly L s (newSeg a0 a1 a2 a3) ↔ changesOnly L s a3 := by
  (simp only [newSeg, iff_self, modNvme_only, h0]; done)
theorem needSeg_only {L : List Part} {s : State} (a0 : Nat) (a1 : Nat) (a2 : State) (a3 : Nat) (h0 : Part.nvme ∈ L) : changesOnly L s (needSeg a0 a1 a2 a3) ↔ changesOnly L s a2 := by
  (simp only [needSeg, iff_self, only_ite, ite_self, newSeg_only, h0]; done)
theorem dropEmptySegs_only {L : List Part} {s : State} (a0 : State) (h0 : Part.nvme ∈ L) : changesOnly L s (dropEmptySegs a0) ↔ changesOnly L s a0 := by
  (simp only [dropEmptySegs, iff_self, modNvme_only, h0]; done)
theorem modCmd_only {L : List Part} {s : State} (a0 : Nat) (a1 : Nat) (a2 : Nat) (a3 : NvmeCmd → NvmeCmd) (a4 : State) (h0 : Part.nvme ∈ L) : changesOnly L s (modCmd a0 a1 a2 a3 a4) ↔ changesOnly L s a4 := by
  (simp only [modCmd, iff_self, modCtrl_only, h0]; done)
theorem dropCmd_only {L : List Part} {s : State} (a0 : Nat) (a1 : Nat) (a2 : Nat) (a3 : State) (h0 : Part.nvme ∈ L) : changesOnly L s (dropCmd a0 a1 a2 a3) ↔ changesOnly L s a3 := by
  (simp only [dropCmd, iff_self, modCtrl_only, h0]; done)
theorem addCmd_only {L : List Part} {s : State} (a0 : Nat) (a1 : NvmeCmd) (a2 : State) (h0 : Part.nvme ∈ L) : changesOnly L s (addCmd a0 a1 a2) ↔ changesOnly L s a2 := by
  (simp only [addCmd, iff_self, modCtrl_only, h0]; done)
theorem endCmd_only {L : List Part} {s : State} (a0 : Nat) (a1 : NvmeCmd) (a2 : Nat) (a3 : State) (h0 : Part.out ∈ L) (h1 : Part.hosts ∈ L) (h2 : Part.fns ∈ L) (h3 : Part.nvme ∈ L) (h4 : Part.counters ∈ L) : changesOnly L s (endCmd a0 a1 a2 a3) ↔ changesOnly L s a3 := by
  (simp only [endCmd, iff_self, completeAt_only, dropCmd_only, h0, h1, h2, h3, h4]; done)
theorem driveSend_only {L : List Part} {s : State} (a0 : Nat) (a1 : Nat) (a2 : Nat) (a3 : Nat) (a4 : Nat) (a5 : Nat) (a6 : Nat) (a7 : Nat) (a8 : Nat) (a9 : Nat) (a10 : State) (h0 : Part.out ∈ L) (h1 : Part.nvme ∈ L) (h2 : Part.counters ∈ L) : changesOnly L s (driveSend a0 a1 a2 a3 a4 a5 a6 a7 a8 a9 a10) ↔ changesOnly L s a10 := by
  (simp only [driveSend, iff_self, modDrive_only, emit_only, countN_only, h0, h1, h2]; done)
theorem dropDriveCmd_only {L : List Part} {s : State} (a0 : Nat) (a1 : Nat) (a2 : State) (h0 : Part.nvme ∈ L) : changesOnly L s (dropDriveCmd a0 a1 a2) ↔ changesOnly L s a2 := by
  (simp only [dropDriveCmd, iff_self, modDrive_only, h0]; done)
theorem modTarget_only {L : List Part} {s : State} (a0 : Nat) (a1 : Target → Target) (a2 : State) (h0 : Part.nvme ∈ L) : changesOnly L s (modTarget a0 a1 a2) ↔ changesOnly L s a2 := by
  (simp only [modTarget, iff_self, modNvme_only, h0]; done)
theorem pumpTarget_only {L : List Part} {s : State} (a0 : Nat) (a1 : State) (h0 : Part.ctx ∈ L) (h1 : Part.nvme ∈ L) : changesOnly L s (pumpTarget a0 a1) ↔ changesOnly L s a1 := by
  (fun_cases pumpTarget a0 a1 <;> (simp +zetaDelta only [iff_self, modConn_only, modTarget_only, h0, h1]; done))
theorem dropRemote_only {L : List Part} {s : State} (a0 : Nat) (a1 : Nat) (a2 : State) (h0 : Part.ctx ∈ L) (h1 : Part.nvme ∈ L) : changesOnly L s (dropRemote a0 a1 a2) ↔ changesOnly L s a2 := by
  (simp only [dropRemote, iff_self, pumpTarget_only, modTarget_only, h0, h1]; done)
theorem remoteSend_only {L : List Part} {s : State} (a0 : Nat) (a1 : Nat) (a2 : Nat) (a3 : Nat) (a4 : Nat) (a5 : Nat) (a6 : Nat) (a7 : Nat) (a8 : Nat) (a9 : Nat) (a10 : Nat) (a11 : Bool) (a12 : Bool) (a13 : List Byte) (a14 : State) (h0 : Part.out ∈ L) (h1 : Part.ctx ∈ L) (h2 : Part.nvme ∈ L) : changesOnly L s (remoteSend a0 a1 a2 a3 a4 a5 a6 a7 a8 a9 a10 a11 a12 a13 a14) ↔ changesOnly L s a14 := by
  (fun_cases remoteSend a0 a1 a2 a3 a4 a5 a6 a7 a8 a9 a10 a11 a12 a13 a14 <;> (simp +zetaDelta only [iff_self, pumpTarget_only, emit_only, modTarget_only, h0, h1, h2]; done))
theorem writeSpan_only {L : List Part} {s : State} (a0 : Namespace) (a1 : Extent) (a2 : Nat) (a3 : Segment) (a4 : Tbl (List Byte)) (a5 : State) (h0 : Part.out ∈ L) (h1 : Part.ctx ∈ L) (h2 : Part.nvme ∈ L) (h3 : Part.counters ∈ L) : changesOnly L s (writeSpan a0 a1 a2 a3 a4 a5) ↔ changesOnly L s a5 := by
  (simp only [writeSpan, iff_self, only_ite, ite_self, driveSend_only, countN_only, remoteSend_only, h0, h1, h2, h3]; done)
theorem destageSeg_only {L : List Part} {s : State} (a0 : Nat) (a1 : State) (h0 : Part.out ∈ L) (h1 : Part.ctx ∈ L) (h2 : Part.nvme ∈ L) (h3 : Part.counters ∈ L) : changesOnly L s (destageSeg a0 a1) ↔ changesOnly L s a1 := by
  (fun_cases destageSeg a0 a1 <;> (simp +zetaDelta only [iff_self, driveSend_only, writeSpan_only, countN_only, remoteSend_only, modSeg_only, h0, h1, h2, h3]; done))
theorem execDestageStart_only {L : List Part} {s : State} (a0 : NsId) (a1 : Nat) (a2 : State) (h0 : Part.out ∈ L) (h1 : Part.ctx ∈ L) (h2 : Part.nvme ∈ L) (h3 : Part.counters ∈ L) (hx : changesOnly L s a2) : OnlyO L s (execDestageStart a0 a1 a2) := by
  (unfold execDestageStart; (repeat' (first | with_reducible assumption | with_reducible rfl | (simp only [only_ite, ite_self, onlyO_next, hx, destageSeg_only, h0, h1, h2, h3]; done) | split | (with_reducible refine (onlyO_next _ _ _).mpr ?_) | (with_reducible refine (only_foldl _ (fun y b => ?_) _ _).mpr ?_) | (with_reducible refine (only_foldl _ (fun y b => ?_) _ _).trans ?_) | (simp only []))); done)
theorem flushBackings_only {L : List Part} {s : State} (a0 : Nat) (a1 : Nat) (a2 : Nat) (a3 : List Nat) (a4 : State) (h0 : Part.out ∈ L) (h1 : Part.ctx ∈ L) (h2 : Part.nvme ∈ L) (h3 : Part.counters ∈ L) : changesOnly L s (flushBackings a0 a1 a2 a3 a4) ↔ changesOnly L s a4 := by
  (simp only [flushBackings, only_foldl, iff_self, implies_true, only_ite, ite_self, driveSend_only, remoteSend_only, h0, h1, h2, h3]; done)
theorem segOver_only {L : List Part} {s : State} (a0 : Nat) (a1 : Bool) (a2 : Bool) (a3 : State) (h0 : Part.nvme ∈ L) : changesOnly L s (segOver a0 a1 a2 a3) ↔ changesOnly L s a3 := by
  (simp only [segOver, iff_self, modNvme_only, h0]; done)
theorem discardSegs_only {L : List Part} {s : State} (a0 : Nat) (a1 : State) (h0 : Part.nvme ∈ L) : changesOnly L s (discardSegs a0 a1) ↔ changesOnly L s a1 := by
  (simp only [discardSegs, only_foldl, iff_self, implies_true, only_ite, ite_self, freeSeg_only, segOver_only, h0]; done)
theorem deallocate_only {L : List Part} {s : State} (a0 : Namespace) (a1 : State) (h0 : Part.out ∈ L) (h1 : Part.nvme ∈ L) (h2 : Part.counters ∈ L) : changesOnly L s (deallocate a0 a1) ↔ changesOnly L s a1 := by
  (simp only [deallocate, only_foldl, iff_self, implies_true, only_ite, ite_self, driveSend_only, h0, h1, h2]; done)
theorem eraseNs_only {L : List Part} {s : State} (a0 : Nat) (a1 : State) (h0 : Part.out ∈ L) (h1 : Part.drawn ∈ L) (h2 : Part.nv ∈ L) (h3 : Part.nvme ∈ L) (h4 : Part.crypt ∈ L) (h5 : Part.counters ∈ L) : changesOnly L s (eraseNs a0 a1) ↔ changesOnly L s a1 := by
  (unfold eraseNs; (repeat' (first | (with_reducible rfl) | (simp only [iff_self, discardSegs_only, deallocate_only, regenerate_only, h0, h1, h2, h3, h4, h5]; done) | split | (with_reducible refine (only_foldl _ (fun y b => ?_) _ _).trans ?_) | (simp only []))); done)
theorem formatNs_only {L : List Part} {s : State} (a0 : Nat) (a1 : NvmeCmd) (a2 : State) (h0 : Part.out ∈ L) (h1 : Part.drawn ∈ L) (h2 : Part.nv ∈ L) (h3 : Part.owner ∈ L) (h4 : Part.rings ∈ L) (h5 : Part.hosts ∈ L) (h6 : Part.fns ∈ L) (h7 : Part.nvme ∈ L) (h8 : Part.crypt ∈ L) (h9 : Part.counters ∈ L) : changesOnly L s (formatNs a0 a1 a2) ↔ changesOnly L s a2 := by
  (simp only [formatNs, iff_self, nsChangedHere_only, endCmd_only, modNs_only, refreshAtomic_only, eraseNs_only, h0, h1, h2, h3, h4, h5, h6, h7, h8, h9]; done)
theorem stepCmd_only {L : List Part} {s : State} (a0 : Nat) (a1 : NvmeCmd) (a2 : State) (h0 : Part.out ∈ L) (h1 : Part.drawn ∈ L) (h2 : Part.nv ∈ L) (h3 : Part.owner ∈ L) (h4 : Part.rings ∈ L) (h5 : Part.hosts ∈ L) (h6 : Part.fns ∈ L) (h7 : Part.ctx ∈ L) (h8 : Part.nvme ∈ L) (h9 : Part.crypt ∈ L) (h10 : Part.counters ∈ L) : changesOnly L s (stepCmd a0 a1 a2) ↔ changesOnly L s a2 := by
  (fun_cases stepCmd a0 a1 a2 <;> (simp +zetaDelta only [iff_self, endCmd_only, modCmd_only, flushBackings_only, formatNs_only, h0, h1, h2, h3, h4, h5, h6, h7, h8, h9, h10]; done))
theorem stepJob_only {L : List Part} {s : State} (a0 : State) (a1 : Nat × FlushJob) (h0 : Part.out ∈ L) (h1 : Part.ctx ∈ L) (h2 : Part.nvme ∈ L) (h3 : Part.counters ∈ L) : changesOnly L s (stepJob a0 a1) ↔ changesOnly L s a0 := by
  (simp only [stepJob, iff_self, only_ite, ite_self, modNvme_only, flushBackings_only, h0, h1, h2, h3]; done)
theorem endShutdown_only {L : List Part} {s : State} (a0 : State) (a1 : Nat × FlushJob) (h0 : Part.nvme ∈ L) : changesOnly L s (endShutdown a0 a1) ↔ changesOnly L s a0 := by
  (simp only [endShutdown, iff_self, only_ite, ite_self, modCtrl_only, modNvme_only, h0]; done)
theorem settleCache_only {L : List Part} {s : State} (a0 : State) (h0 : Part.out ∈ L) (h1 : Part.drawn ∈ L) (h2 : Part.nv ∈ L) (h3 : Part.owner ∈ L) (h4 : Part.rings ∈ L) (h5 : Part.hosts ∈ L) (h6 : Part.fns ∈ L) (h7 : Part.ctx ∈ L) (h8 : Part.nvme ∈ L) (h9 : Part.crypt ∈ L) (h10 : Part.counters ∈ L) : changesOnly L s (settleCache a0) ↔ changesOnly L s a0 := by
  (unfold settleCache; (repeat' (first | (with_reducible rfl) | (simp only [only_foldl, iff_self, implies_true, stepCmd_only, stepJob_only, endShutdown_only, h0, h1, h2, h3, h4, h5, h6, h7, h8, h9, h10]; done) | split | (with_reducible refine (only_foldl _ (fun y b => ?_) _ _).trans ?_) | (simp only []))); done)
theorem stripOlder_only {L : List Part} {s : State} (a0 : Segment) (a1 : State) (h0 : Part.nvme ∈ L) : changesOnly L s (stripOlder a0 a1) ↔ changesOnly L s a1 := by
  (simp only [stripOlder, iff_self, modNvme_only, h0]; done)
theorem destageEnded_only {L : List Part} {s : State} (a0 : Segment) (a1 : BackingResult) (a2 : Option Nat) (a3 : State) (h0 : Part.out ∈ L) (h1 : Part.drawn ∈ L) (h2 : Part.nv ∈ L) (h3 : Part.owner ∈ L) (h4 : Part.rings ∈ L) (h5 : Part.hosts ∈ L) (h6 : Part.fns ∈ L) (h7 : Part.ctx ∈ L) (h8 : Part.nvme ∈ L) (h9 : Part.crypt ∈ L) (h10 : Part.counters ∈ L) : changesOnly L s (destageEnded a0 a1 a2 a3) ↔ changesOnly L s a3 := by
  (unfold destageEnded; (repeat' (first | (with_reducible rfl) | (simp only [iff_self, only_ite, ite_self, destageSeg_only, freeSeg_only, raiseDriveState_only, stripOlder_only, settleCache_only, countN_only, segOver_only, modSeg_only, h0, h1, h2, h3, h4, h5, h6, h7, h8, h9, h10]; done) | split | (with_reducible refine (only_foldl _ (fun y b => ?_) _ _).trans ?_) | (simp only []))); done)
theorem execDestageDone_only {L : List Part} {s : State} (a0 : NsId) (a1 : Nat) (a2 : BackingResult) (a3 : State) (h0 : Part.out ∈ L) (h1 : Part.drawn ∈ L) (h2 : Part.nv ∈ L) (h3 : Part.owner ∈ L) (h4 : Part.rings ∈ L) (h5 : Part.hosts ∈ L) (h6 : Part.fns ∈ L) (h7 : Part.ctx ∈ L) (h8 : Part.nvme ∈ L) (h9 : Part.crypt ∈ L) (h10 : Part.counters ∈ L) (hx : changesOnly L s a3) : OnlyO L s (execDestageDone a0 a1 a2 a3) := by
  (unfold execDestageDone; (repeat' (first | with_reducible assumption | with_reducible rfl | (simp only [only_ite, ite_self, onlyO_next, hx, destageEnded_only, dropDriveCmd_only, h0, h1, h2, h3, h4, h5, h6, h7, h8, h9, h10]; done) | split | (with_reducible refine (onlyO_next _ _ _).mpr ?_) | (with_reducible refine (only_foldl _ (fun y b => ?_) _ _).mpr ?_) | (with_reducible refine (only_foldl _ (fun y b => ?_) _ _).trans ?_) | (simp only []))); done)
theorem countXts_only {L : List Part} {s : State} (a0 : Bool) (a1 : Nat) (a2 : State) (h0 : Part.drawn ∈ L) (h1 : Part.counters ∈ L) : changesOnly L s (countXts a0 a1 a2) ↔ changesOnly L s a2 := by
  (simp only [countXts, iff_self, drawn1_only, count_only, h0, h1]; done)
theorem finishRead_only {L : List Part} {s : State} (a0 : Nat) (a1 : NvmeCmd) (a2 : State) (h0 : Part.out ∈ L) (h1 : Part.drawn ∈ L) (h2 : Part.hosts ∈ L) (h3 : Part.fns ∈ L) (h4 : Part.nvme ∈ L) (h5 : Part.counters ∈ L) : changesOnly L s (finishRead a0 a1 a2) ↔ changesOnly L s a2 := by
  (fun_cases finishRead a0 a1 a2 <;> (simp +zetaDelta only [iff_self, endCmd_only, modCtrl_only, countXts_only, countHost_only, writePages_only, h0, h1, h2, h3, h4, h5]; done))
theorem stepRead_only {L : List Part} {s : State} (a0 : Nat) (a1 : Nat) (a2 : Nat) (a3 : State) (h0 : Part.out ∈ L) (h1 : Part.drawn ∈ L) (h2 : Part.nv ∈ L) (h3 : Part.owner ∈ L) (h4 : Part.rings ∈ L) (h5 : Part.hosts ∈ L) (h6 : Part.fns ∈ L) (h7 : Part.ctx ∈ L) (h8 : Part.nvme ∈ L) (h9 : Part.crypt ∈ L) (h10 : Part.counters ∈ L) : changesOnly L s (stepRead a0 a1 a2 a3) ↔ changesOnly L s a3 := by
  (fun_cases stepRead a0 a1 a2 a3 <;> (simp +zetaDelta only [iff_self, finishRead_only, settleCache_only, h0, h1, h2, h3, h4, h5, h6, h7, h8, h9, h10]; done))
theorem readPiece_only {L : List Part} {s : State} (a0 : Nat) (a1 : Nat) (a2 : Nat) (a3 : Namespace) (a4 : State) (a5 : Nat × Nat) (h0 : Part.out ∈ L) (h1 : Part.ctx ∈ L) (h2 : Part.nvme ∈ L) (h3 : Part.counters ∈ L) : changesOnly L s (readPiece a0 a1 a2 a3 a4 a5) ↔ changesOnly L s a4 := by
  (fun_cases readPiece a0 a1 a2 a3 a4 a5 <;> (simp +zetaDelta only [iff_self, driveSend_only, remoteSend_only, h0, h1, h2, h3]; done))
theorem dropReads_only {L : List Part} {s : State} (a0 : Nat) (a1 : Nat) (a2 : Nat) (a3 : State) (h0 : Part.nvme ∈ L) : changesOnly L s (dropReads a0 a1 a2 a3) ↔ changesOnly L s a3 := by
  (simp only [dropReads, iff_self, modNvme_only, h0]; done)
theorem failRead_only {L : List Part} {s : State} (a0 : Nat) (a1 : Nat) (a2 : Nat) (a3 : Nat) (a4 : State) (h0 : Part.out ∈ L) (h1 : Part.drawn ∈ L) (h2 : Part.nv ∈ L) (h3 : Part.owner ∈ L) (h4 : Part.rings ∈ L) (h5 : Part.hosts ∈ L) (h6 : Part.fns ∈ L) (h7 : Part.ctx ∈ L) (h8 : Part.nvme ∈ L) (h9 : Part.crypt ∈ L) (h10 : Part.counters ∈ L) : changesOnly L s (failRead a0 a1 a2 a3 a4) ↔ changesOnly L s a4 := by
  (fun_cases failRead a0 a1 a2 a3 a4 <;> (simp +zetaDelta only [iff_self, only_ite, ite_self, endCmd_only, modCtrl_only, settleCache_only, dropReads_only, h0, h1, h2, h3, h4, h5, h6, h7, h8, h9, h10]; done))
theorem execBackingReadDone_only {L : List Part} {s : State} (a0 : HostId) (a1 : Fn) (a2 : BitVec 16) (a3 : BitVec 16) (a4 : BackingResult) (a5 : List Byte) (a6 : State) (h0 : Part.out ∈ L) (h1 : Part.drawn ∈ L) (h2 : Part.nv ∈ L) (h3 : Part.owner ∈ L) (h4 : Part.rings ∈ L) (h5 : Part.hosts ∈ L) (h6 : Part.fns ∈ L) (h7 : Part.ctx ∈ L) (h8 : Part.nvme ∈ L) (h9 : Part.crypt ∈ L) (h10 : Part.counters ∈ L) (hx : changesOnly L s a6) : OnlyO L s (execBackingReadDone a0 a1 a2 a3 a4 a5 a6) := by
  (unfold execBackingReadDone; (repeat' (first | with_reducible assumption | with_reducible rfl | (simp only [only_ite, ite_self, onlyO_next, hx, stepRead_only, dropReads_only, failRead_only, modCmd_only, h0, h1, h2, h3, h4, h5, h6, h7, h8, h9, h10]; done) | split | (with_reducible refine (onlyO_next _ _ _).mpr ?_) | (with_reducible refine (only_foldl _ (fun y b => ?_) _ _).mpr ?_) | (with_reducible refine (only_foldl _ (fun y b => ?_) _ _).trans ?_) | (simp only []))); done)
theorem flushEnded_only {L : List Part} {s : State} (a0 : Nat) (a1 : Nat) (a2 : Nat) (a3 : Nat) (a4 : BackingResult) (a5 : State) (h0 : Part.out ∈ L) (h1 : Part.drawn ∈ L) (h2 : Part.nv ∈ L) (h3 : Part.owner ∈ L) (h4 : Part.rings ∈ L) (h5 : Part.hosts ∈ L) (h6 : Part.fns ∈ L) (h7 : Part.ctx ∈ L) (h8 : Part.nvme ∈ L) (h9 : Part.crypt ∈ L) (h10 : Part.counters ∈ L) : changesOnly L s (flushEnded a0 a1 a2 a3 a4 a5) ↔ changesOnly L s a5 := by
  (fun_cases flushEnded a0 a1 a2 a3 a4 a5 <;> (simp +zetaDelta only [iff_self, endCmd_only, settleCache_only, modCmd_only, modNvme_only, h0, h1, h2, h3, h4, h5, h6, h7, h8, h9, h10]; done))
theorem remoteEnded_only {L : List Part} {s : State} (a0 : Nat) (a1 : RemoteCmd) (a2 : Nat) (a3 : State) (h0 : Part.out ∈ L) (h1 : Part.drawn ∈ L) (h2 : Part.nv ∈ L) (h3 : Part.owner ∈ L) (h4 : Part.rings ∈ L) (h5 : Part.hosts ∈ L) (h6 : Part.fns ∈ L) (h7 : Part.ctx ∈ L) (h8 : Part.nvme ∈ L) (h9 : Part.crypt ∈ L) (h10 : Part.counters ∈ L) : changesOnly L s (remoteEnded a0 a1 a2 a3) ↔ changesOnly L s a3 := by
  (fun_cases remoteEnded a0 a1 a2 a3 <;> (simp +zetaDelta only [iff_self, stepRead_only, destageEnded_only, dropRemote_only, flushEnded_only, writeSpan_only, failRead_only, modCmd_only, h0, h1, h2, h3, h4, h5, h6, h7, h8, h9, h10]; done))
theorem stepRemote_only {L : List Part} {s : State} (a0 : Nat) (a1 : Nat) (a2 : State) (h0 : Part.out ∈ L) (h1 : Part.drawn ∈ L) (h2 : Part.nv ∈ L) (h3 : Part.owner ∈ L) (h4 : Part.rings ∈ L) (h5 : Part.hosts ∈ L) (h6 : Part.fns ∈ L) (h7 : Part.ctx ∈ L) (h8 : Part.nvme ∈ L) (h9 : Part.crypt ∈ L) (h10 : Part.counters ∈ L) : changesOnly L s (stepRemote a0 a1 a2) ↔ changesOnly L s a2 := by
  (fun_cases stepRemote a0 a1 a2 <;> (simp +zetaDelta only [iff_self, remoteEnded_only, h0, h1, h2, h3, h4, h5, h6, h7, h8, h9, h10]; done))
theorem blockIn_only {L : List Part} {s : State} (a0 : BlockIn) (a1 : State) (h0 : Part.out ∈ L) (h1 : Part.drawn ∈ L) (h2 : Part.nv ∈ L) (h3 : Part.owner ∈ L) (h4 : Part.rings ∈ L) (h5 : Part.hosts ∈ L) (h6 : Part.fns ∈ L) (h7 : Part.ctx ∈ L) (h8 : Part.nvme ∈ L) (h9 : Part.crypt ∈ L) (h10 : Part.counters ∈ L) : changesOnly L s (blockIn a0 a1) ↔ changesOnly L s a1 := by
  (fun_cases blockIn a0 a1 <;> (simp +zetaDelta only [iff_self, stepRemote_only, dropRemote_only, modTarget_only, h0, h1, h2, h3, h4, h5, h6, h7, h8, h9, h10]; done))
theorem takeBlocks_only {L : List Part} {s : State} (a0 : State) (h0 : Part.out ∈ L) (h1 : Part.drawn ∈ L) (h2 : Part.nv ∈ L) (h3 : Part.owner ∈ L) (h4 : Part.rings ∈ L) (h5 : Part.hosts ∈ L) (h6 : Part.fns ∈ L) (h7 : Part.ctx ∈ L) (h8 : Part.nvme ∈ L) (h9 : Part.crypt ∈ L) (h10 : Part.counters ∈ L) : changesOnly L s (takeBlocks a0) ↔ changesOnly L s a0 := by
  (simp only [takeBlocks, only_foldl, iff_self, implies_true, blockIn_only, modNvme_only, h0, h1, h2, h3, h4, h5, h6, h7, h8, h9, h10]; done)
theorem execBstatusTimeout_only {L : List Part} {s : State} (a0 : BitVec 12) (a1 : Word) (a2 : State) (h0 : Part.out ∈ L) (h1 : Part.drawn ∈ L) (h2 : Part.nv ∈ L) (h3 : Part.owner ∈ L) (h4 : Part.rings ∈ L) (h5 : Part.hosts ∈ L) (h6 : Part.fns ∈ L) (h7 : Part.ctx ∈ L) (h8 : Part.nvme ∈ L) (h9 : Part.crypt ∈ L) (h10 : Part.counters ∈ L) (hx : changesOnly L s a2) : OnlyO L s (execBstatusTimeout a0 a1 a2) := by
  (unfold execBstatusTimeout; (repeat' (first | with_reducible assumption | with_reducible rfl | (simp only [only_ite, ite_self, onlyO_next, hx, pumpTarget_only, flushEnded_only, countN_only, failRead_only, modCmd_only, modTarget_only, modNvme_only, flushBackings_only, modSeg_only, h0, h1, h2, h3, h4, h5, h6, h7, h8, h9, h10]; done) | split | (with_reducible refine (onlyO_next _ _ _).mpr ?_) | (with_reducible refine (only_foldl _ (fun y b => ?_) _ _).mpr ?_) | (with_reducible refine (only_foldl _ (fun y b => ?_) _ _).trans ?_) | (simp only []))); done)
theorem execRemoteDestageRetry_only {L : List Part} {s : State} (a0 : NsId) (a1 : Nat) (a2 : State) (h0 : Part.out ∈ L) (h1 : Part.ctx ∈ L) (h2 : Part.nvme ∈ L) (h3 : Part.counters ∈ L) (hx : changesOnly L s a2) : OnlyO L s (execRemoteDestageRetry a0 a1 a2) := by
  (unfold execRemoteDestageRetry; (repeat' (first | with_reducible assumption | with_reducible rfl | (simp only [only_ite, ite_self, onlyO_next, hx, destageSeg_only, modSeg_only, h0, h1, h2, h3]; done) | split | (with_reducible refine (onlyO_next _ _ _).mpr ?_) | (with_reducible refine (only_foldl _ (fun y b => ?_) _ _).mpr ?_) | (with_reducible refine (only_foldl _ (fun y b => ?_) _ _).trans ?_) | (simp only []))); done)
theorem putBlock_only {L : List Part} {s : State} (a0 : Nat) (a1 : Namespace) (a2 : Nat) (a3 : List Byte) (a4 : State) (h0 : Part.nvme ∈ L) : changesOnly L s (putBlock a0 a1 a2 a3 a4) ↔ changesOnly L s a4 := by
  (fun_cases putBlock a0 a1 a2 a3 a4 <;> (simp +zetaDelta only [iff_self, needSeg_only, modSeg_only, h0]; done))
theorem insertWrite_only {L : List Part} {s : State} (a0 : Nat) (a1 : NvmeCmd) (a2 : List Byte) (a3 : State) (h0 : Part.out ∈ L) (h1 : Part.drawn ∈ L) (h2 : Part.hosts ∈ L) (h3 : Part.fns ∈ L) (h4 : Part.nvme ∈ L) (h5 : Part.counters ∈ L) : changesOnly L s (insertWrite a0 a1 a2 a3) ↔ changesOnly L s a3 := by
  (fun_cases insertWrite a0 a1 a2 a3 <;> (simp +zetaDelta only [only_foldl, iff_self, implies_true, endCmd_only, modCtrl_only, dropEmptySegs_only, countXts_only, modCmd_only, putBlock_only, countHost_only, h0, h1, h2, h3, h4, h5]; done))
theorem startWrite_only {L : List Part} {s : State} (a0 : Nat) (a1 : NvmeCmd) (a2 : State) (h0 : Part.out ∈ L) (h1 : Part.drawn ∈ L) (h2 : Part.hosts ∈ L) (h3 : Part.fns ∈ L) (h4 : Part.nvme ∈ L) (h5 : Part.counters ∈ L) : changesOnly L s (startWrite a0 a1 a2) ↔ changesOnly L s a2 := by
  (fun_cases startWrite a0 a1 a2 <;> (simp +zetaDelta only [only_foldl, iff_self, implies_true, needSeg_only, endCmd_only, issueRead_only, modCmd_only, insertWrite_only, h0, h1, h2, h3, h4, h5]; done))
theorem admitWrite_only {L : List Part} {s : State} (a0 : Nat) (a1 : NvmeCmd) (a2 : Namespace) (a3 : State) (h0 : Part.out ∈ L) (h1 : Part.drawn ∈ L) (h2 : Part.hosts ∈ L) (h3 : Part.fns ∈ L) (h4 : Part.nvme ∈ L) (h5 : Part.counters ∈ L) : changesOnly L s (admitWrite a0 a1 a2 a3) ↔ changesOnly L s a3 := by
  (simp only [admitWrite, iff_self, only_ite, ite_self, startWrite_only, addCmd_only, countHost_only, h0, h1, h2, h3, h4, h5]; done)
theorem takeWrite_only {L : List Part} {s : State} (a0 : Sqe) (a1 : Nat) (a2 : State) (h0 : Part.out ∈ L) (h1 : Part.drawn ∈ L) (h2 : Part.hosts ∈ L) (h3 : Part.fns ∈ L) (h4 : Part.nvme ∈ L) (h5 : Part.counters ∈ L) : changesOnly L s (takeWrite a0 a1 a2) ↔ changesOnly L s a2 := by
  fun_cases takeWrite a0 a1 a2 <;> simp +zetaDelta only [only_ite, ite_self, completeAt_only, complete_only, admitWrite_only, countHost_only, modCtrl_only, h0, h1, h2, h3, h4, h5]
theorem execNvmeWrite_only {L : List Part} {s : State} (a0 : HostId) (a1 : Fn) (a2 : Sqe) (a3 : State) (h0 : Part.out ∈ L) (h1 : Part.drawn ∈ L) (h2 : Part.hosts ∈ L) (h3 : Part.fns ∈ L) (h4 : Part.nvme ∈ L) (h5 : Part.counters ∈ L) (hx : changesOnly L s a3) : OnlyO L s (execNvmeWrite a0 a1 a2 a3) := by
  (simp only [execNvmeWrite, iff_self, implies_true, hx, takeWrite_only, withSqe_only, h0, h1, h2, h3, h4, h5]; done)
theorem execNvmeWriteZeroes_only {L : List Part} {s : State} (a0 : HostId) (a1 : Fn) (a2 : Sqe) (a3 : State) (h0 : Part.out ∈ L) (h1 : Part.drawn ∈ L) (h2 : Part.hosts ∈ L) (h3 : Part.fns ∈ L) (h4 : Part.nvme ∈ L) (h5 : Part.counters ∈ L) (hx : changesOnly L s a3) : OnlyO L s (execNvmeWriteZeroes a0 a1 a2 a3) := by
  (simp only [execNvmeWriteZeroes, iff_self, implies_true, hx, takeWrite_only, withSqe_only, h0, h1, h2, h3, h4, h5]; done)
theorem execWriteInsertion_only {L : List Part} {s : State} (a0 : HostId) (a1 : Fn) (a2 : BitVec 16) (a3 : BitVec 16) (a4 : List Byte) (a5 : State) (h0 : Part.out ∈ L) (h1 : Part.drawn ∈ L) (h2 : Part.nv ∈ L) (h3 : Part.owner ∈ L) (h4 : Part.rings ∈ L) (h5 : Part.hosts ∈ L) (h6 : Part.fns ∈ L) (h7 : Part.ctx ∈ L) (h8 : Part.nvme ∈ L) (h9 : Part.crypt ∈ L) (h10 : Part.counters ∈ L) (hx : changesOnly L s a5) : OnlyO L s (execWriteInsertion a0 a1 a2 a3 a4 a5) := by
  (unfold execWriteInsertion; (repeat' (first | with_reducible assumption | with_reducible rfl | (simp only [only_ite, ite_self, onlyO_next, hx, endRead_only, settleCache_only, insertWrite_only, h0, h1, h2, h3, h4, h5, h6, h7, h8, h9, h10]; done) | split | (with_reducible refine (onlyO_next _ _ _).mpr ?_) | (with_reducible refine (only_foldl _ (fun y b => ?_) _ _).mpr ?_) | (with_reducible refine (only_foldl _ (fun y b => ?_) _ _).trans ?_) | (simp only []))); done)
theorem writeDataFailed_only {L : List Part} {s : State} (a0 : HostId) (a1 : Fn) (a2 : Nat) (a3 : Nat) (a4 : State) (h0 : Part.out ∈ L) (h1 : Part.hosts ∈ L) (h2 : Part.fns ∈ L) (h3 : Part.nvme ∈ L) (h4 : Part.counters ∈ L) : changesOnly L s (writeDataFailed a0 a1 a2 a3 a4) ↔ changesOnly L s a4 := by
  (fun_cases writeDataFailed a0 a1 a2 a3 a4 <;> (simp +zetaDelta only [iff_self, endCmd_only, dropEmptySegs_only, h0, h1, h2, h3, h4]; done))
theorem execWcacheWaitEnd_only {L : List Part} {s : State} (a0 : HostId) (a1 : State) (h0 : Part.out ∈ L) (h1 : Part.drawn ∈ L) (h2 : Part.nv ∈ L) (h3 : Part.owner ∈ L) (h4 : Part.rings ∈ L) (h5 : Part.hosts ∈ L) (h6 : Part.fns ∈ L) (h7 : Part.ctx ∈ L) (h8 : Part.nvme ∈ L) (h9 : Part.crypt ∈ L) (h10 : Part.counters ∈ L) (hx : changesOnly L s a1) : OnlyO L s (execWcacheWaitEnd a0 a1) := by
  (unfold execWcacheWaitEnd; (repeat' (first | with_reducible assumption | with_reducible rfl | (simp only [only_ite, ite_self, onlyO_next, hx, startWrite_only, settleCache_only, h0, h1, h2, h3, h4, h5, h6, h7, h8, h9, h10]; done) | split | (with_reducible refine (onlyO_next _ _ _).mpr ?_) | (with_reducible refine (only_foldl _ (fun y b => ?_) _ _).mpr ?_) | (with_reducible refine (only_foldl _ (fun y b => ?_) _ _).trans ?_) | (simp only []))); done)
theorem takeRead_only {L : List Part} {s : State} (a0 : Sqe) (a1 : Nat) (a2 : State) (h0 : Part.out ∈ L) (h1 : Part.drawn ∈ L) (h2 : Part.nv ∈ L) (h3 : Part.owner ∈ L) (h4 : Part.rings ∈ L) (h5 : Part.hosts ∈ L) (h6 : Part.fns ∈ L) (h7 : Part.ctx ∈ L) (h8 : Part.nvme ∈ L) (h9 : Part.crypt ∈ L) (h10 : Part.counters ∈ L) : changesOnly L s (takeRead a0 a1 a2) ↔ changesOnly L s a2 := by
  have hf : ∀ (k q c : Nat) (y : Namespace) l z, changesOnly L s (List.foldl (readPiece k q c y) z l) ↔ changesOnly L s z := fun k q c y l z => only_foldl _ (fun y b => by simp only [readPiece_only, h0, h7, h8, h10]) l z
  fun_cases takeRead a0 a1 a2 <;> simp +zetaDelta only [completeAt_only, complete_only, stepRead_only, hf, addCmd_only, countHost_only, modCtrl_only, h0, h1, h2, h3, h4, h5, h6, h7, h8, h9, h10]
theorem execNvmeRead_only {L : List Part} {s : State} (a0 : HostId) (a1 : Fn) (a2 : Sqe) (a3 : State) (h0 : Part.out ∈ L) (h1 : Part.drawn ∈ L) (h2 : Part.nv ∈ L) (h3 : Part.owner ∈ L) (h4 : Part.rings ∈ L) (h5 : Part.hosts ∈ L) (h6 : Part.fns ∈ L) (h7 : Part.ctx ∈ L) (h8 : Part.nvme ∈ L) (h9 : Part.crypt ∈ L) (h10 : Part.counters ∈ L) (hx : changesOnly L s a3) : OnlyO L s (execNvmeRead a0 a1 a2 a3) := by
  (simp only [execNvmeRead, iff_self, implies_true, hx, takeRead_only, withSqe_only, h0, h1, h2, h3, h4, h5, h6, h7, h8, h9, h10]; done)
theorem takeFlush_only {L : List Part} {s : State} (a0 : Sqe) (a1 : Nat) (a2 : State) (h0 : Part.out ∈ L) (h1 : Part.drawn ∈ L) (h2 : Part.nv ∈ L) (h3 : Part.owner ∈ L) (h4 : Part.rings ∈ L) (h5 : Part.hosts ∈ L) (h6 : Part.fns ∈ L) (h7 : Part.ctx ∈ L) (h8 : Part.nvme ∈ L) (h9 : Part.crypt ∈ L) (h10 : Part.counters ∈ L) : changesOnly L s (takeFlush a0 a1 a2) ↔ changesOnly L s a2 := by
  (fun_cases takeFlush a0 a1 a2 <;> (simp +zetaDelta only [iff_self, complete_only, settleCache_only, addCmd_only, countHost_only, h0, h1, h2, h3, h4, h5, h6, h7, h8, h9, h10]; done))
theorem execNvmeFlush_only {L : List Part} {s : State} (a0 : HostId) (a1 : Fn) (a2 : Sqe) (a3 : State) (h0 : Part.out ∈ L) (h1 : Part.drawn ∈ L) (h2 : Part.nv ∈ L) (h3 : Part.owner ∈ L) (h4 : Part.rings ∈ L) (h5 : Part.hosts ∈ L) (h6 : Part.fns ∈ L) (h7 : Part.ctx ∈ L) (h8 : Part.nvme ∈ L) (h9 : Part.crypt ∈ L) (h10 : Part.counters ∈ L) (hx : changesOnly L s a3) : OnlyO L s (execNvmeFlush a0 a1 a2 a3) := by
  (simp only [execNvmeFlush, iff_self, implies_true, hx, takeFlush_only, withSqe_only, h0, h1, h2, h3, h4, h5, h6, h7, h8, h9, h10]; done)
theorem loosenBlocks_only {L : List Part} {s : State} (a0 : Nat) (a1 : Nat → Bool) (a2 : State) (h0 : Part.drawn ∈ L) (h1 : Part.nvme ∈ L) : changesOnly L s (loosenBlocks a0 a1 a2) ↔ changesOnly L s a2 := by
  unfold loosenBlocks
  refine only_foldl _ (fun y g => only_foldl _ (fun z b => ?_) _ _) _ _
  simp only [drawn1_only, modSeg_only, h0, h1]
theorem takeDsm_only {L : List Part} {s : State} (a0 : Sqe) (a1 : Nat) (a2 : State) (h0 : Part.out ∈ L) (h1 : Part.hosts ∈ L) (h2 : Part.fns ∈ L) (h3 : Part.nvme ∈ L) (h4 : Part.counters ∈ L) (h5 : Part.drawn ∈ L) : changesOnly L s (takeDsm a0 a1 a2) ↔ changesOnly L s a2 := by
  (fun_cases takeDsm a0 a1 a2 <;> (simp +zetaDelta only [iff_self, complete_only, loosenBlocks_only, h0, h1, h2, h3, h4, h5]; done))
theorem execNvmeDatasetManagement_only {L : List Part} {s : State} (a0 : HostId) (a1 : Fn) (a2 : Sqe) (a3 : State) (h0 : Part.out ∈ L) (h1 : Part.hosts ∈ L) (h2 : Part.fns ∈ L) (h3 : Part.nvme ∈ L) (h4 : Part.counters ∈ L) (h5 : Part.drawn ∈ L) (hx : changesOnly L s a3) : OnlyO L s (execNvmeDatasetManagement a0 a1 a2 a3) := by
  (simp only [execNvmeDatasetManagement, iff_self, implies_true, hx, takeDsm_only, withSqe_only, h0, h1, h2, h3, h4, h5]; done)
theorem execNvmeUnsupportedCommand_only {L : List Part} {s : State} (a0 : HostId) (a1 : Fn) (a2 : Sqe) (a3 : State) (h0 : Part.out ∈ L) (h1 : Part.hosts ∈ L) (h2 : Part.fns ∈ L) (h3 : Part.nvme ∈ L) (h4 : Part.counters ∈ L) (hx : changesOnly L s a3) : OnlyO L s (execNvmeUnsupportedCommand a0 a1 a2 a3) := by
  (simp only [execNvmeUnsupportedCommand, iff_self, implies_true, hx, complete_only, withSqe_only, h0, h1, h2, h3, h4]; done)
theorem resetCtrl_only {L : List Part} {s : State} (a0 : Nat) (a1 : Nat) (a2 : State) (h0 : Part.out ∈ L) (h1 : Part.drawn ∈ L) (h2 : Part.nv ∈ L) (h3 : Part.owner ∈ L) (h4 : Part.rings ∈ L) (h5 : Part.hosts ∈ L) (h6 : Part.fns ∈ L) (h7 : Part.ctx ∈ L) (h8 : Part.nvme ∈ L) (h9 : Part.crypt ∈ L) (h10 : Part.counters ∈ L) : changesOnly L s (resetCtrl a0 a1 a2) ↔ changesOnly L s a2 := by
  (simp only [resetCtrl, only_foldl, iff_self, implies_true, only_ite, ite_self, refreshPf1_only, settleCache_only, dropReads_only, dropEmptySegs_only, modNvme_only, h0, h1, h2, h3, h4, h5, h6, h7, h8, h9, h10]; done)
theorem execNvmeCcEnSet_only {L : List Part} {s : State} (a0 : HostId) (a1 : Fn) (a2 : Word) (a3 : State) (h0 : Part.nvme ∈ L) (hx : changesOnly L s a3) : OnlyO L s (execNvmeCcEnSet a0 a1 a2 a3) := by
  (simp only [execNvmeCcEnSet, only_ite, ite_self, onlyO_next, hx, modCtrl_only, h0]; done)
theorem execNvmeCcEnClear_only {L : List Part} {s : State} (a0 : HostId) (a1 : Fn) (a2 : State) (h0 : Part.out ∈ L) (h1 : Part.drawn ∈ L) (h2 : Part.nv ∈ L) (h3 : Part.owner ∈ L) (h4 : Part.rings ∈ L) (h5 : Part.hosts ∈ L) (h6 : Part.fns ∈ L) (h7 : Part.ctx ∈ L) (h8 : Part.nvme ∈ L) (h9 : Part.crypt ∈ L) (h10 : Part.counters ∈ L) (hx : changesOnly L s a2) : OnlyO L s (execNvmeCcEnClear a0 a1 a2) := by
  (simp only [execNvmeCcEnClear, only_ite, ite_self, onlyO_next, hx, resetCtrl_only, h0, h1, h2, h3, h4, h5, h6, h7, h8, h9, h10]; done)
theorem abortCmds_only {L : List Part} {s : State} (a0 : Nat) (a1 : State) (h0 : Part.nvme ∈ L) : changesOnly L s (abortCmds a0 a1) ↔ changesOnly L s a1 := by
  (simp only [abortCmds, only_foldl, iff_self, implies_true, only_ite, ite_self, dropReads_only, dropEmptySegs_only, dropCmd_only, h0]; done)
theorem execNvmeShutdown_only {L : List Part} {s : State} (a0 : HostId) (a1 : Fn) (a2 : Bool) (a3 : State) (h0 : Part.out ∈ L) (h1 : Part.drawn ∈ L) (h2 : Part.nv ∈ L) (h3 : Part.owner ∈ L) (h4 : Part.rings ∈ L) (h5 : Part.hosts ∈ L) (h6 : Part.fns ∈ L) (h7 : Part.ctx ∈ L) (h8 : Part.nvme ∈ L) (h9 : Part.crypt ∈ L) (h10 : Part.counters ∈ L) (hx : changesOnly L s a3) : OnlyO L s (execNvmeShutdown a0 a1 a2 a3) := by
  (simp only [execNvmeShutdown, only_ite, ite_self, onlyO_next, hx, modCtrl_only, settleCache_only, abortCmds_only, modNvme_only, h0, h1, h2, h3, h4, h5, h6, h7, h8, h9, h10]; done)
theorem execNvmeIntmsIntmc_only {L : List Part} {s : State} (a0 : HostId) (a1 : Fn) (a2 : Bool) (a3 : Word) (a4 : State) (h0 : Part.out ∈ L) (h1 : Part.hosts ∈ L) (h2 : Part.nvme ∈ L) (hx : changesOnly L s a4) : OnlyO L s (execNvmeIntmsIntmc a0 a1 a2 a3 a4) := by
  (simp only [execNvmeIntmsIntmc, only_ite, ite_self, onlyO_next, hx, refreshPf1_only, modCtrl_only, h0, h1, h2]; done)
theorem execNvmeSqDoorbell_only {L : List Part} {s : State} (a0 : HostId) (a1 : Fn) (a2 : BitVec 16) (a3 : Word) (a4 : State) (h0 : Part.nvme ∈ L) (hx : changesOnly L s a4) : OnlyO L s (execNvmeSqDoorbell a0 a1 a2 a3 a4) := by
  (unfold execNvmeSqDoorbell; (repeat' (first | with_reducible assumption | with_reducible rfl | (simp only [only_ite, ite_self, onlyO_next, hx, modCtrl_only, h0]; done) | split | (with_reducible refine (onlyO_next _ _ _).mpr ?_) | (with_reducible refine (only_foldl _ (fun y b => ?_) _ _).mpr ?_) | (with_reducible refine (only_foldl _ (fun y b => ?_) _ _).trans ?_) | (simp only []))); done)
theorem execNvmeCqDoorbell_only {L : List Part} {s : State} (a0 : HostId) (a1 : Fn) (a2 : BitVec 16) (a3 : Word) (a4 : State) (h0 : Part.out ∈ L) (h1 : Part.hosts ∈ L) (h2 : Part.fns ∈ L) (h3 : Part.nvme ∈ L) (hx : changesOnly L s a4) : OnlyO L s (execNvmeCqDoorbell a0 a1 a2 a3 a4) := by
  (unfold execNvmeCqDoorbell; (repeat' (first | with_reducible assumption | with_reducible rfl | (simp only [only_ite, ite_self, onlyO_next, hx, refreshPf1_only, modCtrl_only, drainNvmeCq_only, h0, h1, h2, h3]; done) | split | (with_reducible refine (onlyO_next _ _ _).mpr ?_) | (with_reducible refine (only_foldl _ (fun y b => ?_) _ _).mpr ?_) | (with_reducible refine (only_foldl _ (fun y b => ?_) _ _).trans ?_) | (simp only []))); done)
theorem adminDone_only {L : List Part} {s : State} (a0 : Sqe) (a1 : Nat) (a2 : Nat) (a3 : Nat) (a4 : State) (h0 : Part.out ∈ L) (h1 : Part.hosts ∈ L) (h2 : Part.fns ∈ L) (h3 : Part.nvme ∈ L) (h4 : Part.counters ∈ L) : changesOnly L s (adminDone a0 a1 a2 a3 a4) ↔ changesOnly L s a4 := by
  (simp only [adminDone, iff_self, complete_only, h0, h1, h2, h3, h4]; done)
theorem createCq_only {L : List Part} {s : State} (a0 : HostId) (a1 : Fn) (a2 : Sqe) (a3 : Nat) (a4 : State) (h0 : Part.out ∈ L) (h1 : Part.hosts ∈ L) (h2 : Part.fns ∈ L) (h3 : Part.nvme ∈ L) (h4 : Part.counters ∈ L) : changesOnly L s (createCq a0 a1 a2 a3 a4) ↔ changesOnly L s a4 := by
  (simp only [createCq, iff_self, only_ite, ite_self, adminDone_only, modCtrl_only, countHost_only, h0, h1, h2, h3, h4]; done)
theorem createSq_only {L : List Part} {s : State} (a0 : HostId) (a1 : Fn) (a2 : Sqe) (a3 : Nat) (a4 : State) (h0 : Part.out ∈ L) (h1 : Part.hosts ∈ L) (h2 : Part.fns ∈ L) (h3 : Part.nvme ∈ L) (h4 : Part.counters ∈ L) : changesOnly L s (createSq a0 a1 a2 a3 a4) ↔ changesOnly L s a4 := by
  (simp only [createSq, iff_self, only_ite, ite_self, adminDone_only, modCtrl_only, countHost_only, h0, h1, h2, h3, h4]; done)
theorem deleteSq_only {L : List Part} {s : State} (a0 : Sqe) (a1 : Nat) (a2 : State) (h0 : Part.out ∈ L) (h1 : Part.drawn ∈ L) (h2 : Part.nv ∈ L) (h3 : Part.owner ∈ L) (h4 : Part.rings ∈ L) (h5 : Part.hosts ∈ L) (h6 : Part.fns ∈ L) (h7 : Part.ctx ∈ L) (h8 : Part.nvme ∈ L) (h9 : Part.crypt ∈ L) (h10 : Part.counters ∈ L) : changesOnly L s (deleteSq a0 a1 a2) ↔ changesOnly L s a2 := by
  (simp only [deleteSq, only_foldl, iff_self, implies_true, only_ite, ite_self, adminDone_only, endCmd_only, modCtrl_only, settleCache_only, dropReads_only, dropEmptySegs_only, h0, h1, h2, h3, h4, h5, h6, h7, h8, h9, h10]; done)
theorem deleteCq_only {L : List Part} {s : State} (a0 : Sqe) (a1 : Nat) (a2 : State) (h0 : Part.out ∈ L) (h1 : Part.hosts ∈ L) (h2 : Part.fns ∈ L) (h3 : Part.nvme ∈ L) (h4 : Part.counters ∈ L) : changesOnly L s (deleteCq a0 a1 a2) ↔ changesOnly L s a2 := by
  (simp only [deleteCq, iff_self, only_ite, ite_self, adminDone_only, modCtrl_only, h0, h1, h2, h3, h4]; done)
theorem adminRow_only {L : List Part} {s : State} (a0 : Nat) (a1 : HostId) (a2 : Fn) (a3 : Sqe) (a4 : Nat → State → State) (a5 : State) (ga4 : ∀ k x, changesOnly L s (a4 k x) ↔ changesOnly L s x) (h0 : Part.out ∈ L) (h1 : Part.hosts ∈ L) (h2 : Part.fns ∈ L) (h3 : Part.nvme ∈ L) (h4 : Part.counters ∈ L) (hx : changesOnly L s a5) : OnlyO L s (adminRow a0 a1 a2 a3 a4 a5) := by
  (simp only [adminRow, iff_self, implies_true, hx, withSqe_only, ga4, h0, h1, h2, h3, h4]; done)
theorem execNvmeCreateIoSq_only {L : List Part} {s : State} (a0 : HostId) (a1 : Fn) (a2 : Sqe) (a3 : State) (h0 : Part.out ∈ L) (h1 : Part.hosts ∈ L) (h2 : Part.fns ∈ L) (h3 : Part.nvme ∈ L) (h4 : Part.counters ∈ L) (hx : changesOnly L s a3) : OnlyO L s (execNvmeCreateIoSq a0 a1 a2 a3) := by
  (simp only [execNvmeCreateIoSq, iff_self, implies_true, hx, adminRow_only, createSq_only, h0, h1, h2, h3, h4]; done)
theorem execNvmeCreateIoCq_only {L : List Part} {s : State} (a0 : HostId) (a1 : Fn) (a2 : Sqe) (a3 : State) (h0 : Part.out ∈ L) (h1 : Part.hosts ∈ L) (h2 : Part.fns ∈ L) (h3 : Part.nvme ∈ L) (h4 : Part.counters ∈ L) (hx : changesOnly L s a3) : OnlyO L s (execNvmeCreateIoCq a0 a1 a2 a3) := by
  (simp only [execNvmeCreateIoCq, iff_self, implies_true, hx, adminRow_only, createCq_only, h0, h1, h2, h3, h4]; done)
theorem execNvmeDeleteIoSq_only {L : List Part} {s : State} (a0 : HostId) (a1 : Fn) (a2 : Sqe) (a3 : State) (h0 : Part.out ∈ L) (h1 : Part.drawn ∈ L) (h2 : Part.nv ∈ L) (h3 : Part.owner ∈ L) (h4 : Part.rings ∈ L) (h5 : Part.hosts ∈ L) (h6 : Part.fns ∈ L) (h7 : Part.ctx ∈ L) (h8 : Part.nvme ∈ L) (h9 : Part.crypt ∈ L) (h10 : Part.counters ∈ L) (hx : changesOnly L s a3) : OnlyO L s (execNvmeDeleteIoSq a0 a1 a2 a3) := by
  (simp only [execNvmeDeleteIoSq, iff_self, implies_true, hx, adminRow_only, deleteSq_only, h0, h1, h2, h3, h4, h5, h6, h7, h8, h9, h10]; done)
theorem execNvmeDeleteIoCq_only {L : List Part} {s : State} (a0 : HostId) (a1 : Fn) (a2 : Sqe) (a3 : State) (h0 : Part.out ∈ L) (h1 : Part.hosts ∈ L) (h2 : Part.fns ∈ L) (h3 : Part.nvme ∈ L) (h4 : Part.counters ∈ L) (hx : changesOnly L s a3) : OnlyO L s (execNvmeDeleteIoCq a0 a1 a2 a3) := by
  (simp only [execNvmeDeleteIoCq, iff_self, implies_true, hx, deleteCq_only, adminRow_only, h0, h1, h2, h3, h4]; done)
theorem abortCmd_only {L : List Part} {s : State} (a0 : Sqe) (a1 : Nat) (a2 : State) (h0 : Part.out ∈ L) (h1 : Part.drawn ∈ L) (h2 : Part.nv ∈ L) (h3 : Part.owner ∈ L) (h4 : Part.rings ∈ L) (h5 : Part.hosts ∈ L) (h6 : Part.fns ∈ L) (h7 : Part.ctx ∈ L) (h8 : Part.nvme ∈ L) (h9 : Part.crypt ∈ L) (h10 : Part.counters ∈ L) : changesOnly L s (abortCmd a0 a1 a2) ↔ changesOnly L s a2 := by
  (fun_cases abortCmd a0 a1 a2 <;> (simp +zetaDelta only [iff_self, adminDone_only, endCmd_only, settleCache_only, dropReads_only, dropEmptySegs_only, h0, h1, h2, h3, h4, h5, h6, h7, h8, h9, h10]; done))
theorem execNvmeAbort_only {L : List Part} {s : State} (a0 : HostId) (a1 : Fn) (a2 : Sqe) (a3 : State) (h0 : Part.out ∈ L) (h1 : Part.drawn ∈ L) (h2 : Part.nv ∈ L) (h3 : Part.owner ∈ L) (h4 : Part.rings ∈ L) (h5 : Part.hosts ∈ L) (h6 : Part.fns ∈ L) (h7 : Part.ctx ∈ L) (h8 : Part.nvme ∈ L) (h9 : Part.crypt ∈ L) (h10 : Part.counters ∈ L) (hx : changesOnly L s a3) : OnlyO L s (execNvmeAbort a0 a1 a2 a3) := by
  (simp only [execNvmeAbort, iff_self, implies_true, hx, adminRow_only, abortCmd_only, h0, h1, h2, h3, h4, h5, h6, h7, h8, h9, h10]; done)
theorem takeAer_only {L : List Part} {s : State} (a0 : Sqe) (a1 : Nat) (a2 : State) (h0 : Part.out ∈ L) (h1 : Part.hosts ∈ L) (h2 : Part.fns ∈ L) (h3 : Part.nvme ∈ L) (h4 : Part.counters ∈ L) : changesOnly L s (takeAer a0 a1 a2) ↔ changesOnly L s a2 := by
  (simp only [takeAer, iff_self, only_ite, ite_self, adminDone_only, addCmd_only, reportAers_only, h0, h1, h2, h3, h4]; done)
theorem execNvmeAsyncEventRequest_only {L : List Part} {s : State} (a0 : HostId) (a1 : Fn) (a2 : Sqe) (a3 : State) (h0 : Part.out ∈ L) (h1 : Part.hosts ∈ L) (h2 : Part.fns ∈ L) (h3 : Part.nvme ∈ L) (h4 : Part.counters ∈ L) (hx : changesOnly L s a3) : OnlyO L s (execNvmeAsyncEventRequest a0 a1 a2 a3) := by
  (simp only [execNvmeAsyncEventRequest, iff_self, implies_true, hx, adminRow_only, takeAer_only, h0, h1, h2, h3, h4]; done)
theorem setFeature_only {L : List Part} {s : State} (a0 : Fn) (a1 : Sqe) (a2 : Nat) (a3 : State) (h0 : Part.out ∈ L) (h1 : Part.hosts ∈ L) (h2 : Part.fns ∈ L) (h3 : Part.nvme ∈ L) (h4 : Part.counters ∈ L) : changesOnly L s (setFeature a0 a1 a2 a3) ↔ changesOnly L s a3 := by
  (simp only [setFeature, iff_self, only_ite, ite_self, adminDone_only, modCtrl_only, h0, h1, h2, h3, h4]; done)
theorem execNvmeSetFeatures_only {L : List Part} {s : State} (a0 : HostId) (a1 : Fn) (a2 : Sqe) (a3 : State) (h0 : Part.out ∈ L) (h1 : Part.hosts ∈ L) (h2 : Part.fns ∈ L) (h3 : Part.nvme ∈ L) (h4 : Part.counters ∈ L) (hx : changesOnly L s a3) : OnlyO L s (execNvmeSetFeatures a0 a1 a2 a3) := by
  (simp only [execNvmeSetFeatures, iff_self, implies_true, hx, adminRow_only, setFeature_only, h0, h1, h2, h3, h4]; done)
theorem getFeature_only {L : List Part} {s : State} (a0 : Fn) (a1 : Sqe) (a2 : Nat) (a3 : State) (h0 : Part.out ∈ L) (h1 : Part.hosts ∈ L) (h2 : Part.fns ∈ L) (h3 : Part.nvme ∈ L) (h4 : Part.counters ∈ L) : changesOnly L s (getFeature a0 a1 a2 a3) ↔ changesOnly L s a3 := by
  (simp only [getFeature, iff_self, only_ite, ite_self, adminDone_only, h0, h1, h2, h3, h4]; done)
theorem execNvmeGetFeatures_only {L : List Part} {s : State} (a0 : HostId) (a1 : Fn) (a2 : Sqe) (a3 : State) (h0 : Part.out ∈ L) (h1 : Part.hosts ∈ L) (h2 : Part.fns ∈ L) (h3 : Part.nvme ∈ L) (h4 : Part.counters ∈ L) (hx : changesOnly L s a3) : OnlyO L s (execNvmeGetFeatures a0 a1 a2 a3) := by
  (simp only [execNvmeGetFeatures, iff_self, implies_true, hx, adminRow_only, getFeature_only, h0, h1, h2, h3, h4]; done)
theorem endSelfTest_only {L : List Part} {s : State} (a0 : Nat) (a1 : Nat) (a2 : Nat) (a3 : Nat) (a4 : Nat) (a5 : State) (h0 : Part.nvme ∈ L) : changesOnly L s (endSelfTest a0 a1 a2 a3 a4 a5) ↔ changesOnly L s a5 := by
  (fun_cases endSelfTest a0 a1 a2 a3 a4 a5 <;> (simp +zetaDelta only [iff_self, modCtrl_only, h0]; done))
theorem takeFormat_only {L : List Part} {s : State} (a0 : Sqe) (a1 : Nat) (a2 : State) (h0 : Part.out ∈ L) (h1 : Part.drawn ∈ L) (h2 : Part.nv ∈ L) (h3 : Part.owner ∈ L) (h4 : Part.rings ∈ L) (h5 : Part.hosts ∈ L) (h6 : Part.fns ∈ L) (h7 : Part.ctx ∈ L) (h8 : Part.nvme ∈ L) (h9 : Part.crypt ∈ L) (h10 : Part.counters ∈ L) : changesOnly L s (takeFormat a0 a1 a2) ↔ changesOnly L s a2 := by
  (fun_cases takeFormat a0 a1 a2 <;> (simp +zetaDelta only [iff_self, adminDone_only, modNs_only, settleCache_only, addCmd_only, endSelfTest_only, h0, h1, h2, h3, h4, h5, h6, h7, h8, h9, h10]; done))
theorem execNvmeFormatNvm_only {L : List Part} {s : State} (a0 : HostId) (a1 : Fn) (a2 : Sqe) (a3 : State) (h0 : Part.out ∈ L) (h1 : Part.drawn ∈ L) (h2 : Part.nv ∈ L) (h3 : Part.owner ∈ L) (h4 : Part.rings ∈ L) (h5 : Part.hosts ∈ L) (h6 : Part.fns ∈ L) (h7 : Part.ctx ∈ L) (h8 : Part.nvme ∈ L) (h9 : Part.crypt ∈ L) (h10 : Part.counters ∈ L) (hx : changesOnly L s a3) : OnlyO L s (execNvmeFormatNvm a0 a1 a2 a3) := by
  (simp only [execNvmeFormatNvm, iff_self, implies_true, hx, adminRow_only, takeFormat_only, h0, h1, h2, h3, h4, h5, h6, h7, h8, h9, h10]; done)
theorem takeSelfTest_only {L : List Part} {s : State} (a0 : Sqe) (a1 : Nat) (a2 : State) (h0 : Part.out ∈ L) (h1 : Part.hosts ∈ L) (h2 : Part.fns ∈ L) (h3 : Part.nvme ∈ L) (h4 : Part.counters ∈ L) : changesOnly L s (takeSelfTest a0 a1 a2) ↔ changesOnly L s a2 := by
  (simp only [takeSelfTest, iff_self, only_ite, ite_self, adminDone_only, modCtrl_only, endSelfTest_only, h0, h1, h2, h3, h4]; done)
theorem execNvmeDeviceSelfTest_only {L : List Part} {s : State} (a0 : HostId) (a1 : Fn) (a2 : Sqe) (a3 : State) (h0 : Part.out ∈ L) (h1 : Part.hosts ∈ L) (h2 : Part.fns ∈ L) (h3 : Part.nvme ∈ L) (h4 : Part.counters ∈ L) (hx : changesOnly L s a3) : OnlyO L s (execNvmeDeviceSelfTest a0 a1 a2 a3) := by
  (simp only [execNvmeDeviceSelfTest, iff_self, implies_true, hx, takeSelfTest_only, adminRow_only, h0, h1, h2, h3, h4]; done)
theorem execSelfTestStep_only {L : List Part} {s : State} (a0 : HostId) (a1 : Fn) (a2 : Bool) (a3 : State) (h0 : Part.drawn ∈ L) (h1 : Part.nvme ∈ L) (hx : changesOnly L s a3) : OnlyO L s (execSelfTestStep a0 a1 a2 a3) := by
  (unfold execSelfTestStep; (repeat' (first | with_reducible assumption | with_reducible rfl | (simp only [only_ite, ite_self, onlyO_next, hx, drawn1_only, modCtrl_only, endSelfTest_only, h0, h1]; done) | split | (with_reducible refine (onlyO_next _ _ _).mpr ?_) | (with_reducible refine (only_foldl _ (fun y b => ?_) _ _).mpr ?_) | (with_reducible refine (only_foldl _ (fun y b => ?_) _ _).trans ?_) | (simp only []))); done)
theorem setAbsent_only {L : List Part} {s : State} (a0 : Extent → Bool) (a1 : Bool) (a2 : State) (h0 : Part.nvme ∈ L) : changesOnly L s (setAbsent a0 a1 a2) ↔ changesOnly L s a2 := by
  (simp only [setAbsent, iff_self, modNvme_only, h0]; done)
theorem loseBacking_only {L : List Part} {s : State} (a0 : Extent → Bool) (a1 : List (Nat × Nat × Nat)) (a2 : List (Nat × Nat × Nat)) (a3 : State) (h0 : Part.out ∈ L) (h1 : Part.drawn ∈ L) (h2 : Part.nv ∈ L) (h3 : Part.owner ∈ L) (h4 : Part.rings ∈ L) (h5 : Part.hosts ∈ L) (h6 : Part.fns ∈ L) (h7 : Part.ctx ∈ L) (h8 : Part.nvme ∈ L) (h9 : Part.crypt ∈ L) (h10 : Part.counters ∈ L) : changesOnly L s (loseBacking a0 a1 a2 a3) ↔ changesOnly L s a3 := by
  unfold loseBacking
  simp only [settleCache_only, h0, h1, h2, h3, h4, h5, h6, h7, h8, h9, h10]
  refine (only_foldl _ (fun y b => ?_) _ _).trans ?_
  · simp only [only_ite, ite_self, segOver_only, modSeg_only, h8]
  refine (only_foldl _ (fun y b => ?_) _ _).trans ?_
  · split
    · simp only [modNvme_only, h8]
    · split <;> simp only [endCmd_only, h0, h5, h6, h8, h10]
  refine (only_foldl _ (fun y b => ?_) _ _).trans ?_
  · simp only [failRead_only, h0, h1, h2, h3, h4, h5, h6, h7, h8, h9, h10]
  · simp only [setAbsent_only, h8]
theorem spacesChanged_only {L : List Part} {s : State} (a0 : List Nat) (a1 : Nat) (a2 : State) (h0 : Part.out ∈ L) (h1 : Part.owner ∈ L) (h2 : Part.rings ∈ L) (h3 : Part.hosts ∈ L) (h4 : Part.fns ∈ L) (h5 : Part.nvme ∈ L) (h6 : Part.counters ∈ L) : changesOnly L s (spacesChanged a0 a1 a2) ↔ changesOnly L s a2 := by
  (simp only [spacesChanged, only_foldl, iff_self, implies_true, nsChangedHere_only, h0, h1, h2, h3, h4, h5, h6]; done)
theorem failDriveOps_only {L : List Part} {s : State} (a0 : Status) (a1 : List DriveCmd) (a2 : State) (h0 : Part.out ∈ L) (h1 : Part.owner ∈ L) (h2 : Part.rings ∈ L) (h3 : Part.ops ∈ L) (h4 : Part.hosts ∈ L) (h5 : Part.fns ∈ L) : changesOnly L s (failDriveOps a0 a1 a2) ↔ changesOnly L s a2 := by
  (unfold failDriveOps; (repeat' (first | (with_reducible rfl) | (simp only [iff_self, only_ite, opDone_only, h0, h1, h2, h3, h4, h5]; done) | split | (with_reducible refine (only_foldl _ (fun y b => ?_) _ _).trans ?_) | (simp only []))); done)
theorem driveGone_only {L : List Part} {s : State} (a0 : Nat) (a1 : Nat) (a2 : Nat) (a3 : State) (h0 : Part.out ∈ L) (h1 : Part.drawn ∈ L) (h2 : Part.nv ∈ L) (h3 : Part.owner ∈ L) (h4 : Part.rings ∈ L) (h5 : Part.ops ∈ L) (h6 : Part.hosts ∈ L) (h7 : Part.fns ∈ L) (h8 : Part.ctx ∈ L) (h9 : Part.nvme ∈ L) (h10 : Part.crypt ∈ L) (h11 : Part.counters ∈ L) : changesOnly L s (driveGone a0 a1 a2 a3) ↔ changesOnly L s a3 := by
  (simp only [driveGone, iff_self, modDrive_only, loseBacking_only, raiseDriveState_only, spacesChanged_only, failDriveOps_only, h0, h1, h2, h3, h4, h5, h6, h7, h8, h9, h10, h11]; done)
theorem backingReturns_only {L : List Part} {s : State} (a0 : Extent → Bool) (a1 : State) (h0 : Part.out ∈ L) (h1 : Part.owner ∈ L) (h2 : Part.rings ∈ L) (h3 : Part.hosts ∈ L) (h4 : Part.fns ∈ L) (h5 : Part.nvme ∈ L) (h6 : Part.counters ∈ L) : changesOnly L s (backingReturns a0 a1) ↔ changesOnly L s a1 := by
  (simp only [backingReturns, iff_self, setAbsent_only, spacesChanged_only, modNvme_only, h0, h1, h2, h3, h4, h5, h6]; done)
theorem driveState_only {L : List Part} {s : State} (a0 : Nat) (a1 : Nat) (a2 : State) (h0 : Part.nvme ∈ L) : changesOnly L s (driveState a0 a1 a2) ↔ changesOnly L s a2 := by
  (simp only [driveState, iff_self, modDrive_only, h0]; done)
theorem driveLinkDown_only {L : List Part} {s : State} (a0 : Nat) (a1 : State) (h0 : Part.nvme ∈ L) : changesOnly L s (driveLinkDown a0 a1) ↔ changesOnly L s a1 := by
  (simp only [driveLinkDown, iff_self, modDrive_only, h0]; done)
theorem driveFailed_only {L : List Part} {s : State} (a0 : Nat) (a1 : Nat) (a2 : State) (h0 : Part.out ∈ L) (h1 : Part.drawn ∈ L) (h2 : Part.nv ∈ L) (h3 : Part.owner ∈ L) (h4 : Part.rings ∈ L) (h5 : Part.ops ∈ L) (h6 : Part.hosts ∈ L) (h7 : Part.fns ∈ L) (h8 : Part.ctx ∈ L) (h9 : Part.nvme ∈ L) (h10 : Part.crypt ∈ L) (h11 : Part.counters ∈ L) : changesOnly L s (driveFailed a0 a1 a2) ↔ changesOnly L s a2 := by
  (simp only [driveFailed, iff_self, only_ite, ite_self, modDrive_only, raiseDriveState_only, driveGone_only, h0, h1, h2, h3, h4, h5, h6, h7, h8, h9, h10, h11]; done)
theorem execDrivePresent_only {L : List Part} {s : State} (a0 : DrivePort) (a1 : State) (h0 : Part.owner ∈ L) (h1 : Part.nvme ∈ L) (hx : changesOnly L s a1) : OnlyO L s (execDrivePresent a0 a1) := by
  (simp only [execDrivePresent, only_ite, ite_self, onlyO_next, hx, modDrive_only, raiseDriveState_only, h0, h1]; done)
theorem surpriseRemoval_only {L : List Part} {s : State} (a0 : Nat) (a1 : Bool) (a2 : State) (h0 : Part.out ∈ L) (h1 : Part.drawn ∈ L) (h2 : Part.nv ∈ L) (h3 : Part.owner ∈ L) (h4 : Part.rings ∈ L) (h5 : Part.ops ∈ L) (h6 : Part.hosts ∈ L) (h7 : Part.fns ∈ L) (h8 : Part.ctx ∈ L) (h9 : Part.nvme ∈ L) (h10 : Part.crypt ∈ L) (h11 : Part.counters ∈ L) : changesOnly L s (surpriseRemoval a0 a1 a2) ↔ changesOnly L s a2 := by
  (simp only [surpriseRemoval, iff_self, only_ite, ite_self, modDrive_only, driveLinkDown_only, raiseDriveState_only, driveGone_only, countN_only, driveState_only, h0, h1, h2, h3, h4, h5, h6, h7, h8, h9, h10, h11]; done)
theorem execDriveSurpriseRemoval_only {L : List Part} {s : State} (a0 : DrivePort) (a1 : Bool) (a2 : State) (h0 : Part.out ∈ L) (h1 : Part.drawn ∈ L) (h2 : Part.nv ∈ L) (h3 : Part.owner ∈ L) (h4 : Part.rings ∈ L) (h5 : Part.ops ∈ L) (h6 : Part.hosts ∈ L) (h7 : Part.fns ∈ L) (h8 : Part.ctx ∈ L) (h9 : Part.nvme ∈ L) (h10 : Part.crypt ∈ L) (h11 : Part.counters ∈ L) (hx : changesOnly L s a2) : OnlyO L s (execDriveSurpriseRemoval a0 a1 a2) := by
  (simp only [execDriveSurpriseRemoval, onlyO_next, hx, surpriseRemoval_only, h0, h1, h2, h3, h4, h5, h6, h7, h8, h9, h10, h11]; done)
theorem execDriveLinkUp_only {L : List Part} {s : State} (a0 : DrivePort) (a1 : LinkTraining) (a2 : State) (h0 : Part.nvme ∈ L) (hx : changesOnly L s a2) : OnlyO L s (execDriveLinkUp a0 a1 a2) := by
  (simp only [execDriveLinkUp, only_ite, ite_self, onlyO_next, hx, modDrive_only, h0]; done)
theorem resumeSanitize_only {L : List Part} {s : State} (a0 : Nat) (a1 : State) (h0 : Part.out ∈ L) (h1 : Part.nvme ∈ L) (h2 : Part.counters ∈ L) : changesOnly L s (resumeSanitize a0 a1) ↔ changesOnly L s a1 := by
  (simp only [resumeSanitize, only_foldl, iff_self, implies_true, only_ite, ite_self, driveSend_only, h0, h1, h2]; done)
theorem execDriveInitialised_only {L : List Part} {s : State} (a0 : DrivePort) (a1 : DriveIdentity) (a2 : State) (h0 : Part.out ∈ L) (h1 : Part.drawn ∈ L) (h2 : Part.nv ∈ L) (h3 : Part.owner ∈ L) (h4 : Part.rings ∈ L) (h5 : Part.ops ∈ L) (h6 : Part.hosts ∈ L) (h7 : Part.fns ∈ L) (h8 : Part.ctx ∈ L) (h9 : Part.nvme ∈ L) (h10 : Part.crypt ∈ L) (h11 : Part.counters ∈ L) (hx : changesOnly L s a2) : OnlyO L s (execDriveInitialised a0 a1 a2) := by
  unfold execDriveInitialised
  have hf : ∀ l z, changesOnly L s (List.foldl (fun (s : State) (k : Nat) => refreshAtomic k s) z l) ↔ changesOnly L s z := fun l z => only_foldl _ (fun y b => by simp only [refreshAtomic_only, h0, h3, h4, h6, h7, h9, h11]) l z
  refine (onlyO_next _ _ _).mpr ?_
  simp only [only_ite, ite_self, resumeSanitize_only, hf, raiseDriveState_only, backingReturns_only, driveState_only, driveFailed_only, modDrive_only, hx, h0, h1, h2, h3, h4, h5, h6, h7, h8, h9, h10, h11]
theorem execDriveInitTimeout_only {L : List Part} {s : State} (a0 : DrivePort) (a1 : State) (h0 : Part.out ∈ L) (h1 : Part.drawn ∈ L) (h2 : Part.nv ∈ L) (h3 : Part.owner ∈ L) (h4 : Part.rings ∈ L) (h5 : Part.ops ∈ L) (h6 : Part.hosts ∈ L) (h7 : Part.fns ∈ L) (h8 : Part.ctx ∈ L) (h9 : Part.nvme ∈ L) (h10 : Part.crypt ∈ L) (h11 : Part.counters ∈ L) (hx : changesOnly L s a1) : OnlyO L s (execDriveInitTimeout a0 a1) := by
  (simp only [execDriveInitTimeout, only_ite, ite_self, onlyO_next, hx, driveFailed_only, h0, h1, h2, h3, h4, h5, h6, h7, h8, h9, h10, h11]; done)
theorem resetDrive_only {L : List Part} {s : State} (a0 : Nat) (a1 : State) (h0 : Part.out ∈ L) (h1 : Part.drawn ∈ L) (h2 : Part.nv ∈ L) (h3 : Part.owner ∈ L) (h4 : Part.rings ∈ L) (h5 : Part.ops ∈ L) (h6 : Part.hosts ∈ L) (h7 : Part.fns ∈ L) (h8 : Part.ctx ∈ L) (h9 : Part.nvme ∈ L) (h10 : Part.crypt ∈ L) (h11 : Part.counters ∈ L) : changesOnly L s (resetDrive a0 a1) ↔ changesOnly L s a1 := by
  (simp only [resetDrive, only_foldl, iff_self, implies_true, only_ite, ite_self, modDrive_only, raiseDriveState_only, flushEnded_only, emit_only, countN_only, failRead_only, failDriveOps_only, driveFailed_only, h0, h1, h2, h3, h4, h5, h6, h7, h8, h9, h10, h11]; done)
theorem execDriveCommandTimeout_only {L : List Part} {s : State} (a0 : DrivePort) (a1 : BitVec 16) (a2 : Bool) (a3 : State) (h0 : Part.out ∈ L) (h1 : Part.drawn ∈ L) (h2 : Part.nv ∈ L) (h3 : Part.owner ∈ L) (h4 : Part.rings ∈ L) (h5 : Part.ops ∈ L) (h6 : Part.hosts ∈ L) (h7 : Part.fns ∈ L) (h8 : Part.ctx ∈ L) (h9 : Part.nvme ∈ L) (h10 : Part.crypt ∈ L) (h11 : Part.counters ∈ L) (hx : changesOnly L s a3) : OnlyO L s (execDriveCommandTimeout a0 a1 a2 a3) := by
  (unfold execDriveCommandTimeout; (repeat' (first | with_reducible assumption | with_reducible rfl | (simp only [only_ite, ite_self, onlyO_next, hx, modDrive_only, resetDrive_only, emit_only, countN_only, h0, h1, h2, h3, h4, h5, h6, h7, h8, h9, h10, h11]; done) | split | (with_reducible refine (onlyO_next _ _ _).mpr ?_) | (with_reducible refine (only_foldl _ (fun y b => ?_) _ _).mpr ?_) | (with_reducible refine (only_foldl _ (fun y b => ?_) _ _).trans ?_) | (simp only []))); done)
theorem execDriveCfs_only {L : List Part} {s : State} (a0 : DrivePort) (a1 : State) (h0 : Part.out ∈ L) (h1 : Part.drawn ∈ L) (h2 : Part.nv ∈ L) (h3 : Part.owner ∈ L) (h4 : Part.rings ∈ L) (h5 : Part.ops ∈ L) (h6 : Part.hosts ∈ L) (h7 : Part.fns ∈ L) (h8 : Part.ctx ∈ L) (h9 : Part.nvme ∈ L) (h10 : Part.crypt ∈ L) (h11 : Part.counters ∈ L) (hx : changesOnly L s a1) : OnlyO L s (execDriveCfs a0 a1) := by
  (simp only [execDriveCfs, only_ite, ite_self, onlyO_next, hx, resetDrive_only, h0, h1, h2, h3, h4, h5, h6, h7, h8, h9, h10, h11]; done)
theorem dropSanitize_only {L : List Part} {s : State} (a0 : Bool) (a1 : Nat) (a2 : State) (h0 : Part.nv ∈ L) : changesOnly L s (dropSanitize a0 a1 a2) ↔ changesOnly L s a2 := by
  (simp only [dropSanitize, iff_self, h0, only_nv, sameFuses_iff, eq_self, and_self]; done)
theorem driveDone_only {L : List Part} {s : State} (a0 : Nat) (a1 : DriveCmd) (a2 : BackingResult) (a3 : State) (h0 : Part.out ∈ L) (h1 : Part.drawn ∈ L) (h2 : Part.nv ∈ L) (h3 : Part.owner ∈ L) (h4 : Part.rings ∈ L) (h5 : Part.ops ∈ L) (h6 : Part.hosts ∈ L) (h7 : Part.fns ∈ L) (h8 : Part.ctx ∈ L) (h9 : Part.nvme ∈ L) (h10 : Part.crypt ∈ L) (h11 : Part.counters ∈ L) : changesOnly L s (driveDone a0 a1 a2 a3) ↔ changesOnly L s a3 := by
  have hd : ∀ x, changesOnly L s (if a1.kind = 5 then dropSanitize true a0 x else x) ↔ changesOnly L s x := fun x => by simp only [only_ite, ite_self, dropSanitize_only, h2]
  have hi : ∀ x, changesOnly L s ((if a1.kind = 5 then dropSanitize true a0 else id) x) ↔ changesOnly L s x := fun x => by split <;> simp only [id, dropSanitize_only, h2]
  unfold driveDone
  (repeat' (first | (with_reducible rfl) | (simp only [only_ite, ite_self, hi, id, opDone_only, dropSanitize_only, destageEnded_only, flushEnded_only, writeSpan_only, countN_only, failRead_only, dropDriveCmd_only, h0, h1, h2, h3, h4, h5, h6, h7, h8, h9, h10, h11]; done) | split | (simp only [])))
theorem execDriveCompletion_only {L : List Part} {s : State} (a0 : DrivePort) (a1 : BitVec 16) (a2 : BackingResult) (a3 : State) (h0 : Part.out ∈ L) (h1 : Part.drawn ∈ L) (h2 : Part.nv ∈ L) (h3 : Part.owner ∈ L) (h4 : Part.rings ∈ L) (h5 : Part.ops ∈ L) (h6 : Part.hosts ∈ L) (h7 : Part.fns ∈ L) (h8 : Part.ctx ∈ L) (h9 : Part.nvme ∈ L) (h10 : Part.crypt ∈ L) (h11 : Part.counters ∈ L) (hx : changesOnly L s a3) : OnlyO L s (execDriveCompletion a0 a1 a2 a3) := by
  (unfold execDriveCompletion; (repeat' (first | with_reducible assumption | with_reducible rfl | (simp only [only_ite, ite_self, onlyO_next, hx, driveDone_only, h0, h1, h2, h3, h4, h5, h6, h7, h8, h9, h10, h11]; done) | split | (with_reducible refine (onlyO_next _ _ _).mpr ?_) | (with_reducible refine (only_foldl _ (fun y b => ?_) _ _).mpr ?_) | (with_reducible refine (only_foldl _ (fun y b => ?_) _ _).trans ?_) | (simp only []))); done)
theorem execDriveAttnButton_only {L : List Part} {s : State} (a0 : DrivePort) (a1 : State) (h0 : Part.owner ∈ L) (h1 : Part.nvme ∈ L) (hx : changesOnly L s a1) : OnlyO L s (execDriveAttnButton a0 a1) := by
  (simp only [execDriveAttnButton, onlyO_next, hx, modDrive_only, raiseDriveState_only, h0, h1]; done)
theorem execDriveDmaViolation_only {L : List Part} {s : State} (a0 : DrivePort) (a1 : DWord) (a2 : List Word) (a3 : State) (h0 : Part.out ∈ L) (h1 : Part.owner ∈ L) (h2 : Part.rings ∈ L) (h3 : Part.hosts ∈ L) (h4 : Part.fns ∈ L) (h5 : Part.violations ∈ L) (h6 : Part.counters ∈ L) (hx : changesOnly L s a3) : OnlyO L s (execDriveDmaViolation a0 a1 a2 a3) := by
  (simp only [execDriveDmaViolation, onlyO_next, hx, logViolation_only, h0, h1, h2, h3, h4, h5, h6]; done)
theorem execDriveLaneFaultInService_only {L : List Part} {s : State} (a0 : DrivePort) (a1 : Fin 4) (a2 : State) (h0 : Part.out ∈ L) (h1 : Part.drawn ∈ L) (h2 : Part.nv ∈ L) (h3 : Part.glb ∈ L) (h4 : Part.owner ∈ L) (h5 : Part.rings ∈ L) (h6 : Part.ops ∈ L) (h7 : Part.hosts ∈ L) (h8 : Part.fns ∈ L) (h9 : Part.ctx ∈ L) (h10 : Part.nvme ∈ L) (h11 : Part.crypt ∈ L) (h12 : Part.degr ∈ L) (h13 : Part.counters ∈ L) (hx : changesOnly L s a2) : OnlyO L s (execDriveLaneFaultInService a0 a1 a2) := by
  (simp only [execDriveLaneFaultInService, only_ite, ite_self, onlyO_next, hx, modDrive_only, surpriseRemoval_only, unitLost_only, h0, h1, h2, h3, h4, h5, h6, h7, h8, h9, h10, h11, h12, h13]; done)
theorem detachNs_only {L : List Part} {s : State} (a0 : Nat) (a1 : Nat) (a2 : Nat) (a3 : State) (h0 : Part.out ∈ L) (h1 : Part.owner ∈ L) (h2 : Part.rings ∈ L) (h3 : Part.hosts ∈ L) (h4 : Part.fns ∈ L) (h5 : Part.nvme ∈ L) (h6 : Part.counters ∈ L) : changesOnly L s (detachNs a0 a1 a2 a3) ↔ changesOnly L s a3 := by
  (simp only [detachNs, only_foldl, iff_self, implies_true, only_ite, ite_self, endCmd_only, modNs_only, dropReads_only, dropEmptySegs_only, endSelfTest_only, nsChanged_only, h0, h1, h2, h3, h4, h5, h6]; done)
theorem deleteNs_only {L : List Part} {s : State} (a0 : Nat) (a1 : State) (h0 : Part.out ∈ L) (h1 : Part.drawn ∈ L) (h2 : Part.nv ∈ L) (h3 : Part.owner ∈ L) (h4 : Part.rings ∈ L) (h5 : Part.hosts ∈ L) (h6 : Part.fns ∈ L) (h7 : Part.ctx ∈ L) (h8 : Part.nvme ∈ L) (h9 : Part.crypt ∈ L) (h10 : Part.counters ∈ L) : changesOnly L s (deleteNs a0 a1) ↔ changesOnly L s a1 := by
  (fun_cases deleteNs a0 a1 <;> (simp +zetaDelta only [iff_self, discardSegs_only, settleCache_only, modNvme_only, raiseNsChanged_only, h0, h1, h2, h3, h4, h5, h6, h7, h8, h9, h10]; done))
theorem discardHeld_only {L : List Part} {s : State} (a0 : List Nat) (a1 : State) (h0 : Part.out ∈ L) (h1 : Part.drawn ∈ L) (h2 : Part.nv ∈ L) (h3 : Part.owner ∈ L) (h4 : Part.rings ∈ L) (h5 : Part.hosts ∈ L) (h6 : Part.fns ∈ L) (h7 : Part.ctx ∈ L) (h8 : Part.nvme ∈ L) (h9 : Part.crypt ∈ L) (h10 : Part.counters ∈ L) : changesOnly L s (discardHeld a0 a1) ↔ changesOnly L s a1 := by
  (simp only [discardHeld, only_foldl, iff_self, implies_true, only_ite, ite_self, freeSeg_only, settleCache_only, countN_only, segOver_only, h0, h1, h2, h3, h4, h5, h6, h7, h8, h9, h10]; done)
theorem sanitizeNs_only {L : List Part} {s : State} (a0 : Nat) (a1 : State) (h0 : Part.out ∈ L) (h1 : Part.drawn ∈ L) (h2 : Part.nv ∈ L) (h3 : Part.owner ∈ L) (h4 : Part.rings ∈ L) (h5 : Part.hosts ∈ L) (h6 : Part.fns ∈ L) (h7 : Part.nvme ∈ L) (h8 : Part.crypt ∈ L) (h9 : Part.counters ∈ L) : changesOnly L s (sanitizeNs a0 a1) ↔ changesOnly L s a1 := by
  (simp only [sanitizeNs, iff_self, nsChangedHere_only, modNs_only, eraseNs_only, h0, h1, h2, h3, h4, h5, h6, h7, h8, h9]; done)
theorem targetGone_only {L : List Part} {s : State} (a0 : Nat) (a1 : State) (h0 : Part.out ∈ L) (h1 : Part.drawn ∈ L) (h2 : Part.nv ∈ L) (h3 : Part.owner ∈ L) (h4 : Part.rings ∈ L) (h5 : Part.hosts ∈ L) (h6 : Part.fns ∈ L) (h7 : Part.ctx ∈ L) (h8 : Part.nvme ∈ L) (h9 : Part.crypt ∈ L) (h10 : Part.counters ∈ L) : changesOnly L s (targetGone a0 a1) ↔ changesOnly L s a1 := by
  (fun_cases targetGone a0 a1 <;> (simp +zetaDelta only [iff_self, loseBacking_only, spacesChanged_only, modTarget_only, h0, h1, h2, h3, h4, h5, h6, h7, h8, h9, h10]; done))
theorem syncTargets_only {L : List Part} {s : State} (a0 : State) (h0 : Part.out ∈ L) (h1 : Part.drawn ∈ L) (h2 : Part.nv ∈ L) (h3 : Part.owner ∈ L) (h4 : Part.rings ∈ L) (h5 : Part.hosts ∈ L) (h6 : Part.fns ∈ L) (h7 : Part.ctx ∈ L) (h8 : Part.nvme ∈ L) (h9 : Part.crypt ∈ L) (h10 : Part.counters ∈ L) : changesOnly L s (syncTargets a0) ↔ changesOnly L s a0 := by
  (simp only [syncTargets, only_foldl, iff_self, implies_true, only_ite, ite_self, targetGone_only, h0, h1, h2, h3, h4, h5, h6, h7, h8, h9, h10]; done)
theorem farm_only {L : List Part} {s : State} (a0 : State) (h0 : Part.out ∈ L) (h1 : Part.drawn ∈ L) (h2 : Part.nv ∈ L) (h3 : Part.owner ∈ L) (h4 : Part.rings ∈ L) (h5 : Part.hosts ∈ L) (h6 : Part.fns ∈ L) (h7 : Part.ctx ∈ L) (h8 : Part.nvme ∈ L) (h9 : Part.crypt ∈ L) (h10 : Part.counters ∈ L) : changesOnly L s (farm a0) ↔ changesOnly L s a0 := by
  (simp only [farm, iff_self, takeBlocks_only, syncTargets_only, h0, h1, h2, h3, h4, h5, h6, h7, h8, h9, h10]; done)
theorem nsCreateDef_only {L : List Part} {s : State}  (h0 : Part.nvme ∈ L) : DefOnly L s nsCreateDef := by
  intro o p y; simp only [nsCreateDef]; (repeat' (first | with_reducible rfl | (simp only [modNvme_only, h0]; done) | with_reducible refine onlyA_reply _ _ _ _ _ ?_ | with_reducible refine onlyA_replyLong _ _ _ _ _ ?_ | with_reducible refine onlyA_startOp _ _ _ _ _ _ _ _ _ (by assumption) (by assumption) ?_ | with_reducible refine onlyA_mk _ _ _ _ _ _ _ _ ?_ | split | (with_reducible refine (only_foldl _ (fun y b => ?_) _ _).trans ?_) | (refine ⟨?_, fun z => ?_⟩) | (simp only [])))
theorem execNsCreate_only {L : List Part} {s : State} (a0 : Packet) (a1 : State) (h0 : Part.fenced ∈ L) (h1 : Part.out ∈ L) (h2 : Part.owner ∈ L) (h3 : Part.rings ∈ L) (h4 : Part.hosts ∈ L) (h5 : Part.fns ∈ L) (h6 : Part.nvme ∈ L) (hx : changesOnly L s a1) : OnlyO L s (execNsCreate a0 a1) := by
  (simp only [execNsCreate, onlyO_next, hx, runCmd_only, nsCreateDef_only, h0, h1, h2, h3, h4, h5, h6]; done)
theorem nsBackingSetDef_only {L : List Part} {s : State}  (h0 : Part.out ∈ L) (h1 : Part.owner ∈ L) (h2 : Part.rings ∈ L) (h3 : Part.hosts ∈ L) (h4 : Part.fns ∈ L) (h5 : Part.nvme ∈ L) (h6 : Part.counters ∈ L) : DefOnly L s nsBackingSetDef := by
  intro o p y; simp only [nsBackingSetDef]; (repeat' (first | with_reducible rfl | (simp only [modNs_only, refreshAtomic_only, modNvme_only, h0, h1, h2, h3, h4, h5, h6]; done) | with_reducible refine onlyA_reply _ _ _ _ _ ?_ | with_reducible refine onlyA_replyLong _ _ _ _ _ ?_ | with_reducible refine onlyA_startOp _ _ _ _ _ _ _ _ _ (by assumption) (by assumption) ?_ | with_reducible refine onlyA_mk _ _ _ _ _ _ _ _ ?_ | split | (with_reducible refine (only_foldl _ (fun y b => ?_) _ _).trans ?_) | (refine ⟨?_, fun z => ?_⟩) | (simp only [])))
theorem execNsBackingSet_only {L : List Part} {s : State} (a0 : Packet) (a1 : State) (h0 : Part.fenced ∈ L) (h1 : Part.out ∈ L) (h2 : Part.owner ∈ L) (h3 : Part.rings ∈ L) (h4 : Part.hosts ∈ L) (h5 : Part.fns ∈ L) (h6 : Part.nvme ∈ L) (h7 : Part.counters ∈ L) (hx : changesOnly L s a1) : OnlyO L s (execNsBackingSet a0 a1) := by
  (simp only [execNsBackingSet, onlyO_next, hx, runCmd_only, nsBackingSetDef_only, h0, h1, h2, h3, h4, h5, h6, h7]; done)
theorem nsAttachDef_only {L : List Part} {s : State}  (h0 : Part.out ∈ L) (h1 : Part.owner ∈ L) (h2 : Part.rings ∈ L) (h3 : Part.hosts ∈ L) (h4 : Part.fns ∈ L) (h5 : Part.nvme ∈ L) (h6 : Part.counters ∈ L) : DefOnly L s nsAttachDef := by
  intro o p y; simp only [nsAttachDef]; (repeat' (first | with_reducible rfl | (simp only [nsChangedHere_only, modNs_only, h0, h1, h2, h3, h4, h5, h6]; done) | with_reducible refine onlyA_reply _ _ _ _ _ ?_ | with_reducible refine onlyA_replyLong _ _ _ _ _ ?_ | with_reducible refine onlyA_startOp _ _ _ _ _ _ _ _ _ (by assumption) (by assumption) ?_ | with_reducible refine onlyA_mk _ _ _ _ _ _ _ _ ?_ | split | (with_reducible refine (only_foldl _ (fun y b => ?_) _ _).trans ?_) | (refine ⟨?_, fun z => ?_⟩) | (simp only [])))
theorem execNsAttach_only {L : List Part} {s : State} (a0 : Packet) (a1 : State) (h0 : Part.fenced ∈ L) (h1 : Part.out ∈ L) (h2 : Part.owner ∈ L) (h3 : Part.rings ∈ L) (h4 : Part.hosts ∈ L) (h5 : Part.fns ∈ L) (h6 : Part.nvme ∈ L) (h7 : Part.counters ∈ L) (hx : changesOnly L s a1) : OnlyO L s (execNsAttach a0 a1) := by
  (simp only [execNsAttach, onlyO_next, hx, runCmd_only, nsAttachDef_only, h0, h1, h2, h3, h4, h5, h6, h7]; done)
theorem nsDetachDef_only {L : List Part} {s : State}  (h0 : Part.out ∈ L) (h1 : Part.drawn ∈ L) (h2 : Part.nv ∈ L) (h3 : Part.owner ∈ L) (h4 : Part.rings ∈ L) (h5 : Part.hosts ∈ L) (h6 : Part.fns ∈ L) (h7 : Part.ctx ∈ L) (h8 : Part.nvme ∈ L) (h9 : Part.crypt ∈ L) (h10 : Part.counters ∈ L) : DefOnly L s nsDetachDef := by
  intro o p y; simp only [nsDetachDef]; (repeat' (first | with_reducible rfl | (simp only [detachNs_only, settleCache_only, h0, h1, h2, h3, h4, h5, h6, h7, h8, h9, h10]; done) | with_reducible refine onlyA_reply _ _ _ _ _ ?_ | with_reducible refine onlyA_replyLong _ _ _ _ _ ?_ | with_reducible refine onlyA_startOp _ _ _ _ _ _ _ _ _ (by assumption) (by assumption) ?_ | with_reducible refine onlyA_mk _ _ _ _ _ _ _ _ ?_ | split | (with_reducible refine (only_foldl _ (fun y b => ?_) _ _).trans ?_) | (refine ⟨?_, fun z => ?_⟩) | (simp only [])))
theorem execNsDetach_only {L : List Part} {s : State} (a0 : Packet) (a1 : State) (h0 : Part.fenced ∈ L) (h1 : Part.out ∈ L) (h2 : Part.drawn ∈ L) (h3 : Part.nv ∈ L) (h4 : Part.owner ∈ L) (h5 : Part.rings ∈ L) (h6 : Part.hosts ∈ L) (h7 : Part.fns ∈ L) (h8 : Part.ctx ∈ L) (h9 : Part.nvme ∈ L) (h10 : Part.crypt ∈ L) (h11 : Part.counters ∈ L) (hx : changesOnly L s a1) : OnlyO L s (execNsDetach a0 a1) := by
  (simp only [execNsDetach, onlyO_next, hx, runCmd_only, nsDetachDef_only, h0, h1, h2, h3, h4, h5, h6, h7, h8, h9, h10, h11]; done)
theorem nsDeleteDef_only {L : List Part} {s : State}  (h0 : Part.drawn ∈ L) (h1 : Part.ops ∈ L) : DefOnly L s nsDeleteDef := by
  intro o p y; simp only [nsDeleteDef]; (repeat' (first | with_reducible rfl | (simp only [only_ite, ite_self, onlyA_ite, startOp_only, h0, h1]; done) | with_reducible refine onlyA_reply _ _ _ _ _ ?_ | with_reducible refine onlyA_replyLong _ _ _ _ _ ?_ | with_reducible refine onlyA_startOp _ _ _ _ _ _ _ _ _ (by assumption) (by assumption) ?_ | with_reducible refine onlyA_mk _ _ _ _ _ _ _ _ ?_ | split | (with_reducible refine (only_foldl _ (fun y b => ?_) _ _).trans ?_) | (refine ⟨?_, fun z => ?_⟩) | (simp only [])))
theorem execNsDelete_only {L : List Part} {s : State} (a0 : Packet) (a1 : State) (h0 : Part.fenced ∈ L) (h1 : Part.out ∈ L) (h2 : Part.drawn ∈ L) (h3 : Part.owner ∈ L) (h4 : Part.rings ∈ L) (h5 : Part.ops ∈ L) (h6 : Part.hosts ∈ L) (h7 : Part.fns ∈ L) (hx : changesOnly L s a1) : OnlyO L s (execNsDelete a0 a1) := by
  (simp only [execNsDelete, onlyO_next, hx, runCmd_only, nsDeleteDef_only, h0, h1, h2, h3, h4, h5, h6, h7]; done)
theorem driveInfoDef_only {L : List Part} {s : State}   : DefOnly L s driveInfoDef := by
  intro o p y; simp only [driveInfoDef]; (repeat' (first | with_reducible rfl | (simp only [only_ite, ite_self, onlyA_ite, replyLong_only]; done) | with_reducible refine onlyA_reply _ _ _ _ _ ?_ | with_reducible refine onlyA_replyLong _ _ _ _ _ ?_ | with_reducible refine onlyA_startOp _ _ _ _ _ _ _ _ _ (by assumption) (by assumption) ?_ | with_reducible refine onlyA_mk _ _ _ _ _ _ _ _ ?_ | split | (with_reducible refine (only_foldl _ (fun y b => ?_) _ _).trans ?_) | (refine ⟨?_, fun z => ?_⟩) | (simp only [])))
theorem execDriveInfo_only {L : List Part} {s : State} (a0 : Packet) (a1 : State) (h0 : Part.fenced ∈ L) (h1 : Part.out ∈ L) (h2 : Part.owner ∈ L) (h3 : Part.rings ∈ L) (h4 : Part.hosts ∈ L) (h5 : Part.fns ∈ L) (hx : changesOnly L s a1) : OnlyO L s (execDriveInfo a0 a1) := by
  (simp only [execDriveInfo, onlyO_next, hx, runCmd_only, driveInfoDef_only, h0, h1, h2, h3, h4, h5]; done)
theorem driveFormatDef_only {L : List Part} {s : State}  (h0 : Part.drawn ∈ L) (h1 : Part.ops ∈ L) : DefOnly L s driveFormatDef := by
  intro o p y; simp only [driveFormatDef]; (repeat' (first | with_reducible rfl | (simp only [only_ite, ite_self, onlyA_ite, startOp_only, h0, h1]; done) | with_reducible refine onlyA_reply _ _ _ _ _ ?_ | with_reducible refine onlyA_replyLong _ _ _ _ _ ?_ | with_reducible refine onlyA_startOp _ _ _ _ _ _ _ _ _ (by assumption) (by assumption) ?_ | with_reducible refine onlyA_mk _ _ _ _ _ _ _ _ ?_ | split | (with_reducible refine (only_foldl _ (fun y b => ?_) _ _).trans ?_) | (refine ⟨?_, fun z => ?_⟩) | (simp only [])))
theorem execDriveFormat_only {L : List Part} {s : State} (a0 : Packet) (a1 : State) (h0 : Part.fenced ∈ L) (h1 : Part.out ∈ L) (h2 : Part.drawn ∈ L) (h3 : Part.owner ∈ L) (h4 : Part.rings ∈ L) (h5 : Part.ops ∈ L) (h6 : Part.hosts ∈ L) (h7 : Part.fns ∈ L) (hx : changesOnly L s a1) : OnlyO L s (execDriveFormat a0 a1) := by
  (simp only [execDriveFormat, onlyO_next, hx, runCmd_only, driveFormatDef_only, h0, h1, h2, h3, h4, h5, h6, h7]; done)
theorem cacheFlushDef_only {L : List Part} {s : State}  (h0 : Part.out ∈ L) (h1 : Part.drawn ∈ L) (h2 : Part.nv ∈ L) (h3 : Part.owner ∈ L) (h4 : Part.rings ∈ L) (h5 : Part.ops ∈ L) (h6 : Part.hosts ∈ L) (h7 : Part.fns ∈ L) (h8 : Part.ctx ∈ L) (h9 : Part.nvme ∈ L) (h10 : Part.crypt ∈ L) (h11 : Part.counters ∈ L) : DefOnly L s cacheFlushDef := by
  intro o p y
  simp only [cacheFlushDef]
  split
  · exact onlyA_startOp _ _ _ _ _ _ _ _ _ (by assumption) (by assumption) Iff.rfl
  · refine ⟨?_, fun _ => Iff.rfl⟩
    simp only [settleCache_only, modNvme_only, startOp_only, h0, h1, h2, h3, h4, h5, h6, h7, h8, h9, h10, h11]
theorem execCacheFlush_only {L : List Part} {s : State} (a0 : Packet) (a1 : State) (h0 : Part.fenced ∈ L) (h1 : Part.out ∈ L) (h2 : Part.drawn ∈ L) (h3 : Part.nv ∈ L) (h4 : Part.owner ∈ L) (h5 : Part.rings ∈ L) (h6 : Part.ops ∈ L) (h7 : Part.hosts ∈ L) (h8 : Part.fns ∈ L) (h9 : Part.ctx ∈ L) (h10 : Part.nvme ∈ L) (h11 : Part.crypt ∈ L) (h12 : Part.counters ∈ L) (hx : changesOnly L s a1) : OnlyO L s (execCacheFlush a0 a1) := by
  (simp only [execCacheFlush, onlyO_next, hx, runCmd_only, cacheFlushDef_only, h0, h1, h2, h3, h4, h5, h6, h7, h8, h9, h10, h11, h12]; done)
theorem sanitizeDef_only {L : List Part} {s : State}  (h0 : Part.drawn ∈ L) (h1 : Part.ops ∈ L) (h2 : Part.nvme ∈ L) : DefOnly L s sanitizeDef := by
  intro o p y; simp only [sanitizeDef]; (repeat' (first | with_reducible rfl | (simp only [only_ite, ite_self, modNs_only, h2]; done) | with_reducible refine onlyA_reply _ _ _ _ _ ?_ | with_reducible refine onlyA_replyLong _ _ _ _ _ ?_ | with_reducible refine onlyA_startOp _ _ _ _ _ _ _ _ _ (by assumption) (by assumption) ?_ | with_reducible refine onlyA_mk _ _ _ _ _ _ _ _ ?_ | split | (with_reducible refine (only_foldl _ (fun y b => ?_) _ _).trans ?_) | (refine ⟨?_, fun z => ?_⟩) | (simp only [])))
theorem execSanitize_only {L : List Part} {s : State} (a0 : Packet) (a1 : State) (h0 : Part.fenced ∈ L) (h1 : Part.out ∈ L) (h2 : Part.drawn ∈ L) (h3 : Part.owner ∈ L) (h4 : Part.rings ∈ L) (h5 : Part.ops ∈ L) (h6 : Part.hosts ∈ L) (h7 : Part.fns ∈ L) (h8 : Part.nvme ∈ L) (hx : changesOnly L s a1) : OnlyO L s (execSanitize a0 a1) := by
  (simp only [execSanitize, onlyO_next, hx, runCmd_only, sanitizeDef_only, h0, h1, h2, h3, h4, h5, h6, h7, h8]; done)
theorem remoteTargetSetDef_only {L : List Part} {s : State}  (h0 : Part.out ∈ L) (h1 : Part.drawn ∈ L) (h2 : Part.nv ∈ L) (h3 : Part.owner ∈ L) (h4 : Part.rings ∈ L) (h5 : Part.hosts ∈ L) (h6 : Part.fns ∈ L) (h7 : Part.queues ∈ L) (h8 : Part.hod ∈ L) (h9 : Part.sched ∈ L) (h10 : Part.net ∈ L) (h11 : Part.ctx ∈ L) (h12 : Part.nvme ∈ L) (h13 : Part.crypt ∈ L) (h14 : Part.counters ∈ L) : DefOnly L s remoteTargetSetDef := by
  intro o p y; simp only [remoteTargetSetDef]; (repeat' (first | with_reducible rfl | (simp only [onlyA_ite, endConn_only, drawn1_only, backingReturns_only, addConn_only, modNvme_only, targetGone_only, h0, h1, h2, h3, h4, h5, h6, h7, h8, h9, h10, h11, h12, h13, h14]; done) | with_reducible refine onlyA_reply _ _ _ _ _ ?_ | with_reducible refine onlyA_replyLong _ _ _ _ _ ?_ | with_reducible refine onlyA_startOp _ _ _ _ _ _ _ _ _ (by assumption) (by assumption) ?_ | with_reducible refine onlyA_mk _ _ _ _ _ _ _ _ ?_ | split | (with_reducible refine (only_foldl _ (fun y b => ?_) _ _).trans ?_) | (refine ⟨?_, fun z => ?_⟩) | (simp only [])))
theorem execRemoteTargetSet_only {L : List Part} {s : State} (a0 : Packet) (a1 : State) (h0 : Part.fenced ∈ L) (h1 : Part.out ∈ L) (h2 : Part.drawn ∈ L) (h3 : Part.nv ∈ L) (h4 : Part.owner ∈ L) (h5 : Part.rings ∈ L) (h6 : Part.hosts ∈ L) (h7 : Part.fns ∈ L) (h8 : Part.queues ∈ L) (h9 : Part.hod ∈ L) (h10 : Part.sched ∈ L) (h11 : Part.net ∈ L) (h12 : Part.ctx ∈ L) (h13 : Part.nvme ∈ L) (h14 : Part.crypt ∈ L) (h15 : Part.counters ∈ L) (hx : changesOnly L s a1) : OnlyO L s (execRemoteTargetSet a0 a1) := by
  (simp only [execRemoteTargetSet, onlyO_next, hx, runCmd_only, remoteTargetSetDef_only, h0, h1, h2, h3, h4, h5, h6, h7, h8, h9, h10, h11, h12, h13, h14, h15]; done)

end Sys2Proof.Machine
end

