-- ==== Sys2Proof/Laws/FramePipeline.lean ====
section
/-! SUPPORT. FramePipeline.lean: what each definition of the machine may change, for delivery and the packet pipelines: one lemma `<name>_only` for each, which names the parts of the state it touches. -/

set_option linter.all false

namespace Sys2Proof.Machine
open Sys2Proof

theorem knowHead_only {L : List Part} {s : State} (a0 : HostId) (a1 : Fn) (a2 : Nat) (a3 : State) (h0 : Part.queues ∈ L) (h1 : Part.sched ∈ L) (h2 : Part.counters ∈ L) : changesOnly L s (knowHead a0 a1 a2 a3) ↔ changesOnly L s a3 := by
  (unfold knowHead; (repeat' (first | (with_reducible rfl) | (simp only [only_foldl, iff_self, implies_true, only_ite, ite_self, activate_only, modQueue_only, park_only, count_only, h0, h1, h2]; done) | split | (with_reducible refine (only_foldl _ (fun y b => ?_) _ _).trans ?_) | (simp only []))); done)
theorem execTxDescriptorReadDone_only {L : List Part} {s : State} (a0 : HostId) (a1 : Fn) (a2 : BitVec 16) (a3 : TxDescr) (a4 : State) (h0 : Part.out ∈ L) (h1 : Part.drawn ∈ L) (h2 : Part.owner ∈ L) (h3 : Part.rings ∈ L) (h4 : Part.hosts ∈ L) (h5 : Part.fns ∈ L) (h6 : Part.queues ∈ L) (h7 : Part.hod ∈ L) (h8 : Part.sched ∈ L) (h9 : Part.counters ∈ L) (hx : changesOnly L s a4) : OnlyO L s (execTxDescriptorReadDone a0 a1 a2 a3 a4) := by
  (unfold execTxDescriptorReadDone; (repeat' (first | with_reducible assumption | with_reducible rfl | (simp only [onlyO_next, hx, endRead_only, txDescrDone_only, knowHead_only, h0, h1, h2, h3, h4, h5, h6, h7, h8, h9]; done) | split | (with_reducible refine (onlyO_next _ _ _).mpr ?_) | (with_reducible refine (only_foldl _ (fun y b => ?_) _ _).mpr ?_) | (with_reducible refine (only_foldl _ (fun y b => ?_) _ _).trans ?_) | (simp only []))); done)
theorem chargePath_only {L : List Part} {s : State} (a0 : Nat) (a1 : Nat) (a2 : List PathNode) (a3 : State) (h0 : Part.sched ∈ L) (h1 : Part.counters ∈ L) : changesOnly L s (chargePath a0 a1 a2 a3) ↔ changesOnly L s a3 := by
  (simp only [chargePath, only_foldl, iff_self, implies_true, only_ite, ite_self, chargeNode_only, count_only, h0, h1]; done)
theorem settlePath_only {L : List Part} {s : State} (a0 : Nat → Bool) (a1 : List PathNode) (a2 : State) (h0 : Part.sched ∈ L) : changesOnly L s (settlePath a0 a1 a2) ↔ changesOnly L s a2 := by
  (simp only [settlePath, only_foldl, iff_self, implies_true, only_ite, ite_self, deactivate_only, h0]; done)
theorem countX7_only {L : List Part} {s : State} (a0 : Nat) (a1 : Nat) (a2 : State) (h0 : Part.counters ∈ L) : changesOnly L s (countX7 a0 a1 a2) ↔ changesOnly L s a2 := by
  (simp only [countX7, iff_self, count_only, h0]; done)
theorem countDemoted_only {L : List Part} {s : State} (a0 : Nat) (a1 : Option Nat) (a2 : State) (h0 : Part.counters ∈ L) : changesOnly L s (countDemoted a0 a1 a2) ↔ changesOnly L s a2 := by
  (fun_cases countDemoted a0 a1 a2 <;> (simp +zetaDelta only [iff_self, count_only, h0]; done))
theorem chargeSelection_only {L : List Part} {s : State} (a0 : Nat) (a1 : TxCand) (a2 : State) (h0 : Part.sched ∈ L) (h1 : Part.counters ∈ L) : changesOnly L s (chargeSelection a0 a1 a2) ↔ changesOnly L s a2 := by
  (simp only [chargeSelection, iff_self, only_ite, ite_self, countX7_only, countDemoted_only, chargeNode_only, chargePath_only, modSched_only, count_only, h0, h1]; done)
theorem takeTurn_only {L : List Part} {s : State} (a0 : Nat) (a1 : Nat) (a2 : State) (h0 : Part.sched ∈ L) : changesOnly L s (takeTurn a0 a1 a2).2 ↔ changesOnly L s a2 := by
  (simp only [takeTurn, iff_self, modSched_only, h0]; done)
theorem startHodWait_only {L : List Part} {s : State} (a0 : HostId) (a1 : Fn) (a2 : Nat) (a3 : Refused) (a4 : State) (h0 : Part.queues ∈ L) (h1 : Part.counters ∈ L) : changesOnly L s (startHodWait a0 a1 a2 a3 a4) ↔ changesOnly L s a4 := by
  (simp only [startHodWait, iff_self, countExhausted_only, modQueue_only, count_only, h0, h1]; done)
theorem txRefused_only {L : List Part} {s : State} (a0 : Nat) (a1 : TxCand) (a2 : Refused) (a3 : Sched) (a4 : State) (h0 : Part.out ∈ L) (h1 : Part.drawn ∈ L) (h2 : Part.hosts ∈ L) (h3 : Part.queues ∈ L) (h4 : Part.hod ∈ L) (h5 : Part.sched ∈ L) (h6 : Part.net ∈ L) (h7 : Part.ctx ∈ L) (h8 : Part.counters ∈ L) : changesOnly L s (txRefused a0 a1 a2 a3 a4) ↔ changesOnly L s a4 := by
  unfold txRefused
  split
  · simp only [startHodWait_only, h3, h8]
  · split; · exact Iff.rfl
    split
    · simp only [startHodWait_only, h3, h8]
    · simp only [only_net, sendItem_only, countRefused_only, chargePath_only, only_sched, h0, h1, h2, h4, h5, h6, h7, h8]
  · exact Iff.rfl
theorem txLeave_only {L : List Part} {s : State} (a0 : Nat) (a1 : TxCand) (a2 : List Nat) (a3 : State) (h0 : Part.out ∈ L) (h1 : Part.drawn ∈ L) (h2 : Part.hosts ∈ L) (h3 : Part.fns ∈ L) (h4 : Part.queues ∈ L) (h5 : Part.hod ∈ L) (h6 : Part.sched ∈ L) (h7 : Part.net ∈ L) (h8 : Part.ctx ∈ L) (h9 : Part.counters ∈ L) : changesOnly L s (txLeave a0 a1 a2 a3) ↔ changesOnly L s a3 := by
  (unfold txLeave; (repeat' (first | (with_reducible rfl) | (simp only [iff_self, sendItem_only, modQueue_only, modSched_only, takeTurn_only, knowHead_only, issueRead_only, queueFrame_only, h0, h1, h2, h3, h4, h5, h6, h7, h8, h9]; done) | split | (with_reducible refine (only_foldl _ (fun y b => ?_) _ _).trans ?_) | (simp only []))); done)
theorem txHods_only {L : List Part} {s : State} (x : State) (c : TxCand) (l : List Nat) (y : State) (h0 : Part.drawn ∈ L) (h1 : Part.hod ∈ L) (h2 : Part.counters ∈ L) (e : txHods x c = .ok (l, y)) : changesOnly L s y ↔ changesOnly L s x := by
  unfold txHods at e
  simp only [] at e
  split at e
  · exact allocHods_only _ _ _ _ _ _ _ h0 h1 h2 e
  · split at e
    · injection e with e; rw [(Prod.mk.inj e).2]
    · split at e <;> exact allocHods_only _ _ _ _ _ _ _ h0 h1 h2 e
  · injection e with e; rw [(Prod.mk.inj e).2]
theorem selectTx_only {L : List Part} {s : State} (a0 : Nat) (a1 : State) (h0 : Part.out ∈ L) (h1 : Part.drawn ∈ L) (h2 : Part.hosts ∈ L) (h3 : Part.fns ∈ L) (h4 : Part.queues ∈ L) (h5 : Part.hod ∈ L) (h6 : Part.sched ∈ L) (h7 : Part.net ∈ L) (h8 : Part.ctx ∈ L) (h9 : Part.counters ∈ L) : changesOnly L s (selectTx a0 a1) ↔ changesOnly L s a1 := by
  unfold selectTx
  simp only []
  have h2' : ∀ y, changesOnly L s (List.foldl (fun s (x : TxCand) => List.foldl (fun s n => activate n s) (if x.cand.cls = 7 then activate (portLimiter s a0) s else s) x.path) (handOver a0 (count 7 0 196611 (groupless y) y)) (txCands (handOver a0 (count 7 0 196611 (groupless y) y)) a0)) ↔ changesOnly L s y := by
    intro y
    refine (only_foldl _ (fun z b => ?_) _ _).trans ?_
    · refine (only_foldl _ (fun z b => ?_) _ _).trans ?_ <;> simp only [only_ite, ite_self, activate_only, h6]
    · simp only [handOver_only, count_only, h6, h7, h9]
  split
  · exact h2' _
  · split
    · simp only [txRefused_only, h2', h0, h1, h2, h4, h5, h6, h7, h8, h9]
    · next e =>
      refine Iff.trans ?_ ((txHods_only _ _ _ _ ‹_› ‹_› ‹_› e).trans (h2' _))
      simp only [only_ite, ite_self, deactivate_only, settlePath_only, txLeave_only, chargeSelection_only, only_sched, h0, h1, h2, h3, h4, h5, h6, h7, h8, h9]
theorem toLeaf_only {L : List Part} {s : State} (a0 : HostId) (a1 : Fn) (a2 : Nat) (a3 : Pkt) (a4 : State) (h0 : Part.sched ∈ L) : changesOnly L s (toLeaf a0 a1 a2 a3 a4) ↔ changesOnly L s a4 := by
  (fun_cases toLeaf a0 a1 a2 a3 a4 <;> (simp +zetaDelta only [only_foldl, iff_self, implies_true, activate_only, modSched_only, h0]; done))
theorem selectRx_only {L : List Part} {s : State} (a0 : HostId) (a1 : State) (h0 : Part.out ∈ L) (h1 : Part.queues ∈ L) (h2 : Part.hod ∈ L) (h3 : Part.sched ∈ L) (h4 : Part.net ∈ L) (h5 : Part.ctx ∈ L) (h6 : Part.counters ∈ L) : changesOnly L s (selectRx a0 a1) ↔ changesOnly L s a1 := by
  (fun_cases selectRx a0 a1 <;> (simp +zetaDelta only [iff_self, only_ite, ite_self, countX7_only, placeData_only, chargePath_only, modSched_only, deliverRx_only, settlePath_only, h0, h1, h2, h3, h4, h5, h6, only_sched]; done))
theorem execSchedSelect_only {L : List Part} {s : State} (a0 : SchedRoot) (a1 : State) (h0 : Part.out ∈ L) (h1 : Part.drawn ∈ L) (h2 : Part.hosts ∈ L) (h3 : Part.fns ∈ L) (h4 : Part.queues ∈ L) (h5 : Part.hod ∈ L) (h6 : Part.sched ∈ L) (h7 : Part.net ∈ L) (h8 : Part.ctx ∈ L) (h9 : Part.counters ∈ L) (hx : changesOnly L s a1) : OnlyO L s (execSchedSelect a0 a1) := by
  (unfold execSchedSelect; (repeat' (first | with_reducible assumption | with_reducible rfl | (simp only [onlyO_next, hx, selectTx_only, selectRx_only, h0, h1, h2, h3, h4, h5, h6, h7, h8, h9]; done) | split | (with_reducible refine (onlyO_next _ _ _).mpr ?_) | (with_reducible refine (only_foldl _ (fun y b => ?_) _ _).mpr ?_) | (with_reducible refine (only_foldl _ (fun y b => ?_) _ _).trans ?_) | (simp only []))); done)
theorem execTxHodWaitEnd_only {L : List Part} {s : State} (a0 : HostId) (a1 : Fn) (a2 : BitVec 16) (a3 : State) (h0 : Part.drawn ∈ L) (h1 : Part.queues ∈ L) (h2 : Part.hod ∈ L) (h3 : Part.counters ∈ L) (hx : changesOnly L s a3) : OnlyO L s (execTxHodWaitEnd a0 a1 a2 a3) := by
  (unfold execTxHodWaitEnd; (repeat' (first | with_reducible assumption | with_reducible rfl | (simp only [only_ite, onlyO_next, hx, modQueue_only, h1]; done) | split | (with_reducible refine (onlyO_next _ _ _).mpr ?_) | (with_reducible refine (only_foldl _ (fun y b => ?_) _ _).mpr ?_) | (with_reducible refine (only_foldl _ (fun y b => ?_) _ _).trans ?_) | (simp only []))); done)
theorem txDataDone_only {L : List Part} {s : State} (a0 : HostId) (a1 : Fn) (a2 : Nat) (a3 : TxRead) (a4 : CplStatus) (a5 : List Byte) (a6 : State) (h0 : Part.out ∈ L) (h1 : Part.hosts ∈ L) (h2 : Part.fns ∈ L) (h3 : Part.queues ∈ L) (h4 : Part.hod ∈ L) (h5 : Part.sched ∈ L) (h6 : Part.net ∈ L) (h7 : Part.counters ∈ L) : changesOnly L s (txDataDone a0 a1 a2 a3 a4 a5 a6) ↔ changesOnly L s a6 := by
  (simp only [txDataDone, iff_self, only_ite, ite_self, freeInflight_only, freeHods_only, modQueue_only, setOutcome_only, handOver_only, sendOn_only, storeHods_only, h0, h1, h2, h3, h4, h5, h6, h7]; done)
theorem execTxDataReadDone_only {L : List Part} {s : State} (a0 : HostId) (a1 : Fn) (a2 : BitVec 16) (a3 : List Byte) (a4 : CplStatus) (a5 : State) (h0 : Part.out ∈ L) (h1 : Part.drawn ∈ L) (h2 : Part.hosts ∈ L) (h3 : Part.fns ∈ L) (h4 : Part.queues ∈ L) (h5 : Part.hod ∈ L) (h6 : Part.sched ∈ L) (h7 : Part.net ∈ L) (h8 : Part.counters ∈ L) (hx : changesOnly L s a5) : OnlyO L s (execTxDataReadDone a0 a1 a2 a3 a4 a5) := by
  (unfold execTxDataReadDone; (repeat' (first | with_reducible assumption | with_reducible rfl | (simp only [onlyO_next, hx, txDataDone_only, endRead_only, h0, h1, h2, h3, h4, h5, h6, h7, h8]; done) | split | (with_reducible refine (onlyO_next _ _ _).mpr ?_) | (with_reducible refine (only_foldl _ (fun y b => ?_) _ _).mpr ?_) | (with_reducible refine (only_foldl _ (fun y b => ?_) _ _).trans ?_) | (simp only []))); done)
theorem frameSent_only {L : List Part} {s : State} (a0 : Lane) (a1 : Pkt) (a2 : State) (h0 : Part.out ∈ L) (h1 : Part.hosts ∈ L) (h2 : Part.fns ∈ L) (h3 : Part.queues ∈ L) (h4 : Part.hod ∈ L) (h5 : Part.sched ∈ L) (h6 : Part.counters ∈ L) : changesOnly L s (frameSent a0 a1 a2) ↔ changesOnly L s a2 := by
  (simp only [frameSent, iff_self, only_ite, ite_self, endTx_only, emit_only, count_only, h0, h1, h2, h3, h4, h5, h6]; done)
theorem execTxFrameSent_only {L : List Part} {s : State} (a0 : Lane) (a1 : State) (h0 : Part.out ∈ L) (h1 : Part.hosts ∈ L) (h2 : Part.fns ∈ L) (h3 : Part.queues ∈ L) (h4 : Part.hod ∈ L) (h5 : Part.sched ∈ L) (h6 : Part.net ∈ L) (h7 : Part.counters ∈ L) (hx : changesOnly L s a1) : OnlyO L s (execTxFrameSent a0 a1) := by
  (unfold execTxFrameSent; (repeat' (first | with_reducible assumption | with_reducible rfl | (simp only [only_ite, onlyO_next, hx, frameSent_only, only_net, h0, h1, h2, h3, h4, h5, h6, h7]; done) | split | (with_reducible refine (onlyO_next _ _ _).mpr ?_) | (with_reducible refine (only_foldl _ (fun y b => ?_) _ _).mpr ?_) | (with_reducible refine (only_foldl _ (fun y b => ?_) _ _).trans ?_) | (simp only []))); done)
theorem takeArrival_only {L : List Part} {s : State} (g n : Nat) (x : State) (l : List Nat) (y : State) (h0 : Part.drawn ∈ L) (h1 : Part.hod ∈ L) (h2 : Part.counters ∈ L) (e : takeArrival g n x = some (l, y)) : changesOnly L s y ↔ changesOnly L s x := by
  induction n generalizing x l with
  | zero => injection e with e; rw [(Prod.mk.inj e).2]
  | succ n ih =>
    unfold takeArrival at e
    simp only [] at e
    split at e
    · contradiction
    · split at e
      · contradiction
      · simp only [Option.map_eq_some_iff, Prod.mk.injEq] at e
        obtain ⟨⟨a, b⟩, hr, _, e⟩ := e
        have e : b = y := e
        subst e
        exact (ih _ _ hr).trans (takeHod_only _ _ _ h0 h1 h2)
theorem arriveHods_only {L : List Part} {s : State} (g len : Nat) (x : State) (l : List Nat) (y : State) (h0 : Part.drawn ∈ L) (h1 : Part.hod ∈ L) (h2 : Part.counters ∈ L) (e : arriveHods g len x = some (l, y)) : changesOnly L s y ↔ changesOnly L s x := by
  unfold arriveHods at e
  simp only [] at e
  split at e
  · contradiction
  · simp only [Option.map_eq_some_iff, Prod.mk.injEq] at e
    obtain ⟨⟨a, b⟩, hr, _, e⟩ := e
    rw [← e]
    exact (linkChain_only _ _ h1).trans (takeArrival_only _ _ _ _ _ h0 h1 h2 hr)
theorem takeFrame_only {L : List Part} {s : State} (a0 : Lane) (a1 : List Byte) (a2 : State) (h0 : Part.drawn ∈ L) (h1 : Part.hod ∈ L) (h2 : Part.net ∈ L) (h3 : Part.counters ∈ L) : changesOnly L s (takeFrame a0 a1 a2) ↔ changesOnly L s a2 := by
  unfold takeFrame
  simp only []
  split
  · simp only [count_only, h3]
  · next e =>
    refine Iff.trans ?_ (arriveHods_only _ _ _ _ _ ‹_› ‹_› ‹_› e)
    simp only [only_ite, ite_self, count_only, freeHods_only, enterPipe_only, storeHods_only, h1, h2, h3]
theorem execRxFrameArrival_only {L : List Part} {s : State} (a0 : Lane) (a1 : List Byte) (a2 : Bool) (a3 : Bool) (a4 : State) (h0 : Part.drawn ∈ L) (h1 : Part.hod ∈ L) (h2 : Part.net ∈ L) (h3 : Part.counters ∈ L) (hx : changesOnly L s a4) : OnlyO L s (execRxFrameArrival a0 a1 a2 a3 a4) := by
  (unfold execRxFrameArrival; (repeat' (first | with_reducible assumption | with_reducible rfl | (simp only [only_ite, ite_self, onlyO_next, hx, takeFrame_only, count_only, h0, h1, h2, h3]; done) | split | (with_reducible refine (onlyO_next _ _ _).mpr ?_) | (with_reducible refine (only_foldl _ (fun y b => ?_) _ _).mpr ?_) | (with_reducible refine (only_foldl _ (fun y b => ?_) _ _).trans ?_) | (simp only []))); done)
theorem leaveTx_only {L : List Part} {s : State} (a0 : Pkt) (a1 : State) (h0 : Part.out ∈ L) (h1 : Part.hosts ∈ L) (h2 : Part.fns ∈ L) (h3 : Part.queues ∈ L) (h4 : Part.hod ∈ L) (h5 : Part.sched ∈ L) : changesOnly L s (leaveTx a0 a1) ↔ changesOnly L s a1 := by
  (simp only [leaveTx, iff_self, only_ite, ite_self, endTx_only, h0, h1, h2, h3, h4, h5]; done)
theorem moveCharge_only {L : List Part} {s : State} (a0 : Payer) (a1 : Pkt) (a2 : State) (h0 : Part.out ∈ L) (h1 : Part.hosts ∈ L) (h2 : Part.fns ∈ L) (h3 : Part.queues ∈ L) (h4 : Part.hod ∈ L) (h5 : Part.sched ∈ L) (h6 : Part.counters ∈ L) : changesOnly L s (moveCharge a0 a1 a2).2 ↔ changesOnly L s a2 := by
  (simp only [moveCharge, iff_self, chargePacket_only, leaveTx_only, h0, h1, h2, h3, h4, h5, h6]; done)
theorem puntTo_only {L : List Part} {s : State} (a0 : Nat) (a1 : Nat) (a2 : Nat) (a3 : Pkt) (a4 : State) (h0 : Part.hod ∈ L) (h1 : Part.cores ∈ L) (h2 : Part.counters ∈ L) : changesOnly L s (puntTo a0 a1 a2 a3 a4) ↔ changesOnly L s a4 := by
  (fun_cases puntTo a0 a1 a2 a3 a4 <;> (simp +zetaDelta only [iff_self, freeHods_only, modCluster_only, count_only, h0, h1, h2]; done))
theorem malformed_only {L : List Part} {s : State} (a0 : Pkt) (a1 : FieldVec) (a2 : State) (h0 : Part.out ∈ L) (h1 : Part.hosts ∈ L) (h2 : Part.fns ∈ L) (h3 : Part.queues ∈ L) (h4 : Part.parse ∈ L) (h5 : Part.cls ∈ L) (h6 : Part.hod ∈ L) (h7 : Part.sched ∈ L) (h8 : Part.net ∈ L) (h9 : Part.cores ∈ L) (h10 : Part.counters ∈ L) : changesOnly L s (malformed a0 a1 a2) ↔ changesOnly L s a2 := by
  unfold malformed
  simp only []
  split; · simp only [dropPkt_only, count_only, h0, h1, h2, h3, h6, h7, h10]
  split
  · next e => exact Iff.trans (by simp only [dropPkt_only, count_only, h0, h1, h2, h3, h6, h7, h10]) (pair_only e (by simp only [puntPolicer_only, count_only, h4, h10]))
  · next e =>
    refine Iff.trans ?_ (pair_only e (by simp only [puntPolicer_only, count_only, h4, h10]))
    split
    · split
      · next e => exact Iff.trans (by simp only [mirrorPkt_only, h6, h7]) (pair_only e (by simp only [moveCharge_only, count_only, h0, h1, h2, h3, h6, h7, h10]))
      · next e => exact (pair_only e (by simp only [moveCharge_only, count_only, h0, h1, h2, h3, h6, h7, h10]))
    · split
      · next e => exact Iff.trans (by simp only [puntTo_only, h6, h9, h10]) (pair_only e (by simp only [moveCharge_only, count_only, h0, h1, h2, h3, h6, h7, h10]))
      · next e => exact (pair_only e (by simp only [moveCharge_only, count_only, h0, h1, h2, h3, h6, h7, h10]))
theorem countAction_only {L : List Part} {s : State} (a0 : Nat) (a1 : Lookup) (a2 : List Nat) (a3 : Nat) (a4 : State) (h0 : Part.counters ∈ L) : changesOnly L s (countAction a0 a1 a2 a3 a4) ↔ changesOnly L s a4 := by
  (fun_cases countAction a0 a1 a2 a3 a4 <;> (simp +zetaDelta only [iff_self, count_only, h0]; done))
theorem countRange_only {L : List Part} {s : State} (a0 : List Nat) (a1 : State) (h0 : Part.counters ∈ L) : changesOnly L s (countRange a0 a1) ↔ changesOnly L s a1 := by
  (simp only [countRange, iff_self, only_ite, ite_self, count_only, h0]; done)
theorem countNotExpress_only {L : List Part} {s : State} (a0 : Pkt) (a1 : Nat) (a2 : State) (h0 : Part.counters ∈ L) : changesOnly L s (countNotExpress a0 a1 a2) ↔ changesOnly L s a2 := by
  (simp only [countNotExpress, iff_self, only_ite, ite_self, count_only, h0]; done)
theorem rxClass_only {L : List Part} {s : State} (a0 : State) (a1 : HostId) (a2 : List Nat) (a3 : List Nat) (a4 : Pkt) (a5 : State) (h0 : Part.hod ∈ L) (h1 : Part.sched ∈ L) (h2 : Part.counters ∈ L) : changesOnly L s (rxClass a0 a1 a2 a3 a4 a5).2 ↔ changesOnly L s a5 := by
  unfold rxClass
  simp only []
  split
  · next e => exact Iff.trans (by simp only [freeHods_only, h0]) (pair_only e (by simp only [police_only, countRange_only, countDemoted_only, countNotExpress_only, h1, h2]))
  · next e => exact Iff.trans (by simp only [only_ite, ite_self, countX7_only, h2]) (pair_only e (by simp only [police_only, countRange_only, countDemoted_only, countNotExpress_only, h1, h2]))
theorem rxToQueue_only {L : List Part} {s : State} (a0 : State) (a1 : HostId) (a2 : Fn) (a3 : Nat) (a4 : Nat) (a5 : List Nat) (a6 : Pkt) (a7 : State) (h0 : Part.hod ∈ L) (h1 : Part.sched ∈ L) (h2 : Part.net ∈ L) (h3 : Part.counters ∈ L) : changesOnly L s (rxToQueue a0 a1 a2 a3 a4 a5 a6 a7) ↔ changesOnly L s a7 := by
  unfold rxToQueue
  simp only []
  split
  · next e => exact (pair_only e (by simp only [rxClass_only, h0, h1, h3]))
  · next e =>
    refine Iff.trans ?_ (pair_only e (by simp only [rxClass_only, h0, h1, h3]))
    split
    · next e => exact (pair_only e (by simp only [chargePacket_only, h0, h3]))
    · next e => exact Iff.trans (by simp only [only_ite, ite_self, modPipe_only, toLeaf_only, h1, h2]) (pair_only e (by simp only [chargePacket_only, h0, h3]))
theorem rxHost_only {L : List Part} {s : State} (a0 : State) (a1 : List Nat) (a2 : Pkt) (a3 : State) (h0 : Part.hod ∈ L) (h1 : Part.sched ∈ L) (h2 : Part.net ∈ L) (h3 : Part.counters ∈ L) : changesOnly L s (rxHost a0 a1 a2 a3) ↔ changesOnly L s a3 := by
  unfold rxHost
  simp only []
  split; · simp only [freeHods_only, h0]
  split; · simp only [freeHods_only, count_only, h0, h3]
  split; · simp only [freeHods_only, count_only, h0, h3]
  split
  · next e => exact Iff.trans (by simp only [freeHods_only, count_only, h0, h3]) (pair_only e (by simp only [spreadStage_only, h2]))
  · next e => exact Iff.trans (by simp only [only_ite, ite_self, rxToQueue_only, freeHods_only, count_only, h0, h1, h2, h3]) (pair_only e (by simp only [spreadStage_only, h2]))
theorem rxPort_only {L : List Part} {s : State} (a0 : State) (a1 : List Nat) (a2 : Pkt) (a3 : State) (h0 : Part.hod ∈ L) (h1 : Part.sched ∈ L) (h2 : Part.counters ∈ L) : changesOnly L s (rxPort a0 a1 a2 a3) ↔ changesOnly L s a3 := by
  unfold rxPort
  simp only []
  split; · simp only [freeHods_only, h0]
  split
  · next e => exact Iff.trans (by simp only [freeHods_only, h0]) (pair_only e (by simp only [police_only, countRange_only, countNotExpress_only, h1, h2]))
  · next e =>
    refine Iff.trans ?_ (pair_only e (by simp only [police_only, countRange_only, countNotExpress_only, h1, h2]))
    split
    · next e => exact (pair_only e (by simp only [chargePacket_only, h0, h2]))
    · next e => exact Iff.trans (by simp only [only_ite, ite_self, freeHods_only, forwardTo_only, h0, h1]) (pair_only e (by simp only [chargePacket_only, h0, h2]))
theorem rxConn_only {L : List Part} {s : State} (a0 : State) (a1 : List Nat) (a2 : Pkt) (a3 : State) (h0 : Part.out ∈ L) (h1 : Part.drawn ∈ L) (h2 : Part.owner ∈ L) (h3 : Part.rings ∈ L) (h4 : Part.hosts ∈ L) (h5 : Part.fns ∈ L) (h6 : Part.queues ∈ L) (h7 : Part.hod ∈ L) (h8 : Part.sched ∈ L) (h9 : Part.net ∈ L) (h10 : Part.ctx ∈ L) (h11 : Part.counters ∈ L) : changesOnly L s (rxConn a0 a1 a2 a3) ↔ changesOnly L s a3 := by
  have hr : ∀ (b : Bool), changesOnly L s (if b = true then
        match police (policersOf a0 a1 []) a2.bytes.length (countRange a1 (countNotExpress a2 (actClass a1) a3)) with
        | (false, s1) => ((none : Option Nat), freeHods a2.hods s1)
        | (true, s1) => (some (min (actClass a1) 6), s1)
      else rxClass a0 (hostIx (bitsAt (actDest a1) 28 3)) (connMasks a0 (hostIx (bitsAt (actDest a1) 28 3)).val a2) a1 a2 a3).2 ↔ changesOnly L s a3 := by
    intro b
    split
    · split
      · next e => exact Iff.trans (by simp only [freeHods_only, h7]) (pair_only e (by simp only [police_only, countRange_only, countNotExpress_only, h8, h11]))
      · next e => exact (pair_only e (by simp only [police_only, countRange_only, countNotExpress_only, h8, h11]))
    · simp only [rxClass_only, h7, h8, h11]
  unfold rxConn
  simp only []
  split; · simp only [freeHods_only, count_only, h7, h11]
  split
  · next e => exact pair_only e (hr _)
  · next e =>
    refine Iff.trans ?_ (pair_only e (hr _))
    split
    · next e => exact (pair_only e (by simp only [chargePacket_only, h7, h11]))
    · next e => exact Iff.trans (by simp only [transportRx_only, h0, h1, h2, h3, h4, h5, h6, h7, h8, h9, h10, h11]) (pair_only e (by simp only [chargePacket_only, h7, h11]))
theorem actPunt_only {L : List Part} {s : State} (a0 : State) (a1 : List Nat) (a2 : Pkt) (a3 : State) (h0 : Part.out ∈ L) (h1 : Part.hosts ∈ L) (h2 : Part.fns ∈ L) (h3 : Part.queues ∈ L) (h4 : Part.hod ∈ L) (h5 : Part.sched ∈ L) (h6 : Part.cores ∈ L) (h7 : Part.counters ∈ L) : changesOnly L s (actPunt a0 a1 a2 a3) ↔ changesOnly L s a3 := by
  unfold actPunt
  split
  · next e => exact Iff.trans (by simp only [dropPkt_only, h0, h1, h2, h3, h4, h5]) (pair_only e (by simp only [police_only, countRange_only, h5, h7]))
  · next e =>
    refine Iff.trans ?_ (pair_only e (by simp only [police_only, countRange_only, h5, h7]))
    split
    · next e => exact Iff.trans (by simp only [puntTo_only, h4, h6, h7]) (pair_only e (by simp only [moveCharge_only, h0, h1, h2, h3, h4, h5, h7]))
    · next e => exact (pair_only e (by simp only [moveCharge_only, h0, h1, h2, h3, h4, h5, h7]))
theorem rxAction_only {L : List Part} {s : State} (a0 : State) (a1 : List Nat) (a2 : Pkt) (a3 : State) (h0 : Part.out ∈ L) (h1 : Part.drawn ∈ L) (h2 : Part.owner ∈ L) (h3 : Part.rings ∈ L) (h4 : Part.hosts ∈ L) (h5 : Part.fns ∈ L) (h6 : Part.queues ∈ L) (h7 : Part.hod ∈ L) (h8 : Part.sched ∈ L) (h9 : Part.net ∈ L) (h10 : Part.ctx ∈ L) (h11 : Part.cores ∈ L) (h12 : Part.counters ∈ L) : changesOnly L s (rxAction a0 a1 a2 a3) ↔ changesOnly L s a3 := by
  (fun_cases rxAction a0 a1 a2 a3 <;> (simp +zetaDelta only [iff_self, freeHods_only, actPunt_only, rxConn_only, rxHost_only, rxPort_only, h0, h1, h2, h3, h4, h5, h6, h7, h8, h9, h10, h11, h12]; done))
theorem txOn_only {L : List Part} {s : State} (a0 : Pkt) (a1 : State) (h0 : Part.out ∈ L) (h1 : Part.hosts ∈ L) (h2 : Part.fns ∈ L) (h3 : Part.queues ∈ L) (h4 : Part.hod ∈ L) (h5 : Part.sched ∈ L) (h6 : Part.net ∈ L) (h7 : Part.counters ∈ L) : changesOnly L s (txOn a0 a1) ↔ changesOnly L s a1 := by
  (simp only [txOn, iff_self, only_ite, ite_self, queueFrame_only, modPipe_only, h0, h1, h2, h3, h4, h5, h6, h7]; done)
theorem txAction_only {L : List Part} {s : State} (a0 : State) (a1 : List Nat) (a2 : Pkt) (a3 : State) (h0 : Part.out ∈ L) (h1 : Part.hosts ∈ L) (h2 : Part.fns ∈ L) (h3 : Part.queues ∈ L) (h4 : Part.hod ∈ L) (h5 : Part.sched ∈ L) (h6 : Part.net ∈ L) (h7 : Part.cores ∈ L) (h8 : Part.counters ∈ L) : changesOnly L s (txAction a0 a1 a2 a3) ↔ changesOnly L s a3 := by
  unfold txAction
  simp only []
  split
  · simp only [dropPkt_only, countNotExpress_only, h0, h1, h2, h3, h4, h5, h8]
  · simp only [actPunt_only, countNotExpress_only, h0, h1, h2, h3, h4, h5, h7, h8]
  · split; · simp only [dropPkt_only, count_only, countNotExpress_only, h0, h1, h2, h3, h4, h5, h8]
    split
    · next e => exact Iff.trans (by simp only [dropPkt_only, h0, h1, h2, h3, h4, h5]) (pair_only e (by simp only [police_only, countRange_only, countNotExpress_only, h5, h8]))
    · next e => exact Iff.trans (by simp only [txOn_only, h0, h1, h2, h3, h4, h5, h6, h8]) (pair_only e (by simp only [police_only, countRange_only, countNotExpress_only, h5, h8]))
theorem doAction_only {L : List Part} {s : State} (a0 : Pkt) (a1 : Lookup) (a2 : List Nat) (a3 : State) (h0 : Part.out ∈ L) (h1 : Part.drawn ∈ L) (h2 : Part.owner ∈ L) (h3 : Part.rings ∈ L) (h4 : Part.hosts ∈ L) (h5 : Part.fns ∈ L) (h6 : Part.queues ∈ L) (h7 : Part.parse ∈ L) (h8 : Part.cls ∈ L) (h9 : Part.hod ∈ L) (h10 : Part.sched ∈ L) (h11 : Part.net ∈ L) (h12 : Part.ctx ∈ L) (h13 : Part.cores ∈ L) (h14 : Part.counters ∈ L) : changesOnly L s (doAction a0 a1 a2 a3) ↔ changesOnly L s a3 := by
  (simp only [doAction, iff_self, only_ite, ite_self, rxAction_only, dropPkt_only, txAction_only, countAction_only, mirrorCopy_only, count_only, h0, h1, h2, h3, h4, h5, h6, h9, h10, h11, h12, h13, h14]; done)
theorem joinRecirc_only {L : List Part} {s : State} (a0 : Pkt) (a1 : State → State) (a2 : State) (ga1 : ∀ x, changesOnly L s (a1 x) ↔ changesOnly L s x) (h0 : Part.out ∈ L) (h1 : Part.hosts ∈ L) (h2 : Part.fns ∈ L) (h3 : Part.queues ∈ L) (h4 : Part.hod ∈ L) (h5 : Part.sched ∈ L) (h6 : Part.net ∈ L) (h7 : Part.counters ∈ L) : changesOnly L s (joinRecirc a0 a1 a2) ↔ changesOnly L s a2 := by
  (simp only [joinRecirc, iff_self, only_ite, ite_self, dropPkt_only, modPipe_only, count_only, ga1, h0, h1, h2, h3, h4, h5, h6, h7]; done)
theorem countLookup_only {L : List Part} {s : State} (a0 : Nat) (a1 : List Nat) (a2 : State) (h0 : Part.counters ∈ L) : changesOnly L s (countLookup a0 a1 a2) ↔ changesOnly L s a2 := by
  (simp only [countLookup, only_foldl, iff_self, implies_true, count_only, h0]; done)
theorem lookup_only {L : List Part} {s : State} (a0 : Pkt) (a1 : State) (h0 : Part.out ∈ L) (h1 : Part.drawn ∈ L) (h2 : Part.owner ∈ L) (h3 : Part.rings ∈ L) (h4 : Part.hosts ∈ L) (h5 : Part.fns ∈ L) (h6 : Part.queues ∈ L) (h7 : Part.parse ∈ L) (h8 : Part.cls ∈ L) (h9 : Part.hod ∈ L) (h10 : Part.sched ∈ L) (h11 : Part.net ∈ L) (h12 : Part.ctx ∈ L) (h13 : Part.cores ∈ L) (h14 : Part.counters ∈ L) : changesOnly L s (lookup a0 a1) ↔ changesOnly L s a1 := by
  (fun_cases lookup a0 a1 <;> (simp +zetaDelta only [iff_self, implies_true, doAction_only, joinRecirc_only, dropPkt_only, countLookup_only, h0, h1, h2, h3, h4, h5, h6, h7, h8, h9, h10, h11, h12, h13, h14]; done))
theorem accepted_only {L : List Part} {s : State} (a0 : Pkt) (a1 : FieldVec) (a2 : State) (h0 : Part.out ∈ L) (h1 : Part.drawn ∈ L) (h2 : Part.owner ∈ L) (h3 : Part.rings ∈ L) (h4 : Part.hosts ∈ L) (h5 : Part.fns ∈ L) (h6 : Part.queues ∈ L) (h7 : Part.parse ∈ L) (h8 : Part.cls ∈ L) (h9 : Part.hod ∈ L) (h10 : Part.sched ∈ L) (h11 : Part.net ∈ L) (h12 : Part.ctx ∈ L) (h13 : Part.cores ∈ L) (h14 : Part.counters ∈ L) : changesOnly L s (accepted a0 a1 a2) ↔ changesOnly L s a2 := by
  (simp only [accepted, iff_self, only_ite, ite_self, lookup_only, dropPkt_only, modPipe_only, count_only, h0, h1, h2, h3, h4, h5, h6, h7, h8, h9, h10, h11, h12, h13, h14]; done)
theorem releaseHeld_only {L : List Part} {s : State} (a0 : Nat) (a1 : Nat) (a2 : State) (h0 : Part.out ∈ L) (h1 : Part.drawn ∈ L) (h2 : Part.owner ∈ L) (h3 : Part.rings ∈ L) (h4 : Part.hosts ∈ L) (h5 : Part.fns ∈ L) (h6 : Part.queues ∈ L) (h7 : Part.parse ∈ L) (h8 : Part.cls ∈ L) (h9 : Part.hod ∈ L) (h10 : Part.sched ∈ L) (h11 : Part.net ∈ L) (h12 : Part.ctx ∈ L) (h13 : Part.cores ∈ L) (h14 : Part.counters ∈ L) : changesOnly L s (releaseHeld a0 a1 a2) ↔ changesOnly L s a2 := by
  (fun_induction releaseHeld a0 a1 a2 <;> (first | (simp only [iff_self]; done) | (simp only [iff_self, lookup_only, modPipe_only, *]; done) | (simp [only_foldl, only_ite, ite_self, h0, h1, h2, h3, h4, h5, h6, h7, h8, h9, h10, h11, h12, h13, h14, lookup_only, modPipe_only, *]; done)); done)
theorem released_only {L : List Part} {s : State} (a0 : Nat) (a1 : State) (h0 : Part.out ∈ L) (h1 : Part.drawn ∈ L) (h2 : Part.owner ∈ L) (h3 : Part.rings ∈ L) (h4 : Part.hosts ∈ L) (h5 : Part.fns ∈ L) (h6 : Part.queues ∈ L) (h7 : Part.parse ∈ L) (h8 : Part.cls ∈ L) (h9 : Part.hod ∈ L) (h10 : Part.sched ∈ L) (h11 : Part.net ∈ L) (h12 : Part.ctx ∈ L) (h13 : Part.cores ∈ L) (h14 : Part.counters ∈ L) : changesOnly L s (released a0 a1) ↔ changesOnly L s a1 := by
  (simp only [released, iff_self, releaseHeld_only, h0, h1, h2, h3, h4, h5, h6, h7, h8, h9, h10, h11, h12, h13, h14]; done)
theorem endPass_only {L : List Part} {s : State} (a0 : Pkt) (a1 : PassEnd) (a2 : State) (h0 : Part.out ∈ L) (h1 : Part.drawn ∈ L) (h2 : Part.owner ∈ L) (h3 : Part.rings ∈ L) (h4 : Part.hosts ∈ L) (h5 : Part.fns ∈ L) (h6 : Part.queues ∈ L) (h7 : Part.parse ∈ L) (h8 : Part.cls ∈ L) (h9 : Part.hod ∈ L) (h10 : Part.sched ∈ L) (h11 : Part.net ∈ L) (h12 : Part.ctx ∈ L) (h13 : Part.cores ∈ L) (h14 : Part.counters ∈ L) : changesOnly L s (endPass a0 a1 a2) ↔ changesOnly L s a2 := by
  (fun_cases endPass a0 a1 a2 <;> (simp +zetaDelta only [iff_self, implies_true, accepted_only, joinRecirc_only, malformed_only, count_only, h0, h1, h2, h3, h4, h5, h6, h7, h8, h9, h10, h11, h12, h13, h14]; done))
theorem acceptTx_only {L : List Part} {s : State} (a0 : Pkt) (a1 : State) (h0 : Part.out ∈ L) (h1 : Part.hosts ∈ L) (h2 : Part.fns ∈ L) (h3 : Part.queues ∈ L) : changesOnly L s (acceptTx a0 a1) ↔ changesOnly L s a1 := by
  (fun_cases acceptTx a0 a1 <;> (simp +zetaDelta only [iff_self, setOutcome_only, h0, h1, h2, h3]; done))
theorem passPipe_only {L : List Part} {s : State} (a0 : Pipe) (a1 : State) (h0 : Part.out ∈ L) (h1 : Part.drawn ∈ L) (h2 : Part.owner ∈ L) (h3 : Part.rings ∈ L) (h4 : Part.hosts ∈ L) (h5 : Part.fns ∈ L) (h6 : Part.queues ∈ L) (h7 : Part.parse ∈ L) (h8 : Part.cls ∈ L) (h9 : Part.hod ∈ L) (h10 : Part.sched ∈ L) (h11 : Part.net ∈ L) (h12 : Part.ctx ∈ L) (h13 : Part.cores ∈ L) (h14 : Part.counters ∈ L) : changesOnly L s (passPipe a0 a1) ↔ changesOnly L s a1 := by
  (fun_cases passPipe a0 a1 <;> (simp +zetaDelta only [iff_self, acceptTx_only, modSched_only, endPass_only, dropPkt_only, modPipe_only, h0, h1, h2, h3, h4, h5, h6, h7, h8, h9, h10, h11, h12, h13, h14]; done))
theorem execPipelineAdmit_only {L : List Part} {s : State} (a0 : Pipe) (a1 : State) (h0 : Part.out ∈ L) (h1 : Part.drawn ∈ L) (h2 : Part.nv ∈ L) (h3 : Part.owner ∈ L) (h4 : Part.rings ∈ L) (h5 : Part.hosts ∈ L) (h6 : Part.fns ∈ L) (h7 : Part.queues ∈ L) (h8 : Part.parse ∈ L) (h9 : Part.cls ∈ L) (h10 : Part.hod ∈ L) (h11 : Part.sched ∈ L) (h12 : Part.net ∈ L) (h13 : Part.ctx ∈ L) (h14 : Part.nvme ∈ L) (h15 : Part.crypt ∈ L) (h16 : Part.cores ∈ L) (h17 : Part.counters ∈ L) (hx : changesOnly L s a1) : OnlyO L s (execPipelineAdmit a0 a1) := by
  (simp only [execPipelineAdmit, onlyO_next, hx, passPipe_only, farm_only, h0, h1, h2, h3, h4, h5, h6, h7, h8, h9, h10, h11, h12, h13, h14, h15, h16, h17]; done)
theorem takeRecirc_only {L : List Part} {s : State} (p : Nat) (b : Bool) (x y : State) (k : Pkt) (h : Part.net ∈ L) (e : takeRecirc p b x = some (k, y)) : changesOnly L s y ↔ changesOnly L s x := by
  revert e
  unfold takeRecirc
  split
  · exact fun e => nomatch e
  · intro e
    injection e with e
    injection e with _ e
    rw [← e]
    simp only [modPipe_only, h]
theorem execRecircAdmit_only {L : List Part} {s : State} (a0 : Pipe) (a1 : State) (h0 : Part.out ∈ L) (h1 : Part.drawn ∈ L) (h2 : Part.nv ∈ L) (h3 : Part.owner ∈ L) (h4 : Part.rings ∈ L) (h5 : Part.hosts ∈ L) (h6 : Part.fns ∈ L) (h7 : Part.queues ∈ L) (h8 : Part.parse ∈ L) (h9 : Part.cls ∈ L) (h10 : Part.hod ∈ L) (h11 : Part.sched ∈ L) (h12 : Part.net ∈ L) (h13 : Part.ctx ∈ L) (h14 : Part.nvme ∈ L) (h15 : Part.crypt ∈ L) (h16 : Part.cores ∈ L) (h17 : Part.counters ∈ L) (hx : changesOnly L s a1) : OnlyO L s (execRecircAdmit a0 a1) := by
  unfold execRecircAdmit
  refine (onlyO_next _ _ _).mpr ?_
  split
  · exact hx
  next k y e =>
  have hy := (takeRecirc_only _ _ _ _ _ (by assumption) e).mpr hx
  simp only [only_ite, ite_self, released_only, dropPkt_only, farm_only, endPass_only, hy, h0, h1, h2, h3, h4, h5, h6, h7, h8, h9, h10, h11, h12, h13, h14, h15, h16, h17]
theorem execLpmRecircReadmit_only {L : List Part} {s : State} (a0 : Pipe) (a1 : State) (h0 : Part.out ∈ L) (h1 : Part.drawn ∈ L) (h2 : Part.nv ∈ L) (h3 : Part.owner ∈ L) (h4 : Part.rings ∈ L) (h5 : Part.hosts ∈ L) (h6 : Part.fns ∈ L) (h7 : Part.queues ∈ L) (h8 : Part.parse ∈ L) (h9 : Part.cls ∈ L) (h10 : Part.hod ∈ L) (h11 : Part.sched ∈ L) (h12 : Part.net ∈ L) (h13 : Part.ctx ∈ L) (h14 : Part.nvme ∈ L) (h15 : Part.crypt ∈ L) (h16 : Part.cores ∈ L) (h17 : Part.counters ∈ L) (hx : changesOnly L s a1) : OnlyO L s (execLpmRecircReadmit a0 a1) := by
  unfold execLpmRecircReadmit
  refine (onlyO_next _ _ _).mpr ?_
  split
  · exact hx
  next k y e =>
  have hy := (takeRecirc_only _ _ _ _ _ (by assumption) e).mpr hx
  simp only [only_ite, ite_self, released_only, dropPkt_only, farm_only, doAction_only, countLookup_only, hy, h0, h1, h2, h3, h4, h5, h6, h7, h8, h9, h10, h11, h12, h13, h14, h15, h16, h17]
theorem tileDrop_only {L : List Part} {s : State} (a0 : Pkt) (a1 : State) (h0 : Part.out ∈ L) (h1 : Part.hosts ∈ L) (h2 : Part.fns ∈ L) (h3 : Part.queues ∈ L) (h4 : Part.hod ∈ L) (h5 : Part.sched ∈ L) (h6 : Part.ctx ∈ L) : changesOnly L s (tileDrop a0 a1) ↔ changesOnly L s a1 := by
  (fun_cases tileDrop a0 a1 <;> (simp +zetaDelta only [iff_self, freeHods_only, execFail_only, dropPkt_only, h0, h1, h2, h3, h4, h5, h6]; done))
theorem startWith_only {L : List Part} {s : State} (a0 : Nat) (a1 : KeySlot) (a2 : State) (h0 : Part.crypt ∈ L) : changesOnly L s (startWith a0 a1 a2) ↔ changesOnly L s a2 := by
  (simp only [startWith, iff_self, modCrypt_only, h0]; done)
theorem startTile_only {L : List Part} {s : State} (a0 : Nat) (a1 : Nat) (a2 : State) (h0 : Part.out ∈ L) (h1 : Part.hosts ∈ L) (h2 : Part.fns ∈ L) (h3 : Part.queues ∈ L) (h4 : Part.hod ∈ L) (h5 : Part.sched ∈ L) (h6 : Part.net ∈ L) (h7 : Part.ctx ∈ L) (h8 : Part.crypt ∈ L) (h9 : Part.counters ∈ L) : changesOnly L s (startTile a0 a1 a2) ↔ changesOnly L s a2 := by
  induction a1 generalizing a2 with
  | zero => exact Iff.rfl
  | succ n ih =>
    unfold startTile
    split; · exact Iff.rfl
    simp only []
    split; · simp only [modPipe_only, h6]
    split
    · simp only [ih, tileDrop_only, count_only, modPipe_only, h0, h1, h2, h3, h4, h5, h6, h7, h9]
    · simp only [only_ite, ite_self, startWith_only, modPipe_only, h6, h8]
theorem cipherFormat_only {L : List Part} {s : State} (a0 : Nat) (a1 : Pkt) (a2 : State) (h0 : Part.out ∈ L) (h1 : Part.hosts ∈ L) (h2 : Part.fns ∈ L) (h3 : Part.queues ∈ L) (h4 : Part.hod ∈ L) (h5 : Part.sched ∈ L) (h6 : Part.ctx ∈ L) (h7 : Part.counters ∈ L) : changesOnly L s (cipherFormat a0 a1 a2) ↔ changesOnly L s a2 := by
  (simp only [cipherFormat, iff_self, tileDrop_only, count_only, h0, h1, h2, h3, h4, h5, h6, h7]; done)
theorem rewrite_only {L : List Part} {s : State} (a0 : Pkt) (a1 : List Byte) (a2 : State) (h0 : Part.hod ∈ L) : changesOnly L s (rewrite a0 a1 a2) ↔ changesOnly L s a2 := by
  (simp only [rewrite, iff_self, storeHods_only, h0]; done)
theorem finishEspIn_only {L : List Part} {s : State} (a0 : Nat) (a1 : Nat) (a2 : List Byte) (a3 : Pkt) (a4 : State) (h0 : Part.out ∈ L) (h1 : Part.hosts ∈ L) (h2 : Part.fns ∈ L) (h3 : Part.queues ∈ L) (h4 : Part.hod ∈ L) (h5 : Part.sched ∈ L) (h6 : Part.ctx ∈ L) (h7 : Part.crypt ∈ L) (h8 : Part.counters ∈ L) : changesOnly L s (finishEspIn a0 a1 a2 a3 a4) ↔ changesOnly L s a4 := by
  (fun_cases finishEspIn a0 a1 a2 a3 a4 <;> (simp +zetaDelta only [iff_self, tileDrop_only, countTagFail_only, toLeaf_only, cipherFormat_only, rewrite_only, count_only, h0, h1, h2, h3, h4, h5, h6, h7, h8]; done))
theorem finishEspOut_only {L : List Part} {s : State} (a0 : Nat) (a1 : List Byte) (a2 : Pkt) (a3 : State) (h0 : Part.out ∈ L) (h1 : Part.hosts ∈ L) (h2 : Part.fns ∈ L) (h3 : Part.queues ∈ L) (h4 : Part.hod ∈ L) (h5 : Part.sched ∈ L) (h6 : Part.net ∈ L) (h7 : Part.ctx ∈ L) (h8 : Part.counters ∈ L) : changesOnly L s (finishEspOut a0 a1 a2 a3) ↔ changesOnly L s a3 := by
  (fun_cases finishEspOut a0 a1 a2 a3 <;> (simp +zetaDelta only [iff_self, cipherFormat_only, queueFrame_only, rewrite_only, count_only, h0, h1, h2, h3, h4, h5, h6, h7, h8]; done))
theorem finishLrdOut_only {L : List Part} {s : State} (a0 : Nat) (a1 : List Byte) (a2 : Pkt) (a3 : State) (h0 : Part.out ∈ L) (h1 : Part.hosts ∈ L) (h2 : Part.fns ∈ L) (h3 : Part.queues ∈ L) (h4 : Part.hod ∈ L) (h5 : Part.sched ∈ L) (h6 : Part.net ∈ L) (h7 : Part.ctx ∈ L) (h8 : Part.counters ∈ L) : changesOnly L s (finishLrdOut a0 a1 a2 a3) ↔ changesOnly L s a3 := by
  (fun_cases finishLrdOut a0 a1 a2 a3 <;> (simp +zetaDelta only [iff_self, cipherFormat_only, queueFrame_only, rewrite_only, count_only, h0, h1, h2, h3, h4, h5, h6, h7, h8]; done))
theorem lrdDecrypted_only {L : List Part} {s : State} (a0 : Conn) (a1 : LrdPkt) (a2 : Pkt) (a3 : List Byte) (a4 : State) (h0 : Part.out ∈ L) (h1 : Part.owner ∈ L) (h2 : Part.rings ∈ L) (h3 : Part.hosts ∈ L) (h4 : Part.fns ∈ L) (h5 : Part.queues ∈ L) (h6 : Part.hod ∈ L) (h7 : Part.sched ∈ L) (h8 : Part.ctx ∈ L) (h9 : Part.counters ∈ L) : changesOnly L s (lrdDecrypted a0 a1 a2 a3 a4) ↔ changesOnly L s a4 := by
  (simp only [lrdDecrypted, iff_self, only_ite, ite_self, beginExec_only, modConn_only, h0, h1, h2, h3, h4, h5, h6, h7, h8, h9]; done)
theorem finishLrdIn_only {L : List Part} {s : State} (a0 : Nat) (a1 : Nat) (a2 : List Byte) (a3 : Pkt) (a4 : State) (h0 : Part.out ∈ L) (h1 : Part.owner ∈ L) (h2 : Part.rings ∈ L) (h3 : Part.hosts ∈ L) (h4 : Part.fns ∈ L) (h5 : Part.queues ∈ L) (h6 : Part.hod ∈ L) (h7 : Part.sched ∈ L) (h8 : Part.ctx ∈ L) (h9 : Part.crypt ∈ L) (h10 : Part.counters ∈ L) : changesOnly L s (finishLrdIn a0 a1 a2 a3 a4) ↔ changesOnly L s a4 := by
  (fun_cases finishLrdIn a0 a1 a2 a3 a4 <;> (simp +zetaDelta only [iff_self, tileDrop_only, countTagFail_only, freeHods_only, lrdDecrypted_only, cipherFormat_only, rewrite_only, count_only, h0, h1, h2, h3, h4, h5, h6, h7, h8, h9, h10]; done))
theorem finishTile_only {L : List Part} {s : State} (a0 : Nat) (a1 : State) (h0 : Part.out ∈ L) (h1 : Part.owner ∈ L) (h2 : Part.rings ∈ L) (h3 : Part.hosts ∈ L) (h4 : Part.fns ∈ L) (h5 : Part.queues ∈ L) (h6 : Part.hod ∈ L) (h7 : Part.sched ∈ L) (h8 : Part.net ∈ L) (h9 : Part.ctx ∈ L) (h10 : Part.crypt ∈ L) (h11 : Part.counters ∈ L) : changesOnly L s (finishTile a0 a1) ↔ changesOnly L s a1 := by
  (fun_cases finishTile a0 a1 <;> (simp +zetaDelta only [iff_self, finishLrdOut_only, modCrypt_only, finishLrdIn_only, finishEspOut_only, finishEspIn_only, modPipe_only, h0, h1, h2, h3, h4, h5, h6, h7, h8, h9, h10, h11]; done))
theorem execCipherTileDone_only {L : List Part} {s : State} (a0 : Pipe) (a1 : State) (h0 : Part.out ∈ L) (h1 : Part.drawn ∈ L) (h2 : Part.nv ∈ L) (h3 : Part.owner ∈ L) (h4 : Part.rings ∈ L) (h5 : Part.hosts ∈ L) (h6 : Part.fns ∈ L) (h7 : Part.queues ∈ L) (h8 : Part.hod ∈ L) (h9 : Part.sched ∈ L) (h10 : Part.net ∈ L) (h11 : Part.ctx ∈ L) (h12 : Part.nvme ∈ L) (h13 : Part.crypt ∈ L) (h14 : Part.counters ∈ L) (hx : changesOnly L s a1) : OnlyO L s (execCipherTileDone a0 a1) := by
  (simp only [execCipherTileDone, onlyO_next, hx, startTile_only, finishTile_only, farm_only, h0, h1, h2, h3, h4, h5, h6, h7, h8, h9, h10, h11, h12, h13, h14]; done)
theorem execGauntletKeyFetch_only {L : List Part} {s : State} (a0 : Tile) (a1 : BitVec 17) (a2 : State) (h0 : Part.out ∈ L) (h1 : Part.drawn ∈ L) (h2 : Part.nv ∈ L) (h3 : Part.owner ∈ L) (h4 : Part.rings ∈ L) (h5 : Part.hosts ∈ L) (h6 : Part.fns ∈ L) (h7 : Part.queues ∈ L) (h8 : Part.hod ∈ L) (h9 : Part.sched ∈ L) (h10 : Part.net ∈ L) (h11 : Part.ctx ∈ L) (h12 : Part.nvme ∈ L) (h13 : Part.crypt ∈ L) (h14 : Part.counters ∈ L) (hx : changesOnly L s a2) : OnlyO L s (execGauntletKeyFetch a0 a1 a2) := by
  (simp only [execGauntletKeyFetch, only_ite, ite_self, onlyO_next, hx, modCrypt_only, startTile_only, farm_only, count_only, h0, h1, h2, h3, h4, h5, h6, h7, h8, h9, h10, h11, h12, h13, h14]; done)
theorem execLrdExecutionDone_only {L : List Part} {s : State} (a0 : Domain) (a1 : ConnNo) (a2 : BitVec 32) (a3 : State) (h0 : Part.out ∈ L) (h1 : Part.drawn ∈ L) (h2 : Part.nv ∈ L) (h3 : Part.owner ∈ L) (h4 : Part.rings ∈ L) (h5 : Part.hosts ∈ L) (h6 : Part.fns ∈ L) (h7 : Part.queues ∈ L) (h8 : Part.hod ∈ L) (h9 : Part.ctx ∈ L) (h10 : Part.nvme ∈ L) (h11 : Part.crypt ∈ L) (h12 : Part.counters ∈ L) (hx : changesOnly L s a3) : OnlyO L s (execLrdExecutionDone a0 a1 a2 a3) := by
  (unfold execLrdExecutionDone; (repeat' (first | with_reducible assumption | with_reducible rfl | (simp only [only_ite, ite_self, onlyO_next, hx, execDone_only, farm_only, h0, h1, h2, h3, h4, h5, h6, h7, h8, h9, h10, h11, h12]; done) | split | (with_reducible refine (onlyO_next _ _ _).mpr ?_) | (with_reducible refine (only_foldl _ (fun y b => ?_) _ _).mpr ?_) | (with_reducible refine (only_foldl _ (fun y b => ?_) _ _).trans ?_) | (simp only []))); done)
theorem execLrdNakRx_only {L : List Part} {s : State} (a0 : Domain) (a1 : ConnNo) (a2 : State) (h0 : Part.out ∈ L) (h1 : Part.drawn ∈ L) (h2 : Part.nv ∈ L) (h3 : Part.owner ∈ L) (h4 : Part.rings ∈ L) (h5 : Part.hosts ∈ L) (h6 : Part.fns ∈ L) (h7 : Part.queues ∈ L) (h8 : Part.hod ∈ L) (h9 : Part.ctx ∈ L) (h10 : Part.nvme ∈ L) (h11 : Part.crypt ∈ L) (h12 : Part.counters ∈ L) (hx : changesOnly L s a2) : OnlyO L s (execLrdNakRx a0 a1 a2) := by
  (simp only [execLrdNakRx, onlyO_next, hx, lrdNakRx_only, farm_only, h0, h1, h2, h3, h4, h5, h6, h7, h8, h9, h10, h11, h12]; done)
theorem execLrdRetransmitTimer_only {L : List Part} {s : State} (a0 : Domain) (a1 : ConnNo) (a2 : State) (h0 : Part.out ∈ L) (h1 : Part.drawn ∈ L) (h2 : Part.nv ∈ L) (h3 : Part.owner ∈ L) (h4 : Part.rings ∈ L) (h5 : Part.hosts ∈ L) (h6 : Part.fns ∈ L) (h7 : Part.queues ∈ L) (h8 : Part.hod ∈ L) (h9 : Part.ctx ∈ L) (h10 : Part.nvme ∈ L) (h11 : Part.crypt ∈ L) (h12 : Part.counters ∈ L) (hx : changesOnly L s a2) : OnlyO L s (execLrdRetransmitTimer a0 a1 a2) := by
  (simp only [execLrdRetransmitTimer, onlyO_next, hx, lrdRetransmitTimer_only, farm_only, h0, h1, h2, h3, h4, h5, h6, h7, h8, h9, h10, h11, h12]; done)

end Sys2Proof.Machine
end

