-- ==== Sys2Proof/Laws/FrameSecurity.lean ====
section
/-! SUPPORT. FrameSecurity.lean: what each definition of the machine may change, for images, intake, attestation, the ports of the clusters, lookaside and programs: one lemma `<name>_only` for each, which names the parts of the state it touches. -/

set_option linter.all false

namespace Sys2Proof.Machine
open Sys2Proof

theorem modSec_only {L : List Part} {s : State} (a0 : Sec → Sec) (a1 : State) (h0 : Part.sec ∈ L) : changesOnly L s (modSec a0 a1) ↔ changesOnly L s a1 := by
  (simp only [modSec, iff_self, h0, only_sec]; done)
theorem modNv_only {L : List Part} {s : State} (a0 : Nv → Nv) (a1 : State) (h0 : Part.nv ∈ L) (hf : SameFuses (a0 a1.nv) a1.nv) : changesOnly L s (modNv a0 a1) ↔ changesOnly L s a1 := only_nv _ h0 hf
theorem modNv_fuses_only {L : List Part} {s : State} (a0 : Nv → Nv) (a1 : State) (h0 : Part.nv ∈ L) (h1 : Part.fuses ∈ L) : changesOnly L s (modNv a0 a1) ↔ changesOnly L s a1 := only_nv_fuses _ h0 h1
theorem extend_only {L : List Part} {s : State} (a0 : Fin 16) (a1 : List Byte) (a2 : State) (h0 : Part.sec ∈ L) : changesOnly L s (extend a0 a1 a2) ↔ changesOnly L s a2 := by
  (simp only [extend, iff_self, modSec_only, h0]; done)
theorem recheck_only {L : List Part} {s : State} (a0 : Nat) (a1 : State) (h0 : Part.sec ∈ L) : changesOnly L s (recheck a0 a1) ↔ changesOnly L s a1 := by
  (simp only [recheck, iff_self, modSec_only, h0]; done)
theorem eraseFlash_only {L : List Part} {s : State} (a0 : Nat) (a1 : Nat) (a2 : Nat) (a3 : State) (h0 : Part.nv ∈ L) : changesOnly L s (eraseFlash a0 a1 a2 a3) ↔ changesOnly L s a3 := by
  (simp only [eraseFlash, iff_self, modNv_only, sameFuses_iff, eq_self, and_self, h0]; done)
theorem programFlash_only {L : List Part} {s : State} (a0 : Mem) (a1 : Nat) (a2 : Nat) (a3 : Nat) (a4 : State) (h0 : Part.nv ∈ L) : changesOnly L s (programFlash a0 a1 a2 a3 a4) ↔ changesOnly L s a4 := by
  (simp only [programFlash, iff_self, modNv_only, sameFuses_iff, eq_self, and_self, h0]; done)
theorem installed_only {L : List Part} {s : State} (a0 : Nat) (a1 : State) (h0 : Part.nv ∈ L) (h1 : Part.sec ∈ L) : changesOnly L s (installed a0 a1) ↔ changesOnly L s a1 := by
  (simp only [installed, iff_self, recheck_only, modNv_only, sameFuses_iff, eq_self, and_self, h0, h1]; done)
theorem spoilSlot_only {L : List Part} {s : State} (a0 : Nat) (a1 : State) (h0 : Part.nv ∈ L) (h1 : Part.sec ∈ L) : changesOnly L s (spoilSlot a0 a1) ↔ changesOnly L s a1 := by
  (simp only [spoilSlot, iff_self, eraseFlash_only, recheck_only, h0, h1]; done)
theorem writeSlot_only {L : List Part} {s : State} (a0 : Mem) (a1 : Nat) (a2 : Bool) (a3 : State) (h0 : Part.nv ∈ L) (h1 : Part.sec ∈ L) : changesOnly L s (writeSlot a0 a1 a2 a3).1 ↔ changesOnly L s a3 := by
  (fun_cases writeSlot a0 a1 a2 a3 <;> (simp +zetaDelta only [iff_self, installed_only, spoilSlot_only, programFlash_only, h0, h1]; done))
theorem installStep_only {L : List Part} {s : State} (a0 : LongOp) (a1 : Nat) (a2 : Bool) (a3 : Bool) (a4 : State) (h0 : Part.out ∈ L) (h1 : Part.nv ∈ L) (h2 : Part.owner ∈ L) (h3 : Part.rings ∈ L) (h4 : Part.ops ∈ L) (h5 : Part.hosts ∈ L) (h6 : Part.fns ∈ L) (h7 : Part.sec ∈ L) : changesOnly L s (installStep a0 a1 a2 a3 a4) ↔ changesOnly L s a4 := by
  (simp only [installStep, iff_self, only_ite, ite_self, opDone_only, eraseFlash_only, recheck_only, writeSlot_only, spoilSlot_only, putOp_only, h0, h1, h2, h3, h4, h5, h6, h7]; done)
theorem internalFault_only {L : List Part} {s : State} (a0 : Nat) (a1 : Packet) (a2 : State) (h0 : Part.out ∈ L) (h1 : Part.drawn ∈ L) (h2 : Part.owner ∈ L) (h3 : Part.rings ∈ L) (h4 : Part.hosts ∈ L) (h5 : Part.fns ∈ L) (h6 : Part.violations ∈ L) (h7 : Part.counters ∈ L) : changesOnly L s (internalFault a0 a1 a2) ↔ changesOnly L s a2 := by
  (simp only [internalFault, iff_self, logViolation_only, drawn1_only, h0, h1, h2, h3, h4, h5, h6, h7]; done)
theorem imageStageDef_only {L : List Part} {s : State}  (h0 : Part.sec ∈ L) : DefOnly L s imageStageDef := by
  intro o p y; simp only [imageStageDef]; (repeat' (first | with_reducible rfl | (simp only [modSec_only, h0]; done) | with_reducible refine onlyA_reply _ _ _ _ _ ?_ | with_reducible refine onlyA_replyLong _ _ _ _ _ ?_ | with_reducible refine onlyA_startOp _ _ _ _ _ _ _ _ _ (by assumption) (by assumption) ?_ | with_reducible refine onlyA_mk _ _ _ _ _ _ _ _ ?_ | split | (with_reducible refine (only_foldl _ (fun y b => ?_) _ _).trans ?_) | (refine ⟨?_, fun z => ?_⟩) | (simp only [])))
theorem execImageStage_only {L : List Part} {s : State} (a0 : Packet) (a1 : State) (h0 : Part.fenced ∈ L) (h1 : Part.out ∈ L) (h2 : Part.owner ∈ L) (h3 : Part.rings ∈ L) (h4 : Part.hosts ∈ L) (h5 : Part.fns ∈ L) (h6 : Part.sec ∈ L) (hx : changesOnly L s a1) : OnlyO L s (execImageStage a0 a1) := by
  (simp only [execImageStage, onlyO_next, hx, runCmd_only, imageStageDef_only, h0, h1, h2, h3, h4, h5, h6]; done)
theorem imageInstallDef_only {L : List Part} {s : State}  (h0 : Part.drawn ∈ L) (h1 : Part.ops ∈ L) : DefOnly L s imageInstallDef := by
  intro o p y; simp only [imageInstallDef]; (repeat' (first | with_reducible rfl | (simp only [only_ite, ite_self, onlyA_ite, startOp_only, h0, h1]; done) | with_reducible refine onlyA_reply _ _ _ _ _ ?_ | with_reducible refine onlyA_replyLong _ _ _ _ _ ?_ | with_reducible refine onlyA_startOp _ _ _ _ _ _ _ _ _ (by assumption) (by assumption) ?_ | with_reducible refine onlyA_mk _ _ _ _ _ _ _ _ ?_ | split | (with_reducible refine (only_foldl _ (fun y b => ?_) _ _).trans ?_) | (refine ⟨?_, fun z => ?_⟩) | (simp only [])))
theorem execImageInstall_only {L : List Part} {s : State} (a0 : Packet) (a1 : State) (h0 : Part.fenced ∈ L) (h1 : Part.out ∈ L) (h2 : Part.drawn ∈ L) (h3 : Part.owner ∈ L) (h4 : Part.rings ∈ L) (h5 : Part.ops ∈ L) (h6 : Part.hosts ∈ L) (h7 : Part.fns ∈ L) (hx : changesOnly L s a1) : OnlyO L s (execImageInstall a0 a1) := by
  (simp only [execImageInstall, onlyO_next, hx, runCmd_only, imageInstallDef_only, h0, h1, h2, h3, h4, h5, h6, h7]; done)
theorem imageInfoDef_only {L : List Part} {s : State}   : DefOnly L s imageInfoDef := by
  intro o p y; simp only [imageInfoDef]; (repeat' (first | with_reducible rfl | (simp only [only_ite, ite_self, onlyA_ite, replyLong_only]; done) | with_reducible refine onlyA_reply _ _ _ _ _ ?_ | with_reducible refine onlyA_replyLong _ _ _ _ _ ?_ | with_reducible refine onlyA_startOp _ _ _ _ _ _ _ _ _ (by assumption) (by assumption) ?_ | with_reducible refine onlyA_mk _ _ _ _ _ _ _ _ ?_ | split | (with_reducible refine (only_foldl _ (fun y b => ?_) _ _).trans ?_) | (refine ⟨?_, fun z => ?_⟩) | (simp only [])))
theorem execImageInfo_only {L : List Part} {s : State} (a0 : Packet) (a1 : State) (h0 : Part.fenced ∈ L) (h1 : Part.out ∈ L) (h2 : Part.owner ∈ L) (h3 : Part.rings ∈ L) (h4 : Part.hosts ∈ L) (h5 : Part.fns ∈ L) (hx : changesOnly L s a1) : OnlyO L s (execImageInfo a0 a1) := by
  (simp only [execImageInfo, onlyO_next, hx, runCmd_only, imageInfoDef_only, h0, h1, h2, h3, h4, h5]; done)
theorem commitVersionDef_only {L : List Part} {s : State}  (h0 : Part.nv ∈ L) (h1 : Part.sec ∈ L) (h2 : Part.fuses ∈ L) : DefOnly L s commitVersionDef := by
  intro o p y; simp only [commitVersionDef]; (repeat' (first | with_reducible rfl | (simp only [extend_only, recheck_only, modNv_fuses_only, h0, h1, h2]; done) | with_reducible refine onlyA_reply _ _ _ _ _ ?_ | with_reducible refine onlyA_replyLong _ _ _ _ _ ?_ | with_reducible refine onlyA_startOp _ _ _ _ _ _ _ _ _ (by assumption) (by assumption) ?_ | with_reducible refine onlyA_mk _ _ _ _ _ _ _ _ ?_ | split | (with_reducible refine (only_foldl _ (fun y b => ?_) _ _).trans ?_) | (refine ⟨?_, fun z => ?_⟩) | (simp only [])))
theorem execCommitVersion_only {L : List Part} {s : State} (a0 : Packet) (a1 : State) (h0 : Part.fenced ∈ L) (h1 : Part.out ∈ L) (h2 : Part.nv ∈ L) (h3 : Part.owner ∈ L) (h4 : Part.rings ∈ L) (h5 : Part.hosts ∈ L) (h6 : Part.fns ∈ L) (h7 : Part.sec ∈ L) (h8 : Part.fuses ∈ L) (hx : changesOnly L s a1) : OnlyO L s (execCommitVersion a0 a1) := by
  (simp only [execCommitVersion, onlyO_next, hx, runCmd_only, commitVersionDef_only, h0, h1, h2, h3, h4, h5, h6, h7, h8]; done)
theorem revokeKeyDef_only {L : List Part} {s : State}  (h0 : Part.nv ∈ L) (h1 : Part.sec ∈ L) (h2 : Part.fuses ∈ L) : DefOnly L s revokeKeyDef := by
  intro o p y; simp only [revokeKeyDef]; (repeat' (first | with_reducible rfl | (simp only [extend_only, recheck_only, modNv_fuses_only, h0, h1, h2]; done) | with_reducible refine onlyA_reply _ _ _ _ _ ?_ | with_reducible refine onlyA_replyLong _ _ _ _ _ ?_ | with_reducible refine onlyA_startOp _ _ _ _ _ _ _ _ _ (by assumption) (by assumption) ?_ | with_reducible refine onlyA_mk _ _ _ _ _ _ _ _ ?_ | split | (with_reducible refine (only_foldl _ (fun y b => ?_) _ _).trans ?_) | (refine ⟨?_, fun z => ?_⟩) | (simp only [])))
theorem execRevokeKey_only {L : List Part} {s : State} (a0 : Packet) (a1 : State) (h0 : Part.fenced ∈ L) (h1 : Part.out ∈ L) (h2 : Part.nv ∈ L) (h3 : Part.owner ∈ L) (h4 : Part.rings ∈ L) (h5 : Part.hosts ∈ L) (h6 : Part.fns ∈ L) (h7 : Part.sec ∈ L) (h8 : Part.fuses ∈ L) (hx : changesOnly L s a1) : OnlyO L s (execRevokeKey a0 a1) := by
  (simp only [execRevokeKey, onlyO_next, hx, runCmd_only, revokeKeyDef_only, h0, h1, h2, h3, h4, h5, h6, h7, h8]; done)
theorem ownerKeyProvisionDef_only {L : List Part} {s : State}  (h0 : Part.out ∈ L) (h1 : Part.drawn ∈ L) (h2 : Part.nv ∈ L) (h3 : Part.owner ∈ L) (h4 : Part.rings ∈ L) (h5 : Part.hosts ∈ L) (h6 : Part.fns ∈ L) (h7 : Part.sec ∈ L) (h8 : Part.violations ∈ L) (h9 : Part.counters ∈ L) (h10 : Part.fuses ∈ L) : DefOnly L s ownerKeyProvisionDef := by
  intro o p y; simp only [ownerKeyProvisionDef]; (repeat' (first | with_reducible rfl | (simp only [onlyA_ite, extend_only, drawn1_only, modNv_fuses_only, internalFault_only, h0, h1, h2, h3, h4, h5, h6, h7, h8, h9, h10]; done) | with_reducible refine onlyA_reply _ _ _ _ _ ?_ | with_reducible refine onlyA_replyLong _ _ _ _ _ ?_ | with_reducible refine onlyA_startOp _ _ _ _ _ _ _ _ _ (by assumption) (by assumption) ?_ | with_reducible refine onlyA_mk _ _ _ _ _ _ _ _ ?_ | split | (with_reducible refine (only_foldl _ (fun y b => ?_) _ _).trans ?_) | (refine ⟨?_, fun z => ?_⟩) | (simp only [])))
theorem execOwnerKeyProvision_only {L : List Part} {s : State} (a0 : Packet) (a1 : State) (h0 : Part.fenced ∈ L) (h1 : Part.out ∈ L) (h2 : Part.drawn ∈ L) (h3 : Part.nv ∈ L) (h4 : Part.owner ∈ L) (h5 : Part.rings ∈ L) (h6 : Part.hosts ∈ L) (h7 : Part.fns ∈ L) (h8 : Part.sec ∈ L) (h9 : Part.violations ∈ L) (h10 : Part.counters ∈ L) (h11 : Part.fuses ∈ L) (hx : changesOnly L s a1) : OnlyO L s (execOwnerKeyProvision a0 a1) := by
  (simp only [execOwnerKeyProvision, onlyO_next, hx, runCmd_only, ownerKeyProvisionDef_only, h0, h1, h2, h3, h4, h5, h6, h7, h8, h9, h10, h11]; done)
theorem measurementReadDef_only {L : List Part} {s : State}   : DefOnly L s measurementReadDef := by
  intro o p y; simp only [measurementReadDef]; (repeat' (first | with_reducible rfl | (simp only [only_ite, ite_self, onlyA_ite, replyLong_only]; done) | with_reducible refine onlyA_reply _ _ _ _ _ ?_ | with_reducible refine onlyA_replyLong _ _ _ _ _ ?_ | with_reducible refine onlyA_startOp _ _ _ _ _ _ _ _ _ (by assumption) (by assumption) ?_ | with_reducible refine onlyA_mk _ _ _ _ _ _ _ _ ?_ | split | (with_reducible refine (only_foldl _ (fun y b => ?_) _ _).trans ?_) | (refine ⟨?_, fun z => ?_⟩) | (simp only [])))
theorem execMeasurementRead_only {L : List Part} {s : State} (a0 : Packet) (a1 : State) (h0 : Part.fenced ∈ L) (h1 : Part.out ∈ L) (h2 : Part.owner ∈ L) (h3 : Part.rings ∈ L) (h4 : Part.hosts ∈ L) (h5 : Part.fns ∈ L) (hx : changesOnly L s a1) : OnlyO L s (execMeasurementRead a0 a1) := by
  (simp only [execMeasurementRead, onlyO_next, hx, runCmd_only, measurementReadDef_only, h0, h1, h2, h3, h4, h5]; done)
theorem modIntake_only {L : List Part} {s : State} (a0 : Intake → Intake) (a1 : State) (h0 : Part.sec ∈ L) : changesOnly L s (modIntake a0 a1) ↔ changesOnly L s a1 := by
  (simp only [modIntake, iff_self, modSec_only, h0]; done)
theorem modRec_only {L : List Part} {s : State} (a0 : Fin 9) (a1 : RecPort → RecPort) (a2 : State) (h0 : Part.sec ∈ L) : changesOnly L s (modRec a0 a1 a2) ↔ changesOnly L s a2 := by
  (simp only [modRec, iff_self, modIntake_only, h0]; done)
theorem refreshRec_only {L : List Part} {s : State} (a0 : Fin 9) (a1 : State) (h0 : Part.out ∈ L) (h1 : Part.hosts ∈ L) : changesOnly L s (refreshRec a0 a1) ↔ changesOnly L s a1 := by
  (fun_cases refreshRec a0 a1 <;> (simp +zetaDelta only [iff_self, modLink_only, refreshInta_only, h0, h1]; done))
theorem recError_only {L : List Part} {s : State} (a0 : Fin 9) (a1 : Nat) (a2 : State) (h0 : Part.out ∈ L) (h1 : Part.hosts ∈ L) (h2 : Part.sec ∈ L) : changesOnly L s (recError a0 a1 a2) ↔ changesOnly L s a2 := by
  (simp only [recError, iff_self, modRec_only, refreshRec_only, h0, h1, h2]; done)
theorem recCommit_only {L : List Part} {s : State} (a0 : Fin 9) (a1 : State) (h0 : Part.out ∈ L) (h1 : Part.hosts ∈ L) (h2 : Part.sec ∈ L) : changesOnly L s (recCommit a0 a1) ↔ changesOnly L s a1 := by
  (simp only [recCommit, iff_self, only_ite, ite_self, recError_only, modIntake_only, h0, h1, h2]; done)
theorem recChunkDone_only {L : List Part} {s : State} (a0 : Bool) (a1 : State) (h0 : Part.out ∈ L) (h1 : Part.hosts ∈ L) (h2 : Part.sec ∈ L) : changesOnly L s (recChunkDone a0 a1) ↔ changesOnly L s a1 := by
  (simp only [recChunkDone, iff_self, only_ite, ite_self, recError_only, modRec_only, modIntake_only, refreshRec_only, h0, h1, h2]; done)
theorem recInstall_only {L : List Part} {s : State} (a0 : Fin 9) (a1 : Nat) (a2 : State) (h0 : Part.out ∈ L) (h1 : Part.hosts ∈ L) (h2 : Part.sec ∈ L) : changesOnly L s (recInstall a0 a1 a2) ↔ changesOnly L s a2 := by
  (simp only [recInstall, iff_self, only_ite, ite_self, recError_only, modRec_only, modIntake_only, h0, h1, h2]; done)
theorem recInstallDone_only {L : List Part} {s : State} (a0 : Bool) (a1 : State) (h0 : Part.out ∈ L) (h1 : Part.nv ∈ L) (h2 : Part.hosts ∈ L) (h3 : Part.sec ∈ L) : changesOnly L s (recInstallDone a0 a1) ↔ changesOnly L s a1 := by
  (simp only [recInstallDone, iff_self, only_ite, ite_self, recError_only, eraseFlash_only, writeSlot_only, spoilSlot_only, modRec_only, modIntake_only, refreshRec_only, h0, h1, h2, h3]; done)
theorem recRelease_only {L : List Part} {s : State} (a0 : Fin 9) (a1 : State) (h0 : Part.drawn ∈ L) (h1 : Part.sec ∈ L) : changesOnly L s (recRelease a0 a1) ↔ changesOnly L s a1 := by
  (simp only [recRelease, iff_self, only_ite, ite_self, drawn1_only, modIntake_only, h0, h1]; done)
theorem recAbort_only {L : List Part} {s : State} (a0 : Fin 9) (a1 : State) (h0 : Part.out ∈ L) (h1 : Part.drawn ∈ L) (h2 : Part.hosts ∈ L) (h3 : Part.sec ∈ L) : changesOnly L s (recAbort a0 a1) ↔ changesOnly L s a1 := by
  (simp only [recAbort, iff_self, only_ite, ite_self, recError_only, recRelease_only, h0, h1, h2, h3]; done)
theorem resetPf2_only {L : List Part} {s : State} (a0 : HostId) (a1 : State) (h0 : Part.out ∈ L) (h1 : Part.drawn ∈ L) (h2 : Part.hosts ∈ L) (h3 : Part.sec ∈ L) : changesOnly L s (resetPf2 a0 a1) ↔ changesOnly L s a1 := by
  (simp only [resetPf2, iff_self, recRelease_only, modRec_only, refreshRec_only, h0, h1, h2, h3]; done)
theorem closeIntake_only {L : List Part} {s : State} (a0 : State) (h0 : Part.sec ∈ L) : changesOnly L s (closeIntake a0) ↔ changesOnly L s a0 := by
  (simp only [closeIntake, iff_self, modIntake_only, h0]; done)
theorem execHlinkRecCommit_only {L : List Part} {s : State} (a0 : HostId) (a1 : State) (h0 : Part.out ∈ L) (h1 : Part.hosts ∈ L) (h2 : Part.sec ∈ L) (hx : changesOnly L s a1) : OnlyO L s (execHlinkRecCommit a0 a1) := by
  (simp only [execHlinkRecCommit, only_ite, ite_self, onlyO_next, hx, recCommit_only, h0, h1, h2]; done)
theorem execHlinkRecInstall_only {L : List Part} {s : State} (a0 : HostId) (a1 : Fin 2) (a2 : State) (h0 : Part.out ∈ L) (h1 : Part.hosts ∈ L) (h2 : Part.sec ∈ L) (hx : changesOnly L s a2) : OnlyO L s (execHlinkRecInstall a0 a1 a2) := by
  (simp only [execHlinkRecInstall, only_ite, ite_self, onlyO_next, hx, recInstall_only, h0, h1, h2]; done)
theorem execHlinkRecAbort_only {L : List Part} {s : State} (a0 : HostId) (a1 : State) (h0 : Part.out ∈ L) (h1 : Part.drawn ∈ L) (h2 : Part.hosts ∈ L) (h3 : Part.sec ∈ L) (hx : changesOnly L s a1) : OnlyO L s (execHlinkRecAbort a0 a1) := by
  (simp only [execHlinkRecAbort, only_ite, ite_self, onlyO_next, hx, recAbort_only, h0, h1, h2, h3]; done)
theorem execChunkDone_only {L : List Part} {s : State} (a0 : Bool) (a1 : State) (h0 : Part.out ∈ L) (h1 : Part.hosts ∈ L) (h2 : Part.sec ∈ L) (hx : changesOnly L s a1) : OnlyO L s (execChunkDone a0 a1) := by
  (simp only [execChunkDone, onlyO_next, hx, recChunkDone_only, h0, h1, h2]; done)
theorem execInstallDone_only {L : List Part} {s : State} (a0 : Bool) (a1 : State) (h0 : Part.out ∈ L) (h1 : Part.nv ∈ L) (h2 : Part.hosts ∈ L) (h3 : Part.sec ∈ L) (hx : changesOnly L s a1) : OnlyO L s (execInstallDone a0 a1) := by
  (simp only [execInstallDone, onlyO_next, hx, recInstallDone_only, h0, h1, h2, h3]; done)
theorem modSpdm_only {L : List Part} {s : State} (a0 : SpdmPort) (a1 : Spdm → Spdm) (a2 : State) (h0 : Part.sec ∈ L) : changesOnly L s (modSpdm a0 a1 a2) ↔ changesOnly L s a2 := by
  (simp only [modSpdm, iff_self, modSec_only, h0]; done)
theorem spdmError_only {L : List Part} {s : State} (a0 : SpdmPort) (a1 : Nat) (a2 : Nat) (a3 : State) (h0 : Part.out ∈ L) : changesOnly L s (spdmError a0 a1 a2 a3) ↔ changesOnly L s a3 := by
  (simp only [spdmError, iff_self, emit_only, h0]; done)
theorem spdmReply_only {L : List Part} {s : State} (a0 : SpdmPort) (a1 : SpdmReq) (a2 : Nat) (a3 : Nat) (a4 : Nat) (a5 : Nat) (a6 : List Byte) (a7 : List Byte → Spdm → Spdm) (a8 : State) (h0 : Part.out ∈ L) (h1 : Part.sec ∈ L) : changesOnly L s (spdmReply a0 a1 a2 a3 a4 a5 a6 a7 a8) ↔ changesOnly L s a8 := by
  (simp only [spdmReply, iff_self, emit_only, modSpdm_only, h0, h1]; done)
theorem execSpdmGetVersion_only {L : List Part} {s : State} (a0 : SpdmPort) (a1 : SpdmReq) (a2 : State) (h0 : Part.out ∈ L) (h1 : Part.sec ∈ L) (hx : changesOnly L s a2) : OnlyO L s (execSpdmGetVersion a0 a1 a2) := by
  (simp only [execSpdmGetVersion, only_ite, ite_self, onlyO_next, hx, spdmReply_only, spdmError_only, modSpdm_only, h0, h1]; done)
theorem execSpdmGetCapabilities_only {L : List Part} {s : State} (a0 : SpdmPort) (a1 : SpdmReq) (a2 : State) (h0 : Part.out ∈ L) (h1 : Part.sec ∈ L) (hx : changesOnly L s a2) : OnlyO L s (execSpdmGetCapabilities a0 a1 a2) := by
  (unfold execSpdmGetCapabilities; (repeat' (first | with_reducible assumption | with_reducible rfl | (simp only [only_ite, onlyO_next, hx, spdmReply_only, spdmError_only, modSpdm_only, h0, h1]; done) | split | (with_reducible refine (onlyO_next _ _ _).mpr ?_) | (with_reducible refine (only_foldl _ (fun y b => ?_) _ _).mpr ?_) | (with_reducible refine (only_foldl _ (fun y b => ?_) _ _).trans ?_) | (simp only []))); done)
theorem execSpdmNegotiateAlgorithms_only {L : List Part} {s : State} (a0 : SpdmPort) (a1 : SpdmReq) (a2 : State) (h0 : Part.out ∈ L) (h1 : Part.sec ∈ L) (hx : changesOnly L s a2) : OnlyO L s (execSpdmNegotiateAlgorithms a0 a1 a2) := by
  (unfold execSpdmNegotiateAlgorithms; (repeat' (first | with_reducible assumption | with_reducible rfl | (simp only [only_ite, ite_self, onlyO_next, hx, spdmReply_only, spdmError_only, modSpdm_only, h0, h1]; done) | split | (with_reducible refine (onlyO_next _ _ _).mpr ?_) | (with_reducible refine (only_foldl _ (fun y b => ?_) _ _).mpr ?_) | (with_reducible refine (only_foldl _ (fun y b => ?_) _ _).trans ?_) | (simp only []))); done)
theorem spdmRun_only {L : List Part} {s : State} (a0 : SpdmPort) (a1 : SpdmReq) (a2 : State → State) (a3 : State) (ga2 : ∀ x, changesOnly L s (a2 x) ↔ changesOnly L s x) (h0 : Part.out ∈ L) (hx : changesOnly L s a3) : OnlyO L s (spdmRun a0 a1 a2 a3) := by
  (unfold spdmRun; (repeat' (first | with_reducible assumption | with_reducible rfl | (simp only [only_ite, onlyO_next, hx, spdmError_only, ga2, h0]; done) | split | (with_reducible refine (onlyO_next _ _ _).mpr ?_) | (with_reducible refine (only_foldl _ (fun y b => ?_) _ _).mpr ?_) | (with_reducible refine (only_foldl _ (fun y b => ?_) _ _).trans ?_) | (simp only []))); done)
theorem execSpdmGetDigests_only {L : List Part} {s : State} (a0 : SpdmPort) (a1 : SpdmReq) (a2 : State) (h0 : Part.out ∈ L) (h1 : Part.sec ∈ L) (hx : changesOnly L s a2) : OnlyO L s (execSpdmGetDigests a0 a1 a2) := by
  (simp only [execSpdmGetDigests, iff_self, implies_true, hx, spdmReply_only, spdmRun_only, h0, h1]; done)
theorem execSpdmGetCertificate_only {L : List Part} {s : State} (a0 : SpdmPort) (a1 : SpdmReq) (a2 : State) (h0 : Part.out ∈ L) (h1 : Part.sec ∈ L) (hx : changesOnly L s a2) : OnlyO L s (execSpdmGetCertificate a0 a1 a2) := by
  (simp only [execSpdmGetCertificate, only_ite, ite_self, iff_self, implies_true, hx, spdmReply_only, spdmRun_only, spdmError_only, h0, h1]; done)
theorem execSpdmChallenge_only {L : List Part} {s : State} (a0 : SpdmPort) (a1 : SpdmReq) (a2 : State) (h0 : Part.out ∈ L) (h1 : Part.drawn ∈ L) (h2 : Part.sec ∈ L) (hx : changesOnly L s a2) : OnlyO L s (execSpdmChallenge a0 a1 a2) := by
  (simp only [execSpdmChallenge, only_ite, ite_self, iff_self, implies_true, hx, spdmReply_only, spdmRun_only, spdmError_only, drawn1_only, h0, h1, h2]; done)
theorem execSpdmGetMeasurements_only {L : List Part} {s : State} (a0 : SpdmPort) (a1 : SpdmReq) (a2 : State) (h0 : Part.out ∈ L) (h1 : Part.drawn ∈ L) (h2 : Part.sec ∈ L) (hx : changesOnly L s a2) : OnlyO L s (execSpdmGetMeasurements a0 a1 a2) := by
  (simp only [execSpdmGetMeasurements, only_ite, ite_self, iff_self, implies_true, hx, spdmReply_only, spdmRun_only, spdmError_only, drawn1_only, h0, h1, h2]; done)
theorem execSpdmUnsupportedRequest_only {L : List Part} {s : State} (a0 : SpdmPort) (a1 : SpdmReq) (a2 : State) (h0 : Part.out ∈ L) (hx : changesOnly L s a2) : OnlyO L s (execSpdmUnsupportedRequest a0 a1 a2) := by
  (simp only [execSpdmUnsupportedRequest, only_ite, ite_self, onlyO_next, hx, spdmError_only, h0]; done)
theorem execDoeDiscovery_only {L : List Part} {s : State} (a0 : HostId) (a1 : Byte) (a2 : State) (h0 : Part.out ∈ L) (hx : changesOnly L s a2) : OnlyO L s (execDoeDiscovery a0 a1 a2) := by
  (simp only [execDoeDiscovery, only_ite, ite_self, onlyO_next, hx, emit_only, h0]; done)
theorem answerPort_only {L : List Part} {s : State} (a0 : Nat) (a1 : PortMsg) (a2 : Status) (a3 : List Nat) (a4 : State) (h0 : Part.cores ∈ L) : changesOnly L s (answerPort a0 a1 a2 a3 a4) ↔ changesOnly L s a4 := by
  (simp only [answerPort, iff_self, modThread_only, h0]; done)
theorem popPort_only {L : List Part} {s : State} (a0 : Nat) (a1 : Nat) (a2 : State) (h0 : Part.cores ∈ L) : changesOnly L s (popPort a0 a1 a2) ↔ changesOnly L s a2 := by
  (simp only [popPort, iff_self, modCluster_only, h0]; done)
theorem servePort_only {L : List Part} {s : State} (a0 : Nat) (a1 : Nat) (a2 : Nat) (a3 : Nat → Bool) (a4 : Nat → Bool) (a5 : PortMsg → State → Served) (a6 : State) (h0 : Part.cores ∈ L) (hf : ∀ m x, changesOnly L s x → OnlyS L s (a5 m x)) (hx : changesOnly L s a6) : OnlyO L s (servePort a0 a1 a2 a3 a4 a5 a6) := by
  unfold servePort
  split
  · exact (onlyO_next _ _ _).mpr hx
  next m _ =>
  have hy : changesOnly L s (popPort a0 a1 a6) := by simp only [popPort_only, h0, hx]
  simp only []
  split
  · simp only [onlyO_next, answerPort_only, hy, h0]
  split
  · simp only [onlyO_next, answerPort_only, hy, h0]
  have hz := hf m _ hy
  revert hz
  cases a5 m (popPort a0 a1 a6) with
  | done st ws t => intro hz; simp only [onlyO_next, answerPort_only, h0]; exact hz
  | later t => intro hz; exact (onlyO_next _ _ _).mpr hz
  | undefined r => intro _; exact onlyO_refused _ _ _
theorem onlyS_done {L : List Part} {s : State} (st : Status) (ws : List Nat) (t : State) : OnlyS L s (.done st ws t) ↔ changesOnly L s t := Iff.rfl
theorem onlyS_later {L : List Part} {s : State} (t : State) : OnlyS L s (.later t) ↔ changesOnly L s t := Iff.rfl
theorem onlyS_undefined {L : List Part} {s : State} (r : Nat) : OnlyS L s (.undefined r) ↔ True := Iff.rfl
theorem badHod_only {L : List Part} {s : State} (port : Nat) (m : PortMsg) (h off len : Nat) (al : Bool) (x : State) (h0 : Part.out ∈ L) (h1 : Part.owner ∈ L) (h2 : Part.rings ∈ L) (h3 : Part.hosts ∈ L) (h4 : Part.fns ∈ L) (h5 : Part.violations ∈ L) (h6 : Part.counters ∈ L) : OnlyS L s (badHod port m h off len al x) ↔ changesOnly L s x := by
  simp only [badHod, onlyS_done, hodViolation_only, h0, h1, h2, h3, h4, h5, h6]
theorem withHod_only {L : List Part} {s : State} (port h : Nat) (m : PortMsg) (x : State) (f : State → Served) (h0 : Part.out ∈ L) (h1 : Part.owner ∈ L) (h2 : Part.rings ∈ L) (h3 : Part.hosts ∈ L) (h4 : Part.fns ∈ L) (h5 : Part.violations ∈ L) (h6 : Part.counters ∈ L) (hf : OnlyS L s (f x)) (hx : changesOnly L s x) : OnlyS L s (withHod port h m x f) := by
  unfold withHod
  split
  · exact (badHod_only _ _ _ _ _ _ _ h0 h1 h2 h3 h4 h5 h6).mpr hx
  · split
    · exact hf
    · trivial
theorem execHodAlloc_only {L : List Part} {s : State} (a0 : Cluster) (a1 : State) (h0 : Part.drawn ∈ L) (h1 : Part.hod ∈ L) (h2 : Part.cores ∈ L) (h3 : Part.counters ∈ L) (hx : changesOnly L s a1) : OnlyO L s (execHodAlloc a0 a1) := by
  unfold execHodAlloc
  refine servePort_only _ _ _ _ _ _ _ (by assumption) (fun m x hx => ?_) hx
  (repeat' (first | with_reducible assumption | trivial | (simp only [onlyS_done, countRefused_only, hx, h3]; done) | (with_reducible refine withHod_only _ _ _ _ _ (by assumption) (by assumption) (by assumption) (by assumption) (by assumption) (by assumption) (by assumption) ?_ (by assumption)) | (with_reducible refine withChain_only _ _ _ (by assumption) (by assumption) (by assumption) (by assumption) (by assumption) (by assumption) (by assumption) (fun hs n => ?_) (by assumption)) | (next h y e => exact (allocHods_only _ _ _ _ _ _ _ (by assumption) (by assumption) (by assumption) e).mpr hx) | split | simp only []))
theorem execHodFree_only {L : List Part} {s : State} (a0 : Cluster) (a1 : State) (h0 : Part.out ∈ L) (h1 : Part.owner ∈ L) (h2 : Part.rings ∈ L) (h3 : Part.hosts ∈ L) (h4 : Part.fns ∈ L) (h5 : Part.hod ∈ L) (h6 : Part.cores ∈ L) (h7 : Part.violations ∈ L) (h8 : Part.counters ∈ L) (hx : changesOnly L s a1) : OnlyO L s (execHodFree a0 a1) := by
  unfold execHodFree
  refine servePort_only _ _ _ _ _ _ _ (by assumption) (fun m x hx => ?_) hx
  (repeat' (first | with_reducible assumption | trivial | (simp only [onlyS_done, freeHods_only, hx, h5]; done) | (with_reducible refine withHod_only _ _ _ _ _ (by assumption) (by assumption) (by assumption) (by assumption) (by assumption) (by assumption) (by assumption) ?_ (by assumption)) | (with_reducible refine withChain_only _ _ _ (by assumption) (by assumption) (by assumption) (by assumption) (by assumption) (by assumption) (by assumption) (fun hs n => ?_) (by assumption)) |  split | simp only []))
theorem execHodLink_only {L : List Part} {s : State} (a0 : Cluster) (a1 : State) (h0 : Part.out ∈ L) (h1 : Part.owner ∈ L) (h2 : Part.rings ∈ L) (h3 : Part.hosts ∈ L) (h4 : Part.fns ∈ L) (h5 : Part.hod ∈ L) (h6 : Part.cores ∈ L) (h7 : Part.violations ∈ L) (h8 : Part.counters ∈ L) (hx : changesOnly L s a1) : OnlyO L s (execHodLink a0 a1) := by
  unfold execHodLink
  refine servePort_only _ _ _ _ _ _ _ (by assumption) (fun m x hx => ?_) hx
  (repeat' (first | with_reducible assumption | trivial | (simp only [onlyS_done, modHod_only, hx, h5]; done) | (with_reducible refine withHod_only _ _ _ _ _ (by assumption) (by assumption) (by assumption) (by assumption) (by assumption) (by assumption) (by assumption) ?_ (by assumption)) | (with_reducible refine withChain_only _ _ _ (by assumption) (by assumption) (by assumption) (by assumption) (by assumption) (by assumption) (by assumption) (fun hs n => ?_) (by assumption)) |  split | simp only []))
theorem execHodNext_only {L : List Part} {s : State} (a0 : Cluster) (a1 : State) (h0 : Part.out ∈ L) (h1 : Part.owner ∈ L) (h2 : Part.rings ∈ L) (h3 : Part.hosts ∈ L) (h4 : Part.fns ∈ L) (h5 : Part.cores ∈ L) (h6 : Part.violations ∈ L) (h7 : Part.counters ∈ L) (hx : changesOnly L s a1) : OnlyO L s (execHodNext a0 a1) := by
  unfold execHodNext
  refine servePort_only _ _ _ _ _ _ _ (by assumption) (fun m x hx => ?_) hx
  (repeat' (first | with_reducible assumption | trivial | (simp only [ ]; done) | (with_reducible refine withHod_only _ _ _ _ _ (by assumption) (by assumption) (by assumption) (by assumption) (by assumption) (by assumption) (by assumption) ?_ (by assumption)) | (with_reducible refine withChain_only _ _ _ (by assumption) (by assumption) (by assumption) (by assumption) (by assumption) (by assumption) (by assumption) (fun hs n => ?_) (by assumption)) |  split | simp only []))
theorem dmaCopy_only {L : List Part} {s : State} (a0 : Nat) (a1 : Region) (a2 : Region) (a3 : Nat) (a4 : State) (h0 : Part.hod ∈ L) (h1 : Part.cores ∈ L) (h2 : Part.dram ∈ L) : changesOnly L s (dmaCopy a0 a1 a2 a3 a4) ↔ changesOnly L s a4 := by
  (simp only [dmaCopy, only_foldl, iff_self, implies_true, writeAt_only, poisonAt_only, h0, h1, h2]; done)
theorem execDmaCopy_only {L : List Part} {s : State} (a0 : Cluster) (a1 : State) (h0 : Part.out ∈ L) (h1 : Part.owner ∈ L) (h2 : Part.rings ∈ L) (h3 : Part.hosts ∈ L) (h4 : Part.fns ∈ L) (h5 : Part.hod ∈ L) (h6 : Part.cores ∈ L) (h7 : Part.dram ∈ L) (h8 : Part.violations ∈ L) (h9 : Part.counters ∈ L) (hx : changesOnly L s a1) : OnlyO L s (execDmaCopy a0 a1) := by
  unfold execDmaCopy
  refine servePort_only _ _ _ _ _ _ _ (by assumption) (fun m x hx => ?_) hx
  (repeat' (first | with_reducible assumption | trivial | (simp only [onlyS_done, badHod_only, dmaCopy_only, hx, h0, h1, h2, h3, h4, h5, h6, h7, h8, h9]; done) | (with_reducible refine withHod_only _ _ _ _ _ (by assumption) (by assumption) (by assumption) (by assumption) (by assumption) (by assumption) (by assumption) ?_ (by assumption)) | (with_reducible refine withChain_only _ _ _ (by assumption) (by assumption) (by assumption) (by assumption) (by assumption) (by assumption) (by assumption) (fun hs n => ?_) (by assumption)) |  split | simp only []))
theorem tableCmd_only {L : List Part} {s : State} {n : Nat} {d : CmdDef} (h0 : Part.drawn ∈ L) (h1 : Part.tables ∈ L) (e : tableCmd n = some d) : DefOnly L s d := by
  revert e
  unfold tableCmd
  split <;> intro e <;> first | (injection e with e; rw [← e]; first | exact classActionWriteDef_only h1 | exact emInsertDef_only h1 | exact emUpdateDef_only h1 | exact emDeleteDef_only h1 | exact emLookupDef_only | exact lpmAddDef_only h0 h1 | exact lpmDeleteDef_only h0 h1 | exact lpmLookupDef_only) | contradiction
theorem execTableRequest_only {L : List Part} {s : State} (a0 : Cluster) (a1 : State) (h0 : Part.drawn ∈ L) (h1 : Part.tables ∈ L) (h2 : Part.hod ∈ L) (h3 : Part.cores ∈ L) (h4 : Part.dram ∈ L) (hx : changesOnly L s a1) : OnlyO L s (execTableRequest a0 a1) := by
  unfold execTableRequest
  refine servePort_only _ _ _ _ _ _ _ (by assumption) (fun m x hx => ?_) hx
  simp only []
  split
  · exact hx
  next d e =>
  have hd := fun o p y => (tableCmd_only (s := s) h0 h1 e o p y).1
  (repeat' (first | with_reducible assumption | (simp only [onlyS_done, hd, writeAt_only, hx, h2, h3, h4]; done) | split | simp only []))
theorem withChain_only {L : List Part} {s : State} (m : PortMsg) (x : State) (f : List Nat → Nat → Served) (h0 : Part.out ∈ L) (h1 : Part.owner ∈ L) (h2 : Part.rings ∈ L) (h3 : Part.hosts ∈ L) (h4 : Part.fns ∈ L) (h5 : Part.violations ∈ L) (h6 : Part.counters ∈ L) (hf : ∀ hs n, OnlyS L s (f hs n)) (hx : changesOnly L s x) : OnlyS L s (withChain m x f) := by
  have hb := fun m h o n a => (badHod_only (L := L) (s := s) 4 m h o n a x h0 h1 h2 h3 h4 h5 h6).mpr hx
  unfold withChain
  simp only []
  repeat' split
  · exact hx
  · exact hb _ _ _ _ _
  · trivial
  · exact hb _ _ _ _ _
  · exact hf _ _
theorem execEmitPort_only {L : List Part} {s : State} (a0 : Cluster) (a1 : State) (h0 : Part.out ∈ L) (h1 : Part.owner ∈ L) (h2 : Part.rings ∈ L) (h3 : Part.hosts ∈ L) (h4 : Part.fns ∈ L) (h5 : Part.queues ∈ L) (h6 : Part.hod ∈ L) (h7 : Part.sched ∈ L) (h8 : Part.cores ∈ L) (h9 : Part.violations ∈ L) (h10 : Part.counters ∈ L) (hx : changesOnly L s a1) : OnlyO L s (execEmitPort a0 a1) := by
  unfold execEmitPort
  refine servePort_only _ _ _ _ _ _ _ (by assumption) (fun m x hx => ?_) hx
  simp only []
  split
  · exact hx
  refine withChain_only _ _ _ h0 h1 h2 h3 h4 h9 h10 (fun hs n => ?_) hx
  split
  · simp only [onlyS_done, countRefused_only, hx, h10]
  · next y e =>
    have hy := (chargeAll_only _ _ _ _ _ h6 e).mpr hx
    split <;> simp only [onlyS_done, forwardTo_only, dropLinkDown_only, hy, h0, h3, h4, h5, h6, h7, h10]
theorem emitHost_only {L : List Part} {s : State} (a0 : HostId) (a1 : Fn) (a2 : List Nat) (a3 : FieldVec) (a4 : Pkt) (a5 : State) (h0 : Part.hod ∈ L) (h1 : Part.sched ∈ L) (h2 : Part.net ∈ L) (h3 : Part.counters ∈ L) : changesOnly L s (emitHost a0 a1 a2 a3 a4 a5) ↔ changesOnly L s a5 := by
  unfold emitHost
  simp only []
  split; · simp only [freeHods_only, count_only, h0, h3]
  split
  · next e => exact Iff.trans (by simp only [freeHods_only, count_only, h0, h3]) (pair_only e (by simp only [spreadStage_only, h2]))
  · next e => exact Iff.trans (by simp only [only_ite, ite_self, toLeaf_only, freeHods_only, count_only, h0, h1, h3]) (pair_only e (by simp only [spreadStage_only, h2]))
theorem execEmitHost_only {L : List Part} {s : State} (a0 : Cluster) (a1 : State) (h0 : Part.out ∈ L) (h1 : Part.owner ∈ L) (h2 : Part.rings ∈ L) (h3 : Part.hosts ∈ L) (h4 : Part.fns ∈ L) (h5 : Part.hod ∈ L) (h6 : Part.sched ∈ L) (h7 : Part.net ∈ L) (h8 : Part.cores ∈ L) (h9 : Part.violations ∈ L) (h10 : Part.counters ∈ L) (hx : changesOnly L s a1) : OnlyO L s (execEmitHost a0 a1) := by
  unfold execEmitHost
  refine servePort_only _ _ _ _ _ _ _ (by assumption) (fun m x hx => ?_) hx
  (repeat' (first | with_reducible assumption | trivial | (simp only [onlyS_done, countRefused_only, emitHost_only, hx, h5, h6, h7, h10]; done) | (with_reducible refine withHod_only _ _ _ _ _ (by assumption) (by assumption) (by assumption) (by assumption) (by assumption) (by assumption) (by assumption) ?_ (by assumption)) | (with_reducible refine withChain_only _ _ _ (by assumption) (by assumption) (by assumption) (by assumption) (by assumption) (by assumption) (by assumption) (fun hs n => ?_) (by assumption)) | (have hy := (chargeAll_only _ _ _ _ _ (by assumption) ‹chargeAll _ _ _ _ = .ok _›).mpr hx; simp only [onlyS_done, emitHost_only, hy, h5, h6, h7, h10]; done) | split | simp only []))
theorem execPuntRecv_only {L : List Part} {s : State} (a0 : Cluster) (a1 : State) (h0 : Part.cores ∈ L) (hx : changesOnly L s a1) : OnlyO L s (execPuntRecv a0 a1) := by
  unfold execPuntRecv
  refine servePort_only _ _ _ _ _ _ _ (by assumption) (fun m x hx => ?_) hx
  (repeat' (first | with_reducible assumption | trivial | (simp only [onlyS_later, modCluster_only, hx, h0]; done) | (with_reducible refine withHod_only _ _ _ _ _ (by assumption) (by assumption) (by assumption) (by assumption) (by assumption) (by assumption) (by assumption) ?_ (by assumption)) | (with_reducible refine withChain_only _ _ _ (by assumption) (by assumption) (by assumption) (by assumption) (by assumption) (by assumption) (by assumption) (fun hs n => ?_) (by assumption)) |  split | simp only []))
theorem execPuntCancel_only {L : List Part} {s : State} (a0 : Cluster) (a1 : State) (h0 : Part.cores ∈ L) (hx : changesOnly L s a1) : OnlyO L s (execPuntCancel a0 a1) := by
  unfold execPuntCancel
  refine servePort_only _ _ _ _ _ _ _ (by assumption) (fun m x hx => ?_) hx
  (repeat' (first | with_reducible assumption | trivial | (simp only [onlyS_done]; done) | (with_reducible refine withHod_only _ _ _ _ _ (by assumption) (by assumption) (by assumption) (by assumption) (by assumption) (by assumption) (by assumption) ?_ (by assumption)) | (with_reducible refine withChain_only _ _ _ (by assumption) (by assumption) (by assumption) (by assumption) (by assumption) (by assumption) (by assumption) (fun hs n => ?_) (by assumption)) | ((with_reducible refine (onlyS_done _ _ _).mpr ?_); (with_reducible refine (only_foldl _ (fun y b => ?_) _ _).mpr ?_) <;> simp only [answerPort_only, modCluster_only, hx, h0]; done) | split | simp only []))
theorem execPuntDelivery_only {L : List Part} {s : State} (a0 : Cluster) (a1 : State) (h0 : Part.hod ∈ L) (h1 : Part.cores ∈ L) (h2 : Part.dram ∈ L) (h3 : Part.counters ∈ L) (hx : changesOnly L s a1) : OnlyO L s (execPuntDelivery a0 a1) := by
  (unfold execPuntDelivery; (repeat' (first | with_reducible assumption | with_reducible rfl | (simp only [only_ite, onlyO_next, hx, modCluster_only, writeAt_only, answerPort_only, countCore_only, h0, h1, h2, h3]; done) | split | (with_reducible refine (onlyO_next _ _ _).mpr ?_) | (with_reducible refine (only_foldl _ (fun y b => ?_) _ _).mpr ?_) | (with_reducible refine (only_foldl _ (fun y b => ?_) _ _).trans ?_) | (simp only []))); done)
theorem storeChain_only {L : List Part} {s : State} (a0 : List Nat) (a1 : Nat) (a2 : List Byte) (a3 : State) (h0 : Part.hod ∈ L) : changesOnly L s (storeChain a0 a1 a2 a3) ↔ changesOnly L s a3 := by
  induction a0 generalizing a1 a2 a3 with
  | nil => exact Iff.rfl
  | cons h r ih =>
    unfold storeChain
    simp only [only_ite, ite_self, ih, modHod_only, h0]
theorem modTile_only {L : List Part} {s : State} (a0 : Fin 4) (a1 : LaTile → LaTile) (a2 : State) (h0 : Part.crypt ∈ L) : changesOnly L s (modTile a0 a1 a2) ↔ changesOnly L s a2 := by
  (simp only [modTile, iff_self, modCrypt_only, h0]; done)
theorem countTile_only {L : List Part} {s : State} (a0 : Fin 4) (a1 : Nat) (a2 : Nat) (a3 : State) (h0 : Part.counters ∈ L) : changesOnly L s (countTile a0 a1 a2 a3) ↔ changesOnly L s a3 := by
  (simp only [countTile, iff_self, count_only, h0]; done)
theorem answerJob_only {L : List Part} {s : State} (a0 : LaJob) (a1 : Status) (a2 : Nat) (a3 : Bool) (a4 : State) (h0 : Part.cores ∈ L) : changesOnly L s (answerJob a0 a1 a2 a3 a4) ↔ changesOnly L s a4 := by
  (simp only [answerJob, iff_self, answerPort_only, h0]; done)
theorem beginLa_only {L : List Part} {s : State} (a0 : Fin 4) (a1 : State) (h0 : Part.crypt ∈ L) (h1 : Part.cores ∈ L) (h2 : Part.counters ∈ L) : changesOnly L s (beginLa a0 a1) ↔ changesOnly L s a1 := by
  (fun_cases beginLa a0 a1 <;> (simp +zetaDelta only [iff_self, answerJob_only, modTile_only, countTile_only, h0, h1, h2]; done))
theorem resumeLa_only {L : List Part} {s : State} (a0 : Fin 4) (a1 : LaJob) (a2 : State) (h0 : Part.crypt ∈ L) (h1 : Part.cores ∈ L) (h2 : Part.counters ∈ L) : changesOnly L s (resumeLa a0 a1 a2) ↔ changesOnly L s a2 := by
  (simp only [resumeLa, iff_self, only_ite, ite_self, answerJob_only, modTile_only, countTile_only, h0, h1, h2]; done)
theorem startLa_only {L : List Part} {s : State} (a0 : Fin 4) (a1 : Nat) (a2 : State) (h0 : Part.crypt ∈ L) (h1 : Part.cores ∈ L) (h2 : Part.counters ∈ L) : changesOnly L s (startLa a0 a1 a2) ↔ changesOnly L s a2 := by
  induction a1 generalizing a2 with
  | zero => exact Iff.rfl
  | succ n ih =>
    unfold startLa
    simp only []
    split; · exact Iff.rfl
    split <;> simp only [only_ite, ite_self, ih, beginLa_only, resumeLa_only, h0, h1, h2]
theorem goLa_only {L : List Part} {s : State} (a0 : Fin 4) (a1 : State) (h0 : Part.crypt ∈ L) (h1 : Part.cores ∈ L) (h2 : Part.counters ∈ L) : changesOnly L s (goLa a0 a1) ↔ changesOnly L s a1 := by
  (simp only [goLa, iff_self, startLa_only, h0, h1, h2]; done)
theorem execLookasideJob_only {L : List Part} {s : State} (a0 : Cluster) (a1 : State) (h0 : Part.out ∈ L) (h1 : Part.owner ∈ L) (h2 : Part.rings ∈ L) (h3 : Part.hosts ∈ L) (h4 : Part.fns ∈ L) (h5 : Part.crypt ∈ L) (h6 : Part.cores ∈ L) (h7 : Part.violations ∈ L) (h8 : Part.counters ∈ L) (hx : changesOnly L s a1) : OnlyO L s (execLookasideJob a0 a1) := by
  unfold execLookasideJob
  refine servePort_only _ _ _ _ _ _ _ (by assumption) (fun m x hx => ?_) hx
  (repeat' (first | with_reducible assumption | trivial | (simp only [onlyS_done, onlyS_later, badHod_only, countTile_only, goLa_only, modTile_only, hx, h0, h1, h2, h3, h4, h5, h6, h7, h8]; done) | (with_reducible refine withHod_only _ _ _ _ _ (by assumption) (by assumption) (by assumption) (by assumption) (by assumption) (by assumption) (by assumption) ?_ (by assumption)) | (with_reducible refine withChain_only _ _ _ (by assumption) (by assumption) (by assumption) (by assumption) (by assumption) (by assumption) (by assumption) (fun hs n => ?_) (by assumption)) |  split | simp only []))
theorem execLookasideJobDone_only {L : List Part} {s : State} (a0 : Fin 4) (a1 : State) (h0 : Part.hod ∈ L) (h1 : Part.crypt ∈ L) (h2 : Part.cores ∈ L) (h3 : Part.counters ∈ L) (hx : changesOnly L s a1) : OnlyO L s (execLookasideJobDone a0 a1) := by
  (unfold execLookasideJobDone; (repeat' (first | with_reducible assumption | with_reducible rfl | (simp only [only_ite, ite_self, onlyO_next, hx, answerJob_only, goLa_only, modTile_only, countTile_only, storeChain_only, h0, h1, h2, h3]; done) | split | (with_reducible refine (onlyO_next _ _ _).mpr ?_) | (with_reducible refine (only_foldl _ (fun y b => ?_) _ _).mpr ?_) | (with_reducible refine (only_foldl _ (fun y b => ?_) _ _).trans ?_) | (simp only []))); done)
theorem execLookasideSuspend_only {L : List Part} {s : State} (a0 : Fin 4) (a1 : State) (h0 : Part.drawn ∈ L) (h1 : Part.hod ∈ L) (h2 : Part.crypt ∈ L) (h3 : Part.cores ∈ L) (h4 : Part.counters ∈ L) (hx : changesOnly L s a1) : OnlyO L s (execLookasideSuspend a0 a1) := by
  (unfold execLookasideSuspend; (repeat' (first | with_reducible assumption | with_reducible rfl | (simp only [only_ite, ite_self, onlyO_next, hx, drawn1_only, goLa_only, modTile_only, countTile_only, storeChain_only, h0, h1, h2, h3, h4]; done) | split | (with_reducible refine (onlyO_next _ _ _).mpr ?_) | (with_reducible refine (only_foldl _ (fun y b => ?_) _ _).mpr ?_) | (with_reducible refine (only_foldl _ (fun y b => ?_) _ _).trans ?_) | (simp only []))); done)
theorem execPageFetchDone_only {L : List Part} {s : State} (a0 : Fin 4) (a1 : Nat) (a2 : List Byte) (a3 : Bool) (a4 : State) (h0 : Part.crypt ∈ L) (h1 : Part.cores ∈ L) (h2 : Part.counters ∈ L) (hx : changesOnly L s a4) : OnlyO L s (execPageFetchDone a0 a1 a2 a3 a4) := by
  (unfold execPageFetchDone; (repeat' (first | with_reducible assumption | with_reducible rfl | (simp only [only_ite, ite_self, onlyO_next, hx, modCrypt_only, answerJob_only, goLa_only, modTile_only, countTile_only, count_only, h0, h1, h2]; done) | split | (with_reducible refine (onlyO_next _ _ _).mpr ?_) | (with_reducible refine (only_foldl _ (fun y b => ?_) _ _).mpr ?_) | (with_reducible refine (only_foldl _ (fun y b => ?_) _ _).trans ?_) | (simp only []))); done)
theorem fillMem_only {L : List Part} {s : State} (a0 : Nat) (a1 : List Byte) (a2 : State) (h0 : Part.cores ∈ L) : changesOnly L s (fillMem a0 a1 a2) ↔ changesOnly L s a2 := by
  (simp only [fillMem, iff_self, writeMem_only, modCores_only, h0]; done)
theorem dropBps_only {L : List Part} {s : State} (a0 : Nat) (a1 : State) (h0 : Part.cores ∈ L) : changesOnly L s (dropBps a0 a1) ↔ changesOnly L s a1 := by
  (simp only [dropBps, iff_self, modCore_only, h0]; done)
theorem loadCluster_only {L : List Part} {s : State} (a0 : Nat) (a1 : ProgramImage) (a2 : Fin 16) (a3 : State) (h0 : Part.cores ∈ L) : changesOnly L s (loadCluster a0 a1 a2 a3) ↔ changesOnly L s a3 := by
  (simp only [loadCluster, only_foldl, iff_self, implies_true, dropBps_only, modCluster_only, fillMem_only, h0]; done)
theorem programLoadStep_only {L : List Part} {s : State} (a0 : LongOp) (a1 : Nat) (a2 : Nat) (a3 : Nat) (a4 : State) (h0 : Part.out ∈ L) (h1 : Part.owner ∈ L) (h2 : Part.rings ∈ L) (h3 : Part.ops ∈ L) (h4 : Part.hosts ∈ L) (h5 : Part.fns ∈ L) (h6 : Part.cores ∈ L) : changesOnly L s (programLoadStep a0 a1 a2 a3 a4) ↔ changesOnly L s a4 := by
  (fun_cases programLoadStep a0 a1 a2 a3 a4 <;> (simp +zetaDelta only [iff_self, opDone_only, loadCluster_only, putOp_only, h0, h1, h2, h3, h4, h5, h6]; done))
theorem startCore_only {L : List Part} {s : State} (a0 : Nat) (a1 : Nat) (a2 : Nat) (a3 : Nat) (a4 : State) (h0 : Part.cores ∈ L) : changesOnly L s (startCore a0 a1 a2 a3 a4) ↔ changesOnly L s a4 := by
  (simp only [startCore, iff_self, modCore_only, h0]; done)
theorem startCluster_only {L : List Part} {s : State} (a0 : Nat) (a1 : Nat) (a2 : Fin 16) (a3 : State) (h0 : Part.cores ∈ L) : changesOnly L s (startCluster a0 a1 a2 a3) ↔ changesOnly L s a3 := by
  (simp only [startCluster, only_foldl, iff_self, implies_true, modCluster_only, startCore_only, h0]; done)
theorem orphanRequests_only {L : List Part} {s : State} (a0 : Fin 16) (a1 : State) (h0 : Part.crypt ∈ L) (h1 : Part.cores ∈ L) : changesOnly L s (orphanRequests a0 a1) ↔ changesOnly L s a1 := by
  (simp only [orphanRequests, iff_self, modCrypt_only, modCluster_only, h0, h1]; done)
theorem stopCluster_only {L : List Part} {s : State} (a0 : Fin 16) (a1 : State) (h0 : Part.hod ∈ L) (h1 : Part.crypt ∈ L) (h2 : Part.cores ∈ L) (h3 : Part.dram ∈ L) (h4 : Part.counters ∈ L) : changesOnly L s (stopCluster a0 a1) ↔ changesOnly L s a1 := by
  unfold stopCluster
  simp only []
  have hf : ∀ (l : List Nat) y, changesOnly L s (l.foldl (fun s ck => modCore ck (fun c => { c with threads := [] }) ((threadsOf s ck).foldl (fun s t => drainAll ck t s) s)) y) ↔ changesOnly L s y := by
    intro l y
    refine only_foldl _ (fun y b => ?_) _ _
    rw [modCore_only]
    · exact only_foldl _ (fun y b => by simp only [drainAll_only, h0, h2, h3]) _ _
    · assumption
  have hg : ∀ (l : List Punt) y, changesOnly L s (l.foldl (fun s (u : Punt) => freeHods u.pkt.hods s) y) ↔ changesOnly L s y := fun l y => only_foldl _ (fun y b => by simp only [freeHods_only, h0]) _ _
  simp only [modCluster_only, orphanRequests_only, count_only, hf, hg, h1, h2, h4]
theorem stopClusters_only {L : List Part} {s : State} (a0 : State) (h0 : Part.hod ∈ L) (h1 : Part.crypt ∈ L) (h2 : Part.cores ∈ L) (h3 : Part.dram ∈ L) (h4 : Part.counters ∈ L) : changesOnly L s (stopClusters a0) ↔ changesOnly L s a0 := by
  (simp only [stopClusters, only_foldl, iff_self, implies_true, stopCluster_only, h0, h1, h2, h3, h4]; done)
theorem unloadCluster_only {L : List Part} {s : State} (a0 : Fin 16) (a1 : State) (h0 : Part.cores ∈ L) : changesOnly L s (unloadCluster a0 a1) ↔ changesOnly L s a1 := by
  (simp only [unloadCluster, only_foldl, iff_self, implies_true, dropBps_only, modCores_only, modCluster_only, h0]; done)
theorem grant_only {L : List Part} {s : State} (a0 : Nat) (a1 : Nat) (a2 : Nat) (a3 : State) (h0 : Part.cores ∈ L) : changesOnly L s (grant a0 a1 a2 a3) ↔ changesOnly L s a3 := by
  (simp only [grant, iff_self, modCores_only, h0]; done)
theorem programLoadDef_only {L : List Part} {s : State}  (h0 : Part.drawn ∈ L) (h1 : Part.ops ∈ L) (h2 : Part.sec ∈ L) : DefOnly L s programLoadDef := by
  intro o p y; simp only [programLoadDef]; (repeat' (first | with_reducible rfl | (simp only [extend_only, h2]; done) | with_reducible refine onlyA_reply _ _ _ _ _ ?_ | with_reducible refine onlyA_replyLong _ _ _ _ _ ?_ | with_reducible refine onlyA_startOp _ _ _ _ _ _ _ _ _ (by assumption) (by assumption) ?_ | with_reducible refine onlyA_mk _ _ _ _ _ _ _ _ ?_ | split | (with_reducible refine (only_foldl _ (fun y b => ?_) _ _).trans ?_) | (refine ⟨?_, fun z => ?_⟩) | (simp only [])))
theorem execProgramLoad_only {L : List Part} {s : State} (a0 : Packet) (a1 : State) (h0 : Part.fenced ∈ L) (h1 : Part.out ∈ L) (h2 : Part.drawn ∈ L) (h3 : Part.owner ∈ L) (h4 : Part.rings ∈ L) (h5 : Part.ops ∈ L) (h6 : Part.hosts ∈ L) (h7 : Part.fns ∈ L) (h8 : Part.sec ∈ L) (hx : changesOnly L s a1) : OnlyO L s (execProgramLoad a0 a1) := by
  (simp only [execProgramLoad, onlyO_next, hx, runCmd_only, programLoadDef_only, h0, h1, h2, h3, h4, h5, h6, h7, h8]; done)
theorem programStartDef_only {L : List Part} {s : State}  (h0 : Part.cores ∈ L) : DefOnly L s programStartDef := by
  intro o p y; simp only [programStartDef]; (repeat' (first | with_reducible rfl | (simp only [startCluster_only, h0]; done) | with_reducible refine onlyA_reply _ _ _ _ _ ?_ | with_reducible refine onlyA_replyLong _ _ _ _ _ ?_ | with_reducible refine onlyA_startOp _ _ _ _ _ _ _ _ _ (by assumption) (by assumption) ?_ | with_reducible refine onlyA_mk _ _ _ _ _ _ _ _ ?_ | split | (with_reducible refine (only_foldl _ (fun y b => ?_) _ _).trans ?_) | (refine ⟨?_, fun z => ?_⟩) | (simp only [])))
theorem execProgramStart_only {L : List Part} {s : State} (a0 : Packet) (a1 : State) (h0 : Part.fenced ∈ L) (h1 : Part.out ∈ L) (h2 : Part.owner ∈ L) (h3 : Part.rings ∈ L) (h4 : Part.hosts ∈ L) (h5 : Part.fns ∈ L) (h6 : Part.cores ∈ L) (hx : changesOnly L s a1) : OnlyO L s (execProgramStart a0 a1) := by
  (simp only [execProgramStart, onlyO_next, hx, runCmd_only, programStartDef_only, h0, h1, h2, h3, h4, h5, h6]; done)
theorem programStopDef_only {L : List Part} {s : State}  (h0 : Part.hod ∈ L) (h1 : Part.crypt ∈ L) (h2 : Part.cores ∈ L) (h3 : Part.dram ∈ L) (h4 : Part.counters ∈ L) : DefOnly L s programStopDef := by
  intro o p y; simp only [programStopDef]; (repeat' (first | with_reducible rfl | (simp only [only_ite, dropBps_only, stopCluster_only, unloadCluster_only, h0, h1, h2, h3, h4]; done) | with_reducible refine onlyA_reply _ _ _ _ _ ?_ | with_reducible refine onlyA_replyLong _ _ _ _ _ ?_ | with_reducible refine onlyA_startOp _ _ _ _ _ _ _ _ _ (by assumption) (by assumption) ?_ | with_reducible refine onlyA_mk _ _ _ _ _ _ _ _ ?_ | split | (with_reducible refine (only_foldl _ (fun y b => ?_) _ _).trans ?_) | (refine ⟨?_, fun z => ?_⟩) | (simp only [])))
theorem execProgramStop_only {L : List Part} {s : State} (a0 : Packet) (a1 : State) (h0 : Part.fenced ∈ L) (h1 : Part.out ∈ L) (h2 : Part.owner ∈ L) (h3 : Part.rings ∈ L) (h4 : Part.hosts ∈ L) (h5 : Part.fns ∈ L) (h6 : Part.hod ∈ L) (h7 : Part.crypt ∈ L) (h8 : Part.cores ∈ L) (h9 : Part.dram ∈ L) (h10 : Part.counters ∈ L) (hx : changesOnly L s a1) : OnlyO L s (execProgramStop a0 a1) := by
  (simp only [execProgramStop, onlyO_next, hx, runCmd_only, programStopDef_only, h0, h1, h2, h3, h4, h5, h6, h7, h8, h9, h10]; done)
theorem channelGrantDef_only {L : List Part} {s : State}  (h0 : Part.cores ∈ L) : DefOnly L s channelGrantDef := by
  intro o p y; simp only [channelGrantDef]; (repeat' (first | with_reducible rfl | (simp only [grant_only, h0]; done) | with_reducible refine onlyA_reply _ _ _ _ _ ?_ | with_reducible refine onlyA_replyLong _ _ _ _ _ ?_ | with_reducible refine onlyA_startOp _ _ _ _ _ _ _ _ _ (by assumption) (by assumption) ?_ | with_reducible refine onlyA_mk _ _ _ _ _ _ _ _ ?_ | split | (with_reducible refine (only_foldl _ (fun y b => ?_) _ _).trans ?_) | (refine ⟨?_, fun z => ?_⟩) | (simp only [])))
theorem execChannelGrant_only {L : List Part} {s : State} (a0 : Packet) (a1 : State) (h0 : Part.fenced ∈ L) (h1 : Part.out ∈ L) (h2 : Part.owner ∈ L) (h3 : Part.rings ∈ L) (h4 : Part.hosts ∈ L) (h5 : Part.fns ∈ L) (h6 : Part.cores ∈ L) (hx : changesOnly L s a1) : OnlyO L s (execChannelGrant a0 a1) := by
  (simp only [execChannelGrant, onlyO_next, hx, runCmd_only, channelGrantDef_only, h0, h1, h2, h3, h4, h5, h6]; done)
theorem coreStatusDef_only {L : List Part} {s : State}   : DefOnly L s coreStatusDef := by
  intro o p y; simp only [coreStatusDef]; (repeat' (first | with_reducible rfl | (simp only [only_ite, ite_self, onlyA_ite, replyLong_only]; done) | with_reducible refine onlyA_reply _ _ _ _ _ ?_ | with_reducible refine onlyA_replyLong _ _ _ _ _ ?_ | with_reducible refine onlyA_startOp _ _ _ _ _ _ _ _ _ (by assumption) (by assumption) ?_ | with_reducible refine onlyA_mk _ _ _ _ _ _ _ _ ?_ | split | (with_reducible refine (only_foldl _ (fun y b => ?_) _ _).trans ?_) | (refine ⟨?_, fun z => ?_⟩) | (simp only [])))
theorem execCoreStatus_only {L : List Part} {s : State} (a0 : Packet) (a1 : State) (h0 : Part.fenced ∈ L) (h1 : Part.out ∈ L) (h2 : Part.owner ∈ L) (h3 : Part.rings ∈ L) (h4 : Part.hosts ∈ L) (h5 : Part.fns ∈ L) (hx : changesOnly L s a1) : OnlyO L s (execCoreStatus a0 a1) := by
  (simp only [execCoreStatus, onlyO_next, hx, runCmd_only, coreStatusDef_only, h0, h1, h2, h3, h4, h5]; done)
theorem watchdogSetDef_only {L : List Part} {s : State}  (h0 : Part.cores ∈ L) : DefOnly L s watchdogSetDef := by
  intro o p y; simp only [watchdogSetDef]; (repeat' (first | with_reducible rfl | (simp only [modCore_only, h0]; done) | with_reducible refine onlyA_reply _ _ _ _ _ ?_ | with_reducible refine onlyA_replyLong _ _ _ _ _ ?_ | with_reducible refine onlyA_startOp _ _ _ _ _ _ _ _ _ (by assumption) (by assumption) ?_ | with_reducible refine onlyA_mk _ _ _ _ _ _ _ _ ?_ | split | (with_reducible refine (only_foldl _ (fun y b => ?_) _ _).trans ?_) | (refine ⟨?_, fun z => ?_⟩) | (simp only [])))
theorem execWatchdogSet_only {L : List Part} {s : State} (a0 : Packet) (a1 : State) (h0 : Part.fenced ∈ L) (h1 : Part.out ∈ L) (h2 : Part.owner ∈ L) (h3 : Part.rings ∈ L) (h4 : Part.hosts ∈ L) (h5 : Part.fns ∈ L) (h6 : Part.cores ∈ L) (hx : changesOnly L s a1) : OnlyO L s (execWatchdogSet a0 a1) := by
  (simp only [execWatchdogSet, onlyO_next, hx, runCmd_only, watchdogSetDef_only, h0, h1, h2, h3, h4, h5, h6]; done)

end Sys2Proof.Machine
end

