-- ==== Sys2Proof/Laws/FrameUnits.lean ====
section
/-! SUPPORT. FrameUnits.lean: what each definition of the machine may change, for the memory channels, the electrical unit, BIST and the host links: one lemma `<name>_only` for each, which names the parts of the state it touches. -/

set_option linter.all false

namespace Sys2Proof.Machine
open Sys2Proof

theorem countDram_only {L : List Part} {s : State} (a0 : Nat) (a1 : Nat) (a2 : State) (h0 : Part.counters ∈ L) : changesOnly L s (countDram a0 a1 a2) ↔ changesOnly L s a2 := by
  (simp only [countDram, iff_self, count_only, h0]; done)
theorem acceptDram_only {L : List Part} {s : State} (a0 : Nat) (a1 : DramWait) (a2 : State) (h0 : Part.cores ∈ L) (h1 : Part.dram ∈ L) (h2 : Part.counters ∈ L) : changesOnly L s (acceptDram a0 a1 a2) ↔ changesOnly L s a2 := by
  (fun_cases acceptDram a0 a1 a2 <;> (simp +zetaDelta only [iff_self, modDram_only, modChan_only, countDram_only, cleanPoison_only, h0, h1, h2]; done))
theorem execDramRequest_only {L : List Part} {s : State} (a0 : DramReq) (a1 : State) (h0 : Part.out ∈ L) (h1 : Part.cores ∈ L) (h2 : Part.dram ∈ L) (h3 : Part.counters ∈ L) (hx : changesOnly L s a1) : OnlyO L s (execDramRequest a0 a1) := by
  (unfold execDramRequest; (repeat' (first | with_reducible assumption | with_reducible rfl | (simp only [only_ite, ite_self, onlyO_next, hx, modChan_only, emit_only, acceptDram_only, h0, h1, h2, h3]; done) | split | (with_reducible refine (onlyO_next _ _ _).mpr ?_) | (with_reducible refine (only_foldl _ (fun y b => ?_) _ _).mpr ?_) | (with_reducible refine (only_foldl _ (fun y b => ?_) _ _).trans ?_) | (simp only []))); done)
theorem takeWaiting_only {L : List Part} {s : State} (a0 : Nat) (a1 : State) (h0 : Part.cores ∈ L) (h1 : Part.dram ∈ L) (h2 : Part.counters ∈ L) : changesOnly L s (takeWaiting a0 a1) ↔ changesOnly L s a1 := by
  (fun_cases takeWaiting a0 a1 <;> (simp +zetaDelta only [iff_self, modChan_only, acceptDram_only, h0, h1, h2]; done))
theorem noteRow_only {L : List Part} {s : State} (a0 : Nat) (a1 : Nat) (a2 : Nat) (a3 : Bool) (a4 : State) (h0 : Part.dram ∈ L) : changesOnly L s (noteRow a0 a1 a2 a3 a4) ↔ changesOnly L s a4 := by
  (simp only [noteRow, iff_self, modChan_only, h0]; done)
theorem poisonDram_only {L : List Part} {s : State} (a0 : Nat) (a1 : Nat) (a2 : Nat) (a3 : State) (h0 : Part.cores ∈ L) (h1 : Part.dram ∈ L) (h2 : Part.counters ∈ L) : changesOnly L s (poisonDram a0 a1 a2 a3) ↔ changesOnly L s a3 := by
  (simp only [poisonDram, iff_self, noteRow_only, countDram_only, poisonAt_only, h0, h1, h2]; done)
theorem correctDram_only {L : List Part} {s : State} (a0 : Nat) (a1 : Nat) (a2 : Nat) (a3 : State) (h0 : Part.dram ∈ L) (h1 : Part.counters ∈ L) : changesOnly L s (correctDram a0 a1 a2 a3) ↔ changesOnly L s a3 := by
  (simp only [correctDram, iff_self, noteRow_only, countDram_only, h0, h1]; done)
theorem countLate_only {L : List Part} {s : State} (a0 : DramWait) (a1 : State) (h0 : Part.counters ∈ L) : changesOnly L s (countLate a0 a1) ↔ changesOnly L s a1 := by
  (simp only [countLate, iff_self, only_ite, ite_self, count_only, h0]; done)
theorem answerDram_only {L : List Part} {s : State} (a0 : Nat) (a1 : DramWait) (a2 : Bool) (a3 : State) (h0 : Part.out ∈ L) (h1 : Part.cores ∈ L) (h2 : Part.dram ∈ L) (h3 : Part.counters ∈ L) : changesOnly L s (answerDram a0 a1 a2 a3) ↔ changesOnly L s a3 := by
  (simp only [answerDram, iff_self, countLate_only, emit_only, takeWaiting_only, h0, h1, h2, h3]; done)
theorem execDramReadEcc_only {L : List Part} {s : State} (a0 : DramCh) (a1 : DWord) (a2 : EccResult) (a3 : State) (h0 : Part.out ∈ L) (h1 : Part.cores ∈ L) (h2 : Part.dram ∈ L) (h3 : Part.counters ∈ L) (hx : changesOnly L s a3) : OnlyO L s (execDramReadEcc a0 a1 a2 a3) := by
  (unfold execDramReadEcc; (repeat' (first | with_reducible assumption | with_reducible rfl | (simp only [only_ite, ite_self, onlyO_next, hx, correctDram_only, modChan_only, countDram_only, answerDram_only, poisonDram_only, h0, h1, h2, h3]; done) | split | (with_reducible refine (onlyO_next _ _ _).mpr ?_) | (with_reducible refine (only_foldl _ (fun y b => ?_) _ _).mpr ?_) | (with_reducible refine (only_foldl _ (fun y b => ?_) _ _).trans ?_) | (simp only []))); done)
theorem execPatrolScrub_only {L : List Part} {s : State} (a0 : DramCh) (a1 : DWord) (a2 : EccResult) (a3 : State) (h0 : Part.cores ∈ L) (h1 : Part.dram ∈ L) (h2 : Part.counters ∈ L) (hx : changesOnly L s a3) : OnlyO L s (execPatrolScrub a0 a1 a2 a3) := by
  (unfold execPatrolScrub; (repeat' (first | with_reducible assumption | with_reducible rfl | (simp only [only_ite, onlyO_next, hx, correctDram_only, modChan_only, countDram_only, poisonDram_only, h0, h1, h2]; done) | split | (with_reducible refine (onlyO_next _ _ _).mpr ?_) | (with_reducible refine (only_foldl _ (fun y b => ?_) _ _).mpr ?_) | (with_reducible refine (only_foldl _ (fun y b => ?_) _ _).trans ?_) | (simp only []))); done)
theorem loseChannelFor_only {L : List Part} {s : State} (a0 : Nat) (a1 : Nat) (a2 : State) (h0 : Part.out ∈ L) (h1 : Part.glb ∈ L) (h2 : Part.owner ∈ L) (h3 : Part.dram ∈ L) (h4 : Part.degr ∈ L) (h5 : Part.counters ∈ L) : changesOnly L s (loseChannelFor a0 a1 a2) ↔ changesOnly L s a2 := by
  (simp only [loseChannelFor, only_foldl, iff_self, implies_true, countLate_only, modChan_only, emit_only, unitLost_only, h0, h1, h2, h3, h4, h5]; done)
theorem loseChannel_only {L : List Part} {s : State} (a0 : Nat) (a1 : State) (h0 : Part.out ∈ L) (h1 : Part.glb ∈ L) (h2 : Part.owner ∈ L) (h3 : Part.dram ∈ L) (h4 : Part.degr ∈ L) (h5 : Part.counters ∈ L) : changesOnly L s (loseChannel a0 a1) ↔ changesOnly L s a1 := by
  (simp only [loseChannel, iff_self, loseChannelFor_only, h0, h1, h2, h3, h4, h5]; done)
theorem execDramAlert_only {L : List Part} {s : State} (a0 : DramCh) (a1 : Bool) (a2 : State) (h0 : Part.dram ∈ L) (h1 : Part.counters ∈ L) (hx : changesOnly L s a2) : OnlyO L s (execDramAlert a0 a1 a2) := by
  (simp only [execDramAlert, only_ite, ite_self, onlyO_next, hx, modChan_only, countDram_only, h0, h1]; done)
theorem channelReady_only {L : List Part} {s : State} (a0 : Nat) (a1 : State) (h0 : Part.dram ∈ L) (h1 : Part.counters ∈ L) : changesOnly L s (channelReady a0 a1) ↔ changesOnly L s a1 := by
  (simp only [channelReady, iff_self, only_ite, ite_self, modChan_only, countDram_only, h0, h1]; done)
theorem execDramReplayDone_only {L : List Part} {s : State} (a0 : DramCh) (a1 : State) (h0 : Part.dram ∈ L) (h1 : Part.counters ∈ L) (hx : changesOnly L s a1) : OnlyO L s (execDramReplayDone a0 a1) := by
  (simp only [execDramReplayDone, only_ite, ite_self, onlyO_next, hx, channelReady_only, h0, h1]; done)
theorem execDramRetrainDone_only {L : List Part} {s : State} (a0 : DramCh) (a1 : Bool) (a2 : State) (h0 : Part.out ∈ L) (h1 : Part.glb ∈ L) (h2 : Part.owner ∈ L) (h3 : Part.dram ∈ L) (h4 : Part.degr ∈ L) (h5 : Part.counters ∈ L) (hx : changesOnly L s a2) : OnlyO L s (execDramRetrainDone a0 a1 a2) := by
  (simp only [execDramRetrainDone, only_ite, ite_self, onlyO_next, hx, loseChannel_only, channelReady_only, h0, h1, h2, h3, h4, h5]; done)
theorem execDramRefresh_only {L : List Part} {s : State} (a0 : State) (h0 : Part.dram ∈ L) (h1 : Part.counters ∈ L) (hx : changesOnly L s a0) : OnlyO L s (execDramRefresh a0) := by
  unfold execDramRefresh
  refine (onlyO_next _ _ _).mpr ((modDram_only _ _ h0).mpr ?_)
  refine (only_foldl _ (fun y b => ?_) _ _).mpr hx
  split <;> simp only [countDram_only, modChan_only, h0, h1]
theorem execRdimmTempRead_only {L : List Part} {s : State} (a0 : DramCh) (a1 : Option Int) (a2 : State) (h0 : Part.dram ∈ L) (hx : changesOnly L s a2) : OnlyO L s (execRdimmTempRead a0 a1 a2) := by
  (simp only [execRdimmTempRead, only_ite, ite_self, onlyO_next, hx, modDram_only, modChan_only, h0]; done)
theorem execPprRepair_only {L : List Part} {s : State} (a0 : DramCh) (a1 : Bool) (a2 : State) (h0 : Part.out ∈ L) (h1 : Part.nv ∈ L) (h2 : Part.glb ∈ L) (h3 : Part.owner ∈ L) (h4 : Part.dram ∈ L) (h5 : Part.degr ∈ L) (h6 : Part.counters ∈ L) (hx : changesOnly L s a2) : OnlyO L s (execPprRepair a0 a1 a2) := by
  (unfold execPprRepair; (repeat' (first | with_reducible assumption | with_reducible rfl | (simp only [only_ite, ite_self, onlyO_next, hx, loseChannel_only, modChan_only, repair_only, countDram_only, h0, h1, h2, h3, h4, h5, h6]; done) | split | (with_reducible refine (onlyO_next _ _ _).mpr ?_) | (with_reducible refine (only_foldl _ (fun y b => ?_) _ _).mpr ?_) | (with_reducible refine (only_foldl _ (fun y b => ?_) _ _).trans ?_) | (simp only []))); done)
theorem dramCarveSetDef_only {L : List Part} {s : State}  (h0 : Part.drawn ∈ L) (h1 : Part.nv ∈ L) (h2 : Part.ops ∈ L) : DefOnly L s dramCarveSetDef := by
  intro o p y; simp only [dramCarveSetDef]; (repeat' (first | with_reducible rfl | (simp only [modNv_only, sameFuses_iff, eq_self, and_self, h1]; done) | with_reducible refine onlyA_reply _ _ _ _ _ ?_ | with_reducible refine onlyA_replyLong _ _ _ _ _ ?_ | with_reducible refine onlyA_startOp _ _ _ _ _ _ _ _ _ (by assumption) (by assumption) ?_ | with_reducible refine onlyA_mk _ _ _ _ _ _ _ _ ?_ | split | (with_reducible refine (only_foldl _ (fun y b => ?_) _ _).trans ?_) | (refine ⟨?_, fun z => ?_⟩) | (simp only [])))
theorem execDramCarveSet_only {L : List Part} {s : State} (a0 : Packet) (a1 : State) (h0 : Part.fenced ∈ L) (h1 : Part.out ∈ L) (h2 : Part.drawn ∈ L) (h3 : Part.nv ∈ L) (h4 : Part.owner ∈ L) (h5 : Part.rings ∈ L) (h6 : Part.ops ∈ L) (h7 : Part.hosts ∈ L) (h8 : Part.fns ∈ L) (hx : changesOnly L s a1) : OnlyO L s (execDramCarveSet a0 a1) := by
  (simp only [execDramCarveSet, onlyO_next, hx, runCmd_only, dramCarveSetDef_only, h0, h1, h2, h3, h4, h5, h6, h7, h8]; done)
theorem zeroProgramArea_only {L : List Part} {s : State} (a0 : State) (h0 : Part.cores ∈ L) (h1 : Part.dram ∈ L) : changesOnly L s (zeroProgramArea a0) ↔ changesOnly L s a0 := by
  (simp only [zeroProgramArea, iff_self, modCores_only, modDram_only, h0, h1]; done)
theorem carveStep_only {L : List Part} {s : State} (a0 : LongOp) (a1 : Nat) (a2 : Nat) (a3 : State) (h0 : Part.out ∈ L) (h1 : Part.owner ∈ L) (h2 : Part.rings ∈ L) (h3 : Part.ops ∈ L) (h4 : Part.hosts ∈ L) (h5 : Part.fns ∈ L) (h6 : Part.nvme ∈ L) (h7 : Part.cores ∈ L) (h8 : Part.dram ∈ L) (h9 : Part.carve ∈ L) : changesOnly L s (carveStep a0 a1 a2 a3) ↔ changesOnly L s a3 := by
  (simp only [carveStep, iff_self, opDone_only, zeroProgramArea_only, h0, h1, h2, h3, h4, h5, h6, h7, h8, h9, only_nvme_carve]; done)
theorem imbalance_only {L : List Part} {s : State} (a0 : State) (h0 : Part.dram ∈ L) : changesOnly L s (imbalance a0) ↔ changesOnly L s a0 := by
  (simp only [imbalance, iff_self, modDram_only, h0]; done)
theorem modElec_only {L : List Part} {s : State} (a0 : Elec → Elec) (a1 : State) (h0 : Part.elec ∈ L) : changesOnly L s (modElec a0 a1) ↔ changesOnly L s a1 := by
  (simp only [modElec, iff_self, h0, only_elec]; done)
theorem countGlb_only {L : List Part} {s : State} (a0 : Nat) (a1 : State) (h0 : Part.counters ∈ L) : changesOnly L s (countGlb a0 a1) ↔ changesOnly L s a1 := by
  (simp only [countGlb, iff_self, count_only, h0]; done)
theorem raiseThermal_only {L : List Part} {s : State} (a0 : Nat) (a1 : Nat) (a2 : Nat) (a3 : State) (h0 : Part.owner ∈ L) (h1 : Part.elec ∈ L) : changesOnly L s (raiseThermal a0 a1 a2 a3) ↔ changesOnly L s a3 := by
  (simp only [raiseThermal, iff_self, only_ite, ite_self, modElec_only, raiseOwner_only, h0, h1]; done)
theorem excludeSensor_only {L : List Part} {s : State} (a0 : Nat) (a1 : Nat) (a2 : Nat) (a3 : State) (h0 : Part.nv ∈ L) (h1 : Part.glb ∈ L) (h2 : Part.owner ∈ L) (h3 : Part.elec ∈ L) (h4 : Part.degr ∈ L) (h5 : Part.counters ∈ L) : changesOnly L s (excludeSensor a0 a1 a2 a3) ↔ changesOnly L s a3 := by
  (simp only [excludeSensor, iff_self, only_ite, ite_self, countGlb_only, repair_only, raiseThermal_only, unitLost_only, h0, h1, h2, h3, h4, h5]; done)
theorem checkWarn_only {L : List Part} {s : State} (a0 : Nat) (a1 : State) (h0 : Part.owner ∈ L) (h1 : Part.elec ∈ L) (h2 : Part.counters ∈ L) : changesOnly L s (checkWarn a0 a1) ↔ changesOnly L s a1 := by
  (simp only [checkWarn, iff_self, only_ite, ite_self, countGlb_only, modElec_only, raiseThermal_only, h0, h1, h2]; done)
theorem checkTrip_only {L : List Part} {s : State} (a0 : Nat) (a1 : State) (h0 : Part.out ∈ L) (h1 : Part.nv ∈ L) (h2 : Part.owner ∈ L) (h3 : Part.elec ∈ L) : changesOnly L s (checkTrip a0 a1) ↔ changesOnly L s a1 := by
  (simp only [checkTrip, iff_self, only_ite, ite_self, modElec_only, raiseThermal_only, emit_only, h0, h1, h2, h3, only_nv, sameFuses_iff, eq_self, and_self]; done)
theorem checkLimits_only {L : List Part} {s : State} (a0 : Int) (a1 : Nat) (a2 : State) (h0 : Part.out ∈ L) (h1 : Part.owner ∈ L) (h2 : Part.hosts ∈ L) (h3 : Part.fns ∈ L) (h4 : Part.queues ∈ L) (h5 : Part.hod ∈ L) (h6 : Part.sched ∈ L) (h7 : Part.net ∈ L) (h8 : Part.crypt ∈ L) (h9 : Part.cores ∈ L) (h10 : Part.klb ∈ L) (h11 : Part.elec ∈ L) (h12 : Part.counters ∈ L) : changesOnly L s (checkLimits a0 a1 a2) ↔ changesOnly L s a2 := by
  (simp only [checkLimits, iff_self, only_ite, ite_self, alarmSource_only, raiseThermal_only, h0, h1, h2, h3, h4, h5, h6, h7, h8, h9, h10, h11, h12]; done)
theorem thermalAers_only {L : List Part} {s : State} (a0 : Int) (a1 : State) (h0 : Part.out ∈ L) (h1 : Part.hosts ∈ L) (h2 : Part.fns ∈ L) (h3 : Part.nvme ∈ L) (h4 : Part.counters ∈ L) : changesOnly L s (thermalAers a0 a1) ↔ changesOnly L s a1 := by
  (simp only [thermalAers, only_foldl, iff_self, implies_true, only_ite, ite_self, raiseAer_only, h0, h1, h2, h3, h4]; done)
theorem execThermalSensorSample_only {L : List Part} {s : State} (a0 : Vector Int 16) (a1 : State) (h0 : Part.out ∈ L) (h1 : Part.nv ∈ L) (h2 : Part.glb ∈ L) (h3 : Part.owner ∈ L) (h4 : Part.hosts ∈ L) (h5 : Part.fns ∈ L) (h6 : Part.queues ∈ L) (h7 : Part.hod ∈ L) (h8 : Part.sched ∈ L) (h9 : Part.net ∈ L) (h10 : Part.nvme ∈ L) (h11 : Part.crypt ∈ L) (h12 : Part.cores ∈ L) (h13 : Part.klb ∈ L) (h14 : Part.elec ∈ L) (h15 : Part.degr ∈ L) (h16 : Part.counters ∈ L) (hx : changesOnly L s a1) : OnlyO L s (execThermalSensorSample a0 a1) := by
  unfold execThermalSensorSample
  have hf : ∀ (g : State → Fin 16 → Bool) l z, changesOnly L s (List.foldl (fun s n => if g s n then excludeSensor 6 (foundNow s) n.val s else s) z l) ↔ changesOnly L s z := fun g l z => only_foldl _ (fun y b => by simp only [only_ite, ite_self, excludeSensor_only, h1, h2, h3, h14, h15, h16]) l z
  have hg : ∀ l z, changesOnly L s (List.foldl (fun (s : State) (n : Fin 16) => if 100 ≤ s.elec.far[n] ∧ s.glb.fwRuns then excludeSensor 6 (foundNow s) n.val s else s) z l) ↔ changesOnly L s z := fun l z => only_foldl _ (fun y b => by simp only [only_ite, ite_self, excludeSensor_only, h1, h2, h3, h14, h15, h16]) l z
  refine (onlyO_next _ _ _).mpr ?_
  split
  · simp only [hx]
  · split <;> simp only [hg, modElec_only, thermalAers_only, checkLimits_only, checkTrip_only, checkWarn_only, hx, h0, h1, h3, h4, h5, h6, h7, h8, h9, h10, h11, h12, h13, h14, h16]
theorem setVout_only {L : List Part} {s : State} (a0 : Nat) (a1 : State) (h0 : Part.out ∈ L) (h1 : Part.elec ∈ L) : changesOnly L s (setVout a0 a1) ↔ changesOnly L s a1 := by
  (simp only [setVout, iff_self, only_ite, ite_self, modElec_only, emit_only, h0, h1]; done)
theorem execAvsDecision_only {L : List Part} {s : State} (a0 : Bool) (a1 : Bool) (a2 : State) (h0 : Part.out ∈ L) (h1 : Part.elec ∈ L) (h2 : Part.counters ∈ L) (hx : changesOnly L s a2) : OnlyO L s (execAvsDecision a0 a1 a2) := by
  (simp only [execAvsDecision, only_ite, ite_self, onlyO_next, hx, countGlb_only, modElec_only, setVout_only, h0, h1, h2]; done)
theorem execAvsEmergency_only {L : List Part} {s : State} (a0 : State) (h0 : Part.out ∈ L) (h1 : Part.elec ∈ L) (h2 : Part.counters ∈ L) (hx : changesOnly L s a0) : OnlyO L s (execAvsEmergency a0) := by
  (simp only [execAvsEmergency, only_ite, ite_self, onlyO_next, hx, countGlb_only, modElec_only, setVout_only, h0, h1, h2]; done)
theorem execRegulatorPoll_only {L : List Part} {s : State} (a0 : Fin 7) (a1 : PollResult) (a2 : State) (h0 : Part.out ∈ L) (h1 : Part.owner ∈ L) (h2 : Part.elec ∈ L) (h3 : Part.counters ∈ L) (hx : changesOnly L s a2) : OnlyO L s (execRegulatorPoll a0 a1 a2) := by
  (simp only [execRegulatorPoll, only_ite, ite_self, onlyO_next, hx, countGlb_only, modElec_only, raiseThermal_only, emit_only, h0, h1, h2, h3]; done)
theorem modBist_only {L : List Part} {s : State} (a0 : Bist → Bist) (a1 : State) (h0 : Part.bist ∈ L) : changesOnly L s (modBist a0 a1) ↔ changesOnly L s a1 := by
  (simp only [modBist, iff_self, h0, only_bist]; done)
theorem assignSpare_only {L : List Part} {s : State} (a0 : Nat) (a1 : Nat) (a2 : State) (h0 : Part.bist ∈ L) : changesOnly L s (assignSpare a0 a1 a2) ↔ changesOnly L s a2 := by
  (simp only [assignSpare, iff_self, modBist_only, h0]; done)
theorem failUnit_only {L : List Part} {s : State} (a0 : Nat) (a1 : Nat) (a2 : Nat) (a3 : Nat) (a4 : State) (h0 : Part.nv ∈ L) (h1 : Part.glb ∈ L) (h2 : Part.owner ∈ L) (h3 : Part.degr ∈ L) (h4 : Part.bist ∈ L) (h5 : Part.counters ∈ L) : changesOnly L s (failUnit a0 a1 a2 a3 a4) ↔ changesOnly L s a4 := by
  (simp only [failUnit, iff_self, only_ite, ite_self, assignSpare_only, repair_only, unitLost_only, h0, h1, h2, h3, h4, h5]; done)
theorem failRow_only {L : List Part} {s : State} (a0 : Nat) (a1 : Nat) (a2 : Nat) (a3 : Nat) (a4 : State) (h0 : Part.nv ∈ L) (h1 : Part.owner ∈ L) (h2 : Part.counters ∈ L) : changesOnly L s (failRow a0 a1 a2 a3 a4) ↔ changesOnly L s a4 := by
  (simp only [failRow, iff_self, only_ite, ite_self, repair_only, h0, h1, h2]; done)
theorem failDramRow_only {L : List Part} {s : State} (a0 : Nat) (a1 : Nat) (a2 : State) (h0 : Part.dram ∈ L) : changesOnly L s (failDramRow a0 a1 a2) ↔ changesOnly L s a2 := by
  (simp only [failDramRow, iff_self, only_ite, ite_self, modChan_only, h0]; done)
theorem failHostLane_only {L : List Part} {s : State} (a0 : Nat) (a1 : Nat) (a2 : Nat) (a3 : State) (h0 : Part.glb ∈ L) (h1 : Part.owner ∈ L) (h2 : Part.hosts ∈ L) (h3 : Part.degr ∈ L) : changesOnly L s (failHostLane a0 a1 a2 a3) ↔ changesOnly L s a3 := by
  (simp only [failHostLane, iff_self, only_ite, ite_self, modLink_only, unitLost_only, h0, h1, h2, h3]; done)
theorem failDriveLane_only {L : List Part} {s : State} (a0 : Nat) (a1 : Nat) (a2 : Nat) (a3 : State) (h0 : Part.glb ∈ L) (h1 : Part.owner ∈ L) (h2 : Part.nvme ∈ L) (h3 : Part.degr ∈ L) : changesOnly L s (failDriveLane a0 a1 a2 a3) ↔ changesOnly L s a3 := by
  (simp only [failDriveLane, iff_self, only_ite, ite_self, modDrive_only, unitLost_only, h0, h1, h2, h3]; done)
theorem failEthLane_only {L : List Part} {s : State} (a0 : Nat) (a1 : Nat) (a2 : State) (h0 : Part.out ∈ L) (h1 : Part.nv ∈ L) (h2 : Part.glb ∈ L) (h3 : Part.owner ∈ L) (h4 : Part.hosts ∈ L) (h5 : Part.fns ∈ L) (h6 : Part.queues ∈ L) (h7 : Part.eth ∈ L) (h8 : Part.hod ∈ L) (h9 : Part.sched ∈ L) (h10 : Part.net ∈ L) (h11 : Part.degr ∈ L) (h12 : Part.counters ∈ L) : changesOnly L s (failEthLane a0 a1 a2) ↔ changesOnly L s a2 := by
  (simp only [failEthLane, iff_self, only_ite, ite_self, laneFault_only, unitLost_only, h0, h1, h2, h3, h4, h5, h6, h7, h8, h9, h10, h11, h12]; done)
theorem failWhole_only {L : List Part} {s : State} (a0 : Nat) (a1 : Nat) (a2 : Nat) (a3 : Nat) (a4 : State) (h0 : Part.nv ∈ L) (h1 : Part.glb ∈ L) (h2 : Part.owner ∈ L) (h3 : Part.degr ∈ L) (h4 : Part.counters ∈ L) : changesOnly L s (failWhole a0 a1 a2 a3 a4) ↔ changesOnly L s a4 := by
  (simp only [failWhole, iff_self, only_ite, ite_self, repair_only, unitLost_only, h0, h1, h2, h3, h4]; done)
theorem applyFault_only {L : List Part} {s : State} (a0 : Nat) (a1 : TestFault) (a2 : State) (h0 : Part.out ∈ L) (h1 : Part.nv ∈ L) (h2 : Part.glb ∈ L) (h3 : Part.owner ∈ L) (h4 : Part.hosts ∈ L) (h5 : Part.fns ∈ L) (h6 : Part.queues ∈ L) (h7 : Part.eth ∈ L) (h8 : Part.hod ∈ L) (h9 : Part.sched ∈ L) (h10 : Part.net ∈ L) (h11 : Part.nvme ∈ L) (h12 : Part.dram ∈ L) (h13 : Part.elec ∈ L) (h14 : Part.degr ∈ L) (h15 : Part.bist ∈ L) (h16 : Part.counters ∈ L) : changesOnly L s (applyFault a0 a1 a2) ↔ changesOnly L s a2 := by
  (fun_cases applyFault a0 a1 a2 <;> (simp +zetaDelta only [iff_self, failWhole_only, failUnit_only, failDriveLane_only, failRow_only, failHostLane_only, excludeSensor_only, unitLost_only, failDramRow_only, loseChannelFor_only, failEthLane_only, h0, h1, h2, h3, h4, h5, h6, h7, h8, h9, h10, h11, h12, h13, h14, h15, h16]; done))
theorem applyFaults_only {L : List Part} {s : State} (a0 : Nat) (a1 : List TestFault) (a2 : State) (h0 : Part.out ∈ L) (h1 : Part.nv ∈ L) (h2 : Part.glb ∈ L) (h3 : Part.owner ∈ L) (h4 : Part.hosts ∈ L) (h5 : Part.fns ∈ L) (h6 : Part.queues ∈ L) (h7 : Part.eth ∈ L) (h8 : Part.hod ∈ L) (h9 : Part.sched ∈ L) (h10 : Part.net ∈ L) (h11 : Part.nvme ∈ L) (h12 : Part.dram ∈ L) (h13 : Part.elec ∈ L) (h14 : Part.degr ∈ L) (h15 : Part.bist ∈ L) (h16 : Part.counters ∈ L) : changesOnly L s (applyFaults a0 a1 a2) ↔ changesOnly L s a2 := by
  (simp only [applyFaults, only_foldl, iff_self, implies_true, applyFault_only, h0, h1, h2, h3, h4, h5, h6, h7, h8, h9, h10, h11, h12, h13, h14, h15, h16]; done)
theorem selftestStep_only {L : List Part} {s : State} (a0 : LongOp) (a1 : Nat) (a2 : StepResult) (a3 : State) (h0 : Part.out ∈ L) (h1 : Part.nv ∈ L) (h2 : Part.glb ∈ L) (h3 : Part.owner ∈ L) (h4 : Part.rings ∈ L) (h5 : Part.ops ∈ L) (h6 : Part.hosts ∈ L) (h7 : Part.fns ∈ L) (h8 : Part.queues ∈ L) (h9 : Part.eth ∈ L) (h10 : Part.hod ∈ L) (h11 : Part.sched ∈ L) (h12 : Part.net ∈ L) (h13 : Part.nvme ∈ L) (h14 : Part.dram ∈ L) (h15 : Part.elec ∈ L) (h16 : Part.degr ∈ L) (h17 : Part.bist ∈ L) (h18 : Part.counters ∈ L) : changesOnly L s (selftestStep a0 a1 a2 a3) ↔ changesOnly L s a3 := by
  (simp only [selftestStep, iff_self, only_ite, ite_self, opDone_only, applyFaults_only, count_only, putOp_only, h0, h1, h2, h3, h4, h5, h6, h7, h8, h9, h10, h11, h12, h13, h14, h15, h16, h17, h18]; done)
theorem fuseStep_only {L : List Part} {s : State} (a0 : LongOp) (a1 : List Nat) (a2 : Bool) (a3 : State) (h0 : Part.out ∈ L) (h1 : Part.nv ∈ L) (h2 : Part.owner ∈ L) (h3 : Part.rings ∈ L) (h4 : Part.ops ∈ L) (h5 : Part.hosts ∈ L) (h6 : Part.fns ∈ L) (h7 : Part.counters ∈ L) : changesOnly L s (fuseStep a0 a1 a2 a3) ↔ changesOnly L s a3 := by
  (fun_cases fuseStep a0 a1 a2 a3 <;> (simp +zetaDelta only [iff_self, only_ite, ite_self, opDone_only, modNv_only, sameFuses_iff, eq_self, and_self, count_only, putOp_only, h0, h1, h2, h3, h4, h5, h6, h7]; done))
theorem selftestRunDef_only {L : List Part} {s : State}  (h0 : Part.drawn ∈ L) (h1 : Part.ops ∈ L) : DefOnly L s selftestRunDef := by
  intro o p y; simp only [selftestRunDef]; (repeat' (first | with_reducible rfl | (simp only [only_ite, ite_self, onlyA_ite, startOp_only, h0, h1]; done) | with_reducible refine onlyA_reply _ _ _ _ _ ?_ | with_reducible refine onlyA_replyLong _ _ _ _ _ ?_ | with_reducible refine onlyA_startOp _ _ _ _ _ _ _ _ _ (by assumption) (by assumption) ?_ | with_reducible refine onlyA_mk _ _ _ _ _ _ _ _ ?_ | split | (with_reducible refine (only_foldl _ (fun y b => ?_) _ _).trans ?_) | (refine ⟨?_, fun z => ?_⟩) | (simp only [])))
theorem execSelftestRun_only {L : List Part} {s : State} (a0 : Packet) (a1 : State) (h0 : Part.fenced ∈ L) (h1 : Part.out ∈ L) (h2 : Part.drawn ∈ L) (h3 : Part.owner ∈ L) (h4 : Part.rings ∈ L) (h5 : Part.ops ∈ L) (h6 : Part.hosts ∈ L) (h7 : Part.fns ∈ L) (hx : changesOnly L s a1) : OnlyO L s (execSelftestRun a0 a1) := by
  (simp only [execSelftestRun, onlyO_next, hx, runCmd_only, selftestRunDef_only, h0, h1, h2, h3, h4, h5, h6, h7]; done)
theorem repairReadDef_only {L : List Part} {s : State}   : DefOnly L s repairReadDef := by
  intro o p y; simp only [repairReadDef]; (repeat' (first | with_reducible rfl | (simp only [only_ite, ite_self, onlyA_ite, replyLong_only]; done) | with_reducible refine onlyA_reply _ _ _ _ _ ?_ | with_reducible refine onlyA_replyLong _ _ _ _ _ ?_ | with_reducible refine onlyA_startOp _ _ _ _ _ _ _ _ _ (by assumption) (by assumption) ?_ | with_reducible refine onlyA_mk _ _ _ _ _ _ _ _ ?_ | split | (with_reducible refine (only_foldl _ (fun y b => ?_) _ _).trans ?_) | (refine ⟨?_, fun z => ?_⟩) | (simp only [])))
theorem execRepairRead_only {L : List Part} {s : State} (a0 : Packet) (a1 : State) (h0 : Part.fenced ∈ L) (h1 : Part.out ∈ L) (h2 : Part.owner ∈ L) (h3 : Part.rings ∈ L) (h4 : Part.hosts ∈ L) (h5 : Part.fns ∈ L) (hx : changesOnly L s a1) : OnlyO L s (execRepairRead a0 a1) := by
  (simp only [execRepairRead, onlyO_next, hx, repairReadDef_only, runCmd_only, h0, h1, h2, h3, h4, h5]; done)
theorem fuseProgramDef_only {L : List Part} {s : State}  (h0 : Part.drawn ∈ L) (h1 : Part.ops ∈ L) : DefOnly L s fuseProgramDef := by
  intro o p y; simp only [fuseProgramDef]; (repeat' (first | with_reducible rfl | (simp only [only_ite, ite_self, onlyA_ite, startOp_only, h0, h1]; done) | with_reducible refine onlyA_reply _ _ _ _ _ ?_ | with_reducible refine onlyA_replyLong _ _ _ _ _ ?_ | with_reducible refine onlyA_startOp _ _ _ _ _ _ _ _ _ (by assumption) (by assumption) ?_ | with_reducible refine onlyA_mk _ _ _ _ _ _ _ _ ?_ | split | (with_reducible refine (only_foldl _ (fun y b => ?_) _ _).trans ?_) | (refine ⟨?_, fun z => ?_⟩) | (simp only [])))
theorem execFuseProgram_only {L : List Part} {s : State} (a0 : Packet) (a1 : State) (h0 : Part.fenced ∈ L) (h1 : Part.out ∈ L) (h2 : Part.drawn ∈ L) (h3 : Part.owner ∈ L) (h4 : Part.rings ∈ L) (h5 : Part.ops ∈ L) (h6 : Part.hosts ∈ L) (h7 : Part.fns ∈ L) (hx : changesOnly L s a1) : OnlyO L s (execFuseProgram a0 a1) := by
  (simp only [execFuseProgram, onlyO_next, hx, fuseProgramDef_only, runCmd_only, h0, h1, h2, h3, h4, h5, h6, h7]; done)
theorem parkPlanSetDef_only {L : List Part} {s : State}  (h0 : Part.nv ∈ L) : DefOnly L s parkPlanSetDef := by
  intro o p y; simp only [parkPlanSetDef]; (repeat' (first | with_reducible rfl | (simp only [modNv_only, sameFuses_iff, eq_self, and_self, h0]; done) | with_reducible refine onlyA_reply _ _ _ _ _ ?_ | with_reducible refine onlyA_replyLong _ _ _ _ _ ?_ | with_reducible refine onlyA_startOp _ _ _ _ _ _ _ _ _ (by assumption) (by assumption) ?_ | with_reducible refine onlyA_mk _ _ _ _ _ _ _ _ ?_ | split | (with_reducible refine (only_foldl _ (fun y b => ?_) _ _).trans ?_) | (refine ⟨?_, fun z => ?_⟩) | (simp only [])))
theorem execParkPlanSet_only {L : List Part} {s : State} (a0 : Packet) (a1 : State) (h0 : Part.fenced ∈ L) (h1 : Part.out ∈ L) (h2 : Part.nv ∈ L) (h3 : Part.owner ∈ L) (h4 : Part.rings ∈ L) (h5 : Part.hosts ∈ L) (h6 : Part.fns ∈ L) (hx : changesOnly L s a1) : OnlyO L s (execParkPlanSet a0 a1) := by
  (simp only [execParkPlanSet, onlyO_next, hx, runCmd_only, parkPlanSetDef_only, h0, h1, h2, h3, h4, h5, h6]; done)
theorem degradationReadDef_only {L : List Part} {s : State}   : DefOnly L s degradationReadDef := by
  intro o p y; simp only [degradationReadDef]; (repeat' (first | with_reducible rfl | (simp only [only_ite, ite_self, onlyA_ite, replyLong_only]; done) | with_reducible refine onlyA_reply _ _ _ _ _ ?_ | with_reducible refine onlyA_replyLong _ _ _ _ _ ?_ | with_reducible refine onlyA_startOp _ _ _ _ _ _ _ _ _ (by assumption) (by assumption) ?_ | with_reducible refine onlyA_mk _ _ _ _ _ _ _ _ ?_ | split | (with_reducible refine (only_foldl _ (fun y b => ?_) _ _).trans ?_) | (refine ⟨?_, fun z => ?_⟩) | (simp only [])))
theorem execDegradationRead_only {L : List Part} {s : State} (a0 : Packet) (a1 : State) (h0 : Part.fenced ∈ L) (h1 : Part.out ∈ L) (h2 : Part.owner ∈ L) (h3 : Part.rings ∈ L) (h4 : Part.hosts ∈ L) (h5 : Part.fns ∈ L) (hx : changesOnly L s a1) : OnlyO L s (execDegradationRead a0 a1) := by
  (simp only [execDegradationRead, onlyO_next, hx, runCmd_only, degradationReadDef_only, h0, h1, h2, h3, h4, h5]; done)
theorem adminData_only {L : List Part} {s : State} (a0 : HostId) (a1 : Fn) (a2 : Sqe) (a3 : Nat) (a4 : Nat) (a5 : List Byte) (a6 : State) (h0 : Part.out ∈ L) (h1 : Part.hosts ∈ L) (h2 : Part.fns ∈ L) (h3 : Part.nvme ∈ L) (h4 : Part.counters ∈ L) : changesOnly L s (adminData a0 a1 a2 a3 a4 a5 a6) ↔ changesOnly L s a6 := by
  (simp only [adminData, iff_self, only_ite, ite_self, adminDone_only, writePages_only, h0, h1, h2, h3, h4]; done)
theorem takeIdentify_only {L : List Part} {s : State} (a0 : HostId) (a1 : Fn) (a2 : Sqe) (a3 : Nat) (a4 : State) (h0 : Part.out ∈ L) (h1 : Part.hosts ∈ L) (h2 : Part.fns ∈ L) (h3 : Part.nvme ∈ L) (h4 : Part.counters ∈ L) : changesOnly L s (takeIdentify a0 a1 a2 a3 a4) ↔ changesOnly L s a4 := by
  (fun_cases takeIdentify a0 a1 a2 a3 a4 <;> (simp +zetaDelta only [iff_self, adminData_only, adminDone_only, h0, h1, h2, h3, h4]; done))
theorem execNvmeIdentify_only {L : List Part} {s : State} (a0 : HostId) (a1 : Fn) (a2 : Sqe) (a3 : State) (h0 : Part.out ∈ L) (h1 : Part.hosts ∈ L) (h2 : Part.fns ∈ L) (h3 : Part.nvme ∈ L) (h4 : Part.counters ∈ L) (hx : changesOnly L s a3) : OnlyO L s (execNvmeIdentify a0 a1 a2 a3) := by
  (simp only [execNvmeIdentify, iff_self, implies_true, hx, adminRow_only, takeIdentify_only, h0, h1, h2, h3, h4]; done)
theorem takeLogPage_only {L : List Part} {s : State} (a0 : HostId) (a1 : Fn) (a2 : Sqe) (a3 : Nat) (a4 : State) (h0 : Part.out ∈ L) (h1 : Part.hosts ∈ L) (h2 : Part.fns ∈ L) (h3 : Part.nvme ∈ L) (h4 : Part.counters ∈ L) : changesOnly L s (takeLogPage a0 a1 a2 a3 a4) ↔ changesOnly L s a4 := by
  (fun_cases takeLogPage a0 a1 a2 a3 a4 <;> (simp +zetaDelta only [iff_self, adminData_only, adminDone_only, modCtrl_only, reportAers_only, h0, h1, h2, h3, h4]; done))
theorem execNvmeGetLogPage_only {L : List Part} {s : State} (a0 : HostId) (a1 : Fn) (a2 : Sqe) (a3 : State) (h0 : Part.out ∈ L) (h1 : Part.hosts ∈ L) (h2 : Part.fns ∈ L) (h3 : Part.nvme ∈ L) (h4 : Part.counters ∈ L) (hx : changesOnly L s a3) : OnlyO L s (execNvmeGetLogPage a0 a1 a2 a3) := by
  (simp only [execNvmeGetLogPage, iff_self, implies_true, hx, takeLogPage_only, adminRow_only, h0, h1, h2, h3, h4]; done)
theorem releaseArm_only {L : List Part} {s : State} (a0 : Nat) (a1 : Fin 32) (a2 : State) (h0 : Part.epochs ∈ L) : changesOnly L s (releaseArm a0 a1 a2) ↔ changesOnly L s a2 := by
  (simp only [releaseArm, iff_self, modUnit_only, h0]; done)
theorem letGo_only {L : List Part} {s : State} (a0 : LongOp) (a1 : State) (h0 : Part.epochs ∈ L) (h1 : Part.tables ∈ L) (h2 : Part.nvme ∈ L) : changesOnly L s (letGo a0 a1) ↔ changesOnly L s a1 := by
  (fun_cases letGo a0 a1 <;> (simp +zetaDelta only [only_foldl, iff_self, implies_true, only_ite, ite_self, releaseArm_only, modUnit_only, modEm_only, modNvme_only, h0, h1, h2]; done))
theorem cancelOp_only {L : List Part} {s : State} (a0 : LongOp) (a1 : State) (h0 : Part.out ∈ L) (h1 : Part.epochs ∈ L) (h2 : Part.owner ∈ L) (h3 : Part.rings ∈ L) (h4 : Part.ops ∈ L) (h5 : Part.hosts ∈ L) (h6 : Part.fns ∈ L) (h7 : Part.tables ∈ L) (h8 : Part.nvme ∈ L) : changesOnly L s (cancelOp a0 a1) ↔ changesOnly L s a1 := by
  (simp only [cancelOp, iff_self, letGo_only, opDone_only, h0, h1, h2, h3, h4, h5, h6, h7, h8]; done)
theorem channelGone_only {L : List Part} {s : State} (a0 : RingChan) (a1 : State) (h0 : Part.fenced ∈ L) (h1 : Part.out ∈ L) (h2 : Part.epochs ∈ L) (h3 : Part.owner ∈ L) (h4 : Part.rings ∈ L) (h5 : Part.ops ∈ L) (h6 : Part.hosts ∈ L) (h7 : Part.fns ∈ L) (h8 : Part.tables ∈ L) (h9 : Part.nvme ∈ L) : changesOnly L s (channelGone a0 a1) ↔ changesOnly L s a1 := by
  (simp only [channelGone, only_foldl, iff_self, implies_true, only_ite, ite_self, cancelOp_only, putOp_only, h0, h1, h2, h3, h4, h5, h6, h7, h8, h9, only_fenced]; done)
theorem execHlinkCmdEnableClear_only {L : List Part} {s : State} (a0 : RingChan) (a1 : State) (h0 : Part.fenced ∈ L) (h1 : Part.out ∈ L) (h2 : Part.epochs ∈ L) (h3 : Part.owner ∈ L) (h4 : Part.rings ∈ L) (h5 : Part.ops ∈ L) (h6 : Part.hosts ∈ L) (h7 : Part.fns ∈ L) (h8 : Part.tables ∈ L) (h9 : Part.nvme ∈ L) (hx : changesOnly L s a1) : OnlyO L s (execHlinkCmdEnableClear a0 a1) := by
  (simp only [execHlinkCmdEnableClear, only_ite, ite_self, onlyO_next, hx, modRing_only, channelGone_only, h0, h1, h2, h3, h4, h5, h6, h7, h8, h9]; done)
theorem dropChannels_only {L : List Part} {s : State} (a0 : HostId) (a1 : Fn → Bool) (a2 : State) (h0 : Part.fenced ∈ L) (h1 : Part.out ∈ L) (h2 : Part.epochs ∈ L) (h3 : Part.owner ∈ L) (h4 : Part.rings ∈ L) (h5 : Part.ops ∈ L) (h6 : Part.hosts ∈ L) (h7 : Part.fns ∈ L) (h8 : Part.tables ∈ L) (h9 : Part.nvme ∈ L) : changesOnly L s (dropChannels a0 a1 a2) ↔ changesOnly L s a2 := by
  (simp only [dropChannels, only_foldl, iff_self, implies_true, channelGone_only, h0, h1, h2, h3, h4, h5, h6, h7, h8, h9, only_rings]; done)
theorem dropQueues_only {L : List Part} {s : State} (a0 : HostId) (a1 : Fn → Bool) (a2 : State) (h0 : Part.queues ∈ L) (h1 : Part.hod ∈ L) (h2 : Part.sched ∈ L) (h3 : Part.net ∈ L) : changesOnly L s (dropQueues a0 a1 a2) ↔ changesOnly L s a2 := by
  (simp only [dropQueues, only_foldl, iff_self, implies_true, removeQueue_only, freeHods_only, h0, h1, h2, h3, only_net]; done)
theorem dropCtrls_only {L : List Part} {s : State} (a0 : HostId) (a1 : Fn → Bool) (a2 : State) (h0 : Part.out ∈ L) (h1 : Part.drawn ∈ L) (h2 : Part.nv ∈ L) (h3 : Part.owner ∈ L) (h4 : Part.rings ∈ L) (h5 : Part.hosts ∈ L) (h6 : Part.fns ∈ L) (h7 : Part.ctx ∈ L) (h8 : Part.nvme ∈ L) (h9 : Part.crypt ∈ L) (h10 : Part.counters ∈ L) : changesOnly L s (dropCtrls a0 a1 a2) ↔ changesOnly L s a2 := by
  (simp only [dropCtrls, only_foldl, iff_self, implies_true, resetCtrl_only, modCtrl_only, h0, h1, h2, h3, h4, h5, h6, h7, h8, h9, h10]; done)
theorem dropKeys_only {L : List Part} {s : State} (a0 : HostId) (a1 : Fn → Bool) (a2 : State) (h0 : Part.crypt ∈ L) : changesOnly L s (dropKeys a0 a1 a2) ↔ changesOnly L s a2 := by
  (simp only [dropKeys, iff_self, modCrypt_only, h0]; done)
theorem clearFns_only {L : List Part} {s : State} (a0 : HostId) (a1 : Fn → Bool) (a2 : State) (h0 : Part.fenced ∈ L) (h1 : Part.out ∈ L) (h2 : Part.drawn ∈ L) (h3 : Part.nv ∈ L) (h4 : Part.epochs ∈ L) (h5 : Part.owner ∈ L) (h6 : Part.rings ∈ L) (h7 : Part.ops ∈ L) (h8 : Part.hosts ∈ L) (h9 : Part.fns ∈ L) (h10 : Part.queues ∈ L) (h11 : Part.tables ∈ L) (h12 : Part.hod ∈ L) (h13 : Part.sched ∈ L) (h14 : Part.net ∈ L) (h15 : Part.ctx ∈ L) (h16 : Part.nvme ∈ L) (h17 : Part.crypt ∈ L) (h18 : Part.sec ∈ L) (h19 : Part.counters ∈ L) : changesOnly L s (clearFns a0 a1 a2) ↔ changesOnly L s a2 := by
  (simp only [clearFns, iff_self, only_ite, ite_self, dropKeys_only, dropChannels_only, dropQueues_only, modLink_only, resetPf2_only, refreshInta_only, dropCtrls_only, endConns_only, h0, h1, h2, h3, h4, h5, h6, h7, h8, h9, h10, h11, h12, h13, h14, h15, h16, h17, h18, h19, only_fns]; done)
theorem unitsDown_only {L : List Part} {s : State} (a0 : HostId) (a1 : Bool) (a2 : State) (h0 : Part.out ∈ L) (h1 : Part.epochs ∈ L) (h2 : Part.owner ∈ L) (h3 : Part.rings ∈ L) (h4 : Part.ops ∈ L) (h5 : Part.hosts ∈ L) (h6 : Part.fns ∈ L) : changesOnly L s (unitsDown a0 a1 a2) ↔ changesOnly L s a2 := by
  (simp only [unitsDown, only_foldl, iff_self, implies_true, only_ite, ite_self, modLink_only, modUnit_only, armLost_only, h0, h1, h2, h3, h4, h5, h6]; done)
theorem loadDefaults_only {L : List Part} {s : State} (a0 : HostId) (a1 : State) (h0 : Part.epochs ∈ L) (h1 : Part.hosts ∈ L) (h2 : Part.net ∈ L) : changesOnly L s (loadDefaults a0 a1) ↔ changesOnly L s a1 := by
  (simp only [loadDefaults, only_foldl, iff_self, implies_true, modLink_only, modUnit_only, modUnits_only, h0, h1, h2]; done)
theorem execHostUnitDefaultsLoad_only {L : List Part} {s : State} (a0 : HostId) (a1 : State) (h0 : Part.epochs ∈ L) (h1 : Part.hosts ∈ L) (h2 : Part.net ∈ L) (hx : changesOnly L s a1) : OnlyO L s (execHostUnitDefaultsLoad a0 a1) := by
  (simp only [execHostUnitDefaultsLoad, only_ite, ite_self, onlyO_next, hx, loadDefaults_only, h0, h1, h2]; done)
theorem resetFns_only {L : List Part} {s : State} (a0 : HostId) (a1 : Fn → Bool) (a2 : Fn) (a3 : Nat) (a4 : State) (h0 : Part.fenced ∈ L) (h1 : Part.out ∈ L) (h2 : Part.drawn ∈ L) (h3 : Part.nv ∈ L) (h4 : Part.epochs ∈ L) (h5 : Part.owner ∈ L) (h6 : Part.rings ∈ L) (h7 : Part.ops ∈ L) (h8 : Part.hosts ∈ L) (h9 : Part.fns ∈ L) (h10 : Part.queues ∈ L) (h11 : Part.tables ∈ L) (h12 : Part.hod ∈ L) (h13 : Part.sched ∈ L) (h14 : Part.net ∈ L) (h15 : Part.ctx ∈ L) (h16 : Part.nvme ∈ L) (h17 : Part.crypt ∈ L) (h18 : Part.sec ∈ L) (h19 : Part.counters ∈ L) : changesOnly L s (resetFns a0 a1 a2 a3 a4) ↔ changesOnly L s a4 := by
  (fun_cases resetFns a0 a1 a2 a3 a4 <;> (simp +zetaDelta only [iff_self, only_ite, ite_self, clearFns_only, unitsDown_only, modLink_only, raiseOwner_only, abandonReads_only, raiseRing_only, h0, h1, h2, h3, h4, h5, h6, h7, h8, h9, h10, h11, h12, h13, h14, h15, h16, h17, h18, h19]; done))
theorem initiateFlr_only {L : List Part} {s : State} (a0 : HostId) (a1 : Fn) (a2 : State) (h0 : Part.fenced ∈ L) (h1 : Part.out ∈ L) (h2 : Part.drawn ∈ L) (h3 : Part.nv ∈ L) (h4 : Part.epochs ∈ L) (h5 : Part.owner ∈ L) (h6 : Part.rings ∈ L) (h7 : Part.ops ∈ L) (h8 : Part.hosts ∈ L) (h9 : Part.fns ∈ L) (h10 : Part.queues ∈ L) (h11 : Part.tables ∈ L) (h12 : Part.hod ∈ L) (h13 : Part.sched ∈ L) (h14 : Part.net ∈ L) (h15 : Part.ctx ∈ L) (h16 : Part.nvme ∈ L) (h17 : Part.crypt ∈ L) (h18 : Part.sec ∈ L) (h19 : Part.counters ∈ L) : changesOnly L s (initiateFlr a0 a1 a2) ↔ changesOnly L s a2 := by
  (simp only [initiateFlr, iff_self, only_ite, ite_self, resetFns_only, h0, h1, h2, h3, h4, h5, h6, h7, h8, h9, h10, h11, h12, h13, h14, h15, h16, h17, h18, h19]; done)
theorem execInitiateFlr_only {L : List Part} {s : State} (a0 : HostId) (a1 : Fn) (a2 : State) (h0 : Part.fenced ∈ L) (h1 : Part.out ∈ L) (h2 : Part.drawn ∈ L) (h3 : Part.nv ∈ L) (h4 : Part.epochs ∈ L) (h5 : Part.owner ∈ L) (h6 : Part.rings ∈ L) (h7 : Part.ops ∈ L) (h8 : Part.hosts ∈ L) (h9 : Part.fns ∈ L) (h10 : Part.queues ∈ L) (h11 : Part.tables ∈ L) (h12 : Part.hod ∈ L) (h13 : Part.sched ∈ L) (h14 : Part.net ∈ L) (h15 : Part.ctx ∈ L) (h16 : Part.nvme ∈ L) (h17 : Part.crypt ∈ L) (h18 : Part.sec ∈ L) (h19 : Part.counters ∈ L) (hx : changesOnly L s a2) : OnlyO L s (execInitiateFlr a0 a1 a2) := by
  (simp only [execInitiateFlr, onlyO_next, hx, initiateFlr_only, h0, h1, h2, h3, h4, h5, h6, h7, h8, h9, h10, h11, h12, h13, h14, h15, h16, h17, h18, h19]; done)
theorem leaveD3_only {L : List Part} {s : State} (a0 : HostId) (a1 : Fn) (a2 : State) (h0 : Part.fenced ∈ L) (h1 : Part.out ∈ L) (h2 : Part.drawn ∈ L) (h3 : Part.nv ∈ L) (h4 : Part.epochs ∈ L) (h5 : Part.owner ∈ L) (h6 : Part.rings ∈ L) (h7 : Part.ops ∈ L) (h8 : Part.hosts ∈ L) (h9 : Part.fns ∈ L) (h10 : Part.queues ∈ L) (h11 : Part.tables ∈ L) (h12 : Part.hod ∈ L) (h13 : Part.sched ∈ L) (h14 : Part.net ∈ L) (h15 : Part.ctx ∈ L) (h16 : Part.nvme ∈ L) (h17 : Part.crypt ∈ L) (h18 : Part.sec ∈ L) (h19 : Part.counters ∈ L) : changesOnly L s (leaveD3 a0 a1 a2) ↔ changesOnly L s a2 := by
  (simp only [leaveD3, iff_self, only_ite, ite_self, resetFns_only, h0, h1, h2, h3, h4, h5, h6, h7, h8, h9, h10, h11, h12, h13, h14, h15, h16, h17, h18, h19]; done)
theorem execD3hotToD0_only {L : List Part} {s : State} (a0 : HostId) (a1 : Fn) (a2 : State) (h0 : Part.fenced ∈ L) (h1 : Part.out ∈ L) (h2 : Part.drawn ∈ L) (h3 : Part.nv ∈ L) (h4 : Part.epochs ∈ L) (h5 : Part.owner ∈ L) (h6 : Part.rings ∈ L) (h7 : Part.ops ∈ L) (h8 : Part.hosts ∈ L) (h9 : Part.fns ∈ L) (h10 : Part.queues ∈ L) (h11 : Part.tables ∈ L) (h12 : Part.hod ∈ L) (h13 : Part.sched ∈ L) (h14 : Part.net ∈ L) (h15 : Part.ctx ∈ L) (h16 : Part.nvme ∈ L) (h17 : Part.crypt ∈ L) (h18 : Part.sec ∈ L) (h19 : Part.counters ∈ L) (hx : changesOnly L s a2) : OnlyO L s (execD3hotToD0 a0 a1 a2) := by
  (simp only [execD3hotToD0, onlyO_next, hx, leaveD3_only, h0, h1, h2, h3, h4, h5, h6, h7, h8, h9, h10, h11, h12, h13, h14, h15, h16, h17, h18, h19]; done)
theorem clearVfEnable_only {L : List Part} {s : State} (a0 : HostId) (a1 : Fn) (a2 : State) (h0 : Part.fenced ∈ L) (h1 : Part.out ∈ L) (h2 : Part.drawn ∈ L) (h3 : Part.nv ∈ L) (h4 : Part.epochs ∈ L) (h5 : Part.owner ∈ L) (h6 : Part.rings ∈ L) (h7 : Part.ops ∈ L) (h8 : Part.hosts ∈ L) (h9 : Part.fns ∈ L) (h10 : Part.queues ∈ L) (h11 : Part.tables ∈ L) (h12 : Part.hod ∈ L) (h13 : Part.sched ∈ L) (h14 : Part.net ∈ L) (h15 : Part.ctx ∈ L) (h16 : Part.nvme ∈ L) (h17 : Part.crypt ∈ L) (h18 : Part.sec ∈ L) (h19 : Part.counters ∈ L) : changesOnly L s (clearVfEnable a0 a1 a2) ↔ changesOnly L s a2 := by
  (simp only [clearVfEnable, iff_self, only_ite, ite_self, resetFns_only, modFn_only, h0, h1, h2, h3, h4, h5, h6, h7, h8, h9, h10, h11, h12, h13, h14, h15, h16, h17, h18, h19]; done)
theorem execVfEnableClear_only {L : List Part} {s : State} (a0 : HostId) (a1 : Fn) (a2 : State) (h0 : Part.fenced ∈ L) (h1 : Part.out ∈ L) (h2 : Part.drawn ∈ L) (h3 : Part.nv ∈ L) (h4 : Part.epochs ∈ L) (h5 : Part.owner ∈ L) (h6 : Part.rings ∈ L) (h7 : Part.ops ∈ L) (h8 : Part.hosts ∈ L) (h9 : Part.fns ∈ L) (h10 : Part.queues ∈ L) (h11 : Part.tables ∈ L) (h12 : Part.hod ∈ L) (h13 : Part.sched ∈ L) (h14 : Part.net ∈ L) (h15 : Part.ctx ∈ L) (h16 : Part.nvme ∈ L) (h17 : Part.crypt ∈ L) (h18 : Part.sec ∈ L) (h19 : Part.counters ∈ L) (hx : changesOnly L s a2) : OnlyO L s (execVfEnableClear a0 a1 a2) := by
  (simp only [execVfEnableClear, onlyO_next, hx, clearVfEnable_only, h0, h1, h2, h3, h4, h5, h6, h7, h8, h9, h10, h11, h12, h13, h14, h15, h16, h17, h18, h19]; done)
theorem setVfEnable_only {L : List Part} {s : State} (a0 : HostId) (a1 : Fn) (a2 : State) (h0 : Part.fns ∈ L) : changesOnly L s (setVfEnable a0 a1 a2) ↔ changesOnly L s a2 := by
  (simp only [setVfEnable, iff_self, only_ite, ite_self, modFn_only, h0]; done)
theorem execVfEnableSet_only {L : List Part} {s : State} (a0 : HostId) (a1 : Fn) (a2 : State) (h0 : Part.fns ∈ L) (hx : changesOnly L s a2) : OnlyO L s (execVfEnableSet a0 a1 a2) := by
  (simp only [execVfEnableSet, onlyO_next, hx, setVfEnable_only, h0]; done)
theorem failFor_only {L : List Part} {s : State} (a0 : HostId) (a1 : Fn) (a2 : Purpose) (a3 : Nat) (a4 : State) (h0 : Part.out ∈ L) (h1 : Part.drawn ∈ L) (h2 : Part.nv ∈ L) (h3 : Part.owner ∈ L) (h4 : Part.rings ∈ L) (h5 : Part.hosts ∈ L) (h6 : Part.fns ∈ L) (h7 : Part.queues ∈ L) (h8 : Part.hod ∈ L) (h9 : Part.sched ∈ L) (h10 : Part.net ∈ L) (h11 : Part.ctx ∈ L) (h12 : Part.nvme ∈ L) (h13 : Part.crypt ∈ L) (h14 : Part.counters ∈ L) : changesOnly L s (failFor a0 a1 a2 a3 a4) ↔ changesOnly L s a4 := by
  (fun_cases failFor a0 a1 a2 a3 a4 <;> (simp +zetaDelta only [iff_self, failQueue_only, writeDataFailed_only, lrdDataDone_only, ringFault_only, settleCache_only, dropEmptySegs_only, ctrlFatal_only, contextLost_only, dropCmd_only, h0, h1, h2, h3, h4, h5, h6, h7, h8, h9, h10, h11, h12, h13, h14]; done))
theorem settleAbandoned_only {L : List Part} {s : State} (a0 : HostId) (a1 : Fn) (a2 : State) (h0 : Part.out ∈ L) (h1 : Part.drawn ∈ L) (h2 : Part.nv ∈ L) (h3 : Part.owner ∈ L) (h4 : Part.rings ∈ L) (h5 : Part.hosts ∈ L) (h6 : Part.fns ∈ L) (h7 : Part.queues ∈ L) (h8 : Part.hod ∈ L) (h9 : Part.sched ∈ L) (h10 : Part.net ∈ L) (h11 : Part.ctx ∈ L) (h12 : Part.nvme ∈ L) (h13 : Part.crypt ∈ L) (h14 : Part.counters ∈ L) : changesOnly L s (settleAbandoned a0 a1 a2) ↔ changesOnly L s a2 := by
  (simp only [settleAbandoned, only_foldl, iff_self, implies_true, only_ite, ite_self, modLink_only, failFor_only, h0, h1, h2, h3, h4, h5, h6, h7, h8, h9, h10, h11, h12, h13, h14]; done)
theorem clearBme_only {L : List Part} {s : State} (a0 : HostId) (a1 : Fn) (a2 : State) (h0 : Part.out ∈ L) (h1 : Part.drawn ∈ L) (h2 : Part.nv ∈ L) (h3 : Part.owner ∈ L) (h4 : Part.rings ∈ L) (h5 : Part.hosts ∈ L) (h6 : Part.fns ∈ L) (h7 : Part.queues ∈ L) (h8 : Part.hod ∈ L) (h9 : Part.sched ∈ L) (h10 : Part.net ∈ L) (h11 : Part.ctx ∈ L) (h12 : Part.nvme ∈ L) (h13 : Part.crypt ∈ L) (h14 : Part.counters ∈ L) : changesOnly L s (clearBme a0 a1 a2) ↔ changesOnly L s a2 := by
  (simp only [clearBme, iff_self, only_ite, ite_self, modFn_only, settleAbandoned_only, abandonReads_only, h0, h1, h2, h3, h4, h5, h6, h7, h8, h9, h10, h11, h12, h13, h14]; done)
theorem execBusMasterEnableClear_only {L : List Part} {s : State} (a0 : HostId) (a1 : Fn) (a2 : State) (h0 : Part.out ∈ L) (h1 : Part.drawn ∈ L) (h2 : Part.nv ∈ L) (h3 : Part.owner ∈ L) (h4 : Part.rings ∈ L) (h5 : Part.hosts ∈ L) (h6 : Part.fns ∈ L) (h7 : Part.queues ∈ L) (h8 : Part.hod ∈ L) (h9 : Part.sched ∈ L) (h10 : Part.net ∈ L) (h11 : Part.ctx ∈ L) (h12 : Part.nvme ∈ L) (h13 : Part.crypt ∈ L) (h14 : Part.counters ∈ L) (hx : changesOnly L s a2) : OnlyO L s (execBusMasterEnableClear a0 a1 a2) := by
  (simp only [execBusMasterEnableClear, onlyO_next, hx, clearBme_only, h0, h1, h2, h3, h4, h5, h6, h7, h8, h9, h10, h11, h12, h13, h14]; done)
theorem setBme_only {L : List Part} {s : State} (a0 : HostId) (a1 : Fn) (a2 : State) (h0 : Part.out ∈ L) (h1 : Part.drawn ∈ L) (h2 : Part.hosts ∈ L) (h3 : Part.fns ∈ L) (h4 : Part.queues ∈ L) : changesOnly L s (setBme a0 a1 a2) ↔ changesOnly L s a2 := by
  (simp only [setBme, only_foldl, iff_self, implies_true, only_ite, ite_self, modFn_only, signalVector_only, kickQueues_only, h0, h1, h2, h3, h4]; done)
theorem execBusMasterEnableSet_only {L : List Part} {s : State} (a0 : HostId) (a1 : Fn) (a2 : State) (h0 : Part.out ∈ L) (h1 : Part.drawn ∈ L) (h2 : Part.hosts ∈ L) (h3 : Part.fns ∈ L) (h4 : Part.queues ∈ L) (hx : changesOnly L s a2) : OnlyO L s (execBusMasterEnableSet a0 a1 a2) := by
  (simp only [execBusMasterEnableSet, onlyO_next, hx, setBme_only, h0, h1, h2, h3, h4]; done)
theorem sendPending_only {L : List Part} {s : State} (a0 : HostId) (a1 : Fn) (a2 : State) (h0 : Part.out ∈ L) (h1 : Part.fns ∈ L) : changesOnly L s (sendPending a0 a1 a2) ↔ changesOnly L s a2 := by
  (simp only [sendPending, only_foldl, iff_self, implies_true, modFn_only, signalVector_only, h0, h1]; done)
theorem unmask_only {L : List Part} {s : State} (a0 : HostId) (a1 : Fn) (a2 : Option Nat) (a3 : State) (h0 : Part.out ∈ L) (h1 : Part.fns ∈ L) : changesOnly L s (unmask a0 a1 a2 a3) ↔ changesOnly L s a3 := by
  (fun_cases unmask a0 a1 a2 a3 <;> (simp +zetaDelta only [iff_self, modFn_only, sendPending_only, h0, h1]; done))
theorem execMsixUnmask_only {L : List Part} {s : State} (a0 : HostId) (a1 : Fn) (a2 : Option (Fin 2048)) (a3 : State) (h0 : Part.out ∈ L) (h1 : Part.fns ∈ L) (hx : changesOnly L s a3) : OnlyO L s (execMsixUnmask a0 a1 a2 a3) := by
  (simp only [execMsixUnmask, onlyO_next, hx, unmask_only, h0, h1]; done)
theorem clearIntx_only {L : List Part} {s : State} (a0 : HostId) (a1 : Nat) (a2 : State) (h0 : Part.out ∈ L) (h1 : Part.hosts ∈ L) : changesOnly L s (clearIntx a0 a1 a2) ↔ changesOnly L s a2 := by
  (simp only [clearIntx, iff_self, modLink_only, refreshInta_only, h0, h1]; done)
theorem execHlinkIntxStatusClear_only {L : List Part} {s : State} (a0 : HostId) (a1 : Word) (a2 : State) (h0 : Part.out ∈ L) (h1 : Part.hosts ∈ L) (hx : changesOnly L s a2) : OnlyO L s (execHlinkIntxStatusClear a0 a1 a2) := by
  (simp only [execHlinkIntxStatusClear, only_ite, ite_self, onlyO_next, hx, clearIntx_only, h0, h1]; done)
theorem detachHost_only {L : List Part} {s : State} (a0 : HostId) (a1 : DetachCause) (a2 : State) (h0 : Part.fenced ∈ L) (h1 : Part.out ∈ L) (h2 : Part.drawn ∈ L) (h3 : Part.nv ∈ L) (h4 : Part.epochs ∈ L) (h5 : Part.owner ∈ L) (h6 : Part.rings ∈ L) (h7 : Part.ops ∈ L) (h8 : Part.hosts ∈ L) (h9 : Part.fns ∈ L) (h10 : Part.queues ∈ L) (h11 : Part.tables ∈ L) (h12 : Part.hod ∈ L) (h13 : Part.sched ∈ L) (h14 : Part.net ∈ L) (h15 : Part.ctx ∈ L) (h16 : Part.nvme ∈ L) (h17 : Part.crypt ∈ L) (h18 : Part.sec ∈ L) (h19 : Part.counters ∈ L) : changesOnly L s (detachHost a0 a1 a2) ↔ changesOnly L s a2 := by
  (simp only [detachHost, iff_self, only_ite, ite_self, clearFns_only, unitsDown_only, modLink_only, raiseOwner_only, count_only, h0, h1, h2, h3, h4, h5, h6, h7, h8, h9, h10, h11, h12, h13, h14, h15, h16, h17, h18, h19]; done)
theorem execHostDetach_only {L : List Part} {s : State} (a0 : HostId) (a1 : DetachCause) (a2 : State) (h0 : Part.fenced ∈ L) (h1 : Part.out ∈ L) (h2 : Part.drawn ∈ L) (h3 : Part.nv ∈ L) (h4 : Part.epochs ∈ L) (h5 : Part.owner ∈ L) (h6 : Part.rings ∈ L) (h7 : Part.ops ∈ L) (h8 : Part.hosts ∈ L) (h9 : Part.fns ∈ L) (h10 : Part.queues ∈ L) (h11 : Part.tables ∈ L) (h12 : Part.hod ∈ L) (h13 : Part.sched ∈ L) (h14 : Part.net ∈ L) (h15 : Part.ctx ∈ L) (h16 : Part.nvme ∈ L) (h17 : Part.crypt ∈ L) (h18 : Part.sec ∈ L) (h19 : Part.counters ∈ L) (hx : changesOnly L s a2) : OnlyO L s (execHostDetach a0 a1 a2) := by
  (simp only [execHostDetach, onlyO_next, hx, detachHost_only, h0, h1, h2, h3, h4, h5, h6, h7, h8, h9, h10, h11, h12, h13, h14, h15, h16, h17, h18, h19]; done)
theorem raiseLinkUp_only {L : List Part} {s : State} (a0 : HostId) (a1 : State) (h0 : Part.owner ∈ L) : changesOnly L s (raiseLinkUp a0 a1) ↔ changesOnly L s a1 := by
  (simp only [raiseLinkUp, iff_self, raiseOwner_only, h0]; done)
theorem noteBadLanes_only {L : List Part} {s : State} (a0 : HostId) (a1 : List Nat) (a2 : State) (h0 : Part.glb ∈ L) (h1 : Part.owner ∈ L) (h2 : Part.hosts ∈ L) (h3 : Part.degr ∈ L) : changesOnly L s (noteBadLanes a0 a1 a2) ↔ changesOnly L s a2 := by
  (simp only [noteBadLanes, only_foldl, iff_self, implies_true, only_ite, ite_self, failHostLane_only, h0, h1, h2, h3]; done)
theorem attachHost_only {L : List Part} {s : State} (a0 : HostId) (a1 : LinkTraining) (a2 : State) (h0 : Part.glb ∈ L) (h1 : Part.owner ∈ L) (h2 : Part.hosts ∈ L) (h3 : Part.parse ∈ L) (h4 : Part.cls ∈ L) (h5 : Part.sched ∈ L) (h6 : Part.net ∈ L) (h7 : Part.degr ∈ L) : changesOnly L s (attachHost a0 a1 a2) ↔ changesOnly L s a2 := by
  (simp only [attachHost, only_foldl, iff_self, implies_true, only_ite, ite_self, raiseLinkUp_only, modLink_only, noteBadLanes_only, reloadUnit_only, h0, h1, h2, h3, h4, h5, h6, h7]; done)
theorem execHostAttach_only {L : List Part} {s : State} (a0 : HostId) (a1 : LinkTraining) (a2 : State) (h0 : Part.glb ∈ L) (h1 : Part.owner ∈ L) (h2 : Part.hosts ∈ L) (h3 : Part.parse ∈ L) (h4 : Part.cls ∈ L) (h5 : Part.sched ∈ L) (h6 : Part.net ∈ L) (h7 : Part.degr ∈ L) (hx : changesOnly L s a2) : OnlyO L s (execHostAttach a0 a1 a2) := by
  (unfold execHostAttach; (repeat' (first | with_reducible assumption | with_reducible rfl | (simp only [only_ite, onlyO_next, hx, attachHost_only, modLink_only, h0, h1, h2, h3, h4, h5, h6, h7]; done) | split | (with_reducible refine (onlyO_next _ _ _).mpr ?_) | (with_reducible refine (only_foldl _ (fun y b => ?_) _ _).mpr ?_) | (with_reducible refine (only_foldl _ (fun y b => ?_) _ _).trans ?_) | (simp only []))); done)
theorem execLinkRecoveryEntry_only {L : List Part} {s : State} (a0 : HostId) (a1 : State) (h0 : Part.hosts ∈ L) (hx : changesOnly L s a1) : OnlyO L s (execLinkRecoveryEntry a0 a1) := by
  (simp only [execLinkRecoveryEntry, only_ite, ite_self, onlyO_next, hx, modLink_only, h0]; done)
theorem execLinkRecoveryExit_only {L : List Part} {s : State} (a0 : HostId) (a1 : State) (h0 : Part.hosts ∈ L) (hx : changesOnly L s a1) : OnlyO L s (execLinkRecoveryExit a0 a1) := by
  (simp only [execLinkRecoveryExit, only_ite, ite_self, onlyO_next, hx, modLink_only, h0]; done)
theorem execLinkWidthChange_only {L : List Part} {s : State} (a0 : HostId) (a1 : LinkTraining) (a2 : State) (h0 : Part.fenced ∈ L) (h1 : Part.out ∈ L) (h2 : Part.drawn ∈ L) (h3 : Part.nv ∈ L) (h4 : Part.glb ∈ L) (h5 : Part.epochs ∈ L) (h6 : Part.owner ∈ L) (h7 : Part.rings ∈ L) (h8 : Part.ops ∈ L) (h9 : Part.hosts ∈ L) (h10 : Part.fns ∈ L) (h11 : Part.queues ∈ L) (h12 : Part.tables ∈ L) (h13 : Part.hod ∈ L) (h14 : Part.sched ∈ L) (h15 : Part.net ∈ L) (h16 : Part.ctx ∈ L) (h17 : Part.nvme ∈ L) (h18 : Part.crypt ∈ L) (h19 : Part.sec ∈ L) (h20 : Part.degr ∈ L) (h21 : Part.counters ∈ L) (hx : changesOnly L s a2) : OnlyO L s (execLinkWidthChange a0 a1 a2) := by
  (simp only [execLinkWidthChange, only_ite, ite_self, onlyO_next, hx, raiseLinkUp_only, modLink_only, noteBadLanes_only, detachHost_only, h0, h1, h2, h3, h4, h5, h6, h7, h8, h9, h10, h11, h12, h13, h14, h15, h16, h17, h18, h19, h20, h21]; done)
theorem execHostLaneFaultInService_only {L : List Part} {s : State} (a0 : HostId) (a1 : Fin 16) (a2 : State) (h0 : Part.fenced ∈ L) (h1 : Part.out ∈ L) (h2 : Part.drawn ∈ L) (h3 : Part.nv ∈ L) (h4 : Part.glb ∈ L) (h5 : Part.epochs ∈ L) (h6 : Part.owner ∈ L) (h7 : Part.rings ∈ L) (h8 : Part.ops ∈ L) (h9 : Part.hosts ∈ L) (h10 : Part.fns ∈ L) (h11 : Part.queues ∈ L) (h12 : Part.tables ∈ L) (h13 : Part.hod ∈ L) (h14 : Part.sched ∈ L) (h15 : Part.net ∈ L) (h16 : Part.ctx ∈ L) (h17 : Part.nvme ∈ L) (h18 : Part.crypt ∈ L) (h19 : Part.sec ∈ L) (h20 : Part.degr ∈ L) (h21 : Part.counters ∈ L) (hx : changesOnly L s a2) : OnlyO L s (execHostLaneFaultInService a0 a1 a2) := by
  (simp only [execHostLaneFaultInService, only_ite, ite_self, onlyO_next, hx, raiseLinkUp_only, modLink_only, failHostLane_only, detachHost_only, h0, h1, h2, h3, h4, h5, h6, h7, h8, h9, h10, h11, h12, h13, h14, h15, h16, h17, h18, h19, h20, h21]; done)
theorem execAtsInvalidationRequest_only {L : List Part} {s : State} (a0 : HostId) (a1 : Fn) (a2 : State) (h0 : Part.out ∈ L) (hx : changesOnly L s a2) : OnlyO L s (execAtsInvalidationRequest a0 a1 a2) := by
  (simp only [execAtsInvalidationRequest, only_ite, ite_self, onlyO_next, hx, emit_only, h0]; done)
theorem cfgKeep_only {L : List Part} {s : State} (a0 : HostId) (a1 : Fn) (a2 : Nat) (a3 : Nat) (a4 : State) (h0 : Part.fns ∈ L) : changesOnly L s (cfgKeep a0 a1 a2 a3 a4) ↔ changesOnly L s a4 := by
  (simp only [cfgKeep, iff_self, modFn_only, h0]; done)
theorem cfgCommand_only {L : List Part} {s : State} (a0 : HostId) (a1 : Fn) (a2 : Nat) (a3 : State) (h0 : Part.out ∈ L) (h1 : Part.drawn ∈ L) (h2 : Part.nv ∈ L) (h3 : Part.owner ∈ L) (h4 : Part.rings ∈ L) (h5 : Part.hosts ∈ L) (h6 : Part.fns ∈ L) (h7 : Part.queues ∈ L) (h8 : Part.hod ∈ L) (h9 : Part.sched ∈ L) (h10 : Part.net ∈ L) (h11 : Part.ctx ∈ L) (h12 : Part.nvme ∈ L) (h13 : Part.crypt ∈ L) (h14 : Part.counters ∈ L) : changesOnly L s (cfgCommand a0 a1 a2 a3) ↔ changesOnly L s a3 := by
  (simp only [cfgCommand, iff_self, only_ite, ite_self, modFn_only, clearBme_only, setBme_only, refreshInta_only, h0, h1, h2, h3, h4, h5, h6, h7, h8, h9, h10, h11, h12, h13, h14]; done)
theorem cfgMsix_only {L : List Part} {s : State} (a0 : HostId) (a1 : Fn) (a2 : Nat) (a3 : State) (h0 : Part.out ∈ L) (h1 : Part.hosts ∈ L) (h2 : Part.fns ∈ L) : changesOnly L s (cfgMsix a0 a1 a2 a3) ↔ changesOnly L s a3 := by
  (simp only [cfgMsix, iff_self, modFn_only, refreshInta_only, sendPending_only, h0, h1, h2]; done)
theorem aerClear_only {L : List Part} {s : State} (a0 : HostId) (a1 : Fn) (a2 : Bool) (a3 : Nat) (a4 : State) (h0 : Part.fns ∈ L) : changesOnly L s (aerClear a0 a1 a2 a3 a4) ↔ changesOnly L s a4 := by
  (simp only [aerClear, iff_self, modFn_only, h0]; done)
theorem cfgWrite_only {L : List Part} {s : State} (a0 : HostId) (a1 : Fn) (a2 : Nat) (a3 : Nat) (a4 : State) (h0 : Part.fenced ∈ L) (h1 : Part.out ∈ L) (h2 : Part.drawn ∈ L) (h3 : Part.nv ∈ L) (h4 : Part.epochs ∈ L) (h5 : Part.owner ∈ L) (h6 : Part.rings ∈ L) (h7 : Part.ops ∈ L) (h8 : Part.hosts ∈ L) (h9 : Part.fns ∈ L) (h10 : Part.queues ∈ L) (h11 : Part.tables ∈ L) (h12 : Part.hod ∈ L) (h13 : Part.sched ∈ L) (h14 : Part.net ∈ L) (h15 : Part.ctx ∈ L) (h16 : Part.nvme ∈ L) (h17 : Part.crypt ∈ L) (h18 : Part.sec ∈ L) (h19 : Part.counters ∈ L) : changesOnly L s (cfgWrite a0 a1 a2 a3 a4) ↔ changesOnly L s a4 := by
  (simp only [cfgWrite, iff_self, only_ite, ite_self, modFn_only, leaveD3_only, cfgKeep_only, setVfEnable_only, initiateFlr_only, cfgMsix_only, clearVfEnable_only, aerClear_only, cfgCommand_only, h0, h1, h2, h3, h4, h5, h6, h7, h8, h9, h10, h11, h12, h13, h14, h15, h16, h17, h18, h19]; done)
theorem execConfigWrite_only {L : List Part} {s : State} (a0 : HostId) (a1 : Fn) (a2 : BitVec 12) (a3 : Word) (a4 : BitVec 4) (a5 : State) (h0 : Part.fenced ∈ L) (h1 : Part.out ∈ L) (h2 : Part.drawn ∈ L) (h3 : Part.nv ∈ L) (h4 : Part.epochs ∈ L) (h5 : Part.owner ∈ L) (h6 : Part.rings ∈ L) (h7 : Part.ops ∈ L) (h8 : Part.hosts ∈ L) (h9 : Part.fns ∈ L) (h10 : Part.queues ∈ L) (h11 : Part.tables ∈ L) (h12 : Part.hod ∈ L) (h13 : Part.sched ∈ L) (h14 : Part.net ∈ L) (h15 : Part.ctx ∈ L) (h16 : Part.nvme ∈ L) (h17 : Part.crypt ∈ L) (h18 : Part.sec ∈ L) (h19 : Part.counters ∈ L) (hx : changesOnly L s a5) : OnlyO L s (execConfigWrite a0 a1 a2 a3 a4 a5) := by
  (simp only [execConfigWrite, only_ite, ite_self, onlyO_next, hx, cfgWrite_only, h0, h1, h2, h3, h4, h5, h6, h7, h8, h9, h10, h11, h12, h13, h14, h15, h16, h17, h18, h19]; done)
theorem logAer_only {L : List Part} {s : State} (a0 : HostId) (a1 : Fn) (a2 : Bool) (a3 : Nat) (a4 : Bool) (a5 : List Nat) (a6 : Bool) (a7 : State) (h0 : Part.out ∈ L) (h1 : Part.fns ∈ L) : changesOnly L s (logAer a0 a1 a2 a3 a4 a5 a6 a7) ↔ changesOnly L s a7 := by
  (fun_cases logAer a0 a1 a2 a3 a4 a5 a6 a7 <;> (simp +zetaDelta only [iff_self, modFn_only, emit_only, h0, h1]; done))
theorem logAllPfs_only {L : List Part} {s : State} (a0 : HostId) (a1 : Nat) (a2 : List Nat) (a3 : State) (h0 : Part.out ∈ L) (h1 : Part.fns ∈ L) : changesOnly L s (logAllPfs a0 a1 a2 a3) ↔ changesOnly L s a3 := by
  (simp only [logAllPfs, iff_self, logAer_only, h0, h1]; done)
theorem drawnN_only {L : List Part} {s : State} (a0 : Nat) (a1 : State) (h0 : Part.drawn ∈ L) : changesOnly L s (drawnN a0 a1) ↔ changesOnly L s a1 := by
  (simp only [drawnN, iff_self, h0, only_drawn]; done)
theorem linkViolation_only {L : List Part} {s : State} (a0 : Nat) (a1 : HostId) (a2 : Fn) (a3 : Option Nat) (a4 : List Nat) (a5 : State) (h0 : Part.out ∈ L) (h1 : Part.owner ∈ L) (h2 : Part.rings ∈ L) (h3 : Part.hosts ∈ L) (h4 : Part.fns ∈ L) (h5 : Part.violations ∈ L) (h6 : Part.counters ∈ L) : changesOnly L s (linkViolation a0 a1 a2 a3 a4 a5) ↔ changesOnly L s a5 := by
  (simp only [linkViolation, iff_self, logViolation_only, h0, h1, h2, h3, h4, h5, h6]; done)
theorem unsupported_only {L : List Part} {s : State} (a0 : HostId) (a1 : Fn) (a2 : Bool) (a3 : Option Nat) (a4 : List Nat) (a5 : State) (h0 : Part.out ∈ L) (h1 : Part.owner ∈ L) (h2 : Part.rings ∈ L) (h3 : Part.hosts ∈ L) (h4 : Part.fns ∈ L) (h5 : Part.violations ∈ L) (h6 : Part.counters ∈ L) : changesOnly L s (unsupported a0 a1 a2 a3 a4 a5) ↔ changesOnly L s a5 := by
  (simp only [unsupported, iff_self, only_ite, ite_self, logAer_only, linkViolation_only, emit_only, h0, h1, h2, h3, h4, h5, h6]; done)
theorem completerAbort_only {L : List Part} {s : State} (a0 : HostId) (a1 : Fn) (a2 : Option Nat) (a3 : List Nat) (a4 : State) (h0 : Part.out ∈ L) (h1 : Part.owner ∈ L) (h2 : Part.rings ∈ L) (h3 : Part.hosts ∈ L) (h4 : Part.fns ∈ L) (h5 : Part.violations ∈ L) (h6 : Part.counters ∈ L) : changesOnly L s (completerAbort a0 a1 a2 a3 a4) ↔ changesOnly L s a4 := by
  (simp only [completerAbort, iff_self, logAer_only, linkViolation_only, emit_only, h0, h1, h2, h3, h4, h5, h6]; done)
theorem execIoOrAtomicRequest_only {L : List Part} {s : State} (a0 : HostId) (a1 : Fn) (a2 : Bool) (a3 : State) (h0 : Part.out ∈ L) (h1 : Part.drawn ∈ L) (h2 : Part.owner ∈ L) (h3 : Part.rings ∈ L) (h4 : Part.hosts ∈ L) (h5 : Part.fns ∈ L) (h6 : Part.violations ∈ L) (h7 : Part.counters ∈ L) (hx : changesOnly L s a3) : OnlyO L s (execIoOrAtomicRequest a0 a1 a2 a3) := by
  (simp only [execIoOrAtomicRequest, only_ite, ite_self, onlyO_next, hx, drawnN_only, unsupported_only, h0, h1, h2, h3, h4, h5, h6, h7]; done)
theorem execConfigRequest_only {L : List Part} {s : State} (a0 : HostId) (a1 : CfgReq) (a2 : State) (h0 : Part.out ∈ L) (h1 : Part.drawn ∈ L) (h2 : Part.owner ∈ L) (h3 : Part.rings ∈ L) (h4 : Part.hosts ∈ L) (h5 : Part.fns ∈ L) (h6 : Part.violations ∈ L) (h7 : Part.counters ∈ L) (hx : changesOnly L s a2) : OnlyO L s (execConfigRequest a0 a1 a2) := by
  (simp only [execConfigRequest, only_ite, ite_self, onlyO_next, hx, drawnN_only, emit_only, unsupported_only, h0, h1, h2, h3, h4, h5, h6, h7]; done)
theorem execPcieLinkError_only {L : List Part} {s : State} (a0 : HostId) (a1 : Fn) (a2 : LinkError) (a3 : State) (h0 : Part.fenced ∈ L) (h1 : Part.out ∈ L) (h2 : Part.drawn ∈ L) (h3 : Part.nv ∈ L) (h4 : Part.glb ∈ L) (h5 : Part.epochs ∈ L) (h6 : Part.owner ∈ L) (h7 : Part.rings ∈ L) (h8 : Part.ops ∈ L) (h9 : Part.hosts ∈ L) (h10 : Part.fns ∈ L) (h11 : Part.queues ∈ L) (h12 : Part.tables ∈ L) (h13 : Part.hod ∈ L) (h14 : Part.sched ∈ L) (h15 : Part.net ∈ L) (h16 : Part.ctx ∈ L) (h17 : Part.nvme ∈ L) (h18 : Part.crypt ∈ L) (h19 : Part.sec ∈ L) (h20 : Part.degr ∈ L) (h21 : Part.counters ∈ L) (hx : changesOnly L s a3) : OnlyO L s (execPcieLinkError a0 a1 a2 a3) := by
  (unfold execPcieLinkError; (repeat' (first | with_reducible assumption | with_reducible rfl | (simp only [only_ite, onlyO_next, hx, logAllPfs_only, logAer_only, unitLost_only, detachHost_only, h0, h1, h2, h3, h4, h5, h6, h7, h8, h9, h10, h11, h12, h13, h14, h15, h16, h17, h18, h19, h20, h21]; done) | split | (with_reducible refine (onlyO_next _ _ _).mpr ?_) | (with_reducible refine (only_foldl _ (fun y b => ?_) _ _).mpr ?_) | (with_reducible refine (only_foldl _ (fun y b => ?_) _ _).trans ?_) | (simp only []))); done)
theorem readReturns_only {L : List Part} {s : State} (a0 : HostId) (a1 : ReadReq) (a2 : CplStatus) (a3 : List Byte) (a4 : State) (h0 : Part.out ∈ L) (h1 : Part.drawn ∈ L) (h2 : Part.nv ∈ L) (h3 : Part.owner ∈ L) (h4 : Part.rings ∈ L) (h5 : Part.hosts ∈ L) (h6 : Part.fns ∈ L) (h7 : Part.queues ∈ L) (h8 : Part.hod ∈ L) (h9 : Part.sched ∈ L) (h10 : Part.net ∈ L) (h11 : Part.ctx ∈ L) (h12 : Part.nvme ∈ L) (h13 : Part.crypt ∈ L) (h14 : Part.counters ∈ L) : changesOnly L s (readReturns a0 a1 a2 a3 a4) ↔ changesOnly L s a4 := by
  (fun_cases readReturns a0 a1 a2 a3 a4 <;> (simp +zetaDelta only [iff_self, only_ite, ite_self, txDataDone_only, endRead_only, writeDataFailed_only, lrdDataDone_only, fetched_only, rxDescrDone_only, txDescrDone_only, failFor_only, settleCache_only, knowHead_only, countC_only, insertWrite_only, contextLost_only, h0, h1, h2, h3, h4, h5, h6, h7, h8, h9, h10, h11, h12, h13, h14]; done))
theorem abandonedOver_only {L : List Part} {s : State} (a0 : HostId) (a1 : ReadReq) (a2 : State) (h0 : Part.out ∈ L) (h1 : Part.drawn ∈ L) (h2 : Part.nv ∈ L) (h3 : Part.owner ∈ L) (h4 : Part.rings ∈ L) (h5 : Part.hosts ∈ L) (h6 : Part.fns ∈ L) (h7 : Part.queues ∈ L) (h8 : Part.hod ∈ L) (h9 : Part.sched ∈ L) (h10 : Part.net ∈ L) (h11 : Part.ctx ∈ L) (h12 : Part.nvme ∈ L) (h13 : Part.crypt ∈ L) (h14 : Part.counters ∈ L) : changesOnly L s (abandonedOver a0 a1 a2) ↔ changesOnly L s a2 := by
  (simp only [abandonedOver, iff_self, only_ite, ite_self, modLink_only, settleAbandoned_only, h0, h1, h2, h3, h4, h5, h6, h7, h8, h9, h10, h11, h12, h13, h14]; done)
theorem unexpectedCpl_only {L : List Part} {s : State} (a0 : HostId) (a1 : Fn) (a2 : State) (h0 : Part.out ∈ L) (h1 : Part.drawn ∈ L) (h2 : Part.owner ∈ L) (h3 : Part.rings ∈ L) (h4 : Part.hosts ∈ L) (h5 : Part.fns ∈ L) (h6 : Part.violations ∈ L) (h7 : Part.counters ∈ L) : changesOnly L s (unexpectedCpl a0 a1 a2) ↔ changesOnly L s a2 := by
  (simp only [unexpectedCpl, iff_self, drawnN_only, logAer_only, linkViolation_only, h0, h1, h2, h3, h4, h5, h6, h7]; done)
theorem execCompletionReceived_only {L : List Part} {s : State} (a0 : HostId) (a1 : BitVec 14) (a2 : CplStatus) (a3 : List Byte) (a4 : State) (h0 : Part.out ∈ L) (h1 : Part.drawn ∈ L) (h2 : Part.nv ∈ L) (h3 : Part.owner ∈ L) (h4 : Part.rings ∈ L) (h5 : Part.hosts ∈ L) (h6 : Part.fns ∈ L) (h7 : Part.queues ∈ L) (h8 : Part.hod ∈ L) (h9 : Part.sched ∈ L) (h10 : Part.net ∈ L) (h11 : Part.ctx ∈ L) (h12 : Part.nvme ∈ L) (h13 : Part.crypt ∈ L) (h14 : Part.violations ∈ L) (h15 : Part.counters ∈ L) (hx : changesOnly L s a4) : OnlyO L s (execCompletionReceived a0 a1 a2 a3 a4) := by
  (unfold execCompletionReceived; (repeat' (first | with_reducible assumption | with_reducible rfl | (simp only [only_ite, ite_self, onlyO_next, hx, drawnN_only, endRead_only, countFn_only, logAer_only, modLink_only, readReturns_only, abandonedOver_only, unexpectedCpl_only, h0, h1, h2, h3, h4, h5, h6, h7, h8, h9, h10, h11, h12, h13, h14, h15]; done) | split | (with_reducible refine (onlyO_next _ _ _).mpr ?_) | (with_reducible refine (only_foldl _ (fun y b => ?_) _ _).mpr ?_) | (with_reducible refine (only_foldl _ (fun y b => ?_) _ _).trans ?_) | (simp only []))); done)
theorem execCompletionTimeout_only {L : List Part} {s : State} (a0 : HostId) (a1 : BitVec 14) (a2 : State) (h0 : Part.out ∈ L) (h1 : Part.drawn ∈ L) (h2 : Part.nv ∈ L) (h3 : Part.owner ∈ L) (h4 : Part.rings ∈ L) (h5 : Part.hosts ∈ L) (h6 : Part.fns ∈ L) (h7 : Part.queues ∈ L) (h8 : Part.hod ∈ L) (h9 : Part.sched ∈ L) (h10 : Part.net ∈ L) (h11 : Part.ctx ∈ L) (h12 : Part.nvme ∈ L) (h13 : Part.crypt ∈ L) (h14 : Part.counters ∈ L) (hx : changesOnly L s a2) : OnlyO L s (execCompletionTimeout a0 a1 a2) := by
  (unfold execCompletionTimeout; (repeat' (first | with_reducible assumption | with_reducible rfl | (simp only [only_ite, ite_self, onlyO_next, hx, countFn_only, logAer_only, modLink_only, failFor_only, pumpReads_only, abandonedOver_only, h0, h1, h2, h3, h4, h5, h6, h7, h8, h9, h10, h11, h12, h13, h14]; done) | split | (with_reducible refine (onlyO_next _ _ _).mpr ?_) | (with_reducible refine (only_foldl _ (fun y b => ?_) _ _).mpr ?_) | (with_reducible refine (only_foldl _ (fun y b => ?_) _ _).trans ?_) | (simp only []))); done)
theorem execTagQuarantineEnd_only {L : List Part} {s : State} (a0 : HostId) (a1 : BitVec 14) (a2 : State) (h0 : Part.out ∈ L) (h1 : Part.drawn ∈ L) (h2 : Part.hosts ∈ L) (hx : changesOnly L s a2) : OnlyO L s (execTagQuarantineEnd a0 a1 a2) := by
  (simp only [execTagQuarantineEnd, onlyO_next, hx, modLink_only, pumpReads_only, h0, h1, h2]; done)
theorem dropPipe_only {L : List Part} {s : State} (a0 : Nat) (a1 : State) (h0 : Part.out ∈ L) (h1 : Part.hosts ∈ L) (h2 : Part.fns ∈ L) (h3 : Part.queues ∈ L) (h4 : Part.hod ∈ L) (h5 : Part.sched ∈ L) (h6 : Part.net ∈ L) (h7 : Part.crypt ∈ L) (h8 : Part.counters ∈ L) : changesOnly L s (dropPipe a0 a1) ↔ changesOnly L s a1 := by
  (simp only [dropPipe, only_foldl, iff_self, implies_true, modCrypt_only, dropPkt_only, modPipe_only, count_only, h0, h1, h2, h3, h4, h5, h6, h7, h8]; done)
theorem dropCore_only {L : List Part} {s : State} (a0 : Nat) (a1 : State) (h0 : Part.crypt ∈ L) (h1 : Part.cores ∈ L) : changesOnly L s (dropCore a0 a1) ↔ changesOnly L s a1 := by
  (simp only [dropCore, iff_self, modCrypt_only, modCluster_only, modCore_only, h0, h1]; done)
theorem checkPair_only {L : List Part} {s : State} (a0 : Nat) (a1 : State) (h0 : Part.out ∈ L) (h1 : Part.owner ∈ L) (h2 : Part.hosts ∈ L) (h3 : Part.fns ∈ L) (h4 : Part.queues ∈ L) (h5 : Part.eth ∈ L) (h6 : Part.hod ∈ L) (h7 : Part.sched ∈ L) (h8 : Part.net ∈ L) (h9 : Part.counters ∈ L) : changesOnly L s (checkPair a0 a1) ↔ changesOnly L s a1 := by
  (simp only [checkPair, iff_self, only_ite, ite_self, disableGroup_only, h0, h1, h2, h3, h4, h5, h6, h7, h8, h9]; done)
theorem failSpared_only {L : List Part} {s : State} (a0 : Nat) (a1 : Nat) (a2 : State) (h0 : Part.nv ∈ L) (h1 : Part.glb ∈ L) (h2 : Part.owner ∈ L) (h3 : Part.degr ∈ L) (h4 : Part.bist ∈ L) (h5 : Part.counters ∈ L) : changesOnly L s (failSpared a0 a1 a2) ↔ changesOnly L s a2 := by
  (simp only [failSpared, iff_self, only_ite, ite_self, repair_only, modBist_only, unitLost_only, h0, h1, h2, h3, h4, h5]; done)
theorem failMacro_only {L : List Part} {s : State} (a0 : Nat) (a1 : Nat) (a2 : State) (h0 : Part.drawn ∈ L) (h1 : Part.nv ∈ L) (h2 : Part.owner ∈ L) (h3 : Part.counters ∈ L) : changesOnly L s (failMacro a0 a1 a2) ↔ changesOnly L s a2 := by
  (simp only [failMacro, iff_self, repair_only, drawn1_only, h0, h1, h2, h3]; done)
theorem failLost_only {L : List Part} {s : State} (a0 : Nat) (a1 : Nat) (a2 : State) (h0 : Part.glb ∈ L) (h1 : Part.owner ∈ L) (h2 : Part.degr ∈ L) : changesOnly L s (failLost a0 a1 a2) ↔ changesOnly L s a2 := by
  (simp only [failLost, iff_self, only_ite, ite_self, unitLost_only, h0, h1, h2]; done)
theorem only_iff_of {L : List Part} {s x y : State} (h : changesOnly L x y) : changesOnly L s y ↔ changesOnly L s x := by
  refine changesOnly_congr fun p hp => ?_
  have e := h p hp
  cases p <;> simp only [Part.same] at e ⊢ <;> rw [e]
theorem unitFails_only {L : List Part} {s : State} (a0 : Nat) (a1 : Nat) (a2 : State) (h0 : Part.fenced ∈ L) (h1 : Part.out ∈ L) (h2 : Part.drawn ∈ L) (h3 : Part.nv ∈ L) (h4 : Part.glb ∈ L) (h5 : Part.epochs ∈ L) (h6 : Part.owner ∈ L) (h7 : Part.rings ∈ L) (h8 : Part.ops ∈ L) (h9 : Part.hosts ∈ L) (h10 : Part.fns ∈ L) (h11 : Part.queues ∈ L) (h12 : Part.eth ∈ L) (h13 : Part.tables ∈ L) (h14 : Part.hod ∈ L) (h15 : Part.sched ∈ L) (h16 : Part.net ∈ L) (h17 : Part.ctx ∈ L) (h18 : Part.nvme ∈ L) (h19 : Part.crypt ∈ L) (h20 : Part.cores ∈ L) (h21 : Part.dram ∈ L) (h22 : Part.sec ∈ L) (h23 : Part.elec ∈ L) (h24 : Part.degr ∈ L) (h25 : Part.bist ∈ L) (h26 : Part.counters ∈ L) : changesOnly L s (unitFails a0 a1 a2) ↔ changesOnly L s a2 := by
  unfold unitFails
  split
  case h_8 =>
    simp only []
    split
    · next t e => exact only_iff_of (execHostLaneFaultInService_only (L := L) (s := a2) _ _ _ (by assumption) (by assumption) (by assumption) (by assumption) (by assumption) (by assumption) (by assumption) (by assumption) (by assumption) (by assumption) (by assumption) (by assumption) (by assumption) (by assumption) (by assumption) (by assumption) (by assumption) (by assumption) (by assumption) (by assumption) (by assumption) (by assumption) (changesOnly_refl _ _) t e)
    · exact Iff.rfl
  case h_9 =>
    split
    · next t e => exact only_iff_of (execDriveLaneFaultInService_only (L := L) (s := a2) _ _ _ (by assumption) (by assumption) (by assumption) (by assumption) (by assumption) (by assumption) (by assumption) (by assumption) (by assumption) (by assumption) (by assumption) (by assumption) (by assumption) (by assumption) (changesOnly_refl _ _) t e)
    · exact Iff.rfl
  all_goals simp only [only_ite, ite_self, checkPair_only, failSpared_only, dropPipe_only, dropCore_only, unitLost_only, repair_only, failMacro_only, failLost_only, failEthLane_only, loseChannel_only, excludeSensor_only, surpriseRemoval_only, detachHost_only, h0, h1, h2, h3, h4, h5, h6, h7, h8, h9, h10, h11, h12, h13, h14, h15, h16, h17, h18, h19, h20, h21, h22, h23, h24, h25, h26]
theorem execUnitFailureInService_only {L : List Part} {s : State} (a0 : Byte) (a1 : BitVec 24) (a2 : State) (h0 : Part.fenced ∈ L) (h1 : Part.out ∈ L) (h2 : Part.drawn ∈ L) (h3 : Part.nv ∈ L) (h4 : Part.glb ∈ L) (h5 : Part.epochs ∈ L) (h6 : Part.owner ∈ L) (h7 : Part.rings ∈ L) (h8 : Part.ops ∈ L) (h9 : Part.hosts ∈ L) (h10 : Part.fns ∈ L) (h11 : Part.queues ∈ L) (h12 : Part.eth ∈ L) (h13 : Part.tables ∈ L) (h14 : Part.hod ∈ L) (h15 : Part.sched ∈ L) (h16 : Part.net ∈ L) (h17 : Part.ctx ∈ L) (h18 : Part.nvme ∈ L) (h19 : Part.crypt ∈ L) (h20 : Part.cores ∈ L) (h21 : Part.dram ∈ L) (h22 : Part.sec ∈ L) (h23 : Part.elec ∈ L) (h24 : Part.degr ∈ L) (h25 : Part.bist ∈ L) (h26 : Part.counters ∈ L) (hx : changesOnly L s a2) : OnlyO L s (execUnitFailureInService a0 a1 a2) := by
  (simp only [execUnitFailureInService, only_ite, ite_self, onlyO_next, hx, unitFails_only, h0, h1, h2, h3, h4, h5, h6, h7, h8, h9, h10, h11, h12, h13, h14, h15, h16, h17, h18, h19, h20, h21, h22, h23, h24, h25, h26]; done)
theorem refillCore_only {L : List Part} {s : State} (a0 : Nat) (a1 : State) (h0 : Part.cores ∈ L) : changesOnly L s (refillCore a0 a1) ↔ changesOnly L s a1 := by
  (unfold refillCore; (repeat' (first | (with_reducible rfl) | (simp only [iff_self, dropBps_only, startCore_only, fillMem_only, h0]; done) | split | (with_reducible refine (only_foldl _ (fun y b => ?_) _ _).trans ?_) | (simp only []))); done)
theorem swapSpares_only {L : List Part} {s : State} (a0 : State) (h0 : Part.nv ∈ L) (h1 : Part.owner ∈ L) (h2 : Part.cores ∈ L) (h3 : Part.bist ∈ L) (h4 : Part.counters ∈ L) : changesOnly L s (swapSpares a0) ↔ changesOnly L s a0 := by
  (simp only [swapSpares, only_foldl, iff_self, implies_true, only_ite, ite_self, assignSpare_only, refillCore_only, repair_only, modBist_only, count_only, h0, h1, h2, h3, h4]; done)

end Sys2Proof.Machine
end

