-- ==== Sys2Proof/Laws/FrameDevice.lean ====
section
/-! SUPPORT. FrameDevice.lean: what each definition of the machine may change, for reset, boot, parking, long operations, registers and the monitor: one lemma `<name>_only` for each, which names the parts of the state it touches. -/

set_option linter.all false

namespace Sys2Proof.Machine
open Sys2Proof

theorem resetTo_only {L : List Part} {s : State} (a0 : Cause) (a1 : BootStage) (a2 : Word) (a3 : State) (h1 : Part.fenced ∈ L) (h2 : Part.out ∈ L) (h3 : Part.drawn ∈ L) (h5 : Part.dtime ∈ L) (h6 : Part.nv ∈ L) (h7 : Part.clk ∈ L) (h8 : Part.glb ∈ L) (h9 : Part.epochs ∈ L) (h10 : Part.owner ∈ L) (h11 : Part.rings ∈ L) (h12 : Part.ops ∈ L) (h13 : Part.hosts ∈ L) (h14 : Part.fns ∈ L) (h15 : Part.queues ∈ L) (h16 : Part.eth ∈ L) (h17 : Part.parse ∈ L) (h18 : Part.cls ∈ L) (h19 : Part.tables ∈ L) (h20 : Part.hod ∈ L) (h21 : Part.sched ∈ L) (h22 : Part.net ∈ L) (h23 : Part.ctx ∈ L) (h24 : Part.nvme ∈ L) (h25 : Part.crypt ∈ L) (h26 : Part.cores ∈ L) (h27 : Part.dram ∈ L) (h28 : Part.sec ∈ L) (h29 : Part.klb ∈ L) (h30 : Part.elec ∈ L) (h31 : Part.degr ∈ L) (h32 : Part.bist ∈ L) (h33 : Part.carve ∈ L) (h34 : Part.violations ∈ L) (h35 : Part.counters ∈ L) (h36 : Part.regs ∈ L) (h98 : Part.mode ∈ L) (h99 : Part.epoch ∈ L) : changesOnly L s (resetTo a0 a1 a2 a3) ↔ changesOnly L s a3 := changesOnly_congr fun p hp => by cases p <;> first | exact Iff.rfl | (exfalso; exact hp (by assumption))
theorem deviceReset_only {L : List Part} {s : State} (a0 : Cause) (a1 : State) (h1 : Part.fenced ∈ L) (h2 : Part.out ∈ L) (h3 : Part.drawn ∈ L) (h5 : Part.dtime ∈ L) (h6 : Part.nv ∈ L) (h7 : Part.clk ∈ L) (h8 : Part.glb ∈ L) (h9 : Part.epochs ∈ L) (h10 : Part.owner ∈ L) (h11 : Part.rings ∈ L) (h12 : Part.ops ∈ L) (h13 : Part.hosts ∈ L) (h14 : Part.fns ∈ L) (h15 : Part.queues ∈ L) (h16 : Part.eth ∈ L) (h17 : Part.parse ∈ L) (h18 : Part.cls ∈ L) (h19 : Part.tables ∈ L) (h20 : Part.hod ∈ L) (h21 : Part.sched ∈ L) (h22 : Part.net ∈ L) (h23 : Part.ctx ∈ L) (h24 : Part.nvme ∈ L) (h25 : Part.crypt ∈ L) (h26 : Part.cores ∈ L) (h27 : Part.dram ∈ L) (h28 : Part.sec ∈ L) (h29 : Part.klb ∈ L) (h30 : Part.elec ∈ L) (h31 : Part.degr ∈ L) (h32 : Part.bist ∈ L) (h33 : Part.carve ∈ L) (h34 : Part.violations ∈ L) (h35 : Part.counters ∈ L) (h36 : Part.regs ∈ L) (h98 : Part.mode ∈ L) (h99 : Part.epoch ∈ L) : changesOnly L s (deviceReset a0 a1) ↔ changesOnly L s a1 := by
  (simp only [deviceReset, iff_self, resetTo_only, h98, h99, h1, h2, h3, h5, h6, h7, h8, h9, h10, h11, h12, h13, h14, h15, h16, h17, h18, h19, h20, h21, h22, h23, h24, h25, h26, h27, h28, h29, h30, h31, h32, h33, h34, h35, h36]; done)
theorem execPowerOn_only {L : List Part} {s : State} (a0 : State) (h1 : Part.fenced ∈ L) (h2 : Part.out ∈ L) (h3 : Part.drawn ∈ L) (h5 : Part.dtime ∈ L) (h6 : Part.nv ∈ L) (h7 : Part.clk ∈ L) (h8 : Part.glb ∈ L) (h9 : Part.epochs ∈ L) (h10 : Part.owner ∈ L) (h11 : Part.rings ∈ L) (h12 : Part.ops ∈ L) (h13 : Part.hosts ∈ L) (h14 : Part.fns ∈ L) (h15 : Part.queues ∈ L) (h16 : Part.eth ∈ L) (h17 : Part.parse ∈ L) (h18 : Part.cls ∈ L) (h19 : Part.tables ∈ L) (h20 : Part.hod ∈ L) (h21 : Part.sched ∈ L) (h22 : Part.net ∈ L) (h23 : Part.ctx ∈ L) (h24 : Part.nvme ∈ L) (h25 : Part.crypt ∈ L) (h26 : Part.cores ∈ L) (h27 : Part.dram ∈ L) (h28 : Part.sec ∈ L) (h29 : Part.klb ∈ L) (h30 : Part.elec ∈ L) (h31 : Part.degr ∈ L) (h32 : Part.bist ∈ L) (h33 : Part.carve ∈ L) (h34 : Part.violations ∈ L) (h35 : Part.counters ∈ L) (h36 : Part.regs ∈ L) (h98 : Part.mode ∈ L) (h99 : Part.epoch ∈ L) (hx : changesOnly L s a0) : OnlyO L s (execPowerOn a0) := by
  (simp only [execPowerOn, onlyO_next, hx, resetTo_only, only_clk_elec, h98, h99, h1, h2, h3, h5, h6, h7, h8, h9, h10, h11, h12, h13, h14, h15, h16, h17, h18, h19, h20, h21, h22, h23, h24, h25, h26, h27, h28, h29, h30, h31, h32, h33, h34, h35, h36]; done)
theorem execPowerRemoved_only {L : List Part} {s : State} (a0 : State) (h1 : Part.fenced ∈ L) (h2 : Part.out ∈ L) (h3 : Part.drawn ∈ L) (h5 : Part.dtime ∈ L) (h6 : Part.nv ∈ L) (h7 : Part.clk ∈ L) (h8 : Part.glb ∈ L) (h9 : Part.epochs ∈ L) (h10 : Part.owner ∈ L) (h11 : Part.rings ∈ L) (h12 : Part.ops ∈ L) (h13 : Part.hosts ∈ L) (h14 : Part.fns ∈ L) (h15 : Part.queues ∈ L) (h16 : Part.eth ∈ L) (h17 : Part.parse ∈ L) (h18 : Part.cls ∈ L) (h19 : Part.tables ∈ L) (h20 : Part.hod ∈ L) (h21 : Part.sched ∈ L) (h22 : Part.net ∈ L) (h23 : Part.ctx ∈ L) (h24 : Part.nvme ∈ L) (h25 : Part.crypt ∈ L) (h26 : Part.cores ∈ L) (h27 : Part.dram ∈ L) (h28 : Part.sec ∈ L) (h29 : Part.klb ∈ L) (h30 : Part.elec ∈ L) (h31 : Part.degr ∈ L) (h32 : Part.bist ∈ L) (h33 : Part.carve ∈ L) (h34 : Part.violations ∈ L) (h35 : Part.counters ∈ L) (h36 : Part.regs ∈ L) (h98 : Part.mode ∈ L) (h99 : Part.epoch ∈ L) (hx : changesOnly L s a0) : OnlyO L s (execPowerRemoved a0) := by
  (simp only [execPowerRemoved, onlyO_next, hx, resetTo_only, only_clk_glb_elec, sameMode_iff, eq_self, and_self, h98, h99, h1, h2, h3, h5, h6, h7, h8, h9, h10, h11, h12, h13, h14, h15, h16, h17, h18, h19, h20, h21, h22, h23, h24, h25, h26, h27, h28, h29, h30, h31, h32, h33, h34, h35, h36]; done)
theorem resetPins_only {L : List Part} {s : State} (a0 : State) (h0 : Part.out ∈ L) : changesOnly L s (resetPins a0) ↔ changesOnly L s a0 := by
  (simp only [resetPins, only_foldl, iff_self, implies_true, emit_only, h0]; done)
theorem execDevRstNAssert_only {L : List Part} {s : State} (a0 : Nat) (a1 : State) (h1 : Part.fenced ∈ L) (h2 : Part.out ∈ L) (h3 : Part.drawn ∈ L) (h5 : Part.dtime ∈ L) (h6 : Part.nv ∈ L) (h7 : Part.clk ∈ L) (h8 : Part.glb ∈ L) (h9 : Part.epochs ∈ L) (h10 : Part.owner ∈ L) (h11 : Part.rings ∈ L) (h12 : Part.ops ∈ L) (h13 : Part.hosts ∈ L) (h14 : Part.fns ∈ L) (h15 : Part.queues ∈ L) (h16 : Part.eth ∈ L) (h17 : Part.parse ∈ L) (h18 : Part.cls ∈ L) (h19 : Part.tables ∈ L) (h20 : Part.hod ∈ L) (h21 : Part.sched ∈ L) (h22 : Part.net ∈ L) (h23 : Part.ctx ∈ L) (h24 : Part.nvme ∈ L) (h25 : Part.crypt ∈ L) (h26 : Part.cores ∈ L) (h27 : Part.dram ∈ L) (h28 : Part.sec ∈ L) (h29 : Part.klb ∈ L) (h30 : Part.elec ∈ L) (h31 : Part.degr ∈ L) (h32 : Part.bist ∈ L) (h33 : Part.carve ∈ L) (h34 : Part.violations ∈ L) (h35 : Part.counters ∈ L) (h36 : Part.regs ∈ L) (h98 : Part.mode ∈ L) (h99 : Part.epoch ∈ L) (hx : changesOnly L s a1) : OnlyO L s (execDevRstNAssert a0 a1) := by
  (simp only [execDevRstNAssert, only_ite, ite_self, onlyO_next, hx, resetPins_only, drawn1_only, emit_only, deviceReset_only, h98, h99, h1, h2, h3, h5, h6, h7, h8, h9, h10, h11, h12, h13, h14, h15, h16, h17, h18, h19, h20, h21, h22, h23, h24, h25, h26, h27, h28, h29, h30, h31, h32, h33, h34, h35, h36]; done)
theorem execDevRstNRelease_only {L : List Part} {s : State} (a0 : BitVec 4) (a1 : State) (h0 : Part.glb ∈ L) (hx : changesOnly L s a1) : OnlyO L s (execDevRstNRelease a0 a1) := by
  (simp only [execDevRstNRelease, only_ite, ite_self, onlyO_next, hx, only_glb, sameMode_iff, eq_self, and_self, h0]; done)
theorem raiseClock_only {L : List Part} {s : State} (a0 : Nat) (a1 : Nat) (a2 : Nat) (a3 : State) (h0 : Part.owner ∈ L) : changesOnly L s (raiseClock a0 a1 a2 a3) ↔ changesOnly L s a3 := by
  (simp only [raiseClock, iff_self, raiseOwner_only, h0]; done)
theorem refLost_only {L : List Part} {s : State} (a0 : Nat) (a1 : State) (h0 : Part.owner ∈ L) (h1 : Part.elec ∈ L) : changesOnly L s (refLost a0 a1) ↔ changesOnly L s a1 := by
  (simp only [refLost, iff_self, raiseClock_only, modElec_only, h0, h1]; done)
theorem refBack_only {L : List Part} {s : State} (a0 : Nat) (a1 : State) (h0 : Part.owner ∈ L) (h1 : Part.elec ∈ L) : changesOnly L s (refBack a0 a1) ↔ changesOnly L s a1 := by
  (simp only [refBack, iff_self, raiseClock_only, modElec_only, h0, h1]; done)
theorem execRootPllLock_only {L : List Part} {s : State} (a0 : State) (h0 : Part.clk ∈ L) (h1 : Part.glb ∈ L) (hx : changesOnly L s a0) : OnlyO L s (execRootPllLock a0) := by
  (simp only [execRootPllLock, only_ite, ite_self, onlyO_next, hx, only_clk_glb, sameMode_iff, eq_self, and_self, h0, h1]; done)
theorem execCoreRefLost_only {L : List Part} {s : State} (a0 : State) (h0 : Part.clk ∈ L) (h1 : Part.owner ∈ L) (h2 : Part.elec ∈ L) (hx : changesOnly L s a0) : OnlyO L s (execCoreRefLost a0) := by
  (simp only [execCoreRefLost, only_ite, ite_self, onlyO_next, hx, refLost_only, raiseClock_only, only_clk, h0, h1, h2]; done)
theorem execCoreRefReturned_only {L : List Part} {s : State} (a0 : State) (h0 : Part.clk ∈ L) (h1 : Part.owner ∈ L) (h2 : Part.elec ∈ L) (hx : changesOnly L s a0) : OnlyO L s (execCoreRefReturned a0) := by
  (simp only [execCoreRefReturned, only_ite, ite_self, onlyO_next, hx, raiseClock_only, refBack_only, only_clk, h0, h1, h2]; done)
theorem execHoldoverExpiry_only {L : List Part} {s : State} (a0 : State) (h1 : Part.fenced ∈ L) (h2 : Part.out ∈ L) (h3 : Part.drawn ∈ L) (h5 : Part.dtime ∈ L) (h6 : Part.nv ∈ L) (h7 : Part.clk ∈ L) (h8 : Part.glb ∈ L) (h9 : Part.epochs ∈ L) (h10 : Part.owner ∈ L) (h11 : Part.rings ∈ L) (h12 : Part.ops ∈ L) (h13 : Part.hosts ∈ L) (h14 : Part.fns ∈ L) (h15 : Part.queues ∈ L) (h16 : Part.eth ∈ L) (h17 : Part.parse ∈ L) (h18 : Part.cls ∈ L) (h19 : Part.tables ∈ L) (h20 : Part.hod ∈ L) (h21 : Part.sched ∈ L) (h22 : Part.net ∈ L) (h23 : Part.ctx ∈ L) (h24 : Part.nvme ∈ L) (h25 : Part.crypt ∈ L) (h26 : Part.cores ∈ L) (h27 : Part.dram ∈ L) (h28 : Part.sec ∈ L) (h29 : Part.klb ∈ L) (h30 : Part.elec ∈ L) (h31 : Part.degr ∈ L) (h32 : Part.bist ∈ L) (h33 : Part.carve ∈ L) (h34 : Part.violations ∈ L) (h35 : Part.counters ∈ L) (h36 : Part.regs ∈ L) (h98 : Part.mode ∈ L) (h99 : Part.epoch ∈ L) (hx : changesOnly L s a0) : OnlyO L s (execHoldoverExpiry a0) := by
  (simp only [execHoldoverExpiry, only_ite, ite_self, onlyO_next, hx, deviceReset_only, h98, h99, h1, h2, h3, h5, h6, h7, h8, h9, h10, h11, h12, h13, h14, h15, h16, h17, h18, h19, h20, h21, h22, h23, h24, h25, h26, h27, h28, h29, h30, h31, h32, h33, h34, h35, h36]; done)
theorem execEthRefLost_only {L : List Part} {s : State} (a0 : State) (h0 : Part.clk ∈ L) (h1 : Part.owner ∈ L) (h2 : Part.eth ∈ L) (h3 : Part.elec ∈ L) (h4 : Part.counters ∈ L) (hx : changesOnly L s a0) : OnlyO L s (execEthRefLost a0) := by
  unfold execEthRefLost
  refine (onlyO_next _ _ _).mpr ?_
  split
  · exact hx
  · refine (only_foldl _ (fun y b => ?_) _ _).mpr ?_ <;> simp only [loseAlignment_only, refLost_only, only_clk, hx, h0, h1, h2, h3, h4]
theorem execEthRefReturned_only {L : List Part} {s : State} (a0 : State) (h0 : Part.clk ∈ L) (h1 : Part.owner ∈ L) (h2 : Part.elec ∈ L) (hx : changesOnly L s a0) : OnlyO L s (execEthRefReturned a0) := by
  (simp only [execEthRefReturned, only_ite, ite_self, onlyO_next, hx, refBack_only, only_clk, h0, h1, h2]; done)
theorem execHostRefLost_only {L : List Part} {s : State} (a0 : HostId) (a1 : State) (h0 : Part.fenced ∈ L) (h1 : Part.out ∈ L) (h2 : Part.drawn ∈ L) (h3 : Part.nv ∈ L) (h4 : Part.clk ∈ L) (h5 : Part.epochs ∈ L) (h6 : Part.owner ∈ L) (h7 : Part.rings ∈ L) (h8 : Part.ops ∈ L) (h9 : Part.hosts ∈ L) (h10 : Part.fns ∈ L) (h11 : Part.queues ∈ L) (h12 : Part.tables ∈ L) (h13 : Part.hod ∈ L) (h14 : Part.sched ∈ L) (h15 : Part.net ∈ L) (h16 : Part.ctx ∈ L) (h17 : Part.nvme ∈ L) (h18 : Part.crypt ∈ L) (h19 : Part.sec ∈ L) (h20 : Part.elec ∈ L) (h21 : Part.counters ∈ L) (hx : changesOnly L s a1) : OnlyO L s (execHostRefLost a0 a1) := by
  (simp only [execHostRefLost, only_ite, ite_self, onlyO_next, hx, refLost_only, detachHost_only, only_clk, h0, h1, h2, h3, h4, h5, h6, h7, h8, h9, h10, h11, h12, h13, h14, h15, h16, h17, h18, h19, h20, h21]; done)
theorem execHostRefReturned_only {L : List Part} {s : State} (a0 : HostId) (a1 : State) (h0 : Part.clk ∈ L) (h1 : Part.owner ∈ L) (h2 : Part.elec ∈ L) (hx : changesOnly L s a1) : OnlyO L s (execHostRefReturned a0 a1) := by
  (simp only [execHostRefReturned, only_ite, ite_self, onlyO_next, hx, refBack_only, only_clk, h0, h1, h2]; done)
theorem changeMode_only {L : List Part} {s : State} (a0 : Mode) (a1 : Cause) (a2 : State) (h0 : Part.out ∈ L) (h1 : Part.glb ∈ L) (h2 : Part.owner ∈ L) (h3 : Part.rings ∈ L) (h4 : Part.hosts ∈ L) (h5 : Part.fns ∈ L) (h6 : Part.hod ∈ L) (h7 : Part.crypt ∈ L) (h8 : Part.cores ∈ L) (h9 : Part.dram ∈ L) (h10 : Part.counters ∈ L) (h98 : Part.mode ∈ L) : changesOnly L s (changeMode a0 a1 a2) ↔ changesOnly L s a2 := by
  (fun_cases changeMode a0 a1 a2 <;> (simp +zetaDelta only [iff_self, enterMode_only, stopClusters_only, h98, h0, h1, h2, h3, h4, h5, h6, h7, h8, h9, h10]; done))
theorem attachWaiting_only {L : List Part} {s : State} (a0 : State) (h0 : Part.glb ∈ L) (h1 : Part.owner ∈ L) (h2 : Part.hosts ∈ L) (h3 : Part.parse ∈ L) (h4 : Part.cls ∈ L) (h5 : Part.sched ∈ L) (h6 : Part.net ∈ L) (h7 : Part.degr ∈ L) : changesOnly L s (attachWaiting a0) ↔ changesOnly L s a0 := by
  (unfold attachWaiting; (repeat' (first | (with_reducible rfl) | (simp only [iff_self, only_ite, ite_self, attachHost_only, modLink_only, h0, h1, h2, h3, h4, h5, h6, h7]; done) | split | (with_reducible refine (only_foldl _ (fun y b => ?_) _ _).trans ?_) | (simp only []))); done)
theorem bootRegulators_only {L : List Part} {s : State} (a0 : State) (h0 : Part.out ∈ L) (h1 : Part.drawn ∈ L) (h2 : Part.elec ∈ L) : changesOnly L s (bootRegulators a0) ↔ changesOnly L s a0 := by
  (simp only [bootRegulators, iff_self, drawnN_only, emit_only, h0, h1, h2, only_elec]; done)
theorem romStage_only {L : List Part} {s : State} (a0 : State) (h0 : Part.out ∈ L) (h1 : Part.drawn ∈ L) (h2 : Part.nv ∈ L) (h3 : Part.glb ∈ L) (h4 : Part.owner ∈ L) (h5 : Part.rings ∈ L) (h6 : Part.hosts ∈ L) (h7 : Part.fns ∈ L) (h8 : Part.parse ∈ L) (h9 : Part.cls ∈ L) (h10 : Part.hod ∈ L) (h11 : Part.sched ∈ L) (h12 : Part.net ∈ L) (h13 : Part.crypt ∈ L) (h14 : Part.cores ∈ L) (h15 : Part.dram ∈ L) (h16 : Part.sec ∈ L) (h17 : Part.elec ∈ L) (h18 : Part.degr ∈ L) (h19 : Part.counters ∈ L) (h98 : Part.mode ∈ L) : changesOnly L s (romStage a0) ↔ changesOnly L s a0 := by
  (fun_cases romStage a0 <;> (simp +zetaDelta only [iff_self, bootRegulators_only, modSec_only, extend_only, attachWaiting_only, changeMode_only, modNv_only, sameFuses_iff, eq_self, and_self, h98, h0, h1, h2, h3, h4, h5, h6, h7, h8, h9, h10, h11, h12, h13, h14, h15, h16, h17, h18, h19, only_glb, sameMode_iff, eq_self, and_self, only_nv, sameFuses_iff, eq_self, and_self]; done))
theorem execRomStage_only {L : List Part} {s : State} (a0 : State) (h0 : Part.out ∈ L) (h1 : Part.drawn ∈ L) (h2 : Part.nv ∈ L) (h3 : Part.glb ∈ L) (h4 : Part.owner ∈ L) (h5 : Part.rings ∈ L) (h6 : Part.hosts ∈ L) (h7 : Part.fns ∈ L) (h8 : Part.parse ∈ L) (h9 : Part.cls ∈ L) (h10 : Part.hod ∈ L) (h11 : Part.sched ∈ L) (h12 : Part.net ∈ L) (h13 : Part.crypt ∈ L) (h14 : Part.cores ∈ L) (h15 : Part.dram ∈ L) (h16 : Part.sec ∈ L) (h17 : Part.elec ∈ L) (h18 : Part.degr ∈ L) (h19 : Part.counters ∈ L) (h98 : Part.mode ∈ L) (hx : changesOnly L s a0) : OnlyO L s (execRomStage a0) := by
  (simp only [execRomStage, only_ite, ite_self, onlyO_next, hx, romStage_only, h98, h0, h1, h2, h3, h4, h5, h6, h7, h8, h9, h10, h11, h12, h13, h14, h15, h16, h17, h18, h19]; done)
theorem applyEntry_only {L : List Part} {s : State} (a0 : RepairEntry) (a1 : State) (h0 : Part.out ∈ L) (h1 : Part.nv ∈ L) (h2 : Part.glb ∈ L) (h3 : Part.owner ∈ L) (h4 : Part.hosts ∈ L) (h5 : Part.fns ∈ L) (h6 : Part.queues ∈ L) (h7 : Part.eth ∈ L) (h8 : Part.hod ∈ L) (h9 : Part.sched ∈ L) (h10 : Part.net ∈ L) (h11 : Part.nvme ∈ L) (h12 : Part.degr ∈ L) (h13 : Part.bist ∈ L) (h14 : Part.counters ∈ L) : changesOnly L s (applyEntry a0 a1) ↔ changesOnly L s a1 := by
  (fun_cases applyEntry a0 a1 <;> (simp +zetaDelta only [iff_self, assignSpare_only, failDriveLane_only, failHostLane_only, unitLost_only, failEthLane_only, h0, h1, h2, h3, h4, h5, h6, h7, h8, h9, h10, h11, h12, h13, h14]; done))
theorem applyRepairs_only {L : List Part} {s : State} (a0 : List Nat) (a1 : State) (h0 : Part.out ∈ L) (h1 : Part.nv ∈ L) (h2 : Part.glb ∈ L) (h3 : Part.owner ∈ L) (h4 : Part.hosts ∈ L) (h5 : Part.fns ∈ L) (h6 : Part.queues ∈ L) (h7 : Part.eth ∈ L) (h8 : Part.hod ∈ L) (h9 : Part.sched ∈ L) (h10 : Part.net ∈ L) (h11 : Part.nvme ∈ L) (h12 : Part.dram ∈ L) (h13 : Part.elec ∈ L) (h14 : Part.degr ∈ L) (h15 : Part.bist ∈ L) (h16 : Part.counters ∈ L) : changesOnly L s (applyRepairs a0 a1) ↔ changesOnly L s a1 := by
  (simp only [applyRepairs, only_foldl, iff_self, implies_true, applyFaults_only, applyEntry_only, modNv_only, sameFuses_iff, eq_self, and_self, h0, h1, h2, h3, h4, h5, h6, h7, h8, h9, h10, h11, h12, h13, h14, h15, h16]; done)
theorem trainChannel_only {L : List Part} {s : State} (a0 : Nat) (a1 : Bool) (a2 : Fin 12) (a3 : Option DimmFound) (a4 : State) (h0 : Part.nv ∈ L) (h1 : Part.glb ∈ L) (h2 : Part.owner ∈ L) (h3 : Part.dram ∈ L) (h4 : Part.degr ∈ L) : changesOnly L s (trainChannel a0 a1 a2 a3 a4) ↔ changesOnly L s a4 := by
  (fun_cases trainChannel a0 a1 a2 a3 a4 <;> (simp +zetaDelta only [iff_self, modChan_only, modNv_only, sameFuses_iff, eq_self, and_self, unitLost_only, h0, h1, h2, h3, h4]; done))
theorem trainDram_only {L : List Part} {s : State} (a0 : BootFindings) (a1 : State) (h0 : Part.drawn ∈ L) (h1 : Part.nv ∈ L) (h2 : Part.glb ∈ L) (h3 : Part.owner ∈ L) (h4 : Part.dram ∈ L) (h5 : Part.degr ∈ L) : changesOnly L s (trainDram a0 a1) ↔ changesOnly L s a1 := by
  (simp only [trainDram, only_foldl, iff_self, implies_true, modDram_only, trainChannel_only, drawn1_only, h0, h1, h2, h3, h4, h5]; done)
theorem applyCarve_only {L : List Part} {s : State} (a0 : State) (h0 : Part.glb ∈ L) (h1 : Part.owner ∈ L) (h2 : Part.degr ∈ L) (h3 : Part.carve ∈ L) : changesOnly L s (applyCarve a0) ↔ changesOnly L s a0 := by
  (simp only [applyCarve, iff_self, only_ite, ite_self, unitLost_only, h0, h1, h2, h3, only_carve]; done)
theorem execLoaderStage_only {L : List Part} {s : State} (a0 : BootFindings) (a1 : State) (h1 : Part.fenced ∈ L) (h2 : Part.out ∈ L) (h3 : Part.drawn ∈ L) (h5 : Part.dtime ∈ L) (h6 : Part.nv ∈ L) (h7 : Part.clk ∈ L) (h8 : Part.glb ∈ L) (h9 : Part.epochs ∈ L) (h10 : Part.owner ∈ L) (h11 : Part.rings ∈ L) (h12 : Part.ops ∈ L) (h13 : Part.hosts ∈ L) (h14 : Part.fns ∈ L) (h15 : Part.queues ∈ L) (h16 : Part.eth ∈ L) (h17 : Part.parse ∈ L) (h18 : Part.cls ∈ L) (h19 : Part.tables ∈ L) (h20 : Part.hod ∈ L) (h21 : Part.sched ∈ L) (h22 : Part.net ∈ L) (h23 : Part.ctx ∈ L) (h24 : Part.nvme ∈ L) (h25 : Part.crypt ∈ L) (h26 : Part.cores ∈ L) (h27 : Part.dram ∈ L) (h28 : Part.sec ∈ L) (h29 : Part.klb ∈ L) (h30 : Part.elec ∈ L) (h31 : Part.degr ∈ L) (h32 : Part.bist ∈ L) (h33 : Part.carve ∈ L) (h34 : Part.violations ∈ L) (h35 : Part.counters ∈ L) (h36 : Part.regs ∈ L) (h98 : Part.mode ∈ L) (h99 : Part.epoch ∈ L) (hx : changesOnly L s a1) : OnlyO L s (execLoaderStage a0 a1) := by
  (unfold execLoaderStage; (repeat' (first | with_reducible assumption | with_reducible rfl | (simp only [only_ite, ite_self, onlyO_next, hx, extend_only, applyRepairs_only, applyCarve_only, trainDram_only, deviceReset_only, only_glb, sameMode_iff, eq_self, and_self, h98, h99, h1, h2, h3, h5, h6, h7, h8, h9, h10, h11, h12, h13, h14, h15, h16, h17, h18, h19, h20, h21, h22, h23, h24, h25, h26, h27, h28, h29, h30, h31, h32, h33, h34, h35, h36]; done) | split | (with_reducible refine (onlyO_next _ _ _).mpr ?_) | (with_reducible refine (only_foldl _ (fun y b => ?_) _ _).mpr ?_) | (with_reducible refine (only_foldl _ (fun y b => ?_) _ _).trans ?_) | (simp only []))); done)
theorem extendComponents_only {L : List Part} {s : State} (a0 : State) (h0 : Part.sec ∈ L) : changesOnly L s (extendComponents a0) ↔ changesOnly L s a0 := by
  (simp only [extendComponents, only_foldl, iff_self, implies_true, extend_only, h0]; done)
theorem loadTables_only {L : List Part} {s : State} (a0 : State) (h0 : Part.drawn ∈ L) (h1 : Part.parse ∈ L) (h2 : Part.cls ∈ L) (h3 : Part.tables ∈ L) (h4 : Part.hod ∈ L) (h5 : Part.net ∈ L) (h6 : Part.ctx ∈ L) : changesOnly L s (loadTables a0) ↔ changesOnly L s a0 := by
  (simp only [loadTables, iff_self, drawnN_only, h0, h1, h2, h3, h4, h5, h6, only_parse_cls_tables_hod_net_ctx]; done)
theorem loadKeys_only {L : List Part} {s : State} (a0 : State) (h0 : Part.owner ∈ L) (h1 : Part.crypt ∈ L) (h2 : Part.counters ∈ L) : changesOnly L s (loadKeys a0) ↔ changesOnly L s a0 := by
  (fun_cases loadKeys a0 <;> (simp +zetaDelta only [iff_self, bootKeys_only, reportAlarm_only, h0, h1, h2]; done))
theorem finishSanitizes_only {L : List Part} {s : State} (a0 : State) (h0 : Part.drawn ∈ L) (h1 : Part.nv ∈ L) (h2 : Part.crypt ∈ L) : changesOnly L s (finishSanitizes a0) ↔ changesOnly L s a0 := by
  (unfold finishSanitizes; (repeat' (first | (with_reducible rfl) | (simp only [iff_self, only_ite, regenerate_only, modNv_only, sameFuses_iff, eq_self, and_self, h0, h1, h2]; done) | split | (with_reducible refine (only_foldl _ (fun y b => ?_) _ _).trans ?_) | (simp only []))); done)
theorem reportEntries_only {L : List Part} {s : State} (a0 : State) (h0 : Part.owner ∈ L) : changesOnly L s (reportEntries a0) ↔ changesOnly L s a0 := by
  (unfold reportEntries; (repeat' (first | (with_reducible rfl) | (simp only [iff_self, raiseOwner_only, h0]; done) | split | (with_reducible refine (only_foldl _ (fun y b => ?_) _ _).trans ?_) | (simp only []))); done)
theorem applyLayouts_only {L : List Part} {s : State} (a0 : State) (h0 : Part.out ∈ L) (h1 : Part.hosts ∈ L) (h2 : Part.fns ∈ L) (h3 : Part.queues ∈ L) (h4 : Part.eth ∈ L) (h5 : Part.hod ∈ L) (h6 : Part.sched ∈ L) (h7 : Part.net ∈ L) (h8 : Part.counters ∈ L) : changesOnly L s (applyLayouts a0) ↔ changesOnly L s a0 := by
  (simp only [applyLayouts, only_foldl, iff_self, implies_true, only_ite, ite_self, applyRecord_only, h0, h1, h2, h3, h4, h5, h6, h7, h8]; done)
theorem startRecord_only {L : List Part} {s : State} (a0 : Nat) (a1 : List Byte) (a2 : State) (h0 : Part.glb ∈ L) (h1 : Part.owner ∈ L) (h2 : Part.cores ∈ L) (h3 : Part.sec ∈ L) (h4 : Part.degr ∈ L) : changesOnly L s (startRecord a0 a1 a2) ↔ changesOnly L s a2 := by
  (fun_cases startRecord a0 a1 a2 <;> (simp +zetaDelta only [only_foldl, iff_self, implies_true, loadCluster_only, extend_only, startCluster_only, unitLost_only, grant_only, h0, h1, h2, h3, h4]; done))
theorem startPrograms_only {L : List Part} {s : State} (a0 : State) (h0 : Part.glb ∈ L) (h1 : Part.owner ∈ L) (h2 : Part.cores ∈ L) (h3 : Part.sec ∈ L) (h4 : Part.degr ∈ L) : changesOnly L s (startPrograms a0) ↔ changesOnly L s a0 := by
  (fun_cases startPrograms a0 <;> (simp +zetaDelta only [only_foldl, iff_self, implies_true, startRecord_only, h0, h1, h2, h3, h4]; done))
theorem execMgmtFwStage_only {L : List Part} {s : State} (a0 : State) (h1 : Part.fenced ∈ L) (h2 : Part.out ∈ L) (h3 : Part.drawn ∈ L) (h5 : Part.dtime ∈ L) (h6 : Part.nv ∈ L) (h7 : Part.clk ∈ L) (h8 : Part.glb ∈ L) (h9 : Part.epochs ∈ L) (h10 : Part.owner ∈ L) (h11 : Part.rings ∈ L) (h12 : Part.ops ∈ L) (h13 : Part.hosts ∈ L) (h14 : Part.fns ∈ L) (h15 : Part.queues ∈ L) (h16 : Part.eth ∈ L) (h17 : Part.parse ∈ L) (h18 : Part.cls ∈ L) (h19 : Part.tables ∈ L) (h20 : Part.hod ∈ L) (h21 : Part.sched ∈ L) (h22 : Part.net ∈ L) (h23 : Part.ctx ∈ L) (h24 : Part.nvme ∈ L) (h25 : Part.crypt ∈ L) (h26 : Part.cores ∈ L) (h27 : Part.dram ∈ L) (h28 : Part.sec ∈ L) (h29 : Part.klb ∈ L) (h30 : Part.elec ∈ L) (h31 : Part.degr ∈ L) (h32 : Part.bist ∈ L) (h33 : Part.carve ∈ L) (h34 : Part.violations ∈ L) (h35 : Part.counters ∈ L) (h36 : Part.regs ∈ L) (h98 : Part.mode ∈ L) (h99 : Part.epoch ∈ L) (hx : changesOnly L s a0) : OnlyO L s (execMgmtFwStage a0) := by
  (simp only [execMgmtFwStage, only_ite, ite_self, onlyO_next, hx, loadKeys_only, applyLayouts_only, reportEntries_only, loadTables_only, startPrograms_only, raiseModeChange_only, extendComponents_only, deviceReset_only, finishSanitizes_only, only_glb, sameMode_iff, eq_self, and_self, h98, h99, h1, h2, h3, h5, h6, h7, h8, h9, h10, h11, h12, h13, h14, h15, h16, h17, h18, h19, h20, h21, h22, h23, h24, h25, h26, h27, h28, h29, h30, h31, h32, h33, h34, h35, h36]; done)
theorem execBootDone_only {L : List Part} {s : State} (a0 : State) (h0 : Part.out ∈ L) (h1 : Part.nv ∈ L) (h2 : Part.glb ∈ L) (h3 : Part.owner ∈ L) (h4 : Part.rings ∈ L) (h5 : Part.hosts ∈ L) (h6 : Part.fns ∈ L) (h7 : Part.parse ∈ L) (h8 : Part.cls ∈ L) (h9 : Part.hod ∈ L) (h10 : Part.sched ∈ L) (h11 : Part.net ∈ L) (h12 : Part.crypt ∈ L) (h13 : Part.cores ∈ L) (h14 : Part.dram ∈ L) (h15 : Part.degr ∈ L) (h16 : Part.counters ∈ L) (h98 : Part.mode ∈ L) (hx : changesOnly L s a0) : OnlyO L s (execBootDone a0) := by
  (simp only [execBootDone, only_ite, ite_self, onlyO_next, hx, attachWaiting_only, changeMode_only, modNv_only, sameFuses_iff, eq_self, and_self, only_glb, sameMode_iff, eq_self, and_self, h98, h0, h1, h2, h3, h4, h5, h6, h7, h8, h9, h10, h11, h12, h13, h14, h15, h16]; done)
theorem startPark_only {L : List Part} {s : State} (a0 : ParkDue) (a1 : State) (h0 : Part.out ∈ L) (h1 : Part.glb ∈ L) (h2 : Part.owner ∈ L) (h3 : Part.rings ∈ L) (h4 : Part.hosts ∈ L) (h5 : Part.fns ∈ L) (h6 : Part.hod ∈ L) (h7 : Part.crypt ∈ L) (h8 : Part.cores ∈ L) (h9 : Part.dram ∈ L) (h10 : Part.bist ∈ L) (h11 : Part.counters ∈ L) (h98 : Part.mode ∈ L) : changesOnly L s (startPark a0 a1) ↔ changesOnly L s a1 := by
  (simp only [startPark, iff_self, changeMode_only, modBist_only, h98, h0, h1, h2, h3, h4, h5, h6, h7, h8, h9, h10, h11, only_glb, sameMode_iff, eq_self, and_self]; done)
theorem clearArms_only {L : List Part} {s : State} (a0 : State) (h0 : Part.out ∈ L) (h1 : Part.epochs ∈ L) (h2 : Part.owner ∈ L) (h3 : Part.rings ∈ L) (h4 : Part.ops ∈ L) (h5 : Part.hosts ∈ L) (h6 : Part.fns ∈ L) : changesOnly L s (clearArms a0) ↔ changesOnly L s a0 := by
  (unfold clearArms; (repeat' (first | (with_reducible rfl) | (simp only [only_foldl, iff_self, implies_true, only_ite, ite_self, opDone_only, modUnit_only, h0, h1, h2, h3, h4, h5, h6]; done) | split | (with_reducible refine (only_foldl _ (fun y b => ?_) _ _).trans ?_) | (simp only []))); done)
theorem forceOp_only {L : List Part} {s : State} (a0 : LongOp) (a1 : State) (h0 : Part.out ∈ L) (h1 : Part.nv ∈ L) (h2 : Part.epochs ∈ L) (h3 : Part.owner ∈ L) (h4 : Part.rings ∈ L) (h5 : Part.ops ∈ L) (h6 : Part.hosts ∈ L) (h7 : Part.fns ∈ L) (h8 : Part.tables ∈ L) (h9 : Part.nvme ∈ L) (h10 : Part.sec ∈ L) : changesOnly L s (forceOp a0 a1) ↔ changesOnly L s a1 := by
  (fun_cases forceOp a0 a1 <;> (simp +zetaDelta only [iff_self, cancelOp_only, opDone_only, spoilSlot_only, modNv_only, sameFuses_iff, eq_self, and_self, dropOp_only, h0, h1, h2, h3, h4, h5, h6, h7, h8, h9, h10]; done))
theorem discardCache_only {L : List Part} {s : State} (a0 : State) (h0 : Part.nvme ∈ L) (h1 : Part.bist ∈ L) : changesOnly L s (discardCache a0) ↔ changesOnly L s a0 := by
  (simp only [discardCache, iff_self, modNvme_only, modBist_only, h0, h1]; done)
theorem parkActions_only {L : List Part} {s : State} (a0 : Bool) (a1 : State) (h0 : Part.fenced ∈ L) (h1 : Part.out ∈ L) (h2 : Part.drawn ∈ L) (h3 : Part.nv ∈ L) (h4 : Part.epochs ∈ L) (h5 : Part.owner ∈ L) (h6 : Part.rings ∈ L) (h7 : Part.ops ∈ L) (h8 : Part.hosts ∈ L) (h9 : Part.fns ∈ L) (h10 : Part.queues ∈ L) (h11 : Part.eth ∈ L) (h12 : Part.tables ∈ L) (h13 : Part.hod ∈ L) (h14 : Part.sched ∈ L) (h15 : Part.net ∈ L) (h16 : Part.ctx ∈ L) (h17 : Part.nvme ∈ L) (h18 : Part.crypt ∈ L) (h19 : Part.cores ∈ L) (h20 : Part.sec ∈ L) (h21 : Part.klb ∈ L) (h22 : Part.bist ∈ L) (h23 : Part.counters ∈ L) : changesOnly L s (parkActions a0 a1) ↔ changesOnly L s a1 := by
  (simp only [parkActions, only_foldl, iff_self, implies_true, only_ite, ite_self, modSec_only, clearArms_only, raiseDriveState_only, forceOp_only, closeIntake_only, disablePort_only, endSession_only, modBist_only, discardCache_only, detachHost_only, h0, h1, h2, h3, h4, h5, h6, h7, h8, h9, h10, h11, h12, h13, h14, h15, h16, h17, h18, h19, h20, h21, h22, h23]; done)
theorem execParkEntry_only {L : List Part} {s : State} (a0 : State) (h0 : Part.fenced ∈ L) (h1 : Part.out ∈ L) (h2 : Part.drawn ∈ L) (h3 : Part.nv ∈ L) (h4 : Part.glb ∈ L) (h5 : Part.epochs ∈ L) (h6 : Part.owner ∈ L) (h7 : Part.rings ∈ L) (h8 : Part.ops ∈ L) (h9 : Part.hosts ∈ L) (h10 : Part.fns ∈ L) (h11 : Part.queues ∈ L) (h12 : Part.eth ∈ L) (h13 : Part.tables ∈ L) (h14 : Part.hod ∈ L) (h15 : Part.sched ∈ L) (h16 : Part.net ∈ L) (h17 : Part.ctx ∈ L) (h18 : Part.nvme ∈ L) (h19 : Part.crypt ∈ L) (h20 : Part.cores ∈ L) (h21 : Part.dram ∈ L) (h22 : Part.sec ∈ L) (h23 : Part.klb ∈ L) (h24 : Part.bist ∈ L) (h25 : Part.counters ∈ L) (h98 : Part.mode ∈ L) (hx : changesOnly L s a0) : OnlyO L s (execParkEntry a0) := by
  (unfold execParkEntry; (repeat' (first | with_reducible assumption | with_reducible rfl | (simp only [only_ite, ite_self, onlyO_next, hx, parkActions_only, startPark_only, h98, h0, h1, h2, h3, h4, h5, h6, h7, h8, h9, h10, h11, h12, h13, h14, h15, h16, h17, h18, h19, h20, h21, h22, h23, h24, h25]; done) | split | (with_reducible refine (onlyO_next _ _ _).mpr ?_) | (with_reducible refine (only_foldl _ (fun y b => ?_) _ _).mpr ?_) | (with_reducible refine (only_foldl _ (fun y b => ?_) _ _).trans ?_) | (simp only []))); done)
theorem notePending_only {L : List Part} {s : State} (a0 : State) (h0 : Part.out ∈ L) (h1 : Part.nv ∈ L) (h2 : Part.glb ∈ L) (h3 : Part.owner ∈ L) (h4 : Part.hosts ∈ L) (h5 : Part.fns ∈ L) (h6 : Part.queues ∈ L) (h7 : Part.eth ∈ L) (h8 : Part.hod ∈ L) (h9 : Part.sched ∈ L) (h10 : Part.net ∈ L) (h11 : Part.nvme ∈ L) (h12 : Part.dram ∈ L) (h13 : Part.elec ∈ L) (h14 : Part.degr ∈ L) (h15 : Part.bist ∈ L) (h16 : Part.counters ∈ L) : changesOnly L s (notePending a0) ↔ changesOnly L s a0 := by
  (simp only [notePending, iff_self, h2, only_glb, sameMode_iff, eq_self, and_self]; done)
theorem phaseFinds_only {L : List Part} {s : State} (a0 : ParkFindings) (a1 : State) (h0 : Part.out ∈ L) (h1 : Part.nv ∈ L) (h2 : Part.glb ∈ L) (h3 : Part.owner ∈ L) (h4 : Part.hosts ∈ L) (h5 : Part.fns ∈ L) (h6 : Part.queues ∈ L) (h7 : Part.eth ∈ L) (h8 : Part.hod ∈ L) (h9 : Part.sched ∈ L) (h10 : Part.net ∈ L) (h11 : Part.nvme ∈ L) (h12 : Part.dram ∈ L) (h13 : Part.elec ∈ L) (h14 : Part.degr ∈ L) (h15 : Part.bist ∈ L) (h16 : Part.counters ∈ L) : changesOnly L s (phaseFinds a0 a1) ↔ changesOnly L s a1 := by
  (simp only [phaseFinds, iff_self, notePending_only, modBist_only, h0, h1, h2, h3, h4, h5, h6, h7, h8, h9, h10, h11, h12, h13, h14, h15, h16]; done)
theorem marchEffects_only {L : List Part} {s : State} (a0 : State) (h0 : Part.crypt ∈ L) (h1 : Part.dram ∈ L) : changesOnly L s (marchEffects a0) ↔ changesOnly L s a0 := by
  (simp only [marchEffects, only_foldl, iff_self, implies_true, only_ite, ite_self, modCrypt_only, modDram_only, h0, h1]; done)
theorem recordPark_only {L : List Part} {s : State} (a0 : State) (h0 : Part.out ∈ L) (h1 : Part.nv ∈ L) (h2 : Part.glb ∈ L) (h3 : Part.owner ∈ L) (h4 : Part.hosts ∈ L) (h5 : Part.fns ∈ L) (h6 : Part.queues ∈ L) (h7 : Part.eth ∈ L) (h8 : Part.hod ∈ L) (h9 : Part.sched ∈ L) (h10 : Part.net ∈ L) (h11 : Part.nvme ∈ L) (h12 : Part.dram ∈ L) (h13 : Part.elec ∈ L) (h14 : Part.degr ∈ L) (h15 : Part.bist ∈ L) (h16 : Part.counters ∈ L) : changesOnly L s (recordPark a0) ↔ changesOnly L s a0 := by
  (simp only [recordPark, iff_self, applyFaults_only, raiseOwner_only, modBist_only, modNv_only, sameFuses_iff, eq_self, and_self, count_only, h0, h1, h2, h3, h4, h5, h6, h7, h8, h9, h10, h11, h12, h13, h14, h15, h16]; done)
theorem groupOff_only {L : List Part} {s : State} (a0 : State) (h0 : Part.out ∈ L) : changesOnly L s (groupOff a0) ↔ changesOnly L s a0 := by
  (simp only [groupOff, only_foldl, iff_self, implies_true, only_ite, ite_self, emit_only, h0]; done)
theorem execParkPhaseEnd_only {L : List Part} {s : State} (a0 : ParkFindings) (a1 : State) (h1 : Part.fenced ∈ L) (h2 : Part.out ∈ L) (h3 : Part.drawn ∈ L) (h5 : Part.dtime ∈ L) (h6 : Part.nv ∈ L) (h7 : Part.clk ∈ L) (h8 : Part.glb ∈ L) (h9 : Part.epochs ∈ L) (h10 : Part.owner ∈ L) (h11 : Part.rings ∈ L) (h12 : Part.ops ∈ L) (h13 : Part.hosts ∈ L) (h14 : Part.fns ∈ L) (h15 : Part.queues ∈ L) (h16 : Part.eth ∈ L) (h17 : Part.parse ∈ L) (h18 : Part.cls ∈ L) (h19 : Part.tables ∈ L) (h20 : Part.hod ∈ L) (h21 : Part.sched ∈ L) (h22 : Part.net ∈ L) (h23 : Part.ctx ∈ L) (h24 : Part.nvme ∈ L) (h25 : Part.crypt ∈ L) (h26 : Part.cores ∈ L) (h27 : Part.dram ∈ L) (h28 : Part.sec ∈ L) (h29 : Part.klb ∈ L) (h30 : Part.elec ∈ L) (h31 : Part.degr ∈ L) (h32 : Part.bist ∈ L) (h33 : Part.carve ∈ L) (h34 : Part.violations ∈ L) (h35 : Part.counters ∈ L) (h36 : Part.regs ∈ L) (h98 : Part.mode ∈ L) (h99 : Part.epoch ∈ L) (hx : changesOnly L s a1) : OnlyO L s (execParkPhaseEnd a0 a1) := by
  (unfold execParkPhaseEnd; (repeat' (first | with_reducible assumption | with_reducible rfl | (simp only [only_ite, ite_self, onlyO_next, hx, phaseFinds_only, recordPark_only, groupOff_only, modBist_only, deviceReset_only, marchEffects_only, h98, h99, h1, h2, h3, h5, h6, h7, h8, h9, h10, h11, h12, h13, h14, h15, h16, h17, h18, h19, h20, h21, h22, h23, h24, h25, h26, h27, h28, h29, h30, h31, h32, h33, h34, h35, h36]; done) | split | (with_reducible refine (onlyO_next _ _ _).mpr ?_) | (with_reducible refine (only_foldl _ (fun y b => ?_) _ _).mpr ?_) | (with_reducible refine (only_foldl _ (fun y b => ?_) _ _).trans ?_) | (simp only []))); done)
theorem deviceInfoDef_only {L : List Part} {s : State}   : DefOnly L s deviceInfoDef := by
  intro o p y; simp only [deviceInfoDef]; (repeat' (first | with_reducible rfl | (simp only [only_ite, ite_self, onlyA_ite, reply_only]; done) | with_reducible refine onlyA_reply _ _ _ _ _ ?_ | with_reducible refine onlyA_replyLong _ _ _ _ _ ?_ | with_reducible refine onlyA_startOp _ _ _ _ _ _ _ _ _ (by assumption) (by assumption) ?_ | with_reducible refine onlyA_mk _ _ _ _ _ _ _ _ ?_ | split | (with_reducible refine (only_foldl _ (fun y b => ?_) _ _).trans ?_) | (refine ⟨?_, fun z => ?_⟩) | (simp only [])))
theorem execDeviceInfo_only {L : List Part} {s : State} (a0 : Packet) (a1 : State) (h0 : Part.fenced ∈ L) (h1 : Part.out ∈ L) (h2 : Part.owner ∈ L) (h3 : Part.rings ∈ L) (h4 : Part.hosts ∈ L) (h5 : Part.fns ∈ L) (hx : changesOnly L s a1) : OnlyO L s (execDeviceInfo a0 a1) := by
  (simp only [execDeviceInfo, onlyO_next, hx, runCmd_only, deviceInfoDef_only, h0, h1, h2, h3, h4, h5]; done)
theorem modeGetDef_only {L : List Part} {s : State}   : DefOnly L s modeGetDef := by
  intro o p y; simp only [modeGetDef]; (repeat' (first | with_reducible rfl | (simp only [only_ite, ite_self, onlyA_ite, reply_only]; done) | with_reducible refine onlyA_reply _ _ _ _ _ ?_ | with_reducible refine onlyA_replyLong _ _ _ _ _ ?_ | with_reducible refine onlyA_startOp _ _ _ _ _ _ _ _ _ (by assumption) (by assumption) ?_ | with_reducible refine onlyA_mk _ _ _ _ _ _ _ _ ?_ | split | (with_reducible refine (only_foldl _ (fun y b => ?_) _ _).trans ?_) | (refine ⟨?_, fun z => ?_⟩) | (simp only [])))
theorem execModeGet_only {L : List Part} {s : State} (a0 : Packet) (a1 : State) (h0 : Part.fenced ∈ L) (h1 : Part.out ∈ L) (h2 : Part.owner ∈ L) (h3 : Part.rings ∈ L) (h4 : Part.hosts ∈ L) (h5 : Part.fns ∈ L) (hx : changesOnly L s a1) : OnlyO L s (execModeGet a0 a1) := by
  (simp only [execModeGet, onlyO_next, hx, runCmd_only, modeGetDef_only, h0, h1, h2, h3, h4, h5]; done)
theorem quiesceDef_only {L : List Part} {s : State}  (h0 : Part.drawn ∈ L) (h1 : Part.ops ∈ L) : DefOnly L s quiesceDef := by
  intro o p y; simp only [quiesceDef]; (repeat' (first | with_reducible rfl | (simp only [only_ite, ite_self, onlyA_ite, startOp_only, h0, h1]; done) | with_reducible refine onlyA_reply _ _ _ _ _ ?_ | with_reducible refine onlyA_replyLong _ _ _ _ _ ?_ | with_reducible refine onlyA_startOp _ _ _ _ _ _ _ _ _ (by assumption) (by assumption) ?_ | with_reducible refine onlyA_mk _ _ _ _ _ _ _ _ ?_ | split | (with_reducible refine (only_foldl _ (fun y b => ?_) _ _).trans ?_) | (refine ⟨?_, fun z => ?_⟩) | (simp only [])))
theorem execQuiesce_only {L : List Part} {s : State} (a0 : Packet) (a1 : State) (h0 : Part.fenced ∈ L) (h1 : Part.out ∈ L) (h2 : Part.drawn ∈ L) (h3 : Part.owner ∈ L) (h4 : Part.rings ∈ L) (h5 : Part.ops ∈ L) (h6 : Part.hosts ∈ L) (h7 : Part.fns ∈ L) (hx : changesOnly L s a1) : OnlyO L s (execQuiesce a0 a1) := by
  (simp only [execQuiesce, onlyO_next, hx, runCmd_only, quiesceDef_only, h0, h1, h2, h3, h4, h5, h6, h7]; done)
theorem resumeDef_only {L : List Part} {s : State}  (h0 : Part.drawn ∈ L) (h1 : Part.ops ∈ L) : DefOnly L s resumeDef := by
  intro o p y; simp only [resumeDef]; (repeat' (first | with_reducible rfl | (simp only [only_ite, ite_self, onlyA_ite, startOp_only, h0, h1]; done) | with_reducible refine onlyA_reply _ _ _ _ _ ?_ | with_reducible refine onlyA_replyLong _ _ _ _ _ ?_ | with_reducible refine onlyA_startOp _ _ _ _ _ _ _ _ _ (by assumption) (by assumption) ?_ | with_reducible refine onlyA_mk _ _ _ _ _ _ _ _ ?_ | split | (with_reducible refine (only_foldl _ (fun y b => ?_) _ _).trans ?_) | (refine ⟨?_, fun z => ?_⟩) | (simp only [])))
theorem execResume_only {L : List Part} {s : State} (a0 : Packet) (a1 : State) (h0 : Part.fenced ∈ L) (h1 : Part.out ∈ L) (h2 : Part.drawn ∈ L) (h3 : Part.owner ∈ L) (h4 : Part.rings ∈ L) (h5 : Part.ops ∈ L) (h6 : Part.hosts ∈ L) (h7 : Part.fns ∈ L) (hx : changesOnly L s a1) : OnlyO L s (execResume a0 a1) := by
  (simp only [execResume, onlyO_next, hx, runCmd_only, resumeDef_only, h0, h1, h2, h3, h4, h5, h6, h7]; done)
theorem parkDef_only {L : List Part} {s : State}  (h0 : Part.glb ∈ L) : DefOnly L s parkDef := by
  intro o p y; simp only [parkDef]; (repeat' (first | with_reducible rfl | (simp only [only_glb, sameMode_iff, eq_self, and_self, h0]; done) | with_reducible refine onlyA_reply _ _ _ _ _ ?_ | with_reducible refine onlyA_replyLong _ _ _ _ _ ?_ | with_reducible refine onlyA_startOp _ _ _ _ _ _ _ _ _ (by assumption) (by assumption) ?_ | with_reducible refine onlyA_mk _ _ _ _ _ _ _ _ ?_ | split | (with_reducible refine (only_foldl _ (fun y b => ?_) _ _).trans ?_) | (refine ⟨?_, fun z => ?_⟩) | (simp only [])))
theorem execPark_only {L : List Part} {s : State} (a0 : Packet) (a1 : State) (h0 : Part.fenced ∈ L) (h1 : Part.out ∈ L) (h2 : Part.glb ∈ L) (h3 : Part.owner ∈ L) (h4 : Part.rings ∈ L) (h5 : Part.hosts ∈ L) (h6 : Part.fns ∈ L) (hx : changesOnly L s a1) : OnlyO L s (execPark a0 a1) := by
  (simp only [execPark, onlyO_next, hx, runCmd_only, parkDef_only, h0, h1, h2, h3, h4, h5, h6]; done)
theorem maintainDef_only {L : List Part} {s : State}  (h0 : Part.drawn ∈ L) (h1 : Part.ops ∈ L) : DefOnly L s maintainDef := by
  intro o p y; simp only [maintainDef]; (repeat' (first | with_reducible rfl | (simp only [only_ite, ite_self, onlyA_ite, startOp_only, h0, h1]; done) | with_reducible refine onlyA_reply _ _ _ _ _ ?_ | with_reducible refine onlyA_replyLong _ _ _ _ _ ?_ | with_reducible refine onlyA_startOp _ _ _ _ _ _ _ _ _ (by assumption) (by assumption) ?_ | with_reducible refine onlyA_mk _ _ _ _ _ _ _ _ ?_ | split | (with_reducible refine (only_foldl _ (fun y b => ?_) _ _).trans ?_) | (refine ⟨?_, fun z => ?_⟩) | (simp only [])))
theorem execMaintain_only {L : List Part} {s : State} (a0 : Packet) (a1 : State) (h0 : Part.fenced ∈ L) (h1 : Part.out ∈ L) (h2 : Part.drawn ∈ L) (h3 : Part.owner ∈ L) (h4 : Part.rings ∈ L) (h5 : Part.ops ∈ L) (h6 : Part.hosts ∈ L) (h7 : Part.fns ∈ L) (hx : changesOnly L s a1) : OnlyO L s (execMaintain a0 a1) := by
  (simp only [execMaintain, onlyO_next, hx, runCmd_only, maintainDef_only, h0, h1, h2, h3, h4, h5, h6, h7]; done)
theorem deviceResetDef_only {L : List Part} {s : State}  (h1 : Part.fenced ∈ L) (h2 : Part.out ∈ L) (h3 : Part.drawn ∈ L) (h5 : Part.dtime ∈ L) (h6 : Part.nv ∈ L) (h7 : Part.clk ∈ L) (h8 : Part.glb ∈ L) (h9 : Part.epochs ∈ L) (h10 : Part.owner ∈ L) (h11 : Part.rings ∈ L) (h12 : Part.ops ∈ L) (h13 : Part.hosts ∈ L) (h14 : Part.fns ∈ L) (h15 : Part.queues ∈ L) (h16 : Part.eth ∈ L) (h17 : Part.parse ∈ L) (h18 : Part.cls ∈ L) (h19 : Part.tables ∈ L) (h20 : Part.hod ∈ L) (h21 : Part.sched ∈ L) (h22 : Part.net ∈ L) (h23 : Part.ctx ∈ L) (h24 : Part.nvme ∈ L) (h25 : Part.crypt ∈ L) (h26 : Part.cores ∈ L) (h27 : Part.dram ∈ L) (h28 : Part.sec ∈ L) (h29 : Part.klb ∈ L) (h30 : Part.elec ∈ L) (h31 : Part.degr ∈ L) (h32 : Part.bist ∈ L) (h33 : Part.carve ∈ L) (h34 : Part.violations ∈ L) (h35 : Part.counters ∈ L) (h36 : Part.regs ∈ L) (h98 : Part.mode ∈ L) (h99 : Part.epoch ∈ L) : DefOnly L s deviceResetDef := by
  intro o p y; simp only [deviceResetDef]; (repeat' (first | with_reducible rfl | (simp only [deviceReset_only, h98, h99, h1, h2, h3, h5, h6, h7, h8, h9, h10, h11, h12, h13, h14, h15, h16, h17, h18, h19, h20, h21, h22, h23, h24, h25, h26, h27, h28, h29, h30, h31, h32, h33, h34, h35, h36]; done) | with_reducible refine onlyA_reply _ _ _ _ _ ?_ | with_reducible refine onlyA_replyLong _ _ _ _ _ ?_ | with_reducible refine onlyA_startOp _ _ _ _ _ _ _ _ _ (by assumption) (by assumption) ?_ | with_reducible refine onlyA_mk _ _ _ _ _ _ _ _ ?_ | split | (with_reducible refine (only_foldl _ (fun y b => ?_) _ _).trans ?_) | (refine ⟨?_, fun z => ?_⟩) | (simp only [])))
theorem execDeviceReset_only {L : List Part} {s : State} (a0 : Packet) (a1 : State) (h1 : Part.fenced ∈ L) (h2 : Part.out ∈ L) (h3 : Part.drawn ∈ L) (h5 : Part.dtime ∈ L) (h6 : Part.nv ∈ L) (h7 : Part.clk ∈ L) (h8 : Part.glb ∈ L) (h9 : Part.epochs ∈ L) (h10 : Part.owner ∈ L) (h11 : Part.rings ∈ L) (h12 : Part.ops ∈ L) (h13 : Part.hosts ∈ L) (h14 : Part.fns ∈ L) (h15 : Part.queues ∈ L) (h16 : Part.eth ∈ L) (h17 : Part.parse ∈ L) (h18 : Part.cls ∈ L) (h19 : Part.tables ∈ L) (h20 : Part.hod ∈ L) (h21 : Part.sched ∈ L) (h22 : Part.net ∈ L) (h23 : Part.ctx ∈ L) (h24 : Part.nvme ∈ L) (h25 : Part.crypt ∈ L) (h26 : Part.cores ∈ L) (h27 : Part.dram ∈ L) (h28 : Part.sec ∈ L) (h29 : Part.klb ∈ L) (h30 : Part.elec ∈ L) (h31 : Part.degr ∈ L) (h32 : Part.bist ∈ L) (h33 : Part.carve ∈ L) (h34 : Part.violations ∈ L) (h35 : Part.counters ∈ L) (h36 : Part.regs ∈ L) (h98 : Part.mode ∈ L) (h99 : Part.epoch ∈ L) (hx : changesOnly L s a1) : OnlyO L s (execDeviceReset a0 a1) := by
  (simp only [execDeviceReset, onlyO_next, hx, deviceResetDef_only, runCmd_only, h98, h99, h1, h2, h3, h5, h6, h7, h8, h9, h10, h11, h12, h13, h14, h15, h16, h17, h18, h19, h20, h21, h22, h23, h24, h25, h26, h27, h28, h29, h30, h31, h32, h33, h34, h35, h36]; done)
theorem maintOnNextBootDef_only {L : List Part} {s : State}  (h0 : Part.nv ∈ L) : DefOnly L s maintOnNextBootDef := by
  intro o p y; simp only [maintOnNextBootDef]; (repeat' (first | with_reducible rfl | (simp only [only_nv, sameFuses_iff, eq_self, and_self, h0]; done) | with_reducible refine onlyA_reply _ _ _ _ _ ?_ | with_reducible refine onlyA_replyLong _ _ _ _ _ ?_ | with_reducible refine onlyA_startOp _ _ _ _ _ _ _ _ _ (by assumption) (by assumption) ?_ | with_reducible refine onlyA_mk _ _ _ _ _ _ _ _ ?_ | split | (with_reducible refine (only_foldl _ (fun y b => ?_) _ _).trans ?_) | (refine ⟨?_, fun z => ?_⟩) | (simp only [])))
theorem execMaintOnNextBoot_only {L : List Part} {s : State} (a0 : Packet) (a1 : State) (h0 : Part.fenced ∈ L) (h1 : Part.out ∈ L) (h2 : Part.nv ∈ L) (h3 : Part.owner ∈ L) (h4 : Part.rings ∈ L) (h5 : Part.hosts ∈ L) (h6 : Part.fns ∈ L) (hx : changesOnly L s a1) : OnlyO L s (execMaintOnNextBoot a0 a1) := by
  (simp only [execMaintOnNextBoot, onlyO_next, hx, runCmd_only, maintOnNextBootDef_only, h0, h1, h2, h3, h4, h5, h6]; done)
theorem execDrainComplete_only {L : List Part} {s : State} (a0 : State) (h0 : Part.glb ∈ L) (h1 : Part.owner ∈ L) (hx : changesOnly L s a0) : OnlyO L s (execDrainComplete a0) := by
  (simp only [execDrainComplete, only_ite, ite_self, onlyO_next, hx, raiseOwner_only, only_glb, sameMode_iff, eq_self, and_self, h0, h1]; done)
theorem clearCounter_only {L : List Part} {s : State} (a0 : Nat) (a1 : Nat) (a2 : Nat) (a3 : State) (h0 : Part.nv ∈ L) (h1 : Part.counters ∈ L) : changesOnly L s (clearCounter a0 a1 a2 a3) ↔ changesOnly L s a3 := by
  (simp only [clearCounter, iff_self, only_ite, ite_self, setCounter_only, modNv_only, sameFuses_iff, eq_self, and_self, h0, h1]; done)
theorem clearCounters_only {L : List Part} {s : State} (a0 : Nat) (a1 : Nat) (a2 : Nat) (a3 : Nat) (a4 : State) (h0 : Part.nv ∈ L) (h1 : Part.counters ∈ L) : changesOnly L s (clearCounters a0 a1 a2 a3 a4) ↔ changesOnly L s a4 := by
  (simp only [clearCounters, only_foldl, iff_self, implies_true, clearCounter_only, h0, h1]; done)
theorem takeSnapshot_only {L : List Part} {s : State} (a0 : LongOp) (a1 : Nat) (a2 : Nat) (a3 : Nat) (a4 : Nat) (a5 : Bool) (a6 : State) (h0 : Part.out ∈ L) (h1 : Part.nv ∈ L) (h2 : Part.owner ∈ L) (h3 : Part.rings ∈ L) (h4 : Part.ops ∈ L) (h5 : Part.hosts ∈ L) (h6 : Part.fns ∈ L) (h7 : Part.counters ∈ L) : changesOnly L s (takeSnapshot a0 a1 a2 a3 a4 a5 a6) ↔ changesOnly L s a6 := by
  (fun_cases takeSnapshot a0 a1 a2 a3 a4 a5 a6 <;> (simp +zetaDelta only [iff_self, only_ite, ite_self, opDone_only, clearCounters_only, emit_only, h0, h1, h2, h3, h4, h5, h6, h7]; done))
theorem counterReadDef_only {L : List Part} {s : State}  (h0 : Part.nv ∈ L) (h1 : Part.counters ∈ L) : DefOnly L s counterReadDef := by
  intro o p y; simp only [counterReadDef]; (repeat' (first | with_reducible rfl | (simp only [only_ite, ite_self, clearCounters_only, h0, h1]; done) | with_reducible refine onlyA_reply _ _ _ _ _ ?_ | with_reducible refine onlyA_replyLong _ _ _ _ _ ?_ | with_reducible refine onlyA_startOp _ _ _ _ _ _ _ _ _ (by assumption) (by assumption) ?_ | with_reducible refine onlyA_mk _ _ _ _ _ _ _ _ ?_ | split | (with_reducible refine (only_foldl _ (fun y b => ?_) _ _).trans ?_) | (refine ⟨?_, fun z => ?_⟩) | (simp only [])))
theorem execCounterRead_only {L : List Part} {s : State} (a0 : Packet) (a1 : State) (h0 : Part.fenced ∈ L) (h1 : Part.out ∈ L) (h2 : Part.nv ∈ L) (h3 : Part.owner ∈ L) (h4 : Part.rings ∈ L) (h5 : Part.hosts ∈ L) (h6 : Part.fns ∈ L) (h7 : Part.counters ∈ L) (hx : changesOnly L s a1) : OnlyO L s (execCounterRead a0 a1) := by
  (simp only [execCounterRead, onlyO_next, hx, runCmd_only, counterReadDef_only, h0, h1, h2, h3, h4, h5, h6, h7]; done)
theorem counterSnapshotDef_only {L : List Part} {s : State}  (h0 : Part.drawn ∈ L) (h1 : Part.ops ∈ L) : DefOnly L s counterSnapshotDef := by
  intro o p y; simp only [counterSnapshotDef]; (repeat' (first | with_reducible rfl | (simp only [onlyA_ite]; done) | with_reducible refine onlyA_reply _ _ _ _ _ ?_ | with_reducible refine onlyA_replyLong _ _ _ _ _ ?_ | with_reducible refine onlyA_startOp _ _ _ _ _ _ _ _ _ (by assumption) (by assumption) ?_ | with_reducible refine onlyA_mk _ _ _ _ _ _ _ _ ?_ | split | (with_reducible refine (only_foldl _ (fun y b => ?_) _ _).trans ?_) | (refine ⟨?_, fun z => ?_⟩) | (simp only [])))
theorem execCounterSnapshot_only {L : List Part} {s : State} (a0 : Packet) (a1 : State) (h0 : Part.fenced ∈ L) (h1 : Part.out ∈ L) (h2 : Part.drawn ∈ L) (h3 : Part.owner ∈ L) (h4 : Part.rings ∈ L) (h5 : Part.ops ∈ L) (h6 : Part.hosts ∈ L) (h7 : Part.fns ∈ L) (hx : changesOnly L s a1) : OnlyO L s (execCounterSnapshot a0 a1) := by
  (simp only [execCounterSnapshot, onlyO_next, hx, runCmd_only, counterSnapshotDef_only, h0, h1, h2, h3, h4, h5, h6, h7]; done)
theorem resourceUsageDef_only {L : List Part} {s : State}   : DefOnly L s resourceUsageDef := by
  intro o p y; simp only [resourceUsageDef]; (repeat' (first | with_reducible rfl | (simp only [only_ite, ite_self, onlyA_ite, replyLong_only]; done) | with_reducible refine onlyA_reply _ _ _ _ _ ?_ | with_reducible refine onlyA_replyLong _ _ _ _ _ ?_ | with_reducible refine onlyA_startOp _ _ _ _ _ _ _ _ _ (by assumption) (by assumption) ?_ | with_reducible refine onlyA_mk _ _ _ _ _ _ _ _ ?_ | split | (with_reducible refine (only_foldl _ (fun y b => ?_) _ _).trans ?_) | (refine ⟨?_, fun z => ?_⟩) | (simp only [])))
theorem execResourceUsage_only {L : List Part} {s : State} (a0 : Packet) (a1 : State) (h0 : Part.fenced ∈ L) (h1 : Part.out ∈ L) (h2 : Part.owner ∈ L) (h3 : Part.rings ∈ L) (h4 : Part.hosts ∈ L) (h5 : Part.fns ∈ L) (hx : changesOnly L s a1) : OnlyO L s (execResourceUsage a0 a1) := by
  (simp only [execResourceUsage, onlyO_next, hx, runCmd_only, resourceUsageDef_only, h0, h1, h2, h3, h4, h5]; done)
theorem violationReadDef_only {L : List Part} {s : State}   : DefOnly L s violationReadDef := by
  intro o p y; simp only [violationReadDef]; (repeat' (first | with_reducible rfl | (simp only [only_ite, ite_self, onlyA_ite, replyLong_only]; done) | with_reducible refine onlyA_reply _ _ _ _ _ ?_ | with_reducible refine onlyA_replyLong _ _ _ _ _ ?_ | with_reducible refine onlyA_startOp _ _ _ _ _ _ _ _ _ (by assumption) (by assumption) ?_ | with_reducible refine onlyA_mk _ _ _ _ _ _ _ _ ?_ | split | (with_reducible refine (only_foldl _ (fun y b => ?_) _ _).trans ?_) | (refine ⟨?_, fun z => ?_⟩) | (simp only [])))
theorem execViolationRead_only {L : List Part} {s : State} (a0 : Packet) (a1 : State) (h0 : Part.fenced ∈ L) (h1 : Part.out ∈ L) (h2 : Part.owner ∈ L) (h3 : Part.rings ∈ L) (h4 : Part.hosts ∈ L) (h5 : Part.fns ∈ L) (hx : changesOnly L s a1) : OnlyO L s (execViolationRead a0 a1) := by
  (simp only [execViolationRead, onlyO_next, hx, runCmd_only, violationReadDef_only, h0, h1, h2, h3, h4, h5]; done)
theorem execKeyAlarmSource_only {L : List Part} {s : State} (a0 : Byte) (a1 : BitVec 17) (a2 : State) (h0 : Part.out ∈ L) (h1 : Part.owner ∈ L) (h2 : Part.hosts ∈ L) (h3 : Part.fns ∈ L) (h4 : Part.queues ∈ L) (h5 : Part.hod ∈ L) (h6 : Part.sched ∈ L) (h7 : Part.net ∈ L) (h8 : Part.crypt ∈ L) (h9 : Part.cores ∈ L) (h10 : Part.klb ∈ L) (h11 : Part.counters ∈ L) (hx : changesOnly L s a2) : OnlyO L s (execKeyAlarmSource a0 a1 a2) := by
  (simp only [execKeyAlarmSource, only_ite, ite_self, onlyO_next, hx, alarmSource_only, h0, h1, h2, h3, h4, h5, h6, h7, h8, h9, h10, h11]; done)
theorem opQueryDef_only {L : List Part} {s : State}   : DefOnly L s opQueryDef := by
  intro o p y; simp only [opQueryDef]; (repeat' (first | with_reducible rfl | (simp only [only_ite, ite_self, onlyA_ite, reply_only]; done) | with_reducible refine onlyA_reply _ _ _ _ _ ?_ | with_reducible refine onlyA_replyLong _ _ _ _ _ ?_ | with_reducible refine onlyA_startOp _ _ _ _ _ _ _ _ _ (by assumption) (by assumption) ?_ | with_reducible refine onlyA_mk _ _ _ _ _ _ _ _ ?_ | split | (with_reducible refine (only_foldl _ (fun y b => ?_) _ _).trans ?_) | (refine ⟨?_, fun z => ?_⟩) | (simp only [])))
theorem execOpQuery_only {L : List Part} {s : State} (a0 : Packet) (a1 : State) (h0 : Part.fenced ∈ L) (h1 : Part.out ∈ L) (h2 : Part.owner ∈ L) (h3 : Part.rings ∈ L) (h4 : Part.hosts ∈ L) (h5 : Part.fns ∈ L) (hx : changesOnly L s a1) : OnlyO L s (execOpQuery a0 a1) := by
  (simp only [execOpQuery, onlyO_next, hx, runCmd_only, opQueryDef_only, h0, h1, h2, h3, h4, h5]; done)
theorem opCancelDef_only {L : List Part} {s : State}  (h0 : Part.out ∈ L) (h1 : Part.epochs ∈ L) (h2 : Part.owner ∈ L) (h3 : Part.rings ∈ L) (h4 : Part.ops ∈ L) (h5 : Part.hosts ∈ L) (h6 : Part.fns ∈ L) (h7 : Part.tables ∈ L) (h8 : Part.nvme ∈ L) : DefOnly L s opCancelDef := by
  intro o p y; simp only [opCancelDef]; (repeat' (first | with_reducible rfl | (simp only [cancelOp_only, h0, h1, h2, h3, h4, h5, h6, h7, h8]; done) | with_reducible refine onlyA_reply _ _ _ _ _ ?_ | with_reducible refine onlyA_replyLong _ _ _ _ _ ?_ | with_reducible refine onlyA_startOp _ _ _ _ _ _ _ _ _ (by assumption) (by assumption) ?_ | with_reducible refine onlyA_mk _ _ _ _ _ _ _ _ ?_ | split | (with_reducible refine (only_foldl _ (fun y b => ?_) _ _).trans ?_) | (refine ⟨?_, fun z => ?_⟩) | (simp only [])))
theorem execOpCancel_only {L : List Part} {s : State} (a0 : Packet) (a1 : State) (h0 : Part.fenced ∈ L) (h1 : Part.out ∈ L) (h2 : Part.epochs ∈ L) (h3 : Part.owner ∈ L) (h4 : Part.rings ∈ L) (h5 : Part.ops ∈ L) (h6 : Part.hosts ∈ L) (h7 : Part.fns ∈ L) (h8 : Part.tables ∈ L) (h9 : Part.nvme ∈ L) (hx : changesOnly L s a1) : OnlyO L s (execOpCancel a0 a1) := by
  (simp only [execOpCancel, onlyO_next, hx, opCancelDef_only, runCmd_only, h0, h1, h2, h3, h4, h5, h6, h7, h8, h9]; done)
theorem migrateStep_only {L : List Part} {s : State} (a0 : LongOp) (a1 : HostId) (a2 : Nat) (a3 : Nat) (a4 : Nat) (a5 : State) (h0 : Part.out ∈ L) (h1 : Part.drawn ∈ L) (h2 : Part.owner ∈ L) (h3 : Part.rings ∈ L) (h4 : Part.ops ∈ L) (h5 : Part.hosts ∈ L) (h6 : Part.fns ∈ L) (h7 : Part.queues ∈ L) (h8 : Part.hod ∈ L) (h9 : Part.ctx ∈ L) (h10 : Part.counters ∈ L) : changesOnly L s (migrateStep a0 a1 a2 a3 a4 a5) ↔ changesOnly L s a5 := by
  have hw : ∀ (l : List Nat) (w : Walk), changesOnly L s (l.foldl (walkOne a1 a4) w).state ↔ changesOnly L s w.state := by
    intro l
    induction l with
    | nil => exact fun _ => Iff.rfl
    | cons k r ih =>
      intro w
      refine (ih _).trans ?_
      unfold walkOne
      split; · exact Iff.rfl
      split <;> next e => exact pair_only e (by simp only [migrateOne_only, h0, h1, h2, h3, h5, h6, h7, h8, h9, h10])
  unfold migrateStep
  simp only [only_ite, ite_self, opDone_only, putOp_only, hw, h0, h2, h3, h4, h5, h6]
theorem rehashStep_only {L : List Part} {s : State} (a0 : LongOp) (a1 : State) (h0 : Part.out ∈ L) (h1 : Part.owner ∈ L) (h2 : Part.rings ∈ L) (h3 : Part.ops ∈ L) (h4 : Part.hosts ∈ L) (h5 : Part.fns ∈ L) (h6 : Part.tables ∈ L) : changesOnly L s (rehashStep a0 a1) ↔ changesOnly L s a1 := by
  (simp only [rehashStep, iff_self, only_ite, ite_self, opDone_only, modEm_only, putOp_only, h0, h1, h2, h3, h4, h5, h6]; done)
theorem undercoatStep_only {L : List Part} {s : State} (a0 : LongOp) (a1 : List Nat) (a2 : State) (h0 : Part.out ∈ L) (h1 : Part.epochs ∈ L) (h2 : Part.owner ∈ L) (h3 : Part.rings ∈ L) (h4 : Part.ops ∈ L) (h5 : Part.hosts ∈ L) (h6 : Part.fns ∈ L) (h7 : Part.parse ∈ L) (h8 : Part.cls ∈ L) (h9 : Part.sched ∈ L) (h10 : Part.net ∈ L) : changesOnly L s (undercoatStep a0 a1 a2) ↔ changesOnly L s a2 := by
  (fun_cases undercoatStep a0 a1 a2 <;> (simp +zetaDelta only [iff_self, opDone_only, modUnit_only, reloadUnit_only, putOp_only, h0, h1, h2, h3, h4, h5, h6, h7, h8, h9, h10]; done))
theorem formatStep_only {L : List Part} {s : State} (a0 : LongOp) (a1 : Nat) (a2 : Nat) (a3 : State) (h0 : Part.out ∈ L) (h1 : Part.owner ∈ L) (h2 : Part.rings ∈ L) (h3 : Part.ops ∈ L) (h4 : Part.hosts ∈ L) (h5 : Part.fns ∈ L) (h6 : Part.nvme ∈ L) (h7 : Part.counters ∈ L) : changesOnly L s (formatStep a0 a1 a2 a3) ↔ changesOnly L s a3 := by
  (simp only [formatStep, iff_self, only_ite, ite_self, opDone_only, driveSend_only, putOp_only, h0, h1, h2, h3, h4, h5, h6, h7]; done)
theorem sanitizeStep_only {L : List Part} {s : State} (a0 : LongOp) (a1 : Bool) (a2 : Nat) (a3 : Nat) (a4 : State) (h0 : Part.out ∈ L) (h1 : Part.drawn ∈ L) (h2 : Part.nv ∈ L) (h3 : Part.owner ∈ L) (h4 : Part.rings ∈ L) (h5 : Part.ops ∈ L) (h6 : Part.hosts ∈ L) (h7 : Part.fns ∈ L) (h8 : Part.nvme ∈ L) (h9 : Part.crypt ∈ L) (h10 : Part.counters ∈ L) : changesOnly L s (sanitizeStep a0 a1 a2 a3 a4) ↔ changesOnly L s a4 := by
  (simp only [sanitizeStep, iff_self, only_ite, ite_self, sanitizeNs_only, opDone_only, driveSend_only, putOp_only, h0, h1, h2, h3, h4, h5, h6, h7, h8, h9, h10]; done)
theorem opStep_only {L : List Part} {s : State} (a0 : LongOp) (a1 : StepResult) (a2 : State) (h0 : Part.out ∈ L) (h1 : Part.drawn ∈ L) (h2 : Part.nv ∈ L) (h3 : Part.glb ∈ L) (h4 : Part.epochs ∈ L) (h5 : Part.owner ∈ L) (h6 : Part.rings ∈ L) (h7 : Part.ops ∈ L) (h8 : Part.hosts ∈ L) (h9 : Part.fns ∈ L) (h10 : Part.queues ∈ L) (h11 : Part.eth ∈ L) (h12 : Part.parse ∈ L) (h13 : Part.cls ∈ L) (h14 : Part.tables ∈ L) (h15 : Part.hod ∈ L) (h16 : Part.sched ∈ L) (h17 : Part.net ∈ L) (h18 : Part.ctx ∈ L) (h19 : Part.nvme ∈ L) (h20 : Part.crypt ∈ L) (h21 : Part.cores ∈ L) (h22 : Part.dram ∈ L) (h23 : Part.sec ∈ L) (h24 : Part.elec ∈ L) (h25 : Part.degr ∈ L) (h26 : Part.bist ∈ L) (h27 : Part.carve ∈ L) (h28 : Part.counters ∈ L) : changesOnly L s (opStep a0 a1 a2) ↔ changesOnly L s a2 := by
  (fun_cases opStep a0 a1 a2 <;> (simp +zetaDelta only [iff_self, undercoatStep_only, opDone_only, formatStep_only, programLoadStep_only, carveStep_only, fuseStep_only, sanitizeStep_only, selftestStep_only, installStep_only, discardHeld_only, migrateStep_only, rehashStep_only, pushStep_only, deleteNs_only, h0, h1, h2, h3, h4, h5, h6, h7, h8, h9, h10, h11, h12, h13, h14, h15, h16, h17, h18, h19, h20, h21, h22, h23, h24, h25, h26, h27, h28]; done))
theorem execLongOpStep_only {L : List Part} {s : State} (a0 : Word) (a1 : StepResult) (a2 : State) (h0 : Part.out ∈ L) (h1 : Part.drawn ∈ L) (h2 : Part.nv ∈ L) (h3 : Part.glb ∈ L) (h4 : Part.epochs ∈ L) (h5 : Part.owner ∈ L) (h6 : Part.rings ∈ L) (h7 : Part.ops ∈ L) (h8 : Part.hosts ∈ L) (h9 : Part.fns ∈ L) (h10 : Part.queues ∈ L) (h11 : Part.eth ∈ L) (h12 : Part.parse ∈ L) (h13 : Part.cls ∈ L) (h14 : Part.tables ∈ L) (h15 : Part.hod ∈ L) (h16 : Part.sched ∈ L) (h17 : Part.net ∈ L) (h18 : Part.ctx ∈ L) (h19 : Part.nvme ∈ L) (h20 : Part.crypt ∈ L) (h21 : Part.cores ∈ L) (h22 : Part.dram ∈ L) (h23 : Part.sec ∈ L) (h24 : Part.elec ∈ L) (h25 : Part.degr ∈ L) (h26 : Part.bist ∈ L) (h27 : Part.carve ∈ L) (h28 : Part.counters ∈ L) (hx : changesOnly L s a2) : OnlyO L s (execLongOpStep a0 a1 a2) := by
  (unfold execLongOpStep; (repeat' (first | with_reducible assumption | with_reducible rfl | (simp only [only_ite, onlyO_next, hx, opStep_only, h0, h1, h2, h3, h4, h5, h6, h7, h8, h9, h10, h11, h12, h13, h14, h15, h16, h17, h18, h19, h20, h21, h22, h23, h24, h25, h26, h27, h28]; done) | split | (with_reducible refine (onlyO_next _ _ _).mpr ?_) | (with_reducible refine (only_foldl _ (fun y b => ?_) _ _).mpr ?_) | (with_reducible refine (only_foldl _ (fun y b => ?_) _ _).trans ?_) | (simp only []))); done)
theorem nextEpoch_only {L : List Part} {s : State} (a0 : State) (h0 : Part.epochs ∈ L) (h99 : Part.epoch ∈ L) : changesOnly L s (nextEpoch a0) ↔ changesOnly L s a0 := by
  (simp only [nextEpoch, iff_self, h99, h0, only_epochs_epoch]; done)
theorem dueSnapshots_only {L : List Part} {s : State} (a0 : State) (h0 : Part.out ∈ L) (h1 : Part.nv ∈ L) (h2 : Part.owner ∈ L) (h3 : Part.rings ∈ L) (h4 : Part.ops ∈ L) (h5 : Part.hosts ∈ L) (h6 : Part.fns ∈ L) (h7 : Part.counters ∈ L) : changesOnly L s (dueSnapshots a0) ↔ changesOnly L s a0 := by
  (unfold dueSnapshots; (repeat' (first | (with_reducible rfl) | (simp only [iff_self, only_ite, ite_self, takeSnapshot_only, h0, h1, h2, h3, h4, h5, h6, h7]; done) | split | (with_reducible refine (only_foldl _ (fun y b => ?_) _ _).trans ?_) | (simp only []))); done)
theorem commitUnits_only {L : List Part} {s : State} (a0 : State) (h0 : Part.epochs ∈ L) (h1 : Part.parse ∈ L) (h2 : Part.cls ∈ L) (h3 : Part.sched ∈ L) (h4 : Part.net ∈ L) : changesOnly L s (commitUnits a0) ↔ changesOnly L s a0 := by
  (simp only [commitUnits, only_foldl, iff_self, implies_true, only_ite, ite_self, commitUnit_only, h0, h1, h2, h3, h4]; done)
theorem takeModeOp_only {L : List Part} {s : State} (a0 : LongOp) (a1 : State) (h0 : Part.out ∈ L) (h1 : Part.drawn ∈ L) (h2 : Part.glb ∈ L) (h3 : Part.owner ∈ L) (h4 : Part.rings ∈ L) (h5 : Part.ops ∈ L) (h6 : Part.hosts ∈ L) (h7 : Part.fns ∈ L) (h8 : Part.queues ∈ L) (h9 : Part.hod ∈ L) (h10 : Part.crypt ∈ L) (h11 : Part.cores ∈ L) (h12 : Part.dram ∈ L) (h13 : Part.counters ∈ L) (h98 : Part.mode ∈ L) : changesOnly L s (takeModeOp a0 a1) ↔ changesOnly L s a1 := by
  (fun_cases takeModeOp a0 a1 <;> (simp +zetaDelta only [iff_self, opDone_only, changeMode_only, kickQueues_only, h98, h0, h1, h2, h3, h4, h5, h6, h7, h8, h9, h10, h11, h12, h13]; done))
theorem takePark_only {L : List Part} {s : State} (a0 : State) (h0 : Part.out ∈ L) (h1 : Part.glb ∈ L) (h2 : Part.owner ∈ L) (h3 : Part.rings ∈ L) (h4 : Part.hosts ∈ L) (h5 : Part.fns ∈ L) (h6 : Part.hod ∈ L) (h7 : Part.crypt ∈ L) (h8 : Part.cores ∈ L) (h9 : Part.dram ∈ L) (h10 : Part.bist ∈ L) (h11 : Part.counters ∈ L) (h98 : Part.mode ∈ L) : changesOnly L s (takePark a0) ↔ changesOnly L s a0 := by
  (fun_cases takePark a0 <;> (simp +zetaDelta only [iff_self, startPark_only, h98, h0, h1, h2, h3, h4, h5, h6, h7, h8, h9, h10, h11]; done))
theorem takeAuto_only {L : List Part} {s : State} (a0 : Mode) (a1 : Cause) (a2 : State) (h0 : Part.out ∈ L) (h1 : Part.glb ∈ L) (h2 : Part.owner ∈ L) (h3 : Part.rings ∈ L) (h4 : Part.ops ∈ L) (h5 : Part.hosts ∈ L) (h6 : Part.fns ∈ L) (h7 : Part.hod ∈ L) (h8 : Part.crypt ∈ L) (h9 : Part.cores ∈ L) (h10 : Part.dram ∈ L) (h11 : Part.counters ∈ L) (h98 : Part.mode ∈ L) : changesOnly L s (takeAuto a0 a1 a2) ↔ changesOnly L s a2 := by
  (simp only [takeAuto, only_foldl, iff_self, implies_true, only_ite, ite_self, opDone_only, changeMode_only, h98, h0, h1, h2, h3, h4, h5, h6, h7, h8, h9, h10, h11, only_glb, sameMode_iff, eq_self, and_self]; done)
theorem dueModes_only {L : List Part} {s : State} (a0 : State) (h0 : Part.out ∈ L) (h1 : Part.drawn ∈ L) (h2 : Part.glb ∈ L) (h3 : Part.owner ∈ L) (h4 : Part.rings ∈ L) (h5 : Part.ops ∈ L) (h6 : Part.hosts ∈ L) (h7 : Part.fns ∈ L) (h8 : Part.queues ∈ L) (h9 : Part.hod ∈ L) (h10 : Part.crypt ∈ L) (h11 : Part.cores ∈ L) (h12 : Part.dram ∈ L) (h13 : Part.bist ∈ L) (h14 : Part.counters ∈ L) (h98 : Part.mode ∈ L) : changesOnly L s (dueModes a0) ↔ changesOnly L s a0 := by
  (fun_cases dueModes a0 <;> (simp +zetaDelta only [only_foldl, iff_self, implies_true, takeModeOp_only, takePark_only, takeAuto_only, h98, h0, h1, h2, h3, h4, h5, h6, h7, h8, h9, h10, h11, h12, h13, h14]; done))
theorem dueWaits_only {L : List Part} {s : State} (a0 : State) (h0 : Part.out ∈ L) (h1 : Part.owner ∈ L) (h2 : Part.rings ∈ L) (h3 : Part.ops ∈ L) (h4 : Part.hosts ∈ L) (h5 : Part.fns ∈ L) : changesOnly L s (dueWaits a0) ↔ changesOnly L s a0 := by
  (unfold dueWaits; (repeat' (first | (with_reducible rfl) | (simp only [iff_self, only_ite, ite_self, opDone_only, h0, h1, h2, h3, h4, h5]; done) | split | (with_reducible refine (only_foldl _ (fun y b => ?_) _ _).trans ?_) | (simp only []))); done)
theorem execEpochBoundary_only {L : List Part} {s : State} (a0 : State) (h0 : Part.out ∈ L) (h1 : Part.drawn ∈ L) (h2 : Part.nv ∈ L) (h3 : Part.glb ∈ L) (h4 : Part.epochs ∈ L) (h5 : Part.owner ∈ L) (h6 : Part.rings ∈ L) (h7 : Part.ops ∈ L) (h8 : Part.hosts ∈ L) (h9 : Part.fns ∈ L) (h10 : Part.queues ∈ L) (h11 : Part.parse ∈ L) (h12 : Part.cls ∈ L) (h13 : Part.hod ∈ L) (h14 : Part.sched ∈ L) (h15 : Part.net ∈ L) (h16 : Part.crypt ∈ L) (h17 : Part.cores ∈ L) (h18 : Part.dram ∈ L) (h19 : Part.bist ∈ L) (h20 : Part.counters ∈ L) (h98 : Part.mode ∈ L) (h99 : Part.epoch ∈ L) (hx : changesOnly L s a0) : OnlyO L s (execEpochBoundary a0) := by
  (simp only [execEpochBoundary, only_ite, ite_self, onlyO_next, hx, dueWaits_only, commitUnits_only, dueSnapshots_only, swapSpares_only, spreadBoundary_only, nextEpoch_only, dueModes_only, imbalance_only, h98, h99, h0, h1, h2, h3, h4, h5, h6, h7, h8, h9, h10, h11, h12, h13, h14, h15, h16, h17, h18, h19, h20]; done)
theorem modLatch_only {L : List Part} {s : State} (a0 : Tbl Nat → Tbl Nat) (a1 : State) (h0 : Part.epochs ∈ L) : changesOnly L s (modLatch a0 a1) ↔ changesOnly L s a1 := by
  (simp only [modLatch, iff_self, h0, only_epochs, eq_self]; done)
theorem readReg_only {L : List Part} {s : State} (a0 : Nat) (a1 : State) (h0 : Part.drawn ∈ L) (h1 : Part.epochs ∈ L) (h2 : Part.hosts ∈ L) : changesOnly L s (readReg a0 a1).2 ↔ changesOnly L s a1 := by
  (fun_cases readReg a0 a1 <;> (simp +zetaDelta only [iff_self, modLatch_only, modLink_only, drawn1_only, h0, h1, h2]; done))
theorem readRegOut_only {L : List Part} {s : State} (a0 : Nat) (a1 : State) (h0 : Part.out ∈ L) (h1 : Part.drawn ∈ L) (h2 : Part.epochs ∈ L) (h3 : Part.hosts ∈ L) (hx : changesOnly L s a1) : OnlyO L s (readRegOut a0 a1) := by
  (simp only [readRegOut, ite_self, onlyO_ite, onlyO_next, onlyO_refused, hx, readReg_only, emit_only, h0, h1, h2, h3]; done)
theorem execLowWordRead_only {L : List Part} {s : State} (a0 : Word) (a1 : State) (h0 : Part.out ∈ L) (h1 : Part.drawn ∈ L) (h2 : Part.epochs ∈ L) (h3 : Part.hosts ∈ L) (hx : changesOnly L s a1) : OnlyO L s (execLowWordRead a0 a1) := by
  (simp only [execLowWordRead, hx, readRegOut_only, h0, h1, h2, h3]; done)
theorem execReadClearRegisterRead_only {L : List Part} {s : State} (a0 : Word) (a1 : State) (h0 : Part.out ∈ L) (h1 : Part.drawn ∈ L) (h2 : Part.epochs ∈ L) (h3 : Part.hosts ∈ L) (hx : changesOnly L s a1) : OnlyO L s (execReadClearRegisterRead a0 a1) := by
  (simp only [execReadClearRegisterRead, hx, readRegOut_only, h0, h1, h2, h3]; done)
theorem keepReg_only {L : List Part} {s : State} (a0 : Nat) (a1 : Nat) (a2 : Nat) (a3 : State) (h0 : Part.regs ∈ L) : changesOnly L s (keepReg a0 a1 a2 a3) ↔ changesOnly L s a3 := by
  (simp only [keepReg, iff_self, h0, only_regs]; done)
theorem writeGlb_only {L : List Part} {s : State} (a0 : Nat) (a1 : Nat) (a2 : State) (h0 : Part.clk ∈ L) (h1 : Part.epochs ∈ L) (h2 : Part.regs ∈ L) (hx : changesOnly L s a2) : OnlyO L s (writeGlb a0 a1 a2) := by
  (simp only [writeGlb, only_ite, ite_self, onlyO_ite, onlyO_next, hx, execGlbRecoatArmWrite_only, keepReg_only, execGlbEpochLenWrite_only, only_clk, h0, h1, h2]; done)
theorem writeEth_only {L : List Part} {s : State} (a0 : Nat) (a1 : Nat) (a2 : State) (h0 : Part.out ∈ L) (h1 : Part.dtime ∈ L) (h2 : Part.hosts ∈ L) (h3 : Part.fns ∈ L) (h4 : Part.queues ∈ L) (h5 : Part.eth ∈ L) (h6 : Part.hod ∈ L) (h7 : Part.sched ∈ L) (h8 : Part.net ∈ L) (h9 : Part.counters ∈ L) (hx : changesOnly L s a2) : OnlyO L s (writeEth a0 a1 a2) := by
  (simp only [writeEth, only_ite, ite_self, onlyO_ite, onlyO_next, hx, modGroup_only, execDtimeStep_only, ethApply_only, execDtimeRateWrite_only, only_eth, h0, h1, h2, h3, h4, h5, h6, h7, h8, h9]; done)
theorem writeParse_only {L : List Part} {s : State} (a0 : Nat) (a1 : Nat) (a2 : State) (h0 : Part.epochs ∈ L) (h1 : Part.parse ∈ L) (h2 : Part.net ∈ L) (hx : changesOnly L s a2) : OnlyO L s (writeParse a0 a1 a2) := by
  (simp only [writeParse, only_ite, ite_self, onlyO_ite, onlyO_next, hx, execStagedRegisterWrite_only, only_net, only_parse, h0, h1, h2]; done)
theorem writeHod_only {L : List Part} {s : State} (a0 : Nat) (a1 : Nat) (a2 : State) (h0 : Part.hod ∈ L) : changesOnly L s (writeHod a0 a1 a2) ↔ changesOnly L s a2 := by
  (simp only [writeHod, iff_self, only_ite, ite_self, hodApply_only, modHod_only, h0]; done)
theorem writeCore_only {L : List Part} {s : State} (a0 : Nat) (a1 : Nat) (a2 : State) (h0 : Part.cores ∈ L) : changesOnly L s (writeCore a0 a1 a2) ↔ changesOnly L s a2 := by
  (simp only [writeCore, iff_self, only_ite, ite_self, modCore_only, h0]; done)
theorem writeReg_only {L : List Part} {s : State} (a0 : Nat) (a1 : Nat) (a2 : State) (h0 : Part.out ∈ L) (h1 : Part.dtime ∈ L) (h2 : Part.clk ∈ L) (h3 : Part.epochs ∈ L) (h4 : Part.hosts ∈ L) (h5 : Part.fns ∈ L) (h6 : Part.queues ∈ L) (h7 : Part.eth ∈ L) (h8 : Part.parse ∈ L) (h9 : Part.hod ∈ L) (h10 : Part.sched ∈ L) (h11 : Part.net ∈ L) (h12 : Part.nvme ∈ L) (h13 : Part.crypt ∈ L) (h14 : Part.cores ∈ L) (h15 : Part.dram ∈ L) (h16 : Part.counters ∈ L) (h17 : Part.regs ∈ L) (hx : changesOnly L s a2) : OnlyO L s (writeReg a0 a1 a2) := by
  (fun_cases writeReg a0 a1 a2 <;> (simp +zetaDelta only [only_ite, ite_self, onlyO_next, hx, modDrive_only, writeHod_only, writeGlb_only, modDram_only, writeCore_only, writeEth_only, writeParse_only, only_crypt, h0, h1, h2, h3, h4, h5, h6, h7, h8, h9, h10, h11, h12, h13, h14, h15, h16, h17]; done))
theorem execRegisterWrite_only {L : List Part} {s : State} (a0 : Word) (a1 : Word) (a2 : State) (h0 : Part.out ∈ L) (h1 : Part.dtime ∈ L) (h2 : Part.clk ∈ L) (h3 : Part.epochs ∈ L) (h4 : Part.hosts ∈ L) (h5 : Part.fns ∈ L) (h6 : Part.queues ∈ L) (h7 : Part.eth ∈ L) (h8 : Part.parse ∈ L) (h9 : Part.hod ∈ L) (h10 : Part.sched ∈ L) (h11 : Part.net ∈ L) (h12 : Part.nvme ∈ L) (h13 : Part.crypt ∈ L) (h14 : Part.cores ∈ L) (h15 : Part.dram ∈ L) (h16 : Part.counters ∈ L) (h17 : Part.regs ∈ L) (hx : changesOnly L s a2) : OnlyO L s (execRegisterWrite a0 a1 a2) := by
  (simp only [execRegisterWrite, ite_self, onlyO_ite, onlyO_refused, hx, writeReg_only, h0, h1, h2, h3, h4, h5, h6, h7, h8, h9, h10, h11, h12, h13, h14, h15, h16, h17]; done)
theorem readCell_only {L : List Part} {s : State} (a0 : HostId) (a1 : Fn) (a2 : BarCell) (a3 : State) (h0 : Part.drawn ∈ L) (h1 : Part.rings ∈ L) : changesOnly L s (readCell a0 a1 a2 a3).2 ↔ changesOnly L s a3 := by
  (fun_cases readCell a0 a1 a2 a3 <;> (simp +zetaDelta only [iff_self, only_ite, ite_self, drawn1_only, modRing_only, h0, h1]; done))
theorem barRead_only {L : List Part} {s : State} (a0 : HostId) (a1 : Fn) (a2 : BarReq) (a3 : State) (h0 : Part.out ∈ L) (h1 : Part.drawn ∈ L) (h2 : Part.owner ∈ L) (h3 : Part.rings ∈ L) (h4 : Part.hosts ∈ L) (h5 : Part.fns ∈ L) (h6 : Part.violations ∈ L) (h7 : Part.counters ∈ L) (hx : changesOnly L s a3) : OnlyO L s (barRead a0 a1 a2 a3) := by
  have hf : ∀ l z, changesOnly L s (List.foldl (fun (a : List Nat × State) c => let x := readCell a0 a1 c a.2; (a.1 ++ [x.1], x.2)) z l).2 ↔ changesOnly L s z.2 := by
    intro l
    induction l with
    | nil => exact fun _ => Iff.rfl
    | cons c r ih => exact fun z => (ih _).trans (readCell_only _ _ _ _ (by assumption) (by assumption))
  unfold barRead
  simp only []
  split
  · simp only [onlyO_next, completerAbort_only, hx, h0, h2, h3, h4, h5, h6, h7]
  · split
    · exact onlyO_refused _ _ _
    · refine (onlyO_next _ _ _).mpr ((emit_only _ _ (by assumption)).mpr ((hf _ _).mpr hx))
theorem afterwards_only {L : List Part} {s : State} (o : Host.Outcome State Fault Refusal) (f : State → Host.Outcome State Fault Refusal) (h : OnlyO L s o) (hf : ∀ x, changesOnly L s x → OnlyO L s (f x)) : OnlyO L s (afterwards o f) := by
  cases o with
  | next t => exact hf t (h t rfl)
  | fault e => exact onlyO_fault _ _ _
  | refused e => exact onlyO_refused _ _ _
theorem writeCtrl_only {L : List Part} {s : State} (a0 : RingChan) (a1 : Nat) (a2 : State) (h0 : Part.fenced ∈ L) (h1 : Part.out ∈ L) (h2 : Part.epochs ∈ L) (h3 : Part.owner ∈ L) (h4 : Part.rings ∈ L) (h5 : Part.ops ∈ L) (h6 : Part.hosts ∈ L) (h7 : Part.fns ∈ L) (h8 : Part.tables ∈ L) (h9 : Part.nvme ∈ L) (hx : changesOnly L s a2) : OnlyO L s (writeCtrl a0 a1 a2) := by
  unfold writeCtrl
  refine afterwards_only _ _ (execHlinkCmdEventEnableWrite_only _ _ _ (by assumption) ((modRing_only _ _ _ (by assumption)).mpr hx)) (fun x hx => ?_)
  split
  · exact execHlinkCmdEnableSet_only _ _ (by assumption) hx
  · exact execHlinkCmdEnableClear_only _ _ (by assumption) (by assumption) (by assumption) (by assumption) (by assumption) (by assumption) (by assumption) (by assumption) (by assumption) (by assumption) hx
theorem writeCmd_only {L : List Part} {s : State} (a0 : RingChan) (a1 : Nat) (a2 : Nat) (a3 : State) (h0 : Part.fenced ∈ L) (h1 : Part.out ∈ L) (h2 : Part.epochs ∈ L) (h3 : Part.owner ∈ L) (h4 : Part.rings ∈ L) (h5 : Part.ops ∈ L) (h6 : Part.hosts ∈ L) (h7 : Part.fns ∈ L) (h8 : Part.tables ∈ L) (h9 : Part.nvme ∈ L) (hx : changesOnly L s a3) : OnlyO L s (writeCmd a0 a1 a2 a3) := by
  (fun_cases writeCmd a0 a1 a2 a3 <;> (simp +zetaDelta only [only_ite, ite_self, onlyO_next, hx, execHlinkCmdEqHead_only, execHlinkCmdRqHead_only, modRing_only, writeCtrl_only, execHlinkCmdSqTail_only, h0, h1, h2, h3, h4, h5, h6, h7, h8, h9]; done))
theorem writeTable_only {L : List Part} {s : State} (a0 : HostId) (a1 : Fn) (a2 : Nat) (a3 : Nat) (a4 : State) (h0 : Part.out ∈ L) (h1 : Part.fns ∈ L) : changesOnly L s (writeTable a0 a1 a2 a3 a4) ↔ changesOnly L s a4 := by
  (simp only [writeTable, iff_self, only_ite, ite_self, modFn_only, unmask_only, h0, h1]; done)
theorem writeCc_only {L : List Part} {s : State} (a0 : HostId) (a1 : Fn) (a2 : Nat) (a3 : State) (h0 : Part.out ∈ L) (h1 : Part.drawn ∈ L) (h2 : Part.nv ∈ L) (h3 : Part.owner ∈ L) (h4 : Part.rings ∈ L) (h5 : Part.hosts ∈ L) (h6 : Part.fns ∈ L) (h7 : Part.ctx ∈ L) (h8 : Part.nvme ∈ L) (h9 : Part.crypt ∈ L) (h10 : Part.counters ∈ L) (hx : changesOnly L s a3) : OnlyO L s (writeCc a0 a1 a2 a3) := by
  have hk : ∀ (g : Ctrl → Ctrl) k x, changesOnly L s x → OnlyO L s (.next (modCtrl k g x)) := fun g k x h => (onlyO_next _ _ _).mpr ((modCtrl_only _ _ _ (by assumption)).mpr h)
  unfold writeCc
  simp only []
  split
  · exact afterwards_only _ _ (execNvmeCcEnSet_only _ _ _ _ (by assumption) hx) (fun x hx => hk _ _ _ hx)
  split
  · exact afterwards_only _ _ (execNvmeCcEnClear_only _ _ _ (by assumption) (by assumption) (by assumption) (by assumption) (by assumption) (by assumption) (by assumption) (by assumption) (by assumption) (by assumption) (by assumption) hx) (fun x hx => hk _ _ _ hx)
  split
  · exact afterwards_only _ _ (execNvmeShutdown_only _ _ _ _ (by assumption) (by assumption) (by assumption) (by assumption) (by assumption) (by assumption) (by assumption) (by assumption) (by assumption) (by assumption) (by assumption) hx) (fun x hx => hk _ _ _ hx)
  · exact hk _ _ _ hx
theorem writeNvme_only {L : List Part} {s : State} (a0 : HostId) (a1 : Fn) (a2 : Nat) (a3 : Nat) (a4 : State) (h0 : Part.out ∈ L) (h1 : Part.drawn ∈ L) (h2 : Part.nv ∈ L) (h3 : Part.owner ∈ L) (h4 : Part.rings ∈ L) (h5 : Part.hosts ∈ L) (h6 : Part.fns ∈ L) (h7 : Part.ctx ∈ L) (h8 : Part.nvme ∈ L) (h9 : Part.crypt ∈ L) (h10 : Part.counters ∈ L) (hx : changesOnly L s a4) : OnlyO L s (writeNvme a0 a1 a2 a3 a4) := by
  (fun_cases writeNvme a0 a1 a2 a3 a4 <;> (simp +zetaDelta only [onlyO_next, hx, modCtrl_only, writeCc_only, execNvmeIntmsIntmc_only, h0, h1, h2, h3, h4, h5, h6, h7, h8, h9, h10]; done))
theorem writeRec_only {L : List Part} {s : State} (a0 : HostId) (a1 : Nat) (a2 : Nat) (a3 : State) (h0 : Part.out ∈ L) (h1 : Part.drawn ∈ L) (h2 : Part.hosts ∈ L) (h3 : Part.sec ∈ L) : changesOnly L s (writeRec a0 a1 a2 a3) ↔ changesOnly L s a3 := by
  (fun_cases writeRec a0 a1 a2 a3 <;> (simp +zetaDelta only [iff_self, only_ite, ite_self, recAbort_only, recCommit_only, modRec_only, recInstall_only, refreshRec_only, h0, h1, h2, h3]; done))
theorem ringDoorbell_only {L : List Part} {s : State} (a0 : HostId) (a1 : Fn) (a2 : Nat) (a3 : Nat) (a4 : BarReq) (a5 : State) (h0 : Part.out ∈ L) (h1 : Part.drawn ∈ L) (h2 : Part.owner ∈ L) (h3 : Part.rings ∈ L) (h4 : Part.hosts ∈ L) (h5 : Part.fns ∈ L) (h6 : Part.queues ∈ L) (h7 : Part.hod ∈ L) (h8 : Part.ctx ∈ L) (h9 : Part.counters ∈ L) (hx : changesOnly L s a5) : OnlyO L s (ringDoorbell a0 a1 a2 a3 a4 a5) := by
  (fun_cases ringDoorbell a0 a1 a2 a3 a4 a5 <;> (simp +zetaDelta only [onlyO_next, hx, execTxqDoorbell_only, execCqDoorbell_only, execLrdSqDoorbell_only, execRxqDoorbell_only, execLrdRqDoorbell_only, h0, h1, h2, h3, h4, h5, h6, h7, h8, h9]; done))
theorem writeCell_only {L : List Part} {s : State} (a0 : HostId) (a1 : Fn) (a2 : BarCell) (a3 : Nat) (a4 : BarReq) (a5 : State) (h0 : Part.fenced ∈ L) (h1 : Part.out ∈ L) (h2 : Part.drawn ∈ L) (h3 : Part.nv ∈ L) (h4 : Part.epochs ∈ L) (h5 : Part.owner ∈ L) (h6 : Part.rings ∈ L) (h7 : Part.ops ∈ L) (h8 : Part.hosts ∈ L) (h9 : Part.fns ∈ L) (h10 : Part.queues ∈ L) (h11 : Part.tables ∈ L) (h12 : Part.hod ∈ L) (h13 : Part.ctx ∈ L) (h14 : Part.nvme ∈ L) (h15 : Part.crypt ∈ L) (h16 : Part.sec ∈ L) (h17 : Part.counters ∈ L) (hx : changesOnly L s a5) : OnlyO L s (writeCell a0 a1 a2 a3 a4 a5) := by
  (fun_cases writeCell a0 a1 a2 a3 a4 a5 <;> (simp +zetaDelta only [onlyO_next, hx, execNvmeCqDoorbell_only, writeCmd_only, execNvmeSqDoorbell_only, writeNvme_only, modLink_only, writeRec_only, clearIntx_only, refreshInta_only, ringDoorbell_only, writeTable_only, h0, h1, h2, h3, h4, h5, h6, h7, h8, h9, h10, h11, h12, h13, h14, h15, h16, h17]; done))
theorem writeWindow_only {L : List Part} {s : State} (a0 : HostId) (a1 : BarReq) (a2 : State) (h0 : Part.sec ∈ L) : changesOnly L s (writeWindow a0 a1 a2) ↔ changesOnly L s a2 := by
  (simp only [writeWindow, iff_self, modRec_only, h0]; done)
theorem barWrite_only {L : List Part} {s : State} (a0 : HostId) (a1 : Fn) (a2 : BarReq) (a3 : State) (h0 : Part.fenced ∈ L) (h1 : Part.out ∈ L) (h2 : Part.drawn ∈ L) (h3 : Part.nv ∈ L) (h4 : Part.epochs ∈ L) (h5 : Part.owner ∈ L) (h6 : Part.rings ∈ L) (h7 : Part.ops ∈ L) (h8 : Part.hosts ∈ L) (h9 : Part.fns ∈ L) (h10 : Part.queues ∈ L) (h11 : Part.tables ∈ L) (h12 : Part.hod ∈ L) (h13 : Part.ctx ∈ L) (h14 : Part.nvme ∈ L) (h15 : Part.crypt ∈ L) (h16 : Part.sec ∈ L) (h17 : Part.counters ∈ L) (hx : changesOnly L s a3) : OnlyO L s (barWrite a0 a1 a2 a3) := by
  have hf : ∀ (g : Nat → State → Host.Outcome State Fault Refusal) (_ : ∀ n x, changesOnly L s x → OnlyO L s (g n x)) (l : List Nat) o, OnlyO L s o → OnlyO L s (l.foldl (fun o i => afterwards o (g i)) o) := by
    intro g hg l
    induction l with
    | nil => exact fun _ h => h
    | cons i r ih => exact fun o h => ih _ (afterwards_only _ _ h (hg i))
  unfold barWrite
  simp only []
  split
  · simp only [onlyO_next, writeWindow_only, hx, h16]
  split
  · exact onlyO_refused _ _ _
  split
  · exact onlyO_refused _ _ _
  · exact hf _ (fun n x hx => writeCell_only _ _ _ _ _ _ (by assumption) (by assumption) (by assumption) (by assumption) (by assumption) (by assumption) (by assumption) (by assumption) (by assumption) (by assumption) (by assumption) (by assumption) (by assumption) (by assumption) (by assumption) (by assumption) (by assumption) (by assumption) hx) _ _ ((onlyO_next _ _ _).mpr hx)
theorem execBarMemoryRequest_only {L : List Part} {s : State} (a0 : HostId) (a1 : BarReq) (a2 : State) (h0 : Part.fenced ∈ L) (h1 : Part.out ∈ L) (h2 : Part.drawn ∈ L) (h3 : Part.nv ∈ L) (h4 : Part.epochs ∈ L) (h5 : Part.owner ∈ L) (h6 : Part.rings ∈ L) (h7 : Part.ops ∈ L) (h8 : Part.hosts ∈ L) (h9 : Part.fns ∈ L) (h10 : Part.queues ∈ L) (h11 : Part.tables ∈ L) (h12 : Part.hod ∈ L) (h13 : Part.ctx ∈ L) (h14 : Part.nvme ∈ L) (h15 : Part.crypt ∈ L) (h16 : Part.sec ∈ L) (h17 : Part.violations ∈ L) (h18 : Part.counters ∈ L) (hx : changesOnly L s a2) : OnlyO L s (execBarMemoryRequest a0 a1 a2) := by
  (fun_cases execBarMemoryRequest a0 a1 a2 <;> (simp +zetaDelta only [onlyO_next, hx, logAer_only, barRead_only, barWrite_only, unsupported_only, h0, h1, h2, h3, h4, h5, h6, h7, h8, h9, h10, h11, h12, h13, h14, h15, h16, h17, h18]; done))
theorem klbAnswer_only {L : List Part} {s : State} (a0 : List (String × List Nat)) (a1 : Status) (a2 : State) (h0 : Part.out ∈ L) : changesOnly L s (klbAnswer a0 a1 a2) ↔ changesOnly L s a2 := by
  (simp only [klbAnswer, only_foldl, iff_self, implies_true, emit_only, h0]; done)
theorem countDbg_only {L : List Part} {s : State} (a0 : Nat) (a1 : State) (h0 : Part.counters ∈ L) : changesOnly L s (countDbg a0 a1) ↔ changesOnly L s a1 := by
  (simp only [countDbg, iff_self, count_only, h0]; done)
theorem runKlb_only {L : List Part} {s : State} (a0 : KlbPlace) (a1 : Bool) (a2 : State → KlbReply) (a3 : State) (hf : ∀ x, changesOnly L s (a2 x).state ↔ changesOnly L s x) (h0 : Part.out ∈ L) (h1 : Part.counters ∈ L) : changesOnly L s (runKlb a0 a1 a2 a3) ↔ changesOnly L s a3 := by
  unfold runKlb
  simp only [only_ite, ite_self, klbAnswer_only, countDbg_only, hf, h0, h1]
theorem reply0_only {L : List Part} {s : State} (a0 : Status) (a1 : State)  : changesOnly L s (reply0 a0 a1).state ↔ changesOnly L s a1 := by
  (simp only [reply0, iff_self]; done)
theorem execKlbLineTooLong_only {L : List Part} {s : State} (a0 : State) (h0 : Part.out ∈ L) (h1 : Part.counters ∈ L) (hx : changesOnly L s a0) : OnlyO L s (execKlbLineTooLong a0) := by
  (simp only [execKlbLineTooLong, only_ite, ite_self, onlyO_next, hx, klbAnswer_only, countDbg_only, h0, h1]; done)
theorem execHelp_only {L : List Part} {s : State} (a0 : State) (h0 : Part.out ∈ L) (h1 : Part.counters ∈ L) (hx : changesOnly L s a0) : OnlyO L s (execHelp a0) := by
  (simp only [execHelp, iff_self, implies_true, onlyO_next, hx, runKlb_only, h0, h1]; done)
theorem execVer_only {L : List Part} {s : State} (a0 : State) (h0 : Part.out ∈ L) (h1 : Part.counters ∈ L) (hx : changesOnly L s a0) : OnlyO L s (execVer a0) := by
  (simp only [execVer, iff_self, implies_true, onlyO_next, hx, runKlb_only, h0, h1]; done)
theorem execStatus_only {L : List Part} {s : State} (a0 : State) (h0 : Part.out ∈ L) (h1 : Part.counters ∈ L) (hx : changesOnly L s a0) : OnlyO L s (execStatus a0) := by
  (simp only [execStatus, iff_self, implies_true, onlyO_next, hx, runKlb_only, h0, h1]; done)
theorem execBaud_only {L : List Part} {s : State} (a0 : Nat) (a1 : State) (h0 : Part.out ∈ L) (h1 : Part.klb ∈ L) (h2 : Part.counters ∈ L) (hx : changesOnly L s a1) : OnlyO L s (execBaud a0 a1) := by
  (unfold execBaud; (repeat' (first | with_reducible assumption | with_reducible rfl | (simp only [iff_self, implies_true, onlyO_next, hx, modKlb_only, runKlb_only, reply0_only, h0, h1, h2]; done) | split | (with_reducible refine (onlyO_next _ _ _).mpr ?_) | (with_reducible refine (only_foldl _ (fun y b => ?_) _ _).mpr ?_) | (with_reducible refine (only_foldl _ (fun y b => ?_) _ _).trans ?_) | (simp only []))); done)
theorem issueNonce_only {L : List Part} {s : State} (a0 : State) (h0 : Part.drawn ∈ L) (h1 : Part.klb ∈ L) : changesOnly L s (issueNonce a0).state ↔ changesOnly L s a0 := by
  (simp only [issueNonce, iff_self, modKlb_only, drawn1_only, h0, h1]; done)
theorem execAuthNonce_only {L : List Part} {s : State} (a0 : State) (h0 : Part.out ∈ L) (h1 : Part.drawn ∈ L) (h2 : Part.klb ∈ L) (h3 : Part.counters ∈ L) (hx : changesOnly L s a0) : OnlyO L s (execAuthNonce a0) := by
  (simp only [execAuthNonce, iff_self, implies_true, onlyO_next, hx, issueNonce_only, runKlb_only, h0, h1, h2, h3]; done)
theorem loadRecord_only {L : List Part} {s : State} (a0 : Nat) (a1 : List Byte) (a2 : State) (h0 : Part.klb ∈ L) : changesOnly L s (loadRecord a0 a1 a2).state ↔ changesOnly L s a2 := by
  (fun_cases loadRecord a0 a1 a2 <;> (simp +zetaDelta only [iff_self, modKlb_only, reply0_only, h0]; done))
theorem execAuthLoad_only {L : List Part} {s : State} (a0 : Nat) (a1 : List Byte) (a2 : State) (h0 : Part.out ∈ L) (h1 : Part.klb ∈ L) (h2 : Part.counters ∈ L) (hx : changesOnly L s a2) : OnlyO L s (execAuthLoad a0 a1 a2) := by
  (simp only [execAuthLoad, iff_self, implies_true, onlyO_next, hx, runKlb_only, loadRecord_only, h0, h1, h2]; done)
theorem startSession_only {L : List Part} {s : State} (a0 : List Byte) (a1 : State) (h0 : Part.cores ∈ L) (h1 : Part.sec ∈ L) (h2 : Part.klb ∈ L) : changesOnly L s (startSession a0 a1) ↔ changesOnly L s a1 := by
  (simp only [startSession, iff_self, extend_only, modKlb_only, endSession_only, h0, h1, h2]; done)
theorem checkRecord_only {L : List Part} {s : State} (a0 : State) (h0 : Part.cores ∈ L) (h1 : Part.sec ∈ L) (h2 : Part.klb ∈ L) (h3 : Part.counters ∈ L) : changesOnly L s (checkRecord a0).state ↔ changesOnly L s a0 := by
  (fun_cases checkRecord a0 <;> (simp +zetaDelta only [iff_self, modKlb_only, countDbg_only, startSession_only, reply0_only, h0, h1, h2, h3]; done))
theorem execAuthCheck_only {L : List Part} {s : State} (a0 : State) (h0 : Part.out ∈ L) (h1 : Part.cores ∈ L) (h2 : Part.sec ∈ L) (h3 : Part.klb ∈ L) (h4 : Part.counters ∈ L) (hx : changesOnly L s a0) : OnlyO L s (execAuthCheck a0) := by
  (simp only [execAuthCheck, iff_self, implies_true, onlyO_next, hx, checkRecord_only, runKlb_only, h0, h1, h2, h3, h4]; done)
theorem execAuthEnd_only {L : List Part} {s : State} (a0 : State) (h0 : Part.out ∈ L) (h1 : Part.cores ∈ L) (h2 : Part.klb ∈ L) (h3 : Part.counters ∈ L) (hx : changesOnly L s a0) : OnlyO L s (execAuthEnd a0) := by
  (simp only [execAuthEnd, iff_self, implies_true, onlyO_next, hx, endSession_only, runKlb_only, reply0_only, h0, h1, h2, h3]; done)
theorem execSessionExpiry_only {L : List Part} {s : State} (a0 : State) (h0 : Part.cores ∈ L) (h1 : Part.klb ∈ L) (hx : changesOnly L s a0) : OnlyO L s (execSessionExpiry a0) := by
  (simp only [execSessionExpiry, onlyO_next, hx, endSession_only, h0, h1]; done)
theorem readWords_only {L : List Part} {s : State} (a0 : Nat) (a1 : Nat) (a2 : State) (h0 : Part.drawn ∈ L) (h1 : Part.epochs ∈ L) (h2 : Part.hosts ∈ L) : changesOnly L s (readWords a0 a1 a2).2 ↔ changesOnly L s a2 := by
  (fun_induction readWords a0 a1 a2 <;> (first | (simp only [iff_self]; done) | (simp only [iff_self, readReg_only, *]; done) | (simp [only_foldl, only_ite, ite_self, h0, h1, h2, readReg_only, *]; done)); done)
theorem klbRead_only {L : List Part} {s : State} (a0 : Nat) (a1 : Nat) (a2 : State) (h0 : Part.drawn ∈ L) (h1 : Part.epochs ∈ L) (h2 : Part.hosts ∈ L) : changesOnly L s (klbRead a0 a1 a2).state ↔ changesOnly L s a2 := by
  (fun_cases klbRead a0 a1 a2 <;> (simp +zetaDelta only [iff_self, readWords_only, reply0_only, h0, h1, h2]; done))
theorem execKlbRd_only {L : List Part} {s : State} (a0 : Word) (a1 : Nat) (a2 : State) (h0 : Part.out ∈ L) (h1 : Part.drawn ∈ L) (h2 : Part.epochs ∈ L) (h3 : Part.hosts ∈ L) (h4 : Part.counters ∈ L) (hx : changesOnly L s a2) : OnlyO L s (execKlbRd a0 a1 a2) := by
  (simp only [execKlbRd, ite_self, iff_self, implies_true, onlyO_ite, onlyO_next, onlyO_refused, hx, klbRead_only, runKlb_only, h0, h1, h2, h3, h4]; done)
theorem execKlbWr_only {L : List Part} {s : State} (a0 : Word) (a1 : Word) (a2 : State) (h0 : Part.out ∈ L) (h1 : Part.dtime ∈ L) (h2 : Part.clk ∈ L) (h3 : Part.epochs ∈ L) (h4 : Part.hosts ∈ L) (h5 : Part.fns ∈ L) (h6 : Part.queues ∈ L) (h7 : Part.eth ∈ L) (h8 : Part.parse ∈ L) (h9 : Part.hod ∈ L) (h10 : Part.sched ∈ L) (h11 : Part.net ∈ L) (h12 : Part.nvme ∈ L) (h13 : Part.crypt ∈ L) (h14 : Part.cores ∈ L) (h15 : Part.dram ∈ L) (h16 : Part.counters ∈ L) (h17 : Part.regs ∈ L) (hx : changesOnly L s a2) : OnlyO L s (execKlbWr a0 a1 a2) := by
  have h := execRegisterWrite_only a0 a1 a2 (by assumption) (by assumption) (by assumption) (by assumption) (by assumption) (by assumption) (by assumption) (by assumption) (by assumption) (by assumption) (by assumption) (by assumption) (by assumption) (by assumption) (by assumption) (by assumption) (by assumption) (by assumption) hx
  unfold execKlbWr
  split
  · split
    · next t e => exact (onlyO_next _ _ _).mpr ((klbAnswer_only _ _ _ (by assumption)).mpr (h t e))
    · exact onlyO_fault _ _ _
    · exact onlyO_refused _ _ _
  · simp only [onlyO_next, runKlb_only, reply0_only, iff_self, implies_true, hx, h0, h16]
theorem klbViolation_only {L : List Part} {s : State} (a0 : Bool) (a1 : Nat) (a2 : Nat) (a3 : Nat) (a4 : State) (h0 : Part.out ∈ L) (h1 : Part.owner ∈ L) (h2 : Part.rings ∈ L) (h3 : Part.hosts ∈ L) (h4 : Part.fns ∈ L) (h5 : Part.violations ∈ L) (h6 : Part.counters ∈ L) : changesOnly L s (klbViolation a0 a1 a2 a3 a4) ↔ changesOnly L s a4 := by
  (simp only [klbViolation, iff_self, hodViolation_only, h0, h1, h2, h3, h4, h5, h6]; done)
theorem klbBytes_only {L : List Part} {s : State} (a0 : Nat) (a1 : Region) (a2 : Nat) (a3 : State) (h0 : Part.drawn ∈ L) : changesOnly L s (klbBytes a0 a1 a2 a3).state ↔ changesOnly L s a3 := by
  (fun_cases klbBytes a0 a1 a2 a3 <;> (simp +zetaDelta only [iff_self, drawn1_only, h0]; done))
theorem klbMemRead_only {L : List Part} {s : State} (a0 : Nat) (a1 : Nat) (a2 : Nat) (a3 : State) (h0 : Part.out ∈ L) (h1 : Part.drawn ∈ L) (h2 : Part.owner ∈ L) (h3 : Part.rings ∈ L) (h4 : Part.hosts ∈ L) (h5 : Part.fns ∈ L) (h6 : Part.violations ∈ L) (h7 : Part.counters ∈ L) : changesOnly L s (klbMemRead a0 a1 a2 a3).state ↔ changesOnly L s a3 := by
  (fun_cases klbMemRead a0 a1 a2 a3 <;> (simp +zetaDelta only [iff_self, reply0_only, klbBytes_only, klbViolation_only, h0, h1, h2, h3, h4, h5, h6, h7]; done))
theorem klbMemWrite_only {L : List Part} {s : State} (a0 : Nat) (a1 : Nat) (a2 : List Byte) (a3 : State) (h0 : Part.out ∈ L) (h1 : Part.owner ∈ L) (h2 : Part.rings ∈ L) (h3 : Part.hosts ∈ L) (h4 : Part.fns ∈ L) (h5 : Part.hod ∈ L) (h6 : Part.cores ∈ L) (h7 : Part.dram ∈ L) (h8 : Part.violations ∈ L) (h9 : Part.counters ∈ L) : changesOnly L s (klbMemWrite a0 a1 a2 a3).state ↔ changesOnly L s a3 := by
  (fun_cases klbMemWrite a0 a1 a2 a3 <;> (simp +zetaDelta only [iff_self, writeAt_only, reply0_only, klbViolation_only, h0, h1, h2, h3, h4, h5, h6, h7, h8, h9]; done))
theorem execMrd_only {L : List Part} {s : State} (a0 : Cluster) (a1 : CoreIx) (a2 : DWord) (a3 : Nat) (a4 : State) (h0 : Part.out ∈ L) (h1 : Part.drawn ∈ L) (h2 : Part.owner ∈ L) (h3 : Part.rings ∈ L) (h4 : Part.hosts ∈ L) (h5 : Part.fns ∈ L) (h6 : Part.violations ∈ L) (h7 : Part.counters ∈ L) (hx : changesOnly L s a4) : OnlyO L s (execMrd a0 a1 a2 a3 a4) := by
  (simp only [execMrd, ite_self, iff_self, implies_true, onlyO_ite, onlyO_next, onlyO_refused, hx, runKlb_only, klbMemRead_only, h0, h1, h2, h3, h4, h5, h6, h7]; done)
theorem execMwr_only {L : List Part} {s : State} (a0 : Cluster) (a1 : CoreIx) (a2 : DWord) (a3 : List Byte) (a4 : State) (h0 : Part.out ∈ L) (h1 : Part.owner ∈ L) (h2 : Part.rings ∈ L) (h3 : Part.hosts ∈ L) (h4 : Part.fns ∈ L) (h5 : Part.hod ∈ L) (h6 : Part.cores ∈ L) (h7 : Part.dram ∈ L) (h8 : Part.violations ∈ L) (h9 : Part.counters ∈ L) (hx : changesOnly L s a4) : OnlyO L s (execMwr a0 a1 a2 a3 a4) := by
  (simp only [execMwr, ite_self, iff_self, implies_true, onlyO_ite, onlyO_next, onlyO_refused, hx, klbMemWrite_only, runKlb_only, h0, h1, h2, h3, h4, h5, h6, h7, h8, h9]; done)
theorem klbHodRead_only {L : List Part} {s : State} (a0 : Nat) (a1 : Nat) (a2 : Nat) (a3 : State) (h0 : Part.out ∈ L) (h1 : Part.drawn ∈ L) (h2 : Part.owner ∈ L) (h3 : Part.rings ∈ L) (h4 : Part.hosts ∈ L) (h5 : Part.fns ∈ L) (h6 : Part.violations ∈ L) (h7 : Part.counters ∈ L) : changesOnly L s (klbHodRead a0 a1 a2 a3).state ↔ changesOnly L s a3 := by
  (fun_cases klbHodRead a0 a1 a2 a3 <;> (simp +zetaDelta only [iff_self, reply0_only, klbBytes_only, klbViolation_only, h0, h1, h2, h3, h4, h5, h6, h7]; done))
theorem execKlbHod_only {L : List Part} {s : State} (a0 : Word) (a1 : Nat) (a2 : Nat) (a3 : State) (h0 : Part.out ∈ L) (h1 : Part.drawn ∈ L) (h2 : Part.owner ∈ L) (h3 : Part.rings ∈ L) (h4 : Part.hosts ∈ L) (h5 : Part.fns ∈ L) (h6 : Part.violations ∈ L) (h7 : Part.counters ∈ L) (hx : changesOnly L s a3) : OnlyO L s (execKlbHod a0 a1 a2 a3) := by
  (simp only [execKlbHod, ite_self, iff_self, implies_true, onlyO_ite, onlyO_next, onlyO_refused, hx, klbHodRead_only, runKlb_only, h0, h1, h2, h3, h4, h5, h6, h7]; done)
theorem execThreads_only {L : List Part} {s : State} (a0 : Cluster) (a1 : CoreIx) (a2 : State) (h0 : Part.out ∈ L) (h1 : Part.counters ∈ L) (hx : changesOnly L s a2) : OnlyO L s (execThreads a0 a1 a2) := by
  (simp only [execThreads, iff_self, implies_true, onlyO_next, hx, runKlb_only, h0, h1]; done)
theorem klbRegs_only {L : List Part} {s : State} (a0 : Nat) (a1 : Nat) (a2 : State)  : changesOnly L s (klbRegs a0 a1 a2).state ↔ changesOnly L s a2 := by
  (fun_cases klbRegs a0 a1 a2 <;> (simp +zetaDelta only [iff_self, reply0_only]; done))
theorem execRegs_only {L : List Part} {s : State} (a0 : Cluster) (a1 : CoreIx) (a2 : ThreadIx) (a3 : State) (h0 : Part.out ∈ L) (h1 : Part.counters ∈ L) (hx : changesOnly L s a3) : OnlyO L s (execRegs a0 a1 a2 a3) := by
  (simp only [execRegs, iff_self, implies_true, onlyO_next, hx, runKlb_only, klbRegs_only, h0, h1]; done)
theorem klbSetReg_only {L : List Part} {s : State} (a0 : Nat) (a1 : Nat) (a2 : Option RegNo) (a3 : Nat) (a4 : State) (h0 : Part.cores ∈ L) : changesOnly L s (klbSetReg a0 a1 a2 a3 a4).state ↔ changesOnly L s a4 := by
  (fun_cases klbSetReg a0 a1 a2 a3 a4 <;> (simp +zetaDelta only [iff_self, modThread_only, reply0_only, h0]; done))
theorem execSetreg_only {L : List Part} {s : State} (a0 : Cluster) (a1 : CoreIx) (a2 : ThreadIx) (a3 : Option RegNo) (a4 : DWord) (a5 : State) (h0 : Part.out ∈ L) (h1 : Part.cores ∈ L) (h2 : Part.counters ∈ L) (hx : changesOnly L s a5) : OnlyO L s (execSetreg a0 a1 a2 a3 a4 a5) := by
  (simp only [execSetreg, iff_self, implies_true, onlyO_next, hx, runKlb_only, klbSetReg_only, h0, h1, h2]; done)
theorem onThreads_only {L : List Part} {s : State} (a0 : Nat → Nat → State → State) (a1 : List (Nat × Nat)) (a2 : State) (hf : ∀ k n x, changesOnly L s (a0 k n x) ↔ changesOnly L s x) : changesOnly L s (onThreads a0 a1 a2).state ↔ changesOnly L s a2 :=
  only_foldl _ (fun y b => hf _ _ y) _ _
theorem execKlbHalt_only {L : List Part} {s : State} (a0 : Cluster) (a1 : Option CoreIx) (a2 : Option ThreadIx) (a3 : State) (h0 : Part.out ∈ L) (h1 : Part.cores ∈ L) (h2 : Part.counters ∈ L) (hx : changesOnly L s a3) : OnlyO L s (execKlbHalt a0 a1 a2 a3) := by
  have hm := fun k n x => haltThread_only (L := L) (s := s) k n x h1
  simp only [execKlbHalt, onlyO_next, runKlb_only, onThreads_only, hm, iff_self, implies_true, hx, h0, h2]
theorem execKlbResume_only {L : List Part} {s : State} (a0 : Cluster) (a1 : Option CoreIx) (a2 : Option ThreadIx) (a3 : State) (h0 : Part.out ∈ L) (h1 : Part.cores ∈ L) (h2 : Part.counters ∈ L) (hx : changesOnly L s a3) : OnlyO L s (execKlbResume a0 a1 a2 a3) := by
  have hm := fun k n x => resumeThread_only (L := L) (s := s) k n x h1
  simp only [execKlbResume, onlyO_next, runKlb_only, onThreads_only, hm, iff_self, implies_true, hx, h0, h2]
theorem settleMem_only {L : List Part} {s : State} (a0 : Nat) (a1 : Nat) (a2 : State) (h0 : Part.out ∈ L) (h1 : Part.owner ∈ L) (h2 : Part.rings ∈ L) (h3 : Part.hosts ∈ L) (h4 : Part.fns ∈ L) (h5 : Part.hod ∈ L) (h6 : Part.cores ∈ L) (h7 : Part.dram ∈ L) (h8 : Part.violations ∈ L) (h9 : Part.counters ∈ L) : changesOnly L s (settleMem a0 a1 a2) ↔ changesOnly L s a2 := by
  (simp only [settleMem, iff_self, drainAll_only, loadReturn_only, h0, h1, h2, h3, h4, h5, h6, h7, h8, h9]; done)
theorem stepLoop_only {L : List Part} {s : State} (ck t n : Nat) (x y : State) (h0 : Part.out ∈ L) (h1 : Part.drawn ∈ L) (h2 : Part.owner ∈ L) (h3 : Part.rings ∈ L) (h4 : Part.hosts ∈ L) (h5 : Part.fns ∈ L) (h6 : Part.hod ∈ L) (h7 : Part.cores ∈ L) (h8 : Part.dram ∈ L) (h9 : Part.violations ∈ L) (h10 : Part.counters ∈ L) (e : stepLoop ck t n x = some y) : changesOnly L s y ↔ changesOnly L s x := by
  induction n generalizing x with
  | zero => unfold stepLoop at e; injection e with e; rw [← e]; simp only [settleMem_only, h0, h2, h3, h4, h5, h6, h7, h8, h9, h10]
  | succ n ih =>
    unfold stepLoop at e
    simp only [] at e
    split at e
    · injection e with e; rw [← e]; simp only [settleMem_only, h0, h2, h3, h4, h5, h6, h7, h8, h9, h10]
    · split at e
      · contradiction
      · rw [ih _ e]; simp only [threadStep_only, settleMem_only, h0, h1, h2, h3, h4, h5, h6, h7, h8, h9, h10]
theorem stepThread_only {L : List Part} {s : State} (ck t n : Nat) (x y : State) (h0 : Part.out ∈ L) (h1 : Part.drawn ∈ L) (h2 : Part.owner ∈ L) (h3 : Part.rings ∈ L) (h4 : Part.hosts ∈ L) (h5 : Part.fns ∈ L) (h6 : Part.hod ∈ L) (h7 : Part.cores ∈ L) (h8 : Part.dram ∈ L) (h9 : Part.violations ∈ L) (h10 : Part.counters ∈ L) (e : stepThread ck t n x = some y) : changesOnly L s y ↔ changesOnly L s x := by
  unfold stepThread at e
  obtain ⟨z, hz, e⟩ := Option.map_eq_some_iff.mp e
  rw [← e, haltThread_only _ _ _ h7, stepLoop_only _ _ _ _ _ h0 h1 h2 h3 h4 h5 h6 h7 h8 h9 h10 hz, resumeThread_only _ _ _ h7]
theorem execStep_only {L : List Part} {s : State} (a0 : Cluster) (a1 : CoreIx) (a2 : ThreadIx) (a3 : Nat) (a4 : State) (h0 : Part.out ∈ L) (h1 : Part.drawn ∈ L) (h2 : Part.owner ∈ L) (h3 : Part.rings ∈ L) (h4 : Part.hosts ∈ L) (h5 : Part.fns ∈ L) (h6 : Part.hod ∈ L) (h7 : Part.cores ∈ L) (h8 : Part.dram ∈ L) (h9 : Part.violations ∈ L) (h10 : Part.counters ∈ L) (hx : changesOnly L s a4) : OnlyO L s (execStep a0 a1 a2 a3 a4) := by
  unfold execStep
  simp only []
  split
  · split
    · exact onlyO_refused _ _ _
    · next y e => exact (onlyO_next _ _ _).mpr ((klbAnswer_only _ _ _ (by assumption)).mpr ((stepThread_only _ _ _ _ _ h0 h1 h2 h3 h4 h5 h6 h7 h8 h9 h10 e).mpr hx))
  · simp only [onlyO_next, runKlb_only, reply0_only, iff_self, implies_true, hx, h0, h10]
theorem execKill_only {L : List Part} {s : State} (a0 : Cluster) (a1 : CoreIx) (a2 : ThreadIx) (a3 : State) (h0 : Part.out ∈ L) (h1 : Part.hod ∈ L) (h2 : Part.cores ∈ L) (h3 : Part.dram ∈ L) (h4 : Part.counters ∈ L) (hx : changesOnly L s a3) : OnlyO L s (execKill a0 a1 a2 a3) := by
  (simp only [execKill, iff_self, implies_true, onlyO_next, hx, killThread_only, runKlb_only, reply0_only, h0, h1, h2, h3, h4]; done)
theorem setBp_only {L : List Part} {s : State} (a0 : Nat) (a1 : Nat) (a2 : State) (h0 : Part.hod ∈ L) (h1 : Part.cores ∈ L) (h2 : Part.dram ∈ L) : changesOnly L s (setBp a0 a1 a2).state ↔ changesOnly L s a2 := by
  (fun_cases setBp a0 a1 a2 <;> (simp +zetaDelta only [iff_self, writeAt_only, reply0_only, modCore_only, h0, h1, h2]; done))
theorem clearBp_only {L : List Part} {s : State} (a0 : Nat) (a1 : Nat) (a2 : State) (h0 : Part.cores ∈ L) : changesOnly L s (clearBp a0 a1 a2).state ↔ changesOnly L s a2 := by
  (fun_cases clearBp a0 a1 a2 <;> (simp +zetaDelta only [iff_self, restoreBp_only, reply0_only, modCore_only, h0]; done))
theorem execBpSet_only {L : List Part} {s : State} (a0 : Cluster) (a1 : CoreIx) (a2 : DWord) (a3 : State) (h0 : Part.out ∈ L) (h1 : Part.hod ∈ L) (h2 : Part.cores ∈ L) (h3 : Part.dram ∈ L) (h4 : Part.counters ∈ L) (hx : changesOnly L s a3) : OnlyO L s (execBpSet a0 a1 a2 a3) := by
  (simp only [execBpSet, iff_self, implies_true, onlyO_next, hx, setBp_only, runKlb_only, h0, h1, h2, h3, h4]; done)
theorem execBpClr_only {L : List Part} {s : State} (a0 : Cluster) (a1 : CoreIx) (a2 : DWord) (a3 : State) (h0 : Part.out ∈ L) (h1 : Part.cores ∈ L) (h2 : Part.counters ∈ L) (hx : changesOnly L s a3) : OnlyO L s (execBpClr a0 a1 a2 a3) := by
  (simp only [execBpClr, iff_self, implies_true, onlyO_next, hx, clearBp_only, runKlb_only, h0, h1, h2]; done)
theorem execBpOn_only {L : List Part} {s : State} (a0 : State) (h0 : Part.out ∈ L) (h1 : Part.cores ∈ L) (h2 : Part.counters ∈ L) (hx : changesOnly L s a0) : OnlyO L s (execBpOn a0) := by
  (simp only [execBpOn, iff_self, implies_true, onlyO_next, hx, modCores_only, runKlb_only, reply0_only, h0, h1, h2]; done)
theorem execBpOff_only {L : List Part} {s : State} (a0 : State) (h0 : Part.out ∈ L) (h1 : Part.cores ∈ L) (h2 : Part.counters ∈ L) (hx : changesOnly L s a0) : OnlyO L s (execBpOff a0) := by
  (simp only [execBpOff, iff_self, implies_true, onlyO_next, hx, modCores_only, runKlb_only, reply0_only, h0, h1, h2]; done)
theorem execKeys_only {L : List Part} {s : State} (a0 : State) (h0 : Part.out ∈ L) (h1 : Part.counters ∈ L) (hx : changesOnly L s a0) : OnlyO L s (execKeys a0) := by
  (simp only [execKeys, iff_self, implies_true, onlyO_next, hx, runKlb_only, h0, h1]; done)
theorem imgReply_only {L : List Part} {s : State} (a0 : State → State) (a1 : State) (ga0 : ∀ x, changesOnly L s (a0 x) ↔ changesOnly L s x) (h0 : Part.sec ∈ L) : changesOnly L s (imgReply a0 a1).state ↔ changesOnly L s a1 := by
  (simp only [imgReply, iff_self, modRec_only, ga0, h0]; done)
theorem imgData_only {L : List Part} {s : State} (a0 : List Byte) (a1 : State) (h0 : Part.sec ∈ L) : changesOnly L s (imgData a0 a1).state ↔ changesOnly L s a1 := by
  (fun_cases imgData a0 a1 <;> (simp +zetaDelta only [iff_self, implies_true, imgReply_only, reply0_only, modRec_only, h0]; done))
theorem execImgOffset_only {L : List Part} {s : State} (a0 : Nat) (a1 : State) (h0 : Part.out ∈ L) (h1 : Part.sec ∈ L) (h2 : Part.counters ∈ L) (hx : changesOnly L s a1) : OnlyO L s (execImgOffset a0 a1) := by
  have hm := fun f x => modRec_only (L := L) (s := s) monitorRec f x h1
  simp only [execImgOffset, onlyO_next, runKlb_only, imgReply_only, hm, iff_self, implies_true, hx, h0, h1, h2]
theorem execImgData_only {L : List Part} {s : State} (a0 : List Byte) (a1 : State) (h0 : Part.out ∈ L) (h1 : Part.sec ∈ L) (h2 : Part.counters ∈ L) (hx : changesOnly L s a1) : OnlyO L s (execImgData a0 a1) := by
  (simp only [execImgData, iff_self, implies_true, onlyO_next, hx, imgData_only, runKlb_only, h0, h1, h2]; done)
theorem execImgCommit_only {L : List Part} {s : State} (a0 : State) (h0 : Part.out ∈ L) (h1 : Part.hosts ∈ L) (h2 : Part.sec ∈ L) (h3 : Part.counters ∈ L) (hx : changesOnly L s a0) : OnlyO L s (execImgCommit a0) := by
  have hm := fun x => recCommit_only (L := L) (s := s) monitorRec x h0 h1 h2
  simp only [execImgCommit, onlyO_next, runKlb_only, imgReply_only, hm, iff_self, implies_true, hx, h0, h2, h3]
theorem execImgInstall_only {L : List Part} {s : State} (a0 : Fin 2) (a1 : State) (h0 : Part.out ∈ L) (h1 : Part.hosts ∈ L) (h2 : Part.sec ∈ L) (h3 : Part.counters ∈ L) (hx : changesOnly L s a1) : OnlyO L s (execImgInstall a0 a1) := by
  have hm := fun x => recInstall_only (L := L) (s := s) monitorRec a0.val x h0 h1 h2
  simp only [execImgInstall, onlyO_next, runKlb_only, imgReply_only, hm, iff_self, implies_true, hx, h0, h2, h3]
theorem execImgAbort_only {L : List Part} {s : State} (a0 : State) (h0 : Part.out ∈ L) (h1 : Part.drawn ∈ L) (h2 : Part.hosts ∈ L) (h3 : Part.sec ∈ L) (h4 : Part.counters ∈ L) (hx : changesOnly L s a0) : OnlyO L s (execImgAbort a0) := by
  have hm := fun x => recAbort_only (L := L) (s := s) monitorRec x h0 h1 h2 h3
  simp only [execImgAbort, onlyO_next, runKlb_only, imgReply_only, hm, iff_self, implies_true, hx, h0, h3, h4]
theorem unfence_only {L : List Part} {s : State} (a0 : Chan) (a1 : State) (h0 : Part.pending ∈ L) (h1 : Part.fenced ∈ L) : changesOnly L s (unfence a0 a1) ↔ changesOnly L s a1 := by
  (simp only [unfence, iff_self, h0, h1, only_pending_fenced]; done)
theorem tick_only {L : List Part} {s : State} (a0 : State) (h0 : Part.now ∈ L) (h1 : Part.dtime ∈ L) : changesOnly L s (tick a0) ↔ changesOnly L s a0 := by
  (simp only [tick, iff_self, only_ite, ite_self, h0, h1, only_now_dtime]; done)
theorem idle_only {L : List Part} {s : State} (a0 : State) (h0 : Part.pending ∈ L) (h1 : Part.fenced ∈ L) (h2 : Part.now ∈ L) (h3 : Part.dtime ∈ L) : changesOnly L s (idle a0) ↔ changesOnly L s a0 := by
  (fun_cases idle a0 <;> (simp +zetaDelta only [iff_self, unfence_only, tick_only, h0, h1, h2, h3]; done))

end Sys2Proof.Machine
end

