-- ==== Sys2Proof/Laws/Frame.lean ====
section
/-! SUPPORT. Frame.lean: one lemma for each command: what it may change is what Safety.lean lists for it. -/

set_option linter.all false

namespace Sys2Proof.Machine
open Sys2Proof

/-- A part that the list names, found by evaluation. -/
theorem listed {p : Part} {l : List Part} (h : l.elem p = true) : p ∈ l := List.mem_of_elem_eq_true h
theorem frame_powerOn (s y : State) (eq : exec .powerOn s = .next y) : changesOnly (partsOf .powerOn) s y :=
  execPowerOn_only s (listed rfl) (listed rfl) (listed rfl) (listed rfl) (listed rfl) (listed rfl) (listed rfl) (listed rfl) (listed rfl) (listed rfl) (listed rfl) (listed rfl) (listed rfl) (listed rfl) (listed rfl) (listed rfl) (listed rfl) (listed rfl) (listed rfl) (listed rfl) (listed rfl) (listed rfl) (listed rfl) (listed rfl) (listed rfl) (listed rfl) (listed rfl) (listed rfl) (listed rfl) (listed rfl) (listed rfl) (listed rfl) (listed rfl) (listed rfl) (listed rfl) (listed rfl) (listed rfl) (changesOnly_refl _ _) y eq
theorem frame_devRstNAssert (s y : State) (pulseNs : Nat) (eq : exec (.devRstNAssert pulseNs) s = .next y) : changesOnly (partsOf (.devRstNAssert pulseNs)) s y :=
  execDevRstNAssert_only pulseNs s (listed rfl) (listed rfl) (listed rfl) (listed rfl) (listed rfl) (listed rfl) (listed rfl) (listed rfl) (listed rfl) (listed rfl) (listed rfl) (listed rfl) (listed rfl) (listed rfl) (listed rfl) (listed rfl) (listed rfl) (listed rfl) (listed rfl) (listed rfl) (listed rfl) (listed rfl) (listed rfl) (listed rfl) (listed rfl) (listed rfl) (listed rfl) (listed rfl) (listed rfl) (listed rfl) (listed rfl) (listed rfl) (listed rfl) (listed rfl) (listed rfl) (listed rfl) (listed rfl) (changesOnly_refl _ _) y eq
theorem frame_devRstNRelease (s y : State) (straps : BitVec 4) (eq : exec (.devRstNRelease straps) s = .next y) : changesOnly (partsOf (.devRstNRelease straps)) s y :=
  execDevRstNRelease_only straps s (listed rfl) (changesOnly_refl _ _) y eq
theorem frame_rootPllLock (s y : State) (eq : exec .rootPllLock s = .next y) : changesOnly (partsOf .rootPllLock) s y :=
  execRootPllLock_only s (listed rfl) (listed rfl) (changesOnly_refl _ _) y eq
theorem frame_coreRefLost (s y : State) (eq : exec .coreRefLost s = .next y) : changesOnly (partsOf .coreRefLost) s y :=
  execCoreRefLost_only s (listed rfl) (listed rfl) (listed rfl) (changesOnly_refl _ _) y eq
theorem frame_coreRefReturned (s y : State) (eq : exec .coreRefReturned s = .next y) : changesOnly (partsOf .coreRefReturned) s y :=
  execCoreRefReturned_only s (listed rfl) (listed rfl) (listed rfl) (changesOnly_refl _ _) y eq
theorem frame_holdoverExpiry (s y : State) (eq : exec .holdoverExpiry s = .next y) : changesOnly (partsOf .holdoverExpiry) s y :=
  execHoldoverExpiry_only s (listed rfl) (listed rfl) (listed rfl) (listed rfl) (listed rfl) (listed rfl) (listed rfl) (listed rfl) (listed rfl) (listed rfl) (listed rfl) (listed rfl) (listed rfl) (listed rfl) (listed rfl) (listed rfl) (listed rfl) (listed rfl) (listed rfl) (listed rfl) (listed rfl) (listed rfl) (listed rfl) (listed rfl) (listed rfl) (listed rfl) (listed rfl) (listed rfl) (listed rfl) (listed rfl) (listed rfl) (listed rfl) (listed rfl) (listed rfl) (listed rfl) (listed rfl) (listed rfl) (changesOnly_refl _ _) y eq
theorem frame_ethRefLost (s y : State) (eq : exec .ethRefLost s = .next y) : changesOnly (partsOf .ethRefLost) s y :=
  execEthRefLost_only s (listed rfl) (listed rfl) (listed rfl) (listed rfl) (listed rfl) (changesOnly_refl _ _) y eq
theorem frame_ethRefReturned (s y : State) (eq : exec .ethRefReturned s = .next y) : changesOnly (partsOf .ethRefReturned) s y :=
  execEthRefReturned_only s (listed rfl) (listed rfl) (listed rfl) (changesOnly_refl _ _) y eq
theorem frame_hostRefLost (s y : State) (h : HostId) (eq : exec (.hostRefLost h) s = .next y) : changesOnly (partsOf (.hostRefLost h)) s y :=
  execHostRefLost_only h s (listed rfl) (listed rfl) (listed rfl) (listed rfl) (listed rfl) (listed rfl) (listed rfl) (listed rfl) (listed rfl) (listed rfl) (listed rfl) (listed rfl) (listed rfl) (listed rfl) (listed rfl) (listed rfl) (listed rfl) (listed rfl) (listed rfl) (listed rfl) (listed rfl) (listed rfl) (changesOnly_refl _ _) y eq
theorem frame_hostRefReturned (s y : State) (h : HostId) (eq : exec (.hostRefReturned h) s = .next y) : changesOnly (partsOf (.hostRefReturned h)) s y :=
  execHostRefReturned_only h s (listed rfl) (listed rfl) (listed rfl) (changesOnly_refl _ _) y eq
theorem frame_romStage (s y : State) (eq : exec .romStage s = .next y) : changesOnly (partsOf .romStage) s y :=
  execRomStage_only s (listed rfl) (listed rfl) (listed rfl) (listed rfl) (listed rfl) (listed rfl) (listed rfl) (listed rfl) (listed rfl) (listed rfl) (listed rfl) (listed rfl) (listed rfl) (listed rfl) (listed rfl) (listed rfl) (listed rfl) (listed rfl) (listed rfl) (listed rfl) (listed rfl) (changesOnly_refl _ _) y eq
theorem frame_loaderStage (s y : State) (found : BootFindings) (eq : exec (.loaderStage found) s = .next y) : changesOnly (partsOf (.loaderStage found)) s y :=
  execLoaderStage_only found s (listed rfl) (listed rfl) (listed rfl) (listed rfl) (listed rfl) (listed rfl) (listed rfl) (listed rfl) (listed rfl) (listed rfl) (listed rfl) (listed rfl) (listed rfl) (listed rfl) (listed rfl) (listed rfl) (listed rfl) (listed rfl) (listed rfl) (listed rfl) (listed rfl) (listed rfl) (listed rfl) (listed rfl) (listed rfl) (listed rfl) (listed rfl) (listed rfl) (listed rfl) (listed rfl) (listed rfl) (listed rfl) (listed rfl) (listed rfl) (listed rfl) (listed rfl) (listed rfl) (changesOnly_refl _ _) y eq
theorem frame_mgmtFwStage (s y : State) (eq : exec .mgmtFwStage s = .next y) : changesOnly (partsOf .mgmtFwStage) s y :=
  execMgmtFwStage_only s (listed rfl) (listed rfl) (listed rfl) (listed rfl) (listed rfl) (listed rfl) (listed rfl) (listed rfl) (listed rfl) (listed rfl) (listed rfl) (listed rfl) (listed rfl) (listed rfl) (listed rfl) (listed rfl) (listed rfl) (listed rfl) (listed rfl) (listed rfl) (listed rfl) (listed rfl) (listed rfl) (listed rfl) (listed rfl) (listed rfl) (listed rfl) (listed rfl) (listed rfl) (listed rfl) (listed rfl) (listed rfl) (listed rfl) (listed rfl) (listed rfl) (listed rfl) (listed rfl) (changesOnly_refl _ _) y eq
theorem frame_bootDone (s y : State) (eq : exec .bootDone s = .next y) : changesOnly (partsOf .bootDone) s y :=
  execBootDone_only s (listed rfl) (listed rfl) (listed rfl) (listed rfl) (listed rfl) (listed rfl) (listed rfl) (listed rfl) (listed rfl) (listed rfl) (listed rfl) (listed rfl) (listed rfl) (listed rfl) (listed rfl) (listed rfl) (listed rfl) (listed rfl) (changesOnly_refl _ _) y eq
theorem frame_epochBoundary (s y : State) (eq : exec .epochBoundary s = .next y) : changesOnly (partsOf .epochBoundary) s y :=
  execEpochBoundary_only s (listed rfl) (listed rfl) (listed rfl) (listed rfl) (listed rfl) (listed rfl) (listed rfl) (listed rfl) (listed rfl) (listed rfl) (listed rfl) (listed rfl) (listed rfl) (listed rfl) (listed rfl) (listed rfl) (listed rfl) (listed rfl) (listed rfl) (listed rfl) (listed rfl) (listed rfl) (listed rfl) (changesOnly_refl _ _) y eq
theorem frame_armCutoff (s y : State) (eq : exec .armCutoff s = .next y) : changesOnly (partsOf .armCutoff) s y :=
  execArmCutoff_only s (listed rfl) (changesOnly_refl _ _) y eq
theorem frame_graceEnd (s y : State) (u : RUnit) (eq : exec (.graceEnd u) s = .next y) : changesOnly (partsOf (.graceEnd u)) s y :=
  execGraceEnd_only u s (listed rfl) (listed rfl) (listed rfl) (listed rfl) (listed rfl) (listed rfl) (listed rfl) (listed rfl) (changesOnly_refl _ _) y eq
theorem frame_reloadComplete (s y : State) (u : RUnit) (eq : exec (.reloadComplete u) s = .next y) : changesOnly (partsOf (.reloadComplete u)) s y :=
  execReloadComplete_only u s (listed rfl) (listed rfl) (listed rfl) (listed rfl) (listed rfl) (listed rfl) (listed rfl) (listed rfl) (listed rfl) (listed rfl) (listed rfl) (changesOnly_refl _ _) y eq
theorem frame_glbRecoatArmWrite (s y : State) (v : Word) (eq : exec (.glbRecoatArmWrite v) s = .next y) : changesOnly (partsOf (.glbRecoatArmWrite v)) s y :=
  execGlbRecoatArmWrite_only v s (listed rfl) (changesOnly_refl _ _) y eq
theorem frame_stagedRegisterWrite (s y : State) (addr : Word) (v : Word) (eq : exec (.stagedRegisterWrite addr v) s = .next y) : changesOnly (partsOf (.stagedRegisterWrite addr v)) s y :=
  execStagedRegisterWrite_only addr v s (listed rfl) (listed rfl) (changesOnly_refl _ _) y eq
theorem frame_glbEpochLenWrite (s y : State) (v : Word) (eq : exec (.glbEpochLenWrite v) s = .next y) : changesOnly (partsOf (.glbEpochLenWrite v)) s y :=
  execGlbEpochLenWrite_only v s (listed rfl) (changesOnly_refl _ _) y eq
theorem frame_lowWordRead (s y : State) (addr : Word) (eq : exec (.lowWordRead addr) s = .next y) : changesOnly (partsOf (.lowWordRead addr)) s y :=
  execLowWordRead_only addr s (listed rfl) (listed rfl) (listed rfl) (listed rfl) (changesOnly_refl _ _) y eq
theorem frame_readClearRegisterRead (s y : State) (addr : Word) (eq : exec (.readClearRegisterRead addr) s = .next y) : changesOnly (partsOf (.readClearRegisterRead addr)) s y :=
  execReadClearRegisterRead_only addr s (listed rfl) (listed rfl) (listed rfl) (listed rfl) (changesOnly_refl _ _) y eq
theorem frame_registerWrite (s y : State) (addr : Word) (v : Word) (eq : exec (.registerWrite addr v) s = .next y) : changesOnly (partsOf (.registerWrite addr v)) s y :=
  execRegisterWrite_only addr v s (listed rfl) (listed rfl) (listed rfl) (listed rfl) (listed rfl) (listed rfl) (listed rfl) (listed rfl) (listed rfl) (listed rfl) (listed rfl) (listed rfl) (listed rfl) (listed rfl) (listed rfl) (listed rfl) (listed rfl) (listed rfl) (changesOnly_refl _ _) y eq
theorem frame_unitFailureInService (s y : State) (kind : Byte) (unit : BitVec 24) (eq : exec (.unitFailureInService kind unit) s = .next y) : changesOnly (partsOf (.unitFailureInService kind unit)) s y :=
  execUnitFailureInService_only kind unit s (listed rfl) (listed rfl) (listed rfl) (listed rfl) (listed rfl) (listed rfl) (listed rfl) (listed rfl) (listed rfl) (listed rfl) (listed rfl) (listed rfl) (listed rfl) (listed rfl) (listed rfl) (listed rfl) (listed rfl) (listed rfl) (listed rfl) (listed rfl) (listed rfl) (listed rfl) (listed rfl) (listed rfl) (listed rfl) (listed rfl) (listed rfl) (changesOnly_refl _ _) y eq
theorem frame_drainComplete (s y : State) (eq : exec .drainComplete s = .next y) : changesOnly (partsOf .drainComplete) s y :=
  execDrainComplete_only s (listed rfl) (listed rfl) (changesOnly_refl _ _) y eq
theorem frame_deviceInfo (s y : State) (p : Packet) (eq : exec (.deviceInfo p) s = .next y) : changesOnly (partsOf (.deviceInfo p)) s y :=
  execDeviceInfo_only p s (listed rfl) (listed rfl) (listed rfl) (listed rfl) (listed rfl) (listed rfl) (changesOnly_refl _ _) y eq
theorem frame_modeGet (s y : State) (p : Packet) (eq : exec (.modeGet p) s = .next y) : changesOnly (partsOf (.modeGet p)) s y :=
  execModeGet_only p s (listed rfl) (listed rfl) (listed rfl) (listed rfl) (listed rfl) (listed rfl) (changesOnly_refl _ _) y eq
theorem frame_quiesce (s y : State) (p : Packet) (eq : exec (.quiesce p) s = .next y) : changesOnly (partsOf (.quiesce p)) s y :=
  execQuiesce_only p s (listed rfl) (listed rfl) (listed rfl) (listed rfl) (listed rfl) (listed rfl) (listed rfl) (listed rfl) (changesOnly_refl _ _) y eq
theorem frame_resume (s y : State) (p : Packet) (eq : exec (.resume p) s = .next y) : changesOnly (partsOf (.resume p)) s y :=
  execResume_only p s (listed rfl) (listed rfl) (listed rfl) (listed rfl) (listed rfl) (listed rfl) (listed rfl) (listed rfl) (changesOnly_refl _ _) y eq
theorem frame_park (s y : State) (p : Packet) (eq : exec (.park p) s = .next y) : changesOnly (partsOf (.park p)) s y :=
  execPark_only p s (listed rfl) (listed rfl) (listed rfl) (listed rfl) (listed rfl) (listed rfl) (listed rfl) (changesOnly_refl _ _) y eq
theorem frame_maintain (s y : State) (p : Packet) (eq : exec (.maintain p) s = .next y) : changesOnly (partsOf (.maintain p)) s y :=
  execMaintain_only p s (listed rfl) (listed rfl) (listed rfl) (listed rfl) (listed rfl) (listed rfl) (listed rfl) (listed rfl) (changesOnly_refl _ _) y eq
theorem frame_deviceReset (s y : State) (p : Packet) (eq : exec (.deviceReset p) s = .next y) : changesOnly (partsOf (.deviceReset p)) s y :=
  execDeviceReset_only p s (listed rfl) (listed rfl) (listed rfl) (listed rfl) (listed rfl) (listed rfl) (listed rfl) (listed rfl) (listed rfl) (listed rfl) (listed rfl) (listed rfl) (listed rfl) (listed rfl) (listed rfl) (listed rfl) (listed rfl) (listed rfl) (listed rfl) (listed rfl) (listed rfl) (listed rfl) (listed rfl) (listed rfl) (listed rfl) (listed rfl) (listed rfl) (listed rfl) (listed rfl) (listed rfl) (listed rfl) (listed rfl) (listed rfl) (listed rfl) (listed rfl) (listed rfl) (listed rfl) (changesOnly_refl _ _) y eq
theorem frame_maintOnNextBoot (s y : State) (p : Packet) (eq : exec (.maintOnNextBoot p) s = .next y) : changesOnly (partsOf (.maintOnNextBoot p)) s y :=
  execMaintOnNextBoot_only p s (listed rfl) (listed rfl) (listed rfl) (listed rfl) (listed rfl) (listed rfl) (listed rfl) (changesOnly_refl _ _) y eq
theorem frame_degradationRead (s y : State) (p : Packet) (eq : exec (.degradationRead p) s = .next y) : changesOnly (partsOf (.degradationRead p)) s y :=
  execDegradationRead_only p s (listed rfl) (listed rfl) (listed rfl) (listed rfl) (listed rfl) (listed rfl) (changesOnly_refl _ _) y eq
theorem frame_ownerPathSet (s y : State) (p : Packet) (eq : exec (.ownerPathSet p) s = .next y) : changesOnly (partsOf (.ownerPathSet p)) s y :=
  execOwnerPathSet_only p s (listed rfl) (listed rfl) (listed rfl) (listed rfl) (listed rfl) (listed rfl) (listed rfl) (changesOnly_refl _ _) y eq
theorem frame_epochGet (s y : State) (p : Packet) (eq : exec (.epochGet p) s = .next y) : changesOnly (partsOf (.epochGet p)) s y :=
  execEpochGet_only p s (listed rfl) (listed rfl) (listed rfl) (listed rfl) (listed rfl) (listed rfl) (changesOnly_refl _ _) y eq
theorem frame_epochSetLength (s y : State) (p : Packet) (eq : exec (.epochSetLength p) s = .next y) : changesOnly (partsOf (.epochSetLength p)) s y :=
  execEpochSetLength_only p s (listed rfl) (listed rfl) (listed rfl) (listed rfl) (listed rfl) (listed rfl) (listed rfl) (changesOnly_refl _ _) y eq
theorem frame_recoatArm (s y : State) (p : Packet) (eq : exec (.recoatArm p) s = .next y) : changesOnly (partsOf (.recoatArm p)) s y :=
  execRecoatArm_only p s (listed rfl) (listed rfl) (listed rfl) (listed rfl) (listed rfl) (listed rfl) (listed rfl) (listed rfl) (listed rfl) (changesOnly_refl _ _) y eq
theorem frame_recoatDisarm (s y : State) (p : Packet) (eq : exec (.recoatDisarm p) s = .next y) : changesOnly (partsOf (.recoatDisarm p)) s y :=
  execRecoatDisarm_only p s (listed rfl) (listed rfl) (listed rfl) (listed rfl) (listed rfl) (listed rfl) (listed rfl) (listed rfl) (changesOnly_refl _ _) y eq
theorem frame_undercoatReset (s y : State) (p : Packet) (eq : exec (.undercoatReset p) s = .next y) : changesOnly (partsOf (.undercoatReset p)) s y :=
  execUndercoatReset_only p s (listed rfl) (listed rfl) (listed rfl) (listed rfl) (listed rfl) (listed rfl) (listed rfl) (listed rfl) (listed rfl) (listed rfl) (listed rfl) (listed rfl) (listed rfl) (changesOnly_refl _ _) y eq
theorem frame_epochWait (s y : State) (p : Packet) (eq : exec (.epochWait p) s = .next y) : changesOnly (partsOf (.epochWait p)) s y :=
  execEpochWait_only p s (listed rfl) (listed rfl) (listed rfl) (listed rfl) (listed rfl) (listed rfl) (listed rfl) (listed rfl) (changesOnly_refl _ _) y eq
theorem frame_opQuery (s y : State) (p : Packet) (eq : exec (.opQuery p) s = .next y) : changesOnly (partsOf (.opQuery p)) s y :=
  execOpQuery_only p s (listed rfl) (listed rfl) (listed rfl) (listed rfl) (listed rfl) (listed rfl) (changesOnly_refl _ _) y eq
theorem frame_opCancel (s y : State) (p : Packet) (eq : exec (.opCancel p) s = .next y) : changesOnly (partsOf (.opCancel p)) s y :=
  execOpCancel_only p s (listed rfl) (listed rfl) (listed rfl) (listed rfl) (listed rfl) (listed rfl) (listed rfl) (listed rfl) (listed rfl) (listed rfl) (changesOnly_refl _ _) y eq
theorem frame_longOpStep (s y : State) (handle : Word) (res : StepResult) (eq : exec (.longOpStep handle res) s = .next y) : changesOnly (partsOf (.longOpStep handle res)) s y :=
  execLongOpStep_only handle res s (listed rfl) (listed rfl) (listed rfl) (listed rfl) (listed rfl) (listed rfl) (listed rfl) (listed rfl) (listed rfl) (listed rfl) (listed rfl) (listed rfl) (listed rfl) (listed rfl) (listed rfl) (listed rfl) (listed rfl) (listed rfl) (listed rfl) (listed rfl) (listed rfl) (listed rfl) (listed rfl) (listed rfl) (listed rfl) (listed rfl) (listed rfl) (listed rfl) (listed rfl) (changesOnly_refl _ _) y eq
theorem frame_quotaSet (s y : State) (p : Packet) (eq : exec (.quotaSet p) s = .next y) : changesOnly (partsOf (.quotaSet p)) s y :=
  execQuotaSet_only p s (listed rfl) (listed rfl) (listed rfl) (listed rfl) (listed rfl) (listed rfl) (listed rfl) (changesOnly_refl _ _) y eq
theorem frame_quotaGet (s y : State) (p : Packet) (eq : exec (.quotaGet p) s = .next y) : changesOnly (partsOf (.quotaGet p)) s y :=
  execQuotaGet_only p s (listed rfl) (listed rfl) (listed rfl) (listed rfl) (listed rfl) (listed rfl) (changesOnly_refl _ _) y eq
theorem frame_vfQuotaSet (s y : State) (p : Packet) (eq : exec (.vfQuotaSet p) s = .next y) : changesOnly (partsOf (.vfQuotaSet p)) s y :=
  execVfQuotaSet_only p s (listed rfl) (listed rfl) (listed rfl) (listed rfl) (listed rfl) (listed rfl) (listed rfl) (changesOnly_refl _ _) y eq
theorem frame_hostDefaultsSet (s y : State) (p : Packet) (eq : exec (.hostDefaultsSet p) s = .next y) : changesOnly (partsOf (.hostDefaultsSet p)) s y :=
  execHostDefaultsSet_only p s (listed rfl) (listed rfl) (listed rfl) (listed rfl) (listed rfl) (listed rfl) (listed rfl) (changesOnly_refl _ _) y eq
theorem frame_dramCarveSet (s y : State) (p : Packet) (eq : exec (.dramCarveSet p) s = .next y) : changesOnly (partsOf (.dramCarveSet p)) s y :=
  execDramCarveSet_only p s (listed rfl) (listed rfl) (listed rfl) (listed rfl) (listed rfl) (listed rfl) (listed rfl) (listed rfl) (listed rfl) (changesOnly_refl _ _) y eq
theorem frame_resourceUsage (s y : State) (p : Packet) (eq : exec (.resourceUsage p) s = .next y) : changesOnly (partsOf (.resourceUsage p)) s y :=
  execResourceUsage_only p s (listed rfl) (listed rfl) (listed rfl) (listed rfl) (listed rfl) (listed rfl) (changesOnly_refl _ _) y eq
theorem frame_hostVfLimit (s y : State) (p : Packet) (eq : exec (.hostVfLimit p) s = .next y) : changesOnly (partsOf (.hostVfLimit p)) s y :=
  execHostVfLimit_only p s (listed rfl) (listed rfl) (listed rfl) (listed rfl) (listed rfl) (listed rfl) (changesOnly_refl _ _) y eq
theorem frame_parseNodeWrite (s y : State) (p : Packet) (eq : exec (.parseNodeWrite p) s = .next y) : changesOnly (partsOf (.parseNodeWrite p)) s y :=
  execParseNodeWrite_only p s (listed rfl) (listed rfl) (listed rfl) (listed rfl) (listed rfl) (listed rfl) (listed rfl) (changesOnly_refl _ _) y eq
theorem frame_parseNodeRead (s y : State) (p : Packet) (eq : exec (.parseNodeRead p) s = .next y) : changesOnly (partsOf (.parseNodeRead p)) s y :=
  execParseNodeRead_only p s (listed rfl) (listed rfl) (listed rfl) (listed rfl) (listed rfl) (listed rfl) (changesOnly_refl _ _) y eq
theorem frame_parseMalformedSet (s y : State) (p : Packet) (eq : exec (.parseMalformedSet p) s = .next y) : changesOnly (partsOf (.parseMalformedSet p)) s y :=
  execParseMalformedSet_only p s (listed rfl) (listed rfl) (listed rfl) (listed rfl) (listed rfl) (listed rfl) (listed rfl) (changesOnly_refl _ _) y eq
theorem frame_classRuleWrite (s y : State) (p : Packet) (eq : exec (.classRuleWrite p) s = .next y) : changesOnly (partsOf (.classRuleWrite p)) s y :=
  execClassRuleWrite_only p s (listed rfl) (listed rfl) (listed rfl) (listed rfl) (listed rfl) (listed rfl) (listed rfl) (changesOnly_refl _ _) y eq
theorem frame_classRuleRead (s y : State) (p : Packet) (eq : exec (.classRuleRead p) s = .next y) : changesOnly (partsOf (.classRuleRead p)) s y :=
  execClassRuleRead_only p s (listed rfl) (listed rfl) (listed rfl) (listed rfl) (listed rfl) (listed rfl) (changesOnly_refl _ _) y eq
theorem frame_classProfileSet (s y : State) (p : Packet) (eq : exec (.classProfileSet p) s = .next y) : changesOnly (partsOf (.classProfileSet p)) s y :=
  execClassProfileSet_only p s (listed rfl) (listed rfl) (listed rfl) (listed rfl) (listed rfl) (listed rfl) (listed rfl) (changesOnly_refl _ _) y eq
theorem frame_classActionWrite (s y : State) (p : Packet) (eq : exec (.classActionWrite p) s = .next y) : changesOnly (partsOf (.classActionWrite p)) s y :=
  execClassActionWrite_only p s (listed rfl) (listed rfl) (listed rfl) (listed rfl) (listed rfl) (listed rfl) (listed rfl) (changesOnly_refl _ _) y eq
theorem frame_emInsert (s y : State) (p : Packet) (eq : exec (.emInsert p) s = .next y) : changesOnly (partsOf (.emInsert p)) s y :=
  execEmInsert_only p s (listed rfl) (listed rfl) (listed rfl) (listed rfl) (listed rfl) (listed rfl) (listed rfl) (changesOnly_refl _ _) y eq
theorem frame_emUpdate (s y : State) (p : Packet) (eq : exec (.emUpdate p) s = .next y) : changesOnly (partsOf (.emUpdate p)) s y :=
  execEmUpdate_only p s (listed rfl) (listed rfl) (listed rfl) (listed rfl) (listed rfl) (listed rfl) (listed rfl) (changesOnly_refl _ _) y eq
theorem frame_emDelete (s y : State) (p : Packet) (eq : exec (.emDelete p) s = .next y) : changesOnly (partsOf (.emDelete p)) s y :=
  execEmDelete_only p s (listed rfl) (listed rfl) (listed rfl) (listed rfl) (listed rfl) (listed rfl) (listed rfl) (changesOnly_refl _ _) y eq
theorem frame_emLookup (s y : State) (p : Packet) (eq : exec (.emLookup p) s = .next y) : changesOnly (partsOf (.emLookup p)) s y :=
  execEmLookup_only p s (listed rfl) (listed rfl) (listed rfl) (listed rfl) (listed rfl) (listed rfl) (changesOnly_refl _ _) y eq
theorem frame_emRehash (s y : State) (p : Packet) (eq : exec (.emRehash p) s = .next y) : changesOnly (partsOf (.emRehash p)) s y :=
  execEmRehash_only p s (listed rfl) (listed rfl) (listed rfl) (listed rfl) (listed rfl) (listed rfl) (listed rfl) (listed rfl) (listed rfl) (changesOnly_refl _ _) y eq
theorem frame_lpmAdd (s y : State) (p : Packet) (eq : exec (.lpmAdd p) s = .next y) : changesOnly (partsOf (.lpmAdd p)) s y :=
  execLpmAdd_only p s (listed rfl) (listed rfl) (listed rfl) (listed rfl) (listed rfl) (listed rfl) (listed rfl) (listed rfl) (changesOnly_refl _ _) y eq
theorem frame_lpmDelete (s y : State) (p : Packet) (eq : exec (.lpmDelete p) s = .next y) : changesOnly (partsOf (.lpmDelete p)) s y :=
  execLpmDelete_only p s (listed rfl) (listed rfl) (listed rfl) (listed rfl) (listed rfl) (listed rfl) (listed rfl) (listed rfl) (changesOnly_refl _ _) y eq
theorem frame_lpmLookup (s y : State) (p : Packet) (eq : exec (.lpmLookup p) s = .next y) : changesOnly (partsOf (.lpmLookup p)) s y :=
  execLpmLookup_only p s (listed rfl) (listed rfl) (listed rfl) (listed rfl) (listed rfl) (listed rfl) (changesOnly_refl _ _) y eq
theorem frame_lpmLeafPush (s y : State) (p : Packet) (eq : exec (.lpmLeafPush p) s = .next y) : changesOnly (partsOf (.lpmLeafPush p)) s y :=
  execLpmLeafPush_only p s (listed rfl) (listed rfl) (listed rfl) (listed rfl) (listed rfl) (listed rfl) (listed rfl) (listed rfl) (changesOnly_refl _ _) y eq
theorem frame_tableStats (s y : State) (p : Packet) (eq : exec (.tableStats p) s = .next y) : changesOnly (partsOf (.tableStats p)) s y :=
  execTableStats_only p s (listed rfl) (listed rfl) (listed rfl) (listed rfl) (listed rfl) (listed rfl) (changesOnly_refl _ _) y eq
theorem frame_schedNodeSet (s y : State) (p : Packet) (eq : exec (.schedNodeSet p) s = .next y) : changesOnly (partsOf (.schedNodeSet p)) s y :=
  execSchedNodeSet_only p s (listed rfl) (listed rfl) (listed rfl) (listed rfl) (listed rfl) (listed rfl) (listed rfl) (listed rfl) (changesOnly_refl _ _) y eq
theorem frame_schedNodeGet (s y : State) (p : Packet) (eq : exec (.schedNodeGet p) s = .next y) : changesOnly (partsOf (.schedNodeGet p)) s y :=
  execSchedNodeGet_only p s (listed rfl) (listed rfl) (listed rfl) (listed rfl) (listed rfl) (listed rfl) (changesOnly_refl _ _) y eq
theorem frame_hostShareSet (s y : State) (p : Packet) (eq : exec (.hostShareSet p) s = .next y) : changesOnly (partsOf (.hostShareSet p)) s y :=
  execHostShareSet_only p s (listed rfl) (listed rfl) (listed rfl) (listed rfl) (listed rfl) (listed rfl) (listed rfl) (changesOnly_refl _ _) y eq
theorem frame_policerSet (s y : State) (p : Packet) (eq : exec (.policerSet p) s = .next y) : changesOnly (partsOf (.policerSet p)) s y :=
  execPolicerSet_only p s (listed rfl) (listed rfl) (listed rfl) (listed rfl) (listed rfl) (listed rfl) (listed rfl) (changesOnly_refl _ _) y eq
theorem frame_classMapSet (s y : State) (p : Packet) (eq : exec (.classMapSet p) s = .next y) : changesOnly (partsOf (.classMapSet p)) s y :=
  execClassMapSet_only p s (listed rfl) (listed rfl) (listed rfl) (listed rfl) (listed rfl) (listed rfl) (listed rfl) (listed rfl) (changesOnly_refl _ _) y eq
theorem frame_spreadSet (s y : State) (p : Packet) (eq : exec (.spreadSet p) s = .next y) : changesOnly (partsOf (.spreadSet p)) s y :=
  execSpreadSet_only p s (listed rfl) (listed rfl) (listed rfl) (listed rfl) (listed rfl) (listed rfl) (listed rfl) (changesOnly_refl _ _) y eq
theorem frame_indirectionSet (s y : State) (p : Packet) (eq : exec (.indirectionSet p) s = .next y) : changesOnly (partsOf (.indirectionSet p)) s y :=
  execIndirectionSet_only p s (listed rfl) (listed rfl) (listed rfl) (listed rfl) (listed rfl) (listed rfl) (listed rfl) (changesOnly_refl _ _) y eq
theorem frame_spreadLoadRead (s y : State) (p : Packet) (eq : exec (.spreadLoadRead p) s = .next y) : changesOnly (partsOf (.spreadLoadRead p)) s y :=
  execSpreadLoadRead_only p s (listed rfl) (listed rfl) (listed rfl) (listed rfl) (listed rfl) (listed rfl) (listed rfl) (changesOnly_refl _ _) y eq
theorem frame_queueCreate (s y : State) (p : Packet) (eq : exec (.queueCreate p) s = .next y) : changesOnly (partsOf (.queueCreate p)) s y :=
  execQueueCreate_only p s (listed rfl) (listed rfl) (listed rfl) (listed rfl) (listed rfl) (listed rfl) (listed rfl) (listed rfl) (listed rfl) (changesOnly_refl _ _) y eq
theorem frame_queueDestroy (s y : State) (p : Packet) (eq : exec (.queueDestroy p) s = .next y) : changesOnly (partsOf (.queueDestroy p)) s y :=
  execQueueDestroy_only p s (listed rfl) (listed rfl) (listed rfl) (listed rfl) (listed rfl) (listed rfl) (listed rfl) (listed rfl) (listed rfl) (listed rfl) (listed rfl) (changesOnly_refl _ _) y eq
theorem frame_queueQuery (s y : State) (p : Packet) (eq : exec (.queueQuery p) s = .next y) : changesOnly (partsOf (.queueQuery p)) s y :=
  execQueueQuery_only p s (listed rfl) (listed rfl) (listed rfl) (listed rfl) (listed rfl) (listed rfl) (changesOnly_refl _ _) y eq
theorem frame_connCreate (s y : State) (p : Packet) (eq : exec (.connCreate p) s = .next y) : changesOnly (partsOf (.connCreate p)) s y :=
  execConnCreate_only p s (listed rfl) (listed rfl) (listed rfl) (listed rfl) (listed rfl) (listed rfl) (listed rfl) (listed rfl) (listed rfl) (listed rfl) (listed rfl) (changesOnly_refl _ _) y eq
theorem frame_connModify (s y : State) (p : Packet) (eq : exec (.connModify p) s = .next y) : changesOnly (partsOf (.connModify p)) s y :=
  execConnModify_only p s (listed rfl) (listed rfl) (listed rfl) (listed rfl) (listed rfl) (listed rfl) (listed rfl) (listed rfl) (listed rfl) (listed rfl) (changesOnly_refl _ _) y eq
theorem frame_connDestroy (s y : State) (p : Packet) (eq : exec (.connDestroy p) s = .next y) : changesOnly (partsOf (.connDestroy p)) s y :=
  execConnDestroy_only p s (listed rfl) (listed rfl) (listed rfl) (listed rfl) (listed rfl) (listed rfl) (listed rfl) (listed rfl) (listed rfl) (listed rfl) (listed rfl) (listed rfl) (changesOnly_refl _ _) y eq
theorem frame_connQuery (s y : State) (p : Packet) (eq : exec (.connQuery p) s = .next y) : changesOnly (partsOf (.connQuery p)) s y :=
  execConnQuery_only p s (listed rfl) (listed rfl) (listed rfl) (listed rfl) (listed rfl) (listed rfl) (changesOnly_refl _ _) y eq
theorem frame_ctxPin (s y : State) (p : Packet) (eq : exec (.ctxPin p) s = .next y) : changesOnly (partsOf (.ctxPin p)) s y :=
  execCtxPin_only p s (listed rfl) (listed rfl) (listed rfl) (listed rfl) (listed rfl) (listed rfl) (listed rfl) (listed rfl) (listed rfl) (changesOnly_refl _ _) y eq
theorem frame_ctxUnpin (s y : State) (p : Packet) (eq : exec (.ctxUnpin p) s = .next y) : changesOnly (partsOf (.ctxUnpin p)) s y :=
  execCtxUnpin_only p s (listed rfl) (listed rfl) (listed rfl) (listed rfl) (listed rfl) (listed rfl) (listed rfl) (changesOnly_refl _ _) y eq
theorem frame_ctxMigrate (s y : State) (p : Packet) (eq : exec (.ctxMigrate p) s = .next y) : changesOnly (partsOf (.ctxMigrate p)) s y :=
  execCtxMigrate_only p s (listed rfl) (listed rfl) (listed rfl) (listed rfl) (listed rfl) (listed rfl) (listed rfl) (listed rfl) (changesOnly_refl _ _) y eq
theorem frame_hostBackingSet (s y : State) (p : Packet) (eq : exec (.hostBackingSet p) s = .next y) : changesOnly (partsOf (.hostBackingSet p)) s y :=
  execHostBackingSet_only p s (listed rfl) (listed rfl) (listed rfl) (listed rfl) (listed rfl) (listed rfl) (listed rfl) (changesOnly_refl _ _) y eq
theorem frame_pathWrite (s y : State) (p : Packet) (eq : exec (.pathWrite p) s = .next y) : changesOnly (partsOf (.pathWrite p)) s y :=
  execPathWrite_only p s (listed rfl) (listed rfl) (listed rfl) (listed rfl) (listed rfl) (listed rfl) (listed rfl) (changesOnly_refl _ _) y eq
theorem frame_pathRead (s y : State) (p : Packet) (eq : exec (.pathRead p) s = .next y) : changesOnly (partsOf (.pathRead p)) s y :=
  execPathRead_only p s (listed rfl) (listed rfl) (listed rfl) (listed rfl) (listed rfl) (listed rfl) (changesOnly_refl _ _) y eq
theorem frame_xportConfig (s y : State) (p : Packet) (eq : exec (.xportConfig p) s = .next y) : changesOnly (partsOf (.xportConfig p)) s y :=
  execXportConfig_only p s (listed rfl) (listed rfl) (listed rfl) (listed rfl) (listed rfl) (listed rfl) (listed rfl) (changesOnly_refl _ _) y eq
theorem frame_nsCreate (s y : State) (p : Packet) (eq : exec (.nsCreate p) s = .next y) : changesOnly (partsOf (.nsCreate p)) s y :=
  execNsCreate_only p s (listed rfl) (listed rfl) (listed rfl) (listed rfl) (listed rfl) (listed rfl) (listed rfl) (changesOnly_refl _ _) y eq
theorem frame_nsBackingSet (s y : State) (p : Packet) (eq : exec (.nsBackingSet p) s = .next y) : changesOnly (partsOf (.nsBackingSet p)) s y :=
  execNsBackingSet_only p s (listed rfl) (listed rfl) (listed rfl) (listed rfl) (listed rfl) (listed rfl) (listed rfl) (listed rfl) (changesOnly_refl _ _) y eq
theorem frame_nsAttach (s y : State) (p : Packet) (eq : exec (.nsAttach p) s = .next y) : changesOnly (partsOf (.nsAttach p)) s y :=
  execNsAttach_only p s (listed rfl) (listed rfl) (listed rfl) (listed rfl) (listed rfl) (listed rfl) (listed rfl) (listed rfl) (changesOnly_refl _ _) y eq
theorem frame_nsDetach (s y : State) (p : Packet) (eq : exec (.nsDetach p) s = .next y) : changesOnly (partsOf (.nsDetach p)) s y :=
  execNsDetach_only p s (listed rfl) (listed rfl) (listed rfl) (listed rfl) (listed rfl) (listed rfl) (listed rfl) (listed rfl) (listed rfl) (listed rfl) (listed rfl) (listed rfl) (changesOnly_refl _ _) y eq
theorem frame_nsDelete (s y : State) (p : Packet) (eq : exec (.nsDelete p) s = .next y) : changesOnly (partsOf (.nsDelete p)) s y :=
  execNsDelete_only p s (listed rfl) (listed rfl) (listed rfl) (listed rfl) (listed rfl) (listed rfl) (listed rfl) (listed rfl) (changesOnly_refl _ _) y eq
theorem frame_driveInfo (s y : State) (p : Packet) (eq : exec (.driveInfo p) s = .next y) : changesOnly (partsOf (.driveInfo p)) s y :=
  execDriveInfo_only p s (listed rfl) (listed rfl) (listed rfl) (listed rfl) (listed rfl) (listed rfl) (changesOnly_refl _ _) y eq
theorem frame_driveFormat (s y : State) (p : Packet) (eq : exec (.driveFormat p) s = .next y) : changesOnly (partsOf (.driveFormat p)) s y :=
  execDriveFormat_only p s (listed rfl) (listed rfl) (listed rfl) (listed rfl) (listed rfl) (listed rfl) (listed rfl) (listed rfl) (changesOnly_refl _ _) y eq
theorem frame_cacheFlush (s y : State) (p : Packet) (eq : exec (.cacheFlush p) s = .next y) : changesOnly (partsOf (.cacheFlush p)) s y :=
  execCacheFlush_only p s (listed rfl) (listed rfl) (listed rfl) (listed rfl) (listed rfl) (listed rfl) (listed rfl) (listed rfl) (listed rfl) (listed rfl) (listed rfl) (listed rfl) (listed rfl) (changesOnly_refl _ _) y eq
theorem frame_sanitize (s y : State) (p : Packet) (eq : exec (.sanitize p) s = .next y) : changesOnly (partsOf (.sanitize p)) s y :=
  execSanitize_only p s (listed rfl) (listed rfl) (listed rfl) (listed rfl) (listed rfl) (listed rfl) (listed rfl) (listed rfl) (listed rfl) (changesOnly_refl _ _) y eq
theorem frame_remoteTargetSet (s y : State) (p : Packet) (eq : exec (.remoteTargetSet p) s = .next y) : changesOnly (partsOf (.remoteTargetSet p)) s y :=
  execRemoteTargetSet_only p s (listed rfl) (listed rfl) (listed rfl) (listed rfl) (listed rfl) (listed rfl) (listed rfl) (listed rfl) (listed rfl) (listed rfl) (listed rfl) (listed rfl) (listed rfl) (listed rfl) (listed rfl) (listed rfl) (changesOnly_refl _ _) y eq
theorem frame_keyAllocate (s y : State) (p : Packet) (eq : exec (.keyAllocate p) s = .next y) : changesOnly (partsOf (.keyAllocate p)) s y :=
  execKeyAllocate_only p s (listed rfl) (listed rfl) (listed rfl) (listed rfl) (listed rfl) (listed rfl) (listed rfl) (listed rfl) (changesOnly_refl _ _) y eq
theorem frame_keyImport (s y : State) (p : Packet) (eq : exec (.keyImport p) s = .next y) : changesOnly (partsOf (.keyImport p)) s y :=
  execKeyImport_only p s (listed rfl) (listed rfl) (listed rfl) (listed rfl) (listed rfl) (listed rfl) (listed rfl) (listed rfl) (listed rfl) (listed rfl) (changesOnly_refl _ _) y eq
theorem frame_keyDestroy (s y : State) (p : Packet) (eq : exec (.keyDestroy p) s = .next y) : changesOnly (partsOf (.keyDestroy p)) s y :=
  execKeyDestroy_only p s (listed rfl) (listed rfl) (listed rfl) (listed rfl) (listed rfl) (listed rfl) (listed rfl) (listed rfl) (changesOnly_refl _ _) y eq
theorem frame_keyQuery (s y : State) (p : Packet) (eq : exec (.keyQuery p) s = .next y) : changesOnly (partsOf (.keyQuery p)) s y :=
  execKeyQuery_only p s (listed rfl) (listed rfl) (listed rfl) (listed rfl) (listed rfl) (listed rfl) (changesOnly_refl _ _) y eq
theorem frame_importKeySet (s y : State) (p : Packet) (eq : exec (.importKeySet p) s = .next y) : changesOnly (partsOf (.importKeySet p)) s y :=
  execImportKeySet_only p s (listed rfl) (listed rfl) (listed rfl) (listed rfl) (listed rfl) (listed rfl) (listed rfl) (listed rfl) (listed rfl) (changesOnly_refl _ _) y eq
theorem frame_keyTierSet (s y : State) (p : Packet) (eq : exec (.keyTierSet p) s = .next y) : changesOnly (partsOf (.keyTierSet p)) s y :=
  execKeyTierSet_only p s (listed rfl) (listed rfl) (listed rfl) (listed rfl) (listed rfl) (listed rfl) (listed rfl) (listed rfl) (listed rfl) (changesOnly_refl _ _) y eq
theorem frame_keystoreZeroise (s y : State) (p : Packet) (eq : exec (.keystoreZeroise p) s = .next y) : changesOnly (partsOf (.keystoreZeroise p)) s y :=
  execKeystoreZeroise_only p s (listed rfl) (listed rfl) (listed rfl) (listed rfl) (listed rfl) (listed rfl) (listed rfl) (listed rfl) (listed rfl) (listed rfl) (listed rfl) (listed rfl) (listed rfl) (listed rfl) (listed rfl) (changesOnly_refl _ _) y eq
theorem frame_programLoad (s y : State) (p : Packet) (eq : exec (.programLoad p) s = .next y) : changesOnly (partsOf (.programLoad p)) s y :=
  execProgramLoad_only p s (listed rfl) (listed rfl) (listed rfl) (listed rfl) (listed rfl) (listed rfl) (listed rfl) (listed rfl) (listed rfl) (changesOnly_refl _ _) y eq
theorem frame_programStart (s y : State) (p : Packet) (eq : exec (.programStart p) s = .next y) : changesOnly (partsOf (.programStart p)) s y :=
  execProgramStart_only p s (listed rfl) (listed rfl) (listed rfl) (listed rfl) (listed rfl) (listed rfl) (listed rfl) (changesOnly_refl _ _) y eq
theorem frame_programStop (s y : State) (p : Packet) (eq : exec (.programStop p) s = .next y) : changesOnly (partsOf (.programStop p)) s y :=
  execProgramStop_only p s (listed rfl) (listed rfl) (listed rfl) (listed rfl) (listed rfl) (listed rfl) (listed rfl) (listed rfl) (listed rfl) (listed rfl) (listed rfl) (changesOnly_refl _ _) y eq
theorem frame_channelGrant (s y : State) (p : Packet) (eq : exec (.channelGrant p) s = .next y) : changesOnly (partsOf (.channelGrant p)) s y :=
  execChannelGrant_only p s (listed rfl) (listed rfl) (listed rfl) (listed rfl) (listed rfl) (listed rfl) (listed rfl) (changesOnly_refl _ _) y eq
theorem frame_coreStatus (s y : State) (p : Packet) (eq : exec (.coreStatus p) s = .next y) : changesOnly (partsOf (.coreStatus p)) s y :=
  execCoreStatus_only p s (listed rfl) (listed rfl) (listed rfl) (listed rfl) (listed rfl) (listed rfl) (changesOnly_refl _ _) y eq
theorem frame_watchdogSet (s y : State) (p : Packet) (eq : exec (.watchdogSet p) s = .next y) : changesOnly (partsOf (.watchdogSet p)) s y :=
  execWatchdogSet_only p s (listed rfl) (listed rfl) (listed rfl) (listed rfl) (listed rfl) (listed rfl) (listed rfl) (changesOnly_refl _ _) y eq
theorem frame_selftestRun (s y : State) (p : Packet) (eq : exec (.selftestRun p) s = .next y) : changesOnly (partsOf (.selftestRun p)) s y :=
  execSelftestRun_only p s (listed rfl) (listed rfl) (listed rfl) (listed rfl) (listed rfl) (listed rfl) (listed rfl) (listed rfl) (changesOnly_refl _ _) y eq
theorem frame_repairRead (s y : State) (p : Packet) (eq : exec (.repairRead p) s = .next y) : changesOnly (partsOf (.repairRead p)) s y :=
  execRepairRead_only p s (listed rfl) (listed rfl) (listed rfl) (listed rfl) (listed rfl) (listed rfl) (changesOnly_refl _ _) y eq
theorem frame_fuseProgram (s y : State) (p : Packet) (eq : exec (.fuseProgram p) s = .next y) : changesOnly (partsOf (.fuseProgram p)) s y :=
  execFuseProgram_only p s (listed rfl) (listed rfl) (listed rfl) (listed rfl) (listed rfl) (listed rfl) (listed rfl) (listed rfl) (changesOnly_refl _ _) y eq
theorem frame_parkPlanSet (s y : State) (p : Packet) (eq : exec (.parkPlanSet p) s = .next y) : changesOnly (partsOf (.parkPlanSet p)) s y :=
  execParkPlanSet_only p s (listed rfl) (listed rfl) (listed rfl) (listed rfl) (listed rfl) (listed rfl) (listed rfl) (changesOnly_refl _ _) y eq
theorem frame_imageStage (s y : State) (p : Packet) (eq : exec (.imageStage p) s = .next y) : changesOnly (partsOf (.imageStage p)) s y :=
  execImageStage_only p s (listed rfl) (listed rfl) (listed rfl) (listed rfl) (listed rfl) (listed rfl) (listed rfl) (changesOnly_refl _ _) y eq
theorem frame_imageInstall (s y : State) (p : Packet) (eq : exec (.imageInstall p) s = .next y) : changesOnly (partsOf (.imageInstall p)) s y :=
  execImageInstall_only p s (listed rfl) (listed rfl) (listed rfl) (listed rfl) (listed rfl) (listed rfl) (listed rfl) (listed rfl) (changesOnly_refl _ _) y eq
theorem frame_imageInfo (s y : State) (p : Packet) (eq : exec (.imageInfo p) s = .next y) : changesOnly (partsOf (.imageInfo p)) s y :=
  execImageInfo_only p s (listed rfl) (listed rfl) (listed rfl) (listed rfl) (listed rfl) (listed rfl) (changesOnly_refl _ _) y eq
theorem frame_commitVersion (s y : State) (p : Packet) (eq : exec (.commitVersion p) s = .next y) : changesOnly (partsOf (.commitVersion p)) s y :=
  execCommitVersion_only p s (listed rfl) (listed rfl) (listed rfl) (listed rfl) (listed rfl) (listed rfl) (listed rfl) (listed rfl) (listed rfl) (changesOnly_refl _ _) y eq
theorem frame_revokeKey (s y : State) (p : Packet) (eq : exec (.revokeKey p) s = .next y) : changesOnly (partsOf (.revokeKey p)) s y :=
  execRevokeKey_only p s (listed rfl) (listed rfl) (listed rfl) (listed rfl) (listed rfl) (listed rfl) (listed rfl) (listed rfl) (listed rfl) (changesOnly_refl _ _) y eq
theorem frame_ownerKeyProvision (s y : State) (p : Packet) (eq : exec (.ownerKeyProvision p) s = .next y) : changesOnly (partsOf (.ownerKeyProvision p)) s y :=
  execOwnerKeyProvision_only p s (listed rfl) (listed rfl) (listed rfl) (listed rfl) (listed rfl) (listed rfl) (listed rfl) (listed rfl) (listed rfl) (listed rfl) (listed rfl) (listed rfl) (changesOnly_refl _ _) y eq
theorem frame_measurementRead (s y : State) (p : Packet) (eq : exec (.measurementRead p) s = .next y) : changesOnly (partsOf (.measurementRead p)) s y :=
  execMeasurementRead_only p s (listed rfl) (listed rfl) (listed rfl) (listed rfl) (listed rfl) (listed rfl) (changesOnly_refl _ _) y eq
theorem frame_counterRead (s y : State) (p : Packet) (eq : exec (.counterRead p) s = .next y) : changesOnly (partsOf (.counterRead p)) s y :=
  execCounterRead_only p s (listed rfl) (listed rfl) (listed rfl) (listed rfl) (listed rfl) (listed rfl) (listed rfl) (listed rfl) (changesOnly_refl _ _) y eq
theorem frame_counterSnapshot (s y : State) (p : Packet) (eq : exec (.counterSnapshot p) s = .next y) : changesOnly (partsOf (.counterSnapshot p)) s y :=
  execCounterSnapshot_only p s (listed rfl) (listed rfl) (listed rfl) (listed rfl) (listed rfl) (listed rfl) (listed rfl) (listed rfl) (changesOnly_refl _ _) y eq
theorem frame_eventMaskSet (s y : State) (p : Packet) (eq : exec (.eventMaskSet p) s = .next y) : changesOnly (partsOf (.eventMaskSet p)) s y :=
  execEventMaskSet_only p s (listed rfl) (listed rfl) (listed rfl) (listed rfl) (listed rfl) (listed rfl) (changesOnly_refl _ _) y eq
theorem frame_violationRead (s y : State) (p : Packet) (eq : exec (.violationRead p) s = .next y) : changesOnly (partsOf (.violationRead p)) s y :=
  execViolationRead_only p s (listed rfl) (listed rfl) (listed rfl) (listed rfl) (listed rfl) (listed rfl) (changesOnly_refl _ _) y eq
theorem frame_unassignedOpcode (s y : State) (opcode : BitVec 16) (p : Packet) (eq : exec (.unassignedOpcode opcode p) s = .next y) : changesOnly (partsOf (.unassignedOpcode opcode p)) s y :=
  execUnassignedOpcode_only opcode p s (listed rfl) (listed rfl) (listed rfl) (listed rfl) (listed rfl) (listed rfl) (changesOnly_refl _ _) y eq
theorem frame_oversizeCommand (s y : State) (c : RingChan) (p : Packet) (eq : exec (.oversizeCommand c p) s = .next y) : changesOnly (partsOf (.oversizeCommand c p)) s y :=
  execOversizeCommand_only c p s (listed rfl) (listed rfl) (listed rfl) (listed rfl) (changesOnly_refl _ _) y eq
theorem frame_hlinkCmdEnableSet (s y : State) (c : RingChan) (eq : exec (.hlinkCmdEnableSet c) s = .next y) : changesOnly (partsOf (.hlinkCmdEnableSet c)) s y :=
  execHlinkCmdEnableSet_only c s (listed rfl) (changesOnly_refl _ _) y eq
theorem frame_hlinkCmdEnableClear (s y : State) (c : RingChan) (eq : exec (.hlinkCmdEnableClear c) s = .next y) : changesOnly (partsOf (.hlinkCmdEnableClear c)) s y :=
  execHlinkCmdEnableClear_only c s (listed rfl) (listed rfl) (listed rfl) (listed rfl) (listed rfl) (listed rfl) (listed rfl) (listed rfl) (listed rfl) (listed rfl) (changesOnly_refl _ _) y eq
theorem frame_hlinkCmdEventEnableWrite (s y : State) (c : RingChan) (on : Bool) (eq : exec (.hlinkCmdEventEnableWrite c on) s = .next y) : changesOnly (partsOf (.hlinkCmdEventEnableWrite c on)) s y :=
  execHlinkCmdEventEnableWrite_only c on s (listed rfl) (changesOnly_refl _ _) y eq
theorem frame_hlinkCmdSqTail (s y : State) (c : RingChan) (v : Word) (eq : exec (.hlinkCmdSqTail c v) s = .next y) : changesOnly (partsOf (.hlinkCmdSqTail c v)) s y :=
  execHlinkCmdSqTail_only c v s (listed rfl) (changesOnly_refl _ _) y eq
theorem frame_hlinkCmdRqHead (s y : State) (c : RingChan) (v : Word) (eq : exec (.hlinkCmdRqHead c v) s = .next y) : changesOnly (partsOf (.hlinkCmdRqHead c v)) s y :=
  execHlinkCmdRqHead_only c v s (listed rfl) (changesOnly_refl _ _) y eq
theorem frame_hlinkCmdEqHead (s y : State) (c : RingChan) (v : Word) (eq : exec (.hlinkCmdEqHead c v) s = .next y) : changesOnly (partsOf (.hlinkCmdEqHead c v)) s y :=
  execHlinkCmdEqHead_only c v s (listed rfl) (listed rfl) (listed rfl) (listed rfl) (changesOnly_refl _ _) y eq
theorem frame_ownerEventSend (s y : State) (tries : Fin 5) (eq : exec (.ownerEventSend tries) s = .next y) : changesOnly (partsOf (.ownerEventSend tries)) s y :=
  execOwnerEventSend_only tries s (listed rfl) (listed rfl) (changesOnly_refl _ _) y eq
theorem frame_mctpSetEndpointId (s y : State) (path : MctpPath) (op : BitVec 2) (eid : Byte) (eq : exec (.mctpSetEndpointId path op eid) s = .next y) : changesOnly (partsOf (.mctpSetEndpointId path op eid)) s y :=
  execMctpSetEndpointId_only path op eid s (listed rfl) (listed rfl) (changesOnly_refl _ _) y eq
theorem frame_mctpGetEndpointId (s y : State) (path : MctpPath) (eq : exec (.mctpGetEndpointId path) s = .next y) : changesOnly (partsOf (.mctpGetEndpointId path)) s y :=
  execMctpGetEndpointId_only path s (listed rfl) (changesOnly_refl _ _) y eq
theorem frame_mctpGetVersionSupport (s y : State) (path : MctpPath) (msgType : Byte) (eq : exec (.mctpGetVersionSupport path msgType) s = .next y) : changesOnly (partsOf (.mctpGetVersionSupport path msgType)) s y :=
  execMctpGetVersionSupport_only path msgType s (listed rfl) (listed rfl) (changesOnly_refl _ _) y eq
theorem frame_mctpGetMessageTypeSupport (s y : State) (path : MctpPath) (eq : exec (.mctpGetMessageTypeSupport path) s = .next y) : changesOnly (partsOf (.mctpGetMessageTypeSupport path)) s y :=
  execMctpGetMessageTypeSupport_only path s (listed rfl) (changesOnly_refl _ _) y eq
theorem frame_mctpGetVdmSupport (s y : State) (path : MctpPath) (selector : Byte) (eq : exec (.mctpGetVdmSupport path selector) s = .next y) : changesOnly (partsOf (.mctpGetVdmSupport path selector)) s y :=
  execMctpGetVdmSupport_only path selector s (listed rfl) (changesOnly_refl _ _) y eq
theorem frame_mctpMessageDiscarded (s y : State) (path : MctpPath) (ic : Bool) (msgType : Byte) (eq : exec (.mctpMessageDiscarded path ic msgType) s = .next y) : changesOnly (partsOf (.mctpMessageDiscarded path ic msgType)) s y :=
  execMctpMessageDiscarded_only path ic msgType s (listed rfl) (changesOnly_refl _ _) y eq
theorem frame_spdmGetVersion (s y : State) (r : SpdmPort) (q : SpdmReq) (eq : exec (.spdmGetVersion r q) s = .next y) : changesOnly (partsOf (.spdmGetVersion r q)) s y :=
  execSpdmGetVersion_only r q s (listed rfl) (listed rfl) (changesOnly_refl _ _) y eq
theorem frame_spdmGetCapabilities (s y : State) (r : SpdmPort) (q : SpdmReq) (eq : exec (.spdmGetCapabilities r q) s = .next y) : changesOnly (partsOf (.spdmGetCapabilities r q)) s y :=
  execSpdmGetCapabilities_only r q s (listed rfl) (listed rfl) (changesOnly_refl _ _) y eq
theorem frame_spdmNegotiateAlgorithms (s y : State) (r : SpdmPort) (q : SpdmReq) (eq : exec (.spdmNegotiateAlgorithms r q) s = .next y) : changesOnly (partsOf (.spdmNegotiateAlgorithms r q)) s y :=
  execSpdmNegotiateAlgorithms_only r q s (listed rfl) (listed rfl) (changesOnly_refl _ _) y eq
theorem frame_spdmGetDigests (s y : State) (r : SpdmPort) (q : SpdmReq) (eq : exec (.spdmGetDigests r q) s = .next y) : changesOnly (partsOf (.spdmGetDigests r q)) s y :=
  execSpdmGetDigests_only r q s (listed rfl) (listed rfl) (changesOnly_refl _ _) y eq
theorem frame_spdmGetCertificate (s y : State) (r : SpdmPort) (q : SpdmReq) (eq : exec (.spdmGetCertificate r q) s = .next y) : changesOnly (partsOf (.spdmGetCertificate r q)) s y :=
  execSpdmGetCertificate_only r q s (listed rfl) (listed rfl) (changesOnly_refl _ _) y eq
theorem frame_spdmChallenge (s y : State) (r : SpdmPort) (q : SpdmReq) (eq : exec (.spdmChallenge r q) s = .next y) : changesOnly (partsOf (.spdmChallenge r q)) s y :=
  execSpdmChallenge_only r q s (listed rfl) (listed rfl) (listed rfl) (changesOnly_refl _ _) y eq
theorem frame_spdmGetMeasurements (s y : State) (r : SpdmPort) (q : SpdmReq) (eq : exec (.spdmGetMeasurements r q) s = .next y) : changesOnly (partsOf (.spdmGetMeasurements r q)) s y :=
  execSpdmGetMeasurements_only r q s (listed rfl) (listed rfl) (listed rfl) (changesOnly_refl _ _) y eq
theorem frame_spdmUnsupportedRequest (s y : State) (r : SpdmPort) (q : SpdmReq) (eq : exec (.spdmUnsupportedRequest r q) s = .next y) : changesOnly (partsOf (.spdmUnsupportedRequest r q)) s y :=
  execSpdmUnsupportedRequest_only r q s (listed rfl) (changesOnly_refl _ _) y eq
theorem frame_doeDiscovery (s y : State) (h : HostId) (index : Byte) (eq : exec (.doeDiscovery h index) s = .next y) : changesOnly (partsOf (.doeDiscovery h index)) s y :=
  execDoeDiscovery_only h index s (listed rfl) (changesOnly_refl _ _) y eq
theorem frame_hostAttach (s y : State) (h : HostId) (t : LinkTraining) (eq : exec (.hostAttach h t) s = .next y) : changesOnly (partsOf (.hostAttach h t)) s y :=
  execHostAttach_only h t s (listed rfl) (listed rfl) (listed rfl) (listed rfl) (listed rfl) (listed rfl) (listed rfl) (listed rfl) (changesOnly_refl _ _) y eq
theorem frame_hostDetach (s y : State) (h : HostId) (cause : DetachCause) (eq : exec (.hostDetach h cause) s = .next y) : changesOnly (partsOf (.hostDetach h cause)) s y :=
  execHostDetach_only h cause s (listed rfl) (listed rfl) (listed rfl) (listed rfl) (listed rfl) (listed rfl) (listed rfl) (listed rfl) (listed rfl) (listed rfl) (listed rfl) (listed rfl) (listed rfl) (listed rfl) (listed rfl) (listed rfl) (listed rfl) (listed rfl) (listed rfl) (listed rfl) (changesOnly_refl _ _) y eq
theorem frame_hostUnitDefaultsLoad (s y : State) (h : HostId) (eq : exec (.hostUnitDefaultsLoad h) s = .next y) : changesOnly (partsOf (.hostUnitDefaultsLoad h)) s y :=
  execHostUnitDefaultsLoad_only h s (listed rfl) (listed rfl) (listed rfl) (changesOnly_refl _ _) y eq
theorem frame_linkRecoveryEntry (s y : State) (h : HostId) (eq : exec (.linkRecoveryEntry h) s = .next y) : changesOnly (partsOf (.linkRecoveryEntry h)) s y :=
  execLinkRecoveryEntry_only h s (listed rfl) (changesOnly_refl _ _) y eq
theorem frame_linkWidthChange (s y : State) (h : HostId) (t : LinkTraining) (eq : exec (.linkWidthChange h t) s = .next y) : changesOnly (partsOf (.linkWidthChange h t)) s y :=
  execLinkWidthChange_only h t s (listed rfl) (listed rfl) (listed rfl) (listed rfl) (listed rfl) (listed rfl) (listed rfl) (listed rfl) (listed rfl) (listed rfl) (listed rfl) (listed rfl) (listed rfl) (listed rfl) (listed rfl) (listed rfl) (listed rfl) (listed rfl) (listed rfl) (listed rfl) (listed rfl) (listed rfl) (changesOnly_refl _ _) y eq
theorem frame_hostLaneFaultInService (s y : State) (h : HostId) (lane : Fin 16) (eq : exec (.hostLaneFaultInService h lane) s = .next y) : changesOnly (partsOf (.hostLaneFaultInService h lane)) s y :=
  execHostLaneFaultInService_only h lane s (listed rfl) (listed rfl) (listed rfl) (listed rfl) (listed rfl) (listed rfl) (listed rfl) (listed rfl) (listed rfl) (listed rfl) (listed rfl) (listed rfl) (listed rfl) (listed rfl) (listed rfl) (listed rfl) (listed rfl) (listed rfl) (listed rfl) (listed rfl) (listed rfl) (listed rfl) (changesOnly_refl _ _) y eq
theorem frame_configRequest (s y : State) (h : HostId) (r : CfgReq) (eq : exec (.configRequest h r) s = .next y) : changesOnly (partsOf (.configRequest h r)) s y :=
  execConfigRequest_only h r s (listed rfl) (listed rfl) (listed rfl) (listed rfl) (listed rfl) (listed rfl) (listed rfl) (listed rfl) (changesOnly_refl _ _) y eq
theorem frame_initiateFlr (s y : State) (h : HostId) (f : Fn) (eq : exec (.initiateFlr h f) s = .next y) : changesOnly (partsOf (.initiateFlr h f)) s y :=
  execInitiateFlr_only h f s (listed rfl) (listed rfl) (listed rfl) (listed rfl) (listed rfl) (listed rfl) (listed rfl) (listed rfl) (listed rfl) (listed rfl) (listed rfl) (listed rfl) (listed rfl) (listed rfl) (listed rfl) (listed rfl) (listed rfl) (listed rfl) (listed rfl) (listed rfl) (changesOnly_refl _ _) y eq
theorem frame_busMasterEnableClear (s y : State) (h : HostId) (f : Fn) (eq : exec (.busMasterEnableClear h f) s = .next y) : changesOnly (partsOf (.busMasterEnableClear h f)) s y :=
  execBusMasterEnableClear_only h f s (listed rfl) (listed rfl) (listed rfl) (listed rfl) (listed rfl) (listed rfl) (listed rfl) (listed rfl) (listed rfl) (listed rfl) (listed rfl) (listed rfl) (listed rfl) (listed rfl) (listed rfl) (changesOnly_refl _ _) y eq
theorem frame_busMasterEnableSet (s y : State) (h : HostId) (f : Fn) (eq : exec (.busMasterEnableSet h f) s = .next y) : changesOnly (partsOf (.busMasterEnableSet h f)) s y :=
  execBusMasterEnableSet_only h f s (listed rfl) (listed rfl) (listed rfl) (listed rfl) (listed rfl) (changesOnly_refl _ _) y eq
theorem frame_vfEnableClear (s y : State) (h : HostId) (f : Fn) (eq : exec (.vfEnableClear h f) s = .next y) : changesOnly (partsOf (.vfEnableClear h f)) s y :=
  execVfEnableClear_only h f s (listed rfl) (listed rfl) (listed rfl) (listed rfl) (listed rfl) (listed rfl) (listed rfl) (listed rfl) (listed rfl) (listed rfl) (listed rfl) (listed rfl) (listed rfl) (listed rfl) (listed rfl) (listed rfl) (listed rfl) (listed rfl) (listed rfl) (listed rfl) (changesOnly_refl _ _) y eq
theorem frame_vfEnableSet (s y : State) (h : HostId) (f : Fn) (eq : exec (.vfEnableSet h f) s = .next y) : changesOnly (partsOf (.vfEnableSet h f)) s y :=
  execVfEnableSet_only h f s (listed rfl) (changesOnly_refl _ _) y eq
theorem frame_d3hotToD0 (s y : State) (h : HostId) (f : Fn) (eq : exec (.d3hotToD0 h f) s = .next y) : changesOnly (partsOf (.d3hotToD0 h f)) s y :=
  execD3hotToD0_only h f s (listed rfl) (listed rfl) (listed rfl) (listed rfl) (listed rfl) (listed rfl) (listed rfl) (listed rfl) (listed rfl) (listed rfl) (listed rfl) (listed rfl) (listed rfl) (listed rfl) (listed rfl) (listed rfl) (listed rfl) (listed rfl) (listed rfl) (listed rfl) (changesOnly_refl _ _) y eq
theorem frame_msixUnmask (s y : State) (h : HostId) (f : Fn) (vector : Option (Fin 2048)) (eq : exec (.msixUnmask h f vector) s = .next y) : changesOnly (partsOf (.msixUnmask h f vector)) s y :=
  execMsixUnmask_only h f vector s (listed rfl) (listed rfl) (changesOnly_refl _ _) y eq
theorem frame_configWrite (s y : State) (h : HostId) (f : Fn) (offset : BitVec 12) (v : Word) (be : BitVec 4) (eq : exec (.configWrite h f offset v be) s = .next y) : changesOnly (partsOf (.configWrite h f offset v be)) s y :=
  execConfigWrite_only h f offset v be s (listed rfl) (listed rfl) (listed rfl) (listed rfl) (listed rfl) (listed rfl) (listed rfl) (listed rfl) (listed rfl) (listed rfl) (listed rfl) (listed rfl) (listed rfl) (listed rfl) (listed rfl) (listed rfl) (listed rfl) (listed rfl) (listed rfl) (listed rfl) (changesOnly_refl _ _) y eq
theorem frame_hlinkIntxStatusClear (s y : State) (h : HostId) (v : Word) (eq : exec (.hlinkIntxStatusClear h v) s = .next y) : changesOnly (partsOf (.hlinkIntxStatusClear h v)) s y :=
  execHlinkIntxStatusClear_only h v s (listed rfl) (listed rfl) (changesOnly_refl _ _) y eq
theorem frame_barMemoryRequest (s y : State) (h : HostId) (r : BarReq) (eq : exec (.barMemoryRequest h r) s = .next y) : changesOnly (partsOf (.barMemoryRequest h r)) s y :=
  execBarMemoryRequest_only h r s (listed rfl) (listed rfl) (listed rfl) (listed rfl) (listed rfl) (listed rfl) (listed rfl) (listed rfl) (listed rfl) (listed rfl) (listed rfl) (listed rfl) (listed rfl) (listed rfl) (listed rfl) (listed rfl) (listed rfl) (listed rfl) (listed rfl) (changesOnly_refl _ _) y eq
theorem frame_ioOrAtomicRequest (s y : State) (h : HostId) (f : Fn) (posted : Bool) (eq : exec (.ioOrAtomicRequest h f posted) s = .next y) : changesOnly (partsOf (.ioOrAtomicRequest h f posted)) s y :=
  execIoOrAtomicRequest_only h f posted s (listed rfl) (listed rfl) (listed rfl) (listed rfl) (listed rfl) (listed rfl) (listed rfl) (listed rfl) (changesOnly_refl _ _) y eq
theorem frame_completionReceived (s y : State) (h : HostId) (tag : BitVec 14) (status : CplStatus) (data : List Byte) (eq : exec (.completionReceived h tag status data) s = .next y) : changesOnly (partsOf (.completionReceived h tag status data)) s y :=
  execCompletionReceived_only h tag status data s (listed rfl) (listed rfl) (listed rfl) (listed rfl) (listed rfl) (listed rfl) (listed rfl) (listed rfl) (listed rfl) (listed rfl) (listed rfl) (listed rfl) (listed rfl) (listed rfl) (listed rfl) (listed rfl) (changesOnly_refl _ _) y eq
theorem frame_completionTimeout (s y : State) (h : HostId) (tag : BitVec 14) (eq : exec (.completionTimeout h tag) s = .next y) : changesOnly (partsOf (.completionTimeout h tag)) s y :=
  execCompletionTimeout_only h tag s (listed rfl) (listed rfl) (listed rfl) (listed rfl) (listed rfl) (listed rfl) (listed rfl) (listed rfl) (listed rfl) (listed rfl) (listed rfl) (listed rfl) (listed rfl) (listed rfl) (listed rfl) (changesOnly_refl _ _) y eq
theorem frame_tagQuarantineEnd (s y : State) (h : HostId) (tag : BitVec 14) (eq : exec (.tagQuarantineEnd h tag) s = .next y) : changesOnly (partsOf (.tagQuarantineEnd h tag)) s y :=
  execTagQuarantineEnd_only h tag s (listed rfl) (listed rfl) (listed rfl) (changesOnly_refl _ _) y eq
theorem frame_pcieLinkError (s y : State) (h : HostId) (f : Fn) (e : LinkError) (eq : exec (.pcieLinkError h f e) s = .next y) : changesOnly (partsOf (.pcieLinkError h f e)) s y :=
  execPcieLinkError_only h f e s (listed rfl) (listed rfl) (listed rfl) (listed rfl) (listed rfl) (listed rfl) (listed rfl) (listed rfl) (listed rfl) (listed rfl) (listed rfl) (listed rfl) (listed rfl) (listed rfl) (listed rfl) (listed rfl) (listed rfl) (listed rfl) (listed rfl) (listed rfl) (listed rfl) (listed rfl) (changesOnly_refl _ _) y eq
theorem frame_txqDoorbell (s y : State) (h : HostId) (f : Fn) (q : BitVec 16) (v : Word) (eq : exec (.txqDoorbell h f q v) s = .next y) : changesOnly (partsOf (.txqDoorbell h f q v)) s y :=
  execTxqDoorbell_only h f q v s (listed rfl) (listed rfl) (listed rfl) (listed rfl) (listed rfl) (changesOnly_refl _ _) y eq
theorem frame_rxqDoorbell (s y : State) (h : HostId) (f : Fn) (q : BitVec 16) (v : Word) (eq : exec (.rxqDoorbell h f q v) s = .next y) : changesOnly (partsOf (.rxqDoorbell h f q v)) s y :=
  execRxqDoorbell_only h f q v s (listed rfl) (listed rfl) (listed rfl) (listed rfl) (listed rfl) (changesOnly_refl _ _) y eq
theorem frame_cqDoorbell (s y : State) (h : HostId) (f : Fn) (q : BitVec 16) (v : Word) (eq : exec (.cqDoorbell h f q v) s = .next y) : changesOnly (partsOf (.cqDoorbell h f q v)) s y :=
  execCqDoorbell_only h f q v s (listed rfl) (listed rfl) (listed rfl) (listed rfl) (listed rfl) (changesOnly_refl _ _) y eq
theorem frame_txDescriptorReadDone (s y : State) (h : HostId) (f : Fn) (q : BitVec 16) (d : TxDescr) (eq : exec (.txDescriptorReadDone h f q d) s = .next y) : changesOnly (partsOf (.txDescriptorReadDone h f q d)) s y :=
  execTxDescriptorReadDone_only h f q d s (listed rfl) (listed rfl) (listed rfl) (listed rfl) (listed rfl) (listed rfl) (listed rfl) (listed rfl) (listed rfl) (listed rfl) (changesOnly_refl _ _) y eq
theorem frame_txDataReadDone (s y : State) (h : HostId) (f : Fn) (q : BitVec 16) (data : List Byte) (status : CplStatus) (eq : exec (.txDataReadDone h f q data status) s = .next y) : changesOnly (partsOf (.txDataReadDone h f q data status)) s y :=
  execTxDataReadDone_only h f q data status s (listed rfl) (listed rfl) (listed rfl) (listed rfl) (listed rfl) (listed rfl) (listed rfl) (listed rfl) (listed rfl) (changesOnly_refl _ _) y eq
theorem frame_cqCoalesceTimer (s y : State) (h : HostId) (f : Fn) (q : BitVec 16) (eq : exec (.cqCoalesceTimer h f q) s = .next y) : changesOnly (partsOf (.cqCoalesceTimer h f q)) s y :=
  execCqCoalesceTimer_only h f q s (listed rfl) (listed rfl) (listed rfl) (listed rfl) (changesOnly_refl _ _) y eq
theorem frame_rxFrameArrival (s y : State) (port : Lane) (frame : List Byte) (fcsOk : Bool) (fecOk : Bool) (eq : exec (.rxFrameArrival port frame fcsOk fecOk) s = .next y) : changesOnly (partsOf (.rxFrameArrival port frame fcsOk fecOk)) s y :=
  execRxFrameArrival_only port frame fcsOk fecOk s (listed rfl) (listed rfl) (listed rfl) (listed rfl) (changesOnly_refl _ _) y eq
theorem frame_pipelineAdmit (s y : State) (pipe : Pipe) (eq : exec (.pipelineAdmit pipe) s = .next y) : changesOnly (partsOf (.pipelineAdmit pipe)) s y :=
  execPipelineAdmit_only pipe s (listed rfl) (listed rfl) (listed rfl) (listed rfl) (listed rfl) (listed rfl) (listed rfl) (listed rfl) (listed rfl) (listed rfl) (listed rfl) (listed rfl) (listed rfl) (listed rfl) (listed rfl) (listed rfl) (listed rfl) (listed rfl) (changesOnly_refl _ _) y eq
theorem frame_recircAdmit (s y : State) (pipe : Pipe) (eq : exec (.recircAdmit pipe) s = .next y) : changesOnly (partsOf (.recircAdmit pipe)) s y :=
  execRecircAdmit_only pipe s (listed rfl) (listed rfl) (listed rfl) (listed rfl) (listed rfl) (listed rfl) (listed rfl) (listed rfl) (listed rfl) (listed rfl) (listed rfl) (listed rfl) (listed rfl) (listed rfl) (listed rfl) (listed rfl) (listed rfl) (listed rfl) (changesOnly_refl _ _) y eq
theorem frame_lpmRecircReadmit (s y : State) (pipe : Pipe) (eq : exec (.lpmRecircReadmit pipe) s = .next y) : changesOnly (partsOf (.lpmRecircReadmit pipe)) s y :=
  execLpmRecircReadmit_only pipe s (listed rfl) (listed rfl) (listed rfl) (listed rfl) (listed rfl) (listed rfl) (listed rfl) (listed rfl) (listed rfl) (listed rfl) (listed rfl) (listed rfl) (listed rfl) (listed rfl) (listed rfl) (listed rfl) (listed rfl) (listed rfl) (changesOnly_refl _ _) y eq
theorem frame_cipherTileDone (s y : State) (pipe : Pipe) (eq : exec (.cipherTileDone pipe) s = .next y) : changesOnly (partsOf (.cipherTileDone pipe)) s y :=
  execCipherTileDone_only pipe s (listed rfl) (listed rfl) (listed rfl) (listed rfl) (listed rfl) (listed rfl) (listed rfl) (listed rfl) (listed rfl) (listed rfl) (listed rfl) (listed rfl) (listed rfl) (listed rfl) (listed rfl) (changesOnly_refl _ _) y eq
theorem frame_gauntletKeyFetch (s y : State) (tile : Tile) (slot : BitVec 17) (eq : exec (.gauntletKeyFetch tile slot) s = .next y) : changesOnly (partsOf (.gauntletKeyFetch tile slot)) s y :=
  execGauntletKeyFetch_only tile slot s (listed rfl) (listed rfl) (listed rfl) (listed rfl) (listed rfl) (listed rfl) (listed rfl) (listed rfl) (listed rfl) (listed rfl) (listed rfl) (listed rfl) (listed rfl) (listed rfl) (listed rfl) (changesOnly_refl _ _) y eq
theorem frame_schedSelect (s y : State) (root : SchedRoot) (eq : exec (.schedSelect root) s = .next y) : changesOnly (partsOf (.schedSelect root)) s y :=
  execSchedSelect_only root s (listed rfl) (listed rfl) (listed rfl) (listed rfl) (listed rfl) (listed rfl) (listed rfl) (listed rfl) (listed rfl) (listed rfl) (changesOnly_refl _ _) y eq
theorem frame_timingWheelSlotDue (s y : State) (slot : Nat) (eq : exec (.timingWheelSlotDue slot) s = .next y) : changesOnly (partsOf (.timingWheelSlotDue slot)) s y :=
  execTimingWheelSlotDue_only slot s (listed rfl) (changesOnly_refl _ _) y eq
theorem frame_coarseSlotDue (s y : State) (slot : Nat) (eq : exec (.coarseSlotDue slot) s = .next y) : changesOnly (partsOf (.coarseSlotDue slot)) s y :=
  execCoarseSlotDue_only slot s (listed rfl) (changesOnly_refl _ _) y eq
theorem frame_dtimeStep (s y : State) (v : Word) (eq : exec (.dtimeStep v) s = .next y) : changesOnly (partsOf (.dtimeStep v)) s y :=
  execDtimeStep_only v s (listed rfl) (listed rfl) (listed rfl) (changesOnly_refl _ _) y eq
theorem frame_dtimeRateWrite (s y : State) (v : Word) (eq : exec (.dtimeRateWrite v) s = .next y) : changesOnly (partsOf (.dtimeRateWrite v)) s y :=
  execDtimeRateWrite_only v s (listed rfl) (changesOnly_refl _ _) y eq
theorem frame_rxDeliveryWriteDone (s y : State) (h : HostId) (eq : exec (.rxDeliveryWriteDone h) s = .next y) : changesOnly (partsOf (.rxDeliveryWriteDone h)) s y :=
  execRxDeliveryWriteDone_only h s (listed rfl) (listed rfl) (listed rfl) (listed rfl) (listed rfl) (listed rfl) (changesOnly_refl _ _) y eq
theorem frame_txFrameSent (s y : State) (port : Lane) (eq : exec (.txFrameSent port) s = .next y) : changesOnly (partsOf (.txFrameSent port)) s y :=
  execTxFrameSent_only port s (listed rfl) (listed rfl) (listed rfl) (listed rfl) (listed rfl) (listed rfl) (listed rfl) (listed rfl) (changesOnly_refl _ _) y eq
theorem frame_ethApply (s y : State) (g : Group) (eq : exec (.ethApply g) s = .next y) : changesOnly (partsOf (.ethApply g)) s y :=
  execEthApply_only g s (listed rfl) (listed rfl) (listed rfl) (listed rfl) (listed rfl) (listed rfl) (listed rfl) (listed rfl) (listed rfl) (changesOnly_refl _ _) y eq
theorem frame_ethApplyDone (s y : State) (g : Group) (eq : exec (.ethApplyDone g) s = .next y) : changesOnly (partsOf (.ethApplyDone g)) s y :=
  execEthApplyDone_only g s (listed rfl) (listed rfl) (listed rfl) (changesOnly_refl _ _) y eq
theorem frame_anComplete (s y : State) (port : Lane) (partner : Option AnPage) (eq : exec (.anComplete port partner) s = .next y) : changesOnly (partsOf (.anComplete port partner)) s y :=
  execAnComplete_only port partner s (listed rfl) (listed rfl) (changesOnly_refl _ _) y eq
theorem frame_anFailedRestart (s y : State) (port : Lane) (eq : exec (.anFailedRestart port) s = .next y) : changesOnly (partsOf (.anFailedRestart port)) s y :=
  execAnFailedRestart_only port s (listed rfl) (changesOnly_refl _ _) y eq
theorem frame_trainingDone (s y : State) (port : Lane) (ok : Bool) (eq : exec (.trainingDone port ok) s = .next y) : changesOnly (partsOf (.trainingDone port ok)) s y :=
  execTrainingDone_only port ok s (listed rfl) (listed rfl) (changesOnly_refl _ _) y eq
theorem frame_alignmentDone (s y : State) (port : Lane) (eq : exec (.alignmentDone port) s = .next y) : changesOnly (partsOf (.alignmentDone port)) s y :=
  execAlignmentDone_only port s (listed rfl) (listed rfl) (listed rfl) (changesOnly_refl _ _) y eq
theorem frame_faultSequencesReceived (s y : State) (port : Lane) (k : FaultSeq) (eq : exec (.faultSequencesReceived port k) s = .next y) : changesOnly (partsOf (.faultSequencesReceived port k)) s y :=
  execFaultSequencesReceived_only port k s (listed rfl) (listed rfl) (listed rfl) (listed rfl) (changesOnly_refl _ _) y eq
theorem frame_faultSequencesStop (s y : State) (port : Lane) (eq : exec (.faultSequencesStop port) s = .next y) : changesOnly (partsOf (.faultSequencesStop port)) s y :=
  execFaultSequencesStop_only port s (listed rfl) (listed rfl) (listed rfl) (changesOnly_refl _ _) y eq
theorem frame_alignmentLost (s y : State) (port : Lane) (k : AlignLoss) (eq : exec (.alignmentLost port k) s = .next y) : changesOnly (partsOf (.alignmentLost port k)) s y :=
  execAlignmentLost_only port k s (listed rfl) (listed rfl) (listed rfl) (changesOnly_refl _ _) y eq
theorem frame_alignmentReturnInHold (s y : State) (port : Lane) (eq : exec (.alignmentReturnInHold port) s = .next y) : changesOnly (partsOf (.alignmentReturnInHold port)) s y :=
  execAlignmentReturnInHold_only port s (listed rfl) (listed rfl) (changesOnly_refl _ _) y eq
theorem frame_holdoffExpiry (s y : State) (port : Lane) (eq : exec (.holdoffExpiry port) s = .next y) : changesOnly (partsOf (.holdoffExpiry port)) s y :=
  execHoldoffExpiry_only port s (listed rfl) (listed rfl) (changesOnly_refl _ _) y eq
theorem frame_ethLaneFault (s y : State) (lane : Lane) (eq : exec (.ethLaneFault lane) s = .next y) : changesOnly (partsOf (.ethLaneFault lane)) s y :=
  execEthLaneFault_only lane s (listed rfl) (listed rfl) (listed rfl) (listed rfl) (listed rfl) (listed rfl) (listed rfl) (listed rfl) (listed rfl) (listed rfl) (listed rfl) (listed rfl) (listed rfl) (changesOnly_refl _ _) y eq
theorem frame_hodCarveApply (s y : State) (eq : exec .hodCarveApply s = .next y) : changesOnly (partsOf .hodCarveApply) s y :=
  execHodCarveApply_only s (listed rfl) (changesOnly_refl _ _) y eq
theorem frame_hodCarveApplyDone (s y : State) (eq : exec .hodCarveApplyDone s = .next y) : changesOnly (partsOf .hodCarveApplyDone) s y :=
  execHodCarveApplyDone_only s (listed rfl) (changesOnly_refl _ _) y eq
theorem frame_txHodWaitEnd (s y : State) (h : HostId) (f : Fn) (q : BitVec 16) (eq : exec (.txHodWaitEnd h f q) s = .next y) : changesOnly (partsOf (.txHodWaitEnd h f q)) s y :=
  execTxHodWaitEnd_only h f q s (listed rfl) (listed rfl) (listed rfl) (listed rfl) (changesOnly_refl _ _) y eq
theorem frame_contextFetchDone (s y : State) (d : Domain) (n : ConnNo) (r : FetchResult) (eq : exec (.contextFetchDone d n r) s = .next y) : changesOnly (partsOf (.contextFetchDone d n r)) s y :=
  execContextFetchDone_only d n r s (listed rfl) (listed rfl) (listed rfl) (listed rfl) (listed rfl) (listed rfl) (listed rfl) (listed rfl) (listed rfl) (listed rfl) (listed rfl) (listed rfl) (changesOnly_refl _ _) y eq
theorem frame_evictionWriteDone (s y : State) (d : Domain) (n : ConnNo) (ok : Bool) (eq : exec (.evictionWriteDone d n ok) s = .next y) : changesOnly (partsOf (.evictionWriteDone d n ok)) s y :=
  execEvictionWriteDone_only d n ok s (listed rfl) (listed rfl) (listed rfl) (listed rfl) (listed rfl) (changesOnly_refl _ _) y eq
theorem frame_fetchNoVictimRetry (s y : State) (d : Domain) (n : ConnNo) (eq : exec (.fetchNoVictimRetry d n) s = .next y) : changesOnly (partsOf (.fetchNoVictimRetry d n)) s y :=
  execFetchNoVictimRetry_only d n s (listed rfl) (listed rfl) (listed rfl) (listed rfl) (listed rfl) (changesOnly_refl _ _) y eq
theorem frame_lrdExecutionDone (s y : State) (d : Domain) (n : ConnNo) (psn : BitVec 32) (eq : exec (.lrdExecutionDone d n psn) s = .next y) : changesOnly (partsOf (.lrdExecutionDone d n psn)) s y :=
  execLrdExecutionDone_only d n psn s (listed rfl) (listed rfl) (listed rfl) (listed rfl) (listed rfl) (listed rfl) (listed rfl) (listed rfl) (listed rfl) (listed rfl) (listed rfl) (listed rfl) (listed rfl) (changesOnly_refl _ _) y eq
theorem frame_lrdExecutionFailed (s y : State) (d : Domain) (n : ConnNo) (psn : BitVec 32) (eq : exec (.lrdExecutionFailed d n psn) s = .next y) : changesOnly (partsOf (.lrdExecutionFailed d n psn)) s y :=
  execLrdExecutionFailed_only d n psn s (listed rfl) (listed rfl) (changesOnly_refl _ _) y eq
theorem frame_lrdAckRx (s y : State) (d : Domain) (n : ConnNo) (eq : exec (.lrdAckRx d n) s = .next y) : changesOnly (partsOf (.lrdAckRx d n)) s y :=
  execLrdAckRx_only d n s (listed rfl) (listed rfl) (listed rfl) (listed rfl) (listed rfl) (listed rfl) (listed rfl) (changesOnly_refl _ _) y eq
theorem frame_lrdNakRx (s y : State) (d : Domain) (n : ConnNo) (eq : exec (.lrdNakRx d n) s = .next y) : changesOnly (partsOf (.lrdNakRx d n)) s y :=
  execLrdNakRx_only d n s (listed rfl) (listed rfl) (listed rfl) (listed rfl) (listed rfl) (listed rfl) (listed rfl) (listed rfl) (listed rfl) (listed rfl) (listed rfl) (listed rfl) (listed rfl) (changesOnly_refl _ _) y eq
theorem frame_lrdReadRspRx (s y : State) (d : Domain) (n : ConnNo) (eq : exec (.lrdReadRspRx d n) s = .next y) : changesOnly (partsOf (.lrdReadRspRx d n)) s y :=
  execLrdReadRspRx_only d n s (listed rfl) (listed rfl) (listed rfl) (listed rfl) (listed rfl) (listed rfl) (listed rfl) (changesOnly_refl _ _) y eq
theorem frame_lrdProbeRx (s y : State) (d : Domain) (n : ConnNo) (eq : exec (.lrdProbeRx d n) s = .next y) : changesOnly (partsOf (.lrdProbeRx d n)) s y :=
  execLrdProbeRx_only d n s (listed rfl) (listed rfl) (changesOnly_refl _ _) y eq
theorem frame_lrdSqDoorbell (s y : State) (d : Domain) (n : ConnNo) (v : Word) (wrs : List WorkRequest) (eq : exec (.lrdSqDoorbell d n v wrs) s = .next y) : changesOnly (partsOf (.lrdSqDoorbell d n v wrs)) s y :=
  execLrdSqDoorbell_only d n v wrs s (listed rfl) (listed rfl) (listed rfl) (listed rfl) (listed rfl) (listed rfl) (listed rfl) (listed rfl) (listed rfl) (listed rfl) (changesOnly_refl _ _) y eq
theorem frame_lrdRqDoorbell (s y : State) (d : Domain) (n : ConnNo) (v : Word) (bufs : List RecvBuffer) (eq : exec (.lrdRqDoorbell d n v bufs) s = .next y) : changesOnly (partsOf (.lrdRqDoorbell d n v bufs)) s y :=
  execLrdRqDoorbell_only d n v bufs s (listed rfl) (listed rfl) (listed rfl) (listed rfl) (listed rfl) (listed rfl) (listed rfl) (listed rfl) (listed rfl) (changesOnly_refl _ _) y eq
theorem frame_lrdRetransmitTimer (s y : State) (d : Domain) (n : ConnNo) (eq : exec (.lrdRetransmitTimer d n) s = .next y) : changesOnly (partsOf (.lrdRetransmitTimer d n)) s y :=
  execLrdRetransmitTimer_only d n s (listed rfl) (listed rfl) (listed rfl) (listed rfl) (listed rfl) (listed rfl) (listed rfl) (listed rfl) (listed rfl) (listed rfl) (listed rfl) (listed rfl) (listed rfl) (changesOnly_refl _ _) y eq
theorem frame_lrdProbeTimer (s y : State) (d : Domain) (n : ConnNo) (eq : exec (.lrdProbeTimer d n) s = .next y) : changesOnly (partsOf (.lrdProbeTimer d n)) s y :=
  execLrdProbeTimer_only d n s (listed rfl) (listed rfl) (changesOnly_refl _ _) y eq
theorem frame_lrdAckDelayTimer (s y : State) (d : Domain) (n : ConnNo) (eq : exec (.lrdAckDelayTimer d n) s = .next y) : changesOnly (partsOf (.lrdAckDelayTimer d n)) s y :=
  execLrdAckDelayTimer_only d n s (listed rfl) (changesOnly_refl _ _) y eq
theorem frame_lrdRnrTimer (s y : State) (d : Domain) (n : ConnNo) (eq : exec (.lrdRnrTimer d n) s = .next y) : changesOnly (partsOf (.lrdRnrTimer d n)) s y :=
  execLrdRnrTimer_only d n s (listed rfl) (changesOnly_refl _ _) y eq
theorem frame_recentListExpiry (s y : State) (d : Domain) (n : ConnNo) (eq : exec (.recentListExpiry d n) s = .next y) : changesOnly (partsOf (.recentListExpiry d n)) s y :=
  execRecentListExpiry_only d n s (listed rfl) (changesOnly_refl _ _) y eq
theorem frame_nvmeSqDoorbell (s y : State) (h : HostId) (f : Fn) (q : BitVec 16) (v : Word) (eq : exec (.nvmeSqDoorbell h f q v) s = .next y) : changesOnly (partsOf (.nvmeSqDoorbell h f q v)) s y :=
  execNvmeSqDoorbell_only h f q v s (listed rfl) (changesOnly_refl _ _) y eq
theorem frame_nvmeCqDoorbell (s y : State) (h : HostId) (f : Fn) (q : BitVec 16) (v : Word) (eq : exec (.nvmeCqDoorbell h f q v) s = .next y) : changesOnly (partsOf (.nvmeCqDoorbell h f q v)) s y :=
  execNvmeCqDoorbell_only h f q v s (listed rfl) (listed rfl) (listed rfl) (listed rfl) (changesOnly_refl _ _) y eq
theorem frame_nvmeCcEnSet (s y : State) (h : HostId) (f : Fn) (cc : Word) (eq : exec (.nvmeCcEnSet h f cc) s = .next y) : changesOnly (partsOf (.nvmeCcEnSet h f cc)) s y :=
  execNvmeCcEnSet_only h f cc s (listed rfl) (changesOnly_refl _ _) y eq
theorem frame_nvmeCcEnClear (s y : State) (h : HostId) (f : Fn) (eq : exec (.nvmeCcEnClear h f) s = .next y) : changesOnly (partsOf (.nvmeCcEnClear h f)) s y :=
  execNvmeCcEnClear_only h f s (listed rfl) (listed rfl) (listed rfl) (listed rfl) (listed rfl) (listed rfl) (listed rfl) (listed rfl) (listed rfl) (listed rfl) (listed rfl) (changesOnly_refl _ _) y eq
theorem frame_nvmeShutdown (s y : State) (h : HostId) (f : Fn) (abrupt : Bool) (eq : exec (.nvmeShutdown h f abrupt) s = .next y) : changesOnly (partsOf (.nvmeShutdown h f abrupt)) s y :=
  execNvmeShutdown_only h f abrupt s (listed rfl) (listed rfl) (listed rfl) (listed rfl) (listed rfl) (listed rfl) (listed rfl) (listed rfl) (listed rfl) (listed rfl) (listed rfl) (changesOnly_refl _ _) y eq
theorem frame_nvmeIntmsIntmc (s y : State) (h : HostId) (f : Fn) (clear : Bool) (v : Word) (eq : exec (.nvmeIntmsIntmc h f clear v) s = .next y) : changesOnly (partsOf (.nvmeIntmsIntmc h f clear v)) s y :=
  execNvmeIntmsIntmc_only h f clear v s (listed rfl) (listed rfl) (listed rfl) (changesOnly_refl _ _) y eq
theorem frame_nvmeCreateIoSq (s y : State) (h : HostId) (f : Fn) (e : Sqe) (eq : exec (.nvmeCreateIoSq h f e) s = .next y) : changesOnly (partsOf (.nvmeCreateIoSq h f e)) s y :=
  execNvmeCreateIoSq_only h f e s (listed rfl) (listed rfl) (listed rfl) (listed rfl) (listed rfl) (changesOnly_refl _ _) y eq
theorem frame_nvmeCreateIoCq (s y : State) (h : HostId) (f : Fn) (e : Sqe) (eq : exec (.nvmeCreateIoCq h f e) s = .next y) : changesOnly (partsOf (.nvmeCreateIoCq h f e)) s y :=
  execNvmeCreateIoCq_only h f e s (listed rfl) (listed rfl) (listed rfl) (listed rfl) (listed rfl) (changesOnly_refl _ _) y eq
theorem frame_nvmeDeleteIoSq (s y : State) (h : HostId) (f : Fn) (e : Sqe) (eq : exec (.nvmeDeleteIoSq h f e) s = .next y) : changesOnly (partsOf (.nvmeDeleteIoSq h f e)) s y :=
  execNvmeDeleteIoSq_only h f e s (listed rfl) (listed rfl) (listed rfl) (listed rfl) (listed rfl) (listed rfl) (listed rfl) (listed rfl) (listed rfl) (listed rfl) (listed rfl) (changesOnly_refl _ _) y eq
theorem frame_nvmeDeleteIoCq (s y : State) (h : HostId) (f : Fn) (e : Sqe) (eq : exec (.nvmeDeleteIoCq h f e) s = .next y) : changesOnly (partsOf (.nvmeDeleteIoCq h f e)) s y :=
  execNvmeDeleteIoCq_only h f e s (listed rfl) (listed rfl) (listed rfl) (listed rfl) (listed rfl) (changesOnly_refl _ _) y eq
theorem frame_nvmeGetLogPage (s y : State) (h : HostId) (f : Fn) (e : Sqe) (eq : exec (.nvmeGetLogPage h f e) s = .next y) : changesOnly (partsOf (.nvmeGetLogPage h f e)) s y :=
  execNvmeGetLogPage_only h f e s (listed rfl) (listed rfl) (listed rfl) (listed rfl) (listed rfl) (changesOnly_refl _ _) y eq
theorem frame_nvmeIdentify (s y : State) (h : HostId) (f : Fn) (e : Sqe) (eq : exec (.nvmeIdentify h f e) s = .next y) : changesOnly (partsOf (.nvmeIdentify h f e)) s y :=
  execNvmeIdentify_only h f e s (listed rfl) (listed rfl) (listed rfl) (listed rfl) (listed rfl) (changesOnly_refl _ _) y eq
theorem frame_nvmeAbort (s y : State) (h : HostId) (f : Fn) (e : Sqe) (eq : exec (.nvmeAbort h f e) s = .next y) : changesOnly (partsOf (.nvmeAbort h f e)) s y :=
  execNvmeAbort_only h f e s (listed rfl) (listed rfl) (listed rfl) (listed rfl) (listed rfl) (listed rfl) (listed rfl) (listed rfl) (listed rfl) (listed rfl) (listed rfl) (changesOnly_refl _ _) y eq
theorem frame_nvmeSetFeatures (s y : State) (h : HostId) (f : Fn) (e : Sqe) (eq : exec (.nvmeSetFeatures h f e) s = .next y) : changesOnly (partsOf (.nvmeSetFeatures h f e)) s y :=
  execNvmeSetFeatures_only h f e s (listed rfl) (listed rfl) (listed rfl) (listed rfl) (listed rfl) (changesOnly_refl _ _) y eq
theorem frame_nvmeGetFeatures (s y : State) (h : HostId) (f : Fn) (e : Sqe) (eq : exec (.nvmeGetFeatures h f e) s = .next y) : changesOnly (partsOf (.nvmeGetFeatures h f e)) s y :=
  execNvmeGetFeatures_only h f e s (listed rfl) (listed rfl) (listed rfl) (listed rfl) (listed rfl) (changesOnly_refl _ _) y eq
theorem frame_nvmeAsyncEventRequest (s y : State) (h : HostId) (f : Fn) (e : Sqe) (eq : exec (.nvmeAsyncEventRequest h f e) s = .next y) : changesOnly (partsOf (.nvmeAsyncEventRequest h f e)) s y :=
  execNvmeAsyncEventRequest_only h f e s (listed rfl) (listed rfl) (listed rfl) (listed rfl) (listed rfl) (changesOnly_refl _ _) y eq
theorem frame_nvmeDeviceSelfTest (s y : State) (h : HostId) (f : Fn) (e : Sqe) (eq : exec (.nvmeDeviceSelfTest h f e) s = .next y) : changesOnly (partsOf (.nvmeDeviceSelfTest h f e)) s y :=
  execNvmeDeviceSelfTest_only h f e s (listed rfl) (listed rfl) (listed rfl) (listed rfl) (listed rfl) (changesOnly_refl _ _) y eq
theorem frame_nvmeFormatNvm (s y : State) (h : HostId) (f : Fn) (e : Sqe) (eq : exec (.nvmeFormatNvm h f e) s = .next y) : changesOnly (partsOf (.nvmeFormatNvm h f e)) s y :=
  execNvmeFormatNvm_only h f e s (listed rfl) (listed rfl) (listed rfl) (listed rfl) (listed rfl) (listed rfl) (listed rfl) (listed rfl) (listed rfl) (listed rfl) (listed rfl) (changesOnly_refl _ _) y eq
theorem frame_nvmeFlush (s y : State) (h : HostId) (f : Fn) (e : Sqe) (eq : exec (.nvmeFlush h f e) s = .next y) : changesOnly (partsOf (.nvmeFlush h f e)) s y :=
  execNvmeFlush_only h f e s (listed rfl) (listed rfl) (listed rfl) (listed rfl) (listed rfl) (listed rfl) (listed rfl) (listed rfl) (listed rfl) (listed rfl) (listed rfl) (changesOnly_refl _ _) y eq
theorem frame_nvmeWrite (s y : State) (h : HostId) (f : Fn) (e : Sqe) (eq : exec (.nvmeWrite h f e) s = .next y) : changesOnly (partsOf (.nvmeWrite h f e)) s y :=
  execNvmeWrite_only h f e s (listed rfl) (listed rfl) (listed rfl) (listed rfl) (listed rfl) (listed rfl) (changesOnly_refl _ _) y eq
theorem frame_nvmeRead (s y : State) (h : HostId) (f : Fn) (e : Sqe) (eq : exec (.nvmeRead h f e) s = .next y) : changesOnly (partsOf (.nvmeRead h f e)) s y :=
  execNvmeRead_only h f e s (listed rfl) (listed rfl) (listed rfl) (listed rfl) (listed rfl) (listed rfl) (listed rfl) (listed rfl) (listed rfl) (listed rfl) (listed rfl) (changesOnly_refl _ _) y eq
theorem frame_nvmeWriteZeroes (s y : State) (h : HostId) (f : Fn) (e : Sqe) (eq : exec (.nvmeWriteZeroes h f e) s = .next y) : changesOnly (partsOf (.nvmeWriteZeroes h f e)) s y :=
  execNvmeWriteZeroes_only h f e s (listed rfl) (listed rfl) (listed rfl) (listed rfl) (listed rfl) (listed rfl) (changesOnly_refl _ _) y eq
theorem frame_nvmeDatasetManagement (s y : State) (h : HostId) (f : Fn) (e : Sqe) (eq : exec (.nvmeDatasetManagement h f e) s = .next y) : changesOnly (partsOf (.nvmeDatasetManagement h f e)) s y :=
  execNvmeDatasetManagement_only h f e s (listed rfl) (listed rfl) (listed rfl) (listed rfl) (listed rfl) (listed rfl) (changesOnly_refl _ _) y eq
theorem frame_nvmeUnsupportedCommand (s y : State) (h : HostId) (f : Fn) (e : Sqe) (eq : exec (.nvmeUnsupportedCommand h f e) s = .next y) : changesOnly (partsOf (.nvmeUnsupportedCommand h f e)) s y :=
  execNvmeUnsupportedCommand_only h f e s (listed rfl) (listed rfl) (listed rfl) (listed rfl) (listed rfl) (changesOnly_refl _ _) y eq
theorem frame_writeInsertion (s y : State) (h : HostId) (f : Fn) (sq : BitVec 16) (cid : BitVec 16) (data : List Byte) (eq : exec (.writeInsertion h f sq cid data) s = .next y) : changesOnly (partsOf (.writeInsertion h f sq cid data)) s y :=
  execWriteInsertion_only h f sq cid data s (listed rfl) (listed rfl) (listed rfl) (listed rfl) (listed rfl) (listed rfl) (listed rfl) (listed rfl) (listed rfl) (listed rfl) (listed rfl) (changesOnly_refl _ _) y eq
theorem frame_wcacheWaitEnd (s y : State) (h : HostId) (eq : exec (.wcacheWaitEnd h) s = .next y) : changesOnly (partsOf (.wcacheWaitEnd h)) s y :=
  execWcacheWaitEnd_only h s (listed rfl) (listed rfl) (listed rfl) (listed rfl) (listed rfl) (listed rfl) (listed rfl) (listed rfl) (listed rfl) (listed rfl) (listed rfl) (changesOnly_refl _ _) y eq
theorem frame_destageStart (s y : State) (ns : NsId) (seg : Nat) (eq : exec (.destageStart ns seg) s = .next y) : changesOnly (partsOf (.destageStart ns seg)) s y :=
  execDestageStart_only ns seg s (listed rfl) (listed rfl) (listed rfl) (listed rfl) (changesOnly_refl _ _) y eq
theorem frame_destageDone (s y : State) (ns : NsId) (seg : Nat) (r : BackingResult) (eq : exec (.destageDone ns seg r) s = .next y) : changesOnly (partsOf (.destageDone ns seg r)) s y :=
  execDestageDone_only ns seg r s (listed rfl) (listed rfl) (listed rfl) (listed rfl) (listed rfl) (listed rfl) (listed rfl) (listed rfl) (listed rfl) (listed rfl) (listed rfl) (changesOnly_refl _ _) y eq
theorem frame_backingReadDone (s y : State) (h : HostId) (f : Fn) (sq : BitVec 16) (cid : BitVec 16) (r : BackingResult) (data : List Byte) (eq : exec (.backingReadDone h f sq cid r data) s = .next y) : changesOnly (partsOf (.backingReadDone h f sq cid r data)) s y :=
  execBackingReadDone_only h f sq cid r data s (listed rfl) (listed rfl) (listed rfl) (listed rfl) (listed rfl) (listed rfl) (listed rfl) (listed rfl) (listed rfl) (listed rfl) (listed rfl) (changesOnly_refl _ _) y eq
theorem frame_drivePresent (s y : State) (d : DrivePort) (eq : exec (.drivePresent d) s = .next y) : changesOnly (partsOf (.drivePresent d)) s y :=
  execDrivePresent_only d s (listed rfl) (listed rfl) (changesOnly_refl _ _) y eq
theorem frame_driveSurpriseRemoval (s y : State) (d : DrivePort) (linkDrop : Bool) (eq : exec (.driveSurpriseRemoval d linkDrop) s = .next y) : changesOnly (partsOf (.driveSurpriseRemoval d linkDrop)) s y :=
  execDriveSurpriseRemoval_only d linkDrop s (listed rfl) (listed rfl) (listed rfl) (listed rfl) (listed rfl) (listed rfl) (listed rfl) (listed rfl) (listed rfl) (listed rfl) (listed rfl) (listed rfl) (changesOnly_refl _ _) y eq
theorem frame_driveLinkUp (s y : State) (d : DrivePort) (t : LinkTraining) (eq : exec (.driveLinkUp d t) s = .next y) : changesOnly (partsOf (.driveLinkUp d t)) s y :=
  execDriveLinkUp_only d t s (listed rfl) (changesOnly_refl _ _) y eq
theorem frame_driveInitialised (s y : State) (d : DrivePort) (found : DriveIdentity) (eq : exec (.driveInitialised d found) s = .next y) : changesOnly (partsOf (.driveInitialised d found)) s y :=
  execDriveInitialised_only d found s (listed rfl) (listed rfl) (listed rfl) (listed rfl) (listed rfl) (listed rfl) (listed rfl) (listed rfl) (listed rfl) (listed rfl) (listed rfl) (listed rfl) (changesOnly_refl _ _) y eq
theorem frame_driveInitTimeout (s y : State) (d : DrivePort) (eq : exec (.driveInitTimeout d) s = .next y) : changesOnly (partsOf (.driveInitTimeout d)) s y :=
  execDriveInitTimeout_only d s (listed rfl) (listed rfl) (listed rfl) (listed rfl) (listed rfl) (listed rfl) (listed rfl) (listed rfl) (listed rfl) (listed rfl) (listed rfl) (listed rfl) (changesOnly_refl _ _) y eq
theorem frame_driveCommandTimeout (s y : State) (d : DrivePort) (cid : BitVec 16) (second : Bool) (eq : exec (.driveCommandTimeout d cid second) s = .next y) : changesOnly (partsOf (.driveCommandTimeout d cid second)) s y :=
  execDriveCommandTimeout_only d cid second s (listed rfl) (listed rfl) (listed rfl) (listed rfl) (listed rfl) (listed rfl) (listed rfl) (listed rfl) (listed rfl) (listed rfl) (listed rfl) (listed rfl) (changesOnly_refl _ _) y eq
theorem frame_driveCfs (s y : State) (d : DrivePort) (eq : exec (.driveCfs d) s = .next y) : changesOnly (partsOf (.driveCfs d)) s y :=
  execDriveCfs_only d s (listed rfl) (listed rfl) (listed rfl) (listed rfl) (listed rfl) (listed rfl) (listed rfl) (listed rfl) (listed rfl) (listed rfl) (listed rfl) (listed rfl) (changesOnly_refl _ _) y eq
theorem frame_driveCompletion (s y : State) (d : DrivePort) (cid : BitVec 16) (r : BackingResult) (eq : exec (.driveCompletion d cid r) s = .next y) : changesOnly (partsOf (.driveCompletion d cid r)) s y :=
  execDriveCompletion_only d cid r s (listed rfl) (listed rfl) (listed rfl) (listed rfl) (listed rfl) (listed rfl) (listed rfl) (listed rfl) (listed rfl) (listed rfl) (listed rfl) (listed rfl) (changesOnly_refl _ _) y eq
theorem frame_driveAttnButton (s y : State) (d : DrivePort) (eq : exec (.driveAttnButton d) s = .next y) : changesOnly (partsOf (.driveAttnButton d)) s y :=
  execDriveAttnButton_only d s (listed rfl) (listed rfl) (changesOnly_refl _ _) y eq
theorem frame_driveDmaViolation (s y : State) (d : DrivePort) (addr : DWord) (header : List Word) (eq : exec (.driveDmaViolation d addr header) s = .next y) : changesOnly (partsOf (.driveDmaViolation d addr header)) s y :=
  execDriveDmaViolation_only d addr header s (listed rfl) (listed rfl) (listed rfl) (listed rfl) (listed rfl) (listed rfl) (listed rfl) (changesOnly_refl _ _) y eq
theorem frame_bstatusTimeout (s y : State) (target : BitVec 12) (tag : Word) (eq : exec (.bstatusTimeout target tag) s = .next y) : changesOnly (partsOf (.bstatusTimeout target tag)) s y :=
  execBstatusTimeout_only target tag s (listed rfl) (listed rfl) (listed rfl) (listed rfl) (listed rfl) (listed rfl) (listed rfl) (listed rfl) (listed rfl) (listed rfl) (listed rfl) (changesOnly_refl _ _) y eq
theorem frame_remoteDestageRetry (s y : State) (ns : NsId) (seg : Nat) (eq : exec (.remoteDestageRetry ns seg) s = .next y) : changesOnly (partsOf (.remoteDestageRetry ns seg)) s y :=
  execRemoteDestageRetry_only ns seg s (listed rfl) (listed rfl) (listed rfl) (listed rfl) (changesOnly_refl _ _) y eq
theorem frame_selfTestStep (s y : State) (h : HostId) (f : Fn) (failed : Bool) (eq : exec (.selfTestStep h f failed) s = .next y) : changesOnly (partsOf (.selfTestStep h f failed)) s y :=
  execSelfTestStep_only h f failed s (listed rfl) (listed rfl) (changesOnly_refl _ _) y eq
theorem frame_keyAlarmSource (s y : State) (code : Byte) (slot : BitVec 17) (eq : exec (.keyAlarmSource code slot) s = .next y) : changesOnly (partsOf (.keyAlarmSource code slot)) s y :=
  execKeyAlarmSource_only code slot s (listed rfl) (listed rfl) (listed rfl) (listed rfl) (listed rfl) (listed rfl) (listed rfl) (listed rfl) (listed rfl) (listed rfl) (listed rfl) (listed rfl) (changesOnly_refl _ _) y eq
theorem frame_lookasideJobDone (s y : State) (tile : Fin 4) (eq : exec (.lookasideJobDone tile) s = .next y) : changesOnly (partsOf (.lookasideJobDone tile)) s y :=
  execLookasideJobDone_only tile s (listed rfl) (listed rfl) (listed rfl) (listed rfl) (changesOnly_refl _ _) y eq
theorem frame_lookasideSuspend (s y : State) (tile : Fin 4) (eq : exec (.lookasideSuspend tile) s = .next y) : changesOnly (partsOf (.lookasideSuspend tile)) s y :=
  execLookasideSuspend_only tile s (listed rfl) (listed rfl) (listed rfl) (listed rfl) (listed rfl) (changesOnly_refl _ _) y eq
theorem frame_pageFetchDone (s y : State) (tile : Fin 4) (page : Nat) (data : List Byte) (tagOk : Bool) (eq : exec (.pageFetchDone tile page data tagOk) s = .next y) : changesOnly (partsOf (.pageFetchDone tile page data tagOk)) s y :=
  execPageFetchDone_only tile page data tagOk s (listed rfl) (listed rfl) (listed rfl) (changesOnly_refl _ _) y eq
theorem frame_coreInstruction (s y : State) (cl : Cluster) (co : CoreIx) (eq : exec (.coreInstruction cl co) s = .next y) : changesOnly (partsOf (.coreInstruction cl co)) s y :=
  execCoreInstruction_only cl co s (listed rfl) (listed rfl) (listed rfl) (listed rfl) (listed rfl) (listed rfl) (listed rfl) (listed rfl) (listed rfl) (listed rfl) (listed rfl) (changesOnly_refl _ _) y eq
theorem frame_tfork (s y : State) (cl : Cluster) (co : CoreIx) (t : ThreadIx) (rd rs1 rs2 : RegNo) (eq : exec (.tfork cl co t rd rs1 rs2) s = .next y) : changesOnly (partsOf (.tfork cl co t rd rs1 rs2)) s y :=
  execTfork_only cl co t rd rs1 rs2 s (listed rfl) (listed rfl) (listed rfl) (listed rfl) (listed rfl) (listed rfl) (changesOnly_refl _ _) y eq
theorem frame_tforkd (s y : State) (cl : Cluster) (co : CoreIx) (t : ThreadIx) (rd rs1 rs2 : RegNo) (eq : exec (.tforkd cl co t rd rs1 rs2) s = .next y) : changesOnly (partsOf (.tforkd cl co t rd rs1 rs2)) s y :=
  execTforkd_only cl co t rd rs1 rs2 s (listed rfl) (listed rfl) (listed rfl) (listed rfl) (listed rfl) (listed rfl) (changesOnly_refl _ _) y eq
theorem frame_texit (s y : State) (cl : Cluster) (co : CoreIx) (t : ThreadIx) (rs1 : RegNo) (eq : exec (.texit cl co t rs1) s = .next y) : changesOnly (partsOf (.texit cl co t rs1)) s y :=
  execTexit_only cl co t rs1 s (listed rfl) (listed rfl) (listed rfl) (listed rfl) (listed rfl) (listed rfl) (changesOnly_refl _ _) y eq
theorem frame_tjoin (s y : State) (cl : Cluster) (co : CoreIx) (t : ThreadIx) (rd rs1 : RegNo) (eq : exec (.tjoin cl co t rd rs1) s = .next y) : changesOnly (partsOf (.tjoin cl co t rd rs1)) s y :=
  execTjoin_only cl co t rd rs1 s (listed rfl) (listed rfl) (listed rfl) (listed rfl) (listed rfl) (listed rfl) (changesOnly_refl _ _) y eq
theorem frame_twait (s y : State) (cl : Cluster) (co : CoreIx) (t : ThreadIx) (rd rs1 : RegNo) (eq : exec (.twait cl co t rd rs1) s = .next y) : changesOnly (partsOf (.twait cl co t rd rs1)) s y :=
  execTwait_only cl co t rd rs1 s (listed rfl) (listed rfl) (listed rfl) (listed rfl) (listed rfl) (listed rfl) (changesOnly_refl _ _) y eq
theorem frame_tsignal (s y : State) (cl : Cluster) (co : CoreIx) (t : ThreadIx) (rd rs1 rs2 : RegNo) (eq : exec (.tsignal cl co t rd rs1 rs2) s = .next y) : changesOnly (partsOf (.tsignal cl co t rd rs1 rs2)) s y :=
  execTsignal_only cl co t rd rs1 rs2 s (listed rfl) (listed rfl) (listed rfl) (listed rfl) (listed rfl) (listed rfl) (changesOnly_refl _ _) y eq
theorem frame_ttimer (s y : State) (cl : Cluster) (co : CoreIx) (t : ThreadIx) (rs1 : RegNo) (eq : exec (.ttimer cl co t rs1) s = .next y) : changesOnly (partsOf (.ttimer cl co t rs1)) s y :=
  execTtimer_only cl co t rs1 s (listed rfl) (listed rfl) (listed rfl) (listed rfl) (listed rfl) (listed rfl) (changesOnly_refl _ _) y eq
theorem frame_tyield (s y : State) (cl : Cluster) (co : CoreIx) (t : ThreadIx) (eq : exec (.tyield cl co t) s = .next y) : changesOnly (partsOf (.tyield cl co t)) s y :=
  execTyield_only cl co t s (listed rfl) (listed rfl) (listed rfl) (listed rfl) (listed rfl) (listed rfl) (changesOnly_refl _ _) y eq
theorem frame_hrd (s y : State) (cl : Cluster) (co : CoreIx) (t : ThreadIx) (rd : RegNo) (ix : Fin 64) (eq : exec (.hrd cl co t rd ix) s = .next y) : changesOnly (partsOf (.hrd cl co t rd ix)) s y :=
  execHrd_only cl co t rd ix s (listed rfl) (listed rfl) (listed rfl) (listed rfl) (listed rfl) (listed rfl) (changesOnly_refl _ _) y eq
theorem frame_hwr (s y : State) (cl : Cluster) (co : CoreIx) (t : ThreadIx) (ix : Fin 64) (rs2 : RegNo) (eq : exec (.hwr cl co t ix rs2) s = .next y) : changesOnly (partsOf (.hwr cl co t ix rs2)) s y :=
  execHwr_only cl co t ix rs2 s (listed rfl) (listed rfl) (listed rfl) (listed rfl) (listed rfl) (listed rfl) (changesOnly_refl _ _) y eq
theorem frame_hswap (s y : State) (cl : Cluster) (co : CoreIx) (t : ThreadIx) (rd : RegNo) (ix : Fin 64) (rs2 : RegNo) (eq : exec (.hswap cl co t rd ix rs2) s = .next y) : changesOnly (partsOf (.hswap cl co t rd ix rs2)) s y :=
  execHswap_only cl co t rd ix rs2 s (listed rfl) (listed rfl) (listed rfl) (listed rfl) (listed rfl) (listed rfl) (changesOnly_refl _ _) y eq
theorem frame_hadd (s y : State) (cl : Cluster) (co : CoreIx) (t : ThreadIx) (rd : RegNo) (ix : Fin 64) (rs2 : RegNo) (eq : exec (.hadd cl co t rd ix rs2) s = .next y) : changesOnly (partsOf (.hadd cl co t rd ix rs2)) s y :=
  execHadd_only cl co t rd ix rs2 s (listed rfl) (listed rfl) (listed rfl) (listed rfl) (listed rfl) (listed rfl) (changesOnly_refl _ _) y eq
theorem frame_hcas (s y : State) (cl : Cluster) (co : CoreIx) (t : ThreadIx) (rd : RegNo) (ix : Fin 64) (rs1 rs2 : RegNo) (eq : exec (.hcas cl co t rd ix rs1 rs2) s = .next y) : changesOnly (partsOf (.hcas cl co t rd ix rs1 rs2)) s y :=
  execHcas_only cl co t rd ix rs1 rs2 s (listed rfl) (listed rfl) (listed rfl) (listed rfl) (listed rfl) (listed rfl) (changesOnly_refl _ _) y eq
theorem frame_chput (s y : State) (cl : Cluster) (co : CoreIx) (t : ThreadIx) (rs2 : RegNo) (ix : Fin 8) (eq : exec (.chput cl co t rs2 ix) s = .next y) : changesOnly (partsOf (.chput cl co t rs2 ix)) s y :=
  execChput_only cl co t rs2 ix s (listed rfl) (listed rfl) (listed rfl) (listed rfl) (listed rfl) (listed rfl) (changesOnly_refl _ _) y eq
theorem frame_chcommit (s y : State) (cl : Cluster) (co : CoreIx) (t : ThreadIx) (rd rs1 : RegNo) (eq : exec (.chcommit cl co t rd rs1) s = .next y) : changesOnly (partsOf (.chcommit cl co t rd rs1)) s y :=
  execChcommit_only cl co t rd rs1 s (listed rfl) (listed rfl) (listed rfl) (listed rfl) (listed rfl) (listed rfl) (changesOnly_refl _ _) y eq
theorem frame_chrecv (s y : State) (cl : Cluster) (co : CoreIx) (t : ThreadIx) (rd : RegNo) (ix : Fin 8) (pop : Bool) (eq : exec (.chrecv cl co t rd ix pop) s = .next y) : changesOnly (partsOf (.chrecv cl co t rd ix pop)) s y :=
  execChrecv_only cl co t rd ix pop s (listed rfl) (listed rfl) (listed rfl) (listed rfl) (listed rfl) (listed rfl) (changesOnly_refl _ _) y eq
theorem frame_wdogKick (s y : State) (cl : Cluster) (co : CoreIx) (t : ThreadIx) (eq : exec (.wdogKick cl co t) s = .next y) : changesOnly (partsOf (.wdogKick cl co t)) s y :=
  execWdogKick_only cl co t s (listed rfl) (listed rfl) (changesOnly_refl _ _) y eq
theorem frame_threadTimerExpiry (s y : State) (cl : Cluster) (co : CoreIx) (t : ThreadIx) (eq : exec (.threadTimerExpiry cl co t) s = .next y) : changesOnly (partsOf (.threadTimerExpiry cl co t)) s y :=
  execThreadTimerExpiry_only cl co t s (listed rfl) (changesOnly_refl _ _) y eq
theorem frame_channelReplyArrival (s y : State) (cl : Cluster) (co : CoreIx) (t : ThreadIx) (k : Fin 4) (eq : exec (.channelReplyArrival cl co t k) s = .next y) : changesOnly (partsOf (.channelReplyArrival cl co t k)) s y :=
  execChannelReplyArrival_only cl co t k s (listed rfl) (changesOnly_refl _ _) y eq
theorem frame_hodAlloc (s y : State) (cl : Cluster) (eq : exec (.hodAlloc cl) s = .next y) : changesOnly (partsOf (.hodAlloc cl)) s y :=
  execHodAlloc_only cl s (listed rfl) (listed rfl) (listed rfl) (listed rfl) (changesOnly_refl _ _) y eq
theorem frame_hodFree (s y : State) (cl : Cluster) (eq : exec (.hodFree cl) s = .next y) : changesOnly (partsOf (.hodFree cl)) s y :=
  execHodFree_only cl s (listed rfl) (listed rfl) (listed rfl) (listed rfl) (listed rfl) (listed rfl) (listed rfl) (listed rfl) (listed rfl) (changesOnly_refl _ _) y eq
theorem frame_hodLink (s y : State) (cl : Cluster) (eq : exec (.hodLink cl) s = .next y) : changesOnly (partsOf (.hodLink cl)) s y :=
  execHodLink_only cl s (listed rfl) (listed rfl) (listed rfl) (listed rfl) (listed rfl) (listed rfl) (listed rfl) (listed rfl) (listed rfl) (changesOnly_refl _ _) y eq
theorem frame_hodNext (s y : State) (cl : Cluster) (eq : exec (.hodNext cl) s = .next y) : changesOnly (partsOf (.hodNext cl)) s y :=
  execHodNext_only cl s (listed rfl) (listed rfl) (listed rfl) (listed rfl) (listed rfl) (listed rfl) (listed rfl) (listed rfl) (changesOnly_refl _ _) y eq
theorem frame_dmaCopy (s y : State) (cl : Cluster) (eq : exec (.dmaCopy cl) s = .next y) : changesOnly (partsOf (.dmaCopy cl)) s y :=
  execDmaCopy_only cl s (listed rfl) (listed rfl) (listed rfl) (listed rfl) (listed rfl) (listed rfl) (listed rfl) (listed rfl) (listed rfl) (listed rfl) (changesOnly_refl _ _) y eq
theorem frame_tableRequest (s y : State) (cl : Cluster) (eq : exec (.tableRequest cl) s = .next y) : changesOnly (partsOf (.tableRequest cl)) s y :=
  execTableRequest_only cl s (listed rfl) (listed rfl) (listed rfl) (listed rfl) (listed rfl) (changesOnly_refl _ _) y eq
theorem frame_lookasideJob (s y : State) (cl : Cluster) (eq : exec (.lookasideJob cl) s = .next y) : changesOnly (partsOf (.lookasideJob cl)) s y :=
  execLookasideJob_only cl s (listed rfl) (listed rfl) (listed rfl) (listed rfl) (listed rfl) (listed rfl) (listed rfl) (listed rfl) (listed rfl) (changesOnly_refl _ _) y eq
theorem frame_emitPort (s y : State) (cl : Cluster) (eq : exec (.emitPort cl) s = .next y) : changesOnly (partsOf (.emitPort cl)) s y :=
  execEmitPort_only cl s (listed rfl) (listed rfl) (listed rfl) (listed rfl) (listed rfl) (listed rfl) (listed rfl) (listed rfl) (listed rfl) (listed rfl) (listed rfl) (changesOnly_refl _ _) y eq
theorem frame_emitHost (s y : State) (cl : Cluster) (eq : exec (.emitHost cl) s = .next y) : changesOnly (partsOf (.emitHost cl)) s y :=
  execEmitHost_only cl s (listed rfl) (listed rfl) (listed rfl) (listed rfl) (listed rfl) (listed rfl) (listed rfl) (listed rfl) (listed rfl) (listed rfl) (listed rfl) (changesOnly_refl _ _) y eq
theorem frame_puntRecv (s y : State) (cl : Cluster) (eq : exec (.puntRecv cl) s = .next y) : changesOnly (partsOf (.puntRecv cl)) s y :=
  execPuntRecv_only cl s (listed rfl) (changesOnly_refl _ _) y eq
theorem frame_puntCancel (s y : State) (cl : Cluster) (eq : exec (.puntCancel cl) s = .next y) : changesOnly (partsOf (.puntCancel cl)) s y :=
  execPuntCancel_only cl s (listed rfl) (changesOnly_refl _ _) y eq
theorem frame_puntDelivery (s y : State) (cl : Cluster) (eq : exec (.puntDelivery cl) s = .next y) : changesOnly (partsOf (.puntDelivery cl)) s y :=
  execPuntDelivery_only cl s (listed rfl) (listed rfl) (listed rfl) (listed rfl) (changesOnly_refl _ _) y eq
theorem frame_waitDeadlock (s y : State) (cl : Cluster) (co : CoreIx) (eq : exec (.waitDeadlock cl co) s = .next y) : changesOnly (partsOf (.waitDeadlock cl co)) s y :=
  execWaitDeadlock_only cl co s (listed rfl) (listed rfl) (listed rfl) (listed rfl) (listed rfl) (listed rfl) (changesOnly_refl _ _) y eq
theorem frame_watchdog (s y : State) (cl : Cluster) (co : CoreIx) (eq : exec (.watchdog cl co) s = .next y) : changesOnly (partsOf (.watchdog cl co)) s y :=
  execWatchdog_only cl co s (listed rfl) (listed rfl) (listed rfl) (listed rfl) (listed rfl) (changesOnly_refl _ _) y eq
theorem frame_dramRefresh (s y : State) (eq : exec .dramRefresh s = .next y) : changesOnly (partsOf .dramRefresh) s y :=
  execDramRefresh_only s (listed rfl) (listed rfl) (changesOnly_refl _ _) y eq
theorem frame_rdimmTempRead (s y : State) (ch : DramCh) (temp : Option Int) (eq : exec (.rdimmTempRead ch temp) s = .next y) : changesOnly (partsOf (.rdimmTempRead ch temp)) s y :=
  execRdimmTempRead_only ch temp s (listed rfl) (changesOnly_refl _ _) y eq
theorem frame_dramAlert (s y : State) (ch : DramCh) (writeCrc : Bool) (eq : exec (.dramAlert ch writeCrc) s = .next y) : changesOnly (partsOf (.dramAlert ch writeCrc)) s y :=
  execDramAlert_only ch writeCrc s (listed rfl) (listed rfl) (changesOnly_refl _ _) y eq
theorem frame_dramReplayDone (s y : State) (ch : DramCh) (eq : exec (.dramReplayDone ch) s = .next y) : changesOnly (partsOf (.dramReplayDone ch)) s y :=
  execDramReplayDone_only ch s (listed rfl) (listed rfl) (changesOnly_refl _ _) y eq
theorem frame_dramRetrainDone (s y : State) (ch : DramCh) (ok : Bool) (eq : exec (.dramRetrainDone ch ok) s = .next y) : changesOnly (partsOf (.dramRetrainDone ch ok)) s y :=
  execDramRetrainDone_only ch ok s (listed rfl) (listed rfl) (listed rfl) (listed rfl) (listed rfl) (listed rfl) (changesOnly_refl _ _) y eq
theorem frame_dramRequest (s y : State) (r : DramReq) (eq : exec (.dramRequest r) s = .next y) : changesOnly (partsOf (.dramRequest r)) s y :=
  execDramRequest_only r s (listed rfl) (listed rfl) (listed rfl) (listed rfl) (changesOnly_refl _ _) y eq
theorem frame_dramReadEcc (s y : State) (ch : DramCh) (addr : DWord) (e : EccResult) (eq : exec (.dramReadEcc ch addr e) s = .next y) : changesOnly (partsOf (.dramReadEcc ch addr e)) s y :=
  execDramReadEcc_only ch addr e s (listed rfl) (listed rfl) (listed rfl) (listed rfl) (changesOnly_refl _ _) y eq
theorem frame_patrolScrub (s y : State) (ch : DramCh) (addr : DWord) (e : EccResult) (eq : exec (.patrolScrub ch addr e) s = .next y) : changesOnly (partsOf (.patrolScrub ch addr e)) s y :=
  execPatrolScrub_only ch addr e s (listed rfl) (listed rfl) (listed rfl) (changesOnly_refl _ _) y eq
theorem frame_pprRepair (s y : State) (ch : DramCh) (ok : Bool) (eq : exec (.pprRepair ch ok) s = .next y) : changesOnly (partsOf (.pprRepair ch ok)) s y :=
  execPprRepair_only ch ok s (listed rfl) (listed rfl) (listed rfl) (listed rfl) (listed rfl) (listed rfl) (listed rfl) (changesOnly_refl _ _) y eq
theorem frame_parkEntry (s y : State) (eq : exec .parkEntry s = .next y) : changesOnly (partsOf .parkEntry) s y :=
  execParkEntry_only s (listed rfl) (listed rfl) (listed rfl) (listed rfl) (listed rfl) (listed rfl) (listed rfl) (listed rfl) (listed rfl) (listed rfl) (listed rfl) (listed rfl) (listed rfl) (listed rfl) (listed rfl) (listed rfl) (listed rfl) (listed rfl) (listed rfl) (listed rfl) (listed rfl) (listed rfl) (listed rfl) (listed rfl) (listed rfl) (listed rfl) (listed rfl) (changesOnly_refl _ _) y eq
theorem frame_parkPhaseEnd (s y : State) (found : ParkFindings) (eq : exec (.parkPhaseEnd found) s = .next y) : changesOnly (partsOf (.parkPhaseEnd found)) s y :=
  execParkPhaseEnd_only found s (listed rfl) (listed rfl) (listed rfl) (listed rfl) (listed rfl) (listed rfl) (listed rfl) (listed rfl) (listed rfl) (listed rfl) (listed rfl) (listed rfl) (listed rfl) (listed rfl) (listed rfl) (listed rfl) (listed rfl) (listed rfl) (listed rfl) (listed rfl) (listed rfl) (listed rfl) (listed rfl) (listed rfl) (listed rfl) (listed rfl) (listed rfl) (listed rfl) (listed rfl) (listed rfl) (listed rfl) (listed rfl) (listed rfl) (listed rfl) (listed rfl) (listed rfl) (listed rfl) (changesOnly_refl _ _) y eq
theorem frame_thermalSensorSample (s y : State) (temps : Vector Int 16) (eq : exec (.thermalSensorSample temps) s = .next y) : changesOnly (partsOf (.thermalSensorSample temps)) s y :=
  execThermalSensorSample_only temps s (listed rfl) (listed rfl) (listed rfl) (listed rfl) (listed rfl) (listed rfl) (listed rfl) (listed rfl) (listed rfl) (listed rfl) (listed rfl) (listed rfl) (listed rfl) (listed rfl) (listed rfl) (listed rfl) (listed rfl) (changesOnly_refl _ _) y eq
theorem frame_avsDecision (s y : State) (slow fast : Bool) (eq : exec (.avsDecision slow fast) s = .next y) : changesOnly (partsOf (.avsDecision slow fast)) s y :=
  execAvsDecision_only slow fast s (listed rfl) (listed rfl) (listed rfl) (changesOnly_refl _ _) y eq
theorem frame_avsEmergency (s y : State) (eq : exec .avsEmergency s = .next y) : changesOnly (partsOf .avsEmergency) s y :=
  execAvsEmergency_only s (listed rfl) (listed rfl) (listed rfl) (changesOnly_refl _ _) y eq
theorem frame_regulatorPoll (s y : State) (reg : Fin 7) (r : PollResult) (eq : exec (.regulatorPoll reg r) s = .next y) : changesOnly (partsOf (.regulatorPoll reg r)) s y :=
  execRegulatorPoll_only reg r s (listed rfl) (listed rfl) (listed rfl) (listed rfl) (changesOnly_refl _ _) y eq
theorem frame_hlinkRecCommit (s y : State) (h : HostId) (eq : exec (.hlinkRecCommit h) s = .next y) : changesOnly (partsOf (.hlinkRecCommit h)) s y :=
  execHlinkRecCommit_only h s (listed rfl) (listed rfl) (listed rfl) (changesOnly_refl _ _) y eq
theorem frame_hlinkRecInstall (s y : State) (h : HostId) (slot : Fin 2) (eq : exec (.hlinkRecInstall h slot) s = .next y) : changesOnly (partsOf (.hlinkRecInstall h slot)) s y :=
  execHlinkRecInstall_only h slot s (listed rfl) (listed rfl) (listed rfl) (changesOnly_refl _ _) y eq
theorem frame_hlinkRecAbort (s y : State) (h : HostId) (eq : exec (.hlinkRecAbort h) s = .next y) : changesOnly (partsOf (.hlinkRecAbort h)) s y :=
  execHlinkRecAbort_only h s (listed rfl) (listed rfl) (listed rfl) (listed rfl) (changesOnly_refl _ _) y eq
theorem frame_klbLineTooLong (s y : State) (eq : exec .klbLineTooLong s = .next y) : changesOnly (partsOf .klbLineTooLong) s y :=
  execKlbLineTooLong_only s (listed rfl) (listed rfl) (changesOnly_refl _ _) y eq
theorem frame_help (s y : State) (eq : exec .help s = .next y) : changesOnly (partsOf .help) s y :=
  execHelp_only s (listed rfl) (listed rfl) (changesOnly_refl _ _) y eq
theorem frame_ver (s y : State) (eq : exec .ver s = .next y) : changesOnly (partsOf .ver) s y :=
  execVer_only s (listed rfl) (listed rfl) (changesOnly_refl _ _) y eq
theorem frame_status (s y : State) (eq : exec .status s = .next y) : changesOnly (partsOf .status) s y :=
  execStatus_only s (listed rfl) (listed rfl) (changesOnly_refl _ _) y eq
theorem frame_baud (s y : State) (n : Nat) (eq : exec (.baud n) s = .next y) : changesOnly (partsOf (.baud n)) s y :=
  execBaud_only n s (listed rfl) (listed rfl) (listed rfl) (changesOnly_refl _ _) y eq
theorem frame_authNonce (s y : State) (eq : exec .authNonce s = .next y) : changesOnly (partsOf .authNonce) s y :=
  execAuthNonce_only s (listed rfl) (listed rfl) (listed rfl) (listed rfl) (changesOnly_refl _ _) y eq
theorem frame_authLoad (s y : State) (offset : Nat) (data : List Byte) (eq : exec (.authLoad offset data) s = .next y) : changesOnly (partsOf (.authLoad offset data)) s y :=
  execAuthLoad_only offset data s (listed rfl) (listed rfl) (listed rfl) (changesOnly_refl _ _) y eq
theorem frame_authCheck (s y : State) (eq : exec .authCheck s = .next y) : changesOnly (partsOf .authCheck) s y :=
  execAuthCheck_only s (listed rfl) (listed rfl) (listed rfl) (listed rfl) (listed rfl) (changesOnly_refl _ _) y eq
theorem frame_authEnd (s y : State) (eq : exec .authEnd s = .next y) : changesOnly (partsOf .authEnd) s y :=
  execAuthEnd_only s (listed rfl) (listed rfl) (listed rfl) (listed rfl) (changesOnly_refl _ _) y eq
theorem frame_sessionExpiry (s y : State) (eq : exec .sessionExpiry s = .next y) : changesOnly (partsOf .sessionExpiry) s y :=
  execSessionExpiry_only s (listed rfl) (listed rfl) (changesOnly_refl _ _) y eq
theorem frame_klbRd (s y : State) (addr : Word) (n : Nat) (eq : exec (.klbRd addr n) s = .next y) : changesOnly (partsOf (.klbRd addr n)) s y :=
  execKlbRd_only addr n s (listed rfl) (listed rfl) (listed rfl) (listed rfl) (listed rfl) (changesOnly_refl _ _) y eq
theorem frame_klbWr (s y : State) (addr : Word) (v : Word) (eq : exec (.klbWr addr v) s = .next y) : changesOnly (partsOf (.klbWr addr v)) s y :=
  execKlbWr_only addr v s (listed rfl) (listed rfl) (listed rfl) (listed rfl) (listed rfl) (listed rfl) (listed rfl) (listed rfl) (listed rfl) (listed rfl) (listed rfl) (listed rfl) (listed rfl) (listed rfl) (listed rfl) (listed rfl) (listed rfl) (listed rfl) (changesOnly_refl _ _) y eq
theorem frame_mrd (s y : State) (cl : Cluster) (co : CoreIx) (addr : DWord) (n : Nat) (eq : exec (.mrd cl co addr n) s = .next y) : changesOnly (partsOf (.mrd cl co addr n)) s y :=
  execMrd_only cl co addr n s (listed rfl) (listed rfl) (listed rfl) (listed rfl) (listed rfl) (listed rfl) (listed rfl) (listed rfl) (changesOnly_refl _ _) y eq
theorem frame_mwr (s y : State) (cl : Cluster) (co : CoreIx) (addr : DWord) (data : List Byte) (eq : exec (.mwr cl co addr data) s = .next y) : changesOnly (partsOf (.mwr cl co addr data)) s y :=
  execMwr_only cl co addr data s (listed rfl) (listed rfl) (listed rfl) (listed rfl) (listed rfl) (listed rfl) (listed rfl) (listed rfl) (listed rfl) (listed rfl) (changesOnly_refl _ _) y eq
theorem frame_klbHod (s y : State) (handle : Word) (offset : Nat) (n : Nat) (eq : exec (.klbHod handle offset n) s = .next y) : changesOnly (partsOf (.klbHod handle offset n)) s y :=
  execKlbHod_only handle offset n s (listed rfl) (listed rfl) (listed rfl) (listed rfl) (listed rfl) (listed rfl) (listed rfl) (listed rfl) (changesOnly_refl _ _) y eq
theorem frame_threads (s y : State) (cl : Cluster) (co : CoreIx) (eq : exec (.threads cl co) s = .next y) : changesOnly (partsOf (.threads cl co)) s y :=
  execThreads_only cl co s (listed rfl) (listed rfl) (changesOnly_refl _ _) y eq
theorem frame_regs (s y : State) (cl : Cluster) (co : CoreIx) (t : ThreadIx) (eq : exec (.regs cl co t) s = .next y) : changesOnly (partsOf (.regs cl co t)) s y :=
  execRegs_only cl co t s (listed rfl) (listed rfl) (changesOnly_refl _ _) y eq
theorem frame_setreg (s y : State) (cl : Cluster) (co : CoreIx) (t : ThreadIx) (r : Option RegNo) (v : DWord) (eq : exec (.setreg cl co t r v) s = .next y) : changesOnly (partsOf (.setreg cl co t r v)) s y :=
  execSetreg_only cl co t r v s (listed rfl) (listed rfl) (listed rfl) (changesOnly_refl _ _) y eq
theorem frame_klbHalt (s y : State) (cl : Cluster) (co : Option CoreIx) (t : Option ThreadIx) (eq : exec (.klbHalt cl co t) s = .next y) : changesOnly (partsOf (.klbHalt cl co t)) s y :=
  execKlbHalt_only cl co t s (listed rfl) (listed rfl) (listed rfl) (changesOnly_refl _ _) y eq
theorem frame_klbResume (s y : State) (cl : Cluster) (co : Option CoreIx) (t : Option ThreadIx) (eq : exec (.klbResume cl co t) s = .next y) : changesOnly (partsOf (.klbResume cl co t)) s y :=
  execKlbResume_only cl co t s (listed rfl) (listed rfl) (listed rfl) (changesOnly_refl _ _) y eq
theorem frame_step (s y : State) (cl : Cluster) (co : CoreIx) (t : ThreadIx) (n : Nat) (eq : exec (.step cl co t n) s = .next y) : changesOnly (partsOf (.step cl co t n)) s y :=
  execStep_only cl co t n s (listed rfl) (listed rfl) (listed rfl) (listed rfl) (listed rfl) (listed rfl) (listed rfl) (listed rfl) (listed rfl) (listed rfl) (listed rfl) (changesOnly_refl _ _) y eq
theorem frame_kill (s y : State) (cl : Cluster) (co : CoreIx) (t : ThreadIx) (eq : exec (.kill cl co t) s = .next y) : changesOnly (partsOf (.kill cl co t)) s y :=
  execKill_only cl co t s (listed rfl) (listed rfl) (listed rfl) (listed rfl) (listed rfl) (changesOnly_refl _ _) y eq
theorem frame_bpSet (s y : State) (cl : Cluster) (co : CoreIx) (addr : DWord) (eq : exec (.bpSet cl co addr) s = .next y) : changesOnly (partsOf (.bpSet cl co addr)) s y :=
  execBpSet_only cl co addr s (listed rfl) (listed rfl) (listed rfl) (listed rfl) (listed rfl) (changesOnly_refl _ _) y eq
theorem frame_bpClr (s y : State) (cl : Cluster) (co : CoreIx) (addr : DWord) (eq : exec (.bpClr cl co addr) s = .next y) : changesOnly (partsOf (.bpClr cl co addr)) s y :=
  execBpClr_only cl co addr s (listed rfl) (listed rfl) (listed rfl) (changesOnly_refl _ _) y eq
theorem frame_bpOn (s y : State) (eq : exec .bpOn s = .next y) : changesOnly (partsOf .bpOn) s y :=
  execBpOn_only s (listed rfl) (listed rfl) (listed rfl) (changesOnly_refl _ _) y eq
theorem frame_bpOff (s y : State) (eq : exec .bpOff s = .next y) : changesOnly (partsOf .bpOff) s y :=
  execBpOff_only s (listed rfl) (listed rfl) (listed rfl) (changesOnly_refl _ _) y eq
theorem frame_keys (s y : State) (eq : exec .keys s = .next y) : changesOnly (partsOf .keys) s y :=
  execKeys_only s (listed rfl) (listed rfl) (changesOnly_refl _ _) y eq
theorem frame_imgOffset (s y : State) (v : Nat) (eq : exec (.imgOffset v) s = .next y) : changesOnly (partsOf (.imgOffset v)) s y :=
  execImgOffset_only v s (listed rfl) (listed rfl) (listed rfl) (changesOnly_refl _ _) y eq
theorem frame_imgData (s y : State) (data : List Byte) (eq : exec (.imgData data) s = .next y) : changesOnly (partsOf (.imgData data)) s y :=
  execImgData_only data s (listed rfl) (listed rfl) (listed rfl) (changesOnly_refl _ _) y eq
theorem frame_imgCommit (s y : State) (eq : exec .imgCommit s = .next y) : changesOnly (partsOf .imgCommit) s y :=
  execImgCommit_only s (listed rfl) (listed rfl) (listed rfl) (listed rfl) (changesOnly_refl _ _) y eq
theorem frame_imgInstall (s y : State) (slot : Fin 2) (eq : exec (.imgInstall slot) s = .next y) : changesOnly (partsOf (.imgInstall slot)) s y :=
  execImgInstall_only slot s (listed rfl) (listed rfl) (listed rfl) (listed rfl) (changesOnly_refl _ _) y eq
theorem frame_imgAbort (s y : State) (eq : exec .imgAbort s = .next y) : changesOnly (partsOf .imgAbort) s y :=
  execImgAbort_only s (listed rfl) (listed rfl) (listed rfl) (listed rfl) (listed rfl) (changesOnly_refl _ _) y eq
theorem frame_powerRemoved (s y : State) (eq : exec .powerRemoved s = .next y) : changesOnly (partsOf .powerRemoved) s y :=
  execPowerRemoved_only s (listed rfl) (listed rfl) (listed rfl) (listed rfl) (listed rfl) (listed rfl) (listed rfl) (listed rfl) (listed rfl) (listed rfl) (listed rfl) (listed rfl) (listed rfl) (listed rfl) (listed rfl) (listed rfl) (listed rfl) (listed rfl) (listed rfl) (listed rfl) (listed rfl) (listed rfl) (listed rfl) (listed rfl) (listed rfl) (listed rfl) (listed rfl) (listed rfl) (listed rfl) (listed rfl) (listed rfl) (listed rfl) (listed rfl) (listed rfl) (listed rfl) (listed rfl) (listed rfl) (changesOnly_refl _ _) y eq
theorem frame_linkRecoveryExit (s y : State) (h : HostId) (eq : exec (.linkRecoveryExit h) s = .next y) : changesOnly (partsOf (.linkRecoveryExit h)) s y :=
  execLinkRecoveryExit_only h s (listed rfl) (changesOnly_refl _ _) y eq
theorem frame_driveLaneFaultInService (s y : State) (d : DrivePort) (lane : Fin 4) (eq : exec (.driveLaneFaultInService d lane) s = .next y) : changesOnly (partsOf (.driveLaneFaultInService d lane)) s y :=
  execDriveLaneFaultInService_only d lane s (listed rfl) (listed rfl) (listed rfl) (listed rfl) (listed rfl) (listed rfl) (listed rfl) (listed rfl) (listed rfl) (listed rfl) (listed rfl) (listed rfl) (listed rfl) (listed rfl) (changesOnly_refl _ _) y eq
theorem frame_keyAlarmSourceCleared (s y : State) (code : Byte) (eq : exec (.keyAlarmSourceCleared code) s = .next y) : changesOnly (partsOf (.keyAlarmSourceCleared code)) s y :=
  execKeyAlarmSourceCleared_only code s (listed rfl) (changesOnly_refl _ _) y eq
theorem frame_chunkDone (s y : State) (ok : Bool) (eq : exec (.chunkDone ok) s = .next y) : changesOnly (partsOf (.chunkDone ok)) s y :=
  execChunkDone_only ok s (listed rfl) (listed rfl) (listed rfl) (changesOnly_refl _ _) y eq
theorem frame_installDone (s y : State) (ok : Bool) (eq : exec (.installDone ok) s = .next y) : changesOnly (partsOf (.installDone ok)) s y :=
  execInstallDone_only ok s (listed rfl) (listed rfl) (listed rfl) (listed rfl) (changesOnly_refl _ _) y eq
theorem frame_loadDataReturn (s y : State) (cl : Cluster) (co : CoreIx) (t : ThreadIx) (store bad : Bool) (eq : exec (.loadDataReturn cl co t store bad) s = .next y) : changesOnly (partsOf (.loadDataReturn cl co t store bad)) s y :=
  execLoadDataReturn_only cl co t store bad s (listed rfl) (listed rfl) (listed rfl) (listed rfl) (listed rfl) (listed rfl) (listed rfl) (listed rfl) (listed rfl) (listed rfl) (changesOnly_refl _ _) y eq
theorem frame_atsInvalidationRequest (s y : State) (h : HostId) (f : Fn) (eq : exec (.atsInvalidationRequest h f) s = .next y) : changesOnly (partsOf (.atsInvalidationRequest h f)) s y :=
  execAtsInvalidationRequest_only h f s (listed rfl) (changesOnly_refl _ _) y eq

end Sys2Proof.Machine
end

