-- ==== Sys2Proof/Laws/Memory.lean ====
section
/-! SUPPORT. Memory.lean: the laws of the sparse tables, the sparse memories, the fixed arrays and the counters: what is read after a write, what a write leaves alone, and that every operation keeps the canonical form. -/

namespace Sys2Proof

/-! Tables -/
namespace Tbl
variable {α : Type}

@[simp] theorem find_put_same (t : Tbl α) (k : Nat) (a : α) : find (put t k a) k = some a := by
  induction t with
  | nil => simp [put, find]
  | cons e r ih =>
    obtain ⟨j, b⟩ := e
    unfold put
    split
    · simp [find]
    · split
      · simp [find]
      · rename_i h1 h2
        rw [find, if_neg (fun h => h2 h.symm), ih]

theorem find_put_other (t : Tbl α) (k j : Nat) (a : α) (h : j ≠ k) : find (put t k a) j = find t j := by
  induction t with
  | nil => simp [put, find, Ne.symm h]
  | cons e r ih =>
    obtain ⟨i, b⟩ := e
    unfold put
    split
    · rw [find, if_neg (Ne.symm h)]
    · split
      · rename_i h1 h2
        subst h2
        rw [find, if_neg (Ne.symm h), find, if_neg (Ne.symm h)]
      · simp only [find, ih]

@[simp] theorem getD_put_same (t : Tbl α) (k : Nat) (a d : α) : getD (put t k a) k d = a := by simp [getD]

theorem getD_put_other (t : Tbl α) (k j : Nat) (a d : α) (h : j ≠ k) : getD (put t k a) j d = getD t j d := by
  simp [getD, find_put_other t k j a h]

theorem find_del_other (t : Tbl α) (k j : Nat) (h : j ≠ k) : find (del t k) j = find t j := by
  induction t with
  | nil => rfl
  | cons e r ih =>
    obtain ⟨i, b⟩ := e
    unfold del
    split
    · rename_i h2; subst h2; rw [find, if_neg (Ne.symm h)]
    · simp only [find, ih]

theorem find_modify (t : Tbl α) (k j : Nat) (f : α → α) : find (modify t k f) j = if j = k then (find t k).map f else find t j := by
  induction t with
  | nil => simp [modify, find]
  | cons e r ih =>
    obtain ⟨i, b⟩ := e
    unfold modify
    by_cases h : i = k
    · subst h
      rw [if_pos rfl]
      by_cases hj : j = i
      · subst hj; simp [find]
      · simp [find, hj, Ne.symm hj]
    · rw [if_neg h]
      simp only [find, ih]
      by_cases hj : j = k
      · subst hj; simp [h]
      · simp [hj]

/-- A key below every key of a table is not in it. -/
theorem find_below (t : Tbl α) (k : Nat) (h : ∀ e ∈ t, k < e.1) : find t k = none := by
  induction t with
  | nil => rfl
  | cons e r ih =>
    obtain ⟨j, b⟩ := e
    have hj : k < j := h (j, b) List.mem_cons_self
    rw [find, if_neg (by omega), ih fun e he => h e (List.mem_cons_of_mem _ he)]

theorem sorted_cons (k : Nat) (a : α) (r : Tbl α) : sorted ((k, a) :: r) = true ↔ (∀ e ∈ r, k < e.1) ∧ sorted r = true := by
  simp [sorted]

theorem find_del_same (t : Tbl α) (k : Nat) (h : sorted t = true) : find (del t k) k = none := by
  induction t with
  | nil => rfl
  | cons e r ih =>
    obtain ⟨j, b⟩ := e
    obtain ⟨h1, h2⟩ := (sorted_cons j b r).mp h
    unfold del
    split
    · rename_i hk; subst hk; exact find_below r k h1
    · rename_i hk; rw [find, if_neg (Ne.symm hk), ih h2]

theorem mem_put (t : Tbl α) (k : Nat) (a : α) (e : Nat × α) (h : e ∈ put t k a) : e = (k, a) ∨ e ∈ t := by
  induction t with
  | nil => simpa [put] using h
  | cons x r ih =>
    obtain ⟨j, b⟩ := x
    unfold put at h
    split at h
    · simpa using h
    · split at h
      · rcases List.mem_cons.mp h with h | h
        · exact .inl h
        · exact .inr (List.mem_cons_of_mem _ h)
      · rcases List.mem_cons.mp h with h | h
        · exact .inr (h ▸ List.mem_cons_self)
        · rcases ih h with h | h
          · exact .inl h
          · exact .inr (List.mem_cons_of_mem _ h)

/-- A put keeps the keys rising. -/
theorem sorted_put (t : Tbl α) (k : Nat) (a : α) (h : sorted t = true) : sorted (put t k a) = true := by
  induction t with
  | nil => simp [put, sorted]
  | cons x r ih =>
    obtain ⟨j, b⟩ := x
    obtain ⟨h1, h2⟩ := (sorted_cons j b r).mp h
    unfold put
    split
    · rename_i hk
      refine (sorted_cons _ _ _).mpr ⟨fun e he => ?_, h⟩
      rcases List.mem_cons.mp he with he | he
      · subst he; exact hk
      · have := h1 e he; omega
    · split
      · rename_i hk; subst hk; exact (sorted_cons _ _ _).mpr ⟨h1, h2⟩
      · refine (sorted_cons _ _ _).mpr ⟨fun e he => ?_, ih h2⟩
        rcases mem_put r k a e he with he | he
        · subst he; show j < k; omega
        · exact h1 e he

theorem mem_del (t : Tbl α) (k : Nat) (e : Nat × α) (h : e ∈ del t k) : e ∈ t := by
  induction t with
  | nil => exact h
  | cons x r ih =>
    unfold del at h
    split at h
    · exact List.mem_cons_of_mem _ h
    · rcases List.mem_cons.mp h with h | h
      · exact h ▸ List.mem_cons_self
      · exact List.mem_cons_of_mem _ (ih h)

/-- A removal keeps the keys rising. -/
theorem sorted_del (t : Tbl α) (k : Nat) (h : sorted t = true) : sorted (del t k) = true := by
  induction t with
  | nil => rfl
  | cons x r ih =>
    obtain ⟨j, b⟩ := x
    obtain ⟨h1, h2⟩ := (sorted_cons j b r).mp h
    unfold del
    split
    · exact h2
    · exact (sorted_cons _ _ _).mpr ⟨fun e he => h1 e (mem_del r k e he), ih h2⟩

/-- The keys of a table whose values a function changed. -/
theorem map_fst_modify (t : Tbl α) (k : Nat) (f : α → α) : (modify t k f).map (·.1) = t.map (·.1) := by
  induction t with
  | nil => rfl
  | cons x r ih =>
    obtain ⟨j, b⟩ := x
    unfold modify
    split
    · rfl
    · simp only [List.map_cons, ih]

end Tbl

/-! Memories -/
namespace Mem

theorem wf_cons (k : Nat) (b z : Byte) (r : Mem) : wf ((k, b) :: r) z = true ↔ b ≠ z ∧ (∀ e ∈ r, k < e.1) ∧ wf r z = true := by
  simp [wf, and_assoc]

/-- An address below every listed one reads as an unlisted address does. -/
theorem read_below (m : Mem) (z : Byte) (a : Nat) (h : ∀ e ∈ m, a < e.1) : read m z a = z := by
  induction m with
  | nil => rfl
  | cons e r ih =>
    obtain ⟨j, b⟩ := e
    have hj : a < j := h (j, b) List.mem_cons_self
    rw [read, if_neg (by omega), ih fun e he => h e (List.mem_cons_of_mem _ he)]

/-- The byte written is the byte read. -/
theorem read_write_same (m : Mem) (z : Byte) (a : Nat) (v : Byte) (h : wf m z = true) : read (write m z a v) z a = v := by
  induction m with
  | nil => unfold write; split <;> simp_all [read]
  | cons e r ih =>
    obtain ⟨j, b⟩ := e
    obtain ⟨_, h1, h2⟩ := (wf_cons j b z r).mp h
    unfold write
    split
    · rename_i ha
      split
      · rename_i hv
        rw [hv]
        refine read_below _ z a fun e he => ?_
        rcases List.mem_cons.mp he with he | he
        · subst he; exact ha
        · have := h1 e he; omega
      · simp [read]
    · split
      · rename_i ha
        split
        · rename_i hv; rw [hv]; subst ha; exact read_below r z a h1
        · simp [read]
      · rename_i ha; rw [read, if_neg (Ne.symm ha), ih h2]

/-- A write leaves every other address alone. -/
theorem read_write_other (m : Mem) (z : Byte) (a c : Nat) (v : Byte) (h : c ≠ a) : read (write m z a v) z c = read m z c := by
  induction m with
  | nil => unfold write; split <;> simp [read, Ne.symm h]
  | cons e r ih =>
    obtain ⟨j, b⟩ := e
    unfold write
    split
    · split
      · rfl
      · rw [read, if_neg (Ne.symm h)]
    · split
      · rename_i ha
        subst ha
        split
        · rw [read, if_neg (Ne.symm h)]
        · simp only [read, if_neg (Ne.symm h)]
      · simp only [read, ih]

theorem mem_write (m : Mem) (z : Byte) (a : Nat) (v : Byte) (e : Nat × Byte) (h : e ∈ write m z a v) : (e = (a, v) ∧ v ≠ z) ∨ e ∈ m := by
  induction m with
  | nil => unfold write at h; split at h <;> simp_all
  | cons x r ih =>
    obtain ⟨j, b⟩ := x
    unfold write at h
    split at h
    · split at h
      · exact .inr h
      · rcases List.mem_cons.mp h with h | h
        · exact .inl ⟨h, by assumption⟩
        · exact .inr h
    · split at h
      · split at h
        · exact .inr (List.mem_cons_of_mem _ h)
        · rcases List.mem_cons.mp h with h | h
          · exact .inl ⟨h, by assumption⟩
          · exact .inr (List.mem_cons_of_mem _ h)
      · rcases List.mem_cons.mp h with h | h
        · exact .inr (h ▸ List.mem_cons_self)
        · rcases ih h with h | h
          · exact .inl h
          · exact .inr (List.mem_cons_of_mem _ h)

/-- A write keeps the canonical form. -/
theorem wf_write (m : Mem) (z : Byte) (a : Nat) (v : Byte) (h : wf m z = true) : wf (write m z a v) z = true := by
  induction m with
  | nil => unfold write; split <;> simp_all [wf]
  | cons x r ih =>
    obtain ⟨j, b⟩ := x
    obtain ⟨h0, h1, h2⟩ := (wf_cons j b z r).mp h
    unfold write
    split
    · rename_i ha
      split
      · exact h
      · refine (wf_cons _ _ _ _).mpr ⟨by assumption, fun e he => ?_, h⟩
        rcases List.mem_cons.mp he with he | he
        · subst he; exact ha
        · have := h1 e he; omega
    · split
      · rename_i ha
        split
        · exact h2
        · subst ha; exact (wf_cons _ _ _ _).mpr ⟨by assumption, h1, h2⟩
      · refine (wf_cons _ _ _ _).mpr ⟨h0, fun e he => ?_, ih h2⟩
        rcases mem_write r z a v e he with he | he
        · obtain ⟨rfl, _⟩ := he; show j < a; omega
        · exact h1 e he

/-- Writing bytes in a row keeps the canonical form. -/
theorem wf_writeBytes (l : List Byte) (m : Mem) (z : Byte) (a : Nat) (h : wf m z = true) : wf (writeBytes m z a l) z = true := by
  induction l generalizing m a with
  | nil => exact h
  | cons b r ih => exact ih _ _ (wf_write m z a b h)

/-- Bytes written in a row leave every address outside them alone. -/
theorem read_writeBytes_other (l : List Byte) (m : Mem) (z : Byte) (a c : Nat) (h : c < a ∨ a + l.length ≤ c) : read (writeBytes m z a l) z c = read m z c := by
  induction l generalizing m a with
  | nil => rfl
  | cons b r ih =>
    simp only [List.length_cons] at h
    rw [writeBytes, ih _ _ (by omega), read_write_other m z a c b (by omega)]

/-- Each of the bytes written in a row is the byte read at its address. -/
theorem read_writeBytes (l : List Byte) (m : Mem) (z : Byte) (a i : Nat) (b : Byte) (h : wf m z = true) (hi : l[i]? = some b) : read (writeBytes m z a l) z (a + i) = b := by
  induction l generalizing m a i with
  | nil => simp at hi
  | cons x r ih =>
    cases i with
    | zero =>
      simp only [List.getElem?_cons_zero, Option.some.injEq] at hi
      subst hi
      rw [writeBytes, read_writeBytes_other r _ z (a + 1) (a + 0) (by omega)]
      exact read_write_same m z a x h
    | succ k =>
      have := ih (write m z a x) (a + 1) k (wf_write m z a x h) (by simpa using hi)
      rw [writeBytes, show a + (k + 1) = a + 1 + k by omega, this]

theorem wf_erase (m : Mem) (z : Byte) (a n : Nat) (h : wf m z = true) : wf (erase m a n) z = true := by
  induction m with
  | nil => exact h
  | cons x r ih =>
    obtain ⟨j, b⟩ := x
    obtain ⟨h0, h1, h2⟩ := (wf_cons j b z r).mp h
    unfold erase
    rw [List.filter_cons]
    split
    · exact (wf_cons _ _ _ _).mpr ⟨h0, fun e he => h1 e (List.mem_filter.mp he).1, ih h2⟩
    · exact ih h2

/-- Erasing a range leaves it empty and the rest alone. -/
theorem read_erase (m : Mem) (z : Byte) (a n c : Nat) : read (erase m a n) z c = if a ≤ c ∧ c < a + n then z else read m z c := by
  induction m with
  | nil => simp [erase, read]
  | cons x r ih =>
    obtain ⟨j, b⟩ := x
    unfold erase at ih ⊢
    rw [List.filter_cons]
    by_cases hj : (decide (j < a) || decide (a + n ≤ j)) = true
    · rw [if_pos hj, read, ih, read]
      by_cases hc : j = c
      · subst hc
        simp only [Bool.or_eq_true, decide_eq_true_eq] at hj
        rw [if_pos rfl, if_neg (by omega), if_pos rfl]
      · rw [if_neg hc, if_neg hc]
    · rw [if_neg hj, ih]
      by_cases hc : j = c
      · subst hc
        simp only [Bool.or_eq_true, decide_eq_true_eq, not_or] at hj
        rw [if_pos (by omega), if_pos (by omega)]
      · split
        · rfl
        · rw [read, if_neg hc]

end Mem

/-! Fixed arrays -/

theorem getElem_vset {α : Type} {n : Nat} (v : Vector α n) (i j : Fin n) (a : α) : (vset v i a)[j] = if j = i then a else v[j] := by
  simp only [vset, Fin.getElem_fin, Vector.getElem_set, Fin.ext_iff]
  split <;> rename_i h
  · simp [h]
  · rw [if_neg (by omega)]

theorem getElem_vmod {α : Type} {n : Nat} (v : Vector α n) (i j : Fin n) (f : α → α) : (vmod v i f)[j] = if j = i then f v[j] else v[j] := by
  simp only [vmod, Fin.getElem_fin, Vector.getElem_set, Fin.ext_iff]
  split <;> rename_i h
  · simp [h]
  · rw [if_neg (by omega)]

end Sys2Proof

namespace Sys2Proof.Machine
open Sys2Proof

/-! Counters -/

theorem ctrPut_get (t : Tbl Nat) (k v : Nat) (h : Tbl.sorted t = true) : Tbl.getD (ctrPut t k v) k 0 = v % 2 ^ 64 := by
  unfold ctrPut
  split
  · rename_i hz; rw [Tbl.getD, Tbl.find_del_same t k h, hz]; rfl
  · exact Tbl.getD_put_same _ _ _ _

theorem sorted_ctrPut (t : Tbl Nat) (k v : Nat) (h : Tbl.sorted t = true) : Tbl.sorted (ctrPut t k v) = true := by
  unfold ctrPut
  split
  · exact Tbl.sorted_del t k h
  · exact Tbl.sorted_put t k _ h

theorem ctrPut_other (t : Tbl Nat) (k j v : Nat) (h : j ≠ k) : Tbl.getD (ctrPut t k v) j 0 = Tbl.getD t j 0 := by
  unfold ctrPut
  split
  · rw [Tbl.getD, Tbl.find_del_other t k j h]; rfl
  · exact Tbl.getD_put_other t k j _ 0 h

/-- A counter that is advanced wraps at 64 bits. -/
theorem counter_count (b l i n : Nat) (s : State) (h : Tbl.sorted s.counters = true) : counter (count b l i n s) b l i = (counter s b l i + n) % 2 ^ 64 :=
  ctrPut_get _ _ _ h

/-- Advancing one counter leaves the others alone. -/
theorem counter_count_other (b l i n b' l' i' : Nat) (s : State) (h : ctrKey b' l' i' ≠ ctrKey b l i) : counter (count b l i n s) b' l' i' = counter s b' l' i' :=
  ctrPut_other _ _ _ _ h

/-- A function's registers after they were changed. -/
theorem fnOf_modFn (h : HostId) (f : Fn) (g : FnState → FnState) (s : State) : fnOf (modFn h f g s) h f = g (fnOf s h f) := Tbl.getD_put_same _ _ _ _

/-- A ring's registers after they were changed. -/
theorem ring_modRing (c : RingChan) (g : Ring → Ring) (s : State) : ring (modRing c g s) c = g (ring s c) := Tbl.getD_put_same _ _ _ _

/-- A host link after one was changed. -/
theorem link_modLink (h k : HostId) (g : HostLink → HostLink) (s : State) : link (modLink h g s) k = if k = h then g (link s k) else link s k := getElem_vmod _ _ _ _

end Sys2Proof.Machine
end

