-- ==== Sys2Proof/Laws/State.lean ====
section
/-! SUPPORT. State.lean: what each update of the state leaves in each field, and what the frame lemmas say of one field. -/

set_option linter.all false

namespace Sys2Proof.Machine
open Sys2Proof

/-! From a frame to one field -/
theorem changesOnly_pending {L : List Part} {s t : State} (h : changesOnly L s t) (n : Part.pending ∉ L) : t.pending = s.pending := h .pending n
theorem changesOnly_fenced {L : List Part} {s t : State} (h : changesOnly L s t) (n : Part.fenced ∉ L) : t.fenced = s.fenced := h .fenced n
theorem changesOnly_out {L : List Part} {s t : State} (h : changesOnly L s t) (n : Part.out ∉ L) : t.out = s.out := h .out n
theorem changesOnly_drawn {L : List Part} {s t : State} (h : changesOnly L s t) (n : Part.drawn ∉ L) : t.drawn = s.drawn := h .drawn n
theorem changesOnly_now {L : List Part} {s t : State} (h : changesOnly L s t) (n : Part.now ∉ L) : t.now = s.now := h .now n
theorem changesOnly_dtime {L : List Part} {s t : State} (h : changesOnly L s t) (n : Part.dtime ∉ L) : t.dtime = s.dtime := h .dtime n
theorem changesOnly_nv {L : List Part} {s t : State} (h : changesOnly L s t) (n : Part.nv ∉ L) : t.nv = s.nv := h .nv n
theorem changesOnly_clk {L : List Part} {s t : State} (h : changesOnly L s t) (n : Part.clk ∉ L) : t.clk = s.clk := h .clk n
theorem changesOnly_glb {L : List Part} {s t : State} (h : changesOnly L s t) (n : Part.glb ∉ L) : t.glb = s.glb := h .glb n
theorem changesOnly_epochs {L : List Part} {s t : State} (h : changesOnly L s t) (n : Part.epochs ∉ L) : t.epochs = s.epochs := h .epochs n
theorem changesOnly_owner {L : List Part} {s t : State} (h : changesOnly L s t) (n : Part.owner ∉ L) : t.owner = s.owner := h .owner n
theorem changesOnly_rings {L : List Part} {s t : State} (h : changesOnly L s t) (n : Part.rings ∉ L) : t.rings = s.rings := h .rings n
theorem changesOnly_ops {L : List Part} {s t : State} (h : changesOnly L s t) (n : Part.ops ∉ L) : t.ops = s.ops := h .ops n
theorem changesOnly_hosts {L : List Part} {s t : State} (h : changesOnly L s t) (n : Part.hosts ∉ L) : t.hosts = s.hosts := h .hosts n
theorem changesOnly_fns {L : List Part} {s t : State} (h : changesOnly L s t) (n : Part.fns ∉ L) : t.fns = s.fns := h .fns n
theorem changesOnly_queues {L : List Part} {s t : State} (h : changesOnly L s t) (n : Part.queues ∉ L) : t.queues = s.queues := h .queues n
theorem changesOnly_eth {L : List Part} {s t : State} (h : changesOnly L s t) (n : Part.eth ∉ L) : t.eth = s.eth := h .eth n
theorem changesOnly_parse {L : List Part} {s t : State} (h : changesOnly L s t) (n : Part.parse ∉ L) : t.parse = s.parse := h .parse n
theorem changesOnly_cls {L : List Part} {s t : State} (h : changesOnly L s t) (n : Part.cls ∉ L) : t.cls = s.cls := h .cls n
theorem changesOnly_tables {L : List Part} {s t : State} (h : changesOnly L s t) (n : Part.tables ∉ L) : t.tables = s.tables := h .tables n
theorem changesOnly_hod {L : List Part} {s t : State} (h : changesOnly L s t) (n : Part.hod ∉ L) : t.hod = s.hod := h .hod n
theorem changesOnly_sched {L : List Part} {s t : State} (h : changesOnly L s t) (n : Part.sched ∉ L) : t.sched = s.sched := h .sched n
theorem changesOnly_net {L : List Part} {s t : State} (h : changesOnly L s t) (n : Part.net ∉ L) : t.net = s.net := h .net n
theorem changesOnly_ctx {L : List Part} {s t : State} (h : changesOnly L s t) (n : Part.ctx ∉ L) : t.ctx = s.ctx := h .ctx n
theorem changesOnly_nvme {L : List Part} {s t : State} (h : changesOnly L s t) (n : Part.nvme ∉ L) : t.nvme = s.nvme := h .nvme n
theorem changesOnly_crypt {L : List Part} {s t : State} (h : changesOnly L s t) (n : Part.crypt ∉ L) : t.crypt = s.crypt := h .crypt n
theorem changesOnly_cores {L : List Part} {s t : State} (h : changesOnly L s t) (n : Part.cores ∉ L) : t.cores = s.cores := h .cores n
theorem changesOnly_dram {L : List Part} {s t : State} (h : changesOnly L s t) (n : Part.dram ∉ L) : t.dram = s.dram := h .dram n
theorem changesOnly_sec {L : List Part} {s t : State} (h : changesOnly L s t) (n : Part.sec ∉ L) : t.sec = s.sec := h .sec n
theorem changesOnly_klb {L : List Part} {s t : State} (h : changesOnly L s t) (n : Part.klb ∉ L) : t.klb = s.klb := h .klb n
theorem changesOnly_elec {L : List Part} {s t : State} (h : changesOnly L s t) (n : Part.elec ∉ L) : t.elec = s.elec := h .elec n
theorem changesOnly_degr {L : List Part} {s t : State} (h : changesOnly L s t) (n : Part.degr ∉ L) : t.degr = s.degr := h .degr n
theorem changesOnly_bist {L : List Part} {s t : State} (h : changesOnly L s t) (n : Part.bist ∉ L) : t.bist = s.bist := h .bist n
theorem changesOnly_carve {L : List Part} {s t : State} (h : changesOnly L s t) (n : Part.carve ∉ L) : t.carve = s.carve := h .carve n
theorem changesOnly_violations {L : List Part} {s t : State} (h : changesOnly L s t) (n : Part.violations ∉ L) : t.violations = s.violations := h .violations n
theorem changesOnly_counters {L : List Part} {s t : State} (h : changesOnly L s t) (n : Part.counters ∉ L) : t.counters = s.counters := h .counters n
theorem changesOnly_regs {L : List Part} {s t : State} (h : changesOnly L s t) (n : Part.regs ∉ L) : t.regs = s.regs := h .regs n
theorem changesOnly_mode {L : List Part} {s t : State} (h : changesOnly L s t) (n : Part.mode ∉ L) : modeOf t.glb = modeOf s.glb := h .mode n
theorem changesOnly_epoch {L : List Part} {s t : State} (h : changesOnly L s t) (n : Part.epoch ∉ L) : t.epochs.epoch = s.epochs.epoch := h .epoch n
theorem changesOnly_fuses {L : List Part} {s t : State} (h : changesOnly L s t) (n : Part.fuses ∉ L) : fusesOf t.nv = fusesOf s.nv := h .fuses n

/-! emit -/
@[simp] theorem emit_pending (o : Out) (s : State) : (emit o s).pending = s.pending := rfl
@[simp] theorem emit_fenced (o : Out) (s : State) : (emit o s).fenced = s.fenced := rfl
@[simp] theorem emit_out (o : Out) (s : State) : (emit o s).out = o :: s.out := rfl
@[simp] theorem emit_drawn (o : Out) (s : State) : (emit o s).drawn = s.drawn := rfl
@[simp] theorem emit_now (o : Out) (s : State) : (emit o s).now = s.now := rfl
@[simp] theorem emit_dtime (o : Out) (s : State) : (emit o s).dtime = s.dtime := rfl
@[simp] theorem emit_nv (o : Out) (s : State) : (emit o s).nv = s.nv := rfl
@[simp] theorem emit_clk (o : Out) (s : State) : (emit o s).clk = s.clk := rfl
@[simp] theorem emit_glb (o : Out) (s : State) : (emit o s).glb = s.glb := rfl
@[simp] theorem emit_epochs (o : Out) (s : State) : (emit o s).epochs = s.epochs := rfl
@[simp] theorem emit_owner (o : Out) (s : State) : (emit o s).owner = s.owner := rfl
@[simp] theorem emit_rings (o : Out) (s : State) : (emit o s).rings = s.rings := rfl
@[simp] theorem emit_ops (o : Out) (s : State) : (emit o s).ops = s.ops := rfl
@[simp] theorem emit_hosts (o : Out) (s : State) : (emit o s).hosts = s.hosts := rfl
@[simp] theorem emit_fns (o : Out) (s : State) : (emit o s).fns = s.fns := rfl
@[simp] theorem emit_queues (o : Out) (s : State) : (emit o s).queues = s.queues := rfl
@[simp] theorem emit_eth (o : Out) (s : State) : (emit o s).eth = s.eth := rfl
@[simp] theorem emit_parse (o : Out) (s : State) : (emit o s).parse = s.parse := rfl
@[simp] theorem emit_cls (o : Out) (s : State) : (emit o s).cls = s.cls := rfl
@[simp] theorem emit_tables (o : Out) (s : State) : (emit o s).tables = s.tables := rfl
@[simp] theorem emit_hod (o : Out) (s : State) : (emit o s).hod = s.hod := rfl
@[simp] theorem emit_sched (o : Out) (s : State) : (emit o s).sched = s.sched := rfl
@[simp] theorem emit_net (o : Out) (s : State) : (emit o s).net = s.net := rfl
@[simp] theorem emit_ctx (o : Out) (s : State) : (emit o s).ctx = s.ctx := rfl
@[simp] theorem emit_nvme (o : Out) (s : State) : (emit o s).nvme = s.nvme := rfl
@[simp] theorem emit_crypt (o : Out) (s : State) : (emit o s).crypt = s.crypt := rfl
@[simp] theorem emit_cores (o : Out) (s : State) : (emit o s).cores = s.cores := rfl
@[simp] theorem emit_dram (o : Out) (s : State) : (emit o s).dram = s.dram := rfl
@[simp] theorem emit_sec (o : Out) (s : State) : (emit o s).sec = s.sec := rfl
@[simp] theorem emit_klb (o : Out) (s : State) : (emit o s).klb = s.klb := rfl
@[simp] theorem emit_elec (o : Out) (s : State) : (emit o s).elec = s.elec := rfl
@[simp] theorem emit_degr (o : Out) (s : State) : (emit o s).degr = s.degr := rfl
@[simp] theorem emit_bist (o : Out) (s : State) : (emit o s).bist = s.bist := rfl
@[simp] theorem emit_carve (o : Out) (s : State) : (emit o s).carve = s.carve := rfl
@[simp] theorem emit_violations (o : Out) (s : State) : (emit o s).violations = s.violations := rfl
@[simp] theorem emit_counters (o : Out) (s : State) : (emit o s).counters = s.counters := rfl
@[simp] theorem emit_regs (o : Out) (s : State) : (emit o s).regs = s.regs := rfl

/-! drawn1 -/
@[simp] theorem drawn1_pending (s : State) : (drawn1 s).pending = s.pending := rfl
@[simp] theorem drawn1_fenced (s : State) : (drawn1 s).fenced = s.fenced := rfl
@[simp] theorem drawn1_out (s : State) : (drawn1 s).out = s.out := rfl
@[simp] theorem drawn1_drawn (s : State) : (drawn1 s).drawn = s.drawn + 1 := rfl
@[simp] theorem drawn1_now (s : State) : (drawn1 s).now = s.now := rfl
@[simp] theorem drawn1_dtime (s : State) : (drawn1 s).dtime = s.dtime := rfl
@[simp] theorem drawn1_nv (s : State) : (drawn1 s).nv = s.nv := rfl
@[simp] theorem drawn1_clk (s : State) : (drawn1 s).clk = s.clk := rfl
@[simp] theorem drawn1_glb (s : State) : (drawn1 s).glb = s.glb := rfl
@[simp] theorem drawn1_epochs (s : State) : (drawn1 s).epochs = s.epochs := rfl
@[simp] theorem drawn1_owner (s : State) : (drawn1 s).owner = s.owner := rfl
@[simp] theorem drawn1_rings (s : State) : (drawn1 s).rings = s.rings := rfl
@[simp] theorem drawn1_ops (s : State) : (drawn1 s).ops = s.ops := rfl
@[simp] theorem drawn1_hosts (s : State) : (drawn1 s).hosts = s.hosts := rfl
@[simp] theorem drawn1_fns (s : State) : (drawn1 s).fns = s.fns := rfl
@[simp] theorem drawn1_queues (s : State) : (drawn1 s).queues = s.queues := rfl
@[simp] theorem drawn1_eth (s : State) : (drawn1 s).eth = s.eth := rfl
@[simp] theorem drawn1_parse (s : State) : (drawn1 s).parse = s.parse := rfl
@[simp] theorem drawn1_cls (s : State) : (drawn1 s).cls = s.cls := rfl
@[simp] theorem drawn1_tables (s : State) : (drawn1 s).tables = s.tables := rfl
@[simp] theorem drawn1_hod (s : State) : (drawn1 s).hod = s.hod := rfl
@[simp] theorem drawn1_sched (s : State) : (drawn1 s).sched = s.sched := rfl
@[simp] theorem drawn1_net (s : State) : (drawn1 s).net = s.net := rfl
@[simp] theorem drawn1_ctx (s : State) : (drawn1 s).ctx = s.ctx := rfl
@[simp] theorem drawn1_nvme (s : State) : (drawn1 s).nvme = s.nvme := rfl
@[simp] theorem drawn1_crypt (s : State) : (drawn1 s).crypt = s.crypt := rfl
@[simp] theorem drawn1_cores (s : State) : (drawn1 s).cores = s.cores := rfl
@[simp] theorem drawn1_dram (s : State) : (drawn1 s).dram = s.dram := rfl
@[simp] theorem drawn1_sec (s : State) : (drawn1 s).sec = s.sec := rfl
@[simp] theorem drawn1_klb (s : State) : (drawn1 s).klb = s.klb := rfl
@[simp] theorem drawn1_elec (s : State) : (drawn1 s).elec = s.elec := rfl
@[simp] theorem drawn1_degr (s : State) : (drawn1 s).degr = s.degr := rfl
@[simp] theorem drawn1_bist (s : State) : (drawn1 s).bist = s.bist := rfl
@[simp] theorem drawn1_carve (s : State) : (drawn1 s).carve = s.carve := rfl
@[simp] theorem drawn1_violations (s : State) : (drawn1 s).violations = s.violations := rfl
@[simp] theorem drawn1_counters (s : State) : (drawn1 s).counters = s.counters := rfl
@[simp] theorem drawn1_regs (s : State) : (drawn1 s).regs = s.regs := rfl

/-! ownerSpoke -/
@[simp] theorem ownerSpoke_pending (s : State) : (ownerSpoke s).pending = s.pending := rfl
@[simp] theorem ownerSpoke_fenced (s : State) : (ownerSpoke s).fenced = s.fenced := rfl
@[simp] theorem ownerSpoke_out (s : State) : (ownerSpoke s).out = s.out := rfl
@[simp] theorem ownerSpoke_drawn (s : State) : (ownerSpoke s).drawn = s.drawn := rfl
@[simp] theorem ownerSpoke_now (s : State) : (ownerSpoke s).now = s.now := rfl
@[simp] theorem ownerSpoke_dtime (s : State) : (ownerSpoke s).dtime = s.dtime := rfl
@[simp] theorem ownerSpoke_nv (s : State) : (ownerSpoke s).nv = s.nv := rfl
@[simp] theorem ownerSpoke_clk (s : State) : (ownerSpoke s).clk = s.clk := rfl
@[simp] theorem ownerSpoke_glb (s : State) : (ownerSpoke s).glb = s.glb := rfl
@[simp] theorem ownerSpoke_epochs (s : State) : (ownerSpoke s).epochs = s.epochs := rfl
@[simp] theorem ownerSpoke_owner (s : State) : (ownerSpoke s).owner = { s.owner with spoken := true } := rfl
@[simp] theorem ownerSpoke_rings (s : State) : (ownerSpoke s).rings = s.rings := rfl
@[simp] theorem ownerSpoke_ops (s : State) : (ownerSpoke s).ops = s.ops := rfl
@[simp] theorem ownerSpoke_hosts (s : State) : (ownerSpoke s).hosts = s.hosts := rfl
@[simp] theorem ownerSpoke_fns (s : State) : (ownerSpoke s).fns = s.fns := rfl
@[simp] theorem ownerSpoke_queues (s : State) : (ownerSpoke s).queues = s.queues := rfl
@[simp] theorem ownerSpoke_eth (s : State) : (ownerSpoke s).eth = s.eth := rfl
@[simp] theorem ownerSpoke_parse (s : State) : (ownerSpoke s).parse = s.parse := rfl
@[simp] theorem ownerSpoke_cls (s : State) : (ownerSpoke s).cls = s.cls := rfl
@[simp] theorem ownerSpoke_tables (s : State) : (ownerSpoke s).tables = s.tables := rfl
@[simp] theorem ownerSpoke_hod (s : State) : (ownerSpoke s).hod = s.hod := rfl
@[simp] theorem ownerSpoke_sched (s : State) : (ownerSpoke s).sched = s.sched := rfl
@[simp] theorem ownerSpoke_net (s : State) : (ownerSpoke s).net = s.net := rfl
@[simp] theorem ownerSpoke_ctx (s : State) : (ownerSpoke s).ctx = s.ctx := rfl
@[simp] theorem ownerSpoke_nvme (s : State) : (ownerSpoke s).nvme = s.nvme := rfl
@[simp] theorem ownerSpoke_crypt (s : State) : (ownerSpoke s).crypt = s.crypt := rfl
@[simp] theorem ownerSpoke_cores (s : State) : (ownerSpoke s).cores = s.cores := rfl
@[simp] theorem ownerSpoke_dram (s : State) : (ownerSpoke s).dram = s.dram := rfl
@[simp] theorem ownerSpoke_sec (s : State) : (ownerSpoke s).sec = s.sec := rfl
@[simp] theorem ownerSpoke_klb (s : State) : (ownerSpoke s).klb = s.klb := rfl
@[simp] theorem ownerSpoke_elec (s : State) : (ownerSpoke s).elec = s.elec := rfl
@[simp] theorem ownerSpoke_degr (s : State) : (ownerSpoke s).degr = s.degr := rfl
@[simp] theorem ownerSpoke_bist (s : State) : (ownerSpoke s).bist = s.bist := rfl
@[simp] theorem ownerSpoke_carve (s : State) : (ownerSpoke s).carve = s.carve := rfl
@[simp] theorem ownerSpoke_violations (s : State) : (ownerSpoke s).violations = s.violations := rfl
@[simp] theorem ownerSpoke_counters (s : State) : (ownerSpoke s).counters = s.counters := rfl
@[simp] theorem ownerSpoke_regs (s : State) : (ownerSpoke s).regs = s.regs := rfl

/-! setCounter -/
@[simp] theorem setCounter_pending (b l i v : Nat) (s : State) : (setCounter b l i v s).pending = s.pending := rfl
@[simp] theorem setCounter_fenced (b l i v : Nat) (s : State) : (setCounter b l i v s).fenced = s.fenced := rfl
@[simp] theorem setCounter_out (b l i v : Nat) (s : State) : (setCounter b l i v s).out = s.out := rfl
@[simp] theorem setCounter_drawn (b l i v : Nat) (s : State) : (setCounter b l i v s).drawn = s.drawn := rfl
@[simp] theorem setCounter_now (b l i v : Nat) (s : State) : (setCounter b l i v s).now = s.now := rfl
@[simp] theorem setCounter_dtime (b l i v : Nat) (s : State) : (setCounter b l i v s).dtime = s.dtime := rfl
@[simp] theorem setCounter_nv (b l i v : Nat) (s : State) : (setCounter b l i v s).nv = s.nv := rfl
@[simp] theorem setCounter_clk (b l i v : Nat) (s : State) : (setCounter b l i v s).clk = s.clk := rfl
@[simp] theorem setCounter_glb (b l i v : Nat) (s : State) : (setCounter b l i v s).glb = s.glb := rfl
@[simp] theorem setCounter_epochs (b l i v : Nat) (s : State) : (setCounter b l i v s).epochs = s.epochs := rfl
@[simp] theorem setCounter_owner (b l i v : Nat) (s : State) : (setCounter b l i v s).owner = s.owner := rfl
@[simp] theorem setCounter_rings (b l i v : Nat) (s : State) : (setCounter b l i v s).rings = s.rings := rfl
@[simp] theorem setCounter_ops (b l i v : Nat) (s : State) : (setCounter b l i v s).ops = s.ops := rfl
@[simp] theorem setCounter_hosts (b l i v : Nat) (s : State) : (setCounter b l i v s).hosts = s.hosts := rfl
@[simp] theorem setCounter_fns (b l i v : Nat) (s : State) : (setCounter b l i v s).fns = s.fns := rfl
@[simp] theorem setCounter_queues (b l i v : Nat) (s : State) : (setCounter b l i v s).queues = s.queues := rfl
@[simp] theorem setCounter_eth (b l i v : Nat) (s : State) : (setCounter b l i v s).eth = s.eth := rfl
@[simp] theorem setCounter_parse (b l i v : Nat) (s : State) : (setCounter b l i v s).parse = s.parse := rfl
@[simp] theorem setCounter_cls (b l i v : Nat) (s : State) : (setCounter b l i v s).cls = s.cls := rfl
@[simp] theorem setCounter_tables (b l i v : Nat) (s : State) : (setCounter b l i v s).tables = s.tables := rfl
@[simp] theorem setCounter_hod (b l i v : Nat) (s : State) : (setCounter b l i v s).hod = s.hod := rfl
@[simp] theorem setCounter_sched (b l i v : Nat) (s : State) : (setCounter b l i v s).sched = s.sched := rfl
@[simp] theorem setCounter_net (b l i v : Nat) (s : State) : (setCounter b l i v s).net = s.net := rfl
@[simp] theorem setCounter_ctx (b l i v : Nat) (s : State) : (setCounter b l i v s).ctx = s.ctx := rfl
@[simp] theorem setCounter_nvme (b l i v : Nat) (s : State) : (setCounter b l i v s).nvme = s.nvme := rfl
@[simp] theorem setCounter_crypt (b l i v : Nat) (s : State) : (setCounter b l i v s).crypt = s.crypt := rfl
@[simp] theorem setCounter_cores (b l i v : Nat) (s : State) : (setCounter b l i v s).cores = s.cores := rfl
@[simp] theorem setCounter_dram (b l i v : Nat) (s : State) : (setCounter b l i v s).dram = s.dram := rfl
@[simp] theorem setCounter_sec (b l i v : Nat) (s : State) : (setCounter b l i v s).sec = s.sec := rfl
@[simp] theorem setCounter_klb (b l i v : Nat) (s : State) : (setCounter b l i v s).klb = s.klb := rfl
@[simp] theorem setCounter_elec (b l i v : Nat) (s : State) : (setCounter b l i v s).elec = s.elec := rfl
@[simp] theorem setCounter_degr (b l i v : Nat) (s : State) : (setCounter b l i v s).degr = s.degr := rfl
@[simp] theorem setCounter_bist (b l i v : Nat) (s : State) : (setCounter b l i v s).bist = s.bist := rfl
@[simp] theorem setCounter_carve (b l i v : Nat) (s : State) : (setCounter b l i v s).carve = s.carve := rfl
@[simp] theorem setCounter_violations (b l i v : Nat) (s : State) : (setCounter b l i v s).violations = s.violations := rfl
@[simp] theorem setCounter_counters (b l i v : Nat) (s : State) : (setCounter b l i v s).counters = ctrPut s.counters (ctrKey b l i) v := rfl
@[simp] theorem setCounter_regs (b l i v : Nat) (s : State) : (setCounter b l i v s).regs = s.regs := rfl

/-! count -/
@[simp] theorem count_pending (b l i k : Nat) (s : State) : (count b l i k s).pending = s.pending := rfl
@[simp] theorem count_fenced (b l i k : Nat) (s : State) : (count b l i k s).fenced = s.fenced := rfl
@[simp] theorem count_out (b l i k : Nat) (s : State) : (count b l i k s).out = s.out := rfl
@[simp] theorem count_drawn (b l i k : Nat) (s : State) : (count b l i k s).drawn = s.drawn := rfl
@[simp] theorem count_now (b l i k : Nat) (s : State) : (count b l i k s).now = s.now := rfl
@[simp] theorem count_dtime (b l i k : Nat) (s : State) : (count b l i k s).dtime = s.dtime := rfl
@[simp] theorem count_nv (b l i k : Nat) (s : State) : (count b l i k s).nv = s.nv := rfl
@[simp] theorem count_clk (b l i k : Nat) (s : State) : (count b l i k s).clk = s.clk := rfl
@[simp] theorem count_glb (b l i k : Nat) (s : State) : (count b l i k s).glb = s.glb := rfl
@[simp] theorem count_epochs (b l i k : Nat) (s : State) : (count b l i k s).epochs = s.epochs := rfl
@[simp] theorem count_owner (b l i k : Nat) (s : State) : (count b l i k s).owner = s.owner := rfl
@[simp] theorem count_rings (b l i k : Nat) (s : State) : (count b l i k s).rings = s.rings := rfl
@[simp] theorem count_ops (b l i k : Nat) (s : State) : (count b l i k s).ops = s.ops := rfl
@[simp] theorem count_hosts (b l i k : Nat) (s : State) : (count b l i k s).hosts = s.hosts := rfl
@[simp] theorem count_fns (b l i k : Nat) (s : State) : (count b l i k s).fns = s.fns := rfl
@[simp] theorem count_queues (b l i k : Nat) (s : State) : (count b l i k s).queues = s.queues := rfl
@[simp] theorem count_eth (b l i k : Nat) (s : State) : (count b l i k s).eth = s.eth := rfl
@[simp] theorem count_parse (b l i k : Nat) (s : State) : (count b l i k s).parse = s.parse := rfl
@[simp] theorem count_cls (b l i k : Nat) (s : State) : (count b l i k s).cls = s.cls := rfl
@[simp] theorem count_tables (b l i k : Nat) (s : State) : (count b l i k s).tables = s.tables := rfl
@[simp] theorem count_hod (b l i k : Nat) (s : State) : (count b l i k s).hod = s.hod := rfl
@[simp] theorem count_sched (b l i k : Nat) (s : State) : (count b l i k s).sched = s.sched := rfl
@[simp] theorem count_net (b l i k : Nat) (s : State) : (count b l i k s).net = s.net := rfl
@[simp] theorem count_ctx (b l i k : Nat) (s : State) : (count b l i k s).ctx = s.ctx := rfl
@[simp] theorem count_nvme (b l i k : Nat) (s : State) : (count b l i k s).nvme = s.nvme := rfl
@[simp] theorem count_crypt (b l i k : Nat) (s : State) : (count b l i k s).crypt = s.crypt := rfl
@[simp] theorem count_cores (b l i k : Nat) (s : State) : (count b l i k s).cores = s.cores := rfl
@[simp] theorem count_dram (b l i k : Nat) (s : State) : (count b l i k s).dram = s.dram := rfl
@[simp] theorem count_sec (b l i k : Nat) (s : State) : (count b l i k s).sec = s.sec := rfl
@[simp] theorem count_klb (b l i k : Nat) (s : State) : (count b l i k s).klb = s.klb := rfl
@[simp] theorem count_elec (b l i k : Nat) (s : State) : (count b l i k s).elec = s.elec := rfl
@[simp] theorem count_degr (b l i k : Nat) (s : State) : (count b l i k s).degr = s.degr := rfl
@[simp] theorem count_bist (b l i k : Nat) (s : State) : (count b l i k s).bist = s.bist := rfl
@[simp] theorem count_carve (b l i k : Nat) (s : State) : (count b l i k s).carve = s.carve := rfl
@[simp] theorem count_violations (b l i k : Nat) (s : State) : (count b l i k s).violations = s.violations := rfl
@[simp] theorem count_counters (b l i k : Nat) (s : State) : (count b l i k s).counters = ctrPut s.counters (ctrKey b l i) (counter s b l i + k) := rfl
@[simp] theorem count_regs (b l i k : Nat) (s : State) : (count b l i k s).regs = s.regs := rfl

/-! modLink -/
@[simp] theorem modLink_pending (h : HostId) (f : HostLink → HostLink) (s : State) : (modLink h f s).pending = s.pending := rfl
@[simp] theorem modLink_fenced (h : HostId) (f : HostLink → HostLink) (s : State) : (modLink h f s).fenced = s.fenced := rfl
@[simp] theorem modLink_out (h : HostId) (f : HostLink → HostLink) (s : State) : (modLink h f s).out = s.out := rfl
@[simp] theorem modLink_drawn (h : HostId) (f : HostLink → HostLink) (s : State) : (modLink h f s).drawn = s.drawn := rfl
@[simp] theorem modLink_now (h : HostId) (f : HostLink → HostLink) (s : State) : (modLink h f s).now = s.now := rfl
@[simp] theorem modLink_dtime (h : HostId) (f : HostLink → HostLink) (s : State) : (modLink h f s).dtime = s.dtime := rfl
@[simp] theorem modLink_nv (h : HostId) (f : HostLink → HostLink) (s : State) : (modLink h f s).nv = s.nv := rfl
@[simp] theorem modLink_clk (h : HostId) (f : HostLink → HostLink) (s : State) : (modLink h f s).clk = s.clk := rfl
@[simp] theorem modLink_glb (h : HostId) (f : HostLink → HostLink) (s : State) : (modLink h f s).glb = s.glb := rfl
@[simp] theorem modLink_epochs (h : HostId) (f : HostLink → HostLink) (s : State) : (modLink h f s).epochs = s.epochs := rfl
@[simp] theorem modLink_owner (h : HostId) (f : HostLink → HostLink) (s : State) : (modLink h f s).owner = s.owner := rfl
@[simp] theorem modLink_rings (h : HostId) (f : HostLink → HostLink) (s : State) : (modLink h f s).rings = s.rings := rfl
@[simp] theorem modLink_ops (h : HostId) (f : HostLink → HostLink) (s : State) : (modLink h f s).ops = s.ops := rfl
@[simp] theorem modLink_hosts (h : HostId) (f : HostLink → HostLink) (s : State) : (modLink h f s).hosts = vmod s.hosts h f := rfl
@[simp] theorem modLink_fns (h : HostId) (f : HostLink → HostLink) (s : State) : (modLink h f s).fns = s.fns := rfl
@[simp] theorem modLink_queues (h : HostId) (f : HostLink → HostLink) (s : State) : (modLink h f s).queues = s.queues := rfl
@[simp] theorem modLink_eth (h : HostId) (f : HostLink → HostLink) (s : State) : (modLink h f s).eth = s.eth := rfl
@[simp] theorem modLink_parse (h : HostId) (f : HostLink → HostLink) (s : State) : (modLink h f s).parse = s.parse := rfl
@[simp] theorem modLink_cls (h : HostId) (f : HostLink → HostLink) (s : State) : (modLink h f s).cls = s.cls := rfl
@[simp] theorem modLink_tables (h : HostId) (f : HostLink → HostLink) (s : State) : (modLink h f s).tables = s.tables := rfl
@[simp] theorem modLink_hod (h : HostId) (f : HostLink → HostLink) (s : State) : (modLink h f s).hod = s.hod := rfl
@[simp] theorem modLink_sched (h : HostId) (f : HostLink → HostLink) (s : State) : (modLink h f s).sched = s.sched := rfl
@[simp] theorem modLink_net (h : HostId) (f : HostLink → HostLink) (s : State) : (modLink h f s).net = s.net := rfl
@[simp] theorem modLink_ctx (h : HostId) (f : HostLink → HostLink) (s : State) : (modLink h f s).ctx = s.ctx := rfl
@[simp] theorem modLink_nvme (h : HostId) (f : HostLink → HostLink) (s : State) : (modLink h f s).nvme = s.nvme := rfl
@[simp] theorem modLink_crypt (h : HostId) (f : HostLink → HostLink) (s : State) : (modLink h f s).crypt = s.crypt := rfl
@[simp] theorem modLink_cores (h : HostId) (f : HostLink → HostLink) (s : State) : (modLink h f s).cores = s.cores := rfl
@[simp] theorem modLink_dram (h : HostId) (f : HostLink → HostLink) (s : State) : (modLink h f s).dram = s.dram := rfl
@[simp] theorem modLink_sec (h : HostId) (f : HostLink → HostLink) (s : State) : (modLink h f s).sec = s.sec := rfl
@[simp] theorem modLink_klb (h : HostId) (f : HostLink → HostLink) (s : State) : (modLink h f s).klb = s.klb := rfl
@[simp] theorem modLink_elec (h : HostId) (f : HostLink → HostLink) (s : State) : (modLink h f s).elec = s.elec := rfl
@[simp] theorem modLink_degr (h : HostId) (f : HostLink → HostLink) (s : State) : (modLink h f s).degr = s.degr := rfl
@[simp] theorem modLink_bist (h : HostId) (f : HostLink → HostLink) (s : State) : (modLink h f s).bist = s.bist := rfl
@[simp] theorem modLink_carve (h : HostId) (f : HostLink → HostLink) (s : State) : (modLink h f s).carve = s.carve := rfl
@[simp] theorem modLink_violations (h : HostId) (f : HostLink → HostLink) (s : State) : (modLink h f s).violations = s.violations := rfl
@[simp] theorem modLink_counters (h : HostId) (f : HostLink → HostLink) (s : State) : (modLink h f s).counters = s.counters := rfl
@[simp] theorem modLink_regs (h : HostId) (f : HostLink → HostLink) (s : State) : (modLink h f s).regs = s.regs := rfl

/-! modFn -/
@[simp] theorem modFn_pending (h : HostId) (n : Fn) (f : FnState → FnState) (s : State) : (modFn h n f s).pending = s.pending := rfl
@[simp] theorem modFn_fenced (h : HostId) (n : Fn) (f : FnState → FnState) (s : State) : (modFn h n f s).fenced = s.fenced := rfl
@[simp] theorem modFn_out (h : HostId) (n : Fn) (f : FnState → FnState) (s : State) : (modFn h n f s).out = s.out := rfl
@[simp] theorem modFn_drawn (h : HostId) (n : Fn) (f : FnState → FnState) (s : State) : (modFn h n f s).drawn = s.drawn := rfl
@[simp] theorem modFn_now (h : HostId) (n : Fn) (f : FnState → FnState) (s : State) : (modFn h n f s).now = s.now := rfl
@[simp] theorem modFn_dtime (h : HostId) (n : Fn) (f : FnState → FnState) (s : State) : (modFn h n f s).dtime = s.dtime := rfl
@[simp] theorem modFn_nv (h : HostId) (n : Fn) (f : FnState → FnState) (s : State) : (modFn h n f s).nv = s.nv := rfl
@[simp] theorem modFn_clk (h : HostId) (n : Fn) (f : FnState → FnState) (s : State) : (modFn h n f s).clk = s.clk := rfl
@[simp] theorem modFn_glb (h : HostId) (n : Fn) (f : FnState → FnState) (s : State) : (modFn h n f s).glb = s.glb := rfl
@[simp] theorem modFn_epochs (h : HostId) (n : Fn) (f : FnState → FnState) (s : State) : (modFn h n f s).epochs = s.epochs := rfl
@[simp] theorem modFn_owner (h : HostId) (n : Fn) (f : FnState → FnState) (s : State) : (modFn h n f s).owner = s.owner := rfl
@[simp] theorem modFn_rings (h : HostId) (n : Fn) (f : FnState → FnState) (s : State) : (modFn h n f s).rings = s.rings := rfl
@[simp] theorem modFn_ops (h : HostId) (n : Fn) (f : FnState → FnState) (s : State) : (modFn h n f s).ops = s.ops := rfl
@[simp] theorem modFn_hosts (h : HostId) (n : Fn) (f : FnState → FnState) (s : State) : (modFn h n f s).hosts = s.hosts := rfl
@[simp] theorem modFn_fns (h : HostId) (n : Fn) (f : FnState → FnState) (s : State) : (modFn h n f s).fns = Tbl.put s.fns (fnKey h n) (f (fnOf s h n)) := rfl
@[simp] theorem modFn_queues (h : HostId) (n : Fn) (f : FnState → FnState) (s : State) : (modFn h n f s).queues = s.queues := rfl
@[simp] theorem modFn_eth (h : HostId) (n : Fn) (f : FnState → FnState) (s : State) : (modFn h n f s).eth = s.eth := rfl
@[simp] theorem modFn_parse (h : HostId) (n : Fn) (f : FnState → FnState) (s : State) : (modFn h n f s).parse = s.parse := rfl
@[simp] theorem modFn_cls (h : HostId) (n : Fn) (f : FnState → FnState) (s : State) : (modFn h n f s).cls = s.cls := rfl
@[simp] theorem modFn_tables (h : HostId) (n : Fn) (f : FnState → FnState) (s : State) : (modFn h n f s).tables = s.tables := rfl
@[simp] theorem modFn_hod (h : HostId) (n : Fn) (f : FnState → FnState) (s : State) : (modFn h n f s).hod = s.hod := rfl
@[simp] theorem modFn_sched (h : HostId) (n : Fn) (f : FnState → FnState) (s : State) : (modFn h n f s).sched = s.sched := rfl
@[simp] theorem modFn_net (h : HostId) (n : Fn) (f : FnState → FnState) (s : State) : (modFn h n f s).net = s.net := rfl
@[simp] theorem modFn_ctx (h : HostId) (n : Fn) (f : FnState → FnState) (s : State) : (modFn h n f s).ctx = s.ctx := rfl
@[simp] theorem modFn_nvme (h : HostId) (n : Fn) (f : FnState → FnState) (s : State) : (modFn h n f s).nvme = s.nvme := rfl
@[simp] theorem modFn_crypt (h : HostId) (n : Fn) (f : FnState → FnState) (s : State) : (modFn h n f s).crypt = s.crypt := rfl
@[simp] theorem modFn_cores (h : HostId) (n : Fn) (f : FnState → FnState) (s : State) : (modFn h n f s).cores = s.cores := rfl
@[simp] theorem modFn_dram (h : HostId) (n : Fn) (f : FnState → FnState) (s : State) : (modFn h n f s).dram = s.dram := rfl
@[simp] theorem modFn_sec (h : HostId) (n : Fn) (f : FnState → FnState) (s : State) : (modFn h n f s).sec = s.sec := rfl
@[simp] theorem modFn_klb (h : HostId) (n : Fn) (f : FnState → FnState) (s : State) : (modFn h n f s).klb = s.klb := rfl
@[simp] theorem modFn_elec (h : HostId) (n : Fn) (f : FnState → FnState) (s : State) : (modFn h n f s).elec = s.elec := rfl
@[simp] theorem modFn_degr (h : HostId) (n : Fn) (f : FnState → FnState) (s : State) : (modFn h n f s).degr = s.degr := rfl
@[simp] theorem modFn_bist (h : HostId) (n : Fn) (f : FnState → FnState) (s : State) : (modFn h n f s).bist = s.bist := rfl
@[simp] theorem modFn_carve (h : HostId) (n : Fn) (f : FnState → FnState) (s : State) : (modFn h n f s).carve = s.carve := rfl
@[simp] theorem modFn_violations (h : HostId) (n : Fn) (f : FnState → FnState) (s : State) : (modFn h n f s).violations = s.violations := rfl
@[simp] theorem modFn_counters (h : HostId) (n : Fn) (f : FnState → FnState) (s : State) : (modFn h n f s).counters = s.counters := rfl
@[simp] theorem modFn_regs (h : HostId) (n : Fn) (f : FnState → FnState) (s : State) : (modFn h n f s).regs = s.regs := rfl

/-! modQueue -/
@[simp] theorem modQueue_pending (h : HostId) (n : Fn) (q : Nat) (f : Queue → Queue) (s : State) : (modQueue h n q f s).pending = s.pending := rfl
@[simp] theorem modQueue_fenced (h : HostId) (n : Fn) (q : Nat) (f : Queue → Queue) (s : State) : (modQueue h n q f s).fenced = s.fenced := rfl
@[simp] theorem modQueue_out (h : HostId) (n : Fn) (q : Nat) (f : Queue → Queue) (s : State) : (modQueue h n q f s).out = s.out := rfl
@[simp] theorem modQueue_drawn (h : HostId) (n : Fn) (q : Nat) (f : Queue → Queue) (s : State) : (modQueue h n q f s).drawn = s.drawn := rfl
@[simp] theorem modQueue_now (h : HostId) (n : Fn) (q : Nat) (f : Queue → Queue) (s : State) : (modQueue h n q f s).now = s.now := rfl
@[simp] theorem modQueue_dtime (h : HostId) (n : Fn) (q : Nat) (f : Queue → Queue) (s : State) : (modQueue h n q f s).dtime = s.dtime := rfl
@[simp] theorem modQueue_nv (h : HostId) (n : Fn) (q : Nat) (f : Queue → Queue) (s : State) : (modQueue h n q f s).nv = s.nv := rfl
@[simp] theorem modQueue_clk (h : HostId) (n : Fn) (q : Nat) (f : Queue → Queue) (s : State) : (modQueue h n q f s).clk = s.clk := rfl
@[simp] theorem modQueue_glb (h : HostId) (n : Fn) (q : Nat) (f : Queue → Queue) (s : State) : (modQueue h n q f s).glb = s.glb := rfl
@[simp] theorem modQueue_epochs (h : HostId) (n : Fn) (q : Nat) (f : Queue → Queue) (s : State) : (modQueue h n q f s).epochs = s.epochs := rfl
@[simp] theorem modQueue_owner (h : HostId) (n : Fn) (q : Nat) (f : Queue → Queue) (s : State) : (modQueue h n q f s).owner = s.owner := rfl
@[simp] theorem modQueue_rings (h : HostId) (n : Fn) (q : Nat) (f : Queue → Queue) (s : State) : (modQueue h n q f s).rings = s.rings := rfl
@[simp] theorem modQueue_ops (h : HostId) (n : Fn) (q : Nat) (f : Queue → Queue) (s : State) : (modQueue h n q f s).ops = s.ops := rfl
@[simp] theorem modQueue_hosts (h : HostId) (n : Fn) (q : Nat) (f : Queue → Queue) (s : State) : (modQueue h n q f s).hosts = s.hosts := rfl
@[simp] theorem modQueue_fns (h : HostId) (n : Fn) (q : Nat) (f : Queue → Queue) (s : State) : (modQueue h n q f s).fns = s.fns := rfl
@[simp] theorem modQueue_queues (h : HostId) (n : Fn) (q : Nat) (f : Queue → Queue) (s : State) : (modQueue h n q f s).queues = Tbl.modify s.queues (qKey h n q) f := rfl
@[simp] theorem modQueue_eth (h : HostId) (n : Fn) (q : Nat) (f : Queue → Queue) (s : State) : (modQueue h n q f s).eth = s.eth := rfl
@[simp] theorem modQueue_parse (h : HostId) (n : Fn) (q : Nat) (f : Queue → Queue) (s : State) : (modQueue h n q f s).parse = s.parse := rfl
@[simp] theorem modQueue_cls (h : HostId) (n : Fn) (q : Nat) (f : Queue → Queue) (s : State) : (modQueue h n q f s).cls = s.cls := rfl
@[simp] theorem modQueue_tables (h : HostId) (n : Fn) (q : Nat) (f : Queue → Queue) (s : State) : (modQueue h n q f s).tables = s.tables := rfl
@[simp] theorem modQueue_hod (h : HostId) (n : Fn) (q : Nat) (f : Queue → Queue) (s : State) : (modQueue h n q f s).hod = s.hod := rfl
@[simp] theorem modQueue_sched (h : HostId) (n : Fn) (q : Nat) (f : Queue → Queue) (s : State) : (modQueue h n q f s).sched = s.sched := rfl
@[simp] theorem modQueue_net (h : HostId) (n : Fn) (q : Nat) (f : Queue → Queue) (s : State) : (modQueue h n q f s).net = s.net := rfl
@[simp] theorem modQueue_ctx (h : HostId) (n : Fn) (q : Nat) (f : Queue → Queue) (s : State) : (modQueue h n q f s).ctx = s.ctx := rfl
@[simp] theorem modQueue_nvme (h : HostId) (n : Fn) (q : Nat) (f : Queue → Queue) (s : State) : (modQueue h n q f s).nvme = s.nvme := rfl
@[simp] theorem modQueue_crypt (h : HostId) (n : Fn) (q : Nat) (f : Queue → Queue) (s : State) : (modQueue h n q f s).crypt = s.crypt := rfl
@[simp] theorem modQueue_cores (h : HostId) (n : Fn) (q : Nat) (f : Queue → Queue) (s : State) : (modQueue h n q f s).cores = s.cores := rfl
@[simp] theorem modQueue_dram (h : HostId) (n : Fn) (q : Nat) (f : Queue → Queue) (s : State) : (modQueue h n q f s).dram = s.dram := rfl
@[simp] theorem modQueue_sec (h : HostId) (n : Fn) (q : Nat) (f : Queue → Queue) (s : State) : (modQueue h n q f s).sec = s.sec := rfl
@[simp] theorem modQueue_klb (h : HostId) (n : Fn) (q : Nat) (f : Queue → Queue) (s : State) : (modQueue h n q f s).klb = s.klb := rfl
@[simp] theorem modQueue_elec (h : HostId) (n : Fn) (q : Nat) (f : Queue → Queue) (s : State) : (modQueue h n q f s).elec = s.elec := rfl
@[simp] theorem modQueue_degr (h : HostId) (n : Fn) (q : Nat) (f : Queue → Queue) (s : State) : (modQueue h n q f s).degr = s.degr := rfl
@[simp] theorem modQueue_bist (h : HostId) (n : Fn) (q : Nat) (f : Queue → Queue) (s : State) : (modQueue h n q f s).bist = s.bist := rfl
@[simp] theorem modQueue_carve (h : HostId) (n : Fn) (q : Nat) (f : Queue → Queue) (s : State) : (modQueue h n q f s).carve = s.carve := rfl
@[simp] theorem modQueue_violations (h : HostId) (n : Fn) (q : Nat) (f : Queue → Queue) (s : State) : (modQueue h n q f s).violations = s.violations := rfl
@[simp] theorem modQueue_counters (h : HostId) (n : Fn) (q : Nat) (f : Queue → Queue) (s : State) : (modQueue h n q f s).counters = s.counters := rfl
@[simp] theorem modQueue_regs (h : HostId) (n : Fn) (q : Nat) (f : Queue → Queue) (s : State) : (modQueue h n q f s).regs = s.regs := rfl

/-! modRing -/
@[simp] theorem modRing_pending (c : RingChan) (f : Ring → Ring) (s : State) : (modRing c f s).pending = s.pending := rfl
@[simp] theorem modRing_fenced (c : RingChan) (f : Ring → Ring) (s : State) : (modRing c f s).fenced = s.fenced := rfl
@[simp] theorem modRing_out (c : RingChan) (f : Ring → Ring) (s : State) : (modRing c f s).out = s.out := rfl
@[simp] theorem modRing_drawn (c : RingChan) (f : Ring → Ring) (s : State) : (modRing c f s).drawn = s.drawn := rfl
@[simp] theorem modRing_now (c : RingChan) (f : Ring → Ring) (s : State) : (modRing c f s).now = s.now := rfl
@[simp] theorem modRing_dtime (c : RingChan) (f : Ring → Ring) (s : State) : (modRing c f s).dtime = s.dtime := rfl
@[simp] theorem modRing_nv (c : RingChan) (f : Ring → Ring) (s : State) : (modRing c f s).nv = s.nv := rfl
@[simp] theorem modRing_clk (c : RingChan) (f : Ring → Ring) (s : State) : (modRing c f s).clk = s.clk := rfl
@[simp] theorem modRing_glb (c : RingChan) (f : Ring → Ring) (s : State) : (modRing c f s).glb = s.glb := rfl
@[simp] theorem modRing_epochs (c : RingChan) (f : Ring → Ring) (s : State) : (modRing c f s).epochs = s.epochs := rfl
@[simp] theorem modRing_owner (c : RingChan) (f : Ring → Ring) (s : State) : (modRing c f s).owner = s.owner := rfl
@[simp] theorem modRing_rings (c : RingChan) (f : Ring → Ring) (s : State) : (modRing c f s).rings = Tbl.put s.rings c.number (f (ring s c)) := rfl
@[simp] theorem modRing_ops (c : RingChan) (f : Ring → Ring) (s : State) : (modRing c f s).ops = s.ops := rfl
@[simp] theorem modRing_hosts (c : RingChan) (f : Ring → Ring) (s : State) : (modRing c f s).hosts = s.hosts := rfl
@[simp] theorem modRing_fns (c : RingChan) (f : Ring → Ring) (s : State) : (modRing c f s).fns = s.fns := rfl
@[simp] theorem modRing_queues (c : RingChan) (f : Ring → Ring) (s : State) : (modRing c f s).queues = s.queues := rfl
@[simp] theorem modRing_eth (c : RingChan) (f : Ring → Ring) (s : State) : (modRing c f s).eth = s.eth := rfl
@[simp] theorem modRing_parse (c : RingChan) (f : Ring → Ring) (s : State) : (modRing c f s).parse = s.parse := rfl
@[simp] theorem modRing_cls (c : RingChan) (f : Ring → Ring) (s : State) : (modRing c f s).cls = s.cls := rfl
@[simp] theorem modRing_tables (c : RingChan) (f : Ring → Ring) (s : State) : (modRing c f s).tables = s.tables := rfl
@[simp] theorem modRing_hod (c : RingChan) (f : Ring → Ring) (s : State) : (modRing c f s).hod = s.hod := rfl
@[simp] theorem modRing_sched (c : RingChan) (f : Ring → Ring) (s : State) : (modRing c f s).sched = s.sched := rfl
@[simp] theorem modRing_net (c : RingChan) (f : Ring → Ring) (s : State) : (modRing c f s).net = s.net := rfl
@[simp] theorem modRing_ctx (c : RingChan) (f : Ring → Ring) (s : State) : (modRing c f s).ctx = s.ctx := rfl
@[simp] theorem modRing_nvme (c : RingChan) (f : Ring → Ring) (s : State) : (modRing c f s).nvme = s.nvme := rfl
@[simp] theorem modRing_crypt (c : RingChan) (f : Ring → Ring) (s : State) : (modRing c f s).crypt = s.crypt := rfl
@[simp] theorem modRing_cores (c : RingChan) (f : Ring → Ring) (s : State) : (modRing c f s).cores = s.cores := rfl
@[simp] theorem modRing_dram (c : RingChan) (f : Ring → Ring) (s : State) : (modRing c f s).dram = s.dram := rfl
@[simp] theorem modRing_sec (c : RingChan) (f : Ring → Ring) (s : State) : (modRing c f s).sec = s.sec := rfl
@[simp] theorem modRing_klb (c : RingChan) (f : Ring → Ring) (s : State) : (modRing c f s).klb = s.klb := rfl
@[simp] theorem modRing_elec (c : RingChan) (f : Ring → Ring) (s : State) : (modRing c f s).elec = s.elec := rfl
@[simp] theorem modRing_degr (c : RingChan) (f : Ring → Ring) (s : State) : (modRing c f s).degr = s.degr := rfl
@[simp] theorem modRing_bist (c : RingChan) (f : Ring → Ring) (s : State) : (modRing c f s).bist = s.bist := rfl
@[simp] theorem modRing_carve (c : RingChan) (f : Ring → Ring) (s : State) : (modRing c f s).carve = s.carve := rfl
@[simp] theorem modRing_violations (c : RingChan) (f : Ring → Ring) (s : State) : (modRing c f s).violations = s.violations := rfl
@[simp] theorem modRing_counters (c : RingChan) (f : Ring → Ring) (s : State) : (modRing c f s).counters = s.counters := rfl
@[simp] theorem modRing_regs (c : RingChan) (f : Ring → Ring) (s : State) : (modRing c f s).regs = s.regs := rfl

/-! consume -/
@[simp] theorem consume_pending (c : RingChan) (p : Packet) (s : State) : (consume c p s).pending = s.pending := rfl
@[simp] theorem consume_fenced (c : RingChan) (p : Packet) (s : State) : (consume c p s).fenced = s.fenced := rfl
@[simp] theorem consume_out (c : RingChan) (p : Packet) (s : State) : (consume c p s).out = s.out := rfl
@[simp] theorem consume_drawn (c : RingChan) (p : Packet) (s : State) : (consume c p s).drawn = s.drawn := rfl
@[simp] theorem consume_now (c : RingChan) (p : Packet) (s : State) : (consume c p s).now = s.now := rfl
@[simp] theorem consume_dtime (c : RingChan) (p : Packet) (s : State) : (consume c p s).dtime = s.dtime := rfl
@[simp] theorem consume_nv (c : RingChan) (p : Packet) (s : State) : (consume c p s).nv = s.nv := rfl
@[simp] theorem consume_clk (c : RingChan) (p : Packet) (s : State) : (consume c p s).clk = s.clk := rfl
@[simp] theorem consume_glb (c : RingChan) (p : Packet) (s : State) : (consume c p s).glb = s.glb := rfl
@[simp] theorem consume_epochs (c : RingChan) (p : Packet) (s : State) : (consume c p s).epochs = s.epochs := rfl
@[simp] theorem consume_owner (c : RingChan) (p : Packet) (s : State) : (consume c p s).owner = s.owner := rfl
@[simp] theorem consume_rings (c : RingChan) (p : Packet) (s : State) : (consume c p s).rings = Tbl.put s.rings c.number { ring s c with sqHead := ringNext (ring s c).sqCfg (ring s c).sqHead p.slots } := rfl
@[simp] theorem consume_ops (c : RingChan) (p : Packet) (s : State) : (consume c p s).ops = s.ops := rfl
@[simp] theorem consume_hosts (c : RingChan) (p : Packet) (s : State) : (consume c p s).hosts = s.hosts := rfl
@[simp] theorem consume_fns (c : RingChan) (p : Packet) (s : State) : (consume c p s).fns = s.fns := rfl
@[simp] theorem consume_queues (c : RingChan) (p : Packet) (s : State) : (consume c p s).queues = s.queues := rfl
@[simp] theorem consume_eth (c : RingChan) (p : Packet) (s : State) : (consume c p s).eth = s.eth := rfl
@[simp] theorem consume_parse (c : RingChan) (p : Packet) (s : State) : (consume c p s).parse = s.parse := rfl
@[simp] theorem consume_cls (c : RingChan) (p : Packet) (s : State) : (consume c p s).cls = s.cls := rfl
@[simp] theorem consume_tables (c : RingChan) (p : Packet) (s : State) : (consume c p s).tables = s.tables := rfl
@[simp] theorem consume_hod (c : RingChan) (p : Packet) (s : State) : (consume c p s).hod = s.hod := rfl
@[simp] theorem consume_sched (c : RingChan) (p : Packet) (s : State) : (consume c p s).sched = s.sched := rfl
@[simp] theorem consume_net (c : RingChan) (p : Packet) (s : State) : (consume c p s).net = s.net := rfl
@[simp] theorem consume_ctx (c : RingChan) (p : Packet) (s : State) : (consume c p s).ctx = s.ctx := rfl
@[simp] theorem consume_nvme (c : RingChan) (p : Packet) (s : State) : (consume c p s).nvme = s.nvme := rfl
@[simp] theorem consume_crypt (c : RingChan) (p : Packet) (s : State) : (consume c p s).crypt = s.crypt := rfl
@[simp] theorem consume_cores (c : RingChan) (p : Packet) (s : State) : (consume c p s).cores = s.cores := rfl
@[simp] theorem consume_dram (c : RingChan) (p : Packet) (s : State) : (consume c p s).dram = s.dram := rfl
@[simp] theorem consume_sec (c : RingChan) (p : Packet) (s : State) : (consume c p s).sec = s.sec := rfl
@[simp] theorem consume_klb (c : RingChan) (p : Packet) (s : State) : (consume c p s).klb = s.klb := rfl
@[simp] theorem consume_elec (c : RingChan) (p : Packet) (s : State) : (consume c p s).elec = s.elec := rfl
@[simp] theorem consume_degr (c : RingChan) (p : Packet) (s : State) : (consume c p s).degr = s.degr := rfl
@[simp] theorem consume_bist (c : RingChan) (p : Packet) (s : State) : (consume c p s).bist = s.bist := rfl
@[simp] theorem consume_carve (c : RingChan) (p : Packet) (s : State) : (consume c p s).carve = s.carve := rfl
@[simp] theorem consume_violations (c : RingChan) (p : Packet) (s : State) : (consume c p s).violations = s.violations := rfl
@[simp] theorem consume_counters (c : RingChan) (p : Packet) (s : State) : (consume c p s).counters = s.counters := rfl
@[simp] theorem consume_regs (c : RingChan) (p : Packet) (s : State) : (consume c p s).regs = s.regs := rfl

/-! ringFault -/
@[simp] theorem ringFault_pending (c : RingChan) (s : State) : (ringFault c s).pending = s.pending := rfl
@[simp] theorem ringFault_fenced (c : RingChan) (s : State) : (ringFault c s).fenced = s.fenced := rfl
@[simp] theorem ringFault_out (c : RingChan) (s : State) : (ringFault c s).out = s.out := rfl
@[simp] theorem ringFault_drawn (c : RingChan) (s : State) : (ringFault c s).drawn = s.drawn := rfl
@[simp] theorem ringFault_now (c : RingChan) (s : State) : (ringFault c s).now = s.now := rfl
@[simp] theorem ringFault_dtime (c : RingChan) (s : State) : (ringFault c s).dtime = s.dtime := rfl
@[simp] theorem ringFault_nv (c : RingChan) (s : State) : (ringFault c s).nv = s.nv := rfl
@[simp] theorem ringFault_clk (c : RingChan) (s : State) : (ringFault c s).clk = s.clk := rfl
@[simp] theorem ringFault_glb (c : RingChan) (s : State) : (ringFault c s).glb = s.glb := rfl
@[simp] theorem ringFault_epochs (c : RingChan) (s : State) : (ringFault c s).epochs = s.epochs := rfl
@[simp] theorem ringFault_owner (c : RingChan) (s : State) : (ringFault c s).owner = s.owner := rfl
@[simp] theorem ringFault_rings (c : RingChan) (s : State) : (ringFault c s).rings = Tbl.put s.rings c.number { ring s c with running := false, fault := true } := rfl
@[simp] theorem ringFault_ops (c : RingChan) (s : State) : (ringFault c s).ops = s.ops := rfl
@[simp] theorem ringFault_hosts (c : RingChan) (s : State) : (ringFault c s).hosts = s.hosts := rfl
@[simp] theorem ringFault_fns (c : RingChan) (s : State) : (ringFault c s).fns = s.fns := rfl
@[simp] theorem ringFault_queues (c : RingChan) (s : State) : (ringFault c s).queues = s.queues := rfl
@[simp] theorem ringFault_eth (c : RingChan) (s : State) : (ringFault c s).eth = s.eth := rfl
@[simp] theorem ringFault_parse (c : RingChan) (s : State) : (ringFault c s).parse = s.parse := rfl
@[simp] theorem ringFault_cls (c : RingChan) (s : State) : (ringFault c s).cls = s.cls := rfl
@[simp] theorem ringFault_tables (c : RingChan) (s : State) : (ringFault c s).tables = s.tables := rfl
@[simp] theorem ringFault_hod (c : RingChan) (s : State) : (ringFault c s).hod = s.hod := rfl
@[simp] theorem ringFault_sched (c : RingChan) (s : State) : (ringFault c s).sched = s.sched := rfl
@[simp] theorem ringFault_net (c : RingChan) (s : State) : (ringFault c s).net = s.net := rfl
@[simp] theorem ringFault_ctx (c : RingChan) (s : State) : (ringFault c s).ctx = s.ctx := rfl
@[simp] theorem ringFault_nvme (c : RingChan) (s : State) : (ringFault c s).nvme = s.nvme := rfl
@[simp] theorem ringFault_crypt (c : RingChan) (s : State) : (ringFault c s).crypt = s.crypt := rfl
@[simp] theorem ringFault_cores (c : RingChan) (s : State) : (ringFault c s).cores = s.cores := rfl
@[simp] theorem ringFault_dram (c : RingChan) (s : State) : (ringFault c s).dram = s.dram := rfl
@[simp] theorem ringFault_sec (c : RingChan) (s : State) : (ringFault c s).sec = s.sec := rfl
@[simp] theorem ringFault_klb (c : RingChan) (s : State) : (ringFault c s).klb = s.klb := rfl
@[simp] theorem ringFault_elec (c : RingChan) (s : State) : (ringFault c s).elec = s.elec := rfl
@[simp] theorem ringFault_degr (c : RingChan) (s : State) : (ringFault c s).degr = s.degr := rfl
@[simp] theorem ringFault_bist (c : RingChan) (s : State) : (ringFault c s).bist = s.bist := rfl
@[simp] theorem ringFault_carve (c : RingChan) (s : State) : (ringFault c s).carve = s.carve := rfl
@[simp] theorem ringFault_violations (c : RingChan) (s : State) : (ringFault c s).violations = s.violations := rfl
@[simp] theorem ringFault_counters (c : RingChan) (s : State) : (ringFault c s).counters = s.counters := rfl
@[simp] theorem ringFault_regs (c : RingChan) (s : State) : (ringFault c s).regs = s.regs := rfl

/-! dropOp -/
@[simp] theorem dropOp_pending (n : Nat) (s : State) : (dropOp n s).pending = s.pending := rfl
@[simp] theorem dropOp_fenced (n : Nat) (s : State) : (dropOp n s).fenced = s.fenced := rfl
@[simp] theorem dropOp_out (n : Nat) (s : State) : (dropOp n s).out = s.out := rfl
@[simp] theorem dropOp_drawn (n : Nat) (s : State) : (dropOp n s).drawn = s.drawn := rfl
@[simp] theorem dropOp_now (n : Nat) (s : State) : (dropOp n s).now = s.now := rfl
@[simp] theorem dropOp_dtime (n : Nat) (s : State) : (dropOp n s).dtime = s.dtime := rfl
@[simp] theorem dropOp_nv (n : Nat) (s : State) : (dropOp n s).nv = s.nv := rfl
@[simp] theorem dropOp_clk (n : Nat) (s : State) : (dropOp n s).clk = s.clk := rfl
@[simp] theorem dropOp_glb (n : Nat) (s : State) : (dropOp n s).glb = s.glb := rfl
@[simp] theorem dropOp_epochs (n : Nat) (s : State) : (dropOp n s).epochs = s.epochs := rfl
@[simp] theorem dropOp_owner (n : Nat) (s : State) : (dropOp n s).owner = s.owner := rfl
@[simp] theorem dropOp_rings (n : Nat) (s : State) : (dropOp n s).rings = s.rings := rfl
@[simp] theorem dropOp_ops (n : Nat) (s : State) : (dropOp n s).ops = s.ops.filter fun o => o.handle != n := rfl
@[simp] theorem dropOp_hosts (n : Nat) (s : State) : (dropOp n s).hosts = s.hosts := rfl
@[simp] theorem dropOp_fns (n : Nat) (s : State) : (dropOp n s).fns = s.fns := rfl
@[simp] theorem dropOp_queues (n : Nat) (s : State) : (dropOp n s).queues = s.queues := rfl
@[simp] theorem dropOp_eth (n : Nat) (s : State) : (dropOp n s).eth = s.eth := rfl
@[simp] theorem dropOp_parse (n : Nat) (s : State) : (dropOp n s).parse = s.parse := rfl
@[simp] theorem dropOp_cls (n : Nat) (s : State) : (dropOp n s).cls = s.cls := rfl
@[simp] theorem dropOp_tables (n : Nat) (s : State) : (dropOp n s).tables = s.tables := rfl
@[simp] theorem dropOp_hod (n : Nat) (s : State) : (dropOp n s).hod = s.hod := rfl
@[simp] theorem dropOp_sched (n : Nat) (s : State) : (dropOp n s).sched = s.sched := rfl
@[simp] theorem dropOp_net (n : Nat) (s : State) : (dropOp n s).net = s.net := rfl
@[simp] theorem dropOp_ctx (n : Nat) (s : State) : (dropOp n s).ctx = s.ctx := rfl
@[simp] theorem dropOp_nvme (n : Nat) (s : State) : (dropOp n s).nvme = s.nvme := rfl
@[simp] theorem dropOp_crypt (n : Nat) (s : State) : (dropOp n s).crypt = s.crypt := rfl
@[simp] theorem dropOp_cores (n : Nat) (s : State) : (dropOp n s).cores = s.cores := rfl
@[simp] theorem dropOp_dram (n : Nat) (s : State) : (dropOp n s).dram = s.dram := rfl
@[simp] theorem dropOp_sec (n : Nat) (s : State) : (dropOp n s).sec = s.sec := rfl
@[simp] theorem dropOp_klb (n : Nat) (s : State) : (dropOp n s).klb = s.klb := rfl
@[simp] theorem dropOp_elec (n : Nat) (s : State) : (dropOp n s).elec = s.elec := rfl
@[simp] theorem dropOp_degr (n : Nat) (s : State) : (dropOp n s).degr = s.degr := rfl
@[simp] theorem dropOp_bist (n : Nat) (s : State) : (dropOp n s).bist = s.bist := rfl
@[simp] theorem dropOp_carve (n : Nat) (s : State) : (dropOp n s).carve = s.carve := rfl
@[simp] theorem dropOp_violations (n : Nat) (s : State) : (dropOp n s).violations = s.violations := rfl
@[simp] theorem dropOp_counters (n : Nat) (s : State) : (dropOp n s).counters = s.counters := rfl
@[simp] theorem dropOp_regs (n : Nat) (s : State) : (dropOp n s).regs = s.regs := rfl

/-! putOp -/
@[simp] theorem putOp_pending (o : LongOp) (s : State) : (putOp o s).pending = s.pending := rfl
@[simp] theorem putOp_fenced (o : LongOp) (s : State) : (putOp o s).fenced = s.fenced := rfl
@[simp] theorem putOp_out (o : LongOp) (s : State) : (putOp o s).out = s.out := rfl
@[simp] theorem putOp_drawn (o : LongOp) (s : State) : (putOp o s).drawn = s.drawn := rfl
@[simp] theorem putOp_now (o : LongOp) (s : State) : (putOp o s).now = s.now := rfl
@[simp] theorem putOp_dtime (o : LongOp) (s : State) : (putOp o s).dtime = s.dtime := rfl
@[simp] theorem putOp_nv (o : LongOp) (s : State) : (putOp o s).nv = s.nv := rfl
@[simp] theorem putOp_clk (o : LongOp) (s : State) : (putOp o s).clk = s.clk := rfl
@[simp] theorem putOp_glb (o : LongOp) (s : State) : (putOp o s).glb = s.glb := rfl
@[simp] theorem putOp_epochs (o : LongOp) (s : State) : (putOp o s).epochs = s.epochs := rfl
@[simp] theorem putOp_owner (o : LongOp) (s : State) : (putOp o s).owner = s.owner := rfl
@[simp] theorem putOp_rings (o : LongOp) (s : State) : (putOp o s).rings = s.rings := rfl
@[simp] theorem putOp_ops (o : LongOp) (s : State) : (putOp o s).ops = s.ops.map fun x => if x.handle = o.handle then o else x := rfl
@[simp] theorem putOp_hosts (o : LongOp) (s : State) : (putOp o s).hosts = s.hosts := rfl
@[simp] theorem putOp_fns (o : LongOp) (s : State) : (putOp o s).fns = s.fns := rfl
@[simp] theorem putOp_queues (o : LongOp) (s : State) : (putOp o s).queues = s.queues := rfl
@[simp] theorem putOp_eth (o : LongOp) (s : State) : (putOp o s).eth = s.eth := rfl
@[simp] theorem putOp_parse (o : LongOp) (s : State) : (putOp o s).parse = s.parse := rfl
@[simp] theorem putOp_cls (o : LongOp) (s : State) : (putOp o s).cls = s.cls := rfl
@[simp] theorem putOp_tables (o : LongOp) (s : State) : (putOp o s).tables = s.tables := rfl
@[simp] theorem putOp_hod (o : LongOp) (s : State) : (putOp o s).hod = s.hod := rfl
@[simp] theorem putOp_sched (o : LongOp) (s : State) : (putOp o s).sched = s.sched := rfl
@[simp] theorem putOp_net (o : LongOp) (s : State) : (putOp o s).net = s.net := rfl
@[simp] theorem putOp_ctx (o : LongOp) (s : State) : (putOp o s).ctx = s.ctx := rfl
@[simp] theorem putOp_nvme (o : LongOp) (s : State) : (putOp o s).nvme = s.nvme := rfl
@[simp] theorem putOp_crypt (o : LongOp) (s : State) : (putOp o s).crypt = s.crypt := rfl
@[simp] theorem putOp_cores (o : LongOp) (s : State) : (putOp o s).cores = s.cores := rfl
@[simp] theorem putOp_dram (o : LongOp) (s : State) : (putOp o s).dram = s.dram := rfl
@[simp] theorem putOp_sec (o : LongOp) (s : State) : (putOp o s).sec = s.sec := rfl
@[simp] theorem putOp_klb (o : LongOp) (s : State) : (putOp o s).klb = s.klb := rfl
@[simp] theorem putOp_elec (o : LongOp) (s : State) : (putOp o s).elec = s.elec := rfl
@[simp] theorem putOp_degr (o : LongOp) (s : State) : (putOp o s).degr = s.degr := rfl
@[simp] theorem putOp_bist (o : LongOp) (s : State) : (putOp o s).bist = s.bist := rfl
@[simp] theorem putOp_carve (o : LongOp) (s : State) : (putOp o s).carve = s.carve := rfl
@[simp] theorem putOp_violations (o : LongOp) (s : State) : (putOp o s).violations = s.violations := rfl
@[simp] theorem putOp_counters (o : LongOp) (s : State) : (putOp o s).counters = s.counters := rfl
@[simp] theorem putOp_regs (o : LongOp) (s : State) : (putOp o s).regs = s.regs := rfl

/-! modUnit -/
@[simp] theorem modUnit_pending (i : Fin 32) (f : UnitState → UnitState) (s : State) : (modUnit i f s).pending = s.pending := rfl
@[simp] theorem modUnit_fenced (i : Fin 32) (f : UnitState → UnitState) (s : State) : (modUnit i f s).fenced = s.fenced := rfl
@[simp] theorem modUnit_out (i : Fin 32) (f : UnitState → UnitState) (s : State) : (modUnit i f s).out = s.out := rfl
@[simp] theorem modUnit_drawn (i : Fin 32) (f : UnitState → UnitState) (s : State) : (modUnit i f s).drawn = s.drawn := rfl
@[simp] theorem modUnit_now (i : Fin 32) (f : UnitState → UnitState) (s : State) : (modUnit i f s).now = s.now := rfl
@[simp] theorem modUnit_dtime (i : Fin 32) (f : UnitState → UnitState) (s : State) : (modUnit i f s).dtime = s.dtime := rfl
@[simp] theorem modUnit_nv (i : Fin 32) (f : UnitState → UnitState) (s : State) : (modUnit i f s).nv = s.nv := rfl
@[simp] theorem modUnit_clk (i : Fin 32) (f : UnitState → UnitState) (s : State) : (modUnit i f s).clk = s.clk := rfl
@[simp] theorem modUnit_glb (i : Fin 32) (f : UnitState → UnitState) (s : State) : (modUnit i f s).glb = s.glb := rfl
@[simp] theorem modUnit_owner (i : Fin 32) (f : UnitState → UnitState) (s : State) : (modUnit i f s).owner = s.owner := rfl
@[simp] theorem modUnit_rings (i : Fin 32) (f : UnitState → UnitState) (s : State) : (modUnit i f s).rings = s.rings := rfl
@[simp] theorem modUnit_ops (i : Fin 32) (f : UnitState → UnitState) (s : State) : (modUnit i f s).ops = s.ops := rfl
@[simp] theorem modUnit_hosts (i : Fin 32) (f : UnitState → UnitState) (s : State) : (modUnit i f s).hosts = s.hosts := rfl
@[simp] theorem modUnit_fns (i : Fin 32) (f : UnitState → UnitState) (s : State) : (modUnit i f s).fns = s.fns := rfl
@[simp] theorem modUnit_queues (i : Fin 32) (f : UnitState → UnitState) (s : State) : (modUnit i f s).queues = s.queues := rfl
@[simp] theorem modUnit_eth (i : Fin 32) (f : UnitState → UnitState) (s : State) : (modUnit i f s).eth = s.eth := rfl
@[simp] theorem modUnit_parse (i : Fin 32) (f : UnitState → UnitState) (s : State) : (modUnit i f s).parse = s.parse := rfl
@[simp] theorem modUnit_cls (i : Fin 32) (f : UnitState → UnitState) (s : State) : (modUnit i f s).cls = s.cls := rfl
@[simp] theorem modUnit_tables (i : Fin 32) (f : UnitState → UnitState) (s : State) : (modUnit i f s).tables = s.tables := rfl
@[simp] theorem modUnit_hod (i : Fin 32) (f : UnitState → UnitState) (s : State) : (modUnit i f s).hod = s.hod := rfl
@[simp] theorem modUnit_sched (i : Fin 32) (f : UnitState → UnitState) (s : State) : (modUnit i f s).sched = s.sched := rfl
@[simp] theorem modUnit_net (i : Fin 32) (f : UnitState → UnitState) (s : State) : (modUnit i f s).net = s.net := rfl
@[simp] theorem modUnit_ctx (i : Fin 32) (f : UnitState → UnitState) (s : State) : (modUnit i f s).ctx = s.ctx := rfl
@[simp] theorem modUnit_nvme (i : Fin 32) (f : UnitState → UnitState) (s : State) : (modUnit i f s).nvme = s.nvme := rfl
@[simp] theorem modUnit_crypt (i : Fin 32) (f : UnitState → UnitState) (s : State) : (modUnit i f s).crypt = s.crypt := rfl
@[simp] theorem modUnit_cores (i : Fin 32) (f : UnitState → UnitState) (s : State) : (modUnit i f s).cores = s.cores := rfl
@[simp] theorem modUnit_dram (i : Fin 32) (f : UnitState → UnitState) (s : State) : (modUnit i f s).dram = s.dram := rfl
@[simp] theorem modUnit_sec (i : Fin 32) (f : UnitState → UnitState) (s : State) : (modUnit i f s).sec = s.sec := rfl
@[simp] theorem modUnit_klb (i : Fin 32) (f : UnitState → UnitState) (s : State) : (modUnit i f s).klb = s.klb := rfl
@[simp] theorem modUnit_elec (i : Fin 32) (f : UnitState → UnitState) (s : State) : (modUnit i f s).elec = s.elec := rfl
@[simp] theorem modUnit_degr (i : Fin 32) (f : UnitState → UnitState) (s : State) : (modUnit i f s).degr = s.degr := rfl
@[simp] theorem modUnit_bist (i : Fin 32) (f : UnitState → UnitState) (s : State) : (modUnit i f s).bist = s.bist := rfl
@[simp] theorem modUnit_carve (i : Fin 32) (f : UnitState → UnitState) (s : State) : (modUnit i f s).carve = s.carve := rfl
@[simp] theorem modUnit_violations (i : Fin 32) (f : UnitState → UnitState) (s : State) : (modUnit i f s).violations = s.violations := rfl
@[simp] theorem modUnit_counters (i : Fin 32) (f : UnitState → UnitState) (s : State) : (modUnit i f s).counters = s.counters := rfl
@[simp] theorem modUnit_regs (i : Fin 32) (f : UnitState → UnitState) (s : State) : (modUnit i f s).regs = s.regs := rfl

/-! modPort -/
@[simp] theorem modPort_pending (l : Lane) (f : EthPort → EthPort) (s : State) : (modPort l f s).pending = s.pending := rfl
@[simp] theorem modPort_fenced (l : Lane) (f : EthPort → EthPort) (s : State) : (modPort l f s).fenced = s.fenced := rfl
@[simp] theorem modPort_out (l : Lane) (f : EthPort → EthPort) (s : State) : (modPort l f s).out = s.out := rfl
@[simp] theorem modPort_drawn (l : Lane) (f : EthPort → EthPort) (s : State) : (modPort l f s).drawn = s.drawn := rfl
@[simp] theorem modPort_now (l : Lane) (f : EthPort → EthPort) (s : State) : (modPort l f s).now = s.now := rfl
@[simp] theorem modPort_dtime (l : Lane) (f : EthPort → EthPort) (s : State) : (modPort l f s).dtime = s.dtime := rfl
@[simp] theorem modPort_nv (l : Lane) (f : EthPort → EthPort) (s : State) : (modPort l f s).nv = s.nv := rfl
@[simp] theorem modPort_clk (l : Lane) (f : EthPort → EthPort) (s : State) : (modPort l f s).clk = s.clk := rfl
@[simp] theorem modPort_glb (l : Lane) (f : EthPort → EthPort) (s : State) : (modPort l f s).glb = s.glb := rfl
@[simp] theorem modPort_epochs (l : Lane) (f : EthPort → EthPort) (s : State) : (modPort l f s).epochs = s.epochs := rfl
@[simp] theorem modPort_owner (l : Lane) (f : EthPort → EthPort) (s : State) : (modPort l f s).owner = s.owner := rfl
@[simp] theorem modPort_rings (l : Lane) (f : EthPort → EthPort) (s : State) : (modPort l f s).rings = s.rings := rfl
@[simp] theorem modPort_ops (l : Lane) (f : EthPort → EthPort) (s : State) : (modPort l f s).ops = s.ops := rfl
@[simp] theorem modPort_hosts (l : Lane) (f : EthPort → EthPort) (s : State) : (modPort l f s).hosts = s.hosts := rfl
@[simp] theorem modPort_fns (l : Lane) (f : EthPort → EthPort) (s : State) : (modPort l f s).fns = s.fns := rfl
@[simp] theorem modPort_queues (l : Lane) (f : EthPort → EthPort) (s : State) : (modPort l f s).queues = s.queues := rfl
@[simp] theorem modPort_eth (l : Lane) (f : EthPort → EthPort) (s : State) : (modPort l f s).eth = { s.eth with ports := vmod s.eth.ports l f } := rfl
@[simp] theorem modPort_parse (l : Lane) (f : EthPort → EthPort) (s : State) : (modPort l f s).parse = s.parse := rfl
@[simp] theorem modPort_cls (l : Lane) (f : EthPort → EthPort) (s : State) : (modPort l f s).cls = s.cls := rfl
@[simp] theorem modPort_tables (l : Lane) (f : EthPort → EthPort) (s : State) : (modPort l f s).tables = s.tables := rfl
@[simp] theorem modPort_hod (l : Lane) (f : EthPort → EthPort) (s : State) : (modPort l f s).hod = s.hod := rfl
@[simp] theorem modPort_sched (l : Lane) (f : EthPort → EthPort) (s : State) : (modPort l f s).sched = s.sched := rfl
@[simp] theorem modPort_net (l : Lane) (f : EthPort → EthPort) (s : State) : (modPort l f s).net = s.net := rfl
@[simp] theorem modPort_ctx (l : Lane) (f : EthPort → EthPort) (s : State) : (modPort l f s).ctx = s.ctx := rfl
@[simp] theorem modPort_nvme (l : Lane) (f : EthPort → EthPort) (s : State) : (modPort l f s).nvme = s.nvme := rfl
@[simp] theorem modPort_crypt (l : Lane) (f : EthPort → EthPort) (s : State) : (modPort l f s).crypt = s.crypt := rfl
@[simp] theorem modPort_cores (l : Lane) (f : EthPort → EthPort) (s : State) : (modPort l f s).cores = s.cores := rfl
@[simp] theorem modPort_dram (l : Lane) (f : EthPort → EthPort) (s : State) : (modPort l f s).dram = s.dram := rfl
@[simp] theorem modPort_sec (l : Lane) (f : EthPort → EthPort) (s : State) : (modPort l f s).sec = s.sec := rfl
@[simp] theorem modPort_klb (l : Lane) (f : EthPort → EthPort) (s : State) : (modPort l f s).klb = s.klb := rfl
@[simp] theorem modPort_elec (l : Lane) (f : EthPort → EthPort) (s : State) : (modPort l f s).elec = s.elec := rfl
@[simp] theorem modPort_degr (l : Lane) (f : EthPort → EthPort) (s : State) : (modPort l f s).degr = s.degr := rfl
@[simp] theorem modPort_bist (l : Lane) (f : EthPort → EthPort) (s : State) : (modPort l f s).bist = s.bist := rfl
@[simp] theorem modPort_carve (l : Lane) (f : EthPort → EthPort) (s : State) : (modPort l f s).carve = s.carve := rfl
@[simp] theorem modPort_violations (l : Lane) (f : EthPort → EthPort) (s : State) : (modPort l f s).violations = s.violations := rfl
@[simp] theorem modPort_counters (l : Lane) (f : EthPort → EthPort) (s : State) : (modPort l f s).counters = s.counters := rfl
@[simp] theorem modPort_regs (l : Lane) (f : EthPort → EthPort) (s : State) : (modPort l f s).regs = s.regs := rfl

/-! modGroup -/
@[simp] theorem modGroup_pending (g : Group) (f : EthGroup → EthGroup) (s : State) : (modGroup g f s).pending = s.pending := rfl
@[simp] theorem modGroup_fenced (g : Group) (f : EthGroup → EthGroup) (s : State) : (modGroup g f s).fenced = s.fenced := rfl
@[simp] theorem modGroup_out (g : Group) (f : EthGroup → EthGroup) (s : State) : (modGroup g f s).out = s.out := rfl
@[simp] theorem modGroup_drawn (g : Group) (f : EthGroup → EthGroup) (s : State) : (modGroup g f s).drawn = s.drawn := rfl
@[simp] theorem modGroup_now (g : Group) (f : EthGroup → EthGroup) (s : State) : (modGroup g f s).now = s.now := rfl
@[simp] theorem modGroup_dtime (g : Group) (f : EthGroup → EthGroup) (s : State) : (modGroup g f s).dtime = s.dtime := rfl
@[simp] theorem modGroup_nv (g : Group) (f : EthGroup → EthGroup) (s : State) : (modGroup g f s).nv = s.nv := rfl
@[simp] theorem modGroup_clk (g : Group) (f : EthGroup → EthGroup) (s : State) : (modGroup g f s).clk = s.clk := rfl
@[simp] theorem modGroup_glb (g : Group) (f : EthGroup → EthGroup) (s : State) : (modGroup g f s).glb = s.glb := rfl
@[simp] theorem modGroup_epochs (g : Group) (f : EthGroup → EthGroup) (s : State) : (modGroup g f s).epochs = s.epochs := rfl
@[simp] theorem modGroup_owner (g : Group) (f : EthGroup → EthGroup) (s : State) : (modGroup g f s).owner = s.owner := rfl
@[simp] theorem modGroup_rings (g : Group) (f : EthGroup → EthGroup) (s : State) : (modGroup g f s).rings = s.rings := rfl
@[simp] theorem modGroup_ops (g : Group) (f : EthGroup → EthGroup) (s : State) : (modGroup g f s).ops = s.ops := rfl
@[simp] theorem modGroup_hosts (g : Group) (f : EthGroup → EthGroup) (s : State) : (modGroup g f s).hosts = s.hosts := rfl
@[simp] theorem modGroup_fns (g : Group) (f : EthGroup → EthGroup) (s : State) : (modGroup g f s).fns = s.fns := rfl
@[simp] theorem modGroup_queues (g : Group) (f : EthGroup → EthGroup) (s : State) : (modGroup g f s).queues = s.queues := rfl
@[simp] theorem modGroup_eth (g : Group) (f : EthGroup → EthGroup) (s : State) : (modGroup g f s).eth = { s.eth with groups := vmod s.eth.groups g f } := rfl
@[simp] theorem modGroup_parse (g : Group) (f : EthGroup → EthGroup) (s : State) : (modGroup g f s).parse = s.parse := rfl
@[simp] theorem modGroup_cls (g : Group) (f : EthGroup → EthGroup) (s : State) : (modGroup g f s).cls = s.cls := rfl
@[simp] theorem modGroup_tables (g : Group) (f : EthGroup → EthGroup) (s : State) : (modGroup g f s).tables = s.tables := rfl
@[simp] theorem modGroup_hod (g : Group) (f : EthGroup → EthGroup) (s : State) : (modGroup g f s).hod = s.hod := rfl
@[simp] theorem modGroup_sched (g : Group) (f : EthGroup → EthGroup) (s : State) : (modGroup g f s).sched = s.sched := rfl
@[simp] theorem modGroup_net (g : Group) (f : EthGroup → EthGroup) (s : State) : (modGroup g f s).net = s.net := rfl
@[simp] theorem modGroup_ctx (g : Group) (f : EthGroup → EthGroup) (s : State) : (modGroup g f s).ctx = s.ctx := rfl
@[simp] theorem modGroup_nvme (g : Group) (f : EthGroup → EthGroup) (s : State) : (modGroup g f s).nvme = s.nvme := rfl
@[simp] theorem modGroup_crypt (g : Group) (f : EthGroup → EthGroup) (s : State) : (modGroup g f s).crypt = s.crypt := rfl
@[simp] theorem modGroup_cores (g : Group) (f : EthGroup → EthGroup) (s : State) : (modGroup g f s).cores = s.cores := rfl
@[simp] theorem modGroup_dram (g : Group) (f : EthGroup → EthGroup) (s : State) : (modGroup g f s).dram = s.dram := rfl
@[simp] theorem modGroup_sec (g : Group) (f : EthGroup → EthGroup) (s : State) : (modGroup g f s).sec = s.sec := rfl
@[simp] theorem modGroup_klb (g : Group) (f : EthGroup → EthGroup) (s : State) : (modGroup g f s).klb = s.klb := rfl
@[simp] theorem modGroup_elec (g : Group) (f : EthGroup → EthGroup) (s : State) : (modGroup g f s).elec = s.elec := rfl
@[simp] theorem modGroup_degr (g : Group) (f : EthGroup → EthGroup) (s : State) : (modGroup g f s).degr = s.degr := rfl
@[simp] theorem modGroup_bist (g : Group) (f : EthGroup → EthGroup) (s : State) : (modGroup g f s).bist = s.bist := rfl
@[simp] theorem modGroup_carve (g : Group) (f : EthGroup → EthGroup) (s : State) : (modGroup g f s).carve = s.carve := rfl
@[simp] theorem modGroup_violations (g : Group) (f : EthGroup → EthGroup) (s : State) : (modGroup g f s).violations = s.violations := rfl
@[simp] theorem modGroup_counters (g : Group) (f : EthGroup → EthGroup) (s : State) : (modGroup g f s).counters = s.counters := rfl
@[simp] theorem modGroup_regs (g : Group) (f : EthGroup → EthGroup) (s : State) : (modGroup g f s).regs = s.regs := rfl

/-! modParse -/
@[simp] theorem modParse_pending (f : ParseBank → ParseBank) (s : State) : (modParse f s).pending = s.pending := rfl
@[simp] theorem modParse_fenced (f : ParseBank → ParseBank) (s : State) : (modParse f s).fenced = s.fenced := rfl
@[simp] theorem modParse_out (f : ParseBank → ParseBank) (s : State) : (modParse f s).out = s.out := rfl
@[simp] theorem modParse_drawn (f : ParseBank → ParseBank) (s : State) : (modParse f s).drawn = s.drawn := rfl
@[simp] theorem modParse_now (f : ParseBank → ParseBank) (s : State) : (modParse f s).now = s.now := rfl
@[simp] theorem modParse_dtime (f : ParseBank → ParseBank) (s : State) : (modParse f s).dtime = s.dtime := rfl
@[simp] theorem modParse_nv (f : ParseBank → ParseBank) (s : State) : (modParse f s).nv = s.nv := rfl
@[simp] theorem modParse_clk (f : ParseBank → ParseBank) (s : State) : (modParse f s).clk = s.clk := rfl
@[simp] theorem modParse_glb (f : ParseBank → ParseBank) (s : State) : (modParse f s).glb = s.glb := rfl
@[simp] theorem modParse_epochs (f : ParseBank → ParseBank) (s : State) : (modParse f s).epochs = s.epochs := rfl
@[simp] theorem modParse_owner (f : ParseBank → ParseBank) (s : State) : (modParse f s).owner = s.owner := rfl
@[simp] theorem modParse_rings (f : ParseBank → ParseBank) (s : State) : (modParse f s).rings = s.rings := rfl
@[simp] theorem modParse_ops (f : ParseBank → ParseBank) (s : State) : (modParse f s).ops = s.ops := rfl
@[simp] theorem modParse_hosts (f : ParseBank → ParseBank) (s : State) : (modParse f s).hosts = s.hosts := rfl
@[simp] theorem modParse_fns (f : ParseBank → ParseBank) (s : State) : (modParse f s).fns = s.fns := rfl
@[simp] theorem modParse_queues (f : ParseBank → ParseBank) (s : State) : (modParse f s).queues = s.queues := rfl
@[simp] theorem modParse_eth (f : ParseBank → ParseBank) (s : State) : (modParse f s).eth = s.eth := rfl
@[simp] theorem modParse_cls (f : ParseBank → ParseBank) (s : State) : (modParse f s).cls = s.cls := rfl
@[simp] theorem modParse_tables (f : ParseBank → ParseBank) (s : State) : (modParse f s).tables = s.tables := rfl
@[simp] theorem modParse_hod (f : ParseBank → ParseBank) (s : State) : (modParse f s).hod = s.hod := rfl
@[simp] theorem modParse_sched (f : ParseBank → ParseBank) (s : State) : (modParse f s).sched = s.sched := rfl
@[simp] theorem modParse_net (f : ParseBank → ParseBank) (s : State) : (modParse f s).net = s.net := rfl
@[simp] theorem modParse_ctx (f : ParseBank → ParseBank) (s : State) : (modParse f s).ctx = s.ctx := rfl
@[simp] theorem modParse_nvme (f : ParseBank → ParseBank) (s : State) : (modParse f s).nvme = s.nvme := rfl
@[simp] theorem modParse_crypt (f : ParseBank → ParseBank) (s : State) : (modParse f s).crypt = s.crypt := rfl
@[simp] theorem modParse_cores (f : ParseBank → ParseBank) (s : State) : (modParse f s).cores = s.cores := rfl
@[simp] theorem modParse_dram (f : ParseBank → ParseBank) (s : State) : (modParse f s).dram = s.dram := rfl
@[simp] theorem modParse_sec (f : ParseBank → ParseBank) (s : State) : (modParse f s).sec = s.sec := rfl
@[simp] theorem modParse_klb (f : ParseBank → ParseBank) (s : State) : (modParse f s).klb = s.klb := rfl
@[simp] theorem modParse_elec (f : ParseBank → ParseBank) (s : State) : (modParse f s).elec = s.elec := rfl
@[simp] theorem modParse_degr (f : ParseBank → ParseBank) (s : State) : (modParse f s).degr = s.degr := rfl
@[simp] theorem modParse_bist (f : ParseBank → ParseBank) (s : State) : (modParse f s).bist = s.bist := rfl
@[simp] theorem modParse_carve (f : ParseBank → ParseBank) (s : State) : (modParse f s).carve = s.carve := rfl
@[simp] theorem modParse_violations (f : ParseBank → ParseBank) (s : State) : (modParse f s).violations = s.violations := rfl
@[simp] theorem modParse_counters (f : ParseBank → ParseBank) (s : State) : (modParse f s).counters = s.counters := rfl
@[simp] theorem modParse_regs (f : ParseBank → ParseBank) (s : State) : (modParse f s).regs = s.regs := rfl

/-! modCls -/
@[simp] theorem modCls_pending (f : ClassBank → ClassBank) (s : State) : (modCls f s).pending = s.pending := rfl
@[simp] theorem modCls_fenced (f : ClassBank → ClassBank) (s : State) : (modCls f s).fenced = s.fenced := rfl
@[simp] theorem modCls_out (f : ClassBank → ClassBank) (s : State) : (modCls f s).out = s.out := rfl
@[simp] theorem modCls_drawn (f : ClassBank → ClassBank) (s : State) : (modCls f s).drawn = s.drawn := rfl
@[simp] theorem modCls_now (f : ClassBank → ClassBank) (s : State) : (modCls f s).now = s.now := rfl
@[simp] theorem modCls_dtime (f : ClassBank → ClassBank) (s : State) : (modCls f s).dtime = s.dtime := rfl
@[simp] theorem modCls_nv (f : ClassBank → ClassBank) (s : State) : (modCls f s).nv = s.nv := rfl
@[simp] theorem modCls_clk (f : ClassBank → ClassBank) (s : State) : (modCls f s).clk = s.clk := rfl
@[simp] theorem modCls_glb (f : ClassBank → ClassBank) (s : State) : (modCls f s).glb = s.glb := rfl
@[simp] theorem modCls_epochs (f : ClassBank → ClassBank) (s : State) : (modCls f s).epochs = s.epochs := rfl
@[simp] theorem modCls_owner (f : ClassBank → ClassBank) (s : State) : (modCls f s).owner = s.owner := rfl
@[simp] theorem modCls_rings (f : ClassBank → ClassBank) (s : State) : (modCls f s).rings = s.rings := rfl
@[simp] theorem modCls_ops (f : ClassBank → ClassBank) (s : State) : (modCls f s).ops = s.ops := rfl
@[simp] theorem modCls_hosts (f : ClassBank → ClassBank) (s : State) : (modCls f s).hosts = s.hosts := rfl
@[simp] theorem modCls_fns (f : ClassBank → ClassBank) (s : State) : (modCls f s).fns = s.fns := rfl
@[simp] theorem modCls_queues (f : ClassBank → ClassBank) (s : State) : (modCls f s).queues = s.queues := rfl
@[simp] theorem modCls_eth (f : ClassBank → ClassBank) (s : State) : (modCls f s).eth = s.eth := rfl
@[simp] theorem modCls_parse (f : ClassBank → ClassBank) (s : State) : (modCls f s).parse = s.parse := rfl
@[simp] theorem modCls_tables (f : ClassBank → ClassBank) (s : State) : (modCls f s).tables = s.tables := rfl
@[simp] theorem modCls_hod (f : ClassBank → ClassBank) (s : State) : (modCls f s).hod = s.hod := rfl
@[simp] theorem modCls_sched (f : ClassBank → ClassBank) (s : State) : (modCls f s).sched = s.sched := rfl
@[simp] theorem modCls_net (f : ClassBank → ClassBank) (s : State) : (modCls f s).net = s.net := rfl
@[simp] theorem modCls_ctx (f : ClassBank → ClassBank) (s : State) : (modCls f s).ctx = s.ctx := rfl
@[simp] theorem modCls_nvme (f : ClassBank → ClassBank) (s : State) : (modCls f s).nvme = s.nvme := rfl
@[simp] theorem modCls_crypt (f : ClassBank → ClassBank) (s : State) : (modCls f s).crypt = s.crypt := rfl
@[simp] theorem modCls_cores (f : ClassBank → ClassBank) (s : State) : (modCls f s).cores = s.cores := rfl
@[simp] theorem modCls_dram (f : ClassBank → ClassBank) (s : State) : (modCls f s).dram = s.dram := rfl
@[simp] theorem modCls_sec (f : ClassBank → ClassBank) (s : State) : (modCls f s).sec = s.sec := rfl
@[simp] theorem modCls_klb (f : ClassBank → ClassBank) (s : State) : (modCls f s).klb = s.klb := rfl
@[simp] theorem modCls_elec (f : ClassBank → ClassBank) (s : State) : (modCls f s).elec = s.elec := rfl
@[simp] theorem modCls_degr (f : ClassBank → ClassBank) (s : State) : (modCls f s).degr = s.degr := rfl
@[simp] theorem modCls_bist (f : ClassBank → ClassBank) (s : State) : (modCls f s).bist = s.bist := rfl
@[simp] theorem modCls_carve (f : ClassBank → ClassBank) (s : State) : (modCls f s).carve = s.carve := rfl
@[simp] theorem modCls_violations (f : ClassBank → ClassBank) (s : State) : (modCls f s).violations = s.violations := rfl
@[simp] theorem modCls_counters (f : ClassBank → ClassBank) (s : State) : (modCls f s).counters = s.counters := rfl
@[simp] theorem modCls_regs (f : ClassBank → ClassBank) (s : State) : (modCls f s).regs = s.regs := rfl

/-! modTables -/
@[simp] theorem modTables_pending (f : Tables → Tables) (s : State) : (modTables f s).pending = s.pending := rfl
@[simp] theorem modTables_fenced (f : Tables → Tables) (s : State) : (modTables f s).fenced = s.fenced := rfl
@[simp] theorem modTables_out (f : Tables → Tables) (s : State) : (modTables f s).out = s.out := rfl
@[simp] theorem modTables_drawn (f : Tables → Tables) (s : State) : (modTables f s).drawn = s.drawn := rfl
@[simp] theorem modTables_now (f : Tables → Tables) (s : State) : (modTables f s).now = s.now := rfl
@[simp] theorem modTables_dtime (f : Tables → Tables) (s : State) : (modTables f s).dtime = s.dtime := rfl
@[simp] theorem modTables_nv (f : Tables → Tables) (s : State) : (modTables f s).nv = s.nv := rfl
@[simp] theorem modTables_clk (f : Tables → Tables) (s : State) : (modTables f s).clk = s.clk := rfl
@[simp] theorem modTables_glb (f : Tables → Tables) (s : State) : (modTables f s).glb = s.glb := rfl
@[simp] theorem modTables_epochs (f : Tables → Tables) (s : State) : (modTables f s).epochs = s.epochs := rfl
@[simp] theorem modTables_owner (f : Tables → Tables) (s : State) : (modTables f s).owner = s.owner := rfl
@[simp] theorem modTables_rings (f : Tables → Tables) (s : State) : (modTables f s).rings = s.rings := rfl
@[simp] theorem modTables_ops (f : Tables → Tables) (s : State) : (modTables f s).ops = s.ops := rfl
@[simp] theorem modTables_hosts (f : Tables → Tables) (s : State) : (modTables f s).hosts = s.hosts := rfl
@[simp] theorem modTables_fns (f : Tables → Tables) (s : State) : (modTables f s).fns = s.fns := rfl
@[simp] theorem modTables_queues (f : Tables → Tables) (s : State) : (modTables f s).queues = s.queues := rfl
@[simp] theorem modTables_eth (f : Tables → Tables) (s : State) : (modTables f s).eth = s.eth := rfl
@[simp] theorem modTables_parse (f : Tables → Tables) (s : State) : (modTables f s).parse = s.parse := rfl
@[simp] theorem modTables_cls (f : Tables → Tables) (s : State) : (modTables f s).cls = s.cls := rfl
@[simp] theorem modTables_tables (f : Tables → Tables) (s : State) : (modTables f s).tables = f s.tables := rfl
@[simp] theorem modTables_hod (f : Tables → Tables) (s : State) : (modTables f s).hod = s.hod := rfl
@[simp] theorem modTables_sched (f : Tables → Tables) (s : State) : (modTables f s).sched = s.sched := rfl
@[simp] theorem modTables_net (f : Tables → Tables) (s : State) : (modTables f s).net = s.net := rfl
@[simp] theorem modTables_ctx (f : Tables → Tables) (s : State) : (modTables f s).ctx = s.ctx := rfl
@[simp] theorem modTables_nvme (f : Tables → Tables) (s : State) : (modTables f s).nvme = s.nvme := rfl
@[simp] theorem modTables_crypt (f : Tables → Tables) (s : State) : (modTables f s).crypt = s.crypt := rfl
@[simp] theorem modTables_cores (f : Tables → Tables) (s : State) : (modTables f s).cores = s.cores := rfl
@[simp] theorem modTables_dram (f : Tables → Tables) (s : State) : (modTables f s).dram = s.dram := rfl
@[simp] theorem modTables_sec (f : Tables → Tables) (s : State) : (modTables f s).sec = s.sec := rfl
@[simp] theorem modTables_klb (f : Tables → Tables) (s : State) : (modTables f s).klb = s.klb := rfl
@[simp] theorem modTables_elec (f : Tables → Tables) (s : State) : (modTables f s).elec = s.elec := rfl
@[simp] theorem modTables_degr (f : Tables → Tables) (s : State) : (modTables f s).degr = s.degr := rfl
@[simp] theorem modTables_bist (f : Tables → Tables) (s : State) : (modTables f s).bist = s.bist := rfl
@[simp] theorem modTables_carve (f : Tables → Tables) (s : State) : (modTables f s).carve = s.carve := rfl
@[simp] theorem modTables_violations (f : Tables → Tables) (s : State) : (modTables f s).violations = s.violations := rfl
@[simp] theorem modTables_counters (f : Tables → Tables) (s : State) : (modTables f s).counters = s.counters := rfl
@[simp] theorem modTables_regs (f : Tables → Tables) (s : State) : (modTables f s).regs = s.regs := rfl

/-! modEm -/
@[simp] theorem modEm_pending (f : Em → Em) (s : State) : (modEm f s).pending = s.pending := rfl
@[simp] theorem modEm_fenced (f : Em → Em) (s : State) : (modEm f s).fenced = s.fenced := rfl
@[simp] theorem modEm_out (f : Em → Em) (s : State) : (modEm f s).out = s.out := rfl
@[simp] theorem modEm_drawn (f : Em → Em) (s : State) : (modEm f s).drawn = s.drawn := rfl
@[simp] theorem modEm_now (f : Em → Em) (s : State) : (modEm f s).now = s.now := rfl
@[simp] theorem modEm_dtime (f : Em → Em) (s : State) : (modEm f s).dtime = s.dtime := rfl
@[simp] theorem modEm_nv (f : Em → Em) (s : State) : (modEm f s).nv = s.nv := rfl
@[simp] theorem modEm_clk (f : Em → Em) (s : State) : (modEm f s).clk = s.clk := rfl
@[simp] theorem modEm_glb (f : Em → Em) (s : State) : (modEm f s).glb = s.glb := rfl
@[simp] theorem modEm_epochs (f : Em → Em) (s : State) : (modEm f s).epochs = s.epochs := rfl
@[simp] theorem modEm_owner (f : Em → Em) (s : State) : (modEm f s).owner = s.owner := rfl
@[simp] theorem modEm_rings (f : Em → Em) (s : State) : (modEm f s).rings = s.rings := rfl
@[simp] theorem modEm_ops (f : Em → Em) (s : State) : (modEm f s).ops = s.ops := rfl
@[simp] theorem modEm_hosts (f : Em → Em) (s : State) : (modEm f s).hosts = s.hosts := rfl
@[simp] theorem modEm_fns (f : Em → Em) (s : State) : (modEm f s).fns = s.fns := rfl
@[simp] theorem modEm_queues (f : Em → Em) (s : State) : (modEm f s).queues = s.queues := rfl
@[simp] theorem modEm_eth (f : Em → Em) (s : State) : (modEm f s).eth = s.eth := rfl
@[simp] theorem modEm_parse (f : Em → Em) (s : State) : (modEm f s).parse = s.parse := rfl
@[simp] theorem modEm_cls (f : Em → Em) (s : State) : (modEm f s).cls = s.cls := rfl
@[simp] theorem modEm_tables (f : Em → Em) (s : State) : (modEm f s).tables = { s.tables with em := f s.tables.em } := rfl
@[simp] theorem modEm_hod (f : Em → Em) (s : State) : (modEm f s).hod = s.hod := rfl
@[simp] theorem modEm_sched (f : Em → Em) (s : State) : (modEm f s).sched = s.sched := rfl
@[simp] theorem modEm_net (f : Em → Em) (s : State) : (modEm f s).net = s.net := rfl
@[simp] theorem modEm_ctx (f : Em → Em) (s : State) : (modEm f s).ctx = s.ctx := rfl
@[simp] theorem modEm_nvme (f : Em → Em) (s : State) : (modEm f s).nvme = s.nvme := rfl
@[simp] theorem modEm_crypt (f : Em → Em) (s : State) : (modEm f s).crypt = s.crypt := rfl
@[simp] theorem modEm_cores (f : Em → Em) (s : State) : (modEm f s).cores = s.cores := rfl
@[simp] theorem modEm_dram (f : Em → Em) (s : State) : (modEm f s).dram = s.dram := rfl
@[simp] theorem modEm_sec (f : Em → Em) (s : State) : (modEm f s).sec = s.sec := rfl
@[simp] theorem modEm_klb (f : Em → Em) (s : State) : (modEm f s).klb = s.klb := rfl
@[simp] theorem modEm_elec (f : Em → Em) (s : State) : (modEm f s).elec = s.elec := rfl
@[simp] theorem modEm_degr (f : Em → Em) (s : State) : (modEm f s).degr = s.degr := rfl
@[simp] theorem modEm_bist (f : Em → Em) (s : State) : (modEm f s).bist = s.bist := rfl
@[simp] theorem modEm_carve (f : Em → Em) (s : State) : (modEm f s).carve = s.carve := rfl
@[simp] theorem modEm_violations (f : Em → Em) (s : State) : (modEm f s).violations = s.violations := rfl
@[simp] theorem modEm_counters (f : Em → Em) (s : State) : (modEm f s).counters = s.counters := rfl
@[simp] theorem modEm_regs (f : Em → Em) (s : State) : (modEm f s).regs = s.regs := rfl

/-! modHod -/
@[simp] theorem modHod_pending (f : Hods → Hods) (s : State) : (modHod f s).pending = s.pending := rfl
@[simp] theorem modHod_fenced (f : Hods → Hods) (s : State) : (modHod f s).fenced = s.fenced := rfl
@[simp] theorem modHod_out (f : Hods → Hods) (s : State) : (modHod f s).out = s.out := rfl
@[simp] theorem modHod_drawn (f : Hods → Hods) (s : State) : (modHod f s).drawn = s.drawn := rfl
@[simp] theorem modHod_now (f : Hods → Hods) (s : State) : (modHod f s).now = s.now := rfl
@[simp] theorem modHod_dtime (f : Hods → Hods) (s : State) : (modHod f s).dtime = s.dtime := rfl
@[simp] theorem modHod_nv (f : Hods → Hods) (s : State) : (modHod f s).nv = s.nv := rfl
@[simp] theorem modHod_clk (f : Hods → Hods) (s : State) : (modHod f s).clk = s.clk := rfl
@[simp] theorem modHod_glb (f : Hods → Hods) (s : State) : (modHod f s).glb = s.glb := rfl
@[simp] theorem modHod_epochs (f : Hods → Hods) (s : State) : (modHod f s).epochs = s.epochs := rfl
@[simp] theorem modHod_owner (f : Hods → Hods) (s : State) : (modHod f s).owner = s.owner := rfl
@[simp] theorem modHod_rings (f : Hods → Hods) (s : State) : (modHod f s).rings = s.rings := rfl
@[simp] theorem modHod_ops (f : Hods → Hods) (s : State) : (modHod f s).ops = s.ops := rfl
@[simp] theorem modHod_hosts (f : Hods → Hods) (s : State) : (modHod f s).hosts = s.hosts := rfl
@[simp] theorem modHod_fns (f : Hods → Hods) (s : State) : (modHod f s).fns = s.fns := rfl
@[simp] theorem modHod_queues (f : Hods → Hods) (s : State) : (modHod f s).queues = s.queues := rfl
@[simp] theorem modHod_eth (f : Hods → Hods) (s : State) : (modHod f s).eth = s.eth := rfl
@[simp] theorem modHod_parse (f : Hods → Hods) (s : State) : (modHod f s).parse = s.parse := rfl
@[simp] theorem modHod_cls (f : Hods → Hods) (s : State) : (modHod f s).cls = s.cls := rfl
@[simp] theorem modHod_tables (f : Hods → Hods) (s : State) : (modHod f s).tables = s.tables := rfl
@[simp] theorem modHod_hod (f : Hods → Hods) (s : State) : (modHod f s).hod = f s.hod := rfl
@[simp] theorem modHod_sched (f : Hods → Hods) (s : State) : (modHod f s).sched = s.sched := rfl
@[simp] theorem modHod_net (f : Hods → Hods) (s : State) : (modHod f s).net = s.net := rfl
@[simp] theorem modHod_ctx (f : Hods → Hods) (s : State) : (modHod f s).ctx = s.ctx := rfl
@[simp] theorem modHod_nvme (f : Hods → Hods) (s : State) : (modHod f s).nvme = s.nvme := rfl
@[simp] theorem modHod_crypt (f : Hods → Hods) (s : State) : (modHod f s).crypt = s.crypt := rfl
@[simp] theorem modHod_cores (f : Hods → Hods) (s : State) : (modHod f s).cores = s.cores := rfl
@[simp] theorem modHod_dram (f : Hods → Hods) (s : State) : (modHod f s).dram = s.dram := rfl
@[simp] theorem modHod_sec (f : Hods → Hods) (s : State) : (modHod f s).sec = s.sec := rfl
@[simp] theorem modHod_klb (f : Hods → Hods) (s : State) : (modHod f s).klb = s.klb := rfl
@[simp] theorem modHod_elec (f : Hods → Hods) (s : State) : (modHod f s).elec = s.elec := rfl
@[simp] theorem modHod_degr (f : Hods → Hods) (s : State) : (modHod f s).degr = s.degr := rfl
@[simp] theorem modHod_bist (f : Hods → Hods) (s : State) : (modHod f s).bist = s.bist := rfl
@[simp] theorem modHod_carve (f : Hods → Hods) (s : State) : (modHod f s).carve = s.carve := rfl
@[simp] theorem modHod_violations (f : Hods → Hods) (s : State) : (modHod f s).violations = s.violations := rfl
@[simp] theorem modHod_counters (f : Hods → Hods) (s : State) : (modHod f s).counters = s.counters := rfl
@[simp] theorem modHod_regs (f : Hods → Hods) (s : State) : (modHod f s).regs = s.regs := rfl

/-! modSched -/
@[simp] theorem modSched_pending (f : Sched → Sched) (s : State) : (modSched f s).pending = s.pending := rfl
@[simp] theorem modSched_fenced (f : Sched → Sched) (s : State) : (modSched f s).fenced = s.fenced := rfl
@[simp] theorem modSched_out (f : Sched → Sched) (s : State) : (modSched f s).out = s.out := rfl
@[simp] theorem modSched_drawn (f : Sched → Sched) (s : State) : (modSched f s).drawn = s.drawn := rfl
@[simp] theorem modSched_now (f : Sched → Sched) (s : State) : (modSched f s).now = s.now := rfl
@[simp] theorem modSched_dtime (f : Sched → Sched) (s : State) : (modSched f s).dtime = s.dtime := rfl
@[simp] theorem modSched_nv (f : Sched → Sched) (s : State) : (modSched f s).nv = s.nv := rfl
@[simp] theorem modSched_clk (f : Sched → Sched) (s : State) : (modSched f s).clk = s.clk := rfl
@[simp] theorem modSched_glb (f : Sched → Sched) (s : State) : (modSched f s).glb = s.glb := rfl
@[simp] theorem modSched_epochs (f : Sched → Sched) (s : State) : (modSched f s).epochs = s.epochs := rfl
@[simp] theorem modSched_owner (f : Sched → Sched) (s : State) : (modSched f s).owner = s.owner := rfl
@[simp] theorem modSched_rings (f : Sched → Sched) (s : State) : (modSched f s).rings = s.rings := rfl
@[simp] theorem modSched_ops (f : Sched → Sched) (s : State) : (modSched f s).ops = s.ops := rfl
@[simp] theorem modSched_hosts (f : Sched → Sched) (s : State) : (modSched f s).hosts = s.hosts := rfl
@[simp] theorem modSched_fns (f : Sched → Sched) (s : State) : (modSched f s).fns = s.fns := rfl
@[simp] theorem modSched_queues (f : Sched → Sched) (s : State) : (modSched f s).queues = s.queues := rfl
@[simp] theorem modSched_eth (f : Sched → Sched) (s : State) : (modSched f s).eth = s.eth := rfl
@[simp] theorem modSched_parse (f : Sched → Sched) (s : State) : (modSched f s).parse = s.parse := rfl
@[simp] theorem modSched_cls (f : Sched → Sched) (s : State) : (modSched f s).cls = s.cls := rfl
@[simp] theorem modSched_tables (f : Sched → Sched) (s : State) : (modSched f s).tables = s.tables := rfl
@[simp] theorem modSched_hod (f : Sched → Sched) (s : State) : (modSched f s).hod = s.hod := rfl
@[simp] theorem modSched_sched (f : Sched → Sched) (s : State) : (modSched f s).sched = f s.sched := rfl
@[simp] theorem modSched_net (f : Sched → Sched) (s : State) : (modSched f s).net = s.net := rfl
@[simp] theorem modSched_ctx (f : Sched → Sched) (s : State) : (modSched f s).ctx = s.ctx := rfl
@[simp] theorem modSched_nvme (f : Sched → Sched) (s : State) : (modSched f s).nvme = s.nvme := rfl
@[simp] theorem modSched_crypt (f : Sched → Sched) (s : State) : (modSched f s).crypt = s.crypt := rfl
@[simp] theorem modSched_cores (f : Sched → Sched) (s : State) : (modSched f s).cores = s.cores := rfl
@[simp] theorem modSched_dram (f : Sched → Sched) (s : State) : (modSched f s).dram = s.dram := rfl
@[simp] theorem modSched_sec (f : Sched → Sched) (s : State) : (modSched f s).sec = s.sec := rfl
@[simp] theorem modSched_klb (f : Sched → Sched) (s : State) : (modSched f s).klb = s.klb := rfl
@[simp] theorem modSched_elec (f : Sched → Sched) (s : State) : (modSched f s).elec = s.elec := rfl
@[simp] theorem modSched_degr (f : Sched → Sched) (s : State) : (modSched f s).degr = s.degr := rfl
@[simp] theorem modSched_bist (f : Sched → Sched) (s : State) : (modSched f s).bist = s.bist := rfl
@[simp] theorem modSched_carve (f : Sched → Sched) (s : State) : (modSched f s).carve = s.carve := rfl
@[simp] theorem modSched_violations (f : Sched → Sched) (s : State) : (modSched f s).violations = s.violations := rfl
@[simp] theorem modSched_counters (f : Sched → Sched) (s : State) : (modSched f s).counters = s.counters := rfl
@[simp] theorem modSched_regs (f : Sched → Sched) (s : State) : (modSched f s).regs = s.regs := rfl

/-! modPipe -/
@[simp] theorem modPipe_pending (n : Nat) (f : PipeState → PipeState) (s : State) : (modPipe n f s).pending = s.pending := rfl
@[simp] theorem modPipe_fenced (n : Nat) (f : PipeState → PipeState) (s : State) : (modPipe n f s).fenced = s.fenced := rfl
@[simp] theorem modPipe_out (n : Nat) (f : PipeState → PipeState) (s : State) : (modPipe n f s).out = s.out := rfl
@[simp] theorem modPipe_drawn (n : Nat) (f : PipeState → PipeState) (s : State) : (modPipe n f s).drawn = s.drawn := rfl
@[simp] theorem modPipe_now (n : Nat) (f : PipeState → PipeState) (s : State) : (modPipe n f s).now = s.now := rfl
@[simp] theorem modPipe_dtime (n : Nat) (f : PipeState → PipeState) (s : State) : (modPipe n f s).dtime = s.dtime := rfl
@[simp] theorem modPipe_nv (n : Nat) (f : PipeState → PipeState) (s : State) : (modPipe n f s).nv = s.nv := rfl
@[simp] theorem modPipe_clk (n : Nat) (f : PipeState → PipeState) (s : State) : (modPipe n f s).clk = s.clk := rfl
@[simp] theorem modPipe_glb (n : Nat) (f : PipeState → PipeState) (s : State) : (modPipe n f s).glb = s.glb := rfl
@[simp] theorem modPipe_epochs (n : Nat) (f : PipeState → PipeState) (s : State) : (modPipe n f s).epochs = s.epochs := rfl
@[simp] theorem modPipe_owner (n : Nat) (f : PipeState → PipeState) (s : State) : (modPipe n f s).owner = s.owner := rfl
@[simp] theorem modPipe_rings (n : Nat) (f : PipeState → PipeState) (s : State) : (modPipe n f s).rings = s.rings := rfl
@[simp] theorem modPipe_ops (n : Nat) (f : PipeState → PipeState) (s : State) : (modPipe n f s).ops = s.ops := rfl
@[simp] theorem modPipe_hosts (n : Nat) (f : PipeState → PipeState) (s : State) : (modPipe n f s).hosts = s.hosts := rfl
@[simp] theorem modPipe_fns (n : Nat) (f : PipeState → PipeState) (s : State) : (modPipe n f s).fns = s.fns := rfl
@[simp] theorem modPipe_queues (n : Nat) (f : PipeState → PipeState) (s : State) : (modPipe n f s).queues = s.queues := rfl
@[simp] theorem modPipe_eth (n : Nat) (f : PipeState → PipeState) (s : State) : (modPipe n f s).eth = s.eth := rfl
@[simp] theorem modPipe_parse (n : Nat) (f : PipeState → PipeState) (s : State) : (modPipe n f s).parse = s.parse := rfl
@[simp] theorem modPipe_cls (n : Nat) (f : PipeState → PipeState) (s : State) : (modPipe n f s).cls = s.cls := rfl
@[simp] theorem modPipe_tables (n : Nat) (f : PipeState → PipeState) (s : State) : (modPipe n f s).tables = s.tables := rfl
@[simp] theorem modPipe_hod (n : Nat) (f : PipeState → PipeState) (s : State) : (modPipe n f s).hod = s.hod := rfl
@[simp] theorem modPipe_sched (n : Nat) (f : PipeState → PipeState) (s : State) : (modPipe n f s).sched = s.sched := rfl
@[simp] theorem modPipe_ctx (n : Nat) (f : PipeState → PipeState) (s : State) : (modPipe n f s).ctx = s.ctx := rfl
@[simp] theorem modPipe_nvme (n : Nat) (f : PipeState → PipeState) (s : State) : (modPipe n f s).nvme = s.nvme := rfl
@[simp] theorem modPipe_crypt (n : Nat) (f : PipeState → PipeState) (s : State) : (modPipe n f s).crypt = s.crypt := rfl
@[simp] theorem modPipe_cores (n : Nat) (f : PipeState → PipeState) (s : State) : (modPipe n f s).cores = s.cores := rfl
@[simp] theorem modPipe_dram (n : Nat) (f : PipeState → PipeState) (s : State) : (modPipe n f s).dram = s.dram := rfl
@[simp] theorem modPipe_sec (n : Nat) (f : PipeState → PipeState) (s : State) : (modPipe n f s).sec = s.sec := rfl
@[simp] theorem modPipe_klb (n : Nat) (f : PipeState → PipeState) (s : State) : (modPipe n f s).klb = s.klb := rfl
@[simp] theorem modPipe_elec (n : Nat) (f : PipeState → PipeState) (s : State) : (modPipe n f s).elec = s.elec := rfl
@[simp] theorem modPipe_degr (n : Nat) (f : PipeState → PipeState) (s : State) : (modPipe n f s).degr = s.degr := rfl
@[simp] theorem modPipe_bist (n : Nat) (f : PipeState → PipeState) (s : State) : (modPipe n f s).bist = s.bist := rfl
@[simp] theorem modPipe_carve (n : Nat) (f : PipeState → PipeState) (s : State) : (modPipe n f s).carve = s.carve := rfl
@[simp] theorem modPipe_violations (n : Nat) (f : PipeState → PipeState) (s : State) : (modPipe n f s).violations = s.violations := rfl
@[simp] theorem modPipe_counters (n : Nat) (f : PipeState → PipeState) (s : State) : (modPipe n f s).counters = s.counters := rfl
@[simp] theorem modPipe_regs (n : Nat) (f : PipeState → PipeState) (s : State) : (modPipe n f s).regs = s.regs := rfl

/-! modCtx -/
@[simp] theorem modCtx_pending (f : Ctx → Ctx) (s : State) : (modCtx f s).pending = s.pending := rfl
@[simp] theorem modCtx_fenced (f : Ctx → Ctx) (s : State) : (modCtx f s).fenced = s.fenced := rfl
@[simp] theorem modCtx_out (f : Ctx → Ctx) (s : State) : (modCtx f s).out = s.out := rfl
@[simp] theorem modCtx_drawn (f : Ctx → Ctx) (s : State) : (modCtx f s).drawn = s.drawn := rfl
@[simp] theorem modCtx_now (f : Ctx → Ctx) (s : State) : (modCtx f s).now = s.now := rfl
@[simp] theorem modCtx_dtime (f : Ctx → Ctx) (s : State) : (modCtx f s).dtime = s.dtime := rfl
@[simp] theorem modCtx_nv (f : Ctx → Ctx) (s : State) : (modCtx f s).nv = s.nv := rfl
@[simp] theorem modCtx_clk (f : Ctx → Ctx) (s : State) : (modCtx f s).clk = s.clk := rfl
@[simp] theorem modCtx_glb (f : Ctx → Ctx) (s : State) : (modCtx f s).glb = s.glb := rfl
@[simp] theorem modCtx_epochs (f : Ctx → Ctx) (s : State) : (modCtx f s).epochs = s.epochs := rfl
@[simp] theorem modCtx_owner (f : Ctx → Ctx) (s : State) : (modCtx f s).owner = s.owner := rfl
@[simp] theorem modCtx_rings (f : Ctx → Ctx) (s : State) : (modCtx f s).rings = s.rings := rfl
@[simp] theorem modCtx_ops (f : Ctx → Ctx) (s : State) : (modCtx f s).ops = s.ops := rfl
@[simp] theorem modCtx_hosts (f : Ctx → Ctx) (s : State) : (modCtx f s).hosts = s.hosts := rfl
@[simp] theorem modCtx_fns (f : Ctx → Ctx) (s : State) : (modCtx f s).fns = s.fns := rfl
@[simp] theorem modCtx_queues (f : Ctx → Ctx) (s : State) : (modCtx f s).queues = s.queues := rfl
@[simp] theorem modCtx_eth (f : Ctx → Ctx) (s : State) : (modCtx f s).eth = s.eth := rfl
@[simp] theorem modCtx_parse (f : Ctx → Ctx) (s : State) : (modCtx f s).parse = s.parse := rfl
@[simp] theorem modCtx_cls (f : Ctx → Ctx) (s : State) : (modCtx f s).cls = s.cls := rfl
@[simp] theorem modCtx_tables (f : Ctx → Ctx) (s : State) : (modCtx f s).tables = s.tables := rfl
@[simp] theorem modCtx_hod (f : Ctx → Ctx) (s : State) : (modCtx f s).hod = s.hod := rfl
@[simp] theorem modCtx_sched (f : Ctx → Ctx) (s : State) : (modCtx f s).sched = s.sched := rfl
@[simp] theorem modCtx_net (f : Ctx → Ctx) (s : State) : (modCtx f s).net = s.net := rfl
@[simp] theorem modCtx_ctx (f : Ctx → Ctx) (s : State) : (modCtx f s).ctx = f s.ctx := rfl
@[simp] theorem modCtx_nvme (f : Ctx → Ctx) (s : State) : (modCtx f s).nvme = s.nvme := rfl
@[simp] theorem modCtx_crypt (f : Ctx → Ctx) (s : State) : (modCtx f s).crypt = s.crypt := rfl
@[simp] theorem modCtx_cores (f : Ctx → Ctx) (s : State) : (modCtx f s).cores = s.cores := rfl
@[simp] theorem modCtx_dram (f : Ctx → Ctx) (s : State) : (modCtx f s).dram = s.dram := rfl
@[simp] theorem modCtx_sec (f : Ctx → Ctx) (s : State) : (modCtx f s).sec = s.sec := rfl
@[simp] theorem modCtx_klb (f : Ctx → Ctx) (s : State) : (modCtx f s).klb = s.klb := rfl
@[simp] theorem modCtx_elec (f : Ctx → Ctx) (s : State) : (modCtx f s).elec = s.elec := rfl
@[simp] theorem modCtx_degr (f : Ctx → Ctx) (s : State) : (modCtx f s).degr = s.degr := rfl
@[simp] theorem modCtx_bist (f : Ctx → Ctx) (s : State) : (modCtx f s).bist = s.bist := rfl
@[simp] theorem modCtx_carve (f : Ctx → Ctx) (s : State) : (modCtx f s).carve = s.carve := rfl
@[simp] theorem modCtx_violations (f : Ctx → Ctx) (s : State) : (modCtx f s).violations = s.violations := rfl
@[simp] theorem modCtx_counters (f : Ctx → Ctx) (s : State) : (modCtx f s).counters = s.counters := rfl
@[simp] theorem modCtx_regs (f : Ctx → Ctx) (s : State) : (modCtx f s).regs = s.regs := rfl

/-! modConn -/
@[simp] theorem modConn_pending (k : Nat) (f : Conn → Conn) (s : State) : (modConn k f s).pending = s.pending := rfl
@[simp] theorem modConn_fenced (k : Nat) (f : Conn → Conn) (s : State) : (modConn k f s).fenced = s.fenced := rfl
@[simp] theorem modConn_out (k : Nat) (f : Conn → Conn) (s : State) : (modConn k f s).out = s.out := rfl
@[simp] theorem modConn_drawn (k : Nat) (f : Conn → Conn) (s : State) : (modConn k f s).drawn = s.drawn := rfl
@[simp] theorem modConn_now (k : Nat) (f : Conn → Conn) (s : State) : (modConn k f s).now = s.now := rfl
@[simp] theorem modConn_dtime (k : Nat) (f : Conn → Conn) (s : State) : (modConn k f s).dtime = s.dtime := rfl
@[simp] theorem modConn_nv (k : Nat) (f : Conn → Conn) (s : State) : (modConn k f s).nv = s.nv := rfl
@[simp] theorem modConn_clk (k : Nat) (f : Conn → Conn) (s : State) : (modConn k f s).clk = s.clk := rfl
@[simp] theorem modConn_glb (k : Nat) (f : Conn → Conn) (s : State) : (modConn k f s).glb = s.glb := rfl
@[simp] theorem modConn_epochs (k : Nat) (f : Conn → Conn) (s : State) : (modConn k f s).epochs = s.epochs := rfl
@[simp] theorem modConn_owner (k : Nat) (f : Conn → Conn) (s : State) : (modConn k f s).owner = s.owner := rfl
@[simp] theorem modConn_rings (k : Nat) (f : Conn → Conn) (s : State) : (modConn k f s).rings = s.rings := rfl
@[simp] theorem modConn_ops (k : Nat) (f : Conn → Conn) (s : State) : (modConn k f s).ops = s.ops := rfl
@[simp] theorem modConn_hosts (k : Nat) (f : Conn → Conn) (s : State) : (modConn k f s).hosts = s.hosts := rfl
@[simp] theorem modConn_fns (k : Nat) (f : Conn → Conn) (s : State) : (modConn k f s).fns = s.fns := rfl
@[simp] theorem modConn_queues (k : Nat) (f : Conn → Conn) (s : State) : (modConn k f s).queues = s.queues := rfl
@[simp] theorem modConn_eth (k : Nat) (f : Conn → Conn) (s : State) : (modConn k f s).eth = s.eth := rfl
@[simp] theorem modConn_parse (k : Nat) (f : Conn → Conn) (s : State) : (modConn k f s).parse = s.parse := rfl
@[simp] theorem modConn_cls (k : Nat) (f : Conn → Conn) (s : State) : (modConn k f s).cls = s.cls := rfl
@[simp] theorem modConn_tables (k : Nat) (f : Conn → Conn) (s : State) : (modConn k f s).tables = s.tables := rfl
@[simp] theorem modConn_hod (k : Nat) (f : Conn → Conn) (s : State) : (modConn k f s).hod = s.hod := rfl
@[simp] theorem modConn_sched (k : Nat) (f : Conn → Conn) (s : State) : (modConn k f s).sched = s.sched := rfl
@[simp] theorem modConn_net (k : Nat) (f : Conn → Conn) (s : State) : (modConn k f s).net = s.net := rfl
@[simp] theorem modConn_ctx (k : Nat) (f : Conn → Conn) (s : State) : (modConn k f s).ctx = { s.ctx with conns := Tbl.modify s.ctx.conns k f } := rfl
@[simp] theorem modConn_nvme (k : Nat) (f : Conn → Conn) (s : State) : (modConn k f s).nvme = s.nvme := rfl
@[simp] theorem modConn_crypt (k : Nat) (f : Conn → Conn) (s : State) : (modConn k f s).crypt = s.crypt := rfl
@[simp] theorem modConn_cores (k : Nat) (f : Conn → Conn) (s : State) : (modConn k f s).cores = s.cores := rfl
@[simp] theorem modConn_dram (k : Nat) (f : Conn → Conn) (s : State) : (modConn k f s).dram = s.dram := rfl
@[simp] theorem modConn_sec (k : Nat) (f : Conn → Conn) (s : State) : (modConn k f s).sec = s.sec := rfl
@[simp] theorem modConn_klb (k : Nat) (f : Conn → Conn) (s : State) : (modConn k f s).klb = s.klb := rfl
@[simp] theorem modConn_elec (k : Nat) (f : Conn → Conn) (s : State) : (modConn k f s).elec = s.elec := rfl
@[simp] theorem modConn_degr (k : Nat) (f : Conn → Conn) (s : State) : (modConn k f s).degr = s.degr := rfl
@[simp] theorem modConn_bist (k : Nat) (f : Conn → Conn) (s : State) : (modConn k f s).bist = s.bist := rfl
@[simp] theorem modConn_carve (k : Nat) (f : Conn → Conn) (s : State) : (modConn k f s).carve = s.carve := rfl
@[simp] theorem modConn_violations (k : Nat) (f : Conn → Conn) (s : State) : (modConn k f s).violations = s.violations := rfl
@[simp] theorem modConn_counters (k : Nat) (f : Conn → Conn) (s : State) : (modConn k f s).counters = s.counters := rfl
@[simp] theorem modConn_regs (k : Nat) (f : Conn → Conn) (s : State) : (modConn k f s).regs = s.regs := rfl

/-! modNvme -/
@[simp] theorem modNvme_pending (f : Nvme → Nvme) (s : State) : (modNvme f s).pending = s.pending := rfl
@[simp] theorem modNvme_fenced (f : Nvme → Nvme) (s : State) : (modNvme f s).fenced = s.fenced := rfl
@[simp] theorem modNvme_out (f : Nvme → Nvme) (s : State) : (modNvme f s).out = s.out := rfl
@[simp] theorem modNvme_drawn (f : Nvme → Nvme) (s : State) : (modNvme f s).drawn = s.drawn := rfl
@[simp] theorem modNvme_now (f : Nvme → Nvme) (s : State) : (modNvme f s).now = s.now := rfl
@[simp] theorem modNvme_dtime (f : Nvme → Nvme) (s : State) : (modNvme f s).dtime = s.dtime := rfl
@[simp] theorem modNvme_nv (f : Nvme → Nvme) (s : State) : (modNvme f s).nv = s.nv := rfl
@[simp] theorem modNvme_clk (f : Nvme → Nvme) (s : State) : (modNvme f s).clk = s.clk := rfl
@[simp] theorem modNvme_glb (f : Nvme → Nvme) (s : State) : (modNvme f s).glb = s.glb := rfl
@[simp] theorem modNvme_epochs (f : Nvme → Nvme) (s : State) : (modNvme f s).epochs = s.epochs := rfl
@[simp] theorem modNvme_owner (f : Nvme → Nvme) (s : State) : (modNvme f s).owner = s.owner := rfl
@[simp] theorem modNvme_rings (f : Nvme → Nvme) (s : State) : (modNvme f s).rings = s.rings := rfl
@[simp] theorem modNvme_ops (f : Nvme → Nvme) (s : State) : (modNvme f s).ops = s.ops := rfl
@[simp] theorem modNvme_hosts (f : Nvme → Nvme) (s : State) : (modNvme f s).hosts = s.hosts := rfl
@[simp] theorem modNvme_fns (f : Nvme → Nvme) (s : State) : (modNvme f s).fns = s.fns := rfl
@[simp] theorem modNvme_queues (f : Nvme → Nvme) (s : State) : (modNvme f s).queues = s.queues := rfl
@[simp] theorem modNvme_eth (f : Nvme → Nvme) (s : State) : (modNvme f s).eth = s.eth := rfl
@[simp] theorem modNvme_parse (f : Nvme → Nvme) (s : State) : (modNvme f s).parse = s.parse := rfl
@[simp] theorem modNvme_cls (f : Nvme → Nvme) (s : State) : (modNvme f s).cls = s.cls := rfl
@[simp] theorem modNvme_tables (f : Nvme → Nvme) (s : State) : (modNvme f s).tables = s.tables := rfl
@[simp] theorem modNvme_hod (f : Nvme → Nvme) (s : State) : (modNvme f s).hod = s.hod := rfl
@[simp] theorem modNvme_sched (f : Nvme → Nvme) (s : State) : (modNvme f s).sched = s.sched := rfl
@[simp] theorem modNvme_net (f : Nvme → Nvme) (s : State) : (modNvme f s).net = s.net := rfl
@[simp] theorem modNvme_ctx (f : Nvme → Nvme) (s : State) : (modNvme f s).ctx = s.ctx := rfl
@[simp] theorem modNvme_nvme (f : Nvme → Nvme) (s : State) : (modNvme f s).nvme = f s.nvme := rfl
@[simp] theorem modNvme_crypt (f : Nvme → Nvme) (s : State) : (modNvme f s).crypt = s.crypt := rfl
@[simp] theorem modNvme_cores (f : Nvme → Nvme) (s : State) : (modNvme f s).cores = s.cores := rfl
@[simp] theorem modNvme_dram (f : Nvme → Nvme) (s : State) : (modNvme f s).dram = s.dram := rfl
@[simp] theorem modNvme_sec (f : Nvme → Nvme) (s : State) : (modNvme f s).sec = s.sec := rfl
@[simp] theorem modNvme_klb (f : Nvme → Nvme) (s : State) : (modNvme f s).klb = s.klb := rfl
@[simp] theorem modNvme_elec (f : Nvme → Nvme) (s : State) : (modNvme f s).elec = s.elec := rfl
@[simp] theorem modNvme_degr (f : Nvme → Nvme) (s : State) : (modNvme f s).degr = s.degr := rfl
@[simp] theorem modNvme_bist (f : Nvme → Nvme) (s : State) : (modNvme f s).bist = s.bist := rfl
@[simp] theorem modNvme_carve (f : Nvme → Nvme) (s : State) : (modNvme f s).carve = s.carve := rfl
@[simp] theorem modNvme_violations (f : Nvme → Nvme) (s : State) : (modNvme f s).violations = s.violations := rfl
@[simp] theorem modNvme_counters (f : Nvme → Nvme) (s : State) : (modNvme f s).counters = s.counters := rfl
@[simp] theorem modNvme_regs (f : Nvme → Nvme) (s : State) : (modNvme f s).regs = s.regs := rfl

/-! modCrypt -/
@[simp] theorem modCrypt_pending (f : Crypt → Crypt) (s : State) : (modCrypt f s).pending = s.pending := rfl
@[simp] theorem modCrypt_fenced (f : Crypt → Crypt) (s : State) : (modCrypt f s).fenced = s.fenced := rfl
@[simp] theorem modCrypt_out (f : Crypt → Crypt) (s : State) : (modCrypt f s).out = s.out := rfl
@[simp] theorem modCrypt_drawn (f : Crypt → Crypt) (s : State) : (modCrypt f s).drawn = s.drawn := rfl
@[simp] theorem modCrypt_now (f : Crypt → Crypt) (s : State) : (modCrypt f s).now = s.now := rfl
@[simp] theorem modCrypt_dtime (f : Crypt → Crypt) (s : State) : (modCrypt f s).dtime = s.dtime := rfl
@[simp] theorem modCrypt_nv (f : Crypt → Crypt) (s : State) : (modCrypt f s).nv = s.nv := rfl
@[simp] theorem modCrypt_clk (f : Crypt → Crypt) (s : State) : (modCrypt f s).clk = s.clk := rfl
@[simp] theorem modCrypt_glb (f : Crypt → Crypt) (s : State) : (modCrypt f s).glb = s.glb := rfl
@[simp] theorem modCrypt_epochs (f : Crypt → Crypt) (s : State) : (modCrypt f s).epochs = s.epochs := rfl
@[simp] theorem modCrypt_owner (f : Crypt → Crypt) (s : State) : (modCrypt f s).owner = s.owner := rfl
@[simp] theorem modCrypt_rings (f : Crypt → Crypt) (s : State) : (modCrypt f s).rings = s.rings := rfl
@[simp] theorem modCrypt_ops (f : Crypt → Crypt) (s : State) : (modCrypt f s).ops = s.ops := rfl
@[simp] theorem modCrypt_hosts (f : Crypt → Crypt) (s : State) : (modCrypt f s).hosts = s.hosts := rfl
@[simp] theorem modCrypt_fns (f : Crypt → Crypt) (s : State) : (modCrypt f s).fns = s.fns := rfl
@[simp] theorem modCrypt_queues (f : Crypt → Crypt) (s : State) : (modCrypt f s).queues = s.queues := rfl
@[simp] theorem modCrypt_eth (f : Crypt → Crypt) (s : State) : (modCrypt f s).eth = s.eth := rfl
@[simp] theorem modCrypt_parse (f : Crypt → Crypt) (s : State) : (modCrypt f s).parse = s.parse := rfl
@[simp] theorem modCrypt_cls (f : Crypt → Crypt) (s : State) : (modCrypt f s).cls = s.cls := rfl
@[simp] theorem modCrypt_tables (f : Crypt → Crypt) (s : State) : (modCrypt f s).tables = s.tables := rfl
@[simp] theorem modCrypt_hod (f : Crypt → Crypt) (s : State) : (modCrypt f s).hod = s.hod := rfl
@[simp] theorem modCrypt_sched (f : Crypt → Crypt) (s : State) : (modCrypt f s).sched = s.sched := rfl
@[simp] theorem modCrypt_net (f : Crypt → Crypt) (s : State) : (modCrypt f s).net = s.net := rfl
@[simp] theorem modCrypt_ctx (f : Crypt → Crypt) (s : State) : (modCrypt f s).ctx = s.ctx := rfl
@[simp] theorem modCrypt_nvme (f : Crypt → Crypt) (s : State) : (modCrypt f s).nvme = s.nvme := rfl
@[simp] theorem modCrypt_crypt (f : Crypt → Crypt) (s : State) : (modCrypt f s).crypt = f s.crypt := rfl
@[simp] theorem modCrypt_cores (f : Crypt → Crypt) (s : State) : (modCrypt f s).cores = s.cores := rfl
@[simp] theorem modCrypt_dram (f : Crypt → Crypt) (s : State) : (modCrypt f s).dram = s.dram := rfl
@[simp] theorem modCrypt_sec (f : Crypt → Crypt) (s : State) : (modCrypt f s).sec = s.sec := rfl
@[simp] theorem modCrypt_klb (f : Crypt → Crypt) (s : State) : (modCrypt f s).klb = s.klb := rfl
@[simp] theorem modCrypt_elec (f : Crypt → Crypt) (s : State) : (modCrypt f s).elec = s.elec := rfl
@[simp] theorem modCrypt_degr (f : Crypt → Crypt) (s : State) : (modCrypt f s).degr = s.degr := rfl
@[simp] theorem modCrypt_bist (f : Crypt → Crypt) (s : State) : (modCrypt f s).bist = s.bist := rfl
@[simp] theorem modCrypt_carve (f : Crypt → Crypt) (s : State) : (modCrypt f s).carve = s.carve := rfl
@[simp] theorem modCrypt_violations (f : Crypt → Crypt) (s : State) : (modCrypt f s).violations = s.violations := rfl
@[simp] theorem modCrypt_counters (f : Crypt → Crypt) (s : State) : (modCrypt f s).counters = s.counters := rfl
@[simp] theorem modCrypt_regs (f : Crypt → Crypt) (s : State) : (modCrypt f s).regs = s.regs := rfl

/-! modSlot -/
@[simp] theorem modSlot_pending (n : Nat) (f : KeySlot → KeySlot) (s : State) : (modSlot n f s).pending = s.pending := rfl
@[simp] theorem modSlot_fenced (n : Nat) (f : KeySlot → KeySlot) (s : State) : (modSlot n f s).fenced = s.fenced := rfl
@[simp] theorem modSlot_out (n : Nat) (f : KeySlot → KeySlot) (s : State) : (modSlot n f s).out = s.out := rfl
@[simp] theorem modSlot_drawn (n : Nat) (f : KeySlot → KeySlot) (s : State) : (modSlot n f s).drawn = s.drawn := rfl
@[simp] theorem modSlot_now (n : Nat) (f : KeySlot → KeySlot) (s : State) : (modSlot n f s).now = s.now := rfl
@[simp] theorem modSlot_dtime (n : Nat) (f : KeySlot → KeySlot) (s : State) : (modSlot n f s).dtime = s.dtime := rfl
@[simp] theorem modSlot_nv (n : Nat) (f : KeySlot → KeySlot) (s : State) : (modSlot n f s).nv = s.nv := rfl
@[simp] theorem modSlot_clk (n : Nat) (f : KeySlot → KeySlot) (s : State) : (modSlot n f s).clk = s.clk := rfl
@[simp] theorem modSlot_glb (n : Nat) (f : KeySlot → KeySlot) (s : State) : (modSlot n f s).glb = s.glb := rfl
@[simp] theorem modSlot_epochs (n : Nat) (f : KeySlot → KeySlot) (s : State) : (modSlot n f s).epochs = s.epochs := rfl
@[simp] theorem modSlot_owner (n : Nat) (f : KeySlot → KeySlot) (s : State) : (modSlot n f s).owner = s.owner := rfl
@[simp] theorem modSlot_rings (n : Nat) (f : KeySlot → KeySlot) (s : State) : (modSlot n f s).rings = s.rings := rfl
@[simp] theorem modSlot_ops (n : Nat) (f : KeySlot → KeySlot) (s : State) : (modSlot n f s).ops = s.ops := rfl
@[simp] theorem modSlot_hosts (n : Nat) (f : KeySlot → KeySlot) (s : State) : (modSlot n f s).hosts = s.hosts := rfl
@[simp] theorem modSlot_fns (n : Nat) (f : KeySlot → KeySlot) (s : State) : (modSlot n f s).fns = s.fns := rfl
@[simp] theorem modSlot_queues (n : Nat) (f : KeySlot → KeySlot) (s : State) : (modSlot n f s).queues = s.queues := rfl
@[simp] theorem modSlot_eth (n : Nat) (f : KeySlot → KeySlot) (s : State) : (modSlot n f s).eth = s.eth := rfl
@[simp] theorem modSlot_parse (n : Nat) (f : KeySlot → KeySlot) (s : State) : (modSlot n f s).parse = s.parse := rfl
@[simp] theorem modSlot_cls (n : Nat) (f : KeySlot → KeySlot) (s : State) : (modSlot n f s).cls = s.cls := rfl
@[simp] theorem modSlot_tables (n : Nat) (f : KeySlot → KeySlot) (s : State) : (modSlot n f s).tables = s.tables := rfl
@[simp] theorem modSlot_hod (n : Nat) (f : KeySlot → KeySlot) (s : State) : (modSlot n f s).hod = s.hod := rfl
@[simp] theorem modSlot_sched (n : Nat) (f : KeySlot → KeySlot) (s : State) : (modSlot n f s).sched = s.sched := rfl
@[simp] theorem modSlot_net (n : Nat) (f : KeySlot → KeySlot) (s : State) : (modSlot n f s).net = s.net := rfl
@[simp] theorem modSlot_ctx (n : Nat) (f : KeySlot → KeySlot) (s : State) : (modSlot n f s).ctx = s.ctx := rfl
@[simp] theorem modSlot_nvme (n : Nat) (f : KeySlot → KeySlot) (s : State) : (modSlot n f s).nvme = s.nvme := rfl
@[simp] theorem modSlot_crypt (n : Nat) (f : KeySlot → KeySlot) (s : State) : (modSlot n f s).crypt = { s.crypt with slots := Tbl.modify s.crypt.slots n f } := rfl
@[simp] theorem modSlot_cores (n : Nat) (f : KeySlot → KeySlot) (s : State) : (modSlot n f s).cores = s.cores := rfl
@[simp] theorem modSlot_dram (n : Nat) (f : KeySlot → KeySlot) (s : State) : (modSlot n f s).dram = s.dram := rfl
@[simp] theorem modSlot_sec (n : Nat) (f : KeySlot → KeySlot) (s : State) : (modSlot n f s).sec = s.sec := rfl
@[simp] theorem modSlot_klb (n : Nat) (f : KeySlot → KeySlot) (s : State) : (modSlot n f s).klb = s.klb := rfl
@[simp] theorem modSlot_elec (n : Nat) (f : KeySlot → KeySlot) (s : State) : (modSlot n f s).elec = s.elec := rfl
@[simp] theorem modSlot_degr (n : Nat) (f : KeySlot → KeySlot) (s : State) : (modSlot n f s).degr = s.degr := rfl
@[simp] theorem modSlot_bist (n : Nat) (f : KeySlot → KeySlot) (s : State) : (modSlot n f s).bist = s.bist := rfl
@[simp] theorem modSlot_carve (n : Nat) (f : KeySlot → KeySlot) (s : State) : (modSlot n f s).carve = s.carve := rfl
@[simp] theorem modSlot_violations (n : Nat) (f : KeySlot → KeySlot) (s : State) : (modSlot n f s).violations = s.violations := rfl
@[simp] theorem modSlot_counters (n : Nat) (f : KeySlot → KeySlot) (s : State) : (modSlot n f s).counters = s.counters := rfl
@[simp] theorem modSlot_regs (n : Nat) (f : KeySlot → KeySlot) (s : State) : (modSlot n f s).regs = s.regs := rfl

/-! modCores -/
@[simp] theorem modCores_pending (f : Cores → Cores) (s : State) : (modCores f s).pending = s.pending := rfl
@[simp] theorem modCores_fenced (f : Cores → Cores) (s : State) : (modCores f s).fenced = s.fenced := rfl
@[simp] theorem modCores_out (f : Cores → Cores) (s : State) : (modCores f s).out = s.out := rfl
@[simp] theorem modCores_drawn (f : Cores → Cores) (s : State) : (modCores f s).drawn = s.drawn := rfl
@[simp] theorem modCores_now (f : Cores → Cores) (s : State) : (modCores f s).now = s.now := rfl
@[simp] theorem modCores_dtime (f : Cores → Cores) (s : State) : (modCores f s).dtime = s.dtime := rfl
@[simp] theorem modCores_nv (f : Cores → Cores) (s : State) : (modCores f s).nv = s.nv := rfl
@[simp] theorem modCores_clk (f : Cores → Cores) (s : State) : (modCores f s).clk = s.clk := rfl
@[simp] theorem modCores_glb (f : Cores → Cores) (s : State) : (modCores f s).glb = s.glb := rfl
@[simp] theorem modCores_epochs (f : Cores → Cores) (s : State) : (modCores f s).epochs = s.epochs := rfl
@[simp] theorem modCores_owner (f : Cores → Cores) (s : State) : (modCores f s).owner = s.owner := rfl
@[simp] theorem modCores_rings (f : Cores → Cores) (s : State) : (modCores f s).rings = s.rings := rfl
@[simp] theorem modCores_ops (f : Cores → Cores) (s : State) : (modCores f s).ops = s.ops := rfl
@[simp] theorem modCores_hosts (f : Cores → Cores) (s : State) : (modCores f s).hosts = s.hosts := rfl
@[simp] theorem modCores_fns (f : Cores → Cores) (s : State) : (modCores f s).fns = s.fns := rfl
@[simp] theorem modCores_queues (f : Cores → Cores) (s : State) : (modCores f s).queues = s.queues := rfl
@[simp] theorem modCores_eth (f : Cores → Cores) (s : State) : (modCores f s).eth = s.eth := rfl
@[simp] theorem modCores_parse (f : Cores → Cores) (s : State) : (modCores f s).parse = s.parse := rfl
@[simp] theorem modCores_cls (f : Cores → Cores) (s : State) : (modCores f s).cls = s.cls := rfl
@[simp] theorem modCores_tables (f : Cores → Cores) (s : State) : (modCores f s).tables = s.tables := rfl
@[simp] theorem modCores_hod (f : Cores → Cores) (s : State) : (modCores f s).hod = s.hod := rfl
@[simp] theorem modCores_sched (f : Cores → Cores) (s : State) : (modCores f s).sched = s.sched := rfl
@[simp] theorem modCores_net (f : Cores → Cores) (s : State) : (modCores f s).net = s.net := rfl
@[simp] theorem modCores_ctx (f : Cores → Cores) (s : State) : (modCores f s).ctx = s.ctx := rfl
@[simp] theorem modCores_nvme (f : Cores → Cores) (s : State) : (modCores f s).nvme = s.nvme := rfl
@[simp] theorem modCores_crypt (f : Cores → Cores) (s : State) : (modCores f s).crypt = s.crypt := rfl
@[simp] theorem modCores_cores (f : Cores → Cores) (s : State) : (modCores f s).cores = f s.cores := rfl
@[simp] theorem modCores_dram (f : Cores → Cores) (s : State) : (modCores f s).dram = s.dram := rfl
@[simp] theorem modCores_sec (f : Cores → Cores) (s : State) : (modCores f s).sec = s.sec := rfl
@[simp] theorem modCores_klb (f : Cores → Cores) (s : State) : (modCores f s).klb = s.klb := rfl
@[simp] theorem modCores_elec (f : Cores → Cores) (s : State) : (modCores f s).elec = s.elec := rfl
@[simp] theorem modCores_degr (f : Cores → Cores) (s : State) : (modCores f s).degr = s.degr := rfl
@[simp] theorem modCores_bist (f : Cores → Cores) (s : State) : (modCores f s).bist = s.bist := rfl
@[simp] theorem modCores_carve (f : Cores → Cores) (s : State) : (modCores f s).carve = s.carve := rfl
@[simp] theorem modCores_violations (f : Cores → Cores) (s : State) : (modCores f s).violations = s.violations := rfl
@[simp] theorem modCores_counters (f : Cores → Cores) (s : State) : (modCores f s).counters = s.counters := rfl
@[simp] theorem modCores_regs (f : Cores → Cores) (s : State) : (modCores f s).regs = s.regs := rfl

/-! modDram -/
@[simp] theorem modDram_pending (f : Dram → Dram) (s : State) : (modDram f s).pending = s.pending := rfl
@[simp] theorem modDram_fenced (f : Dram → Dram) (s : State) : (modDram f s).fenced = s.fenced := rfl
@[simp] theorem modDram_out (f : Dram → Dram) (s : State) : (modDram f s).out = s.out := rfl
@[simp] theorem modDram_drawn (f : Dram → Dram) (s : State) : (modDram f s).drawn = s.drawn := rfl
@[simp] theorem modDram_now (f : Dram → Dram) (s : State) : (modDram f s).now = s.now := rfl
@[simp] theorem modDram_dtime (f : Dram → Dram) (s : State) : (modDram f s).dtime = s.dtime := rfl
@[simp] theorem modDram_nv (f : Dram → Dram) (s : State) : (modDram f s).nv = s.nv := rfl
@[simp] theorem modDram_clk (f : Dram → Dram) (s : State) : (modDram f s).clk = s.clk := rfl
@[simp] theorem modDram_glb (f : Dram → Dram) (s : State) : (modDram f s).glb = s.glb := rfl
@[simp] theorem modDram_epochs (f : Dram → Dram) (s : State) : (modDram f s).epochs = s.epochs := rfl
@[simp] theorem modDram_owner (f : Dram → Dram) (s : State) : (modDram f s).owner = s.owner := rfl
@[simp] theorem modDram_rings (f : Dram → Dram) (s : State) : (modDram f s).rings = s.rings := rfl
@[simp] theorem modDram_ops (f : Dram → Dram) (s : State) : (modDram f s).ops = s.ops := rfl
@[simp] theorem modDram_hosts (f : Dram → Dram) (s : State) : (modDram f s).hosts = s.hosts := rfl
@[simp] theorem modDram_fns (f : Dram → Dram) (s : State) : (modDram f s).fns = s.fns := rfl
@[simp] theorem modDram_queues (f : Dram → Dram) (s : State) : (modDram f s).queues = s.queues := rfl
@[simp] theorem modDram_eth (f : Dram → Dram) (s : State) : (modDram f s).eth = s.eth := rfl
@[simp] theorem modDram_parse (f : Dram → Dram) (s : State) : (modDram f s).parse = s.parse := rfl
@[simp] theorem modDram_cls (f : Dram → Dram) (s : State) : (modDram f s).cls = s.cls := rfl
@[simp] theorem modDram_tables (f : Dram → Dram) (s : State) : (modDram f s).tables = s.tables := rfl
@[simp] theorem modDram_hod (f : Dram → Dram) (s : State) : (modDram f s).hod = s.hod := rfl
@[simp] theorem modDram_sched (f : Dram → Dram) (s : State) : (modDram f s).sched = s.sched := rfl
@[simp] theorem modDram_net (f : Dram → Dram) (s : State) : (modDram f s).net = s.net := rfl
@[simp] theorem modDram_ctx (f : Dram → Dram) (s : State) : (modDram f s).ctx = s.ctx := rfl
@[simp] theorem modDram_nvme (f : Dram → Dram) (s : State) : (modDram f s).nvme = s.nvme := rfl
@[simp] theorem modDram_crypt (f : Dram → Dram) (s : State) : (modDram f s).crypt = s.crypt := rfl
@[simp] theorem modDram_cores (f : Dram → Dram) (s : State) : (modDram f s).cores = s.cores := rfl
@[simp] theorem modDram_dram (f : Dram → Dram) (s : State) : (modDram f s).dram = f s.dram := rfl
@[simp] theorem modDram_sec (f : Dram → Dram) (s : State) : (modDram f s).sec = s.sec := rfl
@[simp] theorem modDram_klb (f : Dram → Dram) (s : State) : (modDram f s).klb = s.klb := rfl
@[simp] theorem modDram_elec (f : Dram → Dram) (s : State) : (modDram f s).elec = s.elec := rfl
@[simp] theorem modDram_degr (f : Dram → Dram) (s : State) : (modDram f s).degr = s.degr := rfl
@[simp] theorem modDram_bist (f : Dram → Dram) (s : State) : (modDram f s).bist = s.bist := rfl
@[simp] theorem modDram_carve (f : Dram → Dram) (s : State) : (modDram f s).carve = s.carve := rfl
@[simp] theorem modDram_violations (f : Dram → Dram) (s : State) : (modDram f s).violations = s.violations := rfl
@[simp] theorem modDram_counters (f : Dram → Dram) (s : State) : (modDram f s).counters = s.counters := rfl
@[simp] theorem modDram_regs (f : Dram → Dram) (s : State) : (modDram f s).regs = s.regs := rfl

/-! modSec -/
@[simp] theorem modSec_pending (f : Sec → Sec) (s : State) : (modSec f s).pending = s.pending := rfl
@[simp] theorem modSec_fenced (f : Sec → Sec) (s : State) : (modSec f s).fenced = s.fenced := rfl
@[simp] theorem modSec_out (f : Sec → Sec) (s : State) : (modSec f s).out = s.out := rfl
@[simp] theorem modSec_drawn (f : Sec → Sec) (s : State) : (modSec f s).drawn = s.drawn := rfl
@[simp] theorem modSec_now (f : Sec → Sec) (s : State) : (modSec f s).now = s.now := rfl
@[simp] theorem modSec_dtime (f : Sec → Sec) (s : State) : (modSec f s).dtime = s.dtime := rfl
@[simp] theorem modSec_nv (f : Sec → Sec) (s : State) : (modSec f s).nv = s.nv := rfl
@[simp] theorem modSec_clk (f : Sec → Sec) (s : State) : (modSec f s).clk = s.clk := rfl
@[simp] theorem modSec_glb (f : Sec → Sec) (s : State) : (modSec f s).glb = s.glb := rfl
@[simp] theorem modSec_epochs (f : Sec → Sec) (s : State) : (modSec f s).epochs = s.epochs := rfl
@[simp] theorem modSec_owner (f : Sec → Sec) (s : State) : (modSec f s).owner = s.owner := rfl
@[simp] theorem modSec_rings (f : Sec → Sec) (s : State) : (modSec f s).rings = s.rings := rfl
@[simp] theorem modSec_ops (f : Sec → Sec) (s : State) : (modSec f s).ops = s.ops := rfl
@[simp] theorem modSec_hosts (f : Sec → Sec) (s : State) : (modSec f s).hosts = s.hosts := rfl
@[simp] theorem modSec_fns (f : Sec → Sec) (s : State) : (modSec f s).fns = s.fns := rfl
@[simp] theorem modSec_queues (f : Sec → Sec) (s : State) : (modSec f s).queues = s.queues := rfl
@[simp] theorem modSec_eth (f : Sec → Sec) (s : State) : (modSec f s).eth = s.eth := rfl
@[simp] theorem modSec_parse (f : Sec → Sec) (s : State) : (modSec f s).parse = s.parse := rfl
@[simp] theorem modSec_cls (f : Sec → Sec) (s : State) : (modSec f s).cls = s.cls := rfl
@[simp] theorem modSec_tables (f : Sec → Sec) (s : State) : (modSec f s).tables = s.tables := rfl
@[simp] theorem modSec_hod (f : Sec → Sec) (s : State) : (modSec f s).hod = s.hod := rfl
@[simp] theorem modSec_sched (f : Sec → Sec) (s : State) : (modSec f s).sched = s.sched := rfl
@[simp] theorem modSec_net (f : Sec → Sec) (s : State) : (modSec f s).net = s.net := rfl
@[simp] theorem modSec_ctx (f : Sec → Sec) (s : State) : (modSec f s).ctx = s.ctx := rfl
@[simp] theorem modSec_nvme (f : Sec → Sec) (s : State) : (modSec f s).nvme = s.nvme := rfl
@[simp] theorem modSec_crypt (f : Sec → Sec) (s : State) : (modSec f s).crypt = s.crypt := rfl
@[simp] theorem modSec_cores (f : Sec → Sec) (s : State) : (modSec f s).cores = s.cores := rfl
@[simp] theorem modSec_dram (f : Sec → Sec) (s : State) : (modSec f s).dram = s.dram := rfl
@[simp] theorem modSec_sec (f : Sec → Sec) (s : State) : (modSec f s).sec = f s.sec := rfl
@[simp] theorem modSec_klb (f : Sec → Sec) (s : State) : (modSec f s).klb = s.klb := rfl
@[simp] theorem modSec_elec (f : Sec → Sec) (s : State) : (modSec f s).elec = s.elec := rfl
@[simp] theorem modSec_degr (f : Sec → Sec) (s : State) : (modSec f s).degr = s.degr := rfl
@[simp] theorem modSec_bist (f : Sec → Sec) (s : State) : (modSec f s).bist = s.bist := rfl
@[simp] theorem modSec_carve (f : Sec → Sec) (s : State) : (modSec f s).carve = s.carve := rfl
@[simp] theorem modSec_violations (f : Sec → Sec) (s : State) : (modSec f s).violations = s.violations := rfl
@[simp] theorem modSec_counters (f : Sec → Sec) (s : State) : (modSec f s).counters = s.counters := rfl
@[simp] theorem modSec_regs (f : Sec → Sec) (s : State) : (modSec f s).regs = s.regs := rfl

/-! modNv -/
@[simp] theorem modNv_pending (f : Nv → Nv) (s : State) : (modNv f s).pending = s.pending := rfl
@[simp] theorem modNv_fenced (f : Nv → Nv) (s : State) : (modNv f s).fenced = s.fenced := rfl
@[simp] theorem modNv_out (f : Nv → Nv) (s : State) : (modNv f s).out = s.out := rfl
@[simp] theorem modNv_drawn (f : Nv → Nv) (s : State) : (modNv f s).drawn = s.drawn := rfl
@[simp] theorem modNv_now (f : Nv → Nv) (s : State) : (modNv f s).now = s.now := rfl
@[simp] theorem modNv_dtime (f : Nv → Nv) (s : State) : (modNv f s).dtime = s.dtime := rfl
@[simp] theorem modNv_nv (f : Nv → Nv) (s : State) : (modNv f s).nv = f s.nv := rfl
@[simp] theorem modNv_clk (f : Nv → Nv) (s : State) : (modNv f s).clk = s.clk := rfl
@[simp] theorem modNv_glb (f : Nv → Nv) (s : State) : (modNv f s).glb = s.glb := rfl
@[simp] theorem modNv_epochs (f : Nv → Nv) (s : State) : (modNv f s).epochs = s.epochs := rfl
@[simp] theorem modNv_owner (f : Nv → Nv) (s : State) : (modNv f s).owner = s.owner := rfl
@[simp] theorem modNv_rings (f : Nv → Nv) (s : State) : (modNv f s).rings = s.rings := rfl
@[simp] theorem modNv_ops (f : Nv → Nv) (s : State) : (modNv f s).ops = s.ops := rfl
@[simp] theorem modNv_hosts (f : Nv → Nv) (s : State) : (modNv f s).hosts = s.hosts := rfl
@[simp] theorem modNv_fns (f : Nv → Nv) (s : State) : (modNv f s).fns = s.fns := rfl
@[simp] theorem modNv_queues (f : Nv → Nv) (s : State) : (modNv f s).queues = s.queues := rfl
@[simp] theorem modNv_eth (f : Nv → Nv) (s : State) : (modNv f s).eth = s.eth := rfl
@[simp] theorem modNv_parse (f : Nv → Nv) (s : State) : (modNv f s).parse = s.parse := rfl
@[simp] theorem modNv_cls (f : Nv → Nv) (s : State) : (modNv f s).cls = s.cls := rfl
@[simp] theorem modNv_tables (f : Nv → Nv) (s : State) : (modNv f s).tables = s.tables := rfl
@[simp] theorem modNv_hod (f : Nv → Nv) (s : State) : (modNv f s).hod = s.hod := rfl
@[simp] theorem modNv_sched (f : Nv → Nv) (s : State) : (modNv f s).sched = s.sched := rfl
@[simp] theorem modNv_net (f : Nv → Nv) (s : State) : (modNv f s).net = s.net := rfl
@[simp] theorem modNv_ctx (f : Nv → Nv) (s : State) : (modNv f s).ctx = s.ctx := rfl
@[simp] theorem modNv_nvme (f : Nv → Nv) (s : State) : (modNv f s).nvme = s.nvme := rfl
@[simp] theorem modNv_crypt (f : Nv → Nv) (s : State) : (modNv f s).crypt = s.crypt := rfl
@[simp] theorem modNv_cores (f : Nv → Nv) (s : State) : (modNv f s).cores = s.cores := rfl
@[simp] theorem modNv_dram (f : Nv → Nv) (s : State) : (modNv f s).dram = s.dram := rfl
@[simp] theorem modNv_sec (f : Nv → Nv) (s : State) : (modNv f s).sec = s.sec := rfl
@[simp] theorem modNv_klb (f : Nv → Nv) (s : State) : (modNv f s).klb = s.klb := rfl
@[simp] theorem modNv_elec (f : Nv → Nv) (s : State) : (modNv f s).elec = s.elec := rfl
@[simp] theorem modNv_degr (f : Nv → Nv) (s : State) : (modNv f s).degr = s.degr := rfl
@[simp] theorem modNv_bist (f : Nv → Nv) (s : State) : (modNv f s).bist = s.bist := rfl
@[simp] theorem modNv_carve (f : Nv → Nv) (s : State) : (modNv f s).carve = s.carve := rfl
@[simp] theorem modNv_violations (f : Nv → Nv) (s : State) : (modNv f s).violations = s.violations := rfl
@[simp] theorem modNv_counters (f : Nv → Nv) (s : State) : (modNv f s).counters = s.counters := rfl
@[simp] theorem modNv_regs (f : Nv → Nv) (s : State) : (modNv f s).regs = s.regs := rfl

/-! modKlb -/
@[simp] theorem modKlb_pending (f : Klb → Klb) (s : State) : (modKlb f s).pending = s.pending := rfl
@[simp] theorem modKlb_fenced (f : Klb → Klb) (s : State) : (modKlb f s).fenced = s.fenced := rfl
@[simp] theorem modKlb_out (f : Klb → Klb) (s : State) : (modKlb f s).out = s.out := rfl
@[simp] theorem modKlb_drawn (f : Klb → Klb) (s : State) : (modKlb f s).drawn = s.drawn := rfl
@[simp] theorem modKlb_now (f : Klb → Klb) (s : State) : (modKlb f s).now = s.now := rfl
@[simp] theorem modKlb_dtime (f : Klb → Klb) (s : State) : (modKlb f s).dtime = s.dtime := rfl
@[simp] theorem modKlb_nv (f : Klb → Klb) (s : State) : (modKlb f s).nv = s.nv := rfl
@[simp] theorem modKlb_clk (f : Klb → Klb) (s : State) : (modKlb f s).clk = s.clk := rfl
@[simp] theorem modKlb_glb (f : Klb → Klb) (s : State) : (modKlb f s).glb = s.glb := rfl
@[simp] theorem modKlb_epochs (f : Klb → Klb) (s : State) : (modKlb f s).epochs = s.epochs := rfl
@[simp] theorem modKlb_owner (f : Klb → Klb) (s : State) : (modKlb f s).owner = s.owner := rfl
@[simp] theorem modKlb_rings (f : Klb → Klb) (s : State) : (modKlb f s).rings = s.rings := rfl
@[simp] theorem modKlb_ops (f : Klb → Klb) (s : State) : (modKlb f s).ops = s.ops := rfl
@[simp] theorem modKlb_hosts (f : Klb → Klb) (s : State) : (modKlb f s).hosts = s.hosts := rfl
@[simp] theorem modKlb_fns (f : Klb → Klb) (s : State) : (modKlb f s).fns = s.fns := rfl
@[simp] theorem modKlb_queues (f : Klb → Klb) (s : State) : (modKlb f s).queues = s.queues := rfl
@[simp] theorem modKlb_eth (f : Klb → Klb) (s : State) : (modKlb f s).eth = s.eth := rfl
@[simp] theorem modKlb_parse (f : Klb → Klb) (s : State) : (modKlb f s).parse = s.parse := rfl
@[simp] theorem modKlb_cls (f : Klb → Klb) (s : State) : (modKlb f s).cls = s.cls := rfl
@[simp] theorem modKlb_tables (f : Klb → Klb) (s : State) : (modKlb f s).tables = s.tables := rfl
@[simp] theorem modKlb_hod (f : Klb → Klb) (s : State) : (modKlb f s).hod = s.hod := rfl
@[simp] theorem modKlb_sched (f : Klb → Klb) (s : State) : (modKlb f s).sched = s.sched := rfl
@[simp] theorem modKlb_net (f : Klb → Klb) (s : State) : (modKlb f s).net = s.net := rfl
@[simp] theorem modKlb_ctx (f : Klb → Klb) (s : State) : (modKlb f s).ctx = s.ctx := rfl
@[simp] theorem modKlb_nvme (f : Klb → Klb) (s : State) : (modKlb f s).nvme = s.nvme := rfl
@[simp] theorem modKlb_crypt (f : Klb → Klb) (s : State) : (modKlb f s).crypt = s.crypt := rfl
@[simp] theorem modKlb_cores (f : Klb → Klb) (s : State) : (modKlb f s).cores = s.cores := rfl
@[simp] theorem modKlb_dram (f : Klb → Klb) (s : State) : (modKlb f s).dram = s.dram := rfl
@[simp] theorem modKlb_sec (f : Klb → Klb) (s : State) : (modKlb f s).sec = s.sec := rfl
@[simp] theorem modKlb_klb (f : Klb → Klb) (s : State) : (modKlb f s).klb = f s.klb := rfl
@[simp] theorem modKlb_elec (f : Klb → Klb) (s : State) : (modKlb f s).elec = s.elec := rfl
@[simp] theorem modKlb_degr (f : Klb → Klb) (s : State) : (modKlb f s).degr = s.degr := rfl
@[simp] theorem modKlb_bist (f : Klb → Klb) (s : State) : (modKlb f s).bist = s.bist := rfl
@[simp] theorem modKlb_carve (f : Klb → Klb) (s : State) : (modKlb f s).carve = s.carve := rfl
@[simp] theorem modKlb_violations (f : Klb → Klb) (s : State) : (modKlb f s).violations = s.violations := rfl
@[simp] theorem modKlb_counters (f : Klb → Klb) (s : State) : (modKlb f s).counters = s.counters := rfl
@[simp] theorem modKlb_regs (f : Klb → Klb) (s : State) : (modKlb f s).regs = s.regs := rfl

/-! modElec -/
@[simp] theorem modElec_pending (f : Elec → Elec) (s : State) : (modElec f s).pending = s.pending := rfl
@[simp] theorem modElec_fenced (f : Elec → Elec) (s : State) : (modElec f s).fenced = s.fenced := rfl
@[simp] theorem modElec_out (f : Elec → Elec) (s : State) : (modElec f s).out = s.out := rfl
@[simp] theorem modElec_drawn (f : Elec → Elec) (s : State) : (modElec f s).drawn = s.drawn := rfl
@[simp] theorem modElec_now (f : Elec → Elec) (s : State) : (modElec f s).now = s.now := rfl
@[simp] theorem modElec_dtime (f : Elec → Elec) (s : State) : (modElec f s).dtime = s.dtime := rfl
@[simp] theorem modElec_nv (f : Elec → Elec) (s : State) : (modElec f s).nv = s.nv := rfl
@[simp] theorem modElec_clk (f : Elec → Elec) (s : State) : (modElec f s).clk = s.clk := rfl
@[simp] theorem modElec_glb (f : Elec → Elec) (s : State) : (modElec f s).glb = s.glb := rfl
@[simp] theorem modElec_epochs (f : Elec → Elec) (s : State) : (modElec f s).epochs = s.epochs := rfl
@[simp] theorem modElec_owner (f : Elec → Elec) (s : State) : (modElec f s).owner = s.owner := rfl
@[simp] theorem modElec_rings (f : Elec → Elec) (s : State) : (modElec f s).rings = s.rings := rfl
@[simp] theorem modElec_ops (f : Elec → Elec) (s : State) : (modElec f s).ops = s.ops := rfl
@[simp] theorem modElec_hosts (f : Elec → Elec) (s : State) : (modElec f s).hosts = s.hosts := rfl
@[simp] theorem modElec_fns (f : Elec → Elec) (s : State) : (modElec f s).fns = s.fns := rfl
@[simp] theorem modElec_queues (f : Elec → Elec) (s : State) : (modElec f s).queues = s.queues := rfl
@[simp] theorem modElec_eth (f : Elec → Elec) (s : State) : (modElec f s).eth = s.eth := rfl
@[simp] theorem modElec_parse (f : Elec → Elec) (s : State) : (modElec f s).parse = s.parse := rfl
@[simp] theorem modElec_cls (f : Elec → Elec) (s : State) : (modElec f s).cls = s.cls := rfl
@[simp] theorem modElec_tables (f : Elec → Elec) (s : State) : (modElec f s).tables = s.tables := rfl
@[simp] theorem modElec_hod (f : Elec → Elec) (s : State) : (modElec f s).hod = s.hod := rfl
@[simp] theorem modElec_sched (f : Elec → Elec) (s : State) : (modElec f s).sched = s.sched := rfl
@[simp] theorem modElec_net (f : Elec → Elec) (s : State) : (modElec f s).net = s.net := rfl
@[simp] theorem modElec_ctx (f : Elec → Elec) (s : State) : (modElec f s).ctx = s.ctx := rfl
@[simp] theorem modElec_nvme (f : Elec → Elec) (s : State) : (modElec f s).nvme = s.nvme := rfl
@[simp] theorem modElec_crypt (f : Elec → Elec) (s : State) : (modElec f s).crypt = s.crypt := rfl
@[simp] theorem modElec_cores (f : Elec → Elec) (s : State) : (modElec f s).cores = s.cores := rfl
@[simp] theorem modElec_dram (f : Elec → Elec) (s : State) : (modElec f s).dram = s.dram := rfl
@[simp] theorem modElec_sec (f : Elec → Elec) (s : State) : (modElec f s).sec = s.sec := rfl
@[simp] theorem modElec_klb (f : Elec → Elec) (s : State) : (modElec f s).klb = s.klb := rfl
@[simp] theorem modElec_elec (f : Elec → Elec) (s : State) : (modElec f s).elec = f s.elec := rfl
@[simp] theorem modElec_degr (f : Elec → Elec) (s : State) : (modElec f s).degr = s.degr := rfl
@[simp] theorem modElec_bist (f : Elec → Elec) (s : State) : (modElec f s).bist = s.bist := rfl
@[simp] theorem modElec_carve (f : Elec → Elec) (s : State) : (modElec f s).carve = s.carve := rfl
@[simp] theorem modElec_violations (f : Elec → Elec) (s : State) : (modElec f s).violations = s.violations := rfl
@[simp] theorem modElec_counters (f : Elec → Elec) (s : State) : (modElec f s).counters = s.counters := rfl
@[simp] theorem modElec_regs (f : Elec → Elec) (s : State) : (modElec f s).regs = s.regs := rfl

/-! modBist -/
@[simp] theorem modBist_pending (f : Bist → Bist) (s : State) : (modBist f s).pending = s.pending := rfl
@[simp] theorem modBist_fenced (f : Bist → Bist) (s : State) : (modBist f s).fenced = s.fenced := rfl
@[simp] theorem modBist_out (f : Bist → Bist) (s : State) : (modBist f s).out = s.out := rfl
@[simp] theorem modBist_drawn (f : Bist → Bist) (s : State) : (modBist f s).drawn = s.drawn := rfl
@[simp] theorem modBist_now (f : Bist → Bist) (s : State) : (modBist f s).now = s.now := rfl
@[simp] theorem modBist_dtime (f : Bist → Bist) (s : State) : (modBist f s).dtime = s.dtime := rfl
@[simp] theorem modBist_nv (f : Bist → Bist) (s : State) : (modBist f s).nv = s.nv := rfl
@[simp] theorem modBist_clk (f : Bist → Bist) (s : State) : (modBist f s).clk = s.clk := rfl
@[simp] theorem modBist_glb (f : Bist → Bist) (s : State) : (modBist f s).glb = s.glb := rfl
@[simp] theorem modBist_epochs (f : Bist → Bist) (s : State) : (modBist f s).epochs = s.epochs := rfl
@[simp] theorem modBist_owner (f : Bist → Bist) (s : State) : (modBist f s).owner = s.owner := rfl
@[simp] theorem modBist_rings (f : Bist → Bist) (s : State) : (modBist f s).rings = s.rings := rfl
@[simp] theorem modBist_ops (f : Bist → Bist) (s : State) : (modBist f s).ops = s.ops := rfl
@[simp] theorem modBist_hosts (f : Bist → Bist) (s : State) : (modBist f s).hosts = s.hosts := rfl
@[simp] theorem modBist_fns (f : Bist → Bist) (s : State) : (modBist f s).fns = s.fns := rfl
@[simp] theorem modBist_queues (f : Bist → Bist) (s : State) : (modBist f s).queues = s.queues := rfl
@[simp] theorem modBist_eth (f : Bist → Bist) (s : State) : (modBist f s).eth = s.eth := rfl
@[simp] theorem modBist_parse (f : Bist → Bist) (s : State) : (modBist f s).parse = s.parse := rfl
@[simp] theorem modBist_cls (f : Bist → Bist) (s : State) : (modBist f s).cls = s.cls := rfl
@[simp] theorem modBist_tables (f : Bist → Bist) (s : State) : (modBist f s).tables = s.tables := rfl
@[simp] theorem modBist_hod (f : Bist → Bist) (s : State) : (modBist f s).hod = s.hod := rfl
@[simp] theorem modBist_sched (f : Bist → Bist) (s : State) : (modBist f s).sched = s.sched := rfl
@[simp] theorem modBist_net (f : Bist → Bist) (s : State) : (modBist f s).net = s.net := rfl
@[simp] theorem modBist_ctx (f : Bist → Bist) (s : State) : (modBist f s).ctx = s.ctx := rfl
@[simp] theorem modBist_nvme (f : Bist → Bist) (s : State) : (modBist f s).nvme = s.nvme := rfl
@[simp] theorem modBist_crypt (f : Bist → Bist) (s : State) : (modBist f s).crypt = s.crypt := rfl
@[simp] theorem modBist_cores (f : Bist → Bist) (s : State) : (modBist f s).cores = s.cores := rfl
@[simp] theorem modBist_dram (f : Bist → Bist) (s : State) : (modBist f s).dram = s.dram := rfl
@[simp] theorem modBist_sec (f : Bist → Bist) (s : State) : (modBist f s).sec = s.sec := rfl
@[simp] theorem modBist_klb (f : Bist → Bist) (s : State) : (modBist f s).klb = s.klb := rfl
@[simp] theorem modBist_elec (f : Bist → Bist) (s : State) : (modBist f s).elec = s.elec := rfl
@[simp] theorem modBist_degr (f : Bist → Bist) (s : State) : (modBist f s).degr = s.degr := rfl
@[simp] theorem modBist_bist (f : Bist → Bist) (s : State) : (modBist f s).bist = f s.bist := rfl
@[simp] theorem modBist_carve (f : Bist → Bist) (s : State) : (modBist f s).carve = s.carve := rfl
@[simp] theorem modBist_violations (f : Bist → Bist) (s : State) : (modBist f s).violations = s.violations := rfl
@[simp] theorem modBist_counters (f : Bist → Bist) (s : State) : (modBist f s).counters = s.counters := rfl
@[simp] theorem modBist_regs (f : Bist → Bist) (s : State) : (modBist f s).regs = s.regs := rfl

/-! A command packet taken, and its reply -/
@[simp] theorem onceTaken_pending (p : Packet) (s : State) : (onceTaken p s).pending = s.pending := by unfold onceTaken; split <;> rfl
@[simp] theorem onceTaken_fenced (p : Packet) (s : State) : (onceTaken p s).fenced = s.fenced := by unfold onceTaken; split <;> rfl
@[simp] theorem onceTaken_out (p : Packet) (s : State) : (onceTaken p s).out = s.out := by unfold onceTaken; split <;> rfl
@[simp] theorem onceTaken_drawn (p : Packet) (s : State) : (onceTaken p s).drawn = s.drawn := by unfold onceTaken; split <;> rfl
@[simp] theorem onceTaken_now (p : Packet) (s : State) : (onceTaken p s).now = s.now := by unfold onceTaken; split <;> rfl
@[simp] theorem onceTaken_dtime (p : Packet) (s : State) : (onceTaken p s).dtime = s.dtime := by unfold onceTaken; split <;> rfl
@[simp] theorem onceTaken_nv (p : Packet) (s : State) : (onceTaken p s).nv = s.nv := by unfold onceTaken; split <;> rfl
@[simp] theorem onceTaken_clk (p : Packet) (s : State) : (onceTaken p s).clk = s.clk := by unfold onceTaken; split <;> rfl
@[simp] theorem onceTaken_glb (p : Packet) (s : State) : (onceTaken p s).glb = s.glb := by unfold onceTaken; split <;> rfl
@[simp] theorem onceTaken_epochs (p : Packet) (s : State) : (onceTaken p s).epochs = s.epochs := by unfold onceTaken; split <;> rfl
@[simp] theorem onceTaken_ops (p : Packet) (s : State) : (onceTaken p s).ops = s.ops := by unfold onceTaken; split <;> rfl
@[simp] theorem onceTaken_hosts (p : Packet) (s : State) : (onceTaken p s).hosts = s.hosts := by unfold onceTaken; split <;> rfl
@[simp] theorem onceTaken_fns (p : Packet) (s : State) : (onceTaken p s).fns = s.fns := by unfold onceTaken; split <;> rfl
@[simp] theorem onceTaken_queues (p : Packet) (s : State) : (onceTaken p s).queues = s.queues := by unfold onceTaken; split <;> rfl
@[simp] theorem onceTaken_eth (p : Packet) (s : State) : (onceTaken p s).eth = s.eth := by unfold onceTaken; split <;> rfl
@[simp] theorem onceTaken_parse (p : Packet) (s : State) : (onceTaken p s).parse = s.parse := by unfold onceTaken; split <;> rfl
@[simp] theorem onceTaken_cls (p : Packet) (s : State) : (onceTaken p s).cls = s.cls := by unfold onceTaken; split <;> rfl
@[simp] theorem onceTaken_tables (p : Packet) (s : State) : (onceTaken p s).tables = s.tables := by unfold onceTaken; split <;> rfl
@[simp] theorem onceTaken_hod (p : Packet) (s : State) : (onceTaken p s).hod = s.hod := by unfold onceTaken; split <;> rfl
@[simp] theorem onceTaken_sched (p : Packet) (s : State) : (onceTaken p s).sched = s.sched := by unfold onceTaken; split <;> rfl
@[simp] theorem onceTaken_net (p : Packet) (s : State) : (onceTaken p s).net = s.net := by unfold onceTaken; split <;> rfl
@[simp] theorem onceTaken_ctx (p : Packet) (s : State) : (onceTaken p s).ctx = s.ctx := by unfold onceTaken; split <;> rfl
@[simp] theorem onceTaken_nvme (p : Packet) (s : State) : (onceTaken p s).nvme = s.nvme := by unfold onceTaken; split <;> rfl
@[simp] theorem onceTaken_crypt (p : Packet) (s : State) : (onceTaken p s).crypt = s.crypt := by unfold onceTaken; split <;> rfl
@[simp] theorem onceTaken_cores (p : Packet) (s : State) : (onceTaken p s).cores = s.cores := by unfold onceTaken; split <;> rfl
@[simp] theorem onceTaken_dram (p : Packet) (s : State) : (onceTaken p s).dram = s.dram := by unfold onceTaken; split <;> rfl
@[simp] theorem onceTaken_sec (p : Packet) (s : State) : (onceTaken p s).sec = s.sec := by unfold onceTaken; split <;> rfl
@[simp] theorem onceTaken_klb (p : Packet) (s : State) : (onceTaken p s).klb = s.klb := by unfold onceTaken; split <;> rfl
@[simp] theorem onceTaken_elec (p : Packet) (s : State) : (onceTaken p s).elec = s.elec := by unfold onceTaken; split <;> rfl
@[simp] theorem onceTaken_degr (p : Packet) (s : State) : (onceTaken p s).degr = s.degr := by unfold onceTaken; split <;> rfl
@[simp] theorem onceTaken_bist (p : Packet) (s : State) : (onceTaken p s).bist = s.bist := by unfold onceTaken; split <;> rfl
@[simp] theorem onceTaken_carve (p : Packet) (s : State) : (onceTaken p s).carve = s.carve := by unfold onceTaken; split <;> rfl
@[simp] theorem onceTaken_violations (p : Packet) (s : State) : (onceTaken p s).violations = s.violations := by unfold onceTaken; split <;> rfl
@[simp] theorem onceTaken_counters (p : Packet) (s : State) : (onceTaken p s).counters = s.counters := by unfold onceTaken; split <;> rfl
@[simp] theorem onceTaken_regs (p : Packet) (s : State) : (onceTaken p s).regs = s.regs := by unfold onceTaken; split <;> rfl
theorem writeReply_frame (p : Packet) (st : Status) (b : Bool) (r l : List Nat) (m : Bool) (s : State) : changesOnly [.out, .rings, .hosts, .fns] s (writeReply p st b r l m s) :=
  (writeReply_only p st b r l m s (by decide) (by decide) (by decide) (by decide)).mpr (changesOnly_refl _ s)
@[simp] theorem writeReply_pending (p : Packet) (st : Status) (b : Bool) (r l : List Nat) (m : Bool) (s : State) : (writeReply p st b r l m s).pending = s.pending := changesOnly_pending (writeReply_frame p st b r l m s) (by decide)
@[simp] theorem writeReply_fenced (p : Packet) (st : Status) (b : Bool) (r l : List Nat) (m : Bool) (s : State) : (writeReply p st b r l m s).fenced = s.fenced := changesOnly_fenced (writeReply_frame p st b r l m s) (by decide)
@[simp] theorem writeReply_drawn (p : Packet) (st : Status) (b : Bool) (r l : List Nat) (m : Bool) (s : State) : (writeReply p st b r l m s).drawn = s.drawn := changesOnly_drawn (writeReply_frame p st b r l m s) (by decide)
@[simp] theorem writeReply_now (p : Packet) (st : Status) (b : Bool) (r l : List Nat) (m : Bool) (s : State) : (writeReply p st b r l m s).now = s.now := changesOnly_now (writeReply_frame p st b r l m s) (by decide)
@[simp] theorem writeReply_dtime (p : Packet) (st : Status) (b : Bool) (r l : List Nat) (m : Bool) (s : State) : (writeReply p st b r l m s).dtime = s.dtime := changesOnly_dtime (writeReply_frame p st b r l m s) (by decide)
@[simp] theorem writeReply_nv (p : Packet) (st : Status) (b : Bool) (r l : List Nat) (m : Bool) (s : State) : (writeReply p st b r l m s).nv = s.nv := changesOnly_nv (writeReply_frame p st b r l m s) (by decide)
@[simp] theorem writeReply_clk (p : Packet) (st : Status) (b : Bool) (r l : List Nat) (m : Bool) (s : State) : (writeReply p st b r l m s).clk = s.clk := changesOnly_clk (writeReply_frame p st b r l m s) (by decide)
@[simp] theorem writeReply_glb (p : Packet) (st : Status) (b : Bool) (r l : List Nat) (m : Bool) (s : State) : (writeReply p st b r l m s).glb = s.glb := changesOnly_glb (writeReply_frame p st b r l m s) (by decide)
@[simp] theorem writeReply_epochs (p : Packet) (st : Status) (b : Bool) (r l : List Nat) (m : Bool) (s : State) : (writeReply p st b r l m s).epochs = s.epochs := changesOnly_epochs (writeReply_frame p st b r l m s) (by decide)
@[simp] theorem writeReply_owner (p : Packet) (st : Status) (b : Bool) (r l : List Nat) (m : Bool) (s : State) : (writeReply p st b r l m s).owner = s.owner := changesOnly_owner (writeReply_frame p st b r l m s) (by decide)
@[simp] theorem writeReply_ops (p : Packet) (st : Status) (b : Bool) (r l : List Nat) (m : Bool) (s : State) : (writeReply p st b r l m s).ops = s.ops := changesOnly_ops (writeReply_frame p st b r l m s) (by decide)
@[simp] theorem writeReply_queues (p : Packet) (st : Status) (b : Bool) (r l : List Nat) (m : Bool) (s : State) : (writeReply p st b r l m s).queues = s.queues := changesOnly_queues (writeReply_frame p st b r l m s) (by decide)
@[simp] theorem writeReply_eth (p : Packet) (st : Status) (b : Bool) (r l : List Nat) (m : Bool) (s : State) : (writeReply p st b r l m s).eth = s.eth := changesOnly_eth (writeReply_frame p st b r l m s) (by decide)
@[simp] theorem writeReply_parse (p : Packet) (st : Status) (b : Bool) (r l : List Nat) (m : Bool) (s : State) : (writeReply p st b r l m s).parse = s.parse := changesOnly_parse (writeReply_frame p st b r l m s) (by decide)
@[simp] theorem writeReply_cls (p : Packet) (st : Status) (b : Bool) (r l : List Nat) (m : Bool) (s : State) : (writeReply p st b r l m s).cls = s.cls := changesOnly_cls (writeReply_frame p st b r l m s) (by decide)
@[simp] theorem writeReply_tables (p : Packet) (st : Status) (b : Bool) (r l : List Nat) (m : Bool) (s : State) : (writeReply p st b r l m s).tables = s.tables := changesOnly_tables (writeReply_frame p st b r l m s) (by decide)
@[simp] theorem writeReply_hod (p : Packet) (st : Status) (b : Bool) (r l : List Nat) (m : Bool) (s : State) : (writeReply p st b r l m s).hod = s.hod := changesOnly_hod (writeReply_frame p st b r l m s) (by decide)
@[simp] theorem writeReply_sched (p : Packet) (st : Status) (b : Bool) (r l : List Nat) (m : Bool) (s : State) : (writeReply p st b r l m s).sched = s.sched := changesOnly_sched (writeReply_frame p st b r l m s) (by decide)
@[simp] theorem writeReply_net (p : Packet) (st : Status) (b : Bool) (r l : List Nat) (m : Bool) (s : State) : (writeReply p st b r l m s).net = s.net := changesOnly_net (writeReply_frame p st b r l m s) (by decide)
@[simp] theorem writeReply_ctx (p : Packet) (st : Status) (b : Bool) (r l : List Nat) (m : Bool) (s : State) : (writeReply p st b r l m s).ctx = s.ctx := changesOnly_ctx (writeReply_frame p st b r l m s) (by decide)
@[simp] theorem writeReply_nvme (p : Packet) (st : Status) (b : Bool) (r l : List Nat) (m : Bool) (s : State) : (writeReply p st b r l m s).nvme = s.nvme := changesOnly_nvme (writeReply_frame p st b r l m s) (by decide)
@[simp] theorem writeReply_crypt (p : Packet) (st : Status) (b : Bool) (r l : List Nat) (m : Bool) (s : State) : (writeReply p st b r l m s).crypt = s.crypt := changesOnly_crypt (writeReply_frame p st b r l m s) (by decide)
@[simp] theorem writeReply_cores (p : Packet) (st : Status) (b : Bool) (r l : List Nat) (m : Bool) (s : State) : (writeReply p st b r l m s).cores = s.cores := changesOnly_cores (writeReply_frame p st b r l m s) (by decide)
@[simp] theorem writeReply_dram (p : Packet) (st : Status) (b : Bool) (r l : List Nat) (m : Bool) (s : State) : (writeReply p st b r l m s).dram = s.dram := changesOnly_dram (writeReply_frame p st b r l m s) (by decide)
@[simp] theorem writeReply_sec (p : Packet) (st : Status) (b : Bool) (r l : List Nat) (m : Bool) (s : State) : (writeReply p st b r l m s).sec = s.sec := changesOnly_sec (writeReply_frame p st b r l m s) (by decide)
@[simp] theorem writeReply_klb (p : Packet) (st : Status) (b : Bool) (r l : List Nat) (m : Bool) (s : State) : (writeReply p st b r l m s).klb = s.klb := changesOnly_klb (writeReply_frame p st b r l m s) (by decide)
@[simp] theorem writeReply_elec (p : Packet) (st : Status) (b : Bool) (r l : List Nat) (m : Bool) (s : State) : (writeReply p st b r l m s).elec = s.elec := changesOnly_elec (writeReply_frame p st b r l m s) (by decide)
@[simp] theorem writeReply_degr (p : Packet) (st : Status) (b : Bool) (r l : List Nat) (m : Bool) (s : State) : (writeReply p st b r l m s).degr = s.degr := changesOnly_degr (writeReply_frame p st b r l m s) (by decide)
@[simp] theorem writeReply_bist (p : Packet) (st : Status) (b : Bool) (r l : List Nat) (m : Bool) (s : State) : (writeReply p st b r l m s).bist = s.bist := changesOnly_bist (writeReply_frame p st b r l m s) (by decide)
@[simp] theorem writeReply_carve (p : Packet) (st : Status) (b : Bool) (r l : List Nat) (m : Bool) (s : State) : (writeReply p st b r l m s).carve = s.carve := changesOnly_carve (writeReply_frame p st b r l m s) (by decide)
@[simp] theorem writeReply_violations (p : Packet) (st : Status) (b : Bool) (r l : List Nat) (m : Bool) (s : State) : (writeReply p st b r l m s).violations = s.violations := changesOnly_violations (writeReply_frame p st b r l m s) (by decide)
@[simp] theorem writeReply_counters (p : Packet) (st : Status) (b : Bool) (r l : List Nat) (m : Bool) (s : State) : (writeReply p st b r l m s).counters = s.counters := changesOnly_counters (writeReply_frame p st b r l m s) (by decide)
@[simp] theorem writeReply_regs (p : Packet) (st : Status) (b : Bool) (r l : List Nat) (m : Bool) (s : State) : (writeReply p st b r l m s).regs = s.regs := changesOnly_regs (writeReply_frame p st b r l m s) (by decide)

end Sys2Proof.Machine
end

