-- ==== Sys2Proof/Laws/Packet.lean ====
section
/-! SUPPORT. Packet.lean: what becomes of a command packet: taken and served, refused, or left; one lemma for each case. -/

set_option linter.all false

namespace Sys2Proof.Machine
open Sys2Proof

/-- A packet that is taken at once is served in the state it has been taken in. -/
theorem runCmd_taken {d : CmdDef} {i : Instr} {p : Packet} {s : State} (h : takes p s = true) : runCmd d i p s = serve d p (onceTaken p s) := by
  unfold takes chanReady at h
  unfold runCmd onceTaken
  split at h <;> simp_all

theorem serve_none {d : CmdDef} {p : Packet} {s : State} (h : refusal d p s = none) : serve d p s = answer p (d.act (namedBy p) p s) s := by
  simp only [serve, h, namedBy]

theorem serve_some {d : CmdDef} {p : Packet} {s : State} {st : Status} (h : refusal d p s = some st) : serve d p s = replied p st [] s := by
  simp only [serve, h, refuse, replied]

/-- A packet that no refusal meets is carried out and answered. -/
theorem runCmd_accepted {d : CmdDef} {i : Instr} {p : Packet} {s : State} (h : accepts d p s = true) :
    runCmd d i p s = answer p (d.act (namedBy p) p (onceTaken p s)) (onceTaken p s) := by
  simp only [accepts, Bool.and_eq_true, Option.isNone_iff_eq_none] at h
  rw [runCmd_taken h.1, serve_none h.2]

/-- The answer without a long result. -/
theorem answer_short {p : Packet} {a : Answer} {s : State} (h : a.long = none) : answer p a s = a.after (writeReply p a.status a.handle a.result [] false a.state) := by
  simp only [answer, h]

/-- A plain reply. -/
theorem answer_reply (p : Packet) (ws : List Nat) (t s : State) : answer p (reply ws t) s = replied p .ok ws t := rfl

/-- The answer that starts a long operation. -/
theorem answer_startOp (opcode : Nat) (p : Packet) (kind : OpKind) (total target : Nat) (t s : State) :
    answer p (startOp opcode p kind total target t) s = begun opcode p kind total target t := rfl

/-- A long result that fits. -/
theorem answer_long {p : Packet} {ws : List Nat} {t s : State} (h : longFits p ws.length = true) : answer p (replyLong ws t) s = repliedLong p ws t := by
  unfold longFits at h
  unfold answer replyLong repliedLong
  by_cases k : p.chan = .owner
  · simp only [k, if_true, decide_eq_true_eq] at h
    simp only [k, if_true, if_neg (by omega : ¬ 4064 < 4 * ws.length), ne_eq, not_true, false_and, if_false]; rfl
  · simp only [k, if_false, Bool.and_eq_true, decide_eq_true_eq] at h
    simp only [k, if_false, if_neg (by omega : ¬ p.resultLen.toNat < 4 * ws.length), h.2, Bool.not_true, Bool.false_eq_true, and_false]; rfl

/-- Where no refusal applies, no condition of the list holds. -/
theorem firstRefusal_none {l : List (Bool × Status)} (h : firstRefusal l = none) : ∀ e ∈ l, e.1 = false := by
  induction l with
  | nil => intro e he; cases he
  | cons a r ih =>
    obtain ⟨b, st⟩ := a
    cases b with
    | false =>
      have hr : firstRefusal r = none := by simpa only [firstRefusal] using h
      intro e he
      rcases List.mem_cons.mp he with rfl | he
      · rfl
      · exact ih hr e he
    | true =>
      exfalso
      cases hf : firstRefusal r with
      | none => simp only [firstRefusal, hf, reduceCtorEq] at h
      | some x =>
        simp only [firstRefusal, hf] at h
        split at h <;> cases h

/-- Where no condition of the list holds, no refusal applies. -/
theorem firstRefusal_eq_none {l : List (Bool × Status)} (h : ∀ e ∈ l, e.1 = false) : firstRefusal l = none := by
  induction l with
  | nil => rfl
  | cons a r ih =>
    obtain ⟨b, st⟩ := a
    have hb : b = false := h (b, st) List.mem_cons_self
    subst hb
    exact ih fun e he => h e (List.mem_cons_of_mem _ he)

/-- A packet that is taken and meets none of the checks is accepted. -/
theorem accepts_of_checks {d : CmdDef} {p : Packet} {s : State} (h : takes p s = true)
    (hc : ∀ e ∈ commonChecks d (resolve p) p (onceTaken p s), e.1 = false) (ho : ∀ e ∈ d.checks (namedBy p) p (onceTaken p s), e.1 = false) :
    accepts d p s = true := by
  simp only [accepts, h, Bool.true_and, Option.isNone_iff_eq_none]
  refine firstRefusal_eq_none fun e he => ?_
  rcases List.mem_append.mp he with k | k
  · exact hc e k
  · exact ho e k

/-- An accepted packet met none of the checks, common or its own. -/
theorem accepts_checks {d : CmdDef} {p : Packet} {s : State} (h : accepts d p s = true) :
    ∀ e ∈ commonChecks d (resolve p) p (onceTaken p s) ++ d.checks (namedBy p) p (onceTaken p s), e.1 = false := by
  simp only [accepts, Bool.and_eq_true, Option.isNone_iff_eq_none] at h
  exact firstRefusal_none h.2

/-- An accepted packet met none of its own checks. -/
theorem accepts_own {d : CmdDef} {p : Packet} {s : State} (h : accepts d p s = true) :
    ∀ e ∈ d.checks (namedBy p) p (onceTaken p s), e.1 = false := fun e he => accepts_checks h e (List.mem_append_right _ he)

/-- The mode did not refuse an accepted packet. -/
theorem accepts_mode {d : CmdDef} {p : Packet} {s : State} (h : accepts d p s = true) : modeWrong d.gate p.chan (onceTaken p s) = false :=
  accepts_checks h (modeWrong d.gate p.chan (onceTaken p s), .modeWrong) (by simp [commonChecks])

/-- An opcode that neither host nor tenant channels may use was accepted on the owner channel. -/
theorem accepts_owner {d : CmdDef} {p : Packet} {s : State} (h : accepts d p s = true) (hh : d.host = false) (ht : d.tenant = false) : p.chan = .owner := by
  have k := accepts_checks h (!d.marked p.chan || scopeForbidden p, .notPermitted) (by simp [commonChecks])
  cases hc : p.chan with
  | owner => rfl
  | ring c => obtain ⟨l, v⟩ := c; cases v <;> simp_all [CmdDef.marked]

/-- An opcode that is not bindable was accepted without EPOCH_BOUND. -/
theorem accepts_unbound {d : CmdDef} {p : Packet} {s : State} (h : accepts d p s = true) (hb : d.bindable = false) : p.bound = false := by
  have k := accepts_checks h (p.bound && (!d.bindable || badEpoch (onceTaken p s) p.epochBind.toNat), .badParam) (by simp [commonChecks])
  simpa [hb] using k

/-- The object an accepted packet names is one the opcode acts on. -/
theorem accepts_objs {d : CmdDef} {p : Packet} {s : State} (h : accepts d p s = true) : d.objs (namedBy p) = true := by
  have k := accepts_checks h ((match resolve p with
      | none => true
      | some x => !d.objs x || (match x with
          | .func h f => f == .pf2 || (!d.absentOk && !present (onceTaken p s) h f)
          | _ => false)), .badParam)
    (by
      apply List.mem_append_left
      unfold commonChecks
      repeat (first | exact List.mem_cons_self | apply List.mem_cons_of_mem))
  unfold namedBy
  cases hr : resolve p with
  | none => rw [hr] at k; simp at k
  | some x => rw [hr] at k; simp only [Bool.or_eq_false_iff, Bool.not_eq_false'] at k; exact k.1

/-- An accepted packet of an opcode that acts on hosts names one. -/
theorem accepts_host {d : CmdDef} {p : Packet} {s : State} (h : accepts d p s = true) (hd : d.objs = Obj.isHost) : ∃ a, namedBy p = .host a := by
  have k := accepts_objs h
  rw [hd] at k
  cases hn : namedBy p <;> simp [hn, Obj.isHost] at k ⊢

/-- An accepted packet of an opcode that acts on functions names one. -/
theorem accepts_func {d : CmdDef} {p : Packet} {s : State} (h : accepts d p s = true) (hd : d.objs = Obj.isFunc) : ∃ a f, namedBy p = .func a f := by
  have k := accepts_objs h
  rw [hd] at k
  cases hn : namedBy p <;> simp [hn, Obj.isFunc] at k ⊢

end Sys2Proof.Machine
end

