-- ==== Sys2Proof/WellFormed.lean ====
section
/-! DEFINITION. WellFormed.lean: which commands a sender can send: operands in range, and lists as long as their fields say. Nothing in Machine rests on it. -/

namespace Sys2Proof

/-- One bit of a number. -/
def bitAtWf (n bit : Nat) : Bool := n / 2 ^ bit % 2 == 1
/-- Words of parameters that PARAM_LEN announces, in 8-byte units (R65). -/
def Packet.paramUnits (p : Packet) : Nat := p.paramLen.toNat
/-- A packet read whole carries its parameters and stays within 4,032 bytes (R65); only an owner packet came on a VDM path (R57). -/
def Packet.wf (p : Packet) : Bool :=
  (p.read != .ok || (p.params.length == 2 * p.paramUnits && p.paramUnits ≤ 504)) && (p.chan == .owner || p.vdm.isNone)
/-- A host link trains at rate code 1 to 7 and to 1, 4, 8 or 16 lanes (R87). -/
def LinkTraining.wf (t : LinkTraining) : Bool := 1 ≤ t.speed && t.speed ≤ 7 && [1, 4, 8, 16].contains t.width
/-- A drive link trains to 1, 2 or 4 lanes (R88). -/
def LinkTraining.wfDrive (t : LinkTraining) : Bool := 1 ≤ t.speed && t.speed ≤ 7 && [1, 2, 4].contains t.width
/-- Capacities are those of an RDIMM (R401). -/
def BootFindings.wf (b : BootFindings) : Bool := b.dimms.toList.all fun d => d.all fun x => 1 ≤ x.capacity
/-- A PF with an SR-IOV capability (R91). -/
def Fn.isPf : Fn → Bool
  | .pf0 => true
  | .pf1 => true
  | _ => false
/-- A function that may carry network queues (R98). -/
def Fn.carriesNet : Fn → Bool
  | .pf0 => true
  | .vf _ => true
  | _ => false
/-- A function that may be an NVMe controller (R298). -/
def Fn.carriesNvme : Fn → Bool
  | .pf1 => true
  | .vf _ => true
  | _ => false
/-- A work request read whole is eight words (R249). -/
def WorkRequest.wf (w : WorkRequest) : Bool := !w.readOk || w.words.length == 8
/-- A buffer descriptor read whole is four words (R99). -/
def RecvBuffer.wf (b : RecvBuffer) : Bool := !b.readOk || b.words.length == 4
/-- A memory write carries its bytes (R94). -/
def BarReq.wf (r : BarReq) : Bool :=
  1 ≤ r.length && (!r.write || r.data.length == r.length) && r.wrs.all WorkRequest.wf && r.bufs.all RecvBuffer.wf
/-- A submission entry is sixteen words (R309). -/
def Sqe.wf (e : Sqe) : Bool := !e.fetchOk || e.words.length == 16
/-- Identify's strings have their lengths (R322). -/
def DriveIdentity.wf (i : DriveIdentity) : Bool :=
  i.serial.length == 20 && i.model.length == 40 && i.firmware.length == 8 && i.namespaces.all fun n => n.nguid.length == 16
/-- The alarm codes of R355. -/
def alarmCode (c : Byte) : Bool := 1 ≤ c.toNat && c.toNat ≤ 9
/-- A DRAM access is 64 bytes at a multiple of 64 (R410). -/
def DramReq.wf (r : DramReq) : Bool := r.addr.toNat % 64 == 0 && r.write.all fun b => b.length == 64
/-- A request code that R444 does not list. -/
def unlistedRequest (c : Byte) : Bool := !([0x84, 0xE1, 0xE3, 0x81, 0x82, 0x83, 0xE0].contains c.toNat)

/-- A command of the table with operands the spec gives it: each form that no sender can produce is refused here. -/
def Instr.wf (i : Instr) : Bool :=
  match i with
  | .powerOn => true
  | .devRstNAssert _ => true
  | .devRstNRelease _ => true
  | .rootPllLock => true
  | .coreRefLost => true
  | .coreRefReturned => true
  | .holdoverExpiry => true
  | .ethRefLost => true
  | .ethRefReturned => true
  | .hostRefLost _ => true
  | .hostRefReturned _ => true
  | .romStage => true
  | .loaderStage found => found.wf
  | .mgmtFwStage => true
  | .bootDone => true
  | .epochBoundary => true
  | .armCutoff => true
  | .graceEnd _ => true
  | .reloadComplete _ => true
  | .glbRecoatArmWrite _ => true
  | .stagedRegisterWrite _ _ => true
  | .glbEpochLenWrite _ => true
  | .lowWordRead _ => true
  | .readClearRegisterRead _ => true
  | .registerWrite _ _ => true
  | .unitFailureInService kind _ => 1 ≤ kind.toNat && kind.toNat ≤ 0x15
  | .drainComplete => true
  | .deviceInfo p => p.wf
  | .modeGet p => p.wf
  | .quiesce p => p.wf
  | .resume p => p.wf
  | .park p => p.wf
  | .maintain p => p.wf
  | .deviceReset p => p.wf
  | .maintOnNextBoot p => p.wf
  | .degradationRead p => p.wf
  | .ownerPathSet p => p.wf
  | .epochGet p => p.wf
  | .epochSetLength p => p.wf
  | .recoatArm p => p.wf
  | .recoatDisarm p => p.wf
  | .undercoatReset p => p.wf
  | .epochWait p => p.wf
  | .opQuery p => p.wf
  | .opCancel p => p.wf
  | .longOpStep _ _ => true
  | .quotaSet p => p.wf
  | .quotaGet p => p.wf
  | .vfQuotaSet p => p.wf
  | .hostDefaultsSet p => p.wf
  | .dramCarveSet p => p.wf
  | .resourceUsage p => p.wf
  | .hostVfLimit p => p.wf
  | .parseNodeWrite p => p.wf
  | .parseNodeRead p => p.wf
  | .parseMalformedSet p => p.wf
  | .classRuleWrite p => p.wf
  | .classRuleRead p => p.wf
  | .classProfileSet p => p.wf
  | .classActionWrite p => p.wf
  | .emInsert p => p.wf
  | .emUpdate p => p.wf
  | .emDelete p => p.wf
  | .emLookup p => p.wf
  | .emRehash p => p.wf
  | .lpmAdd p => p.wf
  | .lpmDelete p => p.wf
  | .lpmLookup p => p.wf
  | .lpmLeafPush p => p.wf
  | .tableStats p => p.wf
  | .schedNodeSet p => p.wf
  | .schedNodeGet p => p.wf
  | .hostShareSet p => p.wf
  | .policerSet p => p.wf
  | .classMapSet p => p.wf
  | .spreadSet p => p.wf
  | .indirectionSet p => p.wf
  | .spreadLoadRead p => p.wf
  | .queueCreate p => p.wf
  | .queueDestroy p => p.wf
  | .queueQuery p => p.wf
  | .connCreate p => p.wf
  | .connModify p => p.wf
  | .connDestroy p => p.wf
  | .connQuery p => p.wf
  | .ctxPin p => p.wf
  | .ctxUnpin p => p.wf
  | .ctxMigrate p => p.wf
  | .hostBackingSet p => p.wf
  | .pathWrite p => p.wf
  | .pathRead p => p.wf
  | .xportConfig p => p.wf
  | .nsCreate p => p.wf
  | .nsBackingSet p => p.wf
  | .nsAttach p => p.wf
  | .nsDetach p => p.wf
  | .nsDelete p => p.wf
  | .driveInfo p => p.wf
  | .driveFormat p => p.wf
  | .cacheFlush p => p.wf
  | .sanitize p => p.wf
  | .remoteTargetSet p => p.wf
  | .keyAllocate p => p.wf
  | .keyImport p => p.wf
  | .keyDestroy p => p.wf
  | .keyQuery p => p.wf
  | .importKeySet p => p.wf
  | .keyTierSet p => p.wf
  | .keystoreZeroise p => p.wf
  | .programLoad p => p.wf
  | .programStart p => p.wf
  | .programStop p => p.wf
  | .channelGrant p => p.wf
  | .coreStatus p => p.wf
  | .watchdogSet p => p.wf
  | .selftestRun p => p.wf
  | .repairRead p => p.wf
  | .fuseProgram p => p.wf
  | .parkPlanSet p => p.wf
  | .imageStage p => p.wf
  | .imageInstall p => p.wf
  | .imageInfo p => p.wf
  | .commitVersion p => p.wf
  | .revokeKey p => p.wf
  | .ownerKeyProvision p => p.wf
  | .measurementRead p => p.wf
  | .counterRead p => p.wf
  | .counterSnapshot p => p.wf
  | .eventMaskSet p => p.wf
  | .violationRead p => p.wf
  | .unassignedOpcode _ p => p.wf
  | .oversizeCommand _ p => p.wf
  | .hlinkCmdEnableSet _ => true
  | .hlinkCmdEnableClear _ => true
  | .hlinkCmdEventEnableWrite _ _ => true
  | .hlinkCmdSqTail _ _ => true
  | .hlinkCmdRqHead _ _ => true
  | .hlinkCmdEqHead _ _ => true
  | .ownerEventSend _ => true
  | .mctpSetEndpointId _ _ _ => true
  | .mctpGetEndpointId _ => true
  | .mctpGetVersionSupport _ _ => true
  | .mctpGetMessageTypeSupport _ => true
  | .mctpGetVdmSupport _ _ => true
  | .mctpMessageDiscarded _ _ _ => true
  | .spdmGetVersion _ _ => true
  | .spdmGetCapabilities _ _ => true
  | .spdmNegotiateAlgorithms _ _ => true
  | .spdmGetDigests _ _ => true
  | .spdmGetCertificate _ _ => true
  | .spdmChallenge _ _ => true
  | .spdmGetMeasurements _ _ => true
  | .spdmUnsupportedRequest _ q => unlistedRequest q.code
  | .doeDiscovery _ _ => true
  | .hostAttach _ t => t.wf
  | .hostDetach _ _ => true
  | .hostUnitDefaultsLoad _ => true
  | .linkRecoveryEntry _ => true
  | .linkWidthChange _ t => t.wf
  | .hostLaneFaultInService _ _ => true
  | .configRequest _ r => r.offset.toNat % 4 == 0
  | .initiateFlr _ _ => true
  | .busMasterEnableClear _ _ => true
  | .busMasterEnableSet _ _ => true
  | .vfEnableClear _ f => f.isPf
  | .vfEnableSet _ f => f.isPf
  | .d3hotToD0 _ _ => true
  | .msixUnmask _ _ _ => true
  | .configWrite _ _ offset _ _ => offset.toNat % 4 == 0
  | .hlinkIntxStatusClear _ _ => true
  | .barMemoryRequest _ r => r.wf
  | .ioOrAtomicRequest _ _ _ => true
  | .completionReceived _ _ _ _ => true
  | .completionTimeout _ _ => true
  | .tagQuarantineEnd _ _ => true
  | .pcieLinkError _ _ _ => true
  | .txqDoorbell _ f _ _ => f.carriesNet
  | .rxqDoorbell _ f _ _ => f.carriesNet
  | .cqDoorbell _ f _ _ => f.carriesNet
  | .txDescriptorReadDone _ f _ d => f.carriesNet && d.bytes.length % 16 == 0
  | .txDataReadDone _ f _ _ _ => f.carriesNet
  | .cqCoalesceTimer _ f _ => f.carriesNet
  | .rxFrameArrival _ frame _ _ => 1 ≤ frame.length
  | .pipelineAdmit _ => true
  | .recircAdmit _ => true
  | .lpmRecircReadmit _ => true
  | .cipherTileDone _ => true
  | .gauntletKeyFetch _ _ => true
  | .schedSelect _ => true
  | .timingWheelSlotDue slot => slot < 65536
  | .coarseSlotDue slot => slot < 4096
  | .dtimeStep _ => true
  | .dtimeRateWrite _ => true
  | .rxDeliveryWriteDone _ => true
  | .txFrameSent _ => true
  | .ethApply _ => true
  | .ethApplyDone _ => true
  | .anComplete _ _ => true
  | .anFailedRestart _ => true
  | .trainingDone _ _ => true
  | .alignmentDone _ => true
  | .faultSequencesReceived _ _ => true
  | .faultSequencesStop _ => true
  | .alignmentLost _ _ => true
  | .alignmentReturnInHold _ => true
  | .holdoffExpiry _ => true
  | .ethLaneFault _ => true
  | .hodCarveApply => true
  | .hodCarveApplyDone => true
  | .txHodWaitEnd _ f _ => f.carriesNet
  | .contextFetchDone _ _ _ => true
  | .evictionWriteDone _ _ _ => true
  | .fetchNoVictimRetry _ _ => true
  | .lrdExecutionDone _ _ _ => true
  | .lrdExecutionFailed _ _ _ => true
  | .lrdAckRx _ _ => true
  | .lrdNakRx _ _ => true
  | .lrdReadRspRx _ _ => true
  | .lrdProbeRx _ _ => true
  | .lrdSqDoorbell _ _ _ wrs => wrs.all WorkRequest.wf
  | .lrdRqDoorbell _ _ _ bufs => bufs.all RecvBuffer.wf
  | .lrdRetransmitTimer _ _ => true
  | .lrdProbeTimer _ _ => true
  | .lrdAckDelayTimer _ _ => true
  | .lrdRnrTimer _ _ => true
  | .recentListExpiry _ _ => true
  | .nvmeSqDoorbell _ f _ _ => f.carriesNvme
  | .nvmeCqDoorbell _ f _ _ => f.carriesNvme
  | .nvmeCcEnSet _ f cc => f.carriesNvme && bitAtWf cc.toNat 0
  | .nvmeCcEnClear _ f => f.carriesNvme
  | .nvmeShutdown _ f _ => f.carriesNvme
  | .nvmeIntmsIntmc _ f _ _ => f.carriesNvme
  | .nvmeCreateIoSq _ f e => f.carriesNvme && e.wf
  | .nvmeCreateIoCq _ f e => f.carriesNvme && e.wf
  | .nvmeDeleteIoSq _ f e => f.carriesNvme && e.wf
  | .nvmeDeleteIoCq _ f e => f.carriesNvme && e.wf
  | .nvmeGetLogPage _ f e => f.carriesNvme && e.wf
  | .nvmeIdentify _ f e => f.carriesNvme && e.wf
  | .nvmeAbort _ f e => f.carriesNvme && e.wf
  | .nvmeSetFeatures _ f e => f.carriesNvme && e.wf
  | .nvmeGetFeatures _ f e => f.carriesNvme && e.wf
  | .nvmeAsyncEventRequest _ f e => f.carriesNvme && e.wf
  | .nvmeDeviceSelfTest _ f e => f.carriesNvme && e.wf
  | .nvmeFormatNvm _ f e => f.carriesNvme && e.wf
  | .nvmeFlush _ f e => f.carriesNvme && e.wf
  | .nvmeWrite _ f e => f.carriesNvme && e.wf
  | .nvmeRead _ f e => f.carriesNvme && e.wf
  | .nvmeWriteZeroes _ f e => f.carriesNvme && e.wf
  | .nvmeDatasetManagement _ f e => f.carriesNvme && e.wf
  | .nvmeUnsupportedCommand _ f e => f.carriesNvme && e.wf
  | .writeInsertion _ f _ _ _ => f.carriesNvme
  | .wcacheWaitEnd _ => true
  | .destageStart _ _ => true
  | .destageDone _ _ _ => true
  | .backingReadDone _ f _ _ _ _ => f.carriesNvme
  | .drivePresent _ => true
  | .driveSurpriseRemoval _ _ => true
  | .driveLinkUp _ t => t.wfDrive
  | .driveInitialised _ found => found.wf
  | .driveInitTimeout _ => true
  | .driveCommandTimeout _ _ _ => true
  | .driveCfs _ => true
  | .driveCompletion _ _ _ => true
  | .driveAttnButton _ => true
  | .driveDmaViolation _ _ _ => true
  | .bstatusTimeout _ _ => true
  | .remoteDestageRetry _ _ => true
  | .selfTestStep _ f _ => f.carriesNvme
  | .keyAlarmSource code _ => alarmCode code
  | .lookasideJobDone _ => true
  | .lookasideSuspend _ => true
  | .pageFetchDone _ page _ _ => page < 16777216
  | .coreInstruction _ _ => true
  | .tfork _ _ _ _ _ _ => true
  | .tforkd _ _ _ _ _ _ => true
  | .texit _ _ _ _ => true
  | .tjoin _ _ _ _ _ => true
  | .twait _ _ _ _ _ => true
  | .tsignal _ _ _ _ _ _ => true
  | .ttimer _ _ _ _ => true
  | .tyield _ _ _ => true
  | .hrd _ _ _ _ _ => true
  | .hwr _ _ _ _ _ => true
  | .hswap _ _ _ _ _ _ => true
  | .hadd _ _ _ _ _ _ => true
  | .hcas _ _ _ _ _ _ _ => true
  | .chput _ _ _ _ _ => true
  | .chcommit _ _ _ _ _ => true
  | .chrecv _ _ _ _ _ _ => true
  | .wdogKick _ _ _ => true
  | .threadTimerExpiry _ _ _ => true
  | .channelReplyArrival _ _ _ _ => true
  | .hodAlloc _ => true
  | .hodFree _ => true
  | .hodLink _ => true
  | .hodNext _ => true
  | .dmaCopy _ => true
  | .tableRequest _ => true
  | .lookasideJob _ => true
  | .emitPort _ => true
  | .emitHost _ => true
  | .puntRecv _ => true
  | .puntCancel _ => true
  | .puntDelivery _ => true
  | .waitDeadlock _ _ => true
  | .watchdog _ _ => true
  | .dramRefresh => true
  | .rdimmTempRead _ _ => true
  | .dramAlert _ _ => true
  | .dramReplayDone _ => true
  | .dramRetrainDone _ _ => true
  | .dramRequest r => r.wf
  | .dramReadEcc _ addr _ => addr.toNat % 64 == 0
  | .patrolScrub _ addr _ => addr.toNat % 64 == 0
  | .pprRepair _ _ => true
  | .parkEntry => true
  | .parkPhaseEnd _ => true
  | .thermalSensorSample _ => true
  | .avsDecision _ _ => true
  | .avsEmergency => true
  | .regulatorPoll _ _ => true
  | .hlinkRecCommit _ => true
  | .hlinkRecInstall _ _ => true
  | .hlinkRecAbort _ => true
  | .klbLineTooLong => true
  | .help => true
  | .ver => true
  | .status => true
  | .baud _ => true
  | .authNonce => true
  | .authLoad _ data => 1 ≤ data.length
  | .authCheck => true
  | .authEnd => true
  | .sessionExpiry => true
  | .klbRd _ _ => true
  | .klbWr _ _ => true
  | .mrd _ _ _ _ => true
  | .mwr _ _ _ data => 1 ≤ data.length
  | .klbHod _ _ _ => true
  | .threads _ _ => true
  | .regs _ _ _ => true
  | .setreg _ _ _ r _ => r != some 0
  | .klbHalt _ co t => co.isSome || t.isNone
  | .klbResume _ co t => co.isSome || t.isNone
  | .step _ _ _ _ => true
  | .kill _ _ _ => true
  | .bpSet _ _ _ => true
  | .bpClr _ _ _ => true
  | .bpOn => true
  | .bpOff => true
  | .keys => true
  | .imgOffset _ => true
  | .imgData data => 1 ≤ data.length
  | .imgCommit => true
  | .imgInstall _ => true
  | .imgAbort => true
  | .powerRemoved => true
  | .linkRecoveryExit _ => true
  | .driveLaneFaultInService _ _ => true
  | .keyAlarmSourceCleared code => alarmCode code
  | .chunkDone _ => true
  | .installDone _ => true
  | .loadDataReturn _ _ _ _ _ => true
  | .atsInvalidationRequest _ _ => true

/-- The command packet a command consists of. -/
def Instr.packet (i : Instr) : Option Packet :=
  match i with
  | .powerOn => none
  | .devRstNAssert _ => none
  | .devRstNRelease _ => none
  | .rootPllLock => none
  | .coreRefLost => none
  | .coreRefReturned => none
  | .holdoverExpiry => none
  | .ethRefLost => none
  | .ethRefReturned => none
  | .hostRefLost _ => none
  | .hostRefReturned _ => none
  | .romStage => none
  | .loaderStage _ => none
  | .mgmtFwStage => none
  | .bootDone => none
  | .epochBoundary => none
  | .armCutoff => none
  | .graceEnd _ => none
  | .reloadComplete _ => none
  | .glbRecoatArmWrite _ => none
  | .stagedRegisterWrite _ _ => none
  | .glbEpochLenWrite _ => none
  | .lowWordRead _ => none
  | .readClearRegisterRead _ => none
  | .registerWrite _ _ => none
  | .unitFailureInService _ _ => none
  | .drainComplete => none
  | .deviceInfo p => some p
  | .modeGet p => some p
  | .quiesce p => some p
  | .resume p => some p
  | .park p => some p
  | .maintain p => some p
  | .deviceReset p => some p
  | .maintOnNextBoot p => some p
  | .degradationRead p => some p
  | .ownerPathSet p => some p
  | .epochGet p => some p
  | .epochSetLength p => some p
  | .recoatArm p => some p
  | .recoatDisarm p => some p
  | .undercoatReset p => some p
  | .epochWait p => some p
  | .opQuery p => some p
  | .opCancel p => some p
  | .longOpStep _ _ => none
  | .quotaSet p => some p
  | .quotaGet p => some p
  | .vfQuotaSet p => some p
  | .hostDefaultsSet p => some p
  | .dramCarveSet p => some p
  | .resourceUsage p => some p
  | .hostVfLimit p => some p
  | .parseNodeWrite p => some p
  | .parseNodeRead p => some p
  | .parseMalformedSet p => some p
  | .classRuleWrite p => some p
  | .classRuleRead p => some p
  | .classProfileSet p => some p
  | .classActionWrite p => some p
  | .emInsert p => some p
  | .emUpdate p => some p
  | .emDelete p => some p
  | .emLookup p => some p
  | .emRehash p => some p
  | .lpmAdd p => some p
  | .lpmDelete p => some p
  | .lpmLookup p => some p
  | .lpmLeafPush p => some p
  | .tableStats p => some p
  | .schedNodeSet p => some p
  | .schedNodeGet p => some p
  | .hostShareSet p => some p
  | .policerSet p => some p
  | .classMapSet p => some p
  | .spreadSet p => some p
  | .indirectionSet p => some p
  | .spreadLoadRead p => some p
  | .queueCreate p => some p
  | .queueDestroy p => some p
  | .queueQuery p => some p
  | .connCreate p => some p
  | .connModify p => some p
  | .connDestroy p => some p
  | .connQuery p => some p
  | .ctxPin p => some p
  | .ctxUnpin p => some p
  | .ctxMigrate p => some p
  | .hostBackingSet p => some p
  | .pathWrite p => some p
  | .pathRead p => some p
  | .xportConfig p => some p
  | .nsCreate p => some p
  | .nsBackingSet p => some p
  | .nsAttach p => some p
  | .nsDetach p => some p
  | .nsDelete p => some p
  | .driveInfo p => some p
  | .driveFormat p => some p
  | .cacheFlush p => some p
  | .sanitize p => some p
  | .remoteTargetSet p => some p
  | .keyAllocate p => some p
  | .keyImport p => some p
  | .keyDestroy p => some p
  | .keyQuery p => some p
  | .importKeySet p => some p
  | .keyTierSet p => some p
  | .keystoreZeroise p => some p
  | .programLoad p => some p
  | .programStart p => some p
  | .programStop p => some p
  | .channelGrant p => some p
  | .coreStatus p => some p
  | .watchdogSet p => some p
  | .selftestRun p => some p
  | .repairRead p => some p
  | .fuseProgram p => some p
  | .parkPlanSet p => some p
  | .imageStage p => some p
  | .imageInstall p => some p
  | .imageInfo p => some p
  | .commitVersion p => some p
  | .revokeKey p => some p
  | .ownerKeyProvision p => some p
  | .measurementRead p => some p
  | .counterRead p => some p
  | .counterSnapshot p => some p
  | .eventMaskSet p => some p
  | .violationRead p => some p
  | .unassignedOpcode _ p => some p
  | .oversizeCommand _ p => some p
  | .hlinkCmdEnableSet _ => none
  | .hlinkCmdEnableClear _ => none
  | .hlinkCmdEventEnableWrite _ _ => none
  | .hlinkCmdSqTail _ _ => none
  | .hlinkCmdRqHead _ _ => none
  | .hlinkCmdEqHead _ _ => none
  | .ownerEventSend _ => none
  | .mctpSetEndpointId _ _ _ => none
  | .mctpGetEndpointId _ => none
  | .mctpGetVersionSupport _ _ => none
  | .mctpGetMessageTypeSupport _ => none
  | .mctpGetVdmSupport _ _ => none
  | .mctpMessageDiscarded _ _ _ => none
  | .spdmGetVersion _ _ => none
  | .spdmGetCapabilities _ _ => none
  | .spdmNegotiateAlgorithms _ _ => none
  | .spdmGetDigests _ _ => none
  | .spdmGetCertificate _ _ => none
  | .spdmChallenge _ _ => none
  | .spdmGetMeasurements _ _ => none
  | .spdmUnsupportedRequest _ _ => none
  | .doeDiscovery _ _ => none
  | .hostAttach _ _ => none
  | .hostDetach _ _ => none
  | .hostUnitDefaultsLoad _ => none
  | .linkRecoveryEntry _ => none
  | .linkWidthChange _ _ => none
  | .hostLaneFaultInService _ _ => none
  | .configRequest _ _ => none
  | .initiateFlr _ _ => none
  | .busMasterEnableClear _ _ => none
  | .busMasterEnableSet _ _ => none
  | .vfEnableClear _ _ => none
  | .vfEnableSet _ _ => none
  | .d3hotToD0 _ _ => none
  | .msixUnmask _ _ _ => none
  | .configWrite _ _ _ _ _ => none
  | .hlinkIntxStatusClear _ _ => none
  | .barMemoryRequest _ _ => none
  | .ioOrAtomicRequest _ _ _ => none
  | .completionReceived _ _ _ _ => none
  | .completionTimeout _ _ => none
  | .tagQuarantineEnd _ _ => none
  | .pcieLinkError _ _ _ => none
  | .txqDoorbell _ _ _ _ => none
  | .rxqDoorbell _ _ _ _ => none
  | .cqDoorbell _ _ _ _ => none
  | .txDescriptorReadDone _ _ _ _ => none
  | .txDataReadDone _ _ _ _ _ => none
  | .cqCoalesceTimer _ _ _ => none
  | .rxFrameArrival _ _ _ _ => none
  | .pipelineAdmit _ => none
  | .recircAdmit _ => none
  | .lpmRecircReadmit _ => none
  | .cipherTileDone _ => none
  | .gauntletKeyFetch _ _ => none
  | .schedSelect _ => none
  | .timingWheelSlotDue _ => none
  | .coarseSlotDue _ => none
  | .dtimeStep _ => none
  | .dtimeRateWrite _ => none
  | .rxDeliveryWriteDone _ => none
  | .txFrameSent _ => none
  | .ethApply _ => none
  | .ethApplyDone _ => none
  | .anComplete _ _ => none
  | .anFailedRestart _ => none
  | .trainingDone _ _ => none
  | .alignmentDone _ => none
  | .faultSequencesReceived _ _ => none
  | .faultSequencesStop _ => none
  | .alignmentLost _ _ => none
  | .alignmentReturnInHold _ => none
  | .holdoffExpiry _ => none
  | .ethLaneFault _ => none
  | .hodCarveApply => none
  | .hodCarveApplyDone => none
  | .txHodWaitEnd _ _ _ => none
  | .contextFetchDone _ _ _ => none
  | .evictionWriteDone _ _ _ => none
  | .fetchNoVictimRetry _ _ => none
  | .lrdExecutionDone _ _ _ => none
  | .lrdExecutionFailed _ _ _ => none
  | .lrdAckRx _ _ => none
  | .lrdNakRx _ _ => none
  | .lrdReadRspRx _ _ => none
  | .lrdProbeRx _ _ => none
  | .lrdSqDoorbell _ _ _ _ => none
  | .lrdRqDoorbell _ _ _ _ => none
  | .lrdRetransmitTimer _ _ => none
  | .lrdProbeTimer _ _ => none
  | .lrdAckDelayTimer _ _ => none
  | .lrdRnrTimer _ _ => none
  | .recentListExpiry _ _ => none
  | .nvmeSqDoorbell _ _ _ _ => none
  | .nvmeCqDoorbell _ _ _ _ => none
  | .nvmeCcEnSet _ _ _ => none
  | .nvmeCcEnClear _ _ => none
  | .nvmeShutdown _ _ _ => none
  | .nvmeIntmsIntmc _ _ _ _ => none
  | .nvmeCreateIoSq _ _ _ => none
  | .nvmeCreateIoCq _ _ _ => none
  | .nvmeDeleteIoSq _ _ _ => none
  | .nvmeDeleteIoCq _ _ _ => none
  | .nvmeGetLogPage _ _ _ => none
  | .nvmeIdentify _ _ _ => none
  | .nvmeAbort _ _ _ => none
  | .nvmeSetFeatures _ _ _ => none
  | .nvmeGetFeatures _ _ _ => none
  | .nvmeAsyncEventRequest _ _ _ => none
  | .nvmeDeviceSelfTest _ _ _ => none
  | .nvmeFormatNvm _ _ _ => none
  | .nvmeFlush _ _ _ => none
  | .nvmeWrite _ _ _ => none
  | .nvmeRead _ _ _ => none
  | .nvmeWriteZeroes _ _ _ => none
  | .nvmeDatasetManagement _ _ _ => none
  | .nvmeUnsupportedCommand _ _ _ => none
  | .writeInsertion _ _ _ _ _ => none
  | .wcacheWaitEnd _ => none
  | .destageStart _ _ => none
  | .destageDone _ _ _ => none
  | .backingReadDone _ _ _ _ _ _ => none
  | .drivePresent _ => none
  | .driveSurpriseRemoval _ _ => none
  | .driveLinkUp _ _ => none
  | .driveInitialised _ _ => none
  | .driveInitTimeout _ => none
  | .driveCommandTimeout _ _ _ => none
  | .driveCfs _ => none
  | .driveCompletion _ _ _ => none
  | .driveAttnButton _ => none
  | .driveDmaViolation _ _ _ => none
  | .bstatusTimeout _ _ => none
  | .remoteDestageRetry _ _ => none
  | .selfTestStep _ _ _ => none
  | .keyAlarmSource _ _ => none
  | .lookasideJobDone _ => none
  | .lookasideSuspend _ => none
  | .pageFetchDone _ _ _ _ => none
  | .coreInstruction _ _ => none
  | .tfork _ _ _ _ _ _ => none
  | .tforkd _ _ _ _ _ _ => none
  | .texit _ _ _ _ => none
  | .tjoin _ _ _ _ _ => none
  | .twait _ _ _ _ _ => none
  | .tsignal _ _ _ _ _ _ => none
  | .ttimer _ _ _ _ => none
  | .tyield _ _ _ => none
  | .hrd _ _ _ _ _ => none
  | .hwr _ _ _ _ _ => none
  | .hswap _ _ _ _ _ _ => none
  | .hadd _ _ _ _ _ _ => none
  | .hcas _ _ _ _ _ _ _ => none
  | .chput _ _ _ _ _ => none
  | .chcommit _ _ _ _ _ => none
  | .chrecv _ _ _ _ _ _ => none
  | .wdogKick _ _ _ => none
  | .threadTimerExpiry _ _ _ => none
  | .channelReplyArrival _ _ _ _ => none
  | .hodAlloc _ => none
  | .hodFree _ => none
  | .hodLink _ => none
  | .hodNext _ => none
  | .dmaCopy _ => none
  | .tableRequest _ => none
  | .lookasideJob _ => none
  | .emitPort _ => none
  | .emitHost _ => none
  | .puntRecv _ => none
  | .puntCancel _ => none
  | .puntDelivery _ => none
  | .waitDeadlock _ _ => none
  | .watchdog _ _ => none
  | .dramRefresh => none
  | .rdimmTempRead _ _ => none
  | .dramAlert _ _ => none
  | .dramReplayDone _ => none
  | .dramRetrainDone _ _ => none
  | .dramRequest _ => none
  | .dramReadEcc _ _ _ => none
  | .patrolScrub _ _ _ => none
  | .pprRepair _ _ => none
  | .parkEntry => none
  | .parkPhaseEnd _ => none
  | .thermalSensorSample _ => none
  | .avsDecision _ _ => none
  | .avsEmergency => none
  | .regulatorPoll _ _ => none
  | .hlinkRecCommit _ => none
  | .hlinkRecInstall _ _ => none
  | .hlinkRecAbort _ => none
  | .klbLineTooLong => none
  | .help => none
  | .ver => none
  | .status => none
  | .baud _ => none
  | .authNonce => none
  | .authLoad _ _ => none
  | .authCheck => none
  | .authEnd => none
  | .sessionExpiry => none
  | .klbRd _ _ => none
  | .klbWr _ _ => none
  | .mrd _ _ _ _ => none
  | .mwr _ _ _ _ => none
  | .klbHod _ _ _ => none
  | .threads _ _ => none
  | .regs _ _ _ => none
  | .setreg _ _ _ _ _ => none
  | .klbHalt _ _ _ => none
  | .klbResume _ _ _ => none
  | .step _ _ _ _ => none
  | .kill _ _ _ => none
  | .bpSet _ _ _ => none
  | .bpClr _ _ _ => none
  | .bpOn => none
  | .bpOff => none
  | .keys => none
  | .imgOffset _ => none
  | .imgData _ => none
  | .imgCommit => none
  | .imgInstall _ => none
  | .imgAbort => none
  | .powerRemoved => none
  | .linkRecoveryExit _ => none
  | .driveLaneFaultInService _ _ => none
  | .keyAlarmSourceCleared _ => none
  | .chunkDone _ => none
  | .installDone _ => none
  | .loadDataReturn _ _ _ _ _ => none
  | .atsInvalidationRequest _ _ => none

end Sys2Proof
end

