-- ==== Sys2Proof/Laws/PerInstr.lean ====
section
/-! SUPPORT. PerInstr.lean: for each command, that a well-formed one carries the parameters its PARAM_LEN announces (R65). -/

namespace Sys2Proof.Laws.Wf
open Sys2Proof

/-- A well-formed command that is a packet, read whole, has twice PARAM_LEN parameter words, and PARAM_LEN is at most 504. -/
def Statement (i : Instr) : Prop :=
  i.wf = true → ∀ p, i.packet = some p → p.read = .ok → p.params.length = 2 * p.paramUnits ∧ p.paramUnits ≤ 504

/-- What Packet.wf says of a packet read whole. -/
theorem packet_lengths (p : Packet) (h : p.wf = true) (hr : p.read = .ok) : p.params.length = 2 * p.paramUnits ∧ p.paramUnits ≤ 504 := by
  simp [Packet.wf, hr] at h
  exact ⟨h.1.1, h.1.2⟩

theorem powerOn : Statement (.powerOn) := fun _ _ hp _ => nomatch hp
theorem devRstNAssert (pulseNs : Nat) : Statement (.devRstNAssert pulseNs) := fun _ _ hp _ => nomatch hp
theorem devRstNRelease (straps : BitVec 4) : Statement (.devRstNRelease straps) := fun _ _ hp _ => nomatch hp
theorem rootPllLock : Statement (.rootPllLock) := fun _ _ hp _ => nomatch hp
theorem coreRefLost : Statement (.coreRefLost) := fun _ _ hp _ => nomatch hp
theorem coreRefReturned : Statement (.coreRefReturned) := fun _ _ hp _ => nomatch hp
theorem holdoverExpiry : Statement (.holdoverExpiry) := fun _ _ hp _ => nomatch hp
theorem ethRefLost : Statement (.ethRefLost) := fun _ _ hp _ => nomatch hp
theorem ethRefReturned : Statement (.ethRefReturned) := fun _ _ hp _ => nomatch hp
theorem hostRefLost (h : HostId) : Statement (.hostRefLost h) := fun _ _ hp _ => nomatch hp
theorem hostRefReturned (h : HostId) : Statement (.hostRefReturned h) := fun _ _ hp _ => nomatch hp
theorem romStage : Statement (.romStage) := fun _ _ hp _ => nomatch hp
theorem loaderStage (found : BootFindings) : Statement (.loaderStage found) := fun _ _ hp _ => nomatch hp
theorem mgmtFwStage : Statement (.mgmtFwStage) := fun _ _ hp _ => nomatch hp
theorem bootDone : Statement (.bootDone) := fun _ _ hp _ => nomatch hp
theorem epochBoundary : Statement (.epochBoundary) := fun _ _ hp _ => nomatch hp
theorem armCutoff : Statement (.armCutoff) := fun _ _ hp _ => nomatch hp
theorem graceEnd (u : RUnit) : Statement (.graceEnd u) := fun _ _ hp _ => nomatch hp
theorem reloadComplete (u : RUnit) : Statement (.reloadComplete u) := fun _ _ hp _ => nomatch hp
theorem glbRecoatArmWrite (v : Word) : Statement (.glbRecoatArmWrite v) := fun _ _ hp _ => nomatch hp
theorem stagedRegisterWrite (addr : Word) (v : Word) : Statement (.stagedRegisterWrite addr v) := fun _ _ hp _ => nomatch hp
theorem glbEpochLenWrite (v : Word) : Statement (.glbEpochLenWrite v) := fun _ _ hp _ => nomatch hp
theorem lowWordRead (addr : Word) : Statement (.lowWordRead addr) := fun _ _ hp _ => nomatch hp
theorem readClearRegisterRead (addr : Word) : Statement (.readClearRegisterRead addr) := fun _ _ hp _ => nomatch hp
theorem registerWrite (addr : Word) (v : Word) : Statement (.registerWrite addr v) := fun _ _ hp _ => nomatch hp
theorem unitFailureInService (kind : Byte) (unit : BitVec 24) : Statement (.unitFailureInService kind unit) := fun _ _ hp _ => nomatch hp
theorem drainComplete : Statement (.drainComplete) := fun _ _ hp _ => nomatch hp
theorem deviceInfo (p : Packet) : Statement (.deviceInfo p) := fun h _ hp hr => packet_lengths _ (Option.some.inj hp ▸ h) hr
theorem modeGet (p : Packet) : Statement (.modeGet p) := fun h _ hp hr => packet_lengths _ (Option.some.inj hp ▸ h) hr
theorem quiesce (p : Packet) : Statement (.quiesce p) := fun h _ hp hr => packet_lengths _ (Option.some.inj hp ▸ h) hr
theorem resume (p : Packet) : Statement (.resume p) := fun h _ hp hr => packet_lengths _ (Option.some.inj hp ▸ h) hr
theorem park (p : Packet) : Statement (.park p) := fun h _ hp hr => packet_lengths _ (Option.some.inj hp ▸ h) hr
theorem maintain (p : Packet) : Statement (.maintain p) := fun h _ hp hr => packet_lengths _ (Option.some.inj hp ▸ h) hr
theorem deviceReset (p : Packet) : Statement (.deviceReset p) := fun h _ hp hr => packet_lengths _ (Option.some.inj hp ▸ h) hr
theorem maintOnNextBoot (p : Packet) : Statement (.maintOnNextBoot p) := fun h _ hp hr => packet_lengths _ (Option.some.inj hp ▸ h) hr
theorem degradationRead (p : Packet) : Statement (.degradationRead p) := fun h _ hp hr => packet_lengths _ (Option.some.inj hp ▸ h) hr
theorem ownerPathSet (p : Packet) : Statement (.ownerPathSet p) := fun h _ hp hr => packet_lengths _ (Option.some.inj hp ▸ h) hr
theorem epochGet (p : Packet) : Statement (.epochGet p) := fun h _ hp hr => packet_lengths _ (Option.some.inj hp ▸ h) hr
theorem epochSetLength (p : Packet) : Statement (.epochSetLength p) := fun h _ hp hr => packet_lengths _ (Option.some.inj hp ▸ h) hr
theorem recoatArm (p : Packet) : Statement (.recoatArm p) := fun h _ hp hr => packet_lengths _ (Option.some.inj hp ▸ h) hr
theorem recoatDisarm (p : Packet) : Statement (.recoatDisarm p) := fun h _ hp hr => packet_lengths _ (Option.some.inj hp ▸ h) hr
theorem undercoatReset (p : Packet) : Statement (.undercoatReset p) := fun h _ hp hr => packet_lengths _ (Option.some.inj hp ▸ h) hr
theorem epochWait (p : Packet) : Statement (.epochWait p) := fun h _ hp hr => packet_lengths _ (Option.some.inj hp ▸ h) hr
theorem opQuery (p : Packet) : Statement (.opQuery p) := fun h _ hp hr => packet_lengths _ (Option.some.inj hp ▸ h) hr
theorem opCancel (p : Packet) : Statement (.opCancel p) := fun h _ hp hr => packet_lengths _ (Option.some.inj hp ▸ h) hr
theorem longOpStep (handle : Word) (res : StepResult) : Statement (.longOpStep handle res) := fun _ _ hp _ => nomatch hp
theorem quotaSet (p : Packet) : Statement (.quotaSet p) := fun h _ hp hr => packet_lengths _ (Option.some.inj hp ▸ h) hr
theorem quotaGet (p : Packet) : Statement (.quotaGet p) := fun h _ hp hr => packet_lengths _ (Option.some.inj hp ▸ h) hr
theorem vfQuotaSet (p : Packet) : Statement (.vfQuotaSet p) := fun h _ hp hr => packet_lengths _ (Option.some.inj hp ▸ h) hr
theorem hostDefaultsSet (p : Packet) : Statement (.hostDefaultsSet p) := fun h _ hp hr => packet_lengths _ (Option.some.inj hp ▸ h) hr
theorem dramCarveSet (p : Packet) : Statement (.dramCarveSet p) := fun h _ hp hr => packet_lengths _ (Option.some.inj hp ▸ h) hr
theorem resourceUsage (p : Packet) : Statement (.resourceUsage p) := fun h _ hp hr => packet_lengths _ (Option.some.inj hp ▸ h) hr
theorem hostVfLimit (p : Packet) : Statement (.hostVfLimit p) := fun h _ hp hr => packet_lengths _ (Option.some.inj hp ▸ h) hr
theorem parseNodeWrite (p : Packet) : Statement (.parseNodeWrite p) := fun h _ hp hr => packet_lengths _ (Option.some.inj hp ▸ h) hr
theorem parseNodeRead (p : Packet) : Statement (.parseNodeRead p) := fun h _ hp hr => packet_lengths _ (Option.some.inj hp ▸ h) hr
theorem parseMalformedSet (p : Packet) : Statement (.parseMalformedSet p) := fun h _ hp hr => packet_lengths _ (Option.some.inj hp ▸ h) hr
theorem classRuleWrite (p : Packet) : Statement (.classRuleWrite p) := fun h _ hp hr => packet_lengths _ (Option.some.inj hp ▸ h) hr
theorem classRuleRead (p : Packet) : Statement (.classRuleRead p) := fun h _ hp hr => packet_lengths _ (Option.some.inj hp ▸ h) hr
theorem classProfileSet (p : Packet) : Statement (.classProfileSet p) := fun h _ hp hr => packet_lengths _ (Option.some.inj hp ▸ h) hr
theorem classActionWrite (p : Packet) : Statement (.classActionWrite p) := fun h _ hp hr => packet_lengths _ (Option.some.inj hp ▸ h) hr
theorem emInsert (p : Packet) : Statement (.emInsert p) := fun h _ hp hr => packet_lengths _ (Option.some.inj hp ▸ h) hr
theorem emUpdate (p : Packet) : Statement (.emUpdate p) := fun h _ hp hr => packet_lengths _ (Option.some.inj hp ▸ h) hr
theorem emDelete (p : Packet) : Statement (.emDelete p) := fun h _ hp hr => packet_lengths _ (Option.some.inj hp ▸ h) hr
theorem emLookup (p : Packet) : Statement (.emLookup p) := fun h _ hp hr => packet_lengths _ (Option.some.inj hp ▸ h) hr
theorem emRehash (p : Packet) : Statement (.emRehash p) := fun h _ hp hr => packet_lengths _ (Option.some.inj hp ▸ h) hr
theorem lpmAdd (p : Packet) : Statement (.lpmAdd p) := fun h _ hp hr => packet_lengths _ (Option.some.inj hp ▸ h) hr
theorem lpmDelete (p : Packet) : Statement (.lpmDelete p) := fun h _ hp hr => packet_lengths _ (Option.some.inj hp ▸ h) hr
theorem lpmLookup (p : Packet) : Statement (.lpmLookup p) := fun h _ hp hr => packet_lengths _ (Option.some.inj hp ▸ h) hr
theorem lpmLeafPush (p : Packet) : Statement (.lpmLeafPush p) := fun h _ hp hr => packet_lengths _ (Option.some.inj hp ▸ h) hr
theorem tableStats (p : Packet) : Statement (.tableStats p) := fun h _ hp hr => packet_lengths _ (Option.some.inj hp ▸ h) hr
theorem schedNodeSet (p : Packet) : Statement (.schedNodeSet p) := fun h _ hp hr => packet_lengths _ (Option.some.inj hp ▸ h) hr
theorem schedNodeGet (p : Packet) : Statement (.schedNodeGet p) := fun h _ hp hr => packet_lengths _ (Option.some.inj hp ▸ h) hr
theorem hostShareSet (p : Packet) : Statement (.hostShareSet p) := fun h _ hp hr => packet_lengths _ (Option.some.inj hp ▸ h) hr
theorem policerSet (p : Packet) : Statement (.policerSet p) := fun h _ hp hr => packet_lengths _ (Option.some.inj hp ▸ h) hr
theorem classMapSet (p : Packet) : Statement (.classMapSet p) := fun h _ hp hr => packet_lengths _ (Option.some.inj hp ▸ h) hr
theorem spreadSet (p : Packet) : Statement (.spreadSet p) := fun h _ hp hr => packet_lengths _ (Option.some.inj hp ▸ h) hr
theorem indirectionSet (p : Packet) : Statement (.indirectionSet p) := fun h _ hp hr => packet_lengths _ (Option.some.inj hp ▸ h) hr
theorem spreadLoadRead (p : Packet) : Statement (.spreadLoadRead p) := fun h _ hp hr => packet_lengths _ (Option.some.inj hp ▸ h) hr
theorem queueCreate (p : Packet) : Statement (.queueCreate p) := fun h _ hp hr => packet_lengths _ (Option.some.inj hp ▸ h) hr
theorem queueDestroy (p : Packet) : Statement (.queueDestroy p) := fun h _ hp hr => packet_lengths _ (Option.some.inj hp ▸ h) hr
theorem queueQuery (p : Packet) : Statement (.queueQuery p) := fun h _ hp hr => packet_lengths _ (Option.some.inj hp ▸ h) hr
theorem connCreate (p : Packet) : Statement (.connCreate p) := fun h _ hp hr => packet_lengths _ (Option.some.inj hp ▸ h) hr
theorem connModify (p : Packet) : Statement (.connModify p) := fun h _ hp hr => packet_lengths _ (Option.some.inj hp ▸ h) hr
theorem connDestroy (p : Packet) : Statement (.connDestroy p) := fun h _ hp hr => packet_lengths _ (Option.some.inj hp ▸ h) hr
theorem connQuery (p : Packet) : Statement (.connQuery p) := fun h _ hp hr => packet_lengths _ (Option.some.inj hp ▸ h) hr
theorem ctxPin (p : Packet) : Statement (.ctxPin p) := fun h _ hp hr => packet_lengths _ (Option.some.inj hp ▸ h) hr
theorem ctxUnpin (p : Packet) : Statement (.ctxUnpin p) := fun h _ hp hr => packet_lengths _ (Option.some.inj hp ▸ h) hr
theorem ctxMigrate (p : Packet) : Statement (.ctxMigrate p) := fun h _ hp hr => packet_lengths _ (Option.some.inj hp ▸ h) hr
theorem hostBackingSet (p : Packet) : Statement (.hostBackingSet p) := fun h _ hp hr => packet_lengths _ (Option.some.inj hp ▸ h) hr
theorem pathWrite (p : Packet) : Statement (.pathWrite p) := fun h _ hp hr => packet_lengths _ (Option.some.inj hp ▸ h) hr
theorem pathRead (p : Packet) : Statement (.pathRead p) := fun h _ hp hr => packet_lengths _ (Option.some.inj hp ▸ h) hr
theorem xportConfig (p : Packet) : Statement (.xportConfig p) := fun h _ hp hr => packet_lengths _ (Option.some.inj hp ▸ h) hr
theorem nsCreate (p : Packet) : Statement (.nsCreate p) := fun h _ hp hr => packet_lengths _ (Option.some.inj hp ▸ h) hr
theorem nsBackingSet (p : Packet) : Statement (.nsBackingSet p) := fun h _ hp hr => packet_lengths _ (Option.some.inj hp ▸ h) hr
theorem nsAttach (p : Packet) : Statement (.nsAttach p) := fun h _ hp hr => packet_lengths _ (Option.some.inj hp ▸ h) hr
theorem nsDetach (p : Packet) : Statement (.nsDetach p) := fun h _ hp hr => packet_lengths _ (Option.some.inj hp ▸ h) hr
theorem nsDelete (p : Packet) : Statement (.nsDelete p) := fun h _ hp hr => packet_lengths _ (Option.some.inj hp ▸ h) hr
theorem driveInfo (p : Packet) : Statement (.driveInfo p) := fun h _ hp hr => packet_lengths _ (Option.some.inj hp ▸ h) hr
theorem driveFormat (p : Packet) : Statement (.driveFormat p) := fun h _ hp hr => packet_lengths _ (Option.some.inj hp ▸ h) hr
theorem cacheFlush (p : Packet) : Statement (.cacheFlush p) := fun h _ hp hr => packet_lengths _ (Option.some.inj hp ▸ h) hr
theorem sanitize (p : Packet) : Statement (.sanitize p) := fun h _ hp hr => packet_lengths _ (Option.some.inj hp ▸ h) hr
theorem remoteTargetSet (p : Packet) : Statement (.remoteTargetSet p) := fun h _ hp hr => packet_lengths _ (Option.some.inj hp ▸ h) hr
theorem keyAllocate (p : Packet) : Statement (.keyAllocate p) := fun h _ hp hr => packet_lengths _ (Option.some.inj hp ▸ h) hr
theorem keyImport (p : Packet) : Statement (.keyImport p) := fun h _ hp hr => packet_lengths _ (Option.some.inj hp ▸ h) hr
theorem keyDestroy (p : Packet) : Statement (.keyDestroy p) := fun h _ hp hr => packet_lengths _ (Option.some.inj hp ▸ h) hr
theorem keyQuery (p : Packet) : Statement (.keyQuery p) := fun h _ hp hr => packet_lengths _ (Option.some.inj hp ▸ h) hr
theorem importKeySet (p : Packet) : Statement (.importKeySet p) := fun h _ hp hr => packet_lengths _ (Option.some.inj hp ▸ h) hr
theorem keyTierSet (p : Packet) : Statement (.keyTierSet p) := fun h _ hp hr => packet_lengths _ (Option.some.inj hp ▸ h) hr
theorem keystoreZeroise (p : Packet) : Statement (.keystoreZeroise p) := fun h _ hp hr => packet_lengths _ (Option.some.inj hp ▸ h) hr
theorem programLoad (p : Packet) : Statement (.programLoad p) := fun h _ hp hr => packet_lengths _ (Option.some.inj hp ▸ h) hr
theorem programStart (p : Packet) : Statement (.programStart p) := fun h _ hp hr => packet_lengths _ (Option.some.inj hp ▸ h) hr
theorem programStop (p : Packet) : Statement (.programStop p) := fun h _ hp hr => packet_lengths _ (Option.some.inj hp ▸ h) hr
theorem channelGrant (p : Packet) : Statement (.channelGrant p) := fun h _ hp hr => packet_lengths _ (Option.some.inj hp ▸ h) hr
theorem coreStatus (p : Packet) : Statement (.coreStatus p) := fun h _ hp hr => packet_lengths _ (Option.some.inj hp ▸ h) hr
theorem watchdogSet (p : Packet) : Statement (.watchdogSet p) := fun h _ hp hr => packet_lengths _ (Option.some.inj hp ▸ h) hr
theorem selftestRun (p : Packet) : Statement (.selftestRun p) := fun h _ hp hr => packet_lengths _ (Option.some.inj hp ▸ h) hr
theorem repairRead (p : Packet) : Statement (.repairRead p) := fun h _ hp hr => packet_lengths _ (Option.some.inj hp ▸ h) hr
theorem fuseProgram (p : Packet) : Statement (.fuseProgram p) := fun h _ hp hr => packet_lengths _ (Option.some.inj hp ▸ h) hr
theorem parkPlanSet (p : Packet) : Statement (.parkPlanSet p) := fun h _ hp hr => packet_lengths _ (Option.some.inj hp ▸ h) hr
theorem imageStage (p : Packet) : Statement (.imageStage p) := fun h _ hp hr => packet_lengths _ (Option.some.inj hp ▸ h) hr
theorem imageInstall (p : Packet) : Statement (.imageInstall p) := fun h _ hp hr => packet_lengths _ (Option.some.inj hp ▸ h) hr
theorem imageInfo (p : Packet) : Statement (.imageInfo p) := fun h _ hp hr => packet_lengths _ (Option.some.inj hp ▸ h) hr
theorem commitVersion (p : Packet) : Statement (.commitVersion p) := fun h _ hp hr => packet_lengths _ (Option.some.inj hp ▸ h) hr
theorem revokeKey (p : Packet) : Statement (.revokeKey p) := fun h _ hp hr => packet_lengths _ (Option.some.inj hp ▸ h) hr
theorem ownerKeyProvision (p : Packet) : Statement (.ownerKeyProvision p) := fun h _ hp hr => packet_lengths _ (Option.some.inj hp ▸ h) hr
theorem measurementRead (p : Packet) : Statement (.measurementRead p) := fun h _ hp hr => packet_lengths _ (Option.some.inj hp ▸ h) hr
theorem counterRead (p : Packet) : Statement (.counterRead p) := fun h _ hp hr => packet_lengths _ (Option.some.inj hp ▸ h) hr
theorem counterSnapshot (p : Packet) : Statement (.counterSnapshot p) := fun h _ hp hr => packet_lengths _ (Option.some.inj hp ▸ h) hr
theorem eventMaskSet (p : Packet) : Statement (.eventMaskSet p) := fun h _ hp hr => packet_lengths _ (Option.some.inj hp ▸ h) hr
theorem violationRead (p : Packet) : Statement (.violationRead p) := fun h _ hp hr => packet_lengths _ (Option.some.inj hp ▸ h) hr
theorem unassignedOpcode (opcode : BitVec 16) (p : Packet) : Statement (.unassignedOpcode opcode p) := fun h _ hp hr => packet_lengths _ (Option.some.inj hp ▸ h) hr
theorem oversizeCommand (c : RingChan) (p : Packet) : Statement (.oversizeCommand c p) := fun h _ hp hr => packet_lengths _ (Option.some.inj hp ▸ h) hr
theorem hlinkCmdEnableSet (c : RingChan) : Statement (.hlinkCmdEnableSet c) := fun _ _ hp _ => nomatch hp
theorem hlinkCmdEnableClear (c : RingChan) : Statement (.hlinkCmdEnableClear c) := fun _ _ hp _ => nomatch hp
theorem hlinkCmdEventEnableWrite (c : RingChan) (on : Bool) : Statement (.hlinkCmdEventEnableWrite c on) := fun _ _ hp _ => nomatch hp
theorem hlinkCmdSqTail (c : RingChan) (v : Word) : Statement (.hlinkCmdSqTail c v) := fun _ _ hp _ => nomatch hp
theorem hlinkCmdRqHead (c : RingChan) (v : Word) : Statement (.hlinkCmdRqHead c v) := fun _ _ hp _ => nomatch hp
theorem hlinkCmdEqHead (c : RingChan) (v : Word) : Statement (.hlinkCmdEqHead c v) := fun _ _ hp _ => nomatch hp
theorem ownerEventSend (tries : Fin 5) : Statement (.ownerEventSend tries) := fun _ _ hp _ => nomatch hp
theorem mctpSetEndpointId (path : MctpPath) (op : BitVec 2) (eid : Byte) : Statement (.mctpSetEndpointId path op eid) := fun _ _ hp _ => nomatch hp
theorem mctpGetEndpointId (path : MctpPath) : Statement (.mctpGetEndpointId path) := fun _ _ hp _ => nomatch hp
theorem mctpGetVersionSupport (path : MctpPath) (msgType : Byte) : Statement (.mctpGetVersionSupport path msgType) := fun _ _ hp _ => nomatch hp
theorem mctpGetMessageTypeSupport (path : MctpPath) : Statement (.mctpGetMessageTypeSupport path) := fun _ _ hp _ => nomatch hp
theorem mctpGetVdmSupport (path : MctpPath) (selector : Byte) : Statement (.mctpGetVdmSupport path selector) := fun _ _ hp _ => nomatch hp
theorem mctpMessageDiscarded (path : MctpPath) (ic : Bool) (msgType : Byte) : Statement (.mctpMessageDiscarded path ic msgType) := fun _ _ hp _ => nomatch hp
theorem spdmGetVersion (r : SpdmPort) (q : SpdmReq) : Statement (.spdmGetVersion r q) := fun _ _ hp _ => nomatch hp
theorem spdmGetCapabilities (r : SpdmPort) (q : SpdmReq) : Statement (.spdmGetCapabilities r q) := fun _ _ hp _ => nomatch hp
theorem spdmNegotiateAlgorithms (r : SpdmPort) (q : SpdmReq) : Statement (.spdmNegotiateAlgorithms r q) := fun _ _ hp _ => nomatch hp
theorem spdmGetDigests (r : SpdmPort) (q : SpdmReq) : Statement (.spdmGetDigests r q) := fun _ _ hp _ => nomatch hp
theorem spdmGetCertificate (r : SpdmPort) (q : SpdmReq) : Statement (.spdmGetCertificate r q) := fun _ _ hp _ => nomatch hp
theorem spdmChallenge (r : SpdmPort) (q : SpdmReq) : Statement (.spdmChallenge r q) := fun _ _ hp _ => nomatch hp
theorem spdmGetMeasurements (r : SpdmPort) (q : SpdmReq) : Statement (.spdmGetMeasurements r q) := fun _ _ hp _ => nomatch hp
theorem spdmUnsupportedRequest (r : SpdmPort) (q : SpdmReq) : Statement (.spdmUnsupportedRequest r q) := fun _ _ hp _ => nomatch hp
theorem doeDiscovery (h : HostId) (index : Byte) : Statement (.doeDiscovery h index) := fun _ _ hp _ => nomatch hp
theorem hostAttach (h : HostId) (t : LinkTraining) : Statement (.hostAttach h t) := fun _ _ hp _ => nomatch hp
theorem hostDetach (h : HostId) (cause : DetachCause) : Statement (.hostDetach h cause) := fun _ _ hp _ => nomatch hp
theorem hostUnitDefaultsLoad (h : HostId) : Statement (.hostUnitDefaultsLoad h) := fun _ _ hp _ => nomatch hp
theorem linkRecoveryEntry (h : HostId) : Statement (.linkRecoveryEntry h) := fun _ _ hp _ => nomatch hp
theorem linkWidthChange (h : HostId) (t : LinkTraining) : Statement (.linkWidthChange h t) := fun _ _ hp _ => nomatch hp
theorem hostLaneFaultInService (h : HostId) (lane : Fin 16) : Statement (.hostLaneFaultInService h lane) := fun _ _ hp _ => nomatch hp
theorem configRequest (h : HostId) (r : CfgReq) : Statement (.configRequest h r) := fun _ _ hp _ => nomatch hp
theorem initiateFlr (h : HostId) (f : Fn) : Statement (.initiateFlr h f) := fun _ _ hp _ => nomatch hp
theorem busMasterEnableClear (h : HostId) (f : Fn) : Statement (.busMasterEnableClear h f) := fun _ _ hp _ => nomatch hp
theorem busMasterEnableSet (h : HostId) (f : Fn) : Statement (.busMasterEnableSet h f) := fun _ _ hp _ => nomatch hp
theorem vfEnableClear (h : HostId) (f : Fn) : Statement (.vfEnableClear h f) := fun _ _ hp _ => nomatch hp
theorem vfEnableSet (h : HostId) (f : Fn) : Statement (.vfEnableSet h f) := fun _ _ hp _ => nomatch hp
theorem d3hotToD0 (h : HostId) (f : Fn) : Statement (.d3hotToD0 h f) := fun _ _ hp _ => nomatch hp
theorem msixUnmask (h : HostId) (f : Fn) (vector : Option (Fin 2048)) : Statement (.msixUnmask h f vector) := fun _ _ hp _ => nomatch hp
theorem configWrite (h : HostId) (f : Fn) (offset : BitVec 12) (v : Word) (be : BitVec 4) : Statement (.configWrite h f offset v be) := fun _ _ hp _ => nomatch hp
theorem hlinkIntxStatusClear (h : HostId) (v : Word) : Statement (.hlinkIntxStatusClear h v) := fun _ _ hp _ => nomatch hp
theorem barMemoryRequest (h : HostId) (r : BarReq) : Statement (.barMemoryRequest h r) := fun _ _ hp _ => nomatch hp
theorem ioOrAtomicRequest (h : HostId) (f : Fn) (posted : Bool) : Statement (.ioOrAtomicRequest h f posted) := fun _ _ hp _ => nomatch hp
theorem completionReceived (h : HostId) (tag : BitVec 14) (status : CplStatus) (data : List Byte) : Statement (.completionReceived h tag status data) := fun _ _ hp _ => nomatch hp
theorem completionTimeout (h : HostId) (tag : BitVec 14) : Statement (.completionTimeout h tag) := fun _ _ hp _ => nomatch hp
theorem tagQuarantineEnd (h : HostId) (tag : BitVec 14) : Statement (.tagQuarantineEnd h tag) := fun _ _ hp _ => nomatch hp
theorem pcieLinkError (h : HostId) (f : Fn) (e : LinkError) : Statement (.pcieLinkError h f e) := fun _ _ hp _ => nomatch hp
theorem txqDoorbell (h : HostId) (f : Fn) (q : BitVec 16) (v : Word) : Statement (.txqDoorbell h f q v) := fun _ _ hp _ => nomatch hp
theorem rxqDoorbell (h : HostId) (f : Fn) (q : BitVec 16) (v : Word) : Statement (.rxqDoorbell h f q v) := fun _ _ hp _ => nomatch hp
theorem cqDoorbell (h : HostId) (f : Fn) (q : BitVec 16) (v : Word) : Statement (.cqDoorbell h f q v) := fun _ _ hp _ => nomatch hp
theorem txDescriptorReadDone (h : HostId) (f : Fn) (q : BitVec 16) (d : TxDescr) : Statement (.txDescriptorReadDone h f q d) := fun _ _ hp _ => nomatch hp
theorem txDataReadDone (h : HostId) (f : Fn) (q : BitVec 16) (data : List Byte) (status : CplStatus) : Statement (.txDataReadDone h f q data status) := fun _ _ hp _ => nomatch hp
theorem cqCoalesceTimer (h : HostId) (f : Fn) (q : BitVec 16) : Statement (.cqCoalesceTimer h f q) := fun _ _ hp _ => nomatch hp
theorem rxFrameArrival (port : Lane) (frame : List Byte) (fcsOk : Bool) (fecOk : Bool) : Statement (.rxFrameArrival port frame fcsOk fecOk) := fun _ _ hp _ => nomatch hp
theorem pipelineAdmit (pipe : Pipe) : Statement (.pipelineAdmit pipe) := fun _ _ hp _ => nomatch hp
theorem recircAdmit (pipe : Pipe) : Statement (.recircAdmit pipe) := fun _ _ hp _ => nomatch hp
theorem lpmRecircReadmit (pipe : Pipe) : Statement (.lpmRecircReadmit pipe) := fun _ _ hp _ => nomatch hp
theorem cipherTileDone (pipe : Pipe) : Statement (.cipherTileDone pipe) := fun _ _ hp _ => nomatch hp
theorem gauntletKeyFetch (tile : Tile) (slot : BitVec 17) : Statement (.gauntletKeyFetch tile slot) := fun _ _ hp _ => nomatch hp
theorem schedSelect (root : SchedRoot) : Statement (.schedSelect root) := fun _ _ hp _ => nomatch hp
theorem timingWheelSlotDue (slot : Nat) : Statement (.timingWheelSlotDue slot) := fun _ _ hp _ => nomatch hp
theorem coarseSlotDue (slot : Nat) : Statement (.coarseSlotDue slot) := fun _ _ hp _ => nomatch hp
theorem dtimeStep (v : Word) : Statement (.dtimeStep v) := fun _ _ hp _ => nomatch hp
theorem dtimeRateWrite (v : Word) : Statement (.dtimeRateWrite v) := fun _ _ hp _ => nomatch hp
theorem rxDeliveryWriteDone (h : HostId) : Statement (.rxDeliveryWriteDone h) := fun _ _ hp _ => nomatch hp
theorem txFrameSent (port : Lane) : Statement (.txFrameSent port) := fun _ _ hp _ => nomatch hp
theorem ethApply (g : Group) : Statement (.ethApply g) := fun _ _ hp _ => nomatch hp
theorem ethApplyDone (g : Group) : Statement (.ethApplyDone g) := fun _ _ hp _ => nomatch hp
theorem anComplete (port : Lane) (partner : Option AnPage) : Statement (.anComplete port partner) := fun _ _ hp _ => nomatch hp
theorem anFailedRestart (port : Lane) : Statement (.anFailedRestart port) := fun _ _ hp _ => nomatch hp
theorem trainingDone (port : Lane) (ok : Bool) : Statement (.trainingDone port ok) := fun _ _ hp _ => nomatch hp
theorem alignmentDone (port : Lane) : Statement (.alignmentDone port) := fun _ _ hp _ => nomatch hp
theorem faultSequencesReceived (port : Lane) (k : FaultSeq) : Statement (.faultSequencesReceived port k) := fun _ _ hp _ => nomatch hp
theorem faultSequencesStop (port : Lane) : Statement (.faultSequencesStop port) := fun _ _ hp _ => nomatch hp
theorem alignmentLost (port : Lane) (k : AlignLoss) : Statement (.alignmentLost port k) := fun _ _ hp _ => nomatch hp
theorem alignmentReturnInHold (port : Lane) : Statement (.alignmentReturnInHold port) := fun _ _ hp _ => nomatch hp
theorem holdoffExpiry (port : Lane) : Statement (.holdoffExpiry port) := fun _ _ hp _ => nomatch hp
theorem ethLaneFault (lane : Lane) : Statement (.ethLaneFault lane) := fun _ _ hp _ => nomatch hp
theorem hodCarveApply : Statement (.hodCarveApply) := fun _ _ hp _ => nomatch hp
theorem hodCarveApplyDone : Statement (.hodCarveApplyDone) := fun _ _ hp _ => nomatch hp
theorem txHodWaitEnd (h : HostId) (f : Fn) (q : BitVec 16) : Statement (.txHodWaitEnd h f q) := fun _ _ hp _ => nomatch hp
theorem contextFetchDone (d : Domain) (n : ConnNo) (r : FetchResult) : Statement (.contextFetchDone d n r) := fun _ _ hp _ => nomatch hp
theorem evictionWriteDone (d : Domain) (n : ConnNo) (ok : Bool) : Statement (.evictionWriteDone d n ok) := fun _ _ hp _ => nomatch hp
theorem fetchNoVictimRetry (d : Domain) (n : ConnNo) : Statement (.fetchNoVictimRetry d n) := fun _ _ hp _ => nomatch hp
theorem lrdExecutionDone (d : Domain) (n : ConnNo) (psn : BitVec 32) : Statement (.lrdExecutionDone d n psn) := fun _ _ hp _ => nomatch hp
theorem lrdExecutionFailed (d : Domain) (n : ConnNo) (psn : BitVec 32) : Statement (.lrdExecutionFailed d n psn) := fun _ _ hp _ => nomatch hp
theorem lrdAckRx (d : Domain) (n : ConnNo) : Statement (.lrdAckRx d n) := fun _ _ hp _ => nomatch hp
theorem lrdNakRx (d : Domain) (n : ConnNo) : Statement (.lrdNakRx d n) := fun _ _ hp _ => nomatch hp
theorem lrdReadRspRx (d : Domain) (n : ConnNo) : Statement (.lrdReadRspRx d n) := fun _ _ hp _ => nomatch hp
theorem lrdProbeRx (d : Domain) (n : ConnNo) : Statement (.lrdProbeRx d n) := fun _ _ hp _ => nomatch hp
theorem lrdSqDoorbell (d : Domain) (n : ConnNo) (v : Word) (wrs : List WorkRequest) : Statement (.lrdSqDoorbell d n v wrs) := fun _ _ hp _ => nomatch hp
theorem lrdRqDoorbell (d : Domain) (n : ConnNo) (v : Word) (bufs : List RecvBuffer) : Statement (.lrdRqDoorbell d n v bufs) := fun _ _ hp _ => nomatch hp
theorem lrdRetransmitTimer (d : Domain) (n : ConnNo) : Statement (.lrdRetransmitTimer d n) := fun _ _ hp _ => nomatch hp
theorem lrdProbeTimer (d : Domain) (n : ConnNo) : Statement (.lrdProbeTimer d n) := fun _ _ hp _ => nomatch hp
theorem lrdAckDelayTimer (d : Domain) (n : ConnNo) : Statement (.lrdAckDelayTimer d n) := fun _ _ hp _ => nomatch hp
theorem lrdRnrTimer (d : Domain) (n : ConnNo) : Statement (.lrdRnrTimer d n) := fun _ _ hp _ => nomatch hp
theorem recentListExpiry (d : Domain) (n : ConnNo) : Statement (.recentListExpiry d n) := fun _ _ hp _ => nomatch hp
theorem nvmeSqDoorbell (h : HostId) (f : Fn) (q : BitVec 16) (v : Word) : Statement (.nvmeSqDoorbell h f q v) := fun _ _ hp _ => nomatch hp
theorem nvmeCqDoorbell (h : HostId) (f : Fn) (q : BitVec 16) (v : Word) : Statement (.nvmeCqDoorbell h f q v) := fun _ _ hp _ => nomatch hp
theorem nvmeCcEnSet (h : HostId) (f : Fn) (cc : Word) : Statement (.nvmeCcEnSet h f cc) := fun _ _ hp _ => nomatch hp
theorem nvmeCcEnClear (h : HostId) (f : Fn) : Statement (.nvmeCcEnClear h f) := fun _ _ hp _ => nomatch hp
theorem nvmeShutdown (h : HostId) (f : Fn) (abrupt : Bool) : Statement (.nvmeShutdown h f abrupt) := fun _ _ hp _ => nomatch hp
theorem nvmeIntmsIntmc (h : HostId) (f : Fn) (clear : Bool) (v : Word) : Statement (.nvmeIntmsIntmc h f clear v) := fun _ _ hp _ => nomatch hp
theorem nvmeCreateIoSq (h : HostId) (f : Fn) (e : Sqe) : Statement (.nvmeCreateIoSq h f e) := fun _ _ hp _ => nomatch hp
theorem nvmeCreateIoCq (h : HostId) (f : Fn) (e : Sqe) : Statement (.nvmeCreateIoCq h f e) := fun _ _ hp _ => nomatch hp
theorem nvmeDeleteIoSq (h : HostId) (f : Fn) (e : Sqe) : Statement (.nvmeDeleteIoSq h f e) := fun _ _ hp _ => nomatch hp
theorem nvmeDeleteIoCq (h : HostId) (f : Fn) (e : Sqe) : Statement (.nvmeDeleteIoCq h f e) := fun _ _ hp _ => nomatch hp
theorem nvmeGetLogPage (h : HostId) (f : Fn) (e : Sqe) : Statement (.nvmeGetLogPage h f e) := fun _ _ hp _ => nomatch hp
theorem nvmeIdentify (h : HostId) (f : Fn) (e : Sqe) : Statement (.nvmeIdentify h f e) := fun _ _ hp _ => nomatch hp
theorem nvmeAbort (h : HostId) (f : Fn) (e : Sqe) : Statement (.nvmeAbort h f e) := fun _ _ hp _ => nomatch hp
theorem nvmeSetFeatures (h : HostId) (f : Fn) (e : Sqe) : Statement (.nvmeSetFeatures h f e) := fun _ _ hp _ => nomatch hp
theorem nvmeGetFeatures (h : HostId) (f : Fn) (e : Sqe) : Statement (.nvmeGetFeatures h f e) := fun _ _ hp _ => nomatch hp
theorem nvmeAsyncEventRequest (h : HostId) (f : Fn) (e : Sqe) : Statement (.nvmeAsyncEventRequest h f e) := fun _ _ hp _ => nomatch hp
theorem nvmeDeviceSelfTest (h : HostId) (f : Fn) (e : Sqe) : Statement (.nvmeDeviceSelfTest h f e) := fun _ _ hp _ => nomatch hp
theorem nvmeFormatNvm (h : HostId) (f : Fn) (e : Sqe) : Statement (.nvmeFormatNvm h f e) := fun _ _ hp _ => nomatch hp
theorem nvmeFlush (h : HostId) (f : Fn) (e : Sqe) : Statement (.nvmeFlush h f e) := fun _ _ hp _ => nomatch hp
theorem nvmeWrite (h : HostId) (f : Fn) (e : Sqe) : Statement (.nvmeWrite h f e) := fun _ _ hp _ => nomatch hp
theorem nvmeRead (h : HostId) (f : Fn) (e : Sqe) : Statement (.nvmeRead h f e) := fun _ _ hp _ => nomatch hp
theorem nvmeWriteZeroes (h : HostId) (f : Fn) (e : Sqe) : Statement (.nvmeWriteZeroes h f e) := fun _ _ hp _ => nomatch hp
theorem nvmeDatasetManagement (h : HostId) (f : Fn) (e : Sqe) : Statement (.nvmeDatasetManagement h f e) := fun _ _ hp _ => nomatch hp
theorem nvmeUnsupportedCommand (h : HostId) (f : Fn) (e : Sqe) : Statement (.nvmeUnsupportedCommand h f e) := fun _ _ hp _ => nomatch hp
theorem writeInsertion (h : HostId) (f : Fn) (sq : BitVec 16) (cid : BitVec 16) (data : List Byte) : Statement (.writeInsertion h f sq cid data) := fun _ _ hp _ => nomatch hp
theorem wcacheWaitEnd (h : HostId) : Statement (.wcacheWaitEnd h) := fun _ _ hp _ => nomatch hp
theorem destageStart (ns : NsId) (seg : Nat) : Statement (.destageStart ns seg) := fun _ _ hp _ => nomatch hp
theorem destageDone (ns : NsId) (seg : Nat) (r : BackingResult) : Statement (.destageDone ns seg r) := fun _ _ hp _ => nomatch hp
theorem backingReadDone (h : HostId) (f : Fn) (sq : BitVec 16) (cid : BitVec 16) (r : BackingResult) (data : List Byte) : Statement (.backingReadDone h f sq cid r data) := fun _ _ hp _ => nomatch hp
theorem drivePresent (d : DrivePort) : Statement (.drivePresent d) := fun _ _ hp _ => nomatch hp
theorem driveSurpriseRemoval (d : DrivePort) (linkDrop : Bool) : Statement (.driveSurpriseRemoval d linkDrop) := fun _ _ hp _ => nomatch hp
theorem driveLinkUp (d : DrivePort) (t : LinkTraining) : Statement (.driveLinkUp d t) := fun _ _ hp _ => nomatch hp
theorem driveInitialised (d : DrivePort) (found : DriveIdentity) : Statement (.driveInitialised d found) := fun _ _ hp _ => nomatch hp
theorem driveInitTimeout (d : DrivePort) : Statement (.driveInitTimeout d) := fun _ _ hp _ => nomatch hp
theorem driveCommandTimeout (d : DrivePort) (cid : BitVec 16) (second : Bool) : Statement (.driveCommandTimeout d cid second) := fun _ _ hp _ => nomatch hp
theorem driveCfs (d : DrivePort) : Statement (.driveCfs d) := fun _ _ hp _ => nomatch hp
theorem driveCompletion (d : DrivePort) (cid : BitVec 16) (r : BackingResult) : Statement (.driveCompletion d cid r) := fun _ _ hp _ => nomatch hp
theorem driveAttnButton (d : DrivePort) : Statement (.driveAttnButton d) := fun _ _ hp _ => nomatch hp
theorem driveDmaViolation (d : DrivePort) (addr : DWord) (header : List Word) : Statement (.driveDmaViolation d addr header) := fun _ _ hp _ => nomatch hp
theorem bstatusTimeout (target : BitVec 12) (tag : Word) : Statement (.bstatusTimeout target tag) := fun _ _ hp _ => nomatch hp
theorem remoteDestageRetry (ns : NsId) (seg : Nat) : Statement (.remoteDestageRetry ns seg) := fun _ _ hp _ => nomatch hp
theorem selfTestStep (h : HostId) (f : Fn) (failed : Bool) : Statement (.selfTestStep h f failed) := fun _ _ hp _ => nomatch hp
theorem keyAlarmSource (code : Byte) (slot : BitVec 17) : Statement (.keyAlarmSource code slot) := fun _ _ hp _ => nomatch hp
theorem lookasideJobDone (tile : Fin 4) : Statement (.lookasideJobDone tile) := fun _ _ hp _ => nomatch hp
theorem lookasideSuspend (tile : Fin 4) : Statement (.lookasideSuspend tile) := fun _ _ hp _ => nomatch hp
theorem pageFetchDone (tile : Fin 4) (page : Nat) (data : List Byte) (tagOk : Bool) : Statement (.pageFetchDone tile page data tagOk) := fun _ _ hp _ => nomatch hp
theorem coreInstruction (cl : Cluster) (co : CoreIx) : Statement (.coreInstruction cl co) := fun _ _ hp _ => nomatch hp
theorem tfork (cl : Cluster) (co : CoreIx) (t : ThreadIx) (rd rs1 rs2 : RegNo) : Statement (.tfork cl co t rd rs1 rs2) := fun _ _ hp _ => nomatch hp
theorem tforkd (cl : Cluster) (co : CoreIx) (t : ThreadIx) (rd rs1 rs2 : RegNo) : Statement (.tforkd cl co t rd rs1 rs2) := fun _ _ hp _ => nomatch hp
theorem texit (cl : Cluster) (co : CoreIx) (t : ThreadIx) (rs1 : RegNo) : Statement (.texit cl co t rs1) := fun _ _ hp _ => nomatch hp
theorem tjoin (cl : Cluster) (co : CoreIx) (t : ThreadIx) (rd rs1 : RegNo) : Statement (.tjoin cl co t rd rs1) := fun _ _ hp _ => nomatch hp
theorem twait (cl : Cluster) (co : CoreIx) (t : ThreadIx) (rd rs1 : RegNo) : Statement (.twait cl co t rd rs1) := fun _ _ hp _ => nomatch hp
theorem tsignal (cl : Cluster) (co : CoreIx) (t : ThreadIx) (rd rs1 rs2 : RegNo) : Statement (.tsignal cl co t rd rs1 rs2) := fun _ _ hp _ => nomatch hp
theorem ttimer (cl : Cluster) (co : CoreIx) (t : ThreadIx) (rs1 : RegNo) : Statement (.ttimer cl co t rs1) := fun _ _ hp _ => nomatch hp
theorem tyield (cl : Cluster) (co : CoreIx) (t : ThreadIx) : Statement (.tyield cl co t) := fun _ _ hp _ => nomatch hp
theorem hrd (cl : Cluster) (co : CoreIx) (t : ThreadIx) (rd : RegNo) (ix : Fin 64) : Statement (.hrd cl co t rd ix) := fun _ _ hp _ => nomatch hp
theorem hwr (cl : Cluster) (co : CoreIx) (t : ThreadIx) (ix : Fin 64) (rs2 : RegNo) : Statement (.hwr cl co t ix rs2) := fun _ _ hp _ => nomatch hp
theorem hswap (cl : Cluster) (co : CoreIx) (t : ThreadIx) (rd : RegNo) (ix : Fin 64) (rs2 : RegNo) : Statement (.hswap cl co t rd ix rs2) := fun _ _ hp _ => nomatch hp
theorem hadd (cl : Cluster) (co : CoreIx) (t : ThreadIx) (rd : RegNo) (ix : Fin 64) (rs2 : RegNo) : Statement (.hadd cl co t rd ix rs2) := fun _ _ hp _ => nomatch hp
theorem hcas (cl : Cluster) (co : CoreIx) (t : ThreadIx) (rd : RegNo) (ix : Fin 64) (rs1 rs2 : RegNo) : Statement (.hcas cl co t rd ix rs1 rs2) := fun _ _ hp _ => nomatch hp
theorem chput (cl : Cluster) (co : CoreIx) (t : ThreadIx) (rs2 : RegNo) (ix : Fin 8) : Statement (.chput cl co t rs2 ix) := fun _ _ hp _ => nomatch hp
theorem chcommit (cl : Cluster) (co : CoreIx) (t : ThreadIx) (rd rs1 : RegNo) : Statement (.chcommit cl co t rd rs1) := fun _ _ hp _ => nomatch hp
theorem chrecv (cl : Cluster) (co : CoreIx) (t : ThreadIx) (rd : RegNo) (ix : Fin 8) (pop : Bool) : Statement (.chrecv cl co t rd ix pop) := fun _ _ hp _ => nomatch hp
theorem wdogKick (cl : Cluster) (co : CoreIx) (t : ThreadIx) : Statement (.wdogKick cl co t) := fun _ _ hp _ => nomatch hp
theorem threadTimerExpiry (cl : Cluster) (co : CoreIx) (t : ThreadIx) : Statement (.threadTimerExpiry cl co t) := fun _ _ hp _ => nomatch hp
theorem channelReplyArrival (cl : Cluster) (co : CoreIx) (t : ThreadIx) (k : Fin 4) : Statement (.channelReplyArrival cl co t k) := fun _ _ hp _ => nomatch hp
theorem hodAlloc (cl : Cluster) : Statement (.hodAlloc cl) := fun _ _ hp _ => nomatch hp
theorem hodFree (cl : Cluster) : Statement (.hodFree cl) := fun _ _ hp _ => nomatch hp
theorem hodLink (cl : Cluster) : Statement (.hodLink cl) := fun _ _ hp _ => nomatch hp
theorem hodNext (cl : Cluster) : Statement (.hodNext cl) := fun _ _ hp _ => nomatch hp
theorem dmaCopy (cl : Cluster) : Statement (.dmaCopy cl) := fun _ _ hp _ => nomatch hp
theorem tableRequest (cl : Cluster) : Statement (.tableRequest cl) := fun _ _ hp _ => nomatch hp
theorem lookasideJob (cl : Cluster) : Statement (.lookasideJob cl) := fun _ _ hp _ => nomatch hp
theorem emitPort (cl : Cluster) : Statement (.emitPort cl) := fun _ _ hp _ => nomatch hp
theorem emitHost (cl : Cluster) : Statement (.emitHost cl) := fun _ _ hp _ => nomatch hp
theorem puntRecv (cl : Cluster) : Statement (.puntRecv cl) := fun _ _ hp _ => nomatch hp
theorem puntCancel (cl : Cluster) : Statement (.puntCancel cl) := fun _ _ hp _ => nomatch hp
theorem puntDelivery (cl : Cluster) : Statement (.puntDelivery cl) := fun _ _ hp _ => nomatch hp
theorem waitDeadlock (cl : Cluster) (co : CoreIx) : Statement (.waitDeadlock cl co) := fun _ _ hp _ => nomatch hp
theorem watchdog (cl : Cluster) (co : CoreIx) : Statement (.watchdog cl co) := fun _ _ hp _ => nomatch hp
theorem dramRefresh : Statement (.dramRefresh) := fun _ _ hp _ => nomatch hp
theorem rdimmTempRead (ch : DramCh) (temp : Option Int) : Statement (.rdimmTempRead ch temp) := fun _ _ hp _ => nomatch hp
theorem dramAlert (ch : DramCh) (writeCrc : Bool) : Statement (.dramAlert ch writeCrc) := fun _ _ hp _ => nomatch hp
theorem dramReplayDone (ch : DramCh) : Statement (.dramReplayDone ch) := fun _ _ hp _ => nomatch hp
theorem dramRetrainDone (ch : DramCh) (ok : Bool) : Statement (.dramRetrainDone ch ok) := fun _ _ hp _ => nomatch hp
theorem dramRequest (r : DramReq) : Statement (.dramRequest r) := fun _ _ hp _ => nomatch hp
theorem dramReadEcc (ch : DramCh) (addr : DWord) (e : EccResult) : Statement (.dramReadEcc ch addr e) := fun _ _ hp _ => nomatch hp
theorem patrolScrub (ch : DramCh) (addr : DWord) (e : EccResult) : Statement (.patrolScrub ch addr e) := fun _ _ hp _ => nomatch hp
theorem pprRepair (ch : DramCh) (ok : Bool) : Statement (.pprRepair ch ok) := fun _ _ hp _ => nomatch hp
theorem parkEntry : Statement (.parkEntry) := fun _ _ hp _ => nomatch hp
theorem parkPhaseEnd (found : ParkFindings) : Statement (.parkPhaseEnd found) := fun _ _ hp _ => nomatch hp
theorem thermalSensorSample (temps : Vector Int 16) : Statement (.thermalSensorSample temps) := fun _ _ hp _ => nomatch hp
theorem avsDecision (slow fast : Bool) : Statement (.avsDecision slow fast) := fun _ _ hp _ => nomatch hp
theorem avsEmergency : Statement (.avsEmergency) := fun _ _ hp _ => nomatch hp
theorem regulatorPoll (reg : Fin 7) (r : PollResult) : Statement (.regulatorPoll reg r) := fun _ _ hp _ => nomatch hp
theorem hlinkRecCommit (h : HostId) : Statement (.hlinkRecCommit h) := fun _ _ hp _ => nomatch hp
theorem hlinkRecInstall (h : HostId) (slot : Fin 2) : Statement (.hlinkRecInstall h slot) := fun _ _ hp _ => nomatch hp
theorem hlinkRecAbort (h : HostId) : Statement (.hlinkRecAbort h) := fun _ _ hp _ => nomatch hp
theorem klbLineTooLong : Statement (.klbLineTooLong) := fun _ _ hp _ => nomatch hp
theorem help : Statement (.help) := fun _ _ hp _ => nomatch hp
theorem ver : Statement (.ver) := fun _ _ hp _ => nomatch hp
theorem status : Statement (.status) := fun _ _ hp _ => nomatch hp
theorem baud (n : Nat) : Statement (.baud n) := fun _ _ hp _ => nomatch hp
theorem authNonce : Statement (.authNonce) := fun _ _ hp _ => nomatch hp
theorem authLoad (offset : Nat) (data : List Byte) : Statement (.authLoad offset data) := fun _ _ hp _ => nomatch hp
theorem authCheck : Statement (.authCheck) := fun _ _ hp _ => nomatch hp
theorem authEnd : Statement (.authEnd) := fun _ _ hp _ => nomatch hp
theorem sessionExpiry : Statement (.sessionExpiry) := fun _ _ hp _ => nomatch hp
theorem klbRd (addr : Word) (n : Nat) : Statement (.klbRd addr n) := fun _ _ hp _ => nomatch hp
theorem klbWr (addr : Word) (v : Word) : Statement (.klbWr addr v) := fun _ _ hp _ => nomatch hp
theorem mrd (cl : Cluster) (co : CoreIx) (addr : DWord) (n : Nat) : Statement (.mrd cl co addr n) := fun _ _ hp _ => nomatch hp
theorem mwr (cl : Cluster) (co : CoreIx) (addr : DWord) (data : List Byte) : Statement (.mwr cl co addr data) := fun _ _ hp _ => nomatch hp
theorem klbHod (handle : Word) (offset : Nat) (n : Nat) : Statement (.klbHod handle offset n) := fun _ _ hp _ => nomatch hp
theorem threads (cl : Cluster) (co : CoreIx) : Statement (.threads cl co) := fun _ _ hp _ => nomatch hp
theorem regs (cl : Cluster) (co : CoreIx) (t : ThreadIx) : Statement (.regs cl co t) := fun _ _ hp _ => nomatch hp
theorem setreg (cl : Cluster) (co : CoreIx) (t : ThreadIx) (r : Option RegNo) (v : DWord) : Statement (.setreg cl co t r v) := fun _ _ hp _ => nomatch hp
theorem klbHalt (cl : Cluster) (co : Option CoreIx) (t : Option ThreadIx) : Statement (.klbHalt cl co t) := fun _ _ hp _ => nomatch hp
theorem klbResume (cl : Cluster) (co : Option CoreIx) (t : Option ThreadIx) : Statement (.klbResume cl co t) := fun _ _ hp _ => nomatch hp
theorem step (cl : Cluster) (co : CoreIx) (t : ThreadIx) (n : Nat) : Statement (.step cl co t n) := fun _ _ hp _ => nomatch hp
theorem kill (cl : Cluster) (co : CoreIx) (t : ThreadIx) : Statement (.kill cl co t) := fun _ _ hp _ => nomatch hp
theorem bpSet (cl : Cluster) (co : CoreIx) (addr : DWord) : Statement (.bpSet cl co addr) := fun _ _ hp _ => nomatch hp
theorem bpClr (cl : Cluster) (co : CoreIx) (addr : DWord) : Statement (.bpClr cl co addr) := fun _ _ hp _ => nomatch hp
theorem bpOn : Statement (.bpOn) := fun _ _ hp _ => nomatch hp
theorem bpOff : Statement (.bpOff) := fun _ _ hp _ => nomatch hp
theorem keys : Statement (.keys) := fun _ _ hp _ => nomatch hp
theorem imgOffset (v : Nat) : Statement (.imgOffset v) := fun _ _ hp _ => nomatch hp
theorem imgData (data : List Byte) : Statement (.imgData data) := fun _ _ hp _ => nomatch hp
theorem imgCommit : Statement (.imgCommit) := fun _ _ hp _ => nomatch hp
theorem imgInstall (slot : Fin 2) : Statement (.imgInstall slot) := fun _ _ hp _ => nomatch hp
theorem imgAbort : Statement (.imgAbort) := fun _ _ hp _ => nomatch hp
theorem powerRemoved : Statement (.powerRemoved) := fun _ _ hp _ => nomatch hp
theorem linkRecoveryExit (h : HostId) : Statement (.linkRecoveryExit h) := fun _ _ hp _ => nomatch hp
theorem driveLaneFaultInService (d : DrivePort) (lane : Fin 4) : Statement (.driveLaneFaultInService d lane) := fun _ _ hp _ => nomatch hp
theorem keyAlarmSourceCleared (code : Byte) : Statement (.keyAlarmSourceCleared code) := fun _ _ hp _ => nomatch hp
theorem chunkDone (ok : Bool) : Statement (.chunkDone ok) := fun _ _ hp _ => nomatch hp
theorem installDone (ok : Bool) : Statement (.installDone ok) := fun _ _ hp _ => nomatch hp
theorem loadDataReturn (cl : Cluster) (co : CoreIx) (t : ThreadIx) (store bad : Bool) : Statement (.loadDataReturn cl co t store bad) := fun _ _ hp _ => nomatch hp
theorem atsInvalidationRequest (h : HostId) (f : Fn) : Statement (.atsInvalidationRequest h f) := fun _ _ hp _ => nomatch hp

end Sys2Proof.Laws.Wf
end

