-- ==== Sys2Proof/Tests/Slice0.lean ====
section
/-! SUPPORT. Slice0.lean: the model's own tests: a witness for the hypotheses of every statement, the vectors of the spec's worked examples, and the ill-formed commands that WellFormed refuses. -/

namespace Sys2Proof.Tests
open Sys2Proof Sys2Proof.Machine

/-- A device in SERVICE with management firmware running. -/
def serving : State := { State.reset with
  glb := { Glb.reset with mode := .service, stage := .left, fwRuns := true, cause := .bootDone }
  clk := { Clk.reset with rootLock := true, refPresent := true } }
/-- The same device, in another mode. -/
def inMode (m : Mode) : State := { serving with glb := { serving.glb with mode := m } }
/-- A device in a stage of BOOT. -/
def booting (st : BootStage) : State := { serving with glb := { Glb.reset with stage := st } }
/-- Host link 0 up and attached. -/
def attached : State := modLink 0 (fun l => { l with state := 3, dlUp := true }) serving
/-- A command packet of the owner over SMBus, with these parameter words. -/
def packet (scope target len : Nat) (ws : List Nat) : Packet where
  chan := .owner
  vdm := none
  version := 1
  flags := 0
  scope := BitVec.ofNat 8 scope
  target := BitVec.ofNat 16 target
  tag := 7
  paramLen := BitVec.ofNat 16 len
  reservedSet := false
  epochBind := 0
  resultAddr := 0
  resultLen := 0
  params := ws.map fun w => BitVec.ofNat 32 w
  read := .ok
  writeOk := true
/-- The serving device with a recoat unit in a phase. -/
def withUnit (i : Fin 32) (ph : UnitPhase) : State := modUnit i (fun u => { u with phase := ph }) serving
/-- A packet over a host link's own ring, whose parameters were read. -/
def onRing (h : Fin 8) (v : Option (Fin 512)) (scope target len : Nat) (ws : List Nat) (n : Nat) : Packet :=
  { packet scope target len ws with chan := .ring ⟨h, v⟩, resultLen := BitVec.ofNat 32 n }
/-- Host link 0 attached, its host channel running with two commands posted. -/
def running : State := modRing ⟨0, none⟩ (fun r => { r with running := true, enable := true, sqCfg := 6, rqCfg := 6, eqCfg := 6, sqTail := 40 }) attached
/-- A queue of a kind put at an ID of host 0's PF0. -/
def withQueue (kind q : Nat) (s : State) : State := { s with queues := Tbl.put s.queues (qKey 0 .pf0 q) { Queue.empty with kind := kind } }
/-- Commands' parameters with a value at a word. -/
def wordsWith (n : Nat) (l : List (Nat × Nat)) : List Nat := (upFrom 0 n).map fun i => Tbl.getD l i 0

theorem witness_PowerResetAndBootStagesComplete :
    (serving.glb.powered = true ∧ 1000 ≤ 1000) ∧ (serving.glb.powered = true ∧ 99 < 100) ∧
    ((booting .inReset).glb.powered = true ∧ (booting .inReset).glb.stage = .inReset) ∧
    (let s := { serving with clk := { serving.clk with holdover := true } }; s.glb.powered = true ∧ s.clk.holdover = true) ∧
    (bootRuns (booting .rom) .rom = true ∧ (booting .rom).clk.holdover = false) ∧
    (bootRuns (booting .loader) .loader = true) ∧ (bootRuns (booting .mgmtFw) .mgmtFw = true) ∧
    (bootRuns (booting .finished) .finished = true ∧ (booting .finished).clk.holdover = false) := by
  refine ⟨by decide, by decide, by decide, by decide, by decide, by decide, by decide, by decide⟩

theorem witness_ReferenceClocksAndDrainComplete :
    (serving.glb.powered = true ∧ serving.clk.holdover = false) ∧
    (serving.glb.powered = true ∧ serving.clk.refPresent = true ∧ serving.clk.rootLock = true) ∧
    (let s := { serving with clk := { serving.clk with rootLock := false } }; s.glb.powered = true ∧ s.clk.refPresent = true ∧ s.clk.rootLock = false) ∧
    (let s := { serving with clk := { serving.clk with refPresent := false, holdover := true } }; s.glb.powered = true ∧ s.clk.refPresent = false ∧ s.clk.holdover = true) ∧
    (let s := { serving with clk := Clk.reset }; s.glb.powered = true ∧ s.clk.refPresent = false ∧ s.clk.holdover = false) ∧
    (serving.glb.powered = true ∧ serving.clk.ethRef = true) ∧
    (let s := { serving with clk := { serving.clk with ethRef := false } }; s.glb.powered = true ∧ s.clk.ethRef = false) ∧
    (serving.glb.powered = true ∧ serving.clk.hostRefs[(7 : HostId)] = true) ∧
    (let s := { serving with clk := { serving.clk with hostRefs := vset serving.clk.hostRefs 7 false } }; s.glb.powered = true ∧ s.clk.hostRefs[(7 : HostId)] = false) ∧
    ((inMode .quiesce).glb.mode = .quiesce ∧ (inMode .quiesce).glb.drainComplete = false ∧ cacheHasData (inMode .quiesce) = false ∧ lrdUnacked (inMode .quiesce) = false) := by
  refine ⟨by decide, by decide, by decide, by decide, by decide, by decide, by decide, by decide, by decide, by decide⟩

theorem witness_EpochBoundaryCommitsPendingUnits :
    (serving.glb.powered = true ∧ serving.glb.stage ≠ .inReset) ∧ (unitAt serving 31).phase ≠ .pending ∧
    (unitAt (withUnit 0 .pending) 0).phase = .pending ∧ (unitAt (withUnit 1 .pending) 1).phase = .pending ∧
    (unitAt (withUnit 2 .pending) 2).phase = .pending ∧ (unitAt (withUnit 3 .pending) 3).phase = .pending ∧ (unitAt (withUnit 4 .pending) 4).phase = .pending ∧
    (unitAt (withUnit 8 .pending) (unitBit (.spread 0))).phase = .pending ∧ (unitAt (withUnit 30 .pending) (unitBit (.schedHost 7))).phase = .pending ∧
    (unitAt (withUnit 31 .pending) (unitBit (.vfQuota 7))).phase = .pending := by
  refine ⟨by decide, by decide, by decide, by decide, by decide, by decide, by decide, by decide, by decide, by decide⟩
theorem witness_RecoatStepsComplete :
    (unitAt serving (unitBit .quota)).phase ≠ .grace ∧
    ((unitAt (withUnit 1 .grace) (unitBit .cls)).phase = .grace ∧ (RUnit.cls = .parse ∨ RUnit.cls = .cls)) ∧
    ((unitAt (withUnit 31 .grace) (unitBit (.vfQuota 7))).phase = .grace ∧ RUnit.vfQuota 7 ≠ .parse ∧ RUnit.vfQuota 7 ≠ .cls) ∧
    (unitAt serving (unitBit .quota)).phase ≠ .reload ∧ (unitAt (withUnit 4 .reload) (unitBit .quota)).phase = .reload ∧
    ((inMode .park).glb.mode = .boot ∨ (inMode .park).glb.mode = .park) ∧
    ((withUnit 4 .grace).glb.mode ≠ .boot ∧ (withUnit 4 .grace).glb.mode ≠ .park ∧ ∃ i ∈ maskUnits 0x10, validUnit i = true ∧ unitInGrace (unitAt (withUnit 4 .grace) i) = true) ∧
    (serving.glb.mode ≠ .boot ∧ serving.glb.mode ≠ .park ∧ ∀ i ∈ maskUnits 0x10, validUnit i = true → unitInGrace (unitAt serving i) = false) ∧
    parseStagedAddr 0x03000108 = false ∧
    (parseStagedAddr 0x03000104 = true ∧ ((unitAt (withUnit 0 .grace) 0).phase = .grace ∨ (unitAt (withUnit 0 .grace) 0).phase = .reload)) ∧
    (parseStagedAddr 0x0302FFFC = true ∧ (unitAt (withUnit 0 .pending) 0).phase = .pending) ∧
    (parseStagedAddr 0x03000200 = true ∧ ((unitAt serving 0).phase = .idle ∨ (unitAt serving 0).phase = .armed)) ∧
    (serving.glb.fwRuns = true ∧ isLost serving 1 15 = false ∧ (1, 15) ∉ serving.bist.swaps) ∧ State.reset.glb.fwRuns = false := by
  refine ⟨by decide, by decide, by decide, by decide, by decide, by decide, ⟨by decide, by decide, 4, by decide⟩, by decide, by decide, by decide, by decide, by decide, by decide, by decide⟩

theorem witness_ControlSpaceReadsAndWrites :
    (0x23 : Word).toNat % 4 ≠ 0 ∧ Tbl.find { serving.epochs with latch := [(0x20, 5)] }.latch 0x20 = some 5 ∧ Tbl.find serving.epochs.latch 0x20 = none := by
  refine ⟨by decide, by decide, by decide⟩

/-- The serving device with a long operation of the owner. -/
def withOp : State := { serving with ops := [{ chan := .owner, serial := 1, opcode := 0x0115, tag := 5, vdm := none, stepsDone := 0, stepsTotal := 0, kind := .epochWait 9, committed := false, resultAddr := 0, resultLen := 0, orphan := false, notes := [] }] }
theorem witness_DeviceAndModeCommandsComplete :
    accepts deviceInfoDef (packet 0 0 0 []) serving = true ∧ accepts modeGetDef (packet 0 0 0 []) (inMode .park) = true ∧
    accepts quiesceDef (packet 0 0 0 []) (inMode .degraded) = true ∧ accepts resumeDef { packet 0 0 0 [] with flags := 1, epochBind := 2 } (inMode .quiesce) = true ∧
    accepts maintainDef (packet 0 0 0 []) { inMode .quiesce with glb := { (inMode .quiesce).glb with drainComplete := true } } = true ∧
    accepts parkDef { packet 0 0 1 [1, 0] with flags := 4 } (inMode .quiesce) = true ∧ accepts parkDef (packet 0 0 1 [0, 0]) (inMode .maintenance) = true ∧
    accepts deviceResetDef (packet 0 0 0 []) serving = true ∧ accepts maintOnNextBootDef (packet 0 0 1 [1, 0]) serving = true ∧
    accepts degradationReadDef (packet 0 0 0 []) (inMode .boot) = true ∧ accepts ownerPathSetDef (packet 0 0 1 [0x107, 0]) serving = true := by
  refine ⟨by decide, by decide, by decide, by decide, by decide, by decide, by decide, by decide, by decide, by decide, by decide⟩
theorem witness_EpochRecoatAndOperationCommandsComplete :
    accepts epochGetDef (packet 0 0 0 []) serving = true ∧ accepts epochSetLengthDef (packet 0 0 1 [125000, 0]) serving = true ∧
    (accepts epochWaitDef (packet 0 0 1 [0, 0]) serving = true ∧ (packet 0 0 1 [0, 0]).d 0 ≤ serving.epochs.epoch) ∧
    (accepts epochWaitDef (packet 0 0 1 [16777216, 0]) serving = true ∧ serving.epochs.epoch < (packet 0 0 1 [16777216, 0]).d 0) ∧
    accepts recoatArmDef (packet 0 0 1 [0x1F, 0]) serving = true ∧ accepts recoatDisarmDef (packet 0 0 1 [0x10, 0]) (withUnit 4 .armed) = true ∧
    (accepts undercoatResetDef (packet 0 0 1 [0x1C, 0]) serving = true ∧ (maskUnits ((packet 0 0 1 [0x1C, 0]).w 0)).filter isBank = []) ∧
    (accepts undercoatResetDef (packet 0 0 1 [0x1F, 0]) serving = true ∧ (maskUnits ((packet 0 0 1 [0x1F, 0]).w 0)).filter isBank ≠ []) ∧
    (accepts opQueryDef (packet 0 0 1 [1, 0]) withOp = true ∧ (namedOp (packet 0 0 1 [1, 0]) withOp).isSome = true) ∧
    (accepts opCancelDef (packet 0 0 1 [1, 0]) withOp = true ∧ (namedOp (packet 0 0 1 [1, 0]) withOp).isSome = true) ∧
    (withOp.glb.fwRuns = true ∧ (findOp withOp 1).isSome = true) ∧ findOp serving 1 = none := by
  refine ⟨by decide, by decide, by decide, by decide, by decide, by decide, by decide, by decide, by decide, by decide, by decide, by decide⟩

/-- An event of the table happens: what the state after it says. -/
def after (c : Instr) (s : State) (f : State → Bool) : Bool := match exec c s with
  | .next t => f t
  | _ => false
theorem witness_StepRunsTheFrontCommand : after .rootPllLock { State.reset with pending := [] } (fun _ => true) = true := by decide
theorem witness_IdleStepLetsFencedCommandsGoOrTimePass :
    (let s := { serving with fenced := [(.owner, .help)] }; s.pending = [] ∧ (s.fenced.find? fun e => (opsOf s e.1).isEmpty).map (·.1) = some .owner) ∧
    (let s := { withOp with fenced := [(.owner, .help)] }; s.pending = [] ∧ (∀ e ∈ s.fenced, opsOf s e.1 ≠ []) ∧ s.glb.powered = true) ∧
    (let s := { serving with glb := { serving.glb with powered := false } }; s.pending = [] ∧ (∀ e ∈ s.fenced, opsOf s e.1 ≠ []) ∧ s.glb.powered = false) := by
  refine ⟨by decide, by decide, by decide⟩
theorem witness_EveryCommandChangesOnlyItsParts : after .epochBoundary serving (fun _ => true) = true := by decide
theorem witness_CommandsLeaveTheQueueAndTheClock : after .coreRefLost { serving with pending := [.help], now := 5 } (fun t => t.pending == [.help] && t.now == 5) = true := by decide
theorem witness_ModeChangesOnlyByItsEvents : after .coreRefLost serving (fun t => t.glb.mode == .service) = true := by decide
theorem witness_EpochCounterOnlyStepsAtBoundaries :
    after .epochBoundary serving (fun _ => true) = true ∧ after .coreRefLost serving (fun t => t.epochs.epoch == 0) = true ∧
    after (.devRstNAssert 1000) { serving with epochs := { serving.epochs with epoch := 9 } } (fun t => t.epochs.epoch == 0 && t.glb.mode == .boot) = true := by
  refine ⟨by decide, by decide, rfl⟩
theorem witness_FusesNeverStepBack : (0 ≤ serving.nv.minVersion ∧ 3 &&& serving.nv.provisioned = 3 ∧ 0 &&& serving.nv.revoked = 0) ∧
    (match step { serving with pending := [.epochBoundary] } with | .next _ => true | _ => false) = true := by
  refine ⟨by decide, by decide⟩
theorem witness_AcceptedPacketsAreCarriedOutAndAnswered :
    packetOf (.deviceInfo (packet 0 0 0 [])) = some (deviceInfoDef, packet 0 0 0 []) ∧ accepts deviceInfoDef (packet 0 0 0 []) serving = true := by
  refine ⟨rfl, by decide⟩
theorem witness_RefusedPacketsHaveNoEffectButTheReply :
    let p := { packet 0 0 0 [] with version := 2 }
    packetOf (.deviceInfo p) = some (deviceInfoDef, p) ∧ takes p serving = true ∧ refusal deviceInfoDef p (onceTaken p serving) = some .badOpcode := by
  refine ⟨rfl, by decide, by decide⟩
theorem witness_FirstRefusalFollowsTheOrder : firstRefusal [(true, .busy), (false, .badOpcode), (true, .badParam)] = some .badParam ∧ firstRefusal [(false, .busy)] = none := by
  refine ⟨by decide, by decide⟩
/-- The owner's packet with FENCE, on the device whose owner has a long operation. -/
def fencePacket : Packet := { packet 0 0 0 [] with flags := 8 }
theorem witness_PacketsThatAreNotTaken :
    let p := packet 0 0 0 []
    let r := onRing 0 none 0 0 0 [] 0
    let c : RingChan := ⟨0, none⟩
    packetOf (.epochGet p) = some (epochGetDef, p) ∧
    ownerNotReady p State.reset = true ∧ ownerNotReady { p with vdm := some 3 } serving = true ∧
    (ownerNotReady fencePacket withOp = false ∧ fenceHolds fencePacket withOp = true ∧ fencedOn withOp .owner < 32) ∧
    (let s := { withOp with fenced := List.replicate 31 (.owner, .help) }; ownerNotReady p s = false ∧ fenceHolds p s = true ∧ fencedOn s .owner < 32) ∧
    (let s := { withOp with fenced := List.replicate 32 (.owner, .help) }; ownerNotReady p s = false ∧ fenceHolds p s = true ∧ 32 ≤ fencedOn s .owner) ∧
    ringNotReady c r serving = true ∧
    (let s := { running with fenced := [(.ring c, .help)] }; ringNotReady c r s = false ∧ fenceHolds r s = true) ∧
    (ringNotReady c { r with read := .headerFailed } running = false ∧ fenceHolds { r with read := .headerFailed } running = false) ∧
    (ringNotReady c { r with read := .paramsFailed } running = false ∧ fenceHolds { r with read := .paramsFailed } running = false) := by
  refine ⟨rfl, by decide, by decide, by decide, by decide, by decide, by decide, by decide, by decide, by decide⟩
theorem witness_RepliesCarryStatusTagAndEpoch : (packet 0 0 0 []).chan = .owner ∧ (onRing 0 none 0 0 0 [] 0).chan = .ring ⟨0, none⟩ := by
  refine ⟨by decide, by decide⟩
theorem witness_CommonRefusals :
    let p := packet 0 0 0 []
    let v := onRing 0 (some 1) 2 0 0 [] 0
    ({ p with version := 2 } : Packet).version ≠ 1 ∧
    ((∀ e ∈ deviceInfoDef.checks (namedBy (packet 0 0 1 [0, 0])) (packet 0 0 1 [0, 0]) serving, e.1 = true → 1 ≤ e.2.rank) ∧ deviceInfoDef.len (packet 0 0 1 [0, 0]).len = false) ∧
    504 < (packet 0 0 505 []).len ∧
    ((∀ e ∈ modeGetDef.checks (namedBy v) v serving, e.1 = true → 2 ≤ e.2.rank) ∧ v.version = 1 ∧ ¬ (504 < v.len ∨ modeGetDef.len v.len = false) ∧ modeGetDef.marked v.chan = false) ∧
    ((∀ e ∈ epochGetDef.checks (namedBy p) p State.reset, e.1 = true → 3 ≤ e.2.rank) ∧ p.version = 1 ∧ ¬ (504 < p.len ∨ epochGetDef.len p.len = false) ∧
      ¬ (epochGetDef.marked p.chan = false ∨ scopeForbidden p = true) ∧ modeWrong epochGetDef.gate p.chan State.reset = true) ∧
    (∀ b : Bool, let q := if b then { p with reservedSet := true } else { p with flags := 16 }
      (∀ e ∈ epochGetDef.checks (namedBy q) q serving, e.1 = true → 4 ≤ e.2.rank) ∧ q.version = 1 ∧ ¬ (504 < q.len ∨ epochGetDef.len q.len = false) ∧
      ¬ (epochGetDef.marked q.chan = false ∨ scopeForbidden q = true) ∧ modeWrong epochGetDef.gate q.chan serving = false ∧ (q.reservedSet = true ∨ 16 ≤ q.flags.toNat)) := by
  refine ⟨by decide, by decide, by decide, by decide, by decide, by decide⟩

theorem witness_QuotaParseAndClassifyCommandsComplete :
    accepts quotaSetDef (packet 1 0x4400 1 [1, 90000]) serving = true ∧
    (accepts quotaGetDef (packet 1 0x4400 0 []) serving = true ∧ longFits (packet 1 0x4400 0 []) 36 = true) ∧
    (accepts quotaGetDef (onRing 0 none 1 0 0 [] 144) running = true ∧ longFits (onRing 0 none 1 0 0 [] 144) 36 = true) ∧
    accepts vfQuotaSetDef (packet 2 0x8005 1 [1, 0xFFFFFFFF]) serving = true ∧ accepts hostDefaultsSetDef (packet 1 0x5C00 2 [0, 0, 0, 0]) serving = true ∧
    accepts resourceUsageDef (packet 0 0 1 [0, 0]) serving = true ∧ accepts hostVfLimitDef (packet 1 0x4000 1 [0x01000100, 0]) serving = true ∧
    accepts parseNodeWriteDef (packet 0 0 33 [0x0101, 0]) serving = true ∧
    (accepts parseNodeReadDef { packet 0 0 1 [0xFF01, 0] with flags := 2 } (inMode .quiesce) = true ∧ longFits (packet 0 0 1 [0xFF01, 0]) 64 = true) ∧
    accepts parseMalformedSetDef (packet 0 0 2 [0x01010701, 0xFFFF, 100000, 8191]) serving = true ∧
    accepts classRuleWriteDef (packet 0 0 22 [1, 32767, 0x8000FFFF, 0x3FFFF]) serving = true ∧
    (accepts classRuleReadDef (packet 0 0 1 [1, 32767]) serving = true ∧ longFits (packet 0 0 1 [1, 32767]) 42 = true) ∧
    accepts classProfileSetDef (packet 0 0 9 [0xFF01, 0, 0x80000000]) serving = true ∧ accepts classActionWriteDef (packet 0 0 3 [0x3FFFF, 0, 0x90000000, 0, 0, 0]) serving = true := by
  refine ⟨by decide, by decide, by decide, by decide, by decide, by decide, by decide, by decide, by decide, by decide, by decide, by decide, by decide, by decide⟩
theorem witness_DramCarveSet : accepts dramCarveSetDef (packet 0 0 1 [1, 1]) { inMode .quiesce with dram := { (inMode .quiesce).dram with order := [0, 1], perChannel := 16 }, glb := { (inMode .quiesce).glb with drainComplete := true } } = true := by decide

/-- One exact-match entry for key 0. -/
def withEntry : State := (emInsert 0 [0x80000000, 0, 0, 0] serving).2.2
/-- Routes of lengths 17 to 24 in one /16 block. -/
def withRoutes : State := [17, 18, 19, 20, 24].foldl (fun s l => modLpm false (fun t => refreshFilter false (10 * 2 ^ 24) l { t with routes := t.routes ++ [⟨10 * 2 ^ 24, l, false, false, l, some l⟩] }) s) serving
theorem witness_TableCommandsComplete :
    accepts emInsertDef (packet 0 0 8 (wordsWith 16 [(12, 0x80000000)])) serving = true ∧
    accepts emUpdateDef (packet 0 0 8 (wordsWith 16 [(12, 0x90000000)])) withEntry = true ∧
    accepts emDeleteDef (packet 0 0 5 []) withEntry = true ∧ (accepts emLookupDef (packet 0 0 5 []) withEntry = true ∧ longFits (packet 0 0 5 []) 18 = true) ∧
    accepts emRehashDef (packet 0 0 2 [0, 0, 0, 0]) serving = true ∧ accepts lpmDeleteDef (packet 0 0 3 (wordsWith 6 [(0, 24 * 256), (2, 10)])) withRoutes = true ∧
    (accepts lpmAddDef (packet 0 0 3 (wordsWith 6 [(1, 0x3FFFF)])) serving = true) ∧
    (accepts lpmLookupDef (packet 0 0 3 (wordsWith 6 [(2, 10)])) withRoutes = true ∧ longFits (packet 0 0 3 []) 4 = true) ∧
    accepts lpmLeafPushDef (packet 0 0 1 [0, 0xA00]) withRoutes = true ∧
    (accepts tableStatsDef (packet 0 0 1 [0, 0]) serving = true ∧ longFits (packet 0 0 1 []) 9 = true) ∧ accepts tableStatsDef (packet 0 0 1 [1, 0]) serving = true ∧
    accepts tableStatsDef (packet 0 0 1 [2, 0]) serving = true := by
  refine ⟨by decide, by decide, by decide, by decide, by decide, by decide, by decide, by decide, by decide, by decide, by decide, by decide⟩
/-- Host 0 with a CQ 0 and a TXQ 5. -/
def withQueues : State := withQueue 3 0 (withQueue 1 5 running)
/-- The parameters that create one CQ. -/
def oneCq : List Nat := wordsWith 8 [(0, 1), (2, 0x63)]
theorem witness_queueCreate : accepts queueCreateDef (onRing 0 none 1 0xC000 4 oneCq 0) running = true := by
  have hf : (freeIds (onceTaken (onRing 0 none 1 0xC000 4 oneCq 0) running) 0 .pf0 1).isSome = true :=
    pickFrom_isSome (i := 7) (by decide) (by decide)
  refine accepts_of_checks (by decide) (by decide) ?_
  intro e he
  simp only [queueCreateDef, List.mem_cons, List.not_mem_nil, or_false] at he
  rcases he with rfl | rfl | rfl
  · decide
  · decide
  · rw [Bool.or_eq_false_iff]
    refine ⟨by decide, ?_⟩
    exact (by simpa using hf : (freeIds (onceTaken (onRing 0 none 1 0xC000 4 oneCq 0) running) 0 .pf0 1).isNone = false)
/-- A 64-entry indirection table 0 on host 0. -/
def withTable : State := spreadUnder 0 id (modUnits 0 (fun u => { u with spread := { u.spread with top := { u.spread.top with tables := [(0, ⟨6, 0, 0, []⟩)] } } }) serving)
theorem witness_SchedulerSpreaderAndQueueCommandsComplete :
    accepts schedNodeSetDef (packet 1 0x4000 3 (wordsWith 6 [(0, 21), (3, 5)])) serving = true ∧
    (accepts schedNodeGetDef (packet 1 0x4000 1 [21, 0]) serving = true ∧ longFits (packet 1 0x4000 1 [21, 0]) 1000 = true) ∧
    accepts hostShareSetDef (packet 0 0 3 (wordsWith 6 [(2, 900), (1, 100)])) serving = true ∧
    accepts policerSetDef (packet 0 0 2 (wordsWith 4 [(0, 32903), (1, 2000000), (2, 2048)])) serving = true ∧
    accepts classMapSetDef (packet 0 0 3 (wordsWith 6 [(0, 1), (2, 0xFFF)])) serving = true ∧
    accepts spreadSetDef (packet 1 0x4000 10 (wordsWith 20 [(0, 0xFF000005)])) serving = true ∧
    accepts indirectionSetDef (packet 1 0x4000 2 (wordsWith 4 [(0, 6 * 256), (1, 0x40000), (2, 0)])) serving = true ∧
    (accepts spreadLoadReadDef (packet 1 0x4000 1 [0x80000000, 64]) withTable = true ∧ longFits (packet 1 0x4000 1 [0, 64]) 128 = true) ∧
    accepts queueDestroyDef (onRing 0 none 1 0xC000 1 [5, 0] 0) withQueues = true ∧
    (accepts queueQueryDef (onRing 0 none 1 0xC000 1 [0, 0] 400) withQueues = true ∧ longFits (onRing 0 none 1 0xC000 1 [0, 0] 400) (queueWords { Queue.empty with kind := 3 }).length = true) := by
  refine ⟨by decide, by decide, by decide, by decide, by decide, by decide, by decide, by decide, by decide, by decide⟩

/-- A connection of host 0's PF0. -/
def aConn : Conn := freshConn serving (packet 0 0 0 []) (cfgOf serving (packet 0 0 0 []) 1000 0 0 0) (some 0) 1000 1000 false 0
/-- Connection 5 of a host or of the storage domain. -/
def withConn (dom : Nat) (c : Conn) (s : State) : State := modCtx (fun x => { x with conns := [(dom * 2 ^ 24 + 5, c)] }) s
/-- Host 0's ring with connection 5. -/
def connected : State := withConn 0 aConn running
/-- The parameters that name connection 5. -/
def five : List Nat := [5, 0]
/-- A port that starts at lane 0, the default groups of host 0, and a CQ. -/
def onPort : State := defaultGroups 0 (withQueue 3 0 { running with eth := { running.eth with ports := vmod running.eth.ports 0 fun x => { x with width := 1 } } })
/-- The parameters that create connection 5 of an owner. -/
def newConn : List Nat := wordsWith 48 [(0, 5), (1, 6), (3, 0x40), (4, 0x66)]
theorem witness_connCreate : accepts connCreateDef (onRing 0 none 1 0xC000 24 newConn 0) onPort = true := by
  refine accepts_of_checks (by decide) (by decide) ?_
  intro e he
  simp only [connCreateDef, List.mem_cons, List.not_mem_nil, or_false] at he
  rcases he with rfl | rfl | rfl | rfl | rfl | rfl
  · decide
  · decide
  · decide
  · decide
  · rw [Bool.or_eq_false_iff]
    refine ⟨by decide, ?_⟩
    have : (twoIds (onceTaken (onRing 0 none 1 0xC000 24 newConn 0) onPort) 0 .pf0).isSome = true := by
      unfold twoIds
      split
      · rename_i h
        have k := pickFrom_isSome (start := freshNat (onceTaken (onRing 0 none 1 0xC000 24 newConn 0) onPort)) (n := queueIds .pf0)
          (p := fun i => (queue (onceTaken (onRing 0 none 1 0xC000 24 newConn 0) onPort) 0 .pf0 i).isNone) (i := 7) (by decide) (by decide)
        rw [h] at k; cases k
      · rename_i a h
        rw [Option.isSome_map]
        by_cases ha : a = 7
        · exact pickFrom_isSome (i := 8) (by decide) (by subst ha; decide)
        · refine pickFrom_isSome (i := 7) (by decide) ?_
          rw [Bool.and_eq_true]
          exact ⟨by simpa using fun q => ha q.symm, by decide⟩
    exact (by simpa using this : (twoIds (onceTaken (onRing 0 none 1 0xC000 24 newConn 0) onPort) 0 .pf0).isNone = false)
  · rw [Bool.or_eq_false_iff]
    refine ⟨?_, by decide⟩
    unfold homeFull
    rw [Bool.or_eq_false_iff]
    refine ⟨?_, by decide⟩
    have : (freeHome (onceTaken (onRing 0 none 1 0xC000 24 newConn 0) onPort) false 0).isSome = true := by
      unfold freeHome
      exact pickFrom_isSome (i := 7) (by decide) (by decide)
    exact (by simpa using this : (freeHome (onceTaken (onRing 0 none 1 0xC000 24 newConn 0) onPort) false 0).isNone = false)
theorem witness_ConnectionCommandsComplete :
    accepts connModifyDef (onRing 0 none 1 0 4 [5, 2] 0) connected = true ∧ accepts connDestroyDef (onRing 0 none 1 0 1 five 0) connected = true ∧
    (accepts connQueryDef (onRing 0 none 1 0 1 five 48) connected = true ∧ longFits (onRing 0 none 1 0 1 five 48) 12 = true) ∧
    accepts ctxPinDef (onRing 0 none 1 0 1 five 0) connected = true ∧ accepts ctxPinDef (packet 1 0x4000 1 five) (withConn 0 { aConn with resident := true } serving) = true ∧
    accepts ctxUnpinDef (onRing 0 none 1 0 1 five 0) (withConn 0 { aConn with pinned := true } running) = true ∧
    accepts ctxMigrateDef (packet 1 0x4000 2 [0, 16777215, 1, 0]) serving = true ∧ accepts hostBackingSetDef (onRing 0 none 1 0 2 [0, 1, 0, 256] 0) running = true ∧
    (accepts pathWriteDef (packet 0 0 4 (wordsWith 8 [(1, 1000000), (2, 2000000)])) serving = true ∧ pathDeletes (packet 0 0 4 (wordsWith 8 [(1, 1000000), (2, 2000000)])) = false) := by
  refine ⟨by decide, by decide, by decide, by decide, by decide, by decide, by decide, by decide, by decide⟩
/-- A path entry stands for a prefix. -/
def withPath : State := pathPut ((pathPlace serving (pathSet serving false [10, 0, 0])).getD 0) { lock := true, v6 := false, samples := 0, baseRtt := 1000, initRate := 9, prefix_ := [10, 0, 0] } serving
theorem witness_paths :
    (accepts pathWriteDef (packet 0 0 4 (wordsWith 8 [(4, 10)])) withPath = true ∧ pathDeletes (packet 0 0 4 (wordsWith 8 [(4, 10)])) = true) ∧
    (accepts pathWriteDef (packet 0 0 4 (wordsWith 8 [(1, 1000), (4, 10)])) withPath = true ∧ (pathFind withPath false [10, 0, 0]).isSome = true) ∧
    (accepts pathReadDef (packet 0 0 4 (wordsWith 8 [(4, 10)])) withPath = true ∧ longFits (packet 0 0 4 []) 16 = true) ∧
    accepts xportConfigDef (packet 0 0 4 (wordsWith 8 [(1, 1000000)])) serving = true := by
  refine ⟨by decide, by decide, by decide, by decide⟩

/-- Slot 9 holds an active key of a use; host 0 is attached. -/
def withKey (use : Nat) (owner : Option Nat) (s : State) : State := { s with crypt := { s.crypt with slots := [(9, { state := 2, use := use, persist := false, hdrSlot := 0, owner := owner, tagFails := 0, imports := 1, material := List.replicate 64 3 })] } }
/-- Namespace 4 of host 0 with one unit of backing on drive 2, which is ready. -/
def withNs (att : Option (Nat × Nat)) (ext : List Extent) : State :=
  modDrive 2 (fun d => { d with state := 3, present := true }) (modNvme (fun n => { n with namespaces := [(4, { host := 0, block := 512, size := unitBytes / 512, key := some 9, extents := ext, attached := att, busy := 0, atomic := 512 })] }) (withKey 3 none attached))
/-- One extent on target 7. -/
def anExtent : Extent := { remote := true, place := 7, nsid := 1, start := 0, units := 1, absent := false, serial := [], nguid := [] }
/-- The same device, where target 7 is connection 5. -/
def withTarget : State := withConn 8 { aConn with owner := none } (modNvme (fun n => { n with targets := [(7, { conn := 8 * 2 ^ 24 + 5, port := 0, atomic := 0, timeout := 2000, maxOut := 256, nextTag := 0, cmds := [], waiting := [] })] }) (withNs none []))
theorem witness_StorageCommandsComplete :
    accepts nsCreateDef (packet 0 0 3 (wordsWith 6 [(0, 5), (2, unitBytes / 512), (4, 9)])) (withKey 3 none serving) = true ∧
    accepts nsBackingSetDef (packet 0 0 4 (wordsWith 8 [(0, 65540), (2, 0x80000007), (6, 1)])) withTarget = true ∧
    accepts nsAttachDef (packet 2 0xC001 1 [4, 0]) (withNs none [anExtent]) = true ∧ accepts nsDetachDef (packet 2 0xC001 1 [4, 1]) (withNs (some (1, 1)) []) = true ∧
    accepts nsDeleteDef (packet 0 0 1 [4, 0]) (withNs none []) = true ∧ accepts driveInfoDef (packet 0 0 1 [2, 0]) (withNs none []) = true ∧
    accepts driveFormatDef (packet 0 0 2 [2, 0, 0, 0]) (withNs none []) = true ∧
    (accepts cacheFlushDef (packet 0 0 1 [0x1010000, 0]) serving = true ∧ (packet 0 0 1 [0x1010000, 0]).b 0 24 = true) ∧
    (accepts cacheFlushDef (onRing 0 none 1 0 1 [0x10000, 0] 0) running = true ∧ (onRing 0 none 1 0 1 [0x10000, 0] 0).b 0 24 = false) ∧
    accepts sanitizeDef (packet 0 0 1 [0x20002, 0]) (withNs none []) = true ∧ accepts sanitizeDef (packet 0 0 1 [0x10004, 0]) (withNs none []) = true ∧
    (accepts remoteTargetSetDef (packet 0 0 26 (wordsWith 52 [(48, 0x10007)])) withTarget = true ∧ rtDelete (packet 0 0 26 (wordsWith 52 [(48, 0x10007)])) = true) := by
  refine ⟨by decide, by decide, by decide, by decide, by decide, by decide, by decide, by decide, by decide, by decide, by decide, by decide⟩
theorem witness_remoteTargetSet :
    accepts remoteTargetSetDef (packet 0 0 26 (wordsWith 52 [(48, 8), (0, 5), (1, 6), (3, 0x40)])) onPort = true ∧ rtDelete (packet 0 0 26 (wordsWith 52 [(48, 8), (0, 5), (1, 6), (3, 0x40)])) = false := by
  refine ⟨by decide, by decide⟩

/-- FORCE set. -/
def forced (p : Packet) : Packet := { p with flags := 4 }
theorem witness_keyAllocate : accepts keyAllocateDef (packet 0 0 1 [64, 0]) serving = true := by
  have hf : (freeSlots (onceTaken (packet 0 0 1 [64, 0]) serving) 64).isSome = true := pickFrom_isSome (i := 9) (by decide) (by decide)
  refine accepts_of_checks (by decide) (by decide) ?_
  intro e he
  simp only [keyAllocateDef, List.mem_cons, List.not_mem_nil, or_false] at he
  rcases he with rfl | rfl
  · decide
  · rw [Bool.or_eq_false_iff]
    exact ⟨by decide, (by simpa using hf : (freeSlots (onceTaken (packet 0 0 1 [64, 0]) serving) 64).isNone = false)⟩
theorem witness_keyToPage : accepts keyTierSetDef (packet 0 0 1 [9, 0]) (withKey 2 none serving) = true ∧ isPageRef ((packet 0 0 1 [9, 0]).w 0) = false := by
  have hf : (freePage (onceTaken (packet 0 0 1 [9, 0]) (withKey 2 none serving))).isSome = true := pickFrom_isSome (i := 9) (by decide) (by decide)
  refine ⟨accepts_of_checks (by decide) (by decide) ?_, by decide⟩
  intro e he
  simp only [keyTierSetDef, List.mem_cons, List.not_mem_nil, or_false] at he
  rcases he with rfl | rfl | rfl
  · decide
  · decide
  · simp only [show isPageRef ((packet 0 0 1 [9, 0]).w 0) = false by decide, Bool.false_eq_true, if_false]
    rw [Bool.or_eq_false_iff]
    exact ⟨by decide, (by simpa using hf : (freePage (onceTaken (packet 0 0 1 [9, 0]) (withKey 2 none serving))).isNone = false)⟩
/-- Page 3 holds a key. -/
def withPage (bad : Bool) : State := { serving with crypt := { serving.crypt with pages := [(3, { slot := { state := 2, use := 2, persist := false, hdrSlot := 0, owner := none, tagFails := 0, imports := 1, material := [] }, counter := 1, bad := bad })] } }
theorem witness_keyToSlot (bad : Bool) : accepts keyTierSetDef (packet 0 0 1 [0x80000003, 1]) (withPage bad) = true ∧ isPageRef ((packet 0 0 1 [0x80000003, 1]).w 0) = true ∧
    ((Tbl.find (withPage bad).crypt.pages ((packet 0 0 1 [0x80000003, 1]).f 0 0 24)).any fun k => k.bad) = bad := by
  cases bad
  · have hf : (freeSlots (onceTaken (packet 0 0 1 [0x80000003, 1]) (withPage false)) 1).isSome = true := pickFrom_isSome (i := 9) (by decide) (by decide)
    refine ⟨accepts_of_checks (by decide) (by decide) ?_, by decide, by decide⟩
    intro e he
    simp only [keyTierSetDef, List.mem_cons, List.not_mem_nil, or_false] at he
    rcases he with rfl | rfl | rfl
    · decide
    · decide
    · simp only [show isPageRef ((packet 0 0 1 [0x80000003, 1]).w 0) = true by decide, if_true]
      rw [Bool.or_eq_false_iff]
      exact ⟨by decide, (by simpa using hf : (freeSlots (onceTaken (packet 0 0 1 [0x80000003, 1]) (withPage false)) 1).isNone = false)⟩
  · have hf : (freeSlots (onceTaken (packet 0 0 1 [0x80000003, 1]) (withPage true)) 1).isSome = true := pickFrom_isSome (i := 9) (by decide) (by decide)
    refine ⟨accepts_of_checks (by decide) (by decide) ?_, by decide, by decide⟩
    intro e he
    simp only [keyTierSetDef, List.mem_cons, List.not_mem_nil, or_false] at he
    rcases he with rfl | rfl | rfl
    · decide
    · decide
    · simp only [show isPageRef ((packet 0 0 1 [0x80000003, 1]).w 0) = true by decide, if_true]
      rw [Bool.or_eq_false_iff]
      exact ⟨by decide, (by simpa using hf : (freeSlots (onceTaken (packet 0 0 1 [0x80000003, 1]) (withPage true)) 1).isNone = false)⟩
theorem witness_KeyCommandsComplete :
    accepts keyImportDef (packet 0 0 1 [9, 0x103]) { serving with crypt := { serving.crypt with slots := [(9, emptySlot none)] } } = true ∧
    accepts keyImportDef (packet 0 0 7 [9, 0x300002]) { serving with crypt := { serving.crypt with slots := [(9, emptySlot none)] } } = false ∧
    accepts keyDestroyDef (packet 0 0 1 [9, 0]) (withKey 2 none serving) = true ∧ accepts keyQueryDef (packet 0 0 1 [9, 0]) (withKey 2 none serving) = true ∧
    accepts importKeySetDef (packet 0 0 6 (wordsWith 12 [(0, 0x2800)])) serving = true ∧ accepts keystoreZeroiseDef (packet 0 0 1 [0x5A45524F, 1]) serving = true := by
  refine ⟨by decide, by decide, by decide, by decide, by decide, by decide⟩
theorem witness_ProgramCommandsComplete :
    accepts loadRequest (packet 0 0 1 [0x10001, 0xFFFF]) serving = true ∧
    accepts programStartDef (packet 0 0 3 [1, 0, 0xFFFC, 0, 7, 0]) (modCluster 0 (fun c => { c with program := some 1 }) serving) = true ∧
    accepts programStopDef (packet 0 0 1 [0x1FFFF, 0]) serving = true ∧ accepts channelGrantDef (packet 0 0 5 (wordsWith 10 [(0, 1), (2, 1)])) serving = true ∧
    (accepts coreStatusDef (packet 0 0 1 [15, 0]) serving = true ∧ longFits (packet 0 0 1 [15, 0]) 65 = true) ∧ accepts watchdogSetDef (packet 0 0 1 [0x3FFFF, 4000000]) serving = true := by
  refine ⟨by decide, by decide, by decide, by decide, by decide, by decide⟩
/-- MAINTENANCE with one PENDING repair entry. -/
def withRepair : State := { inMode .maintenance with nv := { (inMode .maintenance).nv with repairs := [{ kind := 3, state := 1, found := 0, bootCount := 1, unit := 2, location := 0, serial := 0 }] } }
theorem witness_TestRepairAndImageCommandsComplete :
    accepts selftestRunDef (packet 0 0 1 [0x35F9, 0]) (inMode .maintenance) = true ∧
    (accepts repairReadDef (packet 0 0 1 [0, 0]) withRepair = true ∧ longFits (packet 0 0 1 [0, 0]) (4 + (((withRepair.nv.repairs.drop 0).take 126).flatMap repairWords).length) = true) ∧
    accepts fuseProgramDef (packet 0 0 2 [1, 0, 0]) withRepair = true ∧ accepts parkPlanSetDef (packet 0 0 1 [0x3F79, 0x6020]) serving = true ∧
    accepts imageStageDef (packet 0 0 3 [0x100, 0, 8, 0, 1, 2]) serving = true ∧ accepts imageInstallDef (forced (packet 0 0 1 [0x101, 0])) serving = true ∧
    (accepts imageInfoDef (packet 0 0 1 [1, 0]) serving = true ∧ longFits (packet 0 0 1 [1, 0]) 12 = true) ∧
    accepts commitVersionDef (packet 0 0 0 []) { serving with sec := { serving.sec with version := 5 } } = true ∧
    accepts revokeKeyDef (forced (packet 0 0 1 [2, 0])) { serving with nv := { serving.nv with provisioned := 3 } } = true ∧
    (accepts ownerKeyProvisionDef (packet 0 0 337 [3, 0]) (inMode .maintenance) = true) ∧
    (accepts measurementReadDef (packet 0 0 1 [0xFFFF, 0]) serving = true ∧ longFits (packet 0 0 1 [0xFFFF, 0]) 256 = true) := by
  refine ⟨by decide, by decide, by decide, by decide, by decide, by decide, by decide, by decide, by decide, by decide, by decide⟩

theorem witness_CounterEventAndUnassignedCommandsComplete :
    (accepts counterReadDef (packet 0 0 2 [0x10001, 0x3000, 504, 0]) (inMode .quiesce) = true ∧ longFits (packet 0 0 2 [0x10001, 0x3000, 504, 0]) 1008 = true) ∧
    (accepts counterSnapshotDef { packet 0 0 2 [0, 0, 11, 0] with flags := 1, epochBind := 9 } serving = true ∧ (packet 0 0 2 [0, 0, 11, 0]).chan = .owner) ∧
    (accepts eventMaskSetDef (packet 0 0 4 [0x10000, 0]) serving = true ∧ (packet 0 0 4 []).chan = .owner) ∧
    accepts eventMaskSetDef (onRing 0 none 1 0 4 [0x10000, 0] 0) running = true ∧ accepts violationReadDef (packet 0 0 1 [0, 63]) serving = true ∧
    (takes (packet 0 0 1 [0, 63]) serving = true ∧ ¬(assignedOpcode (0x0D00 : BitVec 16).toNat = true ∧ (packet 0 0 1 [0, 63]).version = 1)) ∧
    (let p : Packet := onRing 0 none 1 0 510 [] 0
     (ring running ⟨0, none⟩).running = true ∧ p.chan = .ring ⟨0, none⟩ ∧ ringSize (ring running ⟨0, none⟩).sqCfg ≤ p.slots ∧
      ringUsed (ring running ⟨0, none⟩).sqCfg (ring running ⟨0, none⟩).sqHead (ring running ⟨0, none⟩).sqTail ≠ 0 ∧ rqFull (ring running ⟨0, none⟩) = false) := by
  refine ⟨by decide, by decide, by decide, by decide, by decide, by decide, by decide⟩
/-- Host 0's channel with ring sizes but not enabled. -/
def sized : State := modRing ⟨0, none⟩ (fun r => { r with sqCfg := 6, rqCfg := 15, eqCfg := 6 }) attached
/-- One event held for the owner, who has spoken. -/
def withEvent : State := { serving with owner := { serving.owner with spoken := true, held := [mkEvent serving 0x10 0 0 0 false []] } }
theorem witness_RingRegistersAndOwnerEventsComplete :
    (ringPresent sized ⟨0, none⟩ = true ∧ (ring sized ⟨0, none⟩).enable = false ∧ (∀ n ∈ [(ring sized ⟨0, none⟩).sqCfg, (ring sized ⟨0, none⟩).rqCfg, (ring sized ⟨0, none⟩).eqCfg], 6 ≤ n ∧ n ≤ 15)) ∧
    (∃ n ∈ [(ring (modRing ⟨0, none⟩ (fun r => { r with eqCfg := 5 }) attached) ⟨0, none⟩).eqCfg], n < 6 ∨ 15 < n) ∧
    (ringPresent running ⟨0, none⟩ = true ∧ (ring running ⟨0, none⟩).enable = true) ∧
    badTail (ring running ⟨0, none⟩).sqCfg (ring running ⟨0, none⟩).sqHead (ring running ⟨0, none⟩).sqTail ((63 : Word).toNat % 2 ^ 15) = false ∧
    badTail (ring running ⟨0, none⟩).sqCfg (ring running ⟨0, none⟩).sqHead (ring running ⟨0, none⟩).sqTail ((64 : Word).toNat % 2 ^ 15) = true ∧
    (63 : Word).toNat % 2 ^ 15 < ringSize (ring running ⟨0, none⟩).rqCfg ∧ ringSize (ring running ⟨0, none⟩).rqCfg ≤ (64 : Word).toNat % 2 ^ 15 ∧
    ringPresent serving ⟨0, none⟩ = false ∧ (withEvent.owner.held ≠ [] ∧ withEvent.owner.spoken = true ∧ withEvent.glb.fwRuns = true) := by
  refine ⟨by decide, by decide, by decide, by decide, by decide, by decide, by decide, by decide, by decide⟩
theorem witness_MctpRequestsComplete : (mctpOpen .smbus serving = true ∧ serving.glb.fwRuns = true) ∧ (mctpOpen .smbus (booting .recovery) = true ∧ (booting .recovery).glb.fwRuns = false) ∧
    mctpOpen (.vdm 2) serving = false ∧ ((2 : BitVec 2).toNat ≥ 2 ∧ (8 : Byte).toNat ≥ 8) := by
  refine ⟨by decide, by decide, by decide, by decide⟩
/-- The owner's responder has negotiated version 1.2. -/
def negotiated (n : Nat) : State := modSpdm (.owner .smbus) (fun i => { i with stage := n, version := 0x12 }) serving
/-- A request at version 1.2. -/
def request (p1 p2 : Byte) (body : List Byte) : SpdmReq := { code := 0, version := 0x12, param1 := p1, param2 := p2, body := body }
theorem witness_SpdmAndDoeRequestsComplete :
    spdmServed (.owner .smbus) serving = true ∧ spdmBars (.owner .smbus) (request 0 0 []) 1 (negotiated 1) = none ∧ spdmBars (.owner .smbus) (request 0 0 []) 2 (negotiated 2) = none ∧
    spdmBars (.owner .smbus) (request 0 0 []) 3 (negotiated 3) = none ∧ spdmBars (.owner .smbus) (request 0 0 []) 3 (negotiated 2) = some 4 ∧
    (bitAt (leNat (slice (request 0 0 [0, 0, 1, 0, 0x80, 0, 0, 0, 2, 0, 0, 0]).body 4 4)) 7 = true ∧ bitAt (leNat (slice (request 0 0 [0, 0, 1, 0, 0x80, 0, 0, 0, 2, 0, 0, 0]).body 8 4)) 1 = true) ∧
    leNat (slice (request 0 0 [0, 0, 1, 0]).body 2 2) ≠ 0 ∧ spdmServed (.owner .smbus) (inMode .park) = false ∧ spdmServed (.owner .smbus) (negotiated 3) = true ∧
    (bitAt (request 1 20 []).param1.toNat 0 = true ∧ ((slice (request 1 20 []).body 32 1).any (· != 0)) = false) ∧ linkUp attached 0 = true ∧ linkUp serving 0 = false := by
  refine ⟨by decide, by decide, by decide, by decide, by decide, by decide, by decide, by decide, by decide, by decide, by decide, by decide⟩

/-- Host link 1 waiting, its reference clock there. -/
def waitingLink : State := { serving with clk := { serving.clk with hostRefs := vset serving.clk.hostRefs 1 true } }
/-- Training at 16 lanes. -/
def sixteen : LinkTraining := { speed := 7, width := 16, flit := false, badLanes := [] }
/-- A link whose units wait for their defaults. -/
def dueUnits : State := (unitsOfHost 0).foldl (fun s i => modUnit i (fun u => { u with defaultsDue := true }) s) attached
theorem witness_HostLinkEventsComplete :
    (waitingLink.glb.powered = true ∧ (link waitingLink 1).state ≠ 3 ∧ waitingLink.clk.hostRefs[(1 : Fin 8)] = true ∧ isLost waitingLink 0x12 1 = false ∧ waitingLink.glb.mode ≠ .boot ∧ waitingLink.glb.mode ≠ .park ∧
      widthWithout [16, 8, 4, 1] (link (noteBadLanes 1 sixteen.badLanes waitingLink) 1).lostLanes sixteen.width ≠ 0) ∧
    (let s : State := { waitingLink with glb := { waitingLink.glb with mode := .boot } }
     s.glb.powered = true ∧ (link s 1).state ≠ 3 ∧ s.clk.hostRefs[(1 : Fin 8)] = true ∧ isLost s 0x12 1 = false ∧ s.glb.mode = .boot) ∧
    (link attached 0).state = 3 ∧ (link serving 0).state = 0 ∧ (link (modLink 0 (fun l => { l with state := 2 }) serving) 0).state ∉ [0, 3] ∧
    (((unitsOfHost 0).map (unitAt dueUnits)).any (·.defaultsDue) = true ∧ ((unitsOfHost 0).map (unitAt dueUnits)).all (fun u => u.phase == .idle || u.phase == .armed) = true) ∧
    (linkUp attached 0 = true ∧ widthWithout [16, 8, 4, 1] (link (noteBadLanes 0 sixteen.badLanes attached) 0).lostLanes sixteen.width ≠ 0) ∧
    ((link attached 0).lostLanes.contains 0 = false ∧ attached.glb.fwRuns = true) ∧ (present attached 0 .pf0 = true ∧ (.pf0 : Fn) ≠ .pf2) ∧
    (linkUp serving 0 = false ∧ present serving 0 .pf0 = false) := by
  refine ⟨by decide, by decide, by decide, by decide, by decide, by decide, by decide, by decide, by decide, by decide⟩
/-- PF0 of host 0 changed. -/
def withPf0 (g : FnState → FnState) : State := modFn 0 .pf0 g attached
theorem witness_FunctionControlsComplete :
    present attached 0 .pf0 = true ∧ (fnOf (withPf0 fun x => { x with d3 := true }) 0 .pf0).d3 = true ∧ (linkUp attached 0 = true ∧ (fnOf (withPf0 fun x => { x with vfEnable := true }) 0 .pf0).vfEnable = true) ∧
    (fnOf (withPf0 fun x => { x with bme := true }) 0 .pf0).bme = true ∧ (fnOf attached 0 .pf0).bme = false ∧ present attached 0 (.vf 3) = false ∧ (63 : Fin 2048).val < msixSize (.vf 3) ∧ msixSize (.vf 3) ≤ (64 : Fin 2048).val := by
  refine ⟨by decide, by decide, by decide, by decide, by decide, by decide, by decide, by decide⟩
/-- A memory request to PF2's window. -/
def barReq (write : Bool) (offset len : Nat) : BarReq := { hit := some .pf2, offset := offset, length := len, write := write, data := List.replicate len 0, poisoned := false, header := [], wrs := [], bufs := [] }
/-- PF2 of host 0 with Memory Space Enable. -/
def recOpen : State := modFn 0 .pf2 (fun x => { x with mse := true }) attached
/-- Host 0 with a read of PF0 outstanding. -/
def withRead : State := modLink 0 (fun l => { l with reads := [ { tag := 5, fn := .pf0, purpose := .txDescr 3, sentAt := 0, abandoned := false, timedOut := false, quarantined := false, why := 0 }, { tag := 6, fn := .pf0, purpose := .txDescr 4, sentAt := 0, abandoned := true, timedOut := false, quarantined := false, why := 3 }] }) attached
theorem witness_LinkRequestsComplete :
    (link (modLink 0 (fun l => { l with state := 2 }) serving) 0).state = 2 ∧ (linkUp attached 0 = true ∧ present attached 0 .pf0 = true) ∧ present attached 0 (.vf 0) = false ∧
    (present recOpen 0 .pf2 = true ∧ memoryOn recOpen 0 .pf2 = true ∧ memoryOn attached 0 .pf2 = false ∧ barSize (fnKind recOpen 0 .pf2) ≤ (barReq true 65536 4).offset) ∧
    ((barReq false 0x10 4).write = false ∧ (barReq false 0x10 4).length = 4 ∧ (barReq false 0x10 4).offset % 4 = 0) ∧ 64 < (barReq false 0 68).length ∧
    ((barReq true 0x7FFC 4).data.length = 4 ∧ (barReq true 0x7FFC 4).offset < 0x8000) ∧ (0x8000 ≤ (barReq true 0xFFFF 1).offset ∧ (barReq true 0xFFFF 1).offset < 65536) ∧
    (∃ r, (link withRead 0).reads.find? (fun x => x.tag == BitVec.toNat (5 : BitVec 14)) = some r ∧ r.quarantined = false ∧ r.abandoned = false) ∧
    (∃ r, (link withRead 0).reads.find? (fun x => x.tag == BitVec.toNat (6 : BitVec 14)) = some r ∧ r.quarantined = false ∧ r.abandoned = true) ∧
    (link withRead 0).reads.find? (fun x => x.tag == BitVec.toNat (7 : BitVec 14)) = none ∧
    (∃ r, (link withRead 0).reads.find? (fun x => x.tag == BitVec.toNat (5 : BitVec 14) && !x.quarantined) = some r ∧ r.abandoned = false) ∧
    (linkUp serving 0 = false ∧ (link serving 0).state ≠ 2) := by
  refine ⟨by decide, by decide, by decide, by decide, by decide, by decide, by decide, by decide, ⟨_, rfl, rfl, rfl⟩, ⟨_, rfl, rfl, rfl⟩, by decide, ⟨_, rfl, rfl⟩, by decide⟩

/-- A transmit, a receive and a completion queue of 64 entries. -/
def threeQueues : State := { serving with queues := [(qKey 0 .pf0 1, { Queue.empty with kind := 1, log2 := 6, cq := 3 }), (qKey 0 .pf0 2, { Queue.empty with kind := 2, log2 := 6 }),
  (qKey 0 .pf0 3, { Queue.empty with kind := 3, log2 := 6, head := 40, coalTime := 5, unsignalled := 2 })] }
/-- Lane 0 carries a port that is UP. -/
def portUp : State := modPort 0 (fun p => { p with width := 1, state := .up, cfg := wordOf (9216 * 2 ^ 18 + 1) }) serving
/-- A packet stands in front of pipeline 0; another recirculates, a third waits for a longer lookup. -/
def piped : State := modPipe 0 (fun y => { y with input := [Pkt.empty], recirc := [{ Pkt.empty with seq := 1 }, { Pkt.empty with seq := 2, look := some ⟨none, none, [], [], false, 0, 0⟩ }] }) serving
/-- A delivery under way to host 0, and a frame on lane 0. -/
def leaving : State := { portUp with net := { portUp.net with delivering := vset portUp.net.delivering 0 [({ Pkt.empty with queue := 3 }, [1])], outq := [(0, [Pkt.empty])] } }
/-- A packet of tile 0 waits for key slot 9. -/
def tileWaits : State := modPipe 0 (fun y => { y with tile := [{ Pkt.empty with tile := some (.lrdIn, 9) }] }) serving
theorem witness_NetworkQueueEventsComplete :
    ((queue threeQueues 0 .pf0 1).any fun x => x.kind == 1 && decide (63 < qSize x) && decide ((x.doorbell + qSize x - x.head) % qSize x + (63 + qSize x - x.doorbell) % qSize x < qSize x)) = true ∧
    ((queue threeQueues 0 .pf0 2).any fun x => x.kind == 2 && decide (qSize x ≤ 64)) = true ∧
    ((queue threeQueues 0 .pf0 3).any fun x => x.kind == 3 && decide ((40 + qSize x - x.doorbell) % qSize x ≤ (x.head + qSize x - x.doorbell) % qSize x) && x.coalTime != 0 && x.unsignalled != 0) = true ∧
    queue threeQueues 0 .pf0 4 = none ∧ leaving.net.delivering[(0 : Fin 8)] ≠ [] ∧ (portIsUp leaving 0 = true ∧ Tbl.getD leaving.net.out7 0 [] = [] ∧ Tbl.getD leaving.net.outq 0 [] ≠ []) ∧
    macCause portUp 0 (List.replicate 60 0) true true = none ∧ macCause portUp 0 (List.replicate 59 0) true true = some 3 ∧ macCause portUp 0 (List.replicate 60 0) false true = some 2 ∧
    pathsRun portUp = true ∧ portIsUp serving 0 = false := by
  refine ⟨by decide, by decide, by decide, by decide, by decide, by decide, by decide, by decide, by decide, by decide, by decide⟩
theorem witness_PipelineAndSchedulerEventsComplete :
    ((pipeOf piped 0).input ≠ [] ∧ pathsRun piped = true) ∧ (pipeOf serving 0).input = [] ∧ (takeRecirc 0 false piped).isSome = true ∧
    ((takeRecirc 0 true piped).any fun r => r.1.look.isSome) = true ∧ (takeRecirc 0 false serving = none ∧ takeRecirc 0 true serving = none) ∧
    ((cachedIn tileWaits 0).contains 9 = false ∧ ((pipeOf tileWaits 0).tile.any fun k => (k.tile.map (·.2)) == some 9) = true) ∧ rxChoose serving 0 = none ∧ txChoose serving 0 = none := by
  refine ⟨by decide, by decide, by decide, by decide, by decide, by decide, by decide, by decide⟩

/-- A packet waits at the leaf of receive queue 2 of host 0's PF0. -/
def rxWaits : State := toLeaf 0 .pf0 2 { Pkt.empty with bytes := List.replicate 60 0 } (addLeaf 0 1 .pf0 2 0 (modFn 0 .pf0 (fun x => { x with bme := true }) { attached with queues := [(qKey 0 .pf0 2, { Queue.empty with kind := 2, bufs := [{ addr := 0, len := 2048, cookie := 1 }] })] }))
theorem witness_selectRx : (rxChoose rxWaits 0).isSome = true := by decide
/-- A packet is ready at the leaf of transmit queue 1 of host 0's PF0, for lane 0's port. -/
def txWaits : State := modSchedBoth 0 (fun u => { u with groups := [(0, Node.reset), (4096, Node.reset)] }) (addLeaf 0 0 .pf0 1 0 (modFn 0 .pf0 (fun x => { x with bme := true }) { modPort 0 (fun p => { p with width := 1, state := .up, cfg := wordOf (9216 * 2 ^ 18 + 1) }) attached with
  queues := [(qKey 0 .pf0 1, { Queue.empty with kind := 1, ready := [{ index := 0, count := 1, len := 60, segs := [(0, 60)], cpl := true, stamp := false, launch := none, csum := none, key := none, cookie := 0 }] })] }))
theorem witness_selectTx : (txChoose txWaits 0).isSome = true := by decide

/-- Lane 0's port in a link state. -/
def portIn (st : LinkState) : State := modPort 0 (fun p => { p with width := 1, state := st, cfg := 1 }) serving
theorem witness_EthernetAndCarveEventsComplete :
    ((serving.eth.groups[(0 : Fin 8)]).busy = false ∧ badLayout serving 0 = false) ∧ ((modGroup 0 (fun g => { g with busy := true }) serving).eth.groups[(0 : Fin 8)]).busy = true ∧
    ((portOf (portIn .an) 0).width ≠ 0 ∧ (portOf (portIn .an) 0).state = .an ∧ (portOf (portIn .an) 0).anWait = false) ∧ (portOf (portIn .training) 0).state = .training ∧
    (portOf (portIn .aligning) 0).state = .aligning ∧ (portOf (portIn .fault) 0).state = .fault ∧ (portOf (portIn .up) 0).state = .up ∧ (portIn .up).eth.holdoff = 0 ∧ (portOf (portIn .hold) 0).state = .hold ∧
    (serving.glb.fwRuns = true ∧ bitAt (serving.eth.groups[groupOf 0]).laneFault 0 = false) ∧ (portOf serving 0).width = 0 ∧ (badCarve serving = true ∧ badCarve (inMode .maintenance) = false) ∧
    (modHod (fun x => { x with busy := true }) serving).hod.busy = true ∧
    ((queue { serving with queues := [(qKey 0 .pf0 1, { Queue.empty with kind := 1, hodWait := true, ready := [txPacket 0 []] })] } 0 .pf0 1).any fun x => x.kind == 1 && !x.ready.isEmpty && x.hodWait) = true := by
  refine ⟨by decide, by decide, by decide, by decide, by decide, by decide, by decide, by decide, by decide, by decide, by decide, by decide, by decide, by decide⟩

/-- A connection of host 0's PF0, for the events. -/
def evConn : Conn := freshConn serving (packet 0 0 0 []) (cfgOf serving (packet 0 0 0 []) 1000 0 0 0) (some 0) 1000 1000 false 0
/-- Connection 5 of domain 0, with a send and a receive queue of 64 entries. -/
def evState (g : Conn → Conn) : State := { modCtx (fun x => { x with conns := [(5, g { evConn with cfg := { evConn.cfg with sq := 1, rq := 2 } })] }) serving with
  queues := [(qKey 0 .pf0 1, { Queue.empty with kind := 4, log2 := 6, conn := 5 }), (qKey 0 .pf0 2, { Queue.empty with kind := 5, log2 := 6, conn := 5 })] }

/-- A packet of an opcode in a connection's inbox. -/
def inboxed (op e1 : Nat) : LrdPkt := { op := op, flags := 0, pad := 0, dstGen := 0, dstConn := 5, srcGen := 0, srcConn := 5, psn := 9, stamp := 0, ext := [0, e1, 0], at_ := 0, len := 4, arrived := 0, pkt := Pkt.empty }
/-- The connection with a context fetch outstanding, timers running and packets in its inbox. -/
def evBusy : State := evState fun c => { c with fetching := true, noVictim := false, evicting := true, imageBad := false, chain := [], pinDue := false, sq := [], una := 1, nxt := 3, rnrHold := some 1, execUnacked := 1, lastExec := some { code := 0, psn := 0, echo := 0, arrived := 0 }, exec := [{ psn := 4, phase := 2, p := inboxed 1 0 }], probed := false, sent := [{ psn := 1, op := 1, wr := 0, off := 0, len := 0, first := true, last := true, resume := 0, block := none, acked := false, due := false, retxAt := none }], inbox := [inboxed 0x10 0, inboxed 0x11 (5 * 2 ^ 24), inboxed 0x12 0, inboxed 0x04 0] }
/-- The connection with a READ in progress whose response has come, waiting for a victim. -/
def evReading : State := evState fun c => { c with noVictim := true, evicting := true, chain := [Pkt.empty], fetching := false, timeouts := 200, una := 1, nxt := 2, inbox := [inboxed 0x04 0, inboxed 0x11 (2 ^ 24)], sq := [{ serial := 1, index := 0, op := 3, addr := 0, len := 4096, fence := false, signal := true, remote := 0, cookie := 0, ssn := 0, psn := 9, cut := 4096, started := true, allCut := true, got := [], outcome := none }] }
theorem witness_LrdEventsComplete :
    ((conn evBusy 5).any fun c => c.fetching && !c.noVictim && !xportStopped evBusy && !c.imageBad && c.evicting && c.chain.isEmpty && !c.pinDue && c.sq.isEmpty && execReady c 4 && !execReady c 5) = true ∧
    ((conn evReading 5).any fun c => c.noVictim && c.evicting && !c.chain.isEmpty && !c.fetching) = true ∧ (takeInbox 5 0x10 evBusy).isSome = true ∧
    ((takeInbox 5 0x11 evBusy).any fun r => r.1.e 1 / 2 ^ 24 == 5 && (conn (countX 5 12 r.2) 5).isSome) = true ∧ ((takeInbox 5 0x11 evReading).any fun r => r.1.e 1 / 2 ^ 24 == 1) = true ∧ (takeInbox 5 0x12 evBusy).isSome = true ∧
    ((takeInbox 5 0x04 evReading).any fun r => (conn r.2 5).any fun c => (rspWr c r.1).any (fun w => decide (r.1.e 0 + r.1.len ≤ w.len)) && c.owner.isSome) = true ∧
    ((takeInbox 5 0x04 evBusy).any fun r => (conn r.2 5).any fun c => (rspWr c r.1).isNone) = true ∧ takeInbox 5 0x12 evReading = none ∧
    ((conn evBusy 5).any fun c => (connQueue evBusy c c.cfg.sq).any fun q => newSlots q 3 == some 3 && newSlots q 64 == none) = true ∧ ((conn evBusy 5).any fun c => (connQueue evBusy c c.cfg.rq).any fun q => newSlots q 0 == some 0 && newSlots q 64 == none && c.state != 2) = true ∧
    ((conn evReading 5).any fun c => !drained c && decide (evReading.ctx.cfg.retryLimit < c.timeouts + 1)) = true ∧ ((conn evBusy 5).any fun c => !drained c && decide (c.timeouts + 1 ≤ evBusy.ctx.cfg.retryLimit) && c.una != c.nxt && !c.probed) = true ∧
    ((conn evBusy 5).any fun c => c.execUnacked != 0 && c.lastExec.isSome && c.rnrHold.isSome) = true ∧ (modCtx (fun x => { x with recent := [(5, 0)] }) serving).ctx.recent.findIdx? (fun e => decide (e.1 = 5)) = some 0 ∧
    (rowKey 0 5 = 5 ∧ conn serving (rowKey 0 5) = none) := by
  refine ⟨by decide, by decide, by decide, by decide, by decide, by decide, by decide, by decide, by decide, by decide, by decide, by decide, by decide, by decide, by decide, by decide⟩

/-- Host 0's PF1 with a controller that is ready, an entry waiting in its SQ 0 or 1. -/
def nvReady (sq : Nat) : State := modCtrl (fnKey 0 .pf1) (fun c => { c with ready := true, sqs := [(sq, { size := 64, base := 0, cq := sq, prio := 0, head := 0, tail := 1 })], cqs := [(sq, { size := 64, base := 0, ien := true, iv := 0, head := 0, tail := 3, phase := true, late := [] })] })
  (modFn 0 .pf1 (fun x => { x with bme := true }) attached)
/-- A submission entry of a queue with an opcode. -/
def entry (sq : BitVec 16) (op w10 : Nat) : Sqe := { sq := sq, words := [wordOf op, 0, 0, 0, 0, 0, 0, 0, 0, 0, wordOf w10, 1, 0, 0, 0, 0], prpList := [], ranges := [], fetchOk := true }
/-- The controller of host 0's PF1. -/
def pf1Key : Nat := fnKey 0 .pf1
theorem witness_served (sq : Nat) (e : Sqe) (h : ((selectSqe (nvReady sq)).any fun r => r.1 == pf1Key && (ctrl r.2 pf1Key).arbSq == e.sq.toNat && e.fetchOk && e.w 0 / 256 % 4 == 0 && e.w 0 / 16384 % 4 == 0) = true) :
    ∃ t, sqeServed 0 .pf1 e (nvReady sq) t := by
  cases hs : selectSqe (nvReady sq) with
  | none => rw [hs] at h; cases h
  | some r =>
    rw [hs] at h
    simp only [Option.any_some, Bool.and_eq_true, beq_iff_eq] at h
    obtain ⟨⟨⟨⟨h1, h2⟩, h3⟩, h4⟩, h5⟩ := h
    exact ⟨r.2, by rw [sqeServed, hs]; exact ⟨congrArg some (Prod.ext h1 rfl), h2, h3, h4, h5⟩⟩
theorem witness_NvmeCommandsComplete :
    (∃ t, sqeServed 0 .pf1 (entry 0 0x05 (63 * 65536 + 1)) (nvReady 0) t) ∧ (∃ t, sqeServed 0 .pf1 (entry 1 0x02 0) (nvReady 1) t) ∧
    ((entry 0 0x05 (63 * 65536 + 1)).op = 0x05 ∧ qidOf (entry 0 0x05 (63 * 65536 + 1)) = 1 ∧ qsizeOf (entry 0 0x05 (63 * 65536 + 1)) = 63 ∧ 1 ≤ maxPairs .pf1 ∧ bitAt ((entry 0 0x05 0).w 11) 0 = true ∧ (entry 0 0x05 0).w 11 / 65536 < msixSize .pf1) ∧
    (supportedOp true 0x7F = false ∧ supportedOp false 0x7F = false) ∧ ioRefusal (nvReady 1) pf1Key 1 = some 0x0B := by
  refine ⟨witness_served 0 _ ?_, witness_served 1 _ ?_, ?_, ?_, ?_⟩ <;> decide
theorem witness_NvmeControllerEventsComplete :
    (ctrlPresent attached 0 .pf1 = true ∧ (ctrl attached pf1Key).ready = false) ∧ (ctrlPresent (nvReady 0) 0 .pf1 = true ∧ (ctrl (nvReady 0) pf1Key).ready = true ∧ (ctrl (nvReady 0) pf1Key).shst = 0) ∧
    (Tbl.find (ctrl (nvReady 1) pf1Key).sqs 1).any (fun x => decide (63 < x.size) && decide (x.size ≤ 64)) = true ∧
    (Tbl.find (ctrl (nvReady 1) pf1Key).cqs 1).any (fun x => decide ((3 + x.size - x.head) % x.size ≤ (x.tail + x.size - x.head) % x.size)) = true ∧
    (hostReady attached 0 = false ∧ segmentOf 9 (testSteps attached pf1Key { code := 1, nsid := 0xFFFFFFFF, steps := 9, startedAt := 0 }) 1 = none ∧
      segmentOf 0 (testSteps attached pf1Key { code := 2, nsid := 0xFFFFFFFF, steps := 0, startedAt := 0 }) 1 = some 1 ∧ (segmentOf 1 (testSteps attached pf1Key { code := 2, nsid := 0xFFFFFFFF, steps := 0, startedAt := 0 }) 1).isSome = true) ∧
    ctrlPresent serving 0 .pf1 = false := by
  refine ⟨by decide, by decide, by decide, by decide, by decide, by decide⟩

/-- A command of host 0's PF1 in a phase, on namespace 4. -/
def nvCmd (op : Nat) (p : CmdPhase) : NvmeCmd := { sq := 1, cid := 2, op := op, ns := 4, slba := 0, blocks := 1, pages := [0], fua := false, phase := p, segs := [], backings := [], cached := [], sawFailed := false, sawHeld := false, retried := false }
/-- The extent of namespace 4 on drive 2. -/
def onTwo : Extent := { remote := false, place := 2, nsid := 1, start := 0, units := 1, absent := false, serial := [], nguid := [] }
/-- A dirty segment of namespace 4. -/
def dirtySeg (retry : Bool) : Segment := { id := 3, ns := 4, unit := 0, host := 0, blocks := [(0, [1])], frozen := false, fua := false, failed := false, held := false, retried := false, retryDue := retry }
/-- Namespace 4 with a command in a phase, its data read outstanding, and a dirty segment. -/
def storing (p : CmdPhase) (retry : Bool) : State := modLink 0 (fun l => { l with reads := [{ tag := 5, fn := .pf1, purpose := .nvmeData 1 2, sentAt := 0, abandoned := false, timedOut := false, quarantined := false, why := 0 }] })
  (modNvme (fun n => { n with segs := [dirtySeg retry] }) (modCtrl (fnKey 0 .pf1) (fun c => { c with ready := true, cmds := [nvCmd 1 p] }) (withNs (some (1, 1)) [onTwo])))
/-- Drive 2 in a state, with a command outstanding. -/
def driveIn (st : Nat) (ab : Bool) : State := modDrive 2 (fun v => { v with state := st, present := true, linkUp := true, width := 4, cmds := [{ cid := 7, kind := 2, seg := 3, ctrl := 0, sq := 0, cmd := 0, aborted := ab }] }) (storing .backing false)
theorem witness_StorageEventsComplete :
    ((cmdAt (storing .data false) (fnKey 0 .pf1) 1 2).any fun x => x.phase == .data) = true ∧ (dataRead (storing .data false) 0 .pf1 1 2).isSome = true ∧ cmdAt serving (fnKey 0 .pf1) 1 2 = none ∧
    ((waitingWrite (storing .space false) 0).any fun r => (nspace (storing .space false) r.2.ns).any fun y => segRoom (storing .space false) 0 (segsNeeded (storing .space false) r.2.ns (unitsOf y r.2.slba r.2.blocks))) = true ∧ waitingWrite serving 0 = none ∧
    ((segAt (storing .data false) 3).any fun g => g.ns == 4 && destageable (storing .data false) g) = true ∧ (segWrite (driveIn 3 false) 3).isSome = true ∧ segAt serving 3 = none ∧
    ((cmdAt (storing .backing false) (fnKey 0 .pf1) 1 2).any fun x => (nspace (storing .backing false) x.ns).any fun y => x.phase == .backing && !(missingLocal (storing .backing false) y x).isEmpty) = true ∧
    ((drive serving 2).state = 0 ∧ isLost serving 0x11 2 = false) ∧ ((drive (driveIn 1 false) 2).state = 1 ∧ widthWithout [4, 2, 1] ((drive (driveIn 1 false) 2).lostLanes ++ []) 4 ≠ 0) ∧
    ((drive (driveIn 3 true) 2).cmds.find? (fun c => decide (c.cid = 7))).any (·.aborted) = true ∧ ((drive (driveIn 3 false) 2).state = 3 ∧ (drive (driveIn 3 false) 2).linkUp = true ∧ (drive (driveIn 3 false) 2).lostLanes = []) ∧ (drive (driveIn 2 false) 2).state = 2 ∧
    (((target (modTarget 7 (fun x => { x with cmds := [{ tag := 9, kind := 2, ctrl := 0, sq := 0, cmd := 0, seg := 3, lba := 0, blocks := 1, status := none, timedOut := false, got := [] }] }) withTarget) 7).bind fun x => x.cmds.find? fun c => decide (c.tag = 9 ∧ c.timedOut = false)).any fun c => c.kind == 2) = true ∧ target serving 7 = none ∧
    ((segAt (storing .data true) 3).any fun g => g.ns == 4 && g.retryDue && destageable (modSeg 3 (fun g => { g with retryDue := false }) (storing .data true)) { g with retryDue := false }) = true := by
  refine ⟨by decide, by decide, by decide, by decide, by decide, by decide, by decide, by decide, by decide, by decide, by decide, by decide, by decide, by decide, by decide, by decide, by decide⟩

/-- A look-aside job over 64 bytes with the page of its key at hand. -/
def aJob (urgent : Bool) : LaJob := { cluster := 0, core := 0, thread := 0, words := [0x11 + (if urgent then 256 else 0) + 9 * 65536, 0, 0, 64], key := none, done := 0 }
/-- Tile 0 with a job running. -/
def tiling (fetching mode : Bool) : State := modTile 0 (fun t => { t with running := some (aJob false), queue := [aJob true], fetching := fetching, mode := mode }) (withKey 4 none serving)
/-- Host 0's PF2 in a mode, with its registers set and perhaps a claim. -/
def intaking (m : Mode) (claim : Option Nat) (phase len : Nat) : State := modIntake (fun x => { x with claim := claim, phase := phase }) (modRec 0 (fun r => { r with len := len }) (modFn 0 .pf2 (fun x => { x with mse := true }) { attached with glb := { attached.glb with mode := m } }))
theorem witness_AlarmTileAndIntakeEventsComplete :
    (serving.glb.powered = true ∧ bitAt serving.crypt.present 0 = false) ∧ bitAt (modCrypt (fun c => { c with present := 1 }) serving).crypt.present 0 = true ∧
    ((laTile (tiling false true) 0).running = some (aJob false) ∧ (laTile (tiling false true) 0).fetching = false ∧ (laTile (tiling false true) 0).suspended = none ∧ (laTile (tiling false true) 0).mode = true ∧ (aJob false).urgent = false ∧
      (laTile (tiling false true) 0).queue.head?.any LaJob.urgent = true) ∧ (laTile (tiling true false) 0).mode = false ∧
    ((laTile (tiling true false) 0).fetching = true ∧ (laKey (tiling true false) (aJob false)).isSome = true ∧ ((Tbl.find (tiling true false).crypt.pages ((aJob false).keyRef % 2 ^ 24)).any fun p => p.bad) = false) ∧ (laTile serving 0).running = none ∧
    (pf2Up (intaking .service none 0 64) 0 = true ∧ intakeOpen (intaking .service none 0 64) = false) ∧ (intakeOpen (intaking .maintenance (some 3) 1 64) = true ∧ intakeBusy (intaking .maintenance (some 3) 1 64) (recOf 0) = true) ∧
    (intakeBusy (intaking .maintenance none 0 60) (recOf 0) = false ∧ chunkOk (recPort (intaking .maintenance none 0 60) (recOf 0)) = false) ∧
    (chunkOk (recPort (intaking .maintenance none 0 64) (recOf 0)) = true ∧ (recPort (intaking .maintenance none 0 64) (recOf 0)).offset = 0) ∧
    (intakeBusy (intaking .maintenance (some 0) 1 64) (recOf 0) = false ∧ installing (intaking .maintenance (some 0) 1 64) 1 = false ∧ slotValid (intaking .maintenance (some 0) 1 64) 1 = false) ∧
    ((intaking .maintenance (some 0) 2 64).sec.intake.phase = 2 ∧ (intaking .maintenance (some 0) 2 64).sec.intake.worker = 0) ∧ (bufferReason (intaking .maintenance (some 0) 3 64) [] ≠ 0 ∧ (intaking .maintenance (some 0) 3 64).sec.intake.phase = 3) ∧
    pf2Up serving 0 = false := by
  refine ⟨by decide, by decide, by decide, by decide, by decide, by decide, by decide, by decide, by decide, by decide, by decide, by decide, by decide, by decide⟩

/-- Core 0 of cluster 0 with these threads. -/
def coring (ts : Tbl Thread) : State := modCore 0 (fun c => { c with threads := ts }) serving
/-- A READY thread with these values in x10 and x11. -/
def aThread (a b : Nat) : Thread := ((Thread.fresh 0).setX 10 a).setX 11 b
/-- The same state with an instruction at address 0 of the core's instruction memory. -/
def coded (w : Nat) (s : State) : State := writeAt 0 (.instr 0) (leBytes 4 w) s
/-- The same state with a program of these ports on cluster 0. -/
def granting (ports : Nat) (s : State) : State :=
  modCores (fun c => { c with grants := Tbl.put c.grants 1 { ports := ports, sources := 0 } }) (modCluster 0 (fun c => { c with program := some 1 }) s)
theorem witness_ThreadInstructionsComplete :
    ((thread (coring [(0, aThread 5 6)]) 0 0).map (·.pc) = some 0 ∧ mayIssue (coring [(0, aThread 5 6)]) 0 0 = true ∧ freeContext (coring [(0, aThread 5 6)]) 0 = some 1) ∧
    freeContext (coring ((upFrom 0 16).map fun t => (t, aThread 5 6))) 0 = none ∧
    (thread (coring [(0, aThread 15 6), (15, { aThread 0 0 with detached := false })]) 0 15).any (fun c => c.parent == 0 && !c.detached && c.st != .trapped) = true ∧
    ((aThread 0 0).x 10).toNat = 0 ∧ ((aThread 16 0).x 10).toNat = 16 ∧
    (threadLive (coring [(0, aThread 5 6), (5, aThread 0 0)]) 0 5 = true ∧ threadLive (coring [(0, aThread 5 6)]) 0 5 = false) ∧
    (((aThread 0x8000 0).x 10).toNat % 65536 ≠ 0 ∧ ((aThread 0x10000 0).x 10).toNat % 65536 = 0) ∧ (((aThread (2 ^ 32 - 1) (2 ^ 32)).x 10).toNat < 2 ^ 32 ∧ 2 ^ 32 ≤ ((aThread (2 ^ 32 - 1) (2 ^ 32)).x 11).toNat) ∧
    (hawk (coring [(0, aThread 0 6)]) 0 63 = ((aThread 0 6).x 10).toNat ∧ hawk (coring [(0, aThread 5 6)]) 0 63 ≠ ((aThread 5 6).x 10).toNat) ∧
    (portGranted (coring [(0, aThread 0x105 6)]) 0 5 = false ∧ portGranted (granting 0x20 (coring [(0, aThread 0x105 6)])) 0 5 = true ∧ bitsAt 0x105 8 4 = 1 ∧ (portQueue (granting 0x20 (coring [(0, aThread 0x105 6)])) 0 5).length < 64 ∧ (aThread 0x105 6).outstanding < 4) ∧
    ((aThread 5 6).inbox = [] ∧ ({ aThread 5 6 with inbox := [[7]] } : Thread).inbox = [[7]]) ∧ mayIssue (coring []) 0 0 = false := by
  refine ⟨by decide, by decide, by decide, by decide, by decide, by decide, by decide, by decide, by decide, by decide, by decide, by decide⟩
theorem witness_CoreEventsComplete :
    nextThread (coring []) 0 = none ∧ (nextThread (coring [(15, aThread 0 0)]) 0 = some 15 ∧ isLost (coring [(15, aThread 0 0)]) 3 0 = false) ∧
    isLost { coring [(0, aThread 0 0)] with degr := { serving.degr with entries := [{ kind := 3, reason := 1, unit := 0, detail := 0, epoch := 0 }] } } 3 0 = true ∧
    (fetch (coring []) 0 { aThread 0 0 with pc := 0x10000 }).toOption = none ∧ ((fetch (coring []) 0 (aThread 0 0)).toOption = some 0 ∧ decodeAny 0 = none) ∧
    ((fetch (coded 0x00B50533 (coring [])) 0 (aThread 0 0)).toOption = some 0x00B50533 ∧ decodeAny 0x00B50533 = some (.op .add 10 10 11) ∧ namesFreeHod (coded 0x00B50533 (coring [(0, aThread 5 6)])) 0 0 = false) ∧
    namesFreeHod (coded 0x00053503 (coring [(0, aThread 0x1000000000000 0)])) 0 0 = true ∧
    ({ aThread 0 0 with timer := some (4, 0) } : Thread).timer.isSome = true ∧ (aThread 0 0).timer = none ∧
    (({ aThread 0 0 with coming := [[1]] } : Thread).coming[0]? = some [1] ∧ ({ aThread 0 0 with coming := [[1]] } : Thread).coming[1]? = none) ∧
    (deadlocked (coring [(3, { aThread 0 0 with st := .waiting, wait := some (.events 1 1) })]) 0 = true ∧ (coreOf (coring [(3, aThread 0 0)]) 0).detected = false) ∧ deadlocked (coring []) 0 = false ∧
    (coreLive (coring []) 0 = false ∧ coreLive (coring [(3, aThread 0 0)]) 0 = true ∧ coreHalted (coring [(3, aThread 0 0)]) 0 = false ∧ (coreOf (modCore 0 (fun c => { c with wdogTimeout := 1, wdogAction := 2 }) (coring [(3, aThread 0 0)])) 0).wdogTimeout ≠ 0) := by
  refine ⟨by decide, by decide, by decide, by decide, by decide, by decide, by decide, by decide, by decide, by decide, by decide, by decide, by decide⟩

/-- A request of thread 2 of core 0 at the front of a port of cluster 0. -/
def asking (port : Nat) (ws : List Nat) (s : State) : State := modCluster 0 (fun c => { c with ports := Tbl.put c.ports port [{ core := 0, thread := 2, words := ws }] }) s
/-- The request. -/
def ask (ws : List Nat) : PortMsg := { core := 0, thread := 2, words := ws }
/-- Two hods of pool 0, held and not chained. -/
def twoHods (s : State) : State := modHod (fun x => { x with held := [(0, { next := nullHod, payer := .core, users := 1 }), (1, { next := nullHod, payer := .core, users := 1 })] }) s
/-- The device with a route to every address, whose action is action 5. -/
def routed : State := (lpmAdd false false 0 0 5 serving).2.2
theorem witness_HodDmaAndTablePortsComplete :
    (frontOf serving 0 0 (fun op => op == 2)).isNone = true ∧
    (frontOf (asking 0 [0x2800_0001] serving) 0 0 (fun op => op == 1 || op == 0 || 4 < op) = some (ask [0x2800_0001]) ∧ opOf (ask [0x2800_0001]) = 1 ∧ bitsAt ((ask [0x2800_0001]).w 0) 16 14 = 10240) ∧
    opOf (ask [5]) ≠ 1 ∧ bitsAt ((ask [1]).w 0) 16 14 = 0 ∧
    (frontOf (asking 0 [0x102, 0] (twoHods serving)) 0 0 (fun op => op == 2) = some (ask [0x102, 0]) ∧ hodCheck (popPort 0 0 (asking 0 [0x102, 0] (twoHods serving))) 0 0 0 1 = none ∧ hodHeld (popPort 0 0 (asking 0 [0x102, 0] (twoHods serving))) 0 = true ∧
      (chainFrom (popPort 0 0 (asking 0 [0x102, 0] (twoHods serving))) 64 0).all (hodHeld (popPort 0 0 (asking 0 [0x102, 0] (twoHods serving)))) = true) ∧
    (hodCheck serving nullHod 0 0 1 = some false ∧ hodHeld serving 0 = false) ∧
    (frontOf (asking 0 [3, 0, 1] (twoHods serving)) 0 0 (fun op => op == 3) = some (ask [3, 0, 1]) ∧ ((twoHods serving).hod.held.any fun e => e.1 != 0 && e.2.next == 1) = false) ∧
    (frontOf (asking 0 [4, 0] (twoHods serving)) 0 0 (fun op => op == 4) = some (ask [4, 0]) ∧ (Tbl.find (twoHods serving).hod.held 0).isSome = true) ∧
    (frontOf (asking 1 [1, 0x10000, 0x2FFFF, 1] serving) 0 1 (fun _ => true) = some (ask [1, 0x10000, 0x2FFFF, 1]) ∧ dmaOperand serving 0 0x10000 1 = .at_ (.mem (dataSpace 0) 0) ∧ dmaOperand serving 0 0x2FFFF 1 = .at_ (.mem (dataSpace 0) 0x1FFFF) ∧
      samePlace (dataSpace 0, 0) (dataSpace 0, 0x1FFFF) 1 = false ∧ samePlace (dataSpace 0, 0) (dataSpace 0, 0) 1 = true) ∧
    (frontOf (asking 2 [0x4070001, 0x10000, 3, 0x10100] serving) 0 2 (fun _ => true) = some (ask [0x4070001, 0x10000, 3, 0x10100]) ∧ (tableCmd 0x306).isSome = true ∧ (tableCmd 0x307).isNone = true ∧ blockAt serving 0 0x10000 24 8 = some (.mem (dataSpace 0) 0) ∧
      blockAt serving 0 0x10100 16 8 = some (.mem (dataSpace 0) 0x100) ∧ lpmLookupDef.len 3 = true ∧ emLookupDef.len 0 = false ∧ (firstRefusal (lpmLookupDef.checks .device (portPacket (List.replicate 24 0)) routed)) = none ∧
      (lpmLookupDef.act .device (portPacket (List.replicate 24 0)) routed).long.isSome = true ∧ (firstRefusal (lpmAddDef.checks .device (portPacket (List.replicate 24 0)) serving)).isNone = true ∧ (lpmAddDef.act .device (portPacket (List.replicate 24 0)) serving).long.isNone = true ∧ (firstRefusal (lpmLookupDef.checks .device (portPacket (List.replicate 24 0xFF)) serving)).isSome = true) := by
  refine ⟨by decide, by decide, by decide, by decide, by decide, by decide, by decide, by decide, by decide, by decide, by decide⟩
theorem witness_hodAlloc : (∃ h t, allocHods .core false false 10240 serving = .ok (h, t)) ∧ (∃ e, allocHods .core false false 10240 (modHod (fun x => { x with coreLimit := 0 }) serving) = .error e) := by
  refine ⟨?_, ?_⟩
  · have k : (freeHod serving 5).isSome = true := by
      have q := pickFrom_isSome (start := freshNat serving) (n := poolCount serving.hod.counts 5) (p := fun i => !Tbl.has serving.hod.held (hodHandle 5 i)) (i := 7) (by decide) (by decide)
      simp only [freeHod]; rw [if_neg (by decide), Option.isSome_map]; exact q
    obtain ⟨h, e⟩ := Option.isSome_iff_exists.mp k
    have hp : hodPool h = 5 := by
      have e' := e
      simp only [freeHod] at e'; rw [if_neg (by decide)] at e'
      obtain ⟨i, hi, rfl⟩ := Option.map_eq_some_iff.mp e'
      have := (pickFrom_some hi).2 (by decide)
      have : i < 2 ^ 29 := Nat.lt_trans this (by decide)
      simp only [hodPool, hodHandle]; omega
    have c : ∃ t, chargeHod .core false h serving = .ok t := by
      simp only [chargeHod, hp, payerFor]
      rw [if_neg (by decide), if_neg (by decide)]
      exact ⟨_, rfl⟩
    obtain ⟨t, c⟩ := c
    simp only [allocHods, takeSmallest]
    rw [if_neg (by decide), if_pos (by decide), if_pos (by decide), if_pos (by decide), if_pos (by decide), if_pos (by decide), if_neg (by decide)]
    simp only [takeCharged, e, c]
    exact ⟨_, _, rfl⟩
  · simp only [allocHods, takeSmallest]
    rw [if_neg (by decide), if_pos (by decide), if_pos (by decide), if_pos (by decide), if_pos (by decide), if_pos (by decide), if_neg (by decide)]
    generalize he : modHod (fun x => { x with coreLimit := 0 }) serving = u
    simp only [takeCharged]
    cases e : freeHod u 5 with
    | none => exact ⟨_, rfl⟩
    | some h =>
      have c : ∃ x, chargeHod .core false h u = .error x := by
        simp only [chargeHod, payerFor]
        refine ⟨.limit, if_pos ?_⟩
        · subst he
          have hp : hodPool h = 5 := by
            have e' := e
            simp only [freeHod] at e'; rw [if_neg (by decide)] at e'
            obtain ⟨i, hi, rfl⟩ := Option.map_eq_some_iff.mp e'
            have := (pickFrom_some hi).2 (by decide)
            have : i < 2 ^ 29 := Nat.lt_trans this (by decide)
            simp only [hodPool, hodHandle]; omega
          rw [hp]; decide
      obtain ⟨x, c⟩ := c
      simp only [c]; exact ⟨_, rfl⟩
/-- The record of a HOST action towards host 0's PF0, and the same device with the look-aside key and a chain of two hods. -/
def emitting : State := modHod (fun x => { x with held := [(0, { next := nullHod, payer := .core, users := 1 }), (1, { next := nullHod, payer := .core, users := 1 })] }) (withKey 4 none { attached with tables := { attached.tables with actions := [(0, [0x90000000, 0xC000, 0, 0])] } })
/-- A look-aside job on 64 bytes of hod 0, into hod 1. -/
def jobWords : List Nat := [0x11 + 9 * 65536, 0, 1, 64, 0, 0, 0, 0]
theorem witness_LookasideEmitAndPuntPortsComplete :
    (frontOf (asking 3 jobWords emitting) 0 3 (fun _ => true) = some (ask jobWords) ∧ badPlace emitting (0, 0) 64 = none ∧ badPlace emitting (1, 0) 80 = none ∧ (chainFrom emitting 64 0).all (hodHeld emitting) = true) ∧
    (chainFrom serving 64 0).all (hodHeld serving) = false ∧ (laKey emitting { cluster := 0, core := 0, thread := 2, words := jobWords, key := none, done := 0 }).isSome = true ∧ jobsOf emitting 0 < 256 ∧ badKeyRef 9 = false ∧ badKeyRef (2 ^ 24) = true ∧
    (frontOf (asking 4 [1, 0, 0x3C] emitting) 0 4 (fun op => op != 2) = some (ask [1, 0, 0x3C]) ∧ bitsAt 0x3C 0 14 = 60 ∧ handleInRange emitting 0 = true ∧ 60 ≤ (chainFrom emitting 64 0).foldl (fun n x => n + hodBytes (hodPool x)) 0) ∧
    ((chargeAll .forward false [0] emitting).toOption.any fun t => !portIsUp t 0) = true ∧ ((chargeAll .forward false [0] (modPort 0 (fun p => { p with width := 1, state := .up, cfg := 1 }) emitting)).toOption.any fun t => portIsUp t 0) = true ∧
    (chargeAll .forward false [0] (modHod (fun x => { x with forwardLimit := 0 }) emitting)).toOption.isNone = true ∧
    (frontOf (asking 4 [2, 0, 0x3C, 0x10000] emitting) 0 4 (fun op => op == 2) = some (ask [2, 0, 0x3C, 0x10000]) ∧ (actValid (actionAt emitting 0) && actKind (actionAt emitting 0) == 1 && actClass (actionAt emitting 0) != 7) = true ∧
      (hostDest emitting (actDest (actionAt emitting 0))).any (fun p => (chargeAll (fnPayer p.1 p.2) false [0] emitting).toOption.isSome) = true ∧ blockAt emitting 0 0x10000 256 256 = some (.mem (dataSpace 0) 0)) ∧
    (actValid (actionAt emitting 1) && actKind (actionAt emitting 1) == 1 && actClass (actionAt emitting 1) != 7) = false ∧
    (frontOf (asking 5 [1, 0x10000] serving) 0 5 (fun op => op != 2) = some (ask [1, 0x10000]) ∧ dataSpace 0 ≠ 0 ∧ blockAt serving 0 0x10001 256 256 = none) ∧ frontOf (asking 5 [2] serving) 0 5 (fun op => op == 2) = some (ask [2]) ∧
    (serving.glb.mode ≠ .quiesce ∧ (cluster serving 0).punts = []) := by
  refine ⟨by decide, by decide, by decide, by decide, by decide, by decide, by decide, by decide, by decide, by decide, by decide, by decide, by decide, by decide, by decide⟩

/-- Channel 0 alone in service with one RDIMM of 16 GiB, in a state. -/
def dramming (st : Nat) (f : DramChan → DramChan) : State :=
  modChan 0 (fun c => f { c with state := st }) (modDram (fun d => { d with order := [0], perChannel := 16 }) serving)
/-- A read of location 0 by a program. -/
def aRead : DramReq := { kind := .program, domain := 0, addr := 0, write := none }
/-- It waits for its data. -/
def aWait (retried : Bool) : DramWait := { req := aRead, issued := 0, deadline := 2000, retried := retried, data := [] }
theorem witness_DramEventsComplete :
    channelAt serving 0 = none ∧ (channelAt (dramming 5 id) 0 = some 0 ∧ dramGone (dramming 5 id) 0 = true) ∧ (channelAt (dramming 2 id) 0 = some 0 ∧ dramGone (dramming 2 id) 0 = false ∧ (dramChan (dramming 2 id) 0).queue.length < 256 ∧ aRead.write = none) ∧
    256 ≤ (dramChan (dramming 2 fun c => { c with queue := List.replicate 256 (aWait false) }) 0).queue.length ∧
    (((dramChan (dramming 2 fun c => { c with queue := [aWait false] }) 0).queue.find? fun w => w.req.addr.toNat / 64 == 0) = some (aWait false) ∧ ((dramChan (dramming 2 fun c => { c with queue := [aWait false] }) 0).queue.findIdx? fun w => w.req.addr.toNat / 64 == 0) = some 0) ∧
    (dramPoisoned (dramming 2 id) 0 = false ∧ dramPoisoned (poisonAt (1025, 0) 64 (dramming 2 id)) 0 = true) ∧ (aWait true).retried = true ∧ ((dramChan (dramming 2 id) 0).queue.find? fun w => w.req.addr.toNat / 64 == 0) = none ∧
    (((dramChan (dramming 2 id) 0).alerts.filter fun t => nowNs serving < t + 10000) ++ [nowNs serving]).length < 4 ∧ 4 ≤ (((dramChan (dramming 3 fun c => { c with alerts := [0, 0, 0] }) 0).alerts.filter fun t => nowNs serving < t + 10000) ++ [nowNs serving]).length ∧
    ((dramChan (dramming 3 id) 0).state = 3 ∧ (dramChan (dramming 4 id) 0).state = 4) ∧ (chanServes (dramChan serving 0) = false ∧ chanServes (dramChan (dramming 2 id) 0) = true) ∧
    (dramChan (dramming 2 fun c => { c with candidates := [9] }) 0).candidates = [9] ∧ Tbl.countIf (dramChan (dramming 2 fun c => { c with candidates := [9] }) 0).rows (fun _ x => x.state == 3) ≤ 64 ∧
    64 < Tbl.countIf (dramChan (dramming 2 fun c => { c with rows := (upFrom 0 65).map fun i => (i, ⟨[], false, 3⟩) }) 0).rows (fun _ x => x.state == 3) := by
  refine ⟨by decide, by decide, by decide, (Nat.le_of_eq List.length_replicate.symm : 256 ≤ (List.replicate 256 (aWait false)).length), by decide, by decide, by decide, by decide, by decide, by decide, by decide, by decide, by decide, by decide, by decide⟩

/-- PARK in a phase. -/
def parked (phase : Nat) (entered off : Bool) : State := modBist (fun b => { b with phase := phase, entered := entered, powerOff := off }) (inMode .park)
/-- MAINTENANCE with a PARK that is due. -/
def parkSoon : State := { inMode .maintenance with glb := { (inMode .maintenance).glb with parkDue := some { powerOff := false, force := true, needed := false, before := [] } } }
/-- The voltage loop running at a voltage. -/
def looping (mv fast : Nat) : State := modElec (fun e => { e with vout := mv, fastRun := fast, linear := true, present := Vector.replicate 7 true }) serving
theorem witness_ParkAndElectricalEventsComplete :
    (parkSoon.glb.mode = .maintenance ∧ parkSoon.glb.parkDue.isSome = true ∧ fuseRuns parkSoon = false) ∧ (inMode .maintenance).glb.parkDue = none ∧
    ((parked 1 false false).bist.phase = 1 ∧ (parked 1 false false).bist.entered = false ∧ (parked 1 false false).glb.mode = .park) ∧ ((parked 6 true true).bist.entered = true ∧ (parked 6 true true).bist.phase ∈ [3, 4, 5, 6]) ∧
    ((parked 8 true true).bist.powerOff = true ∧ (parked 8 true false).bist.powerOff = false ∧ (parked 9 true true).bist.phase = 9) ∧ (serving.glb.mode ≠ .maintenance ∧ serving.glb.mode ≠ .park) ∧
    (serving.glb.powered = true ∧ hottest serving = some 0) ∧ hottest { serving with degr := { serving.degr with entries := (upFrom 0 16).map fun n => { kind := 0x0D, reason := 6, unit := n, detail := 0, epoch := 0 } } } = none ∧
    ((looping 699 0).elec.stuck = false ∧ avsHeld (looping 699 0) = false ∧ (looping 699 0).elec.vout < 700) ∧ avsHeld (inMode .park) = true ∧ (avsHeld (looping 700 99) = false ∧ 700 ≤ (looping 700 99).elec.vout ∧ 100 ≤ (looping 700 99).elec.fastRun + 1) ∧
    ((looping 620 99).elec.vout ≤ 620 ∧ (looping 699 98).elec.fastRun + 1 < 100) ∧ ((looping 620 99).elec.present[(6 : Fin 7)] = true ∧ (looping 620 99).glb.fwRuns = true) ∧ (modElec (fun e => { e with present := Vector.replicate 7 false }) serving).elec.present[(0 : Fin 7)] = false := by
  refine ⟨by decide, by decide, by decide, by decide, by decide, by decide, by decide, by decide, by decide, by decide, by decide, by decide, by decide, by decide⟩

/-- A debug session with a grant. -/
def debugging (g : Nat) : State := modKlb (fun k => { k with session := some { grant := g, keyIndex := 1, endsAt := 10 ^ 12 } }) serving
theorem witness_MonitorRefusesByServerAndGrant :
    klbServer State.reset = .nobody ∧ klbServer (booting .recovery) = .rom ∧ klbServer (inMode .park) = .parked ∧ (klbServer (debugging 0) = .firmware ∧ granted (debugging 0) .observe = false ∧ granted (debugging 0) .control = false ∧ granted (debugging 0) .secure = false) ∧
    (klbMayRead (debugging 4) 0 = false ∧ klbMayRead (debugging 4) 0x0B000000 = true ∧ klbMayWrite (debugging 4) 0x0B000000 = false ∧ klbMayWrite (debugging 2) 0 = true) := by
  refine ⟨by decide, by decide, by decide, by decide, by decide⟩
theorem witness_MonitorLinesComplete :
    (klbServer serving = .firmware ∧ klbServer serving ≠ .nobody) ∧ (115200 ∈ [115200, 230400, 460800, 921600, 1500000, 3000000] ∧ 9600 ∉ [115200, 230400, 460800, 921600, 1500000, 3000000]) ∧
    ((List.replicate 1 (0 : Byte)).length ≤ 1024 ∧ 8447 % 8 ≠ 0 ∧ 8440 % 8 = 0 ∧ 8440 + (List.replicate 8 (0 : Byte)).length ≤ 8448) ∧ authGood serving (authRecord serving) = false := by
  refine ⟨by decide, by decide, by decide, ?_⟩
  have : nonceGood serving (authRecord serving) = false := rfl
  simp only [authGood, this, Bool.and_false, Bool.false_and]

/-- A session of every grant, core 0's thread 0 HALTED at address 0 on ADD a0, a0, a1. -/
def halted : State := coded 0x00B50533 (modCore 0 (fun c => { c with threads := [(0, { aThread 5 6 with st := .halted })] }) (twoHods (debugging 7)))
theorem witness_MonitorDebugCommandsComplete :
    (klbServer halted = .firmware ∧ granted halted .observe = true ∧ granted halted .control = true ∧ granted halted .secure = true) ∧
    (klbMayRead halted 0xFFFFFFFC = true ∧ (readAddrs 0xFFFFFFFC 1).all (klbMayRead halted) = true ∧ 0xFFFFFFFC % 4 = 0 ∧ 0xFFFFFFFC + 4 * 1 ≤ 2 ^ 32) ∧ klbMayWrite halted 0x140 = true ∧
    (regionOf halted 0 0xFFFF 1 = some (.instr 0xFFFF) ∧ regionOf halted 0 0xFFFF 2 = none ∧ poisonedAt halted 0 (.instr 0xFFFF) 1 = false) ∧
    (regionOf halted 0 (2 ^ 48) 256 = some (.hod 0 0) ∧ hodCheck halted 0 0 256 1 = none ∧ hodHeld halted 0 = true ∧ poisonedAt halted 0 (.hod 0 0) 256 = false ∧ hodCheck halted 0 0 257 1 = some false ∧ freeHodAt halted 0 (2 ^ 48 + 2 * 65536) 1 = true) ∧
    (stopped halted 0 0 = true ∧ stopped halted 0 1 = false ∧ (thread halted 0 0).any (fun th => th.st == .halted) = true) ∧ ((stepThread 0 0 1 halted).map fun u => (pcOf u 0 0, threadCode u 0 0)) = some (4, 4) ∧
    (instrLen (instrAt halted 0 0) = 4 ∧ instrLen (instrAt halted 0 0xFFFE) = 2 ∧ Tbl.has (coreOf halted 0).bps 0 = false ∧ (coreOf halted 0).bps.length < 64) ∧
    (Tbl.find (coreOf (modCore 0 (fun c => { c with bps := [(0, 5)] }) halted) 0).bps 0 = some 5 ∧ 64 ≤ (coreOf (modCore 0 (fun c => { c with bps := (upFrom 1 64).map fun n => (2 * n, 0) }) halted) 0).bps.length) := by
  refine ⟨by decide, by decide, by decide, by decide, by decide, by decide, by decide, by decide, by decide⟩
/-- The same where the instruction reads a hod that nobody holds. -/
def haltedAtHod : State := coded 0x00053503 (modCore 0 (fun c => { c with threads := [(0, { aThread (2 ^ 48) 6 with st := .halted })] }) (debugging 7))
theorem witness_stepAtFreeHod : (stepThread 0 0 1 haltedAtHod).isNone = true := by decide

theorem witness_XbtxEncodingsRoundTrip :
    xbFits (.hcas 31 63 31 31) = true ∧ (0xF9FF_CFAB < 2 ^ 32 ∧ rvDecode 0xFBFF_CFAB = none ∧ rvDecode 0xF9FF_CFAB = some (.xb (.hcas 31 62 31 31))) ∧ (bitsAt 0x0005_C50B 0 7 = 0b0001011 ∧ rvDecode 0x0005_C50B = some (.xb (.twait 10 11))) ∧ (31 < 32) ∧ (bitsAt 0x0000_700B 0 7 = 0b0001011 ∧ bitsAt 0x0000_700B 12 3 = 0b111) ∧
    (nextThread (coded 0x0000_700B (coring [(0, aThread 5 6)])) 0 = some 0 ∧ isLost (coded 0x0000_700B (coring [(0, aThread 5 6)])) 3 0 = false ∧ (fetch (coded 0x0000_700B (coring [(0, aThread 5 6)])) 0 (aThread 5 6)).toOption = some 0x0000_700B ∧ rvDecode 0x0000_700B = none) := by
  refine ⟨by decide, by decide, by decide, by decide, by decide, by decide⟩
theorem witness_ToeplitzIsTheLinearHashOfItsBits :
    8 * (List.replicate 40 (0xFF : Byte)).length + 31 ≤ 8 * (List.replicate 44 (0x55 : Byte)).length ∧ toeplitz 0x5555555555 40 0x80 8 = toeplitz 0x5555555555 40 0x20 8 := by
  refine ⟨by decide, by decide⟩
theorem witness_HawkInstructionsChangeOneRegister :
    (thread (coring [(0, aThread 5 6)]) 0 0).isSome = true ∧ mayIssue (coring [(0, aThread 5 6)]) 0 0 = true ∧ hawk (coring [(0, aThread 0 6)]) 0 63 = ((aThread 0 6).x 10).toNat ∧ hawk (coring [(0, aThread 5 6)]) 0 0 ≠ ((aThread 5 6).x 10).toNat := by
  refine ⟨by decide, by decide, by decide, by decide⟩
theorem witness_OwnerEventsAndModeTransitionsAreReported :
    (serving.glb.fwRuns = true ∧ State.reset.glb.fwRuns = false) ∧ (bitAt serving.owner.mask 0x10 = false ∧ bitAt (({ serving with owner := { serving.owner with mask := 2 ^ 16 } } : State).owner.mask) 0x10 = true) ∧ serving.owner.held.length < 1024 ∧
    1024 ≤ ((List.replicate 1024 (mkEvent serving 0x10 0 0 0 false []))).length ∧ (serving.glb.mode ≠ .quiesce ∧ serving.glb.mode ≠ .maintenance) := by
  refine ⟨by decide, by decide, by decide, Nat.le_of_eq List.length_replicate.symm, by decide⟩

/-- A node whose four transitions look at two bytes, with a default action. -/
def fourWays (default_ : Nat) : List Nat :=
  [0x80000000, 0, 0x78000000, 2, 0, default_, 0xF, 0] ++ List.replicate 8 0
    ++ [0x0101, 0xFFFF, 0x40000006, 0x0102, 0xFFFF, 0x80000000, 0x0103, 0xFFFF, 0xC0000009, 0x0003, 0x00FF, 0x40000007]
/-- The walk finds no cause at the node, and its action is this one. -/
def acts (pkt : List Byte) (default_ : Nat) (a : Nat × Nat) : Bool :=
  Tbl.getD [(5, fourWays default_)] (0 * 256 + 5) [] == fourWays default_ && !badNode (fourWays default_) && nodeBits (fourWays default_) 0 31 1 == 1
    && nodeCause (fourWays default_) pkt 0 0 false false == 0 && selectAction (fourWays default_) pkt 0 == a
theorem witness_FirstEqualTransitionGivesTheAction :
    (2 < 16 ∧ transValid (fourWays 0) 2 = true ∧ (fieldAt [1, 3] 0 16 &&& nodeWord (fourWays 0) 23) = (nodeWord (fourWays 0) 22 &&& nodeWord (fourWays 0) 23)) ∧
    ((fieldAt [1, 3] 0 16 &&& nodeWord (fourWays 0) 26) = (nodeWord (fourWays 0) 25 &&& nodeWord (fourWays 0) 26)) ∧
    (selectAction (fourWays 0) [9, 9] 0).1 = 0 ∧ nodeCause (fourWays 0) [9, 9] 0 0 false false = 4 ∧
    acts [1, 1] 0 (1, 6) = true ∧ acts [1, 2] 0 (2, 0) = true ∧ acts [1, 3] 0 (3, 9) = true ∧ acts [7, 3] 0 (1, 7) = true ∧ acts [9, 9] 0x40000002 (1, 2) = true := by
  refine ⟨by decide, by decide, by decide, by decide, by decide, by decide, by decide, by decide, by decide⟩

/-! Vectors that the spec's own worked examples give. -/

/-- R190's example: key bytes 0 to 7 and C14 = 0x8001_0001. -/
theorem test_toeplitz : toeplitz 0x3C71A49E05D288F6 64 0x80010001 32 = 0xECD7E20C ∧ 0xECD7E20C % 256 = 12 := by decide
/-- R61's example: 5 slots from slot 254 of a ring of 256. -/
theorem test_ring_slots : ringNext 8 254 ({ packet 0 0 25 [] with params := [] } : Packet).slots = 3 := by decide
/-- R289's example: base 12,000, margin 3,000, BETA 128, a sample of 18,000. -/
theorem test_rate_decrease : ((rateAfter 18000 100000000 { aConn with
    cfg := { aConn.cfg with margin := 3000, beta := 128, minRate := 0 }
    baseRtt := 12000, rate := 100000, srtt := 15000, lastAdj := 0 }).2).rate = 91796 := by decide
/-- The nonces of connection 0x00_1A2B (R347). -/
theorem test_nonce_write : lrdNonce 5 0x1A2B (nonceSeq 0x100000040) = [0x05, 0, 0x1A, 0x2B, 0, 0, 0, 1, 0, 0, 0, 0x40] := by decide
theorem test_nonce_read_rsp : lrdNonce 5 0x1A2B (nonceRsp 12288 4096 7) = [0x05, 0, 0x1A, 0x2B, 0x80, 0, 0x18, 0, 0, 0, 0, 7] := by decide
/-- R377's example: TWAIT a0, a1. -/
theorem test_twait_word : xbWord (.twait 10 11) = 0x0005C50B := by decide
/-- R502's example: the first word of the record of the late completion. -/
theorem test_violation_word : (violationWords { kind := 3, block := 1, target := 0x8828, seq := 0, epoch := 0, dtime := 0, detail := [] }).head? = some 0x88280103 := by decide
/-- The shaped queue of chapter 9: 1,500 bytes of debt at 10,000 Mb/s are 1,200 ns. -/
theorem test_credit_wait : creditWait (-1500000) 10000 = 1200 := by decide
/-- The shaped queue of chapter 9: 3,600 ns of backlog give the whole burst of 4,500 bytes. -/
theorem test_credit_grows : (grow 10000 4500 ⟨-1500000, 5150, true⟩ 5750).credit = 4500000 := by decide

/-- The prefixes of the worked IPv4 block, added in turn; a longer and a shorter default route stand beside them. -/
def ipv4Block : State :=
  [(0x0A140300, 24, 1), (0x0A140307, 32, 2), (0x0A140000, 22, 3), (0x0A141000, 20, 4), (0x0A140000, 16, 5), (0x0A000000, 8, 6)].foldl
    (fun s r => modLpm false (fun t => { t with routes := t.routes ++ [{ prefix_ := r.1, len := r.2.1, pushed := false, noact := false, action := r.2.2, bucket := none }] }) s) serving
theorem test_lpm_first_probe : (lpmLookup false 0x0A140307 ipv4Block).2.1 = [32, 2, 0, 1] := by decide
theorem test_lpm_third_probe : (lpmLookup false 0x0A140109 ipv4Block).2.1 = [22, 3, 0, 3] := by decide
theorem test_lpm_after_recirculation : (lpmLookup false 0x0A14C809 ipv4Block).2.1 = [16, 5, 0, 5] := by decide
theorem test_lpm_block_mask : maskLens false (filterMask false (lpmOf ipv4Block false) 0x0A14) = [32, 24, 22, 20, 16, 8] := by decide

/-- A node record: its eight header words, its extracts and its GOTO transitions. -/
def nodeOf (head extracts : List Nat) (trans : List (Nat × Nat)) : List Nat :=
  head ++ (extracts ++ List.replicate 8 0).take 8 ++ trans.flatMap fun t => [t.1, 0xFFFF, 0x40000000 + t.2]
/-- An extract: container, bit offset and width. -/
def take_ (c off width : Nat) : Nat := 2 ^ 31 + (width - 1) * 2 ^ 26 + off * 2 ^ 15 + c
/-- The receive graph of chapter 6's first worked example. -/
def lrdGraph : Tbl (List Nat) :=
  [ (0, nodeOf [0x83000100, 0, 0x78600000, 14, 0, 0x80000000, 3, 0] [take_ 0 0 32, take_ 1 32 16, take_ 2 48 32, take_ 3 80 16] [(0x8100, 1), (0x86DD, 2)]),
    (1, nodeOf [0x81100000, 0x00010000, 0x78100000, 4, 0, 0x80000000, 3, 0] [take_ 4 0 16] [(0x8100, 1), (0x86DD, 2)]),
    (2, nodeOf [0x81200000, 0x00020000, 0, 0, 0, 0x40000003, 0, 0] ((List.range 8).map fun i => take_ (6 + i) (64 + 32 * i) 32) []),
    (3, nodeOf [0x82000200, 0, 0x38300000, 40, 0xF8200028, 0x80000000, 0x1F, 0] [take_ 5 0 32] [(17, 4), (0, 5), (43, 5), (44, 5), (60, 5)]),
    (4, nodeOf [0x83300300, 0x00040000, 0x78100000, 8, 0xF8200000, 0x80000000, 1, 0] [0xFC00000E] [(0x4E84, 6)]),
    (6, nodeOf [0xC3400400, 0, 0, 0, 0, 0x80000000, 0, 0] [] []) ]
/-- The example's frame: a VLAN tag, IPv6 with a payload of 260 bytes, and a UDP length. -/
def lrdFrame (udp : Nat) : List Byte :=
  List.replicate 12 0 ++ [0x81, 0x00, 0x00, 0x05, 0x86, 0xDD, 0x60, 0, 0, 0, 0x01, 0x04, 17, 64] ++ List.replicate 32 0
    ++ [0x12, 0x34, 0x4E, 0x84] ++ beBytes 2 udp ++ List.replicate 254 0
/-- What the examples show of how the walk of a pass ended. -/
def shown : PassEnd → Nat × List (Option Nat) × List Nat × Bool
  | .accept v => (0, v.h.toList.take 5, [v.payloadOffset, v.nodes, v.profile, v.flags, v.passes, v.cause, v.failNode, v.failCursor], v.express)
  | .recirculate v _ _ => (1, v.h.toList.take 5, [], v.express)
  | .malformed v => (2, v.h.toList.take 5, [v.payloadOffset, v.nodes, v.profile, v.flags, v.passes, v.cause, v.failNode, v.failCursor], v.express)
set_option maxRecDepth 4000 in
theorem test_parse_worked_graph : shown (parseFirst lrdGraph 0 (lrdFrame 260) 32 0)
    = (0, [some 0, some 14, some 18, some 58, some 66], [66, 6, 4, 7, 1, 0, 0, 0], true) := by decide
set_option maxRecDepth 4000 in
theorem test_parse_length_mismatch : shown (parseFirst lrdGraph 0 (lrdFrame 300) 32 0)
    = (2, [some 0, some 14, some 18, none, none], [58, 5, 2, 3, 1, 5, 4, 58], false) := by decide

/-! Ill-formed terms: one for each check of WellFormed, beside a well-formed one. -/

/-- A submission entry of n words. -/
def anEntry (n : Nat) : Sqe := { sq := 0, words := List.replicate n 0, prpList := [], ranges := [], fetchOk := true }
/-- A memory request of a length that writes bytes. -/
def aRequest (n : Nat) (d : List Byte) : BarReq := { hit := none, offset := 0, length := n, write := true, data := d, poisoned := false, header := [], wrs := [], bufs := [] }
/-- A drive's Identify with strings of these lengths. -/
def anIdentity (a b c d : Nat) : DriveIdentity := {
  serial := List.replicate a 0, model := List.replicate b 0, firmware := List.replicate c 0, awupf := 0, volatileCache := false, deallocate := false, supported := true,
  namespaces := [{ nsid := 1, capacity := 8, blockSize := 4096, nawupf := none, nabspf := none, nguid := List.replicate d 0 }] }
/-- What the loader finds with one RDIMM of a capacity. -/
def aDimm (capacity : Nat) : BootFindings := { dimms := vset (Vector.replicate 12 none) 3 (some { serial := 1, capacity := capacity, maxSpeed := 1, dense := false, supported := true, checkOk := true, trainOk := true }) }
theorem test_wf_accepts : ([.powerOn, .deviceInfo (packet 0 0 1 [0, 0]), .loaderStage (aDimm 64), .hostAttach 0 ⟨5, 16, false, []⟩, .driveLinkUp 0 ⟨4, 4, false, []⟩,
    .barMemoryRequest 0 (aRequest 2 [1, 2]), .nvmeIdentify 0 .pf1 (anEntry 16), .driveInitialised 0 (anIdentity 20 40 8 16), .txqDoorbell 0 .pf0 1 0] : List Instr).all Instr.wf = true := by decide
theorem test_wf_packet : ([.deviceInfo (packet 0 0 1 [0]), .deviceInfo (packet 0 0 505 []), .modeGet { onRing 0 none 0 0 0 [] 0 with vdm := some 1 },
    .unassignedOpcode 0x7FFF (packet 0 0 2 [1]), .oversizeCommand ⟨0, none⟩ (packet 0 0 2 [1])] : List Instr).all (fun i => !i.wf) = true := by decide
theorem test_wf_links : ([.loaderStage (aDimm 0), .unitFailureInService 0 0, .unitFailureInService 0x16 0, .hostAttach 0 ⟨0, 16, false, []⟩, .hostAttach 0 ⟨8, 16, false, []⟩,
    .linkWidthChange 0 ⟨5, 2, false, []⟩, .driveLinkUp 0 ⟨4, 8, false, []⟩, .vfEnableClear 0 .pf2, .vfEnableSet 0 (.vf 1), .configRequest 0 ⟨.pf0, false, 2⟩,
    .configWrite 0 .pf0 6 0 15, .barMemoryRequest 0 (aRequest 0 []), .barMemoryRequest 0 (aRequest 2 [1]),
    .barMemoryRequest 0 { aRequest 2 [1, 2] with wrs := [⟨[0], true⟩] }, .barMemoryRequest 0 { aRequest 2 [1, 2] with bufs := [⟨[0], true⟩] }] : List Instr).all (fun i => !i.wf) = true := by decide
theorem test_wf_queues : ([.txqDoorbell 0 .pf1 1 0, .rxqDoorbell 0 .pf2 1 0, .cqDoorbell 0 .pf1 1 0, .txDescriptorReadDone 0 .pf0 1 ⟨.ok, [1, 2]⟩, .txDescriptorReadDone 0 .pf1 1 ⟨.ok, []⟩,
    .rxFrameArrival 0 [] true true, .timingWheelSlotDue 65536, .coarseSlotDue 4096, .lrdSqDoorbell 0 5 0 [⟨[0, 1], true⟩], .lrdRqDoorbell 0 5 0 [⟨[0, 1], true⟩]] : List Instr).all (fun i => !i.wf) = true := by decide
theorem test_wf_storage : ([.nvmeSqDoorbell 0 .pf0 0 0, .nvmeCcEnSet 0 .pf1 0, .nvmeCcEnSet 0 .pf2 1, .nvmeIdentify 0 .pf1 (anEntry 15), .nvmeIdentify 0 .pf0 (anEntry 16), .writeInsertion 0 .pf0 1 1 [],
    .backingReadDone 0 .pf2 1 1 .ok [], .selfTestStep 0 .pf0 false, .driveInitialised 0 (anIdentity 19 40 8 16), .driveInitialised 0 (anIdentity 20 39 8 16),
    .driveInitialised 0 (anIdentity 20 40 9 16), .driveInitialised 0 (anIdentity 20 40 8 15)] : List Instr).all (fun i => !i.wf) = true := by decide
theorem test_wf_rest : ([.keyAlarmSource 0 0, .keyAlarmSourceCleared 10, .pageFetchDone 0 16777216 [] true, .dramRequest ⟨.ctx, 0, 1, none⟩, .dramRequest ⟨.ctx, 0, 64, some [1]⟩,
    .dramReadEcc 0 8 ⟨0, 0⟩, .patrolScrub 0 8 ⟨0, 0⟩, .authLoad 0 [], .mwr 0 0 0 [], .setreg 0 0 0 (some 0) 1, .klbHalt 0 none (some 1), .klbResume 0 none (some 1), .imgData [],
    .spdmUnsupportedRequest (.doe 0) ⟨0x12, 0x84, 0, 0, []⟩] : List Instr).all (fun i => !i.wf) = true := by decide
/-- Every memory of the machine lists nothing at reset, which is the canonical form. -/
theorem test_reset_memories : Mem.wf State.reset.dram.mem 0 = true ∧ Mem.wf State.reset.hod.mem 0 = true ∧ Mem.wf State.reset.nv.flash 0xFF = true ∧ State.reset.cores.mems = [] := by
  refine ⟨by decide, by decide, by decide, by decide⟩
/-- The table gives no row an encoding, so no word spells a command. -/
theorem test_no_word_spells_a_command : decodeTableWord 32 0x0005C50B = none := by decide

end Sys2Proof.Tests
end

section
/-! PROOF. The choice of a node's action (R141) and how one node of the walk follows it (R140, R142), for O59. -/

namespace Sys2Proof.Machine
open Sys2Proof

/-- Transition k of a node is valid and equal: its VALUE is the selector under its MASK (R141). -/
def equalTransition (n : List Nat) (pkt : List Byte) (cursor k : Nat) : Bool :=
  transValid n k &&
    (fieldAt pkt (8 * cursor + nodeBits n 2 16 11) (nodeBits n 2 27 5 + 1) &&& nodeWord n (16 + 3 * k + 1))
      == (nodeWord n (16 + 3 * k) &&& nodeWord n (16 + 3 * k + 1))

theorem equalTransition_iff (n : List Nat) (pkt : List Byte) (cursor k : Nat) :
    equalTransition n pkt cursor k = true ↔ transValid n k = true ∧
      (fieldAt pkt (8 * cursor + nodeBits n 2 16 11) (nodeBits n 2 27 5 + 1) &&& nodeWord n (16 + 3 * k + 1))
        = (nodeWord n (16 + 3 * k) &&& nodeWord n (16 + 3 * k + 1)) := by
  rw [equalTransition, Bool.and_eq_true, beq_iff_eq]

/-- A search upwards finds the least number of its range that the test accepts. -/
theorem find?_upFrom_of_least {p : Nat → Bool} {a count k : Nat} (hlo : a ≤ k) (hhi : k < a + count) (hk : p k = true)
    (hleast : ∀ j, a ≤ j → j < k → p j = false) : (upFrom a count).find? p = some k := by
  induction count generalizing a with
  | zero => omega
  | succ m ih =>
    rw [upFrom]
    rcases Nat.eq_or_lt_of_le hlo with rfl | hlt
    · exact List.find?_cons_of_pos hk
    · rw [List.find?_cons_of_neg (by simp [hleast a (Nat.le_refl a) hlt])]
      exact ih hlt (by omega) fun j hj => hleast j (by omega)

/-! The action selected (R141) -/

section SelectAction
variable {n : List Nat} {pkt : List Byte} {cursor : Nat}

theorem selectAction_of_find?_eq_some {k : Nat} (h : (upFrom 0 16).find? (equalTransition n pkt cursor) = some k) :
    selectAction n pkt cursor = (nodeBits n (16 + 3 * k + 2) 30 2, nodeBits n (16 + 3 * k + 2) 0 8) := by
  unfold equalTransition at h
  simp only [selectAction, h]

theorem selectAction_of_find?_eq_none (h : (upFrom 0 16).find? (equalTransition n pkt cursor) = none) :
    selectAction n pkt cursor = (nodeBits n 5 30 2, nodeBits n 5 0 8) := by
  unfold equalTransition at h
  simp only [selectAction, h]

theorem selectAction_of_first_equal {k : Nat} (hk : k < 16) (heq : equalTransition n pkt cursor k = true)
    (hfirst : ∀ j, j < k → equalTransition n pkt cursor j = false) :
    selectAction n pkt cursor = (nodeBits n (16 + 3 * k + 2) 30 2, nodeBits n (16 + 3 * k + 2) 0 8) :=
  selectAction_of_find?_eq_some (find?_upFrom_of_least (Nat.zero_le k) (by omega) heq fun j _ => hfirst j)

theorem selectAction_of_none_equal (hnone : ∀ k, k < 16 → equalTransition n pkt cursor k = false) :
    selectAction n pkt cursor = (nodeBits n 5 30 2, nodeBits n 5 0 8) := by
  refine selectAction_of_find?_eq_none (List.find?_eq_none.mpr fun k hk => ?_)
  have hlt : k < 16 := by have := (mem_upFrom 0 16 k).mp hk; omega
  simp [hnone k hlt]

/-- No action is NO_TRANSITION (4), unless an earlier step of R140 finds BEYOND_PACKET, DEPTH_EXCEEDED or LENGTH_MISMATCH. -/
theorem nodeCause_of_no_action (base : Nat) (second express : Bool) (h : (selectAction n pkt cursor).1 = 0) :
    nodeCause n pkt base cursor second express ∈ [1, 3, 4, 5] := by
  simp only [nodeCause, h, if_true]
  repeat' split
  all_goals decide

end SelectAction

/-! One node of the walk (R140, R142) -/

section Walk
variable {nodes : Tbl (List Nat)} {n : List Nat} {dir node : Nat}
  (hn : Tbl.getD nodes (dir * 256 + node) [] = n) (hgood : badNode n = false) (hvalid : nodeBits n 0 31 1 = 1)
  (pkt : List Byte) (base fuel cursor : Nat) (second : Bool) (v : FieldVec)
include hn hgood hvalid

theorem walk_of_cause (h : nodeCause n pkt base cursor second v.express ≠ 0) :
    walk nodes dir pkt base second (fuel + 1) node cursor v =
      failAt (nodeCause n pkt base cursor second v.express) node cursor { v with nodes := v.nodes + 1 } := by
  simp [walk, hn, hgood, hvalid, h]

theorem walk_of_goto {next : Nat} (h : nodeCause n pkt base cursor second v.express = 0)
    (hact : selectAction n pkt cursor = (1, next)) :
    walk nodes dir pkt base second (fuel + 1) node cursor v =
      walk nodes dir pkt base second fuel next (cursor + advance n pkt cursor)
        (applyNode n pkt cursor second { v with nodes := v.nodes + 1 }) := by
  simp [walk, hn, hgood, hvalid, h, hact]

theorem walk_of_accept {next : Nat} (h : nodeCause n pkt base cursor second v.express = 0)
    (hact : selectAction n pkt cursor = (2, next)) :
    walk nodes dir pkt base second (fuel + 1) node cursor v =
      .accept { applyNode n pkt cursor second { v with nodes := v.nodes + 1 } with
        payloadOffset := cursor + advance n pkt cursor } := by
  simp [walk, hn, hgood, hvalid, h, hact]

theorem walk_of_recirculate {next : Nat} (h : nodeCause n pkt base cursor second v.express = 0)
    (hact : selectAction n pkt cursor = (3, next)) :
    walk nodes dir pkt base second (fuel + 1) node cursor v =
      .recirculate { applyNode n pkt cursor second { v with nodes := v.nodes + 1 } with
        payloadOffset := cursor + advance n pkt cursor } next (cursor + advance n pkt cursor) := by
  simp [walk, hn, hgood, hvalid, h, hact]

end Walk

/-- Settles O59: the search over the transitions ends at the least equal one, and the walk follows what it found. -/
theorem firstEqualTransitionGivesTheAction : Obligations.FirstEqualTransitionGivesTheAction := by
  unfold Obligations.FirstEqualTransitionGivesTheAction
  intro n pkt cursor sel equal
  have hequal (k : Nat) : equal k ↔ k < 16 ∧ equalTransition n pkt cursor k = true :=
    and_congr_right fun _ => (equalTransition_iff n pkt cursor k).symm
  simp only [hequal]
  refine ⟨fun k ⟨hk, heq⟩ hfirst => ?first, fun hnone => ?default,
    fun base second express => nodeCause_of_no_action base second express,
    fun nodes dir base fuel node second v hn hgood hvalid => ⟨?cause, fun next => ?goto, fun next => ?accept, fun next => ?recirculate⟩⟩
  case first => exact selectAction_of_first_equal hk heq fun j hj => by simpa [Nat.lt_trans hj hk] using hfirst j hj
  case default => exact selectAction_of_none_equal fun k hk => by simpa [hk] using hnone k
  case cause => exact walk_of_cause hn hgood hvalid pkt base fuel cursor second v
  case goto => exact walk_of_goto hn hgood hvalid pkt base fuel cursor second v
  case accept => exact walk_of_accept hn hgood hvalid pkt base fuel cursor second v
  case recirculate => exact walk_of_recirculate hn hgood hvalid pkt base fuel cursor second v

end Sys2Proof.Machine
end

section
/-! PROOF. The bits of a byte string in network order (R11) and of the Toeplitz hash, its width and its linearity (R190), for O56. -/

namespace Sys2Proof.Machine
open Sys2Proof

/-! Bits of numbers and of byte strings -/

theorem bitAt_eq_testBit (n i : Nat) : bitAt n i = n.testBit i := by
  rw [bitAt, Nat.testBit_eq_decide_div_mod_eq, Bool.beq_eq_decide_eq]

theorem testBit_bitsAt (n lo width i : Nat) : (bitsAt n lo width).testBit i = (decide (i < width) && n.testBit (lo + i)) := by
  rw [bitsAt, Nat.testBit_mod_two_pow, Nat.testBit_div_two_pow, Nat.add_comm]

theorem bitsAt_lt (n lo width : Nat) : bitsAt n lo width < 2 ^ width := Nat.mod_lt _ (Nat.two_pow_pos width)

theorem bitOfBytes_cons_lt (b : Byte) (l : List Byte) (i : Nat) (hi : i < 8) : bitOfBytes (b :: l) i = b.toNat.testBit (7 - i) := by
  rw [bitOfBytes, Nat.div_eq_of_lt hi, Nat.mod_eq_of_lt hi, List.getD_cons_zero, bitAt_eq_testBit]

theorem bitOfBytes_cons_add (b : Byte) (l : List Byte) (i : Nat) : bitOfBytes (b :: l) (i + 8) = bitOfBytes l i := by
  rw [bitOfBytes, bitOfBytes, Nat.add_div_right i (by decide), Nat.add_mod_right, List.getD_cons_succ]

/-- The bytes still to be read fill the low bits of the number, and what was read before stands above them. -/
theorem testBit_beNatAcc (a : Nat) (l : List Byte) (j : Nat) :
    (beNatAcc a l).testBit j = if j < 8 * l.length then bitOfBytes l (8 * l.length - 1 - j) else a.testBit (j - 8 * l.length) := by
  induction l generalizing a with
  | nil => rfl
  | cons b l ih =>
    rw [beNatAcc, ih, List.length_cons]
    by_cases hlater : j < 8 * l.length
    · have hpos : 8 * (l.length + 1) - 1 - j = 8 * l.length - 1 - j + 8 := by omega
      rw [if_pos hlater, if_pos (by omega), hpos, bitOfBytes_cons_add]
    · rw [if_neg hlater, Nat.testBit_two_pow_mul_add (i := 8) a b.isLt]
      by_cases hfirst : j < 8 * (l.length + 1)
      · have hpos : j - 8 * l.length = 7 - (8 * (l.length + 1) - 1 - j) := by omega
        rw [if_pos (by omega), if_pos hfirst, bitOfBytes_cons_lt b l _ (by omega), hpos]
      · have hpos : j - 8 * l.length - 8 = j - 8 * (l.length + 1) := by omega
        rw [if_neg (by omega), if_neg hfirst, hpos]

/-- Bit 0 of a byte string is the most significant bit of byte 0 (R190), and so of the number. -/
theorem bitAt_beNat (l : List Byte) (i : Nat) (hi : i < 8 * l.length) : bitAt (beNat l) (8 * l.length - 1 - i) = bitOfBytes l i := by
  have hpos : 8 * l.length - 1 - (8 * l.length - 1 - i) = i := by omega
  rw [bitAt_eq_testBit, beNat, testBit_beNatAcc, if_pos (by omega), hpos]

/-! The exclusive or of the selected values of a list, which the hash is -/

theorem decide_succ_odd (c : Nat) : decide ((c + 1) % 2 = 1) = !decide (c % 2 = 1) := by
  rw [← decide_not, decide_eq_decide]
  omega

/-- A bit of the exclusive or of the values that p selects is the parity of those that have it. -/
theorem testBit_foldl_xor (p : Nat → Bool) (f : Nat → Nat) (l : List Nat) (h m : Nat) :
    (l.foldl (fun h i => if p i then h ^^^ f i else h) h).testBit m
      = (h.testBit m ^^ decide ((l.filter fun i => p i && (f i).testBit m).length % 2 = 1)) := by
  induction l generalizing h with
  | nil => simp
  | cons i is ih =>
    rw [List.foldl_cons, ih, List.filter_cons]
    cases hp : p i with
    | false => simp
    | true =>
      cases hbit : (f i).testBit m with
      | false => simp [hbit]
      | true => simp [hbit, decide_succ_odd]

theorem xor_right_comm (g h v : Nat) : g ^^^ h ^^^ v = g ^^^ v ^^^ h := by
  rw [Nat.xor_assoc, Nat.xor_comm h v, ← Nat.xor_assoc]

theorem xor_cancel_common (g h v : Nat) : (g ^^^ v) ^^^ (h ^^^ v) = g ^^^ h := by
  rw [Nat.xor_comm h v, ← Nat.xor_assoc, Nat.xor_assoc g v v, Nat.xor_self, Nat.xor_zero]

/-- The exclusive or of the selected values is linear in the selection. -/
theorem foldl_xor_linear (p q : Nat → Bool) (f : Nat → Nat) (l : List Nat) (g h : Nat) :
    l.foldl (fun h i => if p i ^^ q i then h ^^^ f i else h) (g ^^^ h)
      = l.foldl (fun h i => if p i then h ^^^ f i else h) g ^^^ l.foldl (fun h i => if q i then h ^^^ f i else h) h := by
  induction l generalizing g h with
  | nil => rfl
  | cons i is ih =>
    have hstep : (if p i ^^ q i then g ^^^ h ^^^ f i else g ^^^ h) = (if p i then g ^^^ f i else g) ^^^ (if q i then h ^^^ f i else h) := by
      cases p i <;> cases q i
      case false.false => rfl
      case false.true => exact Nat.xor_assoc g h (f i)
      case true.false => exact xor_right_comm g h (f i)
      case true.true => exact (xor_cancel_common g h (f i)).symm
    rw [List.foldl_cons, hstep, ih, List.foldl_cons, List.foldl_cons]

/-! The hash (R190) -/

theorem toeplitz_lt (key kbits input n : Nat) : toeplitz key kbits input n < 2 ^ 32 := by
  refine List.foldlRecOn (motive := (· < 2 ^ 32)) _ _ (Nat.two_pow_pos 32) fun h hh i _ => ?_
  split
  · exact Nat.xor_lt_two_pow hh (bitsAt_lt ..)
  · exact hh

theorem bitAt_toeplitz (key kbits input n m : Nat) :
    bitAt (toeplitz key kbits input n) m
      = decide (((List.range n).filter fun i => bitAt input (n - 1 - i) && bitAt (bitsAt key (kbits - 32 - i) 32) m).length % 2 = 1) := by
  simp only [bitAt_eq_testBit _ m, toeplitz, testBit_foldl_xor, Nat.zero_testBit, Bool.false_xor]

/-- Bit 31 - k of key[i .. i+31] is key bit i + k. -/
theorem bitAt_keyWindow (key : List Byte) (i k : Nat) (hi : i + 32 ≤ 8 * key.length) (hk : k < 32) :
    bitAt (bitsAt (beNat key) (8 * key.length - 32 - i) 32) (31 - k) = bitOfBytes key (i + k) := by
  have hpos : 8 * key.length - 32 - i + (31 - k) = 8 * key.length - 1 - (i + k) := by omega
  rw [bitAt_eq_testBit, testBit_bitsAt, decide_eq_true (by omega), Bool.true_and, hpos, ← bitAt_eq_testBit, bitAt_beNat key (i + k) (by omega)]

theorem bitAt_toeplitz_beNat (key input : List Byte) (hlen : 8 * input.length + 31 ≤ 8 * key.length) (k : Nat) (hk : k < 32) :
    bitAt (toeplitz (beNat key) (8 * key.length) (beNat input) (8 * input.length)) (31 - k)
      = decide (((List.range (8 * input.length)).filter fun i => bitOfBytes input i && bitOfBytes key (i + k)).length % 2 = 1) := by
  rw [bitAt_toeplitz]
  congr 4
  refine List.filter_congr fun i hi => ?_
  have hin : i < 8 * input.length := List.mem_range.mp hi
  rw [bitAt_beNat input i hin, bitAt_keyWindow key i k (by omega) hk]

theorem toeplitz_xor (key kbits a b n : Nat) :
    toeplitz key kbits (a ^^^ b) n = toeplitz key kbits a n ^^^ toeplitz key kbits b n := by
  simp only [toeplitz, bitAt_eq_testBit, Nat.testBit_xor]
  exact foldl_xor_linear _ _ _ _ 0 0

theorem toeplitz_xor_of_collision {key kbits a b n : Nat} (c : Nat) (hab : toeplitz key kbits a n = toeplitz key kbits b n) :
    toeplitz key kbits (c ^^^ a ^^^ b) n = toeplitz key kbits c n := by
  rw [toeplitz_xor, toeplitz_xor, hab, Nat.xor_assoc, Nat.xor_self, Nat.xor_zero]

/-- Settles O56: a bit of the hash is the parity of the key windows that input bits select, and exclusive or is linear in the selection. -/
theorem toeplitzIsTheLinearHashOfItsBits : Obligations.ToeplitzIsTheLinearHashOfItsBits := by
  unfold Obligations.ToeplitzIsTheLinearHashOfItsBits
  exact ⟨fun key input hlen => ⟨toeplitz_lt .., bitAt_toeplitz_beNat key input hlen⟩, toeplitz_xor,
    fun _ _ _ _ c _ => toeplitz_xor_of_collision c, fun _ _ _ => rfl, fun _ _ _ => rfl⟩

end Sys2Proof.Machine
end

section
/-! PROOF. The R-type form of the Xbtx instructions (R377, R378): their encodings and decodings agree, and a word without a decoding traps, for O55. -/

namespace Sys2Proof.Machine
open Sys2Proof

/-! The fields of an R-type word -/

/-- The fields of an R-type word, from bit 31 down (R377). -/
@[ext] structure RFields where
  f7 : Nat
  rs2 : Nat
  rs1 : Nat
  f3 : Nat
  rd : Nat
  opc : Nat

namespace RFields

/-- Every field is as wide as its place. -/
def Fits (r : RFields) : Prop := r.f7 < 2 ^ 7 ∧ r.rs2 < 2 ^ 5 ∧ r.rs1 < 2 ^ 5 ∧ r.f3 < 2 ^ 3 ∧ r.rd < 2 ^ 5 ∧ r.opc < 2 ^ 7

/-- The word of the fields. -/
def word (r : RFields) : Nat := rType r.f7 r.rs2 r.rs1 r.f3 r.rd r.opc

/-- The fields of a word. -/
def ofWord (w : Nat) : RFields := ⟨bitsAt w 25 7, bitsAt w 20 5, bitsAt w 15 5, bitsAt w 12 3, bitsAt w 7 5, bitsAt w 0 7⟩

/-- The fields in the order of R377's table. -/
def toList (r : RFields) : List Nat := [r.f7, r.rs2, r.rs1, r.f3, r.rd, r.opc]

theorem ofWord_fits (w : Nat) : (ofWord w).Fits :=
  ⟨bitsAt_lt .., bitsAt_lt .., bitsAt_lt .., bitsAt_lt .., bitsAt_lt .., bitsAt_lt ..⟩

theorem word_ofWord {w : Nat} (hw : w < 2 ^ 32) : (ofWord w).word = w := by
  simp only [word, ofWord, rType, bitsAt]
  omega

variable {r : RFields} (h : r.Fits)
include h

theorem word_lt : r.word < 2 ^ 32 := by
  obtain ⟨hf7, hrs2, hrs1, hf3, hrd, hopc⟩ := h
  simp only [word, rType]
  omega

theorem ofWord_word : ofWord r.word = r := by
  obtain ⟨hf7, hrs2, hrs1, hf3, hrd, hopc⟩ := h
  ext <;> (simp only [ofWord, word, rType, bitsAt]; omega)

end RFields

/-! Fields and instructions -/

/-- The fields of an Xbtx instruction: the tables of R377 and R378. -/
def xbFields : Xb → RFields
  | .tfork d rd rs1 rs2 => ⟨b2n d, rs2, rs1, 0, rd, 0x0B⟩
  | .tjoin rd rs1 => ⟨0, 0, rs1, 1, rd, 0x0B⟩
  | .texit rs1 => ⟨0, 0, rs1, 2, 0, 0x0B⟩
  | .tsignal rd rs1 rs2 => ⟨0, rs2, rs1, 3, rd, 0x0B⟩
  | .twait rd rs1 => ⟨0, 0, rs1, 4, rd, 0x0B⟩
  | .ttimer rs1 => ⟨0, 0, rs1, 5, 0, 0x0B⟩
  | .tyield => ⟨0, 0, 0, 6, 0, 0x0B⟩
  | .hrd rd h => ⟨2 * h, 0, 0, 0, rd, 0x2B⟩
  | .hwr h rs2 => ⟨2 * h, rs2, 0, 1, 0, 0x2B⟩
  | .hswap rd h rs2 => ⟨2 * h, rs2, 0, 2, rd, 0x2B⟩
  | .hadd rd h rs2 => ⟨2 * h, rs2, 0, 3, rd, 0x2B⟩
  | .hcas rd h rs1 rs2 => ⟨2 * h, rs2, rs1, 4, rd, 0x2B⟩
  | .chput w rs2 => ⟨w, rs2, 0, 5, 0, 0x2B⟩
  | .chcommit rd rs1 => ⟨0, 0, rs1, 6, rd, 0x2B⟩
  | .chrecv rd w pop => ⟨8 * b2n pop + w, 0, 0, 7, rd, 0x2B⟩

/-- The major opcodes of Xbtx: custom-0 (R377) and custom-1 (R378). -/
def CustomOpcode (opc : Nat) : Prop := opc = 0x0B ∨ opc = 0x2B

/-- The instruction of R-type fields under one of the two major opcodes. -/
def decodeFields (r : RFields) : Option Xb :=
  if r.opc = 0x0B then decodeThread r.f7 r.f3 r.rd r.rs1 r.rs2
  else if r.opc = 0x2B then decodeHawk r.f7 r.f3 r.rd r.rs1 r.rs2
  else none

theorem word_xbFields (i : Xb) : (xbFields i).word = xbWord i := by cases i <;> rfl

theorem customOpcode_xbFields (i : Xb) : CustomOpcode (xbFields i).opc := by
  cases i <;> simp [xbFields, CustomOpcode]

theorem b2n_lt_two (b : Bool) : b2n b < 2 := by cases b <;> decide

theorem b2n_beq_one {n : Nat} (h : n < 2) : b2n (n == 1) = n := by
  obtain rfl | rfl : n = 0 ∨ n = 1 := by omega
  all_goals rfl

theorem b2n_beq (b : Bool) : (b2n b == 1) = b := by cases b <;> rfl

theorem xbFields_fits {i : Xb} (h : xbFits i = true) : (xbFields i).Fits := by
  cases i <;> simp only [xbFits, Bool.and_eq_true, decide_eq_true_eq] at h <;> simp only [xbFields, RFields.Fits]
  case tfork d rd rs1 rs2 => have := b2n_lt_two d; omega
  case chrecv rd w pop => have := b2n_lt_two pop; omega
  all_goals omega

theorem decodeFields_xbFields {i : Xb} (h : xbFits i = true) : decodeFields (xbFields i) = some i := by
  cases i
  case tfork d rd rs1 rs2 => cases d <;> rfl
  case chput w rs2 =>
    have hw : w < 8 := by simp [xbFits] at h; omega
    simp [decodeFields, xbFields, decodeHawk, hw]
  case chrecv rd w pop =>
    have hw : w < 8 := by simp [xbFits] at h; omega
    have hf7 : 8 * b2n pop + w < 16 := by have := b2n_lt_two pop; omega
    have hpop : (8 * b2n pop + w) / 8 = b2n pop := by omega
    have hword : (8 * b2n pop + w) % 8 = w := by omega
    simp [decodeFields, xbFields, decodeHawk, hf7, hpop, hword, b2n_beq]
  all_goals simp [decodeFields, xbFields, decodeThread, decodeHawk]

theorem xbFields_of_decodeThread {f7 f3 rd rs1 rs2 : Nat} {i : Xb} (hd : decodeThread f7 f3 rd rs1 rs2 = some i)
    (hrs2 : rs2 < 32) (hrs1 : rs1 < 32) (hrd : rd < 32) : xbFits i = true ∧ xbFields i = ⟨f7, rs2, rs1, f3, rd, 0x0B⟩ := by
  unfold decodeThread at hd
  split at hd <;> simp only [Option.ite_none_right_eq_some, Option.some.injEq, reduceCtorEq] at hd
  -- TFORK and TFORKD: funct7 is the flag
  case h_1 =>
    obtain ⟨hf7, rfl⟩ := hd
    simp [xbFits, xbFields, b2n_beq_one hf7, hrd, hrs1, hrs2]
  all_goals
    obtain ⟨hzero, rfl⟩ := hd
    simp [xbFits, xbFields, hzero, hrd, hrs1, hrs2]

theorem xbFields_of_decodeHawk {f7 f3 rd rs1 rs2 : Nat} {i : Xb} (hd : decodeHawk f7 f3 rd rs1 rs2 = some i)
    (hf7 : f7 < 128) (hrs2 : rs2 < 32) (hrs1 : rs1 < 32) (hf3 : f3 < 8) (hrd : rd < 32) :
    xbFits i = true ∧ xbFields i = ⟨f7, rs2, rs1, f3, rd, 0x2B⟩ := by
  unfold decodeHawk at hd
  split at hd <;> simp only [Option.ite_none_right_eq_some, Option.some.injEq] at hd <;> obtain ⟨hfields, rfl⟩ := hd
  -- CHPUT
  case h_6 =>
    obtain ⟨hw, hrs1z, hrdz⟩ := hfields
    simp [xbFits, xbFields, hw, hrs1z, hrdz, hrs2]
  -- CHCOMMIT
  case h_7 => simp [xbFits, xbFields, hfields, hrd, hrs1]
  -- CHRECV: POP is bit 3 of funct7, the word number its bits 2 to 0
  case h_8 h0 h1 h2 h3 h4 h5 h6 =>
    obtain ⟨hw, hrs1z, hrs2z⟩ := hfields
    have hpopWord : 8 * b2n (f7 / 8 == 1) + f7 % 8 = f7 := by rw [b2n_beq_one (by omega), Nat.div_add_mod]
    have hf3 : f3 = 7 := by
      simp only [imp_false] at h0 h1 h2 h3 h4 h5 h6
      omega
    simp [xbFits, xbFields, hpopWord, hf3, hrs1z, hrs2z, hrd, Nat.mod_lt]
  -- the hawk instructions: funct7 is twice the register number
  all_goals
    have heven : 2 * (f7 / 2) = f7 := by omega
    have hh : f7 / 2 < 64 := by omega
    simp [xbFits, xbFields, hfields, heven, hh, hrd, hrs1, hrs2]

theorem xbFields_of_decodeFields {r : RFields} {i : Xb} (hr : r.Fits) (hd : decodeFields r = some i) :
    xbFits i = true ∧ xbFields i = r := by
  obtain ⟨hf7, hrs2, hrs1, hf3, hrd, hopc⟩ := hr
  obtain ⟨f7, rs2, rs1, f3, rd, opc⟩ := r
  simp only [decodeFields] at hd
  split at hd
  case isTrue hthread =>
    subst hthread
    exact xbFields_of_decodeThread hd hrs2 hrs1 hrd
  case isFalse =>
    obtain ⟨rfl, hhawk⟩ := Option.ite_none_right_eq_some.mp hd
    exact xbFields_of_decodeHawk hhawk hf7 hrs2 hrs1 hf3 hrd

/-! The decoder -/

theorem rvDecode_of_customOpcode {w : Nat} (h : CustomOpcode (bitsAt w 0 7)) :
    rvDecode w = (decodeFields (.ofWord w)).map .xb := by
  obtain h | h := h <;> simp [rvDecode, decodeFields, RFields.ofWord, h]

theorem ite_ne_of_ne {α : Type} {p : Prop} [Decidable p] {a b c : α} (ha : a ≠ c) (hb : b ≠ c) : (if p then a else b) ≠ c :=
  iteInduction (motive := (· ≠ c)) (fun _ => ha) (fun _ => hb)

theorem decodeSystem_ne_xb (w rd rs1 : Nat) (i : Xb) : decodeSystem w rd rs1 ≠ some (.xb i) := by
  unfold decodeSystem
  split
  · exact ite_ne_of_ne nofun (ite_ne_of_ne nofun nofun)
  · exact nofun
  · exact nofun

theorem decodeAmo_ne_xb (w rd rs1 rs2 : Nat) (i : Xb) : decodeAmo w rd rs1 rs2 ≠ some (.xb i) :=
  ite_ne_of_ne nofun (ite_ne_of_ne (ite_ne_of_ne nofun nofun) (ite_ne_of_ne nofun (ite_ne_of_ne nofun nofun)))

/-- Only the two custom major opcodes hold Xbtx instructions. -/
theorem customOpcode_of_rvDecode_eq_xb {w : Nat} {i : Xb} (h : rvDecode w = some (.xb i)) :
    CustomOpcode (bitsAt w 0 7) := by
  unfold rvDecode at h
  split at h
  -- SYSTEM, AMO, custom-0 and custom-1; no other major opcode answers with an Xbtx instruction
  case h_13 => exact (decodeSystem_ne_xb _ _ _ _ h).elim
  case h_14 => exact (decodeAmo_ne_xb _ _ _ _ _ h).elim
  case h_15 hopc => exact .inl hopc
  case h_16 hopc => exact .inr hopc
  all_goals simp at h

theorem rvDecode_eq_xb_iff {w : Nat} {i : Xb} : rvDecode w = some (.xb i) ↔ decodeFields (.ofWord w) = some i := by
  constructor
  · intro h
    rw [rvDecode_of_customOpcode (customOpcode_of_rvDecode_eq_xb h)] at h
    simpa using h
  · intro h
    have hopc : CustomOpcode (RFields.ofWord w).opc := by
      rw [← (xbFields_of_decodeFields (RFields.ofWord_fits w) h).2]
      exact customOpcode_xbFields i
    rw [rvDecode_of_customOpcode hopc, h, Option.map_some]

/-- A word of a custom major opcode is 32 bits long. -/
theorem isShort_of_customOpcode {w : Nat} (h : CustomOpcode (bitsAt w 0 7)) : isShort w = false := by
  have hlow : w % 4 = 3 := by
    simp only [CustomOpcode, bitsAt] at h
    omega
  simp [isShort, hlow]

theorem ofWord_xbWord {i : Xb} (h : xbFits i = true) : RFields.ofWord (xbWord i) = xbFields i := by
  rw [← word_xbFields, RFields.ofWord_word (xbFields_fits h)]

theorem toList_ofWord_xbWord {i : Xb} (h : xbFits i = true) : (RFields.ofWord (xbWord i)).toList = (xbFields i).toList := by
  rw [ofWord_xbWord h]

theorem xbWord_lt {i : Xb} (h : xbFits i = true) : xbWord i < 2 ^ 32 := by
  rw [← word_xbFields]
  exact RFields.word_lt (xbFields_fits h)

theorem rvDecode_xbWord {i : Xb} (h : xbFits i = true) : rvDecode (xbWord i) = some (.xb i) := by
  rw [rvDecode_eq_xb_iff, ofWord_xbWord h, decodeFields_xbFields h]

theorem xbWord_of_rvDecode {w : Nat} {i : Xb} (hw : w < 2 ^ 32) (h : rvDecode w = some (.xb i)) :
    xbFits i = true ∧ xbWord i = w := by
  obtain ⟨hfits, hfields⟩ := xbFields_of_decodeFields (RFields.ofWord_fits w) (rvDecode_eq_xb_iff.mp h)
  exact ⟨hfits, by rw [← word_xbFields, hfields, RFields.word_ofWord hw]⟩

theorem exists_eq_xb_of_rvDecode_eq_some {w : Nat} {r : Rv} (hopc : CustomOpcode (bitsAt w 0 7))
    (h : rvDecode w = some r) : ∃ i, r = .xb i := by
  rw [rvDecode_of_customOpcode hopc, Option.map_eq_some_iff] at h
  obtain ⟨i, -, rfl⟩ := h
  exact ⟨i, rfl⟩

theorem isShort_xbWord {i : Xb} (h : xbFits i = true) : isShort (xbWord i) = false :=
  isShort_of_customOpcode (customOpcode_of_rvDecode_eq_xb (rvDecode_xbWord h))

theorem rvDecode_eq_none_of_funct3_eq_seven {w : Nat} (hopc : bitsAt w 0 7 = 0x0B) (hf3 : bitsAt w 12 3 = 7) : rvDecode w = none := by
  simp [rvDecode, hopc, hf3, decodeThread]

/-! A word without a decoding traps -/

section Trap
variable {s : State} {cl : Cluster} {co : CoreIx} {t : Nat} {th : Thread} {w : Nat}

theorem namesFreeHod_of_decodeAny_eq_none {ck : Nat} (hth : thread s ck t = some th) (hw : fetch s ck th = .ok w)
    (hnone : decodeAny w = none) : namesFreeHod s ck t = false := by
  simp [namesFreeHod, hth, hw, hnone]

theorem threadStep_of_decodeAny_eq_none {ck : Nat} (hth : thread s ck t = some th) (hw : fetch s ck th = .ok w)
    (hnone : decodeAny w = none) : threadStep ck t s = trap ck t 1 w (issued ck t s) := by
  simp [threadStep, hth, hw, hnone]

theorem exec_coreInstruction_of_decodeAny_eq_none (hnext : nextThread s (coreNo cl co) = some t)
    (hlost : isLost s 0x03 (coreNo cl co) = false) (hth : thread s (coreNo cl co) t = some th)
    (hw : fetch s (coreNo cl co) th = .ok w) (hnone : decodeAny w = none) :
    exec (.coreInstruction cl co) s = .next (trap (coreNo cl co) t 1 w (issued (coreNo cl co) t s)) := by
  change execCoreInstruction cl co s = _
  simp [execCoreInstruction, hnext, hlost, namesFreeHod_of_decodeAny_eq_none hth hw hnone, threadStep_of_decodeAny_eq_none hth hw hnone]

end Trap

theorem decodeAny_eq_none_of_customOpcode {w : Nat} (hopc : CustomOpcode (bitsAt w 0 7)) (h : rvDecode w = none) :
    decodeAny w = none := by
  simp [decodeAny, isShort_of_customOpcode hopc, h]

/-- Settles O55: instructions and words agree on the six fields, and a word with no decoding traps when it is issued. -/
theorem xbtxEncodingsRoundTrip : Obligations.XbtxEncodingsRoundTrip := by
  unfold Obligations.XbtxEncodingsRoundTrip
  refine ⟨fun i h => ⟨xbWord_lt h, isShort_xbWord h, rvDecode_xbWord h⟩, fun w i => xbWord_of_rvDecode,
    fun w r => exists_eq_xb_of_rvDecode_eq_some, fun rd rs1 rs2 hrd hrs1 hrs2 => ?table, rfl,
    fun w => rvDecode_eq_none_of_funct3_eq_seven, ?traps⟩
  case table =>
    refine ⟨toList_ofWord_xbWord (i := .tfork false rd rs1 rs2) ?_, toList_ofWord_xbWord (i := .tfork true rd rs1 rs2) ?_,
      toList_ofWord_xbWord (i := .tjoin rd rs1) ?_, toList_ofWord_xbWord (i := .texit rs1) ?_,
      toList_ofWord_xbWord (i := .tsignal rd rs1 rs2) ?_, toList_ofWord_xbWord (i := .twait rd rs1) ?_,
      toList_ofWord_xbWord (i := .ttimer rs1) ?_, toList_ofWord_xbWord (i := .tyield) ?_⟩
    all_goals simp [xbFits, hrd, hrs1, hrs2]
  case traps =>
    intro s cl co t th w hnext hlost hth hw hopc hnone
    exact exec_coreInstruction_of_decodeAny_eq_none hnext hlost hth hw (decodeAny_eq_none_of_customOpcode (.inl hopc) hnone)

end Sys2Proof.Machine
end

section
/-! PROOF. What every command keeps and changes: its parts, the queue and the clock, the mode, and the fuses (R27, R432, R433), for O1 to O6, O8 and O9. -/

namespace Sys2Proof.Machine
open Sys2Proof

/-! Steps and the idle block -/

theorem step_cons (c : Instr) (rest : List Instr) (s : State) : step { s with pending := c :: rest } = exec c { s with pending := rest } := rfl

theorem step_idle {s : State} (h : s.pending = []) : step s = .next (idle s) := by
  simp only [step, h]

theorem readyChan_none_of {s : State} (h : ∀ e ∈ s.fenced, opsOf s e.1 ≠ []) : readyChan s = none := by
  simp only [readyChan, Option.map_eq_none_iff, List.find?_eq_none]
  exact fun e he => by simpa using h e he

theorem idle_of_ready {s : State} {c : Chan} (h : readyChan s = some c) : idle s = unfence c s := by simp only [idle, h]

theorem idle_of_not_ready {s : State} (h : readyChan s = none) : idle s = tick s := by simp only [idle, h]

theorem tick_of_powered {s : State} (h : s.glb.powered = true) :
    tick s = { s with now := s.now + 1, dtime := s.dtime + (2 * (2 ^ 32 + trim s)).toNat } := by simp [tick, h]

theorem tick_of_unpowered {s : State} (h : s.glb.powered = false) : tick s = s := by simp [tick, h]

theorem idle_nv (s : State) : (idle s).nv = s.nv := by
  cases hc : readyChan s with
  | some c => rw [idle_of_ready hc]; rfl
  | none =>
    rw [idle_of_not_ready hc]
    cases hp : s.glb.powered with
    | true => rw [tick_of_powered hp]
    | false => rw [tick_of_unpowered hp]

/-- Settles O1: a step is defined by the command at the front. -/
theorem stepRunsTheFrontCommand : Obligations.StepRunsTheFrontCommand := step_cons

/-- Settles O2: which channel may let its fenced commands go decides what the idle block does. -/
theorem idleStepLetsFencedCommandsGoOrTimePass : Obligations.IdleStepLetsFencedCommandsGoOrTimePass := by
  unfold Obligations.IdleStepLetsFencedCommandsGoOrTimePass
  refine fun s hs => ⟨fun c hc => ?letGo, fun hnone hp => ?passes, fun hnone hp => ?unpowered⟩
  case letGo => rw [step_idle hs, idle_of_ready hc, unfence, hs, List.nil_append]
  case passes => rw [step_idle hs, idle_of_not_ready (readyChan_none_of hnone), tick_of_powered hp]
  case unpowered => rw [step_idle hs, idle_of_not_ready (readyChan_none_of hnone), tick_of_unpowered hp]

/-- Settles O3: the reset state is written out in the model. -/
theorem resetLeavesBoot : Obligations.ResetLeavesBoot := by
  unfold Obligations.ResetLeavesBoot
  refine ⟨rfl, rfl, rfl, rfl, rfl, fun h => ?links, rfl, rfl, rfl, rfl, rfl, rfl, rfl, rfl, rfl, rfl⟩
  have hlink : link State.reset h = HostLink.reset := by simp [link, State.reset, Fin.getElem_fin]
  rw [hlink]
  exact ⟨rfl, rfl, rfl, rfl⟩

/-! The frame of every command -/

/-- A part that the list does not name, found by evaluation. -/
theorem notListed {p : Part} {l : List Part} (h : l.elem p = false) : p ∉ l := fun hp => by
  rw [List.elem_eq_true_of_mem hp] at h; cases h

/-- A command that completes changes its parts only. -/
theorem exec_changesOnly (c : Instr) (s y : State) (eq : exec c s = .next y) : changesOnly (partsOf c) s y :=
  match c with
  | .powerOn => frame_powerOn s y eq
  | .devRstNAssert pulseNs => frame_devRstNAssert s y pulseNs eq
  | .devRstNRelease straps => frame_devRstNRelease s y straps eq
  | .rootPllLock => frame_rootPllLock s y eq
  | .coreRefLost => frame_coreRefLost s y eq
  | .coreRefReturned => frame_coreRefReturned s y eq
  | .holdoverExpiry => frame_holdoverExpiry s y eq
  | .ethRefLost => frame_ethRefLost s y eq
  | .ethRefReturned => frame_ethRefReturned s y eq
  | .hostRefLost h => frame_hostRefLost s y h eq
  | .hostRefReturned h => frame_hostRefReturned s y h eq
  | .romStage => frame_romStage s y eq
  | .loaderStage found => frame_loaderStage s y found eq
  | .mgmtFwStage => frame_mgmtFwStage s y eq
  | .bootDone => frame_bootDone s y eq
  | .epochBoundary => frame_epochBoundary s y eq
  | .armCutoff => frame_armCutoff s y eq
  | .graceEnd u => frame_graceEnd s y u eq
  | .reloadComplete u => frame_reloadComplete s y u eq
  | .glbRecoatArmWrite v => frame_glbRecoatArmWrite s y v eq
  | .stagedRegisterWrite addr v => frame_stagedRegisterWrite s y addr v eq
  | .glbEpochLenWrite v => frame_glbEpochLenWrite s y v eq
  | .lowWordRead addr => frame_lowWordRead s y addr eq
  | .readClearRegisterRead addr => frame_readClearRegisterRead s y addr eq
  | .registerWrite addr v => frame_registerWrite s y addr v eq
  | .unitFailureInService kind unit => frame_unitFailureInService s y kind unit eq
  | .drainComplete => frame_drainComplete s y eq
  | .deviceInfo p => frame_deviceInfo s y p eq
  | .modeGet p => frame_modeGet s y p eq
  | .quiesce p => frame_quiesce s y p eq
  | .resume p => frame_resume s y p eq
  | .park p => frame_park s y p eq
  | .maintain p => frame_maintain s y p eq
  | .deviceReset p => frame_deviceReset s y p eq
  | .maintOnNextBoot p => frame_maintOnNextBoot s y p eq
  | .degradationRead p => frame_degradationRead s y p eq
  | .ownerPathSet p => frame_ownerPathSet s y p eq
  | .epochGet p => frame_epochGet s y p eq
  | .epochSetLength p => frame_epochSetLength s y p eq
  | .recoatArm p => frame_recoatArm s y p eq
  | .recoatDisarm p => frame_recoatDisarm s y p eq
  | .undercoatReset p => frame_undercoatReset s y p eq
  | .epochWait p => frame_epochWait s y p eq
  | .opQuery p => frame_opQuery s y p eq
  | .opCancel p => frame_opCancel s y p eq
  | .longOpStep handle res => frame_longOpStep s y handle res eq
  | .quotaSet p => frame_quotaSet s y p eq
  | .quotaGet p => frame_quotaGet s y p eq
  | .vfQuotaSet p => frame_vfQuotaSet s y p eq
  | .hostDefaultsSet p => frame_hostDefaultsSet s y p eq
  | .dramCarveSet p => frame_dramCarveSet s y p eq
  | .resourceUsage p => frame_resourceUsage s y p eq
  | .hostVfLimit p => frame_hostVfLimit s y p eq
  | .parseNodeWrite p => frame_parseNodeWrite s y p eq
  | .parseNodeRead p => frame_parseNodeRead s y p eq
  | .parseMalformedSet p => frame_parseMalformedSet s y p eq
  | .classRuleWrite p => frame_classRuleWrite s y p eq
  | .classRuleRead p => frame_classRuleRead s y p eq
  | .classProfileSet p => frame_classProfileSet s y p eq
  | .classActionWrite p => frame_classActionWrite s y p eq
  | .emInsert p => frame_emInsert s y p eq
  | .emUpdate p => frame_emUpdate s y p eq
  | .emDelete p => frame_emDelete s y p eq
  | .emLookup p => frame_emLookup s y p eq
  | .emRehash p => frame_emRehash s y p eq
  | .lpmAdd p => frame_lpmAdd s y p eq
  | .lpmDelete p => frame_lpmDelete s y p eq
  | .lpmLookup p => frame_lpmLookup s y p eq
  | .lpmLeafPush p => frame_lpmLeafPush s y p eq
  | .tableStats p => frame_tableStats s y p eq
  | .schedNodeSet p => frame_schedNodeSet s y p eq
  | .schedNodeGet p => frame_schedNodeGet s y p eq
  | .hostShareSet p => frame_hostShareSet s y p eq
  | .policerSet p => frame_policerSet s y p eq
  | .classMapSet p => frame_classMapSet s y p eq
  | .spreadSet p => frame_spreadSet s y p eq
  | .indirectionSet p => frame_indirectionSet s y p eq
  | .spreadLoadRead p => frame_spreadLoadRead s y p eq
  | .queueCreate p => frame_queueCreate s y p eq
  | .queueDestroy p => frame_queueDestroy s y p eq
  | .queueQuery p => frame_queueQuery s y p eq
  | .connCreate p => frame_connCreate s y p eq
  | .connModify p => frame_connModify s y p eq
  | .connDestroy p => frame_connDestroy s y p eq
  | .connQuery p => frame_connQuery s y p eq
  | .ctxPin p => frame_ctxPin s y p eq
  | .ctxUnpin p => frame_ctxUnpin s y p eq
  | .ctxMigrate p => frame_ctxMigrate s y p eq
  | .hostBackingSet p => frame_hostBackingSet s y p eq
  | .pathWrite p => frame_pathWrite s y p eq
  | .pathRead p => frame_pathRead s y p eq
  | .xportConfig p => frame_xportConfig s y p eq
  | .nsCreate p => frame_nsCreate s y p eq
  | .nsBackingSet p => frame_nsBackingSet s y p eq
  | .nsAttach p => frame_nsAttach s y p eq
  | .nsDetach p => frame_nsDetach s y p eq
  | .nsDelete p => frame_nsDelete s y p eq
  | .driveInfo p => frame_driveInfo s y p eq
  | .driveFormat p => frame_driveFormat s y p eq
  | .cacheFlush p => frame_cacheFlush s y p eq
  | .sanitize p => frame_sanitize s y p eq
  | .remoteTargetSet p => frame_remoteTargetSet s y p eq
  | .keyAllocate p => frame_keyAllocate s y p eq
  | .keyImport p => frame_keyImport s y p eq
  | .keyDestroy p => frame_keyDestroy s y p eq
  | .keyQuery p => frame_keyQuery s y p eq
  | .importKeySet p => frame_importKeySet s y p eq
  | .keyTierSet p => frame_keyTierSet s y p eq
  | .keystoreZeroise p => frame_keystoreZeroise s y p eq
  | .programLoad p => frame_programLoad s y p eq
  | .programStart p => frame_programStart s y p eq
  | .programStop p => frame_programStop s y p eq
  | .channelGrant p => frame_channelGrant s y p eq
  | .coreStatus p => frame_coreStatus s y p eq
  | .watchdogSet p => frame_watchdogSet s y p eq
  | .selftestRun p => frame_selftestRun s y p eq
  | .repairRead p => frame_repairRead s y p eq
  | .fuseProgram p => frame_fuseProgram s y p eq
  | .parkPlanSet p => frame_parkPlanSet s y p eq
  | .imageStage p => frame_imageStage s y p eq
  | .imageInstall p => frame_imageInstall s y p eq
  | .imageInfo p => frame_imageInfo s y p eq
  | .commitVersion p => frame_commitVersion s y p eq
  | .revokeKey p => frame_revokeKey s y p eq
  | .ownerKeyProvision p => frame_ownerKeyProvision s y p eq
  | .measurementRead p => frame_measurementRead s y p eq
  | .counterRead p => frame_counterRead s y p eq
  | .counterSnapshot p => frame_counterSnapshot s y p eq
  | .eventMaskSet p => frame_eventMaskSet s y p eq
  | .violationRead p => frame_violationRead s y p eq
  | .unassignedOpcode opcode p => frame_unassignedOpcode s y opcode p eq
  | .oversizeCommand c p => frame_oversizeCommand s y c p eq
  | .hlinkCmdEnableSet c => frame_hlinkCmdEnableSet s y c eq
  | .hlinkCmdEnableClear c => frame_hlinkCmdEnableClear s y c eq
  | .hlinkCmdEventEnableWrite c on => frame_hlinkCmdEventEnableWrite s y c on eq
  | .hlinkCmdSqTail c v => frame_hlinkCmdSqTail s y c v eq
  | .hlinkCmdRqHead c v => frame_hlinkCmdRqHead s y c v eq
  | .hlinkCmdEqHead c v => frame_hlinkCmdEqHead s y c v eq
  | .ownerEventSend tries => frame_ownerEventSend s y tries eq
  | .mctpSetEndpointId path op eid => frame_mctpSetEndpointId s y path op eid eq
  | .mctpGetEndpointId path => frame_mctpGetEndpointId s y path eq
  | .mctpGetVersionSupport path msgType => frame_mctpGetVersionSupport s y path msgType eq
  | .mctpGetMessageTypeSupport path => frame_mctpGetMessageTypeSupport s y path eq
  | .mctpGetVdmSupport path selector => frame_mctpGetVdmSupport s y path selector eq
  | .mctpMessageDiscarded path ic msgType => frame_mctpMessageDiscarded s y path ic msgType eq
  | .spdmGetVersion r q => frame_spdmGetVersion s y r q eq
  | .spdmGetCapabilities r q => frame_spdmGetCapabilities s y r q eq
  | .spdmNegotiateAlgorithms r q => frame_spdmNegotiateAlgorithms s y r q eq
  | .spdmGetDigests r q => frame_spdmGetDigests s y r q eq
  | .spdmGetCertificate r q => frame_spdmGetCertificate s y r q eq
  | .spdmChallenge r q => frame_spdmChallenge s y r q eq
  | .spdmGetMeasurements r q => frame_spdmGetMeasurements s y r q eq
  | .spdmUnsupportedRequest r q => frame_spdmUnsupportedRequest s y r q eq
  | .doeDiscovery h index => frame_doeDiscovery s y h index eq
  | .hostAttach h t => frame_hostAttach s y h t eq
  | .hostDetach h cause => frame_hostDetach s y h cause eq
  | .hostUnitDefaultsLoad h => frame_hostUnitDefaultsLoad s y h eq
  | .linkRecoveryEntry h => frame_linkRecoveryEntry s y h eq
  | .linkWidthChange h t => frame_linkWidthChange s y h t eq
  | .hostLaneFaultInService h lane => frame_hostLaneFaultInService s y h lane eq
  | .configRequest h r => frame_configRequest s y h r eq
  | .initiateFlr h f => frame_initiateFlr s y h f eq
  | .busMasterEnableClear h f => frame_busMasterEnableClear s y h f eq
  | .busMasterEnableSet h f => frame_busMasterEnableSet s y h f eq
  | .vfEnableClear h f => frame_vfEnableClear s y h f eq
  | .vfEnableSet h f => frame_vfEnableSet s y h f eq
  | .d3hotToD0 h f => frame_d3hotToD0 s y h f eq
  | .msixUnmask h f vector => frame_msixUnmask s y h f vector eq
  | .configWrite h f offset v be => frame_configWrite s y h f offset v be eq
  | .hlinkIntxStatusClear h v => frame_hlinkIntxStatusClear s y h v eq
  | .barMemoryRequest h r => frame_barMemoryRequest s y h r eq
  | .ioOrAtomicRequest h f posted => frame_ioOrAtomicRequest s y h f posted eq
  | .completionReceived h tag status data => frame_completionReceived s y h tag status data eq
  | .completionTimeout h tag => frame_completionTimeout s y h tag eq
  | .tagQuarantineEnd h tag => frame_tagQuarantineEnd s y h tag eq
  | .pcieLinkError h f e => frame_pcieLinkError s y h f e eq
  | .txqDoorbell h f q v => frame_txqDoorbell s y h f q v eq
  | .rxqDoorbell h f q v => frame_rxqDoorbell s y h f q v eq
  | .cqDoorbell h f q v => frame_cqDoorbell s y h f q v eq
  | .txDescriptorReadDone h f q d => frame_txDescriptorReadDone s y h f q d eq
  | .txDataReadDone h f q data status => frame_txDataReadDone s y h f q data status eq
  | .cqCoalesceTimer h f q => frame_cqCoalesceTimer s y h f q eq
  | .rxFrameArrival port frame fcsOk fecOk => frame_rxFrameArrival s y port frame fcsOk fecOk eq
  | .pipelineAdmit pipe => frame_pipelineAdmit s y pipe eq
  | .recircAdmit pipe => frame_recircAdmit s y pipe eq
  | .lpmRecircReadmit pipe => frame_lpmRecircReadmit s y pipe eq
  | .cipherTileDone pipe => frame_cipherTileDone s y pipe eq
  | .gauntletKeyFetch tile slot => frame_gauntletKeyFetch s y tile slot eq
  | .schedSelect root => frame_schedSelect s y root eq
  | .timingWheelSlotDue slot => frame_timingWheelSlotDue s y slot eq
  | .coarseSlotDue slot => frame_coarseSlotDue s y slot eq
  | .dtimeStep v => frame_dtimeStep s y v eq
  | .dtimeRateWrite v => frame_dtimeRateWrite s y v eq
  | .rxDeliveryWriteDone h => frame_rxDeliveryWriteDone s y h eq
  | .txFrameSent port => frame_txFrameSent s y port eq
  | .ethApply g => frame_ethApply s y g eq
  | .ethApplyDone g => frame_ethApplyDone s y g eq
  | .anComplete port partner => frame_anComplete s y port partner eq
  | .anFailedRestart port => frame_anFailedRestart s y port eq
  | .trainingDone port ok => frame_trainingDone s y port ok eq
  | .alignmentDone port => frame_alignmentDone s y port eq
  | .faultSequencesReceived port k => frame_faultSequencesReceived s y port k eq
  | .faultSequencesStop port => frame_faultSequencesStop s y port eq
  | .alignmentLost port k => frame_alignmentLost s y port k eq
  | .alignmentReturnInHold port => frame_alignmentReturnInHold s y port eq
  | .holdoffExpiry port => frame_holdoffExpiry s y port eq
  | .ethLaneFault lane => frame_ethLaneFault s y lane eq
  | .hodCarveApply => frame_hodCarveApply s y eq
  | .hodCarveApplyDone => frame_hodCarveApplyDone s y eq
  | .txHodWaitEnd h f q => frame_txHodWaitEnd s y h f q eq
  | .contextFetchDone d n r => frame_contextFetchDone s y d n r eq
  | .evictionWriteDone d n ok => frame_evictionWriteDone s y d n ok eq
  | .fetchNoVictimRetry d n => frame_fetchNoVictimRetry s y d n eq
  | .lrdExecutionDone d n psn => frame_lrdExecutionDone s y d n psn eq
  | .lrdExecutionFailed d n psn => frame_lrdExecutionFailed s y d n psn eq
  | .lrdAckRx d n => frame_lrdAckRx s y d n eq
  | .lrdNakRx d n => frame_lrdNakRx s y d n eq
  | .lrdReadRspRx d n => frame_lrdReadRspRx s y d n eq
  | .lrdProbeRx d n => frame_lrdProbeRx s y d n eq
  | .lrdSqDoorbell d n v wrs => frame_lrdSqDoorbell s y d n v wrs eq
  | .lrdRqDoorbell d n v bufs => frame_lrdRqDoorbell s y d n v bufs eq
  | .lrdRetransmitTimer d n => frame_lrdRetransmitTimer s y d n eq
  | .lrdProbeTimer d n => frame_lrdProbeTimer s y d n eq
  | .lrdAckDelayTimer d n => frame_lrdAckDelayTimer s y d n eq
  | .lrdRnrTimer d n => frame_lrdRnrTimer s y d n eq
  | .recentListExpiry d n => frame_recentListExpiry s y d n eq
  | .nvmeSqDoorbell h f q v => frame_nvmeSqDoorbell s y h f q v eq
  | .nvmeCqDoorbell h f q v => frame_nvmeCqDoorbell s y h f q v eq
  | .nvmeCcEnSet h f cc => frame_nvmeCcEnSet s y h f cc eq
  | .nvmeCcEnClear h f => frame_nvmeCcEnClear s y h f eq
  | .nvmeShutdown h f abrupt => frame_nvmeShutdown s y h f abrupt eq
  | .nvmeIntmsIntmc h f clear v => frame_nvmeIntmsIntmc s y h f clear v eq
  | .nvmeCreateIoSq h f e => frame_nvmeCreateIoSq s y h f e eq
  | .nvmeCreateIoCq h f e => frame_nvmeCreateIoCq s y h f e eq
  | .nvmeDeleteIoSq h f e => frame_nvmeDeleteIoSq s y h f e eq
  | .nvmeDeleteIoCq h f e => frame_nvmeDeleteIoCq s y h f e eq
  | .nvmeGetLogPage h f e => frame_nvmeGetLogPage s y h f e eq
  | .nvmeIdentify h f e => frame_nvmeIdentify s y h f e eq
  | .nvmeAbort h f e => frame_nvmeAbort s y h f e eq
  | .nvmeSetFeatures h f e => frame_nvmeSetFeatures s y h f e eq
  | .nvmeGetFeatures h f e => frame_nvmeGetFeatures s y h f e eq
  | .nvmeAsyncEventRequest h f e => frame_nvmeAsyncEventRequest s y h f e eq
  | .nvmeDeviceSelfTest h f e => frame_nvmeDeviceSelfTest s y h f e eq
  | .nvmeFormatNvm h f e => frame_nvmeFormatNvm s y h f e eq
  | .nvmeFlush h f e => frame_nvmeFlush s y h f e eq
  | .nvmeWrite h f e => frame_nvmeWrite s y h f e eq
  | .nvmeRead h f e => frame_nvmeRead s y h f e eq
  | .nvmeWriteZeroes h f e => frame_nvmeWriteZeroes s y h f e eq
  | .nvmeDatasetManagement h f e => frame_nvmeDatasetManagement s y h f e eq
  | .nvmeUnsupportedCommand h f e => frame_nvmeUnsupportedCommand s y h f e eq
  | .writeInsertion h f sq cid data => frame_writeInsertion s y h f sq cid data eq
  | .wcacheWaitEnd h => frame_wcacheWaitEnd s y h eq
  | .destageStart ns seg => frame_destageStart s y ns seg eq
  | .destageDone ns seg r => frame_destageDone s y ns seg r eq
  | .backingReadDone h f sq cid r data => frame_backingReadDone s y h f sq cid r data eq
  | .drivePresent d => frame_drivePresent s y d eq
  | .driveSurpriseRemoval d linkDrop => frame_driveSurpriseRemoval s y d linkDrop eq
  | .driveLinkUp d t => frame_driveLinkUp s y d t eq
  | .driveInitialised d found => frame_driveInitialised s y d found eq
  | .driveInitTimeout d => frame_driveInitTimeout s y d eq
  | .driveCommandTimeout d cid second => frame_driveCommandTimeout s y d cid second eq
  | .driveCfs d => frame_driveCfs s y d eq
  | .driveCompletion d cid r => frame_driveCompletion s y d cid r eq
  | .driveAttnButton d => frame_driveAttnButton s y d eq
  | .driveDmaViolation d addr header => frame_driveDmaViolation s y d addr header eq
  | .bstatusTimeout target tag => frame_bstatusTimeout s y target tag eq
  | .remoteDestageRetry ns seg => frame_remoteDestageRetry s y ns seg eq
  | .selfTestStep h f failed => frame_selfTestStep s y h f failed eq
  | .keyAlarmSource code slot => frame_keyAlarmSource s y code slot eq
  | .lookasideJobDone tile => frame_lookasideJobDone s y tile eq
  | .lookasideSuspend tile => frame_lookasideSuspend s y tile eq
  | .pageFetchDone tile page data tagOk => frame_pageFetchDone s y tile page data tagOk eq
  | .coreInstruction cl co => frame_coreInstruction s y cl co eq
  | .tfork cl co t rd rs1 rs2 => frame_tfork s y cl co t rd rs1 rs2 eq
  | .tforkd cl co t rd rs1 rs2 => frame_tforkd s y cl co t rd rs1 rs2 eq
  | .texit cl co t rs1 => frame_texit s y cl co t rs1 eq
  | .tjoin cl co t rd rs1 => frame_tjoin s y cl co t rd rs1 eq
  | .twait cl co t rd rs1 => frame_twait s y cl co t rd rs1 eq
  | .tsignal cl co t rd rs1 rs2 => frame_tsignal s y cl co t rd rs1 rs2 eq
  | .ttimer cl co t rs1 => frame_ttimer s y cl co t rs1 eq
  | .tyield cl co t => frame_tyield s y cl co t eq
  | .hrd cl co t rd ix => frame_hrd s y cl co t rd ix eq
  | .hwr cl co t ix rs2 => frame_hwr s y cl co t ix rs2 eq
  | .hswap cl co t rd ix rs2 => frame_hswap s y cl co t rd ix rs2 eq
  | .hadd cl co t rd ix rs2 => frame_hadd s y cl co t rd ix rs2 eq
  | .hcas cl co t rd ix rs1 rs2 => frame_hcas s y cl co t rd ix rs1 rs2 eq
  | .chput cl co t rs2 ix => frame_chput s y cl co t rs2 ix eq
  | .chcommit cl co t rd rs1 => frame_chcommit s y cl co t rd rs1 eq
  | .chrecv cl co t rd ix pop => frame_chrecv s y cl co t rd ix pop eq
  | .wdogKick cl co t => frame_wdogKick s y cl co t eq
  | .threadTimerExpiry cl co t => frame_threadTimerExpiry s y cl co t eq
  | .channelReplyArrival cl co t k => frame_channelReplyArrival s y cl co t k eq
  | .hodAlloc cl => frame_hodAlloc s y cl eq
  | .hodFree cl => frame_hodFree s y cl eq
  | .hodLink cl => frame_hodLink s y cl eq
  | .hodNext cl => frame_hodNext s y cl eq
  | .dmaCopy cl => frame_dmaCopy s y cl eq
  | .tableRequest cl => frame_tableRequest s y cl eq
  | .lookasideJob cl => frame_lookasideJob s y cl eq
  | .emitPort cl => frame_emitPort s y cl eq
  | .emitHost cl => frame_emitHost s y cl eq
  | .puntRecv cl => frame_puntRecv s y cl eq
  | .puntCancel cl => frame_puntCancel s y cl eq
  | .puntDelivery cl => frame_puntDelivery s y cl eq
  | .waitDeadlock cl co => frame_waitDeadlock s y cl co eq
  | .watchdog cl co => frame_watchdog s y cl co eq
  | .dramRefresh => frame_dramRefresh s y eq
  | .rdimmTempRead ch temp => frame_rdimmTempRead s y ch temp eq
  | .dramAlert ch writeCrc => frame_dramAlert s y ch writeCrc eq
  | .dramReplayDone ch => frame_dramReplayDone s y ch eq
  | .dramRetrainDone ch ok => frame_dramRetrainDone s y ch ok eq
  | .dramRequest r => frame_dramRequest s y r eq
  | .dramReadEcc ch addr e => frame_dramReadEcc s y ch addr e eq
  | .patrolScrub ch addr e => frame_patrolScrub s y ch addr e eq
  | .pprRepair ch ok => frame_pprRepair s y ch ok eq
  | .parkEntry => frame_parkEntry s y eq
  | .parkPhaseEnd found => frame_parkPhaseEnd s y found eq
  | .thermalSensorSample temps => frame_thermalSensorSample s y temps eq
  | .avsDecision slow fast => frame_avsDecision s y slow fast eq
  | .avsEmergency => frame_avsEmergency s y eq
  | .regulatorPoll reg r => frame_regulatorPoll s y reg r eq
  | .hlinkRecCommit h => frame_hlinkRecCommit s y h eq
  | .hlinkRecInstall h slot => frame_hlinkRecInstall s y h slot eq
  | .hlinkRecAbort h => frame_hlinkRecAbort s y h eq
  | .klbLineTooLong => frame_klbLineTooLong s y eq
  | .help => frame_help s y eq
  | .ver => frame_ver s y eq
  | .status => frame_status s y eq
  | .baud n => frame_baud s y n eq
  | .authNonce => frame_authNonce s y eq
  | .authLoad offset data => frame_authLoad s y offset data eq
  | .authCheck => frame_authCheck s y eq
  | .authEnd => frame_authEnd s y eq
  | .sessionExpiry => frame_sessionExpiry s y eq
  | .klbRd addr n => frame_klbRd s y addr n eq
  | .klbWr addr v => frame_klbWr s y addr v eq
  | .mrd cl co addr n => frame_mrd s y cl co addr n eq
  | .mwr cl co addr data => frame_mwr s y cl co addr data eq
  | .klbHod handle offset n => frame_klbHod s y handle offset n eq
  | .threads cl co => frame_threads s y cl co eq
  | .regs cl co t => frame_regs s y cl co t eq
  | .setreg cl co t r v => frame_setreg s y cl co t r v eq
  | .klbHalt cl co t => frame_klbHalt s y cl co t eq
  | .klbResume cl co t => frame_klbResume s y cl co t eq
  | .step cl co t n => frame_step s y cl co t n eq
  | .kill cl co t => frame_kill s y cl co t eq
  | .bpSet cl co addr => frame_bpSet s y cl co addr eq
  | .bpClr cl co addr => frame_bpClr s y cl co addr eq
  | .bpOn => frame_bpOn s y eq
  | .bpOff => frame_bpOff s y eq
  | .keys => frame_keys s y eq
  | .imgOffset v => frame_imgOffset s y v eq
  | .imgData data => frame_imgData s y data eq
  | .imgCommit => frame_imgCommit s y eq
  | .imgInstall slot => frame_imgInstall s y slot eq
  | .imgAbort => frame_imgAbort s y eq
  | .powerRemoved => frame_powerRemoved s y eq
  | .linkRecoveryExit h => frame_linkRecoveryExit s y h eq
  | .driveLaneFaultInService d lane => frame_driveLaneFaultInService s y d lane eq
  | .keyAlarmSourceCleared code => frame_keyAlarmSourceCleared s y code eq
  | .chunkDone ok => frame_chunkDone s y ok eq
  | .installDone ok => frame_installDone s y ok eq
  | .loadDataReturn cl co t store bad => frame_loadDataReturn s y cl co t store bad eq
  | .atsInvalidationRequest h f => frame_atsInvalidationRequest s y h f eq

theorem pending_notMem_partsOf (c : Instr) : Part.pending ∉ partsOf c := by cases c <;> exact notListed rfl

theorem now_notMem_partsOf (c : Instr) : Part.now ∉ partsOf c := by cases c <;> exact notListed rfl

/-- Settles O4. -/
theorem everyCommandChangesOnlyItsParts : Obligations.EveryCommandChangesOnlyItsParts := exec_changesOnly

/-- Settles O5: no command lists the queue or the clock among its parts. -/
theorem commandsLeaveTheQueueAndTheClock : Obligations.CommandsLeaveTheQueueAndTheClock := fun c s t eq =>
  ⟨changesOnly_pending (exec_changesOnly c s t eq) (pending_notMem_partsOf c), changesOnly_now (exec_changesOnly c s t eq) (now_notMem_partsOf c)⟩

/-- Settles O6: the commands that list the mode among their parts are the ones that the statement excepts. -/
theorem modeChangesOnlyByItsEvents : Obligations.ModeChangesOnlyByItsEvents := by
  unfold Obligations.ModeChangesOnlyByItsEvents
  intro c s t eq hc
  refine changesOnly_mode (exec_changesOnly c s t eq) ?_
  cases c
  case powerOn | powerRemoved | devRstNAssert | holdoverExpiry | deviceReset | romStage | loaderStage | mgmtFwStage | bootDone | epochBoundary | parkEntry | parkPhaseEnd =>
    exact hc.elim
  all_goals exact notListed rfl

/-! The one-way fuses (R432, R433) -/

/-- No step back from one protected store to another: the minimum version falls no lower, and no provisioned or revoked bit is cleared. -/
def FusesKept (v w : Nv) : Prop :=
  v.minVersion ≤ w.minVersion ∧ (∀ k, k &&& v.provisioned = k → k &&& w.provisioned = k) ∧ ∀ k, k &&& v.revoked = k → k &&& w.revoked = k

theorem fusesKept_of_fusesOf_eq {v w : Nv} (h : fusesOf w = fusesOf v) : FusesKept v w := by
  simp only [fusesOf, Prod.mk.injEq] at h
  obtain ⟨hprov, hrev, hmin⟩ := h
  exact ⟨Nat.le_of_eq hmin.symm, fun k hk => hprov ▸ hk, fun k hk => hrev ▸ hk⟩

theorem fusesKept_of_nv_eq {v w : Nv} (h : w = v) : FusesKept v w := fusesKept_of_fusesOf_eq (h ▸ rfl)

/-- Setting a bit of a number is its inclusive or with the bit's value. -/
theorem setBitAt_true (n i : Nat) : setBitAt n i true = n ||| 2 ^ i := by
  have hsplit : 2 ^ i * (n / 2 ^ i) + n % 2 ^ i = n := Nat.div_add_mod n (2 ^ i)
  have hlow : n % 2 ^ i < 2 ^ i := Nat.mod_lt n (Nat.two_pow_pos i)
  refine Nat.eq_of_testBit_eq fun j => ?_
  rw [setBitAt, Nat.testBit_or, Nat.testBit_two_pow, bitAt_eq_testBit]
  cases hbit : n.testBit i with
  | true =>
    have hle : 2 ^ i ≤ n := Nat.ge_two_pow_of_testBit hbit
    rw [b2n, if_pos rfl, Nat.one_mul, Nat.sub_add_cancel hle]
    by_cases hij : i = j
    · simp [← hij, hbit]
    · simp [hij]
  | false =>
    have heven : n / 2 ^ i % 2 = 0 := by simpa [Nat.testBit_eq_decide_div_mod_eq] using hbit
    have hset : n - b2n false * 2 ^ i + b2n true * 2 ^ i = 2 ^ i * (n / 2 ^ i + 1) + n % 2 ^ i := by
      rw [Nat.mul_add, Nat.mul_one]; simp only [b2n, if_true, Bool.false_eq_true, if_false, Nat.zero_mul, Nat.one_mul]; omega
    rw [hset, Nat.testBit_two_pow_mul_add _ hlow, ← hsplit, Nat.testBit_two_pow_mul_add _ hlow, hsplit]
    by_cases hji : j < i
    · simp [hji, show i ≠ j by omega]
    · obtain ⟨m, rfl⟩ : ∃ m, j = i + m := ⟨j - i, by omega⟩
      cases m with
      | zero => simp [Nat.testBit_zero]; omega
      | succ m => simp [hji, Nat.testBit_succ, show (n / 2 ^ i + 1) / 2 = n / 2 ^ i / 2 by omega]

/-- A number whose bits are all set in n has them set once another bit of n is. -/
theorem and_setBitAt_true {k n : Nat} (i : Nat) (h : k &&& n = k) : k &&& setBitAt n i true = k := by
  rw [setBitAt_true, Nat.and_or_distrib_left, h]
  refine Nat.eq_of_testBit_eq fun j => ?_
  rw [Nat.testBit_or, Nat.testBit_and]
  cases k.testBit j <;> rfl

/-- A reply changes nothing of the protected store. -/
theorem refuse_nv (p : Packet) (st : Status) (ws : List Nat) (s : State) : (refuse p st ws s).nv = s.nv := writeReply_nv ..

/-- An answer is a refusal of a long result that does not fit, or the reply and what follows it. -/
theorem answer_cases (p : Packet) (a : Answer) (s : State) :
    (∃ st ws, answer p a s = refuse p st ws s) ∨
      ∃ ws long, answer p a s = a.after (writeReply p a.status a.handle a.result ws long a.state) := by
  cases hlong : a.long with
  | none => exact .inr ⟨[], false, answer_short hlong⟩
  | some l =>
    simp only [answer, hlong]
    generalize (if p.chan = .owner then 4064 else p.resultLen.toNat) = room
    split
    · exact .inl ⟨_, _, rfl⟩
    · split
      · exact .inl ⟨_, _, rfl⟩
      · exact .inr ⟨_, _, rfl⟩

/-- Answering leaves the protected store as the opcode left it, or as it was. -/
theorem answer_nv {p : Packet} {a : Answer} (hafter : a.after = id) (s : State) : (answer p a s).nv = s.nv ∨ (answer p a s).nv = a.state.nv := by
  rcases answer_cases p a s with ⟨st, ws, h⟩ | ⟨ws, long, h⟩ <;> rw [h]
  · exact .inl (refuse_nv ..)
  · exact .inr (by rw [hafter, id, writeReply_nv])

section
variable {d : CmdDef} {p : Packet} (hafter : ∀ u, (d.act (namedBy p) p u).after = id)
  (hact : ∀ u, refusal d p u = none → FusesKept u.nv (d.act (namedBy p) p u).state.nv)
include hafter hact

theorem fusesKept_serve (u : State) : FusesKept u.nv (serve d p u).nv := by
  cases hr : refusal d p u with
  | some st => exact fusesKept_of_nv_eq (by rw [serve_some hr]; exact refuse_nv ..)
  | none =>
    rw [serve_none hr]
    rcases answer_nv (p := p) (hafter u) u with h | h
    · exact fusesKept_of_nv_eq h
    · rw [h]; exact hact u hr

/-- An opcode whose effect keeps the fuses keeps them whatever becomes of its packet. -/
theorem fusesKept_runCmd (i : Instr) (s : State) : FusesKept s.nv (runCmd d i p s).nv := by
  unfold runCmd
  split
  next =>
    split
    · exact fusesKept_of_nv_eq rfl
    split
    · split
      · exact fusesKept_of_nv_eq (refuse_nv ..)
      · exact fusesKept_of_nv_eq rfl
    · exact fusesKept_serve hafter hact (ownerSpoke s)
  next c _ =>
    split
    · exact fusesKept_of_nv_eq rfl
    split
    · exact fusesKept_of_nv_eq rfl
    split
    · exact fusesKept_of_nv_eq rfl
    · exact fusesKept_of_nv_eq (refuse_nv p .hostMemoryFault [] (consume c p s))
    · exact fusesKept_serve hafter hact (consume c p s)

end

/-- COMMIT_VERSION is refused a version that is not above the minimum (R432). -/
theorem commitVersion_fusesKept (p : Packet) (s : State) : FusesKept s.nv (runCmd commitVersionDef (.commitVersion p) p s).nv := by
  refine fusesKept_runCmd (fun _ => rfl) (fun u hu => ⟨?_, fun k hk => hk, fun k hk => hk⟩) _ s
  have hnot := firstRefusal_none hu (decide (u.sec.version ≤ u.nv.minVersion), .versionRefused)
    (List.mem_append_right _ (List.mem_singleton.mpr rfl))
  have hlt : u.nv.minVersion < u.sec.version := by simpa using hnot
  exact Nat.le_of_lt hlt

/-- REVOKE_KEY sets a revoked bit (R435). -/
theorem revokeKey_fusesKept (p : Packet) (s : State) : FusesKept s.nv (runCmd revokeKeyDef (.revokeKey p) p s).nv :=
  fusesKept_runCmd (fun _ => rfl) (fun u _ => ⟨Nat.le_refl u.nv.minVersion, fun _ hk => hk, fun _ hk => and_setBitAt_true (p.f 0 0 2) hk⟩) _ s

theorem internalFault_nv (opcode : Nat) (p : Packet) (s : State) : (internalFault opcode p s).nv = s.nv :=
  changesOnly_nv (L := [.out, .drawn, .owner, .rings, .hosts, .fns, .violations, .counters])
    ((internalFault_only opcode p s (by decide) (by decide) (by decide) (by decide) (by decide) (by decide) (by decide) (by decide)).mpr (changesOnly_refl _ s)) (by decide)

/-- OWNER_KEY_PROVISION sets a provisioned bit, or none (R434). -/
theorem ownerKeyProvision_fusesKept (p : Packet) (s : State) : FusesKept s.nv (runCmd ownerKeyProvisionDef (.ownerKeyProvision p) p s).nv := by
  refine fusesKept_runCmd (fun u => ?after) (fun u _ => ?kept) _ s
  case after => simp only [ownerKeyProvisionDef]; split <;> rfl
  case kept =>
    simp only [ownerKeyProvisionDef]
    split
    · exact ⟨Nat.le_refl u.nv.minVersion, fun _ hk => and_setBitAt_true (p.f 0 0 2) hk, fun _ hk => hk⟩
    · rw [internalFault_nv]
      exact ⟨Nat.le_refl u.nv.minVersion, fun _ hk => hk, fun _ hk => hk⟩

/-- Three opcodes list the fuses among their parts (R432, R434, R435). -/
theorem fuses_mem_partsOf {c : Instr} (h : Part.fuses ∈ partsOf c) :
    (∃ p, c = .commitVersion p) ∨ (∃ p, c = .revokeKey p) ∨ ∃ p, c = .ownerKeyProvision p := by
  revert h
  cases c
  case commitVersion p => exact fun _ => .inl ⟨p, rfl⟩
  case revokeKey p => exact fun _ => .inr (.inl ⟨p, rfl⟩)
  case ownerKeyProvision p => exact fun _ => .inr (.inr ⟨p, rfl⟩)
  all_goals exact fun h => absurd h (notListed rfl)

theorem exec_fusesKept {c : Instr} {s t : State} (eq : exec c s = .next t) : FusesKept s.nv t.nv := by
  by_cases hc : Part.fuses ∈ partsOf c
  · rcases fuses_mem_partsOf hc with ⟨p, rfl⟩ | ⟨p, rfl⟩ | ⟨p, rfl⟩ <;> obtain rfl := Host.Outcome.next.inj eq
    · exact commitVersion_fusesKept p s
    · exact revokeKey_fusesKept p s
    · exact ownerKeyProvision_fusesKept p s
  · exact fusesKept_of_fusesOf_eq (changesOnly_fuses (exec_changesOnly c s t eq) hc)

theorem step_fusesKept {s t : State} (h : step s = .next t) : FusesKept s.nv t.nv := by
  unfold step at h
  split at h
  next c rest _ => exact exec_fusesKept (s := { s with pending := rest }) h
  next => obtain rfl := Host.Outcome.next.inj h; exact fusesKept_of_nv_eq (idle_nv s)

/-- Settles O8: a command changes the fuses only by raising the minimum version or setting a bit. -/
theorem fusesNeverStepBack : Obligations.FusesNeverStepBack := by
  unfold Obligations.FusesNeverStepBack
  intro least keys gone s t ⟨hleast, hkeys, hgone⟩ h
  obtain ⟨hmin, hprov, hrev⟩ := step_fusesKept h
  exact ⟨Nat.le_trans hleast hmin, hprov keys hkeys, hrev gone hgone⟩

/-- Settles O9: the values of the fuses at reset. -/
theorem fusesAtReset : Obligations.FusesAtReset := ⟨Nat.zero_le _, rfl, rfl⟩

end Sys2Proof.Machine
end

section
/-! PROOF. The way of a command packet: taken and answered, refused, left in its ring or held, and what its reply carries (R59 to R71, R107), for O10, O11, O13 and O14. -/

namespace Sys2Proof.Machine
open Sys2Proof

/-- A row that is a command packet runs its opcode's definition. -/
theorem exec_eq_runCmd {c : Instr} {d : CmdDef} {p : Packet} (h : packetOf c = some (d, p)) (s : State) :
    exec c s = .next (runCmd d c p s) := by
  cases c <;> cases h <;> rfl

theorem exec_accepted {c : Instr} {d : CmdDef} {p : Packet} {s : State} (hc : packetOf c = some (d, p)) (h : accepts d p s = true) :
    exec c s = .next (answer p (d.act (namedBy p) p (onceTaken p s)) (onceTaken p s)) := by
  rw [exec_eq_runCmd hc, runCmd_accepted h]

/-- Settles O10. -/
theorem acceptedPacketsAreCarriedOutAndAnswered : Obligations.AcceptedPacketsAreCarriedOutAndAnswered :=
  fun _ _ _ _ hc h => exec_accepted hc h

/-- Settles O11: a packet that is taken is served in the state it was taken in, and a refusal is answered there. -/
theorem refusedPacketsHaveNoEffectButTheReply : Obligations.RefusedPacketsHaveNoEffectButTheReply :=
  fun c d p s st hc ht hr => by rw [exec_eq_runCmd hc, runCmd_taken ht, serve_some hr]

/-! Packets that are not taken -/

section
variable {d : CmdDef} {i : Instr} {p : Packet} {s : State}

theorem runCmd_owner_notReady (hc : p.chan = .owner) (hn : ownerNotReady p s = true) : runCmd d i p s = s := by
  simp [runCmd, hc, hn]

theorem runCmd_owner_held (hc : p.chan = .owner) (hn : ownerNotReady p s = false) (hf : fenceHolds p s = true) (hroom : fencedOn s .owner < 32) :
    runCmd d i p s = { ownerSpoke s with fenced := s.fenced ++ [(.owner, i)] } := by
  simp [runCmd, hc, hn, hf, Nat.not_le.mpr hroom]

theorem runCmd_owner_full (hc : p.chan = .owner) (hn : ownerNotReady p s = false) (hf : fenceHolds p s = true) (hfull : 32 ≤ fencedOn s .owner) :
    runCmd d i p s = replied p .noResource [] (ownerSpoke s) := by
  simp [runCmd, hc, hn, hf, hfull, replied, refuse]

theorem runCmd_ring_notReady {r : RingChan} (hc : p.chan = .ring r) (hn : ringNotReady r p s = true) : runCmd d i p s = s := by
  simp [runCmd, hc, hn]

theorem runCmd_ring_held {r : RingChan} (hc : p.chan = .ring r) (hn : ringNotReady r p s = false) (hf : fenceHolds p s = true) :
    runCmd d i p s = { s with fenced := s.fenced ++ [(.ring r, i)] } := by
  simp [runCmd, hc, hn, hf]

theorem runCmd_ring_headerFailed {r : RingChan} (hc : p.chan = .ring r) (hn : ringNotReady r p s = false) (hf : fenceHolds p s = false)
    (hread : p.read = .headerFailed) : runCmd d i p s = ringFault r s := by
  simp [runCmd, hc, hn, hf, hread]

theorem runCmd_ring_paramsFailed {r : RingChan} (hc : p.chan = .ring r) (hn : ringNotReady r p s = false) (hf : fenceHolds p s = false)
    (hread : p.read = .paramsFailed) : runCmd d i p s = ringFault r (replied p .hostMemoryFault [] (consume r p s)) := by
  simp [runCmd, hc, hn, hf, hread, replied, refuse]

end

/-- Settles O13: the cases of a channel that takes nothing. -/
theorem packetsThatAreNotTaken : Obligations.PacketsThatAreNotTaken := by
  unfold Obligations.PacketsThatAreNotTaken
  intro c d p s hc
  simp only [exec_eq_runCmd hc, Host.Outcome.next.injEq]
  exact ⟨runCmd_owner_notReady, runCmd_owner_held, runCmd_owner_full, fun r => runCmd_ring_notReady, fun r => runCmd_ring_held,
    fun r => runCmd_ring_headerFailed, fun r => runCmd_ring_paramsFailed⟩

/-! Interrupts that follow a reply: they add to what leaves the device, and touch the ring's VEC_ERR at most -/

section
variable {o : Out} {s : State}

theorem mem_out_refreshInta (h : HostId) (ho : o ∈ s.out) : o ∈ (refreshInta h s).out := by
  unfold refreshInta
  split
  · exact ho
  · exact List.mem_cons_of_mem _ ho

theorem mem_out_signalVector (h : HostId) (f : Fn) (vec : Nat) (ho : o ∈ s.out) : o ∈ (signalVector h f vec s).out := by
  unfold signalVector
  dsimp only
  split
  · exact ho
  split
  · exact ho
  split
  · exact ho
  · exact List.mem_cons_of_mem _ ho

theorem mem_out_signalRing (c : RingChan) (vec bit : Nat) (ho : o ∈ s.out) : o ∈ (signalRing c vec bit s).out := by
  have hintx : o ∈ (if c.vf.isNone then setIntx c.link bit s else s).out := by
    split
    · exact mem_out_refreshInta c.link (s := modLink c.link _ s) ho
    · exact ho
  unfold signalRing
  dsimp only
  split
  · exact mem_out_signalVector c.link c.fn vec hintx
  · exact hintx

end

theorem refreshInta_rings (h : HostId) (s : State) : (refreshInta h s).rings = s.rings := by
  unfold refreshInta
  split <;> rfl

theorem signalVector_rings (h : HostId) (f : Fn) (vec : Nat) (s : State) : (signalVector h f vec s).rings = s.rings := by
  unfold signalVector
  dsimp only
  repeat' split
  all_goals rfl

/-- Two rings that differ in VEC_ERR at most. -/
def SameButVecErr (r x : Ring) : Prop := x = r ∨ x = { r with vecErr := true }

theorem ring_modify_vecErr (c : RingChan) (s : State) :
    SameButVecErr (ring s c) (ring { s with rings := Tbl.modify s.rings c.number fun r => { r with vecErr := true } } c) := by
  simp only [SameButVecErr, ring, Tbl.getD, Tbl.find_modify, if_true]
  cases Tbl.find s.rings c.number with
  | none => exact .inl rfl
  | some r => exact .inr rfl

theorem ring_signalRing (c : RingChan) (vec bit : Nat) (s : State) : SameButVecErr (ring s c) (ring (signalRing c vec bit s) c) := by
  have hintx : (if c.vf.isNone then setIntx c.link bit s else s).rings = s.rings := by
    split
    · exact refreshInta_rings c.link _
    · rfl
  unfold signalRing
  dsimp only
  split
  · exact .inl (by rw [ring, ring, signalVector_rings, hintx])
  · have h := ring_modify_vecErr c (if c.vf.isNone then setIntx c.link bit s else s)
    rwa [show ring (if c.vf.isNone then setIntx c.link bit s else s) c = ring s c by rw [ring, ring, hintx]] at h

/-- The reply record of a short reply (R68). -/
def shortReply (p : Packet) (phase : Bool) (st : Status) (ws : List Nat) (epoch : Nat) : Reply :=
  { chan := p.chan, vdm := p.vdm, phase := phase, handleValid := false, longResult := false, status := st.code, tag := p.tag,
    epoch := epoch, result := (ws ++ [0, 0, 0, 0]).take 4, long := [] }

theorem replied_owner {p : Packet} (hc : p.chan = .owner) (st : Status) (ws : List Nat) (s : State) :
    replied p st ws s = emit (.reply (shortReply p false st ws s.epochs.epoch)) s := by
  simp only [replied, writeReply, shortReply, hc]

/-- The ring once a reply stands at its reply ring's tail (R63). -/
def afterReply (r : Ring) : Ring :=
  { r with rqTail := ringNext r.rqCfg r.rqTail 1, rqPhase := if ringNext r.rqCfg r.rqTail 1 = 0 then !r.rqPhase else r.rqPhase }

theorem replied_ring {p : Packet} {c : RingChan} (hc : p.chan = .ring c) (st : Status) (ws : List Nat) (s : State) :
    replied p st ws s = signalRing c (ring s c).replyVec 0
      (modRing c afterReply (emit (.reply (shortReply p (ring s c).rqPhase st ws s.epochs.epoch)) s)) := by
  simp only [replied, writeReply, shortReply, hc]
  rfl

/-- Settles O14: a ring reply is written, the tail moves on, and only then is the interrupt raised. -/
theorem repliesCarryStatusTagAndEpoch : Obligations.RepliesCarryStatusTagAndEpoch := by
  unfold Obligations.RepliesCarryStatusTagAndEpoch
  refine fun p st ws s => ⟨fun hc => ?owner, fun c hc => ?ring⟩
  case owner => rw [replied_owner hc, emit, shortReply, hc]
  case ring =>
    rw [replied_ring hc]
    refine ⟨mem_out_signalRing c _ 0 ?written, ?tail⟩
    case written => rw [shortReply, hc]; exact List.mem_cons_self
    case tail =>
      rcases ring_signalRing c (ring s c).replyVec 0
        (modRing c afterReply (emit (.reply (shortReply p (ring s c).rqPhase st ws s.epochs.epoch)) s)) with h | h <;>
      · rw [h, ring_modRing]
        exact ⟨rfl, rfl⟩

end Sys2Proof.Machine
end

section
/-! PROOF. Owner events and mode transitions (R33, R81 to R83), for O58. -/

namespace Sys2Proof.Machine
open Sys2Proof

/-! Owner events -/

/-- The event is one that a set mask bit suppresses (R82). -/
def ownerMasked (type : Nat) (s : State) : Prop := type ≠ 1 ∧ type ≠ 2 ∧ bitAt s.owner.mask type = true

theorem ownerMasked_iff (type : Nat) (s : State) : (maskable type && bitAt s.owner.mask type) = true ↔ ownerMasked type s := by
  simp [maskable, ownerMasked, and_assoc]

section
variable (type source tag : Nat) (payload : List Nat) {s : State}

theorem raiseOwner_of_not_generated (h : s.glb.fwRuns = false ∨ ownerMasked type s) : raiseOwner type source tag payload s = s := by
  unfold raiseOwner
  rcases h with h | h
  · simp [h]
  · simp [(ownerMasked_iff type s).mpr h]

theorem raiseOwner_held (hfw : s.glb.fwRuns = true) (hm : ¬ ownerMasked type s) (hroom : s.owner.held.length < 1024) :
    raiseOwner type source tag payload s = { s with owner := { s.owner with
      seq := s.owner.seq + 1, held := s.owner.held ++ [mkEvent s type source tag s.owner.seq false payload] } } := by
  rw [← ownerMasked_iff] at hm
  simp only [raiseOwner, hfw, hm, hroom, Bool.not_true, Bool.false_eq_true, if_false, if_true]

theorem raiseOwner_lost (hfw : s.glb.fwRuns = true) (hm : ¬ ownerMasked type s) (hfull : 1024 ≤ s.owner.held.length) :
    raiseOwner type source tag payload s = { s with owner := { s.owner with seq := s.owner.seq + 1, unreported := s.owner.unreported + 1 } } := by
  rw [← ownerMasked_iff] at hm
  simp only [raiseOwner, hfw, hm, Nat.not_lt.mpr hfull, Bool.not_true, Bool.false_eq_true, if_false]

theorem raiseOwner_seq (hfw : s.glb.fwRuns = true) (hm : ¬ ownerMasked type s) : (raiseOwner type source tag payload s).owner.seq = s.owner.seq + 1 := by
  rcases Nat.lt_or_ge s.owner.held.length 1024 with h | h
  · rw [raiseOwner_held type source tag payload hfw hm h]
  · rw [raiseOwner_lost type source tag payload hfw hm h]

theorem raiseOwner_frame (s : State) : changesOnly [.owner] s (raiseOwner type source tag payload s) :=
  (raiseOwner_only type source tag payload s (by decide)).mpr (changesOnly_refl _ s)

end

@[simp] theorem raiseOwner_glb (type source tag : Nat) (payload : List Nat) (s : State) : (raiseOwner type source tag payload s).glb = s.glb :=
  changesOnly_glb (raiseOwner_frame type source tag payload s) (by decide)

@[simp] theorem raiseOwner_out (type source tag : Nat) (payload : List Nat) (s : State) : (raiseOwner type source tag payload s).out = s.out :=
  changesOnly_out (raiseOwner_frame type source tag payload s) (by decide)

@[simp] theorem raiseOwner_rings (type source tag : Nat) (payload : List Nat) (s : State) : (raiseOwner type source tag payload s).rings = s.rings :=
  changesOnly_rings (raiseOwner_frame type source tag payload s) (by decide)

theorem raiseHosts_frame (type source tag : Nat) (payload : List Nat) (s : State) :
    changesOnly [.out, .rings, .hosts, .fns] s (raiseHosts type source tag payload s) :=
  (raiseHosts_only type source tag payload s (by decide) (by decide) (by decide) (by decide)).mpr (changesOnly_refl _ s)

/-! Mode transitions -/

theorem raiseModeChange_glb (old : Nat) (s : State) : (raiseModeChange old s).glb = s.glb := by
  simp only [raiseModeChange]
  split
  · rw [changesOnly_glb (raiseHosts_frame _ _ _ _ _) (by decide), raiseOwner_glb]
  · exact raiseOwner_glb ..

/-- The MODE_CHANGE payload: the modes and the cause, and the count of transitions (R33). -/
def modeChangePayload (old : Nat) (s : State) : List Nat := [old + s.glb.mode.code * 256 + s.glb.cause.code * 65536, s.glb.modeSeq.toNat]

theorem raiseModeChange_owner (old : Nat) (s : State) :
    (raiseModeChange old s).owner = (raiseOwner 0x10 0 0 (modeChangePayload old s) s).owner := by
  simp only [raiseModeChange]
  split
  · exact changesOnly_owner (raiseHosts_frame _ _ _ _ _) (by decide)
  · rfl

/-- Neither into nor out of QUIESCE or MAINTENANCE, only the owner is told (R33). -/
theorem raiseModeChange_of_owner_only {old : Nat} {s : State} (hold : old ≠ 4) (hold' : old ≠ 5) (hm : s.glb.mode ≠ .maintenance) (hq : s.glb.mode ≠ .quiesce) :
    raiseModeChange old s = raiseOwner 0x10 0 0 (modeChangePayload old s) s := by
  simp [raiseModeChange, hold, hold', hm, hq, modeChangePayload]

/-- The state in which a mode transition is reported. -/
def inMode (m : Mode) (c : Cause) (s : State) : State :=
  { s with glb := { s.glb with
    mode := m, prev := some s.glb.mode, cause := c, modeSeq := s.glb.modeSeq + 1, drainComplete := false, autoNext := none
    quiesceFrom := if m = .quiesce then s.glb.mode else s.glb.quiesceFrom } }

theorem enterMode_eq (m : Mode) (c : Cause) (s : State) : enterMode m c s = raiseModeChange s.glb.mode.code (inMode m c s) := rfl

theorem enterMode_glb (m : Mode) (c : Cause) (s : State) : (enterMode m c s).glb = (inMode m c s).glb := raiseModeChange_glb ..

theorem modeOf_enterMode (m : Mode) (c : Cause) (s : State) : modeOf (enterMode m c s).glb = (m, some s.glb.mode, c, s.glb.modeSeq + 1) := by
  rw [enterMode_glb]; rfl

theorem enterMode_frame (m : Mode) (c : Cause) (s : State) : changesOnly ([.mode, .glb] ++ replyParts) s (enterMode m c s) :=
  (enterMode_only m c s (by decide) (by decide) (by decide) (by decide) (by decide) (by decide) (by decide)).mpr (changesOnly_refl _ s)

theorem Mode.code_eq_four {m : Mode} (h : m.code = 4) : m = .maintenance := by revert h; cases m <;> decide

theorem Mode.code_eq_five {m : Mode} (h : m.code = 5) : m = .quiesce := by revert h; cases m <;> decide

theorem enterMode_of_owner_only {m : Mode} (c : Cause) {s : State} (hq : m ≠ .quiesce) (hm : m ≠ .maintenance) (hq' : s.glb.mode ≠ .quiesce)
    (hm' : s.glb.mode ≠ .maintenance) :
    enterMode m c s = raiseOwner 0x10 0 0 (modeChangePayload s.glb.mode.code (inMode m c s)) (inMode m c s) :=
  raiseModeChange_of_owner_only (mt Mode.code_eq_four hm') (mt Mode.code_eq_five hq') hm hq

theorem enterMode_held (m : Mode) (c : Cause) {s : State} (hfw : s.glb.fwRuns = true) (hmask : bitAt s.owner.mask 0x10 = false) (hroom : s.owner.held.length < 1024) :
    (enterMode m c s).owner.held = s.owner.held ++
      [mkEvent (inMode m c s) 0x10 0 0 s.owner.seq false (modeChangePayload s.glb.mode.code (inMode m c s))] := by
  have hm : ¬ ownerMasked 0x10 (inMode m c s) := fun h => Bool.noConfusion (hmask.symm.trans h.2.2)
  rw [enterMode_eq, raiseModeChange_owner, raiseOwner_held (s := inMode m c s) 0x10 0 0 _ hfw hm hroom]
  rfl

/-- Settles O58. -/
theorem ownerEventsAndModeTransitionsAreReported : Obligations.OwnerEventsAndModeTransitionsAreReported := by
  unfold Obligations.OwnerEventsAndModeTransitionsAreReported
  refine ⟨fun type source tag payload s => ⟨raiseOwner_of_not_generated type source tag payload, fun hfw hm => ?raised⟩, fun m c s => ?transition⟩
  case raised =>
    refine ⟨raiseOwner_frame type source tag payload s, raiseOwner_seq type source tag payload hfw hm, fun hroom => ?_, fun hfull => ?_⟩
    · rw [raiseOwner_held type source tag payload hfw hm hroom]; rfl
    · rw [raiseOwner_lost type source tag payload hfw hm hfull]; exact ⟨rfl, rfl⟩
  case transition =>
    refine ⟨modeOf_enterMode m c s, enterMode_frame m c s, fun hfw hmask hroom => ⟨_, enterMode_held m c hfw hmask hroom, rfl, rfl, rfl, rfl⟩,
      fun hq hm hq' hm' => ?_⟩
    rw [enterMode_of_owner_only c hq hm hq' hm', raiseOwner_out, raiseOwner_rings]
    exact ⟨rfl, rfl⟩

end Sys2Proof.Machine
end

section
/-! PROOF. The rules of a core, its threads and its hawk registers, and the hawk instructions (R366, R376, R378), for O57. -/

namespace Sys2Proof.Machine
open Sys2Proof

/-! A core after each update -/

@[simp] theorem coreOf_modCore_same (ck : Nat) (f : Core → Core) (s : State) : coreOf (modCore ck f s) ck = f (coreOf s ck) :=
  Tbl.getD_put_same _ _ _ _

theorem coreOf_modCore_other {ck k : Nat} (f : Core → Core) (s : State) (h : k ≠ ck) : coreOf (modCore ck f s) k = coreOf s k :=
  Tbl.getD_put_other _ _ _ _ _ h

@[simp] theorem coreOf_countCore (cl n k : Nat) (s : State) : coreOf (countCore cl n s) k = coreOf s k := rfl

@[simp] theorem modCore_mems (ck : Nat) (f : Core → Core) (s : State) : (modCore ck f s).cores.mems = s.cores.mems := rfl

/-- A thread's entry is changed by a function, and every other one is left. -/
theorem thread_modThread (ck t n : Nat) (f : Thread → Thread) (s : State) :
    thread (modThread ck t f s) ck n = if n = t then (thread s ck n).map f else thread s ck n := by
  simp only [thread, modThread, coreOf_modCore_same, Tbl.find_modify]
  by_cases h : n = t
  · rw [if_pos h, if_pos h, h]
  · rw [if_neg h, if_neg h]

theorem thread_modCore {f : Core → Core} (ck n : Nat) (s : State) (h : (f (coreOf s ck)).threads = (coreOf s ck).threads) :
    thread (modCore ck f s) ck n = thread s ck n := by
  simp only [thread, coreOf_modCore_same, h]

theorem hawk_modCore {f : Core → Core} (ck j : Nat) (s : State) (h : (f (coreOf s ck)).hawk = (coreOf s ck).hawk) :
    hawk (modCore ck f s) ck j = hawk s ck j := by
  simp only [hawk, coreOf_modCore_same, h]

@[simp] theorem thread_issued (ck t n : Nat) (s : State) : thread (issued ck t s) ck n = thread s ck n := thread_modCore ck n s rfl

@[simp] theorem hawk_issued (ck t j : Nat) (s : State) : hawk (issued ck t s) ck j = hawk s ck j := hawk_modCore ck j s rfl

theorem coreOf_issued_other {ck k : Nat} (t : Nat) (s : State) (h : k ≠ ck) : coreOf (issued ck t s) k = coreOf s k := coreOf_modCore_other _ s h

/-! An instruction that retires with a result -/

/-- The thread after an instruction with a result, which goes on at npc. -/
def retiredAt (npc rd v : Nat) (th : Thread) : Thread :=
  { th.setX rd v with pc := npc % 2 ^ 64, retired := (th.retired + 1) % 2 ^ 64, atBp := false }

theorem setX_retired (th : Thread) (r v : Nat) : (th.setX r v).retired = th.retired := by
  unfold Thread.setX; split <;> rfl

theorem thread_retireRd (ck t npc rd v n : Nat) (s : State) :
    thread (retireRd ck t npc rd v s) ck n = if n = t then (thread s ck n).map (retiredAt npc rd v) else thread s ck n := by
  rw [retireRd, retire, show ∀ u, thread (countCore (ck / 16) 0 u) ck n = thread u ck n from fun _ => rfl, thread_modCore ck n _ rfl, thread_modThread,
    thread_modThread]
  split
  · rw [Option.map_map]
    congr 1
    funext th
    simp only [Function.comp, retiredAt, setX_retired]
  · rfl

theorem hawk_retireRd (ck t npc rd v j : Nat) (s : State) : hawk (retireRd ck t npc rd v s) ck j = hawk s ck j := by
  rw [retireRd, retire, show ∀ u, hawk (countCore (ck / 16) 0 u) ck j = hawk u ck j from fun _ => rfl, hawk_modCore ck j _ rfl, modThread,
    hawk_modCore ck j _ rfl, modThread, hawk_modCore ck j _ rfl]

theorem coreOf_retireRd_other {ck k : Nat} (t npc rd v : Nat) (s : State) (h : k ≠ ck) : coreOf (retireRd ck t npc rd v s) k = coreOf s k := by
  rw [retireRd, retire, coreOf_countCore, coreOf_modCore_other _ _ h, modThread, coreOf_modCore_other _ _ h, modThread, coreOf_modCore_other _ _ h]

@[simp] theorem retireRd_mems (ck t npc rd v : Nat) (s : State) : (retireRd ck t npc rd v s).cores.mems = s.cores.mems := rfl

theorem retireRd_frame (ck t npc rd v : Nat) (s : State) : changesOnly [.cores, .counters] s (retireRd ck t npc rd v s) :=
  (retireRd_only ck t npc rd v s (by decide) (by decide)).mpr (changesOnly_refl _ s)

theorem modCore_frame (ck : Nat) (f : Core → Core) (s : State) : changesOnly [.cores] s (modCore ck f s) :=
  (modCore_only ck f s (by decide)).mpr (changesOnly_refl _ s)

theorem changesOnly_trans {L : List Part} {s t u : State} (h : changesOnly L s t) (k : changesOnly L t u) : changesOnly L s u := by
  intro p hp
  have h1 := h p hp
  have h2 := k p hp
  cases p <;> exact h2.trans h1

theorem changesOnly_mono {L M : List Part} {s t : State} (hsub : ∀ p ∈ L, p ∈ M) (h : changesOnly L s t) : changesOnly M s t :=
  fun p hp => h p fun hl => hp (hsub p hl)

/-! Draining the store buffer leaves every thread at its program counter (R363) -/

theorem find_mapAll {α : Type} (t : Tbl α) (f : Nat → α → α) (k : Nat) : Tbl.find (Tbl.mapAll t f) k = (Tbl.find t k).map (f k) := by
  induction t with
  | nil => rfl
  | cons e r ih =>
    obtain ⟨j, a⟩ := e
    simp only [Tbl.mapAll, List.map_cons, Tbl.find] at ih ⊢
    split
    next h => subst h; rfl
    next => exact ih

/-- The program counter of a thread. -/
def threadPc (s : State) (ck n : Nat) : Option Nat := (thread s ck n).map (·.pc)

theorem threadPc_modThread {f : Thread → Thread} (hf : ∀ th, (f th).pc = th.pc) (ck t n : Nat) (s : State) :
    threadPc (modThread ck t f s) ck n = threadPc s ck n := by
  rw [threadPc, thread_modThread]
  split
  · simp only [threadPc, Option.map_map, Function.comp_def, hf]
  · rfl

theorem threadPc_breakReserved (p : Nat × Nat) (n ck t : Nat) (s : State) : threadPc (breakReserved p n s) ck t = threadPc s ck t := by
  simp only [threadPc, thread, coreOf, breakReserved, modCores, Tbl.getD, find_mapAll]
  cases Tbl.find s.cores.cores ck with
  | none => rfl
  | some c =>
    simp only [Option.map_some, Option.getD_some, find_mapAll, Option.map_map, Function.comp_def]
    congr 1
    funext th
    split <;> rfl

theorem threadPc_writeAt (ck : Nat) (r : Region) (bs : List Byte) (k t : Nat) (s : State) : threadPc (writeAt ck r bs s) k t = threadPc s k t := by
  have h := threadPc_breakReserved (placeOf s ck r) bs.length k t s
  cases r <;> exact h

theorem threadPc_drainOne (ck t n : Nat) (s : State) : threadPc (drainOne ck t s) ck n = threadPc s ck n := by
  have hstores : threadPc (modThread ck t (fun th => { th with stores := th.stores.drop 1 }) s) ck n = threadPc s ck n :=
    threadPc_modThread (f := fun th => { th with stores := th.stores.drop 1 }) (fun _ => rfl) ck t n s
  unfold drainOne
  split
  · rfl
  · dsimp only
    split
    · exact hstores
    · rw [threadPc_writeAt, hstores]

theorem threadPc_drainAll (ck t n : Nat) (s : State) : threadPc (drainAll ck t s) ck n = threadPc s ck n := by
  unfold drainAll
  refine List.foldlRecOn (motive := fun u => threadPc u ck n = threadPc s ck n) _ _ rfl fun u hu _ _ => ?_
  rw [threadPc_drainOne, hu]

/-! The hawk instructions -/

theorem hawk_writeHawk (ck h v j : Nat) (s : State) :
    hawk (modCore ck (fun c => { c with hawk := vset c.hawk ⟨h % 64, Nat.mod_lt _ (by decide)⟩ (v % 2 ^ 64) }) s) ck j =
      if j % 64 = h % 64 then v % 2 ^ 64 else hawk s ck j := by
  simp only [hawk, coreOf_modCore_same, getElem_vset, Fin.mk.injEq]

section
variable {s : State} {cl : Cluster} {co : CoreIx} {t : ThreadIx} {th : Thread}
  (hth : thread s (coreNo cl co) t.val = some th) (hmay : mayIssue s (coreNo cl co) t.val = true)
include hth hmay

/-- A thread that may issue does so, its program counter to move on by 4. -/
theorem runXb_of_mayIssue (i : Xb) : runXb cl co t i s = xbExec (coreNo cl co) t.val (th.pc + 4) (xbWord i) i (issued (coreNo cl co) t.val s) := by
  simp only [runXb, hth, hmay, if_true]

end

section
variable {s : State} {ck t : Nat} {th : Thread} (hth : thread s ck t = some th)
include hth

theorem xHawk_of_none {new : Thread → Nat → Option Nat} (npc rd h : Nat) (hnew : new th (hawk s ck h) = none) :
    xHawk ck t npc rd h new (issued ck t s) = retireRd ck t npc rd (hawk s ck h) (issued ck t s) := by
  simp only [xHawk, thread_issued, hth, hawk_issued, hnew]

theorem xHawk_of_some {new : Thread → Nat → Option Nat} {v : Nat} (npc rd h : Nat) (hnew : new th (hawk s ck h) = some v) :
    xHawk ck t npc rd h new (issued ck t s) = retireRd ck t npc rd (hawk s ck h) (setHawk ck t h v (issued ck t s)) := by
  simp only [xHawk, thread_issued, hth, hawk_issued, hnew]

/-- A hawk instruction that writes no register: its thread alone moves on. -/
theorem hawkRead_effect (rd old : Nat) : let v := retireRd ck t (th.pc + 4) rd old (issued ck t s)
    thread v ck t = some (movedOn rd old th) ∧ (∀ j, hawk v ck j = hawk s ck j) ∧ (∀ n, n ≠ t → thread v ck n = thread s ck n) ∧
      (∀ k, k ≠ ck → coreOf v k = coreOf s k) ∧ v.cores.mems = s.cores.mems ∧ changesOnly [.cores, .counters] s v := by
  refine ⟨?_, fun j => ?_, fun n hn => ?_, fun k hk => ?_, rfl, ?_⟩
  · rw [thread_retireRd, if_pos rfl, thread_issued, hth]; rfl
  · rw [hawk_retireRd, hawk_issued]
  · rw [thread_retireRd, if_neg hn, thread_issued]
  · rw [coreOf_retireRd_other _ _ _ _ _ hk, coreOf_issued_other t s hk]
  · exact changesOnly_trans (changesOnly_mono (by decide) (modCore_frame ck _ s)) (retireRd_frame ck t (th.pc + 4) rd old (issued ck t s))

/-- A hawk instruction that writes a register does so once the earlier stores are drained. -/
theorem hawkWrite_effect (rd old new : Nat) (h : Fin 64) : let z := drainAll ck t (issued ck t s)
    let v := retireRd ck t (th.pc + 4) rd old (setHawk ck t h.val new (issued ck t s))
    thread v ck t = (thread z ck t).map (movedOn rd old) ∧ hawk v ck h.val = new % 2 ^ 64 ∧ (∀ j, j % 64 ≠ h.val → hawk v ck j = hawk z ck j) ∧
      (∀ n, n ≠ t → thread v ck n = thread z ck n) ∧ (∀ k, k ≠ ck → coreOf v k = coreOf z k) ∧ v.cores.mems = z.cores.mems ∧
      changesOnly [.cores, .counters] z v := by
  intro z v
  have hmod : h.val % 64 = h.val := Nat.mod_eq_of_lt h.isLt
  refine ⟨?_, ?_, fun j hj => ?_, fun n hn => ?_, fun k hk => ?_, rfl, ?_⟩
  · have hpc : threadPc z ck t = some th.pc := by
      rw [show threadPc z ck t = threadPc (issued ck t s) ck t from threadPc_drainAll ck t t _, threadPc, thread_issued, hth]; rfl
    rw [show thread v ck t = _ from thread_retireRd .., if_pos rfl, setHawk, thread_modCore ck t _ rfl]
    change Option.map _ (thread z ck t) = _
    obtain ⟨thz, hz, hpcz⟩ := Option.map_eq_some_iff.mp hpc
    rw [hz, Option.map_some, Option.map_some, retiredAt, movedOn, hpcz]
  · rw [show hawk v ck h.val = _ from hawk_retireRd .., setHawk, hawk_writeHawk, if_pos rfl]
  · rw [show hawk v ck j = _ from hawk_retireRd .., setHawk, hawk_writeHawk, if_neg (by rwa [hmod])]
  · rw [show thread v ck n = _ from thread_retireRd .., if_neg hn, setHawk, thread_modCore ck n _ rfl]
  · rw [show coreOf v k = _ from coreOf_retireRd_other _ _ _ _ _ hk, setHawk, coreOf_modCore_other _ _ hk]
  · exact changesOnly_trans (changesOnly_mono (by decide) (modCore_frame ck _ z)) (retireRd_frame ck t (th.pc + 4) rd old _)

end

/-- Settles O57: HRD and a failing HCAS read, the others write after the thread's stores. -/
theorem hawkInstructionsChangeOneRegister : Obligations.HawkInstructionsChangeOneRegister := by
  unfold Obligations.HawkInstructionsChangeOneRegister
  intro s cl co t th hth hmay rd h rs1 rs2 ck old z reads writes
  have hreads (i : Xb) (new : Thread → Nat → Option Nat)
      (hi : xbExec ck t.val (th.pc + 4) (xbWord i) i (issued ck t.val s) = xHawk ck t.val (th.pc + 4) rd.val h.val new (issued ck t.val s))
      (hnew : new th old = none) : reads (.next (runXb cl co t i s)) :=
    ⟨_, rfl, by rw [runXb_of_mayIssue hth hmay, hi, xHawk_of_none hth _ _ _ hnew]; exact hawkRead_effect hth rd.val old⟩
  have hwrites (i : Xb) (r v : Nat) (new : Thread → Nat → Option Nat)
      (hi : xbExec ck t.val (th.pc + 4) (xbWord i) i (issued ck t.val s) = xHawk ck t.val (th.pc + 4) r h.val new (issued ck t.val s))
      (hnew : new th old = some v) : writes r v (.next (runXb cl co t i s)) :=
    ⟨_, rfl, by rw [runXb_of_mayIssue hth hmay, hi, xHawk_of_some hth _ _ _ hnew]; exact hawkWrite_effect hth r old v h⟩
  exact ⟨hreads (.hrd rd.val h.val) (fun _ _ => none) rfl rfl,
    hwrites (.hwr h.val rs2.val) 0 _ (fun th _ => some (th.x rs2.val).toNat) rfl rfl,
    hwrites (.hswap rd.val h.val rs2.val) rd.val _ (fun th _ => some (th.x rs2.val).toNat) rfl rfl,
    hwrites (.hadd rd.val h.val rs2.val) rd.val _ (fun th old => some (old + (th.x rs2.val).toNat)) rfl rfl,
    fun heq => hwrites (.hcas rd.val h.val rs1.val rs2.val) rd.val _ (casNew rs1.val rs2.val) rfl (if_pos heq),
    fun hne => hreads (.hcas rd.val h.val rs1.val rs2.val) (casNew rs1.val rs2.val) rfl (if_neg hne)⟩

end Sys2Proof.Machine
end

section
/-! PROOF. The Xbtx instructions, one lemma for each way one can end (R366 to R382, R393), for O46. -/

namespace Sys2Proof.Machine
open Sys2Proof

theorem freeContext_issued (ck t : Nat) (s : State) : freeContext (issued ck t s) ck = freeContext s ck := by
  simp only [freeContext, thread_issued]

/-- The value HWR and HSWAP write. -/
def writeNew (rs2 : Nat) (th : Thread) (_ : Nat) : Option Nat := some (th.x rs2).toNat
/-- The value HADD writes. -/
def addNew (rs2 : Nat) (th : Thread) (old : Nat) : Option Nat := some (old + (th.x rs2).toNat)

/-! Each instruction in a state where its thread exists -/

section
variable {u : State} {ck t : Nat} {th : Thread} (hu : thread u ck t = some th) (npc rd rs1 rs2 : Nat)
include hu

theorem xTfork_of_free (det : Bool) {c : Nat} (hc : freeContext u ck = some c) :
    xTfork ck t npc det rd rs1 rs2 u = retireRd ck t npc rd c (countCore (ck / 16) 1 (modCore ck (fun k =>
      { k with threads := Tbl.put k.threads c { ((Thread.fresh (th.x rs1).toNat).setX 10 (th.x rs2).toNat).setX 11 t with detached := det, parent := t } }) u)) := by
  simp only [xTfork, hu, hc]

theorem xTfork_of_full (det : Bool) (hc : freeContext u ck = none) :
    xTfork ck t npc det rd rs1 rs2 u = retireRd ck t npc rd (2 ^ 64 - 1) (countCore (ck / 16) 2 u) := by
  simp only [xTfork, hu, hc]

/-- The child named is an undetached one of the thread that can still be joined (R370). -/
theorem xTjoin_of_child {c : Thread} (hlt : (th.x rs1).toNat < 16) (hne : (th.x rs1).toNat ≠ t) (hc : thread u ck (th.x rs1).toNat = some c)
    (hparent : c.parent = t) (hdet : c.detached = false) (hst : c.st ≠ .trapped) :
    xTjoin ck t npc rd rs1 u = settle ck t (modThread ck t (fun y => { y with st := .waiting, wait := some (.join rd (th.x rs1).toNat) }) (retire ck t npc u)) := by
  have hjoinable : (c.st.live || c.st == .zombie || c.st == .draining) = true := by
    cases h : c.st
    case trapped => exact absurd h hst
    all_goals rfl
  simp [xTjoin, hu, hlt, hc, hparent, hdet, hne, hjoinable]

theorem xTjoin_of_no_child (h : (th.x rs1).toNat = t ∨ 16 ≤ (th.x rs1).toNat ∨
      ∀ c, thread u ck (th.x rs1).toNat = some c → c.parent ≠ t ∨ c.detached = true ∨ c.st = .trapped) :
    xTjoin ck t npc rd rs1 u = trap ck t 5 (th.x rs1).toNat u := by
  have hnamed : ((th.x rs1).toNat < 16 && (thread u ck (th.x rs1).toNat).any fun c =>
      c.parent == t && !c.detached && (th.x rs1).toNat != t && (c.st.live || c.st == .zombie || c.st == .draining)) = false := by
    rcases h with h | h | h
    · simp [h]
    · simp [Nat.not_lt.mpr h]
    · cases hc : thread u ck (th.x rs1).toNat with
      | none => simp
      | some c => rcases h c hc with hp | hd | ht <;> simp [*, TState.live]
  simp only [xTjoin, hu, hnamed, Bool.false_eq_true, if_false]

theorem xTexit_eq : xTexit ck t npc rs1 u = exitThread ck t (th.x rs1).toNat (retire ck t npc u) := by
  simp only [xTexit, hu]

theorem xTsignal_of_live (h : threadLive u ck ((th.x rs1).toNat % 16) = true) :
    xTsignal ck t npc rd rs1 rs2 u = setEvents ck ((th.x rs1).toNat % 16) ((th.x rs2).toNat % 8192) (retireRd ck t npc rd 0 u) := by
  simp only [threadLive] at h
  simp only [xTsignal, hu, h, if_true]

theorem xTsignal_of_not_live (h : threadLive u ck ((th.x rs1).toNat % 16) = false) :
    xTsignal ck t npc rd rs1 rs2 u = retireRd ck t npc rd 1 (countCore (ck / 16) 3 u) := by
  simp only [threadLive] at h
  simp only [xTsignal, hu, h, Bool.false_eq_true, if_false]

theorem xTwait_of_mask (raw : Nat) (h : (th.x rs1).toNat % 65536 ≠ 0) :
    xTwait ck t npc raw rd rs1 u =
      settle ck t (modThread ck t (fun y => { y with st := .waiting, wait := some (.events rd ((th.x rs1).toNat % 65536)) }) (retire ck t npc u)) := by
  simp only [xTwait, hu, h, if_false]

theorem xTwait_of_no_mask (raw : Nat) (h : (th.x rs1).toNat % 65536 = 0) : xTwait ck t npc raw rd rs1 u = trap ck t 1 raw u := by
  simp only [xTwait, hu, h, if_true]

theorem xTtimer_of_lt (h : (th.x rs1).toNat < 2 ^ 32) :
    xTtimer ck t npc rs1 u = retire ck t npc (modThread ck t (fun y =>
      { y with timer := if (th.x rs1).toNat = 0 then none else some ((th.x rs1).toNat, u.now) }) u) := by
  simp only [xTtimer, hu, h, if_true]

/-- The spec gives no interval beyond 2^32 - 1 cycles, and a free one is taken (R375). -/
theorem xTtimer_of_le (h : 2 ^ 32 ≤ (th.x rs1).toNat) :
    xTtimer ck t npc rs1 u = retire ck t npc (modThread ck t (fun y => { y with timer := some (freshNat u, u.now) }) (drawn1 u)) := by
  have hpos : (th.x rs1).toNat ≠ 0 := by omega
  simp only [xTtimer, hu, Nat.not_lt.mpr h, hpos, if_false]

theorem xChcommit_of_no_grant (h : portGranted u ck (bitsAt (th.x rs1).toNat 0 4) = false) :
    xChcommit ck t npc rd rs1 u = retireRd ck t npc rd 2 (countCore (ck / 16) 6 u) := by
  simp only [xChcommit, hu, h, Bool.not_false, if_true]

theorem xChcommit_of_room (hgrant : portGranted u ck (bitsAt (th.x rs1).toNat 0 4) = true) (h1 : 1 ≤ bitsAt (th.x rs1).toNat 8 4)
    (h8 : bitsAt (th.x rs1).toNat 8 4 ≤ 8) (hout : th.outstanding < 4) (hroom : (portQueue u (ck / 16) (bitsAt (th.x rs1).toNat 0 4)).length < 64) :
    xChcommit ck t npc rd rs1 u = retireRd ck t npc rd 0 (countCore (ck / 16) 4 (modThread ck t (fun y => { y with asked := y.asked + 1 })
      (modCluster (ck / 16) (fun c => { c with ports := Tbl.put c.ports (bitsAt (th.x rs1).toNat 0 4) (Tbl.getD c.ports (bitsAt (th.x rs1).toNat 0 4) [] ++
        [{ core := ck, thread := t, words := th.staging.toList.take (bitsAt (th.x rs1).toNat 8 4) }]) }) (drainAll ck t u)))) := by
  have hlen : ¬ (bitsAt (th.x rs1).toNat 8 4 = 0 ∨ 8 < bitsAt (th.x rs1).toNat 8 4) := by omega
  simp only [xChcommit, hu, hgrant, hlen, Nat.not_le.mpr hout, Nat.not_le.mpr hroom, Bool.not_true, Bool.false_eq_true, if_false]

theorem xChrecv_of_empty (w : Nat) (pop : Bool) (h : th.inbox = []) : xChrecv ck t npc rd w pop u = retireRd ck t npc rd 0 u := by
  simp only [xChrecv, hu, h]

theorem xChrecv_pop (w : Nat) {r : List Nat} {rest : List (List Nat)} (h : th.inbox = r :: rest) :
    xChrecv ck t npc rd w true u = retireRd ck t npc rd (r.getD w 0) (modThread ck t (fun y => { y with inbox := rest }) u) := by
  simp only [xChrecv, hu, h, if_true]

theorem xChrecv_peek (w : Nat) {r : List Nat} {rest : List (List Nat)} (h : th.inbox = r :: rest) :
    xChrecv ck t npc rd w false u = retireRd ck t npc rd (r.getD w 0) u := by
  simp only [xChrecv, hu, h, Bool.false_eq_true, if_false]

end

/-- CHPUT takes the staging word from its thread, whichever instruction index below 8 it names (R379). -/
theorem xChput_eq (ck t npc rs2 : Nat) (w : Fin 8) (u : State) :
    xChput ck t npc w.val rs2 u = retire ck t npc (modThread ck t (fun y => { y with staging := vset y.staging w (y.x rs2).toNat }) u) := by
  have hw : (⟨w.val % 8, Nat.mod_lt _ (by decide)⟩ : Fin 8) = w := Fin.ext (Nat.mod_eq_of_lt w.isLt)
  simp only [xChput, hw]

/-! Threads that may not issue -/

theorem runXb_of_not_mayIssue {s : State} {cl : Cluster} {co : CoreIx} {t : ThreadIx} (h : mayIssue s (coreNo cl co) t.val = false) (i : Xb) :
    runXb cl co t i s = s := by
  simp only [runXb, h, Bool.false_eq_true, if_false]
  split <;> rfl

theorem execWdogKick_of_not_mayIssue {s : State} {cl : Cluster} {co : CoreIx} {t : ThreadIx} (h : mayIssue s (coreNo cl co) t.val = false) :
    execWdogKick cl co t s = .next s := by
  simp only [execWdogKick, h, Bool.false_eq_true, if_false]
  split <;> rfl

/-- Settles O46: each clause is the lemma of the way its instruction ends, in the state where the thread's issue slot is taken. -/
theorem threadInstructionsComplete : Obligations.ThreadInstructionsComplete := by
  unfold Obligations.ThreadInstructionsComplete
  refine fun s cl co t => ⟨fun th hth hmay => ?issues, fun hnot rd rs1 rs2 h w pop => ?waits⟩
  case issues =>
    intro ck u npc
    have hu : thread u ck t.val = some th := (thread_issued ck t.val t.val s).trans hth
    have hrow (i : Xb) : (.next (runXb cl co t i s) : Host.Outcome State Fault Refusal) = .next (xbExec ck t.val npc (xbWord i) i u) :=
      congrArg _ (runXb_of_mayIssue hth hmay i)
    have row (i : Xb) {v : State} (h : xbExec ck t.val npc (xbWord i) i u = v) : (.next (runXb cl co t i s) : Host.Outcome State Fault Refusal) = .next v :=
      (hrow i).trans (congrArg _ h)
    refine ⟨fun rd rs1 rs2 c hc det => ?fork, fun rd rs1 rs2 hc det => ?forkFull, fun rd rs1 c hlt hne hc hp hd hst => ?join, fun rd rs1 h => ?joinNone,
      fun rs1 => row (.texit rs1.val) (xTexit_eq hu npc rs1.val), fun rd rs1 rs2 h => ?signal, fun rd rs1 rs2 h => ?signalDead, fun rd rs1 h => ?wait,
      fun rd rs1 h => ?waitNone, fun rs1 h => row (.ttimer rs1.val) (xTtimer_of_lt hu npc rs1.val h),
      fun rs1 h => row (.ttimer rs1.val) (xTtimer_of_le hu npc rs1.val h), row .tyield rfl, ?kick, fun rd h => ?hrd, fun h rs2 => ?hwr, fun rd h rs2 => ?hswap,
      fun rd h rs2 => ?hadd, fun rd h rs1 rs2 heq => ?hcas, fun rd h rs1 rs2 hne => ?hcasFails,
      fun rs2 w => row (.chput w.val rs2.val) (xChput_eq ck t.val npc rs2.val w u),
      fun rd rs1 h => row (.chcommit rd.val rs1.val) (xChcommit_of_no_grant hu npc rd.val rs1.val h), fun rd rs1 => ?commit,
      fun rd w pop h => row (.chrecv rd.val w.val pop) (xChrecv_of_empty hu npc rd.val w.val pop h), fun rd w r rest h => ?recv⟩
    case fork =>
      have hc' : freeContext u ck = some c := (freeContext_issued ck t.val s).trans hc
      cases det
      · exact row (.tfork false rd.val rs1.val rs2.val) (xTfork_of_free hu npc rd.val rs1.val rs2.val false hc')
      · exact row (.tfork true rd.val rs1.val rs2.val) (xTfork_of_free hu npc rd.val rs1.val rs2.val true hc')
    case forkFull =>
      have hc' : freeContext u ck = none := (freeContext_issued ck t.val s).trans hc
      cases det
      · exact row (.tfork false rd.val rs1.val rs2.val) (xTfork_of_full hu npc rd.val rs1.val rs2.val false hc')
      · exact row (.tfork true rd.val rs1.val rs2.val) (xTfork_of_full hu npc rd.val rs1.val rs2.val true hc')
    case join =>
      exact row (.tjoin rd.val rs1.val) (xTjoin_of_child hu npc rd.val rs1.val hlt hne ((thread_issued ..).trans hc) hp hd hst)
    case joinNone =>
      exact row (.tjoin rd.val rs1.val) (xTjoin_of_no_child hu npc rd.val rs1.val (by rwa [thread_issued]))
    case signal => exact row (.tsignal rd.val rs1.val rs2.val) (xTsignal_of_live hu npc rd.val rs1.val rs2.val (by rwa [threadLive, thread_issued]))
    case signalDead => exact row (.tsignal rd.val rs1.val rs2.val) (xTsignal_of_not_live hu npc rd.val rs1.val rs2.val (by rwa [threadLive, thread_issued]))
    case wait => exact row (.twait rd.val rs1.val) (xTwait_of_mask hu npc rd.val rs1.val _ h)
    case waitNone => exact row (.twait rd.val rs1.val) (xTwait_of_no_mask hu npc rd.val rs1.val _ h)
    case kick =>
      change execWdogKick cl co t s = _
      simp only [execWdogKick, hth, hmay, if_true]
      rfl
    case hrd => exact row (.hrd rd.val h.val) (xHawk_of_none (new := fun _ _ => none) hth npc rd.val h.val rfl)
    case hwr => exact row (.hwr h.val rs2.val) (xHawk_of_some (new := writeNew rs2.val) hth npc 0 h.val rfl)
    case hswap => exact row (.hswap rd.val h.val rs2.val) (xHawk_of_some (new := writeNew rs2.val) hth npc rd.val h.val rfl)
    case hadd => exact row (.hadd rd.val h.val rs2.val) (xHawk_of_some (new := addNew rs2.val) hth npc rd.val h.val rfl)
    case hcas => exact row (.hcas rd.val h.val rs1.val rs2.val) (xHawk_of_some (new := casNew rs1.val rs2.val) hth npc rd.val h.val (if_pos heq))
    case hcasFails => exact row (.hcas rd.val h.val rs1.val rs2.val) (xHawk_of_none (new := casNew rs1.val rs2.val) hth npc rd.val h.val (if_neg hne))
    case commit =>
      intro port n hgrant h1 h8 hout hroom
      exact row (.chcommit rd.val rs1.val) (xChcommit_of_room hu npc rd.val rs1.val hgrant h1 h8 hout hroom)
    case recv =>
      exact ⟨row (.chrecv rd.val w.val true) (xChrecv_pop hu npc rd.val w.val h), row (.chrecv rd.val w.val false) (xChrecv_peek hu npc rd.val w.val h)⟩
  case waits =>
    have hrow (i : Xb) : (.next (runXb cl co t i s) : Host.Outcome State Fault Refusal) = .next s := congrArg _ (runXb_of_not_mayIssue hnot i)
    simp only [List.forall_mem_cons]
    exact ⟨hrow (.tfork false rd.val rs1.val rs2.val), hrow (.tfork true rd.val rs1.val rs2.val), hrow (.tjoin rd.val rs1.val), hrow (.texit rs1.val),
      hrow (.tsignal rd.val rs1.val rs2.val), hrow (.twait rd.val rs1.val), hrow (.ttimer rs1.val), hrow .tyield, execWdogKick_of_not_mayIssue hnot,
      hrow (.hrd rd.val h.val), hrow (.hwr h.val rs2.val), hrow (.hswap rd.val h.val rs2.val), hrow (.hadd rd.val h.val rs2.val),
      hrow (.hcas rd.val h.val rs1.val rs2.val), hrow (.chput w.val rs2.val), hrow (.chcommit rd.val rs1.val), hrow (.chrecv rd.val w.val pop), List.forall_mem_nil _⟩

end Sys2Proof.Machine
end

section
/-! PROOF. The events of the packet cores (R363, R364, R371, R375, R381, R382, R392, R393), for O47. -/

namespace Sys2Proof.Machine
open Sys2Proof

/-! Issue (R365, R371) -/

section
variable {s : State} {cl : Cluster} {co : CoreIx} {t : Nat} {th : Thread}

theorem execCoreInstruction_of_no_thread (h : nextThread s (coreNo cl co) = none) : execCoreInstruction cl co s = .next s := by
  simp only [execCoreInstruction, h]

theorem execCoreInstruction_of_lost (h : nextThread s (coreNo cl co) = some t) (hlost : isLost s 0x03 (coreNo cl co) = true) :
    execCoreInstruction cl co s = .next s := by
  simp only [execCoreInstruction, h, hlost, if_true]

theorem execCoreInstruction_of_step (h : nextThread s (coreNo cl co) = some t) (hlost : isLost s 0x03 (coreNo cl co) = false)
    (hhod : namesFreeHod s (coreNo cl co) t = false) : execCoreInstruction cl co s = .next (threadStep (coreNo cl co) t s) := by
  simp only [execCoreInstruction, h, hlost, hhod, Bool.false_eq_true, if_false]

theorem execCoreInstruction_of_free_hod (h : nextThread s (coreNo cl co) = some t) (hlost : isLost s 0x03 (coreNo cl co) = false)
    (hhod : namesFreeHod s (coreNo cl co) t = true) : execCoreInstruction cl co s = .refused (.undefinedCase 205) := by
  simp only [execCoreInstruction, h, hlost, hhod, Bool.false_eq_true, if_false, if_true]

theorem namesFreeHod_of_fetch_error {ck c : Nat} (hth : thread s ck t = some th) (hf : fetch s ck th = .error c) : namesFreeHod s ck t = false := by
  simp only [namesFreeHod, hth, hf]

theorem threadStep_of_fetch_error {ck c : Nat} (hth : thread s ck t = some th) (hf : fetch s ck th = .error c) :
    threadStep ck t s = trap ck t c th.pc (issued ck t s) := by
  simp only [threadStep, hth, hf]

theorem threadStep_of_decoded {ck i : Nat} {r : Rv} (hth : thread s ck t = some th) (hf : fetch s ck th = .ok i) (hd : decodeAny i = some r) :
    threadStep ck t s = rvExec ck t i (if isShort i then 2 else 4) r (issued ck t s) := by
  simp only [threadStep, hth, hf, hd]

end

/-! Timers and replies -/

section
variable {s : State} {cl : Cluster} {co : CoreIx} {t : ThreadIx} {th : Thread}

theorem execThreadTimerExpiry_of_armed (hth : thread s (coreNo cl co) t.val = some th) (h : th.timer.isSome = true) :
    execThreadTimerExpiry cl co t s =
      .next (setEvents (coreNo cl co) t.val 16384 (modThread (coreNo cl co) t.val (fun y => { y with timer := none }) s)) := by
  simp only [execThreadTimerExpiry, hth, Option.any_some, h, if_true]

theorem execThreadTimerExpiry_of_unarmed (h : ∀ th, thread s (coreNo cl co) t.val = some th → th.timer = none) :
    execThreadTimerExpiry cl co t s = .next s := by
  cases hth : thread s (coreNo cl co) t.val with
  | none => simp [execThreadTimerExpiry, hth]
  | some th => simp [execThreadTimerExpiry, hth, h th hth]

end

section
variable {s : State} {ck t k : Nat} {th : Thread} {r : List Nat}

theorem replyArrives_of_inbox (hth : thread s ck t = some th) (hr : th.coming[k]? = some r) (hst : th.st ≠ .draining) :
    replyArrives ck t k s = settle ck t (modThread ck t (fun y => { y with inbox := y.inbox ++ [r] })
      (modThread ck t (fun y => { y with coming := y.coming.eraseIdx k }) s)) := by
  simp only [replyArrives, hth, hr, hst, if_false]

theorem replyArrives_of_draining (hth : thread s ck t = some th) (hr : th.coming[k]? = some r) (hst : th.st = .draining) :
    replyArrives ck t k s = finishExit ck t (modThread ck t (fun y => { y with coming := y.coming.eraseIdx k }) s) := by
  simp only [replyArrives, hth, hr, hst, if_true]

theorem replyArrives_of_none (h : ∀ th, thread s ck t = some th → th.coming[k]? = none) : replyArrives ck t k s = s := by
  cases hth : thread s ck t with
  | none => simp only [replyArrives, hth]
  | some th => simp only [replyArrives, hth, h th hth]

end

/-! Deadlock and watchdog (R392, R393) -/

section
variable {s : State} {cl : Cluster} {co : CoreIx}

theorem execWaitDeadlock_of_quiet (h : deadlocked s (coreNo cl co) = false ∨ (coreOf s (coreNo cl co)).detected = true) :
    execWaitDeadlock cl co s = .next s := by
  rcases h with h | h <;> simp [execWaitDeadlock, h]

theorem execWaitDeadlock_of_deadlock {e : Nat × Thread} (hd : deadlocked s (coreNo cl co) = true) (hn : (coreOf s (coreNo cl co)).detected = false)
    (he : ((coreOf s (coreNo cl co)).threads.find? fun e => e.2.st == .waiting) = some e) :
    execWaitDeadlock cl co s = .next (trap (coreNo cl co) e.1 4 (waitMask s e.2) (countCore cl.val 11 (modThread (coreNo cl co) e.1
      (fun th => { th with pc := (th.pc + 2 ^ 64 - 4) % 2 ^ 64 }) (modCore (coreNo cl co) (fun c => { c with detected := true }) (drawn1 s))))) := by
  simp only [execWaitDeadlock, hd, hn, he, Bool.not_true, Bool.or_self, Bool.false_eq_true, if_false]

/-- The count of live threads that the watchdog reports is 0 where no thread is live. -/
theorem liveCount_eq_zero_iff (ck : Nat) : Tbl.countIf (coreOf s ck).threads (fun _ t => t.st.live) = 0 ↔ coreLive s ck = false := by
  simp [Tbl.countIf, Tbl.keepIf, coreLive]

theorem execWatchdog_of_idle (h : coreLive s (coreNo cl co) = false ∨ coreHalted s (coreNo cl co) = true ∨ (coreOf s (coreNo cl co)).wdogTimeout = 0) :
    execWatchdog cl co s = .next s := by
  rcases h with h | h | h
  · simp [execWatchdog, (liveCount_eq_zero_iff (coreNo cl co)).mpr h]
  · simp [execWatchdog, h]
  · simp [execWatchdog, h]

/-- The core once its watchdog has expired and told the owner. -/
def watchdogTold (cl : Cluster) (co : CoreIx) (s : State) : State :=
  modCore (coreNo cl co) (fun c => { c with wdogExpired := true, wdogFrom := s.now })
    (raiseOwner 0x61 (source 0x03 (coreNo cl co)) 0 [16 * coreNo cl co + (coreOf s (coreNo cl co)).wdogAction * 65536,
      Tbl.countIf (coreOf s (coreNo cl co)).threads fun _ t => t.st.live, min (coreOf s (coreNo cl co)).wdogTimeout 4000000] (countCore cl.val 12 s))

theorem execWatchdog_of_expired (hl : coreLive s (coreNo cl co) = true) (hh : coreHalted s (coreNo cl co) = false)
    (ht : (coreOf s (coreNo cl co)).wdogTimeout ≠ 0) :
    execWatchdog cl co s = .next (
      if (coreOf s (coreNo cl co)).wdogAction = 1 then (threadsOf s (coreNo cl co)).foldl (fun s t => haltThread (coreNo cl co) t s) (watchdogTold cl co s)
      else if (coreOf s (coreNo cl co)).wdogAction = 2 then (threadsOf s (coreNo cl co)).foldl (fun s t => killThread (coreNo cl co) t s) (watchdogTold cl co s)
      else watchdogTold cl co s) := by
  have hlive : (Tbl.countIf (coreOf s (coreNo cl co)).threads fun _ t => t.st.live) ≠ 0 := by
    rw [ne_eq, liveCount_eq_zero_iff, hl]; decide
  simp only [execWatchdog, hh, beq_eq_false_iff_ne.mpr hlive, beq_eq_false_iff_ne.mpr ht, Bool.or_self, Bool.false_eq_true, if_false, watchdogTold]

end

/-- Settles O47. -/
theorem coreEventsComplete : Obligations.CoreEventsComplete := by
  unfold Obligations.CoreEventsComplete
  intro s cl co ck
  refine ⟨execCoreInstruction_of_no_thread, fun t => execCoreInstruction_of_lost, fun t th c hn hl hth hf => ?fetchFails, fun t th i hn hl hth hf hd => ?undecoded,
    fun t th i r hn hl hth hf hd hhod => ?decoded, fun t => execCoreInstruction_of_free_hod, fun t bad => ⟨rfl, rfl⟩, fun t th => execThreadTimerExpiry_of_armed,
    fun t => execThreadTimerExpiry_of_unarmed, fun t th k r hth hr hst => congrArg _ (replyArrives_of_inbox hth hr hst),
    fun t th k r hth hr hst => congrArg _ (replyArrives_of_draining hth hr hst), fun t k h => congrArg _ (replyArrives_of_none h),
    fun e => execWaitDeadlock_of_deadlock, execWaitDeadlock_of_quiet, execWatchdog_of_idle, fun hl hh ht => ?expired⟩
  case fetchFails =>
    exact (execCoreInstruction_of_step hn hl (namesFreeHod_of_fetch_error hth hf)).trans (congrArg _ (threadStep_of_fetch_error hth hf))
  case undecoded => exact exec_coreInstruction_of_decodeAny_eq_none hn hl hth hf hd
  case decoded => exact (execCoreInstruction_of_step hn hl hhod).trans (congrArg _ (threadStep_of_decoded hth hf hd))
  case expired =>
    have h := execWatchdog_of_expired hl hh ht
    have hne (h2 : (coreOf s ck).wdogAction = 2) : ¬(coreOf s ck).wdogAction = 1 := fun h1 => absurd (h1.symm.trans h2) (by decide)
    exact ⟨fun h1 => h.trans (by rw [if_pos h1]; rfl), fun h2 => h.trans (by rw [if_neg (hne h2), if_pos h2]; rfl),
      fun h1 h2 => h.trans (by rw [if_neg h1, if_neg h2]; rfl)⟩

end Sys2Proof.Machine
end

section
/-! PROOF. How an accepted packet of one opcode is answered; the device and mode commands (R26 to R28, R33, R57, R73, R74), for O21. -/

namespace Sys2Proof.Machine
open Sys2Proof

/-! The three kinds of answers -/

section
variable {c : Instr} {d : CmdDef} {p : Packet} {s t : State}

theorem exec_reply (hc : packetOf c = some (d, p)) (h : accepts d p s = true) {ws : List Nat}
    (hact : d.act (namedBy p) p (onceTaken p s) = reply ws t) : exec c s = .next (replied p .ok ws t) := by
  rw [exec_accepted hc h, hact, answer_reply]

theorem exec_begun (hc : packetOf c = some (d, p)) (h : accepts d p s = true) {opcode total target : Nat} {kind : OpKind}
    (hact : d.act (namedBy p) p (onceTaken p s) = startOp opcode p kind total target t) :
    exec c s = .next (begun opcode p kind total target t) := by
  rw [exec_accepted hc h, hact, answer_startOp]

theorem exec_replyLong (hc : packetOf c = some (d, p)) (h : accepts d p s = true) {ws : List Nat}
    (hact : d.act (namedBy p) p (onceTaken p s) = replyLong ws t) (hfits : longFits p ws.length = true) :
    exec c s = .next (repliedLong p ws t) := by
  rw [exec_accepted hc h, hact, answer_long hfits]

/-- An answer with no long result and nothing after it. -/
theorem exec_short (hc : packetOf c = some (d, p)) (h : accepts d p s = true) {a : Answer} (hact : d.act (namedBy p) p (onceTaken p s) = a)
    (hlong : a.long = none) (hafter : a.after = id) : exec c s = .next (writeReply p a.status a.handle a.result [] false a.state) := by
  rw [exec_accepted hc h, hact, answer_short hlong, hafter, id]

end

/-- 4,064 bytes of a long result fit on the owner channel (R69). -/
theorem longFits_owner {p : Packet} (hc : p.chan = .owner) {n : Nat} (hn : n ≤ 1016) : longFits p n = true := by
  simp only [longFits, hc, if_true, decide_eq_true_eq]; omega

/-! The mode commands (R27, R74) -/

theorem modeTarget_eq (p : Packet) (t : State) : modeTarget p t = if p.bound then p.epochBind.toNat else t.epochs.epoch + 1 := by
  unfold modeTarget boundEpoch
  split <;> rfl

section
variable {p : Packet} {s : State}

theorem accepts_quiesce_mode (h : accepts quiesceDef p s = true) : s.glb.mode = .service ∨ s.glb.mode = .degraded := by
  have hmode := accepts_own h _ List.mem_cons_self
  exact Decidable.or_iff_not_imp_left.mpr (by simpa [onceTaken_glb] using hmode)

theorem accepts_resume_mode (h : accepts resumeDef p s = true) : s.glb.mode = .quiesce := by
  have hmode := accepts_own h _ List.mem_cons_self
  simpa using hmode

theorem accepts_maintain_mode (h : accepts maintainDef p s = true) : s.glb.mode = .quiesce ∧ s.glb.drainComplete = true := by
  have hmode := accepts_own h _ List.mem_cons_self
  simpa using hmode

theorem accepts_park_mode (h : accepts parkDef p s = true) : s.glb.mode = .quiesce ∨ s.glb.mode = .maintenance := by
  have hmode := accepts_own h _ List.mem_cons_self
  exact Decidable.or_iff_not_imp_left.mpr (by simpa using hmode)

/-- PARK without FORCE waits for the drain of QUIESCE (R28). -/
theorem accepts_park_drained (h : accepts parkDef p s = true) (hforce : p.force = false) (hq : s.glb.mode = .quiesce) : s.glb.drainComplete = true := by
  have hdrain := accepts_own h _ (List.mem_cons_of_mem _ List.mem_cons_self)
  simpa [hforce, hq] using hdrain

end

theorem modeOf_deviceReset (cause : Cause) (s : State) : modeOf (deviceReset cause s).glb = (.boot, none, cause, s.glb.modeSeq + 1) := rfl

theorem length_degWords_take (l : List DegEntry) : ((l.take 252).flatMap degWords).length ≤ 1008 := by
  have hlen : (l.take 252).length ≤ 252 := List.length_take_le 252 l
  have hsum : ((l.take 252).flatMap degWords).length = 4 * (l.take 252).length := by
    generalize l.take 252 = k
    induction k with
    | nil => rfl
    | cons e k ih => rw [List.flatMap_cons, List.length_append, ih, List.length_cons, show (degWords e).length = 4 from rfl]; omega
  omega

/-- Settles O21. -/
theorem deviceAndModeCommandsComplete : Obligations.DeviceAndModeCommandsComplete := by
  unfold Obligations.DeviceAndModeCommandsComplete
  refine fun p s => ⟨fun h => exec_reply rfl h rfl, fun h => exec_reply rfl h rfl, fun h => ⟨accepts_quiesce_mode h, ?quiesce⟩,
    fun h => ⟨accepts_resume_mode h, ?resume⟩, fun h => ⟨accepts_unbound h rfl, (accepts_maintain_mode h).1, (accepts_maintain_mode h).2, ?maintain⟩,
    fun h => ⟨accepts_park_mode h, accepts_park_drained h, exec_reply rfl h rfl⟩, fun h => ⟨accepts_owner h rfl rfl, exec_accepted rfl h, ?reset⟩,
    fun h => exec_reply rfl h rfl, fun h => ?degradation, fun h => exec_reply rfl h rfl⟩
  case quiesce =>
    have htarget := modeTarget_eq p (onceTaken p s)
    rw [onceTaken_epochs] at htarget
    exact htarget ▸ exec_begun rfl h rfl
  case resume =>
    have htarget := modeTarget_eq p (onceTaken p s)
    rw [onceTaken_epochs] at htarget
    exact htarget ▸ exec_begun rfl h rfl
  case maintain =>
    have htarget := modeTarget_eq p (onceTaken p s)
    rw [onceTaken_epochs, accepts_unbound h rfl, if_neg Bool.false_ne_true] at htarget
    exact htarget ▸ exec_begun rfl h rfl
  case reset => rw [modeOf_deviceReset, replied, writeReply_glb, onceTaken_glb]
  case degradation =>
    refine exec_replyLong rfl h rfl (longFits_owner (accepts_owner h rfl rfl) ?_)
    change ([_, _, _, _] ++ words64 _ ++ [_, 0] ++ ((onceTaken p s).degr.entries.take 252).flatMap degWords).length ≤ 1016
    have hlen := length_degWords_take (onceTaken p s).degr.entries
    simp only [List.length_append, words64, List.length_cons, List.length_nil]
    omega

end Sys2Proof.Machine
end

section
/-! PROOF. The recoat units after updates of several of them; the epoch, recoat and operation commands (R36, R43, R53, R54, R74, R76 to R79, R509), for O22. -/

namespace Sys2Proof.Machine
open Sys2Proof

/-! The units' recoat states -/

theorem unitAt_modUnit (i j : Fin 32) (f : UnitState → UnitState) (s : State) :
    unitAt (modUnit i f s) j = if j = i then f (unitAt s j) else unitAt s j := getElem_vmod _ _ _ _

theorem unitAt_of_epochs_eq {s t : State} (h : t.epochs = s.epochs) (i : Fin 32) : unitAt t i = unitAt s i := by rw [unitAt, unitAt, h]

/-- A run over distinct units that changes the unit it stands at and no other changes each of them once. -/
theorem unitAt_foldl {g : State → Fin 32 → State} {f : Fin 32 → UnitState → UnitState}
    (hg : ∀ s i j, unitAt (g s i) j = if j = i then f i (unitAt s j) else unitAt s j) (l : List (Fin 32)) (hl : l.Nodup) (s : State) (j : Fin 32) :
    unitAt (l.foldl g s) j = if j ∈ l then f j (unitAt s j) else unitAt s j := by
  induction l generalizing s with
  | nil => rfl
  | cons i l ih =>
    obtain ⟨hi, hl⟩ := List.nodup_cons.mp hl
    rw [List.foldl_cons, ih hl, hg]
    by_cases hji : j = i
    · subst hji; simp [hi]
    · simp [hji]

theorem mem_maskUnits (mask : Nat) (i : Fin 32) : i ∈ maskUnits mask ↔ bitAt mask i.val = true := by
  simp [maskUnits]

theorem nodup_maskUnits (mask : Nat) : (maskUnits mask).Nodup := (List.nodup_finRange 32).filter _

/-- A run of steps that leave a part of the state leaves it. -/
theorem foldl_eq_of_step {α β : Type} {g : State → α → State} {part : State → β} (hg : ∀ s a, part (g s a) = part s) (l : List α) (s : State) :
    part (l.foldl g s) = part s :=
  List.foldlRecOn (motive := fun u => part u = part s) l g rfl fun u hu a _ => (hg u a).trans hu

/-! RECOAT_ARM and RECOAT_DISARM (R45, R53, R509) -/

theorem unitAt_armUnit (target : Option Nat) (handle : Nat) (s : State) (i j : Fin 32) :
    unitAt (armUnit target handle i s) j =
      if j = i then { unitAt s j with phase := .armed, target := target, handle := some handle } else unitAt s j := unitAt_modUnit i j _ s

theorem armLost_epochs (handle : Option Nat) (i : Fin 32) (s : State) : (armLost handle i s).epochs = s.epochs :=
  changesOnly_epochs (L := [.out, .owner, .rings, .ops, .hosts, .fns])
    ((armLost_only handle i s (by decide) (by decide) (by decide) (by decide) (by decide) (by decide)).mpr (changesOnly_refl _ s)) (by decide)

section
variable {p : Packet} {s : State}

/-- The operation that RECOAT_ARM starts. -/
def armOp (p : Packet) (s : State) : LongOp := opFor 0x0112 p (.recoatArm ((maskUnits (p.w 0)).map (·.val))) 0 (onceTaken p s)

theorem recoatArm_state (o : Obj) (p : Packet) (s : State) : (recoatArmDef.act o p (onceTaken p s)).state = (maskUnits (p.w 0)).foldl
    (fun u i => armUnit (if p.bound then some p.epochBind.toNat else none) (armOp p s).handle i u)
    { drawn1 (onceTaken p s) with ops := (onceTaken p s).ops ++ [armOp p s] } := by
  simp only [recoatArmDef]
  cases p.bound <;> rfl

theorem recoatArm_completes (h : accepts recoatArmDef p s = true) :
    Completes (exec (.recoatArm p) s) fun t => t.ops = s.ops ++ [armOp p s] ∧ ∀ i : Fin 32, unitAt t i =
      if bitAt (p.w 0) i.val = true then
        { unitAt s i with phase := .armed, target := if p.bound then some p.epochBind.toNat else none, handle := some (armOp p s).handle }
      else unitAt s i := by
  refine ⟨_, exec_short rfl h rfl rfl rfl, ?ops, fun i => ?units⟩
  case ops =>
    rw [writeReply_ops, recoatArm_state,
      foldl_eq_of_step (part := State.ops) (g := fun u i => armUnit _ _ i u) (fun _ _ => rfl), onceTaken_ops]
  case units =>
    rw [unitAt_of_epochs_eq (writeReply_epochs ..), recoatArm_state,
      unitAt_foldl (f := fun _ u => { u with phase := .armed, target := _, handle := _ }) (unitAt_armUnit _ _) _ (nodup_maskUnits _),
      unitAt_of_epochs_eq (t := { drawn1 (onceTaken p s) with ops := _ }) (onceTaken_epochs p s)]
    simp only [mem_maskUnits]

/-- The units a RECOAT_DISARM disarms. -/
def disarmed (p : Packet) (s : State) : List (Fin 32) := (maskUnits (p.w 0)).filter fun i => (unitAt s i).phase == .armed

theorem recoatDisarm_completes (h : accepts recoatDisarmDef p s = true) :
    Completes (exec (.recoatDisarm p) s) fun t => ∀ i : Fin 32, unitAt t i =
      if bitAt (p.w 0) i.val = true ∧ (unitAt s i).phase = .armed then { unitAt s i with phase := .idle, target := none, handle := none } else unitAt s i := by
  refine ⟨_, exec_accepted rfl h, fun i => ?_⟩
  rw [answer_short rfl]
  have hnodup : (disarmed p (onceTaken p s)).Nodup := (nodup_maskUnits _).filter _
  have hmem : i ∈ disarmed p (onceTaken p s) ↔ bitAt (p.w 0) i.val = true ∧ (unitAt s i).phase = .armed := by
    rw [disarmed, List.mem_filter, mem_maskUnits, beq_iff_eq, unitAt_of_epochs_eq (s := s) (onceTaken_epochs p s)]
  refine (unitAt_foldl (g := fun u j => armLost ((unitAt (onceTaken p s) j).handle) j (modUnit j (fun x => { x with handle := none }) u))
    (f := fun _ x => { x with handle := none }) (fun u j k => ?_) (disarmed p (onceTaken p s)) hnodup _ i).trans ?_
  · rw [unitAt_of_epochs_eq (armLost_epochs ..), unitAt_modUnit]
  · have hstate := unitAt_foldl (g := fun u j => modUnit j (fun x => { x with phase := .idle, target := none }) u)
      (f := fun _ x => { x with phase := .idle, target := none }) (fun u j k => unitAt_modUnit j k _ u) (disarmed p (onceTaken p s)) hnodup (onceTaken p s) i
    rw [unitAt_of_epochs_eq (writeReply_epochs ..)]
    change (if i ∈ disarmed p (onceTaken p s) then { unitAt ((disarmed p (onceTaken p s)).foldl _ (onceTaken p s)) i with handle := none }
      else unitAt ((disarmed p (onceTaken p s)).foldl _ (onceTaken p s)) i) = _
    rw [hstate]
    simp only [hmem, unitAt_of_epochs_eq (s := s) (onceTaken_epochs p s)]
    split <;> rfl

end

/-! UNDERCOAT_RESET, EPOCH_SET_LENGTH, EPOCH_WAIT and the operation commands -/

section
variable {p : Packet} {s : State}

theorem undercoatReset_of_registers (h : accepts undercoatResetDef p s = true) (hb : (maskUnits (p.w 0)).filter isBank = []) :
    exec (.undercoatReset p) s = .next (replied p .ok [] ((maskUnits (p.w 0)).foldl (fun x i => reloadUnit i x) (onceTaken p s))) := by
  have hall : ((maskUnits (p.w 0)).filter fun i => !isBank i) = maskUnits (p.w 0) :=
    List.filter_eq_self.mpr fun i hi => by simpa using List.filter_eq_nil_iff.mp hb i hi
  exact exec_reply rfl h (by simp only [undercoatResetDef, hb, List.isEmpty_nil, if_true, hall])

theorem undercoatReset_of_banks (h : accepts undercoatResetDef p s = true) (hb : (maskUnits (p.w 0)).filter isBank ≠ []) :
    exec (.undercoatReset p) s = .next (begun 0x0114 p (.undercoatReset (((maskUnits (p.w 0)).filter isBank).map (·.val))) ((maskUnits (p.w 0)).filter isBank).length 0
      (((maskUnits (p.w 0)).filter isBank).foldl (fun x i => modUnit i (fun u => { u with copying := true }) x)
        (((maskUnits (p.w 0)).filter fun i => !isBank i).foldl (fun x i => reloadUnit i x) (onceTaken p s)))) :=
  exec_begun rfl h (by simp only [undercoatResetDef, List.isEmpty_iff, hb, if_false])

theorem accepts_epochSetLength (h : accepts epochSetLengthDef p s = true) : 125 ≤ p.d 0 ∧ p.d 0 ≤ 125000 := by
  have hlen := accepts_own h _ List.mem_cons_self
  simpa using hlen

theorem namedOp_onceTaken : namedOp p (onceTaken p s) = namedOp p s := by
  simp only [namedOp, findOp, onceTaken_ops]

theorem opQuery_of_named {o : LongOp} (h : accepts opQueryDef p s = true) (ho : namedOp p s = some o) :
    exec (.opQuery p) s = .next (replied p .ok [o.stepsDone, o.stepsTotal, o.opcode] (onceTaken p s)) :=
  exec_reply rfl h (by simp only [opQueryDef, namedOp_onceTaken, ho])

/-- OP_CANCEL replies before it ends the operation (R79). -/
theorem opCancel_of_named {o : LongOp} (h : accepts opCancelDef p s = true) (ho : namedOp p s = some o) :
    exec (.opCancel p) s = .next (opDone o .cancelled (partResult o) (letGo o (replied p .ok [] (onceTaken p s)))) := by
  rw [exec_accepted rfl h, answer_short rfl]
  simp only [opCancelDef, namedOp_onceTaken, ho]
  rfl

theorem epochWait_of_past (h : accepts epochWaitDef p s = true) (hle : p.d 0 ≤ s.epochs.epoch) :
    exec (.epochWait p) s = .next (replied p .ok [] (onceTaken p s)) :=
  exec_reply rfl h (by simp only [epochWaitDef, onceTaken_epochs, hle, if_true])

theorem epochWait_of_future (h : accepts epochWaitDef p s = true) (hlt : s.epochs.epoch < p.d 0) :
    exec (.epochWait p) s = .next (begun 0x0115 p (.epochWait (p.d 0)) 0 (p.d 0) (onceTaken p s)) :=
  exec_begun rfl h (by simp only [epochWaitDef, onceTaken_epochs, Nat.not_le.mpr hlt, if_false])

end

section
variable {handle : Word} {r : StepResult} {s : State}

theorem execLongOpStep_of_live {o : LongOp} (hfw : s.glb.fwRuns = true) (ho : findOp s handle.toNat = some o) :
    execLongOpStep handle r s = .next (opStep o r s) := by
  simp only [execLongOpStep, hfw, ho, Bool.not_true, Bool.false_eq_true, if_false]

theorem execLongOpStep_of_none (ho : findOp s handle.toNat = none) : execLongOpStep handle r s = .next s := by
  simp only [execLongOpStep, ho, ite_self]

end

/-- Settles O22. -/
theorem epochRecoatAndOperationCommandsComplete : Obligations.EpochRecoatAndOperationCommandsComplete := by
  unfold Obligations.EpochRecoatAndOperationCommandsComplete
  exact ⟨fun p s => ⟨fun h => exec_reply rfl h rfl, fun h => ⟨(accepts_epochSetLength h).1, (accepts_epochSetLength h).2, exec_reply rfl h rfl⟩,
      epochWait_of_past, epochWait_of_future, recoatArm_completes, recoatDisarm_completes, undercoatReset_of_registers, undercoatReset_of_banks,
      fun o => opQuery_of_named, fun o => opCancel_of_named⟩,
    fun handle r s o => execLongOpStep_of_live, fun handle r s => execLongOpStep_of_none⟩

end Sys2Proof.Machine
end

section
/-! PROOF. The commands of the quotas, the parser and the classifier (R52, R91, R138, R139, R158, R164, R165, R170, R510), for O23. -/

namespace Sys2Proof.Machine
open Sys2Proof

/-- The own check at a place of an accepted packet's list is not met. -/
theorem accepts_at {d : CmdDef} {p : Packet} {s : State} (h : accepts d p s = true) {c : Bool} {st : Status} {l r : List (Bool × Status)}
    (hd : d.checks (namedBy p) p (onceTaken p s) = l ++ (c, st) :: r) : c = false :=
  accepts_own h (c, st) (hd ▸ List.mem_append_right l List.mem_cons_self)

theorem accepts_vf {d : CmdDef} {p : Packet} {s : State} (h : accepts d p s = true) (hd : d.objs = Obj.isVf) : ∃ a v, namedBy p = .func a (.vf v) := by
  have hvf := hd ▸ accepts_objs h
  cases hn : namedBy p with
  | func a f => cases f <;> simp [hn, Obj.isVf] at hvf ⊢
  | _ => simp [hn, Obj.isVf] at hvf

theorem bitsAt_one_mod_two (n lo : Nat) : bitsAt n lo 1 % 2 = bitsAt n lo 1 := Nat.mod_eq_of_lt (bitsAt_lt n lo 1)

/-! The excess policers that PARSE_MALFORMED_SET writes (R139) -/

theorem pipeIx_eq_iff (dir k : Nat) (i : Pipe) (hk : k < 16) : i = pipeIx dir k ↔ i.val / 16 = dir % 2 ∧ i.val % 16 = k := by
  rw [Fin.ext_iff, pipeIx]
  change i.val = 16 * (dir % 2) + k % 16 ↔ _
  omega

theorem getElem_policers_foldl (chosen : Nat → Bool) (dir w : Nat) (i : Pipe) (l : List Nat) (hl : ∀ k ∈ l, k < 16) (b : ParseBank) :
    (l.foldl (fun b k => if chosen k then { b with policers := vset b.policers (pipeIx dir k) w } else b) b).policers[i] =
      if i.val / 16 = dir % 2 ∧ i.val % 16 ∈ l ∧ chosen (i.val % 16) = true then w else b.policers[i] := by
  induction l generalizing b with
  | nil => simp
  | cons k l ih =>
    have hi := pipeIx_eq_iff dir k i (hl k List.mem_cons_self)
    rw [List.foldl_cons, ih fun j hj => hl j (List.mem_cons_of_mem _ hj)]
    cases hk : chosen k with
    | false => grind
    | true => simp only [if_true, getElem_vset]; grind

theorem actions_policers_foldl (chosen : Nat → Bool) (dir w : Nat) (l : List Nat) (b : ParseBank) :
    (l.foldl (fun b k => if chosen k then { b with policers := vset b.policers (pipeIx dir k) w } else b) b).actions = b.actions := by
  induction l generalizing b with
  | nil => rfl
  | cons k l ih => rw [List.foldl_cons, ih]; split <;> rfl

/-- What PARSE_MALFORMED_SET makes of the undercoat of PARSE (R158). -/
def malformedSet (p : Packet) (b : ParseBank) : ParseBank :=
  let b1 := if p.f 0 8 4 = 0 then b else { b with actions := vmod b.actions (dirIx (p.f 0 0 1)) fun w => putAction w (p.f 0 8 4) (p.f 0 16 2) }
  if p.b 0 24 then
    (upFrom 0 16).foldl (fun b k => if p.b 1 k then { b with policers := vset b.policers (pipeIx (p.f 0 0 1) k) (p.w 3 * 2 ^ 19 + p.w 2) } else b) b1
  else b1

theorem malformedSet_actions (p : Packet) (b : ParseBank) : (malformedSet p b).actions =
    if p.f 0 8 4 = 0 then b.actions else vmod b.actions (dirIx (p.f 0 0 1)) fun w => putAction w (p.f 0 8 4) (p.f 0 16 2) := by
  unfold malformedSet
  simp only [apply_ite ParseBank.actions, actions_policers_foldl, ite_self]

theorem getElem_malformedSet_policers (p : Packet) (b : ParseBank) (i : Pipe) : (malformedSet p b).policers[i] =
    if p.b 0 24 = true ∧ i.val / 16 = p.f 0 0 1 ∧ p.b 1 (i.val % 16) = true then p.w 3 * 2 ^ 19 + p.w 2 else b.policers[i] := by
  have hmem : i.val % 16 ∈ upFrom 0 16 := (mem_upFrom ..).mpr ⟨Nat.zero_le _, Nat.mod_lt _ (by decide)⟩
  have hdir : p.f 0 0 1 % 2 = p.f 0 0 1 := bitsAt_one_mod_two ..
  unfold malformedSet
  cases hp : p.b 0 24 with
  | false =>
    simp only [Bool.false_eq_true, false_and, if_false]
    split <;> rfl
  | true =>
    simp only [if_true, getElem_policers_foldl (p.b 1) (p.f 0 0 1) (p.w 3 * 2 ^ 19 + p.w 2) i (upFrom 0 16) fun k hk => ((mem_upFrom 0 16 k).mp hk).2, hmem, hdir, true_and]
    split
    · rfl
    · split <;> rfl

theorem exec_parseMalformedSet {p : Packet} {s : State} (h : accepts parseMalformedSetDef p s = true) :
    exec (.parseMalformedSet p) s = .next (replied p .ok [] (modParse (malformedSet p) (onceTaken p s))) := exec_reply rfl h rfl

section
variable {p : Packet} {s : State}

theorem accepts_hostVfLimit_sum (h : accepts hostVfLimitDef p s = true) : p.f 0 0 10 + p.f 0 16 10 ≤ 512 := by
  have hsum := accepts_at (l := []) h rfl
  simp only [Bool.or_eq_false_iff, decide_eq_false_iff_not, Nat.not_lt] at hsum
  exact hsum.2

theorem accepts_parseNodeWrite_node (h : accepts parseNodeWriteDef p s = true) : badNode ((p.params.drop 2).map (·.toNat)) = false :=
  (Bool.or_eq_false_iff.mp (accepts_at (l := []) h rfl)).2

theorem accepts_classRuleWrite_key (h : accepts classRuleWriteDef p s = true) : ruleKey p &&& ruleMask p = ruleKey p :=
  bne_eq_false_iff_eq.mp (accepts_at (l := [_]) h rfl)

theorem accepts_classProfileSet_record (h : accepts classProfileSetDef p s = true) : badProfile ((upFrom 2 16).map p.w) = false :=
  (Bool.or_eq_false_iff.mp (accepts_at (l := []) h rfl)).2

theorem accepts_classActionWrite_record (h : accepts classActionWriteDef p s = true) : badAction ((upFrom 2 4).map p.w) = false :=
  (Bool.or_eq_false_iff.mp (accepts_at (l := []) h rfl)).2

end

/-- Settles O23. -/
theorem quotaParseAndClassifyCommandsComplete : Obligations.QuotaParseAndClassifyCommandsComplete := by
  unfold Obligations.QuotaParseAndClassifyCommandsComplete
  refine fun p s => ⟨fun h => exec_reply rfl h rfl, fun h => exec_replyLong rfl h rfl, fun h => ?vfQuota, fun h => ?defaults, fun h => exec_begun rfl h rfl,
    fun h => exec_accepted rfl h, fun h => ?vfLimit, fun h => ⟨accepts_parseNodeWrite_node h, exec_reply rfl h rfl⟩, fun h => exec_replyLong rfl h rfl,
    fun h => ⟨_, exec_parseMalformedSet h, ?malformed⟩, fun h => ⟨accepts_classRuleWrite_key h, exec_reply rfl h rfl⟩, fun h => exec_replyLong rfl h rfl,
    fun h => ⟨accepts_classProfileSet_record h, exec_reply rfl h rfl⟩, fun h => ⟨accepts_classActionWrite_record h, exec_reply rfl h rfl⟩⟩
  case vfQuota =>
    obtain ⟨a, v, hvf⟩ := accepts_vf h rfl
    exact ⟨a, v, hvf, exec_reply rfl h (by rw [hvf]; rfl)⟩
  case defaults =>
    obtain ⟨a, ha⟩ := accepts_host h rfl
    exact ⟨a, ha, exec_reply rfl h (by rw [ha]; rfl)⟩
  case malformed =>
    simp only [replied, writeReply_parse, modParse, onceTaken_parse]
    exact ⟨malformedSet_actions p _, getElem_malformedSet_policers p _, trivial⟩
  case vfLimit =>
    obtain ⟨a, ha⟩ := accepts_host h rfl
    exact ⟨a, ha, accepts_hostVfLimit_sum h, exec_reply rfl h (by rw [ha]; rfl)⟩

end Sys2Proof.Machine
end

section
/-! PROOF. The commands of the exact-match table and of the route tables (R175 to R178, R182 to R184, R187), for O24. -/

namespace Sys2Proof.Machine
open Sys2Proof

/-! What an operation on a table found where its status is OK -/

theorem emInsert_of_ok {key : Nat} {action : List Nat} {t : State} (h : (emInsert key action t).1 = .ok) :
    emFind t.tables.em key = none ∧ ∃ l b, emFree t.tables.em key = some (l, b) ∧
      emInsert key action t = (.ok, emResult l b, modEm (emPut l ⟨key, action, b⟩) t) := by
  unfold emInsert at h ⊢
  cases hfind : emFind t.tables.em key with
  | some l => simp [hfind] at h
  | none =>
    cases hfree : emFree t.tables.em key with
    | some lb => exact ⟨rfl, lb.1, lb.2, rfl, by simp [hfind, hfree]⟩
    | none =>
      simp only [hfind, hfree, Option.isSome_none, Bool.false_eq_true, if_false] at h
      split at h <;> cases h

theorem emUpdate_of_ok {key : Nat} {action : List Nat} {t : State} (h : (emUpdate key action t).1 = .ok) :
    ∃ l x, emFind t.tables.em key = some l ∧ emAt t.tables.em l = some x ∧
      emUpdate key action t = (.ok, emResult l x.seedB, modEm (emPut l { x with action := action }) t) := by
  unfold emUpdate at h ⊢
  cases hfind : emFind t.tables.em key with
  | none => simp [hfind] at h
  | some l => cases hat : emAt t.tables.em l with
    | none => simp [hfind, hat] at h
    | some x => exact ⟨l, x, rfl, hat, by simp [hat]⟩

theorem emDelete_of_ok {key : Nat} {t : State} (h : (emDelete key t).1 = .ok) :
    ∃ l, emFind t.tables.em key = some l ∧ emDelete key t = (.ok, [], modEm (emDrop l) t) := by
  unfold emDelete at h ⊢
  cases hfind : emFind t.tables.em key with
  | none => simp [hfind] at h
  | some l => exact ⟨l, rfl, rfl⟩

theorem emLookup_of_ok {key : Nat} {t : State} (h : (emLookup key t).1 = .ok) :
    ∃ l x, emFind t.tables.em key = some l ∧ emAt t.tables.em l = some x ∧
      emLookup key t = (.ok, emWords t.tables.em l x ++ emResult l x.seedB, t) := by
  unfold emLookup at h ⊢
  cases hfind : emFind t.tables.em key with
  | none => simp [hfind] at h
  | some l => cases hat : emAt t.tables.em l with
    | none => simp [hfind, hat] at h
    | some x => exact ⟨l, x, rfl, hat, by simp [hat]⟩

theorem length_emWords (e : Em) (l : EmLoc) (x : EmEntry) : (emWords e l x ++ emResult l x.seedB).length = 18 := rfl

/-- The status a table command checks last is OK where the packet is accepted (R71). -/
theorem accepts_opRefusal {d : CmdDef} {p : Packet} {s : State} (h : accepts d p s = true) {l : List (Bool × Status)} {r : Status × List Nat × State}
    (hd : d.checks (namedBy p) p (onceTaken p s) = l ++ opRefusal r) : r.1 = .ok :=
  bne_eq_false_iff_eq.mp (accepts_at h hd)

section
variable {p : Packet} {s : State}

theorem exec_emInsert (h : accepts emInsertDef p s = true) : emFind s.tables.em (Packet_key p) = none ∧ ∃ l b, emFree s.tables.em (Packet_key p) = some (l, b) ∧
    exec (.emInsert p) s = .next (replied p .ok (emResult l b) (modEm (emPut l ⟨Packet_key p, (upFrom 12 4).map p.w, b⟩) (onceTaken p s))) := by
  obtain ⟨hnone, l, b, hfree, heq⟩ := emInsert_of_ok (accepts_opRefusal h rfl)
  rw [onceTaken_tables] at hnone hfree
  exact ⟨hnone, l, b, hfree, exec_reply rfl h (by change reply (emInsert ..).2.1 (emInsert ..).2.2 = _; rw [heq])⟩

theorem exec_emUpdate (h : accepts emUpdateDef p s = true) : ∃ l x, emFind s.tables.em (Packet_key p) = some l ∧ emAt s.tables.em l = some x ∧
    exec (.emUpdate p) s = .next (replied p .ok (emResult l x.seedB) (modEm (emPut l { x with action := (upFrom 12 4).map p.w }) (onceTaken p s))) := by
  obtain ⟨l, x, hfind, hat, heq⟩ := emUpdate_of_ok (accepts_opRefusal h rfl)
  rw [onceTaken_tables] at hfind hat
  exact ⟨l, x, hfind, hat, exec_reply rfl h (by change reply (emUpdate ..).2.1 (emUpdate ..).2.2 = _; rw [heq])⟩

theorem exec_emDelete (h : accepts emDeleteDef p s = true) : ∃ l, emFind s.tables.em (Packet_key p) = some l ∧
    exec (.emDelete p) s = .next (replied p .ok [] (modEm (emDrop l) (onceTaken p s))) := by
  obtain ⟨l, hfind, heq⟩ := emDelete_of_ok (accepts_opRefusal (l := []) h rfl)
  rw [onceTaken_tables] at hfind
  exact ⟨l, hfind, exec_reply rfl h (by change reply [] (emDelete ..).2.2 = _; rw [heq])⟩

theorem exec_emLookup (h : accepts emLookupDef p s = true) (hfits : longFits p 18 = true) :
    ∃ l x, emFind s.tables.em (Packet_key p) = some l ∧ emAt s.tables.em l = some x ∧
      exec (.emLookup p) s = .next (repliedLong p (emWords s.tables.em l x ++ emResult l x.seedB) (onceTaken p s)) := by
  obtain ⟨l, x, hfind, hat, heq⟩ := emLookup_of_ok (accepts_opRefusal (l := []) h rfl)
  rw [onceTaken_tables] at hfind hat heq
  exact ⟨l, x, hfind, hat, exec_replyLong rfl h (by change replyLong (emLookup ..).2.1 _ = _; rw [heq]) (length_emWords .. ▸ hfits)⟩

/-! EM_REHASH (R176, R177) -/

/-- The seed a rehash takes: the packet's, or a random one for 0. -/
def rehashSeed (p : Packet) (t : State) : Nat := if p.d 0 = 0 then freshNat t % 2 ^ 64 else p.d 0

/-- The exact-match table as a rehash starts: DUAL, and unless it resumes, under a new seed in the idle register. -/
def rehashed (resume : Bool) (seed : Nat) (e : Em) : Em :=
  { (if resume then e else if e.newB then { e with seedA := seed, newB := false } else { e with seedB := seed, newB := true }) with mode := 1, moved := 0, stranded := 0 }

theorem rehashed_eq (resume : Bool) (seed : Nat) (e : Em) : rehashed resume seed e =
    { e with mode := 1, moved := 0, stranded := 0, newB := if resume then e.newB else !e.newB
             seedA := if !resume && e.newB then seed else e.seedA, seedB := if !resume && !e.newB then seed else e.seedB } := by
  unfold rehashed
  cases resume with
  | true => rfl
  | false => cases hb : e.newB <;> rfl

theorem rehashSeed_onceTaken : rehashSeed p (onceTaken p s) = if p.d 0 = 0 then freshNat s % 2 ^ 64 else p.d 0 := by
  rw [rehashSeed, freshNat, onceTaken_drawn, freshNat]

theorem exec_emRehash (h : accepts emRehashDef p s = true) : exec (.emRehash p) s = .next (begun 0x0404 p (.emRehash (rehashSeed p (onceTaken p s))) 1040 0
    (modEm (fun _ => rehashed (p.b 2 0) (rehashSeed p (onceTaken p s)) (onceTaken p s).tables.em) (drawn1 (onceTaken p s)))) := exec_begun rfl h rfl

/-! The route tables -/

theorem accepts_lpmLeafPush_length (h : accepts lpmLeafPushDef p s = true) :
    ∃ n, fourthLen (p.b 0 0) (lpmOf s (p.b 0 0)) (p.w 1) = some n ∧ blockBits (p.b 0 0) < n := by
  have hlen := accepts_at (l := [_]) h rfl
  rw [show lpmOf (onceTaken p s) (p.b 0 0) = lpmOf s (p.b 0 0) by rw [lpmOf, onceTaken_tables, lpmOf]] at hlen
  cases hfour : fourthLen (p.b 0 0) (lpmOf s (p.b 0 0)) (p.w 1) with
  | none => simp [hfour] at hlen
  | some n => exact ⟨n, rfl, by simpa [hfour] using hlen⟩

theorem exec_lpmAdd (h : accepts lpmAddDef p s = true) : (lpmAdd (p.b 0 0) p.force (prefixOf p) (p.f 0 8 8) (p.w 1) (onceTaken p s)).1 = .ok ∧
    exec (.lpmAdd p) s = .next (replied p .ok [] (lpmAdd (p.b 0 0) p.force (prefixOf p) (p.f 0 8 8) (p.w 1) (onceTaken p s)).2.2) :=
  ⟨accepts_opRefusal h rfl, exec_reply rfl h rfl⟩

theorem exec_lpmDelete (h : accepts lpmDeleteDef p s = true) : (lpmDelete (p.b 0 0) (prefixOf p) (p.f 0 8 8) (onceTaken p s)).1 = .ok ∧
    exec (.lpmDelete p) s = .next (replied p .ok [] (lpmDelete (p.b 0 0) (prefixOf p) (p.f 0 8 8) (onceTaken p s)).2.2) :=
  ⟨accepts_opRefusal h rfl, exec_reply rfl h rfl⟩

theorem length_lpmLookup {v6 : Bool} {a : Nat} {t : State} (h : (lpmLookup v6 a t).1 = .ok) : (lpmLookup v6 a t).2.1.length = 4 := by
  unfold lpmLookup at h ⊢
  revert h
  dsimp only
  split <;> simp

theorem exec_lpmLookup (h : accepts lpmLookupDef p s = true) (hfits : longFits p 4 = true) : (lpmLookup (p.b 0 0) (prefixOf p) (onceTaken p s)).1 = .ok ∧
    exec (.lpmLookup p) s = .next (repliedLong p (lpmLookup (p.b 0 0) (prefixOf p) (onceTaken p s)).2.1 (onceTaken p s)) := by
  have hok := accepts_opRefusal h rfl
  exact ⟨hok, exec_replyLong rfl h rfl (length_lpmLookup hok ▸ hfits)⟩

/-! TABLE_STATS (R187) -/

theorem exec_tableStats_em (h : accepts tableStatsDef p s = true) (hw : p.w 0 = 0) (hfits : longFits p 9 = true) :
    exec (.tableStats p) s = .next (let e := s.tables.em
      repliedLong p ([emStatusWord e, emOverflowWord e, e.stranded, 1048576 - (emBucketFill e).length] ++ ((upFrom 1 4).map fun k => Tbl.countIf (emBucketFill e) fun _ n => n == k) ++ [emSpillCount e]) (onceTaken p s)) :=
  exec_replyLong rfl h (by rw [← onceTaken_tables p s]; exact if_pos hw) hfits

theorem exec_tableStats_v4 (h : accepts tableStatsDef p s = true) (hw : p.w 0 = 1) (hfits : longFits p 4 = true) :
    exec (.tableStats p) s = .next (let t := s.tables.lpm4
      repliedLong p [t.routes.length, (t.routes.filter (·.pushed)).length, spillUsed t, longBlocks false t] (onceTaken p s)) := by
  refine exec_replyLong rfl h ?_ hfits
  rw [← onceTaken_tables p s]
  simp [tableStatsDef, hw, lpmOf]

theorem exec_tableStats_v6 (h : accepts tableStatsDef p s = true) (hw : p.w 0 = 2) (hfits : longFits p 5 = true) :
    exec (.tableStats p) s = .next (let t := s.tables.lpm6
      repliedLong p [t.routes.length, (t.routes.filter (·.pushed)).length, spillUsed t, longBlocks true t, lpm6SetsWord t] (onceTaken p s)) := by
  refine exec_replyLong rfl h ?_ hfits
  rw [← onceTaken_tables p s]
  simp [tableStatsDef, hw, lpmOf]

end

/-- Settles O24. -/
theorem tableCommandsComplete : Obligations.TableCommandsComplete := by
  unfold Obligations.TableCommandsComplete
  refine fun p s => ⟨exec_emInsert, exec_emUpdate, exec_emDelete, exec_emLookup, fun h => ⟨_, exec_emRehash h, ?rehash⟩, exec_lpmAdd, exec_lpmDelete,
    exec_lpmLookup, fun h => ⟨accepts_lpmLeafPush_length h, exec_begun rfl h rfl⟩, exec_tableStats_em, exec_tableStats_v4, exec_tableStats_v6⟩
  simp only [rehashSeed_onceTaken, rehashed_eq, begun, repliedHandle, writeReply_tables, writeReply_ops, modEm, modTables, drawn1, onceTaken_tables]
  exact ⟨trivial, congrArg (· ++ _) (onceTaken_ops p s)⟩

end Sys2Proof.Machine
end

section
/-! PROOF. The commands of the scheduler, the spreaders and the queues (R97, R196, R197, R199, R232, R233, R511), for O25. -/

namespace Sys2Proof.Machine
open Sys2Proof

theorem spread_spreadUnder (h : HostId) (g : SpreadUnit → SpreadUnit) (t : State) :
    ((spreadUnder h g t).net.units[h]).spread = { (t.net.units[h]).spread with under := g (t.net.units[h]).spread.under } := by
  simp only [spreadUnder, modUnits, getElem_vmod, if_true]

theorem queue_onceTaken (p : Packet) (s : State) (h : HostId) (f : Fn) (q : Nat) : queue (onceTaken p s) h f q = queue s h f q := by
  rw [queue, onceTaken_queues, queue]

/-! The undercoat of SPREAD (R196, R197) -/

/-- What SPREAD_SET makes of the undercoat of a SPREAD unit. -/
def spreadSetUnder (p : Packet) (u : SpreadUnit) : SpreadUnit :=
  let u1 := if p.b 0 0 then { u with key := slice p.bytes 0x18 52 } else u
  let u2 := if p.b 0 1 then { u1 with sels := Tbl.put u1.sels (p.f 0 8 3) (spreadSrcs p) } else u1
  if p.b 0 2 then { u2 with alertShare := p.f 0 24 8 } else u2

theorem spreadSetUnder_eq (p : Packet) (u : SpreadUnit) : spreadSetUnder p u =
    { u with key := if p.b 0 0 then slice p.bytes 0x18 52 else u.key
             sels := if p.b 0 1 then Tbl.put u.sels (p.f 0 8 3) (spreadSrcs p) else u.sels
             alertShare := if p.b 0 2 then p.f 0 24 8 else u.alertShare } := by
  unfold spreadSetUnder
  cases p.b 0 0 <;> cases p.b 0 1 <;> cases p.b 0 2 <;> rfl

/-- The table INDIRECTION_SET writes to, before its entries: the one that stands where its size is kept. -/
def indirectionBase (p : Packet) (epoch : Nat) (u : SpreadUnit) : IndTable :=
  match Tbl.find u.tables (p.f 0 0 6) with
  | none => { log2 := p.f 0 8 4, sel := p.f 0 12 3, gen := epoch + 1, entries := [] }
  | some t => if t.log2 = p.f 0 8 4 then { t with sel := p.f 0 12 3 } else { log2 := p.f 0 8 4, sel := p.f 0 12 3, gen := t.gen + 1, entries := [] }

theorem indirectionBase_log2 (p : Packet) (epoch : Nat) (u : SpreadUnit) : (indirectionBase p epoch u).log2 = p.f 0 8 4 := by
  unfold indirectionBase
  split
  · rfl
  · split
    · assumption
    · rfl

theorem indirectionBase_sel (p : Packet) (epoch : Nat) (u : SpreadUnit) : (indirectionBase p epoch u).sel = p.f 0 12 3 := by
  unfold indirectionBase
  split
  · rfl
  · split <;> rfl

theorem indirectionBase_entries (p : Packet) (epoch : Nat) (u : SpreadUnit) : (indirectionBase p epoch u).entries =
    ((((Tbl.find u.tables (p.f 0 0 6)).filter (·.log2 == p.f 0 8 4)).map (·.entries)).getD []) := by
  unfold indirectionBase
  cases Tbl.find u.tables (p.f 0 0 6) with
  | none => rfl
  | some t => by_cases hlog : t.log2 = p.f 0 8 4 <;> simp [Option.filter, hlog]

/-- The entries INDIRECTION_SET leaves in the table. -/
def indirectionEntries (p : Packet) (es : Tbl Nat) : Tbl Nat := (upFrom 0 (p.f 1 16 12)).foldl
  (fun es i => if bitAt (indEntry p i) 15 then Tbl.put es (p.f 1 0 12 + i) (bitsAt (indEntry p i) 0 14) else Tbl.del es (p.f 1 0 12 + i)) es

/-- What INDIRECTION_SET makes of the undercoat of a SPREAD unit. -/
def indirectionUnder (p : Packet) (epoch : Nat) (u : SpreadUnit) : SpreadUnit :=
  if p.f 0 8 4 = 0 then { u with tables := Tbl.del u.tables (p.f 0 0 6) }
  else { u with tables := Tbl.put u.tables (p.f 0 0 6) { indirectionBase p epoch u with entries := indirectionEntries p (indirectionBase p epoch u).entries } }

section
variable {p : Packet} {s : State}

theorem accepts_hostShareSet_sum (h : accepts hostShareSetDef p s = true) : (shareWeights p).foldl (· + ·) 0 + p.f 1 0 10 ≤ 1000 :=
  Nat.le_of_not_lt (of_decide_eq_false (accepts_at (l := [_]) h rfl))

theorem exec_spreadSet (h : accepts spreadSetDef p s = true) {a : HostId} (ha : namedBy p = .host a) :
    exec (.spreadSet p) s = .next (replied p .ok [] (spreadUnder a (spreadSetUnder p) (onceTaken p s))) :=
  exec_reply rfl h (by rw [ha]; rfl)

theorem exec_indirectionSet (h : accepts indirectionSetDef p s = true) {a : HostId} (ha : namedBy p = .host a) :
    exec (.indirectionSet p) s = .next (replied p .ok [] (spreadUnder a (indirectionUnder p (onceTaken p s).epochs.epoch) (onceTaken p s))) :=
  exec_reply rfl h (by rw [ha]; rfl)

theorem spreadSet_completes (h : accepts spreadSetDef p s = true) : ∃ a, namedBy p = .host a ∧ Completes (exec (.spreadSet p) s) fun t =>
    let u := (s.net.units[a]).spread.under
    (t.net.units[a]).spread.under = { u with key := if p.b 0 0 then slice p.bytes 0x18 52 else u.key
                                             sels := if p.b 0 1 then Tbl.put u.sels (p.f 0 8 3) (spreadSrcs p) else u.sels
                                             alertShare := if p.b 0 2 then p.f 0 24 8 else u.alertShare } ∧
    (t.net.units[a]).spread.top = (s.net.units[a]).spread.top := by
  obtain ⟨a, ha⟩ := accepts_host h rfl
  refine ⟨a, ha, _, exec_spreadSet h ha, ?_⟩
  simp only [replied, writeReply_net, spread_spreadUnder, onceTaken_net, spreadSetUnder_eq, and_self]

theorem indirectionSet_completes (h : accepts indirectionSetDef p s = true) : ∃ a, namedBy p = .host a ∧ Completes (exec (.indirectionSet p) s) fun t =>
    (t.net.units[a]).spread.top = (s.net.units[a]).spread.top ∧
    (p.f 0 8 4 = 0 → (t.net.units[a]).spread.under = { (s.net.units[a]).spread.under with tables := Tbl.del (s.net.units[a]).spread.under.tables (p.f 0 0 6) }) ∧
    (p.f 0 8 4 ≠ 0 → ∃ tab : IndTable, (t.net.units[a]).spread.under = { (s.net.units[a]).spread.under with tables := Tbl.put (s.net.units[a]).spread.under.tables (p.f 0 0 6) tab } ∧
      tab.log2 = p.f 0 8 4 ∧ tab.sel = p.f 0 12 3 ∧ tab.entries = (upFrom 0 (p.f 1 16 12)).foldl
        (fun es i => if bitAt (indEntry p i) 15 then Tbl.put es (p.f 1 0 12 + i) (bitsAt (indEntry p i) 0 14) else Tbl.del es (p.f 1 0 12 + i))
        ((((Tbl.find (s.net.units[a]).spread.under.tables (p.f 0 0 6)).filter (·.log2 == p.f 0 8 4)).map (·.entries)).getD [])) := by
  obtain ⟨a, ha⟩ := accepts_host h rfl
  refine ⟨a, ha, _, exec_indirectionSet h ha, ?_⟩
  simp only [replied, writeReply_net, spread_spreadUnder, onceTaken_net, onceTaken_epochs]
  refine ⟨trivial, fun h0 => if_pos h0, fun h0 => ⟨_, if_neg h0, indirectionBase_log2 .., indirectionBase_sel .., ?entries⟩⟩
  exact congrArg (indirectionEntries p) (indirectionBase_entries ..)

theorem length_flatMap_pair {α : Type} (f g : α → Nat) (l : List α) : (l.flatMap fun k => [f k, g k]).length = 2 * l.length := by
  induction l with
  | nil => rfl
  | cons k l ih => rw [List.flatMap_cons, List.length_append, ih, List.length_cons, List.length_cons, List.length_cons, List.length_nil]; omega

theorem exec_spreadLoadRead (h : accepts spreadLoadReadDef p s = true) (hfits : longFits p (2 * p.f 1 0 13) = true) :
    ∃ a, namedBy p = .host a ∧ exec (.spreadLoadRead p) s = .next (let t := onceTaken p s
      let ks := (upFrom (p.f 0 16 12) (p.f 1 0 13)).map (loadKey a (p.f 0 0 6))
      repliedLong p (ks.flatMap fun k => [(Tbl.getD s.net.loads k ⟨0, 0, 0⟩).last, (Tbl.getD s.net.loads k ⟨0, 0, 0⟩).total])
        (if p.b 0 31 then ks.foldl (fun s k => { s with net := { s.net with loads := Tbl.modify s.net.loads k fun l => { l with total := 0 } } }) t else t)) := by
  obtain ⟨a, ha⟩ := accepts_host h rfl
  refine ⟨a, ha, exec_replyLong rfl h (by rw [ha, ← onceTaken_net p s]; rfl) ?_⟩
  rw [length_flatMap_pair, List.length_map, length_upFrom]
  exact hfits

theorem exec_queueCreate (h : accepts queueCreateDef p s = true) : ∃ a f q, namedBy p = .func a f ∧ freeIds (onceTaken p s) a f (qCount p) = some q ∧
    exec (.queueCreate p) s = .next (replied p .ok [q] ((upFrom 0 (qCount p)).foldl (fun s k => createOne a f p q k s) (drawn1 (onceTaken p s)))) := by
  obtain ⟨a, f, hfn⟩ := accepts_func h rfl
  have hroom := accepts_at (l := [_, _]) h rfl
  rw [hfn] at hroom
  obtain ⟨q, hq⟩ := Option.isSome_iff_exists.mp (Option.isNone_eq_false_iff.mp (Bool.or_eq_false_iff.mp hroom).2)
  exact ⟨a, f, q, hfn, hq, exec_reply rfl h (by rw [hfn]; simp only [queueCreateDef]; rw [show freeIds _ _ _ _ = some q from hq]; rfl)⟩

theorem exec_queueDestroy (h : accepts queueDestroyDef p s = true) : ∃ a f, namedBy p = .func a f ∧ (queue s a f (p.f 0 0 16)).isSome = true ∧
    exec (.queueDestroy p) s = .next (replied p .ok [] (removeQueue a f (p.f 0 0 16) (flushRest a f (p.f 0 0 16) (onceTaken p s)))) := by
  obtain ⟨a, f, hfn⟩ := accepts_func h rfl
  have hhere := accepts_at (l := [_, _]) h rfl
  rw [hfn, queue_onceTaken] at hhere
  exact ⟨a, f, hfn, Option.isNone_eq_false_iff.mp hhere, exec_reply rfl h (by rw [hfn]; rfl)⟩

theorem exec_queueQuery (h : accepts queueQueryDef p s = true) : ∃ a f q, namedBy p = .func a f ∧ queue s a f (p.f 0 0 16) = some q ∧
    (longFits p (queueWords q).length = true → exec (.queueQuery p) s = .next (repliedLong p (queueWords q) (onceTaken p s))) := by
  obtain ⟨a, f, hfn⟩ := accepts_func h rfl
  have hhere := accepts_at (l := [_]) h rfl
  rw [hfn, queue_onceTaken] at hhere
  obtain ⟨q, hq⟩ := Option.isSome_iff_exists.mp (Option.isNone_eq_false_iff.mp hhere)
  refine ⟨a, f, q, hfn, hq, exec_replyLong rfl h ?_⟩
  rw [hfn]
  simp only [queueQueryDef, queue_onceTaken]
  rw [show queue s (hostOf (.func a f)) (fnOfObj (.func a f)) (p.f 0 0 16) = some q from hq]
  rfl

end

/-- Settles O25. -/
theorem schedulerSpreaderAndQueueCommandsComplete : Obligations.SchedulerSpreaderAndQueueCommandsComplete := by
  unfold Obligations.SchedulerSpreaderAndQueueCommandsComplete
  exact fun p s => ⟨fun h => exec_reply rfl h rfl, fun h => exec_replyLong rfl h rfl, fun h => ⟨accepts_hostShareSet_sum h, exec_reply rfl h rfl⟩,
    fun h => exec_reply rfl h rfl, fun h => exec_reply rfl h rfl, spreadSet_completes, indirectionSet_completes, exec_spreadLoadRead, exec_queueCreate,
    exec_queueDestroy, exec_queueQuery⟩

end Sys2Proof.Machine
end

section
/-! PROOF. The connection, context, path and transport commands (R262, R268 to R270, R277, R281, R282, R291, R294), for O26. -/

namespace Sys2Proof.Machine
open Sys2Proof

section
variable {p : Packet} {s : State}

theorem namedConn_onceTaken (o : Obj) : namedConn (onceTaken p s) o p = namedConn s o p := by
  simp only [namedConn, conn, onceTaken_ctx]

theorem test_eq_false_of_namedIs {o : Obj} {t : State} {k : Nat} {c : Conn} (hn : namedConn t o p = some (k, c)) {test : Conn → Bool}
    (h : namedIs t o p test = false) : test c = false := by
  simpa only [namedIs, hn, Option.any_some] using h

/-- An accepted packet that names a connection names a live one (R269). -/
theorem accepts_namedConn {d : CmdDef} (h : accepts d p s = true) {l r : List (Bool × Status)}
    (hd : d.checks (namedBy p) p (onceTaken p s) = l ++ (connChecks (namedBy p) p (onceTaken p s) ++ r)) :
    ∃ k c, namedConn s (namedBy p) p = some (k, c) := by
  have hhere : (namedConn (onceTaken p s) (namedBy p) p).isNone = false := accepts_at (l := l ++ [_]) h (by rw [hd, List.append_assoc]; rfl)
  rw [namedConn_onceTaken] at hhere
  obtain ⟨kc, hkc⟩ := Option.isSome_iff_exists.mp (Option.isNone_eq_false_iff.mp hhere)
  exact ⟨kc.1, kc.2, hkc⟩

/-! Connections (R262, R268, R269) -/

theorem exec_connCreate (h : accepts connCreateDef p s = true) :
    ∃ a f n q1 q2, namedBy p = .func a f ∧ connNumber (onceTaken p s) a.val p = some n ∧ twoIds (onceTaken p s) a f = some (q1, q2) ∧
      exec (.connCreate p) s = .next (
        let t := onceTaken p s
        let rate := rateOr t (groupRate t a (p.f 2 16 16))
        let inh := inherited t p rate
        let k := a.val * 2 ^ 24 + n
        let c := freshConn t p (cfgOf t p rate (p.f 3 16 16) q1 q2) (some (fnKey a f)) inh.1 inh.2.1 (p.b 32 1) ((freeHome t (p.b 32 1) a.val).getD 0)
        let qs := Tbl.put (Tbl.put t.queues (qKey a f q1) (connQ 4 (p.f 4 0 4) (p.f 3 16 16) (p.d 6) k (p.f 2 0 3) (p.f 2 16 16))) (qKey a f q2) (connQ 5 (p.f 4 4 4) (p.f 3 16 16) (p.d 8) k 0 0)
        replied p .ok [n + p.f 0 24 8 * 2 ^ 24, q1 + q2 * 65536]
          (addConn a.val n c (pinOf p) inh.2.2 (addLeaf a 1 f q2 (rxGroup f) (addLeaf a 0 f q1 (p.f 2 16 16) { t with drawn := t.drawn + 2, queues := qs })))) := by
  obtain ⟨a, f, hfn⟩ := accepts_func h rfl
  have hnum := accepts_at (l := [_, _, _]) h rfl
  have hids := accepts_at (l := [_, _, _, _]) h rfl
  rw [hfn] at hnum hids
  obtain ⟨n, hn⟩ := Option.isSome_iff_exists.mp (Option.isNone_eq_false_iff.mp (Bool.or_eq_false_iff.mp (Bool.or_eq_false_iff.mp hnum).1).2)
  obtain ⟨⟨q1, q2⟩, hq⟩ := Option.isSome_iff_exists.mp (Option.isNone_eq_false_iff.mp (Bool.or_eq_false_iff.mp hids).2)
  change connNumber (onceTaken p s) a.val p = some n at hn
  change twoIds (onceTaken p s) a f = some (q1, q2) at hq
  refine ⟨a, f, n, q1, q2, hfn, hn, hq, exec_reply rfl h ?_⟩
  rw [hfn]
  simp only [connCreateDef, hostOf, fnOfObj, Obj.link, Option.getD_some, hn, hq]

theorem exec_connModify (h : accepts connModifyDef p s = true) : ∃ k c, namedConn s (namedBy p) p = some (k, c) ∧ lostCtx c = false ∧
    exec (.connModify p) s = .next (replied p .ok [] (modifyConn k (p.f 1 0 2) p (onceTaken p s))) := by
  obtain ⟨k, c, hc⟩ := accepts_namedConn (l := [_, _, _]) (r := []) h rfl
  have hn := (namedConn_onceTaken (s := s) (namedBy p)).trans hc
  exact ⟨k, c, hc, test_eq_false_of_namedIs hn (accepts_at (l := [_, _]) h rfl), exec_reply rfl h (by simp only [connModifyDef, hn])⟩

theorem exec_connDestroy (h : accepts connDestroyDef p s = true) : ∃ k c, namedConn s (namedBy p) p = some (k, c) ∧
    exec (.connDestroy p) s = .next (replied p .ok [] (endConn true k (onceTaken p s))) := by
  obtain ⟨k, c, hc⟩ := accepts_namedConn (l := [_]) (r := []) h rfl
  have hn := (namedConn_onceTaken (s := s) (namedBy p)).trans hc
  exact ⟨k, c, hc, exec_reply rfl h (by simp only [connDestroyDef, hn])⟩

theorem exec_connQuery (h : accepts connQueryDef p s = true) (hfits : longFits p 12 = true) :
    ∃ k c, namedConn s (namedBy p) p = some (k, c) ∧ lostCtx c = false ∧ exec (.connQuery p) s = .next (repliedLong p (connWords k c) (onceTaken p s)) := by
  obtain ⟨k, c, hc⟩ := accepts_namedConn (l := [_, _]) (r := []) h rfl
  have hn := (namedConn_onceTaken (s := s) (namedBy p)).trans hc
  exact ⟨k, c, hc, test_eq_false_of_namedIs hn (accepts_at (l := [_]) h rfl), exec_replyLong rfl h (by simp only [connQueryDef, hn]) hfits⟩

/-! Pins and homes (R277, R281) -/

theorem exec_ctxPin (h : accepts ctxPinDef p s = true) : ∃ k c, namedConn s (namedBy p) p = some (k, c) ∧ exec (.ctxPin p) s = .next (replied p .ok []
    (if c.resident then modConn k (fun c => { c with pinned := true }) (onceTaken p s) else if lostCtx c then onceTaken p s
     else missFetch k (modConn k (fun c => { c with pinDue := true }) (onceTaken p s)))) := by
  obtain ⟨k, c, hc⟩ := accepts_namedConn (l := [_]) h rfl
  have hn := (namedConn_onceTaken (s := s) (namedBy p)).trans hc
  exact ⟨k, c, hc, exec_reply rfl h (by simp only [ctxPinDef, hn])⟩

theorem exec_ctxUnpin (h : accepts ctxUnpinDef p s = true) : ∃ k c, namedConn s (namedBy p) p = some (k, c) ∧ c.cfg.cls ≠ 7 ∧ (c.pinned || c.pinDue) = true ∧
    exec (.ctxUnpin p) s = .next (replied p .ok [] (modConn k (fun c => { c with pinned := false, pinDue := false }) (onceTaken p s))) := by
  obtain ⟨k, c, hc⟩ := accepts_namedConn (l := [_]) h rfl
  have hn := (namedConn_onceTaken (s := s) (namedBy p)).trans hc
  have hcls := test_eq_false_of_namedIs hn (Bool.or_eq_false_iff.mp (accepts_at (l := []) h rfl)).2
  have hpin := test_eq_false_of_namedIs hn (accepts_at (l := [_, _, _]) h rfl)
  refine ⟨k, c, hc, by simpa using hcls, ?_, exec_reply rfl h (by simp only [ctxUnpinDef, hn])⟩
  cases hp : c.pinned <;> simp_all

theorem exec_ctxMigrate (h : accepts ctxMigrateDef p s = true) : ∃ a, namedBy p = .host a ∧
    exec (.ctxMigrate p) s = .next (begun 0x0606 p (.ctxMigrate a.val (p.w 0) (p.w 1) (p.f 2 0 2)) (ceilDiv (p.w 1) 1024) 0 (onceTaken p s)) := by
  obtain ⟨a, ha⟩ := accepts_host h rfl
  exact ⟨a, ha, exec_begun rfl h (by rw [ha]; rfl)⟩

theorem exec_hostBackingSet (h : accepts hostBackingSetDef p s = true) :
    ∃ a, namedBy p = .host a ∧ (s.ctx.conns.any fun e => connDom e.1 == a.val && e.2.hostHome) = false ∧
      exec (.hostBackingSet p) s = .next (replied p .ok [] (modCtx (fun x => { x with backing := vset x.backing a (p.d 0, p.d 2) }) (onceTaken p s))) := by
  obtain ⟨a, ha⟩ := accepts_host h rfl
  have hfree := accepts_at (l := [_]) h rfl
  rw [ha, onceTaken_ctx] at hfree
  exact ⟨a, ha, hfree, exec_reply rfl h (by rw [ha]; rfl)⟩

/-! Paths (R290, R291) -/

theorem pathSet_onceTaken (v6 : Bool) (ip : List Byte) : pathSet (onceTaken p s) v6 ip = pathSet s v6 ip := by
  simp only [pathSet, onceTaken_ctx]

theorem pathWays_onceTaken (set : Nat) : pathWays (onceTaken p s) set = pathWays s set := by
  rw [pathWays, onceTaken_ctx, pathWays]

theorem pathFind_onceTaken (v6 : Bool) (ip : List Byte) : pathFind (onceTaken p s) v6 ip = pathFind s v6 ip := by
  rw [pathFind, pathSet_onceTaken, pathWays_onceTaken, pathFind]

theorem pathPlace_onceTaken (set : Nat) : pathPlace (onceTaken p s) set = pathPlace s set := by
  rw [pathPlace, onceTaken_ctx, pathWays_onceTaken, pathPlace]

theorem exec_pathWrite_delete (h : accepts pathWriteDef p s = true) (hdel : pathDeletes p = true) :
    ∃ i old, pathFind s (p.b 0 0) (cmdPrefix p) = some (i, old) ∧
      exec (.pathWrite p) s = .next (replied p .ok [] (modCtx (fun x => { x with paths := Tbl.del x.paths i }) (onceTaken p s))) := by
  have hhere := accepts_at (l := [_]) h rfl
  rw [pathFind_onceTaken, hdel, Bool.true_and] at hhere
  obtain ⟨⟨i, old⟩, hfind⟩ := Option.isSome_iff_exists.mp (Option.isNone_eq_false_iff.mp hhere)
  exact ⟨i, old, hfind, exec_reply rfl h (by simp only [pathWriteDef, pathFind_onceTaken, hfind, hdel, if_true])⟩

theorem exec_pathWrite_replace (h : accepts pathWriteDef p s = true) (hdel : pathDeletes p = false) (i : Nat) (old : PathEntry)
    (hfind : pathFind s (p.b 0 0) (cmdPrefix p) = some (i, old)) : exec (.pathWrite p) s = .next (replied p .ok []
      (pathPut i { lock := true, v6 := p.b 0 0, samples := old.samples, baseRtt := p.w 1, initRate := p.w 2, prefix_ := cmdPrefix p } (onceTaken p s))) :=
  exec_reply rfl h (by simp only [pathWriteDef, pathFind_onceTaken, hfind, hdel, Bool.false_eq_true, if_false])

theorem exec_pathWrite_new (h : accepts pathWriteDef p s = true) (hdel : pathDeletes p = false) (hfind : pathFind s (p.b 0 0) (cmdPrefix p) = none) :
    ∃ i, pathPlace s (pathSet s (p.b 0 0) (cmdPrefix p)) = some i ∧ exec (.pathWrite p) s = .next (replied p .ok []
      (pathPut i { lock := true, v6 := p.b 0 0, samples := 0, baseRtt := p.w 1, initRate := p.w 2, prefix_ := cmdPrefix p } (onceTaken p s))) := by
  have hroom := accepts_at (l := [_, _]) h rfl
  rw [pathFind_onceTaken, pathSet_onceTaken, pathPlace_onceTaken, hdel, hfind] at hroom
  obtain ⟨i, hi⟩ := Option.isSome_iff_exists.mp (Option.isNone_eq_false_iff.mp hroom)
  exact ⟨i, hi, exec_reply rfl h (by simp only [pathWriteDef, pathFind_onceTaken, pathSet_onceTaken, pathPlace_onceTaken, hfind, hi])⟩

theorem exec_pathRead (h : accepts pathReadDef p s = true) (hfits : longFits p 16 = true) :
    ∃ i e, pathFind s (p.b 0 0) (cmdPrefix p) = some (i, e) ∧ exec (.pathRead p) s = .next (repliedLong p (pathWords e) (onceTaken p s)) := by
  have hhere := accepts_at (l := [_]) h rfl
  rw [pathFind_onceTaken] at hhere
  obtain ⟨⟨i, e⟩, hfind⟩ := Option.isSome_iff_exists.mp (Option.isNone_eq_false_iff.mp hhere)
  exact ⟨i, e, hfind, exec_replyLong rfl h (by simp only [pathReadDef, pathFind_onceTaken, hfind, Option.map_some, Option.getD_some]) hfits⟩

end

/-- Settles O26. -/
theorem connectionCommandsComplete : Obligations.ConnectionCommandsComplete := by
  unfold Obligations.ConnectionCommandsComplete
  refine fun p s => ⟨exec_connCreate, exec_connModify, exec_connDestroy, exec_connQuery, exec_ctxPin, exec_ctxUnpin, exec_ctxMigrate, exec_hostBackingSet,
    exec_pathWrite_delete, exec_pathWrite_replace, exec_pathWrite_new, exec_pathRead, fun h => ⟨_, exec_reply rfl h rfl, ?config⟩⟩
  simp only [replied, writeReply_ctx, modCtx, onceTaken_ctx]

end Sys2Proof.Machine
end

section
/-! PROOF. The namespace, drive and remote target commands (R302 to R306, R314, R315, R323, R326), for O27. -/

namespace Sys2Proof.Machine
open Sys2Proof

theorem settleCache_ops (s : State) : (settleCache s).ops = s.ops :=
  changesOnly_ops (L := [.out, .drawn, .nv, .owner, .rings, .hosts, .fns, .ctx, .nvme, .crypt, .counters])
    ((settleCache_only s (by decide) (by decide) (by decide) (by decide) (by decide) (by decide) (by decide) (by decide) (by decide) (by decide) (by decide)).mpr (changesOnly_refl _ s)) (by decide)

section
variable {p : Packet} {s : State}

theorem nspace_onceTaken (n : Nat) : nspace (onceTaken p s) n = nspace s n := by rw [nspace, onceTaken_nvme, nspace]

theorem target_onceTaken (n : Nat) : target (onceTaken p s) n = target s n := by rw [target, onceTaken_nvme, target]

theorem drive_onceTaken (n : Nat) : drive (onceTaken p s) n = drive s n := by rw [drive, onceTaken_nvme, drive]

/-! Namespaces (R302 to R306) -/

theorem accepts_nsCreate_free (h : accepts nsCreateDef p s = true) : nspace s (cmdNs p) = none := by
  have hfree := accepts_at (l := [_, _]) h rfl
  rw [nspace_onceTaken] at hfree
  exact Option.isSome_eq_false_iff.mp hfree |> Option.isNone_iff_eq_none.mp

theorem accepts_nsBackingSet_space (h : accepts nsBackingSetDef p s = true) :
    ∃ x, nspace s (cmdNs p) = some x ∧ x.attached = none ∧ (extRecs p).foldl (fun n e => n + e.units) 0 * unitBytes = x.size * x.block := by
  have hsize := accepts_at (l := [_, _]) h rfl
  have hidle := accepts_at (l := [_, _, _]) h rfl
  rw [nspace_onceTaken] at hsize hidle
  cases hx : nspace s (cmdNs p) with
  | none => simp [hx] at hsize
  | some x =>
    rw [hx] at hsize hidle
    exact ⟨x, rfl, by simpa using hidle, bne_eq_false_iff_eq.mp (Bool.or_eq_false_iff.mp hsize).2⟩

theorem exec_nsAttach (h : accepts nsAttachDef p s = true) :
    ∃ a f x, namedBy p = .func a f ∧ nspace s (cmdNs p) = some x ∧ x.extents ≠ [] ∧ x.attached = none ∧ x.host = a.val ∧
      exec (.nsAttach p) s = .next (let t := onceTaken p s
        replied p .ok [] (nsChangedHere (cmdNs p) 1 (modNs (cmdNs p) (fun x => { x with attached := some (fnKey a f, if p.w 1 = 0 then freeNsid t (fnKey a f) else p.w 1) }) t))) := by
  obtain ⟨a, f, hfn⟩ := accepts_func h rfl
  have hspace := accepts_at (l := [_]) h rfl
  rw [nspace_onceTaken, hfn] at hspace
  cases hx : nspace s (cmdNs p) with
  | none => simp [hx] at hspace
  | some x =>
    simp only [hx, Bool.or_eq_false_iff, List.isEmpty_eq_false_iff, bne_eq_false_iff_eq] at hspace
    obtain ⟨⟨hext, hatt⟩, hhost⟩ := hspace
    exact ⟨a, f, x, hfn, rfl, hext, by simpa using hatt, hhost, exec_reply rfl h (by rw [hfn]; rfl)⟩

theorem exec_nsDetach (h : accepts nsDetachDef p s = true) : ∃ a f x, namedBy p = .func a f ∧ nspace s (cmdNs p) = some x ∧ x.attached = some (fnKey a f, p.w 1) ∧
    exec (.nsDetach p) s = .next (replied p .ok [] (settleCache (detachNs (cmdNs p) (fnKey a f) (p.w 1) (onceTaken p s)))) := by
  obtain ⟨a, f, hfn⟩ := accepts_func h rfl
  have hatt := accepts_at (l := [_]) h rfl
  rw [nspace_onceTaken, hfn] at hatt
  cases hx : nspace s (cmdNs p) with
  | none => simp [hx] at hatt
  | some x => exact ⟨a, f, x, hfn, rfl, by simpa [hx, hostOf, fnOfObj, Obj.link] using hatt, exec_reply rfl h (by rw [hfn]; rfl)⟩

theorem accepts_nsDelete_idle (h : accepts nsDeleteDef p s = true) : ∃ x, nspace s (cmdNs p) = some x ∧ x.attached = none ∧ x.busy = 0 := by
  have hhere := accepts_at (l := []) h rfl
  have hidle := accepts_at (l := [_]) h rfl
  rw [nspace_onceTaken] at hhere hidle
  cases hx : nspace s (cmdNs p) with
  | none => simp [hx] at hhere
  | some x => exact ⟨x, rfl, by simpa [hx] using hidle⟩

/-! Drives and the cache (R314, R315, R323, R326) -/

theorem exec_driveInfo (h : accepts driveInfoDef p s = true) : exec (.driveInfo p) s =
    .next (answer p (replyLong (Config.layout 0x0705 (driveFields (drive s (p.f 0 0 4)))) (onceTaken p s)) (onceTaken p s)) := by
  rw [exec_accepted rfl h, ← drive_onceTaken (p := p)]
  rfl

theorem exec_cacheFlush_discard (h : accepts cacheFlushDef p s = true) (hd : p.b 0 24 = true) : exec (.cacheFlush p) s = .next
    (begun 0x0707 p (.cacheFlush none (if p.b 0 16 then none else some (cmdNs p)) true) 1 0 (onceTaken p s)) := by
  have hown := accepts_at (l := []) h rfl
  rw [hd, Bool.and_true, Bool.or_eq_false_iff, Bool.not_eq_false'] at hown
  have hchan : p.chan = .owner := by
    have howner := hown.1
    cases hc : p.chan with
    | owner => rfl
    | ring c => simp [Packet.owner, hc] at howner
  exact exec_begun rfl h (by simp only [cacheFlushDef, hd, hchan, if_true])

theorem cacheFlush_completes (h : accepts cacheFlushDef p s = true) (hd : p.b 0 24 = false) :
    Completes (exec (.cacheFlush p) s) fun t => ∃ o, o ∈ t.ops ∧ o.opcode = 0x0707 ∧ o.chan = p.chan ∧ o.tag = p.tag := by
  refine ⟨_, exec_short rfl h (by simp only [cacheFlushDef, hd, Bool.false_eq_true, if_false]; rfl) rfl rfl, ?_⟩
  simp only [writeReply_ops, settleCache_ops, modNvme_ops, startOp, drawn1]
  exact ⟨_, List.mem_append_right _ List.mem_cons_self, rfl, rfl, rfl⟩

/-! Remote targets (R323) -/

theorem exec_remoteTargetSet_delete (h : accepts remoteTargetSetDef p s = true) (hdel : rtDelete p = true) : ∃ x, target s (rtTarget p) = some x ∧
    exec (.remoteTargetSet p) s = .next (replied p .ok [] (modNvme (fun n => { n with targets := Tbl.del n.targets (rtTarget p) }) (endConn false x.conn (targetGone (rtTarget p) (onceTaken p s))))) := by
  have hhere := accepts_at (l := [_, _]) h rfl
  rw [hdel, if_pos rfl, target_onceTaken] at hhere
  cases hx : target s (rtTarget p) with
  | none => simp [hx] at hhere
  | some x => exact ⟨x, rfl, exec_reply rfl h (by simp only [remoteTargetSetDef, target_onceTaken, hx, hdel, if_true])⟩

theorem exec_remoteTargetSet_new (h : accepts remoteTargetSetDef p s = true) (hdel : rtDelete p = false) : ∃ n, connNumber (onceTaken p s) 8 p = some n ∧
    exec (.remoteTargetSet p) s = .next (let t := onceTaken p s
      let s0 := match target s (rtTarget p) with
        | none => t
        | some x => modNvme (fun n => { n with targets := Tbl.del n.targets (rtTarget p) }) (endConn false x.conn (targetGone (rtTarget p) t))
      let rate := (rateOfPort t (rtPort p)).getD 0
      let inh := inherited t p rate
      let s1 := addConn 8 n (freshConn t p (cfgOf t p rate 0 0 0) none inh.1 inh.2.1 false 0) true inh.2.2 (drawn1 s0)
      let v : Target := { conn := 8 * 2 ^ 24 + n, port := rtPort p, atomic := p.w 50, timeout := keep0 (p.f 51 0 16) 2000, maxOut := keep0 (p.f 51 16 12) 256, nextTag := 0, cmds := [], waiting := [] }
      replied p .ok [n + p.f 0 24 8 * 2 ^ 24] (backingReturns (onTarget (rtTarget p)) (modNvme (fun x => { x with targets := Tbl.put x.targets (rtTarget p) v }) s1))) := by
  have hnum := accepts_at (l := [_, _, _]) h rfl
  rw [hdel, Bool.not_false, Bool.true_and, Bool.or_eq_false_iff] at hnum
  obtain ⟨n, hn⟩ := Option.isSome_iff_exists.mp (Option.isNone_eq_false_iff.mp hnum.2)
  refine ⟨n, hn, exec_reply rfl h ?_⟩
  cases hx : target s (rtTarget p) <;> simp only [remoteTargetSetDef, target_onceTaken, hx, hdel, hn, Bool.false_eq_true, if_false, Option.getD_some]

end

/-- Settles O27. -/
theorem storageCommandsComplete : Obligations.StorageCommandsComplete := by
  unfold Obligations.StorageCommandsComplete
  exact fun p s => ⟨fun h => ⟨accepts_nsCreate_free h, exec_reply rfl h rfl⟩, fun h => ⟨accepts_nsBackingSet_space h, exec_reply rfl h rfl⟩,
    exec_nsAttach, exec_nsDetach, fun h => ⟨accepts_nsDelete_idle h, exec_begun rfl h rfl⟩, exec_driveInfo, fun h => exec_begun rfl h rfl,
    exec_cacheFlush_discard, cacheFlush_completes, fun h => exec_begun rfl h rfl, exec_remoteTargetSet_delete, exec_remoteTargetSet_new⟩

end Sys2Proof.Machine
end

section
/-! PROOF. The commands of the key store (R331 to R340, R355, R356), for O28. -/

namespace Sys2Proof.Machine
open Sys2Proof

section
variable {p : Packet} {s : State}

/-- An answer that refuses with a status of its own carries nothing else. -/
theorem exec_refused {c : Instr} {d : CmdDef} {t : State} {st : Status} (hc : packetOf c = some (d, p)) (h : accepts d p s = true)
    (hact : d.act (namedBy p) p (onceTaken p s) = { state := t, status := st }) : exec c s = .next (replied p st [] t) :=
  exec_short hc h hact rfl rfl

theorem keyOfRef_onceTaken (r : Nat) : keyOfRef (onceTaken p s) r = keyOfRef s r := by
  simp only [keyOfRef, slotAt, onceTaken_crypt]

theorem boundOf_onceTaken (n : Nat) : boundOf (onceTaken p s) n = boundOf s n := by
  simp only [boundOf, onceTaken_ctx, onceTaken_nvme]

theorem notOwned_eq_false {t : State} {o : Obj} {r : Nat} (h : notOwned t o r = false) : ∃ k, keyOfRef t r = some k ∧ k.owner = keyOwner o := by
  unfold notOwned at h
  cases hk : keyOfRef t r with
  | none => simp [hk] at h
  | some k => exact ⟨k, rfl, by simpa [hk] using h⟩

theorem exec_keyAllocate (h : accepts keyAllocateDef p s = true) : ∃ n, freeSlots (onceTaken p s) (p.f 0 0 7) = some n ∧ exec (.keyAllocate p) s = .next (replied p .ok [n]
    (modCrypt (fun c => { c with slots := (upFrom n (p.f 0 0 7)).foldl (fun t i => Tbl.put t i (emptySlot (keyOwner (namedBy p)))) c.slots }) (drawn1 (onceTaken p s)))) := by
  have hroom := accepts_at (l := [_]) h rfl
  obtain ⟨n, hn⟩ := Option.isSome_iff_exists.mp (Option.isNone_eq_false_iff.mp (Bool.or_eq_false_iff.mp hroom).2)
  exact ⟨n, hn, exec_reply rfl h (by simp only [keyAllocateDef, hn, Option.getD_some])⟩

theorem exec_keyImport (h : accepts keyImportDef p s = true) : exec (.keyImport p) s = .next (match importMaterial (namedBy p) p (onceTaken p s) with
    | none => replied p .keyRefused [] (unwrapFailed (onceTaken p s))
    | some m => if equalHalves (impUse p) m then replied p .keyRefused [] (onceTaken p s) else replied p .ok [] (loadKey_ (p.f 0 0 17) p m (drawn1 (onceTaken p s)))) := by
  cases hm : importMaterial (namedBy p) p (onceTaken p s) with
  | none => exact exec_refused rfl h (by simp only [keyImportDef, hm])
  | some m =>
    dsimp only
    split
    case isTrue heq => exact exec_refused rfl h (by simp only [keyImportDef, hm, heq, if_true])
    case isFalse hne => exact exec_reply rfl h (by simp only [keyImportDef, hm, hne, if_false, Bool.false_eq_true])

theorem exec_keyQuery (h : accepts keyQueryDef p s = true) : ∃ k, keyOfRef s (p.w 0) = some k ∧ k.owner = keyOwner (namedBy p) ∧
    exec (.keyQuery p) s = .next (replied p .ok (keyRecord k (if isPageRef (p.w 0) then 0 else boundOf s (p.w 0)) (objTarget (namedBy p))) (onceTaken p s)) := by
  obtain ⟨k, hk, hown⟩ := notOwned_eq_false (accepts_at (l := [_]) h rfl)
  rw [keyOfRef_onceTaken] at hk
  exact ⟨k, hk, hown, exec_reply rfl h (by simp only [keyQueryDef, keyOfRef_onceTaken, boundOf_onceTaken, hk])⟩

theorem exec_importKeySet (h : accepts importKeySetDef p s = true) : exec (.importKeySet p) s = .next (match newIkek p (onceTaken p s) with
    | none => replied p .keyRefused [] (unwrapFailed (onceTaken p s))
    | some k => replied p .ok [] (let t := modCrypt (fun c => { c with ikeks := Tbl.put c.ikeks (ikekKey (keyOwner (namedBy p))) k }) (onceTaken p s)
        if (namedBy p).isDevice then { t with nv := { t.nv with sealedIkek := some k } } else t)) := by
  cases hk : newIkek p (onceTaken p s) with
  | none => exact exec_refused rfl h (by simp only [importKeySetDef, hk])
  | some k => exact exec_reply rfl h (by simp only [importKeySetDef, hk])

/-! KEY_TIER_SET (R339, R340) -/

theorem exec_keyTierSet_out (h : accepts keyTierSetDef p s = true) (href : isPageRef (p.w 0) = false) : ∃ page, freePage (onceTaken p s) = some page ∧
    exec (.keyTierSet p) s = .next (replied p .ok [2 ^ 31 + page] (pageOut (p.w 0) page (drawn1 (onceTaken p s)))) := by
  have hroom := accepts_at (l := [_, _]) h rfl
  rw [href, if_neg Bool.false_ne_true] at hroom
  obtain ⟨page, hpage⟩ := Option.isSome_iff_exists.mp (Option.isNone_eq_false_iff.mp (Bool.or_eq_false_iff.mp hroom).2)
  exact ⟨page, hpage, exec_reply rfl h (by simp only [keyTierSetDef, href, hpage, Bool.false_eq_true, if_false, Option.getD_some])⟩

theorem exec_keyTierSet_in (h : accepts keyTierSetDef p s = true) (href : isPageRef (p.w 0) = true)
    (hgood : ((Tbl.find s.crypt.pages (p.f 0 0 24)).any fun k => k.bad) = false) : ∃ n, freeSlots (onceTaken p s) 1 = some n ∧
    exec (.keyTierSet p) s = .next (replied p .ok [n] (pageIn (p.f 0 0 24) n (drawn1 (onceTaken p s)))) := by
  have hroom := accepts_at (l := [_, _]) h rfl
  rw [href, if_pos rfl] at hroom
  obtain ⟨n, hn⟩ := Option.isSome_iff_exists.mp (Option.isNone_eq_false_iff.mp (Bool.or_eq_false_iff.mp hroom).2)
  exact ⟨n, hn, exec_reply rfl h (by simp only [keyTierSetDef, href, onceTaken_crypt, hgood, hn, Bool.false_eq_true, if_true, if_false, Option.getD_some])⟩

theorem exec_keyTierSet_bad (h : accepts keyTierSetDef p s = true) (href : isPageRef (p.w 0) = true)
    (hbad : ((Tbl.find s.crypt.pages (p.f 0 0 24)).any fun k => k.bad) = true) : exec (.keyTierSet p) s = .next (replied p .keyRefused []
      (count 0x0B 0 0x603 1 (modCrypt (fun c => { c with pages := Tbl.del c.pages (p.f 0 0 24) }) (onceTaken p s)))) :=
  exec_refused rfl h (by simp only [keyTierSetDef, href, onceTaken_crypt, hbad, if_true])

theorem accepts_keystoreZeroise_word (h : accepts keystoreZeroiseDef p s = true) : p.w 0 = 0x5A45524F :=
  bne_eq_false_iff_eq.mp (Bool.or_eq_false_iff.mp (accepts_at (l := []) h rfl)).1

end

/-- Settles O28. -/
theorem keyCommandsComplete : Obligations.KeyCommandsComplete := by
  unfold Obligations.KeyCommandsComplete
  exact fun p s => ⟨exec_keyAllocate, exec_keyImport, fun h => exec_reply rfl h rfl, exec_keyQuery, exec_importKeySet, exec_keyTierSet_out, exec_keyTierSet_in,
    exec_keyTierSet_bad, fun h => ⟨accepts_keystoreZeroise_word h, exec_reply rfl h rfl⟩⟩

end Sys2Proof.Machine
end

section
/-! PROOF. The commands of the compute clusters' programs (R383, R393, R395 to R397), for O29. -/

namespace Sys2Proof.Machine
open Sys2Proof

theorem firstRefusal_append_of_none {l r : List (Bool × Status)} (h : firstRefusal l = none) : firstRefusal (l ++ r) = firstRefusal r := by
  have hall := firstRefusal_none h
  clear h
  induction l with
  | nil => rfl
  | cons e l ih =>
    obtain ⟨b, st⟩ := e
    have hb : b = false := hall _ List.mem_cons_self
    subst hb
    exact ih fun e he => hall e (List.mem_cons_of_mem _ he)

theorem refusal_of_accepts {d : CmdDef} {p : Packet} {s : State} (h : accepts d p s = true) : takes p s = true ∧ refusal d p (onceTaken p s) = none := by
  simpa only [accepts, Bool.and_eq_true, Option.isNone_iff_eq_none] using h

/-! PROGRAM_LOAD (R395, R396) -/

section
variable {p : Packet} {s : State}

/-- After the other checks, PROGRAM_LOAD looks at the component itself. -/
theorem refusal_programLoad (h : accepts loadRequest p s = true) : refusal programLoadDef p (onceTaken p s) =
    if (programOfComponent (onceTaken p s) (p.f 0 0 8)).isNone then some .imageInvalid else none := by
  have hbefore := (refusal_of_accepts h).2
  have hsplit : refusal programLoadDef p (onceTaken p s) =
      firstRefusal ((commonChecks loadRequest (resolve p) p (onceTaken p s) ++ loadRequest.checks ((resolve p).getD .device) p (onceTaken p s)) ++
        [((programOfComponent (onceTaken p s) (p.f 0 0 8)).isNone, .imageInvalid)]) := by rw [List.append_assoc]; rfl
  rw [hsplit, firstRefusal_append_of_none hbefore]
  cases (programOfComponent (onceTaken p s) (p.f 0 0 8)).isNone <;> rfl

theorem exec_programLoad (h : accepts loadRequest p s = true) : exec (.programLoad p) s = .next (let t := onceTaken p s
    match programOfComponent t (p.f 0 0 8) with
    | none => replied p .imageInvalid [] t
    | some _ => begun 0x0900 p (.programLoad (p.f 0 0 8) (p.f 0 16 4) (p.w 1)) (maskClusters (p.w 1)).length 0 (extend 4 (loadDigest t (p.f 0 0 8) (p.f 0 16 4) (p.w 1)) t)) := by
  have ht := (refusal_of_accepts h).1
  have hr := refusal_programLoad h
  dsimp only
  cases hi : programOfComponent (onceTaken p s) (p.f 0 0 8) with
  | none => exact refusedPacketsHaveNoEffectButTheReply _ _ p s _ rfl ht (by rw [hr, hi]; rfl)
  | some i =>
    have haccept : accepts programLoadDef p s = true := by rw [accepts, ht, hr, hi]; rfl
    exact exec_begun rfl haccept rfl

/-! The clusters a packet names -/

theorem cluster_onceTaken (cl : Nat) : cluster (onceTaken p s) cl = cluster s cl := by rw [cluster, onceTaken_cores, cluster]

theorem coreOf_onceTaken (ck : Nat) : coreOf (onceTaken p s) ck = coreOf s ck := by rw [coreOf, onceTaken_cores, coreOf]

theorem clusterLive_onceTaken (cl : Nat) : clusterLive (onceTaken p s) cl = clusterLive s cl := by
  have hcore : coreLive (onceTaken p s) = coreLive s := funext fun ck => by rw [coreLive, coreOf_onceTaken, coreLive]
  rw [clusterLive, hcore, clusterLive]

theorem accepts_programStart_clusters (h : accepts programStartDef p s = true) :
    ∀ c ∈ maskClusters (p.w 0), (cluster s c.val).program ≠ none ∧ clusterLive s c.val = false := by
  intro c hc
  have hnone := List.any_eq_false.mp (accepts_at (l := [_]) h rfl) c hc
  rw [cluster_onceTaken, clusterLive_onceTaken, Bool.not_eq_true, Bool.or_eq_false_iff] at hnone
  exact ⟨fun hp => by simp [hp] at hnone, hnone.2⟩

theorem length_flatMap_of_const {α : Type} {f : α → List Nat} {n : Nat} (hf : ∀ a, (f a).length = n) (l : List α) : (l.flatMap f).length = n * l.length := by
  rw [List.length_flatMap, List.map_congr_left fun a _ => hf a, List.map_const', List.sum_replicate_nat, Nat.mul_comm]

theorem exec_coreStatus (h : accepts coreStatusDef p s = true) (hfits : longFits p 65 = true) : exec (.coreStatus p) s = .next (let t := onceTaken p s
    repliedLong p (clStatusWord t (p.f 0 0 4) :: (upFrom (16 * p.f 0 0 4) 16).flatMap fun ck => [threadsLo t ck, threadsHi t ck] ++ words64 (coreOf t ck).retired) t) := by
  refine exec_replyLong rfl h rfl ?_
  rw [List.length_cons, length_flatMap_of_const (n := 4) fun _ => rfl, length_upFrom]
  exact hfits

end

/-- Settles O29. -/
theorem programCommandsComplete : Obligations.ProgramCommandsComplete := by
  unfold Obligations.ProgramCommandsComplete
  exact fun p s => ⟨exec_programLoad, fun h => ⟨accepts_programStart_clusters h, exec_reply rfl h rfl⟩, fun h => exec_reply rfl h rfl, fun h => exec_reply rfl h rfl,
    exec_coreStatus, fun h => exec_reply rfl h rfl⟩

end Sys2Proof.Machine
end

section
/-! PROOF. The commands of tests, repair, fuses and the PARK plan, and of the images and keys of the boot store (R432, R434 to R438, R442, R447), for O30. -/

namespace Sys2Proof.Machine
open Sys2Proof

section
variable {p : Packet} {s : State}

/-- A command of the MAINTENANCE gate was accepted in MAINTENANCE (R72). -/
theorem accepts_maintenance {d : CmdDef} (h : accepts d p s = true) (hg : d.gate = .maint) : s.glb.mode = .maintenance := by
  have hmode := accepts_mode h
  rw [modeWrong, onceTaken_glb, hg] at hmode
  cases hm : s.glb.mode <;> simp [hm] at hmode ⊢

/-! Repair and fuses (R459, R460) -/

theorem exec_repairRead (h : accepts repairReadDef p s = true) (hfits : longFits p (4 + (((s.nv.repairs.drop (p.w 0)).take 126).flatMap repairWords).length) = true) :
    exec (.repairRead p) s = .next (let t := onceTaken p s
      repliedLong p ([t.nv.repairs.length, fuseFree t, sparesWord t, 0] ++ ((t.nv.repairs.drop (p.w 0)).take 126).flatMap repairWords) t) := by
  refine exec_replyLong rfl h rfl ?_
  rw [List.length_append, onceTaken_nv]
  exact hfits

theorem accepts_fuseProgram_entries (h : accepts fuseProgramDef p s = true) : ∀ i ∈ fuseEntries p, ∃ e, s.nv.repairs[i]? = some e ∧ e.state = 1 := by
  intro i hi
  have hpending := List.any_eq_false.mp (accepts_at (l := [_, _]) h rfl) i hi
  rw [onceTaken_nv, Bool.not_eq_true, Bool.not_eq_false', Option.any_eq_true] at hpending
  obtain ⟨e, he, hstate⟩ := hpending
  exact ⟨e, he, beq_iff_eq.mp hstate⟩

/-! Images (R432, R436 to R438) -/

theorem imageInfo_completes (h : accepts imageInfoDef p s = true) (hfits : longFits p 12 = true) : Completes (exec (.imageInfo p) s) fun t =>
    ∃ ws, t = repliedLong p ws (onceTaken p s) ∧ ws.length = 12 ∧ ws.getD 6 0 = s.nv.minVersion :=
  ⟨_, exec_replyLong rfl h rfl hfits, _, rfl, rfl, by rw [← onceTaken_nv p s]; rfl⟩

theorem accepts_commitVersion_above (h : accepts commitVersionDef p s = true) : s.nv.minVersion < s.sec.version := by
  have habove := accepts_at (l := []) h rfl
  simpa only [onceTaken_sec, onceTaken_nv, decide_eq_false_iff_not, Nat.not_le] using habove

theorem commitVersion_completes (h : accepts commitVersionDef p s = true) : Completes (exec (.commitVersion p) s) fun t => t.nv.minVersion = s.sec.version := by
  refine ⟨_, exec_reply rfl h rfl, ?_⟩
  dsimp only
  rw [replied, writeReply_nv, ← onceTaken_sec p s]
  rfl

/-! Keys (R434, R435) -/

theorem revokeKey_completes (h : accepts revokeKeyDef p s = true) : Completes (exec (.revokeKey p) s) fun t => t.nv.revoked = setBitAt s.nv.revoked (p.f 0 0 2) true := by
  refine ⟨_, exec_reply rfl h rfl, ?_⟩
  dsimp only
  rw [replied, writeReply_nv, ← onceTaken_nv p s]
  rfl

theorem accepts_ownerKeyProvision_index (h : accepts ownerKeyProvisionDef p s = true) : 2 ≤ p.f 0 0 2 := by
  have hindex := (Bool.or_eq_false_iff.mp (Bool.or_eq_false_iff.mp (accepts_at (l := []) h rfl)).1).1
  simpa only [decide_eq_false_iff_not, Nat.not_lt] using hindex

/-- The protected store once OWNER_KEY_PROVISION has burned a digest, and where the fuses read back, its provisioned bit. -/
theorem ownerKeyProvision_nv (o : Obj) (t : State) : (ownerKeyProvisionDef.act o p t).state.nv =
    { t.nv with keyDigests := vset t.nv.keyDigests ⟨p.f 0 0 2 % 4, Nat.mod_lt _ (by decide)⟩ (Config.sha384 (slice p.bytes 8 0xA80))
                provisioned := if freshNat t % 2 = 0 then setBitAt t.nv.provisioned (p.f 0 0 2) true else t.nv.provisioned } := by
  by_cases hgood : freshNat t % 2 = 0
  · simp only [ownerKeyProvisionDef, hgood, BEq.rfl, if_true]
    rfl
  · have hb : (freshNat t % 2 == 0) = false := beq_eq_false_iff_ne.mpr hgood
    simp only [ownerKeyProvisionDef, hb, hgood, if_false, Bool.false_eq_true, internalFault_nv]
    rfl

theorem getElem?_vset_mod {α : Type} {n k : Nat} (v : Vector α n) (a : α) (hk : k < n) (hm : k % n < n) : (vset v ⟨k % n, hm⟩ a)[k]? = some a := by
  have hmod : k % n = k := Nat.mod_eq_of_lt hk
  simp [vset, hmod, hk]

theorem ownerKeyProvision_completes (h : accepts ownerKeyProvisionDef p s = true) : Completes (exec (.ownerKeyProvision p) s) fun t =>
    t.nv.keyDigests[p.f 0 0 2]? = some (Config.sha384 (slice p.bytes 8 0xA80)) ∧
    t.nv.provisioned = if freshNat s % 2 = 0 then setBitAt s.nv.provisioned (p.f 0 0 2) true else s.nv.provisioned := by
  have hplain : (ownerKeyProvisionDef.act (namedBy p) p (onceTaken p s)).long = none ∧ (ownerKeyProvisionDef.act (namedBy p) p (onceTaken p s)).after = id := by
    simp only [ownerKeyProvisionDef]
    split <;> exact ⟨rfl, rfl⟩
  refine ⟨_, exec_short rfl h rfl hplain.1 hplain.2, ?_⟩
  dsimp only
  rw [writeReply_nv, ownerKeyProvision_nv, onceTaken_nv, freshNat, onceTaken_drawn]
  exact ⟨getElem?_vset_mod _ _ (bitsAt_lt _ _ 2) _, rfl⟩

/-! Measurements (R447) -/

theorem exec_measurementRead (h : accepts measurementReadDef p s = true) (hfits : longFits p (16 * ((List.finRange 16).filter fun i => p.b 0 i.val).length) = true) :
    exec (.measurementRead p) s = .next (let t := onceTaken p s
      repliedLong p (((List.finRange 16).filter fun i => p.b 0 i.val).flatMap fun i => measurementReadDef.words8 (t.sec.mrs[i]) ++ [t.sec.extends_[i], 0, 0, 0]) t) := by
  refine exec_replyLong rfl h rfl ?_
  rw [length_flatMap_of_const (n := 16) fun _ => rfl]
  exact hfits

end

/-- Settles O30. -/
theorem testRepairAndImageCommandsComplete : Obligations.TestRepairAndImageCommandsComplete := by
  unfold Obligations.TestRepairAndImageCommandsComplete
  exact fun p s => ⟨fun h => exec_begun rfl h rfl, exec_repairRead, fun h => ⟨accepts_maintenance h rfl, accepts_fuseProgram_entries h, exec_begun rfl h rfl⟩,
    fun h => exec_reply rfl h rfl, fun h => exec_reply rfl h rfl, fun h => exec_begun rfl h rfl, imageInfo_completes,
    fun h => ⟨accepts_commitVersion_above h, commitVersion_completes h⟩, revokeKey_completes,
    fun h => ⟨accepts_maintenance h rfl, accepts_ownerKeyProvision_index h, ownerKeyProvision_completes h⟩, exec_measurementRead⟩

end Sys2Proof.Machine
end

section
/-! PROOF. The counter, event mask and violation commands, and a packet whose opcode no table assigns (R66, R75, R82, R504, R505, R508), for O31. -/

namespace Sys2Proof.Machine
open Sys2Proof

section
variable {p : Packet} {s : State}

/-! Counters (R505) -/

theorem length_ctrWords (t : State) (block link first n : Nat) : (ctrWords t block link first n).length = 2 * n := by
  rw [ctrWords, length_flatMap_of_const (n := 2) fun _ => rfl, length_upFrom]

/-- A long result that fits is written before what the command does besides. -/
theorem exec_long {c : Instr} {d : CmdDef} {t : State} {ws : List Nat} (hc : packetOf c = some (d, p)) (h : accepts d p s = true)
    (hact : d.act (namedBy p) p (onceTaken p s) = { state := t, long := some ws }) (hfits : longFits p ws.length = true) :
    exec c s = .next (repliedLong p ws t) := exec_replyLong hc h hact hfits

theorem exec_counterRead (h : accepts counterReadDef p s = true) (hfits : longFits p (2 * p.w 2) = true) : exec (.counterRead p) s = .next (let t := onceTaken p s
    repliedLong p (ctrWords t (p.f 0 0 8) (p.f 0 8 4) (p.w 1) (p.w 2)) (if p.b 0 16 then clearCounters (p.f 0 0 8) (p.f 0 8 4) (p.w 1) (p.w 2) t else t)) :=
  exec_long rfl h rfl (by rw [length_ctrWords]; exact hfits)

theorem exec_counterSnapshot (h : accepts counterSnapshotDef p s = true) (hroom : p.chan = .owner ∨ 8 * p.w 2 ≤ p.resultLen.toNat) :
    exec (.counterSnapshot p) s = .next (let e := if p.bound then p.epochBind.toNat else s.epochs.epoch + 1
      begun 0x0C01 p (.snapshot (p.f 0 0 8) (p.f 0 8 4) (p.w 1) (p.w 2) (p.b 0 16) (if p.bound then some e else none)) 0 e (onceTaken p s)) := by
  have hfits : (!p.owner && decide (p.resultLen.toNat < 8 * (ctrArgs p).count)) = false := by
    rcases hroom with hown | hlen
    · simp [Packet.owner, hown]
    · simp [ctrArgs, Nat.not_lt.mpr hlen]
  exact exec_begun rfl h (by simp only [counterSnapshotDef, hfits, onceTaken_epochs, Bool.false_eq_true, if_false]; rfl)

/-! Event masks (R82, R508) -/

theorem accepts_eventMaskSet_mask (h : accepts eventMaskSetDef p s = true) : maskOf p &&& maskAllowed = maskOf p :=
  bne_eq_false_iff_eq.mp (accepts_at (l := []) h rfl)

theorem exec_eventMaskSet_owner (h : accepts eventMaskSetDef p s = true) (hc : p.chan = .owner) : exec (.eventMaskSet p) s = .next (let t := onceTaken p s
    replied p .ok [] { t with owner := { t.owner with mask := maskOf p } }) := exec_reply rfl h (by simp only [eventMaskSetDef, hc])

theorem exec_eventMaskSet_ring (c : RingChan) (h : accepts eventMaskSetDef p s = true) (hc : p.chan = .ring c) :
    exec (.eventMaskSet p) s = .next (replied p .ok [] (modRing c (fun r => { r with mask := maskOf p }) (onceTaken p s))) :=
  exec_reply rfl h (by simp only [eventMaskSetDef, hc])

/-! Violation records (R504) -/

theorem violationShown_onceTaken (c : Chan) (v : Violation) : violationShown (onceTaken p s) c v = violationShown s c v := by
  cases c with
  | owner => rfl
  | ring c =>
    have hlink (a : HostId) : link (onceTaken p s) a = link s a := by rw [link, onceTaken_hosts, link]
    rw [violationShown, violationShown, hlink]

theorem violationRead_shows (h : accepts violationReadDef p s = true) :
    ∃ ws, exec (.violationRead p) s = .next (answer p (replyLong ws (onceTaken p s)) (onceTaken p s)) ∧ ∃ vs : List Violation,
      ws.drop 4 = vs.flatMap violationWords ∧ vs.length ≤ p.f 1 0 6 ∧ (∀ v ∈ vs, v ∈ s.violations.log ∧ violationShown s p.chan v = true) ∧
      ws.getD 2 0 = vs.length ∧ ws.getD 1 0 = s.violations.seq % 2 ^ 32 := by
  refine ⟨_, exec_accepted rfl h, _, rfl, List.length_take_le _ _, fun v hv => ?_, rfl, by rw [← onceTaken_violations p s]; rfl⟩
  obtain ⟨hlog, hshown⟩ := List.mem_filter.mp (List.mem_of_mem_take hv)
  rw [onceTaken_violations] at hlog
  rw [Bool.and_eq_true, violationShown_onceTaken] at hshown
  exact ⟨hlog, hshown.1⟩

/-! Packets that are not understood (R66, R71, R75) -/

/-- BAD_OPCODE comes first in the order of R71. -/
theorem firstRefusal_badOpcode {l : List (Bool × Status)} (h : (true, .badOpcode) ∈ l) : firstRefusal l = some .badOpcode := by
  induction l with
  | nil => cases h
  | cons e r ih =>
    rcases List.mem_cons.mp h with rfl | hr
    · rw [firstRefusal.eq_def]
      cases hr : firstRefusal r with
      | none => simp only [hr]
      | some st => simp only [hr]; exact if_neg (Nat.not_lt_zero _)
    · obtain ⟨b, st⟩ := e
      rw [firstRefusal.eq_def]
      simp only [ih hr]
      cases b with
      | false => rfl
      | true => cases st <;> rfl

theorem exec_unassignedOpcode (op : BitVec 16) (ht : takes p s = true) (hno : ¬(assignedOpcode op.toNat = true ∧ p.version = 1)) :
    exec (.unassignedOpcode op p) s = .next (replied p .badOpcode [] (onceTaken p s)) := by
  have hver : p.version.toNat = 1 ↔ p.version = 1 := ⟨fun hv => BitVec.eq_of_toNat_eq hv, fun hv => by rw [hv]; rfl⟩
  have hnot : (assignedOpcode op.toNat && p.version.toNat == 1) = false := by
    simpa [hver] using hno
  have hcheck : (!assignedOpcode op.toNat || p.version.toNat != 1) = true := by
    rw [Bool.and_eq_false_iff] at hnot
    exact hnot.elim (fun h => by rw [h]; rfl) (fun h => by rw [bne, h, Bool.not_false, Bool.or_true])
  have hr : refusal (unassignedDef op.toNat) p (onceTaken p s) = some .badOpcode :=
    firstRefusal_badOpcode (List.mem_append_right _ (by rw [← hcheck]; exact List.mem_cons_self))
  change execUnassignedOpcode op p s = _
  rw [execUnassignedOpcode, hnot, if_neg Bool.false_ne_true, runCmd_taken ht, serve_some hr]

theorem exec_oversizeCommand (c : RingChan) (hrun : (ring s c).running = true) (hc : p.chan = .ring c) (hslots : ringSize (ring s c).sqCfg ≤ p.slots)
    (hused : ringUsed (ring s c).sqCfg (ring s c).sqHead (ring s c).sqTail ≠ 0) (hroom : rqFull (ring s c) = false) :
    exec (.oversizeCommand c p) s = .next (modRing c (fun r => { r with oversize := true, running := false }) (replied p .badLength [p.slots] s)) := by
  have hsize : ¬p.slots ≤ ringSize (ring s c).sqCfg - 1 := by
    have hpos : 0 < ringSize (ring s c).sqCfg := by exact Nat.two_pow_pos _
    omega
  change execOversizeCommand c p s = _
  simp [execOversizeCommand, hrun, hc, hsize, hused, hroom, refuse, replied]

end

/-- Settles O31. -/
theorem counterEventAndUnassignedCommandsComplete : Obligations.CounterEventAndUnassignedCommandsComplete := by
  unfold Obligations.CounterEventAndUnassignedCommandsComplete
  exact fun p s => ⟨exec_counterRead, exec_counterSnapshot, exec_eventMaskSet_owner, exec_eventMaskSet_ring, accepts_eventMaskSet_mask, violationRead_shows,
    exec_unassignedOpcode, exec_oversizeCommand⟩

end Sys2Proof.Machine
end

section
/-! PROOF. The registers and doorbells of a command ring, and the owner's events (R60 to R63, R83), for O32; the MCTP endpoint (R57, R58, R439), for O33. -/

namespace Sys2Proof.Machine
open Sys2Proof

/-! The rings -/

section
variable {c : RingChan} {s : State}

/-- A size that a ring cannot have (R60). -/
def badRingSize (n : Nat) : Bool := n < 6 || 15 < n

theorem badRingSize_iff (n : Nat) : badRingSize n = true ↔ n < 6 ∨ 15 < n := by
  simp only [badRingSize, Bool.or_eq_true, decide_eq_true_eq]

theorem enableRing_eq (hp : ringPresent s c = true) (hen : (ring s c).enable = false) : enableRing c s =
    if [(ring s c).sqCfg, (ring s c).rqCfg, (ring s c).eqCfg].any badRingSize then modRing c (fun r => { r with cfgErr := true }) s
    else modRing c (fun r => { r with sqTail := 0, sqHead := 0, rqHead := 0, rqTail := 0, eqHead := 0, eqTail := 0, rqPhase := true, eqPhase := true, enable := true, running := true, seq := 0, mask := 0, unreported := 0 }) s := by
  simp only [enableRing, hp, hen, Bool.not_true, Bool.false_eq_true, if_false, List.any_cons, List.any_nil, Bool.or_false, badRingSize, Bool.or_assoc]

section
variable (hp : ringPresent s c = true)
include hp

theorem exec_enableSet_of_good (hen : (ring s c).enable = false) (hcfg : ∀ n ∈ [(ring s c).sqCfg, (ring s c).rqCfg, (ring s c).eqCfg], 6 ≤ n ∧ n ≤ 15) :
    exec (.hlinkCmdEnableSet c) s = .next (modRing c (fun r => { r with sqTail := 0, sqHead := 0, rqHead := 0, rqTail := 0, eqHead := 0, eqTail := 0, rqPhase := true, eqPhase := true, enable := true, running := true, seq := 0, mask := 0, unreported := 0 }) s) := by
  have hnone : [(ring s c).sqCfg, (ring s c).rqCfg, (ring s c).eqCfg].any badRingSize = false :=
    List.any_eq_false.mpr fun n hn => by have := hcfg n hn; rw [badRingSize_iff]; omega
  change Host.Outcome.next (enableRing c s) = _
  rw [enableRing_eq hp hen, hnone, if_neg Bool.false_ne_true]

theorem exec_enableSet_of_bad (hen : (ring s c).enable = false) (hcfg : ∃ n ∈ [(ring s c).sqCfg, (ring s c).rqCfg, (ring s c).eqCfg], n < 6 ∨ 15 < n) :
    exec (.hlinkCmdEnableSet c) s = .next (modRing c (fun r => { r with cfgErr := true }) s) := by
  have hany : [(ring s c).sqCfg, (ring s c).rqCfg, (ring s c).eqCfg].any badRingSize = true :=
    List.any_eq_true.mpr (hcfg.imp fun n hn => ⟨hn.1, (badRingSize_iff n).mpr hn.2⟩)
  change Host.Outcome.next (enableRing c s) = _
  rw [enableRing_eq hp hen, hany, if_pos rfl]

theorem exec_enableClear (hen : (ring s c).enable = true) :
    exec (.hlinkCmdEnableClear c) s = .next (modRing c (fun r => { r with enable := false, running := false }) (channelGone c s)) := by
  change execHlinkCmdEnableClear c s = _
  simp only [execHlinkCmdEnableClear, hp, hen, Bool.and_self, if_true]

theorem exec_eventEnableWrite (on : Bool) : exec (.hlinkCmdEventEnableWrite c on) s = .next (modRing c (fun r => { r with eventEnable := on }) s) := by
  change execHlinkCmdEventEnableWrite c on s = _
  simp only [execHlinkCmdEventEnableWrite, hp, if_true]

theorem exec_sqTail (v : Word) (hv : (ring s c).enable = false ∨ badTail (ring s c).sqCfg (ring s c).sqHead (ring s c).sqTail (v.toNat % 2 ^ 15) = false) :
    exec (.hlinkCmdSqTail c v) s = .next (modRing c (fun r => { r with sqTail := v.toNat % 2 ^ 15 }) s) := by
  change execHlinkCmdSqTail c v s = _
  rcases hv with hen | hgood
  · simp only [execHlinkCmdSqTail, hp, hen, Bool.not_true, Bool.not_false, Bool.false_eq_true, if_false, if_true]
  · simp only [execHlinkCmdSqTail, hp, hgood, Bool.not_true, Bool.false_eq_true, if_false, ite_self]

theorem exec_sqTail_bad (v : Word) (hen : (ring s c).enable = true) (hbad : badTail (ring s c).sqCfg (ring s c).sqHead (ring s c).sqTail (v.toNat % 2 ^ 15) = true) :
    exec (.hlinkCmdSqTail c v) s = .refused (.undefinedCase 62) := by
  change execHlinkCmdSqTail c v s = _
  simp only [execHlinkCmdSqTail, hp, hen, hbad, Bool.not_true, Bool.false_eq_true, if_false, if_true]

theorem exec_rqHead (v : Word) (hv : (ring s c).enable = false ∨ v.toNat % 2 ^ 15 < ringSize (ring s c).rqCfg) :
    exec (.hlinkCmdRqHead c v) s = .next (modRing c (fun r => { r with rqHead := v.toNat % 2 ^ 15 }) s) := by
  have hok : ((ring s c).enable && decide (ringSize (ring s c).rqCfg ≤ v.toNat % 2 ^ 15)) = false := by
    rcases hv with hen | hlt
    · rw [hen, Bool.false_and]
    · rw [decide_eq_false (Nat.not_le.mpr hlt), Bool.and_false]
  change execHlinkCmdRqHead c v s = _
  simp only [execHlinkCmdRqHead, hp, hok, Bool.not_true, Bool.false_eq_true, if_false]

theorem exec_rqHead_bad (v : Word) (hen : (ring s c).enable = true) (hv : ringSize (ring s c).rqCfg ≤ v.toNat % 2 ^ 15) :
    exec (.hlinkCmdRqHead c v) s = .refused (.undefinedCase 62) := by
  change execHlinkCmdRqHead c v s = _
  simp only [execHlinkCmdRqHead, hp, hen, hv, decide_true, Bool.and_self, Bool.not_true, Bool.false_eq_true, if_false, if_true]

theorem exec_eqHead (v : Word) (hv : (ring s c).enable = false ∨ v.toNat % 2 ^ 15 < ringSize (ring s c).eqCfg) :
    exec (.hlinkCmdEqHead c v) s = .next (reportLost c (modRing c (fun r => { r with eqHead := v.toNat % 2 ^ 15 }) s)) := by
  have hok : ((ring s c).enable && decide (ringSize (ring s c).eqCfg ≤ v.toNat % 2 ^ 15)) = false := by
    rcases hv with hen | hlt
    · rw [hen, Bool.false_and]
    · rw [decide_eq_false (Nat.not_le.mpr hlt), Bool.and_false]
  change execHlinkCmdEqHead c v s = _
  simp only [execHlinkCmdEqHead, hp, hok, Bool.not_true, Bool.false_eq_true, if_false]

theorem exec_eqHead_bad (v : Word) (hen : (ring s c).enable = true) (hv : ringSize (ring s c).eqCfg ≤ v.toNat % 2 ^ 15) :
    exec (.hlinkCmdEqHead c v) s = .refused (.undefinedCase 62) := by
  change execHlinkCmdEqHead c v s = _
  simp only [execHlinkCmdEqHead, hp, hen, hv, decide_true, Bool.and_self, Bool.not_true, Bool.false_eq_true, if_false, if_true]

end

theorem exec_ring_absent (v : Word) (on : Bool) (hp : ringPresent s c = false) :
    ∀ i ∈ [Instr.hlinkCmdEnableSet c, .hlinkCmdEnableClear c, .hlinkCmdEventEnableWrite c on, .hlinkCmdSqTail c v, .hlinkCmdRqHead c v, .hlinkCmdEqHead c v], exec i s = .next s := by
  have henSet : execHlinkCmdEnableSet c s = .next s := by simp [execHlinkCmdEnableSet, enableRing, hp]
  have henClear : execHlinkCmdEnableClear c s = .next s := by simp [execHlinkCmdEnableClear, hp]
  have hevents : execHlinkCmdEventEnableWrite c on s = .next s := by simp [execHlinkCmdEventEnableWrite, hp]
  have hsq : execHlinkCmdSqTail c v s = .next s := by simp [execHlinkCmdSqTail, hp]
  have hrq : execHlinkCmdRqHead c v s = .next s := by simp [execHlinkCmdRqHead, hp]
  have heq : execHlinkCmdEqHead c v s = .next s := by simp [execHlinkCmdEqHead, hp]
  simp only [List.forall_mem_cons, List.not_mem_nil, false_imp_iff, implies_true, and_true]
  exact ⟨henSet, henClear, hevents, hsq, hrq, heq⟩

/-! The owner's events (R83) -/

section
variable {e : Event} {r : List Event} (hheld : s.owner.held = e :: r) (hspoken : s.owner.spoken = true) (hfw : s.glb.fwRuns = true)
include hheld hspoken hfw

theorem exec_ownerEventSend (tries : Fin 5) (ht : tries.val ≠ 4) : exec (.ownerEventSend tries) s =
    .next (reportOwnerLost (emit (.event .owner (if s.nv.eventsToVdm then s.nv.ownerVdm else none) e) { s with owner := { s.owner with held := r } })) := by
  change execOwnerEventSend tries s = _
  simp only [execOwnerEventSend, hheld, hspoken, hfw, ht, Bool.not_true, Bool.or_self, Bool.false_eq_true, if_false]

theorem exec_ownerEventSend_lost :
    exec (.ownerEventSend 4) s = .next (reportOwnerLost { s with owner := { s.owner with held := r, unreported := s.owner.unreported + 1 } }) := by
  change execOwnerEventSend 4 s = _
  simp only [execOwnerEventSend, hheld, hspoken, hfw, Bool.not_true, Bool.or_self, Bool.false_eq_true, if_false]
  rfl

end

theorem exec_ownerEventSend_idle (tries : Fin 5) (h : s.owner.held = [] ∨ s.owner.spoken = false ∨ s.glb.fwRuns = false) : exec (.ownerEventSend tries) s = .next s := by
  change execOwnerEventSend tries s = _
  cases hheld : s.owner.held with
  | nil => simp only [execOwnerEventSend, hheld]
  | cons e r =>
    have hquiet : (!s.owner.spoken || !s.glb.fwRuns) = true := by simpa [hheld] using h
    simp only [execOwnerEventSend, hheld, hquiet, if_true]

end

/-- Settles O32. -/
theorem ringRegistersAndOwnerEventsComplete : Obligations.RingRegistersAndOwnerEventsComplete := by
  unfold Obligations.RingRegistersAndOwnerEventsComplete
  exact ⟨fun c s => ⟨exec_enableSet_of_good, exec_enableSet_of_bad, exec_enableClear, fun on hp => exec_eventEnableWrite hp on, fun v hp => exec_sqTail hp v,
      fun v hp => exec_sqTail_bad hp v, fun v hp => exec_rqHead hp v, fun v hp => exec_rqHead_bad hp v, fun v hp => exec_eqHead hp v,
      fun v hp => exec_eqHead_bad hp v, fun v on hp => exec_ring_absent v on hp⟩,
    fun s e r tries hheld hspoken hfw ht => exec_ownerEventSend hheld hspoken hfw tries ht, fun s e r => exec_ownerEventSend_lost,
    fun s tries => exec_ownerEventSend_idle tries⟩

/-! The MCTP endpoint -/

section
variable {path : MctpPath} {s : State}

theorem mctpReply_of_open (hopen : mctpOpen path s = true) (ws : List Nat) : mctpReply path ws s = emit (.mctp path ws) s := by
  rw [mctpReply, hopen, if_pos rfl]

theorem mctpReply_of_closed (hclosed : mctpOpen path s = false) (ws : List Nat) : mctpReply path ws s = s := by
  rw [mctpReply, hclosed, if_neg Bool.false_ne_true]

theorem mctpSetEndpointId_completes (op : BitVec 2) (eid : Byte) (hopen : mctpOpen path s = true) (hop : op.toNat < 2) (hlo : 8 ≤ eid.toNat) (hhi : eid.toNat ≠ 0xFF) :
    Completes (exec (.mctpSetEndpointId path op eid) s) fun t => mctpEid path t = eid ∧ t.out = .mctp path [1, 0, 0, eid.toNat, 0] :: s.out := by
  have hgood : ¬(2 ≤ op.toNat ∨ eid.toNat < 8 ∨ eid.toNat = 0xFF) := by omega
  have heq : exec (.mctpSetEndpointId path op eid) s = .next (emit (.mctp path [1, 0, 0, eid.toNat, 0]) (match path with
      | .smbus => { s with owner := { s.owner with smbusEid := eid } }
      | .vdm _ => { s with owner := { s.owner with vdmEid := eid } })) := by
    change execMctpSetEndpointId path op eid s = _
    cases path <;> simp only [execMctpSetEndpointId, hopen, hgood, Bool.not_true, Bool.false_eq_true, if_false]
  refine ⟨_, heq, ?_⟩
  cases path <;> exact ⟨rfl, rfl⟩

theorem exec_mctpSetEndpointId_bad (op : BitVec 2) (eid : Byte) (hopen : mctpOpen path s = true) (hbad : 2 ≤ op.toNat ∨ eid.toNat < 8 ∨ eid.toNat = 0xFF) :
    exec (.mctpSetEndpointId path op eid) s = .next (emit (.mctp path [1, 2]) s) := by
  change execMctpSetEndpointId path op eid s = _
  simp only [execMctpSetEndpointId, hopen, hbad, Bool.not_true, Bool.false_eq_true, if_false, if_true]

theorem exec_mctpGetEndpointId (hopen : mctpOpen path s = true) : exec (.mctpGetEndpointId path) s = .next (emit (.mctp path [2, 0, (mctpEid path s).toNat, 0, 0]) s) :=
  congrArg Host.Outcome.next (mctpReply_of_open hopen _)

theorem exec_mctpGetVersionSupport_base (ty : Byte) (hopen : mctpOpen path s = true) (hty : ty.toNat = 0xFF ∨ ty.toNat = 0) :
    exec (.mctpGetVersionSupport path ty) s = .next (emit (.mctp path [4, 0, 1, 0xF1, 0xF3, 0xFF, 0]) s) := by
  change execMctpGetVersionSupport path ty s = _
  rw [execMctpGetVersionSupport, if_pos hty, mctpReply_of_open hopen]

theorem exec_mctpGetVersionSupport_secured (ty : Byte) (hopen : mctpOpen path s = true) (hfw : s.glb.fwRuns = true) (hty : ty.toNat = 5 ∨ ty.toNat = 0x7E) :
    exec (.mctpGetVersionSupport path ty) s = .next (emit (.mctp path [4, 0, 1, freshNat s % 2 ^ 32]) (drawn1 s)) := by
  have hnot : ¬(ty.toNat = 0xFF ∨ ty.toNat = 0) := by omega
  change execMctpGetVersionSupport path ty s = _
  rw [execMctpGetVersionSupport, if_neg hnot, if_pos (by simpa [hfw] using hty), mctpReply_of_open (s := drawn1 s) hopen]

theorem exec_mctpGetVersionSupport_other (ty : Byte) (hopen : mctpOpen path s = true) (hty : ty.toNat ∉ [0xFF, 0, 5, 0x7E]) :
    exec (.mctpGetVersionSupport path ty) s = .next (emit (.mctp path [4, 0x80]) s) := by
  simp only [List.mem_cons, List.not_mem_nil, or_false, not_or] at hty
  obtain ⟨hff, h0, h5, h7e⟩ := hty
  change execMctpGetVersionSupport path ty s = _
  rw [execMctpGetVersionSupport, if_neg (by omega), if_neg (by simp [h5, h7e]), mctpReply_of_open hopen]

theorem exec_mctpGetMessageTypeSupport (hopen : mctpOpen path s = true) :
    exec (.mctpGetMessageTypeSupport path) s = .next (emit (.mctp path (if s.glb.fwRuns then [5, 0, 3, 0x00, 0x05, 0x7E] else [5, 0, 1, 0x00])) s) :=
  congrArg Host.Outcome.next (mctpReply_of_open hopen _)

theorem exec_mctpGetVdmSupport_set (hopen : mctpOpen path s = true) : exec (.mctpGetVdmSupport path 0) s = .next (emit (.mctp path [6, 0, 0xFF, 0, 0x7B, 0x4D, 0, 0]) s) :=
  congrArg Host.Outcome.next (mctpReply_of_open hopen _)

theorem exec_mctpGetVdmSupport_other (sel : Byte) (hopen : mctpOpen path s = true) (hsel : sel ≠ 0) :
    exec (.mctpGetVdmSupport path sel) s = .next (emit (.mctp path [6, 2]) s) := by
  have hne : sel.toNat ≠ 0 := fun h0 => hsel (BitVec.eq_of_toNat_eq h0)
  change execMctpGetVdmSupport path sel s = _
  rw [execMctpGetVdmSupport, if_neg hne, mctpReply_of_open hopen]

theorem exec_mctpMessageDiscarded (ic : Bool) (ty : Byte) (hopen : mctpOpen path s = true) (hty : ic = true ∨ ty.toNat ∉ [0, 5, 0x7E]) :
    exec (.mctpMessageDiscarded path ic ty) s = .next (count 0 0 10 1 s) := by
  have hcount : (ic || !((if s.glb.fwRuns then [0, 5, 0x7E] else [0]).contains ty.toNat)) = true := by
    rcases hty with hic | hno
    · rw [hic, Bool.true_or]
    · cases s.glb.fwRuns <;> simp_all
  change execMctpMessageDiscarded path ic ty s = _
  rw [execMctpMessageDiscarded, hopen, hcount, Bool.and_self, if_pos rfl]

theorem exec_mctp_closed (op : BitVec 2) (eid ty sel : Byte) (hclosed : mctpOpen path s = false) :
    ∀ i ∈ [Instr.mctpSetEndpointId path op eid, .mctpGetEndpointId path, .mctpGetMessageTypeSupport path, .mctpGetVdmSupport path sel, .mctpMessageDiscarded path true ty], exec i s = .next s := by
  have hset : execMctpSetEndpointId path op eid s = .next s := by simp [execMctpSetEndpointId, hclosed]
  have hget : execMctpGetEndpointId path s = .next s := congrArg Host.Outcome.next (mctpReply_of_closed hclosed _)
  have htypes : execMctpGetMessageTypeSupport path s = .next s := congrArg Host.Outcome.next (mctpReply_of_closed hclosed _)
  have hvdm : execMctpGetVdmSupport path sel s = .next s := by simp [execMctpGetVdmSupport, mctpReply_of_closed, hclosed]
  have hdrop : execMctpMessageDiscarded path true ty s = .next s := by simp [execMctpMessageDiscarded, hclosed]
  simp only [List.forall_mem_cons, List.not_mem_nil, false_imp_iff, implies_true, and_true]
  exact ⟨hset, hget, htypes, hvdm, hdrop⟩

end

/-- Settles O33. -/
theorem mctpRequestsComplete : Obligations.MctpRequestsComplete := by
  unfold Obligations.MctpRequestsComplete
  refine fun path s => ⟨mctpSetEndpointId_completes, exec_mctpSetEndpointId_bad, exec_mctpGetEndpointId, exec_mctpGetVersionSupport_base, exec_mctpGetVersionSupport_secured,
    exec_mctpGetVersionSupport_other, fun hopen hfw => ?types, fun hopen hfw => ?romTypes, exec_mctpGetVdmSupport_set, exec_mctpGetVdmSupport_other,
    exec_mctpMessageDiscarded, exec_mctp_closed⟩
  case types => rw [exec_mctpGetMessageTypeSupport hopen, hfw, if_pos rfl]
  case romTypes => rw [exec_mctpGetMessageTypeSupport hopen, hfw, if_neg Bool.false_ne_true]

end Sys2Proof.Machine
end

section
/-! PROOF. The SPDM responders and DOE Discovery (R92, R444 to R446), for O34. -/

namespace Sys2Proof.Machine
open Sys2Proof

theorem byte_toNat_eq_zero_iff (b : Byte) : b.toNat = 0 ↔ b = 0 := ⟨fun h => BitVec.eq_of_toNat_eq h, fun h => by rw [h]; rfl⟩

/-! A responder and its responses -/

section
variable (r : SpdmPort) (q : SpdmReq) (s : State)

theorem spdm_modSpdm (f : Spdm → Spdm) : spdm (modSpdm r f s) r = f (spdm s r) := by
  simp only [spdm, modSpdm, modSec, getElem_vmod, if_true]

variable (reqCode code p1 p2 : Nat) (body : List Byte) (grow : List Byte → Spdm → Spdm)

theorem spdm_spdmReply : spdm (spdmReply r q reqCode code p1 p2 body grow s) r =
    grow (reqBytes q reqCode ++ respBytes (spdm s r).version code p1 p2 body) (spdm s r) := spdm_modSpdm r s _

theorem spdmReply_out : (spdmReply r q reqCode code p1 p2 body grow s).out = .spdm r code p1 p2 body :: s.out := rfl

end

section
variable {r : SpdmPort} {q : SpdmReq} {s : State}

/-! A request that needs the whole negotiation -/

theorem spdmRun_of_unserved (f : State → State) (hs : spdmServed r s = false) : spdmRun r q f s = .next s := by
  rw [spdmRun, hs, Bool.not_false, if_pos rfl]

theorem spdmRun_of_barred (f : State → State) (hs : spdmServed r s = true) {e : Nat} (hb : spdmBars r q 3 s = some e) : spdmRun r q f s = .next (spdmError r e 0 s) := by
  simp only [spdmRun, hs, hb, Bool.not_true, Bool.false_eq_true, if_false]

theorem spdmRun_of_clear (f : State → State) (hs : spdmServed r s = true) (hb : spdmBars r q 3 s = none) : spdmRun r q f s = .next (f s) := by
  simp only [spdmRun, hs, hb, Bool.not_true, Bool.false_eq_true, if_false]

theorem exec_spdm_runs (r : SpdmPort) (q : SpdmReq) (s : State) : ∃ certificate challenge measurements, exec (.spdmGetCertificate r q) s = spdmRun r q certificate s ∧
    exec (.spdmChallenge r q) s = spdmRun r q challenge s ∧ exec (.spdmGetMeasurements r q) s = spdmRun r q measurements s := by
  change ∃ certificate challenge measurements, execSpdmGetCertificate r q s = spdmRun r q certificate s ∧
    execSpdmChallenge r q s = spdmRun r q challenge s ∧ execSpdmGetMeasurements r q s = spdmRun r q measurements s
  unfold execSpdmGetCertificate execSpdmChallenge execSpdmGetMeasurements
  exact ⟨_, _, _, rfl, rfl, rfl⟩

/-! Each request served -/

section
variable (hs : spdmServed r s = true)
include hs

theorem exec_spdmGetVersion (hv : q.version = 0x10) : exec (.spdmGetVersion r q) s = .next
    (spdmReply r q 0x84 0x04 0 0 [0, 2, 0, 0x12, 0, 0x13] growVca (modSpdm r (fun _ => { Spdm.reset with stage := 1, version := 0x10 }) s)) := by
  have hnum : ¬q.version.toNat ≠ 0x10 := by rw [hv]; decide
  change execSpdmGetVersion r q s = _
  simp only [execSpdmGetVersion, hs, hnum, Bool.not_true, Bool.false_eq_true, if_false]

theorem exec_spdmGetCapabilities (hb : spdmBars r q 1 s = none) : exec (.spdmGetCapabilities r q) s = .next
    (spdmReply r q 0xE1 0x61 0 0 ([0, 20, 0, 0] ++ leBytes 4 0x16 ++ leBytes 4 4096 ++ leBytes 4 4096) growVca (modSpdm r (fun i => { i with stage := 2, version := q.version.toNat }) s)) := by
  change execSpdmGetCapabilities r q s = _
  simp only [execSpdmGetCapabilities, hs, hb, Bool.not_true, Bool.false_eq_true, if_false]

theorem exec_spdmGetCapabilities_barred {e : Nat} (hb : spdmBars r q 1 s = some e) : exec (.spdmGetCapabilities r q) s = .next (spdmError r e 0 s) := by
  change execSpdmGetCapabilities r q s = _
  simp only [execSpdmGetCapabilities, hs, hb, Bool.not_true, Bool.false_eq_true, if_false]

theorem spdmNegotiateAlgorithms_completes (hb : spdmBars r q 2 s = none) (hasym : bitAt (leNat (slice q.body 4 4)) 7 = true) (hhash : bitAt (leNat (slice q.body 8 4)) 1 = true) :
    Completes (exec (.spdmNegotiateAlgorithms r q) s) fun t => (spdm t r).stage = 3 ∧ ∃ b, t.out = .spdm r 0x63 0 0 b :: s.out := by
  have heq : ∃ body, execSpdmNegotiateAlgorithms r q s = .next (spdmReply r q 0xE3 0x63 0 0 body growVca (modSpdm r (fun i => { i with stage := 3 }) s)) :=
    ⟨_, by simp only [execSpdmNegotiateAlgorithms, hs, hb, hasym, hhash, Bool.not_true, Bool.or_self, Bool.false_eq_true, if_false]; rfl⟩
  obtain ⟨body, heq⟩ := heq
  exact ⟨_, heq, by rw [spdm_spdmReply, spdm_modSpdm]; rfl, body, rfl⟩

theorem exec_spdmNegotiateAlgorithms_barred {e : Nat} (hb : spdmBars r q 2 s = some e) : exec (.spdmNegotiateAlgorithms r q) s = .next (spdmError r e 0 s) := by
  change execSpdmNegotiateAlgorithms r q s = _
  simp only [execSpdmNegotiateAlgorithms, hs, hb, Bool.not_true, Bool.false_eq_true, if_false]

theorem exec_spdm_barred {e : Nat} (hb : spdmBars r q 3 s = some e) :
    ∀ i ∈ [Instr.spdmGetDigests r q, .spdmGetCertificate r q, .spdmChallenge r q, .spdmGetMeasurements r q], exec i s = .next (spdmError r e 0 s) := by
  simp only [List.forall_mem_cons, List.not_mem_nil, false_imp_iff, implies_true, and_true]
  obtain ⟨certificate, challenge, measurements, hcert, hchal, hmeas⟩ := exec_spdm_runs r q s
  exact ⟨spdmRun_of_barred _ hs hb, hcert ▸ spdmRun_of_barred _ hs hb, hchal ▸ spdmRun_of_barred _ hs hb, hmeas ▸ spdmRun_of_barred _ hs hb⟩

theorem exec_spdmUnsupportedRequest (hcode : q.code.toNat ∉ [0x81, 0x82, 0x83, 0x84, 0xE0, 0xE1, 0xE3]) :
    exec (.spdmUnsupportedRequest r q) s = .next (spdmError r 7 q.code.toNat s) := by
  have hno : [0x81, 0x82, 0x83, 0x84, 0xE0, 0xE1, 0xE3].contains q.code.toNat = false := by simpa using hcode
  change execSpdmUnsupportedRequest r q s = _
  simp only [execSpdmUnsupportedRequest, hs, hno, Bool.not_false, Bool.and_self, if_true]

variable (hb : spdmBars r q 3 s = none)
include hb

theorem exec_spdmGetDigests : exec (.spdmGetDigests r q) s =
    .next (spdmReply r q 0x81 0x01 (if (spdm s r).version = 0x13 then 1 else 0) 1 (Config.sha384 Config.certChain) growM s) := spdmRun_of_clear _ hs hb

theorem exec_spdmGetCertificate (hslot : q.param1.toNat % 16 = 0) (hwant : leNat (slice q.body 2 2) ≠ 0) : exec (.spdmGetCertificate r q) s = .next (
    let off := leNat (slice q.body 0 2)
    let n := min (min (leNat (slice q.body 2 2)) 4088) (Config.certChain.length - off)
    if Config.certChain.length ≤ off then spdmError r 1 0 s
    else spdmReply r q 0x82 0x02 0 0 (leBytes 2 n ++ leBytes 2 (Config.certChain.length - off - n) ++ slice Config.certChain off n) growM s) := by
  change execSpdmGetCertificate r q s = _
  rw [execSpdmGetCertificate, spdmRun_of_clear _ hs hb]
  simp only [hslot, hwant, ne_eq, not_true, false_or, or_false]

theorem spdmChallenge_completes (h1 : q.param1 = 0) (h2 : q.param2.toNat ∈ [0, 1, 0xFF]) : Completes (exec (.spdmChallenge r q) s) fun t =>
    (spdm t r).transcript = (spdm s r).vca ∧ (spdm t r).measured = [] ∧ ∃ b, t.out = .spdm r 0x03 0 1 (Config.sha384 Config.certChain ++ Config.freeBytes s.drawn 32 ++ b) :: s.out := by
  have hgood : ¬(q.param1.toNat ≠ 0 ∨ (!([0, 1, 0xFF].contains q.param2.toNat)) = true) := by
    rw [(byte_toNat_eq_zero_iff _).mpr h1, List.contains_iff_mem.mpr h2]; decide
  change Completes (execSpdmChallenge r q s) _
  rw [execSpdmChallenge, spdmRun_of_clear _ hs hb, if_neg hgood]
  refine ⟨_, rfl, ?_⟩
  dsimp only
  rw [spdm_spdmReply, spdmReply_out]
  exact ⟨rfl, rfl, _, by rw [List.append_assoc, List.append_assoc, List.append_assoc]; rfl⟩

theorem spdmGetMeasurements_completes (h2 : q.param2.toNat = 0xFF ∨ q.param2.toNat ≤ 20) (hsign : bitAt q.param1.toNat 0 = false) : Completes (exec (.spdmGetMeasurements r q) s) fun t =>
    ∃ b, t.out = .spdm r 0x60 (if q.param2 = 0 then 20 else 0) 0 b :: s.out ∧ (spdm t r).vca = (spdm s r).vca := by
  have hgood : ¬((q.param2.toNat ≠ 0xFF ∧ 20 < q.param2.toNat) ∨ (bitAt q.param1.toNat 0 = true ∧ (slice q.body 32 1).any (· != 0) = true)) := by
    rw [hsign]; simp; omega
  change Completes (execSpdmGetMeasurements r q s) _
  rw [execSpdmGetMeasurements, spdmRun_of_clear _ hs hb, if_neg hgood, hsign, if_neg Bool.false_ne_true]
  refine ⟨_, rfl, ?_⟩
  dsimp only
  rw [spdm_spdmReply, spdmReply_out]
  simp only [byte_toNat_eq_zero_iff]
  exact ⟨_, rfl, rfl⟩

theorem spdmGetMeasurements_signed (h2 : q.param2.toNat = 0xFF ∨ q.param2.toNat ≤ 20) (hsign : bitAt q.param1.toNat 0 = true)
    (hslot : (slice q.body 32 1).any (· != 0) = false) : Completes (exec (.spdmGetMeasurements r q) s) fun t =>
      (∃ b, t.out = .spdm r 0x60 (if q.param2 = 0 then 20 else 0) 0 b :: s.out) ∧ (spdm t r).measured = [] := by
  have hgood : ¬((q.param2.toNat ≠ 0xFF ∧ 20 < q.param2.toNat) ∨ (bitAt q.param1.toNat 0 = true ∧ (slice q.body 32 1).any (· != 0) = true)) := by
    rw [hslot]; simp; omega
  change Completes (execSpdmGetMeasurements r q s) _
  rw [execSpdmGetMeasurements, spdmRun_of_clear _ hs hb, if_neg hgood, hsign, if_pos rfl]
  refine ⟨_, rfl, ?_⟩
  dsimp only
  rw [spdm_spdmReply, spdmReply_out]
  simp only [byte_toNat_eq_zero_iff]
  exact ⟨⟨_, rfl⟩, trivial⟩

end

theorem exec_spdm_unserved (hs : spdmServed r s = false) : ∀ i ∈ [Instr.spdmGetVersion r q, .spdmGetCapabilities r q, .spdmNegotiateAlgorithms r q, .spdmGetDigests r q,
    .spdmGetCertificate r q, .spdmChallenge r q, .spdmGetMeasurements r q, .spdmUnsupportedRequest r q], exec i s = .next s := by
  have hversion : execSpdmGetVersion r q s = .next s := by simp [execSpdmGetVersion, hs]
  have hcaps : execSpdmGetCapabilities r q s = .next s := by simp [execSpdmGetCapabilities, hs]
  have halgs : execSpdmNegotiateAlgorithms r q s = .next s := by simp [execSpdmNegotiateAlgorithms, hs]
  have hother : execSpdmUnsupportedRequest r q s = .next s := by simp [execSpdmUnsupportedRequest, hs]
  simp only [List.forall_mem_cons, List.not_mem_nil, false_imp_iff, implies_true, and_true]
  obtain ⟨certificate, challenge, measurements, hcert, hchal, hmeas⟩ := exec_spdm_runs r q s
  exact ⟨hversion, hcaps, halgs, spdmRun_of_unserved _ hs, hcert ▸ spdmRun_of_unserved _ hs, hchal ▸ spdmRun_of_unserved _ hs,
    hmeas ▸ spdmRun_of_unserved _ hs, hother⟩

end

/-! DOE Discovery (R92) -/

theorem exec_doeDiscovery (h : HostId) (ix : Byte) (s : State) (hup : linkUp s h = true) : exec (.doeDiscovery h ix) s = .next
    (emit (.doe h [0x0001, 3, if ix = 0 then 0x0001 + b2n s.glb.fwRuns * 2 ^ 24 else if ix = 1 ∧ s.glb.fwRuns = true then 0x00010001 else 0xFFFF]) s) := by
  have hone : ix.toNat = 1 ↔ ix = 1 := ⟨fun hx => BitVec.eq_of_toNat_eq hx, fun hx => by rw [hx]; rfl⟩
  change execDoeDiscovery h ix s = _
  simp only [execDoeDiscovery, hup, if_true, byte_toNat_eq_zero_iff, hone, Nat.reduceAdd]

theorem exec_doeDiscovery_down (h : HostId) (ix : Byte) (s : State) (hdown : linkUp s h = false) : exec (.doeDiscovery h ix) s = .next s := by
  change execDoeDiscovery h ix s = _
  simp only [execDoeDiscovery, hdown, Bool.false_eq_true, if_false]

/-- Settles O34. -/
theorem spdmAndDoeRequestsComplete : Obligations.SpdmAndDoeRequestsComplete := by
  unfold Obligations.SpdmAndDoeRequestsComplete
  refine ⟨fun r q s => ⟨exec_spdmGetVersion, exec_spdmGetCapabilities, spdmNegotiateAlgorithms_completes, exec_spdmGetDigests, exec_spdmGetCertificate,
    spdmChallenge_completes, spdmGetMeasurements_completes, spdmGetMeasurements_signed, exec_spdmUnsupportedRequest, fun n e hs hb => ⟨?caps, ?algs, ?rest⟩,
    exec_spdm_unserved⟩, exec_doeDiscovery, exec_doeDiscovery_down⟩
  case caps => rintro rfl; exact exec_spdmGetCapabilities_barred hs hb
  case algs => rintro rfl; exact exec_spdmNegotiateAlgorithms_barred hs hb
  case rest => rintro rfl; exact exec_spdm_barred hs hb

end Sys2Proof.Machine
end

section
/-! PROOF. Attach, detach, retraining and lane faults of a host link, the load of its units' defaults, and ATS invalidations (R42, R87 to R89, R113 to R116, R463), for O35. -/

namespace Sys2Proof.Machine
open Sys2Proof

/-! What leaves the links as they are -/

theorem link_of_hosts_eq {s t : State} (h : t.hosts = s.hosts) (a : HostId) : link t a = link s a := by rw [link, h, link]

theorem raiseOwner_hosts (type source tag : Nat) (payload : List Nat) (s : State) : (raiseOwner type source tag payload s).hosts = s.hosts :=
  changesOnly_hosts (raiseOwner_frame type source tag payload s) (by decide)

theorem raiseLinkUp_hosts (a : HostId) (s : State) : (raiseLinkUp a s).hosts = s.hosts := raiseOwner_hosts ..

theorem reloadUnit_hosts (i : Fin 32) (s : State) : (reloadUnit i s).hosts = s.hosts :=
  changesOnly_hosts (L := [.parse, .cls, .sched, .net]) ((reloadUnit_only i s (by decide) (by decide) (by decide) (by decide)).mpr (changesOnly_refl _ s)) (by decide)

section
variable {h : HostId} {s : State}

/-! Attach (R114 to R116) -/

/-- The width a link trains to, without the lanes it has lost. -/
theorem attachHost_link (t : LinkTraining) (hw : widthWithout [16, 8, 4, 1] (link (noteBadLanes h t.badLanes s) h).lostLanes t.width ≠ 0) :
    (link (attachHost h t s) h).state = 3 ∧ (link (attachHost h t s) h).width = widthWithout [16, 8, 4, 1] (link (noteBadLanes h t.badLanes s) h).lostLanes t.width ∧
    (link (attachHost h t s) h).speed = t.speed ∧ (link (attachHost h t s) h).flit = (t.flit || decide (6 ≤ t.speed)) ∧ (link (attachHost h t s) h).dlUp = true ∧
    (link (attachHost h t s) h).attachDue = none := by
  have hreload (u : State) (i : Fin 32) : (if (unitAt u i).phase = .idle ∧ !(unitAt u i).defaultsDue then reloadUnit i u else u).hosts = u.hosts := by
    split
    · exact reloadUnit_hosts i u
    · rfl
  simp only [attachHost, hw, if_false, link_of_hosts_eq (raiseLinkUp_hosts h _), link_of_hosts_eq (foldl_eq_of_step hreload _ _), link_modLink, if_true, and_self]

theorem execHostAttach_of_ready (t : LinkTraining) (hp : s.glb.powered = true) (hst : (link s h).state ≠ 3) (href : s.clk.hostRefs[h] = true)
    (hlost : isLost s 0x12 h.val = false) (hboot : s.glb.mode ≠ .boot) (hpark : s.glb.mode ≠ .park) : exec (.hostAttach h t) s = .next (attachHost h t s) := by
  change execHostAttach h t s = _
  rw [execHostAttach, hp, href, hlost, beq_eq_false_iff_ne.mpr hst, if_neg (by decide)]
  cases hm : s.glb.mode <;> simp_all

theorem exec_hostAttach_boot (t : LinkTraining) (hp : s.glb.powered = true) (hst : (link s h).state ≠ 3) (href : s.clk.hostRefs[h] = true)
    (hlost : isLost s 0x12 h.val = false) (hboot : s.glb.mode = .boot) :
    exec (.hostAttach h t) s = .next (modLink h (fun l => { l with attachDue := some t, state := 2, dlUp := true, perst := false }) s) := by
  change execHostAttach h t s = _
  rw [execHostAttach, hp, href, hlost, beq_eq_false_iff_ne.mpr hst, if_neg (by decide), hboot]

theorem exec_hostAttach_refused (t : LinkTraining) (hno : s.glb.powered = false ∨ (link s h).state = 3 ∨ s.clk.hostRefs[h] = false ∨ isLost s 0x12 h.val = true ∨ s.glb.mode = .park) :
    exec (.hostAttach h t) s = .next s := by
  change execHostAttach h t s = _
  rw [execHostAttach]
  rcases hno with hp | hst | href | hlost | hpark
  · simp [hp]
  · simp [hst]
  · simp [href]
  · simp [hlost]
  · rw [hpark, ite_self]

/-! Detach (R116) -/

theorem detachHost_of_attached (c : DetachCause) (hst : (link s h).state = 3) : (link (detachHost h c s) h).state = 0 ∧ (link (detachHost h c s) h).dlUp = false ∧
    (link (detachHost h c s) h).width = 0 ∧ (link (detachHost h c s) h).recoveryCount = 0 ∧ (link (detachHost h c s) h).perst = ((link s h).perst || c == .perst) := by
  simp only [detachHost, hst, link_of_hosts_eq (raiseOwner_hosts _ _ _ _ _), link_modLink, if_true, if_false, Nat.reduceEqDiff, ne_eq, not_true, and_self]

theorem detachHost_of_training (c : DetachCause) (h3 : (link s h).state ≠ 3) (h0 : (link s h).state ≠ 0) :
    (link (detachHost h c s) h).state = 0 ∧ (link (detachHost h c s) h).dlUp = false ∧ (link (detachHost h c s) h).attachDue = none := by
  simp only [detachHost, h3, h0, link_modLink, if_true, if_false, ne_eq, not_false_iff, and_self]

theorem exec_hostDetach_down (c : DetachCause) (h0 : (link s h).state = 0) : exec (.hostDetach h c) s = .next (modLink h (fun l => { l with perst := l.perst || c == .perst }) s) := by
  change Host.Outcome.next (detachHost h c s) = _
  rw [detachHost, if_pos h0]
  simp only [modLink, link, vmod]

/-! Width and speed (R88, R89, R463) -/

/-- Width, speed and the end of Recovery are shown and reported. -/
theorem linkWidthChange_completes (t : LinkTraining) (hup : linkUp s h = true) (hw : widthWithout [16, 8, 4, 1] (link (noteBadLanes h t.badLanes s) h).lostLanes t.width ≠ 0) :
    Completes (exec (.linkWidthChange h t) s) fun u =>
      (link u h).width = widthWithout [16, 8, 4, 1] (link (noteBadLanes h t.badLanes s) h).lostLanes t.width ∧ (link u h).speed = t.speed ∧ (link u h).retraining = false ∧
      (link u h).state = (link (noteBadLanes h t.badLanes s) h).state := by
  change Completes (execLinkWidthChange h t s) _
  simp only [execLinkWidthChange, hup, hw, Bool.not_true, Bool.false_eq_true, if_false]
  refine ⟨_, rfl, ?_⟩
  simp only [link_of_hosts_eq (raiseLinkUp_hosts h _), link_modLink, if_true, and_self]

section
variable (lane : Fin 16) (hnew : (link s h).lostLanes.contains lane.val = false) (hfw : s.glb.fwRuns = true) (hup : linkUp s h = true)
include hnew hfw hup

theorem exec_laneFault_zero (hz : lane.val = 0) : exec (.hostLaneFaultInService h lane) s = .next (detachHost h .dlDown (failHostLane 6 h.val lane.val s)) := by
  change execHostLaneFaultInService h lane s = _
  rw [execHostLaneFaultInService, hnew, hfw, hup, if_neg (by decide), if_neg (by decide), if_pos hz]

theorem laneFault_completes (hz : lane.val ≠ 0) : Completes (exec (.hostLaneFaultInService h lane) s) fun u =>
    (link u h).width = widthWithout [16, 8, 4, 1] (link (failHostLane 6 h.val lane.val s) h).lostLanes (link s h).width ∨
      (u = failHostLane 6 h.val lane.val s ∧ widthWithout [16, 8, 4, 1] (link (failHostLane 6 h.val lane.val s) h).lostLanes (link s h).width = (link s h).width) := by
  change Completes (execHostLaneFaultInService h lane s) _
  simp only [execHostLaneFaultInService, hnew, hfw, hup, hz, Bool.not_true, Bool.or_self, Bool.false_eq_true, if_false]
  refine ⟨_, rfl, ?_⟩
  dsimp only
  split
  case isTrue hsame => exact .inr ⟨rfl, hsame⟩
  case isFalse hless => exact .inl (by simp only [link_of_hosts_eq (raiseLinkUp_hosts h _), link_modLink, if_true])

end

theorem exec_laneFault_known (lane : Fin 16) (hno : (link s h).lostLanes.contains lane.val = true ∨ s.glb.fwRuns = false) :
    exec (.hostLaneFaultInService h lane) s = .next s := by
  have hskip : ((link s h).lostLanes.contains lane.val || !s.glb.fwRuns) = true := by
    rcases hno with hc | hf
    · rw [hc, Bool.true_or]
    · rw [hf, Bool.not_false, Bool.or_true]
  change execHostLaneFaultInService h lane s = _
  rw [execHostLaneFaultInService, if_pos hskip]

/-! Recovery, defaults and ATS (R42, R87) -/

theorem exec_linkRecovery (hup : linkUp s h = true) :
    exec (.linkRecoveryEntry h) s = .next (modLink h (fun l => { l with retraining := true, recoveryCount := satAdd 0xFF l.recoveryCount 1 }) s) ∧
    exec (.linkRecoveryExit h) s = .next (modLink h (fun l => { l with retraining := false }) s) :=
  ⟨congrArg Host.Outcome.next (if_pos hup), congrArg Host.Outcome.next (if_pos hup)⟩

theorem exec_unitDefaultsLoad (hdue : ((unitsOfHost h).map (unitAt s)).any (·.defaultsDue) = true)
    (hidle : ((unitsOfHost h).map (unitAt s)).all (fun u => u.phase == .idle || u.phase == .armed) = true) : exec (.hostUnitDefaultsLoad h) s = .next (loadDefaults h s) := by
  change execHostUnitDefaultsLoad h s = _
  simp only [execHostUnitDefaultsLoad, hdue, hidle, Bool.and_self, if_true]

theorem exec_unitDefaultsLoad_none (hdue : ((unitsOfHost h).map (unitAt s)).any (·.defaultsDue) = false) : exec (.hostUnitDefaultsLoad h) s = .next s := by
  change execHostUnitDefaultsLoad h s = _
  simp only [execHostUnitDefaultsLoad, hdue, Bool.false_and, Bool.false_eq_true, if_false]

theorem exec_atsInvalidation (f : Fn) (hp : present s h f = true) (hf : f ≠ .pf2) : exec (.atsInvalidationRequest h f) s = .next (emit (.atsCompletion h f) s) := by
  change execAtsInvalidationRequest h f s = _
  rw [execAtsInvalidationRequest, hp, bne_iff_ne.mpr hf, Bool.and_self, if_pos rfl]

theorem exec_link_down (t : LinkTraining) (f : Fn) (hdown : linkUp s h = false) (habsent : present s h f = false) :
    ∀ i ∈ [Instr.linkRecoveryEntry h, .linkRecoveryExit h, .linkWidthChange h t, .atsInvalidationRequest h f], exec i s = .next s := by
  have hentry : execLinkRecoveryEntry h s = .next s := by simp [execLinkRecoveryEntry, hdown]
  have hexit : execLinkRecoveryExit h s = .next s := by simp [execLinkRecoveryExit, hdown]
  have hwidth : execLinkWidthChange h t s = .next s := by simp [execLinkWidthChange, hdown]
  have hats : execAtsInvalidationRequest h f s = .next s := by simp [execAtsInvalidationRequest, habsent]
  simp only [List.forall_mem_cons, List.not_mem_nil, false_imp_iff, implies_true, and_true]
  exact ⟨hentry, hexit, hwidth, hats⟩

end

/-- Settles O35. -/
theorem hostLinkEventsComplete : Obligations.HostLinkEventsComplete := by
  unfold Obligations.HostLinkEventsComplete
  exact fun h s => ⟨fun t hp hst href hlost hboot hpark hw => ⟨_, execHostAttach_of_ready t hp hst href hlost hboot hpark, attachHost_link t hw⟩,
    exec_hostAttach_boot, exec_hostAttach_refused, fun c hst => ⟨_, rfl, detachHost_of_attached c hst⟩, fun c h3 h0 => ⟨_, rfl, detachHost_of_training c h3 h0⟩,
    exec_hostDetach_down, exec_unitDefaultsLoad, exec_unitDefaultsLoad_none, exec_linkRecovery, linkWidthChange_completes, exec_laneFault_zero, laneFault_completes,
    exec_laneFault_known, exec_atsInvalidation, exec_link_down⟩

end Sys2Proof.Machine
end

section
/-! PROOF. The controls of a function: resets, Bus Master Enable, VF Enable, MSI-X unmasking, configuration writes and the INTx status (R91, R92, R95, R96, R105, R111 to R113, R116), for O36. -/

namespace Sys2Proof.Machine
open Sys2Proof

/-! Functions have keys of their own -/

theorem fnOfIndex_index (f : Fn) : fnOfIndex f.index = f := by
  cases f with
  | vf v =>
    have hmod : (v.val + 3 - 3) % 512 = v.val := by omega
    simp only [Fn.index, Nat.add_comm 3, fnOfIndex, hmod]
  | _ => rfl

theorem fnKey_ne {h : HostId} {f g : Fn} (hne : g ≠ f) : fnKey h g ≠ fnKey h f := by
  intro hkey
  have hindex : g.index = f.index := by unfold fnKey at hkey; omega
  exact hne (by rw [← fnOfIndex_index g, hindex, fnOfIndex_index])

theorem fnOf_modFn_other {h : HostId} {f g : Fn} (hne : g ≠ f) (k : FnState → FnState) (s : State) : fnOf (modFn h f k s) h g = fnOf s h g :=
  Tbl.getD_put_other _ _ _ _ _ (fnKey_ne hne)

/-! A word written with every byte enabled -/

theorem bitAt_fifteen {i : Nat} (h : i < 4) : bitAt 15 i = true := by
  match i, h with
  | 0, _ => rfl
  | 1, _ => rfl
  | 2, _ => rfl
  | 3, _ => rfl

theorem mergeBytes_fifteen (old v : Nat) : mergeBytes old v 15 = bitsAt v 0 8 * 2 ^ 0 + bitsAt v 8 8 * 2 ^ 8 + bitsAt v 16 8 * 2 ^ 16 + bitsAt v 24 8 * 2 ^ 24 := by
  rw [mergeBytes, upFrom, upFrom, upFrom, upFrom, upFrom, List.foldl_cons, List.foldl_cons, List.foldl_cons, List.foldl_cons, List.foldl_nil,
    if_pos (bitAt_fifteen (by decide)), if_pos (bitAt_fifteen (by decide)), if_pos (bitAt_fifteen (by decide)), if_pos (bitAt_fifteen (by decide)), Nat.zero_add]

theorem sum_four_bytes {v : Nat} (hv : v < 4294967296) : v % 256 + v / 256 % 256 * 256 + v / 65536 % 256 * 65536 + v / 16777216 % 256 * 16777216 = v := by omega

theorem mergeBytes_full (old : Nat) {v : Nat} (hv : v < 4294967296) : mergeBytes old v 15 = v := by
  rw [mergeBytes_fifteen]
  simp only [bitsAt, Nat.pow_zero, Nat.div_one, Nat.mul_one, Nat.reducePow]
  exact sum_four_bytes hv

theorem intxStatus_refreshInta (h : HostId) (s : State) : (link (refreshInta h s) h).intxStatus = (link s h).intxStatus := by
  unfold refreshInta
  split
  · rfl
  · change (link (modLink h _ s) h).intxStatus = _
    rw [link_modLink, if_pos rfl]

section
variable {h : HostId} {f : Fn} {s : State}

/-! Resets (R112) -/

theorem exec_initiateFlr (hp : present s h f = true) : exec (.initiateFlr h f) s = .next (resetFns h (coveredBy s h f) f 1 s) :=
  congrArg Host.Outcome.next (if_pos hp)

theorem exec_d3hotToD0 (hp : present s h f = true) (hd3 : (fnOf s h f).d3 = true) : exec (.d3hotToD0 h f) s = .next (resetFns h (coveredBy s h f) f 2 s) := by
  change Host.Outcome.next (leaveD3 h f s) = _
  rw [leaveD3, hp, hd3, Bool.and_self, if_pos rfl]

theorem exec_d3hotToD0_none (hno : present s h f = false ∨ (fnOf s h f).d3 = false) : exec (.d3hotToD0 h f) s = .next s := by
  have hskip : (present s h f && (fnOf s h f).d3) = false := Bool.and_eq_false_iff.mpr hno
  change Host.Outcome.next (leaveD3 h f s) = _
  rw [leaveD3, hskip, if_neg Bool.false_ne_true]

/-! VF Enable (R91, R113) -/

section
variable (hup : linkUp s h = true) (hpf : f = .pf0 ∨ f = .pf1)
include hup hpf

theorem exec_vfEnableClear (hen : (fnOf s h f).vfEnable = true) :
    exec (.vfEnableClear h f) s = .next (modFn h f (fun x => { x with vfEnable := false }) (resetFns h (enabledVfs s h f) f 3 s)) := by
  have hgo : (!linkUp s h || !(f == .pf0 || f == .pf1) || !(fnOf s h f).vfEnable) = false := by
    rcases hpf with rfl | rfl <;> rw [hup, hen] <;> rfl
  change Host.Outcome.next (clearVfEnable h f s) = _
  rw [clearVfEnable, hgo, if_neg Bool.false_ne_true]

theorem exec_vfEnableSet : exec (.vfEnableSet h f) s = .next (modFn h f (fun x => { x with vfEnable := true }) s) := by
  have hgo : (linkUp s h && (f == .pf0 || f == .pf1)) = true := by
    rcases hpf with rfl | rfl <;> rw [hup] <;> rfl
  change Host.Outcome.next (setVfEnable h f s) = _
  rw [setVfEnable, hgo, if_pos rfl]

end

/-! Bus Master Enable (R95, R105) -/

section
variable (hp : present s h f = true)
include hp

theorem clearBme_of_set (hb : (fnOf s h f).bme = true) : clearBme h f s = settleAbandoned h f (abandonReads h (fun g => g == f) 3 (modFn h f (fun x => { x with bme := false }) s)) := by
  rw [clearBme, hp, hb, if_neg (by decide)]

theorem clearBme_of_clear (hb : (fnOf s h f).bme = false) : clearBme h f s = s := by
  rw [clearBme, hp, hb, if_pos (by decide)]

theorem setBme_of_clear (hb : (fnOf s h f).bme = false) : setBme h f s = kickQueues (fun h' f' => h' == h && f' == f)
    ((fnOf s h f).heldVecs.foldl (fun u v => if vectorLive u h f v then signalVector h f v u else u) (modFn h f (fun x => { x with bme := true, heldVecs := [] }) s)) := by
  rw [setBme, hp, hb, if_neg (by decide)]

theorem setBme_of_set (hb : (fnOf s h f).bme = true) : setBme h f s = s := by
  rw [setBme, hp, hb, if_pos (by decide)]

/-! MSI-X (R95) and configuration writes (R92) -/

theorem exec_msixUnmask_all : exec (.msixUnmask h f none) s = .next (sendPending h f (modFn h f (fun x => { x with msixMask := false }) s)) := by
  change Host.Outcome.next (unmask h f none s) = _
  rw [unmask, hp, if_neg (by decide)]

theorem exec_msixUnmask_one (v : Fin 2048) (hv : v.val < msixSize f) :
    exec (.msixUnmask h f (some v)) s = .next (sendPending h f (modFn h f (fun x => { x with unmasked := insertNat x.unmasked v.val }) s)) := by
  change Host.Outcome.next (unmask h f (some v.val) s) = _
  simp only [unmask, hp, Bool.not_true, Bool.false_eq_true, if_false, if_neg (Nat.not_le.mpr hv)]

theorem exec_configWrite (off : BitVec 12) (v : Word) (be : BitVec 4) : exec (.configWrite h f off v be) s =
    .next (cfgWrite h f (off.toNat / 4 * 4) (mergeBytes (cfgRead s h f (off.toNat / 4 * 4)) v.toNat be.toNat) s) := by
  change execConfigWrite h f off v be s = _
  rw [execConfigWrite, hp, if_pos rfl]

theorem exec_configWrite_command (v : Word) : exec (.configWrite h f 4 v 15) s = .next (
    let t := refreshInta h (modFn h f (fun x => { x with mse := bitAt v.toNat 1, intxDisable := bitAt v.toNat 10 }) s)
    if bitAt v.toNat 2 then setBme h f t else clearBme h f t) := by
  have hmerge : mergeBytes (cfgRead s h f 4) v.toNat 15 = v.toNat := mergeBytes_full _ v.isLt
  rw [exec_configWrite hp]
  change Host.Outcome.next (cfgWrite h f 4 (mergeBytes (cfgRead s h f 4) v.toNat 15) s) = _
  rw [hmerge]
  rfl

end

theorem exec_msixUnmask_beyond (v : Fin 2048) (hv : msixSize f ≤ v.val) : exec (.msixUnmask h f (some v)) s = .next s := by
  change Host.Outcome.next (unmask h f (some v.val) s) = _
  simp only [unmask, hv, if_true, ite_self]

/-! INTx (R96) -/

theorem exec_intxStatusClear (v : Word) (hup : linkUp s h = true) : exec (.hlinkIntxStatusClear h v) s = .next (clearIntx h v.toNat s) :=
  congrArg Host.Outcome.next (if_pos hup)

theorem exec_intxStatusClear_down (v : Word) (hdown : linkUp s h = false) : exec (.hlinkIntxStatusClear h v) s = .next s := by
  change execHlinkIntxStatusClear h v s = _
  rw [execHlinkIntxStatusClear, hdown, if_neg Bool.false_ne_true]

theorem intxStatus_clearIntx (v : Nat) : (link (clearIntx h v s) h).intxStatus = (link s h).intxStatus &&& (7 - v % 8) := by
  rw [clearIntx, intxStatus_refreshInta, link_modLink, if_pos rfl]

theorem exec_function_absent (vec : Option (Fin 2048)) (off : BitVec 12) (v : Word) (be : BitVec 4) (habsent : present s h f = false) :
    ∀ i ∈ [Instr.initiateFlr h f, .busMasterEnableClear h f, .busMasterEnableSet h f, .msixUnmask h f vec, .configWrite h f off v be], exec i s = .next s := by
  have hflr : initiateFlr h f s = s := by simp [initiateFlr, habsent]
  have hclear : clearBme h f s = s := by simp [clearBme, habsent]
  have hset : setBme h f s = s := by simp [setBme, habsent]
  have hunmask : unmask h f (vec.map fun v => v.val) s = s := by simp [unmask, habsent]
  have hcfg : execConfigWrite h f off v be s = .next s := by simp [execConfigWrite, habsent]
  simp only [List.forall_mem_cons, List.not_mem_nil, false_imp_iff, implies_true, and_true]
  exact ⟨congrArg Host.Outcome.next hflr, congrArg Host.Outcome.next hclear, congrArg Host.Outcome.next hset, congrArg Host.Outcome.next hunmask, hcfg⟩

end

/-- Settles O36. -/
theorem functionControlsComplete : Obligations.FunctionControlsComplete := by
  unfold Obligations.FunctionControlsComplete
  refine fun h f s => ⟨fun hp => ⟨_, exec_initiateFlr hp, rfl, ?mode⟩, exec_d3hotToD0, exec_d3hotToD0_none,
    fun hup hpf hen => ⟨_, exec_vfEnableClear hup hpf hen, rfl, by rw [fnOf_modFn]⟩,
    fun hup hpf => ⟨_, exec_vfEnableSet hup hpf, by rw [fnOf_modFn], fun g hg => fnOf_modFn_other hg _ s, (modFn_only _ _ _ _ (by decide)).mpr (changesOnly_refl _ s)⟩,
    fun hp hb => congrArg Host.Outcome.next (clearBme_of_set hp hb), fun hp hb => congrArg Host.Outcome.next (setBme_of_clear hp hb),
    fun hp hb => congrArg Host.Outcome.next (setBme_of_set hp hb), fun hp hb => congrArg Host.Outcome.next (clearBme_of_clear hp hb),
    exec_msixUnmask_all, fun v hp hv => exec_msixUnmask_one hp v hv, exec_msixUnmask_beyond, fun off v be hp => exec_configWrite hp off v be,
    fun v hp => exec_configWrite_command hp v, fun v hup => ⟨_, exec_intxStatusClear v hup, intxStatus_clearIntx _, (clearIntx_only _ _ _ (by decide) (by decide)).mpr (changesOnly_refl _ s)⟩,
    exec_intxStatusClear_down, exec_function_absent⟩
  case mode => exact modeChangesOnlyByItsEvents _ s _ (exec_initiateFlr hp) trivial

end Sys2Proof.Machine
end

section
/-! PROOF. Configuration and memory requests, refused requests, completions, timeouts and link errors (R92 to R94, R103 to R110, R114), for O37. -/

namespace Sys2Proof.Machine
open Sys2Proof

/-! A violation record takes the next number (R501) -/

theorem raise_violations (c : Chan) (type source tag : Nat) (payload : List Nat) (s : State) : (raise c type source tag payload s).violations = s.violations :=
  changesOnly_violations (L := replyParts ++ [.owner])
    ((raise_only c type source tag payload s (by decide) (by decide) (by decide) (by decide) (by decide)).mpr (changesOnly_refl _ s)) (by decide)

theorem raiseViolation_seq (c : Chan) (kind word0 seq : Nat) (s : State) : (raiseViolation c kind word0 seq s).violations.seq = s.violations.seq := by
  simp only [raiseViolation, apply_ite (fun t : State => t.violations.seq), raise_violations, ite_self]

theorem logViolation_seq (kind block target : Nat) (detail : List Nat) (s : State) : (logViolation kind block target detail s).violations.seq = s.violations.seq + 1 := by
  have hfull (full : Prop) [Decidable full] (t : State) : (if full then count 0 0 9 1 t else t).violations = t.violations := by split <;> rfl
  simp only [logViolation]
  split
  · simp only [raiseViolation_seq, count_violations, hfull]
  · rw [raiseViolation_seq]
    split <;> simp only [raiseViolation_seq, count_violations, hfull]

theorem logAer_violations (h : HostId) (f : Fn) (correctable : Bool) (bit : Nat) (advisory : Bool) (header : List Nat) (reports : Bool) (s : State) :
    (logAer h f correctable bit advisory header reports s).violations = s.violations :=
  changesOnly_violations (L := [.out, .fns])
    ((logAer_only h f correctable bit advisory header reports s (by decide) (by decide)).mpr (changesOnly_refl _ s)) (by decide)

section
variable {h : HostId} {s : State}

/-! Requests that no function serves (R92, R108) -/

theorem unsupported_seq (f : Fn) (posted : Bool) (bar : Option Nat) (header : List Nat) (t : State) :
    (unsupported h f posted bar header t).violations.seq = t.violations.seq + 1 := by
  simp only [unsupported, apply_ite (fun u : State => u.violations.seq), emit_violations, ite_self, linkViolation, logViolation_seq, logAer_violations]

theorem unsupported_out (f : Fn) (bar : Option Nat) (header : List Nat) (t : State) :
    (unsupported h f false bar header t).out.head? = some (.completion h 1 false []) := rfl

theorem exec_configRequest_waiting (r : CfgReq) (hst : (link s h).state = 2) : exec (.configRequest h r) s = .next (emit (.completion h 3 false []) s) :=
  congrArg Host.Outcome.next (if_pos hst)

theorem state_ne_two_of_linkUp (hup : linkUp s h = true) : (link s h).state ≠ 2 := by
  rw [beq_iff_eq.mp hup]; decide

theorem exec_configRequest_served (r : CfgReq) (hup : linkUp s h = true) (hp : present s h r.fn = true) : exec (.configRequest h r) s = .next
    (emit (.completion h 0 false (if r.write then [] else [cfgRead s h r.fn (r.offset.toNat / 4 * 4)])) s) := by
  change execConfigRequest h r s = _
  simp only [execConfigRequest, state_ne_two_of_linkUp hup, hup, hp, Bool.not_true, Bool.false_eq_true, if_false]

theorem exec_configRequest_absent (r : CfgReq) (hup : linkUp s h = true) (hp : present s h r.fn = false) : exec (.configRequest h r) s =
    .next (unsupported h r.fn false none (freeWords 6 s) (drawnN 6 s)) := by
  change execConfigRequest h r s = _
  simp only [execConfigRequest, state_ne_two_of_linkUp hup, hup, hp, Bool.not_true, Bool.not_false, Bool.false_eq_true, if_false, if_true]

theorem exec_ioOrAtomicRequest (f : Fn) (posted : Bool) (hup : linkUp s h = true) : exec (.ioOrAtomicRequest h f posted) s =
    .next (unsupported h f posted none (freeWords 6 s) (drawnN 6 s)) := congrArg Host.Outcome.next (if_pos hup)

/-! Memory requests (R93, R94) -/

theorem touched_word {off : Nat} (hal : off % 4 = 0) : touched off 4 = [off] := by
  have hone : (off + 4 + 3) / 4 - off / 4 = 1 := by omega
  have hback : 4 * (off / 4) = off := by omega
  rw [touched, hone, upFrom, upFrom, List.map_cons, List.map_nil, hback]

section
variable {r : BarReq} {f : Fn} (hup : linkUp s h = true)
include hup

theorem exec_barRequest_miss (hhit : r.hit = none) : exec (.barMemoryRequest h r) s = .next (unsupported h .pf0 r.write none r.header s) := by
  change execBarMemoryRequest h r s = _
  simp only [execBarMemoryRequest, hup, hhit, Bool.not_true, Bool.false_eq_true, if_false]

variable (hhit : r.hit = some f)
include hhit

theorem exec_barRequest_unclaimed (hno : present s h f = false ∨ memoryOn s h f = false ∨ barSize (fnKind s h f) ≤ r.offset) :
    exec (.barMemoryRequest h r) s = .next (unsupported h f r.write (some r.offset) r.header s) := by
  have hskip : (!present s h f || !memoryOn s h f || decide (barSize (fnKind s h f) ≤ r.offset)) = true := by
    simpa [or_assoc] using hno
  change execBarMemoryRequest h r s = _
  simp only [execBarMemoryRequest, hup, hhit, hskip, Bool.not_true, Bool.false_eq_true, if_false, if_true]

variable (hp : present s h f = true) (hm : memoryOn s h f = true) (hin : r.offset < barSize (fnKind s h f))
include hp hm hin

/-- A request within the BAR of a function that claims it is a read, a poisoned write or a write. -/
theorem exec_barRequest_claimed : exec (.barMemoryRequest h r) s =
    if !r.write then barRead h f r s else if r.poisoned then .next (logAer h f false 12 true r.header true s) else barWrite h f r s := by
  have hgo : (!present s h f || !memoryOn s h f || decide (barSize (fnKind s h f) ≤ r.offset)) = false := by
    rw [hp, hm, decide_eq_false (Nat.not_le.mpr hin)]; rfl
  change execBarMemoryRequest h r s = _
  simp only [execBarMemoryRequest, hup, hhit, hgo, Bool.not_true, Bool.false_eq_true, if_false]

theorem exec_barRead_word (hr : r.write = false) (hlen : r.length = 4) (hal : r.offset % 4 = 0) :
    exec (.barMemoryRequest h r) s = .next (let c := barCell s h f r.offset; emit (.completion h 0 false [(readCell h f c s).1]) (readCell h f c s).2) := by
  have htouched := touched_word hal
  rw [exec_barRequest_claimed hup hhit hp hm hin, hr, Bool.not_false, if_pos rfl]
  simp only [barRead, hlen, hal, htouched, List.map_cons, List.map_nil, List.foldl_cons, List.foldl_nil, List.nil_append, BEq.rfl, Bool.and_self, Bool.not_true, Bool.and_false,
    Bool.false_eq_true, if_false, Nat.reduceLT]

theorem exec_barRead_long (hr : r.write = false) (hlen : 64 < r.length) : exec (.barMemoryRequest h r) s = .next (completerAbort h f (some r.offset) r.header s) := by
  rw [exec_barRequest_claimed hup hhit hp hm hin, hr, Bool.not_false, if_pos rfl]
  simp only [barRead, hlen, if_true]

theorem exec_barWrite_poisoned (hr : r.write = true) (hbad : r.poisoned = true) : exec (.barMemoryRequest h r) s = .next (logAer h f false 12 true r.header true s) := by
  rw [exec_barRequest_claimed hup hhit hp hm hin, hr, hbad, if_neg (by decide), if_pos rfl]

theorem exec_barWrite_word (hr : r.write = true) (hgood : r.poisoned = false) (hlen : r.data.length = 4) (hal : r.offset % 4 = 0) (hwin : f = .pf2 → r.offset < 0x8000) :
    exec (.barMemoryRequest h r) s = writeCell h f (barCell s h f r.offset) (leNat r.data) r s := by
  have htouched := touched_word hal
  have hslice : slice r.data 0 4 = r.data := by rw [slice, List.drop_zero, List.take_of_length_le (Nat.le_of_eq hlen)]
  have hout : ¬(f = .pf2 ∧ 0x8000 ≤ r.offset) := fun hw => Nat.not_le.mpr (hwin hw.1) hw.2
  rw [exec_barRequest_claimed hup hhit hp hm hin, hr, hgood, if_neg (by decide), if_neg (by decide)]
  simp [barWrite, hlen, hal, htouched, hout, upFrom, afterwards, hslice]

end

theorem exec_barWrite_window {r : BarReq} (hup : linkUp s h = true) (hhit : r.hit = some .pf2) (hp : present s h .pf2 = true) (hm : memoryOn s h .pf2 = true)
    (hlo : 0x8000 ≤ r.offset) (hhi : r.offset < 65536) (hr : r.write = true) (hgood : r.poisoned = false) : exec (.barMemoryRequest h r) s = .next (writeWindow h r s) := by
  rw [exec_barRequest_claimed hup hhit hp hm hhi, hr, hgood, if_neg (by decide), if_neg (by decide)]
  exact if_pos ⟨rfl, hlo⟩

/-! Completions (R104 to R106) -/

section
variable (tag : BitVec 14) (st : CplStatus) (data : List Byte) (hup : linkUp s h = true)
include hup

theorem exec_completionReceived_live {r : ReadReq} (hr : (link s h).reads.find? (fun x => x.tag == BitVec.toNat tag) = some r) (hq : r.quarantined = false) (ha : r.abandoned = false)
    (hst : st ≠ .poisoned) : exec (.completionReceived h tag st data) s = .next (readReturns h r st data s) := by
  change execCompletionReceived h tag st data s = _
  simp only [execCompletionReceived, hup, hr, hq, ha, hst, Bool.not_true, Bool.false_eq_true, if_false]

theorem exec_completionReceived_abandoned {r : ReadReq} (hr : (link s h).reads.find? (fun x => x.tag == BitVec.toNat tag) = some r) (hq : r.quarantined = false) (ha : r.abandoned = true) :
    exec (.completionReceived h tag st data) s = .next (abandonedOver h r (endRead h r.tag (countFn h r.fn 2 s))) := by
  change execCompletionReceived h tag st data s = _
  simp only [execCompletionReceived, hup, hr, hq, ha, Bool.not_true, Bool.false_eq_true, if_false, if_true]

theorem exec_completionReceived_unknown (hr : (link s h).reads.find? (fun x => x.tag == BitVec.toNat tag) = none) :
    exec (.completionReceived h tag st data) s = .next (unexpectedCpl h .pf0 s) := by
  change execCompletionReceived h tag st data s = _
  simp only [execCompletionReceived, hup, hr, Bool.not_true, Bool.false_eq_true, if_false]

end

theorem exec_completionTimeout (tag : BitVec 14) {r : ReadReq} (hr : (link s h).reads.find? (fun x => x.tag == BitVec.toNat tag && !x.quarantined) = some r) (ha : r.abandoned = false) :
    exec (.completionTimeout h tag) s = .next (
      let t := countFn h r.fn 4 (modLink h (fun l => { l with cplTimeouts := satAdd 0xFFFF l.cplTimeouts 1, reads := l.reads.map fun x => if x.tag = r.tag then { x with abandoned := true, timedOut := true, quarantined := true } else x }) s)
      pumpReads h (failFor h r.fn r.purpose (timeoutReason r.purpose) (logAer h r.fn false 14 false [] true t))) := by
  change execCompletionTimeout h tag s = _
  simp only [execCompletionTimeout, hr, ha, Bool.false_eq_true, if_false]

theorem exec_completionTimeout_none (tag : BitVec 14) (hr : (link s h).reads.find? (fun x => x.tag == BitVec.toNat tag && !x.quarantined) = none) :
    exec (.completionTimeout h tag) s = .next s := by
  change execCompletionTimeout h tag s = _
  simp only [execCompletionTimeout, hr]

/-! Link errors (R109, R110) -/

section
variable (f : Fn) (e : LinkError) (bit : Nat) (hup : linkUp s h = true)
include hup

theorem exec_linkError_internal : exec (.pcieLinkError h f .uncorrectableInternal) s = .next (detachHost h .dlDown (unitLost 0x12 6 h.val 0 (logAllPfs h 22 [] s))) := by
  change execPcieLinkError h f .uncorrectableInternal s = _
  simp only [execPcieLinkError, hup, Bool.not_true, Bool.false_eq_true, if_false]

theorem exec_linkError_correctable (he : (e, bit) ∈ [(LinkError.receiver, 0), (.badTlp, 6), (.badDllp, 7), (.replayRollover, 8), (.replayTimer, 12), (.fecCorrected, 0), (.correctedInternal, 14)]) :
    exec (.pcieLinkError h f e) s = .next (logAer h .pf0 true bit false [] true s) := by
  change execPcieLinkError h f e s = _
  simp only [List.mem_cons, Prod.mk.injEq, List.not_mem_nil, or_false] at he
  rcases he with ⟨rfl, rfl⟩ | ⟨rfl, rfl⟩ | ⟨rfl, rfl⟩ | ⟨rfl, rfl⟩ | ⟨rfl, rfl⟩ | ⟨rfl, rfl⟩ | ⟨rfl, rfl⟩ <;>
    simp only [execPcieLinkError, hup, Bool.not_true, Bool.false_eq_true, if_false]

theorem exec_linkError_protocol (he : (e, bit) ∈ [(LinkError.dlProtocol, 4), (.flowControl, 13), (.receiverOverflow, 17)]) :
    exec (.pcieLinkError h f e) s = .next (logAllPfs h bit [] s) := by
  change execPcieLinkError h f e s = _
  simp only [List.mem_cons, Prod.mk.injEq, List.not_mem_nil, or_false] at he
  rcases he with ⟨rfl, rfl⟩ | ⟨rfl, rfl⟩ | ⟨rfl, rfl⟩ <;> simp only [execPcieLinkError, hup, Bool.not_true, Bool.false_eq_true, if_false]

end

theorem exec_request_down (f : Fn) (e : LinkError) (r : CfgReq) (tag : BitVec 14) (st : CplStatus) (data : List Byte) (hdown : linkUp s h = false) (hst : (link s h).state ≠ 2) :
    ∀ i ∈ [Instr.configRequest h r, .ioOrAtomicRequest h f false, .pcieLinkError h f e, .completionReceived h tag st data], exec i s = .next s := by
  have hcfg : execConfigRequest h r s = .next s := by simp [execConfigRequest, hdown, hst]
  have hio : execIoOrAtomicRequest h f false s = .next s := by simp [execIoOrAtomicRequest, hdown]
  have herr : execPcieLinkError h f e s = .next s := by simp [execPcieLinkError, hdown]
  have hcpl : execCompletionReceived h tag st data s = .next s := by simp [execCompletionReceived, hdown]
  simp only [List.forall_mem_cons, List.not_mem_nil, false_imp_iff, implies_true, and_true]
  exact ⟨hcfg, hio, herr, hcpl⟩

end

/-- Settles O37. -/
theorem linkRequestsComplete : Obligations.LinkRequestsComplete := by
  unfold Obligations.LinkRequestsComplete
  refine fun h s => ⟨exec_configRequest_waiting, exec_configRequest_served, fun r hup hp => ⟨_, exec_configRequest_absent r hup hp, rfl, unsupported_seq ..⟩,
    fun f posted hup => ⟨_, exec_ioOrAtomicRequest f posted hup, unsupported_seq .., ?posted⟩, fun r hup => exec_barRequest_miss hup, fun r f hup => exec_barRequest_unclaimed hup,
    fun r f hup => exec_barRead_word hup, fun r f hup => exec_barRead_long hup, fun r f hup => exec_barWrite_poisoned hup, fun r f hup => exec_barWrite_word hup,
    fun r => exec_barWrite_window, fun tag r st data hup => exec_completionReceived_live tag st data hup,
    fun tag r st data hup => exec_completionReceived_abandoned tag st data hup, exec_completionReceived_unknown, fun tag r => exec_completionTimeout tag,
    exec_completionTimeout_none, fun tag => rfl, exec_linkError_internal, fun f e bit hup => exec_linkError_correctable f e bit hup, fun f e bit hup => exec_linkError_protocol f e bit hup,
    exec_request_down⟩
  case posted => rintro rfl; exact unsupported_out ..

end Sys2Proof.Machine
end

section
/-! PROOF. Doorbells, descriptor and data reads, deliveries and the frames of a network queue (R97 to R102, R119, R194, R206, R207, R223), for O38. -/

namespace Sys2Proof.Machine
open Sys2Proof

/-! Doorbells (R102) -/

/-- Entries a doorbell value would leave posted: those posted already, and those it adds. -/
def doorbellHolds (x : Queue) (n : Nat) : Nat := (x.doorbell + qSize x - x.head) % qSize x + (n + qSize x - x.doorbell) % qSize x

section
variable {kinds : Nat → Bool} {h : HostId} {f : Fn} {q : Nat} {v : Word} {x : Queue} {s : State}

theorem netDoorbell_of_none (hq : queue s h f q = none) : netDoorbell kinds h f q v s = .next s := by
  simp only [netDoorbell, hq]

variable (hq : queue s h f q = some x) (hk : kinds x.kind = true)
include hq hk

theorem netDoorbell_of_beyond (hn : qSize x ≤ v.toNat % 2 ^ 15) : netDoorbell kinds h f q v s = .refused (.undefinedCase 102) := by
  simp only [netDoorbell, hq, hk, hn, Bool.not_true, Bool.false_eq_true, if_false, if_true]

theorem netDoorbell_of_posted (hne : x.kind ≠ 3) (hn : v.toNat % 2 ^ 15 < qSize x) (hheld : doorbellHolds x (v.toNat % 2 ^ 15) < qSize x) :
    netDoorbell kinds h f q v s = .next (fetchQueue h f q (modQueue h f q (fun y => { y with doorbell := v.toNat % 2 ^ 15 }) s)) := by
  unfold doorbellHolds at hheld
  simp only [netDoorbell, hq, hk, hne, Nat.not_le.mpr hn, Nat.not_le.mpr hheld, Bool.not_true, Bool.false_eq_true, if_false]

theorem netDoorbell_of_overrun (hne : x.kind ≠ 3) (hbad : qSize x ≤ v.toNat % 2 ^ 15 ∨ qSize x ≤ doorbellHolds x (v.toNat % 2 ^ 15)) :
    netDoorbell kinds h f q v s = .refused (.undefinedCase 102) := by
  unfold doorbellHolds at hbad
  rcases Nat.lt_or_ge (v.toNat % 2 ^ 15) (qSize x) with hn | hn
  · have hheld := hbad.resolve_left (Nat.not_le.mpr hn)
    simp only [netDoorbell, hq, hk, hne, Nat.not_le.mpr hn, hheld, Bool.not_true, Bool.false_eq_true, if_false, if_true]
  · exact netDoorbell_of_beyond hq hk hn

theorem netDoorbell_of_freed (hkind : x.kind = 3) (hn : v.toNat % 2 ^ 15 < qSize x)
    (hread : (v.toNat % 2 ^ 15 + qSize x - x.doorbell) % qSize x ≤ (x.head + qSize x - x.doorbell) % qSize x) :
    netDoorbell kinds h f q v s = .next (drainLate h f q x.late.length (modQueue h f q (fun y => { y with doorbell := v.toNat % 2 ^ 15 }) s)) := by
  rw [hkind] at hk
  simp only [netDoorbell, hq, hkind, hk, Nat.not_le.mpr hn, Nat.not_lt.mpr hread, Bool.not_true, Bool.false_eq_true, if_false, if_true]

end

section
variable {h : HostId} {f : Fn} {q : BitVec 16} {v : Word} {x : Queue} {s : State}

theorem exec_cqDoorbell_of_next {t : State} (hn : netDoorbell (fun k => k == 3) h f q.toNat v s = .next t) :
    exec (.cqDoorbell h f q v) s = .next (kickQueues (fun h' f' => h' == h && f' == f) t) := by
  change execCqDoorbell h f q v s = _
  simp only [execCqDoorbell, hn]

theorem exec_cqDoorbell_beyond (hq : queue s h f q.toNat = some x) (hk : x.kind = 3) (hn : qSize x ≤ v.toNat % 2 ^ 15) :
    exec (.cqDoorbell h f q v) s = .refused (.undefinedCase 102) := by
  change execCqDoorbell h f q v s = _
  simp only [execCqDoorbell, netDoorbell_of_beyond (kinds := fun k => k == 3) hq (beq_iff_eq.mpr hk) hn]

/-! Coalescing (R102) -/

theorem exec_cqCoalesceTimer_due (hq : queue s h f q.toNat = some x) (hk : x.kind = 3) (hc : x.coalTime ≠ 0) (hu : x.unsignalled ≠ 0) :
    exec (.cqCoalesceTimer h f q) s = .next (cqSignal h f q.toNat x.vector s) := by
  change execCqCoalesceTimer h f q s = _
  simp only [execCqCoalesceTimer, hq]
  rw [if_pos ⟨hk, hc, hu⟩]

theorem exec_cqCoalesceTimer_idle (hq : queue s h f q.toNat = some x) (hno : x.kind ≠ 3 ∨ x.coalTime = 0 ∨ x.unsignalled = 0) :
    exec (.cqCoalesceTimer h f q) s = .next s := by
  have hnot : ¬(x.kind = 3 ∧ x.coalTime ≠ 0 ∧ x.unsignalled ≠ 0) := fun ⟨hk, hc, hu⟩ => hno.elim (· hk) (·.elim hc hu)
  change execCqCoalesceTimer h f q s = _
  simp only [execCqCoalesceTimer, hq]
  rw [if_neg hnot]

theorem exec_cqCoalesceTimer_none (hq : queue s h f q.toNat = none) : exec (.cqCoalesceTimer h f q) s = .next s := by
  change execCqCoalesceTimer h f q s = _
  simp only [execCqCoalesceTimer, hq]

/-! Reads and deliveries (R98 to R100, R207) -/

theorem exec_txDescriptorReadDone (d : TxDescr) {r : ReadReq} (hr : findRead s h (fun g p => g == f && p == .txDescr q.toNat) = some r) :
    exec (.txDescriptorReadDone h f q d) s = .next (knowHead h f q.toNat (txDescrDone h f q.toNat d.status d.bytes (endRead h r.tag s))) := by
  change execTxDescriptorReadDone h f q d s = _
  simp only [execTxDescriptorReadDone, hr]

theorem exec_txDataReadDone (data : List Byte) (st : CplStatus) {r : ReadReq} {sel : Nat} {t : TxRead} (hr : oldestData s h f q.toNat = some (r, sel))
    (hx : ((queue (endRead h r.tag s) h f q.toNat).bind fun x => x.reading.find? fun y => y.sel = sel) = some t) :
    exec (.txDataReadDone h f q data st) s = .next (txDataDone h f q.toNat t st data (endRead h r.tag s)) := by
  change execTxDataReadDone h f q data st s = _
  simp only [execTxDataReadDone, hr, hx]

end

theorem exec_rxDeliveryWriteDone (h : HostId) (s : State) (k : Pkt) (ws : List Nat) (r : List (Pkt × List Nat)) (hd : s.net.delivering[h] = (k, ws) :: r) :
    exec (.rxDeliveryWriteDone h) s = .next (writeCqe h (fnOfIndex (k.target % 1024)) k.queue ws (freeHods k.hods { s with net := { s.net with delivering := vset s.net.delivering h r } })) := by
  change execRxDeliveryWriteDone h s = _
  simp only [execRxDeliveryWriteDone, hd]

/-! Frames (R119, R194, R223) -/

section
variable {port : Lane} {s : State} (hup : portIsUp s port.val = true)
include hup

theorem exec_txFrameSent_express {k : Pkt} {r : List Pkt} (h7 : Tbl.getD s.net.out7 port.val [] = k :: r) : exec (.txFrameSent port) s =
    .next (frameSent port k { s with net := { s.net with out7 := if r.isEmpty then Tbl.del s.net.out7 port.val else Tbl.put s.net.out7 port.val r } }) := by
  change execTxFrameSent port s = _
  simp only [execTxFrameSent, hup, h7, Bool.not_true, Bool.false_eq_true, if_false]

theorem exec_txFrameSent {k : Pkt} {r : List Pkt} (h7 : Tbl.getD s.net.out7 port.val [] = []) (hq : Tbl.getD s.net.outq port.val [] = k :: r) :
    exec (.txFrameSent port) s = .next (frameSent port k { s with net := { s.net with outq := if r.isEmpty then Tbl.del s.net.outq port.val else Tbl.put s.net.outq port.val r } }) := by
  change execTxFrameSent port s = _
  simp only [execTxFrameSent, hup, h7, hq, Bool.not_true, Bool.false_eq_true, if_false]

theorem exec_rxFrameArrival_dropped (frame : List Byte) (fcsOk fecOk : Bool) {i : Nat} (hc : macCause s port frame fcsOk fecOk = some i) :
    exec (.rxFrameArrival port frame fcsOk fecOk) s = .next (count 0x02 0 (32 * port.val + i) 1 s) := by
  change execRxFrameArrival port frame fcsOk fecOk s = _
  simp only [execRxFrameArrival, hup, hc, Bool.not_true, Bool.false_eq_true, if_false]

theorem exec_rxFrameArrival_taken (frame : List Byte) (fcsOk fecOk : Bool) (hc : macCause s port frame fcsOk fecOk = none) (hrun : pathsRun s = true) :
    exec (.rxFrameArrival port frame fcsOk fecOk) s =
      .next (takeFrame port frame (count 0x02 0 (32 * port.val + 1) (frame.length + 4) (count 0x02 0 (32 * port.val) 1 s))) := by
  have hrun' : pathsRun (count 0x02 0 (32 * port.val + 1) (frame.length + 4) (count 0x02 0 (32 * port.val) 1 s)) = true := hrun
  change execRxFrameArrival port frame fcsOk fecOk s = _
  simp only [execRxFrameArrival, hup, hc, hrun', Bool.not_true, Bool.false_eq_true, if_false, if_true]

end

theorem exec_frame_down (port : Lane) (frame : List Byte) (a b : Bool) (s : State) (hdown : portIsUp s port.val = false) :
    exec (.txFrameSent port) s = .next s ∧ exec (.rxFrameArrival port frame a b) s = .next s := by
  have hsent : execTxFrameSent port s = .next s := by simp [execTxFrameSent, hdown]
  have harrival : execRxFrameArrival port frame a b s = .next s := by simp [execRxFrameArrival, hdown]
  exact ⟨hsent, harrival⟩

/-- Settles O38. -/
theorem networkQueueEventsComplete : Obligations.NetworkQueueEventsComplete := by
  unfold Obligations.NetworkQueueEventsComplete
  refine ⟨fun h f q v x s hq => ?queues, fun h f q v s hq => ⟨netDoorbell_of_none (kinds := fun k => k == 1) hq,
    netDoorbell_of_none (kinds := fun k => k == 2) hq, exec_cqDoorbell_of_next (netDoorbell_of_none hq), exec_cqCoalesceTimer_none hq⟩,
    exec_rxDeliveryWriteDone, fun port s k r hup h7 => ⟨_, exec_txFrameSent_express hup h7, rfl⟩, fun port s k r hup h7 hq => exec_txFrameSent hup h7 hq,
    fun port frame fcsOk fecOk s hup => ⟨fun i hc => ⟨_, exec_rxFrameArrival_dropped hup frame fcsOk fecOk hc, rfl⟩, exec_rxFrameArrival_taken hup frame fcsOk fecOk⟩, exec_frame_down⟩
  have hne {k : Nat} (hk : x.kind = k) (hk3 : k ≠ 3) : x.kind ≠ 3 := hk ▸ hk3
  exact ⟨fun hk hn hheld => netDoorbell_of_posted (kinds := fun k => k == 1) hq (beq_iff_eq.mpr hk) (hne hk (by decide)) hn hheld,
    fun hk hn hheld => netDoorbell_of_posted (kinds := fun k => k == 2) hq (beq_iff_eq.mpr hk) (hne hk (by decide)) hn hheld,
    fun hk hn hread => exec_cqDoorbell_of_next (netDoorbell_of_freed (kinds := fun k => k == 3) hq (beq_iff_eq.mpr hk) hk hn hread),
    fun hk hbad => netDoorbell_of_overrun (kinds := fun k => k == 1) hq (beq_iff_eq.mpr hk) (hne hk (by decide)) hbad,
    fun hk hbad => netDoorbell_of_overrun (kinds := fun k => k == 2) hq (beq_iff_eq.mpr hk) (hne hk (by decide)) hbad, exec_cqDoorbell_beyond hq, exec_cqCoalesceTimer_due hq,
    exec_cqCoalesceTimer_idle hq, fun d r => exec_txDescriptorReadDone d, fun data st r sel t => exec_txDataReadDone data st⟩

end Sys2Proof.Machine
end

section
/-! PROOF. The passes of a pipeline, its cipher tile, the selections of the schedulers, the timing wheel and DTIME (R38, R131, R136, R150, R151, R181, R221, R228 to R231, R342, R345), for O39. -/

namespace Sys2Proof.Machine
open Sys2Proof

/-! Passes of a pipeline (R136, R150, R151) -/

section
variable {p : Pipe} {s : State}

theorem exec_pipelineAdmit_input {x : Pkt} {r : List Pkt} (hi : (pipeOf s p.val).input = x :: r) (hrun : pathsRun s = true) :
    let n := s.sched.serial + 1
    let t := modPipe p.val (fun y => { y with input := r }) (modSched (fun y => { y with serial := n }) s)
    let k : Pkt := { x with epoch := s.epochs.epoch, pipe := p.val, seq := n, quiet := s.glb.mode == .quiesce }
    exec (.pipelineAdmit p) s = .next (farm (endPass k (parseFirst t.parse.banks.top.nodes (p.val / 16) k.bytes k.vec.source k.epoch) (acceptTx k t))) := by
  intro n t k
  change execPipelineAdmit p s = _
  simp only [execPipelineAdmit, passPipe, hi, hrun, Bool.not_true, Bool.false_eq_true, if_false, n, t, k]

theorem exec_pipelineAdmit_empty (hi : (pipeOf s p.val).input = []) : exec (.pipelineAdmit p) s = .next (farm s) := by
  change execPipelineAdmit p s = _
  simp only [execPipelineAdmit, passPipe, hi]

theorem exec_recircAdmit_taken {t : State} {k : Pkt} (hk : takeRecirc p.val false s = some (k, t)) (hrun : pathsRun s = true) :
    exec (.recircAdmit p) s = .next (farm (released p.val
      (endPass k (parseSecond (coatsOf k.epoch t).parse.banks.top.nodes (p.val / 16) k.bytes k.node k.cursor k.vec) t))) := by
  change execRecircAdmit p s = _
  simp only [execRecircAdmit, hk, hrun, Bool.not_true, Bool.false_eq_true, if_false]

theorem exec_lpmRecircReadmit_taken {t : State} {k : Pkt} {l : Lookup} (hk : takeRecirc p.val true s = some (k, t)) (hl : k.look = some l) (hrun : pathsRun s = true) :
    exec (.lpmRecircReadmit p) s = .next (
      let e := extendLookup (coatsOf k.epoch t) l
      farm (released p.val (doAction { k with look := none } e (e.action.getD []) (countLookup p.val e.counts t)))) := by
  change execLpmRecircReadmit p s = _
  simp only [execLpmRecircReadmit, hk, hl, hrun, Option.getD_some, Bool.not_true, Bool.false_eq_true, if_false]

theorem exec_recircAdmit_none (hk : takeRecirc p.val false s = none) : exec (.recircAdmit p) s = .next s := by
  change execRecircAdmit p s = _
  simp only [execRecircAdmit, hk]

theorem exec_lpmRecircReadmit_none (hk : takeRecirc p.val true s = none) : exec (.lpmRecircReadmit p) s = .next s := by
  change execLpmRecircReadmit p s = _
  simp only [execLpmRecircReadmit, hk]

end

/-! The cipher tile's key fetch (R342, R345) -/

section
variable {t : Tile} {slot : BitVec 17} {s : State}

theorem exec_gauntletKeyFetch_missing (hc : (cachedIn s t.val).contains slot.toNat = false)
    (hw : ((pipeOf s t.val).tile.any fun k => (k.tile.map (·.2)) == some slot.toNat) = true) :
    exec (.gauntletKeyFetch t slot) s = .next (farm (startTile t.val ((pipeOf s t.val).tile.length + 1)
      (modCrypt (fun c => { c with caches := Tbl.put c.caches t.val ((cachedIn s t.val).drop ((cachedIn s t.val).length - 63) ++ [slot.toNat]) })
        (count 0x0B 0 (32 * t.val + 5) 1 s)))) := by
  change execGauntletKeyFetch t slot s = _
  simp only [execGauntletKeyFetch, hc, hw, Bool.not_true, Bool.or_self, Bool.false_eq_true, if_false]

theorem exec_gauntletKeyFetch_cached (hc : (cachedIn s t.val).contains slot.toNat = true) : exec (.gauntletKeyFetch t slot) s = .next s := by
  change execGauntletKeyFetch t slot s = _
  simp only [execGauntletKeyFetch, hc, Bool.true_or, if_true]

end

/-! Selections of the schedulers (R221, R231) -/

/-- What a selection of a port starts from: what waits is handed over, and the nodes above each candidate are active. -/
def txOffered (l : Lane) (s : State) : State :=
  (txCands (handOver l.val (count 0x07 0 0x30003 (groupless s) s)) l.val).foldl
    (fun s x => x.path.foldl (fun s n => activate n s) (if x.cand.cls = 7 then activate (portLimiter s l.val) s else s)) (handOver l.val (count 0x07 0 0x30003 (groupless s) s))

/-- What a selection of a port ends with: the chosen packet leaves, and what no candidate needs any more is deactivated. -/
def txSelected (l : Lane) (x : TxCand) (sc : Sched) (hods : List Nat) (u : State) : State :=
  let t4 := txLeave l.val x hods (chargeSelection l.val x { u with sched := sc })
  let left := txCands t4 l.val
  let t5 := settlePath (fun key => left.any fun y => y.path.any fun n => n.key == key) x.path t4
  if left.any (fun y => y.cand.cls == 7) then t5 else deactivate (portLimiter t5 l.val) t5

section
variable {l : Lane} {s : State} {x : TxCand} {sc : Sched} (hx : txChoose (txOffered l s) l.val = some (x, sc))
include hx

theorem exec_schedSelect_port_refused {e : Refused} (he : txHods (txOffered l s) x = .error e) :
    exec (.schedSelect (.port l)) s = .next (txRefused l.val x e sc (txOffered l s)) := by
  change execSchedSelect (.port l) s = _
  simp only [txOffered] at hx he
  simp only [execSchedSelect, selectTx, hx, he, txOffered]

theorem exec_schedSelect_port_chosen {hods : List Nat} {u : State} (he : txHods (txOffered l s) x = .ok (hods, u)) :
    exec (.schedSelect (.port l)) s = .next (txSelected l x sc hods u) := by
  change execSchedSelect (.port l) s = _
  simp only [txOffered] at hx he
  simp only [execSchedSelect, selectTx, hx, he, txSelected]

end

theorem exec_schedSelect_port_none {l : Lane} {s : State} (hx : txChoose (txOffered l s) l.val = none) :
    exec (.schedSelect (.port l)) s = .next (txOffered l s) := by
  change execSchedSelect (.port l) s = _
  simp only [txOffered] at hx
  simp only [execSchedSelect, selectTx, hx, txOffered]

theorem exec_schedSelect_host (h : HostId) (s : State) : exec (.schedSelect (.host h)) s = .next (selectRx h s) := rfl

theorem selectRx_none {h : HostId} {s : State} (hx : rxChoose s h = none) : selectRx h s = s := by
  simp only [selectRx, hx]

/-! The timing wheel and DTIME (R131, R228 to R230) -/

theorem mem_release_parked {p : Parked → Bool} {s : State} {e : Parked} : e ∈ (release p s).sched.parked ↔ e ∈ s.sched.parked ∧ p e = false := by
  simp [release, modSched]

theorem timingWheelSlotDue_completes (slot : Nat) (s : State) : Completes (exec (.timingWheelSlotDue slot) s) fun t =>
    (∀ e ∈ t.sched.parked, e ∈ s.sched.parked ∧ (e.coarse = true ∨ ceilDiv e.due 8 % 65536 ≠ slot)) ∧ changesOnly [.sched] s t := by
  refine ⟨_, rfl, fun e he => ?left, frame_timingWheelSlotDue s _ slot rfl⟩
  obtain ⟨hmem, hstay⟩ := mem_release_parked.mp he
  refine ⟨hmem, ?_⟩
  cases hcoarse : e.coarse with
  | true => exact Or.inl rfl
  | false => exact Or.inr (by simpa [hcoarse] using hstay)

theorem coarseSlotDue_completes (slot : Nat) (s : State) : Completes (exec (.coarseSlotDue slot) s) fun t =>
    (∀ e ∈ t.sched.parked, e.coarse = true → e.due / 524288 % 4096 ≠ slot) ∧ t.sched.parked.length = s.sched.parked.length ∧ changesOnly [.sched] s t := by
  refine ⟨_, rfl, fun e he hcoarse hslot => ?fine, List.length_map _, frame_coarseSlotDue s _ slot rfl⟩
  obtain ⟨e0, -, rfl⟩ := List.mem_map.mp he
  split at hcoarse
  next => exact Bool.noConfusion hcoarse
  next hno =>
    rw [if_neg hno] at hslot
    exact hno (by simp [hcoarse, hslot])

/-- DTIME moved on by a written step. -/
def dtimeMoved (v : Word) (s : State) : State := { s with dtime := s.dtime + v.toNat * 2 ^ 32 }

/-- A parked node's instant has passed. -/
def passedBy (s : State) (e : Parked) : Bool := e.due ≤ dtimeNs s

theorem exec_dtimeStep (v : Word) (s : State) : exec (.dtimeStep v) s =
    .next (release (passedBy (dtimeMoved v s)) (count 0x07 0 0x30002 (s.sched.parked.filter (passedBy (dtimeMoved v s))).length (dtimeMoved v s))) := by
  change execDtimeStep v s = _
  unfold execDtimeStep passedBy dtimeMoved
  rfl

theorem dtimeNs_congr {s t : State} (h : t.dtime = s.dtime) : dtimeNs t = dtimeNs s := by
  simp only [dtimeNs, h]

@[simp] theorem release_dtime (p : Parked → Bool) (s : State) : (release p s).dtime = s.dtime := rfl

theorem dtimeStep_completes (v : Word) (s : State) : Completes (exec (.dtimeStep v) s) fun t =>
    t.dtime = s.dtime + v.toNat * 2 ^ 32 ∧ (∀ e ∈ t.sched.parked, dtimeNs t < e.due) ∧ changesOnly [.sched, .dtime, .counters] s t := by
  have hdtime (p : Parked → Bool) (n : Nat) : (release p (count 0x07 0 0x30002 n (dtimeMoved v s))).dtime = (dtimeMoved v s).dtime := by simp
  refine ⟨_, exec_dtimeStep v s, hdtime _ _, fun e he => ?later, ?frame⟩
  case later =>
    rw [dtimeNs_congr (hdtime _ _)]
    obtain ⟨-, hstay⟩ := mem_release_parked.mp he
    exact Nat.not_le.mp (of_decide_eq_false hstay)
  case frame => exact execDtimeStep_only v s (listed rfl) (listed rfl) (listed rfl) (changesOnly_refl _ _) _ (exec_dtimeStep v s)

/-- Settles O39. -/
theorem pipelineAndSchedulerEventsComplete : Obligations.PipelineAndSchedulerEventsComplete := by
  unfold Obligations.PipelineAndSchedulerEventsComplete
  refine ⟨fun p s x r => exec_pipelineAdmit_input, fun p s => exec_pipelineAdmit_empty, fun p s t k => exec_recircAdmit_taken, fun p s t k l => exec_lpmRecircReadmit_taken,
    fun p s => exec_recircAdmit_none, fun p s => exec_lpmRecircReadmit_none, fun p s => rfl, fun t slot s => exec_gauntletKeyFetch_missing, fun t slot s => exec_gauntletKeyFetch_cached,
    fun l s t x sc ht => ?port, fun h s hx => ?idle, fun h s x sc _ => ⟨_, exec_schedSelect_host h s, rfl⟩, timingWheelSlotDue_completes, coarseSlotDue_completes, dtimeStep_completes, fun v s => rfl⟩
  case port =>
    obtain rfl : t = txOffered l s := ht
    refine ⟨fun hx => ?_, exec_schedSelect_port_none⟩
    cases he : txHods (txOffered l s) x with
    | error e => exact exec_schedSelect_port_refused hx he
    | ok a => exact exec_schedSelect_port_chosen hx he
  case idle => rw [exec_schedSelect_host, selectRx_none hx]

end Sys2Proof.Machine
end

section
/-! PROOF. Layouts, bring-up, link states, lane faults and hold-off of the Ethernet ports, the hod re-carve, and the end of a queue's hod wait (R121 to R130, R202, R211), for O40. -/

namespace Sys2Proof.Machine
open Sys2Proof

/-! What a port reads after the operations on the state -/

@[simp] theorem portOf_modPort (l : Lane) (f : EthPort → EthPort) (s : State) : portOf (modPort l f s) l = f (portOf s l) := by
  simp [portOf, modPort, vmod]

theorem portOf_of_eth_eq {s t : State} (h : t.eth = s.eth) (l : Lane) : portOf t l = portOf s l := by
  simp only [portOf, h]

@[simp] theorem raisePort_eth (l : Lane) (old new : LinkState) (cause : Nat) (s : State) : (raisePort l old new cause s).eth = s.eth :=
  changesOnly_eth (L := [.owner]) ((raisePort_only l old new cause s (by decide)).mpr (changesOnly_refl _ s)) (by decide)

@[simp] theorem raisePort_out (l : Lane) (old new : LinkState) (cause : Nat) (s : State) : (raisePort l old new cause s).out = s.out :=
  changesOnly_out (L := [.owner]) ((raisePort_only l old new cause s (by decide)).mpr (changesOnly_refl _ s)) (by decide)

@[simp] theorem portOf_raisePort (l k : Lane) (old new : LinkState) (cause : Nat) (s : State) : portOf (raisePort l old new cause s) k = portOf s k :=
  portOf_of_eth_eq (raisePort_eth l old new cause s) k

@[simp] theorem portOf_count (b i j n : Nat) (s : State) (k : Lane) : portOf (count b i j n s) k = portOf s k := rfl

@[simp] theorem portOf_emit (o : Out) (s : State) (k : Lane) : portOf (emit o s) k = portOf s k := rfl

/-! Layouts (R121 to R123) -/

section
variable {g : Group} {s : State}

theorem exec_ethApply_refused (h : (s.eth.groups[g]).busy = true ∨ badLayout s g = true) :
    exec (.ethApply g) s = .next (modGroup g (fun x => { x with badLayout := true }) s) := by
  have hbad : ((s.eth.groups[g]).busy || badLayout s g) = true := by simpa using h
  change Host.Outcome.next (ethApply g s) = _
  rw [ethApply, if_pos hbad]

theorem exec_ethApply_taken (hb : (s.eth.groups[g]).busy = false) (hl : badLayout s g = false) : exec (.ethApply g) s = .next (let ls := changedLanes s g
      modGroup g (fun x => { x with badLayout := false, busy := true, changed := ls.map fun l => (l.val, (portOf s l).state) }) (ls.foldl (fun s l => stopPort l s) s)) := by
  change Host.Outcome.next (ethApply g s) = _
  rw [ethApply, hb, hl, if_neg (by decide)]

theorem exec_ethApplyDone_idle (hb : (s.eth.groups[g]).busy = false) : exec (.ethApplyDone g) s = .next s := by
  change Host.Outcome.next (ethApplyDone 12 g s) = _
  rw [ethApplyDone, hb, if_pos (by decide)]

theorem ethApplyDone_unchanged (hb : (s.eth.groups[g]).busy = true) (hc : (s.eth.groups[g]).changed = []) :
    ethApplyDone 12 g s = saveLayout g (modGroup g (fun x => { x with busy := false, changed := [] }) s) := by
  rw [ethApplyDone, hb, hc, if_neg (by decide)]
  rfl

theorem exec_ethApplyDone_unchanged (hb : (s.eth.groups[g]).busy = true) (hc : (s.eth.groups[g]).changed = []) : Completes (exec (.ethApplyDone g) s) fun t =>
    (t.eth.groups[g]).busy = false ∧ t.nv.layouts[g] = some ((List.finRange 8).map fun k => s.eth.cfg[laneOf g k]) ∧ t.eth.ports = s.eth.ports := by
  refine ⟨_, congrArg Host.Outcome.next (ethApplyDone_unchanged hb hc), ?_⟩
  simp [saveLayout, modGroup, vmod, vset]

end

/-! Bring-up and link states (R124 to R128) -/

section
variable {l : Lane} {s : State}

theorem exec_anComplete_matched {a : AnPage} (hw : (portOf s l).width ≠ 0) (hst : (portOf s l).state = .an) (hwait : (portOf s l).anWait = false) (hm : a.abilityMatch = true) :
    exec (.anComplete l (some a)) s = .next (modPort l (fun p => { p with state := .training, partnerValid := true, partner := a.page.toNat }) s) := by
  change execAnComplete l (some a) s = _
  simp [execAnComplete, hw, hst, hwait, hm]

theorem exec_anComplete_failed {a : Option AnPage} (hw : (portOf s l).width ≠ 0) (hst : (portOf s l).state = .an) (hwait : (portOf s l).anWait = false)
    (hm : ∀ x, a = some x → x.abilityMatch = false) : exec (.anComplete l a) s = .next (raisePortFail l .an .an 9 (modPort l (fun p => { p with anWait := true }) s)) := by
  change execAnComplete l a s = _
  cases a with
  | none => simp [execAnComplete, hw, hst, hwait]
  | some x => simp [execAnComplete, hw, hst, hwait, hm x rfl]

theorem exec_anFailedRestart_completes (hst : (portOf s l).state = .an) : Completes (exec (.anFailedRestart l) s) fun t =>
    (portOf t l).anWait = false ∧ (portOf t l).state = .an := by
  change Completes (execAnFailedRestart l s) _
  rw [execAnFailedRestart, if_pos hst]
  refine ⟨_, rfl, ?_⟩
  simp [hst]

theorem exec_trainingDone_ok (hw : (portOf s l).width ≠ 0) (hst : (portOf s l).state = .training) : Completes (exec (.trainingDone l true) s) fun t =>
    (portOf t l).state = .aligning := by
  change Completes (execTrainingDone l true s) _
  simp only [execTrainingDone, hw, hst, ne_eq, not_true, or_self, if_false, if_true]
  refine ⟨_, rfl, ?_⟩
  simp

theorem exec_trainingDone_failed (hw : (portOf s l).width ≠ 0) (hst : (portOf s l).state = .training) : exec (.trainingDone l false) s = .next (
    let next := if cfgAn (portOf s l).cfg && cfgPmd (portOf s l).cfg != 2 then LinkState.an else LinkState.training
    raisePortFail l .training next 10 (modPort l (fun p => { p with state := next }) s)) := by
  change execTrainingDone l false s = _
  simp only [execTrainingDone, hw, hst, ne_eq, not_true, or_self, Bool.false_eq_true, if_false]

/-- A port that enters UP is up, and the time is counted. -/
theorem portOf_enterUp (l : Lane) (s : State) : (portOf (enterUp l s) l).state = .up ∧ (portOf (enterUp l s) l).linkUps = satAdd 0xFF (portOf s l).linkUps 1 := by
  simp [enterUp]

theorem exec_alignmentDone_up (hw : (portOf s l).width ≠ 0) (hst : (portOf s l).state = .aligning) : exec (.alignmentDone l) s = .next (enterUp l s) := by
  change execAlignmentDone l s = _
  simp only [execAlignmentDone, hw, hst, ne_eq, not_true, or_self, if_false]

theorem exec_faultSequencesStop_up (hw : (portOf s l).width ≠ 0) (hst : (portOf s l).state = .fault) : exec (.faultSequencesStop l) s = .next (enterUp l s) := by
  change execFaultSequencesStop l s = _
  simp only [execFaultSequencesStop, hw, hst, ne_eq, not_true, or_self, if_false]

theorem exec_faultSequencesReceived_completes (k : FaultSeq) (hw : (portOf s l).width ≠ 0) (hst : (portOf s l).state = .up) :
    Completes (exec (.faultSequencesReceived l k) s) fun t =>
      (portOf t l).state = .fault ∧ t.out = .portSignal l.val (match k with | .localFault => 3 | .remoteFault => 1) :: s.out := by
  change Completes (execFaultSequencesReceived l k s) _
  simp only [execFaultSequencesReceived, hw, hst, ne_eq, not_true, or_self, if_false]
  cases k <;> exact ⟨_, rfl, by simp, by simp [emit]⟩

/-! Hold-off (R129) -/

/-- The lanes that lose their alignment are counted. -/
def lossesCounted (ls : List Lane) (s : State) : State := ls.foldl (fun s l => count 0x02 0 (32 * l.val + 25) 1 s) s

theorem lossesCounted_eth (ls : List Lane) (s : State) : (lossesCounted ls s).eth = s.eth :=
  foldl_eq_of_step (g := fun s (l : Lane) => count 0x02 0 (32 * l.val + 25) 1 s) (part := State.eth) (fun _ _ => rfl) ls s

theorem lossesCounted_owner (ls : List Lane) (s : State) : (lossesCounted ls s).owner = s.owner :=
  foldl_eq_of_step (g := fun s (l : Lane) => count 0x02 0 (32 * l.val + 25) 1 s) (part := State.owner) (fun _ _ => rfl) ls s

section
variable (k : AlignLoss) (hw : (portOf s l).width ≠ 0) (hst : (portOf s l).state = .up ∨ (portOf s l).state = .fault)
include hw hst

theorem exec_alignmentLost_now (hh : s.eth.holdoff = 0) : Completes (exec (.alignmentLost l k) s) fun t => (portOf t l).state = .aligning := by
  change Completes (.next (loseAlignment l k s)) _
  simp only [loseAlignment, hw, hst, hh, not_true, or_self, if_false, if_true]
  refine ⟨_, rfl, ?_⟩
  simp

theorem exec_alignmentLost_held (hh : s.eth.holdoff ≠ 0) : Completes (exec (.alignmentLost l k) s) fun t =>
    (portOf t l).state = .hold ∧ (portOf t l).heldState = (portOf s l).state ∧ t.owner = s.owner := by
  change Completes (.next (loseAlignment l k s)) _
  simp only [loseAlignment, hw, hst, hh, not_true, or_self, if_false]
  refine ⟨_, rfl, ?_⟩
  have hport := portOf_of_eth_eq (lossesCounted_eth k.lanes s) l
  have howner := lossesCounted_owner k.lanes s
  unfold lossesCounted at hport howner
  simp [hport, howner]

end

theorem exec_alignmentReturnInHold_completes (hw : (portOf s l).width ≠ 0) (hst : (portOf s l).state = .hold) :
    Completes (exec (.alignmentReturnInHold l) s) fun t => (portOf t l).state = .up ∧ t.owner = s.owner := by
  change Completes (execAlignmentReturnInHold l s) _
  simp only [execAlignmentReturnInHold, hw, hst, ne_eq, not_true, or_self, if_false]
  refine ⟨_, rfl, ?_⟩
  simp

theorem exec_holdoffExpiry_completes (hw : (portOf s l).width ≠ 0) (hst : (portOf s l).state = .hold) :
    Completes (exec (.holdoffExpiry l) s) fun t => (portOf t l).state =
      if (portOf s l).heldCause = 5 ∧ cfgPmd (portOf s l).cfg ≠ 2 then LinkState.training else LinkState.aligning := by
  change Completes (execHoldoffExpiry l s) _
  simp only [execHoldoffExpiry, hw, hst, ne_eq, not_true, or_self, if_false]
  refine ⟨_, rfl, ?_⟩
  simp

/-! Lane faults (R130) -/

theorem exec_ethLaneFault_new (hfw : s.glb.fwRuns = true) (hnew : bitAt (s.eth.groups[groupOf l]).laneFault (l.val % 8) = false) :
    exec (.ethLaneFault l) s = .next (unitLost 0x07 6 l.val (2 ^ (l.val % 8)) (laneFault l s)) := by
  change execEthLaneFault l s = _
  rw [execEthLaneFault, hfw, hnew, if_neg (by decide)]

theorem exec_ethLaneFault_known (hk : bitAt (s.eth.groups[groupOf l]).laneFault (l.val % 8) = true) : exec (.ethLaneFault l) s = .next s := by
  change execEthLaneFault l s = _
  rw [execEthLaneFault, hk, Bool.or_true, if_pos rfl]

/-- A lane that no port starts on takes no link event. -/
theorem exec_noPort (a : Option AnPage) (k : FaultSeq) (ok : Bool) (hw : (portOf s l).width = 0) :
    ∀ i ∈ [Instr.anComplete l a, .trainingDone l ok, .alignmentDone l, .faultSequencesStop l, .faultSequencesReceived l k, .alignmentReturnInHold l, .holdoffExpiry l],
      exec i s = .next s := by
  have hAn : execAnComplete l a s = .next s := by simp [execAnComplete, hw]
  have hTraining : execTrainingDone l ok s = .next s := by simp [execTrainingDone, hw]
  have hAligned : execAlignmentDone l s = .next s := by simp [execAlignmentDone, hw]
  have hStop : execFaultSequencesStop l s = .next s := by simp [execFaultSequencesStop, hw]
  have hFault : execFaultSequencesReceived l k s = .next s := by simp [execFaultSequencesReceived, hw]
  have hReturn : execAlignmentReturnInHold l s = .next s := by simp [execAlignmentReturnInHold, hw]
  have hExpiry : execHoldoffExpiry l s = .next s := by simp [execHoldoffExpiry, hw]
  simp only [List.forall_mem_cons, List.not_mem_nil, false_imp_iff, implies_true, and_true]
  exact ⟨hAn, hTraining, hAligned, hStop, hFault, hReturn, hExpiry⟩

end

/-! The hod store (R202, R211) -/

section
variable {s : State}

theorem exec_hodCarveApply_refused (h : badCarve s = true) : exec .hodCarveApply s = .next (modHod (fun x => { x with badCarve := true }) s) := by
  change Host.Outcome.next (hodApply s) = _
  rw [hodApply, if_pos h]

theorem exec_hodCarveApply_taken (h : badCarve s = false) : exec .hodCarveApply s = .next (modHod (fun x => { x with busy := true }) s) := by
  change Host.Outcome.next (hodApply s) = _
  rw [hodApply, h, if_neg (by decide)]

theorem exec_hodCarveApplyDone_busy (h : s.hod.busy = true) :
    exec .hodCarveApplyDone s = .next (modHod (fun x => { x with busy := false, counts := x.cfg, rxPool := x.rxCfg }) s) := by
  change execHodCarveApplyDone s = _
  rw [execHodCarveApplyDone, if_pos h]

theorem exec_hodCarveApplyDone_idle (h : s.hod.busy = false) : exec .hodCarveApplyDone s = .next s := by
  change execHodCarveApplyDone s = _
  rw [execHodCarveApplyDone, h, if_neg (by decide)]

variable {h : HostId} {f : Fn} {q : BitVec 16} {x : Queue}

/-- A queue's wait for hods ends when the hods it waits for are free. -/
def hodWaitOver (h : HostId) (f : Fn) (q : Nat) (x : Queue) (len : Nat) (s : State) : State :=
  match allocHods (fnPayer h f) (x.cls == 7) (x.cls == 7) len s with
  | .ok _ => modQueue h f q (fun x => { x with hodWait := false }) s
  | .error _ => s

theorem exec_txHodWaitEnd_due {t : TxPkt} {r : List TxPkt} (hq : queue s h f q.toNat = some x) (hk : x.kind = 1) (hr : x.ready = t :: r) (hw : x.hodWait = true) :
    exec (.txHodWaitEnd h f q) s = .next (hodWaitOver h f q.toNat x t.len s) := by
  change execTxHodWaitEnd h f q s = _
  cases ha : allocHods (fnPayer h f) (x.cls == 7) (x.cls == 7) t.len s <;>
    simp only [execTxHodWaitEnd, hodWaitOver, hq, hk, hr, hw, ha, Bool.not_true, Bool.false_eq_true, if_false]

theorem exec_txHodWaitEnd_idle (hq : queue s h f q.toNat = some x) (hw : x.hodWait = false) : exec (.txHodWaitEnd h f q) s = .next s := by
  change execTxHodWaitEnd h f q s = _
  simp only [execTxHodWaitEnd, hq, hw, Bool.not_false, if_true]

end

/-- Settles O40. -/
theorem ethernetAndCarveEventsComplete : Obligations.EthernetAndCarveEventsComplete := by
  unfold Obligations.EthernetAndCarveEventsComplete
  refine ⟨fun g s => ⟨exec_ethApply_refused, exec_ethApply_taken, fun _ => rfl, exec_ethApplyDone_idle, exec_ethApplyDone_unchanged⟩, fun l s => ?ports,
    fun s => ⟨exec_hodCarveApply_refused, exec_hodCarveApply_taken, exec_hodCarveApplyDone_busy, exec_hodCarveApplyDone_idle⟩, ?waits, fun h f q x s => exec_txHodWaitEnd_idle⟩
  case ports =>
    exact ⟨fun a => exec_anComplete_matched, fun a => exec_anComplete_failed, exec_anFailedRestart_completes, exec_trainingDone_ok, exec_trainingDone_failed,
      fun hw hst => ⟨_, exec_alignmentDone_up hw hst, portOf_enterUp l s⟩, fun hw hst => ⟨_, exec_faultSequencesStop_up hw hst, portOf_enterUp l s⟩,
      exec_faultSequencesReceived_completes, exec_alignmentLost_now, exec_alignmentLost_held, exec_alignmentReturnInHold_completes, exec_holdoffExpiry_completes,
      exec_ethLaneFault_new, exec_ethLaneFault_known, exec_noPort⟩
  case waits =>
    intro h f q x t r s hq hk hr hw
    rw [exec_txHodWaitEnd_due hq hk hr hw]
    cases ha : allocHods (fnPayer h f) (x.cls == 7) (x.cls == 7) t.len s <;> simp only [hodWaitOver, ha]

end Sys2Proof.Machine
end

section
/-! PROOF. Context fetches and evictions, executions, acknowledgements, responses, probes, the doorbells and the timers of an LRD connection (R102, R239, R247, R252 to R260, R278 to R286), for O41. -/

namespace Sys2Proof.Machine
open Sys2Proof

theorem conn_modConn (k j : Nat) (f : Conn → Conn) (s : State) : conn (modConn k f s) j = if j = k then (conn s k).map f else conn s j :=
  Tbl.find_modify s.ctx.conns k j f

/-- A context's read of the host's memory has ended. -/
def fetchEnded (k : Nat) (s : State) : State :=
  match contextRead s k with
  | some (h, q) => endRead h q.tag s
  | none => s

theorem fetchEnded_none {k : Nat} {s : State} (h : contextRead s k = none) : fetchEnded k s = s := by
  simp only [fetchEnded, h]

theorem fetchEnded_some {k : Nat} {s : State} {x : HostId × ReadReq} (h : contextRead s k = some x) : fetchEnded k s = endRead x.1 x.2.tag s := by
  simp only [fetchEnded, h]

section
variable {d : Domain} {n : ConnNo} {s : State} {c : Conn} (hc : conn s (rowKey d n) = some c)
include hc

/-! Contexts (R278 to R286) -/

theorem execContextFetchDone_ended (r : FetchResult) (hf : c.fetching = true) (hv : c.noVictim = false) (hx : xportStopped s = false) :
    execContextFetchDone d n r s = .next (if r = .ok ∧ !c.imageBad then fetched (rowKey d n) (fetchEnded (rowKey d n) s)
      else contextLost (rowKey d n) (if r = .checkFailed ∨ c.imageBad then countC (rowKey d n) 11 (fetchEnded (rowKey d n) s) else fetchEnded (rowKey d n) s)) := by
  cases hread : contextRead s (rowKey d n) with
  | none =>
    rw [fetchEnded_none hread]
    simp only [execContextFetchDone, hc, hf, hv, hx, hread, Bool.not_true, Bool.or_self, Bool.false_eq_true, if_false]
  | some x =>
    rw [fetchEnded_some hread]
    simp only [execContextFetchDone, hc, hf, hv, hx, hread, Bool.not_true, Bool.or_self, Bool.false_eq_true, if_false]

theorem exec_contextFetchDone_ok (hf : c.fetching = true) (hv : c.noVictim = false) (hx : xportStopped s = false) (hb : c.imageBad = false) :
    exec (.contextFetchDone d n .ok) s = .next (fetched (rowKey d n) (fetchEnded (rowKey d n) s)) := by
  change execContextFetchDone d n _ s = _
  rw [execContextFetchDone_ended hc .ok hf hv hx, hb, if_pos ⟨rfl, rfl⟩]

theorem exec_contextFetchDone_checkFailed (hf : c.fetching = true) (hv : c.noVictim = false) (hx : xportStopped s = false) :
    exec (.contextFetchDone d n .checkFailed) s = .next (contextLost (rowKey d n) (countC (rowKey d n) 11 (fetchEnded (rowKey d n) s))) := by
  change execContextFetchDone d n _ s = _
  rw [execContextFetchDone_ended hc .checkFailed hf hv hx, if_neg (fun h => FetchResult.noConfusion h.1), if_pos (Or.inl rfl)]

theorem exec_contextFetchDone_idle (r : FetchResult) (hno : c.fetching = false ∨ c.noVictim = true ∨ xportStopped s = true) :
    exec (.contextFetchDone d n r) s = .next s := by
  have hskip : (!c.fetching || c.noVictim || xportStopped s) = true := by
    rcases hno with h | h | h <;> simp [h]
  change execContextFetchDone d n r s = _
  simp only [execContextFetchDone, hc, hskip, if_true]

theorem exec_evictionWriteDone_unwanted (ok : Bool) (he : c.evicting = true) (hch : c.chain = []) (hp : c.pinDue = false) (hsq : c.sq = []) :
    exec (.evictionWriteDone d n ok) s = .next (modConn (rowKey d n) (fun c => { c with evicting := false, imageBad := c.imageBad || !ok }) s) := by
  change execEvictionWriteDone d n ok s = _
  simp only [execEvictionWriteDone, hc, he, hch, hp, hsq, List.isEmpty_nil, List.any_nil, Bool.not_true, Bool.or_self, Bool.false_and, Bool.false_eq_true, if_false]

theorem exec_evictionWriteDone_done (ok : Bool) (he : c.evicting = true) (hch : c.chain = []) (hp : c.pinDue = false) (hsq : c.sq = []) :
    Completes (exec (.evictionWriteDone d n ok) s) fun t =>
      conn t (rowKey d n) = some { c with evicting := false, imageBad := c.imageBad || !ok } ∧ (∀ j, j ≠ rowKey d n → conn t j = conn s j) := by
  refine ⟨_, exec_evictionWriteDone_unwanted hc ok he hch hp hsq, ?_, fun j hj => ?_⟩
  · rw [conn_modConn, if_pos rfl, hc, Option.map_some]
  · rw [conn_modConn, if_neg hj]

theorem exec_evictionWriteDone_chained (ok : Bool) (he : c.evicting = true) (hch : c.chain ≠ []) (hf : c.fetching = false) : exec (.evictionWriteDone d n ok) s =
    .next (startFetch (rowKey d n) (modConn (rowKey d n) (fun c => { c with evicting := false, imageBad := c.imageBad || !ok }) s)) := by
  have hne : c.chain.isEmpty = false := by simpa using hch
  change execEvictionWriteDone d n ok s = _
  simp only [execEvictionWriteDone, hc, he, hne, hf, Bool.not_true, Bool.not_false, Bool.true_or, Bool.and_self, Bool.false_eq_true, if_false, if_true]

theorem exec_evictionWriteDone_idle (ok : Bool) (he : c.evicting = false) : exec (.evictionWriteDone d n ok) s = .next s := by
  change execEvictionWriteDone d n ok s = _
  simp only [execEvictionWriteDone, hc, he, Bool.not_false, if_true]

theorem exec_fetchNoVictimRetry_due (hv : c.noVictim = true) (hx : xportStopped s = false) : exec (.fetchNoVictimRetry d n) s = .next (startFetch (rowKey d n) s) := by
  change execFetchNoVictimRetry d n s = _
  simp only [execFetchNoVictimRetry, hc, hv, hx, Bool.not_false, Bool.and_self, if_true]

theorem exec_fetchNoVictimRetry_idle (hv : c.noVictim = false) : exec (.fetchNoVictimRetry d n) s = .next s := by
  change execFetchNoVictimRetry d n s = _
  simp only [execFetchNoVictimRetry, hc, hv, Bool.false_and, Bool.false_eq_true, if_false]

/-! Executions (R252, R253) -/

theorem exec_lrdExecutionDone_ready (psn : BitVec 32) (hr : execReady c psn.toNat = true) :
    exec (.lrdExecutionDone d n psn) s = .next (farm (execDone (rowKey d n) psn.toNat s)) := by
  change execLrdExecutionDone d n psn s = _
  simp only [execLrdExecutionDone, hc, hr, if_true]

theorem exec_lrdExecutionDone_idle (psn : BitVec 32) (hr : execReady c psn.toNat = false) : exec (.lrdExecutionDone d n psn) s = .next s := by
  change execLrdExecutionDone d n psn s = _
  simp only [execLrdExecutionDone, hc, hr, Bool.false_eq_true, if_false]

/-! Doorbells (R102, R247) -/

theorem exec_lrdSqDoorbell_posted (v : Word) (wrs : List WorkRequest) {q : Queue} {new : Nat} (hq : connQueue s c c.cfg.sq = some q) (hn : newSlots q v.toNat = some new)
    (hread : (wrs.take new).all (·.readOk) = true) : exec (.lrdSqDoorbell d n v wrs) s = .next (
      let t := settleWrs (rowKey d n) (takeWrs (rowKey d n) q ((wrs.take new).filter (·.readOk)) (modConnQueue c c.cfg.sq (fun q => { q with doorbell := v.toNat % 2 ^ 15, fetched := v.toNat % 2 ^ 15 }) s))
      if c.resident || c.state == 2 then t else missFetch (rowKey d n) t) := by
  have hnone : (wrs.take new).any (fun w => !w.readOk) = false := by
    rw [← Bool.not_eq_true', ← List.all_eq_not_any_not, hread]
  change execLrdSqDoorbell d n v wrs s = _
  simp only [execLrdSqDoorbell, hc, hq, hn, hnone, Bool.false_eq_true, if_false]

theorem exec_lrdSqDoorbell_undefined (v : Word) (wrs : List WorkRequest) {q : Queue} (hq : connQueue s c c.cfg.sq = some q) (hn : newSlots q v.toNat = none) :
    exec (.lrdSqDoorbell d n v wrs) s = .refused (.undefinedCase 102) := by
  change execLrdSqDoorbell d n v wrs s = _
  simp only [execLrdSqDoorbell, hc, hq, hn]

theorem exec_lrdRqDoorbell_nothing (v : Word) {q : Queue} (hq : connQueue s c c.cfg.rq = some q) (hn : newSlots q v.toNat = some 0) (hst : c.state ≠ 2) :
    exec (.lrdRqDoorbell d n v []) s = .next (modConn (rowKey d n) (fun c => { c with rq := c.rq ++ [] })
      (modConnQueue c c.cfg.rq (fun q => { q with doorbell := v.toNat % 2 ^ 15, fetched := v.toNat % 2 ^ 15 }) s)) := by
  change execLrdRqDoorbell d n v [] s = _
  simp only [execLrdRqDoorbell, hc, hq, hn, hst, List.take_nil, List.filter_nil, List.map_nil, List.any_nil, Bool.false_eq_true, if_false]

theorem exec_lrdRqDoorbell_undefined (v : Word) (bufs : List RecvBuffer) {q : Queue} (hq : connQueue s c c.cfg.rq = some q) (hn : newSlots q v.toNat = none) :
    exec (.lrdRqDoorbell d n v bufs) s = .refused (.undefinedCase 102) := by
  change execLrdRqDoorbell d n v bufs s = _
  simp only [execLrdRqDoorbell, hc, hq, hn]

/-! Timers (R256 to R260) -/

section
variable (hx : xportStopped s = false) (hst : c.state ≠ 2) (hd : drained c = false)
include hx hst hd

theorem exec_lrdRetransmitTimer_exhausted (hl : s.ctx.cfg.retryLimit < c.timeouts + 1) :
    exec (.lrdRetransmitTimer d n) s = .next (farm (connError (rowKey d n) 1 6 c.una 6 (countX (rowKey d n) 14 s))) := by
  change Host.Outcome.next (farm (lrdRetransmitTimer d n s)) = _
  simp only [lrdRetransmitTimer, hc, hx, hd, beq_eq_false_iff_ne.mpr hst, hl, Bool.or_self, Bool.false_eq_true, if_false, if_true]

theorem exec_lrdRetransmitTimer_again (hl : c.timeouts + 1 ≤ s.ctx.cfg.retryLimit) : exec (.lrdRetransmitTimer d n) s = .next (farm (modConn (rowKey d n) (fun c =>
      let r := retransmit { c with backoff := c.backoff * 2, timeouts := c.timeouts + 1 }
      if c.cfg.ccOff then r else { r with rate := max c.cfg.minRate (c.rate / 2), lastAdj := dtimeNs s }) (countX (rowKey d n) 14 s))) := by
  change Host.Outcome.next (farm (lrdRetransmitTimer d n s)) = _
  simp only [lrdRetransmitTimer, hc, hx, hd, beq_eq_false_iff_ne.mpr hst, Nat.not_lt.mpr hl, Bool.or_self, Bool.false_eq_true, if_false]

end

theorem exec_lrdProbeTimer_due (hx : xportStopped s = false) (hst : c.state ≠ 2) (hu : c.una ≠ c.nxt) (hp : c.probed = false) :
    exec (.lrdProbeTimer d n) s = .next (fastRetx (rowKey d n) (modConn (rowKey d n) (fun c => { c with probe := true, probed := true }) s)) := by
  change execLrdProbeTimer d n s = _
  simp only [execLrdProbeTimer, hc, hx, hp, beq_eq_false_iff_ne.mpr hst, beq_eq_false_iff_ne.mpr hu, Bool.or_self, Bool.false_eq_true, if_false]

theorem exec_lrdProbeTimer_probed (hp : c.probed = true) : exec (.lrdProbeTimer d n) s = .next s := by
  change execLrdProbeTimer d n s = _
  simp only [execLrdProbeTimer, hc, hp, Bool.or_true, if_true]

theorem exec_lrdAckDelayTimer_due {o : Owed} (hx : xportStopped s = false) (hu : c.execUnacked ≠ 0) (hl : c.lastExec = some o) :
    exec (.lrdAckDelayTimer d n) s = .next (oweAck (rowKey d n) o.echo o.arrived s) := by
  change execLrdAckDelayTimer d n s = _
  simp only [execLrdAckDelayTimer, hc, hx, hl, beq_eq_false_iff_ne.mpr hu, Bool.or_self, Bool.false_eq_true, if_false]

theorem exec_lrdAckDelayTimer_idle (hu : c.execUnacked = 0) : exec (.lrdAckDelayTimer d n) s = .next s := by
  change execLrdAckDelayTimer d n s = _
  simp only [execLrdAckDelayTimer, hc, hu, beq_self_eq_true, Bool.or_true, if_true]

theorem exec_lrdRnrTimer_due {psn : Nat} (hx : xportStopped s = false) (hr : c.rnrHold = some psn) : Completes (exec (.lrdRnrTimer d n) s) fun t =>
    ∃ c', conn t (rowKey d n) = some c' ∧ c'.rnrHold = none ∧ ∀ p ∈ c'.sent, p.acked = false → before c.una p.psn psn = false → p.due = true := by
  change Completes (execLrdRnrTimer d n s) _
  simp only [execLrdRnrTimer, hc, hr, hx, Bool.false_eq_true, if_false]
  refine ⟨_, rfl, _, by rw [conn_modConn, if_pos rfl, hc]; rfl, rfl, fun p hp hack hpsn => ?_⟩
  obtain ⟨p0, -, rfl⟩ := List.mem_map.mp hp
  by_cases hheld : (!p0.acked && !before c.una p0.psn psn) = true
  · rw [if_pos hheld]
  · rw [if_neg hheld] at hack hpsn
    exact absurd (by rw [hack, hpsn]; rfl) hheld

theorem exec_lrdRnrTimer_idle (hr : c.rnrHold = none) : exec (.lrdRnrTimer d n) s = .next s := by
  change execLrdRnrTimer d n s = _
  simp only [execLrdRnrTimer, hc, hr]

end

/-! Acknowledgements, NAKs, probes and responses (R239, R254, R255) -/

section
variable {d : Domain} {n : ConnNo} {s t : State} {p : LrdPkt}

theorem exec_lrdAckRx_taken (hp : takeInbox (rowKey d n) 0x10 s = some (p, t)) : exec (.lrdAckRx d n) s = .next (ackRx (rowKey d n) p (countX (rowKey d n) 11 t)) := by
  change execLrdAckRx d n s = _
  simp only [execLrdAckRx, hp]

theorem exec_lrdAckRx_none (hp : takeInbox (rowKey d n) 0x10 s = none) : exec (.lrdAckRx d n) s = .next s := by
  change execLrdAckRx d n s = _
  simp only [execLrdAckRx, hp]

theorem exec_lrdNakRx_fatal (hp : takeInbox (rowKey d n) 0x11 s = some (p, t)) (hcode : p.e 1 / 2 ^ 24 = 5 ∨ p.e 1 / 2 ^ 24 = 6) {c : Conn}
    (hc : conn (countX (rowKey d n) 12 t) (rowKey d n) = some c) :
    exec (.lrdNakRx d n) s = .next (farm (connError (rowKey d n) (nakCause (p.e 1 / 2 ^ 24)) (p.e 1 / 2 ^ 24) (p.e 2) 0 (countX (rowKey d n) 12 t))) := by
  change Host.Outcome.next (farm (lrdNakRx d n s)) = _
  simp only [lrdNakRx, hp, hc, hcode, if_true]

theorem exec_lrdNakRx_rnr (hp : takeInbox (rowKey d n) 0x11 s = some (p, t)) (hcode : p.e 1 / 2 ^ 24 = 1) {c : Conn}
    (hc : conn (countX (rowKey d n) 12 t) (rowKey d n) = some c) :
    exec (.lrdNakRx d n) s = .next (farm (rnrNak (rowKey d n) (p.e 2) (ackRx (rowKey d n) p (countX (rowKey d n) 12 t)))) := by
  change Host.Outcome.next (farm (lrdNakRx d n s)) = _
  simp only [lrdNakRx, hp, hc, hcode, Nat.reduceEqDiff, or_self, if_false, if_true]

theorem exec_lrdNakRx_none (hp : takeInbox (rowKey d n) 0x11 s = none) : exec (.lrdNakRx d n) s = .next (farm s) := by
  change Host.Outcome.next (farm (lrdNakRx d n s)) = _
  simp only [lrdNakRx, hp]

theorem exec_lrdProbeRx_taken (hp : takeInbox (rowKey d n) 0x12 s = some (p, t)) : exec (.lrdProbeRx d n) s = .next (oweAck (rowKey d n) p.stamp p.arrived t) := by
  change execLrdProbeRx d n s = _
  simp only [execLrdProbeRx, hp]

theorem exec_lrdProbeRx_none (hp : takeInbox (rowKey d n) 0x12 s = none) : exec (.lrdProbeRx d n) s = .next s := by
  change execLrdProbeRx d n s = _
  simp only [execLrdProbeRx, hp]

section
variable {c : Conn} (hp : takeInbox (rowKey d n) 0x04 s = some (p, t)) (hc : conn t (rowKey d n) = some c)
include hp hc

theorem exec_lrdReadRspRx_placed {w : LrdWr} {o : Nat} (hw : rspWr c p = some w) (ho : c.owner = some o) (hl : p.e 0 + p.len ≤ w.len) :
    exec (.lrdReadRspRx d n) s = .next (settleWrs (rowKey d n) (emit (.hostWrite (ownerFn o).1 (ownerFn o).2 (w.addr + p.e 0) p.payload)
      (modConn (rowKey d n) (fun c => { c with backoff := 1, timeouts := 0, sq := c.sq.map fun x => if x.serial = w.serial then { x with got := x.got ++ [(p.e 0, p.e 0 + p.len)] } else x }) t))) := by
  change execLrdReadRspRx d n s = _
  simp only [execLrdReadRspRx, hp, hc, hw, ho, Nat.not_lt.mpr hl, if_false]

theorem exec_lrdReadRspRx_unasked (hw : rspWr c p = none) : exec (.lrdReadRspRx d n) s = .next (countX (rowKey d n) 18 t) := by
  change execLrdReadRspRx d n s = _
  simp only [execLrdReadRspRx, hp, hc, hw]

end

/-! The recent list and absent connections -/

theorem exec_recentListExpiry_completes {i : Nat} (hi : s.ctx.recent.findIdx? (fun e => decide (e.1 = rowKey d n)) = some i) :
    Completes (exec (.recentListExpiry d n) s) fun t => t.ctx.recent = s.ctx.recent.eraseIdx i ∧ changesOnly [.ctx] s t := by
  refine ⟨_, rfl, ?_, execRecentListExpiry_only d n s (listed rfl) (changesOnly_refl _ _) _ rfl⟩
  simp only [modCtx, hi]

theorem exec_noConn (psn : BitVec 32) (r : FetchResult) (ok : Bool) (v : Word) (wrs : List WorkRequest) (bufs : List RecvBuffer) (hc : conn s (rowKey d n) = none) :
    ∀ i ∈ [Instr.contextFetchDone d n r, .evictionWriteDone d n ok, .fetchNoVictimRetry d n, .lrdExecutionDone d n psn, .lrdSqDoorbell d n v wrs, .lrdRqDoorbell d n v bufs,
      .lrdProbeTimer d n, .lrdAckDelayTimer d n, .lrdRnrTimer d n], exec i s = .next s := by
  have hFetch : execContextFetchDone d n r s = .next s := by simp [execContextFetchDone, hc]
  have hEvict : execEvictionWriteDone d n ok s = .next s := by simp [execEvictionWriteDone, hc]
  have hRetry : execFetchNoVictimRetry d n s = .next s := by simp [execFetchNoVictimRetry, hc]
  have hExec : execLrdExecutionDone d n psn s = .next s := by simp [execLrdExecutionDone, hc]
  have hSq : execLrdSqDoorbell d n v wrs s = .next s := by simp [execLrdSqDoorbell, hc]
  have hRq : execLrdRqDoorbell d n v bufs s = .next s := by simp [execLrdRqDoorbell, hc]
  have hProbe : execLrdProbeTimer d n s = .next s := by simp [execLrdProbeTimer, hc]
  have hAck : execLrdAckDelayTimer d n s = .next s := by simp [execLrdAckDelayTimer, hc]
  have hRnr : execLrdRnrTimer d n s = .next s := by simp [execLrdRnrTimer, hc]
  simp only [List.forall_mem_cons, List.not_mem_nil, false_imp_iff, implies_true, and_true]
  exact ⟨hFetch, hEvict, hRetry, hExec, hSq, hRq, hProbe, hAck, hRnr⟩

end

/-- Settles O41. -/
theorem lrdEventsComplete : Obligations.LrdEventsComplete := by
  unfold Obligations.LrdEventsComplete
  intro d n s
  refine ⟨fun c hc => ?conn, fun psn => rfl, fun i => exec_recentListExpiry_completes, exec_noConn⟩
  refine ⟨fun hf hv hx hb => ?fetched, fun hf hv hx => ?failed, exec_contextFetchDone_idle hc, exec_evictionWriteDone_done hc, exec_evictionWriteDone_chained hc,
    exec_evictionWriteDone_idle hc, exec_fetchNoVictimRetry_due hc, exec_fetchNoVictimRetry_idle hc, exec_lrdExecutionDone_ready hc, exec_lrdExecutionDone_idle hc,
    fun p t => exec_lrdAckRx_taken, fun p t hp => ⟨fun hcode c' => exec_lrdNakRx_fatal hp hcode, fun hcode c' => exec_lrdNakRx_rnr hp hcode⟩, fun p t => exec_lrdProbeRx_taken,
    fun p t c' w o hp hc hw => exec_lrdReadRspRx_placed hp hc hw, fun p t c' hp hc => exec_lrdReadRspRx_unasked hp hc, exec_lrdAckRx_none, exec_lrdNakRx_none, exec_lrdProbeRx_none,
    fun v wrs q new => exec_lrdSqDoorbell_posted hc v wrs, fun v wrs q => exec_lrdSqDoorbell_undefined hc v wrs, fun v q => exec_lrdRqDoorbell_nothing hc v,
    fun v bufs q => exec_lrdRqDoorbell_undefined hc v bufs, exec_lrdRetransmitTimer_exhausted hc, exec_lrdRetransmitTimer_again hc, exec_lrdProbeTimer_due hc,
    exec_lrdProbeTimer_probed hc, fun o => exec_lrdAckDelayTimer_due hc, exec_lrdAckDelayTimer_idle hc, fun psn => exec_lrdRnrTimer_due hc, exec_lrdRnrTimer_idle hc⟩
  case fetched =>
    rw [exec_contextFetchDone_ok hc hf hv hx hb]
    cases hread : contextRead s (rowKey d n) with
    | none => rw [fetchEnded_none hread]
    | some x => rw [fetchEnded_some hread]
  case failed =>
    rw [exec_contextFetchDone_checkFailed hc hf hv hx]
    cases hread : contextRead s (rowKey d n) with
    | none => rw [fetchEnded_none hread]
    | some x => rw [fetchEnded_some hread]

end Sys2Proof.Machine
end

section
/-! PROOF. The registers, resets, shutdowns and doorbells of an NVMe controller, and its self-test's steps (R299 to R301, R327), for O42. -/

namespace Sys2Proof.Machine
open Sys2Proof

/-! What a controller reads after one was changed -/

@[simp] theorem ctrl_modCtrl (k : Nat) (f : Ctrl → Ctrl) (s : State) : ctrl (modCtrl k f s) k = f (ctrl s k) :=
  Tbl.getD_put_same _ _ _ _

theorem ctrl_modCtrl_other {j k : Nat} (hne : j ≠ k) (f : Ctrl → Ctrl) (s : State) : ctrl (modCtrl k f s) j = ctrl s j :=
  Tbl.getD_put_other _ _ _ _ _ hne

theorem modCtrl_frame (k : Nat) (f : Ctrl → Ctrl) (s : State) : changesOnly [.nvme] s (modCtrl k f s) :=
  (modCtrl_only k f s (by decide)).mpr (changesOnly_refl _ s)

section
variable {h : HostId} {f : Fn} {s : State}

section
variable (hp : ctrlPresent s h f = true)
include hp

/-! Enabling and shutting down (R299, R300) -/

theorem exec_nvmeCcEnSet_completes (cc : Word) (hr : (ctrl s (fnKey h f)).ready = false) : Completes (exec (.nvmeCcEnSet h f cc) s) fun t =>
    (ctrl t (fnKey h f)).ready = true ∧ (ctrl t (fnKey h f)).shst = 0 ∧ (ctrl t (fnKey h f)).cc = cc.toNat ||| 1 ∧
      (ctrl t (fnKey h f)).sqs = [(0, { size := (ctrl s (fnKey h f)).aqa % 4096 + 1, base := (ctrl s (fnKey h f)).asq, cq := 0, prio := 0, head := 0, tail := 0 })] ∧
      (∀ j, j ≠ fnKey h f → ctrl t j = ctrl s j) ∧ changesOnly [.nvme] s t := by
  change Completes (execNvmeCcEnSet h f cc s) _
  simp only [execNvmeCcEnSet, hp, hr, Bool.not_true, Bool.or_self, Bool.false_eq_true, if_false]
  refine ⟨_, rfl, ?_⟩
  dsimp only
  rw [ctrl_modCtrl]
  exact ⟨rfl, rfl, rfl, rfl, fun j hj => ctrl_modCtrl_other hj _ s, modCtrl_frame _ _ s⟩

omit hp in
theorem exec_nvmeCcEnSet_ready (cc : Word) (hr : (ctrl s (fnKey h f)).ready = true) : exec (.nvmeCcEnSet h f cc) s = .next s := by
  change execNvmeCcEnSet h f cc s = _
  simp only [execNvmeCcEnSet, hr, Bool.or_true, if_true]

theorem exec_nvmeCcEnClear_ready (hr : (ctrl s (fnKey h f)).ready = true) : exec (.nvmeCcEnClear h f) s = .next (resetCtrl 2 (fnKey h f) s) := by
  change execNvmeCcEnClear h f s = _
  simp only [execNvmeCcEnClear, hp, hr, Bool.and_self, if_true]

omit hp in
theorem exec_nvmeCcEnClear_disabled (hr : (ctrl s (fnKey h f)).ready = false) : exec (.nvmeCcEnClear h f) s = .next s := by
  change execNvmeCcEnClear h f s = _
  simp only [execNvmeCcEnClear, hr, Bool.and_false, Bool.false_eq_true, if_false]

theorem exec_nvmeShutdown_started (abrupt : Bool) (hr : (ctrl s (fnKey h f)).ready = true) (hs : (ctrl s (fnKey h f)).shst = 0) : exec (.nvmeShutdown h f abrupt) s = .next (
    let t := if abrupt then abortCmds (fnKey h f) (modCtrl (fnKey h f) (fun c => { c with shst := 1 }) s) else modCtrl (fnKey h f) (fun c => { c with shst := 1 }) s
    settleCache (modNvme (fun n => { n with flushes := Tbl.put n.flushes (shutdownKey (fnKey h f)) (flushJob t ((nsidsOf t (fnKey h f)).filterMap fun i => (nsAt t (fnKey h f) i).map (·.1))) }) t)) := by
  change execNvmeShutdown h f abrupt s = _
  simp only [execNvmeShutdown, hp, hr, hs, Bool.not_true, bne_self_eq_false, Bool.or_self, Bool.false_eq_true, if_false]

omit hp in
theorem exec_nvmeShutdown_running (abrupt : Bool) (hs : (ctrl s (fnKey h f)).shst ≠ 0) : exec (.nvmeShutdown h f abrupt) s = .next s := by
  change execNvmeShutdown h f abrupt s = _
  simp only [execNvmeShutdown, bne_iff_ne.mpr hs, Bool.or_true, if_true]

/-! The interrupt mask (R301) -/

theorem exec_nvmeIntmsIntmc (clear : Bool) (v : Word) : exec (.nvmeIntmsIntmc h f clear v) s = .next (
    let t := modCtrl (fnKey h f) (fun c => { c with mask := if clear then c.mask &&& (0xFFFFFFFF - v.toNat) else c.mask ||| v.toNat }) s
    if f = .pf1 then refreshPf1 h t else t) := by
  change execNvmeIntmsIntmc h f clear v s = _
  simp only [execNvmeIntmsIntmc, hp, Bool.not_true, Bool.false_eq_true, if_false]

theorem nvmeIntmsIntmc_mask (clear : Bool) (v : Word) (hf : f ≠ .pf1) : Completes (exec (.nvmeIntmsIntmc h f clear v) s) fun t =>
    (ctrl t (fnKey h f)).mask = if clear then (ctrl s (fnKey h f)).mask &&& (0xFFFFFFFF - v.toNat) else (ctrl s (fnKey h f)).mask ||| v.toNat := by
  refine ⟨_, exec_nvmeIntmsIntmc hp clear v, ?_⟩
  simp only [hf, if_false, ctrl_modCtrl]

/-! Doorbells (R301) -/

theorem exec_nvmeSqDoorbell_moved {q : BitVec 16} {v : Word} {x : NvmeSq} (hx : Tbl.find (ctrl s (fnKey h f)).sqs q.toNat = some x) (hv : v.toNat < x.size) :
    exec (.nvmeSqDoorbell h f q v) s = .next (modCtrl (fnKey h f) (fun c => { c with sqs := Tbl.put c.sqs q.toNat { x with tail := v.toNat } }) s) := by
  change execNvmeSqDoorbell h f q v s = _
  simp only [execNvmeSqDoorbell, hx, hp, Nat.not_le.mpr hv, decide_false, Bool.not_true, Bool.or_self, Bool.false_eq_true, if_false]

theorem exec_nvmeSqDoorbell_completes {q : BitVec 16} {v : Word} {x : NvmeSq} (hx : Tbl.find (ctrl s (fnKey h f)).sqs q.toNat = some x) (hv : v.toNat < x.size) :
    Completes (exec (.nvmeSqDoorbell h f q v) s) fun t => Tbl.find (ctrl t (fnKey h f)).sqs q.toNat = some { x with tail := v.toNat } ∧
      (∀ j, j ≠ q.toNat → Tbl.find (ctrl t (fnKey h f)).sqs j = Tbl.find (ctrl s (fnKey h f)).sqs j) ∧ (∀ j, j ≠ fnKey h f → ctrl t j = ctrl s j) ∧ changesOnly [.nvme] s t := by
  refine ⟨_, exec_nvmeSqDoorbell_moved hp hx hv, ?_⟩
  dsimp only
  rw [ctrl_modCtrl]
  exact ⟨Tbl.find_put_same _ _ _, fun j hj => Tbl.find_put_other _ _ _ _ hj, fun j hj => ctrl_modCtrl_other hj _ s, modCtrl_frame _ _ s⟩

omit hp in
theorem exec_nvmeSqDoorbell_beyond {q : BitVec 16} {v : Word} {x : NvmeSq} (hx : Tbl.find (ctrl s (fnKey h f)).sqs q.toNat = some x) (hv : x.size ≤ v.toNat) :
    exec (.nvmeSqDoorbell h f q v) s = .next s := by
  change execNvmeSqDoorbell h f q v s = _
  simp only [execNvmeSqDoorbell, hx, hv, decide_true, Bool.or_true, if_true]

theorem exec_nvmeCqDoorbell_moved {q : BitVec 16} {v : Word} {x : NvmeCq} (hx : Tbl.find (ctrl s (fnKey h f)).cqs q.toNat = some x) (hv : v.toNat < x.size)
    (hread : (v.toNat + x.size - x.head) % x.size ≤ (x.tail + x.size - x.head) % x.size) : exec (.nvmeCqDoorbell h f q v) s = .next (
      let t := drainNvmeCq (fnKey h f) q.toNat x.late.length (modCtrl (fnKey h f) (fun c => { c with cqs := Tbl.put c.cqs q.toNat { x with head := v.toNat } }) s)
      if f = .pf1 then refreshPf1 h t else t) := by
  change execNvmeCqDoorbell h f q v s = _
  simp only [execNvmeCqDoorbell, hx, hp, Nat.not_le.mpr hv, Nat.not_lt.mpr hread, decide_false, Bool.not_true, Bool.or_self, Bool.false_eq_true, if_false]

end

/-! The self-test's steps (R327) -/

section
variable {x : SelfTest} (hx : (ctrl s (fnKey h f)).selfTest = some x) (hr : hostReady s h.val = false)
include hx hr

theorem exec_selfTestStep_ended (bad : Bool) (hg : segmentOf x.steps (testSteps s (fnKey h f) x) 1 = none) :
    exec (.selfTestStep h f bad) s = .next (endSelfTest (fnKey h f) 0 0 0 0 s) := by
  change execSelfTestStep h f bad s = _
  simp only [execSelfTestStep, hx, hr, hg, Bool.false_eq_true, if_false]

theorem exec_selfTestStep_failed {g : Nat} (hg : segmentOf x.steps (testSteps s (fnKey h f) x) 1 = some g) :
    exec (.selfTestStep h f true) s = .next (endSelfTest (fnKey h f) 7 g 0 (freshNat s % 2 ^ 48) (drawn1 s)) := by
  change execSelfTestStep h f true s = _
  simp only [execSelfTestStep, hx, hr, hg, Bool.false_eq_true, if_false, if_true]

theorem exec_selfTestStep_next {g : Nat} (hg : segmentOf x.steps (testSteps s (fnKey h f) x) 1 = some g) (hcode : x.code = 2)
    (hmore : (segmentOf (x.steps + 1) (testSteps s (fnKey h f) x) 1).isSome = true) :
    exec (.selfTestStep h f false) s = .next (modCtrl (fnKey h f) (fun c => { c with selfTest := some { x with steps := x.steps + 1 } }) s) := by
  have hlast : (segmentOf (x.steps + 1) (testSteps s (fnKey h f) x) 1).isNone = false := by rw [← Option.not_isSome, hmore]; rfl
  have hshort : ¬(x.code = 1 ∧ x.startedAt + 120000000000 ≤ nowNs s) := fun hone => absurd (hcode.symm.trans hone.1) (by decide)
  change execSelfTestStep h f false s = _
  simp only [execSelfTestStep, hx, hr, hg, hlast, hshort, Bool.false_eq_true, if_false]

end

theorem exec_selfTestStep_none (bad : Bool) (hx : (ctrl s (fnKey h f)).selfTest = none) : exec (.selfTestStep h f bad) s = .next s := by
  change execSelfTestStep h f bad s = _
  simp only [execSelfTestStep, hx]

/-- A function without a controller has no registers and no doorbells. -/
theorem exec_noCtrl (q : BitVec 16) (v cc : Word) (abrupt clear : Bool) (hp : ctrlPresent s h f = false) :
    ∀ i ∈ [Instr.nvmeCcEnSet h f cc, .nvmeCcEnClear h f, .nvmeShutdown h f abrupt, .nvmeIntmsIntmc h f clear v, .nvmeSqDoorbell h f q v, .nvmeCqDoorbell h f q v],
      exec i s = .next s := by
  have hSet : execNvmeCcEnSet h f cc s = .next s := by simp [execNvmeCcEnSet, hp]
  have hClear : execNvmeCcEnClear h f s = .next s := by simp [execNvmeCcEnClear, hp]
  have hShut : execNvmeShutdown h f abrupt s = .next s := by simp [execNvmeShutdown, hp]
  have hMask : execNvmeIntmsIntmc h f clear v s = .next s := by simp [execNvmeIntmsIntmc, hp]
  have hSq : execNvmeSqDoorbell h f q v s = .next s := by
    cases hx : Tbl.find (ctrl s (fnKey h f)).sqs q.toNat <;> simp [execNvmeSqDoorbell, hp, hx]
  have hCq : execNvmeCqDoorbell h f q v s = .next s := by
    cases hx : Tbl.find (ctrl s (fnKey h f)).cqs q.toNat <;> simp [execNvmeCqDoorbell, hp, hx]
  simp only [List.forall_mem_cons, List.not_mem_nil, false_imp_iff, implies_true, and_true]
  exact ⟨hSet, hClear, hShut, hMask, hSq, hCq⟩

end

/-- Settles O42. -/
theorem nvmeControllerEventsComplete : Obligations.NvmeControllerEventsComplete := by
  unfold Obligations.NvmeControllerEventsComplete
  intro h f s
  refine ⟨fun hp => ?present, fun bad x hx hr => exec_selfTestStep_ended hx hr bad, fun x g hx hr => exec_selfTestStep_failed hx hr, fun x g hx hr => exec_selfTestStep_next hx hr,
    exec_selfTestStep_none, exec_noCtrl⟩
  exact ⟨exec_nvmeCcEnSet_completes hp, exec_nvmeCcEnSet_ready, exec_nvmeCcEnClear_ready hp, exec_nvmeCcEnClear_disabled, exec_nvmeShutdown_started hp,
    exec_nvmeShutdown_running, nvmeIntmsIntmc_mask hp false, nvmeIntmsIntmc_mask hp true,
    fun clear v hf => (exec_nvmeIntmsIntmc hp clear v).trans (congrArg Host.Outcome.next (if_pos hf)), fun q v x => exec_nvmeSqDoorbell_completes hp,
    fun q v x => exec_nvmeSqDoorbell_beyond, fun q v x => exec_nvmeCqDoorbell_moved hp⟩

end Sys2Proof.Machine
end

section
/-! PROOF. Insertion, destaging and reads of the storage cache, and what a drive or a remote target does (R307 to R314, R318 to R324, R326, R463), for O44. -/

namespace Sys2Proof.Machine
open Sys2Proof

/-! What a drive reads after one was changed -/

@[simp] theorem drive_modDrive (d : DrivePort) (f : Drive → Drive) (s : State) : drive (modDrive d.val f s) d.val = f (drive s d.val) := by
  simp [drive, modDrive, modNvme, vmod]

theorem raiseDriveState_nvme (d new old cause : Nat) (s : State) : (raiseDriveState d new old cause s).nvme = s.nvme :=
  changesOnly_nvme (L := [.owner]) ((raiseDriveState_only d new old cause s (by decide)).mpr (changesOnly_refl _ s)) (by decide)

@[simp] theorem drive_raiseDriveState (n d new old cause : Nat) (s : State) : drive (raiseDriveState d new old cause s) n = drive s n := by
  simp only [drive, raiseDriveState_nvme]

section
variable {s : State}

/-! The write cache (R307 to R314) -/

section
variable {h : HostId} {f : Fn} {sq cid : BitVec 16} (data : List Byte)

theorem exec_writeInsertion_data {x : NvmeCmd} {r : ReadReq} (hx : cmdAt s (fnKey h f) sq.toNat cid.toNat = some x) (hr : dataRead s h f sq.toNat cid.toNat = some r)
    (hp : x.phase = .data) : exec (.writeInsertion h f sq cid data) s = .next (settleCache (insertWrite (fnKey h f) x data (endRead h r.tag s))) := by
  change execWriteInsertion h f sq cid data s = _
  simp only [execWriteInsertion, hx, hr, hp, if_true]

theorem exec_writeInsertion_none (hx : cmdAt s (fnKey h f) sq.toNat cid.toNat = none) : exec (.writeInsertion h f sq cid data) s = .next s := by
  change execWriteInsertion h f sq cid data s = _
  simp only [execWriteInsertion, hx]

variable {x : NvmeCmd} {y : Namespace} (hx : cmdAt s (fnKey h f) sq.toNat cid.toNat = some x) (hy : nspace s x.ns = some y) (hp : x.phase = .backing)
  (hm : (missingLocal s y x).isEmpty = false)
include hx hy hp hm

theorem exec_backingReadDone_ok : exec (.backingReadDone h f sq cid .ok data) s = .next (stepRead (fnKey h f) sq.toNat cid.toNat
    (modCmd (fnKey h f) sq.toNat cid.toNat (fun x => { x with cached := putBlocks y.block (missingLocal s y x) data x.cached }) (dropReads (fnKey h f) sq.toNat cid.toNat s))) := by
  change execBackingReadDone h f sq cid .ok data s = _
  simp only [execBackingReadDone, hx, hy, hp, hm, ne_eq, not_true, or_self, Bool.false_eq_true, if_false]

theorem exec_backingReadDone_failed (r : BackingResult) (hr : r ≠ .ok) :
    exec (.backingReadDone h f sq cid r data) s = .next (failRead (fnKey h f) sq.toNat cid.toNat (readStatus r) s) := by
  change execBackingReadDone h f sq cid r data s = _
  simp only [execBackingReadDone, hx, hy, hp, hm, hr, ne_eq, not_true, not_false_iff, or_self, Bool.false_eq_true, if_false, if_true]

end

theorem exec_wcacheWaitEnd_room {h : HostId} {k : Nat} {x : NvmeCmd} {y : Namespace} (hw : waitingWrite s h = some (k, x)) (hy : nspace s x.ns = some y)
    (hroom : segRoom s h (segsNeeded s x.ns (unitsOf y x.slba x.blocks)) = true) : exec (.wcacheWaitEnd h) s = .next (settleCache (startWrite k x s)) := by
  change execWcacheWaitEnd h s = _
  simp only [execWcacheWaitEnd, hw, hy, hroom, if_true]

theorem exec_wcacheWaitEnd_none {h : HostId} (hw : waitingWrite s h = none) : exec (.wcacheWaitEnd h) s = .next s := by
  change execWcacheWaitEnd h s = _
  simp only [execWcacheWaitEnd, hw]

section
variable {ns : NsId} {seg : Nat}

theorem exec_destageStart_due {g : Segment} (hg : segAt s seg = some g) (hns : g.ns = ns.val) (hd : destageable s g = true) :
    exec (.destageStart ns seg) s = .next (destageSeg seg s) := by
  change execDestageStart ns seg s = _
  simp only [execDestageStart, hg, beq_iff_eq.mpr hns, hd, Bool.and_self, if_true]

theorem exec_destageDone_ended {g : Segment} {d : Nat} {c : DriveCmd} (r : BackingResult) (hg : segAt s seg = some g) (hw : segWrite s seg = some (d, c)) (hns : g.ns = ns.val) :
    exec (.destageDone ns seg r) s = .next (destageEnded g r (some d) (dropDriveCmd d c.cid s)) := by
  change execDestageDone ns seg r s = _
  simp only [execDestageDone, hg, hw, hns, if_true]

theorem exec_remoteDestageRetry_due {g : Segment} (hg : segAt s seg = some g) (hns : g.ns = ns.val) (hr : g.retryDue = true)
    (hd : destageable (modSeg seg (fun g => { g with retryDue := false }) s) { g with retryDue := false } = true) :
    exec (.remoteDestageRetry ns seg) s = .next (destageSeg seg (modSeg seg (fun g => { g with retryDue := false }) s)) := by
  change execRemoteDestageRetry ns seg s = _
  simp only [execRemoteDestageRetry, hg, beq_iff_eq.mpr hns, hr, hd, Bool.and_self, if_true]

/-- A segment that is not there is neither destaged nor retried. -/
theorem exec_noSeg (r : BackingResult) (hg : segAt s seg = none) :
    exec (.destageStart ns seg) s = .next s ∧ exec (.destageDone ns seg r) s = .next s ∧ exec (.remoteDestageRetry ns seg) s = .next s := by
  have hStart : execDestageStart ns seg s = .next s := by simp [execDestageStart, hg]
  have hDone : execDestageDone ns seg r s = .next s := by simp [execDestageDone, hg]
  have hRetry : execRemoteDestageRetry ns seg s = .next s := by simp [execRemoteDestageRetry, hg]
  exact ⟨hStart, hDone, hRetry⟩

end

/-! Drives (R318 to R322, R463) -/

section
variable {d : DrivePort}

theorem exec_drivePresent_completes (h0 : (drive s d.val).state = 0) (hl : isLost s 0x11 d.val = false) : Completes (exec (.drivePresent d) s) fun t =>
    (drive t d.val).state = 1 ∧ (drive t d.val).present = true ∧ changesOnly [.owner, .nvme] s t := by
  have hrun : exec (.drivePresent d) s = .next (raiseDriveState d.val 1 0 1 (modDrive d.val (fun v => { v with state := 1, present := true }) s)) := by
    change execDrivePresent d s = _
    rw [execDrivePresent, h0, hl, if_neg (by decide)]
  refine ⟨_, hrun, ?_, ?_, execDrivePresent_only d s (listed rfl) (listed rfl) (changesOnly_refl _ _) _ hrun⟩ <;> simp

theorem exec_drivePresent_known (h0 : (drive s d.val).state ≠ 0) : exec (.drivePresent d) s = .next s := by
  change execDrivePresent d s = _
  rw [execDrivePresent, bne_iff_ne.mpr h0, Bool.true_or, if_pos rfl]

theorem exec_driveLinkUp_completes (t : LinkTraining) (h1 : (drive s d.val).state = 1) (hw : widthWithout [4, 2, 1] ((drive s d.val).lostLanes ++ t.badLanes) t.width ≠ 0) :
    Completes (exec (.driveLinkUp d t) s) fun u => (drive u d.val).state = 2 ∧ (drive u d.val).linkUp = true ∧ (drive u d.val).speed = t.speed ∧
      (drive u d.val).width = widthWithout [4, 2, 1] ((drive s d.val).lostLanes ++ t.badLanes) t.width ∧ changesOnly [.nvme] s u := by
  have hrun : exec (.driveLinkUp d t) s = .next (modDrive d.val (fun v => { v with
      state := 2, linkUp := true, speed := t.speed, width := widthWithout [4, 2, 1] ((drive s d.val).lostLanes ++ t.badLanes) t.width }) s) := by
    change execDriveLinkUp d t s = _
    simp only [execDriveLinkUp, h1, beq_eq_false_iff_ne.mpr hw, bne_self_eq_false, Bool.or_self, Bool.false_eq_true, if_false]
  refine ⟨_, hrun, ?_⟩
  dsimp only
  rw [drive_modDrive]
  exact ⟨rfl, rfl, rfl, rfl, execDriveLinkUp_only d t s (listed rfl) (changesOnly_refl _ _) _ hrun⟩

theorem exec_driveLinkUp_idle (t : LinkTraining) (h1 : (drive s d.val).state ≠ 1) : exec (.driveLinkUp d t) s = .next s := by
  change execDriveLinkUp d t s = _
  simp only [execDriveLinkUp, bne_iff_ne.mpr h1, Bool.true_or, if_true]

theorem exec_driveInitialised_unsupported (i : DriveIdentity) (h2 : (drive s d.val).state = 2) (hi : i.supported = false) :
    exec (.driveInitialised d i) s = .next (driveFailed d.val 8 (modDrive d.val (fun v => { v with identity := some i }) s)) := by
  change execDriveInitialised d i s = _
  simp only [execDriveInitialised, h2, hi, bne_self_eq_false, Bool.not_false, Bool.false_eq_true, if_false, if_true]

theorem exec_driveInitialised_supported (i : DriveIdentity) (h2 : (drive s d.val).state = 2) (hi : i.supported = true) : exec (.driveInitialised d i) s = .next (
    let t := modDrive d.val (fun v => { v with identity := some i }) s
    let back := identityMatches t d.val i
    let t3 := if back then backingReturns (onDrive d.val) (driveState d.val 3 t) else driveState d.val 3 t
    let t4 := raiseDriveState d.val 3 2 (if back then 9 else 2) t3
    resumeSanitize d.val ((nsWith t4 (onDrive d.val)).foldl (fun s k => refreshAtomic k s) t4)) := by
  change execDriveInitialised d i s = _
  simp only [execDriveInitialised, h2, hi, bne_self_eq_false, Bool.not_true, Bool.false_eq_true, if_false]

theorem exec_driveInitTimeout_failed (h : (drive s d.val).state = 1 ∨ (drive s d.val).state = 2) : exec (.driveInitTimeout d) s = .next (driveFailed d.val 6 s) := by
  have hwait : ((drive s d.val).state == 1 || (drive s d.val).state == 2) = true := by simpa using h
  change execDriveInitTimeout d s = _
  rw [execDriveInitTimeout, if_pos hwait]

theorem exec_driveCfs_reset (h : (drive s d.val).state = 2 ∨ (drive s d.val).state = 3) : exec (.driveCfs d) s = .next (resetDrive d.val s) := by
  have hlive : ((drive s d.val).state == 2 || (drive s d.val).state == 3) = true := by simpa using h
  change execDriveCfs d s = _
  rw [execDriveCfs, if_pos hlive]

section
variable {cid : BitVec 16} {c : DriveCmd} (hc : (drive s d.val).cmds.find? (fun c => decide (c.cid = cid.toNat)) = some c)
include hc

theorem exec_driveCommandTimeout_second (ha : c.aborted = true) : exec (.driveCommandTimeout d cid true) s = .next (resetDrive d.val s) := by
  change execDriveCommandTimeout d cid true s = _
  simp only [execDriveCommandTimeout, hc, ha, if_true]

theorem exec_driveCommandTimeout_first (ha : c.aborted = false) (h3 : (drive s d.val).state = 3) : Completes (exec (.driveCommandTimeout d cid false) s) fun t =>
    t.out.head? = some (.driveCmd d.val cid.toNat 8 0 0 0) ∧ (drive t d.val).cmds = (drive s d.val).cmds.map fun x => if x.cid = cid.toNat then { x with aborted := true } else x := by
  change Completes (execDriveCommandTimeout d cid false s) _
  simp only [execDriveCommandTimeout, hc, ha, h3, bne_self_eq_false, Bool.or_self, Bool.false_eq_true, if_false]
  refine ⟨_, rfl, rfl, ?_⟩
  exact congrArg Drive.cmds (drive_modDrive d _ s)

theorem exec_driveCompletion_done (r : BackingResult) (h3 : (drive s d.val).state = 3) : exec (.driveCompletion d cid r) s = .next (driveDone d.val c r s) := by
  change execDriveCompletion d cid r s = _
  simp only [execDriveCompletion, hc, h3, beq_self_eq_true, if_true]

end

theorem exec_noDriveCmd {cid : BitVec 16} (r : BackingResult) (b : Bool) (hc : (drive s d.val).cmds.find? (fun c => decide (c.cid = cid.toNat)) = none) :
    exec (.driveCommandTimeout d cid b) s = .next s ∧ exec (.driveCompletion d cid r) s = .next s := by
  have hTimeout : execDriveCommandTimeout d cid b s = .next s := by simp only [execDriveCommandTimeout, hc]
  have hDone : execDriveCompletion d cid r s = .next s := by simp only [execDriveCompletion, hc]
  exact ⟨hTimeout, hDone⟩

theorem exec_driveAttnButton_completes (d : DrivePort) (s : State) : Completes (exec (.driveAttnButton d) s) fun t =>
    (drive t d.val).button = true ∧ (drive t d.val).state = (drive s d.val).state ∧ changesOnly [.owner, .nvme] s t := by
  refine ⟨_, rfl, ?_, ?_, execDriveAttnButton_only d s (listed rfl) (listed rfl) (changesOnly_refl _ _) _ rfl⟩ <;> simp

section
variable {lane : Fin 4} (hup : (drive s d.val).linkUp = true) (hnew : (drive s d.val).lostLanes.contains lane.val = false)
include hup hnew

theorem exec_driveLaneFault_first (h0 : lane.val = 0) : exec (.driveLaneFaultInService d lane) s =
    .next (surpriseRemoval d.val true (unitLost 0x11 6 d.val 0 (modDrive d.val (fun v => { v with lostLanes := v.lostLanes ++ [0] }) s))) := by
  rw [h0] at hnew
  change execDriveLaneFaultInService d lane s = _
  simp only [execDriveLaneFaultInService, h0, hup, hnew, Bool.not_true, Bool.or_self, Bool.false_eq_true, if_false, if_true]

theorem exec_driveLaneFault_other (h0 : lane.val ≠ 0) : exec (.driveLaneFaultInService d lane) s = .next (
    let w := widthWithout [4, 2, 1] ((drive s d.val).lostLanes ++ [lane.val]) (drive s d.val).width
    unitLost 0x09 6 (4 * d.val + lane.val) (2 ^ lane.val + w * 2 ^ 27) (modDrive d.val (fun v => { v with width := w }) (modDrive d.val (fun v => { v with lostLanes := v.lostLanes ++ [lane.val] }) s))) := by
  change execDriveLaneFaultInService d lane s = _
  simp only [execDriveLaneFaultInService, h0, hup, hnew, Bool.not_true, Bool.or_self, Bool.false_eq_true, if_false]

end

theorem exec_driveLaneFault_down (lane : Fin 4) (hdown : (drive s d.val).linkUp = false) : exec (.driveLaneFaultInService d lane) s = .next s := by
  change execDriveLaneFaultInService d lane s = _
  simp only [execDriveLaneFaultInService, hdown, Bool.not_false, Bool.true_or, if_true]

end

/-! Remote targets (R323, R324) -/

/-- A remote target's command is marked as timed out and counted, and what waits for the target goes on. -/
def bstatusLate (t : BitVec 12) (tag : Word) (s : State) : State :=
  pumpTarget t.toNat (countN 0x202 1 (modTarget t.toNat (fun x => { x with cmds := x.cmds.map fun y => if y.tag = tag.toNat then { y with timedOut := true } else y }) s))

section
variable {t : BitVec 12} {tag : Word} {c : RemoteCmd} (hc : ((target s t.toNat).bind fun x => x.cmds.find? fun c => decide (c.tag = tag.toNat ∧ c.timedOut = false)) = some c)
include hc

theorem exec_bstatusTimeout_read (h1 : c.kind = 1) : exec (.bstatusTimeout t tag) s = .next (failRead c.ctrl c.sq c.cmd 0x22 (bstatusLate t tag s)) := by
  change execBstatusTimeout t tag s = _
  simp only [execBstatusTimeout, hc, h1, bstatusLate]

theorem exec_bstatusTimeout_write (h2 : c.kind = 2) : exec (.bstatusTimeout t tag) s = .next (modSeg c.seg (fun g => { g with retryDue := true }) (bstatusLate t tag s)) := by
  change execBstatusTimeout t tag s = _
  simp only [execBstatusTimeout, hc, h2, bstatusLate]

end

theorem exec_bstatusTimeout_none {t : BitVec 12} (tag : Word) (ht : target s t.toNat = none) : exec (.bstatusTimeout t tag) s = .next s := by
  change execBstatusTimeout t tag s = _
  simp only [execBstatusTimeout, ht, Option.bind_none]

end

/-- Settles O44. -/
theorem storageEventsComplete : Obligations.StorageEventsComplete := by
  unfold Obligations.StorageEventsComplete
  intro s
  refine ⟨fun h f sq cid data x r => exec_writeInsertion_data data, fun h f sq cid data => exec_writeInsertion_none data, fun h k x y => exec_wcacheWaitEnd_room,
    fun h => exec_wcacheWaitEnd_none, fun ns seg g => exec_destageStart_due, fun ns seg g d c r => exec_destageDone_ended r, fun ns seg r => exec_noSeg r, ?reads, fun d => ?drives,
    fun t tag c hc => ⟨exec_bstatusTimeout_read hc, exec_bstatusTimeout_write hc⟩, fun t tag => exec_bstatusTimeout_none tag, fun ns seg g => exec_remoteDestageRetry_due⟩
  case reads =>
    intro h f sq cid data x y k hx hy hp hm
    exact ⟨exec_backingReadDone_ok data hx hy hp hm, exec_backingReadDone_failed data hx hy hp hm⟩
  case drives =>
    exact ⟨exec_drivePresent_completes, exec_drivePresent_known, fun _ => rfl, exec_driveLinkUp_completes, exec_driveLinkUp_idle, exec_driveInitialised_unsupported,
      exec_driveInitialised_supported, exec_driveInitTimeout_failed, exec_driveCfs_reset,
      fun cid c hc => ⟨exec_driveCommandTimeout_second hc, exec_driveCommandTimeout_first hc, exec_driveCompletion_done hc⟩, fun cid r b => exec_noDriveCmd r b,
      exec_driveAttnButton_completes d s, fun addr header => ⟨_, rfl, logViolation_seq _ _ _ _ _⟩, fun lane => exec_driveLaneFault_first, fun lane => exec_driveLaneFault_other,
      exec_driveLaneFault_down⟩

end Sys2Proof.Machine
end

section
/-! PROOF. Key alarms, the look-aside tiles and the recovery intake over a host link (R340, R351 to R355, R440 to R442), for O45. -/

namespace Sys2Proof.Machine
open Sys2Proof

/-! Key alarms (R355) -/

section
variable {code : Byte} {s : State}

theorem exec_keyAlarmSource_new (slot : BitVec 17) (hp : s.glb.powered = true) (h1 : 1 ≤ code.toNat) (h9 : code.toNat ≤ 9)
    (hnew : bitAt s.crypt.present (code.toNat - 1) = false ∨ 5 ≤ code.toNat) : exec (.keyAlarmSource code slot) s = .next (alarmSource code.toNat slot.toNat s) := by
  have hseen : (bitAt s.crypt.present (code.toNat - 1) && [1, 2, 3, 4].contains code.toNat) = false := by
    rcases hnew with hbit | h5
    · rw [hbit, Bool.false_and]
    · rw [Bool.and_eq_false_imp]
      intro _
      simp only [List.contains_cons, List.contains_nil, Bool.or_false, Bool.or_eq_false_iff, beq_eq_false_iff_ne]
      omega
  change execKeyAlarmSource code slot s = _
  simp only [execKeyAlarmSource, hp, hseen, decide_eq_false (Nat.one_le_iff_ne_zero.mp h1), decide_eq_false (Nat.not_lt.mpr h9), Bool.not_true, Bool.or_self, Bool.false_eq_true, if_false]

theorem exec_keyAlarmSource_ignored (slot : BitVec 17)
    (hno : (code.toNat = 0 ∨ 9 < code.toNat) ∨ (code.toNat ∈ [1, 2, 3, 4] ∧ bitAt s.crypt.present (code.toNat - 1) = true)) : exec (.keyAlarmSource code slot) s = .next s := by
  have hskip : (!s.glb.powered || decide (code.toNat = 0) || decide (9 < code.toNat) || (bitAt s.crypt.present (code.toNat - 1) && [1, 2, 3, 4].contains code.toNat)) = true := by
    rcases hno with (h0 | h9) | ⟨hmem, hbit⟩
    · rw [decide_eq_true h0, Bool.or_true, Bool.true_or, Bool.true_or]
    · rw [decide_eq_true h9, Bool.or_true, Bool.true_or]
    · rw [hbit, List.contains_iff_mem.mpr hmem, Bool.and_self, Bool.or_true]
  change execKeyAlarmSource code slot s = _
  simp only [execKeyAlarmSource, hskip, if_true]

theorem exec_keyAlarmSourceCleared_completes (h1 : 1 ≤ code.toNat) (h9 : code.toNat ≤ 9) : Completes (exec (.keyAlarmSourceCleared code) s) fun t =>
    t.crypt.present = setBitAt s.crypt.present (code.toNat - 1) false ∧ t.crypt.slots = s.crypt.slots ∧ changesOnly [.crypt] s t := by
  have hrange : ¬(code.toNat = 0 ∨ 9 < code.toNat) := by omega
  have hrun : exec (.keyAlarmSourceCleared code) s = .next (modCrypt (fun x => { x with present := setBitAt x.present (code.toNat - 1) false }) s) := by
    change execKeyAlarmSourceCleared code s = _
    simp only [execKeyAlarmSourceCleared, hrange, if_false]
  exact ⟨_, hrun, rfl, rfl, execKeyAlarmSourceCleared_only code s (listed rfl) (changesOnly_refl _ _) _ hrun⟩

end

/-! The look-aside tiles (R340, R351 to R354) -/

@[simp] theorem laTile_modTile (t : Fin 4) (f : LaTile → LaTile) (s : State) : laTile (modTile t f s) t = f (laTile s t) := by
  simp [laTile, modTile, modCrypt, vmod]

section
variable {t : Fin 4} {j : LaJob} {s : State} (hj : (laTile s t).running = some j)
include hj

theorem exec_lookasideJobDone_done (hf : (laTile s t).fetching = false) : exec (.lookasideJobDone t) s = .next (
    let o := jobOutput s j (j.key.getD [])
    let u := countTile t 1 j.length (countTile t 0 1 (storeChain (chainFrom s 64 (j.place 2).1) (j.place 2).2 o.1 (modTile t (fun y => { y with running := none }) s)))
    goLa t (answerJob j .ok j.length o.2 (if j.mode == 1 && j.decrypts && !o.2 then countTile t 3 1 u else u))) := by
  change execLookasideJobDone t s = _
  simp only [execLookasideJobDone, hj, hf]

theorem exec_lookasideSuspend_yields (hs : (laTile s t).suspended = none) (hf : (laTile s t).fetching = false) (hm : (laTile s t).mode = true) (hu : j.urgent = false)
    (hq : (laTile s t).queue.head?.any LaJob.urgent = true) : exec (.lookasideSuspend t) s = .next (
      let done := j.done + freshNat s % ((j.length - j.done) / 16) * 16
      let u := storeChain (chainFrom s 64 (j.place 2).1) (j.place 2).2 ((jobOutput s j (j.key.getD [])).1.take done) (drawn1 s)
      goLa t (countTile t 2 1 (modTile t (fun y => { y with running := none, suspended := some { j with done := done } }) u))) := by
  change execLookasideSuspend t s = _
  simp only [execLookasideSuspend, hj, hs, hf, hm, hu, hq, Bool.not_true, Bool.or_self, Bool.false_eq_true, if_false]

theorem exec_lookasideSuspend_stays (hno : (laTile s t).mode = false ∨ j.urgent = true) : exec (.lookasideSuspend t) s = .next s := by
  have hskip : ((laTile s t).fetching || !(laTile s t).mode || j.urgent || !((laTile s t).queue.head?.any LaJob.urgent)) = true := by
    rcases hno with h | h <;> simp [h]
  change execLookasideSuspend t s = _
  cases hs : (laTile s t).suspended with
  | none => simp only [execLookasideSuspend, hj, hs, hskip, if_true]
  | some x => simp only [execLookasideSuspend, hj, hs]

section
variable (data : List Byte) (hf : (laTile s t).fetching = true)
include hf

theorem exec_pageFetchDone_good {k : KeySlot} (hk : laKey s j = some k) (hb : ((Tbl.find s.crypt.pages (j.keyRef % 2 ^ 24)).any fun p => p.bad) = false) :
    exec (.pageFetchDone t (j.keyRef % 2 ^ 24) data true) s = .next (modTile t (fun y => { y with running := some { j with key := some k.material }, fetching := false }) s) := by
  change execPageFetchDone t (j.keyRef % 2 ^ 24) data true s = _
  simp only [execPageFetchDone, hj, hf, hk, hb, bne_self_eq_false, Bool.not_true, Bool.or_self, Bool.false_eq_true, if_false]

theorem pageFetchDone_completes {k : KeySlot} (hk : laKey s j = some k) (hb : ((Tbl.find s.crypt.pages (j.keyRef % 2 ^ 24)).any fun p => p.bad) = false) :
    Completes (exec (.pageFetchDone t (j.keyRef % 2 ^ 24) data true) s) fun u =>
      (laTile u t).running = some { j with key := some k.material } ∧ (laTile u t).fetching = false ∧ changesOnly [.crypt] s u := by
  refine ⟨_, exec_pageFetchDone_good hj data hf hk hb, ?_⟩
  dsimp only
  rw [laTile_modTile]
  exact ⟨rfl, rfl, (modTile_only _ _ _ (by decide)).mpr (changesOnly_refl _ _)⟩

theorem exec_pageFetchDone_refused : exec (.pageFetchDone t (j.keyRef % 2 ^ 24) data false) s = .next (
    let u := count 0x0B 0 0x603 1 (modCrypt (fun c => { c with pages := Tbl.del c.pages (j.keyRef % 2 ^ 24) }) s)
    goLa t (answerJob j .keyRefused 0 false (countTile t 4 1 (modTile t (fun y => { y with running := none, fetching := false }) u)))) := by
  change execPageFetchDone t (j.keyRef % 2 ^ 24) data false s = _
  simp only [execPageFetchDone, hj, hf, bne_self_eq_false, Bool.not_true, Bool.not_false, Bool.true_or, Bool.or_self, Bool.false_eq_true, if_false, if_true]

end

end

theorem exec_noJob {t : Fin 4} {s : State} (page : Nat) (data : List Byte) (ok : Bool) (hj : (laTile s t).running = none) :
    exec (.lookasideJobDone t) s = .next s ∧ exec (.lookasideSuspend t) s = .next s ∧ exec (.pageFetchDone t page data ok) s = .next s := by
  have hDone : execLookasideJobDone t s = .next s := by simp only [execLookasideJobDone, hj]
  have hSuspend : execLookasideSuspend t s = .next s := by simp only [execLookasideSuspend, hj]
  have hPage : execPageFetchDone t page data ok s = .next s := by simp only [execPageFetchDone, hj]
  exact ⟨hDone, hSuspend, hPage⟩

/-! The recovery intake's registers (R440, R441) -/

section
variable {who : Fin 9} {s : State}

theorem recCommit_closed (ho : intakeOpen s = false) : recCommit who s = recError who 1 s := by
  simp only [recCommit, ho, Bool.not_false, if_true]

theorem recAbort_closed (ho : intakeOpen s = false) : recAbort who s = recError who 1 s := by
  simp only [recAbort, ho, Bool.not_false, if_true]

theorem recInstall_closed (slot : Nat) (ho : intakeOpen s = false) : recInstall who slot s = recError who 1 (modRec who (fun r => { r with slot := slot }) s) := by
  simp only [recInstall, ho, Bool.not_false, if_true]

section
variable (ho : intakeOpen s = true)
include ho

theorem recCommit_busy (hb : intakeBusy s who = true) : recCommit who s = recError who 2 s := by
  simp only [recCommit, ho, hb, Bool.not_true, Bool.false_eq_true, if_false, if_true]

theorem recCommit_badChunk (hb : intakeBusy s who = false) (hc : chunkOk (recPort s who) = false) : recCommit who s = recError who 3 s := by
  simp only [recCommit, ho, hb, hc, Bool.not_true, Bool.not_false, Bool.false_eq_true, if_false, if_true]

theorem recCommit_taken (hb : intakeBusy s who = false) (hc : chunkOk (recPort s who) = true) (hfirst : (recPort s who).offset = 0 ∨ s.sec.intake.claim.isSome = true) :
    recCommit who s = modIntake (fun x => { x with buf := if x.claim.isNone then [] else x.buf, claim := some who.val, phase := 2, worker := who.val }) s := by
  have hnone : (s.sec.intake.claim.isNone && (recPort s who).offset != 0) = false := by
    rcases hfirst with h0 | hsome
    · rw [h0, bne_self_eq_false, Bool.and_false]
    · rw [← Option.not_isSome, hsome, Bool.not_true, Bool.false_and]
  simp only [recCommit, ho, hb, hc, hnone, Bool.not_true, Bool.false_eq_true, if_false]

theorem recInstall_taken {slot : Nat} (hb : intakeBusy s who = false) (hc : s.sec.intake.claim.isSome = true) (hi : installing s slot = false) (hv : slotValid s slot = false) :
    recInstall who slot s = modIntake (fun x => { x with phase := 3, worker := who.val, slot := slot }) (modRec who (fun r => { r with slot := slot }) s) := by
  have hnone : s.sec.intake.claim.isNone = false := by rw [← Option.not_isSome, hc, Bool.not_true]
  simp only [recInstall, ho, hb, hnone, hi, hv, Bool.not_true, Bool.or_self, Bool.false_eq_true, if_false]

theorem recAbort_own (hc : s.sec.intake.claim.any (· != who.val) = false) : recAbort who s = recRelease who s := by
  simp only [recAbort, ho, hc, Bool.not_true, Bool.false_eq_true, if_false]

theorem recAbort_other (hc : s.sec.intake.claim.any (· != who.val) = true) : recAbort who s = recError who 2 s := by
  simp only [recAbort, ho, hc, Bool.not_true, Bool.false_eq_true, if_false, if_true]

end

/-! The intake's worker (R440 to R442) -/

theorem recChunkDone_idle (ok : Bool) (hp : s.sec.intake.phase ≠ 2) : recChunkDone ok s = s := by
  simp only [recChunkDone, hp, ne_eq, not_false_iff, if_true]

/-- The port that the intake works for. -/
theorem worker_eq (hw : s.sec.intake.worker = who.val) : (⟨s.sec.intake.worker % 9, Nat.mod_lt _ (by decide)⟩ : Fin 9) = who :=
  Fin.ext (by rw [hw]; exact Nat.mod_eq_of_lt who.isLt)

theorem recChunkDone_copied (hp : s.sec.intake.phase = 2) (hw : s.sec.intake.worker = who.val) : recChunkDone true s = refreshRec who (modRec who (fun r => { r with chunkDone := true })
    (modIntake (fun x => { x with phase := 1, buf := Mem.writeBytes x.buf 0xFF (recPort s who).offset (Mem.readBytes (recPort s who).window 0 0 (recPort s who).len) }) s)) := by
  simp only [recChunkDone, hp, worker_eq hw, ne_eq, not_true, Bool.not_true, Bool.false_eq_true, if_false]

theorem recChunkDone_failed (hp : s.sec.intake.phase = 2) (hw : s.sec.intake.worker = who.val) :
    recChunkDone false s = recError who 3 (modIntake (fun x => { x with phase := 1 }) s) := by
  simp only [recChunkDone, hp, worker_eq hw, ne_eq, not_true, Bool.not_false, if_false, if_true]

theorem recInstallDone_idle (ok : Bool) (h3 : s.sec.intake.phase ≠ 3) (h4 : s.sec.intake.phase ≠ 4) : recInstallDone ok s = s := by
  simp only [recInstallDone, h3, h4, ne_eq, not_false_iff, and_self, if_true]

theorem recInstallDone_bad (ok : Bool) (h3 : s.sec.intake.phase = 3) (hw : s.sec.intake.worker = who.val) (hr : bufferReason s s.sec.intake.buf ≠ 0) :
    recInstallDone ok s = recError who (0x10 + bufferReason s s.sec.intake.buf)
      (modIntake (fun x => if x.claim.isNone then Intake.mk none 0 0 0 [] x.ports else { x with phase := 5 }) s) := by
  simp only [recInstallDone, h3, hr, worker_eq hw, ne_eq, not_true, not_false_iff, false_and, if_false, if_true]

end

section
variable {h : HostId} {s : State} (hup : pf2Up s h = true)
include hup

theorem exec_hlinkRecCommit_up : exec (.hlinkRecCommit h) s = .next (recCommit (recOf h) s) := by
  change execHlinkRecCommit h s = _
  rw [execHlinkRecCommit, if_pos hup]

theorem exec_hlinkRecAbort_up : exec (.hlinkRecAbort h) s = .next (recAbort (recOf h) s) := by
  change execHlinkRecAbort h s = _
  rw [execHlinkRecAbort, if_pos hup]

theorem exec_hlinkRecInstall_up (slot : Fin 2) : exec (.hlinkRecInstall h slot) s = .next (recInstall (recOf h) slot.val s) := by
  change execHlinkRecInstall h slot s = _
  rw [execHlinkRecInstall, if_pos hup]

end

theorem exec_noIntake {h : HostId} {s : State} (slot : Fin 2) (hup : pf2Up s h = false) :
    exec (.hlinkRecCommit h) s = .next s ∧ exec (.hlinkRecInstall h slot) s = .next s ∧ exec (.hlinkRecAbort h) s = .next s := by
  have hCommit : execHlinkRecCommit h s = .next s := by rw [execHlinkRecCommit, hup, if_neg (by decide)]
  have hInstall : execHlinkRecInstall h slot s = .next s := by rw [execHlinkRecInstall, hup, if_neg (by decide)]
  have hAbort : execHlinkRecAbort h s = .next s := by rw [execHlinkRecAbort, hup, if_neg (by decide)]
  exact ⟨hCommit, hInstall, hAbort⟩

/-- Settles O45. -/
theorem alarmTileAndIntakeEventsComplete : Obligations.AlarmTileAndIntakeEventsComplete := by
  unfold Obligations.AlarmTileAndIntakeEventsComplete
  intro s
  refine ⟨fun code slot => exec_keyAlarmSource_new slot, fun code slot => exec_keyAlarmSource_ignored slot, fun code => exec_keyAlarmSourceCleared_completes,
    fun t j => exec_lookasideJobDone_done, fun t j => exec_lookasideSuspend_yields, fun t j => exec_lookasideSuspend_stays, fun t j data k hj hf => pageFetchDone_completes hj data hf,
    fun t j data hj hf => exec_pageFetchDone_refused hj data hf, fun t page data ok => exec_noJob page data ok, fun h hup => ?intake, fun h slot => exec_noIntake slot,
    fun ok hp => congrArg Host.Outcome.next (recChunkDone_idle ok hp), fun who hp hw => congrArg Host.Outcome.next (recChunkDone_copied hp hw),
    fun who hp hw => congrArg Host.Outcome.next (recChunkDone_failed hp hw), fun ok h3 h4 => congrArg Host.Outcome.next (recInstallDone_idle ok h3 h4),
    fun who ok h3 hw _ hr => congrArg Host.Outcome.next (recInstallDone_bad ok h3 hw hr)⟩
  rw [exec_hlinkRecCommit_up hup, exec_hlinkRecAbort_up hup]
  refine ⟨fun slot ho => ?closed, fun ho hb => congrArg Host.Outcome.next (recCommit_busy ho hb), fun ho hb hc => congrArg Host.Outcome.next (recCommit_badChunk ho hb hc),
    fun ho hb hc hfirst => ?commit, fun slot ho hb hc hi hv => ?install, fun ho hc => congrArg Host.Outcome.next (recAbort_own ho hc),
    fun ho hc => congrArg Host.Outcome.next (recAbort_other ho hc)⟩
  case closed => rw [exec_hlinkRecInstall_up hup, recCommit_closed ho, recAbort_closed ho, recInstall_closed slot.val ho]; exact ⟨rfl, rfl, rfl⟩
  case commit =>
    rw [recCommit_taken ho hb hc hfirst]
    exact ⟨_, rfl, rfl, rfl, rfl, (modIntake_only _ _ (by decide)).mpr (changesOnly_refl _ _)⟩
  case install =>
    rw [exec_hlinkRecInstall_up hup, recInstall_taken ho hb hc hi hv]
    exact ⟨_, rfl, rfl, rfl, rfl, (modIntake_only _ _ (by decide)).mpr ((modRec_only _ _ _ (by decide)).mpr (changesOnly_refl _ _))⟩

end Sys2Proof.Machine
end

section
/-! PROOF. The HOD, DMA and TABLE ports of the packet cores (R380, R382, R384 to R386), for O48. -/

namespace Sys2Proof.Machine
open Sys2Proof

/-! Serving the oldest request of a port (R382) -/

/-- What a port's row comes to, from what serving its request comes to. -/
def answered (port : Nat) (m : PortMsg) : Served → Host.Outcome State Fault Refusal
  | .done st ws s => .next (answerPort port m st ws s)
  | .later s => .next s
  | .undefined r => .refused (.undefinedCase r)

section
variable {cl port need : Nat} {mine known : Nat → Bool} {f : PortMsg → State → Served} {s : State} {m : PortMsg}

theorem servePort_none (hm : frontOf s cl port mine = none) : servePort cl port need mine known f s = .next s := by
  simp only [servePort, hm]

variable (hm : frontOf s cl port mine = some m)
include hm

theorem servePort_unknown (hk : known (opOf m) = false) : servePort cl port need mine known f s = .next (answerPort port m .badOpcode [] (popPort cl port s)) := by
  simp only [servePort, hm, hk, Bool.not_false, if_true]

theorem servePort_short (hk : known (opOf m) = true) (hn : m.words.length < need) :
    servePort cl port need mine known f s = .next (answerPort port m .badLength [] (popPort cl port s)) := by
  simp only [servePort, hm, hk, hn, Bool.not_true, Bool.false_eq_true, if_false, if_true]

theorem servePort_served (hk : known (opOf m) = true) (hn : need ≤ m.words.length) :
    servePort cl port need mine known f s = answered port m (f m (popPort cl port s)) := by
  simp only [servePort, hm, hk, Nat.not_lt.mpr hn, Bool.not_true, Bool.false_eq_true, if_false]
  cases f m (popPort cl port s) <;> rfl

end

section
variable {port h : Nat} {m : PortMsg} {s : State} {f : State → Served}

theorem withHod_bad {a : Bool} (hc : hodCheck s h 0 0 1 = some a) : withHod port h m s f = .done .badParam [] (hodViolation a h 0 0 (whoOf m) port s) := by
  simp only [withHod, hc, badHod]

theorem withHod_held (hc : hodCheck s h 0 0 1 = none) (hh : hodHeld s h = true) : withHod port h m s f = f s := by
  simp only [withHod, hc, hh, if_true]

theorem withHod_free (hc : hodCheck s h 0 0 1 = none) (hh : hodHeld s h = false) : withHod port h m s f = .undefined 205 := by
  simp only [withHod, hc, hh, Bool.false_eq_true, if_false]

end

section
variable {cl : Cluster} {s : State} {m : PortMsg}

/-! The HOD port (R384) -/

theorem exec_hodAlloc_none (hm : frontOf s cl.val 0 (fun op => op == 1 || op == 0 || 4 < op) = none) : exec (.hodAlloc cl) s = .next s := by
  change execHodAlloc cl s = _
  rw [execHodAlloc, servePort_none hm]

theorem exec_hodFree_none (hm : frontOf s cl.val 0 (fun op => op == 2) = none) : exec (.hodFree cl) s = .next s := by
  change execHodFree cl s = _
  rw [execHodFree, servePort_none hm]

theorem exec_hodLink_none (hm : frontOf s cl.val 0 (fun op => op == 3) = none) : exec (.hodLink cl) s = .next s := by
  change execHodLink cl s = _
  rw [execHodLink, servePort_none hm]

theorem exec_hodNext_none (hm : frontOf s cl.val 0 (fun op => op == 4) = none) : exec (.hodNext cl) s = .next s := by
  change execHodNext cl s = _
  rw [execHodNext, servePort_none hm]

section
variable (hm : frontOf s cl.val 0 (fun op => op == 1 || op == 0 || 4 < op) = some m) (hl : 1 ≤ m.words.length)
include hm

theorem exec_hodAlloc_unknown (h1 : opOf m ≠ 1) : exec (.hodAlloc cl) s = .next (answerPort 0 m .badOpcode [] (popPort cl.val 0 s)) := by
  change execHodAlloc cl s = _
  rw [execHodAlloc, servePort_unknown (known := fun op => op == 1) hm (beq_eq_false_iff_ne.mpr h1)]

variable (h1 : opOf m = 1)
include hl h1

theorem exec_hodAlloc_badLength (hn : bitsAt (m.w 0) 16 14 = 0 ∨ 10240 < bitsAt (m.w 0) 16 14) :
    exec (.hodAlloc cl) s = .next (answerPort 0 m .badParam [] (popPort cl.val 0 s)) := by
  change execHodAlloc cl s = _
  rw [execHodAlloc, servePort_served (known := fun op => op == 1) hm (beq_iff_eq.mpr h1) hl]
  simp only [hn, if_true, answered]

variable (hn1 : 1 ≤ bitsAt (m.w 0) 16 14) (hn2 : bitsAt (m.w 0) 16 14 ≤ 10240)
include hn1 hn2

theorem exec_hodAlloc_ok {h : List Nat} {t : State} (ha : allocHods .core false false (bitsAt (m.w 0) 16 14) (popPort cl.val 0 s) = .ok (h, t)) :
    exec (.hodAlloc cl) s = .next (answerPort 0 m .ok [h.getD 0 nullHod] t) := by
  change execHodAlloc cl s = _
  rw [execHodAlloc, servePort_served (known := fun op => op == 1) hm (beq_iff_eq.mpr h1) hl]
  simp only [Nat.one_le_iff_ne_zero.mp hn1, Nat.not_lt.mpr hn2, or_self, if_false, ha, answered]

theorem exec_hodAlloc_error {e : Refused} (ha : allocHods .core false false (bitsAt (m.w 0) 16 14) (popPort cl.val 0 s) = .error e) :
    exec (.hodAlloc cl) s = .next (answerPort 0 m .noResource [] (countRefused .core false e (popPort cl.val 0 s))) := by
  change execHodAlloc cl s = _
  rw [execHodAlloc, servePort_served (known := fun op => op == 1) hm (beq_iff_eq.mpr h1) hl]
  simp only [Nat.one_le_iff_ne_zero.mp hn1, Nat.not_lt.mpr hn2, or_self, if_false, ha, answered]

end

section
variable (hm : frontOf s cl.val 0 (fun op => op == 2) = some m)
include hm

theorem exec_hodFree_short (hl : m.words.length < 2) : exec (.hodFree cl) s = .next (answerPort 0 m .badLength [] (popPort cl.val 0 s)) := by
  change execHodFree cl s = _
  rw [execHodFree, servePort_short (known := fun _ => true) hm rfl hl]

variable (hl : 2 ≤ m.words.length)
include hl

theorem exec_hodFree_bad {a : Bool} (hc : hodCheck (popPort cl.val 0 s) (m.w 1 % 2 ^ 32) 0 0 1 = some a) :
    exec (.hodFree cl) s = .next (answerPort 0 m .badParam [] (hodViolation a (m.w 1 % 2 ^ 32) 0 0 (whoOf m) 0 (popPort cl.val 0 s))) := by
  change execHodFree cl s = _
  rw [execHodFree, servePort_served (known := fun _ => true) hm rfl hl]
  simp only [withHod_bad hc, answered]

variable (hc : hodCheck (popPort cl.val 0 s) (m.w 1 % 2 ^ 32) 0 0 1 = none)
include hc

theorem exec_hodFree_free (hh : hodHeld (popPort cl.val 0 s) (m.w 1 % 2 ^ 32) = false) : exec (.hodFree cl) s = .refused (.undefinedCase 205) := by
  change execHodFree cl s = _
  rw [execHodFree, servePort_served (known := fun _ => true) hm rfl hl]
  simp only [withHod_free hc hh, answered]

theorem exec_hodFree_ok {hs : List Nat} (hhs : (if bitAt (m.w 0) 8 then chainFrom (popPort cl.val 0 s) 64 (m.w 1 % 2 ^ 32) else [m.w 1 % 2 ^ 32]) = hs)
    (hh : hodHeld (popPort cl.val 0 s) (m.w 1 % 2 ^ 32) = true) (hall : hs.all (hodHeld (popPort cl.val 0 s)) = true) :
    exec (.hodFree cl) s = .next (answerPort 0 m .ok [] (freeHods hs (popPort cl.val 0 s))) := by
  change execHodFree cl s = _
  rw [execHodFree, servePort_served (known := fun _ => true) hm rfl hl]
  simp only [withHod_held hc hh, hhs, hall, if_true, answered]

end

theorem exec_hodLink_linked (hm : frontOf s cl.val 0 (fun op => op == 3) = some m) (hl : 3 ≤ m.words.length) (hc : hodCheck (popPort cl.val 0 s) (m.w 1 % 2 ^ 32) 0 0 1 = none)
    (hh : hodHeld (popPort cl.val 0 s) (m.w 1 % 2 ^ 32) = true)
    (hn : m.w 2 % 2 ^ 32 = nullHod ∨ (hodCheck (popPort cl.val 0 s) (m.w 2 % 2 ^ 32) 0 0 1 = none ∧ hodHeld (popPort cl.val 0 s) (m.w 2 % 2 ^ 32) = true ∧
      ((popPort cl.val 0 s).hod.held.any fun e => e.1 != m.w 1 % 2 ^ 32 && e.2.next == m.w 2 % 2 ^ 32) = false)) :
    exec (.hodLink cl) s = .next (answerPort 0 m .ok []
      (modHod (fun x => { x with held := Tbl.modify x.held (m.w 1 % 2 ^ 32) fun y => { y with next := m.w 2 % 2 ^ 32 } }) (popPort cl.val 0 s))) := by
  change execHodLink cl s = _
  rw [execHodLink, servePort_served (known := fun _ => true) hm rfl hl]
  simp only [withHod_held hc hh]
  by_cases hnull : m.w 2 % 2 ^ 32 = nullHod
  · simp only [hnull, if_true, answered]
  · obtain ⟨hc2, hh2, hlinked⟩ := hn.resolve_left hnull
    simp only [hnull, if_false, withHod_held hc2 hh2, hlinked, Bool.false_eq_true, answered]

theorem exec_hodNext_held {x : Hod} (hm : frontOf s cl.val 0 (fun op => op == 4) = some m) (hl : 2 ≤ m.words.length)
    (hc : hodCheck (popPort cl.val 0 s) (m.w 1 % 2 ^ 32) 0 0 1 = none) (hx : Tbl.find s.hod.held (m.w 1 % 2 ^ 32) = some x) :
    exec (.hodNext cl) s = .next (answerPort 0 m .ok [x.next] (popPort cl.val 0 s)) := by
  have hx' : Tbl.find (popPort cl.val 0 s).hod.held (m.w 1 % 2 ^ 32) = some x := hx
  have hh : hodHeld (popPort cl.val 0 s) (m.w 1 % 2 ^ 32) = true := by simp only [hodHeld, Tbl.has, hx', Option.isSome_some]
  change execHodNext cl s = _
  rw [execHodNext, servePort_served (known := fun _ => true) hm rfl hl]
  simp only [withHod_held hc hh, Tbl.getD, hx', Option.getD_some, answered]

/-! The DMA port (R385) -/

theorem exec_dmaCopy_none (hm : frontOf s cl.val 1 (fun _ => true) = none) : exec (.dmaCopy cl) s = .next s := by
  change execDmaCopy cl s = _
  rw [execDmaCopy, servePort_none hm]

section
variable (hm : frontOf s cl.val 1 (fun _ => true) = some m)
include hm

theorem exec_dmaCopy_unknown (h1 : opOf m ≠ 1) : exec (.dmaCopy cl) s = .next (answerPort 1 m .badOpcode [] (popPort cl.val 1 s)) := by
  change execDmaCopy cl s = _
  rw [execDmaCopy, servePort_unknown (known := fun op => op == 1) hm (beq_eq_false_iff_ne.mpr h1)]

variable (h1 : opOf m = 1)
include h1

theorem exec_dmaCopy_short (hl : m.words.length < 4) : exec (.dmaCopy cl) s = .next (answerPort 1 m .badLength [] (popPort cl.val 1 s)) := by
  change execDmaCopy cl s = _
  rw [execDmaCopy, servePort_short (known := fun op => op == 1) hm (beq_iff_eq.mpr h1) hl]

variable (hl : 4 ≤ m.words.length)
include hl

theorem exec_dmaCopy_badLength (hn : bitsAt (m.w 3) 0 21 = 0 ∨ 1048576 < bitsAt (m.w 3) 0 21) :
    exec (.dmaCopy cl) s = .next (answerPort 1 m .badParam [] (popPort cl.val 1 s)) := by
  change execDmaCopy cl s = _
  rw [execDmaCopy, servePort_served (known := fun op => op == 1) hm (beq_iff_eq.mpr h1) hl]
  simp only [hn, if_true, answered]

variable {a b : Region} (hn1 : 1 ≤ bitsAt (m.w 3) 0 21) (hn2 : bitsAt (m.w 3) 0 21 ≤ 1048576)
  (ha : dmaOperand (popPort cl.val 1 s) m.core (m.w 1) (bitsAt (m.w 3) 0 21) = .at_ a) (hb : dmaOperand (popPort cl.val 1 s) m.core (m.w 2) (bitsAt (m.w 3) 0 21) = .at_ b)
include hn1 hn2 ha hb

theorem exec_dmaCopy_copied (hp : samePlace (placeOf (popPort cl.val 1 s) m.core a) (placeOf (popPort cl.val 1 s) m.core b) (bitsAt (m.w 3) 0 21) = false) :
    exec (.dmaCopy cl) s = .next (answerPort 1 m .ok [] (dmaCopy m.core a b (bitsAt (m.w 3) 0 21) (popPort cl.val 1 s))) := by
  change execDmaCopy cl s = _
  rw [execDmaCopy, servePort_served (known := fun op => op == 1) hm (beq_iff_eq.mpr h1) hl]
  simp only [Nat.one_le_iff_ne_zero.mp hn1, Nat.not_lt.mpr hn2, or_self, if_false, ha, hb, hp, Bool.false_eq_true, answered]

theorem exec_dmaCopy_overlap (hp : samePlace (placeOf (popPort cl.val 1 s) m.core a) (placeOf (popPort cl.val 1 s) m.core b) (bitsAt (m.w 3) 0 21) = true) :
    exec (.dmaCopy cl) s = .refused (.undefinedCase 385) := by
  change execDmaCopy cl s = _
  rw [execDmaCopy, servePort_served (known := fun op => op == 1) hm (beq_iff_eq.mpr h1) hl]
  simp only [Nat.one_le_iff_ne_zero.mp hn1, Nat.not_lt.mpr hn2, or_self, if_false, ha, hb, hp, if_true, answered]

end

/-! The TABLE port (R386) -/

theorem exec_tableRequest_none (hm : frontOf s cl.val 2 (fun _ => true) = none) : exec (.tableRequest cl) s = .next s := by
  change execTableRequest cl s = _
  rw [execTableRequest, servePort_none hm]

/-- The packet that a TABLE request's parameters come to. -/
def tablePacket (m : PortMsg) (r : Region) (u : State) : Packet := portPacket (readAt u m.core r (8 * bitsAt (m.w 2) 0 16))

section
variable (hm : frontOf s cl.val 2 (fun _ => true) = some m)
include hm

theorem exec_tableRequest_unknown (h1 : opOf m ≠ 1) : exec (.tableRequest cl) s = .next (answerPort 2 m .badOpcode [] (popPort cl.val 2 s)) := by
  change execTableRequest cl s = _
  rw [execTableRequest, servePort_unknown (known := fun op => op == 1) hm (beq_eq_false_iff_ne.mpr h1)]

variable (h1 : opOf m = 1) (hl : 4 ≤ m.words.length)
include h1 hl

theorem exec_tableRequest_noCommand (hd : tableCmd (bitsAt (m.w 0) 16 16) = none) :
    exec (.tableRequest cl) s = .next (answerPort 2 m .badOpcode (tableReply [] (popPort cl.val 2 s)) (popPort cl.val 2 s)) := by
  change execTableRequest cl s = _
  rw [execTableRequest, servePort_served (known := fun op => op == 1) hm (beq_iff_eq.mpr h1) hl]
  simp only [hd, answered]

variable {d : CmdDef} {r : Region} (hd : tableCmd (bitsAt (m.w 0) 16 16) = some d)
  (hr : blockAt (popPort cl.val 2 s) m.core (m.w 1) (8 * bitsAt (m.w 2) 0 16) 8 = some r)
include hd hr

theorem exec_tableRequest_badLength (hn : d.len (bitsAt (m.w 2) 0 16) = false) :
    exec (.tableRequest cl) s = .next (answerPort 2 m .badLength (tableReply [] (popPort cl.val 2 s)) (popPort cl.val 2 s)) := by
  change execTableRequest cl s = _
  rw [execTableRequest, servePort_served (known := fun op => op == 1) hm (beq_iff_eq.mpr h1) hl]
  simp only [hd, hr, hn, Bool.not_false, if_true, answered]

variable (hn : d.len (bitsAt (m.w 2) 0 16) = true)
include hn

theorem exec_tableRequest_refused {st : Status} (hf : firstRefusal (d.checks .device (tablePacket m r (popPort cl.val 2 s)) (popPort cl.val 2 s)) = some st) :
    exec (.tableRequest cl) s = .next (answerPort 2 m st (tableReply [] (popPort cl.val 2 s)) (popPort cl.val 2 s)) := by
  unfold tablePacket at hf
  change execTableRequest cl s = _
  rw [execTableRequest, servePort_served (known := fun op => op == 1) hm (beq_iff_eq.mpr h1) hl]
  simp only [hd, hr, hn, hf, Bool.not_true, Bool.false_eq_true, if_false, answered]

variable (hf : firstRefusal (d.checks .device (tablePacket m r (popPort cl.val 2 s)) (popPort cl.val 2 s)) = none)
include hf

theorem exec_tableRequest_short (hlong : (d.act .device (tablePacket m r (popPort cl.val 2 s)) (popPort cl.val 2 s)).long = none) : exec (.tableRequest cl) s = .next (
    let a := d.act .device (tablePacket m r (popPort cl.val 2 s)) (popPort cl.val 2 s)
    answerPort 2 m a.status (tableReply a.result a.state) a.state) := by
  unfold tablePacket at hf hlong ⊢
  change execTableRequest cl s = _
  rw [execTableRequest, servePort_served (known := fun op => op == 1) hm (beq_iff_eq.mpr h1) hl]
  simp only [hd, hr, hn, hf, hlong, Bool.not_true, Bool.false_eq_true, if_false, answered]

theorem exec_tableRequest_long {l : List Nat} {out : Region} (hlong : (d.act .device (tablePacket m r (popPort cl.val 2 s)) (popPort cl.val 2 s)).long = some l)
    (hout : blockAt (popPort cl.val 2 s) m.core (m.w 3) (4 * l.length) 8 = some out) : exec (.tableRequest cl) s = .next (
    let a := d.act .device (tablePacket m r (popPort cl.val 2 s)) (popPort cl.val 2 s)
    answerPort 2 m a.status (tableReply a.result a.state) (writeAt m.core out (wordsToBytes l) a.state)) := by
  unfold tablePacket at hf hlong ⊢
  change execTableRequest cl s = _
  rw [execTableRequest, servePort_served (known := fun op => op == 1) hm (beq_iff_eq.mpr h1) hl]
  simp only [hd, hr, hn, hf, hlong, hout, Bool.not_true, Bool.false_eq_true, if_false, answered]

end

end

/-- Settles O48. -/
theorem hodDmaAndTablePortsComplete : Obligations.HodDmaAndTablePortsComplete := by
  unfold Obligations.HodDmaAndTablePortsComplete
  intro s cl
  refine ⟨exec_hodAlloc_none, exec_hodFree_none, exec_hodLink_none, exec_hodNext_none, exec_dmaCopy_none, exec_tableRequest_none,
    fun m hm hl => ⟨exec_hodAlloc_unknown hm, exec_hodAlloc_badLength hm hl, fun h t h1 hn1 hn2 => exec_hodAlloc_ok hm hl h1 hn1 hn2, fun e h1 hn1 hn2 => exec_hodAlloc_error hm hl h1 hn1 hn2⟩,
    fun m hm => ⟨exec_hodFree_short hm, fun a hl => exec_hodFree_bad hm hl, fun hl hc => exec_hodFree_ok hm hl hc rfl, exec_hodFree_free hm⟩, fun m => exec_hodLink_linked, fun m x => exec_hodNext_held,
    fun m hm => ⟨exec_dmaCopy_unknown hm, exec_dmaCopy_short hm, exec_dmaCopy_badLength hm, fun a b h1 hl => exec_dmaCopy_copied hm h1 hl, fun a b h1 hl => exec_dmaCopy_overlap hm h1 hl⟩,
    fun m hm => ⟨exec_tableRequest_unknown hm, exec_tableRequest_noCommand hm, fun d r h1 hl hd hr => ⟨exec_tableRequest_badLength hm h1 hl hd hr,
      fun st hn => exec_tableRequest_refused hm h1 hl hd hr hn, exec_tableRequest_short hm h1 hl hd hr, fun l out hn hf => exec_tableRequest_long hm h1 hl hd hr hn hf⟩⟩⟩

end Sys2Proof.Machine
end

section
/-! PROOF. The LOOKASIDE, EMIT and PUNT ports of the packet cores (R351, R352, R387 to R390, R398), for O49. -/

namespace Sys2Proof.Machine
open Sys2Proof

section
variable {cl : Cluster} {s : State} {m : PortMsg}

/-! Ports that hold no request of the row -/

theorem exec_lookasideJob_none (hm : frontOf s cl.val 3 (fun _ => true) = none) : exec (.lookasideJob cl) s = .next s := by
  change execLookasideJob cl s = _
  rw [execLookasideJob, servePort_none hm]

theorem exec_emitPort_none (hm : frontOf s cl.val 4 (fun op => op != 2) = none) : exec (.emitPort cl) s = .next s := by
  change execEmitPort cl s = _
  rw [execEmitPort, servePort_none hm]

theorem exec_emitHost_none (hm : frontOf s cl.val 4 (fun op => op == 2) = none) : exec (.emitHost cl) s = .next s := by
  change execEmitHost cl s = _
  rw [execEmitHost, servePort_none hm]

theorem exec_puntRecv_none (hm : frontOf s cl.val 5 (fun op => op != 2) = none) : exec (.puntRecv cl) s = .next s := by
  change execPuntRecv cl s = _
  rw [execPuntRecv, servePort_none hm]

theorem exec_puntCancel_none (hm : frontOf s cl.val 5 (fun op => op == 2) = none) : exec (.puntCancel cl) s = .next s := by
  change execPuntCancel cl s = _
  rw [execPuntCancel, servePort_none hm]

/-! The LOOKASIDE port (R351, R352, R387) -/

/-- The job that a LOOKASIDE request asks for. -/
def laJobOf (cl : Cluster) (m : PortMsg) : LaJob := { cluster := cl.val, core := m.core, thread := m.thread, words := m.words, key := none, done := 0 }

/-- Every hod of the chains that a job reads and writes is held. -/
def laHeld (j : LaJob) (u : State) : Bool := (chainFrom u 64 (j.place 1).1).all (hodHeld u) && (chainFrom u 64 (j.place 2).1).all (hodHeld u)

/-- A job has a length, a mode or reserved words that R351 does not allow. -/
def laBad (j : LaJob) (m : PortMsg) : Prop := j.length < 16 ∨ 655360 < j.length ∨ j.length % 16 ≠ 0 ∨ j.mode = 0 ∨ 3 < j.mode ∨ m.w 6 ≠ 0 ∨ m.w 7 ≠ 0

section
variable (hm : frontOf s cl.val 3 (fun _ => true) = some m) (hop : opOf m = 1 ∨ opOf m = 2) (hl : 8 ≤ m.words.length)
  (h1 : badPlace (popPort cl.val 3 s) ((laJobOf cl m).place 1) (laJobOf cl m).reads = none) (h2 : badPlace (popPort cl.val 3 s) ((laJobOf cl m).place 2) (laJobOf cl m).writes = none)
include hm hop hl h1 h2

theorem exec_lookasideJob_undefined (hh : laHeld (laJobOf cl m) (popPort cl.val 3 s) = false) : exec (.lookasideJob cl) s = .refused (.undefinedCase 205) := by
  have hknown : (opOf m == 1 || opOf m == 2) = true := by simpa using hop
  unfold laHeld at hh
  unfold laJobOf at h1 h2 hh
  change execLookasideJob cl s = _
  rw [execLookasideJob, servePort_served (known := fun op => op == 1 || op == 2) hm hknown hl]
  simp only [h1, h2, hh, Bool.not_false, if_true, answered]

theorem exec_lookasideJob_badParam (hh : laHeld (laJobOf cl m) (popPort cl.val 3 s) = true) (hb : laBad (laJobOf cl m) m) :
    exec (.lookasideJob cl) s = .next (answerPort 3 m .badParam [] (popPort cl.val 3 s)) := by
  have hknown : (opOf m == 1 || opOf m == 2) = true := by simpa using hop
  unfold laHeld at hh
  unfold laBad at hb
  unfold laJobOf at h1 h2 hh hb
  change execLookasideJob cl s = _
  rw [execLookasideJob, servePort_served (known := fun op => op == 1 || op == 2) hm hknown hl]
  simp only [h1, h2, hh, hb, Bool.not_true, Bool.false_eq_true, if_false, if_true, answered]

variable (hh : laHeld (laJobOf cl m) (popPort cl.val 3 s) = true) (hb : ¬laBad (laJobOf cl m) m)
include hh hb

theorem exec_lookasideJob_full (hj : 256 ≤ jobsOf (popPort cl.val 3 s) cl.val) : exec (.lookasideJob cl) s = .next (answerPort 3 m .noResource [] (popPort cl.val 3 s)) := by
  have hknown : (opOf m == 1 || opOf m == 2) = true := by simpa using hop
  unfold laHeld at hh
  unfold laBad at hb
  unfold laJobOf at h1 h2 hh hb
  change execLookasideJob cl s = _
  rw [execLookasideJob, servePort_served (known := fun op => op == 1 || op == 2) hm hknown hl]
  simp only [h1, h2, hh, hb, hj, Bool.not_true, Bool.false_eq_true, if_false, if_true, answered]

variable (hj : jobsOf (popPort cl.val 3 s) cl.val < 256)
include hj

theorem exec_lookasideJob_keyRefused (hk : badKeyRef (laJobOf cl m).keyRef = true ∨ laKey (popPort cl.val 3 s) (laJobOf cl m) = none) :
    exec (.lookasideJob cl) s = .next (answerPort 3 m .keyRefused [] (countTile (emptiestTile (popPort cl.val 3 s)) 4 1 (popPort cl.val 3 s))) := by
  have hknown : (opOf m == 1 || opOf m == 2) = true := by simpa using hop
  have hkey : (badKeyRef (laJobOf cl m).keyRef || (laKey (popPort cl.val 3 s) (laJobOf cl m)).isNone) = true := by simpa using hk
  unfold laHeld at hh
  unfold laBad at hb
  unfold laJobOf at h1 h2 hh hb hkey
  change execLookasideJob cl s = _
  rw [execLookasideJob, servePort_served (known := fun op => op == 1 || op == 2) hm hknown hl]
  simp only [h1, h2, hh, hb, hkey, Nat.not_le.mpr hj, Bool.not_true, Bool.false_eq_true, if_false, if_true, answered]

theorem exec_lookasideJob_queued {k : KeySlot} (hr : badKeyRef (laJobOf cl m).keyRef = false) (hk : laKey (popPort cl.val 3 s) (laJobOf cl m) = some k) : exec (.lookasideJob cl) s =
    .next (goLa (emptiestTile (popPort cl.val 3 s)) (modTile (emptiestTile (popPort cl.val 3 s)) (fun x => { x with queue := joinQueue (laJobOf cl m) x.queue }) (popPort cl.val 3 s))) := by
  have hknown : (opOf m == 1 || opOf m == 2) = true := by simpa using hop
  unfold laHeld at hh
  unfold laBad at hb
  unfold laJobOf at h1 h2 hh hb hr hk ⊢
  change execLookasideJob cl s = _
  rw [execLookasideJob, servePort_served (known := fun op => op == 1 || op == 2) hm hknown hl]
  simp only [h1, h2, hh, hb, hr, hk, Nat.not_le.mpr hj, Option.isNone_some, Bool.or_self, Bool.not_true, Bool.false_eq_true, if_false, answered]

end

/-! The EMIT port (R388, R389, R398) -/

theorem withChain_badParam {f : List Nat → Nat → Served} (hn : bitsAt (m.w 2) 0 14 < 60 ∨ 9212 < bitsAt (m.w 2) 0 14) : withChain m s f = .done .badParam [] s := by
  simp only [withChain, hn, if_true]

theorem withChain_held {f : List Nat → Nat → Served} (h60 : 60 ≤ bitsAt (m.w 2) 0 14) (h9212 : bitsAt (m.w 2) 0 14 ≤ 9212) (hr : handleInRange s (m.w 1 % 2 ^ 32) = true)
    (hall : (chainFrom s 64 (m.w 1 % 2 ^ 32)).all (hodHeld s) = true) (hroom : bitsAt (m.w 2) 0 14 ≤ (chainFrom s 64 (m.w 1 % 2 ^ 32)).foldl (fun n x => n + hodBytes (hodPool x)) 0) :
    withChain m s f = f (chainFrom s 64 (m.w 1 % 2 ^ 32)) (bitsAt (m.w 2) 0 14) := by
  simp only [withChain, Nat.not_lt.mpr h60, Nat.not_lt.mpr h9212, hr, hall, Nat.not_lt.mpr hroom, or_self, Bool.not_true, Bool.false_eq_true, if_false]

section
variable (hm : frontOf s cl.val 4 (fun op => op != 2) = some m)
include hm

theorem exec_emitPort_unknown (h1 : opOf m ≠ 1) : exec (.emitPort cl) s = .next (answerPort 4 m .badOpcode [] (popPort cl.val 4 s)) := by
  change execEmitPort cl s = _
  rw [execEmitPort, servePort_unknown (known := fun op => op == 1) hm (beq_eq_false_iff_ne.mpr h1)]

variable (hl : 3 ≤ m.words.length) (h1 : opOf m = 1)
include hl h1

theorem exec_emitPort_badParam (hb : bitsAt (m.w 2) 24 3 = 7 ∨ bitsAt (m.w 2) 0 14 < 60 ∨ 9212 < bitsAt (m.w 2) 0 14) :
    exec (.emitPort cl) s = .next (answerPort 4 m .badParam [] (popPort cl.val 4 s)) := by
  change execEmitPort cl s = _
  rw [execEmitPort, servePort_served (known := fun op => op == 1) hm (beq_iff_eq.mpr h1) hl]
  by_cases h7 : bitsAt (m.w 2) 24 3 = 7
  · simp only [h7, if_true, answered]
  · simp only [h7, if_false, withChain_badParam (hb.resolve_left h7), answered]

variable (h7 : bitsAt (m.w 2) 24 3 ≠ 7) (h60 : 60 ≤ bitsAt (m.w 2) 0 14) (h9212 : bitsAt (m.w 2) 0 14 ≤ 9212) (hr : handleInRange (popPort cl.val 4 s) (m.w 1 % 2 ^ 32) = true)
  (hall : (chainFrom (popPort cl.val 4 s) 64 (m.w 1 % 2 ^ 32)).all (hodHeld (popPort cl.val 4 s)) = true)
  (hroom : bitsAt (m.w 2) 0 14 ≤ (chainFrom (popPort cl.val 4 s) 64 (m.w 1 % 2 ^ 32)).foldl (fun n x => n + hodBytes (hodPool x)) 0)
include h7 h60 h9212 hr hall hroom

theorem exec_emitPort_uncharged {e : Refused} (hc : chargeAll .forward false (chainFrom (popPort cl.val 4 s) 64 (m.w 1 % 2 ^ 32)) (popPort cl.val 4 s) = .error e) :
    exec (.emitPort cl) s = .next (answerPort 4 m .noResource [] (countRefused .forward false e (popPort cl.val 4 s))) := by
  change execEmitPort cl s = _
  rw [execEmitPort, servePort_served (known := fun op => op == 1) hm (beq_iff_eq.mpr h1) hl]
  simp only [h7, if_false, withChain_held h60 h9212 hr hall hroom, hc, answered]

variable {t : State} (hc : chargeAll .forward false (chainFrom (popPort cl.val 4 s) 64 (m.w 1 % 2 ^ 32)) (popPort cl.val 4 s) = .ok t)
include hc

theorem exec_emitPort_down (hdown : portIsUp t (bitsAt (m.w 2) 16 6) = false) : exec (.emitPort cl) s = .next (answerPort 4 m .ok []
    (dropLinkDown { emitted (chainFrom (popPort cl.val 4 s) 64 (m.w 1 % 2 ^ 32)) (bitsAt (m.w 2) 0 14) (popPort cl.val 4 s) with port := bitsAt (m.w 2) 16 6, cls := bitsAt (m.w 2) 24 3 } t)) := by
  change execEmitPort cl s = _
  rw [execEmitPort, servePort_served (known := fun op => op == 1) hm (beq_iff_eq.mpr h1) hl]
  simp only [h7, if_false, withChain_held h60 h9212 hr hall hroom, hc, hdown, Bool.not_false, if_true, answered]

theorem exec_emitPort_forwarded (hup : portIsUp t (bitsAt (m.w 2) 16 6) = true) : exec (.emitPort cl) s = .next (answerPort 4 m .ok []
    (forwardTo (bitsAt (m.w 2) 16 6) (permitted ((forwardPath t (bitsAt (m.w 2) 16 6) 0).map fun n => n.permit) (bitsAt (m.w 2) 24 3))
      { emitted (chainFrom (popPort cl.val 4 s) 64 (m.w 1 % 2 ^ 32)) (bitsAt (m.w 2) 0 14) (popPort cl.val 4 s) with port := bitsAt (m.w 2) 16 6, cls := bitsAt (m.w 2) 24 3 } t)) := by
  change execEmitPort cl s = _
  rw [execEmitPort, servePort_served (known := fun op => op == 1) hm (beq_iff_eq.mpr h1) hl]
  simp only [h7, if_false, withChain_held h60 h9212 hr hall hroom, hc, hup, Bool.not_true, Bool.false_eq_true, answered]

end

/-- The action record that an EMIT request to a host names. -/
def emitAction (m : PortMsg) (u : State) : List Nat := actionAt u (bitsAt (m.w 2) 32 18)

/-- An action record that delivers to a host with a class below 7. -/
def deliversBelow7 (a : List Nat) : Bool := actValid a && actKind a == 1 && actClass a != 7

section
variable (hm : frontOf s cl.val 4 (fun op => op == 2) = some m) (hl : 4 ≤ m.words.length)
include hm hl

theorem exec_emitHost_badAction (ha : deliversBelow7 (emitAction m (popPort cl.val 4 s)) = false) :
    exec (.emitHost cl) s = .next (answerPort 4 m .badParam [] (popPort cl.val 4 s)) := by
  unfold deliversBelow7 emitAction at ha
  change execEmitHost cl s = _
  rw [execEmitHost, servePort_served (known := fun _ => true) hm rfl hl]
  simp only [ha, answered]

variable {h : HostId} {f : Fn} {r : Region} (ha : deliversBelow7 (emitAction m (popPort cl.val 4 s)) = true)
  (hd : hostDest (popPort cl.val 4 s) (actDest (emitAction m (popPort cl.val 4 s))) = some (h, f)) (hblk : blockAt (popPort cl.val 4 s) m.core (m.w 3) 256 256 = some r)
  (h60 : 60 ≤ bitsAt (m.w 2) 0 14) (h9212 : bitsAt (m.w 2) 0 14 ≤ 9212) (hr : handleInRange (popPort cl.val 4 s) (m.w 1 % 2 ^ 32) = true)
  (hall : (chainFrom (popPort cl.val 4 s) 64 (m.w 1 % 2 ^ 32)).all (hodHeld (popPort cl.val 4 s)) = true)
  (hroom : bitsAt (m.w 2) 0 14 ≤ (chainFrom (popPort cl.val 4 s) 64 (m.w 1 % 2 ^ 32)).foldl (fun n x => n + hodBytes (hodPool x)) 0)
include ha hd hblk h60 h9212 hr hall hroom

theorem exec_emitHost_uncharged {e : Refused} (hc : chargeAll (fnPayer h f) false (chainFrom (popPort cl.val 4 s) 64 (m.w 1 % 2 ^ 32)) (popPort cl.val 4 s) = .error e) :
    exec (.emitHost cl) s = .next (answerPort 4 m .noResource [] (countRefused (fnPayer h f) false e (popPort cl.val 4 s))) := by
  unfold deliversBelow7 emitAction at ha
  unfold emitAction at hd
  change execEmitHost cl s = _
  rw [execEmitHost, servePort_served (known := fun _ => true) hm rfl hl]
  simp only [ha, hd, hblk, withChain_held h60 h9212 hr hall hroom, hc, answered]

theorem exec_emitHost_delivered {t : State} (hc : chargeAll (fnPayer h f) false (chainFrom (popPort cl.val 4 s) 64 (m.w 1 % 2 ^ 32)) (popPort cl.val 4 s) = .ok t) :
    exec (.emitHost cl) s = .next (answerPort 4 m .ok [] (emitHost h f (emitAction m (popPort cl.val 4 s)) (vectorOf (readAt (popPort cl.val 4 s) m.core r 256))
      (emitted (chainFrom (popPort cl.val 4 s) 64 (m.w 1 % 2 ^ 32)) (bitsAt (m.w 2) 0 14) (popPort cl.val 4 s)) t)) := by
  unfold deliversBelow7 emitAction at ha
  unfold emitAction at hd ⊢
  change execEmitHost cl s = _
  rw [execEmitHost, servePort_served (known := fun _ => true) hm rfl hl]
  simp only [ha, hd, hblk, withChain_held h60 h9212 hr hall hroom, hc, answered]

end

/-! The PUNT port (R390) -/

section
variable (hm : frontOf s cl.val 5 (fun op => op != 2) = some m) (h1 : opOf m = 1) (hl : 2 ≤ m.words.length)
include hm h1 hl

theorem exec_puntRecv_waits {sp off : Nat} (hb : blockAt (popPort cl.val 5 s) m.core (m.w 1) 256 256 = some (.mem sp off)) (hsp : sp ≠ 0) :
    exec (.puntRecv cl) s = .next (modCluster cl.val (fun c => { c with recvs := c.recvs ++ [m] }) (popPort cl.val 5 s)) := by
  change execPuntRecv cl s = _
  rw [execPuntRecv, servePort_served (known := fun op => op == 1) hm (beq_iff_eq.mpr h1) hl]
  simp only [hb, hsp, if_false, answered]

theorem exec_puntRecv_badParam (hb : blockAt (popPort cl.val 5 s) m.core (m.w 1) 256 256 = none) :
    exec (.puntRecv cl) s = .next (answerPort 5 m .badParam [] (popPort cl.val 5 s)) := by
  change execPuntRecv cl s = _
  rw [execPuntRecv, servePort_served (known := fun op => op == 1) hm (beq_iff_eq.mpr h1) hl]
  simp only [hb, answered]

end

/-- A request of the same thread. -/
def sameThread (m r : PortMsg) : Bool := r.core == m.core && r.thread == m.thread

theorem exec_puntCancel_answered (hm : frontOf s cl.val 5 (fun op => op == 2) = some m) (hl : 1 ≤ m.words.length) : exec (.puntCancel cl) s =
    .next (answerPort 5 m .ok [] (((cluster (popPort cl.val 5 s) cl.val).recvs.filter (sameThread m)).foldl (fun s r => answerPort 5 r .cancelled [] s)
      (modCluster cl.val (fun c => { c with recvs := (cluster (popPort cl.val 5 s) cl.val).recvs.filter fun r => !sameThread m r }) (popPort cl.val 5 s)))) := by
  unfold sameThread
  change execPuntCancel cl s = _
  rw [execPuntCancel, servePort_served (known := fun _ => true) hm rfl hl]
  simp only [answered]

/-- The punted packet's vector is written where its receiver asked for it. -/
def vectorWritten (m : PortMsg) (x : Punt) (t : State) : State :=
  match blockAt t m.core (m.w 1) 256 256 with
  | none => t
  | some r => writeAt m.core r (vectorRecord x) t

theorem exec_puntDelivery_delivered {x : Punt} {xs : List Punt} {ms : List PortMsg} (hq : s.glb.mode ≠ .quiesce) (hx : (cluster s cl.val).punts = x :: xs)
    (hr : (cluster s cl.val).recvs = m :: ms) : exec (.puntDelivery cl) s = .next (
      answerPort 5 m .ok [x.pkt.hods.getD 0 nullHod, x.pkt.vec.length % 16384 + x.source % 256 * 65536 + x.cause % 16 * 2 ^ 24 + b2n x.tx * 2 ^ 28, x.pkt.epoch]
        (countCore cl.val 7 (vectorWritten m x (modCluster cl.val (fun c => { c with punts := xs, recvs := ms }) s)))) := by
  have hmode : (s.glb.mode == .quiesce) = false := beq_eq_false_iff_ne.mpr hq
  change execPuntDelivery cl s = _
  simp only [execPuntDelivery, hmode, hx, hr, Bool.false_eq_true, if_false]
  unfold vectorWritten
  cases blockAt (modCluster cl.val (fun c => { c with punts := xs, recvs := ms }) s) m.core (m.w 1) 256 256 <;> simp only

theorem exec_puntDelivery_waits (hno : s.glb.mode = .quiesce ∨ (cluster s cl.val).punts = [] ∨ (cluster s cl.val).recvs = []) : exec (.puntDelivery cl) s = .next s := by
  change execPuntDelivery cl s = _
  rcases hno with hq | hp | hr
  · simp only [execPuntDelivery, hq, beq_self_eq_true, if_true]
  · simp only [execPuntDelivery, hp, ite_self]
  · cases hp : (cluster s cl.val).punts <;> simp only [execPuntDelivery, hp, hr, ite_self]

end

/-- Settles O49. -/
theorem lookasideEmitAndPuntPortsComplete : Obligations.LookasideEmitAndPuntPortsComplete := by
  unfold Obligations.LookasideEmitAndPuntPortsComplete
  intro s cl
  refine ⟨exec_lookasideJob_none, exec_emitPort_none, exec_emitHost_none, exec_puntRecv_none, exec_puntCancel_none, fun m hm hop hl h1 h2 => ?lookaside, fun m hm hl => ?port,
    fun m hm hl => ?host, fun m hm h1 hl => ⟨fun sp off => exec_puntRecv_waits hm h1 hl, exec_puntRecv_badParam hm h1 hl⟩, fun m => exec_puntCancel_answered, ?delivery,
    exec_puntDelivery_waits⟩
  case lookaside =>
    refine ⟨exec_lookasideJob_undefined hm hop hl h1 h2, fun hh => ⟨exec_lookasideJob_badParam hm hop hl h1 h2 hh, fun h16 hmax hmod hm1 hm3 hw6 hw7 => ?_⟩⟩
    have hb : ¬laBad (laJobOf cl m) m := fun hbad => by
      rcases hbad with h | h | h | h | h | h | h
      · exact absurd h16 (Nat.not_le.mpr h)
      · exact absurd hmax (Nat.not_le.mpr h)
      · exact h hmod
      · exact Nat.one_le_iff_ne_zero.mp hm1 h
      · exact absurd hm3 (Nat.not_le.mpr h)
      · exact h hw6
      · exact h hw7
    exact ⟨exec_lookasideJob_full hm hop hl h1 h2 hh hb, exec_lookasideJob_keyRefused hm hop hl h1 h2 hh hb, fun k hj => exec_lookasideJob_queued hm hop hl h1 h2 hh hb hj⟩
  case port =>
    exact ⟨exec_emitPort_unknown hm, exec_emitPort_badParam hm hl, fun h1 h7 h60 h9212 hr hall hroom => ⟨fun e => exec_emitPort_uncharged hm hl h1 h7 h60 h9212 hr hall hroom,
      fun t => exec_emitPort_down hm hl h1 h7 h60 h9212 hr hall hroom, fun t => exec_emitPort_forwarded hm hl h1 h7 h60 h9212 hr hall hroom⟩⟩
  case host =>
    exact ⟨exec_emitHost_badAction hm hl, fun h f r ha hd hblk h60 h9212 hr hall hroom => ⟨fun e => exec_emitHost_uncharged hm hl ha hd hblk h60 h9212 hr hall hroom,
      fun t => exec_emitHost_delivered hm hl ha hd hblk h60 h9212 hr hall hroom⟩⟩
  case delivery =>
    intro x xs m ms hq hx hr
    rw [exec_puntDelivery_delivered hq hx hr]
    unfold vectorWritten
    cases hb : blockAt (modCluster cl.val (fun c => { c with punts := xs, recvs := ms }) s) m.core (m.w 1) 256 256 <;> simp only [hb]

end Sys2Proof.Machine
end

section
/-! PROOF. The DRAM channels (R408 to R420), for O50. -/

namespace Sys2Proof.Machine
open Sys2Proof

section
variable {s : State}

/-! Requests (R410, R411) -/

/-- A DRAM request as it waits: with its deadline, and without its data yet. -/
def dramWaitOf (r : DramReq) (s : State) : DramWait :=
  { req := r, issued := nowNs s, deadline := nowNs s + dramTarget s r.kind r.domain, retried := false, data := [] }

theorem exec_dramRequest_outside {r : DramReq} (hc : channelAt s r.addr.toNat = none) : exec (.dramRequest r) s = .next (emit (.dram 0 r.addr.toNat 2 []) s) := by
  change execDramRequest r s = _
  simp only [execDramRequest, hc]

section
variable {r : DramReq} {ch : Nat} (hc : channelAt s r.addr.toNat = some ch)
include hc

theorem exec_dramRequest_gone (hg : dramGone s r.addr.toNat = true) : exec (.dramRequest r) s = .next (emit (.dram ch r.addr.toNat 2 []) s) := by
  change execDramRequest r s = _
  simp only [execDramRequest, hc, hg, if_true]

variable (hg : dramGone s r.addr.toNat = false)
include hg

theorem exec_dramRequest_full (hq : 256 ≤ (dramChan s ch).queue.length) :
    exec (.dramRequest r) s = .next (modChan ch (fun c => { c with waiting := c.waiting ++ [dramWaitOf r s] }) s) := by
  change execDramRequest r s = _
  simp only [execDramRequest, hc, hg, hq, Bool.false_eq_true, if_false, if_true, dramWaitOf]

theorem exec_dramRequest_accepted (hq : (dramChan s ch).queue.length < 256) : exec (.dramRequest r) s = .next (acceptDram ch (dramWaitOf r s) s) := by
  change execDramRequest r s = _
  simp only [execDramRequest, hc, hg, Nat.not_le.mpr hq, Bool.false_eq_true, if_false, dramWaitOf]

end

theorem acceptDram_read {ch : Nat} {w : DramWait} (hw : w.req.write = none) : acceptDram ch w s = countDram ch 0
    (modChan ch (fun c => { c with queue := c.queue ++ [{ w with data := Mem.readBytes s.dram.mem 0 (w.req.addr.toNat / 64 * 64) 64 }] }) (modChan ch (fun c => { c with accesses := c.accesses + 1 }) s)) := by
  simp only [acceptDram, hw]

theorem acceptDram_write {ch : Nat} {w : DramWait} {bs : List Byte} (hw : w.req.write = some bs) : acceptDram ch w s = countDram ch 1 (cleanPoison (1025, w.req.addr.toNat / 64 * 64) 64
    (modDram (fun d => { d with mem := Mem.writeBytes d.mem 0 (w.req.addr.toNat / 64 * 64) (bs.take 64) }) (modChan ch (fun c => { c with accesses := c.accesses + 1 }) s))) := by
  simp only [acceptDram, hw]

/-! Data and its ECC (R414, R418) -/

/-- A queued request for the 64 bytes that hold an address. -/
def sameBurst (addr : DWord) (w : DramWait) : Bool := w.req.addr.toNat / 64 == addr.toNat / 64

theorem found_eq_two {e : EccResult} (h : 2 ≤ e.found.val) : e.found.val = 2 := Nat.le_antisymm (Nat.le_of_lt_succ e.found.isLt) h

section
variable {ch : DramCh} {addr : DWord} {e : EccResult}

theorem exec_dramReadEcc_none (hw : (dramChan s ch.val).queue.find? (sameBurst addr) = none) : exec (.dramReadEcc ch addr e) s = .next s := by
  unfold sameBurst at hw
  change execDramReadEcc ch addr e s = _
  simp only [execDramReadEcc, hw]

section
variable {w : DramWait} {k : Nat} (hw : (dramChan s ch.val).queue.find? (sameBurst addr) = some w) (hk : (dramChan s ch.val).queue.findIdx? (sameBurst addr) = some k)
include hw hk

theorem exec_dramReadEcc_closed (hst : (dramChan s ch.val).state ≠ 2) : exec (.dramReadEcc ch addr e) s = .next s := by
  unfold sameBurst at hw hk
  change execDramReadEcc ch addr e s = _
  simp only [execDramReadEcc, hw, hk, hst, ne_eq, not_false_iff, if_true]

variable (hst : (dramChan s ch.val).state = 2)
include hst

theorem exec_dramReadEcc_poisoned (hp : dramPoisoned s addr.toNat = true) :
    exec (.dramReadEcc ch addr e) s = .next (answerDram ch.val w true (modChan ch.val (fun c => { c with queue := c.queue.eraseIdx k }) s)) := by
  unfold sameBurst at hw hk
  change execDramReadEcc ch addr e s = _
  simp only [execDramReadEcc, hw, hk, hst, hp, ne_eq, not_true, if_false, if_true]

variable (hp : dramPoisoned s addr.toNat = false)
include hp

theorem exec_dramReadEcc_clean (h0 : e.found.val = 0) :
    exec (.dramReadEcc ch addr e) s = .next (answerDram ch.val w false (modChan ch.val (fun c => { c with queue := c.queue.eraseIdx k }) s)) := by
  unfold sameBurst at hw hk
  change execDramReadEcc ch addr e s = _
  simp only [execDramReadEcc, hw, hk, hst, hp, h0, ne_eq, not_true, Bool.false_eq_true, if_false]

theorem exec_dramReadEcc_corrected (h1 : e.found.val = 1) :
    exec (.dramReadEcc ch addr e) s = .next (answerDram ch.val w false (correctDram ch.val e.row addr.toNat (modChan ch.val (fun c => { c with queue := c.queue.eraseIdx k }) s))) := by
  unfold sameBurst at hw hk
  change execDramReadEcc ch addr e s = _
  simp only [execDramReadEcc, hw, hk, hst, hp, h1, ne_eq, not_true, Bool.false_eq_true, if_false]

theorem exec_dramReadEcc_lost (h2 : 2 ≤ e.found.val) (hr : w.retried = true) :
    exec (.dramReadEcc ch addr e) s = .next (answerDram ch.val w true (poisonDram ch.val e.row addr.toNat (modChan ch.val (fun c => { c with queue := c.queue.eraseIdx k }) s))) := by
  unfold sameBurst at hw hk
  change execDramReadEcc ch addr e s = _
  simp only [execDramReadEcc, hw, hk, hst, hp, hr, found_eq_two h2, ne_eq, not_true, Bool.false_eq_true, if_false, if_true]

theorem exec_dramReadEcc_retried (h2 : 2 ≤ e.found.val) (hr : w.retried = false) :
    exec (.dramReadEcc ch addr e) s = .next (countDram ch.val 4 (modChan ch.val (fun c => { c with queue := c.queue.set k { w with retried := true } }) s)) := by
  unfold sameBurst at hw hk
  change execDramReadEcc ch addr e s = _
  simp only [execDramReadEcc, hw, hk, hst, hp, hr, found_eq_two h2, ne_eq, not_true, Bool.false_eq_true, if_false]

end

/-! The patrol scrub (R416) -/

theorem exec_patrolScrub_idle (hno : (dramChan s ch.val).state ≠ 2 ∨ channelAt s addr.toNat ≠ some ch.val) : exec (.patrolScrub ch addr e) s = .next s := by
  change execPatrolScrub ch addr e s = _
  rw [execPatrolScrub, if_pos hno]

/-- A patrol read is counted as an access and as a read of its channel. -/
def patrolled (ch : DramCh) (s : State) : State := countDram ch.val 0 (modChan ch.val (fun c => { c with accesses := c.accesses + 1 }) s)

section
variable (hst : (dramChan s ch.val).state = 2) (hc : channelAt s addr.toNat = some ch.val)
include hst hc

theorem exec_patrolScrub_poisoned (hp : dramPoisoned s addr.toNat = true) : exec (.patrolScrub ch addr e) s = .next (patrolled ch s) := by
  change execPatrolScrub ch addr e s = _
  simp only [execPatrolScrub, hst, hc, hp, ne_eq, not_true, or_self, if_false, if_true, patrolled]

variable (hp : dramPoisoned s addr.toNat = false)
include hp

theorem exec_patrolScrub_clean (h0 : e.found.val = 0) : exec (.patrolScrub ch addr e) s = .next (patrolled ch s) := by
  change execPatrolScrub ch addr e s = _
  simp only [execPatrolScrub, hst, hc, hp, h0, ne_eq, not_true, or_self, Bool.false_eq_true, if_false, patrolled]

theorem exec_patrolScrub_corrected (h1 : e.found.val = 1) : exec (.patrolScrub ch addr e) s = .next (correctDram ch.val e.row addr.toNat (patrolled ch s)) := by
  change execPatrolScrub ch addr e s = _
  simp only [execPatrolScrub, hst, hc, hp, h1, ne_eq, not_true, or_self, Bool.false_eq_true, if_false, patrolled]

theorem exec_patrolScrub_lost (h2 : 2 ≤ e.found.val) :
    exec (.patrolScrub ch addr e) s = .next (poisonDram ch.val e.row addr.toNat (countDram ch.val 4 (patrolled ch s))) := by
  change execPatrolScrub ch addr e s = _
  simp only [execPatrolScrub, hst, hc, hp, found_eq_two h2, ne_eq, not_true, or_self, Bool.false_eq_true, if_false, patrolled]

end

end

/-! Alerts, replays and retraining (R415) -/

section
variable {ch : DramCh}

/-- The alerts of a channel within 10 µs of this one. -/
def recentAlerts (ch : DramCh) (s : State) : List Nat := ((dramChan s ch.val).alerts.filter fun t => nowNs s < t + 10000) ++ [nowNs s]

theorem exec_dramAlert_idle (crc : Bool) (h2 : (dramChan s ch.val).state ≠ 2) (h3 : (dramChan s ch.val).state ≠ 3) : exec (.dramAlert ch crc) s = .next s := by
  change execDramAlert ch crc s = _
  simp only [execDramAlert, h2, h3, ne_eq, not_false_iff, and_self, if_true]

section
variable (crc : Bool) (hst : (dramChan s ch.val).state = 2 ∨ (dramChan s ch.val).state = 3)
include hst

theorem exec_dramAlert_replays (hn : (recentAlerts ch s).length < 4) : exec (.dramAlert ch crc) s =
    .next (modChan ch.val (fun c => { c with state := 3, alerts := recentAlerts ch s }) (countDram ch.val (if crc then 6 else 5) s)) := by
  have hlive : ¬((dramChan s ch.val).state ≠ 2 ∧ (dramChan s ch.val).state ≠ 3) := fun h => hst.elim h.1 h.2
  unfold recentAlerts at hn ⊢
  change execDramAlert ch crc s = _
  simp only [execDramAlert, hlive, Nat.not_le.mpr hn, if_false]

theorem exec_dramAlert_retrains (hn : 4 ≤ (recentAlerts ch s).length) : exec (.dramAlert ch crc) s =
    .next (countDram ch.val 7 (modChan ch.val (fun c => { c with state := 4, alerts := [] }) (countDram ch.val (if crc then 6 else 5) s))) := by
  have hlive : ¬((dramChan s ch.val).state ≠ 2 ∧ (dramChan s ch.val).state ≠ 3) := fun h => hst.elim h.1 h.2
  unfold recentAlerts at hn
  change execDramAlert ch crc s = _
  simp only [execDramAlert, hlive, hn, if_false, if_true]

end

theorem exec_dramReplayDone_ready (h3 : (dramChan s ch.val).state = 3) : exec (.dramReplayDone ch) s = .next (channelReady ch.val s) := by
  change execDramReplayDone ch s = _
  rw [execDramReplayDone, if_pos h3]

theorem exec_dramReplayDone_idle (h3 : (dramChan s ch.val).state ≠ 3) : exec (.dramReplayDone ch) s = .next s := by
  change execDramReplayDone ch s = _
  rw [execDramReplayDone, if_neg h3]

theorem exec_dramRetrainDone_ended (ok : Bool) (h4 : (dramChan s ch.val).state = 4) :
    exec (.dramRetrainDone ch ok) s = .next (if ok then channelReady ch.val s else loseChannel ch.val s) := by
  change execDramRetrainDone ch ok s = _
  rw [execDramRetrainDone, if_neg (not_not_intro h4)]

theorem exec_dramRetrainDone_idle (ok : Bool) (h4 : (dramChan s ch.val).state ≠ 4) : exec (.dramRetrainDone ch ok) s = .next s := by
  change execDramRetrainDone ch ok s = _
  rw [execDramRetrainDone, if_pos h4]

/-! Refresh and temperature (R408, R409) -/

theorem dramRefresh_completes (s : State) : Completes (exec .dramRefresh s) fun t => t.dram.trefi = (if t.dram.hotMode then 1950 else 3900) ∧ changesOnly [.dram, .counters] s t := by
  have hinterval (t : State) : (modDram (fun d => { d with trefi := if d.hotMode then 1950 else 3900 }) t).dram.trefi =
      if (modDram (fun d => { d with trefi := if d.hotMode then 1950 else 3900 }) t).dram.hotMode then 1950 else 3900 := rfl
  exact ⟨_, rfl, hinterval _, execDramRefresh_only s (listed rfl) (listed rfl) (changesOnly_refl _ _) _ rfl⟩

@[simp] theorem dramChan_modChan (n : Nat) (f : DramChan → DramChan) (s : State) : dramChan (modChan n f s) n = f (dramChan s n) := by
  simp [dramChan, modChan, modDram, vmod]

theorem exec_rdimmTempRead_idle (temp : Option Int) (hs : chanServes (dramChan s ch.val) = false) : exec (.rdimmTempRead ch temp) s = .next s := by
  change execRdimmTempRead ch temp s = _
  simp only [execRdimmTempRead, hs, Bool.not_false, if_true]

/-- A DIMM is hot above 85 degrees, or when its sensor does not answer. -/
def hotAt : Option Int → Bool
  | none => true
  | some x => decide (85 < x)

theorem rdimmTempRead_completes (temp : Option Int) (hs : chanServes (dramChan s ch.val) = true) : Completes (exec (.rdimmTempRead ch temp) s) fun t =>
    (dramChan t ch.val).temp = temp.getD (dramChan s ch.val).temp ∧ (dramChan t ch.val).hot = hotAt temp ∧ changesOnly [.dram] s t := by
  have hchan (f : DramChan → DramChan) (b : Dram → Bool) : dramChan (modDram (fun d => { d with hotMode := b d }) (modChan ch.val f s)) ch.val = f (dramChan s ch.val) :=
    dramChan_modChan ch.val f s
  change Completes (execRdimmTempRead ch temp s) _
  obtain ⟨t, ht⟩ : ∃ t, execRdimmTempRead ch temp s = .next t := ⟨_, rfl⟩
  have hframe : changesOnly [.dram] s t := execRdimmTempRead_only ch temp s (listed rfl) (changesOnly_refl _ _) t ht
  refine ⟨t, ht, ?_, ?_, hframe⟩ <;> simp only [execRdimmTempRead, hs, Bool.not_true, Bool.false_eq_true, if_false, Host.Outcome.next.injEq] at ht <;> rw [← ht, hchan]
  cases temp <;> rfl

/-! Post-package repair (R419) -/

/-- A row's repair is recorded, and the row is repaired or not. -/
def pprRecorded (ch : DramCh) (ok : Bool) (row : Nat) (rest : List Nat) (s : State) : State :=
  repair { kind := 0x0B, state := if ok then 1 else 3, found := foundNow s, bootCount := s.nv.bootCount, unit := ch.val, location := row, serial := (dramChan s ch.val).serial }
    (countDram ch.val 10 (modChan ch.val (fun c => { c with candidates := rest, rows := Tbl.modify c.rows row fun x => { x with state := if ok then 2 else 3 } }) s))

theorem exec_pprRepair_idle (ok : Bool) (hno : (dramChan s ch.val).candidates = [] ∨ chanServes (dramChan s ch.val) = false) : exec (.pprRepair ch ok) s = .next s := by
  change execPprRepair ch ok s = _
  cases hc : (dramChan s ch.val).candidates with
  | nil => simp only [execPprRepair, hc]
  | cons row rest =>
    have hs := hno.resolve_left (by rw [hc]; exact List.cons_ne_nil _ _)
    simp only [execPprRepair, hc, hs, Bool.not_false, if_true]

section
variable (ok : Bool) {row : Nat} {rest : List Nat} (hc : (dramChan s ch.val).candidates = row :: rest) (hs : chanServes (dramChan s ch.val) = true)
include hc hs

theorem exec_pprRepair_recorded (hn : Tbl.countIf (dramChan (pprRecorded ch ok row rest s) ch.val).rows (fun _ x => x.state == 3) ≤ 64) :
    exec (.pprRepair ch ok) s = .next (pprRecorded ch ok row rest s) := by
  unfold pprRecorded at hn ⊢
  change execPprRepair ch ok s = _
  simp only [execPprRepair, hc, hs, Nat.not_lt.mpr hn, Bool.not_true, Bool.false_eq_true, if_false]

theorem exec_pprRepair_lost (hn : 64 < Tbl.countIf (dramChan (pprRecorded ch ok row rest s) ch.val).rows (fun _ x => x.state == 3)) :
    exec (.pprRepair ch ok) s = .next (loseChannel ch.val (pprRecorded ch ok row rest s)) := by
  unfold pprRecorded at hn ⊢
  change execPprRepair ch ok s = _
  simp only [execPprRepair, hc, hs, hn, Bool.not_true, Bool.false_eq_true, if_false, if_true]

end

end

end

/-- Settles O50. -/
theorem dramEventsComplete : Obligations.DramEventsComplete := by
  unfold Obligations.DramEventsComplete
  intro s
  refine ⟨fun r => exec_dramRequest_outside, fun r ch => exec_dramRequest_gone, fun r ch hc hg => ⟨exec_dramRequest_full hc hg, fun hq => ⟨fun hw => ?read, fun bs hw => ?write⟩⟩,
    fun ch addr e w k hw hk => ?ecc, fun ch addr e => exec_dramReadEcc_none, fun ch addr e => ⟨exec_patrolScrub_idle, fun hst hc => ?scrub⟩,
    fun ch crc => ⟨exec_dramAlert_idle crc, exec_dramAlert_replays crc, exec_dramAlert_retrains crc⟩, fun ch => ⟨exec_dramReplayDone_ready, exec_dramReplayDone_idle⟩,
    fun ch => ⟨fun h4 => ⟨exec_dramRetrainDone_ended true h4, exec_dramRetrainDone_ended false h4⟩, exec_dramRetrainDone_idle⟩, dramRefresh_completes s, fun ch temp => ?temperature,
    fun ch ok => ⟨exec_pprRepair_idle ok, fun row rest hc hs => ⟨exec_pprRepair_recorded ok hc hs, exec_pprRepair_lost ok hc hs⟩⟩⟩
  case read => exact (exec_dramRequest_accepted hc hg hq).trans (congrArg Host.Outcome.next (acceptDram_read hw))
  case write => exact (exec_dramRequest_accepted hc hg hq).trans (congrArg Host.Outcome.next (acceptDram_write hw))
  case ecc =>
    exact ⟨exec_dramReadEcc_closed hw hk, fun hst => ⟨exec_dramReadEcc_poisoned hw hk hst, exec_dramReadEcc_clean hw hk hst, exec_dramReadEcc_corrected hw hk hst,
      exec_dramReadEcc_lost hw hk hst, exec_dramReadEcc_retried hw hk hst⟩⟩
  case scrub =>
    exact ⟨fun hno => hno.elim (exec_patrolScrub_poisoned hst hc) fun h0 => (Bool.eq_false_or_eq_true _).elim (exec_patrolScrub_poisoned hst hc) fun hp => exec_patrolScrub_clean hst hc hp h0,
      exec_patrolScrub_corrected hst hc, exec_patrolScrub_lost hst hc⟩
  case temperature =>
    refine ⟨exec_rdimmTempRead_idle temp, fun hs => ?_⟩
    have hread := rdimmTempRead_completes temp hs
    cases temp <;> exact hread

end Sys2Proof.Machine
end

section
/-! PROOF. PARK and the electrical events (R28, R448 to R456, R483, R484, R493, R494), for O51. -/

namespace Sys2Proof.Machine
open Sys2Proof

section
variable {s : State}

/-! PARK (R28, R448 to R456) -/

theorem exec_parkEntry_due {d : ParkDue} (hm : s.glb.mode = .maintenance) (hd : s.glb.parkDue = some d) (hf : fuseRuns s = false) :
    exec .parkEntry s = .next (parkActions d.force (startPark d s)) := by
  change execParkEntry s = _
  simp only [execParkEntry, hm, hd, hf, Bool.false_eq_true, if_false]

theorem exec_parkEntry_notDue (hm : s.glb.mode = .maintenance) (hno : s.glb.parkDue = none ∨ fuseRuns s = true) : exec .parkEntry s = .next s := by
  change execParkEntry s = _
  cases hd : s.glb.parkDue with
  | none => simp only [execParkEntry, hm, hd]
  | some d =>
    have hf := hno.resolve_left (by rw [hd]; exact Option.some_ne_none d)
    simp only [execParkEntry, hm, hd, hf, if_true]

section
variable (hm : s.glb.mode = .park)
include hm

theorem exec_parkEntry_parked (h1 : s.bist.phase = 1) (he : s.bist.entered = false) : exec .parkEntry s = .next (parkActions s.bist.force s) := by
  change execParkEntry s = _
  cases hd : s.glb.parkDue <;> simp only [execParkEntry, hm, hd, h1, he, Bool.not_false, and_self, if_true]

theorem exec_parkEntry_entered (hno : s.bist.phase ≠ 1 ∨ s.bist.entered = true) : exec .parkEntry s = .next s := by
  have hnot : ¬(s.bist.phase = 1 ∧ (!s.bist.entered) = true) := fun ⟨h1, he⟩ => hno.elim (· h1) fun h => absurd (h ▸ he) (by decide)
  change execParkEntry s = _
  cases hd : s.glb.parkDue <;> simp only [execParkEntry, hm, hd, hnot, if_false]

end

theorem exec_parkEntry_elsewhere (hm : s.glb.mode ≠ .maintenance) (hp : s.glb.mode ≠ .park) : exec .parkEntry s = .next s := by
  change execParkEntry s = _
  cases hmode : s.glb.mode <;> simp_all only [execParkEntry, ne_eq, not_true, reduceCtorEq, not_false_iff]

/-- PARK goes on to its next phase. -/
def nextPhase (s : State) : State := modBist (fun b => { b with phase := b.phase + 1 }) s

theorem exec_parkPhaseEnd_idle (f : ParkFindings) (hno : s.glb.mode ≠ .park ∨ s.bist.entered = false) : exec (.parkPhaseEnd f) s = .next s := by
  have hskip : s.glb.mode ≠ .park ∨ (!s.bist.entered) = true := hno.imp_right fun h => by rw [h]; rfl
  change execParkPhaseEnd f s = _
  simp only [execParkPhaseEnd, hskip, if_true]

section
variable (f : ParkFindings) (hm : s.glb.mode = .park) (he : s.bist.entered = true)
include hm he

theorem exec_parkPhaseEnd_settling (hp : s.bist.phase = 1 ∨ s.bist.phase = 2) : exec (.parkPhaseEnd f) s = .next (nextPhase s) := by
  change execParkPhaseEnd f s = _
  rcases hp with hp | hp <;> simp only [execParkPhaseEnd, hm, he, hp, ne_eq, not_true, Bool.not_true, Bool.false_eq_true, or_self, if_false, nextPhase]

theorem exec_parkPhaseEnd_tests (hp : s.bist.phase ∈ [3, 4, 5, 6]) : exec (.parkPhaseEnd f) s = .next (nextPhase (phaseFinds f (marchEffects s))) := by
  change execParkPhaseEnd f s = _
  simp only [List.mem_cons, List.not_mem_nil, or_false] at hp
  rcases hp with hp | hp | hp | hp <;> simp only [execParkPhaseEnd, hm, he, hp, ne_eq, not_true, Bool.not_true, Bool.false_eq_true, or_self, if_false, nextPhase]

theorem exec_parkPhaseEnd_records (hp : s.bist.phase = 7) : exec (.parkPhaseEnd f) s = .next (nextPhase (recordPark s)) := by
  change execParkPhaseEnd f s = _
  simp only [execParkPhaseEnd, hm, he, hp, ne_eq, not_true, Bool.not_true, Bool.false_eq_true, or_self, if_false, nextPhase]

theorem exec_parkPhaseEnd_powersOff (hp : s.bist.phase = 8) (ho : s.bist.powerOff = true) : exec (.parkPhaseEnd f) s = .next (nextPhase (groupOff s)) := by
  change execParkPhaseEnd f s = _
  simp only [execParkPhaseEnd, hm, he, hp, ho, ne_eq, not_true, Bool.not_true, Bool.false_eq_true, or_self, if_false, if_true, nextPhase]

theorem exec_parkPhaseEnd_resets (hp : s.bist.phase = 8) (ho : s.bist.powerOff = false) : exec (.parkPhaseEnd f) s = .next (deviceReset .parkDoneWarm s) := by
  change execParkPhaseEnd f s = _
  simp only [execParkPhaseEnd, hm, he, hp, ho, ne_eq, not_true, Bool.not_true, Bool.false_eq_true, or_self, if_false]

theorem exec_parkPhaseEnd_off (hp : s.bist.phase = 9) : exec (.parkPhaseEnd f) s = .next s := by
  change execParkPhaseEnd f s = _
  simp only [execParkPhaseEnd, hm, he, hp, ne_eq, not_true, Bool.not_true, Bool.false_eq_true, or_self, if_false]

end

/-! The thermal sensors (R483, R484) -/

/-- A round of readings: the sensors that stray are counted, and those that strayed for 100 rounds are excluded. -/
def sensorsRead (temps : Vector Int 16) (s : State) : State :=
  let u := modElec (fun e => { e with readings := temps }) s
  let v := modElec (fun e => { e with far := Vector.ofFn fun n : Fin 16 => if excluded u n.val || !strays u n.val then 0 else u.elec.far[n] + 1 }) u
  (List.finRange 16).foldl (fun x n => if 100 ≤ x.elec.far[n] ∧ x.glb.fwRuns then excludeSensor 6 (foundNow x) n.val x else x) v

section
variable {temps : Vector Int 16}

theorem exec_thermalSensorSample_off (hp : s.glb.powered = false) : exec (.thermalSensorSample temps) s = .next s := by
  change execThermalSensorSample temps s = _
  simp only [execThermalSensorSample, hp, Bool.not_false, if_true]

theorem exec_thermalSensorSample_none (hp : s.glb.powered = true) (hh : hottest (sensorsRead temps s) = none) :
    exec (.thermalSensorSample temps) s = .next (sensorsRead temps s) := by
  unfold sensorsRead at hh ⊢
  change execThermalSensorSample temps s = _
  simp only [execThermalSensorSample, hp, hh, Bool.not_true, Bool.false_eq_true, if_false]

theorem exec_thermalSensorSample_hottest {n : Nat} (hp : s.glb.powered = true) (hh : hottest (sensorsRead temps s) = some n) : exec (.thermalSensorSample temps) s =
    .next (thermalAers s.elec.tj (checkLimits s.elec.tj n (checkTrip n (checkWarn n (modElec (fun e => { e with tj := reading (sensorsRead temps s) n }) (sensorsRead temps s)))))) := by
  unfold sensorsRead at hh ⊢
  change execThermalSensorSample temps s = _
  simp only [execThermalSensorSample, hp, hh, Bool.not_true, Bool.false_eq_true, if_false]

end

/-! Adaptive voltage (R493, R494) -/

theorem notParkedOff (h : s.glb.mode ≠ .park ∨ s.bist.phase ≠ 9) : (s.glb.mode == .park && s.bist.phase == 9) = false := by
  rcases h with h | h
  · rw [beq_eq_false_iff_ne.mpr h, Bool.false_and]
  · rw [beq_eq_false_iff_ne.mpr h, Bool.and_false]

theorem parkedOff (h : s.glb.mode = .park ∧ s.bist.phase = 9) : (s.glb.mode == .park && s.bist.phase == 9) = true := by
  rw [h.1, h.2]
  rfl

theorem exec_avsDecision_idle (slow fast : Bool) (hno : s.glb.powered = false ∨ s.elec.stuck = true ∨ (s.glb.mode = .park ∧ s.bist.phase = 9)) :
    exec (.avsDecision slow fast) s = .next s := by
  have hskip : (!s.glb.powered || s.elec.stuck || (s.glb.mode == .park && s.bist.phase == 9)) = true := by
    rcases hno with h | h | h
    · rw [h, Bool.not_false, Bool.true_or, Bool.true_or]
    · rw [h, Bool.or_true, Bool.true_or]
    · rw [parkedOff h, Bool.or_true]
  change execAvsDecision slow fast s = _
  simp only [execAvsDecision, hskip, if_true]

/-- The count of rounds in which the fast monitors alone spoke starts again. -/
def fastCleared (s : State) : State := modElec (fun e => { e with fastRun := 0 }) s

section
variable (hp : s.glb.powered = true) (hs : s.elec.stuck = false) (hon : s.glb.mode ≠ .park ∨ s.bist.phase ≠ 9)
include hp hs hon

theorem exec_avsDecision_held (slow fast : Bool) (hh : avsHeld s = true) : exec (.avsDecision slow fast) s = .next (setVout 700 (fastCleared s)) := by
  change execAvsDecision slow fast s = _
  simp only [execAvsDecision, hp, hs, notParkedOff hon, hh, Bool.not_true, Bool.or_self, Bool.false_eq_true, if_false, if_true, fastCleared]

variable (hh : avsHeld s = false)
include hh

theorem exec_avsDecision_up (fast : Bool) (hv : s.elec.vout < 700) :
    exec (.avsDecision true fast) s = .next (countGlb 0 (setVout (min 700 (s.elec.vout + 5)) (fastCleared s))) := by
  change execAvsDecision true fast s = _
  simp only [execAvsDecision, hp, hs, notParkedOff hon, hh, hv, Bool.not_true, Bool.or_self, Bool.false_eq_true, if_false, if_true, fastCleared]

theorem exec_avsDecision_highest (fast : Bool) (hv : 700 ≤ s.elec.vout) : exec (.avsDecision true fast) s = .next (fastCleared s) := by
  change execAvsDecision true fast s = _
  simp only [execAvsDecision, hp, hs, notParkedOff hon, hh, Nat.not_lt.mpr hv, Bool.not_true, Bool.or_self, Bool.false_eq_true, if_false, if_true, fastCleared]

theorem exec_avsDecision_steady : exec (.avsDecision false false) s = .next (fastCleared s) := by
  change execAvsDecision false false s = _
  simp only [execAvsDecision, hp, hs, notParkedOff hon, hh, Bool.not_true, Bool.not_false, Bool.or_self, Bool.false_eq_true, if_false, if_true, fastCleared]

theorem exec_avsDecision_counts (hr : s.elec.fastRun + 1 < 100) : exec (.avsDecision false true) s = .next (modElec (fun e => { e with fastRun := e.fastRun + 1 }) s) := by
  change execAvsDecision false true s = _
  simp only [execAvsDecision, hp, hs, notParkedOff hon, hh, hr, Bool.not_true, Bool.or_self, Bool.false_eq_true, if_false, if_true]

theorem exec_avsDecision_down (hr : 100 ≤ s.elec.fastRun + 1) (hv : 620 < s.elec.vout) :
    exec (.avsDecision false true) s = .next (countGlb 1 (setVout (max 620 (s.elec.vout - 5)) (fastCleared s))) := by
  change execAvsDecision false true s = _
  simp only [execAvsDecision, hp, hs, notParkedOff hon, hh, Nat.not_lt.mpr hr, hv, Bool.not_true, Bool.or_self, Bool.false_eq_true, if_false, if_true, fastCleared]

theorem exec_avsDecision_lowest (hr : 100 ≤ s.elec.fastRun + 1) (hv : s.elec.vout ≤ 620) : exec (.avsDecision false true) s = .next (fastCleared s) := by
  change execAvsDecision false true s = _
  simp only [execAvsDecision, hp, hs, notParkedOff hon, hh, Nat.not_lt.mpr hr, Nat.not_lt.mpr hv, Bool.not_true, Bool.or_self, Bool.false_eq_true, if_false, fastCleared]

end

theorem exec_avsEmergency_raised (hp : s.glb.powered = true) (hh : avsHeld s = false) :
    exec .avsEmergency s = .next (countGlb 2 (setVout (min 700 (s.elec.vout + 20)) (modElec (fun e => { e with fastRun := 0 }) s))) := by
  change execAvsEmergency s = _
  simp only [execAvsEmergency, hp, hh, Bool.not_true, Bool.or_self, Bool.false_eq_true, if_false]

theorem exec_avsEmergency_idle (hno : s.glb.powered = false ∨ avsHeld s = true) : exec .avsEmergency s = .next s := by
  have hskip : (!s.glb.powered || avsHeld s) = true := by simpa using hno
  change execAvsEmergency s = _
  rw [execAvsEmergency, if_pos hskip]

/-! The regulators (R494) -/

section
variable {reg : Fin 7} {r : PollResult}

theorem exec_regulatorPoll_idle (hno : s.glb.fwRuns = false ∨ s.elec.present[reg] = false ∨ (s.glb.mode = .park ∧ s.bist.phase = 9)) : exec (.regulatorPoll reg r) s = .next s := by
  have hskip : (!s.glb.fwRuns || !s.elec.present[reg] || (s.glb.mode == .park && s.bist.phase == 9)) = true := by
    rcases hno with h | h | h
    · rw [h, Bool.not_false, Bool.true_or, Bool.true_or]
    · rw [h, Bool.not_false, Bool.or_true, Bool.true_or]
    · rw [parkedOff h, Bool.or_true]
  change execRegulatorPoll reg r s = _
  rw [execRegulatorPoll, if_pos hskip]

section
variable (hfw : s.glb.fwRuns = true) (hp : s.elec.present[reg] = true) (hon : s.glb.mode ≠ .park ∨ s.bist.phase ≠ 9)
include hfw hp hon

theorem execRegulatorPoll_live : execRegulatorPoll reg r s = .next (
    if !r.answered then
      if reg.val = 0 ∧ !s.elec.stuck then raiseThermal 6 0 s.elec.vout (countGlb 3 (modElec (fun e => { e with stuck := true }) s)) else s
    else if r.fault then emit (.pmbus (0x40 + reg.val) 0x03 0) (countGlb 4 s)
    else s) := by
  have hlive : (!s.glb.fwRuns || !s.elec.present[reg] || (s.glb.mode == .park && s.bist.phase == 9)) = false := by rw [hfw, hp, notParkedOff hon]; rfl
  rw [execRegulatorPoll, hlive, if_neg (by decide)]

theorem exec_regulatorPoll_lost (ha : r.answered = false) (h0 : reg.val = 0) (hs : s.elec.stuck = false) :
    exec (.regulatorPoll reg r) s = .next (raiseThermal 6 0 s.elec.vout (countGlb 3 (modElec (fun e => { e with stuck := true }) s))) := by
  change execRegulatorPoll reg r s = _
  rw [execRegulatorPoll_live hfw hp hon, ha, hs, if_pos (by decide), if_pos ⟨h0, rfl⟩]

theorem exec_regulatorPoll_silent (ha : r.answered = false) (hno : reg.val ≠ 0 ∨ s.elec.stuck = true) : exec (.regulatorPoll reg r) s = .next s := by
  have hnot : ¬(reg.val = 0 ∧ (!s.elec.stuck) = true) := fun ⟨h0, hs⟩ => hno.elim (· h0) fun h => absurd (h ▸ hs) (by decide)
  change execRegulatorPoll reg r s = _
  rw [execRegulatorPoll_live hfw hp hon, ha, if_pos (by decide), if_neg hnot]

theorem exec_regulatorPoll_fault (ha : r.answered = true) (hf : r.fault = true) : exec (.regulatorPoll reg r) s = .next (emit (.pmbus (0x40 + reg.val) 0x03 0) (countGlb 4 s)) := by
  change execRegulatorPoll reg r s = _
  rw [execRegulatorPoll_live hfw hp hon, ha, hf, if_neg (by decide), if_pos rfl]

theorem exec_regulatorPoll_well (ha : r.answered = true) (hf : r.fault = false) : exec (.regulatorPoll reg r) s = .next s := by
  change execRegulatorPoll reg r s = _
  rw [execRegulatorPoll_live hfw hp hon, ha, hf, if_neg (by decide), if_neg (by decide)]

end

end

end

/-- Settles O51. -/
theorem parkAndElectricalEventsComplete : Obligations.ParkAndElectricalEventsComplete := by
  unfold Obligations.ParkAndElectricalEventsComplete
  intro s
  refine ⟨fun d => exec_parkEntry_due, exec_parkEntry_notDue, exec_parkEntry_parked, exec_parkEntry_entered, exec_parkEntry_elsewhere, exec_parkPhaseEnd_idle, fun f hm he => ?phases,
    fun temps => exec_thermalSensorSample_off, fun temps hp => ?thermal, exec_avsDecision_idle,
    fun hp hs hon => ?voltage, exec_avsEmergency_raised, exec_avsEmergency_idle, fun reg r => exec_regulatorPoll_idle, fun reg r hfw hp hon => ?regulator⟩
  case phases =>
    exact ⟨exec_parkPhaseEnd_settling f hm he, exec_parkPhaseEnd_tests f hm he, exec_parkPhaseEnd_records f hm he, exec_parkPhaseEnd_powersOff f hm he,
      exec_parkPhaseEnd_resets f hm he, exec_parkPhaseEnd_off f hm he⟩
  case thermal =>
    have hnone := exec_thermalSensorSample_none (temps := temps) hp
    have hhottest (n : Nat) := exec_thermalSensorSample_hottest (temps := temps) (n := n) hp
    simp only [sensorsRead] at hnone hhottest
    exact ⟨hnone, hhottest⟩
  case voltage =>
    exact ⟨exec_avsDecision_held hp hs hon, fun hh => ⟨exec_avsDecision_up hp hs hon hh, exec_avsDecision_highest hp hs hon hh, exec_avsDecision_steady hp hs hon hh,
      exec_avsDecision_counts hp hs hon hh, exec_avsDecision_down hp hs hon hh, exec_avsDecision_lowest hp hs hon hh⟩⟩
  case regulator =>
    exact ⟨exec_regulatorPoll_lost hfw hp hon, exec_regulatorPoll_silent hfw hp hon, exec_regulatorPoll_fault hfw hp hon, exec_regulatorPoll_well hfw hp hon⟩

end Sys2Proof.Machine
end

section
/-! PROOF. Who may use the monitor (R469, R470, R473), for O52. -/

namespace Sys2Proof.Machine
open Sys2Proof

/-! What becomes of a line (R470, R473) -/

section
variable {place : KlbPlace} {allowed : Bool} {act : State → KlbReply} {s : State}

theorem runKlb_nobody (hk : klbServer s = .nobody) : runKlb place allowed act s = s := by
  rw [runKlb, if_pos hk]

theorem runKlb_unserved (hk : klbServer s ≠ .nobody) (hs : serves (klbServer s) place = false) : runKlb place allowed act s = klbAnswer [] .modeWrong s := by
  rw [runKlb, if_neg hk, hs, if_pos (by decide)]

theorem runKlb_refused (hk : klbServer s ≠ .nobody) (hs : serves (klbServer s) place = true) : runKlb place false act s = klbAnswer [] .notPermitted (countDbg 2 s) := by
  rw [runKlb, if_neg hk, hs, if_neg (by decide), if_pos (by decide)]

theorem runKlb_done (hk : klbServer s ≠ .nobody) (hs : serves (klbServer s) place = true) : runKlb place true act s = klbAnswer (act s).lines (act s).status (act s).state := by
  rw [runKlb, if_neg hk, hs, if_neg (by decide), if_neg (by decide)]

end

/-! Commands that the server and the grant decide on -/

/-- A command is a line for the monitor wherever management firmware does not serve it, or the session may not use it. -/
def Monitored (place : KlbPlace) (allowed : Bool) (s : State) (c : Instr) : Prop :=
  klbServer s ≠ .firmware ∨ allowed = false → ∃ act, exec c s = .next (runKlb place allowed act s)

section
variable {place : KlbPlace} {allowed : Bool} {s : State} {c : Instr}

theorem Monitored.of_line {act : State → KlbReply} (h : exec c s = .next (runKlb place allowed act s)) : Monitored place allowed s c := fun _ => ⟨act, h⟩

variable (hc : Monitored place allowed s c)
include hc

theorem Monitored.nobody (hk : klbServer s = .nobody) : exec c s = .next s := by
  obtain ⟨act, hact⟩ := hc (Or.inl (by rw [hk]; decide))
  rw [hact, runKlb_nobody hk]

theorem Monitored.modeWrong (hk : klbServer s ≠ .nobody) (hs : serves (klbServer s) place = false) : exec c s = .next (klbAnswer [] .modeWrong s) := by
  obtain ⟨act, hact⟩ := hc (Or.inl fun hfw => absurd hs (by rw [hfw]; cases place <;> decide))
  rw [hact, runKlb_unserved hk hs]

theorem Monitored.notPermitted (hk : klbServer s = .firmware) (ha : allowed = false) : exec c s = .next (klbAnswer [] .notPermitted (countDbg 2 s)) := by
  obtain ⟨act, hact⟩ := hc (Or.inr ha)
  have hserves : serves (klbServer s) place = true := by rw [hk]; cases place <;> rfl
  rw [hact, ha, runKlb_refused (by rw [hk]; decide) hserves]

end

/-! The commands, by the grant they need -/

section
variable {s : State}

/-- The guard of an undefined case needs the firmware and the grant. -/
theorem guard_closed {b : Bool} {p : Prop} (h : klbServer s ≠ .firmware ∨ b = false) : ¬(klbServer s = .firmware ∧ b = true ∧ p) :=
  fun ⟨hfw, hb, _⟩ => h.elim (· hfw) fun hfalse => absurd (hfalse ▸ hb) (by decide)

theorem monitored_observe (cl : Cluster) (co : CoreIx) (t : ThreadIx) (h : Word) (d : DWord) (n off : Nat) :
    ∀ c ∈ [Instr.mrd cl co d n, .klbHod h off n, .threads cl co, .regs cl co t], Monitored .firmwareOnly (granted s .observe) s c := by
  have hMrd : Monitored .firmwareOnly (granted s .observe) s (.mrd cl co d n) := fun hno => ⟨_, if_neg (guard_closed hno)⟩
  have hHod : Monitored .firmwareOnly (granted s .observe) s (.klbHod h off n) := fun hno => ⟨_, if_neg (guard_closed hno)⟩
  have hThreads : Monitored .firmwareOnly (granted s .observe) s (.threads cl co) := .of_line rfl
  have hRegs : Monitored .firmwareOnly (granted s .observe) s (.regs cl co t) := .of_line rfl
  simp only [List.forall_mem_cons, List.not_mem_nil, false_imp_iff, implies_true, and_true]
  exact ⟨hMrd, hHod, hThreads, hRegs⟩

theorem monitored_control (cl : Cluster) (co : CoreIx) (t : ThreadIx) (oc : Option CoreIx) (ot : Option ThreadIx) (d w : DWord) (n : Nat) (data : List Byte) (r : Option RegNo) :
    ∀ c ∈ [Instr.mwr cl co d data, .setreg cl co t r w, .klbHalt cl oc ot, .klbResume cl oc ot, .step cl co t n, .kill cl co t, .bpSet cl co d, .bpClr cl co d, .bpOn, .bpOff],
      Monitored .firmwareOnly (granted s .control) s c := by
  have hMwr : Monitored .firmwareOnly (granted s .control) s (.mwr cl co d data) := fun hno => ⟨_, if_neg (guard_closed hno)⟩
  have hSet : Monitored .firmwareOnly (granted s .control) s (.setreg cl co t r w) := .of_line rfl
  have hHalt : Monitored .firmwareOnly (granted s .control) s (.klbHalt cl oc ot) := .of_line rfl
  have hResume : Monitored .firmwareOnly (granted s .control) s (.klbResume cl oc ot) := .of_line rfl
  have hStep : Monitored .firmwareOnly (granted s .control) s (.step cl co t n) := fun hno => ⟨_, if_neg (guard_closed hno)⟩
  have hKill : Monitored .firmwareOnly (granted s .control) s (.kill cl co t) := .of_line rfl
  have hBpSet : Monitored .firmwareOnly (granted s .control) s (.bpSet cl co d) := .of_line rfl
  have hBpClr : Monitored .firmwareOnly (granted s .control) s (.bpClr cl co d) := .of_line rfl
  have hBpOn : Monitored .firmwareOnly (granted s .control) s .bpOn := .of_line rfl
  have hBpOff : Monitored .firmwareOnly (granted s .control) s .bpOff := .of_line rfl
  simp only [List.forall_mem_cons, List.not_mem_nil, false_imp_iff, implies_true, and_true]
  exact ⟨hMwr, hSet, hHalt, hResume, hStep, hKill, hBpSet, hBpClr, hBpOn, hBpOff⟩

theorem monitored_auth (off : Nat) (data : List Byte) : ∀ c ∈ [Instr.authNonce, .authLoad off data, .authCheck, .authEnd], Monitored .firmwareOnly true s c := by
  have hNonce : Monitored .firmwareOnly true s .authNonce := .of_line rfl
  have hLoad : Monitored .firmwareOnly true s (.authLoad off data) := .of_line rfl
  have hCheck : Monitored .firmwareOnly true s .authCheck := .of_line rfl
  have hEnd : Monitored .firmwareOnly true s .authEnd := .of_line rfl
  simp only [List.forall_mem_cons, List.not_mem_nil, false_imp_iff, implies_true, and_true]
  exact ⟨hNonce, hLoad, hCheck, hEnd⟩

theorem monitored_romToo (n off : Nat) (data : List Byte) (slot : Fin 2) :
    ∀ c ∈ [Instr.help, .ver, .baud n, .imgOffset off, .imgData data, .imgCommit, .imgInstall slot, .imgAbort], Monitored .romToo true s c := by
  have hHelp : Monitored .romToo true s .help := .of_line rfl
  have hVer : Monitored .romToo true s .ver := .of_line rfl
  have hBaud : Monitored .romToo true s (.baud n) := .of_line rfl
  have hOffset : Monitored .romToo true s (.imgOffset off) := .of_line rfl
  have hData : Monitored .romToo true s (.imgData data) := .of_line rfl
  have hCommit : Monitored .romToo true s .imgCommit := .of_line rfl
  have hInstall : Monitored .romToo true s (.imgInstall slot) := .of_line rfl
  have hAbort : Monitored .romToo true s .imgAbort := .of_line rfl
  simp only [List.forall_mem_cons, List.not_mem_nil, false_imp_iff, implies_true, and_true]
  exact ⟨hHelp, hVer, hBaud, hOffset, hData, hCommit, hInstall, hAbort⟩

theorem monitored_status (s : State) : Monitored .always true s .status := .of_line rfl

theorem monitored_keys (s : State) : Monitored .firmwareOnly (granted s .secure) s .keys := .of_line rfl

theorem monitored_klbRd (a : Word) (n : Nat) : Monitored .firmwareOnly (klbMayRead s a.toNat && (readAddrs a.toNat n).all (klbMayRead s)) s (.klbRd a n) :=
  fun hno => ⟨_, if_neg (guard_closed hno)⟩

theorem monitored_klbWr (a v : Word) : Monitored .firmwareOnly (klbMayWrite s a.toNat) s (.klbWr a v) := fun hno =>
  ⟨_, if_neg fun ⟨hfw, ha⟩ => guard_closed (p := True) hno ⟨hfw, ha, trivial⟩⟩

theorem exec_klbLineTooLong_nobody (hk : klbServer s = .nobody) : exec .klbLineTooLong s = .next s := by
  change execKlbLineTooLong s = _
  rw [execKlbLineTooLong, if_pos hk]

end

/-- Settles O52. -/
theorem monitorRefusesByServerAndGrant : Obligations.MonitorRefusesByServerAndGrant := by
  unfold Obligations.MonitorRefusesByServerAndGrant
  intro s cl co t oc ot a v h d w n off data slot r observe control open_ romToo
  have hobserve : ∀ c ∈ observe, Monitored .firmwareOnly (granted s .observe) s c := monitored_observe cl co t h d n off
  have hcontrol : ∀ c ∈ control, Monitored .firmwareOnly (granted s .control) s c := monitored_control cl co t oc ot d w n data r
  have hopen : ∀ c ∈ open_, Monitored .firmwareOnly true s c := monitored_auth off data
  have hromToo : ∀ c ∈ romToo, Monitored .romToo true s c := monitored_romToo n off data slot
  refine ⟨fun hk => ?nobody, fun hk => ?firmwareOnly, fun hk c hc => ?parked, fun hk hg c hc => (hobserve c hc).notPermitted hk hg, fun hk hg c hc => (hcontrol c hc).notPermitted hk hg,
    (monitored_keys s).notPermitted, fun hk ha => (monitored_klbRd a n).notPermitted hk (by rw [ha, Bool.false_and]), (monitored_klbWr a v).notPermitted⟩
  case nobody =>
    simp only [List.forall_mem_append, List.forall_mem_cons, List.not_mem_nil, false_imp_iff, implies_true, and_true]
    exact ⟨⟨⟨⟨⟨exec_klbLineTooLong_nobody hk, (monitored_status s).nobody hk, (monitored_klbRd a n).nobody hk, (monitored_klbWr a v).nobody hk, (monitored_keys s).nobody hk⟩,
      fun c hc => (hobserve c hc).nobody hk⟩, fun c hc => (hcontrol c hc).nobody hk⟩, fun c hc => (hopen c hc).nobody hk⟩, fun c hc => (hromToo c hc).nobody hk⟩
  case firmwareOnly =>
    have hsome : klbServer s ≠ .nobody := by rcases hk with hk | hk <;> rw [hk] <;> decide
    have hserves : serves (klbServer s) .firmwareOnly = false := by rcases hk with hk | hk <;> rw [hk] <;> rfl
    simp only [List.forall_mem_append, List.forall_mem_cons, List.not_mem_nil, false_imp_iff, implies_true, and_true]
    exact ⟨⟨⟨⟨(monitored_klbRd a n).modeWrong hsome hserves, (monitored_klbWr a v).modeWrong hsome hserves, (monitored_keys s).modeWrong hsome hserves⟩,
      fun c hc => (hobserve c hc).modeWrong hsome hserves⟩, fun c hc => (hcontrol c hc).modeWrong hsome hserves⟩, fun c hc => (hopen c hc).modeWrong hsome hserves⟩
  case parked => exact (hromToo c hc).modeWrong (by rw [hk]; decide) (by rw [hk]; rfl)

end Sys2Proof.Machine
end

section
/-! PROOF. The monitor's own commands, debug authorisation and images (R468 to R474, R478), for O53. -/

namespace Sys2Proof.Machine
open Sys2Proof

section
variable {s : State}

/-- A line that is served and allowed is answered with what its command replies. -/
theorem exec_of_line {place : KlbPlace} {act : State → KlbReply} {c : Instr} (hc : exec c s = .next (runKlb place true act s)) (hk : klbServer s ≠ .nobody)
    (hs : serves (klbServer s) place = true) {t : State} {lines : List (String × List Nat)} {st : Status} (ha : act s = { state := t, lines := lines, status := st }) :
    exec c s = .next (klbAnswer lines st t) := by
  rw [hc, runKlb_done hk hs, ha]

/-! Lines that every server takes (R469) -/

theorem exec_klbLineTooLong_served (hk : klbServer s ≠ .nobody) : exec .klbLineTooLong s = .next (klbAnswer [] .badLength (countDbg 3 s)) := by
  change execKlbLineTooLong s = _
  rw [execKlbLineTooLong, if_neg hk]

theorem serves_always (hk : klbServer s ≠ .nobody) : serves (klbServer s) .always = true := by
  cases hserver : klbServer s with
  | nobody => exact absurd hserver hk
  | rom => rfl
  | firmware => rfl
  | parked => rfl

theorem exec_status_served (hk : klbServer s ≠ .nobody) : exec .status s =
    .next (klbAnswer [("STATUS", [glbModeWord s, s.epochs.epoch, b2n s.glb.degradedPending, min s.bist.phase 8, grantOf s, secondsLeft s])] .ok s) :=
  exec_of_line rfl hk (serves_always hk) rfl

/-! The commands that the ROM serves too (R468, R478) -/

section
variable (hk : klbServer s = .rom ∨ klbServer s = .firmware)
include hk

theorem romToo_somebody : klbServer s ≠ .nobody := by
  rcases hk with hk | hk <;> rw [hk] <;> decide

theorem serves_romToo : serves (klbServer s) .romToo = true := by
  rcases hk with hk | hk <;> rw [hk] <;> rfl

theorem exec_of_romToo {act : State → KlbReply} {c : Instr} (hc : exec c s = .next (runKlb .romToo true act s)) {t : State} {lines : List (String × List Nat)} {st : Status}
    (ha : act s = { state := t, lines := lines, status := st }) : exec c s = .next (klbAnswer lines st t) :=
  exec_of_line hc (romToo_somebody hk) (serves_romToo hk) ha

theorem exec_baud_known {n : Nat} (hn : n ∈ [115200, 230400, 460800, 921600, 1500000, 3000000]) : exec (.baud n) s = .next (klbAnswer [] .ok (modKlb (fun k => { k with baud := n }) s)) := by
  have hb : bauds.contains n = true := List.contains_iff_mem.mpr hn
  exact exec_of_romToo hk (act := fun s => if bauds.contains n then reply0 .ok (modKlb (fun k => { k with baud := n }) s) else reply0 .badParam s) rfl (if_pos hb)

theorem exec_baud_unknown {n : Nat} (hn : n ∉ [115200, 230400, 460800, 921600, 1500000, 3000000]) : exec (.baud n) s = .next (klbAnswer [] .badParam s) := by
  have hb : ¬bauds.contains n = true := fun h => hn (List.contains_iff_mem.mp h)
  exact exec_of_romToo hk (act := fun s => if bauds.contains n then reply0 .ok (modKlb (fun k => { k with baud := n }) s) else reply0 .badParam s) rfl (if_neg hb)

theorem exec_imgData_short {data : List Byte} (hn : data.length ≤ 1024) : exec (.imgData data) s = .next (
    klbAnswer (imgReply (modRec 8 fun r => { r with window := Mem.writeBytes [] 0 0 data, len := data.length }) s).lines .ok
      (imgReply (modRec 8 fun r => { r with window := Mem.writeBytes [] 0 0 data, len := data.length }) s).state) :=
  exec_of_romToo hk (act := imgData data) rfl (by rw [imgData, if_neg (Nat.not_lt.mpr hn)]; rfl)

theorem exec_imgData_long {data : List Byte} (hn : 1024 < data.length) : exec (.imgData data) s = .next (klbAnswer [] .badParam s) :=
  exec_of_romToo hk (act := imgData data) rfl (by rw [imgData, if_pos hn]; rfl)

end

/-! Debug authorisation (R471 to R474) -/

section
variable (hk : klbServer s = .firmware)
include hk

theorem exec_of_firmware {act : State → KlbReply} {c : Instr} (hc : exec c s = .next (runKlb .firmwareOnly true act s)) {t : State} {lines : List (String × List Nat)} {st : Status}
    (ha : act s = { state := t, lines := lines, status := st }) : exec c s = .next (klbAnswer lines st t) :=
  exec_of_line hc (by rw [hk]; decide) (by rw [hk]; rfl) ha

theorem exec_authLoad_loaded {off : Nat} {data : List Byte} (h8 : off % 8 = 0) (hn : data.length ≤ 1024) (hend : off + data.length ≤ 8448) :
    exec (.authLoad off data) s = .next (klbAnswer [] .ok (modKlb (fun k => { k with record := Mem.writeBytes k.record 0 off data }) s)) := by
  have hgood : ¬(off % 8 ≠ 0 ∨ 1024 < data.length ∨ recordLen < off + data.length) := by
    unfold recordLen
    omega
  exact exec_of_firmware hk (act := loadRecord off data) rfl (by rw [loadRecord, if_neg hgood]; rfl)

theorem exec_authLoad_badParam {off : Nat} {data : List Byte} (hbad : off % 8 ≠ 0 ∨ 1024 < data.length ∨ 8448 < off + data.length) :
    exec (.authLoad off data) s = .next (klbAnswer [] .badParam s) :=
  exec_of_firmware hk (act := loadRecord off data) rfl (by rw [loadRecord, recordLen, if_pos hbad]; rfl)

theorem exec_authCheck_good (hg : authGood s (authRecord s) = true) : exec .authCheck s =
    .next (klbAnswer [("GRANT", [recGrant (authRecord s)]), ("SECONDS", [recDuration (authRecord s)])] .ok (countDbg 0 (modKlb (fun k => { k with nonce := none }) (startSession (authRecord s) s)))) :=
  exec_of_firmware hk (act := checkRecord) rfl (if_pos hg)

theorem exec_authCheck_bad (hg : authGood s (authRecord s) = false) : exec .authCheck s = .next (klbAnswer [] .keyRefused (countDbg 1 (modKlb (fun k => { k with nonce := none }) s))) :=
  exec_of_firmware hk (act := checkRecord) rfl (if_neg (by rw [hg]; decide))

end

end

/-- Settles O53. -/
theorem monitorLinesComplete : Obligations.MonitorLinesComplete := by
  unfold Obligations.MonitorLinesComplete
  intro s
  refine ⟨fun hk => ⟨exec_klbLineTooLong_served hk, exec_status_served hk⟩, fun hk => ?romToo, fun hk => ?firmware, rfl⟩
  case romToo =>
    exact ⟨exec_of_romToo hk rfl rfl, exec_of_romToo hk rfl rfl, fun n => exec_baud_known hk, fun n => exec_baud_unknown hk, fun n => exec_of_romToo hk rfl rfl,
      fun data => exec_imgData_short hk, fun data => exec_imgData_long hk, exec_of_romToo hk rfl rfl, fun slot => exec_of_romToo hk rfl rfl, exec_of_romToo hk rfl rfl⟩
  case firmware =>
    exact ⟨exec_of_firmware hk rfl rfl, fun off data => exec_authLoad_loaded hk, fun off data => exec_authLoad_badParam hk, exec_authCheck_good hk, exec_authCheck_bad hk,
      exec_of_firmware hk rfl rfl⟩

end Sys2Proof.Machine
end

section
/-! PROOF. The monitor's debug commands under a grant (R204, R205, R470, R473 to R477), for O54. -/

namespace Sys2Proof.Machine
open Sys2Proof

section
variable {s : State} (hk : klbServer s = .firmware)
include hk

/-- A line of a session that has its grant is answered with what its command replies. -/
theorem exec_of_granted {b : Bool} {act : State → KlbReply} {c : Instr} (hc : exec c s = .next (runKlb .firmwareOnly b act s)) (hb : b = true) {t : State}
    {lines : List (String × List Nat)} {st : Status} (ha : act s = { state := t, lines := lines, status := st }) : exec c s = .next (klbAnswer lines st t) :=
  exec_of_firmware hk (hb ▸ hc) ha

/-! Registers (R7, R470) -/

section
variable {a : Word} {n : Nat} (hr : klbMayRead s a.toNat = true) (hall : (readAddrs a.toNat n).all (klbMayRead s) = true)
include hr hall

theorem exec_klbRd_unaligned (h4 : a.toNat % 4 ≠ 0) : exec (.klbRd a n) s = .refused (.undefinedCase 7) :=
  if_pos ⟨hk, by rw [hr, hall]; rfl, h4⟩

omit hk hr hall in
theorem exec_klbRd_line (h4 : a.toNat % 4 = 0) :
    exec (.klbRd a n) s = .next (runKlb .firmwareOnly (klbMayRead s a.toNat && (readAddrs a.toNat n).all (klbMayRead s)) (klbRead a.toNat n) s) :=
  if_neg fun h => h.2.2 h4

theorem exec_klbRd_read (h4 : a.toNat % 4 = 0) (h1 : 1 ≤ n) (h64 : n ≤ 64) (hend : a.toNat + 4 * n ≤ 2 ^ 32) :
    exec (.klbRd a n) s = .next (klbAnswer [("RD", (readWords n a.toNat s).1)] .ok (readWords n a.toNat s).2) := by
  have hgood : ¬(n < 1 ∨ 64 < n ∨ 2 ^ 32 < a.toNat + 4 * n) := by omega
  exact exec_of_granted hk (exec_klbRd_line h4) (by rw [hr, hall]; rfl) (if_neg hgood)

theorem exec_klbRd_badParam (h4 : a.toNat % 4 = 0) (hbad : n = 0 ∨ 64 < n ∨ 2 ^ 32 < a.toNat + 4 * n) : exec (.klbRd a n) s = .next (klbAnswer [] .badParam s) := by
  have hb : n < 1 ∨ 64 < n ∨ 2 ^ 32 < a.toNat + 4 * n := by omega
  exact exec_of_granted hk (exec_klbRd_line h4) (by rw [hr, hall]; rfl) (if_pos hb)

end

theorem exec_klbWr_written {a v : Word} {t : State} (hw : klbMayWrite s a.toNat = true) (ht : exec (.registerWrite a v) s = .next t) :
    exec (.klbWr a v) s = .next (klbAnswer [] .ok t) := by
  change execRegisterWrite a v s = .next t at ht
  change execKlbWr a v s = _
  rw [execKlbWr, if_pos ⟨hk, hw⟩, ht]

/-! Memories and hods that the session may observe (R204, R205, R473) -/

section
variable (hg : granted s .observe = true) {cl : Cluster} {co : CoreIx} {d : DWord} {n : Nat}
include hg

theorem exec_mrd_freeHod (h1 : 1 ≤ n) (hn : n ≤ 1024) (hf : freeHodAt s (coreNo cl co) d.toNat n = true) : exec (.mrd cl co d n) s = .refused (.undefinedCase 205) :=
  if_pos ⟨hk, hg, h1, hn, hf⟩

omit hk hg in
theorem exec_mrd_line (hno : freeHodAt s (coreNo cl co) d.toNat n = false ∨ n = 0 ∨ 1024 < n) :
    exec (.mrd cl co d n) s = .next (runKlb .firmwareOnly (granted s .observe) (klbMemRead (coreNo cl co) d.toNat n) s) := by
  refine if_neg fun ⟨_, _, h1, hn, hf⟩ => ?_
  rcases hno with h | h | h
  · exact absurd (h ▸ hf) (by decide)
  · exact Nat.one_le_iff_ne_zero.mp h1 h
  · exact absurd hn (Nat.not_le.mpr h)

omit hk hg in
theorem klbBytes_sound {ck : Nat} {r : Region} (hp : poisonedAt s ck r n = false) : klbBytes ck r n s = { state := s, lines := dataLine "DATA" (readAt s ck r n), status := .ok } := by
  rw [klbBytes, hp, if_neg (by decide)]

omit hk hg in
theorem freeHodAt_of_other {ck a : Nat} {r : Region} (hr : regionOf s ck a n = some r) (hno : ∀ h off, r ≠ .hod h off) : freeHodAt s ck a n = false := by
  cases r with
  | hod h off => exact absurd rfl (hno h off)
  | instr off => simp only [freeHodAt, hr]
  | mem sp off => simp only [freeHodAt, hr]
  | dram dpa => simp only [freeHodAt, hr]

omit hk hg in
theorem freeHodAt_of_held {ck a h off : Nat} (hr : regionOf s ck a n = some (.hod h off)) (hh : hodHeld s h = true) : freeHodAt s ck a n = false := by
  simp only [freeHodAt, hr, freeHodNamed, hh, Bool.not_true, Bool.and_false]

omit hk hg in
theorem freeHodAt_of_none {ck a : Nat} (hr : regionOf s ck a n = none) : freeHodAt s ck a n = false := by
  simp only [freeHodAt, hr]

theorem exec_mrd_data {r : Region} (h1 : 1 ≤ n) (hn : n ≤ 1024) (hr : regionOf s (coreNo cl co) d.toNat n = some r) (hno : ∀ h off, r ≠ .hod h off)
    (hp : poisonedAt s (coreNo cl co) r n = false) : exec (.mrd cl co d n) s = .next (klbAnswer [("DATA", (readAt s (coreNo cl co) r n).map (·.toNat))] .ok s) := by
  have hsize : ¬(n < 1 ∨ 1024 < n) := by omega
  have hread : klbMemRead (coreNo cl co) d.toNat n s = klbBytes (coreNo cl co) r n s := by
    cases r with
    | hod h off => exact absurd rfl (hno h off)
    | instr off => simp only [klbMemRead, hsize, hr, if_false]
    | mem sp off => simp only [klbMemRead, hsize, hr, if_false]
    | dram dpa => simp only [klbMemRead, hsize, hr, if_false]
  exact exec_of_granted hk (exec_mrd_line (.inl (freeHodAt_of_other hr hno))) hg (hread.trans (klbBytes_sound hp))

theorem exec_mrd_hod {h off : Nat} (h1 : 1 ≤ n) (hn : n ≤ 1024) (hr : regionOf s (coreNo cl co) d.toNat n = some (.hod h off)) (hc : hodCheck s h off n 1 = none)
    (hh : hodHeld s h = true) (hp : poisonedAt s (coreNo cl co) (.hod h off) n = false) :
    exec (.mrd cl co d n) s = .next (klbAnswer [("DATA", (readAt s (coreNo cl co) (.hod h off) n).map (·.toNat))] .ok s) := by
  have hsize : ¬(n < 1 ∨ 1024 < n) := by omega
  have hread : klbMemRead (coreNo cl co) d.toNat n s = klbBytes (coreNo cl co) (.hod h off) n s := by simp only [klbMemRead, hsize, hr, hc, if_false]
  exact exec_of_granted hk (exec_mrd_line (.inl (freeHodAt_of_held hr hh))) hg (hread.trans (klbBytes_sound hp))

theorem exec_mrd_badParam (hbad : n = 0 ∨ 1024 < n ∨ regionOf s (coreNo cl co) d.toNat n = none) : exec (.mrd cl co d n) s = .next (klbAnswer [] .badParam s) := by
  by_cases hsize : n < 1 ∨ 1024 < n
  · exact exec_of_granted hk (exec_mrd_line (.inr (by omega))) hg (if_pos hsize)
  · have hr : regionOf s (coreNo cl co) d.toNat n = none := (hbad.resolve_left (by omega)).resolve_left (by omega)
    exact exec_of_granted hk (exec_mrd_line (.inl (freeHodAt_of_none hr))) hg (by simp only [klbMemRead, hsize, hr, if_false, reply0])

theorem exec_regs_stopped {t : ThreadIx} {th : Thread} (ht : thread s (coreNo cl co) t.val = some th) (hst : th.st = .halted ∨ th.st = .trapped) :
    exec (.regs cl co t) s = .next (klbAnswer [("REGS", (upFrom 1 31).map (fun r => (th.x r).toNat) ++ [th.pc, th.eventWord])] .ok s) := by
  have hstopped : stopped s (coreNo cl co) t.val = true := by
    rw [stopped, ht]
    rcases hst with h | h <;> simp [h]
  exact exec_of_granted hk (act := klbRegs (coreNo cl co) t.val) rfl hg (by simp only [klbRegs, ht, hstopped, if_true])

theorem exec_regs_running {t : ThreadIx} (hst : stopped s (coreNo cl co) t.val = false) : exec (.regs cl co t) s = .next (klbAnswer [] .badParam s) := by
  refine exec_of_granted hk (act := klbRegs (coreNo cl co) t.val) rfl hg ?_
  cases ht : thread s (coreNo cl co) t.val with
  | none => simp only [klbRegs, ht, reply0]
  | some th => simp only [klbRegs, ht, hst, Bool.false_eq_true, if_false, reply0]

section
variable {h : Word} {off : Nat} (h1 : 1 ≤ n) (hn : n ≤ 1024)
include h1 hn

theorem exec_klbHod_free (hc : hodCheck s h.toNat off n 1 = none) (hh : hodHeld s h.toNat = false) : exec (.klbHod h off n) s = .refused (.undefinedCase 205) :=
  if_pos ⟨hk, hg, h1, hn, by rw [freeHodNamed, hc, hh]; rfl⟩

omit hk hg h1 hn in
theorem exec_klbHod_line (hno : freeHodNamed s h.toNat off n = false) :
    exec (.klbHod h off n) s = .next (runKlb .firmwareOnly (granted s .observe) (klbHodRead h.toNat off n) s) :=
  if_neg fun ⟨_, _, _, _, hf⟩ => absurd (hno ▸ hf) (by decide)

theorem exec_klbHod_data (hc : hodCheck s h.toNat off n 1 = none) (hh : hodHeld s h.toNat = true) (hp : poisonedAt s 0 (.hod h.toNat off) n = false) :
    exec (.klbHod h off n) s = .next (klbAnswer [("DATA", (readAt s 0 (.hod h.toNat off) n).map (·.toNat))] .ok s) := by
  have hsize : ¬(n < 1 ∨ 1024 < n) := by omega
  have hread : klbHodRead h.toNat off n s = klbBytes 0 (.hod h.toNat off) n s := by simp only [klbHodRead, hsize, hc, if_false]
  exact exec_of_granted hk (exec_klbHod_line (by rw [freeHodNamed, hh, Bool.not_true, Bool.and_false])) hg (hread.trans (klbBytes_sound hp))

theorem exec_klbHod_violation {al : Bool} (hc : hodCheck s h.toNat off n 1 = some al) :
    exec (.klbHod h off n) s = .next (klbAnswer [] .badParam (klbViolation al h.toNat off n s)) := by
  have hsize : ¬(n < 1 ∨ 1024 < n) := by omega
  exact exec_of_granted hk (exec_klbHod_line (by rw [freeHodNamed, hc, Option.isNone_some, Bool.false_and])) hg (by simp only [klbHodRead, hsize, hc, if_false, reply0])

end

end

/-! Memories, threads and breakpoints that the session may control (R473, R476, R477) -/

section
variable (hg : granted s .control = true) {cl : Cluster} {co : CoreIx}
include hg

section
variable {d : DWord} {data : List Byte}

theorem exec_mwr_freeHod (hd : data ≠ []) (hf : freeHodAt s (coreNo cl co) d.toNat data.length = true) : exec (.mwr cl co d data) s = .refused (.undefinedCase 205) :=
  if_pos ⟨hk, hg, List.length_pos_iff.mpr hd, hf⟩

omit hk hg in
theorem exec_mwr_line (hno : freeHodAt s (coreNo cl co) d.toNat data.length = false ∨ data = []) :
    exec (.mwr cl co d data) s = .next (runKlb .firmwareOnly (granted s .control) (klbMemWrite (coreNo cl co) d.toNat data) s) := by
  refine if_neg fun ⟨_, _, h1, hf⟩ => ?_
  rcases hno with h | h
  · exact absurd (h ▸ hf) (by decide)
  · exact List.length_pos_iff.mp h1 h

theorem exec_mwr_written {r : Region} (hd : data ≠ []) (hr : regionOf s (coreNo cl co) d.toNat data.length = some r) (hno : ∀ h off, r ≠ .hod h off) :
    exec (.mwr cl co d data) s = .next (klbAnswer [] .ok (writeAt (coreNo cl co) r data s)) := by
  have hsome : data.isEmpty = false := List.isEmpty_eq_false_iff.mpr hd
  refine exec_of_granted hk (exec_mwr_line (.inl (freeHodAt_of_other hr hno))) hg ?_
  cases r with
  | hod h off => exact absurd rfl (hno h off)
  | instr off => simp only [klbMemWrite, hsome, hr, Bool.false_eq_true, if_false, reply0]
  | mem sp off => simp only [klbMemWrite, hsome, hr, Bool.false_eq_true, if_false, reply0]
  | dram dpa => simp only [klbMemWrite, hsome, hr, Bool.false_eq_true, if_false, reply0]

theorem exec_mwr_hod {h off : Nat} (hd : data ≠ []) (hr : regionOf s (coreNo cl co) d.toNat data.length = some (.hod h off)) (hc : hodCheck s h off data.length 1 = none)
    (hh : hodHeld s h = true) : exec (.mwr cl co d data) s = .next (klbAnswer [] .ok (writeAt (coreNo cl co) (.hod h off) data s)) := by
  have hsome : data.isEmpty = false := List.isEmpty_eq_false_iff.mpr hd
  exact exec_of_granted hk (exec_mwr_line (.inl (freeHodAt_of_held hr hh))) hg (by simp only [klbMemWrite, hsome, hr, hc, Bool.false_eq_true, if_false, reply0])

theorem exec_mwr_badParam (hbad : data = [] ∨ regionOf s (coreNo cl co) d.toNat data.length = none) : exec (.mwr cl co d data) s = .next (klbAnswer [] .badParam s) := by
  cases hd : data.isEmpty with
  | true => exact exec_of_granted hk (exec_mwr_line (.inr (List.isEmpty_iff.mp hd))) hg (if_pos hd)
  | false =>
    have hr := hbad.resolve_left (List.isEmpty_eq_false_iff.mp hd)
    exact exec_of_granted hk (exec_mwr_line (.inl (freeHodAt_of_none hr))) hg (by simp only [klbMemWrite, hd, hr, Bool.false_eq_true, if_false, reply0])

end

section
variable {t : ThreadIx}

section
variable {w : DWord} (hst : stopped s (coreNo cl co) t.val = true)
include hst

theorem exec_setreg_pc : exec (.setreg cl co t none w) s = .next (klbAnswer [] .ok (modThread (coreNo cl co) t.val (fun th => { th with pc := w.toNat, atBp := false }) s)) :=
  exec_of_granted hk (act := klbSetReg (coreNo cl co) t.val none w.toNat) rfl hg (by simp only [klbSetReg, hst, Bool.not_true, Bool.false_eq_true, if_false, reply0])

theorem exec_setreg_x {r : RegNo} (hr : r.val ≠ 0) :
    exec (.setreg cl co t (some r) w) s = .next (klbAnswer [] .ok (modThread (coreNo cl co) t.val (fun th => th.setX r.val w.toNat) s)) :=
  exec_of_granted hk (act := klbSetReg (coreNo cl co) t.val (some r) w.toNat) rfl hg (by simp only [klbSetReg, hst, hr, Bool.not_true, Bool.false_eq_true, if_false, reply0])

theorem exec_setreg_x0 : exec (.setreg cl co t (some 0) w) s = .next (klbAnswer [] .badParam s) :=
  exec_of_granted hk (act := klbSetReg (coreNo cl co) t.val (some 0) w.toNat) rfl hg (by rw [klbSetReg, hst, if_neg (by decide)]; exact if_pos rfl)

end

theorem exec_setreg_running {r : Option RegNo} {w : DWord} (hst : stopped s (coreNo cl co) t.val = false) : exec (.setreg cl co t r w) s = .next (klbAnswer [] .badParam s) :=
  exec_of_granted hk (act := klbSetReg (coreNo cl co) t.val r w.toNat) rfl hg (if_pos (by rw [hst]; rfl))

section
variable {n : Nat} {th : Thread} (h1 : 1 ≤ n) (hn : n ≤ 65536) (ht : thread s (coreNo cl co) t.val = some th) (hst : th.st = .halted)
include h1 hn ht hst

omit hk hg in
theorem step_ready : (decide (1 ≤ n) && decide (n ≤ 65536) && (thread s (coreNo cl co) t.val).any fun th => th.st == .halted) = true := by
  rw [decide_eq_true h1, decide_eq_true hn, ht, Option.any_some, hst]
  rfl

theorem exec_step_retired {u : State} (hu : stepThread (coreNo cl co) t.val n s = some u) :
    exec (.step cl co t n) s = .next (klbAnswer [("STEP", [threadCode u (coreNo cl co) t.val, pcOf u (coreNo cl co) t.val])] .ok u) := by
  have hready := step_ready h1 hn ht hst
  change execStep cl co t n s = _
  simp only [execStep, hk, hg, hready, hu, and_self, if_true]

theorem exec_step_freeHod (hu : stepThread (coreNo cl co) t.val n s = none) : exec (.step cl co t n) s = .refused (.undefinedCase 205) := by
  have hready := step_ready h1 hn ht hst
  change execStep cl co t n s = _
  simp only [execStep, hk, hg, hready, hu, and_self, if_true]

end

theorem exec_step_badParam {n : Nat} (hbad : n = 0 ∨ 65536 < n ∨ (∀ th, thread s (coreNo cl co) t.val = some th → th.st ≠ .halted)) :
    exec (.step cl co t n) s = .next (klbAnswer [] .badParam s) := by
  have hready : (decide (1 ≤ n) && decide (n ≤ 65536) && (thread s (coreNo cl co) t.val).any fun th => th.st == .halted) = false := by
    rcases hbad with h | h | h
    · rw [h]; rfl
    · rw [decide_eq_false (Nat.not_le.mpr h), Bool.and_false, Bool.false_and]
    · cases ht : thread s (coreNo cl co) t.val with
      | none => rw [Option.any_none, Bool.and_false]
      | some th => rw [Option.any_some, beq_eq_false_iff_ne.mpr (h th ht), Bool.and_false]
  refine exec_of_granted hk (act := reply0 .badParam) ?_ hg rfl
  change execStep cl co t n s = _
  simp only [execStep, hready, Bool.false_eq_true, and_false, if_false]

end

section
variable {d : DWord}

theorem exec_bpSet_badParam (hbad : d.toNat % 2 ≠ 0 ∨ 0x10000 < d.toNat + instrLen (instrAt s (coreNo cl co) d.toNat)) : exec (.bpSet cl co d) s = .next (klbAnswer [] .badParam s) :=
  exec_of_granted hk (act := setBp (coreNo cl co) d.toNat) rfl hg (if_pos hbad)

theorem exec_bpClr_restored {i : Nat} (hi : Tbl.find (coreOf s (coreNo cl co)).bps d.toNat = some i) : exec (.bpClr cl co d) s =
    .next (klbAnswer [] .ok (modCore (coreNo cl co) (fun c => { c with bps := Tbl.del c.bps d.toNat }) (restoreBp (coreNo cl co) (d.toNat, i) s))) :=
  exec_of_granted hk (act := clearBp (coreNo cl co) d.toNat) rfl hg (by simp only [clearBp, hi, reply0])

theorem exec_bpClr_absent (hi : Tbl.find (coreOf s (coreNo cl co)).bps d.toNat = none) : exec (.bpClr cl co d) s = .next (klbAnswer [] .entryAbsent s) :=
  exec_of_granted hk (act := clearBp (coreNo cl co) d.toNat) rfl hg (by simp only [clearBp, hi, reply0])

section
variable (h2 : d.toNat % 2 = 0) (hend : d.toNat + instrLen (instrAt s (coreNo cl co) d.toNat) ≤ 0x10000)
include h2 hend

omit hk hg in
theorem setBp_placed : setBp (coreNo cl co) d.toNat s = if Tbl.has (coreOf s (coreNo cl co)).bps d.toNat then reply0 .ok s
    else if 64 ≤ (coreOf s (coreNo cl co)).bps.length then reply0 .noResource s
    else reply0 .ok (writeAt (coreNo cl co) (.instr d.toNat) (leBytes (instrLen (instrAt s (coreNo cl co) d.toNat)) (if isShort (instrAt s (coreNo cl co) d.toNat) then 0x9002 else 0x00100073))
      (modCore (coreNo cl co) (fun c => { c with bps := Tbl.put c.bps d.toNat (instrAt s (coreNo cl co) d.toNat) }) s)) :=
  if_neg fun hbad => hbad.elim (· h2) (Nat.not_lt.mpr hend)

theorem exec_bpSet_known (hb : Tbl.has (coreOf s (coreNo cl co)).bps d.toNat = true) : exec (.bpSet cl co d) s = .next (klbAnswer [] .ok s) :=
  exec_of_granted hk (act := setBp (coreNo cl co) d.toNat) rfl hg ((setBp_placed h2 hend).trans (if_pos hb))

variable (hb : Tbl.has (coreOf s (coreNo cl co)).bps d.toNat = false)
include hb

theorem exec_bpSet_full (hn : 64 ≤ (coreOf s (coreNo cl co)).bps.length) : exec (.bpSet cl co d) s = .next (klbAnswer [] .noResource s) :=
  exec_of_granted hk (act := setBp (coreNo cl co) d.toNat) rfl hg (by rw [setBp_placed h2 hend, hb, if_neg (by decide), if_pos hn]; rfl)

theorem exec_bpSet_set (hn : (coreOf s (coreNo cl co)).bps.length < 64) : exec (.bpSet cl co d) s = .next (klbAnswer [] .ok
    (writeAt (coreNo cl co) (.instr d.toNat) (leBytes (instrLen (instrAt s (coreNo cl co) d.toNat)) (if isShort (instrAt s (coreNo cl co) d.toNat) then 0x9002 else 0x00100073))
      (modCore (coreNo cl co) (fun c => { c with bps := Tbl.put c.bps d.toNat (instrAt s (coreNo cl co) d.toNat) }) s))) :=
  exec_of_granted hk (act := setBp (coreNo cl co) d.toNat) rfl hg (by rw [setBp_placed h2 hend, hb, if_neg (by decide), if_neg (Nat.not_le.mpr hn)]; rfl)

end

end

end

end

/-- Settles O54. -/
theorem monitorDebugCommandsComplete : Obligations.MonitorDebugCommandsComplete := by
  unfold Obligations.MonitorDebugCommandsComplete
  intro s hk
  refine ⟨fun a n hr hall => ⟨exec_klbRd_unaligned hk hr hall, exec_klbRd_read hk hr hall, exec_klbRd_badParam hk hr hall⟩, fun a v t => exec_klbWr_written hk, fun hg cl co d n => ?observe,
    fun hg cl co => ?control, fun hg => exec_of_granted hk rfl hg rfl⟩
  case observe =>
    exact ⟨exec_mrd_freeHod hk hg, fun r => exec_mrd_data hk hg, fun h off => exec_mrd_hod hk hg, exec_mrd_badParam hk hg, exec_of_granted hk rfl hg rfl,
      fun t th => exec_regs_stopped hk hg, fun t => exec_regs_running hk hg, fun h off h1 hn hc => ⟨exec_klbHod_free hk hg h1 hn hc, exec_klbHod_data hk hg h1 hn hc⟩,
      fun h off al h1 hn => exec_klbHod_violation hk hg h1 hn⟩
  case control =>
    exact ⟨fun d data => exec_mwr_freeHod hk hg, fun d data r => exec_mwr_written hk hg, fun d data h off => exec_mwr_hod hk hg, fun d data => exec_mwr_badParam hk hg,
      fun t w hst => ⟨exec_setreg_pc hk hg hst, fun r => exec_setreg_x hk hg hst, exec_setreg_x0 hk hg hst⟩, fun t r w => exec_setreg_running hk hg,
      fun oc ot => ⟨exec_of_granted hk rfl hg rfl, exec_of_granted hk rfl hg rfl⟩, fun t n th u h1 hn ht hst => exec_step_retired hk hg h1 hn ht hst,
      fun t n th h1 hn ht hst => exec_step_freeHod hk hg h1 hn ht hst, fun t n => exec_step_badParam hk hg, fun t => exec_of_granted hk rfl hg rfl,
      fun d => ⟨exec_bpSet_badParam hk hg, fun h2 hend => ⟨exec_bpSet_known hk hg h2 hend, exec_bpSet_full hk hg h2 hend, exec_bpSet_set hk hg h2 hend⟩⟩,
      fun d i => exec_bpClr_restored hk hg, fun d => exec_bpClr_absent hk hg, exec_of_granted hk rfl hg rfl, exec_of_granted hk rfl hg rfl⟩

end Sys2Proof.Machine
end

section
/-! PROOF. The steps of a recoat between boundaries (R36, R42 to R49, R158, R458), for O19. -/

namespace Sys2Proof.Machine
open Sys2Proof

/-! The arm cutoff (R45) -/

/-- A unit is armed for the coming boundary. -/
def dueAtCutoff (s : State) (u : UnitState) : Bool := u.phase == .armed && (u.target.isNone || u.target == some (s.epochs.epoch + 1))

theorem dueAtCutoff_iff (s : State) (u : UnitState) : dueAtCutoff s u = true ↔ u.phase = .armed ∧ (u.target = none ∨ u.target = some (s.epochs.epoch + 1)) := by
  simp [dueAtCutoff]

/-- One unit's step at the cutoff. -/
def cutoffUnit (s t : State) (i : Fin 32) : State := if dueAtCutoff s (unitAt s i) then modUnit i (fun u => { u with phase := .pending }) t else t

theorem unitAt_cutoffUnit (s t : State) (i j : Fin 32) :
    unitAt (cutoffUnit s t i) j = if j = i then (if dueAtCutoff s (unitAt s i) then { unitAt t j with phase := .pending } else unitAt t j) else unitAt t j := by
  unfold cutoffUnit
  split
  · rw [unitAt_modUnit]
  · rw [ite_self]

theorem exec_armCutoff (s : State) : exec .armCutoff s = .next ((List.finRange 32).foldl (cutoffUnit s) { s with epochs := { s.epochs with cutoffDone := true } }) := rfl

theorem armCutoff_completes (s : State) : Completes (exec .armCutoff s) fun t => changesOnly [.epochs] s t ∧ t.epochs.cutoffDone = true ∧ t.epochs.len = s.epochs.len ∧
    ∀ i : Fin 32, unitAt t i = (if (unitAt s i).phase = .armed ∧ ((unitAt s i).target = none ∨ (unitAt s i).target = some (s.epochs.epoch + 1))
      then { unitAt s i with phase := .pending } else unitAt s i) := by
  have hdone (t : State) (i : Fin 32) : (cutoffUnit s t i).epochs.cutoffDone = t.epochs.cutoffDone := by unfold cutoffUnit; split <;> rfl
  have hlen (t : State) (i : Fin 32) : (cutoffUnit s t i).epochs.len = t.epochs.len := by unfold cutoffUnit; split <;> rfl
  refine ⟨_, exec_armCutoff s, execArmCutoff_only s (listed rfl) (changesOnly_refl _ _) _ (exec_armCutoff s), foldl_eq_of_step (part := fun t => t.epochs.cutoffDone) hdone _ _,
    foldl_eq_of_step (part := fun t => t.epochs.len) hlen _ _, fun i => ?_⟩
  rw [unitAt_foldl (f := fun i u => if dueAtCutoff s (unitAt s i) then { u with phase := .pending } else u) (unitAt_cutoffUnit s) _ (List.nodup_finRange 32), if_pos (List.mem_finRange i)]
  simp only [dueAtCutoff_iff]
  rfl

/-! The end of grace and the reload (R46 to R48) -/

theorem isBank_iff_of_host {u : RUnit} (hu : 8 ≤ (unitBit u).val) (hparse : u ≠ .parse) (hcls : u ≠ .cls) : isBank (unitBit u) = true ↔ u = .parse ∨ u = .cls :=
  iff_of_false (by rw [isBank, decide_eq_true_eq]; omega) (fun h => h.elim hparse hcls)

theorem isBank_unitBit (u : RUnit) : isBank (unitBit u) = true ↔ u = .parse ∨ u = .cls := by
  cases u with
  | parse => decide
  | cls => decide
  | schedTop => decide
  | hostShare => decide
  | quota => decide
  | spread h => exact isBank_iff_of_host (by simp only [unitBit]; omega) nofun nofun
  | schedHost h => exact isBank_iff_of_host (by simp only [unitBit]; omega) nofun nofun
  | vfQuota h => exact isBank_iff_of_host (by simp only [unitBit]; omega) nofun nofun

section
variable {u : RUnit} {s : State}

theorem exec_graceEnd_idle (hp : (unitAt s (unitBit u)).phase ≠ .grace) : exec (.graceEnd u) s = .next s := by
  change execGraceEnd u s = _
  simp only [execGraceEnd, bne_iff_ne.mpr hp, if_true]

theorem exec_graceEnd_bank (hp : (unitAt s (unitBit u)).phase = .grace) (hb : u = .parse ∨ u = .cls) : exec (.graceEnd u) s = .next (clearGrace (unitBit u) s) := by
  change execGraceEnd u s = _
  simp only [execGraceEnd, hp, (isBank_unitBit u).mpr hb, bne_self_eq_false, Bool.false_eq_true, if_false, if_true]

theorem exec_graceEnd_reloads (hp : (unitAt s (unitBit u)).phase = .grace) (hparse : u ≠ .parse) (hcls : u ≠ .cls) :
    exec (.graceEnd u) s = .next (modUnit (unitBit u) (fun x => { x with phase := .reload }) s) := by
  have hb : ¬isBank (unitBit u) = true := fun h => ((isBank_unitBit u).mp h).elim hparse hcls
  change execGraceEnd u s = _
  simp only [execGraceEnd, hp, hb, bne_self_eq_false, Bool.false_eq_true, if_false]

theorem exec_reloadComplete_idle (hp : (unitAt s (unitBit u)).phase ≠ .reload) : exec (.reloadComplete u) s = .next s := by
  change execReloadComplete u s = _
  simp only [execReloadComplete, bne_iff_ne.mpr hp, if_true]

theorem exec_reloadComplete_reloaded (hp : (unitAt s (unitBit u)).phase = .reload) :
    exec (.reloadComplete u) s = .next (clearGrace (unitBit u) (reloadUnit (unitBit u) s)) := by
  change execReloadComplete u s = _
  simp only [execReloadComplete, hp, bne_self_eq_false, Bool.false_eq_true, if_false]

end

/-! Direct writes of GLB_RECOAT_ARM (R47, R49) -/

section
variable {v : Word} {s : State}

theorem exec_glbRecoatArmWrite_noRecoat (hm : s.glb.mode = .boot ∨ s.glb.mode = .park) : exec (.glbRecoatArmWrite v) s = .next s := by
  have hno : noRecoat s = true := by rcases hm with hm | hm <;> rw [noRecoat, hm] <;> rfl
  change execGlbRecoatArmWrite v s = _
  rw [execGlbRecoatArmWrite, if_pos hno]

variable (hboot : s.glb.mode ≠ .boot) (hpark : s.glb.mode ≠ .park)
include hboot hpark

theorem recoats : noRecoat s = false := by
  rw [noRecoat, beq_eq_false_iff_ne.mpr hboot, beq_eq_false_iff_ne.mpr hpark]
  rfl

theorem exec_glbRecoatArmWrite_inGrace (hg : ∃ i ∈ maskUnits v.toNat, validUnit i = true ∧ unitInGrace (unitAt s i) = true) :
    exec (.glbRecoatArmWrite v) s = .refused (.undefinedCase 47) := by
  have hany : ((maskUnits v.toNat).any fun i => validUnit i && unitInGrace (unitAt s i)) = true := by simpa using hg
  change execGlbRecoatArmWrite v s = _
  rw [execGlbRecoatArmWrite, recoats hboot hpark, if_neg (by decide), if_pos hany]

/-- A unit that a direct write of GLB_RECOAT_ARM may arm. -/
def armable (i : Fin 32) (u : UnitState) : Bool := validUnit i && !unitArmed u && !u.copying

omit hboot hpark in
theorem armable_iff (i : Fin 32) (u : UnitState) : armable i u = true ↔ validUnit i = true ∧ unitArmed u = false ∧ u.copying = false := by
  simp [armable, and_assoc]

/-- One unit's step of a direct write of GLB_RECOAT_ARM. -/
def armDirect (t : State) (i : Fin 32) : State := if armable i (unitAt t i) then modUnit i (fun u => { u with phase := .armed, target := none, handle := none }) t else t

omit hboot hpark in
theorem unitAt_armDirect (t : State) (i j : Fin 32) : unitAt (armDirect t i) j =
    if j = i then (if armable i (unitAt t j) then { unitAt t j with phase := .armed, target := none, handle := none } else unitAt t j) else unitAt t j := by
  unfold armDirect
  by_cases hji : j = i
  · subst hji
    split
    · rw [unitAt_modUnit]
    · rw [if_pos rfl]
  · rw [if_neg hji]
    split
    · rw [unitAt_modUnit, if_neg hji]
    · rfl

theorem exec_glbRecoatArmWrite_armed (hg : ∀ i ∈ maskUnits v.toNat, validUnit i = true → unitInGrace (unitAt s i) = false) :
    exec (.glbRecoatArmWrite v) s = .next ((maskUnits v.toNat).foldl armDirect s) := by
  have hany : ((maskUnits v.toNat).any fun i => validUnit i && unitInGrace (unitAt s i)) = false := by simpa using hg
  change execGlbRecoatArmWrite v s = _
  rw [execGlbRecoatArmWrite, recoats hboot hpark, if_neg (by decide), hany, if_neg (by decide)]
  rfl

theorem glbRecoatArmWrite_completes (hg : ∀ i ∈ maskUnits v.toNat, validUnit i = true → unitInGrace (unitAt s i) = false) :
    Completes (exec (.glbRecoatArmWrite v) s) fun t => changesOnly [.epochs] s t ∧
      ∀ i : Fin 32, unitAt t i = (if bitAt v.toNat i.val = true ∧ validUnit i = true ∧ unitArmed (unitAt s i) = false ∧ (unitAt s i).copying = false
        then { unitAt s i with phase := .armed, target := none, handle := none } else unitAt s i) := by
  have hrun := exec_glbRecoatArmWrite_armed hboot hpark hg
  refine ⟨_, hrun, execGlbRecoatArmWrite_only v s (listed rfl) (changesOnly_refl _ _) _ hrun, fun i => ?_⟩
  rw [unitAt_foldl (f := fun i u => if armable i u then { u with phase := .armed, target := none, handle := none } else u) unitAt_armDirect _ (nodup_maskUnits _)]
  simp only [mem_maskUnits, armable_iff]
  by_cases hbit : bitAt v.toNat i.val = true
  · simp only [hbit, if_true, true_and]
  · simp only [hbit, Bool.false_eq_true, if_false, false_and]

end

/-! Writes of staged registers (R47, R48, R158) -/

section
variable {a v : Word} {s : State}

theorem exec_stagedRegisterWrite_other (ha : parseStagedAddr a.toNat = false) : exec (.stagedRegisterWrite a v) s = .next s := by
  change execStagedRegisterWrite a v s = _
  rw [execStagedRegisterWrite, ha, if_pos (by decide)]

section
variable (ha : parseStagedAddr a.toNat = true)
include ha

theorem exec_stagedRegisterWrite_grace (hp : (unitAt s 0).phase = .grace ∨ (unitAt s 0).phase = .reload) :
    exec (.stagedRegisterWrite a v) s = .refused (.undefinedCase 47) := by
  change execStagedRegisterWrite a v s = _
  rcases hp with hp | hp <;> simp only [execStagedRegisterWrite, ha, hp, Bool.not_true, Bool.false_eq_true, if_false]

theorem exec_stagedRegisterWrite_pending (hp : (unitAt s 0).phase = .pending) :
    exec (.stagedRegisterWrite a v) s = .next (modUnit 0 (fun u => { u with held := u.held ++ [(a.toNat, v.toNat)] }) s) := by
  change execStagedRegisterWrite a v s = _
  simp only [execStagedRegisterWrite, ha, hp, Bool.not_true, Bool.false_eq_true, if_false]

theorem exec_stagedRegisterWrite_open (hp : (unitAt s 0).phase = .idle ∨ (unitAt s 0).phase = .armed) :
    exec (.stagedRegisterWrite a v) s = .next (parseStagedWrite a.toNat v.toNat s) := by
  change execStagedRegisterWrite a v s = _
  rcases hp with hp | hp <;> simp only [execStagedRegisterWrite, ha, hp, Bool.not_true, Bool.false_eq_true, if_false]

end

end

/-! A unit that fails in service (R458) -/

section
variable {k : Byte} {n : BitVec 24} {s : State}

theorem exec_unitFailure_new (hfw : s.glb.fwRuns = true) (hl : isLost s k.toNat n.toNat = false) (hs : (k.toNat, n.toNat) ∉ s.bist.swaps) :
    exec (.unitFailureInService k n) s = .next (unitFails k.toNat n.toNat s) := by
  have hswap : s.bist.swaps.contains (k.toNat, n.toNat) = false := by
    rw [← Bool.not_eq_true, List.contains_iff_mem]
    exact hs
  change execUnitFailureInService k n s = _
  rw [execUnitFailureInService, hfw, hl, hswap, if_neg (by decide)]

theorem exec_unitFailure_known (hno : s.glb.fwRuns = false ∨ isLost s k.toNat n.toNat = true ∨ (k.toNat, n.toNat) ∈ s.bist.swaps) :
    exec (.unitFailureInService k n) s = .next s := by
  have hskip : (!s.glb.fwRuns || isLost s k.toNat n.toNat || s.bist.swaps.contains (k.toNat, n.toNat)) = true := by
    rcases hno with h | h | h
    · rw [h, Bool.not_false, Bool.true_or, Bool.true_or]
    · rw [h, Bool.or_true, Bool.true_or]
    · rw [List.contains_iff_mem.mpr h, Bool.or_true]
  change execUnitFailureInService k n s = _
  rw [execUnitFailureInService, if_pos hskip]

end

/-- Settles O19. -/
theorem recoatStepsComplete : Obligations.RecoatStepsComplete := by
  unfold Obligations.RecoatStepsComplete
  exact ⟨armCutoff_completes, fun u s => exec_graceEnd_idle, fun u s => exec_graceEnd_bank, fun u s => exec_graceEnd_reloads, fun u s => exec_reloadComplete_idle,
    fun u s => exec_reloadComplete_reloaded, fun v s => exec_glbRecoatArmWrite_noRecoat, fun v s => exec_glbRecoatArmWrite_inGrace, fun v s => glbRecoatArmWrite_completes,
    fun a v s => exec_stagedRegisterWrite_other, fun a v s => exec_stagedRegisterWrite_grace, fun a v s => exec_stagedRegisterWrite_pending,
    fun a v s => exec_stagedRegisterWrite_open, fun v s => rfl, fun k n s => exec_unitFailure_new, fun k n s => exec_unitFailure_known⟩

end Sys2Proof.Machine
end

section
/-! PROOF. The reference clocks (R20, R487) and the drain of QUIESCE (R26), for O17. -/

namespace Sys2Proof.Machine
open Sys2Proof

/-! Raising an owner event -/

theorem raiseOwner_mask (type source tag : Nat) (payload : List Nat) (s : State) : (raiseOwner type source tag payload s).owner.mask = s.owner.mask := by
  unfold raiseOwner
  split
  · rfl
  split
  · rfl
  dsimp only
  split <;> rfl

/-- An event whose mask bit is clear is not suppressed (R82). -/
theorem not_ownerMasked_of_clear {type : Nat} {s : State} (hm : bitAt s.owner.mask type = false) : ¬ ownerMasked type s :=
  fun h => Bool.false_ne_true (hm.symm.trans h.2.2)

/-! CLOCK_STATE (R487) -/

section
variable (ref change micros : Nat) (s : State)

theorem raiseClock_frame : changesOnly [.owner] s (raiseClock ref change micros s) :=
  (raiseClock_only ref change micros s (by decide)).mpr (changesOnly_refl _ s)

@[simp] theorem raiseClock_clk : (raiseClock ref change micros s).clk = s.clk := changesOnly_clk (raiseClock_frame ref change micros s) (by decide)

@[simp] theorem raiseClock_glb : (raiseClock ref change micros s).glb = s.glb := changesOnly_glb (raiseClock_frame ref change micros s) (by decide)

theorem raiseClock_mask : (raiseClock ref change micros s).owner.mask = s.owner.mask := raiseOwner_mask ..

theorem refLost_frame : changesOnly [.owner, .elec] s (refLost ref s) := (refLost_only ref s (by decide) (by decide)).mpr (changesOnly_refl _ s)

@[simp] theorem refLost_clk : (refLost ref s).clk = s.clk := changesOnly_clk (refLost_frame ref s) (by decide)

@[simp] theorem refLost_glb : (refLost ref s).glb = s.glb := changesOnly_glb (refLost_frame ref s) (by decide)

theorem refLost_mask : (refLost ref s).owner.mask = s.owner.mask := raiseClock_mask ..

theorem refBack_frame : changesOnly [.owner, .elec] s (refBack ref s) := (refBack_only ref s (by decide) (by decide)).mpr (changesOnly_refl _ s)

@[simp] theorem refBack_clk : (refBack ref s).clk = s.clk := changesOnly_clk (refBack_frame ref s) (by decide)

@[simp] theorem refBack_glb : (refBack ref s).glb = s.glb := changesOnly_glb (refBack_frame ref s) (by decide)

theorem refBack_eth : (refBack ref s).eth = s.eth := changesOnly_eth (refBack_frame ref s) (by decide)

theorem refBack_hosts : (refBack ref s).hosts = s.hosts := changesOnly_hosts (refBack_frame ref s) (by decide)

theorem refBack_mask : (refBack ref s).owner.mask = s.owner.mask := raiseClock_mask ..

variable {s} (hfw : s.glb.fwRuns = true) (hm : bitAt s.owner.mask 0x81 = false)
include hfw hm

theorem raiseClock_seq : (raiseClock ref change micros s).owner.seq = s.owner.seq + 1 :=
  raiseOwner_seq 0x81 _ 0 _ hfw (not_ownerMasked_of_clear hm)

theorem refLost_seq : (refLost ref s).owner.seq = s.owner.seq + 1 :=
  raiseClock_seq ref 1 0 (s := modElec _ s) hfw hm

theorem refBack_seq : (refBack ref s).owner.seq = s.owner.seq + 1 :=
  raiseClock_seq ref 2 _ (s := modElec _ s) hfw hm

end

/-! The core reference -/

section
variable {s : State} (hp : s.glb.powered = true)
include hp

theorem exec_rootPllLock (hh : s.clk.holdover = false) : exec .rootPllLock s = .next { s with
    clk := { s.clk with rootLock := true, refPresent := true }
    glb := { s.glb with stage := if s.glb.stage = .waitLock then .rom else s.glb.stage } } := by
  change execRootPllLock s = _
  simp only [execRootPllLock, hp, hh, Bool.not_true, Bool.or_self, Bool.false_eq_true, if_false]

section
variable (hr : s.clk.refPresent = true)
include hr

/-- The core reference is lost while the root PLL is locked: two events, for the loss and for holdover. -/
theorem exec_coreRefLost_locked (hl : s.clk.rootLock = true) : Completes (exec .coreRefLost s) fun t =>
    t.clk = { s.clk with refPresent := false, rootLock := false, holdover := true, holdoverCount := satAdd 0xFFFF s.clk.holdoverCount 1 } ∧
    (s.glb.fwRuns = true → bitAt s.owner.mask 0x81 = false → t.owner.seq = s.owner.seq + 2) := by
  change Completes (execCoreRefLost s) _
  simp only [execCoreRefLost, hp, hr, hl, Bool.not_true, Bool.or_self, Bool.false_eq_true, if_false]
  refine ⟨_, rfl, ?_, fun hfw hm => ?_⟩
  · simp only [raiseClock_clk, refLost_clk]
  · rw [raiseClock_seq]
    · exact congrArg (· + 1) (refLost_seq 1 (s := { s with clk := _ }) hfw hm)
    · exact (congrArg Glb.fwRuns (refLost_glb 1 _)).trans hfw
    · exact (congrArg (bitAt · 0x81) (refLost_mask 1 _)).trans hm

theorem exec_coreRefLost_unlocked (hl : s.clk.rootLock = false) : Completes (exec .coreRefLost s) fun t =>
    t.clk = { s.clk with refPresent := false } ∧ (s.glb.fwRuns = true → bitAt s.owner.mask 0x81 = false → t.owner.seq = s.owner.seq + 1) := by
  change Completes (execCoreRefLost s) _
  simp only [execCoreRefLost, hp, hr, hl, Bool.not_true, Bool.not_false, Bool.or_self, Bool.false_eq_true, if_false, if_true]
  exact ⟨_, rfl, refLost_clk .., fun hfw hm => refLost_seq 1 (s := { s with clk := _ }) hfw hm⟩

end

section
variable (hr : s.clk.refPresent = false)
include hr

/-- The core reference returns in holdover: two events, for its return and for the end of holdover. -/
theorem exec_coreRefReturned_holdover (hh : s.clk.holdover = true) : Completes (exec .coreRefReturned s) fun t =>
    t.clk = { s.clk with refPresent := true, rootLock := true, holdover := false, refReturned := true } ∧
    (s.glb.fwRuns = true → bitAt s.owner.mask 0x81 = false → t.owner.seq = s.owner.seq + 2) := by
  change Completes (execCoreRefReturned s) _
  simp only [execCoreRefReturned, hp, hr, hh, Bool.not_true, Bool.or_self, Bool.false_eq_true, if_false]
  refine ⟨_, rfl, ?_, fun hfw hm => ?_⟩
  · simp only [raiseClock_clk, refBack_clk]
  · rw [raiseClock_seq]
    · exact congrArg (· + 1) (refBack_seq 1 (s := { s with clk := _ }) hfw hm)
    · exact (congrArg Glb.fwRuns (refBack_glb 1 _)).trans hfw
    · exact (congrArg (bitAt · 0x81) (refBack_mask 1 _)).trans hm

theorem exec_coreRefReturned_no_holdover (hh : s.clk.holdover = false) : Completes (exec .coreRefReturned s) fun t =>
    t.clk = { s.clk with refPresent := true } ∧ (s.glb.fwRuns = true → bitAt s.owner.mask 0x81 = false → t.owner.seq = s.owner.seq + 1) := by
  change Completes (execCoreRefReturned s) _
  simp only [execCoreRefReturned, hp, hr, hh, Bool.not_true, Bool.not_false, Bool.or_self, Bool.false_eq_true, if_false, if_true]
  exact ⟨_, rfl, refBack_clk .., fun hfw hm => refBack_seq 1 (s := { s with clk := _ }) hfw hm⟩

end

/-! The other references -/

theorem exec_ethRefLost (hr : s.clk.ethRef = true) : Completes (exec .ethRefLost s) fun t => t.clk = { s.clk with ethRef := false } ∧ t.glb = s.glb := by
  have hframe (u : State) (l : Lane) : changesOnly [.owner, .eth, .counters] u (loseAlignment l { signal := true, lanes := [] } u) :=
    (loseAlignment_only l _ u (by decide) (by decide) (by decide)).mpr (changesOnly_refl _ u)
  change Completes (execEthRefLost s) _
  simp only [execEthRefLost, hp, hr, Bool.not_true, Bool.or_self, Bool.false_eq_true, if_false]
  refine ⟨_, rfl, ?_, ?_⟩
  · exact (foldl_eq_of_step (part := State.clk) (fun u l => changesOnly_clk (hframe u l) (by decide)) _ _).trans (refLost_clk ..)
  · exact (foldl_eq_of_step (part := State.glb) (fun u l => changesOnly_glb (hframe u l) (by decide)) _ _).trans (refLost_glb ..)

theorem exec_ethRefReturned (hr : s.clk.ethRef = false) : Completes (exec .ethRefReturned s) fun t =>
    t.clk = { s.clk with ethRef := true } ∧ t.eth = s.eth ∧ (s.glb.fwRuns = true → bitAt s.owner.mask 0x81 = false → t.owner.seq = s.owner.seq + 1) := by
  change Completes (execEthRefReturned s) _
  simp only [execEthRefReturned, hp, hr, Bool.not_true, Bool.or_self, Bool.false_eq_true, if_false]
  exact ⟨_, rfl, refBack_clk .., refBack_eth .., fun hfw hm => refBack_seq 2 (s := { s with clk := _ }) hfw hm⟩

theorem exec_hostRefLost (h : HostId) (hr : s.clk.hostRefs[h] = true) : exec (.hostRefLost h) s = .next (detachHost h .dlDown
    (refLost (16 + h.val) { s with clk := { s.clk with hostRefs := vset s.clk.hostRefs h false } })) := by
  change execHostRefLost h s = _
  simp only [execHostRefLost, hp, hr, Bool.not_true, Bool.or_self, Bool.false_eq_true, if_false]

theorem exec_hostRefReturned (h : HostId) (hr : s.clk.hostRefs[h] = false) : Completes (exec (.hostRefReturned h) s) fun t =>
    t.clk = { s.clk with hostRefs := vset s.clk.hostRefs h true } ∧ t.hosts = s.hosts ∧
    (s.glb.fwRuns = true → bitAt s.owner.mask 0x81 = false → t.owner.seq = s.owner.seq + 1) := by
  change Completes (execHostRefReturned h s) _
  simp only [execHostRefReturned, hp, hr, Bool.not_true, Bool.or_self, Bool.false_eq_true, if_false]
  exact ⟨_, rfl, refBack_clk .., refBack_hosts .., fun hfw hm => refBack_seq (16 + h.val) (s := { s with clk := _ }) hfw hm⟩

end

/-! The drain of QUIESCE (R26) -/

theorem exec_drainComplete {s : State} (hq : s.glb.mode = .quiesce) (hd : s.glb.drainComplete = false) (hc : cacheHasData s = false) (hl : lrdUnacked s = false) :
    Completes (exec .drainComplete s) fun t => t.glb = { s.glb with drainComplete := true } ∧
      (s.glb.fwRuns = true → bitAt s.owner.mask 0x12 = false → t.owner.seq = s.owner.seq + 1) := by
  change Completes (execDrainComplete s) _
  simp only [execDrainComplete, hq, hd, hc, hl, bne_self_eq_false, Bool.or_self, Bool.false_eq_true, if_false]
  exact ⟨_, rfl, raiseOwner_glb .., fun hfw hm => raiseOwner_seq 0x12 0 0 [] (s := { s with glb := _ }) hfw (not_ownerMasked_of_clear hm)⟩

/-- Settles O17. -/
theorem referenceClocksAndDrainComplete : Obligations.ReferenceClocksAndDrainComplete :=
  ⟨fun _ => exec_rootPllLock, fun _ => exec_coreRefLost_locked, fun _ => exec_coreRefLost_unlocked, fun _ => exec_coreRefReturned_holdover,
    fun _ => exec_coreRefReturned_no_holdover, fun _ => exec_ethRefLost, fun _ => exec_ethRefReturned, fun h _ hp => exec_hostRefLost hp h,
    fun h _ hp => exec_hostRefReturned hp h, fun _ => exec_drainComplete⟩

end Sys2Proof.Machine
end

section
/-! PROOF. The epoch boundary (R35 to R37, R44, R46), for O18. -/

namespace Sys2Proof.Machine
open Sys2Proof

/-! The boundary's steps -/

/-- What the steps after the counter's may change: the counter itself is not among them. -/
def boundaryParts : List Part :=
  [.out, .drawn, .nv, .glb, .epochs, .owner, .rings, .ops, .hosts, .fns, .queues, .parse, .cls, .hod, .sched, .net, .crypt, .cores, .dram, .bist, .counters, .mode]

/-- What is due after the counter's step, in its order (R37). -/
def boundaryWork (s : State) : State := imbalance (spreadBoundary (swapSpares (dueWaits (dueModes (commitUnits (dueSnapshots s))))))

theorem boundaryWork_frame (s : State) : changesOnly boundaryParts s (boundaryWork s) := by
  have hp {p : Part} (h : boundaryParts.elem p = true) : p ∈ boundaryParts := listed h
  rw [boundaryWork, imbalance_only _ (hp rfl),
    spreadBoundary_only _ (hp rfl) (hp rfl) (hp rfl) (hp rfl) (hp rfl) (hp rfl),
    swapSpares_only _ (hp rfl) (hp rfl) (hp rfl) (hp rfl) (hp rfl),
    dueWaits_only _ (hp rfl) (hp rfl) (hp rfl) (hp rfl) (hp rfl) (hp rfl),
    dueModes_only _ (hp rfl) (hp rfl) (hp rfl) (hp rfl) (hp rfl) (hp rfl) (hp rfl) (hp rfl) (hp rfl) (hp rfl) (hp rfl) (hp rfl) (hp rfl) (hp rfl) (hp rfl) (hp rfl),
    commitUnits_only _ (hp rfl) (hp rfl) (hp rfl) (hp rfl) (hp rfl),
    dueSnapshots_only _ (hp rfl) (hp rfl) (hp rfl) (hp rfl) (hp rfl) (hp rfl) (hp rfl) (hp rfl)]
  exact changesOnly_refl _ s

theorem boundaryWork_epoch (s : State) : (boundaryWork s).epochs.epoch = s.epochs.epoch := changesOnly_epoch (boundaryWork_frame s) (by decide)

theorem exec_epochBoundary {s : State} (hp : s.glb.powered = true) (hst : s.glb.stage ≠ .inReset) : exec .epochBoundary s = .next (boundaryWork (nextEpoch s)) := by
  have hst' : (s.glb.stage == .inReset) = false := beq_eq_false_iff_ne.mpr hst
  change execEpochBoundary s = _
  simp only [execEpochBoundary, hp, hst', Bool.not_true, Bool.or_self, Bool.false_eq_true, if_false]
  rfl

/-! The commit of one unit (R46) -/

theorem commitUnit_of_not_pending {i : Fin 32} {s : State} (h : (unitAt s i).phase ≠ .pending) : commitUnit i s = s := by
  rw [commitUnit, if_pos (bne_iff_ne.mpr h)]

section
variable {i : Fin 32} {s : State} (h : (unitAt s i).phase = .pending)
include h

theorem commitUnit_of_pending : commitUnit i s = modUnit i (fun u => { u with phase := .grace })
    (if isBank i then mapUnit i Staged_swap (beforeCommit i s) else mapUnit i Staged_commit (beforeCommit i s)) := by
  rw [commitUnit, h, if_neg (by decide)]

theorem commitUnit_phase : (unitAt (commitUnit i s) i).phase = .grace := by
  rw [commitUnit_of_pending h, unitAt_modUnit, if_pos rfl]

theorem commitUnit_parse : (commitUnit i s).parse = (if isBank i then mapUnit i Staged_swap (beforeCommit i s) else mapUnit i Staged_commit (beforeCommit i s)).parse := by
  rw [commitUnit_of_pending h, modUnit_parse]

theorem commitUnit_cls : (commitUnit i s).cls = (if isBank i then mapUnit i Staged_swap (beforeCommit i s) else mapUnit i Staged_commit (beforeCommit i s)).cls := by
  rw [commitUnit_of_pending h, modUnit_cls]

theorem commitUnit_sched : (commitUnit i s).sched = (if isBank i then mapUnit i Staged_swap (beforeCommit i s) else mapUnit i Staged_commit (beforeCommit i s)).sched := by
  rw [commitUnit_of_pending h, modUnit_sched]

theorem commitUnit_net : (commitUnit i s).net = (if isBank i then mapUnit i Staged_swap (beforeCommit i s) else mapUnit i Staged_commit (beforeCommit i s)).net := by
  rw [commitUnit_of_pending h, modUnit_net]

end

/-- A unit of a host keeps its coats apart from a bank unit: the commit copies, it does not exchange (R44). -/
theorem commitUnit_net_of_host {i : Fin 32} {s : State} (h : (unitAt s i).phase = .pending) (hb : isBank i = false) :
    (commitUnit i s).net = (mapUnit i Staged_commit (beforeCommit i s)).net := by
  rw [commitUnit_net h, hb, if_neg Bool.false_ne_true]

section
variable (h : HostId) (f : {α : Type} → Staged α → Staged α) (s : State)

theorem mapUnit_spread : mapUnit (unitBit (.spread h)) f s = modUnits h (fun u => { u with spread := f u.spread }) s :=
  match h with
  | 0 | 1 | 2 | 3 | 4 | 5 | 6 | 7 => rfl

theorem mapUnit_schedHost : mapUnit (unitBit (.schedHost h)) f s = modUnits h (fun u => { u with sched := f u.sched }) s :=
  match h with
  | 0 | 1 | 2 | 3 | 4 | 5 | 6 | 7 => rfl

theorem mapUnit_vfQuota : mapUnit (unitBit (.vfQuota h)) f s = modUnits h (fun u => { u with vfQuota := f u.vfQuota }) s :=
  match h with
  | 0 | 1 | 2 | 3 | 4 | 5 | 6 | 7 => rfl

theorem isBank_of_host (u : RUnit) (hu : 8 ≤ (unitBit u).val) : isBank (unitBit u) = false := decide_eq_false (by omega)

theorem beforeCommit_units (i : Fin 32) : (beforeCommit i s).net.units = s.net.units := by
  unfold beforeCommit
  split
  · rfl
  split
  · rfl
  split
  · rfl
  split
  · rfl
  split <;> rfl

theorem modUnits_units (g : HostUnits → HostUnits) : (modUnits h g s).net.units[h] = g (s.net.units[h]) := by
  simp only [modUnits, getElem_vmod, if_true]

end

section
variable (h : HostId) {s : State}

theorem commitUnit_spread (hph : (unitAt s (unitBit (.spread h))).phase = .pending) :
    ((commitUnit (unitBit (.spread h)) s).net.units[h]).spread.top = (s.net.units[h]).spread.under := by
  rw [commitUnit_net_of_host hph (isBank_of_host _ (by simp only [unitBit]; omega)), mapUnit_spread, modUnits_units, beforeCommit_units]
  rfl

theorem commitUnit_schedHost (hph : (unitAt s (unitBit (.schedHost h))).phase = .pending) :
    ((commitUnit (unitBit (.schedHost h)) s).net.units[h]).sched.top = (s.net.units[h]).sched.under := by
  rw [commitUnit_net_of_host hph (isBank_of_host _ (by simp only [unitBit]; omega)), mapUnit_schedHost, modUnits_units, beforeCommit_units]
  rfl

theorem commitUnit_vfQuota (hph : (unitAt s (unitBit (.vfQuota h))).phase = .pending) :
    ((commitUnit (unitBit (.vfQuota h)) s).net.units[h]).vfQuota.top = (s.net.units[h]).vfQuota.under := by
  rw [commitUnit_net_of_host hph (isBank_of_host _ (by simp only [unitBit]; omega)), mapUnit_vfQuota, modUnits_units, beforeCommit_units]
  rfl

end

/-- Settles O18. -/
theorem epochBoundaryCommitsPendingUnits : Obligations.EpochBoundaryCommitsPendingUnits := by
  refine ⟨fun s hp hst => ⟨exec_epochBoundary hp hst, _, exec_epochBoundary hp hst, boundaryWork_epoch _⟩, fun i s => commitUnit_of_not_pending,
    fun s h => ⟨commitUnit_phase h, ?_⟩, fun s h => ⟨commitUnit_phase h, ?_⟩, fun s h => ⟨commitUnit_phase h, ?_⟩, fun s h => ⟨commitUnit_phase h, ?_⟩,
    fun s h => ⟨commitUnit_phase h, ?_⟩, fun h s hph => ⟨commitUnit_phase hph, commitUnit_spread h hph⟩,
    fun h s hph => ⟨commitUnit_phase hph, commitUnit_schedHost h hph⟩, fun h s hph => ⟨commitUnit_phase hph, commitUnit_vfQuota h hph⟩⟩
  · rw [commitUnit_parse h]
    exact ⟨rfl, rfl, rfl⟩
  · rw [commitUnit_cls h]
    exact ⟨rfl, rfl, rfl⟩
  · rw [commitUnit_sched h]
    exact ⟨rfl, rfl⟩
  · rw [commitUnit_sched h]
    exact ⟨rfl, rfl⟩
  · rw [commitUnit_net h]
    exact ⟨rfl, rfl⟩

end Sys2Proof.Machine
end

section
/-! PROOF. Power, the resets and the stages of BOOT (R10, R20, R27, R33, R421, R489), for O16. -/

namespace Sys2Proof.Machine
open Sys2Proof

/-! Power -/

theorem exec_powerOn (s : State) : Completes (exec .powerOn s) fun t =>
    modeOf t.glb = (.boot, none, .powerOn, 0) ∧ t.glb.powered = true ∧ t.glb.fwRuns = false ∧ t.epochs = Epochs.reset ∧ t.nv = s.nv ∧
    t.ops = [] ∧ t.queues = [] ∧ t.counters = [] ∧ t.crypt.slots = [] ∧ t.dram = Dram.reset ∧ t.clk.holdoverCount = 0 :=
  ⟨_, rfl, rfl, rfl, rfl, rfl, rfl, rfl, rfl, rfl, rfl, rfl, rfl⟩

theorem exec_powerRemoved (s : State) : Completes (exec .powerRemoved s) fun t =>
    t.glb.powered = false ∧ t.nv = s.nv ∧ t.ops = [] ∧ t.queues = [] ∧ t.nvme = Nvme.reset ∧ t.crypt.slots = [] ∧ t.dram = Dram.reset :=
  ⟨_, rfl, rfl, rfl, rfl, rfl, rfl, rfl, rfl⟩

/-! DEV_RST_N (R489) -/

theorem resetPins_out (s : State) :
    (resetPins s).out = .pin "DRV_PERST_N" false :: .pin "XSPI_RESET_N" false :: .pin "DDR_RESET_N" false :: s.out := rfl

/-- What a taken pulse leaves, before THERMTRIP_N is released. -/
def pinResetState (s : State) : State := resetPins (deviceReset .pinReset (drawn1 s))

section
variable {s : State} (hp : s.glb.powered = true)
include hp

/-- A pulse of 1 µs or more is always taken. -/
theorem exec_devRstNAssert_taken (ns : Nat) (hns : 1000 ≤ ns) : exec (.devRstNAssert ns) s =
    .next (if s.elec.tripped then emit (.pin "THERMTRIP_N" true) (pinResetState s) else pinResetState s) := by
  have htaken : pulseTaken ns s = true := by rw [pulseTaken, decide_eq_true hns, Bool.true_or]
  change execDevRstNAssert ns s = _
  simp only [execDevRstNAssert, hp, htaken, Bool.not_true, Bool.false_eq_true, if_false]
  rfl

theorem devRstNAssert_completes (ns : Nat) (hns : 1000 ≤ ns) : Completes (exec (.devRstNAssert ns) s) fun t =>
    modeOf t.glb = (.boot, none, .pinReset, s.glb.modeSeq + 1) ∧ t.glb.stage = .inReset ∧ t.nv = s.nv ∧ t.epochs = Epochs.reset ∧
    t.clk.holdoverCount = s.clk.holdoverCount ∧ .pin "DDR_RESET_N" false ∈ t.out ∧ .pin "DRV_PERST_N" false ∈ t.out ∧ .pin "XSPI_RESET_N" false ∈ t.out := by
  have hout : (pinResetState s).out = .pin "DRV_PERST_N" false :: .pin "XSPI_RESET_N" false :: .pin "DDR_RESET_N" false :: s.out := resetPins_out _
  refine ⟨_, exec_devRstNAssert_taken hp ns hns, ?_⟩
  cases s.elec.tripped
  · rw [if_neg Bool.false_ne_true, hout]
    exact ⟨rfl, rfl, rfl, rfl, rfl, by simp, by simp, by simp⟩
  · rw [if_pos rfl, emit, hout]
    exact ⟨rfl, rfl, rfl, rfl, rfl, by simp, by simp, by simp⟩

theorem exec_devRstNAssert_ignored (ns : Nat) (hns : ns < 100) : Completes (exec (.devRstNAssert ns) s) fun t => changesOnly [.drawn] s t := by
  have htaken : pulseTaken ns s = false := by
    rw [pulseTaken, decide_eq_false (by omega), decide_eq_false (by omega), Bool.false_and, Bool.or_self]
  change Completes (execDevRstNAssert ns s) _
  simp only [execDevRstNAssert, hp, htaken, Bool.not_true, Bool.not_false, Bool.false_eq_true, if_false, if_true]
  exact ⟨_, rfl, (drawn1_only s (by decide)).mpr (changesOnly_refl _ s)⟩

theorem exec_devRstNRelease (straps : BitVec 4) (hst : s.glb.stage = .inReset) :
    exec (.devRstNRelease straps) s = .next { s with glb := { s.glb with straps := straps, stage := .waitLock } } := by
  change execDevRstNRelease straps s = _
  simp only [execDevRstNRelease, hp, hst, bne_self_eq_false, Bool.not_true, Bool.or_self, Bool.false_eq_true, if_false]

theorem exec_holdoverExpiry (hh : s.clk.holdover = true) : Completes (exec .holdoverExpiry s) fun t =>
    modeOf t.glb = (.boot, none, .refLoss, s.glb.modeSeq + 1) ∧ t.glb.stage = .waitLock ∧ t.nv = s.nv ∧ t.epochs = Epochs.reset ∧ t.ops = [] := by
  change Completes (execHoldoverExpiry s) _
  simp only [execHoldoverExpiry, hp, hh, Bool.and_self, if_true]
  exact ⟨_, rfl, rfl, rfl, rfl, rfl, rfl⟩

end

/-! A mode is entered, and the hosts that wait are attached -/

theorem changeMode_cases (m : Mode) (c : Cause) (s : State) :
    changeMode m c s = enterMode m c s ∨ changeMode m c s = stopClusters (enterMode m c s) := by
  cases m <;> simp only [changeMode, true_or, or_true]

theorem modeOf_stopClusters (s : State) : modeOf (stopClusters s).glb = modeOf s.glb :=
  changesOnly_mode (L := [.hod, .crypt, .cores, .dram, .counters])
    ((stopClusters_only s (by decide) (by decide) (by decide) (by decide) (by decide)).mpr (changesOnly_refl _ s)) (by decide)

theorem modeOf_changeMode (m : Mode) (c : Cause) (s : State) : modeOf (changeMode m c s).glb = (m, some s.glb.mode, c, s.glb.modeSeq + 1) := by
  rcases changeMode_cases m c s with h | h
  · rw [h, modeOf_enterMode]
  · rw [h, modeOf_stopClusters, modeOf_enterMode]

theorem changeMode_frame (m : Mode) (c : Cause) (s : State) :
    changesOnly [.out, .glb, .owner, .rings, .hosts, .fns, .hod, .crypt, .cores, .dram, .counters, .mode] s (changeMode m c s) :=
  (changeMode_only m c s (by decide) (by decide) (by decide) (by decide) (by decide) (by decide) (by decide) (by decide) (by decide) (by decide) (by decide) (by decide)).mpr
    (changesOnly_refl _ s)

theorem attachWaiting_frame (s : State) : changesOnly [.glb, .owner, .hosts, .parse, .cls, .sched, .net, .degr] s (attachWaiting s) :=
  (attachWaiting_only s (by decide) (by decide) (by decide) (by decide) (by decide) (by decide) (by decide) (by decide)).mpr (changesOnly_refl _ s)

section
variable (m : Mode) (c : Cause) (s : State)

/-- The mode that BOOT is left for, with the waiting hosts attached. -/
def bootLeft : State := attachWaiting (changeMode m c s)

theorem modeOf_bootLeft : modeOf (bootLeft m c s).glb = (m, some s.glb.mode, c, s.glb.modeSeq + 1) := by
  rw [bootLeft, changesOnly_mode (attachWaiting_frame _) (by decide), modeOf_changeMode]

theorem bootLeft_nv : (bootLeft m c s).nv = s.nv := by
  rw [bootLeft, changesOnly_nv (attachWaiting_frame _) (by decide), changesOnly_nv (changeMode_frame m c s) (by decide)]

theorem bootLeft_sec : (bootLeft m c s).sec = s.sec := by
  rw [bootLeft, changesOnly_sec (attachWaiting_frame _) (by decide), changesOnly_sec (changeMode_frame m c s) (by decide)]

end

/-! The ROM (R421) -/

/-- The ROM's first actions: the boot is counted, the regulators are set. -/
def romStarted (s : State) : State := bootRegulators { s with nv := { s.nv with bootCount := s.nv.bootCount + 1 } }

section
variable (s : State)

theorem slotReason_romStarted : slotReason (romStarted s) = slotReason s := rfl

theorem slotSequence_romStarted : slotSequence (romStarted s) = slotSequence s := rfl

/-- The choice of a slot rests on nothing that the first actions change. -/
theorem selectSlot_romStarted : selectSlot (romStarted s) = selectSlot s := by
  unfold selectSlot
  rw [slotReason_romStarted, slotSequence_romStarted]

end

theorem romStage_of_chosen {s : State} {reasons : Vector Nat 2} {n : Nat} (hsel : selectSlot s = (reasons, some n)) :
    (romStage s).nv.bootCount = s.nv.bootCount + 1 ∧ (romStage s).glb = { s.glb with stage := .loader } ∧ (romStage s).sec.slot = n ∧
      (romStage s).sec.reasons = reasons ∧ (romStage s).nv.attempts = vmod s.nv.attempts (slotIx n) (fun k => min 3 (k + 1)) ∧ (romStage s).elec.vout = 700 := by
  rw [romStage, show bootRegulators _ = romStarted s from rfl, selectSlot_romStarted, hsel]
  exact ⟨rfl, rfl, rfl, rfl, rfl, rfl⟩

/-- With no image to start, the ROM leaves BOOT for its recovery. -/
theorem romStage_of_none {s : State} {reasons : Vector Nat 2} (hsel : selectSlot s = (reasons, none)) :
    ∃ u, romStage s = bootLeft .maintenance .noValidImage u ∧ u.glb = { s.glb with stage := .recovery } ∧ u.nv = { s.nv with bootCount := s.nv.bootCount + 1 } ∧
      u.sec.recovery = true := by
  rw [romStage, show bootRegulators _ = romStarted s from rfl, selectSlot_romStarted, hsel]
  exact ⟨_, rfl, rfl, rfl, rfl⟩

section
variable {s : State} (hb : bootRuns s .rom = true) (hh : s.clk.holdover = false)
include hb hh

theorem exec_romStage_eq : exec .romStage s = .next (romStage s) := by
  change execRomStage s = _
  simp only [execRomStage, hb, hh, Bool.not_true, Bool.false_and, Bool.or_self, Bool.false_eq_true, if_false]

theorem exec_romStage_chosen {n : Nat} (hsel : (selectSlot s).2 = some n) : Completes (exec .romStage s) fun t =>
    t.nv.bootCount = s.nv.bootCount + 1 ∧ t.glb = { s.glb with stage := .loader } ∧ t.sec.slot = n ∧ t.sec.reasons = (selectSlot s).1 ∧
      t.nv.attempts = vmod s.nv.attempts (slotIx n) (fun k => min 3 (k + 1)) ∧ t.elec.vout = 700 :=
  ⟨_, exec_romStage_eq hb hh, romStage_of_chosen (Prod.ext rfl hsel)⟩

theorem exec_romStage_none (hsel : (selectSlot s).2 = none) : Completes (exec .romStage s) fun t =>
    t.nv.bootCount = s.nv.bootCount + 1 ∧ modeOf t.glb = (.maintenance, some s.glb.mode, .noValidImage, s.glb.modeSeq + 1) ∧
      t.sec.recovery = true ∧ t.nv.attempts = s.nv.attempts := by
  obtain ⟨u, hrom, hglb, hnv, hsec⟩ := romStage_of_none (s := s) (Prod.ext rfl hsel)
  refine ⟨_, exec_romStage_eq hb hh, ?_⟩
  rw [hrom]
  dsimp only
  rw [modeOf_bootLeft, bootLeft_nv, bootLeft_sec, hglb, hnv]
  exact ⟨rfl, rfl, hsec, rfl⟩

end

/-! The loader -/

/-- The loader's work: repairs, the training of the DRAM and its carve. -/
def loaderWork (found : BootFindings) (s : State) : State :=
  applyCarve (trainDram found (applyRepairs (found.dimms.toList.filterMap fun d => d.map fun x => x.serial.toNat) s))

/-- What the loader's work may change: neither the mode nor the epoch is among it. -/
def loaderParts : List Part :=
  [.out, .drawn, .nv, .glb, .owner, .hosts, .fns, .queues, .eth, .hod, .sched, .net, .nvme, .dram, .elec, .degr, .bist, .carve, .counters]

theorem loaderWork_frame (found : BootFindings) (s : State) : changesOnly loaderParts s (loaderWork found s) := by
  have hp {p : Part} (h : loaderParts.elem p = true) : p ∈ loaderParts := listed h
  rw [loaderWork, applyCarve_only _ (hp rfl) (hp rfl) (hp rfl) (hp rfl),
    trainDram_only _ _ (hp rfl) (hp rfl) (hp rfl) (hp rfl) (hp rfl) (hp rfl),
    applyRepairs_only _ _ (hp rfl) (hp rfl) (hp rfl) (hp rfl) (hp rfl) (hp rfl) (hp rfl) (hp rfl) (hp rfl) (hp rfl) (hp rfl) (hp rfl) (hp rfl) (hp rfl) (hp rfl)
      (hp rfl) (hp rfl)]
  exact changesOnly_refl _ s

section
variable (found : BootFindings) {s : State} (hb : bootRuns s .loader = true)
include hb

theorem exec_loaderStage_eq {c : Component} (hc : componentOf s 2 = some c) (hok : loadedOk s c = true) : exec (.loaderStage found) s =
    .next { loaderWork found (extend 2 c.digest s) with glb := { (loaderWork found (extend 2 c.digest s)).glb with stage := .mgmtFw } } := by
  change execLoaderStage found s = _
  simp only [execLoaderStage, hb, hc, hok, Bool.not_true, Bool.false_eq_true, if_false]
  rfl

theorem exec_loaderStage_loaded {c : Component} (hc : (componentOf s 2).filter (loadedOk s) = some c) : Completes (exec (.loaderStage found) s) fun t =>
    t.glb.stage = .mgmtFw ∧ modeOf t.glb = modeOf s.glb ∧ t.epochs.epoch = s.epochs.epoch := by
  obtain ⟨hc, hok⟩ := Option.filter_eq_some_iff.mp hc
  have hframe := loaderWork_frame found (extend 2 c.digest s)
  have hmode := changesOnly_mode hframe (by decide)
  have hepoch := changesOnly_epoch hframe (by decide)
  exact ⟨_, exec_loaderStage_eq found hb hc hok, rfl, hmode, hepoch⟩

theorem exec_loaderStage_failed (hc : (componentOf s 2).filter (loadedOk s) = none) : Completes (exec (.loaderStage found) s) fun t =>
    t = deviceReset s.glb.cause s := by
  refine ⟨_, ?_, rfl⟩
  change execLoaderStage found s = _
  simp only [execLoaderStage, hb, Bool.not_true, Bool.false_eq_true, if_false]
  cases hf : componentOf s 2 with
  | none => rfl
  | some c => simp only [Bool.eq_false_iff.mpr (Option.filter_eq_none_iff.mp hc c hf), Bool.not_false, if_true]

end

/-! The management firmware, and the end of BOOT -/

theorem exec_mgmtFwStage {s : State} (hb : bootRuns s .mgmtFw = true) : exec .mgmtFwStage s = .next
    (if ((components (runningHeader s)).filter fun c => 4 ≤ c.type).all (loadedOk s) then
      startPrograms (applyLayouts (finishSanitizes (loadKeys (loadTables (extendComponents (reportEntries
        (raiseModeChange 0 { s with glb := { s.glb with fwRuns := true, stage := .finished } })))))))
    else deviceReset s.glb.cause s) := by
  change execMgmtFwStage s = _
  simp only [execMgmtFwStage, hb, ← List.not_all_eq_any_not, Bool.not_true, Bool.false_eq_true, if_false]
  cases List.all _ (loadedOk s)
  · simp only [Bool.not_false, if_true, Bool.false_eq_true, if_false]
  · simp only [Bool.not_true, if_true, Bool.false_eq_true, if_false]

theorem exec_bootDone {s : State} (hb : bootRuns s .finished = true) (hh : s.clk.holdover = false) : Completes (exec .bootDone s) fun t =>
    modeOf t.glb = ((bootTarget s).1, some s.glb.mode, (bootTarget s).2, s.glb.modeSeq + 1) ∧
    t.nv = { s.nv with attempts := vset s.nv.attempts (slotIx s.sec.slot) 0 } := by
  change Completes (execBootDone s) _
  simp only [execBootDone, hb, hh, Bool.not_true, Bool.or_self, Bool.false_eq_true, if_false]
  exact ⟨_, rfl, modeOf_bootLeft .., bootLeft_nv ..⟩

/-- Settles O16. -/
theorem powerResetAndBootStagesComplete : Obligations.PowerResetAndBootStagesComplete := by
  refine ⟨exec_powerOn, exec_powerRemoved, fun ns s hp => devRstNAssert_completes hp ns, fun ns s hp => exec_devRstNAssert_ignored hp ns,
    fun st s hp => exec_devRstNRelease hp st, fun s => exec_holdoverExpiry, fun s hb hh => ?_, fun found s hb => ?_, fun s => exec_mgmtFwStage, fun s => exec_bootDone⟩
  · cases hsel : (selectSlot s).2 with
    | none => exact exec_romStage_none hb hh hsel
    | some n => exact exec_romStage_chosen hb hh hsel
  · cases hc : (componentOf s 2).filter (loadedOk s) with
    | none => exact exec_loaderStage_failed found hb hc
    | some c => exact exec_loaderStage_loaded found hb hc

end Sys2Proof.Machine
end
